-- ==== Sys2Proof/Word.lean ====
section
/-! DEFINITION. The word types of the VX9 node: registers are 64 bits wide (R15), memory is byte addressed (R11). -/

namespace Sys2Proof

/-- A register word (R15). -/
abbrev Word := BitVec 64

/-- A byte of memory or of a command. -/
abbrev Byte := BitVec 8

end Sys2Proof
end

