-- ==== Sys2Proof/Syntax.lean ====
section
/-! DEFINITION. The commands of the VX9 node: one constructor per row of the spec's table of operations and
events. A host command names the queue and command identifier of its admitted request (partition `p`, queue `q`,
`cid`) and carries the bytes the node reads from host memory for it; an event names the unit it befalls and carries what
arrives from outside or is measured. -/

namespace Sys2Proof

/-- A packet (Table 14.4); `args` are the numbers of an order or message payload in the order its chapter gives,
`data` its bytes. -/
structure Packet where
  vc       : Nat
  ptype    : Nat
  opcode   : Nat
  dstNode  : Nat
  dstPart  : Nat := 0
  dstEp    : Nat := 0
  srcNode  : Nat
  srcPart  : Nat := 0
  srcEp    : Nat := 0
  stream   : Nat := 0
  hops     : Nat := 0
  length   : Nat := 0
  resetGen : Nat := 0
  seq      : Nat := 0
  frag     : Nat := 0
  frags    : Nat := 1
  budget   : Nat := 0
  dist     : Nat := 0
  args     : List Nat := []
  data     : List Byte := []
deriving DecidableEq, Repr


/-- What a media scrub finds of a page (R338, R343): that it decodes well, that it needed retry, up to level 4 or above, or that it decoded with more
corrected bits than half of the LDPC limit. -/
inductive ScrubFound where
  | sound | retried | deepRetry | weak
deriving DecidableEq, Repr

/-- What a boot finds (Table 18.3): whether the two stage-1 copies match their own digests (R442), the dies (bits 0 to 2: SCD0, SCD1,
FHD) whose identity the MSD verifies (R450), the units that fail their self test and the LUNs that do not answer, by kind * 4096 + number, the flash population as LUNs per
channel, blocks per LUN, pages per block, RATED_PE and pairs of factory-bad blocks (nothing fitted: empty), whether it is one that R329
allows, the step at which a die or a clock is found missing (0 = none), and whether the time synthesiser has locked to the crystal by step 3 (R43). -/
structure BootFound where
  copyA   : Bool
  copyB   : Bool
  dies    : Nat
  failed  : List Nat
  flash   : List Nat
  flashOk : Bool
  stopAt  : Nat
  locked  : Bool
deriving DecidableEq, Repr

/-- What completes a fence token on a channel (R185): the channel, and, where a token descriptor is issued first, the request it belongs to and its
bytes (none: empty). -/
structure TokenAt where
  chan : Nat
  rid  : Nat := 0
  desc : List Byte := []
deriving DecidableEq, Repr

/-- A row and its activations by ordinary accesses in the present window of 32 ms (R191). -/
structure RowActs where
  row    : Nat
  others : Nat
deriving DecidableEq, Repr

/-- What a register write goes to: the node space, with 64 bits; a partition's window, with 64 bits or with 32 (R15, R16, R86). -/
inductive RegTarget where
  | node
  | win
  | winHalf
deriving DecidableEq, Repr

/-- The commands and events of the node, one per row of the table. -/
inductive Instr where
  /-- R125: Host command 0x00 carries zero PARAMS and completes with DONE. -/
  | nop (p q cid : Nat)
  /-- R133: Host command 0x01 waits for every earlier command of its queue or partition to complete, optionally excluding long operations. -/
  | fence (p q cid : Nat)
  /-- R133: The last command covered by a waiting FENCE has its completion written, so the FENCE completes with DONE. -/
  | fenceComplete (p q cid : Nat)
  /-- R139: Host command 0x02 cancels a long operation named by queue and CID, or reports that the target was not cancellable. -/
  | cancel (p q cid : Nat)
  /-- R455: ATTEST with OP 0 writes a signed attestation report with slots, die status and log entries. -/
  | attestReport (p q cid : Nat)
  /-- R455: ATTEST with OP 1 writes the three DER certificates of the named die's chain. -/
  | attestCertChain (p q cid : Nat)
  /-- R72: Long PF command 0x04 copies, checks, measures and applies a full or partial bridle image in the order of Table 2.11. -/
  | bridleLoad (p q cid : Nat) (image : List Byte)
  /-- R435: Long PF command 0x05 writes whole logbook records of a type from FIRST_SEQ up to MAX_BYTES. -/
  | logRead (p q cid : Nat)
  /-- R375: COLLECTIVE OP 0 enters a fabric barrier that completes after the anchor's release descends the tree. -/
  | collectiveBarrier (p q cid : Nat)
  /-- R375: COLLECTIVE OP 1 sends DATA_BYTES up to the anchor and down the collective tree. -/
  | collectiveBroadcastSend (p q cid : Nat) (data : List Byte)
  /-- R375: COLLECTIVE OP 2 receives broadcast data into RESULT_ADDR, taking buffered data if it arrived first. -/
  | collectiveBroadcastReceive (p q cid : Nat)
  /-- R375: COLLECTIVE OP 3 starts partition resets of the masked partitions on every member and waits for RESET_DONE up the tree. -/
  | collectiveReset (p q cid : Nat)
  /-- R376: COLLECTIVE OP 4 latches the issuer through the drogue and sends markers to take a fabric-wide snapshot. -/
  | collectiveSnapshot (p q cid : Nat)
  /-- R203: Host command 0x10 is admitted, pinned to an epoch and joins the next batch step of the partition. -/
  | query (p q cid : Nat) (input : List Byte)
  /-- R186: Host command 0x11 queues a BKE_FENCE token on each named processor channel. -/
  | bkeFence (p q cid : Nat)
  /-- R186: All tokens of a host BKE_FENCE have completed, so it completes with the ring tensor handle. -/
  | bkeFenceComplete (p q cid : Nat)
  /-- R171: Host command 0x12 publishes a new threshold set from the loop candidate or from host-supplied thresholds. -/
  | thresholdPublish (p q cid : Nat) (data : List Byte)
  /-- R267: Host command 0x20 checks and reserves space, then assigns delta local IDs to new vectors. -/
  | insert (p q cid : Nat) (vecs ids attrs : List Byte)
  /-- R270: Host command 0x21 reserves young tombstone entries for vector IDs to delete at commit. -/
  | delete (p q cid : Nat) (ids : List Byte)
  /-- R264: In the period after admission, an update command's rows are sketched and written and its checks are made. -/
  | updatePrepare (p q cid : Nat)
  /-- R274: Long command 0x22 checks sources, holds a SEG_ID and optionally seals the delta. -/
  | segmentBuild (p q cid : Nat)
  /-- R274: At the first boundary where earlier updates have committed, a build fixes its epoch and starts linking. -/
  | buildStart (p q cid : Nat)
  /-- R277: A build finishes linking and ends DONE with an unpublished segment. -/
  | segmentBuildDone (p q cid : Nat) (cands : List Nat)
  /-- R278: Long command 0x23 checks an imported segment descriptor and parts, optionally resketching. -/
  | segmentImport (p q cid : Nat)
  /-- R278: An import finishes its checks and resketching and ends with an unpublished segment or FAILED. -/
  | segmentImportDone (p q cid : Nat)
  /-- R279: Host command 0x24 enters the update sequence to add and retire segments at one epoch. -/
  | segmentPublish (p q cid : Nat)
  /-- R281: Host command 0x25 discards unpublished segments and retires published ones in the update sequence. -/
  | segmentRetire (p q cid : Nat)
  /-- R289: Host command 0x30 creates an embedding table shard with its descriptor, state and areas. -/
  | tableCreate (p q cid : Nat)
  /-- R292: Host command 0x31 sorts, fetches local and remote rows, pools and writes output rows. -/
  | tableLookup (p q cid : Nat) (indices offsets : List Byte)
  /-- R297: Host command 0x32 sums gradients per row and sends contributions to row owners. -/
  | tableUpdate (p q cid : Nat) (indices grads : List Byte)
  /-- R299: Host command 0x33 waits for earlier updates and sends STEP_END for steps up to STEP. -/
  | tableStepClose (p q cid : Nat)
  /-- R302: Host command 0x34 makes a new tensor the shard, increments the version and recalls drifted rows. -/
  | tableSwitch (p q cid : Nat)
  /-- R303: Host command 0x35 refuses new requests, discards open steps, recalls drifts and frees the table. -/
  | tableDestroy (p q cid : Nat)
  /-- R313: Host command 0x40 allocates a tensor in a tier and returns its handle and address. -/
  | tensorAlloc (p q cid : Nat)
  /-- R316: Host command 0x41 invalidates a handle and releases the tensor once earlier claims end. -/
  | tensorFree (p q cid : Nat)
  /-- R314: Host command 0x42 writes bytes into a tensor from a source address. -/
  | tensorWrite (p q cid : Nat) (data : List Byte)
  /-- R314: Host command 0x43 reads bytes of a tensor to RESULT_ADDR. -/
  | tensorRead (p q cid : Nat)
  /-- R317: Long command 0x44 copies a tensor to another tier in 2 MiB chunks with dirty passes. -/
  | tensorMigrate (p q cid : Nat)
  /-- R317: After dirty passes and a write claim, the handle is switched to the destination and the source is later freed. -/
  | migrateSwitch (p q cid : Nat)
  /-- R315: A command waiting for tensor claims takes all of them at once and is admitted. -/
  | claimGrant (p q cid : Nat)
  /-- R326: COMPOSITION_SET OP 0 checks a definition and replaces or creates a composition at one instant. -/
  | compositionSet (p q cid : Nat) (data : List Byte)
  /-- R325: COMPOSITION_SET OP 1 removes a composition and writes its final meter record. -/
  | compositionRemove (p q cid : Nat)
  /-- R238: Host command 0x50 checks a model tensor, places its layer window and binds it to a slot. -/
  | modelBind (p q cid : Nat)
  /-- R238: MODEL_BIND with UNBIND set frees a slot's binding once running work ends. -/
  | modelUnbind (p q cid : Nat)
  /-- R242: Host command 0x51 runs a bound model on rows of input as array work of the partition. -/
  | arrayRun (p q cid : Nat) (input : List Byte)
  /-- R334: Host command 0x60 reads namespace units, with retry and parity rebuild of failed pages. -/
  | nsRead (p q cid : Nat)
  /-- R335: Host command 0x61 programs namespace units atomically with parity log and journal. -/
  | nsWrite (p q cid : Nat) (data : List Byte)
  /-- R336: Host command 0x62 unmaps namespace units and invalidates their pages. -/
  | nsTrim (p q cid : Nat)
  /-- R337: NS_FORMAT OP 0 creates an unmapped read-write namespace of SIZE units. -/
  | nsFormatCreate (p q cid : Nat)
  /-- R337: NS_FORMAT OP 1 destroys the namespace key, clears its map and frees the NSID. -/
  | nsFormatDelete (p q cid : Nat)
  /-- R337: NS_FORMAT OP 2 destroys the key and clears the map, leaving an empty namespace. -/
  | nsFormatErase (p q cid : Nat)
  /-- R337: Map clearing of a delete or erase ends and the long operation completes. -/
  | nsFormatDone (p q cid : Nat)
  /-- R136: An IDLE long operation starts in fetch order when a running one ends. -/
  | longOpStart (p q cid : Nat)
  /-- R136: Every 10 ms the status word of a running long operation is rewritten. -/
  | longOpStatusTick (p q cid : Nat)
  /-- R117: A write of HIF_SQ_TAIL is checked and recorded as the submission queue tail. -/
  | sqTailDoorbell (p q tail : Nat)
  /-- R117: A write of HIF_CQ_HEAD is checked and frees completion queue slots. -/
  | cqHeadDoorbell (p q head : Nat)
  /-- R118: Setting HIF_Q_CFG.ENABLE checks the configuration and enables a queue pair with zeroed pointers. -/
  | queueEnable (p q : Nat)
  /-- R119: Clearing HIF_Q_CFG.ENABLE stops fetching while owed completions are still written. -/
  | queueDisable (p q : Nat)
  /-- R115: The node fetches the next command of a queue when a completion slot is free and reserves it. -/
  | commandFetch (p q : Nat) (bytes : List Byte)
  /-- R380: Stage 5 chooses a staged command, which is stamped and admitted with a context. -/
  | hostIngressAdmit (port : Nat)
  /-- R132: All earlier commands of the queue have completions, so a held ORDERED command executes and fetching resumes. -/
  | orderedRelease (p q : Nat)
  /-- R99: A context is freed within the allowance and an admission waiting for it proceeds. -/
  | admissionResume (p : Nat)
  /-- R99: A buffered fabric request finds no context within 50 µs and is refused with REMOTE_ERROR. -/
  | fabricReqBufferTimeout (p : Nat)
  /-- R141: The oldest pending completion has waited AGG_TIME_US, so an MSI-X message is sent. -/
  | msixCoalesceTimeout (p q : Nat)
  /-- R105: A write of RESET in PRT_WIN_CTL or PRT_p_CTL starts the partition reset sequence. -/
  | prtResetRequest (p value : Nat)
  /-- R103: Setting QUIESCE stops fetching and fabric admission and enters QUIESCING. -/
  | prtQuiesceSet (p : Nat)
  /-- R103: Clearing QUIESCE returns the partition to READY and resumes fetching from recorded doorbells. -/
  | prtQuiesceClear (p : Nat)
  /-- R103: The quiesce conditions come to hold and the partition enters QUIESCED, raising EV_QUIESCED. -/
  | prtQuiescedEntry (p : Nat)
  /-- R104: A PCI Express FLR of a virtual function resets its partition without SCRUB. -/
  | vfFunctionLevelReset (port vf : Nat)
  /-- R107: An FLR of a physical function or clearing VF Enable resets partition 0 or 32 and the port's VF partitions. -/
  | pfFunctionLevelReset (port : Nat) (clearOnly : Bool)
  /-- R87: Enabling the function of a HELD partition runs a partition reset and makes it READY. -/
  | vfEnable (port numVfs : Nat)
  /-- R108: A received DRAIN order vents the partition's work, ends coordinated requests and acknowledges on VC0. -/
  | drainOrderArrival (src part gen seq : Nat)
  /-- R105: A drain acknowledgement arrives, and when all are in the reset proceeds to steps 7 and 8. -/
  | drainAckArrival (src part gen seq : Nat)
  /-- R108: Unacknowledged drains reach the step 6 bound and the reset proceeds, counting the timeout. -/
  | drainTimeout (p : Nat)
  /-- R110: Zeroing, sanitising and release of a scrubbing reset finish and RESET_DONE follows. -/
  | scrubDone (p : Nat)
  /-- R100: The target pool receives OFFER and allocates a PENDING context or replies REFUSE. -/
  | handoffOfferArrival (ctx gen : Nat)
  /-- R100: The source receives ACCEPT, sets the admission record, frees its copy and sends COMMIT. -/
  | handoffAcceptArrival (ctx newCtx gen : Nat)
  /-- R100: The source receives REFUSE and returns its copy to OWNED. -/
  | handoffRefuseArrival (ctx gen : Nat)
  /-- R100: The target receives COMMIT, makes the context OWNED and starts the next stage. -/
  | handoffCommitArrival (ctx gen : Nat)
  /-- R100: Every 10 µs after a REFUSE the source retries the offer. -/
  | handoffRetryTimer (ctx : Nat)
  /-- R101: A watchdog finds a copy OFFERED or PENDING beyond 100 µs and settles ownership. -/
  | contextContest (ctx : Nat)
  /-- R102: A context pool reports an uncorrectable error or stall and is reinitialised, aborting its requests. -/
  | poolLoss (g : Nat) (ecc : Bool)
  /-- R152: The local time reference reaches a multiple of a partition's period, so the boundary events run. -/
  | periodBoundary (p : Nat)
  /-- R154: An array with no owner is taken by the first partition that queues array work, starting a switch and a round. -/
  | arrayTaken (a p : Nat)
  /-- R154: A round has run ROUND_US, so used counts reset and quanta are recomputed. -/
  | arrayRoundStart (a : Nat)
  /-- R155: Warm-in and spill restore finish and the new owner's first instruction is issued. -/
  | arraySwitchDone (a : Nat)
  /-- R160: A privileged owner reaches a cheap point after a yield request and spills its live state. -/
  | privilegedYield (a : Nat)
  /-- R159: No cheap point is reached within YIELD_LIMIT_US, so the request is cancelled and a miss counted. -/
  | yieldLimitExpiry (a : Nat)
  /-- R176: Bank descriptor 0x01 compares channel rows of sketches with query sketches into engine lists. -/
  | scanHam (p c rid : Nat) (desc : List Byte)
  /-- R177: Bank descriptor 0x02 compares sketches named by an address list with query sketches. -/
  | gatherHam (p c rid : Nat) (desc : List Byte)
  /-- R178: Bank descriptor 0x03 ANDs two bitmaps, optionally writes the result and counts its bits. -/
  | scanBits (p c rid : Nat) (desc : List Byte)
  /-- R179: Bank descriptor 0x04 copies channel rows from SRC to DST. -/
  | copy (p c rid : Nat) (desc : List Byte)
  /-- R179: Bank descriptor 0x05 writes a 64-bit pattern into channel rows. -/
  | fill (p c rid : Nat) (desc : List Byte)
  /-- R185: A fence token completes when earlier descriptors are in DRAM and updates ring PRODUCER. -/
  | bkeFenceToken (p : Nat) (tok : TokenAt)
  /-- R187: A bank descriptor finishes and returns a token with its status and records. -/
  | bankCmdDone (c : Nat)
  /-- R172: A processor channel idle for LINGER_US returns to MEMORY mode and serves held accesses. -/
  | channelLingerExpiry (c : Nat)
  /-- R194: An ordinary access to a PROCESSOR-mode channel is held, and a full hold queue starts a yield. -/
  | ordinaryAccessHeld (c addr : Nat) (write : Bool) (data : List Byte)
  /-- R195: The oldest held access reaches the hold limit, so the channel yields to serve held accesses. -/
  | forcedYield (c : Nat)
  /-- R192: A bank refresh falls due and is issued or inserted after the current row step. -/
  | refreshDue (c bank postponed : Nat)
  /-- R191: A row reaches ACT_LIMIT activations in 32 ms and its neighbours are refreshed. -/
  | targetedRefresh (c bank : Nat) (acts : RowActs)
  /-- R193: Each 10 µs window a stack compares its engine power estimate with the budget to throttle starts. -/
  | engineThrottleWindow (stack start : Nat) (temp : Int)
  /-- R214: The delta scan's tokens complete and its list entries are offered to query pools. -/
  | deltaScanDone (p : Nat)
  /-- R209: An adjacency record arrives and its unvisited neighbours are issued as a gather list. -/
  | traverseAdjacencyArrival (rid seg cand : Nat)
  /-- R209: Gathered distances arrive and are inserted into the beam and offered to the pool. -/
  | traverseDistancesArrival (rid seg cand : Nat)
  /-- R215: With the pool final, full vectors are scored exactly and the best K selected. -/
  | exactRerank (rid : Nat)
  /-- R218: A query sub-request on VC1 is admitted as a query of the shard's partition with a budget deadline. -/
  | shardSubrequestArrival (pkt : Packet)
  /-- R219: A shard's list arrives on VC2 and is merged at the coordinator. -/
  | shardResponseArrival (pkt : Packet)
  /-- R220: A shard refuses or is unreachable and the query ends or continues best-effort. -/
  | shardFailure (seq status : Nat)
  /-- R230: An array instruction in MAC mode accumulates products over a stationary tile. -/
  | arrayInstrMac (a p rid : Nat) (desc : List Byte)
  /-- R231: An array instruction in multi-word mode makes four passes and combines them. -/
  | arrayInstrMultiWord (a p rid : Nat) (desc : List Byte)
  /-- R232: An array instruction in distance mode accumulates distance terms. -/
  | arrayInstrDistance (a p rid : Nat) (desc : List Byte)
  /-- R226: An instruction's outputs are written and its token with requantised and clipped counts returns. -/
  | arrayInstrDone (a : Nat)
  /-- R239: The next layer of a model window is fetched into the space of a finished layer. -/
  | layerFetchDone (a p : Nat)
  /-- R247: A selection list is opened on a unit, or refused, or waits for room. -/
  | selectListOpen (u rid lid k : Nat) (higher fp dedup : Bool)
  /-- R251: An offered entry is inserted into a list under the streaming insertion procedure. -/
  | selectInsert (u lid key id seg node : Nat)
  /-- R255: A list is closed and reports its entries, counts, flags and sums. -/
  | selectListClose (u lid : Nat)
  /-- R259: A partial list is merged whole into a K list with deduplication. -/
  | selectMerge (u lid : Nat) (data : List Byte)
  /-- R208: Young tombstones at or below the fold epoch are folded into segment bitmaps and freed. -/
  | tombstoneFold (p : Nat)
  /-- R282: A retired segment is freed once the fold epoch reaches its retire epoch. -/
  | segmentFree (p seg : Nat)
  /-- R293: A lookup sub-request arrives on VC3 and the owner returns its rows. -/
  | remoteLookupRequest (pkt : Packet)
  /-- R292: Remote rows arrive on VC3 and are scattered to positions or bags. -/
  | remoteLookupResponse (pkt : Packet)
  /-- R297: A row contribution arrives on VC4 and is accumulated or refused. -/
  | contributionArrival (pkt : Packet)
  /-- R299: A STEP_END with a contribution count arrives from another node of the map. -/
  | stepEndArrival (pkt : Packet)
  /-- R300: The close conditions of a step hold and the optimiser is applied once per touched row. -/
  | embStepClose (table step : Nat)
  /-- R301: STEP_TIMEOUT_MS passes and the step closes with what has arrived. -/
  | embStepTimeout (table step : Nat)
  /-- R304: Every 10 ms a node sends its table load to the map's nodes on VC0. -/
  | embLoadReport (table : Nat)
  /-- R304: A LOAD order with another node's table load is received. -/
  | loadOrderArrival (pkt : Packet)
  /-- R306: A DRIFT_OFFER arrives and the node reserves a drift slot and entry and accepts, or refuses. -/
  | driftOfferArrival (pkt : Packet)
  /-- R306: The owner receives DRIFT_ACCEPT and sends the row copy on VC5. -/
  | driftAcceptArrival (pkt : Packet)
  /-- R306: A drifted row copy with its accumulator is written at the new node. -/
  | driftCopyArrival (pkt : Packet)
  /-- R306: After log replay converges the owner sets FORWARD and sends SWITCH with open-step sums. -/
  | driftSwitch (table row : Nat)
  /-- R306: The new node receives SWITCH and marks the row OWNED. -/
  | driftSwitchArrival (pkt : Packet)
  /-- R308: A drift to a reset node goes 100 µs without acknowledgement and is abandoned. -/
  | driftAbandonTimeout (table row : Nat)
  /-- R302: A RECALL arrives and the drift owner or replica drops the row and acknowledges. -/
  | recallArrival (pkt : Packet)
  /-- R302: A RECALL_ACK arrives at the home owner. -/
  | recallAckArrival (pkt : Packet)
  /-- R307: A replica receives the new value of a row after its owner's close. -/
  | replicaUpdateArrival (pkt : Packet)
  /-- R319: A lender receives WINDOW_OPEN and accepts or refuses the borrow window. -/
  | windowOpenArrival (src seq wid len : Nat)
  /-- R319: A borrower receives WINDOW_ACCEPT and the window becomes OPEN. -/
  | windowAcceptArrival (src seq wid : Nat)
  /-- R319: A borrower receives WINDOW_REFUSE and the window becomes REFUSED. -/
  | windowRefuseArrival (src seq wid : Nat)
  /-- R321: A borrower receives WINDOW_CLOSE and the window becomes LOST. -/
  | windowCloseArrival (src seq wid : Nat)
  /-- R321: The lender stays unreachable for LOST_MS and the borrow window becomes LOST. -/
  | windowLostTimeout (comp index : Nat)
  /-- R319: A lender receives a Tier P access on VC5 and serves or refuses it. -/
  | tierPAccessArrival (src seq wid off len : Nat) (write : Bool) (data : List Byte)
  /-- R320: A borrower receives the response to a Tier P access. -/
  | tierPResponseArrival (src seq status : Nat) (data : List Byte)
  /-- R327: Every 1 µs composition occupancy meters are integrated. -/
  | meterIntegrate
  /-- R327: Setting MEM_CSEL.LATCH copies every meter of the selected composition at one instant. -/
  | memCselLatch (pf comp window : Nat)
  /-- R339: A program or erase fails, the stripe is rewritten and the block retired. -/
  | flashProgramFail (lun block : Nat) (erase : Bool)
  /-- R340: A LUN fault fences the LUN and starts a parity rebuild of its superblocks. -/
  | lunFence (lun : Nat)
  /-- R340: A rebuild ends and the superblocks return to service with fewer members. -/
  | lunRebuildDone (lun : Nat)
  /-- R342: Free superblocks fall below GC_LOW and garbage collection starts relocating victims. -/
  | gcStart
  /-- R341: The erase-count spread exceeds WEAR_SPREAD and static wear levelling starts. -/
  | wearLevelStart
  /-- R343: Media scrub reads a valid page and relocates its block if limits are passed. -/
  | mediaScrubRead (lun block page : Nat) (found : ScrubFound)
  /-- R331: A write of FTL_CFG.SPARE_PERMIL fixes the exported capacity when no namespace exists. -/
  | ftlSpareWrite (value : Word)
  /-- R353: A flit arrives, is checked for CRC and sequence, acknowledged or NAKed, and its credits taken. -/
  | flitReceive (lane : Nat) (flit : List Byte)
  /-- R353: No acknowledgement arrives for 2 µs and unacknowledged flits are replayed. -/
  | replayTimeout (lane : Nat)
  /-- R359: At a flit boundary the egress picks control, VC0 or data flits by precedence. -/
  | linkEgressSlot (lane : Nat)
  /-- R370: A transit packet chooses its egress link adaptively and is forwarded by the crossbar. -/
  | transitForward (lane : Nat) (pkt : Packet)
  /-- R383: An endpoint hands a local packet to the egress, where it is metered, shaped and queued. -/
  | egressPacketHandoff
  /-- R391: A gate list entry's duration ends and the next entry's gates take effect. -/
  | gateEntryAdvance (port : Nat)
  /-- R351: A lane loses lock, exceeds FEC errors or eye limits and is removed from its link. -/
  | laneFault (lane : Nat)
  /-- R351: A retrained lane rejoins its link at a flit boundary. -/
  | laneRejoin (lane : Nat)
  /-- R364: Every 100 µs a trained link sends HELLO. -/
  | helloTimer (lane : Nat)
  /-- R364: A HELLO arrives and brings the link up when widths match. -/
  | helloArrival (lane ident port k width nodeId anchor : Nat)
  /-- R364: No HELLO arrives for 1 ms and the link goes down. -/
  | helloTimeout (lane : Nat)
  /-- R365: An ELECT arrives and may lower the node's anchor candidate. -/
  | electArrival (lane ident count : Nat)
  /-- R365: Every 1 ms the anchor sends a fresh ELECT with a rising count. -/
  | anchorElectTick
  /-- R365: A candidate's ELECT is not refreshed for 5 ms and the node elects again. -/
  | electStale
  /-- R366: An ASSIGN order gives the node its fabric ID. -/
  | assignArrival (src seq ident id : Nat)
  /-- R367: The anchor receives a member's link report and merges it into the map. -/
  | topologyReportArrival (node ident : Nat) (links : List (Nat × Nat × Nat))
  /-- R367: A TOPO order delivers the map and the node recomputes routes and tree. -/
  | topoArrival (src seq anchor : Nat) (topo : List (Nat × Nat × List (Nat × Nat × Nat)))
  /-- R362: A QUENCH holds or rate-limits packets toward its sender for a partition and VCs. -/
  | quenchArrival (src seq part vcMask dur rate : Nat)
  /-- R362: A RELEASE ends the quench limits of its sender. -/
  | releaseArrival (src seq : Nat)
  /-- R362: A quench entry's DURATION_US passes and its limit ends. -/
  | quenchExpiry (sender part vc : Nat)
  /-- R394: A packet for a local partition arrives and may trigger a QUENCH when backlog is high. -/
  | fabricPacketArrival (pkt : Packet)
  /-- R394: A partition's fabric backlog falls below LOW_KIB and RELEASE goes to quenched nodes. -/
  | releaseSend (p : Nat)
  /-- R368: A REFUSE arrives and the request ends with REMOTE_ERROR. -/
  | fabricRefuseArrival (pkt : Packet)
  /-- R371: A request without a deadline receives no response within E2E_TIMEOUT_US and fails. -/
  | e2eTimeout (seq : Nat)
  /-- R372: An incomplete packet reassembly is dropped after 100 µs. -/
  | reassemblyTimeout (lane vc level : Nat)
  /-- R376: A snapshot marker arrives, latching at the first and closing the channel's count. -/
  | markerArrival (lane vc snapId : Nat)
  /-- R375: A collective entry, release, data or done report arrives on VC6 and is combined or passed on. -/
  | collectiveMessageArrival (src kind collId op count lost mask : Nat) (data : List Byte)
  /-- R377: COLL_TIMEOUT_MS passes before a collective completes and it fails. -/
  | collectiveTimeout (collId : Nat)
  /-- R426: Every 1 ms link route weights move toward balanced utilisation. -/
  | routeWeightTick
  /-- R369: A write of FAB_RT_ENTRY installs an overridden route entry. -/
  | fabRtEntryWrite (value : Word) (pf : Nat)
  /-- R350: A write of FAB_LANEl_EQ with OVERRIDE applies fixed equalisation settings. -/
  | fabLaneEqWrite (lane : Nat) (value : Word) (pf : Nat)
  /-- R456: An attestation request on VC1 is answered by the MSD in fragments, or refused when busy. -/
  | remoteAttestRequest (pkt : Packet)
  /-- R456: A remote report arrives and the ATTEST command completes. -/
  | remoteAttestResponse (pkt : Packet)
  /-- R398: A unit's handshake wait reaches its stall limit and the unit is fenced. -/
  | stallDetectorTimeout (kind unit : Nat)
  /-- R398: Parity fails on a unit's control state and the unit is fenced. -/
  | parityError (kind unit : Nat)
  /-- R399: An SRAM ECC error is corrected, contained with a phase restart, or fences the unit. -/
  | eccError (kind unit what rid addr : Nat)
  /-- R402: A Tier A channel is fenced and all its bytes are treated as damaged. -/
  | tierAChannelFence (c : Nat)
  /-- R406: A Tier B channel is lost and flash map entries in it are rebuilt. -/
  | tierBChannelLost (c : Nat)
  /-- R406: A die-to-die link is lost beyond its spare lanes, which is FATAL. -/
  | dieLinkLost (link : Nat)
  /-- R398: FLT_UNIT_CTL GO with OP DECLARE fences the selected unit. -/
  | unitDeclare (kind unit : Nat)
  /-- R412: FLT_UNIT_CTL GO with OP RESTORE runs the unit's self test. -/
  | unitRestore (kind unit : Nat)
  /-- R412: A restore self test ends and the unit returns to service or stays fenced. -/
  | unitRestoreDone (kind unit : Nat) (pass : Bool)
  /-- R412: FLT_UNIT_CTL GO with OP INJECT forces a real fault into the selected unit. -/
  | unitInject (kind unit : Nat)
  /-- R411: A write of FLT_EVT_POP marks the function's oldest unread event read. -/
  | fltEvtPop (pf : Nat)
  /-- R408: FLT_CTR_CLEAR with ALL 0 clears one counter of a block. -/
  | ctrClearOne (block offset : Nat)
  /-- R408: FLT_CTR_CLEAR with ALL 1 clears every counter of a block and its FLT_SATb. -/
  | ctrClearAll (block : Nat)
  /-- R413: A write of SNP_CTL.TRIGGER fires the host-write drogue source. -/
  | snpTrigger
  /-- R414: Setting SNP_CTL.ARMED discards held copies and arms the drogue. -/
  | snpArm
  /-- R414: A write of SNP_CTL.VIEW makes the function read latched copies or live values. -/
  | snpViewWrite (pf : Nat) (view : Bool)
  /-- R236: Setting MXAn_CLIP_CFG.CLEAR clears the requantisation and clipping counters. -/
  | mxaClipClear (n : Nat)
  /-- R420: Every 100 µs the voltage loop moves domain voltages to hold power limit and rate floors. -/
  | voltageTrimTick (rates powers : List Nat) (pkg1 pkg10 : Nat) (slacks : List Nat)
  /-- R421: Every 1 ms a lane's eye is measured and one equaliser setting is tried or undone. -/
  | equalisationTrimTick (lane height width : Nat)
  /-- R422: Every 1 ms a stack's row activity sets its refresh factor. -/
  | refreshTrimTick (stack activations : Nat) (temp : Int)
  /-- R424: Every 4,096 inserts the loop measures bit shares and may publish its candidate. -/
  | sketchThresholdEval (p : Nat)
  /-- R425: Every 10 ms hot rows of overloaded tables are migrated or replicated. -/
  | placementTrimTick
  /-- R428: A memory channel's eye margins are measured by periodic training. -/
  | memMarginTraining (tier c rd wr : Nat)
  /-- R56: A write of TRM_UNIT_LIMITS is checked against the factory limits or discarded with CFG_ERR. -/
  | trmUnitLimitsWrite (pf : Nat) (value : Word)
  /-- R437: A write of TRM_CAL_OFFSET sets a user calibration offset, measures it into slot 18 and logs it. -/
  | trmCalOffsetWrite (pf : Nat) (value : Word)
  /-- R430: An appended logbook record is mirrored to SPI NOR within 1 s. -/
  | logMirror
  /-- R432: Each hour BINS and CORRECTED logbook records are appended. -/
  | logHourly (temps volts : List Nat)
  /-- R441: MSD power-good starts the local time reference and the power-on sequence to READY. -/
  | powerOn (found : BootFound)
  /-- R442: Firmware fails to service the watchdog for 2 s and a node warm reset follows. -/
  | msdWatchdogExpiry (found : BootFound)
  /-- R444: A write of NODE_RESET with the key and WARM starts a node warm reset. -/
  | nodeResetWrite (pf : Nat) (value : Word) (found : BootFound)
  /-- R475: NODE_RST_N held low for 5 µs or more starts a node warm reset. -/
  | nodeRstNAssert (ns : Nat) (found : BootFound)
  /-- R440: PERST, hot reset or link down resets a host port's functions and partitions. -/
  | hostPortReset (port kind : Nat)
  /-- R469: PWROK falls and the node stops lanes and finishes logbook and journal writes. -/
  | powerDown
  /-- R470: A rail stays outside its limits for over 20 µs and the node stops FATAL. -/
  | railFault (rail : Nat)
  /-- R479: A junction or stack reaches its shutdown limit, THERMTRIP_N asserts and the node stops. -/
  | thermalShutdown (sensor : Nat)
  /-- R42: XTAL_TIME stops or drifts and the counter enters holdover on the on-die oscillator. -/
  | xtalLoss
  /-- R43: The time synthesiser locks to XTAL_TIME without a step and clears HOLDOVER. -/
  | xtalLock
  /-- R473: Loss of REFCLK_PCIE takes both host links down and resets each port. -/
  | refclkPcieLoss
  /-- R473: Loss of a fabric reference clock fences the lanes of its eight ports. -/
  | refclkFabLoss (n : Nat)
  /-- R473: Loss of REFCLK_MEM stops boot or causes a FATAL stop. -/
  | refclkMemLoss
  /-- R471: Every 100 µs the node reads rail voltage and current over AVSBus and writes SCD set-points. -/
  | avsPoll (answered : Nat)
  /-- R48: A write of NODE_POWER_LIMIT clamps and applies a new package power limit within 1 ms. -/
  | nodePowerLimitWrite (value : Word) (pf : Nat)
  /-- R70: Setting NODE_BRIDLE_POLICY.REQUIRE_SIG requires signed images until node reset and is measured. -/
  | requireSigSet (pf : Nat) (value : Word)
  /-- R447: SEC_EXT_CTL GO extends a user measurement slot with the written digest. -/
  | secExtend (pf : Nat) (value : Word)
  /-- R451: SEC_ENROLL_CTL GO with OP 1 enrols an image-signing key in an empty slot. -/
  | secEnroll (pf : Nat) (value : Word)
  /-- R451: SEC_ENROLL_CTL GO with OP 2 revokes an enrolled image-signing key. -/
  | secRevoke (pf : Nat) (value : Word)
  /-- R457: SPDM GET_VERSION over MCTP returns the supported version. -/
  | spdmGetVersion
  /-- R457: SPDM GET_CAPABILITIES advertises certificate, challenge and measurement capabilities. -/
  | spdmGetCapabilities
  /-- R457: SPDM NEGOTIATE_ALGORITHMS offers RSASSA-PSS 3072 and SHA-256. -/
  | spdmNegotiateAlgorithms
  /-- R457: SPDM GET_DIGESTS returns the digests of the certificate slots. -/
  | spdmGetDigests
  /-- R457: SPDM GET_CERTIFICATE returns the chain of the MSD or another die. -/
  | spdmGetCertificate (slot offset length : Nat)
  /-- R457: SPDM CHALLENGE is signed with the MSD identity key. -/
  | spdmChallenge (slot : Nat) (nonce : List Byte)
  /-- R457: SPDM GET_MEASUREMENTS returns one or all measurement slots. -/
  | spdmGetMeasurements (index : Nat) (nonce : List Byte)
  /-- R457: A vendor-defined SPDM request returns an attestation report in chunks. -/
  | spdmVendorDefinedRequest (data : List Byte)
  /-- R457: Unsupported SPDM requests are answered with UnsupportedRequest. -/
  | spdmUnsupportedRequest (code : Nat)
  /-- R476: An MCTP control message on SMBus is answered from MSD power-good onward. -/
  | mctpControlMessage (data : List Byte)
  /-- R16: A narrow or misaligned BAR0 access is completed, discarded or all-ones, and BAD_WIDTH set. -/
  | bar0BadAccess (pf offset : Nat) (write : Bool)
  /-- R86: A narrow or misaligned partition window access is refused and sets ACCESS_ERR. -/
  | windowBadAccess (p offset : Nat) (write : Bool)
  /-- R17: A write to a register without a row of its own follows its fields' access types, including RWL locking and RSV reporting. -/
  | registerWrite (pf offset : Nat) (value : Word) (target : RegTarget)
  /-- R364: A fabric link finishes 802.3 start-up and link training, and then sends its first HELLO. -/
  | linkTrainingDone (lane : Nat)
  /-- R440: Deassertion of PERST0_N or PERST1_N lets the FHD train that host port's link within 100 ms. -/
  | perstDeassert (port : Nat)
  /-- R298: An owner's report that a contribution was accumulated or refused reaches the node that sent it. -/
  | contributionResultArrival (pkt : Packet)
  /-- R476: An MCTP message of a type other than control or SPDM arrives on SMBus and is answered as unsupported. -/
  | mctpUnsupportedMessage (mtype : Nat)
  /-- R477: EXTEST loaded through the JTAG port disconnects the node's I/O and ends service as a loss of every link does. -/
  | jtagExtest
deriving DecidableEq, Repr

end Sys2Proof
end

