-- ==== Sys2Proof/Decode.lean ====
section
/-! DEFINITION. Decoding of table words: the command that a word spells by the bits that the table of operations gives its rows. No row of
this block's table gives bits: a host command is read from its 128 bytes by `COMMAND_FETCH`, and the other rows are events. -/

namespace Sys2Proof

/-- The rows of the table that give bits, with the number of bits, a mask and a pattern: there is none. -/
def tableWords : List (Nat × Nat × Nat × Instr) := []

/-- The command that a word of `nbits` bits spells. -/
def decodeTableWord (nbits w : Nat) : Option Instr := (tableWords.find? (fun r => r.1 == nbits && w &&& r.2.1 == r.2.2.1)).map (fun r => r.2.2.2)

end Sys2Proof
end

