-- ==== Sys2Proof/Config.lean ====
section
/-! DEFINITION. What the spec leaves open: free values as opaque constants without a body, so that no proof can see a
number, and the few constants an implementation fixes. Each is named in the assumption log. -/

namespace Sys2Proof.Config

/-- Free values: the value at a position of the counter `State.free`, for every result the spec leaves open. -/
opaque freeWord : Nat → BitVec 64

/-- The byte that an address holds where the spec calls the contents of memory undefined (R313, R402): a function of
the epoch of the undefined range and of the address. -/
opaque undefByte : Nat → Nat → BitVec 8

/-- Where the node places an allocation of a size in a tier (R312 and R313 fix alignment, not place): a hint of the
search's start. -/
opaque placeHint : Nat → Nat → Nat

/-- The node address of the block table of a segment, by partition and SEG_ID (R199, R201), which no rule places. -/
opaque blockTable : Nat → Nat → BitVec 52

/-- Where the node keeps the query block (0) and the address list (1) of a bank descriptor that its search forms under a tag (R210). -/
opaque scratchAddr : Nat → Nat → BitVec 52

/-- The hash of route seed, destination and link ID of R369, which the spec names without giving it. -/
opaque linkHash : Nat → Nat → Nat → Nat

/-- The hash of route seed, source, destination and sequence number of R370. -/
opaque pathHash : Nat → Nat → Nat → Nat → Nat

/-- The private identity keys (R449): the bytes of the signature that die `d` makes of a digest; the second argument is the position of the
salt among the free values, for a salt is fresh at each signature (R453). -/
opaque signature : Nat → Nat → List (BitVec 8) → List (BitVec 8)

/-- The three certificates of a die's chain, root first (R449): die and place in the chain. -/
opaque certificate : Nat → Nat → List (BitVec 8)

/-- The bytes of the object that boot measures into a slot 0 to 5 or 7 (Table 18.5); for slot 0, of stage-1 copy 0 (A) or 1 (B). -/
opaque bootObject : Nat → Nat → List (BitVec 8)

/-- The bytes that spell the enrolment state at boot, measured into slot 6 (R451), from the state and KEY_ID of each key slot. -/
opaque enrolment : List (Nat × List (BitVec 8)) → List (BitVec 8)

/-- The bytes that a setting of REQUIRE_SIG measures into slot 6 (Table 18.5), whose form the spec does not give. -/
opaque requireSig : List (BitVec 8)

/-- The factory record of a calibration item: factory value F and clamp L to H (R436). -/
opaque calF : Nat → Int
opaque calL : Nat → Int
opaque calH : Nat → Int

/-- The factory trained value of the output of trim loops 0 and 2 (R419): loop and unit. -/
opaque trained : Nat → Nat → Int

/-- The factory minimum of a memory channel's eye width in 1/1,000 UI (R428): tier and channel. -/
opaque marginMin : Nat → Nat → Nat

/-- What the junction sensor of a die reads in 0.1 °C at an instant (R480): time and die (SCD0, SCD1, FHD, MSD). -/
opaque dieTemp : Nat → Nat → Int

/-- The JEDEC code assigned to the manufacturer, which R477 names without giving it. -/
opaque jedec : Nat

/-- Whether a request held a phase on a unit when it was fenced (R401, R403), at a position of the free values: which core, sequencer or
engine of its clusters a phase runs on is left to the scheduler. -/
opaque holdsPhase : Nat → Nat → Bool

/-- The bytes that an SPDM signature covers (R457), whose form is that of the SPDM specification, and a certificate chain in its format. -/
opaque spdmTranscript : Nat → List (BitVec 8) → List (BitVec 8)
opaque spdmChain : Nat → List (BitVec 8)

/-- Bytes of the answer to an MCTP control message (R476), whose form is that of the MCTP base specification. -/
opaque mctpControl : List (BitVec 8) → List (BitVec 8)
/-- The sum that cluster microcode forms of fp32 terms, whose order of additions is not published (R244), by metric and
element code. -/
opaque coreSum : Nat → Nat → List Nat → BitVec 32

/-- The fp32 bits of the NaN that an operation on two values produces (R235: "the bits the arithmetic produced"): its
sign and fraction; the exponent of a NaN is forced where it is encoded. -/
opaque nanBits : Nat → Nat → BitVec 32

/-- The order in which terms are summed where the spec does not fix it (R292, R297, R300): at step `i` of sum `n`, which of the
terms left is added next. -/
opaque pick : Nat → Nat → Nat

/-- The numbers and the bytes that the payload of a packet spells, by VC, PTYPE and OPCODE, where no chapter gives its layout. -/
opaque payloadArgs : Nat → Nat → Nat → List (BitVec 8) → List Nat
opaque payloadData : Nat → Nat → Nat → List (BitVec 8) → List (BitVec 8)

/-- The byte at a place of the payload that spells such numbers and bytes, by VC, PTYPE and OPCODE. -/
opaque payloadByte : Nat → Nat → Nat → List Nat → List (BitVec 8) → Nat → BitVec 8

end Sys2Proof.Config
end

