-- ==== Sys2Proof/Machine/KV.lean ====
section
/-! DEFINITION. Keyed plain data: a list of (key, value) pairs whose keys rise strictly. It holds registers, counters,
queues, contexts and every other collection of the node by number, so that equal collections are equal lists. -/

namespace Sys2Proof.Machine

/-- A finite map from numbers, as a list of pairs with strictly rising keys. -/
abbrev KV (α : Type) := List (Nat × α)

/-- The value at key `k`. -/
def kvGet? {α : Type} (k : Nat) : KV α → Option α
  | [] => none
  | (j, v) :: m => if k = j then some v else kvGet? k m

/-- Put `v` at key `k`, keeping the keys in rising order. -/
def kvPut {α : Type} (k : Nat) (v : α) : KV α → KV α
  | [] => [(k, v)]
  | (j, w) :: m => if k < j then (k, v) :: (j, w) :: m else if k = j then (k, v) :: m else (j, w) :: kvPut k v m

/-- Remove key `k`. -/
def kvDel {α : Type} (k : Nat) : KV α → KV α
  | [] => []
  | (j, w) :: m => if k = j then kvDel k m else (j, w) :: kvDel k m

/-- Whether the keys of a map rise strictly, all above `b` when a bound is given. -/
def kvSortedFrom {α : Type} (b : Option Nat) : KV α → Bool
  | [] => true
  | (j, _) :: m => (match b with | none => true | some i => decide (i < j)) && kvSortedFrom (some j) m

/-- The canonical form of a map: strictly rising keys. -/
def kvSorted {α : Type} (m : KV α) : Bool := kvSortedFrom none m

/-- Change the value at key `k`, if there is one. -/
def kvUpd {α : Type} (k : Nat) (f : α → α) (m : KV α) : KV α :=
  match kvGet? k m with
  | some v => kvPut k (f v) m
  | none => m

/-- Change every value. -/
def kvMapVals {α : Type} (f : Nat → α → α) (m : KV α) : KV α := m.map (fun p => (p.1, f p.1 p.2))

/-- The value at key `k` of a map whose absent keys stand for `d`. -/
def kvGetD {α : Type} (d : α) (k : Nat) (m : KV α) : α := (kvGet? k m).getD d

/-- The least number from `i` upward, below `i + fuel`, that is no key of the map. -/
def kvFreeKey {α : Type} (m : KV α) : Nat → Nat → Option Nat
  | 0, _ => none
  | fuel + 1, i => if (kvGet? i m).isNone then some i else kvFreeKey m fuel (i + 1)

end Sys2Proof.Machine
end

