-- ==== Sys2Proof/Machine/RegMap.lean ====
section
/-! DEFINITION. The register catalogue of the VX9 node (spec/20_register_map.md, R482 to R488, and the register
tables of every chapter): where each register lies in the physical-function BAR0, which bits its fields take, how each
field may be accessed (Table 0.4) and its reset value. Offsets are absolute BAR0 offsets (Table 20.2 block bases). -/

namespace Sys2Proof.Machine

/-- The access types of Table 0.4 (R17). -/
inductive Acc where
  | ro | rw | rwl | w1c | w1s | wo | ros
deriving DecidableEq, Repr

/-- A register field: bits [hi:lo] (R8). -/
structure Fld where
  hi : Nat
  lo : Nat
deriving DecidableEq, Repr

/-- One row of a field table: the field, its access type, its reset value and, for a field that clamps (R489), the
lower and upper ends it is clamped to. -/
structure FldSpec where
  fld   : Fld
  acc   : Acc
  reset : Nat
  clamp : Option (Nat × Nat)
deriving DecidableEq, Repr

/-- One register (or one family of equal registers): base offset in BAR0, the strides and counts of its indices
(outermost first), and its fields; bits that no field covers are RSV. -/
structure RegSpec where
  base   : Nat
  dims   : List (Nat × Nat)
  fields : List FldSpec
deriving DecidableEq, Repr

/-- Width in bits of a field. -/
def Fld.width (f : Fld) : Nat := f.hi + 1 - f.lo

/-- The value of a field within a register word. -/
def Fld.get (f : Fld) (w : Word) : Nat := (w.toNat >>> f.lo) % 2 ^ f.width

/-- A register word with one field replaced (the value is cut to the field's width). -/
def Fld.put (f : Fld) (v : Nat) (w : Word) : Word :=
  BitVec.ofNat 64 ((w.toNat - Fld.get f w * 2 ^ f.lo) + (v % 2 ^ f.width) * 2 ^ f.lo)

/-- The register word that a list of field values makes (every other bit zero). -/
def packFields (fs : List (Fld × Nat)) : Word :=
  fs.foldl (fun w p => Fld.put p.1 p.2 w) 0


/-- Offset of `NODE_ID`. -/
def rNodeId : Nat := 0x0
def fNodeId_FAMILY : Fld := ⟨63, 48⟩
def fNodeId_PART : Fld := ⟨47, 32⟩
def fNodeId_VARIANT : Fld := ⟨31, 24⟩
def fNodeId_STACK_GIB : Fld := ⟨23, 16⟩
def fNodeId_STEPPING : Fld := ⟨15, 8⟩
/-- Offset of `NODE_STATUS`. -/
def rNodeStatus : Nat := 0x8
def fNodeStatus_READY_MS : Fld := ⟨63, 32⟩
def fNodeStatus_BOOT_STAGE : Fld := ⟨23, 16⟩
def fNodeStatus_LAST_RESET : Fld := ⟨15, 8⟩
def fNodeStatus_FW_COPY : Fld := ⟨3, 3⟩
def fNodeStatus_RECOVERY : Fld := ⟨2, 2⟩
def fNodeStatus_READY : Fld := ⟨0, 0⟩
/-- Offset of `NODE_RESET`. -/
def rNodeReset : Nat := 0x10
def fNodeReset_KEY : Fld := ⟨47, 32⟩
def fNodeReset_WARM : Fld := ⟨0, 0⟩
/-- Offset of `NODE_ACCESS_ERR`. -/
def rNodeAccessErr : Nat := 0x40
def fNodeAccessErr_LAST_PF : Fld := ⟨26, 26⟩
def fNodeAccessErr_LAST_OFFSET : Fld := ⟨25, 3⟩
def fNodeAccessErr_RSV_WRITE : Fld := ⟨2, 2⟩
def fNodeAccessErr_BAD_WIDTH : Fld := ⟨1, 1⟩
def fNodeAccessErr_LOCKED_WRITE : Fld := ⟨0, 0⟩
/-- Offset of `NODE_TIME`. -/
def rNodeTime : Nat := 0x80
def fNodeTime_NS : Fld := ⟨63, 0⟩
/-- Offset of `NODE_TIME_STATUS`. -/
def rNodeTimeStatus : Nat := 0x88
def fNodeTimeStatus_HOLDOVER_NS_HI : Fld := ⟨63, 32⟩
def fNodeTimeStatus_HOLDOVER_SEEN : Fld := ⟨2, 2⟩
def fNodeTimeStatus_HOLDOVER : Fld := ⟨1, 1⟩
def fNodeTimeStatus_LOCKED : Fld := ⟨0, 0⟩
/-- Offset of `NODE_DOMAINn_STATUS`. -/
def rNodeDomainStatus (n : Nat) : Nat := 0x200 + n * 0x8
def fNodeDomainStatus_FENCED : Fld := ⟨49, 49⟩
def fNodeDomainStatus_POWERED : Fld := ⟨48, 48⟩
def fNodeDomainStatus_POWER_DW : Fld := ⟨47, 32⟩
def fNodeDomainStatus_RATE_PERMIL : Fld := ⟨31, 16⟩
def fNodeDomainStatus_VOLT_MV : Fld := ⟨15, 0⟩
/-- Offset of `NODE_POWER_LIMIT`. -/
def rNodePowerLimit : Nat := 0x300
def fNodePowerLimit_LIMIT_W : Fld := ⟨10, 0⟩
/-- Offset of `NODE_POWER_STATUS`. -/
def rNodePowerStatus : Nat := 0x308
def fNodePowerStatus_FLOOR_MISS_COUNT : Fld := ⟨63, 48⟩
def fNodePowerStatus_LIMIT_CLAMPED : Fld := ⟨36, 36⟩
def fNodePowerStatus_FLOOR_MISS : Fld := ⟨35, 35⟩
def fNodePowerStatus_CLAMPED : Fld := ⟨34, 34⟩
def fNodePowerStatus_BACKSTOP : Fld := ⟨33, 33⟩
def fNodePowerStatus_PKG_W_10MS : Fld := ⟨32, 22⟩
def fNodePowerStatus_PKG_W_1MS : Fld := ⟨21, 11⟩
def fNodePowerStatus_LIMIT_EFF_W : Fld := ⟨10, 0⟩
/-- Offset of `NODE_BRIDLE_STATUS`. -/
def rNodeBridleStatus : Nat := 0x400
def fNodeBridleStatus_SKIPPED : Fld := ⟨31, 16⟩
def fNodeBridleStatus_REJECTED : Fld := ⟨5, 5⟩
def fNodeBridleStatus_CAL_CLAMPED : Fld := ⟨4, 4⟩
def fNodeBridleStatus_SIG_VERIFIED : Fld := ⟨3, 3⟩
def fNodeBridleStatus_LAST_KIND : Fld := ⟨2, 2⟩
def fNodeBridleStatus_LOADING : Fld := ⟨1, 1⟩
def fNodeBridleStatus_LOADED : Fld := ⟨0, 0⟩
/-- Offset of `NODE_BRIDLE_ERR`. -/
def rNodeBridleErr : Nat := 0x408
def fNodeBridleErr_RECORD_INDEX : Fld := ⟨63, 32⟩
def fNodeBridleErr_RECORD_TYPE : Fld := ⟨31, 16⟩
def fNodeBridleErr_PARTITION : Fld := ⟨15, 8⟩
def fNodeBridleErr_REASON : Fld := ⟨7, 0⟩
/-- Offset of `NODE_BRIDLE_SERIAL`. -/
def rNodeBridleSerial : Nat := 0x410
def fNodeBridleSerial_SERIAL : Fld := ⟨63, 0⟩
/-- Offset of `NODE_BRIDLE_POLICY`. -/
def rNodeBridlePolicy : Nat := 0x418
def fNodeBridlePolicy_REQUIRE_SIG : Fld := ⟨0, 0⟩
/-- Offset of `NODE_RAIL_STATUS`. -/
def rNodeRailStatus : Nat := 0x500
def fNodeRailStatus_AVS_LOST : Fld := ⟨8, 8⟩
def fNodeRailStatus_IN_RANGE : Fld := ⟨7, 0⟩
/-- Offset of `PRT_p_CTL`. -/
def rPrtCtl (n : Nat) : Nat := 0x100000 + n * 0x1000
def fPrtCtl_SCRUB : Fld := ⟨2, 2⟩
def fPrtCtl_QUIESCE : Fld := ⟨1, 1⟩
def fPrtCtl_RESET : Fld := ⟨0, 0⟩
/-- Offset of `PRT_p_STATUS`. -/
def rPrtStatus (n : Nat) : Nat := 0x100008 + n * 0x1000
def fPrtStatus_RESET_GEN : Fld := ⟨63, 48⟩
def fPrtStatus_CTX_G1 : Fld := ⟨46, 32⟩
def fPrtStatus_CTX_G0 : Fld := ⟨30, 16⟩
def fPrtStatus_STATE : Fld := ⟨2, 0⟩
/-- Offset of `PRT_p_BW_A`. -/
def rPrtBwA (n : Nat) : Nat := 0x100040 + n * 0x1000
def fPrtBwA_BURST_KIB : Fld := ⟨47, 32⟩
def fPrtBwA_RATE : Fld := ⟨19, 0⟩
/-- Offset of `PRT_p_BW_B`. -/
def rPrtBwB (n : Nat) : Nat := 0x100048 + n * 0x1000
def fPrtBwB_BURST_KIB : Fld := ⟨47, 32⟩
def fPrtBwB_RATE : Fld := ⟨19, 0⟩
/-- Offset of `PRT_p_BW_F`. -/
def rPrtBwF (n : Nat) : Nat := 0x100050 + n * 0x1000
def fPrtBwF_BURST_KIB : Fld := ⟨47, 32⟩
def fPrtBwF_RATE : Fld := ⟨19, 0⟩
/-- Offset of `PRT_POOLg_STATUS`. -/
def rPrtPoolStatus (n : Nat) : Nat := 0x140000 + n * 0x100
def fPrtPoolStatus_REBUILDING : Fld := ⟨32, 32⟩
def fPrtPoolStatus_FREE : Fld := ⟨14, 0⟩
/-- Offset of `PRT_p_SERVE_CFG`. -/
def rPrtServeCfg (n : Nat) : Nat := 0x100100 + n * 0x1000
def fPrtServeCfg_MAX_CARRY : Fld := ⟨35, 32⟩
def fPrtServeCfg_DEADLINE_US : Fld := ⟨31, 0⟩
/-- Offset of `PRT_p_SERVE_STATUS`. -/
def rPrtServeStatus (n : Nat) : Nat := 0x100108 + n * 0x1000
def fPrtServeStatus_STEP : Fld := ⟨63, 32⟩
def fPrtServeStatus_STEP_QUERIES : Fld := ⟨31, 16⟩
def fPrtServeStatus_STEP_CARRIED : Fld := ⟨15, 0⟩
/-- Offset of `PRT_p_SEARCH_CFG`. -/
def rPrtSearchCfg (n : Nat) : Nat := 0x100200 + n * 0x1000
def fPrtSearchCfg_DELTA_BLOCK_ROWS : Fld := ⟨31, 16⟩
def fPrtSearchCfg_HOLD_EPOCHS : Fld := ⟨15, 0⟩
/-- Offset of `PRT_p_FOLD_EPOCH`. -/
def rPrtFoldEpoch (n : Nat) : Nat := 0x100208 + n * 0x1000
def fPrtFoldEpoch_EPOCH : Fld := ⟨63, 0⟩
/-- Offset of `PRT_p_TOMB_STATUS`. -/
def rPrtTombStatus (n : Nat) : Nat := 0x100210 + n * 0x1000
def fPrtTombStatus_YOUNG_PEAK : Fld := ⟨50, 32⟩
def fPrtTombStatus_YOUNG_USED : Fld := ⟨18, 0⟩
/-- Offset of `PRT_p_EPOCH`. -/
def rPrtEpoch (n : Nat) : Nat := 0x100300 + n * 0x1000
def fPrtEpoch_EPOCH : Fld := ⟨63, 0⟩
/-- Offset of `PRT_p_DELTA_CFG`. -/
def rPrtDeltaCfg (n : Nat) : Nat := 0x100308 + n * 0x1000
def fPrtDeltaCfg_CAPACITY_64K : Fld := ⟨16, 8⟩
def fPrtDeltaCfg_META_TIER : Fld := ⟨7, 6⟩
def fPrtDeltaCfg_VEC_TIER : Fld := ⟨5, 4⟩
/-- Offset of `PRT_p_DELTA_STATUS`. -/
def rPrtDeltaStatus (n : Nat) : Nat := 0x100310 + n * 0x1000
def fPrtDeltaStatus_DELTAS : Fld := ⟨61, 59⟩
def fPrtDeltaStatus_CURRENT_VALID : Fld := ⟨58, 58⟩
def fPrtDeltaStatus_CURRENT_SEG : Fld := ⟨57, 48⟩
def fPrtDeltaStatus_DELTA_VECTORS : Fld := ⟨24, 0⟩
/-- Offset of `CLUn_STATUS`. -/
def rCluStatus (n : Nat) : Nat := 0x800000 + n * 0x80000
def fCluStatus_CLUSTER_FENCED : Fld := ⟨20, 20⟩
def fCluStatus_UNIT_FENCED : Fld := ⟨19, 16⟩
def fCluStatus_CORE_FENCED : Fld := ⟨15, 0⟩
/-- Offset of `CLUn_SELu_STATUS`. -/
def rCluSelStatus (n : Nat) (m : Nat) : Nat := 0x804000 + n * 0x80000 + m * 0x100
def fCluSelStatus_K_MAX : Fld := ⟨26, 16⟩
def fCluSelStatus_LISTS_OPEN : Fld := ⟨9, 3⟩
def fCluSelStatus_STATE : Fld := ⟨2, 0⟩
/-- Offset of `MXAn_MODE`. -/
def rMxaMode (n : Nat) : Nat := 0x1000000 + n * 0x40000
def fMxaMode_PARTITION : Fld := ⟨29, 24⟩
def fMxaMode_VALID : Fld := ⟨23, 23⟩
def fMxaMode_DEFAULT_MODE : Fld := ⟨22, 21⟩
def fMxaMode_DIST_OPS : Fld := ⟨20, 16⟩
def fMxaMode_TYPES : Fld := ⟨15, 7⟩
def fMxaMode_MODES : Fld := ⟨2, 0⟩
/-- Offset of `MXAn_CLIP_CFG`. -/
def rMxaClipCfg (n : Nat) : Nat := 0x1000008 + n * 0x40000
def fMxaClipCfg_CLEAR : Fld := ⟨8, 8⟩
def fMxaClipCfg_FILTER : Fld := ⟨7, 7⟩
def fMxaClipCfg_PARTITION : Fld := ⟨5, 0⟩
/-- Offset of `MXAn_SHARE_CFG`. -/
def rMxaShareCfg (n : Nat) : Nat := 0x1030000 + n * 0x40000
def fMxaShareCfg_YIELD_LIMIT_US : Fld := ⟨47, 32⟩
def fMxaShareCfg_ROUND_US : Fld := ⟨19, 0⟩
/-- Offset of `MXAn_SHARE_STATUS`. -/
def rMxaShareStatus (n : Nat) : Nat := 0x1030008 + n * 0x40000
def fMxaShareStatus_LAST_SWITCH_NS : Fld := ⟨47, 16⟩
def fMxaShareStatus_STATE : Fld := ⟨10, 8⟩
def fMxaShareStatus_OWNER_VALID : Fld := ⟨7, 7⟩
def fMxaShareStatus_OWNER : Fld := ⟨5, 0⟩
/-- Offset of `BKE_CFG`. -/
def rBkeCfg : Nat := 0x1400000
def fBkeCfg_LINGER_US : Fld := ⟨7, 0⟩
/-- Offset of `BKE_STACKn_CFG`. -/
def rBkeStackCfg (n : Nat) : Nat := 0x1401000 + n * 0x100
def fBkeStackCfg_ACT_LIMIT : Fld := ⟨31, 16⟩
def fBkeStackCfg_BUDGET_W : Fld := ⟨7, 0⟩
/-- Offset of `BKE_STACKn_STATUS`. -/
def rBkeStackStatus (n : Nat) : Nat := 0x1401008 + n * 0x100
def fBkeStackStatus_THROTTLED : Fld := ⟨51, 51⟩
def fBkeStackStatus_MAX_POSTPONE : Fld := ⟨50, 48⟩
def fBkeStackStatus_ENG_POWER_DW : Fld := ⟨47, 32⟩
def fBkeStackStatus_BUDGET_EFF_W : Fld := ⟨31, 24⟩
def fBkeStackStatus_REFRESH_NS : Fld := ⟨23, 8⟩
def fBkeStackStatus_TEMP_C : Fld := ⟨7, 0⟩
/-- Offset of `BKE_CHc_CFG`. -/
def rBkeChCfg (n : Nat) : Nat := 0x1410000 + n * 0x100
def fBkeChCfg_OWNER_VALID : Fld := ⟨14, 14⟩
def fBkeChCfg_OWNER : Fld := ⟨13, 8⟩
def fBkeChCfg_HOLD_LIMIT_US : Fld := ⟨6, 0⟩
/-- Offset of `BKE_CHc_STATUS`. -/
def rBkeChStatus (n : Nat) : Nat := 0x1410008 + n * 0x100
def fBkeChStatus_OLDEST_HOLD_NS : Fld := ⟨63, 32⟩
def fBkeChStatus_OPEN_TAGS : Fld := ⟨26, 24⟩
def fBkeChStatus_QUEUED : Fld := ⟨23, 16⟩
def fBkeChStatus_HOLD_DEPTH : Fld := ⟨14, 8⟩
def fBkeChStatus_STATE : Fld := ⟨2, 0⟩
/-- Offset of `BKE_Pp_TSET`. -/
def rBkePTset (n : Nat) : Nat := 0x1420000 + n * 0x40
def fBkePTset_CURRENT_VERSION : Fld := ⟨63, 32⟩
def fBkePTset_HELD : Fld := ⟨20, 16⟩
def fBkePTset_VALID : Fld := ⟨4, 4⟩
def fBkePTset_CURRENT : Fld := ⟨3, 0⟩
/-- Offset of `MEM_CFG`. -/
def rMemCfg : Nat := 0x1800000
def fMemCfg_LOST_MS : Fld := ⟨15, 0⟩
/-- Offset of `MEM_STATUS`. -/
def rMemStatus : Nat := 0x1800008
def fMemStatus_COMPOSITIONS : Fld := ⟨49, 41⟩
def fMemStatus_WINDOWS : Fld := ⟨40, 31⟩
def fMemStatus_MIGRATING : Fld := ⟨30, 21⟩
def fMemStatus_TENSORS : Fld := ⟨20, 0⟩
/-- Offset of `MEM_Pp_USE_t`. -/
def rMemPUse (n : Nat) (m : Nat) : Nat := 0x1801000 + n * 0x80 + m * 0x8
def fMemPUse_BYTES : Fld := ⟨47, 0⟩
/-- Offset of `MEM_Pp_QUOTA_t`. -/
def rMemPQuota (n : Nat) (m : Nat) : Nat := 0x1801020 + n * 0x80 + m * 0x8
def fMemPQuota_BYTES : Fld := ⟨47, 0⟩
/-- Offset of `MEM_CSEL`. -/
def rMemCsel : Nat := 0x1800100
def fMemCsel_LATCH : Fld := ⟨24, 24⟩
def fMemCsel_WINDOW : Fld := ⟨23, 18⟩
def fMemCsel_COMP_ID : Fld := ⟨11, 0⟩
/-- Offset of `MEM_CSTATUS`. -/
def rMemCstatus : Nat := 0x1800108
def fMemCstatus_SAT : Fld := ⟨8, 8⟩
def fMemCstatus_WINDOWS : Fld := ⟨6, 0⟩
/-- Offset of `MEM_CPARTS`. -/
def rMemCparts : Nat := 0x1800110
def fMemCparts_MEMBERS : Fld := ⟨63, 0⟩
/-- Offset of `MEM_CWIN_STATUS`. -/
def rMemCwinStatus : Nat := 0x1800118
def fMemCwinStatus_LENGTH_2MIB : Fld := ⟨63, 40⟩
def fMemCwinStatus_WINDOW_ID : Fld := ⟨39, 24⟩
def fMemCwinStatus_PEER_NODE : Fld := ⟨23, 8⟩
def fMemCwinStatus_KIND : Fld := ⟨3, 3⟩
def fMemCwinStatus_STATE : Fld := ⟨2, 0⟩
/-- Offset of `MEM_CM`. -/
def rMemCm (n : Nat) : Nat := 0x1800120 + n * 0x8
def fMemCm_VALUE : Fld := ⟨63, 0⟩
/-- Offset of `EMB_CFG`. -/
def rEmbCfg : Nat := 0x1a00000
def fEmbCfg_STEP_TIMEOUT_MS : Fld := ⟨47, 32⟩
/-- Offset of `EMB_STATUS`. -/
def rEmbStatus : Nat := 0x1a00008
def fEmbStatus_DIR_USED : Fld := ⟨44, 24⟩
def fEmbStatus_TABLES : Fld := ⟨12, 0⟩
/-- Offset of `EMB_TSEL`. -/
def rEmbTsel : Nat := 0x1a00100
def fEmbTsel_TABLE_ID : Fld := ⟨15, 0⟩
/-- Offset of `EMB_TSTATUS`. -/
def rEmbTstatus : Nat := 0x1a00108
def fEmbTstatus_VERSION : Fld := ⟨63, 32⟩
def fEmbTstatus_OPEN_STEPS : Fld := ⟨14, 12⟩
def fEmbTstatus_PARTITION : Fld := ⟨9, 4⟩
def fEmbTstatus_VALID : Fld := ⟨0, 0⟩
/-- Offset of `EMB_TLAST_CLOSED`. -/
def rEmbTlastClosed : Nat := 0x1a00110
def fEmbTlastClosed_STEP : Fld := ⟨63, 0⟩
/-- Offset of `EMB_TLOAD`. -/
def rEmbTload : Nat := 0x1a00118
def fEmbTload_LOAD : Fld := ⟨63, 32⟩
def fEmbTload_DIR_ENTRIES : Fld := ⟨20, 0⟩
/-- Offset of `FTL_CFG`. -/
def rFtlCfg : Nat := 0x1c00000
def fFtlCfg_REBUILD_PCT : Fld := ⟨63, 56⟩
def fFtlCfg_SCRUB_DAYS : Fld := ⟨55, 48⟩
def fFtlCfg_DISTURB_K : Fld := ⟨47, 32⟩
def fFtlCfg_WEAR_SPREAD : Fld := ⟨26, 16⟩
def fFtlCfg_SPARE_PERMIL : Fld := ⟨9, 0⟩
/-- Offset of `FTL_STATUS`. -/
def rFtlStatus : Nat := 0x1c00008
def fFtlStatus_FENCED_LUNS : Fld := ⟨63, 48⟩
def fFtlStatus_LUNS_PER_CH : Fld := ⟨39, 32⟩
def fFtlStatus_MAP_GIB : Fld := ⟨23, 8⟩
def fFtlStatus_REBUILDING : Fld := ⟨6, 6⟩
def fFtlStatus_SPARE_EXHAUSTED : Fld := ⟨5, 5⟩
def fFtlStatus_SPARE_LOW : Fld := ⟨4, 4⟩
def fFtlStatus_MEDIA : Fld := ⟨2, 0⟩
/-- Offset of `FTL_CAPACITY`. -/
def rFtlCapacity : Nat := 0x1c00010
def fFtlCapacity_UNITS : Fld := ⟨47, 0⟩
/-- Offset of `FTL_WRITABLE`. -/
def rFtlWritable : Nat := 0x1c00018
def fFtlWritable_UNITS : Fld := ⟨47, 0⟩
/-- Offset of `FTL_GC_CFG`. -/
def rFtlGcCfg : Nat := 0x1c00020
def fFtlGcCfg_WI : Fld := ⟨63, 56⟩
def fFtlGcCfg_WA : Fld := ⟨55, 48⟩
def fFtlGcCfg_WE : Fld := ⟨47, 40⟩
def fFtlGcCfg_AGE_FULL_H : Fld := ⟨31, 16⟩
def fFtlGcCfg_GC_HIGH : Fld := ⟨15, 8⟩
def fFtlGcCfg_GC_LOW : Fld := ⟨7, 0⟩
/-- Offset of `FTL_LUNSEL`. -/
def rFtlLunsel : Nat := 0x1c00100
def fFtlLunsel_LUN : Fld := ⟨9, 0⟩
/-- Offset of `FTL_LUN_STATUS`. -/
def rFtlLunStatus : Nat := 0x1c00108
def fFtlLunStatus_GOOD_BLOCKS : Fld := ⟨63, 48⟩
def fFtlLunStatus_UNASSIGNED : Fld := ⟨47, 32⟩
def fFtlLunStatus_STATE : Fld := ⟨3, 0⟩
/-- Offset of `FTL_BSEL`. -/
def rFtlBsel : Nat := 0x1c00110
def fFtlBsel_BLOCK : Fld := ⟨15, 0⟩
/-- Offset of `FTL_BHEALTH`. -/
def rFtlBhealth : Nat := 0x1c00118
def fFtlBhealth_ERASES : Fld := ⟨63, 48⟩
def fFtlBhealth_RETRY_READS : Fld := ⟨47, 32⟩
def fFtlBhealth_BER_E9 : Fld := ⟨31, 16⟩
def fFtlBhealth_STATE : Fld := ⟨2, 0⟩
/-- Offset of `FTL_NSSEL`. -/
def rFtlNssel : Nat := 0x1c00120
def fFtlNssel_PARTITION : Fld := ⟨13, 8⟩
def fFtlNssel_NSID : Fld := ⟨4, 0⟩
/-- Offset of `FTL_NS_STATUS`. -/
def rFtlNsStatus : Nat := 0x1c00128
def fFtlNsStatus_STATE : Fld := ⟨2, 0⟩
/-- Offset of `FTL_NS_SIZE`. -/
def rFtlNsSize : Nat := 0x1c00130
def fFtlNsSize_SIZE : Fld := ⟨47, 0⟩
/-- Offset of `FTL_NS_MAPPED`. -/
def rFtlNsMapped : Nat := 0x1c00138
def fFtlNsMapped_MAPPED : Fld := ⟨47, 0⟩
/-- Offset of `FAB_CFG`. -/
def rFabCfg : Nat := 0x2000000
def fFabCfg_COLL_TIMEOUT_MS : Fld := ⟨63, 48⟩
def fFabCfg_E2E_TIMEOUT_US : Fld := ⟨47, 32⟩
def fFabCfg_VC0_CAP : Fld := ⟨31, 24⟩
def fFabCfg_SHARED_CAP_PCT : Fld := ⟨23, 16⟩
def fFabCfg_ENABLE : Fld := ⟨0, 0⟩
/-- Offset of `FAB_STATUS`. -/
def rFabStatus : Nat := 0x2000008
def fFabStatus_NODE_ID : Fld := ⟨63, 48⟩
def fFabStatus_ANCHOR_ID : Fld := ⟨47, 32⟩
def fFabStatus_MEMBERS : Fld := ⟨31, 17⟩
def fFabStatus_DIAMETER : Fld := ⟨16, 13⟩
def fFabStatus_DUP_PRESET : Fld := ⟨8, 8⟩
def fFabStatus_IS_ANCHOR : Fld := ⟨7, 7⟩
def fFabStatus_STATE : Fld := ⟨2, 0⟩
/-- Offset of `FAB_IDENTITY_LO`. -/
def rFabIdentityLo : Nat := 0x2000010
def fFabIdentityLo_ID : Fld := ⟨63, 0⟩
/-- Offset of `FAB_IDENTITY_HI`. -/
def rFabIdentityHi : Nat := 0x2000018
def fFabIdentityHi_ID : Fld := ⟨63, 0⟩
/-- Offset of `FAB_ROUTE_SEED`. -/
def rFabRouteSeed : Nat := 0x2000020
def fFabRouteSeed_SEED : Fld := ⟨63, 0⟩
/-- Offset of `FAB_PRESET`. -/
def rFabPreset : Nat := 0x2000028
def fFabPreset_PRESET : Fld := ⟨16, 16⟩
def fFabPreset_NODE_ID : Fld := ⟨15, 0⟩
/-- Offset of `FAB_RT_SEL`. -/
def rFabRtSel : Nat := 0x2000100
def fFabRtSel_DEST : Fld := ⟨15, 0⟩
/-- Offset of `FAB_RT_ENTRY`. -/
def rFabRtEntry : Nat := 0x2000108
def fFabRtEntry_OVERRIDE : Fld := ⟨63, 63⟩
def fFabRtEntry_COUNT : Fld := ⟨58, 56⟩
def fFabRtEntry_DIST : Fld := ⟨51, 48⟩
def fFabRtEntry_EGRESS : Fld := ⟨31, 0⟩
/-- Offset of `FAB_SNAP_SEL`. -/
def rFabSnapSel : Nat := 0x2000300
def fFabSnapSel_VC : Fld := ⟨10, 8⟩
def fFabSnapSel_LANE : Fld := ⟨7, 0⟩
/-- Offset of `FAB_SNAP_CH`. -/
def rFabSnapCh : Nat := 0x2000308
def fFabSnapCh_CLOSED : Fld := ⟨63, 63⟩
def fFabSnapCh_LOST : Fld := ⟨62, 62⟩
def fFabSnapCh_PACKETS : Fld := ⟨61, 32⟩
def fFabSnapCh_FLITS : Fld := ⟨31, 0⟩
/-- Offset of `FAB_SNAP_STATUS`. -/
def rFabSnapStatus : Nat := 0x2000310
def fFabSnapStatus_SNAP_ID : Fld := ⟨63, 32⟩
def fFabSnapStatus_LOST_CHANNELS : Fld := ⟨31, 16⟩
def fFabSnapStatus_STATE : Fld := ⟨2, 0⟩
/-- Offset of `FAB_PORTp_CFG`. -/
def rFabPortCfg (n : Nat) : Nat := 0x2001000 + n * 0x40
def fFabPortCfg_REACH : Fld := ⟨4, 4⟩
def fFabPortCfg_ENABLE : Fld := ⟨3, 3⟩
def fFabPortCfg_SPLIT : Fld := ⟨1, 0⟩
/-- Offset of `FAB_LINKl_STATUS`. -/
def rFabLinkStatus (n : Nat) : Nat := 0x2004000 + n * 0x10
def fFabLinkStatus_PEER_ID : Fld := ⟨63, 48⟩
def fFabLinkStatus_PEER_PORT : Fld := ⟨44, 40⟩
def fFabLinkStatus_WIDTH : Fld := ⟨35, 32⟩
def fFabLinkStatus_LANES_UP : Fld := ⟨31, 24⟩
def fFabLinkStatus_STATE : Fld := ⟨2, 0⟩
/-- Offset of `FAB_LANEl_EQ`. -/
def rFabLaneEq (n : Nat) : Nat := 0x2008000 + n * 0x10
def fFabLaneEq_OVERRIDE : Fld := ⟨48, 48⟩
def fFabLaneEq_RX_CTLE : Fld := ⟨47, 40⟩
def fFabLaneEq_C_P1 : Fld := ⟨31, 24⟩
def fFabLaneEq_C_0 : Fld := ⟨23, 16⟩
def fFabLaneEq_C_M1 : Fld := ⟨15, 8⟩
def fFabLaneEq_C_M2 : Fld := ⟨7, 0⟩
/-- Offset of `FAB_LANEl_EYE`. -/
def rFabLaneEye (n : Nat) : Nat := 0x2008008 + n * 0x10
def fFabLaneEye_HEIGHT : Fld := ⟨31, 16⟩
def fFabLaneEye_WIDTH : Fld := ⟨15, 0⟩
/-- Offset of `SHP_CFG`. -/
def rShpCfg : Nat := 0x2400000
def fShpCfg_TRANSIT_SHARE : Fld := ⟨23, 16⟩
def fShpCfg_DEF_OVERHEAD : Fld := ⟨10, 0⟩
/-- Offset of `SHP_QUENCH_CFG`. -/
def rShpQuenchCfg : Nat := 0x2400008
def fShpQuenchCfg_HIGH_KIB : Fld := ⟨63, 48⟩
def fShpQuenchCfg_LOW_KIB : Fld := ⟨47, 32⟩
def fShpQuenchCfg_DURATION_US : Fld := ⟨31, 16⟩
def fShpQuenchCfg_HOLD_US : Fld := ⟨15, 8⟩
def fShpQuenchCfg_RATE_GBPS : Fld := ⟨7, 0⟩
/-- Offset of `SHP_SSEL`. -/
def rShpSsel : Nat := 0x2400100
def fShpSsel_APPLY : Fld := ⟨16, 16⟩
def fShpSsel_STREAM : Fld := ⟨12, 0⟩
/-- Offset of `SHP_SSTATUS`. -/
def rShpSstatus : Nat := 0x2400108
def fShpSstatus_TOKENS : Fld := ⟨63, 32⟩
def fShpSstatus_ELIGIBLE : Fld := ⟨1, 1⟩
def fShpSstatus_SHAPED : Fld := ⟨0, 0⟩
/-- Offset of `SHP_GATEp_STATUS`. -/
def rShpGateStatus (n : Nat) : Nat := 0x2401000 + n * 0x20
def fShpGateStatus_ELAPSED_NS : Fld := ⟨63, 32⟩
def fShpGateStatus_UNREF : Fld := ⟨24, 24⟩
def fShpGateStatus_ENTRY : Fld := ⟨21, 16⟩
def fShpGateStatus_GATES : Fld := ⟨7, 0⟩
/-- Offset of `FLT_CFG`. -/
def rFltCfg : Nat := 0x2800000
def fFltCfg_INJECT_EN : Fld := ⟨1, 1⟩
def fFltCfg_SAT_EVENT : Fld := ⟨0, 0⟩
/-- Offset of `FLT_STATUS`. -/
def rFltStatus : Nat := 0x2800008
def fFltStatus_FENCED_UNITS : Fld := ⟨63, 48⟩
def fFltStatus_FATAL : Fld := ⟨0, 0⟩
/-- Offset of `FLT_UNIT_CTL`. -/
def rFltUnitCtl : Nat := 0x2800010
def fFltUnitCtl_OP : Fld := ⟨34, 32⟩
def fFltUnitCtl_GO : Fld := ⟨31, 31⟩
def fFltUnitCtl_KIND : Fld := ⟨27, 24⟩
def fFltUnitCtl_UNIT : Fld := ⟨11, 0⟩
/-- Offset of `FLT_UNIT_STATUS`. -/
def rFltUnitStatus : Nat := 0x2800018
def fFltUnitStatus_FENCES : Fld := ⟨63, 48⟩
def fFltUnitStatus_LOCKED_OUT : Fld := ⟨3, 3⟩
def fFltUnitStatus_OP_FAILED : Fld := ⟨2, 2⟩
def fFltUnitStatus_FENCED : Fld := ⟨0, 0⟩
/-- Offset of `FLT_IRQ_CFG`. -/
def rFltIrqCfg : Nat := 0x2800020
def fFltIrqCfg_CLASS_MASK : Fld := ⟨11, 8⟩
def fFltIrqCfg_VECTOR : Fld := ⟨5, 0⟩
/-- Offset of `FLT_EVT_STATUS`. -/
def rFltEvtStatus : Nat := 0x2800028
def fFltEvtStatus_LOST : Fld := ⟨63, 32⟩
def fFltEvtStatus_UNREAD : Fld := ⟨10, 0⟩
/-- Offset of `FLT_EVT_DATAw`. -/
def rFltEvtData (n : Nat) : Nat := 0x2800030 + n * 0x8
def fFltEvtData_DATA : Fld := ⟨63, 0⟩
/-- Offset of `FLT_EVT_POP`. -/
def rFltEvtPop : Nat := 0x2800050
def fFltEvtPop_POP : Fld := ⟨0, 0⟩
/-- Offset of `FLT_CTR_CLEAR`. -/
def rFltCtrClear : Nat := 0x2800058
def fFltCtrClear_ALL : Fld := ⟨37, 37⟩
def fFltCtrClear_BLOCK : Fld := ⟨36, 32⟩
def fFltCtrClear_OFFSET : Fld := ⟨25, 0⟩
/-- Offset of `FLT_SATb`. -/
def rFltSat (n : Nat) : Nat := 0x2800100 + n * 0x8
def fFltSat_SATURATED : Fld := ⟨63, 48⟩
def fFltSat_LAST_OFFSET : Fld := ⟨25, 3⟩
def fFltSat_ANY : Fld := ⟨0, 0⟩
/-- Offset of `SNP_CTL`. -/
def rSnpCtl : Nat := 0x2a00000
def fSnpCtl_VIEW : Fld := ⟨2, 2⟩
def fSnpCtl_TRIGGER : Fld := ⟨1, 1⟩
def fSnpCtl_ARMED : Fld := ⟨0, 0⟩
/-- Offset of `SNP_SRC`. -/
def rSnpSrc : Nat := 0x2a00008
def fSnpSrc_ENABLE : Fld := ⟨7, 0⟩
/-- Offset of `SNP_STATUS`. -/
def rSnpStatus : Nat := 0x2a00010
def fSnpStatus_TIME : Fld := ⟨63, 0⟩
/-- Offset of `SNP_INFO`. -/
def rSnpInfo : Nat := 0x2a00018
def fSnpInfo_SNAP_ID : Fld := ⟨63, 32⟩
def fSnpInfo_HELD : Fld := ⟨8, 8⟩
def fSnpInfo_SOURCE : Fld := ⟨2, 0⟩
/-- Offset of `TRM_SEL`. -/
def rTrmSel : Nat := 0x2c00000
def fTrmSel_LOOP : Fld := ⟨18, 16⟩
def fTrmSel_UNIT : Fld := ⟨8, 0⟩
/-- Offset of `TRM_UNIT_CFG`. -/
def rTrmUnitCfg : Nat := 0x2c00008
def fTrmUnitCfg_GAIN : Fld := ⟨47, 32⟩
def fTrmUnitCfg_TARGET : Fld := ⟨31, 0⟩
/-- Offset of `TRM_UNIT_LIMITS`. -/
def rTrmUnitLimits : Nat := 0x2c00010
def fTrmUnitLimits_LIMIT_HI : Fld := ⟨63, 32⟩
def fTrmUnitLimits_LIMIT_LO : Fld := ⟨31, 0⟩
/-- Offset of `TRM_UNIT_STATE`. -/
def rTrmUnitState : Nat := 0x2c00018
def fTrmUnitState_OUTPUT : Fld := ⟨63, 32⟩
def fTrmUnitState_INPUT : Fld := ⟨31, 0⟩
/-- Offset of `TRM_UNIT_LAST`. -/
def rTrmUnitLast : Nat := 0x2c00020
def fTrmUnitLast_DELTA : Fld := ⟨63, 32⟩
def fTrmUnitLast_KIND : Fld := ⟨7, 0⟩
/-- Offset of `TRM_UNIT_LAST_TIME`. -/
def rTrmUnitLastTime : Nat := 0x2c00028
def fTrmUnitLastTime_TIME : Fld := ⟨63, 0⟩
/-- Offset of `TRM_UNIT_CTL`. -/
def rTrmUnitCtl : Nat := 0x2c00030
def fTrmUnitCtl_CFG_ERR : Fld := ⟨3, 3⟩
def fTrmUnitCtl_DROGUE_EN : Fld := ⟨2, 2⟩
def fTrmUnitCtl_AT_LIMIT : Fld := ⟨1, 1⟩
def fTrmUnitCtl_FREEZE : Fld := ⟨0, 0⟩
/-- Offset of `TRM_CAL_SEL`. -/
def rTrmCalSel : Nat := 0x2c00100
def fTrmCalSel_ITEM : Fld := ⟨15, 0⟩
/-- Offset of `TRM_CAL_FACTORY`. -/
def rTrmCalFactory : Nat := 0x2c00108
def fTrmCalFactory_F : Fld := ⟨31, 0⟩
/-- Offset of `TRM_CAL_LIMITS`. -/
def rTrmCalLimits : Nat := 0x2c00110
def fTrmCalLimits_H : Fld := ⟨63, 32⟩
def fTrmCalLimits_L : Fld := ⟨31, 0⟩
/-- Offset of `TRM_CAL_OFFSET`. -/
def rTrmCalOffset : Nat := 0x2c00118
def fTrmCalOffset_U : Fld := ⟨31, 0⟩
/-- Offset of `TRM_CAL_EFFECTIVE`. -/
def rTrmCalEffective : Nat := 0x2c00120
def fTrmCalEffective_CLAMPED : Fld := ⟨32, 32⟩
def fTrmCalEffective_VALUE : Fld := ⟨31, 0⟩
/-- Offset of `TEL_DOMn_SLACK`. -/
def rTelDomSlack (n : Nat) : Nat := 0x3000000 + n * 0x8
def fTelDomSlack_MIN_EVER : Fld := ⟨31, 16⟩
def fTelDomSlack_MIN_1MS : Fld := ⟨15, 0⟩
/-- Offset of `TEL_TEMP_DIE`. -/
def rTelTempDie : Nat := 0x3000080
def fTelTempDie_MSD : Fld := ⟨63, 48⟩
def fTelTempDie_FHD : Fld := ⟨47, 32⟩
def fTelTempDie_SCD1 : Fld := ⟨31, 16⟩
def fTelTempDie_SCD0 : Fld := ⟨15, 0⟩
/-- Offset of `TEL_MEMSEL`. -/
def rTelMemsel : Nat := 0x3000100
def fTelMemsel_TIER : Fld := ⟨8, 8⟩
def fTelMemsel_CHANNEL : Fld := ⟨7, 0⟩
/-- Offset of `TEL_MEM_MARGIN`. -/
def rTelMemMargin : Nat := 0x3000108
def fTelMemMargin_RD_PERMIL : Fld := ⟨63, 48⟩
def fTelMemMargin_WR_PERMIL : Fld := ⟨47, 32⟩
def fTelMemMargin_LOW : Fld := ⟨31, 31⟩
def fTelMemMargin_AGE_MS : Fld := ⟨30, 0⟩
/-- Offset of `TEL_HOST_EYEl`. -/
def rTelHostEye (n : Nat) : Nat := 0x3000200 + n * 0x8
def fTelHostEye_HEIGHT : Fld := ⟨31, 16⟩
def fTelHostEye_WIDTH : Fld := ⟨15, 0⟩
/-- Offset of `LOG_STATUS`. -/
def rLogStatus : Nat := 0x3c00000
def fLogStatus_REPAIRED : Fld := ⟨63, 48⟩
def fLogStatus_USED_64KIB : Fld := ⟨19, 4⟩
def fLogStatus_MIRROR_OK : Fld := ⟨3, 3⟩
def fLogStatus_RESERVE : Fld := ⟨1, 1⟩
def fLogStatus_FULL : Fld := ⟨0, 0⟩
/-- Offset of `SEC_EXT_DATAw`. -/
def rSecExtData (n : Nat) : Nat := 0x3800040 + n * 0x8
def fSecExtData_DATA : Fld := ⟨63, 0⟩
/-- Offset of `SEC_EXT_CTL`. -/
def rSecExtCtl : Nat := 0x3800060
def fSecExtCtl_ERR : Fld := ⟨32, 32⟩
def fSecExtCtl_GO : Fld := ⟨31, 31⟩
def fSecExtCtl_SLOT : Fld := ⟨4, 0⟩
/-- Offset of `SEC_MLOG_STATUS`. -/
def rSecMlogStatus : Nat := 0x3800068
def fSecMlogStatus_OVERFLOW : Fld := ⟨63, 63⟩
def fSecMlogStatus_ENTRIES : Fld := ⟨31, 0⟩
/-- Offset of `SEC_KEY_STATUS`. -/
def rSecKeyStatus : Nat := 0x3800100
def fSecKeyStatus_STATE : Fld := ⟨7, 0⟩
/-- Offset of `SEC_ENROLL_DATAw`. -/
def rSecEnrollData (n : Nat) : Nat := 0x3800108 + n * 0x8
def fSecEnrollData_DATA : Fld := ⟨63, 0⟩
/-- Offset of `SEC_ENROLL_CTL`. -/
def rSecEnrollCtl : Nat := 0x3800128
def fSecEnrollCtl_ERR : Fld := ⟨17, 17⟩
def fSecEnrollCtl_GO : Fld := ⟨16, 16⟩
def fSecEnrollCtl_OP : Fld := ⟨9, 8⟩
def fSecEnrollCtl_SLOT : Fld := ⟨1, 0⟩
/-- Offset of `SEC_SLOTs_w`. -/
def rSecSlot (n : Nat) (m : Nat) : Nat := 0x3801000 + n * 0x20 + m * 0x8
def fSecSlot_VALUE : Fld := ⟨63, 0⟩
/-- Offset of `LOG_NEXT_SEQ`. -/
def rLogNextSeq : Nat := 0x3c00008
def fLogNextSeq_VALUE : Fld := ⟨63, 0⟩
/-- Offset of `LOG_BOOTS`. -/
def rLogBoots : Nat := 0x3c00010
def fLogBoots_VALUE : Fld := ⟨63, 0⟩
/-- Offset of `LOG_TBINb`. -/
def rLogTbin (n : Nat) : Nat := 0x3c00100 + n * 0x8
def fLogTbin_VALUE : Fld := ⟨63, 0⟩
/-- Offset of `LOG_VBINb`. -/
def rLogVbin (n : Nat) : Nat := 0x3c00140 + n * 0x8
def fLogVbin_VALUE : Fld := ⟨63, 0⟩
/-- Offset of `LOG_DROPPED`. -/
def rLogDropped : Nat := 0x3c00180
def fLogDropped_VALUE : Fld := ⟨63, 0⟩

/-- Counter `PRT_p_THROTTLE_A_NS` (Table 3.14): ns that Tier A accesses waited on the regulator. -/
def cPrtThrottleANs (n : Nat) : Nat := 0x100060 + n * 0x1000
/-- Counter `PRT_p_THROTTLE_B_NS` (Table 3.14): ns that Tier B accesses waited on the regulator. -/
def cPrtThrottleBNs (n : Nat) : Nat := 0x100068 + n * 0x1000
/-- Counter `PRT_p_THROTTLE_F_NS` (Table 3.14): ns that flash accesses waited on the regulator. -/
def cPrtThrottleFNs (n : Nat) : Nat := 0x100070 + n * 0x1000
/-- Counter `PRT_p_RESETS` (Table 3.14): Completed partition resets. -/
def cPrtResets (n : Nat) : Nat := 0x100080 + n * 0x1000
/-- Counter `PRT_p_DRAIN_TIMEOUTS` (Table 3.14): Drain timeouts (R108). -/
def cPrtDrainTimeouts (n : Nat) : Nat := 0x100088 + n * 0x1000
/-- Counter `PRT_p_LATE_DISCARDS` (Table 3.14): Responses of an old reset generation discarded. -/
def cPrtLateDiscards (n : Nat) : Nat := 0x100090 + n * 0x1000
/-- Counter `PRT_p_CTX_WAITS` (Table 3.14): Admissions that waited for a context. -/
def cPrtCtxWaits (n : Nat) : Nat := 0x100098 + n * 0x1000
/-- Counter `PRT_p_REFUSED_FABRIC` (Table 3.14): Fabric requests refused under R99. -/
def cPrtRefusedFabric (n : Nat) : Nat := 0x1000a0 + n * 0x1000
/-- Counter `PRT_p_BAD_STREAM` (Table 3.14): Commands refused under R94. -/
def cPrtBadStream (n : Nat) : Nat := 0x1000a8 + n * 0x1000
/-- Counter `PRT_p_DUP_COMPLETIONS` (Table 3.14): Completion attempts discarded under R98. -/
def cPrtDupCompletions (n : Nat) : Nat := 0x1000b0 + n * 0x1000
/-- Counter `PRT_POOLg_HANDOFFS` (Table 3.14): Handoffs committed with this pool as target. -/
def cPrtPoolHandoffs (n : Nat) : Nat := 0x140008 + n * 0x100
/-- Counter `PRT_POOLg_REFUSALS` (Table 3.14): REFUSE replies sent by this pool. -/
def cPrtPoolRefusals (n : Nat) : Nat := 0x140010 + n * 0x100
/-- Counter `PRT_POOLg_CONTESTED` (Table 3.14): Contests won by this pool (R101). -/
def cPrtPoolContested (n : Nat) : Nat := 0x140018 + n * 0x100
/-- Counter `PRT_POOLg_LOSSES` (Table 3.14): Losses of this pool (R102). -/
def cPrtPoolLosses (n : Nat) : Nat := 0x140020 + n * 0x100
/-- Counter `PRT_POOLg_MSG_DISCARDS` (Table 3.14): Handoff messages discarded for a generation mismatch. -/
def cPrtPoolMsgDiscards (n : Nat) : Nat := 0x140028 + n * 0x100
/-- Counter `PRT_p_STEPS` (Table 3.14): Steps that held at least one query. -/
def cPrtSteps (n : Nat) : Nat := 0x100110 + n * 0x1000
/-- Counter `PRT_p_VENTED` (Table 3.14): Queries vented (R147). -/
def cPrtVented (n : Nat) : Nat := 0x100118 + n * 0x1000
/-- Counter `PRT_p_VENTED_UNSTARTED` (Table 3.14): Queries vented before their step began. -/
def cPrtVentedUnstarted (n : Nat) : Nat := 0x100120 + n * 0x1000
/-- Counter `PRT_p_DEADLINE_CLAMPS` (Table 3.14): Deadlines clamped under R146. -/
def cPrtDeadlineClamps (n : Nat) : Nat := 0x100128 + n * 0x1000
/-- Counter `PRT_p_ORPHAN_RESPONSES` (Table 3.14): Shard responses discarded after a vent (R151). -/
def cPrtOrphanResponses (n : Nat) : Nat := 0x100130 + n * 0x1000
/-- Counter `PRT_p_ARRAY_WAIT_NS` (Table 3.14): ns during which the partition had array work queued and owned no array of its mask. -/
def cPrtArrayWaitNs (n : Nat) : Nat := 0x100138 + n * 0x1000
/-- Counter `PRT_p_SMALL_BATCH` (Table 3.14): Re-rank stages run on cores under R163. -/
def cPrtSmallBatch (n : Nat) : Nat := 0x100140 + n * 0x1000
/-- Counter `PRT_p_YIELDS` (Table 3.14): Yields at cheap points (R160). -/
def cPrtYields (n : Nat) : Nat := 0x100148 + n * 0x1000
/-- Counter `MXAn_SWITCHES` (Table 3.14): Array switches. -/
def cMxaSwitches (n : Nat) : Nat := 0x1030010 + n * 0x40000
/-- Counter `MXAn_SWITCH_NS` (Table 3.14): ns spent in switches, warm-in included. -/
def cMxaSwitchNs (n : Nat) : Nat := 0x1030018 + n * 0x40000
/-- Counter `MXAn_YIELD_MISSES` (Table 3.14): Yield requests cancelled under R159. -/
def cMxaYieldMisses (n : Nat) : Nat := 0x1030020 + n * 0x40000
/-- Counter `MXAn_PREEMPTS` (Table 3.14): Switches made at a cheap point. -/
def cMxaPreempts (n : Nat) : Nat := 0x1030028 + n * 0x40000
/-- Counter `BKE_STACKn_THROTTLE_NS` (Table 3.14): ns during which starts were delayed (R193). -/
def cBkeStackThrottleNs (n : Nat) : Nat := 0x1401010 + n * 0x100
/-- Counter `BKE_STACKn_TARGETED` (Table 3.14): Targeted refreshes (R191). -/
def cBkeStackTargeted (n : Nat) : Nat := 0x1401018 + n * 0x100
/-- Counter `BKE_STACKn_REFRESH_INS` (Table 3.14): Refreshes inserted into commands (R192). -/
def cBkeStackRefreshIns (n : Nat) : Nat := 0x1401020 + n * 0x100
/-- Counter `BKE_CHc_CMDS` (Table 3.14): Descriptors completed. -/
def cBkeChCmds (n : Nat) : Nat := 0x1410010 + n * 0x100
/-- Counter `BKE_CHc_HOLDS` (Table 3.14): Ordinary accesses held (R194). -/
def cBkeChHolds (n : Nat) : Nat := 0x1410018 + n * 0x100
/-- Counter `BKE_CHc_YIELDS` (Table 3.14): Forced yields (R195). -/
def cBkeChYields (n : Nat) : Nat := 0x1410020 + n * 0x100
/-- Counter `BKE_CHc_SWITCHES` (Table 3.14): Mode switches, yields included. -/
def cBkeChSwitches (n : Nat) : Nat := 0x1410028 + n * 0x100
/-- Counter `BKE_CHc_REFUSED` (Table 3.14): Descriptors refused (R187). -/
def cBkeChRefused (n : Nat) : Nat := 0x1410030 + n * 0x100
/-- Counter `BKE_CHc_FALLBACK` (Table 3.14): Descriptors run on cores (R197). -/
def cBkeChFallback (n : Nat) : Nat := 0x1410038 + n * 0x100
/-- Counter `BKE_CHc_RING_WAIT_NS` (Table 3.14): ns commands waited for ring space (R184). -/
def cBkeChRingWaitNs (n : Nat) : Nat := 0x1410040 + n * 0x100
/-- Counter `BKE_Pp_PUBLISH_HELD` (Table 3.14): Loop publications not made for want of a SET_ID (R170). -/
def cBkePPublishHeld (n : Nat) : Nat := 0x1420008 + n * 0x40
/-- Counter `BKE_Pp_NAN_PROJ` (Table 3.14): NaN projected values (R166). -/
def cBkePNanProj (n : Nat) : Nat := 0x1420010 + n * 0x40
/-- Counter `PRT_p_QUERIES_DONE` (Table 3.14): Queries completed with `DONE` or `DONE_PARTIAL`. -/
def cPrtQueriesDone (n : Nat) : Nat := 0x100218 + n * 0x1000
/-- Counter `PRT_p_FEWER` (Table 3.14): Queries completed with `FEWER`. -/
def cPrtFewer (n : Nat) : Nat := 0x100220 + n * 0x1000
/-- Counter `PRT_p_WIDENED` (Table 3.14): Widened retries run (R217). -/
def cPrtWidened (n : Nat) : Nat := 0x100228 + n * 0x1000
/-- Counter `PRT_p_GATHERED` (Table 3.14): Sketches gathered by traversal. -/
def cPrtGathered (n : Nat) : Nat := 0x100230 + n * 0x1000
/-- Counter `PRT_p_VISIT_SKIPS` (Table 3.14): Neighbours skipped by the visited filter (R211). -/
def cPrtVisitSkips (n : Nat) : Nat := 0x100238 + n * 0x1000
/-- Counter `PRT_p_RERANK_DROPS` (Table 3.14): Candidates dropped from re-rank (R216). -/
def cPrtRerankDrops (n : Nat) : Nat := 0x100240 + n * 0x1000
/-- Counter `PRT_p_SHARD_FAILS` (Table 3.14): Shard sub-requests failed (R220). -/
def cPrtShardFails (n : Nat) : Nat := 0x100248 + n * 0x1000
/-- Counter `MXAn_REQ_g` (Table 3.14): Outputs of column group *g* requantised (R236). -/
def cMxaReq (n : Nat) (m : Nat) : Nat := 0x1000100 + n * 0x40000 + m * 0x10
/-- Counter `MXAn_CLIP_g` (Table 3.14): Outputs of column group *g* clipped (R235). -/
def cMxaClip (n : Nat) (m : Nat) : Nat := 0x1000108 + n * 0x40000 + m * 0x10
/-- Counter `MXAn_STEPS` (Table 3.14): Array steps in which a row or a tile row entered. -/
def cMxaSteps (n : Nat) : Nat := 0x1000200 + n * 0x40000
/-- Counter `MXAn_ROWS` (Table 3.14): Rows streamed, counted once per pass. -/
def cMxaRows (n : Nat) : Nat := 0x1000208 + n * 0x40000
/-- Counter `MXAn_INSTRS` (Table 3.14): Instructions completed. -/
def cMxaInstrs (n : Nat) : Nat := 0x1000210 + n * 0x40000
/-- Counter `MXAn_BUBBLE_NS` (Table 3.14): ns of idle steps under R224 and R225. -/
def cMxaBubbleNs (n : Nat) : Nat := 0x1000218 + n * 0x40000
/-- Counter `MXAn_WINDOW_STALL_NS` (Table 3.14): ns the owner waited for a layer (R239). -/
def cMxaWindowStallNs (n : Nat) : Nat := 0x1000220 + n * 0x40000
/-- Counter `MXAn_REFUSED` (Table 3.14): Descriptors refused (R227). -/
def cMxaRefused (n : Nat) : Nat := 0x1000228 + n * 0x40000
/-- Counter `MXAn_SAT` (Table 3.14): int32 outputs saturated (R234). -/
def cMxaSat (n : Nat) : Nat := 0x1000230 + n * 0x40000
/-- Counter `MXAn_BUSY_NS` (Table 3.14): ns during which an instruction occupied the array. -/
def cMxaBusyNs (n : Nat) : Nat := 0x1000238 + n * 0x40000
/-- Counter `MXAn_FENCED_RESTARTS` (Table 3.14): Phases run again elsewhere after this array was fenced (R245). -/
def cMxaFencedRestarts (n : Nat) : Nat := 0x1000240 + n * 0x40000
/-- Counter `CLUn_SELu_ENTRIES` (Table 3.14): Entries offered, NaN and duplicates included. -/
def cCluSelEntries (n : Nat) (m : Nat) : Nat := 0x804008 + n * 0x80000 + m * 0x100
/-- Counter `CLUn_SELu_NAN` (Table 3.14): Entries discarded for a NaN key (R250). -/
def cCluSelNan (n : Nat) (m : Nat) : Nat := 0x804010 + n * 0x80000 + m * 0x100
/-- Counter `CLUn_SELu_DUPS` (Table 3.14): Duplicates by vector ID discarded or replaced (R254). -/
def cCluSelDups (n : Nat) (m : Nat) : Nat := 0x804018 + n * 0x80000 + m * 0x100
/-- Counter `CLUn_SELu_TIE_CUTS` (Table 3.14): Lists closed with `TIE_CUT`. -/
def cCluSelTieCuts (n : Nat) (m : Nat) : Nat := 0x804020 + n * 0x80000 + m * 0x100
/-- Counter `CLUn_SELu_FEWER` (Table 3.14): Lists closed with `FEWER` (R255). -/
def cCluSelFewer (n : Nat) (m : Nat) : Nat := 0x804028 + n * 0x80000 + m * 0x100
/-- Counter `CLUn_SELu_REFUSED` (Table 3.14): List requests refused (R247). -/
def cCluSelRefused (n : Nat) (m : Nat) : Nat := 0x804030 + n * 0x80000 + m * 0x100
/-- Counter `CLUn_SELu_LIST_WAIT_NS` (Table 3.14): ns that list requests waited for room (R247). -/
def cCluSelListWaitNs (n : Nat) (m : Nat) : Nat := 0x804038 + n * 0x80000 + m * 0x100
/-- Counter `CLUn_SELu_BUSY_NS` (Table 3.14): ns during which the unit had at least one open list. -/
def cCluSelBusyNs (n : Nat) (m : Nat) : Nat := 0x804040 + n * 0x80000 + m * 0x100
/-- Counter `PRT_p_INSERTED` (Table 3.14): Items made live by `INSERT`. -/
def cPrtInserted (n : Nat) : Nat := 0x100318 + n * 0x1000
/-- Counter `PRT_p_DELETED` (Table 3.14): Items deleted by `DELETE`. -/
def cPrtDeleted (n : Nat) : Nat := 0x100320 + n * 0x1000
/-- Counter `PRT_p_REPLACED` (Table 3.14): Copies replaced under REPLACE or superseded at publish. -/
def cPrtReplaced (n : Nat) : Nat := 0x100328 + n * 0x1000
/-- Counter `PRT_p_ITEM_FAILS` (Table 3.14): Items of update commands with a status other than `DONE`. -/
def cPrtItemFails (n : Nat) : Nat := 0x100330 + n * 0x1000
/-- Counter `PRT_p_COMMIT_LATE` (Table 3.14): Boundaries at which an unprepared command held back the sequence (R264). -/
def cPrtCommitLate (n : Nat) : Nat := 0x100338 + n * 0x1000
/-- Counter `PRT_p_DELTA_SEALS` (Table 3.14): Deltas sealed (R272). -/
def cPrtDeltaSeals (n : Nat) : Nat := 0x100340 + n * 0x1000
/-- Counter `PRT_p_TOMB_FULL` (Table 3.14): Commands refused for lack of young tombstone entries. -/
def cPrtTombFull (n : Nat) : Nat := 0x100348 + n * 0x1000
/-- Counter `PRT_p_SEGS_FREED` (Table 3.14): Retired segments freed (R282). -/
def cPrtSegsFreed (n : Nat) : Nat := 0x100350 + n * 0x1000
/-- Counter `PRT_p_BUILT_VECTORS` (Table 3.14): Vectors linked by builds, cancelled and failed builds included. -/
def cPrtBuiltVectors (n : Nat) : Nat := 0x100358 + n * 0x1000
/-- Counter `EMB_T_LOOKUP_ROWS` (Table 3.14): Output rows written by lookups. -/
def cEmbTLookupRows : Nat := 0x1a00120
/-- Counter `EMB_T_UNIQUE_ROWS` (Table 3.14): Rows fetched after sort and unique. -/
def cEmbTUniqueRows : Nat := 0x1a00128
/-- Counter `EMB_T_INVALID` (Table 3.14): Invalid indices dropped (R291). -/
def cEmbTInvalid : Nat := 0x1a00130
/-- Counter `EMB_T_CONTRIBS` (Table 3.14): Contributions accumulated as owner. -/
def cEmbTContribs : Nat := 0x1a00138
/-- Counter `EMB_T_APPLIED` (Table 3.14): Rows applied at step close (R300). -/
def cEmbTApplied : Nat := 0x1a00140
/-- Counter `EMB_T_LATE` (Table 3.14): Contributions refused as late (R297). -/
def cEmbTLate : Nat := 0x1a00148
/-- Counter `EMB_T_ACCUM_FULL` (Table 3.14): Contributions refused for a full accumulation area. -/
def cEmbTAccumFull : Nat := 0x1a00150
/-- Counter `EMB_T_FORWARDED` (Table 3.14): Requests and contributions forwarded after a drift (R306). -/
def cEmbTForwarded : Nat := 0x1a00158
/-- Counter `EMB_DRIFTS` (Table 3.14): Drifts completed with this node as owner. -/
def cEmbDrifts : Nat := 0x1a00200
/-- Counter `EMB_DRIFT_REFUSED` (Table 3.14): Drifts refused (R305). -/
def cEmbDriftRefused : Nat := 0x1a00208
/-- Counter `EMB_DIR_EVICTS` (Table 3.14): HINT entries evicted. -/
def cEmbDirEvicts : Nat := 0x1a00210
/-- Counter `EMB_STEP_TIMEOUTS` (Table 3.14): Steps closed on timeout (R301). -/
def cEmbStepTimeouts : Nat := 0x1a00218
/-- Counter `MEM_Pp_CLAIM_WAITS` (Table 3.14): Admissions that waited for a claim (R315). -/
def cMemPClaimWaits (n : Nat) : Nat := 0x1801040 + n * 0x80
/-- Counter `MEM_Pp_QUOTA_REFUSALS` (Table 3.14): Allocations refused under R318. -/
def cMemPQuotaRefusals (n : Nat) : Nat := 0x1801048 + n * 0x80
/-- Counter `MEM_MIGRATIONS` (Table 3.14): Migrations switched (R317). -/
def cMemMigrations : Nat := 0x1800200
/-- Counter `MEM_MIGRATE_BYTES` (Table 3.14): Bytes copied by migrations, dirty passes included. -/
def cMemMigrateBytes : Nat := 0x1800208
/-- Counter `MEM_P_ACCESS_FAILS` (Table 3.14): Tier P accesses failed (R320). -/
def cMemPAccessFails : Nat := 0x1800210
/-- Counter `FTL_HOST_READ_BYTES` (Table 3.14): Bytes read for namespaces and Tier F. -/
def cFtlHostReadBytes : Nat := 0x1c00200
/-- Counter `FTL_HOST_WRITE_BYTES` (Table 3.14): Bytes written for namespaces and Tier F. -/
def cFtlHostWriteBytes : Nat := 0x1c00208
/-- Counter `FTL_MEDIA_WRITE_BYTES` (Table 3.14): Bytes programmed, parity and relocation included. -/
def cFtlMediaWriteBytes : Nat := 0x1c00210
/-- Counter `FTL_GC_RELOCATED` (Table 3.14): Units relocated by collection. -/
def cFtlGcRelocated : Nat := 0x1c00218
/-- Counter `FTL_WEAR_MOVES` (Table 3.14): Superblocks moved by wear levelling (R341). -/
def cFtlWearMoves : Nat := 0x1c00220
/-- Counter `FTL_RETRY_READS` (Table 3.14): Page reads that needed retry. -/
def cFtlRetryReads : Nat := 0x1c00228
/-- Counter `FTL_PARITY_REBUILDS` (Table 3.14): Pages rebuilt from parity. -/
def cFtlParityRebuilds : Nat := 0x1c00230
/-- Counter `FTL_UNCORRECTABLE` (Table 3.14): Pages not recoverable (R338). -/
def cFtlUncorrectable : Nat := 0x1c00238
/-- Counter `FTL_BLOCKS_RETIRED` (Table 3.14): Blocks retired (R339). -/
def cFtlBlocksRetired : Nat := 0x1c00240
/-- Counter `FTL_SCRUB_RELOCATED` (Table 3.14): Blocks relocated by scrub (R343). -/
def cFtlScrubRelocated : Nat := 0x1c00248
/-- Counter `FTL_GC_WAIT_NS` (Table 3.14): ns host writes waited for collection (R342). -/
def cFtlGcWaitNs : Nat := 0x1c00250
/-- Counter `FAB_TRANSIT_FLITS` (Table 3.14): Flits forwarded by the crossbar for other nodes. -/
def cFabTransitFlits : Nat := 0x2000200
/-- Counter `FAB_DROPS` (Table 3.14): Packets and flits discarded (R356, R357, R361, R372). -/
def cFabDrops : Nat := 0x2000208
/-- Counter `FAB_QUENCH_SENT` (Table 3.14): QUENCH orders sent. -/
def cFabQuenchSent : Nat := 0x2000210
/-- Counter `FAB_QUENCH_RCVD` (Table 3.14): QUENCH orders acted on (R362). -/
def cFabQuenchRcvd : Nat := 0x2000218
/-- Counter `FAB_ROUTE_CHANGES` (Table 3.14): Map changes taken in (R367). -/
def cFabRouteChanges : Nat := 0x2000220
/-- Counter `FAB_ID_CONFLICTS` (Table 3.14): ID conflicts settled (R366). -/
def cFabIdConflicts : Nat := 0x2000228
/-- Counter `FAB_COLL_FAILS` (Table 3.14): Collectives failed (R377). -/
def cFabCollFails : Nat := 0x2000230
/-- Counter `FAB_E2E_TIMEOUTS` (Table 3.14): Requests ended by R371. -/
def cFabE2eTimeouts : Nat := 0x2000238
/-- Counter `FAB_Pp_TX_FLITS` (Table 3.14): Flits sent on the port, replays included. -/
def cFabPTxFlits (n : Nat) : Nat := 0x2001010 + n * 0x40
/-- Counter `FAB_Pp_RX_FLITS` (Table 3.14): Flits accepted on the port. -/
def cFabPRxFlits (n : Nat) : Nat := 0x2001018 + n * 0x40
/-- Counter `FAB_Pp_RETRIES` (Table 3.14): Replays (R353) and failed bring-ups (R349). -/
def cFabPRetries (n : Nat) : Nat := 0x2001020 + n * 0x40
/-- Counter `FAB_Pp_FEC_CORR` (Table 3.14): Codewords corrected by RS(544,514). -/
def cFabPFecCorr (n : Nat) : Nat := 0x2001028 + n * 0x40
/-- Counter `FAB_Pp_FEC_UNCORR` (Table 3.14): Codewords not correctable. -/
def cFabPFecUncorr (n : Nat) : Nat := 0x2001030 + n * 0x40
/-- Counter `FAB_Pp_VC0_FLITS` (Table 3.14): VC0 flits sent on the port. -/
def cFabPVc0Flits (n : Nat) : Nat := 0x2001038 + n * 0x40
/-- Counter `SHP_Pp_a_GREEN_BYTES` (Table 3.14): Bytes L coloured green (R383). -/
def cShpPGreenBytes (n : Nat) (m : Nat) : Nat := 0x2402000 + n * 0x80 + m * 0x40
/-- Counter `SHP_Pp_a_YELLOW_BYTES` (Table 3.14): Bytes L coloured yellow. -/
def cShpPYellowBytes (n : Nat) (m : Nat) : Nat := 0x2402008 + n * 0x80 + m * 0x40
/-- Counter `SHP_Pp_a_RED_BYTES` (Table 3.14): Bytes L coloured red. -/
def cShpPRedBytes (n : Nat) (m : Nat) : Nat := 0x2402010 + n * 0x80 + m * 0x40
/-- Counter `SHP_Pp_a_DROPS` (Table 3.14): Units dropped by the meter (R384). -/
def cShpPDrops (n : Nat) (m : Nat) : Nat := 0x2402018 + n * 0x80 + m * 0x40
/-- Counter `SHP_Pp_a_SHAPE_NS` (Table 3.14): ns that head units waited on stream shapers (R385). -/
def cShpPShapeNs (n : Nat) (m : Nat) : Nat := 0x2402020 + n * 0x80 + m * 0x40
/-- Counter `SHP_Pp_a_QUENCH_NS` (Table 3.14): ns that packets were held at stage 3; 0 for host ingress. -/
def cShpPQuenchNs (n : Nat) (m : Nat) : Nat := 0x2402028 + n * 0x80 + m * 0x40
/-- Counter `SHP_Pp_GATE_NS` (Table 3.14): ns that packets waited on closed gates of port *p* (R392). -/
def cShpPGateNs (n : Nat) : Nat := 0x2401008 + n * 0x20
/-- Counter `SHP_QUENCH_EVICTS` (Table 3.14): QUENCH entries replaced in a full table (R395). -/
def cShpQuenchEvicts : Nat := 0x2400200
/-- Counter `SHP_GATE_TRUNC` (Table 3.14): Gate lists cut at a boundary (R393). -/
def cShpGateTrunc : Nat := 0x2400208
/-- Counter `SHP_GATE_OVERRUN` (Table 3.14): Packets that overran a gate after a width change (R393). -/
def cShpGateOverrun : Nat := 0x2400210
/-- Counter `FLT_CORRECTED` (Table 3.14): CORRECTED errors, each merged occurrence counted. -/
def cFltCorrected : Nat := 0x2800200
/-- Counter `FLT_CONTAINED` (Table 3.14): CONTAINED errors. -/
def cFltContained : Nat := 0x2800208
/-- Counter `FLT_FENCES` (Table 3.14): Units fenced. -/
def cFltFences : Nat := 0x2800210
/-- Counter `FLT_REQUEUED` (Table 3.14): Phases requeued under R403. -/
def cFltRequeued : Nat := 0x2800218
/-- Counter `FLT_ABORTED` (Table 3.14): Requests completed with `ABORTED_FENCE`. -/
def cFltAborted : Nat := 0x2800220
/-- Counter `FLT_RESTORES` (Table 3.14): Units restored (R412). -/
def cFltRestores : Nat := 0x2800228
/-- Counter `SNP_MISSED` (Table 3.14): Triggers ignored while ARMED was 0 (R414). -/
def cSnpMissed : Nat := 0x2a00020
/-- Counter `TRM_UNIT_ACTIONS` (Table 3.14): Actions of the selected unit. -/
def cTrmUnitActions : Nat := 0x2c00038

/-- The registers of block NODE (Table 20.4). -/
def regsNode : List RegSpec :=
  [⟨0x0, [], [⟨fNodeId_FAMILY, .ro, 23066, none⟩, ⟨fNodeId_PART, .ro, 9, none⟩, ⟨fNodeId_VARIANT, .ro, 0, none⟩, ⟨fNodeId_STACK_GIB, .ro, 0, none⟩, ⟨fNodeId_STEPPING, .ro, 160, none⟩]⟩,
   ⟨0x8, [], [⟨fNodeStatus_READY_MS, .ro, 0, none⟩, ⟨fNodeStatus_BOOT_STAGE, .ro, 0, none⟩, ⟨fNodeStatus_LAST_RESET, .ro, 0, none⟩, ⟨fNodeStatus_FW_COPY, .ro, 0, none⟩, ⟨fNodeStatus_RECOVERY, .ro, 0, none⟩, ⟨fNodeStatus_READY, .ro, 0, none⟩]⟩,
   ⟨0x10, [], [⟨fNodeReset_KEY, .wo, 0, none⟩, ⟨fNodeReset_WARM, .wo, 0, none⟩]⟩,
   ⟨0x40, [], [⟨fNodeAccessErr_LAST_PF, .ro, 0, none⟩, ⟨fNodeAccessErr_LAST_OFFSET, .ro, 0, none⟩, ⟨fNodeAccessErr_RSV_WRITE, .w1c, 0, none⟩, ⟨fNodeAccessErr_BAD_WIDTH, .w1c, 0, none⟩, ⟨fNodeAccessErr_LOCKED_WRITE, .w1c, 0, none⟩]⟩,
   ⟨0x80, [], [⟨fNodeTime_NS, .ro, 0, none⟩]⟩,
   ⟨0x88, [], [⟨fNodeTimeStatus_HOLDOVER_NS_HI, .ros, 0, none⟩, ⟨fNodeTimeStatus_HOLDOVER_SEEN, .w1c, 0, none⟩, ⟨fNodeTimeStatus_HOLDOVER, .ro, 0, none⟩, ⟨fNodeTimeStatus_LOCKED, .ro, 0, none⟩]⟩,
   ⟨0x200, [(0x8, 14)], [⟨fNodeDomainStatus_FENCED, .ro, 0, none⟩, ⟨fNodeDomainStatus_POWERED, .ro, 0, none⟩, ⟨fNodeDomainStatus_POWER_DW, .ro, 0, none⟩, ⟨fNodeDomainStatus_RATE_PERMIL, .ro, 0, none⟩, ⟨fNodeDomainStatus_VOLT_MV, .ro, 0, none⟩]⟩,
   ⟨0x300, [], [⟨fNodePowerLimit_LIMIT_W, .rwl, 1500, some (900, 1500)⟩]⟩,
   ⟨0x308, [], [⟨fNodePowerStatus_FLOOR_MISS_COUNT, .ro, 0, none⟩, ⟨fNodePowerStatus_LIMIT_CLAMPED, .w1c, 0, none⟩, ⟨fNodePowerStatus_FLOOR_MISS, .w1c, 0, none⟩, ⟨fNodePowerStatus_CLAMPED, .w1c, 0, none⟩, ⟨fNodePowerStatus_BACKSTOP, .ro, 0, none⟩, ⟨fNodePowerStatus_PKG_W_10MS, .ro, 0, none⟩, ⟨fNodePowerStatus_PKG_W_1MS, .ro, 0, none⟩, ⟨fNodePowerStatus_LIMIT_EFF_W, .ro, 0, none⟩]⟩,
   ⟨0x400, [], [⟨fNodeBridleStatus_SKIPPED, .ro, 0, none⟩, ⟨fNodeBridleStatus_REJECTED, .w1c, 0, none⟩, ⟨fNodeBridleStatus_CAL_CLAMPED, .w1c, 0, none⟩, ⟨fNodeBridleStatus_SIG_VERIFIED, .ro, 0, none⟩, ⟨fNodeBridleStatus_LAST_KIND, .ro, 0, none⟩, ⟨fNodeBridleStatus_LOADING, .ro, 0, none⟩, ⟨fNodeBridleStatus_LOADED, .ro, 0, none⟩]⟩,
   ⟨0x408, [], [⟨fNodeBridleErr_RECORD_INDEX, .ro, 0, none⟩, ⟨fNodeBridleErr_RECORD_TYPE, .ro, 0, none⟩, ⟨fNodeBridleErr_PARTITION, .ro, 0, none⟩, ⟨fNodeBridleErr_REASON, .ro, 0, none⟩]⟩,
   ⟨0x410, [], [⟨fNodeBridleSerial_SERIAL, .ro, 0, none⟩]⟩,
   ⟨0x418, [], [⟨fNodeBridlePolicy_REQUIRE_SIG, .w1s, 0, none⟩]⟩,
   ⟨0x500, [], [⟨fNodeRailStatus_AVS_LOST, .ro, 0, none⟩, ⟨fNodeRailStatus_IN_RANGE, .ro, 0, none⟩]⟩]

/-- The registers of block PRT (Table 20.4). -/
def regsPrt : List RegSpec :=
  [⟨0x100000, [(0x1000, 64)], [⟨fPrtCtl_SCRUB, .rw, 0, none⟩, ⟨fPrtCtl_QUIESCE, .rw, 0, none⟩, ⟨fPrtCtl_RESET, .w1s, 0, none⟩]⟩,
   ⟨0x100008, [(0x1000, 64)], [⟨fPrtStatus_RESET_GEN, .ro, 0, none⟩, ⟨fPrtStatus_CTX_G1, .ro, 0, none⟩, ⟨fPrtStatus_CTX_G0, .ro, 0, none⟩, ⟨fPrtStatus_STATE, .ro, 0, none⟩]⟩,
   ⟨0x100040, [(0x1000, 64)], [⟨fPrtBwA_BURST_KIB, .rw, 0, none⟩, ⟨fPrtBwA_RATE, .rw, 0, none⟩]⟩,
   ⟨0x100048, [(0x1000, 64)], [⟨fPrtBwB_BURST_KIB, .rw, 0, none⟩, ⟨fPrtBwB_RATE, .rw, 0, none⟩]⟩,
   ⟨0x100050, [(0x1000, 64)], [⟨fPrtBwF_BURST_KIB, .rw, 0, none⟩, ⟨fPrtBwF_RATE, .rw, 0, none⟩]⟩,
   ⟨0x140000, [(0x100, 2)], [⟨fPrtPoolStatus_REBUILDING, .ro, 0, none⟩, ⟨fPrtPoolStatus_FREE, .ro, 16384, none⟩]⟩,
   ⟨0x100100, [(0x1000, 64)], [⟨fPrtServeCfg_MAX_CARRY, .rw, 0, none⟩, ⟨fPrtServeCfg_DEADLINE_US, .rw, 0, none⟩]⟩,
   ⟨0x100108, [(0x1000, 64)], [⟨fPrtServeStatus_STEP, .ro, 0, none⟩, ⟨fPrtServeStatus_STEP_QUERIES, .ro, 0, none⟩, ⟨fPrtServeStatus_STEP_CARRIED, .ro, 0, none⟩]⟩,
   ⟨0x100200, [(0x1000, 64)], [⟨fPrtSearchCfg_DELTA_BLOCK_ROWS, .rw, 10, none⟩, ⟨fPrtSearchCfg_HOLD_EPOCHS, .rw, 0, none⟩]⟩,
   ⟨0x100208, [(0x1000, 64)], [⟨fPrtFoldEpoch_EPOCH, .ro, 0, none⟩]⟩,
   ⟨0x100210, [(0x1000, 64)], [⟨fPrtTombStatus_YOUNG_PEAK, .ro, 0, none⟩, ⟨fPrtTombStatus_YOUNG_USED, .ro, 0, none⟩]⟩,
   ⟨0x100300, [(0x1000, 64)], [⟨fPrtEpoch_EPOCH, .ro, 0, none⟩]⟩,
   ⟨0x100308, [(0x1000, 64)], [⟨fPrtDeltaCfg_CAPACITY_64K, .rw, 0, none⟩, ⟨fPrtDeltaCfg_META_TIER, .rw, 0, none⟩, ⟨fPrtDeltaCfg_VEC_TIER, .rw, 0, none⟩]⟩,
   ⟨0x100310, [(0x1000, 64)], [⟨fPrtDeltaStatus_DELTAS, .ro, 0, none⟩, ⟨fPrtDeltaStatus_CURRENT_VALID, .ro, 0, none⟩, ⟨fPrtDeltaStatus_CURRENT_SEG, .ro, 0, none⟩, ⟨fPrtDeltaStatus_DELTA_VECTORS, .ro, 0, none⟩]⟩]

/-- The registers of block CLU (Table 20.4). -/
def regsClu : List RegSpec :=
  [⟨0x800000, [(0x80000, 8)], [⟨fCluStatus_CLUSTER_FENCED, .ro, 0, none⟩, ⟨fCluStatus_UNIT_FENCED, .ro, 0, none⟩, ⟨fCluStatus_CORE_FENCED, .ro, 0, none⟩]⟩,
   ⟨0x804000, [(0x80000, 8), (0x100, 2)], [⟨fCluSelStatus_K_MAX, .ro, 0, none⟩, ⟨fCluSelStatus_LISTS_OPEN, .ro, 0, none⟩, ⟨fCluSelStatus_STATE, .ro, 0, none⟩]⟩]

/-- The registers of block MXA (Table 20.4). -/
def regsMxa : List RegSpec :=
  [⟨0x1000000, [(0x40000, 4)], [⟨fMxaMode_PARTITION, .ro, 0, none⟩, ⟨fMxaMode_VALID, .ro, 0, none⟩, ⟨fMxaMode_DEFAULT_MODE, .ro, 0, none⟩, ⟨fMxaMode_DIST_OPS, .ro, 0, none⟩, ⟨fMxaMode_TYPES, .ro, 0, none⟩, ⟨fMxaMode_MODES, .ro, 0, none⟩]⟩,
   ⟨0x1000008, [(0x40000, 4)], [⟨fMxaClipCfg_CLEAR, .w1s, 0, none⟩, ⟨fMxaClipCfg_FILTER, .rw, 0, none⟩, ⟨fMxaClipCfg_PARTITION, .rw, 0, none⟩]⟩,
   ⟨0x1030000, [(0x40000, 4)], [⟨fMxaShareCfg_YIELD_LIMIT_US, .rw, 200, some (10, 10000)⟩, ⟨fMxaShareCfg_ROUND_US, .rw, 20000, some (1000, 1000000)⟩]⟩,
   ⟨0x1030008, [(0x40000, 4)], [⟨fMxaShareStatus_LAST_SWITCH_NS, .ro, 0, none⟩, ⟨fMxaShareStatus_STATE, .ro, 0, none⟩, ⟨fMxaShareStatus_OWNER_VALID, .ro, 0, none⟩, ⟨fMxaShareStatus_OWNER, .ro, 0, none⟩]⟩]

/-- The registers of block BKE (Table 20.4). -/
def regsBke : List RegSpec :=
  [⟨0x1400000, [], [⟨fBkeCfg_LINGER_US, .rw, 10, none⟩]⟩,
   ⟨0x1401000, [(0x100, 8)], [⟨fBkeStackCfg_ACT_LIMIT, .rw, 2048, some (256, 16384)⟩, ⟨fBkeStackCfg_BUDGET_W, .rw, 20, some (4, 32)⟩]⟩,
   ⟨0x1401008, [(0x100, 8)], [⟨fBkeStackStatus_THROTTLED, .ro, 0, none⟩, ⟨fBkeStackStatus_MAX_POSTPONE, .ro, 0, none⟩, ⟨fBkeStackStatus_ENG_POWER_DW, .ro, 0, none⟩, ⟨fBkeStackStatus_BUDGET_EFF_W, .ro, 0, none⟩, ⟨fBkeStackStatus_REFRESH_NS, .ro, 0, none⟩, ⟨fBkeStackStatus_TEMP_C, .ro, 0, none⟩]⟩,
   ⟨0x1410000, [(0x100, 256)], [⟨fBkeChCfg_OWNER_VALID, .rwl, 0, none⟩, ⟨fBkeChCfg_OWNER, .rwl, 0, none⟩, ⟨fBkeChCfg_HOLD_LIMIT_US, .rwl, 0, none⟩]⟩,
   ⟨0x1410008, [(0x100, 256)], [⟨fBkeChStatus_OLDEST_HOLD_NS, .ro, 0, none⟩, ⟨fBkeChStatus_OPEN_TAGS, .ro, 0, none⟩, ⟨fBkeChStatus_QUEUED, .ro, 0, none⟩, ⟨fBkeChStatus_HOLD_DEPTH, .ro, 0, none⟩, ⟨fBkeChStatus_STATE, .ro, 0, none⟩]⟩,
   ⟨0x1420000, [(0x40, 64)], [⟨fBkePTset_CURRENT_VERSION, .ro, 0, none⟩, ⟨fBkePTset_HELD, .ro, 0, none⟩, ⟨fBkePTset_VALID, .ro, 0, none⟩, ⟨fBkePTset_CURRENT, .ro, 0, none⟩]⟩]

/-- The registers of block MEM (Table 20.4). -/
def regsMem : List RegSpec :=
  [⟨0x1800000, [], [⟨fMemCfg_LOST_MS, .rw, 1000, some (10, 60000)⟩]⟩,
   ⟨0x1800008, [], [⟨fMemStatus_COMPOSITIONS, .ro, 0, none⟩, ⟨fMemStatus_WINDOWS, .ro, 0, none⟩, ⟨fMemStatus_MIGRATING, .ro, 0, none⟩, ⟨fMemStatus_TENSORS, .ro, 0, none⟩]⟩,
   ⟨0x1801000, [(0x80, 64), (0x8, 4)], [⟨fMemPUse_BYTES, .ro, 0, none⟩]⟩,
   ⟨0x1801020, [(0x80, 64), (0x8, 4)], [⟨fMemPQuota_BYTES, .ro, 0, none⟩]⟩,
   ⟨0x1800100, [], [⟨fMemCsel_LATCH, .w1s, 0, none⟩, ⟨fMemCsel_WINDOW, .rw, 0, none⟩, ⟨fMemCsel_COMP_ID, .rw, 0, none⟩]⟩,
   ⟨0x1800108, [], [⟨fMemCstatus_SAT, .ro, 0, none⟩, ⟨fMemCstatus_WINDOWS, .ro, 0, none⟩]⟩,
   ⟨0x1800110, [], [⟨fMemCparts_MEMBERS, .ro, 0, none⟩]⟩,
   ⟨0x1800118, [], [⟨fMemCwinStatus_LENGTH_2MIB, .ro, 0, none⟩, ⟨fMemCwinStatus_WINDOW_ID, .ro, 0, none⟩, ⟨fMemCwinStatus_PEER_NODE, .ro, 0, none⟩, ⟨fMemCwinStatus_KIND, .ro, 0, none⟩, ⟨fMemCwinStatus_STATE, .ro, 0, none⟩]⟩,
   ⟨0x1800120, [(0x8, 10)], [⟨fMemCm_VALUE, .ro, 0, none⟩]⟩]

/-- The registers of block EMB (Table 20.4). -/
def regsEmb : List RegSpec :=
  [⟨0x1a00000, [], [⟨fEmbCfg_STEP_TIMEOUT_MS, .rw, 100, some (1, 10000)⟩]⟩,
   ⟨0x1a00008, [], [⟨fEmbStatus_DIR_USED, .ro, 0, none⟩, ⟨fEmbStatus_TABLES, .ro, 0, none⟩]⟩,
   ⟨0x1a00100, [], [⟨fEmbTsel_TABLE_ID, .rw, 0, none⟩]⟩,
   ⟨0x1a00108, [], [⟨fEmbTstatus_VERSION, .ro, 0, none⟩, ⟨fEmbTstatus_OPEN_STEPS, .ro, 0, none⟩, ⟨fEmbTstatus_PARTITION, .ro, 0, none⟩, ⟨fEmbTstatus_VALID, .ro, 0, none⟩]⟩,
   ⟨0x1a00110, [], [⟨fEmbTlastClosed_STEP, .ro, 0, none⟩]⟩,
   ⟨0x1a00118, [], [⟨fEmbTload_LOAD, .ro, 0, none⟩, ⟨fEmbTload_DIR_ENTRIES, .ro, 0, none⟩]⟩]

/-- The registers of block FTL (Table 20.4). -/
def regsFtl : List RegSpec :=
  [⟨0x1c00000, [], [⟨fFtlCfg_REBUILD_PCT, .rw, 25, some (5, 100)⟩, ⟨fFtlCfg_SCRUB_DAYS, .rw, 30, some (1, 255)⟩, ⟨fFtlCfg_DISTURB_K, .rw, 100, none⟩, ⟨fFtlCfg_WEAR_SPREAD, .rw, 200, some (20, 2000)⟩, ⟨fFtlCfg_SPARE_PERMIL, .rw, 70, some (50, 300)⟩]⟩,
   ⟨0x1c00008, [], [⟨fFtlStatus_FENCED_LUNS, .ro, 0, none⟩, ⟨fFtlStatus_LUNS_PER_CH, .ro, 0, none⟩, ⟨fFtlStatus_MAP_GIB, .ro, 0, none⟩, ⟨fFtlStatus_REBUILDING, .ro, 0, none⟩, ⟨fFtlStatus_SPARE_EXHAUSTED, .ro, 0, none⟩, ⟨fFtlStatus_SPARE_LOW, .ro, 0, none⟩, ⟨fFtlStatus_MEDIA, .ro, 0, none⟩]⟩,
   ⟨0x1c00010, [], [⟨fFtlCapacity_UNITS, .ro, 0, none⟩]⟩,
   ⟨0x1c00018, [], [⟨fFtlWritable_UNITS, .ro, 0, none⟩]⟩,
   ⟨0x1c00020, [], [⟨fFtlGcCfg_WI, .rw, 200, none⟩, ⟨fFtlGcCfg_WA, .rw, 40, none⟩, ⟨fFtlGcCfg_WE, .rw, 20, none⟩, ⟨fFtlGcCfg_AGE_FULL_H, .rw, 168, none⟩, ⟨fFtlGcCfg_GC_HIGH, .rw, 30, none⟩, ⟨fFtlGcCfg_GC_LOW, .rw, 20, none⟩]⟩,
   ⟨0x1c00100, [], [⟨fFtlLunsel_LUN, .rw, 0, none⟩]⟩,
   ⟨0x1c00108, [], [⟨fFtlLunStatus_GOOD_BLOCKS, .ro, 0, none⟩, ⟨fFtlLunStatus_UNASSIGNED, .ro, 0, none⟩, ⟨fFtlLunStatus_STATE, .ro, 0, none⟩]⟩,
   ⟨0x1c00110, [], [⟨fFtlBsel_BLOCK, .rw, 0, none⟩]⟩,
   ⟨0x1c00118, [], [⟨fFtlBhealth_ERASES, .ro, 0, none⟩, ⟨fFtlBhealth_RETRY_READS, .ro, 0, none⟩, ⟨fFtlBhealth_BER_E9, .ro, 0, none⟩, ⟨fFtlBhealth_STATE, .ro, 0, none⟩]⟩,
   ⟨0x1c00120, [], [⟨fFtlNssel_PARTITION, .rw, 0, none⟩, ⟨fFtlNssel_NSID, .rw, 0, none⟩]⟩,
   ⟨0x1c00128, [], [⟨fFtlNsStatus_STATE, .ro, 0, none⟩]⟩,
   ⟨0x1c00130, [], [⟨fFtlNsSize_SIZE, .ro, 0, none⟩]⟩,
   ⟨0x1c00138, [], [⟨fFtlNsMapped_MAPPED, .ro, 0, none⟩]⟩]

/-- The registers of block FAB (Table 20.4). -/
def regsFab : List RegSpec :=
  [⟨0x2000000, [], [⟨fFabCfg_COLL_TIMEOUT_MS, .rw, 1000, some (1, 60000)⟩, ⟨fFabCfg_E2E_TIMEOUT_US, .rw, 10000, some (100, 65535)⟩, ⟨fFabCfg_VC0_CAP, .rw, 8, some (2, 64)⟩, ⟨fFabCfg_SHARED_CAP_PCT, .rw, 50, some (10, 100)⟩, ⟨fFabCfg_ENABLE, .rw, 1, none⟩]⟩,
   ⟨0x2000008, [], [⟨fFabStatus_NODE_ID, .ro, 0, none⟩, ⟨fFabStatus_ANCHOR_ID, .ro, 0, none⟩, ⟨fFabStatus_MEMBERS, .ro, 0, none⟩, ⟨fFabStatus_DIAMETER, .ro, 0, none⟩, ⟨fFabStatus_DUP_PRESET, .ro, 0, none⟩, ⟨fFabStatus_IS_ANCHOR, .ro, 0, none⟩, ⟨fFabStatus_STATE, .ro, 0, none⟩]⟩,
   ⟨0x2000010, [], [⟨fFabIdentityLo_ID, .ro, 0, none⟩]⟩,
   ⟨0x2000018, [], [⟨fFabIdentityHi_ID, .ro, 0, none⟩]⟩,
   ⟨0x2000020, [], [⟨fFabRouteSeed_SEED, .rwl, 0, none⟩]⟩,
   ⟨0x2000028, [], [⟨fFabPreset_PRESET, .rwl, 0, none⟩, ⟨fFabPreset_NODE_ID, .rwl, 0, none⟩]⟩,
   ⟨0x2000100, [], [⟨fFabRtSel_DEST, .rw, 0, none⟩]⟩,
   ⟨0x2000108, [], [⟨fFabRtEntry_OVERRIDE, .ro, 0, none⟩, ⟨fFabRtEntry_COUNT, .rw, 0, none⟩, ⟨fFabRtEntry_DIST, .rw, 0, none⟩, ⟨fFabRtEntry_EGRESS, .rw, 0, none⟩]⟩,
   ⟨0x2000300, [], [⟨fFabSnapSel_VC, .rw, 0, none⟩, ⟨fFabSnapSel_LANE, .rw, 0, none⟩]⟩,
   ⟨0x2000308, [], [⟨fFabSnapCh_CLOSED, .ro, 0, none⟩, ⟨fFabSnapCh_LOST, .ro, 0, none⟩, ⟨fFabSnapCh_PACKETS, .ro, 0, none⟩, ⟨fFabSnapCh_FLITS, .ro, 0, none⟩]⟩,
   ⟨0x2000310, [], [⟨fFabSnapStatus_SNAP_ID, .ro, 0, none⟩, ⟨fFabSnapStatus_LOST_CHANNELS, .ro, 0, none⟩, ⟨fFabSnapStatus_STATE, .ro, 0, none⟩]⟩,
   ⟨0x2001000, [(0x40, 32)], [⟨fFabPortCfg_REACH, .rw, 0, none⟩, ⟨fFabPortCfg_ENABLE, .rw, 1, none⟩, ⟨fFabPortCfg_SPLIT, .rw, 0, none⟩]⟩,
   ⟨0x2004000, [(0x10, 256)], [⟨fFabLinkStatus_PEER_ID, .ro, 0, none⟩, ⟨fFabLinkStatus_PEER_PORT, .ro, 0, none⟩, ⟨fFabLinkStatus_WIDTH, .ro, 0, none⟩, ⟨fFabLinkStatus_LANES_UP, .ro, 0, none⟩, ⟨fFabLinkStatus_STATE, .ro, 0, none⟩]⟩,
   ⟨0x2008000, [(0x10, 256)], [⟨fFabLaneEq_OVERRIDE, .rw, 0, none⟩, ⟨fFabLaneEq_RX_CTLE, .rw, 0, none⟩, ⟨fFabLaneEq_C_P1, .rw, 0, none⟩, ⟨fFabLaneEq_C_0, .rw, 0, none⟩, ⟨fFabLaneEq_C_M1, .rw, 0, none⟩, ⟨fFabLaneEq_C_M2, .rw, 0, none⟩]⟩,
   ⟨0x2008008, [(0x10, 256)], [⟨fFabLaneEye_HEIGHT, .ro, 0, none⟩, ⟨fFabLaneEye_WIDTH, .ro, 0, none⟩]⟩]

/-- The registers of block SHP (Table 20.4). -/
def regsShp : List RegSpec :=
  [⟨0x2400000, [], [⟨fShpCfg_TRANSIT_SHARE, .rw, 50, some (10, 90)⟩, ⟨fShpCfg_DEF_OVERHEAD, .rw, 0, none⟩]⟩,
   ⟨0x2400008, [], [⟨fShpQuenchCfg_HIGH_KIB, .rw, 4096, none⟩, ⟨fShpQuenchCfg_LOW_KIB, .rw, 1024, none⟩, ⟨fShpQuenchCfg_DURATION_US, .rw, 1000, none⟩, ⟨fShpQuenchCfg_HOLD_US, .rw, 50, none⟩, ⟨fShpQuenchCfg_RATE_GBPS, .rw, 0, none⟩]⟩,
   ⟨0x2400100, [], [⟨fShpSsel_APPLY, .rw, 0, none⟩, ⟨fShpSsel_STREAM, .rw, 0, none⟩]⟩,
   ⟨0x2400108, [], [⟨fShpSstatus_TOKENS, .ro, 0, none⟩, ⟨fShpSstatus_ELIGIBLE, .ro, 0, none⟩, ⟨fShpSstatus_SHAPED, .ro, 0, none⟩]⟩,
   ⟨0x2401000, [(0x20, 32)], [⟨fShpGateStatus_ELAPSED_NS, .ro, 0, none⟩, ⟨fShpGateStatus_UNREF, .ro, 0, none⟩, ⟨fShpGateStatus_ENTRY, .ro, 0, none⟩, ⟨fShpGateStatus_GATES, .ro, 255, none⟩]⟩]

/-- The registers of block FLT (Table 20.4). -/
def regsFlt : List RegSpec :=
  [⟨0x2800000, [], [⟨fFltCfg_INJECT_EN, .rw, 0, none⟩, ⟨fFltCfg_SAT_EVENT, .rw, 0, none⟩]⟩,
   ⟨0x2800008, [], [⟨fFltStatus_FENCED_UNITS, .ro, 0, none⟩, ⟨fFltStatus_FATAL, .ros, 0, none⟩]⟩,
   ⟨0x2800010, [], [⟨fFltUnitCtl_OP, .rw, 0, none⟩, ⟨fFltUnitCtl_GO, .w1s, 0, none⟩, ⟨fFltUnitCtl_KIND, .rw, 0, none⟩, ⟨fFltUnitCtl_UNIT, .rw, 0, none⟩]⟩,
   ⟨0x2800018, [], [⟨fFltUnitStatus_FENCES, .ro, 0, none⟩, ⟨fFltUnitStatus_LOCKED_OUT, .ro, 0, none⟩, ⟨fFltUnitStatus_OP_FAILED, .ro, 0, none⟩, ⟨fFltUnitStatus_FENCED, .ro, 0, none⟩]⟩,
   ⟨0x2800020, [], [⟨fFltIrqCfg_CLASS_MASK, .rw, 14, none⟩, ⟨fFltIrqCfg_VECTOR, .rw, 0, none⟩]⟩,
   ⟨0x2800028, [], [⟨fFltEvtStatus_LOST, .ro, 0, none⟩, ⟨fFltEvtStatus_UNREAD, .ro, 0, none⟩]⟩,
   ⟨0x2800030, [(0x8, 4)], [⟨fFltEvtData_DATA, .ro, 0, none⟩]⟩,
   ⟨0x2800050, [], [⟨fFltEvtPop_POP, .w1s, 0, none⟩]⟩,
   ⟨0x2800058, [], [⟨fFltCtrClear_ALL, .wo, 0, none⟩, ⟨fFltCtrClear_BLOCK, .wo, 0, none⟩, ⟨fFltCtrClear_OFFSET, .wo, 0, none⟩]⟩,
   ⟨0x2800100, [(0x8, 32)], [⟨fFltSat_SATURATED, .ro, 0, none⟩, ⟨fFltSat_LAST_OFFSET, .ro, 0, none⟩, ⟨fFltSat_ANY, .w1c, 0, none⟩]⟩]

/-- The registers of block SNP (Table 20.4). -/
def regsSnp : List RegSpec :=
  [⟨0x2a00000, [], [⟨fSnpCtl_VIEW, .rw, 0, none⟩, ⟨fSnpCtl_TRIGGER, .w1s, 0, none⟩, ⟨fSnpCtl_ARMED, .w1s, 0, none⟩]⟩,
   ⟨0x2a00008, [], [⟨fSnpSrc_ENABLE, .rw, 3, none⟩]⟩,
   ⟨0x2a00010, [], [⟨fSnpStatus_TIME, .ro, 0, none⟩]⟩,
   ⟨0x2a00018, [], [⟨fSnpInfo_SNAP_ID, .ro, 0, none⟩, ⟨fSnpInfo_HELD, .ro, 0, none⟩, ⟨fSnpInfo_SOURCE, .ro, 0, none⟩]⟩]

/-- The registers of block TRM (Table 20.4). -/
def regsTrm : List RegSpec :=
  [⟨0x2c00000, [], [⟨fTrmSel_LOOP, .rw, 0, none⟩, ⟨fTrmSel_UNIT, .rw, 0, none⟩]⟩,
   ⟨0x2c00008, [], [⟨fTrmUnitCfg_GAIN, .rwl, 0, none⟩, ⟨fTrmUnitCfg_TARGET, .rwl, 0, none⟩]⟩,
   ⟨0x2c00010, [], [⟨fTrmUnitLimits_LIMIT_HI, .rwl, 0, none⟩, ⟨fTrmUnitLimits_LIMIT_LO, .rwl, 0, none⟩]⟩,
   ⟨0x2c00018, [], [⟨fTrmUnitState_OUTPUT, .ro, 0, none⟩, ⟨fTrmUnitState_INPUT, .ro, 0, none⟩]⟩,
   ⟨0x2c00020, [], [⟨fTrmUnitLast_DELTA, .ro, 0, none⟩, ⟨fTrmUnitLast_KIND, .ro, 0, none⟩]⟩,
   ⟨0x2c00028, [], [⟨fTrmUnitLastTime_TIME, .ro, 0, none⟩]⟩,
   ⟨0x2c00030, [], [⟨fTrmUnitCtl_CFG_ERR, .w1c, 0, none⟩, ⟨fTrmUnitCtl_DROGUE_EN, .rw, 0, none⟩, ⟨fTrmUnitCtl_AT_LIMIT, .w1c, 0, none⟩, ⟨fTrmUnitCtl_FREEZE, .rw, 0, none⟩]⟩,
   ⟨0x2c00100, [], [⟨fTrmCalSel_ITEM, .rw, 0, none⟩]⟩,
   ⟨0x2c00108, [], [⟨fTrmCalFactory_F, .ro, 0, none⟩]⟩,
   ⟨0x2c00110, [], [⟨fTrmCalLimits_H, .ro, 0, none⟩, ⟨fTrmCalLimits_L, .ro, 0, none⟩]⟩,
   ⟨0x2c00118, [], [⟨fTrmCalOffset_U, .rwl, 0, none⟩]⟩,
   ⟨0x2c00120, [], [⟨fTrmCalEffective_CLAMPED, .ro, 0, none⟩, ⟨fTrmCalEffective_VALUE, .ro, 0, none⟩]⟩]

/-- The registers of block TEL (Table 20.4). -/
def regsTel : List RegSpec :=
  [⟨0x3000000, [(0x8, 14)], [⟨fTelDomSlack_MIN_EVER, .ros, 0, none⟩, ⟨fTelDomSlack_MIN_1MS, .ro, 0, none⟩]⟩,
   ⟨0x3000080, [], [⟨fTelTempDie_MSD, .ro, 0, none⟩, ⟨fTelTempDie_FHD, .ro, 0, none⟩, ⟨fTelTempDie_SCD1, .ro, 0, none⟩, ⟨fTelTempDie_SCD0, .ro, 0, none⟩]⟩,
   ⟨0x3000100, [], [⟨fTelMemsel_TIER, .rw, 0, none⟩, ⟨fTelMemsel_CHANNEL, .rw, 0, none⟩]⟩,
   ⟨0x3000108, [], [⟨fTelMemMargin_RD_PERMIL, .ro, 0, none⟩, ⟨fTelMemMargin_WR_PERMIL, .ro, 0, none⟩, ⟨fTelMemMargin_LOW, .ro, 0, none⟩, ⟨fTelMemMargin_AGE_MS, .ro, 0, none⟩]⟩,
   ⟨0x3000200, [(0x8, 16)], [⟨fTelHostEye_HEIGHT, .ro, 0, none⟩, ⟨fTelHostEye_WIDTH, .ro, 0, none⟩]⟩]

/-- The registers of block SEC (Table 20.4). -/
def regsSec : List RegSpec :=
  [⟨0x3800040, [(0x8, 4)], [⟨fSecExtData_DATA, .rw, 0, none⟩]⟩,
   ⟨0x3800060, [], [⟨fSecExtCtl_ERR, .w1c, 0, none⟩, ⟨fSecExtCtl_GO, .w1s, 0, none⟩, ⟨fSecExtCtl_SLOT, .rw, 0, none⟩]⟩,
   ⟨0x3800068, [], [⟨fSecMlogStatus_OVERFLOW, .ro, 0, none⟩, ⟨fSecMlogStatus_ENTRIES, .ro, 0, none⟩]⟩,
   ⟨0x3800100, [], [⟨fSecKeyStatus_STATE, .ro, 0, none⟩]⟩,
   ⟨0x3800108, [(0x8, 4)], [⟨fSecEnrollData_DATA, .rw, 0, none⟩]⟩,
   ⟨0x3800128, [], [⟨fSecEnrollCtl_ERR, .w1c, 0, none⟩, ⟨fSecEnrollCtl_GO, .w1s, 0, none⟩, ⟨fSecEnrollCtl_OP, .rw, 0, none⟩, ⟨fSecEnrollCtl_SLOT, .rw, 0, none⟩]⟩,
   ⟨0x3801000, [(0x20, 24), (0x8, 4)], [⟨fSecSlot_VALUE, .ro, 0, none⟩]⟩]

/-- The registers of block LOG (Table 20.4). -/
def regsLog : List RegSpec :=
  [⟨0x3c00000, [], [⟨fLogStatus_REPAIRED, .ro, 0, none⟩, ⟨fLogStatus_USED_64KIB, .ro, 0, none⟩, ⟨fLogStatus_MIRROR_OK, .ro, 0, none⟩, ⟨fLogStatus_RESERVE, .ro, 0, none⟩, ⟨fLogStatus_FULL, .ro, 0, none⟩]⟩,
   ⟨0x3c00008, [], [⟨fLogNextSeq_VALUE, .ro, 0, none⟩]⟩,
   ⟨0x3c00010, [], [⟨fLogBoots_VALUE, .ro, 0, none⟩]⟩,
   ⟨0x3c00100, [(0x8, 7)], [⟨fLogTbin_VALUE, .ro, 0, none⟩]⟩,
   ⟨0x3c00140, [(0x8, 6)], [⟨fLogVbin_VALUE, .ro, 0, none⟩]⟩,
   ⟨0x3c00180, [], [⟨fLogDropped_VALUE, .ro, 0, none⟩]⟩]

/-- The statistics counters of block PRT: base offset and indices. -/
def ctrsPrt : List (Nat × List (Nat × Nat)) :=
  [(0x100060, [(0x1000, 64)]),
   (0x100068, [(0x1000, 64)]),
   (0x100070, [(0x1000, 64)]),
   (0x100080, [(0x1000, 64)]),
   (0x100088, [(0x1000, 64)]),
   (0x100090, [(0x1000, 64)]),
   (0x100098, [(0x1000, 64)]),
   (0x1000a0, [(0x1000, 64)]),
   (0x1000a8, [(0x1000, 64)]),
   (0x1000b0, [(0x1000, 64)]),
   (0x140008, [(0x100, 2)]),
   (0x140010, [(0x100, 2)]),
   (0x140018, [(0x100, 2)]),
   (0x140020, [(0x100, 2)]),
   (0x140028, [(0x100, 2)]),
   (0x100110, [(0x1000, 64)]),
   (0x100118, [(0x1000, 64)]),
   (0x100120, [(0x1000, 64)]),
   (0x100128, [(0x1000, 64)]),
   (0x100130, [(0x1000, 64)]),
   (0x100138, [(0x1000, 64)]),
   (0x100140, [(0x1000, 64)]),
   (0x100148, [(0x1000, 64)]),
   (0x100218, [(0x1000, 64)]),
   (0x100220, [(0x1000, 64)]),
   (0x100228, [(0x1000, 64)]),
   (0x100230, [(0x1000, 64)]),
   (0x100238, [(0x1000, 64)]),
   (0x100240, [(0x1000, 64)]),
   (0x100248, [(0x1000, 64)]),
   (0x100318, [(0x1000, 64)]),
   (0x100320, [(0x1000, 64)]),
   (0x100328, [(0x1000, 64)]),
   (0x100330, [(0x1000, 64)]),
   (0x100338, [(0x1000, 64)]),
   (0x100340, [(0x1000, 64)]),
   (0x100348, [(0x1000, 64)]),
   (0x100350, [(0x1000, 64)]),
   (0x100358, [(0x1000, 64)])]

/-- The statistics counters of block CLU: base offset and indices. -/
def ctrsClu : List (Nat × List (Nat × Nat)) :=
  [(0x804008, [(0x80000, 8), (0x100, 2)]),
   (0x804010, [(0x80000, 8), (0x100, 2)]),
   (0x804018, [(0x80000, 8), (0x100, 2)]),
   (0x804020, [(0x80000, 8), (0x100, 2)]),
   (0x804028, [(0x80000, 8), (0x100, 2)]),
   (0x804030, [(0x80000, 8), (0x100, 2)]),
   (0x804038, [(0x80000, 8), (0x100, 2)]),
   (0x804040, [(0x80000, 8), (0x100, 2)])]

/-- The statistics counters of block MXA: base offset and indices. -/
def ctrsMxa : List (Nat × List (Nat × Nat)) :=
  [(0x1030010, [(0x40000, 4)]),
   (0x1030018, [(0x40000, 4)]),
   (0x1030020, [(0x40000, 4)]),
   (0x1030028, [(0x40000, 4)]),
   (0x1000100, [(0x40000, 4), (0x10, 8)]),
   (0x1000108, [(0x40000, 4), (0x10, 8)]),
   (0x1000200, [(0x40000, 4)]),
   (0x1000208, [(0x40000, 4)]),
   (0x1000210, [(0x40000, 4)]),
   (0x1000218, [(0x40000, 4)]),
   (0x1000220, [(0x40000, 4)]),
   (0x1000228, [(0x40000, 4)]),
   (0x1000230, [(0x40000, 4)]),
   (0x1000238, [(0x40000, 4)]),
   (0x1000240, [(0x40000, 4)])]

/-- The statistics counters of block BKE: base offset and indices. -/
def ctrsBke : List (Nat × List (Nat × Nat)) :=
  [(0x1401010, [(0x100, 8)]),
   (0x1401018, [(0x100, 8)]),
   (0x1401020, [(0x100, 8)]),
   (0x1410010, [(0x100, 256)]),
   (0x1410018, [(0x100, 256)]),
   (0x1410020, [(0x100, 256)]),
   (0x1410028, [(0x100, 256)]),
   (0x1410030, [(0x100, 256)]),
   (0x1410038, [(0x100, 256)]),
   (0x1410040, [(0x100, 256)]),
   (0x1420008, [(0x40, 64)]),
   (0x1420010, [(0x40, 64)])]

/-- The statistics counters of block MEM: base offset and indices. -/
def ctrsMem : List (Nat × List (Nat × Nat)) :=
  [(0x1801040, [(0x80, 64)]),
   (0x1801048, [(0x80, 64)]),
   (0x1800200, []),
   (0x1800208, []),
   (0x1800210, [])]

/-- The statistics counters of block EMB: base offset and indices. -/
def ctrsEmb : List (Nat × List (Nat × Nat)) :=
  [(0x1a00120, []),
   (0x1a00128, []),
   (0x1a00130, []),
   (0x1a00138, []),
   (0x1a00140, []),
   (0x1a00148, []),
   (0x1a00150, []),
   (0x1a00158, []),
   (0x1a00200, []),
   (0x1a00208, []),
   (0x1a00210, []),
   (0x1a00218, [])]

/-- The statistics counters of block FTL: base offset and indices. -/
def ctrsFtl : List (Nat × List (Nat × Nat)) :=
  [(0x1c00200, []),
   (0x1c00208, []),
   (0x1c00210, []),
   (0x1c00218, []),
   (0x1c00220, []),
   (0x1c00228, []),
   (0x1c00230, []),
   (0x1c00238, []),
   (0x1c00240, []),
   (0x1c00248, []),
   (0x1c00250, [])]

/-- The statistics counters of block FAB: base offset and indices. -/
def ctrsFab : List (Nat × List (Nat × Nat)) :=
  [(0x2000200, []),
   (0x2000208, []),
   (0x2000210, []),
   (0x2000218, []),
   (0x2000220, []),
   (0x2000228, []),
   (0x2000230, []),
   (0x2000238, []),
   (0x2001010, [(0x40, 32)]),
   (0x2001018, [(0x40, 32)]),
   (0x2001020, [(0x40, 32)]),
   (0x2001028, [(0x40, 32)]),
   (0x2001030, [(0x40, 32)]),
   (0x2001038, [(0x40, 32)])]

/-- The statistics counters of block SHP: base offset and indices. -/
def ctrsShp : List (Nat × List (Nat × Nat)) :=
  [(0x2402000, [(0x80, 64), (0x40, 2)]),
   (0x2402008, [(0x80, 64), (0x40, 2)]),
   (0x2402010, [(0x80, 64), (0x40, 2)]),
   (0x2402018, [(0x80, 64), (0x40, 2)]),
   (0x2402020, [(0x80, 64), (0x40, 2)]),
   (0x2402028, [(0x80, 64), (0x40, 2)]),
   (0x2401008, [(0x20, 32)]),
   (0x2400200, []),
   (0x2400208, []),
   (0x2400210, [])]

/-- The statistics counters of block FLT: base offset and indices. -/
def ctrsFlt : List (Nat × List (Nat × Nat)) :=
  [(0x2800200, []),
   (0x2800208, []),
   (0x2800210, []),
   (0x2800218, []),
   (0x2800220, []),
   (0x2800228, [])]

/-- The statistics counters of block SNP: base offset and indices. -/
def ctrsSnp : List (Nat × List (Nat × Nat)) :=
  [(0x2a00020, [])]

/-- The statistics counters of block TRM: base offset and indices. -/
def ctrsTrm : List (Nat × List (Nat × Nat)) :=
  [(0x2c00038, [])]

/-- Whether offset `off` is one of the registers at `base` with indices `dims`. -/
def dimsHit (base : Nat) (dims : List (Nat × Nat)) (off : Nat) : Bool :=
  if off < base then false else
  match dims with
  | [] => off == base
  | [(s, c)] => (off - base) % s == 0 && decide ((off - base) / s < c)
  | [(s, c), (s', c')] =>
    decide ((off - base) / s < c) && ((off - base) % s) % s' == 0 && decide (((off - base) % s) / s' < c')
  | _ => false

/-- Block index of an offset in the order of Table 20.2 (R483); `none` where the offset lies in no span. -/
def blockIndex (off : Nat) : Option Nat :=
  if off < 0x80000 then some 0
  else if off < 0x100000 then some 1
  else if off < 0x800000 then some 2
  else if off < 0xC00000 then some (3 + (off - 0x800000) / 0x80000)
  else if off < 0x1000000 then none
  else if off < 0x1100000 then some (11 + (off - 0x1000000) / 0x40000)
  else if off < 0x1400000 then none
  else if off < 0x1800000 then some 15
  else if off < 0x1A00000 then some 16
  else if off < 0x1C00000 then some 17
  else if off < 0x2000000 then some 18
  else if off < 0x2400000 then some 19
  else if off < 0x2800000 then some 20
  else if off < 0x2A00000 then some 21
  else if off < 0x2C00000 then some 22
  else if off < 0x3000000 then some 23
  else if off < 0x3800000 then some 24
  else if off < 0x3C00000 then some 25
  else if off < 0x4000000 then some 26
  else none

/-- Base offset of block `b` (Table 20.2). -/
def blockBase (b : Nat) : Nat :=
  if b == 0 then 0 else if b == 1 then 0x80000 else if b == 2 then 0x100000
  else if b < 11 then 0x800000 + (b - 3) * 0x80000
  else if b < 15 then 0x1000000 + (b - 11) * 0x40000
  else if b == 15 then 0x1400000 else if b == 16 then 0x1800000 else if b == 17 then 0x1A00000
  else if b == 18 then 0x1C00000 else if b == 19 then 0x2000000 else if b == 20 then 0x2400000
  else if b == 21 then 0x2800000 else if b == 22 then 0x2A00000 else if b == 23 then 0x2C00000
  else if b == 24 then 0x3000000 else if b == 25 then 0x3800000 else 0x3C00000

/-- The registers of block index `b`. -/
def blockRegs (b : Nat) : List RegSpec :=
  if b = 0 then regsNode
  else if b = 2 then regsPrt
  else if 3 ≤ b ∧ b ≤ 10 then regsClu
  else if 11 ≤ b ∧ b ≤ 14 then regsMxa
  else if b = 15 then regsBke
  else if b = 16 then regsMem
  else if b = 17 then regsEmb
  else if b = 18 then regsFtl
  else if b = 19 then regsFab
  else if b = 20 then regsShp
  else if b = 21 then regsFlt
  else if b = 22 then regsSnp
  else if b = 23 then regsTrm
  else if b = 24 then regsTel
  else if b = 25 then regsSec
  else if b = 26 then regsLog
  else []

/-- The counters of block index `b`. -/
def blockCtrs (b : Nat) : List (Nat × List (Nat × Nat)) :=
  if b = 2 then ctrsPrt
  else if 3 ≤ b ∧ b ≤ 10 then ctrsClu
  else if 11 ≤ b ∧ b ≤ 14 then ctrsMxa
  else if b = 15 then ctrsBke
  else if b = 16 then ctrsMem
  else if b = 17 then ctrsEmb
  else if b = 18 then ctrsFtl
  else if b = 19 then ctrsFab
  else if b = 20 then ctrsShp
  else if b = 21 then ctrsFlt
  else if b = 22 then ctrsSnp
  else if b = 23 then ctrsTrm
  else []

/-- The catalogue entry of the register at offset `off`, if any (R488). -/
def regSpecAt (off : Nat) : Option RegSpec :=
  match blockIndex off with
  | some b => (blockRegs b).find? (fun r => dimsHit r.base r.dims off)
  | none => none

/-- Whether a statistics counter (Table 3.14) lies at offset `off`. -/
def isCounter (off : Nat) : Bool :=
  match blockIndex off with
  | some b => (blockCtrs b).any (fun c => dimsHit c.1 c.2 off)
  | none => false

/-- The word that a register's fields make at reset. -/
def RegSpec.resetWord (r : RegSpec) : Word :=
  packFields (r.fields.map (fun f => (f.fld, f.reset)))

/-- The mask of the bits that fields of the given access types take. -/
def RegSpec.mask (r : RegSpec) (p : Acc → Bool) : Word :=
  packFields ((r.fields.filter (fun f => p f.acc)).map (fun f => (f.fld, 2 ^ f.fld.width - 1)))

/-- The value a register that no one has written holds: its reset value (R488); zero but for the registers listed. -/
def regDefault (off : Nat) : Word :=
  if dimsHit 0x0 [] off then 0x5a1a00090140a000  -- NODE_ID
  else if dimsHit 0x2000010 [] off then 0x100000000  -- FAB_IDENTITY_LO
  else if dimsHit 0x300 [] off then 0x5dc  -- NODE_POWER_LIMIT
  else if dimsHit 0x100200 [(0x1000, 64)] off then 0xa0000  -- PRT_p_SEARCH_CFG
  else if dimsHit 0x1030000 [(0x40000, 4)] off then 0xc800004e20  -- MXAn_SHARE_CFG
  else if dimsHit 0x1400000 [] off then 0xa  -- BKE_CFG
  else if dimsHit 0x1401000 [(0x100, 8)] off then 0x8000014  -- BKE_STACKn_CFG
  else if dimsHit 0x1800000 [] off then 0x3e8  -- MEM_CFG
  else if dimsHit 0x1a00000 [] off then 0x6400000000  -- EMB_CFG
  else if dimsHit 0x1c00000 [] off then 0x191e006400c80046  -- FTL_CFG
  else if dimsHit 0x1c00020 [] off then 0xc828140000a81e14  -- FTL_GC_CFG
  else if dimsHit 0x2000000 [] off then 0x3e8271008320001  -- FAB_CFG
  else if dimsHit 0x2001000 [(0x40, 32)] off then 0x8  -- FAB_PORTp_CFG
  else if dimsHit 0x2400000 [] off then 0x320000  -- SHP_CFG
  else if dimsHit 0x2400008 [] off then 0x1000040003e83200  -- SHP_QUENCH_CFG
  else if dimsHit 0x2401000 [(0x20, 32)] off then 0xff  -- SHP_GATEp_STATUS
  else if dimsHit 0x2800020 [] off then 0xe00  -- FLT_IRQ_CFG
  else if dimsHit 0x2a00008 [] off then 0x3  -- SNP_SRC
  else 0

end Sys2Proof.Machine
end

