-- ==== Sys2Proof/Machine/State.lean ====
section
/-! DEFINITION. The state of the VX9 search node as plain data: every register, queue, context, memory byte, table and
pin the spec gives it, the queue of waiting commands, and the model's own counters (the free-value counter and the
order of fetch). INVENTORY.md lists each with its rule and reset value. -/

namespace Sys2Proof.Machine


/-- A non-negative fraction, kept in lowest terms by `Frac.mk'` (virtual times are kept exactly, R387). -/
structure Frac where
  num : Nat
  den : Nat
deriving DecidableEq, Repr

/-- A half-open range of node addresses. -/
structure Range where
  base : Nat
  len  : Nat
deriving DecidableEq, Repr

/-! ### Commands and completions (spec/04) -/

/-- A 128-byte command as the node holds it after decoding (Table 4.1); `params` are the 96 bytes of PARAMS. -/
structure HostCmd where
  opcode     : Nat
  cflags     : Nat
  cid        : Nat
  stream     : Nat
  resv6      : Nat
  deadline   : Nat
  statusAddr : Nat
  resultAddr : Nat
  params     : List Byte
deriving DecidableEq, Repr

/-- A completion entry (Table 4.4). -/
structure Completion where
  cid    : Nat
  sqId   : Nat
  status : Nat
  flags  : Nat
  phase  : Nat
  sqHead : Nat
  stream : Nat
  count  : Nat
  r0     : Nat
  r1     : Nat
deriving DecidableEq, Repr

/-- What the node sends to the host port, oldest first (R130): bytes written to host memory, long-operation status
words, completion entries with the slot they fill, MSI-X messages, and the word that a read which the node turns away returns. -/
inductive HostOut where
  | write (part addr : Nat) (bytes : List Byte)
  | status (part addr : Nat) (w : Word)
  | completion (part q slot : Nat) (c : Completion)
  | msix (part vector : Nat)
  | read (window : Bool) (fn off : Nat) (w : Word)
deriving DecidableEq, Repr

/-- A command in the staging slot of its queue (R380). -/
structure Staged where
  cmd      : HostCmd
  order    : Nat            -- order of fetch within the node
  entered  : Nat            -- instant it entered the slot
  cls      : Nat            -- class for stages 4 and 5 (R381)
  len      : Nat            -- L of R382
  start    : Option Frac    -- virtual start, once it heads its flow (R387)
  noCtx    : Bool           -- chosen, and waiting for a context (R99)
  target   : List Nat := [] -- of a CANCEL: its target; of an ARRAY_RUN: its model's tensor; as `Rec.waits` of one
deriving DecidableEq, Repr

/-- One queue pair: the registers of its queue page and the node's own ring positions (R112 to R119). -/
structure Queue where
  sqBase   : Word := 0
  cqBase   : Word := 0
  cfg      : Word := 0
  tail     : Nat := 0
  head     : Nat := 0
  sqHead   : Nat := 0
  cqTail   : Nat := 0
  phase    : Bool := true
  used     : Nat := 0       -- completion entries written and not yet freed (R116)
  reserved : Nat := 0       -- completion slots reserved by fetched commands (R115)
  cfgErr   : Bool := false
  dbErr    : Bool := false
  ctxWait  : Bool := false  -- the command at its head waits for a context (R99)
  staged   : Option Staged := none
deriving DecidableEq, Repr

/-- Progress of an admitted command: held by ORDERED, waiting for claims, ready to execute, or under way. -/
inductive RecPhase where
  | heldOrdered | waitClaims | inputs | ready | running
deriving DecidableEq, Repr

/-- A completion whose results are on their way to a window of Tier P or wait for space in Tier F, or that waits for zeros written there (R313, R320,
R342): what it reports once the
lender has answered, the address and bytes to write, and the tensor that a failed allocation gives back. -/
structure Finish where
  status : Nat
  flags  : Nat
  count  : Nat
  r0     : Nat
  r1     : Nat
  addr   : Nat
  data   : List Byte
  tensor : Option Nat
  sent   : Bool
deriving DecidableEq, Repr

/-- A claim on a tensor (R315); `seq` is the order in which it was taken or requested. -/
structure Claim where
  tensor : Nat
  write  : Bool
  seq    : Nat
deriving DecidableEq, Repr

/-- A long operation's status (R135 to R137). -/
structure LongOp where
  running    : Bool           -- false = IDLE
  progress   : Nat
  count      : Nat
  lastWrite  : Nat            -- instant of the last status-word write
deriving DecidableEq, Repr

/-- Where a fabric request came from: requester and the sequence number to echo (R371). -/
structure FabOrigin where
  node     : Nat
  part     : Nat
  endpoint : Nat
  seq      : Nat
  resetGen : Nat
deriving DecidableEq, Repr

/-- An admission record (R98): one per request in flight, whose completion retires it. -/
structure Rec where
  part     : Nat
  q        : Nat               -- submission queue, or fabric endpoint
  fab      : Option FabOrigin  -- the requester, for a fabric request
  cmd      : HostCmd
  ctx      : Nat               -- owning context (R97)
  gen      : Nat               -- reset generation of the partition
  stamp    : Nat               -- admission stamp (R143)
  order    : Nat               -- order of fetch
  phase    : RecPhase
  long     : Option LongOp
  waits    : List Nat          -- BKE_FENCE: records it waits for (R186). CANCEL: order of fetch of its target (R139), given twice once another
                               -- CANCEL has ended it (R140), three times when it is no long operation. ARRAY_RUN: its model's tensor (R238)
  claims   : List Claim
  restarts : Nat               -- requeues for faults (R404)
  eccAt    : Option Nat        -- the phase that has restarted for an ECC error (R399)
  fetched  : Nat := 0          -- instant of fetch (R301)
  need     : List (Nat × Nat) := []   -- ranges of Tier P that it reads and that have not arrived (R320)
  late     : Option Finish := none    -- its completion, held until what it writes to Tier P is there (R320)
  demoted  : Bool := false            -- the meter passed it to class 0 (R381)
deriving DecidableEq, Repr

/-- State of a context copy (R100). -/
inductive CtxState where
  | owned | offered | pending
deriving DecidableEq, Repr

/-- One context copy (R97): its partition, generation, request, and for a copy in a handoff its peer copy. -/
structure Ctx where
  st    : CtxState
  part  : Nat
  gen   : Nat
  rid   : Nat
  since : Nat
  retry : Option Nat          -- instant of the next retry after a REFUSE
deriving DecidableEq, Repr

/-- A fabric request waiting for a context (R99). -/
structure WaitReq where
  origin  : FabOrigin
  cmd     : HostCmd
  ep      : Nat
  arrived : Nat
  extra   : List Byte          -- the vector of a query, the payload of other requests
deriving DecidableEq, Repr

/-! ### Configuration (spec/02) -/

/-- A pipeline stage (Table 2.6). -/
structure Stage where
  kind  : Nat
  place : Nat
  pool  : Nat
  nextA : Nat
  nextB : Nat
  param : Nat
deriving DecidableEq, Repr

/-- A STREAM_ROUTE record (R64). -/
structure StreamRoute where
  kind   : Nat
  cls    : Nat
  first  : Nat
  count  : Nat
  target : Nat
deriving DecidableEq, Repr

/-- A STREAM_SHAPER record (Table 2.8). -/
structure Shaper where
  apply : Nat
  first : Nat
  count : Nat
  rate  : Nat
  burst : Nat
deriving DecidableEq, Repr

/-- A PARTITION_SCHED record (Table 2.8). -/
structure Sched where
  apply  : Nat
  cls    : Nat
  weight : Nat
deriving DecidableEq, Repr

/-- A METER record (Table 2.8). -/
structure Meter where
  apply    : Nat
  yellow   : Nat
  red      : Nat
  overhead : Nat
  cir      : Nat
  cbs      : Nat
  pir      : Nat
  pbs      : Nat
deriving DecidableEq, Repr

/-- An ARRAY_MODE record (R66). -/
structure ArrayMode where
  array    : Nat
  modes    : Nat
  dflt     : Nat
  types    : Nat
  distOps  : Nat
deriving DecidableEq, Repr

/-- A VX7 window (R67). -/
structure Vx7Window where
  vx7Base  : Nat
  nodeBase : Nat
  len      : Nat
deriving DecidableEq, Repr

/-- The configuration that an image gives a partition (R58 to R67). -/
structure PartCfg where
  port         : Nat := 0
  vf           : Nat := 0
  privileged   : Bool := false
  vx7          : Bool := false
  sqCount      : Nat := 1
  msixCount    : Nat := 1
  clusterMask  : Nat := 0
  clusterW     : List Nat := []
  arrayMask    : Nat := 0
  arrayW       : List Nat := []
  periodUs     : Nat := 0
  procChannels : Nat := 0          -- bit c = channel c
  streamFirst  : Nat := 0
  streamCount  : Nat := 8192
  ctxG0        : Nat := 0
  ctxG1        : Nat := 0
  smallBatch   : Nat := 64
  holdLimit    : Nat := 8
  thrSets      : Nat := 16
  stages       : List Stage := []
  quota        : List Nat := [0, 0, 0, 0]
  routes       : List StreamRoute := []
  shapers      : List Shaper := []
  scheds       : List Sched := []
  meters       : List Meter := []
  modes        : List ArrayMode := []
  prot         : List Range := []
  windows      : List Vx7Window := []
deriving DecidableEq, Repr

/-- A gate list (Table 2.8): its reference partition and its entries (gates, duration in ns). -/
structure GateList where
  ref     : Nat
  entries : List (Nat × Nat)
deriving DecidableEq, Repr

/-- A gate list in effect on a port: the list, the instant it last restarted, the entry in force and the instant that
entry began (R391). -/
structure GateState where
  list    : GateList
  restart : Nat
  entry   : Nat
  began   : Nat
deriving DecidableEq, Repr

/-! ### Partitions (spec/03, spec/05) -/

/-- A partition reset under way after its steps 1 to 5 (Table 3.6). -/
structure ResetProg where
  scrub     : Bool
  waiting   : List Nat        -- nodes whose drain acknowledgement is awaited (step 6)
  silent    : Bool            -- no RESET_DONE message (R107)
  scrubbing : Bool            -- between steps 7 and 8 (R110)
  began     : Nat := 0        -- instant the scrub began
  coll      : Option Nat      -- reset collective that waits for it
  load      : Bool            -- a full load holds steps 7 and 8 back (R77)
deriving DecidableEq, Repr

/-- The image load under way (R71, R72): its request, its copy of the image, the INDEX of the image's entry in the measured-object log,
whether step 13 has begun, and the placements that step 11 found (R491). -/
structure Load where
  rid      : Nat
  image    : List Byte
  entry    : Nat
  applying : Bool
  areas    : List (Nat × Nat × Nat) := []   -- address, length and partition * 4 + kind (0 protected, 1 ring, 2 young tombstones)
deriving DecidableEq, Repr

/-- A token bucket in units of 10^-9 byte, with the instant it was last filled. -/
structure Bucket where
  tokens : Int
  last   : Nat
deriving DecidableEq, Repr

/-- The two buckets of a meter (R383). -/
structure MeterState where
  tc   : Int
  tp   : Int
  last : Nat
deriving DecidableEq, Repr

/-- How a query or long operation ended, kept for other endings of it that come at the same instant (R98): its request, queue, CID, opcode and
context, a query's deadline, the instant, and whether it was vented. -/
structure EndNote where
  rid      : Nat
  q        : Nat
  cid      : Nat
  op       : Nat
  ctx      : Nat
  deadline : Option Nat
  at_      : Nat
  vented   : Bool
deriving DecidableEq, Repr

/-- What one partition holds beyond its registers: configuration, reset under way, buckets of its regulators, waiting
fabric requests. -/
structure Part where
  cfg      : Option PartCfg := none
  rst      : Option ResetProg := none
  bw       : KV Bucket := []          -- tier 0 A, 1 B, 3 flash (R91)
  waiting  : List WaitReq := []       -- fabric requests waiting for a context (R99)
  stepNo   : Nat := 0                 -- number of the running step (R143)
  quenched : List (Nat × Nat) := []   -- nodes quenched for the partition, with the instant of the last QUENCH
  heldReset : Option (Bool × Bool × Option Nat) := none  -- a reset held by a load: its SCRUB, whether it is silent, its collective (R81)
  rrStep   : Nat := 0                 -- step for which R163 was decided, and whether for an array
  rrArr    : Bool := false
  busy     : List (Nat × Nat × Nat) := []  -- core time of its phases within the last ms: cluster, instant, ns (R153)
  spill    : List (Nat × Nat) := []   -- live ranges that lie spilled in cluster buffers, by cluster and request (R160)
  scans    : List Nat := []           -- steps whose delta scan is under way, oldest first (R144)
  scanEnd  : Nat := 0                 -- one more than the last step whose delta scan has ended
  tagNo    : Nat := 0                 -- tags that its searches have used on its channels (R210)
  traces   : List EndNote := []       -- queries and long operations that ended at the last instant at which one did (R98, R150)
deriving DecidableEq, Repr

/-- Array sharing of one array (R154 to R160). -/
structure ArrShare where
  owner    : Option Nat := none
  round    : Nat := 0                 -- instant the running round started
  used     : KV Nat := []             -- use of earlier ownerships in this round, by partition, ns
  since    : Nat := 0                 -- instant from which the owner's use runs
  quantum  : KV Nat := []             -- quanta by partition, ns times `den`
  den      : Nat := 1                 -- sum of the weights of the last computation
  switching : Option (Nat × Bool) := none   -- a switch under way: its start, and whether made at a cheap point
  yieldReq : Option Nat := none       -- instant the owner was asked to yield (R159)
  noYield  : Bool := false            -- treated as non-privileged until the owner's next step boundary (R159)
  powered  : Bool := false
  fenced   : Bool := false
  spill    : List (Nat × Nat) := []   -- live ranges that lie spilled, by partition and request (R160)
  decided  : Nat := 0                 -- one more than the instant of the arbiter's last decision at a step boundary
deriving DecidableEq, Repr

/-! ### Memory (spec/12) -/

/-- What an allocation holds (R312). -/
inductive AllocKind where
  | tensor | migration | protected7 | ring | thresholds | tombstones | segment | delta | locator | model | table | lend
  | directory | flashMap | nodeBuffers
deriving DecidableEq, Repr

/-- An allocation at a node address (the key of the map that holds it): its length, rounded up to the unit of its tier,
its partition (none for the node's own areas, R310) and its kind. -/
structure Alloc where
  len  : Nat
  part : Option Nat
  kind : AllocKind
deriving DecidableEq, Repr

/-- What holds a tensor (Table 12.2). -/
inductive Holder where
  | none | model | segment (seg : Nat) | table | ring
deriving DecidableEq, Repr

/-- A tensor, by the INDEX of its handle (R311). -/
structure Tensor where
  gen       : Nat
  part      : Nat
  addr      : Nat
  bytes     : Nat
  holder    : Holder
  migrating : Bool
  dying     : Bool            -- freed; its bytes wait for earlier claims (R316)
deriving DecidableEq, Repr

/-- A migration under way, by admission record (R317). -/
structure Migration where
  tensor : Nat
  dest   : Nat
  copied : Nat                -- bytes copied on the first pass
  dirty  : List Nat           -- chunks written since they were copied
  passes : Nat
  asked  : Bool               -- the write claim has been requested
  tierP  : Nat := 0           -- Tier P (R320): 1 the source is being read, 2 it has been, 3 the destination is being written, 4 it has been
deriving DecidableEq, Repr

/-- A source range kept after a migration's switch until no earlier claim or query remains (R317). -/
structure OldCopy where
  base   : Nat
  tensor : Nat
  before : Nat                -- requests admitted before this order may still use it
deriving DecidableEq, Repr

/-- A pooled-memory window of a composition (Table 12.4); `state` as `MEM_CWIN_STATUS.STATE`. -/
structure PWindow where
  lend    : Bool
  part    : Nat
  tier    : Nat
  peer    : Nat
  wid     : Nat
  len     : Nat
  base    : Nat               -- LOCAL_BASE of a borrow window, backing address of a lend window
  state   : Nat
  unreach : Option Nat        -- instant from which the lender has been unreachable
deriving DecidableEq, Repr

/-- A composition (R323 to R327); meters are kept exactly (Table 12.6), occupancies in byte-ns. -/
structure Composition where
  parts   : Nat
  quotas  : List (Nat × Nat × Nat)
  shares  : List (Nat × Nat × Nat)
  windows : List PWindow
  created : Nat
  meters  : List Nat
deriving DecidableEq, Repr

/-- What an access of Tier P is for: the tensor of a `TENSOR_READ` or `TENSOR_WRITE`, an input or the results of a command, a migration. -/
inductive PUse where
  | operand | input | result | copy
deriving DecidableEq, Repr

/-- A Tier P access in flight from this node: its request and what it waits to do. -/
structure PAccess where
  rid  : Option Nat
  node : Nat
  wid  : Nat
  off  : Nat
  len  : Nat
  write : Bool
  data : List Byte
  use  : PUse := .operand
deriving DecidableEq, Repr

/-- The memory system: bytes that differ from zero, undefined ranges, allocations, tensors, claims' order, migrations,
compositions. -/
structure MemSys where
  bytes   : List Host.Cell := []
  undef   : List (Nat × Nat × Nat) := []  -- undefined ranges: base address, length and epoch (Config.undefByte)
  damaged : KV Nat := []              -- damaged ranges (R402): base address and length
  lostB   : List Nat := []            -- lost Tier B channels, whose bytes are damaged (R406)
  allocs  : KV Alloc := []
  tensors : KV Tensor := []
  gens    : KV Nat := []              -- next GEN by handle index (R311)
  claimNo : Nat := 0
  migs    : KV Migration := []
  old     : List OldCopy := []
  comps   : KV Composition := []
  latch   : KV (List Nat) := []       -- meter registers by physical function (R327)
  lastMeter : Nat := 0
  pacc    : KV PAccess := []          -- Tier P accesses by SEQ
deriving DecidableEq, Repr

/-! ### Fabric and shaping (spec/14, spec/15) -/

/-- A packet at an egress: when it entered, its class, its length L, its LEVEL, its virtual start once it heads its flow, flits already
sent, for a transit packet the lane of the link it came in by, and since when a quench has held it at stage 3, or only a gate. -/
structure EgPacket where
  pkt      : Packet
  entered  : Nat
  cls      : Nat
  len      : Nat
  level    : Nat
  start    : Option Frac
  sent     : Nat
  lane     : Option Nat
  quenched : Option Nat
  gated    : Option Nat
  no       : Nat := 0         -- order of entry (R386)
deriving DecidableEq, Repr

/-- A flit sent (R352): the lane of its link, the fields of its header (KIND, VC, LEVEL, LAST, LSEQ, ACK_SEQ, NAK, WIDTH_CHG, the SNAP_ID of a
marker, the credits returned as VC, LEVEL and count), the bytes it carries of its packet, and the position of the free values that fill the
rest. -/
structure TxFlit where
  lane     : Nat
  kind     : Nat
  vc       : Nat
  level    : Nat
  last     : Bool
  lseq     : Nat
  ack      : Nat
  nak      : Bool
  widthChg : Bool
  marker   : Option Nat
  cr       : Nat × Nat × Nat
  carried  : List Byte := []
  pad      : Nat := 0
deriving DecidableEq, Repr

/-- A flit kept until it is acknowledged (R353), and the partition whose packet it is part of (none: no packet of this node). -/
structure SentFlit where
  seq     : Nat
  kind    : Nat
  vc      : Nat
  level   : Nat
  last    : Bool
  marker  : Option Nat
  cr      : Nat × Nat × Nat
  replays : Nat
  sentAt  : Nat
  widthChg : Bool := false
  carried : List Byte := []
  pad     : Nat := 0
  part    : Option Nat := none
deriving DecidableEq, Repr

/-- A packet being reassembled on (link, VC, LEVEL) (R355). -/
structure Reasm where
  pkt   : List Byte
  flits : Nat
  since : Nat
deriving DecidableEq, Repr

/-- A link, by the global number of its first lane. -/
structure Link where
  width     : Nat             -- configured lanes
  lanesUp   : Nat             -- mask of its lanes that are up
  state     : Nat             -- FAB_LINKl_STATUS.STATE
  peerId    : Nat             -- peer node ID, 0 unknown
  peerIdent : Nat             -- peer device identity
  peerPort  : Nat
  helloIn   : Option Nat      -- instant of the last HELLO received
  helloSeen : Bool            -- a HELLO of equal width was received
  helloSent : Bool
  txSeq     : Nat             -- next LSEQ to send
  rxSeq     : Nat             -- next LSEQ expected
  unacked   : List SentFlit
  nakDue    : Bool
  ackDue    : Bool
  widthChg  : Bool            -- the next flit is to carry WIDTH_CHG
  widthOwn  : Nat := 0        -- lanes taken out here whose mark from the peer has not come (R351)
  markers   : List (Nat × Nat) -- markers to send: (VC, SNAP_ID)
  credits   : KV Nat          -- dedicated credits held, by VC * 8 + LEVEL
  shared    : Nat             -- shared credits held
  sharedUse : KV Nat          -- shared credits in use, by VC
  returns   : List (Nat × Nat × Nat)  -- credits to return: (VC, LEVEL, count)
  reasm     : KV Reasm        -- by VC * 8 + LEVEL
  vc0q      : List EgPacket
  localq    : List EgPacket   -- local packets at stage 4
  transit   : List EgPacket
  active    : List EgPacket   -- packets begun, by (VC, LEVEL)
  vc0Run    : List Bool       -- last flits sent while other VCs were ready: true = VC0 (R359)
  deficit   : Int             -- transit running deficit (R390)
  weight    : Nat             -- route weight r in 1/1000 (R370, R426)
  busyNs    : Nat             -- flit time used in the running ms, in 1/84,000 ns (R426)
deriving DecidableEq, Repr

/-- A route entry (R369). -/
structure Route where
  dist     : Nat
  links    : List Nat         -- link IDs
  override : Bool
  egress   : Nat := 0         -- EGRESS as it was written (Table 14.15)
deriving DecidableEq, Repr

/-- One member of the topology map: its ID, identity and links (peer ID, link ID, width). -/
structure Member where
  ident : Nat
  links : List (Nat × Nat × Nat)
deriving DecidableEq, Repr

/-- A request this node has outstanding on the fabric, by SEQ (R371). -/
structure OutReq where
  rid   : Option Nat          -- admission record it serves
  node  : Nat
  part  : Nat                 -- partition that sent it
  sent  : Nat
  timed : Bool                -- under the end-to-end timeout (no deadline)
  kind  : Nat                 -- OPCODE of the request
  args  : List Nat
  gen   : Nat                 -- reset generation at sending
  space : Nat := 0            -- receive space reserved for its response (R356)
deriving DecidableEq, Repr

/-- A QUENCH entry in force (R362, R395). -/
structure Quench where
  sender : Nat
  part   : Nat                -- 0xFF = all
  vc     : Nat
  expiry : Nat
  rate   : Nat                -- bytes per second, 0 = stop
  bucket : Bucket
deriving DecidableEq, Repr

/-- A collective this member takes part in, by COLL_ID (R374 to R377). -/
structure Coll where
  op      : Nat
  rid     : Option Nat        -- the local COLLECTIVE command
  issuer  : Bool              -- this node issued the broadcast, reset or snapshot
  members : Nat               -- members at the start
  started : Nat
  reports : List Nat          -- tree children that have reported
  count   : Nat               -- members reported done below and here
  lost    : Nat               -- LOST channels reported
  data    : Option (List Byte)
  done    : Bool              -- the local part is done
  mask    : Nat               -- partitions of a reset
deriving DecidableEq, Repr

/-- A channel of the running snapshot, by lane * 8 + VC (R376). -/
structure SnapCh where
  closed  : Bool
  lost    : Bool
  packets : Nat
  flits   : Nat
deriving DecidableEq, Repr

/-- Virtual times of one scheduling domain (R387): v by class, finish by class * 64 + partition. -/
structure SchedDom where
  v      : KV Frac := []
  finish : KV Frac := []
deriving DecidableEq, Repr

/-- The fabric side of the node. -/
structure Fab where
  links    : KV Link := []
  routes   : KV Route := []           -- by destination node ID
  topo     : KV Member := []          -- the map in force, by node ID
  reports  : KV Member := []          -- reports the anchor has merged, by identity; `ident` is the node ID claimed (0 none)
  cand     : Nat := 0                 -- anchor candidate (identity); 0 = own
  candSeen : Nat := 0                 -- instant its ELECT was last refreshed
  candCnt  : Nat := 0                 -- count of the last ELECT
  candLane : Option Nat := none       -- link by which it came
  anchorId : Nat := 0
  parent   : Nat := 0                 -- parent in the collective tree
  kids     : List Nat := []
  seqNo    : Nat := 0                 -- next SEQ
  orderNo  : Nat := 0                 -- next order SEQ (R363)
  orderRx  : KV Nat := []             -- last order SEQ acted on by source
  out      : KV OutReq := []          -- outstanding requests by SEQ
  handoff  : List Packet := []        -- packets the endpoints have handed over, oldest first
  held     : List EgPacket := []      -- metered packets at stages 2 and 3
  sentOut  : List (Nat × Packet) := []  -- packets that have left on a link (first lane), oldest first
  tx       : List TxFlit := []        -- flits sent, oldest first
  rx       : List (Nat × Packet) := []  -- packets received whole on a link (first lane), not yet taken or forwarded
  arrived  : List Packet := []        -- packets for this node that its endpoints have not yet taken, oldest first
  quench   : List Quench := []
  colls    : KV Coll := []
  snapId   : Nat := 0
  snapCh   : KV SnapCh := []
  snapBad  : KV (List Nat) := []      -- snapshots refused here, by SNAP_ID, with the channels their markers have come on (R376)
  trained  : KV Word := []            -- equalisation trained and trimmed of a lane under OVERRIDE (R350)
  entryNo  : Nat := 0                 -- packets that have entered the egress (R386)
  gates    : KV GateState := []       -- by port
  doms     : KV SchedDom := []        -- 0, 1 = host ports; 16 + lane = links
  buckets  : KV Bucket := []          -- stream shapers, by apply * 8192 + stream
  meters   : KV MeterState := []      -- by apply * 64 + partition
  refrags  : List Packet := []        -- fragments of packets not yet whole (R354)
deriving DecidableEq, Repr

/-! ### Faults, events and the drogue (spec/16) -/

/-- An event record (Table 16.5). -/
structure EvRec where
  time   : Nat
  seq    : Nat
  cls    : Nat
  source : Nat
  kind   : Nat
  action : Nat
  unit   : Nat
  part   : Nat
  eflags : Nat
  count  : Nat
  detail : Nat
deriving DecidableEq, Repr

/-- A fenceable unit, by kind * 4096 + number: whether it is fenced, fences since power-on, its lock-out, the result of
its last operation, failed self tests and a restore under way. -/
structure FUnit where
  fenced   : Bool := false
  fences   : Nat := 0
  locked   : Bool := false
  opFailed : Bool := false
  failAt   : Option Nat := none
  restoring : Bool := false
deriving DecidableEq, Repr

/-- The latched copies of the drogue (R413): every register word that differed from its default, for the reads of each
physical function. -/
structure Snap where
  copy0 : KV Word
  copy1 : KV Word
deriving DecidableEq, Repr

/-- Fault state: event rings of the two functions, sequence number, recent CORRECTED records, units; and what interrupts have still to report. -/
structure Faults where
  ring0  : List EvRec := []
  ring1  : List EvRec := []
  seq    : Nat := 0
  recent : List EvRec := []
  units  : KV FUnit := []
  badReads : KV (List Nat) := []    -- instants of uncorrectable reads by Tier A channel (R402)
  poolLost : List Nat := []         -- instants of pool losses (R406)
  snap   : Option Snap := none
  stopped : Bool := false           -- the node has stopped: on a FATAL error (R407), in recovery (R442), without power
  hour   : List (Nat × Nat × Nat × Nat) := []  -- CORRECTED occurrences of this hour by source, kind and unit (R432)
  ahead  : List Nat := []           -- requests whose phase has been requeued and comes before others of its cluster, oldest first (R401)
  coal   : KV (List Nat) := []      -- by queue: instants of completions written and not yet reported by a message (R141)
deriving DecidableEq, Repr

/-- A logbook record (R431): lifetime number, time, power-on count, type (Table 17.2) and payload. -/
structure LogRec where
  seq  : Nat
  time : Nat
  boot : Nat
  kind : Nat
  data : List Byte
deriving DecidableEq, Repr

/-! ### Trim loops (spec/17) -/

/-- A unit of a trim loop (Table 17.1), by loop * 512 + unit: settings, output, input, last action, control bits and the
state of its rule (`aux`). Settings an image owns are marked. -/
structure TrimUnit where
  target  : Int
  gain    : Nat                -- 8 integer and 8 fraction bits
  lo      : Int
  hi      : Int
  owned   : Bool := false
  output  : Int
  input   : Int := 0
  delta   : Int := 0
  kind    : Nat := 0
  last    : Nat := 0
  freeze  : Bool := false
  atLimit : Bool := false
  drogue  : Bool := false
  cfgErr  : Bool := false
  aux     : List Nat := []
deriving DecidableEq, Repr


/-! ### Selection (spec/09) -/

/-- An entry of a selection list: key (an integer, or fp32 bits), identity and origin. In a candidate pool `id` is the
local ID and `seg` the segment; after re-rank `id` is the vector ID. -/
structure SelEntry where
  key  : Nat
  id   : Nat
  seg  : Nat
  node : Nat
  ord  : Nat                 -- position in the order of input
deriving DecidableEq, Repr

/-- A selection list (R247, R251) with, for a merge, what R259 takes from its inputs: `left` and the sums of `ins` are
fp64 bits for fp32 keys and exact integers otherwise. -/
structure SelList where
  owner    : Option Nat        -- admission record that asked for it
  k        : Nat
  higher   : Bool
  fp       : Bool
  dedup    : Bool
  entries  : List SelEntry := []
  offered  : Nat := 0
  tied     : Nat := 0
  left     : Nat := 0
  nan      : Nat := 0
  dups     : Nat := 0
  ins      : List (Nat × Nat × Nat) := []   -- inputs merged: TIED_OUT with TIE_CUT, key of the last entry, LEFT_SUM
  reranked : Nat := 0
  sat      : Bool := false
deriving DecidableEq, Repr

/-- A list request that waits for room in its cluster (R247). -/
structure SelWait where
  lid   : Nat
  list  : SelList
  since : Nat
deriving DecidableEq, Repr

/-- What a closed list reports (R255, R256). -/
structure SelResult where
  lid     : Nat
  entries : List SelEntry
  tied    : Nat
  selSum  : Nat
  leftSum : Nat
  fewer   : Bool
  reranked : Nat
  sat     : Bool
deriving DecidableEq, Repr

/-- A selection unit (cluster * 2 + u): its open lists and the instant from which it has had one. -/
structure SelUnit where
  lists : KV SelList := []
  since : Nat := 0
  waits : List SelWait := []
deriving DecidableEq, Repr

/-! ### Bank engines (spec/06) -/

/-- An entry of a query block (Table 6.3). -/
structure BQuery where
  limit  : Nat
  maxD   : Nat
  sketch : List Byte
deriving DecidableEq, Repr

/-- The list an engine keeps for a query of an open tag (R180), with its counts. -/
structure BList where
  list    : SelList
  scanned : Nat := 0
  skipped : Nat := 0
deriving DecidableEq, Repr

/-- What stands behind a descriptor that the node's own search forms: the bytes of its query block and of its address list, which lie in node
scratch at addresses that no rule gives, and what its records serve: gathers by request, segment and candidate (R210), or the delta scan of
a partition's step (R214). -/
structure OwnJob where
  block : List Byte := []
  list  : List Byte := []
  need  : List (Nat × Nat × Nat) := []
  step  : Option (Nat × Nat) := none
  recs  : Nat := 0                -- records that the commands before a token write
deriving DecidableEq, Repr

/-- A descriptor queued on a channel: issuing partition, request it serves, its 64 bytes; a fence token of a host
BKE_FENCE names that request. -/
structure BankJob where
  part  : Nat
  rid   : Option Nat
  desc  : List Byte
  fence : Bool
  since : Nat
  own   : Option OwnJob := none
deriving DecidableEq, Repr

/-- An open tag of a channel (R181): its query block, the lists by bank * 64 + query, and its commands so far. -/
structure BTag where
  tag   : Nat
  width : Nat
  qs    : List BQuery
  lists : KV BList
  cmds  : List BankJob
deriving DecidableEq, Repr

/-- A bank command under way: its job, and the rows (address and bytes) it writes. -/
structure BankRun where
  job    : BankJob
  writes : List (Nat × List Byte)
  sums   : List (Nat × Nat)       -- SCAN_BITS: population count by bank
deriving DecidableEq, Repr

/-- An ordinary access held by a processor channel (R194). -/
structure HeldAcc where
  addr  : Nat
  write : Bool
  data  : List Byte
  since : Nat
deriving DecidableEq, Repr

/-- The token a descriptor returns (R187). -/
structure BankToken where
  part    : Nat
  channel : Nat
  tag     : Nat
  status  : Nat
  records : Nat
deriving DecidableEq, Repr

/-- A Tier A channel: `STATE` of Table 6.12, its command queue, the running command, open tags, held accesses and those
that wait for room, the instant since which nothing is queued or running, records written by ring, writes not yet
covered by a token (R185), the place of its ring area, and the instant from which its head waits for ring space. -/
structure BankCh where
  state   : Nat := 0
  jobs    : List BankJob := []
  run     : Option BankRun := none
  tags    : List BTag := []
  holds   : List HeldAcc := []
  excess  : List HeldAcc := []
  idle    : Nat := 0
  written : KV Nat := []
  pend    : List (Nat × List Byte) := []
  ring    : Option Nat := none
  ringWait : Option Nat := none
  surplus  : List BankJob := []    -- descriptors that wait at their issuers for a place in the queue (R173)
  steps   : Nat := 0              -- row steps of its engines in the running 10 µs window (R193)
  acts    : Nat × KV Nat := (0, [])   -- activations by row in a window of 32 ms, with the window's number (R191)
deriving DecidableEq, Repr

/-! ### Segments and updates (spec/06, spec/07, spec/10) -/

/-- A threshold set held by a partition (R167), by SET_ID; its bytes lie in memory at `addr`. -/
structure TSet where
  version : Nat
  width   : Nat
  addr    : Nat
deriving DecidableEq, Repr

/-- A segment (Table 7.1), by SEG_ID, with what the node keeps of it beside its descriptor. `pub` and `ret` are none
while the descriptor reads 0xFFFF_FFFF_FFFF_FFFF. -/
structure Segment where
  delta     : Bool
  width     : Nat
  setId     : Nat
  setVer    : Nat
  degree    : Nat
  elem      : Nat
  dims      : Nat
  vectors   : Nat              -- graph: vectors held; delta: committed so far
  entry     : List Nat
  blockRows : Nat
  blocks    : List (Nat × Nat) -- channel, first row
  stride    : Nat
  pub       : Option Nat
  ret       : Option Nat
  adj       : Nat
  vec       : Nat
  attr      : Nat
  idmap     : Nat
  tomb      : Nat
  norm      : Nat
  commitAt  : Nat              -- COMMIT_BASE
  commits   : List (Nat × Nat) -- the commit table: epoch, count
  closed    : Bool             -- a delta that is sealed
  cap       : Nat              -- delta: capacity in vectors
  next      : Nat              -- delta: next local ID
  buildEp   : Nat              -- build epoch b
  sources   : List Nat
  origin    : List (Nat × Nat) -- built: source segment and local ID of each vector
  dead      : List Nat         -- copies marked dead under Table 10.2
  tensors   : List Nat         -- imported: tensors that hold its parts
  areas     : List Nat         -- allocations it owns
  tableAt   : Nat := 0         -- BLOCK_TABLE
deriving DecidableEq, Repr

/-- One item of an update command: vector ID, row, and its status. -/
structure UpdItem where
  id     : Nat
  row    : Option Nat
  status : Nat
  seg    : Nat
deriving DecidableEq, Repr

/-- An update command in the update sequence (R263), in order of admission; `ids1`, `ids2` are the segments a publish
adds and retires; `tomb` and `loc` are its reservations. -/
structure Upd where
  rid      : Nat
  op       : Nat
  period   : Nat
  prepared : Bool
  seg      : Nat
  replace  : Bool
  items    : List UpdItem
  vecs     : List Byte
  attrs    : List Byte
  projs    : List (List Nat) -- projected values of the items, once prepared
  ids1     : List Nat
  ids2     : List Nat
  tomb     : Nat
  loc      : Nat
  ended    : Bool := false     -- an insert that ended before its commit, whose rows are dead
deriving DecidableEq, Repr

/-- A build or an import under way, by admission record. -/
structure Build where
  seg     : Nat               -- SEG_ID held
  part    : Nat
  sources : List Nat
  started : Option Nat        -- build epoch, once started
  setId   : Nat
  setVer  : Nat
  before  : List Nat          -- update commands admitted before it
  linked  : Nat
  items   : List (Nat × Nat)  -- source items, in order
  desc    : List Byte         -- an import's descriptor
  draft   : Option Segment    -- a build's output, once started
  restarts : Nat
  arrays  : Nat := 15         -- arrays the build may use (R273)
  olds    : List (List Nat) := []  -- of each source item, its old neighbours among them (R275)
deriving DecidableEq, Repr

/-- The sketch threshold loop of a partition (R423, R424): candidate thresholds, mean deviations and values taken by
bit (fp32 bits), inserts seen, the projected values of the last 65,536 inserts (newest first), inserts measured at the
last evaluation, inserts since the last publication and the instant of the last one, and the blocks of 4,096 inserts evaluated. -/
structure SketchLoop where
  cand    : List Nat := []
  dev     : List Nat := []
  taken   : List Nat := []
  seen    : Nat := 0
  hist    : List (List Nat) := []
  samples : Nat := 0
  since   : Nat := 0
  lastPub : Option Nat := none
  evals   : Nat := 0
deriving DecidableEq, Repr

/-- What a partition's collection holds. -/
structure Corpus where
  epoch    : Nat := 0
  fold     : Nat := 0
  segs     : KV Segment := []
  table    : KV (List Byte) := []      -- the segment table: each descriptor as last written, with its block table behind it (R199, R201)
  freed    : List (Nat × Nat) := []    -- epochs at which segments now gone were searched: from, and up to but not with (R204)
  current  : Option Nat := none        -- current delta
  sets     : KV TSet := []
  curSet   : Option Nat := none
  version  : Nat := 0                  -- last VERSION given
  young    : List (Nat × Nat × Nat) := []  -- young tombstones: segment, local ID, epoch
  youngTab : KV (Nat × Nat × Nat) := []    -- where they lie in the young tombstone table: by entry
  youngRes : Nat := 0                  -- reserved entries
  youngPeak : Nat := 0
  tombArea : Option Nat := none
  locator  : KV (Nat × Nat) := []      -- vector ID to segment and local ID
  locRes   : Nat := 0                  -- reserved locator entries
  updates  : List Upd := []
  held     : List Nat := []            -- SEG_IDs held by builds and imports
  loop     : SketchLoop := {}
deriving DecidableEq, Repr

/-! ### Queries (spec/05, spec/07) -/

/-- A beam entry: local ID, distance, and 0 unrequested, 1 requested, 2 expanded. -/
structure BeamEnt where
  id   : Nat
  dist : Nat
  mark : Nat
deriving DecidableEq, Repr

/-- A beam over a graph segment: `out` holds the expansions outstanding, by candidate, each with its gather list once
the adjacency record has arrived; candidate 0xFFFF_FFFF stands for the entry points. -/
structure Beam where
  seg     : Nat
  pos     : Nat                -- position among the searched segments (R211)
  width   : Nat
  entries : List BeamEnt
  out     : List (Nat × Option (List Nat × Nat))   -- gather list, and MAX_DIST of its descriptors
deriving DecidableEq, Repr

/-- A shard of a scattered query. -/
structure Shard where
  node   : Nat
  seq    : Option Nat          -- outstanding request; none for the coordinator's own shard
  state  : Nat                 -- 0 outstanding, 1 returned, 2 failed
  status : Nat
deriving DecidableEq, Repr

/-- A sketch that a search gathers (R210): the request, segment and candidate that ask for it, the query's sketch with its threshold set and
MAX_DIST, and the local ID, channel, channel row and slot. -/
structure GatherItem where
  need : Nat × Nat × Nat
  set  : Nat
  sk   : List Byte
  maxD : Nat
  lid  : Nat
  chan : Nat
  row  : Nat
  slot : Nat
deriving DecidableEq, Repr

/-- A `GATHER_HAM` descriptor that a search forms (R210): its channel, query sketches by request and threshold set with their MAX_DIST, entries
(local ID, row, slot, request and set), and the gathers that it serves. -/
structure GatherDesc where
  chan  : Nat
  qs    : List ((Nat × Nat) × List Byte × Nat)
  items : List (Nat × Nat × Nat × (Nat × Nat))
  need  : List (Nat × Nat × Nat)
deriving DecidableEq, Repr

/-- A query, by admission record. `phase`: 0 admitted, 1 input read and waiting for its step, 2 in its step. -/
structure Query where
  part     : Nat
  epoch    : Nat               -- pinned epoch
  stamp    : Nat
  deadline : Nat
  started  : Bool
  phase    : Nat
  todo     : List Nat          -- kinds of the pipeline stages not yet entered, in order
  step     : Nat
  elem     : Nat
  dims     : Nat
  vec      : List Nat          -- element codes
  raw      : List Byte         -- raw input of kind 1
  k        : Nat
  beam     : Nat
  pre      : Nat
  r        : Nat
  rmult    : Nat
  filter   : Option (Nat × Nat)
  allow    : Option Nat        -- tensor of the allow-list
  effort   : Bool
  widen    : Bool
  sub      : Bool              -- a sub-request of another node
  sketches : KV (List Byte)    -- by VERSION of the threshold set
  beams    : List Beam
  delta    : Bool              -- delta candidates offered
  visited  : List Nat          -- set bits of the visited filter, rising
  gathered : Nat
  retried  : Bool
  first    : Option SelResult  -- the first result of a widened query
  shards   : List Shard
  scatter  : Bool
  widened  : Bool              -- any shard retried
  gath0    : Nat := 0          -- sketches gathered before the present run of its beams
  inputs   : List (List Byte) := []   -- shard lists that have reached the coordinator, in order (R259)
  mergedN  : Nat := 0          -- how many of them its merge has taken
  failure  : Option Nat := none       -- status of the first shard that failed (R220)
  pool0    : List SelEntry := []      -- entries its pool begins with (R217)
  scored   : Option (List SelEntry × Nat) := none   -- re-ranked candidates on their way to the final selection, and how many were scored
  streamed : Bool := false     -- its candidates have been streamed through an array in a block of its step (R244)
  models   : Option Nat × Option Nat := (none, none)   -- tensors of its encoder and its projection, fixed at its step's start (R238)
deriving DecidableEq, Repr

/-! ### Arrays and models (spec/08) -/

/-- An array instruction under way: its partition, request, descriptor, the bytes it writes, requantised and clipped
counts by column group, and int32 saturations. -/
structure ArrRun where
  part  : Nat
  rid   : Option Nat
  desc  : List Byte
  outs  : List (Nat × List Byte)
  req   : List Nat
  clip  : List Nat
  sat   : Nat
  since : Nat
deriving DecidableEq, Repr

/-- The token of an array instruction (R226). -/
structure ArrToken where
  part   : Nat
  array  : Nat
  tag    : Nat
  status : Nat
  req    : Nat
  clip   : Nat
deriving DecidableEq, Repr

/-- A descriptor in an instruction queue: its partition, the request it serves and its 64 bytes (R225). -/
structure ArrJob where
  part : Nat
  rid  : Nat
  desc : List Byte
deriving DecidableEq, Repr

/-- An output of an instruction that no PHASE_END covers yet: the request, the address and the bytes (R226). -/
structure ArrOut where
  rid   : Nat
  addr  : Nat
  bytes : List Byte
deriving DecidableEq, Repr

/-- A model's run that waits on an array for a layer: its partition, request and tensor, the layers whose instructions have entered, and the
instant from which it waits for the next (R239). -/
structure ModelRun where
  part   : Nat
  rid    : Nat
  tensor : Nat
  upto   : Nat
  since  : Nat
deriving DecidableEq, Repr

/-- What an array holds beside its sharing: the instruction under way; by partition the outputs that no PHASE_END covers yet (R226), the
instruction queue (R225) and the instructions of the present phase that have ended; the cluster-buffer ranges written by request (R29); the
model's run that waits for a layer (R239), those of partitions whose turn it is not, which go on at their next (R157, R160), and the instant at which
the last instruction of this ownership ended. -/
structure ArrUnit where
  run   : Option ArrRun := none
  pend  : KV (List ArrOut) := []
  queue : KV (List ArrJob) := []
  phase : KV (List ArrJob) := []
  wrote : List (Nat × Nat × Nat) := []
  model : Option ModelRun := none
  held  : List ModelRun := []
  free  : Option Nat := none
deriving DecidableEq, Repr

/-- A model bound to a slot (R238, R239), by partition * 256 + slot: its tensor, its window's place, layers and bytes,
the allocations of a Tier A window, and the layers resident by die: first layer and count. -/
structure Binding where
  tensor   : Nat
  place    : Nat
  layers   : Nat
  keep     : Bool
  bytes    : Nat
  areas    : List Nat
  resident : KV (Nat × Nat)
  retired  : Bool              -- replaced or unbound, waiting for running work to end
deriving DecidableEq, Repr



/-! ### Flash (spec/13) -/

/-- The flash that is fitted: LUNs per channel, blocks per LUN, pages per block, RATED_PE, and the factory-bad blocks as
(LUN, block); `ok` says whether the population meets R329. -/
structure FlashGeo where
  luns   : Nat
  blocks : Nat
  pages  : Nat
  rated  : Nat
  bad    : List (Nat × Nat)
  ok     : Bool
deriving DecidableEq, Repr

/-- What the node keeps of a block (R347), by LUN * 65536 + block: erase count, reads and reads needing retry since the last
erase, corrected bits per 10^9, and whether it is retired. -/
structure FBlock where
  erases  : Nat := 0
  reads   : Nat := 0
  retries : Nat := 0
  ber     : Nat := 0
  retired : Bool := false
deriving DecidableEq, Repr

/-- A superblock in use, by LUN index * 65536 + block number: whether it is open, its member channels, the data pages filled
in order, and when it closed (R330). -/
structure Super where
  isOpen   : Bool
  chans    : List Nat
  fill     : Nat
  closedAt : Nat
  aged     : Nat := 0           -- ns since it closed that earlier power-ons saw (R342)
deriving DecidableEq, Repr

/-- A namespace (R333): its size in units, whether it is read-only (R344), and the delete or erase that waits or runs. -/
structure NSpace where
  size   : Nat
  ro     : Bool := false
  ending : Option Nat := none
  cleared : Nat := 0          -- units whose map entries a delete or erase has cleared (R337)
deriving DecidableEq, Repr

/-- The flash translation layer. A mapping unit is known by its address / 16384: of a Tier F tensor the node address, of a
namespace an address of its own above the node address space. -/
structure Flash where
  geo      : Option FlashGeo := none
  media    : Nat := 0                    -- FTL_STATUS.MEDIA
  cap      : Option Nat := none          -- C in units, fixed at format (R331)
  spare    : Nat := 0                    -- spare at format
  ns       : KV NSpace := []             -- by partition * 32 + NSID
  roTens   : List Nat := []              -- read-only Tier F tensors, by address
  map      : KV (Nat × Nat) := []        -- superblock and data page of each mapped unit
  supers   : KV Super := []              -- superblocks open or closed
  erased   : KV Nat := []                -- erase count by superblock
  gone     : List Nat := []              -- superblocks retired whole
  subst    : KV Nat := []                -- stand-in block by superblock * 32 + channel
  blocks   : KV FBlock := []
  hostOpen : Option Nat := none
  relOpen  : Option Nat := none
  rebuild  : List Nat := []              -- LUNs being rebuilt
  out      : List Nat := []              -- fenced LUNs whose superblocks have returned to service without them
  fails    : KV (List Nat) := []         -- instants of block failures by LUN (R340)
  badPages : List (Nat × Nat) := []      -- pages that every retry level failed (R338), by superblock and data page
  keys     : KV Nat := []                -- the key of each namespace and Tier F tensor, by its first unit: its number among those generated (R333)
  keyNo    : Nat := 0
  stash    : Option (KV NSpace × Option Nat) := none   -- namespaces and C, while the media found is not theirs (R329)
deriving DecidableEq, Repr


/-! ### Embedding tables (spec/11) -/

/-- An entry of a shard map (R287). -/
structure TMapEnt where
  node   : Nat
  part   : Nat
  ep     : Nat
  stream : Nat
  first  : Nat
deriving DecidableEq, Repr

/-- An open step: the accumulated sums (fp32 bits) by row index (R297). -/
structure TStep where
  step : Nat
  acc  : KV (List Nat)
deriving DecidableEq, Repr

/-- A drift this node has offered: a migration, or a replication (R306, R307); `copies` that have left so far. -/
structure Drift where
  row     : Nat
  node    : Nat
  replica : Bool
  copies  : Nat
  since   : Nat
deriving DecidableEq, Repr

/-- A slot of the drift area: its row, the node it drifts from, the number of the newest copy that has arrived (0 = none), whether
the SWITCH has, whether it is a read-only replica, and the instant it was reserved (R306, R307). -/
structure DSlot where
  row      : Nat
  home     : Nat
  copied   : Nat
  switched : Bool
  replica  : Bool
  since    : Nat
deriving DecidableEq, Repr

/-- A `TABLE_STEP_CLOSE` under way: its request, step, whether STEP_END has been sent, rows applied so far and nodes that were
missing at a timeout (R299, R301). -/
structure TCloser where
  rid     : Nat
  step    : Nat
  since   : Nat
  begun   : Bool
  applied : Nat
  missing : List Nat
  late    : Bool
deriving DecidableEq, Repr

/-- A table's shard on this node (R285 to R303). `shard` is its entry of the map; `addr` the shard's rows, in tensor `tensor`
where a handle named one; `old` an older version held for pinned lookups. By step: contributions accumulated by sender,
counts of STEP_END by sender, contributions sent by destination, nodes STEP_END was sent to. `held` keeps what arrived for rows
that still drift here; `recalls` the rows recalled and not yet acknowledged, with the node. -/
structure Table where
  part      : Nat
  rowType   : Nat
  tier      : Nat
  dim       : Nat
  hash      : Bool
  opt       : Nat
  rows      : Nat
  map       : List TMapEnt
  driftRows : Nat
  lr        : Nat
  eps       : Nat
  accumRows : Nat
  check     : Nat
  shard     : Option Nat
  addr      : Nat
  tensor    : Option Nat
  state     : Option Nat
  drift     : Option Nat
  areas     : List Nat
  version   : Nat
  old       : Option (Nat × Nat × Option Nat)
  steps     : List TStep
  got       : KV (KV Nat)
  ends      : KV (KV Nat)
  sent      : KV (KV Nat)
  endedTo   : KV (List Nat)
  ended     : Nat
  issued    : Nat
  lastClosed : Nat
  closers   : List TCloser
  drifts    : List Drift
  slots     : KV DSlot
  held      : List Packet
  recalls   : List (Nat × Nat)       -- rows recalled and not yet acknowledged, with the node
  switch    : Option Nat             -- the TABLE_SWITCH that waits for recalls
  dying     : Option Nat             -- the TABLE_DESTROY under way
  served    : List (Nat × Nat)       -- rows served or applied in the last 16 ms: instant and number
  loads     : KV Nat                 -- loads other nodes reported
deriving DecidableEq, Repr

/-- An entry of the hot-row directory (R305); `rep` marks a hint that names a replica. -/
structure DirEnt where
  row   : Nat
  table : Nat
  kind  : Nat
  node  : Nat
  rep   : Bool
deriving DecidableEq, Repr

/-- A lookup in flight, by admission record: its table and pinned version, its indices, bag offsets, output form, the rows
fetched (fp32 bits) and the rows each sub-request still has to bring. -/
structure Lookup where
  table   : Nat
  version : Nat
  idx     : List Nat
  bags    : List Nat
  pool    : Nat
  outType : Nat
  vals    : KV (List Nat)
  want    : KV (List Nat)
  remote  : Nat
deriving DecidableEq, Repr

/-- An update in flight, by admission record: valid indices by row, contributions awaited by sub-request, valid indices
accumulated, contributions refused, unique rows and invalid indices (R298). -/
structure TUpdate where
  table   : Nat
  step    : Nat
  counts  : KV Nat
  waits   : KV (List Nat)
  okIdx   : Nat
  refused : Nat
  unique  : Nat
  invalid : Nat
deriving DecidableEq, Repr

/-- The embedding system: tables by TABLE_ID, the hot-row directory (least recently used first), the hot-row candidate store
(table, row, instants of its samples of the last 16 ms) and the count of row fetches it samples, lookups and updates in flight. -/
structure Emb where
  tables  : KV Table := []
  dir     : List DirEnt := []
  hot     : List (Nat × Nat × List Nat) := []
  fetches : Nat := 0
  lookups : KV Lookup := []
  updates : KV TUpdate := []
deriving DecidableEq, Repr


/-! ### Measurement, keys and management (spec/17, spec/18) -/

/-- An entry of the measured-object log (Table 18.6). -/
structure MLogEnt where
  slot    : Nat
  kind    : Nat
  outcome : Nat
  part    : Nat
  index   : Nat
  serial  : Nat
  time    : Nat
  digest  : List Byte
deriving DecidableEq, Repr

/-- Measured boot and the keys: the stored entries of the measured-object log in INDEX order, entries made since the node reset, the
four image-signing key slots (0 EMPTY, 1 ENROLLED, 2 REVOKED) with their KEY_IDs, the DIE_STATUS of the four dies. -/
structure Sec where
  mlog  : List MLogEnt := []
  total : Nat := 0
  keys  : List (Nat × List Byte) := [(0, []), (0, []), (0, []), (0, [])]
  dies  : List Nat := [0, 0, 0, 0]
deriving DecidableEq, Repr

/-- A message that the node answers as an MCTP endpoint on SMBus (R457, R476). -/
inductive SmbMsg where
  | version (major minor : Nat)
  | capabilities (cert chal meas sig : Bool)
  | algorithms (signature hash : String)
  | digests (chains : List (List Byte))
  | certificate (slot offset remaining : Nat) (bytes : List Byte)
  | challengeAuth (slot : Nat) (nonce signature : List Byte)
  | measurements (blocks : List (Nat × List Byte)) (nonce signature : List Byte)
  | vendor (chunks : List (List Byte))
  | busy
  | unsupportedRequest (code : Nat)
  | invalidRequest
  | control (bytes : List Byte)
  | unsupportedType (mtype : Nat)
deriving DecidableEq, Repr

/-- What the board and the package show of the node beyond its registers: MSD power-good, the instant the running boot began, trained host links,
THERMTRIP_N asserted, I/O disconnected by EXTEST, ns spent in holdover since power-on, AVSBus requests unanswered in a row by rail, and the set-points of the two SCD rails in mV; entries into the power backstop
(R46), the last ms in which a rate floor was missed (Table 1.14), the domains whose slack has been measured (R427), the power limits replaced, each
with the instant up to which the 10 ms average still counts against it (R48), the temperature of each stack in 0.1 °C as calibrated (R480), and the
straps SMB_ADDR and TEST_MODE (R474, R476). -/
structure Board where
  power     : Bool := true
  start     : Nat := 0
  hostUp    : List Bool := [false, false]
  thermtrip : Bool := false
  extest    : Bool := false
  holdNs    : Nat := 0
  avsMiss   : List Nat := [0, 0, 0, 0]
  avsSet    : List Nat := [1800, 1800]
  backstops : Nat := 0
  floorMs   : Option Nat := none
  slackSeen : List Nat := []
  limPast   : List (Nat × Nat) := []
  stackDc   : KV Int := []
  stackBase : KV Nat := []   -- base refresh interval in force by stack, ns (R190)
  smbAddr   : Nat := 0
  testMode  : Bool := false
deriving DecidableEq, Repr

/-- Why the node stops with a fault. No meaning of this model raises one: every command the spec describes completes.
The constructor stands for a state in which no further step is defined. -/
inductive Fault where
  /-- Raised by no step; kept so that the type has a name for a stop. Safe: a stop proves nothing about the node. -/
  | stopped
deriving DecidableEq, Repr

/-- Why a command is refused by the model. -/
inductive Refusal where
  /-- Raised by an arm of `exec` that has no meaning yet, with the command's mnemonic. Safe: nothing is claimed. -/
  | notModelled (mnemonic : String)
deriving DecidableEq, Repr

/-- The state of the node. -/
structure State where
  pending : List Instr := []           -- commands waiting, first in, first out
  time    : Word := 0                  -- local time reference (R39)
  free    : Nat := 0                   -- the model's own: next position of the free values
  regs    : KV Word := []              -- registers that differ from their reset value, by BAR0 offset (+ function * 2^26)
  ctrs    : KV Nat := []               -- statistics counters that differ from zero, by BAR0 offset (Table 3.14)
  owned   : List Nat := []             -- keys of RWL fields that the loaded image owns (R17, R75)
  winReg  : KV Word := []              -- window words (MSI-X table, PRT_WIN_STATUS bits), by partition * 2^20 + offset
  queues  : KV Queue := []             -- queue pairs, by partition * 64 + queue
  recs    : KV Rec := []               -- admission records, by number
  nextRec : Nat := 0                   -- next admission record number
  fetchNo : Nat := 0                   -- order of fetch
  ctxs    : KV Ctx := []               -- context copies, by context ID
  parts   : KV Part := []              -- partitions
  shares  : KV ArrShare := []          -- array sharing, by array
  vfEn    : List Bool := [false, false]  -- VF Enable of each port
  numVfs  : List Nat := [0, 0]         -- NumVFs of each port
  out     : List HostOut := []         -- host-port traffic, oldest first
  mem     : MemSys := {}
  fab     : Fab := {}
  flt     : Faults := {}
  log     : List LogRec := []          -- the logbook, oldest first
  sels    : KV SelUnit := []           -- selection units, by cluster * 2 + u
  results : List SelResult := []       -- closed lists, oldest first
  bank    : KV BankCh := []            -- Tier A channels
  tokens  : List BankToken := []       -- bank tokens returned, oldest first
  corpora : KV Corpus := []            -- collections, by partition
  builds  : KV Build := []             -- builds and imports, by admission record
  queries : KV Query := []             -- queries, by admission record
  arrays  : KV ArrUnit := []
  atokens : List ArrToken := []        -- array tokens returned, oldest first
  models  : KV Binding := []           -- bound models, by partition * 256 + slot
  oldModels : List (Nat × Binding) := []   -- windows of former bindings not yet freed, with their partition
  arrWork : List (Nat × Nat) := []     -- array work queued: partition and admission record
  trims   : KV TrimUnit := []          -- trim loop units that differ from their defaults, by loop * 512 + unit
  flash   : Flash := {}                -- flash translation layer
  emb     : Emb := {}                  -- embedding tables
  load    : Option Load := none        -- image load under way
  sec     : Sec := {}                  -- measured-object log, keys, die status
  cal     : KV Int := []               -- user calibration offsets that differ from zero, by item (R436)
  margins : KV (Nat × Nat × Nat) := [] -- read and write eye width and instant of measurement, by tier * 256 + channel (R428)
  smb     : List SmbMsg := []          -- messages answered on SMBus, oldest first
  board   : Board := {}
deriving DecidableEq, Repr

/-- The machine right after reset. -/
def State.reset : State := {}

end Sys2Proof.Machine
end

