-- ==== Sys2Proof/Machine/Access.lean ====
section
/-! DEFINITION. Access to the parts of the state: registers and their fields, counters, partitions, queues, admission
records, contexts, links. Every read and write of a register or counter goes through here. -/

namespace Sys2Proof.Machine

/-- The local time reference as a number of ns (R39). Every die's follower copy is taken to equal it, a skew of zero where R40 allows 8 ns
(DESIGN CHOICE, log entry 44). -/
def State.now (s : State) : Nat := s.time.toNat

/-! ### Parts of the state: each put in place of the one before -/

def State.putTime (s : State) (v : Word) : State := { s with time := v }
def State.putFree (s : State) (v : Nat) : State := { s with free := v }
def State.putRegs (s : State) (v : KV Word) : State := { s with regs := v }
def State.putCtrs (s : State) (v : KV Nat) : State := { s with ctrs := v }
def State.putOwned (s : State) (v : List Nat) : State := { s with owned := v }
def State.putWinReg (s : State) (v : KV Word) : State := { s with winReg := v }
def State.putQueues (s : State) (v : KV Queue) : State := { s with queues := v }
def State.putRecs (s : State) (v : KV Rec) : State := { s with recs := v }
def State.putNextRec (s : State) (v : Nat) : State := { s with nextRec := v }
def State.putFetchNo (s : State) (v : Nat) : State := { s with fetchNo := v }
def State.putCtxs (s : State) (v : KV Ctx) : State := { s with ctxs := v }
def State.putParts (s : State) (v : KV Part) : State := { s with parts := v }
def State.putShares (s : State) (v : KV ArrShare) : State := { s with shares := v }
def State.putVfEn (s : State) (v : List Bool) : State := { s with vfEn := v }
def State.putNumVfs (s : State) (v : List Nat) : State := { s with numVfs := v }
def State.putOut (s : State) (v : List HostOut) : State := { s with out := v }
def State.putMem (s : State) (v : MemSys) : State := { s with mem := v }
def State.putFab (s : State) (v : Fab) : State := { s with fab := v }
def State.putFlt (s : State) (v : Faults) : State := { s with flt := v }
def State.putLog (s : State) (v : List LogRec) : State := { s with log := v }
def State.putSels (s : State) (v : KV SelUnit) : State := { s with sels := v }
def State.putResults (s : State) (v : List SelResult) : State := { s with results := v }
def State.putBank (s : State) (v : KV BankCh) : State := { s with bank := v }
def State.putTokens (s : State) (v : List BankToken) : State := { s with tokens := v }
def State.putCorpora (s : State) (v : KV Corpus) : State := { s with corpora := v }
def State.putBuilds (s : State) (v : KV Build) : State := { s with builds := v }
def State.putQueries (s : State) (v : KV Query) : State := { s with queries := v }
def State.putArrays (s : State) (v : KV ArrUnit) : State := { s with arrays := v }
def State.putAtokens (s : State) (v : List ArrToken) : State := { s with atokens := v }
def State.putModels (s : State) (v : KV Binding) : State := { s with models := v }
def State.putOldModels (s : State) (v : List (Nat × Binding)) : State := { s with oldModels := v }
def State.putArrWork (s : State) (v : List (Nat × Nat)) : State := { s with arrWork := v }
def State.putTrims (s : State) (v : KV TrimUnit) : State := { s with trims := v }
def State.putFlash (s : State) (v : Flash) : State := { s with flash := v }
def State.putEmb (s : State) (v : Emb) : State := { s with emb := v }
def State.putLoad (s : State) (v : Option Load) : State := { s with load := v }
def State.putSec (s : State) (v : Sec) : State := { s with sec := v }
def State.putCal (s : State) (v : KV Int) : State := { s with cal := v }
def State.putMargins (s : State) (v : KV (Nat × Nat × Nat)) : State := { s with margins := v }
def State.putSmb (s : State) (v : List SmbMsg) : State := { s with smb := v }
def State.putBoard (s : State) (v : Board) : State := { s with board := v }

/-! ### Registers -/

/-- The word a register holds: what was put there, or its reset value. -/
def State.reg (s : State) (off : Nat) : Word := (kvGet? off s.regs).getD (regDefault off)

/-- Put a word into a register; a register at its reset value is not listed. -/
def State.setReg (s : State) (off : Nat) (w : Word) : State :=
  s.putRegs (if w = regDefault off then kvDel off s.regs else kvPut off w s.regs)

/-- The value of a field of a register. -/
def State.fld (s : State) (off : Nat) (f : Fld) : Nat := f.get (s.reg off)

/-- Put a value into a field of a register. -/
def State.setFld (s : State) (off : Nat) (f : Fld) (v : Nat) : State := s.setReg off (f.put v (s.reg off))

/-- The key of a register that exists once for each physical function (R484). -/
def pfKey (pf off : Nat) : Nat := off + pf * 0x4000000

/-- The word of a per-function register: its own copy, or the reset value. -/
def State.regPf (s : State) (pf off : Nat) : Word := (kvGet? (pfKey pf off) s.regs).getD (regDefault off)

/-- Put a word into a per-function register. -/
def State.setRegPf (s : State) (pf off : Nat) (w : Word) : State :=
  s.putRegs (if w = regDefault off then kvDel (pfKey pf off) s.regs else kvPut (pfKey pf off) w s.regs)

/-- The value of a field of a per-function register. -/
def State.fldPf (s : State) (pf off : Nat) (f : Fld) : Nat := f.get (s.regPf pf off)

/-- Put a value into a field of a per-function register. -/
def State.setFldPf (s : State) (pf off : Nat) (f : Fld) (v : Nat) : State := s.setRegPf pf off (f.put v (s.regPf pf off))

/-- The value of a counter (0 where none is listed). -/
def State.ctr (s : State) (off : Nat) : Nat := kvGetD 0 off s.ctrs

/-- Put a value into a counter; a counter at zero is not listed. -/
def State.setCtr (s : State) (off v : Nat) : State :=
  s.putCtrs (if v = 0 then kvDel off s.ctrs else kvPut off v s.ctrs)

/-! ### Partitions -/

/-- What the node holds of partition `p`. -/
def State.part (s : State) (p : Nat) : Part := kvGetD {} p s.parts

/-- Change partition `p`. -/
def State.modPart (s : State) (p : Nat) (f : Part → Part) : State := s.putParts (kvPut p (f (s.part p)) s.parts)

/-- The fixed configuration of partitions 0 and 32 while no image configures them (R492): one queue, one vector, any
stream; their function is that of their host port. -/
def fixedCfg (p : Nat) : PartCfg := { port := if p = 32 then 1 else 0 }

/-- The configuration of partition `p`: the image's, or the fixed one of R492. -/
def State.pcfg (s : State) (p : Nat) : PartCfg := (s.part p).cfg.getD (fixedCfg p)

/-- Whether an image configures partition `p`. -/
def State.configured (s : State) (p : Nat) : Bool := (s.part p).cfg.isSome

/-- Partition states (Table 3.2). -/
def stUnconfigured : Nat := 0
def stHeld : Nat := 1
def stReady : Nat := 2
def stQuiescing : Nat := 3
def stQuiesced : Nat := 4
def stResetting : Nat := 5
def stLoading : Nat := 6

/-- The state of partition `p` (R88). -/
def State.pstate (s : State) (p : Nat) : Nat := s.fld (rPrtStatus p) fPrtStatus_STATE

/-- Put partition `p` into a state. -/
def State.setPstate (s : State) (p st : Nat) : State := s.setFld (rPrtStatus p) fPrtStatus_STATE st

/-- The reset generation of partition `p` (R98, wraps modulo 2^16). -/
def State.resetGen (s : State) (p : Nat) : Nat := s.fld (rPrtStatus p) fPrtStatus_RESET_GEN

/-- Whether host commands of the partition may be fetched and requests admitted: READY, or one of partitions 0 and 32
without configuration (R492), on a node that has not stopped (R407). -/
def State.serving (s : State) (p : Nat) : Bool :=
  !s.flt.stopped && (s.pstate p == stReady || (!s.configured p && s.pstate p == stUnconfigured && (p == 0 || p == 32)))

/-- Whether boot has ended (R441). -/
def State.isReady (s : State) : Bool := s.fld rNodeStatus fNodeStatus_READY == 1

/-- Number of submission queues of partition `p` (R113, R492); 0 for an unconfigured virtual function. -/
def State.sqCount (s : State) (p : Nat) : Nat :=
  if s.configured p || p == 0 || p == 32 then (s.pcfg p).sqCount else 0

/-- Whether the host function of partition `p` is enabled (R87). -/
def State.funcEnabled (s : State) (p : Nat) : Bool :=
  let c := s.pcfg p
  c.vf == 0 || ((s.vfEn.getD c.port false) && decide (c.vf ≤ s.numVfs.getD c.port 0))

/-! ### Queues, admission records, contexts -/

/-- Key of queue `q` of partition `p`. -/
def qKey (p q : Nat) : Nat := p * 64 + q

/-- Queue pair `q` of partition `p`. -/
def State.queue (s : State) (p q : Nat) : Queue := kvGetD {} (qKey p q) s.queues

/-- Change queue pair `q` of partition `p`. -/
def State.modQueue (s : State) (p q : Nat) (f : Queue → Queue) : State :=
  s.putQueues (kvPut (qKey p q) (f (s.queue p q)) s.queues)

/-- Fields of `HIF_Q_CFG` (Table 4.12). -/
def fCfgAggTime : Fld := ⟨39, 32⟩
def fCfgAggCount : Fld := ⟨31, 24⟩
def fCfgVector : Fld := ⟨21, 16⟩
def fCfgCqLog : Fld := ⟨11, 8⟩
def fCfgSqLog : Fld := ⟨7, 4⟩
def fCfgEnable : Fld := ⟨0, 0⟩

def Queue.enabled (q : Queue) : Bool := fCfgEnable.get q.cfg == 1
def Queue.sqSize (q : Queue) : Nat := 2 ^ fCfgSqLog.get q.cfg
def Queue.cqSize (q : Queue) : Nat := 2 ^ fCfgCqLog.get q.cfg

/-- `HIF_Q_STATUS.ACTIVE`: enabled, or fetched commands still lack completions (Table 4.13); every fetched command
holds a reserved completion slot (R115). -/
def Queue.active (q : Queue) : Bool := q.enabled || decide (0 < q.reserved)

/-- Whether an ORDERED command of a queue waits for earlier commands of the queue: admitted and held, or still in its staging slot (R132). -/
def State.waitOrdered (s : State) (p q : Nat) : Bool :=
  s.recs.any (fun r => r.2.part == p && r.2.q == q && r.2.fab.isNone && (r.2.phase == .heldOrdered || (match (s.queue p q).staged with
    | some g => g.cmd.cflags % 2 == 1 && decide (r.2.order < g.order)
    | none => false)))

/-- The admission record of a host request, by partition, queue and command identifier. -/
def State.recOf (s : State) (p q cid : Nat) : Option (Nat × Rec) :=
  s.recs.find? (fun x => x.2.part == p && x.2.q == q && x.2.cmd.cid == cid && x.2.fab.isNone)

/-- Whether a long operation waits IDLE for its turn to run (R136). -/
def Rec.isIdle (r : Rec) : Bool := match r.long with | some l => !l.running | none => false

/-- A host request that may execute now: admitted, not held by ORDERED, its claims granted, not begun, with opcode `op`; a long operation
also waits until it is RUNNING (R136). -/
def State.readyRec (s : State) (p q cid op : Nat) : Option (Nat × Rec) :=
  match s.recOf p q cid with
  | some (rid, r) => if r.phase = .ready ∧ r.cmd.opcode = op ∧ r.isIdle = false then some (rid, r) else none
  | none => none

/-- A host request that has been admitted and may take effect, a long operation also while it is IDLE: what its chapter has happen at admission. -/
def State.admittedRec (s : State) (p q cid op : Nat) : Option (Nat × Rec) :=
  match s.recOf p q cid with
  | some (rid, r) => if r.phase = .ready ∧ r.cmd.opcode = op then some (rid, r) else none
  | none => none

/-- A host request under way with opcode `op`. -/
def State.runningRec (s : State) (p q cid op : Nat) : Option (Nat × Rec) :=
  match s.recOf p q cid with
  | some (rid, r) => if r.phase = .running ∧ r.cmd.opcode = op then some (rid, r) else none
  | none => none

/-- Change admission record `rid`, if it is there. -/
def State.modRec (s : State) (rid : Nat) (f : Rec → Rec) : State := s.putRecs (kvUpd rid f s.recs)

/-- The pool of a context ID: bit 14 (R97). -/
def ctxPool (id : Nat) : Nat := id / 16384

/-- Contexts of partition `p` (any partition where `none`) in pool `g`, every copy counted. -/
def State.ctxCount (s : State) (p : Option Nat) (g : Nat) : Nat :=
  (s.ctxs.filter (fun c => ctxPool c.1 == g && (match p with | none => true | some p => c.2.part == p))).length

/-- Change the memory system. -/
def State.modMem (s : State) (f : MemSys → MemSys) : State := s.putMem (f s.mem)

/-- Change the fabric. -/
def State.modFab (s : State) (f : Fab → Fab) : State := s.putFab (f s.fab)

/-- Change the fault state. -/
def State.modFlt (s : State) (f : Faults → Faults) : State := s.putFlt (f s.flt)

/-- Array `a`'s sharing state. -/
def State.share (s : State) (a : Nat) : ArrShare := kvGetD {} a s.shares

/-- Change array `a`'s sharing state. -/
def State.modShare (s : State) (a : Nat) (f : ArrShare → ArrShare) : State :=
  s.putShares (kvPut a (f (s.share a)) s.shares)

/-- The next free value: the opaque word at the free-value counter, and the state with the counter advanced. -/
def State.fresh (s : State) : Word × State := (Config.freeWord s.free, (s.putFree (s.free + 1)))

/-! ### Fractions -/

/-- A fraction in lowest terms. -/
def Frac.mk' (n d : Nat) : Frac :=
  let g := Nat.gcd n d
  if g = 0 then ⟨0, 1⟩ else ⟨n / g, d / g⟩

def Frac.zero : Frac := ⟨0, 1⟩
def Frac.add (a b : Frac) : Frac := Frac.mk' (a.num * b.den + b.num * a.den) (a.den * b.den)
def Frac.lt (a b : Frac) : Bool := decide (a.num * b.den < b.num * a.den)
def Frac.max (a b : Frac) : Frac := if Frac.lt a b then b else a

/-! ### Units of Table 0.6 and fenced units -/

/-- Key of unit `n` of kind `k` (Table 16.6). -/
def unitKey (k n : Nat) : Nat := k * 4096 + n

/-- The record of a fenceable unit. -/
def State.funit (s : State) (k n : Nat) : FUnit := kvGetD {} (unitKey k n) s.flt.units

/-- Whether a unit is fenced. -/
def State.isFenced (s : State) (k n : Nat) : Bool := (s.funit k n).fenced

/-- Change the record of a unit. -/
def State.modUnit (s : State) (k n : Nat) (f : FUnit → FUnit) : State :=
  s.modFlt (fun t => { t with units := kvPut (unitKey k n) (f (s.funit k n)) t.units })

/-! ### Links -/

/-- Link whose first lane is `l`. -/
def State.link? (s : State) (l : Nat) : Option Link := kvGet? l s.fab.links

/-- Change the link whose first lane is `l`, if it exists. -/
def State.modLink (s : State) (l : Nat) (f : Link → Link) : State :=
  s.modFab (fun x => { x with links := kvUpd l f x.links })

/-- The port of a link's first lane. -/
def lanePort (l : Nat) : Nat := l / 8

/-- The link ID of R349 of the link whose first lane is `l` and whose width is `w`: port in [7:3], link index in [2:0]. -/
def linkId (l w : Nat) : Nat := (l / 8) * 8 + (l % 8) / (if w = 0 then 1 else w)

/-- Whether a link is up (state up or reduced width). -/
def Link.isUp (x : Link) : Bool := x.state == 3 || x.state == 4

/-- This node's fabric ID, 0 when it has none. -/
def State.nodeId (s : State) : Nat := s.fld rFabStatus fFabStatus_NODE_ID

/-- Whether a partition has clusters and every one of them is fenced, so that what needs its cores ends with `ABORTED_FENCE` (R404). -/
def State.clustersGone (s : State) (p : Nat) : Bool :=
  (s.pcfg p).clusterMask != 0 && (List.range 8).all (fun n => !((s.pcfg p).clusterMask / 2 ^ n % 2 == 1) || s.isFenced 4 n)

/-! ### Byte lists -/

/-- The little-endian number of a byte list (R11). -/
def leNat : List Byte → Nat
  | [] => 0
  | b :: bs => b.toNat + 256 * leNat bs

/-- `n` little-endian bytes of a number. -/
def leBytes : Nat → Nat → List Byte
  | 0, _ => []
  | n + 1, v => BitVec.ofNat 8 v :: leBytes n (v / 256)

/-- The field of `n` bytes at offset `o` of a byte list, as a number. -/
def fieldAt (bs : List Byte) (o n : Nat) : Nat := leNat ((bs.drop o).take n)

/-- The signed value of a field of `n` bytes. -/
def signedOf (bits v : Nat) : Int := if v < 2 ^ (bits - 1) then (v : Int) else (v : Int) - (2 ^ bits : Nat)

/-- The `bits`-bit two's complement pattern of a number. -/
def unsignedOf (bits : Nat) (z : Int) : Nat := (z % (2 ^ bits : Nat)).toNat

/-- Whether every byte of a field is zero. -/
def zeroAt (bs : List Byte) (o n : Nat) : Bool := ((bs.drop o).take n).all (fun b => b == 0)

/-- A bit of a number. -/
def bitOf (v i : Nat) : Bool := v / 2 ^ i % 2 == 1

/-! ### Trim loop units and calibration (Table 17.1, R436) -/

/-- Number of units of a trim loop (Table 2.4). -/
def trimUnits (loop : Nat) : Nat := [14, 272, 8, 64, 64].getD loop 0

/-- The factory limits of a loop. -/
def trimFactory (loop : Nat) : Int × Int := [(550, 850), (40, 1000), (1000, 2000), (50, 950), (500, 8000)].getD loop (0, 0)

/-- Items of the factory record (Table 17.3). -/
def calItem (i : Nat) : Bool := decide (i ≤ 13 ∨ (16 ≤ i ∧ i ≤ 301))

/-- The user offset of an item. -/
def State.calU (s : State) (i : Nat) : Int := kvGetD 0 i s.cal

/-- The effective value of an item with user offset `u`: F + U within its clamp (R436). -/
def calEffective (i : Nat) (u : Int) : Int := max (Config.calL i) (min (Config.calH i) (Config.calF i + u))

/-- Whether the clamp acts. -/
def calClamped (i : Nat) (u : Int) : Bool := decide (Config.calF i + u < Config.calL i ∨ Config.calH i < Config.calF i + u)

/-- The base receiver setting of lane `unit` of loop 1 with user offset `u`: items 16 to 287, within the steps 0 to 31 that a setting has
(Tables 14.18, 17.3). -/
def baseEq (unit : Nat) (u : Int) : Int := max 0 (min 31 (calEffective (16 + unit) u))

/-- A unit as it stands without an image and before any action: the defaults of Table 17.1, and the factory trained output of loops 0 to 2
(R415, R419); a voltage lies from 550 to 850 mV (R36), and a lane's receiver setting is its base (Table 17.3). -/
def trimDefault (loop unit : Nat) : TrimUnit :=
  match loop with
  | 0 => { target := 550, gain := 256, lo := 550, hi := 750, output := max 550 (min 850 (Config.trained 0 unit)) }
  | 1 => { target := 120, gain := 256, lo := 60, hi := 400, output := baseEq unit 0 }
  | 2 => { target := 1000, gain := 512, lo := 1000, hi := 2000, output := Config.trained 2 unit }
  | 3 => { target := 500, gain := 256, lo := 450, hi := 550, output := 0 }
  | _ => { target := 1250, gain := 256, lo := 900, hi := 2000, output := 0 }

/-- A sensor's reading after calibration: the effective offset of its item is added (R436). -/
def State.calibrated (s : State) (item : Nat) (raw : Int) : Int := raw + calEffective item (s.calU item)

/-- A unit of a trim loop. -/
def State.trim (s : State) (loop unit : Nat) : TrimUnit := kvGetD (trimDefault loop unit) (loop * 512 + unit) s.trims

/-- Change a unit of a trim loop. -/
def State.modTrim (s : State) (loop unit : Nat) (f : TrimUnit → TrimUnit) : State :=
  s.putTrims (kvPut (loop * 512 + unit) (f (s.trim loop unit)) s.trims)

end Sys2Proof.Machine
end

