-- ==== Sys2Proof/Machine/Num.lean ====
section
/-! DEFINITION. Number formats (R228, R229) and IEEE 754 arithmetic with one round-to-nearest-even at each operation:
exact dyadic values, rounding to a format, decoding and encoding of every element type, requantisation (R235). The bits
of a NaN that arithmetic produces are free (Config.nanBits): R235 says only that they are "the bits the arithmetic
produced". -/

namespace Sys2Proof.Machine

/-- A floating-point value: a NaN with its fp32 bits, an infinity, or sign, magnitude and exponent (`m · 2^e`, a zero
keeps its sign). -/
inductive Num where
  | nan (bits : Nat)
  | inf (neg : Bool)
  | fin (neg : Bool) (m : Nat) (e : Int)
deriving DecidableEq, Repr

/-- Number of bits of a number. -/
def bitLen (n : Nat) : Nat := if n = 0 then 0 else Nat.log2 n + 1

/-- `m · 2^k` rounded half to even to an integer; `k` may be negative. -/
def shiftRne (m : Nat) (k : Int) : Nat :=
  if 0 ≤ k then m * 2 ^ k.toNat
  else
    let d := (-k).toNat
    if bitLen m + 1 < d then 0 else
    let q := m / 2 ^ d
    let r := m % 2 ^ d
    let half := 2 ^ (d - 1)
    if half < r ∨ (r = half ∧ q % 2 = 1) then q + 1 else q

/-- A binary format: precision in bits, exponent of the last place of subnormals, exponent of the last place of the
largest binade. -/
structure Fmt where
  p    : Nat
  emin : Int
  emax : Int
deriving DecidableEq, Repr

def fmt32 : Fmt := ⟨24, -149, 104⟩
def fmt64 : Fmt := ⟨53, -1074, 971⟩
def fmtBf16 : Fmt := ⟨8, -133, 120⟩
def fmtE5M2 : Fmt := ⟨3, -16, 13⟩
def fmtE4M3 : Fmt := ⟨4, -9, 5⟩

/-- Round a finite value to a format: last-place exponent and significand; a significand that rounds up to `2^p` moves
to the next binade. Overflow shows as an exponent above `emax`. -/
def Fmt.roundFin (f : Fmt) (m : Nat) (e : Int) : Nat × Int :=
  if m = 0 then (0, f.emin) else
  let t := max (e + (bitLen m : Int) - (f.p : Int)) f.emin
  let q := shiftRne m (e - t)
  if q = 2 ^ f.p then (2 ^ (f.p - 1), t + 1) else (q, t)

/-- Round a value to a format, overflow giving an infinity (IEEE 754, round to nearest, ties to even). -/
def Num.round (f : Fmt) : Num → Num
  | .fin s m e => let r := f.roundFin m e; if f.emax < r.2 then .inf s else .fin s r.1 r.2
  | x => x

/-- Zero. -/
def Num.zero : Num := .fin false 0 0

/-- The value of an integer. -/
def Num.ofInt (z : Int) : Num := .fin (decide (z < 0)) z.natAbs 0

def Num.isNan : Num → Bool | .nan _ => true | _ => false
def Num.isZero : Num → Bool | .fin _ 0 _ => true | _ => false
def Num.sign : Num → Bool | .nan b => bitOf b 31 | .inf s => s | .fin s _ _ => s

/-- A NaN number as it takes part in an operation. -/
def Num.seed : Num → Nat
  | .nan b => b
  | .inf s => if s then 2 else 1
  | .fin s m e => 3 + 4 * (m * 4096 + (e + 2048).toNat % 4096) + (if s then 2 else 0)

/-- The NaN that an operation on two values produces. -/
def Num.mkNan (a b : Num) : Num := .nan (Config.nanBits a.seed b.seed).toNat

/-- Signed significand of a finite value at exponent `e0` (at most its own exponent). -/
def sigAt (s : Bool) (m : Nat) (e e0 : Int) : Int :=
  let v : Int := ((m * 2 ^ (e - e0).toNat : Nat) : Int)
  if s then -v else v

/-- Exact sum; a zero sum is +0 unless both are −0 (round to nearest). -/
def Num.addExact (a b : Num) : Num :=
  match a, b with
  | .fin s m e, .fin t n f =>
    if m = 0 ∧ n = 0 then .fin (s && t) 0 0
    else if m = 0 then b else if n = 0 then a else
    let e0 := min e f
    let z := sigAt s m e e0 + sigAt t n f e0
    .fin (decide (z < 0)) z.natAbs e0
  | .inf s, .inf t => if s = t then .inf s else Num.mkNan a b
  | .inf s, .fin _ _ _ => .inf s
  | .fin _ _ _, .inf t => .inf t
  | _, _ => Num.mkNan a b

/-- Exact product; ∞ × 0 is NaN (R230). -/
def Num.mulExact (a b : Num) : Num :=
  match a, b with
  | .fin s m e, .fin t n f => .fin (s != t) (m * n) (e + f)
  | .inf s, .inf t => .inf (s != t)
  | .inf s, .fin t n _ => if n = 0 then Num.mkNan a b else .inf (s != t)
  | .fin s m _, .inf t => if m = 0 then Num.mkNan a b else .inf (s != t)
  | _, _ => Num.mkNan a b

def Num.neg : Num → Num
  | .nan b => .nan b
  | .inf s => .inf (!s)
  | .fin s m e => .fin (!s) m e

def Num.abs : Num → Num
  | .nan b => .nan b
  | .inf _ => .inf false
  | .fin _ m e => .fin false m e

/-- Multiply by a power of two, exactly. -/
def Num.scale (k : Int) : Num → Num
  | .fin s m e => .fin s m (e + k)
  | x => x

/-- Sum, product, difference and fused multiply-add, each with one rounding to a format. -/
def Num.add (f : Fmt) (a b : Num) : Num := (Num.addExact a b).round f
def Num.sub (f : Fmt) (a b : Num) : Num := Num.add f a b.neg
def Num.mul (f : Fmt) (a b : Num) : Num := (Num.mulExact a b).round f
def Num.fma (f : Fmt) (a b c : Num) : Num := (Num.addExact (Num.mulExact a b) c).round f

/-- Quotient with one rounding: enough quotient bits and a sticky bit. -/
def Num.div (f : Fmt) (a b : Num) : Num :=
  match a, b with
  | .fin s m e, .fin t n g =>
    if n = 0 then (if m = 0 then Num.mkNan a b else .inf (s != t))
    else
      let k := f.p + 4 + bitLen n
      let x := m * 2 ^ k
      let q := 2 * (x / n) + (if x % n = 0 then 0 else 1)
      (Num.fin (s != t) q (e - g - (k : Int) - 1)).round f
  | .inf s, .fin t _ _ => .inf (s != t)
  | .fin s _ _, .inf t => .fin (s != t) 0 0
  | _, _ => Num.mkNan a b

/-- Integer square root by `n` steps of Newton's method from above. -/
def isqrtGo (m : Nat) : Nat → Nat → Nat
  | 0, x => x
  | n + 1, x => let y := (x + m / x) / 2; if y < x then isqrtGo m n y else x

/-- Integer square root. -/
def isqrt (m : Nat) : Nat := if m = 0 then 0 else isqrtGo m 300 (2 ^ ((bitLen m + 1) / 2))

/-- Square root with one rounding. -/
def Num.sqrt (f : Fmt) (a : Num) : Num :=
  match a with
  | .fin s m e =>
    if m = 0 then a else if s then Num.mkNan a a
    else
      let k : Nat := 2 * f.p + 6 + (if (e - (2 * f.p + 6 : Nat)) % 2 = 0 then 0 else 1)
      let x := m * 2 ^ k
      let r := isqrt x
      (Num.fin false (2 * r + (if r * r = x then 0 else 1)) ((e - (k : Int)) / 2 - 1)).round f
  | .inf s => if s then Num.mkNan a a else a
  | x => Num.mkNan x x

/-- Whether a value is strictly below another; false where either is NaN; −0 and +0 are equal (R249). -/
def Num.lt (a b : Num) : Bool :=
  match a, b with
  | .fin s m e, .fin t n f => let e0 := min e f; decide (sigAt s m e e0 < sigAt t n f e0)
  | .inf true, .fin _ _ _ => true
  | .inf true, .inf false => true
  | .fin _ _ _, .inf false => true
  | _, _ => false

/-- Whether two values compare equal; false where either is NaN. -/
def Num.eq (a b : Num) : Bool := !a.isNan && !b.isNan && !Num.lt a b && !Num.lt b a

/-- IEEE 754-2019 minimum and maximum (R232): a NaN operand gives NaN, −0 counts as below +0. -/
def Num.minimum (a b : Num) : Num :=
  if a.isNan || b.isNan then Num.mkNan a b
  else if Num.lt a b then a else if Num.lt b a then b else if a.sign then a else b

def Num.maximum (a b : Num) : Num :=
  if a.isNan || b.isNan then Num.mkNan a b
  else if Num.lt a b then b else if Num.lt b a then a else if a.sign then b else a

/-! ### IEEE encodings -/

/-- Decode a binary interchange pattern with `eb` exponent bits and `fb` fraction bits. -/
def decodeIeee (eb fb : Nat) (w : Nat) : Num :=
  let s := bitOf w (eb + fb)
  let ex := w / 2 ^ fb % 2 ^ eb
  let fr := w % 2 ^ fb
  let bias : Int := ((2 ^ (eb - 1) - 1 : Nat) : Int)
  if ex = 2 ^ eb - 1 then
    if fr = 0 then .inf s
    else .nan ((if s then 2 ^ 31 else 0) + 0x7F800000 + (if fb ≤ 23 then fr * 2 ^ (23 - fb) else 0x400000 + fr / 2 ^ (fb - 23)))
  else if ex = 0 then .fin s fr (1 - bias - (fb : Int))
  else .fin s (2 ^ fb + fr) ((ex : Int) - bias - (fb : Int))

/-- Encode a value that has been rounded to the format; a NaN gives `nanw`. -/
def encodeIeee (eb fb : Nat) (f : Fmt) (nanw : Nat → Nat) (x : Num) : Nat :=
  let sg := fun (s : Bool) => if s then 2 ^ (eb + fb) else 0
  match x with
  | .nan b => nanw b
  | .inf s => sg s + (2 ^ eb - 1) * 2 ^ fb
  | .fin s m e =>
    let r := f.roundFin m e
    if f.emax < r.2 then sg s + (2 ^ eb - 1) * 2 ^ fb
    else if r.1 < 2 ^ fb then sg s + r.1
    else sg s + (r.2 - f.emin + 1).toNat * 2 ^ fb + (r.1 - 2 ^ fb)

/-- The fp32 pattern of a NaN: sign and fraction of its bits, always a NaN. -/
def nan32 (b : Nat) : Nat := (b / 2 ^ 31 % 2) * 2 ^ 31 + 0x7F800000 + (if b % 2 ^ 23 = 0 then 0x400000 else b % 2 ^ 23)

def dec32 (w : Nat) : Num := decodeIeee 8 23 w
def enc32 (x : Num) : Nat := encodeIeee 8 23 fmt32 nan32 x
def dec64 (w : Nat) : Num := decodeIeee 11 52 w

/-- fp64 pattern; the fraction of a NaN is that of its fp32 bits at the top. -/
def enc64 (x : Num) : Nat :=
  encodeIeee 11 52 fmt64 (fun b => (b / 2 ^ 31 % 2) * 2 ^ 63 + 0x7FF * 2 ^ 52 + (nan32 b % 2 ^ 23) * 2 ^ 29) x

def decBf16 (w : Nat) : Num := decodeIeee 8 7 w
def decFp16 (w : Nat) : Num := decodeIeee 5 10 w
def decE5M2 (w : Nat) : Num := decodeIeee 5 2 w

/-- fp8 E4M3: no infinities; S.1111.111 is NaN (Table 8.2). -/
def decE4M3 (w : Nat) : Num :=
  let s := bitOf w 7
  let ex := w / 8 % 16
  let fr := w % 8
  if ex = 15 ∧ fr = 7 then .nan ((if s then 2 ^ 31 else 0) + 0x7FC00000)
  else if ex = 0 then .fin s fr (-9) else .fin s (8 + fr) ((ex : Int) - 10)

/-! ### Element types (Table 2.9, Table 8.2) -/

/-- Whether an element code is an integer type. -/
def elemIsInt (t : Nat) : Bool := t == 0 || t == 1 || t == 6 || t == 8

/-- Bits of one real component of an element. -/
def elemBits (t : Nat) : Nat := if t = 1 then 4 else if t = 0 ∨ t = 2 ∨ t = 3 ∨ t = 8 then 8 else 16

/-- Bits of an element, both parts of a complex one. -/
def elemSize (t : Nat) : Nat := if t = 7 ∨ t = 8 then 2 * elemBits t else elemBits t

/-- Decode one real component of a type from its code. -/
def decodeElem (t w : Nat) : Num :=
  if t = 2 then decE4M3 w else if t = 3 then decE5M2 w else if t = 4 ∨ t = 7 then decBf16 w
  else if t = 5 then decFp16 w else Num.ofInt (signedOf (elemBits t) w)

/-- Component `i` of a packed vector of a type: int4 packs two to a byte, low first (R223). -/
def elemAt (t : Nat) (bs : List Byte) (i : Nat) : Nat :=
  if t = 1 then ((bs.getD (i / 2) 0).toNat / (if i % 2 = 0 then 1 else 16)) % 16
  else fieldAt bs (i * (elemBits t / 8)) (elemBits t / 8)

/-! ### Requantisation (R235) -/

/-- Largest finite values of the narrow floating types. -/
def maxFinite (f : Fmt) (top : Nat) (s : Bool) : Num := .fin s top f.emax

/-- NaN to bf16: sign and the top seven fraction bits, made quiet. -/
def nanBf16 (b : Nat) : Nat := (b / 2 ^ 31 % 2) * 2 ^ 15 + 0x7F80 + ((nan32 b / 2 ^ 16 % 128) ||| 0x40)
/-- NaN to fp8 E5M2: sign and the top two fraction bits, made quiet. -/
def nanE5M2 (b : Nat) : Nat := (b / 2 ^ 31 % 2) * 128 + 0x7C + ((nan32 b / 2 ^ 21 % 4) ||| 2)

/-- Requantise to an OUT_TYPE (2 bf16, 3 int8, 4 int4, 5 E4M3, 6 E5M2) with zero point `oz`: the code and whether it
was clipped (Table 8.4). -/
def requant (t : Nat) (oz : Int) (v : Num) : Nat × Bool :=
  if t = 3 ∨ t = 4 then
    let bits := if t = 3 then 8 else 4
    let lo : Int := -((2 ^ (bits - 1) : Nat) : Int)
    let hi : Int := ((2 ^ (bits - 1) : Nat) : Int) - 1
    match v with
    | .nan _ => (unsignedOf bits oz, true)
    | .inf s => (unsignedOf bits (if s then lo else hi), true)
    | .fin s m e =>
      let q : Int := (shiftRne m e : Int)
      let z := (if s then -q else q) + oz
      if z < lo then (unsignedOf bits lo, true) else if hi < z then (unsignedOf bits hi, true) else (unsignedOf bits z, false)
  else if t = 5 then
    match v with
    | .nan b => ((b / 2 ^ 31 % 2) * 128 + 0x7F, false)
    | .inf s => ((if s then 128 else 0) + 0x7E, true)
    | .fin s m e =>
      let r := fmtE4M3.roundFin m e
      let sg := if s then 128 else 0
      if fmtE4M3.emax < r.2 ∨ (r.2 = fmtE4M3.emax ∧ 14 < r.1) then (sg + 0x7E, true)
      else if r.1 < 8 then (sg + r.1, false)
      else (sg + (r.2 - fmtE4M3.emin + 1).toNat * 8 + (r.1 - 8), false)
  else
    let f := if t = 6 then fmtE5M2 else fmtBf16
    let eb := if t = 6 then 5 else 8
    let fb := if t = 6 then 2 else 7
    match v with
    | .fin s m e =>
      let r := f.roundFin m e
      if f.emax < r.2 then (encodeIeee eb fb f (if t = 6 then nanE5M2 else nanBf16) (.fin s (2 ^ f.p - 1) f.emax), true)
      else (encodeIeee eb fb f (if t = 6 then nanE5M2 else nanBf16) v, false)
    | x => (encodeIeee eb fb f (if t = 6 then nanE5M2 else nanBf16) x, false)

end Sys2Proof.Machine
end

