-- ==== Sys2Proof/Machine/FlashMap.lean ====
section
/-! DEFINITION. The flash translation layer as data (spec/13): the population and its superblocks, capacities, and where a
mapped unit lies. -/

namespace Sys2Proof.Machine

/-! ### Population and superblocks (R329 to R331) -/

/-- Key of a block of a LUN. -/
def blockKey (lun b : Nat) : Nat := lun * 65536 + b

/-- The geometry, with nothing fitted as zero LUNs. -/
def Flash.geom (f : Flash) : FlashGeo := f.geo.getD { luns := 0, blocks := 0, pages := 0, rated := 0, bad := [], ok := false }

/-- What is kept of a block. -/
def Flash.blk (f : Flash) (lun b : Nat) : FBlock := kvGetD {} (blockKey lun b) f.blocks

/-- Factory-bad blocks of a LUN. -/
def Flash.badOf (f : Flash) (lun : Nat) : List Nat := (f.geom.bad.filter (fun x => x.1 == lun)).map (fun x => x.2)

/-- Whether a block is good: neither factory bad nor retired. -/
def Flash.good (f : Flash) (lun b : Nat) : Bool := decide (b < f.geom.blocks) && !(f.badOf lun).contains b && !(f.blk lun b).retired

/-- Superblocks that LUN index `u` forms at format: as many as the channel with the fewest good blocks has. -/
def Flash.formed (f : Flash) (u : Nat) : Nat :=
  (List.range 32).foldl (fun n m => min n (f.geom.blocks - (f.badOf (m * 32 + u)).length)) f.geom.blocks

/-- Key of superblock `b` of LUN index `u`. -/
def superKey (u b : Nat) : Nat := u * 65536 + b

/-- Superblocks of index `u` in service. -/
def Flash.service (f : Flash) (u : Nat) : Nat := f.formed u - (f.gone.filter (fun k => k / 65536 == u)).length

/-- The member block of a superblock on a channel: its own block, or the one that stands in for it (R330). -/
def Flash.member (f : Flash) (sb m : Nat) : Nat := (kvGet? (sb * 32 + m) f.subst).getD (sb % 65536)

/-- Whether a block is a member of a superblock in service. -/
def Flash.isMember (f : Flash) (lun b : Nat) : Bool :=
  let u := lun % 32
  let m := lun / 32
  (decide (b < f.formed u) && !f.gone.contains (superKey u b) && (kvGet? (superKey u b * 32 + m) f.subst).isNone) ||
  f.subst.any (fun x => x.2 == b && x.1 % 32 == m && x.1 / 32 / 65536 == u && !f.gone.contains (x.1 / 32))

/-- Good blocks of a LUN in no superblock. -/
def Flash.unassigned (f : Flash) (lun : Nat) : List Nat :=
  (List.range f.geom.blocks).filter (fun b => f.good lun b && !f.isMember lun b)

/-- Give every factory-bad block of a superblock an unassigned good block of its channel and LUN. -/
def Flash.standIns (f : Flash) : Flash :=
  f.geom.bad.foldl (fun (g : Flash) x =>
    if x.2 < g.formed (x.1 % 32) then match (g.unassigned x.1).find? (fun b => decide (g.formed (x.1 % 32) ≤ b)) with
      | some b => { g with subst := kvPut (superKey (x.1 % 32) x.2 * 32 + x.1 / 32) b g.subst }
      | none => g
    else g) f

/-- Members of a superblock of index `u` in service: 32 less the LUNs whose rebuild has ended (R330, R340). -/
def Flash.width (f : Flash) (u : Nat) : Nat := 32 - (f.out.filter (fun l => l % 32 == u)).length

/-- W in units (R331): data pages of the superblocks in service, less two superblocks for each LUN index. -/
def Flash.writable (f : Flash) : Nat :=
  (List.range f.geom.luns).foldl (fun n u => n + f.service u * (f.width u - 1) * f.geom.pages) 0 - 2 * f.geom.luns * 31 * f.geom.pages

/-- C in units for a spare of σ per mille (R331). -/
def Flash.capacityFor (f : Flash) (sigma : Nat) : Nat := f.writable * (1000 - sigma) / 1000

/-- C in units; zero before the media is formatted. -/
def Flash.c (f : Flash) : Nat := f.cap.getD 0

/-- Size of the map in GiB (R332). -/
def Flash.mapGib (f : Flash) : Nat := (f.c * 8 + 2 ^ 30 - 1) / 2 ^ 30

/-- The exported capacity is fixed for a spare setting (R331). -/
def Flash.format (f : Flash) (sigma : Nat) : Flash := { f with cap := some (f.capacityFor sigma), spare := f.writable - f.capacityFor sigma }

/-- LUNs that have failed: fenced or being rebuilt. -/
def Flash.lost (f : Flash) : List Nat := f.rebuild ++ f.out

/-- Data pages of a superblock. -/
def Flash.slots (f : Flash) (x : Super) : Nat := (x.chans.length - 1) * f.geom.pages

/-- The channel and page of a data page of a superblock (R330): stripe by stripe, leaving out the parity member. -/
def slotPlace (sb : Nat) (chans : List Nat) (slot : Nat) : Nat × Nat :=
  let d := chans.length - 1
  let p := slot / d
  let par := (sb % 65536 + p) % (d + 1)
  let i := slot % d
  (chans.getD (if i < par then i else i + 1) 0, p)

/-- The LUN and block that hold a mapped unit. -/
def Flash.placeOf (f : Flash) (key : Nat) : Option (Nat × Nat × Nat) :=
  match kvGet? key f.map with
  | none => none
  | some (sb, slot) => match kvGet? sb f.supers with
    | none => none
    | some x =>
      let (m, p) := slotPlace sb x.chans slot
      some (m * 32 + sb / 65536, f.member sb m, p)

/-- Whether the page of a mapped unit is lost, on a failed LUN or past every retry level, and whether its stripe has lost a second member, so that
parity cannot rebuild it (R338, R340). -/
def Flash.unitLoss (f : Flash) (key : Nat) : Nat :=
  match kvGet? key f.map with
  | none => 0
  | some (sb, slot) => match kvGet? sb f.supers with
    | none => 0
    | some x =>
      let d := x.chans.length - 1
      let dead := fun (m : Nat) => f.lost.contains (m * 32 + sb / 65536)
      let bad := f.badPages.filter (fun b => b.1 == sb && b.2 / d == slot / d && !dead (slotPlace sb x.chans b.2).1)
      if !dead (slotPlace sb x.chans slot).1 && !bad.contains (sb, slot) then 0
      else if 2 ≤ (x.chans.filter dead).length + bad.length then 2 else 1

/-- Units whose data lies in a superblock. -/
def Flash.unitsIn (f : Flash) (sb : Nat) : List Nat := (f.map.filter (fun x => x.2.1 == sb)).map (fun x => x.1)

/-- Superblocks in service, and those of them that are free. -/
def Flash.totalSupers (f : Flash) : Nat := (List.range f.geom.luns).foldl (fun n u => n + f.service u) 0
def Flash.freeSupers (f : Flash) : Nat := f.totalSupers - f.supers.length

/-- Erase count of a superblock. -/
def Flash.erases (f : Flash) (sb : Nat) : Nat := kvGetD 0 sb f.erased

/-- Whether new writes avoid the superblocks of a LUN index: one with a LUN being rebuilt (Table 13.2). Where every index has one, as with a single LUN
per channel, no other superblock could take the units, and none is avoided (DESIGN CHOICE, log entry 55). -/
def Flash.avoids (f : Flash) (u : Nat) : Bool :=
  let busy := fun (v : Nat) => f.rebuild.any (fun l => l % 32 == v)
  busy u && (List.range f.geom.luns).any (fun v => !busy v)

/-- The free superblock for host writes, the lowest erase count, or for relocation, the highest (R341); an index with a LUN
being rebuilt takes no new writes (Table 13.2). The lowest number on a tie. -/
def Flash.pickFree (f : Flash) (host : Bool) : Option Nat :=
  let us := (List.range f.geom.luns).filter (fun u => !f.avoids u)
  let cand := us.flatMap (fun u => ((List.range (f.formed u)).map (superKey u)).filter (fun k => !f.gone.contains k && (kvGet? k f.supers).isNone))
  cand.foldl (fun (best : Option Nat) k => match best with
    | none => some k
    | some b => if (host && f.erases k < f.erases b) || (!host && f.erases b < f.erases k) then some k else some b) none

/-- Members of a new superblock of an index. -/
def Flash.channels (f : Flash) (u : Nat) : List Nat := (List.range 32).filter (fun m => !f.lost.contains (m * 32 + u))

/-- The address that stands for a namespace's first byte: above the node address space. -/
def nsBase (key : Nat) : Nat := (key + 1) * 2 ^ 52

/-- The limit on mapped units of an object once the spare is worn out (R344). -/
def Flash.unitLimit (f : Flash) (size : Nat) : Nat := if f.writable < f.c then size * f.writable / f.c else size

end Sys2Proof.Machine
end

