-- ==== Sys2Proof/Machine/View.lean ====
section
/-! DEFINITION. Register reads: the registers whose value follows from other state (counts, selected units, the time),
and the word that a 64-bit read of any BAR0 offset returns (R15, R484, R487), live or from the drogue's copies (R414). -/

namespace Sys2Proof.Machine

/-! ### Tiers and quotas (R309, R312, R318) -/

/-- Tier of a node address: 0 A, 1 B, 2 P, 3 F, 4 a cluster buffer; `none` where no row of Table 12.1 holds it. -/
def tierOf (addr : Nat) : Option Nat :=
  if addr < 0x8000000000 then some 0
  else if 0xF000000000 ≤ addr ∧ addr < 0xF020000000 ∧ addr % 0x4000000 < 0x3000000 then some 4
  else if 0x10000000000 ≤ addr ∧ addr < 0x30000000000 then some 1
  else if 0x1000000000000 ≤ addr ∧ addr < 0x8000000000000 then some 2
  else if 0x8000000000000 ≤ addr ∧ addr < 0x10000000000000 then some 3
  else none

/-- The cluster whose buffer holds an address (R223). -/
def bufferOf (addr : Nat) : Option Nat := if tierOf addr = some 4 then some ((addr - 0xF000000000) / 2 ^ 26) else none

/-- Bytes of a partition's vector locator, in allocation units of Tier B: 24 for each live vector, each vector of an
unpublished segment and each reserved entry (R265, R267). -/
def State.locatorBytes (s : State) (p : Nat) : Nat :=
  let c := kvGetD {} p s.corpora
  let n := c.locator.length + c.locRes +
    (c.segs.filter (fun g => !g.2.delta && g.2.pub.isNone)).foldl (fun n g => n + g.2.vectors) 0 +
    (s.builds.filter (fun b => b.2.part == p)).foldl (fun n b => n + b.2.items.length) 0
  (24 * n + 65535) / 65536 * 65536

/-- Bytes of a partition's namespaces (R333). -/
def State.nsBytes (s : State) (p : Nat) : Nat := (s.flash.ns.filter (fun n => n.1 / 32 == p)).foldl (fun a n => a + 16384 * n.2.size) 0

/-- A partition's use of a tier: the sum of its allocations there (R312), with its vector locator in Tier B (R265) and its
namespaces in Tier F (R333). -/
def State.useOf (s : State) (p t : Nat) : Nat :=
  (if t = 1 then s.locatorBytes p else if t = 3 then s.nsBytes p else 0) + (s.mem.allocs.filter (fun a => a.2.part == some p && tierOf a.1 == some t)).foldl (fun n a => n + a.2.len) 0

/-- The composition that holds partition `p`. -/
def State.compOf (s : State) (p : Nat) : Option (Nat × Composition) :=
  s.mem.comps.find? (fun c => bitOf c.2.parts p)

/-- The effective quota of partition `p` in tier `t` (R318). -/
def State.quotaOf (s : State) (p t : Nat) : Nat :=
  let own := ((s.part p).cfg.map (fun c => c.quota.getD t 0)).getD 0
  match s.compOf p with
  | some (_, c) => ((c.quotas.find? (fun x => x.1 == p && x.2.1 == t)).map (fun x => x.2.2)).getD own
  | none => own

/-- A meter in its register unit: occupancies in 2^20 GiB-ns, the others as counted (Table 12.6). -/
def meterUnit (i v : Nat) : Nat :=
  let u := if 2 ≤ i ∧ i ≤ 5 then v / 2 ^ 50 else v
  if u < 2 ^ 64 then u else 2 ^ 64 - 1

/-! ### Token buckets (R385) -/

/-- A bucket filled to the present: tokens in 10^-9 byte, `rate` in bytes per second, `burst` in bytes. -/
def Bucket.fill (b : Bucket) (rate burst now : Nat) : Bucket :=
  let t := b.tokens + ((rate * (now - b.last) : Nat) : Int)
  let cap : Int := ((burst * 1000000000 : Nat) : Int)
  { tokens := if t < cap then t else cap, last := now }

/-- The shaper of a stream of partition `p` for an APPLY bit (R385). -/
def State.shaperOf (s : State) (p apply stream : Nat) : Option Shaper :=
  (s.pcfg p).shapers.find? (fun x => bitOf x.apply apply && decide (x.first ≤ stream ∧ stream < x.first + x.count))

/-- The partition a stream belongs to (R93). -/
def State.streamPart (s : State) (stream : Nat) : Option Nat :=
  (s.parts.find? (fun x => match x.2.cfg with
    | some c => decide (c.streamFirst ≤ stream ∧ stream < c.streamFirst + c.streamCount)
    | none => false)).map (fun x => x.1)

/-- A stream's bucket for an APPLY bit, full where nothing was taken yet, filled to the present. -/
def State.shaperBucket (s : State) (apply stream : Nat) (sh : Shaper) : Bucket :=
  (kvGetD { tokens := ((sh.burst * 1000000000 : Nat) : Int), last := s.now } (apply * 8192 + stream) s.fab.buckets).fill
    sh.rate sh.burst s.now

/-- Floor of a token count to whole bytes, saturating in 32 signed bits (Table 15.8). -/
def tokenBytes (t : Int) : Int := max (-2147483648) (min 2147483647 (t / 1000000000))

/-! ### Registers that follow from other state -/

/-- `HIF_Q_STATUS` of a queue (Table 4.13). -/
def State.qStatus (s : State) (p q : Nat) : Word :=
  let x := s.queue p q
  let st := s.pstate p
  packFields [(⟨45, 32⟩, x.sqHead), (⟨29, 16⟩, x.cqTail), (⟨4, 4⟩, x.cfgErr.toNat), (⟨3, 3⟩, x.dbErr.toNat),
    (⟨2, 2⟩, (s.waitOrdered p q).toNat), (⟨1, 1⟩, (st == stQuiescing || st == stQuiesced || st == stResetting || st == stLoading).toNat),
    (⟨0, 0⟩, x.active.toNat)]

/-- Bytes of an event record (Table 16.5). -/
def EvRec.bytes (e : EvRec) : List Byte :=
  leBytes 8 e.time ++ leBytes 4 e.seq ++ leBytes 1 e.cls ++ leBytes 1 e.source ++ leBytes 1 e.kind ++ leBytes 1 e.action ++
  leBytes 4 e.unit ++ leBytes 1 e.part ++ leBytes 1 e.eflags ++ leBytes 2 e.count ++ leBytes 8 e.detail

/-- The unread events of a physical function. -/
def State.ring (s : State) (pf : Nat) : List EvRec := if pf = 0 then s.flt.ring0 else s.flt.ring1

/-- The registers of block PRT that follow from other state. -/
def viewPrt (s : State) : KV Word :=
  (s.parts.map (fun x =>
    (rPrtStatus x.1, packFields [(fPrtStatus_RESET_GEN, s.resetGen x.1), (fPrtStatus_CTX_G1, s.ctxCount (some x.1) 1),
      (fPrtStatus_CTX_G0, s.ctxCount (some x.1) 0), (fPrtStatus_STATE, s.pstate x.1)]))) ++
  [0, 1].map (fun g => (rPrtPoolStatus g, packFields [(fPrtPoolStatus_FREE, 16384 - s.ctxCount none g),
    (fPrtPoolStatus_REBUILDING, s.fld (rPrtPoolStatus g) fPrtPoolStatus_REBUILDING)]))

/-- `HIF_Pp_Qq_STATUS` of every queue below its partition's SQ_COUNT (R487). -/
def viewHif (s : State) : KV Word :=
  (s.queues.filter (fun x => s.configured (x.1 / 64) && decide (x.1 % 64 < s.sqCount (x.1 / 64)))).map
    (fun x => (0x80000 + (x.1 / 64) * 0x200 + (x.1 % 64) * 8, s.qStatus (x.1 / 64) (x.1 % 64)))

/-- The registers of block MEM that follow from other state, for a physical function (R484). -/
def viewMem (s : State) (pf : Nat) : KV Word :=
  let ps := s.parts.map (fun x => x.1)
  let m := s.mem
  let id := s.fldPf pf rMemCsel fMemCsel_COMP_ID
  (rMemStatus, packFields [(fMemStatus_COMPOSITIONS, m.comps.length),
    (fMemStatus_WINDOWS, m.comps.foldl (fun n c => n + c.2.windows.length) 0), (fMemStatus_MIGRATING, m.migs.length),
    (fMemStatus_TENSORS, (m.tensors.filter (fun t => !t.2.dying && t.2.holder != .ring)).length)]) ::
  (ps.flatMap (fun p => [0, 1, 2, 3].map (fun t => (rMemPUse p t, BitVec.ofNat 64 (s.useOf p t))))) ++
  (ps.flatMap (fun p => [0, 1, 2, 3].map (fun t => (rMemPQuota p t, BitVec.ofNat 64 (s.quotaOf p t))))) ++
  (match kvGet? id m.comps with
   | none => []
   | some c =>
     [(rMemCstatus, packFields [(fMemCstatus_SAT, (c.meters.zipIdx.any (fun x => meterUnit x.2 x.1 == 2 ^ 64 - 1)).toNat),
        (fMemCstatus_WINDOWS, c.windows.length)]),
      (rMemCparts, BitVec.ofNat 64 c.parts)] ++
     (match c.windows[s.fldPf pf rMemCsel fMemCsel_WINDOW]? with
      | none => []
      | some w => [(rMemCwinStatus, packFields [(fMemCwinStatus_LENGTH_2MIB, w.len / 2097152),
          (fMemCwinStatus_WINDOW_ID, w.wid), (fMemCwinStatus_PEER_NODE, w.peer), (fMemCwinStatus_KIND, w.lend.toNat),
          (fMemCwinStatus_STATE, w.state)])]) ++
     ((kvGetD [] pf m.latch).zipIdx.map (fun x => (rMemCm x.2, BitVec.ofNat 64 x.1))))

/-- The registers of block SHP that follow from other state, for a physical function. -/
def viewShp (s : State) (pf : Nat) : KV Word :=
  let stream := s.fldPf pf rShpSsel fShpSsel_STREAM
  let apply := s.fldPf pf rShpSsel fShpSsel_APPLY
  (match (s.streamPart stream).bind (fun p => s.shaperOf p apply stream) with
   | none => [(rShpSstatus, packFields [(fShpSstatus_ELIGIBLE, 1)])]
   | some sh =>
     let b := s.shaperBucket apply stream sh
     [(rShpSstatus, packFields [(fShpSstatus_TOKENS, unsignedOf 32 (tokenBytes b.tokens)),
       (fShpSstatus_ELIGIBLE, (decide (0 ≤ b.tokens)).toNat), (fShpSstatus_SHAPED, 1)])]) ++
  s.fab.gates.map (fun g =>
    let unref := !s.configured g.2.list.ref
    (rShpGateStatus g.1, packFields [(fShpGateStatus_ELAPSED_NS, min 0xFFFFFFFF (s.now - g.2.restart)),
      (fShpGateStatus_UNREF, unref.toNat), (fShpGateStatus_ENTRY, g.2.entry),
      (fShpGateStatus_GATES, if unref then 0xFF else ((g.2.list.entries.getD g.2.entry (0xFF, 0)).1 / 2) * 2 + 1)]))

/-- The registers of blocks FLT and FAB that follow from other state, for a physical function. -/
def viewFlt (s : State) (pf : Nat) : KV Word :=
  let u := s.funit (s.fld rFltUnitCtl fFltUnitCtl_KIND) (s.fld rFltUnitCtl fFltUnitCtl_UNIT)
  [(rFltStatus, packFields [(fFltStatus_FENCED_UNITS, (s.flt.units.filter (fun x => x.2.fenced)).length),
     (fFltStatus_FATAL, s.fld rFltStatus fFltStatus_FATAL)]),
   (rFltUnitStatus, packFields [(fFltUnitStatus_FENCES, min 0xFFFF u.fences), (fFltUnitStatus_LOCKED_OUT, u.locked.toNat),
     (fFltUnitStatus_OP_FAILED, u.opFailed.toNat), (fFltUnitStatus_FENCED, u.fenced.toNat)]),
   (rFltEvtStatus, packFields [(fFltEvtStatus_LOST, s.fldPf pf rFltEvtStatus fFltEvtStatus_LOST),
     (fFltEvtStatus_UNREAD, (s.ring pf).length)])] ++
  (match s.ring pf with
   | [] => []
   | e :: _ => [0, 1, 2, 3].map (fun w => (rFltEvtData w, BitVec.ofNat 64 (leNat ((e.bytes.drop (8 * w)).take 8)))))

/-- The device identity (R364), and that of the anchor the node holds (R365). -/
def State.ident (s : State) : Nat := (s.reg rFabIdentityLo).toNat + (s.reg rFabIdentityHi).toNat * 2 ^ 64
def State.candIdent (s : State) : Nat := if s.fab.cand = 0 then s.ident else s.fab.cand

/-- Whether the fabric ports are enabled: the last boot step has been reached (Table 18.3) and FAB_CFG.ENABLE is 1. -/
def State.fabOn (s : State) : Bool := s.fld rNodeStatus fNodeStatus_BOOT_STAGE == 9 && s.fld rFabCfg fFabCfg_ENABLE == 1

/-- Whether this node is the anchor: its candidate is its own identity (R365), its ports being enabled. -/
def State.isAnchor (s : State) : Bool := s.fabOn && s.fab.cand == 0

/-- `FAB_STATUS.STATE` (Table 14.14). -/
def State.fabState (s : State) : Nat :=
  if !s.fabOn then 0 else if !s.fab.links.any (fun x => x.2.isUp) then 1
  else if (kvGet? s.nodeId s.fab.topo).isSome then 3 else if s.fab.topo.isEmpty then 2 else 4

/-- The fabric registers that follow from other state. -/
def viewFab (s : State) : KV Word :=
  (rFabStatus, fFabStatus_IS_ANCHOR.put s.isAnchor.toNat (fFabStatus_STATE.put s.fabState (s.reg rFabStatus))) ::
  (match kvGet? (s.fld rFabRtSel fFabRtSel_DEST) s.fab.routes with
   | none => []
   | some r => [(rFabRtEntry, packFields ([(fFabRtEntry_OVERRIDE, r.override.toNat), (fFabRtEntry_COUNT, r.links.length),
       (fFabRtEntry_DIST, r.dist), (fFabRtEntry_EGRESS, r.egress / 2 ^ (8 * r.links.length) * 2 ^ (8 * r.links.length))] ++
       (r.links.zipIdx.map (fun x => ((⟨8 * x.2 + 7, 8 * x.2⟩ : Fld), x.1)))))]) ++
  (match kvGet? (s.fld rFabSnapSel fFabSnapSel_LANE * 8 + s.fld rFabSnapSel fFabSnapSel_VC) s.fab.snapCh with
   | none => []
   | some c => [(rFabSnapCh, packFields [(fFabSnapCh_CLOSED, c.closed.toNat), (fFabSnapCh_LOST, c.lost.toNat),
       (fFabSnapCh_PACKETS, c.packets), (fFabSnapCh_FLITS, c.flits)])]) ++
  s.fab.links.map (fun x => (rFabLinkStatus x.1, packFields [(fFabLinkStatus_PEER_ID, x.2.peerId),
    (fFabLinkStatus_PEER_PORT, x.2.peerPort), (fFabLinkStatus_WIDTH, ((List.range 8).filter (bitOf x.2.lanesUp)).length),
    (fFabLinkStatus_LANES_UP, x.2.lanesUp), (fFabLinkStatus_STATE, x.2.state)]))


/-- The fold epoch as it stands now: it never decreases (R208). -/
def State.foldNow (s : State) (p : Nat) : Nat :=
  let c := kvGetD {} p s.corpora
  let hold := s.fld (rPrtSearchCfg p) fPrtSearchCfg_HOLD_EPOCHS
  let pins := (s.queries.filter (fun q => q.2.part == p)).map (fun q => q.2.epoch)
  max c.fold (pins.foldl min (c.epoch - hold))

/-- The registers of a partition's collection (Tables 6.13, 7.9, 7.10, 10.6, 10.8). -/
def viewCorpus (s : State) : KV Word :=
  s.corpora.flatMap (fun x =>
    let p := x.1
    let c := x.2
    let ds := c.segs.filter (fun g => g.2.delta)
    [(rPrtFoldEpoch p, BitVec.ofNat 64 (s.foldNow p)), (rPrtEpoch p, BitVec.ofNat 64 c.epoch),
     (rPrtTombStatus p, packFields [(fPrtTombStatus_YOUNG_PEAK, c.youngPeak), (fPrtTombStatus_YOUNG_USED, c.young.length)]),
     (rPrtDeltaStatus p, packFields [(fPrtDeltaStatus_DELTAS, ds.length), (fPrtDeltaStatus_CURRENT_VALID, c.current.isSome.toNat),
       (fPrtDeltaStatus_CURRENT_SEG, c.current.getD 0), (fPrtDeltaStatus_DELTA_VECTORS, ds.foldl (fun n g => n + g.2.vectors) 0)]),
     (rBkePTset p, packFields [(fBkePTset_CURRENT_VERSION, ((c.curSet.bind (fun i => kvGet? i c.sets)).map (fun t => t.version)).getD 0),
       (fBkePTset_HELD, c.sets.length), (fBkePTset_VALID, c.curSet.isSome.toNat), (fBkePTset_CURRENT, c.curSet.getD 0)])])

/-- The registers of clusters and selection units (Tables 9.5 and 20.3). -/
def viewClu (s : State) : KV Word :=
  (List.range 8).flatMap (fun n =>
    let bits := fun (xs : List Bool) => (xs.zipIdx.map (fun b => if b.1 then 2 ^ b.2 else 0)).foldl (· + ·) 0
    (rCluStatus n, packFields [(fCluStatus_CLUSTER_FENCED, (s.isFenced 4 n).toNat),
      (fCluStatus_UNIT_FENCED, bits [s.isFenced 1 (2 * n), s.isFenced 1 (2 * n + 1), s.isFenced 2 n, s.isFenced 3 n]),
      (fCluStatus_CORE_FENCED, bits ((List.range 16).map (fun i => s.isFenced 0 (16 * n + i))))]) ::
    [0, 1].map (fun u =>
      let ls := (kvGetD {} (2 * n + u) s.sels).lists
      let k := ls.foldl (fun m x => max m x.2.k) 0
      (rCluSelStatus n u, packFields [(fCluSelStatus_K_MAX, min 1024 k), (fCluSelStatus_LISTS_OPEN, ls.length),
        (fCluSelStatus_STATE, if s.isFenced 1 (2 * n + u) then 4 else if ls.isEmpty then 0 else if 1024 < k then 3 else if 64 < k then 2 else 1)])))

/-- `MXAn_SHARE_STATUS` (Table 5.10). -/
def viewMxa (s : State) : KV Word :=
  [0, 1, 2, 3].map (fun a =>
    let x := s.share a
    let busy := (kvGetD {} a s.arrays).run.isSome || (match x.owner with | some o => s.arrWork.any (fun w => w.1 == o) | none => false)
    (rMxaShareStatus a, packFields [(fMxaShareStatus_LAST_SWITCH_NS, s.fld (rMxaShareStatus a) fMxaShareStatus_LAST_SWITCH_NS),
      (fMxaShareStatus_STATE, if s.isFenced 5 a then 6 else if !x.powered then 0 else match x.switching with
        | some _ => if (kvGetD {} a s.arrays).run.isSome then 3 else 4
        | none => if x.yieldReq.isSome then 5 else if busy then 2 else 1),
      (fMxaShareStatus_OWNER_VALID, x.owner.isSome.toNat), (fMxaShareStatus_OWNER, x.owner.getD 0)]))

/-- `BKE_CHc_STATUS` (Table 6.12). -/
def viewBke (s : State) : KV Word :=
  s.bank.map (fun x =>
    let c := x.2
    (rBkeChStatus x.1, packFields [(fBkeChStatus_OLDEST_HOLD_NS, match c.holds with | [] => 0 | h :: _ => min 0xFFFFFFFF (s.now - h.since)),
      (fBkeChStatus_OPEN_TAGS, c.tags.length), (fBkeChStatus_QUEUED, min 255 c.jobs.length), (fBkeChStatus_HOLD_DEPTH, c.holds.length), (fBkeChStatus_STATE, c.state)]))

/-- The flash registers that follow from the translation layer (Tables 13.5 to 13.9). -/
def viewFtl (s : State) : KV Word :=
  let f := s.flash
  let lun := s.fld rFtlLunsel fFtlLunsel_LUN
  let b := s.fld rFtlBsel fFtlBsel_BLOCK
  let present := f.media == 2 && decide (lun % 32 < f.geom.luns)
  let k := f.blk lun b
  let super := fun (_ : Unit) => f.supers.find? (fun x => x.1 / 65536 == lun % 32 && x.2.chans.contains (lun / 32) && f.member x.1 (lun / 32) == b)
  let id := s.fld rFtlNssel fFtlNssel_NSID
  let key := s.fld rFtlNssel fFtlNssel_PARTITION * 32 + id
  [(rFtlStatus, packFields [(fFtlStatus_FENCED_LUNS, (s.flt.units.filter (fun u => u.2.fenced && u.1 / 4096 == 10)).length),
     (fFtlStatus_LUNS_PER_CH, if f.media = 2 then f.geom.luns else 0), (fFtlStatus_MAP_GIB, f.mapGib),
     (fFtlStatus_REBUILDING, (!f.rebuild.isEmpty).toNat), (fFtlStatus_SPARE_EXHAUSTED, (decide (f.writable < f.c)).toNat),
     (fFtlStatus_SPARE_LOW, (decide (f.cap.isSome = true ∧ 10 * (f.writable - f.c) < f.spare)).toNat), (fFtlStatus_MEDIA, f.media)]),
   (rFtlCapacity, BitVec.ofNat 64 f.c), (rFtlWritable, BitVec.ofNat 64 (if f.media = 2 then f.writable else 0))] ++
  (if present then
     [(rFtlLunStatus, packFields [(fFtlLunStatus_GOOD_BLOCKS, ((List.range f.geom.blocks).filter (f.good lun)).length),
        (fFtlLunStatus_UNASSIGNED, (f.unassigned lun).length), (fFtlLunStatus_STATE, if f.rebuild.contains lun then 3 else if s.isFenced 10 lun then 2 else 1)])] ++
     (if b < f.geom.blocks then
        [(rFtlBhealth, packFields [(fFtlBhealth_ERASES, k.erases), (fFtlBhealth_RETRY_READS, min 0xFFFF k.retries), (fFtlBhealth_BER_E9, min 0xFFFF k.ber),
           (fFtlBhealth_STATE, if (f.badOf lun).contains b then 4 else if k.retired then 3 else match super () with
             | some x => if x.2.isOpen then 1 else 2
             | none => if f.isMember lun b then 0 else 5)])]
      else [])
   else []) ++
  (match kvGet? key f.ns with
   | none => []
   | some n => [(rFtlNsStatus, packFields [(fFtlNsStatus_STATE, if n.ro then 2 else 1)]), (rFtlNsSize, BitVec.ofNat 64 n.size),
       (rFtlNsMapped, BitVec.ofNat 64 (f.map.filter (fun x => decide (nsBase key / 16384 ≤ x.1 ∧ x.1 < nsBase key / 16384 + n.size))).length)])

/-- Key of copy `tid` of a counter that exists once for each table (Table 11.12) or trim unit: the register's offset, with the copy above it. -/
def tableCtr (tid off : Nat) : Nat := off + (tid + 1) * 2 ^ 32

/-- Directory entries in use: those present, and those that rows drifting here have reserved (R305, R306). -/
def Emb.dirUsed (e : Emb) : Nat :=
  e.dir.length + e.tables.foldl (fun n t => n + (t.2.slots.filter (fun x => !x.2.replica && !x.2.switched)).length) 0

/-- Rows in the window of 16 ms that ends now (R304). -/
def recentRows (now : Nat) (l : List (Nat × Nat)) : List (Nat × Nat) := l.filter (fun x => decide (now < x.1 + 16000000))

/-- The load of a table: rows per second over the window (R304). -/
def Table.loadAt (t : Table) (now : Nat) : Nat := ((recentRows now t.served).foldl (fun n x => n + x.2) 0) * 125 / 2

/-- The embedding registers, for a physical function (Tables 11.7 to 11.12). -/
def viewEmb (s : State) (pf : Nat) : KV Word :=
  let id := s.fldPf pf rEmbTsel fEmbTsel_TABLE_ID
  (rEmbStatus, packFields [(fEmbStatus_DIR_USED, s.emb.dirUsed), (fEmbStatus_TABLES, s.emb.tables.length)]) ::
  (match kvGet? id s.emb.tables with
   | none => []
   | some t =>
     [(rEmbTstatus, packFields [(fEmbTstatus_VERSION, t.version), (fEmbTstatus_OPEN_STEPS, t.steps.length), (fEmbTstatus_PARTITION, t.part), (fEmbTstatus_VALID, 1)]),
      (rEmbTlastClosed, BitVec.ofNat 64 t.lastClosed),
      (rEmbTload, packFields [(fEmbTload_LOAD, min 0xFFFFFFFF (t.loadAt s.now / 1000)), (fEmbTload_DIR_ENTRIES, (s.emb.dir.filter (fun d => d.table == id)).length)])] ++
     [cEmbTLookupRows, cEmbTUniqueRows, cEmbTInvalid, cEmbTContribs, cEmbTApplied, cEmbTLate, cEmbTAccumFull, cEmbTForwarded].map
       (fun c => (c, BitVec.ofNat 64 (s.ctr (tableCtr id c)))))

/-- Whether a trim unit exists and is not idle: units of loops 3 and 4 are those of configured partitions (R419). -/
def State.trimLive (s : State) (loop unit : Nat) : Bool := decide (loop ≤ 4 ∧ unit < trimUnits loop) && (decide (loop < 3) || s.configured unit)

/-- The trim and calibration registers that a physical function's selectors name (chapter 17, "Registers"). -/
def viewTrm (s : State) (pf : Nat) : KV Word :=
  let l := s.fldPf pf rTrmSel fTrmSel_LOOP
  let n := s.fldPf pf rTrmSel fTrmSel_UNIT
  let i := s.fldPf pf rTrmCalSel fTrmCalSel_ITEM
  (if l ≤ 4 ∧ n < trimUnits l then
     let u := s.trim l n
     [(rTrmUnitCfg, packFields [(fTrmUnitCfg_GAIN, u.gain), (fTrmUnitCfg_TARGET, unsignedOf 32 u.target)]),
      (rTrmUnitLimits, packFields [(fTrmUnitLimits_LIMIT_HI, unsignedOf 32 u.hi), (fTrmUnitLimits_LIMIT_LO, unsignedOf 32 u.lo)]),
      (rTrmUnitCtl, packFields [(fTrmUnitCtl_CFG_ERR, u.cfgErr.toNat), (fTrmUnitCtl_DROGUE_EN, u.drogue.toNat),
        (fTrmUnitCtl_AT_LIMIT, u.atLimit.toNat), (fTrmUnitCtl_FREEZE, u.freeze.toNat)]),
      (cTrmUnitActions, BitVec.ofNat 64 (s.ctr (tableCtr (l * 512 + n) cTrmUnitActions)))] ++
     (if s.trimLive l n then
        let out : Int := if l = 4 then (((s.emb.tables.filter (fun x => x.2.part == n)).foldl (fun k x => k + x.2.drifts.length) 0 : Nat) : Int) else u.output
        let inp : Int := if l = 3 then (((kvGetD {} n s.corpora).loop.since : Nat) : Int) else u.input
        [(rTrmUnitState, packFields [(fTrmUnitState_OUTPUT, unsignedOf 32 out), (fTrmUnitState_INPUT, unsignedOf 32 inp)]),
         (rTrmUnitLast, packFields [(fTrmUnitLast_DELTA, unsignedOf 32 u.delta), (fTrmUnitLast_KIND, u.kind)]),
         (rTrmUnitLastTime, BitVec.ofNat 64 u.last)]
      else [])
   else []) ++
  (if calItem i then
     [(rTrmCalFactory, packFields [(fTrmCalFactory_F, unsignedOf 32 (Config.calF i))]),
      (rTrmCalLimits, packFields [(fTrmCalLimits_H, unsignedOf 32 (Config.calH i)), (fTrmCalLimits_L, unsignedOf 32 (Config.calL i))]),
      (rTrmCalOffset, packFields [(fTrmCalOffset_U, unsignedOf 32 (s.calU i))]),
      (rTrmCalEffective, packFields [(fTrmCalEffective_CLAMPED, (calClamped i (s.calU i)).toNat), (fTrmCalEffective_VALUE, unsignedOf 32 (calEffective i (s.calU i)))])]
   else [])

/-- The telemetry, security and time registers that follow from other state (R428, R448, R480, Tables 18.12, 18.13, 1.11). -/
def viewTel (s : State) (pf : Nat) : KV Word :=
  let t := s.fldPf pf rTelMemsel fTelMemsel_TIER
  let c := s.fldPf pf rTelMemsel fTelMemsel_CHANNEL
  [(rTelTempDie, packFields ([0, 1, 2, 3].map (fun d => ((⟨16 * d + 15, 16 * d⟩ : Fld), unsignedOf 16 (s.calibrated (296 + d) (Config.dieTemp s.now d)))))),
   (rSecMlogStatus, packFields [(fSecMlogStatus_OVERFLOW, (decide (8192 < s.sec.total)).toNat), (fSecMlogStatus_ENTRIES, s.sec.total)]),
   (rSecKeyStatus, packFields [(fSecKeyStatus_STATE, (s.sec.keys.zipIdx.map (fun k => k.1.1 * 4 ^ k.2)).foldl (· + ·) 0)]),
   (rNodeTimeStatus, fNodeTimeStatus_HOLDOVER_NS_HI.put (min (2 ^ 32 - 1) (s.board.holdNs / 2 ^ 20)) (s.reg rNodeTimeStatus))] ++
  (match kvGet? (t * 256 + c) s.margins with
   | none => []
   | some (rd, wr, at_) => [(rTelMemMargin, packFields [(fTelMemMargin_RD_PERMIL, rd), (fTelMemMargin_WR_PERMIL, wr),
       (fTelMemMargin_LOW, (decide (rd < Config.marginMin t c ∨ wr < Config.marginMin t c)).toNat), (fTelMemMargin_AGE_MS, min (2 ^ 31 - 1) ((s.now - at_) / 1000000))])])
/-- Every register whose value follows from other state, for a physical function. -/
def viewDerived (s : State) (pf : Nat) : KV Word :=
  (rNodeTime, s.time) :: viewPrt s ++ viewHif s ++ viewMem s pf ++ viewShp s pf ++ viewFlt s pf ++ viewFab s ++ viewCorpus s ++ viewClu s ++ viewMxa s ++ viewBke s ++ viewFtl s ++ viewEmb s pf ++ viewTrm s pf ++ viewTel s pf

/-- Whether a register exists once for each physical function (R484). -/
def isPerPf (off : Nat) : Bool :=
  off == rEmbTsel || off == rMemCsel || off == rShpSsel || off == rTrmSel || off == rTrmCalSel || off == rTelMemsel ||
  off == rFltIrqCfg || off == rFltEvtStatus || off == rSnpCtl

/-- The word a register not derived from other state holds, for a physical function. `SNP_CTL` holds ARMED once and
VIEW for each function. -/
def State.regFor (s : State) (pf off : Nat) : Word :=
  if off = rSnpCtl then packFields [(fSnpCtl_ARMED, s.fld rSnpCtl fSnpCtl_ARMED), (fSnpCtl_VIEW, s.fldPf pf rSnpCtl fSnpCtl_VIEW)]
  else if isPerPf off then s.regPf pf off
  else if isCounter off then BitVec.ofNat 64 (s.ctr off)
  else s.reg off

/-- The live value of the register at an offset, as a 64-bit read by a physical function returns it. -/
def State.readLive (s : State) (pf off : Nat) : Word :=
  match (viewDerived s pf).find? (fun x => x.1 == off) with
  | some x => x.2
  | none => s.regFor pf off

/-- Every register word that differs from its default, as a physical function reads it now: what the drogue latches
(R413). Derived registers come first, so that they win over the stored copy of the same register. -/
def State.viewAll (s : State) (pf : Nat) : KV Word :=
  viewDerived s pf ++ ((s.ctrs.filter (fun c => decide (c.1 < 2 ^ 32))).map (fun c => (c.1, BitVec.ofNat 64 c.2))) ++
  (s.regs.filter (fun r => decide (r.1 < 0x4000000)))

/-- The bits of a register that the drogue's copies serve: RO, ROS and W1C fields (R413, R414). -/
def latchedMask (off : Nat) : Word :=
  if isCounter off then BitVec.allOnes 64
  else match regSpecAt off with
    | some r => r.mask (fun a => a == .ro || a == .ros || a == .w1c)
    | none => if 0x80000 ≤ off ∧ off < 0x100000 then BitVec.allOnes 64 else 0

/-- What a 64-bit aligned read of a BAR0 offset returns to physical function `pf` (R15, R414, R483): WO and RSV fields
read zero; with VIEW set the latched fields read the copy, zero while none is held; block SNP is never latched. A misaligned read returns all
ones (R16). -/
def State.readBar0 (s : State) (pf off : Nat) : Word :=
  if off % 8 ≠ 0 then BitVec.allOnes 64 else
  let known := (regSpecAt off).isSome || isCounter off || (decide (0x80000 ≤ off ∧ off < 0x88000))
  if !known then 0 else
  let ok : Word := match regSpecAt off with
    | some r => if r.fields.any (fun f => f.acc == .wo) then r.mask (fun a => a != .wo) else BitVec.allOnes 64
    | none => BitVec.allOnes 64
  let live := s.readLive pf off
  if s.fldPf pf rSnpCtl fSnpCtl_VIEW = 1 ∧ blockIndex off ≠ some 22 then
    let m := latchedMask off
    let copy : Word := match s.flt.snap with
      | none => 0
      | some c => match (if pf = 0 then c.copy0 else c.copy1).find? (fun x => x.1 == off) with
        | some x => x.2
        | none => regDefault off
    ((copy &&& m) ||| (live &&& ~~~m)) &&& ok
  else live &&& ok

end Sys2Proof.Machine
end

