-- ==== Sys2Proof/Machine/ArrMath.lean ====
section
/-! DEFINITION. The arithmetic of one array instruction (spec/08): descriptor fields, MAC, multi-word and distance modes,
zero-point correction, scaling, prior partial results, column parameters and requantisation. Operand bytes are reached
through reader functions, so that node memory and a model's activation buffers are served alike. -/

namespace Sys2Proof.Machine

/-! ### Descriptor fields (Table 8.1) -/

def aMode (d : List Byte) : Nat := fieldAt d 0 1
def aXType (d : List Byte) : Nat := fieldAt d 1 1
def aWType (d : List Byte) : Nat := fieldAt d 2 1
def aDistOp (d : List Byte) : Nat := fieldAt d 3 1
def aRows (d : List Byte) : Nat := fieldAt d 4 2
def aOutType (d : List Byte) : Nat := fieldAt d 6 1
def aAccum (d : List Byte) : Bool := bitOf (fieldAt d 7 1) 0
def aPhaseEnd (d : List Byte) : Bool := bitOf (fieldAt d 7 1) 1
def aXShift (d : List Byte) : Int := signedOf 8 (fieldAt d 8 1)
def aWShift (d : List Byte) : Int := signedOf 8 (fieldAt d 9 1)
def aOShift (d : List Byte) : Int := signedOf 8 (fieldAt d 10 1)
def aXZero (d : List Byte) : Int := signedOf 8 (fieldAt d 11 1)
def aWZero (d : List Byte) : Int := signedOf 8 (fieldAt d 12 1)
def aOZero (d : List Byte) : Int := signedOf 8 (fieldAt d 13 1)
def aPart (d : List Byte) : Nat := fieldAt d 14 1
def aOutStride (d : List Byte) : Nat := fieldAt d 15 1
def aKValid (d : List Byte) : Nat := fieldAt d 16 2
def aNValid (d : List Byte) : Nat := fieldAt d 18 2
def aTag (d : List Byte) : Nat := fieldAt d 20 2
def aRowStride (d : List Byte) : Nat := fieldAt d 22 1
def aColStride (d : List Byte) : Nat := fieldAt d 23 1
def aTile (d : List Byte) : Nat := fieldAt d 24 8
def aRowAddr (d : List Byte) : Nat := fieldAt d 32 8
def aOutAddr (d : List Byte) : Nat := fieldAt d 40 8
def aPrior (d : List Byte) : Nat := fieldAt d 48 8
def aColParams (d : List Byte) : Nat := fieldAt d 56 8

/-- Whether an element code is complex. -/
def isComplex (t : Nat) : Bool := t == 7 || t == 8

/-- Column bytes of a type (R223). -/
def colBytes (t : Nat) : Nat := if t = 1 then 512 else 512 * (elemSize t / 8)

/-- Bytes of the first `n` elements of a row of a type. -/
def elemBytes (t n : Nat) : Nat := (n * elemSize t + 7) / 8

/-- Bits of one output component. -/
def outBits (t : Nat) : Nat := if t = 0 ∨ t = 1 then 32 else if t = 2 then 16 else if t = 4 then 4 else 8

/-- Bytes of an output row of `n` outputs. -/
def outBytes (d : List Byte) (n : Nat) : Nat :=
  (n * outBits (aOutType d) * (if isComplex (aXType d) then 2 else 1) + 7) / 8

/-- Strides in bytes, packed where the field is zero. -/
def aColStep (d : List Byte) : Nat := if aColStride d = 0 then colBytes (aWType d) else aColStride d * 64
def aRowStep (d : List Byte) : Nat := if aRowStride d = 0 then colBytes (aXType d) else aRowStride d * 64
def aOutStep (d : List Byte) : Nat := if aOutStride d = 0 then outBytes d (aNValid d) else aOutStride d * 64

/-- Passes of an instruction (R224): four in multi-word mode. -/
def aPasses (d : List Byte) : Nat := if aMode d = 1 then 4 else 1

/-- Array steps that an instruction occupies (R162, R224). -/
def aSteps (d : List Byte) : Nat := aPasses d * max (aRows d) 512

/-- Whether a zero point lies in the range of its type (Table 8.1). -/
def zeroOk (t : Nat) (z : Int) : Bool :=
  if t = 0 then true else if t = 1 then decide (-8 ≤ z ∧ z ≤ 7) else z == 0

/-- The descriptor's own fields within their ranges and mutually allowed (R227), apart from ownership and permissions. -/
def arrFieldsOk (d : List Byte) : Bool :=
  let m := aMode d
  let x := aXType d
  let w := aWType d
  let op := aDistOp d
  let o := aOutType d
  let shift := fun (z : Int) => decide (-64 ≤ z ∧ z ≤ 63)
  d.length == 64 && decide (m ≤ 2) && decide (x ≤ 8 ∧ w ≤ 8) &&
  (x == w || ((x == 2 || x == 3) && (w == 2 || w == 3))) &&
  (if m = 1 then decide (5 ≤ x) else decide (x ≤ 4)) &&
  (if m = 2 then decide (op ≤ 4) && (op != 2 || (x == 0 && w == 0)) else op == 0) &&
  decide (1 ≤ aRows d ∧ aRows d ≤ 4096) && decide (1 ≤ aKValid d ∧ aKValid d ≤ (if x = 1 then 1024 else 512)) &&
  decide (1 ≤ aNValid d ∧ aNValid d ≤ 512) && decide (o ≤ 6) && decide (fieldAt d 7 1 < 4) &&
  shift (aXShift d) && shift (aWShift d) && shift (aOShift d) && zeroOk x (aXZero d) && zeroOk w (aWZero d) &&
  (if o = 3 then true else if o = 4 then decide (-8 ≤ aOZero d ∧ aOZero d ≤ 7) else aOZero d == 0) &&
  (m != 2 || (aXShift d == aWShift d && aXZero d == aWZero d)) &&
  (aColStride d == 0 || decide (colBytes w ≤ aColStride d * 64)) && (aRowStride d == 0 || decide (colBytes x ≤ aRowStride d * 64)) &&
  (aOutStride d == 0 || decide (outBytes d (aNValid d) ≤ aOutStride d * 64)) &&
  (aAccum d == (aPrior d != 0)) &&
  (o != 1 || (elemIsInt x && aOShift d == 0 && aOZero d == 0 && aColParams d == 0)) &&
  (o != 4 || aNValid d % 2 == 0) &&
  aTile d % 64 == 0 && aRowAddr d % 64 == 0 && aOutAddr d % 64 == 0 && aPrior d % 64 == 0 && aColParams d % 64 == 0

/-! ### Reductions (R230 to R232) -/

/-- Fold two lists in step, in ascending order of position. -/
def fold2 {α β : Type} (f : α → β → β → α) : α → List β → List β → α
  | a, x :: xs, w :: ws => fold2 f (f a x w) xs ws
  | a, _, _ => a

/-- Exact integer sum of products. -/
def macInt (xs ws : List Int) : Int := fold2 (fun a x w => a + x * w) 0 xs ws

/-- fp32 sum of products in ascending order, one rounding at each addition (R230). -/
def macF (xs ws : List Num) : Num := fold2 (fun a x w => Num.add fmt32 a (Num.mul fmt32 x w)) Num.zero xs ws

/-- Integer distance sum (R232). -/
def distInt (op : Nat) (xs ws : List Int) : Int :=
  fold2 (fun a x w => a + (if op = 0 then (x - w) * (x - w) else if op = 1 then ((x - w).natAbs : Int)
    else if op = 2 then ((popGoN 8 (Nat.xor (unsignedOf 8 x) (unsignedOf 8 w)) : Nat) : Int)
    else if op = 3 then min x w else max x w)) 0 xs ws
where
  /-- Population count of a byte. -/
  popGoN : Nat → Nat → Nat
    | 0, _ => 0
    | f + 1, n => n % 2 + popGoN f (n / 2)

/-- fp32 distance sum (R232). -/
def distF (op : Nat) (xs ws : List Num) : Num :=
  fold2 (fun a x w =>
    let dd := Num.sub fmt32 x w
    Num.add fmt32 a (if op = 0 then Num.mul fmt32 dd dd else if op = 1 then dd.abs else if op = 3 then Num.minimum x w else Num.maximum x w))
    Num.zero xs ws

/-- Largest exponent among the finite non-zero elements of an fp16 row or column (R231); a subnormal has exponent −14. -/
def fp16Exp (ws : List Nat) : Int :=
  (((ws.filter (fun w => w / 1024 % 32 != 31 && w % 32768 != 0)).map (fun w => max (w / 1024 % 32) 1)).foldl max 1 : Nat) - 15

/-- Whether a row or column holds an infinity or NaN. -/
def fp16Special (ws : List Nat) : Bool := ws.any (fun w => w / 1024 % 32 == 31)

/-- An fp16 element aligned to its row's exponent, rounded half to even (R231). -/
def fp16Align (e : Int) (w : Nat) : Int :=
  match decFp16 w with
  | .fin s m x => let q : Int := (shiftRne m (x + 14 - e) : Int); if s then -q else q
  | _ => 0

/-- A column's raw result before scaling: exact integer, or fp32 value; complex results have two. -/
inductive Raw where
  | int (z : Int)
  | flt (x : Num)
deriving DecidableEq, Repr

/-- Real and imaginary codes of a complex operand. -/
def rePart (xs : List Nat) : List Nat := (xs.zipIdx.filter (fun x => x.2 % 2 == 0)).map (fun x => x.1)
def imPart (xs : List Nat) : List Nat := (xs.zipIdx.filter (fun x => x.2 % 2 == 1)).map (fun x => x.1)

/-- The column sums of an instruction for one row's and one column's component codes, with zero-point correction (R231,
R232, R234): one result, or real and imaginary. -/
def reduceRaw (d : List Byte) (xs ws : List Nat) : List Raw :=
  let t := aXType d
  let u := aWType d
  let xi := fun (l : List Nat) => l.map (fun c => signedOf (elemBits t) c)
  let nx := fun (l : List Nat) => l.map (decodeElem t)
  let nw := fun (l : List Nat) => l.map (decodeElem u)
  let kv : Int := (aKValid d : Int)
  if aMode d = 2 then
    if elemIsInt t then
      let z := distInt (aDistOp d) (xi xs) (xi ws)
      [.int (if aDistOp d = 3 ∨ aDistOp d = 4 then z - kv * aXZero d else z)]
    else [.flt (distF (aDistOp d) (nx xs) (nw ws))]
  else if t = 5 then
    let ex := fp16Exp xs
    let ew := fp16Exp ws
    if fp16Special xs || fp16Special ws then [.flt (Num.mkNan (.fin false xs.length 0) (.fin false ws.length 0))]
    else
      let z := macInt (xs.map (fp16Align ex)) (ws.map (fp16Align ew))
      [.flt (((Num.ofInt z).round fmt32).scale (ex + ew - 28) |>.round fmt32)]
  else if t = 8 then
    let re := macInt (xi (rePart xs)) (xi (rePart ws)) - macInt (xi (imPart xs)) (xi (imPart ws))
    let im := macInt (xi (rePart xs)) (xi (imPart ws)) + macInt (xi (imPart xs)) (xi (rePart ws))
    [.int re, .int im]
  else if t = 7 then
    let rr := macF (nx (rePart xs)) (nw (rePart ws))
    let ii := macF (nx (imPart xs)) (nw (imPart ws))
    let ri := macF (nx (rePart xs)) (nw (imPart ws))
    let ir := macF (nx (imPart xs)) (nw (rePart ws))
    [.flt (Num.sub fmt32 rr ii), .flt (Num.add fmt32 ri ir)]
  else if elemIsInt t then
    let a := macInt (xi xs) (xi ws)
    let rs := (xi xs).foldl (· + ·) 0
    let cs := (xi ws).foldl (· + ·) 0
    [.int (a - aWZero d * rs - aXZero d * cs + kv * aXZero d * aWZero d)]
  else [.flt (macF (nx xs) (nw ws))]

/-- The scale exponent of R234. -/
def scaleExp (d : List Byte) : Int :=
  if aMode d = 2 then (if aDistOp d = 0 then 2 * aXShift d else if aDistOp d = 2 then 0 else aXShift d)
  else aXShift d + aWShift d

/-- One output component after the output stage (R234, R235): its code, whether it was clipped, whether an int32 output
saturated. `prior` and the column parameters are 32-bit patterns. -/
def outputOne (d : List Byte) (raw : Raw) (prior mult bias : Nat) : Nat × Bool × Bool :=
  let o := aOutType d
  if o = 1 then
    let a : Int := match raw with | .int z => z | .flt _ => 0
    let a := if aAccum d then a + signedOf 32 prior else a
    let lo : Int := -2147483648
    let hi : Int := 2147483647
    if a < lo then (unsignedOf 32 lo, false, true) else if hi < a then (unsignedOf 32 hi, false, true) else (unsignedOf 32 a, false, false)
  else
    let y := ((match raw with | .int z => Num.ofInt z | .flt x => x).scale (scaleExp d)).round fmt32
    let y := if aAccum d then Num.add fmt32 y (dec32 prior) else y
    let y := Num.fma fmt32 y (dec32 mult) (dec32 bias)
    if o = 0 then (enc32 y, false, false)
    else
      let r := requant o (aOZero d) (y.scale (-(aOShift d)))
      (r.1, r.2, false)

/-- What an instruction computes: bytes by address, requantised and clipped counts by column group, saturations. -/
structure ArrResult where
  outs : List (Nat × List Byte)
  req  : List Nat
  clip : List Nat
  sat  : Nat
deriving DecidableEq, Repr

/-- Component codes of one streamed row or tile column: `n` elements from its bytes. -/
def operandCodes (t n : Nat) (bs : List Byte) : List Nat :=
  (List.range (if isComplex t then 2 * n else n)).map (elemAt t bs)

/-- Pack output codes into bytes: int4 two to a byte, low first. -/
def packCodes (o : Nat) : List Nat → List Byte
  | [] => []
  | [x] => if o = 4 then leBytes 1 x else leBytes (outBits o / 8) x
  | x :: y :: t => if o = 4 then leBytes 1 (x + 16 * y) ++ packCodes o t else leBytes (outBits o / 8) x ++ packCodes o (y :: t)

/-- Run an instruction, with readers for tile, rows, prior results and column parameters (address and length to
bytes). -/
def arrCompute (d : List Byte) (rdTile rdRow rdPrior rdCol : Nat → Nat → List Byte) : ArrResult :=
  let n := aNValid d
  let k := aKValid d
  let comps := if isComplex (aXType d) then 2 else 1
  let cols := (List.range n).map (fun j => operandCodes (aWType d) k (rdTile (aTile d + j * aColStep d) (elemBytes (aWType d) k)))
  let params := (List.range n).map (fun j =>
    if aColParams d = 0 then (0x3F800000, 0)
    else let b := rdCol (aColParams d + 8 * j) 8; (fieldAt b 0 4, fieldAt b 4 4))
  let rows := (List.range (aRows d)).map (fun m =>
    let xs := operandCodes (aXType d) k (rdRow (aRowAddr d + m * aRowStep d) (elemBytes (aXType d) k))
    (m, (List.zip cols params).zipIdx.flatMap (fun c =>
      (reduceRaw d xs c.1.1).zipIdx.map (fun r =>
        let prior := if aAccum d then leNat (rdPrior (aPrior d + (m * n + c.2) * 4 * comps + 4 * r.2) 4) else 0
        (c.2, outputOne d r.1 prior c.1.2.1 c.1.2.2)))))
  let all := rows.flatMap (fun x => x.2)
  let narrow := decide (2 ≤ aOutType d)
  let per := fun (f : Nat × Nat × Bool × Bool → Bool) => (List.range 8).map (fun g => (all.filter (fun x => x.1 / 64 == g && f x)).length)
  { outs := rows.map (fun x => (aOutAddr d + x.1 * aOutStep d, packCodes (aOutType d) (x.2.map (fun y => y.2.1)))),
    req := per (fun _ => narrow), clip := per (fun x => x.2.2.1), sat := (all.filter (fun x => x.2.2.2)).length }

end Sys2Proof.Machine
end

