-- ==== Sys2Proof/Machine/Flags.lean ====
section
/-! DEFINITION. Status codes, completion flags and status words: what a completion says (Tables 4.5 to 4.7). -/

namespace Sys2Proof.Machine

/-! ### Status codes (Table 4.5) and completion flags (Table 4.6) -/

def scDone : Nat := 0x00
def scPartial : Nat := 0x01
def scVented : Nat := 0x10
def scPoolLost : Nat := 0x11
def scReset : Nat := 0x12
def scFence : Nat := 0x13
def scBadCommand : Nat := 0x20
def scBadHandle : Nat := 0x21
def scQuota : Nat := 0x22
def scNotBridled : Nat := 0x23
def scEpochRetired : Nat := 0x24
def scMediaFull : Nat := 0x30
def scMediaReadOnly : Nat := 0x31
def scMediaUncorrectable : Nat := 0x32
def scUnreachable : Nat := 0x40
def scRemoteError : Nat := 0x41
def scInternal : Nat := 0x7F

def flFewer : Nat := 1
def flTieCut : Nat := 2
def flWidened : Nat := 4
def flInvalid : Nat := 8
def flPartial : Nat := 16
def flSat : Nat := 32

/-- Flags of a completion: those of its chapter, PARTIAL for a Terminated status or DONE_PARTIAL with COUNT > 0, SAT for
a saturated COUNT (Table 4.6). -/
def cplFlags (status count flags : Nat) : Nat :=
  let f := if (status = scPartial ∨ (0x10 ≤ status ∧ status < 0x20)) ∧ 0 < count then flags ||| flPartial else flags
  if 0xFFFFFFFF < count then f ||| flSat else f

/-- A long-operation status word (Table 4.7). -/
def statusWord (st status progress count : Nat) : Word :=
  packFields [(⟨63, 60⟩, st), (⟨59, 52⟩, status), (⟨51, 32⟩, progress), (⟨31, 0⟩, min 0xFFFFFFFF count)]

/-- Final state of a long operation for its status (R137): 2 DONE, 4 CANCELLED, 3 FAILED. -/
def finalState (status : Nat) : Nat :=
  if status = scDone then 2 else if status = scPartial ∨ status = scReset then 4 else 3

end Sys2Proof.Machine
end

