-- ==== Sys2Proof/Machine/Operands.lean ====
section
/-! DEFINITION. The operands of host commands: header, flags, and the fields of PARAMS with their reserved bits (Tables 4.1 and 4.3, R12, R120). -/

namespace Sys2Proof.Machine

/-! ### CFLAGS (Table 4.1) -/

def HostCmd.ordered (c : HostCmd) : Bool := bitOf c.cflags 0
def HostCmd.keepPartial (c : HostCmd) : Bool := bitOf c.cflags 1
def HostCmd.widen (c : HostCmd) : Bool := bitOf c.cflags 2
def HostCmd.noIrq (c : HostCmd) : Bool := bitOf c.cflags 3

/-- A field of `n` bytes at offset `o` of PARAMS. -/
def HostCmd.param (c : HostCmd) (o n : Nat) : Nat := fieldAt c.params o n

/-- Offsets in PARAMS of the tensor handles of a command, and whether the command writes the tensor. -/
def handleParams (op : Nat) : List (Nat × Bool) :=
  if op = 0x41 then [(0, false)] else if op = 0x42 then [(0, true)] else if op = 0x43 then [(0, false)]
  else if op = 0x44 then [(0, false)] else if op = 0x10 then [(48, false), (64, false)]
  else if op = 0x23 then [(8, false)] else if op = 0x50 then [(8, false)] else if op = 0x30 then [(16, false), (32, false)]
  else if op = 0x34 then [(8, false)] else []

/-- Offsets in PARAMS of the address fields of a command that are encoded as RESULT_ADDR. -/
def addrParams (op : Nat) : List Nat :=
  if op = 0x04 then [0] else if op = 0x06 then [16] else if op = 0x10 then [16] else if op = 0x12 then [8]
  else if op = 0x20 then [8, 16, 24] else if op = 0x21 then [8] else if op = 0x31 then [16, 24]
  else if op = 0x32 then [16, 24] else if op = 0x42 then [24] else if op = 0x45 then [8] else if op = 0x51 then [8]
  else if op = 0x61 then [16] else []

/-- Whether an opcode is a long operation (Table 4.3). -/
def isLong (op : Nat) : Bool := op == 0x04 || op == 0x05 || op == 0x22 || op == 0x23 || op == 0x44 || op == 0x63

/-- The command that 128 bytes of a submission queue spell (Table 4.1). -/
def HostCmd.ofBytes (bs : List Byte) : HostCmd :=
  let b := bs.take 128 ++ List.replicate (128 - bs.length) 0
  { opcode := fieldAt b 0 1, cflags := fieldAt b 1 1, cid := fieldAt b 2 2, stream := fieldAt b 4 2, resv6 := fieldAt b 6 2, deadline := fieldAt b 8 8,
    statusAddr := fieldAt b 16 8, resultAddr := fieldAt b 24 8, params := b.drop 32 }

/-- The fields of PARAMS that each opcode of Table 4.3 has, as offset and bytes; an opcode that the table does not list has none. -/
def paramFields (op : Nat) : Option (List (Nat × Nat)) :=
  if op = 0x00 then some [] else if op = 0x01 then some [(0, 2)] else if op = 0x02 then some [(0, 1), (2, 2)]
  else if op = 0x03 then some [(0, 6), (8, 40)] else if op = 0x04 then some [(0, 12)] else if op = 0x05 then some [(0, 14)]
  else if op = 0x06 then some [(0, 1), (4, 24)] else if op = 0x10 then some [(0, 12), (16, 12), (32, 42)] else if op = 0x11 then some [(0, 32)]
  else if op = 0x12 then some [(0, 2), (8, 8)] else if op = 0x20 then some [(0, 32)] else if op = 0x21 then some [(0, 4), (8, 8)]
  else if op = 0x22 then some [(0, 12), (32, 32)] else if op = 0x23 then some [(0, 1), (8, 8)] else if op = 0x24 then some [(0, 2), (8, 64)]
  else if op = 0x25 then some [(0, 1), (8, 32)] else if op = 0x30 then some [(0, 26), (28, 24)] else if op = 0x31 then some [(0, 32)]
  else if op = 0x32 then some [(0, 3), (4, 28)] else if op = 0x33 then some [(0, 2), (8, 8)] else if op = 0x34 then some [(0, 2), (8, 8)]
  else if op = 0x35 then some [(0, 2)] else if op = 0x40 then some [(0, 4), (8, 8)] else if op = 0x41 then some [(0, 8)]
  else if op = 0x42 then some [(0, 32)] else if op = 0x43 then some [(0, 24)] else if op = 0x44 then some [(0, 12)]
  else if op = 0x45 then some [(0, 3), (8, 12)] else if op = 0x50 then some [(0, 4), (8, 8)] else if op = 0x51 then some [(0, 1), (4, 16)]
  else if op = 0x60 then some [(0, 2), (4, 12)] else if op = 0x61 then some [(0, 2), (4, 20)] else if op = 0x62 then some [(0, 2), (4, 12)]
  else if op = 0x63 then some [(0, 3), (8, 8)] else none

/-- Reserved bits inside the fields of PARAMS: byte and mask. -/
def rsvParamBits (op : Nat) : List (Nat × Nat) :=
  if op = 0x01 then [(0, 0xFE), (1, 0xFE)] else if op = 0x10 then [(10, 0xF0), (11, 0xFF)] else if op = 0x20 then [(1, 0xFE)]
  else if op = 0x22 then [(0, 0xFE), (8, 0xF0), (9, 0xC0)] else if op = 0x23 then [(0, 0xFE)] else if op = 0x40 then [(1, 0xFC)]
  else if op = 0x44 then [(9, 0xFD)] else if op = 0x50 then [(1, 0xFC)] else []

/-- Whether every reserved field of a command is zero (R12). -/
def HostCmd.reservedOk (c : HostCmd) : Bool :=
  c.resv6 == 0 && decide (c.cflags < 16) &&
  (match paramFields c.opcode with
   | none => false
   | some fs => (c.params.zipIdx.all (fun b => b.1 == 0 || fs.any (fun f => decide (f.1 ≤ b.2 ∧ b.2 < f.1 + f.2)))) &&
      (rsvParamBits c.opcode).all (fun m => (c.param m.1 1) &&& m.2 == 0))

end Sys2Proof.Machine
end

