-- ==== Sys2Proof/Machine/Ops.lean ====
section
/-! DEFINITION. The named operations that the meanings share: access errors, counters and their saturation, events,
the drogue, the logbook, MSI-X, completions, contexts, node memory and its allocation, regulators and meters, packets
handed to the fabric. -/

namespace Sys2Proof.Machine

/-! ### Refused accesses (R16, R17, R483) -/

/-- Record a refused BAR0 access: set a bit of `NODE_ACCESS_ERR` and the offset and function of the access. -/
def State.accessErr (s : State) (bit : Fld) (pf off : Nat) : State :=
  s.setReg rNodeAccessErr (fNodeAccessErr_LAST_PF.put pf (fNodeAccessErr_LAST_OFFSET.put (off / 8) (bit.put 1 (s.reg rNodeAccessErr))))

/-- Key of a field that an image may own (R75). -/
def ownKey (off : Nat) (f : Fld) : Nat := off * 64 + f.lo

/-- The bits of a register that no field takes. -/
def rsvMask (off : Nat) : Word :=
  if isCounter off then 0xFFFF000000000000 else match regSpecAt off with
    | some r => ~~~ (r.mask (fun _ => true))
    | none => BitVec.allOnes 64

/-- A field's value after a write of `v` (R17, R489): RW and RWL take the value, within their range; W1C clears what is written 1 and
W1S sets it; the others keep what they hold. -/
def FldSpec.written (f : FldSpec) (w v : Word) : Nat :=
  let old := f.fld.get w
  let new := f.fld.get v
  match f.acc with
  | .rw | .rwl => (match f.clamp with | some (lo, hi) => max lo (min hi new) | none => new)
  | .w1c => old &&& (old ^^^ new)
  | .w1s => old ||| new
  | .ro | .wo | .ros => old

/-- The fields of a register after a write: each takes the written value as its access type gives; an RWL field that the image owns keeps
its value. -/
def State.takeFields (s : State) (pf off : Nat) (v : Word) (r : RegSpec) : State :=
  let w := if isPerPf off then s.regPf pf off else s.reg off
  let w' := r.fields.foldl (fun (x : Word) f =>
    if f.acc = .rwl ∧ s.owned.contains (ownKey off f.fld) = true then x else f.fld.put (f.written w v) x) w
  if isPerPf off then s.setRegPf pf off w' else s.setReg off w'

/-- Write a register of the node space, field by field (R17, R483): reserved bits written non-zero are reported, and so is a write to an
RWL field that the image owns. The report follows the write, so that a bit which the write clears in the same instant reads 1 (R18). What the
write starts is the meaning of its own row. -/
def State.writeFields (s : State) (pf off : Nat) (v : Word) : State :=
  let rsv := fun (t : State) => if v &&& rsvMask off = 0 then t else t.accessErr fNodeAccessErr_RSV_WRITE pf off
  match regSpecAt off with
  | none => rsv s
  | some r =>
    let t := rsv (s.takeFields pf off v r)
    if r.fields.any (fun f => f.acc == .rwl && s.owned.contains (ownKey off f.fld)) then t.accessErr fNodeAccessErr_LOCKED_WRITE pf off else t

/-! ### Partition windows -/

/-- Reset value of a window word: the Mask bit of every MSI-X vector is set,
as PCI Express gives (PRESUMED, log entry 8). -/
def winDefault (off : Nat) : Word :=
  if 0x80000 ≤ off ∧ off < 0x80400 ∧ off % 16 = 8 then 0x100000000
  else 0

/-- A word of a partition's window that the node keeps as such. -/
def State.win (s : State) (p off : Nat) : Word := (kvGet? (p * 0x100000 + off) s.winReg).getD (winDefault off)

/-- Put a word into a partition's window. -/
def State.setWin (s : State) (p off : Nat) (w : Word) : State :=
  s.putWinReg (if w = winDefault off then kvDel (p * 0x100000 + off) s.winReg else kvPut (p * 0x100000 + off) w s.winReg)

/-- The event and error bits of `PRT_WIN_STATUS` (Table 3.8). -/
def fWinScrub : Fld := ⟨47, 38⟩
def fWinAccessErr : Fld := ⟨7, 7⟩
def fWinEvPoolLost : Fld := ⟨6, 6⟩
def fWinEvQuiesced : Fld := ⟨5, 5⟩
def fWinEvResetDone : Fld := ⟨4, 4⟩

/-- Set a bit of `PRT_WIN_STATUS` of partition `p`. -/
def State.setWinBit (s : State) (p : Nat) (f : Fld) : State := s.setWin p 0x40000 (f.put 1 (s.win p 0x40000))

/-- A read that the node turns away is answered with `w`; a write returns nothing (R16, R86). -/
def State.badRead (s : State) (window : Bool) (fn off : Nat) (write : Bool) (w : Word) : State :=
  if write then s else s.putOut (s.out ++ [.read window fn off w])

/-- An access of a partition window that is neither 64 bits wide and aligned nor one that the MSI-X table accepts: a write is discarded, a read
returns all ones, and ACCESS_ERR is set (R86). -/
def State.windowBad (s : State) (p off : Nat) (write : Bool) : State := (s.setWinBit p fWinAccessErr).badRead true p off write (BitVec.allOnes 64)

/-- Whether MSI-X vector `v` of partition `p` is masked. -/
def State.vecMasked (s : State) (p v : Nat) : Bool := bitOf (s.win p (0x80008 + 16 * v)).toNat 32

/-- Send something to the host port. -/
def State.emit (s : State) (o : HostOut) : State := s.putOut (s.out ++ [o])

/-- Nothing of a vector waits to be reported any more (R141). -/
def State.clearCoal (s : State) (p v : Nat) : State :=
  s.modFlt (fun t => { t with coal := t.coal.filter (fun x => !(x.1 / 64 == p && fCfgVector.get (kvGetD {} x.1 s.queues).cfg == v)) })

/-- Send the message of an MSI-X vector: it reports every queue and event of the partition on that vector. A masked vector sets its pending bit
(R141); a function that is not enabled sends nothing (R107). -/
def State.sendMsix (s : State) (p v : Nat) : State :=
  let s := s.clearCoal p v
  if !s.funcEnabled p then s
  else if s.vecMasked p v then s.setWin p 0x80800 ((⟨v, v⟩ : Fld).put 1 (s.win p 0x80800))
  else s.emit (.msix p v)

/-! ### The drogue (R413, R414) -/

/-- Latch: copies taken, ARMED cleared, time and source recorded. -/
def State.latch (s : State) (src snapId : Nat) : State :=
  let c : Snap := { copy0 := s.viewAll 0, copy1 := s.viewAll 1 }
  ((((s.modFlt (fun (t : Faults) => { t with snap := some c })).setFld rSnpCtl fSnpCtl_ARMED 0).setReg
    rSnpStatus s.time).setReg rSnpInfo (packFields [(fSnpInfo_SNAP_ID, snapId), (fSnpInfo_HELD, 1), (fSnpInfo_SOURCE, src)]))

/-- Add to a counter, which saturates at 2^48 − 1 (R408); the second part says whether it has now first saturated. -/
def State.rawBump (s : State) (off n : Nat) : State × Bool :=
  let old := s.ctr off
  let cap := 2 ^ 48 - 1
  let v := min cap (old + n)
  (s.setCtr off v, decide (old < cap) && decide (v = cap))

/-- The block's saturation status when one of its counters first saturates (R408). -/
def State.markSat (s : State) (off : Nat) : State :=
  match blockIndex off with
  | none => s
  | some b =>
    let w := s.reg (rFltSat b)
    s.setReg (rFltSat b) (fFltSat_ANY.put 1 (fFltSat_LAST_OFFSET.put ((off - blockBase b) / 8)
      (fFltSat_SATURATED.put (min 0xFFFF (fFltSat_SATURATED.get w + 1)) w)))

/-- A trigger of an enabled drogue source (R413): latches while ARMED; within 40 ns of a latch names the lower source;
otherwise is ignored and counted. The second part says whether it latched. -/
def State.drogue (s : State) (src snapId : Nat) : State × Bool :=
  if !bitOf (s.reg rSnpSrc).toNat src then (s, false)
  else if s.fld rSnpCtl fSnpCtl_ARMED = 1 then (s.latch src snapId, true)
  else if s.fld rSnpInfo fSnpInfo_HELD = 1 ∧ s.now ≤ (s.reg rSnpStatus).toNat + 40 then
    (s.setFld rSnpInfo fSnpInfo_SOURCE (min src (s.fld rSnpInfo fSnpInfo_SOURCE)), false)
  else
    let (t, sat) := s.rawBump cSnpMissed 1
    (if sat then t.markSat cSnpMissed else t, false)

/-! ### The logbook (R429 to R434) -/

/-- Logbook record types (Table 17.2). -/
def lkPowerOn : Nat := 0x01
def lkBins : Nat := 0x02
def lkEvent : Nat := 0x10
def lkCorrected : Nat := 0x11
def lkMeasure : Nat := 0x20
def lkFlash : Nat := 0x30
def lkCalibration : Nat := 0x40
def lkTime : Nat := 0x50

/-- LEN of a record: its header and payload, padded to a multiple of 8 (R431). -/
def recLen (payload : List Byte) : Nat := (32 + payload.length + 7) / 8 * 8

/-- Bytes the logbook uses. -/
def State.logUsed (s : State) : Nat := s.log.foldl (fun n r => n + recLen r.data) 0

/-- Append a logbook record. Once 60 MiB are used only EVENT, MEASURE, FLASH, CALIBRATION and TIME records are taken;
a record without room is counted in `LOG_DROPPED` (R434). -/
def State.logAppend (s : State) (kind : Nat) (payload : List Byte) : State :=
  let used := s.logUsed
  let reserve := decide (60 * 1048576 ≤ used)
  let room := decide (used + recLen payload ≤ 64 * 1048576)
  let allowed := kind == lkEvent || kind == lkMeasure || kind == lkFlash || kind == lkCalibration || kind == lkTime
  let s := if reserve then s.setFld rLogStatus fLogStatus_RESERVE 1 else s
  if !room || (reserve && !allowed) then
    let s := if room then s else s.setFld rLogStatus fLogStatus_FULL 1
    s.setReg rLogDropped (BitVec.ofNat 64 (min (2 ^ 64 - 1) ((s.reg rLogDropped).toNat + 1)))
  else
    let seq := (s.reg rLogNextSeq).toNat
    let r : LogRec := { seq := seq, time := s.now, boot := (s.reg rLogBoots).toNat, kind := kind, data := payload }
    let s := s.putLog (s.log ++ [r])
    let s := s.setReg rLogNextSeq (BitVec.ofNat 64 (min (2 ^ 64 - 1) (seq + 1)))
    let s := if 60 * 1048576 ≤ s.logUsed then s.setFld rLogStatus fLogStatus_RESERVE 1 else s
    (s.setFld rLogStatus fLogStatus_USED_64KIB (s.logUsed / 65536)).setFld rLogStatus fLogStatus_MIRROR_OK 0

/-- Append a FLASH record (R347): 0 block retired, 1 LUN fenced, 2 rebuild start, 3 rebuild end, 4 media full, 5 σ changed. -/
def State.logFlash (s : State) (ev unit detail : Nat) : State :=
  s.logAppend lkFlash (leBytes 1 ev ++ leBytes 3 0 ++ leBytes 4 unit ++ leBytes 8 detail)

/-! ### Events (R410, R411) -/

/-- Put a new record into a function's ring of unread records: at 1,024 it displaces the oldest CORRECTED, else the
oldest CONTAINED record, else it is lost; each is counted (R411). The second part is the number lost. -/
def pushRing (ring : List EvRec) (e : EvRec) : List EvRec × Nat :=
  if ring.length < 1024 then (ring ++ [e], 0)
  else match ring.findIdx? (fun x => x.cls == 0) with
    | some i => (ring.eraseIdx i ++ [e], 1)
    | none => match ring.findIdx? (fun x => x.cls == 1) with
      | some i => (ring.eraseIdx i ++ [e], 1)
      | none => (ring, 1)

/-- Whether two records merge: CORRECTED, alike in class, source and unit, the second within 1 ms of the first (R410). -/
def EvRec.merges (a : EvRec) (cls source kind unit now : Nat) : Bool :=
  a.cls == 0 && cls == 0 && a.source == source && a.kind == kind && a.unit == unit && decide (now ≤ a.time + 1000000)

/-- One more occurrence in a merged record; COUNT saturates and then sets `SAT`. -/
def EvRec.again (e : EvRec) : EvRec :=
  if e.count < 0xFFFF then { e with count := e.count + 1 } else { e with eflags := e.eflags / 2 * 2 + 1 }

/-- Raise the event vector of a function where its mask has the class (R410); function 0 is partition 0, 1 is 32. -/
def State.eventIrq (s : State) (pf cls : Nat) : State :=
  if bitOf (s.fldPf pf rFltIrqCfg fFltIrqCfg_CLASS_MASK) cls then
    s.sendMsix (pf * 32) (s.fldPf pf rFltIrqCfg fFltIrqCfg_VECTOR) else s

/-- Add lost records to a function's count, which saturates at 32 bits. -/
def State.addLost (s : State) (pf n : Nat) : State :=
  if n = 0 then s else s.setFldPf pf rFltEvtStatus fFltEvtStatus_LOST (min 0xFFFFFFFF (s.fldPf pf rFltEvtStatus fFltEvtStatus_LOST + n))

/-- Count a CORRECTED occurrence of this hour for the logbook: up to 256 keys, the rest under unit 0xFFFF_FFFF (R432). -/
def State.tallyHour (s : State) (source kind unit : Nat) : State :=
  s.modFlt (fun t =>
    let has := t.hour.any (fun k => k.1 == source && k.2.1 == kind && k.2.2.1 == unit)
    let key := if has || t.hour.length < 256 then (source, kind, unit) else (0, 0, 0xFFFFFFFF)
    if t.hour.any (fun k => k.1 == key.1 && k.2.1 == key.2.1 && k.2.2.1 == key.2.2) then
      { t with hour := t.hour.map (fun k => if k.1 == key.1 && k.2.1 == key.2.1 && k.2.2.1 == key.2.2 then (k.1, k.2.1, k.2.2.1, k.2.2.2 + 1) else k) }
    else { t with hour := t.hour ++ [(key.1, key.2.1, key.2.2, 1)] })

/-- Place an event in the rings, the logbook and the interrupts, without counting it: merged into a recent CORRECTED
record where it agrees with one, otherwise a new record, which may trigger the drogue. -/
def State.evPlace (s : State) (cls source kind action unit part detail : Nat) : State :=
  let s := if cls = 0 then s.tallyHour source kind unit else s
  if s.flt.recent.any (fun e => e.merges cls source kind unit s.now) then
    let upd := fun (e : EvRec) => if e.merges cls source kind unit s.now then e.again else e
    s.modFlt (fun t => { t with recent := t.recent.map upd, ring0 := t.ring0.map upd, ring1 := t.ring1.map upd })
  else
    let (s, hit) := s.drogue (2 + cls) 0
    let e : EvRec := { time := s.now, seq := s.flt.seq, cls := cls, source := source, kind := kind, action := action,
                       unit := unit, part := part, eflags := if hit then 2 else 0, count := 1, detail := detail }
    let (r0, l0) := pushRing s.flt.ring0 e
    let (r1, l1) := pushRing s.flt.ring1 e
    let s := s.modFlt (fun t => { t with seq := (t.seq + 1) % 2 ^ 32, ring0 := r0, ring1 := r1, recent := (if cls = 0 then
      t.recent.filter (fun x => decide (s.now ≤ x.time + 1000000)) ++ [e] else t.recent) })
    let s := (s.addLost 0 l0).addLost 1 l1
    let s := if cls = 0 then s else s.logAppend lkEvent e.bytes
    (s.eventIrq 0 cls).eventIrq 1 cls

/-- The class's counter: CORRECTED and CONTAINED errors are counted (Table 16.18). -/
def State.evCount (s : State) (cls : Nat) : State × Bool :=
  if cls = 0 then s.rawBump cFltCorrected 1 else if cls = 1 then s.rawBump cFltContained 1 else (s, false)

/-- Report an error event (R397, R410): counted by class, recorded, and with it the saturation of the class counter. -/
def State.event (s : State) (cls source kind action unit part detail : Nat) : State :=
  let (s, sat) := s.evCount cls
  let s := s.evPlace cls source kind action unit part detail
  if sat then
    let off := if cls = 0 then cFltCorrected else cFltContained
    let s := s.markSat off
    if s.fld rFltCfg fFltCfg_SAT_EVENT = 1 then
      ((s.rawBump cFltCorrected 1).1).evPlace 0 11 13 0 0 0xFF (off - 0x2800000)
    else s
  else s

/-- Count `n` events in a statistics counter, with what its first saturation does (R408). -/
def State.bump (s : State) (off n : Nat) : State :=
  let (s, sat) := s.rawBump off n
  if sat then
    let s := s.markSat off
    if s.fld rFltCfg fFltCfg_SAT_EVENT = 1 then
      s.event 0 11 13 0 0 0xFF (off - blockBase ((blockIndex off).getD 0))
    else s
  else s

/-- Count in copy `k` of a counter that exists once for each table or trim unit, with what its first saturation does (R408). -/
def State.bumpCopy (s : State) (k off n : Nat) : State :=
  if n = 0 then s else
  let (s, sat) := s.rawBump (tableCtr k off) n
  if sat then
    let s := s.markSat off
    if s.fld rFltCfg fFltCfg_SAT_EVENT = 1 then s.event 0 11 13 0 0 0xFF (off - blockBase ((blockIndex off).getD 0)) else s
  else s

/-! ### Node memory (R309, R313) -/

/-- A new power limit is in force (R48): the 10 ms average still counts against the one it replaces for 10 ms. It is in force at once, where
the spec says within 1 ms (DESIGN CHOICE, log entry 44). -/
def State.setLimit (s : State) (w : Nat) : State :=
  let old := s.fld rNodePowerStatus fNodePowerStatus_LIMIT_EFF_W
  let s := s.putBoard ({ s.board with limPast := s.board.limPast.filter (fun x => decide (s.now < x.2)) ++ (if w = old then [] else [(old, s.now + 10000000)]) })
  s.setFld rNodePowerStatus fNodePowerStatus_LIMIT_EFF_W w

/-- The limit that the 10 ms average counts against now (R48): the one in force, or a higher one that was in force in the last 10 ms. -/
def State.limit10 (s : State) : Nat :=
  (s.board.limPast.filter (fun x => decide (s.now < x.2))).foldl (fun l x => max l x.1) (s.fld rNodePowerStatus fNodePowerStatus_LIMIT_EFF_W)

/-! ### Domain power (R36, R38) -/

/-- Give a voltage domain power at the output of its trim unit, or take it away; VOLT_MV reads 0 without power (Table 1.9). -/
def State.powerDomain (s : State) (d : Nat) (on : Bool) : State :=
  (s.setFld (rNodeDomainStatus d) fNodeDomainStatus_POWERED on.toNat).setFld (rNodeDomainStatus d) fNodeDomainStatus_VOLT_MV
    (if on then (s.trim 0 d).output.toNat else 0)

/-- The epoch of the undefined range that holds an address, if one does. -/
def MemSys.undefAt (m : MemSys) (a : Nat) : Option Nat :=
  (m.undef.find? (fun r => decide (r.1 ≤ a ∧ a < r.1 + r.2.1))).map (fun r => r.2.2)

/-- The byte at a node address: what was written; in an undefined range a free byte; otherwise zero (R439). -/
def MemSys.read (m : MemSys) (a : Nat) : Byte :=
  match kvGet? a m.bytes with
  | some b => b
  | none => match m.undefAt a with
    | some e => Config.undefByte e a
    | none => 0

/-- Write a byte; a zero outside every undefined range is not listed. -/
def MemSys.write (m : MemSys) (a : Nat) (b : Byte) : MemSys :=
  { m with bytes := if b = 0 ∧ m.undefAt a = none then kvDel a m.bytes else kvPut a b m.bytes }

/-- Write bytes at rising addresses. -/
def MemSys.writeList (m : MemSys) (a : Nat) : List Byte → MemSys
  | [] => m
  | b :: bs => (m.write a b).writeList (a + 1) bs

/-- Read `n` bytes from rising addresses. -/
def MemSys.readList (m : MemSys) (a : Nat) : Nat → List Byte
  | 0 => []
  | n + 1 => m.read a :: m.readList (a + 1) n

/-- Put a range among ranges that rise. -/
def insRange (r : Nat × Nat × Nat) : List (Nat × Nat × Nat) → List (Nat × Nat × Nat)
  | [] => [r]
  | q :: l => if r.1 ≤ q.1 then r :: q :: l else q :: insRange r l

/-- Cut a range of addresses out of the undefined ranges. -/
def MemSys.cut (m : MemSys) (a len : Nat) : MemSys :=
  { m with undef := m.undef.flatMap (fun (r : Nat × Nat × Nat) =>
      if r.1 + r.2.1 ≤ a ∨ a + len ≤ r.1 then [r]
      else (if r.1 < a then [(r.1, a - r.1, r.2.2)] else []) ++
        (if a + len < r.1 + r.2.1 then [(a + len, r.1 + r.2.1 - (a + len), r.2.2)] else [])) }

/-- Make a range hold zeros. -/
def MemSys.clear (m : MemSys) (a len : Nat) : MemSys :=
  { (m.cut a len) with bytes := m.bytes.filter (fun c => !(decide (a ≤ c.1 ∧ c.1 < a + len))) }

/-- Make the contents of a range undefined, with a free epoch. -/
def MemSys.forget (m : MemSys) (a len epoch : Nat) : MemSys :=
  if len = 0 then m else
  let m := m.clear a len
  { m with undef := insRange (a, len, epoch) m.undef }

/-- Give a range its contents, whatever it held. -/
def MemSys.define (m : MemSys) (a : Nat) (bs : List Byte) : MemSys := (m.clear a bs.length).writeList a bs

/-- Make the bytes of a range damaged (R402). -/
def MemSys.damage (m : MemSys) (a len : Nat) : MemSys := { m with damaged := kvPut a (max len (kvGetD 0 a m.damaged)) m.damaged }

/-- The bytes from `a` up to `b` are no longer damaged: ranges that begin there are gone. -/
def MemSys.undamage (m : MemSys) (a b : Nat) : MemSys := { m with damaged := m.damaged.filter (fun d => !(decide (a ≤ d.1 ∧ d.1 < b))) }

/-- Whether a range of Tier B touches a lost channel: channels of a die interleave by 4 KiB (Table 12.1, R406). -/
def MemSys.touchesLostB (m : MemSys) (a len : Nat) : Bool :=
  !m.lostB.isEmpty && tierOf a == some 1 && decide (0 < len) &&
  (let lo := a / 4096
   let n := min 8 ((a + len - 1) / 4096 + 1 - lo)
   (List.range n).any (fun i => m.lostB.contains ((a / 0x10000000000 - 1) * 8 + (lo + i) % 8)))

/-- Whether any byte of a range is damaged (R402, R406). -/
def MemSys.isDamaged (m : MemSys) (a len : Nat) : Bool :=
  m.damaged.any (fun r => decide (r.1 < a + len ∧ a < r.1 + r.2)) || m.touchesLostB a len

/-- The form a memory keeps: addresses strictly rising, and a zero byte listed only inside an undefined range. -/
def MemSys.wf (m : MemSys) : Bool :=
  kvSorted m.bytes && m.bytes.all (fun c => c.2 != 0 || (m.undefAt c.1).isSome)

/-- Bytes of node memory. -/
def State.readMem (s : State) (a n : Nat) : List Byte := s.mem.readList a n

/-- Chunks of 2 MiB of a range at `a` of a tensor that starts at `base`. -/
def chunksOf (base a len : Nat) : List Nat :=
  if len = 0 ∨ a + len ≤ base then [] else
  let lo := (a - base) / 2097152
  let hi := (a + len - 1 - base) / 2097152
  (List.range (hi + 1 - lo)).map (fun i => lo + i)

/-- Note a write in every migration whose source it touches: chunks already copied become dirty (R317). -/
def MemSys.dirty (m : MemSys) (a len : Nat) : MemSys :=
  { m with migs := m.migs.map (fun x => match kvGet? x.2.tensor m.tensors with
      | some t => if a < t.addr + t.bytes ∧ t.addr < a + len then
          (x.1, { x.2 with dirty := ((chunksOf t.addr a len).filter (fun c => decide (c * 2097152 < x.2.copied)) ++ x.2.dirty).eraseDups })
        else x
      | none => x) }

/-- Bytes that are written anew are no longer damaged (R402). -/
def MemSys.mend (m : MemSys) (a len : Nat) : MemSys :=
  if !m.isDamaged a len then m else
  { m with damaged := m.damaged.flatMap (fun (r : Nat × Nat) =>
      if r.1 + r.2 ≤ a ∨ a + len ≤ r.1 then [r]
      else (if r.1 < a then [(r.1, a - r.1)] else []) ++ (if a + len < r.1 + r.2 then [(a + len, r.1 + r.2 - (a + len))] else [])) }

/-- Write bytes of node memory. -/
def State.writeMem (s : State) (a : Nat) (bs : List Byte) : State :=
  s.modMem (fun m => ((m.define a bs).mend a bs.length).dirty a bs.length)

/-- Make the contents of a range undefined, with a fresh epoch. -/
def State.hide (s : State) (a len : Nat) : State :=
  ((s.modMem (fun m => m.forget a len s.free)).putFree (s.free + 1))

/-! ### Allocation (R309 to R313, R318) -/

/-- Allocation unit of a tier (R312). -/
def allocUnit (t : Nat) : Nat := if t = 3 then 16384 else 65536

/-- A size rounded up to a unit. -/
def roundUp (n u : Nat) : Nat := (n + u - 1) / u * u

/-- Whether this part is a VX9-S256-A (Table 0.1), from the fused variant. -/
def State.isS256 (s : State) : Bool := (s.reg rNodeId).toNat / 2 ^ 24 % 256 == 2

/-- Whether a range of a tier is mapped: in one tier, and on VX9-S256-A in the lower half of one channel (R309, R313). -/
def State.mapped (s : State) (t a len : Nat) : Bool :=
  decide (0 < len) && tierOf a == some t && tierOf (a + len - 1) == some t &&
  (if t = 1 then a / 0x10000000000 == (a + len - 1) / 0x10000000000
   else if t = 0 ∧ s.isS256 = true then a / 2 ^ 31 == (a + len - 1) / 2 ^ 31 && decide ((a + len - 1) % 2 ^ 31 < 2 ^ 30)
   else true)

/-- Whether a range touches a fenced Tier A channel or a lost Tier B channel (no new allocation is placed there, R402). -/
def State.touchesFenced (s : State) (t a len : Nat) : Bool :=
  (t == 1 && s.mem.touchesLostB a len) || t == 0 && (s.flt.units.any (fun u => u.2.fenced && u.1 / 4096 == 7 &&
    decide ((u.1 % 4096) * 2 ^ 31 < a + len ∧ a < (u.1 % 4096 + 1) * 2 ^ 31)))

/-- Whether a range is free of allocations. -/
def MemSys.isFree (m : MemSys) (a len : Nat) : Bool :=
  m.allocs.all (fun x => !(decide (x.1 < a + len ∧ a < x.1 + x.2.len)))

/-- The open borrow windows of a partition, as ranges of Tier P (R320). -/
def State.openWindows (s : State) (p : Nat) : List Range :=
  s.mem.comps.flatMap (fun c => (c.2.windows.filter (fun w => !w.lend && w.part == p && w.state == 2)).map
    (fun w => { base := w.base, len := w.len }))

/-- Whether an allocation of `len` bytes may start at `a`. -/
def State.placeOk (s : State) (p t a len : Nat) : Bool :=
  a % allocUnit t == 0 && s.mapped t a len && !s.touchesFenced t a len && s.mem.isFree a len &&
  (t != 2 || (s.openWindows p).any (fun w => decide (w.base ≤ a ∧ a + len ≤ w.base + w.len)))

/-- Start of a tier's addresses. -/
def tierBase (t : Nat) : Nat :=
  if t = 0 then 0 else if t = 1 then 0x10000000000 else if t = 2 then 0x1000000000000 else 0x8000000000000

/-- Where an allocation of `len` bytes is placed among addresses that suit: at the hint the configuration gives where that
is free, otherwise the first free place at the start of the tier, of a window, of a channel or behind an allocation. -/
def State.findPlaceIn (s : State) (p t len : Nat) (suits : Nat → Bool) : Option Nat :=
  ([roundUp (Config.placeHint t len) (allocUnit t), tierBase t] ++ (s.openWindows p).map (fun (w : Range) => w.base) ++
    s.mem.allocs.map (fun (x : Nat × Alloc) => roundUp (x.1 + x.2.len) (allocUnit t)) ++ (if t = 1 then [0x20000000000] else []) ++
    (if t = 0 then (List.range 256).map (fun c => c * 2 ^ 31) else [])).find? (fun a => suits a && s.placeOk p t a len)

/-- A place anywhere in a tier. -/
def State.findPlace (s : State) (p t len : Nat) : Option Nat := s.findPlaceIn p t len (fun _ => true)

/-- Flash space that namespaces and Tier F tensors of all partitions occupy (R331, R333). -/
def State.tierFUse (s : State) : Nat :=
  s.flash.ns.foldl (fun a n => a + 16384 * n.2.size) 0 + (s.mem.allocs.filter (fun a => tierOf a.1 == some 3)).foldl (fun n a => n + a.2.len) 0

/-- Allocate `bytes` for partition `p` in tier `t`, at `start` when given: the address, or none where the effective
quota would be passed or no range is free (R313, R318); a refusal is counted by the caller. -/
def State.allocAt (s : State) (p t bytes : Nat) (kind : AllocKind) (start : Option Nat) : Option (Nat × State) :=
  let len := roundUp bytes (allocUnit t)
  if s.quotaOf p t < s.useOf p t + len ∨ (t = 3 ∧ 16384 * s.flash.cap.getD 0 < s.tierFUse + len) then none
  else
    let place := match start with
      | some a => if s.placeOk p t a len then some a else none
      | none => s.findPlace p t len
    match place with
    | none => none
    | some a =>
      let s := s.modMem (fun m => { m with allocs := kvPut a { len := len, part := some p, kind := kind } m.allocs })
      some (a, if t = 3 then s.putFlash { s.flash with keys := kvPut (a / 16384) s.flash.keyNo s.flash.keys, keyNo := s.flash.keyNo + 1 } else s)

/-- Whether a load holds back allocations and `COMPOSITION_SET`: it is between step 11 and its end (R491). -/
def State.allocHeld (s : State) : Bool := match s.load with | some l => l.applying | none => false

/-- Allocate anywhere in a tier. -/
def State.alloc (s : State) (p t bytes : Nat) (kind : AllocKind) : Option (Nat × State) := s.allocAt p t bytes kind none

/-- Allocate at a starting Tier A channel or Tier B die where one is given (R313). -/
def State.allocNear (s : State) (p t bytes : Nat) (kind : AllocKind) (place : Option Nat) : Option (Nat × State) :=
  match place with
  | none => s.alloc p t bytes kind
  | some x =>
    let suits := fun (a : Nat) => if t = 0 then a / 2 ^ 31 == x else a / 0x10000000000 == x + 1
    match s.findPlaceIn p t (roundUp bytes (allocUnit t)) suits with
    | none => none
    | some a => s.allocAt p t bytes kind (some a)

/-- Channel rows of a Tier A channel (R165). -/
def State.channelRows (s : State) : Nat := if s.isS256 then 524288 else 1048576

/-- Capacity of a tier that quotas may sum to (R63, R310, R332, R402): Tier A less the directory and fenced channels, Tier B less
the map, the buffers and lost channels, Tier F the exported capacity. -/
def State.tierCapacity (s : State) (t : Nat) : Nat :=
  if t = 0 then
    let ch := if s.isS256 then 2 ^ 30 else 2 ^ 31
    (256 - (s.flt.units.filter (fun u => u.2.fenced && u.1 / 4096 == 7)).length) * ch - 16 * 2 ^ 20
  else if t = 1 then (16 - s.mem.lostB.length) * 2 ^ 37 - (s.flash.cap.getD 0 * 8 + 2 ^ 30 - 1) / 2 ^ 30 * 2 ^ 30 - 64 * 2 ^ 20
  else if t = 3 then s.flash.cap.getD 0 * 16384 else 0

/-- Release the allocation at an address; its bytes are gone, and in Tier F its key with them (R333). -/
def State.release (s : State) (a : Nat) : State :=
  match kvGet? a s.mem.allocs with
  | none => s
  | some x => (if tierOf a = some 3 then s.putFlash { s.flash with keys := kvDel (a / 16384) s.flash.keys } else s).modMem (fun m => { ((m.clear a x.len).mend a x.len) with allocs := kvDel a m.allocs })

/-- Count an allocation refused under R318. -/
def State.quotaRefused (s : State) (p : Nat) : State := s.bump (cMemPQuotaRefusals p) 1

/-- A state in which nothing limits the quotas of partition `p`. -/
def State.unquoted (s : State) (p : Nat) : State :=
  (s.modPart p (fun x => { x with cfg := x.cfg.map (fun c => { c with quota := List.replicate 4 (2 ^ 64) }) })).modMem (fun m => { m with
    comps := kvMapVals (fun _ (c : Composition) => { c with quotas := c.quotas.filter (fun x => x.1 != p) }) m.comps })

/-- Whether it is a quota of partition `p` that an allocation would pass: without quotas it succeeds (R318). -/
def State.overQuota (s : State) (p : Nat) (fits : State → Bool) : Bool := fits (s.unquoted p)

/-- Whether a range of node addresses lies inside allocations of partition `p`. -/
def State.ownsRange (s : State) (p a len : Nat) : Bool :=
  s.mem.allocs.any (fun x => x.2.part == some p && decide (x.1 ≤ a ∧ a + len ≤ x.1 + x.2.len))

/-! ### Composition meters (R327) -/

/-- Add to a meter of the composition that holds a partition (Table 12.6, by its place in the record). -/
def State.addMeter (s : State) (p i n : Nat) : State :=
  if n = 0 then s else
  match s.compOf p with
  | none => s
  | some (id, _) => s.modMem (fun m => { m with
      comps := kvUpd id (fun (c : Composition) => { c with meters := c.meters.set i (c.meters.getD i 0 + n) }) m.comps })

/-! ### Bandwidth regulators (R91) -/

/-- Depth of a regulator's bucket in bytes. -/
def bwBurst (w : Word) : Nat := (if fPrtBwA_BURST_KIB.get w = 0 then 64 else fPrtBwA_BURST_KIB.get w) * 1024

/-- Charge an access of `n` bytes to a partition's regulator of a tier (0 A, 1 B, 3 flash). An access that finds the
bucket empty waits until it holds something; the wait is added to the tier's `_NS` throttle counter, and the access takes its tokens, below
zero where they are too few (R385 has shapers do the same; DEDUCED, log entry 46). Flash bytes count in the meter
FLASH_BYTES (Table 12.6). -/
def State.chargeBw (s : State) (p t n : Nat) : State :=
  if 2 = t then s else
  let s := if t = 3 then s.addMeter p 7 n else s
  let reg := if t = 0 then rPrtBwA p else if t = 1 then rPrtBwB p else rPrtBwF p
  let ctr := if t = 0 then cPrtThrottleANs p else if t = 1 then cPrtThrottleBNs p else cPrtThrottleFNs p
  let w := s.reg reg
  let rate := fPrtBwA_RATE.get w * 100000000
  if rate = 0 then s
  else
    let full : Bucket := { tokens := ((bwBurst w * 1000000000 : Nat) : Int), last := s.now }
    let b := (kvGetD full t (s.part p).bw).fill rate (bwBurst w) s.now
    let need : Int := ((n * 1000000000 : Nat) : Int)
    let wait := if 0 < b.tokens then 0 else (-b.tokens).toNat / rate + 1
    let s := s.modPart p (fun x => { x with bw := kvPut t { b with tokens := b.tokens - need } x.bw })
    if wait = 0 then s else s.bump ctr wait

/-! ### Meters and shapers (R382, R383, R385) -/

/-- The METER record of a partition for an APPLY bit. -/
def State.meterOf (s : State) (p apply : Nat) : Option Meter := (s.pcfg p).meters.find? (fun m => bitOf m.apply apply)

/-- OVERHEAD of a partition for an APPLY bit (R382). -/
def State.overhead (s : State) (p apply : Nat) : Nat :=
  match s.meterOf p apply with
  | some m => m.overhead
  | none => s.fld rShpCfg fShpCfg_DEF_OVERHEAD

/-- A meter's buckets, full where nothing passed yet, filled to the present. -/
def State.meterState (s : State) (p apply : Nat) (m : Meter) : MeterState :=
  let cap := fun (b : Nat) => (((b * 1000000000 : Nat)) : Int)
  let x := kvGetD { tc := cap m.cbs, tp := cap m.pbs, last := s.now } (apply * 64 + p) s.fab.meters
  { tc := min (cap m.cbs) (x.tc + ((m.cir * (s.now - x.last) : Nat) : Int)),
    tp := min (cap m.pbs) (x.tp + ((m.pir * (s.now - x.last) : Nat) : Int)), last := s.now }

/-- Colour a unit of length `l` (0 green, 1 yellow, 2 red), debit the buckets and count its bytes (R383). -/
def State.meterUnit (s : State) (p apply l : Nat) : State × Nat :=
  match s.meterOf p apply with
  | none => (s.bump (cShpPGreenBytes p apply) l, 0)
  | some m =>
    let x := s.meterState p apply m
    let need : Int := ((l * 1000000000 : Nat) : Int)
    let put := fun (y : MeterState) => s.modFab (fun f => { f with meters := kvPut (apply * 64 + p) y f.meters })
    if x.tp < need then ((put x).bump (cShpPRedBytes p apply) l, 2)
    else if x.tc < need then ((put { x with tp := x.tp - need }).bump (cShpPYellowBytes p apply) l, 1)
    else ((put { x with tc := x.tc - need, tp := x.tp - need }).bump (cShpPGreenBytes p apply) l, 0)

/-- Debit a stream's shaper by `l` tokens (R385). -/
def State.debitShaper (s : State) (p apply stream l : Nat) : State :=
  match s.shaperOf p apply stream with
  | none => s
  | some sh =>
    let b := s.shaperBucket apply stream sh
    s.modFab (fun f => { f with buckets := (kvPut (apply * 8192 + stream)
      { b with tokens := b.tokens - ((l * 1000000000 : Nat) : Int) } f.buckets) })

/-- Whether a stream's head unit may pass stage 2 (R385). -/
def State.eligible (s : State) (p apply stream : Nat) : Bool :=
  match s.shaperOf p apply stream with
  | none => true
  | some sh => decide (0 ≤ (s.shaperBucket apply stream sh).tokens)

/-- The class of a stream (R64, R381). -/
def State.streamClass (s : State) (p stream : Nat) : Nat :=
  match (s.pcfg p).routes.find? (fun r => decide (r.first ≤ stream ∧ stream < r.first + r.count)) with
  | some r => r.cls
  | none => 0

/-- The weight of a flow (R387). -/
def State.flowWeight (s : State) (p apply cls : Nat) : Nat :=
  match (s.pcfg p).scheds.find? (fun x => bitOf x.apply apply && x.cls == cls) with
  | some x => x.weight
  | none => 1

/-- ns that a unit which heads its stream since `entered` has spent ineligible since the bucket was last charged (R385). -/
def State.shapeWait (s : State) (p apply stream entered : Nat) : Nat :=
  match s.shaperOf p apply stream, kvGet? (apply * 8192 + stream) s.fab.buckets with
  | some sh, some b =>
    if 0 ≤ b.tokens then 0
    else (if sh.rate = 0 then s.now else min s.now (b.last + ((-b.tokens).toNat + sh.rate - 1) / sh.rate)) - max b.last entered
  | _, _ => 0

/-- Add the time that a stream's head unit has spent ineligible since the last charge (R385). -/
def State.noteShape (s : State) (p apply stream entered : Nat) : State := s.bump (cShpPShapeNs p apply) (s.shapeWait p apply stream entered)

/-- The staged command of a partition that heads a stream. -/
def State.stagedHead (s : State) (p stream : Nat) : Option Staged :=
  (s.queues.filterMap (fun x => x.2.staged.bind (fun g => if x.1 / 64 == p && g.cmd.stream == stream then some g else none))).foldl (fun b g => match b with
    | none => some g
    | some y => if g.order < y.order then some g else some y) none

/-- The stream of a command, and whether its flow is that of class 0 because the meter demoted it (R381). -/
def Rec.flow (r : Rec) : Nat × Bool := (r.cmd.stream, r.demoted)

/-- Bytes read from host memory for a command are charged to the meter, shaper and flow of host ingress as they are
read, without waiting (R382). -/
def State.chargeHostRead (s : State) (p : Nat) (flow : Nat × Bool) (n : Nat) : State :=
  let s := match s.meterOf p 1 with
    | none => s
    | some m =>
      let x := s.meterState p 1 m
      let need : Int := ((n * 1000000000 : Nat) : Int)
      s.modFab (fun f => { f with meters := kvPut (64 + p) { x with tc := x.tc - need, tp := x.tp - need } f.meters })
  let s := match s.stagedHead p flow.1 with
    | some g => s.noteShape p 1 flow.1 g.entered
    | none => s
  let s := s.debitShaper p 1 flow.1 n
  let c := if flow.2 then 0 else s.streamClass p flow.1
  let port := (s.pcfg p).port
  s.modFab (fun (f : Fab) =>
    let d : SchedDom := kvGetD {} port f.doms
    let fin := kvGetD Frac.zero (c * 64 + p) d.finish
    { f with doms := (kvPut port { d with finish := kvPut (c * 64 + p) (Frac.add fin (Frac.mk' n (s.flowWeight p 1 c))) d.finish } f.doms) })

/-! ### The fabric: packets handed over by the endpoints -/

/-- Hand a packet of this node to the egress (R379, R383). One for the node itself goes straight to its endpoints (R218). -/
def State.handPacket (s : State) (k : Packet) : State :=
  if k.dstNode = s.nodeId ∧ s.nodeId ≠ 0 then s.modFab (fun f => { f with arrived := f.arrived ++ [k] })
  else s.modFab (fun f => { f with handoff := f.handoff ++ [k] })

/-- Whether a destination is reachable from this node: it has an ID, and a route entry with links and at most 8 hops
(R366, R369). -/
def State.reachable (s : State) (node : Nat) : Bool :=
  s.nodeId != 0 && (match kvGet? node s.fab.routes with
    | some r => !r.links.isEmpty && decide (r.dist ≤ 8)
    | none => false)

/-- Hop count to a destination in the route table. -/
def State.distTo (s : State) (node : Nat) : Nat := ((kvGet? node s.fab.routes).map (fun r => r.dist)).getD 0

/-- Send an order on VC0 (R361), with the next SEQ (R363): the node counts all its orders in one sequence, so that those for one receiver
rise whatever way they take (DESIGN CHOICE, log entry 56). -/
def State.sendOrder (s : State) (dst op part gen : Nat) (args : List Nat) (len : Nat) : State :=
  let seq := s.fab.orderNo
  let s := s.modFab (fun f => { f with orderNo := (seq + 1) % 2 ^ 32 })
  s.handPacket { vc := 0, ptype := 3, opcode := op, dstNode := dst, srcNode := s.nodeId, srcPart := part, length := len,
                 resetGen := gen, seq := seq, dist := s.distTo dst, args := args }

/-- Whether an order with a SEQ from a source is to be acted on: it does not precede, in serial arithmetic modulo 2^32,
one already acted on (R363). Senders without an ID cannot be told apart, so none of theirs is discarded (DEDUCED, log entry 56). -/
def State.orderFresh (s : State) (src seq : Nat) : Bool :=
  if src = 0 then true else match kvGet? src s.fab.orderRx with
  | none => true
  | some last => decide ((seq + 2 ^ 32 - last % 2 ^ 32) % 2 ^ 32 < 2 ^ 31)

/-- Note the SEQ of an order acted on. -/
def State.orderSeen (s : State) (src seq : Nat) : State := s.modFab (fun f => { f with orderRx := kvPut src seq f.orderRx })

/-- Send a request (R371): it takes the next SEQ and is outstanding until it is answered. `space` is the receive space that it reserves for its
whole response on VC3 and VC5 (R356), which it holds until it ends; no rule bounds that space, so a reservation never waits (DESIGN CHOICE,
log entry 56). -/
def State.sendRequest (s : State) (k : Packet) (rid : Option Nat) (timed : Bool) (space : Nat := 0) : State :=
  let seq := s.fab.seqNo
  let r : OutReq := { space := space,  rid := rid, node := k.dstNode, part := k.srcPart, sent := s.now, timed := timed, kind := k.opcode, args := k.args, gen := k.resetGen }
  let s := s.modFab (fun f => { f with seqNo := (seq + 1) % 2 ^ 32, out := kvPut seq r f.out })
  s.handPacket { k with seq := seq, srcNode := s.nodeId, dist := s.distTo k.dstNode }

/-- Answer a request with a RESPONSE (PTYPE 1) or a REFUSE (PTYPE 2) that echoes its SEQ and names the requester's reset generation
(R108, R371). -/
def State.answer (s : State) (o : FabOrigin) (vc ptype op part ep : Nat) (args : List Nat) (data : List Byte) : State :=
  s.handPacket { vc := vc, ptype := ptype, opcode := op, dstNode := o.node, dstPart := o.part, dstEp := o.endpoint,
                 srcNode := s.nodeId, srcPart := part, srcEp := ep, length := data.length, resetGen := o.resetGen, seq := o.seq,
                 dist := s.distTo o.node, args := args, data := data }

/-- The status with which a REFUSE ends its request: the one it carries where its destination was unreachable (R308), otherwise `REMOTE_ERROR`. -/
def refuseStatus (k : Packet) : Nat := if k.args.headD scRemoteError = scUnreachable then scUnreachable else scRemoteError

/-- Whether a response carries an old reset generation of the partition it is for (R108). -/
def State.isLate (s : State) (k : Packet) : Bool := k.resetGen != s.resetGen k.dstPart

/-- Discard such a response, counted (R108). -/
def State.discardLate (s : State) (k : Packet) : State := s.bump (cPrtLateDiscards k.dstPart) 1

/-- An endpoint takes a packet that has arrived for its partition (R394). -/
def State.taken (s : State) (k : Packet) : State := s.modFab (fun f => { f with arrived := f.arrived.erase k })

/-- The packet that has arrived on a VC from a node under a SEQ. -/
def State.arrivedOf (s : State) (src vc seq : Nat) : Option Packet := s.fab.arrived.find? (fun k => k.vc == vc && k.srcNode == src && k.seq == seq)

/-- An endpoint takes that packet. -/
def State.takenOf (s : State) (src vc seq : Nat) : State :=
  match s.arrivedOf src vc seq with
  | some k => s.taken k
  | none => s

/-- End an outstanding request; fragments of a response to it are dropped. -/
def State.endRequest (s : State) (seq : Nat) : State :=
  s.modFab (fun f => { f with out := kvDel seq f.out, refrags := f.refrags.filter (fun k => !(k.ptype == 1 && k.seq == seq)) })

/-! ### Collections and their threshold sets -/

/-- The collection of partition `p`. -/
def State.corpus (s : State) (p : Nat) : Corpus := kvGetD {} p s.corpora

/-- Change the collection of partition `p`. -/
def State.modCorpus (s : State) (p : Nat) (f : Corpus → Corpus) : State := s.putCorpora (kvPut p (f (s.corpus p)) s.corpora)

/-- Whether any segment or started build of the partition is bound to a set. -/
def State.setBound (s : State) (p i : Nat) : Bool :=
  (s.corpus p).segs.any (fun g => g.2.setId == i) || s.builds.any (fun b => b.2.part == p && b.2.started.isSome && b.2.setId == i)

/-- Free every set that is neither current nor bound to a segment (R170). -/
def State.sweepSets (s : State) (p : Nat) : State :=
  let c := s.corpus p
  let gone := c.sets.filter (fun x => c.curSet != some x.1 && !s.setBound p x.1)
  let s := gone.foldl (fun (t : State) x => t.release x.2.addr) s
  s.modCorpus p (fun c => { c with sets := c.sets.filter (fun x => !gone.any (fun y => y.1 == x.1)) })

end Sys2Proof.Machine
end

