-- ==== Sys2Proof/Machine/FlashOps.lean ====
section
/-! DEFINITION. The flash translation layer at work (spec/13): programming, relocation, erasing and retirement, collection, and
the limits of worn-out media. -/

namespace Sys2Proof.Machine

/-- Change the flash. -/
def State.modFlash (s : State) (f : Flash → Flash) : State := s.putFlash (f s.flash)

/-! ### Programming and relocation (R335, R338 to R342) -/

/-- The superblock that takes the next page of host writes or of relocation: the open one, or a free one opened. -/
def Flash.openFor (f : Flash) (host : Bool) : Option (Nat × Flash) :=
  let cur := if host then f.hostOpen else f.relOpen
  let usable := fun (sb : Nat) => match kvGet? sb f.supers with
    | some x => x.isOpen && decide (x.fill < f.slots x) && !f.avoids (sb / 65536)
    | none => false
  match cur.filter usable with
  | some sb => some (sb, f)
  | none =>
    match f.pickFree host with
    | none => none
    | some sb =>
      let x : Super := { isOpen := true, chans := f.channels (sb / 65536), fill := 0, closedAt := 0 }
      let f := { f with supers := kvPut sb x f.supers }
      some (sb, if host then { f with hostOpen := some sb } else { f with relOpen := some sb })

/-- Close a partly filled superblock: the rest of its last stripe is programmed with pages that hold no unit, so that every stripe it holds is written
in full (R330). -/
def State.closeSuper (s : State) (sb : Nat) : State :=
  match kvGet? sb s.flash.supers with
  | none => s
  | some x =>
    let d := x.chans.length - 1
    let pad := if x.fill % d = 0 then 0 else d - x.fill % d
    let s := s.modFlash (fun f => { f with
      supers := kvPut sb { x with isOpen := false, fill := x.fill + pad, closedAt := s.now } f.supers
      hostOpen := if f.hostOpen = some sb then none else f.hostOpen
      relOpen := if f.relOpen = some sb then none else f.relOpen })
    if pad = 0 then s else s.bump cFtlMediaWriteBytes (16384 * (pad + 1))

/-- Close the superblock that was open for host writes or for relocation where it can take no more: full, or of an index that new writes avoid. -/
def State.leaveOpen (s : State) (host : Bool) : State :=
  match (if host then s.flash.hostOpen else s.flash.relOpen) with
  | none => s
  | some sb => match kvGet? sb s.flash.supers with
    | none => s
    | some x => if x.isOpen && s.flash.avoids (sb / 65536) then s.closeSuper sb else s

/-- Whether a page can be programmed now: a superblock is open for it, or a free one can be opened. -/
def State.roomFor (s : State) (host : Bool) : Bool := ((s.leaveOpen host).flash.openFor host).isSome

/-- Program a unit into the open superblock; a full stripe programs its parity page, and a full superblock closes. Without a superblock to take it
the unit stays where it lies. -/
def State.program (s : State) (host : Bool) (key : Nat) : State :=
  let s := s.leaveOpen host
  match s.flash.openFor host with
  | none => s
  | some (sb, f) =>
    let x := (kvGet? sb f.supers).getD { isOpen := true, chans := [], fill := 0, closedAt := 0 }
    let fill := x.fill + 1
    let full := decide (f.slots x ≤ fill)
    let y : Super := { x with fill := fill, isOpen := !full, closedAt := if full then s.now else 0 }
    let s := s.putFlash ({ f with map := kvPut key (sb, x.fill) f.map, supers := kvPut sb y f.supers })
    s.bump cFtlMediaWriteBytes (if fill % (x.chans.length - 1) = 0 then 32768 else 16384)

/-- Relocate units: each is read and programmed again. -/
def State.relocate (s : State) (keys : List Nat) : State := keys.foldl (fun (t : State) k => t.program false k) s

/-- Units of the stripe that an open superblock has not filled. -/
def Flash.openStripe (f : Flash) (sb : Nat) : List Nat :=
  match kvGet? sb f.supers with
  | none => []
  | some x => if x.isOpen then (f.map.filter (fun y => y.2.1 == sb && decide (x.fill / (x.chans.length - 1) * (x.chans.length - 1) ≤ y.2.2))).map (fun y => y.1) else []

/-- Retire a block (R339): counted and logged, its valid pages relocated, in an open stripe every unit of the stripe, which no longer counts, and an
unassigned good block of the same channel and LUN put in its place; where none exists the superblock is retired whole. -/
def State.retireBlock (s : State) (lun b : Nat) : State :=
  if !s.flash.good lun b then s else
  let u := lun % 32
  let m := lun / 32
  let sbs := ((List.range (s.flash.formed u)).map (superKey u)).filter (fun k => !s.flash.gone.contains k && s.flash.member k m == b)
  let s := s.modFlash (fun f => { f with blocks := kvPut (blockKey lun b) { f.blk lun b with retired := true } f.blocks })
  let s := (s.bump cFtlBlocksRetired 1).logFlash 0 lun b
  match sbs.head? with
  | none => s
  | some sb =>
    let spare := (s.flash.unassigned lun).head?
    let close := fun (f : Flash) => { f with
      supers := kvUpd sb (fun (x : Super) => if x.isOpen then { x with isOpen := false, fill := x.fill / (x.chans.length - 1) * (x.chans.length - 1), closedAt := s.now } else x) f.supers
      hostOpen := if f.hostOpen = some sb then none else f.hostOpen
      relOpen := if f.relOpen = some sb then none else f.relOpen }
    let here := fun (f : Flash) (k : Nat) => match f.placeOf k with | some (l, x, _) => l == lun && x == b | none => false
    match spare with
    | some r =>
      let stripe := s.flash.openStripe sb
      let hit := stripe ++ ((s.flash.unitsIn sb).filter (here s.flash)).filter (fun k => !stripe.contains k)
      let s := if hit.isEmpty then s else (s.modFlash close).relocate hit
      s.modFlash (fun f => { f with subst := kvPut (sb * 32 + m) r f.subst })
    | none =>
      let all := s.flash.unitsIn sb
      let s := (s.modFlash (fun f => close { f with gone := f.gone ++ [sb] })).relocate all
      s.modFlash (fun f => { f with supers := kvDel sb f.supers })

/-- Erase a superblock: it is free, each member counts one erase, and a member that reaches RATED_PE is retired (R339). -/
def State.eraseSuper (s : State) (sb : Nat) : State :=
  let f := s.flash
  let chans := ((kvGet? sb f.supers).map (fun x => x.chans)).getD []
  let ms := chans.map (fun m => (m * 32 + sb / 65536, f.member sb m))
  let s := s.modFlash (fun f => { f with supers := kvDel sb f.supers, erased := kvPut sb (f.erases sb + 1) f.erased, badPages := f.badPages.filter (fun b => b.1 != sb) })
  ms.foldl (fun (t : State) x =>
    let k := t.flash.blk x.1 x.2
    let t := t.modFlash (fun f => { f with blocks := kvPut (blockKey x.1 x.2) { erases := k.erases + 1, retired := k.retired } f.blocks })
    if 0 < t.flash.geom.rated ∧ t.flash.geom.rated ≤ k.erases + 1 then t.retireBlock x.1 x.2 else t) s

/-- Move a superblock's valid units elsewhere and erase it; it is not erased while units in it have found no other place. -/
def State.evacuate (s : State) (sb : Nat) : State :=
  let t := s.relocate (s.flash.unitsIn sb)
  if (t.flash.unitsIn sb).isEmpty then t.eraseSuper sb else t

/-! ### Garbage collection (R342) -/

/-- The score of a closed superblock as a fraction (R342): invalid share, age in hours and wear, weighted. -/
def State.gcScore (s : State) (sb : Nat) (x : Super) : Int × Nat :=
  let f := s.flash
  let w := s.reg rFtlGcCfg
  let slots := max 1 (f.slots x)
  let invalid := slots - (f.unitsIn sb).length
  let full := max 1 (fFtlGcCfg_AGE_FULL_H.get w) * 3600000000000
  let rated := max 1 f.geom.rated
  let age := min full (x.aged + (s.now - x.closedAt))
  let z := fun (n : Nat) => (n : Int)
  (z (fFtlGcCfg_WI.get w * invalid * full * rated) + z (fFtlGcCfg_WA.get w * age * slots * rated) -
    z (fFtlGcCfg_WE.get w * f.erases sb * slots * full), slots * full * rated)

/-- The victim of collection: the closed superblock with invalid pages and the highest score; the lower erase count, then the
lower number, on a tie. -/
def State.gcVictim (s : State) : Option Nat :=
  let f := s.flash
  let cand := f.supers.filter (fun x => !x.2.isOpen && decide ((f.unitsIn x.1).length < f.slots x.2) && !f.rebuild.any (fun l => l % 32 == x.1 / 65536))
  (cand.foldl (fun (best : Option (Nat × Int × Nat)) x =>
    let sc := s.gcScore x.1 x.2
    match best with
    | none => some (x.1, sc.1, sc.2)
    | some (b, n, d) =>
      let l := sc.1 * (d : Int)
      let r := n * (sc.2 : Int)
      if r < l ∨ (r = l ∧ f.erases x.1 < f.erases b) then some (x.1, sc.1, sc.2) else best) none).map (fun x => x.1)

/-- Whether free superblocks lie below a level in per mille of those in service. -/
def State.freeBelow (s : State) (permil : Nat) : Bool := decide (1000 * s.flash.freeSupers < permil * s.flash.totalSupers)

/-- GC_LOW and GC_HIGH with the ranges of Table 13.7. -/
def State.gcLow (s : State) : Nat := max 5 (min 200 (s.fld rFtlGcCfg fFtlGcCfg_GC_LOW))
def State.gcHigh (s : State) : Nat := max (s.gcLow + 5) (s.fld rFtlGcCfg fFtlGcCfg_GC_HIGH)

/-- Collect victims until the stop level is reached or none is left; `n` bounds the number of victims. -/
def State.collect : Nat → State → State
  | 0, s => s
  | n + 1, s =>
    if !s.freeBelow s.gcHigh then s
    else match s.gcVictim with
      | none => s
      | some sb =>
        let k := (s.flash.unitsIn sb).length
        let s := if k = 0 then s else s.bump cFtlGcRelocated k
        State.collect n (s.evacuate sb)

/-! ### Reading and writing units (R333 to R335, R344) -/

/-- The object a flash address belongs to: its first unit and size in units. -/
def State.mappedOf (s : State) (base units : Nat) : Nat :=
  (s.flash.map.filter (fun x => decide (base / 16384 ≤ x.1 ∧ x.1 < base / 16384 + units))).length

/-- How a host write of units stops short: at a unit beyond the limit of its object (R344), or at one for which collection has freed no space yet
(R342). -/
inductive WriteStop where
  | full | noSpace
deriving DecidableEq, Repr

/-- One unit of a host write, or what stops it. Below half of GC_LOW it waits until collection has freed space; the time it waits is a free value
(R342). -/
def State.writeUnit (s : State) (base size key : Nat) : Except WriteStop State :=
  if (kvGet? key s.flash.map).isNone ∧ s.flash.unitLimit size ≤ s.mappedOf base size then .error .full
  else if 1000 * 2 * s.flash.freeSupers < s.gcLow * s.flash.totalSupers then
    let t := State.collect s.flash.supers.length s
    if t.flash.erased = s.flash.erased ∨ t.roomFor true = false then .error .noSpace
    else
      let (w, t) := t.fresh
      .ok ((t.bump cFtlGcWaitNs (w.toNat % 2 ^ 32)).program true key)
  else if s.roomFor true = false then .error .noSpace
  else .ok (s.program true key)

/-- Host writes of `n` units from a unit on: how many were written, and what stopped them. -/
def State.writeUnits (s : State) (base size key : Nat) : Nat → Nat × Option WriteStop × State
  | 0 => (0, none, s)
  | n + 1 => match s.writeUnit base size key with
    | .error e => (0, some e, s)
    | .ok s =>
      let r := s.writeUnits base size (key + 1) n
      (r.1 + 1, r.2.1, r.2.2)

/-- What ends a write of units: the running parity of each open stripe goes to a parity-log page, and the map journal covers
the units (R335); how many journal pages are programmed is a free value. -/
def State.sealWrite (s : State) : State :=
  let log := match s.flash.hostOpen.bind (fun sb => kvGet? sb s.flash.supers) with
    | some x => if x.isOpen && x.fill % (x.chans.length - 1) != 0 then 16384 else 0
    | none => 0
  let (w, s) := s.fresh
  s.bump cFtlMediaWriteBytes (log + 16384 * (w.toNat % 2 ^ 16))

/-- The map journal is programmed (R332); how many of its pages is a free value. -/
def State.journal (s : State) : State :=
  let (w, s) := s.fresh
  s.bump cFtlMediaWriteBytes (16384 * (w.toNat % 2 ^ 16))

/-- Unmap units: their pages become invalid and they read as zeros (R333, R336). A change to the map is journalled (R332). -/
def State.unmapUnits (s : State) (key n : Nat) : State :=
  let mine := fun (x : Nat × Nat × Nat) => decide (key ≤ x.1 ∧ x.1 < key + n)
  let s := if s.flash.map.any mine then (s.modFlash (fun f => { f with map := f.map.filter (fun x => !mine x) })).journal else s
  s.modMem (fun m => (m.clear (key * 16384) (n * 16384)).undamage (key * 16384) ((key + n) * 16384))

/-- Whether a unit can be read: not when it is damaged, nor when its stripe has lost two members (R338, R340). -/
def State.unitBad (s : State) (key : Nat) : Bool := s.mem.isDamaged (key * 16384) 16384 || s.flash.unitLoss key == 2

/-- One unit read: its block counts a read; a page on a fenced LUN is rebuilt from parity, which is no error (R340); a page that
cannot be rebuilt is CONTAINED (R338). -/
def State.readUnit (s : State) (p key : Nat) : State :=
  match s.flash.placeOf key with
  | none => s
  | some (lun, b, _) =>
    let s := s.modFlash (fun f => { f with blocks := kvPut (blockKey lun b) { f.blk lun b with reads := (f.blk lun b).reads + 1 } f.blocks })
    if s.unitBad key then (s.bump cFtlUncorrectable 1).event 1 8 10 0 lun p 0
    else if s.flash.unitLoss key = 1 then s.bump cFtlParityRebuilds 1 else s

/-- Read units: the first that cannot be read. -/
def State.readUnits (s : State) (p key n : Nat) : Option Nat × State :=
  let keys := (List.range n).map (fun i => key + i)
  (keys.find? (fun k => s.unitBad k), keys.foldl (fun (t : State) k => t.readUnit p k) s)

/-- The flash units that a range of bytes touches: the first, and how many. -/
def unitSpan (a len : Nat) : Nat × Nat := (a / 16384, (a + len - 1) / 16384 + 1 - a / 16384)

/-- Write bytes to a Tier F object at `base` of `size` units: units are written in order until one cannot be mapped. The
second part is the number of bytes written where the media was full. -/
def State.flashStore (s : State) (p base size a : Nat) (data : List Byte) : State × Option Nat :=
  let (k, n) := unitSpan a data.length
  let (done, stop, s) := s.writeUnits base size k n
  let len := if stop.isSome then (k + done) * 16384 - a else data.length
  let s := ((s.writeMem a (data.take len)).sealWrite.bump cFtlHostWriteBytes len).chargeBw p 3 len
  (s, if stop.isSome then some len else none)

/-- Whether collection has freed the space that a write of bytes to a Tier F object needs; otherwise the write waits (R342). -/
def State.flashFits (s : State) (base size a len : Nat) : Bool := (s.writeUnits base size (unitSpan a len).1 (unitSpan a len).2).2.1 != some .noSpace

/-- The key of a namespace or a Tier F tensor is generated (R333), or destroyed. -/
def State.newKey (s : State) (unit : Nat) : State := s.modFlash (fun f => { f with keys := kvPut unit f.keyNo f.keys, keyNo := f.keyNo + 1 })
def State.dropKey (s : State) (unit : Nat) : State := s.modFlash (fun f => { f with keys := kvDel unit f.keys })

/-- Read bytes of a Tier F object: the bytes, with undefined ones where a unit cannot be read, how many were moved correctly, and the first unit that
failed. -/
def State.flashLoad (s : State) (p a len : Nat) : List Byte × Nat × Option Nat × State :=
  let (k, n) := unitSpan a len
  let s0 := s
  let (bad, s) := s.readUnits p k n
  let s := (s.bump cFtlHostReadBytes len).chargeBw p 3 len
  let bytes := (List.range len).map (fun i => if s0.unitBad ((a + i) / 16384) then Config.undefByte s.free (a + i) else s0.mem.read (a + i))
  (bytes, ((List.range n).map (fun i => if s0.unitBad (k + i) then 0 else min (a + len) ((k + i + 1) * 16384) - max a ((k + i) * 16384))).sum, bad, if bad.isNone then s else (s.putFree (s.free + 1)))

/-- The event and record of an object that becomes read-only (R344). -/
def State.mediaFull (s : State) (p unit detail : Nat) : State := (s.event 1 8 13 0 0 p detail).logFlash 4 unit detail

end Sys2Proof.Machine
end

