-- ==== Sys2Proof/Machine/Crypto.lean ====
section
/-! DEFINITION. Digests and signatures that the spec names: SHA-256 (R68, R237, R446), and RSASSA-PSS verification with
SHA-256, MGF1 with SHA-256 and a 32-byte salt (R69). Both are the published algorithms (FIPS 180-4, RFC 8017), which the
spec cites by name. -/

namespace Sys2Proof.Machine

/-- A 32-bit word of SHA-256. -/
abbrev W32 := BitVec 32

/-- The primes below 312, of which there are 64: no smaller prime up to 17 divides them. -/
def shaPrimes : List Nat := (List.range 312).filter (fun n => decide (2 ≤ n) && [2, 3, 5, 7, 11, 13, 17].all (fun d => d == n || n % d != 0))

/-- The greatest number whose `k`-th power is at most `n`, found bit by bit from bit `b - 1` on over what is known. -/
def rootOver (k n : Nat) : Nat → Nat → Nat
  | 0, r => r
  | b + 1, r => rootOver k n b (if (r + 2 ^ b) ^ k ≤ n then r + 2 ^ b else r)

/-- The first 32 bits of the fraction of the `k`-th root of `p`. -/
def rootFraction (k p : Nat) : W32 := BitVec.ofNat 32 (rootOver k (p * 2 ^ (32 * k)) 37 0)

/-- The round constants: the fractions of the cube roots of the first 64 primes. -/
def shaK : List W32 := shaPrimes.map (rootFraction 3)

/-- The initial hash value: the fractions of the square roots of the first eight primes. -/
def shaInit : List W32 := (shaPrimes.take 8).map (rootFraction 2)

/-- Big-endian number of a byte list. -/
def beNat (bs : List Byte) : Nat := bs.foldl (fun n b => n * 256 + b.toNat) 0

/-- `n` big-endian bytes of a number. -/
def beBytes (n v : Nat) : List Byte := (leBytes n v).reverse

/-- Message schedule: extend the last sixteen words (newest first) by `n` more. -/
def shaExtend : Nat → List W32 → List W32
  | 0, ws => ws
  | n + 1, ws =>
    let x := ws.getD 1 0
    let y := ws.getD 14 0
    let s1 := x.rotateRight 17 ^^^ x.rotateRight 19 ^^^ (x >>> 10)
    let s0 := y.rotateRight 7 ^^^ y.rotateRight 18 ^^^ (y >>> 3)
    shaExtend n ((s1 + ws.getD 6 0 + s0 + ws.getD 15 0) :: ws)

/-- The eight working variables. -/
structure ShaVars where
  a : W32
  b : W32
  c : W32
  d : W32
  e : W32
  f : W32
  g : W32
  h : W32
deriving DecidableEq, Repr

/-- One round. -/
def shaRound (v : ShaVars) (k w : W32) : ShaVars :=
  let t1 := v.h + (v.e.rotateRight 6 ^^^ v.e.rotateRight 11 ^^^ v.e.rotateRight 25) + ((v.e &&& v.f) ^^^ (~~~v.e &&& v.g)) + k + w
  let t2 := (v.a.rotateRight 2 ^^^ v.a.rotateRight 13 ^^^ v.a.rotateRight 22) + ((v.a &&& v.b) ^^^ (v.a &&& v.c) ^^^ (v.b &&& v.c))
  { a := t1 + t2, b := v.a, c := v.b, d := v.c, e := v.d + t1, f := v.e, g := v.f, h := v.g }

/-- The words of a 64-byte block. -/
def shaWords (bs : List Byte) : List W32 :=
  (List.range 16).map (fun i => BitVec.ofNat 32 (beNat ((bs.drop (4 * i)).take 4)))

/-- Compress one block into the hash value. -/
def shaBlock (hs : List W32) (block : List Byte) : List W32 :=
  let ws := (shaExtend 48 (shaWords block).reverse).reverse
  let v0 : ShaVars := { a := hs.getD 0 0, b := hs.getD 1 0, c := hs.getD 2 0, d := hs.getD 3 0, e := hs.getD 4 0, f := hs.getD 5 0, g := hs.getD 6 0, h := hs.getD 7 0 }
  let v := (List.zip shaK ws).foldl (fun v x => shaRound v x.1 x.2) v0
  List.zipWith (· + ·) hs [v.a, v.b, v.c, v.d, v.e, v.f, v.g, v.h]

/-- Compress blocks one after another. -/
def shaBlocks : Nat → List W32 → List Byte → List W32
  | 0, hs, _ => hs
  | n + 1, hs, bs => shaBlocks n (shaBlock hs (bs.take 64)) (bs.drop 64)

/-- SHA-256 of a byte list: 32 bytes. -/
def sha256 (bs : List Byte) : List Byte :=
  let n := bs.length
  let pad := (119 - n % 64) % 64
  let m := bs ++ [(0x80 : Byte)] ++ List.replicate pad 0 ++ beBytes 8 (8 * n)
  (shaBlocks (m.length / 64) shaInit m).flatMap (fun w => beBytes 4 w.toNat)

/-- MGF1 with SHA-256: `n` blocks of mask from counter `i`. -/
def mgf1 (seed : List Byte) : Nat → Nat → List Byte
  | 0, _ => []
  | n + 1, i => sha256 (seed ++ beBytes 4 i) ++ mgf1 seed n (i + 1)

/-- `b ^ e mod m` by squaring, over `n` bits of the exponent. -/
def powMod (b e m : Nat) : Nat → Nat
  | 0 => 1 % m
  | n + 1 =>
    let r := powMod (b * b % m) (e / 2) m n
    if e % 2 = 1 then r * b % m else r

/-- RSASSA-PSS verification of a 32-byte message with a 3,072-bit key (RFC 8017, 8.1.2 and 9.1.2): salt of 32 bytes. -/
def pssVerify (modulus exponent : Nat) (message signature : List Byte) : Bool :=
  let sig := beNat signature
  if modulus ≤ sig then false else
  let bits := Nat.log2 modulus
  let emLen := (bits + 7) / 8
  let em := beBytes emLen (powMod sig exponent modulus 32)
  let dbLen := emLen - 33
  let masked := em.take dbLen
  let h := (em.drop dbLen).take 32
  let zeroBits := 8 * emLen - bits
  let db := List.zipWith (· ^^^ ·) masked (mgf1 h ((dbLen + 31) / 32) 0)
  let db := match db with
    | [] => []
    | x :: xs => BitVec.ofNat 8 (x.toNat % 2 ^ (8 - zeroBits)) :: xs
  let salt := db.drop (dbLen - 32)
  decide (em.getLast? = some 0xBC) && decide ((masked.headD 0).toNat < 2 ^ (8 - zeroBits)) &&
  decide (db.take (dbLen - 33) = List.replicate (dbLen - 33) 0) && decide (db[dbLen - 33]? = some 1) &&
  decide (sha256 (List.replicate 8 0 ++ sha256 message ++ salt) = h)

/-- The extend rule of measurement slots (R446): SHA-256 of the old value followed by the digest. -/
def extendSlot (old digest : List Byte) : List Byte := sha256 (old ++ digest)

/-! ### CRC-32 (R352, R431) -/

/-- One bit of the reflected IEEE 802.3 polynomial. -/
def crcBit (c : BitVec 32) : BitVec 32 := if c.getLsbD 0 then (c >>> 1) ^^^ 0xEDB88320#32 else c >>> 1

/-- One byte. -/
def crcByte (c : BitVec 32) (b : BitVec 8) : BitVec 32 :=
  crcBit (crcBit (crcBit (crcBit (crcBit (crcBit (crcBit (crcBit (c ^^^ b.setWidth 32))))))))

/-- The CRC-32 of bytes, with the IEEE 802.3 polynomial, as that standard computes it. -/
def crc32 (bs : List (BitVec 8)) : Nat := (~~~ (bs.foldl crcByte (BitVec.allOnes 32))).toNat

end Sys2Proof.Machine
end

