-- ==== Sys2Proof/Machine/Measure.lean ====
section
/-! DEFINITION. Measurement (R445 to R448): slots, the measured-object log and MEASURE records of the logbook; calibration (R436, R437);
signatures of the identity keys (R449). -/

namespace Sys2Proof.Machine

/-! ### Slots and the measured-object log -/

/-- The 32 bytes of a measurement slot (R447). -/
def State.slotBytes (s : State) (k : Nat) : List Byte := [0, 1, 2, 3].flatMap (fun w => leBytes 8 (s.reg (rSecSlot k w)).toNat)

/-- Put 32 bytes into the four words of a register group that holds a digest. -/
def State.putDigest (s : State) (off : Nat → Nat) (bs : List Byte) : State :=
  [0, 1, 2, 3].foldl (fun (t : State) w => t.setReg (off w) (BitVec.ofNat 64 (fieldAt bs (8 * w) 8))) s

/-- Payload of a MEASURE record (Table 17.2). -/
def measurePayload (slot kind outcome reason image serial : Nat) (digest build : List Byte) : List Byte :=
  leBytes 1 slot ++ leBytes 1 kind ++ leBytes 1 outcome ++ leBytes 1 reason ++ leBytes 1 image ++ leBytes 3 0 ++ leBytes 8 serial ++ digest ++ build

/-- Append a MEASURE record of an object other than an image. -/
def State.logMeasure (s : State) (slot kind outcome serial : Nat) (d : List Byte) : State :=
  s.logAppend lkMeasure (measurePayload slot kind outcome 0 0 serial d (List.replicate 16 0))

/-- Extend a slot with a digest and enter it in the measured-object log; in a full log the entry goes to the logbook instead, that of an
image with its outcome (R446, R448). -/
def State.measure (s : State) (slot kind outcome part serial : Nat) (d : List Byte) : State :=
  let s := s.putDigest (rSecSlot slot) (extendSlot (s.slotBytes slot) d)
  let e : MLogEnt := { slot := slot, kind := kind, outcome := outcome, part := part, index := s.sec.total, serial := serial, time := s.now, digest := d }
  let room := decide (s.sec.mlog.length < 8192)
  let s := s.putSec ({ s.sec with total := s.sec.total + 1, mlog := if room then s.sec.mlog ++ [e] else s.sec.mlog })
  if room ∨ kind = 9 then s else s.logMeasure slot kind outcome serial d

/-- Settle the outcome of the stored entry with an INDEX. -/
def State.settleEntry (s : State) (index outcome : Nat) : State :=
  s.putSec ({ s.sec with mlog := s.sec.mlog.map (fun e => if e.index = index then { e with outcome := outcome } else e) })

/-- Bytes of an entry (Table 18.6). -/
def MLogEnt.bytes (e : MLogEnt) : List Byte :=
  leBytes 1 e.slot ++ leBytes 1 e.kind ++ leBytes 1 e.outcome ++ leBytes 1 e.part ++ leBytes 4 e.index ++ leBytes 8 e.serial ++
  leBytes 8 e.time ++ e.digest ++ leBytes 8 0

/-! ### Signatures -/

/-- A list cut or filled with zeros to a length. -/
def fitBytes (n : Nat) (bs : List Byte) : List Byte := bs.take n ++ List.replicate (n - bs.length) 0

/-- Sign with the identity key of a die: 384 bytes; the salt is fresh (R453). -/
def State.sign (s : State) (die : Nat) (bs : List Byte) : List Byte × State :=
  (fitBytes 384 (Config.signature die s.free (sha256 bs)), (s.putFree (s.free + 1)))

/-! ### Calibration -/

/-- Move the receiver setting of lane `l` with its base setting (Table 17.3), within 0 to 31; a lane of a trained link that is not overridden shows
it (R350). -/
def State.moveBase (s : State) (l : Nat) (old new : Int) : State :=
  let s := s.modTrim 1 l (fun u => { u with output := max 0 (min 31 (u.output + (baseEq l new - baseEq l old))) })
  if s.fab.links.any (fun x => decide (x.1 ≤ l ∧ l < x.1 + x.2.width)) && s.fld (rFabLaneEq l) fFabLaneEq_OVERRIDE == 0 then
    s.setFld (rFabLaneEq l) fFabLaneEq_RX_CTLE (s.trim 1 l).output.toNat
  else s

/-- Set the user offset of an item; a change is logged as CALIBRATION with its source: 0 register, 1 image (R437). Every consumer of the item
uses the new effective value from then on. -/
def State.setCal (s : State) (i : Nat) (u : Int) (source : Nat) : State :=
  if u = s.calU i then s else
  let s := if 16 ≤ i ∧ i ≤ 287 then s.moveBase (i - 16) (s.calU i) u else s
  let s := s.putCal (if u = 0 then kvDel i s.cal else kvPut i u s.cal)
  s.logAppend lkCalibration (leBytes 4 i ++ leBytes 4 (unsignedOf 32 u) ++ leBytes 4 (unsignedOf 32 (calEffective i u)) ++
    leBytes 1 (calClamped i u).toNat ++ leBytes 1 source ++ leBytes 2 0)

end Sys2Proof.Machine
end

