-- ==== Sys2Proof/Machine/Image.lean ====
section
/-! DEFINITION. The bridle image (spec/02): its header, digest and signature, the record walk of R490, the configuration that its records
give each partition, and the cross-record and quota checks of steps 10 to 12 of Table 2.11. -/

namespace Sys2Proof.Machine

/-- A failed check, as `NODE_BRIDLE_ERR` reports it (Table 2.14); `left` are the bytes of the image that the walk had not checked when it
stopped. -/
structure ImgErr where
  reason : Nat
  index  : Nat := 0xFFFFFFFF
  type   : Nat := 0
  part   : Nat := 0xFF
  left   : Nat := 0
deriving DecidableEq, Repr

/-- A record of a type the node knows: its place among the records, TYPE and payload. -/
structure BRec where
  index : Nat
  type  : Nat
  body  : List Byte
deriving DecidableEq, Repr

/-- A field of `n` bytes at offset `o` of the payload. -/
def BRec.f (r : BRec) (o n : Nat) : Nat := fieldAt r.body o n

/-- A signed field of 4 bytes. -/
def BRec.z (r : BRec) (o : Nat) : Int := signedOf 32 (r.f o 4)

/-- The error of a record. -/
def BRec.err (r : BRec) (reason part : Nat) : ImgErr := { reason := reason, index := r.index, type := r.type, part := part }

/-! ### Header, digest, signature (R49, R50, R68 to R70) -/

def imgLength (bs : List Byte) : Nat := fieldAt bs 12 4
def imgKind (bs : List Byte) : Nat := fieldAt bs 16 1
def imgSigned (bs : List Byte) : Bool := fieldAt bs 17 1 == 1
def imgDiscard (bs : List Byte) : Bool := bitOf (fieldAt bs 18 2) 0
def imgRecords (bs : List Byte) : Nat := fieldAt bs 20 4
def imgMask (bs : List Byte) : Nat := fieldAt bs 24 8
def imgSerial (bs : List Byte) : Nat := fieldAt bs 32 8
def imgBase (bs : List Byte) : Nat := fieldAt bs 40 8
def imgBuild (bs : List Byte) : List Byte := fitBytes 16 ((bs.drop 80).take 16)

/-- Offset of the first record. -/
def imgFirst (bs : List Byte) : Nat := if imgSigned bs then 1280 else 256

/-- The bytes that DIGEST covers (R68). -/
def imgDigested (bs : List Byte) : List Byte :=
  bs.take 48 ++ List.replicate 32 0 ++ (bs.drop 80).take 176 ++
    (if imgSigned bs then (bs.drop 256).take 640 ++ List.replicate 384 0 ++ bs.drop 1280 else bs.drop 256)

/-- Whether the signature block verifies under an enrolled key (R69). -/
def State.imgSignatureOk (s : State) (bs : List Byte) : Bool :=
  let block := bs.drop 256
  let key := block.take 32
  sha256 ((block.drop 32).take 388) == key && s.sec.keys.any (fun k => k.1 == 1 && k.2 == key) &&
  pssVerify (beNat ((block.drop 32).take 384)) (beNat ((block.drop 416).take 4)) ((bs.drop 48).take 32) ((block.drop 640).take 384)

/-- Steps 2 to 6 of Table 2.11, in order, on the copy of an image of which IMAGE_BYTES bytes were asked for. The reserved fields of the
header, the values of IMAGE_KIND and SIG_PRESENT and the BASE_SERIAL of a full image are those of step 4. Reserved bytes of the signature
block that are not zero are refused with 0x0A, where the spec names no reason (DEDUCED, log entry 45). -/
def State.headCheck (s : State) (bs : List Byte) (asked : Nat) : Option Nat :=
  let id := (s.reg rNodeId).toNat
  let stepping := fieldAt bs 10 1
  let variant := id / 2 ^ 24 % 256
  let len := imgLength bs
  ([ (decide (bs.take 4 ≠ [0x56, 0x58, 0x42, 0x49]), 0x03),
     (decide (fieldAt bs 4 2 ≠ 2), 0x04),
     (decide (fieldAt bs 8 2 ≠ 9 ∨ (stepping ≠ 0 ∧ stepping ≠ id / 2 ^ 8 % 256)) || !bitOf (fieldAt bs 11 1) (variant - 1), 0x05),
     (decide (len % 8 ≠ 0 ∨ len ≠ asked ∨ len < imgFirst bs + 8 ∨ (if imgKind bs = 1 then 1048576 else 16777216) < len), 0x06),
     (decide (1 < imgKind bs ∨ 1 < fieldAt bs 17 1 ∨ 1 < fieldAt bs 18 2 ∨ 3 < fieldAt bs 11 1 ∨ imgSerial bs = 0 ∨ (imgKind bs = 0 ∧ imgBase bs ≠ 0)) ||
       !zeroAt bs 96 160, 0x07),
     (decide (sha256 (imgDigested bs) ≠ (bs.drop 48).take 32), 0x08),
     (!imgSigned bs && s.fld rNodeBridlePolicy fNodeBridlePolicy_REQUIRE_SIG == 1, 0x09),
     (imgSigned bs && !(zeroAt bs 676 220 && s.imgSignatureOk bs), 0x0A) ].find? (fun x => x.1)).map (fun x => x.2)

/-! ### Records (Tables 2.3 to 2.8) -/

/-- The types of Table 2.3. -/
def recTypes : List Nat := [0x0101, 0x0102, 0x0103, 0x0104, 0x0201, 0x0202, 0x0203, 0x0204, 0x0301, 0x0302, 0x0303, 0x0304, 0x0401, 0x0501, 0x0502, 0x7F01]

/-- Stage `i` of a PIPELINE record (Table 2.6). -/
def BRec.stage (r : BRec) (i : Nat) : Stage :=
  let o := 8 + 16 * i
  { kind := r.f o 1, place := r.f (o + 1) 1, pool := r.f (o + 2) 1, nextA := r.f (o + 3) 1, nextB := r.f (o + 4) 1, param := r.f (o + 8) 8 }

/-- The stages of a PIPELINE record. -/
def BRec.stages (r : BRec) : List Stage := (List.range (r.f 1 1)).map r.stage

/-- The entries of a GATE_LIST record (Table 2.8): gates and duration. -/
def BRec.gates (r : BRec) : List (Nat × Nat) := (List.range (r.f 2 1)).map (fun j => (r.f (8 + 8 * j) 1, r.f (12 + 8 * j) 4))

/-- Payload bytes that Table 2.3 gives the record's type. -/
def BRec.lengthDue (r : BRec) : Nat :=
  match r.type with
  | 0x0101 => 8 | 0x0102 => 16 | 0x0103 => 24 | 0x0104 => 8
  | 0x0201 => 96 | 0x0202 => 8 + 16 * r.f 1 1 | 0x0203 => 16 | 0x0204 => 16
  | 0x0301 => 24 | 0x0302 => 8 | 0x0303 => 40 | 0x0304 => 8 + 8 * r.f 2 1
  | 0x0401 => 8 | 0x0501 => 24 | 0x0502 => 32 | _ => 0

/-- Bits of PARAM in use by a stage kind (Table 2.7). -/
def paramBits (kind : Nat) : Nat := [0, 0xFF, 3, 0xFFFFFF, 0, 0xFF03, 0xFFFF, 3, 3].getD kind (2 ^ 64 - 1)

/-- Whether a value has bits outside a mask. -/
def outside (v mask : Nat) : Bool := v &&& mask != v

/-- Whether every reserved byte and bit of the payload is zero (R12). Bits of a stage's PARAM outside the fields of Table 2.7, and all of the
PARAM of kind 4, count as reserved, so that check 6 refuses them with 0x10 (DEDUCED, log entry 45). -/
def BRec.reservedZero (r : BRec) : Bool :=
  let z := zeroAt r.body
  match r.type with
  | 0x0101 => z 2 6
  | 0x0102 => z 11 5
  | 0x0103 => z 1 1 && z 10 2 && z 20 4
  | 0x0201 => decide (r.f 4 1 < 4 ∧ r.f 16 1 < 16) && z 17 3 && z 28 4 && z 76 20
  | 0x0202 => z 2 6 && (List.range (r.f 1 1)).all (fun i => z (13 + 16 * i) 3 && !outside (r.stage i).param (paramBits (r.stage i).kind))
  | 0x0203 => z 2 6
  | 0x0204 => z 3 1 && z 10 6
  | 0x0301 => decide (r.f 1 1 < 4) && z 2 2 && z 20 4
  | 0x0302 => decide (r.f 1 1 < 4) && z 3 1
  | 0x0303 => decide (r.f 1 1 < 4) && z 6 2
  | 0x0304 => z 3 5 && (List.range (r.f 2 1)).all (fun j => z (9 + 8 * j) 3)
  | 0x0401 => decide (r.f 2 1 < 8 ∧ r.f 4 2 < 512 ∧ r.f 6 1 < 32) && z 7 1
  | 0x0501 => z 1 7
  | 0x0502 => z 1 7 && decide (r.f 8 8 < 2 ^ 48)
  | _ => true

/-- Whether share weights agree with a mask: 1 to 255 where the mask bit is set, 0 elsewhere (Table 2.5). -/
def weightsOk (mask : Nat) (ws : List Nat) : Bool := ws.zipIdx.all (fun x => (x.1 != 0) == bitOf mask x.2)

/-- The bytes of a field, as numbers. -/
def BRec.bytesAt (r : BRec) (o n : Nat) : List Nat := (List.range n).map (fun i => r.f (o + i) 1)

/-- Whether a record has a PARTITION field: every record of sections 0x02 to 0x05 but GATE_LIST. -/
def BRec.hasPart (r : BRec) : Bool := decide (0x0200 ≤ r.type ∧ r.type < 0x0600 ∧ r.type ≠ 0x0304)

/-- Whether a TRIM_TARGET's unit and settings lie in their ranges (R56). -/
def trimOk (loop : Nat) (target lo hi : Int) : Bool :=
  decide (lo ≤ target ∧ target ≤ hi ∧ (trimFactory loop).1 ≤ lo ∧ hi ≤ (trimFactory loop).2)

/-- Whether every field of the payload lies in its range (check 7 of R490). A STREAM_COUNT of a STREAM_ROUTE outside 1 to 8,192, for which
R64 gives no range of its own, fails it with 0x13 (DESIGN CHOICE, log entry 45). -/
def BRec.inRange (r : BRec) : Bool :=
  let rng := fun (o n lo hi : Nat) => decide (lo ≤ r.f o n ∧ r.f o n ≤ hi)
  (!r.hasPart || rng 0 1 0 63) &&
  (match r.type with
   | 0x0101 => rng 0 2 0 0 || rng 0 2 900 1500
   | 0x0102 => rng 10 1 0 1 && (rng 10 1 0 0 || rng 8 2 1 0xFFFE)
   | 0x0103 => rng 0 1 0 4 && (rng 2 2 0xFFFF 0xFFFF || decide (r.f 2 2 < trimUnits (r.f 0 1))) && trimOk (r.f 0 1) (r.z 4) (r.z 12) (r.z 16)
   | 0x0104 => calItem (r.f 0 4)
   | 0x0201 => rng 1 1 0 1 && rng 2 2 0 62 && rng 5 1 1 64 && rng 6 1 1 64 && rng 24 4 100 100000 && rng 66 2 1 8192 && rng 72 2 0 512 &&
       rng 74 1 0 64 && rng 75 1 0 16 && weightsOk (r.f 7 1) (r.bytesAt 8 8) && weightsOk (r.f 16 1) (r.bytesAt 20 4)
   | 0x0202 => rng 1 1 1 8 && r.stages.all (fun g => decide (1 ≤ g.kind ∧ g.kind ≤ 8 ∧ g.place ≤ 3 ∧ g.pool ≤ 2 ∧
       (g.nextA < r.f 1 1 ∨ g.nextA = 0xFF) ∧ (g.nextB < r.f 1 1 ∨ g.nextB = 0xFF)))
   | 0x0203 => rng 1 1 0 3 && decide (r.f 8 8 % 2097152 = 0)
   | 0x0204 => rng 1 1 0 1 && rng 2 1 0 7 && rng 6 2 1 8192 && (rng 1 1 0 0 || rng 8 2 0 1023)
   | 0x0301 => rng 1 1 1 3 && rng 6 2 1 0xFFFF && rng 8 8 1 6400000000000 && rng 16 4 256 (2 ^ 31)
   | 0x0302 => rng 1 1 1 3 && rng 2 1 0 7 && rng 4 4 1 65535
   | 0x0303 => rng 1 1 1 3 && rng 2 1 0 1 && rng 3 1 0 1 && rng 4 2 0 1024 && decide (r.f 8 8 ≤ r.f 24 8)
   | 0x0304 => rng 0 1 0 31 && rng 1 1 0 63 && rng 2 1 1 64 && r.gates.all (fun g => decide (1 ≤ g.2 ∧ g.2 ≤ 100000000))
   | 0x0401 => rng 1 1 0 3 && rng 3 1 0 2
   | 0x0501 => decide (2097152 ≤ r.f 16 8)
   | 0x0502 => decide (2097152 ≤ r.f 24 8)
   | _ => true)

/-- Whether the type may stand in a partial image, loops 3 and 4 alone for a TRIM_TARGET (Table 2.3). -/
def BRec.partialOk (r : BRec) : Bool :=
  if r.type = 0x0103 then decide (3 ≤ r.f 0 1 ∧ r.f 0 1 ≤ 4) else r.type != 0x0101 && r.type != 0x0102 && r.type != 0x0104 && r.type != 0x0304

/-- Whether every partition the record names lies in the mask (check 8 of R490). UNIT 0xFFFF of a TRIM_TARGET counts here as naming all 64
partitions, so that only an all-ones mask passes it (DESIGN CHOICE, log entry 45). -/
def BRec.inScope (r : BRec) (mask : Nat) : Bool :=
  if r.type = 0x0103 then (if r.f 2 2 = 0xFFFF then mask == 2 ^ 64 - 1 else bitOf mask (r.f 2 2)) else !r.hasPart || bitOf mask (r.f 0 1)

/-- Partitions named that need an earlier PARTITION record (check 9 of R490). -/
def BRec.needs (r : BRec) : List Nat :=
  if r.type = 0x0201 then [] else if r.hasPart then [r.f 0 1] else if r.type = 0x0304 then [r.f 1 1] else []

/-- The partition that a TRIM_TARGET of loop 3 or 4 names. Its section comes before that of the PARTITION records, so it needs one anywhere in
the image (R52, R79, R490; DEDUCED, log entry 45). UNIT 0xFFFF names none here, so check 9 asks nothing of it (DESIGN CHOICE, log entry 45). -/
def BRec.needsAny (r : BRec) : List Nat := if r.type = 0x0103 ∧ 3 ≤ r.f 0 1 ∧ r.f 2 2 ≠ 0xFFFF then [r.f 2 2] else []

/-- The duplicate key of a record (Table 2.11), for the types that have one. -/
def BRec.key (r : BRec) : Option (List Nat) :=
  match r.type with
  | 0x0101 => some [] | 0x0102 => some [] | 0x0103 => some [r.f 0 1, r.f 2 2] | 0x0104 => some [r.f 0 4]
  | 0x0201 => some [r.f 0 1] | 0x0202 => some [r.f 0 1] | 0x0203 => some [r.f 0 1, r.f 1 1]
  | 0x0304 => some [r.f 0 1] | 0x0401 => some [r.f 0 1, r.f 1 1] | _ => none

/-- Checks 3 to 10 of R490 on a record of a known type, in their order; `named` are the partitions of all PARTITION records, `sect` the section
of the record before it, `before` the known records before it. A record of a known type whose CRITICAL is 0 fails check 3, and PARTITION of
`NODE_BRIDLE_ERR` reads 0xFF where FLAGS or LENGTH fails and for a TRIM_TARGET or GATE_LIST (DEDUCED, log entry 45). -/
def BRec.check (r : BRec) (flags : Nat) (partial_ : Bool) (mask : Nat) (named : List Nat) (sect : Nat) (before : List BRec) : Option ImgErr :=
  let part := if r.hasPart then r.f 0 1 else 0xFF
  ([ (decide (flags ≠ (if r.type / 256 = 5 then 3 else 1)), 0x10, 0xFF),
     (decide (r.body.length ≠ r.lengthDue), 0x10, 0xFF),
     (partial_ && !r.partialOk, 0x15, part),
     (!r.reservedZero, 0x10, part),
     (!r.inRange, 0x13, part),
     (partial_ && !r.inScope mask, 0x18, part),
     (decide (r.type / 256 < sect) || r.needsAny.any (fun p => !named.contains p) || r.needs.any (fun p => !before.any (fun b => b.type == 0x0201 && b.f 0 1 == p)), 0x12, part),
     (r.key.isSome && before.any (fun b => b.type == r.type && b.key == r.key), 0x14, part)
   ].find? (fun x => x.1)).map (fun x => r.err x.2.1 x.2.2)

/-- The partitions that the PARTITION records of an image name, wherever they stand. -/
def namedParts : Nat → List Byte → List Nat
  | 0, _ => []
  | fuel + 1, rest =>
    let whole := 8 + (fieldAt rest 4 4 + 7) / 8 * 8
    if rest.length < whole then []
    else (if fieldAt rest 0 2 = 0x0201 then [fieldAt rest 8 1] else []) ++ namedParts fuel (rest.drop whole)

/-- The record walk (R490): `rest` are the bytes from the record with number `n` on, `sect` the section of the record before it, known or
skipped. Answers the known records and the number skipped. A padding byte that is not zero fails check 1, also behind a record that is skipped
(DEDUCED, log entry 45). -/
def walkImage (partial_ : Bool) (mask count : Nat) (named : List Nat) : Nat → List Byte → Nat → Nat → List BRec → Nat → Except ImgErr (List BRec × Nat)
  | 0, rest, _, _, _, _ => .error { reason := 0x10, left := rest.length }
  | fuel + 1, rest, n, sect, before, skipped =>
    let type := fieldAt rest 0 2
    let flags := fieldAt rest 2 2
    let len := fieldAt rest 4 4
    let whole := 8 + (len + 7) / 8 * 8
    if rest.length < 8 then .error { reason := 0x10, left := rest.length }
    else if rest.length < whole ∨ zeroAt rest (8 + len) (whole - 8 - len) = false then .error { reason := 0x10, index := n, type := type, left := rest.length }
    else if recTypes.contains type = false then
      if bitOf flags 0 then .error { reason := 0x11, index := n, type := type, left := rest.length }
      else walkImage partial_ mask count named fuel (rest.drop whole) (n + 1) (type / 256) before (skipped + 1)
    else
      let r : BRec := { index := n, type := type, body := (rest.drop 8).take len }
      match r.check flags partial_ mask named sect before with
      | some e => .error { e with left := rest.length }
      | none =>
        if type = 0x7F01 then
          if rest.length ≠ whole ∨ n + 1 ≠ count then .error { reason := 0x10, index := n, type := type, left := rest.length } else .ok (before ++ [r], skipped)
        else walkImage partial_ mask count named fuel (rest.drop whole) (n + 1) (type / 256) (before ++ [r]) skipped

/-- Step 9: the record walk over a whole image. -/
def walk (bs : List Byte) : Except ImgErr (List BRec × Nat) :=
  let rest := bs.drop (imgFirst bs)
  walkImage (imgKind bs == 1) (imgMask bs) (imgRecords bs) (namedParts (bs.length / 8 + 1) rest) (bs.length / 8 + 1) rest 0 0 [] 0

/-! ### The configuration that the records give -/

/-- Records of a type that name partition `p`. -/
def recsOf (rs : List BRec) (type p : Nat) : List BRec := rs.filter (fun r => r.type == type && r.f 0 1 == p)

/-- The configuration of a partition from its PARTITION record and every record that names it (Tables 2.5 to 2.9). -/
def cfgOf (rs : List BRec) (r : BRec) : PartCfg :=
  let p := r.f 0 1
  let dflt := fun (v d : Nat) => if v = 0 then d else v
  let flag := fun (i : Nat) => bitOf (r.f 4 1) i
  let quota := fun (t : Nat) => (((recsOf rs 0x0203 p).find? (fun x => x.f 1 1 == t)).map (fun x => x.f 8 8)).getD 0
  { port := r.f 1 1, vf := r.f 2 2, privileged := flag 0, vx7 := flag 1, sqCount := r.f 5 1, msixCount := r.f 6 1, clusterMask := r.f 7 1,
    clusterW := r.bytesAt 8 8, arrayMask := r.f 16 1, arrayW := r.bytesAt 20 4, periodUs := r.f 24 4, procChannels := r.f 32 32,
    streamFirst := r.f 64 2, streamCount := r.f 66 2, ctxG0 := r.f 68 2, ctxG1 := r.f 70 2, smallBatch := dflt (r.f 72 2) 64,
    holdLimit := dflt (r.f 74 1) 8, thrSets := dflt (r.f 75 1) 16,
    stages := (recsOf rs 0x0202 p).flatMap BRec.stages,
    quota := [quota 0, quota 1, quota 2, quota 3],
    routes := (recsOf rs 0x0204 p).map (fun x => { kind := x.f 1 1, cls := x.f 2 1, first := x.f 4 2, count := x.f 6 2, target := x.f 8 2 }),
    shapers := (recsOf rs 0x0301 p).map (fun x => { apply := x.f 1 1, first := x.f 4 2, count := x.f 6 2, rate := x.f 8 8, burst := x.f 16 4 }),
    scheds := (recsOf rs 0x0302 p).map (fun x => { apply := x.f 1 1, cls := x.f 2 1, weight := x.f 4 4 }),
    meters := (recsOf rs 0x0303 p).map (fun x => { apply := x.f 1 1, yellow := x.f 2 1, red := x.f 3 1, overhead := x.f 4 2, cir := x.f 8 8, cbs := x.f 16 8, pir := x.f 24 8, pbs := x.f 32 8 }),
    modes := (recsOf rs 0x0401 p).map (fun x => { array := x.f 1 1, modes := x.f 2 1, dflt := x.f 3 1, types := x.f 4 2, distOps := x.f 6 1 }),
    prot := (recsOf rs 0x0501 p).map (fun x => { base := x.f 8 8, len := x.f 16 8 }),
    windows := (recsOf rs 0x0502 p).map (fun x => { vx7Base := x.f 8 8, nodeBase := x.f 16 8, len := x.f 24 8 }) }

/-- The partitions that an image configures, in record order, with their PARTITION records. -/
def imgParts (rs : List BRec) : List (Nat × BRec × PartCfg) := (rs.filter (fun r => r.type == 0x0201)).map (fun r => (r.f 0 1, r, cfgOf rs r))

/-- Partitions in scope: those of the mask, and in a full image every partition (R74). -/
def imgScope (bs : List Byte) (p : Nat) : Bool := imgKind bs == 0 || bitOf (imgMask bs) p

/-- The partitions outside the scope, which keep their configuration. -/
def State.keptParts (s : State) (bs : List Byte) : List (Nat × PartCfg) :=
  s.parts.filterMap (fun x => match x.2.cfg with
    | some c => if imgScope bs x.1 then none else some (x.1, c)
    | none => none)

/-! ### Step 10 -/

/-- Whether a PARAM lies in its range; a zero where a range is given selects the default (Table 2.7). -/
def paramOk (kind v : Nat) : Bool :=
  match kind with
  | 3 => decide ((v % 65536 = 0 ∨ (64 ≤ v % 65536 ∧ v % 65536 ≤ 1024)) ∧ v / 65536 % 256 ≤ 16)
  | 5 => decide (v % 4 ≤ 2 ∧ v / 256 % 256 ≤ 64)
  | 6 => decide (v % 65536 ≤ 1024)
  | 8 => decide (v % 4 ≤ 2)
  | _ => true

/-- PLACE values allowed for a stage kind (Table 2.7). -/
def placesOf (kind : Nat) : List Nat := [[], [0], [0, 1], [2], [3], [0, 1], [2], [2], [2]].getD kind []

/-- Next stages of a stage. -/
def Stage.nexts (g : Stage) : List Nat := [g.nextA, g.nextB].filter (· != 0xFF)

/-- Stages reached from a set within a number of moves. -/
def reachStages (gs : List Stage) : Nat → List Nat → List Nat
  | 0, xs => xs
  | n + 1, xs => reachStages gs n ((xs ++ xs.flatMap (fun i => (gs[i]?.map Stage.nexts).getD [])).eraseDups)

/-- R62: reachable from stage 0, no cycle, end stages of kind 6, 7 or 8, places and parameters allowed, a context allowance for every pool. -/
def pipelineOk (gs : List Stage) (c : PartCfg) : Bool :=
  (List.range gs.length).all (fun i => (reachStages gs 8 [0]).contains i) &&
  gs.zipIdx.all (fun x => !(reachStages gs 8 x.1.nexts).contains x.2) &&
  gs.all (fun g => (placesOf g.kind).contains g.place && paramOk g.kind g.param && (!g.nexts.isEmpty || decide (6 ≤ g.kind)) &&
    (match g.pool with
     | 0 => decide (0 < c.ctxG0)
     | 1 => decide (0 < c.ctxG1)
     | _ => decide (0 < c.ctxG0 + c.ctxG1)))

/-- Whether two half-open ranges meet. -/
def meets (a n b m : Nat) : Bool := decide (a < b + m ∧ b < a + n)

/-- Whether partition `p` breaks R59 beside the partitions taken before it. -/
def r59Breaks (seen : List PartCfg) (p : Nat) (c : PartCfg) : Bool :=
  let all := c :: seen
  (if p = 0 then decide (c.port ≠ 0 ∨ c.vf ≠ 0) else if p = 32 then decide (c.port ≠ 1 ∨ c.vf ≠ 0) else c.vf == 0) ||
  seen.any (fun d => (d.port == c.port && d.vf == c.vf) || meets d.streamFirst d.streamCount c.streamFirst c.streamCount || d.procChannels &&& c.procChannels != 0) ||
  decide (4 < (all.filter (fun d => d.privileged)).length ∨ 8192 < c.streamFirst + c.streamCount ∨ 16384 < (all.map (fun d => d.ctxG0)).sum ∨
    16384 < (all.map (fun d => d.ctxG1)).sum ∨ c.clusterMask = 0) ||
  (c.stages.any (fun g => g.place == 0) && c.arrayMask == 0) || (c.stages.any (fun g => g.kind == 4) && c.procChannels == 0)

/-- R59 over the partitions in turn. -/
def r59 : List PartCfg → List (Nat × BRec × PartCfg) → Option ImgErr
  | _, [] => none
  | seen, (p, r, c) :: rest => if r59Breaks seen p c then some (r.err 0x16 p) else r59 (seen ++ [c]) rest

/-- A protected region or window, by partition: whether it is a window, its node address, length and VX7 address. -/
structure Region where
  part : Nat
  win  : Bool
  base : Nat
  len  : Nat
  vx7  : Nat
deriving DecidableEq, Repr

/-- The regions and windows of a partition. -/
def regionsOf (p : Nat) (c : PartCfg) : List Region :=
  c.prot.map (fun x => { part := p, win := false, base := x.base, len := x.len, vx7 := 0 }) ++
  c.windows.map (fun x => { part := p, win := true, base := x.nodeBase, len := x.len, vx7 := x.vx7Base })

/-- The region that a VX7_PROTECTED record names, or the window of a VX7_WINDOW record. -/
def BRec.region (b : BRec) : Region :=
  if b.type = 0x0502 then { part := b.f 0 1, win := true, base := b.f 16 8, len := b.f 24 8, vx7 := b.f 8 8 }
  else { part := b.f 0 1, win := false, base := b.f 8 8, len := b.f 16 8, vx7 := 0 }

/-- Whether a region breaks R67 beside those before it. -/
def State.regionBreaks (s : State) (c : PartCfg) (seen : List Region) (g : Region) : Bool :=
  !c.vx7 || decide (g.base % 2097152 ≠ 0 ∨ g.len % 2097152 ≠ 0 ∨ g.vx7 % 2097152 ≠ 0) ||
  !(s.mapped 0 g.base g.len || (g.win && tierOf g.base == some 1 && tierOf (g.base + g.len - 1) == some 1)) ||
  seen.any (fun d => meets d.base d.len g.base g.len || (g.win && d.win && d.part == g.part && meets d.vx7 d.len g.vx7 g.len)) ||
  (!g.win && decide (c.quota.getD 0 0 < g.len + ((seen.filter (fun d => !d.win && d.part == g.part)).map (fun d => d.len)).sum))

/-- The record's checks of step 10 beside the records before it (R62, R64 to R67, R385, R388). -/
def State.crossOne (s : State) (parts : List (Nat × PartCfg)) (kept : List Region) (before : List BRec) (r : BRec) : Option ImgErr :=
  let p := r.f 0 1
  let c := ((parts.find? (fun x => x.1 == p)).map (fun x => x.2)).getD {}
  let within := decide (c.streamFirst ≤ r.f 4 2 ∧ r.f 4 2 + r.f 6 2 ≤ c.streamFirst + c.streamCount)
  let same := before.filter (fun b => b.type == r.type && b.f 0 1 == p)
  let bad := fun (b : Bool) => if b then some (r.err 0x16 p) else none
  match r.type with
  | 0x0202 => if pipelineOk r.stages c then none else some (r.err 0x17 p)
  | 0x0204 => bad (!within || same.any (fun b => meets (b.f 4 2) (b.f 6 2) (r.f 4 2) (r.f 6 2)) || (r.f 1 1 == 0 && decide (c.sqCount ≤ r.f 8 2)))
  | 0x0301 => bad (!within)
  | 0x0302 => bad (same.any (fun b => b.f 2 1 == r.f 2 1 && b.f 1 1 &&& r.f 1 1 != 0))
  | 0x0304 => match parts.find? (fun x => x.1 == r.f 1 1) with
    | some x => if x.2.periodUs * 1000 < (r.gates.map (fun g => g.2)).sum then some (r.err 0x16 0xFF) else none
    | none => none
  | 0x0401 => bad (!bitOf c.arrayMask (r.f 1 1) || !bitOf (r.f 2 1) (r.f 3 1) || (r.f 6 1 != 0 && !bitOf (r.f 2 1) 2))
  | 0x0501 => bad (s.regionBreaks c (kept ++ (before.filter (fun b => b.type == 0x0501 || b.type == 0x0502)).map BRec.region) r.region)
  | 0x0502 => bad (s.regionBreaks c (kept ++ (before.filter (fun b => b.type == 0x0501 || b.type == 0x0502)).map BRec.region) r.region)
  | _ => none

/-- The records in turn. -/
def State.crossAll (s : State) (parts : List (Nat × PartCfg)) (kept : List Region) : List BRec → List BRec → Option ImgErr
  | _, [] => none
  | before, r :: rest => match s.crossOne parts kept before r with
    | some e => some e
    | none => s.crossAll parts kept (before ++ [r]) rest

/-- The record types that the cross-record rules judge, rule by rule in the order of step 10 (R62, R64 to R67). The records of shapers and
schedules, whose checks R385 and R388 give and Table 2.11 does not list, come after them (DESIGN CHOICE, log entry 45). -/
def crossOrder : List (List Nat) := [[0x0202], [0x0204], [0x0304], [0x0401], [0x0501, 0x0502], [0x0301], [0x0302]]

/-- PARTITION_MASK against the PARTITION records of a full image (R77, R490), and the mask of a partial image, which names a partition (R79). -/
def maskCheck (full : Bool) (mask : Nat) (ps : List (Nat × BRec × PartCfg)) : Option ImgErr :=
  if !full then (if mask == 0 then some { reason := 0x18 } else none)
  else match ps.find? (fun x => !bitOf mask x.1) with
  | some x => some (x.2.1.err 0x18 x.1)
  | none => ((List.range 64).find? (fun p => bitOf mask p && !ps.any (fun x => x.1 == p))).map (fun p => { reason := 0x18, part := p })

/-- Step 10, its checks in the order of Table 2.11. -/
def State.crossCheck (s : State) (bs : List Byte) (rs : List BRec) : Option ImgErr :=
  let ps := imgParts rs
  let kept := s.keptParts bs
  let full := imgKind bs == 0
  if full && ps.isEmpty then some { reason := 0x16 }
  else match r59 (kept.map (fun x => x.2)) ps with
  | some e => some e
  | none =>
    match crossOrder.findSome? (fun types => s.crossAll (kept ++ ps.map (fun x => (x.1, x.2.2))) (kept.flatMap (fun x => regionsOf x.1 x.2)) []
        (rs.filter (fun r => types.contains r.type))) with
    | some e => some e
    | none => maskCheck full (imgMask bs) ps

/-! ### Step 11 (R491) -/

/-- Running sums of the QUOTA records of a tier: the first that passes the capacity (R63). -/
def quotaOver (cap : Nat) : Nat → List BRec → Option BRec
  | _, [] => none
  | sum, r :: rest => if cap < sum + r.f 8 8 then some r else quotaOver cap (sum + r.f 8 8) rest

/-- Quota sums of tiers A, B and F (R63): partitions outside the scope count first. -/
def State.quotaSums (s : State) (bs : List Byte) (rs : List BRec) : Option ImgErr :=
  [0, 1, 3].findSome? (fun t =>
    let own := ((s.keptParts bs).map (fun x => x.2.quota.getD t 0)).sum
    (quotaOver (s.tierCapacity t) own (rs.filter (fun r => r.type == 0x0203 && r.f 1 1 == t))).map (fun r => r.err 0x19 (r.f 0 1)))

/-- Bytes of a ring area and of a young tombstone table (R182, R208). -/
def ringLen : Nat := 3145728
def youngLen : Nat := 4194304

/-- What an area placed at a load is for: 0 protected region, 1 ring area, 2 young tombstone table. -/
def areaKind (k : Nat) : AllocKind := if k = 0 then .protected7 else if k = 1 then .ring else .tombstones

/-- An area of partition `p` at an address. -/
def State.putArea (s : State) (p k a len : Nat) : State :=
  s.modMem (fun m => { m with allocs := kvPut a { len := len, part := some p, kind := areaKind k } m.allocs })

/-- Whether an area is placed at a load. -/
def Alloc.atLoad (x : Alloc) : Bool := x.kind == .protected7 || x.kind == .ring || x.kind == .tombstones

/-- Whether a load-time area is a region that the image keeps, with the same partition, BASE and LENGTH (R67). -/
def Alloc.sameRegion (rs : List BRec) (a : Nat) (x : Alloc) : Bool :=
  x.kind == .protected7 && rs.any (fun r => r.type == 0x0501 && x.part == some (r.f 0 1) && r.f 8 8 == a && r.f 16 8 == x.len)

/-- Load-time areas of the partitions in scope that are in place now, as ranges that no new region may cover: all but the regions that the
image keeps (R67). -/
def State.heldAreas (s : State) (bs : List Byte) (rs : List BRec) : List (Nat × Nat) :=
  (s.mem.allocs.filter (fun x => x.2.atLoad && (match x.2.part with | some p => imgScope bs p | none => false) && !x.2.sameRegion rs x.1)).map
    (fun x => (x.1, x.2.len))

/-- The allocations without the load-time areas of the partitions in scope. -/
def State.liftAreas (s : State) (bs : List Byte) : State :=
  s.modMem (fun m => { m with allocs := m.allocs.filter (fun x => match x.2.part with
    | some p => !(imgScope bs p && x.2.atLoad)
    | none => true) })

/-- The highest free 3 MiB of a channel (R182). -/
def State.ringPlace (s : State) (c : Nat) : Option Nat :=
  let top := (c + 1) * 2 ^ 31 - (if s.isS256 then 2 ^ 30 else 0)
  let cand := (top :: (s.mem.allocs.map (fun x => x.1)).filter (fun a => decide (c * 2 ^ 31 < a ∧ a < top))).filterMap (fun a => if ringLen ≤ a then some (a - ringLen) else none)
  (cand.filter (fun a => decide (c * 2 ^ 31 ≤ a) && s.mem.isFree a ringLen)).foldl (fun best a => match best with
    | none => some a
    | some b => if b < a then some a else best) none

/-- Place one area within the partition's new Tier A quota: a region at its base, clear of what is allocated now (`held`), a ring area in its
channel, a young tombstone table anywhere (R67, R182, R208). -/
def State.placeArea (s : State) (held : List (Nat × Nat)) (p quota k at_ len : Nat) : Option (Nat × State) :=
  if quota < s.useOf p 0 + len then none
  else
    let place := if k = 0 then (if s.mem.isFree at_ len && !held.any (fun h => meets h.1 h.2 at_ len) then some at_ else none) else if k = 1 then s.ringPlace at_ else s.findPlace p 0 len
    place.map (fun a => (a, s.putArea p k a len))

/-- The areas a partition needs in a phase: its protected regions first of all partitions, then its rings and, with a sketch stage, its
young tombstone table; with the record that a failure names. -/
def areasOf (rs : List BRec) (x : Nat × BRec × PartCfg) (phase : Nat) : List (Nat × Nat × Nat × BRec) :=
  if phase = 0 then (recsOf rs 0x0501 x.1).map (fun r => (0, r.f 8 8, r.f 16 8, r))
  else
    let r := ((recsOf rs 0x0203 x.1).find? (fun q => q.f 1 1 == 0)).getD x.2.1
    (((List.range 256).filter (bitOf x.2.2.procChannels)).map (fun c => (1, c, ringLen, r))) ++
      (if x.2.2.stages.any (fun g => g.kind == 2) then [(2, 0, youngLen, r)] else [])

/-- Place a list of areas in turn, collecting address, length and partition * 4 + kind. -/
def State.placeAll (held : List (Nat × Nat)) (p quota : Nat) : List (Nat × Nat × Nat × BRec) → State → List (Nat × Nat × Nat) → Except ImgErr (State × List (Nat × Nat × Nat))
  | [], s, acc => .ok (s, acc)
  | (k, a, len, r) :: rest, s, acc => match s.placeArea held p quota k a len with
    | none => .error (r.err 0x19 p)
    | some (b, s) => State.placeAll held p quota rest s (acc ++ [(b, len, p * 4 + k)])

/-- Place the areas of every partition of the image for a phase. -/
def State.placePhase (held : List (Nat × Nat)) (rs : List BRec) (phase : Nat) : List (Nat × BRec × PartCfg) → State → List (Nat × Nat × Nat) → Except ImgErr (State × List (Nat × Nat × Nat))
  | [], s, acc => .ok (s, acc)
  | x :: rest, s, acc => match State.placeAll held x.1 (x.2.2.quota.getD 0 0) (areasOf rs x phase) s acc with
    | .error e => .error e
    | .ok (s, acc) => State.placePhase held rs phase rest s acc

/-- Quotas at or above present use in every tier. The quota is the image's, also where a composition gives the partition an effective quota
of its own (R318; DESIGN CHOICE, log entry 45). -/
def State.quotaBelow (s : State) (rs : List BRec) : Option ImgErr :=
  (imgParts rs).findSome? (fun x => [0, 1, 2, 3].findSome? (fun t =>
    if x.2.2.quota.getD t 0 < s.useOf x.1 t then
      some ((((recsOf rs 0x0203 x.1).find? (fun q => q.f 1 1 == t)).getD x.2.1).err 0x1A x.1)
    else none))

/-- Step 11: quota sums, then placements, then present use; answers the placements. -/
def State.quotaCheck (s : State) (bs : List Byte) (rs : List BRec) : Except ImgErr (List (Nat × Nat × Nat)) :=
  match s.quotaSums bs rs with
  | some e => .error e
  | none => match State.placePhase (s.heldAreas bs rs) rs 0 (imgParts rs) (s.liftAreas bs) [] with
    | .error e => .error e
    | .ok (t, acc) => match State.placePhase [] rs 1 (imgParts rs) t acc with
      | .error e => .error e
      | .ok (t, acc) => match t.quotaBelow rs with
        | some e => .error e
        | none => .ok acc

/-! ### Step 12 (R77, R79) -/

/-- Whether a partition holds stored data (R109): segments, threshold sets, tables, tensors or namespaces. -/
def State.holdsData (s : State) (p : Nat) : Bool :=
  !(kvGetD {} p s.corpora).segs.isEmpty || !(kvGetD {} p s.corpora).sets.isEmpty || s.emb.tables.any (fun t => t.2.part == p) ||
  s.mem.tensors.any (fun t => t.2.part == p && t.2.holder != .ring && !t.2.dying) || s.flash.ns.any (fun n => n.1 / 32 == p)

/-- Configured partitions in scope that the image removes. -/
def State.removedParts (s : State) (bs : List Byte) (rs : List BRec) : List Nat :=
  ((s.parts.filter (fun x => x.2.cfg.isSome && imgScope bs x.1 && !(imgParts rs).any (fun y => y.1 == x.1))).map (fun x => x.1))

/-- Partitions in scope that hold stored data and have no PARTITION record, configured now or not (R77, R79). -/
def State.orphans (s : State) (bs : List Byte) (rs : List BRec) : List Nat :=
  (List.range 64).filter (fun p => imgScope bs p && s.holdsData p && !(imgParts rs).any (fun y => y.1 == p))

/-- Step 12: such a partition fails the load, unless DISCARD_ORPHANS is set. -/
def State.orphanCheck (s : State) (bs : List Byte) (rs : List BRec) : Option ImgErr :=
  if imgDiscard bs then none else (s.orphans bs rs).head?.map (fun p => { reason := 0x1B, part := p })

/-- Steps 9 to 12: the records, the number skipped and the placements, or the first check that fails. -/
def State.checkImage (s : State) (bs : List Byte) : Except ImgErr (List BRec × Nat × List (Nat × Nat × Nat)) :=
  match walk bs with
  | .error e => .error e
  | .ok (rs, skipped) => match s.crossCheck bs rs with
    | some e => .error e
    | none => match s.quotaCheck bs rs with
      | .error e => .error e
      | .ok areas => match s.orphanCheck bs rs with
        | some e => .error e
        | none => .ok (rs, skipped, areas)

/-- The MEASURE record of an image whose outcome is known (R73): 0 accepted, 1 rejected, 2 not measured. -/
def State.logImage (s : State) (outcome reason : Nat) (bs : List Byte) : State :=
  s.logAppend lkMeasure (measurePayload 16 9 outcome reason (imgKind bs) (imgSerial bs)
    (if outcome = 2 then List.replicate 32 0 else sha256 bs) (imgBuild bs))

/-- Whether a partial load under way holds a partition: step 8 has passed, and it is in scope (R81). -/
def State.loadHolds (s : State) (p : Nat) : Bool :=
  match s.load with
  | some l => imgKind l.image == 1 && bitOf (imgMask l.image) p
  | none => false

/-- The node address that a VX7 address has through the windows of a partition (R67). -/
def PartCfg.vx7Address (c : PartCfg) (a : Nat) : Option Nat :=
  (c.windows.find? (fun w => decide (w.vx7Base ≤ a ∧ a < w.vx7Base + w.len))).map (fun w => w.nodeBase + (a - w.vx7Base))

end Sys2Proof.Machine
end

