-- ==== Sys2Proof/Machine/SelOps.lean ====
section
/-! DEFINITION. Selection and merge (spec/09): order of keys, streaming insertion, sums, merging of partial lists, and the
selection units that hold the lists. -/

namespace Sys2Proof.Machine

/-! ### Keys and insertion (R249 to R254) -/

/-- Whether a key is strictly better than another in the list's direction (R249). -/
def SelList.better (l : SelList) (a b : Nat) : Bool :=
  if l.fp then (if l.higher then Num.lt (dec32 b) (dec32 a) else Num.lt (dec32 a) (dec32 b))
  else if l.higher then decide (b < a) else decide (a < b)

/-- Whether two keys compare equal. -/
def SelList.same (l : SelList) (a b : Nat) : Bool := !l.better a b && !l.better b a

/-- Whether a key is NaN (R250); integer keys have no invalid value. -/
def SelList.isNan (l : SelList) (a : Nat) : Bool := l.fp && (dec32 a).isNan

/-- Add a key to a sum: exactly for integers, in fp64 with one rounding for fp32 keys (R256). -/
def SelList.addKey (l : SelList) (sum key : Nat) : Nat :=
  if l.fp then enc64 (Num.add fmt64 (dec64 sum) (dec32 key)) else sum + key

/-- Add two sums. -/
def SelList.addSum (l : SelList) (a b : Nat) : Nat :=
  if l.fp then enc64 (Num.add fmt64 (dec64 a) (dec64 b)) else a + b

/-- Put `e` directly after the last entry that it is not better than (place of R251). -/
def SelList.placeIn (l : SelList) (e : SelEntry) : List SelEntry → List SelEntry
  | [] => [e]
  | x :: xs => if l.better e.key x.key then e :: x :: xs else x :: l.placeIn e xs

/-- Place an entry. -/
def SelList.place (l : SelList) (e : SelEntry) : SelList := { l with entries := l.placeIn e l.entries }

/-- The key of the last entry. -/
def SelList.lastKey (l : SelList) : Option Nat := l.entries.getLast?.map (fun x => x.key)

/-- Insert one offered entry (R251). -/
def SelList.insert (l0 : SelList) (e0 : SelEntry) : SelList :=
  let e : SelEntry := { e0 with ord := l0.offered }
  let l : SelList := { l0 with offered := l0.offered + 1 }
  if l.isNan e.key then { l with nan := l.nan + 1 } else
  match (if l.dedup then l.entries.find? (fun x => x.id == e.id) else none) with
  | some x =>
    let l : SelList := { l with dups := l.dups + 1 }
    if l.better e.key x.key then
      let s := l.lastKey
      let m := ({ l with entries := l.entries.filter (fun y => y.id != x.id) } : SelList).place e
      if m.entries.length = m.k ∧ (match s, m.lastKey with | some a, some b => m.same a b | _, _ => true) = false then
        { m with tied := 0 } else m
    else l
  | none =>
    if l.entries.length < l.k then l.place e else
    match l.entries.getLast? with
    | none => l
    | some z =>
      if l.better e.key z.key then
        let m := ({ l with entries := l.entries.dropLast, left := l.addKey l.left z.key } : SelList).place e
        match m.lastKey with
        | some y => if m.same z.key y then { m with tied := m.tied + 1 } else { m with tied := 0 }
        | none => m
      else { l with left := l.addKey l.left e.key, tied := if l.same e.key z.key then l.tied + 1 else l.tied }

/-- Insert entries in order. -/
def SelList.insertAll (l : SelList) (es : List SelEntry) : SelList := es.foldl SelList.insert l

/-- Put an entry into a list of entries ordered by input. -/
def byOrd (e : SelEntry) : List SelEntry → List SelEntry
  | [] => [e]
  | x :: xs => if e.ord < x.ord then e :: x :: xs else x :: byOrd e xs

/-- SEL_SUM: the keys of the entries kept, summed in input order (R256). -/
def SelList.selSum (l : SelList) : Nat :=
  (l.entries.foldl (fun acc e => byOrd e acc) []).foldl (fun s e => l.addKey s e.key) 0

/-- Close a list (R252, R255, R256, R259): what it reports. -/
def SelList.close (l : SelList) (lid : Nat) : SelResult :=
  let extra := match l.lastKey with
    | some z => l.ins.foldl (fun n x => if l.same x.2.1 z then n + x.1 else n) 0
    | none => 0
  { lid := lid, entries := l.entries, tied := l.tied + extra, selSum := l.selSum,
    leftSum := l.ins.foldl (fun s x => l.addSum s x.2.2) l.left, fewer := decide (l.entries.length < l.k),
    reranked := l.reranked, sat := l.sat }

/-! ### Partial lists (R205, R258, R259) -/

/-- Whether a count of a result is saturated at its field's maximum, or came so from an input (R128, R259). -/
def SelResult.sats (r : SelResult) (gathered : Nat) : Bool := r.sat || decide (0xFFFFFFFF < r.tied ∨ 0xFFFFFFFF < r.reranked ∨ 0xFFFFFFFF < gathered)

/-- A result header and its entries (Table 7.4, R205), for a node ID in each entry. -/
def SelResult.bytes (r : SelResult) (epoch gathered ok missing flags : Nat) : List Byte :=
  leBytes 4 r.entries.length ++ leBytes 4 (min 0xFFFFFFFF r.tied) ++ leBytes 8 epoch ++ leBytes 8 r.selSum ++ leBytes 8 r.leftSum ++
  leBytes 4 (min 0xFFFFFFFF r.reranked) ++ leBytes 4 (min 0xFFFFFFFF gathered) ++ leBytes 2 ok ++ leBytes 2 missing ++ leBytes 2 flags ++ List.replicate 18 0 ++
  r.entries.flatMap (fun e => leBytes 8 e.id ++ leBytes 4 e.key ++ leBytes 2 e.seg ++ leBytes 2 e.node)

/-- The entries of a partial list in the format of R205. -/
def partialEntries (bs : List Byte) : Nat → List SelEntry
  | 0 => []
  | n + 1 =>
    { key := fieldAt bs 8 4, id := fieldAt bs 0 8, seg := fieldAt bs 12 2, node := fieldAt bs 14 2, ord := 0 } ::
      partialEntries (bs.drop 16) n

/-- Merge a partial list whole, best first (R259). -/
def SelList.merge (l : SelList) (bs : List Byte) : SelList :=
  let flags := fieldAt bs 44 2
  let es := partialEntries (bs.drop 64) (min (fieldAt bs 0 4) ((bs.length - 64) / 16))
  let m := l.insertAll es
  let m : SelList := { m with reranked := m.reranked + fieldAt bs 32 4, sat := m.sat || bitOf flags 5 }
  let tie := if bitOf flags 1 then fieldAt bs 4 4 else 0
  { m with ins := m.ins ++ [(tie, (es.getLast?.map (fun x => x.key)).getD 0, fieldAt bs 24 8)] }

/-! ### Selection units (R247, R257, R262) -/

/-- Unit `u` (cluster * 2 + unit of the cluster). -/
def State.sel (s : State) (u : Nat) : SelUnit := kvGetD {} u s.sels

/-- Change unit `u`. -/
def State.modSel (s : State) (u : Nat) (f : SelUnit → SelUnit) : State := s.putSels (kvPut u (f (s.sel u)) s.sels)

/-- Whether a unit has room for a list of `k` (R247): up to 64 lists of at most 64, or one larger list. -/
def State.selRoom (s : State) (u k : Nat) : Bool :=
  let ls := (s.sel u).lists
  !s.isFenced 1 u && (ls.isEmpty || (decide (k ≤ 64) && ls.all (fun x => decide (x.2.k ≤ 64)) && decide (ls.length < 64)))

/-- The unit of cluster `u / 2` that takes a list of `k`: the one asked for, the other one, or, with both fenced, the
cores (R262), under the number asked for. -/
def State.selUnitFor (s : State) (u k : Nat) : Option Nat :=
  let v := if u % 2 = 0 then u + 1 else u - 1
  if s.selRoom u k then some u else if s.selRoom v k then some v
  else if s.isFenced 1 u && s.isFenced 1 v then some u else none

/-! ### Room in the cluster buffers (R257) -/

/-- A partition's share of the buffer of cluster `n`: its CLUSTER_WEIGHT of those that list the cluster, with 4 MiB kept for each privileged
partition (R63, R161, R239). -/
def State.clusterShare (s : State) (p n : Nat) : Nat :=
  if !bitOf (s.pcfg p).clusterMask n then 0 else
  let users := (s.parts.map (fun x => x.1)).filter (fun q => s.configured q && bitOf (s.pcfg q).clusterMask n)
  let sum := users.foldl (fun a q => a + (s.pcfg q).clusterW.getD n 0) 0
  let spill := (users.filter (fun q => (s.pcfg q).privileged)).length * 4 * 2 ^ 20
  if sum = 0 then 0 else (48 * 2 ^ 20 - spill) * (s.pcfg p).clusterW.getD n 0 / sum

/-- Its share of the cluster buffers of a die, over which its windows may lie (R239). -/
def State.bufferShare (s : State) (p die : Nat) : Nat := ([0, 1, 2, 3].map (fun i => s.clusterShare p (4 * die + i))).foldl (· + ·) 0

/-- The partition of a list's request. -/
def State.listPart (s : State) (l : SelList) : Option Nat := (l.owner.bind (fun rid => kvGet? rid s.recs)).map (fun r => r.part)

/-- Bytes of the area that a list takes in a cluster buffer: 16 for each entry of a pool above 1,024 (R257). -/
def SelList.area (l : SelList) : Nat := if 1024 < l.k then 16 * l.k else 0

/-- Bytes that the pools of a partition take in the buffer of cluster `n`. -/
def State.clusterPools (s : State) (p n : Nat) : Nat :=
  ((s.sels.filter (fun u => u.1 / 2 == n)).flatMap (fun u => u.2.lists.map (fun l => if s.listPart l.2 = some p then l.2.area else 0))).foldl (· + ·) 0

/-- Cluster-buffer bytes that the pools of a partition take on a die. -/
def State.poolArea (s : State) (p die : Nat) : Nat := ([0, 1, 2, 3].map (fun i => s.clusterPools p (4 * die + i))).foldl (· + ·) 0

/-- Cluster-buffer bytes that a partition's windows, those of former bindings included, and its pools hold on a die. -/
def State.bufferUsed (s : State) (p die : Nat) : Nat :=
  (s.models.filter (fun b => b.1 / 256 == p && b.2.place == 0)).foldl (fun n b => n + b.2.bytes) 0 +
  (s.oldModels.filter (fun b => b.1 == p && b.2.place == 0)).foldl (fun n b => n + b.2.bytes) 0 + s.poolArea p die

/-- Whether the area of a list can be placed in the buffer of the cluster of unit `u`, within its partition's share there, beside the windows that
its die holds (R239, R257). -/
def State.areaFits (s : State) (u : Nat) (l : SelList) : Bool :=
  l.area == 0 || (match s.listPart l with
    | some p => decide (s.clusterPools p (u / 2) + l.area ≤ s.clusterShare p (u / 2) ∧ s.bufferUsed p (u / 8) + l.area ≤ s.bufferShare p (u / 8))
    | none => false)

/-- The unit of the cluster of `u` on which a list can open now (R247, R257). -/
def State.selPlace (s : State) (u : Nat) (l : SelList) : Option Nat := if s.areaFits u l then s.selUnitFor u l.k else none

/-- Put a list into a unit. -/
def State.selPut (s : State) (u lid : Nat) (l : SelList) : State :=
  s.modSel u (fun x => { x with since := if x.lists.isEmpty then s.now else x.since, lists := kvPut lid l x.lists })

/-- Open a list on a unit of the cluster of `u`, or let it wait there (R247): the unit it opened on. -/
def State.selOpen (s : State) (u lid : Nat) (l : SelList) : State × Option Nat :=
  match s.selPlace u l with
  | some v => (s.selPut v lid l, some v)
  | none => (s.modSel u (fun x => { x with waits := x.waits ++ [{ lid := lid, list := l, since := s.now }] }), none)

/-- The unit on which a list is open. -/
def State.selFind (s : State) (lid : Nat) : Option Nat :=
  (s.sels.find? (fun x => (kvGet? lid x.2.lists).isSome)).map (fun x => x.1)

/-- Count what the insertions of entries into a list changed: entries offered, NaN keys, duplicates. -/
def State.selCount (s : State) (u n : Nat) (a b : SelList) : State :=
  let s := s.bump (cCluSelEntries (u / 2) (u % 2)) n
  let s := if b.nan = a.nan then s else s.bump (cCluSelNan (u / 2) (u % 2)) (b.nan - a.nan)
  if b.dups = a.dups then s else s.bump (cCluSelDups (u / 2) (u % 2)) (b.dups - a.dups)

/-- Offer entries to an open list, one after another. -/
def State.selOffer (s : State) (u lid : Nat) (es : List SelEntry) : State :=
  match kvGet? lid (s.sel u).lists with
  | none => s
  | some l =>
    let m := l.insertAll es
    (s.modSel u (fun x => { x with lists := kvPut lid m x.lists })).selCount u es.length l m

/-- Open the oldest list request that waits at a unit and for which the cluster has room (R247); its wait is counted. -/
def State.selServeOne (s : State) (u : Nat) : State :=
  match (s.sel u).waits.find? (fun w => (s.selPlace u w.list).isSome) with
  | none => s
  | some w => match s.selPlace u w.list with
    | none => s
    | some v => ((s.modSel u (fun x => { x with waits := x.waits.erase w })).selPut v w.lid w.list).bump (cCluSelListWaitNs (v / 2) (v % 2)) (s.now - w.since)

/-- Open every list request that waits at a unit and finds room. -/
def State.selServeUnit (s : State) (u : Nat) : State := (s.sel u).waits.foldl (fun (t : State) _ => t.selServeOne u) s

/-- Serve the requests that wait at the two units of a cluster. -/
def State.selServe (s : State) (cl : Nat) : State := (s.selServeUnit (2 * cl)).selServeUnit (2 * cl + 1)

/-- Take a list out of its unit; the time with an open list is counted when the last one closes. -/
def State.selDrop (s : State) (u lid : Nat) : State :=
  let x := s.sel u
  let left := kvDel lid x.lists
  let s := s.modSel u (fun y => { y with lists := left })
  let s := if left.isEmpty ∧ x.lists.isEmpty = false then s.bump (cCluSelBusyNs (u / 2) (u % 2)) (s.now - x.since) else s
  s.selServe (u / 2)

/-- Close a list (R255): its result, with the counts of the unit. -/
def State.selClose (s : State) (u lid : Nat) : State × Option SelResult :=
  match kvGet? lid (s.sel u).lists with
  | none => (s, none)
  | some l =>
    let r := l.close lid
    let s := if 0 < r.tied then s.bump (cCluSelTieCuts (u / 2) (u % 2)) 1 else s
    let s := if r.fewer then s.bump (cCluSelFewer (u / 2) (u % 2)) 1 else s
    (s.selDrop u lid, some r)

/-- Merge a partial list whole into an open list (R259). -/
def State.selMerge (s : State) (u lid : Nat) (data : List Byte) : State :=
  match kvGet? lid (s.sel u).lists with
  | none => s
  | some l =>
    let m := l.merge data
    (s.modSel u (fun x => { x with lists := kvPut lid m x.lists })).selCount u (min (fieldAt data 0 4) ((data.length - 64) / 16)) l m

/-- Drop the list requests of an admission record, whose waits end here and are counted (R247). -/
def State.selUnask (s : State) (rid : Nat) : State :=
  s.sels.foldl (fun (t : State) u =>
    let mine := u.2.waits.filter (fun w => w.list.owner == some rid)
    if mine.isEmpty then t else
    (t.modSel u.1 (fun x => { x with waits := x.waits.filter (fun w => w.list.owner != some rid) })).bump (cCluSelListWaitNs (u.1 / 2) (u.1 % 2))
      (mine.foldl (fun n w => n + (s.now - w.since)) 0)) s

/-- Drop every list and list request of an admission record: its requests first, so that none of them takes the room of its lists. -/
def State.selForget (s : State) (rid : Nat) : State :=
  let s := s.selUnask rid
  let mine := s.sels.flatMap (fun x => (x.2.lists.filter (fun l => l.2.owner == some rid)).map (fun l => (x.1, l.1)))
  mine.foldl (fun t x => t.selDrop x.1 x.2) s

end Sys2Proof.Machine
end

