-- ==== Sys2Proof/Machine/HostIf.lean ====
section
/-! DEFINITION. Host command interface (spec/04): completions and their interrupts, contexts and admission, doorbells,
enabling and disabling of queue pairs, ORDERED and coalescing timers, long-operation status words. -/

namespace Sys2Proof.Machine

/-! ### Interrupts of completion queues (R141) -/

/-- The completions of a queue that no message has reported yet, by their instants. -/
def State.coalOf (s : State) (p q : Nat) : List Nat := kvGetD [] (qKey p q) s.flt.coal

/-- Whether `n` pending completions of a queue reach a coalescing bound at once: the count, or no wait allowed (R141). -/
def Queue.due (x : Queue) (n : Nat) : Bool :=
  n != 0 && (decide (fCfgAggCount.get x.cfg ≤ 1) || decide (fCfgAggCount.get x.cfg ≤ n) || fCfgAggTime.get x.cfg == 0)

/-- Send the queue's message when its coalescing allows. -/
def State.coalesce (s : State) (p q : Nat) : State :=
  let x := s.queue p q
  if x.due (s.coalOf p q).length then s.sendMsix p (fCfgVector.get x.cfg) else s

/-! ### Completions (R116, R126, R130) -/

/-- Write one completion entry in ring order with its phase bit, free its reservation, and raise the message as the
queue's coalescing allows. A completion with NO_IRQ counts toward no threshold (R123). -/
def State.postCompletion (s : State) (p q cid stream status flags count r0 r1 : Nat) (noIrq : Bool) : State :=
  let x := s.queue p q
  let c : Completion := { cid := cid, sqId := q, status := status, flags := flags, phase := x.phase.toNat,
                          sqHead := x.sqHead, stream := stream, count := min 0xFFFFFFFF count, r0 := r0, r1 := r1 }
  let next := (x.cqTail + 1) % x.cqSize
  let x' : Queue := { x with cqTail := next, phase := if next = 0 then !x.phase else x.phase, used := x.used + 1, reserved := x.reserved - 1 }
  let s := (s.emit (.completion p q x.cqTail c)).modQueue p q (fun _ => x')
  if noIrq then s else (s.modFlt (fun t => { t with coal := kvPut (qKey p q) (s.coalOf p q ++ [s.now]) t.coal })).coalesce p q

/-- Whether a node address lies in memory that no command names any more, or yet: a freed tensor, the source of a migration after its switch, the
destination before it (R316, R317). -/
def State.goneAt (s : State) (a : Nat) : Bool :=
  s.mem.allocs.any (fun x => decide (x.1 ≤ a ∧ a < x.1 + x.2.len) &&
    (x.2.kind == .migration || s.mem.old.any (fun o => o.base == x.1) || s.mem.tensors.any (fun t => t.2.dying && t.2.addr == x.1)))

/-- Whether an address encoded as RESULT_ADDR names what partition `p` may use: host memory, or a range within one of its allocations
(Table 4.2, order 4). -/
def State.addrOk (s : State) (p addr len : Nat) : Bool :=
  addr / 2 ^ 63 % 2 == 0 || (s.ownsRange p (addr % 2 ^ 52) (max 1 len) && !s.goneAt (addr % 2 ^ 52))

/-- Whether results may go to an address: host memory, or within an ordinary tensor or a VX7_PROTECTED region of the partition. What the node
itself keeps in the partition's quota, and a tensor that Table 12.2 marks as not writable, take none (R241, R278, R289; DEDUCED, log entry
54). -/
def State.resultOk (s : State) (p addr len : Nat) : Bool :=
  let a := addr % 2 ^ 52
  addr / 2 ^ 63 % 2 == 0 || (s.addrOk p addr len && s.mem.allocs.any (fun x => decide (x.1 ≤ a ∧ a < x.1 + x.2.len) &&
    (x.2.kind == .protected7 || (x.2.kind == .tensor && s.mem.tensors.all (fun t => t.2.addr != x.1 || t.2.holder == .none)))))

/-- Bytes from a node address to the end of the allocation of partition `p` that holds it. -/
def State.ownedFrom (s : State) (p a : Nat) : Nat :=
  match s.mem.allocs.find? (fun x => x.2.part == some p && decide (x.1 ≤ a ∧ a < x.1 + x.2.len)) with
  | some x => x.1 + x.2.len - a
  | none => 0

/-- An ordinary access of partition `p` to node memory: charged to the regulator of its tier (R91), and counted on each channel in PROCESSOR mode
that it reaches (R194; DESIGN CHOICE, log entry 48: its data moves within the event that makes it). -/
def State.access (s : State) (p a n : Nat) : State :=
  match tierOf a with
  | none => s
  | some t =>
    let s := if t < 4 then s.chargeBw p t n else s
    if t ≠ 0 ∨ n = 0 then s else
    (List.range ((a + n - 1) / 2 ^ 31 - a / 2 ^ 31 + 1)).foldl (fun (x : State) i =>
      let c := a / 2 ^ 31 + i
      if (kvGetD {} c x.bank).state = 2 then x.bump (cBkeChHolds c) 1 else x) s

/-- Write results where RESULT_ADDR says: bit 63 set names a node address in [51:0], and 0 takes no results (Table 4.1). Nothing is written
beyond the partition's allocation there. -/
def State.putResult (s : State) (p addr : Nat) (bs : List Byte) : State :=
  if bs.isEmpty ∨ addr = 0 then s
  else if addr / 2 ^ 63 % 2 = 1 then
    let a := addr % 2 ^ 52
    let bs := bs.take (s.ownedFrom p a)
    (s.access p a bs.length).writeMem a bs
  else s.emit (.write p addr bs)

/-- Bytes that a command reads at an address encoded as RESULT_ADDR: node memory, charged to the regulator of its tier (R91), Tier F through the
translation layer (R309), Tier P as the lender gave it before the command became ready (`State.makeReady`), or the bytes that host memory gave,
charged to the host ingress of the stream (R382). -/
def State.readInput (s : State) (p : Nat) (flow : Nat × Bool) (addr len : Nat) (host : List Byte) : List Byte × State :=
  if addr / 2 ^ 63 % 2 = 1 then
    let a := addr % 2 ^ 52
    if tierOf a = some 3 then
      let (bs, _, _, s) := s.flashLoad p a len
      (bs, s)
    else (s.readMem a len, s.access p a len)
  else (host.take len ++ List.replicate (len - host.length) 0, s.chargeHostRead p flow len)

/-- Free every context copy of a request (R100). -/
def State.freeContexts (s : State) (rid : Nat) : State := s.putCtxs (s.ctxs.filter (fun c => c.2.rid != rid))

/-- COUNT that a request reports: partial results of a long operation that failed or was cancelled stay only with
KEEP_PARTIAL (R138). -/
def Rec.finalCount (r : Rec) (status count : Nat) : Nat :=
  if r.long.isSome ∧ status ≠ scDone ∧ r.cmd.keepPartial = false then 0 else count

/-- Give a shard's former rows back: a tensor becomes an ordinary tensor again; an area the node allocated is released (R302, R303). -/
def State.giveRows (s : State) (addr : Nat) (tensor : Option Nat) : State :=
  match tensor with
  | some i => s.modMem (fun m => { m with tensors := kvUpd i (fun (t : Tensor) => { t with holder := .none }) m.tensors })
  | none => s.release addr

/-- Release every older shard version that no lookup in flight is pinned to (R302). -/
def State.retireVersions (s : State) : State :=
  s.emb.tables.foldl (fun (t : State) x => match x.2.old with
    | some (v, a, i) =>
      if t.emb.lookups.any (fun l => l.2.table == x.1 && l.2.version == v) then t
      else ((t.putEmb ({ t.emb with tables := kvUpd x.1 (fun y => { y with old := none }) t.emb.tables }))).giveRows a i
    | none => t) s

/-- Pin a lookup at admission: to the shard version then current, or to the one it names (R293). -/
def State.pinLookup (s : State) (p rid : Nat) (c : HostCmd) : State :=
  match kvGet? (c.param 0 2) s.emb.tables with
  | none => s
  | some t =>
    if t.part ≠ p then s else
    let l : Lookup := { table := c.param 0 2, version := if c.param 12 4 = 0 then t.version else c.param 12 4, idx := [], bags := [], pool := 0, outType := 0, vals := [], want := [], remote := 0 }
    s.putEmb ({ s.emb with lookups := kvPut rid l s.emb.lookups })

/-- The state a partition is in when nothing is asked of it: READY, HELD where its function is not enabled, UNCONFIGURED without
configuration (R87, R88). -/
def State.restState (s : State) (p : Nat) : Nat := if !s.configured p then stUnconfigured else if s.funcEnabled p then stReady else stHeld

/-- The state that a partition takes once no load or reset holds it: its rest, or QUIESCING where QUIESCE is set and it would serve (R103, R492). -/
def State.settled (s : State) (p : Nat) : Nat :=
  let rest := s.restState p
  if (rest = stReady ∨ (rest = stUnconfigured ∧ s.sqCount p ≠ 0)) ∧ s.fld (rPrtCtl p) fPrtCtl_QUIESCE = 1 then stQuiescing else rest

/-- The load under way ends: LOADING reads 0, and partitions in state LOADING go back to the state they rest in (R81, R83); one whose QUIESCE
was set meanwhile is QUIESCING (R103). -/
def State.dropLoad (s : State) : State :=
  let s := ((s.putLoad none)).setFld rNodeBridleStatus fNodeBridleStatus_LOADING 0
  s.parts.foldl (fun (t : State) x => if t.pstate x.1 = stLoading then t.setPstate x.1 (t.settled x.1) else t) s

/-- The load of a request ends without its image taking effect, cancelled or with its partition: the image stays measured, its entry and the
logbook give it as rejected, with no reason (R73, R76; DEDUCED, log entry 45). -/
def State.loseLoad (s : State) (rid : Nat) : State :=
  match s.load with
  | some l => if l.rid = rid then ((s.settleEntry l.entry 1).logImage 1 0 l.image).dropLoad else s
  | none => s

/-- The build or import of a request ends: vectors it linked are counted, its output's areas are released (R278). -/
def State.endBuild (s : State) (rid : Nat) : State :=
  match kvGet? rid s.builds with
  | some b => ((b.draft.map (fun (g : Segment) => g.areas)).getD []).foldl State.release (if b.linked = 0 then s else s.bump (cPrtBuiltVectors b.part) b.linked)
  | none => s

/-- An update command ends before its commit: it leaves the update sequence and its reservations end (R129); the rows of an insert stay, dead from
the next commit on (DEDUCED, log entry 52). -/
def State.endUpdate (s : State) (rid : Nat) : State :=
  let mine := fun (u : Upd) => u.rid == rid && !u.ended
  if s.corpora.any (fun c => c.2.updates.any mine) = false then s else
  s.putCorpora (kvMapVals (fun _ (c : Corpus) =>
    let us := c.updates.filter mine
    { c with
      updates := c.updates.filterMap (fun u => if mine u then (if u.op = 0x20 then some { u with ended := true, prepared := true } else none) else some u)
      youngRes := c.youngRes - us.foldl (fun n u => n + u.tomb) 0
      locRes := c.locRes - us.foldl (fun n u => n + u.loc) 0 }) s.corpora)

/-- The migration of a request ends: a destination not yet switched to is released (R317). -/
def State.endMigration (s : State) (rid : Nat) : State :=
  match kvGet? rid s.mem.migs with
  | some m => (s.release m.dest).modMem (fun x => { x with
      migs := kvDel rid x.migs
      tensors := kvUpd m.tensor (fun t => { t with migrating := false }) x.tensors })
  | none => s

/-- The lookup and the update of a request end; shard versions that no lookup is pinned to any more are given back (R302). -/
def State.endTable (s : State) (rid : Nat) : State :=
  let s := if (kvGet? rid s.emb.lookups).isSome then (s.putEmb { s.emb with lookups := kvDel rid s.emb.lookups }).retireVersions else s
  if (kvGet? rid s.emb.updates).isSome then s.putEmb { s.emb with updates := kvDel rid s.emb.updates } else s

/-- A delete or erase of a namespace that a request asked for and that has not begun is forgotten. -/
def State.endNamespace (s : State) (rid : Nat) : State :=
  if s.flash.ns.any (fun n => n.2.ending == some rid) then
    s.modFlash (fun f => { f with ns := kvMapVals (fun _ (n : NSpace) => if n.ending = some rid then { n with ending := none, cleared := 0 } else n) f.ns })
  else s

/-- The array work of a request ends: descriptors of it still queued, outputs that no PHASE_END covers, its spilled live ranges (R148, R161), and
what it left in cluster buffers, whose contents are undefined from now on (R29). A running instruction ends by itself. -/
def State.endArrays (s : State) (rid : Nat) : State :=
  let left := s.arrays.flatMap (fun (u : Nat × ArrUnit) => (u.2.wrote.filter (fun w => w.1 == rid)).map (fun w => w.2))
  let s := s.putArrWork (s.arrWork.filter (fun x => x.2 != rid))
  let s := s.putArrays (kvMapVals (fun _ (u : ArrUnit) => { u with
    queue := kvMapVals (fun _ js => js.filter (fun j => j.rid != rid)) u.queue
    phase := kvMapVals (fun _ js => js.filter (fun j => j.rid != rid)) u.phase
    pend := kvMapVals (fun _ os => os.filter (fun o => o.rid != rid)) u.pend
    wrote := u.wrote.filter (fun w => w.1 != rid)
    model := u.model.filter (fun m => m.rid != rid), held := u.held.filter (fun m => m.rid != rid) }) s.arrays)
  let s := s.putShares (kvMapVals (fun _ (x : ArrShare) => { x with spill := x.spill.filter (fun w => w.2 != rid) }) s.shares)
  let s := s.putParts (kvMapVals (fun _ (x : Part) => { x with spill := x.spill.filter (fun w => w.2 != rid) }) s.parts)
  left.foldl (fun (t : State) w => t.hide w.1 w.2) s

/-- What ends with a request besides its contexts and record: its selection lists, query, lookup or update, array work, the
output of a build or import with a set that it alone bound (R170), an image load, its place among the updates, a delete or erase of a namespace
not yet begun, and the destination of a migration not yet switched. -/
def State.endWork (s : State) (rid : Nat) : State :=
  let s := s.selForget rid
  let s := s.loseLoad rid
  let s := ((((s.endBuild rid).endMigration rid).endTable rid).endNamespace rid).endUpdate rid
  let built := (kvGet? rid s.builds).filter (fun b => b.started.isSome)
  let s := ((s.putQueries (kvDel rid s.queries)).putBuilds (kvDel rid s.builds)).endArrays rid
  match built with
  | some b => s.sweepSets b.part
  | none => s

/-- Free a tensor: its bytes, its quota and its index, whose next use takes the next generation (R311, R316); a Tier F tensor's
units are unmapped. -/
def State.freeTensor (s : State) (i : Nat) : State :=
  match kvGet? i s.mem.tensors with
  | none => s
  | some t =>
    let s := if tierOf t.addr = some 3 then
        s.unmapUnits (t.addr / 16384) (roundUp t.bytes 16384 / 16384)
      else s
    let s := if s.flash.roTens.contains t.addr then s.modFlash (fun f => { f with roTens := f.roTens.filter (· != t.addr) }) else s
    (s.release t.addr).modMem (fun m => { m with tensors := kvDel i m.tensors, gens := kvPut i ((t.gen + 1) % 2 ^ 38) m.gens })

/-- Release what waited for claims that have now ended: freed tensors, and the sources of migrations (R316, R317). -/
def State.reap (s : State) : State :=
  let held := fun (i : Nat) => s.recs.any (fun r => r.2.claims.any (fun c => c.tensor == i))
  let s := ((s.mem.tensors.filter (fun t => t.2.dying && t.2.holder == .none && !held t.1)).map (fun t => t.1)).foldl State.freeTensor s
  let busy := fun (o : OldCopy) => s.recs.any (fun r => decide (r.1 < o.before) && (r.2.cmd.opcode == 0x10 || r.2.claims.any (fun c => c.tensor == o.tensor)))
  let gone := s.mem.old.filter (fun o => !busy o)
  let s := s.modMem (fun m => { m with old := m.old.filter busy })
  gone.foldl (fun (t : State) o => (if tierOf o.base = some 3 then match kvGet? o.base t.mem.allocs with
    | some a => t.unmapUnits (o.base / 16384) (a.len / 16384)
    | none => t else t).release o.base) s

/-- Note how a query or a long operation ends, for another ending of it that comes at the same instant (R98, R150). -/
def State.noteEnd (s : State) (rid : Nat) (r : Rec) (vented : Bool) : State :=
  let qd := (kvGet? rid s.queries).map (fun q => q.deadline)
  if qd.isNone && r.long.isNone then s else
  s.modPart r.part (fun x => { x with traces := x.traces.filter (fun y => y.at_ == s.now) ++
    [({ rid := rid, q := r.q, cid := r.cmd.cid, op := r.cmd.opcode, ctx := r.ctx, deadline := qd, at_ := s.now, vented := vented } : EndNote)] })

/-- Later attempts, at the instant at which they ended, to complete requests of a partition that answer to a test: each is discarded and
counted, once (R98). -/
def State.lateEnds (s : State) (p : Nat) (f : EndNote → Bool) : State :=
  let late := fun (y : EndNote) => y.at_ == s.now && f y
  let n := ((s.part p).traces.filter late).length
  if n = 0 then s else (s.modPart p (fun x => { x with traces := x.traces.filter (fun y => !late y) })).bump (cPrtDupCompletions p) n

/-- The end of a long operation that has ended otherwise at this instant (R98). -/
def State.lateEnd (s : State) (p q cid op : Nat) : State := s.lateEnds p (fun y => y.q == q && y.cid == cid && y.op == op)

/-! ### Results in Tier F and Tier P (R309, R314, R320) -/

/-- Whether a node address lies in a tensor that worn-out media has made read-only (R344). -/
def State.readOnlyAt (s : State) (a : Nat) : Bool := s.mem.allocs.any (fun x => decide (x.1 ≤ a ∧ a < x.1 + x.2.len) && s.flash.roTens.contains x.1)

/-- Write results to Tier F through the translation layer: where it fails, the status that its command ends with and the bytes moved, in whole units
(R314, R344). -/
def State.flashResult (s : State) (p a : Nat) (bs : List Byte) : State × Option (Nat × Nat) :=
  match s.mem.allocs.find? (fun x => decide (x.1 ≤ a ∧ a < x.1 + x.2.len)) with
  | none => (s, none)
  | some (b, al) =>
    match s.flashStore p b (al.len / 16384) a bs with
      | (s, none) => (s, none)
      | (s, some k) => ((s.modFlash (fun f => { f with roTens := f.roTens ++ [b] })).mediaFull p 0 b, some (scMediaFull, k / 16384 * 16384))

/-- Whether results fit in Tier F now, or wait until collection has freed space (R342). -/
def State.resultFits (s : State) (a len : Nat) : Bool :=
  match s.mem.allocs.find? (fun x => decide (x.1 ≤ a ∧ a < x.1 + x.2.len)) with
  | none => true
  | some (b, al) => s.flashFits b (al.len / 16384) a len

/-- The borrow window that holds a Tier P address of a partition: its composition, index and entry. -/
def State.windowAt (s : State) (a : Nat) : Option (Nat × Nat × PWindow) :=
  s.mem.comps.findSome? (fun c => (c.2.windows.zipIdx.find? (fun w => !w.1.lend && decide (w.1.base ≤ a ∧ a < w.1.base + w.1.len))).map
    (fun w => (c.1, w.2, w.1)))

/-- What an access to a Tier P address meets: the OPEN window that serves it, none where it waits for a PENDING one, or the status with which it
fails (R320). -/
def State.windowFor (s : State) (a : Nat) : Except Nat (Option PWindow) :=
  match s.windowAt a with
  | none => .error scRemoteError
  | some (_, _, w) =>
    if w.state = 1 then .ok none
    else if w.state ≠ 2 then .error scRemoteError
    else if !s.reachable w.peer then .error scUnreachable
    else .ok (some w)

/-- OPCODE of a Tier P access on VC5, which no rule numbers (DESIGN CHOICE). -/
def opTierP : Nat := 0x80

/-- Send an access of partition `p` to an OPEN borrow window on VC5 (R320): a read, or a write of bytes. -/
def State.sendP (s : State) (p rid : Nat) (use : PUse) (w : PWindow) (a len : Nat) (write : Bool) (data : List Byte) : State :=
  let acc : PAccess := { rid := some rid, node := w.peer, wid := w.wid, off := a - w.base, len := len, write := write, data := data, use := use }
  let seq := s.fab.seqNo
  let k : Packet := { vc := 5, ptype := 0, opcode := opTierP, dstNode := w.peer, srcNode := s.nodeId, srcPart := p, length := data.length, resetGen := s.resetGen p, args := [w.wid, a - w.base, len, write.toNat], data := data }
  (s.sendRequest k (some rid) true (if write then 0 else len)).modMem (fun m => { m with pacc := kvPut seq acc m.pacc })

/-- Bytes of the output of a `TABLE_LOOKUP` (R290): a row for each index without pooling, for each bag with pooling. -/
def State.lookupBytes (s : State) (c : HostCmd) : Nat :=
  let dim := ((kvGet? (c.param 0 2) s.emb.tables).map (fun (t : Table) => t.dim)).getD 0
  (if c.param 8 4 = 0 then c.param 4 4 else c.param 8 4) * dim * (if c.param 3 1 = 1 then 2 else 4)

/-- What a request's results are where it ends with a status that leaves them undefined: of a `TABLE_LOOKUP` whose owner refused or is unreachable,
free bytes over the whole output (R294; log entry 11). -/
def State.openResults (s : State) (r : Rec) (status : Nat) (res : List Byte) : List Byte × State :=
  if r.cmd.opcode = 0x31 ∧ (status = scRemoteError ∨ status = scUnreachable) then
    ((List.range (s.lookupBytes r.cmd)).map (fun i => Config.undefByte s.free i), s.putFree (s.free + 1))
  else (res, s)

/-- Complete one request: results, final status word, one completion (or the answer to its fabric requester), context
and admission record freed (R98, R130). -/
def State.completeOne (s : State) (rid : Nat) (r : Rec) (status flags count r0 r1 : Nat) (res : List Byte) : State :=
  let count := r.finalCount status count
  let s := s.noteEnd rid r (status == scVented)
  let s := (s.freeContexts rid)
  let s := s.putRecs (kvDel rid s.recs)
  let s := s.endWork rid
  let s := if r.claims.isEmpty ∧ s.mem.old.isEmpty = true then s else s.reap
  let s := if status = scFence then s.bump cFltAborted 1 else s
  match r.fab with
  | some o =>
    s.answer o 2 (if status ≤ scPartial ∨ (0x10 ≤ status ∧ status < 0x20) then 1 else 2) r.cmd.opcode r.part r.q
      [status, cplFlags status count flags, count, r0, r1] res
  | none =>
    let s := s.putResult r.part r.cmd.resultAddr res
    let s := match r.long with
      | none => s
      | some l => s.emit (.status r.part r.cmd.statusAddr
          (statusWord (finalState status) status (if status = scDone then 1000000 else l.progress) count))
    s.postCompletion r.part r.q r.cmd.cid r.cmd.stream status (cplFlags status count flags) count r0 r1 r.cmd.noIrq

/-- A failed access of Tier P ends a request: counted, and a tensor whose zeros it wrote is freed (R313, R320). -/
def State.endHeld (s : State) (rid : Nat) (r : Rec) (f : Finish) (status : Nat) : State :=
  let s := match f.tensor with
    | some i => s.freeTensor i
    | none => s
  (s.bump cMemPAccessFails 1).completeOne rid r status 0 0 0 0 []

/-- Send what a held completion writes to Tier P, or wait for its window, or fail (R320); one that waited for space in Tier F is written once there is
(R342). -/
def State.sendHeld (s : State) (rid : Nat) (r : Rec) (f : Finish) : State :=
  if tierOf f.addr = some 3 then
    (if s.resultFits f.addr f.data.length = false then s else match s.flashResult r.part f.addr f.data with
      | (s, none) => s.completeOne rid r f.status f.flags f.count f.r0 f.r1 []
      | (s, some (st, n)) => s.completeOne rid r st 0 (if r.cmd.opcode = 0x43 then n else 0) 0 0 [])
  else match s.windowFor f.addr with
  | .error st => s.endHeld rid r f st
  | .ok none => s
  | .ok (some w) => (s.modRec rid (fun r => { r with late := some { f with sent := true } })).sendP r.part rid .result w f.addr f.data.length true f.data

/-- Hold a completion until what it writes to Tier P or Tier F is there: the request's work ends, and its completion is written when the lender has answered
(R320). -/
def State.holdResult (s : State) (rid : Nat) (r : Rec) (f : Finish) : State :=
  ((s.endWork rid).modRec rid (fun r => { r with phase := .running, late := some f })).sendHeld rid { r with phase := .running, late := some f } f

/-- Complete request `rid` with a status, flags, COUNT, RESULT0, RESULT1 and result bytes. Once its partition's reset has begun, every completion
carries `ABORTED_PARTITION_RESET` but that of a `BRIDLE_LOAD` (R106); no results are written then. Results go to Tier F through the translation
layer, whose failure is then the status (R314), and to Tier P by way of the lender (R320). A request already completed is left alone and counted as a
duplicate (R98); `p` is its partition. -/
def State.complete (s : State) (p rid status flags count r0 r1 : Nat) (res : List Byte) : State :=
  match kvGet? rid s.recs with
  | none => s.bump (cPrtDupCompletions p) 1
  | some r =>
    if s.pstate r.part = stResetting ∧ r.cmd.opcode ≠ 4 then
      s.completeOne rid r scReset 0 (match r.long with | some l => l.count | none => 0) 0 0 []
    else
      let (res, s) := s.openResults r status res
      let a := r.cmd.resultAddr % 2 ^ 52
      let tier := if res.isEmpty ∨ r.fab.isSome = true ∨ r.cmd.resultAddr / 2 ^ 63 % 2 ≠ 1 then none else tierOf a
      if tier.isSome = true ∧ s.readOnlyAt a = true then s.completeOne rid r scMediaReadOnly 0 0 0 0 []
      else if tier = some 2 then s.holdResult rid r { status := status, flags := flags, count := count, r0 := r0, r1 := r1, addr := a, data := res, tensor := none, sent := false }
      else if tier = some 3 ∧ s.resultFits a res.length = false then
        s.holdResult rid r { status := status, flags := flags, count := count, r0 := r0, r1 := r1, addr := a, data := res, tensor := none, sent := false }
      else if tier = some 3 then match s.flashResult r.part a res with
        | (s, none) => s.completeOne rid r status flags count r0 r1 []
        | (s, some (st, n)) => s.completeOne rid r st 0 (if r.cmd.opcode = 0x43 then n else 0) 0 0 []
      else s.completeOne rid r status flags count r0 r1 res

/-- Complete with a status alone. -/
def State.fail (s : State) (p rid status : Nat) : State := s.complete p rid status 0 0 0 0 []

/-- Count a failed Tier P access and complete its command with the status (R320). -/
def State.failP (s : State) (p rid status : Nat) : State :=
  match (kvGet? rid s.recs).bind (fun r => r.late.map (fun f => (r, f))) with
  | some (r, f) => s.endHeld rid r f status
  | none => (s.bump cMemPAccessFails 1).fail p rid status

/-- Write the completion of a request whose results the lender has taken (R320); in its partition's reset it carries that status (R106). -/
def State.endLate (s : State) (rid : Nat) (r : Rec) (f : Finish) : State :=
  if s.pstate r.part = stResetting then s.complete r.part rid f.status f.flags f.count f.r0 f.r1 []
  else s.completeOne rid r f.status f.flags f.count f.r0 f.r1 []

/-- Send a Tier P access for a request that then waits for the response. An access to a PENDING window waits; one to a LOST or
REFUSED window, or without a route, fails (R320). -/
def State.accessP (s : State) (p rid a len : Nat) (write : Bool) (data : List Byte) : State :=
  match s.windowFor a with
  | .error st => s.failP p rid st
  | .ok none => s
  | .ok (some w) => (s.sendP p rid .operand w a len write data).modRec rid (fun r => { r with phase := .running })

/-- Count a refusal whose status is `QUOTA_EXCEEDED` where a quota is what it would pass, and not the want of an index or a place (R318). -/
def State.noteQuota (s : State) (p status : Nat) (past : Bool) : State := if status = scQuota ∧ past = true then s.quotaRefused p else s

/-- Refuse a command with the status of a check; a refusal for a quota is counted (R318). -/
def State.refuse (s : State) (p rid status : Nat) (past : Bool) : State := (s.noteQuota p status past).fail p rid status

/-- Complete with DONE. -/
def State.done (s : State) (p rid count r0 r1 : Nat) : State := s.complete p rid scDone 0 count r0 r1 []

/-- Report an uncorrectable read at a node address as CONTAINED (R397): the Tier A channel or Tier B channel that holds it. -/
def State.uncorrectableAt (s : State) (p a : Nat) : State :=
  if tierOf a = some 1 then s.event 1 3 8 0 ((a / 0x10000000000 - 1) * 8 + a / 4096 % 8) p a else s.event 1 3 7 0 (a / 2 ^ 31 % 256) p a

/-! ### Contexts and admission (R97 to R99, R143) -/

/-- Free contexts of pool `g` that partition `p` may still take; none while the pool is rebuilt (R102). A partition
without configuration has no allowance of its own (R492). -/
def State.ctxAvail (s : State) (p g : Nat) : Nat :=
  if s.fld (rPrtPoolStatus g) fPrtPoolStatus_REBUILDING = 1 then 0 else
  let free := 16384 - s.ctxCount none g
  match (s.part p).cfg with
  | none => free
  | some c => min free ((if g = 0 then c.ctxG0 else c.ctxG1) - s.ctxCount (some p) g)

/-- The pool an admission of partition `p` takes its context from (R99): POOL of the entry stage; either, or no pipeline,
selects the pool with more free contexts within the allowance, G0 on a tie. -/
def State.entryPool (s : State) (p : Nat) : Nat :=
  let pool := ((s.pcfg p).stages.head?.map (fun st => st.pool)).getD 2
  if pool = 2 then (if s.ctxAvail p 0 < s.ctxAvail p 1 then 1 else 0) else pool

/-- Take a context of pool `g` for request `rid`: the lowest free index, generation 0 (R97). -/
def State.takeCtx (s : State) (p g rid gen : Nat) (st : CtxState) : Option (Nat × State) :=
  if s.ctxAvail p g = 0 then none
  else match kvFreeKey s.ctxs 16384 (g * 16384) with
    | none => none
    | some id => some (id, (s.putCtxs (kvPut id { st := st, part := p, gen := gen, rid := rid, since := s.now, retry := none } s.ctxs)))

/-! #### Tensors that a command names (R315) -/

/-- Index of a handle's tensor (R311). -/
def handleIndex (h : Nat) : Nat := h % 2 ^ 20

/-- The handle of a tensor: GEN, PARTITION, INDEX (R311). -/
def mkHandle (gen part idx : Nat) : Nat := (gen % 2 ^ 38) * 2 ^ 26 + (part % 64) * 2 ^ 20 + idx % 2 ^ 20

/-- The tensor a handle names for partition `p`, if it names one (R311). -/
def State.tensorOf (s : State) (p h : Nat) : Option (Nat × Tensor) :=
  match kvGet? (handleIndex h) s.mem.tensors with
  | none => none
  | some t => if t.dying = false ∧ t.part = p ∧ h = mkHandle t.gen t.part (handleIndex h) then some (handleIndex h, t) else none

/-- The node as a request names its tensors: one freed since its admission still stands for it while it holds a claim on it (R315, R316). -/
def State.named (s : State) (r : Rec) : State :=
  let held := fun (i : Nat) (t : Tensor) => t.dying && r.claims.any (fun c => c.tensor == i)
  if s.mem.tensors.any (fun x => held x.1 x.2) then
    s.modMem (fun m => { m with tensors := kvMapVals (fun i (t : Tensor) => if held i t then { t with dying := false } else t) m.tensors })
  else s

/-- The tensor a handle names for a request. -/
def State.claimedTensor (s : State) (r : Rec) (h : Nat) : Option (Nat × Tensor) := (s.named r).tensorOf r.part h

/-- Where bytes of a tensor lie: in one range, or for a ring tensor in the ring areas of its partition in ascending channel order (R186). -/
def State.tensorPieces (s : State) (t : Tensor) (off n : Nat) : List (Nat × Nat) :=
  if t.holder = .ring then
    let areas := s.bank.filterMap (fun x => if bitOf (s.pcfg t.part).procChannels x.1 then x.2.ring else none)
    areas.zipIdx.filterMap (fun x =>
      let lo := max off (x.2 * 3145728)
      let hi := min (off + n) ((x.2 + 1) * 3145728)
      if lo < hi then some (x.1 + (lo - x.2 * 3145728), hi - lo) else none)
  else [(t.addr + off, n)]

/-- The tensor that holds a node address, if one does. -/
def State.tensorAt (s : State) (a : Nat) : Option (Nat × Tensor) :=
  s.mem.tensors.find? (fun x => !x.2.dying && (s.tensorPieces x.2 0 x.2.bytes).any (fun y => decide (y.1 ≤ a ∧ a < y.1 + y.2)))

/-- The claims a command needs (R315): by handle and by node address; write claims for what it writes. -/
def State.neededClaims (s : State) (p : Nat) (c : HostCmd) : List (Nat × Bool) :=
  let byHandle := (handleParams c.opcode).filterMap (fun x => (s.tensorOf p (c.param x.1 8)).map (fun t => (t.1, x.2)))
  let node := fun (v : Nat) => if v / 2 ^ 63 % 2 = 1 then s.tensorAt (v % 2 ^ 52) else none
  let byAddr := (addrParams c.opcode).filterMap (fun o => (node (c.param o 8)).map (fun t => (t.1, false)))
  let res := ((node c.resultAddr).map (fun t => (t.1, true))).toList
  let all := byHandle ++ byAddr ++ res
  (all.map (fun x => x.1)).eraseDups.map (fun t => (t, all.any (fun x => x.1 == t && x.2)))

/-! #### What a command reads of Tier F and Tier P before it executes (R309, R320) -/

/-- Width in bits of a width code (R164). -/
def widthBits (w : Nat) : Nat := if w = 0 then 256 else if w = 1 then 128 else if w = 2 then 512 else 1024

/-- The ranges of node memory that a host command reads: at its addresses, and of tensors that it names for their contents. -/
def State.inputsOf (s : State) (p : Nat) (c : HostCmd) : List (Nat × Nat) :=
  let node := fun (o len : Nat) => if c.param o 8 / 2 ^ 63 % 2 = 1 then [(c.param o 8 % 2 ^ 52, len)] else []
  let tens := fun (o len : Nat) => match s.tensorOf p (c.param o 8) with
    | some (_, t) => [(t.addr, min t.bytes len)]
    | none => []
  let n := c.param 4 4
  let all := match c.opcode with
    | 0x04 => node 0 (min (c.param 8 4) 16777224)
    | 0x06 => if c.param 0 1 = 1 then node 16 (c.param 24 4) else []
    | 0x10 => node 16 (c.param 24 4) ++ (if bitOf (c.param 10 2) 1 then tens 48 (2 ^ 40) else []) ++ (if bitOf (c.param 10 2) 2 then tens 64 (8 * c.param 72 2) else [])
    | 0x12 => if c.param 0 1 = 1 then node 8 (4 * widthBits ((((s.pcfg p).stages.find? (fun (g : Stage) => g.kind == 2)).map (fun (g : Stage) => g.param)).getD 0 % 4)) else []
    | 0x20 => node 8 (n * c.param 2 2 * (elemSize (c.param 0 1) / 8)) ++ node 16 (8 * n) ++ node 24 (8 * n)
    | 0x21 => node 8 (8 * c.param 0 4)
    | 0x23 => tens 8 (2 ^ 40)
    | 0x30 => tens 16 (16 * c.param 24 2)
    | 0x31 => node 16 (8 * n) ++ (if c.param 8 4 = 0 then [] else node 24 (4 * (c.param 8 4 + 1)))
    | 0x32 => node 16 (8 * n) ++ node 24 (n * ((kvGet? (c.param 0 2) s.emb.tables).map (fun (t : Table) => t.dim)).getD 0 * (if c.param 2 1 = 1 then 2 else 4))
    | 0x42 => node 24 (c.param 16 8)
    | 0x45 => if c.param 2 1 = 0 then node 8 (c.param 16 4) else []
    | 0x51 => node 8 (c.param 16 4)
    | 0x61 => node 16 (n * 16384)
    | _ => []
  all.filter (fun x => decide (0 < x.2))

/-- Send the next read of Tier P that a request waits for; one to a PENDING window waits, and a failure ends the request (R320). -/
def State.fetchInput (s : State) (rid : Nat) : State :=
  match kvGet? rid s.recs with
  | none => s
  | some r => match r.need with
    | [] => s.modRec rid (fun r => { r with phase := .ready })
    | (a, len) :: _ => match s.windowFor a with
      | .error st => s.failP r.part rid st
      | .ok none => s
      | .ok (some w) => s.sendP r.part rid .input w a len false []

/-- A request may execute, once what it reads of Tier P has come; a read of Tier F that the translation layer cannot serve ends it with
`MEDIA_UNCORRECTABLE` (R309, R320). -/
def State.makeReady (s : State) (rid : Nat) : State :=
  match kvGet? rid s.recs with
  | none => s
  | some r =>
    let rs := if r.fab.isSome then [] else s.inputsOf r.part r.cmd
    let bad := fun (x : Nat × Nat) => tierOf x.1 == some 3 && (let u := unitSpan x.1 x.2; (List.range u.2).any (fun i => s.unitBad (u.1 + i)))
    let far := rs.filter (fun x => tierOf x.1 == some 2)
    match rs.find? bad with
    | some x => (s.flashLoad r.part x.1 x.2).2.2.2.fail r.part rid scMediaUncorrectable
    | none =>
      if far.isEmpty then s.modRec rid (fun r => { r with phase := .ready })
      else (s.modRec rid (fun r => { r with phase := .inputs, need := far })).fetchInput rid

/-- What requests wait for goes on after a change of a window, or when flash space is freed: reads of Tier P, and results to be written there or to
Tier F (R320, R321, R342). -/
def State.serveP (s : State) : State :=
  s.recs.foldl (fun (t : State) x => match kvGet? x.1 t.recs with
    | none => t
    | some r =>
      if r.phase = .inputs ∧ t.mem.pacc.any (fun y => y.2.rid == some x.1) = false then t.fetchInput x.1
      else match r.late with
        | some f => if f.sent then t else t.sendHeld x.1 r f
        | none => t) s

/-- Whether claim `c` must wait for a claim of another request that was taken or requested before it (R315). -/
def State.claimBlocked (s : State) (rid : Nat) (c : Claim) : Bool :=
  s.recs.any (fun r => r.1 != rid && r.2.claims.any (fun d => d.tensor == c.tensor && decide (d.seq < c.seq) && (d.write || c.write)))

/-- Whether all claims of a request can be taken now. -/
def State.claimsFree (s : State) (rid : Nat) (r : Rec) : Bool := r.claims.all (fun c => !s.claimBlocked rid c)

/-! #### Long operations (R136) -/

/-- Long operations running: of a partition (or of the node where `none`). -/
def State.longRunning (s : State) (p : Option Nat) : Nat :=
  (s.recs.filter (fun r => (match r.2.long with | some l => l.running | none => false) &&
    (match p with | none => true | some p => r.2.part == p))).length

/-- Whether one more long operation of partition `p` may run (R136). -/
def State.longRoom (s : State) (p : Nat) : Bool := decide (s.longRunning (some p) < 16 ∧ s.longRunning none < 256)

/-- Write the status word of a long operation now. -/
def State.writeStatus (s : State) (rid : Nat) : State :=
  match kvGet? rid s.recs with
  | some r => (match r.long with
    | some l => (s.emit (.status r.part r.cmd.statusAddr (statusWord (if l.running then 1 else 0) 0 l.progress l.count))).modRec
        rid (fun r => { r with long := some { l with lastWrite := s.now } })
    | none => s)
  | none => s

/-- Whether a fence still waits (R133): a command of its scope, fetched before it, is admitted or staged and not yet complete. -/
def State.fenceWaits (s : State) (p q order : Nat) (whole exclLong : Bool) : Bool :=
  s.recs.any (fun r => r.2.part == p && r.2.fab.isNone && (whole || r.2.q == q) && decide (r.2.order < order) && !(exclLong && r.2.long.isSome)) ||
  s.queues.any (fun x => x.1 / 64 == p && (whole || x.1 % 64 == q) && (match x.2.staged with
    | some g => decide (g.order < order) && !(exclLong && isLong g.cmd.opcode)
    | none => false))

/-- Whether a long operation with an order of fetch may run now (R136): there is room, and no IDLE operation that was fetched earlier could take
it. -/
def State.longTurn (s : State) (p order : Nat) : Bool :=
  s.longRoom p && !s.recs.any (fun x => x.2.isIdle && decide (x.2.order < order) && decide (s.longRunning (some x.2.part) < 16))

/-- The target of a CANCEL as it is when the node fetches it, in the form of `Rec.waits` (R139): a command of the partition with that queue and
CID, admitted or in its staging slot; no queue has a number above 63. -/
def State.cancelAim (s : State) (p : Nat) (c : HostCmd) : List Nat :=
  let aim := fun (order : Nat) (long : Bool) => if long then [order] else [order, order, order]
  if c.opcode ≠ 2 ∨ 64 ≤ c.param 0 1 then [] else
  match s.recOf p (c.param 0 1) (c.param 2 2), (s.queue p (c.param 0 1)).staged with
  | some (_, r), _ => aim r.order r.long.isSome
  | none, some g => if g.cmd.cid = c.param 2 2 then aim g.order (isLong g.cmd.opcode) else []
  | none, none => []

/-- What a command names as the node fetches it: a CANCEL its target, an `ARRAY_RUN` the tensor of the model in its slot (R238). -/
def State.fetchAim (s : State) (p : Nat) (c : HostCmd) : List Nat :=
  if c.opcode = 0x51 then ((kvGet? (p * 256 + c.param 0 1) s.models).map (fun b => b.tensor)).toList else s.cancelAim p c

/-- The effective deadline of a query stamped `t` (R146), and whether it was clamped. -/
def State.deadlineOf (s : State) (p t given : Nat) : Nat × Bool :=
  let per := (s.pcfg p).periodUs * 1000
  let e := (t / per + 2) * per
  let dus := s.fld (rPrtServeCfg p) fPrtServeCfg_DEADLINE_US
  let d := if given ≠ 0 then given else if dus ≠ 0 then t + dus * 1000 else e
  let limit := e + s.fld (rPrtServeCfg p) fPrtServeCfg_MAX_CARRY * per
  if limit < d then (limit, true) else (d, false)

/-- Keep the fold epoch reached so far (R208). -/
def State.noteFold (s : State) (p : Nat) : State :=
  let c := kvGetD {} p s.corpora
  if s.foldNow p = c.fold then s else s.putCorpora (kvPut p { c with fold := s.foldNow p } s.corpora)

/-- Pin a query at admission (R206), the fold epoch reached before its pin being kept (R208): its epoch, its deadline (R146) and its resolved parameters (Table 7.3). -/
def State.pinQuery (s : State) (p rid : Nat) (c : HostCmd) (sub : Bool) (extra : List Byte) : State :=
  let co := kvGetD {} p s.corpora
  let (d, clamped) := s.deadlineOf p s.now c.deadline
  let st := (s.pcfg p).stages
  let par := fun (kind : Nat) => ((st.find? (fun g => g.kind == kind)).map (fun g => g.param)).getD 0
  let pick := fun (v dflt fallback : Nat) => if v ≠ 0 then v else if dflt ≠ 0 then dflt else fallback
  let k := pick (c.param 4 2) (par 6 % 2 ^ 16) 10
  let rm := pick (c.param 8 1) (par 5 / 256 % 256) 4
  let fl := c.param 10 2
  let asOf := c.param 56 8
  let s := s.noteFold p
  let qy : Query := { part := p, epoch := (if asOf = 0 then co.epoch else asOf), stamp := s.now, deadline := d, started := false, phase := sub.toNat, todo := [], step := 0, elem := c.param 1 1, dims := c.param 2 2, vec := [], raw := extra, k := k, beam := pick (c.param 6 2) (par 3 % 2 ^ 16) 128, pre := pick (c.param 9 1) (par 3 / 2 ^ 16 % 256) 4, r := min (rm * k) 16384, rmult := rm, filter := (if bitOf fl 0 then some (c.param 32 8, c.param 40 8) else none), allow := none, effort := bitOf fl 3, widen := c.widen, sub := sub, sketches := [], beams := [], delta := false, visited := [], gathered := 0, retried := false, first := none, shards := [], scatter := bitOf fl 2, widened := false }
  let s := s.putQueries (kvPut rid qy s.queries)
  if clamped then s.bump (cPrtDeadlineClamps p) 1 else s

/-- Create the admission record of a command that has its context (R98, R143): stamped now; it executes at once unless
ORDERED holds it behind earlier commands of its queue (R132) or its claims wait (R315). A long operation's status word is
written on admission (R136): one held by ORDERED or waiting for its claims is RUNNING from then on where there is room, counts toward the limits and
may show a rising PROGRESS (DESIGN CHOICE, log entry 46: R136 does not say). `aim` is what a CANCEL names, `fetched` when the node fetched the command. -/
def State.admitRec (s : State) (p q : Nat) (fab : Option FabOrigin) (cmd : HostCmd) (order g : Nat) (extra : List Byte) (aim : List Nat := [])
    (fetched : Option Nat := none) (demoted : Bool := false) : Option (Nat × State) :=
  let rid := s.nextRec
  match s.takeCtx p g rid 0 .owned with
  | none => none
  | some (id, s) =>
    let need := s.neededClaims p cmd
    let base := s.mem.claimNo
    let claims := need.zipIdx.map (fun x => ({ tensor := x.1.1, write := x.1.2, seq := base + x.2 } : Claim))
    let s := s.modMem (fun m => { m with claimNo := base + need.length })
    let held := cmd.ordered && fab.isNone && s.recs.any (fun r => r.2.part == p && r.2.q == q && r.2.fab.isNone && decide (r.2.order < order))
    let lng := if isLong cmd.opcode && fab.isNone then
        some { running := s.longTurn p order, progress := 0, count := 0, lastWrite := s.now } else none
    let r : Rec := { part := p, q := q, fab := fab, cmd := cmd, ctx := id, gen := s.resetGen p, stamp := s.now, order := order,
                     phase := .ready, long := lng, waits := aim, claims := claims, restarts := 0, eccAt := none, fetched := fetched.getD s.now, demoted := demoted }
    let blocked := !s.claimsFree rid r
    let r := { r with phase := if held then .heldOrdered else if blocked then .waitClaims else .ready }
    let s := (s.putRecs (kvPut rid r s.recs)).putNextRec (rid + 1)
    let s := if blocked then s.bump (cMemPClaimWaits p) 1 else s
    let s := if cmd.opcode = 0x10 then s.pinQuery p rid cmd fab.isSome extra else if cmd.opcode = 0x31 then s.pinLookup p rid cmd else s
    let s := if lng.isSome then s.writeStatus rid else s
    some (rid, if held || blocked then s else s.makeReady rid)

/-! ### Doorbells and queue control (R114 to R119) -/

/-- SQ_TAIL_DOORBELL: a tail at or above the queue size is discarded with DB_ERR; from step 2 to step 7 of a partition
reset, and until READY (R443), it is discarded silently; otherwise it is recorded (R117). A page at or above SQ_COUNT discards writes (R113). -/
def execSqTailDoorbell (p q tail : Nat) (s : State) : Host.Outcome State Fault Refusal :=
  if s.sqCount p ≤ q ∨ s.isReady = false then .next s
  else if s.pstate p = stResetting ∧ (((s.part p).rst.map (fun r => r.scrubbing)) = some true) = false then .next s
  else if (s.queue p q).sqSize ≤ tail then .next (s.modQueue p q (fun x => { x with dbErr := true }))
  else .next (s.modQueue p q (fun x => { x with tail := tail }))

/-- Entries that a head write frees: from the old head up to the new one. A head equal to the old one while the ring is full may mean either
none or all (R116): it frees every entry (DESIGN CHOICE, log entry 46). -/
def Queue.freed (x : Queue) (head : Nat) : Nat :=
  if head = x.head then (if x.used = x.cqSize then x.used else 0) else (head + x.cqSize - x.head) % x.cqSize

/-- CQ_HEAD_DOORBELL: a head at or above the ring's size, or past the entries written, is discarded with DB_ERR;
otherwise it frees slots (R116, R117). Until READY it is discarded (R443). -/
def execCqHeadDoorbell (p q head : Nat) (s : State) : Host.Outcome State Fault Refusal :=
  if s.sqCount p ≤ q ∨ s.isReady = false then .next s else
  let x := s.queue p q
  if x.cqSize ≤ head ∨ x.used < x.freed head then .next (s.modQueue p q (fun x => { x with dbErr := true }))
  else .next (s.modQueue p q (fun y => { y with head := head, used := y.used - x.freed head }))

/-- Whether a queue's configuration may be enabled (R118): sizes within R112 and a vector below MSIX_COUNT; bases are
aligned by their registers' layout (Table 4.11). -/
def State.enableOk (s : State) (p : Nat) (x : Queue) : Bool :=
  decide (4 ≤ fCfgSqLog.get x.cfg ∧ fCfgSqLog.get x.cfg ≤ 14 ∧ 4 ≤ fCfgCqLog.get x.cfg ∧ fCfgCqLog.get x.cfg ≤ 14 ∧
    fCfgVector.get x.cfg < (s.pcfg p).msixCount) && !x.active

/-- QUEUE_ENABLE: refused with CFG_ERR, ENABLE staying 0, or both rings start at zero (R118); refused until READY (R443). -/
def execQueueEnable (p q : Nat) (s : State) : Host.Outcome State Fault Refusal :=
  if s.sqCount p ≤ q then .next s else
  let x := s.queue p q
  if x.enabled then .next s
  else if s.isReady = true ∧ s.enableOk p x = true then
    .next (s.modQueue p q (fun x =>
      { sqBase := x.sqBase, cqBase := x.cqBase, cfg := fCfgEnable.put 1 x.cfg, cfgErr := x.cfgErr, dbErr := x.dbErr }))
  else .next (s.modQueue p q (fun x => { x with cfgErr := true }))

/-- QUEUE_DISABLE: fetching stops at once; commands already fetched still complete (R119). -/
def execQueueDisable (p q : Nat) (s : State) : Host.Outcome State Fault Refusal :=
  if s.sqCount p ≤ q then .next s
  else .next (s.modQueue p q (fun x => { x with cfg := fCfgEnable.put 0 x.cfg }))

/-! ### Admission from host ingress (R379 to R389) -/

/-- The class of a staged command's flow and its partition's head: the oldest staged command of a partition in a class
whose stream is eligible, not waiting for a context. -/
def State.flowHead (s : State) (p cls : Nat) : Option (Nat × Staged) :=
  let cand := s.queues.filterMap (fun x => match x.2.staged with
    | some g => if x.1 / 64 == p && g.cls == cls && !g.noCtx && (!s.flt.stopped || g.cmd.opcode == 5) && s.eligible p 1 g.cmd.stream then some (x.1, g) else none
    | none => none)
  cand.foldl (fun best x => match best with
    | none => some x
    | some b => if x.2.order < b.2.order then some x else some b) none

/-- The virtual start of a head unit (R387): recorded, or the later of the class's virtual time and the flow's finish. -/
def SchedDom.startOf (d : SchedDom) (p cls : Nat) (start : Option Frac) : Frac :=
  start.getD (Frac.max (kvGetD Frac.zero cls d.v) (kvGetD Frac.zero (cls * 64 + p) d.finish))

/-- Whether commands of partition `p` may be fetched and staged ones admitted (R103, R396); a node that has stopped still accepts the
`LOG_READ` of its physical functions (R407). -/
def State.fetching (s : State) (p : Nat) : Bool :=
  (if s.flt.stopped then (s.pcfg p).vf == 0 && (s.pstate p == stReady || s.pstate p == stUnconfigured) && decide (s.sqCount p ≠ 0) else s.serving p) &&
  s.fld (rPrtCtl p) fPrtCtl_QUIESCE == 0

/-- Partitions of a host port that have something staged and may admit it. -/
def State.stagedParts (s : State) (port : Nat) : List Nat :=
  (((s.queues.filter (fun x => x.2.staged.isSome && (s.pcfg (x.1 / 64)).port == port)).map (fun x => x.1 / 64)).eraseDups).filter s.fetching

/-- Record the virtual start of every flow's head of a host port; a command that no longer heads its flow starts anew when it heads it again
(R387). -/
def State.markHeads (s : State) (port : Nat) : State :=
  let d := kvGetD {} port s.fab.doms
  (s.stagedParts port).foldl (fun s p => (List.range 8).foldl (fun s c =>
    let head := s.flowHead p c
    let mark := fun (k : Nat) (g : Staged) =>
      if k / 64 ≠ p ∨ g.cls ≠ c then g
      else if head.map (fun h => h.1) = some k then (if g.start.isSome then g else { g with start := some (d.startOf p c none) })
      else if head.isSome ∧ g.noCtx = false then { g with start := none } else g
    s.putQueues (kvMapVals (fun k (x : Queue) => { x with staged := x.staged.map (mark k) }) s.queues)) s) s

/-- Stage 5 at host ingress (R387, R389): the highest class with a unit, and in it the head with the least start, the
lower partition on a tie. -/
def State.choose (s : State) (port : Nat) : Option (Nat × Nat × Nat × Staged) :=
  let d := kvGetD {} port s.fab.doms
  [7, 6, 5, 4, 3, 2, 1, 0].findSome? (fun c =>
    (s.stagedParts port).foldl (fun best p => match s.flowHead p c with
      | none => best
      | some (k, g) => match best with
        | none => some (p, c, k, g)
        | some (bp, _, _, bg) =>
          let a := d.startOf p c g.start
          let b := d.startOf bp c bg.start
          if Frac.lt a b || (!Frac.lt b a && decide (p < bp)) then some (p, c, k, g) else best) none)

/-- What serving a unit does to its flow: virtual time and finish of the class, tokens of its stream, and the time it waited on the
shaper (R385, R387). -/
def State.serveUnit (s : State) (dom p apply cls stream len entered : Nat) (start : Frac) : State :=
  let s := s.noteShape p apply stream entered
  let s := s.modFab (fun (f : Fab) =>
    let d : SchedDom := kvGetD {} dom f.doms
    let fin := Frac.add start (Frac.mk' len (s.flowWeight p apply cls))
    { f with doms := kvPut dom { v := kvPut cls start d.v, finish := kvPut (cls * 64 + p) fin d.finish } f.doms })
  s.debitShaper p apply stream len

/-- Admit the staged command of queue `k` (partition * 64 + queue): its slot empties and its record is made. Without a
context it stays in its slot and the wait is counted (R99). -/
def State.admitStaged (s : State) (k : Nat) (g : Staged) : State :=
  let p := k / 64
  match s.admitRec p (k % 64) none g.cmd g.order (s.entryPool p) [] g.target (some g.entered) (g.cls != s.streamClass p g.cmd.stream) with
  | some (_, s) => s.putQueues (kvUpd k (fun x => { x with staged := none }) s.queues)
  | none =>
    let s := s.putQueues (kvUpd k (fun x => { x with staged := some { g with noCtx := true } }) s.queues)
    if g.noCtx then s else s.bump (cPrtCtxWaits p) 1

/-- HOST_INGRESS_ADMIT: stage 5 of a host port chooses the next command, which is admitted with the present stamp
(R380, R387); nothing is chosen where nothing is eligible. -/
def execHostIngressAdmit (port : Nat) (s : State) : Host.Outcome State Fault Refusal :=
  let s := s.markHeads port
  match s.choose port with
  | none => .next s
  | some (p, c, k, g) =>
    let d := kvGetD {} port s.fab.doms
    let s := s.serveUnit port p 1 c g.cmd.stream g.len g.entered (d.startOf p c g.start)
    .next ((s.admitStaged k g).markHeads port)

/-- ADMISSION_RESUME: a context has been freed for partition `p`; its oldest admission that waits for one proceeds: a
staged command, otherwise a waiting fabric request (R99). -/
def execAdmissionResume (p : Nat) (s : State) : Host.Outcome State Fault Refusal :=
  let cand := s.queues.filterMap (fun x => match x.2.staged with
    | some g => if x.1 / 64 == p && g.noCtx then some (x.1, g) else none
    | none => none)
  let best := cand.foldl (fun best x => match best with
    | none => some x
    | some (b : Nat × Staged) => if x.2.order < b.2.order then some x else some b) none
  if s.ctxAvail p (s.entryPool p) = 0 ∨ s.fetching p = false then .next s
  else match best with
  | some (k, g) => .next (s.admitStaged k g)
  | none => match (s.part p).waiting with
    | [] => .next s
    | w :: rest => match s.admitRec p w.ep (some w.origin) w.cmd s.fetchNo (s.entryPool p) w.extra with
      | some (_, s) => .next (((s.putFetchNo (s.fetchNo + 1))).modPart p (fun x => { x with waiting := rest }))
      | none => .next s

/-- Refuse a fabric request (R95, R368). -/
def State.refuseFabric (s : State) (p ep : Nat) (o : FabOrigin) (op : Nat) : State :=
  s.answer o 2 2 op p ep [scRemoteError] []

/-- FABRIC_REQ_BUFFER_TIMEOUT: fabric requests of partition `p` that have waited 50 µs for a context are refused and
counted (R99). -/
def execFabricReqBufferTimeout (p : Nat) (s : State) : Host.Outcome State Fault Refusal :=
  let late := (s.part p).waiting.filter (fun w => decide (w.arrived + 50000 ≤ s.now))
  let s := s.modPart p (fun x => { x with waiting := x.waiting.filter (fun w => !decide (w.arrived + 50000 ≤ s.now)) })
  .next (late.foldl (fun s w => (s.refuseFabric p w.ep w.origin w.cmd.opcode).bump (cPrtRefusedFabric p) 1) s)

/-- ORDERED_RELEASE: every command fetched earlier from the queue is complete, so the held command executes and fetching
resumes (R132). -/
def execOrderedRelease (p q : Nat) (s : State) : Host.Outcome State Fault Refusal :=
  match s.recs.find? (fun r => r.2.part == p && r.2.q == q && r.2.fab.isNone && decide (r.2.phase = .heldOrdered)) with
  | none => .next s
  | some (rid, r) =>
    if s.recs.any (fun x => x.2.part == p && x.2.q == q && x.2.fab.isNone && decide (x.2.order < r.order)) then .next s
    else
      let free := s.claimsFree rid r
      .next (if free then s.makeReady rid else s.modRec rid (fun r => { r with phase := .waitClaims }))

/-- CLAIM_GRANT: a command whose claims waited takes them all and may execute (R315). -/
def execClaimGrant (p q cid : Nat) (s : State) : Host.Outcome State Fault Refusal :=
  match s.recOf p q cid with
  | some (rid, r) =>
    if r.phase = .waitClaims ∧ s.claimsFree rid r = true then .next (s.makeReady rid)
    else .next s
  | none => .next s

/-- MSIX_COALESCE_TIMEOUT: the oldest pending completion of a queue has waited AGG_TIME_US, so the message is sent
(R141). -/
def execMsixCoalesceTimeout (p q : Nat) (s : State) : Host.Outcome State Fault Refusal :=
  let x := s.queue p q
  match s.coalOf p q with
  | [] => .next s
  | t :: _ => if t + fCfgAggTime.get x.cfg * 1000 ≤ s.now then .next (s.sendMsix p (fCfgVector.get x.cfg)) else .next s

/-! ### NOP, FENCE, long operations -/

/-- NOP: completes with DONE (R125). -/
def execNop (p q cid : Nat) (s : State) : Host.Outcome State Fault Refusal :=
  match s.readyRec p q cid 0x00 with
  | some (rid, _) => .next (s.done p rid 0 0 0)
  | none => .next s

/-- FENCE: begins to wait for the commands of its scope that were fetched before it (R133). -/
def execFence (p q cid : Nat) (s : State) : Host.Outcome State Fault Refusal :=
  match s.readyRec p q cid 0x01 with
  | some (rid, _) => .next (s.modRec rid (fun r => { r with phase := .running }))
  | none => .next s

/-- FENCE_COMPLETE: completes with DONE once every command of its scope that was fetched before it has its completion written, and not before
(R133). -/
def execFenceComplete (p q cid : Nat) (s : State) : Host.Outcome State Fault Refusal :=
  match s.runningRec p q cid 0x01 with
  | some (rid, r) => if s.fenceWaits p q r.order (r.cmd.param 0 1 == 1) (bitOf (r.cmd.param 1 1) 0) then .next s else .next (s.done p rid 0 0 0)
  | none => .next s

/-- LONG_OP_START: an IDLE long operation starts when one has ended and it is the first in order of fetch (R136); its
status word is written RUNNING. -/
def execLongOpStart (p q cid : Nat) (s : State) : Host.Outcome State Fault Refusal :=
  match s.recOf p q cid with
  | some (rid, r) => (match r.long with
    | some l =>
      if l.running = false ∧ s.longTurn p r.order = true then
        .next ((s.modRec rid (fun r => { r with long := some { l with running := true } })).writeStatus rid)
      else .next s
    | none => .next s)
  | none => .next s

/-- Key of a namespace of a partition. -/
def nsKey (p id : Nat) : Nat := p * 32 + id

/-- Whether a command of a namespace must wait for one admitted before it: overlapping units, one of them a write, or a delete
or erase (R335, R337). -/
def State.nsWaits (s : State) (rid p id first units : Nat) (write : Bool) : Bool :=
  s.recs.any (fun x => decide (x.1 < rid) && x.2.part == p && x.2.fab.isNone && x.2.cmd.param 0 2 == id &&
    (if x.2.cmd.opcode = 0x63 then x.2.cmd.param 2 1 != 0
     else (x.2.cmd.opcode == 0x60 || x.2.cmd.opcode == 0x61 || x.2.cmd.opcode == 0x62) && (write || x.2.cmd.opcode != 0x60) &&
      decide (x.2.cmd.param 8 8 < first + units ∧ first < x.2.cmd.param 8 8 + x.2.cmd.param 4 4)))

/-- Whether a delete or erase of a namespace by request `rid` still waits for commands of it admitted before (R337). -/
def State.nsHeld (s : State) (rid key : Nat) : Bool := s.nsWaits rid (key / 32) (key % 32) 0 (2 ^ 64) true

/-- The key of a namespace being deleted or erased is destroyed once no earlier command of it is left (R337). -/
def State.destroyKey (s : State) (rid key : Nat) : State := if s.nsHeld rid key then s else s.dropKey (nsBase key / 16384)

/-- A share of work done, in 1/1,000,000, rounded down. -/
def shareDone (done whole : Nat) : Nat := if whole = 0 then 0 else min 1000000 (1000000 * done / whole)

/-- A migration copies `n` bytes: charged to the partition's regulators of both tiers, and counted (R317). -/
def State.migrateCopy (s : State) (m : Migration) (n : Nat) : State :=
  match kvGet? m.tensor s.mem.tensors with
  | none => s
  | some t => if n = 0 then s else ((s.access t.part t.addr n).access t.part m.dest n).bump cMemMigrateBytes n

/-- How far the work of a long operation has come at a status tick, and its PROGRESS: of a build the vectors linked (R276), of a migration the bytes
copied on its first pass (R317), of a delete or erase of a namespace the units cleared (R337), each from what it was up to the whole by the free word
`w`; of another operation a free share that does not fall (DESIGN CHOICE, log entry 38). -/
def State.workOn (s : State) (rid : Nat) (r : Rec) (l : LongOp) (w : Nat) : State × Nat :=
  let on := fun (done whole : Nat) => done + w % (whole - done + 1)
  match kvGet? rid s.builds, kvGet? rid s.mem.migs, s.flash.ns.find? (fun n => n.2.ending == some rid) with
  | some b, _, _ =>
    if r.cmd.opcode ≠ 0x22 then (s, l.progress + w % (1000001 - l.progress)) else
    let n := if b.started.isSome then on b.linked b.items.length else 0
    (s.putBuilds (kvPut rid { b with linked := n } s.builds), shareDone n b.items.length)
  | none, some m, _ =>
    let size := ((kvGet? m.tensor s.mem.tensors).map (fun (t : Tensor) => t.bytes)).getD 0
    let n := on m.copied size
    ((s.migrateCopy m (n - m.copied)).modMem (fun x => { x with migs := kvPut rid { m with copied := n } x.migs }), shareDone n size)
  | none, none, some x =>
    let n := if s.nsHeld rid x.1 then x.2.cleared else on x.2.cleared x.2.size
    (((s.destroyKey rid x.1).unmapUnits (nsBase x.1 / 16384) n).modFlash (fun f => { f with ns := kvUpd x.1 (fun y => { y with cleared := n }) f.ns }), shareDone n x.2.size)
  | none, none, none => (s, l.progress + w % (1000001 - l.progress))

/-- LONG_OP_STATUS_TICK: the status word of a RUNNING long operation is written, at least every 10 ms (R136), with how far its work has come; a
load and a log read set their PROGRESS at their own steps. -/
def execLongOpStatusTick (p q cid : Nat) (s : State) : Host.Outcome State Fault Refusal :=
  match s.recOf p q cid with
  | some (rid, r) => (match r.long with
    | some l =>
      if !l.running then .next s
      else if r.cmd.opcode = 0x04 ∨ r.cmd.opcode = 0x05 then .next (s.writeStatus rid)
      else
        let (w, s) := s.fresh
        let (s, n) := s.workOn rid r l w.toNat
        .next ((s.modRec rid (fun r => { r with long := some { l with progress := max l.progress n } })).writeStatus rid)
    | none => .next s)
  | none => .next s

end Sys2Proof.Machine
end

