-- ==== Sys2Proof/Machine/Select.lean ====
section
/-! DEFINITION. The events of the selection units (spec/09). -/

namespace Sys2Proof.Machine

/-- SELECT_LIST_OPEN: a list opens on a unit of the cluster; *k* = 0 or above 1,024 is refused and counted, and the
request that asked completes with `BAD_COMMAND`; without room the request waits (R247). -/
def execSelectListOpen (u rid lid k : Nat) (higher fp dedup : Bool) (s : State) : Host.Outcome State Fault Refusal :=
  if k = 0 ∨ 1024 < k then
    let s := s.bump (cCluSelRefused (u / 2) (u % 2)) 1
    match kvGet? rid s.recs with
    | some r => .next (s.fail r.part rid scBadCommand)
    | none => .next s
  else
    .next (s.selOpen u lid { owner := some rid, k := k, higher := higher, fp := fp, dedup := dedup }).1

/-- SELECT_INSERT: an offered entry is inserted (R251). -/
def execSelectInsert (u lid key id seg node : Nat) (s : State) : Host.Outcome State Fault Refusal :=
  .next (s.selOffer u lid [{ key := key, id := id, seg := seg, node := node, ord := 0 }])

/-- SELECT_LIST_CLOSE: a list closes and reports (R255, R256). -/
def execSelectListClose (u lid : Nat) (s : State) : Host.Outcome State Fault Refusal :=
  match s.selClose u lid with
  | (t, some r) => .next (t.putResults (t.results ++ [r]))
  | (t, none) => .next t

/-- SELECT_MERGE: a partial list is merged whole into a list (R259). -/
def execSelectMerge (u lid : Nat) (data : List Byte) (s : State) : Host.Outcome State Fault Refusal :=
  .next (s.selMerge u lid data)

end Sys2Proof.Machine
end

