-- ==== Sys2Proof/Machine/Bank.lean ====
section
/-! DEFINITION. Bank engines (spec/06): sketches and Hamming distance, descriptor checks, the five bank commands and the
fence token, result rings, channel modes and held accesses, refresh and throttling, the host command BKE_FENCE. -/

namespace Sys2Proof.Machine

/-! ### Sketches and rows (R164, R165) -/

/-- Sketches in a channel row (R165). -/
def perRow (w : Nat) : Nat := 16384 / widthBits w

/-- Node address of a channel row (R165, R309). -/
def rowAddr (c r : Nat) : Nat := c * 2 ^ 31 + r * 2048

/-- Population count. -/
def popGo : Nat → Nat → Nat
  | 0, _ => 0
  | f + 1, n => if n = 0 then 0 else n % 2 + popGo f (n / 2)

/-- Population count of a byte. -/
def popByte (b : Byte) : Nat := popGo 8 b.toNat

/-- Population count of a byte list. -/
def popBytes (bs : List Byte) : Nat := bs.foldl (fun n b => n + popByte b) 0

/-- The distance between two sketches: the population count of their exclusive-or (R164). -/
def hamming (a b : List Byte) : Nat := (List.zipWith (fun x y => popByte (x ^^^ y)) a b).foldl (· + ·) 0

/-! ### Descriptors (Table 6.2) -/

def dBop (d : List Byte) : Nat := fieldAt d 0 1
def dKeep (d : List Byte) : Bool := bitOf (fieldAt d 1 1) 0
def dFlush (d : List Byte) : Bool := bitOf (fieldAt d 1 1) 1
def dInvert (d : List Byte) : Bool := bitOf (fieldAt d 1 1) 2
def dWidth (d : List Byte) : Nat := fieldAt d 2 1
def dQCount (d : List Byte) : Nat := fieldAt d 3 1
def dRing (d : List Byte) : Nat := fieldAt d 6 1
def dTag (d : List Byte) : Nat := fieldAt d 12 4
def dRowFirst (d : List Byte) : Nat := fieldAt d 16 4
def dRowCount (d : List Byte) : Nat := fieldAt d 20 4
def dIdBase (d : List Byte) : Nat := fieldAt d 24 4
def dListCount (d : List Byte) : Nat := fieldAt d 28 4
def dQBlock (d : List Byte) : Nat := fieldAt d 32 8
def dSrc (d : List Byte) : Nat := fieldAt d 40 8
def dDst (d : List Byte) : Nat := fieldAt d 48 8
def noDst : Nat := 0xFFFFFFFFFFFFFFFF

/-- Whether bank `b` takes part: BANK_MASK 0 means all (Table 6.2). -/
def dBank (d : List Byte) (b : Nat) : Bool := fieldAt d 4 2 == 0 || bitOf (fieldAt d 4 2) b

/-- Banks that take part, rising. -/
def dBanks (d : List Byte) : List Nat := (List.range 16).filter (dBank d)

/-- The channel rows of a range that lie in bank `b`, rising (R165). -/
def bankRows (first count b : Nat) : List Nat :=
  ((List.range (count / 16 + 2)).map (fun i => (first / 16 + i) * 16 + b)).filter (fun r => decide (first ≤ r ∧ r < first + count))

/-- The address-list entries of a gather (R177): local ID, row, slot. -/
def listEntries (bs : List Byte) : Nat → List (Nat × Nat × Nat)
  | 0 => []
  | n + 1 => (fieldAt bs 0 4, fieldAt bs 4 4 % 2 ^ 20, fieldAt bs 4 4 / 2 ^ 20 % 2 ^ 7) :: listEntries (bs.drop 8) n

/-- Take out each element equal to the one before it. -/
def dropRepeats : List Nat → List Nat
  | [] => []
  | [x] => [x]
  | x :: y :: t => if x = y then dropRepeats (y :: t) else x :: dropRepeats (y :: t)

/-- The bytes of a descriptor's query block (Table 6.3). -/
def State.jobBlock (s : State) (j : BankJob) : List Byte :=
  match j.own with
  | some o => o.block
  | none => s.readMem (dQBlock j.desc) (dQCount j.desc * (16 + widthBits (dWidth j.desc) / 8))

/-- The address list of a gather (R177). -/
def State.jobList (s : State) (j : BankJob) : List (Nat × Nat × Nat) :=
  let n := dListCount j.desc
  listEntries (match j.own with | some o => o.list | none => s.readMem (dSrc j.desc) (8 * n)) n

/-- Channel rows that the engine of bank `b` steps through, in order: consecutive entries of a gather in one row share a step, and an entry that is
skipped, for its row lies outside the channel or its slot outside the row, opens none (R175, R177). -/
def State.jobRows (s : State) (j : BankJob) (b : Nat) : List Nat :=
  let d := j.desc
  if dBop d = 2 then
    dropRepeats (((s.jobList j).filter (fun x => decide (x.2.1 < s.channelRows ∧ x.2.2 < perRow (dWidth d)))).filterMap (fun x => if x.2.1 % 16 = b then some x.2.1 else none))
  else if dBop d = 4 then bankRows (dSrc d) (dRowCount d) b
  else if dBop d = 5 then bankRows (dDst d) (dRowCount d) b
  else bankRows (dRowFirst d) (dRowCount d) b

/-- Row steps that each row takes (R175). -/
def stepsPerRow (d : List Byte) : Nat := if dBop d = 1 then max 1 ((widthBits (dWidth d) * dQCount d + 16383) / 16384) else 1

/-- Row steps of the engine of bank `b`. -/
def State.bankSteps (s : State) (j : BankJob) (b : Nat) : Nat := (s.jobRows j b).length * stepsPerRow j.desc

/-- Largest number of row steps that one engine makes (R175). -/
def State.rowSteps (s : State) (j : BankJob) : Nat := (dBanks j.desc).foldl (fun m b => max m (s.bankSteps j b)) 0

/-- Duration of a command in tenths of a ns (R175). -/
def State.cmdTenths (s : State) (j : BankJob) : Nat := 3000 + s.rowSteps j * 1050 + (if dFlush j.desc then dQCount j.desc * 82 else 0)

/-- Whether every row of a range of a channel exists and lies in allocations of `p`, outside protected regions. -/
def State.rowsOwned (s : State) (p c first count : Nat) : Bool :=
  decide (first + count ≤ s.channelRows) && (List.range count).all (fun i => s.ownsRange p (rowAddr c (first + i)) 2048 &&
    !((s.pcfg p).prot.any (fun r => decide (r.base < rowAddr c (first + i) + 2048 ∧ rowAddr c (first + i) < r.base + r.len))))

/-- Whether a range in Tier A, or in the buffer of a cluster of its mask, may be read by a bank command of `p`. -/
def State.blockOwned (s : State) (p a len : Nat) : Bool :=
  (match bufferOf a, bufferOf (a + len - 1) with
    | some n, some m => n == m && bitOf (s.pcfg p).clusterMask n
    | _, _ => false) ||
  (tierOf a == some 0 && s.ownsRange p a len && !((s.pcfg p).prot.any (fun r => decide (r.base < a + len ∧ a < r.base + r.len))))

/-- Whether a gather's address list may be read from a range: any node address of the partition's (Table 6.2) but one of Tier P (R320). -/
def State.listOwned (s : State) (p a len : Nat) : Bool :=
  s.blockOwned p a len || ((tierOf a == some 1 || tierOf a == some 3) && s.ownsRange p a len)

/-- Fields of a descriptor within their ranges (Table 6.2); the rows of one step lie in one bank: SRC and DST of `SCAN_BITS` and `COPY`, and DST
of `FILL`, are a multiple of 16 rows from ROW_FIRST (R178, R179). -/
def dFieldsOk (p c : Nat) (d : List Byte) : Bool :=
  let op := dBop d
  let q := dQCount d
  d.length == 64 && decide (fieldAt d 1 1 < 8) && decide (dWidth d < 4) && decide (dRing d < 8) && zeroAt d 10 2 &&
  fieldAt d 7 1 == p && fieldAt d 8 2 == c && decide (c < 256) &&
  (if op = 1 then decide (1 ≤ q ∧ q ≤ 64) else if op = 2 then decide (1 ≤ q ∧ q ≤ 8 ∧ 1 ≤ dListCount d ∧ dListCount d ≤ 1024) else q == 0) &&
  (if op = 3 then dSrc d % 16 == dRowFirst d % 16 && (dDst d == noDst || dDst d % 16 == dRowFirst d % 16)
   else if op = 4 then dSrc d % 16 == dRowFirst d % 16 && dDst d % 16 == dRowFirst d % 16 && !(decide (dSrc d < dDst d + dRowCount d ∧ dDst d < dSrc d + dRowCount d))
   else if op = 5 then dDst d % 16 == dRowFirst d % 16
   else true)

/-- The checks of R187 that do not depend on the open tags: the refusal's status, if any. -/
def State.bankCheck (s : State) (p c : Nat) (j : BankJob) : Option Nat :=
  let d := j.desc
  let op := dBop d
  if !dFieldsOk p c d then some scBadCommand
  else if !bitOf (s.pcfg p).procChannels c then some scBadHandle
  else if op = 2 ∧ s.listOwned p (dSrc d) (8 * dListCount d) = false then some scBadHandle
  else if 40000 < s.cmdTenths j then some scBadCommand
  else
    let n := dRowCount d
    let rowsOk := if op = 1 then s.rowsOwned p c (dRowFirst d) n
      else if op = 3 then s.rowsOwned p c (dRowFirst d) n && s.rowsOwned p c (dSrc d) n && (dDst d == noDst || s.rowsOwned p c (dDst d) n)
      else if op = 4 then s.rowsOwned p c (dSrc d) n && s.rowsOwned p c (dDst d) n
      else if op = 5 then s.rowsOwned p c (dDst d) n
      else ((s.jobList j).all (fun x =>
        decide (s.channelRows ≤ x.2.1 ∨ perRow (dWidth d) ≤ x.2.2) || s.rowsOwned p c x.2.1 1))
    let qOk := if op = 1 ∨ op = 2 then dKeep d || s.blockOwned p (dQBlock d) (dQCount d * (16 + widthBits (dWidth d) / 8)) else true
    if rowsOk && qOk then none else some scBadHandle

/-! ### Engine lists (R176, R177, R180) -/

/-- Entries of a query block (Table 6.3). -/
def queryBlock (w : Nat) (bs : List Byte) : Nat → List BQuery
  | 0 => []
  | n + 1 =>
    let sk := widthBits w / 8
    { limit := fieldAt bs 0 4, maxD := fieldAt bs 4 2, sketch := (bs.drop 16).take sk } :: queryBlock w (bs.drop (16 + sk)) n

/-- An empty engine list (R180): the best 16 by integer distance, lower better. -/
def newBList : BList := { list := { owner := none, k := 16, higher := false, fp := false, dedup := false } }

/-- Compare one sketch with one query (R176). -/
def BList.compare (l : BList) (q : BQuery) (id : Nat) (sk : List Byte) : BList :=
  if id < q.limit then
    let dist := hamming sk q.sketch
    let l : BList := { l with scanned := l.scanned + 1 }
    if dist ≤ q.maxD then
      let e : SelEntry := { key := dist, id := id, seg := 0, node := 0, ord := 0 }
      { l with list := l.list.insert e }
    else
      let m : SelList := { l.list with left := l.list.left + dist }
      { l with list := m }
  else l

/-- An item of an engine's input: local ID and sketch address, none where the entry is skipped. -/
abbrev EngineItem := Nat × Option Nat

/-- The sketches that the engine of bank `b` meets, in order (R176, R177). -/
def State.engineItems (s : State) (c b : Nat) (j : BankJob) : List EngineItem :=
  let d := j.desc
  let w := dWidth d
  let n := perRow w
  let sk := widthBits w / 8
  if dBop d = 1 then
    (bankRows (dRowFirst d) (dRowCount d) b).flatMap (fun r => (List.range n).map (fun i =>
      ((dIdBase d + (r - dRowFirst d) * n + i) % 2 ^ 32, some (rowAddr c r + i * sk))))
  else
    ((s.jobList j).filter (fun x => x.2.1 % 16 == b)).map (fun x =>
      (x.1, if s.channelRows ≤ x.2.1 ∨ n ≤ x.2.2 then none else some (rowAddr c x.2.1 + x.2.2 * sk)))

/-- Run an engine's input against one query's list. A sketch that cannot be read is dropped and counted in SKIPPED (R188, R402). -/
def State.engineRun (s : State) (w : Nat) (q : BQuery) (items : List EngineItem) (l : BList) : BList :=
  items.foldl (fun l x => match x.2 with
    | none => { l with skipped := l.skipped + 1 }
    | some a => if s.mem.isDamaged a (widthBits w / 8) then { l with skipped := l.skipped + 1 }
      else l.compare q x.1 (s.readMem a (widthBits w / 8))) l

/-- Run a comparing command into the lists of its tag: all of the tag's queries are compared, at the tag's sketch length, also where the command's own
QCOUNT and WIDTH differ, which give its rows and its duration (DESIGN CHOICE, log entry 48: R181 does not say). -/
def State.tagRun (s : State) (c : Nat) (j : BankJob) (t : BTag) : BTag :=
  let banks := dBanks j.desc
  let lists := banks.foldl (fun (m : KV BList) b =>
    let items := s.engineItems c b j
    t.qs.zipIdx.foldl (fun (m : KV BList) q =>
      kvPut (b * 64 + q.2) (s.engineRun t.width q.1 items (kvGetD newBList (b * 64 + q.2) m)) m) m) t.lists
  { t with lists := lists, cmds := t.cmds ++ [j] }

/-- Addresses of the compared sketches that cannot be read: each read is an uncorrectable error (R188). -/
def State.engineDrops (s : State) (c : Nat) (j : BankJob) : List (Nat × Nat) :=
  (dBanks j.desc).flatMap (fun b => (s.engineItems c b j).filterMap (fun x => match x.2 with
    | some a => if s.mem.isDamaged a (widthBits (dWidth j.desc) / 8) then some (b, a) else none
    | none => none))

/-- A result record (Table 6.4). -/
def recordBytes (tag q bank : Nat) (l : BList) (popSum : Option Nat) : List Byte :=
  let r := l.list.close 0
  let sat := 2 ^ 64 ≤ r.leftSum
  let flags := (if popSum.isNone ∧ r.fewer = true then 1 else 0) + (if 0 < r.tied then 2 else 0) + (if sat then 32 else 0)
  leBytes 4 tag ++ leBytes 1 q ++ leBytes 1 bank ++ leBytes 1 r.entries.length ++ leBytes 1 flags ++ leBytes 4 (min 0xFFFFFFFF l.scanned) ++
  leBytes 2 (min 0xFFFF r.tied) ++ leBytes 2 (min 0xFFFF l.skipped) ++ leBytes 4 (popSum.getD r.selSum) ++ leBytes 4 0 ++
  leBytes 8 (if sat then 2 ^ 64 - 1 else r.leftSum) ++
  (r.entries.flatMap (fun e => leBytes 4 e.id ++ leBytes 2 e.key ++ leBytes 2 0)) ++ List.replicate (8 * (16 - r.entries.length)) 0

/-! ### Channels -/

/-- Channel `c`. -/
def State.chan (s : State) (c : Nat) : BankCh := kvGetD {} c s.bank

/-- Change channel `c`. -/
def State.modChan (s : State) (c : Nat) (f : BankCh → BankCh) : State := s.putBank (kvPut c (f (s.chan c)) s.bank)

/-- The stack of a channel. -/
def stackOf (c : Nat) : Nat := c / 32

/-- Write to a channel; a write to a fenced channel fails (R402). -/
def State.writeChan (s : State) (a : Nat) (bs : List Byte) : State := if s.isFenced 7 (a / 2 ^ 31) then s else s.writeMem a bs

/-- Serve held accesses in arrival order (R194): writes reach memory. -/
def State.serveHeld (s : State) (hs : List HeldAcc) : State :=
  hs.foldl (fun t h => if h.write then t.writeChan h.addr h.data else t) s

/-- Return a token to the issuer; a refused descriptor is counted, and its request completes with the same status (R187). -/
def State.bankToken (s : State) (job : BankJob) (c status records : Nat) : State :=
  let k : BankToken := { part := job.part, channel := c, tag := dTag job.desc, status := status, records := records }
  let s := s.putTokens (s.tokens ++ [k])
  if status = scDone then s.bump (cBkeChCmds c) 1
  else if status ≠ scBadCommand ∧ status ≠ scBadHandle then s
  else
    let s := s.bump (cBkeChRefused c) 1
    match job.rid with
    | some rid => if (kvGet? rid s.recs).isSome then s.fail job.part rid status else s
    | none => s

/-- Free records of a ring (R182, R184). -/
def State.ringFree (s : State) (c ring : Nat) : Nat :=
  match (s.chan c).ring with
  | none => 0
  | some base =>
    let cons := leNat (s.readMem (base + ring * 16 + 4) 4)
    2048 - ((kvGetD 0 ring (s.chan c).written + 2 ^ 32 - cons) % 2 ^ 32)

/-- Records a flush needs free before it starts: 16 for each query, those of the tag that it continues included (R184). -/
def BankCh.flushNeed (ch : BankCh) (d : List Byte) : Nat :=
  if dBop d = 3 then 16
  else if dFlush d ∧ (dBop d = 1 ∨ dBop d = 2) then
    16 * max (dQCount d) (if dKeep d then ((ch.tags.find? (fun t => t.tag == dTag d)).map (fun t => t.qs.length)).getD 0 else 0)
  else 0

/-- Begin a command: its tag opens or continues (R181), none if its tag forbids it; rows to be written are formed. -/
def State.bankBegin (s : State) (c : Nat) (job : BankJob) : Option State :=
  let d := job.desc
  let ch := s.chan c
  let run : BankRun := { job := job, writes := [], sums := [] }
  if dBop d = 1 ∨ dBop d = 2 then
    let cur := ch.tags.find? (fun t => t.tag == dTag d)
    let tag : Option BTag :=
      if dKeep d then cur
      else if cur.isNone ∧ 4 ≤ ch.tags.length then none
      else some { tag := dTag d, width := dWidth d, qs := queryBlock (dWidth d) (s.jobBlock job) (dQCount d), lists := [], cmds := [] }
    match tag with
    | none => none
    | some t =>
      some (s.modChan c (fun x => { x with tags := x.tags.filter (fun y => y.tag != dTag d) ++ [t], run := some run }))
  else if dBop d = 3 then
    let rowsOf := (dBanks d).map (fun b => (b, bankRows (dRowFirst d) (dRowCount d) b))
    let res := fun (r : Nat) => List.zipWith (fun (x y : Byte) => x &&& (if dInvert d then ~~~y else y)) (s.readMem (rowAddr c r) 2048)
      (s.readMem (rowAddr c (r - dRowFirst d + dSrc d)) 2048)
    let sums := rowsOf.map (fun x => (x.1, x.2.foldl (fun n r => n + popBytes (res r)) 0))
    let ws := if dDst d = noDst then [] else rowsOf.flatMap (fun x => x.2.map (fun r => (rowAddr c (r - dRowFirst d + dDst d), res r)))
    some (s.modChan c (fun x => { x with run := some { run with writes := ws, sums := sums } }))
  else if dBop d = 4 then
    let ws := (dBanks d).flatMap (fun b => (bankRows (dSrc d) (dRowCount d) b).map (fun r => (rowAddr c (r - dSrc d + dDst d), s.readMem (rowAddr c r) 2048)))
    some (s.modChan c (fun x => { x with run := some { run with writes := ws } }))
  else
    let pat := (d.drop 56).take 8
    let ws := (dBanks d).flatMap (fun b => (bankRows (dDst d) (dRowCount d) b).map (fun r => (rowAddr c r, (List.replicate 256 pat).flatten)))
    some (s.modChan c (fun x => { x with run := some { run with writes := ws } }))

/-- Count the time that the head of a channel's queue has waited for room in its ring (R184). -/
def State.endRingWait (s : State) (c : Nat) : State :=
  match (s.chan c).ringWait with
  | some t =>
    let s := s.modChan c (fun x => { x with ringWait := none })
    if t < s.now then s.bump (cBkeChRingWaitNs c) (s.now - t) else s
  | none => s

/-- Take the head out of a channel's queue; the oldest descriptor that waits for a place takes it (R173). -/
def State.popJob (s : State) (c : Nat) : State :=
  s.modChan c (fun x => { x with jobs := x.jobs.drop 1 ++ x.surplus.take 1, surplus := x.surplus.drop 1 })

/-- Start the command at the head of a channel's queue when the channel may (R173, R184, R193); a descriptor whose tag is
not as R181 asks is refused and the next one tried. -/
def State.bankStart (s : State) (c : Nat) : Nat → State
  | 0 => s
  | fuel + 1 =>
    let ch := s.chan c
    if ch.run.isSome ∨ (ch.state ≠ 2 ∧ ch.state ≠ 5 ∧ ch.state ≠ 6) then s else
    match ch.jobs with
    | [] => s
    | job :: _ =>
      if dBop job.desc = 0x0F then s
      else if ch.state = 2 ∧ s.fld (rBkeStackStatus (stackOf c)) fBkeStackStatus_THROTTLED = 1 then s
      else if s.ringFree c (dRing job.desc) < ch.flushNeed job.desc then
        s.modChan c (fun x => { x with ringWait := some (x.ringWait.getD s.now) })
      else
        let s := (s.endRingWait c).popJob c
        match s.bankBegin c job with
        | none => ((s.modChan c (fun x => { x with idle := s.now })).bankToken job c scBadCommand 0).bankStart c fuel
        | some t => if ch.state = 2 then t else t.bump (cBkeChFallback c) 1

/-- Queue a job on a channel (R172): a channel in MEMORY mode switches to PROCESSOR; at most 256 descriptors are queued, and a further one
waits at its issuer for a place (R173). -/
def State.bankQueue (s : State) (c : Nat) (job : BankJob) : State :=
  let s := s.modChan c (fun x => if x.jobs.length < 256 then { x with jobs := x.jobs ++ [job], idle := s.now } else { x with surplus := x.surplus ++ [job] })
  let s := if (s.chan c).state = 0 then (s.modChan c (fun x => { x with state := 2 })).bump (cBkeChSwitches c) 1 else s
  s.bankStart c 257

/-- Issue a bank command: checked, refused with a token, or queued (R173, R187). -/
def State.bankIssue (s : State) (op p c rid : Nat) (desc : List Byte) : State :=
  let job : BankJob := { part := p, rid := some rid, desc := desc, fence := false, since := s.now }
  let chk := if dBop desc ≠ op then some scBadCommand else s.bankCheck p c job
  match chk with
  | some st => s.bankToken job c st 0
  | none => s.bankQueue c job

/-- SCAN_HAM: compares channel rows of sketches with query sketches into engine lists (R176). -/
def execScanHam (p c rid : Nat) (desc : List Byte) (s : State) : Host.Outcome State Fault Refusal := .next (s.bankIssue 1 p c rid desc)

/-- GATHER_HAM: compares the sketches that an address list names (R177). -/
def execGatherHam (p c rid : Nat) (desc : List Byte) (s : State) : Host.Outcome State Fault Refusal := .next (s.bankIssue 2 p c rid desc)

/-- SCAN_BITS: combines two bitmaps, optionally writes the result, and counts its bits (R178). -/
def execScanBits (p c rid : Nat) (desc : List Byte) (s : State) : Host.Outcome State Fault Refusal := .next (s.bankIssue 3 p c rid desc)

/-- COPY: copies channel rows (R179). -/
def execCopy (p c rid : Nat) (desc : List Byte) (s : State) : Host.Outcome State Fault Refusal := .next (s.bankIssue 4 p c rid desc)

/-- FILL: writes a pattern into channel rows (R179). -/
def execFill (p c rid : Nat) (desc : List Byte) (s : State) : Host.Outcome State Fault Refusal := .next (s.bankIssue 5 p c rid desc)

/-- The records that a finished command writes, each with its bank (R183), in order of bank and query. A flush writes those of every engine that
holds lists of the tag, also outside the command's BANK_MASK (DESIGN CHOICE, log entry 48). -/
def BankCh.records (ch : BankCh) (r : BankRun) : List (Nat × List Byte) :=
  let d := r.job.desc
  if dBop d = 3 then r.sums.map (fun x => (x.1, recordBytes (dTag d) 0 x.1 newBList (some x.2)))
  else if (dBop d = 1 ∨ dBop d = 2) ∧ dFlush d = true then
    match ch.tags.find? (fun t => t.tag == dTag d) with
    | none => []
    | some t => t.lists.map (fun x => (x.1 / 64, recordBytes (dTag d) (x.1 % 64) (x.1 / 64) x.2 none))
  else []

/-- The row of a channel's address in its bank's numbering: its channel row (R165). -/
def rowOf (a : Nat) : Nat := a % 2 ^ 31 / 2048

/-- Indices for the records of a flush, by the bank of each: of the next indices of the ring, an engine takes the first whose slot starts in
its own bank (R182), and where those are used up the first one left (DEDUCED, log entry 48). -/
def ringPlaces (base ring : Nat) : List Nat → List Nat → List Nat
  | [], _ => []
  | b :: bs, free =>
    let own := free.find? (fun i => rowOf (base + 4096 + ring * 327680 + i % 2048 * 160) % 16 == b)
    let i := own.getD (free.headD 0)
    i :: ringPlaces base ring bs (free.filter (fun x => x != i))

/-- A write that no reader may rely on until a token covers it (R185): its range becomes undefined and its bytes wait. -/
def State.pendWrite (s : State) (c a : Nat) (bs : List Byte) : State :=
  (if s.isFenced 7 c then s else s.hide a bs.length).modChan c (fun x => { x with pend := x.pend ++ [(a, bs)] })

/-- Number of the window of 32 ms in which row activations are counted (R191; DESIGN CHOICE, log entry 48: windows are aligned to the local
time). -/
def State.actWindow (s : State) : Nat := s.now / 32000000

/-- Activations of a row by the engines of a channel in the present window. -/
def State.actsOf (s : State) (c row : Nat) : Nat := if (s.chan c).acts.1 = s.actWindow then kvGetD 0 row (s.chan c).acts.2 else 0

/-- Count the rows that the engines have opened for a command (R191) and its row steps (R193), all in the window of 10 µs in which it ends (DESIGN
CHOICE, log entry 48). What cores run for a fenced channel opens none by its engines. -/
def State.noteRows (s : State) (c : Nat) (j : BankJob) : State :=
  if (s.chan c).state = 5 ∨ (s.chan c).state = 6 then s else
  let d := j.desc
  let banks := dBanks d
  let rows := banks.flatMap (fun b => s.jobRows j b ++
    (if dBop d = 3 then bankRows (dSrc d) (dRowCount d) b else []) ++
    (if dBop d = 4 ∨ (dBop d = 3 ∧ dDst d ≠ noDst) then bankRows (dDst d) (dRowCount d) b else []))
  let w := s.actWindow
  let n := banks.foldl (fun n b => n + s.bankSteps j b) 0
  s.modChan c (fun x => { x with
    steps := x.steps + n
    acts := (w, rows.foldl (fun m r => kvPut r (kvGetD 0 r m + stepsPerRow d) m) (if x.acts.1 = w then x.acts.2 else [])) })

/-- Compare the sketches of a command that ends, on the tag it runs under; each sketch that cannot be read is reported as CONTAINED (R188). -/
def State.runCompare (s : State) (c : Nat) (j : BankJob) : State :=
  if dBop j.desc ≠ 1 ∧ dBop j.desc ≠ 2 then s else
  let drops := s.engineDrops c j
  let s := s.modChan c (fun x => { x with tags := x.tags.map (fun t => if t.tag = dTag j.desc then s.tagRun c j t else t) })
  drops.foldl (fun (t : State) (x : Nat × Nat) => t.event 1 3 6 0 (16 * c + x.1) j.part x.2) s

/-- BANK_CMD_DONE: the running command ends: its comparisons are made, its rows and records written, a flushed tag closes, and its token
returns (R181, R183, R187); then the next command starts. FLUSH with another command than a comparison closes the tag that it names, without records
(DESIGN CHOICE, log entry 48: R181 does not say). -/
def execBankCmdDone (c : Nat) (s : State) : Host.Outcome State Fault Refusal :=
  match (s.chan c).run with
  | none => .next (s.bankStart c 257)
  | some r =>
    let d := r.job.desc
    let s := (s.runCompare c r.job).noteRows c r.job
    let ch := s.chan c
    let recs : List (Nat × List Byte) := ch.records r
    let s := r.writes.foldl (fun t w => t.pendWrite c w.1 w.2) s
    let i := kvGetD 0 (dRing d) ch.written
    let s := match ch.ring with
      | some base =>
        let places := ringPlaces base (dRing d) (recs.map Prod.fst) ((List.range recs.length).map (fun k => (i + k) % 2 ^ 32))
        (places.zip recs).foldl (fun (t : State) (x : Nat × Nat × List Byte) => t.pendWrite c (base + 4096 + dRing d * 327680 + x.1 % 2048 * 160) x.2.2) s
      | none => s
    let s := if recs.isEmpty then s else s.modChan c (fun x => { x with written := kvPut (dRing d) ((i + recs.length) % 2 ^ 32) x.written })
    let s := s.modChan c (fun x => { x with
      run := none
      idle := s.now
      tags := if dFlush d then x.tags.filter (fun t => t.tag != dTag d) else x.tags })
    .next ((s.bankToken r.job c scDone recs.length).bankStart c 257)

/-- Complete a fence token (R185): every write before it is in the arrays, and each ring's PRODUCER covers every record
written so far. -/
def State.fenceChan (s : State) (c : Nat) : State :=
  let ch := s.chan c
  let s := ch.pend.foldl (fun t w => t.writeChan w.1 w.2) s
  let s := match ch.ring with
    | some base => ch.written.foldl (fun (t : State) (x : Nat × Nat) => t.writeChan (base + x.1 * 16) (leBytes 4 x.2)) s
    | none => s
  s.modChan c (fun x => { x with pend := [], idle := s.now })

/-- A fence-token descriptor (Table 6.2). -/
def tokenDesc (p c : Nat) : List Byte :=
  [0x0F, 0, 0, 0, 0, 0, 0] ++ leBytes 1 p ++ leBytes 2 c ++ List.replicate 54 0

/-- The node's cores take the records that the commands before one of its own tokens wrote: CONSUMER moves past them (R182, R210; DESIGN
CHOICE, log entry 49: at the token). -/
def State.takeRecords (s : State) (c : Nat) (j : BankJob) : State :=
  match j.own, (s.chan c).ring with
  | some o, some base =>
    let a := base + dRing j.desc * 16 + 4
    let s := s.access j.part base (16 * o.recs)
    s.writeChan a (leBytes 4 ((leNat (s.readMem a 4) + o.recs) % 2 ^ 32))
  | _, _ => s

/-- Issue a token descriptor: checked, refused with a token, or queued (R185, R187). -/
def State.tokenIssue (s : State) (p c rid : Nat) (desc : List Byte) : State :=
  let job : BankJob := { part := p, rid := some rid, desc := desc, fence := false, since := s.now }
  if dBop desc ≠ 0x0F ∨ dFieldsOk p c desc = false then s.bankToken job c scBadCommand 0
  else if bitOf (s.pcfg p).procChannels c then s.bankQueue c job
  else s.bankToken job c scBadHandle 0

/-- BKE_FENCE_TOKEN: a token descriptor is issued, if one is given; then the token of the partition at the head of the channel's queue
completes, everything before it being in the arrays (R185). -/
def execBkeFenceToken (p : Nat) (tok : TokenAt) (s : State) : Host.Outcome State Fault Refusal :=
  let c := tok.chan
  let s := if tok.desc = [] then s else s.tokenIssue p c tok.rid tok.desc
  match (s.chan c).run, (s.chan c).jobs with
  | none, j :: _ =>
    if dBop j.desc = 0x0F ∧ j.part = p then
      let s := (((s.popJob c).fenceChan c).takeRecords c j)
      .next ((s.bankToken { j with rid := none } c scDone 0).bankStart c 257)
    else .next (s.bankStart c 257)
  | _, _ => .next s

/-! ### Channel modes and held accesses (R172, R194, R195) -/

/-- LINGER_US in use: 0 is read as 10 (Table 6.8). -/
def State.lingerNs (s : State) : Nat :=
  let v := s.fld rBkeCfg fBkeCfg_LINGER_US
  (if v = 0 then 10 else v) * 1000

/-- Return a channel to MEMORY mode and serve what it holds; writes may have moved a CONSUMER that the head waits for. -/
def State.chanToMemory (s : State) (c st : Nat) : State :=
  let ch := s.chan c
  let s := s.serveHeld (ch.holds ++ ch.excess)
  s.modChan c (fun x => { x with state := st, holds := [], excess := [] })

/-- A processor channel switches back to MEMORY mode, which is counted (R172). -/
def State.chanBack (s : State) (c : Nat) : State := (s.chanToMemory c 0).bump (cBkeChSwitches c) 1

/-- CHANNEL_LINGER_EXPIRY: a processor channel on which nothing has been queued or running for LINGER_US returns to
MEMORY mode and serves every held access; no yield is counted (R172, R194). -/
def execChannelLingerExpiry (c : Nat) (s : State) : Host.Outcome State Fault Refusal :=
  let ch := s.chan c
  if ch.state = 2 ∧ ch.run = none ∧ ch.jobs = [] ∧ ch.idle + s.lingerNs ≤ s.now then
    .next (s.chanBack c)
  else .next s

/-- The channel's hold limit (R194). -/
def State.holdLimitNs (s : State) (c : Nat) : Nat :=
  let v := s.fld (rBkeChCfg c) fBkeChCfg_HOLD_LIMIT_US
  (if v = 0 then 8 else v) * 1000

/-- A forced yield (R195): exactly the accesses held are served; those that wait for room are held for the next one. -/
def State.yieldChan (s : State) (c : Nat) : State :=
  let ch := s.chan c
  let s := s.serveHeld ch.holds
  let s := s.modChan c (fun x => { x with holds := x.excess.take 64, excess := x.excess.drop 64 })
  ((s.bump (cBkeChYields c) 1).bump (cBkeChSwitches c) 2).bankStart c 257

/-- An ordinary access reaches a channel (R194): a processor channel holds and counts it, and one that finds the hold queue full waits and starts a
forced yield. In any other state the channel serves it, but for a fenced one (R402). -/
def State.holdAcc (s : State) (c : Nat) (h : HeldAcc) : State :=
  let ch := s.chan c
  if ch.state = 6 then s
  else if ch.state ≠ 2 then s.serveHeld [h]
  else
    let s := s.bump (cBkeChHolds c) 1
    if ch.holds.length < 64 then s.modChan c (fun x => { x with holds := x.holds ++ [h] })
    else (s.modChan c (fun x => { x with excess := x.excess ++ [h] })).yieldChan c

/-- ORDINARY_ACCESS_HELD: an ordinary access to a processor channel is held and counted; one that finds the hold queue
full waits and starts a forced yield (R194). In any other state the channel serves it. -/
def execOrdinaryAccessHeld (c addr : Nat) (write : Bool) (data : List Byte) (s : State) : Host.Outcome State Fault Refusal :=
  let t := s.holdAcc c { addr := addr, write := write, data := data, since := s.now }
  .next (if (s.chan c).state = 2 ∨ (s.chan c).state = 6 then t else t.bankStart c 257)

/-- The parts of a range of Tier A by channel: channel, address and length. -/
def channelPieces (a n : Nat) : List (Nat × Nat × Nat) :=
  (List.range ((a + n - 1) / 2 ^ 31 - a / 2 ^ 31 + 1)).map (fun i =>
    let c := a / 2 ^ 31 + i
    let lo := max a (c * 2 ^ 31)
    (c, lo, min (a + n) ((c + 1) * 2 ^ 31) - lo))

/-- A command writes bytes of Tier A or B as ordinary accesses, one for each channel of Tier A that the range touches: those to a processor channel
are held, and reach memory when they are served (R91, R194). -/
def State.ordWrite (s : State) (p a : Nat) (bs : List Byte) : State :=
  if tierOf a ≠ some 0 ∨ bs.isEmpty = true then (s.writeMem a bs).access p a bs.length
  else (channelPieces a bs.length).foldl (fun (t : State) x =>
    t.holdAcc x.1 { addr := x.2.1, write := true, data := (bs.drop (x.2.1 - a)).take x.2.2, since := t.now }) (s.chargeBw p 0 bs.length)

/-- A byte as an ordinary read gets it: held accesses to one address are served in arrival order (R194), so that a write held before counts. -/
def State.ordByte (s : State) (a : Nat) : Byte :=
  let ch := s.chan (a / 2 ^ 31)
  if tierOf a ≠ some 0 then s.mem.read a
  else (ch.holds ++ ch.excess).foldl (fun b h => if h.write ∧ h.addr ≤ a ∧ a < h.addr + h.data.length then h.data.getD (a - h.addr) 0 else b) (s.mem.read a)

/-- The bytes that a command reads as ordinary accesses. -/
def State.ordBytes (s : State) (a n : Nat) : List Byte := (List.range n).map (fun i => s.ordByte (a + i))

/-- A command reads bytes of Tier A or B as ordinary accesses, which a processor channel holds (R91, R194). -/
def State.ordRead (s : State) (p a n : Nat) : State :=
  if tierOf a ≠ some 0 ∨ n = 0 then s.access p a n
  else (channelPieces a n).foldl (fun (t : State) x =>
    if (t.chan x.1).state = 2 then t.holdAcc x.1 { addr := x.2.1, write := false, data := [], since := t.now } else t) (s.chargeBw p 0 n)

/-- FORCED_YIELD: the oldest held access has waited for the hold limit, or the hold queue is full (R195). -/
def execForcedYield (c : Nat) (s : State) : Host.Outcome State Fault Refusal :=
  let ch := s.chan c
  match ch.holds with
  | [] => .next s
  | h :: _ => if ch.state = 2 ∧ (h.since + s.holdLimitNs c ≤ s.now ∨ 64 ≤ ch.holds.length) then .next (s.yieldChan c) else .next s

/-! ### Refresh and throttling (R190 to R193) -/

/-- The base refresh interval at a temperature in 0.1 °C, in ns (R190). -/
def refreshBase (dc : Int) : Nat := if dc ≤ 850 then 3900 else if dc ≤ 950 then 1950 else 975

/-- The temperature of a stack in 0.1 °C, as calibrated. -/
def State.stackTemp (s : State) (n : Nat) : Int := kvGetD 0 n s.board.stackDc

/-- The interval in force of a stack: the base in force divided by the factor of its refresh unit (R190, R422). -/
def State.refreshNow (s : State) (n : Nat) : State :=
  s.setFld (rBkeStackStatus n) fBkeStackStatus_REFRESH_NS (kvGetD 3900 n s.board.stackBase * 1000 / max 1 (s.trim 2 n).output.toNat)

/-- The temperature bin of a stack takes effect, at a refresh (R190). -/
def State.newBin (s : State) (n : Nat) : State :=
  (s.putBoard { s.board with stackBase := kvPut n (refreshBase (s.stackTemp n)) s.board.stackBase }).refreshNow n

/-- REFRESH_DUE: a refresh that falls due during a bank command is inserted after its row step and counted (R192);
otherwise the controller issues it. `postponed` is by how many intervals it came late, never above four. From this refresh on the interval is
that of the stack's present temperature bin (R190). -/
def execRefreshDue (c _bank postponed : Nat) (s : State) : Host.Outcome State Fault Refusal :=
  let st := rBkeStackStatus (stackOf c)
  let s := s.newBin (stackOf c)
  let s := s.setFld st fBkeStackStatus_MAX_POSTPONE (max (s.fld st fBkeStackStatus_MAX_POSTPONE) (min 4 postponed))
  if (s.chan c).run.isSome then .next (s.bump (cBkeStackRefreshIns (stackOf c)) 1) else .next s

/-- TARGETED_REFRESH: a row that has reached ACT_LIMIT activations in the present window of 32 ms, by the engines and by ordinary accesses
together, has its neighbours refreshed, and its count starts again; the refresh is counted and inserted like a regular one (R191). -/
def execTargetedRefresh (c bank : Nat) (acts : RowActs) (s : State) : Host.Outcome State Fault Refusal :=
  let row := acts.row
  if row % 16 ≠ bank ∨ s.actsOf c row + acts.others < s.fld (rBkeStackCfg (stackOf c)) fBkeStackCfg_ACT_LIMIT then .next s else
  let s := s.modChan c (fun x => { x with acts := (x.acts.1, kvDel row x.acts.2) })
  let s := s.bump (cBkeStackTargeted (stackOf c)) 1
  if (s.chan c).run.isSome then .next (s.bump (cBkeStackRefreshIns (stackOf c)) 1) else .next s

/-- The effective engine budget of a stack in half watts: BUDGET_W, halved while the backstop acts (R193). -/
def State.engineBudget (s : State) (n : Nat) : Nat :=
  let b := s.fld (rBkeStackCfg n) fBkeStackCfg_BUDGET_W
  if s.fld rNodePowerStatus fNodePowerStatus_BACKSTOP = 1 then b else 2 * b

/-- Row steps of the engines of a stack in the running 10 µs window. -/
def State.stackSteps (s : State) (n : Nat) : Nat := ((List.range 32).map (fun i => (s.chan (n * 32 + i)).steps)).foldl (· + ·) 0

/-- A stack's sensor reads `raw` in 0.1 °C: with the effective offset of its calibration item (288 to 295) it is the stack's temperature, which
`BKE_STACKn_STATUS.TEMP_C` shows in whole °C (R437, R480). -/
def State.setStackTemp (s : State) (n : Nat) (raw : Int) : State :=
  let dc := s.calibrated (288 + n) raw
  (s.putBoard ({ s.board with stackDc := kvPut n dc s.board.stackDc })).setFld (rBkeStackStatus n) fBkeStackStatus_TEMP_C (min 255 (dc / 10).toNat)

/-- ENGINE_THROTTLE_WINDOW: the window of 10 µs that began at `start` ends: the stack's engine power in it, 3.3 nJ for each row step, is weighed with its temperature
(`temp`, in 0.1 °C as the sensor reads it) against the effective budget: while it is above, starts are delayed and the window counts as throttled (R193). -/
def execEngineThrottleWindow (stack start : Nat) (temp : Int) (s : State) : Host.Outcome State Fault Refusal :=
  if s.now < start + 10000 then .next s else
  let s := s.setStackTemp stack temp
  let budget := s.engineBudget stack
  let steps := s.stackSteps stack
  let hot := decide (budget * 100000000 < 2 * 33 * steps * (1000 + 5 * (s.stackTemp stack - 850).toNat))
  let s := (List.range 32).foldl (fun (x : State) i => if (x.chan (stack * 32 + i)).steps = 0 then x else x.modChan (stack * 32 + i) (fun c => { c with steps := 0 })) s
  let was := s.fld (rBkeStackStatus stack) fBkeStackStatus_THROTTLED
  let s := if was = 1 then s.bump (cBkeStackThrottleNs stack) 10000 else s
  let s := ((s.setFld (rBkeStackStatus stack) fBkeStackStatus_THROTTLED hot.toNat).setFld (rBkeStackStatus stack)
    fBkeStackStatus_ENG_POWER_DW (min 0xFFFF (33 * steps / 10000))).setFld (rBkeStackStatus stack) fBkeStackStatus_BUDGET_EFF_W (budget / 2)
  if hot then .next s
  else .next ((List.range 32).foldl (fun t i => t.bankStart (stack * 32 + i) 257) s)

/-! ### The host command BKE_FENCE (R186) -/

/-- The channels that a BKE_FENCE names: its mask, or all of the partition's PROC_CHANNELS. -/
def State.fenceMask (s : State) (p : Nat) (c : HostCmd) : Nat :=
  let m := c.param 0 32
  if m = 0 then (s.pcfg p).procChannels else m

/-- Channels of a mask, rising. -/
def maskChannels (m : Nat) : List Nat := (List.range 256).filter (bitOf m)

/-- The check of `BKE_FENCE` (R186): every named channel is one of PROC_CHANNELS. -/
def State.bkeFenceCheck (s : State) (p : Nat) (c : HostCmd) : Option Nat :=
  if (List.range 256).any (fun k => bitOf (s.fenceMask p c) k && !bitOf (s.pcfg p).procChannels k) then some scBadHandle else none

/-- BKE_FENCE: a token is queued on each named channel behind what the partition had queued there (R186). -/
def execBkeFence (p q cid : Nat) (s : State) : Host.Outcome State Fault Refusal :=
  match s.readyRec p q cid 0x11 with
  | none => .next s
  | some (rid, r) =>
    if let some st := s.bkeFenceCheck p r.cmd then .next (s.fail p rid st)
    else
      let s := (maskChannels (s.fenceMask p r.cmd)).foldl (fun t c =>
        t.bankQueue c { part := p, rid := some rid, desc := tokenDesc p c, fence := true, since := t.now }) s
      .next (s.modRec rid (fun r => { r with phase := .running }))

/-- BKE_FENCE_COMPLETE: once every token of the command has completed it completes with `DONE`, the number of channels
fenced, and the handle of the partition's ring tensor (R186). -/
def execBkeFenceComplete (p q cid : Nat) (s : State) : Host.Outcome State Fault Refusal :=
  match s.runningRec p q cid 0x11 with
  | none => .next s
  | some (rid, r) =>
    if s.bank.any (fun x => (x.2.jobs ++ x.2.surplus).any (fun j => j.fence && j.rid == some rid)) then .next s
    else
      let h := match s.mem.tensors.find? (fun t => t.2.part == p && t.2.holder == .ring && !t.2.dying) with
        | some t => mkHandle t.2.gen p t.1
        | none => 0
      .next (s.done p rid (maskChannels (s.fenceMask p r.cmd)).length h 0)

/-! ### Reset and fencing (Table 6.6, R197) -/

/-- What a partition reset does to the channels: queued descriptors of the partition are discarded and the running one is halted, each with its
token (R187), lists are discarded, and held accesses served. -/
def State.bankReset (s : State) (p : Nat) : State :=
  s.bank.foldl (fun t x =>
    if bitOf (t.pcfg p).procChannels x.1 then
      let t := (t.serveHeld (x.2.holds ++ x.2.excess)).endRingWait x.1
      let gone := ((match x.2.run with | some r => [r.job] | none => []) ++ x.2.jobs ++ x.2.surplus).filter (fun j => j.part == p)
      let t := gone.foldl (fun (t : State) j => t.bankToken { j with rid := none } x.1 scReset 0) t
      (t.modChan x.1 (fun y => { y with
        jobs := y.jobs.filter (fun j => j.part != p)
        surplus := y.surplus.filter (fun j => j.part != p)
        run := (match y.run with | some r => if r.job.part = p then none else y.run | none => none)
        tags := [], holds := [], excess := [], idle := t.now })).bankStart x.1 257
    else t) s

/-- Fence the engines of a channel (R197): the channel goes to CORE_FALLBACK, its held accesses are served, and the
abandoned commands of its open tags, and the running one, run again on cores with the same records; each is counted. -/
def State.bankFence (s : State) (c : Nat) : State :=
  let ch := s.chan c
  let again := ch.tags.foldl (fun n t => n + t.cmds.length) 0 + (if ch.run.isSome then 1 else 0)
  let s := if ch.state = 2 then s.bump (cBkeChSwitches c) 1 else s
  let s := (s.chanToMemory c 5).modChan c (fun x => { x with idle := s.now })
  let s := if again = 0 then s else s.bump (cBkeChFallback c) again
  s.bankStart c 257

end Sys2Proof.Machine
end

