-- ==== Sys2Proof/Machine/Arrays.lean ====
section
/-! DEFINITION. Matrix arrays: sharing of an array among partitions (spec/05, R154 to R160), array instructions and their
tokens (spec/08, R221 to R227, R236), models and their layer windows (R237 to R242). -/

namespace Sys2Proof.Machine

/-! ### Sharing (R154 to R160) -/

/-- Whether partition `p` lists array `a`. -/
def State.listsArray (s : State) (p a : Nat) : Bool := s.configured p && bitOf (s.pcfg p).arrayMask a

/-- Array unit `a`. -/
def State.arrUnit (s : State) (a : Nat) : ArrUnit := kvGetD {} a s.arrays

/-- Change array unit `a`. -/
def State.modArr (s : State) (a : Nat) (f : ArrUnit → ArrUnit) : State := s.putArrays (kvPut a (f (s.arrUnit a)) s.arrays)

/-- The instruction queue of partition `p` at an array (R225). -/
def ArrUnit.queueOf (u : ArrUnit) (p : Nat) : List ArrJob := kvGetD [] p u.queue

/-- Whether an array holds instructions of a request, queued or under way. -/
def ArrUnit.holds (u : ArrUnit) (w : Nat × Nat) : Bool :=
  (u.queueOf w.1).any (fun j => j.rid == w.2) || (match u.run with | some r => r.part == w.1 && r.rid == some w.2 | none => false)

/-- Whether partition `p` has array work queued. -/
def State.hasArrWork (s : State) (p : Nat) : Bool := s.arrWork.any (fun x => x.1 == p)

/-- Whether work of a request may run on array `a`: a build keeps to its ARRAYS while one of them works (R273, R277). -/
def State.buildTakes (s : State) (a : Nat) (w : Nat × Nat) : Bool :=
  match kvGet? w.2 s.builds with
  | none => true
  | some b => bitOf b.arrays a || [0, 1, 2, 3].all (fun i => !(bitOf b.arrays i && s.listsArray w.1 i) || s.isFenced 5 i)

/-- Whether work that is queued may go to array `a`: its partition lists it, a build may use it, and instructions of it already queued lie there
and not only at other arrays (R154, R225). -/
def State.workFor (s : State) (a : Nat) (w : Nat × Nat) : Bool :=
  s.listsArray w.1 a && s.buildTakes a w && ((s.arrUnit a).holds w || [0, 1, 2, 3].all (fun b => !(s.arrUnit b).holds w))

/-- ROUND_US in ns. -/
def State.roundNs (s : State) (a : Nat) : Nat := s.fld (rMxaShareCfg a) fMxaShareCfg_ROUND_US * 1000

/-- The partitions of array `a` with array work queued (R154). -/
def State.arrPending (s : State) (a : Nat) : List Nat :=
  (s.parts.map (fun x => x.1)).filter (fun p => s.arrWork.any (fun w => w.1 == p && s.workFor a w))

/-- The first partition whose work for array `a` was queued (R154). -/
def State.arrFirst (s : State) (a : Nat) : Option Nat := (s.arrWork.find? (s.workFor a)).map (fun w => w.1)

/-- ARRAY_WEIGHT of a partition on an array: the SHARE entry of its composition, or else the image's (Table 12.3). -/
def State.arrWeight (s : State) (p a : Nat) : Nat :=
  let own := (s.pcfg p).arrayW.getD a 0
  match s.compOf p with
  | some (_, c) => ((c.shares.find? (fun x => x.1 == p && x.2.1 == a)).map (fun x => x.2.2)).getD own
  | none => own

/-- Compute the quanta of an array over the partitions with work queued (R154); they are kept times the sum of weights. -/
def State.arrQuanta (s : State) (a : Nat) : State :=
  let ps := s.arrPending a
  let den := ps.foldl (fun n p => n + s.arrWeight p a) 0
  s.modShare a (fun x => { x with
    quantum := ps.foldl (fun m p => kvPut p (s.roundNs a * s.arrWeight p a) m) []
    den := if den = 0 then 1 else den })

/-- A partition's use of an array in the running round. -/
def ArrShare.usedBy (x : ArrShare) (p now : Nat) : Nat :=
  kvGetD 0 p x.used + (if x.owner = some p then now - x.since else 0)

/-- What is left of a partition's quantum, times the sum of weights. -/
def ArrShare.leftOf (x : ArrShare) (p now : Nat) : Int :=
  ((kvGetD 0 p x.quantum : Nat) : Int) - ((x.usedBy p now * x.den : Nat) : Int)

/-- The partition that the arbiter would switch array `a` to now, if any (R154). -/
def State.arrNext (s : State) (a : Nat) : Option Nat :=
  let x := s.share a
  match x.owner with
  | none => none
  | some o =>
    let pend := s.arrPending a
    if pend.all (fun p => p == o) then none
    else if !pend.contains o || decide (x.leftOf o s.now ≤ 0) then
      (pend.filter (fun p => p != o)).foldl (fun best p => match best with
        | none => some p
        | some b => if x.leftOf b s.now < x.leftOf p s.now then some p else some b) none
    else none

/-- `MXAn_MODE` of partition `p` on array `a` (R66): its ARRAY_MODE record, or MAC with element codes 0 to 4. -/
def State.arrPerms (s : State) (p a : Nat) : ArrayMode :=
  ((s.pcfg p).modes.find? (fun m => m.array == a)).getD { array := a, modes := 1, dflt := 0, types := 0x1F, distOps := 0 }

/-- Load a partition's permissions into an array (Table 5.2, step 3). -/
def State.loadPerms (s : State) (a p : Nat) : State :=
  let m := s.arrPerms p a
  s.setReg (rMxaMode a) (packFields [(fMxaMode_PARTITION, p), (fMxaMode_VALID, 1), (fMxaMode_DEFAULT_MODE, m.dflt),
    (fMxaMode_DIST_OPS, m.distOps), (fMxaMode_TYPES, m.types), (fMxaMode_MODES, m.modes)])

/-- Start a switch of array `a` to partition `n` (Table 5.2): the old owner's use is kept, the new owner's runs from now. The old owner's queue and a
model's run of it that waits for a layer keep their place (R157, R160). The new owner's permissions are loaded once no instruction of the old one
is under way (step 3). A decision made while a switch was under way ends that switch, whose time is counted (DEDUCED, log entry 47). -/
def State.arrSwitch (s : State) (a n : Nat) (cheap : Bool) : State :=
  let s := match (s.share a).switching with
    | some (t, _) => if s.now = t then s else s.bump (cMxaSwitchNs a) (s.now - t)
    | none => s
  let s := s.modShare a (fun x => { x with
    used := (match x.owner with | some o => kvPut o (x.usedBy o s.now) x.used | none => x.used)
    owner := some n, since := s.now, switching := some (s.now, cheap), yieldReq := none, noYield := false, powered := true })
  let s := s.modArr a (fun u => { u with held := u.held ++ u.model.toList, model := none, free := none })
  let s := if (s.arrUnit a).run.isNone then s.loadPerms a n else s
  (s.powerDomain (8 + a) true).bump (cMxaSwitches a) 1

/-- Ask a privileged owner to yield when a switch is due (R159). The request stands where the switch is no longer due later, so that a limit which
passes still counts a miss (DESIGN CHOICE, log entry 47: R159 does not say). -/
def State.askYield (s : State) (a : Nat) : State :=
  let x := s.share a
  match x.owner with
  | some o => if (s.pcfg o).privileged && !x.noYield && x.yieldReq.isNone && x.switching.isNone && (s.arrNext a).isSome then
      s.modShare a (fun y => { y with yieldReq := some s.now }) else s
  | none => s

/-- Compute the quanta again of every owned array for which a partition has come to have work queued since state `s0` (R154). -/
def State.newWork (s0 s : State) : State :=
  [0, 1, 2, 3].foldl (fun (t : State) a =>
    if (s.share a).owner.isSome && (s.arrPending a).any (fun p => !(s0.arrPending a).contains p) then (t.arrQuanta a).askYield a else t) s

/-- Put array work of a request behind what is queued. -/
def State.addArrWork (s : State) (p rid : Nat) : State := if s.arrWork.contains (p, rid) then s else s.putArrWork (s.arrWork ++ [(p, rid)])

/-- Queue array work of a request (R154): where its partition had none for an array, that array's quanta are computed again. -/
def State.queueArrWork (s : State) (p rid : Nat) : State := s.newWork (s.addArrWork p rid)

/-- A request's array work is done, but for instructions of it that are queued still. -/
def State.dropArrWork (s : State) (rid : Nat) : State :=
  s.putArrWork (s.arrWork.filter (fun x => x.2 != rid || [0, 1, 2, 3].any (fun a => (s.arrUnit a).holds x)))

/-- Whether a request is an `ARRAY_RUN` fetched after order `o`. -/
def State.laterRun (s : State) (o rid : Nat) : Bool :=
  match kvGet? rid s.recs with
  | some r => r.cmd.opcode == 0x51 && decide (o < r.order)
  | none => false

/-- Whether an `ARRAY_RUN` may run (R242): none of its partition that was fetched before it is open, and no other work of its partition was queued
before it. -/
def State.isTurn (s : State) (p rid : Nat) : Bool :=
  let o := ((kvGet? rid s.recs).map (fun r => r.order)).getD 0
  (s.arrWork.takeWhile (fun x => x != (p, rid))).all (fun x => x.1 != p || s.laterRun o x.2) &&
  !s.recs.any (fun r => r.2.part == p && r.2.cmd.opcode == 0x51 && decide (r.2.order < o))

/-- Release the cluster-buffer windows of a partition that it does not keep, when it owns no array of a die any more
(R240). -/
def State.releaseWindows (s : State) (p a : Nat) : State :=
  let die := a / 2
  if [0, 1].any (fun i => (s.share (2 * die + i)).owner == some p) then s
  else (s.putModels (kvMapVals (fun k (b : Binding) => if k / 256 = p ∧ b.place = 0 ∧ b.keep = false then
      { b with resident := kvDel die b.resident } else b) s.models))

/-- End the ownership of an array (R154): its round ends. -/
def State.arrRelease (s : State) (a : Nat) : State :=
  let o := (s.share a).owner
  let s := s.modArr a (fun u => { u with held := u.held ++ u.model.toList, model := none, free := none })
  let s := s.modShare a (fun x => { fenced := x.fenced, powered := x.powered, spill := x.spill })
  match o with
  | some p => s.releaseWindows p a
  | none => s

/-- The arbiter's decision at a step boundary of the owner (R154). -/
def State.arrDecide (s : State) (a : Nat) : State :=
  let s := s.modShare a (fun x => { x with decided := s.now + 1 })
  match (s.share a).owner, s.arrNext a with
  | some o, some n => (s.arrSwitch a n false).releaseWindows o a
  | _, _ => s.modShare a (fun x => { x with noYield := false })

/-- Whether the arbiter is to decide array `a` at a step boundary of partition `p`: it owns the array, even where the switch to it is under way, and
a round start at this instant has not brought the decision already (R154). -/
def State.decidesFor (s : State) (p a : Nat) : Bool :=
  let x := s.share a
  x.owner == some p && x.decided != s.now + 1

/-- Decide every array that partition `p` owns, at its step boundary. -/
def State.arrBoundary (s : State) (p : Nat) : State :=
  [0, 1, 2, 3].foldl (fun (t : State) a => if t.decidesFor p a then t.arrDecide a else t) s

/-- Whether now is a step boundary of partition `p` (R142). -/
def State.atBoundary (s : State) (p : Nat) : Bool :=
  let per := (s.pcfg p).periodUs * 1000
  s.configured p && decide (0 < per) && s.now % per == 0

/-- The array of its mask that partition `p` owns with no switch under way, if any. -/
def State.ownedArray (s : State) (p : Nat) : Option Nat :=
  [0, 1, 2, 3].find? (fun a => (s.share a).owner == some p && (s.share a).switching.isNone && !s.isFenced 5 a)

/-- The array that partition `p` owns on which work of a request can run, if any. -/
def State.arrayFor (s : State) (p rid : Nat) : Option Nat :=
  [0, 1, 2, 3].find? (fun a => (s.share a).owner == some p && (s.share a).switching.isNone && !s.isFenced 5 a && s.buildTakes a (p, rid))

/-- ARRAY_TAKEN: an array with no owner is taken by the first partition that queued array work for it; a switch and a round
start (R154). -/
def execArrayTaken (a p : Nat) (s : State) : Host.Outcome State Fault Refusal :=
  if (s.share a).owner.isNone ∧ s.isFenced 5 a = false ∧ s.arrFirst a = some p then
    let s := s.modShare a (fun x => { x with round := s.now, used := [] })
    .next ((s.arrSwitch a p false).arrQuanta a)
  else .next s

/-- The decision of the owner's step boundary at this instant, made before a round starts (R154). -/
def State.decideFirst (s : State) (a : Nat) : State :=
  match (s.share a).owner with
  | some o => if s.atBoundary o && s.decidesFor o a then s.arrDecide a else s
  | none => s

/-- ARRAY_ROUND_START: a round has run ROUND_US: used counts become 0 and quanta are computed again (R154); a decision that falls at the same
instant is made before, with the counts of the round that ends. -/
def execArrayRoundStart (a : Nat) (s : State) : Host.Outcome State Fault Refusal :=
  let x := s.share a
  if x.owner.isSome ∧ x.round + s.roundNs a ≤ s.now then
    let s := s.decideFirst a
    let s := s.modShare a (fun x => { x with round := s.now, used := [], since := s.now })
    .next ((s.arrQuanta a).askYield a)
  else .next s

/-- The request of a partition whose work array `a` runs: that of its instruction under way, or else of the first work queued for the array. -/
def State.liveRequest (s : State) (a p : Nat) : Option Nat :=
  match (s.arrUnit a).run with
  | some r => if r.part = p then r.rid else none
  | none => (s.arrWork.find? (fun w => w.1 == p && s.workFor a w)).map (fun w => w.2)

/-- Spill the live ranges of a partition's work on array `a` (R160). -/
def State.spillLive (s : State) (a p : Nat) : State :=
  match s.liveRequest a p with
  | some rid => s.modShare a (fun x => { x with spill := x.spill.filter (fun w => w.1 != p) ++ [(p, rid)] })
  | none => s

/-- A privileged owner of array `a` yields at a cheap point (R159, R160). -/
def State.yieldArray (s : State) (a : Nat) : State :=
  match (s.share a).owner, s.arrNext a with
  | some o, some n =>
    if (s.pcfg o).privileged ∧ (s.share a).noYield = false ∧ (s.share a).switching = none then
      let s := ((s.spillLive a o).bump (cPrtYields o) 1).bump (cMxaPreempts a) 1
      (s.arrSwitch a n true).releaseWindows o a
    else s
  | _, _ => s

/-! ### Sharing clusters (R153, R160) -/

/-- Whether partition `p` lists cluster `n`. -/
def State.listsCluster (s : State) (p n : Nat) : Bool := s.configured p && bitOf (s.pcfg p).clusterMask n

/-- Core time of a partition's phases on cluster `n` over the last 1 ms. -/
def State.coreUse (s : State) (p n : Nat) : Nat :=
  ((s.part p).busy.filter (fun x => x.1 == n && decide (s.now < x.2.1 + 1000000))).foldl (fun t x => t + x.2.2) 0

/-- How far a partition's share of cluster `n`'s busy time falls below its CLUSTER_WEIGHT, times the sum of the weights and the busy time
(R153). -/
def State.coreLack (s : State) (p n : Nat) : Int :=
  let us := (s.parts.map (fun x => x.1)).filter (fun q => s.listsCluster q n)
  let weights := us.foldl (fun t q => t + (s.pcfg q).clusterW.getD n 0) 0
  let busy := us.foldl (fun t q => t + s.coreUse q n) 0
  (((s.pcfg p).clusterW.getD n 0 * max 1 busy : Nat) : Int) - ((s.coreUse p n * weights : Nat) : Int)

/-- The partition from which a core of cluster `n` takes its next phase, of those with ready work in rising order (R153): the one whose share
falls furthest below its weight, the lower number on a tie. -/
def State.corePick (s : State) (n : Nat) : List Nat → Option Nat
  | [] => none
  | p :: ps => some (ps.foldl (fun b q => if s.coreLack b n < s.coreLack q n then q else b) p)

/-- A phase of a partition has run on cluster `n`: how long it held a core is free. Live ranges it had spilled there are restored (R160). -/
def State.coreRan (s : State) (p n : Nat) : State :=
  let (w, s) := s.fresh
  s.modPart p (fun x => { x with
    busy := x.busy.filter (fun b => decide (s.now < b.2.1 + 1000000)) ++ [(n, s.now, w.toNat)]
    spill := x.spill.filter (fun y => y.1 != n) })

/-- YIELD_LIMIT_EXPIRY: no cheap point is reached within YIELD_LIMIT_US: the request is cancelled, the owner treated as
non-privileged until its next step boundary, and the miss counted (R159). -/
def execYieldLimitExpiry (a : Nat) (s : State) : Host.Outcome State Fault Refusal :=
  match (s.share a).yieldReq with
  | some t => if t + s.fld (rMxaShareCfg a) fMxaShareCfg_YIELD_LIMIT_US * 1000 ≤ s.now then
      .next ((s.modShare a (fun x => { x with yieldReq := none, noYield := true })).bump (cMxaYieldMisses a) 1)
    else .next s
  | none => .next s

/-! ### Array instructions (R225 to R227) -/

/-- Outputs of a partition at an array that no PHASE_END covers yet. -/
def ArrUnit.pendOf (u : ArrUnit) (p : Nat) : List ArrOut := kvGetD [] p u.pend

/-- A byte as an array sees it for partition `p`: the outputs of its queue not yet covered by a PHASE_END, then memory. -/
def State.arrByte (s : State) (a p addr : Nat) : Byte :=
  ((s.arrUnit a).pendOf p).foldl (fun b w => if w.addr ≤ addr ∧ addr < w.addr + w.bytes.length then w.bytes.getD (addr - w.addr) 0 else b) (s.mem.read addr)

/-- Bytes as an array sees them for a partition. -/
def State.arrRead (s : State) (a p addr n : Nat) : List Byte := (List.range n).map (fun i => s.arrByte a p (addr + i))

/-- Whether a range may be an operand of an array of a die (R223, R227): the partition's Tier A or B, or a buffer of a cluster of its
CLUSTER_MASK on the die. -/
def State.arrRangeOk (s : State) (p a addr len : Nat) : Bool :=
  match tierOf addr with
  | some 4 => (match bufferOf addr, bufferOf (addr + len - 1) with
      | some n, some m => n == m && n / 4 == a / 2 && bitOf (s.pcfg p).clusterMask n
      | _, _ => false)
  | some 0 => s.ownsRange p addr len
  | some 1 => s.ownsRange p addr len
  | _ => false

/-- The ranges that an instruction names: address, length and whether it is written. -/
def arrRanges (d : List Byte) : List (Nat × Nat × Bool) :=
  let n := aNValid d
  let m := aRows d
  [(aTile d, (n - 1) * aColStep d + elemBytes (aWType d) (aKValid d), false),
   (aRowAddr d, (m - 1) * aRowStep d + elemBytes (aXType d) (aKValid d), false),
   (aOutAddr d, (m - 1) * aOutStep d + outBytes d n, true)] ++
  (if aAccum d then [(aPrior d, m * n * 4 * (if isComplex (aXType d) then 2 else 1), false)] else []) ++
  (if aColParams d = 0 then [] else [(aColParams d, 8 * n, false)])

/-- Whether a partition's permissions on an array allow a descriptor's mode, types and distance operation (R66, R227). -/
def ArrayMode.permits (m : ArrayMode) (d : List Byte) : Bool :=
  bitOf m.modes (aMode d) && bitOf m.types (aXType d) && bitOf m.types (aWType d) && (aMode d != 2 || bitOf m.distOps (aDistOp d))

/-- The checks of R227 on a descriptor of partition `p` at array `a`: the refusal's status, if any. -/
def State.arrCheck (s : State) (a p : Nat) (d : List Byte) : Option Nat :=
  if aPart d ≠ p ∨ (s.share a).owner ≠ some p then some scBadCommand
  else if !arrFieldsOk d then some scBadCommand
  else if !(s.arrPerms p a).permits d then some scBadCommand
  else if (arrRanges d).all (fun r => s.arrRangeOk p a r.1 r.2.1) then none
  else some scBadHandle

/-- Return an array token; a refused instruction's request completes with the same status. -/
def State.arrToken (s : State) (k : ArrToken) (rid : Nat) : State :=
  let s := s.putAtokens (s.atokens ++ [k])
  if k.status = scDone then s
  else
    let s := if k.status = scFence then s else s.bump (cMxaRefused k.array) 1
    if (kvGet? rid s.recs).isSome then s.fail k.part rid k.status else s

/-- The token of a job at array `a` with a status. -/
def ArrJob.token (j : ArrJob) (a status : Nat) : ArrToken := { part := j.part, array := a, tag := aTag j.desc, status := status, req := 0, clip := 0 }

/-- Begin a descriptor that has reached the head of the owner's queue and passed its checks: what it computes, the steps it takes and the rows
it streams. The bytes that its ranges move are charged to the regulators of their tiers (R91). Steps lost since the last instruction of this ownership count as bubble time (R224). -/
def State.arrStart (s : State) (a : Nat) (j : ArrJob) : State :=
  let rd := s.arrRead a j.part
  let r := arrCompute j.desc rd rd rd rd
  let run : ArrRun := { part := j.part, rid := some j.rid, desc := j.desc, outs := r.outs, req := r.req, clip := r.clip, sat := r.sat, since := s.now }
  let gap := match (s.arrUnit a).free with | some t => s.now - t | none => 0
  let s := s.modArr a (fun x => { x with run := some run, free := none })
  let s := (arrRanges j.desc).foldl (fun (t : State) w => t.access j.part w.1 w.2.1) s
  let s := if gap = 0 then s else s.bump (cMxaBubbleNs a) gap
  ((s.bump (cMxaSteps a) (aSteps j.desc)).addMeter j.part 6 (aSteps j.desc)).bump (cMxaRows a) (aPasses j.desc * aRows j.desc)

/-- A descriptor reaches the head of the owner's queue on array `a`: checked, refused or begun (R227). Operands in a damaged channel end it with
`ABORTED_FENCE` (R402). -/
def State.arrHead (s : State) (a : Nat) (j : ArrJob) : State :=
  match s.arrCheck a j.part j.desc with
  | some st => s.arrToken (j.token a st) j.rid
  | none =>
    if (arrRanges j.desc).any (fun r => !r.2.2 && s.mem.isDamaged r.1 r.2.1) then s.arrToken (j.token a scFence) j.rid
    else s.arrStart a j

/-- Whether array `a` may take an instruction: it has an owner, no switch is under way, no instruction runs and it is not fenced. -/
def State.arrFree (s : State) (a : Nat) : Bool :=
  (s.share a).owner.isSome && (s.share a).switching.isNone && (s.arrUnit a).run.isNone && !s.isFenced 5 a

/-- Array `a` takes the owner's descriptors in queue order until one begins or none is left (R225). -/
def State.arrPump (a : Nat) : Nat → State → State
  | 0, s => s
  | f + 1, s =>
    if !s.arrFree a then s
    else match (s.share a).owner with
    | none => s
    | some o => match (s.arrUnit a).queueOf o with
      | [] => s
      | j :: js => State.arrPump a f (((s.modArr a (fun u => { u with queue := kvPut o js u.queue })).arrHead a j).dropArrWork j.rid)

/-- Whether a descriptor reads what an earlier one writes: its tile, rows or prior sums overlap the other's outputs (R225). -/
def arrOverlaps (d e : List Byte) : Bool :=
  let reads := (arrRanges d).take 2 ++ (if aAccum d then ((arrRanges d).drop 3).take 1 else [])
  reads.any (fun r => (arrRanges e).any (fun w => w.2.2 && decide (r.1 < w.1 + w.2.1 ∧ w.1 < r.1 + r.2.1)))

/-- Let array `a` take what the queue of its owner holds. -/
def State.arrGo (s : State) (a : Nat) : State :=
  State.arrPump a (((s.share a).owner.map (fun o => ((s.arrUnit a).queueOf o).length)).getD 0 + 1) s

/-- An array instruction of a mode is queued at array `a` for an open request of a partition that lists the array (R225); a ring of 4,096
descriptors that is full takes no more. A MODE that names none of the three goes the same way, and is refused at the head of the queue (R227). -/
def State.arrIssue (s : State) (mode a p rid : Nat) (desc : List Byte) : State :=
  if (aMode desc ≠ mode ∧ aMode desc < 3) ∨ s.listsArray p a = false ∨ ((kvGet? rid s.recs).map (fun r => r.part)) ≠ some p ∨ s.isFenced 5 a = true ∨
    4096 ≤ ((s.arrUnit a).queueOf p).length then s
  else
    let s0 := s
    let s := s.modArr a (fun u => { u with queue := kvPut p (u.queueOf p ++ [{ part := p, rid := rid, desc := desc }]) u.queue })
    (s0.newWork (s.addArrWork p rid)).arrGo a

/-- ARRAY_INSTR_MAC: accumulates products over a stationary tile (R230). -/
def execArrayInstrMac (a p rid : Nat) (desc : List Byte) (s : State) : Host.Outcome State Fault Refusal := .next (s.arrIssue 0 a p rid desc)

/-- ARRAY_INSTR_MULTI_WORD: four passes combined in the output stage (R231). -/
def execArrayInstrMultiWord (a p rid : Nat) (desc : List Byte) (s : State) : Host.Outcome State Fault Refusal := .next (s.arrIssue 1 a p rid desc)

/-- ARRAY_INSTR_DISTANCE: accumulates distance terms (R232). -/
def execArrayInstrDistance (a p rid : Nat) (desc : List Byte) (s : State) : Host.Outcome State Fault Refusal := .next (s.arrIssue 2 a p rid desc)

/-- Whether the requantisation counters of array `a` count partition `p` (R236). -/
def State.clipCounts (s : State) (a p : Nat) : Bool :=
  s.fld (rMxaClipCfg a) fMxaClipCfg_FILTER == 0 || s.fld (rMxaClipCfg a) fMxaClipCfg_PARTITION == p

/-- Add requantised and clipped counts by column group (R236). -/
def State.addClips (s : State) (a : Nat) (req clip : List Nat) : State :=
  (List.range 8).foldl (fun (t : State) g =>
    let t := if req.getD g 0 = 0 then t else t.bump (cMxaReq a g) (req.getD g 0)
    if clip.getD g 0 = 0 then t else t.bump (cMxaClip a g) (clip.getD g 0)) s

/-- The outputs of an instruction that has ended are written, and stay undefined for others until a PHASE_END (R226); those of a request that has
ended are discarded (R148). What goes to a cluster buffer is noted, for it is gone with the request (R29). -/
def State.arrOutputs (s : State) (a : Nat) (r : ArrRun) : State :=
  let rid := r.rid.getD 0
  if (kvGet? rid s.recs).isNone then s
  else
    let s := r.outs.foldl (fun (t : State) (w : Nat × List Byte) => t.hide w.1 w.2.length) s
    s.modArr a (fun u => { u with
      pend := kvPut r.part (u.pendOf r.part ++ r.outs.map (fun w => { rid := rid, addr := w.1, bytes := w.2 })) u.pend
      wrote := u.wrote ++ (r.outs.filter (fun w => tierOf w.1 == some 4)).map (fun w => (rid, w.1, w.2.length))
      phase := kvPut r.part (kvGetD [] r.part u.phase ++ [{ part := r.part, rid := rid, desc := r.desc }]) u.phase })

/-- A PHASE_END ends the phase of a partition's queue: its outputs are defined for others (R226). -/
def State.endPhase (s : State) (a p : Nat) : State :=
  (((s.arrUnit a).pendOf p).foldl (fun (t : State) (w : ArrOut) => t.writeMem w.addr w.bytes) s).modArr a
    (fun u => { u with pend := kvDel p u.pend, phase := kvDel p u.phase })

/-- Count the time of an instruction that ends on array `a`. Where the next of its queue reads what it writes, that one has waited for its last
output while the array was idle, and the wait counts as bubble time (R225); how long it was is free, for R224 gives array steps only. -/
def State.countTime (s : State) (a : Nat) (r : ArrRun) : State :=
  let dur := s.now - r.since
  let waits := match (s.arrUnit a).queueOf r.part with | j :: _ => arrOverlaps j.desc r.desc | [] => false
  if dur = 0 then s
  else if waits then
    let (w, s) := s.fresh
    (s.bump (cMxaBusyNs a) (dur - w.toNat % (dur + 1))).bump (cMxaBubbleNs a) (w.toNat % (dur + 1))
  else s.bump (cMxaBusyNs a) dur

/-- ARRAY_INSTR_DONE: the outputs are written and the token returns with the requantised and clipped counts; outputs are
defined for others once a PHASE_END of the queue has completed (R226). The array takes the owner's next descriptor (R225); one that switches loads
the new owner's permissions (R155). -/
def execArrayInstrDone (a : Nat) (s : State) : Host.Outcome State Fault Refusal :=
  match (s.arrUnit a).run with
  | none => .next s
  | some r =>
    let s := s.arrOutputs a r
    let s := s.modArr a (fun x => { x with run := none, free := if (s.share a).switching.isSome then none else some s.now })
    let s := if aPhaseEnd r.desc then s.endPhase a r.part else s
    let s := s.bump (cMxaInstrs a) 1
    let s := s.countTime a r
    let s := match (s.share a).owner, (s.share a).switching with | some o, some _ => s.loadPerms a o | _, _ => s
    let s := if r.sat = 0 then s else s.bump (cMxaSat a) r.sat
    let s := if s.clipCounts a r.part then s.addClips a r.req r.clip else s
    let k : ArrToken := { part := r.part, array := a, tag := aTag r.desc, status := scDone, req := r.req.foldl (· + ·) 0, clip := r.clip.foldl (· + ·) 0 }
    .next (((s.arrToken k ((r.rid).getD 0)).dropArrWork ((r.rid).getD 0)).arrGo a)

/-- MXA_CLIP_CLEAR: clears the requantisation and clipping counters of every column group (R236). -/
def execMxaClipClear (n : Nat) (s : State) : Host.Outcome State Fault Refusal :=
  .next ((List.range 8).foldl (fun (t : State) g => (t.setCtr (cMxaReq n g) 0).setCtr (cMxaClip n g) 0) s)

/-! ### Models (R237 to R242) -/

/-- A model header (Table 8.5). -/
structure ModelHead where
  layers   : Nat
  modes    : Nat
  distOps  : Nat
  types    : Nat
  inType   : Nat
  outType  : Nat
  rowsPer  : Nat
  inElems  : Nat
  outElems : Nat
  liveKib  : Nat
  descs    : Nat
  table    : Nat
  descOff  : Nat
  coreOff  : Nat
  coreLen  : Nat
deriving DecidableEq, Repr

/-- Read a model's header. -/
def modelHead (bs : List Byte) : ModelHead :=
  { layers := fieldAt bs 6 2, modes := fieldAt bs 8 1, distOps := fieldAt bs 9 1, types := fieldAt bs 10 2, inType := fieldAt bs 12 1,
    outType := fieldAt bs 13 1, rowsPer := fieldAt bs 14 2, inElems := fieldAt bs 16 4, outElems := fieldAt bs 20 4, liveKib := fieldAt bs 24 4,
    descs := fieldAt bs 28 4, table := fieldAt bs 32 8, descOff := fieldAt bs 40 8, coreOff := fieldAt bs 48 8, coreLen := fieldAt bs 56 8 }

/-- The header of the model in a tensor. -/
def State.headOf (s : State) (t : Tensor) : ModelHead := modelHead (s.readMem t.addr 64)

/-- A layer table entry: WEIGHT_OFFSET, WEIGHT_BYTES, FIRST_DESC. -/
def State.layerOf (s : State) (t : Tensor) (h : ModelHead) (i : Nat) : Nat × Nat × Nat :=
  let b := s.readMem (t.addr + h.table + 16 * i) 16
  (fieldAt b 0 8, fieldAt b 8 4, fieldAt b 12 4)

/-- Descriptor `i` of a model. -/
def State.modelDesc (s : State) (t : Tensor) (h : ModelHead) (i : Nat) : List Byte := s.readMem (t.addr + h.descOff + 64 * i) 64

/-- Whether the model in a tensor is well formed (R237, R238): a descriptor uses no mode, type or distance operation that the header does not name
(DEDUCED). -/
def State.modelOk (s : State) (t : Tensor) : Bool :=
  let b := s.readMem t.addr 64
  let h := modelHead b
  decide (64 ≤ t.bytes) && b.take 4 == [0x56, 0x58, 0x4D, 0x4C] && fieldAt b 4 2 == 1 &&
  decide (1 ≤ h.layers ∧ h.layers ≤ 4096 ∧ h.modes < 8 ∧ h.distOps < 32 ∧ h.types < 512 ∧ h.inType ≤ 8 ∧ h.outType ≤ 6 ∧
    1 ≤ h.rowsPer ∧ h.rowsPer ≤ 1024 ∧ 1 ≤ h.inElems ∧ 1 ≤ h.outElems ∧ 32 ≤ h.coreLen) &&
  decide (h.table + 16 * h.layers ≤ t.bytes ∧ h.descOff + 64 * h.descs ≤ t.bytes ∧ h.coreOff + h.coreLen ≤ t.bytes) &&
  (List.range h.layers).all (fun i => let l := s.layerOf t h i
    l.1 % 64 == 0 && decide (l.1 + l.2.1 ≤ t.bytes ∧ l.2.2 ≤ h.descs)) &&
  (List.range h.descs).all (fun i => let d := s.modelDesc t h i
    arrFieldsOk d && decide (aTile d / 2 ^ 52 < h.layers) && bitOf h.modes (aMode d) && bitOf h.types (aXType d) && bitOf h.types (aWType d) &&
    (aMode d != 2 || bitOf h.distOps (aDistOp d))) &&
  s.readMem (t.addr + h.coreOff) 32 == sha256 (s.readMem (t.addr + h.coreOff + 32) (h.coreLen - 32))

/-- WEIGHT_BYTES of every layer of a model. -/
def State.weights (s : State) (t : Tensor) (h : ModelHead) : List Nat := (List.range h.layers).map (fun i => (s.layerOf t h i).2.1)

/-- The size of a model's window: the largest sum of WEIGHT_BYTES over `n` consecutive layers (R239). -/
def windowBytes (ws : List Nat) (n : Nat) : Nat :=
  if ws.length ≤ n then ws.foldl (· + ·) 0
  else ((List.range (ws.length - n + 1)).map (fun i => ((ws.drop i).take n).foldl (· + ·) 0)).foldl max 0

/-- The binding of a model slot. -/
def State.binding (s : State) (p slot : Nat) : Option Binding := kvGet? (p * 256 + slot) s.models

/-- Dies on which a partition lists an array. -/
def State.arrDies (s : State) (p : Nat) : List Nat :=
  [0, 1].filter (fun d => bitOf (s.pcfg p).arrayMask (2 * d) || bitOf (s.pcfg p).arrayMask (2 * d + 1))

/-! #### Layer windows and warm-in (R156, R239, R240) -/

/-- Whether a window holds the whole model: in place in Tier A, or as many layers as the model has once they are copied (R239, R240). -/
def State.inPlace (s : State) (b : Binding) : Bool :=
  b.place == 1 && b.areas.isEmpty && ((kvGet? b.tensor s.mem.tensors).map (fun t => tierOf t.addr)) == some (some 0)

/-- The layers that a binding's window on a die holds: the first of them and their number. -/
def State.windowOf (s : State) (b : Binding) (die : Nat) : Nat × Nat :=
  match kvGet? b.tensor s.mem.tensors with
  | some t => if s.inPlace b then (0, (s.headOf t).layers) else kvGetD (0, 0) die b.resident
  | none => (0, 0)

/-- Bytes of the first window's layers that a binding's window on a die does not hold (R156, R240), with the tier of its home. -/
def State.warmBytes (s : State) (b : Binding) (die : Nat) : Option Nat × Nat :=
  match kvGet? b.tensor s.mem.tensors with
  | none => (none, 0)
  | some t =>
    let h := s.headOf t
    let w := s.windowOf b die
    (tierOf t.addr, ((List.range b.layers).filter (fun i => !(decide (w.1 ≤ i ∧ i < w.1 + w.2)))).foldl (fun n i => n + (s.layerOf t h i).2.1) 0)

/-- The bindings in force of a partition. -/
def State.bindings (s : State) (p : Nat) : List Binding := (s.models.filter (fun x => x.1 / 256 == p && !x.2.retired)).map (fun x => x.2)

/-- The least time that the warm-in of a partition on a die takes, in ns: bytes by source tier at the rates of an idle source, 1.6 TB/s for
Tier A and 537 GB/s for Tier B (R156, Table 5.3). -/
def State.warmNs (s : State) (p die : Nat) : Nat :=
  let bytes := fun (t : Nat) => (s.bindings p).foldl (fun n b => let w := s.warmBytes b die; if w.1 = some t then n + w.2 else n) 0
  (bytes 0 + 1599) / 1600 + (bytes 1 + 536) / 537

/-- Warm-in: the first window of every bound model of a partition is resident on a die; layers that a window already holds stay (R156, R240).
Its bytes are charged to no regulator (R156). -/
def State.warmIn (s : State) (p die : Nat) : State :=
  s.putModels (kvMapVals (fun k (b : Binding) =>
    if k / 256 = p ∧ b.retired = false ∧ (s.warmBytes b die).2 ≠ 0 then { b with resident := kvPut die (0, b.layers) b.resident } else b) s.models)

/-- What the end of a switch does (R155): its duration is reported and counted, the warm set is resident, the spill restored with the run of a model
that waited for its partition's turn (R160), and the array takes the new owner's first instruction. It does not end before the old owner's instruction has, nor before the warm-in can have. -/
def State.switchDone (s : State) (a : Nat) : State :=
  match (s.share a).owner, (s.share a).switching with
  | some o, some (t, _) =>
    if (s.arrUnit a).run.isSome ∨ s.now < t + s.warmNs o (a / 2) then s
    else
      let dur := s.now - t
      let s := s.modShare a (fun x => { x with switching := none, spill := x.spill.filter (fun w => w.1 != o) })
      let s := s.modArr a (fun u => { u with
        model := (u.held.find? (fun m => m.part == o)).map (fun m => { m with since := s.now }), held := u.held.filter (fun m => m.part != o) })
      let s := s.loadPerms a o
      let s := s.setFld (rMxaShareStatus a) fMxaShareStatus_LAST_SWITCH_NS (min 0xFFFFFFFF dur)
      let s := if dur = 0 then s else s.bump (cMxaSwitchNs a) dur
      (s.warmIn o (a / 2)).arrGo a
  | _, _ => s

/-- Release the areas of a binding. -/
def State.freeBinding (s : State) (b : Binding) : State := b.areas.foldl State.release s

/-- Whether work that has started with a model of partition `p` still needs it (R238): an `ARRAY_RUN` fetched with it, a query whose step began
with it and has its stage to come, or a run that waits for a layer. -/
def State.modelNeeded (s : State) (p ti : Nat) : Bool :=
  s.recs.any (fun r => r.2.part == p && r.2.cmd.opcode == 0x51 && r.2.waits.contains ti) ||
  s.queues.any (fun q => q.1 / 64 == p && (match q.2.staged with | some g => g.cmd.opcode == 0x51 && g.target.contains ti | none => false)) ||
  s.queries.any (fun q => q.2.part == p && ((q.2.models.1 == some ti && q.2.todo.contains 1) || (q.2.models.2 == some ti && q.2.todo.contains 2))) ||
  s.arrays.any (fun u => match u.2.model with | some m => m.part == p && m.tensor == ti | none => false)

/-- A tensor that no binding, present or former, names any more is writable again (R241). -/
def State.unholdModel (s : State) (ti : Nat) : State :=
  if s.models.any (fun m => m.2.tensor == ti) || s.oldModels.any (fun m => m.2.tensor == ti) then s
  else s.modMem (fun m => { m with tensors := kvUpd ti (fun y => { y with holder := .none }) m.tensors })

/-- Free the windows of former bindings whose models no work needs any more (R238). -/
def State.freeOldModels (s : State) : State :=
  let gone := s.oldModels.filter (fun b => !s.modelNeeded b.1 b.2.tensor)
  let s := s.putOldModels (s.oldModels.filter (fun b => s.modelNeeded b.1 b.2.tensor))
  gone.foldl (fun (t : State) b => (t.freeBinding b.2).unholdModel b.2.tensor) s

/-- The tensor of a handle that holds a readable tensor of partition `p` in Tier A or B. -/
def State.nearTensor (s : State) (p h : Nat) : Option (Nat × Tensor) :=
  match s.tensorOf p h with
  | some (i, t) => if (tierOf t.addr = some 0 ∨ tierOf t.addr = some 1) ∧ s.mem.isDamaged t.addr t.bytes = false then some (i, t) else none
  | none => none

/-- Whether a slot is used by an encode stage, or is the projection slot of a sketch stage on the arrays. -/
def State.slotInUse (s : State) (p slot : Nat) : Bool :=
  (s.pcfg p).stages.any (fun g => (g.kind == 1 && g.param % 256 == slot) || (g.kind == 2 && g.place == 0 && slot == 255))

/-- Width in bits of the partition's sketch stage, if it has one. -/
def State.sketchBits (s : State) (p : Nat) : Option Nat :=
  ((s.pcfg p).stages.find? (fun g => g.kind == 2)).map (fun g => widthBits (g.param % 4))

/-- DIMS and ELEM of the partition's segments, once it has one. -/
def State.segShape (s : State) (p : Nat) : Option (Nat × Nat) :=
  ((kvGetD {} p s.corpora).segs.head?).map (fun x => (x.2.dims, x.2.elem))

/-- The BAD_COMMAND checks of MODEL_BIND (R238). -/
def State.bindOk (s : State) (p slot : Nat) (h : ModelHead) : Bool :=
  [0, 1, 2, 3].all (fun a => !bitOf (s.pcfg p).arrayMask a ||
    (let m := s.arrPerms p a
     Nat.land h.modes m.modes == h.modes && Nat.land h.types m.types == h.types && Nat.land h.distOps m.distOps == h.distOps)) &&
  (slot != 255 || ((match s.sketchBits p with | some w => h.outElems == w | none => true) &&
    (match s.segShape p with | some x => h.inElems == x.1 | none => true))) &&
  !((s.pcfg p).privileged && decide (4096 < h.liveKib))

/-- Replace the binding of a slot; the former window is freed once running work has ended (R238). -/
def State.setBinding (s : State) (p slot : Nat) (b : Option Binding) : State :=
  let old := (s.binding p slot).toList.map (fun x => (p, x))
  let s := ((s.putOldModels (s.oldModels ++ old)).putModels ((match b with
    | some x => kvPut (p * 256 + slot) x s.models
    | none => kvDel (p * 256 + slot) s.models)))
  s.freeOldModels

/-- The digest of a model: header, layer table, descriptors and core section, without the weights (Table 18.5). -/
def State.modelDigest (s : State) (t : Tensor) (h : ModelHead) : List Byte :=
  sha256 (s.readMem t.addr 64 ++ s.readMem (t.addr + h.table) (16 * h.layers) ++ s.readMem (t.addr + h.descOff) (64 * h.descs) ++
    s.readMem (t.addr + h.coreOff) h.coreLen)

/-- The layers of the window that a `MODEL_BIND` asks for (Table 8.6). -/
def HostCmd.windowLayers (c : HostCmd) : Nat := if c.param 3 1 = 0 then 2 else c.param 3 1

/-- The binding that a `MODEL_BIND` makes of a model, with its window placed (R239): none where it does not fit. -/
def State.placeWindow (s : State) (p : Nat) (c : HostCmd) (ti : Nat) (t : Tensor) : Option (Binding × State) :=
  let h := s.headOf t
  let bytes := windowBytes (s.weights t h) c.windowLayers
  let dies := s.arrDies p
  let b : Binding := { tensor := ti, place := c.param 2 1, layers := min c.windowLayers h.layers, keep := bitOf (c.param 1 1) 1, bytes := bytes, areas := [], resident := [], retired := false }
  if c.param 2 1 = 0 then
    if dies.all (fun d => decide (s.bufferUsed p d + bytes ≤ s.bufferShare p d)) then some (b, s) else none
  else if tierOf t.addr = some 0 then some ({ b with resident := dies.foldl (fun m d => kvPut d (0, h.layers) m) [] }, s)
  else
    (dies.foldl (fun (acc : Option (List Nat × State)) _ => match acc with
      | none => none
      | some (as, t) => (t.alloc p 0 bytes .model).map (fun x => (as ++ [x.1], x.2))) (some ([], s))).map
      (fun x => ({ b with areas := x.1 }, x.2))

/-- The checks of a `MODEL_BIND` up to those of its model's own form (R238): the fields and the tensor, with a well-formed model. -/
def State.bindFieldCheck (s : State) (p : Nat) (c : HostCmd) : Option Nat :=
  if 1 < c.param 2 1 ∨ 8 < c.param 3 1 then some scBadCommand
  else match s.nearTensor p (c.param 8 8) with
  | none => some scBadHandle
  | some (_, t) => if s.modelOk t then none else some scBadHandle

/-- The checks of a `MODEL_BIND` that bind a well-formed model, or of the UNBIND of a slot (R238): an UNBIND with a handle or a window out of range
is refused as a field out of range. -/
def State.bindCheck (s : State) (p : Nat) (c : HostCmd) : Option Nat :=
  let slot := c.param 0 1
  if bitOf (c.param 1 1) 0 then (if s.slotInUse p slot ∨ 1 < c.param 2 1 ∨ 8 < c.param 3 1 ∨ c.param 8 8 ≠ 0 then some scBadCommand else none)
  else if let some st := s.bindFieldCheck p c then some st
  else match s.nearTensor p (c.param 8 8) with
  | none => some scBadHandle
  | some (ti, t) => if !s.bindOk p slot (s.headOf t) then some scBadCommand else if (s.placeWindow p c ti t).isNone then some scQuota else none

/-- Whether a quota is what the layer window of a `MODEL_BIND` would pass. -/
def State.bindOver (s : State) (p : Nat) (c : HostCmd) : Bool :=
  match s.nearTensor p (c.param 8 8) with
  | none => false
  | some (ti, t) => s.overQuota p (fun v => (v.placeWindow p c ti t).isSome)

/-- Measure the model of a `MODEL_BIND`, as the request names it in `v`, into slot 17 with its outcome, where its form is sound (R446). -/
def State.measureModel (s v : State) (p : Nat) (c : HostCmd) (outcome : Nat) : State :=
  if bitOf (c.param 1 1) 0 || (v.bindFieldCheck p c).isSome then s
  else match v.nearTensor p (c.param 8 8) with
  | none => s
  | some (_, t) => s.measure 17 10 outcome p (c.param 8 8) (s.modelDigest t (s.headOf t))

/-- MODEL_BIND: checks a model tensor, measures it into slot 17 with its outcome (R446), places its layer window and binds it to a slot
(R238, R239). It waits while a load holds allocations back (R491). -/
def execModelBind (p q cid : Nat) (s : State) : Host.Outcome State Fault Refusal :=
  match s.readyRec p q cid 0x50 with
  | none => .next s
  | some (rid, r) =>
    let c := r.cmd
    if bitOf (c.param 1 1) 0 ∨ s.allocHeld = true then .next s
    else if let some st := (s.named r).bindCheck p c then .next ((s.measureModel (s.named r) p c 1).refuse p rid st ((s.named r).bindOver p c))
    else match (s.named r).nearTensor p (c.param 8 8) with
    | none => .next (s.fail p rid scBadHandle)
    | some (ti, t) => match (s.measureModel (s.named r) p c 0).placeWindow p c ti t with
      | none => .next (s.fail p rid scQuota)
      | some (b, v) =>
        let v := v.setBinding p (c.param 0 1) (some b)
        let v := v.modMem (fun m => { m with tensors := kvUpd ti (fun y => { y with holder := .model }) m.tensors })
        .next (v.done p rid 0 b.bytes ((s.weights t (s.headOf t)).foldl (· + ·) 0))

/-- The sum of the WEIGHT_BYTES of the model in a tensor. -/
def State.modelWeight (s : State) (ti : Nat) : Nat :=
  ((kvGet? ti s.mem.tensors).map (fun t => (s.weights t (s.headOf t)).foldl (· + ·) 0)).getD 0

/-- MODEL_UNBIND: frees a slot's binding and reports its window and weights; a slot in use by a stage, a handle that is not 0 or a window out of range
is `BAD_COMMAND`, an empty slot completes with `DONE` and no results (R238). -/
def execModelUnbind (p q cid : Nat) (s : State) : Host.Outcome State Fault Refusal :=
  match s.readyRec p q cid 0x50 with
  | none => .next s
  | some (rid, r) =>
    let slot := r.cmd.param 0 1
    if !bitOf (r.cmd.param 1 1) 0 then .next s
    else if let some st := s.bindCheck p r.cmd then .next (s.fail p rid st)
    else match s.binding p slot with
    | none => .next (s.done p rid 0 0 0)
    | some b => .next ((s.setBinding p slot none).done p rid 0 b.bytes (s.modelWeight b.tensor))

/-! #### Running a model (R237, R242) -/

/-- Scratch address of an activation buffer's byte. -/
def bufAddr (v : Nat) : Nat := (v / 2 ^ 52 % 256) * 2 ^ 32 + v % 2 ^ 32

/-- What a model's run gives: output bytes, clipped and requantised outputs by column group, array steps used, rows streamed, instructions
completed and int32 outputs saturated. -/
structure ModelOut where
  bytes  : List Byte := []
  clip   : List Nat := List.replicate 8 0
  req    : List Nat := List.replicate 8 0
  steps  : Nat := 0
  rows   : Nat := 0
  instrs : Nat := 0
  sat    : Nat := 0
deriving DecidableEq, Repr

/-- Counts of one run after those of another, without bytes. -/
def ModelOut.plus (a b : ModelOut) : ModelOut :=
  { bytes := a.bytes ++ b.bytes, clip := List.zipWith (· + ·) a.clip b.clip, req := List.zipWith (· + ·) a.req b.req, steps := a.steps + b.steps,
    rows := a.rows + b.rows, instrs := a.instrs + b.instrs, sat := a.sat + b.sat }

/-- Run a model's descriptors on one block of input rows: the activation buffers, and the counts. -/
def State.modelBlock (s : State) (t : Tensor) (h : ModelHead) (input : List Byte) : MemSys × ModelOut :=
  (List.range h.descs).foldl (fun (acc : MemSys × ModelOut) i =>
    let d := s.modelDesc t h i
    let layer := s.layerOf t h (aTile d / 2 ^ 52)
    let tile := fun (a len : Nat) => s.readMem (t.addr + layer.1 + a % 2 ^ 52) len
    let act := fun (a len : Nat) => acc.1.readList (bufAddr a) len
    let r := arrCompute d tile act act (fun a len => s.readMem a len)
    let one : ModelOut := { clip := r.clip, req := r.req, steps := aSteps d, rows := aPasses d * aRows d, instrs := 1, sat := r.sat }
    (r.outs.foldl (fun (m : MemSys) (w : Nat × List Byte) => m.define (bufAddr w.1) w.2) acc.1, acc.2.plus one))
    (({ } : MemSys).define 0 input, {})

/-- Input rows that one run of a model's program serves: the most rows that a descriptor writes to buffer 1. -/
def State.blockRows (s : State) (t : Tensor) (h : ModelHead) : Nat :=
  max 1 ((List.range h.descs).foldl (fun n i => let d := s.modelDesc t h i
    if aOutAddr d / 2 ^ 52 % 256 = 1 then max n (aRows d) else n) 0)

/-- Bytes of `n` output elements of an OUT_TYPE. -/
def outElemBytes (t n : Nat) : Nat := (n * outBits t + 7) / 8

/-- Run blocks of input rows one after another. -/
def State.modelBlocks (s : State) (t : Tensor) (h : ModelHead) (per rowIn rowOut : Nat) : Nat → List Byte → Nat → ModelOut
  | 0, _, _ => {}
  | n + 1, input, rows =>
    let r := s.modelBlock t h (input.take (per * rowIn))
    ({ r.2 with bytes := r.1.readList (2 ^ 32) (min per rows * rowOut) } : ModelOut).plus (s.modelBlocks t h per rowIn rowOut n (input.drop (per * rowIn)) (rows - per))

/-- Run a model on `rows` rows of input. The descriptors run in program order, once for each block of rows (DEDUCED);
where the model holds core code, which no rule describes, its output bytes are free values. -/
def State.runModel (s : State) (t : Tensor) (rows : Nat) (input : List Byte) : ModelOut × State :=
  let h := s.headOf t
  let per := s.blockRows t h
  let rowIn := elemBytes h.inType h.inElems
  let rowOut := outElemBytes h.outType h.outElems
  let out := s.modelBlocks t h per rowIn rowOut ((rows + per - 1) / per) input rows
  if h.coreLen = 32 then (out, s)
  else ({ out with bytes := (List.range (rows * rowOut)).map (Config.undefByte s.free) }, (s.putFree (s.free + 1)))

/-- Charge the weights of a model that stays in Tier A, at home or in a window, for one run (R91; once for each run: DESIGN CHOICE, log entry
46). -/
def State.chargeWeights (s : State) (p : Nat) (t : Tensor) : State :=
  if s.models.any (fun x => x.1 / 256 == p && x.2.place == 1 && ((kvGet? x.2.tensor s.mem.tensors).map (fun y => y.addr)) == some t.addr) then
    s.chargeBw p 0 ((s.weights t (s.headOf t)).foldl (· + ·) 0)
  else s

/-- Count a run of partition `p` on array `a` of the model in a tensor (R236, Table 8.11). -/
def State.countRun (s : State) (a p : Nat) (t : Tensor) (o : ModelOut) : State :=
  let s := s.chargeWeights p t
  let s := if s.clipCounts a p then s.addClips a o.req o.clip else s
  let s := ((s.bump (cMxaSteps a) o.steps).addMeter p 6 o.steps).bump (cMxaRows a) o.rows
  let s := s.bump (cMxaInstrs a) o.instrs
  if o.sat = 0 then s else s.bump (cMxaSat a) o.sat

/-- The status with which array `a` refuses a descriptor of a model (R227, R237): the partition's modes, types and distance operations bound
it; its tile lies within its layer's weights, and its column parameters, the one absolute address, within the partition's memory or a buffer
of the die. Activation buffers are the node's own. -/
def State.modelDescCheck (s : State) (a p : Nat) (t : Tensor) (h : ModelHead) (d : List Byte) : Option Nat :=
  if !(s.arrPerms p a).permits d then some scBadCommand
  else if (s.layerOf t h (aTile d / 2 ^ 52)).2.1 < aTile d % 2 ^ 52 + ((aNValid d - 1) * aColStep d + elemBytes (aWType d) (aKValid d)) ∨
    (aColParams d ≠ 0 ∧ s.arrRangeOk p a (aColParams d) (8 * aNValid d) = false) then some scBadHandle
  else none

/-- The status with which an array refuses a model's run, that of the first descriptor refused, if any. -/
def State.modelRefused (s : State) (a p : Nat) (t : Tensor) (h : ModelHead) : Option Nat :=
  (List.range h.descs).findSome? (fun i => s.modelDescCheck a p t h (s.modelDesc t h i))

/-! #### Waiting for layers (R239) -/

/-- The binding, present or former, under which partition `p` runs the model in a tensor. -/
def State.runBinding (s : State) (p ti : Nat) : Option Binding :=
  match s.models.find? (fun x => x.1 / 256 == p && x.2.tensor == ti) with
  | some x => some x.2
  | none => (s.oldModels.find? (fun x => x.1 == p && x.2.tensor == ti)).map (fun x => x.2)

/-- Change the window that partition `p` keeps on a die for the model in a tensor. -/
def State.setWindow (s : State) (p ti die : Nat) (w : Nat × Nat) : State :=
  let put := fun (b : Binding) => { b with resident := kvPut die w b.resident }
  (s.putModels (kvMapVals (fun k (b : Binding) => if k / 256 = p ∧ b.tensor = ti then put b else b) s.models)).putOldModels
    (s.oldModels.map (fun x => if x.1 = p ∧ x.2.tensor = ti then (x.1, put x.2) else x))

/-- Layers of the model in a tensor. -/
def State.layersOf (s : State) (ti : Nat) : Nat := ((kvGet? ti s.mem.tensors).map (fun t => (s.headOf t).layers)).getD 0

/-- Whether a run of a model on array `a` need wait for no layer: its window holds them all. -/
def State.windowWhole (s : State) (a p ti : Nat) : Bool :=
  match s.runBinding p ti with
  | some b => let w := s.windowOf b (a / 2); w.1 == 0 && decide (s.layersOf ti ≤ w.2)
  | none => true

/-- The layers whose instructions have entered once those of the window `w` that follow the first `n` have. -/
def reachLayers (w : Nat × Nat) (n : Nat) : Nat := if w.1 ≤ n then max n (w.1 + w.2) else n

/-- Let a run of a model for request `rid` go as far as its window on array `a` allows (R239): whether the instructions of every layer have
entered. A run begins with a window filled from the first layer (DEDUCED, log entry 47); one that has waited for its turn goes on where it was (R160).
Instructions of the layers that the window holds enter at once. -/
def State.modelGate (s : State) (a p rid ti : Nat) : Bool × State :=
  if s.windowWhole a p ti then (true, s)
  else match (s.arrUnit a).model with
  | some m =>
    let n := reachLayers (((s.runBinding p ti).map (fun b => s.windowOf b (a / 2))).getD (0, 0)) m.upto
    if m.rid ≠ rid ∨ m.tensor ≠ ti then (false, s)
    else (decide (s.layersOf ti ≤ n), s.modArr a (fun u => { u with model := if s.layersOf ti ≤ n then none else some { m with upto := n } }))
  | none =>
    let w := ((s.runBinding p ti).map (fun b => s.windowOf b (a / 2))).getD (0, 0)
    let w := if w.1 = 0 then w else (0, 0)
    (false, (s.setWindow p ti (a / 2) w).modArr a (fun u => { u with model := some { part := p, rid := rid, tensor := ti, upto := w.2, since := s.now } }))

/-- Whether every array of a partition's mask is fenced, so that projections run on cores (R245). -/
def State.arraysGone (s : State) (p : Nat) : Bool := [0, 1, 2, 3].all (fun a => !bitOf (s.pcfg p).arrayMask a || s.isFenced 5 a)

/-- Whether work of request `rid` that runs the model in a tensor at `place` may go on now: on cores, or on an array that the partition owns once
every layer has passed. Otherwise its work is queued (R154, R239). -/
def State.mayRun (s : State) (p place rid ti : Nat) : Bool × State :=
  if place ≠ 0 ∨ s.arraysGone p = true then (true, s)
  else match s.arrayFor p rid with
  | none => (false, s.queueArrWork p rid)
  | some a => let g := s.modelGate a p rid ti; if g.1 then g else (false, g.2.queueArrWork p rid)

/-- The array on which work of a request that may go on runs; cores have none. -/
def State.runsOn (s : State) (p place rid : Nat) : Option Nat := if place = 0 ∧ s.arraysGone p = false then s.arrayFor p rid else none

/-- The window of a binding once the layer behind the first `n` is fetched (R239): behind those it holds, in the space of its first where it is full;
a window that holds others is filled anew. -/
def Binding.slide (b : Binding) (w : Nat × Nat) (n : Nat) : Nat × Nat :=
  if w.1 + w.2 ≠ n then (n, 1) else if w.2 < b.layers then (w.1, w.2 + 1) else (w.1 + 1, w.2)

/-- LAYER_FETCH_DONE: the next layer of the model that waits on array `a` is in its window: in room that is left, or in the space of the first
layer held; the fetch is charged to no regulator. The time waited is counted, and the instructions of the layer enter (R239). -/
def execLayerFetchDone (a p : Nat) (s : State) : Host.Outcome State Fault Refusal :=
  match (s.arrUnit a).model with
  | none => .next s
  | some m => match s.runBinding m.part m.tensor with
    | none => .next s
    | some b =>
      if (s.share a).owner ≠ some p ∨ m.part ≠ p ∨ s.layersOf m.tensor ≤ m.upto then .next s
      else
        let w := b.slide (s.windowOf b (a / 2)) m.upto
        let s := s.setWindow p m.tensor (a / 2) w
        let s := if s.now = m.since then s else s.bump (cMxaWindowStallNs a) (s.now - m.since)
        .next (s.modArr a (fun u => { u with model := some { m with upto := w.1 + w.2, since := s.now } }))

/-- INPUT_BYTES of a run of `rows` rows (R242): the elements by the size of IN_TYPE, two to a byte for int4. -/
def ModelHead.inputBytes (h : ModelHead) (rows : Nat) : Nat := if h.inType = 1 then rows * h.inElems / 2 else rows * elemBytes h.inType h.inElems

/-- The model that an `ARRAY_RUN` runs: that of its slot when it was fetched (R238). -/
def State.runTensor (s : State) (r : Rec) : Option (Nat × Tensor) :=
  r.waits.head?.bind (fun ti => (kvGet? ti s.mem.tensors).map (fun t => (ti, t)))

/-- The checks of `ARRAY_RUN` on the model that it runs (R242). -/
def State.arrayRunCheck (s : State) (p : Nat) (c : HostCmd) (x : Option (Nat × Tensor)) : Option Nat :=
  let rows := c.param 4 4
  if (s.pcfg p).arrayMask = 0 then some scNotBridled
  else if rows = 0 ∨ 65536 < rows ∨ c.resultAddr = 0 then some scBadCommand
  else match x with
  | none => some scBadHandle
  | some (_, t) =>
    let h := s.headOf t
    if s.addrOk p (c.param 8 8) (c.param 16 4) = false ∨ s.resultOk p c.resultAddr (rows * outElemBytes h.outType h.outElems) = false then some scBadHandle
    else if c.param 16 4 ≠ (s.headOf t).inputBytes rows then some scBadCommand
    else none

/-- ARRAY_RUN: runs a bound model on rows of input as array work of the partition, behind work of the partition queued before it (R242). It
waits, with its work queued, until the partition owns an array of its mask and the model's layers have passed its window (R239). -/
def execArrayRun (p q cid : Nat) (input : List Byte) (s : State) : Host.Outcome State Fault Refusal :=
  match s.readyRec p q cid 0x51 with
  | none => .next s
  | some (rid, r) =>
    let c := r.cmd
    let rows := c.param 4 4
    if let some st := (s.named r).arrayRunCheck p c (s.runTensor r) then .next (s.fail p rid st)
    else match s.runTensor r with
    | none => .next (s.fail p rid scBadHandle)
    | some (ti, t) =>
      let h := s.headOf t
      let need := h.inputBytes rows
      if s.arraysGone p then .next (s.fail p rid scFence)
      else if !s.isTurn p rid then .next (s.queueArrWork p rid)
      else
        let g := s.mayRun p 0 rid ti
        if !g.1 then .next g.2
        else
          let s := g.2
          let a := (s.ownedArray p).getD 0
          let (data, s) := s.readInput p r.flow (c.param 8 8) need input
          match s.modelRefused a p t h with
          | some st => .next (((s.bump (cMxaRefused a) 1).dropArrWork rid).fail p rid st)
          | none =>
            let (o, s) := s.runModel t rows data
            let s := (s.countRun a p t o).dropArrWork rid
            .next ((s.complete p rid scDone 0 rows (o.clip.foldl (· + ·) 0) o.steps o.bytes).freeOldModels)

end Sys2Proof.Machine
end

