-- ==== Sys2Proof/Machine/Corpus.lean ====
section
/-! DEFINITION. A partition's collection: segments and their parts, visibility (spec/07, R198 to R208), projection and
threshold sets (spec/06, R166 to R171), the sketch threshold loop (R423, R424). -/

namespace Sys2Proof.Machine

/-! ### Collections and segments -/

/-- Segment `i` of partition `p`. -/
def State.seg? (s : State) (p i : Nat) : Option Segment := kvGet? i (s.corpus p).segs

/-- Change segment `i` of partition `p`, if it exists. -/
def State.modSeg (s : State) (p i : Nat) (f : Segment → Segment) : State := s.modCorpus p (fun c => { c with segs := kvUpd i f c.segs })

/-- The sketch stage of a partition. -/
def State.sketchStage (s : State) (p : Nat) : Option Stage := (s.pcfg p).stages.find? (fun g => g.kind == 2)

/-- The exact re-rank stage of a partition. -/
def State.rerankStage (s : State) (p : Nat) : Option Stage := (s.pcfg p).stages.find? (fun g => g.kind == 5)

/-- The metric of the exact re-rank stage (Table 2.7): 0 squared L2, 1 inner product, 2 cosine. -/
def State.metric (s : State) (p : Nat) : Nat := ((s.rerankStage p).map (fun g => g.param % 4)).getD 0

/-- Bytes of a sketch of a width code. -/
def sketchBytes (w : Nat) : Nat := widthBits w / 8

/-- Bytes of an element of a vector (R199). -/
def vecElemBytes (e : Nat) : Nat := elemSize e / 8

/-- VEC_STRIDE (Table 7.1). -/
def vecStride (elem dims : Nat) : Nat := roundUp (dims * vecElemBytes elem) 64

/-- Whether an element code may be that of a segment. -/
def segElem (e : Nat) : Bool := e == 0 || e == 2 || e == 3 || e == 4 || e == 5

/-- Address of the sketch of a local ID (R201). -/
def Segment.sketchAt (g : Segment) (id : Nat) : Option Nat :=
  let s := perRow g.width
  let per := g.blockRows * s
  if per = 0 then none else
  (g.blocks[id / per]?).map (fun b => rowAddr b.1 (b.2 + id % per / s) + id % per % s * sketchBytes g.width)

/-- The place of a sketch as a gather entry names it: channel, channel row, slot (R201). -/
def Segment.locate (g : Segment) (id : Nat) : Option (Nat × Nat × Nat) :=
  let s := perRow g.width
  let per := g.blockRows * s
  if per = 0 then none else (g.blocks[id / per]?).map (fun b => (b.1, b.2 + id % per / s, id % per % s))

def Segment.vecAt (g : Segment) (id : Nat) : Nat := g.vec + id * g.stride
def Segment.attrAt (g : Segment) (id : Nat) : Nat := g.attr + 8 * id
def Segment.idAt (g : Segment) (id : Nat) : Nat := g.idmap + 8 * id
def Segment.normAt (g : Segment) (id : Nat) : Nat := g.norm + 4 * id
def Segment.adjAt (g : Segment) (id : Nat) : Nat := g.adj + id * g.degree * 4

/-- Bytes of a full vector without its padding. -/
def Segment.vecLen (g : Segment) : Nat := g.dims * vecElemBytes g.elem

/-- The vector ID of a local ID (R200). -/
def State.vecId (s : State) (g : Segment) (id : Nat) : Nat := leNat (s.readMem (g.idAt id) 8)

/-- COUNT(e) of a delta (R202): the vectors committed at or before epoch `e`. -/
def Segment.countAt (g : Segment) (e : Nat) : Nat :=
  g.commits.foldl (fun n x => if x.1 ≤ e then x.2 else n) 0

/-- Whether a query pinned at `e` searches a segment (R207). -/
def Segment.searchedAt (g : Segment) (e : Nat) : Bool :=
  (match g.pub with | some p => decide (p ≤ e) | none => false) && (match g.ret with | some r => decide (e < r) | none => true)

/-- The segments that a query pinned at `e` searches, in ascending SEG_ID (R207). -/
def State.searched (s : State) (p e : Nat) : List (Nat × Segment) := (s.corpus p).segs.filter (fun g => g.2.searchedAt e)

/-- Bit `id` of a segment's tombstone bitmap. -/
def State.tombBit (s : State) (g : Segment) (id : Nat) : Bool := bitOf (s.mem.read (g.tomb + id / 8)).toNat (id % 8)

/-- Set bit `id` of a segment's tombstone bitmap, for its partition. -/
def State.setTomb (s : State) (p : Nat) (g : Segment) (id : Nat) : State :=
  (s.access p (g.tomb + id / 8) 1).writeMem (g.tomb + id / 8) [s.mem.read (g.tomb + id / 8) ||| BitVec.ofNat 8 (2 ^ (id % 8))]

/-- Whether an item is visible at epoch `e` (R208): its insert committed by then, and no tombstone at or below `e`. -/
def State.visible (s : State) (p i : Nat) (g : Segment) (id e : Nat) : Bool :=
  (if g.delta then decide (id < g.countAt e) else true) && !s.tombBit g id &&
  !((s.corpus p).young.any (fun t => t.1 == i && t.2.1 == id && decide (t.2.2 ≤ e)))

/-- The lowest SEG_ID held by no segment and no build or import of the partition (R198, R274). -/
def State.freeSeg (s : State) (p : Nat) : Option Nat :=
  (List.range 1024).find? (fun i => (s.seg? p i).isNone && !(s.builds.any (fun b => b.2.part == p && b.2.seg == i)))

/-- The outputs of the builds of a partition that are under way, by the SEG_ID they hold. -/
def State.drafts (s : State) (p : Nat) : List (Nat × Segment) :=
  s.builds.filterMap (fun b => if b.2.part = p then b.2.draft.map (fun g => (b.2.seg, g)) else none)

/-- Copies of a vector ID held by unpublished segments, outputs of builds under way among them, and not marked dead: segment and local ID
(R265, R275, Table 10.2). -/
def State.unpubHolders (s : State) (p id : Nat) : List (Nat × Nat) :=
  ((s.corpus p).segs.filter (fun g => !g.2.delta && g.2.pub.isNone) ++ s.drafts p).flatMap (fun g =>
    ((List.range g.2.vectors).filter (fun l => !g.2.dead.contains l && s.vecId g.2 l == id)).map (fun l => (g.1, l)))

/-! ### Fold epoch (R208) -/

/-- Free entries of the young tombstone table (R208). -/
def State.youngFree (s : State) (p : Nat) : Nat := 262144 - ((s.corpus p).young.length + (s.corpus p).youngRes)

/-- The first entry of a young tombstone table that is free (DESIGN CHOICE, log entry 52: no rule orders the entries). -/
def firstFree : Nat → KV (Nat × Nat × Nat) → Nat
  | i, [] => i
  | i, x :: xs => if x.1 = i then firstFree (i + 1) xs else i

/-- Enter a young tombstone: SEG_ID, local ID and epoch go into a free entry of the table (R208). -/
def State.addYoung (s : State) (p seg lid e : Nat) : State :=
  let c := s.corpus p
  let i := firstFree 0 c.youngTab
  let s := match c.tombArea with | some a => (s.access p (a + 16 * i) 16).writeMem (a + 16 * i) (leBytes 2 seg ++ leBytes 2 0 ++ leBytes 4 lid ++ leBytes 8 e) | none => s
  s.modCorpus p (fun c => { c with young := c.young ++ [(seg, lid, e)], youngTab := kvPut i (seg, lid, e) c.youngTab, youngPeak := max c.youngPeak (c.young.length + 1) })

/-- Free the young tombstones that answer to a test; what a free entry holds is open. -/
def State.freeYoung (s : State) (p : Nat) (f : Nat × Nat × Nat → Bool) : State :=
  let c := s.corpus p
  let s := match c.tombArea with
    | some a => (c.youngTab.filter (fun (x : Nat × Nat × Nat × Nat) => f x.2)).foldl (fun (t : State) (x : Nat × Nat × Nat × Nat) => t.hide (a + 16 * x.1) 16) s
    | none => s
  s.modCorpus p (fun c => { c with young := c.young.filter (fun t => !f t), youngTab := c.youngTab.filter (fun x => !f x.2) })

/-! ### The segment table (R199) -/

/-- The descriptor of segment `i` (Table 7.1). -/
def Segment.descriptor (g : Segment) (i : Nat) : List Byte :=
  let never := 0xFFFFFFFFFFFFFFFF
  leBytes 2 i ++ leBytes 1 g.delta.toNat ++ leBytes 1 g.width ++ leBytes 1 g.setId ++ leBytes 1 (if g.delta then 0 else g.degree) ++ leBytes 1 g.elem ++ [0] ++
  leBytes 4 g.setVer ++ leBytes 4 g.vectors ++ leBytes 2 g.dims ++ leBytes 1 (if g.delta then 0 else min 16 g.entry.length) ++ [0] ++ leBytes 4 g.blockRows ++
  leBytes 4 g.blocks.length ++ leBytes 4 g.stride ++ leBytes 8 (g.pub.getD never) ++ leBytes 8 (g.ret.getD never) ++ leBytes 8 g.tableAt ++
  leBytes 8 (if g.delta then 0 else g.adj) ++ leBytes 8 g.vec ++ leBytes 8 g.attr ++ leBytes 8 g.idmap ++ leBytes 8 g.tomb ++ leBytes 8 g.norm ++
  leBytes 8 (if g.delta then g.commitAt else 0) ++ (List.range 16).flatMap (fun j => leBytes 4 (if g.delta then 0xFFFFFFFF else (g.entry[j]?).getD 0xFFFFFFFF)) ++
  List.replicate 16 0

/-- A block table (R201). -/
def Segment.blockTable (g : Segment) : List Byte := g.blocks.flatMap (fun b => leBytes 2 b.1 ++ leBytes 2 0 ++ leBytes 4 b.2)

/-- Write the descriptor of a segment. -/
def State.writeDesc (s : State) (p i : Nat) : State :=
  s.modCorpus p (fun c => match kvGet? i c.segs with
    | some g => { c with table := kvPut i (g.descriptor i ++ g.blockTable) c.table }
    | none => c)

/-- Put a new segment into a partition's collection, its block table where the node keeps it. -/
def State.putSegment (s : State) (p i : Nat) (g : Segment) : State :=
  (s.modCorpus p (fun c => { c with segs := kvPut i { g with tableAt := (Config.blockTable p i).toNat } c.segs })).writeDesc p i

/-! ### Threshold sets (R167 to R171) -/

/-- The thresholds of a set (Table 6.1). -/
def State.thresholds (s : State) (t : TSet) : List Nat := (List.range (widthBits t.width)).map (fun i => leNat (s.readMem (t.addr + 64 + 4 * i) 4))

/-- Publish a threshold set (R167, R168, R170): the lowest free SET_ID, the next VERSION, its bytes in Tier A. The
current set counts as free where no segment is bound to it. Answers SET_ID and VERSION, or none where no SET_ID is free
or the quota is passed. -/
def State.publishSet (s : State) (p : Nat) (th : List Nat) (fromLoop : Bool) (samples : Nat) : Option (Nat × Nat × State) :=
  match s.sketchStage p with
  | none => none
  | some g =>
    let w := g.param % 4
    let s := (s.modCorpus p (fun c => { c with curSet := none })).sweepSets p
    match (List.range (s.pcfg p).thrSets).find? (fun i => (kvGet? i (s.corpus p).sets).isNone) with
    | none => none
    | some i => match s.alloc p 0 (64 + 4 * widthBits w) .thresholds with
      | none => none
      | some (a, s) =>
        let v := (s.corpus p).version + 1
        let bytes := leBytes 1 i ++ leBytes 1 w ++ leBytes 2 fromLoop.toNat ++ leBytes 4 v ++ leBytes 8 (s.corpus p).epoch ++ leBytes 8 s.now ++
          leBytes 8 samples ++ List.replicate 32 0 ++ th.flatMap (fun x => leBytes 4 x)
        let s := (s.access p a bytes.length).writeMem a bytes
        some (i, v, s.modCorpus p (fun c => { c with sets := kvPut i { version := v, width := w, addr := a } c.sets, curSet := some i, version := v }))

/-- Bytes of a list of bits, bit *i* in bit *i* mod 8 of byte *i* / 8 (R164). -/
def packBits : List Bool → List Byte
  | b0 :: b1 :: b2 :: b3 :: b4 :: b5 :: b6 :: b7 :: t =>
    BitVec.ofNat 8 (b0.toNat + 2 * b1.toNat + 4 * b2.toNat + 8 * b3.toNat + 16 * b4.toNat + 32 * b5.toNat + 64 * b6.toNat + 128 * b7.toNat) :: packBits t
  | _ => []

/-- Whether a projected value sets its bit (R166): y ≥ t; a NaN gives 0. -/
def sketchBit (y t : Nat) : Bool := !(dec32 y).isNan && !(dec32 t).isNan && !Num.lt (dec32 y) (dec32 t)

/-- The sketch of projected values under thresholds (R166). -/
def sketchOf (ys th : List Nat) : List Byte := packBits (List.zipWith sketchBit ys th)

/-- NaN projected values. -/
def nanCount (ys : List Nat) : Nat := (ys.filter (fun y => (dec32 y).isNan)).length

/-- Count NaN projected values (R166). -/
def State.countNans (s : State) (p : Nat) (ys : List Nat) : State :=
  if nanCount ys = 0 then s else s.bump (cBkePNanProj p) (nanCount ys)

/-- The checks of `THRESHOLD_PUBLISH` that need no host memory (R171): the fields, then the candidate or the address. -/
def State.thresholdCheck (s : State) (p : Nat) (c : HostCmd) : Option Nat :=
  let src := c.param 0 1
  match s.sketchStage p with
  | none => some scNotBridled
  | some g =>
    if 1 < src ∨ c.param 1 1 ≠ g.param % 4 ∨ (src = 0 ∧ c.param 8 8 ≠ 0) then some scBadCommand
    else if (src = 0 ∧ (s.corpus p).loop.seen < 4096) ∨ (src = 1 ∧ s.addrOk p (c.param 8 8) (4 * widthBits (g.param % 4)) = false) then some scBadHandle
    else none

/-- THRESHOLD_PUBLISH: publishes the loop's candidate or thresholds from the host (R171). It waits while a load holds allocations back (R491). -/
def execThresholdPublish (p q cid : Nat) (data : List Byte) (s : State) : Host.Outcome State Fault Refusal :=
  match s.readyRec p q cid 0x12 with
  | none => .next s
  | some (rid, r) =>
    let c := r.cmd
    if s.allocHeld then .next s
    else if let some st := (s.named r).thresholdCheck p c then .next (s.fail p rid st)
    else match s.sketchStage p with
    | none => .next (s.fail p rid scNotBridled)
    | some g =>
      let n := widthBits (g.param % 4)
      let src := c.param 0 1
      let (given, s1) := if src = 1 then s.readInput p r.flow (c.param 8 8) (4 * n) data else ([], s)
      let host := (List.range n).map (fun i => fieldAt given (4 * i) 4)
      let lp := (s.corpus p).loop
      if src = 1 ∧ host.any (fun t => (dec32 t).isNan) = true then .next (s1.fail p rid scBadCommand)
      else match s1.publishSet p (if src = 1 then host else lp.cand) false (if src = 1 then 0 else lp.samples) with
        | none => .next (s1.refuse p rid scQuota (s1.overQuota p (fun t => (t.publishSet p (if src = 1 then host else lp.cand) false 0).isSome)))
        | some (i, v, s) => .next (s.done p rid 0 (v * 2 ^ 32 + i) 0)

/-! ### Projection (R166, R244, R245) -/

/-- An output of a model as fp32 bits. -/
def outToFp32 (t w : Nat) : Nat :=
  if t = 0 then w
  else if t = 1 then enc32 (Num.ofInt (signedOf 32 w))
  else if t = 2 then enc32 (decBf16 w)
  else if t = 3 then enc32 (Num.ofInt (signedOf 8 w))
  else if t = 4 then enc32 (Num.ofInt (signedOf 4 w))
  else if t = 5 then enc32 (decE4M3 w)
  else enc32 (decE5M2 w)

/-- Output element `i` of a row of bytes. -/
def outCode (t : Nat) (bs : List Byte) (i : Nat) : Nat :=
  if t = 4 then fieldAt bs (i / 2) 1 / 16 ^ (i % 2) % 16 else fieldAt bs (i * (outBits t / 8)) (outBits t / 8)

/-- The projection model of a partition: the tensor bound to slot 255, with its index (R238). -/
def State.projModel (s : State) (p : Nat) : Option (Nat × Tensor) :=
  (s.binding p 255).bind (fun b => (kvGet? b.tensor s.mem.tensors).map (fun t => (b.tensor, t)))

/-- Project rows of vectors: W projected values in fp32 for each row (R166). Where an array runs the projection, its counters count it. -/
def State.project (s : State) (p : Nat) (on : Option Nat) (t : Tensor) (rows : Nat) (input : List Byte) : List (List Nat) × State :=
  let h := s.headOf t
  let (o, s) := s.runModel t rows input
  let s := match on with
    | some a => s.countRun a p t o
    | none => s
  let rowOut := outElemBytes h.outType h.outElems
  ((List.range rows).map (fun i => (List.range h.outElems).map (fun j =>
    outToFp32 h.outType (outCode h.outType ((o.bytes.drop (i * rowOut)).take rowOut) j))), s)

/-! ### Norms (Table 7.2) -/

/-- The fp32 value nearest to 1/√x for a positive finite `x` = m · 2^e (DEDUCED: one rounding). -/
def rsqrt32 (m : Nat) (e : Int) : Num :=
  if m = 0 then Num.zero else
  let odd := decide (e % 2 ≠ 0)
  let m := if odd then 2 * m else m
  let e := if odd then e - 1 else e
  let t := bitLen m / 2 + 40
  let q := 2 ^ (2 * t) / m
  let r := isqrt q
  let sticky := if r * r * m = 2 ^ (2 * t) then 0 else 1
  Num.round fmt32 (.fin false (2 * r + sticky) (-(t : Int) - 1 - e / 2))

/-- The sum of the squares of decoded elements, exactly, as m · 2^e; none where an element is not finite. -/
def sumSquares (xs : List Num) : Num := xs.foldl (fun a x => Num.addExact a (Num.mulExact x x)) Num.zero

/-- 1/‖x‖ in fp32; 0 for a zero vector. -/
def invNorm (xs : List Num) : Num :=
  match sumSquares xs with
  | .fin _ m e => rsqrt32 m e
  | .inf _ => Num.zero
  | .nan b => .nan b

/-- The decoded elements of a vector. -/
def decodeVec (elem dims : Nat) (bs : List Byte) : List Num := (List.range dims).map (fun i => decodeElem elem (elemAt elem bs i))

/-- The element codes of a vector. -/
def vecCodes (elem dims : Nat) (bs : List Byte) : List Nat := (List.range dims).map (elemAt elem bs)

/-- An array descriptor that matters only by mode, element type and distance operation. -/
def scoreDesc (mode t : Nat) : List Byte := leBytes 1 mode ++ leBytes 1 t ++ leBytes 1 t ++ List.replicate 61 0

/-- Mode in which an array compares two vectors: distance mode for squared L2, MAC or multi-word for an inner product (R244). -/
def scoreMode (metric t : Nat) : Nat := if metric = 0 then 2 else if t = 5 then 1 else 0

/-- What an array gives for two vectors, chunk by chunk of 512 positions chained in fp32 (R226, R244). -/
def arrScore (metric t : Nat) : Nat → List Nat → List Nat → Option Num → Num
  | 0, _, _, acc => acc.getD Num.zero
  | f + 1, q, x, acc =>
    if q.isEmpty then acc.getD Num.zero else
    let d := scoreDesc (scoreMode metric t) t
    let y := match (reduceRaw d (q.take 512) (x.take 512)).head? with
      | some (.int z) => (Num.ofInt z).round fmt32
      | some (.flt z) => z.round fmt32
      | none => Num.zero
    arrScore metric t f (q.drop 512) (x.drop 512) (some (match acc with | some a => Num.add fmt32 y a | none => y))

/-- The terms that cores form in fp32 (R244). -/
def coreTerms (metric t : Nat) (q x : List Nat) : List Num :=
  List.zipWith (fun a b =>
    let u := decodeElem t a
    let v := decodeElem t b
    if metric = 0 then let d := Num.sub fmt32 u v; Num.mul fmt32 d d else Num.mul fmt32 u v) q x

/-- A magnitude and exponent with factors of two taken out of the magnitude. -/
def oddPart : Nat → Nat → Int → Nat × Int
  | 0, m, e => (m, e)
  | f + 1, m, e => if m ≠ 0 ∧ m % 2 = 0 then oddPart f (m / 2) (e + 1) else (m, e)

/-- Magnitude and exponent of a term's lowest set bit, none for a NaN or an infinity. -/
def termParts : Num → Option (Nat × Int)
  | .fin _ m e => some (oddPart 64 m e)
  | _ => none

/-- Least exponent of the non-zero terms. -/
def leastExp (ts : List (Nat × Int)) : Int :=
  (ts.foldl (fun (m : Option Int) x => if x.1 = 0 then m else some (match m with | some k => min k x.2 | none => x.2)) none).getD 0

/-- Whether every order of fp32 additions of the terms is exact: all finite, and their magnitudes sum to at most 2^24 units
of their least set bit. -/
def anyOrderExact (ts : List Num) : Bool :=
  let ps := ts.filterMap termParts
  let e0 := leastExp ps
  ts.all (fun x => (termParts x).isSome) && decide (ps.foldl (fun n x => if x.1 = 0 then n else n + x.1 * 2 ^ (x.2 - e0).toNat) 0 ≤ 2 ^ 24)

/-- What cores give for two vectors: the exact sum where no order of additions rounds, otherwise the sum of the unpublished
order, a free value (R244). -/
def coreScore (metric t : Nat) (q x : List Nat) : Num :=
  let ts := coreTerms metric t q x
  if anyOrderExact ts then ts.foldl Num.addExact Num.zero else dec32 (Config.coreSum metric t (ts.map enc32)).toNat

/-! ### Writing a row (R268, R275) -/

/-- Write into a part of a segment, charged to the partition's regulator of the tier (R91). -/
def State.writePart (s : State) (p a : Nat) (bs : List Byte) : State :=
  (s.access p a bs.length).writeMem a bs

/-- Write the sketch of a local ID. -/
def State.writeSketch (s : State) (p : Nat) (g : Segment) (lid : Nat) (sk : List Byte) : State :=
  match g.sketchAt lid with | some a => s.writePart p a sk | none => s

/-- Write the vector, attribute word, vector ID and inverse norm of a local ID. -/
def State.writeItem (s : State) (p : Nat) (g : Segment) (lid : Nat) (vec : List Byte) (attr id : Nat) : State :=
  let s := s.writePart p (g.vecAt lid) (vec ++ List.replicate (g.stride - vec.length) 0)
  let s := s.writePart p (g.attrAt lid) (leBytes 8 attr)
  let s := s.writePart p (g.idAt lid) (leBytes 8 id)
  if g.norm = 0 then s else s.writePart p (g.normAt lid) (leBytes 4 (enc32 (invNorm (decodeVec g.elem g.dims vec))))

/-- Write the sketch, vector, attribute word, vector ID and inverse norm of a local ID. -/
def State.writeRow (s : State) (p : Nat) (g : Segment) (lid : Nat) (sk vec : List Byte) (attr id : Nat) : State :=
  (s.writeSketch p g lid sk).writeItem p g lid vec attr id

/-! ### Allocating and discarding segments (R200, R271, R277, R281, R282) -/

/-- The first place on Tier A channel `c` where an allocation of `len` bytes may start. -/
def State.findChan (s : State) (p c len : Nat) : Option Nat :=
  let base := 2 ^ 31 * c
  let cands := base :: (s.mem.allocs.filter (fun x => decide (base ≤ x.1 ∧ x.1 < base + 2 ^ 31))).map (fun x => roundUp (x.1 + x.2.len) 65536)
  cands.find? (fun a => s.placeOk p 0 a len && a / 2 ^ 31 == c)

/-- Allocate in one Tier A channel. -/
def State.allocChan (s : State) (p c bytes : Nat) (kind : AllocKind) : Option (Nat × State) :=
  match s.findChan p c (roundUp bytes 65536) with
  | some a => s.allocAt p 0 bytes kind (some a)
  | none => none

/-- Allocate in a tier, with a zero size taking nothing. -/
def State.allocOpt (s : State) (p t bytes : Nat) (kind : AllocKind) : Option (List Nat × Nat × State) :=
  if bytes = 0 then some ([], 0, s) else (s.alloc p t bytes kind).map (fun x => ([x.1], x.1, x.2))

/-- Assign sketch blocks for `n` vectors to PROC_CHANNELS in ascending channel order, round robin (R201): the areas and
the block table. -/
def State.allocBlocks (s : State) (p w blockRows n : Nat) (kind : AllocKind) : Option (List Nat × List (Nat × Nat) × State) :=
  let chans := maskChannels (s.pcfg p).procChannels
  let per := blockRows * perRow w
  let count := (n + per - 1) / per
  let m := chans.length
  if m = 0 then none else
  let got := chans.zipIdx.foldl (fun (acc : Option (List Nat × KV Nat × State)) ci => match acc with
    | none => none
    | some (areas, bases, t) =>
      let mine := (count + m - 1 - ci.2) / m
      if mine = 0 then some (areas, bases, t)
      else (t.allocChan p ci.1 (mine * blockRows * 2048) kind).map (fun x => (areas ++ [x.1], kvPut ci.2 x.1 bases, x.2))) (some ([], [], s))
  got.map (fun g => (g.1, (List.range count).map (fun b =>
    let c := chans.getD (b % m) 0
    (c, (kvGetD 0 (b % m) g.2.1 - c * 2 ^ 31) / 2048 + (b / m) * blockRows)), g.2.2))

/-- Allocate the parts of a segment for `cap` vectors: tiers of adjacency, full vectors and the attribute words, ID map and
norms. None where a quota is passed. -/
def State.allocSegment (s : State) (p : Nat) (g : Segment) (cap ta tv tm : Nat) (kind : AllocKind) : Option (Segment × State) :=
  match s.allocBlocks p g.width g.blockRows cap kind with
  | none => none
  | some (a0, blocks, s) => match s.allocOpt p ta (cap * g.degree * 4) kind with
    | none => none
    | some (a1, adj, s) => match s.allocOpt p tv (cap * g.stride) kind with
      | none => none
      | some (a2, vec, s) => match s.allocOpt p tm (8 * cap) kind with
        | none => none
        | some (a3, attr, s) => match s.allocOpt p tm (8 * cap) kind with
          | none => none
          | some (a4, ids, s) => match s.allocOpt p 0 (roundUp ((cap + 7) / 8) 64) kind with
            | none => none
            | some (a5, tomb, s) => match s.allocOpt p tm (if s.metric p = 2 then 4 * cap else 0) kind with
              | none => none
              | some (a6, norm, s) => match s.allocOpt p 0 (if g.delta then 1048576 else 0) kind with
                | none => none
                | some (a7, com, s) => some ({ g with
                    blocks := blocks, adj := adj, vec := vec, attr := attr, idmap := ids, tomb := tomb, norm := norm, commitAt := com
                    areas := a0 ++ a1 ++ a2 ++ a3 ++ a4 ++ a5 ++ a6 ++ a7 }, s)

/-- Remove a segment: its areas, its SEG_ID, its hold on tensors, its young tombstones, and any set it alone bound
(R170, R277, R281, R282). -/
def State.dropSegment (s : State) (p i : Nat) : State :=
  match s.seg? p i with
  | none => s
  | some g =>
    let s := g.areas.foldl State.release s
    let s := s.modMem (fun m => { m with tensors := g.tensors.foldl (fun ts t => kvUpd t (fun (x : Tensor) => { x with holder := .none }) ts) m.tensors })
    ((s.freeYoung p (fun t => t.1 == i)).modCorpus p (fun c => { c with
      segs := kvDel i c.segs
      table := kvDel i c.table
      freed := (match g.pub with | some e => [(e, g.ret.getD (c.epoch + 1))] | none => []) ++ c.freed.filter (fun x => decide (c.fold < x.2))
      locator := c.locator.filter (fun l => l.2.1 != i)
      current := if c.current = some i then none else c.current })).sweepSets p

/-- What a partition reset leaves of a collection (Table 10.4, R277): uncommitted updates, reservations, builds and imports
are gone, and delta rows above the last commit are reused. With `SCRUB` every segment and set is removed too (R110). -/
def State.corpusReset (s : State) (p : Nat) : State :=
  let mine := s.builds.filter (fun b => b.2.part == p)
  let s := mine.foldl (fun (t : State) b => t.endBuild b.1) s
  let s := s.putBuilds (s.builds.filter (fun b => b.2.part != p))
  (s.modCorpus p (fun c => { c with
    updates := [], youngRes := 0, locRes := 0
    segs := kvMapVals (fun _ (g : Segment) => if g.delta then { g with next := g.vectors } else g) c.segs })).sweepSets p

/-- Remove a partition's segments and threshold sets (R110). -/
def State.corpusScrub (s : State) (p : Nat) : State :=
  let s := (s.corpus p).segs.foldl (fun (t : State) g => t.dropSegment p g.1) s
  ((s.freeYoung p (fun _ => true)).modCorpus p (fun c => { c with curSet := none, locator := [], loop := {} })).sweepSets p

/-! ### The sketch threshold loop (R423, R424) -/

/-- One bit of the loop: its new candidate and mean deviation (R423), each operation rounded to fp32 (DEDUCED). -/
def loopBit (gain target : Num) (c m y taken : Nat) : Nat × Nat :=
  let yn := dec32 y
  let cn := dec32 c
  let b := if Num.lt yn cn then Num.zero else Num.ofInt 1
  let step := Num.scale (-6) (Num.mul fmt32 (Num.mul fmt32 gain (dec32 m)) (Num.sub fmt32 b target))
  let c' := Num.add fmt32 cn step
  let dev := (Num.sub fmt32 yn c').abs
  let n := if taken + 1 < 4096 then taken + 1 else 4096
  let m' := Num.add fmt32 (dec32 m) (Num.div fmt32 (Num.sub fmt32 dev (dec32 m)) (Num.ofInt n))
  (enc32 c', enc32 m')

/-- Whether a projected value is taken by the loop: neither NaN nor infinite. -/
def isFinite32 (y : Nat) : Bool := y / 2 ^ 23 % 256 != 255

/-- One committed insert in the loop, bit by bit. -/
def SketchLoop.bits (gain target : Num) : List Nat → List Nat → List Nat → List Nat → List (Nat × Nat × Nat)
  | c :: cs, m :: ms, k :: ks, y :: ys =>
    (if isFinite32 y then let x := loopBit gain target c m y k; (x.1, x.2, k + 1) else (c, m, k)) :: SketchLoop.bits gain target cs ms ks ys
  | _, _, _, _ => []

/-- Start the loop at the partition's first insert (R423). -/
def State.startLoop (s : State) (p : Nat) : State :=
  if !(s.corpus p).loop.cand.isEmpty then s
  else match s.sketchBits p with
    | none => s
    | some w =>
      let c := s.corpus p
      let th := match c.curSet.bind (fun i => kvGet? i c.sets) with
        | some t => s.thresholds t
        | none => List.replicate w 0
      s.modCorpus p (fun c => { c with loop := { c.loop with cand := th, dev := List.replicate w 0, taken := List.replicate w 0 } })

/-- The sketch threshold unit of partition `p` (loop 3 of Table 17.1). -/
def State.sketchUnit (s : State) (p : Nat) : TrimUnit := s.trim 3 p

/-- Feed a committed insert's projected values to the loop (R423); a frozen unit keeps forming its candidate (R417). -/
def State.feedLoop (s : State) (p : Nat) (ys : List Nat) : State :=
  let u := s.sketchUnit p
  let l := (s.corpus p).loop
  let gain := Num.scale (-8) (Num.ofInt u.gain)
  let target := Num.div fmt32 (Num.ofInt u.target) (Num.ofInt 1000)
  let xs := SketchLoop.bits gain target l.cand l.dev l.taken ys
  s.modCorpus p (fun c => { c with loop := { c.loop with
    cand := xs.map (fun x => x.1)
    dev := xs.map (fun x => x.2.1)
    taken := xs.map (fun x => x.2.2)
    seen := l.seen + 1, since := l.since + 1, hist := (ys :: l.hist).take 65536 } })

end Sys2Proof.Machine
end

