-- ==== Sys2Proof/Machine/Search.lean ====
section
/-! DEFINITION. Queries (spec/07): their checks, what they search, beams and the visited filter, the delta scan, exact
re-rank, widened retries, and queries across nodes. A query walks the stages of its partition's pipeline in the order of
Table 1.4; `Query.todo` holds the stages it has not entered. -/

namespace Sys2Proof.Machine

/-- Change a query. -/
def State.modQuery (s : State) (rid : Nat) (f : Query → Query) : State := s.putQueries (kvUpd rid f s.queries)

/-- Identifiers among selection lists of a query's pool, final selection and shard merge (Table 9.1). -/
def poolLid (rid : Nat) : Nat := rid * 4
def finalLid (rid : Nat) : Nat := rid * 4 + 1
def mergeLid (rid : Nat) : Nat := rid * 4 + 2

/-- The stage of a kind in a partition's pipeline. -/
def State.stageOf (s : State) (p kind : Nat) : Option Stage := (s.pcfg p).stages.find? (fun g => g.kind == kind)

/-- The cluster that serves a partition's queries: the lowest of its mask that is not fenced (DESIGN CHOICE, log entry 51: no rule places them). -/
def State.homeCluster (s : State) (p : Nat) : Nat := ((List.range 8).find? (fun n => bitOf (s.pcfg p).clusterMask n && !s.isFenced 4 n)).getD 0

/-- The selection unit a partition's lists are asked of: unit 0 of that cluster. -/
def State.homeUnit (s : State) (p : Nat) : Nat := 2 * s.homeCluster p

/-- Whether a list is open, or waits for room. -/
def State.listAsked (s : State) (lid : Nat) : Bool := (s.selFind lid).isSome || s.sels.any (fun u => u.2.waits.any (fun w => w.lid == lid))

/-! ### Results (R205, R219, R255) -/

/-- Completion flags of a closed list: FEWER, TIE_CUT, WIDENED, SAT (Table 4.6). -/
def resultFlags (r : SelResult) (gathered : Nat) (widened : Bool) : Nat :=
  (if r.fewer then flFewer else 0) + (if 0 < r.tied then flTieCut else 0) + (if widened then flWidened else 0) + (if r.sats gathered then flSat else 0)

/-- Complete a query with a closed list (R205, R217). -/
def State.finishQuery (s : State) (rid : Nat) (q : Query) (r : SelResult) (status ok missing : Nat) (widened : Bool) : State :=
  let n := r.entries.length
  let flags := resultFlags r q.gathered widened
  let s := s.bump (cPrtQueriesDone q.part) 1
  let s := if r.fewer then s.bump (cPrtFewer q.part) 1 else s
  s.complete q.part rid status flags n q.epoch (min 0xFFFFFFFF r.tied + missing * 2 ^ 32)
    (r.bytes q.epoch q.gathered ok missing (cplFlags status n flags))

/-! ### Queries across nodes: shards at the coordinator (R218 to R220, R259) -/

/-- An empty final list of a query (Table 9.1). -/
def State.finalList (s : State) (rid : Nat) (q : Query) : SelList :=
  { owner := some rid, k := q.k, higher := (s.rerankStage q.part).isSome && s.metric q.part != 0, fp := true, dedup := true }

/-- Let the merge of a scattered query take the lists that have reached it, one after another (R259), once it is open. -/
def State.takeInputs (s : State) (rid : Nat) (q : Query) : State :=
  match s.selFind (mergeLid rid) with
  | none => s
  | some u =>
    let s := (q.inputs.drop q.mergedN).foldl (fun (t : State) (b : List Byte) => t.selMerge u (mergeLid rid) b) s
    s.modQuery rid (fun x => { x with mergedN := x.inputs.length })

/-- End a scattered query with the first failure of a shard (R220). -/
def State.endFailed (s : State) (rid : Nat) (q : Query) : State := s.complete q.part rid (q.failure.getD scRemoteError) 0 0 q.epoch 0 []

/-- Bring a scattered query as far as its shards allow: without BEST_EFFORT the first failure ends it; with every shard returned or failed and
every list merged, it completes (R219, R220). -/
def State.settleShards (s : State) (rid : Nat) : State :=
  match kvGet? rid s.queries with
  | none => s
  | some q =>
    let s := s.takeInputs rid q
    let failed := q.shards.filter (fun x => x.state == 2)
    let ok := q.shards.filter (fun x => x.state == 1)
    if q.effort = false ∧ failed ≠ [] then s.endFailed rid q
    else if q.shards.any (fun x => x.state == 0) then s
    else if ok.isEmpty then s.endFailed rid q
    else match s.selFind (mergeLid rid) with
      | none => s
      | some u => match s.selClose u (mergeLid rid) with
        | (t, some r) => t.finishQuery rid q r (if failed.isEmpty then scDone else scPartial) ok.length failed.length q.widened
        | (t, none) => t

/-- Mark the shards of a query that answer to a test. -/
def State.markShards (s : State) (rid : Nat) (f : Shard → Bool) (state status : Nat) : State :=
  s.modQuery rid (fun q => { q with
    shards := q.shards.map (fun h => if f h ∧ h.state = 0 then { h with state := state, status := status } else h)
    failure := if state = 2 ∧ q.failure.isNone = true ∧ q.shards.any (fun h => f h && h.state == 0) = true then some status else q.failure })

/-- Shards of a query that answer to a test fail: each is counted (R220). -/
def State.failShards (s : State) (rid : Nat) (q : Query) (f : Shard → Bool) (status : Nat) : State :=
  let n := (q.shards.filter (fun h => f h && h.state == 0)).length
  if n = 0 then s else ((s.markShards rid f 2 status).bump (cPrtShardFails q.part) n).settleShards rid

/-- A shard that the coordinator searches itself. -/
def Shard.isLocal (h : Shard) : Bool := h.seq.isNone

/-- End a query with a status and no results; one that fails its checks has not been executed, and reports no epoch (R124). Where a scattered
query searches as one of its own shards, that shard has failed instead (R220). -/
def State.failQuery (s : State) (rid status : Nat) : State :=
  match kvGet? rid s.queries with
  | some q =>
    if q.shards.any (fun h => h.isLocal && h.state == 0) then (s.modQuery rid (fun x => { x with todo := [], beams := [] })).failShards rid q Shard.isLocal scRemoteError
    else s.complete q.part rid status 0 0 (if q.phase = 0 then 0 else q.epoch) 0 []
  | none => s

/-! ### Beams (R209 to R211) -/

/-- The number of the visited filter's bit for local ID `n` of the segment at position `pos` (R211). -/
def visitBit (n pos : Nat) : Nat := (Nat.xor n (pos * 0x01000193) * 0x9E3779B1) % 2 ^ 32 / 2 ^ 16

/-- Put a number into a rising list without repeats. -/
def putSorted (x : Nat) : List Nat → List Nat
  | [] => [x]
  | y :: ys => if x < y then x :: y :: ys else if x = y then y :: ys else y :: putSorted x ys

/-- The gather list of the neighbours of a record: those whose bit of the visited filter is clear, with the filter after
them and the number skipped (R209, R211). -/
def visitAll (pos : Nat) : List Nat → List Nat → List Nat × List Nat × Nat
  | [], v => ([], v, 0)
  | n :: ns, v =>
    if n = 0xFFFFFFFF then ([], v, 0)
    else
      let h := visitBit n pos
      if v.contains h then let r := visitAll pos ns v; (r.1, r.2.1, r.2.2 + 1)
      else let r := visitAll pos ns (putSorted h v); (n :: r.1, r.2.1, r.2.2)

/-- Insert into a beam's entries behind equal distances (R180, R209). -/
def beamPlace (e : BeamEnt) : List BeamEnt → List BeamEnt
  | [] => [e]
  | x :: xs => if e.dist < x.dist then e :: x :: xs else x :: beamPlace e xs

/-- Insert a gathered distance into a beam that holds the best `width`. -/
def Beam.insert (b : Beam) (id dist : Nat) : Beam := { b with entries := (beamPlace { id := id, dist := dist, mark := 0 } b.entries).take b.width }

/-- Mark an entry of a beam. -/
def Beam.mark (b : Beam) (id m : Nat) : Beam :=
  { b with entries := b.entries.map (fun e => if e.id = id then { e with mark := m } else e) }

/-- MAX_DIST of a beam's descriptors: the distance of its last entry, or no limit while it is not full (R210). -/
def Beam.maxDist (b : Beam) : Nat := if b.entries.length < b.width then 0xFFFF else (b.entries.getLast?.map (fun e => e.dist)).getD 0xFFFF

/-- Request the best unrequested entries while fewer than `pre` expansions are outstanding (R209). -/
def Beam.pump (pre : Nat) : Nat → Beam → Beam
  | 0, b => b
  | f + 1, b =>
    if pre ≤ b.out.length then b
    else match b.entries.find? (fun e => e.mark == 0) with
      | none => b
      | some e => Beam.pump pre f { (b.mark e.id 1) with out := b.out ++ [(e.id, none)] }

/-- Whether a beam has ended. -/
def Beam.done (b : Beam) : Bool := b.out.isEmpty && !b.entries.any (fun e => e.mark == 0)

/-- The number that stands for the entry points among a beam's expansions. -/
def entryCand : Nat := 0xFFFFFFFF

/-- What a query gathers of local IDs of a segment for a candidate: those whose sketch can be located (R201, R210). -/
def Segment.gatherItems (g : Segment) (need : Nat × Nat × Nat) (q : Query) (maxD : Nat) (ids : List Nat) : List GatherItem :=
  match kvGet? g.setId q.sketches with
  | none => []
  | some sk => ids.filterMap (fun n => (g.locate n).map (fun x =>
      { need := need, set := g.setId, sk := sk, maxD := maxD, lid := n, chan := x.1, row := x.2.1, slot := x.2.2 }))

/-- Start a query's beams over the graph segments it searches: the entry points of each are visited and gathered (R209). The second part is what
they gather. -/
def State.startBeams (s : State) (rid : Nat) (width : Nat) : State × List GatherItem :=
  match kvGet? rid s.queries with
  | none => (s, [])
  | some q =>
    let segs := ((s.searched q.part q.epoch).zipIdx).filter (fun x => !x.1.2.delta)
    let step := fun (acc : List Beam × List Nat × List GatherItem × Nat) (x : (Nat × Segment) × Nat) =>
      let pts := x.1.2.entry.filter (fun e => e != 0xFFFFFFFF)
      let v := pts.foldl (fun v n => putSorted (visitBit n x.2) v) acc.2.1
      let b : Beam := { seg := x.1.1, pos := x.2, width := width, entries := [], out := [(entryCand, some (pts, 0xFFFF))] }
      (acc.1 ++ [b], v, acc.2.2.1 ++ x.1.2.gatherItems (rid, x.1.1, entryCand) q 0xFFFF pts, acc.2.2.2 + pts.length)
    let r := segs.foldl step ([], q.visited, [], 0)
    let s := s.modQuery rid (fun q => { q with beams := r.1, visited := r.2.1, gathered := q.gathered + r.2.2.2 })
    (if r.2.2.2 = 0 then s else s.bump (cPrtGathered q.part) r.2.2.2, r.2.2.1)

/-! ### Gather descriptors (R210) -/

/-- Row steps that one engine may make in a gather descriptor with FLUSH and 8 queries: 300 + 34 × 105 + 8 × 8.2 ns is within 4,000 ns (R175). -/
def gatherSteps : Nat := 34

/-- Whether a descriptor takes a further entry: 8 query sketches, 16 entries of a query in a bank, 1,024 entries, and the row steps of R175. -/
def GatherDesc.fits (d : GatherDesc) (x : GatherItem) : Bool :=
  let key := (x.need.1, x.set)
  d.chan == x.chan && (d.qs.any (fun y => y.1 == key) || decide (d.qs.length < 8)) && decide (d.items.length < 1024) &&
  decide ((d.items.filter (fun y => y.2.1 % 16 == x.row % 16 && y.2.2.2 == key)).length < 16) &&
  decide ((dropRepeats ((d.items.map (fun y => y.2.1) ++ [x.row]).filter (fun r => r % 16 == x.row % 16))).length ≤ gatherSteps)

/-- Add an entry to a descriptor; entries of one query against segments bound to one set share the query's sketch. -/
def GatherDesc.add (d : GatherDesc) (x : GatherItem) : GatherDesc :=
  let key := (x.need.1, x.set)
  { d with
    qs := if d.qs.any (fun y => y.1 == key) then d.qs.map (fun y => if y.1 = key then (y.1, y.2.1, max y.2.2 x.maxD) else y) else d.qs ++ [(key, x.sk, x.maxD)]
    items := d.items ++ [(x.lid, x.row, x.slot, key)]
    need := if d.need.contains x.need then d.need else d.need ++ [x.need] }

/-- Place an entry in the last descriptor of its channel, or in a further one. -/
def placeGather : List GatherDesc → GatherItem → List GatherDesc
  | [], x => [GatherDesc.add { chan := x.chan, qs := [], items := [], need := [] } x]
  | d :: ds, x => if d.fits x && !ds.any (fun e => e.chan == x.chan) then d.add x :: ds else d :: placeGather ds x

/-- Bytes of a descriptor of the node's search (Table 6.2): command, flags, width, queries, banks, ring, partition, channel, tag, rows, ID_BASE
and address-list entries. Its blocks lie where the node keeps them. -/
def searchDesc (op flags w q mask ring p c tag first count base n : Nat) : List Byte :=
  leBytes 1 op ++ leBytes 1 flags ++ leBytes 1 w ++ leBytes 1 q ++ leBytes 2 mask ++ leBytes 1 ring ++ leBytes 1 p ++ leBytes 2 c ++ leBytes 2 0 ++
  leBytes 4 tag ++ leBytes 4 first ++ leBytes 4 count ++ leBytes 4 base ++ leBytes 4 n ++ leBytes 8 (Config.scratchAddr tag 0).toNat ++
  leBytes 8 (if n = 0 then 0 else (Config.scratchAddr tag 1).toNat) ++ List.replicate 16 0

/-- An entry of a query block (Table 6.3). -/
def queryEntry (limit maxD : Nat) (sk : List Byte) : List Byte := leBytes 4 limit ++ leBytes 2 maxD ++ List.replicate 10 0 ++ sk

/-- A tag of a partition's searches that the last 2^32 have not used (DESIGN CHOICE, log entry 49: they are counted). -/
def State.nextTag (s : State) (p : Nat) : Nat × State := ((s.part p).tagNo, s.modPart p (fun x => { x with tagNo := (x.tagNo + 1) % 2 ^ 32 }))

/-- Queue a descriptor of the node's own search. -/
def State.queueOwn (s : State) (p c : Nat) (desc : List Byte) (o : OwnJob) : State :=
  s.bankQueue c { part := p, rid := none, desc := desc, fence := false, since := s.now, own := some o }

/-- Whether a descriptor or token of the node's own search that answers to a test is still queued or running. -/
def State.ownBusy (s : State) (f : OwnJob → Bool) : Bool :=
  s.bank.any (fun x => (x.2.run.toList.map (fun r => r.job) ++ x.2.jobs ++ x.2.surplus).any (fun j => match j.own with | some o => f o | none => false))

/-- The ring that gathers report in (DESIGN CHOICE, log entry 49: the last; delta scans use the others). -/
def gatherRing : Nat := 7

/-- Queue a gather descriptor and the token behind it (R210). -/
def State.queueGather (s : State) (p w : Nat) (d : GatherDesc) : State :=
  let (tag, s) := s.nextTag p
  let banks := (d.items.map (fun y => y.2.1 % 16)).eraseDups
  let desc := searchDesc 2 2 w d.qs.length ((banks.map (fun b => 2 ^ b)).foldl (· + ·) 0) gatherRing p d.chan tag 0 0 0 d.items.length
  let s := s.queueOwn p d.chan desc { need := d.need, block := d.qs.flatMap (fun y => queryEntry 0xFFFFFFFF y.2.2 y.2.1), list := d.items.flatMap (fun y => leBytes 4 y.1 ++ leBytes 4 (y.2.1 + y.2.2.1 * 2 ^ 20)) }
  s.queueOwn p d.chan (searchDesc 15 0 0 0 0 gatherRing p d.chan tag 0 0 0 0) { need := d.need, recs := banks.length * d.qs.length }

/-- Issue what is gathered together (R210): entries are placed in descriptors by channel, in order. -/
def State.issueGather (s : State) (p : Nat) (xs : List GatherItem) : State :=
  let w := ((s.sketchStage p).map (fun g => g.param % 4)).getD 0
  (xs.foldl placeGather []).foldl (fun (t : State) d => t.queueGather p w d) s

/-! ### The pool (R212, R213) -/

/-- Whether an allow-list tensor admits a local ID of a segment (R213). -/
def State.allowed (s : State) (t : Tensor) (seg lid : Nat) : Bool :=
  let n := leNat (s.readMem t.addr 4)
  match (List.range n).find? (fun i => leNat (s.readMem (t.addr + 16 + 16 * i) 2) == seg) with
  | none => false
  | some i =>
    let e := s.readMem (t.addr + 16 + 16 * i) 16
    decide (lid < fieldAt e 4 4) && bitOf (s.mem.read (t.addr + fieldAt e 8 8 + lid / 8)).toNat (lid % 8)

/-- Whether every entry of an allow-list lies inside its tensor (R213). -/
def State.allowOk (s : State) (t : Tensor) : Bool :=
  decide (16 ≤ t.bytes) &&
  (let n := leNat (s.readMem t.addr 4)
   decide (16 + 16 * n ≤ t.bytes) &&
   (List.range n).all (fun i => let e := s.readMem (t.addr + 16 + 16 * i) 16
     decide (fieldAt e 8 8 + (fieldAt e 4 4 + 7) / 8 ≤ t.bytes) && fieldAt e 8 8 % 64 == 0))

/-- Whether a candidate is eligible for a query's pool (R212). -/
def State.eligibleFor (s : State) (q : Query) (i : Nat) (g : Segment) (lid : Nat) : Bool :=
  s.visible q.part i g lid q.epoch &&
  (match q.filter with | some f => Nat.land (leNat (s.readMem (g.attrAt lid) 8)) f.1 == f.2 | none => true) &&
  (match q.allow with | some t => (match kvGet? t s.mem.tensors with | some x => s.allowed x i lid | none => false) | none => true)

/-- Charge what the check of a candidate reads (R91): its tombstone byte, its attribute word where the query filters, and its byte of the query's
allow-list. -/
def State.chargeEligible (s : State) (q : Query) (g : Segment) (lid : Nat) : State :=
  let s := s.access q.part (g.tomb + lid / 8) 1
  let s := if q.filter.isSome then s.access q.part (g.attrAt lid) 8 else s
  match q.allow.bind (fun t => kvGet? t s.mem.tensors) with
  | some x => s.access q.part x.addr 1
  | none => s

/-- Offer a candidate to a query's pool, which holds each segment and local ID once (R246): one that could not enter is not checked, and an
eligible one is inserted (R212). -/
def State.offerPool (s : State) (rid i lid dist : Nat) : State :=
  match kvGet? rid s.queries, s.selFind (poolLid rid), s.seg? ((kvGet? rid s.queries).map (fun q => q.part) |>.getD 0) i with
  | some q, some u, some g => match kvGet? (poolLid rid) (s.sel u).lists with
    | none => s
    | some l =>
      let room := decide (l.entries.length < l.k) || (match l.lastKey with | some z => decide (dist < z) | none => true)
      if room && !l.entries.any (fun e => e.seg == i && e.id == lid) then
        let s := s.chargeEligible q g lid
        if s.eligibleFor q i g lid then s.selOffer u (poolLid rid) [{ key := dist, id := lid, seg := i, node := 0, ord := 0 }] else s
      else s
  | _, _, _ => s

/-! ### Entering stages (Table 1.4) -/

/-- Kinds of the stages that a query of a partition enters, in the order of Table 1.4. -/
def State.stageKinds (s : State) (p : Nat) : List Nat := [1, 2, 4, 3, 5, 6].filter (fun k => (s.stageOf p k).isSome)

/-- Whether a request's context lies owned in the pool that a stage names; 2 keeps the present pool (R100). -/
def State.ctxIn (s : State) (rid pool : Nat) : Bool :=
  match kvGet? rid s.recs with
  | none => false
  | some r => match kvGet? r.ctx s.ctxs with
    | some c => decide (c.st = .owned) && (pool == 2 || ctxPool r.ctx == pool)
    | none => false

/-- A value as an element code of a segment's type (DESIGN CHOICE for an encoder whose OUT_TYPE is not that type). -/
def toElem (elem : Nat) (x : Num) : Nat :=
  if elem = 0 then (requant 3 0 x).1 else if elem = 2 then (requant 5 0 x).1 else if elem = 3 then (requant 6 0 x).1
  else if elem = 4 then (requant 2 0 x).1 else encodeIeee 5 10 ⟨11, -24, 5⟩ (fun _ => 0x7E00) (x.round ⟨11, -24, 5⟩)

/-- Element codes of an encoder's output row for vectors of an element type. -/
def encoded (elem outType : Nat) (bs : List Byte) (n : Nat) : List Nat :=
  (List.range n).map (fun i => toElem elem (dec32 (outToFp32 outType (outCode outType bs i))))

/-- Bytes of a vector's element codes. -/
def vecBytes (elem : Nat) (codes : List Nat) : List Byte := codes.flatMap (fun c => leBytes (vecElemBytes elem) c)

/-! ### Scattering a query (R218) -/

/-- The shards of a scattered query: node, partition, endpoint, stream (R218). -/
def State.shardMap (s : State) (c : HostCmd) (p : Nat) : List (Nat × Nat × Nat × Nat) :=
  match s.tensorOf p (c.param 64 8) with
  | none => []
  | some (_, t) => (List.range (c.param 72 2)).map (fun i => let b := s.readMem (t.addr + 8 * i) 8
      (fieldAt b 0 2, fieldAt b 2 1, fieldAt b 4 2, fieldAt b 6 2))

/-- Whether partition `p` accepts a fabric request on a stream at an endpoint (R95, R103): it serves, and the stream belongs
to it and is routed to that endpoint. -/
def State.acceptsFabric (s : State) (p ep stream : Nat) : Bool :=
  s.configured p && s.serving p &&
  decide ((s.pcfg p).streamFirst ≤ stream ∧ stream < (s.pcfg p).streamFirst + (s.pcfg p).streamCount) &&
  (s.pcfg p).routes.any (fun r => r.kind == 1 && r.target == ep && decide (r.first ≤ stream ∧ stream < r.first + r.count))

/-- Add a shard to a scattered query. -/
def State.addShard (s : State) (rid : Nat) (h : Shard) : State := s.modQuery rid (fun q => { q with
  shards := q.shards ++ [h], failure := if h.state = 2 ∧ q.failure.isNone = true then some h.status else q.failure })

/-- Send the sub-request of a shard (R218, R151). An entry that names the query's own node and partition is searched by the query itself; one
that names another partition of the node is sent to it without the fabric. -/
def State.sendShard (s : State) (rid : Nat) (q : Query) (e : Nat × Nat × Nat × Nat) : State :=
  let own := decide (e.1 = s.nodeId ∧ s.nodeId ≠ 0)
  if own && e.2.1 == q.part then
    if s.acceptsFabric q.part e.2.2.1 e.2.2.2 then s.addShard rid { node := e.1, seq := none, state := 0, status := 0 }
    else s.addShard rid { node := e.1, seq := none, state := 2, status := scRemoteError }
  else if !own && !s.reachable e.1 then s.addShard rid { node := e.1, seq := none, state := 2, status := scUnreachable }
  else
    let seq := s.fab.seqNo
    let f := q.filter.getD (0, 0)
    let bs := vecBytes q.elem q.vec
    let k : Packet := { vc := 1, ptype := 0, opcode := 0x10, dstNode := e.1, dstPart := e.2.1, dstEp := e.2.2.1, srcNode := s.nodeId, srcPart := q.part, stream := e.2.2.2, length := bs.length, resetGen := s.resetGen q.part, budget := min 0xFFFFFFFF (q.deadline - s.now), args := [q.elem, q.dims, q.k, q.beam, q.rmult, q.pre, q.filter.isSome.toNat, f.1, f.2, q.widen.toNat], data := bs }
    (s.sendRequest k (some rid) false).addShard rid { node := e.1, seq := some seq, state := 0, status := 0 }

/-- Scatter a query to its shards, counting those that cannot be reached, and open the merge of their lists (R218, R220, R246). -/
def State.scatterQuery (s : State) (rid : Nat) (q : Query) : State :=
  match kvGet? rid s.recs with
  | none => s
  | some r =>
    let s := (s.selOpen (s.homeUnit q.part) (mergeLid rid) (s.finalList rid q)).1
    let s := match s.claimedTensor r (r.cmd.param 64 8) with
      | some (_, t) => s.access q.part t.addr (8 * r.cmd.param 72 2)
      | none => s
    let s := ((s.named r).shardMap r.cmd q.part).foldl (fun (t : State) e => t.sendShard rid q e) s
    match kvGet? rid s.queries with
    | none => s
    | some q =>
      let bad := (q.shards.filter (fun x => x.state == 2)).length
      let s := if bad = 0 then s else s.bump (cPrtShardFails q.part) bad
      let s := if q.shards.any (fun x => x.isLocal && x.state == 0) then s else s.modQuery rid (fun x => { x with todo := [] })
      s.settleShards rid

/-! ### The delta scan (R214) -/

/-- The items of a delta that the engine of bank `b` of channel `c` meets, in order: local ID and sketch address. -/
def deltaItems (g : Segment) (c b : Nat) : List EngineItem :=
  let n := perRow g.width
  (g.blocks.zipIdx.filter (fun x => x.1.1 == c)).flatMap (fun x =>
    (bankRows x.1.2 g.blockRows b).flatMap (fun r => (List.range n).map (fun j =>
      (x.2 * g.blockRows * n + (r - x.1.2) * n + j, some (rowAddr c r + j * sketchBytes g.width)))))

/-- What the scan of a query's deltas by the engine of bank `b` of channel `c` returns: the best 16 of all the deltas that it searches, met in
ascending SEG_ID (R214; DEDUCED, log entry 50), each with its segment. -/
def State.scanEngine (s : State) (q : Query) (ds : List (Nat × Segment)) (c b : Nat) : List SelEntry :=
  let all := ds.flatMap (fun g => match kvGet? g.2.setId q.sketches with
    | none => []
    | some sk => ((s.engineRun g.2.width { limit := g.2.countAt q.epoch, maxD := 0xFFFF, sketch := sk } (deltaItems g.2 c b) newBList).list.entries).map (fun e => { e with seg := g.1 }))
  (newBList.list.insertAll all).entries

/-- Offer the delta candidates of one query: the entries of each channel, bank and list position in order (R214). -/
def State.offerDelta (s : State) (rid : Nat) : State :=
  match kvGet? rid s.queries with
  | none => s
  | some q =>
    let ds := (s.searched q.part q.epoch).filter (fun g => g.2.delta)
    let s := (maskChannels (s.pcfg q.part).procChannels).foldl (fun (t : State) c => (List.range 16).foldl (fun (t : State) b =>
      (s.scanEngine q ds c b).foldl (fun (t : State) e => t.offerPool rid e.seg e.id e.key) t) t) s
    s.modQuery rid (fun q => { q with delta := true })

/-- Offer them once the scan of the query's step has ended and its pool is open. -/
def State.offerScan (s : State) (rid : Nat) (q : Query) : State :=
  if !q.delta && !q.todo.contains 2 && !q.todo.contains 4 && decide (q.step < (s.part q.part).scanEnd) && (s.selFind (poolLid rid)).isSome then s.offerDelta rid else s

/-- Cut a list into pieces of at most 64. -/
def groups64 {α : Type} : Nat → List α → List (List α)
  | 0, _ => []
  | f + 1, xs => if xs.isEmpty then [] else xs.take 64 :: groups64 f (xs.drop 64)

/-- Cut `count` rows from `first` into pieces of at most `m` rows, with the local ID of each piece's first slot. -/
def rowPieces (m per : Nat) : Nat → Nat → Nat → Nat → List (Nat × Nat × Nat)
  | 0, _, _, _ => []
  | f + 1, first, count, id => if count = 0 then [] else (first, min m count, id) :: rowPieces m per f (first + m) (count - m) (id + m * per)

/-- The rows of a delta on channel `c` that hold committed vectors, in pieces that one command scans for `n` queries (R175, R201): no piece spans
two blocks, whose local IDs do not follow one another. -/
def scanPieces (g : Segment) (c n : Nat) : List (Nat × Nat × Nat) :=
  let per := perRow g.width
  let m := 16 * (30 / max 1 ((widthBits g.width * n + 16383) / 16384))
  (g.blocks.zipIdx.filter (fun x => x.1.1 == c)).flatMap (fun x =>
    let id := x.2 * g.blockRows * per
    rowPieces m per g.blockRows x.1.2 (min g.blockRows ((g.vectors - id + per - 1) / per)) id)

/-- Queue the commands that scan a delta on a channel for a group of queries, and the token behind them: one tag, opened by the first and flushed
by the last (R181, R207, R214). -/
def State.queueScan (s : State) (p step ring tag : Nat) (g : Segment) (qs : List Query) (c : Nat) : State :=
  let ps := scanPieces g c qs.length
  if ps.isEmpty then s else
  let block := qs.flatMap (fun q => queryEntry (g.countAt q.epoch) 0xFFFF (kvGetD [] g.setId q.sketches))
  let s := ps.zipIdx.foldl (fun (t : State) x =>
    let flags := (if x.2 = 0 then 0 else 1) + (if x.2 + 1 = ps.length then 2 else 0)
    t.queueOwn p c (searchDesc 1 flags g.width qs.length 0 ring p c tag x.1.1 x.1.2.1 x.1.2.2 0) { step := some (p, step), block := block }) s
  s.queueOwn p c (searchDesc 15 0 0 0 0 ring p c tag 0 0 0 0) { step := some (p, step), recs := 16 * qs.length }

/-- Start the delta scan of a step for its new queries, in groups of 64 that search one delta, each group with a ring of its own (R144, R214;
DESIGN CHOICE, log entry 49). -/
def State.startScan (s : State) (p step : Nat) (qs : List Query) : State :=
  let ds := ((s.corpus p).segs.filter (fun g => g.2.delta && qs.any (fun q => g.2.searchedAt q.epoch)))
  if (s.stageOf p 4).isNone ∨ ds.isEmpty = true then s else
  let s := s.modPart p (fun x => { x with scans := x.scans ++ [step] })
  let work := ds.flatMap (fun g => (groups64 qs.length (qs.filter (fun q => g.2.searchedAt q.epoch))).map (fun grp => (g.2, grp)))
  work.zipIdx.foldl (fun (t : State) w =>
    let (tag, t) := t.nextTag p
    (maskChannels (t.pcfg p).procChannels).foldl (fun (t : State) c => t.queueScan p step (w.2 % gatherRing) tag w.1.1 w.1.2 c) t) s

/-! ### Core phases (R153, R159) -/

/-- Whether a query's pool is final: every beam has ended and the delta candidates have been offered (R215). -/
def Query.poolFinal (q : Query) : Bool := q.phase == 2 && q.delta && q.beams.all Beam.done && (q.todo == [5, 6] || q.todo == [6] || q.todo == [5])

/-- Whether R163 has been decided for the running step of a partition. -/
def State.rerankDecided (s : State) (p : Nat) : Bool := (s.part p).rrStep == (s.part p).stepNo + 1

/-- Whether an array compares vectors of an element type for a partition (R244): fp16 never for squared L2, and otherwise only where the
partition's permissions on it allow multi-word mode with code 5. Other types always go to the arrays. -/
def State.arrayServes (s : State) (p elem a : Nat) : Bool :=
  elem != 5 || (s.metric p != 0 && bitOf (s.arrPerms p a).modes 1 && bitOf (s.arrPerms p a).types 5)

/-- Whether any array of the partition's mask does. -/
def State.arrayTakes (s : State) (p elem : Nat) : Bool := [0, 1, 2, 3].any (fun a => bitOf (s.pcfg p).arrayMask a && s.arrayServes p elem a)

/-- Whether array `a` permits the instructions of a partition's exact re-rank (R66, R227, R244): distance mode with operation 0 for squared L2,
multi-word mode for fp16 and MAC mode otherwise, with the vectors' type. -/
def State.rerankPermitted (s : State) (p elem a : Nat) : Bool :=
  let m := s.arrPerms p a
  bitOf m.types elem && (if s.metric p = 0 then bitOf m.modes 2 && bitOf m.distOps 0 else bitOf m.modes (if elem = 5 then 1 else 0))

/-- Whether an exact re-rank of a partition has an array to run on at all (R244, R245). -/
def State.rerankWants (s : State) (p : Nat) : Bool :=
  ((s.rerankStage p).map (fun g => g.place)) == some 0 && !s.arraysGone p && s.arrayTakes p (((s.segShape p).map (fun x => x.2)).getD 0)

/-- Opcodes of the commands that begin as a phase on cores: INSERT, DELETE, TABLE_LOOKUP and TABLE_UPDATE. -/
def coreOps : List Nat := [0x20, 0x21, 0x31, 0x32]

/-- Whether a request has work ready for a core (R153): it is such a command and has not begun, or a query with its pool final whose exact re-rank
runs on cores. -/
def State.coreReady (s : State) (r : Nat × Rec) : Bool :=
  match kvGet? r.1 s.queries with
  | some q => q.poolFinal && q.scored.isNone && (s.selFind (poolLid r.1)).isSome &&
      (!s.rerankWants q.part || (s.rerankDecided q.part && !(s.part q.part).rrArr))
  | none => decide (r.2.phase = .ready) && coreOps.contains r.2.cmd.opcode

/-- Whether another partition than `p` that lists cluster `n` has work ready for a core. -/
def State.othersReady (s : State) (n p : Nat) : Bool := s.recs.any (fun r => r.2.part != p && s.listsCluster r.2.part n && s.coreReady r)

/-- The privileged partition and request whose phase yields cluster `n` at a cheap point (R159): its share exceeds its weight, and another
partition has ready work. -/
def State.coreYields (s : State) (n : Nat) : Option (Nat × Nat) :=
  (s.recs.find? (fun r => decide (r.2.phase = .running) && s.listsCluster r.2.part n && (s.pcfg r.2.part).privileged &&
    !(s.part r.2.part).spill.any (fun y => y.1 == n) && decide (s.coreLack r.2.part n < 0) && s.othersReady n r.2.part)).map
    (fun r => (r.2.part, r.1))

/-- A privileged phase yields cluster `n` at a cheap point (R159): its live ranges are spilled and the yield counted (R160); it goes on at the
partition's next turn. -/
def State.yieldCluster (s : State) (n : Nat) : State :=
  match s.coreYields n with
  | some (p, rid) => (s.modPart p (fun x => { x with spill := x.spill ++ [(n, rid)] })).bump (cPrtYields p) 1
  | none => s

/-- PRIVILEGED_YIELD: a privileged owner of array `a` (0 to 3) reaches a cheap point when a switch is due: its live state is spilled, the yield
is counted and the array switches; or a privileged phase reaches one on cluster `a` - 4 (4 to 11) (R159, R160). -/
def execPrivilegedYield (a : Nat) (s : State) : Host.Outcome State Fault Refusal :=
  .next (if a < 4 then s.yieldArray a else if a < 12 then s.yieldCluster (a - 4) else s)

/-- Whether a request whose phase has given up a core waits for its partition's next turn (R159, R160): of those with ready work there, R153 does
not pick it. -/
def State.coreWaits (s : State) (rid : Nat) : Bool :=
  match kvGet? rid s.recs with
  | none => false
  | some r => (s.part r.part).spill.any (fun y => y.2 == rid &&
      s.corePick y.1 ((List.range 64).filter (fun q => q == r.part || s.recs.any (fun x => x.2.part == q && s.listsCluster q y.1 && s.coreReady x))) != some r.part)

/-- A phase of a partition has run on its home cluster. -/
def State.phaseRan (s : State) (p : Nat) : State := s.coreRan p (s.homeCluster p)

/-! ### Stages that a step's queries enter together (R144, R243) -/

/-- Open a query's candidate pool with the entries that it begins with, or let it wait for room (R215, R217, R247). -/
def State.openPool (s : State) (rid : Nat) (q : Query) : State :=
  (s.selOpen (s.homeUnit q.part) (poolLid rid) { owner := some rid, k := q.r, higher := false, fp := false, dedup := false, entries := q.pool0 }).1

/-- A query leaves a stage. -/
def State.leave (s : State) (rid k : Nat) : State := s.modQuery rid (fun x => { x with todo := x.todo.filter (fun y => y != k) })

/-- Context pool of a stage; 2 keeps the present one (R100). -/
def State.stagePool (s : State) (p k : Nat) : Nat := ((s.stageOf p k).map (fun g => g.pool)).getD 2

/-- The new queries of a step that have a stage to come, and answer to a test. -/
def State.stepQueries (s : State) (p step k : Nat) (f : Query → Bool) : List (Nat × Query) :=
  s.queries.filter (fun x => x.2.part == p && x.2.phase == 2 && x.2.step == step && x.2.todo.contains k && f x.2)

/-- Whether every one of a list of queries stands before stage `k` with its context in the stage's pool, and none waits for a core. -/
def State.allAt (s : State) (p k : Nat) (xs : List (Nat × Query)) : Bool :=
  !xs.isEmpty && xs.all (fun x => x.2.todo.head? == some k && s.ctxIn x.1 (s.stagePool p k) && !s.coreWaits x.1)

/-- Fail a list of queries with a status. -/
def State.failAll (s : State) (xs : List (Nat × Query)) (status : Nat) : State := xs.foldl (fun (t : State) x => (t.dropArrWork x.1).failQuery x.1 status) s

/-- Whether the model in a tensor may run now for queries of a partition that stand before a stage at `place`, the first of them speaking for all
(R154, R239, R242). -/
def State.stageMayRun (s : State) (p place ti : Nat) (xs : List (Nat × Query)) : Bool × State :=
  let rid := (xs.head?.map (fun x => x.1)).getD 0
  s.mayRun p place rid ti

/-- The status with which the array that runs a stage's model refuses it (R227). -/
def State.stageRefused (s : State) (p place : Nat) (t : Tensor) : Option Nat :=
  if place ≠ 0 ∨ s.arraysGone p = true then none else (s.ownedArray p).bind (fun a => s.modelRefused a p t (s.headOf t))

/-- Refuse a stage's model for its queries, counted on the array. -/
def State.refuseStage (s : State) (p : Nat) (xs : List (Nat × Query)) (status : Nat) : State :=
  (match s.ownedArray p with | some a => s.bump (cMxaRefused a) 1 | none => s).failAll xs status

/-- A model's input rows for a query's raw bytes: ROWS_PER_INPUT rows, zeros where the bytes are too few. -/
def ModelHead.rowsOf (h : ModelHead) (raw : List Byte) : List Byte :=
  let n := h.rowsPer * elemBytes h.inType h.inElems
  raw.take n ++ List.replicate (n - raw.length) 0

/-- Give a query the vector that the encoder's output row holds; a zero vector under cosine ends it with `BAD_COMMAND` (R204). -/
def State.takeVector (s : State) (rid : Nat) (h : ModelHead) (row : List Byte) : State :=
  match kvGet? rid s.queries with
  | none => s
  | some q =>
    let (dims, elem) := (s.segShape q.part).getD (h.outElems, 0)
    let v := encoded elem h.outType row dims
    if (s.rerankStage q.part).isSome && s.metric q.part == 2 && (v.map (decodeElem elem)).all Num.isZero then s.failQuery rid scBadCommand
    else s.modQuery rid (fun x => { x with vec := v, elem := elem, dims := dims })

/-- The encode stage of a step: one run of the encoder for all its queries with raw input; the first output row of each is its vector (R243). -/
def State.encodeStep (s : State) (p step : Nat) : State :=
  let xs := s.stepQueries p step 1 (fun q => q.vec.isEmpty)
  if !s.allAt p 1 xs then s
  else if s.arraysGone p then s.failAll xs scFence
  else match (xs.head?.bind (fun x => x.2.models.1)).bind (fun i => (kvGet? i s.mem.tensors).map (fun t => (i, t))) with
  | none => s.failAll xs scBadHandle
  | some (ti, t) =>
    let m := s.stageMayRun p 0 ti xs
    if !m.1 then m.2
    else match m.2.stageRefused p 0 t with
    | some st => m.2.refuseStage p xs st
    | none =>
      let h := s.headOf t
      let (o, s) := m.2.runModel t (h.rowsPer * xs.length) (xs.flatMap (fun x => h.rowsOf x.2.raw))
      let s := match s.ownedArray p with | some a => s.countRun a p t o | none => s
      let rowOut := h.rowsPer * outElemBytes h.outType h.outElems
      xs.zipIdx.foldl (fun (t : State) x => (t.dropArrWork x.1.1).takeVector x.1.1 h ((o.bytes.drop (x.2 * rowOut)).take rowOut)) s

/-- Give a query its sketches, one for each threshold set of the segments that it searches (R166, R169), and open its pool. -/
def State.takeSketches (s : State) (rid : Nat) (q : Query) (y : List Nat) : State :=
  let sets := (s.searched q.part q.epoch).map (fun x => x.2.setId)
  let sks := sets.foldl (fun (m : KV (List Byte)) i => match kvGet? i (s.corpus q.part).sets with
    | some x => kvPut i (sketchOf y (s.thresholds x)) m
    | none => m) []
  (((s.countNans q.part y).modQuery rid (fun x => { x with sketches := sks })).leave rid 2).openPool rid q

/-- The sketch stage of a step: one projection of all its new queries (R243), then their sketches. -/
def State.sketchStep (s : State) (p step : Nat) : State :=
  let xs := s.stepQueries p step 2 (fun q => !(s.searched p q.epoch).isEmpty)
  if !s.allAt p 2 xs then s
  else match s.stageOf p 2, (xs.head?.bind (fun x => x.2.models.2)).bind (fun i => (kvGet? i s.mem.tensors).map (fun t => (i, t))) with
  | some g, some (ti, t) =>
    let m := s.stageMayRun p g.place ti xs
    if !m.1 then m.2
    else match m.2.stageRefused p g.place t with
    | some st => m.2.refuseStage p xs st
    | none =>
      let (ys, s) := m.2.project p (m.2.runsOn p g.place ((xs.head?.map (fun x => x.1)).getD 0)) t xs.length (xs.flatMap (fun x => vecBytes x.2.elem x.2.vec))
      (xs.zip ys).foldl (fun (t : State) x => (t.dropArrWork x.1.1).takeSketches x.1.1 x.1.2 x.2) s
  | _, _ => s.failAll xs scBadHandle

/-- The bank-scan stage of a step: with the contexts of its new queries in the stage's pool (R31) its one delta scan begins (R144); a query that
searches no delta has none to wait for. -/
def State.scanStep (s : State) (p step : Nat) : State :=
  let xs := s.stepQueries p step 4 (fun _ => true)
  if !s.allAt p 4 xs then s
  else
    let s := xs.foldl (fun (t : State) x =>
      let none := !(t.searched p x.2.epoch).any (fun g => g.2.delta)
      (t.modQuery x.1 (fun y => { y with delta := y.delta || none })).leave x.1 4) s
    s.startScan p step (xs.map (fun x => x.2))

/-- The traverse stage of a step: the beams of its queries whose pool is open start together, and what they gather is one issue (R209, R210); a
widened retry starts with twice the width (R217). -/
def State.traverseStep (s : State) (p step : Nat) : State :=
  let xs := (s.stepQueries p step 3 (fun q => q.todo.head? == some 3)).filter (fun x => s.ctxIn x.1 (s.stagePool p 3) && (s.selFind (poolLid x.1)).isSome && !s.coreWaits x.1)
  let r := xs.foldl (fun (acc : State × List GatherItem) x =>
    let b := (acc.1.leave x.1 3).startBeams x.1 (if x.2.retried then 2 * x.2.beam else x.2.beam)
    (b.1, acc.2 ++ b.2)) (s, [])
  r.1.issueGather p r.2

/-! ### The end of a query: final selection and widened retry (R215, R217, R219) -/

/-- Hand a query's own list to its merge, once for each shard entry that it serves (R218). -/
def State.mergeLocal (s : State) (rid : Nat) (q : Query) (r : SelResult) : State :=
  let n := (q.shards.filter (fun h => h.isLocal && h.state == 0)).length
  let b := r.bytes q.epoch q.gathered 0 0 (resultFlags r q.gathered q.retried)
  ((s.modQuery rid (fun x => { x with inputs := x.inputs ++ List.replicate n b, todo := [], widened := x.widened || q.retried })).markShards rid Shard.isLocal 1 0).settleShards rid

/-- What follows the final selection of a query: a widened retry where it asks for one, otherwise its result (R215, R217, R219). The retry runs
every graph beam again from a pool that holds the previous one; it keeps its delta candidates. -/
def State.endSelection (s : State) (rid : Nat) (q : Query) (r : SelResult) : State :=
  if r.fewer ∧ q.widen = true ∧ q.retried = false then
    let s := s.bump (cPrtWidened q.part) 1
    let q' : Query := { q with
      visited := [], retried := true, first := some r, beams := [], scored := none, streamed := false, gath0 := q.gathered
      todo := [3, 5, 6].filter (fun k => (s.stageOf q.part k).isSome) }
    (s.modQuery rid (fun _ => q')).openPool rid q'
  else if q.shards.any (fun h => h.isLocal && h.state == 0) then s.mergeLocal rid q r
  else s.finishQuery rid q r scDone 0 0 q.retried

/-- The final selection of a query whose candidates are scored: its list opens, or waits for room, takes them, and closes (R215, R246). -/
def State.selectFinal (s : State) (rid : Nat) (q : Query) : State :=
  match q.scored with
  | none => s
  | some (xs, n) =>
    let s := if s.listAsked (finalLid rid) then s else (s.selOpen (s.homeUnit q.part) (finalLid rid) (s.finalList rid q)).1
    match s.selFind (finalLid rid) with
    | none => s
    | some u =>
      let s := s.selOffer u (finalLid rid) xs
      let s := s.modSel u (fun y => { y with lists := kvUpd (finalLid rid) (fun l => { l with reranked := n }) y.lists })
      match s.selClose u (finalLid rid) with
      | (t, some r) => t.endSelection rid q r
      | (t, none) => t

/-! ### Going on (R153) -/

/-- Whether a query's delta scan or beams are under way: until they end its context stays where it is (R31). -/
def Query.busy (q : Query) : Bool := (!q.delta && !q.todo.contains 4) || q.beams.any (fun b => !b.done)

/-- Offer the context of a request to the other pool (R100, step 1). -/
def State.offerCtx (s : State) (rid : Nat) : State :=
  match kvGet? rid s.recs with
  | none => s
  | some r => s.putCtxs (kvUpd r.ctx (fun (c : Ctx) => if c.st = .owned ∧ c.retry = none then { c with st := .offered, since := s.now } else c) s.ctxs)

/-- Take a query past its next stage boundary where it can go on by itself: its context moves (R100), a query with a vector leaves encode and is
scattered (R218), one that searches nothing leaves sketch, and a scored one is selected. One that has given up its core waits (R159). -/
def State.advance (s : State) (rid : Nat) : State :=
  match kvGet? rid s.queries with
  | none => s
  | some q =>
    if q.phase ≠ 2 ∨ s.coreWaits rid = true then s
    else if s.clustersGone q.part then s.failQuery rid scFence
    else
      let s := s.offerScan rid q
      match q.todo with
      | [] => s.settleShards rid
      | k :: _ =>
        if !s.ctxIn rid (s.stagePool q.part k) then (if q.busy then s else s.offerCtx rid)
        else if k = 1 then
          if q.vec.isEmpty then s
          else let s := s.leave rid 1; if q.scatter then (match kvGet? rid s.queries with | some x => s.scatterQuery rid x | none => s) else s
        else if k = 2 then (if (s.searched q.part q.epoch).isEmpty then (s.leave rid 2).openPool rid q else s)
        else
          let s := if (s.stageOf q.part 2).isNone && q.scored.isNone && !s.listAsked (poolLid rid) then s.openPool rid q else s
          if k = 4 ∨ k = 3 then s
          else s.selectFinal rid q

/-- Stages that the queries of a partition have still to enter. -/
def State.stagesLeft (s : State) (p : Nat) : Nat := ((s.queries.filter (fun x => x.2.part == p)).map (fun x => x.2.todo.length)).foldl (· + ·) 0

/-- A phase that cores may take: a query by itself (`stage` 0, `key` its request), or the queries of step `key` together at a stage. -/
structure CorePhase where
  part  : Nat
  stage : Nat
  key   : Nat
deriving DecidableEq, Repr

/-- The phases of a partition's queries: each query alone, then each step's queries together, stage by stage (R144). -/
def State.phasesOf (s : State) (p : Nat) : List CorePhase :=
  let mine := s.queries.filter (fun x => x.2.part == p && x.2.phase == 2)
  mine.map (fun x => { part := p, stage := 0, key := x.1 }) ++
    ((mine.map (fun x => x.2.step)).eraseDups).flatMap (fun n => [1, 2, 4, 3].map (fun k => { part := p, stage := k, key := n }))

/-- Run a phase as far as it can go. Core time is noted where it goes on (R153). -/
def State.servePhase (s : State) (x : CorePhase) : State :=
  let t := if x.stage = 0 then s.advance x.key else if x.stage = 1 then s.encodeStep x.part x.key else if x.stage = 2 then s.sketchStep x.part x.key
    else if x.stage = 4 then s.scanStep x.part x.key else s.traverseStep x.part x.key
  if t.stagesLeft x.part < s.stagesLeft x.part then t.phaseRan x.part else t

/-- Whether a phase works for a request. -/
def State.phaseFor (s : State) (x : CorePhase) (rid : Nat) : Bool :=
  match kvGet? rid s.queries with
  | some q => x.part == q.part && (if x.stage = 0 then x.key == rid else x.key == q.step)
  | none => false

/-- The phase that a cluster takes next of those listed: one requeued first (R401), or else the first of the partition that R153 picks. -/
def State.nextPhase (s : State) : List CorePhase → Option CorePhase
  | [] => none
  | y :: ys =>
    let n := s.homeCluster y.part
    let mine := (y :: ys).filter (fun x => s.homeCluster x.part == n)
    match s.flt.ahead.findSome? (fun rid => mine.find? (fun x => s.phaseFor x rid)) with
    | some x => some x
    | none => (s.corePick n (mine.map (fun x => x.part)).eraseDups).bind (fun p => mine.find? (fun x => x.part == p))

/-- Run phases one after another, each time the one that is next (R153). -/
def State.serveRound : Nat → List CorePhase → State → State
  | 0, _, s => s
  | f + 1, xs, s => match s.nextPhase xs with
    | none => s
    | some x => State.serveRound f (xs.erase x) (s.servePhase x)

/-- Partitions with queries in a step, in rising order. -/
def State.busyParts (s : State) : List Nat := (List.range 64).filter (fun p => s.queries.any (fun x => x.2.part == p && x.2.phase == 2))

/-- Run every phase of the partitions with queries in a step once; those requeued have then been taken first. -/
def State.serveAll (s : State) : State :=
  let xs := s.busyParts.flatMap s.phasesOf
  if xs.isEmpty then s else
  (State.serveRound xs.length xs s).modFlt (fun t => { t with
    ahead := t.ahead.filter (fun rid => match kvGet? rid s.queries with | some x => x.phase != 2 | none => false) })

/-- Let every query go on that can: list requests that find room open, and in each of eight rounds, one for each stage and boundary, the phases
that can begin do. -/
def State.resume (s : State) : State :=
  let s := s.sels.foldl (fun (t : State) u => if u.2.waits.isEmpty then t else t.selServeUnit u.1) s
  (List.range 8).foldl (fun (t : State) _ => t.serveAll) s

/-- Whether a field is 0 or in a range. -/
def zeroOr (v lo hi : Nat) : Bool := v == 0 || (decide (lo ≤ v) && decide (v ≤ hi))

/-- Bytes of input a query names. -/
def HostCmd.queryBytes (c : HostCmd) : Nat := c.param 24 4

/-- The checks of R204 with status BAD_COMMAND, on the parameters. -/
def State.queryFieldsOk (s : State) (p : Nat) (c : HostCmd) (sub : Bool) : Bool :=
  let kind := c.param 0 1
  let fl := c.param 10 2
  let elem := c.param 1 1
  let dims := c.param 2 2
  (sub || (c.resultAddr != 0 && c.resultAddr % 64 == 0)) && decide (kind < 2) && decide (fl < 16) &&
  (if kind = 1 then (s.stageOf p 1).isSome && elem == 0 && dims == 0 && decide (1 ≤ c.queryBytes ∧ c.queryBytes ≤ 65536)
   else segElem elem && (match s.segShape p with | some x => x == (dims, elem) | none => true) &&
     c.queryBytes == dims * vecElemBytes elem) &&
  zeroOr (c.param 4 2) 1 1024 && zeroOr (c.param 6 2) 64 1024 && zeroOr (c.param 8 1) 1 64 && zeroOr (c.param 9 1) 1 16 &&
  (!bitOf fl 0 || Nat.land (c.param 40 8) (c.param 32 8) == c.param 40 8) &&
  !(bitOf fl 2 && (bitOf fl 1 || c.param 56 8 != 0)) &&
  (!bitOf fl 2 || decide (1 ≤ c.param 72 2 ∧ c.param 72 2 ≤ 256)) &&
  decide (c.param 56 8 ≤ (s.corpus p).epoch)

/-- Whether a query's vector is checked: under cosine it must not be zero (R204). -/
def State.vecChecked (s : State) (p : Nat) (c : HostCmd) : Bool := c.param 0 1 == 0 && (s.rerankStage p).isSome && s.metric p == 2

/-- Whether a query's vector may be scored (R204). -/
def State.queryVecOk (s : State) (p : Nat) (c : HostCmd) (vec : List Nat) : Bool :=
  !(s.vecChecked p c && (vec.map (decodeElem (c.param 1 1))).all Num.isZero)

/-- The checks of R204 with status BAD_COMMAND, on the parameters and the vector. -/
def State.queryOk (s : State) (p : Nat) (c : HostCmd) (sub : Bool) (vec : List Nat) : Bool := s.queryFieldsOk p c sub && s.queryVecOk p c vec

/-- Entries that a query asks for: K of the command, of the select stage, or 10 (Table 7.3). -/
def State.queryK (s : State) (p : Nat) (c : HostCmd) : Nat :=
  let k := (((s.pcfg p).stages.find? (fun g => g.kind == 6)).map (fun g => g.param % 2 ^ 16)).getD 0
  if c.param 4 2 ≠ 0 then c.param 4 2 else if k ≠ 0 then k else 10

/-- The checks of a host `QUERY` that come before its input is read (R204): its fields, then the address of the input. -/
def State.queryInCheck (s : State) (p : Nat) (c : HostCmd) : Option Nat :=
  if !s.queryFieldsOk p c false then some scBadCommand else if !s.addrOk p (c.param 16 8) c.queryBytes then some scBadHandle else none

/-- The checks of a host `QUERY` that need no host memory (R204): its fields, then its addresses, allow-list and shard map. -/
def State.queryCheck (s : State) (p : Nat) (c : HostCmd) (sub : Bool) : Option Nat :=
  let fl := c.param 10 2
  if !s.queryFieldsOk p c sub then some scBadCommand
  else if !sub && (!s.addrOk p (c.param 16 8) c.queryBytes || !s.resultOk p c.resultAddr (64 + 16 * s.queryK p c)) then some scBadHandle
  else if (bitOf fl 1 && (match s.tensorOf p (c.param 48 8) with | some a => !s.allowOk a.2 | none => true)) ||
      (bitOf fl 2 && (match s.tensorOf p (c.param 64 8) with | some m => decide (m.2.bytes < 8 * c.param 72 2) | none => true)) then some scBadHandle
  else none

/-- Whether an AS_OF is still held (R204, R208). -/
def State.asOfHeld (s : State) (p e : Nat) : Bool := e == 0 || (decide (s.foldNow p ≤ e) && !(s.corpus p).freed.any (fun x => decide (x.1 ≤ e ∧ e < x.2)))

/-- Begin a query's step (R144): every stage is still to be entered, and its models are those bound now (R238). -/
def State.beginQuery (s : State) (rid step : Nat) : State :=
  match kvGet? rid s.queries with
  | none => s
  | some q =>
    let ks := s.stageKinds q.part
    let kinds := (if ks.contains 1 then [] else [1]) ++ ks
    let vec := if q.sub then vecCodes q.elem q.dims q.raw else q.vec
    let enc := (s.stageOf q.part 1).bind (fun g => (s.binding q.part (g.param % 256)).map (fun b => b.tensor))
    if q.sub && !(match kvGet? rid s.recs with | some r => s.queryOk q.part r.cmd true vec | none => true) then s.failQuery rid scBadCommand else
    s.modQuery rid (fun x => { x with
      phase := 2, started := true, step := step, todo := kinds, vec := vec, delta := !ks.contains 4
      models := (enc, (s.projModel q.part).map (fun m => m.1)) })

/-! ### QUERY (R203, R204) -/

/-- QUERY: its input is read and checked (R203, R204), a vector that may not be scored before what else the command names (order 3 of Table 4.2
comes before order 4); it then waits for its batch step (R144). -/
def execQuery (p q cid : Nat) (input : List Byte) (s : State) : Host.Outcome State Fault Refusal :=
  match s.readyRec p q cid 0x10 with
  | none => .next s
  | some (rid, r) => match kvGet? rid s.queries with
    | none => .next s
    | some qy =>
      if qy.phase ≠ 0 then .next s else
      let c := r.cmd
      if let some st := (s.named r).queryInCheck p c then .next (s.failQuery rid st)
      else
        let (bs, t) := s.readInput p r.flow (c.param 16 8) c.queryBytes input
        let vec := if c.param 0 1 = 0 then vecCodes (c.param 1 1) (c.param 2 2) bs else []
        let allow := if bitOf (c.param 10 2) 1 then s.claimedTensor r (c.param 48 8) else none
        if !s.queryVecOk p c vec then .next (s.failQuery rid scBadCommand)
        else if let some st := (s.named r).queryCheck p c false then .next (s.failQuery rid st)
        else if !s.asOfHeld p (c.param 56 8) then .next (s.failQuery rid scEpochRetired)
        else .next ((t.modQuery rid (fun x => { x with phase := 1, vec := vec, raw := bs, allow := allow.map (fun a => a.1) })).modRec rid
          (fun r => { r with phase := .running }))

/-! ### The delta scan ends (R214) -/

/-- DELTA_SCAN_DONE: the tokens of a step's delta scan, the oldest one under way, have completed: for each new query of the step its engine lists
are offered to its pool (R144, R214). -/
def execDeltaScanDone (p : Nat) (s : State) : Host.Outcome State Fault Refusal :=
  match (s.part p).scans with
  | [] => .next s
  | st :: rest =>
    if s.ownBusy (fun o => o.step == some (p, st)) then .next s
    else .next ((s.modPart p (fun x => { x with scans := rest, scanEnd := st + 1 })).resume)

/-! ### Traversal events (R209) -/

/-- Change the beam of a query over a segment. -/
def State.modBeam (s : State) (rid seg : Nat) (f : Beam → Beam) : State :=
  s.modQuery rid (fun q => { q with beams := q.beams.map (fun b => if b.seg = seg then f b else b) })

/-- The beam of a query over a segment. -/
def State.beamOf (s : State) (rid seg : Nat) : Option (Query × Beam) :=
  (kvGet? rid s.queries).bind (fun q => (q.beams.find? (fun b => b.seg == seg)).map (fun b => (q, b)))

/-- Expansion `c` of a beam ends: the candidate is expanded and further ones are requested. -/
def Beam.expand (b : Beam) (pre c : Nat) : Beam :=
  let b : Beam := { (b.mark c 2) with out := b.out.filter (fun x => x.1 != c) }
  b.pump pre 17

/-- After a beam has moved: once every beam of a query has ended, the query may go on. -/
def State.beamMoved (s : State) (rid : Nat) : State :=
  match kvGet? rid s.queries with
  | some q => if q.beams.all Beam.done then s.resume else s
  | none => s

/-- TRAVERSE_ADJACENCY_ARRIVAL: the adjacency record of a requested candidate arrives: its unvisited neighbours are gathered, as an issue of their
own (R209 to R211); an empty list completes the expansion at once. -/
def execTraverseAdjacencyArrival (rid seg cand : Nat) (s : State) : Host.Outcome State Fault Refusal :=
  match s.beamOf rid seg with
  | none => .next s
  | some (q, b) => match b.out.find? (fun x => x.1 == cand), s.seg? q.part seg with
    | some (_, none), some g =>
      if s.coreWaits rid then .next s else
      let s := s.phaseRan q.part
      let a := g.adjAt cand
      let ns := (List.range g.degree).map (fun i => leNat (s.readMem (a + 4 * i) 4))
      let (l, v, skips) := visitAll b.pos ns q.visited
      let s := s.access q.part a (4 * g.degree)
      let s := if skips = 0 then s else s.bump (cPrtVisitSkips q.part) skips
      let s := s.modQuery rid (fun q => { q with visited := v, gathered := q.gathered + l.length })
      if l.isEmpty then .next ((s.modBeam rid seg (fun b => b.expand q.pre cand)).beamMoved rid)
      else
        let s := (s.bump (cPrtGathered q.part) l.length).modBeam rid seg (fun b => { b with out := b.out.map (fun x => if x.1 = cand then (cand, some (l, b.maxDist)) else x) })
        .next (s.issueGather q.part (g.gatherItems (rid, seg, cand) q b.maxDist l))
    | _, _ => .next s

/-- The distance of a stored sketch from a query's, none where it cannot be read (R402) or its distance passes the limit of
the descriptors (R210). -/
def State.gatherDist (s : State) (q : Query) (g : Segment) (maxD lid : Nat) : Option Nat :=
  match g.sketchAt lid, kvGet? g.setId q.sketches with
  | some a, some sk =>
    if s.mem.isDamaged a (sketchBytes g.width) then none
    else let d := hamming (s.readMem a (sketchBytes g.width)) sk; if d ≤ maxD then some d else none
  | _, _ => none

/-- TRAVERSE_DISTANCES_ARRIVAL: the gathered distances of a candidate's neighbours arrive, once the tokens behind their descriptors have completed
(R210): each enters the beam and is offered to the pool, in list order; the candidate is expanded (R209, R212). -/
def execTraverseDistancesArrival (rid seg cand : Nat) (s : State) : Host.Outcome State Fault Refusal :=
  match s.beamOf rid seg with
  | none => .next s
  | some (q, b) => match b.out.find? (fun x => x.1 == cand), s.seg? q.part seg with
    | some (_, some (l, maxD)), some g =>
      if s.ownBusy (fun o => o.need.contains (rid, seg, cand)) || s.coreWaits rid then .next s
      else
        let s := s.phaseRan q.part
        let got := l.filterMap (fun n => (s.gatherDist q g maxD n).map (fun d => (n, d)))
        let s := got.foldl (fun (t : State) x => (t.modBeam rid seg (fun b => b.insert x.1 x.2)).offerPool rid seg x.1 x.2) s
        .next ((s.modBeam rid seg (fun b => b.expand q.pre cand)).beamMoved rid)
    | _, _ => .next s

/-! ### Exact re-rank (R163, R215 to R217, R243, R244) -/

/-- Candidates in a query's pool. -/
def State.poolEntries (s : State) (rid : Nat) : List SelEntry :=
  match s.selFind (poolLid rid) with
  | some u => match kvGet? (poolLid rid) (s.sel u).lists with | some l => l.entries | none => []
  | none => []

/-- Queries of a partition in a step that are still to be re-ranked. -/
def State.reranking (s : State) (p : Nat) : List (Nat × Query) :=
  s.queries.filter (fun q => q.2.part == p && q.2.phase == 2 && q.2.scored.isNone && q.2.todo.contains 5)

/-- Whether the pool of every query in the step is final, so that its rows can be counted (R243). A query that waits for room in a selection unit
has none, and is not waited for, since its room may be that of another's pool. -/
def State.poolsFinal (s : State) (p : Nat) : Bool :=
  (s.reranking p).all (fun q => q.2.retried || (if (s.selFind (poolLid q.1)).isSome then q.2.poolFinal else s.listAsked (poolLid q.1)))

/-- Candidates that a query brings to the count of R243: those in its pool; one that waits for room counts R, the most that it may bring
(DESIGN CHOICE, log entry 51). -/
def State.rerankRows (s : State) (q : Nat × Query) : Nat := if (s.selFind (poolLid q.1)).isSome then (s.poolEntries q.1).length else q.2.r

/-- Decide, once for each step, whether exact re-rank runs on an array (R163, R243): the step's candidates divided by its
query blocks, against SMALL_BATCH_ROWS. -/
def State.decideRerank (s : State) (p : Nat) : State :=
  if s.rerankDecided p then s
  else
    let qs := s.reranking p
    let cands := qs.foldl (fun n q => n + s.rerankRows q) 0
    let blocks := max 1 ((qs.length + 511) / 512)
    let arr := decide ((s.pcfg p).smallBatch ≤ cands / blocks)
    let s := s.modPart p (fun y => { y with rrStep := y.stepNo + 1, rrArr := arr })
    if arr then s else s.bump (cPrtSmallBatch p) 1

/-- Numbers of candidates by block of up to 512 queries. -/
def blockSums : Nat → List Nat → List Nat
  | 0, _ => []
  | f + 1, ns => if ns.isEmpty then [] else (ns.take 512).foldl (· + ·) 0 :: blockSums f (ns.drop 512)

/-- Array steps and instructions that stream `n` rows behind one tile, up to 4,096 rows an instruction (R224). -/
def streamSteps (n : Nat) : Nat := n / 4096 * 4096 + (if n % 4096 = 0 then 0 else max (n % 4096) 512)
def streamInstrs (n : Nat) : Nat := (n + 4095) / 4096

/-- Stream the candidates of the queries that are ready through array `a` (R244): blocks of up to 512 queries, each behind one tile for every 512
positions of the vectors; the array's counters count them. -/
def State.streamStep (s : State) (p a : Nat) : State :=
  let xs := (s.reranking p).filter (fun x => x.2.poolFinal && !x.2.streamed && (s.selFind (poolLid x.1)).isSome)
  let ns := blockSums xs.length (xs.map (fun x => (s.poolEntries x.1).length))
  let (dims, elem) := (s.segShape p).getD (0, 0)
  let chunks := (dims + 511) / 512
  let passes := if elem = 5 then 4 else 1
  let steps := chunks * passes * (ns.map streamSteps).foldl (· + ·) 0
  let s := xs.foldl (fun (t : State) x => t.modQuery x.1 (fun q => { q with streamed := true })) s
  if steps = 0 then s else
  (((s.bump (cMxaSteps a) steps).addMeter p 6 steps).bump (cMxaRows a) (chunks * passes * ns.foldl (· + ·) 0)).bump (cMxaInstrs a)
    (chunks * (ns.map streamInstrs).foldl (· + ·) 0)

/-- Whether bytes cannot be read: damaged, or in Tier F lost at the flash layer (R216, R402). -/
def State.unreadable (s : State) (a n : Nat) : Bool :=
  s.mem.isDamaged a n || (tierOf a == some 3 && (List.range ((a + n - 1) / 16384 - a / 16384 + 1)).any (fun i => s.unitBad (a / 16384 + i)))

/-- Whether a candidate's vector, vector ID or norm cannot be read (R216): the address. -/
def State.rerankDamage (s : State) (g : Segment) (lid : Nat) : Option Nat :=
  if s.unreadable (g.vecAt lid) g.stride then some (g.vecAt lid)
  else if s.mem.isDamaged (g.idAt lid) 8 then some (g.idAt lid)
  else if g.norm ≠ 0 ∧ s.mem.isDamaged (g.normAt lid) 4 = true then some (g.normAt lid)
  else none

/-- The reads of a re-ranked candidate (R91, R215, R216): its vector, whose units of Tier F are read at the flash layer, its ID map entry and its
norm; one that cannot be read is reported and drops it. -/
def State.rerankReads (s : State) (p : Nat) (e : SelEntry) : State :=
  match s.seg? p e.seg with
  | none => s
  | some g =>
    let a := g.vecAt e.id
    let bad := s.rerankDamage g e.id
    let s := ((s.access p a g.stride).access p (g.idAt e.id) 8).access p (g.normAt e.id) (if g.norm = 0 then 0 else 4)
    let s := if tierOf a = some 3 then (s.readUnits p (a / 16384) ((a + g.stride - 1) / 16384 - a / 16384 + 1)).2 else s
    match bad with
    | none => s
    | some x => let s := s.bump (cPrtRerankDrops p) 1; if tierOf x = some 3 then s else s.uncorrectableAt p x

/-- The exact score of a pool entry (R215, R244). -/
def State.scoreOf (s : State) (q : Query) (g : Segment) (lid : Nat) (arr : Bool) : Nat :=
  let m := s.metric q.part
  let x := vecCodes g.elem g.dims (s.readMem (g.vecAt lid) g.vecLen)
  let y := if arr then arrScore m g.elem 9 q.vec x none else coreScore m g.elem q.vec x
  if m = 2 then enc32 (Num.mul fmt32 (Num.mul fmt32 y (dec32 (leNat (s.readMem (g.normAt lid) 4)))) (invNorm (q.vec.map (decodeElem q.elem))))
  else enc32 y

/-- Score the entries of a pool: those that can be read go on to the final selection (R215, R216). -/
def State.scoreAll (s : State) (q : Query) (arr rerank : Bool) (es : List SelEntry) : List SelEntry :=
  es.filterMap (fun e => (s.seg? q.part e.seg).bind (fun g =>
    if (s.rerankDamage g e.id).isSome then none
    else some { key := if rerank then s.scoreOf q g e.id arr else enc32 (Num.ofInt e.key), id := s.vecId g e.id, seg := e.seg,
                node := if q.sub || q.scatter then s.nodeId else 0xFFFF, ord := 0 }))

/-- A result that becomes final at the instant at which its query has ended otherwise is discarded and counted (R98, R150). -/
def State.lateResult (s : State) (rid : Nat) : State :=
  match s.parts.find? (fun x => x.2.traces.any (fun y => y.rid == rid)) with
  | none => s
  | some (p, _) => s.lateEnds p (fun y => y.rid == rid)

/-- Re-rank a query on an array or on cores: its candidates are scored, its pool closes, and it goes on to its final selection (R215). -/
def State.rerank (s : State) (rid : Nat) (q : Query) (arr : Bool) : State :=
  let es := s.poolEntries rid
  let rr := (s.rerankStage q.part).isSome
  let xs := s.scoreAll q arr rr es
  let s := es.foldl (fun (t : State) e => t.rerankReads q.part e) (s.dropArrWork rid)
  let s := (s.selClose ((s.selFind (poolLid rid)).getD 0) (poolLid rid)).1
  let s := if arr then s else s.phaseRan q.part
  (s.modQuery rid (fun x => { x with scored := some (xs, if rr then xs.length else 0), pool0 := es, todo := [6] })).resume

/-- EXACT_RERANK: with the pool final, the candidates are scored exactly, the best K selected, and the query completes or
retries (R215 to R217). Whether an array or cores score them is decided once every pool of the step is final (R163); on the array path it waits,
with its work queued, until the partition owns an array (R154), which refuses what the partition's permissions on it do not allow (R227). -/
def execExactRerank (rid : Nat) (s : State) : Host.Outcome State Fault Refusal :=
  match kvGet? rid s.queries with
  | none => .next (s.lateResult rid)
  | some q =>
    let p := q.part
    let stage := s.rerankStage p
    let elem := ((s.segShape p).map (fun x => x.2)).getD 0
    if !q.poolFinal || q.scored.isSome || (s.selFind (poolLid rid)).isNone || s.coreWaits rid then .next s
    else if !s.ctxIn rid (s.stagePool p (q.todo.headD 6)) then .next (s.offerCtx rid)
    else if stage.isSome ∧ s.metric p = 2 ∧ (s.poolEntries rid).any (fun e => match s.seg? p e.seg with | some g => g.norm == 0 | none => false) = true then
      .next (s.failQuery rid scBadHandle).resume
    else if !s.rerankWants p then .next (s.rerank rid q false)
    else if !s.rerankDecided p && !s.poolsFinal p then .next s
    else
      let s := s.decideRerank p
      if !(s.part p).rrArr then .next (s.rerank rid q false)
      else match s.ownedArray p with
        | none => .next (s.queueArrWork p rid)
        | some a =>
          if !s.arrayServes p elem a then .next (s.rerank rid q false)
          else if !s.rerankPermitted p elem a then .next (s.refuseStage p [(rid, q)] scBadCommand).resume
          else .next ((if q.streamed then s else s.streamStep p a).rerank rid q true)

/-! ### Queries across nodes (R218 to R220) -/

/-- A shard fails (R220). -/
def State.shardFailed (s : State) (rid seq status : Nat) : State :=
  match kvGet? rid s.queries with
  | none => s
  | some q => s.failShards rid q (fun h => h.seq == some seq) status

/-- SHARD_FAILURE: a shard's failure becomes known (R220). -/
def execShardFailure (seq status : Nat) (s : State) : Host.Outcome State Fault Refusal :=
  match kvGet? seq s.fab.out with
  | none => .next s
  | some o => if o.kind = 0x10 then .next (((s.endRequest seq).shardFailed (o.rid.getD 0) seq status).resume) else .next s

/-- SHARD_RESPONSE_ARRIVAL: a shard's list is merged; one whose query has ended is discarded and counted (R151, R219). -/
def execShardResponseArrival (pkt : Packet) (s : State) : Host.Outcome State Fault Refusal :=
  let s := s.taken pkt
  if s.isLate pkt then .next (s.discardLate pkt) else
  match kvGet? pkt.seq s.fab.out with
  | none => .next (s.bump (cPrtOrphanResponses pkt.dstPart) 1)
  | some o =>
    if o.kind ≠ 0x10 then .next s else
    let s := s.endRequest pkt.seq
    match (o.rid.bind (fun rid => (kvGet? rid s.queries).map (fun q => (rid, q)))) with
    | none => .next (s.bump (cPrtOrphanResponses o.part) 1)
    | some (rid, q) =>
      if !q.shards.any (fun h => h.seq == some pkt.seq && h.state == 0) then .next (s.bump (cPrtOrphanResponses o.part) 1)
      else if pkt.args.headD scRemoteError ≠ scDone then .next (s.shardFailed rid pkt.seq scRemoteError).resume
      else
        let own := if pkt.srcNode = s.nodeId then fieldAt pkt.data 36 4 else 0
        let s := s.modQuery rid (fun x => { x with
          inputs := x.inputs ++ [pkt.data], widened := x.widened || bitOf (fieldAt pkt.data 44 2) 2, gathered := x.gathered + own })
        .next (((s.markShards rid (fun h => h.seq == some pkt.seq) 1 0).settleShards rid).resume)

/-- Where a request packet came from. -/
def reqOrigin (k : Packet) : FabOrigin := { node := k.srcNode, part := k.srcPart, endpoint := k.srcEp, seq := k.seq, resetGen := k.resetGen }

/-- Admit a fabric request, or let it wait for a context in the partition's buffer of 64 entries, or refuse it (R95, R99). -/
def State.admitFabric (s : State) (k : Packet) (cmd : HostCmd) : State :=
  let p := k.dstPart
  if !s.acceptsFabric p k.dstEp k.stream then s.refuseFabric p k.dstEp (reqOrigin k) k.opcode
  else
    let wait := fun (_ : Unit) => if 64 ≤ (s.part p).waiting.length then (s.refuseFabric p k.dstEp (reqOrigin k) k.opcode).bump (cPrtRefusedFabric p) 1
      else s.modPart p (fun x => { x with waiting := x.waiting ++ [{ origin := (reqOrigin k), cmd := cmd, ep := k.dstEp, arrived := s.now, extra := k.data }] })
    if !(s.part p).waiting.isEmpty then wait ()
    else match s.admitRec p k.dstEp (some (reqOrigin k)) cmd s.fetchNo (s.entryPool p) k.data with
      | some (_, t) => t.putFetchNo (t.fetchNo + 1)
      | none => wait ()

/-- The command that a query sub-request stands for (R218, R151). -/
def queryCmd (k : Packet) (now : Nat) : HostCmd :=
  let a := fun (i : Nat) => k.args.getD i 0
  { opcode := 0x10, cflags := (if a 9 = 1 then 4 else 0), cid := 0, stream := k.stream, resv6 := 0,
    deadline := max 1 (now + k.budget - 320 * k.dist), statusAddr := 0, resultAddr := 0,
    params := leBytes 1 0 ++ leBytes 1 (a 0) ++ leBytes 2 (a 1) ++ leBytes 2 (a 2) ++ leBytes 2 (a 3) ++ leBytes 1 (a 4) ++ leBytes 1 (a 5) ++
      leBytes 2 (a 6) ++ leBytes 4 0 ++ leBytes 8 0 ++ leBytes 4 k.data.length ++ leBytes 4 0 ++ leBytes 8 (a 7) ++ leBytes 8 (a 8) ++ List.replicate 48 0 }

/-- SHARD_SUBREQUEST_ARRIVAL: a query sub-request is admitted as a query of its partition, or refused (R95, R151, R218). One
whose parameters do not suit the partition ends as R204 gives. -/
def execShardSubrequestArrival (pkt : Packet) (s : State) : Host.Outcome State Fault Refusal :=
  let s := s.taken pkt
  let rid := s.nextRec
  let c := queryCmd pkt s.now
  let s := s.admitFabric pkt c
  match kvGet? rid s.recs, kvGet? rid s.queries with
  | some r, some q =>
    let s := s.modRec rid (fun r => { r with phase := .running })
    if !s.queryOk q.part r.cmd true (vecCodes q.elem q.dims q.raw) then .next (s.failQuery rid scBadCommand)
    else .next s
  | _, _ => .next s

end Sys2Proof.Machine
end

