-- ==== Sys2Proof/Machine/CollOps.lean ====
section
/-! DEFINITION. Collectives over the tree (R374 to R377), the shared operations: messages on VC6, reports that combine up the tree,
the anchor's result that descends it, failures. The messages' layout and OPCODEs within PTYPE 4 are no part of the spec (DESIGN
CHOICE). -/

namespace Sys2Proof.Machine

/-- Messages of a collective: a report that a subtree is done, the anchor's result, a request to start (on its way up to the anchor),
the start itself, data on its way up and down, a failure. -/
def ckDone : Nat := 0
def ckResult : Nat := 1
def ckAsk : Nat := 2
def ckStart : Nat := 3
def ckDataUp : Nat := 4
def ckDataDown : Nat := 5
def ckFail : Nat := 6

/-- Whether this node is a member: it has an ID in the map in force (R367); and whether it is the anchor of the tree. -/
def State.isMember (s : State) : Bool := s.nodeId != 0 && (kvGet? s.nodeId s.fab.topo).isSome
def State.isRoot (s : State) : Bool := s.isMember && s.fab.parent == 0

/-- Send a collective message on VC6 to a tree neighbour, under a SEQ of its own, by which its fragments are told from those of another. -/
def State.sendColl (s : State) (dst kind id op count lost mask : Nat) (data : List Byte) : State :=
  let seq := s.fab.seqNo
  let s := s.modFab (fun f => { f with seqNo := (seq + 1) % 2 ^ 32 })
  s.handPacket { vc := 6, ptype := 4, opcode := kind, dstNode := dst, srcNode := s.nodeId, seq := seq, length := 32 + data.length, dist := s.distTo dst, args := [id, op, count, lost, mask], data := data }

/-- Send to every child. -/
def State.sendKids (s : State) (kind id op count lost mask : Nat) (data : List Byte) : State :=
  s.fab.kids.foldl (fun (t : State) n => t.sendColl n kind id op count lost mask data) s

/-- The collective with an ID; change it; remove it. -/
def State.coll? (s : State) (id : Nat) : Option Coll := kvGet? id s.fab.colls
def State.modColl (s : State) (id : Nat) (f : Coll → Coll) : State := s.modFab (fun x => { x with colls := kvUpd id f x.colls })
def State.dropColl (s : State) (id : Nat) : State := s.modFab (fun x => { x with colls := kvDel id x.colls })

/-- Broadcasts held here for an OP 2 that has not been issued. -/
def State.heldBroadcasts (s : State) : Nat := (s.fab.colls.filter (fun c => c.2.data.isSome && c.2.rid.isNone)).length

/-- Whether broadcast data that descends to this node finds its OP 2 issued, or one of the four buffers free (R375). -/
def State.dataRoom (s : State) (kind id : Nat) : Bool :=
  !(kind == ckDataDown || (kind == ckDataUp && s.isRoot)) || (match s.coll? id with | some c => c.rid.isSome | none => false) ||
  decide (s.heldBroadcasts < 4)

/-- Complete the local command of a collective, if it has one. -/
def State.completeColl (s : State) (c : Coll) (status count r0 r1 : Nat) (res : List Byte) : State :=
  match c.rid with
  | none => s
  | some rid => match kvGet? rid s.recs with
    | none => s
    | some r => s.complete r.part rid status 0 count r0 r1 res

/-- A collective ends at this node with the anchor's result: COUNT the members that completed their part, RESULT0 the members at the
start, RESULT1 the LOST channels of a snapshot (R375, R376). -/
def State.endColl (s : State) (id count lost : Nat) : State :=
  match s.coll? id with
  | none => s
  | some c =>
    let s := (s.dropColl id).sendKids ckResult id c.op count lost 0 []
    s.completeColl c scDone count c.members (if c.op = 4 then lost else 0) (if c.op = 2 then c.data.getD [] else [])

/-- A collective fails at this node: counted, its command ends with the status, and the neighbours in the tree hear of it but the one it
came from (R377). -/
def State.failColl (s : State) (id status from_ : Nat) : State :=
  match s.coll? id with
  | none => s
  | some c =>
    let s := (s.dropColl id).bump cFabCollFails 1
    let ns := ((if s.fab.parent = 0 then [] else [s.fab.parent]) ++ s.fab.kids).filter (fun n => n != from_)
    let s := ns.foldl (fun (t : State) n => t.sendColl n ckFail id c.op status 0 0 []) s
    s.completeColl c status 0 c.members 0 []

/-- A collective goes on where the local part is done and every child has reported: the anchor ends it, another member reports to its
parent. -/
def State.stepColl (s : State) (id : Nat) : State :=
  match s.coll? id with
  | none => s
  | some c =>
    if !c.done ∨ c.reports.contains s.nodeId = true ∨ s.fab.kids.any (fun n => !c.reports.contains n) = true then s
    else if s.isRoot then s.endColl id (c.count + 1) c.lost
    else (s.modColl id (fun c => { c with reports := c.reports ++ [s.nodeId] })).sendColl s.fab.parent ckDone id c.op (c.count + 1) c.lost 0 []

/-- The local part of a collective is done. -/
def State.doneColl (s : State) (id : Nat) : State := (s.modColl id (fun c => { c with done := true })).stepColl id

/-- A collective seen here first through a message or a command. -/
def State.openColl (s : State) (id op mask : Nat) (rid : Option Nat) (issuer : Bool) : State :=
  let c : Coll := { op := op, rid := rid, issuer := issuer, members := s.fab.topo.length, started := s.now, reports := [], count := 0, lost := 0, data := none, done := false, mask := mask }
  s.modFab (fun x => { x with colls := kvPut id c x.colls })

end Sys2Proof.Machine
end

