-- ==== Sys2Proof/Machine/Updates.lean ====
section
/-! DEFINITION. Live updates and segment rebuild (spec/10): inserts and deletes, their preparation and commit, builds and
imports of segments, publication, retirement, folding of tombstones and freeing. -/

namespace Sys2Proof.Machine

/-- The reserved vector ID (R198). -/
def noVector : Nat := 0xFFFFFFFFFFFFFFFF

/-- A reserved local ID or unused slot. -/
def noLocal : Nat := 0xFFFFFFFF

/-- The period that an admission stamp falls in (R142, R143). -/
def State.periodOf (s : State) (p t : Nat) : Nat := t / ((s.pcfg p).periodUs * 1000)

/-- Opcodes of the commands of R263. -/
def isUpdate (op : Nat) : Bool := op == 0x20 || op == 0x21 || op == 0x24 || op == 0x25

/-- The open update commands of a partition that were admitted before a request. -/
def State.updatesAhead (s : State) (p rid : Nat) : List (Nat × Rec) :=
  s.recs.filter (fun r => r.2.part == p && isUpdate r.2.cmd.opcode && r.2.fab.isNone && decide (r.1 < rid))

/-- Builds of a partition that seal its delta and were admitted before a request (R272). -/
def State.sealsAhead (s : State) (p rid : Nat) : List (Nat × Rec) :=
  s.recs.filter (fun r => r.2.part == p && r.2.cmd.opcode == 0x22 && bitOf (r.2.cmd.param 0 1) 0 && r.2.fab.isNone && decide (r.1 < rid))

/-- Whether an update command is the next to join the update sequence, which runs in order of admission (R263): every one admitted before it has
joined, or ended, and every seal admitted before it has been made, so that a seal takes effect at admission (R272). -/
def State.updateTurn (s : State) (p rid : Nat) : Bool :=
  (s.updatesAhead p rid).all (fun r => decide (r.2.phase = .running)) && (s.sealsAhead p rid).all (fun r => decide (r.2.phase = .running))

/-- Join the update sequence (R263). -/
def State.joinUpdates (s : State) (p : Nat) (u : Upd) : State :=
  (s.modCorpus p (fun c => { c with updates := c.updates ++ [u], youngRes := c.youngRes + u.tomb, locRes := c.locRes + u.loc })).modRec u.rid
    (fun r => { r with phase := .running })

/-! ### Deltas (R271, R272) -/

/-- Seal the current delta. -/
def State.sealDelta (s : State) (p : Nat) : State :=
  match (s.corpus p).current with
  | none => s
  | some i => ((s.modSeg p i (fun g => { g with closed := true })).modCorpus p (fun c => { c with current := none })).bump (cPrtDeltaSeals p) 1

/-- Deltas that a partition holds. -/
def State.deltas (s : State) (p : Nat) : List (Nat × Segment) := (s.corpus p).segs.filter (fun g => g.2.delta)

/-- Vectors of all deltas of a partition, those not yet committed included. -/
def State.deltaRows (s : State) (p : Nat) : Nat := (s.deltas p).foldl (fun n g => n + g.2.next) 0

/-- Tier that a code of `PRT_p_DELTA_CFG` names; 2 is read as 1. -/
def tierCode (v : Nat) : Nat := if v = 2 then 1 else v

/-- Start a new current delta for vectors of a shape (R271): none where a quota is passed or no SEG_ID is free. -/
def State.startDelta (s : State) (p elem dims : Nat) : Option State :=
  let c := s.corpus p
  match s.freeSeg p, s.sketchStage p, c.curSet.bind (fun i => (kvGet? i c.sets).map (fun t => (i, t))) with
  | some i, some st, some (si, t) =>
    let cfg := rPrtDeltaCfg p
    let units := s.fld cfg fPrtDeltaCfg_CAPACITY_64K
    let cap := (if units = 0 then 128 else units) * 65536
    let rows := s.fld (rPrtSearchCfg p) fPrtSearchCfg_DELTA_BLOCK_ROWS
    let meta0 := s.fld cfg fPrtDeltaCfg_META_TIER
    let g : Segment := { delta := true, width := st.param % 4, setId := si, setVer := t.version, degree := 0, elem := elem, dims := dims, vectors := 0, entry := [], blockRows := if rows = 0 then 10 else rows, blocks := [], stride := vecStride elem dims, pub := none, ret := none, adj := 0, vec := 0, attr := 0, idmap := 0, tomb := 0, norm := 0, commitAt := 0, commits := [], closed := false, cap := cap, next := 0, buildEp := 0, sources := [], origin := [], dead := [], tensors := [], areas := [] }
    (s.allocSegment p g cap 0 (tierCode (s.fld cfg fPrtDeltaCfg_VEC_TIER)) (if 1 < meta0 then 1 else meta0) .delta).map (fun x =>
      (x.2.putSegment p i x.1).modCorpus p (fun c => { c with current := some i }))
  | _, _, _ => none

/-- Make a current delta with room for `n` more rows: the present one, or a new one after a seal (R271, R272). None where
the limits of deltas or a quota forbid it. -/
def State.deltaFor (s : State) (p elem dims n : Nat) : Option (Nat × State) :=
  let fits := match (s.corpus p).current.bind (fun i => (s.seg? p i).map (fun g => (i, g))) with
    | some (i, g) => if g.next + n ≤ g.cap then some i else none
    | none => none
  if 16777216 < s.deltaRows p + n then none
  else match fits with
  | some i => some (i, s)
  | none =>
    let s := s.sealDelta p
    if 4 ≤ (s.deltas p).length then none
    else (s.startDelta p elem dims).bind (fun t => (t.corpus p).current.map (fun i => (i, t)))

/-! ### INSERT and DELETE (R266 to R270) -/

/-- The 8-byte numbers of a byte list. -/
def words8 (bs : List Byte) (n : Nat) : List Nat := (List.range n).map (fun i => fieldAt bs (8 * i) 8)

/-- Whether ELEM and DIMS suit the partition (R266): those of its segments, or, for the first, those of its projection
model. -/
def State.shapeOk (s : State) (p elem dims : Nat) : Bool :=
  segElem elem && decide (16 ≤ dims ∧ dims ≤ 4096) && dims % 16 == 0 &&
  (match s.segShape p with | some x => x == (dims, elem) | none => true) &&
  (match s.projModel p, s.sketchStage p with
   | some t, some st => st.place != 0 || (s.headOf t.2).inElems == dims
   | _, _ => true)

/-- Assign local IDs to the items of an insert, in item order (R267). -/
def assignRows (seg : Nat) : Nat → List Nat → List UpdItem
  | _, [] => []
  | n, id :: ids =>
    if id = noVector then { id := id, row := none, status := scBadCommand, seg := seg } :: assignRows seg n ids
    else { id := id, row := some n, status := scDone, seg := seg } :: assignRows seg (n + 1) ids

/-- The checks of `INSERT` before those of quotas (R267). -/
def State.insertCheck (s : State) (p : Nat) (c : HostCmd) : Option Nat :=
  let elem := c.param 0 1
  let n := c.param 4 4
  if s.sketchStage p = none ∨ (s.pcfg p).procChannels = 0 then some scNotBridled
  else if s.shapeOk p elem (c.param 2 2) = false ∨ n = 0 ∨ 4096 < n then some scBadCommand
  else if s.projModel p = none ∨ (s.corpus p).curSet = none ∨ s.addrOk p (c.param 8 8) (n * c.param 2 2 * vecElemBytes elem) = false ∨
      s.addrOk p (c.param 16 8) (8 * n) = false ∨ s.addrOk p (c.param 24 8) (8 * n) = false ∨ s.resultOk p c.resultAddr (8 * n) = false then some scBadHandle
  else none

/-- INSERT: checked, its space reserved and its rows given local IDs of the current delta (R266, R267, R271, R272), once every update command
admitted before it has joined the sequence, so that local IDs run in commit order (R202, R263). -/
def execInsert (p q cid : Nat) (vecs ids attrs : List Byte) (s : State) : Host.Outcome State Fault Refusal :=
  match s.readyRec p q cid 0x20 with
  | none => .next s
  | some (rid, r) =>
    if !s.updateTurn p rid then .next s else
    let c := r.cmd
    let elem := c.param 0 1
    let dims := c.param 2 2
    let n := c.param 4 4
    let replace := bitOf (c.param 1 1) 0
    if s.allocHeld then .next s
    else if let some st := (s.named r).insertCheck p c then .next (s.fail p rid st)
    else
      let (vb, s1) := s.readInput p r.flow (c.param 8 8) (n * dims * vecElemBytes elem) vecs
      let (ib, s1) := s1.readInput p r.flow (c.param 16 8) (8 * n) ids
      let (ab, s1) := if c.param 24 8 = 0 then (List.replicate (8 * n) 0, s1) else s1.readInput p r.flow (c.param 24 8) (8 * n) attrs
      let idl := words8 ib n
      let rows := (idl.filter (fun i => i != noVector)).length
      match s1.deltaFor p elem dims rows with
      | none => .next (s1.refuse p rid scQuota (s1.overQuota p (fun v => (v.deltaFor p elem dims rows).isSome)))
      | some (i, t) =>
        let t := t.modCorpus p (fun c => { c with locRes := c.locRes + n })
        if t.quotaOf p 1 < t.useOf p 1 then .next (s1.refuse p rid scQuota true)
        else if replace = true ∧ s.youngFree p < n then .next ((s1.bump (cPrtTombFull p) 1).fail p rid scQuota)
        else
          let t := t.modCorpus p (fun c => { c with locRes := c.locRes - n })
          let first := ((t.seg? p i).map (fun g => g.next)).getD 0
          let u : Upd := { rid := rid, op := 0x20, period := s.periodOf p r.stamp, prepared := false, seg := i, replace := replace, items := assignRows i first idl, vecs := vb, attrs := ab, projs := [], ids1 := [], ids2 := [], tomb := if replace then n else 0, loc := n }
          .next (((t.modSeg p i (fun g => { g with next := g.next + rows })).startLoop p).joinUpdates p u)

/-- The checks of `DELETE` before that of the young tombstone table (R270). -/
def State.deleteCheck (s : State) (p : Nat) (c : HostCmd) : Option Nat :=
  let n := c.param 0 4
  if n = 0 ∨ 4096 < n then some scBadCommand
  else if s.addrOk p (c.param 8 8) (8 * n) = false ∨ s.resultOk p c.resultAddr (8 * n) = false then some scBadHandle
  else none

/-- DELETE: reserves young tombstone entries and joins the update sequence (R270). -/
def execDelete (p q cid : Nat) (ids : List Byte) (s : State) : Host.Outcome State Fault Refusal :=
  match s.readyRec p q cid 0x21 with
  | none => .next s
  | some (rid, r) =>
    if !s.updateTurn p rid then .next s else
    let c := r.cmd
    let n := c.param 0 4
    if let some st := (s.named r).deleteCheck p c then .next (s.fail p rid st)
    else
      let (ib, s) := s.readInput p r.flow (c.param 8 8) (8 * n) ids
      if s.youngFree p < n then .next ((s.bump (cPrtTombFull p) 1).fail p rid scQuota)
      else
        let items := (words8 ib n).map (fun i => ({ id := i, row := none, status := scDone, seg := 0 } : UpdItem))
        let u : Upd := { rid := rid, op := 0x21, period := s.periodOf p r.stamp, prepared := false, seg := 0, replace := false, items := items, vecs := [], attrs := [], projs := [], ids1 := [], ids2 := [], tomb := n, loc := 0 }
        .next (s.joinUpdates p u)

/-! ### Preparation (R264, R268) -/

/-- Change an update command of a partition. -/
def State.modUpd (s : State) (p rid : Nat) (f : Upd → Upd) : State :=
  s.modCorpus p (fun c => { c with updates := c.updates.map (fun u => if u.rid = rid then f u else u) })

/-- Whether a vector copied into a built segment carries its source's tombstone at a publish (R280): its source retires
with it and the source copy has a tombstone, which lies above the build epoch since the copy was visible there. -/
def State.carried (s : State) (p : Nat) (rets : List Nat) (o : Option (Nat × Nat)) : Bool :=
  match o with
  | none => false
  | some (si, sl) => rets.contains si && (match s.seg? p si with
    | some g => s.tombBit g sl || (s.corpus p).young.any (fun t => t.1 == si && t.2.1 == sl)
    | none => false)

/-- Vectors of an ADD segment that need a young tombstone for the copy they supersede (R280). -/
def State.supersedes (s : State) (p : Nat) (rets : List Nat) (g : Segment) : List Nat :=
  (List.range g.vectors).filter (fun l => !g.dead.contains l && !s.tombBit g l && !s.carried p rets (g.origin[l]?) &&
    (match kvGet? (s.vecId g l) (s.corpus p).locator with | some o => !rets.contains o.1 | none => false))

/-- Vectors of the segments that a publish adds which supersede a copy elsewhere, and so need a young tombstone (R280). -/
def State.supersedeCount (s : State) (p : Nat) (adds rets : List Nat) : Nat :=
  adds.foldl (fun n i => n + ((s.seg? p i).map (fun g => (s.supersedes p rets g).length)).getD 0) 0

/-- Write the rows of an insert into its delta, with sketches of the delta's threshold set (R268). -/
def State.prepareInsert (s : State) (p : Nat) (u : Upd) (t : Tensor) (place : Nat) : State :=
  match s.seg? p u.seg with
  | none => s.modUpd p u.rid (fun u => { u with prepared := true })
  | some g =>
    let (ys, s) := s.project p (s.runsOn p place u.rid) t u.items.length u.vecs
    let th := match kvGet? g.setId (s.corpus p).sets with | some x => s.thresholds x | none => []
    let s := u.items.zipIdx.foldl (fun (st : State) (x : UpdItem × Nat) => match x.1.row with
      | none => st
      | some lid =>
        let y := ys.getD x.2 []
        (st.writeRow p g lid (sketchOf y th) ((u.vecs.drop (x.2 * g.vecLen)).take g.vecLen) (fieldAt u.attrs (8 * x.2) 8) x.1.id).countNans p y) s
    s.modUpd p u.rid (fun u => { u with prepared := true, projs := ys })

/-- Prepare an update command other than an insert: a publish reserves the tombstone entries that its supersession needs, as far as they are
free (R264, R279). -/
def State.prepareOther (s : State) (p : Nat) (u : Upd) : State :=
  let n := if u.op = 0x24 then min (s.youngFree p) (s.supersedeCount p u.ids1 u.ids2) else 0
  (s.modUpd p u.rid (fun u => { u with prepared := true, tomb := u.tomb + n })).modCorpus p (fun c => { c with youngRes := c.youngRes + n })

/-- UPDATE_PREPARE: in the period after its admission an update command is prepared: an insert's rows are sketched and
written (R264, R268). An insert that projects on an array waits, with its work queued, until the partition owns one. -/
def execUpdatePrepare (p q cid : Nat) (s : State) : Host.Outcome State Fault Refusal :=
  match s.recOf p q cid with
  | none => .next s
  | some (rid, _) => match (s.corpus p).updates.find? (fun u => u.rid == rid && !u.prepared) with
    | none => .next s
    | some u =>
      if s.periodOf p s.now ≤ u.period then .next s
      else if u.op ≠ 0x20 then .next ((s.prepareOther p u).phaseRan p)
      else
        let place := ((s.sketchStage p).map (fun g => g.place)).getD 1
        match s.projModel p with
        | none => .next (s.modUpd p rid (fun u => { u with prepared := true }))
        | some (ti, t) =>
          let g := s.mayRun p place rid ti
          .next (if g.1 then ((g.2.prepareInsert p u t place).dropArrWork rid).phaseRan p else g.2)

/-! ### Commit (R264, R265, R268 to R270, R280, R281) -/

/-- Result entries of an update command (R269). -/
def itemBytes (xs : List (Nat × Nat × Nat)) : List Byte := xs.flatMap (fun x => leBytes 1 x.1 ++ [0] ++ leBytes 2 x.2.1 ++ leBytes 4 x.2.2)

/-- The status of a batch (R269): DONE when all items are, DONE_PARTIAL when some are, otherwise that of the first. -/
def batchStatus (sts : List Nat) : Nat :=
  if sts.all (· == scDone) then scDone else if sts.any (· == scDone) then scPartial else sts.headD scDone

/-- What the items of a commit have done so far: outcomes (status, segment, local ID), and copies replaced. -/
structure CommitAcc where
  outs     : List (Nat × Nat × Nat)
  replaced : Nat
  earlier  : List Nat
deriving DecidableEq, Repr

/-- Make the row of an inserted item dead (R268). -/
def State.deadRow (s : State) (p seg lid : Nat) : State :=
  match s.seg? p seg with | some g => s.setTomb p g lid | none => s

/-- Mark dead the copies of an ID that unpublished segments hold (Table 10.2). -/
def State.markDead (s : State) (p id : Nat) : State :=
  (s.unpubHolders p id).foldl (fun (t : State) h => (t.modSeg p h.1 (fun g => { g with dead := g.dead ++ [h.2] })).putBuilds
    (kvMapVals (fun _ (b : Build) => if b.part = p ∧ b.seg = h.1 then { b with draft := b.draft.map (fun g => { g with dead := g.dead ++ [h.2] }) } else b) t.builds)) s

/-- One inserted item at its commit, at the first case of Table 10.2 that applies. -/
def State.commitItem (s : State) (p c : Nat) (replace : Bool) (x : UpdItem) (ys : List Nat) (a : CommitAcc) : State × CommitAcc :=
  match x.row with
  | none => (s, { a with outs := a.outs ++ [(scBadCommand, x.seg, noLocal)] })
  | some lid =>
    let live := kvGet? x.id (s.corpus p).locator
    let held := s.unpubHolders p x.id
    let bad := !replace && (live.isSome || !held.isEmpty || a.earlier.contains x.id)
    let a := { a with earlier := a.earlier ++ [x.id] }
    if bad then (s.deadRow p x.seg lid, { a with outs := a.outs ++ [(scBadCommand, x.seg, lid)] })
    else
      let s := match live with
        | some o => s.addYoung p o.1 o.2 c
        | none => s.markDead p x.id
      let s := s.modCorpus p (fun k => { k with locator := kvPut x.id (x.seg, lid) k.locator })
      (s.feedLoop p ys, { a with
        outs := a.outs ++ [(scDone, x.seg, lid)]
        replaced := a.replaced + (if live.isSome ∨ held ≠ [] then 1 else 0) })

/-- Counters of a committed update command. -/
def State.countItems (s : State) (p op : Nat) (sts : List Nat) (replaced : Nat) : State :=
  let ok := (sts.filter (· == scDone)).length
  let s := if ok = 0 then s else s.bump (if op = 0x20 then cPrtInserted p else cPrtDeleted p) ok
  let s := if replaced = 0 then s else s.bump (cPrtReplaced p) replaced
  if ok = sts.length then s else s.bump (cPrtItemFails p) (sts.length - ok)

/-- Append to the commit table of a delta (R202), in its area too: its total once an epoch's inserts are included; the first sets
PUBLISH_EPOCH (R271); a table of 65,535 entries seals the delta (R272). -/
def State.commitRows (s : State) (p seg rows c : Nat) : State :=
  if rows = 0 then s else
  let s := (s.modSeg p seg (fun g => { g with
    vectors := g.vectors + rows
    commits := g.commits.filter (fun x => x.1 != c) ++ [(c, g.vectors + rows)]
    pub := some (g.pub.getD c) })).writeDesc p seg
  let s := match s.seg? p seg with
    | some g => s.writePart p (g.commitAt + 16 * (g.commits.length - 1)) (leBytes 8 c ++ leBytes 4 g.vectors ++ leBytes 4 0)
    | none => s
  match s.seg? p seg with
  | some g => if (s.corpus p).current = some seg ∧ 65535 ≤ g.commits.length then s.sealDelta p else s
  | none => s

/-- Commit an insert at epoch `c`. -/
def State.commitInsert (s : State) (p c : Nat) (u : Upd) : State :=
  let rows := (u.items.filter (fun x => x.row.isSome)).length
  let (s, a) := u.items.zipIdx.foldl (fun (acc : State × CommitAcc) (x : UpdItem × Nat) =>
    acc.1.commitItem p c u.replace x.1 (u.projs.getD x.2 []) acc.2) (s, { outs := [], replaced := 0, earlier := [] })
  let s := s.commitRows p u.seg rows c
  let sts := a.outs.map (fun x => x.1)
  let s := s.countItems p 0x20 sts a.replaced
  s.complete p u.rid (batchStatus sts) 0 (sts.filter (· == scDone)).length c (u.seg * 2 ^ 32 + a.replaced) (itemBytes a.outs)

/-- Commit a delete at epoch `c` (R270). The SEG_ID of an item that names no live ID is a free value. -/
def State.commitDelete (s : State) (p c : Nat) (u : Upd) : State :=
  let (w, s) := s.fresh
  let none16 := w.toNat % 65536
  let (s, outs) := u.items.foldl (fun (acc : State × List (Nat × Nat × Nat)) x =>
    match kvGet? x.id (acc.1.corpus p).locator with
    | some o => ((acc.1.addYoung p o.1 o.2 c).modCorpus p (fun k => { k with locator := kvDel x.id k.locator }), acc.2 ++ [(scDone, o.1, o.2)])
    | none => (acc.1, acc.2 ++ [(scBadHandle, none16, noLocal)])) (s, ([] : List (Nat × Nat × Nat)))
  let sts := outs.map (fun x => x.1)
  let s := s.countItems p 0x21 sts 0
  s.complete p u.rid (batchStatus sts) 0 (sts.filter (· == scDone)).length c 0 (itemBytes outs)

/-- The checks of R279, at admission and at commit, in the order of R124: those on a segment that has been found (a source that RETIRE omits, a
segment already retired) come after order 4 and before order 5. Answers the refusal's status, if any; `self` is the command's own record. -/
def State.publishCheck (s : State) (p self : Nat) (adds rets : List Nat) : Option Nat :=
  let c := s.corpus p
  let all := adds ++ rets
  let others := (c.updates.filter (fun u => u.rid != self)).flatMap (fun u => u.ids1 ++ u.ids2)
  let needs := adds.any (fun i => match s.seg? p i with | some g => g.sources.any (fun x => !rets.contains x) | none => false)
  if all.isEmpty || rets.any (fun i => c.current == some i) || all.eraseDups.length != all.length || all.any (fun i => others.contains i) then
    some scBadCommand
  else if adds.any (fun i => match s.seg? p i with | some g => g.delta || g.pub.isSome | none => true) then some scBadHandle
  else if rets.any (fun i => match s.seg? p i with | some g => g.pub.isNone | none => true) then some scBadHandle
  else if needs then some scBadCommand
  else if rets.any (fun i => ((s.seg? p i).bind (fun g => g.ret)).isSome) then some scEpochRetired
  else if s.youngFree p < s.supersedeCount p adds rets then some scQuota
  else none

/-- Count a publish that is refused for want of young tombstone entries (Table 10.9). -/
def State.notePublish (s : State) (p status : Nat) : State := if status = scQuota then s.bump (cPrtTombFull p) 1 else s

/-- Retire a segment at epoch `e`: its live vectors stop being live (R281). -/
def State.retireAt (s : State) (p i e : Nat) : State :=
  ((s.modSeg p i (fun g => { g with ret := some e })).writeDesc p i).modCorpus p (fun c => { c with locator := c.locator.filter (fun l => l.2.1 != i) })

/-- Add one segment at a publish (R280): carried tombstones, marked copies, superseded copies, the locator of every vector that stays live; a vector
whose bit an imported bitmap has set already is not live. Answers the copies superseded. -/
def State.publishOne (s : State) (p e : Nat) (rets : List Nat) (i : Nat) : State × Nat :=
  match s.seg? p i with
  | none => (s, 0)
  | some g =>
    let s := (s.modSeg p i (fun g => { g with pub := some e })).writeDesc p i
    (List.range g.vectors).foldl (fun (acc : State × Nat) l =>
      let t := acc.1
      if t.tombBit g l then acc
      else if g.dead.contains l || t.carried p rets (g.origin[l]?) then (t.setTomb p g l, acc.2)
      else
        let id := t.vecId g l
        let old := kvGet? id (t.corpus p).locator
        let again := match old with | some o => !rets.contains o.1 | none => false
        let t := match old with | some o => if again then t.addYoung p o.1 o.2 e else t | none => t
        (t.modCorpus p (fun c => { c with locator := kvPut id (i, l) c.locator }), acc.2 + again.toNat)) (s, 0)

/-- Commit a publish at epoch `e` (R280). -/
def State.commitPublish (s : State) (p e : Nat) (u : Upd) : State :=
  match s.publishCheck p u.rid u.ids1 u.ids2 with
  | some st => (s.notePublish p st).complete p u.rid st 0 0 0 0 []
  | none =>
    let (s, n) := u.ids1.foldl (fun (acc : State × Nat) i => let x := acc.1.publishOne p e u.ids2 i; (x.1, acc.2 + x.2)) (s, 0)
    let s := u.ids2.foldl (fun (t : State) i => t.retireAt p i e) s
    let s := if n = 0 then s else s.bump (cPrtReplaced p) n
    s.complete p u.rid scDone 0 0 e n []

/-- The checks of R281 on the published segments of a retire. -/
def State.retireCheck (s : State) (p self : Nat) (ids : List Nat) : Option Nat :=
  let c := s.corpus p
  let others := (c.updates.filter (fun u => u.rid != self)).flatMap (fun u => u.ids1 ++ u.ids2)
  if ids.any (fun i => c.current == some i) || ids.eraseDups.length != ids.length || ids.any (fun i => others.contains i) then some scBadCommand
  else if ids.any (fun i => (s.seg? p i).isNone) then some scBadHandle
  else if ids.any (fun i => ((s.seg? p i).bind (fun g => g.ret)).isSome) then some scEpochRetired
  else none

/-- Commit a retire at epoch `e` (R281). -/
def State.commitRetire (s : State) (p e : Nat) (u : Upd) : State :=
  match s.retireCheck p u.rid u.ids2 with
  | some st => s.complete p u.rid st 0 0 0 0 []
  | none => (u.ids2.foldl (fun (t : State) i => t.retireAt p i e) s).complete p u.rid scDone 0 0 e 0 []

/-- The rows of an insert that ended before its commit, at the commit that reaches its place: they are dead (DEDUCED, log entry 52). -/
def State.commitDead (s : State) (p c : Nat) (u : Upd) : State :=
  let rows := u.items.filterMap (fun x => x.row)
  (rows.foldl (fun (t : State) lid => t.deadRow p u.seg lid) s).commitRows p u.seg rows.length c

/-- Commit the update command at the head of the sequence at epoch `c`: its reservations end and its effects follow. -/
def State.commitOne (s : State) (p c : Nat) (u : Upd) : State :=
  let s := s.modCorpus p (fun k => { k with
    updates := k.updates.filter (fun x => x.rid != u.rid)
    youngRes := if u.ended then k.youngRes else k.youngRes - u.tomb
    locRes := if u.ended then k.locRes else k.locRes - u.loc })
  if u.ended then s.commitDead p c u
  else if u.op = 0x20 then s.commitInsert p c u
  else if u.op = 0x21 then s.commitDelete p c u
  else if u.op = 0x24 then s.commitPublish p c u
  else s.commitRetire p c u

/-- UPDATE_COMMIT, within PERIOD_BOUNDARY (R264): the longest prepared prefix of the update sequence commits at a new epoch;
an unprepared command that is late is counted. What is left of inserts that ended waits for a command beside it. -/
def State.commitUpdates (s : State) (p : Nat) : State :=
  let us := (s.corpus p).updates
  let pre := us.takeWhile (fun u => u.prepared)
  let per := (s.pcfg p).periodUs * 1000
  let s := match us.drop pre.length with
    | u :: _ => if (u.period + 2) * per ≤ s.now then s.bump (cPrtCommitLate p) 1 else s
    | [] => s
  if pre.all (fun u => u.ended) then s
  else
    let c := (s.corpus p).epoch + 1
    (pre.foldl (fun (t : State) u => t.commitOne p c u) (s.modCorpus p (fun k => { k with epoch := c }))).noteFold p

/-! ### Publish and retire commands (R279, R281) -/

/-- `n` SEG_IDs at offset `o` of PARAMS. -/
def HostCmd.segIds (c : HostCmd) (o n : Nat) : List Nat := (List.range n).map (fun i => c.param (o + 2 * i) 2)

/-- The checks of `SEGMENT_PUBLISH` (R279). -/
def State.publishCmdCheck (s : State) (p self : Nat) (c : HostCmd) : Option Nat :=
  if 16 < c.param 0 1 ∨ 16 < c.param 1 1 then some scBadCommand else s.publishCheck p self (c.segIds 8 (c.param 0 1)) (c.segIds 40 (c.param 1 1))

/-- The checks of `SEGMENT_RETIRE` (R281). -/
def State.retireCmdCheck (s : State) (p self : Nat) (c : HostCmd) : Option Nat :=
  if c.param 0 1 = 0 ∨ 16 < c.param 0 1 then some scBadCommand else s.retireCheck p self (c.segIds 8 (c.param 0 1))

/-- Whether a `SEGMENT_RETIRE` is an update command, one of a published segment (R263). -/
def State.retiresPublished (s : State) (p : Nat) (c : HostCmd) : Bool :=
  (c.segIds 8 (c.param 0 1)).any (fun i => ((s.seg? p i).bind (fun g => g.pub)).isSome)

/-- SEGMENT_PUBLISH: checked and entered in the update sequence (R279). -/
def execSegmentPublish (p q cid : Nat) (s : State) : Host.Outcome State Fault Refusal :=
  match s.readyRec p q cid 0x24 with
  | none => .next s
  | some (rid, r) =>
    if !s.updateTurn p rid then .next s else
    let c := r.cmd
    match s.publishCmdCheck p rid c with
    | some st => .next ((s.notePublish p st).fail p rid st)
    | none =>
      let u : Upd := { rid := rid, op := 0x24, period := s.periodOf p r.stamp, prepared := false, seg := 0, replace := false, items := [], vecs := [], attrs := [], projs := [], ids1 := c.segIds 8 (c.param 0 1), ids2 := c.segIds 40 (c.param 1 1), tomb := 0, loc := 0 }
      .next (s.joinUpdates p u)

/-- SEGMENT_RETIRE: unpublished segments are discarded at once; published ones and sealed deltas are retired in the update
sequence (R281). -/
def execSegmentRetire (p q cid : Nat) (s : State) : Host.Outcome State Fault Refusal :=
  match s.readyRec p q cid 0x25 with
  | none => .next s
  | some (rid, r) =>
    if !s.updateTurn p rid then .next s else
    let c := r.cmd
    match s.retireCmdCheck p rid c with
    | some st => .next (s.fail p rid st)
    | none =>
      let ids := c.segIds 8 (c.param 0 1)
      let unpub := ids.filter (fun i => match s.seg? p i with | some g => !g.delta && g.pub.isNone | none => false)
      let rest := ids.filter (fun i => !unpub.contains i)
      let s := unpub.foldl (fun (t : State) i => t.dropSegment p i) s
      if rest.isEmpty then .next (s.done p rid 0 0 0)
      else
        let u : Upd := { rid := rid, op := 0x25, period := s.periodOf p r.stamp, prepared := false, seg := 0, replace := false, items := [], vecs := [], attrs := [], projs := [], ids1 := [], ids2 := rest, tomb := 0, loc := 0 }
        .next (s.joinUpdates p u)

/-- TOMBSTONE_FOLD: young tombstones at or below the fold epoch are folded into the bitmaps and freed (R208). -/
def execTombstoneFold (p : Nat) (s : State) : Host.Outcome State Fault Refusal :=
  let s := s.noteFold p
  let f := (s.corpus p).fold
  let due := (s.corpus p).young.filter (fun t => decide (t.2.2 ≤ f))
  let s := due.foldl (fun (t : State) y => t.deadRow p y.1 y.2.1) s
  .next (s.freeYoung p (fun t => decide (t.2.2 ≤ f)))

/-- SEGMENT_FREE: a segment retired at or below the fold epoch is freed and counted (R282). -/
def execSegmentFree (p seg : Nat) (s : State) : Host.Outcome State Fault Refusal :=
  let s := s.noteFold p
  match (s.seg? p seg).bind (fun g => g.ret) with
  | none => .next s
  | some r => if r ≤ (s.corpus p).fold then .next ((s.dropSegment p seg).bump (cPrtSegsFreed p) 1) else .next s

/-! ### Building a segment (R273 to R277) -/

/-- A field whose zero stands for a default. -/
def dflt (v d : Nat) : Nat := if v = 0 then d else v

/-- Whether the fields of a SEGMENT_BUILD lie in their ranges (Table 10.3). -/
def State.buildFieldsOk (s : State) (p : Nat) (c : HostCmd) : Bool :=
  let deg := dflt (c.param 2 1) 32
  let al := dflt (c.param 3 1) 24
  let beam := dflt (c.param 4 2) 128
  let pool := dflt (c.param 6 2) 896
  let tiers := c.param 9 1
  decide (c.param 0 1 < 2 ∧ c.param 1 1 ≤ 16 ∧ 16 ≤ deg ∧ deg ≤ 64 ∧ 20 ≤ al ∧ al ≤ 40 ∧ 64 ≤ beam ∧ beam ≤ 1024 ∧ 64 ≤ pool ∧ pool ≤ 2048) &&
  deg % 4 == 0 && decide (c.param 8 1 < 16) && Nat.land (c.param 8 1) (s.pcfg p).arrayMask == c.param 8 1 &&
  decide (tiers % 4 < 2 ∧ tiers / 4 % 4 ≠ 2 ∧ tiers / 16 % 4 < 2 ∧ tiers < 64) &&
  (List.range 16).all (fun i => decide (i < c.param 1 1) || c.param (32 + 2 * i) 2 == 0)

/-- The checks of `SEGMENT_BUILD` (R274, in the order of R124): the fields and that there is a source, the sources, a source already retired, a
free SEG_ID. -/
def State.buildCheck (s : State) (p : Nat) (c : HostCmd) : Option Nat :=
  let src := c.segIds 32 (c.param 1 1)
  let cur := if bitOf (c.param 0 1) 0 then (s.corpus p).current.toList else []
  if !s.buildFieldsOk p c || (src ++ cur).isEmpty then some scBadCommand
  else if src.any (fun i => match s.seg? p i with | some g => (if g.delta then !g.closed else g.pub.isNone) | none => true) then some scBadHandle
  else if src.any (fun i => ((s.seg? p i).bind (fun g => g.ret)).isSome) then some scEpochRetired
  else if (s.freeSeg p).isNone then some scQuota
  else none

/-- SEGMENT_BUILD: at its admission, and so also while it is IDLE, its sources are checked, a SEG_ID is held and the delta sealed where asked, behind
the update commands admitted before it (R272 to R274). -/
def execSegmentBuild (p q cid : Nat) (s : State) : Host.Outcome State Fault Refusal :=
  match s.admittedRec p q cid 0x22 with
  | none => .next s
  | some (rid, r) =>
    let c := r.cmd
    let close := bitOf (c.param 0 1) 0
    if close && !s.updateTurn p rid then .next s
    else if let some st := s.buildCheck p c then .next (s.fail p rid st)
    else match s.freeSeg p with
    | none => .next (s.fail p rid scQuota)
    | some i =>
      let src := c.segIds 32 (c.param 1 1) ++ (if close then (s.corpus p).current.toList else [])
      let b : Build := { seg := i, part := p, sources := src, started := none, setId := 0, setVer := 0, before := (s.updatesAhead p rid).map (fun r => r.1), linked := 0, items := [], desc := [], draft := none, restarts := 0, arrays := (if c.param 8 1 = 0 then 15 else c.param 8 1) }
      let s := if close then s.sealDelta p else s
      .next ((s.putBuilds (kvPut rid b s.builds)).modRec rid (fun r => { r with phase := .running }))

/-- The source items of a build visible at epoch `e`: segment and local ID, in order (R275). -/
def State.buildItems (s : State) (p e : Nat) (srcs : List Nat) : List (Nat × Nat) :=
  srcs.flatMap (fun i => match s.seg? p i with
    | some g => ((List.range g.vectors).filter (fun l => s.visible p i g l e)).map (fun l => (i, l))
    | none => [])

/-- The neighbours that item `i` of a build had in its source, as local IDs of the output (R275). -/
def State.oldNeighbours (s : State) (p : Nat) (items : List (Nat × Nat)) (i : Nat) : List Nat :=
  match items[i]? with
  | none => []
  | some (si, sl) => match s.seg? p si with
    | none => []
    | some src => if src.delta then [] else
      (((List.range src.degree).map (fun j => leNat (s.readMem (src.adjAt sl + 4 * j) 4))).takeWhile (fun n => n != noLocal)).filterMap
        (fun n => items.findIdx? (fun o => o == (si, n)))

/-- Copy the vector, attribute word and vector ID of every source item of a build to its output, with the norms (R275). -/
def State.copyItems (s : State) (p : Nat) (g : Segment) : State :=
  g.origin.zipIdx.foldl (fun (t : State) (x : (Nat × Nat) × Nat) => match t.seg? p x.1.1 with
    | none => t
    | some src =>
      let t := (((t.access p (src.vecAt x.1.2) g.vecLen).access p (src.attrAt x.1.2) 8).access p (src.idAt x.1.2) 8).access p (src.adjAt x.1.2) (4 * src.degree)
      t.writeItem p g x.2 (t.readMem (src.vecAt x.1.2) g.vecLen) (leNat (t.readMem (src.attrAt x.1.2) 8)) (t.vecId src x.1.2)) s

/-- BUILD_START: at the first boundary at which every update command admitted before it has committed, a build fixes its epoch, takes the space of
its output, copies its source items there and queues its array work (R274, R275). -/
def execBuildStart (p q cid : Nat) (s : State) : Host.Outcome State Fault Refusal :=
  match s.runningRec p q cid 0x22 with
  | none => .next s
  | some (rid, r) => match kvGet? rid s.builds with
    | none => .next s
    | some b =>
      let k := s.corpus p
      if b.started.isSome ∨ s.allocHeld = true ∨ s.atBoundary p = false ∨ b.before.any (fun i => (kvGet? i s.recs).isSome) = true ∨ (match r.long with | some l => l.running | none => false) = false then .next s
      else
        let items := s.buildItems p k.epoch b.sources
        let n := items.length
        if n = 0 ∨ 67108864 < n then .next (s.fail p rid scBadCommand)
        else if s.clustersGone p then .next (s.fail p rid scFence)
        else match k.curSet.bind (fun i => (kvGet? i k.sets).map (fun t => (i, t))), s.segShape p, s.sketchStage p with
        | some (si, t), some (dims, elem), some st =>
          let c := r.cmd
          let tiers := c.param 9 1
          let g : Segment := { delta := false, width := st.param % 4, setId := si, setVer := t.version, degree := dflt (c.param 2 1) 32, elem := elem, dims := dims, vectors := n, entry := [], blockRows := dflt (c.param 10 2) 1024, blocks := [], stride := vecStride elem dims, pub := none, ret := none, adj := 0, vec := 0, attr := 0, idmap := 0, tomb := 0, norm := 0, commitAt := 0, commits := [], closed := false, cap := n, next := 0, buildEp := k.epoch, sources := b.sources, origin := items, dead := [], tensors := [], areas := [] }
          let space := fun (v : State) => v.allocSegment p g n (tiers % 4) (tiers / 4 % 4) (tiers / 16 % 4) .segment
          match space s with
          | none => .next (s.refuse p rid scQuota (s.overQuota p (fun v => (space v).isSome)))
          | some (g, t1) =>
            let b : Build := { b with started := some k.epoch, setId := si, setVer := t.version, items := items, draft := some g, olds := (List.range n).map (s.oldNeighbours p items) }
            let t2 := t1.putBuilds (kvPut rid b t1.builds)
            if t2.quotaOf p 1 < t2.useOf p 1 then .next (s.refuse p rid scQuota true)
            else .next ((t2.copyItems p g).queueArrWork p rid)
        | _, _, _ => .next (s.fail p rid scBadHandle)

/-- Element codes of a vector as a build's distance blocks see them, and their type: fp16 is rounded to bf16 (R275). -/
def buildCodes (elem dims : Nat) (bs : List Byte) : List Nat :=
  let cs := vecCodes elem dims bs
  if elem = 5 then cs.map (fun c => (requant 2 0 (decFp16 c)).1) else cs

/-- The distance of two vectors in a build's block (R275): squared L2, or the negated inner product, as an array gives it,
in bf16 as in the distance-block example (DEDUCED). -/
def buildDist (metric elem : Nat) (a b : List Nat) : Num :=
  let t := if elem = 5 then 4 else elem
  let y := (arrScore (if metric = 1 then 1 else 0) t 9 a b none).round fmtBf16
  if metric = 1 then y.neg else y

/-- Whether ALPHA × d(x, y) ≤ d(i, x), ALPHA in units of 0.05, exactly. -/
def alphaNear (alpha : Nat) (dxy dix : Num) : Bool := !Num.lt (Num.mulExact (Num.ofInt 20) dix) (Num.mulExact (Num.ofInt alpha) dxy)

/-- Put a candidate in ascending order of distance, behind equals. -/
def byDist (x : Nat × Num) : List (Nat × Num) → List (Nat × Num)
  | [] => [x]
  | y :: ys => if Num.lt x.2 y.2 then x :: y :: ys else y :: byDist x ys

/-- Prune candidates of vector `i` (R275): in ascending distance, each that no kept one shadows, up to the degree. -/
def pruneLinks (dist : Nat → Nat → Num) (degree alpha i : Nat) (cands : List Nat) : List Nat :=
  let sorted := (cands.filter (fun x => x != i)).eraseDups.foldl (fun acc x => byDist (x, dist i x) acc) []
  sorted.foldl (fun keep x => if keep.length < degree && !keep.any (fun y => alphaNear alpha (dist x.1 y) x.2) then keep ++ [x.1] else keep) []

/-- Link vector `i` with its kept candidates and those with it (R275). -/
def linkOne (dist : Nat → Nat → Num) (degree alpha : Nat) (links : KV (List Nat)) (i : Nat) (cands : List Nat) : KV (List Nat) :=
  let keep := pruneLinks dist degree alpha i cands
  keep.foldl (fun (m : KV (List Nat)) x =>
    let l := kvGetD [] x m ++ [i]
    kvPut x (if degree < l.length then pruneLinks dist degree alpha x l else l) m) (kvPut i keep links)

/-- The mean of vectors per dimension in fp32 (R275). -/
def meanOf (dims : Nat) (vs : List (List Num)) : List Num :=
  let sum := vs.foldl (fun acc v => List.zipWith (Num.add fmt32) acc v) (List.replicate dims Num.zero)
  sum.map (fun x => Num.div fmt32 x (Num.ofInt vs.length))

/-- Entry points of a build (R275): the 16 vectors nearest the mean of the first 65,536, in fp32. -/
def entryPoints (metric dims : Nat) (vs : List (List Num)) : List Nat :=
  let m := meanOf dims (vs.take 65536)
  let d := fun (v : List Num) => if metric = 1 then (fold2 (fun acc x y => Num.add fmt32 acc (Num.mul fmt32 x y)) Num.zero v m).neg
    else fold2 (fun acc x y => let e := Num.sub fmt32 x y; Num.add fmt32 acc (Num.mul fmt32 e e)) Num.zero v m
  ((vs.zipIdx.foldl (fun acc x => byDist (x.2, d x.1) acc) []).take 16).map (fun x => x.1)

/-- Write the rest of a built segment: the sketches of its vectors and the adjacency (R275). -/
def State.writeBuilt (s : State) (p : Nat) (g : Segment) (ys : List (List Nat)) (sks : List (List Byte)) (links : KV (List Nat)) : State :=
  (List.range g.vectors).foldl (fun (t : State) i =>
    let l := kvGetD [] i links
    ((t.writeSketch p g i (sks.getD i [])).countNans p (ys.getD i [])).writePart p (g.adjAt i)
      ((l ++ List.replicate (g.degree - l.length) noLocal).flatMap (fun n => leBytes 4 n))) s

/-- Put an entry of a build's beam, its vector, distance and whether it is expanded, behind equal distances (R209). -/
def beamPut (x : Nat × Nat × Bool) : List (Nat × Nat × Bool) → List (Nat × Nat × Bool)
  | [] => [x]
  | y :: ys => if x.2.1 < y.2.1 then x :: y :: ys else y :: beamPut x ys

/-- The beam search of a build over the links made so far (R275), run as R209 runs a query's: the best entries not yet expanded, at most `flight`
at once, bring their neighbours not yet visited, until none is left; answers every vector visited, `seen` first. -/
def buildSearch (d : Nat → Nat) (links : KV (List Nat)) (width flight : Nat) : Nat → List (Nat × Nat × Bool) → List Nat → List Nat
  | 0, _, seen => seen
  | fuel + 1, beam, seen =>
    let next := (beam.filter (fun x => !x.2.2)).take flight
    if next.isEmpty then seen
    else
      let fresh := ((next.flatMap (fun x => kvGetD [] x.1 links)).eraseDups).filter (fun n => !seen.contains n)
      let beam := beam.map (fun x => if next.any (fun y => y.1 == x.1) then (x.1, x.2.1, true) else x)
      buildSearch d links width flight fuel ((fresh.foldl (fun b n => beamPut (n, d n, false) b) beam).take width) (seen ++ fresh)

/-- The candidates of vector `i` of a build: of the vectors that its beam search visits, from the entry points on, and its old neighbours, the best by
sketch distance, one fewer than POOL (R275; DEDUCED, log entry 52). -/
def buildCands (sks : List (List Byte)) (entry : List Nat) (links : KV (List Nat)) (width flight pool i : Nat) (olds : List Nat) : List Nat :=
  let d := fun (x : Nat) => hamming (sks.getD i []) (sks.getD x [])
  let seen := buildSearch d links width flight (sks.length + 1) ((entry.foldl (fun b n => beamPut (n, d n, false) b) []).take width) entry
  let xs := ((seen ++ olds).eraseDups).filter (fun x => x != i)
  ((xs.foldl (fun acc x => beamPut (x, d x, false) acc) []).map (fun y => y.1)).take (pool - 1)

/-- The links of all vectors of a build, one vector after another, each over the links made so far (R275). -/
def buildLinks (dist : Nat → Nat → Num) (degree alpha : Nat) (cands : KV (List Nat) → Nat → List Nat) (n : Nat) : KV (List Nat) :=
  (List.range n).foldl (fun (m : KV (List Nat)) i => linkOne dist degree alpha m i (cands m i)) []

/-- SEGMENT_BUILD_DONE: a build links its vectors, writes its segment and ends DONE (R275, R277). `flights` gives, for each vector in turn, how many
expansions of its beam search are in flight at once, which R275 leaves open; one where it gives none. The build waits, with its work queued, until
the partition owns one of its arrays. -/
def execSegmentBuildDone (p q cid : Nat) (flights : List Nat) (s : State) : Host.Outcome State Fault Refusal :=
  match s.runningRec p q cid 0x22 with
  | none => .next (s.lateEnd p q cid 0x22)
  | some (rid, r) => match kvGet? rid s.builds with
    | none => .next s
    | some b => match b.started, b.draft with
      | some e, some g =>
        let place := ((s.sketchStage p).map (fun st => st.place)).getD 1
        if s.arraysGone p then .next (s.fail p rid scFence)
        else if s.coreWaits rid then .next s
        else if s.arrayFor p rid = none then .next (s.queueArrWork p rid)
        else match s.projModel p with
        | none => .next (s.fail p rid scBadHandle)
        | some (ti, t) =>
          let m := s.mayRun p place rid ti
          if !m.1 then .next m.2 else
          let s := m.2
          let n := g.vectors
          let raw := (List.range n).map (fun i => s.readMem (g.vecAt i) g.vecLen)
          let vs := raw.map (buildCodes g.elem g.dims)
          let dist := fun (i x : Nat) => buildDist (s.metric p) g.elem (vs.getD i []) (vs.getD x [])
          let pool := dflt (r.cmd.param 6 2) 896
          let (ys, s) := s.project p (s.runsOn p place rid) t n raw.flatten
          let th := match kvGet? g.setId (s.corpus p).sets with | some x => s.thresholds x | none => []
          let sks := ys.map (fun y => sketchOf y th)
          let entry := entryPoints (s.metric p) g.dims (raw.map (decodeVec g.elem g.dims))
          let links := buildLinks dist g.degree (dflt (r.cmd.param 3 1) 24) (fun m i =>
            buildCands sks entry m (dflt (r.cmd.param 4 2) 128) (max 1 (flights.getD i 1)) pool i (b.olds.getD i [])) n
          let g : Segment := { g with entry := entry }
          let s := (s.writeBuilt p g ys sks links).phaseRan p
          let s := s.putBuilds (kvDel rid s.builds)
          let s := (s.putSegment p b.seg g).bump (cPrtBuiltVectors p) n
          .next (s.complete p rid scDone 0 1 (n * 2 ^ 32 + b.seg) e [])
      | _, _ => .next s

/-! ### Importing a segment (R278) -/

/-- The checks of `SEGMENT_IMPORT` when it is fetched (R278). -/
def State.importCmdCheck (s : State) (p : Nat) (c : HostCmd) : Option Nat :=
  if 1 < c.param 0 1 then some scBadCommand
  else match s.tensorOf p (c.param 8 8) with
  | none => some scBadHandle
  | some (_, t) => if t.bytes < 192 then some scBadHandle else if s.freeSeg p = none then some scQuota else none

/-- SEGMENT_IMPORT: a descriptor is taken and a SEG_ID held; its checks run as a long operation (R278). -/
def execSegmentImport (p q cid : Nat) (s : State) : Host.Outcome State Fault Refusal :=
  match s.readyRec p q cid 0x23 with
  | none => .next s
  | some (rid, r) =>
    if let some st := (s.named r).importCmdCheck p r.cmd then .next (s.fail p rid st)
    else match s.claimedTensor r (r.cmd.param 8 8), s.freeSeg p with
    | some (_, t), some i =>
        let b : Build := { seg := i, part := p, sources := [], started := none, setId := 0, setVer := 0, before := [], linked := 0, items := [], desc := s.readMem t.addr t.bytes, draft := none, restarts := 0 }
        .next (((s.access p t.addr t.bytes).putBuilds (kvPut rid b s.builds)).modRec rid (fun r => { r with phase := .running }))
    | _, _ => .next (s.fail p rid scBadHandle)

/-- A segment as an imported descriptor and its block table give it (Table 7.1, R201). -/
def importSegment (d : List Byte) : Segment :=
  { delta := fieldAt d 2 1 != 0, width := fieldAt d 3 1 % 4, setId := fieldAt d 4 1, setVer := fieldAt d 8 4, degree := fieldAt d 5 1, elem := fieldAt d 6 1, dims := fieldAt d 16 2, vectors := fieldAt d 12 4, entry := ((List.range (min 16 (fieldAt d 18 1))).map (fun i => fieldAt d (112 + 4 * i) 4)), blockRows := fieldAt d 20 4, blocks := ((List.range (min (fieldAt d 24 4) ((d.length - 192) / 8))).map (fun i => (fieldAt d (192 + 8 * i) 2, fieldAt d (196 + 8 * i) 4))), stride := fieldAt d 28 4, pub := none, ret := none, adj := fieldAt d 56 8, vec := fieldAt d 64 8, attr := fieldAt d 72 8, idmap := fieldAt d 80 8, tomb := fieldAt d 88 8, norm := fieldAt d 96 8, commitAt := 0, commits := [], closed := false, cap := fieldAt d 12 4, next := 0, buildEp := 0, sources := [], origin := [], dead := [], tensors := [], areas := [] }

/-- Whether the header of an imported descriptor suits the partition (R278). -/
def State.importHeadOk (s : State) (p : Nat) (d : List Byte) (g : Segment) : Bool :=
  !g.delta && segElem g.elem && decide (fieldAt d 3 1 < 4) && s.sketchBits p == some (widthBits g.width) &&
  (match s.segShape p with | some x => x == (g.dims, g.elem) | none => true) &&
  decide (16 ≤ g.dims ∧ g.dims ≤ 4096 ∧ 1 ≤ g.vectors ∧ g.vectors ≤ 67108864 ∧ 16 ≤ g.degree ∧ g.degree ≤ 64 ∧ 1 ≤ fieldAt d 18 1 ∧ fieldAt d 18 1 ≤ 16 ∧
    1 ≤ g.blockRows ∧ g.blockRows ≤ 65536 ∧ g.vectors ≤ fieldAt d 24 4 * (g.blockRows * perRow g.width)) &&
  g.dims % 16 == 0 && g.degree % 4 == 0 && g.stride == vecStride g.elem g.dims && (s.metric p != 2 || g.norm != 0)

/-- The parts of an imported segment: address, length, and the tiers Table 7.2 permits. -/
def Segment.parts (g : Segment) : List (Nat × Nat × List Nat) :=
  let n := g.vectors
  (g.blocks.map (fun b => (rowAddr b.1 b.2, g.blockRows * 2048, [0]))) ++
  [(g.adj, n * g.degree * 4, [0, 1]), (g.vec, n * g.stride, [0, 1, 3]), (g.attr, 8 * n, [0, 1]), (g.idmap, 8 * n, [0, 1]), (g.tomb, roundUp ((n + 7) / 8) 64, [0])] ++
  (if g.norm = 0 then [] else [(g.norm, 4 * n, [0, 1])])

/-- The free tensor of the partition that wholly holds a range in one of the tiers. -/
def State.partTensor (s : State) (p : Nat) (r : Nat × Nat × List Nat) : Option Nat :=
  (s.mem.tensors.find? (fun t => t.2.part == p && !t.2.dying && t.2.holder == .none && !t.2.migrating && decide (t.2.addr ≤ r.1 ∧ r.1 + r.2.1 ≤ t.2.addr + t.2.bytes) &&
    (match tierOf r.1 with | some k => r.2.2.contains k | none => false))).map (fun t => t.1)

/-- The first local ID whose adjacency or vector ID breaks R278. -/
def State.importBadRow (s : State) (p : Nat) (g : Segment) : Option Nat :=
  let ids := (List.range g.vectors).map (fun l => s.vecId g l)
  (List.range g.vectors).find? (fun l =>
    (List.range g.degree).any (fun j => let x := leNat (s.readMem (g.adjAt l + 4 * j) 4); decide (g.vectors ≤ x) && x != noLocal) ||
    (let id := ids.getD l 0; id == noVector || (ids.take l).contains id || !(s.unpubHolders p id).isEmpty))

/-- Whether a part lies in tensors of the partition, whatever its tier: one that it may use holds its range wholly (R278). -/
def State.partOwned (s : State) (p : Nat) (r : Nat × Nat × List Nat) : Bool := (s.partTensor p (r.1, r.2.1, [0, 1, 2, 3])).isSome

/-- Whether a sketch block lies in PROC_CHANNELS with all its rows (R201, R278). -/
def State.blockOk (s : State) (p : Nat) (g : Segment) (b : Nat × Nat) : Bool := bitOf (s.pcfg p).procChannels b.1 && decide (b.2 + g.blockRows ≤ s.channelRows)

/-- The checks of an import: status and first failing local ID, if one fails. A part outside the partition's tensors is `BAD_HANDLE`, a threshold
set that is not current `EPOCH_RETIRED`, anything else `BAD_COMMAND` (R278). -/
def State.importCheck (s : State) (p : Nat) (d : List Byte) (g : Segment) (resketch : Bool) : Option (Nat × Nat) :=
  if !s.importHeadOk p d g ∨ g.blocks.length ≠ fieldAt d 24 4 then some (scBadCommand, noVector)
  else if g.parts.any (fun r => !s.partOwned p r) then some (scBadHandle, noVector)
  else if g.parts.any (fun r => (s.partTensor p r).isNone) || g.blocks.any (fun b => !s.blockOk p g b) then some (scBadCommand, noVector)
  else match s.importBadRow p g with
  | some l => some (scBadCommand, l)
  | none =>
    let k := s.corpus p
    if g.entry.any (fun x => decide (g.vectors ≤ x) && x != noLocal) then some (scBadCommand, noVector)
    else if !resketch && !(k.curSet == some g.setId && ((kvGet? g.setId k.sets).map (fun t => t.version)) == some g.setVer) then some (scEpochRetired, noVector)
    else none

/-- Sketch every vector of an imported segment again with the current set (R275, R278). -/
def State.resketch (s : State) (p : Nat) (g : Segment) (t : Tensor) (on : Option Nat) : State × Segment :=
  let k := s.corpus p
  match k.curSet.bind (fun i => (kvGet? i k.sets).map (fun x => (i, x))) with
  | none => (s, g)
  | some (si, x) =>
    let raw := (List.range g.vectors).map (fun l => s.readMem (g.vecAt l) g.vecLen)
    let s := s.access p g.vec (g.vectors * g.stride)
    let (ys, s) := s.project p on t g.vectors raw.flatten
    let th := s.thresholds x
    let s := ys.zipIdx.foldl (fun (st : State) (y : List Nat × Nat) => match g.sketchAt y.2 with
      | some a => (st.writePart p a (sketchOf y.1 th)).countNans p y.1
      | none => st) s
    (s, { g with setId := si, setVer := x.version })

/-- Charge what the checks of an import read (R91, R278). -/
def State.chargeImport (s : State) (p : Nat) (g : Segment) : State := (s.access p g.adj (4 * g.degree * g.vectors)).access p g.idmap (8 * g.vectors)

/-- SEGMENT_IMPORT_DONE: the checks of an import end, and with them the import: an unpublished segment, or FAILED (R278). With
RESKETCH on an array it waits, with its work queued, until the partition owns one. -/
def execSegmentImportDone (p q cid : Nat) (s : State) : Host.Outcome State Fault Refusal :=
  match s.runningRec p q cid 0x23 with
  | none => .next (s.lateEnd p q cid 0x23)
  | some (rid, r) => match kvGet? rid s.builds with
    | none => .next s
    | some b =>
      if (match r.long with | some l => l.running | none => false) = false then .next s else
      let g := importSegment b.desc
      let re := bitOf (r.cmd.param 0 1) 0
      match s.importCheck p b.desc g re with
      | some (st, l) => .next ((s.chargeImport p g).complete p rid st 0 0 0 l [])
      | none =>
        let place := ((s.sketchStage p).map (fun st => st.place)).getD 1
        match (if re then s.projModel p else some (0, { gen := 0, part := p, addr := 0, bytes := 0, holder := .none, migrating := false, dying := false })) with
        | none => .next (s.complete p rid scBadHandle 0 0 0 noVector [])
        | some (ti, t) =>
          let m := if re then s.mayRun p place rid ti else (true, s)
          if !m.1 then .next m.2
          else
            let s := m.2.chargeImport p g
            let held := (s.putBuilds (kvDel rid s.builds)).modCorpus p (fun c => { c with segs := kvPut b.seg g c.segs })
            if held.quotaOf p 1 < held.useOf p 1 then .next ((s.quotaRefused p).complete p rid scQuota 0 0 0 noVector [])
            else
              let (s, g) := if re then s.resketch p g t (s.runsOn p place rid) else (s, g)
              let ts := (g.parts.filterMap (s.partTensor p)).eraseDups
              let s1 := (s.putBuilds (kvDel rid s.builds)).putSegment p b.seg { g with tensors := ts }
              let s1 := s1.modMem (fun m => { m with tensors := ts.foldl (fun (x : KV Tensor) i => kvUpd i (fun (y : Tensor) => { y with holder := .segment b.seg }) x) m.tensors })
              .next (s1.complete p rid scDone 0 1 (g.vectors * 2 ^ 32 + b.seg) 0 [])

/-! ### Publications by the loop (R424) -/

/-- Each bit's share of ones, in 1/1,000, of projected values under thresholds, as numbers of ones and of values. -/
def onesOf (hist : List (List Nat)) (th : List Nat) : List Nat :=
  hist.foldl (fun acc ys => List.zipWith (· + ·) acc ((List.zipWith sketchBit ys th).map Bool.toNat)) (List.replicate th.length 0)

/-- Whether a share of ones, `n` in `m`, lies within limits in 1/1,000. -/
def shareWithin (n m : Nat) (lo hi : Int) : Bool := decide (lo * (m : Int) ≤ 1000 * (n : Int) ∧ 1000 * (n : Int) ≤ hi * (m : Int))

end Sys2Proof.Machine
end

