-- ==== Sys2Proof/Machine/Tensors.lean ====
section
/-! DEFINITION. Memory tiers and compositions (spec/12): tensors and their commands, migration, pooled-memory windows,
compositions and their meters. -/

namespace Sys2Proof.Machine

/-! ### Tensors (R311 to R316) -/

/-- PLACE of a command where it is used, and whether it is valid for its tier (R313). -/
def placeOf (flags place : Nat) : Option Nat := if bitOf flags 1 then some place else none
def placeValid (tier : Nat) (place : Option Nat) : Bool :=
  match place with
  | none => true
  | some x => (tier == 0 && decide (x < 256)) || (tier == 1 && decide (x < 2))

/-- The checks of `TENSOR_ALLOC` (R313): the status of the first that fails. -/
def State.tensorAllocCheck (s : State) (p : Nat) (c : HostCmd) : Option Nat :=
  let tier := c.param 0 1
  let bytes := c.param 8 8
  let place := placeOf (c.param 1 1) (c.param 2 2)
  if 3 < tier ∨ bytes = 0 ∨ 2 ^ 40 < bytes ∨ placeValid tier place = false then some scBadCommand
  else if (kvFreeKey s.mem.tensors 1048575 1).isNone ∨ (s.allocNear p tier bytes .tensor place).isNone = true then some scQuota
  else none

/-- Whether a quota is what a `TENSOR_ALLOC` would pass. -/
def State.tensorOver (s : State) (p : Nat) (c : HostCmd) : Bool :=
  s.overQuota p (fun t => (s.allocNear p (c.param 0 1) (c.param 8 8) .tensor (placeOf (c.param 1 1) (c.param 2 2))).isNone &&
    (t.allocNear p (c.param 0 1) (c.param 8 8) .tensor (placeOf (c.param 1 1) (c.param 2 2))).isSome)

/-- TENSOR_ALLOC: allocates a contiguous tensor in a tier; RESULT0 is its handle, RESULT1 its node address (R313). Without
ZERO its contents are undefined; Tier F units read as zeros until written (R333), and zeros of a Tier P tensor are written at the lender before the
completion (R320). It waits while a load holds allocations back (R491). -/
def execTensorAlloc (p q cid : Nat) (s : State) : Host.Outcome State Fault Refusal :=
  match s.readyRec p q cid 0x40 with
  | none => .next s
  | some (rid, r) =>
    let c := r.cmd
    let tier := c.param 0 1
    let bytes := c.param 8 8
    if s.allocHeld then .next s
    else if let some st := s.tensorAllocCheck p c then .next (s.refuse p rid st (s.tensorOver p c))
    else match kvFreeKey s.mem.tensors 1048575 1, s.allocNear p tier bytes .tensor (placeOf (c.param 1 1) (c.param 2 2)) with
    | some i, some (a, t) =>
      let gen := kvGetD 0 i t.mem.gens
      let ten : Tensor := { gen := gen, part := p, addr := a, bytes := bytes, holder := .none, migrating := false, dying := false }
      let t := t.modMem (fun m => { m with tensors := kvPut i ten m.tensors })
      let len := roundUp bytes (allocUnit tier)
      let t := if bitOf (c.param 1 1) 0 ∨ tier = 3 then t.modMem (fun m => m.clear a len) else t.hide a len
      if tier = 2 ∧ bitOf (c.param 1 1) 0 = true then
        .next (t.holdResult rid r { status := scDone, flags := 0, count := 0, r0 := mkHandle gen p i, r1 := a, addr := a, data := List.replicate len 0, tensor := some i, sent := false })
      else .next (t.done p rid 0 (mkHandle gen p i) a)
    | _, _ => .next (s.fail p rid scQuota)

/-- The check of `TENSOR_FREE` (R316). -/
def State.tensorFreeCheck (s : State) (p : Nat) (c : HostCmd) : Option Nat :=
  match s.tensorOf p (c.param 0 8) with
  | none => some scBadHandle
  | some (_, t) => if t.holder ≠ .none ∨ t.migrating = true then some scBadHandle else none

/-- TENSOR_FREE: the handle names nothing from the completion on; its bytes are released when earlier claims end (R316). -/
def execTensorFree (p q cid : Nat) (s : State) : Host.Outcome State Fault Refusal :=
  match s.readyRec p q cid 0x41 with
  | none => .next s
  | some (rid, r) =>
    if let some st := s.tensorFreeCheck p r.cmd then .next (s.fail p rid st)
    else match s.tensorOf p (r.cmd.param 0 8) with
    | none => .next (s.fail p rid scBadHandle)
    | some (i, _) => .next ((s.modMem (fun m => { m with tensors := kvUpd i (fun x => { x with dying := true }) m.tensors })).done p rid 0 0 0)

/-! #### Reads and writes (R314) -/

/-- The checks of `TENSOR_WRITE` on the tensor that its handle names (R314, R344). -/
def State.tensorWriteCheck (s : State) (p : Nat) (c : HostCmd) (x : Option (Nat × Tensor)) : Option Nat :=
  let off := c.param 8 8
  let n := c.param 16 8
  if n = 0 ∨ 2 ^ 30 < n then some scBadCommand
  else match x with
  | none => some scBadHandle
  | some (_, t) =>
    if t.holder ≠ .none ∨ s.addrOk p (c.param 24 8) n = false then some scBadHandle
    else if t.bytes < off + n then some scBadCommand
    else if s.flash.roTens.contains t.addr then some scMediaReadOnly
    else none

/-- TENSOR_WRITE: writes bytes of an ordinary tensor (R314). A write to a fenced channel ends with `ABORTED_FENCE` (R402). -/
def execTensorWrite (p q cid : Nat) (data : List Byte) (s : State) : Host.Outcome State Fault Refusal :=
  match s.readyRec p q cid 0x42 with
  | none => .next s
  | some (rid, r) =>
    let c := r.cmd
    let off := c.param 8 8
    let n := c.param 16 8
    if let some st := (s.named r).tensorWriteCheck p c (s.claimedTensor r (c.param 0 8)) then .next (s.fail p rid st)
    else match s.claimedTensor r (c.param 0 8) with
    | none => .next (s.fail p rid scBadHandle)
    | some (_, t) =>
        let a := t.addr + off
        let tier := (tierOf a).getD 0
        if s.touchesFenced tier a n then .next (s.fail p rid scFence)
        else
          let (bs, s1) := s.readInput p r.flow (c.param 24 8) n data
          if tier = 2 then .next (if (s.windowAt a).any (fun w => w.2.2.state == 1) then s else s1.accessP p rid a n true bs)
          else if tier = 3 ∧ s1.flashFits t.addr (roundUp t.bytes 16384 / 16384) a n = false then .next s
          else if tier = 3 then match s1.flashStore p t.addr (roundUp t.bytes 16384 / 16384) a bs with
            | (s, none) => .next (s.done p rid n 0 0)
            | (s, some k) =>
              let s := (s.modFlash (fun f => { f with roTens := f.roTens ++ [t.addr] })).mediaFull p 0 t.addr
              .next (s.complete p rid scMediaFull 0 (k / 16384 * 16384) 0 0 [])
          else .next ((s1.ordWrite p a bs).done p rid n 0 0)

/-- The checks of `TENSOR_READ` on the tensor that its handle names (R314). -/
def State.tensorReadCheck (s : State) (p : Nat) (c : HostCmd) (x : Option (Nat × Tensor)) : Option Nat :=
  let n := c.param 16 8
  if n = 0 ∨ 2 ^ 30 < n ∨ c.resultAddr = 0 then some scBadCommand
  else match x with
  | none => some scBadHandle
  | some (_, t) =>
    if s.resultOk p c.resultAddr n = false then some scBadHandle
    else if t.bytes < c.param 8 8 + n then some scBadCommand
    else none

/-- TENSOR_READ: writes a tensor's bytes at RESULT_ADDR (R314). Damaged bytes end it with `ABORTED_FENCE` (R402). -/
def execTensorRead (p q cid : Nat) (s : State) : Host.Outcome State Fault Refusal :=
  match s.readyRec p q cid 0x43 with
  | none => .next s
  | some (rid, r) =>
    let c := r.cmd
    let off := c.param 8 8
    let n := c.param 16 8
    if let some st := (s.named r).tensorReadCheck p c (s.claimedTensor r (c.param 0 8)) then .next (s.fail p rid st)
    else match s.claimedTensor r (c.param 0 8) with
    | none => .next (s.fail p rid scBadHandle)
    | some (_, t) =>
        let a := t.addr + off
        match tierOf a with
        | some 2 => .next (s.accessP p rid a n false [])
        | some 3 =>
          let (bs, ok, bad, s) := s.flashLoad p a n
          if bad.isSome then .next (s.complete p rid scMediaUncorrectable 0 (ok / 16384 * 16384) 0 0 bs)
          else .next (s.complete p rid scDone 0 n 0 0 bs)
        | some _ =>
          let ps := s.tensorPieces t off n
          match ps.find? (fun x => s.mem.isDamaged x.1 x.2) with
          | some x => .next ((s.uncorrectableAt p x.1).fail p rid scFence)
          | none => .next ((ps.foldl (fun (t : State) x => t.ordRead p x.1 x.2) s).complete p rid scDone 0 n 0 0 (ps.flatMap (fun x => s.ordBytes x.1 x.2)))
        | none => .next (s.fail p rid scBadHandle)

/-- TIER_P_ACCESS_ARRIVAL: at the lender, an access whose source and WINDOW_ID match an OPEN lend entry reads or writes the
backing; any other is refused (R319). -/
def execTierPAccessArrival (src seq wid off len : Nat) (write : Bool) (data : List Byte) (s : State) : Host.Outcome State Fault Refusal :=
  let o : FabOrigin := match s.arrivedOf src 5 seq with
    | some k => { node := src, part := k.srcPart, endpoint := k.srcEp, seq := seq, resetGen := k.resetGen }
    | none => { node := src, part := 0, endpoint := 0, seq := seq, resetGen := 0 }
  let s := s.takenOf src 5 seq
  let w := s.mem.comps.findSome? (fun c => c.2.windows.find? (fun w => w.lend && w.peer == src && w.wid == wid && w.state == 2))
  match w with
  | none => .next (s.answer o 5 2 opTierP 0 0 [scRemoteError] [])
  | some w =>
    let a := w.base + off
    if len = 0 ∨ w.len < off + len ∨ s.mem.isDamaged a len = true ∧ write = false ∨ s.touchesFenced w.tier a len = true then
      .next (s.answer o 5 2 opTierP w.part 0 [scRemoteError] [])
    else
      let s := s.access w.part a len
      if write then .next ((s.writeMem a (data.take len)).answer o 5 1 opTierP w.part 0 [scDone] [])
      else .next (s.answer o 5 1 opTierP w.part 0 [scDone] (s.readMem a len))

/-- TIER_P_RESPONSE_ARRIVAL: the lender's answer completes the command that waited, or brings an input of it, or lets a migration go on; what was read
or written is kept as the contents of the window, which no other node changes (R319, R320). -/
def execTierPResponseArrival (src seq status : Nat) (data : List Byte) (s : State) : Host.Outcome State Fault Refusal :=
  let s := s.takenOf src 5 seq
  match kvGet? seq s.mem.pacc with
  | none => .next s
  | some x =>
    if x.node ≠ src then .next s else
    let s := (s.modMem (fun m => { m with pacc := kvDel seq m.pacc })).endRequest seq
    let local_ := (s.mem.comps.findSome? (fun c => c.2.windows.find? (fun w => !w.lend && w.peer == src && w.wid == x.wid))).map (fun (w : PWindow) => w.base + x.off)
    let s := match local_ with
      | some a => if status = scDone ∧ x.rid.isSome = true then s.writeMem a (if x.write then x.data else data.take x.len) else s
      | none => s
    match x.rid.bind (fun rid => (kvGet? rid s.recs).map (fun r => (rid, r))) with
    | none => .next s
    | some (rid, r) =>
      if status ≠ scDone then .next (s.failP r.part rid scRemoteError)
      else match x.use with
      | .operand =>
        if r.cmd.opcode = 0x43 then .next (s.complete r.part rid scDone 0 x.len 0 0 (data.take x.len))
        else if r.cmd.opcode = 0x42 then .next (s.done r.part rid x.len 0 0)
        else .next s
      | .input => .next ((s.modRec rid (fun r => { r with need := r.need.drop 1 })).fetchInput rid)
      | .result => (match r.late with
        | some f => .next (s.endLate rid r f)
        | none => .next s)
      | .copy => .next (s.modMem (fun m => { m with migs := kvUpd rid (fun (y : Migration) => { y with tierP := y.tierP + 1 }) m.migs }))

/-! ### Migration (R317) -/

/-- Whether Table 12.2 permits a tensor's holder to have it moved to a tier. -/
def State.moveOk (s : State) (t : Tensor) (tier : Nat) : Bool :=
  match t.holder with
  | .none => true
  | .model => tier == 0 || tier == 1
  | .segment g => match s.seg? t.part g with
    | none => false
    | some x => x.parts.all (fun r => !(decide (t.addr ≤ r.1 ∧ r.1 < t.addr + t.bytes)) || (r.2.2.contains tier && r.2.2 != [0]))
  | .table => false
  | .ring => false

/-- The checks of `TENSOR_MIGRATE` (R317). -/
def State.tensorMigrateCheck (s : State) (p : Nat) (c : HostCmd) : Option Nat :=
  let tier := c.param 8 1
  let place := placeOf (c.param 9 1) (c.param 10 2)
  if 3 < tier ∨ placeValid tier place = false then some scBadCommand
  else match s.tensorOf p (c.param 0 8) with
  | none => some scBadHandle
  | some (_, t) =>
    if t.migrating ∨ tierOf t.addr = some tier ∨ s.moveOk t tier = false then some scBadHandle
    else if (s.allocNear p tier t.bytes .migration place).isNone then some scQuota
    else none

/-- Whether a quota is what the destination of a `TENSOR_MIGRATE` would pass. -/
def State.migrateOver (s : State) (p : Nat) (c : HostCmd) : Bool :=
  match s.tensorOf p (c.param 0 8) with
  | none => false
  | some (_, t) => s.overQuota p (fun v => (v.allocNear p (c.param 8 1) t.bytes .migration (placeOf (c.param 9 1) (c.param 10 2))).isSome)

/-- TENSOR_MIGRATE: reserves the destination, which counts toward the quota from now, and starts to copy (R317). It waits while a load holds
allocations back (R491). -/
def execTensorMigrate (p q cid : Nat) (s : State) : Host.Outcome State Fault Refusal :=
  match s.readyRec p q cid 0x44 with
  | none => .next s
  | some (rid, r) =>
    let c := r.cmd
    if s.allocHeld then .next s
    else if let some st := (s.named r).tensorMigrateCheck p c then .next (s.refuse p rid st ((s.named r).migrateOver p c))
    else match s.claimedTensor r (c.param 0 8) with
    | none => .next (s.fail p rid scBadHandle)
    | some (i, t) => match s.allocNear p (c.param 8 1) t.bytes .migration (placeOf (c.param 9 1) (c.param 10 2)) with
      | none => .next (s.fail p rid scQuota)
      | some (a, s) =>
        let m : Migration := { tensor := i, dest := a, copied := 0, dirty := [], passes := 0, asked := false }
        .next ((s.modMem (fun x => { x with migs := kvPut rid m x.migs, tensors := kvUpd i (fun y => { y with migrating := true }) x.tensors })).modRec
          rid (fun r => { r with phase := .running }))

/-- Copy a range of memory to another place, its undefined bytes with it. -/
def MemSys.copyRange (m : MemSys) (src dst len epoch : Nat) : MemSys :=
  let m := m.clear dst len
  let und := m.undef.filterMap (fun (r : Nat × Nat × Nat) =>
    let lo := max r.1 src
    let hi := min (r.1 + r.2.1) (src + len)
    if lo < hi then some (lo - src + dst, hi - lo, epoch) else none)
  let m := { m with undef := und.foldl (fun u r => insRange r u) m.undef }
  (m.bytes.filter (fun b => decide (src ≤ b.1 ∧ b.1 < src + len))).foldl (fun (x : MemSys) b => x.write (b.1 - src + dst) b.2) m

/-- An address moved with a range. -/
def moved (old new len a : Nat) : Nat := if old ≤ a ∧ a < old + len then a - old + new else a

/-- A segment whose parts in a range have moved. -/
def Segment.moved (g : Segment) (old new len : Nat) : Segment :=
  let f := Machine.moved old new len
  { g with adj := f g.adj, vec := f g.vec, attr := f g.attr, idmap := f g.idmap, norm := f g.norm }

/-- The traffic of a migration from or to Tier P on VC5 (R320): the tensor is read from its window, then written to the one it goes to, and the switch
waits for the lender's answer to each. What stands in the way of the switch now, if anything: the state in which the migration waits, or has failed. -/
def State.copyP (s : State) (p rid : Nat) (m : Migration) (t : Tensor) : Option State :=
  let send := fun (n a : Nat) (write : Bool) => match s.windowFor a with
    | .error st => s.failP p rid st
    | .ok none => s
    | .ok (some w) => (s.sendP p rid .copy w a t.bytes write (if write then s.readMem t.addr t.bytes else [])).modMem
        (fun x => { x with migs := kvUpd rid (fun (y : Migration) => { y with tierP := n }) x.migs })
  if tierOf t.addr = some 2 ∧ m.tierP < 2 then some (if m.tierP = 1 then s else send 1 t.addr false)
  else if tierOf m.dest = some 2 ∧ m.tierP < 4 then some (if m.tierP = 3 then s else send 3 m.dest true)
  else none

/-- Bytes that the copying of a migration's dirty chunks moves again (R317). -/
def Migration.dirtyBytes (m : Migration) (t : Tensor) : Nat := (m.dirty.map (fun c => min 2097152 (t.bytes - c * 2097152))).sum

/-- What a migration's switch does (R317). -/
def State.switchTensor (s : State) (rid : Nat) (m : Migration) (t : Tensor) : State :=
  let p := t.part
  let k := roundUp t.bytes (allocUnit ((tierOf m.dest).getD 0))
  let s := s.migrateCopy m ((t.bytes - m.copied) + m.dirtyBytes t)
  let s := if tierOf t.addr = some 3 then (s.flashLoad p t.addr t.bytes).2.2.2 else s
  let s := (s.modMem (fun x => x.copyRange t.addr m.dest t.bytes s.free))
  let s := s.putFree (s.free + 1)
  let s := if tierOf m.dest = some 3 then (s.writeUnits m.dest (k / 16384) (m.dest / 16384) (k / 16384)).2.2.sealWrite else s
  let s := if s.flash.roTens.contains t.addr then s.modFlash (fun f => { f with roTens := f.roTens.map (fun a => if a = t.addr then m.dest else a) }) else s
  let s := s.modMem (fun x => { x with
    migs := kvDel rid x.migs
    allocs := kvUpd m.dest (fun (a : Alloc) => { a with kind := .tensor }) x.allocs
    tensors := kvUpd m.tensor (fun y => { y with addr := m.dest, migrating := false }) x.tensors
    old := x.old ++ [({ base := t.addr, tensor := m.tensor, before := s.nextRec } : OldCopy)] })
  let held := ((s.corpus p).segs.filter (fun g => g.2.tensors.contains m.tensor)).map (fun g => g.1)
  let s := held.foldl (fun (x : State) i => (x.modSeg p i (fun g => g.moved t.addr m.dest t.bytes)).writeDesc p i) s
  (s.bump cMemMigrations 1).done p rid 1 (mkHandle t.gen p m.tensor) m.dest

/-- MIGRATE_SWITCH: with every chunk copied, the write claim is requested and, once granted, the handle names the destination;
the source is freed when no earlier claim or query remains (R317). Damaged source bytes end it with `ABORTED_FENCE`, source units that cannot be
read with `MEDIA_UNCORRECTABLE`, media without room with `MEDIA_FULL`, and Tier P without a working window with that access's status. -/
def execMigrateSwitch (p q cid : Nat) (s : State) : Host.Outcome State Fault Refusal :=
  match s.runningRec p q cid 0x44 with
  | none => .next (s.lateEnd p q cid 0x44)
  | some (rid, r) => match kvGet? rid s.mem.migs with
    | none => .next s
    | some m => match kvGet? m.tensor s.mem.tensors with
      | none => .next s
      | some t =>
        if (match r.long with | some l => l.running | none => false) = false then .next s else
        let units := roundUp t.bytes 16384 / 16384
        let span := unitSpan t.addr t.bytes
        if tierOf t.addr = some 3 ∧ ((List.range span.2).any (fun i => s.unitBad (span.1 + i))) = true then
          .next ((s.flashLoad p t.addr t.bytes).2.2.2.fail p rid scMediaUncorrectable)
        else if s.mem.isDamaged t.addr t.bytes then .next ((s.uncorrectableAt p t.addr).fail p rid scFence)
        else if tierOf m.dest = some 3 ∧ s.flash.unitLimit units < units then
          .next (((s.modFlash (fun f => { f with roTens := f.roTens ++ [t.addr] })).mediaFull p 0 t.addr).fail p rid scMediaFull)
        else
          let s := if m.asked then s else
            let c : Claim := { tensor := m.tensor, write := true, seq := s.mem.claimNo }
            (s.modMem (fun x => { x with claimNo := x.claimNo + 1, migs := kvUpd rid (fun y => { y with asked := true }) x.migs })).modRec rid
              (fun r => { r with claims := r.claims.filter (fun d => d.tensor != m.tensor) ++ [c] })
          let free := match kvGet? rid s.recs with | some r => s.claimsFree rid r | none => true
          if free = false then .next s
          else match s.copyP p rid m t with
            | some t => .next t
            | none => .next (s.switchTensor rid m t)

/-! ### Windows (R319 to R322) -/

/-- Change a window of a composition. -/
def State.modWindow (s : State) (comp i : Nat) (f : PWindow → PWindow) : State :=
  s.modMem (fun m => { m with comps := kvUpd comp (fun (c : Composition) => { c with windows := c.windows.zipIdx.map (fun w => if w.2 = i then f w.1 else w.1) }) m.comps })

/-- Find a window by its side, peer and WINDOW_ID. -/
def State.findWindow (s : State) (lend : Bool) (peer wid : Nat) : Option (Nat × Nat × PWindow) :=
  s.mem.comps.findSome? (fun c => (c.2.windows.zipIdx.find? (fun w => w.1.lend == lend && w.1.peer == peer && w.1.wid == wid)).map (fun w => (c.1, w.2, w.1)))

/-- Take an order once: acted on unless its SEQ precedes one already acted on (R363). -/
def State.takeOrder (s : State) (src seq : Nat) (f : State → State) : State :=
  let s := s.modFab (fun x => { x with arrived := x.arrived.filter (fun k => !(k.vc == 0 && k.srcNode == src && k.seq == seq)) })
  if s.orderFresh src seq then f (s.orderSeen src seq) else s

/-- WINDOW_OPEN_ARRIVAL: the lender accepts an OPEN that names a lend entry for that borrower with the same LENGTH, and refuses
any other (R319). -/
def execWindowOpenArrival (src seq wid len : Nat) (s : State) : Host.Outcome State Fault Refusal :=
  .next (s.takeOrder src seq (fun s => match s.findWindow true src wid with
    | some (c, i, w) =>
      if w.len = len then (s.modWindow c i (fun w => { w with state := 2 })).sendOrder src 0x21 w.part (s.resetGen w.part) [wid] 4
      else s.sendOrder src 0x22 0 0 [wid] 4
    | none => s.sendOrder src 0x22 0 0 [wid] 4))

/-- WINDOW_ACCEPT_ARRIVAL: the borrow window moves from PENDING to OPEN, with the undefined contents of new backing (R319, R321). -/
def execWindowAcceptArrival (src seq wid : Nat) (s : State) : Host.Outcome State Fault Refusal :=
  .next (s.takeOrder src seq (fun s => match s.findWindow false src wid with
    | some (c, i, w) => if w.state = 1 then ((s.modWindow c i (fun w => { w with state := 2, unreach := none })).hide w.base w.len).serveP else s
    | none => s))

/-- WINDOW_REFUSE_ARRIVAL: the borrow window moves from PENDING to REFUSED (R319). -/
def execWindowRefuseArrival (src seq wid : Nat) (s : State) : Host.Outcome State Fault Refusal :=
  .next (s.takeOrder src seq (fun s => match s.findWindow false src wid with
    | some (c, i, w) => if w.state = 1 then (s.modWindow c i (fun w => { w with state := 3 })).serveP else s
    | none => s))

/-- A borrow window is LOST: accesses in flight to it fail (R320, R321). -/
def State.loseWindow (s : State) (comp i : Nat) (w : PWindow) : State :=
  let s := s.modWindow comp i (fun w => { w with state := 4 })
  let hit := s.mem.pacc.filter (fun x => x.2.node == w.peer && x.2.wid == w.wid)
  (hit.foldl (fun (t : State) x =>
    let t := (t.modMem (fun m => { m with pacc := kvDel x.1 m.pacc })).endRequest x.1
    match x.2.rid.bind (fun rid => (kvGet? rid t.recs).map (fun r => (rid, r.part))) with
    | some (rid, p) => t.failP p rid scRemoteError
    | none => t) s).serveP

/-- WINDOW_CLOSE_ARRIVAL: at the borrower the window is LOST (R321); at the lender the entry waits for a new OPEN. -/
def execWindowCloseArrival (src seq wid : Nat) (s : State) : Host.Outcome State Fault Refusal :=
  .next (s.takeOrder src seq (fun s => match s.findWindow false src wid, s.findWindow true src wid with
    | some (c, i, w), _ => s.loseWindow c i w
    | none, some (c, i, _) => s.modWindow c i (fun w => { w with state := 1 })
    | none, none => s))

/-- Note since when each borrow window's lender has been unreachable. -/
def State.noteUnreach (s : State) : State :=
  s.modMem (fun m => { m with comps := kvMapVals (fun _ (c : Composition) => { c with windows := c.windows.map (fun w =>
    if w.lend then w else if s.reachable w.peer then { w with unreach := none } else { w with unreach := some (w.unreach.getD s.now) }) }) m.comps })

/-- WINDOW_LOST_TIMEOUT: the lender has stayed unreachable for LOST_MS, so the borrow window, OPEN or PENDING, is LOST (R321). -/
def execWindowLostTimeout (comp index : Nat) (s : State) : Host.Outcome State Fault Refusal :=
  let s := s.noteUnreach
  match (kvGet? comp s.mem.comps).bind (fun c => c.windows[index]?) with
  | none => .next s
  | some w => match w.unreach with
    | none => .next s
    | some t =>
      let lim := max 10 (min 60000 (s.fld rMemCfg fMemCfg_LOST_MS))
      if w.lend = false ∧ (w.state = 1 ∨ w.state = 2) ∧ t + lim * 1000000 ≤ s.now then .next (s.loseWindow comp index w) else .next s

/-! ### Meters (R327) -/

/-- Meters of a composition for `dt` ns at the present occupancy. -/
def State.metered (s : State) (c : Composition) (dt : Nat) : Composition :=
  let ps := (List.range 64).filter (bitOf c.parts)
  let act := (ps.filter (fun p => s.pstate p != stUnconfigured)).length
  let use := fun (t : Nat) => ps.foldl (fun n p => n + s.useOf p t) 0
  let win := c.windows.foldl (fun n w => if !w.lend && w.state == 2 then n + w.len else n) 0
  let add := [dt, act * dt, use 0 * dt, use 1 * dt, win * dt, use 3 * dt, 0, 0, 0, 0]
  { c with meters := List.zipWith (· + ·) c.meters add }

/-- Integrate every composition's meters up to now. -/
def State.integrate (s : State) : State :=
  let dt := s.now - s.mem.lastMeter
  s.modMem (fun m => { m with comps := kvMapVals (fun _ c => s.metered c dt) m.comps, lastMeter := s.now })

/-- METER_INTEGRATE: every 1 µs of the local time reference the occupancy of each composition is accumulated (R327). -/
def execMeterIntegrate (s : State) : Host.Outcome State Fault Refusal :=
  if s.now < s.mem.lastMeter + 1000 then .next s else .next s.integrate

/-- The ten meters of Table 12.6 in their units, at an END_TIME. -/
def Composition.record (c : Composition) (now : Nat) : List Nat :=
  ((List.range 9).map (fun i => Machine.meterUnit i (c.meters.getD i 0))) ++ [now]

/-- MEM_CSEL_LATCH: a function selects a composition and a window and copies every meter at one instant; LATCH reads 0 once the
copy is done (Table 12.11). -/
def execMemCselLatch (pf comp window : Nat) (s : State) : Host.Outcome State Fault Refusal :=
  let s := ((s.setFldPf pf rMemCsel fMemCsel_COMP_ID comp).setFldPf pf rMemCsel fMemCsel_WINDOW window).integrate
  let rec_ := match kvGet? (s.fldPf pf rMemCsel fMemCsel_COMP_ID) s.mem.comps with
    | some c => c.record s.now
    | none => []
  .next (s.modMem (fun m => { m with latch := kvPut pf rec_ m.latch }))

/-! ### Compositions (R323 to R326) -/

/-- A composition definition as parsed (Table 12.3): the composition and the number of quota and share entries. -/
structure CompDef where
  quotas  : List (Nat × Nat × Nat)
  shares  : List (Nat × Nat × Nat)
  windows : List PWindow
  parts   : Nat

/-- A window entry (Table 12.4). -/
def parseWindow (e : List Byte) : PWindow :=
  { lend := fieldAt e 0 1 == 1, part := fieldAt e 1 1, tier := fieldAt e 2 1, peer := fieldAt e 4 2, wid := fieldAt e 6 2, len := fieldAt e 8 8, base := fieldAt e 16 8, state := 1, unreach := none }

/-- A definition from its bytes. -/
def parseComp (d : List Byte) : CompDef :=
  let nq := fieldAt d 2 1
  let ns := fieldAt d 3 1
  let nw := fieldAt d 4 1
  { quotas := (List.range nq).map (fun i => let e := d.drop (32 + 16 * i); (fieldAt e 0 1, fieldAt e 1 1, fieldAt e 8 8)), shares := (List.range ns).map (fun i => let e := d.drop (32 + 16 * nq + 8 * i); (fieldAt e 0 1, fieldAt e 1 1, fieldAt e 2 1)), windows := (List.range nw).map (fun i => parseWindow (d.drop (32 + 16 * nq + 8 * ns + 48 * i))), parts := fieldAt d 8 8 }

/-- Whether two window entries are the same window, kept by a change. -/
def PWindow.same (a b : PWindow) : Bool :=
  a.lend == b.lend && a.part == b.part && a.tier == b.tier && a.peer == b.peer && a.wid == b.wid && a.len == b.len && (a.lend || a.base == b.base)

/-- Whether a definition's header is well formed (Table 12.3). -/
def compHeadOk (id : Nat) (d : List Byte) : Bool :=
  decide (32 ≤ d.length) && d.length == 32 + 16 * fieldAt d 2 1 + 8 * fieldAt d 3 1 + 48 * fieldAt d 4 1 &&
  fieldAt d 0 2 == id && decide (fieldAt d 4 1 ≤ 64) && zeroAt d 5 3 && zeroAt d 16 16

/-- The first entry, in the order quotas, shares, windows, that breaks a field's range or names no member (R324, R325). -/
def State.compBadEntry (s : State) (id : Nat) (d : List Byte) : Option Nat :=
  let k := parseComp d
  let nq := k.quotas.length
  let ns := k.shares.length
  let isMember := fun (p : Nat) => decide (p < 64) && bitOf k.parts p && s.configured p
  let others := (s.mem.comps.filter (fun c => c.1 != id)).flatMap (fun c => c.2.windows)
  let q := k.quotas.zipIdx.find? (fun x => !(isMember x.1.1 && decide (x.1.2.1 < 4) && x.1.2.2 % 2097152 == 0 && zeroAt (d.drop (32 + 16 * x.2)) 2 6))
  let h := k.shares.zipIdx.find? (fun x => !(isMember x.1.1 && decide (x.1.2.1 < 4) && bitOf (s.pcfg x.1.1).arrayMask x.1.2.1 && decide (0 < x.1.2.2) && zeroAt (d.drop (32 + 16 * nq + 8 * x.2)) 3 5))
  let clash := fun (i : Nat) (w : PWindow) => (others ++ k.windows.take i).any (fun o =>
    if w.lend then o.lend && o.wid == w.wid else !o.lend && decide (o.base < w.base + w.len ∧ w.base < o.base + o.len))
  let w := k.windows.zipIdx.find? (fun x =>
    let e := d.drop (32 + 16 * nq + 8 * ns + 48 * x.2)
    !(isMember x.1.part && decide (fieldAt e 0 1 < 2) && (if x.1.lend then decide (x.1.tier < 2) && x.1.base == 0 else
        x.1.tier == 0 && x.1.base % 2097152 == 0 && decide (0x1000000000000 ≤ x.1.base ∧ x.1.base + x.1.len ≤ 0x8000000000000)) &&
      decide (1 ≤ x.1.peer ∧ x.1.peer ≤ 0xFFFE) && x.1.len % 2097152 == 0 && decide (2097152 ≤ x.1.len ∧ x.1.len ≤ 2 ^ 44) && zeroAt e 3 1 && zeroAt e 24 24 && !clash x.2 x.1))
  match q, h, w with
  | some x, _, _ => some x.2
  | none, some x, _ => some (nq + x.2)
  | none, none, some x => some (nq + ns + x.2)
  | none, none, none => none

/-- Tensors of a partition in Tier P, and those inside a borrow window. -/
def State.tierPTensors (s : State) (p : Nat) : List Nat := (s.mem.tensors.filter (fun t => t.2.part == p && tierOf t.2.addr == some 2)).map (fun t => t.1)
def State.windowTensors (s : State) (w : PWindow) : Bool := s.mem.tensors.any (fun t => decide (w.base ≤ t.2.addr ∧ t.2.addr < w.base + w.len))

/-- Whether a change would strand tensors: a dropped borrow window that holds some, or a dropped member with Tier P tensors. -/
def State.strands (s : State) (old : Composition) (parts : Nat) (ws : List PWindow) : Bool :=
  old.windows.any (fun w => !w.lend && !ws.any w.same && s.windowTensors w) ||
  (List.range 64).any (fun p => bitOf old.parts p && !bitOf parts p && !(s.tierPTensors p).isEmpty)

/-- Whether every effective quota covers its use and their sums stay within R63. -/
def State.quotasOk (s : State) : Bool :=
  let ps := (s.parts.map (fun x => x.1)).filter (fun p => s.configured p)
  ps.all (fun p => [0, 1, 2, 3].all (fun t => decide (s.useOf p t ≤ s.quotaOf p t))) &&
  [0, 1, 3].all (fun t => decide (ps.foldl (fun n p => n + s.quotaOf p t) 0 ≤ s.tierCapacity t))

/-- The first quota entry of composition `id` with which its quotas break a limit, all entries before it breaking none (R325). -/
def State.quotaFault (s : State) (id : Nat) (qs : List (Nat × Nat × Nat)) : Option Nat :=
  let upTo := fun (n : Nat) => s.modMem (fun m => { m with comps := kvUpd id (fun (c : Composition) => { c with quotas := qs.take n }) m.comps })
  if (upTo 0).quotasOk then (List.range qs.length).find? (fun i => !(upTo (i + 1)).quotasOk) else none

/-- Close the windows of a composition that a change drops: the backing of a lend window is freed, and CLOSE sent (R322, R326). -/
def State.dropWindow (s : State) (w : PWindow) : State :=
  let s := if w.lend then s.release w.base else s
  s.sendOrder w.peer 0x23 w.part (s.resetGen w.part) [w.wid] 4

/-- Allocate the backing of a new lend window, or send OPEN for a new borrow window. -/
def State.startWindow (s : State) (w : PWindow) : Option (PWindow × State) :=
  if w.lend then (s.alloc w.part w.tier w.len .lend).map (fun x => ({ w with base := x.1 }, x.2.hide x.1 w.len)) else some (w, s)

/-- The windows of a definition from entry `i` on: those kept as they stand, new ones started in order; the partition and the entry of a lend
window that does not fit. -/
def State.buildWindows (s : State) (old : List PWindow) : Nat → List PWindow → Except (Nat × Nat) (List PWindow × State)
  | _, [] => .ok ([], s)
  | i, w :: ws =>
    match old.find? (fun o => o.same w) with
    | some o => (s.buildWindows old (i + 1) ws).map (fun x => (o :: x.1, x.2))
    | none => match s.startWindow w with
      | none => .error (w.part, i)
      | some (w', s) => (s.buildWindows old (i + 1) ws).map (fun x => (w' :: x.1, x.2))

/-- Fail a `COMPOSITION_SET` with the index of the entry at fault in RESULT1. -/
def State.failComp (s : State) (p rid status : Nat) (entry : Option Nat) : State := s.complete p rid status 0 0 0 (entry.getD 0xFFFFFFFFFFFFFFFF) []

/-- The checks of a `COMPOSITION_SET` that need no definition read (R324, R325). -/
def State.compositionCheck (s : State) (p : Nat) (c : HostCmd) : Option Nat :=
  let id := c.param 0 2
  if 1 < c.param 2 1 ∨ 4095 < id ∨ (c.param 2 1 = 1 ∧ (c.resultAddr = 0 ∨ c.resultAddr % 8 ≠ 0)) then some scBadCommand
  else if c.param 2 1 = 0 then (if s.addrOk p (c.param 8 8) (c.param 16 4) then none else some scBadHandle)
  else match kvGet? id s.mem.comps with
  | none => some scBadHandle
  | some old =>
    if s.resultOk p c.resultAddr 80 = false then some scBadHandle
    else if (List.range 64).any (fun m => bitOf old.parts m && !(s.tierPTensors m).isEmpty) then some scBadCommand
    else none

/-- COMPOSITION_SET: checks a definition and puts it in force at one instant (R324 to R326); it waits while a load applies (R491). -/
def execCompositionSet (p q cid : Nat) (data : List Byte) (s : State) : Host.Outcome State Fault Refusal :=
  match s.readyRec p q cid 0x45 with
  | none => .next s
  | some (rid, r) =>
    let c := r.cmd
    let id := c.param 0 2
    if c.param 2 1 = 1 ∨ s.allocHeld = true then .next s
    else if let some st := (s.named r).compositionCheck p c then .next (s.failComp p rid st none) else
    let (d, s) := s.readInput p r.flow (c.param 8 8) (c.param 16 4) data
    if !compHeadOk id d then .next (s.failComp p rid scBadCommand none) else
    let k := parseComp d
    let members := (List.range 64).filter (bitOf k.parts)
    if members.any (fun m => !s.configured m || s.mem.comps.any (fun o => o.1 != id && bitOf o.2.parts m)) then .next (s.failComp p rid scBadCommand none) else
    match s.compBadEntry id d with
    | some e => .next (s.failComp p rid scBadCommand (some e))
    | none =>
      let old : Composition := (kvGet? id s.mem.comps).getD { parts := 0, quotas := [], shares := [], windows := [], created := s.now, meters := List.replicate 10 0 }
      if s.strands old k.parts k.windows then .next (s.failComp p rid scBadCommand none) else
      let total := s.mem.comps.foldl (fun n o => if o.1 = id then n else n + o.2.windows.length) k.windows.length
      let first := k.quotas.length + k.shares.length
      if (kvGet? id s.mem.comps).isNone ∧ 256 ≤ s.mem.comps.length then .next (s.failComp p rid scQuota none)
      else if 512 < total then .next (s.failComp p rid scQuota (some (first + k.windows.length - (total - 512)))) else
      let s1 := s.integrate
      let cur : Composition := (kvGet? id s1.mem.comps).getD old
      let dropped := old.windows.filter (fun w => !k.windows.any w.same)
      let new : Composition := { cur with parts := k.parts, quotas := k.quotas, shares := k.shares, windows := old.windows.filter (fun w => k.windows.any w.same) }
      let s2 := (dropped.filter (fun w => w.lend)).foldl (fun (t : State) w => t.release w.base) s1
      let s2 := s2.modMem (fun m => { m with comps := kvPut id new m.comps })
      if !s2.quotasOk then .next (s.failComp p rid scQuota (s2.quotaFault id k.quotas)) else
      match s2.buildWindows old.windows first k.windows with
      | .error (lp, e) =>
        let past := s.overQuota lp (fun _ => (match (s2.unquoted lp).buildWindows old.windows first k.windows with
          | .ok _ => true
          | .error y => y != (lp, e)))
        .next ((s.noteQuota lp scQuota past).failComp p rid scQuota (some e))
      | .ok (ws, s3) =>
        let s3 := dropped.foldl (fun (t : State) w => t.sendOrder w.peer 0x23 w.part (t.resetGen w.part) [w.wid] 4) s3
        let fresh := ws.filter (fun w => !w.lend && !old.windows.any w.same)
        let s3 := fresh.foldl (fun (t : State) w => t.sendOrder w.peer 0x20 w.part (t.resetGen w.part) [w.wid, w.len] 12) s3
        let s3 := s3.modMem (fun m => { m with comps := kvUpd id (fun (x : Composition) => { x with windows := ws }) m.comps })
        .next (s3.complete p rid scDone 0 0 ((ws.filter (fun w => w.state == 1)).length % 65536) 0 [])

/-- COMPOSITION_REMOVE: OP 1 writes the final meters at RESULT_ADDR and ends the composition; its windows are closed (R325,
R326). -/
def execCompositionRemove (p q cid : Nat) (s : State) : Host.Outcome State Fault Refusal :=
  match s.readyRec p q cid 0x45 with
  | none => .next s
  | some (rid, r) =>
    let c := r.cmd
    let id := c.param 0 2
    if c.param 2 1 ≠ 1 ∨ s.allocHeld = true then .next s
    else if let some st := (s.named r).compositionCheck p c then .next (s.failComp p rid st none) else
    match kvGet? id s.mem.comps with
    | none => .next (s.failComp p rid scBadHandle none)
    | some old =>
      let s1 := s.integrate
      let final := ((kvGet? id s1.mem.comps).getD old).record s.now
      let s2 := old.windows.foldl State.dropWindow s1
      let s2 := s2.modMem (fun m => { m with comps := kvDel id m.comps })
      if !s2.quotasOk then .next (s.failComp p rid scQuota none)
      else .next (s2.complete p rid scDone 0 0 0 0 (final.flatMap (fun v => leBytes 8 v)))

/-- What a partition reset with SCRUB does to pooled memory (R322): Tier P tensors are freed, the partition's borrow and lend
entries removed, and CLOSE sent to each peer. -/
def State.windowsScrub (s : State) (p : Nat) : State :=
  let s := (s.tierPTensors p).foldl State.freeTensor s
  let s := s.integrate
  let ws := s.mem.comps.flatMap (fun c => c.2.windows.filter (fun w => w.part == p))
  let s := ws.foldl State.dropWindow s
  s.modMem (fun m => { m with comps := kvMapVals (fun _ (c : Composition) => { c with windows := c.windows.filter (fun w => w.part != p) }) m.comps })

end Sys2Proof.Machine
end

