-- ==== Sys2Proof/Machine/FabNet.lean ====
section
/-! DEFINITION. The fabric as a network (spec/14): unrouted orders on links, the choice of the anchor, node IDs, the topology map,
route tables and the collective tree (R364 to R370), and the choice of an egress link (R370). -/

namespace Sys2Proof.Machine

/-! ### Orders on links -/

/-- A packet put at an egress now. -/
def State.egress (s : State) (k : Packet) (cls len : Nat) (lane : Option Nat) : EgPacket :=
  { pkt := k, entered := s.now, cls := cls, len := len, level := k.hops, start := none, sent := 0, lane := lane, quenched := none, gated := none }

/-- The destination that marks an order as not routed (Table 14.7): the peer of its link. -/
def unrouted : Nat := 0xFFFF

/-- Queue an unrouted order of a source, under its SEQ, on links (R361, R364, R365). -/
def State.putOrder (s : State) (lanes : List Nat) (src seq op : Nat) (args : List Nat) (len : Nat) : State :=
  let k : Packet := { vc := 0, ptype := 3, opcode := op, dstNode := unrouted, srcNode := src, seq := seq, length := len, args := args }
  let e := s.egress k 0 (32 + len) none
  lanes.foldl (fun (t : State) l => t.modLink l (fun x => { x with vc0q := x.vc0q ++ [e] })) s

/-- Queue an unrouted order of this node on links, with the next SEQ (R363). -/
def State.sendOn (s : State) (lanes : List Nat) (op : Nat) (args : List Nat) (len : Nat) : State :=
  let seq := s.fab.orderNo
  (s.modFab (fun f => { f with orderNo := (seq + 1) % 2 ^ 32 })).putOrder lanes s.nodeId seq op args len

/-- Lanes that name the links that are up. -/
def State.upLinks (s : State) : List Nat := (s.fab.links.filter (fun x => x.2.isUp)).map (fun x => x.1)

/-- Queue an unrouted order on every up link. -/
def State.sendAll (s : State) (op : Nat) (args : List Nat) (len : Nat) : State := s.sendOn s.upLinks op args len

/-- Send a HELLO (R364): identity, port, link index, width, node ID, identity of the anchor held. -/
def State.sendHello (s : State) (lane : Nat) : State :=
  match s.link? lane with
  | none => s
  | some x => (s.sendOn [lane] 1 [s.ident, lane / 8, lane % 8 / x.width, x.width, s.nodeId, s.candIdent] 40).modLink lane (fun x => { x with helloSent := true })

/-- Send ELECT on every up link: the candidate and its count (R365). -/
def State.sendElect (s : State) : State := s.sendAll 2 [s.candIdent, s.fab.candCnt] 24

/-! ### Distances in a map (R367, R369, R374) -/

/-- Neighbours of a member in a map. -/
def neighbours (m : KV Member) (n : Nat) : List Nat :=
  ((kvGet? n m).map (fun x => ((x.links.map (fun l => l.1)).filter (fun p => (kvGet? p m).isSome)).eraseDups)).getD []

/-- Members by distance from those found so far, level by level. -/
def bfsGo (m : KV Member) : Nat → Nat → List Nat → KV Nat → KV Nat
  | 0, _, _, seen => seen
  | fuel + 1, d, front, seen =>
    let next := ((front.flatMap (neighbours m)).eraseDups).filter (fun n => (kvGet? n seen).isNone)
    if next.isEmpty then seen else bfsGo m fuel (d + 1) next (next.foldl (fun (t : KV Nat) n => kvPut n (d + 1) t) seen)

/-- Distance of every member within 15 hops of `n`. -/
def distances (m : KV Member) (n : Nat) : KV Nat := bfsGo m 15 0 [n] [(n, 0)]

/-- The diameter of a map, at most 8. -/
def diameter (m : KV Member) : Nat := min 8 (m.foldl (fun d x => (distances m x.1).foldl (fun d y => max d y.2) d) 0)

/-- A member's parent in the collective tree: the neighbour nearest the anchor with the lowest ID; 0 for the anchor and for a member
that no path joins to it. `d` holds the distances from the anchor. -/
def parentOf (m : KV Member) (d : KV Nat) (n : Nat) : Nat :=
  match kvGet? n d with
  | none => 0
  | some k => if k = 0 then 0 else ((neighbours m n).filter (fun p => kvGet? p d == some (k - 1))).foldl (fun b p => if b = 0 ∨ p < b then p else b) 0

/-- Insert into a list ordered by a key. -/
def insertBy (key : Nat → Nat) (x : Nat) : List Nat → List Nat
  | [] => [x]
  | y :: ys => if key x < key y then x :: y :: ys else y :: insertBy key x ys

/-- The route seed. -/
def State.routeSeed (s : State) : Nat := (s.reg rFabRouteSeed).toNat

/-- The ID under which the map lists this node: its own, or the one it has released (R366). -/
def State.placeId (s : State) (m : KV Member) : Nat :=
  if s.nodeId ≠ 0 then s.nodeId else ((m.find? (fun x => x.2.ident == s.ident)).map (fun x => x.1)).getD 0

/-- The route entry to a destination: minimal hops, and up to 4 links on minimal paths, those with the lowest hash where more exist (R369). -/
def State.routeTo (s : State) (m : KV Member) (dst : Nat) : Route :=
  let d := distances m dst
  match kvGet? (s.placeId m) d with
  | none => { dist := 0, links := [], override := false }
  | some k =>
    let mine := (s.fab.links.filter (fun x => x.2.isUp && decide (0 < k) && kvGet? x.2.peerId d == some (k - 1))).map (fun x => linkId x.1 x.2.width)
    { dist := k, links := (mine.foldl (fun ls l => insertBy (Config.linkHash s.routeSeed dst) l ls) []).take 4, override := false }

/-- The route table as the map in force gives it (R369). -/
def State.mapRoutes (s : State) : KV Route :=
  let m := s.fab.topo
  if s.placeId m = 0 then [] else (m.filter (fun x => x.1 != s.placeId m)).map (fun x => (x.1, s.routeTo m x.1))

/-- Recompute the route table for a new map or route seed; overridden entries fall (R369). -/
def State.reroute (s : State) : State := s.modFab (fun f => { f with routes := s.mapRoutes })

/-- Recompute the route table where neither map nor seed has changed: overridden entries stand (R369). -/
def State.refreshRoutes (s : State) : State :=
  s.modFab (fun f => { f with routes := (f.routes.filter (fun x => x.2.override)).foldl (fun rs x => kvPut x.1 x.2 rs) s.mapRoutes })

/-! ### Taking in a map (R367) -/

/-- All collectives of this node fail (R377). -/
def State.failColls (s : State) (status : Nat) : State := (s.fab.colls.map (fun c => c.1)).foldl (fun (t : State) id => t.failColl id status 0) s

/-- Take in a map: routes and tree are recomputed, the change is counted; a member that left, or another anchor, ends the collectives
that run (R377). -/
def State.takeTopo (s : State) (anchor : Nat) (m : KV Member) : State :=
  let left := s.fab.topo.any (fun x => (kvGet? x.1 m).isNone)
  let s := if (left || (anchor != s.fab.anchorId && s.fab.anchorId != 0)) && !s.fab.colls.isEmpty then s.failColls scUnreachable else s
  let d := distances m anchor
  let kids := (m.map (fun x => x.1)).filter (fun n => n != s.nodeId && s.nodeId != 0 && parentOf m d n == s.nodeId)
  let s := s.modFab (fun f => { f with
    topo := m
    anchorId := anchor
    parent := parentOf m d s.nodeId
    kids := kids })
  let s := ((s.setFld rFabStatus fFabStatus_MEMBERS m.length).setFld rFabStatus fFabStatus_DIAMETER (diameter m)).setFld rFabStatus fFabStatus_ANCHOR_ID anchor
  (s.reroute.bump cFabRouteChanges 1).noteUnreach

/-! ### Orders that carry more than 212 bytes -/

/-- A list in pieces of `n`. -/
def piecesOf (n : Nat) : Nat → List Nat → List (List Nat)
  | 0, _ => []
  | fuel + 1, xs => if xs.length ≤ n then [xs] else xs.take n :: piecesOf n fuel (xs.drop n)

/-- Send numbers to a node, or on links, in as many orders as they take: each carries its part, the number of parts, and what every part
repeats. -/
def State.sendParts (s : State) (dst : Except (List Nat) Nat) (op : Nat) (head xs : List Nat) : State :=
  let ps := piecesOf 16 (xs.length + 1) xs
  ps.zipIdx.foldl (fun (t : State) c =>
    let args := [c.2, ps.length] ++ head ++ c.1
    match dst with
    | .ok d => t.sendOrder d op 0 0 args (8 * args.length)
    | .error lanes => t.sendOn lanes op args (8 * args.length)) s

/-- The numbers of links, and of a map. -/
def linkNums (ls : List (Nat × Nat × Nat)) : List Nat := ls.flatMap (fun l => [l.1, l.2.1, l.2.2])
def topoNums (m : KV Member) : List Nat := m.flatMap (fun x => [x.1, x.2.ident, x.2.links.length] ++ linkNums x.2.links)

/-- Send the map down the collective tree (R367). -/
def State.sendTopo (s : State) : State := s.fab.kids.foldl (fun (t : State) n => t.sendParts (.ok n) 4 [t.fab.anchorId] (topoNums t.fab.topo)) s

/-! ### Node IDs (R366) -/

/-- Up links of this node as it reports them: peer ID, link ID, width. -/
def State.ownLinks (s : State) : List (Nat × Nat × Nat) :=
  (s.fab.links.filter (fun x => x.2.isUp)).map (fun x => (x.2.peerId, linkId x.1 x.2.width, ((List.range 8).filter (bitOf x.2.lanesUp)).length))

/-- The ID this node claims: its own, its preset, 0 for none; 0xFFFF where its preset is held by another, so that it takes none. -/
def State.ownClaim (s : State) : Nat :=
  if s.nodeId ≠ 0 then s.nodeId
  else if s.fld rFabStatus fFabStatus_DUP_PRESET = 1 then 0xFFFF
  else if s.fld rFabPreset fFabPreset_PRESET = 1 then s.fld rFabPreset fFabPreset_NODE_ID else 0

/-- The least ID from `i` that is not in use. -/
def lowestFree (used : List Nat) : Nat → Nat → Nat
  | 0, i => i
  | fuel + 1, i => if used.contains i then lowestFree used fuel (i + 1) else i

/-- IDs by ascending identity: a claim stands unless a lower identity holds it; the others receive the lowest free ID, as far as 16,384
members go. The last part counts the conflicts. -/
def settleIds (rs : KV Member) : List (Nat × Nat) × Nat :=
  let claims := rs.map (fun r => r.2.ident)
  let r := rs.foldl (fun (a : List Nat × List (Nat × Nat) × Nat) r =>
    let c := r.2.ident
    let free := lowestFree (a.1 ++ claims) 65535 1
    if 16384 ≤ a.1.length ∨ c = 0xFFFF then (a.1, a.2.1 ++ [(r.1, 0)], a.2.2)
    else if c = 0 then (free :: a.1, a.2.1 ++ [(r.1, free)], a.2.2)
    else if a.1.contains c then (free :: a.1, a.2.1 ++ [(r.1, free)], a.2.2 + 1)
    else (c :: a.1, a.2.1 ++ [(r.1, c)], a.2.2)) ([], [], 0)
  (r.2.1, r.2.2)

/-- Take an assigned ID. A node with another preset takes none and sets DUP_PRESET (R366). -/
def State.takeId (s : State) (id : Nat) : State :=
  if s.fld rFabPreset fFabPreset_PRESET = 1 ∧ id ≠ s.fld rFabPreset fFabPreset_NODE_ID then
    (s.setFld rFabStatus fFabStatus_DUP_PRESET 1).setFld rFabStatus fFabStatus_NODE_ID 0
  else s.setFld rFabStatus fFabStatus_NODE_ID id

/-- The anchor settles IDs and the map from the reports it holds, its own among them; a new map is taken in and sent down (R366, R367). A node that
the map in force does not list under its ID is sent that ID. Members that no path joins to the anchor have left. -/
def State.anchorSettle (s : State) : State :=
  let rs := kvPut s.ident { ident := s.ownClaim, links := s.ownLinks } s.fab.reports
  let (ids, n) := settleIds rs
  let s := if n = 0 then s else s.bump cFabIdConflicts n
  let s := ids.foldl (fun (t : State) x =>
    if x.2 = 0 then t
    else if x.1 = t.ident then (if t.nodeId = x.2 then t else t.takeId x.2)
    else if ((kvGet? x.1 rs).map (fun r => r.ident)) = some x.2 ∧ (kvGet? x.2 t.fab.topo).map (fun m => m.ident) = some x.1 then t
    else t.sendAll 3 [x.1, x.2] 18) s
  let rs := kvMapVals (fun k (r : Member) => match ids.find? (fun x => x.1 == k) with
    | some x => if x.2 = 0 then r else { r with ident := x.2 }
    | none => r) rs
  let m := ids.foldl (fun (m : KV Member) x => if x.2 = 0 then m else match kvGet? x.1 rs with
    | some r => kvPut x.2 { ident := x.1, links := r.links } m
    | none => m) ([] : KV Member)
  let d := distances m s.nodeId
  let m := if s.nodeId = 0 then m else m.filter (fun x => (kvGet? x.1 d).isSome)
  let s := s.modFab (fun f => { f with reports := rs })
  if m = s.fab.topo ∧ s.fab.anchorId = s.nodeId then s else (s.takeTopo s.nodeId m).sendTopo

/-- The ID of the anchor held, where the map in force lists it; 0 otherwise. -/
def State.anchorNode (s : State) : Nat := ((s.fab.topo.find? (fun x => x.2.ident == s.candIdent)).map (fun x => x.1)).getD 0

/-- The way toward the anchor held: its node where a route leads there, otherwise the link by which its ELECT came; none where that link is
down. -/
def State.anchorWay (s : State) : Option (Except (List Nat) Nat) :=
  if s.reachable s.anchorNode then some (.ok s.anchorNode)
  else match s.fab.candLane with
    | some l => if s.upLinks.contains l then some (.error [l]) else none
    | none => none

/-- Report the up links (R367): the anchor merges its own report; any other node sends it toward the anchor, over all its links where it knows no
way there. -/
def State.reportLinks (s : State) : State :=
  if s.isAnchor then s.anchorSettle
  else s.sendParts (s.anchorWay.getD (.error s.upLinks)) 4 [0, s.ident, s.ownClaim] (linkNums s.ownLinks)

/-- Release the ID and join again, after a change of route seed or preset through a load; the route table is recomputed at once (R366). -/
def State.rejoin (s : State) : State :=
  let s := ((s.setFld rFabStatus fFabStatus_NODE_ID 0).setFld rFabStatus fFabStatus_DUP_PRESET 0).reroute
  if s.upLinks.isEmpty then s else s.reportLinks

/-! ### The anchor (R365) -/

/-- Change the candidate (0 = own), which came by a link: it is sent on, a change of anchor ends the collectives that run (R377), and this node
reports its links to the new anchor (R367). A node that becomes the anchor itself starts from the map in force, whose IDs stand (R365). -/
def State.setCand (s : State) (c cnt : Nat) (lane : Option Nat) : State :=
  let s := s.failColls scUnreachable
  let s := (s.modFab (fun f => { f with
    cand := if c = s.ident then 0 else c
    candSeen := s.now
    candCnt := cnt
    candLane := if c = s.ident then none else lane
    reports := if c = s.ident then f.topo.foldl (fun (m : KV Member) x => kvPut x.2.ident { ident := x.1, links := x.2.links } m) [] else f.reports })).sendElect
  if c = s.ident then s else s.reportLinks

/-- Know an identity: a lower one than the candidate becomes the candidate. -/
def State.noteCand (s : State) (c lane : Nat) : State := if c < s.candIdent then s.setCand c 0 (some lane) else s

/-! ### Rows -/

/-- ELECT_ARRIVAL: a lower identity becomes the candidate; a fresh count of the candidate held refreshes it and is passed on (R365). -/
def execElectArrival (lane ident count : Nat) (s : State) : Host.Outcome State Fault Refusal :=
  match s.link? lane with
  | none => .next s
  | some x =>
    if !x.isUp then .next s
    else if ident < s.candIdent then .next (s.setCand ident count (some lane))
    else if ident = s.candIdent ∧ s.fab.cand ≠ 0 ∧ s.fab.candCnt < count then
      .next ((s.modFab (fun f => { f with
        candSeen := s.now
        candCnt := count
        candLane := some lane })).sendElect)
    else .next s

/-- ANCHOR_ELECT_TICK: the anchor sends a fresh ELECT, with a rising count, and settles IDs and map (R365 to R367). -/
def execAnchorElectTick (s : State) : Host.Outcome State Fault Refusal :=
  if s.isAnchor then .next (((s.modFab (fun f => { f with candCnt := f.candCnt + 1 })).sendElect).anchorSettle) else .next s

/-- The lowest identity that a node knows beside the one it drops: its own, and those of the peers of its up links (R365). -/
def State.nextCand (s : State) : Nat × Option Nat :=
  (s.fab.links.filter (fun x => x.2.isUp && x.2.peerIdent != s.fab.cand)).foldl (fun (b : Nat × Option Nat) x =>
    if x.2.peerIdent < b.1 then (x.2.peerIdent, some x.1) else b) (s.ident, none)

/-- ELECT_STALE: the candidate's ELECT has not been refreshed for 5 ms, so it is dropped and the node elects again, from the lowest other
identity that it knows (R365). -/
def execElectStale (s : State) : Host.Outcome State Fault Refusal :=
  if s.fab.cand ≠ 0 ∧ s.fab.candSeen + 5000000 ≤ s.now then .next (s.setCand s.nextCand.1 0 s.nextCand.2) else .next s

/-- ASSIGN_ARRIVAL: an assignment for this node gives it its ID; one for another node is passed on over every link under its own source and SEQ
(R366). A copy of one that has been seen changes nothing (DEDUCED, log entry 56). -/
def execAssignArrival (src seq ident id : Nat) (s : State) : Host.Outcome State Fault Refusal :=
  let seen := decide (src ≠ 0 ∧ kvGet? src s.fab.orderRx = some seq)
  .next (s.takeOrder src seq (fun s =>
    if seen then s
    else if ident ≠ s.ident then s.putOrder s.upLinks src seq 3 [ident, id] 18
    else if id = 0 ∨ id = 0xFFFF ∨ id = s.nodeId then s
    else (s.takeId id).refreshRoutes.reportLinks))

/-- TOPOLOGY_REPORT_ARRIVAL: the anchor merges a node's report into the map; any other node passes it on toward the anchor (R367). `node`
is the ID the reporter claims. -/
def execTopologyReportArrival (node ident : Nat) (links : List (Nat × Nat × Nat)) (s : State) : Host.Outcome State Fault Refusal :=
  if s.isAnchor then
    if ident = s.ident then .next s
    else .next ((s.modFab (fun f => { f with reports := kvPut ident { ident := node, links := links } f.reports })).anchorSettle)
  else match s.anchorWay with
    | some w => .next (s.sendParts w 4 [0, ident, node] (linkNums links))
    | none => .next s

/-- TOPO_ARRIVAL: the map is taken in and passed down the tree (R367). -/
def execTopoArrival (src seq anchor : Nat) (topo : List (Nat × Nat × List (Nat × Nat × Nat))) (s : State) : Host.Outcome State Fault Refusal :=
  .next (s.takeOrder src seq (fun s =>
    let m := topo.foldl (fun (m : KV Member) x => if x.1 = 0 ∨ x.1 = 0xFFFF then m else kvPut x.1 { ident := x.2.1, links := x.2.2 } m) ([] : KV Member)
    (s.takeTopo anchor m).sendTopo))

/-- FAB_RT_ENTRY_WRITE: the entry of the selected destination is installed and marked OVERRIDE (R369); a COUNT above 4 or DIST above 8
is taken at the end of its range. -/
def execFabRtEntryWrite (value : Word) (pf : Nat) (s : State) : Host.Outcome State Fault Refusal :=
  let s := if value &&& rsvMask rFabRtEntry = 0 then s else s.accessErr fNodeAccessErr_RSV_WRITE pf rFabRtEntry
  let n := min 4 (fFabRtEntry_COUNT.get value)
  let r : Route := { dist := min 8 (fFabRtEntry_DIST.get value), links := (List.range n).map (fun i => (value.toNat / 2 ^ (8 * i)) % 256), override := true, egress := fFabRtEntry_EGRESS.get value }
  .next ((s.modFab (fun f => { f with routes := kvPut (s.fld rFabRtSel fFabRtSel_DEST) r f.routes })).noteUnreach)

end Sys2Proof.Machine
end

