-- ==== Sys2Proof/Machine/Serve.lean ====
section
/-! DEFINITION. The serving loop: period boundaries with their vents, batch steps, commits, gate lists and array decisions
(spec/05, R142 to R155, R264, R391), handoffs of contexts between pools and their contests (R100, R101), pool loss (R102)
and the FATAL stop (R407). -/

namespace Sys2Proof.Machine

/-! ### Fencing reports and the FATAL stop -/

/-- Report a fence as an event of class FENCED with ACTION fenced, and count it. -/
def State.reportFence (s : State) (src kind unit part detail : Nat) : State :=
  let s := s.modUnit kind unit (fun u => { u with fences := u.fences + 1 })
  (s.bump cFltFences 1).event 2 src kind 1 unit part detail

/-- The partial results of a query (R149): the entries that its final selection list holds or, before a widened retry, held; for a scattered query
those of the merge of its shards. -/
def State.partialOf (s : State) (rid : Nat) (q : Query) : Option SelResult :=
  let lid := if q.scatter then mergeLid rid else finalLid rid
  match s.selFind lid with
  | some u => (kvGet? lid (s.sel u).lists).map (fun l => l.close lid)
  | none => q.first

/-- The bytes of partial results, with the shards that have returned and failed. -/
def Query.partialBytes (q : Query) (r : SelResult) (flags : Nat) : List Byte :=
  r.bytes q.epoch q.gathered (q.shards.filter (fun y => y.state == 1)).length (q.shards.filter (fun y => y.state == 2)).length flags

/-- Complete a request that a fault cut short: COUNT gives the results of the phases that ended before it, with PARTIAL when it is above
0 (R404); the results of a query are written with KEEP_PARTIAL, as for a vent, and SAT says that a count in them is saturated (R128). -/
def State.cutShort (s : State) (rid status : Nat) : State :=
  match kvGet? rid s.recs with
  | none => s
  | some r =>
    let fl := fun (n : Nat) => if 0 < n then flPartial else 0
    match kvGet? rid s.queries with
    | some q =>
      let part := s.partialOf rid q
      let n := (part.map (fun x => x.entries.length)).getD 0
      match part with
      | some x =>
        let write := r.cmd.keepPartial && decide (0 < n)
        let flags := fl n + (if write && x.sats q.gathered then flSat else 0)
        s.complete r.part rid status flags n q.epoch 0 (if write then q.partialBytes x flags else [])
      | none => s.complete r.part rid status 0 0 q.epoch 0 []
    | none =>
      let n := r.finalCount status ((r.long.map (fun l => l.count)).getD 0)
      s.complete r.part rid status (fl n) n 0 0 []

/-- FATAL_STOP (R407): every open request completes with `INTERNAL_ERROR`, with PARTIAL where it reports a COUNT, the event is recorded
with ACTION 5, and FATAL is set; from then on no command but `LOG_READ` is fetched or admitted. -/
def State.fatalStop (s : State) (src kind unit : Nat) : State :=
  if s.flt.stopped then s else
  let s := (s.recs.map (fun r => r.1)).foldl (fun (t : State) rid => t.cutShort rid scInternal) s
  ((s.event 3 src kind 5 unit 0xFF 0).setFld rFltStatus fFltStatus_FATAL 1).modFlt (fun t => { t with stopped := true })

/-! ### Venting (R147 to R150) -/

/-- Whether a context copy is contested: it has stayed OFFERED or PENDING for more than 100 µs (R101). -/
def Ctx.contested (c : Ctx) (now : Nat) : Bool := decide (c.st ≠ .owned ∧ c.since + 100000 < now)

/-- Whether a copy of a request's context is contested (R101). -/
def State.contested (s : State) (rid : Nat) : Bool := s.ctxs.any (fun c => c.2.rid == rid && c.2.contested s.now)

/-- Vent a query (R148, R149): its partial results are counted, and written with KEEP_PARTIAL; SAT says that a count in them is saturated (R128). -/
def State.vent (s : State) (rid : Nat) (q : Query) : State :=
  let s := s.bump (cPrtVented q.part) 1
  let s := if q.started then s else s.bump (cPrtVentedUnstarted q.part) 1
  let keep := match kvGet? rid s.recs with | some r => r.cmd.keepPartial | none => false
  match s.partialOf rid q with
  | none => s.complete q.part rid scVented 0 0 q.epoch 0 []
  | some r =>
    let n := r.entries.length
    let write := keep && decide (0 < n)
    let flags := if write && r.sats q.gathered then flSat else 0
    s.complete q.part rid scVented flags n q.epoch 0 (if write then q.partialBytes r (cplFlags scVented n flags) else [])

/-- Queries that ended otherwise at this instant, before the vent that is due now: each vent is discarded and counted (R98, R150). -/
def State.lateVents (s : State) (p : Nat) : State :=
  s.lateEnds p (fun y => !y.vented && (match y.deadline with | some d => decide (d ≤ s.now) | none => false))

/-- Vent every query of a partition whose deadline has passed at the present boundary, but those contested (R147, R101). -/
def State.ventDue (s : State) (p : Nat) : State :=
  let s := s.lateVents p
  (s.queries.filter (fun q => q.2.part == p && decide (q.2.deadline ≤ s.now) && !s.contested q.1)).foldl
    (fun (t : State) q => if (kvGet? q.1 t.queries).isSome then t.vent q.1 q.2 else t) s

/-! ### Batch steps (R144, R145) -/

/-- Start a step: the queries admitted before this boundary whose input is read begin, beside the carried ones (R144). -/
def State.startStep (s : State) (p step : Nat) : State :=
  let mine := s.queries.filter (fun q => q.2.part == p)
  let fresh := mine.filter (fun q => q.2.phase == 1 && decide (q.2.stamp < s.now))
  let carried := (mine.filter (fun q => q.2.phase == 2)).length
  let s := s.modPart p (fun x => { x with stepNo := step })
  let s := s.setReg (rPrtServeStatus p) (packFields [(fPrtServeStatus_STEP, step % 2 ^ 32), (fPrtServeStatus_STEP_QUERIES, min 0xFFFF fresh.length),
    (fPrtServeStatus_STEP_CARRIED, min 0xFFFF carried)])
  let s := if fresh.isEmpty && carried == 0 then s else s.bump (cPrtSteps p) 1
  fresh.foldl (fun (t : State) q => t.beginQuery q.1 step) s

/-! ### Gate lists (R391, R393) -/

/-- Restart the gate lists whose REF_PARTITION is `p`; a list longer than the period is cut, and the cut counted. -/
def State.restartGates (s : State) (p : Nat) : State :=
  let per := (s.pcfg p).periodUs * 1000
  s.fab.gates.foldl (fun (t : State) g =>
    if g.2.list.ref = p then
      let sum := g.2.list.entries.foldl (fun n e => n + e.2) 0
      let t := t.modFab (fun f => { f with gates := kvPut g.1 { g.2 with restart := t.now, entry := 0, began := t.now } f.gates })
      if per < sum then t.bump cShpGateTrunc 1 else t
    else t) s

/-! ### The boundary (R152) -/

/-- PERIOD_BOUNDARY: at a whole multiple of the partition's period (R142), in this order: overdue queries are vented, the
update sequence commits, a new step starts and its first stages are issued, arrays the partition owns are kept or switched, and gate lists restart
(Table 5.1, R264, R391). A partition that is QUIESCING vents and commits but starts no step; in any other state than those two
the boundary passes without these (R145, R264), and only its arrays are decided (R152). -/
def execPeriodBoundary (p : Nat) (s : State) : Host.Outcome State Fault Refusal :=
  let per := (s.pcfg p).periodUs * 1000
  if s.configured p = false ∨ per = 0 ∨ s.now % per ≠ 0 then .next s
  else
    let st := s.pstate p
    let s := s.restartGates p
    let s := if st = stReady ∨ st = stQuiescing then (s.ventDue p).commitUpdates p else s
    let s := if st = stReady then s.startStep p (s.now / per) else s
    .next (((s.resume.arrBoundary p).freeOldModels).resume)

/-- ARRAY_SWITCH_DONE: a switch ends: its duration is reported, the warm set is resident and a spill restored; work that
waited for the array goes on (R155, R156, R160). -/
def execArraySwitchDone (a : Nat) (s : State) : Host.Outcome State Fault Refusal := .next (s.switchDone a).resume

/-! ### Handoff between pools (R100) -/

/-- Count a handoff message that a pool discards. -/
def State.msgDiscard (s : State) (g : Nat) : State := s.bump (cPrtPoolMsgDiscards g) 1

/-- HANDOFF_OFFER_ARRIVAL: the target pool allocates a context as PENDING with the offered generation, or refuses and counts
the refusal (Table 3.4, step 2). A message that matches no offer is discarded and counted. -/
def execHandoffOfferArrival (ctx gen : Nat) (s : State) : Host.Outcome State Fault Refusal :=
  let g := 1 - ctxPool ctx
  match kvGet? ctx s.ctxs with
  | none => .next (s.msgDiscard g)
  | some c =>
    if c.st ≠ .offered ∨ gen ≠ (c.gen + 1) % 65536 ∨ s.ctxs.any (fun x => x.2.rid == c.rid && x.1 != ctx) = true then .next (s.msgDiscard g)
    else match s.takeCtx c.part g c.rid gen .pending with
      | some (_, t) => .next t
      | none => .next (s.bump (cPrtPoolRefusals g) 1)

/-- HANDOFF_ACCEPT_ARRIVAL: the source sets the admission record to the new context and frees its copy; ownership passes
(Table 3.4, step 3). -/
def execHandoffAcceptArrival (ctx newCtx gen : Nat) (s : State) : Host.Outcome State Fault Refusal :=
  match kvGet? ctx s.ctxs, kvGet? newCtx s.ctxs with
  | some c, some n =>
    if c.st = .offered ∧ gen = (c.gen + 1) % 65536 ∧ n.st = .pending ∧ n.gen = gen ∧ n.rid = c.rid then
      .next ((s.putCtxs (kvDel ctx s.ctxs)).modRec c.rid (fun r => { r with ctx := newCtx }))
    else .next (s.msgDiscard (ctxPool ctx))
  | _, _ => .next (s.msgDiscard (ctxPool ctx))

/-- HANDOFF_REFUSE_ARRIVAL: the source's copy returns to OWNED; it retries after 10 µs (R100). -/
def execHandoffRefuseArrival (ctx gen : Nat) (s : State) : Host.Outcome State Fault Refusal :=
  match kvGet? ctx s.ctxs with
  | some c =>
    if c.st = .offered ∧ gen = (c.gen + 1) % 65536 then
      .next (s.putCtxs (kvPut ctx { c with st := .owned, retry := some (s.now + 10000) } s.ctxs))
    else .next (s.msgDiscard (ctxPool ctx))
  | none => .next (s.msgDiscard (ctxPool ctx))

/-- HANDOFF_COMMIT_ARRIVAL: the target's copy becomes OWNED and the next stage starts (Table 3.4, step 4). -/
def execHandoffCommitArrival (ctx gen : Nat) (s : State) : Host.Outcome State Fault Refusal :=
  match kvGet? ctx s.ctxs with
  | some c =>
    if c.st = .pending ∧ c.gen = gen ∧ ((kvGet? c.rid s.recs).map (fun r => r.ctx)) = some ctx then
      .next (((s.putCtxs (kvPut ctx { c with st := .owned } s.ctxs)).bump (cPrtPoolHandoffs (ctxPool ctx)) 1)).resume
    else .next (s.msgDiscard (ctxPool ctx))
  | none => .next (s.msgDiscard (ctxPool ctx))

/-- Whether a pool is being reinitialised after a loss (R102). -/
def State.rebuilding (s : State) (g : Nat) : Bool := s.fld (rPrtPoolStatus g) fPrtPoolStatus_REBUILDING == 1

/-- HANDOFF_RETRY_TIMER: 10 µs after a refusal the source offers its context again (R100); an offer that a pool's loss took back waits until that
pool is restored (R102). -/
def execHandoffRetryTimer (ctx : Nat) (s : State) : Host.Outcome State Fault Refusal :=
  match kvGet? ctx s.ctxs with
  | some c => (match c.retry with
    | some t => if c.st = .owned ∧ t ≤ s.now ∧ s.rebuilding (1 - ctxPool ctx) = false then .next (s.putCtxs (kvPut ctx { c with st := .offered, since := s.now, retry := none } s.ctxs)) else .next s
    | none => .next s)
  | none => .next s

/-- Partitions that lost a request with a pool: EV_POOL_LOST is set and vector 0 sent (R102). -/
def State.signalLost (s : State) (ps : List Nat) : State := ps.foldl (fun (t : State) p => (t.setWinBit p fWinEvPoolLost).sendMsix p 0) s

/-- A request that a pool's loss ends: `ABORTED_POOL_LOST` with the count of its partial results (R102). -/
def State.endLost (s : State) (rid : Nat) (r : Rec) : State :=
  s.complete r.part rid scPoolLost 0 ((r.long.map (fun l => l.count)).getD 0) 0 0 []

/-- A request of which neither pool holds a copy ends as under R102 (R101). -/
def State.loseCtx (s : State) (ctx : Nat) : State :=
  match s.recs.find? (fun r => r.2.ctx == ctx && !s.ctxs.any (fun c => c.2.rid == r.1)) with
  | none => s
  | some (rid, r) => (s.endLost rid r).signalLost [r.part]

/-- CONTEXT_CONTEST: a copy that has stayed OFFERED or PENDING for more than 100 µs is contested: the copy with the higher generation
wins, the G0 copy on a tie, and becomes OWNED; the other is freed; with no copy in either pool the request ends (R101). A vent that fell due
meanwhile takes effect. -/
def execContextContest (ctx : Nat) (s : State) : Host.Outcome State Fault Refusal :=
  match kvGet? ctx s.ctxs with
  | none => .next (s.loseCtx ctx)
  | some c =>
    if !c.contested s.now then .next s
    else
      let copies := s.ctxs.filter (fun x => x.2.rid == c.rid)
      let win := copies.foldl (fun (b : Nat × Ctx) x => if b.2.gen < x.2.gen ∨ (b.2.gen = x.2.gen ∧ x.1 < b.1) then x else b) (ctx, c)
      let s := s.putCtxs (kvPut win.1 { win.2 with st := .owned, retry := none } (s.ctxs.filter (fun x => x.2.rid != c.rid)))
      let s := (s.modRec c.rid (fun r => { r with ctx := win.1 })).bump (cPrtPoolContested (ctxPool win.1)) 1
      match kvGet? c.rid s.queries with
      | some q =>
        let per := (s.pcfg q.part).periodUs * 1000
        if 0 < per ∧ q.deadline ≤ s.now / per * per then .next (s.vent c.rid q) else .next s.resume
      | none => .next s

/-- Time in ns that a pool takes to be reinitialised (R102 gives 20 µs as the bound; DESIGN CHOICE, log entry 53). -/
def poolRebuildNs : Nat := 20000

/-- A pool is lost and reinitialised empty, which admissions and offers to it wait for: requests whose record names a context in it end with
`ABORTED_POOL_LOST`, offers to it are taken back, and the loss is counted, recorded and signalled (R102); a request that ended otherwise at
this instant is not completed again (R98). Both pools lost within 100 µs stop the
node (R406). -/
def State.losePool (s : State) (g : Nat) (src : Nat) : State :=
  let s := s.parts.foldl (fun (t : State) x => t.lateEnds x.1 (fun y => ctxPool y.ctx == g)) s
  let lost := s.recs.filter (fun r => ctxPool r.2.ctx == g)
  let s := s.putCtxs ((s.ctxs.filter (fun c => ctxPool c.1 != g)))
  let s := s.putCtxs (kvMapVals (fun _ (c : Ctx) => if c.st = CtxState.offered then { c with st := CtxState.owned, retry := some (s.now + 10000) } else c) s.ctxs)
  let s := ((s.setFld (rPrtPoolStatus g) fPrtPoolStatus_REBUILDING 1).bump (cPrtPoolLosses g) 1).reportFence src 11 g 0xFF 0
  let s := lost.foldl (fun (t : State) r =>
    if (kvGet? r.1 t.recs).isNone then t else
    t.endLost r.1 r.2) s
  let s := s.signalLost (lost.map (fun r => r.2.part)).eraseDups
  let times := s.flt.poolLost
  let other := times.getD (1 - g) 0
  let s := s.modFlt (fun t => { t with poolLost := if g = 0 then [s.now + 1, times.getD 1 0] else [times.getD 0 0, s.now + 1] })
  if other ≠ 0 ∧ s.now + 1 ≤ other + 100000 then s.fatalStop 12 13 0 else s.resume

/-- A lost pool is restored once the time of its reinitialisation has passed; what waited for it may go on (R99, R102). -/
def State.poolsBack (s : State) : State :=
  [0, 1].foldl (fun (t : State) g =>
    if t.rebuilding g && decide (t.flt.poolLost.getD g 0 + poolRebuildNs ≤ t.now + 1) then (t.setFld (rPrtPoolStatus g) fPrtPoolStatus_REBUILDING 0).resume else t) s

/-- POOL_LOSS: the context store of a pool reports an uncorrectable error (`ecc`), or a stall detector of its domain times out (R102). -/
def execPoolLoss (g : Nat) (ecc : Bool) (s : State) : Host.Outcome State Fault Refusal :=
  if 2 ≤ g then .next s else .next (s.losePool g (if ecc then 3 else 0))

end Sys2Proof.Machine
end

