-- ==== Sys2Proof/Machine/FabLink.lean ====
section
/-! DEFINITION. Fabric links (spec/14, spec/15): flits, retry, credits, reassembly, the egress of a link with its fair queuing, gates and
transit share, quench limits, links that come up, lose lanes and go down, and the recording of a snapshot. -/

namespace Sys2Proof.Machine

/-! ### Packets and flits (R352, R354) -/

/-- Flits of a packet (R354). -/
def flitsOf (k : Packet) : Nat := max 1 ((32 + k.length + 243) / 244)

/-- Lanes of a link in use. -/
def Link.lanes (x : Link) : Nat := ((List.range x.width).filter (bitOf x.lanesUp)).length

/-- Flit time of a link in units of 1/84,000 ns, in which it is exact at every width: 256 bytes at 25 GB/s for each lane in use (R360). -/
def Link.flitTime (x : Link) : Nat := if x.lanes = 0 then 0 else 860160 / x.lanes

/-- Shared pool of a link's receive buffer (R358). -/
def Link.pool (x : Link) : Nat := 256 * x.width - 112

/-- Shared credits one VC may hold. -/
def State.vcCap (s : State) (x : Link) : Nat := x.pool * (max 10 (min 100 (s.fld rFabCfg fFabCfg_SHARED_CAP_PCT))) / 100

/-- Whether a flit of (VC, LEVEL) may be sent (R358): VC0 takes its ballast, VC1 to VC6 a dedicated credit or a shared one. -/
def State.hasCredit (s : State) (x : Link) (vc level : Nat) : Bool :=
  decide (0 < kvGetD 2 (vc * 8 + level) x.credits) ||
  (vc != 0 && decide (0 < x.shared) && decide (kvGetD 0 vc x.sharedUse < s.vcCap x))

/-- Take the credit for a flit. -/
def Link.takeCredit (x : Link) (vc level : Nat) : Link :=
  let n := kvGetD 2 (vc * 8 + level) x.credits
  if 0 < n then { x with credits := kvPut (vc * 8 + level) (n - 1) x.credits }
  else { x with
    shared := x.shared - 1
    sharedUse := kvPut vc (kvGetD 0 vc x.sharedUse + 1) x.sharedUse }

/-- Credits returned by the peer fill the dedicated credits of their pair first, then the shared pool. -/
def Link.giveCredit (x : Link) (vc level : Nat) : Nat → Link
  | 0 => x
  | n + 1 =>
    let have_ := kvGetD 2 (vc * 8 + level) x.credits
    let x := if have_ < 2 then { x with credits := kvPut (vc * 8 + level) (have_ + 1) x.credits }
      else if vc = 0 then x
      else { x with
        shared := min x.pool (x.shared + 1)
        sharedUse := kvPut vc (kvGetD 0 vc x.sharedUse - 1) x.sharedUse }
    x.giveCredit vc level n

/-- Space of `n` flits freed in the receive buffer of a link, to be returned as credits (R358). -/
def State.freeSpace (s : State) (lane vc level n : Nat) : State :=
  if n = 0 ∨ 7 ≤ vc then s else s.modLink lane (fun x => { x with returns := match x.returns.find? (fun r => r.1 == vc && r.2.1 == level) with
    | some r => (x.returns.erase r) ++ [(vc, level, r.2.2 + n)]
    | none => x.returns ++ [(vc, level, n)] })

/-- The packet a reassembled sequence of bytes spells (Table 14.4). Payload layouts no chapter gives are free (`Config.payloadArgs`); that of
a QUENCH is R362's. -/
def parsePacket (vc : Nat) (bs : List Byte) : Packet :=
  let f := fieldAt bs
  let len := f 12 2
  let pay := (bs.drop 32).take len
  let pt := f 10 1
  let op := f 29 1
  { vc := vc, ptype := pt, opcode := op, dstNode := f 2 2, dstPart := f 0 2 / 1024, dstEp := f 0 2 % 1024, srcNode := f 6 2, srcPart := f 4 2 / 1024,
    srcEp := f 4 2 % 1024, stream := f 8 2, hops := f 11 1, length := len, resetGen := f 14 2, seq := f 16 4, frag := f 20 2, frags := f 22 2,
    budget := f 24 4, dist := f 28 1
    args := if pt = 3 ∧ op = 0x12 then [fieldAt pay 0 1, fieldAt pay 1 1, fieldAt pay 4 4, fieldAt pay 8 8] else Config.payloadArgs vc pt op pay
    data := Config.payloadData vc pt op pay }

/-- The payload of a packet in bytes: of a QUENCH by R362, of any other as its chapter or `Config.payloadByte` spells it. -/
def payloadOf (k : Packet) : List Byte :=
  let byte := Config.payloadByte k.vc k.ptype k.opcode k.args k.data
  if k.ptype = 3 ∧ k.opcode = 0x12 then
    leBytes 1 (k.args.getD 0 0) ++ leBytes 1 (k.args.getD 1 0) ++ [byte 2, byte 3] ++ leBytes 4 (k.args.getD 2 0) ++ leBytes 8 (k.args.getD 3 0)
  else (List.range k.length).map byte

/-- The header of a packet in bytes (Table 14.4); its reserved bytes are free. -/
def headerOf (k : Packet) (pad : Nat) : List Byte :=
  leBytes 2 (k.dstPart * 1024 + k.dstEp) ++ leBytes 2 k.dstNode ++ leBytes 2 (k.srcPart * 1024 + k.srcEp) ++ leBytes 2 k.srcNode ++
  leBytes 2 k.stream ++ leBytes 1 k.ptype ++ leBytes 1 k.hops ++ leBytes 2 k.length ++ leBytes 2 k.resetGen ++ leBytes 4 k.seq ++
  leBytes 2 k.frag ++ leBytes 2 k.frags ++ leBytes 4 k.budget ++ leBytes 1 k.dist ++ leBytes 1 k.opcode ++
  [Config.undefByte pad 250, Config.undefByte pad 251]

/-- What the flit numbered `i` of a packet carries (R354). -/
def pieceOf (k : Packet) (pad i : Nat) : List Byte := ((headerOf k pad ++ payloadOf k).drop (244 * i)).take 244

/-- The header of a flit as one 64-bit number (Table 14.3); reserved bits, and LSEQ of KIND 0, are free. -/
def TxFlit.header (f : TxFlit) : Nat :=
  let free := (Config.freeWord f.pad).toNat
  f.kind % 4 + f.last.toNat * 2 ^ 2 + f.vc % 8 * 2 ^ 3 + f.level % 8 * 2 ^ 6 + f.marker.isSome.toNat * 2 ^ 9 + f.nak.toNat * 2 ^ 10 +
  f.widthChg.toNat * 2 ^ 11 + (if f.kind = 0 then free / 2 ^ 16 else f.lseq) % 4096 * 2 ^ 12 + f.ack % 4096 * 2 ^ 24 +
  f.cr.1 % 8 * 2 ^ 36 + f.cr.2.1 % 8 * 2 ^ 39 + f.cr.2.2 % 64 * 2 ^ 42 + free % 2 ^ 16 * 2 ^ 48

/-- The 256 bytes of a flit on its lanes: header, what it carries (a marker its SNAP_ID, the rest free) and CRC-32 (R352). -/
def TxFlit.bytes (f : TxFlit) : List Byte :=
  let c := match f.marker with
    | some id => leBytes 4 id
    | none => f.carried
  let b := leBytes 8 f.header ++ c ++ (List.range (244 - c.length)).map (fun i => Config.undefByte f.pad (i + c.length))
  b ++ leBytes 4 (crc32 b)

/-! ### Sending flits -/

/-- A flit kept for replay, as it is sent on a link with the acknowledgement of the present. -/
def SentFlit.tx (f : SentFlit) (lane : Nat) (x : Link) : TxFlit :=
  { lane := lane, kind := f.kind, vc := f.vc, level := f.level, last := f.last, lseq := f.seq, ack := (x.rxSeq + 4095) % 4096, nak := false,
    widthChg := f.widthChg, marker := f.marker, cr := f.cr, carried := f.carried, pad := f.pad }

/-- A flit counts in FABRIC_BYTES of the partition whose packet it is part of (Table 12.6); transit traffic has none. -/
def State.meterFlits (s : State) (part : Option Nat) (n : Nat) : State :=
  match part with
  | some p => s.addMeter p 8 (256 * n)
  | none => s

/-- The partition for which a local packet is sent: orders that name none are the node's own. -/
def payerOf (k : Packet) : Option Nat :=
  if k.vc = 0 ∧ ([0x10, 0x11, 0x20, 0x21, 0x23, 0x30, 0x31, 0x32, 0x33, 0x34].contains k.opcode = false) then none else some k.srcPart

/-- Send one flit on a link: it carries ACK_SEQ and the first credits to be returned; a KIND other than 0 takes the next LSEQ and is kept
until it is acknowledged (R352, R353). `pkt` is the packet that it carries, the number of the flit in it, and the partition that sends it. -/
def State.putFlit (s : State) (lane kind vc level : Nat) (last : Bool) (marker : Option Nat) (pkt : Option (Packet × Nat × Option Nat) := none) : State :=
  match s.link? lane with
  | none => s
  | some x =>
    let cr := match x.returns with
      | r :: _ => (r.1, r.2.1, min 63 r.2.2)
      | [] => (0, 0, 0)
    let rest := match x.returns with
      | r :: rs => if r.2.2 ≤ 63 then rs else (r.1, r.2.1, r.2.2 - 63) :: rs
      | [] => []
    let pad := s.free
    let carried := match pkt with | some k => pieceOf k.1 pad k.2.1 | none => []
    let f : TxFlit := { lane := lane, kind := kind, vc := vc, level := level, last := last, lseq := if kind = 0 then 0 else x.txSeq, ack := (x.rxSeq + 4095) % 4096, nak := x.nakDue, widthChg := x.widthChg, marker := marker, cr := cr, carried := carried, pad := pad }
    let part := pkt.bind (fun k => k.2.2)
    let kept : List SentFlit := if kind = 0 then [] else [{ seq := x.txSeq, kind := kind, vc := vc, level := level, last := last, marker := marker, cr := cr, replays := 0, sentAt := s.now, widthChg := x.widthChg, carried := carried, pad := pad, part := part }]
    let s := (s.putFree (pad + 1)).modLink lane (fun x => { x with
      returns := rest
      txSeq := if kind = 0 then x.txSeq else (x.txSeq + 1) % 4096
      unacked := x.unacked ++ kept
      nakDue := false
      ackDue := false
      widthChg := false })
    ((s.modFab (fun y => { y with tx := y.tx ++ [f] })).bump (cFabPTxFlits (lanePort lane)) 1).meterFlits part 1

/-! ### Snapshots (R376) -/

/-- A snapshot ends at this node once every channel has closed: the number of LOST channels is reported and the local part of the collective is
done. -/
def State.snapSettle (s : State) : State :=
  if s.fld rFabSnapStatus fFabSnapStatus_STATE ≠ 1 ∨ s.fab.snapCh.any (fun c => !c.2.closed) = true then s
  else
    let lost := (s.fab.snapCh.filter (fun c => c.2.lost)).length
    let s := (s.setFld rFabSnapStatus fFabSnapStatus_LOST_CHANNELS lost).setFld rFabSnapStatus fFabSnapStatus_STATE 2
    (s.modColl s.fab.snapId (fun c => { c with lost := c.lost + lost })).doneColl s.fab.snapId

/-- Whether this node may take part in a new snapshot: not recording, and its latch armed (R376, R413). -/
def State.snapFree (s : State) : Bool :=
  s.fld rFabSnapStatus fFabSnapStatus_STATE != 1 && s.fld rSnpCtl fSnpCtl_ARMED == 1 && bitOf (s.reg rSnpSrc).toNat 1

/-- Start recording a snapshot: latch, count on every incoming channel, send markers on VC0 to VC6 of every up link (R376). -/
def State.snapBegin (s : State) (id : Nat) : State :=
  let s := (s.drogue 1 id).1
  let ls := s.upLinks
  let ch : SnapCh := { closed := false, lost := false, packets := 0, flits := 0 }
  let chans := ls.foldl (fun (m : KV SnapCh) l => (List.range 7).foldl (fun (m : KV SnapCh) v => kvPut (l * 8 + v) ch m) m) ([] : KV SnapCh)
  let s := s.modFab (fun f => { f with
    snapId := id
    snapCh := chans })
  let s := s.setReg rFabSnapStatus (packFields [(fFabSnapStatus_SNAP_ID, id), (fFabSnapStatus_STATE, 1)])
  let s := ls.foldl (fun (t : State) l => t.modLink l (fun x => { x with markers := x.markers ++ (List.range 7).map (fun v => (v, id)) })) s
  s.snapSettle

/-- A marker arrives on a channel (R376). Another snapshot's marker is ignored while this node records or is not re-armed, and that snapshot
fails with `REMOTE_ERROR`: once, for its first marker; a second marker on a channel is that of a new snapshot under the same ID. -/
def State.markerIn (s : State) (lane vc id : Nat) : State :=
  let close := fun (t : State) => (t.modFab (fun f => { f with snapCh := kvUpd (lane * 8 + vc) (fun (c : SnapCh) => { c with closed := true }) f.snapCh })).snapSettle
  if s.fld rFabSnapStatus fFabSnapStatus_STATE ≠ 0 ∧ s.fab.snapId = id then close s
  else if s.snapFree then
    let s := if (s.coll? id).isSome then s else s.openColl id 4 0 none false
    close (s.snapBegin id)
  else
    let ch := lane * 8 + vc
    let old := kvGetD [] id s.fab.snapBad
    if !old.isEmpty && !old.contains ch then s.modFab (fun f => { f with snapBad := kvPut id (ch :: old) f.snapBad })
    else
      let s := s.modFab (fun f => { f with snapBad := kvPut id [ch] f.snapBad })
      let s := if (s.coll? id).isSome then s else s.openColl id 4 0 none false
      s.failColl id scRemoteError 0

/-- Count what arrives on a channel whose marker has not come (R376). -/
def State.snapCount (s : State) (lane vc : Nat) (last : Bool) : State :=
  if s.fld rFabSnapStatus fFabSnapStatus_STATE ≠ 1 then s else
  s.modFab (fun f => { f with snapCh := kvUpd (lane * 8 + vc) (fun (c : SnapCh) => if c.closed then c else { c with
    flits := min 0xFFFFFFFF (c.flits + 1)
    packets := min 0x3FFFFFFF (c.packets + last.toNat) }) f.snapCh })

/-! ### Choosing a link (R370) -/

/-- Count a discarded packet or flit. -/
def State.dropFab (s : State) : State := s.bump cFabDrops 1

/-- The lane that names the link with an ID. -/
def State.laneOf (s : State) (id : Nat) : Option Nat := (s.fab.links.find? (fun x => linkId x.1 x.2.width == id)).map (fun x => x.1)

/-- Up links of the route entry of a destination, in its order (R369). A node without an ID forwards only to the peers of its own links
(R366). -/
def State.routeLanes (s : State) (dst : Nat) : List Nat :=
  if s.nodeId = 0 then (s.fab.links.filter (fun x => x.2.isUp && x.2.peerId == dst && dst != 0)).map (fun x => x.1) else
  match kvGet? dst s.fab.routes with
  | none => []
  | some r => if 8 < r.dist then [] else (r.links.filterMap s.laneOf).filter (fun l => match s.link? l with | some x => x.isUp | none => false)

/-- Flits of VC1 to VC6 that wait for a link. -/
def Link.waiting (x : Link) : Nat := (x.localq ++ x.transit ++ x.active).foldl (fun n e => n + (flitsOf e.pkt - e.sent)) 0

/-- The egress link of a packet: the lowest q / w × r; a tie goes by a hash of route seed, SRC, DST and SEQ (R370). -/
def State.pickLink (s : State) (k : Packet) : Option Nat :=
  let cand := (s.routeLanes k.dstNode).filterMap (fun l => (s.link? l).map (fun x => (l, x.waiting * x.weight, x.lanes)))
  match cand with
  | [] => none
  | c :: cs =>
    let less := fun (a b : Nat × Nat × Nat) => decide (a.2.1 * b.2.2 < b.2.1 * a.2.2)
    let best := cs.foldl (fun b x => if less x b then x else b) c
    let ties := cand.filter (fun x => !less best x && !less x best)
    (ties[Config.pathHash s.routeSeed (k.srcNode * 65536 + k.srcPart * 1024 + k.srcEp) (k.dstNode * 65536 + k.dstPart * 1024 + k.dstEp) k.seq % ties.length]?).map (fun x => x.1)

/-! ### Quench limits (R362, R395) -/

/-- The quench entries that limit a packet now: each in force of its destination, VC and partition, or all partitions. -/
def State.quenchOf (s : State) (k : Packet) : List Quench :=
  s.fab.quench.filter (fun q => q.sender == k.dstNode && q.vc == k.vc && (q.part == 0xFF || q.part == k.srcPart) && decide (s.now < q.expiry))

/-- The tokens of a quench entry now; its bucket holds at most the largest packet, 4,352 bytes. -/
def Quench.tokens (q : Quench) (now : Nat) : Bucket := q.bucket.fill q.rate 4352 now

/-- Whether quench limits hold a packet back: a stop, or a rate whose bucket is below zero. -/
def State.quenched (s : State) (k : Packet) : Bool := (s.quenchOf k).any (fun q => q.rate == 0 || decide ((q.tokens s.now).tokens < 0))

/-- Charge a packet that begins to the quench entries that limit it. -/
def State.chargeQuench (s : State) (k : Packet) (len : Nat) : State :=
  let qs := s.quenchOf k
  s.modFab (fun f => { f with quench := f.quench.map (fun q =>
    if qs.contains q then (let b := q.tokens s.now; { q with bucket := { b with tokens := b.tokens - ((len * 1000000000 : Nat) : Int) } }) else q) })

/-! ### From the meter to a link (R379, R386) -/

/-- Whether two packets belong to one stream. -/
def sameStream (a b : Packet) : Bool := a.srcPart == b.srcPart && a.stream == b.stream

/-- A packet that has passed stages 1 to 3 picks a link and joins stage 4 there; one without a route is discarded (R372). -/
def State.toLink (s : State) (e : EgPacket) : State :=
  let s := s.modFab (fun f => { f with held := f.held.erase e })
  match s.pickLink e.pkt with
  | none => s.dropFab
  | some l => s.modLink l (fun x => { x with localq := x.localq ++ [{ e with quenched := none }] })

/-- Whether a held packet heads its stream at stage 2 (R386): no earlier packet of the stream waits there, none for its destination is held at
stage 3, and none is at stage 4. -/
def State.headsStream (s : State) (e : EgPacket) : Bool :=
  !(s.fab.held.takeWhile (fun x => x != e)).any (fun x => sameStream x.pkt e.pkt && (x.pkt.dstNode == e.pkt.dstNode || x.quenched.isNone)) &&
  !s.fab.links.any (fun l => l.2.localq.any (fun x => sameStream x.pkt e.pkt))

/-- One held packet tried (Table 15.1). At stage 2 it waits until it heads its stream and the stream is eligible; at stage 3 while it is quenched,
and its wait there is counted; then it joins stage 4. -/
def State.tryHeld (s : State) (e : EgPacket) : State :=
  match e.quenched with
  | some t => if s.quenched e.pkt then s else (s.bump (cShpPQuenchNs e.pkt.srcPart 0) (s.now - t)).toLink e
  | none =>
    if !s.headsStream e || !s.eligible e.pkt.srcPart 0 e.pkt.stream then s
    else if s.quenched e.pkt then s.modFab (fun f => { f with held := f.held.map (fun x => if x = e then { e with quenched := some s.now } else x) })
    else s.toLink e

/-- Insert a packet by its order of entry. -/
def insertEntry (e : EgPacket) : List EgPacket → List EgPacket
  | [] => [e]
  | y :: ys => if e.no < y.no then e :: y :: ys else y :: insertEntry e ys

/-- Packets taken back from stage 4 of a link, each into its place in the order of entry (R386); what they joined there they join anew. -/
def State.holdBack (s : State) (es : List EgPacket) : State :=
  s.modFab (fun f => { f with held := es.foldl (fun h e => insertEntry { e with start := none, gated := none } h) f.held })

/-- Every held packet tried, in order of entry. -/
def State.promote (s : State) : State := s.fab.held.foldl (fun (t : State) e => if t.fab.held.contains e then t.tryHeld e else t) s

/-! ### Gates (R391, R392) -/

/-- Whether VC `v` is open on a port, and for how many ns at least (none: without end). -/
def State.gateOpen (s : State) (port v : Nat) : Bool × Option Nat :=
  match kvGet? port s.fab.gates with
  | none => (true, none)
  | some g =>
    if !s.configured g.list.ref ∨ g.list.entries.isEmpty = true then (true, none)
    else
      let per := (s.pcfg g.list.ref).periodUs * 1000
      let open_ := fun (i : Nat) => bitOf (g.list.entries.getD i (0xFF, 0)).1 v
      let n := g.list.entries.length
      -- from entry `i` at `t` on, to the boundary `stop`: whether a closed entry comes before it, and when the open entries end
      let run := fun (i t stop : Nat) => (List.range (n - i)).foldl (fun (a : Bool × Nat) j =>
        let k := i + j
        if a.1 || decide (stop ≤ a.2) then a else if !open_ k then (true, a.2)
        else (false, if k + 1 = n then stop else min stop (a.2 + (g.list.entries.getD k (0xFF, 0)).2))) (false, t)
      let stop := g.restart + per
      let now_ := run g.entry g.began stop
      let next := run 0 stop (stop + per)
      if !open_ g.entry then (false, some 0)
      else if now_.1 then (true, some (now_.2 - s.now))
      else if next.1 then (true, some (next.2 - s.now))
      else (true, none)

/-- Whether a packet may begin on a link under its port's gates: its VC stays open for all its flits (R392). -/
def State.gateFits (s : State) (lane : Nat) (x : Link) (k : Packet) : Bool :=
  match s.gateOpen (lanePort lane) k.vc with
  | (true, none) => true
  | (true, some n) => decide (flitsOf k * x.flitTime ≤ 84000 * n)
  | (false, _) => false

/-! ### The egress of a link (R359, R387 to R390) -/

/-- Whether a packet could begin on a link but for its gates: no packet of its VC and LEVEL is under way there, and a credit is held. -/
def State.mayBegin (s : State) (x : Link) (e : EgPacket) : Bool :=
  !x.active.any (fun a => a.pkt.vc == e.pkt.vc && a.level == e.level) && s.hasCredit x e.pkt.vc e.level

/-- The transit packet to begin: the highest LEVEL, the oldest within it (R390). -/
def State.transitHead (s : State) (lane : Nat) (x : Link) : Option EgPacket :=
  (x.transit.filter (fun e => s.mayBegin x e && s.gateFits lane x e.pkt)).foldl (fun b e => match b with
    | none => some e
    | some y => if y.level < e.level ∨ (y.level = e.level ∧ e.entered < y.entered) then some e else some y) none

/-- The local packet that stage 5 offers: the highest class, in it the flow whose head has the least virtual start, the lower partition on a tie
(R387, R389). -/
def State.localHead (s : State) (lane : Nat) (x : Link) : Option EgPacket :=
  let d : SchedDom := kvGetD {} (16 + lane) s.fab.doms
  let ready := x.localq.filter (fun e => s.mayBegin x e && s.gateFits lane x e.pkt)
  let heads := fun (c : Nat) => (((ready.filter (fun e => e.cls == c)).map (fun e => e.pkt.srcPart)).eraseDups).filterMap (fun p => ready.find? (fun e => e.cls == c && e.pkt.srcPart == p))
  [7, 6, 5, 4, 3, 2, 1, 0].findSome? (fun c => (heads c).foldl (fun b e => match b with
    | none => some e
    | some y =>
      let a := d.startOf e.pkt.srcPart c e.start
      let z := d.startOf y.pkt.srcPart c y.start
      if Frac.lt a z || (!Frac.lt z a && decide (e.pkt.srcPart < y.pkt.srcPart)) then some e else some y) none)

/-- Record since when only a gate holds packets of a link; the wait of a packet that something else holds by now, or nothing, is counted
(R392). -/
def State.markGated (s : State) (lane : Nat) : State :=
  match s.link? lane with
  | none => s
  | some x =>
    let only := fun (e : EgPacket) => s.mayBegin x e && !s.gateFits lane x e.pkt
    let mark := fun (e : EgPacket) => { e with gated := if only e then some (e.gated.getD s.now) else none }
    let waits := (x.localq ++ x.transit).filterMap (fun e => if only e then none else e.gated.map (fun t => s.now - t))
    (s.bump (cShpPGateNs (lanePort lane)) (waits.foldl (· + ·) 0)).modLink lane (fun y => { y with
      localq := y.localq.map mark
      transit := y.transit.map mark })

/-- Send the next flit of a packet under way; with its last flit the packet has left. -/
def State.sendData (s : State) (lane : Nat) (e : EgPacket) : State :=
  match s.link? lane with
  | none => s
  | some x =>
    let last := decide (e.sent + 1 = flitsOf e.pkt)
    let s := s.modLink lane (fun x => { (x.takeCredit e.pkt.vc e.level) with
      active := if last then x.active.erase e else x.active.map (fun a => if a = e then { a with sent := a.sent + 1 } else a)
      busyNs := x.busyNs + x.flitTime
      vc0Run := (false :: x.vc0Run).take 64 })
    let s := s.putFlit lane (if e.sent = 0 then 1 else 2) e.pkt.vc e.level last none (some ({ e.pkt with hops := e.level }, e.sent, if e.lane.isSome then none else payerOf e.pkt))
    let s := match e.lane with
      | some l => (s.bump cFabTransitFlits 1).freeSpace l e.pkt.vc (e.level - 1) 1
      | none => s
    if last then
      let s := if x.state = 4 ∧ (s.gateOpen (lanePort lane) e.pkt.vc).1 = false then s.bump cShpGateOverrun 1 else s
      s.modFab (fun f => { f with sentOut := f.sentOut ++ [(lane, { e.pkt with hops := e.level })] })
    else s

/-- Begin a packet on a link. A local packet is charged to its shaper, its flow and its quench entry (R385 to R387). -/
def State.beginPacket (s : State) (lane : Nat) (e : EgPacket) (transit : Bool) : State :=
  let s := match e.gated with
    | some t => s.bump (cShpPGateNs (lanePort lane)) (s.now - t)
    | none => s
  let d : SchedDom := kvGetD {} (16 + lane) s.fab.doms
  let s := if transit then s else
    (s.serveUnit (16 + lane) e.pkt.srcPart 0 e.cls e.pkt.stream e.len e.entered (d.startOf e.pkt.srcPart e.cls e.start)).chargeQuench e.pkt e.len
  let e1 := { e with gated := none }
  let s := s.modLink lane (fun x => { x with
    localq := x.localq.erase e
    transit := x.transit.erase e
    active := x.active ++ [e1] })
  s.sendData lane e1

/-- Virtual starts of the heads of the flows at stage 4 of a link. -/
def State.markLinkHeads (s : State) (lane : Nat) : State :=
  match s.link? lane with
  | none => s
  | some x =>
    let d : SchedDom := kvGetD {} (16 + lane) s.fab.doms
    let isHead := fun (e : EgPacket) => (x.localq.find? (fun y => y.cls == e.cls && y.pkt.srcPart == e.pkt.srcPart)) == some e
    s.modLink lane (fun y => { y with localq := y.localq.map (fun e => if e.start.isNone && isHead e then { e with start := some (d.startOf e.pkt.srcPart e.cls none) } else e) })

/-- Whether an egress has a data flit ready: a packet under way with a credit, or one that may begin. -/
def State.dataReady (s : State) (lane : Nat) (x : Link) : Bool :=
  x.active.any (fun e => s.hasCredit x e.pkt.vc e.level) || (s.transitHead lane x).isSome || (s.localHead lane x).isSome

/-- Send a data flit: of a packet under way, or of the packet begun next; transit takes its share of the starts where both sources are ready
(R390). -/
def State.sendSlot (s : State) (lane : Nat) (x : Link) : State :=
  match x.active.find? (fun e => s.hasCredit x e.pkt.vc e.level) with
  | some e => s.sendData lane e
  | none =>
    let share : Int := ((max 10 (min 90 (s.fld rShpCfg fShpCfg_TRANSIT_SHARE)) : Nat) : Int)
    match s.transitHead lane x, s.localHead lane x with
    | some t, some l =>
      if 0 ≤ x.deficit then (s.modLink lane (fun y => { y with deficit := y.deficit + share - 100 })).beginPacket lane t true
      else (s.modLink lane (fun y => { y with deficit := y.deficit + share })).beginPacket lane l false
    | some t, none => s.beginPacket lane t true
    | none, some l => s.beginPacket lane l false
    | none, none => if x.returns.isEmpty then s else s.putFlit lane 0 0 0 false none

/-- LINK_EGRESS_SLOT: at a flit boundary a link sends, in this order, what its control owes (a change of width, NAK, acknowledgement, marker), a VC0
flit within its share, a flit of VC1 to VC6, or credits alone (R351, R358, R359). -/
def execLinkEgressSlot (lane : Nat) (s : State) : Host.Outcome State Fault Refusal :=
  let s := ((s.promote).markLinkHeads lane).markGated lane
  match s.link? lane with
  | none => .next s
  | some x =>
    if x.state < 2 ∨ x.state = 5 then .next s
    else if x.widthChg && decide (x.unacked.length < 2048) then .next (s.putFlit lane 3 0 0 false none)
    else if x.nakDue || x.ackDue then .next (s.putFlit lane 0 0 0 false none)
    else if 2048 ≤ x.unacked.length then .next (if x.returns.isEmpty then s else s.putFlit lane 0 0 0 false none)
    else match x.markers with
    | m :: rest => .next ((s.modLink lane (fun y => { y with markers := rest })).putFlit lane 3 m.1 0 false (some m.2))
    | [] =>
      let ready := x.isUp && s.dataReady lane x
      let cap := max 2 (min 64 (s.fld rFabCfg fFabCfg_VC0_CAP))
      match x.vc0q with
      | e :: rest =>
        if s.hasCredit x 0 e.level && !(ready && (x.vc0Run.take cap).any (fun b => b)) then
          let s := s.modLink lane (fun y => { (y.takeCredit 0 e.level) with
            vc0q := rest
            vc0Run := if ready then (true :: y.vc0Run).take 64 else y.vc0Run })
          let s := (s.putFlit lane 1 0 e.level true none (some ({ e.pkt with hops := e.level }, 0, if e.lane.isSome then none else payerOf e.pkt))).bump (cFabPVc0Flits (lanePort lane)) 1
          let s := match e.lane with
            | some l => (s.bump cFabTransitFlits 1).freeSpace l 0 (e.level - 1) 1
            | none => s
          .next (s.modFab (fun f => { f with sentOut := f.sentOut ++ [(lane, { e.pkt with hops := e.level })] }))
        else if x.isUp then .next (s.sendSlot lane x) else .next s
      | [] => if x.isUp then .next (s.sendSlot lane x) else .next s

/-! ### Links that come up and go down (R349 to R353, R372) -/

/-- Discard `n` packets, counted. -/
def State.dropMany (s : State) (n : Nat) : State := if n = 0 then s else s.bump cFabDrops n

/-- Queue a transit packet, or one that has lost its link: an order on the first link of its route, another on the link it chooses; without
one it is discarded (R363, R372). -/
def State.enqueue (s : State) (e : EgPacket) : State :=
  if e.pkt.vc = 0 then
    match (s.routeLanes e.pkt.dstNode).head? with
    | some l => s.modLink l (fun x => { x with vc0q := x.vc0q ++ [e] })
    | none => match e.lane with
      | some l => s.dropFab.freeSpace l 0 (e.level - 1) 1
      | none => s.dropFab
  else match s.pickLink e.pkt with
    | some l => s.modLink l (fun x => { x with transit := x.transit ++ [e] })
    | none => match e.lane with
      | some l => s.dropFab.freeSpace l e.pkt.vc (e.level - 1) (flitsOf e.pkt)
      | none => s.dropFab

/-- A link goes down: its link ID leaves every route entry; packets begun, or sent and not acknowledged, are lost with it; the others go on by
another link; its channels of a running snapshot close as LOST; the report to the anchor follows (R353, R367, R372, R376). -/
def State.linkDown (s : State) (lane : Nat) : State :=
  match s.link? lane with
  | none => s
  | some x =>
    if x.state = 0 ∨ x.state = 5 then s else
    let wasUp := x.isUp
    let lost := x.active.length + (x.unacked.filter (fun f => f.last && f.kind != 3)).length
    let id := linkId lane x.width
    let s := s.modLink lane (fun y => { y with
      state := if y.lanesUp = 0 then 5 else 0
      peerId := 0
      helloIn := none
      helloSeen := false
      helloSent := false
      unacked := []
      markers := []
      returns := []
      vc0q := []
      localq := []
      transit := []
      active := [] })
    let s := s.modFab (fun f => { f with routes := kvMapVals (fun _ (r : Route) => { r with links := r.links.filter (· != id), egress := if r.links.contains id then 0 else r.egress }) f.routes })
    let s := x.active.foldl (fun (t : State) e => match e.lane with
      | some l => t.freeSpace l e.pkt.vc (e.level - 1) (flitsOf e.pkt - e.sent)
      | none => t) (s.dropMany lost)
    let s := (x.vc0q.filter (fun e => e.pkt.dstNode != unrouted) ++ x.transit).foldl State.enqueue s
    let s := s.holdBack x.localq
    let s := s.modFab (fun f => { f with snapCh := f.snapCh.map (fun c => if c.1 / 8 = lane ∧ c.2.closed = false then (c.1, { c.2 with closed := true, lost := true }) else c) })
    let s := s.snapSettle
    if wasUp then s.reportLinks.noteUnreach else s

/-- Replay every flit not acknowledged, in order, each as it was (R353), the first with the mark of a change of width that is due (R351); a flit
replayed 8 times takes the link down. -/
def State.replay (s : State) (lane : Nat) : State :=
  match s.link? lane with
  | none => s
  | some x =>
    if x.unacked.isEmpty then s else
    let kept := x.unacked.zipIdx.map (fun f => { f.1 with replays := f.1.replays + 1, sentAt := s.now, widthChg := f.1.widthChg || (x.widthChg && f.2 == 0) })
    let s := s.modLink lane (fun y => { y with
      unacked := kept
      widthChg := false })
    let s := s.modFab (fun f => { f with tx := f.tx ++ kept.map (fun f => f.tx lane x) })
    let n := kept.length
    let s := ((s.bump (cFabPTxFlits (lanePort lane)) n).bump (cFabPRetries (lanePort lane)) n).modLink lane (fun y => { y with busyNs := y.busyNs + (kept.filter (fun f => f.vc != 0)).length * y.flitTime })
    let s := kept.foldl (fun (t : State) f => t.meterFlits f.part 1) s
    if kept.any (fun f => decide (8 ≤ f.replays)) then s.linkDown lane else s

/-- Take a lane out of its link (R351): this end marks the change and replays what was cut off on the lanes left; a link without a lane is down.
`own` says that this end found the fault, so that the peer's mark answers it. -/
def State.takeLane (s : State) (lane : Nat) (own : Bool) : State :=
  match s.fab.links.find? (fun x => decide (x.1 ≤ lane ∧ lane < x.1 + x.2.width)) with
  | none => s
  | some (l, x) =>
    if !bitOf x.lanesUp (lane - l) then s else
    let up := x.lanesUp - 2 ^ (lane - l)
    let s := s.modLink l (fun y => { y with
      lanesUp := up
      widthChg := true
      widthOwn := y.widthOwn + own.toNat
      state := if y.isUp then 4 else y.state })
    if up = 0 then s.linkDown l
    else if x.isUp then (s.replay l).reportLinks
    else s

/-- Take out a lane with a fault of its own. -/
def State.laneOut (s : State) (lane : Nat) : State := s.takeLane lane true

/-- WIDTH_CHG arrives on a link: it answers a change made here, or the peer has lost a lane, which leaves the link here too. Which of the lanes
up it is the flit does not say: a free value (R351, log entry 56). -/
def State.peerWidth (s : State) (lane : Nat) : State :=
  match s.link? lane with
  | none => s
  | some x =>
    if 0 < x.widthOwn then s.modLink lane (fun y => { y with widthOwn := y.widthOwn - 1 })
    else
      let (w, s) := s.fresh
      let ups := (List.range x.width).filter (bitOf x.lanesUp)
      match ups[w.toNat % ups.length]? with
      | none => s
      | some i => s.takeLane (lane + i) false

/-- Fence a fabric lane (kind 9) and report it (R351, Table 16.2). -/
def State.fenceLane (s : State) (src lane : Nat) : State :=
  if s.isFenced 9 lane then s
  else ((s.modUnit 9 lane (fun u => { u with fenced := true })).laneOut lane).reportFence src 9 lane 0xFF 0

/-- LANE_FAULT: a lane loses signal or lock, passes the FEC limit or closes its eye: it is fenced, and its link goes on with one lane less
(R351). -/
def execLaneFault (lane : Nat) (s : State) : Host.Outcome State Fault Refusal :=
  if s.fab.links.any (fun x => decide (x.1 ≤ lane ∧ lane < x.1 + x.2.width) && bitOf x.2.lanesUp (lane - x.1)) then .next (s.fenceLane 7 lane) else .next s

/-- Training finds a lane's settings (R350): the transmitter taps are free values, the receiver setting is the output of its trim unit. With
OVERRIDE set the lane uses the written settings, and what training found is kept. -/
def State.trainLane (s : State) (lane : Nat) : State :=
  let (w, s) := s.fresh
  let v := packFields [(fFabLaneEq_RX_CTLE, unsignedOf 8 (s.trim 1 lane).output), (fFabLaneEq_C_P1, w.toNat % 256),
      (fFabLaneEq_C_0, w.toNat / 256 % 256), (fFabLaneEq_C_M1, w.toNat / 65536 % 256), (fFabLaneEq_C_M2, w.toNat / 16777216 % 256)]
  if s.fld (rFabLaneEq lane) fFabLaneEq_OVERRIDE = 1 then s.modFab (fun f => { f with trained := kvPut lane v f.trained })
  else s.setReg (rFabLaneEq lane) v

/-- LANE_REJOIN: a lane that has retrained returns to its link at a flit boundary (R351): one fenced here, or one that left with the peer's. -/
def execLaneRejoin (lane : Nat) (s : State) : Host.Outcome State Fault Refusal :=
  let out := s.fab.links.any (fun x => x.2.isUp && decide (x.1 ≤ lane ∧ lane < x.1 + x.2.width) && !bitOf x.2.lanesUp (lane - x.1))
  if (!s.isFenced 9 lane && !out) || s.board.extest then .next s else
  let s := if s.isFenced 9 lane then ((s.modUnit 9 lane (fun u => { u with fenced := false })).bump cFltRestores 1).event 2 7 9 2 lane 0xFF 0 else s
  let s := s.trainLane lane
  match s.fab.links.find? (fun x => decide (x.1 ≤ lane ∧ lane < x.1 + x.2.width)) with
  | none => .next s
  | some (l, x) =>
    if x.state = 0 ∨ x.state = 5 then .next s else
    let up := x.lanesUp ||| 2 ^ (lane - l)
    let s := s.modLink l (fun y => { y with
      lanesUp := up
      state := if y.isUp then (if up = 2 ^ y.width - 1 then 3 else 4) else y.state })
    if x.isUp then .next s.reportLinks else .next s

/-- A link with a width and a mask of lanes, before any HELLO has crossed (R358, R364). -/
def freshLink (w mask : Nat) : Link :=
  { width := w, lanesUp := mask, state := 2, peerId := 0, peerIdent := 0, peerPort := 0, helloIn := none, helloSeen := false, helloSent := false, txSeq := 0, rxSeq := 0, unacked := [], nakDue := false, ackDue := false, widthChg := false, markers := [], credits := [], shared := 256 * w - 112, sharedUse := [], returns := [], reasm := [], vc0q := [], localq := [], transit := [], active := [], vc0Run := [], deficit := 0, weight := 1000, busyNs := 0 }

/-- LINK_TRAINING_DONE: a link of an enabled port has finished start-up and training; it sends its first HELLO (R349, R364). Fenced lanes stay
out of it. -/
def execLinkTrainingDone (lane : Nat) (s : State) : Host.Outcome State Fault Refusal :=
  if 256 ≤ lane ∨ s.fabOn = false ∨ s.board.extest = true ∨ s.fld (rFabPortCfg (lane / 8)) fFabPortCfg_ENABLE = 0 then .next s
  else
    let w := 8 / 2 ^ s.fld (rFabPortCfg (lane / 8)) fFabPortCfg_SPLIT
    let l := lane / w * w
    let mask := (List.range w).foldl (fun m i => if s.isFenced 9 (l + i) then m else m + 2 ^ i) 0
    let busy := match s.link? l with | some x => decide (2 ≤ x.state ∧ x.state ≤ 4) | none => false
    if busy = true ∨ mask = 0 then .next s
    else
      let s := ((List.range w).filter (bitOf mask)).foldl (fun (t : State) i => t.trainLane (l + i)) s
      .next ((s.modFab (fun f => { f with links := kvPut l (freshLink w mask) f.links })).sendHello l)

/-- HELLO_TIMER: a trained link sends HELLO (R364). -/
def execHelloTimer (lane : Nat) (s : State) : Host.Outcome State Fault Refusal :=
  match s.link? lane with
  | some x => if 2 ≤ x.state ∧ x.state ≤ 4 then .next (s.sendHello lane) else .next s
  | none => .next s

/-- HELLO_ARRIVAL: with equal widths the link is up once HELLOs have crossed; another width leaves it down and counts as a failed bring-up
(R349, R364). A peer's new ID is reported. -/
def execHelloArrival (lane ident port _k width nodeId anchor : Nat) (s : State) : Host.Outcome State Fault Refusal :=
  match s.link? lane with
  | none => .next s
  | some x =>
    if x.state < 2 ∨ x.state = 5 then .next s
    else if width ≠ x.width then .next ((s.bump (cFabPRetries (lanePort lane)) 1).linkDown lane)
    else
      let up := if x.isUp then x.state else if x.helloSent then (if x.lanesUp = 2 ^ x.width - 1 then 3 else 4) else 2
      let news := decide (nodeId ≠ x.peerId) || (!x.isUp && decide (up ≠ 2))
      let s := s.modLink lane (fun y => { y with
        peerIdent := ident
        peerPort := port
        peerId := nodeId
        helloIn := some s.now
        helloSeen := true
        state := up })
      let s := if !x.isUp && up ≠ 2 then s.noteCand (min ident anchor) lane else s
      if up ≠ 2 ∧ news = true then .next (s.refreshRoutes.reportLinks) else .next s

/-- HELLO_TIMEOUT: no HELLO has arrived for 1 ms, so the link is down (R364). -/
def execHelloTimeout (lane : Nat) (s : State) : Host.Outcome State Fault Refusal :=
  match s.link? lane with
  | some x => (match x.helloIn with
    | some t => if t + 1000000 ≤ s.now then .next (s.linkDown lane) else .next s
    | none => .next s)
  | none => .next s

/-! ### Retry (R353) -/

/-- REPLAY_TIMEOUT: no acknowledgement has come for 2 µs (R353). -/
def execReplayTimeout (lane : Nat) (s : State) : Host.Outcome State Fault Refusal :=
  match s.link? lane with
  | some x => (match x.unacked with
    | f :: _ => if f.sentAt + 2000 ≤ s.now then .next (s.replay lane) else .next s
    | [] => .next s)
  | none => .next s

/-! ### Receiving (R353, R355) -/

/-- Take what a flit's header says of this side's flits: acknowledgement, credits returned, a replay asked for. -/
def State.takeHeader (s : State) (lane : Nat) (h : Nat) : State :=
  let f := fun (hi lo : Nat) => h / 2 ^ lo % 2 ^ (hi + 1 - lo)
  let ack := f 35 24
  let s := s.modLink lane (fun x => (({ x with unacked := x.unacked.filter (fun g => decide (0 < (g.seq + 4096 - ack) % 4096 ∧ (g.seq + 4096 - ack) % 4096 < 2049)) } : Link)).giveCredit (f 38 36) (f 41 39) (f 47 42))
  if f 10 10 = 1 then s.replay lane else s

/-- A packet received whole on a link: an order of no known OPCODE is discarded and counted (R361). -/
def State.wholePacket (s : State) (lane vc level : Nat) (bs : List Byte) (n : Nat) : State :=
  let k := parsePacket vc bs
  let known := [1, 2, 3, 4, 0x10, 0x11, 0x12, 0x13, 0x20, 0x21, 0x22, 0x23, 0x30, 0x31, 0x32, 0x33, 0x34]
  if vc = 0 ∧ known.contains k.opcode = false then s.dropFab.freeSpace lane vc level n
  else if vc = 0 ∧ (k.opcode = 1 ∨ k.opcode = 2) then s.freeSpace lane vc level n
  else
  let s := if vc ≠ 0 ∧ k.dstNode = s.nodeId then s.meterFlits (some k.dstPart) n else s
  s.modFab (fun f => { f with rx := f.rx ++ [(lane, k)] })

/-- FLIT_RECEIVE: a flit whose CRC and LSEQ are good is accepted; any other is discarded and answered with a NAK. Its header acknowledges,
returns credits or asks for a replay; its contents join the packet of its VC and LEVEL (R352 to R356). -/
def execFlitReceive (lane : Nat) (flit : List Byte) (s : State) : Host.Outcome State Fault Refusal :=
  match s.link? lane with
  | none => .next s
  | some x =>
    if x.state < 2 ∨ x.state = 5 then .next s
    else
      let h := fieldAt flit 0 8
      let f := fun (hi lo : Nat) => h / 2 ^ lo % 2 ^ (hi + 1 - lo)
      let kind := f 1 0
      let good := flit.length == 256 && crc32 (flit.take 252) == fieldAt flit 252 4
      if !good ∨ (kind ≠ 0 ∧ f 23 12 ≠ x.rxSeq) then .next (s.modLink lane (fun y => { y with nakDue := true }))
      else
        let s := s.bump (cFabPRxFlits (lanePort lane)) 1
        let s := if kind = 0 then s else s.modLink lane (fun y => { y with
          rxSeq := (y.rxSeq + 1) % 4096
          ackDue := true })
        let s := s.takeHeader lane h
        let s := if f 11 11 = 1 then s.peerWidth lane else s
        let vc := f 5 3
        let level := f 8 6
        let pay := (flit.drop 8).take 244
        if kind = 0 then .next s
        else if vc = 7 then .next s.dropFab
        else if kind = 3 then (if f 9 9 = 1 then .next (s.markerIn lane vc (fieldAt pay 0 4)) else .next s)
        else
          let last := f 2 2 = 1
          let s := s.snapCount lane vc last
          let key := vc * 8 + level
          let old := (s.link? lane).bind (fun y => kvGet? key y.reasm)
          let r : Option Reasm := if kind = 1 then some { pkt := pay, flits := 1, since := s.now } else old.map (fun o => { o with pkt := o.pkt ++ pay, flits := o.flits + 1 })
          -- a head that comes over an incomplete packet ends that packet; a body without a head is discarded
          let s := match kind, old with
            | 1, some o => s.freeSpace lane vc level o.flits
            | _, _ => s
          match r with
          | none => .next (s.dropFab.freeSpace lane vc level 1)
          | some r =>
            if last then .next ((s.modLink lane (fun y => { y with reasm := kvDel key y.reasm })).wholePacket lane vc level r.pkt r.flits)
            else .next (s.modLink lane (fun y => { y with reasm := kvPut key r y.reasm }))

/-- REASSEMBLY_TIMEOUT: an incomplete packet is dropped after 100 µs (R372). -/
def execReassemblyTimeout (lane vc level : Nat) (s : State) : Host.Outcome State Fault Refusal :=
  match (s.link? lane).bind (fun x => kvGet? (vc * 8 + level) x.reasm) with
  | none => .next s
  | some r => if r.since + 100000 ≤ s.now then
      .next (((s.modLink lane (fun y => { y with reasm := kvDel (vc * 8 + level) y.reasm })).freeSpace lane vc level r.flits).dropFab) else .next s

/-- MARKER_ARRIVAL: a snapshot marker on a channel (R376). -/
def execMarkerArrival (lane vc snapId : Nat) (s : State) : Host.Outcome State Fault Refusal :=
  match s.link? lane with
  | some x => if x.isUp then .next (s.markerIn lane vc snapId) else .next s
  | none => .next s

/-- Take a packet out of the receive side of a link: the level it came at, and the lane. -/
def State.fromRx (s : State) (k : Packet) : State × Option Nat :=
  match s.fab.rx.find? (fun x => x.2 == k) with
  | none => (s, none)
  | some x => (s.modFab (fun f => { f with rx := f.rx.erase x }), some x.1)

/-- TRANSIT_FORWARD: a packet for another node takes one more hop: it goes on at the next LEVEL by the link its route and the load choose; a
ninth hop is refused (R357, R370). A packet for this node is left to its own arrival. -/
def execTransitForward (_lane : Nat) (pkt : Packet) (s : State) : Host.Outcome State Fault Refusal :=
  if pkt.dstNode = s.nodeId then .next s else
  let (s, from_) := s.fromRx pkt
  let k := { pkt with hops := pkt.hops + 1 }
  if 8 ≤ k.hops then .next (match from_ with
    | some l => s.dropFab.freeSpace l pkt.vc pkt.hops (flitsOf pkt)
    | none => s.dropFab)
  else .next (s.enqueue (s.egress k 0 (32 + k.length) from_))

/-! ### Local packets (R379 to R384) -/

/-- The fragments of a packet longer than 4,096 bytes (R354). -/
def fragments (k : Packet) : List Packet :=
  let n := max 1 ((k.length + 4095) / 4096)
  if n = 1 then [k] else (List.range n).map (fun i => { k with frag := i, frags := n, length := min 4096 (k.length - 4096 * i), data := (k.data.drop (4096 * i)).take 4096 })

/-- Meter one local packet and hold it at stage 2; a drop action discards REQUEST and COLLECTIVE packets (R383, R384). -/
def State.meterPacket (s : State) (k : Packet) : State :=
  let p := k.srcPart
  let len := 32 + k.length + s.overhead p 0
  let (s, colour) := s.meterUnit p 0 len
  let act := match s.meterOf p 0 with
    | some m => if colour = 1 then m.yellow else if colour = 2 then m.red else 0
    | none => 0
  if colour ≠ 0 ∧ act = 1 ∧ (k.ptype = 0 ∨ k.ptype = 4) then s.bump (cShpPDrops p 0) 1
  else
    let e := s.egress k (if colour = 0 then s.streamClass p k.stream else 0) len none
    s.modFab (fun f => { f with held := f.held ++ [{ e with no := f.entryNo }], entryNo := f.entryNo + 1 })

/-- EGRESS_PACKET_HANDOFF: the oldest packet an endpoint has handed over enters the egress: an order joins VC0 of the first link of its
route, any other packet is metered and held for its shaper (R363, R379, R383). One without a route is discarded. -/
def execEgressPacketHandoff (s : State) : Host.Outcome State Fault Refusal :=
  match s.fab.handoff with
  | [] => .next s
  | k :: rest =>
    let s := s.modFab (fun f => { f with handoff := rest })
    if k.vc = 0 then .next (s.enqueue (s.egress k 0 (32 + k.length) none))
    else .next ((fragments k).foldl State.meterPacket s)

/-! ### Gates (R391) -/

/-- GATE_ENTRY_ADVANCE: an entry of a port's gate list has lasted its duration, and the next takes effect; the last one holds until the
boundary. -/
def execGateEntryAdvance (port : Nat) (s : State) : Host.Outcome State Fault Refusal :=
  match kvGet? port s.fab.gates with
  | none => .next s
  | some g =>
    let d := (g.list.entries.getD g.entry (0, 0)).2
    if g.entry + 1 < g.list.entries.length ∧ g.began + d ≤ s.now then
      .next (s.modFab (fun f => { f with gates := kvPut port { g with entry := g.entry + 1, began := g.began + d } f.gates }))
    else .next s

/-! ### Quench (R362, R394, R395) -/

/-- Put a quench entry in force, replacing that of the same sender, partition and VC, or in a full table the one that expires first. -/
def State.putQuench (s : State) (q : Quench) : State :=
  let rest := s.fab.quench.filter (fun x => !(x.sender == q.sender && x.part == q.part && x.vc == q.vc))
  if rest.length < 1024 then s.modFab (fun f => { f with quench := rest ++ [q] })
  else
    let old := rest.foldl (fun (b : Quench) x => if x.expiry < b.expiry then x else b) (rest.headD q)
    (s.modFab (fun f => { f with quench := rest.erase old ++ [q] })).bump cShpQuenchEvicts 1

/-- QUENCH_ARRIVAL: packets of a partition to the sender on the named VCs are held back or limited for a time (R362); those at stage 4 not
begun are held again (Table 15.2). VC0 is never limited. -/
def execQuenchArrival (src seq part vcMask dur rate : Nat) (s : State) : Host.Outcome State Fault Refusal :=
  .next (s.takeOrder src seq (fun s =>
    let us := max 1 (min 10000 dur)
    let s := s.bump cFabQuenchRcvd 1
    let s := ((List.range 7).filter (fun v => v != 0 && bitOf vcMask v)).foldl (fun (t : State) v =>
      t.putQuench { sender := src, part := part, vc := v, expiry := t.now + us * 1000, rate := rate, bucket := { tokens := 4352000000000, last := t.now } }) s
    let back := s.fab.links.flatMap (fun l => l.2.localq.filter (fun e => s.quenched e.pkt))
    let s := s.modFab (fun f => { f with links := kvMapVals (fun _ (x : Link) => { x with localq := x.localq.filter (fun e => !s.quenched e.pkt) }) f.links })
    s.holdBack (back.map (fun e => { e with quenched := some s.now }))))

/-- RELEASE_ARRIVAL: the sender's limits end (R362). -/
def execReleaseArrival (src seq : Nat) (s : State) : Host.Outcome State Fault Refusal :=
  .next (s.takeOrder src seq (fun s => s.modFab (fun f => { f with quench := f.quench.filter (fun q => q.sender != src) })))

/-- QUENCH_EXPIRY: the duration of a limit has passed (R362). -/
def execQuenchExpiry (sender part vc : Nat) (s : State) : Host.Outcome State Fault Refusal :=
  .next (s.modFab (fun f => { f with quench := f.quench.filter (fun q => !(q.sender == sender && q.part == part && q.vc == vc && decide (q.expiry ≤ s.now))) }))

/-- Fabric backlog of a partition: bytes of packets that its endpoints have not yet taken (R394). -/
def State.backlog (s : State) (p : Nat) : Nat :=
  ((s.fab.arrived ++ s.fab.refrags).filter (fun k => k.dstPart == p && k.vc != 0)).foldl (fun n k => n + 32 + k.length) 0

/-- Whether two packets are fragments of one (R354). -/
def sameWhole (a b : Packet) : Bool := a.vc == b.vc && a.ptype == b.ptype && a.srcNode == b.srcNode && a.seq == b.seq && a.opcode == b.opcode

/-- Take in a packet that has arrived: a fragment waits for the others of its packet, which becomes whole with the last of them (R354). -/
def State.takeIn (s : State) (k : Packet) : State :=
  if k.frags ≤ 1 then s.modFab (fun f => { f with arrived := f.arrived ++ [k] })
  else
    let fs := s.fab.refrags.filter (fun x => sameWhole x k && x.frag != k.frag) ++ [k]
    let rest := s.fab.refrags.filter (fun x => !sameWhole x k)
    let parts := (List.range k.frags).filterMap (fun i => fs.find? (fun x => x.frag == i))
    match parts with
    | x :: _ =>
      if parts.length = k.frags then
        let whole : Packet := { x with frag := 0, frags := 1, length := parts.foldl (fun n y => n + y.length) 0, data := parts.flatMap (fun y => y.data) }
        s.modFab (fun f => { f with refrags := rest, arrived := f.arrived ++ [whole] })
      else s.modFab (fun f => { f with refrags := rest ++ fs })
    | [] => s

/-- Send a QUENCH to the source of a packet while the backlog of its partition is high, at most once every HOLD_US (R394). -/
def State.quenchSource (s : State) (k : Packet) : State :=
  let high := s.fld rShpQuenchCfg fShpQuenchCfg_HIGH_KIB
  if high = 0 ∨ s.backlog k.dstPart ≤ high * 1024 then s
  else
    let x := s.part k.dstPart
    let hold := max 1 (s.fld rShpQuenchCfg fShpQuenchCfg_HOLD_US) * 1000
    if x.quenched.any (fun q => q.1 == k.srcNode && decide (s.now < q.2 + hold)) then s
    else
      let s := s.modPart k.dstPart (fun y => { y with quenched := y.quenched.filter (fun q => q.1 != k.srcNode) ++ [(k.srcNode, s.now)] })
      let dur := max 1 (min 10000 (s.fld rShpQuenchCfg fShpQuenchCfg_DURATION_US))
      (s.sendOrder k.srcNode 0x12 0 0 [k.srcPart, 2 ^ k.vc, dur, s.fld rShpQuenchCfg fShpQuenchCfg_RATE_GBPS * 1000000000] 16).bump cFabQuenchSent 1

/-- FABRIC_PACKET_ARRIVAL: a packet for this node leaves the receive buffer for its partition, whose endpoints take it by their own rows; a
response of an old reset generation is discarded (R108). Broadcast data for which no buffer is free stays where it is, and its credits hold back
what follows (R375). A high backlog is answered with a QUENCH (R394). -/
def execFabricPacketArrival (pkt : Packet) (s : State) : Host.Outcome State Fault Refusal :=
  if pkt.dstNode ≠ s.nodeId ∧ pkt.dstNode ≠ unrouted then .next s
  else if pkt.vc = 6 ∧ s.dataRoom pkt.opcode (pkt.args.headD 0) = false then .next s else
  let (s, from_) := s.fromRx pkt
  let s := match from_ with
    | some l => s.freeSpace l pkt.vc pkt.hops (flitsOf pkt)
    | none => s
  if (pkt.ptype = 1 ∨ pkt.ptype = 2) ∧ pkt.vc ≠ 0 ∧ s.isLate pkt = true ∧ s.configured pkt.dstPart = true then .next (s.discardLate pkt)
  else
    let s := s.takeIn pkt
    if pkt.vc = 0 then .next s else .next (s.quenchSource pkt)

/-- RELEASE_SEND: the backlog has fallen below LOW_KIB, and every node quenched for the partition is released (R394). -/
def execReleaseSend (p : Nat) (s : State) : Host.Outcome State Fault Refusal :=
  let low := min (s.fld rShpQuenchCfg fShpQuenchCfg_LOW_KIB) (s.fld rShpQuenchCfg fShpQuenchCfg_HIGH_KIB)
  let ns := (s.part p).quenched
  if ns.isEmpty ∨ low * 1024 ≤ s.backlog p then .next s
  else .next (ns.foldl (fun (t : State) n => t.sendOrder n.1 0x13 0 0 [] 0) (s.modPart p (fun x => { x with quenched := [] })))

end Sys2Proof.Machine
end

