-- ==== Sys2Proof/Machine/Flash.lean ====
section
/-! DEFINITION. Flash commands and media events (spec/13): namespaces, block failures, lost LUNs, collection, wear levelling,
media scrub and the spare. -/

namespace Sys2Proof.Machine

/-! ### Namespaces (R333 to R337) -/

/-- The namespace that a command admitted as request `rid` names: one that no delete has been admitted for before it (R337, R346). -/
def State.nsOf (s : State) (p id rid : Nat) : Option NSpace :=
  if s.recs.any (fun x => decide (x.1 < rid) && x.2.part == p && x.2.fab.isNone && x.2.cmd.opcode == 0x63 && x.2.cmd.param 0 2 == id && x.2.cmd.param 2 1 == 1) then none
  else kvGet? (nsKey p id) s.flash.ns

/-- Whether an NSID is in range. -/
def nsidOk (id : Nat) : Bool := decide (1 ≤ id ∧ id ≤ 16)

/-- The checks of `NS_READ` (R334). -/
def State.nsReadCheck (s : State) (p rid : Nat) (c : HostCmd) : Option Nat :=
  let n := c.param 4 4
  if !nsidOk (c.param 0 2) ∨ n = 0 ∨ 65536 < n ∨ c.resultAddr = 0 then some scBadCommand
  else match s.nsOf p (c.param 0 2) rid with
  | none => some scBadHandle
  | some x =>
    if s.resultOk p c.resultAddr (n * 16384) = false then some scBadHandle
    else if x.size < c.param 8 8 + n then some scBadCommand
    else none

/-- The checks of `NS_WRITE` (R334, R344). -/
def State.nsWriteCheck (s : State) (p rid : Nat) (c : HostCmd) : Option Nat :=
  let n := c.param 4 4
  if !nsidOk (c.param 0 2) ∨ n = 0 ∨ 65536 < n then some scBadCommand
  else match s.nsOf p (c.param 0 2) rid with
  | none => some scBadHandle
  | some x =>
    if s.addrOk p (c.param 16 8) (n * 16384) = false then some scBadHandle
    else if x.size < c.param 8 8 + n then some scBadCommand
    else if x.ro then some scMediaReadOnly
    else none

/-- The checks of `NS_TRIM` (R336, R344). -/
def State.nsTrimCheck (s : State) (p rid : Nat) (c : HostCmd) : Option Nat :=
  let n := c.param 4 4
  if !nsidOk (c.param 0 2) ∨ n = 0 then some scBadCommand
  else match s.nsOf p (c.param 0 2) rid with
  | none => some scBadHandle
  | some x => if x.size < c.param 8 8 + n then some scBadCommand else if x.ro then some scMediaReadOnly else none

/-- The checks of `NS_FORMAT` of every OP (R337). An OP above 2 is a field out of range. -/
def State.nsFormatCheck (s : State) (p rid : Nat) (c : HostCmd) : Option Nat :=
  let id := c.param 0 2
  let size := c.param 8 8
  if 2 < c.param 2 1 ∨ nsidOk id = false then some scBadCommand
  else if c.param 2 1 = 0 then
    (if size = 0 ∨ (kvGet? (nsKey p id) s.flash.ns).isSome = true then some scBadCommand
     else if s.quotaOf p 3 < s.useOf p 3 + 16384 * size ∨ s.flash.c * 16384 < s.tierFUse + 16384 * size ∨ 1024 ≤ s.flash.ns.length then some scQuota
     else none)
  else if (s.nsOf p id rid).isNone then some scBadHandle
  else none

/-- Whether a quota is what a namespace would pass. -/
def State.nsOver (s : State) (p : Nat) (c : HostCmd) : Bool := decide (s.quotaOf p 3 < s.useOf p 3 + 16384 * c.param 8 8)

/-- NS_READ: reads units to RESULT_ADDR; units that were never written read as zeros (R333, R334). Where one cannot be recovered,
COUNT is the units read correctly and RESULT0 the first that failed. -/
def execNsRead (p q cid : Nat) (s : State) : Host.Outcome State Fault Refusal :=
  match s.readyRec p q cid 0x60 with
  | none => .next s
  | some (rid, r) =>
    let c := r.cmd
    let id := c.param 0 2
    let n := c.param 4 4
    let first := c.param 8 8
    if let some st := (s.named r).nsReadCheck p rid c then .next (s.fail p rid st)
    else if s.nsWaits rid p id first n false then .next s
    else
        let a := nsBase (nsKey p id) + first * 16384
        let (bs, ok, bad, s) := s.flashLoad p a (n * 16384)
        match bad with
        | some k => .next (s.complete p rid scMediaUncorrectable 0 (ok / 16384) (k - nsBase (nsKey p id) / 16384) 0 bs)
        | none => .next (s.complete p rid scDone 0 n 0 0 bs)

/-- NS_WRITE: writes units, each whole (R334, R335). On worn-out media the write stops at the first unit that cannot be mapped:
RESULT0 names it and the namespace becomes read-only (R344). -/
def execNsWrite (p q cid : Nat) (data : List Byte) (s : State) : Host.Outcome State Fault Refusal :=
  match s.readyRec p q cid 0x61 with
  | none => .next s
  | some (rid, r) =>
    let c := r.cmd
    let id := c.param 0 2
    let n := c.param 4 4
    let first := c.param 8 8
    if s.nsWaits rid p id first n true then .next s
    else if let some st := (s.named r).nsWriteCheck p rid c then .next (s.fail p rid st)
    else match s.nsOf p id rid with
    | none => .next (s.fail p rid scBadHandle)
    | some x =>
        let s0 := s
        let (bs, s) := s.readInput p r.flow (c.param 16 8) (n * 16384) data
        let base := nsBase (nsKey p id)
        if s.flashFits base x.size (base + first * 16384) (n * 16384) = false then .next s0 else
        match s.flashStore p base x.size (base + first * 16384) bs with
        | (s, none) => .next (s.done p rid n 0 0)
        | (s, some k) =>
          let s := (s.modFlash (fun f => { f with ns := kvUpd (nsKey p id) (fun y => { y with ro := true }) f.ns })).mediaFull p id id
          .next (s.complete p rid scMediaFull 0 0 (first + k / 16384) 0 [])

/-- NS_TRIM: unmaps units, which then read as zeros (R336). -/
def execNsTrim (p q cid : Nat) (s : State) : Host.Outcome State Fault Refusal :=
  match s.readyRec p q cid 0x62 with
  | none => .next s
  | some (rid, r) =>
    let c := r.cmd
    let id := c.param 0 2
    let n := c.param 4 4
    let first := c.param 8 8
    if s.nsWaits rid p id first n true then .next s
    else if let some st := s.nsTrimCheck p rid c then .next (s.fail p rid st)
    else .next ((s.unmapUnits (nsBase (nsKey p id) / 16384 + first) n).done p rid n 0 0)

/-- A host NS_FORMAT that may execute, with its OP. -/
def State.formatRec (s : State) (p q cid op : Nat) : Option (Nat × Rec) :=
  match s.readyRec p q cid 0x63 with
  | some x => if x.2.cmd.param 2 1 = op then some x else none
  | none => none

/-- NS_FORMAT_CREATE: a namespace of SIZE units, unmapped and read-write, with a key of its own (R333, R337); an OP above 2 is refused here too. It waits while a load holds
allocations back (R491). -/
def execNsFormatCreate (p q cid : Nat) (s : State) : Host.Outcome State Fault Refusal :=
  match s.readyRec p q cid 0x63 with
  | none => .next s
  | some (rid, r) =>
    let c := r.cmd
    let id := c.param 0 2
    let size := c.param 8 8
    if c.param 2 1 = 1 ∨ c.param 2 1 = 2 then .next s
    else if s.allocHeld then .next s
    else if let some st := s.nsFormatCheck p rid c then .next (s.refuse p rid st (s.nsOver p c))
    else
      let n : NSpace := { size := size }
      .next (((s.modFlash (fun f => { f with ns := kvPut (nsKey p id) n f.ns })).newKey (nsBase (nsKey p id) / 16384)).done p rid 0 0 0)

/-- A delete or erase of a namespace begins: with no earlier command of it left, its key is destroyed (R337). Commands admitted after a delete no longer
find the namespace. -/
def State.beginFormat (s : State) (p q cid op : Nat) : State :=
  match s.formatRec p q cid op with
  | none => s
  | some (rid, r) =>
    let id := r.cmd.param 0 2
    match s.nsFormatCheck p rid r.cmd with
    | some st => s.fail p rid st
    | none =>
      ((s.modFlash (fun f => { f with ns := kvUpd (nsKey p id) (fun y => { y with ending := some rid }) f.ns })).modRec rid (fun r => { r with phase := .running })).destroyKey rid (nsKey p id)

/-- NS_FORMAT_DELETE: begins to destroy a namespace (R337). -/
def execNsFormatDelete (p q cid : Nat) (s : State) : Host.Outcome State Fault Refusal := .next (s.beginFormat p q cid 1)

/-- NS_FORMAT_ERASE: begins to empty a namespace (R337). -/
def execNsFormatErase (p q cid : Nat) (s : State) : Host.Outcome State Fault Refusal := .next (s.beginFormat p q cid 2)

/-- NS_FORMAT_DONE: with every earlier command of the namespace complete, the key is destroyed and the map entries cleared; a
delete frees the NSID and the quota, an erase leaves the namespace empty and read-write, under a new key; COUNT is 1 (R333, R337). -/
def execNsFormatDone (p q cid : Nat) (s : State) : Host.Outcome State Fault Refusal :=
  match s.runningRec p q cid 0x63 with
  | none => .next (s.lateEnd p q cid 0x63)
  | some (rid, r) =>
    let id := r.cmd.param 0 2
    match kvGet? (nsKey p id) s.flash.ns with
    | none => .next s
    | some x =>
      if (match r.long with | some l => l.running | none => false) = false ∨ s.nsWaits rid p id 0 (2 ^ 64) true = true then .next s
      else
        let s := (s.dropKey (nsBase (nsKey p id) / 16384)).unmapUnits (nsBase (nsKey p id) / 16384) x.size
        let s := s.modFlash (fun f => { f with ns := if r.cmd.param 2 1 = 1 then kvDel (nsKey p id) f.ns else kvPut (nsKey p id) { size := x.size } f.ns })
        let s := if r.cmd.param 2 1 = 1 then s else s.newKey (nsBase (nsKey p id) / 16384)
        .next (s.done p rid 1 0 0)

/-- Sanitise a partition's flash on a reset with SCRUB: its namespaces and Tier F tensors are gone, and their keys are destroyed (R345). -/
def State.flashScrub (s : State) (p : Nat) : State :=
  let mine := s.flash.ns.filter (fun n => n.1 / 32 == p)
  let s := mine.foldl (fun (t : State) n => (t.dropKey (nsBase n.1 / 16384)).unmapUnits (nsBase n.1 / 16384) n.2.size) s
  let s := s.modFlash (fun f => { f with ns := f.ns.filter (fun n => n.1 / 32 != p) })
  ((s.mem.tensors.filter (fun t => t.2.part == p && tierOf t.2.addr == some 3)).map (fun t => t.1)).foldl State.freeTensor s

/-! ### Media events (R338 to R343) -/

/-- Fence a LUN (R340, Table 13.2): reported as FENCED, and a rebuild of its index begins. -/
def State.fenceLun (s : State) (lun : Nat) : State :=
  if s.isFenced 10 lun ∨ s.flash.geom.luns ≤ lun % 32 then s else
  let s := s.modUnit 10 lun (fun u => { u with fenced := true })
  let s := (s.bump cFltFences 1).event 2 8 10 1 lun 0xFF 0
  let s := s.modUnit 10 lun (fun u => { u with fences := u.fences + 1 })
  let s := s.modFlash (fun f => { f with rebuild := f.rebuild ++ [lun] })
  (s.logFlash 1 lun 0).logFlash 2 lun 0

/-- FLASH_PROGRAM_FAIL: a program or an erase of a block fails: the block is retired and, in an open stripe, its units are
written again elsewhere, so that commands go on (R339). More than 16 blocks of a LUN within 1 s fence it (R340). -/
def execFlashProgramFail (lun block : Nat) (erase : Bool) (s : State) : Host.Outcome State Fault Refusal :=
  if !s.flash.good lun block then .next s else
  let recent := ((kvGetD [] lun s.flash.fails).filter (fun t => decide (s.now ≤ t + 1000000000))) ++ [s.now]
  let s := (s.modFlash (fun f => { f with fails := kvPut lun recent f.fails })).retireBlock lun block
  let s := if erase then s.modFlash (fun f => { f with blocks := kvPut (blockKey lun block) { f.blk lun block with reads := 0, retries := 0 } f.blocks }) else s
  .next (if 16 < recent.length then s.fenceLun lun else s)

/-- LUN_FENCE: a LUN stops answering or fails training, and is fenced (R340). -/
def execLunFence (lun : Nat) (s : State) : Host.Outcome State Fault Refusal := .next (s.fenceLun lun)

/-- LUN_REBUILD_DONE: the valid units of the index's superblocks now lie elsewhere, those that lost two members of their stripe
are unrecoverable, and the superblocks return to service with one member less (R340, Table 13.2). It does not end while units of them have found no
other place. -/
def execLunRebuildDone (lun : Nat) (s : State) : Host.Outcome State Fault Refusal :=
  if !s.flash.rebuild.contains lun then .next s else
  let u := lun % 32
  let sbs := (s.flash.supers.filter (fun x => x.1 / 65536 == u && x.2.chans.contains (lun / 32))).map (fun x => x.1)
  let lost := (s.flash.map.filter (fun x => x.2.1 / 65536 == u && s.flash.unitLoss x.1 == 2)).map (fun x => x.1)
  let s := lost.foldl (fun (t : State) k => t.modMem (fun m => m.damage (k * 16384) 16384)) s
  let s := (s.flash.hostOpen.toList ++ s.flash.relOpen.toList).foldl (fun (t : State) b => if sbs.contains b then t.closeSuper b else t) s
  let s := sbs.foldl State.evacuate s
  let stuck := s.flash.supers.any (fun x => x.1 / 65536 == u && x.2.chans.contains (lun / 32) && !(s.flash.unitsIn x.1).isEmpty)
  if stuck then .next s.serveP else
  .next (((s.modFlash (fun f => { f with rebuild := f.rebuild.filter (· != lun), out := f.out ++ [lun] })).logFlash 3 lun 0).serveP)

/-- GC_START: free superblocks have fallen below GC_LOW, so victims are collected until GC_HIGH is reached (R342). -/
def execGcStart (s : State) : Host.Outcome State Fault Refusal :=
  if s.freeBelow s.gcLow then .next (State.collect s.flash.supers.length s).serveP else .next s

/-- Erase counts of the blocks in service, the members of the superblocks in service: the least and the most. -/
def State.wearBounds (s : State) : Nat × Nat :=
  let f := s.flash
  let cs := (List.range f.geom.luns).flatMap (fun u => (((List.range (f.formed u)).map (superKey u)).filter (fun k => !f.gone.contains k)).flatMap (fun k =>
    (((kvGet? k f.supers).map (fun x => x.chans)).getD (f.channels u)).map (fun m => (f.blk (m * 32 + u) (f.member k m)).erases)))
  match cs with
  | [] => (0, 0)
  | c :: rest => rest.foldl (fun b x => (min b.1 x, max b.2 x)) (c, c)

/-- The wear-levelling loop: the least-worn closed superblock moves to the most-worn free one until the spread falls to three
quarters of the limit (R341). -/
def State.levelWear (limit : Nat) : Nat → State → State
  | 0, s => s
  | n + 1, s =>
    let (lo, hi) := s.wearBounds
    if 4 * (hi - lo) ≤ 3 * limit then s else
    let closed := s.flash.supers.filter (fun x => !x.2.isOpen)
    let src := closed.foldl (fun (b : Option Nat) x => match b with
      | none => some x.1
      | some k => if s.flash.erases x.1 < s.flash.erases k then some x.1 else b) none
    match src, s.flash.pickFree false with
    | some k, some d =>
      if s.flash.erases k < s.flash.erases d then
        let s := match s.flash.relOpen with | some r => s.closeSuper r | none => s
        State.levelWear limit n ((s.evacuate k).bump cFtlWearMoves 1)
      else s
    | _, _ => s

/-- WEAR_LEVEL_START: the spread of erase counts exceeds WEAR_SPREAD (R341). -/
def execWearLevelStart (s : State) : Host.Outcome State Fault Refusal :=
  let limit := max 20 (min 2000 (s.fld rFtlCfg fFtlCfg_WEAR_SPREAD))
  let (lo, hi) := s.wearBounds
  if limit < hi - lo then .next (State.levelWear limit s.flash.supers.length s) else .next s

/-- Units whose data lies in a block. -/
def Flash.unitsOfBlock (f : Flash) (lun b : Nat) : List Nat :=
  (f.map.filter (fun x => match f.placeOf x.1 with | some (l, y, _) => l == lun && y == b | none => false)).map (fun x => x.1)

/-- MEDIA_SCRUB_READ: a valid page is read; a block whose page needed retry above level 4 or had too many corrected bits, or with too many reads since
its last erase, is relocated (R343); one that needs retry on more than half of its reads is retired (R339). The measured error rate is a free
value. -/
def execMediaScrubRead (lun block page : Nat) (found : ScrubFound) (s : State) : Host.Outcome State Fault Refusal :=
  let us := s.flash.unitsOfBlock lun block
  if !us.any (fun k => match s.flash.placeOf k with | some (_, _, g) => g == page | none => false) then .next s else
  let (w, s) := s.fresh
  let b := s.flash.blk lun block
  let retry := found == .retried || found == .deepRetry
  let b' : FBlock := { b with reads := b.reads + 1, retries := if retry then min 0xFFFF (b.retries + 1) else b.retries, ber := w.toNat % 65536 }
  let s := s.modFlash (fun f => { f with blocks := kvPut (blockKey lun block) b' f.blocks })
  let s := if retry then s.bump cFtlRetryReads 1 else s
  if b'.reads < 2 * b'.retries then .next (s.retireBlock lun block)
  else if found = .deepRetry ∨ found = .weak ∨ s.fld rFtlCfg fFtlCfg_DISTURB_K * 1000 < b'.reads then .next ((s.relocate us).bump cFtlScrubRelocated 1)
  else .next s

/-- Reserve an area that no quota counts (R310) where the range is free; the one of its kind there before gives way. -/
def State.reserve (s : State) (kind : AllocKind) (a len : Nat) : State :=
  s.modMem (fun m => if len = 0 ∨ m.isFree a len = false then m else { m with allocs := kvPut a { len := len, part := none, kind := kind } m.allocs })

/-- Reserve the map in Tier B, half on each SCD (R332): at the end of each, below the 64 MiB of buffers (DESIGN CHOICE, log entry 55: no rule places
it; the former map stays where a tensor stands in the way). -/
def State.reserveMap (s : State) : State :=
  let half := s.flash.mapGib * 2 ^ 29
  let bases := [0x20000000000 - half, 0x30000000000 - 2 ^ 26 - half]
  let t := s.modMem (fun m => { m with allocs := m.allocs.filter (fun x => x.2.kind != .flashMap) })
  if bases.all (fun a => t.mem.isFree a half) then bases.foldl (fun (u : State) a => u.reserve .flashMap a half) t else s

/-- Reserve the hot-row directory, 16 MiB at the end of Tier A, and the node's buffers, 64 MiB at the end of Tier B (R310; DESIGN CHOICE, log entry 55:
no rule places them). -/
def State.reserveAreas (s : State) : State :=
  (s.reserve .directory (255 * 2 ^ 31 + (if s.isS256 then 2 ^ 30 else 2 ^ 31) - 2 ^ 24) (2 ^ 24)).reserve .nodeBuffers (0x30000000000 - 2 ^ 26) (2 ^ 26)

/-- FTL_SPARE_WRITE: `FTL_CFG` is written; SPARE_PERMIL fixes the exported capacity anew, and with it the size of the map, but keeps its value while
any namespace or Tier F tensor exists (R331, R332, Table 13.4). A change of σ is recorded in the logbook (R347). -/
def execFtlSpareWrite (value : Word) (s : State) : Host.Outcome State Fault Refusal :=
  let held := !s.flash.ns.isEmpty || s.mem.allocs.any (fun a => tierOf a.1 == some 3)
  let old := s.fld rFtlCfg fFtlCfg_SPARE_PERMIL
  let clamp := fun (lo hi v : Nat) => max lo (min hi v)
  let sigma := if held then old else clamp 50 300 (fFtlCfg_SPARE_PERMIL.get value)
  let w := packFields [(fFtlCfg_REBUILD_PCT, clamp 5 100 (fFtlCfg_REBUILD_PCT.get value)), (fFtlCfg_SCRUB_DAYS, clamp 1 255 (fFtlCfg_SCRUB_DAYS.get value)),
    (fFtlCfg_DISTURB_K, fFtlCfg_DISTURB_K.get value), (fFtlCfg_WEAR_SPREAD, clamp 20 2000 (fFtlCfg_WEAR_SPREAD.get value)), (fFtlCfg_SPARE_PERMIL, sigma)]
  let s := s.setReg rFtlCfg w
  let s := if held ∨ s.flash.media ≠ 2 then s else (s.modFlash (fun f => f.format sigma)).reserveMap
  .next (if sigma = old then s else s.logFlash 5 0 sigma)

/-- Discover the media at power-up: absent or invalid, with a capacity of 0 and no namespace until its own media is found again, or ready with the
capacity fixed at its first format (R329, R331). The map is reserved (R332). -/
def State.discoverMedia (s : State) : State :=
  let miss := fun (n : Nat) => s.modFlash (fun f => { f with media := n, stash := some (f.stash.getD (f.ns, f.cap)), ns := [], cap := none })
  match s.flash.geo with
  | none => miss 0
  | some g =>
    if !g.ok then miss 3
    else (s.modFlash (fun f =>
      let (ns, cap) := f.stash.getD (f.ns, f.cap)
      let f := { f with media := 2, ns := ns, cap := cap, stash := none }
      if f.cap.isSome then f else f.standIns.format (s.fld rFtlCfg fFtlCfg_SPARE_PERMIL))).reserveMap

end Sys2Proof.Machine
end

