-- ==== Sys2Proof/Machine/EmbOps.lean ====
section
/-! DEFINITION. Embedding tables (spec/11), the shared operations: rows and their types, placing of indices, the hot-row
directory, accumulation, closing of steps, recalls, and what ends with a table. -/

namespace Sys2Proof.Machine

/-! ### Packets of the embedding system (OPCODE within VC3, VC4 and VC5 is not numbered by the spec: DESIGN CHOICE) -/

def opLookup : Nat := 0x81
def opContrib : Nat := 0x82
def opStepEnd : Nat := 0x83
def opDriftSwitch : Nat := 0x84
def opDriftCopy : Nat := 0x85
def opReplica : Nat := 0x86

/-! ### Tables -/

/-- The table with an ID. -/
def State.table? (s : State) (tid : Nat) : Option Table := kvGet? tid s.emb.tables

/-- Change the embedding system. -/
def State.modEmb (s : State) (f : Emb → Emb) : State := s.putEmb (f s.emb)

/-- Change a table, if it is held. -/
def State.modTable (s : State) (tid : Nat) (f : Table → Table) : State := s.modEmb (fun e => { e with tables := kvUpd tid f e.tables })

/-- Count in a table's counter, with what its first saturation does (R408). -/
def State.bumpTable (s : State) (tid off n : Nat) : State := s.bumpCopy tid off n

/-! ### Rows (R286) -/

/-- fp16, as its values round (Table 8.2), and the pattern of a NaN made quiet. -/
def fmtFp16 : Fmt := ⟨11, -24, 5⟩
def nanFp16 (b : Nat) : Nat := (b / 2 ^ 31 % 2) * 2 ^ 15 + 0x7C00 + ((nan32 b / 2 ^ 13 % 1024) ||| 0x200)

/-- Bytes of a row without padding, and ROW_STRIDE. -/
def rowBytes (ty dim : Nat) : Nat := if ty = 2 then 4 * dim else if ty = 3 then 4 + dim else 2 * dim
def rowStride (ty dim : Nat) : Nat := roundUp (rowBytes ty dim) 64

/-- The elements of a row widened to fp32 (bits): an int8 row is code × scale. -/
def widenRow (ty dim : Nat) (bs : List Byte) : List Nat :=
  (List.range dim).map (fun j =>
    if ty = 2 then fieldAt bs (4 * j) 4
    else if ty = 1 then enc32 (decFp16 (fieldAt bs (2 * j) 2))
    else if ty = 0 then enc32 (decBf16 (fieldAt bs (2 * j) 2))
    else enc32 (Num.mul fmt32 (Num.ofInt (signedOf 8 (fieldAt bs (4 + j) 1))) (dec32 (fieldAt bs 0 4))))

/-- An fp32 value as bf16 or fp16, rounded to nearest even. -/
def toBf16 (w : Nat) : Nat := encodeIeee 8 7 fmtBf16 nanBf16 (dec32 w)
def toFp16 (w : Nat) : Nat := encodeIeee 5 10 fmtFp16 nanFp16 (dec32 w)

/-- The bytes of a row of fp32 values in a floating ROW_TYPE, padded with zeros. -/
def narrowRow (ty dim : Nat) (vs : List Nat) : List Byte :=
  let bs := (vs.take dim).flatMap (fun v => if ty = 2 then leBytes 4 v else leBytes 2 (if ty = 1 then toFp16 v else toBf16 v))
  bs ++ List.replicate (rowStride ty dim - bs.length) 0

/-! ### Placing (R287) -/

/-- Number of shards. -/
def Table.count (t : Table) : Nat := t.map.length

/-- Shard and local row of a valid index. -/
def Table.place (t : Table) (x : Nat) : Nat × Nat :=
  if t.hash then
    let q := x / t.count
    let h := q * 0x9e3779b97f4a7c15 % 2 ^ 64 / 2 ^ 32
    ((x % t.count + h) % t.count, q)
  else
    let k := (t.map.filter (fun e => decide (e.first ≤ x))).length - 1
    (k, x - ((t.map[k]?).map (fun e => e.first)).getD 0)

/-- Local rows of a shard. -/
def shardRows (hash : Bool) (rows : Nat) (map : List TMapEnt) (k : Nat) : Nat :=
  if hash then (rows + map.length - 1) / map.length
  else (match map[k + 1]? with | some e => e.first | none => rows) - ((map[k]?).map (fun e => e.first)).getD 0

/-- Local rows of this node's shard. -/
def Table.localRows (t : Table) : Nat := match t.shard with | some k => shardRows t.hash t.rows t.map k | none => 0

/-- The nodes of the map but this one. -/
def State.otherNodes (s : State) (t : Table) : List Nat := (t.map.map (fun e => e.node)).filter (fun n => n != s.nodeId)

def Table.stride (t : Table) : Nat := rowStride t.rowType t.dim

/-- The drift slot of a row. -/
def Table.slotOf (t : Table) (x : Nat) : Option (Nat × DSlot) := t.slots.find? (fun z => z.2.row == x)

/-- Whether this node owns a row by drift. -/
def Table.ownsDrifted (t : Table) (x : Nat) : Bool := (t.slotOf x).any (fun z => z.2.switched && !z.2.replica)

/-- Whether this node holds a usable copy of a row by replication. -/
def Table.hasCopy (t : Table) (x : Nat) : Bool := (t.slotOf x).any (fun z => z.2.replica && decide (0 < z.2.copied))

/-- Whether a row still drifts to this node: its slot is reserved, its SWITCH has not taken effect. -/
def Table.drifting (t : Table) (x : Nat) : Bool := (t.slotOf x).any (fun z => !z.2.replica && !z.2.switched)

/-- Where the bytes and the Adagrad accumulator of a row lie on this node: its drift slot, or its place in the shard of the given
base. -/
def Table.rowPlace (t : Table) (base x : Nat) : Nat × Option Nat :=
  match t.slotOf x with
  | some (k, _) => ((t.drift.getD 0) + k * t.stride, if t.opt = 2 then some ((t.drift.getD 0) + t.driftRows * t.stride + 4 * k) else none)
  | none =>
    let i := (t.place x).2
    (base + i * t.stride, t.state.map (fun a => a + 4 * i))

/-! ### The hot-row directory (R305) -/

/-- Capacity of the directory. -/
def dirCap : Nat := 1048576

/-- Entries of a kind for a row. -/
def State.dirOf (s : State) (tid x kind : Nat) : List DirEnt := s.emb.dir.filter (fun d => d.table == tid && d.row == x && d.kind == kind)

/-- Make room for one entry where only HINTs stand in the way: the least recently used is evicted and counted. -/
def State.dirRoom (s : State) : State :=
  if s.emb.dirUsed < dirCap then s else
  match s.emb.dir.findIdx? (fun d => d.kind == 0) with
  | some i => (s.modEmb (fun e => { e with dir := e.dir.eraseIdx i })).bump cEmbDirEvicts 1
  | none => s

/-- Whether an entry can be had. -/
def State.dirCan (s : State) : Bool := decide (s.emb.dirUsed < dirCap) || s.emb.dir.any (fun d => d.kind == 0)

/-- Write an entry as the most recently used; nothing is written where the directory is full of other entries. -/
def State.dirPut (s : State) (d : DirEnt) : State :=
  let s := s.modEmb (fun e => { e with dir := e.dir.filter (fun x => x != d) })
  if s.dirCan then s.dirRoom.modEmb (fun e => { e with dir := e.dir ++ [d] }) else s

/-- Remove entries. -/
def State.dirDel (s : State) (f : DirEnt → Bool) : State := s.modEmb (fun e => { e with dir := e.dir.filter (fun x => !f x) })

/-- Note the use of a row's HINTs. -/
def State.dirTouch (s : State) (tid x : Nat) : State :=
  if (s.dirOf tid x 0).isEmpty then s else
  let hint := fun (d : DirEnt) => d.kind == 0 && d.table == tid && d.row == x
  s.modEmb (fun e => { e with dir := e.dir.filter (fun d => !hint d) ++ e.dir.filter hint })

/-- The node with the fewest hops of a list, the first on a tie. -/
def State.nearest (s : State) (first : Nat) (ns : List Nat) : Nat :=
  ns.foldl (fun b n => if s.distTo n < s.distTo b then n else b) first

/-- Where requests for a row go (R287, R305 to R307): none where this node serves it, otherwise the node. -/
def State.placeRow (s : State) (tid : Nat) (t : Table) (x : Nat) (lookup : Bool) : Option Nat :=
  if t.ownsDrifted x || (lookup && t.hasCopy x) then none else
  let k := (t.place x).1
  let home := ((t.map[k]?).map (fun e => e.node)).getD 0
  if t.shard = some k then (s.dirOf tid x 1).head?.map (fun d => d.node)
  else
    let hints := s.dirOf tid x 0
    match hints.find? (fun d => !d.rep) with
    | some d => some d.node
    | none => if lookup then some (s.nearest home ((hints.map (fun d => d.node)).filter (fun n => n != s.nodeId))) else some home

/-- The map entry of a node. -/
def Table.entryOf (t : Table) (n : Nat) : TMapEnt := (t.map.find? (fun e => e.node == n)).getD { node := n, part := t.part, ep := 0, stream := 0, first := 0 }

/-! ### Load and hot rows (R304) -/

/-- Count rows served or applied. -/
def State.noteServed (s : State) (tid n : Nat) : State :=
  if n = 0 then s else
  s.modTable tid (fun t => { t with served := recentRows s.now t.served ++ [(s.now, n)] })

/-- The sampled rate of a hot-row candidate: its samples of the last 16 ms, the time over which R304 averages loads (DESIGN CHOICE, log entry 23: the
rule gives the rate no time of its own). -/
def sampleRate (now : Nat) (ts : List Nat) : Nat := (ts.filter (fun t => decide (now < t + 16000000))).length

/-- Sample one row fetch in 64 into the hot-row candidate store of 4,096 entries, which ranks rows by their sampled rate; a full store drops its
lowest rank, the oldest entry on a tie. -/
def State.noteFetch (s : State) (tid x : Nat) : State :=
  s.modEmb (fun e =>
    let e := { e with fetches := (e.fetches + 1) % 64 }
    if e.fetches ≠ 0 then e
    else if e.hot.any (fun h => h.1 == tid && h.2.1 == x) then
      { e with hot := e.hot.map (fun h => if h.1 == tid && h.2.1 == x then (h.1, h.2.1, h.2.2.filter (fun t => decide (s.now < t + 16000000)) ++ [s.now]) else h) }
    else
      let low := e.hot.foldl (fun m h => min m (sampleRate s.now h.2.2)) (((e.hot.head?).map (fun h => sampleRate s.now h.2.2)).getD 0)
      let kept := if e.hot.length < 4096 then e.hot else match e.hot.findIdx? (fun h => sampleRate s.now h.2.2 == low) with
        | some i => e.hot.eraseIdx i
        | none => e.hot
      { e with hot := kept ++ [(tid, x, [s.now])] })

/-! ### Sums whose order is open -/

/-- The terms of sum `n` in the order in which they are added: at each step one of those left, as the configuration picks. -/
def pickOrder {α : Type} (n : Nat) : Nat → List α → List α
  | 0, xs => xs
  | k + 1, xs =>
    if xs.length ≤ 1 then xs else
    let i := Config.pick n k % xs.length
    match xs[i]? with
    | some x => x :: pickOrder n k (xs.eraseIdx i)
    | none => xs

/-- Elementwise sum of two rows in fp32. -/
def addRows (a b : List Nat) : List Nat := List.zipWith (fun x y => enc32 (Num.add fmt32 (dec32 x) (dec32 y))) a b

/-- The sum of rows in the order of sum `n`; no row gives zeros. -/
def sumRows (n dim : Nat) (rows : List (List Nat)) : List Nat :=
  match pickOrder n rows.length rows with
  | [] => List.replicate dim 0
  | r :: rs => rs.foldl addRows r

/-! ### Accumulation (R297) -/

/-- Change a step's entry in a table of counts by node. -/
def addCount (m : KV (KV Nat)) (step node n : Nat) : KV (KV Nat) :=
  let row := kvGetD [] step m
  kvPut step (kvPut node (kvGetD 0 node row + n) row) m

/-- Add a sum to the accumulator of a row for a step: 0 accumulated, 1 late, 2 accumulation area full. What came from another node as
a contribution counts for that node's STEP_END (R299). -/
def State.accumulate (s : State) (tid : Nat) (t : Table) (step x : Nat) (g : List Nat) (sender : Option Nat) : State × Nat :=
  let opened := t.steps.find? (fun z => z.step == step)
  if step ≤ t.lastClosed ∨ (opened.isNone ∧ 4 ≤ t.steps.length) then (s.bumpTable tid cEmbTLate 1, 1)
  else
    let cur := (opened.map (fun z => z.acc)).getD []
    if (kvGet? x cur).isNone ∧ t.accumRows ≤ cur.length then (s.bumpTable tid cEmbTAccumFull 1, 2)
    else
      let acc := kvPut x (match kvGet? x cur with | some a => addRows a g | none => g) cur
      let st : TStep := { step := step, acc := acc }
      let steps := if opened.isSome then t.steps.map (fun z => if z.step == step then st else z) else t.steps ++ [st]
      let got := match sender with | some n => addCount t.got step n 1 | none => t.got
      (s.modTable tid (fun t => { t with steps := steps, got := got }), 0)

/-- Send a message of a table to a node of its map on a virtual channel, without an answer. -/
def State.sendTable (s : State) (t : Table) (vc op node : Nat) (args : List Nat) (data : List Byte) : State :=
  let e := t.entryOf node
  let seq := s.fab.seqNo
  let k : Packet := { vc := vc, ptype := 0, opcode := op, dstNode := node, dstPart := e.part, dstEp := e.ep, srcNode := s.nodeId, srcPart := t.part, stream := e.stream, length := data.length, resetGen := s.resetGen t.part, seq := seq, dist := s.distTo node, args := args, data := data }
  (s.modFab (fun f => { f with seqNo := (seq + 1) % 2 ^ 32 })).handPacket k

/-- The bytes of fp32 values. -/
def fp32Bytes (vs : List Nat) : List Byte := vs.flatMap (fun v => leBytes 4 v)

/-- The fp32 values in bytes. -/
def fp32List (n : Nat) (bs : List Byte) : List Nat := (List.range n).map (fun j => fieldAt bs (4 * j) 4)

/-! ### Step ends and closing (R299 to R301) -/

/-- Whether this node has received what another node's STEP_END of a step counts. -/
def Table.inboundFrom (t : Table) (step n : Nat) : Bool :=
  match kvGet? n (kvGetD [] step t.ends) with
  | some c => decide (c ≤ kvGetD 0 n (kvGetD [] step t.got))
  | none => false

/-- Whether it has from every other node of the map. -/
def State.inbound (s : State) (t : Table) (step : Nat) : Bool := (s.otherNodes t).all (t.inboundFrom step)

/-- Whether this node has forwarded rows to a node (R306). -/
def State.forwardsTo (s : State) (tid n : Nat) : Bool := s.emb.dir.any (fun d => d.table == tid && d.kind == 1 && d.node == n)

/-- Send the STEP_END of a step to every other node of the map that has none yet: to one that this node forwards rows to only
once its own inbound conditions hold (R306). -/
def State.endStep (s : State) (tid step : Nat) : State :=
  match s.table? tid with
  | none => s
  | some t =>
    (s.otherNodes t).foldl (fun (s : State) n =>
      if (kvGetD [] step t.endedTo).contains n || (s.forwardsTo tid n && !s.inbound t step) then s
      else (s.sendTable t 4 opStepEnd n [tid, step, kvGetD 0 n (kvGetD [] step t.sent)] []).modTable tid (fun t =>
        { t with endedTo := kvPut step (kvGetD [] step t.endedTo ++ [n]) t.endedTo })) s

/-- Send every STEP_END that is due: of the steps after the last closed one up to the last one ended. -/
def State.endSteps (s : State) (tid : Nat) : State :=
  match s.table? tid with
  | none => s
  | some t =>
    if (s.otherNodes t).isEmpty then s else
    (List.range (t.ended - t.lastClosed)).foldl (fun (s : State) i => s.endStep tid (t.lastClosed + 1 + i)) s

/-- Whether every condition of R299 holds for a step. -/
def State.stepReady (s : State) (t : Table) (step : Nat) : Bool :=
  decide (step ≤ t.ended) && (s.otherNodes t).all (fun n => (kvGetD [] step t.endedTo).contains n && t.inboundFrom step n)

/-- A gradient applied to a row (R300): the new row and the new accumulator, in fp32. -/
def applyRow (opt dim lr eps n : Nat) (w g : List Nat) (a : Nat) : List Nat × Nat :=
  let mul := fun (x y : Nat) => enc32 (Num.mul fmt32 (dec32 x) (dec32 y))
  let sub := fun (x y : Nat) => enc32 (Num.sub fmt32 (dec32 x) (dec32 y))
  let add := fun (x y : Nat) => enc32 (Num.add fmt32 (dec32 x) (dec32 y))
  let div := fun (x y : Nat) => enc32 (Num.div fmt32 (dec32 x) (dec32 y))
  if opt = 0 then (addRows w g, a)
  else if opt = 1 then (List.zipWith (fun x y => sub x (mul lr y)) w g, a)
  else
    let sq := (pickOrder n g.length (g.map (fun y => mul y y))).foldl add 0
    let a := add a (div sq (enc32 (Num.ofInt dim)))
    let d := add (enc32 (Num.sqrt fmt32 (dec32 a))) eps
    (List.zipWith (fun x y => sub x (div (mul lr y) d)) w g, a)

/-- Send a row's newest value and accumulator to the node it drifts to (Table 11.4, steps 2 and 4). -/
def State.sendCopy (s : State) (tid x : Nat) (d : Drift) : State :=
  match s.table? tid with
  | none => s
  | some t =>
    let pl := t.rowPlace t.addr x
    let acc := match pl.2 with | some a => s.readMem a 4 | none => []
    let s := s.modTable tid (fun t => { t with drifts := t.drifts.map (fun y => if y.row == x && y.node == d.node then { y with copies := y.copies + 1 } else y) })
    let s := (s.access t.part pl.1 t.stride).access t.part (pl.2.getD 0) (if pl.2.isSome then 4 else 0)
    s.sendTable t 5 opDriftCopy d.node [tid, x, d.copies + 1, d.replica.toNat] (s.readMem pl.1 t.stride ++ acc)

/-- Apply a step's gradients of one row, then bring the copies under way and the replicas up to date. -/
def State.applyOne (s : State) (tid x : Nat) (g : List Nat) : State :=
  match s.table? tid with
  | none => s
  | some t =>
    let pl := t.rowPlace t.addr x
    let w := widenRow t.rowType t.dim (s.readMem pl.1 t.stride)
    let a := match pl.2 with | some a => leNat (s.readMem a 4) | none => 0
    let (w, a) := applyRow t.opt t.dim t.lr t.eps s.free w g a
    let s := s.putFree (s.free + 1)
    let s := ((s.access t.part pl.1 t.stride).writeMem pl.1 (narrowRow t.rowType t.dim w)).access t.part pl.1 t.stride
    let s := match pl.2 with | some p => ((s.access t.part p 4).writeMem p (leBytes 4 a)).access t.part p 4 | none => s
    let s := (t.drifts.filter (fun d => d.row == x && decide (0 < d.copies))).foldl (fun (s : State) d => s.sendCopy tid x d) s
    (s.dirOf tid x 3).foldl (fun (s : State) d => s.sendTable t 5 opReplica d.node [tid, x] (s.readMem pl.1 t.stride)) s

/-- Close a step: apply the optimiser once to each row that holds a gradient for it, in rising order of rows, free the step's
accumulator, and note the rows for the close commands that cover it (R300). -/
def State.closeStep (s : State) (tid step : Nat) : State :=
  match s.table? tid with
  | none => s
  | some t =>
    let acc := ((t.steps.find? (fun z => z.step == step)).map (fun z => z.acc)).getD []
    let s := acc.foldl (fun (s : State) r => s.applyOne tid r.1 r.2) s
    let s := (s.bumpTable tid cEmbTApplied acc.length).noteServed tid acc.length
    s.modTable tid (fun t =>
      let keep := fun {β : Type} (m : KV β) => m.filter (fun z => decide (step < z.1))
      let first := t.closers.findIdx? (fun c => decide (step ≤ c.step))
      { t with steps := t.steps.filter (fun z => decide (step < z.step)), got := keep t.got, ends := keep t.ends, sent := keep t.sent
               endedTo := keep t.endedTo, lastClosed := step
               closers := t.closers.zipIdx.map (fun c => if some c.2 == first then { c.1 with applied := c.1.applied + acc.length } else c.1) })

/-- Close every open step up to `step`, in increasing order; the last closed step becomes `step`. -/
def State.closeUpTo (s : State) (tid step : Nat) : State :=
  match s.table? tid with
  | none => s
  | some t =>
    let due := (((t.steps.filter (fun z => decide (z.step < step))).foldl (fun (m : KV Unit) z => kvPut z.step () m) []).map (fun z => z.1))
    (due ++ [step]).foldl (fun (s : State) k => s.closeStep tid k) s

/-- Complete the close commands whose step is closed (R301): COUNT the rows applied, RESULT0 the step, RESULT1 the nodes that were
missing. -/
def State.finishCloses (s : State) (tid : Nat) : State :=
  match s.table? tid with
  | none => s
  | some t =>
    let done := t.closers.filter (fun c => decide (c.step ≤ t.lastClosed))
    let s := s.modTable tid (fun t => { t with closers := t.closers.filter (fun c => !decide (c.step ≤ t.lastClosed)) })
    done.foldl (fun (s : State) c =>
      if c.late then s.complete t.part c.rid scPartial 0 c.applied c.step c.missing.length [] else s.complete t.part c.rid scDone 0 c.applied c.step 0 []) s

/-! ### Recalls (R302, R303) -/

/-- Recall every row of a table that has drifted from this node, and every replica and drift under way: the entries go at once,
the nodes acknowledge on VC0. -/
def State.recallRows (s : State) (tid : Nat) : State :=
  match s.table? tid with
  | none => s
  | some t =>
    let away := ((s.emb.dir.filter (fun d => d.table == tid && (d.kind == 1 || d.kind == 3))).map (fun d => (d.row, d.node)) ++
      t.drifts.map (fun d => (d.row, d.node))).eraseDups
    let s := s.dirDel (fun d => d.table == tid && (d.kind == 1 || d.kind == 3))
    let s := s.modTable tid (fun t => { t with drifts := [], recalls := t.recalls ++ away })
    away.foldl (fun (s : State) x => s.sendOrder x.2 0x32 t.part (s.resetGen t.part) [tid, x.1] 16) s

/-! ### Ends of tables -/

/-- Remove a table: its areas freed, its rows given back, its directory entries and counters gone. -/
def State.dropTable (s : State) (tid : Nat) : State :=
  match s.table? tid with
  | none => s
  | some t =>
    let s := t.areas.foldl State.release s
    let s := match t.tensor with | some _ => s.giveRows t.addr t.tensor | none => s
    let s := match t.old with | some (_, a, i) => s.giveRows a i | none => s
    let s := s.dirDel (fun d => d.table == tid)
    let s := s.putCtrs (s.ctrs.filter (fun c => c.1 / 2 ^ 32 != tid + 1))
    s.modEmb (fun e => { e with tables := kvDel tid e.tables, hot := e.hot.filter (fun h => h.1 != tid) })

/-- A partition reset discards the open steps of its tables, abandons drifts not yet switched and frees the slots of rows that
still drift here (R308); last closed steps are unchanged. -/
def State.tableReset (s : State) (p : Nat) : State :=
  s.modEmb (fun e => { e with tables := kvMapVals (fun _ (t : Table) => if t.part ≠ p then t else
    { t with steps := [], got := [], ends := [], sent := [], closers := [], drifts := [], held := []
             slots := t.slots.filter (fun z => z.2.switched || (z.2.replica && decide (0 < z.2.copied))), switch := none, dying := none }) e.tables })

/-- A scrub removes the partition's tables (R110). -/
def State.tableScrub (s : State) (p : Nat) : State :=
  ((s.emb.tables.filter (fun t => t.2.part == p)).map (fun t => t.1)).foldl State.dropTable s

end Sys2Proof.Machine
end

