-- ==== Sys2Proof/Machine/Tables.lean ====
section
/-! DEFINITION. Embedding tables (spec/11): the host commands, lookups and updates across nodes, step closing, versions, load and
drift. -/

namespace Sys2Proof.Machine

/-! ### TABLE_CREATE -/

/-- The PARAM of a partition's pipeline stage of a kind, if it has one. -/
def State.stageParam (s : State) (p kind : Nat) : Option Nat := ((s.pcfg p).stages.find? (fun g => g.kind == kind)).map (fun g => g.param)

/-- Whether an fp32 value is finite and not negative. -/
def fp32Ok (w : Nat) : Bool := match dec32 w with | .fin s m _ => !s || m == 0 | _ => false

/-- Whether the node can read a tensor's bytes. -/
def State.readable (s : State) (t : Tensor) : Bool :=
  match tierOf t.addr with
  | some 2 => (s.windowAt t.addr).any (fun w => w.2.2.state == 2)
  | some 3 => let u := unitSpan t.addr t.bytes
              (List.range u.2).all (fun i => !s.unitBad (u.1 + i))
  | some _ => !s.mem.isDamaged t.addr t.bytes
  | none => false

/-- The entries of a shard map. -/
def mapEntries (bs : List Byte) (n : Nat) : List TMapEnt :=
  (List.range n).map (fun i => { node := fieldAt bs (16 * i) 2, part := fieldAt bs (16 * i + 2) 1, ep := fieldAt bs (16 * i + 4) 2, stream := fieldAt bs (16 * i + 6) 2, first := fieldAt bs (16 * i + 8) 8 })

/-- Whether the first rows of a map rise strictly. -/
def firstsRise : List TMapEnt → Bool
  | a :: b :: m => decide (a.first < b.first) && firstsRise (b :: m)
  | _ => true

/-- Whether a map keeps R287. -/
def mapOk (bs : List Byte) (hash : Bool) (rows n : Nat) : Bool :=
  let m := mapEntries bs n
  decide (16 * n ≤ bs.length) && (m.map (fun e => e.node)).eraseDups.length == n &&
  (List.range n).all (fun i => zeroAt bs (16 * i + 3) 1) &&
  (if hash then m.all (fun e => e.first == 0)
   else (m.head?.map (fun e => e.first)) == some 0 && firstsRise m && m.all (fun e => decide (e.first < rows)))

/-- DESC_CHECK (R288): bytes 0 to 3 of SHA-256 over the descriptor and the map. -/
def descCheck (tid ty dim kind opt rows n lr eps : Nat) (map : List Byte) : Nat :=
  fieldAt (sha256 (leBytes 2 tid ++ leBytes 1 ty ++ leBytes 2 dim ++ leBytes 1 kind ++ leBytes 1 opt ++ leBytes 8 rows ++ leBytes 2 n ++ leBytes 4 lr ++
    leBytes 4 eps ++ map)) 0 4

/-- Allocate areas of zeros one after another: their addresses, none where one does not fit; an area of no bytes has address 0. -/
def State.allocAreas (s : State) (p tier : Nat) : List Nat → Option (List Nat × State)
  | [] => some ([], s)
  | n :: ns =>
    if n = 0 then (s.allocAreas p tier ns).map (fun x => (0 :: x.1, x.2))
    else match s.alloc p tier n .table with
      | none => none
      | some (a, t) => ((t.modMem (fun m => m.clear a (roundUp n (allocUnit tier)))).allocAreas p tier ns).map (fun x => (a :: x.1, x.2))

/-- The entries and the local rows of the shard map that a `TABLE_CREATE` of partition `p` names, at the map's bytes: the map, this node's place in
it, its rows and the bytes of the shard. -/
def State.shardOf (s : State) (p : Nat) (c : HostCmd) (bs : List Byte) : List TMapEnt × Option Nat × Nat :=
  let map := mapEntries bs (c.param 24 2)
  let shard := map.findIdx? (fun e => e.node == s.nodeId && e.part == p)
  (map, shard, match shard with | some k => shardRows (c.param 6 1 == 1) (c.param 8 8) map k | none => 0)

/-- OPT of a `TABLE_CREATE`: that of the update stage where the command leaves it open. -/
def State.tableOpt (s : State) (p : Nat) (c : HostCmd) : Nat := if c.param 7 1 = 0xFF then (s.stageParam p 8).getD 0 % 4 else c.param 7 1

/-- The areas that a `TABLE_CREATE` takes, in bytes: the shard unless one is given, its optimiser state, the drift area, the accumulation area
(R289). -/
def State.tableSizes (s : State) (p : Nat) (c : HostCmd) (have_ : Bool) (locals : Nat) : List Nat :=
  let stride := rowStride (c.param 2 1) (c.param 4 2)
  let acc := if s.tableOpt p c = 2 then 4 else 0
  [if c.param 32 8 = 0 then locals * stride else 0, locals * acc, if have_ then c.param 28 4 * (stride + acc) else 0,
   if have_ then 4 * c.param 48 4 * c.param 4 2 * 4 else 0]

/-- The bytes of the shard map tensor that a `TABLE_CREATE` reads. -/
def State.mapBytes (s : State) (c : HostCmd) (t : Tensor) : List Byte := s.readMem t.addr (min t.bytes (16 * c.param 24 2))

/-- The checks of `TABLE_CREATE` up to the quotas (R289, in the order of R124): the fields, the tensors, what they hold. -/
def State.tableFormCheck (s : State) (p : Nat) (c : HostCmd) : Option Nat :=
  let ty := c.param 2 1
  let dim := c.param 4 2
  let opt := c.param 7 1
  let rows := c.param 8 8
  let n := c.param 24 2
  let accum := c.param 48 4
  let h := c.param 32 8
  let ok := decide (ty ≤ 3 ∧ c.param 3 1 ≤ 1 ∧ 8 ≤ dim ∧ dim ≤ 4096 ∧ dim % 8 = 0 ∧ c.param 6 1 ≤ 1 ∧ (opt ≤ 2 ∨ opt = 0xFF) ∧ 1 ≤ rows ∧ rows ≤ 2 ^ 48 ∧ 1 ≤ n ∧ n ≤ 256 ∧
    c.param 28 4 ≤ 1048576 ∧ 1024 ≤ accum ∧ accum ≤ 16777216 ∧ (ty = 3 → opt = 0xFF)) && fp32Ok (c.param 40 4) && fp32Ok (c.param 44 4) &&
    (opt != 0xFF || (s.stageParam p 8).isSome) && (s.table? (c.param 0 2)).isNone
  let given := s.tensorOf p h
  let unfit := fun (t : Tensor) => !s.readable t || decide (t.holder ≠ .none) || t.migrating
  if !ok then some scBadCommand
  else match s.tensorOf p (c.param 16 8) with
  | none => some scBadHandle
  | some (_, mt) =>
    if !s.readable mt || (h != 0 && (match given with | some (_, t) => unfit t | none => true)) then some scBadHandle
    else
      let bs := s.mapBytes c mt
      if !mapOk bs (c.param 6 1 == 1) rows n then some scBadCommand
      else
        let locals := (s.shardOf p c bs).2.2
        if h != 0 && (match given with | some (_, t) => decide (t.bytes < locals * rowStride ty dim) || tierOf t.addr != some (c.param 3 1) | none => true) then some scBadHandle
        else none

/-- The areas that a `TABLE_CREATE` whose map lies in tensor `mt` takes. -/
def State.tableAreas (s : State) (p : Nat) (c : HostCmd) (mt : Tensor) : List Nat :=
  let x := s.shardOf p c (s.mapBytes c mt)
  s.tableSizes p c x.2.1.isSome x.2.2

/-- Whether a further table fits: fewer than 4,096 on the node, and its areas in the partition's quotas (R289). -/
def State.tableFits (s : State) (p : Nat) (c : HostCmd) : Bool :=
  decide (s.emb.tables.length < 4096) &&
  ((s.tensorOf p (c.param 16 8)).bind (fun x => s.allocAreas p (c.param 3 1) (s.tableAreas p c x.2))).isSome

/-- Whether a quota is what the areas of a `TABLE_CREATE` would pass. -/
def State.tableOver (s : State) (p : Nat) (c : HostCmd) : Bool :=
  match s.tensorOf p (c.param 16 8) with
  | none => false
  | some x => (s.allocAreas p (c.param 3 1) (s.tableAreas p c x.2)).isNone && s.overQuota p (fun t => (t.allocAreas p (c.param 3 1) (s.tableAreas p c x.2)).isSome)

/-- The checks of `TABLE_CREATE` (R289, in the order of R124): the form, then the quotas. -/
def State.tableCreateCheck (s : State) (p : Nat) (c : HostCmd) : Option Nat :=
  match s.tableFormCheck p c with
  | some st => some st
  | none => if s.tableFits p c then none else some scQuota

/-- TABLE_CREATE: checks of R289, then the shard, its state area, drift area and accumulation area; RESULT0 is the local rows,
RESULT1 the DESC_CHECK. It waits while a load holds allocations back (R491). -/
def execTableCreate (p q cid : Nat) (s : State) : Host.Outcome State Fault Refusal :=
  match s.readyRec p q cid 0x30 with
  | none => .next s
  | some (rid, r) =>
    let c := r.cmd
    let tid := c.param 0 2
    let ty := c.param 2 1
    let tier := c.param 3 1
    let dim := c.param 4 2
    let kind := c.param 6 1
    let rows := c.param 8 8
    let n := c.param 24 2
    let driftRows := c.param 28 4
    let lr := c.param 40 4
    let eps := c.param 44 4
    let accum := c.param 48 4
    if s.allocHeld then .next s
    else if let some st := (s.named r).tableCreateCheck p c then .next (s.refuse p rid st ((s.named r).tableOver p c))
    else match s.claimedTensor r (c.param 16 8) with
    | none => .next (s.fail p rid scBadHandle)
    | some (_, mt) =>
      let bs := s.mapBytes c mt
      let s := s.access p mt.addr bs.length
      let (map, shard, locals) := s.shardOf p c bs
      let opt := s.tableOpt p c
      let given := s.claimedTensor r (c.param 32 8)
      let sizes := s.tableSizes p c shard.isSome locals
      match s.allocAreas p tier sizes with
      | none => .next (s.fail p rid scQuota)
      | some (areas, s) =>
        let at_ := fun (i : Nat) => if sizes.getD i 0 = 0 then none else areas[i]?
        let s := match given with
          | some (i, _) => s.modMem (fun m => { m with tensors := kvUpd i (fun (t : Tensor) => { t with holder := .table }) m.tensors })
          | none => s
        let check := descCheck tid ty dim kind opt rows n lr eps bs
        let t : Table := { part := p, rowType := ty, tier := tier, dim := dim, hash := kind == 1, opt := opt, rows := rows, map := map, driftRows := driftRows, lr := lr, eps := eps, accumRows := accum, check := check, shard := shard, addr := (given.map (fun x => x.2.addr)).getD ((at_ 0).getD 0), tensor := given.map (fun x => x.1), state := at_ 1, drift := at_ 2, areas := ([0, 1, 2, 3].filterMap at_), version := 1, old := none, steps := [], got := [], ends := [], sent := [], endedTo := [], ended := 0, issued := 0, lastClosed := 0, closers := [], drifts := [], slots := [], held := [], recalls := [], switch := none, dying := none, served := [], loads := [] }
        .next ((s.modEmb (fun e => { e with tables := kvPut tid t e.tables })).done p rid 0 locals check)

/-! ### What waits on a table -/

/-- Whether an update of a table that was fetched before order `o` is not yet complete (R299). -/
def State.updatesBefore (s : State) (p tid o : Nat) : Bool :=
  s.recs.any (fun r => r.2.part == p && r.2.fab.isNone && r.2.cmd.opcode == 0x32 && r.2.cmd.param 0 2 == tid && decide (r.2.order < o)) ||
  s.queues.any (fun x => x.1 / 64 == p && x.2.staged.any (fun g => g.cmd.opcode == 0x32 && g.cmd.param 0 2 == tid && decide (g.order < o)))

/-- Whether a lookup or update of a table admitted before request `rid` is not yet complete (R303). -/
def State.workBefore (s : State) (p tid rid : Nat) : Bool :=
  s.recs.any (fun r => decide (r.1 < rid) && r.2.part == p && r.2.fab.isNone && (r.2.cmd.opcode == 0x31 || r.2.cmd.opcode == 0x32) && r.2.cmd.param 0 2 == tid)

/-- Begin the close commands whose earlier updates are complete: STEP_ENDs are sent up to their step (R299). -/
def State.beginClosers (s : State) (tid : Nat) : State :=
  match s.table? tid with
  | none => s
  | some t =>
    let due := fun (c : TCloser) => !c.begun && !(match kvGet? c.rid s.recs with | some r => s.updatesBefore t.part tid r.order | none => true)
    if t.closers.any due then
      let top := (t.closers.filter due).foldl (fun m c => max m c.step) t.ended
      (s.modTable tid (fun t => { t with closers := t.closers.map (fun c => if due c then { c with begun := true } else c), ended := top })).endSteps tid
    else s

/-- Complete a switch or carry a destroy on, where what they wait for has come about (R302, R303). `switch` with `dying` marks a
destroy that has recalled its rows. -/
def State.settleTable (s : State) (tid : Nat) : State :=
  let s := s.beginClosers tid
  match s.table? tid with
  | none => s
  | some t => match t.dying with
    | some rid =>
      if s.workBefore t.part tid rid then s
      else
        let s := if t.switch.isSome then s else
          (s.modTable tid (fun t => { t with steps := [], got := [], ends := [], sent := [], held := [], switch := some rid })).recallRows tid
        match s.table? tid with
        | some t => if t.recalls.isEmpty then ((s.dropTable tid).done t.part rid 0 0 0) else s
        | none => s
    | none => match t.switch with
      | some rid => if t.recalls.isEmpty then (s.modTable tid (fun t => { t with switch := none })).done t.part rid 0 t.version 0 else s
      | none => s

/-- The table a command of partition `p` names. -/
def State.tableOf (s : State) (p tid : Nat) : Option Table := (s.table? tid).filter (fun t => t.part == p)

/-- Whether a table refuses a lookup or update of request `rid` because it is being destroyed. -/
def Table.closedTo (t : Table) (rid : Nat) : Bool := match t.dying with | some d => decide (d < rid) | none => false

/-! ### Lookups (R290 to R294) -/

/-- Whether an offsets array keeps its rule. -/
def offsetsOk (items : Nat) (os : List Nat) : Bool :=
  os.head? == some 0 && os.getLast? == some items && (os.zip (os.drop 1)).all (fun x => decide (x.1 ≤ x.2))

/-- Whether an index is valid (R291). -/
def validIndex (rows x : Nat) : Bool := decide (x < rows) && x != 0xFFFFFFFFFFFFFFFF

/-- The output rows of a lookup (R292), as fp32 values, by bag or by index; `n` numbers its sums. -/
def lookupRows (l : Lookup) (t : Table) (n : Nat) : List (List Nat) :=
  let row := fun (x : Nat) => if validIndex t.rows x then kvGet? x l.vals else none
  let zero := List.replicate t.dim 0
  if l.pool = 0 then l.idx.map (fun x => (row x).getD zero)
  else ((l.bags.zip (l.bags.drop 1)).zipIdx).map (fun b =>
    let ms := ((l.idx.drop b.1.1).take (b.1.2 - b.1.1)).filterMap row
    if ms.isEmpty then zero
    else if l.pool = 3 then
      (ms.drop 1).foldl (fun a r => List.zipWith (fun x y => enc32 (Num.maximum (dec32 x) (dec32 y))) a r) (ms.headD zero)
    else
      let sum := sumRows (n + b.2) t.dim ms
      if l.pool = 1 then sum else sum.map (fun x => enc32 (Num.div fmt32 (dec32 x) (Num.ofInt (ms.length : Int)))))

/-- Complete a lookup once every row has arrived (R294). -/
def State.finishLookup (s : State) (rid : Nat) : State :=
  match kvGet? rid s.emb.lookups with
  | none => s
  | some l => if !l.want.isEmpty then s else match s.table? l.table with
    | none => s
    | some t =>
      let rows := lookupRows l t s.free
      let s := s.putFree (s.free + rows.length)
      let bytes := rows.flatMap (fun r => r.flatMap (fun v => if l.outType = 1 then leBytes 2 (toBf16 v) else leBytes 4 v))
      let invalid := (l.idx.filter (fun x => !validIndex t.rows x)).length
      let s := s.bumpTable l.table cEmbTLookupRows rows.length
      (s.complete t.part rid scDone (if 0 < invalid then flInvalid else 0) rows.length (l.version + l.vals.length * 2 ^ 32) (invalid + l.remote * 2 ^ 32) bytes).settleTable l.table

/-- Send one lookup sub-request (R288, R292). -/
def State.sendLookup (s : State) (rid tid : Nat) (t : Table) (node : Nat) (rows : List Nat) : State :=
  let e := t.entryOf node
  let seq := s.fab.seqNo
  let k : Packet := { vc := 3, ptype := 0, opcode := opLookup, dstNode := node, dstPart := e.part, dstEp := e.ep, srcNode := s.nodeId, srcPart := t.part, stream := e.stream, length := 16 + 8 * rows.length, resetGen := s.resetGen t.part, args := [tid, t.check, 0] ++ rows }
  let s := s.sendRequest k (some rid) true (rows.length * t.stride)
  s.modEmb (fun m => { m with lookups := kvUpd rid (fun l => { l with want := kvPut seq rows l.want, remote := l.remote + rows.length }) m.lookups })

/-- Where the shard of a version lies that a table holds. -/
def Table.baseAt (t : Table) (version : Nat) : Nat := if version = t.version then t.addr else match t.old with | some (_, a, _) => a | none => t.addr

/-- The bytes of a row at a version of the shard, charged to the tier's regulator by the caller. -/
def State.rowAt (s : State) (t : Table) (version x : Nat) : List Byte := s.readMem (t.rowPlace (t.baseAt version) x).1 t.stride

/-- The checks of `TABLE_LOOKUP` that need no host memory (R290), for the table that it names. -/
def State.lookupCheck (s : State) (p : Nat) (c : HostCmd) (t : Option Table) : Option Nat :=
  match s.stageParam p 7 with
  | none => some scNotBridled
  | some par =>
    let pool := if c.param 2 1 = 0xFF then par % 4 else c.param 2 1
    let items := c.param 4 4
    let bags := c.param 8 4
    if 3 < pool ∨ 1 < c.param 3 1 ∨ items = 0 ∨ 65536 < items ∨ c.resultAddr = 0 ∨ (pool = 0 ∧ (bags ≠ 0 ∨ c.param 24 8 ≠ 0)) ∨ (pool ≠ 0 ∧ (bags = 0 ∨ 65536 < bags)) then some scBadCommand
    else if t.isNone ∨ s.addrOk p (c.param 16 8) (8 * items) = false ∨ (pool ≠ 0 ∧ s.addrOk p (c.param 24 8) (4 * (bags + 1)) = false) ∨ s.resultOk p c.resultAddr (s.lookupBytes c) = false then
      some scBadHandle
    else none

/-- The table that a lookup or update of request `rid` names, unless a destroy admitted before it refuses it (R303). -/
def State.openTable (s : State) (p tid rid : Nat) : Option Table := (s.tableOf p tid).filter (fun t => !t.closedTo rid)

/-- TABLE_LOOKUP: drops invalid indices, fetches each unique local row once at the pinned version and asks the other owners for
theirs (R291 to R293). `indices` and `offsets` are what host memory holds at the two addresses. -/
def execTableLookup (p q cid : Nat) (indices offsets : List Byte) (s : State) : Host.Outcome State Fault Refusal :=
  match s.readyRec p q cid 0x31 with
  | none => .next s
  | some (rid, r) =>
    let c := r.cmd
    let tid := c.param 0 2
    if let some st := (s.named r).lookupCheck p c (s.openTable p tid rid) then .next (s.fail p rid st)
    else
      let pool := if c.param 2 1 = 0xFF then (s.stageParam p 7).getD 0 % 4 else c.param 2 1
      let out := c.param 3 1
      let items := c.param 4 4
      let bags := c.param 8 4
      if !s.ctxIn rid (s.stagePool p 7) then .next (s.offerCtx rid)
      else
        let (ib, s) := s.readInput p r.flow (c.param 16 8) (8 * items) indices
        let (ob, s) := if pool = 0 then ([], s) else s.readInput p r.flow (c.param 24 8) (4 * (bags + 1)) offsets
        let os := if pool = 0 then [] else (List.range (bags + 1)).map (fun i => fieldAt ob (4 * i) 4)
        if pool ≠ 0 ∧ offsetsOk items os = false then .next (s.fail p rid scBadCommand) else
        let s := if (kvGet? rid s.emb.lookups).isSome then s else s.pinLookup p rid c
        match s.tableOf p tid, kvGet? rid s.emb.lookups with
        | some t, some l =>
          if l.version ≠ t.version ∧ (t.old.map (fun o => o.1)) ≠ some l.version then .next (s.fail p rid scEpochRetired)
          else if s.clustersGone p then .next (s.fail p rid scFence)
          else
            let idx := (List.range items).map (fun i => fieldAt ib (8 * i) 8)
            let uniq := (idx.filter (validIndex t.rows)).foldl (fun (m : KV Unit) x => kvPut x () m) []
            let placed := uniq.map (fun x => (x.1, s.placeRow tid t x.1 true))
            let here := (placed.filter (fun x => x.2.isNone)).map (fun x => x.1)
            let away := placed.foldl (fun (m : KV (List Nat)) x => match x.2 with | some n => kvPut n (kvGetD [] n m ++ [x.1]) m | none => m) []
            let s := s.bumpTable tid cEmbTInvalid (idx.filter (fun x => !validIndex t.rows x)).length
            if away.any (fun x => !s.reachable x.1) then .next ((s.fail p rid scUnreachable).settleTable tid)
            else match here.find? (fun x => s.mem.isDamaged (t.rowPlace (t.baseAt l.version) x).1 t.stride) with
            | some x => .next (((s.uncorrectableAt p (t.rowPlace (t.baseAt l.version) x).1).fail p rid scFence).settleTable tid)
            | none =>
              let vals := here.map (fun x => (x, widenRow t.rowType t.dim (s.rowAt t l.version x)))
              let s := here.foldl (fun (s : State) x => s.access p (t.rowPlace (t.baseAt l.version) x).1 t.stride) (s.bumpTable tid cEmbTUniqueRows uniq.length)
              let s := ((here.foldl (fun (s : State) x => s.noteFetch tid x) s).noteServed tid here.length).phaseRan p
              let s := uniq.foldl (fun (s : State) x => s.dirTouch tid x.1) s
              let s := s.modEmb (fun m => { m with lookups := kvPut rid { l with idx := idx, bags := os, pool := pool, outType := out, vals := vals } m.lookups })
              let s := s.modRec rid (fun r => { r with phase := .running })
              .next ((away.foldl (fun (s : State) x => s.sendLookup rid tid t x.1 x.2) s).finishLookup rid)
        | _, _ => .next (s.fail p rid scBadHandle)

/-- Where an owner passes a request for a row on to: none where it serves the row itself; the node the row drifted to; the home
owner where this node was named by a stale HINT (R306, R308). -/
def State.ownerNext (s : State) (tid : Nat) (t : Table) (x : Nat) (lookup : Bool) : Option Nat :=
  if t.ownsDrifted x || (lookup && t.hasCopy x) then none else
  let k := (t.place x).1
  if t.shard = some k then (s.dirOf tid x 1).head?.map (fun d => d.node) else (t.map[k]?).map (fun e => e.node)

/-- Pass a request of another node on as a new packet that keeps its requester (R306, R357); `args` are its operands. Where no route leads on, its
requester is told so (R308). -/
def State.forward (s : State) (tid : Nat) (t : Table) (k : Packet) (node : Nat) (args : List Nat) : State :=
  if node ≠ s.nodeId ∧ s.reachable node = false then s.answer (reqOrigin k) k.vc 2 k.opcode t.part k.dstEp [scUnreachable] [] else
  let e := t.entryOf node
  (s.handPacket { k with dstNode := node, dstPart := e.part, dstEp := e.ep, stream := e.stream, hops := 0, dist := s.distTo node, args := args }).bumpTable tid cEmbTForwarded 1

/-- Whether a sub-request for a table is refused (R95, R288, R303). -/
def State.refusesTable (s : State) (k : Packet) : Bool :=
  !s.acceptsFabric k.dstPart k.dstEp k.stream || (match s.tableOf k.dstPart (k.args.getD 0 0) with
    | none => true
    | some t => t.dying.isSome || t.check != k.args.getD 1 0 || t.shard.isNone)

/-- Serve a lookup sub-request: rows held here are read now, rows drifted away are passed on, rows still drifting here wait for
their SWITCH (R293, R306, R307). For each row the answer names its owner and, from the owner, its replicas. It takes no context and no admission record
(DESIGN CHOICE, log entry 46: R99 does not say). -/
def State.serveLookup (s : State) (k : Packet) : State :=
  let tid := k.args.getD 0 0
  if s.refusesTable k then s.answer (reqOrigin k) 3 2 opLookup k.dstPart k.dstEp [scRemoteError] []
  else match s.table? tid with
  | none => s
  | some t =>
    let rows := k.args.drop 3
    let waits := rows.filter t.drifting
    let next := (rows.filter (fun x => !t.drifting x)).map (fun x => (x, s.ownerNext tid t x true))
    let here := (next.filter (fun x => x.2.isNone)).map (fun x => x.1)
    let away := next.foldl (fun (m : KV (List Nat)) x => match x.2 with | some n => kvPut n (kvGetD [] n m ++ [x.1]) m | none => m) []
    let s := if waits.isEmpty then s else s.modTable tid (fun t => { t with held := t.held ++ [{ k with args := k.args.take 3 ++ waits }] })
    let s := away.foldl (fun (s : State) x => s.forward tid t k x.1 ([tid, t.check, s.nodeId + 1] ++ x.2)) s
    if here.isEmpty then s
    else if here.any (fun x => s.mem.isDamaged (t.rowPlace t.addr x).1 t.stride) then s.answer (reqOrigin k) 3 2 opLookup t.part k.dstEp [scRemoteError] []
    else
      let home := fun (x : Nat) => ((t.map[(t.place x).1]?).map (fun e => e.node)).getD 0
      let info := here.flatMap (fun x =>
        let copy := t.hasCopy x
        let reps := (s.dirOf tid x 3).map (fun d => d.node)
        [x, if copy then home x else s.nodeId, (!copy).toNat, reps.length] ++ reps)
      let data := here.flatMap (fun x => s.rowAt t t.version x)
      let s := ((here.foldl (fun (s : State) x => s.access t.part (t.rowPlace t.addr x).1 t.stride) s).noteServed tid here.length).phaseRan t.part
      let s := here.foldl (fun (s : State) x => s.noteFetch tid x) s
      s.answer (reqOrigin k) 3 1 opLookup t.part k.dstEp (scDone :: info) data

/-- REMOTE_LOOKUP_REQUEST: a lookup sub-request arrives at an owner (R292, R293). -/
def execRemoteLookupRequest (pkt : Packet) (s : State) : Host.Outcome State Fault Refusal :=
  let s := s.taken pkt
  .next (s.serveLookup pkt)

/-- The rows an answer names: row, owner, and the replicas where the owner lists them. -/
def answerRows : Nat → List Nat → List (Nat × Nat × Option (List Nat))
  | n + 1, x :: o :: l :: k :: rest => (x, o, if l = 1 then some (rest.take k) else none) :: answerRows n (rest.drop k)
  | _, _ => []

/-- Write what an answer teaches of a row's owner and replicas (R306, R307). -/
def State.learn (s : State) (tid : Nat) (t : Table) (x owner : Nat) (reps : Option (List Nat)) : State :=
  let home := ((t.map[(t.place x).1]?).map (fun e => e.node)).getD 0
  let s := if owner = home ∨ owner = s.nodeId then s.dirDel (fun d => d.kind == 0 && d.table == tid && d.row == x && !d.rep)
    else s.dirPut { row := x, table := tid, kind := 0, node := owner, rep := false }
  match reps with
  | none => s
  | some ns =>
    let s := s.dirDel (fun d => d.kind == 0 && d.table == tid && d.row == x && d.rep && !ns.contains d.node)
    (ns.filter (fun n => n != s.nodeId)).foldl (fun (s : State) n => s.dirPut { row := x, table := tid, kind := 0, node := n, rep := true }) s

/-- REMOTE_LOOKUP_RESPONSE: rows arrive and are widened; a refusal ends the lookup with `REMOTE_ERROR` (R292, R294). An answer to a
request that has ended is discarded (R371). -/
def execRemoteLookupResponse (pkt : Packet) (s : State) : Host.Outcome State Fault Refusal :=
  let s := s.taken pkt
  if s.isLate pkt then .next (s.discardLate pkt) else
  match kvGet? pkt.seq s.fab.out with
  | none => .next s
  | some o =>
    if o.kind ≠ opLookup then .next s else
    match o.rid.bind (fun rid => (kvGet? rid s.emb.lookups).map (fun l => (rid, l))) with
    | none => .next (s.endRequest pkt.seq)
    | some (rid, l) => match s.table? l.table with
      | none => .next (s.endRequest pkt.seq)
      | some t =>
        if pkt.ptype = 2 ∨ pkt.args.headD scRemoteError ≠ scDone then .next (((s.endRequest pkt.seq).fail t.part rid (refuseStatus pkt)).settleTable l.table)
        else
          let info := answerRows pkt.args.length (pkt.args.drop 1)
          let got := info.zipIdx.map (fun x => (x.1.1, widenRow t.rowType t.dim ((pkt.data.drop (x.2 * t.stride)).take t.stride)))
          let left := (kvGetD [] pkt.seq l.want).filter (fun x => !info.any (fun y => y.1 == x))
          let vals := got.foldl (fun (m : KV (List Nat)) x => kvPut x.1 x.2 m) l.vals
          let want := if left.isEmpty then kvDel pkt.seq l.want else kvPut pkt.seq left l.want
          let s := if left.isEmpty then s.endRequest pkt.seq else s
          let s := s.modEmb (fun m => { m with lookups := kvPut rid { l with vals := vals, want := want } m.lookups })
          let s := info.foldl (fun (s : State) x => s.learn l.table t x.1 x.2.1 x.2.2) s
          .next (s.finishLookup rid)

/-! ### Updates (R296 to R298) -/

/-- Complete an update once every contribution is accumulated or refused (R298). -/
def State.finishUpdate (s : State) (rid : Nat) : State :=
  match kvGet? rid s.emb.updates with
  | none => s
  | some u => if !u.waits.isEmpty then s else
    let status := if u.refused = 0 then scDone else if u.refused = u.unique then scQuota else scPartial
    let p := ((kvGet? rid s.recs).map (fun r => r.part)).getD 0
    (s.complete p rid status ((if 0 < u.invalid then flInvalid else 0) + (if status = scPartial then flPartial else 0)) u.okIdx (u.refused + u.unique * 2 ^ 32) u.invalid []).settleTable u.table

/-- Note the outcome of one contribution of an update: the row, and whether it was accumulated. -/
def State.contribDone (s : State) (rid x : Nat) (ok : Bool) : State :=
  s.modEmb (fun e => { e with updates := kvUpd rid (fun u => if ok then { u with okIdx := u.okIdx + kvGetD 0 x u.counts } else { u with refused := u.refused + 1 }) e.updates })

/-- Send a contribution to the owner of a row, or accumulate it here (R297). -/
def State.contribute (s : State) (rid tid step x : Nat) (g : List Nat) : State :=
  match s.table? tid with
  | none => s
  | some t => match s.placeRow tid t x false with
    | none =>
      let (s, st) := s.accumulate tid t step x g none
      (if st = 0 then s.bumpTable tid cEmbTContribs 1 else s).contribDone rid x (st == 0)
    | some n =>
      let e := t.entryOf n
      let seq := s.fab.seqNo
      let k : Packet := { vc := 4, ptype := 0, opcode := opContrib, dstNode := n, dstPart := e.part, dstEp := e.ep, srcNode := s.nodeId, srcPart := t.part, stream := e.stream, length := 32 + 4 * g.length, resetGen := s.resetGen t.part, args := [tid, t.check, step, x, 0], data := fp32Bytes g }
      let s := (s.sendRequest k (some rid) true).modTable tid (fun t => { t with sent := addCount t.sent step n 1 })
      s.modEmb (fun m => { m with updates := kvUpd rid (fun u => { u with waits := kvPut seq [x] u.waits }) m.updates })

/-- The checks of `TABLE_UPDATE` (R296), for the table that it names. -/
def State.updateCheck (s : State) (p : Nat) (c : HostCmd) (t : Option Table) : Option Nat :=
  let gt := c.param 2 1
  let items := c.param 4 4
  if (s.stageParam p 8).isNone then some scNotBridled
  else if 1 < gt ∨ items = 0 ∨ 65536 < items ∨ c.param 8 8 = 0 then some scBadCommand
  else match t with
  | none => some scBadHandle
  | some t =>
    if s.addrOk p (c.param 16 8) (8 * items) = false ∨ s.addrOk p (c.param 24 8) (items * t.dim * (if gt = 1 then 2 else 4)) = false then some scBadHandle
    else if t.rowType = 3 ∨ t.shard.isNone = true then some scBadCommand
    else none

/-- TABLE_UPDATE: drops invalid indices, sums the gradient rows of equal indices and sends each touched row's sum to its owner
(R297). `indices` and `grads` are what host memory holds at the two addresses. -/
def execTableUpdate (p q cid : Nat) (indices grads : List Byte) (s : State) : Host.Outcome State Fault Refusal :=
  match s.readyRec p q cid 0x32 with
  | none => .next s
  | some (rid, r) =>
    let c := r.cmd
    let tid := c.param 0 2
    let gt := c.param 2 1
    let items := c.param 4 4
    let step := c.param 8 8
    if let some st := (s.named r).updateCheck p c (s.openTable p tid rid) then .next (s.fail p rid st)
    else match s.openTable p tid rid with
    | none => .next (s.fail p rid scBadHandle)
    | some t =>
      if s.clustersGone p then .next (s.fail p rid scFence)
      else if !s.ctxIn rid (s.stagePool p 8) then .next (s.offerCtx rid)
      else
        let es := if gt = 1 then 2 else 4
        let (ib, s) := s.readInput p r.flow (c.param 16 8) (8 * items) indices
        let (gb, s) := s.readInput p r.flow (c.param 24 8) (items * t.dim * es) grads
        let idx := (List.range items).map (fun i => fieldAt ib (8 * i) 8)
        let grad := fun (i : Nat) => (List.range t.dim).map (fun j =>
          let w := fieldAt gb ((i * t.dim + j) * es) es
          if gt = 1 then enc32 (decBf16 w) else w)
        let byRow := idx.zipIdx.foldl (fun (m : KV (List Nat)) x => if validIndex t.rows x.1 then kvPut x.1 (kvGetD [] x.1 m ++ [x.2]) m else m) []
        let invalid := (idx.filter (fun x => !validIndex t.rows x)).length
        let s := s.bumpTable tid cEmbTInvalid invalid
        let sums := byRow.zipIdx.map (fun x => (x.1.1, sumRows (s.free + x.2) t.dim (x.1.2.map grad)))
        let s := (s.putFree (s.free + byRow.length)).phaseRan p
        let u : TUpdate := { table := tid, step := step, counts := byRow.map (fun x => (x.1, x.2.length)), waits := [], okIdx := 0, refused := 0, unique := byRow.length, invalid := invalid }
        if step ≤ t.issued then
          let s := s.bumpTable tid cEmbTLate byRow.length
          let s := s.modEmb (fun m => { m with updates := kvPut rid { u with refused := byRow.length } m.updates })
          .next (s.finishUpdate rid)
        else if sums.any (fun x => match s.placeRow tid t x.1 false with | some n => !s.reachable n | none => false) then .next ((s.fail p rid scUnreachable).settleTable tid)
        else
          let s := (s.modEmb (fun m => { m with updates := kvPut rid u m.updates })).modRec rid (fun r => { r with phase := .running })
          let s := sums.foldl (fun (s : State) x => (s.contribute rid tid step x.1 x.2).dirTouch tid x.1) s
          .next (s.finishUpdate rid)

/-- Take a contribution from another node (R297, R306): refused, held while its row still drifts here, passed on where the row has
drifted away, or accumulated; the answer says which, and who owns the row. -/
def State.takeContrib (s : State) (k : Packet) : State :=
  let tid := k.args.getD 0 0
  if s.refusesTable k then s.answer (reqOrigin k) 4 2 opContrib k.dstPart k.dstEp [scRemoteError] []
  else match s.table? tid with
  | none => s
  | some t =>
    let step := k.args.getD 2 0
    let x := k.args.getD 3 0
    let sender := if k.args.getD 4 0 = 0 then k.srcNode else k.args.getD 4 0 - 1
    let say := fun (s : State) (st : Nat) => s.answer (reqOrigin k) 4 1 opContrib t.part k.dstEp [st, s.nodeId] []
    if t.drifting x then s.modTable tid (fun t => { t with held := t.held ++ [k] })
    else match s.ownerNext tid t x false with
    | none =>
      let (s, st) := s.accumulate tid t step x (fp32List t.dim k.data) (some sender)
      let s := if st = 0 then s.bumpTable tid cEmbTContribs 1 else s
      (say s (if st = 0 then 0 else 1)).endSteps tid
    | some n =>
      if step ≤ t.lastClosed then say (s.bumpTable tid cEmbTLate 1) 1
      else
        let s := s.modTable tid (fun t => { t with got := addCount t.got step sender 1, sent := addCount t.sent step n 1 })
        (s.forward tid t k n [tid, t.check, step, x, s.nodeId + 1]).endSteps tid

/-- CONTRIBUTION_ARRIVAL (R297). -/
def execContributionArrival (pkt : Packet) (s : State) : Host.Outcome State Fault Refusal :=
  let s := s.taken pkt
  .next (s.takeContrib pkt)

/-- CONTRIBUTION_RESULT_ARRIVAL: the owner's report on a contribution (R298); a refusal of the sub-request itself ends the update
with `REMOTE_ERROR` (R288). -/
def execContributionResultArrival (pkt : Packet) (s : State) : Host.Outcome State Fault Refusal :=
  let s := s.taken pkt
  if s.isLate pkt then .next (s.discardLate pkt) else
  match kvGet? pkt.seq s.fab.out with
  | none => .next s
  | some o =>
    if o.kind ≠ opContrib then .next s else
    let s := s.endRequest pkt.seq
    match o.rid.bind (fun rid => (kvGet? rid s.emb.updates).map (fun u => (rid, u))) with
    | none => .next s
    | some (rid, u) =>
      let x := (kvGetD [] pkt.seq u.waits).headD 0
      if pkt.ptype = 2 then .next ((s.fail o.part rid (refuseStatus pkt)).settleTable u.table)
      else
        let s := s.modEmb (fun m => { m with updates := kvUpd rid (fun u => { u with waits := kvDel pkt.seq u.waits }) m.updates })
        let s := match s.table? u.table with | some t => s.learn u.table t x (pkt.args.getD 1 0) none | none => s
        .next ((s.contribDone rid x (pkt.args.headD 1 == 0)).finishUpdate rid)

/-! ### Step closing (R299 to R301) -/

/-- The checks of `TABLE_STEP_CLOSE` (R299). -/
def State.stepCloseCheck (s : State) (p : Nat) (c : HostCmd) : Option Nat :=
  match s.tableOf p (c.param 0 2) with
  | none => some scBadHandle
  | some t => if c.param 8 8 ≤ t.lastClosed then some scBadCommand else none

/-- The checks of `TABLE_SWITCH` (R302): that of an open step comes last, since it needs the table. -/
def State.switchCheck (s : State) (p : Nat) (c : HostCmd) : Option Nat :=
  match s.tableOf p (c.param 0 2), s.tensorOf p (c.param 8 8) with
  | some t, some (_, n) =>
    if t.dying.isSome ∨ tierOf n.addr ≠ some t.tier ∨ n.bytes < t.localRows * t.stride ∨ n.holder ≠ .none ∨ n.migrating = true then some scBadHandle
    else if !t.steps.isEmpty then some scBadCommand
    else none
  | _, _ => some scBadHandle

/-- The check of `TABLE_DESTROY` (R303). -/
def State.destroyCheck (s : State) (p : Nat) (c : HostCmd) : Option Nat :=
  match s.tableOf p (c.param 0 2) with
  | none => some scBadHandle
  | some t => if t.dying.isSome then some scBadHandle else none

/-- TABLE_STEP_CLOSE: once the earlier updates of the table are complete, STEP_ENDs are sent; the command completes when its step is
closed. -/
def execTableStepClose (p q cid : Nat) (s : State) : Host.Outcome State Fault Refusal :=
  match s.readyRec p q cid 0x33 with
  | some (rid, r) =>
    let tid := r.cmd.param 0 2
    let step := r.cmd.param 8 8
    if let some st := s.stepCloseCheck p r.cmd then .next (s.fail p rid st)
    else
      let c : TCloser := { rid := rid, step := step, since := r.fetched, begun := false, applied := 0, missing := [], late := false }
      let s := s.modTable tid (fun t => { t with closers := t.closers ++ [c], issued := max t.issued step })
      .next ((s.modRec rid (fun r => { r with phase := .running })).settleTable tid)
  | none => match s.runningRec p q cid 0x33 with
    | some (_, r) => .next (s.settleTable (r.cmd.param 0 2))
    | none => .next s

/-- STEP_END_ARRIVAL: another node of the map counts the contributions it sent here for a step (R299). -/
def execStepEndArrival (pkt : Packet) (s : State) : Host.Outcome State Fault Refusal :=
  let s := s.taken pkt
  let tid := pkt.args.getD 0 0
  let step := pkt.args.getD 1 0
  match s.tableOf pkt.dstPart tid with
  | none => .next s
  | some t =>
    if step ≤ t.lastClosed ∨ (s.otherNodes t).contains pkt.srcNode = false then .next s
    else .next ((s.modTable tid (fun t => { t with ends := kvPut step (kvPut pkt.srcNode (pkt.args.getD 2 0) (kvGetD [] step t.ends)) t.ends })).endSteps tid)

/-- EMB_STEP_CLOSE: the conditions of R299 hold for the next step of a close command under way, and it closes (R300). With no other
node in the map, every step up to the given one closes. -/
def execEmbStepClose (table step : Nat) (s : State) : Host.Outcome State Fault Refusal :=
  let s := s.settleTable table
  match s.table? table with
  | none => .next s
  | some t =>
    if t.lastClosed < step ∧ t.closers.any (fun c => c.begun && decide (step ≤ c.step)) = true ∧ s.stepReady t step = true ∧
        (step = t.lastClosed + 1 ∨ (s.otherNodes t).isEmpty = true) then
      .next ((((s.closeUpTo table step).finishCloses table).endSteps table).settleTable table)
    else .next s

/-- EMB_STEP_TIMEOUT: STEP_TIMEOUT_MS have passed since a close command was fetched, so its steps close with what has arrived (R301);
each step closed so is counted. -/
def execEmbStepTimeout (table step : Nat) (s : State) : Host.Outcome State Fault Refusal :=
  match s.table? table with
  | none => .next s
  | some t => match t.closers.find? (fun c => c.step == step) with
    | none => .next s
    | some c =>
      if s.now < c.since + s.fld rEmbCfg fEmbCfg_STEP_TIMEOUT_MS * 1000000 ∨ step ≤ t.lastClosed then .next s
      else
        let total := step - t.lastClosed
        let keys := (t.ends.map (fun x => x.1)).filter (fun k => decide (t.lastClosed < k ∧ k ≤ step))
        let others := s.otherNodes t
        let missing := others.filter (fun n => decide ((keys.filter (fun k => t.inboundFrom k n)).length < total))
        let unmet := if others.isEmpty then (if step ≤ t.ended then 0 else total) else total - (keys.filter (fun k => s.stepReady t k)).length
        if unmet = 0 then .next s else
        let s := s.bump cEmbStepTimeouts unmet
        let late := fun (d : TCloser) => if d.step ≤ step then { d with late := true, missing := missing } else d
        let s := s.modTable table (fun t => { t with closers := t.closers.map late })
        .next (((s.closeUpTo table step).finishCloses table).settleTable table)

/-! ### Versions and ends (R302, R303) -/

/-- TABLE_SWITCH: NEW_ROWS becomes the shard, the version rises by 1, accumulators go to zero and drifted rows are recalled; it
completes when the recalls are acknowledged. While an older version is still held it waits. -/
def execTableSwitch (p q cid : Nat) (s : State) : Host.Outcome State Fault Refusal :=
  match s.readyRec p q cid 0x34 with
  | some (rid, r) =>
    let tid := r.cmd.param 0 2
    (match s.tableOf p tid, s.claimedTensor r (r.cmd.param 8 8) with
    | some t, some (i, n) =>
      if let some st := (s.named r).switchCheck p r.cmd then .next (s.fail p rid st)
      else if t.old.isSome ∨ t.switch.isSome then .next s
      else
        let areas := t.areas.filter (fun a => a != t.addr)
        let s := s.modTable tid (fun t => { t with addr := n.addr, tensor := some i, areas := areas, version := (t.version + 1) % 2 ^ 32, old := some (t.version, t.addr, t.tensor), switch := some rid })
        let s := s.modMem (fun m => { m with tensors := kvUpd i (fun (x : Tensor) => { x with holder := .table }) m.tensors })
        let s := match t.state with | some a => s.modMem (fun m => m.clear a (4 * t.localRows)) | none => s
        let s := (s.modRec rid (fun r => { r with phase := .running })).retireVersions
        .next ((s.recallRows tid).settleTable tid)
    | _, _ => .next (s.fail p rid scBadHandle))
  | none => match s.runningRec p q cid 0x34 with
    | some (_, r) => .next (s.settleTable (r.cmd.param 0 2))
    | none => .next s

/-- TABLE_DESTROY: new lookups and updates of the table are refused; when those admitted have ended, open steps are discarded, drifted
rows recalled, and the table's areas freed (R303). -/
def execTableDestroy (p q cid : Nat) (s : State) : Host.Outcome State Fault Refusal :=
  match s.readyRec p q cid 0x35 with
  | some (rid, r) =>
    let tid := r.cmd.param 0 2
    (match s.tableOf p tid with
    | none => .next (s.fail p rid scBadHandle)
    | some t =>
      if let some st := s.destroyCheck p r.cmd then .next (s.fail p rid st)
      else if t.switch.isSome then .next s
      else .next (((s.modTable tid (fun t => { t with dying := some rid })).modRec rid (fun r => { r with phase := .running })).settleTable tid))
  | none => match s.runningRec p q cid 0x35 with
    | some (_, r) => .next (s.settleTable (r.cmd.param 0 2))
    | none => .next s

/-! ### Load (R304) -/

/-- EMB_LOAD_REPORT: every 10 ms the load of a table goes to the other nodes of its map on VC0. -/
def execEmbLoadReport (table : Nat) (s : State) : Host.Outcome State Fault Refusal :=
  match s.table? table with
  | none => .next s
  | some t =>
    let load := t.loadAt s.now
    let s := s.modTable table (fun t => { t with served := recentRows s.now t.served })
    .next (((s.otherNodes t).filter s.reachable).foldl (fun (s : State) n => s.sendOrder n 0x34 t.part (s.resetGen t.part) [table, load] 16) s)

/-- LOAD_ORDER_ARRIVAL: another node reports its load of a table. -/
def execLoadOrderArrival (pkt : Packet) (s : State) : Host.Outcome State Fault Refusal :=
  .next (s.takeOrder pkt.srcNode pkt.seq (fun s => s.modTable (pkt.args.getD 0 0) (fun t => { t with loads := kvPut pkt.srcNode (pkt.args.getD 1 0) t.loads })))

/-! ### Drift (R305 to R308) -/

/-- Offer a row to another node of the map, as a migration or a replica (Table 11.4, step 1); refused and counted where the directory
has no room here. -/
def State.offerDrift (s : State) (tid x node : Nat) (replica : Bool) : State :=
  match s.table? tid with
  | none => s
  | some t =>
    if t.shard ≠ some (t.place x).1 ∨ (s.otherNodes t).contains node = false ∨ (s.dirOf tid x 1).isEmpty = false ∨ t.drifts.any (fun d => d.row == x) = true then s
    else if !s.dirCan then s.bump cEmbDriftRefused 1
    else
      let d : Drift := { row := x, node := node, replica := replica, copies := 0, since := s.now }
      (s.modTable tid (fun t => { t with drifts := t.drifts ++ [d] })).sendOrder node 0x30 t.part (s.resetGen t.part) [tid, x, replica.toNat] 16

/-- DRIFT_OFFER_ARRIVAL: a drift slot and, for a migration, a directory entry are reserved and the offer accepted; without a free slot
or entry it is refused and counted (R305). -/
def execDriftOfferArrival (pkt : Packet) (s : State) : Host.Outcome State Fault Refusal :=
  .next (s.takeOrder pkt.srcNode pkt.seq (fun s =>
    let tid := pkt.args.getD 0 0
    let x := pkt.args.getD 1 0
    let replica := pkt.args.getD 2 0 == 1
    match s.table? tid with
    | none => s.bump cEmbDriftRefused 1
    | some t =>
      let home := (t.map[(t.place x).1]?).map (fun e => e.node)
      match kvFreeKey t.slots t.driftRows 0 with
      | none => s.bump cEmbDriftRefused 1
      | some k =>
        if t.shard.isNone ∨ t.dying.isSome ∨ home ≠ some pkt.srcNode ∨ (t.slotOf x).isSome = true ∨ (replica = false ∧ s.dirCan = false) then s.bump cEmbDriftRefused 1
        else
          let z : DSlot := { row := x, home := pkt.srcNode, copied := 0, switched := false, replica := replica, since := s.now }
          let s := if replica then s else s.dirRoom
          (s.modTable tid (fun t => { t with slots := kvPut k z t.slots })).sendOrder pkt.srcNode 0x31 t.part (s.resetGen t.part) [tid, x] 16))

/-- DRIFT_ACCEPT_ARRIVAL: the copy of the row and its accumulator leaves on VC5; for a replication the owner adds its REPLICA entry
(Table 11.4 step 2, R307), or without room for it takes the offer back and counts a refusal (R305). -/
def execDriftAcceptArrival (pkt : Packet) (s : State) : Host.Outcome State Fault Refusal :=
  .next (s.takeOrder pkt.srcNode pkt.seq (fun s =>
    let tid := pkt.args.getD 0 0
    let x := pkt.args.getD 1 0
    match (s.table? tid).bind (fun t => t.drifts.find? (fun d => d.row == x && d.node == pkt.srcNode && d.copies == 0)) with
    | none => s
    | some d =>
      if d.replica ∧ s.dirCan = false then
        ((s.modTable tid (fun t => { t with drifts := t.drifts.filter (fun y => !(y.row == x && y.node == d.node)) })).bump cEmbDriftRefused 1).sendOrder pkt.srcNode 0x32 0 0 [tid, x] 16
      else
      let s := s.sendCopy tid x d
      if d.replica then
        let s := s.modTable tid (fun t => { t with drifts := t.drifts.filter (fun y => !(y.row == x && y.node == d.node)) })
        s.dirPut { row := x, table := tid, kind := 3, node := d.node, rep := false }
      else s.modTable tid (fun t => { t with drifts := t.drifts.map (fun y => if y.row == x && y.node == d.node then { y with since := s.now } else y) })))

/-- Add the sums a SWITCH carries, step by step (R306). -/
def State.addCarried (s : State) (tid x : Nat) : List Nat → List Byte → State
  | [], _ => s
  | step :: rest, bs => match s.table? tid with
    | none => s
    | some t => ((s.accumulate tid t step x (fp32List t.dim bs) none).1).addCarried tid x rest (bs.drop (4 * t.dim))

/-- Act on what was held for rows that no longer drift here, in order of arrival: a SWITCH takes effect once the copy it names has
arrived; then contributions and lookups for the row (R306, R308). -/
def State.settleHeld (s : State) (tid : Nat) : State :=
  match s.table? tid with
  | none => s
  | some t =>
    let ready := fun (k : Packet) => k.opcode == opDriftSwitch && (match t.slotOf (k.args.getD 1 0) with
      | some (_, z) => !z.replica && !z.switched && decide (k.args.getD 2 0 ≤ z.copied)
      | none => true)
    let sw := t.held.filter ready
    let s := s.modTable tid (fun t => { t with held := t.held.filter (fun k => !ready k) })
    let s := sw.foldl (fun (s : State) k =>
      let x := k.args.getD 1 0
      if (t.slotOf x).isNone then s else
      let s := s.modTable tid (fun t => { t with slots := kvMapVals (fun _ (z : DSlot) => if z.row = x then { z with switched := true } else z) t.slots })
      let s := s.modEmb (fun e => { e with dir := e.dir ++ [({ row := x, table := tid, kind := 2, node := s.nodeId, rep := false } : DirEnt)] })
      s.addCarried tid x (k.args.drop 3) k.data) s
    match s.table? tid with
    | none => s
    | some t =>
      let free := fun (k : Packet) => k.opcode != opDriftSwitch && !((if k.opcode = opContrib then [k.args.getD 3 0] else k.args.drop 3).any t.drifting)
      let go := t.held.filter free
      let s := s.modTable tid (fun t => { t with held := t.held.filter (fun k => !free k) })
      go.foldl (fun (s : State) k => if k.opcode = opContrib then s.takeContrib k else s.serveLookup k) s

/-- DRIFT_COPY_ARRIVAL: a copy of a row and its accumulator is written into its drift slot, unless a newer one has been (Table 11.4,
steps 3 and 4). -/
def execDriftCopyArrival (pkt : Packet) (s : State) : Host.Outcome State Fault Refusal :=
  let s := s.taken pkt
  let tid := pkt.args.getD 0 0
  let x := pkt.args.getD 1 0
  let n := pkt.args.getD 2 0
  match s.table? tid with
  | none => .next s
  | some t => match t.slotOf x with
    | none => .next s
    | some (k, z) =>
      if z.switched ∨ n ≤ z.copied ∨ z.home ≠ pkt.srcNode then .next s
      else
        let pl := t.rowPlace t.addr x
        let s := (s.access t.part pl.1 t.stride).writeMem pl.1 (pkt.data.take t.stride)
        let s := match pl.2 with | some a => (s.access t.part a 4).writeMem a ((pkt.data.drop t.stride).take 4) | none => s
        .next ((s.modTable tid (fun t => { t with slots := kvPut k { z with copied := n } t.slots })).settleHeld tid)

/-- DRIFT_SWITCH: with the log replayed, the owner sets the row's entry to FORWARD and sends SWITCH with the row's sums of its open
steps (Table 11.4, step 5); the drift is counted. -/
def execDriftSwitch (table row : Nat) (s : State) : Host.Outcome State Fault Refusal :=
  match s.table? table with
  | none => .next s
  | some t => match t.drifts.find? (fun d => d.row == row && !d.replica && decide (0 < d.copies)) with
    | none => .next s
    | some d =>
      if !s.dirCan then .next ((s.modTable table (fun t => { t with drifts := t.drifts.filter (fun y => y.row != row) })).bump cEmbDriftRefused 1)
      else
        let open_ := t.steps.filterMap (fun z => (kvGet? row z.acc).map (fun g => (z.step, g)))
        let s := s.dirPut { row := row, table := table, kind := 1, node := d.node, rep := false }
        let s := s.modTable table (fun t => { t with
          drifts := t.drifts.filter (fun y => y.row != row)
          steps := t.steps.map (fun z => { z with acc := kvDel row z.acc }) })
        .next ((s.sendTable t 4 opDriftSwitch d.node ([table, row, d.copies] ++ open_.map (fun x => x.1)) (open_.flatMap (fun x => fp32Bytes x.2))).bump cEmbDrifts 1)

/-- DRIFT_SWITCH_ARRIVAL: the new owner marks the entry OWNED and adds the carried sums, once the newest copy is there (R306). -/
def execDriftSwitchArrival (pkt : Packet) (s : State) : Host.Outcome State Fault Refusal :=
  let s := s.taken pkt
  let tid := pkt.args.getD 0 0
  .next ((s.modTable tid (fun t => if t.drifting (pkt.args.getD 1 0) then { t with held := t.held ++ [{ pkt with opcode := opDriftSwitch }] } else t)).settleHeld tid)

/-- DRIFT_ABANDON_TIMEOUT: a drift not yet switched has gone 100 µs without acknowledgement and is abandoned; the row stays here
(R308). -/
def execDriftAbandonTimeout (table row : Nat) (s : State) : Host.Outcome State Fault Refusal :=
  .next (s.modTable table (fun t => { t with drifts := t.drifts.filter (fun d => !(d.row == row && decide (d.since + 100000 ≤ s.now))) }))

/-- RECALL_ARRIVAL: a row held by drift or as a replica is dropped and the recall acknowledged on VC0 (R302). -/
def execRecallArrival (pkt : Packet) (s : State) : Host.Outcome State Fault Refusal :=
  .next (s.takeOrder pkt.srcNode pkt.seq (fun s =>
    let tid := pkt.args.getD 0 0
    let x := pkt.args.getD 1 0
    let s := s.modTable tid (fun t => { t with
      slots := t.slots.filter (fun z => z.2.row != x)
      steps := if (t.slotOf x).isSome then t.steps.map (fun z => { z with acc := kvDel x z.acc }) else t.steps })
    let s := (s.dirDel (fun d => d.kind == 2 && d.table == tid && d.row == x)).settleHeld tid
    let p := ((s.table? tid).map (fun t => t.part)).getD 0
    s.sendOrder pkt.srcNode 0x33 p (s.resetGen p) [tid, x] 16))

/-- RECALL_ACK_ARRIVAL: one recall less to wait for (R302, R303). -/
def execRecallAckArrival (pkt : Packet) (s : State) : Host.Outcome State Fault Refusal :=
  .next (s.takeOrder pkt.srcNode pkt.seq (fun s =>
    let tid := pkt.args.getD 0 0
    (s.modTable tid (fun t => { t with recalls := t.recalls.filter (fun r => r != (pkt.args.getD 1 0, pkt.srcNode)) })).settleTable tid))

/-- REPLICA_UPDATE_ARRIVAL: the new value of a row replaces the read-only copy whole (R307). -/
def execReplicaUpdateArrival (pkt : Packet) (s : State) : Host.Outcome State Fault Refusal :=
  let s := s.taken pkt
  let tid := pkt.args.getD 0 0
  match s.table? tid with
  | none => .next s
  | some t => match t.slotOf (pkt.args.getD 1 0) with
    | none => .next s
    | some (k, z) =>
      if z.replica = false ∨ z.home ≠ pkt.srcNode then .next s
      else .next (((s.access t.part (t.rowPlace t.addr z.row).1 t.stride).writeMem (t.rowPlace t.addr z.row).1 (pkt.data.take t.stride)).modTable tid (fun t => { t with slots := kvPut k { z with copied := max 1 z.copied } t.slots }))

end Sys2Proof.Machine
end

