-- ==== Sys2Proof/Machine/Partition.lean ====
section
/-! DEFINITION. Partitions (spec/03): quiesce, partition reset with its drain and scrub (Table 3.6), function-level resets and the
enabling of virtual functions, bad accesses to the register spaces. -/

namespace Sys2Proof.Machine

/-! ### Quiesce (R80, R103) -/

/-- Whether a packet of this node was sent by partition `p`. -/
def sentBy (s : State) (p : Nat) (k : Packet) : Bool := k.srcNode == s.nodeId && k.srcPart == p && decide (1 ≤ k.vc ∧ k.vc ≤ 5)

/-- Whether partition `p` has fabric traffic in flight: outstanding or waiting requests, or packets of its own not yet sent. -/
def State.fabricBusy (s : State) (p : Nat) : Bool :=
  s.fab.out.any (fun o => o.2.part == p) || !(s.part p).waiting.isEmpty || s.fab.handoff.any (sentBy s p) || s.fab.held.any (fun e => sentBy s p e.pkt) ||
  s.fab.links.any (fun l => (l.2.localq ++ l.2.active).any (fun e => sentBy s p e.pkt))

/-- Completions that a partition is still owed: of admitted and of staged commands (R115). -/
def State.owed (s : State) (p : Nat) : Nat := ((s.queues.filter (fun x => x.1 / 64 == p)).map (fun x => x.2.reserved)).sum

/-- The conditions of R80, not counting request `exempt`: no admitted request, no context, no long operation, no fabric traffic in
flight, no completion still owed and none that waits to be reported. A staged command owes its completion (DEDUCED, log entry 46). -/
def State.isQuiet (s : State) (p : Nat) (exempt : Option Nat) : Bool :=
  let mine := (exempt.bind (fun rid => kvGet? rid s.recs)).any (fun r => r.part == p && r.fab.isNone)
  decide (s.owed p ≤ mine.toNat) && !s.flt.coal.any (fun x => x.1 / 64 == p && !x.2.isEmpty) && !s.recs.any (fun r => r.2.part == p && some r.1 != exempt) && !s.ctxs.any (fun c => c.2.part == p && some c.2.rid != exempt) && !s.fabricBusy p

/-- PRT_QUIESCE_SET: QUIESCE is set; a READY partition, or one of partitions 0 and 32 that serves without configuration, stops fetching and
admitting fabric requests (R103, R492). -/
def execPrtQuiesceSet (p : Nat) (s : State) : Host.Outcome State Fault Refusal :=
  let s := s.setFld (rPrtCtl p) fPrtCtl_QUIESCE 1
  if s.pstate p = stReady ∨ (s.pstate p = stUnconfigured ∧ s.sqCount p ≠ 0) then .next (s.setPstate p stQuiescing) else .next s

/-- PRT_QUIESCE_CLEAR: QUIESCE is cleared and the partition serves again; fetching resumes from the recorded doorbells (R103). -/
def execPrtQuiesceClear (p : Nat) (s : State) : Host.Outcome State Fault Refusal :=
  let s := s.setFld (rPrtCtl p) fPrtCtl_QUIESCE 0
  if s.pstate p = stQuiescing ∨ s.pstate p = stQuiesced then .next (s.setPstate p (s.restState p)) else .next s

/-- PRT_QUIESCED_ENTRY: the conditions of R80 hold for a QUIESCING partition: it is QUIESCED, EV_QUIESCED is set and vector 0 signals
it (R90, R103). -/
def execPrtQuiescedEntry (p : Nat) (s : State) : Host.Outcome State Fault Refusal :=
  if s.pstate p = stQuiescing ∧ s.isQuiet p none = true then .next (((s.setPstate p stQuiesced).setWinBit p fWinEvQuiesced).sendMsix p 0)
  else .next s

/-! ### Partition reset (R104 to R111) -/

/-- Complete a staged command of a queue with the status of the reset, a long operation's status word first (R137); its reservation goes with
the completion. -/
def State.endStaged (s : State) (k : Nat) (status : Nat) : State :=
  match (kvGetD {} k s.queues).staged with
  | none => s
  | some g =>
    let s := s.putQueues (kvUpd k (fun x => { x with staged := none }) s.queues)
    (if isLong g.cmd.opcode then s.emit (.status (k / 64) g.cmd.statusAddr (statusWord (finalState status) status 0 0)) else s).postCompletion (k / 64) (k % 64) g.cmd.cid g.cmd.stream status 0 0 0 0 g.cmd.noIrq

/-- Abandon the array work of partition `p` (R109, R158): its queues, running instructions, tokens and spilled state are gone, and it owns no
array any more, even where a switch to it is under way. -/
def State.arrAbandon (s : State) (p : Nat) : State :=
  let s := (s.putArrWork (s.arrWork.filter (fun w => w.1 != p))).putAtokens (s.atokens.filter (fun t => t.part != p))
  let s := s.putArrays (kvMapVals (fun _ (u : ArrUnit) => { u with
    run := u.run.filter (fun r => r.part != p), model := u.model.filter (fun m => m.part != p), held := u.held.filter (fun m => m.part != p)
    pend := kvDel p u.pend, queue := kvDel p u.queue, phase := kvDel p u.phase }) s.arrays)
  let s := s.putShares (kvMapVals (fun _ (x : ArrShare) => { x with spill := x.spill.filter (fun w => w.1 != p) }) s.shares)
  let s := s.modPart p (fun x => { x with spill := [], scans := [] })
  [0, 1, 2, 3].foldl (fun (t : State) a => if (t.share a).owner = some p then t.arrRelease a else t) s

/-- Nodes that hold requests of partition `p`, or to which its rows drift: they are told to drain (Table 3.6, step 3). -/
def State.drainNodes (s : State) (p : Nat) : List Nat :=
  (((s.fab.out.filter (fun o => o.2.part == p)).map (fun o => o.2.node)) ++
    s.emb.tables.flatMap (fun t => if t.2.part = p then t.2.drifts.map (fun d => d.node) else [])).eraseDups

/-- Steps 2 to 5 of Table 3.6: RESETTING, generation, drain orders, every admitted request vented and completed but `exempt` (R77),
held commands ended, coalesced interrupts flushed, work on arrays, channels, collections and tables abandoned. -/
def State.resetBegin (s : State) (p : Nat) (scrub silent load : Bool) (coll exempt : Option Nat) : State :=
  let nodes := s.drainNodes p
  let gen := (s.resetGen p + 1) % 65536
  let s := ((s.setPstate p stResetting).setFld (rPrtStatus p) fPrtStatus_RESET_GEN gen).setFld (rPrtCtl p) fPrtCtl_QUIESCE 0
  let s := (s.setFld (rPrtCtl p) fPrtCtl_RESET 1).modPart p (fun x => { x with
    rst := some { scrub := scrub, waiting := nodes, silent := silent, scrubbing := false, coll := coll, load := load } })
  let s := nodes.foldl (fun (t : State) n => t.sendOrder n 0x10 p gen [p, gen] 4) s
  let mine := s.recs.filter (fun r => r.2.part == p && some r.1 != exempt)
  let s := mine.foldl (fun (t : State) r => if (kvGet? r.1 t.recs).isSome then t.complete p r.1 scReset 0 ((r.2.long.map (fun l => l.count)).getD 0) 0 0 [] else t) s
  let s := ((s.queues.filter (fun x => x.1 / 64 == p)).map (fun x => x.1)).foldl (fun (t : State) k => t.endStaged k scReset) s
  let s := s.putCtxs (s.ctxs.filter (fun c => c.2.part != p || (exempt.isSome && some c.2.rid == exempt)))
  let s := (s.part p).waiting.foldl (fun (t : State) w => t.refuseFabric p w.ep w.origin w.cmd.opcode) s
  let s := s.modPart p (fun x => { x with waiting := [] })
  let s := s.modFab (fun f => { f with
    out := f.out.filter (fun o => o.2.part != p)
    handoff := f.handoff.filter (fun k => !(sentBy s p k && k.ptype == 0))
    held := f.held.filter (fun e => !(sentBy s p e.pkt && e.pkt.ptype == 0)) })
  let s := s.modMem (fun m => { m with pacc := m.pacc.filter (fun x => match x.2.rid with | some rid => (kvGet? rid s.recs).isSome | none => true) })
  let s := ((s.flt.coal.filter (fun x => x.1 / 64 == p && !x.2.isEmpty)).map (fun x => fCfgVector.get (kvGetD {} x.1 s.queues).cfg)).eraseDups.foldl (fun (t : State) v => t.sendMsix p v) s
  (((s.arrAbandon p).bankReset p).corpusReset p).tableReset p

/-- A queue after step 7: disabled, head and tail at zero (R107). -/
def Queue.reinit (x : Queue) : Queue := { sqBase := x.sqBase, cqBase := x.cqBase, cfg := fCfgEnable.put 0 x.cfg }

/-- The shapers, meters and flows of a partition start again (Table 15.2). -/
def State.flowsReset (s : State) (p : Nat) : State :=
  let c := s.pcfg p
  let mine := fun (st : Nat) => s.configured p && decide (c.streamFirst ≤ st ∧ st < c.streamFirst + c.streamCount)
  s.modFab (fun f => { f with
    buckets := f.buckets.filter (fun b => !mine (b.1 % 8192))
    meters := f.meters.filter (fun m => m.1 % 64 != p)
    doms := kvMapVals (fun _ (d : SchedDom) => { d with finish := d.finish.filter (fun x => x.1 % 64 != p) }) f.doms })

/-- Step 7 of Table 3.6: queues, buckets, meters, flows and event state start again (R109, R396). -/
def State.resetReinit (s : State) (p : Nat) : State :=
  let s := s.putQueues (kvMapVals (fun k (x : Queue) => if k / 64 = p then x.reinit else x) s.queues)
  let s := (s.modPart p (fun x => { x with bw := [] })).flowsReset p
  s.setWin p 0x40000 (fWinEvPoolLost.put 0 (fWinEvQuiesced.put 0 (fWinEvResetDone.put 0 (s.win p 0x40000))))

/-- Step 8 of Table 3.6: the partition is READY again, or HELD (R107), or LOADING while a load that has passed step 8 holds it (R81); EV_RESET_DONE is set and `RESET_DONE` sent on vector 0 unless the
reset is silent; a reset collective that waits for every reset of this node goes on. -/
def State.resetEnd (s : State) (p : Nat) (r : ResetProg) : State :=
  let s := s.modPart p (fun x => { x with rst := none })
  let s := (s.setFld (rPrtCtl p) fPrtCtl_RESET 0).setFld (rPrtCtl p) fPrtCtl_SCRUB 0
  let s := s.setPstate p (if s.loadHolds p then stLoading else s.settled p)
  let s := (s.bump (cPrtResets p) 1).setWinBit p fWinEvResetDone
  let s := if r.silent then s else s.sendMsix p 0
  match r.coll with
  | none => s
  | some id => if s.parts.any (fun x => (x.2.rst.bind (fun y => y.coll)) == some id || (x.2.heldReset.bind (fun y => y.2.2)) == some id) then s else s.doneColl id

/-- Steps 7 and 8, once no drain acknowledgement is awaited; a scrub comes between them (R110). A load holds them back (R77). -/
def State.resetGoOn (s : State) (p : Nat) : State :=
  match (s.part p).rst with
  | none => s
  | some r =>
    if !r.waiting.isEmpty ∨ r.load ∨ r.scrubbing then s
    else
      let s := s.resetReinit p
      if r.scrub then s.modPart p (fun x => { x with rst := some { r with scrubbing := true, began := s.now } })
      else s.resetEnd p r

/-- A reset of partition `p` asked for (R104): merged into one that runs (R111), held while the partition is LOADING (R81), RESET reading 1 from
the request on, otherwise begun. A partition without configuration, 0 and 32 apart, has nothing to reset. -/
def State.askReset (s : State) (p : Nat) (scrub silent : Bool) (coll : Option Nat) : State :=
  if s.sqCount p = 0 then s else
  match (s.part p).rst with
  | some r => (s.setFld (rPrtCtl p) fPrtCtl_QUIESCE 0).modPart p (fun x => { x with rst := some { r with scrub := r.scrub || scrub, silent := r.silent || silent, coll := if coll.isSome then coll else r.coll } })
  | none =>
    if s.pstate p = stLoading then
      let h := (s.part p).heldReset.getD (false, false, none)
      (s.setFld (rPrtCtl p) fPrtCtl_RESET 1).modPart p (fun x => { x with heldReset := some (h.1 || scrub, h.2.1 || silent, if coll.isSome then coll else h.2.2) })
    else s.resetBegin p scrub silent false coll none

/-- Start the resets that a load held, once it has ended (R81). -/
def State.releaseHeld (s : State) : State :=
  s.parts.foldl (fun (t : State) x => match (t.part x.1).heldReset with
    | some h => if t.pstate x.1 = stLoading then t
      else ((t.modPart x.1 (fun y => { y with heldReset := none })).askReset x.1 h.1 h.2.1 h.2.2).resetGoOn x.1
    | none => t) s

/-- The reset asked for, taken as far as it goes at once; where it ends a load, resets that the load held start too. -/
def State.requestReset (s : State) (p : Nat) (scrub silent : Bool) (coll : Option Nat) : State := ((s.askReset p scrub silent coll).resetGoOn p).releaseHeld

/-- PRT_RESET_REQUEST: a write of `PRT_WIN_CTL` or `PRT_p_CTL` with RESET set: SCRUB is taken from the write, and the reset starts
(Table 3.9, R105). -/
def execPrtResetRequest (p value : Nat) (s : State) : Host.Outcome State Fault Refusal :=
  let scrub := bitOf value 2
  let s := if s.sqCount p = 0 then s else s.setFld (rPrtCtl p) fPrtCtl_SCRUB scrub.toNat
  .next ((s.requestReset p scrub false none).resume)

/-- DRAIN_ACK_ARRIVAL: a node has drained; when all have, the reset goes on to steps 7 and 8 (Table 3.6, step 6). -/
def execDrainAckArrival (src part gen seq : Nat) (s : State) : Host.Outcome State Fault Refusal :=
  .next (s.takeOrder src seq (fun s => match (s.part part).rst with
    | some r => if gen = s.resetGen part then
        (s.modPart part (fun x => { x with rst := some { r with waiting := r.waiting.filter (fun n => n != src) } })).resetGoOn part else s
    | none => s))

/-- DRAIN_TIMEOUT: nodes have not acknowledged by the bound of step 6: the reset goes on, and each is counted (R108). -/
def execDrainTimeout (p : Nat) (s : State) : Host.Outcome State Fault Refusal :=
  match (s.part p).rst with
  | some r => .next (((s.modPart p (fun x => { x with rst := some { r with waiting := [] } })).bump (cPrtDrainTimeouts p) r.waiting.length).resetGoOn p)
  | none => .next s

/-- Remove everything a partition stores (R110): collection, tables, windows, namespaces, tensors and models, with the ring records of its channels and
writes that no token has covered (R185); the bytes of its allocations read zero, and only areas its configuration reserves stay allocated. -/
def State.scrubData (s : State) (p : Nat) : State :=
  let s := (((s.corpusScrub p).tableScrub p).windowsScrub p).flashScrub p
  let s := s.putBank (s.bank.map (fun x => if bitOf (s.pcfg p).procChannels x.1 then (x.1, { x.2 with pend := [], written := [] }) else x))
  let s := (s.putModels (s.models.filter (fun m => m.1 / 256 != p))).putOldModels (s.oldModels.filter (fun m => m.1 != p))
  let s := s.modMem (fun m => { m with old := m.old.filter (fun o => (match kvGet? o.tensor m.tensors with | some t => t.part != p | none => true)) })
  let s := ((s.mem.tensors.filter (fun t => t.2.part == p && t.2.holder != .ring)).map (fun t => t.1)).foldl State.freeTensor s
  let keep := fun (k : AllocKind) => decide (k = .protected7 ∨ k = .ring ∨ k = .tombstones)
  let mine := s.mem.allocs.filter (fun a => a.2.part == some p)
  mine.foldl (fun (t : State) a => if keep a.2.kind then t.modMem (fun m => m.clear a.1 a.2.len) else t.release a.1) s

/-- SCRUB_DONE: the zeroing, sanitising and releasing of a scrub have finished, and step 8 follows (R110), unless a load still holds the
reset (R77). -/
def execScrubDone (p : Nat) (s : State) : Host.Outcome State Fault Refusal :=
  match (s.part p).rst with
  | some r => if r.scrubbing then
      let s := s.scrubData p
      if r.load then .next (s.modPart p (fun x => { x with rst := some { r with scrub := false, scrubbing := false } }))
      else .next (s.resetEnd p r).resume else .next s
  | none => .next s

/-- DRAIN_ORDER_ARRIVAL: the work held for the partition's requests is vented, requests coordinated for it end with `REMOTE_ERROR`, rows
that were drifting here from it are given up, and the drain is acknowledged on VC0 (R108, R308). -/
def execDrainOrderArrival (src part gen seq : Nat) (s : State) : Host.Outcome State Fault Refusal :=
  .next (s.takeOrder src seq (fun s =>
    let theirs := fun (o : FabOrigin) => o.node == src && o.part == part
    let rs := s.recs.filter (fun r => match r.2.fab with | some o => theirs o | none => false)
    let s := rs.foldl (fun (t : State) r =>
      if (kvGet? r.1 t.recs).isNone then t else match kvGet? r.1 t.queries with
      | some q => if q.scatter then t.fail r.2.part r.1 scRemoteError else t.vent r.1 q
      | none => t.fail r.2.part r.1 scVented) s
    let s := s.putParts (kvMapVals (fun _ (x : Part) => { x with waiting := x.waiting.filter (fun w => !theirs w.origin) }) s.parts)
    let s := s.modEmb (fun e => { e with tables := kvMapVals (fun _ (t : Table) => { t with
      held := t.held.filter (fun k => !(k.srcNode == src && k.srcPart == part))
      slots := t.slots.filter (fun z => !(z.2.home == src && (if z.2.replica then z.2.copied == 0 else !z.2.switched) && (t.entryOf src).part == part)) }) e.tables })
    (s.sendOrder src 0x11 part gen [part, gen] 4).resume))

/-! ### Host functions (R87, R104, R107) -/

/-- The MSI-X table and pending bits of a partition's function go back to their reset values. -/
def State.clearMsix (s : State) (p : Nat) : State :=
  s.putWinReg (s.winReg.filter (fun w => !decide (p * 0x100000 + 0x80000 ≤ w.1 ∧ w.1 < (p + 1) * 0x100000)))

/-- Partitions mapped to virtual functions of a port. -/
def State.vfParts (s : State) (port : Nat) : List Nat :=
  (s.parts.filter (fun x => match x.2.cfg with | some c => c.port == port && c.vf != 0 | none => false)).map (fun x => x.1)

/-- VF_FUNCTION_LEVEL_RESET: the partition of a virtual function is reset without SCRUB and without `RESET_DONE`; its MSI-X table is
cleared (R104, R107). -/
def execVfFunctionLevelReset (port vf : Nat) (s : State) : Host.Outcome State Fault Refusal :=
  match (s.vfParts port).find? (fun p => (s.pcfg p).vf == vf) with
  | some p => .next (((s.clearMsix p).requestReset p false true none).resume)
  | none => .next s

/-- A function-level reset of a port's physical function, or VF Enable cleared: partition 0 or 32 and every partition of the port's virtual
functions are reset; VF Enable is 0 from then on, so those end HELD (R104, R107). -/
def State.pfReset (s : State) (port : Nat) (clearOnly : Bool) : State :=
  if 2 ≤ port then s else
  let vfs := s.vfParts port
  let p := 32 * port
  let s := s.putVfEn (s.vfEn.set port false)
  let s := if clearOnly then s.requestReset p false false none else (s.clearMsix p).requestReset p false true none
  (vfs.foldl (fun (t : State) v => (t.clearMsix v).requestReset v false true none) s).resume

/-- PF_FUNCTION_LEVEL_RESET: a function-level reset of a physical function, or (`clearOnly`) VF Enable cleared (R104, R107). -/
def execPfFunctionLevelReset (port : Nat) (clearOnly : Bool) (s : State) : Host.Outcome State Fault Refusal := .next (s.pfReset port clearOnly)

/-- VF_ENABLE: VF Enable and NumVFs are set on a port whose VF Enable is 0; each HELD partition whose function is enabled now performs a
reset without SCRUB and is then READY (R87). The spec gives a port 62 virtual functions (R84) and is silent on a larger NumVFs: the model cuts it
to 62 (DESIGN CHOICE, log entry 46). -/
def execVfEnable (port numVfs : Nat) (s : State) : Host.Outcome State Fault Refusal :=
  if 2 ≤ port ∨ s.vfEn.getD port false = true then .next s else
  let s := (s.putVfEn (s.vfEn.set port true)).putNumVfs (s.numVfs.set port (min 62 numVfs))
  let mine := (s.vfParts port).filter (fun p => s.pstate p == stHeld && s.funcEnabled p)
  .next ((mine.foldl (fun (t : State) p => t.requestReset p false false none) s).resume)

/-! ### Bad accesses (R16, R86) -/

/-- BAR0_BAD_ACCESS: an access narrower than 64 bits or not aligned to 8 bytes completes normally: a write is discarded, a read returns
all ones, and BAD_WIDTH is set (R16). -/
def execBar0BadAccess (pf offset : Nat) (write : Bool) (s : State) : Host.Outcome State Fault Refusal :=
  .next ((s.accessErr fNodeAccessErr_BAD_WIDTH pf offset).badRead false pf offset write (BitVec.allOnes 64))

/-- WINDOW_BAD_ACCESS: the same in a partition window, which sets the partition's ACCESS_ERR; a window that no configured partition maps
to discards writes and reads zero (R86, R87). A naturally aligned 32-bit access of the MSI-X table or its pending bits is no such access: its
write is REGISTER_WRITE with `half`, its read changes nothing. -/
def execWindowBadAccess (p offset : Nat) (write : Bool) (s : State) : Host.Outcome State Fault Refusal :=
  if s.sqCount p = 0 then .next (s.badRead true p offset write 0) else .next (s.windowBad p offset write)

end Sys2Proof.Machine
end

