-- ==== Sys2Proof/Machine/FabColl.lean ====
section
/-! DEFINITION. Collectives (R374 to R377), the end of fabric requests by refusal or timeout (R368, R371), and the writes that fix a lane's
equalisation (R350). -/

namespace Sys2Proof.Machine

/-! ### COLLECTIVE (R374, R375) -/

/-- Whether two OPs belong to one collective: equal, or the two sides of a broadcast. -/
def opsAgree (a b : Nat) : Bool := a == b || ((a == 1 || a == 2) && (b == 1 || b == 2))

/-- The checks of `COLLECTIVE` (R374). -/
def State.collectiveCheck (s : State) (p : Nat) (c : HostCmd) : Option Nat :=
  let op := c.param 0 1
  let n := c.param 24 4
  if 4 < op ∨ c.param 4 4 = 0 ∨ ((op = 1 ∨ op = 2) ∧ (n = 0 ∨ 65536 < n)) ∨ (op = 3 ∧ c.param 8 8 = 0) ∨ s.isMember = false then some scBadCommand
  else if (op = 1 ∧ s.addrOk p (c.param 16 8) n = false) ∨ (op = 2 ∧ s.resultOk p c.resultAddr n = false) then some scBadHandle
  else none

/-- Begin a `COLLECTIVE` of an OP: its checks (R374); it waits while 16 are active here or its COLL_ID is in use here; members that disagree
on OP end it (R377). `go` is what the OP then does, with the collective opened. -/
def State.beginColl (s : State) (p q cid op : Nat) (go : Nat → Rec → Nat → State → State) : State :=
  match s.readyRec p q cid 0x06 with
  | none => s
  | some (rid, r) =>
    if r.cmd.param 0 1 ≠ op then s else
    let id := r.cmd.param 4 4
    let mask := r.cmd.param 8 8
    if let some st := (s.named r).collectiveCheck p r.cmd then s.fail p rid st
    else if 16 ≤ (s.fab.colls.filter (fun c => c.2.rid.isSome)).length then s
    else match s.coll? id with
    | some c =>
      if c.rid.isSome then s
      else if !opsAgree c.op op then ((s.modRec rid (fun r => { r with phase := .running })).modColl id (fun c => { c with rid := some rid })).failColl id scRemoteError 0
      else go rid r id ((s.modRec rid (fun r => { r with phase := .running })).modColl id (fun c => { c with rid := some rid, op := op }))
    | none => go rid r id ((s.modRec rid (fun r => { r with phase := .running })).openColl id op mask (some rid) (op == 1 || op == 3 || op == 4))

/-- COLLECTIVE_BARRIER: this member's entry is made (R375). -/
def execCollectiveBarrier (p q cid : Nat) (s : State) : Host.Outcome State Fault Refusal :=
  .next (s.beginColl p q cid 0 (fun _ _ id s => s.doneColl id))

/-- What an OP 2 takes of broadcast data: its DATA_BYTES (Table 14.9). -/
def State.wanted (s : State) (c : Coll) (data : List Byte) : List Byte :=
  match c.rid.bind (fun rid => kvGet? rid s.recs) with
  | some r => if c.op = 2 then data.take (r.cmd.param 24 4) else data
  | none => data

/-- Broadcast data at this member: it is passed to the children, and handed to its OP 2 or held for it. -/
def State.spreadData (s : State) (id : Nat) (data : List Byte) : State :=
  let s := s.sendKids ckDataDown id 1 0 0 0 data
  let s := s.modColl id (fun c => { c with data := some (s.wanted c data) })
  match s.coll? id with
  | some c => if c.rid.isSome ∧ c.op = 2 then s.doneColl id else s
  | none => s

/-- COLLECTIVE_BROADCAST_SEND: the data is read and rises to the anchor, from where it descends the tree (R375). -/
def execCollectiveBroadcastSend (p q cid : Nat) (data : List Byte) (s : State) : Host.Outcome State Fault Refusal :=
  .next (s.beginColl p q cid 1 (fun _ r id s =>
    let (bs, s) := s.readInput p r.flow (r.cmd.param 16 8) (r.cmd.param 24 4) data
    let s := if s.isRoot then s.spreadData id bs else s.sendColl s.fab.parent ckDataUp id 1 0 0 0 bs
    (s.modColl id (fun c => { c with issuer := true, done := true })).stepColl id))

/-- COLLECTIVE_BROADCAST_RECEIVE: the data is taken from its buffer where it has arrived, and awaited otherwise (R375). -/
def execCollectiveBroadcastReceive (p q cid : Nat) (s : State) : Host.Outcome State Fault Refusal :=
  .next (s.beginColl p q cid 2 (fun _ r id s =>
    let s := s.modColl id (fun c => { c with data := c.data.map (fun d => d.take (r.cmd.param 24 4)) })
    match s.coll? id with
    | some c => if c.data.isSome then s.doneColl id else s
    | none => s))

/-- This member starts the resets that a reset collective names, all at once (R375). -/
def State.startResets (s : State) (id mask : Nat) : State :=
  let ps := (List.range 64).filter (fun p => bitOf mask p && decide (0 < s.sqCount p))
  let s := ps.foldl (fun (t : State) p => t.askReset p false false (some id)) s
  if ps.isEmpty then s.doneColl id else (ps.foldl (fun (t : State) p => t.resetGoOn p) s).resume

/-- COLLECTIVE_RESET: the order to reset rises to the anchor, which sends it to every member (R375). -/
def execCollectiveReset (p q cid : Nat) (s : State) : Host.Outcome State Fault Refusal :=
  .next (s.beginColl p q cid 3 (fun _ r id s =>
    let mask := r.cmd.param 8 8
    if s.isRoot then (s.sendKids ckStart id 3 0 0 mask []).startResets id mask
    else s.sendColl s.fab.parent ckAsk id 3 0 0 mask []))

/-- COLLECTIVE_SNAPSHOT: the issuer latches, records and sends markers (R376); a node whose latch is not armed, or that records another
snapshot, fails it. -/
def execCollectiveSnapshot (p q cid : Nat) (s : State) : Host.Outcome State Fault Refusal :=
  .next (s.beginColl p q cid 4 (fun _ _ id s => if s.snapFree then s.snapBegin id else s.failColl id scRemoteError 0))

/-! ### Messages of collectives -/

/-- Take the packet of a collective message. -/
def State.takeMessage (s : State) (src kind id : Nat) : State :=
  match s.fab.arrived.find? (fun k => k.vc == 6 && k.srcNode == src && k.opcode == kind && k.args.headD 0 == id) with
  | some k => s.taken k
  | none => s

/-- COLLECTIVE_MESSAGE_ARRIVAL: a message from a neighbour in the tree is combined, acted on or passed on (R375 to R377). Data for which all
four buffers are full is not taken yet. -/
def execCollectiveMessageArrival (src kind collId op count lost mask : Nat) (data : List Byte) (s : State) : Host.Outcome State Fault Refusal :=
  let id := collId
  let known := s.coll? id
  if s.dataRoom kind id = false then .next s
  else
    let s := s.takeMessage src kind id
    if kind = ckFail then
      match known with
      | some _ => .next (s.failColl id count src)
      | none => .next ((((if s.fab.parent = 0 then [] else [s.fab.parent]) ++ s.fab.kids).filter (fun n => n != src)).foldl (fun (t : State) n => t.sendColl n ckFail id op count 0 0 []) s)
    else
      let s := if known.isSome then s else s.openColl id op mask none false
      match s.coll? id with
      | none => .next s
      | some c =>
        if !opsAgree c.op op then .next (s.failColl id scRemoteError 0)
        else if kind = ckDone then
          .next ((s.modColl id (fun c => { c with reports := c.reports ++ [src], count := c.count + count, lost := c.lost + lost })).stepColl id)
        else if kind = ckResult then .next (s.endColl id count lost)
        else if kind = ckAsk then
          if s.isRoot then .next ((s.sendKids ckStart id 3 0 0 mask []).startResets id mask) else .next (s.sendColl s.fab.parent ckAsk id 3 0 0 mask [])
        else if kind = ckStart then .next ((s.sendKids ckStart id 3 0 0 mask []).startResets id mask)
        else if kind = ckDataUp then
          if s.isRoot then .next (s.spreadData id data) else .next (s.sendColl s.fab.parent ckDataUp id 1 0 0 0 data)
        else if kind = ckDataDown then .next (s.spreadData id data)
        else .next s

/-- COLLECTIVE_TIMEOUT: COLL_TIMEOUT_MS has passed since the collective began here (R377). -/
def execCollectiveTimeout (collId : Nat) (s : State) : Host.Outcome State Fault Refusal :=
  match s.coll? collId with
  | none => .next s
  | some c =>
    if c.started + max 1 (min 60000 (s.fld rFabCfg fFabCfg_COLL_TIMEOUT_MS)) * 1000000 ≤ s.now then .next (s.failColl collId scRemoteError 0) else .next s

/-! ### Requests that fail (R368, R371) -/

/-- OPCODE of an attestation request (R456). -/
def opAttest : Nat := 0x40

/-- End an outstanding request with a status: the command it serves fails as its kind says. -/
def State.failRequest (s : State) (seq status : Nat) : State :=
  match kvGet? seq s.fab.out with
  | none => s
  | some o =>
    let s := s.endRequest seq
    match o.rid with
    | none => s
    | some rid =>
      if o.kind = 0x10 then (s.shardFailed rid seq status).resume
      else if o.kind = opLookup then
        let tid := ((kvGet? rid s.emb.lookups).map (fun l => l.table)).getD 0
        if (kvGet? rid s.emb.lookups).isSome then (s.fail o.part rid status).settleTable tid else s
      else if o.kind = opContrib then
        let tid := ((kvGet? rid s.emb.updates).map (fun u => u.table)).getD 0
        if (kvGet? rid s.emb.updates).isSome then (s.fail o.part rid status).settleTable tid else s
      else if o.kind = opTierP then
        let s := s.modMem (fun m => { m with pacc := kvDel seq m.pacc })
        if (kvGet? rid s.recs).isSome then s.failP o.part rid status else s
      else if (kvGet? rid s.recs).isSome then s.fail o.part rid status
      else s

/-- FABRIC_REFUSE_ARRIVAL: the request that a REFUSE answers ends with `REMOTE_ERROR` (R368); one that has ended already is left alone. -/
def execFabricRefuseArrival (pkt : Packet) (s : State) : Host.Outcome State Fault Refusal :=
  let s := s.taken pkt
  if pkt.ptype ≠ 2 then .next s
  else if s.isLate pkt then .next (s.discardLate pkt)
  else .next (s.failRequest pkt.seq (refuseStatus pkt))

/-- E2E_TIMEOUT: no response has come to a request without a deadline (R371). -/
def execE2eTimeout (seq : Nat) (s : State) : Host.Outcome State Fault Refusal :=
  match kvGet? seq s.fab.out with
  | none => .next s
  | some o =>
    let lim := max 100 (min 65535 (s.fld rFabCfg fFabCfg_E2E_TIMEOUT_US)) * 1000
    if o.timed = true ∧ o.sent + lim ≤ s.now then
      .next ((s.bump cFabE2eTimeouts 1).failRequest seq (if s.reachable o.node then scRemoteError else scUnreachable))
    else .next s

/-! ### Lane equalisation (R350) -/

/-- FAB_LANE_EQ_WRITE: with OVERRIDE set the settings written are in force, and those trained and trimmed are kept; with it clear the trained ones
are in force again. -/
def execFabLaneEqWrite (lane : Nat) (value : Word) (pf : Nat) (s : State) : Host.Outcome State Fault Refusal :=
  if 256 ≤ lane then .next s
  else if fFabLaneEq_OVERRIDE.get value = 1 then
    let keep := if s.fld (rFabLaneEq lane) fFabLaneEq_OVERRIDE = 1 then s.fab.trained else kvPut lane (s.reg (rFabLaneEq lane)) s.fab.trained
    .next ((s.modFab (fun f => { f with trained := keep })).writeFields pf (rFabLaneEq lane) value)
  else
    let w := kvGetD (s.reg (rFabLaneEq lane)) lane s.fab.trained
    let s := s.writeFields pf (rFabLaneEq lane) (value &&& rsvMask (rFabLaneEq lane) ||| fFabLaneEq_OVERRIDE.put 0 w)
    .next (s.modFab (fun f => { f with trained := kvDel lane f.trained }))

/-! ### Route weights (R426) -/

/-- ROUTE_WEIGHT_TICK: each link's use of its slots over the last ms is compared with the mean over the links of each route entry, and its
weight moves by 1/16 toward 1 + (u − ū), within 0.5 to 2.0. Frozen with the placement unit of partition 0. -/
def execRouteWeightTick (s : State) : Host.Outcome State Fault Refusal :=
  let frozen := (s.trim 4 0).freeze
  let use := fun (x : Link) => min 1000000 (x.busyNs / 84000)     -- share of 1 ms in 1/1,000,000
  let move := fun (t : State) (l : Nat) =>
    -- the link is moved once for each route entry that holds it and another link list; equal lists are one entry's comparison
    let lists := ((t.fab.routes.map (fun r => r.2.links.filterMap s.laneOf)).eraseDups).filter (fun ls => ls.contains l)
    lists.foldl (fun (t : State) ls =>
      let us := ls.filterMap (fun k => (s.link? k).map use)
      let mean : Int := (((us.foldl (· + ·) 0) / (max 1 us.length) : Nat) : Int)
      match s.link? l with
      | none => t
      | some x =>
        let target : Int := 1000 + ((((use x : Nat) : Int) - mean) / 1000)
        t.modLink l (fun y => { y with weight := (max 500 (min 2000 (((y.weight : Nat) : Int) + (target - ((y.weight : Nat) : Int)) / 16))).toNat })) t
  let s1 := if frozen then s else (s.fab.links.map (fun x => x.1)).foldl move s
  .next (s1.modFab (fun f => { f with links := kvMapVals (fun _ (x : Link) => { x with busyNs := 0 }) f.links }))

end Sys2Proof.Machine
end

