-- ==== Sys2Proof/Machine/Faults.lean ====
section
/-! DEFINITION. Faults and containment (spec/16): what holds work on a unit, the requeue of a phase and its limit (R403 to R405), fencing by
unit kind (Table 16.2), detectors and ECC errors, restoring a unit (R412), the event registers, clearing counters, and the drogue's
registers (R413, R414). -/

namespace Sys2Proof.Machine

/-! ### Units (Table 16.6) -/

/-- Number of units of a kind. -/
def unitCount (kind : Nat) : Nat := [128, 16, 8, 8, 8, 4, 4096, 256, 16, 256, 1024, 2, 1, 1].getD kind 0

/-- Whether a kind and number name a unit. -/
def unitOk (kind unit : Nat) : Bool := decide (unit < unitCount kind)

/-! ### Requeue (R403 to R405) -/

/-- A query whose deadline has passed at the boundary that is now: it is vented, not requeued (R150). -/
def State.dueQuery (s : State) (rid : Nat) : Option Query :=
  (kvGet? rid s.queries).bind (fun q => if s.atBoundary q.part && decide (q.deadline ≤ s.now) && !s.contested rid then some q else none)

/-- Requeue the phase of a request, before those of its cluster that have not started (R401): counted; the fourth requeue ends it with
`ABORTED_FENCE` (R404). A request of a partition under reset is left to its reset (R405). -/
def State.requeue (s : State) (rid : Nat) : State :=
  match kvGet? rid s.recs with
  | none => s
  | some r =>
    if s.pstate r.part = stResetting then s
    else match s.dueQuery rid with
    | some q => s.vent rid q
    | none =>
      if 3 < r.restarts + 1 then s.cutShort rid scFence
      else ((s.modRec rid (fun x => { x with restarts := x.restarts + 1 })).modFlt (fun t => { t with ahead := t.ahead ++ [rid] })).bump cFltRequeued 1

/-- Requests that may hold a phase on a core, sequencer or gather/scatter engine of cluster `n`: those under way whose partition lists it. -/
def State.onCluster (s : State) (n : Nat) : List Nat :=
  (s.recs.filter (fun r => decide (r.2.phase = .running) && bitOf (s.pcfg r.2.part).clusterMask n)).map (fun r => r.1)

/-- Those of them that held one on the unit that failed; which did is free. -/
def State.heldOn (s : State) (n : Nat) : List Nat × State :=
  ((s.onCluster n).filter (fun rid => Config.holdsPhase s.free rid), (s.putFree (s.free + 1)))

/-- The partition a set of aborted requests affects: the only one, or 0xFF for none or many (Table 16.5). -/
def affected (ps : List Nat) : Nat := match ps.eraseDups with | [p] => p | _ => 0xFF

/-- Partitions of which requests have ended between two states. -/
def State.endedSince (s0 s : State) : List Nat := (s0.recs.filter (fun r => (kvGet? r.1 s.recs).isNone)).map (fun r => r.2.part)

/-- Requests that need cores of a partition with no working cluster end with `ABORTED_FENCE` (R404). -/
def State.abortClusterless (s : State) : State :=
  let mine := (s.recs.filter (fun r => decide (r.2.phase = .running) && s.clustersGone r.2.part &&
    ((kvGet? r.1 s.queries).isSome || (kvGet? r.1 s.builds).isSome || (kvGet? r.1 s.emb.lookups).isSome || (kvGet? r.1 s.emb.updates).isSome))).map (fun r => r.1)
  mine.foldl (fun (t : State) rid => t.cutShort rid scFence) s

/-! ### Fencing by kind -/

/-- Requests whose lists lie on a selection unit. -/
def State.listOwners (s : State) (u : Nat) : List Nat := ((s.sel u).lists.filterMap (fun l => l.2.owner)).eraseDups

/-- A list as it was opened, with entries to begin with. -/
def SelList.reopened (l : SelList) (es : List SelEntry) : SelList :=
  { owner := l.owner, k := l.k, higher := l.higher, fp := l.fp, dedup := l.dedup, entries := es }

/-- A query as it stood when the phase that feeds its pool began: its beams run again, and its delta candidates are offered again where the pool
does not hold them from before. -/
def State.poolAgain (s : State) (q : Query) : Query :=
  { q with
    visited := [], beams := [], streamed := false, gathered := q.gath0
    delta := q.retried || (s.stageOf q.part 4).isNone || !(s.searched q.part q.epoch).any (fun g => g.2.delta)
    todo := [3, 5, 6].filter (fun k => (s.stageOf q.part k).isSome) }

/-- Run the phase again that fed a list which was discarded, and open the list again in the cluster of `u` (R262): a query's pool and the merge of
its shards are fed again from the beginning; any other list opens empty, and the commands of its phase come again. -/
def State.restartList (s : State) (u lid : Nat) (l : SelList) : State :=
  match l.owner.bind (fun rid => (kvGet? rid s.queries).map (fun q => (rid, q))) with
  | none => (s.selOpen u lid (l.reopened [])).1
  | some (rid, q) =>
    if lid = poolLid rid then ((s.modQuery rid s.poolAgain).selOpen u lid (l.reopened q.pool0)).1
    else if lid = mergeLid rid then ((s.modQuery rid (fun x => { x with mergedN := 0 })).selOpen u lid (l.reopened [])).1
    else (s.selOpen u lid (l.reopened [])).1

/-- Discard the open lists of a selection unit and restart the phases that fed them, in the cluster that `home` gives for a partition (R262). -/
def State.moveLists (s : State) (u : Nat) (home : Nat → Nat) : State :=
  let x := s.sel u
  let s := s.modSel u (fun y => { y with lists := [] })
  let s := if x.lists.isEmpty then s else s.bump (cCluSelBusyNs (u / 2) (u % 2)) (s.now - x.since)
  x.lists.foldl (fun (t : State) l => t.restartList (match s.listPart l.2 with | some p => home p | none => u) l.1 l.2) s

/-- Fence a selection unit (R262). -/
def State.fenceSel (s : State) (u : Nat) : State :=
  let rs := s.listOwners u
  let s := (s.moveLists u (fun _ => u)).selServe (u / 2)
  (rs.foldl State.requeue s).resume

/-- Fence a cluster: what it held goes to other clusters of each partition's mask. -/
def State.fenceCluster (s : State) (n : Nat) : State :=
  let (rs, s) := s.heldOn n
  let rs := (rs ++ s.listOwners (2 * n) ++ s.listOwners (2 * n + 1)).eraseDups
  let s := ((s.moveLists (2 * n) s.homeUnit).moveLists (2 * n + 1) s.homeUnit)
  ((rs.foldl State.requeue s).abortClusterless).resume

/-- The jobs of a partition that array `a` drops when it is fenced: those of the phase it breaks off, from its first instruction, and those
still queued (R226, R245). -/
def ArrUnit.dropped (u : ArrUnit) (p : Nat) : List ArrJob :=
  kvGetD [] p u.phase ++ (match u.run with
    | some r => if r.part = p then [{ part := p, rid := r.rid.getD 0, desc := r.desc }] else []
    | none => []) ++ u.queueOf p

/-- The requests of a partition whose phase at an array has begun: instructions of it have ended or run, or a model's run of it has come to a layer. -/
def ArrUnit.begun (u : ArrUnit) (p : Nat) : List Nat :=
  ((kvGetD [] p u.phase).map (fun j => j.rid) ++ (u.run.toList.filter (fun r => r.part == p)).filterMap (fun r => r.rid) ++
    ((u.model.toList ++ u.held).filter (fun m => m.part == p)).map (fun m => m.rid)).eraseDups

/-- What becomes of the work of partition `p` that a fenced array `a` dropped (R245): it goes to another array of the partition's mask that is not
fenced, where it competes (R154), a phase that had begun being counted as run again, and its request requeued (R404); where none remains its tokens carry
`ABORTED_FENCE`. -/
def State.moveArrWork (s : State) (a : Nat) (u : ArrUnit) (p : Nat) : State :=
  let js := u.dropped p
  match [0, 1, 2, 3].find? (fun b => b != a && bitOf (s.pcfg p).arrayMask b && !s.isFenced 5 b) with
  | some b =>
    let s0 := s
    let s := s.modArr b (fun x => { x with queue := kvPut p (x.queueOf p ++ js) x.queue })
    let s := s0.newWork (((js.map (fun j => j.rid)).eraseDups).foldl (fun (t : State) rid => t.addArrWork p rid) s)
    let again := u.begun p
    let s := if again.isEmpty then s else s.bump (cMxaFencedRestarts a) again.length
    let s := again.foldl State.requeue s
    s.arrGo b
  | none => s.putAtokens (s.atokens ++ js.map (fun j => j.token a scFence))

/-- Whether array work of a request goes on without arrays: queries settle it themselves, inserts and imports project on cores (R245), and builds
end by their own rule (R277). -/
def State.worksOnCores (s : State) (rid : Nat) : Bool :=
  match kvGet? rid s.recs with
  | some r => [0x10, 0x20, 0x22, 0x23].contains r.cmd.opcode
  | none => true

/-- The builds under way when array `a`, which partition `o` owned, is fenced (R277): one with no array left ends FAILED, and the phase of one that
used the array runs again on another. -/
def State.fenceBuilds (s : State) (a : Nat) (o : Option Nat) : State :=
  (s.builds.filter (fun b => b.2.started.isSome)).foldl (fun (t : State) b =>
    if t.arraysGone b.2.part then t.fail b.2.part b.1 scFence
    else if o = some b.2.part ∧ (bitOf b.2.arrays a = true ∨ s.buildTakes a (b.2.part, b.1) = true) then (t.bump (cMxaFencedRestarts a) 1).requeue b.1
    else t) s

/-- Fence an array (R245): its instruction and those queued are abandoned, it leaves the rotation without power, and the phases it broke
off run again elsewhere. What needs an array of a partition with none left ends with `ABORTED_FENCE`. -/
def State.fenceArray (s : State) (a : Nat) : State :=
  let u := s.arrUnit a
  let o := (s.share a).owner
  let s := s.modArr a (fun _ => { wrote := u.wrote })
  let s := (s.arrRelease a).modShare a (fun x => { x with fenced := true, powered := false })
  let s := (s.powerDomain (8 + a) false).setFld (rNodeDomainStatus (8 + a)) fNodeDomainStatus_FENCED 1
  let ps := ((s.parts.map (fun x => x.1)).filter (fun p => !(u.dropped p).isEmpty || !(u.begun p).isEmpty))
  let s := ps.foldl (fun (t : State) p => t.moveArrWork a u p) s
  let gone := (s.arrWork.filter (fun w => s.arraysGone w.1 && !s.worksOnCores w.2)).map (fun w => w.2)
  ((gone.foldl (fun (t : State) r => t.cutShort r scFence) s).fenceBuilds a o).resume

/-- Requests whose bank command runs on a channel. -/
def State.bankHolders (s : State) (c : Nat) : List Nat := (((s.chan c).run.bind (fun r => r.job.rid)).map (fun r => [r])).getD []

/-- Fence the bank engine of a channel (R197, R400). -/
def State.fenceEngine (s : State) (c : Nat) : State :=
  if (s.chan c).state = 5 ∨ (s.chan c).state = 6 then s
  else (s.bankHolders c).foldl State.requeue (s.bankFence c)

/-- Every byte that an object holds in a range is damaged (R402). -/
def State.damageObjects (s : State) (a len : Nat) : State :=
  let hit := s.mem.allocs.filter (fun x => decide (x.1 < a + len ∧ a < x.1 + x.2.len))
  s.modMem (fun m => hit.foldl (fun (d : MemSys) x => d.damage (max a x.1) (min (a + len) (x.1 + x.2.len) - max a x.1)) m)

/-- Fence a Tier A channel (R402): held accesses fail, every byte of an object in it is damaged, its engines are fenced with it, and the
commands of its open tags run again over what can be read. -/
def State.fenceChannel (s : State) (c : Nat) : State :=
  let s := s.damageObjects (c * 2 ^ 31) (2 ^ 31)
  let s := s.modChan c (fun x => { x with holds := [], excess := [], pend := [] })
  let rs := s.bankHolders c
  let s := if (s.chan c).state = 5 then s else s.bankFence c
  let s := s.modChan c (fun x => { x with
    state := 6
    tags := x.tags.map (fun t => t.cmds.foldl (fun (y : BTag) j => s.tagRun c j y) { t with lists := [], cmds := [] }) })
  (rs.foldl State.requeue s).bankStart c 257

/-- The crystal input is fenced: holdover begins (R42), and the logbook takes a TIME record. -/
def State.enterHoldover (s : State) (src : Nat) : State :=
  if s.isFenced 12 0 then s else
  let s := ((s.setFld rNodeTimeStatus fNodeTimeStatus_HOLDOVER 1).setFld rNodeTimeStatus fNodeTimeStatus_HOLDOVER_SEEN 1).setFld rNodeTimeStatus fNodeTimeStatus_LOCKED 0
  let s := (s.modUnit 12 0 (fun u => { u with fenced := true })).reportFence src 12 0 0xFF 0
  s.logAppend lkTime (leBytes 8 0)

/-- Isolate a unit of kinds 0 to 7 and place its work again (Table 16.2). -/
def State.isolate (s : State) (kind unit : Nat) : State :=
  if kind = 0 then let (rs, s) := s.heldOn (unit / 16); rs.foldl State.requeue s
  else if kind = 1 then s.fenceSel unit
  else if kind = 2 ∨ kind = 3 then let (rs, s) := s.heldOn unit; rs.foldl State.requeue s
  else if kind = 4 then s.fenceCluster unit
  else if kind = 5 then s.fenceArray unit
  else if kind = 6 then s.fenceEngine (unit / 16)
  else s.fenceChannel unit

/-- Mark a unit of kinds 0 to 7 fenced, isolate it and report it: the event comes once the work is placed (Table 16.3). -/
def State.fenceOne (s : State) (src kind unit : Nat) : State :=
  let s0 := s.modUnit kind unit (fun u => { u with fenced := true })
  let s1 := s0.isolate kind unit
  s1.reportFence src kind unit (affected (s0.endedSince s1)) 0

/-- Fence a unit of Table 16.2 for a cause (SOURCE of Table 16.5), each kind in its own way; with its 16th core a cluster is fenced too. A
unit already fenced stays so. Tier B channels and the node are not such units. -/
def State.fenceUnit (s : State) (src kind unit : Nat) : State :=
  if !unitOk kind unit ∨ s.isFenced kind unit = true then s
  else if kind ≤ 7 then
    let s := s.fenceOne src kind unit
    let n := unit / 16
    if kind = 0 ∧ s.isFenced 4 n = false ∧ (List.range 16).all (fun i => s.isFenced 0 (16 * n + i)) = true then s.fenceOne src 4 n else s
  else if kind = 9 then s.fenceLane src unit
  else if kind = 10 then s.fenceLun unit
  else if kind = 12 then s.enterHoldover src
  else s

/-! ### Detection (R398, R399, R402, R406) -/

/-- STALL_DETECTOR_TIMEOUT: a unit's wait reaches its stall limit (R398, Table 16.2). A context pool is lost and reinitialised (R102). -/
def execStallDetectorTimeout (kind unit : Nat) (s : State) : Host.Outcome State Fault Refusal :=
  if kind = 11 ∧ unit < 2 then .next (s.losePool unit 0)
  else if kind ≤ 7 then .next (s.fenceUnit 0 kind unit) else .next s

/-- PARITY_ERROR: parity fails on the control state of a unit (R398). -/
def execParityError (kind unit : Nat) (s : State) : Host.Outcome State Fault Refusal :=
  if kind = 11 ∧ unit < 2 then .next (s.losePool unit 1)
  else if kind ≤ 7 then .next (s.fenceUnit 1 kind unit) else .next s

/-- The phase a request is in, by what it has still to do. -/
def State.phaseMark (s : State) (rid : Nat) : Nat :=
  match kvGet? rid s.queries with
  | some q => q.phase * 256 + q.todo.length
  | none => match kvGet? rid s.recs with
    | some r => (r.long.map (fun l => l.progress)).getD 0
    | none => 0

/-- An uncorrectable error in data that a request owns (R399): CONTAINED; its phase restarts once, and a second error in the same phase ends
it with `ABORTED_FENCE`. -/
def State.eccContained (s : State) (kind unit rid addr : Nat) : State :=
  match kvGet? rid s.recs with
  | none => s.event 1 3 kind 0 unit 0xFF addr
  | some r =>
    let m := s.phaseMark rid
    if r.eccAt = some m then (s.event 1 3 kind 4 unit r.part addr).cutShort rid scFence
    else (s.event 1 3 kind 0 unit r.part addr).modRec rid (fun x => { x with eccAt := some m })

/-- Bytes of memory that one uncorrectable error damages (DESIGN CHOICE: an aligned 64 bytes, the access unit of Table 12.1). -/
def eccBytes : Nat := 64

/-- An uncorrectable read from a memory channel (kind 7 or 8): reported, and its bytes damaged. A Tier A channel that returns more than 8
within 1 ms is fenced (R402). -/
def State.eccMemory (s : State) (kind unit rid addr : Nat) : State :=
  let part := ((kvGet? rid s.recs).map (fun r => r.part)).getD 0xFF
  let s := (s.modMem (fun m => m.damage (addr / eccBytes * eccBytes) eccBytes)).event 1 3 kind 0 unit part addr
  if kind = 7 then
    let l := ((kvGetD [] unit s.flt.badReads).filter (fun t => decide (s.now < t + 1000000))) ++ [s.now]
    let s := s.modFlt (fun t => { t with badReads := kvPut unit l t.badReads })
    if 8 < l.length then s.fenceUnit 3 7 unit else s
  else s

/-- An uncorrectable error that a bank engine meets in a sketch (R188): its bytes are damaged, and the sketch is dropped; where the running command
compares it, the error is reported as that command ends, otherwise now. -/
def State.eccEngine (s : State) (unit rid addr : Nat) : State :=
  let c := unit / 16
  let t := s.modMem (fun m => m.damage (addr / eccBytes * eccBytes) eccBytes)
  let more := match (s.chan c).run with
    | some r => decide ((s.engineDrops c r.job).length < (t.engineDrops c r.job).length)
    | none => false
  if more then t else t.event 1 3 6 0 unit (((kvGet? rid s.recs).map (fun r => r.part)).getD 0xFF) addr

/-- A flash page that failed decoding, which its block counts as a read needing retry (R338, R347): recovered by retry (0), which is no event; rebuilt
from parity (1), CORRECTED, unless its stripe has lost another page (R340); lost (2), so that reads of its unit fail. In the first two cases its block
is relocated. A block that needs retry on more than half of its reads is retired (R339). -/
def State.eccFlash (s : State) (what addr : Nat) : State :=
  match s.flash.placeOf (addr / 16384) with
  | none => s
  | some (lun, b, _) =>
    let move := fun (t : State) => t.relocate (t.flash.unitsOfBlock lun b)
    let k := s.flash.blk lun b
    let k : FBlock := { k with retries := min 0xFFFF (k.retries + 1), reads := max k.reads (min 0xFFFF (k.retries + 1)) }
    let s := (s.bump cFtlRetryReads 1).modFlash (fun f => { f with blocks := kvPut (blockKey lun b) k f.blocks })
    let s := if what = 0 then move s else
      let t := s.modFlash (fun f => match kvGet? (addr / 16384) f.map with | some x => { f with badPages := f.badPages ++ [x] } | none => f)
      if what = 1 ∧ t.flash.unitLoss (addr / 16384) ≠ 2 then (move (t.bump cFtlParityRebuilds 1)).event 0 8 10 0 lun 0xFF 0
      else t.modMem (fun m => m.damage (addr / 16384 * 16384) 16384)
    if k.reads < 2 * k.retries then s.retireBlock lun b else s

/-- ECC_ERROR: an error that ECC finds at a unit (R399): corrected (0), uncorrectable in data of request `rid` (1), uncorrectable in the
unit's own control state (2), at node address `addr`. Memory channels, flash and context pools have rules of their own (R402, R338, R102);
with kind 13, state 2 is MSD firmware or the map journal, which is FATAL (R406). -/
def execEccError (kind unit what rid addr : Nat) (s : State) : Host.Outcome State Fault Refusal :=
  if !unitOk kind unit then .next s
  else if kind = 10 then .next (s.eccFlash what addr)
  else if what = 0 then .next (s.event 0 2 kind 0 unit 0xFF addr)
  else if kind = 11 then .next (s.losePool unit 3)
  else if kind = 13 then .next (if what = 2 then s.fatalStop 3 13 0 else s.eccContained kind unit rid addr)
  else if kind = 7 ∨ kind = 8 then
    if what = 1 then .next (s.eccMemory kind unit rid addr) else .next (s.fenceUnit 3 kind unit)
  else if what = 1 then .next (if kind = 6 then s.eccEngine unit rid addr else s.eccContained kind unit rid addr)
  else .next (s.fenceUnit 3 kind unit)

/-- TIER_A_CHANNEL_FENCE: the channel's PHY loses lock and does not retrain, its controller stalls, or it returns too many uncorrectable
reads (R402). -/
def execTierAChannelFence (c : Nat) (s : State) : Host.Outcome State Fault Refusal := .next (s.fenceUnit 7 7 c)

/-- TIER_B_CHANNEL_LOST: every byte of the channel is damaged, and the map entries it held are rebuilt from the journal, so no command
loses one (R406). -/
def execTierBChannelLost (c : Nat) (s : State) : Host.Outcome State Fault Refusal :=
  if 16 ≤ c ∨ s.isFenced 8 c = true then .next s else
  let s := (s.modUnit 8 c (fun u => { u with fenced := true })).modMem (fun m => { m with lostB := m.lostB ++ [c] })
  .next (s.reportFence 7 8 c 0xFF 0)

/-- DIE_LINK_LOST: a die-to-die link is lost beyond its spare lanes, and the node stops (R406). -/
def execDieLinkLost (_link : Nat) (s : State) : Host.Outcome State Fault Refusal := .next (s.fatalStop 7 13 0)

/-! ### FLT_UNIT_CTL (R398, R412) -/

/-- Write `FLT_UNIT_CTL` with an operation; GO reads 1 while `busy`. -/
def State.putUnitCtl (s : State) (op kind unit : Nat) (busy : Bool) : State :=
  s.setReg rFltUnitCtl (packFields [(fFltUnitCtl_OP, op), (fFltUnitCtl_GO, busy.toNat), (fFltUnitCtl_KIND, kind), (fFltUnitCtl_UNIT, unit)])

/-- Whether an operation may start: the node has not stopped (R407) and no restore runs (GO reads 1 until it is done). -/
def State.unitCtlFree (s : State) : Bool := !s.flt.stopped && s.fld rFltUnitCtl fFltUnitCtl_GO == 0

/-- What a write of `FLT_UNIT_CTL` leaves that finds GO set: OP, KIND and UNIT take their values, and no second operation starts (R17). A node
that has stopped takes no write (R407). -/
def State.selectOnly (s : State) (op kind unit : Nat) : State := if s.flt.stopped then s else s.putUnitCtl op (kind % 16) (unit % 4096) true

/-- The outcome of the last operation on a unit. -/
def State.opResult (s : State) (kind unit : Nat) (failed : Bool) : State := s.modUnit kind unit (fun u => { u with opFailed := failed })

/-- Kinds of Table 16.2 that an operation can fence. -/
def fenceable (kind : Nat) : Bool := decide (kind ≤ 7) || kind == 9 || kind == 10 || kind == 11 || kind == 12

/-- Fence the selected unit for DECLARE (source 5) or INJECT (source 6); a context pool is lost (R102). -/
def State.declare (s : State) (src kind unit : Nat) : State :=
  if kind = 11 then s.losePool unit src else s.fenceUnit src kind unit

/-- UNIT_DECLARE: a physical function declares the selected unit faulty, and it is fenced (R398); a selection that names no fenceable unit
is refused. -/
def execUnitDeclare (kind unit : Nat) (s : State) : Host.Outcome State Fault Refusal :=
  if !s.unitCtlFree then .next (s.selectOnly 1 kind unit) else
  let s := s.putUnitCtl 1 (kind % 16) (unit % 4096) false
  if fenceable kind && unitOk kind unit then .next ((s.declare 5 kind unit).opResult kind unit false) else .next (s.opResult (kind % 16) (unit % 4096) true)

/-- UNIT_INJECT: with INJECT_EN a real fault is forced into the selected unit, otherwise the operation is refused (R412). -/
def execUnitInject (kind unit : Nat) (s : State) : Host.Outcome State Fault Refusal :=
  if !s.unitCtlFree then .next (s.selectOnly 3 kind unit) else
  let s := s.putUnitCtl 3 (kind % 16) (unit % 4096) false
  if fenceable kind && unitOk kind unit && s.fld rFltCfg fFltCfg_INJECT_EN == 1 then .next ((s.declare 6 kind unit).opResult kind unit false)
  else .next (s.opResult (kind % 16) (unit % 4096) true)

/-- UNIT_RESTORE: the self test of a fenced unit starts, GO reading 1 until it ends; refused for a unit that is locked out, not fenced, or
that returns by another rule: lanes, LUNs, pools, the crystal and Tier B channels (R412). -/
def execUnitRestore (kind unit : Nat) (s : State) : Host.Outcome State Fault Refusal :=
  if !s.unitCtlFree then .next (s.selectOnly 2 kind unit) else
  let ok := decide (kind ≤ 7) && unitOk kind unit && s.isFenced kind unit && !(s.funit kind unit).locked
  let s := s.putUnitCtl 2 (kind % 16) (unit % 4096) ok
  if ok then .next (s.modUnit kind unit (fun u => { u with restoring := true, opFailed := false })) else .next (s.opResult (kind % 16) (unit % 4096) true)

/-- A channel whose engines all work again leaves CORE_FALLBACK, and runs its next descriptor on them (R412). -/
def State.restoreEngines (s : State) (c : Nat) : State :=
  if s.isFenced 7 c ∨ (List.range 16).any (fun b => s.isFenced 6 (16 * c + b)) = true then s else
  let s := s.modChan c (fun x => { x with state := 0, idle := s.now })
  let s := if (s.chan c).jobs.isEmpty && (s.chan c).run.isNone then s else (s.modChan c (fun x => { x with state := 2 })).bump (cBkeChSwitches c) 1
  s.bankStart c 257

/-- What a restored unit does (R412). -/
def State.restored (s : State) (kind unit : Nat) : State :=
  if kind = 1 then s.selServe (unit / 2)
  else if kind = 4 then s.resume
  else if kind = 5 then
    ((s.modShare unit (fun x => { x with fenced := false })).setFld (rNodeDomainStatus (8 + unit)) fNodeDomainStatus_FENCED 0).resume
  else if kind = 6 then s.restoreEngines (unit / 16)
  else if kind = 7 then
    let s := (s.hide (unit * 2 ^ 31) (2 ^ 31)).modFlt (fun t => { t with badReads := kvDel unit t.badReads })
    if (List.range 16).any (fun b => s.isFenced 6 (16 * unit + b)) then s.modChan unit (fun x => { x with state := 5 }) else s.restoreEngines unit
  else s

/-- UNIT_RESTORE_DONE: the self test ends: the unit returns to service, or stays fenced; a second failure within 24 hours locks it out until
node reset. Either way the event says so (R412). -/
def execUnitRestoreDone (kind unit : Nat) (pass : Bool) (s : State) : Host.Outcome State Fault Refusal :=
  if !(s.funit kind unit).restoring then .next s else
  let s := s.setFld rFltUnitCtl fFltUnitCtl_GO 0
  if pass then
    let s := s.modUnit kind unit (fun u => { u with fenced := false, restoring := false, opFailed := false })
    .next (((s.bump cFltRestores 1).event 2 5 kind 2 unit 0xFF 0).restored kind unit)
  else
    let again := match (s.funit kind unit).failAt with | some t => decide (s.now < t + 86400000000000) | none => false
    let s := s.modUnit kind unit (fun u => { u with restoring := false, opFailed := true, failAt := some s.now, locked := u.locked || again })
    .next (s.event 2 5 kind 3 unit 0xFF 0)

/-! ### Events and counters (R408, R411) -/

/-- FLT_EVT_POP: the function's oldest unread record is read (R411). -/
def execFltEvtPop (pf : Nat) (s : State) : Host.Outcome State Fault Refusal :=
  if s.flt.stopped then .next s
  else if pf = 0 then .next (s.modFlt (fun t => { t with ring0 := t.ring0.drop 1 })) else .next (s.modFlt (fun t => { t with ring1 := t.ring1.drop 1 }))

/-- Counters of a block that are saturated now. -/
def State.satNow (s : State) (b : Nat) : Nat := (s.ctrs.filter (fun c => blockIndex (c.1 % 2 ^ 32) == some b && c.2 == 2 ^ 48 - 1)).length

/-- Where the counter at an offset is kept: the copies of the `EMB_T_` counters by the selected table (Table 11.12), `TRM_UNIT_ACTIONS` by the
selected unit, each as physical function 0 selects it. -/
def State.ctrKey (s : State) (off : Nat) : Nat :=
  if [cEmbTLookupRows, cEmbTUniqueRows, cEmbTInvalid, cEmbTContribs, cEmbTApplied, cEmbTLate, cEmbTAccumFull, cEmbTForwarded].contains off then
    tableCtr (s.fldPf 0 rEmbTsel fEmbTsel_TABLE_ID) off
  else if off = cTrmUnitActions then tableCtr (s.fldPf 0 rTrmSel fTrmSel_LOOP * 512 + s.fldPf 0 rTrmSel fTrmSel_UNIT) off
  else off

/-- CTR_CLEAR_ONE: one counter of a block is cleared; where it was saturated, the block counts one saturated counter less (R408, Table
16.17). An offset that names no counter does nothing. -/
def execCtrClearOne (block offset : Nat) (s : State) : Host.Outcome State Fault Refusal :=
  if s.flt.stopped ∨ 27 ≤ block then .next s else
  let off := blockBase block + offset
  if blockIndex off ≠ some block ∨ isCounter off = false then .next s else
  let s := s.setCtr (s.ctrKey off) 0
  .next (s.setFld (rFltSat block) fFltSat_SATURATED (min 0xFFFF (s.satNow block)))

/-- CTR_CLEAR_ALL: every counter of a block and its `FLT_SATb` are cleared (R408). -/
def execCtrClearAll (block : Nat) (s : State) : Host.Outcome State Fault Refusal :=
  if s.flt.stopped ∨ 27 ≤ block then .next s else
  .next ((s.putCtrs (s.ctrs.filter (fun c => blockIndex (c.1 % 2 ^ 32) != some block))).setReg (rFltSat block) 0)

/-! ### The drogue's registers (R413, R414) -/

/-- SNP_TRIGGER: the host-write source fires (Table 16.7). -/
def execSnpTrigger (s : State) : Host.Outcome State Fault Refusal := if s.flt.stopped then .next s else .next (s.drogue 0 0).1

/-- SNP_ARM: setting ARMED discards the copies held (R414). -/
def execSnpArm (s : State) : Host.Outcome State Fault Refusal :=
  if s.flt.stopped then .next s else
  .next ((((s.modFlt (fun (t : Faults) => { t with snap := none })).setFld rSnpCtl fSnpCtl_ARMED 1).setReg rSnpStatus 0).setReg rSnpInfo 0)

/-- SNP_VIEW_WRITE: the function reads the copies, or live values again (R414). -/
def execSnpViewWrite (pf : Nat) (view : Bool) (s : State) : Host.Outcome State Fault Refusal :=
  if s.flt.stopped then .next s else .next (s.setFldPf pf rSnpCtl fSnpCtl_VIEW view.toNat)

end Sys2Proof.Machine
end

