-- ==== Sys2Proof/Machine/Load.lean ====
section
/-! DEFINITION. BRIDLE_LOAD (spec/02): the order of Table 2.11, the effect of step 13 (R74 to R82), rejection, and the resets of a full
load (R77). -/

namespace Sys2Proof.Machine

/-! ### Rejection (R71, R72, R83) -/

/-- The status that a reason completes with (Table 2.11). -/
def imgStatus (reason : Nat) : Nat :=
  if reason = 0x0B then scNotBridled else if reason = 0x19 ∨ reason = 0x1A then scQuota else scBadCommand

/-- `NODE_BRIDLE_ERR` of a failure. -/
def ImgErr.word (e : ImgErr) : Word :=
  packFields [(fNodeBridleErr_RECORD_INDEX, e.index), (fNodeBridleErr_RECORD_TYPE, e.type), (fNodeBridleErr_PARTITION, e.part), (fNodeBridleErr_REASON, e.reason)]

/-- PROGRESS through step 9: the bytes checked as a share of IMAGE_LENGTH, of 900,000 (R71). -/
def walkProgress (bs : List Byte) (left : Nat) : Nat := 900000 * (bs.length - left) / max 1 bs.length

/-- Put the PROGRESS of a long operation. -/
def State.setProgress (s : State) (rid n : Nat) : State :=
  s.modRec rid (fun r => { r with long := r.long.map (fun l => { l with progress := n }) })

/-- The records of a rejection that was never measured: `NODE_BRIDLE_ERR`, REJECTED and the logbook's record (R72, R73, R83). -/
def State.noteReject (s : State) (bs : List Byte) (e : ImgErr) : State :=
  ((s.setReg rNodeBridleErr e.word).setFld rNodeBridleStatus fNodeBridleStatus_REJECTED 1).logImage 2 e.reason bs

/-- Reject a load: the failure is shown in `NODE_BRIDLE_ERR`, REJECTED is set, and the command completes with the status of its reason;
RESULT0 is the serial of a header that passed step 2. Nothing else changes (R72). -/
def State.rejectLoad (s : State) (p rid : Nat) (bs : List Byte) (e : ImgErr) : State :=
  let s := match s.load with
    | some l => if l.rid = rid then
        (((((s.setReg rNodeBridleErr e.word).setFld rNodeBridleStatus fNodeBridleStatus_REJECTED 1).settleEntry l.entry 1).logImage 1 e.reason bs)).dropLoad
      else s.noteReject bs e
    | none => s.noteReject bs e
  ((s.complete p rid (imgStatus e.reason) 0 0 (if e.reason ≤ 4 then 0 else imgSerial bs) e.word.toNat []).releaseHeld).resume

/-! ### Step 13 -/

/-- Put a field that the image sets and owns (R17, R74). -/
def State.setOwnedFld (s : State) (off : Nat) (f : Fld) (v : Nat) : State :=
  ((s.setFld off f v).putOwned ((ownKey off f :: s.owned).eraseDups))

/-- Give up ownership of fields. -/
def State.disown (s : State) (keys : Nat → Bool) : State := s.putOwned (s.owned.filter (fun k => !keys k))

/-- The per-partition RW registers, queue pages and window words of a partition that is added or removed go back to their reset values
(R74); the queue pair that a load's completion still needs, and the MSI-X tables of the physical functions, stay. -/
def State.clearPartRegs (s : State) (p : Nat) (keep : Option Nat) : State :=
  let s := [rPrtBwA p, rPrtBwB p, rPrtBwF p, rPrtServeCfg p, rPrtSearchCfg p, rPrtDeltaCfg p].foldl (fun (t : State) o => t.setReg o (regDefault o)) s
  let s := (s.setFld (rPrtCtl p) fPrtCtl_QUIESCE 0).setFld (rPrtCtl p) fPrtCtl_SCRUB 0
  let s := s.putQueues (s.queues.filter (fun x => x.1 / 64 != p || some x.1 == keep))
  if p = 0 ∨ p = 32 then s else s.putWinReg (s.winReg.filter (fun w => w.1 / 0x100000 != p))

/-- Replace the load-time areas of the partitions in scope: regions kept by the new image keep their contents, everything else that is
released or placed reads zero (R67, R182, R208). -/
def State.placeLoad (s : State) (bs : List Byte) (areas : List (Nat × Nat × Nat)) : State :=
  let isKept := fun (a : Nat × Alloc) => a.2.kind == .protected7 && areas.any (fun x => x.1 == a.1 && x.2.1 == a.2.len && x.2.2 % 4 == 0 && some (x.2.2 / 4) == a.2.part)
  let old := s.mem.allocs.filter (fun x => x.2.atLoad && (match x.2.part with | some p => imgScope bs p | none => false))
  let s := old.foldl (fun (t : State) a => if isKept a then t else t.modMem (fun m => m.clear a.1 a.2.len)) (s.liftAreas bs)
  let s := areas.foldl (fun (t : State) x =>
    let t := if old.any (fun a => a.1 == x.1 && isKept a) then t else t.modMem (fun m => m.clear x.1 x.2.1)
    t.putArea (x.2.2 / 4) (x.2.2 % 4) x.1 x.2.1) s
  let s := s.putCorpora (kvMapVals (fun p (c : Corpus) => if imgScope bs p then { c with tombArea := none } else c) s.corpora)
  areas.foldl (fun (t : State) x =>
    if x.2.2 % 4 = 1 then t.modChan (x.1 / 2 ^ 31) (fun c => { c with ring := some x.1, written := [], pend := [] })
    else if x.2.2 % 4 = 2 then t.modCorpus (x.2.2 / 4) (fun c => { c with tombArea := some x.1 }) else t) s

/-- The read-only tensor over the ring areas of a partition (R186). -/
def State.ringTensor (s : State) (p : Nat) : State :=
  let i := 1048575 - p
  let areas := s.bank.filterMap (fun x => if bitOf (s.pcfg p).procChannels x.1 then x.2.ring else none)
  let s := match kvGet? i s.mem.tensors with
    | some t => s.modMem (fun m => { m with tensors := kvDel i m.tensors, gens := kvPut i ((t.gen + 1) % 2 ^ 38) m.gens })
    | none => s
  match areas with
  | [] => s
  | a :: _ =>
    let t : Tensor := { gen := kvGetD 0 i s.mem.gens, part := p, addr := a, bytes := areas.length * ringLen, holder := .ring, migrating := false, dying := false }
    s.modMem (fun m => { m with tensors := kvPut i t m.tensors })

/-- The channel registers (Table 6.10) and channels that change hands: a full image owns the owner of every channel, a partial image
those of the partitions in scope (R75). -/
def State.assignChannels (s : State) (bs : List Byte) (old : Nat → Nat) (ps : List (Nat × PartCfg)) : State :=
  (List.range 256).foldl (fun (t : State) c =>
    let was := (List.range 64).any (fun p => imgScope bs p && bitOf (old p) c)
    let owner := ps.find? (fun x => bitOf x.2.procChannels c)
    if imgKind bs ≠ 0 ∧ was = false ∧ owner = none then t
    else
      let off := rBkeChCfg c
      let t := t.disown (fun k => k / 64 == off)
      let t := (t.setOwnedFld off fBkeChCfg_OWNER_VALID owner.isSome.toNat).setOwnedFld off fBkeChCfg_OWNER ((owner.map (fun x => x.1)).getD 0)
      let t := match owner with
        | some x => t.setOwnedFld off fBkeChCfg_HOLD_LIMIT_US x.2.holdLimit
        | none => t.setFld off fBkeChCfg_HOLD_LIMIT_US 0
      let ch := t.chan c
      let same : Bool := match owner with | some x => bitOf (old x.1) c | none => false
      let t := if same || ch.state == 0 || ch.state == 5 || ch.state == 6 then t else t.chanBack c
      if same || (kvGet? c t.bank).isNone then t else t.modChan c (fun x => { x with ring := none, written := [], tags := [], pend := [] })) s

/-- An array's unit without the work of partitions that answer to a test; the work of others stays (R92), and so do the buffer ranges that
requests under way have written (R29). -/
def ArrUnit.without (u : ArrUnit) (f : Nat → Bool) : ArrUnit :=
  { u with
    run := u.run.filter (fun r => !f r.part), model := u.model.filter (fun m => !f m.part), held := u.held.filter (fun m => !f m.part)
    pend := u.pend.filter (fun x => !f x.1), queue := u.queue.filter (fun x => !f x.1), phase := u.phase.filter (fun x => !f x.1) }

/-- Arrays: none has an owner after a full load, and after a partial load none whose owner lies in its scope (R154); an array that no
partition lists loses power (R38). -/
def State.assignArrays (s : State) (bs : List Byte) : State :=
  [0, 1, 2, 3].foldl (fun (t : State) a =>
    let t := match (t.share a).owner with
      | some o => if imgKind bs ≠ 0 ∧ imgScope bs o = false then t else (t.arrRelease a).modArr a (fun u => u.without (imgScope bs))
      | none => t
    if t.parts.any (fun x => t.listsArray x.1 a) then t
    else (t.modShare a (fun x => { x with powered := false })).powerDomain (8 + a) false) s

/-- Own the settings of a trim unit: `TRM_UNIT_CFG` and `TRM_UNIT_LIMITS` of the unit. -/
def trimSettings (u d : TrimUnit) (r : Option BRec) : TrimUnit :=
  match r with
  | some r => { u with target := r.z 4, gain := r.f 8 2, lo := r.z 12, hi := r.z 16, owned := true }
  | none => { u with target := d.target, gain := d.gain, lo := d.lo, hi := d.hi, owned := false }

/-- The trim units (R415): a unit's own record, else the record of UNIT 0xFFFF, else the defaults; in a partial image, units of loops 3
and 4 of partitions in scope. -/
def State.assignTrims (s : State) (bs : List Byte) (rs : List BRec) : State :=
  [0, 1, 2, 3, 4].foldl (fun (t : State) l => (List.range (trimUnits l)).foldl (fun (t : State) u =>
    if imgKind bs ≠ 0 ∧ (l < 3 ∨ imgScope bs u = false) then t
    else
      let mine := rs.filter (fun r => r.type == 0x0103 && r.f 0 1 == l)
      let r := match mine.find? (fun r => r.f 2 2 == u) with
        | some r => some r
        | none => mine.find? (fun r => r.f 2 2 == 0xFFFF)
      if r = none ∧ (kvGet? (l * 512 + u) t.trims) = none then t
      else t.modTrim l u (fun x => trimSettings x (trimDefault l u) r)) t) s

/-- Key of the ownership of a calibration item's offset. -/
def calKey (item : Nat) : Nat := ownKey rTrmCalOffset fTrmCalOffset_U + (item + 1) * 2 ^ 40

/-- Calibration offsets of USER_CAL records (R56, R437). -/
def State.assignCal (s : State) (rs : List BRec) : State :=
  (rs.filter (fun r => r.type == 0x0104)).foldl (fun (t : State) r =>
    let t := t.setCal (r.f 0 4) (r.z 4) 1
    let t := t.putOwned ((calKey (r.f 0 4) :: t.owned).eraseDups)
    if calClamped (r.f 0 4) (r.z 4) then t.setFld rNodeBridleStatus fNodeBridleStatus_CAL_CLAMPED 1 else t) s

/-- The entry of a gate list in force `t` ns after a boundary, and the offset at which it began. -/
def gateAt (t : Nat) : List (Nat × Nat) → Nat → Nat → Nat × Nat
  | [], i, began => (i - 1, began)
  | [_], i, began => (i, began)
  | e :: rest, i, began => if t < began + e.2 then (i, began) else gateAt t rest (i + 1) (began + e.2)

/-- Gate lists of a full image, each at its place in the running period of its REF_PARTITION (R391). -/
def State.assignGates (s : State) (rs : List BRec) : State :=
  let gs := (rs.filter (fun r => r.type == 0x0304)).foldl (fun (m : KV GateState) r =>
    let per := (s.pcfg (r.f 1 1)).periodUs * 1000
    let start := if per = 0 then s.now else s.now / per * per
    let (e, b) := gateAt (s.now - start) r.gates 0 0
    kvPut (r.f 0 1) { list := { ref := r.f 1 1, entries := r.gates }, restart := start, entry := e, began := start + b } m) []
  s.modFab (fun f => { f with gates := gs })

/-- Node records of a full image: power limit (R48, R57), route seed and preset ID (R78, R366), trim units, calibration, gate lists.
Node-wide fields that no record sets keep their values and are not owned. -/
def State.assignNode (s : State) (bs : List Byte) (rs : List BRec) : State :=
  if imgKind bs ≠ 0 then s.assignTrims bs rs else
  let s := s.putOwned []
  let s := match rs.find? (fun r => r.type == 0x0101 && r.f 0 2 != 0) with
    | some r => (s.setOwnedFld rNodePowerLimit fNodePowerLimit_LIMIT_W (r.f 0 2)).setLimit (r.f 0 2)
    | none => s
  let s := (s.assignTrims bs rs).assignCal rs
  let s := s.assignGates rs
  match rs.find? (fun r => r.type == 0x0102) with
  | none => s
  | some r =>
    let before := (s.reg rFabRouteSeed, s.reg rFabPreset)
    let s := ((s.setOwnedFld rFabRouteSeed fFabRouteSeed_SEED (r.f 0 8)).setOwnedFld rFabPreset fFabPreset_PRESET (r.f 10 1)).setOwnedFld rFabPreset fFabPreset_NODE_ID (r.f 8 2)
    if (s.reg rFabRouteSeed, s.reg rFabPreset) = before then s else s.rejoin

/-- Step 13: the image takes effect as one change (R74 to R79). -/
def State.applyImage (s : State) (rid : Nat) (bs : List Byte) (rs : List BRec) (skipped : Nat) (areas : List (Nat × Nat × Nat)) : State :=
  let ps := imgParts rs
  let removed := s.removedParts bs rs
  let added := (ps.filter (fun x => !s.configured x.1)).map (fun x => x.1)
  let keep := (kvGet? rid s.recs).map (fun r => qKey r.part r.q)
  let oldCh := fun (p : Nat) => if s.configured p then (s.pcfg p).procChannels else 0
  let scope := ((s.parts.map (fun x => x.1)) ++ ps.map (fun x => x.1)).eraseDups.filter (imgScope bs)
  let before := s
  let s := (s.orphans bs rs ++ removed).eraseDups.foldl State.scrubData s
  let s := scope.foldl State.flowsReset s
  let s := (removed ++ added).foldl (fun (t : State) p => t.clearPartRegs p keep) s
  let s := scope.foldl (fun (t : State) p => t.modPart p (fun x => { x with cfg := (ps.find? (fun y => y.1 == p)).map (fun y => y.2.2) })) s
  let s := scope.foldl State.flowsReset s
  let s := s.putQueues (s.queues.filter (fun x => !imgScope bs (x.1 / 64) || decide (x.1 % 64 < s.sqCount (x.1 / 64)) || some x.1 == keep))
  let s := s.assignNode bs rs
  let s := s.assignChannels bs (fun p => if before.configured p then oldCh p else 0) (ps.map (fun x => (x.1, x.2.2)))
  let s := s.placeLoad bs areas
  let s := scope.foldl State.ringTensor s
  let s := s.assignArrays bs
  let s := ps.foldl (fun (t : State) x => if t.pstate x.1 = stUnconfigured then t.setPstate x.1 (t.restState x.1) else t) s
  let s := ((s.setFld rNodeBridleStatus fNodeBridleStatus_LOADED 1).setFld rNodeBridleStatus fNodeBridleStatus_LAST_KIND (imgKind bs)).setFld
    rNodeBridleStatus fNodeBridleStatus_SIG_VERIFIED (imgSigned bs).toNat
  let s := s.setFld rNodeBridleStatus fNodeBridleStatus_SKIPPED (min 0xFFFF skipped)
  let s := if imgKind bs = 0 then s.setReg rNodeBridleSerial (BitVec.ofNat 64 (imgSerial bs)) else s
  (match s.load with | some l => s.settleEntry l.entry 0 | none => s).logImage 0 0 bs

/-- The load completes: DONE, COUNT 1, RESULT0 the serial, RESULT1 `NODE_BRIDLE_STATUS` after step 13 (R71). -/
def State.finishLoad (s : State) (p rid : Nat) (bs : List Byte) : State :=
  let s := s.dropLoad
  s.done p rid 1 (imgSerial bs) (s.reg rNodeBridleStatus).toNat

/-! ### Full loads (R77) -/

/-- Begin the resets of a full load: every configured partition and partitions 0 and 32, the load itself exempt; a reset already under way
waits for the load from now on. -/
def State.beginFull (s : State) (p rid : Nat) : State :=
  let all : List Nat := ([0, 32] ++ (s.parts.filter (fun (x : Nat × Part) => x.2.cfg.isSome)).map (fun (x : Nat × Part) => x.1)).eraseDups
  all.foldl (fun (t : State) v => match (t.part v).rst with
    | some r => t.modPart v (fun x => { x with rst := some { r with load := true } })
    | none => t.resetBegin v false false true none (if v = p then some rid else none)) s

/-- Whether every reset that the load holds has reached the end of step 6. -/
def State.fullReady (s : State) : Bool :=
  s.parts.all (fun x => match x.2.rst with | some r => !r.load || (r.waiting.isEmpty && !r.scrubbing) | none => true)

/-- Let the resets that the load held go on to steps 7 and 8; a partition that the image removed sends no message. -/
def State.freeResets (s : State) (only : Nat → Bool) : State :=
  s.parts.foldl (fun (t : State) x => match (t.part x.1).rst with
    | some r => if r.load && only x.1 then
        (t.modPart x.1 (fun y => { y with rst := some { r with load := false, silent := r.silent || (!t.configured x.1 && x.1 != 0 && x.1 != 32) } })).resetGoOn x.1
      else t
    | none => t) s

/-- A full load whose partitions have all stopped: the image is applied, the other partitions go on, the completion is written, and the
issuing partition's reset goes on after it. -/
def State.applyFull (s : State) (p rid : Nat) (bs : List Byte) (rs : List BRec) (skipped : Nat) (areas : List (Nat × Nat × Nat)) : State :=
  let s := (s.applyImage rid bs rs skipped areas).freeResets (fun v => v != p)
  (s.finishLoad p rid bs).freeResets (fun _ => true)

/-! ### BRIDLE_LOAD -/

/-- Steps 7 and 8 of Table 2.11, after the header has passed: the image is measured; a partial image needs a full image of the serial it
names and quiesced partitions, which are LOADING from then on (R73, R80, R81). -/
def State.measureLoad (s : State) (p rid : Nat) (bs : List Byte) : State :=
  let l : Load := { rid := rid, image := bs, entry := s.sec.total, applying := false }
  let s := s.measure 16 9 2 p (imgSerial bs) (sha256 bs)
  let s := ((s.putLoad (some l))).setFld rNodeBridleStatus fNodeBridleStatus_LOADING 1
  let s := (s.modRec rid (fun r => { r with phase := .running })).setProgress rid (walkProgress bs (bs.length - imgFirst bs))
  if imgKind bs = 0 then s
  else
    let scope := (List.range 64).filter (bitOf (imgMask bs))
    if s.fld rNodeBridleStatus fNodeBridleStatus_LOADED = 0 then s.rejectLoad p rid bs { reason := 0x0B }
    else if imgBase bs ≠ 0 ∧ imgBase bs ≠ (s.reg rNodeBridleSerial).toNat then s.rejectLoad p rid bs { reason := 0x0C }
    else match scope.find? (fun v => !s.isQuiet v (some rid)) with
      | some v => s.rejectLoad p rid bs { reason := 0x0D, part := v }
      | none => scope.foldl (fun (t : State) v => if t.pstate v = stResetting then t else (t.setPstate v stLoading).modPart v id) s

/-- Whether a node address may hold the image: inside the issuer's Tier A or Tier B allocations (R71). -/
def State.imageAddrOk (s : State) (p a len : Nat) : Bool :=
  a / 2 ^ 63 % 2 == 0 || ((tierOf (a % 2 ^ 52) == some 0 || tierOf (a % 2 ^ 52) == some 1) && s.ownsRange p (a % 2 ^ 52) len)

/-- The checks of `BRIDLE_LOAD` under Table 4.2: RESULT_ADDR is 0, IMAGE_ADDR is aligned, and a node address is one that may hold the image (R71). -/
def State.loadCheck (s : State) (p : Nat) (c : HostCmd) : Option Nat :=
  if c.resultAddr ≠ 0 ∨ c.param 0 8 % 8 ≠ 0 then some scBadCommand
  else if s.imageAddrOk p (c.param 0 8) (c.param 8 4) = false then some scBadHandle
  else none

/-- BRIDLE_LOAD: begun, it makes steps 1 to 8 of Table 2.11 on its copy of the image; performed again while it runs, steps 9 to 13, and for a
full image that waits for the partitions to stop, the application once they have (R71, R72, R77). -/
def execBridleLoad (p q cid : Nat) (image : List Byte) (s : State) : Host.Outcome State Fault Refusal :=
  match s.readyRec p q cid 0x04 with
  | some (rid, r) =>
    let c := r.cmd
    let a := c.param 0 8
    let n := c.param 8 4
    if (r.long.map (fun l => l.running)) ≠ some true then .next s
    else if p ≠ 0 ∧ p ≠ 32 then .next (s.rejectLoad p rid [] { reason := 0x02 })
    else if let some st := (s.named r).loadCheck p c then .next (s.fail p rid st)
    else if s.load.isSome then .next (s.rejectLoad p rid [] { reason := 0x01 })
    else
      let (bs, s) := s.readInput p r.flow a (min n 16777224) image
      match s.headCheck bs n with
      | some reason => .next (s.rejectLoad p rid bs { reason := reason })
      | none => .next (s.measureLoad p rid bs)
  | none => match s.runningRec p q cid 0x04, s.load with
    | some (rid, _), some l =>
      if l.rid ≠ rid then .next s
      else if l.applying then
        match walk l.image with
        | .ok (rs, skipped) => if s.fullReady then .next ((s.applyFull p rid l.image rs skipped l.areas).resume) else .next s
        | .error _ => .next s
      else match s.checkImage l.image with
        | .error e => .next ((s.setProgress rid (match walk l.image with | .ok _ => 900000 | .error w => walkProgress l.image w.left)).rejectLoad p rid l.image e)
        | .ok (rs, skipped, areas) =>
          let s := s.setProgress rid 950000
          if imgKind l.image ≠ 0 then .next ((((s.applyImage rid l.image rs skipped areas).finishLoad p rid l.image).releaseHeld).resume)
          else
            let s := ((s.putLoad (some { l with applying := true, areas := areas }))).beginFull p rid
            if s.fullReady then .next ((s.applyFull p rid l.image rs skipped areas).resume) else .next s
    | _, _ => .next (s.lateEnd p q cid 0x04)

end Sys2Proof.Machine
end

