-- ==== Sys2Proof/Machine/Logbook.lean ====
section
/-! DEFINITION. The logbook's own commands (R430 to R435): mirroring, the hourly records and LOG_READ. Appending is `State.logAppend`. -/

namespace Sys2Proof.Machine

/-- LOG_MIRROR: the SPI NOR mirror is current with every record appended (R430). -/
def execLogMirror (s : State) : Host.Outcome State Fault Refusal := .next (s.setFld rLogStatus fLogStatus_MIRROR_OK 1)

/-- Add to a 64-bit register that saturates (R409). -/
def State.addReg (s : State) (off n : Nat) : State := s.setReg off (BitVec.ofNat 64 (min (2 ^ 64 - 1) ((s.reg off).toNat + n)))

/-- Add the seconds of an hour to the lifetime totals of bins (R433). -/
def State.addBins (s : State) (reg : Nat → Nat) (secs : List Nat) : State := secs.zipIdx.foldl (fun (t : State) x => t.addReg (reg x.2) x.1) s

/-- Payload of a CORRECTED record (Table 17.2). -/
def correctedPayload (k : Nat × Nat × Nat × Nat) : List Byte :=
  leBytes 1 k.1 ++ leBytes 1 k.2.1 ++ leBytes 2 0 ++ leBytes 4 k.2.2.1 ++ leBytes 8 k.2.2.2

/-- LOG_HOURLY: the seconds of the last hour in each temperature and voltage bin are recorded and added to the lifetime totals, and one
CORRECTED record is written for each key that occurred (R432, R433). -/
def execLogHourly (temps volts : List Nat) (s : State) : Host.Outcome State Fault Refusal :=
  let ts := (List.range 7).map (fun i => temps.getD i 0)
  let vs := (List.range 6).map (fun i => volts.getD i 0)
  let s := s.logAppend lkBins ((ts ++ vs).flatMap (leBytes 4))
  let s := (s.addBins rLogTbin ts).addBins rLogVbin vs
  let s := s.flt.hour.foldl (fun (t : State) k => t.logAppend lkCorrected (correctedPayload k)) s
  .next (s.modFlt (fun f => { f with hour := [] }))

/-- The bytes of a record (R431): header, payload, padding, with the CRC over the record with CRC zero. -/
def LogRec.bytes (r : LogRec) : List Byte :=
  let tail := leBytes 4 r.boot ++ leBytes 4 0 ++ leBytes 8 r.seq ++ leBytes 8 r.time ++ fitBytes (recLen r.data - 32) r.data
  let head := leBytes 2 r.kind ++ leBytes 2 (recLen r.data)
  head ++ leBytes 4 (crc32 (head ++ leBytes 4 0 ++ tail)) ++ tail

/-- The longest run of records whose bytes stay within `max`. -/
def takeRecs : Nat → List LogRec → List LogRec
  | _, [] => []
  | max, r :: rs => if recLen r.data ≤ max then r :: takeRecs (max - recLen r.data) rs else []

/-- The checks of `LOG_READ` (R435). -/
def State.logReadCheck (s : State) (p : Nat) (c : HostCmd) : Option Nat :=
  let max_ := c.param 8 4
  if c.resultAddr = 0 ∨ c.resultAddr % 8 ≠ 0 ∨ max_ < 4096 ∨ 16777216 < max_ ∨ max_ % 8 ≠ 0 then some scBadCommand
  else if s.resultOk p c.resultAddr max_ = false then some scBadHandle
  else none

/-- LOG_READ: whole records of a type from FIRST_SEQ on, up to MAX_BYTES; RESULT0 is where a further read continues (R435). -/
def execLogRead (p q cid : Nat) (s : State) : Host.Outcome State Fault Refusal :=
  match s.readyRec p q cid 0x05 with
  | none => .next (s.lateEnd p q cid 0x05)
  | some (rid, r) =>
    if (r.long.map (fun l => l.running)) ≠ some true then .next s else
    let c := r.cmd
    let first := c.param 0 8
    let max_ := c.param 8 4
    let type := c.param 12 2
    if let some st := (s.named r).logReadCheck p c then .next (s.fail p rid st)
    else
      let all := s.log.filter (fun x => decide (first ≤ x.seq) && (type == 0 || x.kind == type))
      let rs := takeRecs max_ all
      let bs := rs.flatMap LogRec.bytes
      let next := match all[rs.length]? with
        | some x => x.seq
        | none => max first (s.reg rLogNextSeq).toNat
      .next (s.complete p rid scDone 0 rs.length next bs.length bs)

end Sys2Proof.Machine
end

