-- ==== Sys2Proof/Machine/Secure.lean ====
section
/-! DEFINITION. Security (spec/18): user measurements, image-signing keys and REQUIRE_SIG, attestation reports on the host, fabric and SPDM
paths, and the SPDM and MCTP requests of the baseboard controller (R445 to R458, R476). -/

namespace Sys2Proof.Machine

/-! ### User measurements and keys (R447, R451) -/

/-- A digest held in four words. -/
def State.digestAt (s : State) (off : Nat → Nat) : List Byte := [0, 1, 2, 3].flatMap (fun w => leBytes 8 (s.reg (off w)).toNat)

/-- What GO in `SEC_EXT_CTL` does: a SLOT of 8 to 15 is extended with the digest written, by the physical function named; another sets ERR and
changes nothing. GO reads 0 again (R447). -/
def State.extGo (s : State) (pf : Nat) : State :=
  let slot := s.fld rSecExtCtl fSecExtCtl_SLOT
  let s := s.setFld rSecExtCtl fSecExtCtl_GO 0
  if 8 ≤ slot ∧ slot ≤ 15 then s.measure slot 8 0 (32 * pf) 0 (s.digestAt rSecExtData) else s.setFld rSecExtCtl fSecExtCtl_ERR 1

/-- State and KEY_ID of a key slot. -/
def State.keySlot (s : State) (k : Nat) : Nat × List Byte := s.sec.keys.getD k (0, [])

/-- What GO in `SEC_ENROLL_CTL` does: OP 1 enrols the KEY_ID written in an EMPTY slot, unless it has been revoked; OP 2 revokes an ENROLLED
slot. Slot 6 is extended first. Any other combination sets ERR and changes nothing (R451). -/
def State.enrollGo (s : State) : State :=
  let op := s.fld rSecEnrollCtl fSecEnrollCtl_OP
  let k := s.fld rSecEnrollCtl fSecEnrollCtl_SLOT
  let id := if op = 2 then (s.keySlot k).2 else s.digestAt rSecEnrollData
  let s := s.setFld rSecEnrollCtl fSecEnrollCtl_GO 0
  let ok := decide (op = 1 ∧ (s.keySlot k).1 = 0) && !s.sec.keys.any (fun x => x.1 == 2 && x.2 == id) || decide (op = 2 ∧ (s.keySlot k).1 = 1)
  if !ok then s.setFld rSecEnrollCtl fSecEnrollCtl_ERR 1 else
  let s := s.measure 6 6 0 0xFF 0 (sha256 (leBytes 1 op ++ leBytes 1 k ++ id))
  let s := s.setFld rSecEnrollCtl fSecEnrollCtl_ERR 0
  s.putSec ({ s.sec with keys := s.sec.keys.set k (op, id) })

/-- A write of `SEC_EXT_CTL`. -/
def State.writeExtCtl (s : State) (pf : Nat) (value : Word) : State :=
  let s := s.writeFields pf rSecExtCtl value
  if fSecExtCtl_GO.get value = 1 then s.extGo pf else s

/-- A write of `SEC_ENROLL_CTL`. -/
def State.writeEnrollCtl (s : State) (pf : Nat) (value : Word) : State :=
  let s := s.writeFields pf rSecEnrollCtl value
  if fSecEnrollCtl_GO.get value = 1 then s.enrollGo else s

/-- A write of `NODE_BRIDLE_POLICY`: REQUIRE_SIG stays set until node reset (R70); setting it is measured into slot 6 first (Table 18.5). -/
def State.writePolicy (s : State) (pf : Nat) (value : Word) : State :=
  let s := if fNodeBridlePolicy_REQUIRE_SIG.get value = 1 ∧ s.fld rNodeBridlePolicy fNodeBridlePolicy_REQUIRE_SIG = 0 then
      s.measure 6 6 0 0xFF 0 (sha256 Config.requireSig) else s
  s.writeFields pf rNodeBridlePolicy value

/-- SEC_EXTEND: a write of `SEC_EXT_CTL` (R447). A stopped node takes no register write (R407). -/
def execSecExtend (pf : Nat) (value : Word) (s : State) : Host.Outcome State Fault Refusal :=
  if s.flt.stopped then .next s else .next (s.writeExtCtl pf value)

/-- SEC_ENROLL: a write of `SEC_ENROLL_CTL` with OP 1 (R451). -/
def execSecEnroll (pf : Nat) (value : Word) (s : State) : Host.Outcome State Fault Refusal :=
  if s.flt.stopped then .next s else .next (s.writeEnrollCtl pf (fSecEnrollCtl_OP.put 1 value))

/-- SEC_REVOKE: a write of `SEC_ENROLL_CTL` with OP 2 (R451). -/
def execSecRevoke (pf : Nat) (value : Word) (s : State) : Host.Outcome State Fault Refusal :=
  if s.flt.stopped then .next s else .next (s.writeEnrollCtl pf (fSecEnrollCtl_OP.put 2 value))

/-- REQUIRE_SIG_SET: a write of `NODE_BRIDLE_POLICY` (R70). -/
def execRequireSigSet (pf : Nat) (value : Word) (s : State) : Host.Outcome State Fault Refusal :=
  if s.flt.stopped then .next s else .next (s.writePolicy pf value)

/-! ### Reports (R452 to R454) -/

/-- Stored log entries that a report carries. -/
def State.reportLog (s : State) (first max : Nat) : List MLogEnt := (s.sec.mlog.filter (fun e => decide (first ≤ e.index))).take max

/-- RFLAGS of a report. -/
def State.reportFlags (s : State) : Nat :=
  (if 8192 < s.sec.total then 1 else 0) + 2 * s.fld rNodeTimeStatus fNodeTimeStatus_HOLDOVER + 4 * s.fld rFltStatus fFltStatus_FATAL +
  8 * s.fld rNodeBridlePolicy fNodeBridlePolicy_REQUIRE_SIG + (if s.sec.dies.contains 2 then 16 else 0)

/-- The report up to its signature (Table 18.7). -/
def State.reportBody (s : State) (nonce : List Byte) (first : Nat) (log : List MLogEnt) : List Byte :=
  [0x56, 0x58, 0x41, 0x52] ++ leBytes 2 1 ++ leBytes 2 s.reportFlags ++ leBytes 4 (1472 + 64 * log.length) ++ leBytes 4 s.sec.total ++
  leBytes 8 (s.reg rNodeId).toNat ++ leBytes 8 (s.reg rFabIdentityLo).toNat ++ leBytes 8 (s.reg rFabIdentityHi).toNat ++ leBytes 8 s.now ++
  leBytes 4 (s.reg rLogBoots).toNat ++ leBytes 2 s.nodeId ++ leBytes 2 0 ++ leBytes 8 (s.reg rNodeBridleSerial).toNat ++ fitBytes 32 nonce ++
  (List.range 24).flatMap s.slotBytes ++
  [0, 1, 2, 3].flatMap (fun d => leBytes 1 d ++ leBytes 1 (s.sec.dies.getD d 0) ++ List.replicate 14 0 ++ sha256 (Config.certificate d 2)) ++
  leBytes 4 first ++ leBytes 4 0 ++ log.flatMap MLogEnt.bytes ++ List.replicate 24 0

/-- A report and the number of entries it carries: its signature is big-endian, by the MSD's key (R453). -/
def State.report (s : State) (nonce : List Byte) (first max : Nat) : List Byte × Nat × State :=
  let log := s.reportLog first max
  let body := s.reportBody nonce first log
  let (sig, s) := s.sign 3 body
  (body ++ sig, log.length, s)

/-- A die's certificate chain, each certificate after its length, root first (R455). -/
def certChain (die : Nat) : List Byte :=
  [0, 1, 2].flatMap (fun i => leBytes 4 (Config.certificate die i).length ++ Config.certificate die i)

/-! ### ATTEST (R455, R456, R458) -/

/-- Fields of the PARAMS of Table 18.8. -/
def atOp (ps : List Byte) : Nat := fieldAt ps 0 1
def atDie (ps : List Byte) : Nat := fieldAt ps 1 1
def atTarget (ps : List Byte) : Nat := fieldAt ps 2 2
def atMax (ps : List Byte) : Nat := fieldAt ps 4 2
def atFirst (ps : List Byte) : Nat := fieldAt ps 8 4
def atRoom (ps : List Byte) : Nat := fieldAt ps 12 4
def atNonce (ps : List Byte) : List Byte := (ps.drop 16).take 32

/-- Whether OP, DIE and MAX_LOG are in range. -/
def atFieldsOk (ps : List Byte) : Bool :=
  (atOp ps == 0 && decide (atMax ps ≤ 1024)) || (atOp ps == 1 && decide (atDie ps ≤ 3))

/-- The result of an attestation request: its bytes and COUNT. -/
def State.attested (s : State) (ps : List Byte) : List Byte × Nat × State :=
  if atOp ps = 1 then (certChain (atDie ps), 0, s) else s.report (atNonce ps) (atFirst ps) (atMax ps)

/-- Attestation requests of other nodes whose answers have not all left yet (R458). -/
def State.attestBusy (s : State) : Nat :=
  let ks := (s.fab.handoff ++ s.fab.held.map (fun e => e.pkt)).filter (fun k => k.opcode == opAttest && k.ptype == 1 && k.srcNode == s.nodeId)
  ((ks.map (fun k => (k.dstNode, k.seq))).eraseDups).length

/-- Whether one more request may be served now. -/
def State.attestRoom (s : State) : Bool := decide (s.attestBusy < 8)

/-- The checks of `ATTEST` before its result is formed (R455). -/
def State.attestCheck (s : State) (p : Nat) (c : HostCmd) : Option Nat :=
  if !atFieldsOk c.params ∨ c.resultAddr = 0 ∨ c.resultAddr % 8 ≠ 0 then some scBadCommand
  else if s.resultOk p c.resultAddr (atRoom c.params) = false then some scBadHandle
  else none

/-- A host ATTEST: checked, answered here, or sent to its target node (R455, R456). With 8 requests being served it waits. -/
def State.attest (s : State) (p rid : Nat) (r : Rec) : State :=
  let ps := r.cmd.params
  let t := atTarget ps
  if let some st := (s.named r).attestCheck p r.cmd then s.fail p rid st
  else if t = 0 ∨ t = s.nodeId then
    if !s.attestRoom then s else
    let (bs, n, s') := s.attested ps
    if atRoom ps < bs.length then s.fail p rid scBadCommand else s'.complete p rid scDone 0 n bs.length s.sec.total bs
  else if !s.reachable t then s.fail p rid scUnreachable
  else
    let k : Packet := { vc := 1, ptype := 0, opcode := opAttest, dstNode := t, dstPart := 0, dstEp := 0, srcNode := s.nodeId, srcPart := p, srcEp := r.q, stream := r.cmd.stream, length := 96, resetGen := s.resetGen p, data := fitBytes 96 ps }
    (s.sendRequest k (some rid) true).modRec rid (fun x => { x with phase := .running })

/-- ATTEST_REPORT: ATTEST with OP 0; an OP out of range completes here too (R452 to R456). -/
def execAttestReport (p q cid : Nat) (s : State) : Host.Outcome State Fault Refusal :=
  match s.readyRec p q cid 0x03 with
  | some (rid, r) => if atOp r.cmd.params = 1 then .next s else .next (s.attest p rid r)
  | none => .next s

/-- ATTEST_CERT_CHAIN: ATTEST with OP 1 (R449, R455). -/
def execAttestCertChain (p q cid : Nat) (s : State) : Host.Outcome State Fault Refusal :=
  match s.readyRec p q cid 0x03 with
  | some (rid, r) => if atOp r.cmd.params = 1 then .next (s.attest p rid r) else .next s
  | none => .next s

/-- REMOTE_ATTEST_REQUEST: the MSD answers a request of another node whatever partition 0 is doing, or refuses it while it serves 8, when a
field is out of range, and after a FATAL stop (R456, R407). -/
def execRemoteAttestRequest (pkt : Packet) (s : State) : Host.Outcome State Fault Refusal :=
  if pkt.opcode ≠ opAttest ∨ pkt.ptype ≠ 0 then .next s else
  let s := s.taken pkt
  let o : FabOrigin := { node := pkt.srcNode, part := pkt.srcPart, endpoint := pkt.srcEp, seq := pkt.seq, resetGen := pkt.resetGen }
  let ps := fitBytes 96 pkt.data
  if !atFieldsOk ps ∨ s.attestRoom = false ∨ s.flt.stopped = true then .next (s.answer o 2 2 opAttest 0 0 [scRemoteError] [])
  else
    let (bs, n, s') := s.attested ps
    .next (s'.answer o 2 1 opAttest 0 0 [scDone, 0, n, bs.length, s.sec.total] bs)

/-- REMOTE_ATTEST_RESPONSE: the target's result completes the command, unless ROOM is too small (R455, R456); one of an old reset generation is
discarded (R108). -/
def execRemoteAttestResponse (pkt : Packet) (s : State) : Host.Outcome State Fault Refusal :=
  let s := s.taken pkt
  if pkt.ptype ≠ 1 then .next s
  else if s.isLate pkt then .next (s.discardLate pkt)
  else match kvGet? pkt.seq s.fab.out with
  | none => .next s
  | some o => if o.kind ≠ opAttest then .next s else
    let s := s.endRequest pkt.seq
    match o.rid.bind (fun rid => (kvGet? rid s.recs).map (fun r => (rid, r))) with
    | none => .next s
    | some (rid, r) =>
      if pkt.args.getD 0 scRemoteError ≠ scDone then .next (s.fail r.part rid scRemoteError)
      else if atRoom r.cmd.params < pkt.data.length then .next (s.fail r.part rid scBadCommand)
      else .next (s.complete r.part rid scDone 0 (pkt.args.getD 2 0) pkt.data.length (pkt.args.getD 4 0) pkt.data)

/-! ### SPDM and MCTP on SMBus (R457, R458, R476) -/

/-- Answer on SMBus; without MSD power-good there is no answer. -/
def State.smbAnswer (s : State) (m : SmbMsg) : State := if s.board.power then (s.putSmb (s.smb ++ [m])) else s

/-- Whether the node is in recovery, where of SPDM it answers only GET_VERSION (R442). -/
def State.recovering (s : State) : Bool := s.fld rNodeStatus fNodeStatus_RECOVERY == 1

/-- Answer an SPDM request other than GET_VERSION. -/
def State.spdm (s : State) (m : SmbMsg) : State := if s.recovering then s else s.smbAnswer m

/-- The die of a certificate slot: 0 the MSD, then SCD0, SCD1 and FHD. -/
def spdmDie (slot : Nat) : Nat := if slot = 0 then 3 else slot - 1

/-- Whether a slot has been measured, as far as boot has come (R443): slot 0 at step 3, slots 1 to 7 at step 4; the others hold what they hold. -/
def State.slotReady (s : State) (k : Nat) : Bool :=
  let st := s.fld rNodeStatus fNodeStatus_BOOT_STAGE
  decide (4 ≤ st) || decide (k = 0 ∧ 3 ≤ st) || decide (8 ≤ k)

/-- Sign an SPDM transcript with the MSD's key. -/
def State.spdmSign (s : State) (nonce : List Byte) : List Byte × State := s.sign 3 (Config.spdmTranscript s.free nonce)

/-- SPDM_GET_VERSION: SPDM 1.2 (R457), in recovery too (R442). -/
def execSpdmGetVersion (s : State) : Host.Outcome State Fault Refusal := .next (s.smbAnswer (.version 1 2))

/-- SPDM_GET_CAPABILITIES: CERT_CAP, CHAL_CAP and MEAS_CAP with signatures (R457). -/
def execSpdmGetCapabilities (s : State) : Host.Outcome State Fault Refusal := .next (s.spdm (.capabilities true true true true))

/-- SPDM_NEGOTIATE_ALGORITHMS: only RSASSA-PSS 3072 and SHA-256 (R457). -/
def execSpdmNegotiateAlgorithms (s : State) : Host.Outcome State Fault Refusal := .next (s.spdm (.algorithms "RSASSA-PSS 3072" "SHA-256"))

/-- SPDM_GET_DIGESTS: the digests of the chains of slots 0 to 3 (R457). -/
def execSpdmGetDigests (s : State) : Host.Outcome State Fault Refusal :=
  .next (s.spdm (.digests ([0, 1, 2, 3].map (fun k => sha256 (Config.spdmChain (spdmDie k))))))

/-- SPDM_GET_CERTIFICATE: a portion of the chain of a slot (R449, R457). -/
def execSpdmGetCertificate (slot offset length : Nat) (s : State) : Host.Outcome State Fault Refusal :=
  let chain := Config.spdmChain (spdmDie slot)
  if 4 ≤ slot ∨ chain.length ≤ offset then .next (s.spdm .invalidRequest)
  else
    let bs := (chain.drop offset).take length
    .next (s.spdm (.certificate slot offset (chain.length - offset - bs.length) bs))

/-- SPDM_CHALLENGE: signed with the MSD's key (R457). -/
def execSpdmChallenge (slot : Nat) (nonce : List Byte) (s : State) : Host.Outcome State Fault Refusal :=
  if 4 ≤ slot then .next (s.spdm .invalidRequest)
  else if !s.attestRoom then .next (s.spdm .busy)
  else let (sig, s) := s.spdmSign nonce; .next (s.spdm (.challengeAuth slot nonce sig))

/-- SPDM_GET_MEASUREMENTS: index n from 1 to 24 is slot n − 1, and 0xFF all of them, signed (R457). Busy while 8 requests are served (R458);
a request for a slot that boot has not measured yet is not served (R443). -/
def execSpdmGetMeasurements (index : Nat) (nonce : List Byte) (s : State) : Host.Outcome State Fault Refusal :=
  let ks := if index = 0xFF then List.range 24 else if 1 ≤ index ∧ index ≤ 24 then [index - 1] else []
  if ks.isEmpty then .next (s.spdm .invalidRequest)
  else if !ks.all s.slotReady then .next s
  else if !s.attestRoom then .next (s.spdm .busy)
  else
    let blocks := ks.map (fun k => (k + 1, s.slotBytes k))
    let (sig, s) := s.spdmSign nonce
    .next (s.spdm (.measurements blocks nonce sig))

/-- Cut bytes into chunks of at most `n`. -/
def chunked (n : Nat) : Nat → List Byte → List (List Byte)
  | 0, _ => []
  | f + 1, bs => if bs.isEmpty then [] else bs.take n :: chunked n f (bs.drop n)

/-- SPDM_VENDOR_DEFINED_REQUEST: carries the ATTEST PARAMS and returns a report of this node in chunks of at most 1,024 bytes, as the slots
stand (R443, R457); Busy while 8 requests are served (R458). -/
def execSpdmVendorDefinedRequest (data : List Byte) (s : State) : Host.Outcome State Fault Refusal :=
  let ps := fitBytes 96 data
  if atOp ps ≠ 0 ∨ atFieldsOk ps = false ∨ (atTarget ps ≠ 0 ∧ atTarget ps ≠ s.nodeId) then .next (s.spdm .invalidRequest)
  else if !s.attestRoom then .next (s.spdm .busy)
  else
    let (bs, _, s) := s.attested ps
    .next (s.spdm (.vendor (chunked 1024 (bs.length / 1024 + 1) bs)))

/-- SPDM_UNSUPPORTED_REQUEST: answered with the error UnsupportedRequest (R457). -/
def execSpdmUnsupportedRequest (code : Nat) (s : State) : Host.Outcome State Fault Refusal := .next (s.spdm (.unsupportedRequest code))

/-- MCTP_CONTROL_MESSAGE: answered from MSD power-good onward, in recovery too (R442, R476). -/
def execMctpControlMessage (data : List Byte) (s : State) : Host.Outcome State Fault Refusal := .next (s.smbAnswer (.control (Config.mctpControl data)))

/-- MCTP_UNSUPPORTED_MESSAGE: a message of a type that the node does not implement is answered as unsupported (R476). -/
def execMctpUnsupportedMessage (mtype : Nat) (s : State) : Host.Outcome State Fault Refusal := .next (s.smbAnswer (.unsupportedType mtype))

end Sys2Proof.Machine
end

