-- ==== Sys2Proof/Machine/Trim.lean ====
section
/-! DEFINITION. The trim loops, memory margins and settings of chapter 17: the tick of each loop, its actions and limits, training of memory
channels, writes of limits and calibration offsets. -/

namespace Sys2Proof.Machine

/-! ### Actions (R416, R418) -/

/-- A trigger of the drogue by a unit whose reporting flag is set (source 6). -/
def State.trimDrogue (s : State) (loop unit : Nat) : State := if (s.trim loop unit).drogue then (s.drogue 6 0).1 else s

/-- A unit makes an action that leaves its output at `out`: counted and recorded with the signed change. -/
def State.trimAct (s : State) (loop unit kind : Nat) (out : Int) : State :=
  let s := s.modTrim loop unit (fun u => { u with output := out, delta := out - u.output, kind := kind, last := s.now })
  let s := s.bumpCopy (loop * 512 + unit) cTrmUnitActions 1
  if 5 ≤ kind ∧ kind ≤ 7 then s.trimDrogue loop unit else s

/-- AT_LIMIT is set; going from 0 to 1 it may trigger the drogue. -/
def State.trimAtLimit (s : State) (loop unit : Nat) : State :=
  if (s.trim loop unit).atLimit then s else (s.modTrim loop unit (fun u => { u with atLimit := true })).trimDrogue loop unit

/-- A unit's rule gives `raw`: within the limits an action raises or lowers the output to it, past a limit the output is held there and the
action recorded as AT_LOW or AT_HIGH; an unchanged output is no action. -/
def State.trimTo (s : State) (loop unit : Nat) (raw : Int) : State :=
  let u := s.trim loop unit
  if raw < u.lo then (s.trimAct loop unit 3 u.lo).trimAtLimit loop unit
  else if u.hi < raw then (s.trimAct loop unit 4 u.hi).trimAtLimit loop unit
  else if raw = u.output then s
  else s.trimAct loop unit (if u.output < raw then 1 else 2) raw

/-- A unit's input as measured. -/
def State.trimInput (s : State) (loop unit : Nat) (v : Int) : State := s.modTrim loop unit (fun u => { u with input := v })

/-! ### Voltage (R420) -/

/-- The rate floor of a target voltage by Table 1.6, in 1/10,000 of nominal. -/
def rateFloor (t : Int) : Int :=
  if t ≤ 650 then 6200 + 20 * (t - 550) else if t ≤ 750 then 8200 + 18 * (t - 650) else 10000 + 16 * (t - 750)

/-- The floor of a domain, none where its TARGET equals its LIMIT_LO. -/
def TrimUnit.floor (u : TrimUnit) : Option Int := if u.target = u.lo then none else some (rateFloor u.target)

/-- A voltage step of 1 to 25 mV: the gain times `n` / `d`, rounded half up. -/
def voltStep (gain : Nat) (n : Int) (d : Nat) : Int := max 1 (min 25 ((2 * gain * n + 256 * d) / (512 * d)))

/-- Whether domain `d` is powered; cluster and uncore domains always are (R38). -/
def State.domPowered (s : State) (d : Nat) : Bool := s.fld (rNodeDomainStatus d) fNodeDomainStatus_POWERED == 1

/-- How far the package power lies over its limit, in 1/100 W (R420): the 10 ms average over L, and the 1 ms average over L + 75 W or 1,500 W,
whichever is lower (R44, R45); without AVSBus readings 0.97 × L stands for L (R471). -/
def State.overPower (s : State) (pkg1 pkg10 : Nat) : Int :=
  let f := if s.fld rNodeRailStatus fNodeRailStatus_AVS_LOST = 1 then 97 else 100
  let l := ((f * s.fld rNodePowerStatus fNodePowerStatus_LIMIT_EFF_W : Nat) : Int)
  let l10 := ((f * s.limit10 : Nat) : Int)
  max (100 * (pkg10 : Int) - l10) (100 * (pkg1 : Int) - min (l + 7500) 150000)

/-- One pass of the voltage loop over the domains, each left within its limits. -/
def State.voltLoop (s : State) (excess : Int) (rates : List Nat) : State :=
  let live := (List.range 14).filter (fun d => s.domPowered d && !(s.trim 0 d).freeze)
  let above := live.filter (fun d => decide ((s.trim 0 d).lo < (s.trim 0 d).output))
  let s := if 0 < excess then
      let free := above.filter (fun d => (s.trim 0 d).floor.isNone)
      (if free.isEmpty then above else free).foldl (fun (t : State) d =>
        let u := t.trim 0 d
        t.trimTo 0 d (u.output - voltStep u.gain excess 100)) s
    else live.foldl (fun (t : State) d =>
        let u := t.trim 0 d
        let lack := match u.floor with | some f => f - 10 * ((rates.getD d 0 : Nat) : Int) | none => 0
        if 0 < lack then t.trimTo 0 d (u.output + voltStep u.gain lack 10)
        else if excess < -2500 then t.trimTo 0 d (u.output + voltStep u.gain (-excess - 2500) 100)
        else t) s
  let s := live.foldl (fun (t : State) d => if (t.trim 0 d).lo ≤ (t.trim 0 d).output ∧ (t.trim 0 d).output ≤ (t.trim 0 d).hi then t else t.trimTo 0 d (t.trim 0 d).output) s
  live.foldl (fun (t : State) d => t.setFld (rNodeDomainStatus d) fNodeDomainStatus_VOLT_MV (t.trim 0 d).output.toNat) s

/-- The backstop (R46): entered when every powered SCD domain is at 0.55 V and the 10 ms average exceeds L, left when it has fallen to
L − 25 W. It acts from the voltages at which frozen units hold their domains, so that a frozen domain does not keep it out (DEDUCED, log entry 44). -/
def State.backstop (s : State) (pkg10 : Nat) : State :=
  let f := if s.fld rNodeRailStatus fNodeRailStatus_AVS_LOST = 1 then 97 else 100
  let low := (List.range 14).all (fun d => !s.domPowered d || (s.trim 0 d).freeze || s.fld (rNodeDomainStatus d) fNodeDomainStatus_VOLT_MV == 550)
  if s.fld rNodePowerStatus fNodePowerStatus_BACKSTOP = 1 then
    if 100 * pkg10 + 2500 ≤ f * s.limit10 then s.setFld rNodePowerStatus fNodePowerStatus_BACKSTOP 0 else s
  else if low = true ∧ f * s.limit10 < 100 * pkg10 then
    let s := s.putBoard ({ s.board with backstops := s.board.backstops + 1 })
    (s.setFld rNodePowerStatus fNodePowerStatus_BACKSTOP 1).setFld rNodePowerStatus fNodePowerStatus_CLAMPED 1
  else s

/-- A rate floor that the limit wins over (R47), counted once in each ms (Table 1.14). The periods are the whole ms of the local time reference
(DESIGN CHOICE, log entry 44). -/
def State.floorMiss (s : State) : State :=
  let s := s.setFld rNodePowerStatus fNodePowerStatus_FLOOR_MISS 1
  if s.board.floorMs = some (s.now / 1000000) then s
  else
    let s := s.putBoard ({ s.board with floorMs := some (s.now / 1000000) })
    s.setFld rNodePowerStatus fNodePowerStatus_FLOOR_MISS_COUNT (min 0xFFFF (s.fld rNodePowerStatus fNodePowerStatus_FLOOR_MISS_COUNT + 1))

/-- The smallest slack of a domain in the last ms, and with it the smallest since power-on (R427): the sensors' reading in 0.1 of 1/1,000, with
the effective offset of the domain's calibration item. -/
def State.noteSlack (s : State) (d raw : Nat) : State :=
  let v := (s.calibrated d (raw : Int) / 10).toNat
  let ever := if s.board.slackSeen.contains d then min v (s.fld (rTelDomSlack d) fTelDomSlack_MIN_EVER) else v
  let s := s.putBoard ({ s.board with slackSeen := if s.board.slackSeen.contains d then s.board.slackSeen else d :: s.board.slackSeen })
  (s.setFld (rTelDomSlack d) fTelDomSlack_MIN_1MS v).setFld (rTelDomSlack d) fTelDomSlack_MIN_EVER ever

/-- VOLTAGE_TRIM_TICK: every 100 µs, from each domain's rate in 1/1,000, power in 0.1 W and smallest slack in the last ms (in 0.1 of 1/1,000), and the package power
averaged over 1 ms and 10 ms in W (R420, R46, R47, R427). -/
def execVoltageTrimTick (rates powers : List Nat) (pkg1 pkg10 : Nat) (slacks : List Nat) (s : State) : Host.Outcome State Fault Refusal :=
  let s := (List.range 14).foldl (fun (t : State) d =>
    let t := (t.setFld (rNodeDomainStatus d) fNodeDomainStatus_RATE_PERMIL (rates.getD d 0)).setFld (rNodeDomainStatus d) fNodeDomainStatus_POWER_DW (powers.getD d 0)
    let t := t.trimInput 0 d ((rates.getD d 0 : Nat) : Int)
    if t.domPowered d then t.noteSlack d (slacks.getD d 0) else t) s
  let s := (s.setFld rNodePowerStatus fNodePowerStatus_PKG_W_1MS pkg1).setFld rNodePowerStatus fNodePowerStatus_PKG_W_10MS pkg10
  let excess := s.overPower pkg1 pkg10
  let s := s.voltLoop excess rates
  let s := s.backstop pkg10
  let missed := (List.range 14).any (fun d => s.domPowered d && (match (s.trim 0 d).floor with
    | some f => decide (10 * ((rates.getD d 0 : Nat) : Int) < f)
    | none => false))
  .next (if 0 < excess ∧ missed = true then s.floorMiss else s)

/-! ### Equalisation (R421) -/

/-- A setting of a lane that a trial moves: 0 c(−2), 1 c(−1), 2 c(1), 3 RX_CTLE, 4 c(0). -/
def eqField (k : Nat) : Fld :=
  if k = 0 then fFabLaneEq_C_M2 else if k = 1 then fFabLaneEq_C_M1 else if k = 2 then fFabLaneEq_C_P1 else if k = 3 then fFabLaneEq_RX_CTLE else fFabLaneEq_C_0

/-- Move a setting of a lane by one step, unless it would leave its range: the receiver setting 0 to 31, a tap its signed byte. A host lane has
the receiver setting alone. -/
def State.eqMove (s : State) (lane k : Nat) (up : Bool) : Option State :=
  let d : Int := if up then 1 else -1
  if k = 3 then
    let v := (s.trim 1 lane).output + d
    if v < 0 ∨ 31 < v then none
    else
      let s := s.modTrim 1 lane (fun u => { u with output := v })
      some (if lane < 256 then s.setFld (rFabLaneEq lane) fFabLaneEq_RX_CTLE v.toNat else s)
  else if 256 ≤ lane then none
  else
    let v := signedOf 8 (s.fld (rFabLaneEq lane) (eqField k)) + d
    if v < -128 ∨ 127 < v then none else some (s.setFld (rFabLaneEq lane) (eqField k) (unsignedOf 8 v))

/-- Record an action of an equalisation unit whose receiver setting was `old`. -/
def State.eqAct (s : State) (lane kind : Nat) (old : Int) : State :=
  let s := s.trimAct 1 lane kind (s.trim 1 lane).output
  s.modTrim 1 lane (fun u => { u with delta := u.output - old })

/-- The next trial of the rotation from place `r` (0 to 7: setting r / 2, up when even): the first whose step lies in range, and its place. -/
def State.eqTrial (s : State) (lane r : Nat) : Nat → Option (Nat × State)
  | 0 => none
  | n + 1 => match s.eqMove lane (r % 8 / 2) (r % 2 == 0) with
    | some t => some (r % 8, t)
    | none => s.eqTrial lane (r + 1) n

/-- Whether a lane is up: a fabric lane of an up link, or a lane of a trained host link. -/
def State.laneUp (s : State) (lane : Nat) : Bool :=
  if lane < 256 then !s.isFenced 9 lane && s.fab.links.any (fun x => x.2.isUp && decide (x.1 ≤ lane ∧ lane < x.1 + x.2.width) && bitOf x.2.lanesUp (lane - x.1))
  else s.board.hostUp.getD ((lane - 256) / 8) false

/-- EQUALISATION_TRIM_TICK: the lane's smallest eye, its height in 0.1 mV and its width in 1/1,000 UI, is reported. A trial under way is kept or
undone; then, the eye below TARGET, the next trial of the rotation begins, or, above LIMIT_HI, c(0) is lowered (R421). `aux` holds the place of the
rotation, the trial under way plus 1 (0 none, 9 the lowering of c(0)) and the height before it. -/
def execEqualisationTrimTick (lane height width : Nat) (s : State) : Host.Outcome State Fault Refusal :=
  if 272 ≤ lane then .next s else
  let s := if lane < 256 then s.setReg (rFabLaneEye lane) (packFields [(fFabLaneEye_HEIGHT, height), (fFabLaneEye_WIDTH, width)])
    else s.setReg (rTelHostEye (lane - 256)) (packFields [(fTelHostEye_HEIGHT, height), (fTelHostEye_WIDTH, width)])
  let s := s.trimInput 1 lane (height : Int)
  let u := s.trim 1 lane
  let old := u.output
  let overridden := decide (lane < 256) && s.fld (rFabLaneEq lane) fFabLaneEq_OVERRIDE == 1
  if s.laneUp lane = false ∨ u.freeze = true ∨ overridden = true then .next s
  else
    let s := if (height : Int) < u.lo then s.trimAtLimit 1 lane else s
    let rot := u.aux.getD 0 0
    let trial := u.aux.getD 1 0
    let before := u.aux.getD 2 0
    let keep := if trial = 0 then true else if trial = 9 then decide (u.target ≤ (height : Int)) else decide (before + 1 ≤ height)
    if keep = false then
      let k := if trial = 9 then 4 else (trial - 1) / 2
      let up := if trial = 9 then true else (trial - 1) % 2 == 1
      let s := (s.eqMove lane k up).getD s
      .next ((s.eqAct lane 8 old).modTrim 1 lane (fun u => { u with aux := [rot, 0, 0] }))
    else if (height : Int) < u.target then
      match s.eqTrial lane rot 8 with
      | some (r, s) => .next ((s.eqAct lane (if r % 2 = 0 then 1 else 2) old).modTrim 1 lane (fun u => { u with aux := [(r + 1) % 8, r + 1, height] }))
      | none => .next (s.modTrim 1 lane (fun u => { u with aux := [rot, 0, 0] }))
    else if u.hi < (height : Int) then
      match s.eqMove lane 4 false with
      | some s => .next ((s.eqAct lane 2 old).modTrim 1 lane (fun u => { u with aux := [rot, 9, height] }))
      | none => .next (s.modTrim 1 lane (fun u => { u with aux := [rot, 0, 0] }))
    else .next (s.modTrim 1 lane (fun u => { u with aux := [rot, 0, 0] }))

/-! ### Refresh (R422, R190) -/

/-- REFRESH_TRIM_TICK: a stack's row activations in the last ms give its activity, the activity its refresh factor, and factor and temperature
(`temp`, in 0.1 °C as the sensor reads it) the interval in force; a new temperature bin takes effect from the next refresh (R190). -/
def execRefreshTrimTick (stack activations : Nat) (temp : Int) (s : State) : Host.Outcome State Fault Refusal :=
  if 8 ≤ stack then .next s else
  let a := min 1000 ((2 * 1000 * activations + 4876190) / (2 * 4876190))
  let s := (s.setStackTemp stack temp).trimInput 2 stack (a : Int)
  let u := s.trim 2 stack
  let s := if u.freeze then s else s.trimTo 2 stack (u.target + ((u.gain * (a - 500) / 256 : Nat) : Int))
  .next (s.refreshNow stack)

/-! ### Sketch threshold (R424) -/

/-- Values counted and ones, bit by bit, of the measured inserts under thresholds; values that are not finite count toward no bit. -/
def bitShares (th : List Nat) (hist : List (List Nat)) : List (Nat × Nat) :=
  hist.foldl (fun (acc : List (Nat × Nat)) ys =>
    List.zipWith (fun (x : Nat × Nat) (yt : Nat × Nat) =>
      if isFinite32 yt.1 then (x.1 + 1, x.2 + (sketchBit yt.1 yt.2).toNat) else x) acc (ys.zip th)) (th.map (fun _ => (0, 0)))

/-- Whether a bit's share of ones lies within limits in 1/1,000; a bit without values lies within any. -/
def bitWithin (lo hi : Int) (x : Nat × Nat) : Bool := x.1 == 0 || decide (lo * (x.1 : Int) ≤ 1000 * (x.2 : Int) ∧ 1000 * (x.2 : Int) ≤ hi * (x.1 : Int))

/-- The share of the most unbalanced bit, in 1/1,000. -/
def worstShare (xs : List (Nat × Nat)) : Nat :=
  (xs.filter (fun x => x.1 != 0)).foldl (fun (m : Nat) x =>
    let v := 1000 * x.2 / x.1
    if (if m < 500 then 500 - m else m - 500) < (if v < 500 then 500 - v else v - 500) then v else m) 500

/-- Whether a publication finds a free SET_ID (R170). -/
def State.setFree (s : State) (p : Nat) : Bool :=
  let t := (s.modCorpus p (fun c => { c with curSet := none })).sweepSets p
  (List.range (s.pcfg p).thrSets).any (fun i => (kvGet? i (t.corpus p).sets).isNone)

/-- SKETCH_THRESHOLD_EVAL: once in every 4,096 inserts the loop measures each bit's share of ones under the current set and under its candidate,
and publishes the candidate under the conditions of R424. While a load holds allocations back it waits (R491). -/
def execSketchThresholdEval (p : Nat) (s : State) : Host.Outcome State Fault Refusal :=
  let c := s.corpus p
  let l := c.loop
  let u := s.sketchUnit p
  if l.cand.isEmpty = true ∨ s.allocHeld = true ∨ s.configured p = false ∨ l.seen / 4096 ≤ l.evals then .next s
  else
    let now := match c.curSet.bind (fun i => kvGet? i c.sets) with
      | some t => bitShares (s.thresholds t) l.hist
      | none => []
    let cand := bitShares l.cand l.hist
    let s := s.modTrim 3 p (fun u => { u with output := ((worstShare now : Nat) : Int), input := ((l.since : Nat) : Int) })
    let s := s.modCorpus p (fun c => { c with loop := { c.loop with samples := l.hist.length, evals := l.seen / 4096 } })
    let due := match l.lastPub with | some t => decide (t + 60000000000 ≤ s.now) | none => true
    if u.freeze = false ∧ due = true ∧ now.any (fun x => !bitWithin u.lo u.hi x) = true ∧ cand.all (bitWithin u.lo u.hi) = true then
      match s.publishSet p l.cand true l.hist.length with
      | none => .next (if s.setFree p then s.noteQuota p scQuota (s.overQuota p (fun t => (t.publishSet p l.cand true 0).isSome)) else s.bump (cBkePPublishHeld p) 1)
      | some (_, _, t) =>
        let t := t.modCorpus p (fun c => { c with loop := { c.loop with lastPub := some s.now, since := 0 } })
        .next (((t.trimAct 3 p 5 (t.trim 3 p).output).drogue 7 0).1)
    else .next s

/-! ### Placement (R425) -/

/-- The ratio of a node's load to the mean load of the nodes of a table's map, in 1/1,000, rounded down; 0 where no node has load. -/
def loadRatio (loads : List (Nat × Nat)) (own : Nat) : Nat :=
  let sum := loads.foldl (fun a x => a + x.2) 0
  if sum = 0 then 0 else 1000 * own * loads.length / sum

/-- Put rows with their sampled rates in falling order. -/
def insertHot (x : Nat × Nat) : List (Nat × Nat) → List (Nat × Nat)
  | [] => [x]
  | y :: ys => if y.2 < x.2 then x :: y :: ys else y :: insertHot x ys

/-- Drifts that this node has in flight. -/
def State.driftCount (s : State) : Nat := s.emb.tables.foldl (fun n t => n + t.2.drifts.length) 0

/-- One table of the placement loop of partition `p`: its hottest rows leave for the node of lowest load, by migration up to LIMIT_HI and by
replication above it; without a node to take them AT_LIMIT is set. -/
def State.placeTable (s : State) (p tid : Nat) (t : Table) : State :=
  let u := s.trim 4 p
  let nodes := (t.map.map (fun e => e.node)).eraseDups
  let loads := nodes.map (fun n => (n, if n = s.nodeId then t.loadAt s.now else kvGetD 0 n t.loads))
  let r := loadRatio loads (t.loadAt s.now)
  let s := s.modTrim 4 p (fun u => { u with input := max u.input (r : Int) })
  if (r : Int) ≤ u.target ∨ u.freeze = true then s
  else
    let others := loads.filter (fun x => x.1 != s.nodeId && decide ((loadRatio loads x.2 : Int) < u.lo))
    match others with
    | [] => s.trimAtLimit 4 p
    | x :: xs =>
      let least := (xs.foldl (fun (m : Nat × Nat) y => if y.2 < m.2 then y else m) x).1
      let rows := (s.emb.hot.filter (fun h => h.1 == tid)).foldl (fun l h => insertHot (h.2.1, sampleRate s.now h.2.2) l) []
      let replica := decide (u.hi < (r : Int))
      let room := min ((4 * u.gain + 128) / 256) (64 - s.driftCount)
      let rows := (rows.filter (fun h => t.drifts.all (fun d => d.row != h.1) && (s.dirOf tid h.1 1).isEmpty && t.shard == some (t.place h.1).1)).take room
      rows.foldl (fun (z : State) h =>
        let before := z.driftCount
        let z := z.offerDrift tid h.1 least replica
        if before < z.driftCount then z.trimAct 4 p (if replica then 7 else 6) ((z.trim 4 p).output + 1) else z) s

/-- PLACEMENT_TRIM_TICK: every 10 ms, for each partition's tables with a shard on this node. -/
def execPlacementTrimTick (s : State) : Host.Outcome State Fault Refusal :=
  .next ((List.range 64).foldl (fun (t : State) p =>
    if !t.configured p then t
    else
      let ts := t.emb.tables.filter (fun x => x.2.part == p && x.2.shard.isSome)
      if ts.isEmpty ∧ (kvGet? (4 * 512 + p) t.trims).isNone = true then t
      else
        let flying := fun (z : State) => (z.emb.tables.filter (fun x => x.2.part == p)).foldl (fun n x => n + x.2.drifts.length) 0
        let t := t.modTrim 4 p (fun u => { u with input := 0, output := ((flying t : Nat) : Int) })
        let t := ts.foldl (fun (z : State) x => z.placeTable p x.1 x.2) t
        t.modTrim 4 p (fun u => { u with output := ((flying t : Nat) : Int) })) s)

/-! ### Memory margins (R428) -/

/-- MEM_MARGIN_TRAINING: a Tier A (0) or Tier B (1) channel's read and write eye widths are measured; a PROCESSOR-mode channel waits for its
return to MEMORY mode. -/
def execMemMarginTraining (tier c rd wr : Nat) (s : State) : Host.Outcome State Fault Refusal :=
  if 1 < tier ∨ (tier = 0 ∧ 256 ≤ c) ∨ (tier = 1 ∧ 16 ≤ c) ∨ (tier = 0 ∧ (kvGet? c s.bank).any (fun b => b.state != 0) = true) then .next s
  else .next (s.putMargins (kvPut (tier * 256 + c) (min 0xFFFF rd, min 0xFFFF wr, s.now) s.margins))

/-! ### Settings (R56, R415, R437) -/

/-- The loop and unit that a function's selector names, if there is such a unit. -/
def State.trimSel (s : State) (pf : Nat) : Option (Nat × Nat) :=
  let l := s.fldPf pf rTrmSel fTrmSel_LOOP
  let n := s.fldPf pf rTrmSel fTrmSel_UNIT
  if l ≤ 4 ∧ n < trimUnits l then some (l, n) else none

/-- A write of a unit's settings: discarded and reported where the image owns them (R17) or where it breaks R56. -/
def State.writeTrim (s : State) (pf off : Nat) (value : Word) (gain : Nat → Nat) (target lo hi : Int → Int) : State :=
  let s := if value &&& rsvMask off = 0 then s else s.accessErr fNodeAccessErr_RSV_WRITE pf off
  match s.trimSel pf with
  | none => s
  | some (l, n) =>
    let u := s.trim l n
    if u.owned then s.accessErr fNodeAccessErr_LOCKED_WRITE pf off
    else if trimOk l (target u.target) (lo u.lo) (hi u.hi) then
      s.modTrim l n (fun u => { u with gain := gain u.gain, target := target u.target, lo := lo u.lo, hi := hi u.hi })
    else s.modTrim l n (fun u => { u with cfgErr := true })

/-- TRM_UNIT_LIMITS_WRITE: the limits of the unit that the function's `TRM_SEL` names. -/
def execTrmUnitLimitsWrite (pf : Nat) (value : Word) (s : State) : Host.Outcome State Fault Refusal :=
  .next (s.writeTrim pf rTrmUnitLimits value (fun g => g) (fun t => t) (fun _ => signedOf 32 (fTrmUnitLimits_LIMIT_LO.get value))
    (fun _ => signedOf 32 (fTrmUnitLimits_LIMIT_HI.get value)))

/-- A write of `TRM_UNIT_CFG`: TARGET and GAIN of the unit that the function's `TRM_SEL` names. -/
def State.writeTrimCfg (s : State) (pf : Nat) (value : Word) : State :=
  s.writeTrim pf rTrmUnitCfg value (fun _ => fTrmUnitCfg_GAIN.get value) (fun _ => signedOf 32 (fTrmUnitCfg_TARGET.get value)) (fun t => t) (fun t => t)

/-- A write of `TRM_UNIT_CTL`: FREEZE and DROGUE_EN take the value, AT_LIMIT and CFG_ERR clear where written 1. -/
def State.writeTrimCtl (s : State) (pf : Nat) (value : Word) : State :=
  let s := if value &&& rsvMask rTrmUnitCtl = 0 then s else s.accessErr fNodeAccessErr_RSV_WRITE pf rTrmUnitCtl
  match s.trimSel pf with
  | none => s
  | some (l, n) => s.modTrim l n (fun u => { u with
      freeze := fTrmUnitCtl_FREEZE.get value == 1
      drogue := fTrmUnitCtl_DROGUE_EN.get value == 1
      atLimit := u.atLimit && fTrmUnitCtl_AT_LIMIT.get value == 0
      cfgErr := u.cfgErr && fTrmUnitCtl_CFG_ERR.get value == 0 })

/-- The digest of a calibration offset written by a register: ITEM and OFFSET, 4 bytes each (Table 18.5). -/
def calDigest (item : Nat) (u : Int) : List Byte := sha256 (leBytes 4 item ++ leBytes 4 (unsignedOf 32 u))

/-- TRM_CAL_OFFSET_WRITE: the user offset of the item that the function's `TRM_CAL_SEL` names; an offset that the image owns keeps its value
(R437). The write is measured into slot 18 and a change logged. -/
def execTrmCalOffsetWrite (pf : Nat) (value : Word) (s : State) : Host.Outcome State Fault Refusal :=
  let s := if value &&& rsvMask rTrmCalOffset = 0 then s else s.accessErr fNodeAccessErr_RSV_WRITE pf rTrmCalOffset
  let i := s.fldPf pf rTrmCalSel fTrmCalSel_ITEM
  let u := signedOf 32 (fTrmCalOffset_U.get value)
  if calItem i = false then .next s
  else if s.owned.contains (calKey i) then .next (s.accessErr fNodeAccessErr_LOCKED_WRITE pf rTrmCalOffset)
  else .next ((s.measure 18 11 0 (32 * pf) i (calDigest i u)).setCal i u 0)

end Sys2Proof.Machine
end

