-- ==== Sys2Proof/Machine/Boot.lean ====
section
/-! DEFINITION. Power-on, boot and the node-wide resets (spec/18), and what befalls the package: power, rails, clocks, temperature,
AVSBus and JTAG (spec/19, R39 to R48). Boot's steps happen in one step of the model; READY_MS is free within its bound. -/

namespace Sys2Proof.Machine

/-! ### What a node reset keeps (Table 18.2) -/

/-- A register word after a node reset: the logbook's and the fused registers stay; a warm reset also keeps ROS fields and what the MSD,
which it does not reset, shows of time and rails. -/
def keptWord (warm : Bool) (off : Nat) (w : Word) : Word :=
  if off = rNodeId ∨ off = rFabIdentityLo ∨ off = rFabIdentityHi ∨ (rLogStatus ≤ off ∧ off ≤ rLogDropped) then w
  else if !warm then regDefault off
  else if off = rNodeTimeStatus ∨ off = rNodeRailStatus then w
  else match regSpecAt off with
    | some r => (w &&& r.mask (· == .ros)) ||| (regDefault off &&& ~~~ r.mask (· == .ros))
    | none => regDefault off

/-- The registers after a node reset. -/
def State.keptRegs (s : State) (warm : Bool) : KV Word :=
  (s.regs.map (fun x => (x.1, keptWord warm x.1 x.2))).filter (fun x => decide (x.1 < 0x4000000 ∧ x.2 ≠ regDefault x.1))

/-- Memory after a node reset: everything below the namespaces is gone; they keep their bytes and their damage (Table 18.2). -/
def MemSys.kept (m : MemSys) : MemSys :=
  let c := m.clear 0 (2 ^ 52)
  { bytes := c.bytes, undef := c.undef, damaged := m.damaged.filter (fun d => decide (2 ^ 52 ≤ d.1)) }

/-- The translation layer after a node reset `age` ns after which time begins again: namespaces and their map and keys stay, Tier F tensors are
unmapped, commands are gone. A rebuild goes on after the map's replay (Table 13.3); the age of a superblock does not count time without power (DESIGN
CHOICE, log entry 55). -/
def Flash.kept (f : Flash) (now : Nat) (warm : Bool) : Flash :=
  { f with
    ns := kvMapVals (fun _ (n : NSpace) => { n with ending := none }) f.ns
    map := f.map.filter (fun x => decide (2 ^ 38 ≤ x.1))
    keys := f.keys.filter (fun x => decide (2 ^ 38 ≤ x.1))
    supers := if warm then f.supers else kvMapVals (fun _ (x : Super) => { x with aged := x.aged + (now - x.closedAt), closedAt := 0 }) f.supers
    roTens := []
    out := []
    fails := [] }

/-- The board and package after a node reset. -/
def Board.kept (b : Board) (warm : Bool) : Board :=
  if warm then { b with backstops := 0, floorMs := none, limPast := [], stackDc := [], stackBase := [] } else { smbAddr := b.smbAddr, testMode := b.testMode }

/-- The node with everything lost that a node reset loses (Table 18.2). -/
def State.wipe (s : State) (warm : Bool) : State :=
  { pending := s.pending
    time := if warm then s.time else 0
    free := s.free
    regs := s.keptRegs warm
    winReg := if warm then s.winReg.filter (fun w => decide (0x80000 ≤ w.1 % 0x100000)) else []
    vfEn := if warm then s.vfEn else [false, false]
    numVfs := if warm then s.numVfs else [0, 0]
    out := s.out
    log := s.log
    mem := s.mem.kept
    flash := s.flash.kept s.now warm
    sec := { keys := s.sec.keys }
    smb := s.smb
    board := s.board.kept warm }

/-! ### Boot (Table 18.3) -/

/-- Put a field of `NODE_STATUS`. -/
def State.setStatus (s : State) (f : Fld) (v : Nat) : State := s.setFld rNodeStatus f v

/-- Append the POWER_ON record (Table 17.2). -/
def State.logPowerOn (s : State) (cause : Nat) : State := s.logAppend lkPowerOn (leBytes 8 (s.reg rNodeId).toNat ++ leBytes 1 cause ++ leBytes 7 0)

/-- One more power-on in the logbook's count, whose mirror has been compared (R430). -/
def State.countBoot (s : State) : State := (s.addReg rLogBoots 1).setFld rLogStatus fLogStatus_REPAIRED 0

/-- Step 3: the stage-1 copy is taken and measured; a crystal that has not locked is reported (R42, R43, R442). Running from the oscillator up to
this step is no entry into holdover for HOLDOVER_SEEN; being unlocked at it is (DESIGN CHOICE, log entry 44). -/
def State.bootStage1 (s : State) (found : BootFound) (warm : Bool) : State :=
  let copy := if found.copyA then 0 else 1
  let s := (s.setStatus fNodeStatus_FW_COPY copy).measure 0 0 0 0xFF 0 (sha256 (Config.bootObject 0 copy))
  if !warm then
    if found.locked then (s.setFld rNodeTimeStatus fNodeTimeStatus_LOCKED 1).setFld rNodeTimeStatus fNodeTimeStatus_HOLDOVER 0 else s.enterHoldover 12
  else if s.fld rNodeTimeStatus fNodeTimeStatus_HOLDOVER = 1 then (s.modUnit 12 0 (fun u => { u with fenced := true })).reportFence 12 12 0 0xFF 0
  else s

/-- Step 4: slots 1 to 7 are measured, slot 6 with the enrolment state, and the MSD checks the identity of the other dies (R445, R450,
R451). -/
def State.bootMeasure (s : State) (found : BootFound) : State :=
  let s := [1, 2, 3, 4, 5, 6, 7].foldl (fun (t : State) k =>
    t.measure k k 0 0xFF 0 (sha256 (if k = 6 then Config.enrolment t.sec.keys else Config.bootObject k 0))) s
  [0, 1, 2].foldl (fun (t : State) d =>
    let ok := bitOf found.dies d
    let t := t.putSec ({ t.sec with dies := t.sec.dies.set d (if ok then 1 else 2) })
    if ok then t else t.event 1 12 13 0 0 0xFF d) s

/-- Step 5: the domains of clusters and uncores are powered at their factory trained voltages; arrays stay off until an image uses them (R36,
R38). The power limit is in force from here (R45). -/
def State.bootPower (s : State) : State :=
  ([0, 1, 2, 3, 4, 5, 6, 7, 12, 13].foldl (fun (t : State) d => t.powerDomain d true) s).setLimit (s.fld rNodePowerLimit fNodePowerLimit_LIMIT_W)

/-- The flash population that a boot finds, from its numbers; nothing fitted where there are none. It is accepted where every channel holds the same LUNs
of one geometry (`ok`), 1 to 32 of them (R329). -/
def foundGeo (xs : List Nat) (ok : Bool) : Option FlashGeo :=
  match xs with
  | luns :: blocks :: pages :: rated :: bad =>
    let pair := fun (i : Nat) => (bad.getD (2 * i) 0, bad.getD (2 * i + 1) 0)
    some { luns := luns, blocks := blocks, pages := pages, rated := rated, bad := (List.range (bad.length / 2)).map pair, ok := ok && decide (1 ≤ luns ∧ luns ≤ 32) }
  | _ => none

/-- Step 7: memory has been zeroed with the reset, and the node's own areas are reserved (R310); the flash is discovered and its map replayed (R329,
R331). A LUN whose rebuild goes on is still fenced, and one that does not answer is fenced now. -/
def State.bootFlash (s : State) (found : BootFound) : State :=
  let s := ((s.reserveAreas).modFlash (fun f => { f with geo := foundGeo found.flash found.flashOk })).discoverMedia
  let s := s.flash.rebuild.foldl (fun (t : State) l => t.modUnit 10 l (fun u => { u with fenced := true })) s
  if s.flash.media = 2 then (found.failed.filter (fun u => u / 4096 == 10)).foldl (fun (t : State) u => t.fenceLun (u % 4096)) s else s

/-- Step 8: each unit that fails its self test is fenced and reported. -/
def State.bootTest (s : State) (found : BootFound) : State :=
  (found.failed.filter (fun u => decide (u / 4096 ≤ 7))).foldl (fun (t : State) u => t.fenceUnit 12 (u / 4096) (u % 4096)) s

/-- Step 9: the node is READY; a power-on has its record (R439, R441). -/
def State.bootReady (s : State) : State :=
  let (w, s) := s.fresh
  let ms := min (2 ^ 32 - 1) ((s.now - s.board.start) / 1000000 + w.toNat % 10501)
  let s := ((s.setStatus fNodeStatus_BOOT_STAGE 9).setStatus fNodeStatus_READY_MS ms).setStatus fNodeStatus_READY 1
  if s.fld rNodeStatus fNodeStatus_LAST_RESET = 0 then s.logPowerOn 0 else s

/-- Run the steps of boot in order, each marking its stage, up to the one at which a die or a clock is found missing: there boot stops and
FATAL is set (R443, R473). -/
def State.bootStages (stopAt : Nat) : List (Nat × (State → State)) → State → State
  | [], s => s
  | (n, f) :: rest, s =>
    let s := s.setStatus fNodeStatus_BOOT_STAGE n
    if n = stopAt then s.fatalStop 12 13 0 else bootStages stopAt rest (f s)

/-- Boot from step 3 on (R441, R442): without a readable stage-1 copy the node is in recovery; READY waits for the crystal (R43). -/
def State.boot (s : State) (found : BootFound) (warm : Bool) : State :=
  if !found.copyA && !found.copyB then
    ((s.setStatus fNodeStatus_RECOVERY 1).setStatus fNodeStatus_BOOT_STAGE 0xF0).modFlt (fun t => { t with stopped := true })
  else
    let s := s.bootStages found.stopAt [(3, fun t => t.bootStage1 found warm), (4, fun t => t.bootMeasure found), (5, State.bootPower), (6, id),
      (7, fun t => t.bootFlash found), (8, fun t => t.bootTest found)]
    if s.flt.stopped ∨ s.fld rNodeTimeStatus fNodeTimeStatus_HOLDOVER = 1 then s else s.bootReady

/-- POWER_ON: MSD power-good starts the local time reference at 0 and the boot (R39, R441). With TEST_MODE high the node does not leave reset
(R474). -/
def execPowerOn (found : BootFound) (s : State) : Host.Outcome State Fault Refusal :=
  if s.board.testMode then .next s else
  let s := ((s.wipe false).countBoot.setFld rNodeRailStatus fNodeRailStatus_IN_RANGE 0xFF).setStatus fNodeStatus_BOOT_STAGE 1
  .next ((s.setFld rNodeTimeStatus fNodeTimeStatus_HOLDOVER 1).boot found false)

/-! ### Node warm reset (Table 18.4) -/

/-- Step 2: every partition that the node serves starts a partition reset without SCRUB; completions are written. -/
def State.warmResets (s : State) : State :=
  ((s.parts.map (fun (x : Nat × Part) => x.1) ++ [0, 32]).eraseDups).foldl (fun (t : State) p =>
    if t.sqCount p = 0 ∨ (t.part p).rst.isSome then t else t.resetBegin p false true false none none) s

/-- A node warm reset with its cause (`LAST_RESET`): completions, then everything lost that it loses, the POWER_ON record with cause 1, and
boot from step 3; after a FATAL stop the completions have been written already (R407, R444). -/
def State.warmReset (s : State) (cause : Nat) (found : BootFound) : State :=
  let s := if s.flt.stopped then s else s.warmResets
  let s := (s.wipe true).countBoot
  let s := s.putBoard ({ s.board with start := s.now })
  ((s.setStatus fNodeStatus_LAST_RESET cause).logPowerOn 1).boot found true

/-- MSD_WATCHDOG_EXPIRY: from step 3 of boot on, firmware that does not service the watchdog causes a node warm reset (R442). -/
def execMsdWatchdogExpiry (found : BootFound) (s : State) : Host.Outcome State Fault Refusal :=
  let stage := s.fld rNodeStatus fNodeStatus_BOOT_STAGE
  if s.board.power = false ∨ stage < 3 ∨ 9 < stage then .next s else .next (s.warmReset 3 found)

/-- NODE_RESET_WRITE: with the key and WARM a node warm reset; any other write is discarded and reported (R444). In recovery the node takes no
write (R442). -/
def execNodeResetWrite (pf : Nat) (value : Word) (found : BootFound) (s : State) : Host.Outcome State Fault Refusal :=
  if s.board.power = false ∨ s.recovering = true then .next s
  else if fNodeReset_KEY.get value = 0xB007 ∧ fNodeReset_WARM.get value = 1 then .next (s.warmReset 1 found)
  else if s.flt.stopped then .next s
  else .next (s.accessErr fNodeAccessErr_RSV_WRITE pf rNodeReset)

/-- NODE_RST_N_ASSERT: the land held low for 5 µs or more causes a node warm reset, also from recovery; a shorter low is ignored (R442, R475). -/
def execNodeRstNAssert (ns : Nat) (found : BootFound) (s : State) : Host.Outcome State Fault Refusal :=
  if s.board.power = false ∨ ns < 5000 then .next s else .next (s.warmReset 2 found)

/-! ### Host ports (R440) -/

/-- Whether a host port's link is trained. -/
def State.setHostUp (s : State) (port : Nat) (up : Bool) : State := s.putBoard ({ s.board with hostUp := s.board.hostUp.set port up })

/-- A host port reset: that of its physical function, and its configuration space. -/
def State.portReset (s : State) (port : Nat) : State :=
  let s := s.pfReset port false
  s.putNumVfs (s.numVfs.set port 0)

/-- HOST_PORT_RESET: PERST asserted (0), a hot reset (1) or link down (2) of a host port; only a hot reset leaves the link trained (R440). -/
def execHostPortReset (port kind : Nat) (s : State) : Host.Outcome State Fault Refusal :=
  if 2 ≤ port ∨ s.board.power = false then .next s
  else .next ((if kind = 1 then s else s.setHostUp port false).portReset port)

/-- PERST_DEASSERT: the FHD trains the port's link (R440). -/
def execPerstDeassert (port : Nat) (s : State) : Host.Outcome State Fault Refusal :=
  if s.board.power = false ∨ s.board.extest = true then .next s else .next (s.setHostUp port true)

/-! ### Power, rails and temperature (R469, R470, R479) -/

/-- POWER_DOWN: PWROK falls: the node stops driving its lanes, finishes the logbook append and the journal write, and MSD power-good ends
(R468, R469). What the next power-on would lose is lost. -/
def execPowerDown (s : State) : Host.Outcome State Fault Refusal :=
  let s := s.wipe false
  .next ((s.putBoard ({ s.board with power := false })).putFlt ({ s.flt with stopped := true }))

/-- RAIL_FAULT: a rail has been outside its limits for more than 20 µs: the node stops FATAL with source 10; before READY, boot stops (R470). -/
def execRailFault (rail : Nat) (s : State) : Host.Outcome State Fault Refusal :=
  if 8 ≤ rail ∨ s.board.power = false then .next s else
  let w := s.fld rNodeRailStatus fNodeRailStatus_IN_RANGE
  .next ((s.setFld rNodeRailStatus fNodeRailStatus_IN_RANGE (if bitOf w rail then w - 2 ^ rail else w)).fatalStop 10 13 0)

/-- THERMAL_SHUTDOWN: a junction or a stack reaches its shutdown limit: THERMTRIP_N is asserted and the node stops FATAL (R406, R479). -/
def execThermalShutdown (_sensor : Nat) (s : State) : Host.Outcome State Fault Refusal :=
  if s.board.power = false then .next s
  else .next (((s.putBoard ({ s.board with thermtrip := true }))).fatalStop 9 13 0)

/-! ### Clocks (R42, R43, R473) -/

/-- XTAL_LOSS: the counter runs on from the on-die oscillator, and the crystal input is fenced (R42). -/
def execXtalLoss (s : State) : Host.Outcome State Fault Refusal := if s.board.power = false then .next s else .next (s.enterHoldover 12)

/-- XTAL_LOCK: the time synthesiser locks to the crystal without a step; HOLDOVER is cleared, and a boot that waited for it becomes READY
(R42, R43). -/
def execXtalLock (s : State) : Host.Outcome State Fault Refusal :=
  if s.board.power = false ∨ (s.fld rNodeTimeStatus fNodeTimeStatus_LOCKED = 1 ∧ s.fld rNodeTimeStatus fNodeTimeStatus_HOLDOVER = 0) then .next s else
  let was := s.isFenced 12 0
  let s := (s.setFld rNodeTimeStatus fNodeTimeStatus_LOCKED 1).setFld rNodeTimeStatus fNodeTimeStatus_HOLDOVER 0
  let s := if was then (s.modUnit 12 0 (fun u => { u with fenced := false })).logAppend lkTime (leBytes 8 1) else s
  if s.fld rNodeStatus fNodeStatus_BOOT_STAGE = 8 ∧ s.flt.stopped = false then .next s.bootReady else .next s

/-- REFCLK_PCIE_LOSS: both host links go down, and each port is reset (R473). -/
def execRefclkPcieLoss (s : State) : Host.Outcome State Fault Refusal :=
  if s.board.power = false then .next s
  else .next ([0, 1].foldl (fun (t : State) h => (t.setHostUp h false).portReset h) s)

/-- REFCLK_FAB_LOSS: the lanes of ports 8n to 8n + 7 lose lock and are fenced (R351, R473). -/
def execRefclkFabLoss (n : Nat) (s : State) : Host.Outcome State Fault Refusal :=
  if s.board.power = false ∨ 4 ≤ n then .next s
  else .next ((List.range 64).foldl (fun (t : State) i => t.fenceLane 7 (64 * n + i)) s)

/-- REFCLK_MEM_LOSS: after READY a FATAL stop; before it, boot stops at step 6 (R473). -/
def execRefclkMemLoss (s : State) : Host.Outcome State Fault Refusal :=
  if s.board.power = false then .next s
  else if s.isReady then .next (s.fatalStop 12 13 0)
  else .next ((s.setStatus fNodeStatus_BOOT_STAGE 6).fatalStop 12 13 0)

/-! ### AVSBus, the power limit, JTAG (R48, R471, R477) -/

/-- AVS_POLL: one round of AVSBus requests, in which the rails of the mask `answered` answer. A rail that misses three in a row sets AVS_LOST,
which a round that every rail answers clears; the set-points of the SCD rails are kept while it is set, and are otherwise free within their
range (R471). The readings enter the package power that the voltage loop is given. -/
def execAvsPoll (answered : Nat) (s : State) : Host.Outcome State Fault Refusal :=
  if s.board.power = false then .next s else
  let miss := (List.range 4).map (fun r => if bitOf answered r then 0 else s.board.avsMiss.getD r 0 + 1)
  let was := s.fld rNodeRailStatus fNodeRailStatus_AVS_LOST
  let lost := if miss.all (· == 0) then 0 else if miss.any (fun n => decide (3 ≤ n)) then 1 else was
  let (w, s) := s.fresh
  let set := if lost = 1 then s.board.avsSet else [1740 + w.toNat % 121, 1740 + w.toNat / 121 % 121]
  .next (((s.putBoard ({ s.board with avsMiss := miss, avsSet := set }))).setFld rNodeRailStatus fNodeRailStatus_AVS_LOST lost)

/-- A write of `NODE_POWER_LIMIT` (R48): a limit that no image owns takes effect, clamped to 900 to 1,500 W, a clamp being reported. -/
def State.writePowerLimit (s : State) (pf : Nat) (value : Word) : State :=
  let locked := s.owned.contains (ownKey rNodePowerLimit fNodePowerLimit_LIMIT_W)
  let v := fNodePowerLimit_LIMIT_W.get value
  let s := s.writeFields pf rNodePowerLimit value
  if locked then s else
  let s := if v < 900 ∨ 1500 < v then s.setFld rNodePowerStatus fNodePowerStatus_LIMIT_CLAMPED 1 else s
  s.setLimit (s.fld rNodePowerLimit fNodePowerLimit_LIMIT_W)

/-- NODE_POWER_LIMIT_WRITE (R48). -/
def execNodePowerLimitWrite (value : Word) (pf : Nat) (s : State) : Host.Outcome State Fault Refusal :=
  if s.flt.stopped then .next s else .next (s.writePowerLimit pf value)

/-- JTAG_EXTEST: the node's I/O is disconnected, which ends service as a loss of every link does (R477). -/
def execJtagExtest (s : State) : Host.Outcome State Fault Refusal :=
  if s.board.power = false then .next s else
  let s := s.putBoard ({ s.board with extest := true })
  let s := [0, 1].foldl (fun (t : State) h => (t.setHostUp h false).portReset h) s
  .next ((s.fab.links.map (fun x => x.1)).foldl State.linkDown s)

/-! ### Lands that show state (R474, R476, R477) -/

/-- NODE_READY follows `NODE_STATUS.READY` (R474). -/
def State.nodeReadyLand (s : State) : Bool := s.isReady

/-- THERMTRIP_N is low while asserted (R479). -/
def State.thermtripLand (s : State) : Bool := !s.board.thermtrip

/-- The node's 7-bit SMBus address (R476). -/
def State.smbusAddress (s : State) : Nat := 0x68 + s.board.smbAddr % 4

/-- IDCODE in the layout of IEEE 1149.1 (R477): the stepping, part number 0x5A19, the manufacturer's JEDEC code, and 1. -/
def State.idcode (s : State) : Nat := s.fld rNodeId fNodeId_STEPPING * 2 ^ 28 + 0x5A19 * 2 ^ 12 + Config.jedec % 2 ^ 11 * 2 + 1

/-! ### Idle time -/

/-- One ns in which no command arrives: the local time reference advances while MSD power is good (R39), holdover adds up (Table 1.11), and
each partition with array work queued that owns no array of its mask waits (Table 5.8), and a context pool that was lost comes back (R102). -/
def State.tick (s : State) : State :=
  if !s.board.power then s else
  let s := [0, 1, 2, 3].foldl State.askYield s
  let waits := (s.parts.map (fun x => x.1)).filter (fun p => s.hasArrWork p && !(List.range 4).any (fun a => (s.share a).owner == some p))
  let s := s.putTime (s.time + 1)
  let s := if s.fld rNodeTimeStatus fNodeTimeStatus_HOLDOVER = 1 then (s.putBoard ({ s.board with holdNs := s.board.holdNs + 1 })) else s
  (waits.foldl (fun (t : State) p => t.bump (cPrtArrayWaitNs p) 1) s).poolsBack

end Sys2Proof.Machine
end

