-- ==== Sys2Proof/Machine/Fetch.lean ====
section
/-! DEFINITION. Fetching of host commands and their checks in the staging slot (R115, R124, R380 to R384), and CANCEL (R139, R140). -/

namespace Sys2Proof.Machine

/-- Whether the partition may issue the command (Table 4.3). -/
def issuerOk (p op : Nat) : Bool := p == 0 || p == 32 || !(op == 0x04 || op == 0x05 || op == 0x06 || op == 0x45)

/-- Whether a stream is one that queue `q` of partition `p` takes (R94): within the partition's range and routed to `q`, a stream that no route
covers going to queue 0. Without configuration any stream up to 8,191 is taken (R492). -/
def State.streamOk (s : State) (p q stream : Nat) : Bool :=
  let c := s.pcfg p
  if !s.configured p then decide (stream < 8192)
  else decide (c.streamFirst ≤ stream ∧ stream < c.streamFirst + c.streamCount) &&
    (match c.routes.find? (fun r => decide (r.first ≤ stream ∧ stream < r.first + r.count)) with
     | some r => r.kind == 0 && r.target == q
     | none => q == 0)

/-- Whether no command of the queue whose completion is not yet written has this CID (R121). -/
def State.cidFree (s : State) (p q cid : Nat) : Bool := !(s.recs.any (fun r => r.2.part == p && r.2.q == q && r.2.fab.isNone && r.2.cmd.cid == cid))

/-- Whether CFLAGS, DEADLINE and the addresses of a command are valid (R122, Table 4.1). A RESULT_ADDR other than 0 of a command that produces no
results is accepted, and nothing is written there (DESIGN CHOICE, log entry 46). -/
def HostCmd.flagsOk (c : HostCmd) : Bool :=
  let query := c.opcode == 0x10
  let clean := fun (a : Nat) => a / 2 ^ 63 == 0 || a / 2 ^ 52 % 2048 == 0
  (!c.keepPartial || query || isLong c.opcode) && (!c.widen || query) && (c.deadline == 0 || query) &&
  (if isLong c.opcode then c.statusAddr != 0 && c.statusAddr % 8 == 0 else c.statusAddr == 0) &&
  clean c.resultAddr && (addrParams c.opcode).all (fun o => clean (c.param o 8))

/-- Whether the pipeline has the stages that a query, lookup or update command needs (Table 4.2, order 2, and the chapters' checks with its
status: R171, R267, R290, R296, R242). -/
def State.pipelineOk (s : State) (p op : Nat) : Bool :=
  let has := fun (k : Nat) => (s.pcfg p).stages.any (fun g => g.kind == k)
  (!(op == 0x10 || op == 0x31 || op == 0x32 || op == 0x20 || op == 0x21 || op == 0x24) || !(s.pcfg p).stages.isEmpty) &&
  (!(op == 0x12 || op == 0x20) || has 2) && (op != 0x20 || (s.pcfg p).procChannels != 0) &&
  (op != 0x31 || has 7) && (op != 0x32 || has 8) && (op != 0x51 || (s.pcfg p).arrayMask != 0)

/-- Whether a command runs without an image (Table 4.3). -/
def withoutImage (op : Nat) : Bool := decide (op ≤ 5)

/-- The checks of orders 1 to 3 of Table 4.2 in the slot: the status of the first that fails, and whether it was the stream. An OP of
COLLECTIVE that names nothing is malformed. Without configuration R94 is not checked, so a stream above 8,191 is only malformed (R492). -/
def State.fetchCheck (s : State) (p q : Nat) (c : HostCmd) : Option (Nat × Bool) :=
  if !s.configured p && !withoutImage c.opcode then some (scNotBridled, false)
  else if !s.pipelineOk p c.opcode then some (scNotBridled, false)
  else if (paramFields c.opcode).isNone || !issuerOk p c.opcode || !c.reservedOk then some (scBadCommand, false)
  else if !s.streamOk p q c.stream then some (scBadCommand, s.configured p)
  else if !s.cidFree p q c.cid || !c.flagsOk || (c.opcode == 6 && decide (4 < c.param 0 1)) then some (scBadCommand, false)
  else none

/-- The checks of a command's own chapter that are made in the slot, from order 3 of Table 4.2 on (R124): all those that need no host memory, up to
the first that does. Checks that a chapter makes at admission or at a later step (R267's quotas, R270's, those of Table 2.11 from step 2 on) are made
there. Each command's meaning makes its checks again when it executes (log entry 54). -/
def State.chapterCheck (s : State) (p : Nat) (c : HostCmd) : Option Nat :=
  match c.opcode with
  | 0x03 => s.attestCheck p c
  | 0x04 => s.loadCheck p c
  | 0x05 => s.logReadCheck p c
  | 0x06 => s.collectiveCheck p c
  | 0x10 => if s.vecChecked p c then s.queryInCheck p c else s.queryCheck p c false
  | 0x11 => s.bkeFenceCheck p c
  | 0x12 => s.thresholdCheck p c
  | 0x20 => s.insertCheck p c
  | 0x21 => s.deleteCheck p c
  | 0x22 => s.buildCheck p c
  | 0x23 => s.importCmdCheck p c
  | 0x24 => s.publishCmdCheck p s.nextRec c
  | 0x25 => if (s.pcfg p).stages.isEmpty && s.retiresPublished p c then some scNotBridled else s.retireCmdCheck p s.nextRec c
  | 0x30 => s.tableCreateCheck p c
  | 0x31 => s.lookupCheck p c (s.openTable p (c.param 0 2) s.nextRec)
  | 0x32 => s.updateCheck p c (s.openTable p (c.param 0 2) s.nextRec)
  | 0x33 => s.stepCloseCheck p c
  | 0x34 => s.switchCheck p c
  | 0x35 => s.destroyCheck p c
  | 0x40 => s.tensorAllocCheck p c
  | 0x41 => s.tensorFreeCheck p c
  | 0x42 => s.tensorWriteCheck p c (s.tensorOf p (c.param 0 8))
  | 0x43 => s.tensorReadCheck p c (s.tensorOf p (c.param 0 8))
  | 0x44 => s.tensorMigrateCheck p c
  | 0x45 => s.compositionCheck p c
  | 0x50 => s.bindCheck p c
  | 0x51 => s.arrayRunCheck p c ((s.binding p (c.param 0 1)).bind (fun b => (kvGet? b.tensor s.mem.tensors).map (fun t => (b.tensor, t))))
  | 0x60 => s.nsReadCheck p s.nextRec c
  | 0x61 => s.nsWriteCheck p s.nextRec c
  | 0x62 => s.nsTrimCheck p s.nextRec c
  | 0x63 => s.nsFormatCheck p s.nextRec c
  | _ => none

/-- Whether a quota is what a refused command would pass (R318). -/
def State.chapterOver (s : State) (p : Nat) (c : HostCmd) : Bool :=
  match c.opcode with
  | 0x30 => s.tableOver p c
  | 0x40 => s.tensorOver p c
  | 0x44 => s.migrateOver p c
  | 0x50 => s.bindOver p c
  | 0x63 => s.nsOver p c
  | _ => false

/-- Complete a command that fails its checks in the slot (R124, R380), with what its chapter adds to such a refusal: a quota's is counted (R318), a
publish's for want of young entries too (Table 10.9), a model's is measured (R446), and one of `COMPOSITION_SET` names no entry (R324). A long
operation that is never admitted, refused here or dropped by the meter, has no status word written (DESIGN CHOICE, log entry 46). -/
def State.refuseFetched (s : State) (p q : Nat) (c : HostCmd) (status : Nat) : State :=
  let s := s.noteQuota p status (s.chapterOver p c)
  let s := if c.opcode = 0x24 then s.notePublish p status else s
  let s := if c.opcode = 0x50 then s.measureModel s p c 1 else s
  s.postCompletion p q c.cid c.stream status 0 0 0 (if c.opcode = 0x45 then 0xFFFFFFFFFFFFFFFF else 0) c.noIrq

/-- Whether the node may fetch from a queue now, contexts apart (R81, R103, R115, R118, R132, R380). -/
def State.mayFetch (s : State) (p q : Nat) : Bool :=
  let x := s.queue p q
  decide (q < s.sqCount p) && x.enabled && !s.waitOrdered p q && x.staged.isNone && x.sqHead != x.tail && decide (x.used + x.reserved < x.cqSize) &&
  s.fetching p && s.funcEnabled p && s.board.hostUp.getD (s.pcfg p).port false

/-- Meter a fetched command, and put it into the slot of its queue or drop it (R380, R381, R383, R384). -/
def State.stageCmd (s : State) (p q order : Nat) (c : HostCmd) : State :=
  let len := 128 + s.overhead p 1
  let (s, colour) := s.meterUnit p 1 len
  let act := match s.meterOf p 1 with
    | some m => if colour = 1 then m.yellow else if colour = 2 then m.red else 0
    | none => 0
  if act = 1 then (s.bump (cShpPDrops p 1) 1).postCompletion p q c.cid c.stream scQuota 0 0 0 0 c.noIrq
  else
    let cls := if colour = 0 then s.streamClass p c.stream else 0
    let g : Staged := { cmd := c, order := order, entered := s.now, cls := cls, len := len, start := none, noCtx := false, target := s.fetchAim p c }
    (s.modQueue p q (fun x => { x with staged := some g })).markHeads (s.pcfg p).port

/-- COMMAND_FETCH: the next command of the queue is read and a completion slot reserved; it fails a check and completes at once, or it is
metered and staged (R115, R124, R380). A `BRIDLE_LOAD` of a partition that may not issue it also reports NOT_PF (step 1 of Table 2.11). While a load holds allocations back no quota is judged (R491). While the pool that the admission would use has no context left, the command stays in the submission
queue, and the wait is counted once (R99). `bytes` are what the host's memory holds at the head of the ring. -/
def execCommandFetch (p q : Nat) (bytes : List Byte) (s : State) : Host.Outcome State Fault Refusal :=
  if !s.mayFetch p q then .next s
  else if s.ctxAvail p (s.entryPool p) = 0 then
    if (s.queue p q).ctxWait then .next s else .next ((s.modQueue p q (fun x => { x with ctxWait := true })).bump (cPrtCtxWaits p) 1)
  else
  let c := HostCmd.ofBytes bytes
  let order := s.fetchNo
  let bad := s.fetchCheck p q c
  let s := ((s.putFetchNo (order + 1))).modQueue p q (fun x => { x with sqHead := (x.sqHead + 1) % x.sqSize, reserved := x.reserved + 1, ctxWait := false })
  match bad with
  | some (st, stream) =>
    let load := c.opcode = 4 ∧ issuerOk p 4 = false
    let s := if load then s.noteReject [] { reason := 0x02 } else s
    .next ((if stream then s.bump (cPrtBadStream p) 1 else s).postCompletion p q c.cid c.stream st 0 0 0 (if load then (ImgErr.word { reason := 0x02 }).toNat else 0) c.noIrq)
  | none => match s.chapterCheck p c with
    | some st => if st = scQuota ∧ s.allocHeld = true then .next (s.stageCmd p q order c) else .next (s.refuseFetched p q c st)
    | none => .next (s.stageCmd p q order c)

/-! ### CANCEL (R139, R140) -/

/-- Whether a long operation may still be cancelled: an image load only before its step 13 begins (R76), a delete or erase of a namespace only until its
key is destroyed (R337), one whose completion is held no more; the others end in the step that can no longer be cancelled (R317). -/
def State.cancellable (s : State) (rid : Nat) : Bool :=
  (match s.load with
  | some l => !(l.rid == rid && l.applying)
  | none => true) &&
  !s.flash.ns.any (fun n => n.2.ending == some rid && !s.flash.keys.any (fun k => k.1 == nsBase n.1 / 16384)) &&
  ((kvGet? rid s.recs).bind (fun r => r.late)).isNone

/-- A CANCEL has ended its target: every other CANCEL of that target, admitted or staged, will report the same (R140). -/
def State.markCancelled (s : State) (o : Nat) : State :=
  let mark := fun (xs : List Nat) => if xs = [o] then [o, o] else xs
  (s.putRecs (kvMapVals (fun _ (r : Rec) => if r.cmd.opcode = 2 then { r with waits := mark r.waits } else r) s.recs)).putQueues
    (kvMapVals (fun _ (x : Queue) => { x with staged := x.staged.map (fun g => if g.cmd.opcode = 2 then { g with target := mark g.target } else g) }) s.queues)

/-- End a long operation as cancelled (R139). A load that ends releases what it held (R81). -/
def State.cancelTarget (s : State) (p tid : Nat) (t : Rec) : State :=
  let s := (s.markCancelled t.order).complete p tid scPartial 0 ((t.long.map (fun l => l.count)).getD 0) 0 0 []
  if t.cmd.opcode = 4 then s.releaseHeld.resume else s

/-- End a long operation that waits in the staging slot of queue `k` (partition * 64 + queue) as cancelled (R139). -/
def State.cancelStaged (s : State) (k : Nat) (g : Staged) : State :=
  let s := (s.markCancelled g.order).putQueues (kvUpd k (fun x => { x with staged := none }) (s.markCancelled g.order).queues)
  (s.emit (.status (k / 64) g.cmd.statusAddr (statusWord (finalState scPartial) scPartial 0 0))).postCompletion (k / 64) (k % 64) g.cmd.cid
    g.cmd.stream scPartial 0 0 0 0 g.cmd.noIrq

/-- The staged command of a partition with an order of fetch, and its queue. -/
def State.stagedBy (s : State) (p o : Nat) : Option (Nat × Staged) :=
  s.queues.findSome? (fun x => match x.2.staged with
    | some g => if x.1 / 64 = p ∧ g.order = o then some (x.1, g) else none
    | none => none)

/-- CANCEL: by what its target was when the node fetched it, and is now (R139, R140): none, no long operation, cancelled by another CANCEL,
ended, no longer cancellable, or ended here with `DONE_PARTIAL` before the CANCEL completes. -/
def execCancel (p q cid : Nat) (s : State) : Host.Outcome State Fault Refusal :=
  match s.readyRec p q cid 0x02 with
  | none => .next s
  | some (rid, r) =>
    match r.waits with
    | [] => .next (s.fail p rid scBadHandle)
    | [o] => (match s.recs.find? (fun x => x.2.part == p && x.2.fab.isNone && x.2.order == o), s.stagedBy p o with
      | some (tid, t), _ => if s.cancellable tid then .next ((s.cancelTarget p tid t).done p rid 0 0 0) else .next (s.done p rid 0 1 0)
      | none, some (k, g) => .next ((s.cancelStaged k g).done p rid 0 0 0)
      | none, none => .next (s.done p rid 0 1 0))
    | [_, _] => .next (s.done p rid 0 0 0)
    | _ => .next (s.fail p rid scBadCommand)

end Sys2Proof.Machine
end

