-- ==== Sys2Proof/Machine/RegWrite.lean ====
section
/-! DEFINITION. 64-bit writes of registers (R15 to R19, R86, R482 to R490): the node register space of BAR0 and the partition windows. A register
whose write starts something is written by the meaning of its own row. -/

namespace Sys2Proof.Machine

/-- The state that a meaning answers. -/
def landed (o : Host.Outcome State Fault Refusal) (s : State) : State := match o with | .next t => t | _ => s

/-- Report non-zero reserved bits of a write of the node space. -/
def State.rsvCheck (s : State) (pf off : Nat) (v : Word) : State := if v &&& rsvMask off = 0 then s else s.accessErr fNodeAccessErr_RSV_WRITE pf off

/-! ### Node space -/

/-- The bits of `HIF_Q_STATUS` that no field takes (Table 4.13). -/
def hifRsv : Word := ~~~ packFields [(⟨45, 32⟩, 2 ^ 14 - 1), (⟨29, 16⟩, 2 ^ 14 - 1), (⟨4, 0⟩, 31)]

/-- A write of `PRT_p_CTL` or `PRT_WIN_CTL` (Table 3.9, R103 to R105): RESET starts a reset, which clears QUIESCE; otherwise SCRUB takes the
value, and a change of QUIESCE acts. In `PRT_p_CTL` of a partition without configuration, 0 and 32 apart, SCRUB and QUIESCE take the value
and act on nothing, and RESET finds nothing to reset (DESIGN CHOICE, log entry 46: R104 does not say). -/
def State.writePrtCtl (s : State) (p : Nat) (v : Word) : State :=
  if s.sqCount p = 0 then (s.setFld (rPrtCtl p) fPrtCtl_SCRUB (fPrtCtl_SCRUB.get v)).setFld (rPrtCtl p) fPrtCtl_QUIESCE (fPrtCtl_QUIESCE.get v)
  else if fPrtCtl_RESET.get v = 1 then landed (execPrtResetRequest p v.toNat s) s
  else
    let was := s.fld (rPrtCtl p) fPrtCtl_QUIESCE
    let s := s.setFld (rPrtCtl p) fPrtCtl_SCRUB (fPrtCtl_SCRUB.get v)
    if fPrtCtl_QUIESCE.get v = was then s
    else if was = 0 then landed (execPrtQuiesceSet p s) s else landed (execPrtQuiesceClear p s) s

/-- Take down the links of the ports that are no longer enabled (R349, Tables 14.13 and 14.16). -/
def State.dropPorts (s : State) : State :=
  ((s.fab.links.map (fun (x : Nat × Link) => x.1)).filter (fun l => s.fld rFabCfg fFabCfg_ENABLE == 0 || s.fld (rFabPortCfg (l / 8)) fFabPortCfg_ENABLE == 0)).foldl State.linkDown s

/-- A write of `FAB_PORTp_CFG` (Table 14.16): SPLIT and REACH are ignored while ENABLE is 1. -/
def State.writePortCfg (s : State) (pf n : Nat) (v : Word) : State :=
  let old := s.reg (rFabPortCfg n)
  let v' := if fFabPortCfg_ENABLE.get old = 1 then fFabPortCfg_SPLIT.put (fFabPortCfg_SPLIT.get old) (fFabPortCfg_REACH.put (fFabPortCfg_REACH.get old) v) else v
  (s.writeFields pf (rFabPortCfg n) v').dropPorts

/-- A write of `FLT_UNIT_CTL` (Table 16.11): with GO the operation starts on the selected unit, otherwise only the selection is written. -/
def State.writeUnitCtl (s : State) (pf : Nat) (v : Word) : State :=
  let s := s.rsvCheck pf rFltUnitCtl v
  let op := fFltUnitCtl_OP.get v
  let k := fFltUnitCtl_KIND.get v
  let n := fFltUnitCtl_UNIT.get v
  let clean := v &&& ~~~ rsvMask rFltUnitCtl
  if fFltUnitCtl_GO.get v = 0 then s.writeFields pf rFltUnitCtl clean
  else if op = 1 then landed (execUnitDeclare k n s) s
  else if op = 2 then landed (execUnitRestore k n s) s
  else if op = 3 then landed (execUnitInject k n s) s
  else s.writeFields pf rFltUnitCtl (fFltUnitCtl_GO.put 0 clean)

/-- A write of `FLT_CTR_CLEAR` (Table 16.16). -/
def State.writeCtrClear (s : State) (pf : Nat) (v : Word) : State :=
  let s := s.rsvCheck pf rFltCtrClear v
  if fFltCtrClear_ALL.get v = 1 then landed (execCtrClearAll (fFltCtrClear_BLOCK.get v) s) s
  else landed (execCtrClearOne (fFltCtrClear_BLOCK.get v) (fFltCtrClear_OFFSET.get v) s) s

/-- A write of `SNP_CTL` (Table 16.19): VIEW takes the value; ARMED, then TRIGGER, act where written 1. -/
def State.writeSnpCtl (s : State) (pf : Nat) (v : Word) : State :=
  let s := s.rsvCheck pf rSnpCtl v
  let s := landed (execSnpViewWrite pf (fSnpCtl_VIEW.get v == 1) s) s
  let s := if fSnpCtl_ARMED.get v = 1 then landed (execSnpArm s) s else s
  if fSnpCtl_TRIGGER.get v = 1 then landed (execSnpTrigger s) s else s

/-- A write of `MEM_CSEL` (Table 12.11): the selection, and with LATCH the meters. -/
def State.writeCsel (s : State) (pf : Nat) (v : Word) : State :=
  let s := s.rsvCheck pf rMemCsel v
  if fMemCsel_LATCH.get v = 1 then landed (execMemCselLatch pf (fMemCsel_COMP_ID.get v) (fMemCsel_WINDOW.get v) s) s
  else s.writeFields pf rMemCsel (v &&& ~~~ rsvMask rMemCsel)

/-- A write of `MXAn_CLIP_CFG` (Table 8.11): CLEAR acts and reads 0. -/
def State.writeClipCfg (s : State) (pf n : Nat) (v : Word) : State :=
  let s := s.writeFields pf (rMxaClipCfg n) (fMxaClipCfg_CLEAR.put 0 v)
  if fMxaClipCfg_CLEAR.get v = 1 then landed (execMxaClipClear n s) s else s

/-- A 64-bit write at an offset of the node space. A register with more than field accesses behind it is written by its own operation. -/
def State.writeNode (s : State) (pf off : Nat) (v : Word) : State :=
  if off % 8 ≠ 0 then s.accessErr fNodeAccessErr_BAD_WIDTH pf off
  else if 0x80000 ≤ off ∧ off < 0x88000 then (if v &&& hifRsv = 0 then s else s.accessErr fNodeAccessErr_RSV_WRITE pf off)
  else if off = rNodeReset then
    (if fNodeReset_KEY.get v = 0xB007 ∧ fNodeReset_WARM.get v = 1 then s else s.accessErr fNodeAccessErr_RSV_WRITE pf off)
  else if off = rNodePowerLimit then s.writePowerLimit pf v
  else if off = rNodeBridlePolicy then s.writePolicy pf v
  else if off = rPrtCtl ((off - 0x100000) / 0x1000) ∧ off < 0x140000 then (s.rsvCheck pf off v).writePrtCtl ((off - 0x100000) / 0x1000) v
  else if off = rPrtSearchCfg ((off - 0x100000) / 0x1000) ∧ off < 0x140000 then (s.noteFold ((off - 0x100000) / 0x1000)).writeFields pf off v
  else if off = rMxaClipCfg ((off - 0x1000000) / 0x40000) ∧ off < 0x1100000 then s.writeClipCfg pf ((off - 0x1000000) / 0x40000) v
  else if off = rMemCsel then s.writeCsel pf v
  else if off = rFtlCfg then landed (execFtlSpareWrite v (s.rsvCheck pf off v)) s
  else if off = rFabCfg then (s.writeFields pf off v).dropPorts
  else if off = rFabRouteSeed then (if (s.writeFields pf off v).reg off = s.reg off then s.writeFields pf off v else (s.writeFields pf off v).reroute)
  else if off = rFabRtEntry then landed (execFabRtEntryWrite v pf s) s
  else if off = rFabPortCfg ((off - 0x2001000) / 0x40) ∧ off < 0x2001800 then s.writePortCfg pf ((off - 0x2001000) / 0x40) v
  else if off = rFabLaneEq ((off - 0x2008000) / 0x10) ∧ off < 0x2009000 then landed (execFabLaneEqWrite ((off - 0x2008000) / 0x10) v pf s) s
  else if off = rFltUnitCtl then s.writeUnitCtl pf v
  else if off = rFltEvtPop then (let s := s.rsvCheck pf off v; if fFltEvtPop_POP.get v = 1 then landed (execFltEvtPop pf s) s else s)
  else if off = rFltCtrClear then s.writeCtrClear pf v
  else if off = rSnpCtl then s.writeSnpCtl pf v
  else if off = rTrmUnitCfg then s.writeTrimCfg pf v
  else if off = rTrmUnitLimits then landed (execTrmUnitLimitsWrite pf v s) s
  else if off = rTrmUnitCtl then s.writeTrimCtl pf v
  else if off = rTrmCalOffset then landed (execTrmCalOffsetWrite pf v s) s
  else if off = rSecExtCtl then s.writeExtCtl pf v
  else if off = rSecEnrollCtl then s.writeEnrollCtl pf v
  else s.writeFields pf off v

/-! ### Partition windows (Table 3.1) -/

/-- Report a bad write of a window (R86). -/
def State.winErrIf (s : State) (p : Nat) (bad : Bool) : State := if bad then s.setWinBit p fWinAccessErr else s

/-- The fields of `HIF_Q_CFG` (Table 4.12). -/
def qCfgMask : Word := packFields [(fCfgAggTime, 255), (fCfgAggCount, 255), (fCfgVector, 63), (fCfgCqLog, 15), (fCfgSqLog, 15), (fCfgEnable, 1)]

/-- A write of a ring's base: discarded with CFG_ERR where it would change the base of an active queue (R118). -/
def State.writeQBase (s : State) (p q : Nat) (cq : Bool) (v : Word) : State :=
  let v' := v &&& ~~~ (0xFFF : Word)
  let s := s.winErrIf p (v &&& 0xFFF != 0)
  let x := s.queue p q
  if (if cq then x.cqBase else x.sqBase) = v' then s
  else if x.active then s.modQueue p q (fun x => { x with cfgErr := true })
  else s.modQueue p q (fun x => if cq then { x with cqBase := v' } else { x with sqBase := v' })

/-- A write of `HIF_Q_CFG` (R118, R119). -/
def State.writeQCfg (s : State) (p q : Nat) (v : Word) : State :=
  let v' := v &&& qCfgMask
  let s := s.winErrIf p (v != v')
  let x := s.queue p q
  if fCfgEnable.put 0 v' ≠ fCfgEnable.put 0 x.cfg ∧ x.active = true then s.modQueue p q (fun x => { x with cfgErr := true })
  else
    let s := s.modQueue p q (fun x => { x with cfg := fCfgEnable.put (fCfgEnable.get x.cfg) v' })
    if fCfgEnable.get v' = 1 then landed (execQueueEnable p q s) s else landed (execQueueDisable p q s) s

/-- A write of a queue page (R113): pages at or above SQ_COUNT discard it. -/
def State.writeQPage (s : State) (p q r : Nat) (v : Word) : State :=
  if s.sqCount p ≤ q then s
  else if r = 0 then landed (execSqTailDoorbell p q (v.toNat % 2 ^ 14) (s.winErrIf p (v.toNat / 2 ^ 14 != 0))) s
  else if r = 8 then landed (execCqHeadDoorbell p q (v.toNat % 2 ^ 14) (s.winErrIf p (v.toNat / 2 ^ 14 != 0))) s
  else if r = 0x10 then s.writeQBase p q false v
  else if r = 0x18 then s.writeQBase p q true v
  else if r = 0x20 then s.writeQCfg p q v
  else if r = 0x28 then
    (s.modQueue p q (fun x => { x with cfgErr := x.cfgErr && !v.getLsbD 4, dbErr := x.dbErr && !v.getLsbD 3 })).winErrIf p (v &&& hifRsv != 0)
  else s.winErrIf p (v != 0)

/-- A write of an MSI-X table word: a vector that is unmasked sends a message that is pending (R141, as PCI Express gives). -/
def State.writeMsix (s : State) (p off : Nat) (v : Word) : State :=
  let n := (off - 0x80000) / 16
  if off % 16 = 0 then s.setWin p off v
  else
    let s := s.setWin p off (v &&& 0x1FFFFFFFF)
    if s.vecMasked p n = false ∧ bitOf (s.win p 0x80800).toNat n = true then
      (s.setWin p 0x80800 ((⟨n, n⟩ : Fld).put 0 (s.win p 0x80800))).sendMsix p n
    else s

/-- The reserved bits of `PRT_WIN_STATUS` (Table 3.8). -/
def winStatusRsv : Word := packFields [(⟨37, 8⟩, 2 ^ 30 - 1), (⟨3, 3⟩, 1)]

/-- SCRUB_PROGRESS (R110): 1,000 while no scrub runs, otherwise the share of the bytes to be zeroed, Tier A at 400 GB/s and Tier B at 100 GB/s,
that are zeroed by now, below 1,000 until the scrub ends (DESIGN CHOICE, log entry 46). -/
def State.scrubProgress (s : State) (p : Nat) : Nat :=
  match (s.part p).rst with
  | some r =>
    if !r.scrubbing then 1000 else
    let size := fun (t : Nat) => (s.mem.allocs.filter (fun a => a.2.part == some p && tierOf a.1 == some t)).foldl (fun n a => n + a.2.len) 0
    let d := s.now - r.began
    if size 0 + size 1 = 0 then 0 else min 999 (1000 * (min (size 0) (400 * d) + min (size 1) (100 * d)) / (size 0 + size 1))
  | none => 1000

/-- `PRT_WIN_STATUS` of a partition (Table 3.8). -/
def State.winStatus (s : State) (p : Nat) : Word :=
  packFields [(⟨63, 48⟩, s.resetGen p), (fWinScrub, s.scrubProgress p), (⟨2, 0⟩, s.pstate p)] ||| (s.win p 0x40000 &&& packFields [(⟨7, 4⟩, 15)])

/-- What a 64-bit aligned read at an offset of a partition's window returns (Table 3.1, R86, R87): the window of a partition that no function
has reads zero but for `PRT_WIN_STATUS`; queue pages at or above SQ_COUNT, reserved ranges and WO fields read zero. RESET reads 1 while a reset
runs (Table 3.6). A misaligned read returns all ones. -/
def State.readWindow (s : State) (p off : Nat) : Word :=
  let x := s.queue p (off / 0x1000)
  if off % 8 ≠ 0 then BitVec.allOnes 64
  else if off = 0x40000 then s.winStatus p
  else if s.sqCount p = 0 then 0
  else if off < 0x40000 then
    if s.sqCount p ≤ off / 0x1000 then 0
    else if off % 0x1000 = 0 then BitVec.ofNat 64 x.tail
    else if off % 0x1000 = 8 then BitVec.ofNat 64 x.head
    else if off % 0x1000 = 0x10 then x.sqBase
    else if off % 0x1000 = 0x18 then x.cqBase
    else if off % 0x1000 = 0x20 then x.cfg
    else if off % 0x1000 = 0x28 then s.qStatus p (off / 0x1000)
    else 0
  else if off = 0x40008 then
    s.reg (rPrtCtl p) &&& packFields [(fPrtCtl_SCRUB, 1), (fPrtCtl_QUIESCE, 1), (fPrtCtl_RESET, 1)]
  else if (0x80000 ≤ off ∧ off < 0x80400) ∨ off = 0x80800 then s.win p off
  else 0

/-- A 64-bit write at an offset of a partition's window; the window of a partition that no function has discards it (R87). A node that has
stopped takes only what its physical functions need for `LOG_READ` (R407). -/
def State.writeWindow (s : State) (p off : Nat) (v : Word) : State :=
  if s.sqCount p = 0 then s
  else if off % 8 ≠ 0 then s.setWinBit p fWinAccessErr
  else if off < 0x40000 then s.writeQPage p (off / 0x1000) (off % 0x1000) v
  else if s.flt.stopped then s
  else if off = 0x40000 then
    let w := s.win p 0x40000
    (s.setWin p 0x40000 (w &&& ~~~ (v &&& 0xF0))).winErrIf p (v &&& winStatusRsv != 0)
  else if off = 0x40008 then (s.winErrIf p (v.toNat / 8 != 0)).writePrtCtl p v
  else if 0x80000 ≤ off ∧ off < 0x80400 then s.writeMsix p off v
  else if off = 0x80800 then s
  else s.winErrIf p (v != 0)

/-- A 32-bit write at an offset of a partition's window: one aligned to 4 bytes in the MSI-X table replaces that half of its word, and one of the
pending bits is accepted without effect, as PCI Express gives; any other is an access that R86 turns away. -/
def State.writeWindowHalf (s : State) (p off : Nat) (v : Word) : State :=
  if s.sqCount p = 0 then s
  else if off % 4 = 0 ∧ 0x80000 ≤ off ∧ off < 0x80400 then
    if s.flt.stopped then s else
    let w := s.win p (off / 8 * 8)
    s.writeMsix p (off / 8 * 8) (if off % 8 = 0 then (w &&& 0xFFFFFFFF00000000) ||| (v &&& 0xFFFFFFFF) else (w &&& 0xFFFFFFFF) ||| (v <<< 32))
  else if off % 4 = 0 ∧ 0x80800 ≤ off ∧ off < 0x80808 then s
  else s.windowBad p off true

/-- REGISTER_WRITE: a 64-bit write of the node space by physical function `pf`, or a write of 64 or 32 bits of the window of partition `pf`
(R15, R17, R86). A node that has stopped takes no write of its node space (R407), one in recovery or without power takes none (R442). -/
def execRegisterWrite (pf offset : Nat) (value : Word) (target : RegTarget) (s : State) : Host.Outcome State Fault Refusal :=
  if s.board.power = false ∨ s.recovering = true then .next s
  else match target with
    | .winHalf => .next (s.writeWindowHalf pf offset value)
    | .win => .next (s.writeWindow pf offset value)
    | .node => .next (if s.flt.stopped then s else s.writeNode pf offset value)

end Sys2Proof.Machine
end

