-- ==== Sys2Proof/Machine/Dispatch.lean ====
section
/-! DEFINITION. The dispatch of a command to its meaning: one arm per constructor of `Instr`. -/

namespace Sys2Proof.Machine

/-- The effect of a command on everything but the queue of waiting commands. -/
def exec (i : Instr) (s : State) : Host.Outcome State Fault Refusal :=
  match i with
  | .nop p q cid => Sys2Proof.Machine.execNop p q cid s
  | .fence p q cid => Sys2Proof.Machine.execFence p q cid s
  | .fenceComplete p q cid => Sys2Proof.Machine.execFenceComplete p q cid s
  | .cancel p q cid => Sys2Proof.Machine.execCancel p q cid s
  | .attestReport p q cid => Sys2Proof.Machine.execAttestReport p q cid s
  | .attestCertChain p q cid => Sys2Proof.Machine.execAttestCertChain p q cid s
  | .bridleLoad p q cid image => Sys2Proof.Machine.execBridleLoad p q cid image s
  | .logRead p q cid => Sys2Proof.Machine.execLogRead p q cid s
  | .collectiveBarrier p q cid => Sys2Proof.Machine.execCollectiveBarrier p q cid s
  | .collectiveBroadcastSend p q cid data => Sys2Proof.Machine.execCollectiveBroadcastSend p q cid data s
  | .collectiveBroadcastReceive p q cid => Sys2Proof.Machine.execCollectiveBroadcastReceive p q cid s
  | .collectiveReset p q cid => Sys2Proof.Machine.execCollectiveReset p q cid s
  | .collectiveSnapshot p q cid => Sys2Proof.Machine.execCollectiveSnapshot p q cid s
  | .query p q cid input => Sys2Proof.Machine.execQuery p q cid input s
  | .bkeFence p q cid => Sys2Proof.Machine.execBkeFence p q cid s
  | .bkeFenceComplete p q cid => Sys2Proof.Machine.execBkeFenceComplete p q cid s
  | .thresholdPublish p q cid data => Sys2Proof.Machine.execThresholdPublish p q cid data s
  | .insert p q cid vecs ids attrs => Sys2Proof.Machine.execInsert p q cid vecs ids attrs s
  | .delete p q cid ids => Sys2Proof.Machine.execDelete p q cid ids s
  | .updatePrepare p q cid => Sys2Proof.Machine.execUpdatePrepare p q cid s
  | .segmentBuild p q cid => Sys2Proof.Machine.execSegmentBuild p q cid s
  | .buildStart p q cid => Sys2Proof.Machine.execBuildStart p q cid s
  | .segmentBuildDone p q cid cands => Sys2Proof.Machine.execSegmentBuildDone p q cid cands s
  | .segmentImport p q cid => Sys2Proof.Machine.execSegmentImport p q cid s
  | .segmentImportDone p q cid => Sys2Proof.Machine.execSegmentImportDone p q cid s
  | .segmentPublish p q cid => Sys2Proof.Machine.execSegmentPublish p q cid s
  | .segmentRetire p q cid => Sys2Proof.Machine.execSegmentRetire p q cid s
  | .tableCreate p q cid => Sys2Proof.Machine.execTableCreate p q cid s
  | .tableLookup p q cid indices offsets => Sys2Proof.Machine.execTableLookup p q cid indices offsets s
  | .tableUpdate p q cid indices grads => Sys2Proof.Machine.execTableUpdate p q cid indices grads s
  | .tableStepClose p q cid => Sys2Proof.Machine.execTableStepClose p q cid s
  | .tableSwitch p q cid => Sys2Proof.Machine.execTableSwitch p q cid s
  | .tableDestroy p q cid => Sys2Proof.Machine.execTableDestroy p q cid s
  | .tensorAlloc p q cid => Sys2Proof.Machine.execTensorAlloc p q cid s
  | .tensorFree p q cid => Sys2Proof.Machine.execTensorFree p q cid s
  | .tensorWrite p q cid data => Sys2Proof.Machine.execTensorWrite p q cid data s
  | .tensorRead p q cid => Sys2Proof.Machine.execTensorRead p q cid s
  | .tensorMigrate p q cid => Sys2Proof.Machine.execTensorMigrate p q cid s
  | .migrateSwitch p q cid => Sys2Proof.Machine.execMigrateSwitch p q cid s
  | .claimGrant p q cid => Sys2Proof.Machine.execClaimGrant p q cid s
  | .compositionSet p q cid data => Sys2Proof.Machine.execCompositionSet p q cid data s
  | .compositionRemove p q cid => Sys2Proof.Machine.execCompositionRemove p q cid s
  | .modelBind p q cid => Sys2Proof.Machine.execModelBind p q cid s
  | .modelUnbind p q cid => Sys2Proof.Machine.execModelUnbind p q cid s
  | .arrayRun p q cid input => Sys2Proof.Machine.execArrayRun p q cid input s
  | .nsRead p q cid => Sys2Proof.Machine.execNsRead p q cid s
  | .nsWrite p q cid data => Sys2Proof.Machine.execNsWrite p q cid data s
  | .nsTrim p q cid => Sys2Proof.Machine.execNsTrim p q cid s
  | .nsFormatCreate p q cid => Sys2Proof.Machine.execNsFormatCreate p q cid s
  | .nsFormatDelete p q cid => Sys2Proof.Machine.execNsFormatDelete p q cid s
  | .nsFormatErase p q cid => Sys2Proof.Machine.execNsFormatErase p q cid s
  | .nsFormatDone p q cid => Sys2Proof.Machine.execNsFormatDone p q cid s
  | .longOpStart p q cid => Sys2Proof.Machine.execLongOpStart p q cid s
  | .longOpStatusTick p q cid => Sys2Proof.Machine.execLongOpStatusTick p q cid s
  | .sqTailDoorbell p q tail => Sys2Proof.Machine.execSqTailDoorbell p q tail s
  | .cqHeadDoorbell p q head => Sys2Proof.Machine.execCqHeadDoorbell p q head s
  | .queueEnable p q => Sys2Proof.Machine.execQueueEnable p q s
  | .queueDisable p q => Sys2Proof.Machine.execQueueDisable p q s
  | .commandFetch p q bytes => Sys2Proof.Machine.execCommandFetch p q bytes s
  | .hostIngressAdmit port => Sys2Proof.Machine.execHostIngressAdmit port s
  | .orderedRelease p q => Sys2Proof.Machine.execOrderedRelease p q s
  | .admissionResume p => Sys2Proof.Machine.execAdmissionResume p s
  | .fabricReqBufferTimeout p => Sys2Proof.Machine.execFabricReqBufferTimeout p s
  | .msixCoalesceTimeout p q => Sys2Proof.Machine.execMsixCoalesceTimeout p q s
  | .prtResetRequest p value => Sys2Proof.Machine.execPrtResetRequest p value s
  | .prtQuiesceSet p => Sys2Proof.Machine.execPrtQuiesceSet p s
  | .prtQuiesceClear p => Sys2Proof.Machine.execPrtQuiesceClear p s
  | .prtQuiescedEntry p => Sys2Proof.Machine.execPrtQuiescedEntry p s
  | .vfFunctionLevelReset port vf => Sys2Proof.Machine.execVfFunctionLevelReset port vf s
  | .pfFunctionLevelReset port clearOnly => Sys2Proof.Machine.execPfFunctionLevelReset port clearOnly s
  | .vfEnable port numVfs => Sys2Proof.Machine.execVfEnable port numVfs s
  | .drainOrderArrival src part gen seq => Sys2Proof.Machine.execDrainOrderArrival src part gen seq s
  | .drainAckArrival src part gen seq => Sys2Proof.Machine.execDrainAckArrival src part gen seq s
  | .drainTimeout p => Sys2Proof.Machine.execDrainTimeout p s
  | .scrubDone p => Sys2Proof.Machine.execScrubDone p s
  | .handoffOfferArrival ctx gen => Sys2Proof.Machine.execHandoffOfferArrival ctx gen s
  | .handoffAcceptArrival ctx newCtx gen => Sys2Proof.Machine.execHandoffAcceptArrival ctx newCtx gen s
  | .handoffRefuseArrival ctx gen => Sys2Proof.Machine.execHandoffRefuseArrival ctx gen s
  | .handoffCommitArrival ctx gen => Sys2Proof.Machine.execHandoffCommitArrival ctx gen s
  | .handoffRetryTimer ctx => Sys2Proof.Machine.execHandoffRetryTimer ctx s
  | .contextContest ctx => Sys2Proof.Machine.execContextContest ctx s
  | .poolLoss g ecc => Sys2Proof.Machine.execPoolLoss g ecc s
  | .periodBoundary p => Sys2Proof.Machine.execPeriodBoundary p s
  | .arrayTaken a p => Sys2Proof.Machine.execArrayTaken a p s
  | .arrayRoundStart a => Sys2Proof.Machine.execArrayRoundStart a s
  | .arraySwitchDone a => Sys2Proof.Machine.execArraySwitchDone a s
  | .privilegedYield a => Sys2Proof.Machine.execPrivilegedYield a s
  | .yieldLimitExpiry a => Sys2Proof.Machine.execYieldLimitExpiry a s
  | .scanHam p c rid desc => Sys2Proof.Machine.execScanHam p c rid desc s
  | .gatherHam p c rid desc => Sys2Proof.Machine.execGatherHam p c rid desc s
  | .scanBits p c rid desc => Sys2Proof.Machine.execScanBits p c rid desc s
  | .copy p c rid desc => Sys2Proof.Machine.execCopy p c rid desc s
  | .fill p c rid desc => Sys2Proof.Machine.execFill p c rid desc s
  | .bkeFenceToken p tok => Sys2Proof.Machine.execBkeFenceToken p tok s
  | .bankCmdDone c => Sys2Proof.Machine.execBankCmdDone c s
  | .channelLingerExpiry c => Sys2Proof.Machine.execChannelLingerExpiry c s
  | .ordinaryAccessHeld c addr write data => Sys2Proof.Machine.execOrdinaryAccessHeld c addr write data s
  | .forcedYield c => Sys2Proof.Machine.execForcedYield c s
  | .refreshDue c bank postponed => Sys2Proof.Machine.execRefreshDue c bank postponed s
  | .targetedRefresh c bank acts => Sys2Proof.Machine.execTargetedRefresh c bank acts s
  | .engineThrottleWindow stack start temp => Sys2Proof.Machine.execEngineThrottleWindow stack start temp s
  | .deltaScanDone p => Sys2Proof.Machine.execDeltaScanDone p s
  | .traverseAdjacencyArrival rid seg cand => Sys2Proof.Machine.execTraverseAdjacencyArrival rid seg cand s
  | .traverseDistancesArrival rid seg cand => Sys2Proof.Machine.execTraverseDistancesArrival rid seg cand s
  | .exactRerank rid => Sys2Proof.Machine.execExactRerank rid s
  | .shardSubrequestArrival pkt => Sys2Proof.Machine.execShardSubrequestArrival pkt s
  | .shardResponseArrival pkt => Sys2Proof.Machine.execShardResponseArrival pkt s
  | .shardFailure seq status => Sys2Proof.Machine.execShardFailure seq status s
  | .arrayInstrMac a p rid desc => Sys2Proof.Machine.execArrayInstrMac a p rid desc s
  | .arrayInstrMultiWord a p rid desc => Sys2Proof.Machine.execArrayInstrMultiWord a p rid desc s
  | .arrayInstrDistance a p rid desc => Sys2Proof.Machine.execArrayInstrDistance a p rid desc s
  | .arrayInstrDone a => Sys2Proof.Machine.execArrayInstrDone a s
  | .layerFetchDone a p => Sys2Proof.Machine.execLayerFetchDone a p s
  | .selectListOpen u rid lid k higher fp dedup => Sys2Proof.Machine.execSelectListOpen u rid lid k higher fp dedup s
  | .selectInsert u lid key id seg node => Sys2Proof.Machine.execSelectInsert u lid key id seg node s
  | .selectListClose u lid => Sys2Proof.Machine.execSelectListClose u lid s
  | .selectMerge u lid data => Sys2Proof.Machine.execSelectMerge u lid data s
  | .tombstoneFold p => Sys2Proof.Machine.execTombstoneFold p s
  | .segmentFree p seg => Sys2Proof.Machine.execSegmentFree p seg s
  | .remoteLookupRequest pkt => Sys2Proof.Machine.execRemoteLookupRequest pkt s
  | .remoteLookupResponse pkt => Sys2Proof.Machine.execRemoteLookupResponse pkt s
  | .contributionArrival pkt => Sys2Proof.Machine.execContributionArrival pkt s
  | .stepEndArrival pkt => Sys2Proof.Machine.execStepEndArrival pkt s
  | .embStepClose table step => Sys2Proof.Machine.execEmbStepClose table step s
  | .embStepTimeout table step => Sys2Proof.Machine.execEmbStepTimeout table step s
  | .embLoadReport table => Sys2Proof.Machine.execEmbLoadReport table s
  | .loadOrderArrival pkt => Sys2Proof.Machine.execLoadOrderArrival pkt s
  | .driftOfferArrival pkt => Sys2Proof.Machine.execDriftOfferArrival pkt s
  | .driftAcceptArrival pkt => Sys2Proof.Machine.execDriftAcceptArrival pkt s
  | .driftCopyArrival pkt => Sys2Proof.Machine.execDriftCopyArrival pkt s
  | .driftSwitch table row => Sys2Proof.Machine.execDriftSwitch table row s
  | .driftSwitchArrival pkt => Sys2Proof.Machine.execDriftSwitchArrival pkt s
  | .driftAbandonTimeout table row => Sys2Proof.Machine.execDriftAbandonTimeout table row s
  | .recallArrival pkt => Sys2Proof.Machine.execRecallArrival pkt s
  | .recallAckArrival pkt => Sys2Proof.Machine.execRecallAckArrival pkt s
  | .replicaUpdateArrival pkt => Sys2Proof.Machine.execReplicaUpdateArrival pkt s
  | .windowOpenArrival src seq wid len => Sys2Proof.Machine.execWindowOpenArrival src seq wid len s
  | .windowAcceptArrival src seq wid => Sys2Proof.Machine.execWindowAcceptArrival src seq wid s
  | .windowRefuseArrival src seq wid => Sys2Proof.Machine.execWindowRefuseArrival src seq wid s
  | .windowCloseArrival src seq wid => Sys2Proof.Machine.execWindowCloseArrival src seq wid s
  | .windowLostTimeout comp index => Sys2Proof.Machine.execWindowLostTimeout comp index s
  | .tierPAccessArrival src seq wid off len write data => Sys2Proof.Machine.execTierPAccessArrival src seq wid off len write data s
  | .tierPResponseArrival src seq status data => Sys2Proof.Machine.execTierPResponseArrival src seq status data s
  | .meterIntegrate => Sys2Proof.Machine.execMeterIntegrate s
  | .memCselLatch pf comp window => Sys2Proof.Machine.execMemCselLatch pf comp window s
  | .flashProgramFail lun block erase => Sys2Proof.Machine.execFlashProgramFail lun block erase s
  | .lunFence lun => Sys2Proof.Machine.execLunFence lun s
  | .lunRebuildDone lun => Sys2Proof.Machine.execLunRebuildDone lun s
  | .gcStart => Sys2Proof.Machine.execGcStart s
  | .wearLevelStart => Sys2Proof.Machine.execWearLevelStart s
  | .mediaScrubRead lun block page found => Sys2Proof.Machine.execMediaScrubRead lun block page found s
  | .ftlSpareWrite value => Sys2Proof.Machine.execFtlSpareWrite value s
  | .flitReceive lane flit => Sys2Proof.Machine.execFlitReceive lane flit s
  | .replayTimeout lane => Sys2Proof.Machine.execReplayTimeout lane s
  | .linkEgressSlot lane => Sys2Proof.Machine.execLinkEgressSlot lane s
  | .transitForward lane pkt => Sys2Proof.Machine.execTransitForward lane pkt s
  | .egressPacketHandoff => Sys2Proof.Machine.execEgressPacketHandoff s
  | .gateEntryAdvance port => Sys2Proof.Machine.execGateEntryAdvance port s
  | .laneFault lane => Sys2Proof.Machine.execLaneFault lane s
  | .laneRejoin lane => Sys2Proof.Machine.execLaneRejoin lane s
  | .helloTimer lane => Sys2Proof.Machine.execHelloTimer lane s
  | .helloArrival lane ident port k width nodeId anchor => Sys2Proof.Machine.execHelloArrival lane ident port k width nodeId anchor s
  | .helloTimeout lane => Sys2Proof.Machine.execHelloTimeout lane s
  | .electArrival lane ident count => Sys2Proof.Machine.execElectArrival lane ident count s
  | .anchorElectTick => Sys2Proof.Machine.execAnchorElectTick s
  | .electStale => Sys2Proof.Machine.execElectStale s
  | .assignArrival src seq ident id => Sys2Proof.Machine.execAssignArrival src seq ident id s
  | .topologyReportArrival node ident links => Sys2Proof.Machine.execTopologyReportArrival node ident links s
  | .topoArrival src seq anchor topo => Sys2Proof.Machine.execTopoArrival src seq anchor topo s
  | .quenchArrival src seq part vcMask dur rate => Sys2Proof.Machine.execQuenchArrival src seq part vcMask dur rate s
  | .releaseArrival src seq => Sys2Proof.Machine.execReleaseArrival src seq s
  | .quenchExpiry sender part vc => Sys2Proof.Machine.execQuenchExpiry sender part vc s
  | .fabricPacketArrival pkt => Sys2Proof.Machine.execFabricPacketArrival pkt s
  | .releaseSend p => Sys2Proof.Machine.execReleaseSend p s
  | .fabricRefuseArrival pkt => Sys2Proof.Machine.execFabricRefuseArrival pkt s
  | .e2eTimeout seq => Sys2Proof.Machine.execE2eTimeout seq s
  | .reassemblyTimeout lane vc level => Sys2Proof.Machine.execReassemblyTimeout lane vc level s
  | .markerArrival lane vc snapId => Sys2Proof.Machine.execMarkerArrival lane vc snapId s
  | .collectiveMessageArrival src kind collId op count lost mask data => Sys2Proof.Machine.execCollectiveMessageArrival src kind collId op count lost mask data s
  | .collectiveTimeout collId => Sys2Proof.Machine.execCollectiveTimeout collId s
  | .routeWeightTick => Sys2Proof.Machine.execRouteWeightTick s
  | .fabRtEntryWrite value pf => Sys2Proof.Machine.execFabRtEntryWrite value pf s
  | .fabLaneEqWrite lane value pf => Sys2Proof.Machine.execFabLaneEqWrite lane value pf s
  | .remoteAttestRequest pkt => Sys2Proof.Machine.execRemoteAttestRequest pkt s
  | .remoteAttestResponse pkt => Sys2Proof.Machine.execRemoteAttestResponse pkt s
  | .stallDetectorTimeout kind unit => Sys2Proof.Machine.execStallDetectorTimeout kind unit s
  | .parityError kind unit => Sys2Proof.Machine.execParityError kind unit s
  | .eccError kind unit what rid addr => Sys2Proof.Machine.execEccError kind unit what rid addr s
  | .tierAChannelFence c => Sys2Proof.Machine.execTierAChannelFence c s
  | .tierBChannelLost c => Sys2Proof.Machine.execTierBChannelLost c s
  | .dieLinkLost link => Sys2Proof.Machine.execDieLinkLost link s
  | .unitDeclare kind unit => Sys2Proof.Machine.execUnitDeclare kind unit s
  | .unitRestore kind unit => Sys2Proof.Machine.execUnitRestore kind unit s
  | .unitRestoreDone kind unit pass => Sys2Proof.Machine.execUnitRestoreDone kind unit pass s
  | .unitInject kind unit => Sys2Proof.Machine.execUnitInject kind unit s
  | .fltEvtPop pf => Sys2Proof.Machine.execFltEvtPop pf s
  | .ctrClearOne block offset => Sys2Proof.Machine.execCtrClearOne block offset s
  | .ctrClearAll block => Sys2Proof.Machine.execCtrClearAll block s
  | .snpTrigger => Sys2Proof.Machine.execSnpTrigger s
  | .snpArm => Sys2Proof.Machine.execSnpArm s
  | .snpViewWrite pf view => Sys2Proof.Machine.execSnpViewWrite pf view s
  | .mxaClipClear n => Sys2Proof.Machine.execMxaClipClear n s
  | .voltageTrimTick rates powers pkg1 pkg10 slacks => Sys2Proof.Machine.execVoltageTrimTick rates powers pkg1 pkg10 slacks s
  | .equalisationTrimTick lane height width => Sys2Proof.Machine.execEqualisationTrimTick lane height width s
  | .refreshTrimTick stack activations temp => Sys2Proof.Machine.execRefreshTrimTick stack activations temp s
  | .sketchThresholdEval p => Sys2Proof.Machine.execSketchThresholdEval p s
  | .placementTrimTick => Sys2Proof.Machine.execPlacementTrimTick s
  | .memMarginTraining tier c rd wr => Sys2Proof.Machine.execMemMarginTraining tier c rd wr s
  | .trmUnitLimitsWrite pf value => Sys2Proof.Machine.execTrmUnitLimitsWrite pf value s
  | .trmCalOffsetWrite pf value => Sys2Proof.Machine.execTrmCalOffsetWrite pf value s
  | .logMirror => Sys2Proof.Machine.execLogMirror s
  | .logHourly temps volts => Sys2Proof.Machine.execLogHourly temps volts s
  | .powerOn found => Sys2Proof.Machine.execPowerOn found s
  | .msdWatchdogExpiry found => Sys2Proof.Machine.execMsdWatchdogExpiry found s
  | .nodeResetWrite pf value found => Sys2Proof.Machine.execNodeResetWrite pf value found s
  | .nodeRstNAssert ns found => Sys2Proof.Machine.execNodeRstNAssert ns found s
  | .hostPortReset port kind => Sys2Proof.Machine.execHostPortReset port kind s
  | .powerDown => Sys2Proof.Machine.execPowerDown s
  | .railFault rail => Sys2Proof.Machine.execRailFault rail s
  | .thermalShutdown sensor => Sys2Proof.Machine.execThermalShutdown sensor s
  | .xtalLoss => Sys2Proof.Machine.execXtalLoss s
  | .xtalLock => Sys2Proof.Machine.execXtalLock s
  | .refclkPcieLoss => Sys2Proof.Machine.execRefclkPcieLoss s
  | .refclkFabLoss n => Sys2Proof.Machine.execRefclkFabLoss n s
  | .refclkMemLoss => Sys2Proof.Machine.execRefclkMemLoss s
  | .avsPoll answered => Sys2Proof.Machine.execAvsPoll answered s
  | .nodePowerLimitWrite value pf => Sys2Proof.Machine.execNodePowerLimitWrite value pf s
  | .requireSigSet pf value => Sys2Proof.Machine.execRequireSigSet pf value s
  | .secExtend pf value => Sys2Proof.Machine.execSecExtend pf value s
  | .secEnroll pf value => Sys2Proof.Machine.execSecEnroll pf value s
  | .secRevoke pf value => Sys2Proof.Machine.execSecRevoke pf value s
  | .spdmGetVersion => Sys2Proof.Machine.execSpdmGetVersion s
  | .spdmGetCapabilities => Sys2Proof.Machine.execSpdmGetCapabilities s
  | .spdmNegotiateAlgorithms => Sys2Proof.Machine.execSpdmNegotiateAlgorithms s
  | .spdmGetDigests => Sys2Proof.Machine.execSpdmGetDigests s
  | .spdmGetCertificate slot offset length => Sys2Proof.Machine.execSpdmGetCertificate slot offset length s
  | .spdmChallenge slot nonce => Sys2Proof.Machine.execSpdmChallenge slot nonce s
  | .spdmGetMeasurements index nonce => Sys2Proof.Machine.execSpdmGetMeasurements index nonce s
  | .spdmVendorDefinedRequest data => Sys2Proof.Machine.execSpdmVendorDefinedRequest data s
  | .spdmUnsupportedRequest code => Sys2Proof.Machine.execSpdmUnsupportedRequest code s
  | .mctpControlMessage data => Sys2Proof.Machine.execMctpControlMessage data s
  | .bar0BadAccess pf offset write => Sys2Proof.Machine.execBar0BadAccess pf offset write s
  | .windowBadAccess p offset write => Sys2Proof.Machine.execWindowBadAccess p offset write s
  | .registerWrite pf offset value target => Sys2Proof.Machine.execRegisterWrite pf offset value target s
  | .linkTrainingDone lane => Sys2Proof.Machine.execLinkTrainingDone lane s
  | .perstDeassert port => Sys2Proof.Machine.execPerstDeassert port s
  | .contributionResultArrival pkt => Sys2Proof.Machine.execContributionResultArrival pkt s
  | .mctpUnsupportedMessage mtype => Sys2Proof.Machine.execMctpUnsupportedMessage mtype s
  | .jtagExtest => Sys2Proof.Machine.execJtagExtest s

end Sys2Proof.Machine
end

