-- ==== Sys2Proof/Safety.lean ====
section
/-! DEFINITION. What counts as a safe run and what a command is seen to do, in the terms that claims use: the traffic sent to the host,
completions, requests that may execute, and what a step leaves as it was. -/

namespace Sys2Proof.Machine

/-! ### What the host sees -/

/-- Nothing that `s` has sent to the host is taken back in `t`. -/
def Extends (s t : State) : Prop := s.out <+: t.out

/-- `t` has sent `o` to the host since `s`. -/
def Sent (s t : State) (o : HostOut) : Prop := ∃ xs, t.out = s.out ++ xs ∧ o ∈ xs

/-- Since `s`, queue `q` of partition `p` has been given a completion entry with this CID, STATUS, COUNT (at most 0xFFFF_FFFF), RESULT0 and
RESULT1 (Table 4.4). -/
def Completes (s t : State) (p q cid status count r0 r1 : Nat) : Prop :=
  ∃ slot c, Sent s t (.completion p q slot c) ∧ c.cid = cid ∧ c.sqId = q ∧ c.status = status ∧ c.count = min 0xFFFFFFFF count ∧ c.r0 = r0 ∧ c.r1 = r1

/-- Since `s`, packet `k` has been handed over (R379, R383): to the egress, behind what was there, or, where it is for the node itself, to its
endpoints (R218). -/
def Handed (s t : State) (k : Packet) : Prop :=
  if k.dstNode = s.nodeId ∧ s.nodeId ≠ 0 then t.fab.handoff = s.fab.handoff ∧ k ∈ t.fab.arrived else t.fab.handoff = s.fab.handoff ++ [k]

/-! ### Requests -/

/-- Request `rid` with record `r` is the host command `op` of queue `q` with this CID; it may execute now, and its partition is in no
reset. -/
def MayRun (s : State) (p q cid op rid : Nat) (r : Rec) : Prop :=
  s.readyRec p q cid op = some (rid, r) ∧ kvGet? rid s.recs = some r ∧ s.pstate p ≠ stResetting

/-- The same of a command that is under way. -/
def UnderWay (s : State) (p q cid op rid : Nat) (r : Rec) : Prop :=
  s.runningRec p q cid op = some (rid, r) ∧ kvGet? rid s.recs = some r ∧ s.pstate p ≠ stResetting

/-- What a request writes as its results goes to host memory, or to Tier A or B while no tensor is read-only: it is there when the request completes.
Results for Tier F or Tier P may make the completion wait, or fail (R314, R320, R344). -/
def PlainResult (s : State) (r : Rec) : Prop :=
  r.cmd.resultAddr / 2 ^ 63 % 2 = 1 → tierOf (r.cmd.resultAddr % 2 ^ 52) ≠ some 2 ∧ tierOf (r.cmd.resultAddr % 2 ^ 52) ≠ some 3 ∧ s.flash.roTens = []

/-- Request `rid` is now under way with what its record held. -/
def Begun (t : State) (rid : Nat) (r : Rec) : Prop := kvGet? rid t.recs = some { r with phase := .running }

/-- The command answered a next state. -/
def Answers (c : Instr) (s t : State) : Prop := exec c s = .next t

/-! ### What stays as it was -/

/-- Every byte of node memory reads as before. -/
def SameMem (s t : State) : Prop := ∀ a, t.mem.read a = s.mem.read a

/-- Every byte of node memory outside a range reads as before. -/
def SameMemBut (s t : State) (a n : Nat) : Prop := ∀ x, x < a ∨ a + n ≤ x → t.mem.read x = s.mem.read x

/-- Every register of the node space outside a list of offsets holds what it held. -/
def SameRegsBut (s t : State) (offs : List Nat) : Prop := ∀ o, o ∉ offs → t.reg o = s.reg o

/-- Every statistics counter counts what it counted. -/
def SameCtrs (s t : State) : Prop := ∀ o, t.ctr o = s.ctr o

/-- A safe state: memory has its canonical form. -/
def Safe (s : State) : Prop := s.mem.wf = true

end Sys2Proof.Machine
end

