-- ==== Sys2Proof/Certificates/Slice0/Obligations.lean ====
section
/-! DEFINITION. The statements for the provers. Each names in its docstring what it says; the rules it formalises stand in OBLIGATIONS.json. -/

open Sys2Proof Sys2Proof.Machine

/-! ### The block as a whole -/

/-- A step with a command in the queue is that command on the state with the rest of the queue. -/
def Obligations.StepRunsFrontCommand : Prop :=
  ∀ (c : Instr) (rest : List Instr) (s : State), step { s with pending := c :: rest } = exec c { s with pending := rest }

/-- With an empty queue a step lets one ns of the local time reference pass while the node has power (the model's choice, log entry 1): the
time is one more, what the host was sent stays sent, and memory, requests, queues, contexts, the fabric and the fault units are as they were. -/
def Obligations.IdleStepIsOneNanosecond : Prop :=
  ∀ s : State, s.pending = [] → s.board.power = true → ∃ t, step s = .next t ∧ t.time = s.time + 1 ∧ Extends s t ∧ t.mem = s.mem ∧
    t.recs = s.recs ∧ t.queues = s.queues ∧ t.ctxs = s.ctxs ∧ t.fab = s.fab ∧ t.pending = []

/-- Every command answers a next state in every state: the model stops on none. -/
def Obligations.EveryCommandAnswers : Prop := ∀ (c : Instr) (s : State), ∃ t, exec c s = .next t

/-- Node memory keeps its canonical form over every step: from any state that has it, addresses rising and a zero byte listed only in an
undefined range, the next state has it. -/
def Obligations.MemoryFormKeptByEveryStep : Prop := ∀ s t : State, s.mem.wf = true → step s = .next t → t.mem.wf = true

/-- Node memory has its canonical form at reset, and every byte reads zero there (the model's choice for memory that nothing has written, log
entry 7). -/
def Obligations.MemoryFormAtReset : Prop := State.reset.mem.wf = true ∧ ∀ a, State.reset.mem.read a = 0

/-- No command but SEC_ENROLL and SEC_REVOKE changes the image-signing key slots: boot, every reset, every image load and everything else
leaves each slot's state and KEY_ID. -/
def Obligations.KeySlotsOnlyByEnrolAndRevoke : Prop :=
  ∀ (c : Instr) (s t : State), (∀ pf v, c ≠ .secEnroll pf v) → (∀ pf v, c ≠ .secRevoke pf v) → exec c s = .next t → t.sec.keys = s.sec.keys

/-- No command but a power-on and a power-down changes the local time: no register write, host command, packet or reset of any kind sets it back
or moves it on (R39). -/
def Obligations.TimeOnlyByPower : Prop :=
  ∀ (c : Instr) (s t : State), (∀ found, c ≠ .powerOn found) → c ≠ .powerDown → exec c s = .next t → t.time = s.time

/-- The registers of a node at reset hold the reset values that their tables state: the power limit is 1,500 W, counters are zero, the status
registers of the node, of faults, of the fabric and of the flash read zero, and MEM_CFG, BKE_CFG, FTL_CFG, FAB_CFG, SHP_CFG and EMB_CFG hold
their defaults. -/
def Obligations.ResetRegisters : Prop :=
  State.reset.reg rNodePowerLimit = 0x5DC ∧ State.reset.reg rNodeStatus = 0 ∧ State.reset.reg rNodeAccessErr = 0 ∧ State.reset.reg rFltStatus = 0 ∧
  State.reset.reg rFabStatus = 0 ∧ State.reset.reg rFtlStatus = 0 ∧ State.reset.reg rMemCfg = 0x3E8 ∧ State.reset.reg rBkeCfg = 0xA ∧
  State.reset.reg rFtlCfg = 0x191E006400C80046 ∧ State.reset.reg rFabCfg = 0x3E8271008320001 ∧ State.reset.reg rShpCfg = 0x320000 ∧
  State.reset.reg rEmbCfg = 0x6400000000 ∧ (∀ o, State.reset.ctr o = 0) ∧ State.reset.time = 0

/-! ### Host commands and queues (spec/04) -/

/-- NOP completes with DONE (R125). FENCE goes under way, completes with DONE once no earlier command of its scope is left, and stays as it is
until then (R133). CANCEL of a long operation, admitted or in its staging slot, that can be cancelled ends it with DONE_PARTIAL before it
completes itself with DONE; it reports 1 in RESULT0 where the operation had ended, DONE with 0 where another CANCEL ended it, BAD_HANDLE where
it names no command and BAD_COMMAND where it names one that is no long operation (R139, R140). An IDLE long operation whose turn it is starts
and its status word is written; a running one has its status word written with a PROGRESS that has not fallen (R136). -/
def Obligations.HostBasics : Prop :=
  (∀ (s : State) p q cid rid r, MayRun s p q cid 0x00 rid r → ∃ t, exec (.nop p q cid) s = .next t ∧ Completes s t p q cid scDone 0 0 0) ∧
  (∀ (s : State) p q cid rid r, MayRun s p q cid 0x01 rid r → ∃ t, exec (.fence p q cid) s = .next t ∧ Begun t rid r ∧ t.out = s.out) ∧
  (∀ (s : State) p q cid rid r, UnderWay s p q cid 0x01 rid r → s.fenceWaits p q r.order (r.cmd.param 0 1 == 1) (bitOf (r.cmd.param 1 1) 0) = false →
    ∃ t, exec (.fenceComplete p q cid) s = .next t ∧ Completes s t p q cid scDone 0 0 0) ∧
  (∀ (s : State) p q cid rid r, UnderWay s p q cid 0x01 rid r → s.fenceWaits p q r.order (r.cmd.param 0 1 == 1) (bitOf (r.cmd.param 1 1) 0) = true →
    exec (.fenceComplete p q cid) s = .next s) ∧
  (∀ (s : State) p q cid rid r o i x l, MayRun s p q cid 0x02 rid r → r.waits = [o] →
    s.recs.find? (fun y => y.2.part == p && y.2.fab.isNone && y.2.order == o) = some (i, x) → kvGet? i s.recs = some x → x.long = some l →
    x.cmd.opcode ≠ 2 → x.cmd.opcode ≠ 4 → s.cancellable i = true →
    ∃ u : State, exec (.cancel p q cid) s = .next (u.done p rid 0 0 0) ∧ Completes s u p x.q x.cmd.cid scPartial (x.finalCount scPartial l.count) 0 0) ∧
  (∀ (s : State) p q cid rid r o k g, MayRun s p q cid 0x02 rid r → r.waits = [o] →
    s.recs.find? (fun y => y.2.part == p && y.2.fab.isNone && y.2.order == o) = none → s.stagedBy p o = some (k, g) →
    ∃ u : State, exec (.cancel p q cid) s = .next (u.done p rid 0 0 0) ∧ Completes s u (k / 64) (k % 64) g.cmd.cid scPartial 0 0 0) ∧
  (∀ (s : State) p q cid rid r o, MayRun s p q cid 0x02 rid r → r.waits = [o] →
    s.recs.find? (fun y => y.2.part == p && y.2.fab.isNone && y.2.order == o) = none → s.stagedBy p o = none →
    ∃ t, exec (.cancel p q cid) s = .next t ∧ Completes s t p q cid scDone 0 1 0) ∧
  (∀ (s : State) p q cid rid r, MayRun s p q cid 0x02 rid r →
    (∀ o, r.waits = [o, o] → ∃ t, exec (.cancel p q cid) s = .next t ∧ Completes s t p q cid scDone 0 0 0) ∧
    (r.waits = [] → ∃ t, exec (.cancel p q cid) s = .next t ∧ Completes s t p q cid scBadHandle 0 0 0) ∧
    (∀ o, r.waits = [o, o, o] → ∃ t, exec (.cancel p q cid) s = .next t ∧ Completes s t p q cid scBadCommand 0 0 0)) ∧
  (∀ (s : State) p q cid rid r l, s.recOf p q cid = some (rid, r) → kvGet? rid s.recs = some r → r.long = some l → l.running = false → s.longTurn p r.order = true →
    ∃ t, exec (.longOpStart p q cid) s = .next t ∧ Sent s t (.status p r.cmd.statusAddr (statusWord 1 0 l.progress l.count)) ∧
      ∃ r', kvGet? rid t.recs = some r' ∧ r'.long = some { l with running := true, lastWrite := s.now }) ∧
  (∀ (s : State) p q cid rid r l, s.recOf p q cid = some (rid, r) → kvGet? rid s.recs = some r → r.long = some l → l.running = true → l.progress ≤ 1000000 →
    ∃ t n, exec (.longOpStatusTick p q cid) s = .next t ∧ l.progress ≤ n ∧ n ≤ 1000000 ∧
      Sent s t (.status p r.cmd.statusAddr (statusWord 1 0 n l.count)))

/-- The doorbells and the enabling of a queue page below SQ_COUNT on a READY node: a tail below the queue size is recorded, a head below the
ring's size that frees no more than was written frees it, any other sets DB_ERR and is discarded; a queue whose configuration may be enabled
starts with both rings at zero, any other stays disabled with CFG_ERR; a disabled queue is no longer enabled. A tail is discarded silently from
step 2 of a partition reset until its step 7 (R117). -/
def Obligations.QueuePage : Prop :=
  (∀ (s : State) p q tail, q < s.sqCount p → s.isReady = true → s.pstate p ≠ stResetting → tail < (s.queue p q).sqSize →
    ∃ t, exec (.sqTailDoorbell p q tail) s = .next t ∧ t.queue p q = { s.queue p q with tail := tail }) ∧
  (∀ (s : State) p q tail, s.pstate p = stResetting → (∀ r, (s.part p).rst = some r → r.scrubbing = false) → exec (.sqTailDoorbell p q tail) s = .next s) ∧
  (∀ (s : State) p q tail, q < s.sqCount p → s.isReady = true → s.pstate p ≠ stResetting → (s.queue p q).sqSize ≤ tail →
    ∃ t, exec (.sqTailDoorbell p q tail) s = .next t ∧ t.queue p q = { s.queue p q with dbErr := true }) ∧
  (∀ (s : State) p q head, q < s.sqCount p → s.isReady = true → head < (s.queue p q).cqSize → (s.queue p q).freed head ≤ (s.queue p q).used →
    ∃ t, exec (.cqHeadDoorbell p q head) s = .next t ∧
      t.queue p q = { s.queue p q with head := head, used := (s.queue p q).used - (s.queue p q).freed head }) ∧
  (∀ (s : State) p q head, q < s.sqCount p → s.isReady = true → (s.queue p q).cqSize ≤ head ∨ (s.queue p q).used < (s.queue p q).freed head →
    ∃ t, exec (.cqHeadDoorbell p q head) s = .next t ∧ t.queue p q = { s.queue p q with dbErr := true }) ∧
  (∀ (s : State) p q, q < s.sqCount p → s.isReady = true → (s.queue p q).enabled = false → s.enableOk p (s.queue p q) = true →
    ∃ t, exec (.queueEnable p q) s = .next t ∧ (t.queue p q).enabled = true ∧ (t.queue p q).sqHead = 0 ∧ (t.queue p q).cqTail = 0 ∧
      (t.queue p q).tail = 0 ∧ (t.queue p q).head = 0 ∧ (t.queue p q).phase = true) ∧
  (∀ (s : State) p q, q < s.sqCount p → (s.queue p q).enabled = false → s.isReady = false ∨ s.enableOk p (s.queue p q) = false →
    ∃ t, exec (.queueEnable p q) s = .next t ∧ t.queue p q = { s.queue p q with cfgErr := true }) ∧
  (∀ (s : State) p q, q < s.sqCount p → ∃ t, exec (.queueDisable p q) s = .next t ∧ (t.queue p q).enabled = false ∧ (t.queue p q).tail = (s.queue p q).tail ∧
    (t.queue p q).reserved = (s.queue p q).reserved)

/-- What the commands of a queue page leave: a doorbell, an enable or a disable sends the host nothing, and changes no register, counter, byte
of memory, admission record, context or other queue. -/
def Obligations.QueuePageFrame : Prop :=
  ∀ (c : Instr) (p q : Nat) (s t : State), (∃ n, c = .sqTailDoorbell p q n) ∨ (∃ n, c = .cqHeadDoorbell p q n) ∨ c = .queueEnable p q ∨ c = .queueDisable p q →
    exec c s = .next t → t.out = s.out ∧ t.regs = s.regs ∧ t.ctrs = s.ctrs ∧ t.winReg = s.winReg ∧ t.mem = s.mem ∧ t.recs = s.recs ∧
      t.ctxs = s.ctxs ∧ t.fab = s.fab ∧ t.flt = s.flt ∧ t.log = s.log ∧ ∀ k, k ≠ qKey p q → kvGet? k t.queues = kvGet? k s.queues

/-- COMMAND_FETCH of a queue that may fetch, with a context to be had, takes the next command in order of fetch, advances the head of its ring and
reserves a completion slot; a command that fails a check of the slot (R124) completes at once with the status of the first that fails (a
BRIDLE_LOAD that its partition may not issue with an error word in RESULT1), and any other is metered and staged. Without a context the command stays in the submission queue (R99). HOST_INGRESS_ADMIT admits the
command that the port chooses, and ADMISSION_RESUME the oldest one that waits for a context, each under the next record number with the present
stamp. FABRIC_REQ_BUFFER_TIMEOUT refuses the requests that have waited 50 µs and keeps the others. -/
def Obligations.FetchAndAdmit : Prop :=
  (∀ (s u : State) p q bytes, s.mayFetch p q = true → s.ctxAvail p (s.entryPool p) ≠ 0 → s.fetchCheck p q (HostCmd.ofBytes bytes) = none →
    u = (s.putFetchNo (s.fetchNo + 1)).modQueue p q (fun x => { x with sqHead := (x.sqHead + 1) % x.sqSize, reserved := x.reserved + 1, ctxWait := false }) →
    (u.chapterCheck p (HostCmd.ofBytes bytes) = none → exec (.commandFetch p q bytes) s = .next (u.stageCmd p q s.fetchNo (HostCmd.ofBytes bytes))) ∧
    (∀ st, u.chapterCheck p (HostCmd.ofBytes bytes) = some st → st ≠ scQuota →
      ∃ t r0 r1, exec (.commandFetch p q bytes) s = .next t ∧ Completes s t p q (HostCmd.ofBytes bytes).cid st 0 r0 r1 ∧ t.fetchNo = s.fetchNo + 1)) ∧
  (∀ (s : State) p q bytes, s.mayFetch p q = true → s.ctxAvail p (s.entryPool p) = 0 →
    ∃ t, exec (.commandFetch p q bytes) s = .next t ∧ t.queue p q = { s.queue p q with ctxWait := true } ∧ t.fetchNo = s.fetchNo ∧ t.recs = s.recs) ∧
  (∀ (s : State) p q bytes st b, s.mayFetch p q = true → s.ctxAvail p (s.entryPool p) ≠ 0 → s.fetchCheck p q (HostCmd.ofBytes bytes) = some (st, b) →
    ∃ t r1, exec (.commandFetch p q bytes) s = .next t ∧ Completes s t p q (HostCmd.ofBytes bytes).cid st 0 0 r1 ∧ t.fetchNo = s.fetchNo + 1 ∧
      ((HostCmd.ofBytes bytes).opcode ≠ 4 ∨ issuerOk p 4 = true → r1 = 0)) ∧
  (∀ (s : State) port p c k g, (s.markHeads port).choose port = some (p, c, k, g) →
    ∃ u : State, exec (.hostIngressAdmit port) s = .next ((u.admitStaged k g).markHeads port) ∧ u.recs = s.recs ∧ u.nextRec = s.nextRec ∧ u.ctxs = s.ctxs) ∧
  (∀ (s : State) (k : Nat) (g : Staged) (id : Nat) (u : State), s.takeCtx (k / 64) (s.entryPool (k / 64)) s.nextRec 0 .owned = some (id, u) →
    (∀ x ∈ s.inputsOf (k / 64) g.cmd, tierOf x.1 ≠ some 2 ∧ tierOf x.1 ≠ some 3) →
    (s.admitStaged k g).nextRec = s.nextRec + 1 ∧ ∃ r : Rec, kvGet? s.nextRec (s.admitStaged k g).recs = some r ∧ r.part = k / 64 ∧ r.q = k % 64 ∧
      r.cmd = g.cmd ∧ r.stamp = s.now ∧ r.order = g.order ∧ r.ctx = id ∧ r.fab = none) ∧
  (∀ (s : State) (p : Nat) (w : WaitReq) (rest : List WaitReq), s.ctxAvail p (s.entryPool p) ≠ 0 → s.fetching p = true → s.queues = [] → (s.part p).waiting = w :: rest →
    (s.takeCtx p (s.entryPool p) s.nextRec 0 .owned).isSome →
    ∃ t, exec (.admissionResume p) s = .next t ∧ t.nextRec = s.nextRec + 1 ∧ (t.part p).waiting = rest) ∧
  (∀ (s : State) p, (∀ w ∈ (s.part p).waiting, w.arrived + 50000 ≤ s.now) → ∃ t, exec (.fabricReqBufferTimeout p) s = .next t ∧ (t.part p).waiting = []) ∧
  (∀ (s : State) (p : Nat) (w : WaitReq), (s.part p).waiting = [w] → w.arrived + 50000 ≤ s.now →
    ∃ t, exec (.fabricReqBufferTimeout p) s = .next t ∧ (t.part p).waiting = [] ∧ ∃ k, Handed s t k ∧
      k.vc = 2 ∧ k.ptype = 2 ∧ k.dstNode = w.origin.node ∧ k.dstPart = w.origin.part ∧ k.seq = w.origin.seq ∧ k.args = [scRemoteError])

/-- The stream of a fetched command (R94). A command of a configured partition that passes the earlier checks, and whose stream lies outside the
partition's range or is not routed to the queue, completes with BAD_COMMAND and is counted in PRT_p_BAD_STREAM; one whose stream is routed to the
queue, a stream that no STREAM_ROUTE record covers going to queue 0, is not counted there. The count is that of a counter not yet near
saturation. -/
def Obligations.StreamChecked : Prop :=
  ∀ (s : State) (p q : Nat) (bytes : List Byte) (c : HostCmd) (x : PartCfg) (route : Option StreamRoute), p < 64 → c = HostCmd.ofBytes bytes → s.mayFetch p q = true →
    s.ctxAvail p (s.entryPool p) ≠ 0 → s.configured p = true → s.pipelineOk p c.opcode = true → (paramFields c.opcode).isSome = true → issuerOk p c.opcode = true → c.reservedOk = true →
    x = s.pcfg p → route = x.routes.find? (fun r => decide (r.first ≤ c.stream ∧ c.stream < r.first + r.count)) →
    ((c.stream < x.streamFirst ∨ x.streamFirst + x.streamCount ≤ c.stream ∨ (∃ r, route = some r ∧ (r.kind ≠ 0 ∨ r.target ≠ q)) ∨ (route = none ∧ q ≠ 0)) →
      s.ctr (cPrtBadStream p) + 1 < 2 ^ 48 - 1 →
      ∃ t, exec (.commandFetch p q bytes) s = .next t ∧ Completes s t p q c.cid scBadCommand 0 0 0 ∧ t.ctr (cPrtBadStream p) = s.ctr (cPrtBadStream p) + 1) ∧
    (x.streamFirst ≤ c.stream → c.stream < x.streamFirst + x.streamCount → (∃ r, route = some r ∧ r.kind = 0 ∧ r.target = q) ∨ (route = none ∧ q = 0) →
      ∃ t, exec (.commandFetch p q bytes) s = .next t ∧ t.ctr (cPrtBadStream p) = s.ctr (cPrtBadStream p))

/-- A command held by ORDERED executes, and fetching resumes, once no earlier command of its queue is left (R132); a command whose claims waited may
execute once they are free; one that reads Tier P first waits for what the lenders send (R320); a queue whose oldest completion has waited AGG_TIME_US has its message sent, and nothing on its vector stays
pending. -/
def Obligations.HeldCommandsGoOn : Prop :=
  (∀ (s : State) p q rid r, s.recs.find? (fun x => x.2.part == p && x.2.q == q && x.2.fab.isNone && decide (x.2.phase = .heldOrdered)) = some (rid, r) →
    kvGet? rid s.recs = some r → (∀ x ∈ s.recs, x.2.part = p → x.2.q = q → x.2.fab = none → r.order ≤ x.2.order) → s.claimsFree rid r = true →
    (∀ x ∈ s.inputsOf p r.cmd, tierOf x.1 ≠ some 2 ∧ tierOf x.1 ≠ some 3) →
    ∃ t, exec (.orderedRelease p q) s = .next t ∧ kvGet? rid t.recs = some { r with phase := .ready } ∧
      ((s.queue p q).staged = none → s.recs = [(rid, r)] → t.waitOrdered p q = false)) ∧
  (∀ (s : State) p q cid rid r, s.recOf p q cid = some (rid, r) → kvGet? rid s.recs = some r → r.phase = .waitClaims → s.claimsFree rid r = true →
    (∀ x ∈ s.inputsOf p r.cmd, tierOf x.1 ≠ some 2 ∧ tierOf x.1 ≠ some 3) →
    ∃ t, exec (.claimGrant p q cid) s = .next t ∧ kvGet? rid t.recs = some { r with phase := .ready }) ∧
  (∀ (s : State) p q cid rid r a len far, s.recOf p q cid = some (rid, r) → kvGet? rid s.recs = some r → r.phase = .waitClaims → s.claimsFree rid r = true →
    (∀ x ∈ s.inputsOf p r.cmd, tierOf x.1 ≠ some 3) → (s.inputsOf p r.cmd).filter (fun x => tierOf x.1 == some 2) = (a, len) :: far →
    s.windowFor a = .ok none →
    ∃ t, exec (.claimGrant p q cid) s = .next t ∧ kvGet? rid t.recs = some { r with phase := .inputs, need := (a, len) :: far }) ∧
  (∀ (s : State) p q a rest, s.coalOf p q = a :: rest → a + fCfgAggTime.get (s.queue p q).cfg * 1000 ≤ s.now →
    s.funcEnabled p = true → s.vecMasked p (fCfgVector.get (s.queue p q).cfg) = false →
    ∃ t, exec (.msixCoalesceTimeout p q) s = .next t ∧ Sent s t (.msix p (fCfgVector.get (s.queue p q).cfg)) ∧ t.recs = s.recs)

/-! ### Partitions, contexts and the serving loop (spec/03, spec/05) -/

/-- Quiesce (R103): setting QUIESCE takes a READY partition to QUIESCING, and partition 0 or 32 that serves without configuration (R492); clearing
it takes a QUIESCING or QUIESCED one back to the state it rests in, READY for a configured one whose function is enabled; and one
that is QUIESCING and quiet (R80) becomes QUIESCED, sets EV_QUIESCED in its window and signals it with vector 0. -/
def Obligations.Quiesce : Prop :=
  (∀ (s : State) (p : Nat), s.pstate p = stReady →
    ∃ t, exec (.prtQuiesceSet p) s = .next t ∧ t.pstate p = stQuiescing ∧ t.fld (rPrtCtl p) fPrtCtl_QUIESCE = 1 ∧
      SameRegsBut s t [rPrtCtl p, rPrtStatus p] ∧ t.out = s.out ∧ t.mem = s.mem) ∧
  (∀ (s : State) (p : Nat), s.pstate p = stUnconfigured → s.sqCount p ≠ 0 →
    ∃ t, exec (.prtQuiesceSet p) s = .next t ∧ t.pstate p = stQuiescing ∧ t.fld (rPrtCtl p) fPrtCtl_QUIESCE = 1 ∧
      SameRegsBut s t [rPrtCtl p, rPrtStatus p] ∧ t.out = s.out ∧ t.mem = s.mem) ∧
  (∀ (s : State) (p : Nat), s.pstate p = stQuiescing ∨ s.pstate p = stQuiesced →
    ∃ t, exec (.prtQuiesceClear p) s = .next t ∧ t.pstate p = s.restState p ∧ (s.configured p = true → s.funcEnabled p = true → t.pstate p = stReady) ∧
      t.fld (rPrtCtl p) fPrtCtl_QUIESCE = 0 ∧ SameRegsBut s t [rPrtCtl p, rPrtStatus p] ∧ t.queues = s.queues) ∧
  (∀ (s : State) (p : Nat), s.pstate p = stQuiescing → s.isQuiet p none = true →
    ∃ t, exec (.prtQuiescedEntry p) s = .next t ∧ t.pstate p = stQuiesced ∧ fWinEvQuiesced.get (t.win p 0x40000) = 1 ∧
      (s.funcEnabled p = true → s.vecMasked p 0 = false → Sent s t (.msix p 0)))

/-- A partition reset (Table 3.6). A request starts steps 2 to 5, whether by a register write, by a function-level reset of a virtual
function, whose MSI-X table goes back to its reset values, or of a physical function, whose VF Enable is 0 from then on; a request while one
runs merges into it, and clears QUIESCE (R111). Enabling virtual functions sets VF Enable and NumVFs, at most 62. A drain order is acknowledged on VC0; an
acknowledgement strikes its node from those awaited; the timeout strikes all, and counts them; the end of a scrub removes what the partition
stores, its models among them, and goes on to step 8, which a load that holds the reset defers (R77). -/
def Obligations.PartitionReset : Prop :=
  (∀ (s : State) (p v : Nat), s.sqCount p ≠ 0 → (s.part p).rst = none → s.pstate p ≠ stLoading →
    ∃ u : State, u = s.setFld (rPrtCtl p) fPrtCtl_SCRUB (bitOf v 2).toNat ∧
      exec (.prtResetRequest p v) s = .next (((u.resetBegin p (bitOf v 2) false false none none).resetGoOn p).releaseHeld.resume)) ∧
  (∀ (s : State) (p v n : Nat) (r : ResetProg) (ns : List Nat), s.sqCount p ≠ 0 → (s.part p).rst = some r → r.waiting = n :: ns →
    ∃ u : State, exec (.prtResetRequest p v) s = .next (u.releaseHeld.resume) ∧
      (u.part p).rst = some { r with scrub := r.scrub || bitOf v 2 } ∧ u.fld (rPrtCtl p) fPrtCtl_QUIESCE = 0) ∧
  (∀ (s : State) (port vf p : Nat), (s.vfParts port).find? (fun p => (s.pcfg p).vf == vf) = some p →
    ∃ u : State, exec (.vfFunctionLevelReset port vf) s = .next ((u.requestReset p false true none).resume) ∧
      (∀ o, 0x80000 ≤ o → o < 0x100000 → u.win p o = winDefault o) ∧ u.recs = s.recs ∧ u.regs = s.regs) ∧
  (∀ (s : State) (port : Nat) (b : Bool), port < 2 →
    ∃ u : State, exec (.pfFunctionLevelReset port b) s = .next u.resume ∧ u = (s.vfParts port).foldl (fun (t : State) v => (t.clearMsix v).requestReset v false true none)
      (if b then (s.putVfEn (s.vfEn.set port false)).requestReset (32 * port) false false none
       else ((s.putVfEn (s.vfEn.set port false)).clearMsix (32 * port)).requestReset (32 * port) false true none)) ∧
  (∀ (s : State) (port n : Nat), port < 2 → s.vfEn.getD port false = false → (∀ p ∈ s.vfParts port, s.pstate p ≠ stHeld) →
    ∃ u : State, exec (.vfEnable port n) s = .next u.resume ∧ u.vfEn = s.vfEn.set port true ∧ u.numVfs = s.numVfs.set port (min 62 n) ∧ u.regs = s.regs ∧
      u.out = s.out) ∧
  (∀ (s : State) (src part gen seq : Nat), s.orderFresh src seq = true →
    ∃ u : State, exec (.drainOrderArrival src part gen seq) s = .next ((u.sendOrder src 0x11 part gen [part, gen] 4).resume)) ∧
  (∀ (s : State) (src part gen seq n : Nat) (r : ResetProg) (ns : List Nat), s.orderFresh src seq = true → (s.part part).rst = some r → gen = s.resetGen part →
    r.waiting.filter (fun n => n != src) = n :: ns →
    ∃ t, exec (.drainAckArrival src part gen seq) s = .next t ∧ (t.part part).rst = some { r with waiting := n :: ns } ∧ t.out = s.out ∧ t.regs = s.regs) ∧
  (∀ (s : State) (p : Nat) (r : ResetProg), (s.part p).rst = some r → s.ctr (cPrtDrainTimeouts p) + r.waiting.length < 2 ^ 48 - 1 →
    ∃ u : State, exec (.drainTimeout p) s = .next (u.resetGoOn p) ∧ (u.part p).rst = some { r with waiting := [] } ∧
      u.ctr (cPrtDrainTimeouts p) = s.ctr (cPrtDrainTimeouts p) + r.waiting.length) ∧
  (∀ (s : State) (p : Nat) (r : ResetProg), (s.part p).rst = some r → r.scrubbing = true → r.load = false →
    exec (.scrubDone p) s = .next ((s.scrubData p).resetEnd p r).resume ∧ ∀ m ∈ (s.scrubData p).models, m.1 / 256 ≠ p) ∧
  (∀ (s : State) (p : Nat) (r : ResetProg), (s.part p).rst = some r → r.scrubbing = true → r.load = true →
    ∃ t, exec (.scrubDone p) s = .next t ∧ (t.part p).rst = some { r with scrub := false, scrubbing := false } ∧
      ∀ m ∈ t.models, m.1 / 256 ≠ p)

/-- A handoff between pools (Table 3.4, R100, R101). An offer that matches takes a context of the other pool, pending with the next
generation; the acceptance frees the source's copy and moves the record; a refusal returns the copy, to be offered again after 10 µs; the
commit makes the target's copy owned; of copies contested for more than 100 µs one stays, owned, and a request of which no copy is left ends with
ABORTED_POOL_LOST; a message that matches nothing changes no context. A pool's loss frees every context of it and shows REBUILDING (R102). -/
def Obligations.Handoffs : Prop :=
  (∀ (s : State) (x gen id : Nat) (c : Ctx) (t : State), kvGet? x s.ctxs = some c → c.st = .offered → gen = (c.gen + 1) % 65536 →
    s.ctxs.any (fun y => y.2.rid == c.rid && y.1 != x) = false → s.takeCtx c.part (1 - ctxPool x) c.rid gen .pending = some (id, t) →
    exec (.handoffOfferArrival x gen) s = .next t ∧
      kvGet? id t.ctxs = some { st := .pending, part := c.part, gen := gen, rid := c.rid, since := s.now, retry := none }) ∧
  (∀ (s : State) (x gen : Nat), kvGet? x s.ctxs = none →
    ∃ t, exec (.handoffOfferArrival x gen) s = .next t ∧ t.ctxs = s.ctxs ∧ t.recs = s.recs) ∧
  (∀ (s : State) (x y gen : Nat) (c n : Ctx) (r : Rec), kvGet? x s.ctxs = some c → kvGet? y s.ctxs = some n → c.st = .offered → gen = (c.gen + 1) % 65536 →
    n.st = .pending → n.gen = gen → n.rid = c.rid → kvGet? c.rid s.recs = some r →
    ∃ t, exec (.handoffAcceptArrival x y gen) s = .next t ∧ kvGet? x t.ctxs = none ∧ kvGet? c.rid t.recs = some { r with ctx := y } ∧ t.out = s.out) ∧
  (∀ (s : State) (x gen : Nat) (c : Ctx), kvGet? x s.ctxs = some c → c.st = .offered → gen = (c.gen + 1) % 65536 →
    ∃ t, exec (.handoffRefuseArrival x gen) s = .next t ∧ kvGet? x t.ctxs = some { c with st := .owned, retry := some (s.now + 10000) } ∧ t.recs = s.recs) ∧
  (∀ (s : State) (x gen : Nat) (c : Ctx) (r : Rec), kvGet? x s.ctxs = some c → c.st = .pending → c.gen = gen → kvGet? c.rid s.recs = some r → r.ctx = x →
    ∃ u : State, exec (.handoffCommitArrival x gen) s = .next u.resume ∧ kvGet? x u.ctxs = some { c with st := .owned } ∧ u.recs = s.recs) ∧
  (∀ (s : State) (x a : Nat) (c : Ctx), kvGet? x s.ctxs = some c → c.retry = some a → c.st = .owned → a ≤ s.now → s.rebuilding (1 - ctxPool x) = false →
    ∃ t, exec (.handoffRetryTimer x) s = .next t ∧ kvGet? x t.ctxs = some { c with st := .offered, since := s.now, retry := none } ∧ t.recs = s.recs) ∧
  (∀ (s : State) (x : Nat) (c : Ctx) (r : Rec), kvGet? x s.ctxs = some c → c.st ≠ .owned → c.since + 100000 < s.now → s.ctxs = [(x, c)] →
    kvGet? c.rid s.recs = some r → kvGet? c.rid s.queries = none →
    ∃ t : State, exec (.contextContest x) s = .next t ∧ t.ctxs = [(x, { c with st := .owned, retry := none })] ∧
      kvGet? c.rid t.recs = some { r with ctx := x }) ∧
  (∀ (s : State) (x rid : Nat) (r : Rec), s.ctxs = [] → s.recs = [(rid, r)] → r.ctx = x → r.fab = none → r.long = none → s.pstate r.part ≠ stResetting →
    ∃ t, exec (.contextContest x) s = .next t ∧ Completes s t r.part r.q r.cmd.cid scPoolLost 0 0 0) ∧
  (∀ (s : State) (g : Nat) (b : Bool), g < 2 → (∀ r ∈ s.recs, ctxPool r.2.ctx ≠ g) → s.flt.poolLost = [] →
    ∃ u : State, exec (.poolLoss g b) s = .next u.resume ∧ (∀ c ∈ u.ctxs, ctxPool c.1 ≠ g) ∧
      u.fld (rPrtPoolStatus g) fPrtPoolStatus_REBUILDING = 1 ∧ u.recs = s.recs ∧ Extends s u)

/-- The serving loop. A period boundary of a READY partition vents what is due, commits its updates, starts the step of its number and issues its first stages before its arrays are decided (R152); in
a state other than READY and QUIESCING only its arrays are decided, and one of a partition without configuration passes without effect (R145). An
array without an owner is taken by the first partition that queued work for it (R154), a round starts anew when ROUND_US has run, a switch ends once
the old owner's instruction has ended and the warm-in can be done (R155, R156), a privileged owner of an array spills and yields, and so does a
privileged phase on a cluster (R159, R160), and where it reaches no cheap point in time its request to yield is withdrawn and the owner loses its privilege until its next step. -/
def Obligations.ServingLoop : Prop :=
  (∀ (s : State) (p : Nat), s.configured p = true → 0 < (s.pcfg p).periodUs → s.now % ((s.pcfg p).periodUs * 1000) = 0 → s.pstate p = stReady →
    ∃ u : State, u = ((s.restartGates p).ventDue p).commitUpdates p ∧
      exec (.periodBoundary p) s = .next (((((u.startStep p (u.now / ((s.pcfg p).periodUs * 1000))).resume).arrBoundary p).freeOldModels).resume)) ∧
  (∀ (s : State) (p k : Nat), (∀ q ∈ s.queries, q.2.part = p → q.2.phase ≠ 1) → ((s.startStep p k).part p).stepNo = k ∧
    (s.startStep p k).fld (rPrtServeStatus p) fPrtServeStatus_STEP = k % 2 ^ 32) ∧
  (∀ (s : State) (p : Nat), s.configured p = true → 0 < (s.pcfg p).periodUs → s.now % ((s.pcfg p).periodUs * 1000) = 0 → s.pstate p ≠ stReady →
    s.pstate p ≠ stQuiescing → exec (.periodBoundary p) s = .next (((((s.restartGates p).resume).arrBoundary p).freeOldModels).resume)) ∧
  (∀ (s : State) (p : Nat), s.configured p = false → exec (.periodBoundary p) s = .next s) ∧
  (∀ (s : State) (a p : Nat), (s.share a).owner = none → s.isFenced 5 a = false → s.arrFirst a = some p →
    ∃ t, exec (.arrayTaken a p) s = .next t ∧ (t.share a).owner = some p ∧ (t.share a).round = s.now ∧ (t.share a).switching = some (s.now, false)) ∧
  (∀ (s : State) (a o : Nat), (s.share a).owner = some o → (s.share a).round + s.roundNs a ≤ s.now → s.atBoundary o = false →
    ∃ t, exec (.arrayRoundStart a) s = .next t ∧ (t.share a).round = s.now ∧ (t.share a).used = [] ∧ (t.share a).owner = some o) ∧
  (∀ (s : State) (a o x : Nat) (b : Bool), (s.share a).owner = some o → (s.share a).switching = some (x, b) → (s.arrUnit a).run = none →
    x + s.warmNs o (a / 2) ≤ s.now → (s.arrUnit a).queueOf o = [] →
    ∃ u : State, exec (.arraySwitchDone a) s = .next u.resume ∧ (u.share a).switching = none ∧ (u.share a).owner = some o ∧
      (∀ w ∈ (u.share a).spill, w.1 ≠ o) ∧ (u.arrUnit a).model = ((s.arrUnit a).held.find? (fun m => m.part == o)).map (fun m => { m with since := s.now })) ∧
  (∀ (s : State) (a o x : Nat) (b : Bool), (s.share a).owner = some o → (s.share a).switching = some (x, b) →
    (s.arrUnit a).run.isSome = true ∨ s.now < x + s.warmNs o (a / 2) → exec (.arraySwitchDone a) s = .next s.resume) ∧
  (∀ (s : State) (a o n : Nat), a < 4 → (s.share a).owner = some o → s.arrNext a = some n → (s.pcfg o).privileged = true → (s.share a).noYield = false →
    (s.share a).switching = none →
    ∃ u : State, exec (.privilegedYield a) s = .next ((u.arrSwitch a n true).releaseWindows o a) ∧
      (∀ rid, s.liveRequest a o = some rid → (o, rid) ∈ (u.share a).spill) ∧ u.recs = s.recs ∧ u.mem = s.mem) ∧
  (∀ (s : State) (n p rid : Nat), n < 8 → s.coreYields n = some (p, rid) → p < 64 → s.ctr (cPrtYields p) + 1 < 2 ^ 48 - 1 →
    ∃ t, exec (.privilegedYield (n + 4)) s = .next t ∧ (t.part p).spill = (s.part p).spill ++ [(n, rid)] ∧
      t.ctr (cPrtYields p) = s.ctr (cPrtYields p) + 1 ∧ t.mem = s.mem ∧ t.recs = s.recs) ∧
  (∀ (s : State) (a x : Nat), (s.share a).yieldReq = some x → x + s.fld (rMxaShareCfg a) fMxaShareCfg_YIELD_LIMIT_US * 1000 ≤ s.now →
    ∃ t, exec (.yieldLimitExpiry a) s = .next t ∧ (t.share a).yieldReq = none ∧ (t.share a).noYield = true ∧ (t.share a).owner = (s.share a).owner)

/-! ### Bank engines (spec/06) -/

/-- A bank command whose descriptor fails a check, or names another opcode, is refused: its token carries the status and no records (R187),
and neither channels nor memory change. One that passes waits behind what its channel runs, at its issuer where 256 are queued (R173); on an idle
channel in PROCESSOR mode it starts at once. SCAN_HAM and GATHER_HAM open their tag and, as they end, run their comparisons into its lists (R176, R177, R181), SCAN_BITS counts the bits of its
result, and COPY and FILL have the rows they write (R178, R179). When a command is done it returns its token with DONE and its number of
records, and what it writes waits for a fence token (R185, R187), which writes it to memory and returns a token of its own; a token descriptor is checked as
any other (R187). -/
def Obligations.BankCommands : Prop :=
  (∀ (s : State) (i : Instr) (op p c rid st : Nat) (d : List Byte), (op, i) ∈ [(1, Instr.scanHam p c rid d), (2, Instr.gatherHam p c rid d),
    (3, Instr.scanBits p c rid d), (4, Instr.copy p c rid d), (5, Instr.fill p c rid d)] → kvGet? rid s.recs = none →
    (dBop d ≠ op ∧ st = scBadCommand) ∨ (dBop d = op ∧ s.bankCheck p c { part := p, rid := some rid, desc := d, fence := false, since := s.now } = some st) →
    ∃ t, exec i s = .next t ∧ t.tokens = s.tokens ++ [{ part := p, channel := c, tag := dTag d, status := st, records := 0 }] ∧
      t.bank = s.bank ∧ t.mem = s.mem) ∧
  (∀ (s : State) (i : Instr) (op p c rid : Nat) (d : List Byte) (r : BankRun) (j : BankJob), (op, i) ∈ [(1, Instr.scanHam p c rid d), (2, Instr.gatherHam p c rid d),
    (3, Instr.scanBits p c rid d), (4, Instr.copy p c rid d), (5, Instr.fill p c rid d)] → j = { part := p, rid := some rid, desc := d, fence := false, since := s.now } →
    dBop d = op → s.bankCheck p c j = none → (s.chan c).run = some r → (s.chan c).state = 2 →
    ((s.chan c).jobs.length < 256 → ∃ t, exec i s = .next t ∧ t.chan c = { s.chan c with jobs := (s.chan c).jobs ++ [j], idle := s.now } ∧
      t.mem = s.mem ∧ t.out = s.out) ∧
    (256 ≤ (s.chan c).jobs.length → ∃ t, exec i s = .next t ∧ t.chan c = { s.chan c with surplus := (s.chan c).surplus ++ [j] } ∧ t.mem = s.mem ∧ t.out = s.out)) ∧
  (∀ (s : State) (i : Instr) (op p c rid : Nat) (d : List Byte) (j : BankJob), (op, i) ∈ [(1, Instr.scanHam p c rid d), (2, Instr.gatherHam p c rid d),
    (3, Instr.scanBits p c rid d), (4, Instr.copy p c rid d), (5, Instr.fill p c rid d)] → j = { part := p, rid := some rid, desc := d, fence := false, since := s.now } →
    dBop d = op → s.bankCheck p c j = none →
    (s.chan c).run = none → (s.chan c).state = 2 → (s.chan c).jobs = [] → (s.chan c).surplus = [] → (s.chan c).ringWait = none → (s.chan c).tags = [] →
    dKeep d = false → s.fld (rBkeStackStatus (stackOf c)) fBkeStackStatus_THROTTLED = 0 → (s.chan c).flushNeed d ≤ s.ringFree c (dRing d) →
    ∃ (t : State) (r : BankRun), exec i s = .next t ∧ (t.chan c).run = some r ∧ r.job = j ∧ (t.chan c).jobs = [] ∧ t.mem = s.mem ∧ t.out = s.out ∧
      (op ≤ 2 → r.writes = [] ∧ (t.chan c).tags = [BTag.mk (dTag d) (dWidth d) (queryBlock (dWidth d)
        (s.readMem (dQBlock d) (dQCount d * (16 + widthBits (dWidth d) / 8))) (dQCount d)) [] []]) ∧
      (op = 3 → r.sums = (dBanks d).map (fun b => (b, (bankRows (dRowFirst d) (dRowCount d) b).foldl (fun n x => n + popBytes (List.zipWith
        (fun (x y : Byte) => x &&& (if dInvert d then ~~~y else y)) (s.readMem (rowAddr c x) 2048)
        (s.readMem (rowAddr c (x - dRowFirst d + dSrc d)) 2048))) 0)) ∧ (dDst d = noDst → r.writes = [])) ∧
      (op = 4 → r.writes = (dBanks d).flatMap (fun b => (bankRows (dSrc d) (dRowCount d) b).map
        (fun n => (rowAddr c (n - dSrc d + dDst d), s.readMem (rowAddr c n) 2048)))) ∧
      (op = 5 → r.writes = (dBanks d).flatMap (fun b => (bankRows (dDst d) (dRowCount d) b).map
        (fun n => (rowAddr c n, (List.replicate 256 ((d.drop 56).take 8)).flatten))))) ∧
  (∀ (s : State) (c : Nat) (r : BankRun), (s.chan c).run = some r → (s.chan c).jobs = [] →
    ∃ t, exec (.bankCmdDone c) s = .next t ∧ (t.chan c).run = none ∧ t.tokens = s.tokens ++ [BankToken.mk r.job.part c (dTag r.job.desc) scDone
      (((s.runCompare c r.job).chan c).records r).length] ∧
      (dBop r.job.desc = 1 ∨ dBop r.job.desc = 2 → dFlush r.job.desc = false →
        (t.chan c).tags = (s.chan c).tags.map (fun y => if y.tag = dTag r.job.desc then s.tagRun c r.job y else y)) ∧
      (dBop r.job.desc = 4 ∨ dBop r.job.desc = 5 → (t.chan c).pend = (s.chan c).pend ++ r.writes)) ∧
  (∀ (s : State) (p c a : Nat) (bs : List Byte) (j : BankJob), (s.chan c).run = none → (s.chan c).jobs = [j] → (s.chan c).surplus = [] → dBop j.desc = 0x0F →
    j.part = p → j.own = none → (s.chan c).pend = [(a, bs)] → (s.chan c).ring = none → s.isFenced 7 (a / 2 ^ 31) = false →
    ∃ t, exec (.bkeFenceToken p { chan := c }) s = .next t ∧ t.tokens = s.tokens ++ [{ part := p, channel := c, tag := dTag j.desc, status := scDone, records := 0 }] ∧
      (t.chan c).pend = [] ∧ (t.chan c).jobs = [] ∧ t.mem = (s.writeMem a bs).mem) ∧
  (∀ (s : State) (p c rid : Nat) (d : List Byte), d ≠ [] → (s.chan c).run = none → (s.chan c).jobs = [] → (s.chan c).surplus = [] → (s.chan c).state = 2 →
    kvGet? rid s.recs = none →
    (dBop d = 0x0F → dFieldsOk p c d = true → bitOf (s.pcfg p).procChannels c = true →
      ∃ t, exec (.bkeFenceToken p { chan := c, rid := rid, desc := d }) s = .next t ∧ (t.chan c).jobs = [] ∧ (t.chan c).pend = [] ∧
        t.tokens = s.tokens ++ [{ part := p, channel := c, tag := dTag d, status := scDone, records := 0 }]) ∧
    (dBop d ≠ 0x0F ∨ dFieldsOk p c d = false →
      ∃ t, exec (.bkeFenceToken p { chan := c, rid := rid, desc := d }) s = .next t ∧ t.bank = s.bank ∧
        t.tokens = s.tokens ++ [{ part := p, channel := c, tag := dTag d, status := scBadCommand, records := 0 }]) ∧
    (dBop d = 0x0F → dFieldsOk p c d = true → bitOf (s.pcfg p).procChannels c = false →
      ∃ t, exec (.bkeFenceToken p { chan := c, rid := rid, desc := d }) s = .next t ∧ t.bank = s.bank ∧
        t.tokens = s.tokens ++ [{ part := p, channel := c, tag := dTag d, status := scBadHandle, records := 0 }]))

/-- Channels. A processor channel that has been idle for LINGER_US returns to MEMORY mode, and a channel that is not idle stays as it is (R172);
an ordinary access is held, in order, while there is room (R194), and served at once by a channel in MEMORY mode; a forced yield serves what is
held (R195); a refresh takes on the interval of the stack's temperature bin, is counted where a command runs, and its postponement is kept at its
maximum, at most 4 (R190, R192); a row that has reached ACT_LIMIT has its refresh counted (R191); at the end of a 10 µs window a stack whose engine
power, weighed by its temperature, exceeds its budget is marked THROTTLED, and any other is not (R193). BKE_FENCE puts a token on each channel it
names and goes under way, and completes with DONE and the number of channels once none of its tokens is left, or fails with BAD_HANDLE where it
names a channel that is not the partition's (R186). -/
def Obligations.Channels : Prop :=
  (∀ (s : State) (c : Nat), (s.chan c).state = 2 → (s.chan c).run = none → (s.chan c).jobs = [] → (s.chan c).idle + s.lingerNs ≤ s.now →
    (s.chan c).excess = [] → (s.chan c).holds = [] →
    ∃ t, exec (.channelLingerExpiry c) s = .next t ∧ t.chan c = { s.chan c with state := 0 } ∧ t.mem = s.mem) ∧
  (∀ (s : State) (c a : Nat) (bs : List Byte) (n : Nat), (s.chan c).state = 2 → (s.chan c).run = none → (s.chan c).jobs = [] → (s.chan c).idle + s.lingerNs ≤ s.now →
    (s.chan c).excess = [] → (s.chan c).holds = [{ addr := a, write := true, data := bs, since := n }] → s.isFenced 7 (a / 2 ^ 31) = false →
    ∃ t, exec (.channelLingerExpiry c) s = .next t ∧ (t.chan c).state = 0 ∧ (t.chan c).holds = [] ∧ t.mem = (s.writeMem a bs).mem) ∧
  (∀ (s : State) (c : Nat), (s.chan c).run ≠ none ∨ s.now < (s.chan c).idle + s.lingerNs → exec (.channelLingerExpiry c) s = .next s) ∧
  (∀ (s : State) (c a : Nat) (w : Bool) (bs : List Byte), (s.chan c).state = 2 → (s.chan c).holds.length < 64 →
    ∃ t, exec (.ordinaryAccessHeld c a w bs) s = .next t ∧
      (t.chan c).holds = (s.chan c).holds ++ [{ addr := a, write := w, data := bs, since := s.now }] ∧ t.mem = s.mem) ∧
  (∀ (s : State) (c a : Nat) (bs : List Byte), (s.chan c).state = 0 → s.isFenced 7 (a / 2 ^ 31) = false →
    ∃ t, exec (.ordinaryAccessHeld c a true bs) s = .next t ∧ t.mem = (s.writeMem a bs).mem ∧ t.bank = s.bank ∧ t.out = s.out) ∧
  (∀ (s : State) (c : Nat) (h : HeldAcc) (hs : List HeldAcc), (s.chan c).state = 2 → (s.chan c).holds = h :: hs → (s.chan c).run.isSome ∨ (s.chan c).jobs = [] →
    h.since + s.holdLimitNs c ≤ s.now ∨ 64 ≤ (s.chan c).holds.length →
    ∃ t, exec (.forcedYield c) s = .next t ∧ (t.chan c).holds = (s.chan c).excess.take 64 ∧ (t.chan c).excess = (s.chan c).excess.drop 64 ∧
      (t.chan c).state = 2 ∧ t.mem = (s.serveHeld (s.chan c).holds).mem) ∧
  (∀ (s : State) (c b n : Nat), c < 256 → s.ctr (cBkeStackRefreshIns (stackOf c)) + 1 < 2 ^ 48 - 1 →
    ∃ t, exec (.refreshDue c b n) s = .next t ∧
      t.fld (rBkeStackStatus (stackOf c)) fBkeStackStatus_MAX_POSTPONE = max (s.fld (rBkeStackStatus (stackOf c)) fBkeStackStatus_MAX_POSTPONE) (min 4 n) ∧
      t.fld (rBkeStackStatus (stackOf c)) fBkeStackStatus_REFRESH_NS =
        refreshBase (s.stackTemp (stackOf c)) * 1000 / max 1 (s.trim 2 (stackOf c)).output.toNat % 65536 ∧
      ((s.chan c).run.isSome → t.ctr (cBkeStackRefreshIns (stackOf c)) = s.ctr (cBkeStackRefreshIns (stackOf c)) + 1)) ∧
  (∀ (s : State) (c b row n : Nat), s.ctr (cBkeStackTargeted (stackOf c)) + 1 < 2 ^ 48 - 1 → (s.chan c).run = none → row % 16 = b →
    s.fld (rBkeStackCfg (stackOf c)) fBkeStackCfg_ACT_LIMIT ≤ s.actsOf c row + n →
    ∃ t, exec (.targetedRefresh c b { row := row, others := n }) s = .next t ∧ t.ctr (cBkeStackTargeted (stackOf c)) = s.ctr (cBkeStackTargeted (stackOf c)) + 1 ∧
      t.actsOf c row = 0 ∧ t.regs = s.regs) ∧
  (∀ (s : State) (c b row n : Nat), s.actsOf c row + n < s.fld (rBkeStackCfg (stackOf c)) fBkeStackCfg_ACT_LIMIT →
    exec (.targetedRefresh c b { row := row, others := n }) s = .next s) ∧
  (∀ (s u : State) (n start : Nat) (temp : Int), n < 8 → start + 10000 ≤ s.now → u = s.setStackTemp n temp →
    (u.engineBudget n * 100000000 < 66 * u.stackSteps n * (1000 + 5 * (u.stackTemp n - 850).toNat) →
      ∃ t, exec (.engineThrottleWindow n start temp) s = .next t ∧ t.fld (rBkeStackStatus n) fBkeStackStatus_THROTTLED = 1 ∧
        t.fld (rBkeStackStatus n) fBkeStackStatus_TEMP_C = min 255 (s.calibrated (288 + n) temp / 10).toNat ∧ t.mem = s.mem ∧ t.tokens = s.tokens) ∧
    (66 * u.stackSteps n * (1000 + 5 * (u.stackTemp n - 850).toNat) ≤ u.engineBudget n * 100000000 → (∀ i, i < 32 → (s.chan (n * 32 + i)).jobs = []) →
      ∃ t, exec (.engineThrottleWindow n start temp) s = .next t ∧ t.fld (rBkeStackStatus n) fBkeStackStatus_THROTTLED = 0 ∧ t.mem = s.mem ∧
        t.tokens = s.tokens)) ∧
  (∀ (s : State) (n start : Nat) (temp : Int), s.now < start + 10000 → exec (.engineThrottleWindow n start temp) s = .next s) ∧
  (∀ (s : State) p q cid rid r, MayRun s p q cid 0x11 rid r → s.bkeFenceCheck p r.cmd = none →
    (∃ u : State, exec (.bkeFence p q cid) s = .next (u.modRec rid (fun r => { r with phase := .running })) ∧
      u = (maskChannels (s.fenceMask p r.cmd)).foldl (fun t c =>
        t.bankQueue c { part := p, rid := some rid, desc := tokenDesc p c, fence := true, since := t.now }) s) ∧
    (∀ c, maskChannels (s.fenceMask p r.cmd) = [c] → (s.chan c).state = 2 → (s.chan c).run.isSome → (s.chan c).jobs.length < 256 →
      ∃ t, exec (.bkeFence p q cid) s = .next t ∧ Begun t rid r ∧ t.mem = s.mem ∧ t.out = s.out ∧
        (t.chan c).jobs = (s.chan c).jobs ++ [{ part := p, rid := some rid, desc := tokenDesc p c, fence := true, since := s.now }])) ∧
  (∀ (s : State) p q cid rid r c, MayRun s p q cid 0x11 rid r → c < 256 → bitOf (s.fenceMask p r.cmd) c = true → bitOf (s.pcfg p).procChannels c = false →
    ∃ t, exec (.bkeFence p q cid) s = .next t ∧ Completes s t p q cid scBadHandle 0 0 0) ∧
  (∀ (s : State) p q cid rid r, UnderWay s p q cid 0x11 rid r → (∀ x ∈ s.bank, ∀ j ∈ x.2.jobs ++ x.2.surplus, j.fence = true → j.rid ≠ some rid) →
    ∃ t h, exec (.bkeFenceComplete p q cid) s = .next t ∧ Completes s t p q cid scDone (maskChannels (s.fenceMask p r.cmd)).length h 0)

/-! ### Queries and selection (spec/07, spec/09) -/

/-- QUERY: with parameters that pass the checks of R204 that need no host memory, its input is read; one that may be scored and whose epoch is
still held waits for its step with its vector, raw bytes and allow-list (R203). A failed check ends it with the check's status, a zero vector under
cosine with BAD_COMMAND before what else the command names is judged, and an epoch no longer held with EPOCH_RETIRED (R204). -/
def Obligations.QueryAdmission : Prop :=
  (∀ (s : State) (p q cid rid : Nat) (input : List Byte) (r : Rec) (qy : Query) (vec : List Nat) (bs : List Byte), MayRun s p q cid 0x10 rid r →
    kvGet? rid s.queries = some qy → qy.phase = 0 → bs = (s.readInput p r.flow (r.cmd.param 16 8) r.cmd.queryBytes input).1 →
    vec = (if r.cmd.param 0 1 = 0 then vecCodes (r.cmd.param 1 1) (r.cmd.param 2 2) bs else []) →
    (s.named r).queryCheck p r.cmd false = none → s.queryVecOk p r.cmd vec = true → s.asOfHeld p (r.cmd.param 56 8) = true →
    ∃ t, exec (.query p q cid input) s = .next t ∧ Begun t rid r ∧ ∃ y, kvGet? rid t.queries = some y ∧ y.phase = 1 ∧ y.vec = vec ∧ y.raw = bs ∧
      y.epoch = qy.epoch ∧ y.k = qy.k ∧ y.filter = qy.filter ∧ (bitOf (r.cmd.param 10 2) 1 = false → y.allow = none) ∧
      (bitOf (r.cmd.param 10 2) 1 = true → y.allow = (s.claimedTensor r (r.cmd.param 48 8)).map (fun a => a.1)) ∧
      ∀ x, x ≠ rid → kvGet? x t.queries = kvGet? x s.queries) ∧
  (∀ (s : State) (p q cid rid st : Nat) (input : List Byte) (r : Rec) (qy : Query) (vec : List Nat), MayRun s p q cid 0x10 rid r →
    kvGet? rid s.queries = some qy → qy.phase = 0 → qy.part = p → qy.shards = [] →
    vec = (if r.cmd.param 0 1 = 0 then vecCodes (r.cmd.param 1 1) (r.cmd.param 2 2) (s.readInput p r.flow (r.cmd.param 16 8) r.cmd.queryBytes input).1 else []) →
    (s.named r).queryInCheck p r.cmd = some st ∨ ((s.named r).queryInCheck p r.cmd = none ∧ s.queryVecOk p r.cmd vec = true ∧ (s.named r).queryCheck p r.cmd false = some st) →
    ∃ t, exec (.query p q cid input) s = .next t ∧ Completes s t p q cid st 0 0 0) ∧
  (∀ (s : State) (p q cid rid : Nat) (input : List Byte) (r : Rec) (qy : Query), MayRun s p q cid 0x10 rid r →
    kvGet? rid s.queries = some qy → qy.phase = 0 → qy.part = p → qy.shards = [] → r.cmd.param 10 2 ≥ 16 →
    ∃ t, exec (.query p q cid input) s = .next t ∧ Completes s t p q cid scBadCommand 0 0 0) ∧
  (∀ (s : State) (p q cid rid : Nat) (input : List Byte) (r : Rec) (qy : Query) (vec : List Nat) (bs : List Byte), MayRun s p q cid 0x10 rid r →
    kvGet? rid s.queries = some qy → qy.phase = 0 → qy.part = p → qy.shards = [] →
    bs = (s.readInput p r.flow (r.cmd.param 16 8) r.cmd.queryBytes input).1 →
    vec = (if r.cmd.param 0 1 = 0 then vecCodes (r.cmd.param 1 1) (r.cmd.param 2 2) bs else []) → (s.named r).queryInCheck p r.cmd = none →
    (s.queryVecOk p r.cmd vec = false → ∃ t, exec (.query p q cid input) s = .next t ∧ Completes s t p q cid scBadCommand 0 0 0) ∧
    (s.queryVecOk p r.cmd vec = true → (s.named r).queryCheck p r.cmd false = none → s.asOfHeld p (r.cmd.param 56 8) = false →
      ∃ t, exec (.query p q cid input) s = .next t ∧ Completes s t p q cid scEpochRetired 0 0 0))

/-- The events of a query in its step. Once the descriptors of a step's delta scan have completed, the scan is over and its queries go on (R214);
until then nothing happens. An adjacency record marks its unvisited neighbours visited and has them gathered, or ends the expansion where there are
none (R209, R211). The gathered distances enter their beam in list order and end the expansion of their candidate, once the descriptors behind them
have completed (R209, R210). With its pool final and its context in the stage's pool, a query has its candidates scored, on cores or on an array as
the step has decided, its pool closes and it goes on to its final selection; it queues work for an array that its partition does not own, and waits
where other pools of the step are not final (R154, R163, R215). A segment without norms fails it under cosine, and an array refuses it whose
permissions do not allow the re-rank (R227). A query whose phase has given up its core waits for its partition's turn (R159). An event for a query or beam that is
not there changes nothing. -/
def Obligations.QuerySteps : Prop :=
  (∀ (s : State) (p st : Nat) (rest : List Nat), (s.part p).scans = st :: rest → s.ownBusy (fun o => o.step == some (p, st)) = false →
    ∃ (u : State), exec (.deltaScanDone p) s = .next u.resume ∧ (u.part p).scans = rest ∧ (u.part p).scanEnd = st + 1 ∧ u.queries = s.queries ∧ u.mem = s.mem) ∧
  (∀ (s : State) (p st : Nat) (rest : List Nat), (s.part p).scans = st :: rest → s.ownBusy (fun o => o.step == some (p, st)) = true →
    exec (.deltaScanDone p) s = .next s) ∧
  (∀ (s : State) (p : Nat), (s.part p).scans = [] → exec (.deltaScanDone p) s = .next s) ∧
  (∀ (s : State) (rid seg cand : Nat) (q : Query) (b : Beam) (g : Segment) (l v : List Nat) (n : Nat), s.beamOf rid seg = some (q, b) →
    b.out.find? (fun x => x.1 == cand) = some (cand, none) → s.seg? q.part seg = some g → s.coreWaits rid = false →
    visitAll b.pos ((List.range g.degree).map (fun i => leNat (s.readMem (g.adjAt cand + 4 * i) 4))) q.visited = (l, v, n) →
    ∃ (u : State) (y : Query), kvGet? rid u.queries = some y ∧ y.visited = v ∧ y.gathered = q.gathered + l.length ∧ u.mem = s.mem ∧ u.recs = s.recs ∧
      (l = [] → exec (.traverseAdjacencyArrival rid seg cand) s = .next (u.beamMoved rid) ∧
        y.beams = q.beams.map (fun x => if x.seg = seg then x.expand q.pre cand else x)) ∧
      (l ≠ [] → exec (.traverseAdjacencyArrival rid seg cand) s = .next (u.issueGather q.part (g.gatherItems (rid, seg, cand) q b.maxDist l)) ∧
        y.beams = q.beams.map (fun x => if x.seg = seg then { x with out := x.out.map (fun o => if o.1 = cand then (cand, some (l, x.maxDist)) else o) } else x))) ∧
  (∀ (s : State) (rid seg cand m : Nat) (q : Query) (b : Beam) (g : Segment) (l : List Nat) (got : List (Nat × Nat)), s.beamOf rid seg = some (q, b) →
    b.out.find? (fun x => x.1 == cand) = some (cand, some (l, m)) → s.seg? q.part seg = some g → s.ownBusy (fun o => o.need.contains (rid, seg, cand)) = false →
    s.coreWaits rid = false → got = l.filterMap (fun n => (s.gatherDist q g m n).map (fun d => (n, d))) →
    ∃ (u : State) (y : Query), exec (.traverseDistancesArrival rid seg cand) s = .next (u.beamMoved rid) ∧ kvGet? rid u.queries = some y ∧ u.mem = s.mem ∧
      y.beams = q.beams.map (fun x => if x.seg = seg then (got.foldl (fun (b : Beam) z => b.insert z.1 z.2) x).expand q.pre cand else x)) ∧
  (∀ (s : State) (rid seg cand m : Nat) (q : Query) (b : Beam) (g : Segment) (l : List Nat), s.beamOf rid seg = some (q, b) →
    b.out.find? (fun x => x.1 == cand) = some (cand, some (l, m)) → s.seg? q.part seg = some g →
    s.ownBusy (fun o => o.need.contains (rid, seg, cand)) = true ∨ s.coreWaits rid = true → exec (.traverseDistancesArrival rid seg cand) s = .next s) ∧
  (∀ (s : State) (rid seg cand : Nat), s.coreWaits rid = true → exec (.traverseAdjacencyArrival rid seg cand) s = .next s ∧
    ((kvGet? rid s.queries).isSome = true → exec (.exactRerank rid) s = .next s)) ∧
  (∀ (s : State) (rid seg cand : Nat), kvGet? rid s.queries = none → exec (.traverseAdjacencyArrival rid seg cand) s = .next s ∧
    exec (.traverseDistancesArrival rid seg cand) s = .next s ∧ ((∀ x ∈ s.parts, x.2.traces = []) → exec (.exactRerank rid) s = .next s)) ∧
  (∀ (s : State) (rid : Nat) (q : Query) (arr rr : Bool) (xs : List SelEntry), kvGet? rid s.queries = some q → rr = (s.rerankStage q.part).isSome →
    xs = s.scoreAll q arr rr (s.poolEntries rid) →
    ∃ (u : State) (y : Query), s.rerank rid q arr = u.resume ∧ kvGet? rid u.queries = some y ∧ y.scored = some (xs, if rr then xs.length else 0) ∧
      y.pool0 = s.poolEntries rid ∧ y.todo = [6]) ∧
  (∀ (s : State) (p : Nat), s.rerankDecided p = false → ((s.decideRerank p).part p).rrArr = decide ((s.pcfg p).smallBatch ≤
    ((s.reranking p).foldl (fun n q => n + s.rerankRows q) 0) / max 1 (((s.reranking p).length + 511) / 512))) ∧
  (∀ (s : State) (rid : Nat) (q : Query) (norms wants : Bool), kvGet? rid s.queries = some q → q.poolFinal = true → q.scored = none →
    (s.selFind (poolLid rid)).isSome = true → s.coreWaits rid = false → s.ctxIn rid (s.stagePool q.part (q.todo.headD 6)) = true →
    norms = decide ((s.rerankStage q.part).isSome ∧ s.metric q.part = 2 ∧
      (s.poolEntries rid).any (fun e => match s.seg? q.part e.seg with | some g => g.norm == 0 | none => false) = true) →
    wants = (((s.rerankStage q.part).map (fun g => g.place)) == some 0 && !s.arraysGone q.part &&
      s.arrayTakes q.part (((s.segShape q.part).map (fun x => x.2)).getD 0)) →
    (norms = true → exec (.exactRerank rid) s = .next (s.failQuery rid scBadHandle).resume) ∧
    (norms = false → wants = false → exec (.exactRerank rid) s = .next (s.rerank rid q false)) ∧
    (norms = false → wants = true → s.rerankDecided q.part = false → s.poolsFinal q.part = false → exec (.exactRerank rid) s = .next s) ∧
    (norms = false → wants = true → s.rerankDecided q.part = true ∨ s.poolsFinal q.part = true → ∀ t, t = s.decideRerank q.part →
      ((t.part q.part).rrArr = false → exec (.exactRerank rid) s = .next (t.rerank rid q false)) ∧
      ((t.part q.part).rrArr = true → t.ownedArray q.part = none → exec (.exactRerank rid) s = .next (t.queueArrWork q.part rid)) ∧
      (∀ a, (t.part q.part).rrArr = true → t.ownedArray q.part = some a → t.arrayServes q.part (((s.segShape q.part).map (fun x => x.2)).getD 0) a = true →
        t.rerankPermitted q.part (((s.segShape q.part).map (fun x => x.2)).getD 0) a = true → exec (.exactRerank rid) s = .next ((if q.streamed then t else t.streamStep q.part a).rerank rid q true)) ∧
      (∀ a, (t.part q.part).rrArr = true → t.ownedArray q.part = some a → t.arrayServes q.part (((s.segShape q.part).map (fun x => x.2)).getD 0) a = true →
        t.rerankPermitted q.part (((s.segShape q.part).map (fun x => x.2)).getD 0) a = false →
        exec (.exactRerank rid) s = .next (t.refuseStage q.part [(rid, q)] scBadCommand).resume) ∧
      (∀ a, (t.part q.part).rrArr = true → t.ownedArray q.part = some a → t.arrayServes q.part (((s.segShape q.part).map (fun x => x.2)).getD 0) a = false →
        exec (.exactRerank rid) s = .next (t.rerank rid q false))))

/-- Queries across nodes (R218 to R220). A sub-request that a partition accepts is admitted as a query of it; one that it does not accept is
refused. A response gives its list to the query's merge and marks its shard returned; one with another status fails its shard, and one that matches
no outstanding request is discarded and counted (R151, R219). A shard's failure ends its request, is counted and is the query's failure where it is
the first. -/
def Obligations.Shards : Prop :=
  (∀ (s s1 : State) (k : Packet) (id : Nat) (t : State) (r : Rec) (q : Query), s1 = s.taken k → s1.acceptsFabric k.dstPart k.dstEp k.stream = true →
    (s1.part k.dstPart).waiting = [] →
    s1.admitRec k.dstPart k.dstEp (some (reqOrigin k)) (queryCmd k s1.now) s1.fetchNo (s1.entryPool k.dstPart) k.data = some (id, t) →
    kvGet? s1.nextRec t.recs = some r → kvGet? s1.nextRec t.queries = some q →
    t.queryOk q.part r.cmd true (vecCodes q.elem q.dims q.raw) = true →
    ∃ u, exec (.shardSubrequestArrival k) s = .next u ∧ Begun u s1.nextRec r ∧ u.queries = t.queries ∧ u.fetchNo = t.fetchNo + 1) ∧
  (∀ (s : State) (k : Packet), s.acceptsFabric k.dstPart k.dstEp k.stream = false → kvGet? s.nextRec s.recs = none →
    ∃ t, exec (.shardSubrequestArrival k) s = .next t ∧ Handed s t (Packet.mk 2 2 k.opcode k.srcNode k.srcPart k.srcEp s.nodeId k.dstPart
      k.dstEp 0 0 0 k.resetGen k.seq 0 1 0 (s.distTo k.srcNode) [scRemoteError] []) ∧ t.recs = s.recs) ∧
  (∀ (s : State) (k : Packet) (o : OutReq) (rid : Nat) (q : Query) (h : Shard), s.isLate k = false → kvGet? k.seq s.fab.out = some o → o.kind = 0x10 →
    o.rid = some rid → kvGet? rid s.queries = some q → h ∈ q.shards → h.seq = some k.seq → h.state = 0 → k.args.headD scRemoteError = scDone →
    ∃ (u : State) (y : Query), exec (.shardResponseArrival k) s = .next (u.settleShards rid).resume ∧ kvGet? rid u.queries = some y ∧
      y.inputs = q.inputs ++ [k.data] ∧ y.widened = (q.widened || bitOf (fieldAt k.data 44 2) 2) ∧
      y.gathered = q.gathered + (if k.srcNode = s.nodeId then fieldAt k.data 36 4 else 0) ∧
      y.shards = q.shards.map (fun h => if h.seq = some k.seq ∧ h.state = 0 then { h with state := 1, status := 0 } else h) ∧ kvGet? k.seq u.fab.out = none) ∧
  (∀ (s : State) (k : Packet) (o : OutReq) (rid : Nat) (q : Query) (h : Shard), s.isLate k = false → kvGet? k.seq s.fab.out = some o → o.kind = 0x10 →
    o.rid = some rid → kvGet? rid s.queries = some q → h ∈ q.shards → h.seq = some k.seq → h.state = 0 → k.args.headD scRemoteError ≠ scDone →
    ∃ (u : State), exec (.shardResponseArrival k) s = .next (u.shardFailed rid k.seq scRemoteError).resume ∧ u.queries = s.queries ∧ kvGet? k.seq u.fab.out = none) ∧
  (∀ (s : State) (k : Packet), s.isLate k = false → kvGet? k.seq s.fab.out = none → s.ctr (cPrtOrphanResponses k.dstPart) + 1 < 2 ^ 48 - 1 →
    ∃ t, exec (.shardResponseArrival k) s = .next t ∧ t.ctr (cPrtOrphanResponses k.dstPart) = s.ctr (cPrtOrphanResponses k.dstPart) + 1 ∧
      t.queries = s.queries ∧ t.recs = s.recs ∧ t.regs = s.regs) ∧
  (∀ (s : State) (seq status rid n : Nat) (o : OutReq) (q : Query), kvGet? seq s.fab.out = some o → o.kind = 0x10 → o.rid = some rid →
    kvGet? rid s.queries = some q → n = (q.shards.filter (fun h => h.seq == some seq && h.state == 0)).length → 0 < n → s.ctr (cPrtShardFails q.part) + n < 2 ^ 48 - 1 →
    ∃ (u : State) (y : Query), exec (.shardFailure seq status) s = .next (u.settleShards rid).resume ∧ kvGet? rid u.queries = some y ∧
      y.shards = q.shards.map (fun h => if h.seq = some seq ∧ h.state = 0 then { h with state := 2, status := status } else h) ∧
      y.failure = some (q.failure.getD status) ∧
      u.ctr (cPrtShardFails q.part) = s.ctr (cPrtShardFails q.part) + n ∧ kvGet? seq u.fab.out = none) ∧
  (∀ (s : State) (seq status : Nat), kvGet? seq s.fab.out = none → exec (.shardFailure seq status) s = .next s)

/-- Selection lists. A list of 1 to 1,024 entries opens empty on a unit of its cluster that has room, and waits where none has (R247); one of any
other size completes its request with BAD_COMMAND. An entry offered to an open list is inserted by R251, and nothing is done for a list that is
not open; a list that closes reports by R255 and R256 and leaves its unit; a partial list is merged whole (R259). -/
def Obligations.Selection : Prop :=
  (∀ (s : State) (u v rid lid k : Nat) (h f d : Bool), 1 ≤ k → k ≤ 1024 → s.selUnitFor u k = some v →
    ∃ t, exec (.selectListOpen u rid lid k h f d) s = .next t ∧
      kvGet? lid (t.sel v).lists = some { owner := some rid, k := k, higher := h, fp := f, dedup := d } ∧ t.out = s.out ∧ t.regs = s.regs ∧ t.ctrs = s.ctrs) ∧
  (∀ (s : State) (u rid lid k : Nat) (h f d : Bool), 1 ≤ k → k ≤ 1024 → s.selUnitFor u k = none →
    ∃ t, exec (.selectListOpen u rid lid k h f d) s = .next t ∧ (t.sel u).lists = (s.sel u).lists ∧
      (t.sel u).waits = (s.sel u).waits ++ [{ lid := lid, list := { owner := some rid, k := k, higher := h, fp := f, dedup := d }, since := s.now }]) ∧
  (∀ (s : State) (u rid lid k : Nat) (h f d : Bool) (r : Rec), k = 0 ∨ 1024 < k → kvGet? rid s.recs = some r → r.fab = none → r.part < 64 →
    s.pstate r.part ≠ stResetting → ∃ t, exec (.selectListOpen u rid lid k h f d) s = .next t ∧ Completes s t r.part r.q r.cmd.cid scBadCommand 0 0 0) ∧
  (∀ (s : State) (u lid key id seg node : Nat) (l : SelList), kvGet? lid (s.sel u).lists = some l →
    ∃ t, exec (.selectInsert u lid key id seg node) s = .next t ∧ kvGet? lid (t.sel u).lists = some (l.insert { key := key, id := id, seg := seg, node := node, ord := 0 }) ∧
      t.mem = s.mem ∧ t.recs = s.recs) ∧
  (∀ (s : State) (u lid key id seg node : Nat), kvGet? lid (s.sel u).lists = none → exec (.selectInsert u lid key id seg node) s = .next s) ∧
  (∀ (s : State) (u lid : Nat) (l : SelList), kvGet? lid (s.sel u).lists = some l →
    ∃ t, exec (.selectListClose u lid) s = .next t ∧ t.results = s.results ++ [l.close lid] ∧ t.mem = s.mem ∧ t.recs = s.recs ∧
      ((s.sel (2 * (u / 2))).waits = [] → (s.sel (2 * (u / 2) + 1)).waits = [] → (t.sel u).lists = kvDel lid (s.sel u).lists)) ∧
  (∀ (s : State) (u lid : Nat) (bs : List Byte) (l : SelList), kvGet? lid (s.sel u).lists = some l →
    ∃ t, exec (.selectMerge u lid bs) s = .next t ∧ kvGet? lid (t.sel u).lists = some (l.merge bs) ∧ t.mem = s.mem ∧ t.recs = s.recs)

/-- The insertion procedure of selection lists (R251). A NaN key is counted and the entry discarded. Under duplicate removal an entry whose vector ID the
list holds is counted, and replaces the earlier copy only where it is better; a full list whose last key that changes has no ties left. Any other
entry enters a list with room; in a full list one that is better than the last displaces it, whose key joins the keys left out and is a tie where it
equals the new last key, while ties end otherwise; one that is not better is left out, and is a tie where it equals the last. An entry is placed
directly after the last entry that it is not better than. So a list keeps at most k entries, best first. -/
def Obligations.SelectionInsert : Prop :=
  (∀ (l : SelList) (e : SelEntry), l.isNan e.key = true → l.insert e = { l with offered := l.offered + 1, nan := l.nan + 1 }) ∧
  (∀ (l : SelList) (e x : SelEntry), l.isNan e.key = false → l.dedup = true → l.entries.find? (fun y => y.id == e.id) = some x → l.better e.key x.key = false →
    l.insert e = { l with offered := l.offered + 1, dups := l.dups + 1 }) ∧
  (∀ (l m : SelList) (e x z y : SelEntry), l.isNan e.key = false → l.dedup = true → l.entries.find? (fun y => y.id == e.id) = some x →
    l.better e.key x.key = true → l.entries.getLast? = some z → m = l.insert e → m.entries.getLast? = some y →
    m.entries = l.placeIn { e with ord := l.offered } (l.entries.filter (fun y => y.id != e.id)) ∧ m.dups = l.dups + 1 ∧ m.left = l.left ∧ m.nan = l.nan ∧
      m.tied = (if m.entries.length = l.k ∧ l.same z.key y.key = false then 0 else l.tied)) ∧
  (∀ (l : SelList) (e : SelEntry), l.isNan e.key = false → l.dedup = false ∨ (∀ y ∈ l.entries, y.id ≠ e.id) → l.entries.length < l.k →
    l.insert e = { l with offered := l.offered + 1, entries := l.placeIn { e with ord := l.offered } l.entries }) ∧
  (∀ (l : SelList) (e z : SelEntry), l.isNan e.key = false → l.dedup = false ∨ (∀ y ∈ l.entries, y.id ≠ e.id) → l.entries.length = l.k →
    l.entries.getLast? = some z → l.better e.key z.key = false →
    l.insert e = { l with offered := l.offered + 1, left := l.addKey l.left e.key, tied := (if l.same e.key z.key then l.tied + 1 else l.tied) }) ∧
  (∀ (l m : SelList) (e z y : SelEntry), l.isNan e.key = false → l.dedup = false ∨ (∀ y ∈ l.entries, y.id ≠ e.id) → l.entries.length = l.k →
    l.entries.getLast? = some z → l.better e.key z.key = true → m = l.insert e → m.entries.getLast? = some y →
    m.entries = l.placeIn { e with ord := l.offered } l.entries.dropLast ∧ m.left = l.addKey l.left z.key ∧ m.nan = l.nan ∧ m.dups = l.dups ∧
      m.tied = (if l.same z.key y.key then l.tied + 1 else 0)) ∧
  (∀ (l : SelList) (e : SelEntry) (xs : List SelEntry), l.isNan e.key = false → (∀ x ∈ xs, l.isNan x.key = false) →
    xs.Pairwise (fun x y => l.better y.key x.key = false) →
    ∃ a b, xs = a ++ b ∧ l.placeIn e xs = a ++ e :: b ∧ (∀ x ∈ a, l.better e.key x.key = false) ∧ (∀ x ∈ b, l.better e.key x.key = true)) ∧
  (∀ (l m : SelList) (e : SelEntry), m = l.insert e → 1 ≤ l.k → l.entries.length ≤ l.k → (∀ x ∈ l.entries, l.isNan x.key = false) →
    l.entries.Pairwise (fun x y => l.better y.key x.key = false) →
    m.entries.length ≤ l.k ∧ (∀ x ∈ m.entries, l.isNan x.key = false) ∧ m.entries.Pairwise (fun x y => l.better y.key x.key = false))

/-- NaN keys (R250): an entry offered to an open list with a NaN key is counted in the unit's NaN counter and discarded; the list's entries, ties and
sums stay as they are. A list of integer keys has no invalid key. The count is that of a counter not yet near saturation. -/
def Obligations.NanKeys : Prop :=
  (∀ (s : State) (u lid key id seg node : Nat) (l : SelList), kvGet? lid (s.sel u).lists = some l → l.isNan key = true →
    s.ctr (cCluSelNan (u / 2) (u % 2)) + 1 < 2 ^ 48 - 1 → s.ctr (cCluSelEntries (u / 2) (u % 2)) + 1 < 2 ^ 48 - 1 →
    ∃ t m, exec (.selectInsert u lid key id seg node) s = .next t ∧ kvGet? lid (t.sel u).lists = some m ∧ m.entries = l.entries ∧ m.tied = l.tied ∧
      m.left = l.left ∧ m.selSum = l.selSum ∧ t.ctr (cCluSelNan (u / 2) (u % 2)) = s.ctr (cCluSelNan (u / 2) (u % 2)) + 1) ∧
  (∀ (l : SelList) (key : Nat), l.fp = false → l.isNan key = false) ∧
  (∀ (l : SelList) (key : Nat), l.fp = true → l.isNan key = (dec32 key).isNan)


/-! ### Matrix arrays and models (spec/08) -/

/-- An array instruction of an open request of a partition that owns an idle array, with nothing queued before it, begins with the outputs and counts
that its descriptor computes from what the array sees (R225, R229 to R232), and memory stays as it is; one that fails a check returns its token with
the status at once, which its request completes with (R227); one whose operands lie in a damaged channel ends with ABORTED_FENCE (R402); where the
array cannot take it, it is queued behind the partition's others, and an array that is fenced or not listed, or a full queue, takes none. When it is
done its token carries DONE and the counts of its columns; its outputs join those of its partition's queue, and with a PHASE_END they are all defined
for others (R226); those of a request that has ended are discarded (R148). Clearing the clip counters sets those of every column group to zero and no
other (R236). -/
def Obligations.ArrayInstructions : Prop :=
  (∀ (s : State) (i : Instr) (m a p rid : Nat) (d : List Byte), (m, i) ∈ [(0, Instr.arrayInstrMac a p rid d), (1, .arrayInstrMultiWord a p rid d),
    (2, .arrayInstrDistance a p rid d)] → aMode d = m → s.listsArray p a = true → ((kvGet? rid s.recs).map (fun r => r.part)) = some p →
    s.isFenced 5 a = false → (s.share a).owner = some p → (s.share a).switching = none → (s.arrUnit a).run = none → (s.arrUnit a).queueOf p = [] →
    s.arrCheck a p d = none → (∀ r ∈ arrRanges d, r.2.2 = false → s.mem.isDamaged r.1 r.2.1 = false) →
    ∃ (t : State) (x : ArrRun), exec i s = .next t ∧ (t.arrUnit a).run = some x ∧ x.part = p ∧ x.rid = some rid ∧ x.desc = d ∧ x.since = s.now ∧
      x.outs = (arrCompute d (s.arrRead a p) (s.arrRead a p) (s.arrRead a p) (s.arrRead a p)).outs ∧
      x.req = (arrCompute d (s.arrRead a p) (s.arrRead a p) (s.arrRead a p) (s.arrRead a p)).req ∧
      x.clip = (arrCompute d (s.arrRead a p) (s.arrRead a p) (s.arrRead a p) (s.arrRead a p)).clip ∧ (t.arrUnit a).queueOf p = [] ∧
      t.atokens = s.atokens ∧ t.mem = s.mem) ∧
  (∀ (s : State) (i : Instr) (m a p rid st : Nat) (d : List Byte) (r : Rec), p < 64 → (m, i) ∈ [(0, Instr.arrayInstrMac a p rid d), (1, .arrayInstrMultiWord a p rid d),
    (2, .arrayInstrDistance a p rid d)] → aMode d = m ∨ 3 ≤ aMode d → s.listsArray p a = true → kvGet? rid s.recs = some r → r.part = p → r.fab = none →
    s.pstate p ≠ stResetting → s.isFenced 5 a = false → (s.share a).owner = some p → (s.share a).switching = none → (s.arrUnit a).run = none →
    (s.arrUnit a).queueOf p = [] →
    s.arrCheck a p d = some st ∧ st ≠ scDone ∨ (s.arrCheck a p d = none ∧ st = scFence ∧ ∃ x ∈ arrRanges d, x.2.2 = false ∧ s.mem.isDamaged x.1 x.2.1 = true) →
    ∃ t, exec i s = .next t ∧ t.atokens = s.atokens ++ [{ part := p, array := a, tag := aTag d, status := st, req := 0, clip := 0 }] ∧
      Completes s t p r.q r.cmd.cid st 0 0 0) ∧
  (∀ (s : State) (i : Instr) (m a p rid : Nat) (d : List Byte), (m, i) ∈ [(0, Instr.arrayInstrMac a p rid d), (1, .arrayInstrMultiWord a p rid d),
    (2, .arrayInstrDistance a p rid d)] → aMode d = m ∨ 3 ≤ aMode d → s.listsArray p a = true → ((kvGet? rid s.recs).map (fun r => r.part)) = some p →
    s.isFenced 5 a = false → ((s.arrUnit a).queueOf p).length < 4096 → s.arrFree a = false →
    ∃ t, exec i s = .next t ∧ (t.arrUnit a).queueOf p = (s.arrUnit a).queueOf p ++ [{ part := p, rid := rid, desc := d }] ∧
      (t.arrUnit a).run = (s.arrUnit a).run ∧ (p, rid) ∈ t.arrWork ∧ t.atokens = s.atokens ∧ t.mem = s.mem) ∧
  (∀ (s : State) (i : Instr) (m a p rid : Nat) (d : List Byte), (m, i) ∈ [(0, Instr.arrayInstrMac a p rid d), (1, .arrayInstrMultiWord a p rid d),
    (2, .arrayInstrDistance a p rid d)] → (aMode d ≠ m ∧ aMode d < 3) ∨ s.listsArray p a = false ∨ kvGet? rid s.recs = none ∨ s.isFenced 5 a = true ∨
    4096 ≤ ((s.arrUnit a).queueOf p).length → exec i s = .next s) ∧
  (∀ (s : State) (a rid : Nat) (r : ArrRun), (s.arrUnit a).run = some r → r.rid = some rid → (∀ o, (s.share a).owner = some o → (s.arrUnit a).queueOf o = []) →
    ∃ t, exec (.arrayInstrDone a) s = .next t ∧ (t.arrUnit a).run = none ∧ t.atokens = s.atokens ++ [ArrToken.mk r.part a (aTag r.desc) scDone
      (r.req.foldl (· + ·) 0) (r.clip.foldl (· + ·) 0)] ∧ (aPhaseEnd r.desc = true → (t.arrUnit a).pendOf r.part = []) ∧
      (aPhaseEnd r.desc = false → (kvGet? rid s.recs).isSome = true →
        (t.arrUnit a).pendOf r.part = (s.arrUnit a).pendOf r.part ++ r.outs.map (fun w => { rid := rid, addr := w.1, bytes := w.2 })) ∧
      (aPhaseEnd r.desc = false → kvGet? rid s.recs = none → (t.arrUnit a).pendOf r.part = (s.arrUnit a).pendOf r.part ∧ t.mem = s.mem)) ∧
  (∀ (s : State) (a : Nat), (s.arrUnit a).run = none → exec (.arrayInstrDone a) s = .next s) ∧
  (∀ (s : State) (n : Nat), ∃ t, exec (.mxaClipClear n) s = .next t ∧ (∀ g, g < 8 → t.ctr (cMxaReq n g) = 0 ∧ t.ctr (cMxaClip n g) = 0) ∧
    (∀ o, (∀ g, g < 8 → o ≠ cMxaReq n g ∧ o ≠ cMxaClip n g) → t.ctr o = s.ctr o) ∧ t.regs = s.regs ∧ t.out = s.out ∧ t.mem = s.mem)

/-- Models. MODEL_BIND of a model that passes its checks binds it to the slot, its window placed in the cluster buffers of the partition's dies or in
Tier A, and completes with the bytes of the window in RESULT0 and those of all its weights in RESULT1 (R238, R239); a failed check ends it with its
status, and nothing happens while an image load holds allocations back. MODEL_UNBIND leaves the slot empty and completes with DONE and the
same two results, both 0 for a slot that held no model, or ends with the status of its check. ARRAY_RUN, first of its partition's work and on an owned array with its layers in the window, completes with its rows, clipped
outputs and array steps, or with the status with which the array refuses its model (R227, R242); behind other work, or where no array is owned or
layers are missing, it waits. The end of a layer's fetch brings the next layer into the window, in room that is left or in the place of the first
(R239), and is charged to no regulator. -/
def Obligations.Models : Prop :=
  (∀ (s v : State) (p q cid rid : Nat) (r : Rec) (ti sum : Nat) (m : Tensor) (b : Binding), p < 64 → MayRun s p q cid 0x50 rid r →
    bitOf (r.cmd.param 1 1) 0 = false → s.allocHeld = false → (s.named r).bindCheck p r.cmd = none → (s.named r).nearTensor p (r.cmd.param 8 8) = some (ti, m) →
    (s.measureModel (s.named r) p r.cmd 0).placeWindow p r.cmd ti m = some (b, v) → sum = (s.weights m (s.headOf m)).foldl (· + ·) 0 →
    ∃ u : State, exec (.modelBind p q cid) s = .next (u.done p rid 0 b.bytes sum) ∧ Completes s (u.done p rid 0 b.bytes sum) p q cid scDone 0 b.bytes sum ∧
      u.binding p (r.cmd.param 0 1) = some b) ∧
  (∀ (s v : State) (p ti n : Nat) (c : HostCmd) (m : Tensor) (b : Binding), s.placeWindow p c ti m = some (b, v) → n = c.windowLayers →
    b.tensor = ti ∧ b.place = c.param 2 1 ∧ b.layers = min n (s.headOf m).layers ∧ b.keep = bitOf (c.param 1 1) 1 ∧
      b.bytes = windowBytes (s.weights m (s.headOf m)) n ∧ b.retired = false ∧
      (c.param 2 1 = 0 → b.areas = [] ∧ v = s ∧ ∀ d ∈ s.arrDies p, s.bufferUsed p d + b.bytes ≤ s.bufferShare p d) ∧
      (c.param 2 1 ≠ 0 → tierOf m.addr = some 0 → b.areas = [] ∧ v = s) ∧
      (c.param 2 1 ≠ 0 → tierOf m.addr ≠ some 0 → b.areas.length = (s.arrDies p).length)) ∧
  (∀ (s : State) (p q cid rid st : Nat) (r : Rec), p < 64 → MayRun s p q cid 0x50 rid r → bitOf (r.cmd.param 1 1) 0 = false → s.allocHeld = false →
    (s.named r).bindCheck p r.cmd = some st → ∃ t, exec (.modelBind p q cid) s = .next t ∧ Completes s t p q cid st 0 0 0) ∧
  (∀ (s : State) (p q cid rid : Nat) (r : Rec), MayRun s p q cid 0x50 rid r → bitOf (r.cmd.param 1 1) 0 = false → s.allocHeld = true →
    exec (.modelBind p q cid) s = .next s) ∧
  (∀ (s : State) (p q cid rid : Nat) (r : Rec), MayRun s p q cid 0x50 rid r → bitOf (r.cmd.param 1 1) 0 = true → s.bindCheck p r.cmd = none →
    (s.binding p (r.cmd.param 0 1) = none → exec (.modelUnbind p q cid) s = .next (s.done p rid 0 0 0) ∧ Completes s (s.done p rid 0 0 0) p q cid scDone 0 0 0) ∧
    ∀ b, s.binding p (r.cmd.param 0 1) = some b → ∃ (u : State) (w : Nat), exec (.modelUnbind p q cid) s = .next (u.done p rid 0 b.bytes w) ∧
      Completes s (u.done p rid 0 b.bytes w) p q cid scDone 0 b.bytes w ∧ u.binding p (r.cmd.param 0 1) = none ∧
      (∀ m, kvGet? b.tensor s.mem.tensors = some m → w = (s.weights m (s.headOf m)).foldl (· + ·) 0)) ∧
  (∀ (s : State) (p q cid rid st : Nat) (r : Rec), MayRun s p q cid 0x50 rid r → bitOf (r.cmd.param 1 1) 0 = true → s.bindCheck p r.cmd = some st →
    ∃ t, exec (.modelUnbind p q cid) s = .next t ∧ Completes s t p q cid st 0 0 0) ∧
  (∀ (s v w x : State) (p q cid rid : Nat) (input : List Byte) (r : Rec) (ti : Nat) (m : Tensor) (data : List Byte) (o : ModelOut) (a rows : Nat),
    p < 64 → MayRun s p q cid 0x51 rid r → s.runTensor r = some (ti, m) → (s.named r).arrayRunCheck p r.cmd (some (ti, m)) = none → s.arraysGone p = false →
    s.isTurn p rid = true → s.mayRun p 0 rid ti = (true, v) → v.ownedArray p = some a → rows = r.cmd.param 4 4 →
    v.readInput p r.flow (r.cmd.param 8 8) ((s.headOf m).inputBytes rows) input = (data, w) →
    (w.modelRefused a p m (s.headOf m) = none → w.runModel m rows data = (o, x) → PlainResult x r →
      ∃ t, exec (.arrayRun p q cid input) s = .next t ∧ Completes s t p q cid scDone rows (o.clip.foldl (· + ·) 0) o.steps) ∧
    (∀ st, w.modelRefused a p m (s.headOf m) = some st → ∃ t, exec (.arrayRun p q cid input) s = .next t ∧ Completes s t p q cid st 0 0 0)) ∧
  (∀ (s : State) (p q cid rid : Nat) (input : List Byte) (r : Rec) (st : Nat), MayRun s p q cid 0x51 rid r →
    (s.named r).arrayRunCheck p r.cmd (s.runTensor r) = some st → ∃ t, exec (.arrayRun p q cid input) s = .next t ∧ Completes s t p q cid st 0 0 0) ∧
  (∀ (s v : State) (p q cid rid : Nat) (input : List Byte) (r : Rec) (ti : Nat) (m : Tensor), MayRun s p q cid 0x51 rid r →
    s.runTensor r = some (ti, m) → (s.named r).arrayRunCheck p r.cmd (some (ti, m)) = none →
    (s.arraysGone p = true → ∃ t, exec (.arrayRun p q cid input) s = .next t ∧ Completes s t p q cid scFence 0 0 0) ∧
    (s.arraysGone p = false → s.isTurn p rid = false → exec (.arrayRun p q cid input) s = .next (s.queueArrWork p rid)) ∧
    (s.arraysGone p = false → s.isTurn p rid = true → s.mayRun p 0 rid ti = (false, v) → exec (.arrayRun p q cid input) s = .next v)) ∧
  (∀ (s : State) (a p : Nat) (m : ModelRun) (b : Binding) (w : Nat × Nat), (s.arrUnit a).model = some m → s.runBinding m.part m.tensor = some b →
    (s.share a).owner = some p → m.part = p → m.upto < s.layersOf m.tensor →
    w = b.slide (s.windowOf b (a / 2)) m.upto →
    ∃ t, exec (.layerFetchDone a p) s = .next t ∧ (t.arrUnit a).model = some { m with upto := w.1 + w.2, since := s.now } ∧
      t.models = (s.setWindow p m.tensor (a / 2) w).models ∧ t.mem = s.mem ∧ t.parts = s.parts) ∧
  (∀ (s : State) (a p : Nat), (s.arrUnit a).model = none ∨ (∃ m, (s.arrUnit a).model = some m ∧ (m.part ≠ p ∨ s.layersOf m.tensor ≤ m.upto)) ∨
    (s.share a).owner ≠ some p → exec (.layerFetchDone a p) s = .next s)

/-! ### Live updates and segments (spec/10) -/

/-- Updates run in order of admission: one that another is admitted before and has not joined waits (R263). An INSERT that passes its checks with room
for its rows, and a DELETE with room for its tombstones, join the update sequence with the period of their stamp (R263, R267, R270); a failed check ends
them with its status, and without that room they end with QUOTA. In a later period the command is prepared (R264), a publish with the tombstone entries
that its supersession needs as far as they are free, and not before. THRESHOLD_PUBLISH answers the SET_ID and VERSION of the new set in RESULT0 (R171).
Young tombstones at or below the fold epoch leave the table (R208). -/
def Obligations.Updates : Prop :=
  (∀ (u : State) (p : Nat) (up : Upd) (r : Rec), kvGet? up.rid u.recs = some r → Begun (u.joinUpdates p up) up.rid r ∧
    ((u.joinUpdates p up).corpus p).updates = (u.corpus p).updates ++ [up] ∧ ((u.joinUpdates p up).corpus p).youngRes = (u.corpus p).youngRes + up.tomb ∧
    ((u.joinUpdates p up).corpus p).locRes = (u.corpus p).locRes + up.loc) ∧
  (∀ (s : State) (p q cid rid op : Nat) (i : Instr) (a b d : List Byte) (r : Rec), (op, i) ∈ [(0x20, Instr.insert p q cid a b d), (0x21, .delete p q cid a),
    (0x24, .segmentPublish p q cid), (0x25, .segmentRetire p q cid)] → MayRun s p q cid op rid r → s.updateTurn p rid = false → exec i s = .next s) ∧
  (∀ (s : State) (p q cid rid : Nat) (vecs ids attrs vb ib ab : List Byte) (r : Rec) (s1 s2 s3 t : State) (elem dims n i rows : Nat),
    MayRun s p q cid 0x20 rid r → elem = r.cmd.param 0 1 → dims = r.cmd.param 2 2 → n = r.cmd.param 4 4 → s.updateTurn p rid = true → s.allocHeld = false →
    (s.named r).insertCheck p r.cmd = none →
    s.readInput p r.flow (r.cmd.param 8 8) (n * dims * vecElemBytes elem) vecs = (vb, s1) →
    s1.readInput p r.flow (r.cmd.param 16 8) (8 * n) ids = (ib, s2) →
    (if r.cmd.param 24 8 = 0 then (List.replicate (8 * n) (0 : Byte), s2) else s2.readInput p r.flow (r.cmd.param 24 8) (8 * n) attrs) = (ab, s3) →
    rows = ((words8 ib n).filter (fun i => i != noVector)).length → bitOf (r.cmd.param 1 1) 0 = false ∨ n ≤ s.youngFree p →
    s3.deltaFor p elem dims rows = some (i, t) →
    (t.modCorpus p (fun c => { c with locRes := c.locRes + n })).useOf p 1 ≤ (t.modCorpus p (fun c => { c with locRes := c.locRes + n })).quotaOf p 1 →
    ∃ (u : State) (up : Upd), exec (.insert p q cid vecs ids attrs) s = .next (u.joinUpdates p up) ∧ up.rid = rid ∧ up.op = 0x20 ∧
      up.period = s.periodOf p r.stamp ∧ up.prepared = false ∧ up.seg = i ∧ up.vecs = vb ∧ up.attrs = ab ∧ up.loc = n ∧
      up.tomb = (if bitOf (r.cmd.param 1 1) 0 then n else 0) ∧ up.items = assignRows i (((t.seg? p i).map (fun g => g.next)).getD 0) (words8 ib n)) ∧
  (∀ (s : State) (p q cid rid st : Nat) (vecs ids attrs : List Byte) (r : Rec), MayRun s p q cid 0x20 rid r → s.updateTurn p rid = true → s.allocHeld = false →
    (s.named r).insertCheck p r.cmd = some st → ∃ t, exec (.insert p q cid vecs ids attrs) s = .next t ∧ Completes s t p q cid st 0 0 0) ∧
  (∀ (s : State) (p q cid rid : Nat) (ids ib : List Byte) (r : Rec) (s1 : State) (n : Nat), MayRun s p q cid 0x21 rid r → n = r.cmd.param 0 4 →
    s.updateTurn p rid = true → (s.named r).deleteCheck p r.cmd = none → s.readInput p r.flow (r.cmd.param 8 8) (8 * n) ids = (ib, s1) → n ≤ s1.youngFree p →
    ∃ up : Upd, exec (.delete p q cid ids) s = .next (s1.joinUpdates p up) ∧ up.rid = rid ∧ up.op = 0x21 ∧ up.prepared = false ∧ up.tomb = n ∧
      up.period = s1.periodOf p r.stamp ∧ up.items = (words8 ib n).map (fun i => { id := i, row := none, status := scDone, seg := 0 })) ∧
  (∀ (s : State) (p q cid rid : Nat) (ids ib : List Byte) (r : Rec) (s1 : State) (n : Nat), p < 64 → MayRun s p q cid 0x21 rid r → n = r.cmd.param 0 4 →
    s.updateTurn p rid = true → (s.named r).deleteCheck p r.cmd = none → s.readInput p r.flow (r.cmd.param 8 8) (8 * n) ids = (ib, s1) → s1.youngFree p < n →
    ∃ t, exec (.delete p q cid ids) s = .next t ∧ Completes s t p q cid scQuota 0 0 0) ∧
  (∀ (s : State) (p q cid rid st : Nat) (ids : List Byte) (r : Rec), MayRun s p q cid 0x21 rid r → s.updateTurn p rid = true → (s.named r).deleteCheck p r.cmd = some st →
    ∃ t, exec (.delete p q cid ids) s = .next t ∧ Completes s t p q cid st 0 0 0) ∧
  (∀ (s : State) (p q cid rid : Nat) (r : Rec) (up : Upd) (n : Nat), s.recOf p q cid = some (rid, r) → (s.corpus p).updates = [up] → up.rid = rid →
    up.prepared = false → up.period < s.periodOf p s.now → up.op ≠ 0x20 →
    n = (if up.op = 0x24 then min (s.youngFree p) (s.supersedeCount p up.ids1 up.ids2) else 0) →
    ∃ t, exec (.updatePrepare p q cid) s = .next t ∧ (t.corpus p).updates = [{ up with prepared := true, tomb := up.tomb + n }] ∧
      (t.corpus p).youngRes = (s.corpus p).youngRes + n ∧ t.mem = s.mem ∧ t.recs = s.recs) ∧
  (∀ (s v : State) (p q cid rid : Nat) (r : Rec) (up : Upd) (ti : Nat) (m : Tensor) (place : Nat) (go : Bool), s.recOf p q cid = some (rid, r) →
    (s.corpus p).updates = [up] → up.rid = rid → up.prepared = false → up.period < s.periodOf p s.now → up.op = 0x20 →
    place = ((s.sketchStage p).map (fun g => g.place)).getD 1 → s.projModel p = some (ti, m) → s.mayRun p place rid ti = (go, v) →
    exec (.updatePrepare p q cid) s = .next (if go then ((v.prepareInsert p up m place).dropArrWork rid).phaseRan p else v)) ∧
  (∀ (s : State) (p q cid rid : Nat) (r : Rec) (up : Upd), s.recOf p q cid = some (rid, r) → (s.corpus p).updates = [up] → s.periodOf p s.now ≤ up.period →
    exec (.updatePrepare p q cid) s = .next s) ∧
  (∀ (s : State) (p q cid rid : Nat) (data given : List Byte) (r : Rec) (g : Stage) (s1 v : State) (th : List Nat) (src n i ver : Nat), p < 64 →
    MayRun s p q cid 0x12 rid r → s.allocHeld = false → (s.named r).thresholdCheck p r.cmd = none → s.sketchStage p = some g → src = r.cmd.param 0 1 → n = widthBits (g.param % 4) →
    (src = 1 ∧ s.readInput p r.flow (r.cmd.param 8 8) (4 * n) data = (given, s1) ∧ th = (List.range n).map (fun i => fieldAt given (4 * i) 4) ∧
      th.any (fun t => (dec32 t).isNan) = false) ∨ (src = 0 ∧ s1 = s ∧ th = (s.corpus p).loop.cand) →
    s1.publishSet p th false (if src = 1 then 0 else (s.corpus p).loop.samples) = some (i, ver, v) →
    ∃ t, exec (.thresholdPublish p q cid data) s = .next t ∧ Completes s t p q cid scDone 0 (ver * 2 ^ 32 + i) 0) ∧
  (∀ (s : State) (p q cid rid st : Nat) (data : List Byte) (r : Rec), MayRun s p q cid 0x12 rid r → s.allocHeld = false → (s.named r).thresholdCheck p r.cmd = some st →
    ∃ t, exec (.thresholdPublish p q cid data) s = .next t ∧ Completes s t p q cid st 0 0 0) ∧
  (∀ (s : State) (p q cid rid : Nat) (data : List Byte) (r : Rec), MayRun s p q cid 0x12 rid r → s.allocHeld = true →
    exec (.thresholdPublish p q cid data) s = .next s) ∧
  (∀ (s : State) (p : Nat), ∃ t, exec (.tombstoneFold p) s = .next t ∧ (t.corpus p).fold = s.foldNow p ∧
    (t.corpus p).young = (s.corpus p).young.filter (fun y => !decide (y.2.2 ≤ s.foldNow p)))

/-- Segments. A build with sources that may be built goes under way at its admission and holds the lowest free SEG_ID, sealing the delta where asked
behind the updates admitted before it (R272 to R274); one that may not ends with the status of its first failed check. At the first step boundary at
which every update admitted before it has committed, it fixes its epoch, takes the space of its output and copies its items; its end adds the unpublished segment and
reports its vectors and SEG_ID in RESULT0 and its epoch in RESULT1 (R277), and without an array of its own it waits with its work queued. An import holds
a SEG_ID with its descriptor, and ends with the segment or with the status and row of its first failed check (R278). A publish and a retire that pass
their checks join the update sequence in their turn and others end with the status of the first check that fails (R279, R281); unpublished segments are
discarded at once. A segment retired at or below the fold epoch is freed (R282). -/
def Obligations.Segments : Prop :=
  (∀ (s : State) (p q cid rid : Nat) (r : Rec) (src : List Nat) (i : Nat), s.admittedRec p q cid 0x22 = some (rid, r) → kvGet? rid s.recs = some r →
    (bitOf (r.cmd.param 0 1) 0 = true → s.updateTurn p rid = true) → s.buildFieldsOk p r.cmd = true → src = r.cmd.segIds 32 (r.cmd.param 1 1) → src ≠ [] → (∀ x ∈ src, ∃ g, s.seg? p x = some g ∧ g.ret = none ∧ (g.delta = true → g.closed = true) ∧
      (g.delta = false → g.pub.isSome = true)) → s.freeSeg p = some i →
    ∃ (t : State) (b : Build), exec (.segmentBuild p q cid) s = .next t ∧ Begun t rid r ∧ kvGet? rid t.builds = some b ∧ b.seg = i ∧ b.part = p ∧ b.started = none ∧
      b.sources = src ++ (if bitOf (r.cmd.param 0 1) 0 then (s.corpus p).current.toList else []) ∧ b.before = (s.updatesAhead p rid).map (fun r => r.1) ∧
      b.arrays = (if r.cmd.param 8 1 = 0 then 15 else r.cmd.param 8 1) ∧ (bitOf (r.cmd.param 0 1) 0 = true → (t.corpus p).current = none)) ∧
  (∀ (s : State) (p q cid rid : Nat) (r : Rec), s.admittedRec p q cid 0x22 = some (rid, r) → bitOf (r.cmd.param 0 1) 0 = true → s.updateTurn p rid = false →
    exec (.segmentBuild p q cid) s = .next s) ∧
  (∀ (s : State) (p q cid rid st : Nat) (r : Rec), MayRun s p q cid 0x22 rid r → (bitOf (r.cmd.param 0 1) 0 = true → s.updateTurn p rid = true) →
    s.buildCheck p r.cmd = some st → ∃ t, exec (.segmentBuild p q cid) s = .next t ∧ Completes s t p q cid st 0 0 0) ∧
  (∀ (s : State) (p q cid rid : Nat) (r : Rec) (b : Build), UnderWay s p q cid 0x22 rid r → kvGet? rid s.builds = some b →
    b.started.isSome = true ∨ s.allocHeld = true ∨ s.atBoundary p = false ∨ (∃ i ∈ b.before, (kvGet? i s.recs).isSome = true) →
    exec (.buildStart p q cid) s = .next s) ∧
  (∀ (s : State) (p q cid rid : Nat) (r : Rec) (b : Build) (l : LongOp) (si dims elem : Nat) (ts : TSet) (st : Stage) (items : List (Nat × Nat))
    (g0 g : Segment) (t1 : State) (x : Build), UnderWay s p q cid 0x22 rid r → r.long = some l → l.running = true → kvGet? rid s.builds = some b → b.started = none →
    s.allocHeld = false → s.atBoundary p = true → (∀ i ∈ b.before, kvGet? i s.recs = none) → items = s.buildItems p (s.corpus p).epoch b.sources →
    1 ≤ items.length → items.length ≤ 67108864 → s.clustersGone p = false → (s.corpus p).curSet = some si → kvGet? si (s.corpus p).sets = some ts →
    s.segShape p = some (dims, elem) → s.sketchStage p = some st →
    g0 = { delta := false, width := st.param % 4, setId := si, setVer := ts.version, degree := dflt (r.cmd.param 2 1) 32, elem := elem, dims := dims, vectors := items.length,
           entry := [], blockRows := dflt (r.cmd.param 10 2) 1024, blocks := [], stride := vecStride elem dims, pub := none, ret := none, adj := 0, vec := 0, attr := 0,
           idmap := 0, tomb := 0, norm := 0, commitAt := 0, commits := [], closed := false, cap := items.length, next := 0, buildEp := (s.corpus p).epoch,
           sources := b.sources, origin := items, dead := [], tensors := [], areas := [] } →
    s.allocSegment p g0 items.length (r.cmd.param 9 1 % 4) (r.cmd.param 9 1 / 4 % 4) (r.cmd.param 9 1 / 16 % 4) .segment = some (g, t1) →
    x = { b with started := some (s.corpus p).epoch, setId := si, setVer := ts.version, items := items, draft := some g,
                 olds := (List.range items.length).map (s.oldNeighbours p items) } →
    (t1.putBuilds (kvPut rid x t1.builds)).useOf p 1 ≤ (t1.putBuilds (kvPut rid x t1.builds)).quotaOf p 1 →
    exec (.buildStart p q cid) s = .next (((t1.putBuilds (kvPut rid x t1.builds)).copyItems p g).queueArrWork p rid)) ∧
  (∀ (s v : State) (p q cid rid : Nat) (r : Rec) (b : Build) (e ti place : Nat) (g : Segment) (m : Tensor) (cands : List Nat), p < 64 → UnderWay s p q cid 0x22 rid r →
    kvGet? rid s.builds = some b → b.started = some e → b.draft = some g → s.arraysGone p = false → s.coreWaits rid = false →
    (s.arrayFor p rid).isSome = true → s.projModel p = some (ti, m) → place = ((s.sketchStage p).map (fun st => st.place)).getD 1 → s.mayRun p place rid ti = (true, v) →
    ∃ (u : State) (x : Segment), exec (.segmentBuildDone p q cid cands) s = .next (u.complete p rid scDone 0 1 (g.vectors * 2 ^ 32 + b.seg) e []) ∧
      Completes s (u.complete p rid scDone 0 1 (g.vectors * 2 ^ 32 + b.seg) e []) p q cid scDone 1 (g.vectors * 2 ^ 32 + b.seg) e ∧
      u.seg? p b.seg = some x ∧ x.vectors = g.vectors ∧ x.origin = g.origin ∧ x.pub = g.pub ∧ kvGet? rid u.builds = none) ∧
  (∀ (s v : State) (p q cid rid : Nat) (r : Rec) (b : Build) (e ti place : Nat) (g : Segment) (m : Tensor) (cands : List Nat), UnderWay s p q cid 0x22 rid r →
    kvGet? rid s.builds = some b → b.started = some e → b.draft = some g → s.arraysGone p = false → place = ((s.sketchStage p).map (fun st => st.place)).getD 1 →
    (s.coreWaits rid = true → exec (.segmentBuildDone p q cid cands) s = .next s) ∧
    (s.coreWaits rid = false → s.arrayFor p rid = none → exec (.segmentBuildDone p q cid cands) s = .next (s.queueArrWork p rid)) ∧
    (s.coreWaits rid = false → (s.arrayFor p rid).isSome = true → s.projModel p = some (ti, m) → s.mayRun p place rid ti = (false, v) → exec (.segmentBuildDone p q cid cands) s = .next v)) ∧
  (∀ (s : State) (p q cid rid : Nat) (r : Rec) (ti i : Nat) (m : Tensor), MayRun s p q cid 0x23 rid r → (s.named r).importCmdCheck p r.cmd = none →
    s.claimedTensor r (r.cmd.param 8 8) = some (ti, m) → s.freeSeg p = some i →
    ∃ (t : State) (b : Build), exec (.segmentImport p q cid) s = .next t ∧ Begun t rid r ∧ kvGet? rid t.builds = some b ∧ b.seg = i ∧ b.part = p ∧
      b.desc = s.readMem m.addr m.bytes ∧ t.mem = s.mem) ∧
  (∀ (s : State) (p q cid rid st : Nat) (r : Rec), p < 64 → MayRun s p q cid 0x23 rid r → (s.named r).importCmdCheck p r.cmd = some st →
    ∃ t, exec (.segmentImport p q cid) s = .next t ∧ Completes s t p q cid st 0 0 0) ∧
  (∀ (s : State) (p q cid rid : Nat) (r : Rec) (b : Build) (l : LongOp) (st w : Nat), p < 64 → UnderWay s p q cid 0x23 rid r → r.long = some l → l.running = true →
    kvGet? rid s.builds = some b → s.importCheck p b.desc (importSegment b.desc) (bitOf (r.cmd.param 0 1) 0) = some (st, w) →
    ∃ t, exec (.segmentImportDone p q cid) s = .next t ∧ Completes s t p q cid st 0 0 w) ∧
  (∀ (s v w w1 : State) (p q cid rid : Nat) (r : Rec) (b : Build) (l : LongOp) (g : Segment) (ti place : Nat) (m : Tensor) (re : Bool), p < 64 →
    UnderWay s p q cid 0x23 rid r → r.long = some l → l.running = true → kvGet? rid s.builds = some b → re = bitOf (r.cmd.param 0 1) 0 → g = importSegment b.desc →
    s.importCheck p b.desc g re = none → place = ((s.sketchStage p).map (fun st => st.place)).getD 1 →
    (re = false ∧ v = s) ∨ (re = true ∧ s.projModel p = some (ti, m) ∧ s.mayRun p place rid ti = (true, v)) → w = v.chargeImport p g →
    w1 = (w.putBuilds (kvDel rid w.builds)).modCorpus p (fun c => { c with segs := kvPut b.seg g c.segs }) → w1.useOf p 1 ≤ w1.quotaOf p 1 →
    ∃ (u : State) (y : Segment), exec (.segmentImportDone p q cid) s = .next (u.complete p rid scDone 0 1 (g.vectors * 2 ^ 32 + b.seg) 0 []) ∧
      Completes s (u.complete p rid scDone 0 1 (g.vectors * 2 ^ 32 + b.seg) 0 []) p q cid scDone 1 (g.vectors * 2 ^ 32 + b.seg) 0 ∧
      u.seg? p b.seg = some y ∧ y.vectors = g.vectors ∧ y.pub = none ∧ y.vec = g.vec ∧ kvGet? rid u.builds = none) ∧
  (∀ (s : State) (p q cid rid : Nat) (r : Rec) (adds rets : List Nat), MayRun s p q cid 0x24 rid r → s.updateTurn p rid = true → r.cmd.param 0 1 ≤ 16 → r.cmd.param 1 1 ≤ 16 →
    adds = r.cmd.segIds 8 (r.cmd.param 0 1) → rets = r.cmd.segIds 40 (r.cmd.param 1 1) →
    (s.publishCheck p rid adds rets = none → ∃ up : Upd, exec (.segmentPublish p q cid) s = .next (s.joinUpdates p up) ∧ up.rid = rid ∧ up.op = 0x24 ∧
      up.ids1 = adds ∧ up.ids2 = rets ∧ up.prepared = false) ∧
    (∀ st, s.publishCheck p rid adds rets = some st → ∃ t, exec (.segmentPublish p q cid) s = .next t ∧ Completes s t p q cid st 0 0 0)) ∧
  (∀ (s : State) (p q cid rid : Nat) (r : Rec) (ids : List Nat), MayRun s p q cid 0x25 rid r → s.updateTurn p rid = true → 1 ≤ r.cmd.param 0 1 → r.cmd.param 0 1 ≤ 16 →
    ids = r.cmd.segIds 8 (r.cmd.param 0 1) →
    (∀ st, s.retireCheck p rid ids = some st → ∃ t, exec (.segmentRetire p q cid) s = .next t ∧ Completes s t p q cid st 0 0 0) ∧
    (s.retireCheck p rid ids = none → (∀ i ∈ ids, ∃ g, s.seg? p i = some g ∧ g.delta = false ∧ g.pub = none) →
      ∃ t, exec (.segmentRetire p q cid) s = .next t ∧ Completes s t p q cid scDone 0 0 0) ∧
    (s.retireCheck p rid ids = none → (∀ i ∈ ids, ∃ g, s.seg? p i = some g ∧ (g.delta = true ∨ g.pub.isSome = true)) →
      ∃ up : Upd, exec (.segmentRetire p q cid) s = .next (s.joinUpdates p up) ∧ up.rid = rid ∧ up.op = 0x25 ∧ up.ids2 = ids)) ∧
  (∀ (s : State) (p i : Nat) (g : Segment) (e : Nat), s.seg? p i = some g → g.ret = some e → e ≤ s.foldNow p →
    ∃ t, exec (.segmentFree p i) s = .next t ∧ t.seg? p i = none ∧ (t.corpus p).fold = s.foldNow p ∧ Extends s t) ∧
  (∀ (s : State) (p i : Nat) (g : Segment), s.seg? p i = some g → g.ret = none → s.foldNow p = (s.corpus p).fold → exec (.segmentFree p i) s = .next s)

/-! ### Embedding tables (spec/11) -/

/-- TABLE_CREATE that passes its checks holds the table with its shard at version 1 and completes with the local rows in RESULT0 and the
DESC_CHECK in RESULT1 (R287 to R289); a failed check ends it with its status, and nothing happens while an image load holds allocations back.
TABLE_STEP_CLOSE of a step not yet closed goes under way behind the earlier updates, with the time at which it was fetched (R299, R301). TABLE_SWITCH
makes the new rows the shard and raises the version, and waits while an older version is held (R302); TABLE_DESTROY closes the table to new requests
(R303); each ends with the status of its check that fails, goes on with what it waits for whenever it is looked at again, and completes once no recall
is left. -/
def Obligations.TableCommands : Prop :=
  (∀ (s v0 v : State) (p q cid rid mi locs : Nat) (r : Rec) (mt : Tensor) (bs : List Byte) (map : List TMapEnt) (areas : List Nat)
    (shard : Option Nat), p < 64 → MayRun s p q cid 0x30 rid r → s.allocHeld = false → (s.named r).tableCreateCheck p r.cmd = none →
    s.claimedTensor r (r.cmd.param 16 8) = some (mi, mt) → bs = s.mapBytes r.cmd mt → v0 = s.access p mt.addr bs.length → v0.shardOf p r.cmd bs = (map, shard, locs) →
    v0.allocAreas p (r.cmd.param 3 1) (v0.tableSizes p r.cmd shard.isSome locs) = some (areas, v) →
    ∃ (u : State) (t : Table) (w : Nat), exec (.tableCreate p q cid) s = .next (u.done p rid 0 locs w) ∧ Completes s (u.done p rid 0 locs w) p q cid scDone 0 locs w ∧
      w = descCheck (r.cmd.param 0 2) (r.cmd.param 2 1) (r.cmd.param 4 2) (r.cmd.param 6 1) (v0.tableOpt p r.cmd) (r.cmd.param 8 8) (r.cmd.param 24 2)
        (r.cmd.param 40 4) (r.cmd.param 44 4) bs ∧
      u.table? (r.cmd.param 0 2) = some t ∧ t.part = p ∧ t.rows = r.cmd.param 8 8 ∧ t.map = map ∧ t.shard = shard ∧ t.version = 1 ∧ t.lastClosed = 0 ∧ t.check = w) ∧
  (∀ (s : State) (p q cid rid st : Nat) (r : Rec), p < 64 → MayRun s p q cid 0x30 rid r → s.allocHeld = false → (s.named r).tableCreateCheck p r.cmd = some st →
    ∃ t, exec (.tableCreate p q cid) s = .next t ∧ Completes s t p q cid st 0 0 0) ∧
  (∀ (s : State) (p q cid rid : Nat) (r : Rec), MayRun s p q cid 0x30 rid r → s.allocHeld = true → exec (.tableCreate p q cid) s = .next s) ∧
  (∀ (s : State) (p q cid rid tid step : Nat) (r : Rec) (t : Table), MayRun s p q cid 0x33 rid r → tid = r.cmd.param 0 2 → step = r.cmd.param 8 8 →
    s.tableOf p tid = some t → t.lastClosed < step →
    ∃ (u : State) (x : Table), exec (.tableStepClose p q cid) s = .next (u.settleTable tid) ∧ Begun u rid r ∧ u.table? tid = some x ∧
      x.closers = t.closers ++ [{ rid := rid, step := step, since := r.fetched, begun := false, applied := 0, missing := [], late := false }] ∧
      x.issued = max t.issued step ∧ x.lastClosed = t.lastClosed) ∧
  (∀ (s : State) (p q cid rid st : Nat) (r : Rec),
    (MayRun s p q cid 0x33 rid r → s.stepCloseCheck p r.cmd = some st → ∃ t, exec (.tableStepClose p q cid) s = .next t ∧ Completes s t p q cid st 0 0 0) ∧
    (MayRun s p q cid 0x34 rid r → (s.named r).switchCheck p r.cmd = some st → ∃ t, exec (.tableSwitch p q cid) s = .next t ∧ Completes s t p q cid st 0 0 0) ∧
    (MayRun s p q cid 0x35 rid r → s.destroyCheck p r.cmd = some st → ∃ t, exec (.tableDestroy p q cid) s = .next t ∧ Completes s t p q cid st 0 0 0)) ∧
  (∀ (s : State) (p q cid rid tid i : Nat) (r : Rec) (t : Table) (n : Tensor), MayRun s p q cid 0x34 rid r → tid = r.cmd.param 0 2 → s.tableOf p tid = some t →
    s.claimedTensor r (r.cmd.param 8 8) = some (i, n) → (s.named r).switchCheck p r.cmd = none →
    (t.old = none → t.switch = none →
      ∃ (u : State) (x : Table), exec (.tableSwitch p q cid) s = .next ((u.recallRows tid).settleTable tid) ∧ Begun u rid r ∧ u.table? tid = some x ∧
        x.addr = n.addr ∧ x.tensor = some i ∧ x.version = (t.version + 1) % 2 ^ 32 ∧ x.switch = some rid ∧ x.rows = t.rows) ∧
    (t.old.isSome = true ∨ t.switch.isSome = true → exec (.tableSwitch p q cid) s = .next s)) ∧
  (∀ (s : State) (p q cid rid tid : Nat) (r : Rec) (t : Table), MayRun s p q cid 0x35 rid r → tid = r.cmd.param 0 2 → s.tableOf p tid = some t →
    t.dying = none →
    (t.switch = none → ∃ (u : State) (x : Table), exec (.tableDestroy p q cid) s = .next (u.settleTable tid) ∧ Begun u rid r ∧ u.table? tid = some x ∧
      x.dying = some rid ∧ u.out = s.out ∧ u.mem = s.mem) ∧
    (t.switch.isSome = true → exec (.tableDestroy p q cid) s = .next s)) ∧
  (∀ (s : State) (p q cid rid : Nat) (r : Rec), (UnderWay s p q cid 0x33 rid r → s.readyRec p q cid 0x33 = none → exec (.tableStepClose p q cid) s = .next (s.settleTable (r.cmd.param 0 2))) ∧
    (UnderWay s p q cid 0x34 rid r → s.readyRec p q cid 0x34 = none → exec (.tableSwitch p q cid) s = .next (s.settleTable (r.cmd.param 0 2))) ∧
    (UnderWay s p q cid 0x35 rid r → s.readyRec p q cid 0x35 = none → exec (.tableDestroy p q cid) s = .next (s.settleTable (r.cmd.param 0 2)))) ∧
  (∀ (s : State) (tid rid : Nat) (t : Table) (r : Rec), s.table? tid = some t → t.closers = [] → t.dying = none → t.switch = some rid → t.recalls = [] →
    kvGet? rid s.recs = some r → r.fab = none → s.pstate r.part ≠ stResetting → Completes s (s.settleTable tid) r.part r.q r.cmd.cid scDone 0 t.version 0) ∧
  (∀ (s : State) (tid rid : Nat) (t : Table) (r : Rec), s.table? tid = some t → t.closers = [] → t.dying = some rid → t.switch = some rid → t.recalls = [] →
    s.workBefore t.part tid rid = false → kvGet? rid s.recs = some r → r.fab = none → s.pstate r.part ≠ stResetting →
    Completes s (s.settleTable tid) r.part r.q r.cmd.cid scDone 0 0 0)

/-- TABLE_LOOKUP that passes its checks, with its context in the stage's pool, fetches each unique valid row held here at its pinned version, asks the
other owners for theirs, and completes when every row has arrived (R291 to R294). TABLE_UPDATE of an open step sums the gradients of equal indices and
goes under way with one contribution to each touched row's owner; for a step already ended its contributions are all refused (R297, R298). A failed
check ends either with its status. -/
def Obligations.LookupsAndUpdates : Prop :=
  (∀ (s s1 s2 s3 : State) (p q cid rid tid pool items bags : Nat) (indices offsets ib ob : List Byte) (r : Rec) (t : Table) (l : Lookup) (idx : List Nat)
    (uniq : KV Unit), MayRun s p q cid 0x31 rid r → tid = r.cmd.param 0 2 → (s.named r).lookupCheck p r.cmd (s.openTable p tid rid) = none →
    pool = (if r.cmd.param 2 1 = 0xFF then (s.stageParam p 7).getD 0 % 4 else r.cmd.param 2 1) → items = r.cmd.param 4 4 → bags = r.cmd.param 8 4 →
    s.ctxIn rid (s.stagePool p 7) = true →
    s.readInput p r.flow (r.cmd.param 16 8) (8 * items) indices = (ib, s1) →
    (if pool = 0 then (([] : List Byte), s1) else s1.readInput p r.flow (r.cmd.param 24 8) (4 * (bags + 1)) offsets) = (ob, s2) →
    (pool ≠ 0 → offsetsOk items ((List.range (bags + 1)).map (fun i => fieldAt ob (4 * i) 4)) = true) →
    s3 = (if (kvGet? rid s2.emb.lookups).isSome then s2 else s2.pinLookup p rid r.cmd) → s3.tableOf p tid = some t →
    kvGet? rid s3.emb.lookups = some l → l.version = t.version → s3.clustersGone p = false → idx = (List.range items).map (fun i => fieldAt ib (8 * i) 8) →
    uniq = (idx.filter (validIndex t.rows)).foldl (fun (m : KV Unit) x => kvPut x () m) [] →
    ((∀ x ∈ uniq, s3.placeRow tid t x.1 true = none) → (∀ x ∈ uniq, s3.mem.isDamaged (t.rowPlace t.addr x.1).1 t.stride = false) →
      ∃ (u : State) (y : Lookup), exec (.tableLookup p q cid indices offsets) s = .next (u.finishLookup rid) ∧ Begun u rid r ∧ kvGet? rid u.emb.lookups = some y ∧
        y.idx = idx ∧ y.pool = pool ∧ y.want = l.want ∧ y.vals = uniq.map (fun x => (x.1, widenRow t.rowType t.dim (s3.rowAt t l.version x.1)))) ∧
    (∀ x n, uniq = [(x, ())] → s3.placeRow tid t x true = some n → s3.reachable n = true →
      ∃ (u : State) (y : Lookup) (k : Packet), exec (.tableLookup p q cid indices offsets) s = .next (u.finishLookup rid) ∧ Begun u rid r ∧
        kvGet? rid u.emb.lookups = some y ∧ y.want = kvPut s3.fab.seqNo [x] l.want ∧ y.remote = l.remote + 1 ∧ Handed s3 u k ∧
        k.vc = 3 ∧ k.dstNode = n ∧ k.seq = s3.fab.seqNo ∧ k.args = [tid, t.check, 0, x])) ∧
  (∀ (s : State) (p q cid rid st : Nat) (indices offsets : List Byte) (r : Rec), MayRun s p q cid 0x31 rid r →
    (s.named r).lookupCheck p r.cmd (s.openTable p (r.cmd.param 0 2) rid) = some st →
    ∃ t, exec (.tableLookup p q cid indices offsets) s = .next t ∧ Completes s t p q cid st 0 0 0) ∧
  (∀ (s : State) (p q cid rid : Nat) (a b : List Byte) (r : Rec), (MayRun s p q cid 0x31 rid r → (s.named r).lookupCheck p r.cmd (s.openTable p (r.cmd.param 0 2) rid) = none →
      s.ctxIn rid (s.stagePool p 7) = false → exec (.tableLookup p q cid a b) s = .next (s.offerCtx rid)) ∧
    (MayRun s p q cid 0x32 rid r → (s.named r).updateCheck p r.cmd (s.openTable p (r.cmd.param 0 2) rid) = none → s.clustersGone p = false →
      s.ctxIn rid (s.stagePool p 8) = false → exec (.tableUpdate p q cid a b) s = .next (s.offerCtx rid))) ∧
  (∀ (s : State) (rid : Nat) (r : Rec) (l : Lookup) (t : Table), kvGet? rid s.emb.lookups = some l → l.want = [] → s.table? l.table = some t → t.part < 64 →
    kvGet? rid s.recs = some r → r.fab = none → r.part = t.part → s.pstate r.part ≠ stResetting → PlainResult s r →
    Completes s (s.finishLookup rid) r.part r.q r.cmd.cid scDone (lookupRows l t s.free).length (l.version + l.vals.length * 2 ^ 32)
      ((l.idx.filter (fun x => !validIndex t.rows x)).length + l.remote * 2 ^ 32)) ∧
  (∀ (s s1 s2 : State) (p q cid rid tid gt items step es : Nat) (indices grads ib gb : List Byte) (r : Rec) (t : Table) (idx : List Nat) (byRow : KV (List Nat)),
    MayRun s p q cid 0x32 rid r → tid = r.cmd.param 0 2 → gt = r.cmd.param 2 1 → items = r.cmd.param 4 4 → step = r.cmd.param 8 8 →
    (s.named r).updateCheck p r.cmd (s.openTable p tid rid) = none → s.openTable p tid rid = some t → s.clustersGone p = false → s.ctxIn rid (s.stagePool p 8) = true →
    es = (if gt = 1 then 2 else 4) → s.readInput p r.flow (r.cmd.param 16 8) (8 * items) indices = (ib, s1) →
    s1.readInput p r.flow (r.cmd.param 24 8) (items * t.dim * es) grads = (gb, s2) → idx = (List.range items).map (fun i => fieldAt ib (8 * i) 8) →
    byRow = idx.zipIdx.foldl (fun (m : KV (List Nat)) x => if validIndex t.rows x.1 then kvPut x.1 (kvGetD [] x.1 m ++ [x.2]) m else m) [] →
    (step ≤ t.issued → ∃ (u : State) (y : TUpdate), exec (.tableUpdate p q cid indices grads) s = .next (u.finishUpdate rid) ∧ kvGet? rid u.emb.updates = some y ∧
      y.refused = byRow.length ∧ y.unique = byRow.length ∧ y.waits = [] ∧ y.okIdx = 0) ∧
    (t.issued < step → (∀ x ∈ byRow, s2.placeRow tid t x.1 false = none) →
      ∃ u : State, exec (.tableUpdate p q cid indices grads) s = .next (u.finishUpdate rid) ∧ Begun u rid r ∧
        ∃ y, kvGet? rid u.emb.updates = some y ∧ y.table = tid ∧ y.step = step ∧ y.unique = byRow.length ∧ y.waits = [] ∧
          y.invalid = (idx.filter (fun x => !validIndex t.rows x)).length) ∧
    (∀ x is n, t.issued < step → byRow = [(x, is)] → s2.placeRow tid t x false = some n → s2.reachable n = true →
      ∃ (u : State) (y : TUpdate) (k : Packet), exec (.tableUpdate p q cid indices grads) s = .next (u.finishUpdate rid) ∧ Begun u rid r ∧
        kvGet? rid u.emb.updates = some y ∧ y.waits = [(s2.fab.seqNo, [x])] ∧ Handed s2 u k ∧ k.vc = 4 ∧ k.dstNode = n ∧
        k.args = [tid, t.check, step, x, 0])) ∧
  (∀ (s : State) (p q cid rid st : Nat) (indices grads : List Byte) (r : Rec), MayRun s p q cid 0x32 rid r →
    (s.named r).updateCheck p r.cmd (s.openTable p (r.cmd.param 0 2) rid) = some st →
    ∃ t, exec (.tableUpdate p q cid indices grads) s = .next t ∧ Completes s t p q cid st 0 0 0) ∧
  (∀ (s : State) (rid : Nat) (r : Rec) (u : TUpdate), kvGet? rid s.emb.updates = some u → u.waits = [] → kvGet? rid s.recs = some r → r.fab = none → r.long = none →
    s.pstate r.part ≠ stResetting →
    Completes s (s.finishUpdate rid) r.part r.q r.cmd.cid (if u.refused = 0 then scDone else if u.refused = u.unique then scQuota else scPartial) u.okIdx
      (u.refused + u.unique * 2 ^ 32) u.invalid)

/-- Requests between the nodes of a table. A lookup sub-request for rows held here is answered with their bytes (R292, R293), and one for a table
that this node does not hold is refused. An answer's rows are taken into its lookup; a refusal ends it with REMOTE_ERROR, or with
FABRIC_UNREACHABLE where no route led on to the owner (R294, R308). A contribution is
accumulated and answered, and the answer is noted in its update (R297, R298). STEP_END is noted (R299); a step whose conditions hold closes, and
one that times out closes with what has arrived (R300, R301). An answer that matches nothing outstanding changes nothing but the list of arrived
packets. -/
def Obligations.TableTraffic : Prop :=
  (∀ (s : State) (k : Packet), s.refusesTable k = true → ∃ t u, exec (.remoteLookupRequest k) s = .next t ∧ Handed s t u ∧ u.vc = 3 ∧
    u.ptype = 2 ∧ u.dstNode = k.srcNode ∧ u.seq = k.seq ∧ u.args = [scRemoteError] ∧ t.emb = s.emb) ∧
  (∀ (s : State) (k : Packet) (t : Table), s.refusesTable k = false → s.table? (k.args.getD 0 0) = some t → k.args.drop 3 ≠ [] →
    (∀ x ∈ k.args.drop 3, t.drifting x = false ∧ s.ownerNext (k.args.getD 0 0) t x true = none ∧ s.mem.isDamaged (t.rowPlace t.addr x).1 t.stride = false) →
    ∃ v u, exec (.remoteLookupRequest k) s = .next v ∧ Handed s v u ∧ u.vc = 3 ∧ u.ptype = 1 ∧ u.dstNode = k.srcNode ∧ u.seq = k.seq ∧
      u.args.head? = some scDone ∧ u.data = (k.args.drop 3).flatMap (fun x => s.rowAt t t.version x)) ∧
  (∀ (s : State) (k : Packet) (o : OutReq) (rid : Nat) (l : Lookup) (t : Table), s.isLate k = false → kvGet? k.seq s.fab.out = some o → o.kind = opLookup →
    o.rid = some rid → kvGet? rid s.emb.lookups = some l → s.table? l.table = some t → k.ptype ≠ 2 → k.args.headD scRemoteError = scDone →
    ∃ (u : State) (y : Lookup), exec (.remoteLookupResponse k) s = .next (u.finishLookup rid) ∧ kvGet? rid u.emb.lookups = some y ∧ y.idx = l.idx ∧
      y.vals = (((answerRows k.args.length (k.args.drop 1)).zipIdx.map (fun x => (x.1.1, widenRow t.rowType t.dim ((k.data.drop (x.2 * t.stride)).take t.stride)))).foldl
        (fun (m : KV (List Nat)) x => kvPut x.1 x.2 m) l.vals)) ∧
  (∀ (s : State) (k : Packet) (o : OutReq) (rid : Nat) (l : Lookup) (t : Table) (r : Rec), s.isLate k = false → kvGet? k.seq s.fab.out = some o → o.kind = opLookup →
    o.rid = some rid → kvGet? rid s.emb.lookups = some l → s.table? l.table = some t → k.ptype = 2 → kvGet? rid s.recs = some r → r.fab = none →
    s.pstate r.part ≠ stResetting → PlainResult s r → ∃ v, exec (.remoteLookupResponse k) s = .next v ∧ Completes s v r.part r.q r.cmd.cid (refuseStatus k) 0 0 0) ∧
  (∀ (s : State) (k : Packet), s.isLate k = false → kvGet? k.seq s.fab.out = none → exec (.remoteLookupResponse k) s = .next (s.taken k) ∧
    exec (.contributionResultArrival k) s = .next (s.taken k)) ∧
  (∀ (s : State) (k : Packet) (t : Table), s.refusesTable k = false → s.table? (k.args.getD 0 0) = some t → t.drifting (k.args.getD 3 0) = false →
    s.ownerNext (k.args.getD 0 0) t (k.args.getD 3 0) false = none → t.lastClosed < k.args.getD 2 0 → t.steps = [] → 0 < t.accumRows →
    ∃ (u : State) (x : Table) (y : Packet), exec (.contributionArrival k) s = .next (u.endSteps (k.args.getD 0 0)) ∧ u.table? (k.args.getD 0 0) = some x ∧
      x.steps = [{ step := k.args.getD 2 0, acc := [(k.args.getD 3 0, fp32List t.dim k.data)] }] ∧ Handed s u y ∧ y.ptype = 1 ∧
      y.dstNode = k.srcNode ∧ y.seq = k.seq ∧ y.args = [0, s.nodeId]) ∧
  (∀ (s : State) (k : Packet) (o : OutReq) (rid x : Nat) (y : TUpdate), s.isLate k = false → kvGet? k.seq s.fab.out = some o → o.kind = opContrib → o.rid = some rid →
    kvGet? rid s.emb.updates = some y → k.ptype ≠ 2 → kvGet? k.seq y.waits = some [x] →
    ∃ (u : State) (z : TUpdate), exec (.contributionResultArrival k) s = .next (u.finishUpdate rid) ∧ kvGet? rid u.emb.updates = some z ∧
      z.waits = kvDel k.seq y.waits ∧ z.okIdx = (if k.args.headD 1 = 0 then y.okIdx + kvGetD 0 x y.counts else y.okIdx) ∧
      z.refused = (if k.args.headD 1 = 0 then y.refused else y.refused + 1)) ∧
  (∀ (s : State) (k : Packet) (t : Table), s.tableOf k.dstPart (k.args.getD 0 0) = some t → t.lastClosed < k.args.getD 1 0 →
    (s.otherNodes t).contains k.srcNode = true →
    ∃ (u : State) (x : Table), exec (.stepEndArrival k) s = .next (u.endSteps (k.args.getD 0 0)) ∧ u.table? (k.args.getD 0 0) = some x ∧
      kvGet? k.srcNode (kvGetD [] (k.args.getD 1 0) x.ends) = some (k.args.getD 2 0) ∧ x.lastClosed = t.lastClosed) ∧
  (∀ (s : State) (k : Packet), s.tableOf k.dstPart (k.args.getD 0 0) = none → exec (.stepEndArrival k) s = .next (s.taken k)) ∧
  (∀ (s u : State) (tid step : Nat) (t : Table) (c : TCloser), u = s.settleTable tid → u.table? tid = some t → t.lastClosed < step → c ∈ t.closers → c.begun = true →
    step ≤ c.step → u.stepReady t step = true → step = t.lastClosed + 1 ∨ u.otherNodes t = [] →
    exec (.embStepClose tid step) s = .next ((((u.closeUpTo tid step).finishCloses tid).endSteps tid).settleTable tid) ∧
      ∃ x, (u.closeUpTo tid step).table? tid = some x ∧ x.lastClosed = step) ∧
  (∀ (s : State) (tid step total unmet : Nat) (t : Table) (c : TCloser) (keys missing : List Nat), s.table? tid = some t → t.closers = [c] → c.step = step →
    c.since + s.fld rEmbCfg fEmbCfg_STEP_TIMEOUT_MS * 1000000 ≤ s.now → t.lastClosed < step → total = step - t.lastClosed →
    keys = (t.ends.map (fun x => x.1)).filter (fun k => decide (t.lastClosed < k ∧ k ≤ step)) →
    missing = (s.otherNodes t).filter (fun n => decide ((keys.filter (fun k => t.inboundFrom k n)).length < total)) →
    unmet = (if (s.otherNodes t).isEmpty then (if step ≤ t.ended then 0 else total) else total - (keys.filter (fun k => s.stepReady t k)).length) →
    (unmet ≠ 0 → ∃ (u : State) (x : Table), exec (.embStepTimeout tid step) s = .next (((u.closeUpTo tid step).finishCloses tid).settleTable tid) ∧
      u.table? tid = some x ∧ x.closers = [{ c with late := true, missing := missing }]) ∧
    (unmet = 0 → exec (.embStepTimeout tid step) s = .next s)) ∧
  (∀ (s : State) (tid step : Nat) (t : Table), s.table? tid = some t → (∀ c ∈ t.closers, c.step ≠ step) → exec (.embStepTimeout tid step) s = .next s)

/-- Drift. A load report goes to the other nodes of the map that can be reached, and an arriving one is noted once (R304, R363). An offer that has a slot and an entry reserves them and is accepted, and one that has
not is refused and counted (R305). An accepted drift has its copy sent; a copy newer than the last is written to its slot; the switch makes the
entry FORWARD, and its arrival makes the row owned here once its copy is there (R306). A drift without acknowledgement for 100 µs is abandoned
(R308). A recall drops the row and is acknowledged, which strikes it from those awaited (R302, R303); a replica takes the new value of its row
(R307). An order whose SEQ precedes one acted on changes only the list of arrived packets (R363). -/
def Obligations.RowDrift : Prop :=
  (∀ (s : State) (tid : Nat) (t : Table), s.table? tid = some t → s.otherNodes t = [] →
    ∃ (u : State) (x : Table), exec (.embLoadReport tid) s = .next u ∧ u.table? tid = some x ∧ x.served = recentRows s.now t.served ∧
      u.fab = s.fab) ∧
  (∀ (s : State) (tid n : Nat) (t : Table), s.table? tid = some t → s.otherNodes t = [n] → s.reachable n = true →
    ∃ (u : State) (k : Packet), exec (.embLoadReport tid) s = .next u ∧ Handed s u k ∧ k.vc = 0 ∧ k.opcode = 0x34 ∧ k.dstNode = n ∧
      k.args = [tid, ((recentRows s.now t.served).foldl (fun a x => a + x.2) 0) * 125 / 2]) ∧
  (∀ (s : State) (c : Instr) (k : Packet), c = .loadOrderArrival k ∨ c = .driftOfferArrival k ∨ c = .driftAcceptArrival k ∨ c = .recallArrival k ∨ c = .recallAckArrival k →
    s.orderFresh k.srcNode k.seq = false →
    exec c s = .next (s.modFab (fun x => { x with arrived := x.arrived.filter (fun y => !(y.vc == 0 && y.srcNode == k.srcNode && y.seq == k.seq)) }))) ∧
  (∀ (s : State) (k : Packet) (t : Table), s.orderFresh k.srcNode k.seq = true → s.table? (k.args.getD 0 0) = some t →
    ∃ (u : State) (x : Table), exec (.loadOrderArrival k) s = .next u ∧ u.table? (k.args.getD 0 0) = some x ∧ x.loads = kvPut k.srcNode (k.args.getD 1 0) t.loads ∧
      kvGet? k.srcNode u.fab.orderRx = some k.seq ∧ u.out = s.out ∧ u.mem = s.mem) ∧
  (∀ (s : State) (k : Packet) (t : Table) (i : Nat), s.orderFresh k.srcNode k.seq = true → s.table? (k.args.getD 0 0) = some t → kvFreeKey t.slots t.driftRows 0 = some i →
    t.shard.isSome = true → t.dying = none → (t.map[(t.place (k.args.getD 1 0)).1]?).map (fun e => e.node) = some k.srcNode → t.slotOf (k.args.getD 1 0) = none →
    k.args.getD 2 0 = 1 ∨ s.dirCan = true →
    ∃ (u : State) (x : Table) (y : Packet), exec (.driftOfferArrival k) s = .next u ∧ u.table? (k.args.getD 0 0) = some x ∧
      kvGet? i x.slots = some { row := k.args.getD 1 0, home := k.srcNode, copied := 0, switched := false, replica := k.args.getD 2 0 == 1, since := s.now } ∧
      Handed s u y ∧ y.opcode = 0x31 ∧ y.dstNode = k.srcNode ∧ y.args = [k.args.getD 0 0, k.args.getD 1 0]) ∧
  (∀ (s : State) (k : Packet) (t : Table), s.orderFresh k.srcNode k.seq = true → s.table? (k.args.getD 0 0) = some t → kvFreeKey t.slots t.driftRows 0 = none →
    s.ctr cEmbDriftRefused + 1 < 2 ^ 48 - 1 →
    ∃ u, exec (.driftOfferArrival k) s = .next u ∧ u.ctr cEmbDriftRefused = s.ctr cEmbDriftRefused + 1 ∧ u.emb = s.emb ∧ u.fab.handoff = s.fab.handoff) ∧
  (∀ (s : State) (k : Packet) (t : Table) (d : Drift), s.orderFresh k.srcNode k.seq = true → s.table? (k.args.getD 0 0) = some t → t.drifts = [d] →
    d.row = k.args.getD 1 0 → d.node = k.srcNode → d.copies = 0 → d.replica = false →
    ∃ (u : State) (x : Table) (y : Packet), exec (.driftAcceptArrival k) s = .next u ∧ u.table? (k.args.getD 0 0) = some x ∧
      x.drifts = [{ d with copies := 1, since := s.now }] ∧ Handed s u y ∧ y.vc = 5 ∧ y.opcode = opDriftCopy ∧ y.dstNode = k.srcNode ∧
      y.args = [k.args.getD 0 0, k.args.getD 1 0, 1, 0]) ∧
  (∀ (s : State) (k : Packet) (t : Table) (i : Nat) (z : DSlot), s.table? (k.args.getD 0 0) = some t → t.slotOf (k.args.getD 1 0) = some (i, z) → z.switched = false →
    z.copied < k.args.getD 2 0 → z.home = k.srcNode → t.opt ≠ 2 →
    ∃ (u : State) (x : Table), exec (.driftCopyArrival k) s = .next (u.settleHeld (k.args.getD 0 0)) ∧ u.table? (k.args.getD 0 0) = some x ∧
      kvGet? i x.slots = some { z with copied := k.args.getD 2 0 } ∧
      ∀ a, u.mem.read a = (s.writeMem (t.rowPlace t.addr (k.args.getD 1 0)).1 (k.data.take t.stride)).mem.read a) ∧
  (∀ (s : State) (tid row : Nat) (t : Table) (d : Drift), s.table? tid = some t → t.drifts = [d] → d.row = row → d.replica = false → 0 < d.copies → s.dirCan = true →
    s.ctr cEmbDrifts + 1 < 2 ^ 48 - 1 →
    ∃ (u : State) (x : Table) (y : Packet), exec (.driftSwitch tid row) s = .next u ∧ u.table? tid = some x ∧ x.drifts = [] ∧
      { row := row, table := tid, kind := 1, node := d.node, rep := false } ∈ u.emb.dir ∧ Handed s u y ∧ y.vc = 4 ∧
      y.opcode = opDriftSwitch ∧ y.dstNode = d.node ∧ u.ctr cEmbDrifts = s.ctr cEmbDrifts + 1) ∧
  (∀ (s : State) (k : Packet) (t : Table) (i : Nat) (z : DSlot), s.table? (k.args.getD 0 0) = some t → t.slots = [(i, z)] → z.row = k.args.getD 1 0 →
    z.replica = false → z.switched = false → t.held = [] → z.copied < k.args.getD 2 0 →
    ∃ (u : State) (x : Table), exec (.driftSwitchArrival k) s = .next u ∧ u.table? (k.args.getD 0 0) = some x ∧ x.slots = t.slots ∧
      x.held = [{ k with opcode := opDriftSwitch }]) ∧
  (∀ (s : State) (k : Packet) (t : Table) (i : Nat) (z : DSlot), s.table? (k.args.getD 0 0) = some t → t.slots = [(i, z)] → z.row = k.args.getD 1 0 →
    z.replica = false → z.switched = false → t.held = [] → k.args.getD 2 0 ≤ z.copied → k.args.drop 3 = [] →
    ∃ (u : State) (x : Table), exec (.driftSwitchArrival k) s = .next u ∧ u.table? (k.args.getD 0 0) = some x ∧ x.slots = [(i, { z with switched := true })] ∧ x.held = [] ∧
      u.emb.dir = s.emb.dir ++ [{ row := k.args.getD 1 0, table := k.args.getD 0 0, kind := 2, node := s.nodeId, rep := false }]) ∧
  (∀ (s : State) (tid row : Nat) (t : Table), s.table? tid = some t →
    ∃ (u : State) (x : Table), exec (.driftAbandonTimeout tid row) s = .next u ∧ u.table? tid = some x ∧
      x.drifts = t.drifts.filter (fun d => !(d.row == row && decide (d.since + 100000 ≤ s.now))) ∧ x.slots = t.slots ∧ u.fab = s.fab ∧ u.mem = s.mem) ∧
  (∀ (s : State) (k : Packet) (t : Table), s.orderFresh k.srcNode k.seq = true → s.table? (k.args.getD 0 0) = some t → t.held = [] →
    ∃ (u : State) (x : Table) (y : Packet), exec (.recallArrival k) s = .next u ∧ u.table? (k.args.getD 0 0) = some x ∧
      x.slots = t.slots.filter (fun z => z.2.row != k.args.getD 1 0) ∧ Handed s u y ∧ y.opcode = 0x33 ∧ y.dstNode = k.srcNode ∧
      y.args = [k.args.getD 0 0, k.args.getD 1 0]) ∧
  (∀ (s : State) (k : Packet) (t : Table), s.orderFresh k.srcNode k.seq = true → s.table? (k.args.getD 0 0) = some t →
    ∃ (u : State) (x : Table), exec (.recallAckArrival k) s = .next (u.settleTable (k.args.getD 0 0)) ∧ u.table? (k.args.getD 0 0) = some x ∧
      x.recalls = t.recalls.filter (fun r => r != (k.args.getD 1 0, k.srcNode)) ∧ x.slots = t.slots ∧ u.out = s.out) ∧
  (∀ (s : State) (k : Packet) (t : Table) (i : Nat) (z : DSlot), s.table? (k.args.getD 0 0) = some t → t.slotOf (k.args.getD 1 0) = some (i, z) → z.replica = true →
    z.home = k.srcNode →
    ∃ (u : State) (x : Table), exec (.replicaUpdateArrival k) s = .next u ∧ u.table? (k.args.getD 0 0) = some x ∧
      kvGet? i x.slots = some { z with copied := max 1 z.copied } ∧
      ∀ a, u.mem.read a = (s.writeMem (t.rowPlace t.addr z.row).1 (k.data.take t.stride)).mem.read a)

/-! ### Memory tiers and compositions (spec/12) -/

/-- TENSOR_ALLOC gives the tensor a free index, a place in its tier and the partition's handle, and completes with handle and node address; with
ZERO its bytes read zero (R311, R313); past the quota it completes with QUOTA (R318). TENSOR_FREE makes the handle name nothing and completes
(R316). TENSOR_WRITE of an ordinary tensor in Tier A or Tier B writes exactly the addressed bytes and completes with their number; TENSOR_READ
completes with the number it read (R314). In Tier P both are sent to the lender of an OPEN window (R319). A bad handle completes with
BAD_HANDLE, and each failed check with its status; TENSOR_ALLOC and TENSOR_MIGRATE wait while an image load holds allocations back. A TENSOR_ALLOC whose
zeros go to Tier P completes once the lender has them (R320), and a write to Tier F waits where flash collection has yet to free space (R342). A
migration whose chunks are copied and whose claim is granted switches (R317), after its traffic to and from Tier P. -/
def Obligations.Tensors : Prop :=
  (∀ (s v : State) (p q cid rid tier bytes i a : Nat) (place : Option Nat) (r : Rec), MayRun s p q cid 0x40 rid r → tier = r.cmd.param 0 1 →
    s.allocHeld = false → bytes = r.cmd.param 8 8 → place = placeOf (r.cmd.param 1 1) (r.cmd.param 2 2) → tier ≤ 3 → 1 ≤ bytes → bytes ≤ 2 ^ 40 → placeValid tier place = true →
    kvFreeKey s.mem.tensors 1048575 1 = some i → s.allocNear p tier bytes .tensor place = some (a, v) →
    tier ≠ 2 ∨ bitOf (r.cmd.param 1 1) 0 = false →
    ∃ u : State, exec (.tensorAlloc p q cid) s = .next (u.done p rid 0 (mkHandle (kvGetD 0 i s.mem.gens) p i) a) ∧
      Completes s (u.done p rid 0 (mkHandle (kvGetD 0 i s.mem.gens) p i) a) p q cid scDone 0 (mkHandle (kvGetD 0 i s.mem.gens) p i) a ∧
      kvGet? i u.mem.tensors = some (Tensor.mk (kvGetD 0 i s.mem.gens) p a bytes .none false false) ∧
      (∀ j, j ≠ i → kvGet? j u.mem.tensors = kvGet? j s.mem.tensors) ∧ u.regs = s.regs ∧
      (∀ x, x < a ∨ a + roundUp bytes (allocUnit tier) ≤ x → u.mem.read x = s.mem.read x) ∧
      (bitOf (r.cmd.param 1 1) 0 = true → ∀ x, a ≤ x → x < a + bytes → u.mem.read x = 0)) ∧
  (∀ (s v : State) (p q cid rid bytes i a : Nat) (place : Option Nat) (r : Rec), MayRun s p q cid 0x40 rid r → r.cmd.param 0 1 = 2 → bitOf (r.cmd.param 1 1) 0 = true →
    s.allocHeld = false → bytes = r.cmd.param 8 8 → place = placeOf (r.cmd.param 1 1) (r.cmd.param 2 2) → 1 ≤ bytes → bytes ≤ 2 ^ 40 → placeValid 2 place = true →
    kvFreeKey s.mem.tensors 1048575 1 = some i → s.allocNear p 2 bytes .tensor place = some (a, v) →
    ∃ u : State, exec (.tensorAlloc p q cid) s = .next (u.holdResult rid r (Finish.mk scDone 0 0 (mkHandle (kvGetD 0 i s.mem.gens) p i) a a
        (List.replicate (roundUp bytes (allocUnit 2)) 0) (some i) false)) ∧
      kvGet? i u.mem.tensors = some (Tensor.mk (kvGetD 0 i s.mem.gens) p a bytes .none false false) ∧ u.recs = s.recs ∧ u.out = s.out) ∧
  (∀ (s : State) (p q cid rid : Nat) (r : Rec), p < 64 → MayRun s p q cid 0x40 rid r → s.allocHeld = false → r.cmd.param 0 1 ≤ 3 → 1 ≤ r.cmd.param 8 8 → r.cmd.param 8 8 ≤ 2 ^ 40 →
    placeValid (r.cmd.param 0 1) (placeOf (r.cmd.param 1 1) (r.cmd.param 2 2)) = true →
    s.quotaOf p (r.cmd.param 0 1) < s.useOf p (r.cmd.param 0 1) + roundUp (r.cmd.param 8 8) (allocUnit (r.cmd.param 0 1)) →
    ∃ t, exec (.tensorAlloc p q cid) s = .next t ∧ Completes s t p q cid scQuota 0 0 0) ∧
  (∀ (s : State) (p q cid rid st : Nat) (data : List Byte) (r : Rec), p < 64 →
    (MayRun s p q cid 0x40 rid r → s.allocHeld = false → s.tensorAllocCheck p r.cmd = some st →
      ∃ t, exec (.tensorAlloc p q cid) s = .next t ∧ Completes s t p q cid st 0 0 0) ∧
    (MayRun s p q cid 0x41 rid r → s.tensorFreeCheck p r.cmd = some st → ∃ t, exec (.tensorFree p q cid) s = .next t ∧ Completes s t p q cid st 0 0 0) ∧
    (MayRun s p q cid 0x42 rid r → (s.named r).tensorWriteCheck p r.cmd (s.claimedTensor r (r.cmd.param 0 8)) = some st →
      ∃ t, exec (.tensorWrite p q cid data) s = .next t ∧ Completes s t p q cid st 0 0 0) ∧
    (MayRun s p q cid 0x43 rid r → (s.named r).tensorReadCheck p r.cmd (s.claimedTensor r (r.cmd.param 0 8)) = some st →
      ∃ t, exec (.tensorRead p q cid) s = .next t ∧ Completes s t p q cid st 0 0 0) ∧
    (MayRun s p q cid 0x44 rid r → s.allocHeld = false → (s.named r).tensorMigrateCheck p r.cmd = some st →
      ∃ t, exec (.tensorMigrate p q cid) s = .next t ∧ Completes s t p q cid st 0 0 0) ∧
    (MayRun s p q cid 0x40 rid r → s.allocHeld = true → exec (.tensorAlloc p q cid) s = .next s) ∧
    (MayRun s p q cid 0x44 rid r → s.allocHeld = true → exec (.tensorMigrate p q cid) s = .next s)) ∧
  (∀ (s : State) (p q cid rid i : Nat) (r : Rec) (x : Tensor), MayRun s p q cid 0x41 rid r → s.tensorOf p (r.cmd.param 0 8) = some (i, x) → x.holder = .none →
    x.migrating = false →
    ∃ u : State, exec (.tensorFree p q cid) s = .next (u.done p rid 0 0 0) ∧ Completes s (u.done p rid 0 0 0) p q cid scDone 0 0 0 ∧
      u.tensorOf p (r.cmd.param 0 8) = none ∧ (∀ j, j ≠ i → kvGet? j u.mem.tensors = kvGet? j s.mem.tensors) ∧ SameMem s u) ∧
  (∀ (s : State) (p q cid rid : Nat) (r : Rec), MayRun s p q cid 0x41 rid r → s.tensorOf p (r.cmd.param 0 8) = none →
    ∃ t, exec (.tensorFree p q cid) s = .next t ∧ Completes s t p q cid scBadHandle 0 0 0) ∧
  (∀ (s v : State) (p q cid rid i off n a tier : Nat) (data bs : List Byte) (r : Rec) (x : Tensor), p < 64 → MayRun s p q cid 0x42 rid r →
    off = r.cmd.param 8 8 → n = r.cmd.param 16 8 → 1 ≤ n → n ≤ 2 ^ 30 → s.claimedTensor r (r.cmd.param 0 8) = some (i, x) → x.holder = .none →
    s.flash.roTens.contains x.addr = false → (s.named r).addrOk p (r.cmd.param 24 8) n = true → off + n ≤ x.bytes → a = x.addr + off → tierOf a = some tier → tier ≤ 1 → s.touchesFenced tier a n = false →
    s.readInput p r.flow (r.cmd.param 24 8) n data = (bs, v) →
    ∃ u : State, exec (.tensorWrite p q cid data) s = .next (u.done p rid n 0 0) ∧ Completes s (u.done p rid n 0 0) p q cid scDone n 0 0 ∧
      ((tier = 0 → ∀ y ∈ channelPieces a n, (v.chan y.1).state ≠ 2 ∧ (v.chan y.1).state ≠ 6 ∧ v.isFenced 7 y.1 = false) → SameMemBut s u a n ∧ u.readMem a n = bs) ∧
      (∀ c, tier = 0 → channelPieces a n = [(c, a, n)] → (v.chan c).state = 2 → (v.chan c).holds.length < 64 →
        SameMem s u ∧ (u.chan c).holds = (v.chan c).holds ++ [{ addr := a, write := true, data := bs, since := s.now }])) ∧
  (∀ (s v : State) (p q cid rid i n a : Nat) (data bs : List Byte) (r : Rec) (x : Tensor), MayRun s p q cid 0x42 rid r → n = r.cmd.param 16 8 → 1 ≤ n →
    n ≤ 2 ^ 30 → s.claimedTensor r (r.cmd.param 0 8) = some (i, x) → x.holder = .none → s.flash.roTens.contains x.addr = false → (s.named r).addrOk p (r.cmd.param 24 8) n = true → r.cmd.param 8 8 + n ≤ x.bytes →
    a = x.addr + r.cmd.param 8 8 → s.touchesFenced ((tierOf a).getD 0) a n = false → s.readInput p r.flow (r.cmd.param 24 8) n data = (bs, v) →
    (tierOf a = some 3 → v.flashFits x.addr (roundUp x.bytes 16384 / 16384) a n = false → exec (.tensorWrite p q cid data) s = .next s) ∧
    (tierOf a = some 3 → v.flashFits x.addr (roundUp x.bytes 16384 / 16384) a n = true → ∀ w, v.flashStore p x.addr (roundUp x.bytes 16384 / 16384) a bs = (w, none) →
      exec (.tensorWrite p q cid data) s = .next (w.done p rid n 0 0)) ∧
    (tierOf a = some 2 → (s.windowAt a).any (fun w => w.2.2.state == 1) = false → exec (.tensorWrite p q cid data) s = .next (v.accessP p rid a n true bs)) ∧
    (tierOf a = some 2 → (s.windowAt a).any (fun w => w.2.2.state == 1) = true → exec (.tensorWrite p q cid data) s = .next s)) ∧
  (∀ (s : State) (p q cid rid i off n tier : Nat) (r : Rec) (x : Tensor), p < 64 → MayRun s p q cid 0x43 rid r → off = r.cmd.param 8 8 → n = r.cmd.param 16 8 →
    1 ≤ n → n ≤ 2 ^ 30 → r.cmd.resultAddr ≠ 0 → s.claimedTensor r (r.cmd.param 0 8) = some (i, x) → (s.named r).resultOk p r.cmd.resultAddr n = true → off + n ≤ x.bytes →
    tierOf (x.addr + off) = some tier → tier ≤ 1 → (∀ y ∈ s.tensorPieces x off n, s.mem.isDamaged y.1 y.2 = false) → PlainResult s r →
    ∃ u : State, exec (.tensorRead p q cid) s = .next (u.complete p rid scDone 0 n 0 0 ((s.tensorPieces x off n).flatMap (fun y => s.ordBytes y.1 y.2))) ∧
      Completes s (u.complete p rid scDone 0 n 0 0 ((s.tensorPieces x off n).flatMap (fun y => s.ordBytes y.1 y.2))) p q cid scDone n 0 0 ∧
      ((∀ c, (s.chan c).holds.length + (s.tensorPieces x off n).length ≤ 64) → SameMem s u)) ∧
  (∀ (s : State) (a n : Nat), (∀ c h, h ∈ (s.chan c).holds ++ (s.chan c).excess → h.write = false) →
    s.ordBytes a n = s.readMem a n) ∧
  (∀ (s : State) (p q cid rid i off n : Nat) (r : Rec) (x : Tensor), MayRun s p q cid 0x43 rid r → off = r.cmd.param 8 8 → n = r.cmd.param 16 8 →
    1 ≤ n → n ≤ 2 ^ 30 → r.cmd.resultAddr ≠ 0 → s.claimedTensor r (r.cmd.param 0 8) = some (i, x) → (s.named r).resultOk p r.cmd.resultAddr n = true → off + n ≤ x.bytes →
    (tierOf (x.addr + off) = some 2 → exec (.tensorRead p q cid) s = .next (s.accessP p rid (x.addr + off) n false [])) ∧
    (∀ bs ok v, tierOf (x.addr + off) = some 3 → s.flashLoad p (x.addr + off) n = (bs, ok, none, v) →
      exec (.tensorRead p q cid) s = .next (v.complete p rid scDone 0 n 0 0 bs))) ∧
  (∀ (s : State) (p rid a n c i : Nat) (write : Bool) (data : List Byte) (w : PWindow) (r : Rec), s.windowAt a = some (c, i, w) → w.state = 2 →
    s.reachable w.peer = true → kvGet? rid s.recs = some r →
    ∃ k, Handed s (s.accessP p rid a n write data) k ∧ k.vc = 5 ∧ k.dstNode = w.peer ∧ k.seq = s.fab.seqNo ∧
      k.args = [w.wid, a - w.base, n, write.toNat] ∧ k.data = data ∧ Begun (s.accessP p rid a n write data) rid r) ∧
  (∀ (s : State) (p q cid rid i a tier : Nat) (r : Rec) (x : Tensor) (v : State), MayRun s p q cid 0x44 rid r → s.allocHeld = false → tier = r.cmd.param 8 1 → tier ≤ 3 →
    placeValid tier (placeOf (r.cmd.param 9 1) (r.cmd.param 10 2)) = true → s.claimedTensor r (r.cmd.param 0 8) = some (i, x) → x.migrating = false →
    tierOf x.addr ≠ some tier → (s.named r).moveOk x tier = true → s.allocNear p tier x.bytes .migration (placeOf (r.cmd.param 9 1) (r.cmd.param 10 2)) = some (a, v) →
    ∃ u : State, exec (.tensorMigrate p q cid) s = .next u ∧ Begun u rid r ∧ kvGet? rid u.mem.migs = some { tensor := i, dest := a, copied := 0, dirty := [], passes := 0, asked := false } ∧
      kvGet? i u.mem.tensors = some { x with migrating := true } ∧ u.out = s.out ∧ u.regs = s.regs ∧ SameMem s u) ∧
  (∀ (s : State) (p q cid rid : Nat) (r : Rec) (m : Migration) (x : Tensor) (l : LongOp), p < 64 → UnderWay s p q cid 0x44 rid r → kvGet? rid s.mem.migs = some m →
    kvGet? m.tensor s.mem.tensors = some x → r.long = some l → l.running = true → s.mem.isDamaged x.addr x.bytes = false → tierOf x.addr ≠ some 2 →
    (tierOf x.addr = some 3 → ∀ i, i < (unitSpan x.addr x.bytes).2 → s.unitBad ((unitSpan x.addr x.bytes).1 + i) = false) →
    tierOf m.dest ≠ some 2 → tierOf m.dest ≠ some 3 → m.asked = true → s.claimsFree rid r = true →
    exec (.migrateSwitch p q cid) s = .next (s.switchTensor rid m x) ∧
      Completes s (s.switchTensor rid m x) p q cid scDone 1 (mkHandle x.gen x.part m.tensor) m.dest) ∧
  (∀ (s t : State) (p q cid rid : Nat) (r : Rec) (m : Migration) (x : Tensor) (l : LongOp), UnderWay s p q cid 0x44 rid r → kvGet? rid s.mem.migs = some m →
    kvGet? m.tensor s.mem.tensors = some x → r.long = some l → l.running = true → s.mem.isDamaged x.addr x.bytes = false →
    tierOf x.addr ≠ some 3 → tierOf m.dest ≠ some 3 → m.asked = true → s.claimsFree rid r = true → s.copyP p rid m x = some t →
    exec (.migrateSwitch p q cid) s = .next t) ∧
  (∀ (s : State) (p q cid rid : Nat) (r : Rec) (m : Migration) (x : Tensor), UnderWay s p q cid 0x44 rid r → kvGet? rid s.mem.migs = some m →
    kvGet? m.tensor s.mem.tensors = some x → r.long = none → exec (.migrateSwitch p q cid) s = .next s)

/-- Pooled memory. At the lender an access under an OPEN lend entry of that borrower reads or writes the backing and is answered; any other is
refused and changes no memory (R319). At the borrower the answer completes the command that waited, with the bytes moved or REMOTE_ERROR, brings an input, completes what
was held for its results, or lets a migration go on (R320).
OPEN is accepted where a lend entry of equal LENGTH stands, and otherwise refused; ACCEPT and REFUSE move a PENDING window to OPEN and REFUSED;
CLOSE, or a lender unreachable for LOST_MS, makes a borrow window LOST (R319, R321), and what waits for the window goes on. An order whose SEQ precedes one acted on changes only the
list of arrived packets (R363). -/
def Obligations.TierP : Prop :=
  (∀ (s : State) (src seq wid off len : Nat) (data : List Byte) (w : PWindow), 1 ≤ len → off + len ≤ w.len →
    s.mem.comps.findSome? (fun c => c.2.windows.find? (fun w => w.lend && w.peer == src && w.wid == wid && w.state == 2)) = some w →
    s.touchesFenced w.tier (w.base + off) len = false →
    (∃ t k, exec (.tierPAccessArrival src seq wid off len true data) s = .next t ∧ Handed s t k ∧ k.vc = 5 ∧ k.ptype = 1 ∧
      k.dstNode = src ∧ k.seq = seq ∧ k.args = [scDone] ∧ k.data = [] ∧ ∀ x, t.mem.read x = (s.writeMem (w.base + off) (data.take len)).mem.read x) ∧
    (s.mem.isDamaged (w.base + off) len = false →
      ∃ t k, exec (.tierPAccessArrival src seq wid off len false data) s = .next t ∧ Handed s t k ∧ k.vc = 5 ∧ k.ptype = 1 ∧
        k.dstNode = src ∧ k.seq = seq ∧ k.args = [scDone] ∧ k.data = s.readMem (w.base + off) len ∧ SameMem s t)) ∧
  (∀ (s : State) (src seq wid off len : Nat) (write : Bool) (data : List Byte),
    s.mem.comps.findSome? (fun c => c.2.windows.find? (fun w => w.lend && w.peer == src && w.wid == wid && w.state == 2)) = none →
    ∃ t k, exec (.tierPAccessArrival src seq wid off len write data) s = .next t ∧ Handed s t k ∧ k.vc = 5 ∧ k.ptype = 2 ∧
      k.dstNode = src ∧ k.seq = seq ∧ k.args = [scRemoteError] ∧ t.mem = s.mem) ∧
  (∀ (s : State) (src seq rid : Nat) (data : List Byte) (x : PAccess) (r : Rec), kvGet? seq s.mem.pacc = some x → x.node = src → x.rid = some rid →
    kvGet? rid s.recs = some r → r.fab = none → s.pstate r.part ≠ stResetting →
    (x.use = .operand → r.cmd.opcode = 0x43 → PlainResult s r → ∃ u : State, exec (.tierPResponseArrival src seq scDone data) s = .next (u.complete r.part rid scDone 0 x.len 0 0 (data.take x.len)) ∧
      Completes s (u.complete r.part rid scDone 0 x.len 0 0 (data.take x.len)) r.part r.q r.cmd.cid scDone x.len 0 0 ∧ kvGet? seq u.mem.pacc = none ∧
      kvGet? seq u.fab.out = none) ∧
    (x.use = .operand → r.cmd.opcode = 0x42 → ∃ u : State, exec (.tierPResponseArrival src seq scDone data) s = .next (u.done r.part rid x.len 0 0) ∧
      Completes s (u.done r.part rid x.len 0 0) r.part r.q r.cmd.cid scDone x.len 0 0 ∧ kvGet? seq u.mem.pacc = none ∧ kvGet? seq u.fab.out = none) ∧
    (x.use = .input → ∃ (u : State) (y : Rec), exec (.tierPResponseArrival src seq scDone data) s = .next (u.fetchInput rid) ∧
      y = { r with need := r.need.drop 1 } ∧ kvGet? rid u.recs = some y ∧ (y.need = [] → kvGet? rid (u.fetchInput rid).recs = some { y with phase := .ready })) ∧
    (∀ f, x.use = .result → r.late = some f → r.long = none → ∃ t, exec (.tierPResponseArrival src seq scDone data) s = .next t ∧
      Completes s t r.part r.q r.cmd.cid f.status f.count f.r0 f.r1) ∧
    (∀ m, x.use = .copy → kvGet? rid s.mem.migs = some m → ∃ t, exec (.tierPResponseArrival src seq scDone data) s = .next t ∧
      kvGet? rid t.mem.migs = some { m with tierP := m.tierP + 1 } ∧ t.out = s.out ∧ t.recs = s.recs) ∧
    (∀ status, status ≠ scDone → r.part < 64 → (r.cmd.opcode = 0x31 → PlainResult s r) → ∃ t, exec (.tierPResponseArrival src seq status data) s = .next t ∧
      Completes s t r.part r.q r.cmd.cid scRemoteError 0 0 0)) ∧
  (∀ (s : State) (src seq wid len c i : Nat) (w : PWindow) (x : Sys2Proof.Machine.Composition), s.orderFresh src seq = true → s.findWindow true src wid = some (c, i, w) →
    w.len = len → kvGet? c s.mem.comps = some x → x.windows[i]? = some w →
    ∃ t k y, exec (.windowOpenArrival src seq wid len) s = .next t ∧ Handed s t k ∧ k.vc = 0 ∧ k.opcode = 0x21 ∧ k.dstNode = src ∧
      k.args = [wid] ∧ kvGet? c t.mem.comps = some y ∧ y.windows[i]? = some { w with state := 2 }) ∧
  (∀ (s : State) (src seq wid len : Nat), s.orderFresh src seq = true → (∀ c i w, s.findWindow true src wid = some (c, i, w) → w.len ≠ len) →
    ∃ t k, exec (.windowOpenArrival src seq wid len) s = .next t ∧ Handed s t k ∧ k.vc = 0 ∧ k.opcode = 0x22 ∧ k.dstNode = src ∧
      k.args = [wid] ∧ t.mem = s.mem) ∧
  (∀ (s : State) (src seq wid c i : Nat) (w : PWindow) (x : Sys2Proof.Machine.Composition), s.orderFresh src seq = true → s.findWindow false src wid = some (c, i, w) →
    kvGet? c s.mem.comps = some x → x.windows[i]? = some w →
    (w.state = 1 → ∃ t y, exec (.windowAcceptArrival src seq wid) s = .next (State.serveP t) ∧ kvGet? c t.mem.comps = some y ∧
      y.windows[i]? = some { w with state := 2, unreach := none } ∧ SameMemBut s t w.base w.len ∧ t.recs = s.recs ∧ t.out = s.out) ∧
    (w.state = 1 → ∃ t y, exec (.windowRefuseArrival src seq wid) s = .next (State.serveP t) ∧ kvGet? c t.mem.comps = some y ∧ y.windows[i]? = some { w with state := 3 } ∧
      SameMem s t ∧ t.recs = s.recs ∧ t.out = s.out) ∧
    (s.mem.pacc = [] → ∃ t y, exec (.windowCloseArrival src seq wid) s = .next (State.serveP t) ∧ kvGet? c t.mem.comps = some y ∧ y.windows[i]? = some { w with state := 4 })) ∧
  (∀ (s : State) (src seq wid c i : Nat) (w : PWindow) (x : Sys2Proof.Machine.Composition), s.orderFresh src seq = true → s.findWindow false src wid = none →
    s.findWindow true src wid = some (c, i, w) → kvGet? c s.mem.comps = some x → x.windows[i]? = some w →
    ∃ t y, exec (.windowCloseArrival src seq wid) s = .next t ∧ kvGet? c t.mem.comps = some y ∧ y.windows[i]? = some { w with state := 1 }) ∧
  (∀ (s : State) (c : Instr) (src seq wid len : Nat), c ∈ [Instr.windowOpenArrival src seq wid len, .windowAcceptArrival src seq wid, .windowRefuseArrival src seq wid,
    .windowCloseArrival src seq wid] → s.orderFresh src seq = false →
    exec c s = .next (s.modFab (fun x => { x with arrived := x.arrived.filter (fun y => !(y.vc == 0 && y.srcNode == src && y.seq == seq)) }))) ∧
  (∀ (s : State) (comp index since : Nat) (w : PWindow) (x : Sys2Proof.Machine.Composition), kvGet? comp s.mem.comps = some x → x.windows[index]? = some w → w.lend = false →
    w.state = 1 ∨ w.state = 2 → w.unreach = some since → s.reachable w.peer = false → since + max 10 (min 60000 (s.fld rMemCfg fMemCfg_LOST_MS)) * 1000000 ≤ s.now →
    s.mem.pacc = [] →
    ∃ t y, exec (.windowLostTimeout comp index) s = .next (State.serveP t) ∧ kvGet? comp t.mem.comps = some y ∧ y.windows[index]? = some { w with state := 4 })

/-- COMPOSITION_SET of a valid definition whose quotas hold puts its members, quotas, shares and windows in force at one instant and completes with
the number of PENDING windows (R324 to R326); COMPOSITION_REMOVE ends the composition and completes (R325, R326); a failed check ends each with its status
and no entry at fault, and each waits while an image load holds allocations back. The meters are brought up to the present
every 1 µs (R327), and MEM_CSEL latches all of them at one instant (Table 12.11). -/
def Obligations.Compositions : Prop :=
  (∀ (s s1 s2 s3 : State) (p q cid rid id : Nat) (data d : List Byte) (r : Rec) (k : CompDef) (old cur : Sys2Proof.Machine.Composition) (ws : List PWindow), p < 64 →
    MayRun s p q cid 0x45 rid r → s.allocHeld = false → id = r.cmd.param 0 2 → r.cmd.param 2 1 = 0 → id ≤ 4095 → (s.named r).addrOk p (r.cmd.param 8 8) (r.cmd.param 16 4) = true →
    s.readInput p r.flow (r.cmd.param 8 8) (r.cmd.param 16 4) data = (d, s1) → compHeadOk id d = true → k = parseComp d →
    (∀ m, m < 64 → bitOf k.parts m = true → s1.configured m = true ∧ ∀ o ∈ s1.mem.comps, o.1 ≠ id → bitOf o.2.parts m = false) →
    s1.compBadEntry id d = none → old = (kvGet? id s1.mem.comps).getD (Sys2Proof.Machine.Composition.mk 0 [] [] [] s1.now (List.replicate 10 0)) →
    s1.strands old k.parts k.windows = false → (kvGet? id s1.mem.comps).isSome = true ∨ s1.mem.comps.length < 256 →
    s1.mem.comps.foldl (fun n o => if o.1 = id then n else n + o.2.windows.length) k.windows.length ≤ 512 →
    cur = (kvGet? id s1.integrate.mem.comps).getD old →
    s2 = (((old.windows.filter (fun w => !k.windows.any w.same)).filter (fun w => w.lend)).foldl (fun (t : State) w => t.release w.base) s1.integrate).modMem
      (fun m => { m with comps := kvPut id (Sys2Proof.Machine.Composition.mk k.parts k.quotas k.shares (old.windows.filter (fun w => k.windows.any w.same)) cur.created cur.meters) m.comps }) →
    s2.quotasOk = true → s2.buildWindows old.windows (k.quotas.length + k.shares.length) k.windows = .ok (ws, s3) →
    ∃ (u : State) (n : Nat), n = (ws.filter (fun w => w.state == 1)).length % 65536 ∧ exec (.compositionSet p q cid data) s = .next (u.done p rid 0 n 0) ∧
      Completes s (u.done p rid 0 n 0) p q cid scDone 0 n 0 ∧
      kvGet? id u.mem.comps = some (Sys2Proof.Machine.Composition.mk k.parts k.quotas k.shares ws cur.created cur.meters)) ∧
  (∀ (s : State) (p q cid rid st : Nat) (data : List Byte) (r : Rec), MayRun s p q cid 0x45 rid r →
    (r.cmd.param 2 1 ≠ 1 → s.allocHeld = false → (s.named r).compositionCheck p r.cmd = some st →
      ∃ t, exec (.compositionSet p q cid data) s = .next t ∧ Completes s t p q cid st 0 0 0xFFFFFFFFFFFFFFFF) ∧
    (r.cmd.param 2 1 = 1 → s.allocHeld = false → (s.named r).compositionCheck p r.cmd = some st →
      ∃ t, exec (.compositionRemove p q cid) s = .next t ∧ Completes s t p q cid st 0 0 0xFFFFFFFFFFFFFFFF) ∧
    (s.allocHeld = true → exec (.compositionSet p q cid data) s = .next s ∧ exec (.compositionRemove p q cid) s = .next s)) ∧
  (∀ (s v : State) (p q cid rid id : Nat) (r : Rec) (x : Sys2Proof.Machine.Composition), MayRun s p q cid 0x45 rid r → s.allocHeld = false → id = r.cmd.param 0 2 → r.cmd.param 2 1 = 1 → id ≤ 4095 →
    r.cmd.resultAddr ≠ 0 → r.cmd.resultAddr % 8 = 0 → kvGet? id s.mem.comps = some x → (s.named r).resultOk p r.cmd.resultAddr 80 = true → PlainResult s r →
    (∀ m, m < 64 → bitOf x.parts m = true → s.tierPTensors m = []) →
    v = (x.windows.foldl State.dropWindow s.integrate).modMem (fun m => { m with comps := kvDel id m.comps }) → v.quotasOk = true →
    ∃ (u : State) (bs : List Byte), exec (.compositionRemove p q cid) s = .next (u.complete p rid scDone 0 0 0 0 bs) ∧
      Completes s (u.complete p rid scDone 0 0 0 0 bs) p q cid scDone 0 0 0 ∧ kvGet? id u.mem.comps = none ∧
      bs = ((s.metered x (s.now - s.mem.lastMeter)).record s.now).flatMap (fun v => leBytes 8 v)) ∧
  (∀ s : State, s.now < s.mem.lastMeter + 1000 → exec .meterIntegrate s = .next s) ∧
  (∀ s : State, s.mem.lastMeter + 1000 ≤ s.now →
    ∃ t, exec .meterIntegrate s = .next t ∧ t.mem.lastMeter = s.now ∧ SameMem s t ∧ t.regs = s.regs ∧ t.out = s.out ∧
      ∀ id c, kvGet? id s.mem.comps = some c → kvGet? id t.mem.comps = some (s.metered c (s.now - s.mem.lastMeter))) ∧
  (∀ (s : State) (pf comp window : Nat) (c : Sys2Proof.Machine.Composition), comp < 4096 → kvGet? comp s.mem.comps = some c →
    ∃ t, exec (.memCselLatch pf comp window) s = .next t ∧ kvGet? pf t.mem.latch = some ((s.metered c (s.now - s.mem.lastMeter)).record s.now) ∧ t.fldPf pf rMemCsel fMemCsel_COMP_ID = comp ∧
      t.mem.comps = s.integrate.mem.comps ∧ SameMem s t ∧ t.out = s.out)

/-! ### Flash (spec/13) -/

/-- NS_READ completes with the units' bytes, zeros where never written, and names the first unit that failed (R333, R334, R338); NS_WRITE writes its
units whole and completes with their number, and on a read-only namespace with MEDIA_READ_ONLY (R334, R335, R344); NS_TRIM makes its units read
zero (R336). NS_FORMAT creates a namespace at once (QUOTA where it does not fit), and begins a delete or an erase, which ends with COUNT 1 when the
earlier commands have (R337). A write that exhausts the media completes with MEDIA_FULL and the first unit not written, and its namespace becomes
read-only (R344), and one for which collection has freed no space yet waits (R342). Each failed check ends its command with the status of the check, an unknown namespace with BAD_HANDLE; NS_FORMAT with OP 0 waits
while an image load holds allocations back. -/
def Obligations.Namespaces : Prop :=
  (∀ (s : State) (p q cid rid id n first a : Nat) (r : Rec) (x : NSpace), p < 64 → MayRun s p q cid 0x60 rid r → id = r.cmd.param 0 2 → n = r.cmd.param 4 4 →
    first = r.cmd.param 8 8 → nsidOk id = true → 1 ≤ n → n ≤ 65536 → r.cmd.resultAddr ≠ 0 → s.nsOf p id rid = some x →
    (s.named r).resultOk p r.cmd.resultAddr (n * 16384) = true → PlainResult s r → first + n ≤ x.size → s.nsWaits rid p id first n false = false → a = nsBase (nsKey p id) + first * 16384 →
    ((∀ j, j < n → s.unitBad (a / 16384 + j) = false) →
      ∃ (u : State) (bs : List Byte), bs = s.readMem a (n * 16384) ∧ exec (.nsRead p q cid) s = .next (u.complete p rid scDone 0 n 0 0 bs) ∧
        Completes s (u.complete p rid scDone 0 n 0 0 bs) p q cid scDone n 0 0 ∧ SameMem s u ∧ u.flash.map = s.flash.map) ∧
    (n = 1 → s.unitBad (a / 16384) = true →
      ∃ t, exec (.nsRead p q cid) s = .next t ∧ Completes s t p q cid scMediaUncorrectable 0 first 0)) ∧
  (∀ (s v w : State) (p q cid rid id n first base : Nat) (data bs : List Byte) (r : Rec) (x : NSpace), p < 64 → MayRun s p q cid 0x61 rid r →
    id = r.cmd.param 0 2 → n = r.cmd.param 4 4 → first = r.cmd.param 8 8 → nsidOk id = true → 1 ≤ n → n ≤ 65536 → s.nsOf p id rid = some x →
    (s.named r).addrOk p (r.cmd.param 16 8) (n * 16384) = true → first + n ≤ x.size → s.nsWaits rid p id first n true = false → base = nsBase (nsKey p id) →
    (x.ro = true → ∃ t, exec (.nsWrite p q cid data) s = .next t ∧ Completes s t p q cid scMediaReadOnly 0 0 0) ∧
    (x.ro = false → s.readInput p r.flow (r.cmd.param 16 8) (n * 16384) data = (bs, v) → v.flashFits base x.size (base + first * 16384) (n * 16384) = false →
      exec (.nsWrite p q cid data) s = .next s) ∧
    (x.ro = false → s.readInput p r.flow (r.cmd.param 16 8) (n * 16384) data = (bs, v) → v.flashFits base x.size (base + first * 16384) (n * 16384) = true →
      v.flashStore p base x.size (base + first * 16384) bs = (w, none) →
      exec (.nsWrite p q cid data) s = .next (w.done p rid n 0 0) ∧ Completes s (w.done p rid n 0 0) p q cid scDone n 0 0 ∧
        SameMemBut s w (base + first * 16384) (n * 16384) ∧ w.readMem (base + first * 16384) (n * 16384) = bs) ∧
    (∀ k, x.ro = false → s.readInput p r.flow (r.cmd.param 16 8) (n * 16384) data = (bs, v) → v.flashFits base x.size (base + first * 16384) (n * 16384) = true →
      v.flashStore p base x.size (base + first * 16384) bs = (w, some k) →
      ∃ t, exec (.nsWrite p q cid data) s = .next t ∧ Completes s t p q cid scMediaFull 0 (first + k / 16384) 0 ∧
        kvGet? (nsKey p id) t.flash.ns = (kvGet? (nsKey p id) w.flash.ns).map (fun y => { y with ro := true }))) ∧
  (∀ (s : State) (p q cid rid id n first : Nat) (r : Rec) (x : NSpace), MayRun s p q cid 0x62 rid r → id = r.cmd.param 0 2 → n = r.cmd.param 4 4 →
    first = r.cmd.param 8 8 → nsidOk id = true → 1 ≤ n → s.nsOf p id rid = some x → first + n ≤ x.size → s.nsWaits rid p id first n true = false → x.ro = false →
    ∃ u : State, exec (.nsTrim p q cid) s = .next (u.done p rid n 0 0) ∧ Completes s (u.done p rid n 0 0) p q cid scDone n 0 0 ∧
      SameMemBut s u (nsBase (nsKey p id) + first * 16384) (n * 16384) ∧
      (∀ y, nsBase (nsKey p id) + first * 16384 ≤ y → y < nsBase (nsKey p id) + (first + n) * 16384 → u.mem.read y = 0) ∧ u.flash.ns = s.flash.ns) ∧
  (∀ (s : State) (p q cid rid id size : Nat) (r : Rec), p < 64 → MayRun s p q cid 0x63 rid r → id = r.cmd.param 0 2 → size = r.cmd.param 8 8 →
    s.allocHeld = false → r.cmd.param 2 1 = 0 → nsidOk id = true → 1 ≤ size → kvGet? (nsKey p id) s.flash.ns = none →
    (s.useOf p 3 + 16384 * size ≤ s.quotaOf p 3 → s.tierFUse + 16384 * size ≤ s.flash.c * 16384 → s.flash.ns.length < 1024 →
      ∃ u : State, exec (.nsFormatCreate p q cid) s = .next (u.done p rid 0 0 0) ∧ Completes s (u.done p rid 0 0 0) p q cid scDone 0 0 0 ∧
        kvGet? (nsKey p id) u.flash.ns = some { size := size } ∧ (kvGet? (nsBase (nsKey p id) / 16384) u.flash.keys).isSome = true ∧ u.mem = s.mem ∧ u.flash.map = s.flash.map) ∧
    (s.quotaOf p 3 < s.useOf p 3 + 16384 * size → ∃ t, exec (.nsFormatCreate p q cid) s = .next t ∧ Completes s t p q cid scQuota 0 0 0)) ∧
  (∀ (s : State) (c : Instr) (p q cid rid op : Nat) (r : Rec) (x : NSpace), (op, c) ∈ [(1, Instr.nsFormatDelete p q cid), (2, .nsFormatErase p q cid)] →
    MayRun s p q cid 0x63 rid r → r.cmd.param 2 1 = op → nsidOk (r.cmd.param 0 2) = true → s.nsOf p (r.cmd.param 0 2) rid = some x →
    ∃ u, exec c s = .next u ∧ Begun u rid r ∧ kvGet? (nsKey p (r.cmd.param 0 2)) u.flash.ns = some { x with ending := some rid } ∧ u.out = s.out ∧ u.mem = s.mem) ∧
  (∀ (s : State) (c : Instr) (p q cid rid op : Nat) (r : Rec), (op, c) ∈ [(1, Instr.nsFormatDelete p q cid), (2, .nsFormatErase p q cid)] →
    MayRun s p q cid 0x63 rid r → r.cmd.param 2 1 = op →
    (∀ st, s.nsFormatCheck p rid r.cmd = some st → ∃ t, exec c s = .next t ∧ Completes s t p q cid st 0 0 0) ∧
    (nsidOk (r.cmd.param 0 2) = true → s.nsOf p (r.cmd.param 0 2) rid = none → s.nsFormatCheck p rid r.cmd = some scBadHandle)) ∧
  (∀ (s : State) (p q cid rid st : Nat) (data : List Byte) (r : Rec),
    (MayRun s p q cid 0x60 rid r → (s.named r).nsReadCheck p rid r.cmd = some st → ∃ t, exec (.nsRead p q cid) s = .next t ∧ Completes s t p q cid st 0 0 0) ∧
    (MayRun s p q cid 0x61 rid r → s.nsWaits rid p (r.cmd.param 0 2) (r.cmd.param 8 8) (r.cmd.param 4 4) true = false → (s.named r).nsWriteCheck p rid r.cmd = some st →
      ∃ t, exec (.nsWrite p q cid data) s = .next t ∧ Completes s t p q cid st 0 0 0) ∧
    (MayRun s p q cid 0x62 rid r → s.nsWaits rid p (r.cmd.param 0 2) (r.cmd.param 8 8) (r.cmd.param 4 4) true = false → s.nsTrimCheck p rid r.cmd = some st →
      ∃ t, exec (.nsTrim p q cid) s = .next t ∧ Completes s t p q cid st 0 0 0) ∧
    (p < 64 → MayRun s p q cid 0x63 rid r → r.cmd.param 2 1 ≠ 1 → r.cmd.param 2 1 ≠ 2 → s.allocHeld = false → s.nsFormatCheck p rid r.cmd = some st →
      ∃ t, exec (.nsFormatCreate p q cid) s = .next t ∧ Completes s t p q cid st 0 0 0) ∧
    (MayRun s p q cid 0x63 rid r → r.cmd.param 2 1 = 0 → s.allocHeld = true → exec (.nsFormatCreate p q cid) s = .next s)) ∧
  (∀ (s : State) (p q cid rid key : Nat) (r : Rec) (x : NSpace) (l : LongOp), UnderWay s p q cid 0x63 rid r → key = nsKey p (r.cmd.param 0 2) →
    kvGet? key s.flash.ns = some x → r.long = some l → l.running = true → s.nsWaits rid p (r.cmd.param 0 2) 0 (2 ^ 64) true = false →
    ∃ u : State, exec (.nsFormatDone p q cid) s = .next (u.done p rid 1 0 0) ∧ Completes s (u.done p rid 1 0 0) p q cid scDone 1 0 0 ∧
      kvGet? key u.flash.ns = (if r.cmd.param 2 1 = 1 then none else some { size := x.size }) ∧
      (kvGet? (nsBase key / 16384) u.flash.keys).isSome = decide (r.cmd.param 2 1 ≠ 1) ∧
      (∀ y ∈ u.flash.map, y ∈ s.flash.map ∧ (y.1 < nsBase key / 16384 ∨ nsBase key / 16384 + x.size ≤ y.1)))

/-- Media events. A block that fails a program or an erase is retired and counted (R339); a LUN that is fenced begins its rebuild (R340), whose end
returns its superblocks with one member less, once no unit is left in them. Collection starts below GC_LOW (R342), wear levelling past WEAR_SPREAD (R341). A page read for
scrub counts for its block, which is relocated where a page needed retry above level 4 or had too many corrected bits, and is retired where retries pass half of the reads (R339, R343). SPARE_PERMIL takes
effect only while no namespace or Tier F tensor exists (R331). Each command changes nothing where its condition does not hold. -/
def Obligations.FlashMedia : Prop :=
  (∀ (s : State) (lun b : Nat) (e : Bool), s.flash.good lun b = true → s.ctr cFtlBlocksRetired + 1 < 2 ^ 48 - 1 →
    ∃ t, exec (.flashProgramFail lun b e) s = .next t ∧ (t.flash.blk lun b).retired = true ∧ t.ctr cFtlBlocksRetired = s.ctr cFtlBlocksRetired + 1 ∧
      SameMem s t ∧ t.recs = s.recs) ∧
  (∀ (s : State) (lun b : Nat) (e : Bool), s.flash.good lun b = false → exec (.flashProgramFail lun b e) s = .next s) ∧
  (∀ (s : State) (lun : Nat), s.isFenced 10 lun = false → lun % 32 < s.flash.geom.luns →
    ∃ t, exec (.lunFence lun) s = .next t ∧ t.isFenced 10 lun = true ∧ t.flash.rebuild = s.flash.rebuild ++ [lun] ∧
      (t.funit 10 lun).fences = (s.funit 10 lun).fences + 1 ∧ SameMem s t ∧ t.recs = s.recs) ∧
  (∀ (s : State) (lun : Nat), s.isFenced 10 lun = true → exec (.lunFence lun) s = .next s) ∧
  (∀ (s : State) (lun : Nat), s.flash.rebuild.contains lun = true →
    ∃ u, exec (.lunRebuildDone lun) s = .next (State.serveP u) ∧ u.recs = s.recs ∧
      (u.flash.rebuild = s.flash.rebuild.filter (· != lun) ∧ u.flash.out = s.flash.out ++ [lun] ∨
        u.flash.rebuild = s.flash.rebuild ∧ u.flash.out = s.flash.out ∧ ∃ x ∈ u.flash.map, x.2.1 / 65536 = lun % 32)) ∧
  (∀ (s : State) (lun : Nat), s.flash.rebuild.contains lun = true → (∀ x ∈ s.flash.map, x.2.1 / 65536 ≠ lun % 32) →
    ∃ u, exec (.lunRebuildDone lun) s = .next (State.serveP u) ∧ u.flash.rebuild = s.flash.rebuild.filter (· != lun) ∧ u.flash.out = s.flash.out ++ [lun] ∧
      u.recs = s.recs) ∧
  (∀ (s : State) (lun : Nat), s.flash.rebuild.contains lun = false → exec (.lunRebuildDone lun) s = .next s) ∧
  (∀ (s : State), (s.freeBelow s.gcLow = false → exec .gcStart s = .next s) ∧
    (s.freeBelow s.gcLow = true → exec .gcStart s = .next (State.collect s.flash.supers.length s).serveP)) ∧
  (∀ (s : State) (n sb : Nat), s.freeBelow s.gcHigh = true → s.gcVictim = some sb → s.flash.unitsIn sb = [] →
    State.collect (n + 1) s = State.collect n (s.eraseSuper sb) ∧ (s.eraseSuper sb).flash.erases sb = s.flash.erases sb + 1) ∧
  (∀ (s : State) (lo hi n : Nat), s.wearBounds = (lo, hi) → n = max 20 (min 2000 (s.fld rFtlCfg fFtlCfg_WEAR_SPREAD)) →
    (hi - lo ≤ n → exec .wearLevelStart s = .next s) ∧
    (n < hi - lo → exec .wearLevelStart s = .next (State.levelWear n s.flash.supers.length s))) ∧
  (∀ (s : State) (lun b page k : Nat), k ∈ s.flash.unitsOfBlock lun b → (s.flash.placeOf k).map (fun x => x.2.2) = some page →
    ((s.flash.blk lun b).reads + 1 ≤ s.fld rFtlCfg fFtlCfg_DISTURB_K * 1000 → 2 * (s.flash.blk lun b).retries ≤ (s.flash.blk lun b).reads + 1 →
      ∃ t, exec (.mediaScrubRead lun b page .sound) s = .next t ∧ (t.flash.blk lun b).reads = (s.flash.blk lun b).reads + 1 ∧
        (t.flash.blk lun b).retries = (s.flash.blk lun b).retries ∧ t.flash.map = s.flash.map ∧ t.mem = s.mem ∧ t.regs = s.regs) ∧
    (2 * min 0xFFFF ((s.flash.blk lun b).retries + 1) ≤ (s.flash.blk lun b).reads + 1 → (s.flash.blk lun b).reads + 1 ≤ s.fld rFtlCfg fFtlCfg_DISTURB_K * 1000 →
      ∃ t, exec (.mediaScrubRead lun b page .retried) s = .next t ∧ (t.flash.blk lun b).retries = min 0xFFFF ((s.flash.blk lun b).retries + 1) ∧
        t.flash.map = s.flash.map ∧ t.mem = s.mem) ∧
    (2 * (s.flash.blk lun b).retries ≤ (s.flash.blk lun b).reads + 1 →
      ∃ u : State, exec (.mediaScrubRead lun b page .weak) s = .next ((u.relocate (s.flash.unitsOfBlock lun b)).bump cFtlScrubRelocated 1) ∧
        (u.flash.blk lun b).retries = (s.flash.blk lun b).retries ∧ u.flash.map = s.flash.map) ∧
    (2 * min 0xFFFF ((s.flash.blk lun b).retries + 1) ≤ (s.flash.blk lun b).reads + 1 →
      ∃ u : State, exec (.mediaScrubRead lun b page .deepRetry) s = .next ((u.relocate (s.flash.unitsOfBlock lun b)).bump cFtlScrubRelocated 1) ∧
        (u.flash.blk lun b).retries = min 0xFFFF ((s.flash.blk lun b).retries + 1) ∧ u.flash.map = s.flash.map) ∧
    ((s.flash.blk lun b).reads + 1 < 2 * min 0xFFFF ((s.flash.blk lun b).retries + 1) → s.flash.good lun b = true →
      ∀ f, f = .retried ∨ f = .deepRetry → ∃ t, exec (.mediaScrubRead lun b page f) s = .next t ∧ (t.flash.blk lun b).retired = true)) ∧
  (∀ (s : State) (lun b page : Nat) (found : ScrubFound), s.flash.unitsOfBlock lun b = [] → exec (.mediaScrubRead lun b page found) s = .next s) ∧
  (∀ (s : State) (w : Word), s.flash.ns ≠ [] →
    ∃ t, exec (.ftlSpareWrite w) s = .next t ∧ t.fld rFtlCfg fFtlCfg_SPARE_PERMIL = s.fld rFtlCfg fFtlCfg_SPARE_PERMIL ∧
      t.fld rFtlCfg fFtlCfg_WEAR_SPREAD = max 20 (min 2000 (fFtlCfg_WEAR_SPREAD.get w)) ∧ t.flash = s.flash ∧ t.mem = s.mem) ∧
  (∀ (s : State) (w : Word), s.flash.ns = [] → (∀ x ∈ s.mem.allocs, tierOf x.1 ≠ some 3) →
    ∃ t, exec (.ftlSpareWrite w) s = .next t ∧ t.fld rFtlCfg fFtlCfg_SPARE_PERMIL = max 50 (min 300 (fFtlCfg_SPARE_PERMIL.get w)) ∧
      (s.flash.media = 2 → t.flash = s.flash.format (max 50 (min 300 (fFtlCfg_SPARE_PERMIL.get w)))) ∧ SameMem s t)

/-! ### The fabric: lanes, links and the network (spec/14) -/

/-- Flits. A flit whose CRC or LSEQ is bad is discarded and owes a NAK; a good null flit only acknowledges and returns credits; a good single-flit
packet advances LSEQ, owes an acknowledgement and is received whole (R352 to R356). Unacknowledged flits are replayed in order after 2 µs, each with the
marker and the credits it carried (R353); an
incomplete packet is dropped and counted after 100 µs (R372). At a slot a link sends what its control owes, then a marker, then VC0, then the
packet under way (R358, R359). A marker closes its channel of the snapshot being recorded, and starts one at a node that is free for it; another snapshot's markers fail that snapshot once (R376, R377). A
lost lane is told to the peer by WIDTH_CHG on the next flit (R351); a flit on VC7 is discarded (R356). -/
def Obligations.Lanes : Prop :=
  (∀ (s : State) (l : Nat) (flit : List Byte) (x : Link), s.link? l = some x → 2 ≤ x.state → x.state ≠ 5 →
    flit.length ≠ 256 ∨ crc32 (flit.take 252) ≠ fieldAt flit 252 4 ∨ (fieldAt flit 0 8 % 4 ≠ 0 ∧ fieldAt flit 0 8 / 2 ^ 12 % 2 ^ 12 ≠ x.rxSeq) →
    ∃ t, exec (.flitReceive l flit) s = .next t ∧ t.link? l = some { x with nakDue := true } ∧ t.mem = s.mem ∧ t.out = s.out ∧ t.fab.rx = s.fab.rx) ∧
  (∀ (s : State) (l h : Nat) (flit : List Byte) (x : Link), s.link? l = some x → 2 ≤ x.state → x.state ≠ 5 → flit.length = 256 →
    crc32 (flit.take 252) = fieldAt flit 252 4 → h = fieldAt flit 0 8 → h / 2 ^ 10 % 2 = 0 → h / 2 ^ 11 % 2 = 0 →
    (h % 4 = 0 → ∃ t y, exec (.flitReceive l flit) s = .next t ∧ t.link? l = some y ∧ y.rxSeq = x.rxSeq ∧ y.nakDue = x.nakDue ∧
      y.unacked = x.unacked.filter (fun g => decide (0 < (g.seq + 4096 - h / 2 ^ 24 % 2 ^ 12) % 4096 ∧ (g.seq + 4096 - h / 2 ^ 24 % 2 ^ 12) % 4096 < 2049)) ∧
      t.fab.rx = s.fab.rx ∧ t.mem = s.mem) ∧
    (h % 4 = 1 → h / 4 % 2 = 1 → 1 ≤ h / 8 % 8 → h / 8 % 8 ≤ 6 → h / 2 ^ 12 % 2 ^ 12 = x.rxSeq → kvGet? (h / 8 % 8 * 8 + h / 64 % 8) x.reasm = none →
      ∃ t y, exec (.flitReceive l flit) s = .next t ∧ t.link? l = some y ∧ y.rxSeq = (x.rxSeq + 1) % 4096 ∧ y.ackDue = true ∧
        t.fab.rx = s.fab.rx ++ [(l, parsePacket (h / 8 % 8) ((flit.drop 8).take 244))] ∧ SameMem s t) ∧
    (h % 4 ≠ 0 → h / 8 % 8 = 7 → h / 2 ^ 12 % 2 ^ 12 = x.rxSeq → s.ctr cFabDrops + 1 < 2 ^ 48 - 1 →
      ∃ t, exec (.flitReceive l flit) s = .next t ∧ t.ctr cFabDrops = s.ctr cFabDrops + 1 ∧ t.fab.rx = s.fab.rx ∧ t.fab.snapCh = s.fab.snapCh ∧ t.mem = s.mem)) ∧
  (∀ (s : State) (l : Nat) (x : Link) (f : SentFlit) (fs : List SentFlit), s.link? l = some x → x.unacked = f :: fs →
    (s.now < f.sentAt + 2000 → exec (.replayTimeout l) s = .next s) ∧
    (f.sentAt + 2000 ≤ s.now → (∀ g ∈ x.unacked, g.replays < 7) → x.widthChg = false →
      ∃ (t : State) (y : Link) (tx : List TxFlit), exec (.replayTimeout l) s = .next t ∧ t.link? l = some y ∧
        y.unacked = x.unacked.map (fun g => { g with replays := g.replays + 1, sentAt := s.now }) ∧ t.fab.tx = s.fab.tx ++ tx ∧
        tx.map (fun g => (g.lane, g.kind, g.vc, g.lseq, g.marker, g.cr)) = x.unacked.map (fun g => (l, g.kind, g.vc, g.seq, g.marker, g.cr)) ∧
        tx.map (fun g => (g.level, g.last, g.widthChg, g.carried, g.pad)) = x.unacked.map (fun g => (g.level, g.last, g.widthChg, g.carried, g.pad)) ∧ SameMem s t)) ∧
  (∀ (s u : State) (l : Nat) (x : Link), u = ((s.promote).markLinkHeads l).markGated l → u.link? l = some x → 2 ≤ x.state → x.state ≠ 5 →
    (x.widthChg = true → x.unacked.length < 2048 → ∃ t f y, exec (.linkEgressSlot l) s = .next t ∧ t.fab.tx = u.fab.tx ++ [f] ∧ f.kind = 3 ∧ f.widthChg = true ∧
      f.marker = none ∧ t.link? l = some y ∧ y.widthChg = false ∧ y.txSeq = (x.txSeq + 1) % 4096) ∧
    (x.widthChg = false → x.nakDue = true ∨ x.ackDue = true → ∃ t f y, exec (.linkEgressSlot l) s = .next t ∧ t.fab.tx = u.fab.tx ++ [f] ∧ f.lane = l ∧ f.kind = 0 ∧ f.nak = x.nakDue ∧
      f.ack = (x.rxSeq + 4095) % 4096 ∧ t.link? l = some y ∧ y.nakDue = false ∧ y.ackDue = false ∧ y.unacked = x.unacked ∧ y.txSeq = x.txSeq) ∧
    (x.widthChg = false → x.nakDue = false → x.ackDue = false → x.unacked.length < 2048 → (∀ m ms, x.markers = m :: ms →
      ∃ t f y, exec (.linkEgressSlot l) s = .next t ∧ t.fab.tx = u.fab.tx ++ [f] ∧ f.kind = 3 ∧ f.vc = m.1 ∧ f.marker = some m.2 ∧ f.lseq = x.txSeq ∧
        t.link? l = some y ∧ y.markers = ms ∧ y.txSeq = (x.txSeq + 1) % 4096) ∧
      (x.markers = [] → ∀ e es, x.vc0q = e :: es → s.hasCredit x 0 e.level = true → x.isUp = false ∨ u.dataReady l x = false →
        ∃ t f y, exec (.linkEgressSlot l) s = .next t ∧ t.fab.tx = u.fab.tx ++ [f] ∧ f.kind = 1 ∧ f.vc = 0 ∧ f.last = true ∧
          f.carried = pieceOf { e.pkt with hops := e.level } f.pad 0 ∧ t.link? l = some y ∧ y.vc0q = es ∧
          t.fab.sentOut = u.fab.sentOut ++ [(l, { e.pkt with hops := e.level })]) ∧
      (x.markers = [] → x.vc0q = [] → x.isUp = true → ∀ e, x.active.find? (fun e => u.hasCredit x e.pkt.vc e.level) = some e →
        ∃ t f, exec (.linkEgressSlot l) s = .next t ∧ t.fab.tx = u.fab.tx ++ [f] ∧ f.kind = (if e.sent = 0 then 1 else 2) ∧ f.vc = e.pkt.vc ∧
          f.level = e.level ∧ f.last = decide (e.sent + 1 = flitsOf e.pkt) ∧ f.carried = pieceOf { e.pkt with hops := e.level } f.pad e.sent))) ∧
  (∀ (s : State) (l vc level : Nat) (x : Link) (r : Reasm), s.link? l = some x → kvGet? (vc * 8 + level) x.reasm = some r →
    (s.now < r.since + 100000 → exec (.reassemblyTimeout l vc level) s = .next s) ∧
    (r.since + 100000 ≤ s.now → s.ctr cFabDrops + 1 < 2 ^ 48 - 1 → ∃ t y, exec (.reassemblyTimeout l vc level) s = .next t ∧ t.link? l = some y ∧
      kvGet? (vc * 8 + level) y.reasm = none ∧ t.ctr cFabDrops = s.ctr cFabDrops + 1 ∧ t.mem = s.mem)) ∧
  (∀ (s : State) (l vc id : Nat) (x : Link) (c : SnapCh) (o : Nat × SnapCh), s.link? l = some x → x.isUp = true → s.fld rFabSnapStatus fFabSnapStatus_STATE = 1 →
    s.fab.snapId = id → kvGet? (l * 8 + vc) s.fab.snapCh = some c → o ∈ s.fab.snapCh → o.1 ≠ l * 8 + vc → o.2.closed = false →
    ∃ t, exec (.markerArrival l vc id) s = .next t ∧ kvGet? (l * 8 + vc) t.fab.snapCh = some { c with closed := true } ∧ t.regs = s.regs ∧ t.out = s.out) ∧
  (∀ (s : State) (l vc id : Nat) (x : Link), s.link? l = some x → x.isUp = true → s.fld rFabSnapStatus fFabSnapStatus_STATE = 0 → s.snapFree = true →
    ∃ t, exec (.markerArrival l vc id) s = .next t ∧ t.fab.snapId = id) ∧
  (∀ (s : State) (l vc id : Nat) (x : Link), s.link? l = some x → x.isUp = true → s.fld rFabSnapStatus fFabSnapStatus_STATE = 1 → s.fab.snapId ≠ id →
    (kvGetD [] id s.fab.snapBad = [] → s.coll? id = none → s.ctr cFabCollFails + 1 < 2 ^ 48 - 1 → ∃ t, exec (.markerArrival l vc id) s = .next t ∧
      t.ctr cFabCollFails = s.ctr cFabCollFails + 1 ∧ t.fab.snapId = s.fab.snapId ∧ t.fab.snapCh = s.fab.snapCh ∧ kvGetD [] id t.fab.snapBad = [l * 8 + vc]) ∧
    (∀ b bs, kvGetD [] id s.fab.snapBad = b :: bs → l * 8 + vc ∉ b :: bs →
      exec (.markerArrival l vc id) s = .next (s.modFab (fun f => { f with snapBad := kvPut id ((l * 8 + vc) :: b :: bs) f.snapBad })))) ∧
  (∀ (s : State) (l vc id : Nat) (x : Link), s.link? l = some x → x.isUp = false → exec (.markerArrival l vc id) s = .next s)

/-- Links. A lane fault fences the lane, and its link goes on without it; a lane that rejoins is unfenced and in its link again (R351). Training
makes a link of its unfenced lanes and sends HELLO; the timer sends it again; a HELLO of equal width brings the link up, one of another width is
counted and takes the link down; without HELLO for 1 ms the link is down (R349, R364). A write of FAB_LANE_EQ that sets OVERRIDE keeps what
training found aside; one that clears it puts that back in force (R350).
The millisecond tick starts a new measure of every link's use and keeps route weights within 0.5 to 2.0 (R426). -/
def Obligations.Links : Prop :=
  (∀ (s : State) (lane l : Nat) (x : Link), s.fab.links.find? (fun x => decide (x.1 ≤ lane ∧ lane < x.1 + x.2.width)) = some (l, x) → s.link? l = some x →
    bitOf x.lanesUp (lane - l) = true → s.isFenced 9 lane = false → x.lanesUp ≠ 2 ^ (lane - l) → (∀ f ∈ x.unacked, f.replays < 7) →
    ∃ t y, exec (.laneFault lane) s = .next t ∧ t.isFenced 9 lane = true ∧ (t.funit 9 lane).fences = (s.funit 9 lane).fences + 1 ∧ t.link? l = some y ∧
      y.lanesUp = x.lanesUp - 2 ^ (lane - l) ∧ y.state = (if x.isUp then 4 else x.state) ∧ y.unacked.map (fun f => f.seq) = x.unacked.map (fun f => f.seq)) ∧
  (∀ (s : State) (lane : Nat), (∀ x ∈ s.fab.links, lane < x.1 ∨ x.1 + x.2.width ≤ lane ∨ bitOf x.2.lanesUp (lane - x.1) = false) →
    exec (.laneFault lane) s = .next s) ∧
  (∀ (s : State) (lane l : Nat) (x : Link), s.isFenced 9 lane = true → s.board.extest = false → s.ctr cFltRestores + 1 < 2 ^ 48 - 1 →
    s.fab.links.find? (fun x => decide (x.1 ≤ lane ∧ lane < x.1 + x.2.width)) = some (l, x) → s.link? l = some x → x.state ≠ 0 → x.state ≠ 5 →
    ∃ t y, exec (.laneRejoin lane) s = .next t ∧ t.isFenced 9 lane = false ∧ t.ctr cFltRestores = s.ctr cFltRestores + 1 ∧ t.link? l = some y ∧
      y.lanesUp = x.lanesUp ||| 2 ^ (lane - l)) ∧
  (∀ (s : State) (lane l : Nat) (x : Link), s.isFenced 9 lane = false → s.board.extest = false →
    s.fab.links.find? (fun x => decide (x.1 ≤ lane ∧ lane < x.1 + x.2.width)) = some (l, x) → s.link? l = some x → x.isUp = true → bitOf x.lanesUp (lane - l) = false →
    ∃ t y, exec (.laneRejoin lane) s = .next t ∧ t.link? l = some y ∧ y.lanesUp = x.lanesUp ||| 2 ^ (lane - l) ∧
      y.state = (if y.lanesUp = 2 ^ x.width - 1 then 3 else 4)) ∧
  (∀ (s : State) (lane : Nat), s.isFenced 9 lane = false →
    (∀ x ∈ s.fab.links, x.2.isUp = true → x.1 ≤ lane → lane < x.1 + x.2.width → bitOf x.2.lanesUp (lane - x.1) = true) → exec (.laneRejoin lane) s = .next s) ∧
  (∀ (s : State) (lane l w m : Nat), lane < 256 → s.fabOn = true → s.board.extest = false → s.fld (rFabPortCfg (lane / 8)) fFabPortCfg_ENABLE = 1 →
    w = 8 / 2 ^ s.fld (rFabPortCfg (lane / 8)) fFabPortCfg_SPLIT → l = lane / w * w →
    m = (List.range w).foldl (fun m i => if s.isFenced 9 (l + i) then m else m + 2 ^ i) 0 → m ≠ 0 → (∀ x, s.link? l = some x → x.state < 2 ∨ 4 < x.state) →
    ∃ t y e, exec (.linkTrainingDone lane) s = .next t ∧ t.link? l = some y ∧ y.width = w ∧ y.lanesUp = m ∧ y.state = 2 ∧ y.helloSent = true ∧ y.txSeq = 0 ∧
      y.vc0q = [e] ∧ e.pkt.opcode = 1 ∧ t.mem = s.mem ∧ t.out = s.out) ∧
  (∀ (s : State) (l : Nat) (x : Link), s.link? l = some x → 2 ≤ x.state → x.state ≤ 4 →
    ∃ t y e, exec (.helloTimer l) s = .next t ∧ t.link? l = some y ∧ y.vc0q = x.vc0q ++ [e] ∧ e.pkt.opcode = 1 ∧ e.pkt.dstNode = unrouted ∧
      e.pkt.args = [s.ident, l / 8, l % 8 / x.width, x.width, s.nodeId, s.candIdent] ∧ y.helloSent = true ∧ y.state = x.state) ∧
  (∀ (s : State) (l : Nat) (x : Link), s.link? l = some x → x.state < 2 ∨ 4 < x.state → exec (.helloTimer l) s = .next s) ∧
  (∀ (s : State) (l ident port k width node anchor : Nat) (x : Link), s.link? l = some x → 2 ≤ x.state → x.state ≤ 4 →
    (width = x.width → ∃ t y, exec (.helloArrival l ident port k width node anchor) s = .next t ∧ t.link? l = some y ∧ y.peerIdent = ident ∧ y.peerPort = port ∧
      y.peerId = node ∧ y.helloIn = some s.now ∧ y.helloSeen = true ∧
      y.state = (if x.isUp then x.state else if x.helloSent then (if x.lanesUp = 2 ^ x.width - 1 then 3 else 4) else 2)) ∧
    (width ≠ x.width → s.ctr (cFabPRetries (lanePort l)) + 1 < 2 ^ 48 - 1 → ∃ t, exec (.helloArrival l ident port k width node anchor) s = .next t ∧
      t.ctr (cFabPRetries (lanePort l)) = s.ctr (cFabPRetries (lanePort l)) + 1 ∧ ∃ y, t.link? l = some y ∧ y.state = (if x.lanesUp = 0 then 5 else 0) ∧
        y.helloIn = none)) ∧
  (∀ (s : State) (l since : Nat) (x : Link), s.link? l = some x → x.helloIn = some since →
    (s.now < since + 1000000 → exec (.helloTimeout l) s = .next s) ∧
    (since + 1000000 ≤ s.now → x.state ≠ 0 → x.state ≠ 5 →
      ∃ t y, exec (.helloTimeout l) s = .next t ∧ t.link? l = some y ∧ y.state = (if x.lanesUp = 0 then 5 else 0) ∧ y.helloIn = none)) ∧
  (∀ (s : State) (lane pf : Nat) (w : Word), lane < 256 →
    (fFabLaneEq_OVERRIDE.get w = 1 → ∃ u : State, exec (.fabLaneEqWrite lane w pf) s = .next (u.writeFields pf (rFabLaneEq lane) w) ∧ u.regs = s.regs ∧
      kvGet? lane u.fab.trained = (if s.fld (rFabLaneEq lane) fFabLaneEq_OVERRIDE = 1 then kvGet? lane s.fab.trained else some (s.reg (rFabLaneEq lane)))) ∧
    (fFabLaneEq_OVERRIDE.get w = 0 → exec (.fabLaneEqWrite lane w pf) s =
      .next ((s.writeFields pf (rFabLaneEq lane) (w &&& rsvMask (rFabLaneEq lane) ||| fFabLaneEq_OVERRIDE.put 0 (kvGetD (s.reg (rFabLaneEq lane)) lane s.fab.trained))).modFab
        (fun f => { f with trained := kvDel lane f.trained })))) ∧
  (∀ (s : State), ∃ t, exec .routeWeightTick s = .next t ∧ t.regs = s.regs ∧ t.mem = s.mem ∧ t.out = s.out ∧
    ∀ l x, s.link? l = some x → ∃ y, t.link? l = some y ∧ y.busyNs = 0 ∧ ((s.trim 4 0).freeze = true → y.weight = x.weight) ∧
      (500 ≤ x.weight → x.weight ≤ 2000 → 500 ≤ y.weight ∧ y.weight ≤ 2000))

/-- The network. A lower identity becomes the candidate, a fresh count refreshes the candidate held, and a candidate not refreshed for 5 ms is
dropped (R365). The anchor's tick sends a fresh ELECT and settles IDs and map. An assignment for this node gives it its ID, unless its preset is
another, which sets DUP_PRESET; one for another node is passed on, and a copy of one changes nothing (R366, log entry 56). The anchor merges reports, and any other node passes them on toward it; a map is
taken in with its anchor (R367). A written route entry is in force and marked OVERRIDE (R369). An order whose SEQ precedes one acted on changes
only the list of arrived packets (R363). -/
def Obligations.NetMembership : Prop :=
  (∀ (s : State) (l ident count : Nat) (x : Link), s.link? l = some x → x.isUp = true → ident < s.candIdent →
    exec (.electArrival l ident count) s = .next (s.setCand ident count (some l))) ∧
  (∀ (s t : State) (ident count : Nat) (l : Option Nat), s.fab.colls = [] → ident ≠ 0 → t = s.setCand ident count l →
    t.fab.cand = (if ident = s.ident then 0 else ident) ∧ t.fab.candCnt = count ∧ t.fab.candSeen = s.now ∧
    t.fab.candLane = (if ident = s.ident then none else l) ∧ t.regs = s.regs ∧ t.mem = s.mem ∧ t.out = s.out) ∧
  (∀ (s : State) (l ident count : Nat) (x : Link), s.link? l = some x → x.isUp = true → ident = s.candIdent → s.fab.cand ≠ 0 → s.fab.candCnt < count →
    ∃ t, exec (.electArrival l ident count) s = .next t ∧ t.fab.candCnt = count ∧ t.fab.candSeen = s.now ∧ t.fab.candLane = some l ∧
      t.fab.cand = s.fab.cand) ∧
  (∀ (s : State) (l ident count : Nat) (x : Link), s.link? l = some x → x.isUp = false ∨ s.candIdent < ident → exec (.electArrival l ident count) s = .next s) ∧
  (∀ (s : State), (s.isAnchor = false → exec .anchorElectTick s = .next s) ∧
    (s.isAnchor = true → ∃ u : State, exec .anchorElectTick s = .next u.anchorSettle ∧ u.fab.candCnt = s.fab.candCnt + 1 ∧ u.fab.cand = 0 ∧ u.regs = s.regs)) ∧
  (∀ (s : State), (s.fab.cand ≠ 0 → s.fab.candSeen + 5000000 ≤ s.now → exec .electStale s = .next (s.setCand s.nextCand.1 0 s.nextCand.2)) ∧
    s.nextCand.1 ≤ s.ident ∧ (∀ x ∈ s.fab.links, x.2.isUp = true → x.2.peerIdent ≠ s.fab.cand → s.nextCand.1 ≤ x.2.peerIdent) ∧
    (s.fab.cand = 0 ∨ s.now < s.fab.candSeen + 5000000 → exec .electStale s = .next s)) ∧
  (∀ (s : State) (src seq ident id : Nat), s.orderFresh src seq = true → src = 0 ∨ kvGet? src s.fab.orderRx ≠ some seq →
    (ident = s.ident → id ≠ 0 → id < 0xFFFF → s.fld rFabPreset fFabPreset_PRESET = 0 → s.isAnchor = false →
      ∃ t, exec (.assignArrival src seq ident id) s = .next t ∧ t.nodeId = id) ∧
    (ident = s.ident → id ≠ 0 → id < 0xFFFF → s.fld rFabPreset fFabPreset_PRESET = 1 → id ≠ s.fld rFabPreset fFabPreset_NODE_ID → id ≠ s.nodeId → s.isAnchor = false →
      ∃ t, exec (.assignArrival src seq ident id) s = .next t ∧ t.nodeId = 0 ∧ t.fld rFabStatus fFabStatus_DUP_PRESET = 1) ∧
    (ident ≠ s.ident → ∃ u : State, exec (.assignArrival src seq ident id) s = .next (u.putOrder u.upLinks src seq 3 [ident, id] 18) ∧
      u.fab.links = s.fab.links ∧ u.regs = s.regs)) ∧
  (∀ (s : State) (src seq ident id : Nat), src ≠ 0 → kvGet? src s.fab.orderRx = some seq →
    ∃ t, exec (.assignArrival src seq ident id) s = .next t ∧ t.regs = s.regs ∧ t.fab.links = s.fab.links ∧ t.fab.handoff = s.fab.handoff ∧ t.mem = s.mem) ∧
  (∀ (s : State) (node ident : Nat) (links : List (Nat × Nat × Nat)),
    (s.isAnchor = true → ident ≠ s.ident → ∃ u : State, exec (.topologyReportArrival node ident links) s = .next u.anchorSettle ∧
      u.fab.reports = kvPut ident { ident := node, links := links } s.fab.reports) ∧
    (s.isAnchor = false → s.reachable s.anchorNode = true →
      exec (.topologyReportArrival node ident links) s = .next (s.sendParts (.ok s.anchorNode) 4 [0, ident, node] (linkNums links))) ∧
    (∀ l, s.isAnchor = false → s.reachable s.anchorNode = false → s.fab.candLane = some l → l ∈ s.upLinks →
      exec (.topologyReportArrival node ident links) s = .next (s.sendParts (.error [l]) 4 [0, ident, node] (linkNums links))) ∧
    (s.isAnchor = false → s.reachable s.anchorNode = false → (∀ l, s.fab.candLane = some l → l ∉ s.upLinks) →
      exec (.topologyReportArrival node ident links) s = .next s)) ∧
  (∀ (s : State) (src seq anchor : Nat) (topo : List (Nat × Nat × List (Nat × Nat × Nat))), s.orderFresh src seq = true → anchor < 65536 →
    s.fab.colls = [] → s.ctr cFabRouteChanges + 1 < 2 ^ 48 - 1 →
    ∃ t, exec (.topoArrival src seq anchor topo) s = .next t ∧ t.fab.anchorId = anchor ∧ t.fld rFabStatus fFabStatus_ANCHOR_ID = anchor ∧
      t.fab.topo = topo.foldl (fun (m : KV Member) x => if x.1 = 0 ∨ x.1 = 0xFFFF then m else kvPut x.1 { ident := x.2.1, links := x.2.2 } m) [] ∧
      t.ctr cFabRouteChanges = s.ctr cFabRouteChanges + 1) ∧
  (∀ (s : State) (c : Instr) (src seq ident id anchor : Nat) (topo : List (Nat × Nat × List (Nat × Nat × Nat))),
    c ∈ [Instr.assignArrival src seq ident id, .topoArrival src seq anchor topo] → s.orderFresh src seq = false →
    exec c s = .next (s.modFab (fun x => { x with arrived := x.arrived.filter (fun y => !(y.vc == 0 && y.srcNode == src && y.seq == seq)) }))) ∧
  (∀ (s : State) (w : Word) (pf : Nat), ∃ t r, exec (.fabRtEntryWrite w pf) s = .next t ∧ kvGet? (s.fld rFabRtSel fFabRtSel_DEST) t.fab.routes = some r ∧
    r.override = true ∧ r.egress = fFabRtEntry_EGRESS.get w ∧ r.dist = min 8 (fFabRtEntry_DIST.get w) ∧ r.links = (List.range (min 4 (fFabRtEntry_COUNT.get w))).map (fun i => (w.toNat / 2 ^ (8 * i)) % 256))

/-! ### The fabric: packets, limits and collectives (spec/14, spec/15) -/

/-- Packets. A packet in transit goes on with one more hop by the link its route and the load choose, an order by the first link of its route; a
ninth hop and a packet without a route are counted as discarded (R357, R370, R372). The oldest packet handed over enters the egress (R379, R383). A
gate entry that has lasted its duration gives way to the next (R391). A packet for this node waits for its endpoint, and a response of an old reset
generation is discarded and counted (R108, R394). Once the backlog is below LOW_KIB the nodes quenched are released (R394). A REFUSE, or the end of
the timeout, ends the request it belongs to (R368, R371). -/
def Obligations.Traffic : Prop :=
  (∀ (s : State) (lane : Nat) (k : Packet), k.dstNode = s.nodeId → exec (.transitForward lane k) s = .next s) ∧
  (∀ (s : State) (lane l : Nat) (k n : Packet) (x : Link), k.dstNode ≠ s.nodeId → k.hops < 7 → n = { k with hops := k.hops + 1 } → s.link? l = some x →
    (k.vc ≠ 0 → s.pickLink n = some l → ∃ t y e, exec (.transitForward lane k) s = .next t ∧ t.link? l = some y ∧ y.transit = x.transit ++ [e] ∧ e.pkt = n ∧
      e.level = k.hops + 1 ∧ t.out = s.out ∧ t.mem = s.mem) ∧
    (k.vc = 0 → (s.routeLanes k.dstNode).head? = some l → ∃ t y e, exec (.transitForward lane k) s = .next t ∧ t.link? l = some y ∧ y.vc0q = x.vc0q ++ [e] ∧
      e.pkt = n ∧ t.out = s.out ∧ t.mem = s.mem)) ∧
  (∀ (s : State) (lane : Nat) (k : Packet), k.dstNode ≠ s.nodeId → s.ctr cFabDrops + 1 < 2 ^ 48 - 1 →
    7 ≤ k.hops ∨ s.routeLanes k.dstNode = [] →
    ∃ t, exec (.transitForward lane k) s = .next t ∧ t.ctr cFabDrops = s.ctr cFabDrops + 1 ∧ t.mem = s.mem) ∧
  (∀ (s : State), s.fab.handoff = [] → exec .egressPacketHandoff s = .next s) ∧
  (∀ (s : State) (k : Packet) (ks : List Packet) (l : Nat) (x : Link), s.fab.handoff = k :: ks →
    (k.vc = 0 → (s.routeLanes k.dstNode).head? = some l → s.link? l = some x →
      ∃ t y e, exec .egressPacketHandoff s = .next t ∧ t.fab.handoff = ks ∧ t.link? l = some y ∧ y.vc0q = x.vc0q ++ [e] ∧ e.pkt = k ∧ t.mem = s.mem) ∧
    (k.vc ≠ 0 → k.length ≤ 4096 → s.meterOf k.srcPart 0 = none →
      ∃ t e, exec .egressPacketHandoff s = .next t ∧ t.fab.handoff = ks ∧ t.fab.held = s.fab.held ++ [e] ∧ e.pkt = k ∧
        e.cls = s.streamClass k.srcPart k.stream ∧ t.mem = s.mem) ∧
    (k.vc ≠ 0 → ∃ u : State, exec .egressPacketHandoff s = .next ((fragments k).foldl State.meterPacket u) ∧ u.fab.handoff = ks ∧ u.mem = s.mem)) ∧
  (∀ (s : State) (port : Nat) (g : GateState), kvGet? port s.fab.gates = some g →
    (g.entry + 1 < g.list.entries.length → g.began + (g.list.entries.getD g.entry (0, 0)).2 ≤ s.now →
      ∃ t, exec (.gateEntryAdvance port) s = .next t ∧
        kvGet? port t.fab.gates = some { g with entry := g.entry + 1, began := g.began + (g.list.entries.getD g.entry (0, 0)).2 } ∧ t.mem = s.mem ∧ t.regs = s.regs) ∧
    (g.list.entries.length ≤ g.entry + 1 ∨ s.now < g.began + (g.list.entries.getD g.entry (0, 0)).2 → exec (.gateEntryAdvance port) s = .next s)) ∧
  (∀ (s : State) (k : Packet), k.dstNode = s.nodeId → k.vc = 6 → s.dataRoom k.opcode (k.args.headD 0) = false → exec (.fabricPacketArrival k) s = .next s) ∧
  (∀ (s : State) (k : Packet) (l : Nat), k.dstNode = s.nodeId → s.fab.rx.find? (fun x => x.2 == k) = some (l, k) → k.frags ≤ 1 →
    (k.vc = 6 → s.dataRoom k.opcode (k.args.headD 0) = true) →
    (k.ptype ≠ 1 → k.ptype ≠ 2 → k.vc = 0 ∨ s.fld rShpQuenchCfg fShpQuenchCfg_HIGH_KIB = 0 →
      ∃ t, exec (.fabricPacketArrival k) s = .next t ∧ t.fab.arrived = s.fab.arrived ++ [k] ∧ t.fab.rx = s.fab.rx.erase (l, k) ∧ t.mem = s.mem ∧ t.out = s.out) ∧
    (k.ptype = 1 ∨ k.ptype = 2 → k.vc ≠ 0 → k.resetGen ≠ s.resetGen k.dstPart → s.configured k.dstPart = true →
      s.ctr (cPrtLateDiscards k.dstPart) + 1 < 2 ^ 48 - 1 →
      ∃ t, exec (.fabricPacketArrival k) s = .next t ∧ t.fab.arrived = s.fab.arrived ∧ t.ctr (cPrtLateDiscards k.dstPart) = s.ctr (cPrtLateDiscards k.dstPart) + 1)) ∧
  (∀ (s : State) (p n since lo : Nat), lo = min (s.fld rShpQuenchCfg fShpQuenchCfg_LOW_KIB) (s.fld rShpQuenchCfg fShpQuenchCfg_HIGH_KIB) →
    ((s.part p).quenched = [(n, since)] → s.backlog p < lo * 1024 → ∃ t k, exec (.releaseSend p) s = .next t ∧ (t.part p).quenched = [] ∧
      Handed s t k ∧ k.vc = 0 ∧ k.opcode = 0x13 ∧ k.dstNode = n) ∧
    (lo * 1024 ≤ s.backlog p → exec (.releaseSend p) s = .next s)) ∧
  (∀ (s : State) (k : Packet) (o : OutReq) (rid : Nat) (r : Rec), k.ptype = 2 → k.resetGen = s.resetGen k.dstPart → kvGet? k.seq s.fab.out = some o →
    o.kind = opAttest → o.rid = some rid → kvGet? rid s.recs = some r → r.fab = none → s.pstate r.part ≠ stResetting →
    ∃ t, exec (.fabricRefuseArrival k) s = .next t ∧ Completes s t r.part r.q r.cmd.cid (refuseStatus k) 0 0 0) ∧
  (∀ (s : State) (k : Packet), k.ptype ≠ 2 → exec (.fabricRefuseArrival k) s = .next (s.taken k)) ∧
  (∀ (s : State) (k : Packet), k.ptype = 2 → k.resetGen = s.resetGen k.dstPart →
    exec (.fabricRefuseArrival k) s = .next ((s.taken k).failRequest k.seq (refuseStatus k))) ∧
  (∀ (k : Packet), (k.args.headD scRemoteError = scUnreachable → refuseStatus k = scUnreachable) ∧ (k.args.headD scRemoteError ≠ scUnreachable → refuseStatus k = scRemoteError)) ∧
  (∀ (s : State) (seq lim rid : Nat) (o : OutReq) (r : Rec), kvGet? seq s.fab.out = some o →
    lim = max 100 (min 65535 (s.fld rFabCfg fFabCfg_E2E_TIMEOUT_US)) * 1000 →
    (o.timed = true → o.sent + lim ≤ s.now → o.kind = opAttest → o.rid = some rid → kvGet? rid s.recs = some r → r.fab = none → r.part < 64 →
      s.pstate r.part ≠ stResetting →
      ∃ t, exec (.e2eTimeout seq) s = .next t ∧ Completes s t r.part r.q r.cmd.cid (if s.reachable o.node then scRemoteError else scUnreachable) 0 0 0) ∧
    (o.timed = true → o.sent + lim ≤ s.now →
      exec (.e2eTimeout seq) s = .next ((s.bump cFabE2eTimeouts 1).failRequest seq (if s.reachable o.node then scRemoteError else scUnreachable))) ∧
    (o.timed = false ∨ s.now < o.sent + lim → exec (.e2eTimeout seq) s = .next s))

/-- A QUENCH puts a limit in force for its source on each VC of its mask but VC0, for 1 to 10,000 µs (R362); a RELEASE ends every limit of its
sender and no other; packets not begun that it limits are held back; a limit whose time has passed ends, and no other with it. An order whose SEQ precedes one acted on changes only the list of
arrived packets (R363). -/
def Obligations.QuenchLimits : Prop :=
  (∀ (s : State) (src seq part mask dur rate : Nat), s.orderFresh src seq = true → s.fab.quench.length + 7 ≤ 1024 → s.ctr cFabQuenchRcvd + 1 < 2 ^ 48 - 1 →
    ∃ t, exec (.quenchArrival src seq part mask dur rate) s = .next t ∧ t.ctr cFabQuenchRcvd = s.ctr cFabQuenchRcvd + 1 ∧ t.mem = s.mem ∧ t.out = s.out ∧
      (∀ v, 1 ≤ v → v ≤ 6 → bitOf mask v = true → ∃ q ∈ t.fab.quench, q.sender = src ∧ q.part = part ∧ q.vc = v ∧ q.rate = rate ∧
        q.expiry = s.now + max 1 (min 10000 dur) * 1000) ∧
      (∀ q ∈ t.fab.quench, q ∈ s.fab.quench ∨ (q.sender = src ∧ q.part = part ∧ 1 ≤ q.vc ∧ bitOf mask q.vc = true)) ∧
      (∀ x ∈ t.fab.links, ∀ e ∈ x.2.localq, t.quenched e.pkt = false)) ∧
  (∀ (s : State) (src seq : Nat), s.orderFresh src seq = true →
    ∃ t, exec (.releaseArrival src seq) s = .next t ∧ t.fab.quench = s.fab.quench.filter (fun q => q.sender != src) ∧ t.fab.links = s.fab.links ∧
      t.mem = s.mem ∧ t.out = s.out ∧ t.regs = s.regs) ∧
  (∀ (s : State) (n part vc : Nat), ∃ t, exec (.quenchExpiry n part vc) s = .next t ∧
    t.fab.quench = s.fab.quench.filter (fun q => !(q.sender == n && q.part == part && q.vc == vc && decide (q.expiry ≤ s.now))) ∧ t.fab.links = s.fab.links ∧
      t.mem = s.mem ∧ t.out = s.out ∧ t.regs = s.regs) ∧
  (∀ (s : State) (c : Instr) (src seq part mask dur rate : Nat), c ∈ [Instr.quenchArrival src seq part mask dur rate, .releaseArrival src seq] →
    s.orderFresh src seq = false →
    exec c s = .next (s.modFab (fun x => { x with arrived := x.arrived.filter (fun y => !(y.vc == 0 && y.srcNode == src && y.seq == seq)) })))

/-- Collectives. A command whose member of the tree has no children goes on at once: at the anchor a barrier, and the issue of a broadcast, complete
with COUNT 1; elsewhere the report, the data or the request to reset rises to the parent; a receiver waits for its data; a snapshot begins where the
latch is free, and otherwise fails with REMOTE_ERROR (R374 to R376). A failed check completes with its status, COLL_ID 0 with BAD_COMMAND; while 16
are active here a command waits. A report from a child is counted, the
anchor's result completes the command, a failure, an OP that disagrees and a timeout end it (R377). -/
def Obligations.Collectives : Prop :=
  (∀ (s : State) (c : Instr) (op p q cid rid : Nat) (data : List Byte) (r : Rec), (op, c) ∈ [(0, Instr.collectiveBarrier p q cid), (1, .collectiveBroadcastSend p q cid data),
    (2, .collectiveBroadcastReceive p q cid), (3, .collectiveReset p q cid), (4, .collectiveSnapshot p q cid)] → MayRun s p q cid 0x06 rid r →
    r.cmd.param 0 1 = op →
    (r.cmd.param 4 4 = 0 → s.collectiveCheck p r.cmd = some scBadCommand) ∧
    (∀ st, (s.named r).collectiveCheck p r.cmd = some st → ∃ t, exec c s = .next t ∧ Completes s t p q cid st 0 0 0) ∧
    ((s.named r).collectiveCheck p r.cmd = none → 16 ≤ (s.fab.colls.filter (fun c => c.2.rid.isSome)).length → exec c s = .next s)) ∧
  (∀ (s : State) (p q cid rid id : Nat) (r : Rec), MayRun s p q cid 0x06 rid r → id = r.cmd.param 4 4 → id ≠ 0 → s.isMember = true →
    (s.fab.colls.filter (fun c => c.2.rid.isSome)).length < 16 → s.coll? id = none → s.fab.kids = [] →
    (r.cmd.param 0 1 = 0 → s.fab.parent = 0 → ∃ t, exec (.collectiveBarrier p q cid) s = .next t ∧ Completes s t p q cid scDone 1 s.fab.topo.length 0) ∧
    (r.cmd.param 0 1 = 0 → s.fab.parent ≠ 0 → ∃ t k, exec (.collectiveBarrier p q cid) s = .next t ∧ Begun t rid r ∧ Handed s t k ∧
      k.vc = 6 ∧ k.opcode = ckDone ∧ k.dstNode = s.fab.parent ∧ k.args = [id, 0, 1, 0, 0]) ∧
    (r.cmd.param 0 1 = 1 → p < 64 → s.fab.parent = 0 → 1 ≤ r.cmd.param 24 4 → r.cmd.param 24 4 ≤ 65536 → (s.named r).addrOk p (r.cmd.param 16 8) (r.cmd.param 24 4) = true →
      ∀ data, ∃ t, exec (.collectiveBroadcastSend p q cid data) s = .next t ∧ Completes s t p q cid scDone 1 s.fab.topo.length 0) ∧
    (r.cmd.param 0 1 = 1 → s.fab.parent ≠ 0 → 1 ≤ r.cmd.param 24 4 → r.cmd.param 24 4 ≤ 65536 → (s.named r).addrOk p (r.cmd.param 16 8) (r.cmd.param 24 4) = true →
      ∀ data bs v, s.readInput p r.flow (r.cmd.param 16 8) (r.cmd.param 24 4) data = (bs, v) →
      ∃ t k d, exec (.collectiveBroadcastSend p q cid data) s = .next t ∧ Begun t rid r ∧
        (if s.fab.parent = s.nodeId ∧ s.nodeId ≠ 0 then k ∈ t.fab.arrived ∧ d ∈ t.fab.arrived else t.fab.handoff = s.fab.handoff ++ [k, d]) ∧
        k.vc = 6 ∧ k.opcode = ckDataUp ∧
        k.dstNode = s.fab.parent ∧ k.data = bs ∧ d.opcode = ckDone) ∧
    (r.cmd.param 0 1 = 2 → 1 ≤ r.cmd.param 24 4 → r.cmd.param 24 4 ≤ 65536 → (s.named r).resultOk p r.cmd.resultAddr (r.cmd.param 24 4) = true →
      ∃ t c, exec (.collectiveBroadcastReceive p q cid) s = .next t ∧ Begun t rid r ∧ t.coll? id = some c ∧ c.op = 2 ∧ c.rid = some rid ∧ c.done = false ∧
        c.members = s.fab.topo.length ∧ c.started = s.now ∧ t.out = s.out ∧ t.mem = s.mem) ∧
    (r.cmd.param 0 1 = 3 → r.cmd.param 8 8 ≠ 0 → s.fab.parent ≠ 0 → ∃ t k, exec (.collectiveReset p q cid) s = .next t ∧ Begun t rid r ∧
      Handed s t k ∧ k.vc = 6 ∧ k.opcode = ckAsk ∧ k.dstNode = s.fab.parent ∧ k.args = [id, 3, 0, 0, r.cmd.param 8 8]) ∧
    (r.cmd.param 0 1 = 3 → r.cmd.param 8 8 ≠ 0 → s.fab.parent = 0 → ∃ u : State, exec (.collectiveReset p q cid) s = .next (u.startResets id (r.cmd.param 8 8)) ∧
      Begun u rid r ∧ u.parts = s.parts) ∧
    (r.cmd.param 0 1 = 4 → s.snapFree = true → ∃ u : State, exec (.collectiveSnapshot p q cid) s = .next (u.snapBegin id) ∧ Begun u rid r ∧ u.regs = s.regs ∧
      ∃ c, u.coll? id = some c ∧ c.op = 4 ∧ c.rid = some rid) ∧
    (r.cmd.param 0 1 = 4 → p < 64 → s.snapFree = false → ∃ t, exec (.collectiveSnapshot p q cid) s = .next t ∧
      Completes s t p q cid scRemoteError 0 s.fab.topo.length 0)) ∧
  (∀ (s : State) (src id op count lost mask rid : Nat) (data : List Byte) (c : Coll) (r : Rec), s.coll? id = some c →
    (opsAgree c.op op = true → c.done = false → ∃ t, exec (.collectiveMessageArrival src ckDone id op count lost mask data) s = .next t ∧
      t.coll? id = some { c with reports := c.reports ++ [src], count := c.count + count, lost := c.lost + lost } ∧ t.out = s.out ∧ t.mem = s.mem) ∧
    (c.rid = some rid → kvGet? rid s.recs = some r → r.fab = none → r.part < 64 → s.pstate r.part ≠ stResetting →
      (opsAgree c.op op = true → c.op ≤ 3 → (c.op = 2 → PlainResult s r) → ∃ t, exec (.collectiveMessageArrival src ckResult id op count lost mask data) s = .next t ∧ t.coll? id = none ∧
        Completes s t r.part r.q r.cmd.cid scDone count c.members 0) ∧
      (∀ st, st ≠ scDone → ∃ t, exec (.collectiveMessageArrival src ckFail id op st lost mask data) s = .next t ∧ t.coll? id = none ∧
        Completes s t r.part r.q r.cmd.cid st 0 c.members 0) ∧
      (opsAgree c.op op = false → ∃ t, exec (.collectiveMessageArrival src ckDone id op count lost mask data) s = .next t ∧ t.coll? id = none ∧
        Completes s t r.part r.q r.cmd.cid scRemoteError 0 c.members 0) ∧
      (c.started + max 1 (min 60000 (s.fld rFabCfg fFabCfg_COLL_TIMEOUT_MS)) * 1000000 ≤ s.now →
        ∃ t, exec (.collectiveTimeout id) s = .next t ∧ t.coll? id = none ∧ Completes s t r.part r.q r.cmd.cid scRemoteError 0 c.members 0)) ∧
    (s.now < c.started + max 1 (min 60000 (s.fld rFabCfg fFabCfg_COLL_TIMEOUT_MS)) * 1000000 → exec (.collectiveTimeout id) s = .next s))

/-! ### Faults, events and counters (spec/16) -/

/-- Detection and fencing. A stall or a parity error fences a unit of kinds 0 to 7 that is not fenced yet and counts the fence; of a context pool it
loses the pool (R102, R398). ECC: a corrected error is a CORRECTED event; the first uncorrectable error in data restarts the phase, a second in the
same phase ends the request with ABORTED_FENCE (R399); one that a bank engine meets damages the sketch's bytes and leaves its request as it is
(R188); one in a memory channel damages its bytes (R402). A lost Tier B channel is fenced with every
byte damaged; an error in MSD firmware or a lost die link stops the node, and every open request ends with INTERNAL_ERROR (R406, R407). -/
def Obligations.Fences : Prop :=
  (∀ (s : State) (c : Instr) (src kind unit : Nat), (src, c) ∈ [(0, Instr.stallDetectorTimeout kind unit), (1, .parityError kind unit)] → kind ≤ 7 →
    unitOk kind unit = true →
    (s.isFenced kind unit = false → exec c s = .next (s.fenceUnit src kind unit) ∧ (s.fenceUnit src kind unit).isFenced kind unit = true ∧
      ((s.fenceUnit src kind unit).funit kind unit).fences = (s.funit kind unit).fences + 1) ∧
    (s.isFenced kind unit = true → exec c s = .next s)) ∧
  (∀ (s : State) (c : Instr) (src kind unit : Nat), (src, c) ∈ [(0, Instr.stallDetectorTimeout kind unit), (1, .parityError kind unit)] →
    (kind = 11 → unit < 2 → exec c s = .next (s.losePool unit src)) ∧ (7 < kind → kind ≠ 11 → exec c s = .next s)) ∧
  (∀ (s : State) (kind unit rid addr : Nat), unitOk kind unit = true → kind ≠ 10 → s.flt.recent.any (fun e => e.merges 0 2 kind unit s.now) = false →
    s.flt.ring0.length < 1024 → s.ctr cFltCorrected + 1 < 2 ^ 48 - 1 →
    ∃ t e, exec (.eccError kind unit 0 rid addr) s = .next t ∧ t.flt.ring0 = s.flt.ring0 ++ [e] ∧ e.cls = 0 ∧ e.source = 2 ∧ e.kind = kind ∧ e.unit = unit ∧
      e.action = 0 ∧ e.detail = addr ∧ e.time = s.now ∧ e.count = 1 ∧ t.ctr cFltCorrected = s.ctr cFltCorrected + 1 ∧ t.mem = s.mem ∧ t.recs = s.recs) ∧
  (∀ (s : State) (unit rid addr : Nat), unitOk 6 unit = true →
    ∃ t, exec (.eccError 6 unit 1 rid addr) s = .next t ∧ t.mem.isDamaged addr 1 = true ∧ SameMem s t ∧ t.recs = s.recs ∧ t.isFenced 6 unit = s.isFenced 6 unit) ∧
  (∀ (s : State) (kind unit rid addr : Nat) (r : Rec), unitOk kind unit = true → kind ≤ 5 → kvGet? rid s.recs = some r →
    (r.eccAt ≠ some (s.phaseMark rid) → ∃ t, exec (.eccError kind unit 1 rid addr) s = .next t ∧
      kvGet? rid t.recs = some { r with eccAt := some (s.phaseMark rid) } ∧ t.mem = s.mem ∧ t.isFenced kind unit = s.isFenced kind unit) ∧
    (r.eccAt = some (s.phaseMark rid) → kvGet? rid s.queries = none → r.fab = none → r.long = none → r.part < 64 → s.pstate r.part ≠ stResetting →
      ∃ t, exec (.eccError kind unit 1 rid addr) s = .next t ∧ Completes s t r.part r.q r.cmd.cid scFence 0 0 0)) ∧
  (∀ (s : State) (kind unit rid addr : Nat), unitOk kind unit = true → kind = 8 ∨ (kind = 7 ∧ (kvGetD [] unit s.flt.badReads).length < 8) →
    ∃ t, exec (.eccError kind unit 1 rid addr) s = .next t ∧ t.mem.isDamaged addr 1 = true ∧ SameMem s t ∧ t.recs = s.recs) ∧
  (∀ (s : State) (c : Nat), c < 256 → s.isFenced 7 c = false →
    exec (.tierAChannelFence c) s = .next (s.fenceUnit 7 7 c) ∧ (s.fenceUnit 7 7 c).isFenced 7 c = true) ∧
  (∀ (s : State) (c : Nat), s.isFenced 7 c = true → exec (.tierAChannelFence c) s = .next s) ∧
  (∀ (s : State) (c : Nat), c < 16 → s.isFenced 8 c = false →
    ∃ t, exec (.tierBChannelLost c) s = .next t ∧ t.isFenced 8 c = true ∧ t.mem.lostB = s.mem.lostB ++ [c] ∧ SameMem s t ∧ t.recs = s.recs ∧
      (t.funit 8 c).fences = (s.funit 8 c).fences + 1) ∧
  (∀ (s : State) (c : Nat), 16 ≤ c ∨ s.isFenced 8 c = true → exec (.tierBChannelLost c) s = .next s) ∧
  (∀ (s : State) (c : Instr) (l rid addr : Nat), c ∈ [Instr.dieLinkLost l, .eccError 13 0 2 rid addr] →
    (s.flt.stopped = true → exec c s = .next s) ∧
    (s.flt.stopped = false → ∃ t, exec c s = .next t ∧ t.flt.stopped = true ∧ t.fld rFltStatus fFltStatus_FATAL = 1 ∧
      ∀ i r, s.recs = [(i, r)] → kvGet? i s.queries = none → r.fab = none → r.long = none → r.part < 64 → s.pstate r.part ≠ stResetting →
        Completes s t r.part r.q r.cmd.cid scInternal 0 0 0))

/-- FLT_UNIT_CTL (R398, R412). DECLARE fences the selected unit; INJECT does so only with INJECT_EN; RESTORE of a fenced unit that is not locked out
starts its self test, and its end returns the unit to service or leaves it fenced, a second failure within 24 hours locking it out. A selection that
the operation does not take is reported as failed and fences nothing; while a self test runs only OP, KIND and UNIT are written (R17), and once the node has stopped nothing is. -/
def Obligations.Units : Prop :=
  (∀ (s : State) (c : Instr) (src kind unit : Nat), (src, c) ∈ [(5, Instr.unitDeclare kind unit), (6, .unitInject kind unit)] → s.unitCtlFree = true →
    (kind ≤ 7 → unitOk kind unit = true → s.isFenced kind unit = false → src = 5 ∨ s.fld rFltCfg fFltCfg_INJECT_EN = 1 →
      ∃ t, exec c s = .next t ∧ t.isFenced kind unit = true ∧ (t.funit kind unit).opFailed = false ∧
        (t.funit kind unit).fences = (s.funit kind unit).fences + 1) ∧
    (kind < 16 → unit < 4096 → (kind = 8 ∨ 13 ≤ kind ∨ unitOk kind unit = false) ∨ (src = 6 ∧ s.fld rFltCfg fFltCfg_INJECT_EN = 0) →
      ∃ t, exec c s = .next t ∧ (t.funit kind unit).opFailed = true ∧ t.isFenced kind unit = s.isFenced kind unit ∧ t.mem = s.mem ∧ t.recs = s.recs)) ∧
  (∀ (s : State) (kind unit : Nat), s.unitCtlFree = true → kind < 16 → unit < 4096 →
    (kind ≤ 7 → unitOk kind unit = true → s.isFenced kind unit = true → (s.funit kind unit).locked = false →
      ∃ t, exec (.unitRestore kind unit) s = .next t ∧ (t.funit kind unit).restoring = true ∧ t.isFenced kind unit = true ∧
        t.fld rFltUnitCtl fFltUnitCtl_GO = 1 ∧ t.mem = s.mem ∧ t.out = s.out) ∧
    (7 < kind ∨ s.isFenced kind unit = false ∨ (s.funit kind unit).locked = true →
      ∃ t, exec (.unitRestore kind unit) s = .next t ∧ (t.funit kind unit).opFailed = true ∧ t.isFenced kind unit = s.isFenced kind unit ∧
        (t.funit kind unit).restoring = (s.funit kind unit).restoring)) ∧
  (∀ (s : State) (op : Nat) (c : Instr) (kind unit : Nat), (op, c) ∈ [(1, Instr.unitDeclare kind unit), (3, .unitInject kind unit), (2, .unitRestore kind unit)] →
    (s.flt.stopped = true → exec c s = .next s) ∧
    (s.flt.stopped = false → s.fld rFltUnitCtl fFltUnitCtl_GO ≠ 0 → kind < 16 → unit < 4096 → ∃ t, exec c s = .next t ∧ t.fld rFltUnitCtl fFltUnitCtl_OP = op ∧
      t.fld rFltUnitCtl fFltUnitCtl_KIND = kind ∧ t.fld rFltUnitCtl fFltUnitCtl_UNIT = unit ∧ t.fld rFltUnitCtl fFltUnitCtl_GO = 1 ∧
      t.flt = s.flt ∧ t.mem = s.mem ∧ t.out = s.out ∧ SameRegsBut s t [rFltUnitCtl])) ∧
  (∀ (s : State) (kind unit : Nat), (s.funit kind unit).restoring = true →
    (s.ctr cFltRestores + 1 < 2 ^ 48 - 1 → ∃ u : State, exec (.unitRestoreDone kind unit true) s = .next (u.restored kind unit) ∧ u.isFenced kind unit = false ∧
      (u.funit kind unit).restoring = false ∧ u.fld rFltUnitCtl fFltUnitCtl_GO = 0 ∧ u.ctr cFltRestores = s.ctr cFltRestores + 1 ∧ SameMem s u) ∧
    (∃ t, exec (.unitRestoreDone kind unit false) s = .next t ∧ t.isFenced kind unit = s.isFenced kind unit ∧ (t.funit kind unit).opFailed = true ∧
      (t.funit kind unit).restoring = false ∧ (t.funit kind unit).failAt = some s.now ∧ t.fld rFltUnitCtl fFltUnitCtl_GO = 0 ∧
      (t.funit kind unit).locked = ((s.funit kind unit).locked || (match (s.funit kind unit).failAt with
        | some x => decide (s.now < x + 86400000000000)
        | none => false)))) ∧
  (∀ (s : State) (kind unit : Nat) (pass : Bool), (s.funit kind unit).restoring = false → exec (.unitRestoreDone kind unit pass) s = .next s)

/-- The event registers, counters and the drogue's registers. A pop drops the oldest unread record of its function's ring and of no other (R411).
Clearing one counter sets it to zero and no other, and reports how many of its block stay saturated; clearing a block sets all of its counters and
its saturation register to zero and no counter of another block (R408). A trigger with the drogue armed latches both copies and disarms it; arming
discards the copies; a function chooses what it reads (R413, R414). A node that has stopped takes none of these (R407). -/
def Obligations.EventsCounters : Prop :=
  (∀ (s : State) (pf : Nat), s.flt.stopped = false →
    (pf = 0 → ∃ t, exec (.fltEvtPop pf) s = .next t ∧ t.flt.ring0 = s.flt.ring0.drop 1 ∧ t.flt.ring1 = s.flt.ring1 ∧ t.regs = s.regs ∧ SameCtrs s t) ∧
    (pf ≠ 0 → ∃ t, exec (.fltEvtPop pf) s = .next t ∧ t.flt.ring1 = s.flt.ring1.drop 1 ∧ t.flt.ring0 = s.flt.ring0 ∧ t.regs = s.regs ∧ SameCtrs s t)) ∧
  (∀ (s : State) (b o : Nat), s.flt.stopped = false → b < 27 → blockIndex (blockBase b + o) = some b → isCounter (blockBase b + o) = true →
    ∃ t, exec (.ctrClearOne b o) s = .next t ∧ t.ctr (s.ctrKey (blockBase b + o)) = 0 ∧ (∀ x, x ≠ s.ctrKey (blockBase b + o) → t.ctr x = s.ctr x) ∧
      t.fld (rFltSat b) fFltSat_SATURATED = min 0xFFFF (t.satNow b) ∧ SameRegsBut s t [rFltSat b] ∧ t.mem = s.mem ∧ t.out = s.out) ∧
  (∀ (s : State) (b o : Nat), s.flt.stopped = false → 27 ≤ b ∨ isCounter (blockBase b + o) = false → exec (.ctrClearOne b o) s = .next s) ∧
  (∀ (s : State) (b : Nat), s.flt.stopped = false → b < 27 →
    ∃ t, exec (.ctrClearAll b) s = .next t ∧ (∀ o, blockIndex (o % 2 ^ 32) = some b → t.ctr o = 0) ∧ (∀ o, blockIndex (o % 2 ^ 32) ≠ some b → t.ctr o = s.ctr o) ∧
      t.reg (rFltSat b) = 0 ∧ SameRegsBut s t [rFltSat b] ∧ t.mem = s.mem ∧ t.out = s.out) ∧
  (∀ (s : State), s.flt.stopped = false → bitOf (s.reg rSnpSrc).toNat 0 = true → s.fld rSnpCtl fSnpCtl_ARMED = 1 →
    ∃ t c, exec .snpTrigger s = .next t ∧ t.flt.snap = some c ∧ c.copy0 = s.viewAll 0 ∧ c.copy1 = s.viewAll 1 ∧ t.fld rSnpCtl fSnpCtl_ARMED = 0 ∧
      t.fld rSnpInfo fSnpInfo_HELD = 1 ∧ t.fld rSnpInfo fSnpInfo_SOURCE = 0 ∧ t.reg rSnpStatus = s.time ∧ t.mem = s.mem ∧ t.out = s.out) ∧
  (∀ (s : State), s.flt.stopped = false → bitOf (s.reg rSnpSrc).toNat 0 = false → exec .snpTrigger s = .next s) ∧
  (∀ (s : State), s.flt.stopped = false → ∃ t, exec .snpArm s = .next t ∧ t.flt.snap = none ∧ t.fld rSnpCtl fSnpCtl_ARMED = 1 ∧ t.reg rSnpStatus = 0 ∧
    t.reg rSnpInfo = 0 ∧ SameRegsBut s t [rSnpCtl, rSnpStatus, rSnpInfo] ∧ t.mem = s.mem ∧ t.out = s.out) ∧
  (∀ (s : State) (pf : Nat) (v : Bool), s.flt.stopped = false → ∃ t, exec (.snpViewWrite pf v) s = .next t ∧ t.fldPf pf rSnpCtl fSnpCtl_VIEW = v.toNat ∧
    t.flt = s.flt ∧ t.mem = s.mem ∧ t.out = s.out) ∧
  (∀ (s : State) (c : Instr) (pf b o : Nat) (v : Bool), c ∈ [Instr.fltEvtPop pf, .ctrClearOne b o, .ctrClearAll b, .snpTrigger, .snpArm, .snpViewWrite pf v] →
    s.flt.stopped = true → exec c s = .next s)

/-! ### Trim loops, telemetry and the logbook (spec/17) -/

/-- The trim loops. The voltage tick reports rates and package power and keeps every domain's output within its limits (R418, R420), and enters the
backstop where nothing is left to lower (R46). The equalisation tick reports the lane's eye, and acts on no lane that is down or frozen (R417, R421).
The refresh tick sets the interval in force from the stack's activity and its calibrated temperature (R422). The sketch evaluation is made once for each
block of 4,096 inserts, and waits while an image load holds allocations back (R424); the placement tick reports the load ratio of a partition's table and starts no drift within its target (R425); training
reports a channel's eye widths (R428). -/
def Obligations.Trim : Prop :=
  (∀ (s : State) (rates powers slacks : List Nat) (w1 w10 : Nat), w1 < 2048 → w10 < 2048 → ∃ t, exec (.voltageTrimTick rates powers w1 w10 slacks) s = .next t ∧
    t.fld rNodePowerStatus fNodePowerStatus_PKG_W_1MS = w1 ∧ t.fld rNodePowerStatus fNodePowerStatus_PKG_W_10MS = w10 ∧ t.mem = s.mem ∧ t.recs = s.recs ∧
    ∀ d, d < 14 → (t.trim 0 d).input = ((rates.getD d 0 : Nat) : Int) ∧ (t.trim 0 d).lo = (s.trim 0 d).lo ∧ (t.trim 0 d).hi = (s.trim 0 d).hi ∧
      ((s.trim 0 d).lo ≤ (s.trim 0 d).output → (s.trim 0 d).output ≤ (s.trim 0 d).hi →
        (s.trim 0 d).lo ≤ (t.trim 0 d).output ∧ (t.trim 0 d).output ≤ (s.trim 0 d).hi) ∧
      (s.domPowered d = true → (s.trim 0 d).freeze = false → (s.trim 0 d).lo ≤ (s.trim 0 d).hi →
        (s.trim 0 d).lo ≤ (t.trim 0 d).output ∧ (t.trim 0 d).output ≤ (s.trim 0 d).hi) ∧
      ((s.trim 0 d).freeze = true → (t.trim 0 d).output = (s.trim 0 d).output)) ∧
  (∀ (s : State) (rates powers slacks : List Nat) (w1 w10 : Nat), w1 < 2048 → w10 < 2048 → s.fld rNodePowerStatus fNodePowerStatus_BACKSTOP = 0 →
    (∀ d, d < 14 → s.domPowered d = true → (s.trim 0 d).freeze = true) → s.limit10 < w10 →
    ∃ t, exec (.voltageTrimTick rates powers w1 w10 slacks) s = .next t ∧ t.fld rNodePowerStatus fNodePowerStatus_BACKSTOP = 1 ∧
      t.fld rNodePowerStatus fNodePowerStatus_CLAMPED = 1 ∧ t.board.backstops = s.board.backstops + 1) ∧
  (∀ (s : State) (lane h w : Nat), h < 65536 → w < 65536 →
    (lane < 256 → ∃ t, exec (.equalisationTrimTick lane h w) s = .next t ∧ t.fld (rFabLaneEye lane) fFabLaneEye_HEIGHT = h ∧
      t.fld (rFabLaneEye lane) fFabLaneEye_WIDTH = w ∧ (t.trim 1 lane).input = (h : Int) ∧ t.mem = s.mem) ∧
    (256 ≤ lane → lane < 272 → ∃ t, exec (.equalisationTrimTick lane h w) s = .next t ∧ t.fld (rTelHostEye (lane - 256)) fTelHostEye_HEIGHT = h ∧
      t.fld (rTelHostEye (lane - 256)) fTelHostEye_WIDTH = w ∧ (t.trim 1 lane).input = (h : Int) ∧ t.mem = s.mem) ∧
    (lane < 272 → s.laneUp lane = false ∨ (s.trim 1 lane).freeze = true → ∃ t, exec (.equalisationTrimTick lane h w) s = .next t ∧
      t.trim 1 lane = { s.trim 1 lane with input := (h : Int) } ∧ t.ctrs = s.ctrs ∧ t.out = s.out) ∧
    (272 ≤ lane → exec (.equalisationTrimTick lane h w) s = .next s)) ∧
  (∀ (s : State) (n act a : Nat) (raw temp : Int), n < 8 → temp = s.calibrated (288 + n) raw → a = min 1000 ((2 * 1000 * act + 4876190) / (2 * 4876190)) →
    ∃ t, exec (.refreshTrimTick n act raw) s = .next t ∧ (t.trim 2 n).input = (a : Int) ∧
      t.fld (rBkeStackStatus n) fBkeStackStatus_REFRESH_NS = kvGetD 3900 n s.board.stackBase * 1000 / max 1 (t.trim 2 n).output.toNat % 65536 ∧
      t.fld (rBkeStackStatus n) fBkeStackStatus_TEMP_C = min 255 (temp / 10).toNat ∧ t.mem = s.mem ∧
      ((s.trim 2 n).freeze = true → (t.trim 2 n).output = (s.trim 2 n).output) ∧
      ((s.trim 2 n).freeze = false → (s.trim 2 n).lo ≤ (s.trim 2 n).hi → (t.trim 2 n).output = max (s.trim 2 n).lo (min (s.trim 2 n).hi
        ((s.trim 2 n).target + (((s.trim 2 n).gain * (a - 500) / 256 : Nat) : Int))))) ∧
  (∀ (s : State) (p : Nat), s.allocHeld = true → exec (.sketchThresholdEval p) s = .next s) ∧
  (∀ (s : State) (p : Nat), s.allocHeld = false → s.configured p = true → (s.corpus p).loop.cand ≠ [] →
    ((s.corpus p).loop.evals < (s.corpus p).loop.seen / 4096 → ∃ t, exec (.sketchThresholdEval p) s = .next t ∧
      (t.corpus p).loop.evals = (s.corpus p).loop.seen / 4096 ∧ (t.corpus p).epoch = (s.corpus p).epoch ∧ t.recs = s.recs) ∧
    ((s.corpus p).loop.seen / 4096 ≤ (s.corpus p).loop.evals → exec (.sketchThresholdEval p) s = .next s)) ∧
  (∀ (s : State), (∀ p, p < 64 → s.configured p = false) → exec .placementTrimTick s = .next s) ∧
  (∀ (s : State) (p tid r : Nat) (x : Table), p < 64 → s.configured p = true → (∀ q, q < 64 → q ≠ p → s.configured q = false) → s.emb.tables = [(tid, x)] →
    x.part = p → x.shard.isSome = true →
    r = loadRatio (((x.map.map (fun e => e.node)).eraseDups).map (fun n => (n, if n = s.nodeId then x.loadAt s.now else kvGetD 0 n x.loads))) (x.loadAt s.now) →
    ((r : Int) ≤ (s.trim 4 p).target ∨ (s.trim 4 p).freeze = true) →
    ∃ t, exec .placementTrimTick s = .next t ∧ (t.trim 4 p).input = (r : Int) ∧ (t.trim 4 p).output = (x.drifts.length : Int) ∧ t.emb = s.emb ∧ t.fab = s.fab) ∧
  (∀ (s : State) (tier c rd wr : Nat), (tier = 0 ∧ c < 256 ∧ ∀ b, kvGet? c s.bank = some b → b.state = 0) ∨ (tier = 1 ∧ c < 16) →
    ∃ t, exec (.memMarginTraining tier c rd wr) s = .next t ∧ kvGet? (tier * 256 + c) t.margins = some (min 0xFFFF rd, min 0xFFFF wr, s.now) ∧
      t.regs = s.regs ∧ t.mem = s.mem ∧ t.out = s.out)

/-- Trim settings, calibration and the logbook. A write of the limits of the selected unit takes effect where they keep R56, reports CFG_ERR where
they do not, and is refused and reported where the image owns them (R17, R56). A calibration offset takes effect for an item of the factory record
(R436, R437) that the image does not own. The mirror is current once LOG_MIRROR is done (R430); the hourly record holds the seconds of each bin, which
are added to the lifetime totals (R432, R433); LOG_READ completes with whole records of its type from FIRST_SEQ on, and a
failed check of it with its status (R435). -/
def Obligations.TrimSettingsAndLog : Prop :=
  (∀ (s : State) (pf l n : Nat) (w : Word) (lo hi : Int), s.trimSel pf = some (l, n) → lo = signedOf 32 (fTrmUnitLimits_LIMIT_LO.get w) →
    hi = signedOf 32 (fTrmUnitLimits_LIMIT_HI.get w) →
    ((s.trim l n).owned = false → trimOk l (s.trim l n).target lo hi = true → ∃ t, exec (.trmUnitLimitsWrite pf w) s = .next t ∧
      t.trim l n = { s.trim l n with lo := lo, hi := hi } ∧ t.mem = s.mem ∧ t.out = s.out) ∧
    ((s.trim l n).owned = false → trimOk l (s.trim l n).target lo hi = false → ∃ t, exec (.trmUnitLimitsWrite pf w) s = .next t ∧
      t.trim l n = { s.trim l n with cfgErr := true } ∧ t.mem = s.mem ∧ t.out = s.out) ∧
    ((s.trim l n).owned = true → ∃ t, exec (.trmUnitLimitsWrite pf w) s = .next t ∧ t.trims = s.trims ∧
      t.fld rNodeAccessErr fNodeAccessErr_LOCKED_WRITE = 1 ∧ t.mem = s.mem ∧ t.out = s.out)) ∧
  (∀ (s : State) (pf i : Nat) (w : Word), i = s.fldPf pf rTrmCalSel fTrmCalSel_ITEM →
    (calItem i = true → s.owned.contains (calKey i) = false → ∃ t, exec (.trmCalOffsetWrite pf w) s = .next t ∧
      t.calU i = signedOf 32 (fTrmCalOffset_U.get w) ∧ (∀ j, j ≠ i → t.calU j = s.calU j) ∧ t.sec.total = s.sec.total + 1 ∧ t.mem = s.mem) ∧
    (calItem i = true → s.owned.contains (calKey i) = true → ∃ t, exec (.trmCalOffsetWrite pf w) s = .next t ∧ t.cal = s.cal ∧ t.sec = s.sec ∧
      t.fld rNodeAccessErr fNodeAccessErr_LOCKED_WRITE = 1) ∧
    (calItem i = false → ∃ t, exec (.trmCalOffsetWrite pf w) s = .next t ∧ t.cal = s.cal ∧ t.sec = s.sec)) ∧
  (∀ (s : State), ∃ t, exec .logMirror s = .next t ∧ t.fld rLogStatus fLogStatus_MIRROR_OK = 1 ∧ SameRegsBut s t [rLogStatus] ∧ t.log = s.log ∧
    t.mem = s.mem ∧ t.out = s.out) ∧
  (∀ (s : State) (temps volts : List Nat), ∃ t, exec (.logHourly temps volts) s = .next t ∧ t.flt.hour = [] ∧ t.mem = s.mem ∧ t.out = s.out ∧
    (∀ i, i < 7 → (t.reg (rLogTbin i)).toNat = min (2 ^ 64 - 1) ((s.reg (rLogTbin i)).toNat + temps.getD i 0)) ∧
    (∀ i, i < 6 → (t.reg (rLogVbin i)).toNat = min (2 ^ 64 - 1) ((s.reg (rLogVbin i)).toNat + volts.getD i 0)) ∧
    (s.flt.hour = [] → s.logUsed < 60 * 1048576 → t.log = s.log ++ [LogRec.mk (s.reg rLogNextSeq).toNat s.now (s.reg rLogBoots).toNat lkBins
      (((List.range 7).map (fun i => temps.getD i 0) ++ (List.range 6).map (fun i => volts.getD i 0)).flatMap (leBytes 4))])) ∧
  (∀ (s : State) (p q cid rid n : Nat) (r : Rec) (l : LongOp) (all rs : List LogRec), MayRun s p q cid 0x05 rid r → r.long = some l → l.running = true →
    n = r.cmd.param 8 4 → r.cmd.resultAddr ≠ 0 → r.cmd.resultAddr % 8 = 0 → 4096 ≤ n → n ≤ 16777216 → n % 8 = 0 → (s.named r).resultOk p r.cmd.resultAddr n = true → PlainResult s r →
    all = s.log.filter (fun x => decide (r.cmd.param 0 8 ≤ x.seq) && (r.cmd.param 12 2 == 0 || x.kind == r.cmd.param 12 2)) → rs = takeRecs n all →
    ∃ next, exec (.logRead p q cid) s = .next (s.complete p rid scDone 0 rs.length next (rs.flatMap LogRec.bytes).length (rs.flatMap LogRec.bytes)) ∧
      Completes s (s.complete p rid scDone 0 rs.length next (rs.flatMap LogRec.bytes).length (rs.flatMap LogRec.bytes)) p q cid scDone rs.length next
        (rs.flatMap LogRec.bytes).length ∧
      (rs.length = all.length → next = max (r.cmd.param 0 8) (s.reg rLogNextSeq).toNat) ∧ (∀ x, all[rs.length]? = some x → next = x.seq)) ∧
  (∀ (s : State) (p q cid rid st : Nat) (r : Rec) (l : LongOp), MayRun s p q cid 0x05 rid r → r.long = some l → l.running = true → (s.named r).logReadCheck p r.cmd = some st →
    ∃ t, exec (.logRead p q cid) s = .next t ∧ Completes s t p q cid st 0 0 0)

/-! ### Boot, the package, security and management (spec/18, spec/19) -/

/-- Power-on and the node warm resets. A power-on that finds a stage-1 copy, every die and clock and a locked crystal starts time at 0 and ends READY
at stage 9 with no request, keeping keys and logbook (R39, R441, Table 18.2); without a copy the node is in recovery (R442); a stage at which a die
or a clock is missing stops it FATAL (R443, R473). With TEST_MODE it does not leave reset (R474). The watchdog, NODE_RESET with its key, and
NODE_RST_N held for 5 µs each reset the node with their own LAST_RESET (R442, R444, R475); a wrong key is reported. -/
def Obligations.Boot : Prop :=
  (∀ (s : State) (f : BootFound), s.board.testMode = true → exec (.powerOn f) s = .next s) ∧
  (∀ (s : State) (f : BootFound), s.board.testMode = false → f.copyA = true ∨ f.copyB = true → f.locked = true → f.failed = [] → f.stopAt < 3 ∨ 8 < f.stopAt →
    ∃ t, exec (.powerOn f) s = .next t ∧ t.fld rNodeStatus fNodeStatus_READY = 1 ∧ t.fld rNodeStatus fNodeStatus_BOOT_STAGE = 9 ∧
      t.fld rNodeStatus fNodeStatus_FW_COPY = (if f.copyA then 0 else 1) ∧ t.time = 0 ∧ t.recs = [] ∧ t.ctxs = [] ∧ t.queues = [] ∧
      t.flt.stopped = false ∧ t.sec.keys = s.sec.keys ∧ s.log <+: t.log ∧ t.board.power = true) ∧
  (∀ (s : State) (f : BootFound), s.board.testMode = false → f.copyA = false → f.copyB = false → ∃ t, exec (.powerOn f) s = .next t ∧
    t.fld rNodeStatus fNodeStatus_RECOVERY = 1 ∧ t.fld rNodeStatus fNodeStatus_BOOT_STAGE = 0xF0 ∧ t.flt.stopped = true ∧ t.time = 0 ∧ t.sec.keys = s.sec.keys) ∧
  (∀ (s : State) (f : BootFound), s.board.testMode = false → f.copyA = true ∨ f.copyB = true → 3 ≤ f.stopAt → f.stopAt ≤ 8 → ∃ t, exec (.powerOn f) s = .next t ∧
    t.fld rNodeStatus fNodeStatus_BOOT_STAGE = f.stopAt ∧ t.fld rFltStatus fFltStatus_FATAL = 1 ∧ t.flt.stopped = true) ∧
  (∀ (s : State) (f : BootFound) (pf ns : Nat) (w : Word), s.board.power = true →
    (3 ≤ s.fld rNodeStatus fNodeStatus_BOOT_STAGE → s.fld rNodeStatus fNodeStatus_BOOT_STAGE ≤ 9 → exec (.msdWatchdogExpiry f) s = .next (s.warmReset 3 f)) ∧
    (s.fld rNodeStatus fNodeStatus_BOOT_STAGE < 3 ∨ 9 < s.fld rNodeStatus fNodeStatus_BOOT_STAGE → exec (.msdWatchdogExpiry f) s = .next s) ∧
    (s.recovering = false → fNodeReset_KEY.get w = 0xB007 → fNodeReset_WARM.get w = 1 → exec (.nodeResetWrite pf w f) s = .next (s.warmReset 1 f)) ∧
    (s.recovering = false → s.flt.stopped = false → fNodeReset_KEY.get w ≠ 0xB007 ∨ fNodeReset_WARM.get w = 0 → ∃ t, exec (.nodeResetWrite pf w f) s = .next t ∧
      t.fld rNodeAccessErr fNodeAccessErr_RSV_WRITE = 1 ∧ SameRegsBut s t [rNodeAccessErr] ∧ t.recs = s.recs ∧ t.mem = s.mem) ∧
    (s.recovering = true → exec (.nodeResetWrite pf w f) s = .next s) ∧
    (5000 ≤ ns → exec (.nodeRstNAssert ns f) s = .next (s.warmReset 2 f)) ∧ (ns < 5000 → exec (.nodeRstNAssert ns f) s = .next s)) ∧
  (∀ (s u : State) (f : BootFound) (c : Nat), c < 256 → u = (if s.flt.stopped then s else s.warmResets) → f.copyA = true ∨ f.copyB = true → f.failed = [] →
    f.stopAt < 3 ∨ 8 < f.stopAt → (u.wipe true).fld rNodeTimeStatus fNodeTimeStatus_HOLDOVER = 0 →
    (s.warmReset c f).fld rNodeStatus fNodeStatus_READY = 1 ∧ (s.warmReset c f).fld rNodeStatus fNodeStatus_LAST_RESET = c ∧
      (s.warmReset c f).fld rNodeStatus fNodeStatus_BOOT_STAGE = 9 ∧ (s.warmReset c f).recs = [] ∧ (s.warmReset c f).ctxs = [] ∧ (s.warmReset c f).queues = [] ∧
      (s.warmReset c f).time = u.time ∧ (s.warmReset c f).sec.keys = u.sec.keys ∧ (s.warmReset c f).flt.stopped = false) ∧
  (∀ (s : State) (c : Instr) (f : BootFound) (pf ns : Nat) (w : Word), c ∈ [Instr.msdWatchdogExpiry f, .nodeResetWrite pf w f, .nodeRstNAssert ns f] →
    s.board.power = false → exec c s = .next s)

/-- Host ports and the package. A reset of a host port resets its physical function and takes NumVFs to 0, and leaves the link trained only for a hot
reset; PERST deasserted trains it (R440). Without power the node is off and keeps its logbook and keys (R469). A rail fault, a thermal shutdown, and
the loss of the memory clock stop the node FATAL (R470, R473, R479). The crystal lost begins holdover, and its lock ends it and a boot that waited
(R42, R43). The loss of the host clock resets both ports, that of a fabric clock fences its 64 lanes (R473). Three AVSBus rounds missed set AVS_LOST
(R471). The power limit is clamped to 900 to 1,500 W (R48). EXTEST disconnects the node's I/O (R477). -/
def Obligations.Package : Prop :=
  (∀ (s : State) (port kind : Nat), s.board.power = true → port < 2 →
    ∃ u v : State, v = u.pfReset port false ∧ exec (.hostPortReset port kind) s = .next (v.putNumVfs (v.numVfs.set port 0)) ∧
      u.board = { s.board with hostUp := if kind = 1 then s.board.hostUp else s.board.hostUp.set port false } ∧ u.recs = s.recs ∧ u.regs = s.regs) ∧
  (∀ (s : State) (port : Nat), s.board.power = true → s.board.extest = false → ∃ t, exec (.perstDeassert port) s = .next t ∧
    t.board.hostUp = s.board.hostUp.set port true ∧ t.recs = s.recs ∧ t.regs = s.regs ∧ t.out = s.out) ∧
  (∀ (s : State), ∃ t, exec .powerDown s = .next t ∧ t.board.power = false ∧ t.flt.stopped = true ∧ t.recs = [] ∧ t.queues = [] ∧ t.log = s.log ∧
    t.sec.keys = s.sec.keys) ∧
  (∀ (s : State) (rail : Nat), s.board.power = true → s.flt.stopped = false → rail < 8 → bitOf (s.fld rNodeRailStatus fNodeRailStatus_IN_RANGE) rail = true →
    ∃ t, exec (.railFault rail) s = .next t ∧ t.flt.stopped = true ∧ t.fld rFltStatus fFltStatus_FATAL = 1 ∧
      t.fld rNodeRailStatus fNodeRailStatus_IN_RANGE = s.fld rNodeRailStatus fNodeRailStatus_IN_RANGE - 2 ^ rail) ∧
  (∀ (s : State) (n : Nat), s.board.power = true → s.flt.stopped = false → ∃ t, exec (.thermalShutdown n) s = .next t ∧ t.board.thermtrip = true ∧
    t.flt.stopped = true ∧ t.fld rFltStatus fFltStatus_FATAL = 1) ∧
  (∀ (s : State), s.board.power = true →
    (s.isFenced 12 0 = false → ∃ t, exec .xtalLoss s = .next t ∧ t.fld rNodeTimeStatus fNodeTimeStatus_HOLDOVER = 1 ∧
      t.fld rNodeTimeStatus fNodeTimeStatus_LOCKED = 0 ∧ t.fld rNodeTimeStatus fNodeTimeStatus_HOLDOVER_SEEN = 1 ∧ t.isFenced 12 0 = true ∧ t.time = s.time ∧
      t.recs = s.recs ∧ t.mem = s.mem) ∧
    (s.isFenced 12 0 = true → exec .xtalLoss s = .next s)) ∧
  (∀ (s : State), s.board.power = true → s.fld rNodeTimeStatus fNodeTimeStatus_LOCKED = 0 ∨ s.fld rNodeTimeStatus fNodeTimeStatus_HOLDOVER = 1 →
    ∃ t, exec .xtalLock s = .next t ∧ t.fld rNodeTimeStatus fNodeTimeStatus_LOCKED = 1 ∧ t.fld rNodeTimeStatus fNodeTimeStatus_HOLDOVER = 0 ∧
      t.isFenced 12 0 = false ∧ t.time = s.time ∧
      (s.fld rNodeStatus fNodeStatus_BOOT_STAGE = 8 → s.flt.stopped = false → t.fld rNodeStatus fNodeStatus_READY = 1)) ∧
  (∀ (s : State), s.board.power = true → exec .refclkPcieLoss s = .next (((((s.setHostUp 0 false).portReset 0).setHostUp 1 false).portReset 1))) ∧
  (∀ (s : State) (n : Nat), s.board.power = true → n < 4 → ∃ t, exec (.refclkFabLoss n) s = .next t ∧ ∀ l, 64 * n ≤ l → l < 64 * n + 64 → t.isFenced 9 l = true) ∧
  (∀ (s : State), s.board.power = true → s.flt.stopped = false → ∃ t, exec .refclkMemLoss s = .next t ∧ t.flt.stopped = true ∧
    t.fld rFltStatus fFltStatus_FATAL = 1 ∧ (s.isReady = false → t.fld rNodeStatus fNodeStatus_BOOT_STAGE = 6)) ∧
  (∀ (s : State) (a : Nat) (miss : List Nat), s.board.power = true → miss = (List.range 4).map (fun r => if bitOf a r then 0 else s.board.avsMiss.getD r 0 + 1) →
    ∃ t, exec (.avsPoll a) s = .next t ∧ t.board.avsMiss = miss ∧ t.fld rNodeRailStatus fNodeRailStatus_AVS_LOST =
      (if miss.all (· == 0) then 0 else if miss.any (fun n => decide (3 ≤ n)) then 1 else s.fld rNodeRailStatus fNodeRailStatus_AVS_LOST) ∧
      (t.fld rNodeRailStatus fNodeRailStatus_AVS_LOST = 0 → ∀ v ∈ t.board.avsSet, 1740 ≤ v ∧ v ≤ 1860) ∧ t.mem = s.mem ∧ t.out = s.out) ∧
  (∀ (s : State) (w : Word) (pf : Nat), s.flt.stopped = false → s.owned.contains (ownKey rNodePowerLimit fNodePowerLimit_LIMIT_W) = false →
    ∃ t, exec (.nodePowerLimitWrite w pf) s = .next t ∧
      t.fld rNodePowerStatus fNodePowerStatus_LIMIT_EFF_W = max 900 (min 1500 (fNodePowerLimit_LIMIT_W.get w)) ∧
      (fNodePowerLimit_LIMIT_W.get w < 900 ∨ 1500 < fNodePowerLimit_LIMIT_W.get w → t.fld rNodePowerStatus fNodePowerStatus_LIMIT_CLAMPED = 1) ∧ t.mem = s.mem) ∧
  (∀ (s : State) (w : Word) (pf : Nat), s.flt.stopped = true → exec (.nodePowerLimitWrite w pf) s = .next s) ∧
  (∀ (s u : State), s.board.power = true →
    u = (((((s.putBoard { s.board with extest := true }).setHostUp 0 false).portReset 0).setHostUp 1 false).portReset 1) →
    exec .jtagExtest s = .next ((u.fab.links.map (fun x => x.1)).foldl State.linkDown u)) ∧
  (∀ (s : State) (c : Instr) (port kind rail n a : Nat), c ∈ [Instr.hostPortReset port kind, .perstDeassert port, .railFault rail, .thermalShutdown n, .xtalLoss, .xtalLock,
    .refclkPcieLoss, .refclkFabLoss n, .refclkMemLoss, .avsPoll a, .jtagExtest] → s.board.power = false → exec c s = .next s)

/-- Measurements and keys. REQUIRE_SIG, once set, stays set and is measured (R70). An EMPTY key slot takes the KEY_ID written, an ENROLLED one is revoked, and any other
combination sets ERR and leaves the keys (R451); each is measured first. A stopped node takes none of these (R407). -/
def Obligations.Security : Prop :=
  (∀ (s : State) (pf : Nat) (w : Word), s.flt.stopped = false → ∃ t, exec (.requireSigSet pf w) s = .next t ∧
    t.fld rNodeBridlePolicy fNodeBridlePolicy_REQUIRE_SIG = max (s.fld rNodeBridlePolicy fNodeBridlePolicy_REQUIRE_SIG) (fNodeBridlePolicy_REQUIRE_SIG.get w) ∧
    t.sec.keys = s.sec.keys ∧ t.mem = s.mem ∧ t.out = s.out ∧
    t.sec.total = s.sec.total + (fNodeBridlePolicy_REQUIRE_SIG.get w - s.fld rNodeBridlePolicy fNodeBridlePolicy_REQUIRE_SIG)) ∧
  (∀ (s : State) (pf k : Nat) (w : Word) (id : List Byte), s.flt.stopped = false → fSecEnrollCtl_GO.get w = 1 → k = fSecEnrollCtl_SLOT.get w →
    id = s.digestAt rSecEnrollData →
    ((s.keySlot k).1 = 0 → (∀ x ∈ s.sec.keys, x.1 = 2 → x.2 ≠ id) → ∃ t, exec (.secEnroll pf w) s = .next t ∧ t.sec.keys = s.sec.keys.set k (1, id) ∧
      t.sec.total = s.sec.total + 1 ∧ t.fld rSecEnrollCtl fSecEnrollCtl_ERR = 0 ∧ t.mem = s.mem ∧ t.out = s.out) ∧
    ((s.keySlot k).1 ≠ 0 → ∃ t, exec (.secEnroll pf w) s = .next t ∧ t.sec = s.sec ∧ t.fld rSecEnrollCtl fSecEnrollCtl_ERR = 1 ∧ t.mem = s.mem ∧ t.out = s.out) ∧
    ((s.keySlot k).1 = 1 → ∃ t, exec (.secRevoke pf w) s = .next t ∧ t.sec.keys = s.sec.keys.set k (2, (s.keySlot k).2) ∧ t.sec.total = s.sec.total + 1 ∧
      t.fld rSecEnrollCtl fSecEnrollCtl_ERR = 0 ∧ t.mem = s.mem ∧ t.out = s.out) ∧
    ((s.keySlot k).1 ≠ 1 → ∃ t, exec (.secRevoke pf w) s = .next t ∧ t.sec = s.sec ∧ t.fld rSecEnrollCtl fSecEnrollCtl_ERR = 1 ∧ t.mem = s.mem ∧ t.out = s.out)) ∧
  (∀ (s : State) (c : Instr) (pf : Nat) (w : Word), c ∈ [Instr.requireSigSet pf w, .secExtend pf w, .secEnroll pf w, .secRevoke pf w] → s.flt.stopped = true →
    exec c s = .next s)

/-- User slots (R447). A write of SEC_EXT_CTL with GO and a SLOT of 8 to 15 extends that slot with the digest written, whose byte 8w + i is in bits
[8i + 7:8i] of SEC_EXT_DATAw; a SLOT outside 8 to 15 sets ERR and changes nothing else. GO then reads 0. -/
def Obligations.UserSlotExtended : Prop :=
  ∀ (s : State) (pf k : Nat) (w : Word), s.flt.stopped = false → fSecExtCtl_GO.get w = 1 → k = fSecExtCtl_SLOT.get w →
    s.owned.contains (ownKey rSecExtCtl fSecExtCtl_SLOT) = false →
    (8 ≤ k → k ≤ 15 → ∃ (t : State) (d : List Byte), exec (.secExtend pf w) s = .next t ∧ d.length = 32 ∧
      (∀ x i, x < 4 → i < 8 → d.getD (8 * x + i) 0 = BitVec.ofNat 8 ((s.reg (rSecExtData x)).toNat / 2 ^ (8 * i))) ∧
      (∀ i, i < 4 → t.reg (rSecSlot k i) = BitVec.ofNat 64 (fieldAt (extendSlot (s.slotBytes k) d) (8 * i) 8)) ∧
      t.fld rSecExtCtl fSecExtCtl_GO = 0 ∧ t.sec.total = s.sec.total + 1 ∧ t.sec.keys = s.sec.keys ∧ t.mem = s.mem ∧ t.out = s.out) ∧
    (k < 8 ∨ 15 < k → ∃ t, exec (.secExtend pf w) s = .next t ∧ t.fld rSecExtCtl fSecExtCtl_ERR = 1 ∧ t.fld rSecExtCtl fSecExtCtl_GO = 0 ∧ t.sec = s.sec ∧
      SameRegsBut s t [rSecExtCtl, rNodeAccessErr] ∧ t.mem = s.mem ∧ t.out = s.out)

/-- ATTEST. A request for this node completes with the report or the certificate chain, its length in RESULT0 and the number of measured objects in
RESULT1, or with BAD_COMMAND where ROOM is too small, and a failed check with its status; one for another node is sent there on VC1 (R452 to R456). A request of another node is answered,
or refused where a field is out of range, eight are being served or the node has stopped (R407, R456, R458); the answer completes the command that
waits. -/
def Obligations.Attest : Prop :=
  (∀ (s v : State) (c : Instr) (p q cid rid op n t : Nat) (r : Rec) (ps bs : List Byte), (op, c) ∈ [(0, Instr.attestReport p q cid), (1, .attestCertChain p q cid)] →
    MayRun s p q cid 0x03 rid r → ps = r.cmd.params → atOp ps = op → atFieldsOk ps = true → r.cmd.resultAddr ≠ 0 → r.cmd.resultAddr % 8 = 0 →
    (s.named r).resultOk p r.cmd.resultAddr (atRoom ps) = true → PlainResult s r → t = atTarget ps →
    (t = 0 ∨ t = s.nodeId → s.attestRoom = true → s.attested ps = (bs, n, v) →
      (bs.length ≤ atRoom ps → exec c s = .next (v.complete p rid scDone 0 n bs.length s.sec.total bs) ∧
        Completes s (v.complete p rid scDone 0 n bs.length s.sec.total bs) p q cid scDone n bs.length s.sec.total) ∧
      (atRoom ps < bs.length → ∃ u, exec c s = .next u ∧ Completes s u p q cid scBadCommand 0 0 0)) ∧
    (t = 0 ∨ t = s.nodeId → s.attestRoom = false → exec c s = .next s) ∧
    (t ≠ 0 → t ≠ s.nodeId → s.reachable t = true → ∃ u k, exec c s = .next u ∧ Begun u rid r ∧ Handed s u k ∧ k.vc = 1 ∧ k.opcode = opAttest ∧
      k.dstNode = t ∧ k.seq = s.fab.seqNo ∧ k.data = fitBytes 96 ps) ∧
    (t ≠ 0 → t ≠ s.nodeId → s.reachable t = false → ∃ u, exec c s = .next u ∧ Completes s u p q cid scUnreachable 0 0 0)) ∧
  (∀ (s : State) (c : Instr) (p q cid rid op : Nat) (r : Rec), (op, c) ∈ [(0, Instr.attestReport p q cid), (1, .attestCertChain p q cid)] → MayRun s p q cid 0x03 rid r →
    atOp r.cmd.params = op → (r.cmd.resultAddr % 8 ≠ 0 → (s.named r).attestCheck p r.cmd = some scBadCommand) ∧
    (∀ st, (s.named r).attestCheck p r.cmd = some st → ∃ u, exec c s = .next u ∧ Completes s u p q cid st 0 0 0)) ∧
  (∀ (s v : State) (k : Packet) (bs : List Byte) (n : Nat), k.opcode = opAttest → k.ptype = 0 →
    (atFieldsOk (fitBytes 96 k.data) = true → s.attestRoom = true → s.flt.stopped = false → (s.taken k).attested (fitBytes 96 k.data) = (bs, n, v) →
      ∃ t y, exec (.remoteAttestRequest k) s = .next t ∧ Handed s t y ∧ y.vc = 2 ∧ y.ptype = 1 ∧ y.dstNode = k.srcNode ∧ y.seq = k.seq ∧
        y.args = [scDone, 0, n, bs.length, s.sec.total] ∧ y.data = bs ∧ t.mem = s.mem) ∧
    (atFieldsOk (fitBytes 96 k.data) = false ∨ s.attestRoom = false ∨ s.flt.stopped = true →
      ∃ t y, exec (.remoteAttestRequest k) s = .next t ∧ Handed s t y ∧ y.ptype = 2 ∧ y.dstNode = k.srcNode ∧ y.seq = k.seq ∧
        y.args = [scRemoteError] ∧ t.mem = s.mem)) ∧
  (∀ (s : State) (k : Packet) (o : OutReq) (rid : Nat) (r : Rec), k.ptype = 1 → k.resetGen = s.resetGen k.dstPart → kvGet? k.seq s.fab.out = some o → o.kind = opAttest →
    o.rid = some rid → kvGet? rid s.recs = some r → r.fab = none → s.pstate r.part ≠ stResetting → PlainResult s r →
    (k.args.getD 0 scRemoteError = scDone → k.data.length ≤ atRoom r.cmd.params → ∃ t, exec (.remoteAttestResponse k) s = .next t ∧
      Completes s t r.part r.q r.cmd.cid scDone (k.args.getD 2 0) k.data.length (k.args.getD 4 0)) ∧
    (k.args.getD 0 scRemoteError ≠ scDone → ∃ t, exec (.remoteAttestResponse k) s = .next t ∧ Completes s t r.part r.q r.cmd.cid scRemoteError 0 0 0))

/-- Management on SMBus. Each request is answered with its own message and changes nothing else but free values; in recovery only GET_VERSION and MCTP
control messages are, and without power none (R442, R457, R458, R476). What a request may name and what the node signs is in the message. -/
def Obligations.Management : Prop :=
  (∀ (s : State) (c : Instr) (m : SmbMsg) (code mtype : Nat) (data : List Byte), s.board.power = true → s.recovering = false →
    (c, m) ∈ [(Instr.spdmGetVersion, SmbMsg.version 1 2), (.spdmGetCapabilities, .capabilities true true true true),
      (.spdmNegotiateAlgorithms, .algorithms "RSASSA-PSS 3072" "SHA-256"), (.spdmGetDigests, .digests ([0, 1, 2, 3].map (fun k => sha256 (Config.spdmChain (spdmDie k))))),
      (.spdmUnsupportedRequest code, .unsupportedRequest code), (.mctpControlMessage data, .control (Config.mctpControl data)),
      (.mctpUnsupportedMessage mtype, .unsupportedType mtype)] →
    ∃ t, exec c s = .next t ∧ t.smb = s.smb ++ [m] ∧ t.regs = s.regs ∧ t.out = s.out ∧ t.mem = s.mem ∧ t.recs = s.recs ∧ t.sec = s.sec) ∧
  (∀ (s : State) (slot off n : Nat) (chain bs : List Byte), s.board.power = true → s.recovering = false → chain = Config.spdmChain (spdmDie slot) →
    bs = (chain.drop off).take n →
    (slot < 4 → off < chain.length → ∃ t, exec (.spdmGetCertificate slot off n) s = .next t ∧
      t.smb = s.smb ++ [.certificate slot off (chain.length - off - bs.length) bs] ∧ t.regs = s.regs ∧ t.out = s.out) ∧
    (4 ≤ slot ∨ chain.length ≤ off → ∃ t, exec (.spdmGetCertificate slot off n) s = .next t ∧ t.smb = s.smb ++ [.invalidRequest])) ∧
  (∀ (s : State) (slot : Nat) (nonce : List Byte), s.board.power = true → s.recovering = false →
    (slot < 4 → s.attestRoom = true → ∃ t, exec (.spdmChallenge slot nonce) s = .next t ∧ t.smb = s.smb ++ [.challengeAuth slot nonce (s.spdmSign nonce).1] ∧
      t.regs = s.regs ∧ t.out = s.out ∧ t.sec = s.sec) ∧
    (slot < 4 → s.attestRoom = false → ∃ t, exec (.spdmChallenge slot nonce) s = .next t ∧ t.smb = s.smb ++ [.busy]) ∧
    (4 ≤ slot → ∃ t, exec (.spdmChallenge slot nonce) s = .next t ∧ t.smb = s.smb ++ [.invalidRequest])) ∧
  (∀ (s : State) (i : Nat) (nonce : List Byte) (ks : List Nat), s.board.power = true → s.recovering = false →
    ks = (if i = 0xFF then List.range 24 else if 1 ≤ i ∧ i ≤ 24 then [i - 1] else []) →
    (ks ≠ [] → (∀ k ∈ ks, s.slotReady k = true) → s.attestRoom = true → ∃ t, exec (.spdmGetMeasurements i nonce) s = .next t ∧
      t.smb = s.smb ++ [.measurements (ks.map (fun k => (k + 1, s.slotBytes k))) nonce (s.spdmSign nonce).1] ∧ t.regs = s.regs ∧ t.out = s.out) ∧
    (ks = [] → ∃ t, exec (.spdmGetMeasurements i nonce) s = .next t ∧ t.smb = s.smb ++ [.invalidRequest]) ∧
    (∀ k ∈ ks, s.slotReady k = false → exec (.spdmGetMeasurements i nonce) s = .next s)) ∧
  (∀ (s v : State) (data ps bs : List Byte) (n : Nat), s.board.power = true → s.recovering = false → ps = fitBytes 96 data →
    (atOp ps = 0 → atFieldsOk ps = true → atTarget ps = 0 ∨ atTarget ps = s.nodeId → s.attestRoom = true → s.attested ps = (bs, n, v) →
      ∃ t, exec (.spdmVendorDefinedRequest data) s = .next t ∧ t.smb = s.smb ++ [.vendor (chunked 1024 (bs.length / 1024 + 1) bs)] ∧ t.regs = s.regs ∧
        t.out = s.out) ∧
    (atOp ps ≠ 0 ∨ atFieldsOk ps = false ∨ (atTarget ps ≠ 0 ∧ atTarget ps ≠ s.nodeId) → ∃ t, exec (.spdmVendorDefinedRequest data) s = .next t ∧
      t.smb = s.smb ++ [.invalidRequest])) ∧
  (∀ (s : State) (c : Instr) (slot off n i code : Nat) (nonce data : List Byte), s.recovering = true ∨ s.board.power = false →
    c ∈ [Instr.spdmGetCapabilities, .spdmNegotiateAlgorithms, .spdmGetDigests, .spdmGetCertificate slot off n, .spdmChallenge slot nonce,
      .spdmGetMeasurements i nonce, .spdmVendorDefinedRequest data, .spdmUnsupportedRequest code] →
    ∃ t, exec c s = .next t ∧ t.smb = s.smb ∧ t.regs = s.regs ∧ t.out = s.out ∧ t.mem = s.mem) ∧
  (∀ (s : State) (c : Instr) (mtype : Nat) (data : List Byte), c ∈ [Instr.spdmGetVersion, .mctpControlMessage data, .mctpUnsupportedMessage mtype] →
    (s.board.power = true → ∃ t m, exec c s = .next t ∧ t.smb = s.smb ++ [m]) ∧ (s.board.power = false → exec c s = .next s))

/-! ### The register space and the image load (spec/00 to spec/03) -/

/-- An access that is not a 64-bit aligned one, of the node space or of a window, is reported with its offset and function: a write is discarded, a
read returns all ones (R15, R16, R86); in the window of a partition that no function has a write is discarded and a read returns zero (R87). An
aligned 32-bit write of the MSI-X table replaces its half of the word (R86). A write of a register takes field by field what its fields' access
allows, and does nothing on a node that is off or in recovery (R17, R442, R489). -/
def Obligations.RegisterWrites : Prop :=
  (∀ (s : State) (pf off : Nat) (b : Bool), pf < 2 → off < 0x4000000 → ∃ t, exec (.bar0BadAccess pf off b) s = .next t ∧
    t.fld rNodeAccessErr fNodeAccessErr_BAD_WIDTH = 1 ∧ t.fld rNodeAccessErr fNodeAccessErr_LAST_OFFSET = off / 8 ∧ t.fld rNodeAccessErr fNodeAccessErr_LAST_PF = pf ∧
    SameRegsBut s t [rNodeAccessErr] ∧ t.mem = s.mem ∧ t.recs = s.recs ∧
    t.out = s.out ++ (if b then [] else [HostOut.read false pf off (BitVec.allOnes 64)])) ∧
  (∀ (s : State) (p off : Nat) (b : Bool),
    (s.sqCount p = 0 → ∃ t, exec (.windowBadAccess p off b) s = .next t ∧ t.winReg = s.winReg ∧ t.regs = s.regs ∧
      t.out = s.out ++ (if b then [] else [HostOut.read true p off 0])) ∧
    (s.sqCount p ≠ 0 → ∃ t, exec (.windowBadAccess p off b) s = .next t ∧ fWinAccessErr.get (t.win p 0x40000) = 1 ∧ t.regs = s.regs ∧
      t.out = s.out ++ (if b then [] else [HostOut.read true p off (BitVec.allOnes 64)]))) ∧
  (∀ (s : State) (pf off : Nat) (w : Word), s.board.power = true → s.recovering = false →
    exec (.registerWrite pf off w .win) s = .next (s.writeWindow pf off w) ∧
    exec (.registerWrite pf off w .winHalf) s = .next (s.writeWindowHalf pf off w) ∧
    (s.flt.stopped = false → exec (.registerWrite pf off w .node) s = .next (s.writeNode pf off w)) ∧
    (s.flt.stopped = true → exec (.registerWrite pf off w .node) s = .next s)) ∧
  (∀ (s : State) (p off : Nat) (w : Word), s.board.power = true → s.recovering = false → s.sqCount p ≠ 0 →
    (s.flt.stopped = false → 0x80000 ≤ off → off < 0x80400 → off % 8 = 4 →
      exec (.registerWrite p off w .winHalf) s = .next (s.writeMsix p (off - 4) ((s.win p (off - 4) &&& 0xFFFFFFFF) ||| (w <<< 32)))) ∧
    (off % 4 ≠ 0 ∨ off < 0x80000 → ∃ t, exec (.registerWrite p off w .winHalf) s = .next t ∧ fWinAccessErr.get (t.win p 0x40000) = 1 ∧ t.regs = s.regs ∧
      t.out = s.out)) ∧
  (∀ (s : State) (pf : Nat) (w : Word), s.board.power = true → s.recovering = false → s.flt.stopped = false →
    (w &&& rsvMask rMemCfg = 0 → ∃ t, exec (.registerWrite pf rMemCfg w .node) s = .next t ∧ SameRegsBut s t [rMemCfg] ∧
      t.fld rMemCfg fMemCfg_LOST_MS = max 10 (min 60000 (fMemCfg_LOST_MS.get w)) ∧ t.mem = s.mem ∧ t.out = s.out) ∧
    (w &&& rsvMask rFtlGcCfg ≠ 0 → ∃ t, exec (.registerWrite pf rFtlGcCfg w .node) s = .next t ∧ SameRegsBut s t [rFtlGcCfg, rNodeAccessErr] ∧
      t.fld rFtlGcCfg fFtlGcCfg_GC_LOW = fFtlGcCfg_GC_LOW.get w ∧ t.fld rFtlGcCfg fFtlGcCfg_WI = fFtlGcCfg_WI.get w ∧
      t.fld rNodeAccessErr fNodeAccessErr_RSV_WRITE = 1 ∧ t.mem = s.mem ∧ t.out = s.out)) ∧
  (∀ (s : State) (pf off : Nat) (w : Word) (b : RegTarget), s.board.power = false ∨ s.recovering = true → exec (.registerWrite pf off w b) s = .next s) ∧
  (∀ (s : State) (p off : Nat) (w : Word), s.board.power = true → s.recovering = false → s.sqCount p ≠ 0 → s.flt.stopped = false → off = 0x40000 →
    ∃ t, exec (.registerWrite p off w .win) s = .next t ∧ (∀ o, o ≠ off → t.win p o = s.win p o) ∧
      (w &&& winStatusRsv = 0 → t.win p off = s.win p off &&& ~~~ (w &&& 0xF0)) ∧ t.regs = s.regs ∧ t.out = s.out)

/-- BRIDLE_LOAD (R71, R72). From a partition other than 0 and 32 it completes with BAD_IMAGE; while another load runs likewise; with an address it may
not read, BAD_HANDLE. A well-formed full image is measured and goes under way with LOADING set and PROGRESS at the share of its bytes that the header takes; one whose body
fails a check ends the load, and a partial image that passes all takes effect, and completes with COUNT 1 and its serial while its own record stands
(R73 to R79). -/
def Obligations.BridleLoad : Prop :=
  (∀ (s : State) (p q cid rid a n : Nat) (image : List Byte) (r : Rec) (l : LongOp), MayRun s p q cid 0x04 rid r → r.long = some l → l.running = true →
    a = r.cmd.param 0 8 → n = r.cmd.param 8 4 → p = 0 ∨ p = 32 →
    (r.cmd.resultAddr ≠ 0 ∨ a % 8 ≠ 0 → ∃ t, exec (.bridleLoad p q cid image) s = .next t ∧ Completes s t p q cid scBadCommand 0 0 0) ∧
    (r.cmd.resultAddr = 0 → a % 8 = 0 → (s.named r).imageAddrOk p a n = false → ∃ t, exec (.bridleLoad p q cid image) s = .next t ∧ Completes s t p q cid scBadHandle 0 0 0) ∧
    (r.cmd.resultAddr = 0 → a % 8 = 0 → (s.named r).imageAddrOk p a n = true → s.load = none → ∀ bs v, s.readInput p r.flow a (min n 16777224) image = (bs, v) →
      v.headCheck bs n = none → imgKind bs = 0 →
      ∃ t x, exec (.bridleLoad p q cid image) s = .next t ∧
        kvGet? rid t.recs = some { r with phase := .running, long := some { l with progress := walkProgress bs (bs.length - imgFirst bs) } } ∧ t.load = some x ∧ x.rid = rid ∧ x.image = bs ∧ x.applying = false ∧
        t.fld rNodeBridleStatus fNodeBridleStatus_LOADING = 1 ∧ t.sec.total = s.sec.total + 1) ∧
    (r.cmd.resultAddr = 0 → a % 8 = 0 → (s.named r).imageAddrOk p a n = true → s.load.isSome = true →
      exec (.bridleLoad p q cid image) s = .next (s.rejectLoad p rid [] { reason := 0x01 }))) ∧
  (∀ (s : State) (p q cid rid : Nat) (image : List Byte) (r : Rec) (l : LongOp), MayRun s p q cid 0x04 rid r → r.long = some l → l.running = true → p ≠ 0 → p ≠ 32 →
    exec (.bridleLoad p q cid image) s = .next (s.rejectLoad p rid [] { reason := 0x02 })) ∧
  (∀ (s : State) (p q cid rid skipped : Nat) (image : List Byte) (r : Rec) (l : Load) (rs : List BRec) (areas : List (Nat × Nat × Nat)), UnderWay s p q cid 0x04 rid r →
    s.readyRec p q cid 0x04 = none → s.load = some l → l.rid = rid → l.applying = false →
    (∀ e y, s.checkImage l.image = .error e → walk l.image = .error y →
      exec (.bridleLoad p q cid image) s = .next ((s.setProgress rid (walkProgress l.image y.left)).rejectLoad p rid l.image e)) ∧
    (∀ e y, s.checkImage l.image = .error e → walk l.image = .ok y →
      exec (.bridleLoad p q cid image) s = .next ((s.setProgress rid 900000).rejectLoad p rid l.image e)) ∧
    (s.checkImage l.image = .ok (rs, skipped, areas) → imgKind l.image ≠ 0 → ∀ u v : State,
      u = (s.setProgress rid 950000).applyImage rid l.image rs skipped areas → v = u.finishLoad p rid l.image →
      exec (.bridleLoad p q cid image) s = .next ((v.releaseHeld).resume) ∧
      ∀ x, kvGet? rid u.recs = some x → x.fab = none → x.part = p → u.pstate p ≠ stResetting →
        Completes u v p x.q x.cmd.cid scDone 1 (imgSerial l.image) ((u.dropLoad).reg rNodeBridleStatus).toNat))
end

