-- ==== Sys2Proof/Laws/KV.lean ====
section
/-! SUPPORT. Laws of keyed data: what a put, a delete and an update read back as, for every list, and that each keeps the keys rising. -/

namespace Sys2Proof.Machine

variable {α : Type}

@[simp] theorem kvGet?_put_self (k : Nat) (v : α) (m : KV α) : kvGet? k (kvPut k v m) = some v := by
  induction m with
  | nil => simp [kvPut, kvGet?]
  | cons x m ih =>
    unfold kvPut
    split
    · simp [kvGet?]
    · split
      · simp [kvGet?]
      · rw [kvGet?, if_neg ‹_›, ih]

theorem kvGet?_put_ne {k j : Nat} (h : j ≠ k) (v : α) (m : KV α) : kvGet? j (kvPut k v m) = kvGet? j m := by
  induction m with
  | nil => simp [kvPut, kvGet?, h]
  | cons x m ih =>
    unfold kvPut
    split
    · simp [kvGet?, h]
    · split
      · rename_i e
        subst e
        simp [kvGet?, h]
      · simp only [kvGet?, ih]

@[simp] theorem kvGet?_del_self (k : Nat) (m : KV α) : kvGet? k (kvDel k m) = none := by
  induction m with
  | nil => rfl
  | cons x m ih =>
    unfold kvDel
    split
    · exact ih
    · rw [kvGet?, if_neg ‹_›, ih]

theorem kvGet?_del_ne {k j : Nat} (h : j ≠ k) (m : KV α) : kvGet? j (kvDel k m) = kvGet? j m := by
  induction m with
  | nil => rfl
  | cons x m ih =>
    unfold kvDel
    split
    · rename_i e
      subst e
      rw [ih, kvGet?, if_neg h]
    · simp only [kvGet?, ih]

theorem kvGet?_put (k j : Nat) (v : α) (m : KV α) : kvGet? j (kvPut k v m) = if j = k then some v else kvGet? j m := by
  split
  · subst_vars; simp
  · exact kvGet?_put_ne ‹_› v m

theorem kvGet?_del (k j : Nat) (m : KV α) : kvGet? j (kvDel k m) = if j = k then none else kvGet? j m := by
  split
  · subst_vars; simp
  · exact kvGet?_del_ne ‹_› m

theorem kvGet?_upd (k j : Nat) (f : α → α) (m : KV α) : kvGet? j (kvUpd k f m) = if j = k then (kvGet? k m).map f else kvGet? j m := by
  unfold kvUpd
  split
  · rename_i v h
    rw [kvGet?_put, h]
    rfl
  · rename_i h
    rw [h]
    split
    · subst_vars; exact h
    · rfl

/-- Removing entries by key leaves every key that stays as it was. -/
theorem kvGet?_filter_key (f : Nat → Bool) (k : Nat) (m : KV α) :
    kvGet? k (m.filter (fun x => f x.1)) = if f k then kvGet? k m else none := by
  induction m with
  | nil => simp [kvGet?]
  | cons x m ih =>
    rw [List.filter_cons]
    by_cases e : k = x.1
    · subst e
      cases h : f x.1 <;> simp [kvGet?, h, ih]
    · by_cases g : f x.1 = true
      · simp [kvGet?, g, e, ih]
      · simp [kvGet?, g, e, ih]

theorem kvGet?_mem {k : Nat} {v : α} {m : KV α} (h : kvGet? k m = some v) : (k, v) ∈ m := by
  induction m with
  | nil => cases h
  | cons x m ih =>
    rw [kvGet?] at h
    split at h
    · subst_vars; cases h; exact List.mem_cons_self
    · exact List.mem_cons_of_mem _ (ih h)

theorem kvPut_mem {k : Nat} {v : α} {m : KV α} {x : Nat × α} (h : x ∈ kvPut k v m) : x = (k, v) ∨ x ∈ m := by
  induction m with
  | nil => exact .inl (List.mem_singleton.mp h)
  | cons y m ih =>
    unfold kvPut at h
    split at h
    · exact (List.mem_cons.mp h).imp_right id
    · split at h
      · exact (List.mem_cons.mp h).imp_right (List.mem_cons_of_mem _)
      · rcases List.mem_cons.mp h with h | h
        · exact .inr (h ▸ List.mem_cons_self)
        · exact (ih h).imp_right (List.mem_cons_of_mem _)

theorem kvDel_sublist (k : Nat) (m : KV α) : (kvDel k m).Sublist m := by
  induction m with
  | nil => exact .slnil
  | cons x m ih =>
    unfold kvDel
    split
    · exact ih.cons _
    · exact ih.cons_cons _

/-- The canonical form says that the keys rise pairwise. -/
theorem kvSorted_iff (m : KV α) : kvSorted m = true ↔ m.Pairwise (fun x y => x.1 < y.1) := by
  have key : ∀ (l : KV α) (i : Nat), kvSortedFrom (some i) l = true ↔ (∀ x ∈ l, i < x.1) ∧ l.Pairwise (fun x y => x.1 < y.1) := by
    intro l
    induction l with
    | nil => simp [kvSortedFrom]
    | cons x l ih =>
      intro i
      simp only [kvSortedFrom, Bool.and_eq_true, decide_eq_true_eq, ih, List.pairwise_cons, List.mem_cons, forall_eq_or_imp]
      constructor
      · rintro ⟨h, g, p⟩
        exact ⟨⟨h, fun y hy => Nat.lt_trans h (g y hy)⟩, g, p⟩
      · rintro ⟨⟨h, -⟩, g, p⟩
        exact ⟨h, g, p⟩
  cases m with
  | nil => simp [kvSorted, kvSortedFrom]
  | cons x l =>
    simp only [kvSorted, kvSortedFrom, Bool.true_and, key, List.pairwise_cons]

theorem kvSorted_sublist {l m : KV α} (h : l.Sublist m) (g : kvSorted m = true) : kvSorted l = true :=
  (kvSorted_iff l).mpr (((kvSorted_iff m).mp g).sublist h)

theorem kvSorted_del (k : Nat) {m : KV α} (h : kvSorted m = true) : kvSorted (kvDel k m) = true := kvSorted_sublist (kvDel_sublist k m) h

theorem kvSorted_filter (f : Nat × α → Bool) {m : KV α} (h : kvSorted m = true) : kvSorted (m.filter f) = true :=
  kvSorted_sublist List.filter_sublist h

theorem kvSorted_put (k : Nat) (v : α) {m : KV α} (h : kvSorted m = true) : kvSorted (kvPut k v m) = true := by
  rw [kvSorted_iff] at h ⊢
  induction m with
  | nil => simp [kvPut]
  | cons x m ih =>
    obtain ⟨hx, hm⟩ := List.pairwise_cons.mp h
    unfold kvPut
    split
    · rename_i lt
      refine List.pairwise_cons.mpr ⟨fun y hy => ?_, h⟩
      rcases List.mem_cons.mp hy with rfl | hy
      · exact lt
      · exact Nat.lt_trans lt (hx y hy)
    · split
      · rename_i e
        subst e
        exact List.pairwise_cons.mpr ⟨hx, hm⟩
      · refine List.pairwise_cons.mpr ⟨fun y hy => ?_, ih hm⟩
        rcases kvPut_mem hy with rfl | hy
        · show x.1 < k
          omega
        · exact hx y hy

theorem kvSorted_upd (k : Nat) (f : α → α) {m : KV α} (h : kvSorted m = true) : kvSorted (kvUpd k f m) = true := by
  unfold kvUpd
  split
  · exact kvSorted_put _ _ h
  · exact h

theorem kvSorted_mapVals (f : Nat → α → α) {m : KV α} (h : kvSorted m = true) : kvSorted (kvMapVals f m) = true := by
  rw [kvSorted_iff] at h ⊢
  exact List.pairwise_map.mpr h

end Sys2Proof.Machine
end

