-- ==== Sys2Proof/Laws/Alloc.lean ====
section
/-! SUPPORT. Allocation: where a place suits, one is found, whatever the hint of the configuration; an allocation that is made satisfies its
limits; and in a tier that holds few allocations of one unit there is always room for another. -/

namespace Sys2Proof.Machine

/-- Where the start of a tier or of a Tier A channel suits, a place is found, and what is found suits. -/
theorem State.findPlaceIn_some (s : State) (p t len a : Nat) (suits : Nat → Bool) (hs : suits a = true) (hp : s.placeOk p t a len = true)
    (hm : a = tierBase t ∨ (t = 0 ∧ ∃ c, c < 256 ∧ a = c * 2 ^ 31)) :
    ∃ b, s.findPlaceIn p t len suits = some b ∧ suits b = true ∧ s.placeOk p t b len = true := by
  have hex : (s.findPlaceIn p t len suits).isSome = true := by
    rw [State.findPlaceIn, List.find?_isSome]
    refine ⟨a, ?_, by simp [hs, hp]⟩
    rcases hm with rfl | ⟨rfl, c, hc, rfl⟩
    · simp
    · refine List.mem_append_right _ ?_
      rw [if_pos rfl]
      exact List.mem_map.mpr ⟨c, List.mem_range.mpr hc, rfl⟩
  obtain ⟨b, hb⟩ := Option.isSome_iff_exists.mp hex
  have := List.find?_some hb
  simp only [Bool.and_eq_true] at this
  exact ⟨b, hb, this.1, this.2⟩

/-- What an allocation made anywhere in a tier is. -/
theorem State.alloc_some (s : State) (p t bytes a : Nat) (kind : AllocKind)
    (hq : s.useOf p t + roundUp bytes (allocUnit t) ≤ s.quotaOf p t) (hf : t = 3 → s.tierFUse + roundUp bytes (allocUnit t) ≤ 16384 * s.flash.cap.getD 0)
    (hp : s.placeOk p t a (roundUp bytes (allocUnit t)) = true) (hm : a = tierBase t ∨ (t = 0 ∧ ∃ c, c < 256 ∧ a = c * 2 ^ 31)) :
    ∃ b, s.placeOk p t b (roundUp bytes (allocUnit t)) = true ∧ s.alloc p t bytes kind =
      some (b, (fun (v : State) => if t = 3 then v.putFlash { v.flash with keys := kvPut (b / 16384) v.flash.keyNo v.flash.keys, keyNo := v.flash.keyNo + 1 } else v)
        (s.modMem (fun m => { m with allocs := kvPut b { len := roundUp bytes (allocUnit t), part := some p, kind := kind } m.allocs }))) := by
  obtain ⟨b, hb, -, ho⟩ := s.findPlaceIn_some p t _ a (fun _ => true) rfl hp hm
  refine ⟨b, ho, ?_⟩
  have h1 : ¬(s.quotaOf p t < s.useOf p t + roundUp bytes (allocUnit t) ∨ (t = 3 ∧ 16384 * s.flash.cap.getD 0 < s.tierFUse + roundUp bytes (allocUnit t))) := by
    rintro (h | ⟨h, g⟩)
    · omega
    · have := hf h; omega
  simp only [State.alloc, State.allocAt, if_neg h1, State.findPlace, hb]

/-- A partition with `k` or fewer allocations on the node, each of one unit of Tier A or B, and quota for more. -/
structure State.Roomy (s : State) (p k : Nat) : Prop where
  few   : s.mem.allocs.length ≤ k
  units : ∀ x ∈ s.mem.allocs, x.1 % 65536 = 0 ∧ x.2.len = 65536
  sound : s.flt.units = [] ∧ s.isS256 = false
  quota : 256 * 65536 ≤ s.quotaOf p 0

theorem foldl_len_le (l : KV Alloc) (h : ∀ x ∈ l, x.2.len = 65536) (n : Nat) : l.foldl (fun n a => n + a.2.len) n = n + 65536 * l.length := by
  induction l generalizing n with
  | nil => simp
  | cons x xs ih =>
    simp only [List.foldl_cons, List.length_cons]
    rw [ih (fun y hy => h y (List.mem_cons_of_mem _ hy)), h x List.mem_cons_self]
    omega

theorem State.Roomy.use {s : State} {p k : Nat} (h : s.Roomy p k) : s.useOf p 0 ≤ 65536 * k := by
  have := foldl_len_le (s.mem.allocs.filter (fun a => a.2.part == some p && tierOf a.1 == some 0)) (fun x hx => (h.units x (List.mem_filter.mp hx).1).2) 0
  have hl := List.length_filter_le (fun (a : Nat × Alloc) => a.2.part == some p && tierOf a.1 == some 0) s.mem.allocs
  simp only [State.useOf, this, Nat.zero_add]
  have := h.few
  simp; omega

/-- Among 256 channels one holds no allocation at its start. -/
theorem exists_free_channel (l : KV Alloc) (h : l.length < 256) : ∃ c, c < 256 ∧ ∀ x ∈ l, x.1 ≠ c * 2 ^ 31 := by
  by_contra hc
  push Not at hc
  have hn : ((List.range 256).map (fun c => c * 2 ^ 31)).Nodup := by
    refine List.Nodup.map (fun a b e => ?_) List.nodup_range
    have e : a * 2 ^ 31 = b * 2 ^ 31 := e
    omega
  have hs : ((List.range 256).map (fun c => c * 2 ^ 31)) ⊆ l.map (fun x => x.1) := by
    intro a ha
    obtain ⟨c, hc1, rfl⟩ := List.mem_map.mp ha
    obtain ⟨x, hx, e⟩ := hc c (List.mem_range.mp hc1)
    exact List.mem_map.mpr ⟨x, hx, e⟩
  have := (hn.subperm hs).length_le
  simp at this; omega

/-- A unit at the start of a channel that holds none there is free. -/
theorem State.Roomy.placeOk {s : State} {p k c : Nat} (h : s.Roomy p k) (hc : c < 256) (hf : ∀ x ∈ s.mem.allocs, x.1 ≠ c * 2 ^ 31) :
    s.placeOk p 0 (c * 2 ^ 31) 65536 = true := by
  have h1 : s.mem.isFree (c * 2 ^ 31) 65536 = true := by
    rw [MemSys.isFree, List.all_eq_true]
    intro x hx
    have hx1 := h.units x hx
    have hx2 := hf x hx
    simp only [Bool.not_eq_true', decide_eq_false_iff_not]
    omega
  have h2 : s.mapped 0 (c * 2 ^ 31) 65536 = true := by
    have a1 : tierOf (c * 2 ^ 31) = some 0 := if_pos (by omega)
    have a2 : tierOf (c * 2 ^ 31 + 65536 - 1) = some 0 := if_pos (by omega)
    rw [State.mapped, a1, a2, h.sound.2]
    rfl
  have h3 : s.touchesFenced 0 (c * 2 ^ 31) 65536 = false := by simp [State.touchesFenced, h.sound.1]
  simp only [State.placeOk, allocUnit, h1, h2, h3]
  simp; omega

/-- The same state with these allocations. -/
def State.withAllocs (s : State) (as : KV Alloc) : State := s.modMem (fun m => { m with allocs := as })

@[simp] theorem State.withAllocs_quotaOf (s : State) (as : KV Alloc) (p t : Nat) : (s.withAllocs as).quotaOf p t = s.quotaOf p t := rfl
@[simp] theorem State.withAllocs_allocs (s : State) (as : KV Alloc) : (s.withAllocs as).mem.allocs = as := rfl

/-- Use of Tier B, with the locator. -/
theorem State.Roomy.use_b {s : State} {p k : Nat} (h : s.Roomy p k) : s.useOf p 1 ≤ s.locatorBytes p + 65536 * k := by
  have := foldl_len_le (s.mem.allocs.filter (fun a => a.2.part == some p && tierOf a.1 == some 1)) (fun x hx => (h.units x (List.mem_filter.mp hx).1).2) 0
  have hl := List.length_filter_le (fun (a : Nat × Alloc) => a.2.part == some p && tierOf a.1 == some 1) s.mem.allocs
  simp only [State.useOf, this, Nat.zero_add]
  have := h.few
  simp; omega

/-- There is room for one more unit in Tier A. -/
theorem State.Roomy.alloc {s : State} {as : KV Alloc} {p k : Nat} (h : (s.withAllocs as).Roomy p k) (hk : k < 255) (bytes : Nat) (kind : AllocKind) (hb : 0 < bytes)
    (hb' : bytes ≤ 65536) :
    ∃ b as', (s.withAllocs as).alloc p 0 bytes kind = some (b, s.withAllocs as') ∧ (s.withAllocs as').Roomy p (k + 1) := by
  have hr : roundUp bytes (allocUnit 0) = 65536 := by simp only [roundUp, allocUnit]; simp; omega
  have hfew := h.few
  obtain ⟨c, hc, hf⟩ := exists_free_channel as (by simpa using Nat.lt_of_le_of_lt hfew (by omega))
  obtain ⟨b, hb1, hb2⟩ := (s.withAllocs as).alloc_some p 0 bytes (c * 2 ^ 31) kind (by have := h.use; have := h.quota; rw [hr]; omega) (by omega)
    (by rw [hr]; exact h.placeOk hc hf) (.inr ⟨rfl, c, hc, rfl⟩)
  refine ⟨b, _, hb2, ⟨?_, ?_, h.sound, h.quota⟩⟩
  · have : ∀ (l : KV Alloc) (k : Nat) (v : Alloc), (kvPut k v l).length ≤ l.length + 1 := by
      intro l k v
      induction l with
      | nil => simp [kvPut]
      | cons x xs ih => simp only [kvPut]; split_ifs <;> simp_all
    exact Nat.le_trans (this as _ _) (by have : as.length ≤ k := hfew; omega)
  · intro x (hx : x ∈ kvPut b _ as)
    rcases kvPut_mem hx with rfl | hx
    · rw [hr] at hb1 ⊢
      simp only [State.placeOk, allocUnit, Bool.and_eq_true, beq_iff_eq] at hb1
      exact ⟨by simpa using hb1.1.1.1.1, rfl⟩
    · exact h.units x hx

/-- A segment whose parts find their places is allocated. -/
theorem State.allocSegment_some (s t0 t1 t2 t3 t4 t5 : State) (p cap b1 b2 b3 b4 b5 : Nat) (g : Segment) (a0 : List Nat) (bl : List (Nat × Nat)) (kind : AllocKind)
    (h0 : s.allocBlocks p g.width g.blockRows cap kind = some (a0, bl, t0)) (h1 : t0.allocOpt p 0 (cap * g.degree * 4) kind = some ([b1], b1, t1))
    (h2 : t1.allocOpt p 0 (cap * g.stride) kind = some ([b2], b2, t2)) (h3 : t2.allocOpt p 0 (8 * cap) kind = some ([b3], b3, t3))
    (h4 : t3.allocOpt p 0 (8 * cap) kind = some ([b4], b4, t4)) (h5 : t4.allocOpt p 0 (roundUp ((cap + 7) / 8) 64) kind = some ([b5], b5, t5))
    (h6 : t5.allocOpt p 0 (if t5.metric p = 2 then 4 * cap else 0) kind = some ([], 0, t5)) (h7 : t5.allocOpt p 0 (if g.delta then 1048576 else 0) kind = some ([], 0, t5)) :
    ∃ g', s.allocSegment p g cap 0 0 0 kind = some (g', t5) := by
  simp only [State.allocSegment, h0, h1, h2, h3, h4, h5, h6, h7]
  exact ⟨_, rfl⟩

/-- An allocation of some bytes. -/
theorem State.allocOpt_some {s t : State} {p k n a : Nat} {kind : AllocKind} (hn : n ≠ 0) (h : s.alloc p k n kind = some (a, t)) :
    s.allocOpt p k n kind = some ([a], a, t) := by
  simp only [State.allocOpt, if_neg hn, h, Option.map_some]

/-- An allocation in one Tier A channel. -/
theorem State.allocChan_some (s : State) (p c a n len : Nat) (kind : AllocKind) (hn : roundUp n 65536 = len) (hf : s.findChan p c len = some a)
    (hp : s.placeOk p 0 a len = true) (hq : s.useOf p 0 + len ≤ s.quotaOf p 0) :
    s.allocChan p c n kind = some (a, s.withAllocs (kvPut a { len := len, part := some p, kind := kind } s.mem.allocs)) := by
  have hu : allocUnit 0 = 65536 := rfl
  have hq' : ¬(s.quotaOf p 0 < s.useOf p 0 + len ∨ (0 = 3 ∧ 16384 * s.flash.cap.getD 0 < s.tierFUse + len)) := by omega
  simp only [State.allocChan, State.allocAt, hn, hu, hf, hp, if_neg hq', if_true, State.withAllocs]
  rfl

/-- Sketch blocks in a single channel. -/
theorem State.allocBlocks_one (s t : State) (p w rows n c a : Nat) (kind : AllocKind) (hc : maskChannels (s.pcfg p).procChannels = [c])
    (h1 : (n + rows * perRow w - 1) / (rows * perRow w) = 1) (h : s.allocChan p c (1 * rows * 2048) kind = some (a, t)) :
    ∃ bl, s.allocBlocks p w rows n kind = some ([a], bl, t) := by
  simp [State.allocBlocks, hc, h1] at h ⊢
  simp [h]

end Sys2Proof.Machine
end

