-- ==== Sys2Proof/Laws/State.lean ====
section
/-! SUPPORT. Every field after every update of the state: the field that is put reads back, every other field and every accessor that reads
another field is unchanged. One theorem for each update; `simp` takes each of its parts. -/

namespace Sys2Proof.Machine

@[simp] theorem State.putTime_reads (s : State) (v : Word) :
    (s.putTime v).time = v ∧ (s.putTime v).pending = s.pending ∧ (s.putTime v).free = s.free ∧ (s.putTime v).regs = s.regs ∧
    (s.putTime v).ctrs = s.ctrs ∧ (s.putTime v).owned = s.owned ∧ (s.putTime v).winReg = s.winReg ∧ (s.putTime v).queues = s.queues ∧
    (s.putTime v).recs = s.recs ∧ (s.putTime v).nextRec = s.nextRec ∧ (s.putTime v).fetchNo = s.fetchNo ∧ (s.putTime v).ctxs = s.ctxs ∧
    (s.putTime v).parts = s.parts ∧ (s.putTime v).shares = s.shares ∧ (s.putTime v).vfEn = s.vfEn ∧ (s.putTime v).numVfs = s.numVfs ∧
    (s.putTime v).out = s.out ∧ (s.putTime v).mem = s.mem ∧ (s.putTime v).fab = s.fab ∧ (s.putTime v).flt = s.flt ∧ (s.putTime v).log = s.log ∧
    (s.putTime v).sels = s.sels ∧ (s.putTime v).results = s.results ∧ (s.putTime v).bank = s.bank ∧ (s.putTime v).tokens = s.tokens ∧
    (s.putTime v).corpora = s.corpora ∧ (s.putTime v).builds = s.builds ∧ (s.putTime v).queries = s.queries ∧ (s.putTime v).arrays = s.arrays ∧
    (s.putTime v).atokens = s.atokens ∧ (s.putTime v).models = s.models ∧ (s.putTime v).oldModels = s.oldModels ∧ (s.putTime v).arrWork = s.arrWork ∧
    (s.putTime v).trims = s.trims ∧ (s.putTime v).flash = s.flash ∧ (s.putTime v).emb = s.emb ∧ (s.putTime v).load = s.load ∧
    (s.putTime v).sec = s.sec ∧ (s.putTime v).cal = s.cal ∧ (s.putTime v).margins = s.margins ∧ (s.putTime v).smb = s.smb ∧
    (s.putTime v).board = s.board ∧ (∀ o, (s.putTime v).reg o = s.reg o) ∧ (∀ o f, (s.putTime v).fld o f = s.fld o f) ∧
    (∀ p o, (s.putTime v).regPf p o = s.regPf p o) ∧ (∀ p o f, (s.putTime v).fldPf p o f = s.fldPf p o f) ∧ (∀ o, (s.putTime v).ctr o = s.ctr o) ∧
    (∀ p, (s.putTime v).part p = s.part p) ∧ (∀ p, (s.putTime v).pcfg p = s.pcfg p) ∧ (∀ p, (s.putTime v).configured p = s.configured p) ∧
    (∀ p, (s.putTime v).pstate p = s.pstate p) ∧ (s.putTime v).isReady = s.isReady ∧ (∀ p q, (s.putTime v).queue p q = s.queue p q) ∧
    (∀ p q c, (s.putTime v).recOf p q c = s.recOf p q c) ∧ (∀ p q c o, (s.putTime v).readyRec p q c o = s.readyRec p q c o) ∧
    (∀ p q c o, (s.putTime v).runningRec p q c o = s.runningRec p q c o) ∧ (∀ a, (s.putTime v).share a = s.share a) ∧
    (∀ k n, (s.putTime v).isFenced k n = s.isFenced k n) ∧ (∀ l, (s.putTime v).link? l = s.link? l) ∧ (s.putTime v).nodeId = s.nodeId ∧
    (∀ l u, (s.putTime v).trim l u = s.trim l u) ∧ (∀ i, (s.putTime v).calU i = s.calU i) := by
  refine ⟨?_, ?_, ?_, ?_, ?_, ?_, ?_, ?_, ?_, ?_, ?_, ?_, ?_, ?_, ?_, ?_, ?_, ?_, ?_, ?_, ?_, ?_, ?_, ?_, ?_, ?_, ?_, ?_, ?_, ?_, ?_, ?_, ?_, ?_, ?_, ?_, ?_, ?_, ?_, ?_, ?_, ?_, ?_, ?_, ?_, ?_, ?_, ?_, ?_, ?_, ?_, ?_, ?_, ?_, ?_, ?_, ?_, ?_, ?_, ?_, ?_, ?_⟩ <;> intros <;> rfl

@[simp] theorem State.putFree_reads (s : State) (v : Nat) :
    (s.putFree v).free = v ∧ (s.putFree v).pending = s.pending ∧ (s.putFree v).time = s.time ∧ (s.putFree v).regs = s.regs ∧
    (s.putFree v).ctrs = s.ctrs ∧ (s.putFree v).owned = s.owned ∧ (s.putFree v).winReg = s.winReg ∧ (s.putFree v).queues = s.queues ∧
    (s.putFree v).recs = s.recs ∧ (s.putFree v).nextRec = s.nextRec ∧ (s.putFree v).fetchNo = s.fetchNo ∧ (s.putFree v).ctxs = s.ctxs ∧
    (s.putFree v).parts = s.parts ∧ (s.putFree v).shares = s.shares ∧ (s.putFree v).vfEn = s.vfEn ∧ (s.putFree v).numVfs = s.numVfs ∧
    (s.putFree v).out = s.out ∧ (s.putFree v).mem = s.mem ∧ (s.putFree v).fab = s.fab ∧ (s.putFree v).flt = s.flt ∧ (s.putFree v).log = s.log ∧
    (s.putFree v).sels = s.sels ∧ (s.putFree v).results = s.results ∧ (s.putFree v).bank = s.bank ∧ (s.putFree v).tokens = s.tokens ∧
    (s.putFree v).corpora = s.corpora ∧ (s.putFree v).builds = s.builds ∧ (s.putFree v).queries = s.queries ∧ (s.putFree v).arrays = s.arrays ∧
    (s.putFree v).atokens = s.atokens ∧ (s.putFree v).models = s.models ∧ (s.putFree v).oldModels = s.oldModels ∧ (s.putFree v).arrWork = s.arrWork ∧
    (s.putFree v).trims = s.trims ∧ (s.putFree v).flash = s.flash ∧ (s.putFree v).emb = s.emb ∧ (s.putFree v).load = s.load ∧
    (s.putFree v).sec = s.sec ∧ (s.putFree v).cal = s.cal ∧ (s.putFree v).margins = s.margins ∧ (s.putFree v).smb = s.smb ∧
    (s.putFree v).board = s.board ∧ (s.putFree v).now = s.now ∧ (∀ o, (s.putFree v).reg o = s.reg o) ∧ (∀ o f, (s.putFree v).fld o f = s.fld o f) ∧
    (∀ p o, (s.putFree v).regPf p o = s.regPf p o) ∧ (∀ p o f, (s.putFree v).fldPf p o f = s.fldPf p o f) ∧ (∀ o, (s.putFree v).ctr o = s.ctr o) ∧
    (∀ p, (s.putFree v).part p = s.part p) ∧ (∀ p, (s.putFree v).pcfg p = s.pcfg p) ∧ (∀ p, (s.putFree v).configured p = s.configured p) ∧
    (∀ p, (s.putFree v).pstate p = s.pstate p) ∧ (s.putFree v).isReady = s.isReady ∧ (∀ p q, (s.putFree v).queue p q = s.queue p q) ∧
    (∀ p q c, (s.putFree v).recOf p q c = s.recOf p q c) ∧ (∀ p q c o, (s.putFree v).readyRec p q c o = s.readyRec p q c o) ∧
    (∀ p q c o, (s.putFree v).runningRec p q c o = s.runningRec p q c o) ∧ (∀ a, (s.putFree v).share a = s.share a) ∧
    (∀ k n, (s.putFree v).isFenced k n = s.isFenced k n) ∧ (∀ l, (s.putFree v).link? l = s.link? l) ∧ (s.putFree v).nodeId = s.nodeId ∧
    (∀ l u, (s.putFree v).trim l u = s.trim l u) ∧ (∀ i, (s.putFree v).calU i = s.calU i) := by
  refine ⟨?_, ?_, ?_, ?_, ?_, ?_, ?_, ?_, ?_, ?_, ?_, ?_, ?_, ?_, ?_, ?_, ?_, ?_, ?_, ?_, ?_, ?_, ?_, ?_, ?_, ?_, ?_, ?_, ?_, ?_, ?_, ?_, ?_, ?_, ?_, ?_, ?_, ?_, ?_, ?_, ?_, ?_, ?_, ?_, ?_, ?_, ?_, ?_, ?_, ?_, ?_, ?_, ?_, ?_, ?_, ?_, ?_, ?_, ?_, ?_, ?_, ?_, ?_⟩ <;> intros <;> rfl

@[simp] theorem State.putRegs_reads (s : State) (v : KV Word) :
    (s.putRegs v).regs = v ∧ (s.putRegs v).pending = s.pending ∧ (s.putRegs v).time = s.time ∧ (s.putRegs v).free = s.free ∧
    (s.putRegs v).ctrs = s.ctrs ∧ (s.putRegs v).owned = s.owned ∧ (s.putRegs v).winReg = s.winReg ∧ (s.putRegs v).queues = s.queues ∧
    (s.putRegs v).recs = s.recs ∧ (s.putRegs v).nextRec = s.nextRec ∧ (s.putRegs v).fetchNo = s.fetchNo ∧ (s.putRegs v).ctxs = s.ctxs ∧
    (s.putRegs v).parts = s.parts ∧ (s.putRegs v).shares = s.shares ∧ (s.putRegs v).vfEn = s.vfEn ∧ (s.putRegs v).numVfs = s.numVfs ∧
    (s.putRegs v).out = s.out ∧ (s.putRegs v).mem = s.mem ∧ (s.putRegs v).fab = s.fab ∧ (s.putRegs v).flt = s.flt ∧ (s.putRegs v).log = s.log ∧
    (s.putRegs v).sels = s.sels ∧ (s.putRegs v).results = s.results ∧ (s.putRegs v).bank = s.bank ∧ (s.putRegs v).tokens = s.tokens ∧
    (s.putRegs v).corpora = s.corpora ∧ (s.putRegs v).builds = s.builds ∧ (s.putRegs v).queries = s.queries ∧ (s.putRegs v).arrays = s.arrays ∧
    (s.putRegs v).atokens = s.atokens ∧ (s.putRegs v).models = s.models ∧ (s.putRegs v).oldModels = s.oldModels ∧ (s.putRegs v).arrWork = s.arrWork ∧
    (s.putRegs v).trims = s.trims ∧ (s.putRegs v).flash = s.flash ∧ (s.putRegs v).emb = s.emb ∧ (s.putRegs v).load = s.load ∧
    (s.putRegs v).sec = s.sec ∧ (s.putRegs v).cal = s.cal ∧ (s.putRegs v).margins = s.margins ∧ (s.putRegs v).smb = s.smb ∧
    (s.putRegs v).board = s.board ∧ (s.putRegs v).now = s.now ∧ (∀ o, (s.putRegs v).ctr o = s.ctr o) ∧ (∀ p, (s.putRegs v).part p = s.part p) ∧
    (∀ p, (s.putRegs v).pcfg p = s.pcfg p) ∧ (∀ p, (s.putRegs v).configured p = s.configured p) ∧ (∀ p q, (s.putRegs v).queue p q = s.queue p q) ∧
    (∀ p q c, (s.putRegs v).recOf p q c = s.recOf p q c) ∧ (∀ p q c o, (s.putRegs v).readyRec p q c o = s.readyRec p q c o) ∧
    (∀ p q c o, (s.putRegs v).runningRec p q c o = s.runningRec p q c o) ∧ (∀ a, (s.putRegs v).share a = s.share a) ∧
    (∀ k n, (s.putRegs v).isFenced k n = s.isFenced k n) ∧ (∀ l, (s.putRegs v).link? l = s.link? l) ∧ (∀ l u, (s.putRegs v).trim l u = s.trim l u) ∧
    (∀ i, (s.putRegs v).calU i = s.calU i) := by
  refine ⟨?_, ?_, ?_, ?_, ?_, ?_, ?_, ?_, ?_, ?_, ?_, ?_, ?_, ?_, ?_, ?_, ?_, ?_, ?_, ?_, ?_, ?_, ?_, ?_, ?_, ?_, ?_, ?_, ?_, ?_, ?_, ?_, ?_, ?_, ?_, ?_, ?_, ?_, ?_, ?_, ?_, ?_, ?_, ?_, ?_, ?_, ?_, ?_, ?_, ?_, ?_, ?_, ?_, ?_, ?_, ?_⟩ <;> intros <;> rfl

@[simp] theorem State.putCtrs_reads (s : State) (v : KV Nat) :
    (s.putCtrs v).ctrs = v ∧ (s.putCtrs v).pending = s.pending ∧ (s.putCtrs v).time = s.time ∧ (s.putCtrs v).free = s.free ∧
    (s.putCtrs v).regs = s.regs ∧ (s.putCtrs v).owned = s.owned ∧ (s.putCtrs v).winReg = s.winReg ∧ (s.putCtrs v).queues = s.queues ∧
    (s.putCtrs v).recs = s.recs ∧ (s.putCtrs v).nextRec = s.nextRec ∧ (s.putCtrs v).fetchNo = s.fetchNo ∧ (s.putCtrs v).ctxs = s.ctxs ∧
    (s.putCtrs v).parts = s.parts ∧ (s.putCtrs v).shares = s.shares ∧ (s.putCtrs v).vfEn = s.vfEn ∧ (s.putCtrs v).numVfs = s.numVfs ∧
    (s.putCtrs v).out = s.out ∧ (s.putCtrs v).mem = s.mem ∧ (s.putCtrs v).fab = s.fab ∧ (s.putCtrs v).flt = s.flt ∧ (s.putCtrs v).log = s.log ∧
    (s.putCtrs v).sels = s.sels ∧ (s.putCtrs v).results = s.results ∧ (s.putCtrs v).bank = s.bank ∧ (s.putCtrs v).tokens = s.tokens ∧
    (s.putCtrs v).corpora = s.corpora ∧ (s.putCtrs v).builds = s.builds ∧ (s.putCtrs v).queries = s.queries ∧ (s.putCtrs v).arrays = s.arrays ∧
    (s.putCtrs v).atokens = s.atokens ∧ (s.putCtrs v).models = s.models ∧ (s.putCtrs v).oldModels = s.oldModels ∧ (s.putCtrs v).arrWork = s.arrWork ∧
    (s.putCtrs v).trims = s.trims ∧ (s.putCtrs v).flash = s.flash ∧ (s.putCtrs v).emb = s.emb ∧ (s.putCtrs v).load = s.load ∧
    (s.putCtrs v).sec = s.sec ∧ (s.putCtrs v).cal = s.cal ∧ (s.putCtrs v).margins = s.margins ∧ (s.putCtrs v).smb = s.smb ∧
    (s.putCtrs v).board = s.board ∧ (s.putCtrs v).now = s.now ∧ (∀ o, (s.putCtrs v).reg o = s.reg o) ∧ (∀ o f, (s.putCtrs v).fld o f = s.fld o f) ∧
    (∀ p o, (s.putCtrs v).regPf p o = s.regPf p o) ∧ (∀ p o f, (s.putCtrs v).fldPf p o f = s.fldPf p o f) ∧ (∀ p, (s.putCtrs v).part p = s.part p) ∧
    (∀ p, (s.putCtrs v).pcfg p = s.pcfg p) ∧ (∀ p, (s.putCtrs v).configured p = s.configured p) ∧ (∀ p, (s.putCtrs v).pstate p = s.pstate p) ∧
    (s.putCtrs v).isReady = s.isReady ∧ (∀ p q, (s.putCtrs v).queue p q = s.queue p q) ∧ (∀ p q c, (s.putCtrs v).recOf p q c = s.recOf p q c) ∧
    (∀ p q c o, (s.putCtrs v).readyRec p q c o = s.readyRec p q c o) ∧ (∀ p q c o, (s.putCtrs v).runningRec p q c o = s.runningRec p q c o) ∧
    (∀ a, (s.putCtrs v).share a = s.share a) ∧ (∀ k n, (s.putCtrs v).isFenced k n = s.isFenced k n) ∧ (∀ l, (s.putCtrs v).link? l = s.link? l) ∧
    (s.putCtrs v).nodeId = s.nodeId ∧ (∀ l u, (s.putCtrs v).trim l u = s.trim l u) ∧ (∀ i, (s.putCtrs v).calU i = s.calU i) := by
  refine ⟨?_, ?_, ?_, ?_, ?_, ?_, ?_, ?_, ?_, ?_, ?_, ?_, ?_, ?_, ?_, ?_, ?_, ?_, ?_, ?_, ?_, ?_, ?_, ?_, ?_, ?_, ?_, ?_, ?_, ?_, ?_, ?_, ?_, ?_, ?_, ?_, ?_, ?_, ?_, ?_, ?_, ?_, ?_, ?_, ?_, ?_, ?_, ?_, ?_, ?_, ?_, ?_, ?_, ?_, ?_, ?_, ?_, ?_, ?_, ?_, ?_, ?_⟩ <;> intros <;> rfl

@[simp] theorem State.putOwned_reads (s : State) (v : List Nat) :
    (s.putOwned v).owned = v ∧ (s.putOwned v).pending = s.pending ∧ (s.putOwned v).time = s.time ∧ (s.putOwned v).free = s.free ∧
    (s.putOwned v).regs = s.regs ∧ (s.putOwned v).ctrs = s.ctrs ∧ (s.putOwned v).winReg = s.winReg ∧ (s.putOwned v).queues = s.queues ∧
    (s.putOwned v).recs = s.recs ∧ (s.putOwned v).nextRec = s.nextRec ∧ (s.putOwned v).fetchNo = s.fetchNo ∧ (s.putOwned v).ctxs = s.ctxs ∧
    (s.putOwned v).parts = s.parts ∧ (s.putOwned v).shares = s.shares ∧ (s.putOwned v).vfEn = s.vfEn ∧ (s.putOwned v).numVfs = s.numVfs ∧
    (s.putOwned v).out = s.out ∧ (s.putOwned v).mem = s.mem ∧ (s.putOwned v).fab = s.fab ∧ (s.putOwned v).flt = s.flt ∧ (s.putOwned v).log = s.log ∧
    (s.putOwned v).sels = s.sels ∧ (s.putOwned v).results = s.results ∧ (s.putOwned v).bank = s.bank ∧ (s.putOwned v).tokens = s.tokens ∧
    (s.putOwned v).corpora = s.corpora ∧ (s.putOwned v).builds = s.builds ∧ (s.putOwned v).queries = s.queries ∧ (s.putOwned v).arrays = s.arrays ∧
    (s.putOwned v).atokens = s.atokens ∧ (s.putOwned v).models = s.models ∧ (s.putOwned v).oldModels = s.oldModels ∧
    (s.putOwned v).arrWork = s.arrWork ∧ (s.putOwned v).trims = s.trims ∧ (s.putOwned v).flash = s.flash ∧ (s.putOwned v).emb = s.emb ∧
    (s.putOwned v).load = s.load ∧ (s.putOwned v).sec = s.sec ∧ (s.putOwned v).cal = s.cal ∧ (s.putOwned v).margins = s.margins ∧
    (s.putOwned v).smb = s.smb ∧ (s.putOwned v).board = s.board ∧ (s.putOwned v).now = s.now ∧ (∀ o, (s.putOwned v).reg o = s.reg o) ∧
    (∀ o f, (s.putOwned v).fld o f = s.fld o f) ∧ (∀ p o, (s.putOwned v).regPf p o = s.regPf p o) ∧
    (∀ p o f, (s.putOwned v).fldPf p o f = s.fldPf p o f) ∧ (∀ o, (s.putOwned v).ctr o = s.ctr o) ∧ (∀ p, (s.putOwned v).part p = s.part p) ∧
    (∀ p, (s.putOwned v).pcfg p = s.pcfg p) ∧ (∀ p, (s.putOwned v).configured p = s.configured p) ∧ (∀ p, (s.putOwned v).pstate p = s.pstate p) ∧
    (s.putOwned v).isReady = s.isReady ∧ (∀ p q, (s.putOwned v).queue p q = s.queue p q) ∧ (∀ p q c, (s.putOwned v).recOf p q c = s.recOf p q c) ∧
    (∀ p q c o, (s.putOwned v).readyRec p q c o = s.readyRec p q c o) ∧ (∀ p q c o, (s.putOwned v).runningRec p q c o = s.runningRec p q c o) ∧
    (∀ a, (s.putOwned v).share a = s.share a) ∧ (∀ k n, (s.putOwned v).isFenced k n = s.isFenced k n) ∧ (∀ l, (s.putOwned v).link? l = s.link? l) ∧
    (s.putOwned v).nodeId = s.nodeId ∧ (∀ l u, (s.putOwned v).trim l u = s.trim l u) ∧ (∀ i, (s.putOwned v).calU i = s.calU i) := by
  refine ⟨?_, ?_, ?_, ?_, ?_, ?_, ?_, ?_, ?_, ?_, ?_, ?_, ?_, ?_, ?_, ?_, ?_, ?_, ?_, ?_, ?_, ?_, ?_, ?_, ?_, ?_, ?_, ?_, ?_, ?_, ?_, ?_, ?_, ?_, ?_, ?_, ?_, ?_, ?_, ?_, ?_, ?_, ?_, ?_, ?_, ?_, ?_, ?_, ?_, ?_, ?_, ?_, ?_, ?_, ?_, ?_, ?_, ?_, ?_, ?_, ?_, ?_, ?_⟩ <;> intros <;> rfl

@[simp] theorem State.putWinReg_reads (s : State) (v : KV Word) :
    (s.putWinReg v).winReg = v ∧ (s.putWinReg v).pending = s.pending ∧ (s.putWinReg v).time = s.time ∧ (s.putWinReg v).free = s.free ∧
    (s.putWinReg v).regs = s.regs ∧ (s.putWinReg v).ctrs = s.ctrs ∧ (s.putWinReg v).owned = s.owned ∧ (s.putWinReg v).queues = s.queues ∧
    (s.putWinReg v).recs = s.recs ∧ (s.putWinReg v).nextRec = s.nextRec ∧ (s.putWinReg v).fetchNo = s.fetchNo ∧ (s.putWinReg v).ctxs = s.ctxs ∧
    (s.putWinReg v).parts = s.parts ∧ (s.putWinReg v).shares = s.shares ∧ (s.putWinReg v).vfEn = s.vfEn ∧ (s.putWinReg v).numVfs = s.numVfs ∧
    (s.putWinReg v).out = s.out ∧ (s.putWinReg v).mem = s.mem ∧ (s.putWinReg v).fab = s.fab ∧ (s.putWinReg v).flt = s.flt ∧
    (s.putWinReg v).log = s.log ∧ (s.putWinReg v).sels = s.sels ∧ (s.putWinReg v).results = s.results ∧ (s.putWinReg v).bank = s.bank ∧
    (s.putWinReg v).tokens = s.tokens ∧ (s.putWinReg v).corpora = s.corpora ∧ (s.putWinReg v).builds = s.builds ∧ (s.putWinReg v).queries = s.queries ∧
    (s.putWinReg v).arrays = s.arrays ∧ (s.putWinReg v).atokens = s.atokens ∧ (s.putWinReg v).models = s.models ∧
    (s.putWinReg v).oldModels = s.oldModels ∧ (s.putWinReg v).arrWork = s.arrWork ∧ (s.putWinReg v).trims = s.trims ∧ (s.putWinReg v).flash = s.flash ∧
    (s.putWinReg v).emb = s.emb ∧ (s.putWinReg v).load = s.load ∧ (s.putWinReg v).sec = s.sec ∧ (s.putWinReg v).cal = s.cal ∧
    (s.putWinReg v).margins = s.margins ∧ (s.putWinReg v).smb = s.smb ∧ (s.putWinReg v).board = s.board ∧ (s.putWinReg v).now = s.now ∧
    (∀ o, (s.putWinReg v).reg o = s.reg o) ∧ (∀ o f, (s.putWinReg v).fld o f = s.fld o f) ∧ (∀ p o, (s.putWinReg v).regPf p o = s.regPf p o) ∧
    (∀ p o f, (s.putWinReg v).fldPf p o f = s.fldPf p o f) ∧ (∀ o, (s.putWinReg v).ctr o = s.ctr o) ∧ (∀ p, (s.putWinReg v).part p = s.part p) ∧
    (∀ p, (s.putWinReg v).pcfg p = s.pcfg p) ∧ (∀ p, (s.putWinReg v).configured p = s.configured p) ∧ (∀ p, (s.putWinReg v).pstate p = s.pstate p) ∧
    (s.putWinReg v).isReady = s.isReady ∧ (∀ p q, (s.putWinReg v).queue p q = s.queue p q) ∧ (∀ p q c, (s.putWinReg v).recOf p q c = s.recOf p q c) ∧
    (∀ p q c o, (s.putWinReg v).readyRec p q c o = s.readyRec p q c o) ∧ (∀ p q c o, (s.putWinReg v).runningRec p q c o = s.runningRec p q c o) ∧
    (∀ a, (s.putWinReg v).share a = s.share a) ∧ (∀ k n, (s.putWinReg v).isFenced k n = s.isFenced k n) ∧ (∀ l, (s.putWinReg v).link? l = s.link? l) ∧
    (s.putWinReg v).nodeId = s.nodeId ∧ (∀ l u, (s.putWinReg v).trim l u = s.trim l u) ∧ (∀ i, (s.putWinReg v).calU i = s.calU i) := by
  refine ⟨?_, ?_, ?_, ?_, ?_, ?_, ?_, ?_, ?_, ?_, ?_, ?_, ?_, ?_, ?_, ?_, ?_, ?_, ?_, ?_, ?_, ?_, ?_, ?_, ?_, ?_, ?_, ?_, ?_, ?_, ?_, ?_, ?_, ?_, ?_, ?_, ?_, ?_, ?_, ?_, ?_, ?_, ?_, ?_, ?_, ?_, ?_, ?_, ?_, ?_, ?_, ?_, ?_, ?_, ?_, ?_, ?_, ?_, ?_, ?_, ?_, ?_, ?_⟩ <;> intros <;> rfl

@[simp] theorem State.putQueues_reads (s : State) (v : KV Queue) :
    (s.putQueues v).queues = v ∧ (s.putQueues v).pending = s.pending ∧ (s.putQueues v).time = s.time ∧ (s.putQueues v).free = s.free ∧
    (s.putQueues v).regs = s.regs ∧ (s.putQueues v).ctrs = s.ctrs ∧ (s.putQueues v).owned = s.owned ∧ (s.putQueues v).winReg = s.winReg ∧
    (s.putQueues v).recs = s.recs ∧ (s.putQueues v).nextRec = s.nextRec ∧ (s.putQueues v).fetchNo = s.fetchNo ∧ (s.putQueues v).ctxs = s.ctxs ∧
    (s.putQueues v).parts = s.parts ∧ (s.putQueues v).shares = s.shares ∧ (s.putQueues v).vfEn = s.vfEn ∧ (s.putQueues v).numVfs = s.numVfs ∧
    (s.putQueues v).out = s.out ∧ (s.putQueues v).mem = s.mem ∧ (s.putQueues v).fab = s.fab ∧ (s.putQueues v).flt = s.flt ∧
    (s.putQueues v).log = s.log ∧ (s.putQueues v).sels = s.sels ∧ (s.putQueues v).results = s.results ∧ (s.putQueues v).bank = s.bank ∧
    (s.putQueues v).tokens = s.tokens ∧ (s.putQueues v).corpora = s.corpora ∧ (s.putQueues v).builds = s.builds ∧ (s.putQueues v).queries = s.queries ∧
    (s.putQueues v).arrays = s.arrays ∧ (s.putQueues v).atokens = s.atokens ∧ (s.putQueues v).models = s.models ∧
    (s.putQueues v).oldModels = s.oldModels ∧ (s.putQueues v).arrWork = s.arrWork ∧ (s.putQueues v).trims = s.trims ∧ (s.putQueues v).flash = s.flash ∧
    (s.putQueues v).emb = s.emb ∧ (s.putQueues v).load = s.load ∧ (s.putQueues v).sec = s.sec ∧ (s.putQueues v).cal = s.cal ∧
    (s.putQueues v).margins = s.margins ∧ (s.putQueues v).smb = s.smb ∧ (s.putQueues v).board = s.board ∧ (s.putQueues v).now = s.now ∧
    (∀ o, (s.putQueues v).reg o = s.reg o) ∧ (∀ o f, (s.putQueues v).fld o f = s.fld o f) ∧ (∀ p o, (s.putQueues v).regPf p o = s.regPf p o) ∧
    (∀ p o f, (s.putQueues v).fldPf p o f = s.fldPf p o f) ∧ (∀ o, (s.putQueues v).ctr o = s.ctr o) ∧ (∀ p, (s.putQueues v).part p = s.part p) ∧
    (∀ p, (s.putQueues v).pcfg p = s.pcfg p) ∧ (∀ p, (s.putQueues v).configured p = s.configured p) ∧ (∀ p, (s.putQueues v).pstate p = s.pstate p) ∧
    (s.putQueues v).isReady = s.isReady ∧ (∀ p q c, (s.putQueues v).recOf p q c = s.recOf p q c) ∧
    (∀ p q c o, (s.putQueues v).readyRec p q c o = s.readyRec p q c o) ∧ (∀ p q c o, (s.putQueues v).runningRec p q c o = s.runningRec p q c o) ∧
    (∀ a, (s.putQueues v).share a = s.share a) ∧ (∀ k n, (s.putQueues v).isFenced k n = s.isFenced k n) ∧ (∀ l, (s.putQueues v).link? l = s.link? l) ∧
    (s.putQueues v).nodeId = s.nodeId ∧ (∀ l u, (s.putQueues v).trim l u = s.trim l u) ∧ (∀ i, (s.putQueues v).calU i = s.calU i) := by
  refine ⟨?_, ?_, ?_, ?_, ?_, ?_, ?_, ?_, ?_, ?_, ?_, ?_, ?_, ?_, ?_, ?_, ?_, ?_, ?_, ?_, ?_, ?_, ?_, ?_, ?_, ?_, ?_, ?_, ?_, ?_, ?_, ?_, ?_, ?_, ?_, ?_, ?_, ?_, ?_, ?_, ?_, ?_, ?_, ?_, ?_, ?_, ?_, ?_, ?_, ?_, ?_, ?_, ?_, ?_, ?_, ?_, ?_, ?_, ?_, ?_, ?_, ?_⟩ <;> intros <;> rfl

@[simp] theorem State.putRecs_reads (s : State) (v : KV Rec) :
    (s.putRecs v).recs = v ∧ (s.putRecs v).pending = s.pending ∧ (s.putRecs v).time = s.time ∧ (s.putRecs v).free = s.free ∧
    (s.putRecs v).regs = s.regs ∧ (s.putRecs v).ctrs = s.ctrs ∧ (s.putRecs v).owned = s.owned ∧ (s.putRecs v).winReg = s.winReg ∧
    (s.putRecs v).queues = s.queues ∧ (s.putRecs v).nextRec = s.nextRec ∧ (s.putRecs v).fetchNo = s.fetchNo ∧ (s.putRecs v).ctxs = s.ctxs ∧
    (s.putRecs v).parts = s.parts ∧ (s.putRecs v).shares = s.shares ∧ (s.putRecs v).vfEn = s.vfEn ∧ (s.putRecs v).numVfs = s.numVfs ∧
    (s.putRecs v).out = s.out ∧ (s.putRecs v).mem = s.mem ∧ (s.putRecs v).fab = s.fab ∧ (s.putRecs v).flt = s.flt ∧ (s.putRecs v).log = s.log ∧
    (s.putRecs v).sels = s.sels ∧ (s.putRecs v).results = s.results ∧ (s.putRecs v).bank = s.bank ∧ (s.putRecs v).tokens = s.tokens ∧
    (s.putRecs v).corpora = s.corpora ∧ (s.putRecs v).builds = s.builds ∧ (s.putRecs v).queries = s.queries ∧ (s.putRecs v).arrays = s.arrays ∧
    (s.putRecs v).atokens = s.atokens ∧ (s.putRecs v).models = s.models ∧ (s.putRecs v).oldModels = s.oldModels ∧ (s.putRecs v).arrWork = s.arrWork ∧
    (s.putRecs v).trims = s.trims ∧ (s.putRecs v).flash = s.flash ∧ (s.putRecs v).emb = s.emb ∧ (s.putRecs v).load = s.load ∧
    (s.putRecs v).sec = s.sec ∧ (s.putRecs v).cal = s.cal ∧ (s.putRecs v).margins = s.margins ∧ (s.putRecs v).smb = s.smb ∧
    (s.putRecs v).board = s.board ∧ (s.putRecs v).now = s.now ∧ (∀ o, (s.putRecs v).reg o = s.reg o) ∧ (∀ o f, (s.putRecs v).fld o f = s.fld o f) ∧
    (∀ p o, (s.putRecs v).regPf p o = s.regPf p o) ∧ (∀ p o f, (s.putRecs v).fldPf p o f = s.fldPf p o f) ∧ (∀ o, (s.putRecs v).ctr o = s.ctr o) ∧
    (∀ p, (s.putRecs v).part p = s.part p) ∧ (∀ p, (s.putRecs v).pcfg p = s.pcfg p) ∧ (∀ p, (s.putRecs v).configured p = s.configured p) ∧
    (∀ p, (s.putRecs v).pstate p = s.pstate p) ∧ (s.putRecs v).isReady = s.isReady ∧ (∀ p q, (s.putRecs v).queue p q = s.queue p q) ∧
    (∀ a, (s.putRecs v).share a = s.share a) ∧ (∀ k n, (s.putRecs v).isFenced k n = s.isFenced k n) ∧ (∀ l, (s.putRecs v).link? l = s.link? l) ∧
    (s.putRecs v).nodeId = s.nodeId ∧ (∀ l u, (s.putRecs v).trim l u = s.trim l u) ∧ (∀ i, (s.putRecs v).calU i = s.calU i) := by
  refine ⟨?_, ?_, ?_, ?_, ?_, ?_, ?_, ?_, ?_, ?_, ?_, ?_, ?_, ?_, ?_, ?_, ?_, ?_, ?_, ?_, ?_, ?_, ?_, ?_, ?_, ?_, ?_, ?_, ?_, ?_, ?_, ?_, ?_, ?_, ?_, ?_, ?_, ?_, ?_, ?_, ?_, ?_, ?_, ?_, ?_, ?_, ?_, ?_, ?_, ?_, ?_, ?_, ?_, ?_, ?_, ?_, ?_, ?_, ?_, ?_⟩ <;> intros <;> rfl

@[simp] theorem State.putNextRec_reads (s : State) (v : Nat) :
    (s.putNextRec v).nextRec = v ∧ (s.putNextRec v).pending = s.pending ∧ (s.putNextRec v).time = s.time ∧ (s.putNextRec v).free = s.free ∧
    (s.putNextRec v).regs = s.regs ∧ (s.putNextRec v).ctrs = s.ctrs ∧ (s.putNextRec v).owned = s.owned ∧ (s.putNextRec v).winReg = s.winReg ∧
    (s.putNextRec v).queues = s.queues ∧ (s.putNextRec v).recs = s.recs ∧ (s.putNextRec v).fetchNo = s.fetchNo ∧ (s.putNextRec v).ctxs = s.ctxs ∧
    (s.putNextRec v).parts = s.parts ∧ (s.putNextRec v).shares = s.shares ∧ (s.putNextRec v).vfEn = s.vfEn ∧ (s.putNextRec v).numVfs = s.numVfs ∧
    (s.putNextRec v).out = s.out ∧ (s.putNextRec v).mem = s.mem ∧ (s.putNextRec v).fab = s.fab ∧ (s.putNextRec v).flt = s.flt ∧
    (s.putNextRec v).log = s.log ∧ (s.putNextRec v).sels = s.sels ∧ (s.putNextRec v).results = s.results ∧ (s.putNextRec v).bank = s.bank ∧
    (s.putNextRec v).tokens = s.tokens ∧ (s.putNextRec v).corpora = s.corpora ∧ (s.putNextRec v).builds = s.builds ∧
    (s.putNextRec v).queries = s.queries ∧ (s.putNextRec v).arrays = s.arrays ∧ (s.putNextRec v).atokens = s.atokens ∧
    (s.putNextRec v).models = s.models ∧ (s.putNextRec v).oldModels = s.oldModels ∧ (s.putNextRec v).arrWork = s.arrWork ∧
    (s.putNextRec v).trims = s.trims ∧ (s.putNextRec v).flash = s.flash ∧ (s.putNextRec v).emb = s.emb ∧ (s.putNextRec v).load = s.load ∧
    (s.putNextRec v).sec = s.sec ∧ (s.putNextRec v).cal = s.cal ∧ (s.putNextRec v).margins = s.margins ∧ (s.putNextRec v).smb = s.smb ∧
    (s.putNextRec v).board = s.board ∧ (s.putNextRec v).now = s.now ∧ (∀ o, (s.putNextRec v).reg o = s.reg o) ∧
    (∀ o f, (s.putNextRec v).fld o f = s.fld o f) ∧ (∀ p o, (s.putNextRec v).regPf p o = s.regPf p o) ∧
    (∀ p o f, (s.putNextRec v).fldPf p o f = s.fldPf p o f) ∧ (∀ o, (s.putNextRec v).ctr o = s.ctr o) ∧ (∀ p, (s.putNextRec v).part p = s.part p) ∧
    (∀ p, (s.putNextRec v).pcfg p = s.pcfg p) ∧ (∀ p, (s.putNextRec v).configured p = s.configured p) ∧ (∀ p, (s.putNextRec v).pstate p = s.pstate p) ∧
    (s.putNextRec v).isReady = s.isReady ∧ (∀ p q, (s.putNextRec v).queue p q = s.queue p q) ∧
    (∀ p q c, (s.putNextRec v).recOf p q c = s.recOf p q c) ∧ (∀ p q c o, (s.putNextRec v).readyRec p q c o = s.readyRec p q c o) ∧
    (∀ p q c o, (s.putNextRec v).runningRec p q c o = s.runningRec p q c o) ∧ (∀ a, (s.putNextRec v).share a = s.share a) ∧
    (∀ k n, (s.putNextRec v).isFenced k n = s.isFenced k n) ∧ (∀ l, (s.putNextRec v).link? l = s.link? l) ∧ (s.putNextRec v).nodeId = s.nodeId ∧
    (∀ l u, (s.putNextRec v).trim l u = s.trim l u) ∧ (∀ i, (s.putNextRec v).calU i = s.calU i) := by
  refine ⟨?_, ?_, ?_, ?_, ?_, ?_, ?_, ?_, ?_, ?_, ?_, ?_, ?_, ?_, ?_, ?_, ?_, ?_, ?_, ?_, ?_, ?_, ?_, ?_, ?_, ?_, ?_, ?_, ?_, ?_, ?_, ?_, ?_, ?_, ?_, ?_, ?_, ?_, ?_, ?_, ?_, ?_, ?_, ?_, ?_, ?_, ?_, ?_, ?_, ?_, ?_, ?_, ?_, ?_, ?_, ?_, ?_, ?_, ?_, ?_, ?_, ?_, ?_⟩ <;> intros <;> rfl

@[simp] theorem State.putFetchNo_reads (s : State) (v : Nat) :
    (s.putFetchNo v).fetchNo = v ∧ (s.putFetchNo v).pending = s.pending ∧ (s.putFetchNo v).time = s.time ∧ (s.putFetchNo v).free = s.free ∧
    (s.putFetchNo v).regs = s.regs ∧ (s.putFetchNo v).ctrs = s.ctrs ∧ (s.putFetchNo v).owned = s.owned ∧ (s.putFetchNo v).winReg = s.winReg ∧
    (s.putFetchNo v).queues = s.queues ∧ (s.putFetchNo v).recs = s.recs ∧ (s.putFetchNo v).nextRec = s.nextRec ∧ (s.putFetchNo v).ctxs = s.ctxs ∧
    (s.putFetchNo v).parts = s.parts ∧ (s.putFetchNo v).shares = s.shares ∧ (s.putFetchNo v).vfEn = s.vfEn ∧ (s.putFetchNo v).numVfs = s.numVfs ∧
    (s.putFetchNo v).out = s.out ∧ (s.putFetchNo v).mem = s.mem ∧ (s.putFetchNo v).fab = s.fab ∧ (s.putFetchNo v).flt = s.flt ∧
    (s.putFetchNo v).log = s.log ∧ (s.putFetchNo v).sels = s.sels ∧ (s.putFetchNo v).results = s.results ∧ (s.putFetchNo v).bank = s.bank ∧
    (s.putFetchNo v).tokens = s.tokens ∧ (s.putFetchNo v).corpora = s.corpora ∧ (s.putFetchNo v).builds = s.builds ∧
    (s.putFetchNo v).queries = s.queries ∧ (s.putFetchNo v).arrays = s.arrays ∧ (s.putFetchNo v).atokens = s.atokens ∧
    (s.putFetchNo v).models = s.models ∧ (s.putFetchNo v).oldModels = s.oldModels ∧ (s.putFetchNo v).arrWork = s.arrWork ∧
    (s.putFetchNo v).trims = s.trims ∧ (s.putFetchNo v).flash = s.flash ∧ (s.putFetchNo v).emb = s.emb ∧ (s.putFetchNo v).load = s.load ∧
    (s.putFetchNo v).sec = s.sec ∧ (s.putFetchNo v).cal = s.cal ∧ (s.putFetchNo v).margins = s.margins ∧ (s.putFetchNo v).smb = s.smb ∧
    (s.putFetchNo v).board = s.board ∧ (s.putFetchNo v).now = s.now ∧ (∀ o, (s.putFetchNo v).reg o = s.reg o) ∧
    (∀ o f, (s.putFetchNo v).fld o f = s.fld o f) ∧ (∀ p o, (s.putFetchNo v).regPf p o = s.regPf p o) ∧
    (∀ p o f, (s.putFetchNo v).fldPf p o f = s.fldPf p o f) ∧ (∀ o, (s.putFetchNo v).ctr o = s.ctr o) ∧ (∀ p, (s.putFetchNo v).part p = s.part p) ∧
    (∀ p, (s.putFetchNo v).pcfg p = s.pcfg p) ∧ (∀ p, (s.putFetchNo v).configured p = s.configured p) ∧ (∀ p, (s.putFetchNo v).pstate p = s.pstate p) ∧
    (s.putFetchNo v).isReady = s.isReady ∧ (∀ p q, (s.putFetchNo v).queue p q = s.queue p q) ∧
    (∀ p q c, (s.putFetchNo v).recOf p q c = s.recOf p q c) ∧ (∀ p q c o, (s.putFetchNo v).readyRec p q c o = s.readyRec p q c o) ∧
    (∀ p q c o, (s.putFetchNo v).runningRec p q c o = s.runningRec p q c o) ∧ (∀ a, (s.putFetchNo v).share a = s.share a) ∧
    (∀ k n, (s.putFetchNo v).isFenced k n = s.isFenced k n) ∧ (∀ l, (s.putFetchNo v).link? l = s.link? l) ∧ (s.putFetchNo v).nodeId = s.nodeId ∧
    (∀ l u, (s.putFetchNo v).trim l u = s.trim l u) ∧ (∀ i, (s.putFetchNo v).calU i = s.calU i) := by
  refine ⟨?_, ?_, ?_, ?_, ?_, ?_, ?_, ?_, ?_, ?_, ?_, ?_, ?_, ?_, ?_, ?_, ?_, ?_, ?_, ?_, ?_, ?_, ?_, ?_, ?_, ?_, ?_, ?_, ?_, ?_, ?_, ?_, ?_, ?_, ?_, ?_, ?_, ?_, ?_, ?_, ?_, ?_, ?_, ?_, ?_, ?_, ?_, ?_, ?_, ?_, ?_, ?_, ?_, ?_, ?_, ?_, ?_, ?_, ?_, ?_, ?_, ?_, ?_⟩ <;> intros <;> rfl

@[simp] theorem State.putCtxs_reads (s : State) (v : KV Ctx) :
    (s.putCtxs v).ctxs = v ∧ (s.putCtxs v).pending = s.pending ∧ (s.putCtxs v).time = s.time ∧ (s.putCtxs v).free = s.free ∧
    (s.putCtxs v).regs = s.regs ∧ (s.putCtxs v).ctrs = s.ctrs ∧ (s.putCtxs v).owned = s.owned ∧ (s.putCtxs v).winReg = s.winReg ∧
    (s.putCtxs v).queues = s.queues ∧ (s.putCtxs v).recs = s.recs ∧ (s.putCtxs v).nextRec = s.nextRec ∧ (s.putCtxs v).fetchNo = s.fetchNo ∧
    (s.putCtxs v).parts = s.parts ∧ (s.putCtxs v).shares = s.shares ∧ (s.putCtxs v).vfEn = s.vfEn ∧ (s.putCtxs v).numVfs = s.numVfs ∧
    (s.putCtxs v).out = s.out ∧ (s.putCtxs v).mem = s.mem ∧ (s.putCtxs v).fab = s.fab ∧ (s.putCtxs v).flt = s.flt ∧ (s.putCtxs v).log = s.log ∧
    (s.putCtxs v).sels = s.sels ∧ (s.putCtxs v).results = s.results ∧ (s.putCtxs v).bank = s.bank ∧ (s.putCtxs v).tokens = s.tokens ∧
    (s.putCtxs v).corpora = s.corpora ∧ (s.putCtxs v).builds = s.builds ∧ (s.putCtxs v).queries = s.queries ∧ (s.putCtxs v).arrays = s.arrays ∧
    (s.putCtxs v).atokens = s.atokens ∧ (s.putCtxs v).models = s.models ∧ (s.putCtxs v).oldModels = s.oldModels ∧ (s.putCtxs v).arrWork = s.arrWork ∧
    (s.putCtxs v).trims = s.trims ∧ (s.putCtxs v).flash = s.flash ∧ (s.putCtxs v).emb = s.emb ∧ (s.putCtxs v).load = s.load ∧
    (s.putCtxs v).sec = s.sec ∧ (s.putCtxs v).cal = s.cal ∧ (s.putCtxs v).margins = s.margins ∧ (s.putCtxs v).smb = s.smb ∧
    (s.putCtxs v).board = s.board ∧ (s.putCtxs v).now = s.now ∧ (∀ o, (s.putCtxs v).reg o = s.reg o) ∧ (∀ o f, (s.putCtxs v).fld o f = s.fld o f) ∧
    (∀ p o, (s.putCtxs v).regPf p o = s.regPf p o) ∧ (∀ p o f, (s.putCtxs v).fldPf p o f = s.fldPf p o f) ∧ (∀ o, (s.putCtxs v).ctr o = s.ctr o) ∧
    (∀ p, (s.putCtxs v).part p = s.part p) ∧ (∀ p, (s.putCtxs v).pcfg p = s.pcfg p) ∧ (∀ p, (s.putCtxs v).configured p = s.configured p) ∧
    (∀ p, (s.putCtxs v).pstate p = s.pstate p) ∧ (s.putCtxs v).isReady = s.isReady ∧ (∀ p q, (s.putCtxs v).queue p q = s.queue p q) ∧
    (∀ p q c, (s.putCtxs v).recOf p q c = s.recOf p q c) ∧ (∀ p q c o, (s.putCtxs v).readyRec p q c o = s.readyRec p q c o) ∧
    (∀ p q c o, (s.putCtxs v).runningRec p q c o = s.runningRec p q c o) ∧ (∀ a, (s.putCtxs v).share a = s.share a) ∧
    (∀ k n, (s.putCtxs v).isFenced k n = s.isFenced k n) ∧ (∀ l, (s.putCtxs v).link? l = s.link? l) ∧ (s.putCtxs v).nodeId = s.nodeId ∧
    (∀ l u, (s.putCtxs v).trim l u = s.trim l u) ∧ (∀ i, (s.putCtxs v).calU i = s.calU i) := by
  refine ⟨?_, ?_, ?_, ?_, ?_, ?_, ?_, ?_, ?_, ?_, ?_, ?_, ?_, ?_, ?_, ?_, ?_, ?_, ?_, ?_, ?_, ?_, ?_, ?_, ?_, ?_, ?_, ?_, ?_, ?_, ?_, ?_, ?_, ?_, ?_, ?_, ?_, ?_, ?_, ?_, ?_, ?_, ?_, ?_, ?_, ?_, ?_, ?_, ?_, ?_, ?_, ?_, ?_, ?_, ?_, ?_, ?_, ?_, ?_, ?_, ?_, ?_, ?_⟩ <;> intros <;> rfl

@[simp] theorem State.putParts_reads (s : State) (v : KV Part) :
    (s.putParts v).parts = v ∧ (s.putParts v).pending = s.pending ∧ (s.putParts v).time = s.time ∧ (s.putParts v).free = s.free ∧
    (s.putParts v).regs = s.regs ∧ (s.putParts v).ctrs = s.ctrs ∧ (s.putParts v).owned = s.owned ∧ (s.putParts v).winReg = s.winReg ∧
    (s.putParts v).queues = s.queues ∧ (s.putParts v).recs = s.recs ∧ (s.putParts v).nextRec = s.nextRec ∧ (s.putParts v).fetchNo = s.fetchNo ∧
    (s.putParts v).ctxs = s.ctxs ∧ (s.putParts v).shares = s.shares ∧ (s.putParts v).vfEn = s.vfEn ∧ (s.putParts v).numVfs = s.numVfs ∧
    (s.putParts v).out = s.out ∧ (s.putParts v).mem = s.mem ∧ (s.putParts v).fab = s.fab ∧ (s.putParts v).flt = s.flt ∧ (s.putParts v).log = s.log ∧
    (s.putParts v).sels = s.sels ∧ (s.putParts v).results = s.results ∧ (s.putParts v).bank = s.bank ∧ (s.putParts v).tokens = s.tokens ∧
    (s.putParts v).corpora = s.corpora ∧ (s.putParts v).builds = s.builds ∧ (s.putParts v).queries = s.queries ∧ (s.putParts v).arrays = s.arrays ∧
    (s.putParts v).atokens = s.atokens ∧ (s.putParts v).models = s.models ∧ (s.putParts v).oldModels = s.oldModels ∧
    (s.putParts v).arrWork = s.arrWork ∧ (s.putParts v).trims = s.trims ∧ (s.putParts v).flash = s.flash ∧ (s.putParts v).emb = s.emb ∧
    (s.putParts v).load = s.load ∧ (s.putParts v).sec = s.sec ∧ (s.putParts v).cal = s.cal ∧ (s.putParts v).margins = s.margins ∧
    (s.putParts v).smb = s.smb ∧ (s.putParts v).board = s.board ∧ (s.putParts v).now = s.now ∧ (∀ o, (s.putParts v).reg o = s.reg o) ∧
    (∀ o f, (s.putParts v).fld o f = s.fld o f) ∧ (∀ p o, (s.putParts v).regPf p o = s.regPf p o) ∧
    (∀ p o f, (s.putParts v).fldPf p o f = s.fldPf p o f) ∧ (∀ o, (s.putParts v).ctr o = s.ctr o) ∧ (∀ p, (s.putParts v).pstate p = s.pstate p) ∧
    (s.putParts v).isReady = s.isReady ∧ (∀ p q, (s.putParts v).queue p q = s.queue p q) ∧ (∀ p q c, (s.putParts v).recOf p q c = s.recOf p q c) ∧
    (∀ p q c o, (s.putParts v).readyRec p q c o = s.readyRec p q c o) ∧ (∀ p q c o, (s.putParts v).runningRec p q c o = s.runningRec p q c o) ∧
    (∀ a, (s.putParts v).share a = s.share a) ∧ (∀ k n, (s.putParts v).isFenced k n = s.isFenced k n) ∧ (∀ l, (s.putParts v).link? l = s.link? l) ∧
    (s.putParts v).nodeId = s.nodeId ∧ (∀ l u, (s.putParts v).trim l u = s.trim l u) ∧ (∀ i, (s.putParts v).calU i = s.calU i) := by
  refine ⟨?_, ?_, ?_, ?_, ?_, ?_, ?_, ?_, ?_, ?_, ?_, ?_, ?_, ?_, ?_, ?_, ?_, ?_, ?_, ?_, ?_, ?_, ?_, ?_, ?_, ?_, ?_, ?_, ?_, ?_, ?_, ?_, ?_, ?_, ?_, ?_, ?_, ?_, ?_, ?_, ?_, ?_, ?_, ?_, ?_, ?_, ?_, ?_, ?_, ?_, ?_, ?_, ?_, ?_, ?_, ?_, ?_, ?_, ?_, ?_⟩ <;> intros <;> rfl

@[simp] theorem State.putShares_reads (s : State) (v : KV ArrShare) :
    (s.putShares v).shares = v ∧ (s.putShares v).pending = s.pending ∧ (s.putShares v).time = s.time ∧ (s.putShares v).free = s.free ∧
    (s.putShares v).regs = s.regs ∧ (s.putShares v).ctrs = s.ctrs ∧ (s.putShares v).owned = s.owned ∧ (s.putShares v).winReg = s.winReg ∧
    (s.putShares v).queues = s.queues ∧ (s.putShares v).recs = s.recs ∧ (s.putShares v).nextRec = s.nextRec ∧ (s.putShares v).fetchNo = s.fetchNo ∧
    (s.putShares v).ctxs = s.ctxs ∧ (s.putShares v).parts = s.parts ∧ (s.putShares v).vfEn = s.vfEn ∧ (s.putShares v).numVfs = s.numVfs ∧
    (s.putShares v).out = s.out ∧ (s.putShares v).mem = s.mem ∧ (s.putShares v).fab = s.fab ∧ (s.putShares v).flt = s.flt ∧
    (s.putShares v).log = s.log ∧ (s.putShares v).sels = s.sels ∧ (s.putShares v).results = s.results ∧ (s.putShares v).bank = s.bank ∧
    (s.putShares v).tokens = s.tokens ∧ (s.putShares v).corpora = s.corpora ∧ (s.putShares v).builds = s.builds ∧ (s.putShares v).queries = s.queries ∧
    (s.putShares v).arrays = s.arrays ∧ (s.putShares v).atokens = s.atokens ∧ (s.putShares v).models = s.models ∧
    (s.putShares v).oldModels = s.oldModels ∧ (s.putShares v).arrWork = s.arrWork ∧ (s.putShares v).trims = s.trims ∧ (s.putShares v).flash = s.flash ∧
    (s.putShares v).emb = s.emb ∧ (s.putShares v).load = s.load ∧ (s.putShares v).sec = s.sec ∧ (s.putShares v).cal = s.cal ∧
    (s.putShares v).margins = s.margins ∧ (s.putShares v).smb = s.smb ∧ (s.putShares v).board = s.board ∧ (s.putShares v).now = s.now ∧
    (∀ o, (s.putShares v).reg o = s.reg o) ∧ (∀ o f, (s.putShares v).fld o f = s.fld o f) ∧ (∀ p o, (s.putShares v).regPf p o = s.regPf p o) ∧
    (∀ p o f, (s.putShares v).fldPf p o f = s.fldPf p o f) ∧ (∀ o, (s.putShares v).ctr o = s.ctr o) ∧ (∀ p, (s.putShares v).part p = s.part p) ∧
    (∀ p, (s.putShares v).pcfg p = s.pcfg p) ∧ (∀ p, (s.putShares v).configured p = s.configured p) ∧ (∀ p, (s.putShares v).pstate p = s.pstate p) ∧
    (s.putShares v).isReady = s.isReady ∧ (∀ p q, (s.putShares v).queue p q = s.queue p q) ∧ (∀ p q c, (s.putShares v).recOf p q c = s.recOf p q c) ∧
    (∀ p q c o, (s.putShares v).readyRec p q c o = s.readyRec p q c o) ∧ (∀ p q c o, (s.putShares v).runningRec p q c o = s.runningRec p q c o) ∧
    (∀ k n, (s.putShares v).isFenced k n = s.isFenced k n) ∧ (∀ l, (s.putShares v).link? l = s.link? l) ∧ (s.putShares v).nodeId = s.nodeId ∧
    (∀ l u, (s.putShares v).trim l u = s.trim l u) ∧ (∀ i, (s.putShares v).calU i = s.calU i) := by
  refine ⟨?_, ?_, ?_, ?_, ?_, ?_, ?_, ?_, ?_, ?_, ?_, ?_, ?_, ?_, ?_, ?_, ?_, ?_, ?_, ?_, ?_, ?_, ?_, ?_, ?_, ?_, ?_, ?_, ?_, ?_, ?_, ?_, ?_, ?_, ?_, ?_, ?_, ?_, ?_, ?_, ?_, ?_, ?_, ?_, ?_, ?_, ?_, ?_, ?_, ?_, ?_, ?_, ?_, ?_, ?_, ?_, ?_, ?_, ?_, ?_, ?_, ?_⟩ <;> intros <;> rfl

@[simp] theorem State.putVfEn_reads (s : State) (v : List Bool) :
    (s.putVfEn v).vfEn = v ∧ (s.putVfEn v).pending = s.pending ∧ (s.putVfEn v).time = s.time ∧ (s.putVfEn v).free = s.free ∧
    (s.putVfEn v).regs = s.regs ∧ (s.putVfEn v).ctrs = s.ctrs ∧ (s.putVfEn v).owned = s.owned ∧ (s.putVfEn v).winReg = s.winReg ∧
    (s.putVfEn v).queues = s.queues ∧ (s.putVfEn v).recs = s.recs ∧ (s.putVfEn v).nextRec = s.nextRec ∧ (s.putVfEn v).fetchNo = s.fetchNo ∧
    (s.putVfEn v).ctxs = s.ctxs ∧ (s.putVfEn v).parts = s.parts ∧ (s.putVfEn v).shares = s.shares ∧ (s.putVfEn v).numVfs = s.numVfs ∧
    (s.putVfEn v).out = s.out ∧ (s.putVfEn v).mem = s.mem ∧ (s.putVfEn v).fab = s.fab ∧ (s.putVfEn v).flt = s.flt ∧ (s.putVfEn v).log = s.log ∧
    (s.putVfEn v).sels = s.sels ∧ (s.putVfEn v).results = s.results ∧ (s.putVfEn v).bank = s.bank ∧ (s.putVfEn v).tokens = s.tokens ∧
    (s.putVfEn v).corpora = s.corpora ∧ (s.putVfEn v).builds = s.builds ∧ (s.putVfEn v).queries = s.queries ∧ (s.putVfEn v).arrays = s.arrays ∧
    (s.putVfEn v).atokens = s.atokens ∧ (s.putVfEn v).models = s.models ∧ (s.putVfEn v).oldModels = s.oldModels ∧ (s.putVfEn v).arrWork = s.arrWork ∧
    (s.putVfEn v).trims = s.trims ∧ (s.putVfEn v).flash = s.flash ∧ (s.putVfEn v).emb = s.emb ∧ (s.putVfEn v).load = s.load ∧
    (s.putVfEn v).sec = s.sec ∧ (s.putVfEn v).cal = s.cal ∧ (s.putVfEn v).margins = s.margins ∧ (s.putVfEn v).smb = s.smb ∧
    (s.putVfEn v).board = s.board ∧ (s.putVfEn v).now = s.now ∧ (∀ o, (s.putVfEn v).reg o = s.reg o) ∧ (∀ o f, (s.putVfEn v).fld o f = s.fld o f) ∧
    (∀ p o, (s.putVfEn v).regPf p o = s.regPf p o) ∧ (∀ p o f, (s.putVfEn v).fldPf p o f = s.fldPf p o f) ∧ (∀ o, (s.putVfEn v).ctr o = s.ctr o) ∧
    (∀ p, (s.putVfEn v).part p = s.part p) ∧ (∀ p, (s.putVfEn v).pcfg p = s.pcfg p) ∧ (∀ p, (s.putVfEn v).configured p = s.configured p) ∧
    (∀ p, (s.putVfEn v).pstate p = s.pstate p) ∧ (s.putVfEn v).isReady = s.isReady ∧ (∀ p q, (s.putVfEn v).queue p q = s.queue p q) ∧
    (∀ p q c, (s.putVfEn v).recOf p q c = s.recOf p q c) ∧ (∀ p q c o, (s.putVfEn v).readyRec p q c o = s.readyRec p q c o) ∧
    (∀ p q c o, (s.putVfEn v).runningRec p q c o = s.runningRec p q c o) ∧ (∀ a, (s.putVfEn v).share a = s.share a) ∧
    (∀ k n, (s.putVfEn v).isFenced k n = s.isFenced k n) ∧ (∀ l, (s.putVfEn v).link? l = s.link? l) ∧ (s.putVfEn v).nodeId = s.nodeId ∧
    (∀ l u, (s.putVfEn v).trim l u = s.trim l u) ∧ (∀ i, (s.putVfEn v).calU i = s.calU i) := by
  refine ⟨?_, ?_, ?_, ?_, ?_, ?_, ?_, ?_, ?_, ?_, ?_, ?_, ?_, ?_, ?_, ?_, ?_, ?_, ?_, ?_, ?_, ?_, ?_, ?_, ?_, ?_, ?_, ?_, ?_, ?_, ?_, ?_, ?_, ?_, ?_, ?_, ?_, ?_, ?_, ?_, ?_, ?_, ?_, ?_, ?_, ?_, ?_, ?_, ?_, ?_, ?_, ?_, ?_, ?_, ?_, ?_, ?_, ?_, ?_, ?_, ?_, ?_, ?_⟩ <;> intros <;> rfl

@[simp] theorem State.putNumVfs_reads (s : State) (v : List Nat) :
    (s.putNumVfs v).numVfs = v ∧ (s.putNumVfs v).pending = s.pending ∧ (s.putNumVfs v).time = s.time ∧ (s.putNumVfs v).free = s.free ∧
    (s.putNumVfs v).regs = s.regs ∧ (s.putNumVfs v).ctrs = s.ctrs ∧ (s.putNumVfs v).owned = s.owned ∧ (s.putNumVfs v).winReg = s.winReg ∧
    (s.putNumVfs v).queues = s.queues ∧ (s.putNumVfs v).recs = s.recs ∧ (s.putNumVfs v).nextRec = s.nextRec ∧ (s.putNumVfs v).fetchNo = s.fetchNo ∧
    (s.putNumVfs v).ctxs = s.ctxs ∧ (s.putNumVfs v).parts = s.parts ∧ (s.putNumVfs v).shares = s.shares ∧ (s.putNumVfs v).vfEn = s.vfEn ∧
    (s.putNumVfs v).out = s.out ∧ (s.putNumVfs v).mem = s.mem ∧ (s.putNumVfs v).fab = s.fab ∧ (s.putNumVfs v).flt = s.flt ∧
    (s.putNumVfs v).log = s.log ∧ (s.putNumVfs v).sels = s.sels ∧ (s.putNumVfs v).results = s.results ∧ (s.putNumVfs v).bank = s.bank ∧
    (s.putNumVfs v).tokens = s.tokens ∧ (s.putNumVfs v).corpora = s.corpora ∧ (s.putNumVfs v).builds = s.builds ∧ (s.putNumVfs v).queries = s.queries ∧
    (s.putNumVfs v).arrays = s.arrays ∧ (s.putNumVfs v).atokens = s.atokens ∧ (s.putNumVfs v).models = s.models ∧
    (s.putNumVfs v).oldModels = s.oldModels ∧ (s.putNumVfs v).arrWork = s.arrWork ∧ (s.putNumVfs v).trims = s.trims ∧ (s.putNumVfs v).flash = s.flash ∧
    (s.putNumVfs v).emb = s.emb ∧ (s.putNumVfs v).load = s.load ∧ (s.putNumVfs v).sec = s.sec ∧ (s.putNumVfs v).cal = s.cal ∧
    (s.putNumVfs v).margins = s.margins ∧ (s.putNumVfs v).smb = s.smb ∧ (s.putNumVfs v).board = s.board ∧ (s.putNumVfs v).now = s.now ∧
    (∀ o, (s.putNumVfs v).reg o = s.reg o) ∧ (∀ o f, (s.putNumVfs v).fld o f = s.fld o f) ∧ (∀ p o, (s.putNumVfs v).regPf p o = s.regPf p o) ∧
    (∀ p o f, (s.putNumVfs v).fldPf p o f = s.fldPf p o f) ∧ (∀ o, (s.putNumVfs v).ctr o = s.ctr o) ∧ (∀ p, (s.putNumVfs v).part p = s.part p) ∧
    (∀ p, (s.putNumVfs v).pcfg p = s.pcfg p) ∧ (∀ p, (s.putNumVfs v).configured p = s.configured p) ∧ (∀ p, (s.putNumVfs v).pstate p = s.pstate p) ∧
    (s.putNumVfs v).isReady = s.isReady ∧ (∀ p q, (s.putNumVfs v).queue p q = s.queue p q) ∧ (∀ p q c, (s.putNumVfs v).recOf p q c = s.recOf p q c) ∧
    (∀ p q c o, (s.putNumVfs v).readyRec p q c o = s.readyRec p q c o) ∧ (∀ p q c o, (s.putNumVfs v).runningRec p q c o = s.runningRec p q c o) ∧
    (∀ a, (s.putNumVfs v).share a = s.share a) ∧ (∀ k n, (s.putNumVfs v).isFenced k n = s.isFenced k n) ∧ (∀ l, (s.putNumVfs v).link? l = s.link? l) ∧
    (s.putNumVfs v).nodeId = s.nodeId ∧ (∀ l u, (s.putNumVfs v).trim l u = s.trim l u) ∧ (∀ i, (s.putNumVfs v).calU i = s.calU i) := by
  refine ⟨?_, ?_, ?_, ?_, ?_, ?_, ?_, ?_, ?_, ?_, ?_, ?_, ?_, ?_, ?_, ?_, ?_, ?_, ?_, ?_, ?_, ?_, ?_, ?_, ?_, ?_, ?_, ?_, ?_, ?_, ?_, ?_, ?_, ?_, ?_, ?_, ?_, ?_, ?_, ?_, ?_, ?_, ?_, ?_, ?_, ?_, ?_, ?_, ?_, ?_, ?_, ?_, ?_, ?_, ?_, ?_, ?_, ?_, ?_, ?_, ?_, ?_, ?_⟩ <;> intros <;> rfl

@[simp] theorem State.putOut_reads (s : State) (v : List HostOut) :
    (s.putOut v).out = v ∧ (s.putOut v).pending = s.pending ∧ (s.putOut v).time = s.time ∧ (s.putOut v).free = s.free ∧ (s.putOut v).regs = s.regs ∧
    (s.putOut v).ctrs = s.ctrs ∧ (s.putOut v).owned = s.owned ∧ (s.putOut v).winReg = s.winReg ∧ (s.putOut v).queues = s.queues ∧
    (s.putOut v).recs = s.recs ∧ (s.putOut v).nextRec = s.nextRec ∧ (s.putOut v).fetchNo = s.fetchNo ∧ (s.putOut v).ctxs = s.ctxs ∧
    (s.putOut v).parts = s.parts ∧ (s.putOut v).shares = s.shares ∧ (s.putOut v).vfEn = s.vfEn ∧ (s.putOut v).numVfs = s.numVfs ∧
    (s.putOut v).mem = s.mem ∧ (s.putOut v).fab = s.fab ∧ (s.putOut v).flt = s.flt ∧ (s.putOut v).log = s.log ∧ (s.putOut v).sels = s.sels ∧
    (s.putOut v).results = s.results ∧ (s.putOut v).bank = s.bank ∧ (s.putOut v).tokens = s.tokens ∧ (s.putOut v).corpora = s.corpora ∧
    (s.putOut v).builds = s.builds ∧ (s.putOut v).queries = s.queries ∧ (s.putOut v).arrays = s.arrays ∧ (s.putOut v).atokens = s.atokens ∧
    (s.putOut v).models = s.models ∧ (s.putOut v).oldModels = s.oldModels ∧ (s.putOut v).arrWork = s.arrWork ∧ (s.putOut v).trims = s.trims ∧
    (s.putOut v).flash = s.flash ∧ (s.putOut v).emb = s.emb ∧ (s.putOut v).load = s.load ∧ (s.putOut v).sec = s.sec ∧ (s.putOut v).cal = s.cal ∧
    (s.putOut v).margins = s.margins ∧ (s.putOut v).smb = s.smb ∧ (s.putOut v).board = s.board ∧ (s.putOut v).now = s.now ∧
    (∀ o, (s.putOut v).reg o = s.reg o) ∧ (∀ o f, (s.putOut v).fld o f = s.fld o f) ∧ (∀ p o, (s.putOut v).regPf p o = s.regPf p o) ∧
    (∀ p o f, (s.putOut v).fldPf p o f = s.fldPf p o f) ∧ (∀ o, (s.putOut v).ctr o = s.ctr o) ∧ (∀ p, (s.putOut v).part p = s.part p) ∧
    (∀ p, (s.putOut v).pcfg p = s.pcfg p) ∧ (∀ p, (s.putOut v).configured p = s.configured p) ∧ (∀ p, (s.putOut v).pstate p = s.pstate p) ∧
    (s.putOut v).isReady = s.isReady ∧ (∀ p q, (s.putOut v).queue p q = s.queue p q) ∧ (∀ p q c, (s.putOut v).recOf p q c = s.recOf p q c) ∧
    (∀ p q c o, (s.putOut v).readyRec p q c o = s.readyRec p q c o) ∧ (∀ p q c o, (s.putOut v).runningRec p q c o = s.runningRec p q c o) ∧
    (∀ a, (s.putOut v).share a = s.share a) ∧ (∀ k n, (s.putOut v).isFenced k n = s.isFenced k n) ∧ (∀ l, (s.putOut v).link? l = s.link? l) ∧
    (s.putOut v).nodeId = s.nodeId ∧ (∀ l u, (s.putOut v).trim l u = s.trim l u) ∧ (∀ i, (s.putOut v).calU i = s.calU i) := by
  refine ⟨?_, ?_, ?_, ?_, ?_, ?_, ?_, ?_, ?_, ?_, ?_, ?_, ?_, ?_, ?_, ?_, ?_, ?_, ?_, ?_, ?_, ?_, ?_, ?_, ?_, ?_, ?_, ?_, ?_, ?_, ?_, ?_, ?_, ?_, ?_, ?_, ?_, ?_, ?_, ?_, ?_, ?_, ?_, ?_, ?_, ?_, ?_, ?_, ?_, ?_, ?_, ?_, ?_, ?_, ?_, ?_, ?_, ?_, ?_, ?_, ?_, ?_, ?_⟩ <;> intros <;> rfl

@[simp] theorem State.putMem_reads (s : State) (v : MemSys) :
    (s.putMem v).mem = v ∧ (s.putMem v).pending = s.pending ∧ (s.putMem v).time = s.time ∧ (s.putMem v).free = s.free ∧ (s.putMem v).regs = s.regs ∧
    (s.putMem v).ctrs = s.ctrs ∧ (s.putMem v).owned = s.owned ∧ (s.putMem v).winReg = s.winReg ∧ (s.putMem v).queues = s.queues ∧
    (s.putMem v).recs = s.recs ∧ (s.putMem v).nextRec = s.nextRec ∧ (s.putMem v).fetchNo = s.fetchNo ∧ (s.putMem v).ctxs = s.ctxs ∧
    (s.putMem v).parts = s.parts ∧ (s.putMem v).shares = s.shares ∧ (s.putMem v).vfEn = s.vfEn ∧ (s.putMem v).numVfs = s.numVfs ∧
    (s.putMem v).out = s.out ∧ (s.putMem v).fab = s.fab ∧ (s.putMem v).flt = s.flt ∧ (s.putMem v).log = s.log ∧ (s.putMem v).sels = s.sels ∧
    (s.putMem v).results = s.results ∧ (s.putMem v).bank = s.bank ∧ (s.putMem v).tokens = s.tokens ∧ (s.putMem v).corpora = s.corpora ∧
    (s.putMem v).builds = s.builds ∧ (s.putMem v).queries = s.queries ∧ (s.putMem v).arrays = s.arrays ∧ (s.putMem v).atokens = s.atokens ∧
    (s.putMem v).models = s.models ∧ (s.putMem v).oldModels = s.oldModels ∧ (s.putMem v).arrWork = s.arrWork ∧ (s.putMem v).trims = s.trims ∧
    (s.putMem v).flash = s.flash ∧ (s.putMem v).emb = s.emb ∧ (s.putMem v).load = s.load ∧ (s.putMem v).sec = s.sec ∧ (s.putMem v).cal = s.cal ∧
    (s.putMem v).margins = s.margins ∧ (s.putMem v).smb = s.smb ∧ (s.putMem v).board = s.board ∧ (s.putMem v).now = s.now ∧
    (∀ o, (s.putMem v).reg o = s.reg o) ∧ (∀ o f, (s.putMem v).fld o f = s.fld o f) ∧ (∀ p o, (s.putMem v).regPf p o = s.regPf p o) ∧
    (∀ p o f, (s.putMem v).fldPf p o f = s.fldPf p o f) ∧ (∀ o, (s.putMem v).ctr o = s.ctr o) ∧ (∀ p, (s.putMem v).part p = s.part p) ∧
    (∀ p, (s.putMem v).pcfg p = s.pcfg p) ∧ (∀ p, (s.putMem v).configured p = s.configured p) ∧ (∀ p, (s.putMem v).pstate p = s.pstate p) ∧
    (s.putMem v).isReady = s.isReady ∧ (∀ p q, (s.putMem v).queue p q = s.queue p q) ∧ (∀ p q c, (s.putMem v).recOf p q c = s.recOf p q c) ∧
    (∀ p q c o, (s.putMem v).readyRec p q c o = s.readyRec p q c o) ∧ (∀ p q c o, (s.putMem v).runningRec p q c o = s.runningRec p q c o) ∧
    (∀ a, (s.putMem v).share a = s.share a) ∧ (∀ k n, (s.putMem v).isFenced k n = s.isFenced k n) ∧ (∀ l, (s.putMem v).link? l = s.link? l) ∧
    (s.putMem v).nodeId = s.nodeId ∧ (∀ l u, (s.putMem v).trim l u = s.trim l u) ∧ (∀ i, (s.putMem v).calU i = s.calU i) := by
  refine ⟨?_, ?_, ?_, ?_, ?_, ?_, ?_, ?_, ?_, ?_, ?_, ?_, ?_, ?_, ?_, ?_, ?_, ?_, ?_, ?_, ?_, ?_, ?_, ?_, ?_, ?_, ?_, ?_, ?_, ?_, ?_, ?_, ?_, ?_, ?_, ?_, ?_, ?_, ?_, ?_, ?_, ?_, ?_, ?_, ?_, ?_, ?_, ?_, ?_, ?_, ?_, ?_, ?_, ?_, ?_, ?_, ?_, ?_, ?_, ?_, ?_, ?_, ?_⟩ <;> intros <;> rfl

@[simp] theorem State.putFab_reads (s : State) (v : Fab) :
    (s.putFab v).fab = v ∧ (s.putFab v).pending = s.pending ∧ (s.putFab v).time = s.time ∧ (s.putFab v).free = s.free ∧ (s.putFab v).regs = s.regs ∧
    (s.putFab v).ctrs = s.ctrs ∧ (s.putFab v).owned = s.owned ∧ (s.putFab v).winReg = s.winReg ∧ (s.putFab v).queues = s.queues ∧
    (s.putFab v).recs = s.recs ∧ (s.putFab v).nextRec = s.nextRec ∧ (s.putFab v).fetchNo = s.fetchNo ∧ (s.putFab v).ctxs = s.ctxs ∧
    (s.putFab v).parts = s.parts ∧ (s.putFab v).shares = s.shares ∧ (s.putFab v).vfEn = s.vfEn ∧ (s.putFab v).numVfs = s.numVfs ∧
    (s.putFab v).out = s.out ∧ (s.putFab v).mem = s.mem ∧ (s.putFab v).flt = s.flt ∧ (s.putFab v).log = s.log ∧ (s.putFab v).sels = s.sels ∧
    (s.putFab v).results = s.results ∧ (s.putFab v).bank = s.bank ∧ (s.putFab v).tokens = s.tokens ∧ (s.putFab v).corpora = s.corpora ∧
    (s.putFab v).builds = s.builds ∧ (s.putFab v).queries = s.queries ∧ (s.putFab v).arrays = s.arrays ∧ (s.putFab v).atokens = s.atokens ∧
    (s.putFab v).models = s.models ∧ (s.putFab v).oldModels = s.oldModels ∧ (s.putFab v).arrWork = s.arrWork ∧ (s.putFab v).trims = s.trims ∧
    (s.putFab v).flash = s.flash ∧ (s.putFab v).emb = s.emb ∧ (s.putFab v).load = s.load ∧ (s.putFab v).sec = s.sec ∧ (s.putFab v).cal = s.cal ∧
    (s.putFab v).margins = s.margins ∧ (s.putFab v).smb = s.smb ∧ (s.putFab v).board = s.board ∧ (s.putFab v).now = s.now ∧
    (∀ o, (s.putFab v).reg o = s.reg o) ∧ (∀ o f, (s.putFab v).fld o f = s.fld o f) ∧ (∀ p o, (s.putFab v).regPf p o = s.regPf p o) ∧
    (∀ p o f, (s.putFab v).fldPf p o f = s.fldPf p o f) ∧ (∀ o, (s.putFab v).ctr o = s.ctr o) ∧ (∀ p, (s.putFab v).part p = s.part p) ∧
    (∀ p, (s.putFab v).pcfg p = s.pcfg p) ∧ (∀ p, (s.putFab v).configured p = s.configured p) ∧ (∀ p, (s.putFab v).pstate p = s.pstate p) ∧
    (s.putFab v).isReady = s.isReady ∧ (∀ p q, (s.putFab v).queue p q = s.queue p q) ∧ (∀ p q c, (s.putFab v).recOf p q c = s.recOf p q c) ∧
    (∀ p q c o, (s.putFab v).readyRec p q c o = s.readyRec p q c o) ∧ (∀ p q c o, (s.putFab v).runningRec p q c o = s.runningRec p q c o) ∧
    (∀ a, (s.putFab v).share a = s.share a) ∧ (∀ k n, (s.putFab v).isFenced k n = s.isFenced k n) ∧ (s.putFab v).nodeId = s.nodeId ∧
    (∀ l u, (s.putFab v).trim l u = s.trim l u) ∧ (∀ i, (s.putFab v).calU i = s.calU i) := by
  refine ⟨?_, ?_, ?_, ?_, ?_, ?_, ?_, ?_, ?_, ?_, ?_, ?_, ?_, ?_, ?_, ?_, ?_, ?_, ?_, ?_, ?_, ?_, ?_, ?_, ?_, ?_, ?_, ?_, ?_, ?_, ?_, ?_, ?_, ?_, ?_, ?_, ?_, ?_, ?_, ?_, ?_, ?_, ?_, ?_, ?_, ?_, ?_, ?_, ?_, ?_, ?_, ?_, ?_, ?_, ?_, ?_, ?_, ?_, ?_, ?_, ?_, ?_⟩ <;> intros <;> rfl

@[simp] theorem State.putFlt_reads (s : State) (v : Faults) :
    (s.putFlt v).flt = v ∧ (s.putFlt v).pending = s.pending ∧ (s.putFlt v).time = s.time ∧ (s.putFlt v).free = s.free ∧ (s.putFlt v).regs = s.regs ∧
    (s.putFlt v).ctrs = s.ctrs ∧ (s.putFlt v).owned = s.owned ∧ (s.putFlt v).winReg = s.winReg ∧ (s.putFlt v).queues = s.queues ∧
    (s.putFlt v).recs = s.recs ∧ (s.putFlt v).nextRec = s.nextRec ∧ (s.putFlt v).fetchNo = s.fetchNo ∧ (s.putFlt v).ctxs = s.ctxs ∧
    (s.putFlt v).parts = s.parts ∧ (s.putFlt v).shares = s.shares ∧ (s.putFlt v).vfEn = s.vfEn ∧ (s.putFlt v).numVfs = s.numVfs ∧
    (s.putFlt v).out = s.out ∧ (s.putFlt v).mem = s.mem ∧ (s.putFlt v).fab = s.fab ∧ (s.putFlt v).log = s.log ∧ (s.putFlt v).sels = s.sels ∧
    (s.putFlt v).results = s.results ∧ (s.putFlt v).bank = s.bank ∧ (s.putFlt v).tokens = s.tokens ∧ (s.putFlt v).corpora = s.corpora ∧
    (s.putFlt v).builds = s.builds ∧ (s.putFlt v).queries = s.queries ∧ (s.putFlt v).arrays = s.arrays ∧ (s.putFlt v).atokens = s.atokens ∧
    (s.putFlt v).models = s.models ∧ (s.putFlt v).oldModels = s.oldModels ∧ (s.putFlt v).arrWork = s.arrWork ∧ (s.putFlt v).trims = s.trims ∧
    (s.putFlt v).flash = s.flash ∧ (s.putFlt v).emb = s.emb ∧ (s.putFlt v).load = s.load ∧ (s.putFlt v).sec = s.sec ∧ (s.putFlt v).cal = s.cal ∧
    (s.putFlt v).margins = s.margins ∧ (s.putFlt v).smb = s.smb ∧ (s.putFlt v).board = s.board ∧ (s.putFlt v).now = s.now ∧
    (∀ o, (s.putFlt v).reg o = s.reg o) ∧ (∀ o f, (s.putFlt v).fld o f = s.fld o f) ∧ (∀ p o, (s.putFlt v).regPf p o = s.regPf p o) ∧
    (∀ p o f, (s.putFlt v).fldPf p o f = s.fldPf p o f) ∧ (∀ o, (s.putFlt v).ctr o = s.ctr o) ∧ (∀ p, (s.putFlt v).part p = s.part p) ∧
    (∀ p, (s.putFlt v).pcfg p = s.pcfg p) ∧ (∀ p, (s.putFlt v).configured p = s.configured p) ∧ (∀ p, (s.putFlt v).pstate p = s.pstate p) ∧
    (s.putFlt v).isReady = s.isReady ∧ (∀ p q, (s.putFlt v).queue p q = s.queue p q) ∧ (∀ p q c, (s.putFlt v).recOf p q c = s.recOf p q c) ∧
    (∀ p q c o, (s.putFlt v).readyRec p q c o = s.readyRec p q c o) ∧ (∀ p q c o, (s.putFlt v).runningRec p q c o = s.runningRec p q c o) ∧
    (∀ a, (s.putFlt v).share a = s.share a) ∧ (∀ l, (s.putFlt v).link? l = s.link? l) ∧ (s.putFlt v).nodeId = s.nodeId ∧
    (∀ l u, (s.putFlt v).trim l u = s.trim l u) ∧ (∀ i, (s.putFlt v).calU i = s.calU i) := by
  refine ⟨?_, ?_, ?_, ?_, ?_, ?_, ?_, ?_, ?_, ?_, ?_, ?_, ?_, ?_, ?_, ?_, ?_, ?_, ?_, ?_, ?_, ?_, ?_, ?_, ?_, ?_, ?_, ?_, ?_, ?_, ?_, ?_, ?_, ?_, ?_, ?_, ?_, ?_, ?_, ?_, ?_, ?_, ?_, ?_, ?_, ?_, ?_, ?_, ?_, ?_, ?_, ?_, ?_, ?_, ?_, ?_, ?_, ?_, ?_, ?_, ?_, ?_⟩ <;> intros <;> rfl

@[simp] theorem State.putLog_reads (s : State) (v : List LogRec) :
    (s.putLog v).log = v ∧ (s.putLog v).pending = s.pending ∧ (s.putLog v).time = s.time ∧ (s.putLog v).free = s.free ∧ (s.putLog v).regs = s.regs ∧
    (s.putLog v).ctrs = s.ctrs ∧ (s.putLog v).owned = s.owned ∧ (s.putLog v).winReg = s.winReg ∧ (s.putLog v).queues = s.queues ∧
    (s.putLog v).recs = s.recs ∧ (s.putLog v).nextRec = s.nextRec ∧ (s.putLog v).fetchNo = s.fetchNo ∧ (s.putLog v).ctxs = s.ctxs ∧
    (s.putLog v).parts = s.parts ∧ (s.putLog v).shares = s.shares ∧ (s.putLog v).vfEn = s.vfEn ∧ (s.putLog v).numVfs = s.numVfs ∧
    (s.putLog v).out = s.out ∧ (s.putLog v).mem = s.mem ∧ (s.putLog v).fab = s.fab ∧ (s.putLog v).flt = s.flt ∧ (s.putLog v).sels = s.sels ∧
    (s.putLog v).results = s.results ∧ (s.putLog v).bank = s.bank ∧ (s.putLog v).tokens = s.tokens ∧ (s.putLog v).corpora = s.corpora ∧
    (s.putLog v).builds = s.builds ∧ (s.putLog v).queries = s.queries ∧ (s.putLog v).arrays = s.arrays ∧ (s.putLog v).atokens = s.atokens ∧
    (s.putLog v).models = s.models ∧ (s.putLog v).oldModels = s.oldModels ∧ (s.putLog v).arrWork = s.arrWork ∧ (s.putLog v).trims = s.trims ∧
    (s.putLog v).flash = s.flash ∧ (s.putLog v).emb = s.emb ∧ (s.putLog v).load = s.load ∧ (s.putLog v).sec = s.sec ∧ (s.putLog v).cal = s.cal ∧
    (s.putLog v).margins = s.margins ∧ (s.putLog v).smb = s.smb ∧ (s.putLog v).board = s.board ∧ (s.putLog v).now = s.now ∧
    (∀ o, (s.putLog v).reg o = s.reg o) ∧ (∀ o f, (s.putLog v).fld o f = s.fld o f) ∧ (∀ p o, (s.putLog v).regPf p o = s.regPf p o) ∧
    (∀ p o f, (s.putLog v).fldPf p o f = s.fldPf p o f) ∧ (∀ o, (s.putLog v).ctr o = s.ctr o) ∧ (∀ p, (s.putLog v).part p = s.part p) ∧
    (∀ p, (s.putLog v).pcfg p = s.pcfg p) ∧ (∀ p, (s.putLog v).configured p = s.configured p) ∧ (∀ p, (s.putLog v).pstate p = s.pstate p) ∧
    (s.putLog v).isReady = s.isReady ∧ (∀ p q, (s.putLog v).queue p q = s.queue p q) ∧ (∀ p q c, (s.putLog v).recOf p q c = s.recOf p q c) ∧
    (∀ p q c o, (s.putLog v).readyRec p q c o = s.readyRec p q c o) ∧ (∀ p q c o, (s.putLog v).runningRec p q c o = s.runningRec p q c o) ∧
    (∀ a, (s.putLog v).share a = s.share a) ∧ (∀ k n, (s.putLog v).isFenced k n = s.isFenced k n) ∧ (∀ l, (s.putLog v).link? l = s.link? l) ∧
    (s.putLog v).nodeId = s.nodeId ∧ (∀ l u, (s.putLog v).trim l u = s.trim l u) ∧ (∀ i, (s.putLog v).calU i = s.calU i) := by
  refine ⟨?_, ?_, ?_, ?_, ?_, ?_, ?_, ?_, ?_, ?_, ?_, ?_, ?_, ?_, ?_, ?_, ?_, ?_, ?_, ?_, ?_, ?_, ?_, ?_, ?_, ?_, ?_, ?_, ?_, ?_, ?_, ?_, ?_, ?_, ?_, ?_, ?_, ?_, ?_, ?_, ?_, ?_, ?_, ?_, ?_, ?_, ?_, ?_, ?_, ?_, ?_, ?_, ?_, ?_, ?_, ?_, ?_, ?_, ?_, ?_, ?_, ?_, ?_⟩ <;> intros <;> rfl

@[simp] theorem State.putSels_reads (s : State) (v : KV SelUnit) :
    (s.putSels v).sels = v ∧ (s.putSels v).pending = s.pending ∧ (s.putSels v).time = s.time ∧ (s.putSels v).free = s.free ∧
    (s.putSels v).regs = s.regs ∧ (s.putSels v).ctrs = s.ctrs ∧ (s.putSels v).owned = s.owned ∧ (s.putSels v).winReg = s.winReg ∧
    (s.putSels v).queues = s.queues ∧ (s.putSels v).recs = s.recs ∧ (s.putSels v).nextRec = s.nextRec ∧ (s.putSels v).fetchNo = s.fetchNo ∧
    (s.putSels v).ctxs = s.ctxs ∧ (s.putSels v).parts = s.parts ∧ (s.putSels v).shares = s.shares ∧ (s.putSels v).vfEn = s.vfEn ∧
    (s.putSels v).numVfs = s.numVfs ∧ (s.putSels v).out = s.out ∧ (s.putSels v).mem = s.mem ∧ (s.putSels v).fab = s.fab ∧ (s.putSels v).flt = s.flt ∧
    (s.putSels v).log = s.log ∧ (s.putSels v).results = s.results ∧ (s.putSels v).bank = s.bank ∧ (s.putSels v).tokens = s.tokens ∧
    (s.putSels v).corpora = s.corpora ∧ (s.putSels v).builds = s.builds ∧ (s.putSels v).queries = s.queries ∧ (s.putSels v).arrays = s.arrays ∧
    (s.putSels v).atokens = s.atokens ∧ (s.putSels v).models = s.models ∧ (s.putSels v).oldModels = s.oldModels ∧ (s.putSels v).arrWork = s.arrWork ∧
    (s.putSels v).trims = s.trims ∧ (s.putSels v).flash = s.flash ∧ (s.putSels v).emb = s.emb ∧ (s.putSels v).load = s.load ∧
    (s.putSels v).sec = s.sec ∧ (s.putSels v).cal = s.cal ∧ (s.putSels v).margins = s.margins ∧ (s.putSels v).smb = s.smb ∧
    (s.putSels v).board = s.board ∧ (s.putSels v).now = s.now ∧ (∀ o, (s.putSels v).reg o = s.reg o) ∧ (∀ o f, (s.putSels v).fld o f = s.fld o f) ∧
    (∀ p o, (s.putSels v).regPf p o = s.regPf p o) ∧ (∀ p o f, (s.putSels v).fldPf p o f = s.fldPf p o f) ∧ (∀ o, (s.putSels v).ctr o = s.ctr o) ∧
    (∀ p, (s.putSels v).part p = s.part p) ∧ (∀ p, (s.putSels v).pcfg p = s.pcfg p) ∧ (∀ p, (s.putSels v).configured p = s.configured p) ∧
    (∀ p, (s.putSels v).pstate p = s.pstate p) ∧ (s.putSels v).isReady = s.isReady ∧ (∀ p q, (s.putSels v).queue p q = s.queue p q) ∧
    (∀ p q c, (s.putSels v).recOf p q c = s.recOf p q c) ∧ (∀ p q c o, (s.putSels v).readyRec p q c o = s.readyRec p q c o) ∧
    (∀ p q c o, (s.putSels v).runningRec p q c o = s.runningRec p q c o) ∧ (∀ a, (s.putSels v).share a = s.share a) ∧
    (∀ k n, (s.putSels v).isFenced k n = s.isFenced k n) ∧ (∀ l, (s.putSels v).link? l = s.link? l) ∧ (s.putSels v).nodeId = s.nodeId ∧
    (∀ l u, (s.putSels v).trim l u = s.trim l u) ∧ (∀ i, (s.putSels v).calU i = s.calU i) := by
  refine ⟨?_, ?_, ?_, ?_, ?_, ?_, ?_, ?_, ?_, ?_, ?_, ?_, ?_, ?_, ?_, ?_, ?_, ?_, ?_, ?_, ?_, ?_, ?_, ?_, ?_, ?_, ?_, ?_, ?_, ?_, ?_, ?_, ?_, ?_, ?_, ?_, ?_, ?_, ?_, ?_, ?_, ?_, ?_, ?_, ?_, ?_, ?_, ?_, ?_, ?_, ?_, ?_, ?_, ?_, ?_, ?_, ?_, ?_, ?_, ?_, ?_, ?_, ?_⟩ <;> intros <;> rfl

@[simp] theorem State.putResults_reads (s : State) (v : List SelResult) :
    (s.putResults v).results = v ∧ (s.putResults v).pending = s.pending ∧ (s.putResults v).time = s.time ∧ (s.putResults v).free = s.free ∧
    (s.putResults v).regs = s.regs ∧ (s.putResults v).ctrs = s.ctrs ∧ (s.putResults v).owned = s.owned ∧ (s.putResults v).winReg = s.winReg ∧
    (s.putResults v).queues = s.queues ∧ (s.putResults v).recs = s.recs ∧ (s.putResults v).nextRec = s.nextRec ∧ (s.putResults v).fetchNo = s.fetchNo ∧
    (s.putResults v).ctxs = s.ctxs ∧ (s.putResults v).parts = s.parts ∧ (s.putResults v).shares = s.shares ∧ (s.putResults v).vfEn = s.vfEn ∧
    (s.putResults v).numVfs = s.numVfs ∧ (s.putResults v).out = s.out ∧ (s.putResults v).mem = s.mem ∧ (s.putResults v).fab = s.fab ∧
    (s.putResults v).flt = s.flt ∧ (s.putResults v).log = s.log ∧ (s.putResults v).sels = s.sels ∧ (s.putResults v).bank = s.bank ∧
    (s.putResults v).tokens = s.tokens ∧ (s.putResults v).corpora = s.corpora ∧ (s.putResults v).builds = s.builds ∧
    (s.putResults v).queries = s.queries ∧ (s.putResults v).arrays = s.arrays ∧ (s.putResults v).atokens = s.atokens ∧
    (s.putResults v).models = s.models ∧ (s.putResults v).oldModels = s.oldModels ∧ (s.putResults v).arrWork = s.arrWork ∧
    (s.putResults v).trims = s.trims ∧ (s.putResults v).flash = s.flash ∧ (s.putResults v).emb = s.emb ∧ (s.putResults v).load = s.load ∧
    (s.putResults v).sec = s.sec ∧ (s.putResults v).cal = s.cal ∧ (s.putResults v).margins = s.margins ∧ (s.putResults v).smb = s.smb ∧
    (s.putResults v).board = s.board ∧ (s.putResults v).now = s.now ∧ (∀ o, (s.putResults v).reg o = s.reg o) ∧
    (∀ o f, (s.putResults v).fld o f = s.fld o f) ∧ (∀ p o, (s.putResults v).regPf p o = s.regPf p o) ∧
    (∀ p o f, (s.putResults v).fldPf p o f = s.fldPf p o f) ∧ (∀ o, (s.putResults v).ctr o = s.ctr o) ∧ (∀ p, (s.putResults v).part p = s.part p) ∧
    (∀ p, (s.putResults v).pcfg p = s.pcfg p) ∧ (∀ p, (s.putResults v).configured p = s.configured p) ∧ (∀ p, (s.putResults v).pstate p = s.pstate p) ∧
    (s.putResults v).isReady = s.isReady ∧ (∀ p q, (s.putResults v).queue p q = s.queue p q) ∧
    (∀ p q c, (s.putResults v).recOf p q c = s.recOf p q c) ∧ (∀ p q c o, (s.putResults v).readyRec p q c o = s.readyRec p q c o) ∧
    (∀ p q c o, (s.putResults v).runningRec p q c o = s.runningRec p q c o) ∧ (∀ a, (s.putResults v).share a = s.share a) ∧
    (∀ k n, (s.putResults v).isFenced k n = s.isFenced k n) ∧ (∀ l, (s.putResults v).link? l = s.link? l) ∧ (s.putResults v).nodeId = s.nodeId ∧
    (∀ l u, (s.putResults v).trim l u = s.trim l u) ∧ (∀ i, (s.putResults v).calU i = s.calU i) := by
  refine ⟨?_, ?_, ?_, ?_, ?_, ?_, ?_, ?_, ?_, ?_, ?_, ?_, ?_, ?_, ?_, ?_, ?_, ?_, ?_, ?_, ?_, ?_, ?_, ?_, ?_, ?_, ?_, ?_, ?_, ?_, ?_, ?_, ?_, ?_, ?_, ?_, ?_, ?_, ?_, ?_, ?_, ?_, ?_, ?_, ?_, ?_, ?_, ?_, ?_, ?_, ?_, ?_, ?_, ?_, ?_, ?_, ?_, ?_, ?_, ?_, ?_, ?_, ?_⟩ <;> intros <;> rfl

@[simp] theorem State.putBank_reads (s : State) (v : KV BankCh) :
    (s.putBank v).bank = v ∧ (s.putBank v).pending = s.pending ∧ (s.putBank v).time = s.time ∧ (s.putBank v).free = s.free ∧
    (s.putBank v).regs = s.regs ∧ (s.putBank v).ctrs = s.ctrs ∧ (s.putBank v).owned = s.owned ∧ (s.putBank v).winReg = s.winReg ∧
    (s.putBank v).queues = s.queues ∧ (s.putBank v).recs = s.recs ∧ (s.putBank v).nextRec = s.nextRec ∧ (s.putBank v).fetchNo = s.fetchNo ∧
    (s.putBank v).ctxs = s.ctxs ∧ (s.putBank v).parts = s.parts ∧ (s.putBank v).shares = s.shares ∧ (s.putBank v).vfEn = s.vfEn ∧
    (s.putBank v).numVfs = s.numVfs ∧ (s.putBank v).out = s.out ∧ (s.putBank v).mem = s.mem ∧ (s.putBank v).fab = s.fab ∧ (s.putBank v).flt = s.flt ∧
    (s.putBank v).log = s.log ∧ (s.putBank v).sels = s.sels ∧ (s.putBank v).results = s.results ∧ (s.putBank v).tokens = s.tokens ∧
    (s.putBank v).corpora = s.corpora ∧ (s.putBank v).builds = s.builds ∧ (s.putBank v).queries = s.queries ∧ (s.putBank v).arrays = s.arrays ∧
    (s.putBank v).atokens = s.atokens ∧ (s.putBank v).models = s.models ∧ (s.putBank v).oldModels = s.oldModels ∧ (s.putBank v).arrWork = s.arrWork ∧
    (s.putBank v).trims = s.trims ∧ (s.putBank v).flash = s.flash ∧ (s.putBank v).emb = s.emb ∧ (s.putBank v).load = s.load ∧
    (s.putBank v).sec = s.sec ∧ (s.putBank v).cal = s.cal ∧ (s.putBank v).margins = s.margins ∧ (s.putBank v).smb = s.smb ∧
    (s.putBank v).board = s.board ∧ (s.putBank v).now = s.now ∧ (∀ o, (s.putBank v).reg o = s.reg o) ∧ (∀ o f, (s.putBank v).fld o f = s.fld o f) ∧
    (∀ p o, (s.putBank v).regPf p o = s.regPf p o) ∧ (∀ p o f, (s.putBank v).fldPf p o f = s.fldPf p o f) ∧ (∀ o, (s.putBank v).ctr o = s.ctr o) ∧
    (∀ p, (s.putBank v).part p = s.part p) ∧ (∀ p, (s.putBank v).pcfg p = s.pcfg p) ∧ (∀ p, (s.putBank v).configured p = s.configured p) ∧
    (∀ p, (s.putBank v).pstate p = s.pstate p) ∧ (s.putBank v).isReady = s.isReady ∧ (∀ p q, (s.putBank v).queue p q = s.queue p q) ∧
    (∀ p q c, (s.putBank v).recOf p q c = s.recOf p q c) ∧ (∀ p q c o, (s.putBank v).readyRec p q c o = s.readyRec p q c o) ∧
    (∀ p q c o, (s.putBank v).runningRec p q c o = s.runningRec p q c o) ∧ (∀ a, (s.putBank v).share a = s.share a) ∧
    (∀ k n, (s.putBank v).isFenced k n = s.isFenced k n) ∧ (∀ l, (s.putBank v).link? l = s.link? l) ∧ (s.putBank v).nodeId = s.nodeId ∧
    (∀ l u, (s.putBank v).trim l u = s.trim l u) ∧ (∀ i, (s.putBank v).calU i = s.calU i) := by
  refine ⟨?_, ?_, ?_, ?_, ?_, ?_, ?_, ?_, ?_, ?_, ?_, ?_, ?_, ?_, ?_, ?_, ?_, ?_, ?_, ?_, ?_, ?_, ?_, ?_, ?_, ?_, ?_, ?_, ?_, ?_, ?_, ?_, ?_, ?_, ?_, ?_, ?_, ?_, ?_, ?_, ?_, ?_, ?_, ?_, ?_, ?_, ?_, ?_, ?_, ?_, ?_, ?_, ?_, ?_, ?_, ?_, ?_, ?_, ?_, ?_, ?_, ?_, ?_⟩ <;> intros <;> rfl

@[simp] theorem State.putTokens_reads (s : State) (v : List BankToken) :
    (s.putTokens v).tokens = v ∧ (s.putTokens v).pending = s.pending ∧ (s.putTokens v).time = s.time ∧ (s.putTokens v).free = s.free ∧
    (s.putTokens v).regs = s.regs ∧ (s.putTokens v).ctrs = s.ctrs ∧ (s.putTokens v).owned = s.owned ∧ (s.putTokens v).winReg = s.winReg ∧
    (s.putTokens v).queues = s.queues ∧ (s.putTokens v).recs = s.recs ∧ (s.putTokens v).nextRec = s.nextRec ∧ (s.putTokens v).fetchNo = s.fetchNo ∧
    (s.putTokens v).ctxs = s.ctxs ∧ (s.putTokens v).parts = s.parts ∧ (s.putTokens v).shares = s.shares ∧ (s.putTokens v).vfEn = s.vfEn ∧
    (s.putTokens v).numVfs = s.numVfs ∧ (s.putTokens v).out = s.out ∧ (s.putTokens v).mem = s.mem ∧ (s.putTokens v).fab = s.fab ∧
    (s.putTokens v).flt = s.flt ∧ (s.putTokens v).log = s.log ∧ (s.putTokens v).sels = s.sels ∧ (s.putTokens v).results = s.results ∧
    (s.putTokens v).bank = s.bank ∧ (s.putTokens v).corpora = s.corpora ∧ (s.putTokens v).builds = s.builds ∧ (s.putTokens v).queries = s.queries ∧
    (s.putTokens v).arrays = s.arrays ∧ (s.putTokens v).atokens = s.atokens ∧ (s.putTokens v).models = s.models ∧
    (s.putTokens v).oldModels = s.oldModels ∧ (s.putTokens v).arrWork = s.arrWork ∧ (s.putTokens v).trims = s.trims ∧ (s.putTokens v).flash = s.flash ∧
    (s.putTokens v).emb = s.emb ∧ (s.putTokens v).load = s.load ∧ (s.putTokens v).sec = s.sec ∧ (s.putTokens v).cal = s.cal ∧
    (s.putTokens v).margins = s.margins ∧ (s.putTokens v).smb = s.smb ∧ (s.putTokens v).board = s.board ∧ (s.putTokens v).now = s.now ∧
    (∀ o, (s.putTokens v).reg o = s.reg o) ∧ (∀ o f, (s.putTokens v).fld o f = s.fld o f) ∧ (∀ p o, (s.putTokens v).regPf p o = s.regPf p o) ∧
    (∀ p o f, (s.putTokens v).fldPf p o f = s.fldPf p o f) ∧ (∀ o, (s.putTokens v).ctr o = s.ctr o) ∧ (∀ p, (s.putTokens v).part p = s.part p) ∧
    (∀ p, (s.putTokens v).pcfg p = s.pcfg p) ∧ (∀ p, (s.putTokens v).configured p = s.configured p) ∧ (∀ p, (s.putTokens v).pstate p = s.pstate p) ∧
    (s.putTokens v).isReady = s.isReady ∧ (∀ p q, (s.putTokens v).queue p q = s.queue p q) ∧ (∀ p q c, (s.putTokens v).recOf p q c = s.recOf p q c) ∧
    (∀ p q c o, (s.putTokens v).readyRec p q c o = s.readyRec p q c o) ∧ (∀ p q c o, (s.putTokens v).runningRec p q c o = s.runningRec p q c o) ∧
    (∀ a, (s.putTokens v).share a = s.share a) ∧ (∀ k n, (s.putTokens v).isFenced k n = s.isFenced k n) ∧ (∀ l, (s.putTokens v).link? l = s.link? l) ∧
    (s.putTokens v).nodeId = s.nodeId ∧ (∀ l u, (s.putTokens v).trim l u = s.trim l u) ∧ (∀ i, (s.putTokens v).calU i = s.calU i) := by
  refine ⟨?_, ?_, ?_, ?_, ?_, ?_, ?_, ?_, ?_, ?_, ?_, ?_, ?_, ?_, ?_, ?_, ?_, ?_, ?_, ?_, ?_, ?_, ?_, ?_, ?_, ?_, ?_, ?_, ?_, ?_, ?_, ?_, ?_, ?_, ?_, ?_, ?_, ?_, ?_, ?_, ?_, ?_, ?_, ?_, ?_, ?_, ?_, ?_, ?_, ?_, ?_, ?_, ?_, ?_, ?_, ?_, ?_, ?_, ?_, ?_, ?_, ?_, ?_⟩ <;> intros <;> rfl

@[simp] theorem State.putCorpora_reads (s : State) (v : KV Corpus) :
    (s.putCorpora v).corpora = v ∧ (s.putCorpora v).pending = s.pending ∧ (s.putCorpora v).time = s.time ∧ (s.putCorpora v).free = s.free ∧
    (s.putCorpora v).regs = s.regs ∧ (s.putCorpora v).ctrs = s.ctrs ∧ (s.putCorpora v).owned = s.owned ∧ (s.putCorpora v).winReg = s.winReg ∧
    (s.putCorpora v).queues = s.queues ∧ (s.putCorpora v).recs = s.recs ∧ (s.putCorpora v).nextRec = s.nextRec ∧ (s.putCorpora v).fetchNo = s.fetchNo ∧
    (s.putCorpora v).ctxs = s.ctxs ∧ (s.putCorpora v).parts = s.parts ∧ (s.putCorpora v).shares = s.shares ∧ (s.putCorpora v).vfEn = s.vfEn ∧
    (s.putCorpora v).numVfs = s.numVfs ∧ (s.putCorpora v).out = s.out ∧ (s.putCorpora v).mem = s.mem ∧ (s.putCorpora v).fab = s.fab ∧
    (s.putCorpora v).flt = s.flt ∧ (s.putCorpora v).log = s.log ∧ (s.putCorpora v).sels = s.sels ∧ (s.putCorpora v).results = s.results ∧
    (s.putCorpora v).bank = s.bank ∧ (s.putCorpora v).tokens = s.tokens ∧ (s.putCorpora v).builds = s.builds ∧ (s.putCorpora v).queries = s.queries ∧
    (s.putCorpora v).arrays = s.arrays ∧ (s.putCorpora v).atokens = s.atokens ∧ (s.putCorpora v).models = s.models ∧
    (s.putCorpora v).oldModels = s.oldModels ∧ (s.putCorpora v).arrWork = s.arrWork ∧ (s.putCorpora v).trims = s.trims ∧
    (s.putCorpora v).flash = s.flash ∧ (s.putCorpora v).emb = s.emb ∧ (s.putCorpora v).load = s.load ∧ (s.putCorpora v).sec = s.sec ∧
    (s.putCorpora v).cal = s.cal ∧ (s.putCorpora v).margins = s.margins ∧ (s.putCorpora v).smb = s.smb ∧ (s.putCorpora v).board = s.board ∧
    (s.putCorpora v).now = s.now ∧ (∀ o, (s.putCorpora v).reg o = s.reg o) ∧ (∀ o f, (s.putCorpora v).fld o f = s.fld o f) ∧
    (∀ p o, (s.putCorpora v).regPf p o = s.regPf p o) ∧ (∀ p o f, (s.putCorpora v).fldPf p o f = s.fldPf p o f) ∧
    (∀ o, (s.putCorpora v).ctr o = s.ctr o) ∧ (∀ p, (s.putCorpora v).part p = s.part p) ∧ (∀ p, (s.putCorpora v).pcfg p = s.pcfg p) ∧
    (∀ p, (s.putCorpora v).configured p = s.configured p) ∧ (∀ p, (s.putCorpora v).pstate p = s.pstate p) ∧ (s.putCorpora v).isReady = s.isReady ∧
    (∀ p q, (s.putCorpora v).queue p q = s.queue p q) ∧ (∀ p q c, (s.putCorpora v).recOf p q c = s.recOf p q c) ∧
    (∀ p q c o, (s.putCorpora v).readyRec p q c o = s.readyRec p q c o) ∧ (∀ p q c o, (s.putCorpora v).runningRec p q c o = s.runningRec p q c o) ∧
    (∀ a, (s.putCorpora v).share a = s.share a) ∧ (∀ k n, (s.putCorpora v).isFenced k n = s.isFenced k n) ∧
    (∀ l, (s.putCorpora v).link? l = s.link? l) ∧ (s.putCorpora v).nodeId = s.nodeId ∧ (∀ l u, (s.putCorpora v).trim l u = s.trim l u) ∧
    (∀ i, (s.putCorpora v).calU i = s.calU i) := by
  refine ⟨?_, ?_, ?_, ?_, ?_, ?_, ?_, ?_, ?_, ?_, ?_, ?_, ?_, ?_, ?_, ?_, ?_, ?_, ?_, ?_, ?_, ?_, ?_, ?_, ?_, ?_, ?_, ?_, ?_, ?_, ?_, ?_, ?_, ?_, ?_, ?_, ?_, ?_, ?_, ?_, ?_, ?_, ?_, ?_, ?_, ?_, ?_, ?_, ?_, ?_, ?_, ?_, ?_, ?_, ?_, ?_, ?_, ?_, ?_, ?_, ?_, ?_, ?_⟩ <;> intros <;> rfl

@[simp] theorem State.putBuilds_reads (s : State) (v : KV Build) :
    (s.putBuilds v).builds = v ∧ (s.putBuilds v).pending = s.pending ∧ (s.putBuilds v).time = s.time ∧ (s.putBuilds v).free = s.free ∧
    (s.putBuilds v).regs = s.regs ∧ (s.putBuilds v).ctrs = s.ctrs ∧ (s.putBuilds v).owned = s.owned ∧ (s.putBuilds v).winReg = s.winReg ∧
    (s.putBuilds v).queues = s.queues ∧ (s.putBuilds v).recs = s.recs ∧ (s.putBuilds v).nextRec = s.nextRec ∧ (s.putBuilds v).fetchNo = s.fetchNo ∧
    (s.putBuilds v).ctxs = s.ctxs ∧ (s.putBuilds v).parts = s.parts ∧ (s.putBuilds v).shares = s.shares ∧ (s.putBuilds v).vfEn = s.vfEn ∧
    (s.putBuilds v).numVfs = s.numVfs ∧ (s.putBuilds v).out = s.out ∧ (s.putBuilds v).mem = s.mem ∧ (s.putBuilds v).fab = s.fab ∧
    (s.putBuilds v).flt = s.flt ∧ (s.putBuilds v).log = s.log ∧ (s.putBuilds v).sels = s.sels ∧ (s.putBuilds v).results = s.results ∧
    (s.putBuilds v).bank = s.bank ∧ (s.putBuilds v).tokens = s.tokens ∧ (s.putBuilds v).corpora = s.corpora ∧ (s.putBuilds v).queries = s.queries ∧
    (s.putBuilds v).arrays = s.arrays ∧ (s.putBuilds v).atokens = s.atokens ∧ (s.putBuilds v).models = s.models ∧
    (s.putBuilds v).oldModels = s.oldModels ∧ (s.putBuilds v).arrWork = s.arrWork ∧ (s.putBuilds v).trims = s.trims ∧ (s.putBuilds v).flash = s.flash ∧
    (s.putBuilds v).emb = s.emb ∧ (s.putBuilds v).load = s.load ∧ (s.putBuilds v).sec = s.sec ∧ (s.putBuilds v).cal = s.cal ∧
    (s.putBuilds v).margins = s.margins ∧ (s.putBuilds v).smb = s.smb ∧ (s.putBuilds v).board = s.board ∧ (s.putBuilds v).now = s.now ∧
    (∀ o, (s.putBuilds v).reg o = s.reg o) ∧ (∀ o f, (s.putBuilds v).fld o f = s.fld o f) ∧ (∀ p o, (s.putBuilds v).regPf p o = s.regPf p o) ∧
    (∀ p o f, (s.putBuilds v).fldPf p o f = s.fldPf p o f) ∧ (∀ o, (s.putBuilds v).ctr o = s.ctr o) ∧ (∀ p, (s.putBuilds v).part p = s.part p) ∧
    (∀ p, (s.putBuilds v).pcfg p = s.pcfg p) ∧ (∀ p, (s.putBuilds v).configured p = s.configured p) ∧ (∀ p, (s.putBuilds v).pstate p = s.pstate p) ∧
    (s.putBuilds v).isReady = s.isReady ∧ (∀ p q, (s.putBuilds v).queue p q = s.queue p q) ∧ (∀ p q c, (s.putBuilds v).recOf p q c = s.recOf p q c) ∧
    (∀ p q c o, (s.putBuilds v).readyRec p q c o = s.readyRec p q c o) ∧ (∀ p q c o, (s.putBuilds v).runningRec p q c o = s.runningRec p q c o) ∧
    (∀ a, (s.putBuilds v).share a = s.share a) ∧ (∀ k n, (s.putBuilds v).isFenced k n = s.isFenced k n) ∧ (∀ l, (s.putBuilds v).link? l = s.link? l) ∧
    (s.putBuilds v).nodeId = s.nodeId ∧ (∀ l u, (s.putBuilds v).trim l u = s.trim l u) ∧ (∀ i, (s.putBuilds v).calU i = s.calU i) := by
  refine ⟨?_, ?_, ?_, ?_, ?_, ?_, ?_, ?_, ?_, ?_, ?_, ?_, ?_, ?_, ?_, ?_, ?_, ?_, ?_, ?_, ?_, ?_, ?_, ?_, ?_, ?_, ?_, ?_, ?_, ?_, ?_, ?_, ?_, ?_, ?_, ?_, ?_, ?_, ?_, ?_, ?_, ?_, ?_, ?_, ?_, ?_, ?_, ?_, ?_, ?_, ?_, ?_, ?_, ?_, ?_, ?_, ?_, ?_, ?_, ?_, ?_, ?_, ?_⟩ <;> intros <;> rfl

@[simp] theorem State.putQueries_reads (s : State) (v : KV Query) :
    (s.putQueries v).queries = v ∧ (s.putQueries v).pending = s.pending ∧ (s.putQueries v).time = s.time ∧ (s.putQueries v).free = s.free ∧
    (s.putQueries v).regs = s.regs ∧ (s.putQueries v).ctrs = s.ctrs ∧ (s.putQueries v).owned = s.owned ∧ (s.putQueries v).winReg = s.winReg ∧
    (s.putQueries v).queues = s.queues ∧ (s.putQueries v).recs = s.recs ∧ (s.putQueries v).nextRec = s.nextRec ∧ (s.putQueries v).fetchNo = s.fetchNo ∧
    (s.putQueries v).ctxs = s.ctxs ∧ (s.putQueries v).parts = s.parts ∧ (s.putQueries v).shares = s.shares ∧ (s.putQueries v).vfEn = s.vfEn ∧
    (s.putQueries v).numVfs = s.numVfs ∧ (s.putQueries v).out = s.out ∧ (s.putQueries v).mem = s.mem ∧ (s.putQueries v).fab = s.fab ∧
    (s.putQueries v).flt = s.flt ∧ (s.putQueries v).log = s.log ∧ (s.putQueries v).sels = s.sels ∧ (s.putQueries v).results = s.results ∧
    (s.putQueries v).bank = s.bank ∧ (s.putQueries v).tokens = s.tokens ∧ (s.putQueries v).corpora = s.corpora ∧ (s.putQueries v).builds = s.builds ∧
    (s.putQueries v).arrays = s.arrays ∧ (s.putQueries v).atokens = s.atokens ∧ (s.putQueries v).models = s.models ∧
    (s.putQueries v).oldModels = s.oldModels ∧ (s.putQueries v).arrWork = s.arrWork ∧ (s.putQueries v).trims = s.trims ∧
    (s.putQueries v).flash = s.flash ∧ (s.putQueries v).emb = s.emb ∧ (s.putQueries v).load = s.load ∧ (s.putQueries v).sec = s.sec ∧
    (s.putQueries v).cal = s.cal ∧ (s.putQueries v).margins = s.margins ∧ (s.putQueries v).smb = s.smb ∧ (s.putQueries v).board = s.board ∧
    (s.putQueries v).now = s.now ∧ (∀ o, (s.putQueries v).reg o = s.reg o) ∧ (∀ o f, (s.putQueries v).fld o f = s.fld o f) ∧
    (∀ p o, (s.putQueries v).regPf p o = s.regPf p o) ∧ (∀ p o f, (s.putQueries v).fldPf p o f = s.fldPf p o f) ∧
    (∀ o, (s.putQueries v).ctr o = s.ctr o) ∧ (∀ p, (s.putQueries v).part p = s.part p) ∧ (∀ p, (s.putQueries v).pcfg p = s.pcfg p) ∧
    (∀ p, (s.putQueries v).configured p = s.configured p) ∧ (∀ p, (s.putQueries v).pstate p = s.pstate p) ∧ (s.putQueries v).isReady = s.isReady ∧
    (∀ p q, (s.putQueries v).queue p q = s.queue p q) ∧ (∀ p q c, (s.putQueries v).recOf p q c = s.recOf p q c) ∧
    (∀ p q c o, (s.putQueries v).readyRec p q c o = s.readyRec p q c o) ∧ (∀ p q c o, (s.putQueries v).runningRec p q c o = s.runningRec p q c o) ∧
    (∀ a, (s.putQueries v).share a = s.share a) ∧ (∀ k n, (s.putQueries v).isFenced k n = s.isFenced k n) ∧
    (∀ l, (s.putQueries v).link? l = s.link? l) ∧ (s.putQueries v).nodeId = s.nodeId ∧ (∀ l u, (s.putQueries v).trim l u = s.trim l u) ∧
    (∀ i, (s.putQueries v).calU i = s.calU i) := by
  refine ⟨?_, ?_, ?_, ?_, ?_, ?_, ?_, ?_, ?_, ?_, ?_, ?_, ?_, ?_, ?_, ?_, ?_, ?_, ?_, ?_, ?_, ?_, ?_, ?_, ?_, ?_, ?_, ?_, ?_, ?_, ?_, ?_, ?_, ?_, ?_, ?_, ?_, ?_, ?_, ?_, ?_, ?_, ?_, ?_, ?_, ?_, ?_, ?_, ?_, ?_, ?_, ?_, ?_, ?_, ?_, ?_, ?_, ?_, ?_, ?_, ?_, ?_, ?_⟩ <;> intros <;> rfl

@[simp] theorem State.putArrays_reads (s : State) (v : KV ArrUnit) :
    (s.putArrays v).arrays = v ∧ (s.putArrays v).pending = s.pending ∧ (s.putArrays v).time = s.time ∧ (s.putArrays v).free = s.free ∧
    (s.putArrays v).regs = s.regs ∧ (s.putArrays v).ctrs = s.ctrs ∧ (s.putArrays v).owned = s.owned ∧ (s.putArrays v).winReg = s.winReg ∧
    (s.putArrays v).queues = s.queues ∧ (s.putArrays v).recs = s.recs ∧ (s.putArrays v).nextRec = s.nextRec ∧ (s.putArrays v).fetchNo = s.fetchNo ∧
    (s.putArrays v).ctxs = s.ctxs ∧ (s.putArrays v).parts = s.parts ∧ (s.putArrays v).shares = s.shares ∧ (s.putArrays v).vfEn = s.vfEn ∧
    (s.putArrays v).numVfs = s.numVfs ∧ (s.putArrays v).out = s.out ∧ (s.putArrays v).mem = s.mem ∧ (s.putArrays v).fab = s.fab ∧
    (s.putArrays v).flt = s.flt ∧ (s.putArrays v).log = s.log ∧ (s.putArrays v).sels = s.sels ∧ (s.putArrays v).results = s.results ∧
    (s.putArrays v).bank = s.bank ∧ (s.putArrays v).tokens = s.tokens ∧ (s.putArrays v).corpora = s.corpora ∧ (s.putArrays v).builds = s.builds ∧
    (s.putArrays v).queries = s.queries ∧ (s.putArrays v).atokens = s.atokens ∧ (s.putArrays v).models = s.models ∧
    (s.putArrays v).oldModels = s.oldModels ∧ (s.putArrays v).arrWork = s.arrWork ∧ (s.putArrays v).trims = s.trims ∧ (s.putArrays v).flash = s.flash ∧
    (s.putArrays v).emb = s.emb ∧ (s.putArrays v).load = s.load ∧ (s.putArrays v).sec = s.sec ∧ (s.putArrays v).cal = s.cal ∧
    (s.putArrays v).margins = s.margins ∧ (s.putArrays v).smb = s.smb ∧ (s.putArrays v).board = s.board ∧ (s.putArrays v).now = s.now ∧
    (∀ o, (s.putArrays v).reg o = s.reg o) ∧ (∀ o f, (s.putArrays v).fld o f = s.fld o f) ∧ (∀ p o, (s.putArrays v).regPf p o = s.regPf p o) ∧
    (∀ p o f, (s.putArrays v).fldPf p o f = s.fldPf p o f) ∧ (∀ o, (s.putArrays v).ctr o = s.ctr o) ∧ (∀ p, (s.putArrays v).part p = s.part p) ∧
    (∀ p, (s.putArrays v).pcfg p = s.pcfg p) ∧ (∀ p, (s.putArrays v).configured p = s.configured p) ∧ (∀ p, (s.putArrays v).pstate p = s.pstate p) ∧
    (s.putArrays v).isReady = s.isReady ∧ (∀ p q, (s.putArrays v).queue p q = s.queue p q) ∧ (∀ p q c, (s.putArrays v).recOf p q c = s.recOf p q c) ∧
    (∀ p q c o, (s.putArrays v).readyRec p q c o = s.readyRec p q c o) ∧ (∀ p q c o, (s.putArrays v).runningRec p q c o = s.runningRec p q c o) ∧
    (∀ a, (s.putArrays v).share a = s.share a) ∧ (∀ k n, (s.putArrays v).isFenced k n = s.isFenced k n) ∧ (∀ l, (s.putArrays v).link? l = s.link? l) ∧
    (s.putArrays v).nodeId = s.nodeId ∧ (∀ l u, (s.putArrays v).trim l u = s.trim l u) ∧ (∀ i, (s.putArrays v).calU i = s.calU i) := by
  refine ⟨?_, ?_, ?_, ?_, ?_, ?_, ?_, ?_, ?_, ?_, ?_, ?_, ?_, ?_, ?_, ?_, ?_, ?_, ?_, ?_, ?_, ?_, ?_, ?_, ?_, ?_, ?_, ?_, ?_, ?_, ?_, ?_, ?_, ?_, ?_, ?_, ?_, ?_, ?_, ?_, ?_, ?_, ?_, ?_, ?_, ?_, ?_, ?_, ?_, ?_, ?_, ?_, ?_, ?_, ?_, ?_, ?_, ?_, ?_, ?_, ?_, ?_, ?_⟩ <;> intros <;> rfl

@[simp] theorem State.putAtokens_reads (s : State) (v : List ArrToken) :
    (s.putAtokens v).atokens = v ∧ (s.putAtokens v).pending = s.pending ∧ (s.putAtokens v).time = s.time ∧ (s.putAtokens v).free = s.free ∧
    (s.putAtokens v).regs = s.regs ∧ (s.putAtokens v).ctrs = s.ctrs ∧ (s.putAtokens v).owned = s.owned ∧ (s.putAtokens v).winReg = s.winReg ∧
    (s.putAtokens v).queues = s.queues ∧ (s.putAtokens v).recs = s.recs ∧ (s.putAtokens v).nextRec = s.nextRec ∧ (s.putAtokens v).fetchNo = s.fetchNo ∧
    (s.putAtokens v).ctxs = s.ctxs ∧ (s.putAtokens v).parts = s.parts ∧ (s.putAtokens v).shares = s.shares ∧ (s.putAtokens v).vfEn = s.vfEn ∧
    (s.putAtokens v).numVfs = s.numVfs ∧ (s.putAtokens v).out = s.out ∧ (s.putAtokens v).mem = s.mem ∧ (s.putAtokens v).fab = s.fab ∧
    (s.putAtokens v).flt = s.flt ∧ (s.putAtokens v).log = s.log ∧ (s.putAtokens v).sels = s.sels ∧ (s.putAtokens v).results = s.results ∧
    (s.putAtokens v).bank = s.bank ∧ (s.putAtokens v).tokens = s.tokens ∧ (s.putAtokens v).corpora = s.corpora ∧ (s.putAtokens v).builds = s.builds ∧
    (s.putAtokens v).queries = s.queries ∧ (s.putAtokens v).arrays = s.arrays ∧ (s.putAtokens v).models = s.models ∧
    (s.putAtokens v).oldModels = s.oldModels ∧ (s.putAtokens v).arrWork = s.arrWork ∧ (s.putAtokens v).trims = s.trims ∧
    (s.putAtokens v).flash = s.flash ∧ (s.putAtokens v).emb = s.emb ∧ (s.putAtokens v).load = s.load ∧ (s.putAtokens v).sec = s.sec ∧
    (s.putAtokens v).cal = s.cal ∧ (s.putAtokens v).margins = s.margins ∧ (s.putAtokens v).smb = s.smb ∧ (s.putAtokens v).board = s.board ∧
    (s.putAtokens v).now = s.now ∧ (∀ o, (s.putAtokens v).reg o = s.reg o) ∧ (∀ o f, (s.putAtokens v).fld o f = s.fld o f) ∧
    (∀ p o, (s.putAtokens v).regPf p o = s.regPf p o) ∧ (∀ p o f, (s.putAtokens v).fldPf p o f = s.fldPf p o f) ∧
    (∀ o, (s.putAtokens v).ctr o = s.ctr o) ∧ (∀ p, (s.putAtokens v).part p = s.part p) ∧ (∀ p, (s.putAtokens v).pcfg p = s.pcfg p) ∧
    (∀ p, (s.putAtokens v).configured p = s.configured p) ∧ (∀ p, (s.putAtokens v).pstate p = s.pstate p) ∧ (s.putAtokens v).isReady = s.isReady ∧
    (∀ p q, (s.putAtokens v).queue p q = s.queue p q) ∧ (∀ p q c, (s.putAtokens v).recOf p q c = s.recOf p q c) ∧
    (∀ p q c o, (s.putAtokens v).readyRec p q c o = s.readyRec p q c o) ∧ (∀ p q c o, (s.putAtokens v).runningRec p q c o = s.runningRec p q c o) ∧
    (∀ a, (s.putAtokens v).share a = s.share a) ∧ (∀ k n, (s.putAtokens v).isFenced k n = s.isFenced k n) ∧
    (∀ l, (s.putAtokens v).link? l = s.link? l) ∧ (s.putAtokens v).nodeId = s.nodeId ∧ (∀ l u, (s.putAtokens v).trim l u = s.trim l u) ∧
    (∀ i, (s.putAtokens v).calU i = s.calU i) := by
  refine ⟨?_, ?_, ?_, ?_, ?_, ?_, ?_, ?_, ?_, ?_, ?_, ?_, ?_, ?_, ?_, ?_, ?_, ?_, ?_, ?_, ?_, ?_, ?_, ?_, ?_, ?_, ?_, ?_, ?_, ?_, ?_, ?_, ?_, ?_, ?_, ?_, ?_, ?_, ?_, ?_, ?_, ?_, ?_, ?_, ?_, ?_, ?_, ?_, ?_, ?_, ?_, ?_, ?_, ?_, ?_, ?_, ?_, ?_, ?_, ?_, ?_, ?_, ?_⟩ <;> intros <;> rfl

@[simp] theorem State.putModels_reads (s : State) (v : KV Binding) :
    (s.putModels v).models = v ∧ (s.putModels v).pending = s.pending ∧ (s.putModels v).time = s.time ∧ (s.putModels v).free = s.free ∧
    (s.putModels v).regs = s.regs ∧ (s.putModels v).ctrs = s.ctrs ∧ (s.putModels v).owned = s.owned ∧ (s.putModels v).winReg = s.winReg ∧
    (s.putModels v).queues = s.queues ∧ (s.putModels v).recs = s.recs ∧ (s.putModels v).nextRec = s.nextRec ∧ (s.putModels v).fetchNo = s.fetchNo ∧
    (s.putModels v).ctxs = s.ctxs ∧ (s.putModels v).parts = s.parts ∧ (s.putModels v).shares = s.shares ∧ (s.putModels v).vfEn = s.vfEn ∧
    (s.putModels v).numVfs = s.numVfs ∧ (s.putModels v).out = s.out ∧ (s.putModels v).mem = s.mem ∧ (s.putModels v).fab = s.fab ∧
    (s.putModels v).flt = s.flt ∧ (s.putModels v).log = s.log ∧ (s.putModels v).sels = s.sels ∧ (s.putModels v).results = s.results ∧
    (s.putModels v).bank = s.bank ∧ (s.putModels v).tokens = s.tokens ∧ (s.putModels v).corpora = s.corpora ∧ (s.putModels v).builds = s.builds ∧
    (s.putModels v).queries = s.queries ∧ (s.putModels v).arrays = s.arrays ∧ (s.putModels v).atokens = s.atokens ∧
    (s.putModels v).oldModels = s.oldModels ∧ (s.putModels v).arrWork = s.arrWork ∧ (s.putModels v).trims = s.trims ∧ (s.putModels v).flash = s.flash ∧
    (s.putModels v).emb = s.emb ∧ (s.putModels v).load = s.load ∧ (s.putModels v).sec = s.sec ∧ (s.putModels v).cal = s.cal ∧
    (s.putModels v).margins = s.margins ∧ (s.putModels v).smb = s.smb ∧ (s.putModels v).board = s.board ∧ (s.putModels v).now = s.now ∧
    (∀ o, (s.putModels v).reg o = s.reg o) ∧ (∀ o f, (s.putModels v).fld o f = s.fld o f) ∧ (∀ p o, (s.putModels v).regPf p o = s.regPf p o) ∧
    (∀ p o f, (s.putModels v).fldPf p o f = s.fldPf p o f) ∧ (∀ o, (s.putModels v).ctr o = s.ctr o) ∧ (∀ p, (s.putModels v).part p = s.part p) ∧
    (∀ p, (s.putModels v).pcfg p = s.pcfg p) ∧ (∀ p, (s.putModels v).configured p = s.configured p) ∧ (∀ p, (s.putModels v).pstate p = s.pstate p) ∧
    (s.putModels v).isReady = s.isReady ∧ (∀ p q, (s.putModels v).queue p q = s.queue p q) ∧ (∀ p q c, (s.putModels v).recOf p q c = s.recOf p q c) ∧
    (∀ p q c o, (s.putModels v).readyRec p q c o = s.readyRec p q c o) ∧ (∀ p q c o, (s.putModels v).runningRec p q c o = s.runningRec p q c o) ∧
    (∀ a, (s.putModels v).share a = s.share a) ∧ (∀ k n, (s.putModels v).isFenced k n = s.isFenced k n) ∧ (∀ l, (s.putModels v).link? l = s.link? l) ∧
    (s.putModels v).nodeId = s.nodeId ∧ (∀ l u, (s.putModels v).trim l u = s.trim l u) ∧ (∀ i, (s.putModels v).calU i = s.calU i) := by
  refine ⟨?_, ?_, ?_, ?_, ?_, ?_, ?_, ?_, ?_, ?_, ?_, ?_, ?_, ?_, ?_, ?_, ?_, ?_, ?_, ?_, ?_, ?_, ?_, ?_, ?_, ?_, ?_, ?_, ?_, ?_, ?_, ?_, ?_, ?_, ?_, ?_, ?_, ?_, ?_, ?_, ?_, ?_, ?_, ?_, ?_, ?_, ?_, ?_, ?_, ?_, ?_, ?_, ?_, ?_, ?_, ?_, ?_, ?_, ?_, ?_, ?_, ?_, ?_⟩ <;> intros <;> rfl

@[simp] theorem State.putOldModels_reads (s : State) (v : List (Nat × Binding)) :
    (s.putOldModels v).oldModels = v ∧ (s.putOldModels v).pending = s.pending ∧ (s.putOldModels v).time = s.time ∧ (s.putOldModels v).free = s.free ∧
    (s.putOldModels v).regs = s.regs ∧ (s.putOldModels v).ctrs = s.ctrs ∧ (s.putOldModels v).owned = s.owned ∧ (s.putOldModels v).winReg = s.winReg ∧
    (s.putOldModels v).queues = s.queues ∧ (s.putOldModels v).recs = s.recs ∧ (s.putOldModels v).nextRec = s.nextRec ∧
    (s.putOldModels v).fetchNo = s.fetchNo ∧ (s.putOldModels v).ctxs = s.ctxs ∧ (s.putOldModels v).parts = s.parts ∧
    (s.putOldModels v).shares = s.shares ∧ (s.putOldModels v).vfEn = s.vfEn ∧ (s.putOldModels v).numVfs = s.numVfs ∧ (s.putOldModels v).out = s.out ∧
    (s.putOldModels v).mem = s.mem ∧ (s.putOldModels v).fab = s.fab ∧ (s.putOldModels v).flt = s.flt ∧ (s.putOldModels v).log = s.log ∧
    (s.putOldModels v).sels = s.sels ∧ (s.putOldModels v).results = s.results ∧ (s.putOldModels v).bank = s.bank ∧
    (s.putOldModels v).tokens = s.tokens ∧ (s.putOldModels v).corpora = s.corpora ∧ (s.putOldModels v).builds = s.builds ∧
    (s.putOldModels v).queries = s.queries ∧ (s.putOldModels v).arrays = s.arrays ∧ (s.putOldModels v).atokens = s.atokens ∧
    (s.putOldModels v).models = s.models ∧ (s.putOldModels v).arrWork = s.arrWork ∧ (s.putOldModels v).trims = s.trims ∧
    (s.putOldModels v).flash = s.flash ∧ (s.putOldModels v).emb = s.emb ∧ (s.putOldModels v).load = s.load ∧ (s.putOldModels v).sec = s.sec ∧
    (s.putOldModels v).cal = s.cal ∧ (s.putOldModels v).margins = s.margins ∧ (s.putOldModels v).smb = s.smb ∧ (s.putOldModels v).board = s.board ∧
    (s.putOldModels v).now = s.now ∧ (∀ o, (s.putOldModels v).reg o = s.reg o) ∧ (∀ o f, (s.putOldModels v).fld o f = s.fld o f) ∧
    (∀ p o, (s.putOldModels v).regPf p o = s.regPf p o) ∧ (∀ p o f, (s.putOldModels v).fldPf p o f = s.fldPf p o f) ∧
    (∀ o, (s.putOldModels v).ctr o = s.ctr o) ∧ (∀ p, (s.putOldModels v).part p = s.part p) ∧ (∀ p, (s.putOldModels v).pcfg p = s.pcfg p) ∧
    (∀ p, (s.putOldModels v).configured p = s.configured p) ∧ (∀ p, (s.putOldModels v).pstate p = s.pstate p) ∧
    (s.putOldModels v).isReady = s.isReady ∧ (∀ p q, (s.putOldModels v).queue p q = s.queue p q) ∧
    (∀ p q c, (s.putOldModels v).recOf p q c = s.recOf p q c) ∧ (∀ p q c o, (s.putOldModels v).readyRec p q c o = s.readyRec p q c o) ∧
    (∀ p q c o, (s.putOldModels v).runningRec p q c o = s.runningRec p q c o) ∧ (∀ a, (s.putOldModels v).share a = s.share a) ∧
    (∀ k n, (s.putOldModels v).isFenced k n = s.isFenced k n) ∧ (∀ l, (s.putOldModels v).link? l = s.link? l) ∧ (s.putOldModels v).nodeId = s.nodeId ∧
    (∀ l u, (s.putOldModels v).trim l u = s.trim l u) ∧ (∀ i, (s.putOldModels v).calU i = s.calU i) := by
  refine ⟨?_, ?_, ?_, ?_, ?_, ?_, ?_, ?_, ?_, ?_, ?_, ?_, ?_, ?_, ?_, ?_, ?_, ?_, ?_, ?_, ?_, ?_, ?_, ?_, ?_, ?_, ?_, ?_, ?_, ?_, ?_, ?_, ?_, ?_, ?_, ?_, ?_, ?_, ?_, ?_, ?_, ?_, ?_, ?_, ?_, ?_, ?_, ?_, ?_, ?_, ?_, ?_, ?_, ?_, ?_, ?_, ?_, ?_, ?_, ?_, ?_, ?_, ?_⟩ <;> intros <;> rfl

@[simp] theorem State.putArrWork_reads (s : State) (v : List (Nat × Nat)) :
    (s.putArrWork v).arrWork = v ∧ (s.putArrWork v).pending = s.pending ∧ (s.putArrWork v).time = s.time ∧ (s.putArrWork v).free = s.free ∧
    (s.putArrWork v).regs = s.regs ∧ (s.putArrWork v).ctrs = s.ctrs ∧ (s.putArrWork v).owned = s.owned ∧ (s.putArrWork v).winReg = s.winReg ∧
    (s.putArrWork v).queues = s.queues ∧ (s.putArrWork v).recs = s.recs ∧ (s.putArrWork v).nextRec = s.nextRec ∧ (s.putArrWork v).fetchNo = s.fetchNo ∧
    (s.putArrWork v).ctxs = s.ctxs ∧ (s.putArrWork v).parts = s.parts ∧ (s.putArrWork v).shares = s.shares ∧ (s.putArrWork v).vfEn = s.vfEn ∧
    (s.putArrWork v).numVfs = s.numVfs ∧ (s.putArrWork v).out = s.out ∧ (s.putArrWork v).mem = s.mem ∧ (s.putArrWork v).fab = s.fab ∧
    (s.putArrWork v).flt = s.flt ∧ (s.putArrWork v).log = s.log ∧ (s.putArrWork v).sels = s.sels ∧ (s.putArrWork v).results = s.results ∧
    (s.putArrWork v).bank = s.bank ∧ (s.putArrWork v).tokens = s.tokens ∧ (s.putArrWork v).corpora = s.corpora ∧ (s.putArrWork v).builds = s.builds ∧
    (s.putArrWork v).queries = s.queries ∧ (s.putArrWork v).arrays = s.arrays ∧ (s.putArrWork v).atokens = s.atokens ∧
    (s.putArrWork v).models = s.models ∧ (s.putArrWork v).oldModels = s.oldModels ∧ (s.putArrWork v).trims = s.trims ∧
    (s.putArrWork v).flash = s.flash ∧ (s.putArrWork v).emb = s.emb ∧ (s.putArrWork v).load = s.load ∧ (s.putArrWork v).sec = s.sec ∧
    (s.putArrWork v).cal = s.cal ∧ (s.putArrWork v).margins = s.margins ∧ (s.putArrWork v).smb = s.smb ∧ (s.putArrWork v).board = s.board ∧
    (s.putArrWork v).now = s.now ∧ (∀ o, (s.putArrWork v).reg o = s.reg o) ∧ (∀ o f, (s.putArrWork v).fld o f = s.fld o f) ∧
    (∀ p o, (s.putArrWork v).regPf p o = s.regPf p o) ∧ (∀ p o f, (s.putArrWork v).fldPf p o f = s.fldPf p o f) ∧
    (∀ o, (s.putArrWork v).ctr o = s.ctr o) ∧ (∀ p, (s.putArrWork v).part p = s.part p) ∧ (∀ p, (s.putArrWork v).pcfg p = s.pcfg p) ∧
    (∀ p, (s.putArrWork v).configured p = s.configured p) ∧ (∀ p, (s.putArrWork v).pstate p = s.pstate p) ∧ (s.putArrWork v).isReady = s.isReady ∧
    (∀ p q, (s.putArrWork v).queue p q = s.queue p q) ∧ (∀ p q c, (s.putArrWork v).recOf p q c = s.recOf p q c) ∧
    (∀ p q c o, (s.putArrWork v).readyRec p q c o = s.readyRec p q c o) ∧ (∀ p q c o, (s.putArrWork v).runningRec p q c o = s.runningRec p q c o) ∧
    (∀ a, (s.putArrWork v).share a = s.share a) ∧ (∀ k n, (s.putArrWork v).isFenced k n = s.isFenced k n) ∧
    (∀ l, (s.putArrWork v).link? l = s.link? l) ∧ (s.putArrWork v).nodeId = s.nodeId ∧ (∀ l u, (s.putArrWork v).trim l u = s.trim l u) ∧
    (∀ i, (s.putArrWork v).calU i = s.calU i) := by
  refine ⟨?_, ?_, ?_, ?_, ?_, ?_, ?_, ?_, ?_, ?_, ?_, ?_, ?_, ?_, ?_, ?_, ?_, ?_, ?_, ?_, ?_, ?_, ?_, ?_, ?_, ?_, ?_, ?_, ?_, ?_, ?_, ?_, ?_, ?_, ?_, ?_, ?_, ?_, ?_, ?_, ?_, ?_, ?_, ?_, ?_, ?_, ?_, ?_, ?_, ?_, ?_, ?_, ?_, ?_, ?_, ?_, ?_, ?_, ?_, ?_, ?_, ?_, ?_⟩ <;> intros <;> rfl

@[simp] theorem State.putTrims_reads (s : State) (v : KV TrimUnit) :
    (s.putTrims v).trims = v ∧ (s.putTrims v).pending = s.pending ∧ (s.putTrims v).time = s.time ∧ (s.putTrims v).free = s.free ∧
    (s.putTrims v).regs = s.regs ∧ (s.putTrims v).ctrs = s.ctrs ∧ (s.putTrims v).owned = s.owned ∧ (s.putTrims v).winReg = s.winReg ∧
    (s.putTrims v).queues = s.queues ∧ (s.putTrims v).recs = s.recs ∧ (s.putTrims v).nextRec = s.nextRec ∧ (s.putTrims v).fetchNo = s.fetchNo ∧
    (s.putTrims v).ctxs = s.ctxs ∧ (s.putTrims v).parts = s.parts ∧ (s.putTrims v).shares = s.shares ∧ (s.putTrims v).vfEn = s.vfEn ∧
    (s.putTrims v).numVfs = s.numVfs ∧ (s.putTrims v).out = s.out ∧ (s.putTrims v).mem = s.mem ∧ (s.putTrims v).fab = s.fab ∧
    (s.putTrims v).flt = s.flt ∧ (s.putTrims v).log = s.log ∧ (s.putTrims v).sels = s.sels ∧ (s.putTrims v).results = s.results ∧
    (s.putTrims v).bank = s.bank ∧ (s.putTrims v).tokens = s.tokens ∧ (s.putTrims v).corpora = s.corpora ∧ (s.putTrims v).builds = s.builds ∧
    (s.putTrims v).queries = s.queries ∧ (s.putTrims v).arrays = s.arrays ∧ (s.putTrims v).atokens = s.atokens ∧ (s.putTrims v).models = s.models ∧
    (s.putTrims v).oldModels = s.oldModels ∧ (s.putTrims v).arrWork = s.arrWork ∧ (s.putTrims v).flash = s.flash ∧ (s.putTrims v).emb = s.emb ∧
    (s.putTrims v).load = s.load ∧ (s.putTrims v).sec = s.sec ∧ (s.putTrims v).cal = s.cal ∧ (s.putTrims v).margins = s.margins ∧
    (s.putTrims v).smb = s.smb ∧ (s.putTrims v).board = s.board ∧ (s.putTrims v).now = s.now ∧ (∀ o, (s.putTrims v).reg o = s.reg o) ∧
    (∀ o f, (s.putTrims v).fld o f = s.fld o f) ∧ (∀ p o, (s.putTrims v).regPf p o = s.regPf p o) ∧
    (∀ p o f, (s.putTrims v).fldPf p o f = s.fldPf p o f) ∧ (∀ o, (s.putTrims v).ctr o = s.ctr o) ∧ (∀ p, (s.putTrims v).part p = s.part p) ∧
    (∀ p, (s.putTrims v).pcfg p = s.pcfg p) ∧ (∀ p, (s.putTrims v).configured p = s.configured p) ∧ (∀ p, (s.putTrims v).pstate p = s.pstate p) ∧
    (s.putTrims v).isReady = s.isReady ∧ (∀ p q, (s.putTrims v).queue p q = s.queue p q) ∧ (∀ p q c, (s.putTrims v).recOf p q c = s.recOf p q c) ∧
    (∀ p q c o, (s.putTrims v).readyRec p q c o = s.readyRec p q c o) ∧ (∀ p q c o, (s.putTrims v).runningRec p q c o = s.runningRec p q c o) ∧
    (∀ a, (s.putTrims v).share a = s.share a) ∧ (∀ k n, (s.putTrims v).isFenced k n = s.isFenced k n) ∧ (∀ l, (s.putTrims v).link? l = s.link? l) ∧
    (s.putTrims v).nodeId = s.nodeId ∧ (∀ i, (s.putTrims v).calU i = s.calU i) := by
  refine ⟨?_, ?_, ?_, ?_, ?_, ?_, ?_, ?_, ?_, ?_, ?_, ?_, ?_, ?_, ?_, ?_, ?_, ?_, ?_, ?_, ?_, ?_, ?_, ?_, ?_, ?_, ?_, ?_, ?_, ?_, ?_, ?_, ?_, ?_, ?_, ?_, ?_, ?_, ?_, ?_, ?_, ?_, ?_, ?_, ?_, ?_, ?_, ?_, ?_, ?_, ?_, ?_, ?_, ?_, ?_, ?_, ?_, ?_, ?_, ?_, ?_, ?_⟩ <;> intros <;> rfl

@[simp] theorem State.putFlash_reads (s : State) (v : Flash) :
    (s.putFlash v).flash = v ∧ (s.putFlash v).pending = s.pending ∧ (s.putFlash v).time = s.time ∧ (s.putFlash v).free = s.free ∧
    (s.putFlash v).regs = s.regs ∧ (s.putFlash v).ctrs = s.ctrs ∧ (s.putFlash v).owned = s.owned ∧ (s.putFlash v).winReg = s.winReg ∧
    (s.putFlash v).queues = s.queues ∧ (s.putFlash v).recs = s.recs ∧ (s.putFlash v).nextRec = s.nextRec ∧ (s.putFlash v).fetchNo = s.fetchNo ∧
    (s.putFlash v).ctxs = s.ctxs ∧ (s.putFlash v).parts = s.parts ∧ (s.putFlash v).shares = s.shares ∧ (s.putFlash v).vfEn = s.vfEn ∧
    (s.putFlash v).numVfs = s.numVfs ∧ (s.putFlash v).out = s.out ∧ (s.putFlash v).mem = s.mem ∧ (s.putFlash v).fab = s.fab ∧
    (s.putFlash v).flt = s.flt ∧ (s.putFlash v).log = s.log ∧ (s.putFlash v).sels = s.sels ∧ (s.putFlash v).results = s.results ∧
    (s.putFlash v).bank = s.bank ∧ (s.putFlash v).tokens = s.tokens ∧ (s.putFlash v).corpora = s.corpora ∧ (s.putFlash v).builds = s.builds ∧
    (s.putFlash v).queries = s.queries ∧ (s.putFlash v).arrays = s.arrays ∧ (s.putFlash v).atokens = s.atokens ∧ (s.putFlash v).models = s.models ∧
    (s.putFlash v).oldModels = s.oldModels ∧ (s.putFlash v).arrWork = s.arrWork ∧ (s.putFlash v).trims = s.trims ∧ (s.putFlash v).emb = s.emb ∧
    (s.putFlash v).load = s.load ∧ (s.putFlash v).sec = s.sec ∧ (s.putFlash v).cal = s.cal ∧ (s.putFlash v).margins = s.margins ∧
    (s.putFlash v).smb = s.smb ∧ (s.putFlash v).board = s.board ∧ (s.putFlash v).now = s.now ∧ (∀ o, (s.putFlash v).reg o = s.reg o) ∧
    (∀ o f, (s.putFlash v).fld o f = s.fld o f) ∧ (∀ p o, (s.putFlash v).regPf p o = s.regPf p o) ∧
    (∀ p o f, (s.putFlash v).fldPf p o f = s.fldPf p o f) ∧ (∀ o, (s.putFlash v).ctr o = s.ctr o) ∧ (∀ p, (s.putFlash v).part p = s.part p) ∧
    (∀ p, (s.putFlash v).pcfg p = s.pcfg p) ∧ (∀ p, (s.putFlash v).configured p = s.configured p) ∧ (∀ p, (s.putFlash v).pstate p = s.pstate p) ∧
    (s.putFlash v).isReady = s.isReady ∧ (∀ p q, (s.putFlash v).queue p q = s.queue p q) ∧ (∀ p q c, (s.putFlash v).recOf p q c = s.recOf p q c) ∧
    (∀ p q c o, (s.putFlash v).readyRec p q c o = s.readyRec p q c o) ∧ (∀ p q c o, (s.putFlash v).runningRec p q c o = s.runningRec p q c o) ∧
    (∀ a, (s.putFlash v).share a = s.share a) ∧ (∀ k n, (s.putFlash v).isFenced k n = s.isFenced k n) ∧ (∀ l, (s.putFlash v).link? l = s.link? l) ∧
    (s.putFlash v).nodeId = s.nodeId ∧ (∀ l u, (s.putFlash v).trim l u = s.trim l u) ∧ (∀ i, (s.putFlash v).calU i = s.calU i) := by
  refine ⟨?_, ?_, ?_, ?_, ?_, ?_, ?_, ?_, ?_, ?_, ?_, ?_, ?_, ?_, ?_, ?_, ?_, ?_, ?_, ?_, ?_, ?_, ?_, ?_, ?_, ?_, ?_, ?_, ?_, ?_, ?_, ?_, ?_, ?_, ?_, ?_, ?_, ?_, ?_, ?_, ?_, ?_, ?_, ?_, ?_, ?_, ?_, ?_, ?_, ?_, ?_, ?_, ?_, ?_, ?_, ?_, ?_, ?_, ?_, ?_, ?_, ?_, ?_⟩ <;> intros <;> rfl

@[simp] theorem State.putEmb_reads (s : State) (v : Emb) :
    (s.putEmb v).emb = v ∧ (s.putEmb v).pending = s.pending ∧ (s.putEmb v).time = s.time ∧ (s.putEmb v).free = s.free ∧ (s.putEmb v).regs = s.regs ∧
    (s.putEmb v).ctrs = s.ctrs ∧ (s.putEmb v).owned = s.owned ∧ (s.putEmb v).winReg = s.winReg ∧ (s.putEmb v).queues = s.queues ∧
    (s.putEmb v).recs = s.recs ∧ (s.putEmb v).nextRec = s.nextRec ∧ (s.putEmb v).fetchNo = s.fetchNo ∧ (s.putEmb v).ctxs = s.ctxs ∧
    (s.putEmb v).parts = s.parts ∧ (s.putEmb v).shares = s.shares ∧ (s.putEmb v).vfEn = s.vfEn ∧ (s.putEmb v).numVfs = s.numVfs ∧
    (s.putEmb v).out = s.out ∧ (s.putEmb v).mem = s.mem ∧ (s.putEmb v).fab = s.fab ∧ (s.putEmb v).flt = s.flt ∧ (s.putEmb v).log = s.log ∧
    (s.putEmb v).sels = s.sels ∧ (s.putEmb v).results = s.results ∧ (s.putEmb v).bank = s.bank ∧ (s.putEmb v).tokens = s.tokens ∧
    (s.putEmb v).corpora = s.corpora ∧ (s.putEmb v).builds = s.builds ∧ (s.putEmb v).queries = s.queries ∧ (s.putEmb v).arrays = s.arrays ∧
    (s.putEmb v).atokens = s.atokens ∧ (s.putEmb v).models = s.models ∧ (s.putEmb v).oldModels = s.oldModels ∧ (s.putEmb v).arrWork = s.arrWork ∧
    (s.putEmb v).trims = s.trims ∧ (s.putEmb v).flash = s.flash ∧ (s.putEmb v).load = s.load ∧ (s.putEmb v).sec = s.sec ∧ (s.putEmb v).cal = s.cal ∧
    (s.putEmb v).margins = s.margins ∧ (s.putEmb v).smb = s.smb ∧ (s.putEmb v).board = s.board ∧ (s.putEmb v).now = s.now ∧
    (∀ o, (s.putEmb v).reg o = s.reg o) ∧ (∀ o f, (s.putEmb v).fld o f = s.fld o f) ∧ (∀ p o, (s.putEmb v).regPf p o = s.regPf p o) ∧
    (∀ p o f, (s.putEmb v).fldPf p o f = s.fldPf p o f) ∧ (∀ o, (s.putEmb v).ctr o = s.ctr o) ∧ (∀ p, (s.putEmb v).part p = s.part p) ∧
    (∀ p, (s.putEmb v).pcfg p = s.pcfg p) ∧ (∀ p, (s.putEmb v).configured p = s.configured p) ∧ (∀ p, (s.putEmb v).pstate p = s.pstate p) ∧
    (s.putEmb v).isReady = s.isReady ∧ (∀ p q, (s.putEmb v).queue p q = s.queue p q) ∧ (∀ p q c, (s.putEmb v).recOf p q c = s.recOf p q c) ∧
    (∀ p q c o, (s.putEmb v).readyRec p q c o = s.readyRec p q c o) ∧ (∀ p q c o, (s.putEmb v).runningRec p q c o = s.runningRec p q c o) ∧
    (∀ a, (s.putEmb v).share a = s.share a) ∧ (∀ k n, (s.putEmb v).isFenced k n = s.isFenced k n) ∧ (∀ l, (s.putEmb v).link? l = s.link? l) ∧
    (s.putEmb v).nodeId = s.nodeId ∧ (∀ l u, (s.putEmb v).trim l u = s.trim l u) ∧ (∀ i, (s.putEmb v).calU i = s.calU i) := by
  refine ⟨?_, ?_, ?_, ?_, ?_, ?_, ?_, ?_, ?_, ?_, ?_, ?_, ?_, ?_, ?_, ?_, ?_, ?_, ?_, ?_, ?_, ?_, ?_, ?_, ?_, ?_, ?_, ?_, ?_, ?_, ?_, ?_, ?_, ?_, ?_, ?_, ?_, ?_, ?_, ?_, ?_, ?_, ?_, ?_, ?_, ?_, ?_, ?_, ?_, ?_, ?_, ?_, ?_, ?_, ?_, ?_, ?_, ?_, ?_, ?_, ?_, ?_, ?_⟩ <;> intros <;> rfl

@[simp] theorem State.putLoad_reads (s : State) (v : Option Load) :
    (s.putLoad v).load = v ∧ (s.putLoad v).pending = s.pending ∧ (s.putLoad v).time = s.time ∧ (s.putLoad v).free = s.free ∧
    (s.putLoad v).regs = s.regs ∧ (s.putLoad v).ctrs = s.ctrs ∧ (s.putLoad v).owned = s.owned ∧ (s.putLoad v).winReg = s.winReg ∧
    (s.putLoad v).queues = s.queues ∧ (s.putLoad v).recs = s.recs ∧ (s.putLoad v).nextRec = s.nextRec ∧ (s.putLoad v).fetchNo = s.fetchNo ∧
    (s.putLoad v).ctxs = s.ctxs ∧ (s.putLoad v).parts = s.parts ∧ (s.putLoad v).shares = s.shares ∧ (s.putLoad v).vfEn = s.vfEn ∧
    (s.putLoad v).numVfs = s.numVfs ∧ (s.putLoad v).out = s.out ∧ (s.putLoad v).mem = s.mem ∧ (s.putLoad v).fab = s.fab ∧ (s.putLoad v).flt = s.flt ∧
    (s.putLoad v).log = s.log ∧ (s.putLoad v).sels = s.sels ∧ (s.putLoad v).results = s.results ∧ (s.putLoad v).bank = s.bank ∧
    (s.putLoad v).tokens = s.tokens ∧ (s.putLoad v).corpora = s.corpora ∧ (s.putLoad v).builds = s.builds ∧ (s.putLoad v).queries = s.queries ∧
    (s.putLoad v).arrays = s.arrays ∧ (s.putLoad v).atokens = s.atokens ∧ (s.putLoad v).models = s.models ∧ (s.putLoad v).oldModels = s.oldModels ∧
    (s.putLoad v).arrWork = s.arrWork ∧ (s.putLoad v).trims = s.trims ∧ (s.putLoad v).flash = s.flash ∧ (s.putLoad v).emb = s.emb ∧
    (s.putLoad v).sec = s.sec ∧ (s.putLoad v).cal = s.cal ∧ (s.putLoad v).margins = s.margins ∧ (s.putLoad v).smb = s.smb ∧
    (s.putLoad v).board = s.board ∧ (s.putLoad v).now = s.now ∧ (∀ o, (s.putLoad v).reg o = s.reg o) ∧ (∀ o f, (s.putLoad v).fld o f = s.fld o f) ∧
    (∀ p o, (s.putLoad v).regPf p o = s.regPf p o) ∧ (∀ p o f, (s.putLoad v).fldPf p o f = s.fldPf p o f) ∧ (∀ o, (s.putLoad v).ctr o = s.ctr o) ∧
    (∀ p, (s.putLoad v).part p = s.part p) ∧ (∀ p, (s.putLoad v).pcfg p = s.pcfg p) ∧ (∀ p, (s.putLoad v).configured p = s.configured p) ∧
    (∀ p, (s.putLoad v).pstate p = s.pstate p) ∧ (s.putLoad v).isReady = s.isReady ∧ (∀ p q, (s.putLoad v).queue p q = s.queue p q) ∧
    (∀ p q c, (s.putLoad v).recOf p q c = s.recOf p q c) ∧ (∀ p q c o, (s.putLoad v).readyRec p q c o = s.readyRec p q c o) ∧
    (∀ p q c o, (s.putLoad v).runningRec p q c o = s.runningRec p q c o) ∧ (∀ a, (s.putLoad v).share a = s.share a) ∧
    (∀ k n, (s.putLoad v).isFenced k n = s.isFenced k n) ∧ (∀ l, (s.putLoad v).link? l = s.link? l) ∧ (s.putLoad v).nodeId = s.nodeId ∧
    (∀ l u, (s.putLoad v).trim l u = s.trim l u) ∧ (∀ i, (s.putLoad v).calU i = s.calU i) := by
  refine ⟨?_, ?_, ?_, ?_, ?_, ?_, ?_, ?_, ?_, ?_, ?_, ?_, ?_, ?_, ?_, ?_, ?_, ?_, ?_, ?_, ?_, ?_, ?_, ?_, ?_, ?_, ?_, ?_, ?_, ?_, ?_, ?_, ?_, ?_, ?_, ?_, ?_, ?_, ?_, ?_, ?_, ?_, ?_, ?_, ?_, ?_, ?_, ?_, ?_, ?_, ?_, ?_, ?_, ?_, ?_, ?_, ?_, ?_, ?_, ?_, ?_, ?_, ?_⟩ <;> intros <;> rfl

@[simp] theorem State.putSec_reads (s : State) (v : Sec) :
    (s.putSec v).sec = v ∧ (s.putSec v).pending = s.pending ∧ (s.putSec v).time = s.time ∧ (s.putSec v).free = s.free ∧ (s.putSec v).regs = s.regs ∧
    (s.putSec v).ctrs = s.ctrs ∧ (s.putSec v).owned = s.owned ∧ (s.putSec v).winReg = s.winReg ∧ (s.putSec v).queues = s.queues ∧
    (s.putSec v).recs = s.recs ∧ (s.putSec v).nextRec = s.nextRec ∧ (s.putSec v).fetchNo = s.fetchNo ∧ (s.putSec v).ctxs = s.ctxs ∧
    (s.putSec v).parts = s.parts ∧ (s.putSec v).shares = s.shares ∧ (s.putSec v).vfEn = s.vfEn ∧ (s.putSec v).numVfs = s.numVfs ∧
    (s.putSec v).out = s.out ∧ (s.putSec v).mem = s.mem ∧ (s.putSec v).fab = s.fab ∧ (s.putSec v).flt = s.flt ∧ (s.putSec v).log = s.log ∧
    (s.putSec v).sels = s.sels ∧ (s.putSec v).results = s.results ∧ (s.putSec v).bank = s.bank ∧ (s.putSec v).tokens = s.tokens ∧
    (s.putSec v).corpora = s.corpora ∧ (s.putSec v).builds = s.builds ∧ (s.putSec v).queries = s.queries ∧ (s.putSec v).arrays = s.arrays ∧
    (s.putSec v).atokens = s.atokens ∧ (s.putSec v).models = s.models ∧ (s.putSec v).oldModels = s.oldModels ∧ (s.putSec v).arrWork = s.arrWork ∧
    (s.putSec v).trims = s.trims ∧ (s.putSec v).flash = s.flash ∧ (s.putSec v).emb = s.emb ∧ (s.putSec v).load = s.load ∧ (s.putSec v).cal = s.cal ∧
    (s.putSec v).margins = s.margins ∧ (s.putSec v).smb = s.smb ∧ (s.putSec v).board = s.board ∧ (s.putSec v).now = s.now ∧
    (∀ o, (s.putSec v).reg o = s.reg o) ∧ (∀ o f, (s.putSec v).fld o f = s.fld o f) ∧ (∀ p o, (s.putSec v).regPf p o = s.regPf p o) ∧
    (∀ p o f, (s.putSec v).fldPf p o f = s.fldPf p o f) ∧ (∀ o, (s.putSec v).ctr o = s.ctr o) ∧ (∀ p, (s.putSec v).part p = s.part p) ∧
    (∀ p, (s.putSec v).pcfg p = s.pcfg p) ∧ (∀ p, (s.putSec v).configured p = s.configured p) ∧ (∀ p, (s.putSec v).pstate p = s.pstate p) ∧
    (s.putSec v).isReady = s.isReady ∧ (∀ p q, (s.putSec v).queue p q = s.queue p q) ∧ (∀ p q c, (s.putSec v).recOf p q c = s.recOf p q c) ∧
    (∀ p q c o, (s.putSec v).readyRec p q c o = s.readyRec p q c o) ∧ (∀ p q c o, (s.putSec v).runningRec p q c o = s.runningRec p q c o) ∧
    (∀ a, (s.putSec v).share a = s.share a) ∧ (∀ k n, (s.putSec v).isFenced k n = s.isFenced k n) ∧ (∀ l, (s.putSec v).link? l = s.link? l) ∧
    (s.putSec v).nodeId = s.nodeId ∧ (∀ l u, (s.putSec v).trim l u = s.trim l u) ∧ (∀ i, (s.putSec v).calU i = s.calU i) := by
  refine ⟨?_, ?_, ?_, ?_, ?_, ?_, ?_, ?_, ?_, ?_, ?_, ?_, ?_, ?_, ?_, ?_, ?_, ?_, ?_, ?_, ?_, ?_, ?_, ?_, ?_, ?_, ?_, ?_, ?_, ?_, ?_, ?_, ?_, ?_, ?_, ?_, ?_, ?_, ?_, ?_, ?_, ?_, ?_, ?_, ?_, ?_, ?_, ?_, ?_, ?_, ?_, ?_, ?_, ?_, ?_, ?_, ?_, ?_, ?_, ?_, ?_, ?_, ?_⟩ <;> intros <;> rfl

@[simp] theorem State.putCal_reads (s : State) (v : KV Int) :
    (s.putCal v).cal = v ∧ (s.putCal v).pending = s.pending ∧ (s.putCal v).time = s.time ∧ (s.putCal v).free = s.free ∧ (s.putCal v).regs = s.regs ∧
    (s.putCal v).ctrs = s.ctrs ∧ (s.putCal v).owned = s.owned ∧ (s.putCal v).winReg = s.winReg ∧ (s.putCal v).queues = s.queues ∧
    (s.putCal v).recs = s.recs ∧ (s.putCal v).nextRec = s.nextRec ∧ (s.putCal v).fetchNo = s.fetchNo ∧ (s.putCal v).ctxs = s.ctxs ∧
    (s.putCal v).parts = s.parts ∧ (s.putCal v).shares = s.shares ∧ (s.putCal v).vfEn = s.vfEn ∧ (s.putCal v).numVfs = s.numVfs ∧
    (s.putCal v).out = s.out ∧ (s.putCal v).mem = s.mem ∧ (s.putCal v).fab = s.fab ∧ (s.putCal v).flt = s.flt ∧ (s.putCal v).log = s.log ∧
    (s.putCal v).sels = s.sels ∧ (s.putCal v).results = s.results ∧ (s.putCal v).bank = s.bank ∧ (s.putCal v).tokens = s.tokens ∧
    (s.putCal v).corpora = s.corpora ∧ (s.putCal v).builds = s.builds ∧ (s.putCal v).queries = s.queries ∧ (s.putCal v).arrays = s.arrays ∧
    (s.putCal v).atokens = s.atokens ∧ (s.putCal v).models = s.models ∧ (s.putCal v).oldModels = s.oldModels ∧ (s.putCal v).arrWork = s.arrWork ∧
    (s.putCal v).trims = s.trims ∧ (s.putCal v).flash = s.flash ∧ (s.putCal v).emb = s.emb ∧ (s.putCal v).load = s.load ∧ (s.putCal v).sec = s.sec ∧
    (s.putCal v).margins = s.margins ∧ (s.putCal v).smb = s.smb ∧ (s.putCal v).board = s.board ∧ (s.putCal v).now = s.now ∧
    (∀ o, (s.putCal v).reg o = s.reg o) ∧ (∀ o f, (s.putCal v).fld o f = s.fld o f) ∧ (∀ p o, (s.putCal v).regPf p o = s.regPf p o) ∧
    (∀ p o f, (s.putCal v).fldPf p o f = s.fldPf p o f) ∧ (∀ o, (s.putCal v).ctr o = s.ctr o) ∧ (∀ p, (s.putCal v).part p = s.part p) ∧
    (∀ p, (s.putCal v).pcfg p = s.pcfg p) ∧ (∀ p, (s.putCal v).configured p = s.configured p) ∧ (∀ p, (s.putCal v).pstate p = s.pstate p) ∧
    (s.putCal v).isReady = s.isReady ∧ (∀ p q, (s.putCal v).queue p q = s.queue p q) ∧ (∀ p q c, (s.putCal v).recOf p q c = s.recOf p q c) ∧
    (∀ p q c o, (s.putCal v).readyRec p q c o = s.readyRec p q c o) ∧ (∀ p q c o, (s.putCal v).runningRec p q c o = s.runningRec p q c o) ∧
    (∀ a, (s.putCal v).share a = s.share a) ∧ (∀ k n, (s.putCal v).isFenced k n = s.isFenced k n) ∧ (∀ l, (s.putCal v).link? l = s.link? l) ∧
    (s.putCal v).nodeId = s.nodeId ∧ (∀ l u, (s.putCal v).trim l u = s.trim l u) := by
  refine ⟨?_, ?_, ?_, ?_, ?_, ?_, ?_, ?_, ?_, ?_, ?_, ?_, ?_, ?_, ?_, ?_, ?_, ?_, ?_, ?_, ?_, ?_, ?_, ?_, ?_, ?_, ?_, ?_, ?_, ?_, ?_, ?_, ?_, ?_, ?_, ?_, ?_, ?_, ?_, ?_, ?_, ?_, ?_, ?_, ?_, ?_, ?_, ?_, ?_, ?_, ?_, ?_, ?_, ?_, ?_, ?_, ?_, ?_, ?_, ?_, ?_, ?_⟩ <;> intros <;> rfl

@[simp] theorem State.putMargins_reads (s : State) (v : KV (Nat × Nat × Nat)) :
    (s.putMargins v).margins = v ∧ (s.putMargins v).pending = s.pending ∧ (s.putMargins v).time = s.time ∧ (s.putMargins v).free = s.free ∧
    (s.putMargins v).regs = s.regs ∧ (s.putMargins v).ctrs = s.ctrs ∧ (s.putMargins v).owned = s.owned ∧ (s.putMargins v).winReg = s.winReg ∧
    (s.putMargins v).queues = s.queues ∧ (s.putMargins v).recs = s.recs ∧ (s.putMargins v).nextRec = s.nextRec ∧ (s.putMargins v).fetchNo = s.fetchNo ∧
    (s.putMargins v).ctxs = s.ctxs ∧ (s.putMargins v).parts = s.parts ∧ (s.putMargins v).shares = s.shares ∧ (s.putMargins v).vfEn = s.vfEn ∧
    (s.putMargins v).numVfs = s.numVfs ∧ (s.putMargins v).out = s.out ∧ (s.putMargins v).mem = s.mem ∧ (s.putMargins v).fab = s.fab ∧
    (s.putMargins v).flt = s.flt ∧ (s.putMargins v).log = s.log ∧ (s.putMargins v).sels = s.sels ∧ (s.putMargins v).results = s.results ∧
    (s.putMargins v).bank = s.bank ∧ (s.putMargins v).tokens = s.tokens ∧ (s.putMargins v).corpora = s.corpora ∧ (s.putMargins v).builds = s.builds ∧
    (s.putMargins v).queries = s.queries ∧ (s.putMargins v).arrays = s.arrays ∧ (s.putMargins v).atokens = s.atokens ∧
    (s.putMargins v).models = s.models ∧ (s.putMargins v).oldModels = s.oldModels ∧ (s.putMargins v).arrWork = s.arrWork ∧
    (s.putMargins v).trims = s.trims ∧ (s.putMargins v).flash = s.flash ∧ (s.putMargins v).emb = s.emb ∧ (s.putMargins v).load = s.load ∧
    (s.putMargins v).sec = s.sec ∧ (s.putMargins v).cal = s.cal ∧ (s.putMargins v).smb = s.smb ∧ (s.putMargins v).board = s.board ∧
    (s.putMargins v).now = s.now ∧ (∀ o, (s.putMargins v).reg o = s.reg o) ∧ (∀ o f, (s.putMargins v).fld o f = s.fld o f) ∧
    (∀ p o, (s.putMargins v).regPf p o = s.regPf p o) ∧ (∀ p o f, (s.putMargins v).fldPf p o f = s.fldPf p o f) ∧
    (∀ o, (s.putMargins v).ctr o = s.ctr o) ∧ (∀ p, (s.putMargins v).part p = s.part p) ∧ (∀ p, (s.putMargins v).pcfg p = s.pcfg p) ∧
    (∀ p, (s.putMargins v).configured p = s.configured p) ∧ (∀ p, (s.putMargins v).pstate p = s.pstate p) ∧ (s.putMargins v).isReady = s.isReady ∧
    (∀ p q, (s.putMargins v).queue p q = s.queue p q) ∧ (∀ p q c, (s.putMargins v).recOf p q c = s.recOf p q c) ∧
    (∀ p q c o, (s.putMargins v).readyRec p q c o = s.readyRec p q c o) ∧ (∀ p q c o, (s.putMargins v).runningRec p q c o = s.runningRec p q c o) ∧
    (∀ a, (s.putMargins v).share a = s.share a) ∧ (∀ k n, (s.putMargins v).isFenced k n = s.isFenced k n) ∧
    (∀ l, (s.putMargins v).link? l = s.link? l) ∧ (s.putMargins v).nodeId = s.nodeId ∧ (∀ l u, (s.putMargins v).trim l u = s.trim l u) ∧
    (∀ i, (s.putMargins v).calU i = s.calU i) := by
  refine ⟨?_, ?_, ?_, ?_, ?_, ?_, ?_, ?_, ?_, ?_, ?_, ?_, ?_, ?_, ?_, ?_, ?_, ?_, ?_, ?_, ?_, ?_, ?_, ?_, ?_, ?_, ?_, ?_, ?_, ?_, ?_, ?_, ?_, ?_, ?_, ?_, ?_, ?_, ?_, ?_, ?_, ?_, ?_, ?_, ?_, ?_, ?_, ?_, ?_, ?_, ?_, ?_, ?_, ?_, ?_, ?_, ?_, ?_, ?_, ?_, ?_, ?_, ?_⟩ <;> intros <;> rfl

@[simp] theorem State.putSmb_reads (s : State) (v : List SmbMsg) :
    (s.putSmb v).smb = v ∧ (s.putSmb v).pending = s.pending ∧ (s.putSmb v).time = s.time ∧ (s.putSmb v).free = s.free ∧ (s.putSmb v).regs = s.regs ∧
    (s.putSmb v).ctrs = s.ctrs ∧ (s.putSmb v).owned = s.owned ∧ (s.putSmb v).winReg = s.winReg ∧ (s.putSmb v).queues = s.queues ∧
    (s.putSmb v).recs = s.recs ∧ (s.putSmb v).nextRec = s.nextRec ∧ (s.putSmb v).fetchNo = s.fetchNo ∧ (s.putSmb v).ctxs = s.ctxs ∧
    (s.putSmb v).parts = s.parts ∧ (s.putSmb v).shares = s.shares ∧ (s.putSmb v).vfEn = s.vfEn ∧ (s.putSmb v).numVfs = s.numVfs ∧
    (s.putSmb v).out = s.out ∧ (s.putSmb v).mem = s.mem ∧ (s.putSmb v).fab = s.fab ∧ (s.putSmb v).flt = s.flt ∧ (s.putSmb v).log = s.log ∧
    (s.putSmb v).sels = s.sels ∧ (s.putSmb v).results = s.results ∧ (s.putSmb v).bank = s.bank ∧ (s.putSmb v).tokens = s.tokens ∧
    (s.putSmb v).corpora = s.corpora ∧ (s.putSmb v).builds = s.builds ∧ (s.putSmb v).queries = s.queries ∧ (s.putSmb v).arrays = s.arrays ∧
    (s.putSmb v).atokens = s.atokens ∧ (s.putSmb v).models = s.models ∧ (s.putSmb v).oldModels = s.oldModels ∧ (s.putSmb v).arrWork = s.arrWork ∧
    (s.putSmb v).trims = s.trims ∧ (s.putSmb v).flash = s.flash ∧ (s.putSmb v).emb = s.emb ∧ (s.putSmb v).load = s.load ∧ (s.putSmb v).sec = s.sec ∧
    (s.putSmb v).cal = s.cal ∧ (s.putSmb v).margins = s.margins ∧ (s.putSmb v).board = s.board ∧ (s.putSmb v).now = s.now ∧
    (∀ o, (s.putSmb v).reg o = s.reg o) ∧ (∀ o f, (s.putSmb v).fld o f = s.fld o f) ∧ (∀ p o, (s.putSmb v).regPf p o = s.regPf p o) ∧
    (∀ p o f, (s.putSmb v).fldPf p o f = s.fldPf p o f) ∧ (∀ o, (s.putSmb v).ctr o = s.ctr o) ∧ (∀ p, (s.putSmb v).part p = s.part p) ∧
    (∀ p, (s.putSmb v).pcfg p = s.pcfg p) ∧ (∀ p, (s.putSmb v).configured p = s.configured p) ∧ (∀ p, (s.putSmb v).pstate p = s.pstate p) ∧
    (s.putSmb v).isReady = s.isReady ∧ (∀ p q, (s.putSmb v).queue p q = s.queue p q) ∧ (∀ p q c, (s.putSmb v).recOf p q c = s.recOf p q c) ∧
    (∀ p q c o, (s.putSmb v).readyRec p q c o = s.readyRec p q c o) ∧ (∀ p q c o, (s.putSmb v).runningRec p q c o = s.runningRec p q c o) ∧
    (∀ a, (s.putSmb v).share a = s.share a) ∧ (∀ k n, (s.putSmb v).isFenced k n = s.isFenced k n) ∧ (∀ l, (s.putSmb v).link? l = s.link? l) ∧
    (s.putSmb v).nodeId = s.nodeId ∧ (∀ l u, (s.putSmb v).trim l u = s.trim l u) ∧ (∀ i, (s.putSmb v).calU i = s.calU i) := by
  refine ⟨?_, ?_, ?_, ?_, ?_, ?_, ?_, ?_, ?_, ?_, ?_, ?_, ?_, ?_, ?_, ?_, ?_, ?_, ?_, ?_, ?_, ?_, ?_, ?_, ?_, ?_, ?_, ?_, ?_, ?_, ?_, ?_, ?_, ?_, ?_, ?_, ?_, ?_, ?_, ?_, ?_, ?_, ?_, ?_, ?_, ?_, ?_, ?_, ?_, ?_, ?_, ?_, ?_, ?_, ?_, ?_, ?_, ?_, ?_, ?_, ?_, ?_, ?_⟩ <;> intros <;> rfl

@[simp] theorem State.putBoard_reads (s : State) (v : Board) :
    (s.putBoard v).board = v ∧ (s.putBoard v).pending = s.pending ∧ (s.putBoard v).time = s.time ∧ (s.putBoard v).free = s.free ∧
    (s.putBoard v).regs = s.regs ∧ (s.putBoard v).ctrs = s.ctrs ∧ (s.putBoard v).owned = s.owned ∧ (s.putBoard v).winReg = s.winReg ∧
    (s.putBoard v).queues = s.queues ∧ (s.putBoard v).recs = s.recs ∧ (s.putBoard v).nextRec = s.nextRec ∧ (s.putBoard v).fetchNo = s.fetchNo ∧
    (s.putBoard v).ctxs = s.ctxs ∧ (s.putBoard v).parts = s.parts ∧ (s.putBoard v).shares = s.shares ∧ (s.putBoard v).vfEn = s.vfEn ∧
    (s.putBoard v).numVfs = s.numVfs ∧ (s.putBoard v).out = s.out ∧ (s.putBoard v).mem = s.mem ∧ (s.putBoard v).fab = s.fab ∧
    (s.putBoard v).flt = s.flt ∧ (s.putBoard v).log = s.log ∧ (s.putBoard v).sels = s.sels ∧ (s.putBoard v).results = s.results ∧
    (s.putBoard v).bank = s.bank ∧ (s.putBoard v).tokens = s.tokens ∧ (s.putBoard v).corpora = s.corpora ∧ (s.putBoard v).builds = s.builds ∧
    (s.putBoard v).queries = s.queries ∧ (s.putBoard v).arrays = s.arrays ∧ (s.putBoard v).atokens = s.atokens ∧ (s.putBoard v).models = s.models ∧
    (s.putBoard v).oldModels = s.oldModels ∧ (s.putBoard v).arrWork = s.arrWork ∧ (s.putBoard v).trims = s.trims ∧ (s.putBoard v).flash = s.flash ∧
    (s.putBoard v).emb = s.emb ∧ (s.putBoard v).load = s.load ∧ (s.putBoard v).sec = s.sec ∧ (s.putBoard v).cal = s.cal ∧
    (s.putBoard v).margins = s.margins ∧ (s.putBoard v).smb = s.smb ∧ (s.putBoard v).now = s.now ∧ (∀ o, (s.putBoard v).reg o = s.reg o) ∧
    (∀ o f, (s.putBoard v).fld o f = s.fld o f) ∧ (∀ p o, (s.putBoard v).regPf p o = s.regPf p o) ∧
    (∀ p o f, (s.putBoard v).fldPf p o f = s.fldPf p o f) ∧ (∀ o, (s.putBoard v).ctr o = s.ctr o) ∧ (∀ p, (s.putBoard v).part p = s.part p) ∧
    (∀ p, (s.putBoard v).pcfg p = s.pcfg p) ∧ (∀ p, (s.putBoard v).configured p = s.configured p) ∧ (∀ p, (s.putBoard v).pstate p = s.pstate p) ∧
    (s.putBoard v).isReady = s.isReady ∧ (∀ p q, (s.putBoard v).queue p q = s.queue p q) ∧ (∀ p q c, (s.putBoard v).recOf p q c = s.recOf p q c) ∧
    (∀ p q c o, (s.putBoard v).readyRec p q c o = s.readyRec p q c o) ∧ (∀ p q c o, (s.putBoard v).runningRec p q c o = s.runningRec p q c o) ∧
    (∀ a, (s.putBoard v).share a = s.share a) ∧ (∀ k n, (s.putBoard v).isFenced k n = s.isFenced k n) ∧ (∀ l, (s.putBoard v).link? l = s.link? l) ∧
    (s.putBoard v).nodeId = s.nodeId ∧ (∀ l u, (s.putBoard v).trim l u = s.trim l u) ∧ (∀ i, (s.putBoard v).calU i = s.calU i) := by
  refine ⟨?_, ?_, ?_, ?_, ?_, ?_, ?_, ?_, ?_, ?_, ?_, ?_, ?_, ?_, ?_, ?_, ?_, ?_, ?_, ?_, ?_, ?_, ?_, ?_, ?_, ?_, ?_, ?_, ?_, ?_, ?_, ?_, ?_, ?_, ?_, ?_, ?_, ?_, ?_, ?_, ?_, ?_, ?_, ?_, ?_, ?_, ?_, ?_, ?_, ?_, ?_, ?_, ?_, ?_, ?_, ?_, ?_, ?_, ?_, ?_, ?_, ?_, ?_⟩ <;> intros <;> rfl

/-! ### Updates by a function are updates -/

@[simp] theorem State.modPart_eq (s : State) (p : Nat) (f : Part → Part) : s.modPart p f = s.putParts (kvPut p (f (s.part p)) s.parts) := rfl
@[simp] theorem State.modQueue_eq (s : State) (p q : Nat) (f : Queue → Queue) :
    s.modQueue p q f = s.putQueues (kvPut (qKey p q) (f (s.queue p q)) s.queues) := rfl
@[simp] theorem State.modRec_eq (s : State) (rid : Nat) (f : Rec → Rec) : s.modRec rid f = s.putRecs (kvUpd rid f s.recs) := rfl
@[simp] theorem State.modMem_eq (s : State) (f : MemSys → MemSys) : s.modMem f = s.putMem (f s.mem) := rfl
@[simp] theorem State.modFab_eq (s : State) (f : Fab → Fab) : s.modFab f = s.putFab (f s.fab) := rfl
@[simp] theorem State.modFlt_eq (s : State) (f : Faults → Faults) : s.modFlt f = s.putFlt (f s.flt) := rfl
@[simp] theorem State.modShare_eq (s : State) (a : Nat) (f : ArrShare → ArrShare) : s.modShare a f = s.putShares (kvPut a (f (s.share a)) s.shares) := rfl
@[simp] theorem State.modTrim_eq (s : State) (l u : Nat) (f : TrimUnit → TrimUnit) :
    s.modTrim l u f = s.putTrims (kvPut (l * 512 + u) (f (s.trim l u)) s.trims) := rfl

end Sys2Proof.Machine
end

