-- ==== Sys2Proof/Laws/Reg.lean ====
section
/-! SUPPORT. Laws of registers, counters and window words: what a put reads back as, everywhere. -/

namespace Sys2Proof.Machine

/-! ### What the puts leave -/

@[simp] theorem State.setReg_reads (s : State) (o : Nat) (w : Word) :
    (s.setReg o w).pending = s.pending ∧ (s.setReg o w).time = s.time ∧ (s.setReg o w).free = s.free ∧ (s.setReg o w).ctrs = s.ctrs ∧
    (s.setReg o w).owned = s.owned ∧ (s.setReg o w).winReg = s.winReg ∧ (s.setReg o w).queues = s.queues ∧ (s.setReg o w).recs = s.recs ∧
    (s.setReg o w).nextRec = s.nextRec ∧ (s.setReg o w).fetchNo = s.fetchNo ∧ (s.setReg o w).ctxs = s.ctxs ∧ (s.setReg o w).parts = s.parts ∧
    (s.setReg o w).shares = s.shares ∧ (s.setReg o w).vfEn = s.vfEn ∧ (s.setReg o w).numVfs = s.numVfs ∧ (s.setReg o w).out = s.out ∧
    (s.setReg o w).mem = s.mem ∧ (s.setReg o w).fab = s.fab ∧ (s.setReg o w).flt = s.flt ∧ (s.setReg o w).log = s.log ∧ (s.setReg o w).sels = s.sels ∧
    (s.setReg o w).results = s.results ∧ (s.setReg o w).bank = s.bank ∧ (s.setReg o w).tokens = s.tokens ∧ (s.setReg o w).corpora = s.corpora ∧
    (s.setReg o w).builds = s.builds ∧ (s.setReg o w).queries = s.queries ∧ (s.setReg o w).arrays = s.arrays ∧ (s.setReg o w).atokens = s.atokens ∧
    (s.setReg o w).models = s.models ∧ (s.setReg o w).oldModels = s.oldModels ∧ (s.setReg o w).arrWork = s.arrWork ∧ (s.setReg o w).trims = s.trims ∧
    (s.setReg o w).flash = s.flash ∧ (s.setReg o w).emb = s.emb ∧ (s.setReg o w).load = s.load ∧ (s.setReg o w).sec = s.sec ∧
    (s.setReg o w).cal = s.cal ∧ (s.setReg o w).margins = s.margins ∧ (s.setReg o w).smb = s.smb ∧ (s.setReg o w).board = s.board ∧
    (s.setReg o w).now = s.now ∧ (∀ x0, (s.setReg o w).ctr x0 = s.ctr x0) ∧ (∀ x0, (s.setReg o w).part x0 = s.part x0) ∧
    (∀ x0, (s.setReg o w).pcfg x0 = s.pcfg x0) ∧ (∀ x0, (s.setReg o w).configured x0 = s.configured x0) ∧
    (∀ x0 x1, (s.setReg o w).queue x0 x1 = s.queue x0 x1) ∧ (∀ x0 x1 x2, (s.setReg o w).recOf x0 x1 x2 = s.recOf x0 x1 x2) ∧
    (∀ x0 x1 x2 x3, (s.setReg o w).readyRec x0 x1 x2 x3 = s.readyRec x0 x1 x2 x3) ∧
    (∀ x0 x1 x2 x3, (s.setReg o w).runningRec x0 x1 x2 x3 = s.runningRec x0 x1 x2 x3) ∧ (∀ x0, (s.setReg o w).share x0 = s.share x0) ∧
    (∀ x0 x1, (s.setReg o w).isFenced x0 x1 = s.isFenced x0 x1) ∧ (∀ x0, (s.setReg o w).link? x0 = s.link? x0) ∧
    (∀ x0 x1, (s.setReg o w).trim x0 x1 = s.trim x0 x1) ∧ (∀ x0, (s.setReg o w).calU x0 = s.calU x0) := by
  simp [State.setReg]

@[simp] theorem State.setFld_reads (s : State) (o : Nat) (f : Fld) (x : Nat) :
    (s.setFld o f x).pending = s.pending ∧ (s.setFld o f x).time = s.time ∧ (s.setFld o f x).free = s.free ∧ (s.setFld o f x).ctrs = s.ctrs ∧
    (s.setFld o f x).owned = s.owned ∧ (s.setFld o f x).winReg = s.winReg ∧ (s.setFld o f x).queues = s.queues ∧ (s.setFld o f x).recs = s.recs ∧
    (s.setFld o f x).nextRec = s.nextRec ∧ (s.setFld o f x).fetchNo = s.fetchNo ∧ (s.setFld o f x).ctxs = s.ctxs ∧ (s.setFld o f x).parts = s.parts ∧
    (s.setFld o f x).shares = s.shares ∧ (s.setFld o f x).vfEn = s.vfEn ∧ (s.setFld o f x).numVfs = s.numVfs ∧ (s.setFld o f x).out = s.out ∧
    (s.setFld o f x).mem = s.mem ∧ (s.setFld o f x).fab = s.fab ∧ (s.setFld o f x).flt = s.flt ∧ (s.setFld o f x).log = s.log ∧
    (s.setFld o f x).sels = s.sels ∧ (s.setFld o f x).results = s.results ∧ (s.setFld o f x).bank = s.bank ∧ (s.setFld o f x).tokens = s.tokens ∧
    (s.setFld o f x).corpora = s.corpora ∧ (s.setFld o f x).builds = s.builds ∧ (s.setFld o f x).queries = s.queries ∧
    (s.setFld o f x).arrays = s.arrays ∧ (s.setFld o f x).atokens = s.atokens ∧ (s.setFld o f x).models = s.models ∧
    (s.setFld o f x).oldModels = s.oldModels ∧ (s.setFld o f x).arrWork = s.arrWork ∧ (s.setFld o f x).trims = s.trims ∧
    (s.setFld o f x).flash = s.flash ∧ (s.setFld o f x).emb = s.emb ∧ (s.setFld o f x).load = s.load ∧ (s.setFld o f x).sec = s.sec ∧
    (s.setFld o f x).cal = s.cal ∧ (s.setFld o f x).margins = s.margins ∧ (s.setFld o f x).smb = s.smb ∧ (s.setFld o f x).board = s.board ∧
    (s.setFld o f x).now = s.now ∧ (∀ x0, (s.setFld o f x).ctr x0 = s.ctr x0) ∧ (∀ x0, (s.setFld o f x).part x0 = s.part x0) ∧
    (∀ x0, (s.setFld o f x).pcfg x0 = s.pcfg x0) ∧ (∀ x0, (s.setFld o f x).configured x0 = s.configured x0) ∧
    (∀ x0 x1, (s.setFld o f x).queue x0 x1 = s.queue x0 x1) ∧ (∀ x0 x1 x2, (s.setFld o f x).recOf x0 x1 x2 = s.recOf x0 x1 x2) ∧
    (∀ x0 x1 x2 x3, (s.setFld o f x).readyRec x0 x1 x2 x3 = s.readyRec x0 x1 x2 x3) ∧
    (∀ x0 x1 x2 x3, (s.setFld o f x).runningRec x0 x1 x2 x3 = s.runningRec x0 x1 x2 x3) ∧ (∀ x0, (s.setFld o f x).share x0 = s.share x0) ∧
    (∀ x0 x1, (s.setFld o f x).isFenced x0 x1 = s.isFenced x0 x1) ∧ (∀ x0, (s.setFld o f x).link? x0 = s.link? x0) ∧
    (∀ x0 x1, (s.setFld o f x).trim x0 x1 = s.trim x0 x1) ∧ (∀ x0, (s.setFld o f x).calU x0 = s.calU x0) := by
  simp [State.setFld]

@[simp] theorem State.setRegPf_reads (s : State) (k o : Nat) (w : Word) :
    (s.setRegPf k o w).pending = s.pending ∧ (s.setRegPf k o w).time = s.time ∧ (s.setRegPf k o w).free = s.free ∧ (s.setRegPf k o w).ctrs = s.ctrs ∧
    (s.setRegPf k o w).owned = s.owned ∧ (s.setRegPf k o w).winReg = s.winReg ∧ (s.setRegPf k o w).queues = s.queues ∧
    (s.setRegPf k o w).recs = s.recs ∧ (s.setRegPf k o w).nextRec = s.nextRec ∧ (s.setRegPf k o w).fetchNo = s.fetchNo ∧
    (s.setRegPf k o w).ctxs = s.ctxs ∧ (s.setRegPf k o w).parts = s.parts ∧ (s.setRegPf k o w).shares = s.shares ∧ (s.setRegPf k o w).vfEn = s.vfEn ∧
    (s.setRegPf k o w).numVfs = s.numVfs ∧ (s.setRegPf k o w).out = s.out ∧ (s.setRegPf k o w).mem = s.mem ∧ (s.setRegPf k o w).fab = s.fab ∧
    (s.setRegPf k o w).flt = s.flt ∧ (s.setRegPf k o w).log = s.log ∧ (s.setRegPf k o w).sels = s.sels ∧ (s.setRegPf k o w).results = s.results ∧
    (s.setRegPf k o w).bank = s.bank ∧ (s.setRegPf k o w).tokens = s.tokens ∧ (s.setRegPf k o w).corpora = s.corpora ∧
    (s.setRegPf k o w).builds = s.builds ∧ (s.setRegPf k o w).queries = s.queries ∧ (s.setRegPf k o w).arrays = s.arrays ∧
    (s.setRegPf k o w).atokens = s.atokens ∧ (s.setRegPf k o w).models = s.models ∧ (s.setRegPf k o w).oldModels = s.oldModels ∧
    (s.setRegPf k o w).arrWork = s.arrWork ∧ (s.setRegPf k o w).trims = s.trims ∧ (s.setRegPf k o w).flash = s.flash ∧ (s.setRegPf k o w).emb = s.emb ∧
    (s.setRegPf k o w).load = s.load ∧ (s.setRegPf k o w).sec = s.sec ∧ (s.setRegPf k o w).cal = s.cal ∧ (s.setRegPf k o w).margins = s.margins ∧
    (s.setRegPf k o w).smb = s.smb ∧ (s.setRegPf k o w).board = s.board ∧ (s.setRegPf k o w).now = s.now ∧
    (∀ x0, (s.setRegPf k o w).ctr x0 = s.ctr x0) ∧ (∀ x0, (s.setRegPf k o w).part x0 = s.part x0) ∧ (∀ x0, (s.setRegPf k o w).pcfg x0 = s.pcfg x0) ∧
    (∀ x0, (s.setRegPf k o w).configured x0 = s.configured x0) ∧ (∀ x0 x1, (s.setRegPf k o w).queue x0 x1 = s.queue x0 x1) ∧
    (∀ x0 x1 x2, (s.setRegPf k o w).recOf x0 x1 x2 = s.recOf x0 x1 x2) ∧
    (∀ x0 x1 x2 x3, (s.setRegPf k o w).readyRec x0 x1 x2 x3 = s.readyRec x0 x1 x2 x3) ∧
    (∀ x0 x1 x2 x3, (s.setRegPf k o w).runningRec x0 x1 x2 x3 = s.runningRec x0 x1 x2 x3) ∧ (∀ x0, (s.setRegPf k o w).share x0 = s.share x0) ∧
    (∀ x0 x1, (s.setRegPf k o w).isFenced x0 x1 = s.isFenced x0 x1) ∧ (∀ x0, (s.setRegPf k o w).link? x0 = s.link? x0) ∧
    (∀ x0 x1, (s.setRegPf k o w).trim x0 x1 = s.trim x0 x1) ∧ (∀ x0, (s.setRegPf k o w).calU x0 = s.calU x0) := by
  simp [State.setRegPf]

@[simp] theorem State.setFldPf_reads (s : State) (k o : Nat) (f : Fld) (x : Nat) :
    (s.setFldPf k o f x).pending = s.pending ∧ (s.setFldPf k o f x).time = s.time ∧ (s.setFldPf k o f x).free = s.free ∧
    (s.setFldPf k o f x).ctrs = s.ctrs ∧ (s.setFldPf k o f x).owned = s.owned ∧ (s.setFldPf k o f x).winReg = s.winReg ∧
    (s.setFldPf k o f x).queues = s.queues ∧ (s.setFldPf k o f x).recs = s.recs ∧ (s.setFldPf k o f x).nextRec = s.nextRec ∧
    (s.setFldPf k o f x).fetchNo = s.fetchNo ∧ (s.setFldPf k o f x).ctxs = s.ctxs ∧ (s.setFldPf k o f x).parts = s.parts ∧
    (s.setFldPf k o f x).shares = s.shares ∧ (s.setFldPf k o f x).vfEn = s.vfEn ∧ (s.setFldPf k o f x).numVfs = s.numVfs ∧
    (s.setFldPf k o f x).out = s.out ∧ (s.setFldPf k o f x).mem = s.mem ∧ (s.setFldPf k o f x).fab = s.fab ∧ (s.setFldPf k o f x).flt = s.flt ∧
    (s.setFldPf k o f x).log = s.log ∧ (s.setFldPf k o f x).sels = s.sels ∧ (s.setFldPf k o f x).results = s.results ∧
    (s.setFldPf k o f x).bank = s.bank ∧ (s.setFldPf k o f x).tokens = s.tokens ∧ (s.setFldPf k o f x).corpora = s.corpora ∧
    (s.setFldPf k o f x).builds = s.builds ∧ (s.setFldPf k o f x).queries = s.queries ∧ (s.setFldPf k o f x).arrays = s.arrays ∧
    (s.setFldPf k o f x).atokens = s.atokens ∧ (s.setFldPf k o f x).models = s.models ∧ (s.setFldPf k o f x).oldModels = s.oldModels ∧
    (s.setFldPf k o f x).arrWork = s.arrWork ∧ (s.setFldPf k o f x).trims = s.trims ∧ (s.setFldPf k o f x).flash = s.flash ∧
    (s.setFldPf k o f x).emb = s.emb ∧ (s.setFldPf k o f x).load = s.load ∧ (s.setFldPf k o f x).sec = s.sec ∧ (s.setFldPf k o f x).cal = s.cal ∧
    (s.setFldPf k o f x).margins = s.margins ∧ (s.setFldPf k o f x).smb = s.smb ∧ (s.setFldPf k o f x).board = s.board ∧
    (s.setFldPf k o f x).now = s.now ∧ (∀ x0, (s.setFldPf k o f x).ctr x0 = s.ctr x0) ∧ (∀ x0, (s.setFldPf k o f x).part x0 = s.part x0) ∧
    (∀ x0, (s.setFldPf k o f x).pcfg x0 = s.pcfg x0) ∧ (∀ x0, (s.setFldPf k o f x).configured x0 = s.configured x0) ∧
    (∀ x0 x1, (s.setFldPf k o f x).queue x0 x1 = s.queue x0 x1) ∧ (∀ x0 x1 x2, (s.setFldPf k o f x).recOf x0 x1 x2 = s.recOf x0 x1 x2) ∧
    (∀ x0 x1 x2 x3, (s.setFldPf k o f x).readyRec x0 x1 x2 x3 = s.readyRec x0 x1 x2 x3) ∧
    (∀ x0 x1 x2 x3, (s.setFldPf k o f x).runningRec x0 x1 x2 x3 = s.runningRec x0 x1 x2 x3) ∧ (∀ x0, (s.setFldPf k o f x).share x0 = s.share x0) ∧
    (∀ x0 x1, (s.setFldPf k o f x).isFenced x0 x1 = s.isFenced x0 x1) ∧ (∀ x0, (s.setFldPf k o f x).link? x0 = s.link? x0) ∧
    (∀ x0 x1, (s.setFldPf k o f x).trim x0 x1 = s.trim x0 x1) ∧ (∀ x0, (s.setFldPf k o f x).calU x0 = s.calU x0) := by
  simp [State.setFldPf]

@[simp] theorem State.setPstate_reads (s : State) (k x : Nat) :
    (s.setPstate k x).pending = s.pending ∧ (s.setPstate k x).time = s.time ∧ (s.setPstate k x).free = s.free ∧ (s.setPstate k x).ctrs = s.ctrs ∧
    (s.setPstate k x).owned = s.owned ∧ (s.setPstate k x).winReg = s.winReg ∧ (s.setPstate k x).queues = s.queues ∧ (s.setPstate k x).recs = s.recs ∧
    (s.setPstate k x).nextRec = s.nextRec ∧ (s.setPstate k x).fetchNo = s.fetchNo ∧ (s.setPstate k x).ctxs = s.ctxs ∧
    (s.setPstate k x).parts = s.parts ∧ (s.setPstate k x).shares = s.shares ∧ (s.setPstate k x).vfEn = s.vfEn ∧ (s.setPstate k x).numVfs = s.numVfs ∧
    (s.setPstate k x).out = s.out ∧ (s.setPstate k x).mem = s.mem ∧ (s.setPstate k x).fab = s.fab ∧ (s.setPstate k x).flt = s.flt ∧
    (s.setPstate k x).log = s.log ∧ (s.setPstate k x).sels = s.sels ∧ (s.setPstate k x).results = s.results ∧ (s.setPstate k x).bank = s.bank ∧
    (s.setPstate k x).tokens = s.tokens ∧ (s.setPstate k x).corpora = s.corpora ∧ (s.setPstate k x).builds = s.builds ∧
    (s.setPstate k x).queries = s.queries ∧ (s.setPstate k x).arrays = s.arrays ∧ (s.setPstate k x).atokens = s.atokens ∧
    (s.setPstate k x).models = s.models ∧ (s.setPstate k x).oldModels = s.oldModels ∧ (s.setPstate k x).arrWork = s.arrWork ∧
    (s.setPstate k x).trims = s.trims ∧ (s.setPstate k x).flash = s.flash ∧ (s.setPstate k x).emb = s.emb ∧ (s.setPstate k x).load = s.load ∧
    (s.setPstate k x).sec = s.sec ∧ (s.setPstate k x).cal = s.cal ∧ (s.setPstate k x).margins = s.margins ∧ (s.setPstate k x).smb = s.smb ∧
    (s.setPstate k x).board = s.board ∧ (s.setPstate k x).now = s.now ∧ (∀ x0, (s.setPstate k x).ctr x0 = s.ctr x0) ∧
    (∀ x0, (s.setPstate k x).part x0 = s.part x0) ∧ (∀ x0, (s.setPstate k x).pcfg x0 = s.pcfg x0) ∧
    (∀ x0, (s.setPstate k x).configured x0 = s.configured x0) ∧ (∀ x0 x1, (s.setPstate k x).queue x0 x1 = s.queue x0 x1) ∧
    (∀ x0 x1 x2, (s.setPstate k x).recOf x0 x1 x2 = s.recOf x0 x1 x2) ∧
    (∀ x0 x1 x2 x3, (s.setPstate k x).readyRec x0 x1 x2 x3 = s.readyRec x0 x1 x2 x3) ∧
    (∀ x0 x1 x2 x3, (s.setPstate k x).runningRec x0 x1 x2 x3 = s.runningRec x0 x1 x2 x3) ∧ (∀ x0, (s.setPstate k x).share x0 = s.share x0) ∧
    (∀ x0 x1, (s.setPstate k x).isFenced x0 x1 = s.isFenced x0 x1) ∧ (∀ x0, (s.setPstate k x).link? x0 = s.link? x0) ∧
    (∀ x0 x1, (s.setPstate k x).trim x0 x1 = s.trim x0 x1) ∧ (∀ x0, (s.setPstate k x).calU x0 = s.calU x0) := by
  simp [State.setPstate]

@[simp] theorem State.setCtr_reads (s : State) (o x : Nat) :
    (s.setCtr o x).pending = s.pending ∧ (s.setCtr o x).time = s.time ∧ (s.setCtr o x).free = s.free ∧ (s.setCtr o x).regs = s.regs ∧
    (s.setCtr o x).owned = s.owned ∧ (s.setCtr o x).winReg = s.winReg ∧ (s.setCtr o x).queues = s.queues ∧ (s.setCtr o x).recs = s.recs ∧
    (s.setCtr o x).nextRec = s.nextRec ∧ (s.setCtr o x).fetchNo = s.fetchNo ∧ (s.setCtr o x).ctxs = s.ctxs ∧ (s.setCtr o x).parts = s.parts ∧
    (s.setCtr o x).shares = s.shares ∧ (s.setCtr o x).vfEn = s.vfEn ∧ (s.setCtr o x).numVfs = s.numVfs ∧ (s.setCtr o x).out = s.out ∧
    (s.setCtr o x).mem = s.mem ∧ (s.setCtr o x).fab = s.fab ∧ (s.setCtr o x).flt = s.flt ∧ (s.setCtr o x).log = s.log ∧ (s.setCtr o x).sels = s.sels ∧
    (s.setCtr o x).results = s.results ∧ (s.setCtr o x).bank = s.bank ∧ (s.setCtr o x).tokens = s.tokens ∧ (s.setCtr o x).corpora = s.corpora ∧
    (s.setCtr o x).builds = s.builds ∧ (s.setCtr o x).queries = s.queries ∧ (s.setCtr o x).arrays = s.arrays ∧ (s.setCtr o x).atokens = s.atokens ∧
    (s.setCtr o x).models = s.models ∧ (s.setCtr o x).oldModels = s.oldModels ∧ (s.setCtr o x).arrWork = s.arrWork ∧ (s.setCtr o x).trims = s.trims ∧
    (s.setCtr o x).flash = s.flash ∧ (s.setCtr o x).emb = s.emb ∧ (s.setCtr o x).load = s.load ∧ (s.setCtr o x).sec = s.sec ∧
    (s.setCtr o x).cal = s.cal ∧ (s.setCtr o x).margins = s.margins ∧ (s.setCtr o x).smb = s.smb ∧ (s.setCtr o x).board = s.board ∧
    (s.setCtr o x).now = s.now ∧ (∀ x0, (s.setCtr o x).reg x0 = s.reg x0) ∧ (∀ x0 x1, (s.setCtr o x).fld x0 x1 = s.fld x0 x1) ∧
    (∀ x0 x1, (s.setCtr o x).regPf x0 x1 = s.regPf x0 x1) ∧ (∀ x0 x1 x2, (s.setCtr o x).fldPf x0 x1 x2 = s.fldPf x0 x1 x2) ∧
    (∀ x0, (s.setCtr o x).part x0 = s.part x0) ∧ (∀ x0, (s.setCtr o x).pcfg x0 = s.pcfg x0) ∧ (∀ x0, (s.setCtr o x).configured x0 = s.configured x0) ∧
    (∀ x0, (s.setCtr o x).pstate x0 = s.pstate x0) ∧ (s.setCtr o x).isReady = s.isReady ∧ (∀ x0 x1, (s.setCtr o x).queue x0 x1 = s.queue x0 x1) ∧
    (∀ x0 x1 x2, (s.setCtr o x).recOf x0 x1 x2 = s.recOf x0 x1 x2) ∧ (∀ x0 x1 x2 x3, (s.setCtr o x).readyRec x0 x1 x2 x3 = s.readyRec x0 x1 x2 x3) ∧
    (∀ x0 x1 x2 x3, (s.setCtr o x).runningRec x0 x1 x2 x3 = s.runningRec x0 x1 x2 x3) ∧ (∀ x0, (s.setCtr o x).share x0 = s.share x0) ∧
    (∀ x0 x1, (s.setCtr o x).isFenced x0 x1 = s.isFenced x0 x1) ∧ (∀ x0, (s.setCtr o x).link? x0 = s.link? x0) ∧ (s.setCtr o x).nodeId = s.nodeId ∧
    (∀ x0 x1, (s.setCtr o x).trim x0 x1 = s.trim x0 x1) ∧ (∀ x0, (s.setCtr o x).calU x0 = s.calU x0) := by
  simp [State.setCtr]

@[simp] theorem State.setWin_reads (s : State) (k o : Nat) (w : Word) :
    (s.setWin k o w).pending = s.pending ∧ (s.setWin k o w).time = s.time ∧ (s.setWin k o w).free = s.free ∧ (s.setWin k o w).regs = s.regs ∧
    (s.setWin k o w).ctrs = s.ctrs ∧ (s.setWin k o w).owned = s.owned ∧ (s.setWin k o w).queues = s.queues ∧ (s.setWin k o w).recs = s.recs ∧
    (s.setWin k o w).nextRec = s.nextRec ∧ (s.setWin k o w).fetchNo = s.fetchNo ∧ (s.setWin k o w).ctxs = s.ctxs ∧ (s.setWin k o w).parts = s.parts ∧
    (s.setWin k o w).shares = s.shares ∧ (s.setWin k o w).vfEn = s.vfEn ∧ (s.setWin k o w).numVfs = s.numVfs ∧ (s.setWin k o w).out = s.out ∧
    (s.setWin k o w).mem = s.mem ∧ (s.setWin k o w).fab = s.fab ∧ (s.setWin k o w).flt = s.flt ∧ (s.setWin k o w).log = s.log ∧
    (s.setWin k o w).sels = s.sels ∧ (s.setWin k o w).results = s.results ∧ (s.setWin k o w).bank = s.bank ∧ (s.setWin k o w).tokens = s.tokens ∧
    (s.setWin k o w).corpora = s.corpora ∧ (s.setWin k o w).builds = s.builds ∧ (s.setWin k o w).queries = s.queries ∧
    (s.setWin k o w).arrays = s.arrays ∧ (s.setWin k o w).atokens = s.atokens ∧ (s.setWin k o w).models = s.models ∧
    (s.setWin k o w).oldModels = s.oldModels ∧ (s.setWin k o w).arrWork = s.arrWork ∧ (s.setWin k o w).trims = s.trims ∧
    (s.setWin k o w).flash = s.flash ∧ (s.setWin k o w).emb = s.emb ∧ (s.setWin k o w).load = s.load ∧ (s.setWin k o w).sec = s.sec ∧
    (s.setWin k o w).cal = s.cal ∧ (s.setWin k o w).margins = s.margins ∧ (s.setWin k o w).smb = s.smb ∧ (s.setWin k o w).board = s.board ∧
    (s.setWin k o w).now = s.now ∧ (∀ x0, (s.setWin k o w).reg x0 = s.reg x0) ∧ (∀ x0 x1, (s.setWin k o w).fld x0 x1 = s.fld x0 x1) ∧
    (∀ x0 x1, (s.setWin k o w).regPf x0 x1 = s.regPf x0 x1) ∧ (∀ x0 x1 x2, (s.setWin k o w).fldPf x0 x1 x2 = s.fldPf x0 x1 x2) ∧
    (∀ x0, (s.setWin k o w).ctr x0 = s.ctr x0) ∧ (∀ x0, (s.setWin k o w).part x0 = s.part x0) ∧ (∀ x0, (s.setWin k o w).pcfg x0 = s.pcfg x0) ∧
    (∀ x0, (s.setWin k o w).configured x0 = s.configured x0) ∧ (∀ x0, (s.setWin k o w).pstate x0 = s.pstate x0) ∧
    (s.setWin k o w).isReady = s.isReady ∧ (∀ x0 x1, (s.setWin k o w).queue x0 x1 = s.queue x0 x1) ∧
    (∀ x0 x1 x2, (s.setWin k o w).recOf x0 x1 x2 = s.recOf x0 x1 x2) ∧
    (∀ x0 x1 x2 x3, (s.setWin k o w).readyRec x0 x1 x2 x3 = s.readyRec x0 x1 x2 x3) ∧
    (∀ x0 x1 x2 x3, (s.setWin k o w).runningRec x0 x1 x2 x3 = s.runningRec x0 x1 x2 x3) ∧ (∀ x0, (s.setWin k o w).share x0 = s.share x0) ∧
    (∀ x0 x1, (s.setWin k o w).isFenced x0 x1 = s.isFenced x0 x1) ∧ (∀ x0, (s.setWin k o w).link? x0 = s.link? x0) ∧
    (s.setWin k o w).nodeId = s.nodeId ∧ (∀ x0 x1, (s.setWin k o w).trim x0 x1 = s.trim x0 x1) ∧ (∀ x0, (s.setWin k o w).calU x0 = s.calU x0) := by
  simp [State.setWin]

@[simp] theorem State.setWinBit_reads (s : State) (k : Nat) (f : Fld) :
    (s.setWinBit k f).pending = s.pending ∧ (s.setWinBit k f).time = s.time ∧ (s.setWinBit k f).free = s.free ∧ (s.setWinBit k f).regs = s.regs ∧
    (s.setWinBit k f).ctrs = s.ctrs ∧ (s.setWinBit k f).owned = s.owned ∧ (s.setWinBit k f).queues = s.queues ∧ (s.setWinBit k f).recs = s.recs ∧
    (s.setWinBit k f).nextRec = s.nextRec ∧ (s.setWinBit k f).fetchNo = s.fetchNo ∧ (s.setWinBit k f).ctxs = s.ctxs ∧
    (s.setWinBit k f).parts = s.parts ∧ (s.setWinBit k f).shares = s.shares ∧ (s.setWinBit k f).vfEn = s.vfEn ∧ (s.setWinBit k f).numVfs = s.numVfs ∧
    (s.setWinBit k f).out = s.out ∧ (s.setWinBit k f).mem = s.mem ∧ (s.setWinBit k f).fab = s.fab ∧ (s.setWinBit k f).flt = s.flt ∧
    (s.setWinBit k f).log = s.log ∧ (s.setWinBit k f).sels = s.sels ∧ (s.setWinBit k f).results = s.results ∧ (s.setWinBit k f).bank = s.bank ∧
    (s.setWinBit k f).tokens = s.tokens ∧ (s.setWinBit k f).corpora = s.corpora ∧ (s.setWinBit k f).builds = s.builds ∧
    (s.setWinBit k f).queries = s.queries ∧ (s.setWinBit k f).arrays = s.arrays ∧ (s.setWinBit k f).atokens = s.atokens ∧
    (s.setWinBit k f).models = s.models ∧ (s.setWinBit k f).oldModels = s.oldModels ∧ (s.setWinBit k f).arrWork = s.arrWork ∧
    (s.setWinBit k f).trims = s.trims ∧ (s.setWinBit k f).flash = s.flash ∧ (s.setWinBit k f).emb = s.emb ∧ (s.setWinBit k f).load = s.load ∧
    (s.setWinBit k f).sec = s.sec ∧ (s.setWinBit k f).cal = s.cal ∧ (s.setWinBit k f).margins = s.margins ∧ (s.setWinBit k f).smb = s.smb ∧
    (s.setWinBit k f).board = s.board ∧ (s.setWinBit k f).now = s.now ∧ (∀ x0, (s.setWinBit k f).reg x0 = s.reg x0) ∧
    (∀ x0 x1, (s.setWinBit k f).fld x0 x1 = s.fld x0 x1) ∧ (∀ x0 x1, (s.setWinBit k f).regPf x0 x1 = s.regPf x0 x1) ∧
    (∀ x0 x1 x2, (s.setWinBit k f).fldPf x0 x1 x2 = s.fldPf x0 x1 x2) ∧ (∀ x0, (s.setWinBit k f).ctr x0 = s.ctr x0) ∧
    (∀ x0, (s.setWinBit k f).part x0 = s.part x0) ∧ (∀ x0, (s.setWinBit k f).pcfg x0 = s.pcfg x0) ∧
    (∀ x0, (s.setWinBit k f).configured x0 = s.configured x0) ∧ (∀ x0, (s.setWinBit k f).pstate x0 = s.pstate x0) ∧
    (s.setWinBit k f).isReady = s.isReady ∧ (∀ x0 x1, (s.setWinBit k f).queue x0 x1 = s.queue x0 x1) ∧
    (∀ x0 x1 x2, (s.setWinBit k f).recOf x0 x1 x2 = s.recOf x0 x1 x2) ∧
    (∀ x0 x1 x2 x3, (s.setWinBit k f).readyRec x0 x1 x2 x3 = s.readyRec x0 x1 x2 x3) ∧
    (∀ x0 x1 x2 x3, (s.setWinBit k f).runningRec x0 x1 x2 x3 = s.runningRec x0 x1 x2 x3) ∧ (∀ x0, (s.setWinBit k f).share x0 = s.share x0) ∧
    (∀ x0 x1, (s.setWinBit k f).isFenced x0 x1 = s.isFenced x0 x1) ∧ (∀ x0, (s.setWinBit k f).link? x0 = s.link? x0) ∧
    (s.setWinBit k f).nodeId = s.nodeId ∧ (∀ x0 x1, (s.setWinBit k f).trim x0 x1 = s.trim x0 x1) ∧ (∀ x0, (s.setWinBit k f).calU x0 = s.calU x0) := by
  simp [State.setWinBit]

@[simp] theorem State.emit_reads (s : State) (x : HostOut) :
    (s.emit x).pending = s.pending ∧ (s.emit x).time = s.time ∧ (s.emit x).free = s.free ∧ (s.emit x).regs = s.regs ∧ (s.emit x).ctrs = s.ctrs ∧
    (s.emit x).owned = s.owned ∧ (s.emit x).winReg = s.winReg ∧ (s.emit x).queues = s.queues ∧ (s.emit x).recs = s.recs ∧
    (s.emit x).nextRec = s.nextRec ∧ (s.emit x).fetchNo = s.fetchNo ∧ (s.emit x).ctxs = s.ctxs ∧ (s.emit x).parts = s.parts ∧
    (s.emit x).shares = s.shares ∧ (s.emit x).vfEn = s.vfEn ∧ (s.emit x).numVfs = s.numVfs ∧ (s.emit x).mem = s.mem ∧ (s.emit x).fab = s.fab ∧
    (s.emit x).flt = s.flt ∧ (s.emit x).log = s.log ∧ (s.emit x).sels = s.sels ∧ (s.emit x).results = s.results ∧ (s.emit x).bank = s.bank ∧
    (s.emit x).tokens = s.tokens ∧ (s.emit x).corpora = s.corpora ∧ (s.emit x).builds = s.builds ∧ (s.emit x).queries = s.queries ∧
    (s.emit x).arrays = s.arrays ∧ (s.emit x).atokens = s.atokens ∧ (s.emit x).models = s.models ∧ (s.emit x).oldModels = s.oldModels ∧
    (s.emit x).arrWork = s.arrWork ∧ (s.emit x).trims = s.trims ∧ (s.emit x).flash = s.flash ∧ (s.emit x).emb = s.emb ∧ (s.emit x).load = s.load ∧
    (s.emit x).sec = s.sec ∧ (s.emit x).cal = s.cal ∧ (s.emit x).margins = s.margins ∧ (s.emit x).smb = s.smb ∧ (s.emit x).board = s.board ∧
    (s.emit x).now = s.now ∧ (∀ x0, (s.emit x).reg x0 = s.reg x0) ∧ (∀ x0 x1, (s.emit x).fld x0 x1 = s.fld x0 x1) ∧
    (∀ x0 x1, (s.emit x).regPf x0 x1 = s.regPf x0 x1) ∧ (∀ x0 x1 x2, (s.emit x).fldPf x0 x1 x2 = s.fldPf x0 x1 x2) ∧
    (∀ x0, (s.emit x).ctr x0 = s.ctr x0) ∧ (∀ x0, (s.emit x).part x0 = s.part x0) ∧ (∀ x0, (s.emit x).pcfg x0 = s.pcfg x0) ∧
    (∀ x0, (s.emit x).configured x0 = s.configured x0) ∧ (∀ x0, (s.emit x).pstate x0 = s.pstate x0) ∧ (s.emit x).isReady = s.isReady ∧
    (∀ x0 x1, (s.emit x).queue x0 x1 = s.queue x0 x1) ∧ (∀ x0 x1 x2, (s.emit x).recOf x0 x1 x2 = s.recOf x0 x1 x2) ∧
    (∀ x0 x1 x2 x3, (s.emit x).readyRec x0 x1 x2 x3 = s.readyRec x0 x1 x2 x3) ∧
    (∀ x0 x1 x2 x3, (s.emit x).runningRec x0 x1 x2 x3 = s.runningRec x0 x1 x2 x3) ∧ (∀ x0, (s.emit x).share x0 = s.share x0) ∧
    (∀ x0 x1, (s.emit x).isFenced x0 x1 = s.isFenced x0 x1) ∧ (∀ x0, (s.emit x).link? x0 = s.link? x0) ∧ (s.emit x).nodeId = s.nodeId ∧
    (∀ x0 x1, (s.emit x).trim x0 x1 = s.trim x0 x1) ∧ (∀ x0, (s.emit x).calU x0 = s.calU x0) := by
  simp [State.emit]

@[simp] theorem State.handPacket_reads (s : State) (k : Packet) :
    (s.handPacket k).pending = s.pending ∧ (s.handPacket k).time = s.time ∧ (s.handPacket k).free = s.free ∧ (s.handPacket k).regs = s.regs ∧
    (s.handPacket k).ctrs = s.ctrs ∧ (s.handPacket k).owned = s.owned ∧ (s.handPacket k).winReg = s.winReg ∧ (s.handPacket k).queues = s.queues ∧
    (s.handPacket k).recs = s.recs ∧ (s.handPacket k).nextRec = s.nextRec ∧ (s.handPacket k).fetchNo = s.fetchNo ∧ (s.handPacket k).ctxs = s.ctxs ∧
    (s.handPacket k).parts = s.parts ∧ (s.handPacket k).shares = s.shares ∧ (s.handPacket k).vfEn = s.vfEn ∧ (s.handPacket k).numVfs = s.numVfs ∧
    (s.handPacket k).out = s.out ∧ (s.handPacket k).mem = s.mem ∧ (s.handPacket k).flt = s.flt ∧ (s.handPacket k).log = s.log ∧
    (s.handPacket k).sels = s.sels ∧ (s.handPacket k).results = s.results ∧ (s.handPacket k).bank = s.bank ∧ (s.handPacket k).tokens = s.tokens ∧
    (s.handPacket k).corpora = s.corpora ∧ (s.handPacket k).builds = s.builds ∧ (s.handPacket k).queries = s.queries ∧
    (s.handPacket k).arrays = s.arrays ∧ (s.handPacket k).atokens = s.atokens ∧ (s.handPacket k).models = s.models ∧
    (s.handPacket k).oldModels = s.oldModels ∧ (s.handPacket k).arrWork = s.arrWork ∧ (s.handPacket k).trims = s.trims ∧
    (s.handPacket k).flash = s.flash ∧ (s.handPacket k).emb = s.emb ∧ (s.handPacket k).load = s.load ∧ (s.handPacket k).sec = s.sec ∧
    (s.handPacket k).cal = s.cal ∧ (s.handPacket k).margins = s.margins ∧ (s.handPacket k).smb = s.smb ∧ (s.handPacket k).board = s.board ∧
    (s.handPacket k).now = s.now ∧ (∀ x0, (s.handPacket k).reg x0 = s.reg x0) ∧ (∀ x0 x1, (s.handPacket k).fld x0 x1 = s.fld x0 x1) ∧
    (∀ x0 x1, (s.handPacket k).regPf x0 x1 = s.regPf x0 x1) ∧ (∀ x0 x1 x2, (s.handPacket k).fldPf x0 x1 x2 = s.fldPf x0 x1 x2) ∧
    (∀ x0, (s.handPacket k).ctr x0 = s.ctr x0) ∧ (∀ x0, (s.handPacket k).part x0 = s.part x0) ∧ (∀ x0, (s.handPacket k).pcfg x0 = s.pcfg x0) ∧
    (∀ x0, (s.handPacket k).configured x0 = s.configured x0) ∧ (∀ x0, (s.handPacket k).pstate x0 = s.pstate x0) ∧
    (s.handPacket k).isReady = s.isReady ∧ (∀ x0 x1, (s.handPacket k).queue x0 x1 = s.queue x0 x1) ∧
    (∀ x0 x1 x2, (s.handPacket k).recOf x0 x1 x2 = s.recOf x0 x1 x2) ∧
    (∀ x0 x1 x2 x3, (s.handPacket k).readyRec x0 x1 x2 x3 = s.readyRec x0 x1 x2 x3) ∧
    (∀ x0 x1 x2 x3, (s.handPacket k).runningRec x0 x1 x2 x3 = s.runningRec x0 x1 x2 x3) ∧ (∀ x0, (s.handPacket k).share x0 = s.share x0) ∧
    (∀ x0 x1, (s.handPacket k).isFenced x0 x1 = s.isFenced x0 x1) ∧ (s.handPacket k).nodeId = s.nodeId ∧
    (∀ x0 x1, (s.handPacket k).trim x0 x1 = s.trim x0 x1) ∧ (∀ x0, (s.handPacket k).calU x0 = s.calU x0) := by
  unfold State.handPacket
  split <;> simp

/-! ### Reads -/

theorem State.reg_setReg (s : State) (o x : Nat) (w : Word) : (s.setReg o w).reg x = if x = o then w else s.reg x := by
  unfold State.setReg State.reg
  simp only [State.putRegs_reads]
  split
  · rw [kvGet?_del]
    split
    · subst_vars; rfl
    · rfl
  · rw [kvGet?_put]
    split <;> rfl

@[simp] theorem State.reg_setReg_self (s : State) (o : Nat) (w : Word) : (s.setReg o w).reg o = w := by rw [State.reg_setReg, if_pos rfl]

@[simp] theorem State.reg_setFld_self (s : State) (o : Nat) (f : Fld) (v : Nat) : (s.setFld o f v).reg o = f.put v (s.reg o) :=
  State.reg_setReg_self s o _

theorem State.reg_setFld (s : State) (o x : Nat) (f : Fld) (v : Nat) :
    (s.setFld o f v).reg x = if x = o then f.put v (s.reg o) else s.reg x := State.reg_setReg s o x _

/-- A value that fits a field reads back from it. -/
theorem Fld.get_put (f : Fld) (v : Nat) (w : Word) (hl : f.lo + f.width ≤ 64) : f.get (f.put v w) = v % 2 ^ f.width := by
  have hw : 0 < 2 ^ f.width := Nat.two_pow_pos _
  have hlo : 0 < 2 ^ f.lo := Nat.two_pow_pos _
  unfold Fld.put
  generalize hn : w.toNat = n
  have hlt : n < 2 ^ 64 := hn ▸ w.isLt
  have hg : f.get w = n / 2 ^ f.lo % 2 ^ f.width := by rw [Fld.get, hn, Nat.shiftRight_eq_div_pow]
  rw [hg]
  have e1 : n = n / 2 ^ f.lo * 2 ^ f.lo + n % 2 ^ f.lo := by rw [Nat.mul_comm]; exact (Nat.div_add_mod n _).symm
  have e2 := (Nat.div_add_mod (n / 2 ^ f.lo) (2 ^ f.width)).symm
  generalize hq : n / 2 ^ f.lo = q at *
  generalize hd : q / 2 ^ f.width = d at *
  generalize hm : q % 2 ^ f.width = m at *
  have hr : n % 2 ^ f.lo < 2 ^ f.lo := Nat.mod_lt _ hlo
  generalize n % 2 ^ f.lo = r at *
  have key : n - m * 2 ^ f.lo + v % 2 ^ f.width * 2 ^ f.lo = (2 ^ f.width * d + v % 2 ^ f.width) * 2 ^ f.lo + r := by
    rw [e1, e2, Nat.add_mul, Nat.add_mul]; omega
  have hv : v % 2 ^ f.width < 2 ^ f.width := Nat.mod_lt _ hw
  have hbound : (2 ^ f.width * d + v % 2 ^ f.width) * 2 ^ f.lo + r < 2 ^ 64 := by
    have hdq : 2 ^ f.width * d ≤ q := by omega
    have hqb : q < 2 ^ (64 - f.lo) := by
      rw [← hq]
      refine Nat.div_lt_of_lt_mul ?_
      rw [← Nat.pow_add]
      have : f.lo + (64 - f.lo) = 64 := by omega
      rw [this]; exact hlt
    have hs : 2 ^ (64 - f.lo) = 2 ^ f.width * 2 ^ (64 - f.lo - f.width) := by rw [← Nat.pow_add]; congr 1; omega
    have hdb : d < 2 ^ (64 - f.lo - f.width) := by
      rw [hs] at hqb
      exact Nat.lt_of_mul_lt_mul_left (Nat.lt_of_le_of_lt hdq hqb)
    have h1 : 2 ^ f.width * d + v % 2 ^ f.width + 1 ≤ 2 ^ (64 - f.lo) := by
      rw [hs]
      calc 2 ^ f.width * d + v % 2 ^ f.width + 1 ≤ 2 ^ f.width * d + 2 ^ f.width := by omega
        _ = 2 ^ f.width * (d + 1) := by rw [Nat.mul_add, Nat.mul_one]
        _ ≤ _ := Nat.mul_le_mul_left _ hdb
    have h2 : (2 ^ f.width * d + v % 2 ^ f.width + 1) * 2 ^ f.lo ≤ 2 ^ 64 := by
      calc _ ≤ 2 ^ (64 - f.lo) * 2 ^ f.lo := Nat.mul_le_mul_right _ h1
        _ = 2 ^ 64 := by rw [← Nat.pow_add]; congr 1; omega
    rw [Nat.add_mul, Nat.one_mul] at h2
    omega
  rw [key, Fld.get, Nat.shiftRight_eq_div_pow, BitVec.toNat_ofNat, Nat.mod_eq_of_lt hbound, Nat.add_comm, Nat.add_mul_div_right _ _ hlo,
    Nat.div_eq_of_lt hr, Nat.zero_add, Nat.mul_add_mod, Nat.mod_mod]

/-- A field that is put holds the value, cut to its width. -/
theorem State.fld_setFld (s : State) (o : Nat) (f : Fld) (v : Nat) (hl : f.lo + f.width ≤ 64) : (s.setFld o f v).fld o f = v % 2 ^ f.width := by
  rw [State.fld, State.reg_setFld_self, Fld.get_put f v _ hl]

theorem State.fld_setReg_ne (s : State) {o x : Nat} (h : x ≠ o) (f : Fld) (w : Word) : (s.setReg o w).fld x f = s.fld x f := by
  rw [State.fld, State.reg_setReg, if_neg h]; rfl

theorem State.ctr_setCtr (s : State) (o x v : Nat) : (s.setCtr o v).ctr x = if x = o then v else s.ctr x := by
  unfold State.setCtr State.ctr kvGetD
  simp only [State.putCtrs_reads]
  split
  · rw [kvGet?_del]
    split
    · subst_vars; rfl
    · rfl
  · rw [kvGet?_put]
    split <;> rfl

theorem State.win_setWin (s : State) (p o : Nat) (w : Word) : (s.setWin p o w).win p o = w := by
  unfold State.setWin State.win
  simp only [State.putWinReg_reads]
  split
  · rw [kvGet?_del_self]; subst_vars; rfl
  · rw [kvGet?_put_self]; rfl

end Sys2Proof.Machine
end

