-- ==== Sys2Proof/Laws/Out.lean ====
section
/-! SUPPORT. What the shared operations send to the host: each only adds to what was sent, and a completion is sent with the values it is
given. -/

namespace Sys2Proof.Machine

/-! ### The relation -/

theorem Extends.refl (s : State) : Extends s s := List.prefix_refl _

theorem Extends.trans {s t u : State} (h : Extends s t) (g : Extends t u) : Extends s u := List.IsPrefix.trans h g

theorem Extends.of_eq {s t : State} (h : t.out = s.out) : Extends s t := Eq.subst (motive := fun o => s.out <+: o) h.symm (List.prefix_refl _)

theorem Extends.ite {s t u : State} {c : Prop} [Decidable c] (h : Extends s t) (g : Extends s u) : Extends s (if c then t else u) := by
  split <;> assumption

theorem Extends.fold {α : Type} (f : State → α → State) (h : ∀ s a, Extends s (f s a)) (xs : List α) (s : State) : Extends s (xs.foldl f s) := by
  induction xs generalizing s with
  | nil => exact .refl s
  | cons a xs ih => exact (h s a).trans (ih (f s a))

theorem Sent.mono {s t u : State} {o : HostOut} (h : Sent s t o) (g : Extends t u) : Sent s u o := by
  obtain ⟨xs, e, m⟩ := h
  obtain ⟨ys, f⟩ := g
  exact ⟨xs ++ ys, by rw [← f, e, List.append_assoc], List.mem_append_left _ m⟩

theorem Sent.after {s t u : State} {o : HostOut} (h : Extends s t) (g : Sent t u o) : Sent s u o := by
  obtain ⟨xs, e⟩ := h
  obtain ⟨ys, f, m⟩ := g
  exact ⟨xs ++ ys, by rw [f, ← e, List.append_assoc], List.mem_append_right _ m⟩

theorem sent_emit (s : State) (o : HostOut) : Sent s (s.emit o) o := ⟨[o], rfl, List.mem_singleton.mpr rfl⟩

theorem Completes.mono {s t u : State} {p q cid status count r0 r1 : Nat} (h : Completes s t p q cid status count r0 r1) (g : Extends t u) :
    Completes s u p q cid status count r0 r1 := by
  obtain ⟨slot, c, h, e⟩ := h
  exact ⟨slot, c, h.mono g, e⟩

theorem Completes.after {s t u : State} {p q cid status count r0 r1 : Nat} (h : Extends s t) (g : Completes t u p q cid status count r0 r1) :
    Completes s u p q cid status count r0 r1 := by
  obtain ⟨slot, c, g, e⟩ := g
  exact ⟨slot, c, .after h g, e⟩

/-! ### Operations that add nothing, or only add -/

theorem emit_extends (s : State) (o : HostOut) : Extends s (s.emit o) := ⟨[o], rfl⟩
theorem clearCoal_extends (s : State) (p v : Nat) : Extends s (s.clearCoal p v) := .of_eq (by simp [State.clearCoal])
theorem sendMsix_extends (s : State) (p v : Nat) : Extends s (s.sendMsix p v) := by
  unfold State.sendMsix
  have h : Extends s (s.clearCoal p v) := clearCoal_extends s p v
  exact .ite h (.ite (h.trans (.of_eq (by simp))) (h.trans (emit_extends _ _)))
theorem rawBump_extends (s : State) (o n : Nat) : Extends s (s.rawBump o n).1 := .of_eq (by simp [State.rawBump])
theorem markSat_extends (s : State) (o : Nat) : Extends s (s.markSat o) := by
  unfold State.markSat
  split
  · exact .refl s
  · exact .of_eq (by simp)
theorem latch_extends (s : State) (a b : Nat) : Extends s (s.latch a b) := .of_eq (by simp [State.latch])
theorem drogue_extends (s : State) (a b : Nat) : Extends s (s.drogue a b).1 := by
  unfold State.drogue
  split
  · exact .refl s
  · split
    · exact latch_extends s a b
    · split
      · exact .of_eq (by simp)
      · generalize h : s.rawBump cSnpMissed 1 = x
        have e : Extends s x.1 := h ▸ rawBump_extends s _ _
        exact .ite (e.trans (markSat_extends _ _)) e
theorem logAppend_extends (s : State) (k : Nat) (b : List Byte) : Extends s (s.logAppend k b) := by
  refine .of_eq ?_
  unfold State.logAppend
  dsimp only
  repeat' split
  all_goals simp
theorem eventIrq_extends (s : State) (a b : Nat) : Extends s (s.eventIrq a b) := by
  unfold State.eventIrq
  exact .ite (sendMsix_extends s _ _) (.refl s)
theorem addLost_extends (s : State) (a b : Nat) : Extends s (s.addLost a b) := .ite (.refl s) (.of_eq (by simp))
theorem tallyHour_extends (s : State) (a b c : Nat) : Extends s (s.tallyHour a b c) := .of_eq (by simp [State.tallyHour])

theorem evPlace_extends (s : State) (a b c d e f g : Nat) : Extends s (s.evPlace a b c d e f g) := by
  unfold State.evPlace
  have h0 : Extends s (if a = 0 then s.tallyHour b c e else s) := .ite (tallyHour_extends s b c e) (.refl s)
  generalize (if a = 0 then s.tallyHour b c e else s) = s0 at h0
  dsimp only
  split
  · exact h0.trans (.of_eq (by simp))
  · refine h0.trans ((drogue_extends s0 (2 + a) 0).trans ?_)
    refine Extends.trans ?_ (eventIrq_extends _ _ _)
    refine Extends.trans ?_ (eventIrq_extends _ _ _)
    refine Extends.ite ?_ (Extends.trans ?_ (logAppend_extends _ _ _))
    all_goals
      refine Extends.trans ?_ (addLost_extends _ _ _)
      refine Extends.trans ?_ (addLost_extends _ _ _)
      exact .of_eq (by simp)

theorem event_extends (s : State) (a b c d e f g : Nat) : Extends s (s.event a b c d e f g) := by
  unfold State.event
  have h : Extends s (s.evCount a).1 := by
    unfold State.evCount
    split
    · exact rawBump_extends s _ _
    · split
      · exact rawBump_extends s _ _
      · exact .refl s
  generalize s.evCount a = x at h
  obtain ⟨t, sat⟩ := x
  refine Extends.trans (t := t) h ((evPlace_extends t a b c d e f g).trans ?_)
  dsimp only
  refine Extends.ite ((markSat_extends _ _).trans (Extends.ite ?_ (.refl _))) (.refl _)
  exact (rawBump_extends _ _ _).trans (evPlace_extends _ _ _ _ _ _ _ _)

theorem bump_extends (s : State) (o n : Nat) : Extends s (s.bump o n) := by
  unfold State.bump
  have h := rawBump_extends s o n
  generalize s.rawBump o n = x at h
  obtain ⟨t, sat⟩ := x
  refine Extends.trans (t := t) h ?_
  dsimp only
  exact Extends.ite ((markSat_extends _ _).trans (Extends.ite (event_extends _ _ _ _ _ _ _ _) (.refl _))) (.refl _)

theorem addMeter_extends (s : State) (p i n : Nat) : Extends s (s.addMeter p i n) := by
  unfold State.addMeter
  split
  · exact .refl s
  · split <;> exact .of_eq (by simp)

theorem chargeBw_extends (s : State) (p t n : Nat) : Extends s (s.chargeBw p t n) := by
  unfold State.chargeBw
  split
  · exact .refl s
  · have h : Extends s (if t = 3 then s.addMeter p 7 n else s) := .ite (addMeter_extends s p 7 n) (.refl s)
    generalize (if t = 3 then s.addMeter p 7 n else s) = s0 at h
    exact .ite h (.ite (h.trans (.of_eq (by simp))) (h.trans (Extends.trans (t := s0.modPart p _) (.of_eq (by simp)) (bump_extends _ _ _))))

theorem writeMem_extends (s : State) (a : Nat) (b : List Byte) : Extends s (s.writeMem a b) := .of_eq (by simp [State.writeMem])
theorem release_extends (s : State) (a : Nat) : Extends s (s.release a) := by
  unfold State.release
  split
  · exact .refl s
  · dsimp only
    split <;> exact .of_eq (by simp)
theorem handPacket_extends (s : State) (k : Packet) : Extends s (s.handPacket k) := .of_eq (by simp)
theorem answer_extends (s : State) (o : FabOrigin) (a b c d e : Nat) (x : List Nat) (y : List Byte) : Extends s (s.answer o a b c d e x y) := .of_eq (by simp [State.answer])
theorem sendOrder_extends (s : State) (a b c d : Nat) (x : List Nat) (y : Nat) : Extends s (s.sendOrder a b c d x y) := .of_eq (by simp [State.sendOrder])

/-! ### Completions -/

theorem coalesce_extends (s : State) (p q : Nat) : Extends s (s.coalesce p q) := by
  unfold State.coalesce
  exact .ite (sendMsix_extends s _ _) (.refl s)

/-- A completion is written with the values it is given. -/
theorem postCompletion_completes (s : State) (p q cid stream status flags count r0 r1 : Nat) (n : Bool) :
    Completes s (s.postCompletion p q cid stream status flags count r0 r1 n) p q cid status count r0 r1 := by
  unfold State.postCompletion
  dsimp only
  generalize hc : (Completion.mk cid q status flags _ _ stream _ r0 r1) = c
  refine ⟨(s.queue p q).cqTail, c, Sent.mono (sent_emit s _) ?_, by rw [← hc], by rw [← hc], by rw [← hc], by rw [← hc], by rw [← hc], by rw [← hc]⟩
  exact .ite (.of_eq (by simp)) (Extends.trans (.of_eq (by simp)) (coalesce_extends _ _ _))

theorem access_extends (s : State) (p a n : Nat) : Extends s (s.access p a n) := by
  unfold State.access
  split
  · exact .refl s
  · rename_i t _
    have h : Extends s (if t < 4 then s.chargeBw p t n else s) := .ite (chargeBw_extends s p t n) (.refl s)
    exact .ite h (h.trans (.fold _ (fun x i => .ite (bump_extends x _ _) (.refl x)) _ _))

theorem putResult_extends (s : State) (p a : Nat) (b : List Byte) : Extends s (s.putResult p a b) := by
  unfold State.putResult
  split
  · exact .refl s
  · split
    · exact (access_extends s _ _ _).trans (writeMem_extends _ _ _)
    · exact emit_extends s _

theorem selServeOne_extends (s : State) (u : Nat) : Extends s (s.selServeOne u) := by
  unfold State.selServeOne State.selPut
  repeat' split
  all_goals first
    | exact .refl s
    | (refine Extends.trans ?_ (bump_extends _ _ _); exact .of_eq (by simp [State.modSel]))

theorem selServeUnit_extends (s : State) (u : Nat) : Extends s (s.selServeUnit u) := .fold _ (fun t _ => selServeOne_extends t u) _ _

theorem selDrop_extends (s : State) (u l : Nat) : Extends s (s.selDrop u l) := by
  unfold State.selDrop State.selServe
  refine Extends.trans ?_ (selServeUnit_extends _ _)
  refine Extends.trans ?_ (selServeUnit_extends _ _)
  have h : Extends s (s.modSel u (fun y => { y with lists := kvDel l (s.sel u).lists })) := .of_eq (by simp [State.modSel])
  exact .ite (h.trans (bump_extends _ _ _)) h

theorem selForget_extends (s : State) (rid : Nat) : Extends s (s.selForget rid) := by
  unfold State.selForget
  refine Extends.trans ?_ (.fold (fun (t : State) (x : Nat × Nat) => t.selDrop x.1 x.2) (fun t x => selDrop_extends t x.1 x.2) _ _)
  unfold State.selUnask
  refine .fold _ (fun t x => ?_) _ _
  exact .ite (.refl t) (Extends.trans (.of_eq (by simp [State.modSel])) (bump_extends _ _ _))

theorem dropLoad_extends (s : State) : Extends s s.dropLoad := by
  unfold State.dropLoad
  refine Extends.trans (t := (s.putLoad none).setFld rNodeBridleStatus fNodeBridleStatus_LOADING 0) (.of_eq (by simp)) (.fold _ (fun t x => ?_) _ _)
  exact .ite (.of_eq (by simp)) (.refl t)

theorem loseLoad_extends (s : State) (rid : Nat) : Extends s (s.loseLoad rid) := by
  unfold State.loseLoad
  split
  · refine .ite ?_ (.refl s)
    rename_i l _
    exact (Extends.trans (t := s.settleEntry l.entry 1) (.of_eq (by simp [State.settleEntry])) (logAppend_extends _ _ _)).trans (dropLoad_extends _)
  · exact .refl s

theorem endBuild_extends (s : State) (rid : Nat) : Extends s (s.endBuild rid) := by
  unfold State.endBuild
  split
  · exact Extends.trans (.ite (.refl s) (bump_extends _ _ _)) (.fold _ (fun t a => release_extends t a) _ _)
  · exact .refl s

theorem endMigration_extends (s : State) (rid : Nat) : Extends s (s.endMigration rid) := by
  unfold State.endMigration
  split
  · rename_i m _
    exact (release_extends s m.dest).trans (.of_eq (by simp))
  · exact .refl s

theorem giveRows_extends (s : State) (a : Nat) (i : Option Nat) : Extends s (s.giveRows a i) := by
  unfold State.giveRows
  split
  · exact .of_eq (by simp)
  · exact release_extends s a

theorem retireVersions_extends (s : State) : Extends s s.retireVersions := by
  unfold State.retireVersions
  refine .fold _ (fun t x => ?_) _ _
  split
  · exact .ite (.refl t) (Extends.trans (t := t.putEmb _) (.of_eq (by simp)) (giveRows_extends _ _ _))
  · exact .refl t

theorem endTable_extends (s : State) (rid : Nat) : Extends s (s.endTable rid) := by
  unfold State.endTable
  dsimp only
  refine Extends.trans (t := if (kvGet? rid s.emb.lookups).isSome then (s.putEmb { s.emb with lookups := kvDel rid s.emb.lookups }).retireVersions else s) ?_ ?_
  · exact .ite (Extends.trans (t := s.putEmb _) (.of_eq (by simp)) (retireVersions_extends _)) (.refl s)
  · exact .ite (.of_eq (by simp)) (.refl _)

theorem endNamespace_extends (s : State) (rid : Nat) : Extends s (s.endNamespace rid) := .ite (.of_eq (by simp [State.modFlash])) (.refl s)

theorem hide_extends (s : State) (a n : Nat) : Extends s (s.hide a n) := .of_eq (by simp [State.hide])

theorem endArrays_extends (s : State) (rid : Nat) : Extends s (s.endArrays rid) := by
  unfold State.endArrays
  refine Extends.trans ?_ (.fold (fun (t : State) (w : Nat × Nat) => t.hide w.1 w.2) (fun t w => hide_extends t w.1 w.2) _ _)
  exact .of_eq (by simp)

theorem endUpdate_extends (s : State) (rid : Nat) : Extends s (s.endUpdate rid) := .ite (.refl s) (.of_eq (by simp))

theorem sweepSets_extends (s : State) (p : Nat) : Extends s (s.sweepSets p) := by
  unfold State.sweepSets
  dsimp only
  have h := Extends.fold (fun (t : State) (x : Nat × TSet) => t.release x.2.addr) (fun t x => release_extends t _)
    ((s.corpus p).sets.filter (fun x => (s.corpus p).curSet != some x.1 && !s.setBound p x.1)) s
  exact h.trans (.of_eq (by simp [State.modCorpus]))

theorem endWork_extends (s : State) (rid : Nat) : Extends s (s.endWork rid) := by
  unfold State.endWork
  dsimp only
  have h : Extends s ((((((((s.selForget rid).loseLoad rid).endBuild rid).endMigration rid).endTable rid).endNamespace rid).endUpdate rid)) := by
    refine Extends.trans ?_ (endUpdate_extends _ _)
    refine Extends.trans ?_ (endNamespace_extends _ _)
    refine Extends.trans ?_ (endTable_extends _ _)
    refine Extends.trans ?_ (endMigration_extends _ _)
    refine Extends.trans ?_ (endBuild_extends _ _)
    exact (selForget_extends s rid).trans (loseLoad_extends _ _)
  generalize ((((((((s.selForget rid).loseLoad rid).endBuild rid).endMigration rid).endTable rid).endNamespace rid).endUpdate rid)) = s0 at h
  have h1 : Extends s ((((s0.putQueries (kvDel rid s0.queries)).putBuilds (kvDel rid (s0.putQueries (kvDel rid s0.queries)).builds)).endArrays rid)) :=
    h.trans (Extends.trans (.of_eq (by simp)) (endArrays_extends _ _))
  split
  · exact h1.trans (sweepSets_extends _ _)
  · exact h1

theorem journal_extends (s : State) : Extends s s.journal := Extends.trans (t := s.putFree (s.free + 1)) (.of_eq (by simp)) (bump_extends _ _ _)

theorem unmapUnits_extends (s : State) (k n : Nat) : Extends s (s.unmapUnits k n) := by
  unfold State.unmapUnits
  dsimp only
  have h : Extends s (if s.flash.map.any (fun x => decide (k ≤ x.1 ∧ x.1 < k + n)) = true then
      (s.modFlash (fun f => { f with map := f.map.filter (fun x => !decide (k ≤ x.1 ∧ x.1 < k + n)) })).journal else s) :=
    .ite (Extends.trans (t := s.modFlash _) (.of_eq (by simp [State.modFlash])) (journal_extends _)) (.refl s)
  exact h.trans (.of_eq (by simp))

theorem freeTensor_extends (s : State) (i : Nat) : Extends s (s.freeTensor i) := by
  unfold State.freeTensor
  split
  · exact .refl s
  · rename_i t _
    dsimp only
    have hu : Extends s (if tierOf t.addr = some 3 then s.unmapUnits (t.addr / 16384) (roundUp t.bytes 16384 / 16384) else s) :=
      .ite (unmapUnits_extends _ _ _) (.refl s)
    generalize (if tierOf t.addr = some 3 then s.unmapUnits (t.addr / 16384) (roundUp t.bytes 16384 / 16384) else s) = u at hu
    have h2 : Extends s (if u.flash.roTens.contains t.addr = true then u.modFlash (fun f => { f with roTens := f.roTens.filter (· != t.addr) }) else u) :=
      .ite (hu.trans (.of_eq (by simp [State.modFlash]))) hu
    generalize (if u.flash.roTens.contains t.addr = true then u.modFlash (fun f => { f with roTens := f.roTens.filter (· != t.addr) }) else u) = v at h2
    exact (h2.trans (release_extends v t.addr)).trans (.of_eq (by simp))

theorem reap_extends (s : State) : Extends s s.reap := by
  unfold State.reap
  dsimp only
  refine Extends.trans ?_ (.fold _ (fun t o => ?_) _ _)
  · generalize ((s.mem.tensors.filter _).map _) = xs
    have h := Extends.fold State.freeTensor freeTensor_extends xs s
    exact h.trans (.of_eq (by simp))
  · refine Extends.trans ?_ (release_extends _ _)
    refine .ite ?_ (.refl t)
    split
    · exact unmapUnits_extends _ _ _
    · exact .refl t

/-- A host request that ends has its completion written with the values it ends with. -/
theorem completeOne_completes (s : State) (rid : Nat) (r : Rec) (status flags count r0 r1 : Nat) (res : List Byte) (h : r.fab = none) :
    Completes s (s.completeOne rid r status flags count r0 r1 res) r.part r.q r.cmd.cid status (r.finalCount status count) r0 r1 := by
  unfold State.completeOne
  simp only [h]
  refine Completes.after ?_ (postCompletion_completes _ _ _ _ _ _ _ _ _ _ _)
  have hn : Extends s (s.noteEnd rid r (status == scVented)) := .ite (.refl s) (.of_eq (by simp))
  generalize s.noteEnd rid r (status == scVented) = sn at hn
  have h0 : Extends s ((sn.freeContexts rid).putRecs (kvDel rid (sn.freeContexts rid).recs)) := hn.trans (.of_eq (by simp [State.freeContexts]))
  generalize (sn.freeContexts rid).putRecs (kvDel rid (sn.freeContexts rid).recs) = s0 at h0
  have h1 := h0.trans (endWork_extends s0 rid)
  generalize s0.endWork rid = s1 at h1
  have h2 : Extends s (if r.claims.isEmpty ∧ s1.mem.old.isEmpty = true then s1 else s1.reap) := .ite h1 (h1.trans (reap_extends s1))
  generalize (if r.claims.isEmpty ∧ s1.mem.old.isEmpty = true then s1 else s1.reap) = s2 at h2
  have h3 : Extends s (if status = scFence then s2.bump cFltAborted 1 else s2) := .ite (h2.trans (bump_extends s2 _ _)) h2
  generalize (if status = scFence then s2.bump cFltAborted 1 else s2) = s3 at h3
  have h4 := h3.trans (putResult_extends s3 r.part r.cmd.resultAddr res)
  split
  · exact h4
  · exact h4.trans (emit_extends _ _)

/-- What `openResults` leaves as it was. -/
theorem openResults_eq (s : State) (r : Rec) (status : Nat) (res : List Byte) (h : r.cmd.opcode ≠ 0x31 ∨ (status ≠ scRemoteError ∧ status ≠ scUnreachable)) :
    s.openResults r status res = (res, s) := by
  unfold State.openResults
  rw [if_neg]
  rintro ⟨a, b⟩
  rcases h with h | ⟨h1, h2⟩
  · exact h a
  · rcases b with b | b
    · exact h1 b
    · exact h2 b

theorem openResults_state (s : State) (r : Rec) (status : Nat) (res : List Byte) :
    Extends s (s.openResults r status res).2 ∧ (s.openResults r status res).2.flash = s.flash := by
  unfold State.openResults
  split
  · exact ⟨.of_eq (by simp), by simp⟩
  · exact ⟨.refl s, rfl⟩

/-- What `complete` does to a host request outside a partition reset: where its results are plain or it has none, its completion carries what it is
given. -/
theorem complete_completes (s : State) (p rid : Nat) (r : Rec) (status flags count r0 r1 : Nat) (res : List Byte)
    (hr : kvGet? rid s.recs = some r) (h : r.fab = none) (hp : s.pstate r.part ≠ stResetting)
    (hres : PlainResult s r ∨ (res = [] ∧ (r.cmd.opcode ≠ 0x31 ∨ (status ≠ scRemoteError ∧ status ≠ scUnreachable)))) :
    Completes s (s.complete p rid status flags count r0 r1 res) r.part r.q r.cmd.cid status (r.finalCount status count) r0 r1 := by
  unfold State.complete
  simp only [hr]
  rw [if_neg (fun e => hp e.1)]
  obtain ⟨he, hf⟩ := openResults_state s r status res
  have hnil : PlainResult s r ∨ (s.openResults r status res).1 = [] := by
    rcases hres with h1 | ⟨h1, h2⟩
    · exact .inl h1
    · exact .inr (by rw [openResults_eq s r status res h2]; exact h1)
  generalize s.openResults r status res = x at he hf hnil
  obtain ⟨bs, t⟩ := x
  dsimp only at he hf hnil ⊢
  refine Completes.after he ?_
  rcases hnil with hpl | rfl
  · by_cases hb : r.cmd.resultAddr / 2 ^ 63 % 2 = 1
    · obtain ⟨h2, h3, hro⟩ := hpl hb
      have hr : t.readOnlyAt (r.cmd.resultAddr % 2 ^ 52) = false := by simp [State.readOnlyAt, hf, hro]
      rw [if_neg (by rw [hr]; simp), if_neg (by split <;> simp_all), if_neg (by split <;> simp_all), if_neg (by split <;> simp_all)]
      exact completeOne_completes t rid r status flags count r0 r1 bs h
    · have ht : (if bs.isEmpty = true ∨ r.fab.isSome = true ∨ r.cmd.resultAddr / 2 ^ 63 % 2 ≠ 1 then none else tierOf (r.cmd.resultAddr % 2 ^ 52)) = none :=
        if_pos (.inr (.inr hb))
      rw [ht]
      simpa using completeOne_completes t rid r status flags count r0 r1 bs h
  · simpa using completeOne_completes t rid r status flags count r0 r1 [] h

/-- What a ready request is. -/
theorem readyRec_spec {s : State} {p q cid op rid : Nat} {r : Rec} (h : s.readyRec p q cid op = some (rid, r)) :
    r.part = p ∧ r.q = q ∧ r.cmd.cid = cid ∧ r.fab = none ∧ r.phase = .ready ∧ r.cmd.opcode = op := by
  unfold State.readyRec State.recOf at h
  split at h
  · rename_i x y e
    split at h
    · cases h
      have := List.find?_some e
      simp only [Bool.and_eq_true, beq_iff_eq, Option.isNone_iff_eq_none] at this
      obtain ⟨⟨⟨a, b⟩, c⟩, d⟩ := this
      rename_i g
      exact ⟨a, b, c, d, g.1, g.2.1⟩
    · cases h
  · cases h

theorem runningRec_spec {s : State} {p q cid op rid : Nat} {r : Rec} (h : s.runningRec p q cid op = some (rid, r)) :
    r.part = p ∧ r.q = q ∧ r.cmd.cid = cid ∧ r.fab = none ∧ r.phase = .running ∧ r.cmd.opcode = op := by
  unfold State.runningRec State.recOf at h
  split at h
  · rename_i x y e
    split at h
    · cases h
      have := List.find?_some e
      simp only [Bool.and_eq_true, beq_iff_eq, Option.isNone_iff_eq_none] at this
      obtain ⟨⟨⟨a, b⟩, c⟩, d⟩ := this
      rename_i g
      exact ⟨a, b, c, d, g.1, g.2⟩
    · cases h
  · cases h

/-- Where no tensor has been freed while in use, a request names the node as it is. -/
theorem State.named_self (s : State) (r : Rec) (h : ∀ x ∈ s.mem.tensors, x.2.dying = false) : s.named r = s := by
  unfold State.named
  rw [if_neg]
  simp only [List.any_eq_true, not_exists, not_and, Bool.not_eq_true]
  intro x hx
  simp [h x hx]

/-- A command that may run and is completed: its own completion. -/
theorem MayRun.completes {s u : State} {p q cid op rid : Nat} {r : Rec} (h : MayRun s p q cid op rid r) (e : Extends s u)
    (hr : kvGet? rid u.recs = some r) (hp : u.pstate p ≠ stResetting) (p' status flags count r0 r1 : Nat) (res : List Byte)
    (hres : PlainResult u r ∨ (res = [] ∧ (op ≠ 0x31 ∨ (status ≠ scRemoteError ∧ status ≠ scUnreachable)))) :
    Completes s (u.complete p' rid status flags count r0 r1 res) p q cid status (r.finalCount status count) r0 r1 := by
  obtain ⟨a, b, c, d, -, o⟩ := readyRec_spec h.1
  have := complete_completes u p' rid r status flags count r0 r1 res hr d (by rw [a]; exact hp) (by rw [o]; exact hres)
  rw [a, b, c] at this
  exact .after e this

theorem UnderWay.completes {s u : State} {p q cid op rid : Nat} {r : Rec} (h : UnderWay s p q cid op rid r) (e : Extends s u)
    (hr : kvGet? rid u.recs = some r) (hp : u.pstate p ≠ stResetting) (p' status flags count r0 r1 : Nat) (res : List Byte)
    (hres : PlainResult u r ∨ (res = [] ∧ (op ≠ 0x31 ∨ (status ≠ scRemoteError ∧ status ≠ scUnreachable)))) :
    Completes s (u.complete p' rid status flags count r0 r1 res) p q cid status (r.finalCount status count) r0 r1 := by
  obtain ⟨a, b, c, d, -, o⟩ := runningRec_spec h.1
  have := complete_completes u p' rid r status flags count r0 r1 res hr d (by rw [a]; exact hp) (by rw [o]; exact hres)
  rw [a, b, c] at this
  exact .after e this

end Sys2Proof.Machine
end

