-- ==== Sys2Proof/Laws/Count.lean ====
section
/-! SUPPORT. What counting, reporting and interrupts leave as it was: a count touches counters, registers, the pending bits and traffic of
interrupts, the fault state and the logbook, and nothing else. -/

namespace Sys2Proof.Machine

@[simp] theorem State.rawBump_reads (s : State) (o n : Nat) :
    (s.rawBump o n).1.pending = s.pending ∧ (s.rawBump o n).1.time = s.time ∧ (s.rawBump o n).1.free = s.free ∧ (s.rawBump o n).1.owned = s.owned ∧
    (s.rawBump o n).1.queues = s.queues ∧ (s.rawBump o n).1.recs = s.recs ∧ (s.rawBump o n).1.nextRec = s.nextRec ∧
    (s.rawBump o n).1.fetchNo = s.fetchNo ∧ (s.rawBump o n).1.ctxs = s.ctxs ∧ (s.rawBump o n).1.parts = s.parts ∧ (s.rawBump o n).1.shares = s.shares ∧
    (s.rawBump o n).1.vfEn = s.vfEn ∧ (s.rawBump o n).1.numVfs = s.numVfs ∧ (s.rawBump o n).1.mem = s.mem ∧ (s.rawBump o n).1.fab = s.fab ∧
    (s.rawBump o n).1.sels = s.sels ∧ (s.rawBump o n).1.results = s.results ∧ (s.rawBump o n).1.bank = s.bank ∧ (s.rawBump o n).1.tokens = s.tokens ∧
    (s.rawBump o n).1.corpora = s.corpora ∧ (s.rawBump o n).1.builds = s.builds ∧ (s.rawBump o n).1.queries = s.queries ∧
    (s.rawBump o n).1.arrays = s.arrays ∧ (s.rawBump o n).1.atokens = s.atokens ∧ (s.rawBump o n).1.models = s.models ∧
    (s.rawBump o n).1.oldModels = s.oldModels ∧ (s.rawBump o n).1.arrWork = s.arrWork ∧ (s.rawBump o n).1.trims = s.trims ∧
    (s.rawBump o n).1.flash = s.flash ∧ (s.rawBump o n).1.emb = s.emb ∧ (s.rawBump o n).1.load = s.load ∧ (s.rawBump o n).1.sec = s.sec ∧
    (s.rawBump o n).1.cal = s.cal ∧ (s.rawBump o n).1.margins = s.margins ∧ (s.rawBump o n).1.smb = s.smb ∧ (s.rawBump o n).1.board = s.board ∧
    (s.rawBump o n).1.now = s.now ∧ (∀ x0, (s.rawBump o n).1.part x0 = s.part x0) ∧ (∀ x0, (s.rawBump o n).1.pcfg x0 = s.pcfg x0) ∧
    (∀ x0, (s.rawBump o n).1.configured x0 = s.configured x0) ∧ (∀ x0 x1, (s.rawBump o n).1.queue x0 x1 = s.queue x0 x1) ∧
    (∀ x0 x1 x2, (s.rawBump o n).1.recOf x0 x1 x2 = s.recOf x0 x1 x2) ∧
    (∀ x0 x1 x2 x3, (s.rawBump o n).1.readyRec x0 x1 x2 x3 = s.readyRec x0 x1 x2 x3) ∧
    (∀ x0 x1 x2 x3, (s.rawBump o n).1.runningRec x0 x1 x2 x3 = s.runningRec x0 x1 x2 x3) ∧ (∀ x0, (s.rawBump o n).1.share x0 = s.share x0) ∧
    (∀ x0, (s.rawBump o n).1.link? x0 = s.link? x0) ∧ (∀ x0 x1, (s.rawBump o n).1.trim x0 x1 = s.trim x0 x1) ∧
    (∀ x0, (s.rawBump o n).1.calU x0 = s.calU x0) := by
  simp [State.rawBump]

@[simp] theorem State.markSat_reads (s : State) (o : Nat) :
    (s.markSat o).pending = s.pending ∧ (s.markSat o).time = s.time ∧ (s.markSat o).free = s.free ∧ (s.markSat o).owned = s.owned ∧
    (s.markSat o).queues = s.queues ∧ (s.markSat o).recs = s.recs ∧ (s.markSat o).nextRec = s.nextRec ∧ (s.markSat o).fetchNo = s.fetchNo ∧
    (s.markSat o).ctxs = s.ctxs ∧ (s.markSat o).parts = s.parts ∧ (s.markSat o).shares = s.shares ∧ (s.markSat o).vfEn = s.vfEn ∧
    (s.markSat o).numVfs = s.numVfs ∧ (s.markSat o).mem = s.mem ∧ (s.markSat o).fab = s.fab ∧ (s.markSat o).sels = s.sels ∧
    (s.markSat o).results = s.results ∧ (s.markSat o).bank = s.bank ∧ (s.markSat o).tokens = s.tokens ∧ (s.markSat o).corpora = s.corpora ∧
    (s.markSat o).builds = s.builds ∧ (s.markSat o).queries = s.queries ∧ (s.markSat o).arrays = s.arrays ∧ (s.markSat o).atokens = s.atokens ∧
    (s.markSat o).models = s.models ∧ (s.markSat o).oldModels = s.oldModels ∧ (s.markSat o).arrWork = s.arrWork ∧ (s.markSat o).trims = s.trims ∧
    (s.markSat o).flash = s.flash ∧ (s.markSat o).emb = s.emb ∧ (s.markSat o).load = s.load ∧ (s.markSat o).sec = s.sec ∧ (s.markSat o).cal = s.cal ∧
    (s.markSat o).margins = s.margins ∧ (s.markSat o).smb = s.smb ∧ (s.markSat o).board = s.board ∧ (s.markSat o).now = s.now ∧
    (∀ x0, (s.markSat o).part x0 = s.part x0) ∧ (∀ x0, (s.markSat o).pcfg x0 = s.pcfg x0) ∧ (∀ x0, (s.markSat o).configured x0 = s.configured x0) ∧
    (∀ x0 x1, (s.markSat o).queue x0 x1 = s.queue x0 x1) ∧ (∀ x0 x1 x2, (s.markSat o).recOf x0 x1 x2 = s.recOf x0 x1 x2) ∧
    (∀ x0 x1 x2 x3, (s.markSat o).readyRec x0 x1 x2 x3 = s.readyRec x0 x1 x2 x3) ∧
    (∀ x0 x1 x2 x3, (s.markSat o).runningRec x0 x1 x2 x3 = s.runningRec x0 x1 x2 x3) ∧ (∀ x0, (s.markSat o).share x0 = s.share x0) ∧
    (∀ x0, (s.markSat o).link? x0 = s.link? x0) ∧ (∀ x0 x1, (s.markSat o).trim x0 x1 = s.trim x0 x1) ∧ (∀ x0, (s.markSat o).calU x0 = s.calU x0) := by
  unfold State.markSat
  split <;> simp

@[simp] theorem State.sendMsix_reads (s : State) (p v : Nat) :
    (s.sendMsix p v).pending = s.pending ∧ (s.sendMsix p v).time = s.time ∧ (s.sendMsix p v).free = s.free ∧ (s.sendMsix p v).owned = s.owned ∧
    (s.sendMsix p v).queues = s.queues ∧ (s.sendMsix p v).recs = s.recs ∧ (s.sendMsix p v).nextRec = s.nextRec ∧ (s.sendMsix p v).fetchNo = s.fetchNo ∧
    (s.sendMsix p v).ctxs = s.ctxs ∧ (s.sendMsix p v).parts = s.parts ∧ (s.sendMsix p v).shares = s.shares ∧ (s.sendMsix p v).vfEn = s.vfEn ∧
    (s.sendMsix p v).numVfs = s.numVfs ∧ (s.sendMsix p v).mem = s.mem ∧ (s.sendMsix p v).fab = s.fab ∧ (s.sendMsix p v).sels = s.sels ∧
    (s.sendMsix p v).results = s.results ∧ (s.sendMsix p v).bank = s.bank ∧ (s.sendMsix p v).tokens = s.tokens ∧ (s.sendMsix p v).corpora = s.corpora ∧
    (s.sendMsix p v).builds = s.builds ∧ (s.sendMsix p v).queries = s.queries ∧ (s.sendMsix p v).arrays = s.arrays ∧
    (s.sendMsix p v).atokens = s.atokens ∧ (s.sendMsix p v).models = s.models ∧ (s.sendMsix p v).oldModels = s.oldModels ∧
    (s.sendMsix p v).arrWork = s.arrWork ∧ (s.sendMsix p v).trims = s.trims ∧ (s.sendMsix p v).flash = s.flash ∧ (s.sendMsix p v).emb = s.emb ∧
    (s.sendMsix p v).load = s.load ∧ (s.sendMsix p v).sec = s.sec ∧ (s.sendMsix p v).cal = s.cal ∧ (s.sendMsix p v).margins = s.margins ∧
    (s.sendMsix p v).smb = s.smb ∧ (s.sendMsix p v).board = s.board ∧ (s.sendMsix p v).now = s.now ∧ (∀ x0, (s.sendMsix p v).part x0 = s.part x0) ∧
    (∀ x0, (s.sendMsix p v).pcfg x0 = s.pcfg x0) ∧ (∀ x0, (s.sendMsix p v).configured x0 = s.configured x0) ∧
    (∀ x0 x1, (s.sendMsix p v).queue x0 x1 = s.queue x0 x1) ∧ (∀ x0 x1 x2, (s.sendMsix p v).recOf x0 x1 x2 = s.recOf x0 x1 x2) ∧
    (∀ x0 x1 x2 x3, (s.sendMsix p v).readyRec x0 x1 x2 x3 = s.readyRec x0 x1 x2 x3) ∧
    (∀ x0 x1 x2 x3, (s.sendMsix p v).runningRec x0 x1 x2 x3 = s.runningRec x0 x1 x2 x3) ∧ (∀ x0, (s.sendMsix p v).share x0 = s.share x0) ∧
    (∀ x0, (s.sendMsix p v).link? x0 = s.link? x0) ∧ (∀ x0 x1, (s.sendMsix p v).trim x0 x1 = s.trim x0 x1) ∧
    (∀ x0, (s.sendMsix p v).calU x0 = s.calU x0) := by
  unfold State.sendMsix State.clearCoal
  dsimp only
  split
  · simp
  · split <;> simp

@[simp] theorem State.latch_reads (s : State) (a b : Nat) :
    (s.latch a b).pending = s.pending ∧ (s.latch a b).time = s.time ∧ (s.latch a b).free = s.free ∧ (s.latch a b).owned = s.owned ∧
    (s.latch a b).queues = s.queues ∧ (s.latch a b).recs = s.recs ∧ (s.latch a b).nextRec = s.nextRec ∧ (s.latch a b).fetchNo = s.fetchNo ∧
    (s.latch a b).ctxs = s.ctxs ∧ (s.latch a b).parts = s.parts ∧ (s.latch a b).shares = s.shares ∧ (s.latch a b).vfEn = s.vfEn ∧
    (s.latch a b).numVfs = s.numVfs ∧ (s.latch a b).mem = s.mem ∧ (s.latch a b).fab = s.fab ∧ (s.latch a b).sels = s.sels ∧
    (s.latch a b).results = s.results ∧ (s.latch a b).bank = s.bank ∧ (s.latch a b).tokens = s.tokens ∧ (s.latch a b).corpora = s.corpora ∧
    (s.latch a b).builds = s.builds ∧ (s.latch a b).queries = s.queries ∧ (s.latch a b).arrays = s.arrays ∧ (s.latch a b).atokens = s.atokens ∧
    (s.latch a b).models = s.models ∧ (s.latch a b).oldModels = s.oldModels ∧ (s.latch a b).arrWork = s.arrWork ∧ (s.latch a b).trims = s.trims ∧
    (s.latch a b).flash = s.flash ∧ (s.latch a b).emb = s.emb ∧ (s.latch a b).load = s.load ∧ (s.latch a b).sec = s.sec ∧ (s.latch a b).cal = s.cal ∧
    (s.latch a b).margins = s.margins ∧ (s.latch a b).smb = s.smb ∧ (s.latch a b).board = s.board ∧ (s.latch a b).now = s.now ∧
    (∀ x0, (s.latch a b).part x0 = s.part x0) ∧ (∀ x0, (s.latch a b).pcfg x0 = s.pcfg x0) ∧ (∀ x0, (s.latch a b).configured x0 = s.configured x0) ∧
    (∀ x0 x1, (s.latch a b).queue x0 x1 = s.queue x0 x1) ∧ (∀ x0 x1 x2, (s.latch a b).recOf x0 x1 x2 = s.recOf x0 x1 x2) ∧
    (∀ x0 x1 x2 x3, (s.latch a b).readyRec x0 x1 x2 x3 = s.readyRec x0 x1 x2 x3) ∧
    (∀ x0 x1 x2 x3, (s.latch a b).runningRec x0 x1 x2 x3 = s.runningRec x0 x1 x2 x3) ∧ (∀ x0, (s.latch a b).share x0 = s.share x0) ∧
    (∀ x0, (s.latch a b).link? x0 = s.link? x0) ∧ (∀ x0 x1, (s.latch a b).trim x0 x1 = s.trim x0 x1) ∧ (∀ x0, (s.latch a b).calU x0 = s.calU x0) := by
  simp [State.latch]

@[simp] theorem State.drogue_reads (s : State) (a b : Nat) :
    (s.drogue a b).1.pending = s.pending ∧ (s.drogue a b).1.time = s.time ∧ (s.drogue a b).1.free = s.free ∧ (s.drogue a b).1.owned = s.owned ∧
    (s.drogue a b).1.queues = s.queues ∧ (s.drogue a b).1.recs = s.recs ∧ (s.drogue a b).1.nextRec = s.nextRec ∧ (s.drogue a b).1.fetchNo = s.fetchNo ∧
    (s.drogue a b).1.ctxs = s.ctxs ∧ (s.drogue a b).1.parts = s.parts ∧ (s.drogue a b).1.shares = s.shares ∧ (s.drogue a b).1.vfEn = s.vfEn ∧
    (s.drogue a b).1.numVfs = s.numVfs ∧ (s.drogue a b).1.mem = s.mem ∧ (s.drogue a b).1.fab = s.fab ∧ (s.drogue a b).1.sels = s.sels ∧
    (s.drogue a b).1.results = s.results ∧ (s.drogue a b).1.bank = s.bank ∧ (s.drogue a b).1.tokens = s.tokens ∧ (s.drogue a b).1.corpora = s.corpora ∧
    (s.drogue a b).1.builds = s.builds ∧ (s.drogue a b).1.queries = s.queries ∧ (s.drogue a b).1.arrays = s.arrays ∧
    (s.drogue a b).1.atokens = s.atokens ∧ (s.drogue a b).1.models = s.models ∧ (s.drogue a b).1.oldModels = s.oldModels ∧
    (s.drogue a b).1.arrWork = s.arrWork ∧ (s.drogue a b).1.trims = s.trims ∧ (s.drogue a b).1.flash = s.flash ∧ (s.drogue a b).1.emb = s.emb ∧
    (s.drogue a b).1.load = s.load ∧ (s.drogue a b).1.sec = s.sec ∧ (s.drogue a b).1.cal = s.cal ∧ (s.drogue a b).1.margins = s.margins ∧
    (s.drogue a b).1.smb = s.smb ∧ (s.drogue a b).1.board = s.board ∧ (s.drogue a b).1.now = s.now ∧ (∀ x0, (s.drogue a b).1.part x0 = s.part x0) ∧
    (∀ x0, (s.drogue a b).1.pcfg x0 = s.pcfg x0) ∧ (∀ x0, (s.drogue a b).1.configured x0 = s.configured x0) ∧
    (∀ x0 x1, (s.drogue a b).1.queue x0 x1 = s.queue x0 x1) ∧ (∀ x0 x1 x2, (s.drogue a b).1.recOf x0 x1 x2 = s.recOf x0 x1 x2) ∧
    (∀ x0 x1 x2 x3, (s.drogue a b).1.readyRec x0 x1 x2 x3 = s.readyRec x0 x1 x2 x3) ∧
    (∀ x0 x1 x2 x3, (s.drogue a b).1.runningRec x0 x1 x2 x3 = s.runningRec x0 x1 x2 x3) ∧ (∀ x0, (s.drogue a b).1.share x0 = s.share x0) ∧
    (∀ x0, (s.drogue a b).1.link? x0 = s.link? x0) ∧ (∀ x0 x1, (s.drogue a b).1.trim x0 x1 = s.trim x0 x1) ∧
    (∀ x0, (s.drogue a b).1.calU x0 = s.calU x0) := by
  unfold State.drogue
  split
  · simp
  · split
    · simp
    · split
      · simp
      · have h := State.rawBump_reads s cSnpMissed 1
        generalize s.rawBump cSnpMissed 1 = x at h
        obtain ⟨t, b⟩ := x
        dsimp only at h ⊢
        split <;> simp [h]

@[simp] theorem State.logAppend_reads (s : State) (k : Nat) (b : List Byte) :
    (s.logAppend k b).pending = s.pending ∧ (s.logAppend k b).time = s.time ∧ (s.logAppend k b).free = s.free ∧ (s.logAppend k b).owned = s.owned ∧
    (s.logAppend k b).queues = s.queues ∧ (s.logAppend k b).recs = s.recs ∧ (s.logAppend k b).nextRec = s.nextRec ∧
    (s.logAppend k b).fetchNo = s.fetchNo ∧ (s.logAppend k b).ctxs = s.ctxs ∧ (s.logAppend k b).parts = s.parts ∧ (s.logAppend k b).shares = s.shares ∧
    (s.logAppend k b).vfEn = s.vfEn ∧ (s.logAppend k b).numVfs = s.numVfs ∧ (s.logAppend k b).mem = s.mem ∧ (s.logAppend k b).fab = s.fab ∧
    (s.logAppend k b).sels = s.sels ∧ (s.logAppend k b).results = s.results ∧ (s.logAppend k b).bank = s.bank ∧ (s.logAppend k b).tokens = s.tokens ∧
    (s.logAppend k b).corpora = s.corpora ∧ (s.logAppend k b).builds = s.builds ∧ (s.logAppend k b).queries = s.queries ∧
    (s.logAppend k b).arrays = s.arrays ∧ (s.logAppend k b).atokens = s.atokens ∧ (s.logAppend k b).models = s.models ∧
    (s.logAppend k b).oldModels = s.oldModels ∧ (s.logAppend k b).arrWork = s.arrWork ∧ (s.logAppend k b).trims = s.trims ∧
    (s.logAppend k b).flash = s.flash ∧ (s.logAppend k b).emb = s.emb ∧ (s.logAppend k b).load = s.load ∧ (s.logAppend k b).sec = s.sec ∧
    (s.logAppend k b).cal = s.cal ∧ (s.logAppend k b).margins = s.margins ∧ (s.logAppend k b).smb = s.smb ∧ (s.logAppend k b).board = s.board ∧
    (s.logAppend k b).now = s.now ∧ (∀ x0, (s.logAppend k b).part x0 = s.part x0) ∧ (∀ x0, (s.logAppend k b).pcfg x0 = s.pcfg x0) ∧
    (∀ x0, (s.logAppend k b).configured x0 = s.configured x0) ∧ (∀ x0 x1, (s.logAppend k b).queue x0 x1 = s.queue x0 x1) ∧
    (∀ x0 x1 x2, (s.logAppend k b).recOf x0 x1 x2 = s.recOf x0 x1 x2) ∧
    (∀ x0 x1 x2 x3, (s.logAppend k b).readyRec x0 x1 x2 x3 = s.readyRec x0 x1 x2 x3) ∧
    (∀ x0 x1 x2 x3, (s.logAppend k b).runningRec x0 x1 x2 x3 = s.runningRec x0 x1 x2 x3) ∧ (∀ x0, (s.logAppend k b).share x0 = s.share x0) ∧
    (∀ x0, (s.logAppend k b).link? x0 = s.link? x0) ∧ (∀ x0 x1, (s.logAppend k b).trim x0 x1 = s.trim x0 x1) ∧
    (∀ x0, (s.logAppend k b).calU x0 = s.calU x0) := by
  unfold State.logAppend
  dsimp only
  repeat' split
  all_goals simp

@[simp] theorem State.eventIrq_reads (s : State) (a b : Nat) :
    (s.eventIrq a b).pending = s.pending ∧ (s.eventIrq a b).time = s.time ∧ (s.eventIrq a b).free = s.free ∧ (s.eventIrq a b).owned = s.owned ∧
    (s.eventIrq a b).queues = s.queues ∧ (s.eventIrq a b).recs = s.recs ∧ (s.eventIrq a b).nextRec = s.nextRec ∧ (s.eventIrq a b).fetchNo = s.fetchNo ∧
    (s.eventIrq a b).ctxs = s.ctxs ∧ (s.eventIrq a b).parts = s.parts ∧ (s.eventIrq a b).shares = s.shares ∧ (s.eventIrq a b).vfEn = s.vfEn ∧
    (s.eventIrq a b).numVfs = s.numVfs ∧ (s.eventIrq a b).mem = s.mem ∧ (s.eventIrq a b).fab = s.fab ∧ (s.eventIrq a b).sels = s.sels ∧
    (s.eventIrq a b).results = s.results ∧ (s.eventIrq a b).bank = s.bank ∧ (s.eventIrq a b).tokens = s.tokens ∧ (s.eventIrq a b).corpora = s.corpora ∧
    (s.eventIrq a b).builds = s.builds ∧ (s.eventIrq a b).queries = s.queries ∧ (s.eventIrq a b).arrays = s.arrays ∧
    (s.eventIrq a b).atokens = s.atokens ∧ (s.eventIrq a b).models = s.models ∧ (s.eventIrq a b).oldModels = s.oldModels ∧
    (s.eventIrq a b).arrWork = s.arrWork ∧ (s.eventIrq a b).trims = s.trims ∧ (s.eventIrq a b).flash = s.flash ∧ (s.eventIrq a b).emb = s.emb ∧
    (s.eventIrq a b).load = s.load ∧ (s.eventIrq a b).sec = s.sec ∧ (s.eventIrq a b).cal = s.cal ∧ (s.eventIrq a b).margins = s.margins ∧
    (s.eventIrq a b).smb = s.smb ∧ (s.eventIrq a b).board = s.board ∧ (s.eventIrq a b).now = s.now ∧ (∀ x0, (s.eventIrq a b).part x0 = s.part x0) ∧
    (∀ x0, (s.eventIrq a b).pcfg x0 = s.pcfg x0) ∧ (∀ x0, (s.eventIrq a b).configured x0 = s.configured x0) ∧
    (∀ x0 x1, (s.eventIrq a b).queue x0 x1 = s.queue x0 x1) ∧ (∀ x0 x1 x2, (s.eventIrq a b).recOf x0 x1 x2 = s.recOf x0 x1 x2) ∧
    (∀ x0 x1 x2 x3, (s.eventIrq a b).readyRec x0 x1 x2 x3 = s.readyRec x0 x1 x2 x3) ∧
    (∀ x0 x1 x2 x3, (s.eventIrq a b).runningRec x0 x1 x2 x3 = s.runningRec x0 x1 x2 x3) ∧ (∀ x0, (s.eventIrq a b).share x0 = s.share x0) ∧
    (∀ x0, (s.eventIrq a b).link? x0 = s.link? x0) ∧ (∀ x0 x1, (s.eventIrq a b).trim x0 x1 = s.trim x0 x1) ∧
    (∀ x0, (s.eventIrq a b).calU x0 = s.calU x0) := by
  unfold State.eventIrq
  split <;> simp

@[simp] theorem State.addLost_reads (s : State) (a b : Nat) :
    (s.addLost a b).pending = s.pending ∧ (s.addLost a b).time = s.time ∧ (s.addLost a b).free = s.free ∧ (s.addLost a b).owned = s.owned ∧
    (s.addLost a b).queues = s.queues ∧ (s.addLost a b).recs = s.recs ∧ (s.addLost a b).nextRec = s.nextRec ∧ (s.addLost a b).fetchNo = s.fetchNo ∧
    (s.addLost a b).ctxs = s.ctxs ∧ (s.addLost a b).parts = s.parts ∧ (s.addLost a b).shares = s.shares ∧ (s.addLost a b).vfEn = s.vfEn ∧
    (s.addLost a b).numVfs = s.numVfs ∧ (s.addLost a b).mem = s.mem ∧ (s.addLost a b).fab = s.fab ∧ (s.addLost a b).sels = s.sels ∧
    (s.addLost a b).results = s.results ∧ (s.addLost a b).bank = s.bank ∧ (s.addLost a b).tokens = s.tokens ∧ (s.addLost a b).corpora = s.corpora ∧
    (s.addLost a b).builds = s.builds ∧ (s.addLost a b).queries = s.queries ∧ (s.addLost a b).arrays = s.arrays ∧ (s.addLost a b).atokens = s.atokens ∧
    (s.addLost a b).models = s.models ∧ (s.addLost a b).oldModels = s.oldModels ∧ (s.addLost a b).arrWork = s.arrWork ∧
    (s.addLost a b).trims = s.trims ∧ (s.addLost a b).flash = s.flash ∧ (s.addLost a b).emb = s.emb ∧ (s.addLost a b).load = s.load ∧
    (s.addLost a b).sec = s.sec ∧ (s.addLost a b).cal = s.cal ∧ (s.addLost a b).margins = s.margins ∧ (s.addLost a b).smb = s.smb ∧
    (s.addLost a b).board = s.board ∧ (s.addLost a b).now = s.now ∧ (∀ x0, (s.addLost a b).part x0 = s.part x0) ∧
    (∀ x0, (s.addLost a b).pcfg x0 = s.pcfg x0) ∧ (∀ x0, (s.addLost a b).configured x0 = s.configured x0) ∧
    (∀ x0 x1, (s.addLost a b).queue x0 x1 = s.queue x0 x1) ∧ (∀ x0 x1 x2, (s.addLost a b).recOf x0 x1 x2 = s.recOf x0 x1 x2) ∧
    (∀ x0 x1 x2 x3, (s.addLost a b).readyRec x0 x1 x2 x3 = s.readyRec x0 x1 x2 x3) ∧
    (∀ x0 x1 x2 x3, (s.addLost a b).runningRec x0 x1 x2 x3 = s.runningRec x0 x1 x2 x3) ∧ (∀ x0, (s.addLost a b).share x0 = s.share x0) ∧
    (∀ x0, (s.addLost a b).link? x0 = s.link? x0) ∧ (∀ x0 x1, (s.addLost a b).trim x0 x1 = s.trim x0 x1) ∧ (∀ x0, (s.addLost a b).calU x0 = s.calU x0) := by
  unfold State.addLost
  split <;> simp

@[simp] theorem State.tallyHour_reads (s : State) (a b c : Nat) :
    (s.tallyHour a b c).pending = s.pending ∧ (s.tallyHour a b c).time = s.time ∧ (s.tallyHour a b c).free = s.free ∧
    (s.tallyHour a b c).owned = s.owned ∧ (s.tallyHour a b c).queues = s.queues ∧ (s.tallyHour a b c).recs = s.recs ∧
    (s.tallyHour a b c).nextRec = s.nextRec ∧ (s.tallyHour a b c).fetchNo = s.fetchNo ∧ (s.tallyHour a b c).ctxs = s.ctxs ∧
    (s.tallyHour a b c).parts = s.parts ∧ (s.tallyHour a b c).shares = s.shares ∧ (s.tallyHour a b c).vfEn = s.vfEn ∧
    (s.tallyHour a b c).numVfs = s.numVfs ∧ (s.tallyHour a b c).mem = s.mem ∧ (s.tallyHour a b c).fab = s.fab ∧ (s.tallyHour a b c).sels = s.sels ∧
    (s.tallyHour a b c).results = s.results ∧ (s.tallyHour a b c).bank = s.bank ∧ (s.tallyHour a b c).tokens = s.tokens ∧
    (s.tallyHour a b c).corpora = s.corpora ∧ (s.tallyHour a b c).builds = s.builds ∧ (s.tallyHour a b c).queries = s.queries ∧
    (s.tallyHour a b c).arrays = s.arrays ∧ (s.tallyHour a b c).atokens = s.atokens ∧ (s.tallyHour a b c).models = s.models ∧
    (s.tallyHour a b c).oldModels = s.oldModels ∧ (s.tallyHour a b c).arrWork = s.arrWork ∧ (s.tallyHour a b c).trims = s.trims ∧
    (s.tallyHour a b c).flash = s.flash ∧ (s.tallyHour a b c).emb = s.emb ∧ (s.tallyHour a b c).load = s.load ∧ (s.tallyHour a b c).sec = s.sec ∧
    (s.tallyHour a b c).cal = s.cal ∧ (s.tallyHour a b c).margins = s.margins ∧ (s.tallyHour a b c).smb = s.smb ∧ (s.tallyHour a b c).board = s.board ∧
    (s.tallyHour a b c).now = s.now ∧ (∀ x0, (s.tallyHour a b c).part x0 = s.part x0) ∧ (∀ x0, (s.tallyHour a b c).pcfg x0 = s.pcfg x0) ∧
    (∀ x0, (s.tallyHour a b c).configured x0 = s.configured x0) ∧ (∀ x0 x1, (s.tallyHour a b c).queue x0 x1 = s.queue x0 x1) ∧
    (∀ x0 x1 x2, (s.tallyHour a b c).recOf x0 x1 x2 = s.recOf x0 x1 x2) ∧
    (∀ x0 x1 x2 x3, (s.tallyHour a b c).readyRec x0 x1 x2 x3 = s.readyRec x0 x1 x2 x3) ∧
    (∀ x0 x1 x2 x3, (s.tallyHour a b c).runningRec x0 x1 x2 x3 = s.runningRec x0 x1 x2 x3) ∧ (∀ x0, (s.tallyHour a b c).share x0 = s.share x0) ∧
    (∀ x0, (s.tallyHour a b c).link? x0 = s.link? x0) ∧ (∀ x0 x1, (s.tallyHour a b c).trim x0 x1 = s.trim x0 x1) ∧
    (∀ x0, (s.tallyHour a b c).calU x0 = s.calU x0) := by
  simp [State.tallyHour]

@[simp] theorem State.evPlace_reads (s : State) (a b c d e f g : Nat) :
    (s.evPlace a b c d e f g).pending = s.pending ∧ (s.evPlace a b c d e f g).time = s.time ∧ (s.evPlace a b c d e f g).free = s.free ∧
    (s.evPlace a b c d e f g).owned = s.owned ∧ (s.evPlace a b c d e f g).queues = s.queues ∧ (s.evPlace a b c d e f g).recs = s.recs ∧
    (s.evPlace a b c d e f g).nextRec = s.nextRec ∧ (s.evPlace a b c d e f g).fetchNo = s.fetchNo ∧ (s.evPlace a b c d e f g).ctxs = s.ctxs ∧
    (s.evPlace a b c d e f g).parts = s.parts ∧ (s.evPlace a b c d e f g).shares = s.shares ∧ (s.evPlace a b c d e f g).vfEn = s.vfEn ∧
    (s.evPlace a b c d e f g).numVfs = s.numVfs ∧ (s.evPlace a b c d e f g).mem = s.mem ∧ (s.evPlace a b c d e f g).fab = s.fab ∧
    (s.evPlace a b c d e f g).sels = s.sels ∧ (s.evPlace a b c d e f g).results = s.results ∧ (s.evPlace a b c d e f g).bank = s.bank ∧
    (s.evPlace a b c d e f g).tokens = s.tokens ∧ (s.evPlace a b c d e f g).corpora = s.corpora ∧ (s.evPlace a b c d e f g).builds = s.builds ∧
    (s.evPlace a b c d e f g).queries = s.queries ∧ (s.evPlace a b c d e f g).arrays = s.arrays ∧ (s.evPlace a b c d e f g).atokens = s.atokens ∧
    (s.evPlace a b c d e f g).models = s.models ∧ (s.evPlace a b c d e f g).oldModels = s.oldModels ∧ (s.evPlace a b c d e f g).arrWork = s.arrWork ∧
    (s.evPlace a b c d e f g).trims = s.trims ∧ (s.evPlace a b c d e f g).flash = s.flash ∧ (s.evPlace a b c d e f g).emb = s.emb ∧
    (s.evPlace a b c d e f g).load = s.load ∧ (s.evPlace a b c d e f g).sec = s.sec ∧ (s.evPlace a b c d e f g).cal = s.cal ∧
    (s.evPlace a b c d e f g).margins = s.margins ∧ (s.evPlace a b c d e f g).smb = s.smb ∧ (s.evPlace a b c d e f g).board = s.board ∧
    (s.evPlace a b c d e f g).now = s.now ∧ (∀ x0, (s.evPlace a b c d e f g).part x0 = s.part x0) ∧
    (∀ x0, (s.evPlace a b c d e f g).pcfg x0 = s.pcfg x0) ∧ (∀ x0, (s.evPlace a b c d e f g).configured x0 = s.configured x0) ∧
    (∀ x0 x1, (s.evPlace a b c d e f g).queue x0 x1 = s.queue x0 x1) ∧ (∀ x0 x1 x2, (s.evPlace a b c d e f g).recOf x0 x1 x2 = s.recOf x0 x1 x2) ∧
    (∀ x0 x1 x2 x3, (s.evPlace a b c d e f g).readyRec x0 x1 x2 x3 = s.readyRec x0 x1 x2 x3) ∧
    (∀ x0 x1 x2 x3, (s.evPlace a b c d e f g).runningRec x0 x1 x2 x3 = s.runningRec x0 x1 x2 x3) ∧
    (∀ x0, (s.evPlace a b c d e f g).share x0 = s.share x0) ∧ (∀ x0, (s.evPlace a b c d e f g).link? x0 = s.link? x0) ∧
    (∀ x0 x1, (s.evPlace a b c d e f g).trim x0 x1 = s.trim x0 x1) ∧ (∀ x0, (s.evPlace a b c d e f g).calU x0 = s.calU x0) := by
  unfold State.evPlace
  split <;> (dsimp only; split <;> (try split) <;> simp)

@[simp] theorem State.evCount_reads (s : State) (a : Nat) :
    (s.evCount a).1.pending = s.pending ∧ (s.evCount a).1.time = s.time ∧ (s.evCount a).1.free = s.free ∧ (s.evCount a).1.owned = s.owned ∧
    (s.evCount a).1.queues = s.queues ∧ (s.evCount a).1.recs = s.recs ∧ (s.evCount a).1.nextRec = s.nextRec ∧ (s.evCount a).1.fetchNo = s.fetchNo ∧
    (s.evCount a).1.ctxs = s.ctxs ∧ (s.evCount a).1.parts = s.parts ∧ (s.evCount a).1.shares = s.shares ∧ (s.evCount a).1.vfEn = s.vfEn ∧
    (s.evCount a).1.numVfs = s.numVfs ∧ (s.evCount a).1.mem = s.mem ∧ (s.evCount a).1.fab = s.fab ∧ (s.evCount a).1.sels = s.sels ∧
    (s.evCount a).1.results = s.results ∧ (s.evCount a).1.bank = s.bank ∧ (s.evCount a).1.tokens = s.tokens ∧ (s.evCount a).1.corpora = s.corpora ∧
    (s.evCount a).1.builds = s.builds ∧ (s.evCount a).1.queries = s.queries ∧ (s.evCount a).1.arrays = s.arrays ∧ (s.evCount a).1.atokens = s.atokens ∧
    (s.evCount a).1.models = s.models ∧ (s.evCount a).1.oldModels = s.oldModels ∧ (s.evCount a).1.arrWork = s.arrWork ∧
    (s.evCount a).1.trims = s.trims ∧ (s.evCount a).1.flash = s.flash ∧ (s.evCount a).1.emb = s.emb ∧ (s.evCount a).1.load = s.load ∧
    (s.evCount a).1.sec = s.sec ∧ (s.evCount a).1.cal = s.cal ∧ (s.evCount a).1.margins = s.margins ∧ (s.evCount a).1.smb = s.smb ∧
    (s.evCount a).1.board = s.board ∧ (s.evCount a).1.now = s.now ∧ (∀ x0, (s.evCount a).1.part x0 = s.part x0) ∧
    (∀ x0, (s.evCount a).1.pcfg x0 = s.pcfg x0) ∧ (∀ x0, (s.evCount a).1.configured x0 = s.configured x0) ∧
    (∀ x0 x1, (s.evCount a).1.queue x0 x1 = s.queue x0 x1) ∧ (∀ x0 x1 x2, (s.evCount a).1.recOf x0 x1 x2 = s.recOf x0 x1 x2) ∧
    (∀ x0 x1 x2 x3, (s.evCount a).1.readyRec x0 x1 x2 x3 = s.readyRec x0 x1 x2 x3) ∧
    (∀ x0 x1 x2 x3, (s.evCount a).1.runningRec x0 x1 x2 x3 = s.runningRec x0 x1 x2 x3) ∧ (∀ x0, (s.evCount a).1.share x0 = s.share x0) ∧
    (∀ x0, (s.evCount a).1.link? x0 = s.link? x0) ∧ (∀ x0 x1, (s.evCount a).1.trim x0 x1 = s.trim x0 x1) ∧ (∀ x0, (s.evCount a).1.calU x0 = s.calU x0) := by
  unfold State.evCount
  split
  · simp
  · split <;> simp

@[simp] theorem State.event_reads (s : State) (a b c d e f g : Nat) :
    (s.event a b c d e f g).pending = s.pending ∧ (s.event a b c d e f g).time = s.time ∧ (s.event a b c d e f g).free = s.free ∧
    (s.event a b c d e f g).owned = s.owned ∧ (s.event a b c d e f g).queues = s.queues ∧ (s.event a b c d e f g).recs = s.recs ∧
    (s.event a b c d e f g).nextRec = s.nextRec ∧ (s.event a b c d e f g).fetchNo = s.fetchNo ∧ (s.event a b c d e f g).ctxs = s.ctxs ∧
    (s.event a b c d e f g).parts = s.parts ∧ (s.event a b c d e f g).shares = s.shares ∧ (s.event a b c d e f g).vfEn = s.vfEn ∧
    (s.event a b c d e f g).numVfs = s.numVfs ∧ (s.event a b c d e f g).mem = s.mem ∧ (s.event a b c d e f g).fab = s.fab ∧
    (s.event a b c d e f g).sels = s.sels ∧ (s.event a b c d e f g).results = s.results ∧ (s.event a b c d e f g).bank = s.bank ∧
    (s.event a b c d e f g).tokens = s.tokens ∧ (s.event a b c d e f g).corpora = s.corpora ∧ (s.event a b c d e f g).builds = s.builds ∧
    (s.event a b c d e f g).queries = s.queries ∧ (s.event a b c d e f g).arrays = s.arrays ∧ (s.event a b c d e f g).atokens = s.atokens ∧
    (s.event a b c d e f g).models = s.models ∧ (s.event a b c d e f g).oldModels = s.oldModels ∧ (s.event a b c d e f g).arrWork = s.arrWork ∧
    (s.event a b c d e f g).trims = s.trims ∧ (s.event a b c d e f g).flash = s.flash ∧ (s.event a b c d e f g).emb = s.emb ∧
    (s.event a b c d e f g).load = s.load ∧ (s.event a b c d e f g).sec = s.sec ∧ (s.event a b c d e f g).cal = s.cal ∧
    (s.event a b c d e f g).margins = s.margins ∧ (s.event a b c d e f g).smb = s.smb ∧ (s.event a b c d e f g).board = s.board ∧
    (s.event a b c d e f g).now = s.now ∧ (∀ x0, (s.event a b c d e f g).part x0 = s.part x0) ∧ (∀ x0, (s.event a b c d e f g).pcfg x0 = s.pcfg x0) ∧
    (∀ x0, (s.event a b c d e f g).configured x0 = s.configured x0) ∧ (∀ x0 x1, (s.event a b c d e f g).queue x0 x1 = s.queue x0 x1) ∧
    (∀ x0 x1 x2, (s.event a b c d e f g).recOf x0 x1 x2 = s.recOf x0 x1 x2) ∧
    (∀ x0 x1 x2 x3, (s.event a b c d e f g).readyRec x0 x1 x2 x3 = s.readyRec x0 x1 x2 x3) ∧
    (∀ x0 x1 x2 x3, (s.event a b c d e f g).runningRec x0 x1 x2 x3 = s.runningRec x0 x1 x2 x3) ∧
    (∀ x0, (s.event a b c d e f g).share x0 = s.share x0) ∧ (∀ x0, (s.event a b c d e f g).link? x0 = s.link? x0) ∧
    (∀ x0 x1, (s.event a b c d e f g).trim x0 x1 = s.trim x0 x1) ∧ (∀ x0, (s.event a b c d e f g).calU x0 = s.calU x0) := by
  unfold State.event
  have h := State.evCount_reads s a
  generalize s.evCount a = x at h
  obtain ⟨t, sat⟩ := x
  dsimp only at h ⊢
  repeat' split
  all_goals simp [h]

@[simp] theorem State.bump_reads (s : State) (o n : Nat) :
    (s.bump o n).pending = s.pending ∧ (s.bump o n).time = s.time ∧ (s.bump o n).free = s.free ∧ (s.bump o n).owned = s.owned ∧
    (s.bump o n).queues = s.queues ∧ (s.bump o n).recs = s.recs ∧ (s.bump o n).nextRec = s.nextRec ∧ (s.bump o n).fetchNo = s.fetchNo ∧
    (s.bump o n).ctxs = s.ctxs ∧ (s.bump o n).parts = s.parts ∧ (s.bump o n).shares = s.shares ∧ (s.bump o n).vfEn = s.vfEn ∧
    (s.bump o n).numVfs = s.numVfs ∧ (s.bump o n).mem = s.mem ∧ (s.bump o n).fab = s.fab ∧ (s.bump o n).sels = s.sels ∧
    (s.bump o n).results = s.results ∧ (s.bump o n).bank = s.bank ∧ (s.bump o n).tokens = s.tokens ∧ (s.bump o n).corpora = s.corpora ∧
    (s.bump o n).builds = s.builds ∧ (s.bump o n).queries = s.queries ∧ (s.bump o n).arrays = s.arrays ∧ (s.bump o n).atokens = s.atokens ∧
    (s.bump o n).models = s.models ∧ (s.bump o n).oldModels = s.oldModels ∧ (s.bump o n).arrWork = s.arrWork ∧ (s.bump o n).trims = s.trims ∧
    (s.bump o n).flash = s.flash ∧ (s.bump o n).emb = s.emb ∧ (s.bump o n).load = s.load ∧ (s.bump o n).sec = s.sec ∧ (s.bump o n).cal = s.cal ∧
    (s.bump o n).margins = s.margins ∧ (s.bump o n).smb = s.smb ∧ (s.bump o n).board = s.board ∧ (s.bump o n).now = s.now ∧
    (∀ x0, (s.bump o n).part x0 = s.part x0) ∧ (∀ x0, (s.bump o n).pcfg x0 = s.pcfg x0) ∧ (∀ x0, (s.bump o n).configured x0 = s.configured x0) ∧
    (∀ x0 x1, (s.bump o n).queue x0 x1 = s.queue x0 x1) ∧ (∀ x0 x1 x2, (s.bump o n).recOf x0 x1 x2 = s.recOf x0 x1 x2) ∧
    (∀ x0 x1 x2 x3, (s.bump o n).readyRec x0 x1 x2 x3 = s.readyRec x0 x1 x2 x3) ∧
    (∀ x0 x1 x2 x3, (s.bump o n).runningRec x0 x1 x2 x3 = s.runningRec x0 x1 x2 x3) ∧ (∀ x0, (s.bump o n).share x0 = s.share x0) ∧
    (∀ x0, (s.bump o n).link? x0 = s.link? x0) ∧ (∀ x0 x1, (s.bump o n).trim x0 x1 = s.trim x0 x1) ∧ (∀ x0, (s.bump o n).calU x0 = s.calU x0) := by
  unfold State.bump
  have h := State.rawBump_reads s o n
  generalize s.rawBump o n = x at h
  obtain ⟨t, sat⟩ := x
  dsimp only at h ⊢
  split
  · split <;> simp [h]
  · simp [h]

/-! ### Registers below the fault block, and counters that have not saturated -/

theorem State.reg_setReg_low (s : State) {o x : Nat} (w : Word) (h : x < 0x2800000) (g : 0x2800000 ≤ o) : (s.setReg o w).reg x = s.reg x := by
  rw [State.reg_setReg, if_neg (by omega)]

theorem State.reg_setFld_low (s : State) {o x : Nat} (f : Fld) (v : Nat) (h : x < 0x2800000) (g : 0x2800000 ≤ o) : (s.setFld o f v).reg x = s.reg x :=
  State.reg_setReg_low s _ h g

theorem State.reg_setFldPf_low (s : State) {o x : Nat} (k : Nat) (f : Fld) (v : Nat) (h : x < 0x2800000) (g : 0x2800000 ≤ o) :
    (s.setFldPf k o f v).reg x = s.reg x := by
  unfold State.setFldPf State.setRegPf State.reg pfKey
  simp only [State.putRegs_reads]
  split
  · rw [kvGet?_del, if_neg (by omega)]
  · rw [kvGet?_put, if_neg (by omega)]

theorem State.reg_rawBump (s : State) (o n x : Nat) : (s.rawBump o n).1.reg x = s.reg x := by simp [State.rawBump]

theorem State.reg_markSat (s : State) (o : Nat) {x : Nat} (h : x < 0x2800000) : (s.markSat o).reg x = s.reg x := by
  unfold State.markSat
  split
  · rfl
  · exact State.reg_setReg_low s _ h (by unfold rFltSat; omega)

theorem State.reg_sendMsix (s : State) (p v x : Nat) : (s.sendMsix p v).reg x = s.reg x := by
  unfold State.sendMsix State.clearCoal
  dsimp only
  split
  · simp
  · split <;> simp

theorem State.reg_drogue (s : State) (a b : Nat) {x : Nat} (h : x < 0x2800000) : (s.drogue a b).1.reg x = s.reg x := by
  unfold State.drogue
  split
  · rfl
  · split
    · unfold State.latch
      rw [State.reg_setReg_low _ _ h (by decide), State.reg_setReg_low _ _ h (by decide), State.reg_setFld_low _ _ _ h (by decide)]
      rfl
    · split
      · exact State.reg_setFld_low s _ _ h (by decide)
      · have g := State.reg_rawBump s cSnpMissed 1 x
        generalize s.rawBump cSnpMissed 1 = y at g
        obtain ⟨t, b⟩ := y
        dsimp only at g ⊢
        split
        · rw [State.reg_markSat _ _ h, g]
        · exact g

theorem State.reg_logAppend (s : State) (k : Nat) (b : List Byte) {x : Nat} (h : x < 0x2800000) : (s.logAppend k b).reg x = s.reg x := by
  have e1 := fun (t : State) (f : Fld) (v : Nat) => State.reg_setFld_low t f v h (show 0x2800000 ≤ rLogStatus by decide)
  have e2 := fun (t : State) (w : Word) => State.reg_setReg_low t w h (show 0x2800000 ≤ rLogDropped by decide)
  have e3 := fun (t : State) (w : Word) => State.reg_setReg_low t w h (show 0x2800000 ≤ rLogNextSeq by decide)
  unfold State.logAppend
  dsimp only
  repeat' split
  all_goals simp only [e1, e2, e3, State.putLog_reads]

theorem State.reg_eventIrq (s : State) (a b x : Nat) : (s.eventIrq a b).reg x = s.reg x := by
  unfold State.eventIrq
  split
  · exact State.reg_sendMsix s _ _ x
  · rfl

theorem State.reg_addLost (s : State) (a b : Nat) {x : Nat} (h : x < 0x2800000) : (s.addLost a b).reg x = s.reg x := by
  unfold State.addLost
  split
  · rfl
  · exact State.reg_setFldPf_low s _ _ _ h (by decide)

theorem State.reg_evPlace (s : State) (a b c d e f g : Nat) {x : Nat} (h : x < 0x2800000) : (s.evPlace a b c d e f g).reg x = s.reg x := by
  unfold State.evPlace
  have h0 : (if a = 0 then s.tallyHour b c e else s).reg x = s.reg x := by split <;> simp [State.tallyHour]
  generalize (if a = 0 then s.tallyHour b c e else s) = s0 at h0
  dsimp only
  split
  · simpa using h0
  · rw [State.reg_eventIrq, State.reg_eventIrq]
    split
    · rw [State.reg_addLost _ _ _ h, State.reg_addLost _ _ _ h]
      simp [State.reg_drogue _ _ _ h, h0]
    · rw [State.reg_logAppend _ _ _ h, State.reg_addLost _ _ _ h, State.reg_addLost _ _ _ h]
      simp [State.reg_drogue _ _ _ h, h0]

theorem State.reg_event (s : State) (a b c d e f g : Nat) {x : Nat} (h : x < 0x2800000) : (s.event a b c d e f g).reg x = s.reg x := by
  unfold State.event
  have h0 : (s.evCount a).1.reg x = s.reg x := by
    unfold State.evCount
    split
    · exact State.reg_rawBump s _ _ x
    · split
      · exact State.reg_rawBump s _ _ x
      · rfl
  generalize s.evCount a = y at h0
  obtain ⟨t, sat⟩ := y
  dsimp only at h0 ⊢
  repeat' split
  all_goals simp only [State.reg_evPlace _ _ _ _ _ _ _ _ h, State.reg_rawBump, State.reg_markSat _ _ h, h0]

/-- A count touches no register below the fault block. -/
theorem State.reg_bump (s : State) (o n : Nat) {x : Nat} (h : x < 0x2800000) : (s.bump o n).reg x = s.reg x := by
  unfold State.bump
  have h0 := State.reg_rawBump s o n x
  generalize s.rawBump o n = y at h0
  obtain ⟨t, sat⟩ := y
  dsimp only at h0 ⊢
  repeat' split
  all_goals simp only [State.reg_event _ _ _ _ _ _ _ _ h, State.reg_markSat _ _ h, h0]

/-- A counter below its limit only counts. -/
theorem State.bump_eq (s : State) (o n : Nat) (h : s.ctr o + n < 2 ^ 48 - 1) : s.bump o n = s.setCtr o (s.ctr o + n) := by
  unfold State.bump State.rawBump
  have e : min (2 ^ 48 - 1) (s.ctr o + n) = s.ctr o + n := by omega
  have d : decide (s.ctr o + n = 2 ^ 48 - 1) = false := by simp; omega
  dsimp only
  rw [e, d]
  simp

end Sys2Proof.Machine
end

