-- ==== Sys2Proof/Laws/Memory.lean ====
section
/-! SUPPORT. Laws of node memory: what each operation reads back as at every address, and that each keeps the canonical form. -/

namespace Sys2Proof.Machine

/-! ### Undefined ranges -/

/-- The epoch of the first range of a list that holds an address. -/
def rangeAt (l : List (Nat × Nat × Nat)) (a : Nat) : Option Nat := (l.find? (fun r => decide (r.1 ≤ a ∧ a < r.1 + r.2.1))).map (fun r => r.2.2)

theorem undefAt_eq (m : MemSys) (a : Nat) : m.undefAt a = rangeAt m.undef a := rfl

theorem rangeAt_append (l k : List (Nat × Nat × Nat)) (a : Nat) : rangeAt (l ++ k) a = (rangeAt l a).or (rangeAt k a) := by
  simp only [rangeAt, List.find?_append]
  cases List.find? (fun r : Nat × Nat × Nat => decide (r.1 ≤ a ∧ a < r.1 + r.2.1)) l <;> rfl

theorem rangeAt_cons (r : Nat × Nat × Nat) (l : List (Nat × Nat × Nat)) (a : Nat) :
    rangeAt (r :: l) a = if r.1 ≤ a ∧ a < r.1 + r.2.1 then some r.2.2 else rangeAt l a := by
  rw [rangeAt, List.find?_cons]
  by_cases h : r.1 ≤ a ∧ a < r.1 + r.2.1
  · rw [if_pos h, decide_eq_true h]; rfl
  · rw [if_neg h, decide_eq_false h]; rfl

theorem rangeAt_nil (a : Nat) : rangeAt [] a = none := rfl

/-- Cutting a range out leaves every other address as it was and none inside. -/
theorem undefAt_cut (m : MemSys) (a len x : Nat) : (m.cut a len).undefAt x = if a ≤ x ∧ x < a + len then none else m.undefAt x := by
  simp only [undefAt_eq, MemSys.cut]
  induction m.undef with
  | nil => simp [rangeAt]
  | cons r l ih =>
    rw [List.flatMap_cons, rangeAt_append, ih, rangeAt_cons]
    by_cases c : a ≤ x ∧ x < a + len
    · rw [if_pos c, if_pos c, Option.or_none]
      split
      · rw [rangeAt_cons, rangeAt_nil, if_neg (by omega)]
      · rw [rangeAt_append]
        split <;> split <;> simp only [rangeAt_cons, rangeAt_nil, Option.or_none] <;> (try rw [if_neg (by omega)]) <;>
          (try rw [if_neg (by omega)]) <;> rfl
    · rw [if_neg c, if_neg c]
      by_cases d : r.1 ≤ x ∧ x < r.1 + r.2.1
      · rw [if_pos d]
        split
        · rw [rangeAt_cons, if_pos d]; rfl
        · rw [rangeAt_append]
          by_cases lo : r.1 < a
          · by_cases hi : a + len < r.1 + r.2.1
            · rw [if_pos lo, if_pos hi, rangeAt_cons, rangeAt_cons]
              by_cases z : x < a
              · rw [if_pos (by simp only; omega)]; rfl
              · rw [if_neg (by simp only; omega), if_pos (by simp only; omega)]; rfl
            · rw [if_pos lo, rangeAt_cons, if_pos (by simp only; omega)]; rfl
          · rw [if_neg lo, if_pos (by omega), rangeAt_cons, if_pos (by simp only; omega)]; rfl
      · rw [if_neg d]
        split
        · rw [rangeAt_cons, if_neg d]; rfl
        · rw [rangeAt_append]
          split <;> split <;> simp only [rangeAt_cons, rangeAt_nil, Option.or_none] <;> (try rw [if_neg (by omega)]) <;>
            (try rw [if_neg (by omega)]) <;> rfl

theorem undefAt_insRange (l : List (Nat × Nat × Nat)) (r : Nat × Nat × Nat) (x : Nat) (h : (rangeAt l x).isSome ∨ (r.1 ≤ x ∧ x < r.1 + r.2.1)) :
    (rangeAt (insRange r l) x).isSome = true := by
  induction l with
  | nil =>
    rw [insRange, rangeAt_cons]
    rcases h with h | h
    · cases h
    · rw [if_pos h]; rfl
  | cons q l ih =>
    unfold insRange
    rw [rangeAt_cons] at h
    split
    · rw [rangeAt_cons, rangeAt_cons]
      split
      · rfl
      · rcases h with h | h
        · exact h
        · contradiction
    · rw [rangeAt_cons]
      split
      · rfl
      · rename_i n
        rw [if_neg n] at h
        exact ih h

/-- A range put where no other lies is the one that its addresses have. -/
theorem rangeAt_insRange_in (l : List (Nat × Nat × Nat)) (r : Nat × Nat × Nat) (x : Nat) (h : rangeAt l x = none)
    (hx : r.1 ≤ x ∧ x < r.1 + r.2.1) : rangeAt (insRange r l) x = some r.2.2 := by
  induction l with
  | nil => rw [insRange, rangeAt_cons, if_pos hx]
  | cons q l ih =>
    have n : ¬(q.1 ≤ x ∧ x < q.1 + q.2.1) := fun e => by rw [rangeAt_cons, if_pos e] at h; cases h
    rw [rangeAt_cons, if_neg n] at h
    unfold insRange
    split
    · rw [rangeAt_cons, if_pos hx]
    · rw [rangeAt_cons, if_neg n, ih h]

/-- The addresses outside a range that is put keep theirs. -/
theorem rangeAt_insRange_out (l : List (Nat × Nat × Nat)) (r : Nat × Nat × Nat) (x : Nat) (hx : ¬(r.1 ≤ x ∧ x < r.1 + r.2.1)) :
    rangeAt (insRange r l) x = rangeAt l x := by
  induction l with
  | nil => rw [insRange, rangeAt_cons, if_neg hx]
  | cons q l ih =>
    unfold insRange
    split
    · rw [rangeAt_cons, if_neg hx]
    · rw [rangeAt_cons, rangeAt_cons, ih]

/-! ### The canonical form -/

theorem MemSys.wf_iff (m : MemSys) :
    m.wf = true ↔ kvSorted m.bytes = true ∧ ∀ c ∈ m.bytes, c.2 ≠ 0 ∨ (m.undefAt c.1).isSome = true := by
  simp [MemSys.wf, List.all_eq_true, bne_iff_ne]

theorem wf_write (m : MemSys) (a : Nat) (b : Byte) (h : m.wf = true) : (m.write a b).wf = true := by
  rw [MemSys.wf_iff] at h ⊢
  show kvSorted (m.write a b).bytes = true ∧ ∀ c ∈ (m.write a b).bytes, c.2 ≠ 0 ∨ (m.undefAt c.1).isSome = true
  unfold MemSys.write
  dsimp only
  split
  · exact ⟨kvSorted_del _ h.1, fun c hc => h.2 c ((kvDel_sublist _ _).subset hc)⟩
  · rename_i n
    refine ⟨kvSorted_put _ _ h.1, fun c hc => ?_⟩
    rcases kvPut_mem hc with rfl | hc
    · by_cases z : b = 0
      · refine .inr ?_
        cases e : m.undefAt a with
        | none => exact absurd ⟨z, e⟩ n
        | some _ => rfl
      · exact .inl z
    · exact h.2 c hc

theorem wf_writeList (bs : List Byte) : ∀ (m : MemSys) (a : Nat), m.wf = true → (m.writeList a bs).wf = true := by
  induction bs with
  | nil => exact fun _ _ h => h
  | cons b bs ih => exact fun m a h => ih _ _ (wf_write m a b h)

theorem wf_clear (m : MemSys) (a len : Nat) (h : m.wf = true) : (m.clear a len).wf = true := by
  rw [MemSys.wf_iff] at h ⊢
  refine ⟨kvSorted_filter _ h.1, fun c hc => ?_⟩
  obtain ⟨hc, hr⟩ := List.mem_filter.mp hc
  have u : (m.clear a len).undefAt c.1 = (m.cut a len).undefAt c.1 := rfl
  rw [u, undefAt_cut, if_neg (of_decide_eq_false (by simpa only [Bool.not_eq_true'] using hr))]
  exact h.2 c hc

theorem wf_forget (m : MemSys) (a len epoch : Nat) (h : m.wf = true) : (m.forget a len epoch).wf = true := by
  unfold MemSys.forget
  split
  · exact h
  · have g := (MemSys.wf_iff _).mp (wf_clear m a len h)
    rw [MemSys.wf_iff]
    exact ⟨g.1, fun c hc => (g.2 c hc).imp_right (fun u => undefAt_insRange _ _ _ (.inl u))⟩

theorem wf_define (m : MemSys) (a : Nat) (bs : List Byte) (h : m.wf = true) : (m.define a bs).wf = true :=
  wf_writeList _ _ _ (wf_clear m a _ h)

theorem wf_mend (m : MemSys) (a len : Nat) (h : m.wf = true) : (m.mend a len).wf = true := by
  unfold MemSys.mend
  split <;> exact h

theorem wf_dirty (m : MemSys) (a len : Nat) (h : m.wf = true) : (m.dirty a len).wf = true := h

theorem wf_undamage (m : MemSys) (a b : Nat) (h : m.wf = true) : (m.undamage a b).wf = true := h

theorem wf_damage (m : MemSys) (a len : Nat) (h : m.wf = true) : (m.damage a len).wf = true := h

theorem wf_copyRange (m : MemSys) (src dst len epoch : Nat) (h : m.wf = true) : (m.copyRange src dst len epoch).wf = true := by
  have ins : ∀ (us : List (Nat × Nat × Nat)) (m : MemSys), m.wf = true →
      ({ m with undef := us.foldl (fun u r => insRange r u) m.undef } : MemSys).wf = true := by
    intro us
    induction us with
    | nil => exact fun _ h => h
    | cons u us ih =>
      intro m h
      have g := (MemSys.wf_iff _).mp h
      refine ih { m with undef := insRange u m.undef } ((MemSys.wf_iff _).mpr ⟨g.1, fun c hc => (g.2 c hc).imp_right (fun x => ?_)⟩)
      exact undefAt_insRange _ _ _ (.inl x)
  have wr : ∀ (bs : List Host.Cell) (m : MemSys), m.wf = true →
      (bs.foldl (fun (x : MemSys) b => x.write (b.1 - src + dst) b.2) m).wf = true := by
    intro bs
    induction bs with
    | nil => exact fun _ h => h
    | cons b bs ih => exact fun m h => ih _ (wf_write m _ _ h)
  exact wr _ _ (ins _ _ (wf_clear m dst len h))

theorem wf_kept (m : MemSys) (h : m.wf = true) : m.kept.wf = true := wf_clear m 0 (2 ^ 52) h

theorem wf_reset : State.reset.mem.wf = true := rfl

/-! ### What reads answer -/

theorem read_eq (m : MemSys) (x : Nat) :
    m.read x = (kvGet? x m.bytes).getD (((m.undefAt x).map (fun e => Config.undefByte e x)).getD 0) := by
  unfold MemSys.read
  cases kvGet? x m.bytes with
  | some _ => rfl
  | none => cases m.undefAt x <;> rfl

theorem read_write (m : MemSys) (a x : Nat) (b : Byte) : (m.write a b).read x = if x = a then b else m.read x := by
  have u : (m.write a b).undefAt x = m.undefAt x := rfl
  rw [read_eq, read_eq, u]
  unfold MemSys.write
  dsimp only
  by_cases e : x = a
  · subst e
    rw [if_pos rfl]
    split
    · rename_i h
      rw [kvGet?_del_self, h.2, h.1]
      rfl
    · rw [kvGet?_put_self]
      rfl
  · rw [if_neg e]
    split
    · rw [kvGet?_del_ne e]
    · rw [kvGet?_put_ne e]

theorem read_writeList (bs : List Byte) : ∀ (m : MemSys) (a x : Nat),
    (m.writeList a bs).read x = if a ≤ x ∧ x < a + bs.length then bs.getD (x - a) 0 else m.read x := by
  induction bs with
  | nil =>
    intro m a x
    rw [if_neg (by simp only [List.length_nil]; omega)]
    rfl
  | cons b bs ih =>
    intro m a x
    rw [MemSys.writeList, ih, read_write]
    simp only [List.length_cons]
    by_cases e : x = a
    · subst e
      rw [if_neg (by omega), if_pos rfl, if_pos (by omega), Nat.sub_self]
      rfl
    · by_cases g : a + 1 ≤ x ∧ x < a + 1 + bs.length
      · rw [if_pos g, if_pos (by omega), show x - a = (x - (a + 1)) + 1 by omega]
        rfl
      · rw [if_neg g, if_neg e, if_neg (by omega)]

theorem kvGet?_clear (m : MemSys) (a len x : Nat) :
    kvGet? x (m.clear a len).bytes = if a ≤ x ∧ x < a + len then none else kvGet? x m.bytes := by
  show kvGet? x (m.bytes.filter (fun c => (fun k => !(decide (a ≤ k ∧ k < a + len))) c.1)) = _
  rw [kvGet?_filter_key (fun k => !(decide (a ≤ k ∧ k < a + len)))]
  by_cases e : a ≤ x ∧ x < a + len
  · rw [if_pos e, decide_eq_true e]; rfl
  · rw [if_neg e, decide_eq_false e]; rfl

theorem undefAt_clear (m : MemSys) (a len x : Nat) : (m.clear a len).undefAt x = if a ≤ x ∧ x < a + len then none else m.undefAt x :=
  undefAt_cut m a len x

theorem read_clear (m : MemSys) (a len x : Nat) : (m.clear a len).read x = if a ≤ x ∧ x < a + len then 0 else m.read x := by
  rw [read_eq, kvGet?_clear, undefAt_clear, read_eq]
  split <;> rfl

/-- A range given its contents holds them; every other byte stays. -/
theorem read_define (m : MemSys) (a x : Nat) (bs : List Byte) :
    (m.define a bs).read x = if a ≤ x ∧ x < a + bs.length then bs.getD (x - a) 0 else m.read x := by
  rw [MemSys.define, read_writeList, read_clear]
  split <;> rfl

theorem read_mend (m : MemSys) (a len x : Nat) : (m.mend a len).read x = m.read x := by
  unfold MemSys.mend
  split <;> rfl

theorem read_dirty (m : MemSys) (a len x : Nat) : (m.dirty a len).read x = m.read x := rfl

/-- A store of node memory: the bytes stored, and no other byte changed. -/
theorem read_writeMem (s : State) (a x : Nat) (bs : List Byte) :
    (s.writeMem a bs).mem.read x = if a ≤ x ∧ x < a + bs.length then bs.getD (x - a) 0 else s.mem.read x := by
  show (((s.mem.define a bs).mend a bs.length).dirty a bs.length).read x = _
  rw [read_dirty, read_mend, read_define]

/-- Memory made undefined holds free bytes of its epoch; every other byte stays. -/
theorem read_forget (m : MemSys) (a len epoch x : Nat) :
    (m.forget a len epoch).read x = if a ≤ x ∧ x < a + len then Config.undefByte epoch x else m.read x := by
  unfold MemSys.forget
  split
  · rw [if_neg (by omega)]
  · rw [read_eq, read_eq]
    show (kvGet? x (m.clear a len).bytes).getD (((rangeAt (insRange (a, len, epoch) (m.clear a len).undef) x).map _).getD 0) = _
    rw [kvGet?_clear]
    by_cases c : a ≤ x ∧ x < a + len
    · rw [if_pos c, if_pos c, rangeAt_insRange_in _ _ _ (by rw [← undefAt_eq, undefAt_clear, if_pos c]) c]
      rfl
    · rw [if_neg c, if_neg c, rangeAt_insRange_out _ _ _ c, ← undefAt_eq, undefAt_clear, if_neg c]

end Sys2Proof.Machine
end

