-- ==== Sys2Proof/WellFormed.lean ====
section
/-! DEFINITION. Well-formed commands: which operands name something that the node has. Each check is one definition; a command is well formed when
all checks of its operands hold. `exec` is defined on every command: a number that names nothing changes nothing. -/

namespace Sys2Proof

/-- A partition (R58). -/
def isPart (n : Nat) : Bool := decide (n < 64)
/-- A submission queue (R112). -/
def isQueue (n : Nat) : Bool := decide (n < 64)
/-- A command identifier (Table 4.1). -/
def isCid (n : Nat) : Bool := decide (n < 65536)
/-- A physical function (R84). -/
def isPf (n : Nat) : Bool := decide (n < 2)
/-- A host port (R84). -/
def isHostPort (n : Nat) : Bool := decide (n < 2)
/-- A fabric port (Table 0.6). -/
def isFabPort (n : Nat) : Bool := decide (n < 32)
/-- A port with a gate list: a fabric port (R391). -/
def isGatePort (n : Nat) : Bool := decide (n < 32)
/-- A fabric lane (Table 0.6). -/
def isLane (n : Nat) : Bool := decide (n < 256)
/-- A Tier A channel (Table 0.6). -/
def isChannel (n : Nat) : Bool := decide (n < 256)
/-- A Tier B channel (Table 0.6). -/
def isTierB (n : Nat) : Bool := decide (n < 16)
/-- A matrix array (Table 0.6). -/
def isArray (n : Nat) : Bool := decide (n < 4)
/-- A bank engine of a channel (Table 0.6). -/
def isBank (n : Nat) : Bool := decide (n < 16)
/-- A Tier A stack (Table 0.6). -/
def isStack (n : Nat) : Bool := decide (n < 8)
/-- A LUN, as channel * 32 + index (R328). -/
def isLun (n : Nat) : Bool := decide (n < 1024)
/-- A context pool (R97). -/
def isPool (n : Nat) : Bool := decide (n < 2)
/-- A context ID (R97). -/
def isContext (n : Nat) : Bool := decide (n < 32768)
/-- A 16-bit generation (R97, R98). -/
def isGen (n : Nat) : Bool := decide (n < 65536)
/-- A node ID (R368). -/
def isNode (n : Nat) : Bool := decide (n < 65536)
/-- A sequence number (R363, R371). -/
def isSeq (n : Nat) : Bool := decide (n < 4294967296)
/-- A virtual channel (Table 14.6). -/
def isVc (n : Nat) : Bool := decide (n < 7)
/-- A level of a packet (R358). -/
def isLevel (n : Nat) : Bool := decide (n < 8)
/-- A unit kind (Table 16.6). -/
def isKind (n : Nat) : Bool := decide (n < 14)
/-- A rail (Table 19.11). -/
def isRail (n : Nat) : Bool := decide (n < 8)
/-- A fabric reference clock (Table 19.7). -/
def isFabClock (n : Nat) : Bool := decide (n < 4)
/-- How a host port is reset: PERST, hot reset or link down (R440). -/
def isPortReset (n : Nat) : Bool := decide (n < 3)
/-- An offset of BAR0 (R482). -/
def isBar0 (n : Nat) : Bool := decide (n < 67108864)
/-- An offset of a partition window (R85). -/
def isWindow (n : Nat) : Bool := decide (n < 1048576)
/-- A descriptor of a bank command or an array instruction (R173, R223). -/
def isDesc (bs : List Byte) : Bool := bs.length == 64
/-- A flit (Table 14.3). -/
def isFlit (bs : List Byte) : Bool := bs.length == 256
/-- A host command (R120). -/
def isCommand (bs : List Byte) : Bool := bs.length == 128
/-- A nonce of SPDM (R457). -/
def isNonce (bs : List Byte) : Bool := bs.length == 32

/-- Whether every operand of a command names something that the node has. -/
def Instr.wellFormed : Instr → Bool
  | .nop p q cid => isPart p && isQueue q && isCid cid
  | .fence p q cid => isPart p && isQueue q && isCid cid
  | .fenceComplete p q cid => isPart p && isQueue q && isCid cid
  | .cancel p q cid => isPart p && isQueue q && isCid cid
  | .attestReport p q cid => isPart p && isQueue q && isCid cid
  | .attestCertChain p q cid => isPart p && isQueue q && isCid cid
  | .bridleLoad p q cid _ => isPart p && isQueue q && isCid cid
  | .logRead p q cid => isPart p && isQueue q && isCid cid
  | .collectiveBarrier p q cid => isPart p && isQueue q && isCid cid
  | .collectiveBroadcastSend p q cid _ => isPart p && isQueue q && isCid cid
  | .collectiveBroadcastReceive p q cid => isPart p && isQueue q && isCid cid
  | .collectiveReset p q cid => isPart p && isQueue q && isCid cid
  | .collectiveSnapshot p q cid => isPart p && isQueue q && isCid cid
  | .query p q cid _ => isPart p && isQueue q && isCid cid
  | .bkeFence p q cid => isPart p && isQueue q && isCid cid
  | .bkeFenceComplete p q cid => isPart p && isQueue q && isCid cid
  | .thresholdPublish p q cid _ => isPart p && isQueue q && isCid cid
  | .insert p q cid _ _ _ => isPart p && isQueue q && isCid cid
  | .delete p q cid _ => isPart p && isQueue q && isCid cid
  | .updatePrepare p q cid => isPart p && isQueue q && isCid cid
  | .segmentBuild p q cid => isPart p && isQueue q && isCid cid
  | .buildStart p q cid => isPart p && isQueue q && isCid cid
  | .segmentBuildDone p q cid _ => isPart p && isQueue q && isCid cid
  | .segmentImport p q cid => isPart p && isQueue q && isCid cid
  | .segmentImportDone p q cid => isPart p && isQueue q && isCid cid
  | .segmentPublish p q cid => isPart p && isQueue q && isCid cid
  | .segmentRetire p q cid => isPart p && isQueue q && isCid cid
  | .tableCreate p q cid => isPart p && isQueue q && isCid cid
  | .tableLookup p q cid _ _ => isPart p && isQueue q && isCid cid
  | .tableUpdate p q cid _ _ => isPart p && isQueue q && isCid cid
  | .tableStepClose p q cid => isPart p && isQueue q && isCid cid
  | .tableSwitch p q cid => isPart p && isQueue q && isCid cid
  | .tableDestroy p q cid => isPart p && isQueue q && isCid cid
  | .tensorAlloc p q cid => isPart p && isQueue q && isCid cid
  | .tensorFree p q cid => isPart p && isQueue q && isCid cid
  | .tensorWrite p q cid _ => isPart p && isQueue q && isCid cid
  | .tensorRead p q cid => isPart p && isQueue q && isCid cid
  | .tensorMigrate p q cid => isPart p && isQueue q && isCid cid
  | .migrateSwitch p q cid => isPart p && isQueue q && isCid cid
  | .claimGrant p q cid => isPart p && isQueue q && isCid cid
  | .compositionSet p q cid _ => isPart p && isQueue q && isCid cid
  | .compositionRemove p q cid => isPart p && isQueue q && isCid cid
  | .modelBind p q cid => isPart p && isQueue q && isCid cid
  | .modelUnbind p q cid => isPart p && isQueue q && isCid cid
  | .arrayRun p q cid _ => isPart p && isQueue q && isCid cid
  | .nsRead p q cid => isPart p && isQueue q && isCid cid
  | .nsWrite p q cid _ => isPart p && isQueue q && isCid cid
  | .nsTrim p q cid => isPart p && isQueue q && isCid cid
  | .nsFormatCreate p q cid => isPart p && isQueue q && isCid cid
  | .nsFormatDelete p q cid => isPart p && isQueue q && isCid cid
  | .nsFormatErase p q cid => isPart p && isQueue q && isCid cid
  | .nsFormatDone p q cid => isPart p && isQueue q && isCid cid
  | .longOpStart p q cid => isPart p && isQueue q && isCid cid
  | .longOpStatusTick p q cid => isPart p && isQueue q && isCid cid
  | .sqTailDoorbell p q _ => isPart p && isQueue q
  | .cqHeadDoorbell p q _ => isPart p && isQueue q
  | .queueEnable p q => isPart p && isQueue q
  | .queueDisable p q => isPart p && isQueue q
  | .commandFetch p q bytes => isPart p && isQueue q && isCommand bytes
  | .hostIngressAdmit port => isHostPort port
  | .orderedRelease p q => isPart p && isQueue q
  | .admissionResume p => isPart p
  | .fabricReqBufferTimeout p => isPart p
  | .msixCoalesceTimeout p q => isPart p && isQueue q
  | .prtResetRequest p _ => isPart p
  | .prtQuiesceSet p => isPart p
  | .prtQuiesceClear p => isPart p
  | .prtQuiescedEntry p => isPart p
  | .vfFunctionLevelReset port _ => isHostPort port
  | .pfFunctionLevelReset port _ => isHostPort port
  | .vfEnable port _ => isHostPort port
  | .drainOrderArrival src part gen seq => isNode src && isPart part && isGen gen && isSeq seq
  | .drainAckArrival src part gen seq => isNode src && isPart part && isGen gen && isSeq seq
  | .drainTimeout p => isPart p
  | .scrubDone p => isPart p
  | .handoffOfferArrival ctx gen => isContext ctx && isGen gen
  | .handoffAcceptArrival ctx newCtx gen => isContext ctx && isContext newCtx && isGen gen
  | .handoffRefuseArrival ctx gen => isContext ctx && isGen gen
  | .handoffCommitArrival ctx gen => isContext ctx && isGen gen
  | .handoffRetryTimer ctx => isContext ctx
  | .contextContest ctx => isContext ctx
  | .poolLoss g _ => isPool g
  | .periodBoundary p => isPart p
  | .arrayTaken a p => isArray a && isPart p
  | .arrayRoundStart a => isArray a
  | .arraySwitchDone a => isArray a
  | .privilegedYield a => isArray a
  | .yieldLimitExpiry a => isArray a
  | .scanHam p c _ desc => isPart p && isChannel c && isDesc desc
  | .gatherHam p c _ desc => isPart p && isChannel c && isDesc desc
  | .scanBits p c _ desc => isPart p && isChannel c && isDesc desc
  | .copy p c _ desc => isPart p && isChannel c && isDesc desc
  | .fill p c _ desc => isPart p && isChannel c && isDesc desc
  | .bkeFenceToken p t => isPart p && isChannel t.chan && (t.desc.isEmpty || isDesc t.desc)
  | .bankCmdDone c => isChannel c
  | .channelLingerExpiry c => isChannel c
  | .ordinaryAccessHeld c _ _ _ => isChannel c
  | .forcedYield c => isChannel c
  | .refreshDue c bank _ => isChannel c && isBank bank
  | .targetedRefresh c bank _ => isChannel c && isBank bank
  | .engineThrottleWindow stack _ _ => isStack stack
  | .deltaScanDone p => isPart p
  | .traverseAdjacencyArrival _ _ _ => true
  | .traverseDistancesArrival _ _ _ => true
  | .exactRerank _ => true
  | .shardSubrequestArrival _ => true
  | .shardResponseArrival _ => true
  | .shardFailure seq _ => isSeq seq
  | .arrayInstrMac a p _ desc => isArray a && isPart p && isDesc desc
  | .arrayInstrMultiWord a p _ desc => isArray a && isPart p && isDesc desc
  | .arrayInstrDistance a p _ desc => isArray a && isPart p && isDesc desc
  | .arrayInstrDone a => isArray a
  | .layerFetchDone a p => isArray a && isPart p
  | .selectListOpen _ _ _ _ _ _ _ => true
  | .selectInsert _ _ _ _ _ _ => true
  | .selectListClose _ _ => true
  | .selectMerge _ _ _ => true
  | .tombstoneFold p => isPart p
  | .segmentFree p _ => isPart p
  | .remoteLookupRequest _ => true
  | .remoteLookupResponse _ => true
  | .contributionArrival _ => true
  | .stepEndArrival _ => true
  | .embStepClose _ _ => true
  | .embStepTimeout _ _ => true
  | .embLoadReport _ => true
  | .loadOrderArrival _ => true
  | .driftOfferArrival _ => true
  | .driftAcceptArrival _ => true
  | .driftCopyArrival _ => true
  | .driftSwitch _ _ => true
  | .driftSwitchArrival _ => true
  | .driftAbandonTimeout _ _ => true
  | .recallArrival _ => true
  | .recallAckArrival _ => true
  | .replicaUpdateArrival _ => true
  | .windowOpenArrival src seq _ _ => isNode src && isSeq seq
  | .windowAcceptArrival src seq _ => isNode src && isSeq seq
  | .windowRefuseArrival src seq _ => isNode src && isSeq seq
  | .windowCloseArrival src seq _ => isNode src && isSeq seq
  | .windowLostTimeout _ _ => true
  | .tierPAccessArrival src seq _ _ _ _ _ => isNode src && isSeq seq
  | .tierPResponseArrival src seq _ _ => isNode src && isSeq seq
  | .meterIntegrate => true
  | .memCselLatch pf _ _ => isPf pf
  | .flashProgramFail lun _ _ => isLun lun
  | .lunFence lun => isLun lun
  | .lunRebuildDone lun => isLun lun
  | .gcStart => true
  | .wearLevelStart => true
  | .mediaScrubRead lun _ _ _ => isLun lun
  | .ftlSpareWrite _ => true
  | .flitReceive lane flit => isLane lane && isFlit flit
  | .replayTimeout lane => isLane lane
  | .linkEgressSlot lane => isLane lane
  | .transitForward lane _ => isLane lane
  | .egressPacketHandoff => true
  | .gateEntryAdvance port => isGatePort port
  | .laneFault lane => isLane lane
  | .laneRejoin lane => isLane lane
  | .helloTimer lane => isLane lane
  | .helloArrival lane _ port _ _ _ _ => isLane lane && isFabPort port
  | .helloTimeout lane => isLane lane
  | .electArrival lane _ _ => isLane lane
  | .anchorElectTick => true
  | .electStale => true
  | .assignArrival src seq _ _ => isNode src && isSeq seq
  | .topologyReportArrival _ _ _ => true
  | .topoArrival src seq _ _ => isNode src && isSeq seq
  | .quenchArrival src seq _ _ _ _ => isNode src && isSeq seq
  | .releaseArrival src seq => isNode src && isSeq seq
  | .quenchExpiry _ _ vc => isVc vc
  | .fabricPacketArrival _ => true
  | .releaseSend p => isPart p
  | .fabricRefuseArrival _ => true
  | .e2eTimeout seq => isSeq seq
  | .reassemblyTimeout lane vc level => isLane lane && isVc vc && isLevel level
  | .markerArrival lane vc _ => isLane lane && isVc vc
  | .collectiveMessageArrival src _ _ _ _ _ _ _ => isNode src
  | .collectiveTimeout _ => true
  | .routeWeightTick => true
  | .fabRtEntryWrite _ pf => isPf pf
  | .fabLaneEqWrite lane _ pf => isLane lane && isPf pf
  | .remoteAttestRequest _ => true
  | .remoteAttestResponse _ => true
  | .stallDetectorTimeout kind _ => isKind kind
  | .parityError kind _ => isKind kind
  | .eccError kind _ _ _ _ => isKind kind
  | .tierAChannelFence c => isChannel c
  | .tierBChannelLost c => isTierB c
  | .dieLinkLost _ => true
  | .unitDeclare kind _ => isKind kind
  | .unitRestore kind _ => isKind kind
  | .unitRestoreDone kind _ _ => isKind kind
  | .unitInject kind _ => isKind kind
  | .fltEvtPop pf => isPf pf
  | .ctrClearOne _ _ => true
  | .ctrClearAll _ => true
  | .snpTrigger => true
  | .snpArm => true
  | .snpViewWrite pf _ => isPf pf
  | .mxaClipClear n => isArray n
  | .voltageTrimTick _ _ _ _ _ => true
  | .equalisationTrimTick lane _ _ => isLane lane
  | .refreshTrimTick stack _ _ => isStack stack
  | .sketchThresholdEval p => isPart p
  | .placementTrimTick => true
  | .memMarginTraining _ c _ _ => isChannel c
  | .trmUnitLimitsWrite pf _ => isPf pf
  | .trmCalOffsetWrite pf _ => isPf pf
  | .logMirror => true
  | .logHourly _ _ => true
  | .powerOn _ => true
  | .msdWatchdogExpiry _ => true
  | .nodeResetWrite pf _ _ => isPf pf
  | .nodeRstNAssert _ _ => true
  | .hostPortReset port kind => isHostPort port && isPortReset kind
  | .powerDown => true
  | .railFault rail => isRail rail
  | .thermalShutdown _ => true
  | .xtalLoss => true
  | .xtalLock => true
  | .refclkPcieLoss => true
  | .refclkFabLoss n => isFabClock n
  | .refclkMemLoss => true
  | .avsPoll _ => true
  | .nodePowerLimitWrite _ pf => isPf pf
  | .requireSigSet pf _ => isPf pf
  | .secExtend pf _ => isPf pf
  | .secEnroll pf _ => isPf pf
  | .secRevoke pf _ => isPf pf
  | .spdmGetVersion => true
  | .spdmGetCapabilities => true
  | .spdmNegotiateAlgorithms => true
  | .spdmGetDigests => true
  | .spdmGetCertificate _ _ _ => true
  | .spdmChallenge _ nonce => isNonce nonce
  | .spdmGetMeasurements _ nonce => isNonce nonce
  | .spdmVendorDefinedRequest _ => true
  | .spdmUnsupportedRequest _ => true
  | .mctpControlMessage _ => true
  | .bar0BadAccess pf offset _ => isPf pf && isBar0 offset
  | .windowBadAccess p offset _ => isPart p && isWindow offset
  | .registerWrite pf offset _ target => (if target = .node then isPf pf && isBar0 offset else isPart pf && isWindow offset)
  | .linkTrainingDone lane => isLane lane
  | .perstDeassert port => isHostPort port
  | .contributionResultArrival _ => true
  | .mctpUnsupportedMessage _ => true
  | .jtagExtest => true

end Sys2Proof
end

