-- ==== Sys2Proof/Tests/Slice0.lean ====
section
/-! SUPPORT. Tests of the model by its author: an ill-formed command for each check of well-formedness, and for each statement concrete
states and operands that meet the hypotheses of its clauses, most with what the command then leaves. Expected results come from the rules
of the spec named in the statements. -/

namespace Sys2Proof.Tests

open Sys2Proof.Machine

set_option Elab.async false

/-! ### Small states -/

/-- A host command with this opcode and PARAMS; its CID is 5. -/
def cmd0 (op : Nat) (ps : List Byte) : HostCmd :=
  { opcode := op, cflags := 0, cid := 5, stream := 0, resv6 := 0, deadline := 0, statusAddr := 0, resultAddr := 0, params := ps }

/-- Its admission record, ready to execute. -/
def rec0 (op : Nat) (ps : List Byte) : Rec :=
  { part := 0, q := 0, fab := none, cmd := cmd0 op ps, ctx := 0, gen := 0, stamp := 0, order := 0, phase := .ready, long := none, waits := [], claims := [],
    restarts := 0, eccAt := none }

/-- The record of a long operation that runs. -/
def recL (op : Nat) (ps : List Byte) : Rec := { rec0 op ps with long := some { running := true, progress := 0, count := 0, lastWrite := 0 } }

/-- An enabled queue pair of 16 entries with one command fetched. -/
def q0 : Queue := { cfg := 0x441, reserved := 1 }

/-- A node with one request, of queue 0 of partition 0. -/
def node (r : Rec) : State := { recs := [(0, r)], queues := [(0, q0)] }

/-- The same with the request ready. -/
def one (op : Nat) (ps : List Byte) : State := node (rec0 op ps)

/-- The same with the request under way. -/
def under (op : Nat) (ps : List Byte) : State := node { rec0 op ps with phase := .running }

/-- A node whose partition 0 has this configuration and is READY. -/
def served (c : PartCfg) : State := ({ parts := [(0, { cfg := some c })] } : State).setPstate 0 stReady

/-- The state that a command leaves. -/
def after (c : Instr) (s : State) : State := landed (exec c s) s

/-- The completion entries sent: CID, STATUS, COUNT, RESULT0 and RESULT1. -/
def cpls (s : State) : List (Nat × Nat × Nat × Nat × Nat) :=
  s.out.filterMap (fun o => match o with | .completion _ _ _ c => some (c.cid, c.status, c.count, c.r0, c.r1) | _ => none)

/-- The phase of request 0. -/
def phase0 (s : State) : Option RecPhase := (kvGet? 0 s.recs).map (fun r => r.phase)

/-! ### Well-formedness and decoding -/

theorem test_well_formed : Instr.wellFormed (.nop 63 63 65535) = true ∧ Instr.wellFormed (.registerWrite 1 0x3FFFFF8 0 .node) = true := by decide

/-- One ill-formed command for each check, an operand at the first value that the check refuses. -/
theorem test_ill_formed_refused :
    ([Instr.nop 64 0 0, .nop 0 64 0, .nop 0 0 65536, .fltEvtPop 2, .hostIngressAdmit 2, .helloArrival 0 0 32 0 0 0 0, .gateEntryAdvance 32, .laneFault 256,
      .channelLingerExpiry 256, .tierBChannelLost 16, .arrayRoundStart 4, .refreshDue 0 16 0, .engineThrottleWindow 8 0 0, .lunFence 1024, .poolLoss 2 true,
      .contextContest 32768, .handoffCommitArrival 0 65536, .releaseArrival 65536 0, .e2eTimeout 4294967296, .markerArrival 0 7 0,
      .reassemblyTimeout 0 0 8, .parityError 14 0, .railFault 8, .refclkFabLoss 4, .hostPortReset 0 3, .bar0BadAccess 0 67108864 true,
      .windowBadAccess 0 1048576 true, .fill 0 0 0 [0], .flitReceive 0 [0], .commandFetch 0 0 [0], .spdmChallenge 0 [0]]).map Instr.wellFormed =
    List.replicate 31 false := by decide

theorem test_no_row_has_a_word : decodeTableWord 16 5 = none ∧ decodeTableWord 64 0 = none := by decide

/-! ### Host commands and queues -/

/-- A request that is ready may run, whatever its opcode and PARAMS. -/
theorem witness_may_run (op : Nat) (ps : List Byte) : MayRun (one op ps) 0 0 5 op 0 (rec0 op ps) := by
  refine ⟨?_, rfl, (by decide : ({} : State).pstate 0 ≠ stResetting)⟩
  simp [State.readyRec, State.recOf, one, node, rec0, cmd0, Rec.isIdle]

/-- A request that is under way is so, whatever its opcode and PARAMS. -/
theorem witness_under_way (op : Nat) (ps : List Byte) : UnderWay (under op ps) 0 0 5 op 0 { rec0 op ps with phase := .running } := by
  refine ⟨?_, rfl, (by decide : ({} : State).pstate 0 ≠ stResetting)⟩
  simp [State.runningRec, State.recOf, under, node, rec0, cmd0]

theorem test_step_runs_front : step { State.reset with pending := [.nop 0 0 0, .logMirror] } = exec (.nop 0 0 0) { State.reset with pending := [.logMirror] } := rfl

theorem witness_IdleStep : State.reset.pending = [] ∧ State.reset.board.power = true ∧ (landed (step State.reset) {}).time = 1 := by decide

theorem witness_MemoryForm : State.reset.mem.wf = true ∧ (after (.logMirror) State.reset).mem.wf = true := by decide

theorem witness_KeySlots : (∀ pf v, Instr.logMirror ≠ .secEnroll pf v) ∧ (∀ pf v, Instr.logMirror ≠ .secRevoke pf v) ∧
    exec .logMirror State.reset = .next (after .logMirror State.reset) := ⟨by simp, by simp, rfl⟩

theorem witness_HostBasics_nop_fence : cpls (after (.nop 0 0 5) (one 0 [])) = [(5, scDone, 0, 0, 0)] ∧ phase0 (after (.fence 0 0 5) (one 1 [])) = some .running ∧
    cpls (after (.fenceComplete 0 0 5) (under 1 [])) = [(5, scDone, 0, 0, 0)] := by decide

theorem witness_HostBasics_waits : let r := { rec0 1 [] with phase := .running, order := 1 }
    let s : State := { recs := [(0, r), (1, { rec0 0 [] with cmd := { cmd0 0 [] with cid := 6 } })] }
    (s.runningRec 0 0 5 1 = some (0, r)) ∧ s.fenceWaits 0 0 r.order (r.cmd.param 0 1 == 1) (bitOf (r.cmd.param 1 1) 0) = true ∧
    cpls (after (.fenceComplete 0 0 5) s) = [] := by decide

/-- A CANCEL of CID 5 and the long operation of CID 6 that it names. -/
def canceller : State :=
  { recs := [(0, { rec0 2 [] with waits := [1] }), (1, { recL 5 [] with cmd := { cmd0 5 [] with cid := 6 }, order := 1 })], queues := [(0, { q0 with reserved := 2 })] }

theorem witness_HostBasics_cancel : canceller.readyRec 0 0 5 2 = some (0, { rec0 2 [] with waits := [1] }) ∧ canceller.pstate 0 ≠ stResetting ∧
    kvGet? 1 canceller.recs = some { recL 5 [] with cmd := { cmd0 5 [] with cid := 6 }, order := 1 } ∧ canceller.cancellable 1 = true ∧
    cpls (after (.cancel 0 0 5) canceller) = [(6, scPartial, 0, 0, 0), (5, scDone, 0, 0, 0)] := by decide

/-- The same with the long operation still in the staging slot of queue 1. -/
def stagedCanceller : State :=
  { recs := [(0, { rec0 2 [] with waits := [1] })],
    queues := [(0, q0), (1, { q0 with staged := some { cmd := { cmd0 5 [] with cid := 6 }, order := 1, entered := 0, cls := 0, len := 128, start := none, noCtx := false } })] }

theorem witness_HostBasics_cancel_staged : stagedCanceller.readyRec 0 0 5 2 = some (0, { rec0 2 [] with waits := [1] }) ∧
    stagedCanceller.recs.find? (fun y => y.2.part == 0 && y.2.fab.isNone && y.2.order == 1) = none ∧
    (stagedCanceller.stagedBy 0 1).map (fun x => x.1) = some 1 ∧
    cpls (after (.cancel 0 0 5) stagedCanceller) = [(6, scPartial, 0, 0, 0), (5, scDone, 0, 0, 0)] := by decide

/-- A CANCEL whose target stands as `w` says. -/
def aimed (w : List Nat) : State := node { rec0 2 [] with waits := w }

theorem witness_HostBasics_cancel_ended : (aimed [1]).stagedBy 0 1 = none ∧
    (aimed [1]).recs.find? (fun y => y.2.part == 0 && y.2.fab.isNone && y.2.order == 1) = none ∧
    (aimed [1]).pstate 0 ≠ stResetting ∧ cpls (after (.cancel 0 0 5) (aimed [1])) = [(5, scDone, 0, 1, 0)] := by decide

theorem witness_HostBasics_cancel_else : ((aimed [1, 1]).readyRec 0 0 5 2).isSome = true ∧ ((aimed []).readyRec 0 0 5 2).isSome = true ∧
    cpls (after (.cancel 0 0 5) (aimed [1, 1])) = [(5, scDone, 0, 0, 0)] ∧
    cpls (after (.cancel 0 0 5) (aimed [])) = [(5, scBadHandle, 0, 0, 0)] ∧ cpls (after (.cancel 0 0 5) (aimed [1, 1, 1])) = [(5, scBadCommand, 0, 0, 0)] := by decide

theorem witness_HostBasics_long_start : let l : LongOp := { running := false, progress := 0, count := 0, lastWrite := 0 }
    let r := { rec0 5 [] with long := some l }
    (node r).recOf 0 0 5 = some (0, r) ∧ (node r).longTurn 0 r.order = true ∧
    (after (.longOpStart 0 0 5) (node r)).out = [.status 0 0 (statusWord 1 0 0 0)] := by decide

theorem witness_HostBasics_long_tick : (node (recL 5 [])).recOf 0 0 5 = some (0, recL 5 []) ∧
    (after (.longOpStatusTick 0 0 5) (node (recL 5 []))).out.length = 1 := by decide

/-- A node that is READY, with a queue that may be enabled. -/
def ready : State := (({ queues := [(0, { cfg := 0x440 })] } : State).setFld rNodeStatus fNodeStatus_READY 1)

/-- The same with the queue enabled and three completions written. -/
def readyOn : State := { ready with queues := [(0, { cfg := 0x441, used := 3, cqTail := 3 })] }

theorem witness_QueuePage_doorbells : 0 < readyOn.sqCount 0 ∧ readyOn.isReady = true ∧ readyOn.pstate 0 ≠ stResetting ∧ (readyOn.queue 0 0).sqSize = 16 ∧
    ((after (.sqTailDoorbell 0 0 15) readyOn).queue 0 0).tail = 15 ∧ ((after (.sqTailDoorbell 0 0 16) readyOn).queue 0 0).dbErr = true ∧
    (readyOn.queue 0 0).freed 3 ≤ (readyOn.queue 0 0).used ∧ ((after (.cqHeadDoorbell 0 0 3) readyOn).queue 0 0).used = 0 ∧
    (readyOn.queue 0 0).used < (readyOn.queue 0 0).freed 4 ∧ ((after (.cqHeadDoorbell 0 0 4) readyOn).queue 0 0).dbErr = true ∧
    (readyOn.queue 0 0).cqSize ≤ 16 ∧ ((after (.cqHeadDoorbell 0 0 16) readyOn).queue 0 0).dbErr = true := by decide

theorem witness_QueuePage_enable : (ready.queue 0 0).enabled = false ∧ ready.enableOk 0 (ready.queue 0 0) = true ∧
    ((after (.queueEnable 0 0) ready).queue 0 0).enabled = true ∧ State.reset.isReady = false ∧
    ((after (.queueEnable 0 0) State.reset).queue 0 0).cfgErr = true ∧ ((after (.queueDisable 0 0) readyOn).queue 0 0).enabled = false := by decide

theorem witness_QueuePageFrame : exec (.queueDisable 0 0) readyOn = .next (after (.queueDisable 0 0) readyOn) := rfl

/-- A trained host port and a tail one ahead: a command may be fetched. -/
def fetcher : State := { readyOn with queues := [(0, { cfg := 0x441, tail := 1 })], board := { hostUp := [true, false] } }

theorem witness_FetchAndAdmit_fetch : fetcher.mayFetch 0 0 = true ∧ fetcher.fetchCheck 0 0 (HostCmd.ofBytes [0]) = none ∧
    fetcher.ctxAvail 0 (fetcher.entryPool 0) ≠ 0 ∧ (after (.commandFetch 0 0 [0]) fetcher).fetchNo = 1 ∧ fetcher.fetchCheck 0 0 (HostCmd.ofBytes [0x10]) = some (scNotBridled, false) ∧
    cpls (after (.commandFetch 0 0 [0x10]) fetcher) = [(0, scNotBridled, 0, 0, 0)] := by decide

/-- The same while both pools are rebuilt. -/
def rebuilding : State := (fetcher.setFld (rPrtPoolStatus 0) fPrtPoolStatus_REBUILDING 1).setFld (rPrtPoolStatus 1) fPrtPoolStatus_REBUILDING 1

theorem witness_FetchAndAdmit_no_context : rebuilding.mayFetch 0 0 = true ∧ rebuilding.ctxAvail 0 (rebuilding.entryPool 0) = 0 ∧
    ((after (.commandFetch 0 0 [0]) rebuilding).queue 0 0).ctxWait = true ∧ (after (.commandFetch 0 0 [0]) rebuilding).fetchNo = 0 := by decide

theorem witness_FetchAndAdmit_check : fetcher.fetchCheck 0 0 (HostCmd.ofBytes [3]) = none ∧
    (fetcher.modQueue 0 0 (fun x => { x with sqHead := 1, reserved := 1 })).chapterCheck 0 (HostCmd.ofBytes [3]) = some scBadCommand ∧
    cpls (after (.commandFetch 0 0 [3]) fetcher) = [(0, scBadCommand, 0, 0, 0)] := by decide

/-- The node after it fetched a NOP. -/
def stager : State := after (.commandFetch 0 0 [0]) fetcher

theorem witness_FetchAndAdmit_admit : (((stager.markHeads 0).choose 0).map (fun x => (x.1, x.2.2.1))) = some (0, 0) ∧
    ((stager.takeCtx 0 (stager.entryPool 0) stager.nextRec 0 .owned).map (fun x => x.1)) = some 0 ∧ (after (.hostIngressAdmit 0) stager).nextRec = 1 ∧
    ((kvGet? 0 (after (.hostIngressAdmit 0) stager).recs).map (fun r => (r.part, r.q, r.ctx))) = some (0, 0, 0) := by decide

/-- A fabric request that waits for a context. -/
def waitReq : WaitReq := { origin := { node := 7, part := 2, endpoint := 0, seq := 9, resetGen := 0 }, cmd := cmd0 0 [], ep := 0, arrived := 0, extra := [] }

theorem witness_FetchAndAdmit_resume : let s : State := { parts := [(0, { waiting := [waitReq] })] }
    s.ctxAvail 0 (s.entryPool 0) ≠ 0 ∧ s.fetching 0 = true ∧ s.queues = [] ∧ (s.part 0).waiting = [waitReq] ∧
    (s.takeCtx 0 (s.entryPool 0) s.nextRec 0 .owned).isSome = true ∧ (after (.admissionResume 0) s).nextRec = 1 := by decide

theorem witness_FetchAndAdmit_timeout : let s : State := { parts := [(0, { waiting := [waitReq] })], time := 50000 }
    (∀ w ∈ (s.part 0).waiting, w.arrived + 50000 ≤ s.now) ∧ (after (.fabricReqBufferTimeout 0) s).fab.handoff.map (fun k => (k.vc, k.ptype, k.dstNode, k.seq, k.args)) =
    [(2, 2, 7, 9, [scRemoteError])] := by decide

theorem witness_HeldCommands_ordered : let r := { rec0 0 [] with phase := .heldOrdered }
    (node r).recs.find? (fun x => x.2.part == 0 && x.2.q == 0 && x.2.fab.isNone && decide (x.2.phase = .heldOrdered)) = some (0, r) ∧
    (∀ x ∈ (node r).recs, x.2.part = 0 → x.2.q = 0 → x.2.fab = none → r.order ≤ x.2.order) ∧ (node r).claimsFree 0 r = true ∧
    phase0 (after (.orderedRelease 0 0) (node r)) = some .ready ∧ (after (.orderedRelease 0 0) (node r)).waitOrdered 0 0 = false := by decide

theorem witness_HeldCommands_claims : let r := { rec0 0 [] with phase := .waitClaims }
    (node r).recOf 0 0 5 = some (0, r) ∧ (node r).claimsFree 0 r = true ∧ phase0 (after (.claimGrant 0 0 5) (node r)) = some .ready := by decide

theorem witness_HeldCommands_coalesce : let s : State := { queues := [(0, { cfg := 0x100000441 })], flt := { coal := [(0, [0])] }, time := 1000, winReg := [(0x80008, 0)] }
    s.coalOf 0 0 = [0] ∧ 0 + fCfgAggTime.get (s.queue 0 0).cfg * 1000 ≤ s.now ∧ s.funcEnabled 0 = true ∧
    s.vecMasked 0 (fCfgVector.get (s.queue 0 0).cfg) = false ∧ (after (.msixCoalesceTimeout 0 0) s).out = [.msix 0 0] := by decide

/-- A command that reads one index from a borrow window which its lender has not yet accepted. -/
def farRec : Rec := { rec0 0x21 (leBytes 8 1 ++ leBytes 8 (2 ^ 63 + 2 ^ 48)) with phase := .waitClaims }

theorem witness_HeldCommands_inputs :
    let w : PWindow := { lend := false, part := 0, tier := 2, peer := 7, wid := 1, len := 4096, base := 2 ^ 48, state := 1, unreach := none }
    let s : State := { node farRec with mem := { comps := [(1, { parts := 1, quotas := [], shares := [], windows := [w], created := 0, meters := [] })] } }
    s.recOf 0 0 5 = some (0, farRec) ∧ s.claimsFree 0 farRec = true ∧ (∀ x ∈ s.inputsOf 0 farRec.cmd, tierOf x.1 ≠ some 3) ∧
    (s.inputsOf 0 farRec.cmd).filter (fun x => tierOf x.1 == some 2) = [(2 ^ 48, 8)] ∧ (s.windowFor (2 ^ 48)).toOption = some none ∧
    phase0 (after (.claimGrant 0 0 5) s) = some .inputs ∧ (kvGet? 0 (after (.claimGrant 0 0 5) s).recs).map (fun r => r.need) = some [(2 ^ 48, 8)] := by decide

/-! ### Partitions, contexts and the serving loop -/

theorem witness_Quiesce : (served {}).pstate 0 = stReady ∧ (after (.prtQuiesceSet 0) (served {})).pstate 0 = stQuiescing ∧
    (after (.prtQuiesceClear 0) (after (.prtQuiesceSet 0) (served {}))).pstate 0 = stReady ∧
    (after (.prtQuiesceSet 0) (served {})).isQuiet 0 none = true ∧
    (after (.prtQuiescedEntry 0) (after (.prtQuiesceSet 0) (served {}))).pstate 0 = stQuiesced ∧ (served {}).funcEnabled 0 = true ∧
    (State.vecMasked { winReg := [(0x80008, 0)] } 0 0) = false ∧
    ({} : State).pstate 0 = stUnconfigured ∧ ({} : State).sqCount 0 ≠ 0 ∧ (after (.prtQuiesceSet 0) {}).pstate 0 = stQuiescing := by decide +kernel

/-- Partition 1, of virtual function 3 of port 0. -/
def virtual : State := { parts := [(1, { cfg := some { vf := 3 } })] }

theorem witness_PartitionReset_request : (served {}).sqCount 0 ≠ 0 ∧ ((served {}).part 0).rst = none ∧ (served {}).pstate 0 ≠ stLoading ∧
    (after (.prtResetRequest 0 4) (served {})).resetGen 0 = 1 ∧ (virtual.vfParts 0).find? (fun p => (virtual.pcfg p).vf == 3) = some 1 ∧
    (after (.vfFunctionLevelReset 0 3) virtual).resetGen 1 = 1 ∧ (after (.pfFunctionLevelReset 0 true) { virtual with vfEn := [true, false] }).vfEn = [false, false] ∧
    virtual.vfEn.getD 0 false = false ∧ (∀ p ∈ virtual.vfParts 0, virtual.pstate p ≠ stHeld) ∧ (after (.vfEnable 0 63) virtual).numVfs = [62, 0] := by decide +kernel

/-- A reset of partition 0 that waits for drain acknowledgements. -/
def draining (waiting : List Nat) (scrubbing load : Bool) : State :=
  { parts := [(0, { rst := some { scrub := false, waiting := waiting, silent := false, scrubbing := scrubbing, coll := none, load := load } })] }

theorem witness_PartitionReset_drain : (draining [3, 4] false false).sqCount 0 ≠ 0 ∧ (draining [3, 4] false false).orderFresh 3 0 = true ∧
    (draining [3, 4] false false).resetGen 0 = 0 ∧
    (((after (.prtResetRequest 0 4) (draining [3, 4] false false)).part 0).rst.map (fun r => r.scrub)) = some true ∧
    (((after (.drainAckArrival 3 0 0 0) (draining [3, 4] false false)).part 0).rst.map (fun r => r.waiting)) = some [4] ∧
    (after (.drainOrderArrival 3 0 0 0) (draining [] false false)).fab.handoff.length = 1 ∧
    (after (.drainTimeout 0) (draining [3, 4] false false)).ctr (cPrtDrainTimeouts 0) = 2 ∧
    ((after (.scrubDone 0) (draining [] true false)).part 0).rst = none ∧
    (((after (.scrubDone 0) (draining [] true true)).part 0).rst.map (fun r => (r.scrub, r.scrubbing))) = some (false, false) := by decide

/-- A context of request 0. -/
def ctx0 (st : CtxState) (gen : Nat) : Ctx := { st := st, part := 0, gen := gen, rid := 0, since := 0, retry := none }

theorem witness_Handoffs_offer : let s : State := { one 0 [] with ctxs := [(0, ctx0 .offered 65535)] }
    kvGet? 0 s.ctxs = some (ctx0 .offered 65535) ∧ 0 = ((ctx0 .offered 65535).gen + 1) % 65536 ∧ s.ctxs.any (fun y => y.2.rid == 0 && y.1 != 0) = false ∧
    ((s.takeCtx 0 (1 - ctxPool 0) 0 0 .pending).map (fun x => x.1)) = some 16384 ∧
    ((kvGet? 16384 (after (.handoffOfferArrival 0 0) s).ctxs).map (fun c => (c.st, c.gen))) = some (.pending, 0) ∧
    kvGet? 1 s.ctxs = none ∧ ((kvGet? 0 (after (.handoffRefuseArrival 0 0) s).ctxs).map (fun c => (c.st, c.retry))) = some (.owned, some 10000) := by decide

theorem witness_Handoffs_accept : let s : State := { one 0 [] with ctxs := [(0, ctx0 .offered 0), (16384, ctx0 .pending 1)] }
    kvGet? 0 s.ctxs = some (ctx0 .offered 0) ∧ kvGet? 16384 s.ctxs = some (ctx0 .pending 1) ∧ kvGet? 0 s.recs = some (rec0 0 []) ∧
    kvGet? 0 (after (.handoffAcceptArrival 0 16384 1) s).ctxs = none ∧
    ((kvGet? 0 (after (.handoffAcceptArrival 0 16384 1) s).recs).map (fun r => r.ctx)) = some 16384 := by decide

theorem witness_Handoffs_commit : let s : State := { one 0 [] with ctxs := [(0, ctx0 .pending 1)] }
    kvGet? 0 s.ctxs = some (ctx0 .pending 1) ∧ (rec0 0 []).ctx = 0 ∧
    ((kvGet? 0 (after (.handoffCommitArrival 0 1) s).ctxs).map (fun c => c.st)) = some .owned := by decide

theorem witness_Handoffs_retry : let s : State := { ctxs := [(0, { ctx0 .owned 0 with retry := some 10000 })], time := 10000 }
    kvGet? 0 s.ctxs = some { ctx0 .owned 0 with retry := some 10000 } ∧ 10000 ≤ s.now ∧
    ((kvGet? 0 (after (.handoffRetryTimer 0) s).ctxs).map (fun c => c.st)) = some .offered := by decide

theorem witness_Handoffs_contest : let s : State := { one 0 [] with ctxs := [(16384, ctx0 .offered 0)], time := 100001 }
    (ctx0 .offered 0).since + 100000 < s.now ∧ kvGet? 0 s.recs = some (rec0 0 []) ∧ kvGet? 0 s.queries = none ∧
    ((kvGet? 16384 (after (.contextContest 16384) s).ctxs).map (fun c => c.st)) = some .owned := by decide

theorem witness_Handoffs_no_copy : (one 0 []).ctxs = [] ∧ (rec0 0 []).ctx = 0 ∧ (one 0 []).pstate 0 ≠ stResetting ∧
    cpls (after (.contextContest 0) (one 0 [])) = [(5, scPoolLost, 0, 0, 0)] := by decide

theorem witness_Handoffs_pool_loss : let s : State := { ctxs := [(16384, ctx0 .owned 0)] }
    (∀ r ∈ s.recs, ctxPool r.2.ctx ≠ 1) ∧ s.flt.poolLost = [] ∧ (after (.poolLoss 1 true) s).ctxs = [] ∧
    (after (.poolLoss 1 true) s).rebuilding 1 = true := by decide

theorem witness_ServingLoop_period : let s := served { periodUs := 500 }
    s.configured 0 = true ∧ 0 < (s.pcfg 0).periodUs ∧ s.now % ((s.pcfg 0).periodUs * 1000) = 0 ∧ s.pstate 0 = stReady ∧ s.configured 1 = false := by decide

/-- A partition that lists array 0 and queues work. -/
def arrayed (x : ArrShare) : State :=
  { served { arrayMask := 1, arrayW := [1, 0, 0, 0], privileged := true } with arrWork := [(0, 0)], shares := [(0, x)], time := 100000000 }

theorem witness_ServingLoop_arrays : ((arrayed {}).share 0).owner = none ∧ (arrayed {}).isFenced 5 0 = false ∧ (arrayed {}).arrFirst 0 = some 0 ∧ ((after (.arrayTaken 0 0) (arrayed {})).share 0).owner = some 0 ∧
    ((arrayed { owner := some 0 }).share 0).round + (arrayed { owner := some 0 }).roundNs 0 ≤ (arrayed { owner := some 0 }).now ∧
    (arrayed { owner := some 0 }).atBoundary 0 = false ∧ ((after (.arrayRoundStart 0) (arrayed { owner := some 0 })).share 0).round = 100000000 ∧
    ((after (.arraySwitchDone 0) (arrayed { owner := some 0, switching := some (0, true) })).share 0).switching = none ∧
    0 + (arrayed { owner := some 0 }).warmNs 0 0 ≤ (arrayed {}).now ∧
    ((after (.arraySwitchDone 0) (arrayed { owner := some 0, switching := some (100000001, true) })).share 0).switching = some (100000001, true) ∧
    0 + (arrayed { yieldReq := some 0 }).fld (rMxaShareCfg 0) fMxaShareCfg_YIELD_LIMIT_US * 1000 ≤ (arrayed { yieldReq := some 0 }).now ∧
    ((after (.yieldLimitExpiry 0) (arrayed { yieldReq := some 0 })).share 0).noYield = true := by decide

/-- A privileged owner of array 0 whose quantum has run out, and another partition with work. -/
def yielder : State :=
  { parts := [(0, { cfg := some { arrayMask := 1, arrayW := [1, 0, 0, 0], privileged := true } }), (1, { cfg := some { arrayMask := 1, arrayW := [1, 0, 0, 0] } })],
    arrWork := [(0, 5), (1, 6)], shares := [(0, { owner := some 0 })], time := 100000000 }

theorem witness_ServingLoop_yield : (yielder.share 0).owner = some 0 ∧ yielder.arrNext 0 = some 1 ∧ (yielder.pcfg 0).privileged = true ∧
    (yielder.share 0).noYield = false ∧ (yielder.share 0).switching = none ∧ ((after (.privilegedYield 0) yielder).share 0).spill = [(0, 5)] := by decide

/-- Two partitions that share cluster 0, the first of them privileged and with all of its busy time. -/
def coreYielder : State :=
  { parts := [(0, { cfg := some { clusterMask := 1, clusterW := [1], privileged := true }, busy := [(0, 0, 500)] }),
      (1, { cfg := some { clusterMask := 1, clusterW := [1] } })],
    recs := [(0, { rec0 0 [] with phase := .running }), (1, { rec0 0x20 [] with part := 1 })] }

theorem witness_ServingLoop_cluster : coreYielder.coreYields 0 = some (0, 0) ∧ coreYielder.ctr (cPrtYields 0) + 1 < 2 ^ 48 - 1 ∧
    ((after (.privilegedYield 4) coreYielder).part 0).spill = [(0, 0)] ∧ (after (.privilegedYield 4) coreYielder).ctr (cPrtYields 0) = 1 := by decide

/-! ### Bank engines -/

/-- A descriptor of channel 0 by partition 0 for its row 0, with its operation, query count and length of list. -/
def bankDesc (op q src list : Nat) : List Byte :=
  leBytes 1 op ++ leBytes 2 0 ++ leBytes 1 q ++ leBytes 2 1 ++ leBytes 6 0 ++ leBytes 4 77 ++ leBytes 4 0 ++ leBytes 4 1 ++ leBytes 4 0 ++ leBytes 4 list ++
    leBytes 8 32768 ++ leBytes 8 src ++ leBytes 8 noDst ++ leBytes 8 0xAA

/-- The same with a destination row. -/
def bankDest (op src dst : Nat) : List Byte := (bankDesc op 0 src 0).take 48 ++ leBytes 8 dst ++ (bankDesc op 0 src 0).drop 56

/-- The job of a descriptor of partition 0's request 0, queued now. -/
def bankJob (d : List Byte) : BankJob := { part := 0, rid := some 0, desc := d, fence := false, since := 0 }

/-- Channel 0 of a partition that owns its first rows. -/
def banked (x : BankCh) : State :=
  { served { procChannels := 1 } with
    bank := [(0, { x with state := 2, ring := some 1048576 })], mem := { allocs := [(0, { len := 65536, part := some 0, kind := .tensor })] } }

theorem witness_BankCommands_refused : dBop (bankDesc 1 1 0 0) ≠ 2 ∧ (served {}).bankCheck 0 0 (bankJob (bankDesc 1 1 0 0)) = some scBadHandle ∧
    (after (.gatherHam 0 0 0 (bankDesc 1 1 0 0)) (served {})).tokens.map (fun t => (t.tag, t.status)) = [(77, scBadCommand)] ∧
    (after (.scanHam 0 0 0 (bankDesc 1 1 0 0)) (served {})).tokens.map (fun t => t.status) = [scBadHandle] ∧
    kvGet? 0 (served {}).recs = none := by decide

theorem witness_BankCommands_checked : ([bankDesc 1 1 0 0, bankDesc 2 1 32768 1, bankDesc 3 0 16 0, bankDest 4 0 16, bankDest 5 0 0].map
    (fun d => ((banked {}).bankCheck 0 0 (bankJob d), dBop d, dKeep d))) = [(none, 1, false), (none, 2, false), (none, 3, false), (none, 4, false), (none, 5, false)] := by
  decide +kernel

theorem witness_BankCommands_idle : ((banked {}).chan 0).run = none ∧ ((banked {}).chan 0).jobs = [] ∧ ((banked {}).chan 0).surplus = [] ∧ ((banked {}).chan 0).ringWait = none ∧
    ((banked {}).chan 0).tags = [] ∧ (banked {}).fld (rBkeStackStatus (stackOf 0)) fBkeStackStatus_THROTTLED = 0 ∧
    ((banked {}).chan 0).flushNeed (bankDesc 3 0 16 0) ≤ (banked {}).ringFree 0 (dRing (bankDesc 3 0 16 0)) := by decide

/-- A command under way. -/
def bankRun (op : Nat) : BankRun := { job := { part := 0, rid := none, desc := bankDest op 0 16, fence := false, since := 0 }, writes := [(32768, [1])], sums := [] }

theorem witness_BankCommands_done : ((banked { run := some (bankRun 5) }).chan 0).run = some (bankRun 5) ∧
    ((banked { run := some (bankRun 5) }).chan 0).jobs = [] ∧
    (((after (.fill 0 0 0 (bankDest 5 0 0)) (banked { run := some (bankRun 5) })).chan 0).jobs = [bankJob (bankDest 5 0 0)]) ∧
    (after (.bankCmdDone 0) (banked { run := some (bankRun 5) })).tokens.map (fun t => (t.tag, t.status, t.records)) = [(77, scDone, 0)] ∧
    ((after (.bankCmdDone 0) (banked { run := some (bankRun 5) })).chan 0).pend = [(32768, [1])] := by decide

/-- A channel whose 256 places are taken. -/
def bankFull : State := banked { run := some (bankRun 5), jobs := List.replicate 256 (bankJob []) }

theorem witness_BankCommands_full : 256 ≤ (bankFull.chan 0).jobs.length ∧ bankFull.bankCheck 0 0 (bankJob (bankDest 5 0 0)) = none ∧
    ((after (.fill 0 0 0 (bankDest 5 0 0)) bankFull).chan 0).surplus = [bankJob (bankDest 5 0 0)] := by decide +kernel

/-- A fence token behind a write. -/
def bankFence : State :=
  { bank := [(0, { jobs := [{ part := 0, rid := none, desc := bankDesc 15 0 0 0, fence := true, since := 0 }], pend := [(32768, [1])] })] }

theorem witness_BankCommands_fence : (bankFence.chan 0).run = none ∧ (bankFence.chan 0).pend = [(32768, [1])] ∧ (bankFence.chan 0).ring = none ∧ (bankFence.chan 0).surplus = [] ∧
    bankFence.isFenced 7 (32768 / 2 ^ 31) = false ∧ dBop (bankDesc 15 0 0 0) = 0x0F ∧
    (after (.bkeFenceToken 0 { chan := 0 }) bankFence).tokens.map (fun t => (t.tag, t.status)) = [(77, scDone)] ∧
    (after (.bkeFenceToken 0 { chan := 0 }) bankFence).mem.read 32768 = 1 := by decide

/-- A fence descriptor of channel 0, well-formed. -/
def fenceDesc : List Byte := leBytes 1 15 ++ List.replicate 11 0 ++ leBytes 4 77 ++ List.replicate 48 0

theorem witness_BankCommands_token : fenceDesc ≠ [] ∧ dBop fenceDesc = 0x0F ∧ dFieldsOk 0 0 fenceDesc = true ∧ bitOf ((banked {}).pcfg 0).procChannels 0 = true ∧
    (after (.bkeFenceToken 0 { chan := 0, desc := fenceDesc }) (banked {})).tokens.map (fun t => (t.tag, t.status)) = [(77, scDone)] ∧
    dFieldsOk 0 1 fenceDesc = false ∧ bitOf ((served {}).pcfg 0).procChannels 0 = false ∧
    ({ served {} with bank := [(0, { state := 2 })] } : State).pstate 0 = stReady ∧
    (after (.bkeFenceToken 0 { chan := 0, desc := fenceDesc }) { served {} with bank := [(0, { state := 2 })] }).tokens.map (fun t => t.status) = [scBadHandle] := by
  decide

/-- A write of a byte held by channel 0. -/
def heldAcc : HeldAcc := { addr := 32768, write := true, data := [7], since := 0 }

theorem witness_Channels_linger : let s : State := { banked {} with time := 10000 }
    (s.chan 0).idle + s.lingerNs ≤ s.now ∧ ((after (.channelLingerExpiry 0) s).chan 0).state = 0 ∧ s.now < (s.chan 0).idle + s.lingerNs + 1 ∧
    let u : State := { banked { holds := [heldAcc] } with time := 10000 }
    (u.chan 0).holds = [heldAcc] ∧ u.isFenced 7 (32768 / 2 ^ 31) = false ∧ (after (.channelLingerExpiry 0) u).mem.read 32768 = 7 := by decide

theorem witness_Channels_held : ((banked {}).chan 0).state = 2 ∧ ((banked {}).chan 0).holds.length < 64 ∧
    ((after (.ordinaryAccessHeld 0 32768 true [7]) (banked {})).chan 0).holds.length = 1 ∧ (State.reset.chan 0).state = 0 ∧
    (after (.ordinaryAccessHeld 0 32768 true [7]) State.reset).mem.read 32768 = 7 ∧
    let u : State := { banked { holds := [heldAcc] } with time := 8000 }
    heldAcc.since + u.holdLimitNs 0 ≤ u.now ∧ ((after (.forcedYield 0) u).chan 0).holds = [] ∧ (after (.forcedYield 0) u).mem.read 32768 = 7 := by decide

theorem witness_Channels_refresh : stackOf 255 = 7 ∧ State.reset.ctr (cBkeStackRefreshIns 7) + 1 < 2 ^ 48 - 1 ∧
    ((banked { run := some (bankRun 5) }).chan 0).run.isSome = true ∧
    State.reset.fld (rBkeStackCfg 0) fBkeStackCfg_ACT_LIMIT ≤ State.reset.actsOf 0 17 + 2 ^ 16 ∧
    (after (.targetedRefresh 0 1 { row := 17, others := 2 ^ 16 }) State.reset).ctr (cBkeStackTargeted 0) = 1 ∧
    State.reset.actsOf 0 17 + 0 < State.reset.fld (rBkeStackCfg 0) fBkeStackCfg_ACT_LIMIT := by decide +kernel

/-- A stack whose channel 0 has run a million row steps in the last 10 µs. -/
def busyStack : State := { bank := [(0, { steps := 1000000 })], time := 10000 }

theorem witness_Channels_throttle (u : State) (hu : u = busyStack.setStackTemp 0 0) : 0 + 10000 ≤ busyStack.now ∧
    u.engineBudget 0 * 100000000 < 66 * u.stackSteps 0 * (1000 + 5 * (u.stackTemp 0 - 850).toNat) := by
  have hb : u.engineBudget 0 * 100000000 < 66 * u.stackSteps 0 * 1000 := by
    have h1 : u.stackSteps 0 = 1000000 := by subst hu; exact (by decide : busyStack.stackSteps 0 = 1000000)
    have h2 : u.engineBudget 0 ≤ 600 := by
      subst hu
      have e : ∀ (s : State) (n v : Nat), n = 0 → (s.setFld (rBkeStackStatus n) fBkeStackStatus_TEMP_C v).engineBudget n = s.engineBudget n := by
        intro s n v hn; subst hn
        simp only [State.engineBudget, State.setFld, State.fld_setReg_ne _ (show rNodePowerStatus ≠ rBkeStackStatus 0 by decide),
          State.fld_setReg_ne _ (show rBkeStackCfg 0 ≠ rBkeStackStatus 0 by decide)]
      show (State.setFld _ (rBkeStackStatus 0) fBkeStackStatus_TEMP_C _).engineBudget 0 ≤ 600
      rw [e _ 0 _ rfl]
      exact (by decide : busyStack.engineBudget 0 ≤ 600)
    rw [h1]; omega
  exact ⟨by decide, lt_of_lt_of_le hb (Nat.mul_le_mul_left _ (Nat.le_add_right _ _))⟩

theorem witness_Channels_no_throttle (u : State) (hu : u = ({ time := 10000 } : State).setStackTemp 0 0) :
    66 * u.stackSteps 0 * (1000 + 5 * (u.stackTemp 0 - 850).toNat) ≤ u.engineBudget 0 * 100000000 := by
  have h : u.stackSteps 0 = 0 := by subst hu; exact (by decide : State.stackSteps { time := 10000 } 0 = 0)
  simp [h]

/-- A node with BKE_FENCE of channel 0, ready, and the channel of its partition busy. -/
def fencer : State := { banked { run := some (bankRun 5) } with recs := (one 0x11 (leBytes 32 1)).recs, queues := (one 0x11 (leBytes 32 1)).queues }

theorem witness_Channels_fence : fencer.bkeFenceCheck 0 (cmd0 0x11 (leBytes 32 1)) = none ∧ maskChannels (fencer.fenceMask 0 (cmd0 0x11 (leBytes 32 1))) = [0] ∧
    phase0 (after (.bkeFence 0 0 5) fencer) = some .running ∧ ((after (.bkeFence 0 0 5) fencer).chan 0).jobs.length = 1 := by decide +kernel

theorem witness_Channels_fence_else : let s := one 0x11 (leBytes 32 1)
    bitOf (s.fenceMask 0 (cmd0 0x11 (leBytes 32 1))) 0 = true ∧ bitOf (s.pcfg 0).procChannels 0 = false ∧
    cpls (after (.bkeFence 0 0 5) s) = [(5, scBadHandle, 0, 0, 0)] ∧
    (∀ x ∈ (under 0x11 (leBytes 32 1)).bank, ∀ j ∈ x.2.jobs ++ x.2.surplus, j.fence = true → j.rid ≠ some 0) ∧
    (cpls (after (.bkeFenceComplete 0 0 5) (under 0x11 (leBytes 32 1)))).map (fun c => (c.1, c.2.1, c.2.2.1)) = [(5, scDone, 1)] := by decide +kernel

/-! ### Queries and selection -/

/-- A query of partition 0, request 0. -/
def query0 : Query :=
  { part := 0, epoch := 0, stamp := 0, deadline := 1000, started := false, phase := 0, todo := [], step := 0, elem := 3, dims := 2, vec := [], raw := [], k := 4,
    beam := 64, pre := 8, r := 16, rmult := 4, filter := none, allow := none, effort := false, widen := false, sub := false, sketches := [], beams := [],
    delta := false, visited := [], gathered := 0, retried := false, first := none, shards := [], scatter := false, widened := false }

/-- PARAMS of a query of two int8 elements, with its flags and epoch. -/
def queryPs (flags epoch : Nat) : List Byte :=
  [0, 3] ++ leBytes 2 2 ++ leBytes 2 4 ++ leBytes 2 64 ++ [0, 0] ++ leBytes 2 flags ++ leBytes 4 0 ++ leBytes 8 4096 ++ leBytes 4 2 ++ leBytes 4 0 ++ leBytes 24 0 ++ leBytes 8 epoch

/-- The request of such a query. -/
def queryRec (flags epoch : Nat) : Rec := { rec0 0x10 (queryPs flags epoch) with cmd := { cmd0 0x10 (queryPs flags epoch) with resultAddr := 64 } }

/-- A node with that request and its query. -/
def querier (flags epoch : Nat) : State := { node (queryRec flags epoch) with queries := [(0, query0)] }

theorem witness_QueryAdmission_runs : let s := querier 0 0
    s.readyRec 0 0 5 0x10 = some (0, queryRec 0 0) ∧ s.pstate 0 ≠ stResetting ∧ query0.phase = 0 ∧
    s.queryCheck 0 (queryRec 0 0).cmd false = none ∧ s.queryVecOk 0 (queryRec 0 0).cmd [1, 2] = true ∧ s.asOfHeld 0 ((queryRec 0 0).cmd.param 56 8) = true ∧
    bitOf ((queryRec 0 0).cmd.param 10 2) 1 = false ∧
    ((kvGet? 0 (after (.query 0 0 5 [1, 2]) s).queries).map (fun q => (q.phase, q.vec, q.raw))) = some (1, [1, 2], [1, 2]) := by decide

theorem witness_QueryAdmission_named : (querier 0 0).named (queryRec 0 0) = querier 0 0 ∧ (querier 0 0).queryInCheck 0 (queryRec 0 0).cmd = none ∧
    (querier 16 0).queryInCheck 0 (queryRec 16 0).cmd = some scBadCommand ∧ (querier 16 0).named (queryRec 16 0) = querier 16 0 := by decide

theorem witness_QueryAdmission_refused : (queryRec 16 0).cmd.param 10 2 ≥ 16 ∧ query0.part = 0 ∧ query0.shards = [] ∧
    (querier 16 0).queryCheck 0 (queryRec 16 0).cmd false = some scBadCommand ∧
    cpls (after (.query 0 0 5 [1, 2]) (querier 16 0)) = [(5, scBadCommand, 0, 0, 0)] := by decide

theorem witness_QueryAdmission_retired : let s : State := { querier 0 3 with corpora := [(0, { epoch := 5, fold := 4 })], queries := [(0, { query0 with epoch := 5 })] }
    s.queryCheck 0 (queryRec 0 3).cmd false = none ∧ s.queryVecOk 0 (queryRec 0 3).cmd [1, 2] = true ∧ s.asOfHeld 0 ((queryRec 0 3).cmd.param 56 8) = false ∧
    cpls (after (.query 0 0 5 [1, 2]) s) = [(5, scEpochRetired, 0, 0, 0)] := by decide

/-- The same where the partition re-ranks by cosine. -/
def cosine : State := { querier 0 0 with parts := [(0, { cfg := some { stages := [{ kind := 5, place := 1, pool := 2, nextA := 0, nextB := 0, param := 2 }] } })] }

theorem witness_QueryAdmission_zero : cosine.queryCheck 0 (queryRec 0 0).cmd false = none ∧ cosine.queryVecOk 0 (queryRec 0 0).cmd [0, 0] = false ∧
    cpls (after (.query 0 0 5 [0, 0]) cosine) = [(5, scBadCommand, 0, 0, 0)] := by decide +kernel

/-- A graph segment with vectors of 64 bytes at node address 65536, one neighbour a record. -/
def segment0 : Segment :=
  { delta := false, width := 0, setId := 0, setVer := 0, degree := 1, elem := 3, dims := 2, vectors := 4, entry := [0], blockRows := 16, blocks := [(0, 0)],
    stride := 64, pub := some 0, ret := none, adj := 32768, vec := 65536, attr := 0, idmap := 131072, tomb := 0, norm := 0, commitAt := 0, commits := [],
    closed := false, cap := 0, next := 0, buildEp := 0, sources := [], origin := [], dead := [], tensors := [], areas := [] }

/-- A beam of it that expands candidate 2. -/
def beam0 (l : Option (List Nat × Nat)) : Beam := { seg := 1, pos := 0, width := 64, entries := [{ id := 2, dist := 3, mark := 1 }], out := [(2, l)] }

/-- A query in its step, with its beams. -/
def stepping (q : Query) : State := { node (queryRec 0 0) with queries := [(0, q)], corpora := [(0, { segs := [(1, segment0)] })], ctxs := [(0, ctx0 .owned 0)] }

theorem witness_QuerySteps_delta : let s : State := { parts := [(0, { scans := [4] })] }
    (s.part 0).scans = [4] ∧ s.ownBusy (fun o => o.step == some (0, 4)) = false ∧ ((after (.deltaScanDone 0) s).part 0).scanEnd = 5 ∧
    let u : State := { s with bank := [(0, { jobs := [{ part := 0, rid := none, desc := [], fence := false, since := 0, own := some { step := some (0, 4) } }] })] }
    u.ownBusy (fun o => o.step == some (0, 4)) = true ∧ ((after (.deltaScanDone 0) u).part 0).scans = [4] := by decide

theorem witness_QuerySteps_adjacency : let s := stepping { query0 with phase := 2, beams := [beam0 none] }
    s.seg? 0 1 = some segment0 ∧ (visitAll 0 ((List.range segment0.degree).map (fun i => leNat (s.readMem (segment0.adjAt 2 + 4 * i) 4))) []).1 = [0] ∧
    ((kvGet? 0 (after (.traverseAdjacencyArrival 0 1 2) s).queries).map (fun y => (y.gathered, y.beams))) = some (1, [beam0 (some ([0], 0xFFFF))]) := by decide +kernel

theorem witness_QuerySteps_distances : let s := stepping { query0 with phase := 2, sketches := [(0, [255])], beams := [beam0 (some ([0], 0xFFFF))] }
    s.seg? 0 1 = some segment0 ∧ s.gatherDist { query0 with sketches := [(0, [255])] } segment0 0xFFFF 0 = some 8 ∧
    ((kvGet? 0 (after (.traverseDistancesArrival 0 1 2) s).queries).map (fun y => y.beams.map (fun b => b.entries.map (fun e => (e.id, e.dist, e.mark))))) =
      some [[(2, 3, 2), (0, 8, 1)]] ∧ kvGet? 1 s.queries = none := by decide +kernel

/-- A query whose pool is final, with a re-rank stage of this place. -/
def finishing (stages : List Stage) (x : Part) : State :=
  { stepping { query0 with phase := 2, delta := true, todo := [5, 6] } with
    sels := [(0, { lists := [(0, { owner := some 0, k := 16, higher := false, fp := false, dedup := false, entries := [{ key := 3, id := 2, seg := 1, node := 0, ord := 0 }] })] })],
    parts := [(0, { x with cfg := some { stages := stages, arrayMask := 1 } })] }

theorem witness_QuerySteps_no_rerank : let s := finishing [] {}
    ({ query0 with phase := 2, delta := true, todo := [5, 6] } : Query).poolFinal = true ∧ (s.selFind (poolLid 0)).isSome = true ∧ s.rerankStage 0 = none ∧
    s.ctxIn 0 (s.stagePool 0 5) = true ∧ cpls (after (.exactRerank 0) s) = [(5, scDone, 1, 0, 0)] := by decide +kernel

/-- A re-rank stage. -/
def rerank (place : Nat) : Stage := { kind := 5, place := place, pool := 2, nextA := 0, nextB := 0, param := 0 }

theorem witness_QuerySteps_rerank : let s := finishing [rerank 1] {}
    (s.selFind (poolLid 0)).isSome = true ∧ s.rerankStage 0 = some (rerank 1) ∧ s.ctxIn 0 2 = true ∧ s.metric 0 ≠ 2 ∧ (rerank 1).place ≠ 0 := by decide +kernel

theorem witness_QuerySteps_queued : let s := finishing [rerank 0] { rrStep := 1, rrArr := true }
    s.rerankStage 0 = some (rerank 0) ∧ s.arraysGone 0 = false ∧ s.arrayTakes 0 (((s.segShape 0).map (fun x => x.2)).getD 0) = true ∧
    (s.part 0).rrStep = (s.part 0).stepNo + 1 ∧ s.ownedArray 0 = none ∧ (after (.exactRerank 0) s).arrWork = [(0, 0)] := by decide +kernel

theorem witness_QuerySteps_norms : let s := finishing [{ rerank 1 with param := 2 }] {}
    s.metric 0 = 2 ∧ s.poolEntries 0 = [{ key := 3, id := 2, seg := 1, node := 0, ord := 0 }] ∧ (s.seg? 0 1).map (fun g => g.norm) = some 0 ∧
    cpls (after (.exactRerank 0) s) = [(5, scBadHandle, 0, 0, 0)] := by decide +kernel

/-- The same beside another query of the step whose pool is not final. -/
def rerankWaits : State :=
  let s := finishing [rerank 0] {}
  { s with
    queries := s.queries ++ [(1, { query0 with phase := 2, todo := [5, 6], beams := [beam0 none] })],
    sels := s.sels ++ [(1, { lists := [(poolLid 1, { owner := some 1, k := 16, higher := false, fp := false, dedup := false })] })] }

theorem witness_QuerySteps_undecided : rerankWaits.rerankDecided 0 = false ∧ rerankWaits.poolsFinal 0 = false ∧ (finishing [rerank 0] {}).poolsFinal 0 = true ∧
    (finishing [rerank 0] {}).rerankDecided 0 = false := by decide +kernel

/-- The same alone over a segment of this element type, decided for the array that its partition owns, with array 1 beside it. -/
def rerankOwned (elem : Nat) : State :=
  { finishing [rerank 0] {} with
    corpora := [(0, { segs := [(1, { segment0 with elem := elem })] })], shares := [(0, { owner := some 0 })],
    parts := [(0, { cfg := some { stages := [{ rerank 0 with param := 1 }], arrayMask := 3, modes := [{ array := 1, modes := 3, dflt := 0, types := 0x1FF, distOps := 0 }] }, rrStep := 1, rrArr := true })] }

theorem witness_QuerySteps_array : (rerankOwned 3).rerankDecided 0 = true ∧ (((rerankOwned 3).decideRerank 0).part 0).rrArr = true ∧
    ((rerankOwned 3).decideRerank 0).ownedArray 0 = some 0 ∧ ((rerankOwned 3).segShape 0).map (fun x => x.2) = some 3 ∧ (rerankOwned 3).arrayServes 0 3 0 = true := by
  decide +kernel

theorem witness_QuerySteps_other_array : (rerankOwned 5).ownedArray 0 = some 0 ∧ ((rerankOwned 5).segShape 0).map (fun x => x.2) = some 5 ∧
    (rerankOwned 5).arrayTakes 0 5 = true ∧ (rerankOwned 5).arrayServes 0 5 0 = false := by decide +kernel

theorem witness_QuerySteps_permitted : (rerankOwned 3).rerankPermitted 0 3 0 = true ∧ (rerankOwned 3).coreWaits 0 = false ∧
    (rerankOwned 3).ctxIn 0 ((rerankOwned 3).stagePool 0 5) = true := by decide +kernel

/-- The same where re-rank is by squared L2, which array 0 does not permit. -/
def rerankBarred : State :=
  { rerankOwned 3 with parts := [(0, { cfg := some { stages := [rerank 0], arrayMask := 1 }, rrStep := 1, rrArr := true })] }

theorem witness_QuerySteps_barred : rerankBarred.rerankDecided 0 = true ∧ (rerankBarred.part 0).rrArr = true ∧ rerankBarred.ownedArray 0 = some 0 ∧
    rerankBarred.arrayTakes 0 3 = true ∧ rerankBarred.arrayServes 0 3 0 = true ∧ rerankBarred.rerankPermitted 0 3 0 = false ∧
    (cpls (after (.exactRerank 0) rerankBarred)).map (fun c => c.2.1) = [scBadCommand] := by decide +kernel

/-- A query whose phase has given up its core, while another partition has work ready. -/
def coreWaiter : State := { after (.privilegedYield 4) coreYielder with queries := [(0, { query0 with phase := 2 })] }

theorem witness_QuerySteps_core_waits : coreWaiter.coreWaits 0 = true ∧ (kvGet? 0 coreWaiter.queries).isSome = true ∧
    after (.exactRerank 0) coreWaiter = coreWaiter := by decide +kernel

theorem witness_QuerySteps_gathering : let s := { stepping { query0 with phase := 2, beams := [beam0 (some ([0], 0xFFFF))] } with bank := [(0, { jobs := [{ part := 0, rid := none, desc := [], fence := false, since := 0, own := some { need := [(0, 1, 2)] } }] })] }
    s.ownBusy (fun o => o.need.contains (0, 1, 2)) = true := by decide +kernel

/-- A sub-request of node 7 for endpoint 4 of partition 0. -/
def subRequest : Packet :=
  { vc := 1, ptype := 0, opcode := 0x10, dstNode := 1, dstEp := 4, srcNode := 7, srcPart := 2, seq := 9, budget := 1000, args := [3, 2, 4, 64, 4, 8, 0, 0, 0, 0], data := [1, 2] }

/-- A partition that routes its streams to that endpoint. -/
def acceptor : State :=
  ({ parts := [(0, { cfg := some { routes := [{ kind := 1, cls := 0, first := 0, count := 16, target := 4 }], ctxG0 := 8, ctxG1 := 8 } })] } : State).setPstate 0 stReady

theorem witness_Shards_subrequest : acceptor.acceptsFabric 0 4 0 = true ∧ (acceptor.part 0).waiting = [] ∧
    (((acceptor.taken subRequest).admitRec 0 4 (some (reqOrigin subRequest)) (queryCmd subRequest acceptor.now) acceptor.fetchNo ((acceptor.taken subRequest).entryPool 0)
      [1, 2]).map (fun x => ((kvGet? 0 x.2.recs).isSome, (kvGet? 0 x.2.queries).map (fun q => x.2.queryOk q.part (queryCmd subRequest acceptor.now) true
      (vecCodes q.elem q.dims q.raw))))) = some (true, some true) ∧
    phase0 (after (.shardSubrequestArrival subRequest) acceptor) = some .running ∧ State.reset.acceptsFabric 0 4 0 = false ∧
    kvGet? State.reset.nextRec State.reset.recs = none ∧
    (after (.shardSubrequestArrival subRequest) State.reset).fab.handoff.map (fun k => (k.ptype, k.dstNode, k.seq)) = [(2, 7, 9)] := by decide

/-- A scattered query with shard 7 outstanding. -/
def scattered : State :=
  { node (queryRec 0 0) with
    queries := [(0, { query0 with phase := 2, scatter := true, shards := [{ node := 7, seq := some 9, state := 0, status := 0 }] })],
    fab := { out := [(9, { rid := some 0, node := 7, part := 0, sent := 0, timed := false, kind := 0x10, args := [], gen := 0 })] } }

theorem witness_Shards_response : let k : Packet := { vc := 2, ptype := 1, opcode := 0x10, dstNode := 1, srcNode := 7, seq := 9, args := [scDone], data := [] }
    scattered.isLate k = false ∧ kvGet? 9 (after (.shardResponseArrival k) scattered).fab.out = none ∧
    (after (.shardResponseArrival { k with seq := 10 }) scattered).ctr (cPrtOrphanResponses 0) = 1 ∧
    ((kvGet? 0 (after (.shardResponseArrival k) scattered).queries).map (fun q => q.shards.map (fun h => h.state))) = some [1] ∧
    (after (.shardFailure 9 scUnreachable) scattered).ctr (cPrtShardFails 0) = 1 ∧ kvGet? 8 scattered.fab.out = none ∧
    cpls (after (.shardFailure 9 scUnreachable) scattered) = [(5, scUnreachable, 0, 0, 0)] := by decide

/-- A unit with an open list of this size. -/
def listed (k : Nat) : State := { sels := [(0, { lists := [(3, { owner := none, k := k, higher := false, fp := false, dedup := false })] })] }

theorem witness_Selection : State.reset.selUnitFor 0 1024 = some 0 ∧ ((kvGet? 3 ((after (.selectListOpen 0 0 3 1024 false false false) State.reset).sel 0).lists).map
      (fun l => l.k)) = some 1024 ∧
    cpls (after (.selectListOpen 0 0 3 1025 false false false) (one 0 [])) = [(5, scBadCommand, 0, 0, 0)] ∧
    cpls (after (.selectListOpen 0 0 3 0 false false false) (one 0 [])) = [(5, scBadCommand, 0, 0, 0)] ∧ (one 0 []).pstate 0 ≠ stResetting ∧
    ((kvGet? 3 ((after (.selectInsert 0 3 5 6 1 0) (listed 2)).sel 0).lists).map (fun l => l.entries.map (fun e => (e.key, e.id)))) = some [(5, 6)] ∧
    kvGet? 4 ((listed 2).sel 0).lists = none ∧ ((after (.selectListClose 0 3) (listed 2)).results.map (fun r => (r.lid, r.fewer))) = [(3, true)] ∧
    ((listed 2).sel 1).waits = [] ∧ (kvGet? 3 ((after (.selectMerge 0 3 []) (listed 2)).sel 0).lists).isSome = true := by decide

theorem witness_Selection_waits : let l : SelList := { owner := none, k := 1024, higher := false, fp := false, dedup := false }
    let s : State := { sels := [(0, { lists := (List.range 64).map (fun i => (i, l)) }), (1, { lists := (List.range 64).map (fun i => (i, l)) })] }
    s.selUnitFor 0 1024 = none ∧ ((after (.selectListOpen 0 0 70 1024 false false false) s).sel 0).waits.map (fun w => w.lid) = [70] := by decide +kernel

/-- Keys 3 and 5 in a list of 2. -/
def full2 : SelList :=
  { owner := none, k := 2, higher := false, fp := false, dedup := false, offered := 2,
    entries := [{ key := 3, id := 0, seg := 0, node := 0, ord := 0 }, { key := 5, id := 1, seg := 0, node := 0, ord := 1 }] }

theorem witness_SelectionInsert : let e := fun (k : Nat) => ({ key := k, id := 9, seg := 0, node := 0, ord := 0 } : SelEntry)
    full2.isNan 4 = false ∧ full2.entries.length = full2.k ∧ (full2.entries.getLast?.map (fun z => z.key)) = some 5 ∧ full2.better 4 5 = true ∧
    (full2.insert (e 4)).entries.map (fun x => x.key) = [3, 4] ∧ (full2.insert (e 4)).left = 5 ∧ full2.better 5 5 = false ∧ (full2.insert (e 5)).tied = 1 ∧
    (full2.insert (e 6)).left = 6 ∧ ({ full2 with k := 3 } : SelList).entries.length < 3 ∧ (({ full2 with k := 3 } : SelList).insert (e 4)).entries.length = 3 ∧
    ({ full2 with fp := true } : SelList).isNan 0x7FC00000 = true ∧ (({ full2 with fp := true } : SelList).insert (e 0x7FC00000)).nan = 1 := by decide +kernel

/-! ### Arrays and models -/

/-- The hypotheses of `MayRun` for request 0. -/
def canRun (s : State) (op : Nat) (r : Rec) : Bool :=
  decide (s.readyRec 0 0 5 op = some (0, r)) && decide (kvGet? 0 s.recs = some r) && decide (s.pstate 0 ≠ stResetting)

/-- The hypotheses of `UnderWay` for request 0. -/
def isUnder (s : State) (op : Nat) (r : Rec) : Bool :=
  decide (s.runningRec 0 0 5 op = some (0, r)) && decide (kvGet? 0 s.recs = some r) && decide (s.pstate 0 ≠ stResetting)

theorem may_of_canRun (s : State) (op : Nat) (r : Rec) (h : canRun s op r = true) : MayRun s 0 0 5 op 0 r := by
  simp only [canRun, Bool.and_eq_true, decide_eq_true_eq] at h
  exact ⟨h.1.1, h.1.2, h.2⟩

theorem under_of_isUnder (s : State) (op : Nat) (r : Rec) (h : isUnder s op r = true) : UnderWay s 0 0 5 op 0 r := by
  simp only [isUnder, Bool.and_eq_true, decide_eq_true_eq] at h
  exact ⟨h.1.1, h.1.2, h.2⟩

/-- A descriptor of partition 0 for one row, one column and K 1, with its mode, element type, output type and flags. -/
def arrDesc (m x o f : Nat) : List Byte :=
  leBytes 1 m ++ leBytes 1 x ++ leBytes 1 x ++ [0] ++ leBytes 2 1 ++ leBytes 1 o ++ leBytes 1 f ++ leBytes 8 0 ++ leBytes 2 1 ++ leBytes 2 1 ++ leBytes 2 9 ++
  [0, 0] ++ leBytes 8 0 ++ leBytes 8 4096 ++ leBytes 8 8192 ++ leBytes 16 0

/-- Memory in which partition 0 holds the first 64 KiB, with 3 in the tile and 5 in the row. -/
def opMem : MemSys := { (({} : State).writeMem 0 [3]).mem with bytes := [(0, 3), (4096, 5)], allocs := [(0, { len := 65536, part := some 0, kind := .tensor })] }

/-- A node whose partition 0 owns array 0 and may use every mode and type there. -/
def arrNode : State :=
  { one 0x51 [] with
    parts := [(0, { cfg := some { arrayMask := 1, modes := [{ array := 0, modes := 7, dflt := 0, types := 0x1FF, distOps := 31 }] } })]
    shares := [(0, { owner := some 0 })], mem := opMem }

/-- The same with an instruction for array 0 already running. -/
def arrBusy (f : Nat) : State := after (.arrayInstrMac 0 0 0 (arrDesc 0 0 1 f)) arrNode

/-- What the array holds of its running instruction. -/
def arrRunning (s : State) : Option (Nat × Option Nat × List (Nat × List Byte)) := (s.arrUnit 0).run.map (fun x => (x.part, x.rid, x.outs))

theorem witness_ArrayInstructions_run : aMode (arrDesc 0 0 1 0) = 0 ∧ aMode (arrDesc 1 5 0 0) = 1 ∧ aMode (arrDesc 2 0 1 0) = 2 ∧ arrNode.listsArray 0 0 = true ∧
    ((kvGet? 0 arrNode.recs).map (fun r => r.part)) = some 0 ∧ arrNode.isFenced 5 0 = false ∧ (arrNode.share 0).owner = some 0 ∧
    (arrNode.share 0).switching = none ∧ (arrNode.arrUnit 0).run = none ∧ (arrNode.arrUnit 0).queueOf 0 = [] ∧ arrNode.arrCheck 0 0 (arrDesc 0 0 1 0) = none ∧
    arrNode.arrCheck 0 0 (arrDesc 1 5 0 0) = none ∧ arrNode.arrCheck 0 0 (arrDesc 2 0 1 0) = none ∧
    (∀ r ∈ arrRanges (arrDesc 0 0 1 0), r.2.2 = false → arrNode.mem.isDamaged r.1 r.2.1 = false) ∧
    (∀ r ∈ arrRanges (arrDesc 2 0 1 0), r.2.2 = false → arrNode.mem.isDamaged r.1 r.2.1 = false) := by decide +kernel

theorem witness_ArrayInstructions_mac : arrRunning (arrBusy 0) = some (0, some 0, [(8192, [15, 0, 0, 0])]) := by decide +kernel

theorem witness_ArrayInstructions_distance :
    arrRunning (after (.arrayInstrDistance 0 0 0 (arrDesc 2 0 1 0)) arrNode) = some (0, some 0, [(8192, [4, 0, 0, 0])]) := by decide +kernel

theorem witness_ArrayInstructions_words : (arrRunning (after (.arrayInstrMultiWord 0 0 0 (arrDesc 1 5 0 0)) arrNode)).isSome = true := by decide +kernel

theorem witness_ArrayInstructions_refused : arrNode.arrCheck 0 0 (arrDesc 0 9 1 0) = some scBadCommand ∧ aMode (arrDesc 0 9 1 0) = 0 ∧
    3 ≤ aMode (arrDesc 3 0 1 0) ∧ arrNode.arrCheck 0 0 (arrDesc 3 0 1 0) = some scBadCommand ∧ arrNode.pstate 0 ≠ stResetting ∧
    (after (.arrayInstrMac 0 0 0 (arrDesc 0 9 1 0)) arrNode).atokens.map (fun k => (k.tag, k.status)) = [(9, scBadCommand)] ∧
    cpls (after (.arrayInstrDistance 0 0 0 (arrDesc 3 0 1 0)) arrNode) = [(5, scBadCommand, 0, 0, 0)] := by decide +kernel

theorem witness_ArrayInstructions_damaged : let s : State := { arrNode with mem := { opMem with damaged := [(4096, 64)] } }
    s.arrCheck 0 0 (arrDesc 0 0 1 0) = none ∧ (4096, 1, false) ∈ arrRanges (arrDesc 0 0 1 0) ∧ s.mem.isDamaged 4096 1 = true ∧ s.pstate 0 ≠ stResetting ∧
    (after (.arrayInstrMac 0 0 0 (arrDesc 0 0 1 0)) s).atokens.map (fun k => (k.tag, k.status)) = [(9, scFence)] ∧
    cpls (after (.arrayInstrMac 0 0 0 (arrDesc 0 0 1 0)) s) = [(5, scFence, 0, 0, 0)] := by decide +kernel

theorem witness_ArrayInstructions_queued : let s := arrBusy 0
    s.arrFree 0 = false ∧ s.listsArray 0 0 = true ∧ ((s.arrUnit 0).queueOf 0).length < 4096 ∧ s.isFenced 5 0 = false ∧
    ((after (.arrayInstrMac 0 0 0 (arrDesc 0 0 1 0)) s).arrUnit 0).queueOf 0 = [{ part := 0, rid := 0, desc := arrDesc 0 0 1 0 }] := by decide +kernel

theorem witness_ArrayInstructions_none : (aMode (arrDesc 1 0 1 0) ≠ 0 ∧ aMode (arrDesc 1 0 1 0) < 3) ∧ arrNode.listsArray 0 1 = false ∧ kvGet? 1 arrNode.recs = none ∧
    4096 ≤ ((({ arrNode with arrays := [(0, { queue := [(0, List.replicate 4096 { part := 0, rid := 0, desc := [] })] })] } : State).arrUnit 0).queueOf 0).length := by decide +kernel

theorem witness_ArrayInstructions_done : let s := arrBusy 0
    let u := arrBusy 2
    arrRunning s = some (0, some 0, [(8192, [15, 0, 0, 0])]) ∧ (s.share 0).owner = some 0 ∧ (s.arrUnit 0).queueOf 0 = [] ∧ (kvGet? 0 s.recs).isSome = true ∧
    aPhaseEnd (arrDesc 0 0 1 0) = false ∧ aPhaseEnd (arrDesc 0 0 1 2) = true ∧
    ((after (.arrayInstrDone 0) s).arrUnit 0).pendOf 0 = [{ rid := 0, addr := 8192, bytes := [15, 0, 0, 0] }] ∧ (after (.arrayInstrDone 0) u).mem.read 8192 = 15 ∧
    kvGet? 0 ({ s with recs := [] } : State).recs = none ∧ ((after (.arrayInstrDone 0) { s with recs := [] }).arrUnit 0).pendOf 0 = [] ∧
    (arrNode.arrUnit 1).run = none := by decide +kernel

/-- A well-formed model without descriptors: three layers of 100 bytes, inputs of 16 int8 elements, its core section empty. -/
def modelBytes : List Byte :=
  [0x56, 0x58, 0x4D, 0x4C] ++ leBytes 2 1 ++ leBytes 2 3 ++ [1, 0] ++ leBytes 2 1 ++ [0, 0] ++ leBytes 2 1 ++ leBytes 4 16 ++ leBytes 4 256 ++ leBytes 4 0 ++ leBytes 4 0 ++
  leBytes 8 64 ++ leBytes 8 0 ++ leBytes 8 128 ++ leBytes 8 32 ++ (List.replicate 3 (leBytes 8 0 ++ leBytes 4 100 ++ leBytes 4 0)).flatten ++ List.replicate 16 0 ++
  sha256 []

/-- The tensor that holds it at an address. -/
def modelTensor (a : Nat) : Tensor := { gen := 0, part := 0, addr := a, bytes := 65536, holder := .none, migrating := false, dying := false }

/-- Memory with that model as tensor 1. -/
def modelMem (a : Nat) : MemSys :=
  { (({} : State).writeMem a modelBytes).mem with tensors := [(1, modelTensor a)], allocs := [(a, { len := 65536, part := some 0, kind := .tensor })] }

/-- PARAMS of MODEL_BIND: slot, flags, place. -/
def bindPs (slot flags place : Nat) : List Byte := leBytes 1 slot ++ leBytes 1 flags ++ leBytes 1 place ++ [0] ++ leBytes 4 0 ++ leBytes 8 1

/-- A partition with array 0, the clusters of SCD0 and these stages. -/
def modelCfg (stages : List Stage) : PartCfg := { arrayMask := 1, clusterMask := 15, clusterW := [1, 1, 1, 1], quota := [16777216, 16777216, 0, 0], stages := stages }

/-- A node with the model at an address, and MODEL_BIND with these PARAMS. -/
def binder (ps : List Byte) (a : Nat) (c : PartCfg) : State :=
  { one 0x50 ps with parts := [(0, { cfg := some c })], mem := modelMem a, shares := [(0, { owner := some 0 })] }

theorem witness_Models_bind : let s := binder (bindPs 7 2 0) 65536 (modelCfg [])
    canRun s 0x50 (rec0 0x50 (bindPs 7 2 0)) = true ∧ s.allocHeld = false ∧ s.bindCheck 0 (cmd0 0x50 (bindPs 7 2 0)) = none ∧
    s.nearTensor 0 1 = some (1, modelTensor 65536) ∧ s.named (rec0 0x50 (bindPs 7 2 0)) = s ∧ ((s.measureModel (s.named (rec0 0x50 (bindPs 7 2 0))) 0 (cmd0 0x50 (bindPs 7 2 0)) 0).placeWindow 0 (cmd0 0x50 (bindPs 7 2 0)) 1 (modelTensor 65536)).isSome = true ∧
    s.weights (modelTensor 65536) (s.headOf (modelTensor 65536)) = [100, 100, 100] := by decide +kernel

theorem witness_Models_bind_done : let s := binder (bindPs 7 2 0) 65536 (modelCfg [])
    cpls (after (.modelBind 0 0 5) s) = [(5, scDone, 0, 200, 300)] ∧
    ((after (.modelBind 0 0 5) s).binding 0 7).map (fun b => (b.tensor, b.layers, b.keep)) = some (1, 2, true) := by decide +kernel

/-- What the window of the binding is: its place, layers, bytes and allocations. -/
def windowAt (ps : List Byte) (a : Nat) : Option (Nat × Nat × Nat × Nat) :=
  ((binder ps a (modelCfg [])).placeWindow 0 (cmd0 0x50 ps) 1 (modelTensor a)).map (fun x => (x.1.place, x.1.layers, x.1.bytes, x.1.areas.length))

theorem witness_Models_window : windowBytes [100, 100, 100] 2 = 200 ∧ (modelCfg []).arrayMask = 1 ∧ tierOf (modelTensor 65536).addr = some 0 ∧
    windowAt (bindPs 7 2 0) 65536 = some (0, 2, 200, 0) ∧ windowAt (bindPs 7 0 1) 65536 = some (1, 2, 200, 0) := by decide +kernel

theorem witness_Models_bind_full : let s := binder (bindPs 7 0 0) 65536 { modelCfg [] with clusterMask := 0 }
    canRun s 0x50 (rec0 0x50 (bindPs 7 0 0)) = true ∧ s.allocHeld = false ∧ s.bindCheck 0 (cmd0 0x50 (bindPs 7 0 0)) = some scQuota ∧
    cpls (after (.modelBind 0 0 5) s) = [(5, scQuota, 0, 0, 0)] := by decide +kernel

theorem witness_Models_bind_held : let s : State := { binder (bindPs 7 2 0) 65536 (modelCfg []) with load := some { rid := 1, image := [], entry := 0, applying := true } }
    canRun s 0x50 (rec0 0x50 (bindPs 7 2 0)) = true ∧ s.allocHeld = true := by decide +kernel

/-- A stage that uses slot 7. -/
def slotStage : Stage := { kind := 1, place := 0, pool := 2, nextA := 0, nextB := 0, param := 7 }

theorem witness_Models_unbind : let s := binder (bindPs 7 1 0) 65536 (modelCfg [])
    bitOf ((cmd0 0x50 (bindPs 7 1 0)).param 1 1) 0 = true ∧ (cmd0 0x50 (bindPs 7 1 0)).param 8 8 = 1 ∧
    s.bindCheck 0 (cmd0 0x50 (bindPs 7 1 0)) = some scBadCommand ∧ cpls (after (.modelUnbind 0 0 5) s) = [(5, scBadCommand, 0, 0, 0)] := by decide +kernel

/-- PARAMS of an UNBIND of slot 7. -/
def unbindPs : List Byte := [7, 1, 0, 0] ++ leBytes 4 0 ++ leBytes 8 0

theorem witness_Models_unbind_done : let s := binder unbindPs 65536 (modelCfg [])
    let u := binder unbindPs 65536 (modelCfg [slotStage])
    canRun s 0x50 (rec0 0x50 unbindPs) = true ∧ s.bindCheck 0 (cmd0 0x50 unbindPs) = none ∧ cpls (after (.modelUnbind 0 0 5) s) = [(5, scDone, 0, 0, 0)] ∧
    u.slotInUse 0 7 = true ∧ u.bindCheck 0 (cmd0 0x50 unbindPs) = some scBadCommand ∧ cpls (after (.modelUnbind 0 0 5) u) = [(5, scBadCommand, 0, 0, 0)] := by decide +kernel

/-- The model bound to slot 7, `n` of its layers resident on SCD0. -/
def bound (n : Nat) : Binding := { tensor := 1, place := 0, layers := n, keep := false, bytes := 100 * n, areas := [], resident := [(0, (0, n))], retired := false }

/-- PARAMS of ARRAY_RUN: slot 7, one row of 16 bytes in host memory. -/
def runPs : List Byte := leBytes 4 7 ++ leBytes 4 1 ++ leBytes 8 4096 ++ leBytes 4 16

/-- The request, which holds the tensor bound when it was fetched. -/
def runRec : Rec := { rec0 0x51 runPs with cmd := { cmd0 0x51 runPs with resultAddr := 64 }, waits := [1] }

/-- A node with that request, whose array 0 belongs to `o`. -/
def runner (o : Option Nat) (n : Nat) : State :=
  { node runRec with parts := [(0, { cfg := some (modelCfg []) })], mem := modelMem 65536, models := [(7, bound n)], shares := [(0, { owner := o })] }

theorem witness_Models_run : let s := runner (some 0) 3
    canRun s 0x51 runRec = true ∧ s.runTensor runRec = some (1, modelTensor 65536) ∧ s.arrayRunCheck 0 runRec.cmd (some (1, modelTensor 65536)) = none ∧
    s.arraysGone 0 = false ∧ s.isTurn 0 0 = true ∧ (s.mayRun 0 0 0 1).1 = true ∧ (s.mayRun 0 0 0 1).2.ownedArray 0 = some 0 ∧
    s.modelRefused 0 0 (modelTensor 65536) (s.headOf (modelTensor 65536)) = none ∧
    cpls (after (.arrayRun 0 0 5 (List.replicate 16 1)) s) = [(5, scDone, 1, 0, 0)] := by decide +kernel

theorem witness_Models_run_refused : let s := runner (some 0) 3
    s.arrayRunCheck 0 { runRec.cmd with resultAddr := 0 } (s.runTensor runRec) = some scBadCommand ∧ s.arrayRunCheck 0 runRec.cmd none = some scBadHandle ∧
    let u : State := { s with recs := [(0, { runRec with waits := [] })] }
    u.runTensor { runRec with waits := [] } = none ∧ cpls (after (.arrayRun 0 0 5 []) u) = [(5, scBadHandle, 0, 0, 0)] := by decide +kernel

/-- The same node with array 0 fenced. -/
def runFenced : State := (runner (some 0) 3).modUnit 5 0 (fun u => { u with fenced := true })

theorem witness_Models_run_waits : let s := runner none 3
    canRun s 0x51 runRec = true ∧ (s.mayRun 0 0 0 1).1 = false ∧ (after (.arrayRun 0 0 5 []) s).arrWork = [(0, 0)] ∧
    let u := runner (some 0) 2
    (u.mayRun 0 0 0 1).1 = false ∧ ((after (.arrayRun 0 0 5 []) u).arrUnit 0).model.map (fun m => (m.rid, m.upto)) = some (0, 2) ∧
    ({ s with arrWork := [(0, 4)] } : State).isTurn 0 0 = false ∧ runFenced.arraysGone 0 = true ∧
    cpls (after (.arrayRun 0 0 5 []) runFenced) = [(5, scFence, 0, 0, 0)] := by decide +kernel

theorem witness_Models_layer : let s := after (.arrayRun 0 0 5 []) (runner (some 0) 2)
    (s.arrUnit 0).model = some { part := 0, rid := 0, tensor := 1, upto := 2, since := 0 } ∧ (s.runBinding 0 1).map (fun b => (b.layers, s.windowOf b 0)) = some (2, (0, 2)) ∧
    (s.share 0).owner = some 0 ∧ s.layersOf 1 = 3 ∧ ((after (.layerFetchDone 0 0) s).arrUnit 0).model.map (fun m => m.upto) = some 3 ∧
    ((after (.layerFetchDone 0 0) s).binding 0 7).map (fun b => b.resident) = some [(0, (1, 2))] ∧
    (s.arrUnit 1).model = none ∧ (s.share 0).owner ≠ some 1 ∧
    ((after (.layerFetchDone 0 0) s).arrUnit 0).model.map (fun m => decide (s.layersOf m.tensor ≤ m.upto)) = some true := by decide +kernel

theorem witness_Models_unbind_held : let s : State := { binder unbindPs 65536 (modelCfg []) with models := [(7, bound 2)] }
    canRun s 0x50 (rec0 0x50 unbindPs) = true ∧ s.bindCheck 0 (cmd0 0x50 unbindPs) = none ∧ s.binding 0 7 = some (bound 2) ∧
    kvGet? 1 s.mem.tensors = some (modelTensor 65536) ∧ cpls (after (.modelUnbind 0 0 5) s) = [(5, scDone, 0, 200, 300)] ∧
    (after (.modelUnbind 0 0 5) s).binding 0 7 = none := by decide +kernel

/-- The node of the model runs with results in host memory, and with an array that may not run the model's instructions. -/
theorem witness_Models_run_plain : PlainResult (runner (some 0) 3) runRec := by
  intro h; exact absurd h (by decide)

/-- The same model with one descriptor, of distance mode, which the default permissions of the array leave out. -/
def barredBytes : List Byte :=
  modelBytes.take 28 ++ leBytes 4 1 ++ (modelBytes.drop 32).take 8 ++ leBytes 8 256 ++ modelBytes.drop 48 ++ List.replicate (256 - modelBytes.length) 0 ++ arrDesc 2 0 1 0

/-- A node that runs it. -/
def barredRunner : State := { runner (some 0) 3 with mem := { modelMem 65536 with bytes := (({} : State).writeMem 65536 barredBytes).mem.bytes } }

theorem witness_Models_run_barred : let s := barredRunner
    canRun s 0x51 runRec = true ∧ s.arrayRunCheck 0 runRec.cmd (some (1, modelTensor 65536)) = none ∧ s.isTurn 0 0 = true ∧ (s.mayRun 0 0 0 1).1 = true ∧
    s.modelRefused 0 0 (modelTensor 65536) (s.headOf (modelTensor 65536)) = some scBadCommand ∧
    cpls (after (.arrayRun 0 0 5 (List.replicate 16 1)) s) = [(5, scBadCommand, 0, 0, 0)] := by decide +kernel

/-! ### Updates and segments -/

theorem witness_Models_window_far : (let s := binder (bindPs 7 0 1) 0x10000000000 (modelCfg [])
    s.nearTensor 0 1 = some (1, modelTensor 0x10000000000) ∧ windowBytes (s.weights (modelTensor 0x10000000000) (s.headOf (modelTensor 0x10000000000))) 2 = 200 ∧
      tierOf (modelTensor 0x10000000000).addr ≠ some 0 ∧ s.arrDies 0 = [0]) ∧
    ((binder (bindPs 7 0 1) 0x10000000000 (modelCfg [])).placeWindow 0 (cmd0 0x50 (bindPs 7 0 1)) 1 (modelTensor 0x10000000000)).isSome = true := by
  refine ⟨by decide +kernel, ?_⟩
  obtain ⟨b, -, h⟩ := State.alloc_some (binder (bindPs 7 0 1) 0x10000000000 (modelCfg [])) 0 0 200 0 .model (by decide +kernel) (by decide) (by decide +kernel) (.inl (by decide))
  have hw : windowBytes ((binder (bindPs 7 0 1) 0x10000000000 (modelCfg [])).weights (modelTensor 0x10000000000)
      ((binder (bindPs 7 0 1) 0x10000000000 (modelCfg [])).headOf (modelTensor 0x10000000000))) (cmd0 0x50 (bindPs 7 0 1)).windowLayers = 200 := by decide +kernel
  have hd : (binder (bindPs 7 0 1) 0x10000000000 (modelCfg [])).arrDies 0 = [0] := by decide +kernel
  have hp : (cmd0 0x50 (bindPs 7 0 1)).param 2 1 = 1 := by decide
  have ht : tierOf (modelTensor 0x10000000000).addr ≠ some 0 := by decide
  simp only [State.placeWindow, hw, hd, hp, if_neg ht, List.foldl_cons, List.foldl_nil, h]
  simp

/-- A sketch stage of 128 bits on cores. -/
def sketch128 : Stage := { kind := 2, place := 1, pool := 2, nextA := 0, nextB := 0, param := 1 }

/-- A partition with that stage, channel 0 and array 0. -/
def corpusCfg : PartCfg :=
  { arrayMask := 1, clusterMask := 1, clusterW := [1], procChannels := 1, periodUs := 1000, stages := [sketch128], quota := [2 ^ 32, 2 ^ 32, 0, 0] }

/-- An open delta of 16 int8 elements with two rows. -/
def delta0 : Segment := { segment0 with delta := true, width := 1, setVer := 1, elem := 0, dims := 16, vectors := 2, commits := [(1, 2)], next := 2, cap := 65536 }

/-- A published segment of two vectors, an unpublished one without, and a retired one. -/
def seg1 : Segment := { segment0 with width := 1, setVer := 1, elem := 0, dims := 16, vectors := 2, tomb := 8192 }
def seg3 : Segment := { seg1 with pub := none, vectors := 0 }
def seg4 : Segment := { seg1 with ret := some 1, vectors := 0 }

/-- A collection at epoch 5 with these segments and threshold set 0. -/
def corpus0 : Corpus :=
  { epoch := 5, segs := [(0, delta0), (1, seg1), (3, seg3), (4, seg4)], current := some 0, sets := [(0, { version := 1, width := 1, addr := 32768 })], curSet := some 0 }

/-- Memory with tensor 1, all zeros, and nothing else. -/
def libMem : MemSys := { tensors := [(1, modelTensor 65536)], allocs := [(65536, { len := 65536, part := some 0, kind := .tensor })] }

/-- A node with a request and that collection, whose projection model is that tensor, bound to slot 255. -/
def library (r : Rec) (c : Corpus) : State :=
  { node r with parts := [(0, { cfg := some corpusCfg })], mem := libMem, models := [(255, bound 2)], corpora := [(0, c)], shares := [(0, { owner := some 0 })] }

/-- A request that writes results at host address 64. -/
def recR (op : Nat) (ps : List Byte) : Rec := { rec0 op ps with cmd := { cmd0 op ps with resultAddr := 64 } }

/-- An update command of request 0, in period 0. -/
def upd0 (op : Nat) (prepared : Bool) : Upd :=
  { rid := 0, op := op, period := 0, prepared := prepared, seg := 0, replace := false, items := [], vecs := [], attrs := [], projs := [], ids1 := [], ids2 := [], tomb := 0, loc := 0 }

/-- PARAMS of INSERT: two vectors of 16 int8 elements. -/
def insertPs : List Byte := [0, 0] ++ leBytes 2 16 ++ leBytes 4 2 ++ leBytes 8 4096 ++ leBytes 8 8192 ++ leBytes 8 0

/-- Its request, its node, and the IDs it reads there with the node that has read them. -/
def insertRec : Rec := recR 0x20 insertPs
def inserter : State := library insertRec { corpus0 with loop := { cand := [0] } }
def insertRead : List Byte × State :=
  (inserter.readInput 0 insertRec.flow 4096 32 (List.replicate 32 1)).2.readInput 0 insertRec.flow 8192 16 (leBytes 8 7 ++ leBytes 8 8)

/-- A state with two more locator entries reserved fits its quota of Tier B. -/
def locFits (t : State) : Bool :=
  decide ((t.modCorpus 0 (fun c => { c with locRes := c.locRes + 2 })).useOf 0 1 ≤ (t.modCorpus 0 (fun c => { c with locRes := c.locRes + 2 })).quotaOf 0 1)

theorem witness_Updates_insert : canRun inserter 0x20 insertRec = true ∧ inserter.updateTurn 0 0 = true ∧ inserter.allocHeld = false ∧
    inserter.insertCheck 0 insertRec.cmd = none ∧ insertRec.cmd.param 4 4 = 2 ∧
    ((words8 insertRead.1 2).filter (fun i => i != noVector)).length = 2 ∧ bitOf (insertRec.cmd.param 1 1) 0 = false ∧
    (insertRead.2.deltaFor 0 0 16 2).map (fun y => (y.1, locFits y.2)) = some (0, true) := by decide +kernel

theorem witness_Updates_insert_refused : let s := library insertRec { corpus0 with curSet := none }
    s.updateTurn 0 0 = true ∧ s.insertCheck 0 insertRec.cmd = some scBadHandle ∧ cpls (after (.insert 0 0 5 [] [] []) s) = [(5, scBadHandle, 0, 0, 0)] := by decide +kernel

theorem witness_Updates_turn : let s : State := { inserter with recs := [(0, recR 0x21 []), (1, { insertRec with q := 1 })] }
    s.readyRec 0 1 5 0x20 = some (1, { insertRec with q := 1 }) ∧ s.updateTurn 0 1 = false := by decide +kernel

theorem test_insert : ((after (.insert 0 0 5 (List.replicate 32 1) (leBytes 8 7 ++ leBytes 8 8) []) inserter).corpus 0).updates.map
    (fun u => (u.op, u.seg, u.loc, u.items.map (fun i => (i.id, i.row)))) = [(0x20, 0, 2, [(7, some 2), (8, some 3)])] := by decide +kernel

theorem witness_Updates_delete : let r := recR 0x21 (leBytes 8 1 ++ leBytes 8 4096)
    canRun (library r corpus0) 0x21 r = true ∧ r.cmd.param 0 4 = 1 ∧ (library r corpus0).updateTurn 0 0 = true ∧ (library r corpus0).deleteCheck 0 r.cmd = none ∧
    1 ≤ ((library r corpus0).readInput 0 (0, false) 4096 8 (leBytes 8 7)).2.youngFree 0 ∧
    (((after (.delete 0 0 5 (leBytes 8 7)) (library r corpus0)).corpus 0).updates.map (fun u => (u.op, u.tomb, u.items.map (fun i => i.id)))) = [(0x21, 1, [7])] := by
  decide +kernel

theorem witness_Updates_delete_full : let r := recR 0x21 (leBytes 8 1 ++ leBytes 8 4096)
    let s := library r { corpus0 with youngRes := 262144 }
    s.deleteCheck 0 r.cmd = none ∧ (s.readInput 0 (0, false) 4096 8 (leBytes 8 7)).2.youngFree 0 < 1 ∧ cpls (after (.delete 0 0 5 (leBytes 8 7)) s) = [(5, scQuota, 0, 0, 0)] ∧
    let z := recR 0x21 (leBytes 8 0 ++ leBytes 8 4096)
    (library z corpus0).deleteCheck 0 z.cmd = some scBadCommand := by decide +kernel

/-- Request 0 under way with an update in a later period. -/
def preparing (op : Nat) : State := { library { recR op [] with phase := .running } { corpus0 with updates := [upd0 op false] } with time := 2000000 }

theorem witness_Updates_prepare : (preparing 0x21).recOf 0 0 5 = some (0, { recR 0x21 [] with phase := .running }) ∧
    ((preparing 0x21).corpus 0).updates = [upd0 0x21 false] ∧ (upd0 0x21 false).period < (preparing 0x21).periodOf 0 (preparing 0x21).now ∧
    ((after (.updatePrepare 0 0 5) (preparing 0x21)).corpus 0).updates = [upd0 0x21 true] ∧ ((preparing 0x20).corpus 0).updates = [upd0 0x20 false] ∧
    (preparing 0x20).projModel 0 = some (1, modelTensor 65536) ∧
    ((preparing 0x20).mayRun 0 (((preparing 0x20).sketchStage 0).map (fun g => g.place) |>.getD 1) 0 1).1 = true ∧
    (library (recR 0x21 []) { corpus0 with updates := [upd0 0x21 false] }).periodOf 0 0 ≤ (upd0 0x21 false).period := by decide +kernel

theorem witness_Updates_prepare_publish : let u := { upd0 0x24 false with ids1 := [3], ids2 := [1] }
    let s : State := { preparing 0x24 with corpora := [(0, { corpus0 with updates := [u] })] }
    (s.corpus 0).updates = [u] ∧ u.period < s.periodOf 0 s.now ∧ ((after (.updatePrepare 0 0 5) s).corpus 0).youngRes = min (s.youngFree 0) (s.supersedeCount 0 [3] [1]) := by
  decide +kernel

/-- A publication finds a SET_ID and a place. -/
theorem publishSet_isSome (s u : State) (th : List Nat) (n i : Nat) (g : Stage) (h1 : s.sketchStage 0 = some g)
    (h2 : (s.modCorpus 0 (fun c => { c with curSet := none })).sweepSets 0 = u) (h3 : (List.range (u.pcfg 0).thrSets).find? (fun i => (kvGet? i (u.corpus 0).sets).isNone) = some i)
    (h4 : (u.alloc 0 0 (64 + 4 * widthBits (g.param % 4)) .thresholds).isSome = true) : (s.publishSet 0 th false n).isSome = true := by
  obtain ⟨⟨a, v⟩, h4⟩ := Option.isSome_iff_exists.mp h4
  rw [State.publishSet]
  simp only [h1, h2, h3, h4, Option.isSome_some]

/-- PARAMS of THRESHOLD_PUBLISH for 128 bits. -/
def thrPs (src addr : Nat) : List Byte := leBytes 1 src ++ [1] ++ leBytes 6 0 ++ leBytes 8 addr

theorem witness_Updates_publish_host : let r := rec0 0x12 (thrPs 1 4096)
    let s := library r corpus0
    let s1 := (s.readInput 0 r.flow 4096 512 (List.replicate 512 0)).2
    (canRun s 0x12 r = true ∧ s.allocHeld = false ∧ s.thresholdCheck 0 r.cmd = none ∧ s.sketchStage 0 = some sketch128 ∧ widthBits (sketch128.param % 4) = 128 ∧
      r.cmd.param 0 1 = 1 ∧ r.cmd.param 8 8 = 4096 ∧ (dec32 0).isNan = false ∧ s.thresholdCheck 0 (cmd0 0x12 (thrPs 2 4096)) = some scBadCommand ∧
      ({ s with load := some { rid := 1, image := [], entry := 0, applying := true } } : State).allocHeld = true) ∧ (s1.publishSet 0 (List.replicate 128 0) false 0).isSome = true := by
  refine ⟨by decide +kernel, publishSet_isSome _ _ _ _ 1 sketch128 (by decide +kernel) rfl (by decide +kernel) ?_⟩
  obtain ⟨b, -, h⟩ := State.alloc_some (((State.readInput (library (rec0 0x12 (thrPs 1 4096)) corpus0) 0 (0, false) 4096 512 (List.replicate 512 0)).2.modCorpus 0
    (fun c => { c with curSet := none })).sweepSets 0) 0 0 576 0 .thresholds (by decide +kernel) (by decide) (by decide +kernel) (.inl (by decide))
  exact Option.isSome_iff_exists.mpr ⟨_, h⟩

/-- A loop with a candidate from 4,096 inserts. -/
def loop0 : SketchLoop := { cand := List.replicate 128 0, dev := List.replicate 128 0, taken := List.replicate 128 4096, seen := 4096 }

theorem witness_Updates_publish_loop : let r := rec0 0x12 (thrPs 0 0)
    let s := library r { corpus0 with loop := loop0 }
    (canRun s 0x12 r = true ∧ s.thresholdCheck 0 r.cmd = none ∧ r.cmd.param 0 1 = 0 ∧ (s.corpus 0).loop.cand = List.replicate 128 0 ∧ 4096 ≤ (s.corpus 0).loop.seen) ∧
    (s.publishSet 0 (List.replicate 128 0) false (s.corpus 0).loop.samples).isSome = true := by
  refine ⟨by decide +kernel, publishSet_isSome _ _ _ _ 1 sketch128 (by decide +kernel) rfl (by decide +kernel) ?_⟩
  obtain ⟨b, -, h⟩ := State.alloc_some (((library (rec0 0x12 (thrPs 0 0)) { corpus0 with loop := loop0 }).modCorpus 0
    (fun c => { c with curSet := none })).sweepSets 0) 0 0 576 0 .thresholds (by decide +kernel) (by decide) (by decide +kernel) (.inl (by decide))
  exact Option.isSome_iff_exists.mpr ⟨_, h⟩

theorem witness_Updates_fold : let s := library (rec0 0 []) { corpus0 with young := [(0, 0, 3), (0, 1, 9)], fold := 4 }
    s.foldNow 0 = 5 ∧ ((after (.tombstoneFold 0) s).corpus 0).young = [(0, 1, 9)] := by decide +kernel

/-- PARAMS of SEGMENT_BUILD of segment 1. -/
def buildPs : List Byte := [0, 1] ++ leBytes 8 0 ++ leBytes 2 16 ++ leBytes 20 0 ++ leBytes 2 1

/-- Its request, as a long operation that runs. -/
def buildRec : Rec := { recL 0x22 buildPs with phase := .running }

/-- The build before its start. -/
def build0 : Build :=
  { seg := 2, part := 0, sources := [1], started := none, setId := 0, setVer := 0, before := [9], linked := 0, items := [], desc := [], draft := none, restarts := 0 }

theorem witness_Segments_build : let r := rec0 0x22 buildPs
    let s := library r corpus0
    canRun s 0x22 r = true ∧ s.buildFieldsOk 0 r.cmd = true ∧ r.cmd.segIds 32 1 = [1] ∧ s.seg? 0 1 = some seg1 ∧ s.freeSeg 0 = some 2 ∧
    (kvGet? 0 (after (.segmentBuild 0 0 5) s).builds).map (fun b => (b.seg, b.sources)) = some (2, [1]) := by decide +kernel

/-- A node whose build may start. -/
def starter : State := { library buildRec corpus0 with builds := [(0, build0)] }

/-- The same build with its output. -/
def build1 (g : Segment) : Build := { build0 with started := some 5, setId := 0, setVer := 1, items := [(1, 0), (1, 1)], draft := some g }

theorem witness_Segments_waits : isUnder starter 0x22 buildRec = true ∧ (build1 segment0).started.isSome = true ∧
    ({ starter with load := some { rid := 1, image := [], entry := 0, applying := true } } : State).allocHeld = true ∧
    ({ starter with time := 1 } : State).atBoundary 0 = false ∧ 9 ∈ build0.before ∧ (kvGet? 9 (kvPut 9 (recR 0x21 []) starter.recs)).isSome = true := by decide +kernel

/-- The state once it has these allocations and its output. -/
def started (as : KV Alloc) (g : Segment) : State := (starter.withAllocs as).putBuilds (kvPut 0 (build1 g) (starter.withAllocs as).builds)

/-- Its output before it has space. -/
def built0 : Segment :=
  Segment.mk false 1 0 1 32 0 16 2 [] 16 [] 64 none none 0 0 0 0 0 0 0 [] false 2 0 5 [1] [(1, 0), (1, 1)] [] [] [] 0

/-- Its allocations once the blocks on channel 0 have theirs. -/
def startAllocs : KV Alloc := [(0, { len := 65536, part := some 0, kind := .segment }), (65536, { len := 65536, part := some 0, kind := .tensor })]

theorem starter_space : ∃ g as, starter.allocSegment 0 built0 2 0 0 0 .segment = some (g, starter.withAllocs as) ∧ (starter.withAllocs as).Roomy 0 7 := by
  have ha := State.allocChan_some starter 0 0 0 (1 * 16 * 2048) 65536 .segment (by decide) (by decide +kernel) (by decide +kernel) (by decide +kernel)
  rw [show kvPut 0 { len := 65536, part := some 0, kind := AllocKind.segment } starter.mem.allocs = startAllocs by decide +kernel] at ha
  obtain ⟨bl, h0⟩ := State.allocBlocks_one starter _ 0 1 16 2 0 0 .segment (by decide +kernel) (by decide) ha
  have r0 : (starter.withAllocs startAllocs).Roomy 0 2 := ⟨by decide, by decide, ⟨rfl, by decide +kernel⟩, by decide +kernel⟩
  obtain ⟨b1, a1, h1, r1⟩ := r0.alloc (by omega) 256 .segment (by omega) (by omega)
  obtain ⟨b2, a2, h2, r2⟩ := r1.alloc (by omega) 128 .segment (by omega) (by omega)
  obtain ⟨b3, a3, h3, r3⟩ := r2.alloc (by omega) 16 .segment (by omega) (by omega)
  obtain ⟨b4, a4, h4, r4⟩ := r3.alloc (by omega) 16 .segment (by omega) (by omega)
  obtain ⟨b5, a5, h5, r5⟩ := r4.alloc (by omega) 64 .segment (by omega) (by omega)
  have hm : (starter.withAllocs a5).allocOpt 0 0 (if (starter.withAllocs a5).metric 0 = 2 then 4 * 2 else 0) .segment = some ([], 0, starter.withAllocs a5) := rfl
  obtain ⟨g, h⟩ := State.allocSegment_some starter _ _ _ _ _ _ 0 2 _ _ _ _ _ built0 _ bl .segment h0 (State.allocOpt_some (by decide) h1) (State.allocOpt_some (by decide) h2)
    (State.allocOpt_some (by decide) h3) (State.allocOpt_some (by decide) h4) (State.allocOpt_some (by decide) h5) hm rfl
  exact ⟨g, a5, h, r5⟩

theorem locator_started (as : KV Alloc) (g : Segment) : (started as g).locatorBytes 0 = 65536 := by
  simp [started, State.withAllocs, State.modMem, State.putMem, State.locatorBytes, State.putBuilds, build1, build0, starter, library, libMem, corpus0, delta0, seg1, seg3, seg4, segment0,
    kvGetD, kvGet?, kvPut]

theorem witness_Segments_start : (isUnder starter 0x22 buildRec = true ∧ buildRec.long = some { running := true, progress := 0, count := 0, lastWrite := 0 } ∧
      kvGet? 0 starter.builds = some build0 ∧ starter.allocHeld = false ∧ starter.atBoundary 0 = true ∧ (∀ i ∈ build0.before, kvGet? i starter.recs = none) ∧ starter.buildItems 0 5 [1] = [(1, 0), (1, 1)] ∧
      starter.clustersGone 0 = false ∧ (starter.corpus 0).curSet = some 0 ∧ kvGet? 0 (starter.corpus 0).sets = some { version := 1, width := 1, addr := 32768 } ∧
      starter.segShape 0 = some (16, 0) ∧ starter.sketchStage 0 = some sketch128 ∧ dflt (buildRec.cmd.param 2 1) 32 = 32 ∧ dflt (buildRec.cmd.param 10 2) 1024 = 16 ∧
      buildRec.cmd.param 9 1 = 0) ∧
    ∃ g as, starter.allocSegment 0 built0 2 0 0 0 .segment = some (g, starter.withAllocs as) ∧ (started as g).useOf 0 1 ≤ (started as g).quotaOf 0 1 := by
  refine ⟨by decide +kernel, ?_⟩
  obtain ⟨g, as, h, r⟩ := starter_space
  refine ⟨g, as, h, ?_⟩
  have hr : (started as g).Roomy 0 7 := ⟨r.few, r.units, r.sound, r.quota⟩
  have hl : (started as g).locatorBytes 0 = 65536 := locator_started as g
  have hq : (started as g).quotaOf 0 1 = starter.quotaOf 0 1 := rfl
  have hs : starter.quotaOf 0 1 = 2 ^ 32 := by decide +kernel
  have := hr.use_b
  omega

/-- The build under way with space for its one vector. -/
def underBuild : State :=
  { library buildRec corpus0 with
    builds := [(0, { build0 with started := some 5, setVer := 1, items := [(1, 0)], draft := some { built0 with vectors := 1, origin := [(1, 0)], blocks := [(0, 0)], adj := 16384 } })] }

theorem witness_Segments_done : isUnder underBuild 0x22 buildRec = true ∧ underBuild.arraysGone 0 = false ∧ (underBuild.arrayFor 0 0).isSome = true ∧ (underBuild.mayRun 0 1 0 1).1 = true ∧
    ({ underBuild with shares := [] } : State).arrayFor 0 0 = none ∧
    underBuild.projModel 0 = some (1, modelTensor 65536) ∧ cpls (after (.segmentBuildDone 0 0 5 []) underBuild) = [(5, scDone, 1, 4294967298, 5)] := by decide +kernel

theorem witness_Segments_done_waits : let s : State := { underBuild with mem := modelMem 65536, parts := [(0, { cfg := some { corpusCfg with stages := [{ sketch128 with place := 0 }] } })] }
    isUnder s 0x22 buildRec = true ∧ s.arraysGone 0 = false ∧ (((s.sketchStage 0).map (fun st => st.place)).getD 1) = 0 ∧ (s.arrayFor 0 0).isSome = true ∧
    s.projModel 0 = some (1, modelTensor 65536) ∧ (s.mayRun 0 0 0 1).1 = false := by decide +kernel

/-- PARAMS of SEGMENT_IMPORT of tensor 1. -/
def importPs : List Byte := leBytes 8 0 ++ leBytes 8 1

theorem witness_Segments_import : let r := rec0 0x23 importPs
    let m := { libMem with tensors := [(1, { modelTensor 65536 with bytes := 192 })] }
    let s : State := { library r corpus0 with mem := m }
    canRun s 0x23 r = true ∧ s.importCmdCheck 0 r.cmd = none ∧ s.importCmdCheck 0 (cmd0 0x23 (leBytes 8 2)) = some scBadCommand ∧ s.tensorOf 0 1 = some (1, { modelTensor 65536 with bytes := 192 }) ∧ s.freeSeg 0 = some 2 ∧
    (kvGet? 0 (after (.segmentImport 0 0 5) s).builds).map (fun b => (b.seg, b.desc.length)) = some (2, 192) := by decide +kernel

/-- The descriptor of a segment of one vector of 16 int8 elements, with its parts in tensor 1. -/
def importDesc : List Byte :=
  leBytes 2 0 ++ [0, 1, 0, 16, 0, 0] ++ leBytes 4 1 ++ leBytes 4 1 ++ leBytes 2 16 ++ [1, 0] ++ leBytes 4 16 ++ leBytes 4 1 ++ leBytes 4 64 ++ leBytes 24 0 ++
  leBytes 8 98304 ++ leBytes 8 98432 ++ leBytes 8 98560 ++ leBytes 8 98624 ++ leBytes 8 98688 ++ leBytes 8 0 ++ leBytes 8 0 ++ leBytes 80 0 ++
  leBytes 2 0 ++ leBytes 2 0 ++ leBytes 4 32

/-- An import of it under way, or of a descriptor of nothing. -/
def importer (desc : List Byte) : State :=
  { library { recL 0x23 importPs with phase := .running } corpus0 with builds := [(0, { build0 with sources := [], desc := desc })] }

theorem witness_Segments_import_done : let s := importer importDesc
    let g := importSegment importDesc
    isUnder s 0x23 { recL 0x23 importPs with phase := .running } = true ∧ s.importCheck 0 importDesc g false = none ∧
    (recL 0x23 importPs).long = some { running := true, progress := 0, count := 0, lastWrite := 0 } ∧ bitOf ((recL 0x23 importPs).cmd.param 0 1) 0 = false ∧
    ((((s.chargeImport 0 g).putBuilds []).modCorpus 0 (fun c => { c with segs := kvPut 2 g c.segs })).useOf 0 1 ≤
      (((s.chargeImport 0 g).putBuilds []).modCorpus 0 (fun c => { c with segs := kvPut 2 g c.segs })).quotaOf 0 1) ∧
    cpls (after (.segmentImportDone 0 0 5) s) = [(5, scDone, 1, 4294967298, 0)] ∧
    (importer []).importCheck 0 [] (importSegment []) false = some (scBadCommand, noVector) ∧
    cpls (after (.segmentImportDone 0 0 5) (importer [])) = [(5, scBadCommand, 0, 0, noVector)] := by decide +kernel

/-- PARAMS of SEGMENT_PUBLISH and SEGMENT_RETIRE that name one segment. -/
def namePs (i : Nat) : List Byte := [1, 0] ++ leBytes 6 0 ++ leBytes 2 i

theorem witness_Segments_publish : let r := fun i => rec0 0x24 (namePs i)
    canRun (library (r 3) corpus0) 0x24 (r 3) = true ∧ (library (r 3) corpus0).updateTurn 0 0 = true ∧ (r 3).cmd.segIds 8 1 = [3] ∧ (library (r 3) corpus0).publishCheck 0 0 [3] [] = none ∧
    ((after (.segmentPublish 0 0 5) (library (r 3) corpus0)).corpus 0).updates.map (fun u => (u.op, u.ids1)) = [(0x24, [3])] ∧
    (library (r 9) corpus0).publishCheck 0 0 [9] [] = some scBadHandle ∧ cpls (after (.segmentPublish 0 0 5) (library (r 9) corpus0)) = [(5, scBadHandle, 0, 0, 0)] := by
  decide +kernel

theorem witness_Segments_retire : let r := fun i => rec0 0x25 (namePs i)
    canRun (library (r 3) corpus0) 0x25 (r 3) = true ∧ (library (r 3) corpus0).updateTurn 0 0 = true ∧ (library (r 3) corpus0).retireCheck 0 0 [3] = none ∧ (library (r 3) corpus0).seg? 0 3 = some seg3 ∧
    cpls (after (.segmentRetire 0 0 5) (library (r 3) corpus0)) = [(5, scDone, 0, 0, 0)] ∧ (library (r 1) corpus0).retireCheck 0 0 [1] = none ∧
    ((after (.segmentRetire 0 0 5) (library (r 1) corpus0)).corpus 0).updates.map (fun u => (u.op, u.ids2)) = [(0x25, [1])] ∧
    (library (r 9) corpus0).retireCheck 0 0 [9] = some scBadHandle ∧ cpls (after (.segmentRetire 0 0 5) (library (r 9) corpus0)) = [(5, scBadHandle, 0, 0, 0)] := by
  decide +kernel

theorem witness_Segments_free : let s := library (rec0 0 []) { corpus0 with fold := 5 }
    s.seg? 0 4 = some seg4 ∧ 1 ≤ s.foldNow 0 ∧ (after (.segmentFree 0 4) s).seg? 0 4 = none ∧ s.seg? 0 1 = some seg1 ∧ seg1.ret = none ∧
    s.foldNow 0 = (s.corpus 0).fold := by decide +kernel

theorem witness_Segments_build_admitted : let r := rec0 0x22 buildPs
    (library r corpus0).admittedRec 0 0 5 0x22 = some (0, r) ∧ bitOf (r.cmd.param 0 1) 0 = false ∧ (seg1.ret = none ∧ seg1.delta = false ∧ seg1.pub.isSome = true) ∧
    (library r corpus0).named r = library r corpus0 := by decide +kernel

/-- The same with SEAL_DELTA, behind a DELETE. -/
def sealRec : Rec := { rec0 0x22 ([1, 1] ++ buildPs.drop 2) with q := 1, order := 1 }
def sealer : State := { library (recR 0x21 []) corpus0 with recs := [(0, recR 0x21 []), (1, sealRec)] }

theorem witness_Segments_build_seal : sealer.admittedRec 0 1 5 0x22 = some (1, sealRec) ∧ bitOf (sealRec.cmd.param 0 1) 0 = true ∧ sealer.updateTurn 0 1 = false ∧
    let r := rec0 0x22 ([1, 1] ++ buildPs.drop 2)
    (library r corpus0).updateTurn 0 0 = true ∧ ((after (.segmentBuild 0 0 5) (library r corpus0)).corpus 0).current = none ∧
    (kvGet? 0 (after (.segmentBuild 0 0 5) (library r corpus0)).builds).map (fun b => b.sources) = some [1, 0] := by decide +kernel

theorem witness_Segments_build_refused : let r := rec0 0x22 (buildPs.take 32 ++ leBytes 2 9)
    canRun (library r corpus0) 0x22 r = true ∧ (library r corpus0).buildCheck 0 r.cmd = some scBadHandle ∧
    cpls (after (.segmentBuild 0 0 5) (library r corpus0)) = [(5, scBadHandle, 0, 0, 0)] := by decide +kernel

/-- The build under way whose core another partition takes. -/
def buildCoreWaiter : State :=
  { underBuild with
    parts := [(0, { cfg := some { corpusCfg with privileged := true }, busy := [(0, 0, 500)], spill := [(0, 0)] }), (1, { cfg := some { clusterMask := 1, clusterW := [1] } })]
    recs := [(0, buildRec), (1, { rec0 0x20 [] with part := 1 })] }

theorem witness_Segments_done_core : isUnder buildCoreWaiter 0x22 buildRec = true ∧ buildCoreWaiter.arraysGone 0 = false ∧ buildCoreWaiter.coreWaits 0 = true ∧
    underBuild.coreWaits 0 = false := by decide +kernel

theorem witness_Updates_named : inserter.named insertRec = inserter ∧ (library (recR 0x21 []) corpus0).named (recR 0x21 []) = library (recR 0x21 []) corpus0 := by decide +kernel

/-! ### Embedding tables -/

/-- A table of partition 0 in two shards of 8 rows of 8 fp32 elements: this node, node 1, holds the first at node address 65536, node 7 the other. -/
def table0 : Table :=
  { part := 0, rowType := 2, tier := 0, dim := 8, hash := false, opt := 0, rows := 16, driftRows := 2, lr := 0, eps := 0, accumRows := 1024, check := 77, shard := some 0,
    map := [{ node := 1, part := 0, ep := 4, stream := 0, first := 0 }, { node := 7, part := 2, ep := 3, stream := 5, first := 8 }], addr := 65536, tensor := none,
    state := none, drift := some 131072, areas := [65536, 131072], version := 1, old := none, steps := [], got := [], ends := [], sent := [], endedTo := [], ended := 0,
    issued := 0, lastClosed := 0, closers := [], drifts := [], slots := [], held := [], recalls := [], switch := none, dying := none, served := [], loads := [] }

/-- The same table in one shard. -/
def tableAlone : Table := { table0 with map := [{ node := 1, part := 0, ep := 4, stream := 0, first := 0 }] }

/-- A node as node 1, with a route to node 7 over one link, that holds a table as table 3. -/
def holding (s : State) (t : Table) : State :=
  ({ s with emb := { s.emb with tables := [(3, t)] }, fab := { s.fab with routes := [(7, { dist := 1, links := [0], override := false })] } } : State).setFld
    rFabStatus fFabStatus_NODE_ID 1

/-- A request of partition 0 with these PARAMS on such a node. -/
def tabled (op : Nat) (ps : List Byte) (t : Table) : State := holding (one op ps) t

/-- PARAMS of TABLE_CREATE for table 3: ROW_TYPE 2 in Tier A, 8 elements, 16 rows in one shard, the map in tensor 1, the rows in tensor 2. -/
def createPs (ty : Nat) : List Byte :=
  leBytes 2 3 ++ leBytes 1 ty ++ leBytes 1 0 ++ leBytes 2 8 ++ leBytes 1 0 ++ leBytes 1 0 ++ leBytes 8 16 ++ leBytes 8 1 ++ leBytes 2 1 ++ [0, 0] ++ leBytes 4 0 ++
  leBytes 8 2 ++ leBytes 4 0 ++ leBytes 4 0 ++ leBytes 4 1024

/-- A node with the map and the rows as tensors, and the quota and stages of its partition. -/
def creator (ty : Nat) : State :=
  (({ one 0x30 (createPs ty) with
    parts := [(0, { cfg := some (modelCfg []) })]
    mem := { (({} : State).writeMem 65536 [1]).mem with
      tensors := [(1, { modelTensor 65536 with bytes := 64 }), (2, { modelTensor 131072 with bytes := 1024 })]
      allocs := [(65536, { len := 65536, part := some 0, kind := .tensor }), (131072, { len := 65536, part := some 0, kind := .tensor })] } } : State).setFld
    rFabStatus fFabStatus_NODE_ID 1)

/-- The bytes of the map there. -/
def mapBytes : List Byte := leBytes 16 1

theorem witness_TableCommands_create : let s := creator 2; let r := rec0 0x30 (createPs 2)
    canRun s 0x30 r = true ∧ s.allocHeld = false ∧ s.tableFormCheck 0 r.cmd = none ∧ s.tensorOf 0 (r.cmd.param 16 8) = some (1, { modelTensor 65536 with bytes := 64 }) ∧
    s.mapBytes r.cmd { modelTensor 65536 with bytes := 64 } = mapBytes ∧
    s.shardOf 0 r.cmd mapBytes = ([{ node := 1, part := 0, ep := 0, stream := 0, first := 0 }], some 0, 16) := by decide +kernel

theorem creator_areas (s : State) (h : s = creator 2 ∨ s = (creator 2).access 0 65536 16) : (s.allocAreas 0 0 [0, 0, 0, 131072]).isSome = true := by
  rcases h with rfl | rfl
  · obtain ⟨b, -, h⟩ := State.alloc_some (creator 2) 0 0 131072 (2 ^ 31) .table (by decide +kernel) (by decide) (by decide +kernel) (.inr ⟨rfl, 1, by decide, rfl⟩)
    simp [State.allocAreas, h]
  · obtain ⟨b, -, h⟩ := State.alloc_some ((creator 2).access 0 65536 16) 0 0 131072 (2 ^ 31) .table (by decide +kernel) (by decide) (by decide +kernel)
      (.inr ⟨rfl, 1, by decide, rfl⟩)
    simp [State.allocAreas, h]

theorem witness_TableCommands_create_fits : (creator 2).tableCreateCheck 0 (rec0 0x30 (createPs 2)).cmd = none ∧
    ((((creator 2).access 0 65536 16).tableSizes 0 (rec0 0x30 (createPs 2)).cmd true 16) = [0, 0, 0, 131072]) ∧
    (((creator 2).access 0 65536 16).allocAreas 0 0 [0, 0, 0, 131072]).isSome = true := by
  refine ⟨?_, by decide +kernel, creator_areas _ (.inr rfl)⟩
  have h1 : (creator 2).tableFormCheck 0 (rec0 0x30 (createPs 2)).cmd = none := by decide +kernel
  have h2 : (creator 2).tensorOf 0 ((rec0 0x30 (createPs 2)).cmd.param 16 8) = some (1, { modelTensor 65536 with bytes := 64 }) := by decide +kernel
  have h3 : (creator 2).tableAreas 0 (rec0 0x30 (createPs 2)).cmd { modelTensor 65536 with bytes := 64 } = [0, 0, 0, 131072] := by decide +kernel
  have h4 : (rec0 0x30 (createPs 2)).cmd.param 3 1 = 0 := by decide
  have h5 : (creator 2).emb.tables.length < 4096 := by decide
  rw [State.tableCreateCheck, h1]
  simp only [State.tableFits, h2, h4, h5, Option.bind_some, h3, creator_areas _ (.inl rfl)]
  simp

theorem witness_TableCommands_create_refused : canRun (creator 4) 0x30 (rec0 0x30 (createPs 4)) = true ∧ (creator 4).allocHeld = false ∧
    (creator 4).tableCreateCheck 0 (rec0 0x30 (createPs 4)).cmd = some scBadCommand ∧ cpls (after (.tableCreate 0 0 5) (creator 4)) = [(5, scBadCommand, 0, 0, 0)] ∧
    ({ creator 2 with load := some { rid := 1, image := [], entry := 0, applying := true } } : State).allocHeld = true := by decide +kernel

/-- PARAMS that name table 3 and, at offset 8, a number. -/
def tablePs (n : Nat) : List Byte := leBytes 2 3 ++ leBytes 6 0 ++ leBytes 8 n

theorem witness_TableCommands_close : let s := tabled 0x33 (tablePs 5) table0; let u := tabled 0x33 (tablePs 0) table0
    canRun s 0x33 (rec0 0x33 (tablePs 5)) = true ∧ s.tableOf 0 3 = some table0 ∧
    ((after (.tableStepClose 0 0 5) s).table? 3).map (fun x => (x.closers.map (fun c => (c.rid, c.step)), x.issued)) = some ([(0, 5)], 5) ∧
    canRun u 0x33 (rec0 0x33 (tablePs 0)) = true ∧ u.stepCloseCheck 0 (cmd0 0x33 (tablePs 0)) = some scBadCommand ∧ table0.lastClosed < 5 ∧
    cpls (after (.tableStepClose 0 0 5) u) = [(5, scBadCommand, 0, 0, 0)] := by decide +kernel

/-- A node with new rows for the table in tensor 1. -/
def switching : State :=
  let s := tabled 0x34 (tablePs 1) table0
  { s with mem := { tensors := [(1, modelTensor 262144)], allocs := [(262144, { len := 65536, part := some 0, kind := .tensor })] } }

theorem witness_TableCommands_switch : canRun switching 0x34 (rec0 0x34 (tablePs 1)) = true ∧ switching.tableOf 0 3 = some table0 ∧
    switching.tensorOf 0 1 = some (1, modelTensor 262144) ∧ switching.switchCheck 0 (cmd0 0x34 (tablePs 1)) = none ∧ table0.old = none ∧ table0.switch = none ∧
    switching.switchCheck 0 (cmd0 0x34 (tablePs 2)) = some scBadHandle ∧
    (((after (.tableSwitch 0 0 5) switching).table? 3).map (fun x => (x.addr, x.version))) = some (262144, 2) ∧
    cpls (after (.tableSwitch 0 0 5) switching) = [(5, scDone, 0, 2, 0)] := by decide +kernel

theorem witness_TableCommands_destroy : let s := tabled 0x35 (tablePs 0) table0
    canRun s 0x35 (rec0 0x35 (tablePs 0)) = true ∧ s.tableOf 0 3 = some table0 ∧ table0.dying = none ∧ (one 0x35 (tablePs 0)).destroyCheck 0 (cmd0 0x35 (tablePs 0)) = some scBadHandle ∧ (after (.tableDestroy 0 0 5) s).emb.tables = [] ∧
    cpls (after (.tableDestroy 0 0 5) s) = [(5, scDone, 0, 0, 0)] := by decide +kernel

theorem witness_TableCommands_again : ∀ op ∈ [0x33, 0x34, 0x35], let s := holding (under op (tablePs 0)) table0
    isUnder s op { rec0 op (tablePs 0) with phase := .running } = true ∧ s.readyRec 0 0 5 op = none := by decide +kernel

theorem witness_TableCommands_settle : let s := holding (under 0x34 (tablePs 1)) { table0 with switch := some 0, version := 2 }
    let u := holding (under 0x35 (tablePs 0)) { table0 with dying := some 0, switch := some 0 }
    (kvGet? 0 s.recs).isSome = true ∧ s.pstate 0 ≠ stResetting ∧ cpls (s.settleTable 3) = [(5, scDone, 0, 2, 0)] ∧
    u.workBefore 0 3 0 = false ∧ (kvGet? 0 u.recs).isSome = true ∧ u.pstate 0 ≠ stResetting ∧ cpls (u.settleTable 3) = [(5, scDone, 0, 0, 0)] := by decide +kernel

/-- PARAMS of TABLE_LOOKUP of one index by index, its indices and results in host memory. -/
def lookupPs : List Byte := leBytes 2 3 ++ [0, 0] ++ leBytes 4 1 ++ leBytes 8 0 ++ leBytes 8 4096 ++ leBytes 8 0

/-- The request. -/
def lookupRec : Rec := { rec0 0x31 lookupPs with cmd := { cmd0 0x31 lookupPs with resultAddr := 64 } }

/-- Its lookup, pinned to version 1, with what sub-requests still have to bring. -/
def lookup0 (want : KV (List Nat)) : Lookup := { table := 3, version := 1, idx := [], bags := [], pool := 0, outType := 0, vals := [], want := want, remote := 0 }

/-- A pipeline stage for lookups or updates. -/
def embStage (kind : Nat) : Stage := { kind := kind, place := 0, pool := 2, nextA := 0, nextB := 0, param := 0 }

/-- A node with that request and lookup. -/
def looker : State :=
  holding { node lookupRec with parts := [(0, { cfg := some { stages := [embStage 7] } })], emb := { lookups := [(0, lookup0 [])] }, ctxs := [(0, ctx0 .owned 0)] } table0

theorem witness_LookupsAndUpdates_lookup : canRun looker 0x31 lookupRec = true ∧ looker.openTable 0 3 0 = some table0 ∧
    looker.lookupCheck 0 lookupRec.cmd (looker.openTable 0 3 0) = none ∧ looker.stageParam 0 7 = some 0 ∧ looker.ctxIn 0 (looker.stagePool 0 7) = true ∧
    (lookupRec.cmd.param 0 2, lookupRec.cmd.param 2 1, lookupRec.cmd.param 4 4, lookupRec.cmd.param 8 4, lookupRec.cmd.param 16 8) = (3, 0, 1, 0, 4096) ∧
    (looker.readInput 0 (0, false) 4096 8 (leBytes 8 2)).2.tableOf 0 3 = some table0 ∧ (looker.readInput 0 (0, false) 4096 8 (leBytes 8 2)).2.clustersGone 0 = false ∧
    kvGet? 0 (looker.readInput 0 (0, false) 4096 8 (leBytes 8 2)).2.emb.lookups = some (lookup0 []) ∧ (lookup0 []).version = table0.version := by decide +kernel

theorem witness_LookupsAndUpdates_bags : offsetsOk 1 [0, 1] = true ∧ looker.lookupCheck 0 lookupRec.cmd none = some scBadHandle ∧
    ({ looker with ctxs := [] } : State).ctxIn 0 (looker.stagePool 0 7) = false ∧ ({ looker with ctxs := [] } : State).lookupCheck 0 lookupRec.cmd (some table0) = none := by
  decide +kernel

theorem witness_LookupsAndUpdates_local : let s := (looker.readInput 0 (0, false) 4096 8 (leBytes 8 2)).2
    [2].filter (validIndex table0.rows) = [2] ∧ s.placeRow 3 table0 2 true = none ∧ s.mem.isDamaged (table0.rowPlace table0.addr 2).1 table0.stride = false ∧
    cpls (after (.tableLookup 0 0 5 (leBytes 8 2) []) looker) = [(5, scDone, 1, 1 + 2 ^ 32, 0)] := by decide +kernel

theorem witness_LookupsAndUpdates_remote : let s := (looker.readInput 0 (0, false) 4096 8 (leBytes 8 9)).2
    [9].filter (validIndex table0.rows) = [9] ∧ s.placeRow 3 table0 9 true = some 7 ∧ s.reachable 7 = true ∧
    (after (.tableLookup 0 0 5 (leBytes 8 9) []) looker).fab.handoff.map (fun k => (k.vc, k.dstNode, k.dstPart, k.args)) = [(3, 7, 2, [3, 77, 0, 9])] := by decide +kernel

theorem witness_LookupsAndUpdates_finish : kvGet? 0 looker.emb.lookups = some (lookup0 []) ∧ looker.table? 3 = some table0 ∧ kvGet? 0 looker.recs = some lookupRec ∧
    looker.pstate 0 ≠ stResetting ∧ cpls (looker.finishLookup 0) = [(5, scDone, 0, 1, 0)] := by decide +kernel

/-- PARAMS of TABLE_UPDATE of one fp32 gradient row for step 5. -/
def updatePs : List Byte := leBytes 2 3 ++ [0, 0] ++ leBytes 4 1 ++ leBytes 8 5 ++ leBytes 8 4096 ++ leBytes 8 8192

/-- A node with that request. -/
def updater (t : Table) : State := holding { one 0x32 updatePs with parts := [(0, { cfg := some { stages := [embStage 8] } })], ctxs := [(0, ctx0 .owned 0)] } t

/-- What it has read. -/
def updateRead (t : Table) (x : Nat) : State := (((updater t).readInput 0 (0, false) 4096 8 (leBytes 8 x)).2.readInput 0 (0, false) 8192 32 (List.replicate 32 0)).2

theorem witness_LookupsAndUpdates_update : let s := updater table0; let r := rec0 0x32 updatePs
    canRun s 0x32 r = true ∧ s.openTable 0 3 0 = some table0 ∧ s.updateCheck 0 r.cmd (s.openTable 0 3 0) = none ∧ s.clustersGone 0 = false ∧
    s.ctxIn 0 (s.stagePool 0 8) = true ∧ (r.cmd.param 0 2, r.cmd.param 2 1, r.cmd.param 4 4, r.cmd.param 8 8, r.cmd.param 16 8, r.cmd.param 24 8) = (3, 0, 1, 5, 4096, 8192) ∧
    table0.issued < 5 ∧ s.updateCheck 0 r.cmd none = some scBadHandle ∧ ({ s with ctxs := [] } : State).ctxIn 0 (s.stagePool 0 8) = false := by decide +kernel

theorem witness_LookupsAndUpdates_contributions : (updateRead table0 2).placeRow 3 table0 2 false = none ∧ (updateRead table0 9).placeRow 3 table0 9 false = some 7 ∧
    (updateRead table0 9).reachable 7 = true ∧ cpls (after (.tableUpdate 0 0 5 (leBytes 8 2) []) (updater { table0 with issued := 5 })) = [(5, scQuota, 0, 1 + 2 ^ 32, 0)] ∧
    cpls (after (.tableUpdate 0 0 5 (leBytes 8 2) []) (updater table0)) = [(5, scDone, 1, 2 ^ 32, 0)] ∧
    (after (.tableUpdate 0 0 5 (leBytes 8 9) []) (updater table0)).fab.handoff.map (fun k => (k.vc, k.dstNode, k.args)) = [(4, 7, [3, 77, 5, 9, 0])] := by decide +kernel

/-- The update of request 0 with what it waits for. -/
def tupdate0 (waits : KV (List Nat)) : TUpdate := { table := 3, step := 5, counts := [(9, 1)], waits := waits, okIdx := 0, refused := 0, unique := 1, invalid := 0 }

/-- A node with it. -/
def updating (waits : KV (List Nat)) : State := holding { under 0x32 updatePs with emb := { updates := [(0, tupdate0 waits)] } } table0

theorem witness_LookupsAndUpdates_update_finish : kvGet? 0 (updating []).emb.updates = some (tupdate0 []) ∧ (kvGet? 0 (updating []).recs).isSome = true ∧
    (updating []).pstate 0 ≠ stResetting ∧ cpls ((updating []).finishUpdate 0) = [(5, scDone, 0, 2 ^ 32, 0)] := by decide +kernel

/-! ### Table traffic -/

/-- A packet of node 7 for table 3. -/
def tablePacket (vc op : Nat) (args : List Nat) (data : List Byte) : Packet :=
  { vc := vc, ptype := 0, opcode := op, dstNode := 1, dstEp := 4, srcNode := 7, srcPart := 2, seq := 9, args := args, data := data }

/-- A node whose partition takes requests for the table. -/
def serving (t : Table) : State := holding acceptor t

theorem witness_TableTraffic_request : let k := tablePacket 3 opLookup [3, 77, 0, 2] []
    (serving table0).refusesTable k = false ∧ (serving table0).table? 3 = some table0 ∧ table0.drifting 2 = false ∧ (serving table0).ownerNext 3 table0 2 true = none ∧
    (serving table0).mem.isDamaged (table0.rowPlace table0.addr 2).1 table0.stride = false ∧
    (after (.remoteLookupRequest k) (serving table0)).fab.handoff.map (fun u => (u.ptype, u.dstNode, u.seq, u.data.length)) = [(1, 7, 9, 64)] ∧
    State.reset.refusesTable k = true ∧ (after (.remoteLookupRequest k) State.reset).fab.handoff.map (fun u => (u.ptype, u.args)) = [(2, [scRemoteError])] := by decide +kernel

/-- A node with a lookup that waits for row 9 from node 7 under SEQ 9. -/
def waiting : State :=
  let s := holding { node { lookupRec with phase := .running } with emb := { lookups := [(0, lookup0 [(9, [9])])] } } table0
  { s with fab := { s.fab with out := [(9, { rid := some 0, node := 7, part := 0, sent := 0, timed := false, kind := opLookup, args := [], gen := 0 })] } }

theorem witness_TableTraffic_response : let k := { tablePacket 3 opLookup [scDone, 9, 7, 1, 0] (List.replicate 64 0) with ptype := 1 }
    waiting.isLate k = false ∧ (kvGet? 9 waiting.fab.out).isSome = true ∧ kvGet? 0 waiting.emb.lookups = some (lookup0 [(9, [9])]) ∧ waiting.table? 3 = some table0 ∧
    k.args.headD scRemoteError = scDone ∧ cpls (after (.remoteLookupResponse k) waiting) = [(5, scDone, 0, 1 + 2 ^ 32, 0)] ∧
    cpls (after (.remoteLookupResponse { k with ptype := 2 }) waiting) = [(5, scRemoteError, 0, 0, 0)] ∧ waiting.pstate 0 ≠ stResetting ∧
    kvGet? 8 waiting.fab.out = none ∧ waiting.isLate { k with seq := 8 } = false := by decide +kernel

theorem witness_TableTraffic_contribution : let k := tablePacket 4 opContrib [3, 77, 5, 2, 0] (List.replicate 32 0)
    (serving table0).refusesTable k = false ∧ (serving table0).ownerNext 3 table0 2 false = none ∧ table0.lastClosed < 5 ∧
    ((after (.contributionArrival k) (serving table0)).table? 3).map (fun x => x.steps.map (fun z => (z.step, z.acc))) = some [(5, [(2, List.replicate 8 0)])] ∧
    (after (.contributionArrival k) (serving table0)).fab.handoff.map (fun u => (u.ptype, u.args)) = [(1, [0, 1])] := by decide +kernel

/-- The update that waits for its contribution. -/
def awaiting : State :=
  let s := updating [(9, [9])]
  { s with fab := { s.fab with out := [(9, { rid := some 0, node := 7, part := 0, sent := 0, timed := false, kind := opContrib, args := [], gen := 0 })] } }

theorem witness_TableTraffic_result : let k := { tablePacket 4 opContrib [0, 7] [] with ptype := 1 }
    awaiting.isLate k = false ∧ (kvGet? 9 awaiting.fab.out).map (fun o => (o.kind, o.rid)) = some (opContrib, some 0) ∧
    kvGet? 0 awaiting.emb.updates = some (tupdate0 [(9, [9])]) ∧ kvGet? 9 (tupdate0 [(9, [9])]).waits = some [9] ∧
    cpls (after (.contributionResultArrival k) awaiting) = [(5, scDone, 1, 2 ^ 32, 0)] := by decide +kernel

theorem witness_TableTraffic_step_end : let k := tablePacket 4 opStepEnd [3, 5, 2] []
    (serving table0).tableOf 0 3 = some table0 ∧ ((serving table0).otherNodes table0).contains 7 = true ∧
    ((after (.stepEndArrival k) (serving table0)).table? 3).map (fun x => x.ends) = some [(5, [(7, 2)])] ∧ State.reset.tableOf 0 3 = none := by decide +kernel

/-- A close command for step 1. -/
def closer1 (begun : Bool) : TCloser := { rid := 0, step := 1, since := 0, begun := begun, applied := 0, missing := [], late := false }

/-- A node whose close command is under way. -/
def closing (t : Table) : State := holding (under 0x33 (tablePs 1)) t

theorem witness_TableTraffic_close : let t := { tableAlone with closers := [closer1 true], ended := 1, issued := 1 }; let s := closing t
    s.settleTable 3 = s ∧ s.table? 3 = some t ∧ s.stepReady t 1 = true ∧ cpls (after (.embStepClose 3 1) s) = [(5, scDone, 0, 1, 0)] := by decide +kernel

theorem witness_TableTraffic_timeout : let t := { table0 with closers := [closer1 true], ended := 1, issued := 1 }; let s := { closing t with time := BitVec.ofNat 64 (10 ^ 15) }
    s.table? 3 = some t ∧ 0 + s.fld rEmbCfg fEmbCfg_STEP_TIMEOUT_MS * 1000000 ≤ s.now ∧ (∀ c ∈ t.closers, c.step ≠ 2) ∧
    cpls (after (.embStepTimeout 3 1) s) = [(5, scPartial, 0, 1, 1)] ∧
    let z := { tableAlone with closers := [closer1 true], ended := 1, issued := 1 }; let u := { closing z with time := BitVec.ofNat 64 (10 ^ 15) }
    u.table? 3 = some z ∧ (u.otherNodes z).isEmpty = true ∧ 0 + u.fld rEmbCfg fEmbCfg_STEP_TIMEOUT_MS * 1000000 ≤ u.now := by decide +kernel

/-! ### Drift -/

theorem witness_RowDrift_load : let s := holding {} tableAlone; let u := holding {} table0
    s.otherNodes tableAlone = [] ∧ (after (.embLoadReport 3) s).fab = s.fab ∧ u.otherNodes table0 = [7] ∧ u.reachable 7 = true ∧
    (after (.embLoadReport 3) u).fab.handoff.map (fun k => (k.opcode, k.dstNode, k.args)) = [(0x34, 7, [3, 0])] := by decide +kernel

theorem witness_RowDrift_orders : let s := holding {} table0; let k := tablePacket 0 0x34 [3, 50] []
    s.orderFresh 7 9 = true ∧ ((after (.loadOrderArrival k) s).table? 3).map (fun x => x.loads) = some [(7, 50)] ∧
    (after (.loadOrderArrival k) s).orderFresh 7 8 = false ∧ s.table? 3 = some table0 := by decide +kernel

theorem witness_RowDrift_offer : let s := holding {} table0; let k := tablePacket 0 0x30 [3, 9, 0] []; let t := { table0 with driftRows := 0 }
    kvFreeKey table0.slots table0.driftRows 0 = some 0 ∧ (table0.map[(table0.place 9).1]?).map (fun e => e.node) = some 7 ∧ table0.slotOf 9 = none ∧ s.dirCan = true ∧
    (after (.driftOfferArrival k) s).fab.handoff.map (fun u => (u.opcode, u.args)) = [(0x31, [3, 9])] ∧
    kvFreeKey t.slots t.driftRows 0 = none ∧ s.ctr cEmbDriftRefused = 0 ∧ (after (.driftOfferArrival k) (holding {} t)).ctr cEmbDriftRefused = 1 := by decide +kernel

/-- A drift of row 2 to node 7. -/
def drift0 (copies : Nat) : Drift := { row := 2, node := 7, replica := false, copies := copies, since := 0 }

theorem witness_RowDrift_accept : let s := holding {} { table0 with drifts := [drift0 0] }; let k := tablePacket 0 0x31 [3, 2] []
    s.orderFresh 7 9 = true ∧ ((after (.driftAcceptArrival k) s).table? 3).map (fun x => x.drifts) = some [drift0 1] ∧
    (after (.driftAcceptArrival k) s).fab.handoff.map (fun u => (u.vc, u.opcode, u.args)) = [(5, opDriftCopy, [3, 2, 1, 0])] := by decide +kernel

theorem witness_RowDrift_switch : let s := holding {} { table0 with drifts := [drift0 1] }
    s.dirCan = true ∧ s.ctr cEmbDrifts + 1 < 2 ^ 48 - 1 ∧ ((after (.driftSwitch 3 2) s).table? 3).map (fun x => x.drifts) = some [] ∧
    (after (.driftSwitch 3 2) s).emb.dir.map (fun d => (d.row, d.kind, d.node)) = [(2, 1, 7)] := by decide +kernel

/-- A slot for row 9 of node 7. -/
def slot9 (copied : Nat) (replica : Bool) : DSlot := { row := 9, home := 7, copied := copied, switched := false, replica := replica, since := 0 }

theorem witness_RowDrift_copy : let t := { table0 with slots := [(0, slot9 0 false)] }; let k := tablePacket 5 opDriftCopy [3, 9, 1, 0] (List.replicate 64 6)
    t.slotOf 9 = some (0, slot9 0 false) ∧ t.opt ≠ 2 ∧ (after (.driftCopyArrival k) (holding {} t)).mem.read 131072 = 6 := by decide +kernel

theorem witness_RowDrift_switched : let t := fun n => { table0 with slots := [(0, slot9 n false)] }; let k := tablePacket 4 opDriftSwitch [3, 9, 1] []
    ((after (.driftSwitchArrival k) (holding {} (t 0))).table? 3).map (fun x => (x.slots, x.held)) = some ([(0, slot9 0 false)], [k]) ∧
    ((after (.driftSwitchArrival k) (holding {} (t 1))).table? 3).map (fun x => (x.slots, x.held)) = some ([(0, { slot9 1 false with switched := true })], []) := by decide +kernel

theorem witness_RowDrift_ends : let s := { holding {} { table0 with drifts := [drift0 0], slots := [(0, slot9 0 true)], recalls := [(2, 7)] } with time := 200000 }
    ((after (.driftAbandonTimeout 3 2) s).table? 3).map (fun x => x.drifts) = some [] ∧ s.orderFresh 7 9 = true ∧
    ((after (.recallArrival (tablePacket 0 0x32 [3, 9] [])) s).table? 3).map (fun x => x.slots) = some [] ∧
    ((after (.recallAckArrival (tablePacket 0 0x33 [3, 2] [])) s).table? 3).map (fun x => x.recalls) = some [] ∧
    (after (.replicaUpdateArrival (tablePacket 5 opReplica [3, 9] (List.replicate 64 6))) s).mem.read 131072 = 6 := by decide +kernel

theorem witness_TableCommands_named : (creator 2).named (rec0 0x30 (createPs 2)) = creator 2 ∧ (creator 4).named (rec0 0x30 (createPs 4)) = creator 4 ∧
    (creator 2).claimedTensor (rec0 0x30 (createPs 2)) 1 = some (1, { modelTensor 65536 with bytes := 64 }) ∧ switching.named (rec0 0x34 (tablePs 1)) = switching ∧
    switching.claimedTensor (rec0 0x34 (tablePs 1)) 1 = some (1, modelTensor 262144) ∧ looker.named lookupRec = looker ∧
    (updater table0).named (rec0 0x32 updatePs) = updater table0 := by decide +kernel

/-- A claim keeps what the handle named: the tensor freed since is still the one the request works on. -/
theorem witness_TableCommands_claimed : let r := { rec0 0x34 (tablePs 1) with claims := [{ tensor := 1, write := false, seq := 0 }] }
    let s := holding { node r with mem := { tensors := [(1, { modelTensor 262144 with dying := true })], allocs := [(262144, { len := 65536, part := some 0, kind := .tensor })] } }
      table0
    s.tensorOf 0 1 = none ∧ s.claimedTensor r 1 = some (1, modelTensor 262144) ∧ (s.named r).switchCheck 0 r.cmd = none := by decide +kernel

theorem witness_LookupsAndUpdates_result : PlainResult looker lookupRec ∧ PlainResult waiting { lookupRec with phase := .running } := by
  refine ⟨fun h => absurd h (by decide), fun h => absurd h (by decide)⟩

theorem witness_TableTraffic_unreachable : let k := { tablePacket 3 opLookup [scUnreachable] [] with ptype := 2 }
    refuseStatus k = scUnreachable ∧ refuseStatus { k with args := [scBadHandle] } = scRemoteError ∧
    cpls (after (.remoteLookupResponse k) waiting) = [(5, scUnreachable, 0, 0, 0)] := by decide +kernel

/-! ### Memory tiers and compositions -/

/-- Media of one LUN index with 4 blocks of 2 pages. -/
def media0 : Flash := { geo := some { luns := 1, blocks := 4, pages := 2, rated := 0, bad := [], ok := true }, media := 2, cap := some 100 }

/-- A node with this request and tensor 1 of 64 bytes at this address, its partition configured with quotas. -/
def memory (r : Rec) (a : Nat) : State :=
  { node r with
    parts := [(0, { cfg := some (modelCfg []) })]
    mem := { tensors := [(1, { modelTensor a with bytes := 64 })], allocs := [(a, { len := 65536, part := some 0, kind := .tensor })] } }

/-- A closed superblock. -/
def closed0 : Super := { isOpen := false, chans := List.range 32, fill := 62, closedAt := 0 }

/-- Media without a free superblock, every superblock closed and without valid units. -/
def goneMedia : Flash := { media0 with supers := (List.range 4).map (fun k => (k, closed0)) }

/-- Media without a free superblock and without an invalid page. -/
def fullMedia : Flash := { goneMedia with map := (List.range 4).flatMap (fun k => (List.range 62).map (fun i => (2000 + 62 * k + i, k, i))) }

/-- PARAMS of TENSOR_ALLOC. -/
def allocPs (tier bytes : Nat) : List Byte := leBytes 1 tier ++ leBytes 1 1 ++ leBytes 6 0 ++ leBytes 8 bytes

theorem witness_Tensors_alloc : (let s := memory (rec0 0x40 (allocPs 0 64)) 65536; let r := rec0 0x40 (allocPs 0 64)
    canRun s 0x40 r = true ∧ s.allocHeld = false ∧ (r.cmd.param 0 1, r.cmd.param 8 8, placeOf (r.cmd.param 1 1) (r.cmd.param 2 2)) = (0, 64, none) ∧ bitOf (r.cmd.param 1 1) 0 = true ∧
    kvFreeKey s.mem.tensors 1048575 1 = some 2) ∧ ∃ a v, (memory (rec0 0x40 (allocPs 0 64)) 65536).allocNear 0 0 64 .tensor none = some (a, v) := by
  refine ⟨by decide +kernel, ?_⟩
  obtain ⟨b, -, h⟩ := State.alloc_some (memory (rec0 0x40 (allocPs 0 64)) 65536) 0 0 64 0 .tensor (by decide +kernel) (by decide) (by decide +kernel) (.inl rfl)
  exact ⟨_, _, h⟩

theorem witness_Tensors_alloc_quota : let s := memory (rec0 0x40 (allocPs 0 (2 ^ 30))) 65536
    canRun s 0x40 (rec0 0x40 (allocPs 0 (2 ^ 30))) = true ∧ s.quotaOf 0 0 < s.useOf 0 0 + roundUp (2 ^ 30) (allocUnit 0) ∧
    s.tensorAllocCheck 0 (cmd0 0x40 (allocPs 0 (2 ^ 30))) = some scQuota := by decide +kernel

theorem witness_Tensors_free : let s := memory (rec0 0x41 (leBytes 8 1)) 65536; let u := memory (rec0 0x41 (leBytes 8 2)) 65536
    canRun s 0x41 (rec0 0x41 (leBytes 8 1)) = true ∧ s.tensorOf 0 1 = some (1, { modelTensor 65536 with bytes := 64 }) ∧
    cpls (after (.tensorFree 0 0 5) s) = [(5, scDone, 0, 0, 0)] ∧ (after (.tensorFree 0 0 5) s).tensorOf 0 1 = none ∧
    canRun u 0x41 (rec0 0x41 (leBytes 8 2)) = true ∧ u.tensorOf 0 2 = none ∧ cpls (after (.tensorFree 0 0 5) u) = [(5, scBadHandle, 0, 0, 0)] := by decide +kernel

/-- A state in which an image load holds allocations back. -/
def loading (s : State) : State := { s with load := some { rid := 1, image := [], entry := 0, applying := true } }

/-- The node with tensor 1 in Tier A and this request. -/
def memNode (op : Nat) (ps : List Byte) : State := memory (rec0 op ps) 65536

theorem witness_Tensors_checks : (memNode 0x40 (allocPs 4 1)).tensorAllocCheck 0 (cmd0 0x40 (allocPs 4 1)) = some scBadCommand ∧
    cpls (after (.tensorAlloc 0 0 5) (memNode 0x40 (allocPs 4 1))) = [(5, scBadCommand, 0, 0, 0)] ∧
    (memNode 0x41 (leBytes 8 2)).tensorFreeCheck 0 (cmd0 0x41 (leBytes 8 2)) = some scBadHandle ∧
    (memNode 0x42 []).tensorWriteCheck 0 (cmd0 0x42 []) none = some scBadCommand ∧ cpls (after (.tensorWrite 0 0 5 []) (memNode 0x42 [])) = [(5, scBadCommand, 0, 0, 0)] := by
  decide +kernel

theorem witness_Tensors_checks_more : (memNode 0x43 []).tensorReadCheck 0 (cmd0 0x43 []) none = some scBadCommand ∧
    cpls (after (.tensorRead 0 0 5) (memNode 0x43 [])) = [(5, scBadCommand, 0, 0, 0)] ∧
    (memNode 0x44 (leBytes 8 2)).tensorMigrateCheck 0 (cmd0 0x44 (leBytes 8 2)) = some scBadHandle ∧ (loading (memNode 0x40 (allocPs 0 64))).allocHeld = true ∧
    canRun (loading (memNode 0x40 (allocPs 0 64))) 0x40 (rec0 0x40 (allocPs 0 64)) = true ∧ canRun (loading (memNode 0x44 (leBytes 8 1))) 0x44 (rec0 0x44 (leBytes 8 1)) = true := by
  decide +kernel

/-- PARAMS of TENSOR_WRITE and TENSOR_READ: one byte of tensor 1 at offset 3. -/
def writePs : List Byte := leBytes 8 1 ++ leBytes 8 3 ++ leBytes 8 1 ++ leBytes 8 4096

/-- A request for that. -/
def accessRec (op : Nat) : Rec := { rec0 op writePs with cmd := { cmd0 op writePs with resultAddr := 64 } }

theorem witness_Tensors_write : let s := memory (accessRec 0x42) 65536
    canRun s 0x42 (accessRec 0x42) = true ∧ s.claimedTensor (accessRec 0x42) 1 = some (1, { modelTensor 65536 with bytes := 64 }) ∧ s.addrOk 0 4096 1 = true ∧
    tierOf 65539 = some 0 ∧ s.touchesFenced 0 65539 1 = false ∧ (s.readInput 0 (0, false) 4096 1 [9]).1 = [9] ∧ cpls (after (.tensorWrite 0 0 5 [9]) s) = [(5, scDone, 1, 0, 0)] ∧
    (after (.tensorWrite 0 0 5 [9]) s).mem.read 65539 = 9 ∧ (after (.tensorWrite 0 0 5 [9]) s).mem.read 65538 = 0 := by decide +kernel

theorem witness_Tensors_write_far : let s := { memory (accessRec 0x42) (2 ^ 51) with flash := media0 }; let u := memory (accessRec 0x42) (2 ^ 48)
    canRun s 0x42 (accessRec 0x42) = true ∧ tierOf (2 ^ 51 + 3) = some 3 ∧ s.flash.roTens.contains (2 ^ 51) = false ∧
    (((s.readInput 0 (0, false) 4096 1 [9]).2.flashStore 0 (2 ^ 51) 1 (2 ^ 51 + 3) [9]).2) = none ∧ s.flashFits (2 ^ 51) 1 (2 ^ 51 + 3) 1 = true ∧
    ({ s with flash := fullMedia } : State).flashFits (2 ^ 51) 1 (2 ^ 51 + 3) 1 = false ∧
    canRun u 0x42 (accessRec 0x42) = true ∧ tierOf (2 ^ 48 + 3) = some 2 ∧ (u.windowAt (2 ^ 48 + 3)).any (fun w => w.2.2.state == 1) = false := by decide +kernel

theorem witness_Tensors_read : let s := { memory (accessRec 0x43) 65536 with mem := { (memory (accessRec 0x43) 65536).mem with bytes := [(65539, 8)] } }
    canRun s 0x43 (accessRec 0x43) = true ∧ (accessRec 0x43).cmd.resultAddr ≠ 0 ∧ s.claimedTensor (accessRec 0x43) 1 = some (1, { modelTensor 65536 with bytes := 64 }) ∧
    s.resultOk 0 64 1 = true ∧ s.tensorPieces { modelTensor 65536 with bytes := 64 } 3 1 = [(65539, 1)] ∧ s.mem.isDamaged 65539 1 = false ∧
    cpls (after (.tensorRead 0 0 5) s) = [(5, scDone, 1, 0, 0)] ∧ s.readMem 65539 1 = [8] ∧ tierOf (2 ^ 48 + 3) = some 2 := by decide +kernel

/-- A window of 2 MiB with node 7 under WINDOW_ID 3. -/
def window0 (lend : Bool) (base state : Nat) : PWindow :=
  { lend := lend, part := 0, tier := 0, peer := 7, wid := 3, len := 2097152, base := base, state := state, unreach := none }

/-- A composition with these windows. -/
def comp0 (ws : List PWindow) : Sys2Proof.Machine.Composition := { parts := 1, quotas := [], shares := [], windows := ws, created := 0, meters := List.replicate 10 0 }

/-- A node as node 1 with a route to node 7 and that composition. -/
def pooled (s : State) (ws : List PWindow) : State :=
  ({ s with mem := { s.mem with comps := [(2, comp0 ws)] }, fab := { s.fab with routes := [(7, { dist := 1, links := [0], override := false })] } } : State).setFld
    rFabStatus fFabStatus_NODE_ID 1

theorem witness_Tensors_pooled : let s := pooled (memory (accessRec 0x42) (2 ^ 48)) [window0 false (2 ^ 48) 2]
    s.windowAt (2 ^ 48 + 3) = some (2, 0, window0 false (2 ^ 48) 2) ∧ s.reachable 7 = true ∧ kvGet? 0 s.recs = some (accessRec 0x42) ∧
    (after (.tensorWrite 0 0 5 [9]) s).fab.handoff.map (fun k => (k.vc, k.dstNode, k.args, k.data)) = [(5, 7, [3, 3, 1, 1], [9])] := by decide +kernel

/-- PARAMS of TENSOR_MIGRATE to Tier B. -/
def migratePs : List Byte := leBytes 8 1 ++ leBytes 1 1 ++ leBytes 3 0

theorem witness_Tensors_migrate : (let s := memory (rec0 0x44 migratePs) 65536; let r := rec0 0x44 migratePs
    canRun s 0x44 r = true ∧ s.allocHeld = false ∧ (r.cmd.param 0 8, r.cmd.param 8 1, placeOf (r.cmd.param 9 1) (r.cmd.param 10 2)) = (1, 1, none) ∧
    s.tensorOf 0 1 = some (1, { modelTensor 65536 with bytes := 64 }) ∧ s.moveOk { modelTensor 65536 with bytes := 64 } 1 = true ∧ tierOf 65536 = some 0) ∧
    ∃ a v, (memory (rec0 0x44 migratePs) 65536).allocNear 0 1 64 .migration none = some (a, v) := by
  refine ⟨by decide +kernel, ?_⟩
  obtain ⟨b, -, h⟩ := State.alloc_some (memory (rec0 0x44 migratePs) 65536) 0 1 64 0x10000000000 .migration (by decide +kernel) (by decide) (by decide +kernel) (.inl rfl)
  exact ⟨_, _, h⟩

/-- A migration of tensor 1 to node address 2^40, copied, its write claim granted. -/
def migrating (long : Option LongOp) : State :=
  let s := memory { rec0 0x44 migratePs with phase := .running, long := long } 65536
  { s with mem := { s.mem with migs := [(0, { tensor := 1, dest := 2 ^ 40, copied := 1, dirty := [], passes := 1, asked := true })] } }

/-- A long operation that runs. -/
def running0 : LongOp := { running := true, progress := 0, count := 0, lastWrite := 0 }

theorem witness_Tensors_switch : let s := migrating (some running0); let r := { rec0 0x44 migratePs with phase := .running, long := some running0 }
    isUnder s 0x44 r = true ∧ s.mem.isDamaged 65536 64 = false ∧ tierOf (2 ^ 40) = some 1 ∧ s.claimsFree 0 r = true ∧
    cpls (after (.migrateSwitch 0 0 5) s) = [(5, scDone, 1, 1, 2 ^ 40)] ∧
    isUnder (migrating none) 0x44 { rec0 0x44 migratePs with phase := .running } = true := by decide +kernel

theorem witness_TierP_access : let s := pooled {} [window0 true 0 2]
    s.mem.comps.findSome? (fun c => c.2.windows.find? (fun w => w.lend && w.peer == 7 && w.wid == 3 && w.state == 2)) = some (window0 true 0 2) ∧
    s.touchesFenced 0 5 1 = false ∧ s.mem.isDamaged 5 1 = false ∧ (after (.tierPAccessArrival 7 9 3 5 1 true [6]) s).mem.read 5 = 6 ∧
    (after (.tierPAccessArrival 7 9 3 5 1 false []) s).fab.handoff.map (fun k => (k.ptype, k.args, k.data)) = [(1, [scDone], [0])] ∧
    (after (.tierPAccessArrival 7 9 4 5 1 true [6]) s).fab.handoff.map (fun k => (k.ptype, k.args)) = [(2, [scRemoteError])] := by decide +kernel

/-- A command that waits for a Tier P access under SEQ 9. -/
def accessing (op : Nat) : State :=
  let s := memory { accessRec op with phase := .running } (2 ^ 48)
  { s with mem := { s.mem with pacc := [(9, { rid := some 0, node := 7, wid := 3, off := 3, len := 1, write := op == 0x42, data := [9] })] } }

theorem witness_TierP_response : (accessing 0x43).pstate 0 ≠ stResetting ∧ cpls (after (.tierPResponseArrival 7 9 scDone [4]) (accessing 0x43)) = [(5, scDone, 1, 0, 0)] ∧
    cpls (after (.tierPResponseArrival 7 9 scDone []) (accessing 0x42)) = [(5, scDone, 1, 0, 0)] ∧
    cpls (after (.tierPResponseArrival 7 9 scRemoteError []) (accessing 0x42)) = [(5, scRemoteError, 0, 0, 0)] := by decide +kernel

/-- The states of the windows of composition 2. -/
def winStates (s : State) : Option (List Nat) := (kvGet? 2 s.mem.comps).map (fun c => c.windows.map (fun w => w.state))

theorem witness_TierP_windows : let l := pooled {} [window0 true 0 1]; let b := pooled {} [window0 false (2 ^ 48) 1]
    l.orderFresh 7 9 = true ∧ l.findWindow true 7 3 = some (2, 0, window0 true 0 1) ∧ winStates (after (.windowOpenArrival 7 9 3 2097152) l) = some [2] ∧
    (after (.windowOpenArrival 7 9 3 4096) l).fab.handoff.map (fun k => (k.opcode, k.args)) = [(0x22, [3])] ∧ b.findWindow false 7 3 = some (2, 0, window0 false (2 ^ 48) 1) ∧
    winStates (after (.windowAcceptArrival 7 9 3) b) = some [2] ∧ winStates (after (.windowRefuseArrival 7 9 3) b) = some [3] ∧ b.mem.pacc = [] ∧
    winStates (after (.windowCloseArrival 7 9 3) b) = some [4] ∧ l.findWindow false 7 3 = none ∧
    winStates (after (.windowCloseArrival 7 9 3) (pooled {} [window0 true 0 2])) = some [1] ∧
    (after (.windowRefuseArrival 7 9 3) b).orderFresh 7 8 = false := by decide +kernel

theorem witness_TierP_lost : let s : State := { mem := { comps := [(2, comp0 [{ window0 false (2 ^ 48) 2 with unreach := some 0 }])] }, time := BitVec.ofNat 64 (10 ^ 12) }
    s.reachable 7 = false ∧ 0 + max 10 (min 60000 (s.fld rMemCfg fMemCfg_LOST_MS)) * 1000000 ≤ s.now ∧ winStates (after (.windowLostTimeout 2 0) s) = some [4] := by
  decide +kernel

/-- A definition of composition 2 with partition 0 and one borrow window of 2 MiB at the start of Tier P. -/
def compDef : List Byte :=
  leBytes 2 2 ++ [0, 0, 1, 0, 0, 0] ++ leBytes 8 1 ++ leBytes 16 0 ++ [0, 0, 0, 0] ++ leBytes 2 7 ++ leBytes 2 3 ++ leBytes 8 2097152 ++ leBytes 8 (2 ^ 48) ++ leBytes 24 0

/-- PARAMS of COMPOSITION_SET (OP 0) and COMPOSITION_REMOVE (OP 1). -/
def compPs (id op : Nat) : List Byte := leBytes 2 id ++ leBytes 1 op ++ leBytes 5 0 ++ leBytes 8 4096 ++ leBytes 4 80

/-- The request. -/
def compRec (id op : Nat) : Rec := { rec0 0x45 (compPs id op) with cmd := { cmd0 0x45 (compPs id op) with resultAddr := 64 } }

/-- A node with that request and, where asked, composition 2. -/
def composer (id op : Nat) (comps : KV Sys2Proof.Machine.Composition) : State :=
  let s := memory (compRec id op) 65536
  ({ s with mem := { s.mem with comps := comps } } : State).setPstate 0 stReady

/-- What it has read. -/
def composed : State := ((composer 2 0 []).readInput 0 (0, false) 4096 80 compDef).2

theorem witness_Compositions_set : let s := composer 2 0 []
    canRun s 0x45 (compRec 2 0) = true ∧ s.allocHeld = false ∧ (loading s).allocHeld = true ∧ s.addrOk 0 4096 80 = true ∧ (s.readInput 0 (0, false) 4096 80 compDef).1 = compDef ∧ compHeadOk 2 compDef = true ∧
    (parseComp compDef).parts = 1 ∧ composed.configured 0 = true ∧ composed.compBadEntry 2 compDef = none ∧ composed.mem.comps = [] ∧
    composed.strands (comp0 []) 1 (parseComp compDef).windows = false := by decide +kernel

theorem witness_Compositions_set_done : let s2 := composed.integrate.modMem (fun m => { m with comps := kvPut 2 (comp0 []) m.comps })
    s2.quotasOk = true ∧ ((parseComp compDef).quotas.length, (parseComp compDef).shares.length) = (0, 0) ∧
    (match s2.buildWindows [] 0 (parseComp compDef).windows with | .ok (ws, _) => ws.map (fun w => w.state) | .error _ => []) = [1] ∧
    cpls (after (.compositionSet 0 0 5 compDef) (composer 2 0 [])) = [(5, scDone, 0, 1, 0)] := by decide +kernel

theorem witness_Compositions_set_refused : canRun (composer 4096 0 []) 0x45 (compRec 4096 0) = true ∧ (compRec 4096 0).cmd.param 2 1 ≠ 1 ∧ (composer 4096 0 []).compositionCheck 0 (compRec 4096 0).cmd = some scBadCommand ∧
    cpls (after (.compositionSet 0 0 5 compDef) (composer 4096 0 [])) = [(5, scBadCommand, 0, 0, 0xFFFFFFFFFFFFFFFF)] := by decide +kernel

theorem witness_Compositions_remove : let s := composer 2 1 [(2, comp0 [])]; let u := composer 2 1 []
    canRun s 0x45 (compRec 2 1) = true ∧ (compRec 2 1).cmd.param 2 1 = 1 ∧ (compRec 2 1).cmd.resultAddr % 8 = 0 ∧ s.resultOk 0 64 80 = true ∧ s.tierPTensors 0 = [] ∧
    (s.integrate.modMem (fun m => { m with comps := kvDel 2 m.comps })).quotasOk = true ∧ cpls (after (.compositionRemove 0 0 5) s) = [(5, scDone, 0, 0, 0)] ∧
    canRun u 0x45 (compRec 2 1) = true ∧ u.compositionCheck 0 (compRec 2 1).cmd = some scBadHandle ∧ cpls (after (.compositionRemove 0 0 5) u) = [(5, scBadHandle, 0, 0, 0xFFFFFFFFFFFFFFFF)] := by decide +kernel

theorem witness_Compositions_meters : let s : State := { mem := { comps := [(2, comp0 [])] }, time := 1000 }
    s.mem.lastMeter + 1000 ≤ s.now ∧ ({ s with time := 999 } : State).now < s.mem.lastMeter + 1000 ∧ (after .meterIntegrate s).mem.lastMeter = 1000 ∧
    ((kvGet? 2 (after .meterIntegrate s).mem.comps).bind (fun c => c.meters.head?)) = some 1000 ∧ (kvGet? 1 (after (.memCselLatch 1 2 0) s).mem.latch).isSome = true := by
  decide +kernel

/-- A node with a Tier P quota of 2 MiB in the OPEN window of composition 2, and this request. -/
def lent (r : Rec) (a : Nat) : State :=
  let s := memory r a
  pooled { s with parts := [(0, { cfg := some { modelCfg [] with quota := [16777216, 16777216, 4194304, 0] } })] } [window0 false (2 ^ 48) 2]

/-- 64 zeros in Tier P. -/
theorem witness_Tensors_alloc_zeros : (let s := lent (rec0 0x40 (allocPs 2 64)) 65536; let r := rec0 0x40 (allocPs 2 64)
    canRun s 0x40 r = true ∧ r.cmd.param 0 1 = 2 ∧ bitOf (r.cmd.param 1 1) 0 = true ∧ s.allocHeld = false ∧ placeOf (r.cmd.param 1 1) (r.cmd.param 2 2) = none ∧
    placeValid 2 none = true ∧ kvFreeKey s.mem.tensors 1048575 1 = some 2) ∧
    ∃ a v, (lent (rec0 0x40 (allocPs 2 64)) 65536).allocNear 0 2 64 .tensor none = some (a, v) := by
  refine ⟨by decide +kernel, ?_⟩
  obtain ⟨b, -, h⟩ := State.alloc_some (lent (rec0 0x40 (allocPs 2 64)) 65536) 0 2 64 (2 ^ 48) .tensor (by decide +kernel) (by decide) (by decide +kernel) (.inl rfl)
  exact ⟨_, _, h⟩

theorem witness_Tensors_results : PlainResult (memory (accessRec 0x43) 65536) (accessRec 0x43) ∧ PlainResult (accessing 0x43) { accessRec 0x43 with phase := .running } ∧
    PlainResult (composer 2 1 []) (compRec 2 1) :=
  ⟨fun h => absurd h (by decide), fun h => absurd h (by decide), fun h => absurd h (by decide)⟩

theorem witness_Tensors_named : (memory (accessRec 0x42) 65536).named (accessRec 0x42) = memory (accessRec 0x42) 65536 ∧
    (memNode 0x42 []).named (rec0 0x42 []) = memNode 0x42 [] ∧ (memNode 0x43 []).named (rec0 0x43 []) = memNode 0x43 [] ∧
    (memNode 0x44 (leBytes 8 2)).named (rec0 0x44 (leBytes 8 2)) = memNode 0x44 (leBytes 8 2) ∧
    (memory (rec0 0x44 migratePs) 65536).named (rec0 0x44 migratePs) = memory (rec0 0x44 migratePs) 65536 ∧
    (composer 2 1 []).named (compRec 2 1) = composer 2 1 [] ∧ (modelTensor 65536).holder = .none := by decide +kernel

/-- A channel that is processing holds the write back. -/
theorem witness_Tensors_held : let s := { memory (accessRec 0x42) 65536 with bank := [(0, { state := 2 })] }
    channelPieces 65539 1 = [(0, 65539, 1)] ∧ ((s.readInput 0 (0, false) 4096 1 [9]).2.chan 0).state = 2 ∧
    (((s.readInput 0 (0, false) 4096 1 [9]).2.chan 0).holds).length < 64 ∧ (after (.tensorWrite 0 0 5 [9]) s).mem.read 65539 = 0 ∧
    ((after (.tensorWrite 0 0 5 [9]) s).chan 0).holds.map (fun h => (h.addr, h.data)) = [(65539, [9])] := by decide +kernel

theorem witness_Tensors_read_far : let s := { memory (accessRec 0x43) (2 ^ 51) with flash := media0 }; let x := s.flashLoad 0 (2 ^ 51 + 3) 1
    canRun s 0x43 (accessRec 0x43) = true ∧ s.resultOk 0 64 1 = true ∧ tierOf (2 ^ 51 + 3) = some 3 ∧ (x.1, x.2.1, x.2.2.1) = ([0], 1, none) := by decide +kernel

theorem witness_Tensors_switch_media : let s := memory { rec0 0x44 migratePs with phase := .running, long := some running0 } (2 ^ 51)
    let u := { s with flash := media0, mem := { s.mem with migs := [(0, { tensor := 1, dest := 2 ^ 40, copied := 1, dirty := [], passes := 1, asked := true })] } }
    unitSpan (2 ^ 51) 64 = (2 ^ 37, 1) ∧ u.unitBad (2 ^ 37) = false ∧ cpls (after (.migrateSwitch 0 0 5) u) = [(5, scDone, 1, 1, 2 ^ 40)] := by decide +kernel

/-- The migration of a tensor that lies in Tier P. -/
def migratingP (n : Nat) : State :=
  let s := lent { rec0 0x44 migratePs with phase := .running, long := some running0 } (2 ^ 48)
  { s with mem := { s.mem with migs := [(0, { tensor := 1, dest := 2 ^ 40, copied := 1, dirty := [], passes := 1, asked := true, tierP := n })] } }

theorem witness_Tensors_switch_pooled : let r := { rec0 0x44 migratePs with phase := .running, long := some running0 }
    let m : Migration := { tensor := 1, dest := 2 ^ 40, copied := 1, dirty := [], passes := 1, asked := true }; let x := { modelTensor (2 ^ 48) with bytes := 64 }
    isUnder (migratingP 0) 0x44 r = true ∧ kvGet? 1 (migratingP 0).mem.tensors = some x ∧ (migratingP 0).mem.isDamaged (2 ^ 48) 64 = false ∧
    (migratingP 0).claimsFree 0 r = true ∧ ((migratingP 0).copyP 0 0 m x).isSome = true ∧
    (after (.migrateSwitch 0 0 5) (migratingP 0)).fab.handoff.map (fun k => (k.vc, k.dstNode, k.args)) = [(5, 7, [3, 0, 64, 0])] ∧
    cpls (after (.migrateSwitch 0 0 5) (migratingP 2)) = [(5, scDone, 1, 1, 2 ^ 40)] := by decide +kernel

/-- A request that waits for a Tier P access of this use under SEQ 9. -/
def awaitingP (u : PUse) (r : Rec) : State :=
  let s := memory r (2 ^ 48)
  { s with mem := { s.mem with
      pacc := [(9, { rid := some 0, node := 7, wid := 3, off := 3, len := 1, write := false, data := [], use := u })]
      migs := [(0, { tensor := 1, dest := 2 ^ 40, copied := 1, dirty := [], passes := 1, asked := true, tierP := 1 })] } }

theorem witness_TierP_uses : let i := awaitingP .input { rec0 0x42 writePs with phase := .inputs, need := [(2 ^ 48 + 3, 1)] }
    let o := awaitingP .result { rec0 0x43 writePs with phase := .running, late := some (Finish.mk scDone 0 1 2 3 64 [] none false) }
    let c := awaitingP .copy { recL 0x44 migratePs with phase := .running }
    phase0 (after (.tierPResponseArrival 7 9 scDone [4]) i) = some .ready ∧ cpls (after (.tierPResponseArrival 7 9 scDone []) o) = [(5, scDone, 1, 2, 3)] ∧
    (kvGet? 0 (after (.tierPResponseArrival 7 9 scDone [4]) c).mem.migs).map (fun m => m.tierP) = some 2 ∧ i.pstate 0 ≠ stResetting ∧
    cpls (after (.tierPResponseArrival 7 9 scRemoteError []) o) = [(5, scRemoteError, 0, 0, 0)] := by decide +kernel

/-! ### Flash -/

/-- PARAMS of NS_READ, NS_WRITE and NS_TRIM of one unit of namespace 3, from unit 2 on. -/
def nsPs (n : Nat) : List Byte := leBytes 2 3 ++ [0, 0] ++ leBytes 4 n ++ leBytes 8 2 ++ leBytes 8 4096

/-- The request. -/
def nsRec (op : Nat) : Rec := { rec0 op (nsPs 1) with cmd := { cmd0 op (nsPs 1) with resultAddr := 64 } }

/-- A node with this request and namespace 3 of 8 units, in partition 0. -/
def flashed (r : Rec) (x : NSpace) : State := { memory r 65536 with flash := { media0 with ns := [(3, x)] } }

theorem witness_Namespaces_read : let s := flashed (nsRec 0x60) { size := 8 }
    canRun s 0x60 (nsRec 0x60) = true ∧ ((nsRec 0x60).cmd.param 0 2, (nsRec 0x60).cmd.param 4 4, (nsRec 0x60).cmd.param 8 8) = (3, 1, 2) ∧ nsidOk 3 = true ∧
    s.nsOf 0 3 0 = some { size := 8 } ∧ s.resultOk 0 64 16384 = true ∧ s.nsWaits 0 0 3 2 1 false = false ∧ s.unitBad ((nsBase 3 + 2 * 16384) / 16384) = false ∧
    ({ s with mem := { s.mem with damaged := [(nsBase 3 + 32768, 1)] } } : State).unitBad ((nsBase 3 + 2 * 16384) / 16384) = true := by decide +kernel

theorem flashStore_none (s : State) (p base size a k n : Nat) (bs : List Byte) (hs : unitSpan a bs.length = (k, n)) (h : (s.writeUnits base size k n).2.1 = none) :
    ∃ w, s.flashStore p base size a bs = (w, none) := by
  simp only [State.flashStore, hs, h]; exact ⟨_, rfl⟩

theorem witness_Namespaces_write : let s := flashed (nsRec 0x61) { size := 8 }; let u := flashed (nsRec 0x61) { size := 8, ro := true }
    (canRun s 0x61 (nsRec 0x61) = true ∧ s.nsOf 0 3 0 = some { size := 8 } ∧ s.addrOk 0 4096 16384 = true ∧ s.nsWaits 0 0 3 2 1 true = false ∧
      canRun u 0x61 (nsRec 0x61) = true ∧ cpls (after (.nsWrite 0 0 5 []) u) = [(5, scMediaReadOnly, 0, 0, 0)]) ∧
    ∃ bs v w, s.readInput 0 (0, false) 4096 16384 [] = (bs, v) ∧ v.flashStore 0 (nsBase 3) 8 (nsBase 3 + 2 * 16384) bs = (w, none) := by
  refine ⟨by decide +kernel, List.replicate 16384 0, (flashed (nsRec 0x61) { size := 8 }).chargeHostRead 0 (0, false) 16384, ?_⟩
  obtain ⟨w, h⟩ := flashStore_none ((flashed (nsRec 0x61) { size := 8 }).chargeHostRead 0 (0, false) 16384) 0 (nsBase 3) 8 (nsBase 3 + 2 * 16384) (nsBase 3 / 16384 + 2) 1
    (List.replicate 16384 0) (by rw [List.length_replicate]; decide +kernel) (by decide +kernel)
  refine ⟨w, ?_, h⟩
  rw [State.readInput, if_neg (by decide), List.take_nil, List.nil_append, List.length_nil, Nat.sub_zero]

/-- A namespace whose media has lost all of its spare and half of its capacity. -/
def worn : State := { flashed (nsRec 0x61) { size := 1 } with flash := { ns := [(3, { size := 8 })], geo := some { luns := 1, blocks := 4, pages := 2, rated := 0, bad := [], ok := true }, media := 2, cap := some 1000000 } }

theorem witness_Namespaces_full : (worn.writeUnits (nsBase 3) 8 (nsBase 3 / 16384 + 2) 1).2.1 = some .full ∧ (worn.writeUnits (nsBase 3) 8 (nsBase 3 / 16384 + 2) 1).1 = 0 := by
  decide +kernel

theorem witness_Namespaces_checks : let s := flashed (rec0 0x60 (nsPs 0)) { size := 8 }
    s.nsReadCheck 0 0 (cmd0 0x60 (nsPs 0)) = some scBadCommand ∧ cpls (after (.nsRead 0 0 5) s) = [(5, scBadCommand, 0, 0, 0)] ∧
    s.nsWriteCheck 0 0 (cmd0 0x61 (nsPs 0)) = some scBadCommand ∧ s.nsTrimCheck 0 0 (cmd0 0x62 (nsPs 0)) = some scBadCommand ∧
    (flashed (rec0 0x61 (nsPs 0)) { size := 8 }).nsWaits 0 0 3 2 0 true = false := by decide +kernel

theorem witness_Namespaces_trim : let s := flashed (nsRec 0x62) { size := 8 }
    canRun s 0x62 (nsRec 0x62) = true ∧ s.nsOf 0 3 0 = some { size := 8 } ∧ s.nsWaits 0 0 3 2 1 true = false ∧
    cpls (after (.nsTrim 0 0 5) s) = [(5, scDone, 1, 0, 0)] := by decide +kernel

/-- PARAMS of NS_FORMAT of a namespace with this OP, 8 units. -/
def formatPs (id op : Nat) : List Byte := leBytes 2 id ++ leBytes 1 op ++ leBytes 5 0 ++ leBytes 8 8

/-- A node with that request and namespace 3; its media has room for 1,000 units and its partition a Tier F quota. -/
def formatter (id op quota : Nat) (r : Rec) : State :=
  let s := flashed { r with cmd := cmd0 0x63 (formatPs id op) } { size := 8 }
  { s with parts := [(0, { cfg := some { modelCfg [] with quota := [0, 0, 0, quota] } })], flash := { s.flash with cap := some 1000 } }

theorem witness_Namespaces_create : let s := formatter 4 0 (2 ^ 20) (rec0 0x63 []); let r := rec0 0x63 (formatPs 4 0)
    canRun s 0x63 r = true ∧ s.allocHeld = false ∧ (loading s).allocHeld = true ∧ (r.cmd.param 0 2, r.cmd.param 2 1, r.cmd.param 8 8) = (4, 0, 8) ∧ kvGet? (nsKey 0 4) s.flash.ns = none ∧
    s.useOf 0 3 + 16384 * 8 ≤ s.quotaOf 0 3 ∧ s.tierFUse + 16384 * 8 ≤ s.flash.c * 16384 ∧ cpls (after (.nsFormatCreate 0 0 5) s) = [(5, scDone, 0, 0, 0)] ∧
    cpls (after (.nsFormatCreate 0 0 5) (formatter 4 0 0 (rec0 0x63 []))) = [(5, scQuota, 0, 0, 0)] ∧
    (formatter 4 0 0 (rec0 0x63 [])).quotaOf 0 3 < (formatter 4 0 0 (rec0 0x63 [])).useOf 0 3 + 16384 * 8 := by decide +kernel

theorem witness_Namespaces_end : (∀ x ∈ [(1, Instr.nsFormatDelete 0 0 5), (2, .nsFormatErase 0 0 5)], let s := formatter 3 x.1 0 (rec0 0x63 [])
      canRun s 0x63 (rec0 0x63 (formatPs 3 x.1)) = true ∧ s.nsOf 0 3 0 = some { size := 8 } ∧ phase0 (after x.2 s) = some .running) ∧
    ∀ x ∈ [(1, Instr.nsFormatDelete 0 0 5), (2, .nsFormatErase 0 0 5)], let s := formatter 4 x.1 0 (rec0 0x63 [])
      canRun s 0x63 (rec0 0x63 (formatPs 4 x.1)) = true ∧ s.nsOf 0 4 0 = none ∧ s.nsFormatCheck 0 0 (cmd0 0x63 (formatPs 4 x.1)) = some scBadHandle ∧ cpls (after x.2 s) = [(5, scBadHandle, 0, 0, 0)] := by decide +kernel

theorem witness_Namespaces_format_refused : let s := formatter 4 3 (2 ^ 20) (rec0 0x63 [])
    canRun s 0x63 (rec0 0x63 (formatPs 4 3)) = true ∧ (rec0 0x63 (formatPs 4 3)).cmd.param 2 1 = 3 ∧ s.nsFormatCheck 0 0 (cmd0 0x63 (formatPs 4 3)) = some scBadCommand ∧
    cpls (after (.nsFormatCreate 0 0 5) s) = [(5, scBadCommand, 0, 0, 0)] := by decide +kernel

theorem witness_Namespaces_done : let s := formatter 3 1 0 { recL 0x63 [] with phase := .running }
    isUnder s 0x63 { recL 0x63 (formatPs 3 1) with phase := .running } = true ∧ kvGet? (nsKey 0 3) s.flash.ns = some { size := 8 } ∧
    s.nsWaits 0 0 3 0 (2 ^ 64) true = false ∧ cpls (after (.nsFormatDone 0 0 5) s) = [(5, scDone, 1, 0, 0)] ∧ (after (.nsFormatDone 0 0 5) s).flash.ns = [] := by
  decide +kernel

theorem witness_FlashMedia_blocks : let s : State := { flash := media0 }
    s.flash.good 0 1 = true ∧ s.ctr cFtlBlocksRetired = 0 ∧ ((after (.flashProgramFail 0 1 false) s).flash.blk 0 1).retired = true ∧ s.flash.good 0 4 = false := by
  decide +kernel

theorem witness_FlashMedia_luns : let s : State := { flash := media0 }
    s.isFenced 10 0 = false ∧ 0 % 32 < s.flash.geom.luns ∧ (after (.lunFence 0) s).isFenced 10 0 = true ∧ (after (.lunFence 0) s).flash.rebuild.contains 0 = true ∧
    (after (.lunRebuildDone 0) (after (.lunFence 0) s)).flash.out = [0] ∧ s.flash.rebuild.contains 0 = false := by decide +kernel

theorem witness_FlashMedia_collection : let s : State := { flash := goneMedia }
    s.freeBelow s.gcLow = true ∧ s.freeBelow s.gcHigh = true ∧ s.gcVictim = some 0 ∧ s.flash.unitsIn 0 = [] ∧
    ({ flash := media0 } : State).freeBelow ({ flash := media0 } : State).gcLow = false ∧ (after .gcStart s).flash.supers.length < 4 := by decide +kernel

theorem witness_FlashMedia_wear : let s : State := { flash := { media0 with erased := [(0, 5000)], blocks := [(blockKey 0 1, { erases := 5000 })] } }
    s.wearBounds = (0, 5000) ∧ max 20 (min 2000 (s.fld rFtlCfg fFtlCfg_WEAR_SPREAD)) < 5000 - 0 ∧ ({ flash := media0 } : State).wearBounds = (0, 0) := by decide +kernel

/-- Media with unit 5 as the first data page of superblock 1, and what is kept of the block that holds it. -/
def scrubbed (b : FBlock) : State := { flash := { media0 with supers := [(1, closed0)], map := [(5, 1, 0)], blocks := [(blockKey 0 1, b)] } }

theorem witness_FlashMedia_scrub : (scrubbed {}).flash.unitsOfBlock 0 1 = [5] ∧ (scrubbed {}).flash.placeOf 5 = some (0, 1, 0) ∧
    0 + 1 ≤ (scrubbed {}).fld rFtlCfg fFtlCfg_DISTURB_K * 1000 ∧ 2 * min 0xFFFF (({ reads := 9 } : FBlock).retries + 1) ≤ 9 + 1 ∧
    ((after (.mediaScrubRead 0 1 0 .sound) (scrubbed {})).flash.blk 0 1).reads = 1 ∧ ((scrubbed { reads := 9 }).flash.blk 0 1).reads = 9 ∧
    (scrubbed {}).flash.good 0 1 = true ∧ ((after (.mediaScrubRead 0 1 0 .retried) (scrubbed {})).flash.blk 0 1).retired = true ∧
    (scrubbed {}).flash.unitsOfBlock 0 2 = [] := by decide +kernel

theorem witness_FlashMedia_spare : let w := fFtlCfg_SPARE_PERMIL.put 120 (regDefault rFtlCfg); let s : State := { flash := { media0 with ns := [(3, { size := 8 })] } }
    s.flash.ns ≠ [] ∧ (after (.ftlSpareWrite w) s).fld rFtlCfg fFtlCfg_SPARE_PERMIL = s.fld rFtlCfg fFtlCfg_SPARE_PERMIL ∧
    (after (.ftlSpareWrite w) { flash := media0 }).fld rFtlCfg fFtlCfg_SPARE_PERMIL = 120 ∧ s.fld rFtlCfg fFtlCfg_SPARE_PERMIL ≠ 120 := by decide +kernel

theorem witness_FlashMedia_found : let s := fun n => scrubbed { reads := n }; let t := fun n => scrubbed { reads := n, retries := n }
    ((after (.mediaScrubRead 0 1 0 .retried) (s 9)).flash.blk 0 1).retries = 1 ∧ ((after (.mediaScrubRead 0 1 0 .retried) (s 9)).flash.blk 0 1).retired = false ∧
    2 * min 0xFFFF (0 + 1) ≤ 9 + 1 ∧ ((after (.mediaScrubRead 0 1 0 .weak) (s 9)).flash.placeOf 5).isSome = true ∧
    (after (.mediaScrubRead 0 1 0 .deepRetry) (s 9)).flash.placeOf 5 ≠ some (0, 1, 0) ∧ 9 + 1 < 2 * min 0xFFFF (9 + 1) ∧
    ((after (.mediaScrubRead 0 1 0 .deepRetry) (t 9)).flash.blk 0 1).retired = true := by decide +kernel

theorem witness_FlashMedia_rebuilt : let s := after (.lunFence 0) ({ flash := media0 } : State); let u := after (.lunFence 0) (scrubbed {})
    s.flash.map = [] ∧ (after (.lunRebuildDone 0) s).flash.rebuild = [] ∧ u.flash.map = [(5, 1, 0)] ∧ u.flash.rebuild.contains 0 = true ∧
    (after (.lunRebuildDone 0) u).flash.rebuild = [] ∧ (after (.lunRebuildDone 0) u).flash.map = [(5, 0, 0)] := by decide +kernel

theorem witness_FlashMedia_stuck : let s := after (.lunFence 0) ({ flash := { fullMedia with map := (List.range 4).map (fun k => (2000 + k, k, 0)) } } : State)
    s.flash.rebuild.contains 0 = true ∧ (after (.lunRebuildDone 0) s).flash.rebuild = [0] ∧ (after (.lunRebuildDone 0) s).flash.out = [] := by decide +kernel

theorem witness_FlashMedia_format : let w := fFtlCfg_SPARE_PERMIL.put 120 (regDefault rFtlCfg); let s : State := { flash := media0 }
    s.flash.ns = [] ∧ s.mem.allocs = [] ∧ s.flash.media = 2 ∧ (after (.ftlSpareWrite w) s).flash = s.flash.format 120 := by decide +kernel

theorem witness_Namespaces_result : PlainResult (flashed (nsRec 0x60) { size := 8 }) (nsRec 0x60) := fun h => absurd h (by decide)

theorem witness_Namespaces_waits : let s := { flashed (nsRec 0x61) { size := 8 } with flash := { fullMedia with ns := [(3, { size := 8 })] } }
    canRun s 0x61 (nsRec 0x61) = true ∧ s.nsOf 0 3 0 = some { size := 8 } ∧ s.nsWaits 0 0 3 2 1 true = false ∧
    s.flashFits (nsBase 3) 8 (nsBase 3 + 2 * 16384) 16384 = false ∧ s.named (nsRec 0x61) = s := by decide +kernel

theorem witness_Namespaces_full_fits : worn.flashFits (nsBase 3) 8 (nsBase 3 + 2 * 16384) 16384 = true ∧
    (flashed (nsRec 0x61) { size := 8 }).flashFits (nsBase 3) 8 (nsBase 3 + 2 * 16384) 16384 = true := by decide +kernel

/-! ### The fabric: lanes, links and the network -/

/-- A link of 8 lanes to node 7 that is up. -/
def link0 : Link := { freshLink 8 255 with state := 3, peerId := 7, helloSent := true }

/-- A node with that link, or another, on its first port. -/
def linked (x : Link) : State := { fab := { links := [(0, x)] } }

/-- A flit with this header, its payload zeros, its CRC good. -/
def flit0 (h : Nat) : List Byte := let b := leBytes 8 h ++ List.replicate 244 0; b ++ leBytes 4 (crc32 b)

theorem length_leBytes : ∀ (n v : Nat), (leBytes n v).length = n
  | 0, _ => rfl
  | n + 1, v => by simp [leBytes, length_leBytes n]

theorem leNat_leBytes : ∀ (n v : Nat), v < 256 ^ n → leNat (leBytes n v) = v
  | 0, v, h => by simp [leBytes, leNat] at h ⊢; omega
  | n + 1, v, h => by
    have := leNat_leBytes n (v / 256) (by rw [Nat.pow_succ] at h; omega)
    simp only [leBytes, leNat, this, BitVec.toNat_ofNat]; omega

/-- The CRC of such a flit is good, and its header is the one given. -/
theorem flit0_good (h : Nat) (hh : h < 256 ^ 8) :
    (flit0 h).length = 256 ∧ crc32 ((flit0 h).take 252) = fieldAt (flit0 h) 252 4 ∧ fieldAt (flit0 h) 0 8 = h := by
  have hl : (leBytes 8 h ++ List.replicate 244 (0 : Byte)).length = 252 := by rw [List.length_append, length_leBytes, List.length_replicate]
  have hc : crc32 (leBytes 8 h ++ List.replicate 244 0) < 256 ^ 4 := by rw [crc32]; exact BitVec.isLt _
  refine ⟨by rw [flit0, List.length_append, hl, length_leBytes], ?_, ?_⟩
  · rw [fieldAt, flit0, List.take_left' hl, List.drop_left' hl, List.take_of_length_le (by rw [length_leBytes]), leNat_leBytes 4 _ hc]
  · rw [fieldAt, flit0, List.drop_zero, List.append_assoc, List.take_left' (length_leBytes 8 h), leNat_leBytes 8 h hh]

theorem witness_Lanes_flits : (linked link0).link? 0 = some link0 ∧ 2 ≤ link0.state ∧ link0.state ≠ 5 ∧ ([] : List Byte).length ≠ 256 ∧
    ((after (.flitReceive 0 []) (linked link0)).link? 0).map (fun y => (y.nakDue, y.rxSeq)) = some (true, 0) ∧
    (2 ^ 24 * 4 / 2 ^ 10 % 2 = 0 ∧ 2 ^ 24 * 4 % 4 = 0) ∧ (13 / 2 ^ 10 % 2 = 0 ∧ 13 % 4 = 1 ∧ 13 / 4 % 2 = 1 ∧ 13 / 8 % 8 = 1 ∧ 13 / 2 ^ 12 % 2 ^ 12 = link0.rxSeq) ∧
    kvGet? (1 * 8 + 13 / 64 % 8) link0.reasm = none := by decide +kernel

theorem witness_Lanes_good : ((flit0 (2 ^ 24 * 4)).length = 256 ∧ crc32 ((flit0 (2 ^ 24 * 4)).take 252) = fieldAt (flit0 (2 ^ 24 * 4)) 252 4) ∧
    (flit0 13).length = 256 ∧ crc32 ((flit0 13).take 252) = fieldAt (flit0 13) 252 4 ∧ fieldAt (flit0 13) 0 8 = 13 :=
  ⟨⟨(flit0_good _ (by decide)).1, (flit0_good _ (by decide)).2.1⟩, flit0_good 13 (by decide)⟩

/-- A flit sent at 0 that waits for its acknowledgement. -/
def sent0 : SentFlit := { seq := 0, kind := 1, vc := 1, level := 0, last := true, replays := 0, sentAt := 0, marker := none, cr := (0, 0, 0) }

theorem witness_Lanes_replay : let x := { link0 with unacked := [sent0] }
    (linked x).now < sent0.sentAt + 2000 ∧ sent0.sentAt + 2000 ≤ ({ linked x with time := 2000 } : State).now ∧
    (after (.replayTimeout 0) { linked x with time := 2000 }).fab.tx.map (fun f => (f.kind, f.lseq)) = [(1, 0)] := by decide +kernel

/-- An order at an egress, and a packet under way. -/
def order0 : EgPacket := ({} : State).egress { vc := 0, ptype := 3, opcode := 1, dstNode := unrouted, srcNode := 1, length := 40 } 0 72 none
def packet0 : EgPacket := ({} : State).egress { vc := 1, ptype := 0, opcode := 0x10, dstNode := 7, srcNode := 1, length := 40 } 0 72 none

theorem witness_Lanes_slot : (∀ x ∈ [{ link0 with nakDue := true }, { link0 with markers := [(2, 5)] }, { link0 with vc0q := [order0] }, { link0 with active := [packet0] }],
      ((((linked x).promote).markLinkHeads 0).markGated 0).link? 0 = some x ∧ 2 ≤ x.state ∧ x.state ≠ 5) ∧
    (after (.linkEgressSlot 0) (linked { link0 with nakDue := true })).fab.tx.map (fun f => (f.kind, f.nak)) = [(0, true)] ∧
    (after (.linkEgressSlot 0) (linked { link0 with markers := [(2, 5)] })).fab.tx.map (fun f => (f.kind, f.vc, f.marker)) = [(3, 2, some 5)] ∧
    (linked link0).hasCredit { link0 with vc0q := [order0] } 0 order0.level = true ∧ (linked { link0 with vc0q := [order0] }).dataReady 0 { link0 with vc0q := [order0] } = false ∧
    (after (.linkEgressSlot 0) (linked { link0 with vc0q := [order0] })).fab.tx.map (fun f => (f.kind, f.vc, f.last)) = [(1, 0, true)] ∧
    ({ link0 with active := [packet0] } : Link).active.find? (fun e => (linked { link0 with active := [packet0] }).hasCredit { link0 with active := [packet0] } e.pkt.vc e.level) = some packet0 ∧
    (after (.linkEgressSlot 0) (linked { link0 with active := [packet0] })).fab.tx.map (fun f => (f.kind, f.vc, f.last)) = [(1, 1, true)] := by decide +kernel

theorem witness_Lanes_reassembly : let x := { link0 with reasm := [(8, { pkt := [1], flits := 1, since := 0 })] }
    (linked x).now < 0 + 100000 ∧ ((after (.reassemblyTimeout 0 1 0) { linked x with time := 100000 }).link? 0).map (fun y => y.reasm) = some [] ∧
    (linked x).ctr cFabDrops = 0 ∧ (after (.reassemblyTimeout 0 1 0) { linked x with time := 100000 }).ctr cFabDrops = 1 := by decide +kernel

/-- An open channel of a snapshot. -/
def snapCh0 : SnapCh := { closed := false, lost := false, packets := 0, flits := 0 }

/-- A node that records snapshot 5 on two channels. -/
def recording : State :=
  ({ fab := { links := [(0, link0)], snapId := 5, snapCh := [(1, snapCh0), (2, snapCh0)] } } : State).setFld rFabSnapStatus fFabSnapStatus_STATE 1

/-- A node whose latch is armed for snapshots. -/
def armed : State := ((linked link0).setFld rSnpCtl fSnpCtl_ARMED 1).setReg rSnpSrc 2

theorem witness_Lanes_marker : recording.link? 0 = some link0 ∧ link0.isUp = true ∧ recording.fld rFabSnapStatus fFabSnapStatus_STATE = 1 ∧
    (after (.markerArrival 0 1 5) recording).fab.snapCh = [(1, { snapCh0 with closed := true }), (2, snapCh0)] ∧ armed.fld rFabSnapStatus fFabSnapStatus_STATE = 0 ∧
    armed.snapFree = true ∧ (after (.markerArrival 0 1 5) armed).fab.snapId = 5 ∧ (freshLink 8 255).isUp = false := by decide +kernel

theorem witness_Links_fault : let s := linked link0
    s.fab.links.find? (fun x => decide (x.1 ≤ 3 ∧ 3 < x.1 + x.2.width)) = some (0, link0) ∧ bitOf link0.lanesUp (3 - 0) = true ∧ s.isFenced 9 3 = false ∧
    link0.lanesUp ≠ 2 ^ (3 - 0) ∧ (after (.laneFault 3) s).isFenced 9 3 = true ∧ ((after (.laneFault 3) s).link? 0).map (fun y => (y.lanesUp, y.state)) = some (247, 4) ∧
    (after (.laneFault 3) s).board.extest = false ∧ (after (.laneFault 3) s).ctr cFltRestores = 0 ∧
    (∀ x ∈ s.fab.links, 9 < x.1 ∨ x.1 + x.2.width ≤ 9 ∨ bitOf x.2.lanesUp (9 - x.1) = false) := by decide +kernel

/-- A node past boot with its first port enabled. -/
def training : State := ((({} : State).setFld rNodeStatus fNodeStatus_BOOT_STAGE 9).setFld rFabCfg fFabCfg_ENABLE 1).setFld (rFabPortCfg 0) fFabPortCfg_ENABLE 1

theorem witness_Links_training : training.fabOn = true ∧ training.board.extest = false ∧ training.fld (rFabPortCfg (3 / 8)) fFabPortCfg_ENABLE = 1 ∧ training.link? 0 = none ∧
    (List.range 8).foldl (fun m i => if training.isFenced 9 (0 + i) then m else m + 2 ^ i) 0 = 255 := by decide +kernel

theorem witness_Links_hello : let s := linked { link0 with state := 2 }
    (linked link0).link? 0 = some link0 ∧ ((after (.helloTimer 0) (linked link0)).link? 0).map (fun y => y.vc0q.map (fun e => e.pkt.opcode)) = some [1] ∧
    (linked { link0 with state := 0 }).link? 0 = some { link0 with state := 0 } ∧ ((after (.helloArrival 0 77 1 0 8 9 77) s).link? 0).map (fun y => (y.state, y.peerId)) = some (3, 9) ∧
    (after (.helloArrival 0 77 1 0 4 9 77) s).ctr (cFabPRetries (lanePort 0)) = 1 ∧ s.ctr (cFabPRetries (lanePort 0)) = 0 := by decide +kernel

theorem witness_Links_timeout : let x := { link0 with helloIn := some 0 }
    (linked x).now < 0 + 1000000 ∧ 0 + 1000000 ≤ ({ linked x with time := 1000000 } : State).now ∧
    ((after (.helloTimeout 0) { linked x with time := 1000000 }).link? 0).map (fun y => y.state) = some 0 := by decide +kernel

theorem witness_Links_equaliser : fFabLaneEq_OVERRIDE.get (fFabLaneEq_OVERRIDE.put 1 0) = 1 ∧ fFabLaneEq_OVERRIDE.get 0 = 0 ∧
    ((after .routeWeightTick (linked { link0 with busyNs := 5 })).link? 0).map (fun y => (y.busyNs, decide (500 ≤ y.weight ∧ y.weight ≤ 2000))) = some (0, true) ∧
    500 ≤ link0.weight ∧ link0.weight ≤ 2000 := by decide +kernel

/-- A node whose candidate is identity 9. -/
def electing : State := { fab := { links := [(0, link0)], cand := 9, candCnt := 3 } }

/-- The anchor. -/
def anchor0 : State := { training with fab := { links := [(0, link0)] } }

theorem witness_NetMembership_elect : electing.link? 0 = some link0 ∧ 4 < electing.candIdent ∧ electing.fab.colls = [] ∧
    ((after (.electArrival 0 4 1) electing).fab.cand, (after (.electArrival 0 4 1) electing).fab.candCnt) = (4, 1) ∧ electing.candIdent = 9 ∧
    (after (.electArrival 0 9 5) electing).fab.candCnt = 5 ∧ electing.candIdent < 10 ∧ electing.isAnchor = false ∧ anchor0.isAnchor = true ∧
    (after .anchorElectTick anchor0).fab.candCnt = 1 ∧ electing.fab.candSeen + 5000000 ≤ ({ electing with time := 5000000 } : State).now ∧
    (after .electStale { electing with time := 5000000 }).fab.cand = 0 ∧ anchor0.fab.cand = 0 := by decide +kernel

/-- A node with the preset ID 8. -/
def preset8 : State := (electing.setFld rFabPreset fFabPreset_PRESET 1).setFld rFabPreset fFabPreset_NODE_ID 8

theorem witness_NetMembership_assign : electing.orderFresh 7 1 = true ∧ electing.ident = 2 ^ 32 ∧ electing.fld rFabPreset fFabPreset_PRESET = 0 ∧
    (after (.assignArrival 7 1 (2 ^ 32) 6) electing).nodeId = 6 ∧ preset8.orderFresh 7 1 = true ∧ preset8.ident = 2 ^ 32 ∧ preset8.fld rFabPreset fFabPreset_PRESET = 1 ∧
    preset8.fld rFabPreset fFabPreset_NODE_ID = 8 ∧ preset8.isAnchor = false ∧ (after (.assignArrival 7 1 (2 ^ 32) 6) preset8).nodeId = 0 ∧
    (after (.assignArrival 7 1 (2 ^ 32) 6) preset8).fld rFabStatus fFabStatus_DUP_PRESET = 1 ∧
    ((after (.assignArrival 7 1 5 6) electing).link? 0).map (fun y => y.vc0q.map (fun e => e.pkt.args)) = some [[5, 6]] ∧
    (after (.assignArrival 7 1 (2 ^ 32) 6) electing).orderFresh 7 0 = false := by decide +kernel

/-- A node as node 1 with a route to the anchor, node 7. -/
def member0 : State :=
  ({ fab := { links := [(0, link0)], cand := 9, anchorId := 7, topo := [(1, { ident := 2 ^ 32, links := [] }), (7, { ident := 9, links := [] })], routes := [(7, { dist := 1, links := [0], override := false })] } } : State).setFld rFabStatus fFabStatus_NODE_ID 1

theorem witness_NetMembership_reports : anchor0.ident = 2 ^ 32 ∧ ((after (.topologyReportArrival 7 5 [(1, 0, 8)]) anchor0).fab.reports.map (fun x => x.1)) = [5, 2 ^ 32] ∧
    member0.isAnchor = false ∧ member0.reachable member0.anchorNode = true ∧ (after (.topologyReportArrival 3 5 []) member0).fab.handoff.length = 1 ∧
    electing.reachable electing.anchorNode = false ∧ electing.fab.candLane = none ∧ (after (.topologyReportArrival 3 5 []) electing).fab = electing.fab := by decide +kernel

theorem witness_NetMembership_map : member0.orderFresh 7 1 = true ∧ member0.fab.colls = [] ∧ member0.ctr cFabRouteChanges = 0 ∧
    (after (.topoArrival 7 1 7 [(1, 0, [(7, 0, 8)]), (7, 5, [(1, 0, 8)])]) member0).fab.topo.map (fun x => x.1) = [1, 7] ∧
    (after (.topoArrival 7 1 7 [(1, 0, [(7, 0, 8)]), (7, 5, [(1, 0, 8)])]) member0).fld rFabStatus fFabStatus_ANCHOR_ID = 7 := by decide +kernel

theorem witness_NetMembership_toward : let s := { electing with fab := { electing.fab with candLane := some 0 } }
    s.isAnchor = false ∧ s.reachable s.anchorNode = false ∧ s.fab.candLane = some 0 ∧ s.upLinks = [0] ∧
    ((after (.topologyReportArrival 3 5 []) s).link? 0).map (fun y => y.vc0q.map (fun e => (e.pkt.opcode, e.pkt.args.take 3))) = some [(4, [0, 1, 0])] := by decide +kernel

theorem witness_NetMembership_next : let s := linked { link0 with peerIdent := 6 }; let t := { s with fab := { s.fab with cand := 5, candCnt := 3 }, time := 5000000 }
    t.nextCand = (6, some 0) ∧ (after .electStale t).fab.cand = 6 ∧ (after .electStale t).fab.candLane = some 0 ∧
    (after (.electArrival 0 4 1) electing).fab.candLane = some 0 ∧ (electing.setCand (2 ^ 32) 1 (some 0)).fab.cand = 0 := by decide +kernel

theorem witness_NetMembership_copies : let s := { electing with fab := { electing.fab with orderRx := [(7, 1)] } }
    kvGet? 7 s.fab.orderRx = some 1 ∧ s.orderFresh 7 1 = true ∧ (after (.assignArrival 7 1 (2 ^ 32) 6) s).nodeId = 0 ∧
    ((after (.assignArrival 7 1 5 6) s).link? 0).map (fun y => y.vc0q) = some [] := by decide +kernel

theorem witness_NetMembership_route : (after (.fabRtEntryWrite (fFabRtEntry_COUNT.put 1 (fFabRtEntry_EGRESS.put 0x504 0)) 0) electing).fab.routes.map
    (fun x => (x.1, x.2.links, x.2.egress, x.2.override)) = [(0, [4], 0x504, true)] := by decide +kernel

theorem witness_Lanes_vc7 : (61 / 2 ^ 10 % 2 = 0 ∧ 61 / 2 ^ 11 % 2 = 0 ∧ 61 % 4 = 1 ∧ 61 / 8 % 8 = 7 ∧ 61 / 2 ^ 12 % 2 ^ 12 = link0.rxSeq) ∧ (linked link0).ctr cFabDrops = 0 ∧
    (flit0 61).length = 256 ∧ crc32 ((flit0 61).take 252) = fieldAt (flit0 61) 252 4 ∧ fieldAt (flit0 61) 0 8 = 61 :=
  ⟨by decide, by decide +kernel, flit0_good 61 (by decide)⟩

theorem witness_Lanes_width : let x := { link0 with widthChg := true }
    ((((linked x).promote).markLinkHeads 0).markGated 0).link? 0 = some x ∧ x.unacked.length < 2048 ∧
    (after (.linkEgressSlot 0) (linked x)).fab.tx.map (fun f => (f.kind, f.widthChg, f.marker)) = [(3, true, none)] ∧
    ((after (.linkEgressSlot 0) (linked x)).link? 0).map (fun y => (y.widthChg, y.txSeq)) = some (false, 1) := by decide +kernel

theorem witness_Lanes_replayed : let x := { link0 with unacked := [{ sent0 with widthChg := true, carried := [7], pad := 0 }] }
    (∀ g ∈ x.unacked, g.replays < 7) ∧ x.widthChg = false ∧
    (after (.replayTimeout 0) { linked x with time := 2000 }).fab.tx.map (fun g => (g.widthChg, g.carried, g.level, g.last)) = [(true, [7], 0, true)] := by decide +kernel

theorem witness_Lanes_foreign : let s := recording; let t := after (.markerArrival 0 1 6) s
    s.fab.snapId ≠ 6 ∧ kvGetD [] 6 s.fab.snapBad = [] ∧ s.coll? 6 = none ∧ t.ctr cFabCollFails = 1 ∧ kvGetD [] 6 t.fab.snapBad = [1] ∧
    (after (.markerArrival 0 2 6) t).ctr cFabCollFails = 1 ∧ kvGetD [] 6 (after (.markerArrival 0 2 6) t).fab.snapBad = [2, 1] := by decide +kernel

/-- A node whose link has lost a lane, whose equaliser settings are overridden. -/
def lessLane : State := (linked { link0 with lanesUp := 247, state := 4 }).setFld (rFabLaneEq 3) fFabLaneEq_OVERRIDE 1

/-- The same with the lane fenced. -/
def oneLaneOut : State := lessLane.modUnit 9 3 (fun u => { u with fenced := true })

theorem witness_Links_rejoin : let s := oneLaneOut
    s.isFenced 9 3 = true ∧ s.board.extest = false ∧ s.ctr cFltRestores = 0 ∧ (after (.laneRejoin 3) s).isFenced 9 3 = false := by decide +kernel

theorem witness_Links_rejoined : let u := lessLane
    u.isFenced 9 3 = false ∧ bitOf 247 3 = false ∧ ((after (.laneRejoin 3) u).link? 0).map (fun y => (y.lanesUp, y.state)) = some (255, 3) ∧
    (linked link0).isFenced 9 3 = false ∧ bitOf link0.lanesUp 3 = true := by decide +kernel

theorem witness_Links_trained : let s := after (.fabLaneEqWrite 3 (fFabLaneEq_OVERRIDE.put 1 0) 0) ({} : State)
    kvGet? 3 s.fab.trained = some (({} : State).reg (rFabLaneEq 3)) ∧ (after (.fabLaneEqWrite 3 0 0) s).fab.trained = [] ∧
    (after (.fabLaneEqWrite 3 0 0) s).fld (rFabLaneEq 3) fFabLaneEq_OVERRIDE = 0 := by decide +kernel

/-! ### The fabric: packets, limits and collectives -/

/-- A request of node 9 for node 7, and an order for it. -/
def transit0 : Packet := { vc := 1, ptype := 0, opcode := 0x10, dstNode := 7, srcNode := 9, length := 40, seq := 3 }
def transitOrder0 : Packet := { transit0 with vc := 0, ptype := 3 }

theorem pickLink_one (s : State) (k : Packet) (l : Nat) (y : Nat × Nat)
    (h : (s.routeLanes k.dstNode).filterMap (fun l => (s.link? l).map (fun x => (l, x.waiting * x.weight, x.lanes))) = [(l, y)]) : s.pickLink k = some l := by
  simp [State.pickLink, h, Nat.mod_one]

theorem witness_Traffic_transit : (member0.nodeId = 1 ∧ member0.link? 0 = some link0 ∧ (member0.routeLanes 7).head? = some 0 ∧ member0.ctr cFabDrops = 0 ∧
    member0.routeLanes 8 = [] ∧ (after (.transitForward 0 { transit0 with hops := 7 }) member0).ctr cFabDrops = 1 ∧
    ((after (.transitForward 0 transitOrder0) member0).link? 0).map (fun y => y.vc0q.map (fun e => e.pkt.hops)) = some [1]) ∧
    member0.pickLink { transit0 with hops := 1 } = some 0 :=
  ⟨by decide +kernel, pickLink_one _ _ 0 (0, 8) (by decide +kernel)⟩

/-- A node that hands this packet over. -/
def handing (k : Packet) : State := { member0 with fab := { member0.fab with handoff := [k] } }

theorem witness_Traffic_handoff : (handing transitOrder0).fab.handoff = [transitOrder0] ∧ ((handing transitOrder0).routeLanes 7).head? = some 0 ∧
    (handing transitOrder0).link? 0 = some link0 ∧ ((after .egressPacketHandoff (handing transitOrder0)).link? 0).map (fun y => y.vc0q.map (fun e => e.pkt)) = some [transitOrder0] ∧
    transit0.length ≤ 4096 ∧ (handing transit0).meterOf 0 0 = none ∧ (after .egressPacketHandoff (handing transit0)).fab.held.map (fun e => e.pkt) = [transit0] ∧
    member0.fab.handoff = [] := by decide +kernel

theorem witness_Traffic_gates : let g : GateState := { list := { ref := 0, entries := [(255, 100), (1, 50)] }, restart := 0, entry := 0, began := 0 }
    let s : State := { fab := { gates := [(2, g)] }, time := 100 }
    kvGet? 2 s.fab.gates = some g ∧ g.entry + 1 < g.list.entries.length ∧ g.began + (g.list.entries.getD g.entry (0, 0)).2 ≤ s.now ∧
    (after (.gateEntryAdvance 2) s).fab.gates = [(2, { g with entry := 1, began := 100 })] ∧ ({ s with time := 99 } : State).now < 0 + 100 := by decide +kernel

/-- A node that has received this packet whole, its partition configured. -/
def receiving (k : Packet) : State := { member0 with fab := { member0.fab with rx := [(0, k)] }, parts := [(0, { cfg := some {} })] }

theorem witness_Traffic_arrival : let k := { transit0 with dstNode := 1 }; let a := { k with ptype := 1, resetGen := 3 }
    (receiving k).nodeId = 1 ∧ (receiving k).fab.rx.find? (fun x => x.2 == k) = some (0, k) ∧ k.frags ≤ 1 ∧
    ((receiving { k with vc := 0 }).fab.rx.find? (fun x => x.2 == { k with vc := 0 })).isSome = true ∧
    ((receiving k).setFld rShpQuenchCfg fShpQuenchCfg_HIGH_KIB 0).fld rShpQuenchCfg fShpQuenchCfg_HIGH_KIB = 0 ∧
    (after (.fabricPacketArrival { k with vc := 0 }) (receiving { k with vc := 0 })).fab.arrived = [{ k with vc := 0 }] ∧ (receiving a).resetGen 0 = 0 ∧
    (receiving a).configured 0 = true ∧ (receiving a).ctr (cPrtLateDiscards 0) = 0 ∧ (after (.fabricPacketArrival a) (receiving a)).ctr (cPrtLateDiscards 0) = 1 := by
  decide +kernel

theorem witness_Traffic_release : let s := (({ parts := [(0, { quenched := [(7, 0)] })] } : State).setFld rShpQuenchCfg fShpQuenchCfg_HIGH_KIB 4).setFld rShpQuenchCfg fShpQuenchCfg_LOW_KIB 4
    (s.part 0).quenched = [(7, 0)] ∧ s.backlog 0 < 4 * 1024 ∧ min (s.fld rShpQuenchCfg fShpQuenchCfg_LOW_KIB) (s.fld rShpQuenchCfg fShpQuenchCfg_HIGH_KIB) = 4 ∧
    (after (.releaseSend 0) s).fab.handoff.map (fun k => (k.opcode, k.dstNode)) = [(0x13, 7)] ∧ 0 * 1024 ≤ s.backlog 0 ∧
    min ((s.setFld rShpQuenchCfg fShpQuenchCfg_LOW_KIB 0).fld rShpQuenchCfg fShpQuenchCfg_LOW_KIB) 4 = 0 := by decide +kernel

/-- A node with an attestation request outstanding under SEQ 9 since instant 0. -/
def asking : State :=
  { under 0x05 [] with fab := { out := [(9, { rid := some 0, node := 7, part := 0, sent := 0, timed := true, kind := opAttest, args := [], gen := 0 })] } }

theorem witness_Traffic_ends : let k := { transit0 with ptype := 2, dstNode := 1, seq := 9 }; let s := { asking with time := BitVec.ofNat 64 (10 ^ 9) }
    k.resetGen = asking.resetGen k.dstPart ∧ (kvGet? 9 asking.fab.out).map (fun o => (o.kind, o.rid, o.timed)) = some (opAttest, some 0, true) ∧
    asking.pstate 0 ≠ stResetting ∧ cpls (after (.fabricRefuseArrival k) asking) = [(5, scRemoteError, 0, 0, 0)] ∧
    0 + max 100 (min 65535 (s.fld rFabCfg fFabCfg_E2E_TIMEOUT_US)) * 1000 ≤ s.now ∧ cpls (after (.e2eTimeout 9) s) = [(5, scUnreachable, 0, 0, 0)] ∧
    asking.now < 0 + max 100 (min 65535 (asking.fld rFabCfg fFabCfg_E2E_TIMEOUT_US)) * 1000 ∧ transit0.ptype ≠ 2 := by decide +kernel

theorem witness_QuenchLimits : let s := member0; let t := after (.quenchArrival 7 9 0 6 50 1000) s
    s.orderFresh 7 9 = true ∧ s.fab.quench.length + 7 ≤ 1024 ∧ s.ctr cFabQuenchRcvd = 0 ∧ t.fab.quench.map (fun q => (q.sender, q.vc, q.expiry)) = [(7, 1, 50000), (7, 2, 50000)] ∧
    t.orderFresh 7 10 = true ∧ (after (.releaseArrival 7 10) t).fab.quench = [] ∧ t.orderFresh 7 8 = false ∧
    (after (.quenchExpiry 7 0 1) { t with time := 50000 }).fab.quench.map (fun q => q.vc) = [2] := by decide +kernel

/-- PARAMS of COLLECTIVE: OP, COLL_ID 5 or 0, partition mask 2, data of 1 byte. -/
def collPs (op id : Nat) : List Byte := leBytes 1 op ++ leBytes 3 0 ++ leBytes 4 id ++ leBytes 8 2 ++ leBytes 8 4096 ++ leBytes 4 1

/-- The request. -/
def collRec (op id : Nat) : Rec := { rec0 0x06 (collPs op id) with cmd := { cmd0 0x06 (collPs op id) with resultAddr := 64 } }

/-- A node as node 1 with that request and this parent in the tree, and no children. -/
def joining (op id parent : Nat) : State := ({ node (collRec op id) with fab := { parent := parent, topo := [(1, { ident := 2 ^ 32, links := [] })] } } : State).setFld rFabStatus fFabStatus_NODE_ID 1

theorem witness_Collectives_refused : ∀ x ∈ [(0, Instr.collectiveBarrier 0 0 5), (1, .collectiveBroadcastSend 0 0 5 []), (2, .collectiveBroadcastReceive 0 0 5),
    (3, .collectiveReset 0 0 5), (4, .collectiveSnapshot 0 0 5)], canRun (joining x.1 0 0) 0x06 (collRec x.1 0) = true ∧ (collRec x.1 0).cmd.param 0 1 = x.1 ∧
    (collRec x.1 0).cmd.param 4 4 = 0 ∧ cpls (after x.2 (joining x.1 0 0)) = [(5, scBadCommand, 0, 0, 0)] := by decide +kernel

theorem witness_Collectives_begin : (∀ op ∈ [0, 1, 2, 3, 4], ∀ parent ∈ [0, 7], let s := joining op 5 parent
      canRun s 0x06 (collRec op 5) = true ∧ (collRec op 5).cmd.param 0 1 = op ∧ (collRec op 5).cmd.param 4 4 = 5 ∧ s.isMember = true ∧ s.fab.colls = [] ∧ s.fab.kids = [] ∧
      s.fab.parent = parent) ∧ (collRec 1 5).cmd.param 24 4 = 1 ∧ (collRec 3 5).cmd.param 8 8 ≠ 0 ∧ (joining 1 5 0).addrOk 0 4096 1 = true ∧ (joining 2 5 0).resultOk 0 64 1 = true := by
  decide +kernel

/-- A node where 16 collectives with commands are active. -/
def crowded : State := let s := joining 0 5 7; { s with fab := { s.fab with colls := (List.range 16).map (fun i => (100 + i, { op := 0, rid := some 1, issuer := false, members := 3, started := 0, reports := [], count := 0, lost := 0, data := none, done := false, mask := 0 })) } }

theorem witness_Collectives_full : canRun crowded 0x06 (collRec 0 5) = true ∧ crowded.collectiveCheck 0 (collRec 0 5).cmd = none ∧
    16 ≤ (crowded.fab.colls.filter (fun c => c.2.rid.isSome)).length ∧ (joining 0 0 0).collectiveCheck 0 (collRec 0 0).cmd = some scBadCommand := by decide +kernel

theorem witness_Collectives_done : let sent := fun (s : State) => s.fab.handoff.map (fun k => (k.opcode, k.dstNode))
    cpls (after (.collectiveBarrier 0 0 5) (joining 0 5 0)) = [(5, scDone, 1, 1, 0)] ∧ sent (after (.collectiveBarrier 0 0 5) (joining 0 5 7)) = [(ckDone, 7)] ∧
    cpls (after (.collectiveBroadcastSend 0 0 5 [1]) (joining 1 5 0)) = [(5, scDone, 1, 1, 0)] ∧
    sent (after (.collectiveBroadcastSend 0 0 5 [1]) (joining 1 5 7)) = [(ckDataUp, 7), (ckDone, 7)] ∧ phase0 (after (.collectiveBroadcastReceive 0 0 5) (joining 2 5 7)) = some .running ∧
    sent (after (.collectiveReset 0 0 5) (joining 3 5 7)) = [(ckAsk, 7)] := by decide +kernel

/-- The same with the latch armed for snapshots. -/
def joiningArmed : State := ((joining 4 5 0).setFld rSnpCtl fSnpCtl_ARMED 1).setReg rSnpSrc 2

theorem witness_Collectives_snapshot : canRun joiningArmed 0x06 (collRec 4 5) = true ∧ joiningArmed.snapFree = true ∧ (joining 4 5 0).snapFree = false ∧
    cpls (after (.collectiveSnapshot 0 0 5) (joining 4 5 0)) = [(5, scRemoteError, 0, 1, 0)] := by decide +kernel

/-- Collective 5 of an OP here, its command request 0, since instant 0. -/
def coll0 (op : Nat) : Coll :=
  { op := op, rid := some 0, issuer := false, members := 3, started := 0, reports := [], count := 0, lost := 0, data := none, done := false, mask := 0 }

/-- A node that takes part in it. -/
def taking (op : Nat) : State := let s := joining op 5 7; { s with recs := [(0, { collRec op 5 with phase := .running })], fab := { s.fab with colls := [(5, coll0 op)] } }

theorem witness_Collectives_messages  :
    (taking 0).coll? 5 = some (coll0 0) ∧ opsAgree 0 0 = true ∧ opsAgree 0 3 = false ∧ (taking 0).pstate 0 ≠ stResetting ∧
    ((after (.collectiveMessageArrival 8 ckDone 5 0 2 0 0 []) (taking 0)).coll? 5).map (fun c => (c.reports, c.count)) = some ([8], 2) ∧
    cpls (after (.collectiveMessageArrival 7 ckResult 5 0 3 0 0 []) (taking 0)) = [(5, scDone, 3, 3, 0)] := by decide +kernel

theorem witness_Collectives_failures :
    cpls (after (.collectiveMessageArrival 7 ckFail 5 0 scUnreachable 0 0 []) (taking 0)) = [(5, scUnreachable, 0, 3, 0)] ∧
    cpls (after (.collectiveMessageArrival 8 ckDone 5 3 1 0 0 []) (taking 0)) = [(5, scRemoteError, 0, 3, 0)] := by decide +kernel

theorem witness_Collectives_timeout : let s := taking 0; let late := { taking 0 with time := BitVec.ofNat 64 (10 ^ 12) }
    0 + max 1 (min 60000 (late.fld rFabCfg fFabCfg_COLL_TIMEOUT_MS)) * 1000000 ≤ late.now ∧ cpls (after (.collectiveTimeout 5) late) = [(5, scRemoteError, 0, 3, 0)] ∧
    s.now < 0 + max 1 (min 60000 (s.fld rFabCfg fFabCfg_COLL_TIMEOUT_MS)) * 1000000 := by decide +kernel

/-! ### Faults, events and counters -/

theorem witness_Fences_units : let s : State := {}
    unitOk 4 2 = true ∧ s.isFenced 4 2 = false ∧ (after (.stallDetectorTimeout 4 2) s).isFenced 4 2 = true ∧ (after (.parityError 4 2) s).isFenced 4 2 = true ∧
    (s.isFenced 7 3 = false ∧ (after (.tierAChannelFence 3) s).isFenced 7 3 = true) ∧
    (s.isFenced 8 3 = false ∧ (after (.tierBChannelLost 3) s).mem.lostB = [3] ∧ (after (.tierBChannelLost 3) s).isFenced 8 3 = true) := by decide +kernel

theorem witness_Fences_corrected : let s : State := {}
    unitOk 4 2 = true ∧ s.flt.recent.any (fun e => e.merges 0 2 4 2 s.now) = false ∧ s.flt.ring0.length < 1024 ∧ s.ctr cFltCorrected = 0 ∧
    (after (.eccError 4 2 0 0 77) s).flt.ring0.map (fun e => (e.cls, e.kind, e.unit, e.detail)) = [(0, 4, 2, 77)] := by decide +kernel

theorem witness_Fences_ecc : let s := under 0x31 []; let u := node { rec0 0x31 [] with phase := .running, eccAt := some (s.phaseMark 0) }
    ((kvGet? 0 s.recs).map (fun r => decide (r.eccAt ≠ some (s.phaseMark 0)))) = some true ∧ s.phaseMark 0 = u.phaseMark 0 ∧ kvGet? 0 u.queries = none ∧
    u.pstate 0 ≠ stResetting ∧ cpls (after (.eccError 4 2 1 0 0) u) = [(5, scFence, 0, 0, 0)] ∧ unitOk 8 3 = true ∧ unitOk 7 3 = true ∧
    (kvGetD [] 3 ({} : State).flt.badReads).length < 8 ∧ (after (.eccError 8 3 1 0 77) {}).mem.isDamaged 77 1 = true ∧
    unitOk 6 2 = true ∧ (after (.eccError 6 2 1 0 77) s).mem.isDamaged 77 1 = true := by decide +kernel

theorem witness_Fences_fatal : let s := under 0x31 []
    s.flt.stopped = false ∧ (after (.dieLinkLost 0) s).flt.stopped = true ∧ cpls (after (.dieLinkLost 0) s) = [(5, scInternal, 0, 0, 0)] ∧
    cpls (after (.eccError 13 0 2 0 0) s) = [(5, scInternal, 0, 0, 0)] := by decide +kernel

/-- A node that may be told to declare, inject and restore units, with injection enabled. -/
def controllable : State := ({} : State).setFld rFltCfg fFltCfg_INJECT_EN 1

theorem witness_Units_fence : controllable.unitCtlFree = true ∧ unitOk 4 2 = true ∧ controllable.isFenced 4 2 = false ∧ controllable.fld rFltCfg fFltCfg_INJECT_EN = 1 ∧
    (after (.unitDeclare 4 2) controllable).isFenced 4 2 = true ∧ (after (.unitInject 4 2) controllable).isFenced 4 2 = true ∧ unitOk 4 8 = false ∧
    ((after (.unitDeclare 4 8) controllable).funit 4 8).opFailed = true ∧ ({} : State).unitCtlFree = true ∧ ({} : State).fld rFltCfg fFltCfg_INJECT_EN = 0 ∧
    ((after (.unitInject 4 2) {}).funit 4 2).opFailed = true := by decide +kernel

/-- The same with that unit fenced. -/
def fenced42 : State := after (.unitDeclare 4 2) controllable

theorem witness_Units_restore : fenced42.unitCtlFree = true ∧ fenced42.isFenced 4 2 = true ∧ (fenced42.funit 4 2).locked = false ∧
    ((after (.unitRestore 4 2) fenced42).funit 4 2).restoring = true ∧ ((after (.unitRestore 4 3) fenced42).funit 4 3).opFailed = true ∧
    (after (.unitRestore 4 2) fenced42).unitCtlFree = false ∧ (after (.unitRestore 4 2) fenced42).ctr cFltRestores = 0 ∧
    (after (.unitRestoreDone 4 2 true) (after (.unitRestore 4 2) fenced42)).isFenced 4 2 = false ∧
    ((after (.unitRestoreDone 4 2 false) (after (.unitRestore 4 2) fenced42)).funit 4 2).opFailed = true ∧ (fenced42.funit 4 2).restoring = false := by decide +kernel

theorem witness_EventsCounters : let s : State := {}
    let e := after (.eccError 4 2 0 0 77) s
    s.flt.stopped = false ∧ e.flt.stopped = false ∧ e.flt.ring0.length = 1 ∧ (after (.fltEvtPop 0) e).flt.ring0 = [] ∧ blockIndex (blockBase 21 + 512) = some 21 ∧ isCounter (blockBase 21 + 512) = true ∧ isCounter (blockBase 21) = false ∧ (after (.ctrClearOne 21 512) e).ctr cFltCorrected = 0 ∧
    bitOf ((s.setReg rSnpSrc 0).reg rSnpSrc).toNat 0 = false ∧ (after .snpArm s).fld rSnpCtl fSnpCtl_ARMED = 1 ∧ (after (.snpViewWrite 0 true) s).fldPf 0 rSnpCtl fSnpCtl_VIEW = 1 := by
  decide +kernel

theorem witness_EventsCounters_trigger : let s := (({} : State).setReg rSnpSrc 1).setFld rSnpCtl fSnpCtl_ARMED 1
    s.flt.stopped = false ∧ bitOf (s.reg rSnpSrc).toNat 0 = true ∧ s.fld rSnpCtl fSnpCtl_ARMED = 1 := by decide +kernel

theorem witness_Traffic_unreachable : let k := { transit0 with ptype := 2, dstNode := 1, seq := 9, args := [scUnreachable] }
    refuseStatus k = scUnreachable ∧ refuseStatus { k with args := [scBadHandle] } = scRemoteError ∧ cpls (after (.fabricRefuseArrival k) asking) = [(5, scUnreachable, 0, 0, 0)] := by
  decide +kernel

theorem witness_QuenchLimits_back : let s := { member0 with fab := { member0.fab with links := [(0, { link0 with localq := [({} : State).egress transit0 0 72 none] })] } }
    let t := after (.quenchArrival 7 9 0 6 50 0) s
    s.fab.links.flatMap (fun x => x.2.localq.map (fun e => e.pkt)) = [transit0] ∧ t.quenched transit0 = true ∧
    t.fab.links.flatMap (fun x => x.2.localq) = [] ∧ t.fab.held.map (fun e => e.pkt) = [transit0] := by decide +kernel

/-- A node that holds the data of four broadcasts that have no command here. -/
def fullBuffers : State :=
  { fab := { colls := (List.range 4).map (fun i => (20 + i, { op := 1, rid := none, issuer := false, members := 3, started := 0, reports := [], count := 0, lost := 0, data := some [], done := false, mask := 0 })) } }

theorem witness_Traffic_no_room : fullBuffers.dataRoom ckDataDown 5 = false ∧ fullBuffers.nodeId = 0 ∧ ({} : State).dataRoom ckDataDown 5 = true ∧
    (after (.fabricPacketArrival { transit0 with vc := 6, dstNode := 0, opcode := ckDataDown, args := [5] }) fullBuffers).fab.arrived = [] := by decide +kernel

theorem witness_Collectives_result : PlainResult (taking 2) { collRec 2 5 with phase := .running } ∧ (taking 2).coll? 5 = some (coll0 2) ∧ opsAgree 2 1 = true := by
  refine ⟨fun h => absurd h (by decide), by decide +kernel, by decide⟩

/-- The same while a self test runs. -/
def testing : State := after (.unitRestore 4 2) fenced42

theorem witness_Units_busy : testing.flt.stopped = false ∧ testing.fld rFltUnitCtl fFltUnitCtl_GO = 1 ∧ (after (.unitInject 4 3) testing).flt = testing.flt ∧
    (after (.unitInject 4 3) testing).fld rFltUnitCtl fFltUnitCtl_OP = 3 ∧ (after (.unitInject 4 3) testing).fld rFltUnitCtl fFltUnitCtl_UNIT = 3 ∧
    (after (.unitInject 4 3) testing).fld rFltUnitCtl fFltUnitCtl_GO = 1 ∧ (controllable.modFlt (fun t => { t with stopped := true })).flt.stopped = true := by decide +kernel

/-! ### Trim loops, telemetry and the logbook -/

/-- A node whose domain 0 is powered at 550 mV, its voltage unit frozen. -/
def floored : State :=
  ((({} : State).setFld (rNodeDomainStatus 0) fNodeDomainStatus_POWERED 1).setFld (rNodeDomainStatus 0) fNodeDomainStatus_VOLT_MV 550).modTrim 0 0
    (fun u => { u with freeze := true, output := 550 })

theorem witness_Trim_voltage : (∀ d, d < 14 → floored.domPowered d = true →
      floored.fld (rNodeDomainStatus d) fNodeDomainStatus_VOLT_MV = 550 ∧ (floored.trim 0 d).freeze = true) ∧ floored.domPowered 0 = true ∧
    floored.fld rNodePowerStatus fNodePowerStatus_BACKSTOP = 0 ∧ floored.limit10 < 2000 ∧ (floored.trim 0 0).lo ≤ (floored.trim 0 0).output ∧
    (floored.trim 0 0).output ≤ (floored.trim 0 0).hi ∧
    (({} : State).setFld (rNodeDomainStatus 0) fNodeDomainStatus_POWERED 1).domPowered 0 = true ∧ (({} : State).trim 0 0).freeze = false ∧
    (({} : State).trim 0 0).lo ≤ (({} : State).trim 0 0).hi := by decide +kernel

theorem witness_Trim_equalisation : let s := linked link0; let f := s.modTrim 1 300 (fun u => { u with freeze := true })
    s.laneUp 9 = false ∧ s.laneUp 3 = true ∧ ((s.modTrim 1 3 (fun u => { u with freeze := true })).trim 1 3).freeze = true ∧
    (after (.equalisationTrimTick 9 77 5) s).fld (rFabLaneEye 9) fFabLaneEye_HEIGHT = 77 ∧
    (after (.equalisationTrimTick 257 77 5) s).fld (rTelHostEye 1) fTelHostEye_WIDTH = 5 ∧ (after (.equalisationTrimTick 272 1 1) f).regs = f.regs := by decide +kernel

theorem witness_Trim_refresh : let s : State := {}
    (s.trim 2 3).freeze = false ∧ (s.trim 2 3).lo ≤ (s.trim 2 3).hi ∧ ((s.modTrim 2 3 (fun u => { u with freeze := true })).trim 2 3).freeze = true ∧
    min 1000 ((2 * 1000 * 4876190 + 4876190) / (2 * 4876190)) = 1000 := by decide +kernel

/-- A node whose partition 0 has a candidate threshold set and this many inserts seen. -/
def sketching (n : Nat) : State :=
  { parts := [(0, { cfg := some {} })], corpora := [(0, { loop := { ({} : Corpus).loop with cand := [0], seen := n } })] }

theorem witness_Trim_sketch : (sketching 4096).allocHeld = false ∧ (loading (sketching 4096)).allocHeld = true ∧ (sketching 4096).configured 0 = true ∧ ((sketching 4096).corpus 0).loop.cand ≠ [] ∧
    ((sketching 4096).corpus 0).loop.evals < ((sketching 4096).corpus 0).loop.seen / 4096 ∧
    ((after (.sketchThresholdEval 0) (sketching 4096)).corpus 0).loop.evals = 1 ∧ ((sketching 4095).corpus 0).loop.seen / 4096 ≤ ((sketching 4095).corpus 0).loop.evals := by
  decide +kernel

/-- A node with one configured partition that has the table. -/
def placing : State := { parts := [(0, { cfg := some {} })], emb := { tables := [(3, tableAlone)] } }

theorem witness_Trim_placement : placing.configured 0 = true ∧ (∀ q, q < 64 → q ≠ 0 → placing.configured q = false) ∧ tableAlone.shard.isSome = true ∧
    loadRatio (((tableAlone.map.map (fun e => e.node)).eraseDups).map (fun n => (n, if n = placing.nodeId then tableAlone.loadAt placing.now else kvGetD 0 n tableAlone.loads))) (tableAlone.loadAt placing.now) = 0 ∧
    ((0 : Nat) : Int) ≤ (placing.trim 4 0).target ∧ ((placing.modTrim 4 0 (fun u => { u with freeze := true })).trim 4 0).freeze = true ∧
    (∀ p, p < 64 → ({} : State).configured p = false) ∧ (∀ b, kvGet? 3 ({} : State).bank = some b → b.state = 0) ∧
    (after (.memMarginTraining 1 15 70000 2) {}).margins = [(271, 65535, 2, 0)] := by decide +kernel

/-- A word of limits. -/
def limitsWord (lo hi : Nat) : Word := fTrmUnitLimits_LIMIT_HI.put hi (fTrmUnitLimits_LIMIT_LO.put lo 0)

theorem witness_TrimSettingsAndLog_limits : let s : State := {}; let u := s.modTrim 0 0 (fun u => { u with owned := true })
    s.trimSel 0 = some (0, 0) ∧ signedOf 32 (fTrmUnitLimits_LIMIT_LO.get (limitsWord 550 700)) = 550 ∧ signedOf 32 (fTrmUnitLimits_LIMIT_HI.get (limitsWord 550 700)) = 700 ∧
    (s.trim 0 0).owned = false ∧ trimOk 0 (s.trim 0 0).target 550 700 = true ∧ trimOk 0 (s.trim 0 0).target 560 700 = false ∧
    ((after (.trmUnitLimitsWrite 0 (limitsWord 550 700)) s).trim 0 0).hi = 700 ∧ ((after (.trmUnitLimitsWrite 0 (limitsWord 560 700)) s).trim 0 0).cfgErr = true ∧
    u.trimSel 0 = some (0, 0) ∧ (u.trim 0 0).owned = true := by decide +kernel

theorem witness_TrimSettingsAndLog_calibration : let s : State := {}; let i := s.fldPf 0 rTrmCalSel fTrmCalSel_ITEM
    calItem i = true ∧ s.owned.contains (calKey i) = false ∧ ({ s with owned := [calKey i] } : State).owned.contains (calKey i) = true ∧
    calItem ((s.setFldPf 0 rTrmCalSel fTrmCalSel_ITEM 0xFFFFFF).fldPf 0 rTrmCalSel fTrmCalSel_ITEM) = false := by decide +kernel

/-- PARAMS of LOG_READ of every record from SEQ 0 on. -/
def logPs : List Byte := leBytes 8 0 ++ leBytes 4 4096 ++ leBytes 2 0

/-- The request, started. -/
def logRec : Rec := { recL 0x05 logPs with cmd := { cmd0 0x05 logPs with resultAddr := 64 } }

theorem witness_TrimSettingsAndLog_read : let s := node logRec
    canRun s 0x05 logRec = true ∧ logRec.long.map (fun l => l.running) = some true ∧ logRec.cmd.param 8 4 = 4096 ∧ logRec.cmd.resultAddr % 8 = 0 ∧ s.resultOk 0 64 4096 = true ∧ s.named logRec = s ∧
    s.logReadCheck 0 (cmd0 0x05 logPs) = some scBadCommand ∧ cpls (after (.logRead 0 0 5) (node (recL 0x05 logPs))) = [(5, scBadCommand, 0, 0, 0)] ∧ s.flt.hour = [] ∧ s.logUsed < 60 * 1048576 ∧ s.log.filter (fun x => decide (logRec.cmd.param 0 8 ≤ x.seq)) = [] ∧
    takeRecs 4096 [] = [] := by decide +kernel

theorem witness_TrimSettingsAndLog_result : PlainResult (node logRec) logRec := fun h => absurd h (by decide)

/-! ### Boot, the package, security and management -/

/-- What a boot finds: every die, no flash, no failed unit, the crystal locked. -/
def found (a b : Bool) (stopAt : Nat) : BootFound :=
  { copyA := a, copyB := b, dies := 7, failed := [], flash := [], flashOk := true, stopAt := stopAt, locked := true }

theorem witness_Boot_power : let s : State := {}; let held := s.putBoard { s.board with testMode := true }
    s.board.testMode = false ∧ held.board.testMode = true ∧ s.board.power = true ∧ (found true false 0).copyA = true ∧ (found false true 9).copyB = true ∧
    (found true false 5).stopAt = 5 := by decide +kernel

theorem witness_Boot_absent : let s : State := {}
    (after (.powerOn (found false false 0)) s).fld rNodeStatus fNodeStatus_BOOT_STAGE = 0xF0 ∧
    (after (.powerOn (found false false 0)) s).recovering = true := by decide +kernel

theorem witness_Boot_reset : let s : State := {}; let w := fNodeReset_KEY.put 0xB007 (fNodeReset_WARM.put 1 0)
    fNodeReset_KEY.get w = 0xB007 ∧ fNodeReset_WARM.get w = 1 ∧ fNodeReset_WARM.get (fNodeReset_KEY.put 0xB007 0) = 0 ∧ s.recovering = false ∧ s.flt.stopped = false ∧
    (s.setFld rNodeStatus fNodeStatus_RECOVERY 1).recovering = true ∧ (s.setFld rNodeStatus fNodeStatus_BOOT_STAGE 3).fld rNodeStatus fNodeStatus_BOOT_STAGE = 3 ∧
    (s.setFld rNodeStatus fNodeStatus_BOOT_STAGE 2).fld rNodeStatus fNodeStatus_BOOT_STAGE = 2 ∧ (s.wipe true).fld rNodeTimeStatus fNodeTimeStatus_HOLDOVER = 0 ∧
    (s.putBoard { s.board with power := false }).board.power = false := by decide +kernel

theorem witness_Boot_wrong_key : (after (.nodeResetWrite 0 (fNodeReset_KEY.put 0xB007 0) (found true true 0)) {}).fld rNodeAccessErr fNodeAccessErr_RSV_WRITE = 1 := by
  decide +kernel

/-- A node whose supplies are all in range and whose crystal is lost. -/
def railed : State := ({} : State).setFld rNodeRailStatus fNodeRailStatus_IN_RANGE 0xFF
def lostCrystal : State := after .xtalLoss {}

theorem witness_Package_supplies : railed.board.power = true ∧ railed.flt.stopped = false ∧ bitOf (railed.fld rNodeRailStatus fNodeRailStatus_IN_RANGE) 7 = true ∧
    (after (.railFault 7) railed).fld rNodeRailStatus fNodeRailStatus_IN_RANGE = 0x7F ∧ (after (.railFault 7) railed).flt.stopped = true ∧
    (after (.thermalShutdown 0) {}).board.thermtrip = true ∧ (after .refclkMemLoss {}).flt.stopped = true := by decide +kernel

theorem witness_Package_crystal : ({} : State).board.power = true ∧ ({} : State).isFenced 12 0 = false ∧ lostCrystal.isFenced 12 0 = true ∧
    lostCrystal.fld rNodeTimeStatus fNodeTimeStatus_HOLDOVER = 1 ∧ (after .xtalLock lostCrystal).fld rNodeTimeStatus fNodeTimeStatus_LOCKED = 1 ∧
    (after .xtalLock lostCrystal).isFenced 12 0 = false := by decide +kernel

theorem witness_Package_ports : (after (.hostPortReset 1 0) {}).board.hostUp.getD 1 true = false ∧ ({} : State).board.extest = false ∧
    (after (.perstDeassert 1) (after (.hostPortReset 1 0) {})).board.hostUp.getD 1 false = true ∧
    (List.range 64).all (fun i => (after (.refclkFabLoss 3) {}).isFenced 9 (192 + i)) = true := by decide +kernel

theorem witness_Package_bus : (after (.avsPoll 14) (after (.avsPoll 14) (after (.avsPoll 14) {}))).fld rNodeRailStatus fNodeRailStatus_AVS_LOST = 1 ∧
    (after (.avsPoll 15) {}).fld rNodeRailStatus fNodeRailStatus_AVS_LOST = 0 := by decide +kernel

theorem witness_Package_limit : let w := fun n => fNodePowerLimit_LIMIT_W.put n 0
    ({} : State).flt.stopped = false ∧ ({} : State).owned.contains (ownKey rNodePowerLimit fNodePowerLimit_LIMIT_W) = false ∧
    (after (.nodePowerLimitWrite (w 800) 0) {}).fld rNodePowerStatus fNodePowerStatus_LIMIT_EFF_W = 900 ∧
    (after (.nodePowerLimitWrite (w 1501) 0) {}).fld rNodePowerStatus fNodePowerStatus_LIMIT_CLAMPED = 1 ∧
    (after (.nodePowerLimitWrite (w 1500) 0) {}).fld rNodePowerStatus fNodePowerStatus_LIMIT_EFF_W = 1500 := by decide +kernel

/-- A node whose slot 1 has a key enrolled. -/
def enrolled : State := { sec := { keys := [(0, []), (1, [7]), (0, []), (0, [])] } }

/-- A write that enrols or revokes a slot. -/
def enrollWord (k : Nat) : Word := fSecEnrollCtl_GO.put 1 (fSecEnrollCtl_SLOT.put k 0)

/-- A write that extends a slot. -/
def extWord (k : Nat) : Word := fSecExtCtl_GO.put 1 (fSecExtCtl_SLOT.put k 0)

theorem witness_Security : fSecEnrollCtl_GO.get (enrollWord 1) = 1 ∧ fSecEnrollCtl_SLOT.get (enrollWord 1) = 1 ∧ (enrolled.keySlot 0).1 = 0 ∧ (enrolled.keySlot 1).1 = 1 ∧
    (∀ x ∈ enrolled.sec.keys, x.1 ≠ 2) ∧ enrolled.flt.stopped = false ∧ (after (.secEnroll 0 (enrollWord 1)) enrolled).sec = enrolled.sec ∧
    (after (.secEnroll 0 (enrollWord 1)) enrolled).fld rSecEnrollCtl fSecEnrollCtl_ERR = 1 ∧ (after (.secRevoke 0 (enrollWord 0)) enrolled).sec = enrolled.sec ∧
    (enrolled.modFlt (fun t => { t with stopped := true })).flt.stopped = true := by decide +kernel

theorem witness_UserSlotExtended : ({} : State).flt.stopped = false ∧ (∀ k ∈ [3, 7, 8, 15, 16], fSecExtCtl_GO.get (extWord k) = 1 ∧ fSecExtCtl_SLOT.get (extWord k) = k) ∧
    ({} : State).owned.contains (ownKey rSecExtCtl fSecExtCtl_SLOT) = false ∧ (after (.secExtend 0 (extWord 7)) {}).fld rSecExtCtl fSecExtCtl_ERR = 1 ∧
    (after (.secExtend 0 (extWord 16)) {}).fld rSecExtCtl fSecExtCtl_ERR = 1 := by decide +kernel

/-- PARAMS of ATTEST: an OP for a node, with this room. -/
def atPs (op target room : Nat) : List Byte :=
  leBytes 1 op ++ leBytes 1 0 ++ leBytes 2 target ++ leBytes 2 16 ++ leBytes 2 0 ++ leBytes 4 0 ++ leBytes 4 room ++ List.replicate 32 0

/-- An ATTEST with its result at this address. -/
def atRec (op target room a : Nat) : Rec := { rec0 0x03 (atPs op target room) with cmd := { cmd0 0x03 (atPs op target room) with resultAddr := a } }

/-- A member of a fabric that has that request. -/
def attestant (r : Rec) : State := { member0 with recs := [(0, r)], queues := [(0, q0)] }

theorem witness_Attest_local : (∀ op ∈ [0, 1], canRun (attestant (atRec op 0 4096 64)) 0x03 (atRec op 0 4096 64) = true ∧ atOp (atPs op 0 4096) = op ∧ atFieldsOk (atPs op 0 4096) = true ∧
      (attestant (atRec op 0 4096 64)).resultOk 0 64 (atRoom (atPs op 0 4096)) = true ∧ atTarget (atPs op 0 4096) = 0 ∧ atTarget (atPs op 1 4096) = 1) ∧
    (attestant (atRec 0 0 4096 64)).attestRoom = true ∧ (attestant (atRec 0 0 4096 64)).nodeId = 1 := by decide +kernel

/-- A report has bytes, so that no room is too little. -/
theorem reportBody_not_empty (s : State) (nonce : List Byte) (first : Nat) (log : List MLogEnt) : 0 < (s.reportBody nonce first log).length := by
  unfold State.reportBody
  simp only [List.length_append, List.length_cons]
  omega

theorem report_bytes (s : State) (nonce : List Byte) (first max : Nat) :
    (s.report nonce first max).1 = s.reportBody nonce first (s.reportLog first max) ++ (s.sign 3 (s.reportBody nonce first (s.reportLog first max))).1 := rfl

theorem report_not_empty (s : State) (nonce : List Byte) (first max : Nat) : 0 < (s.report nonce first max).1.length := by
  rw [report_bytes, List.length_append]
  exact Nat.lt_of_lt_of_le (reportBody_not_empty s nonce first _) (Nat.le_add_right _ _)

theorem witness_Attest_room (s : State) : atRoom (atPs 0 0 0) = 0 ∧ atOp (atPs 0 0 0) ≠ 1 ∧ 0 < (s.attested (atPs 0 0 0)).1.length := by
  have h : atOp (atPs 0 0 0) ≠ 1 := by decide +kernel
  refine ⟨by decide +kernel, h, ?_⟩
  rw [State.attested, if_neg h]; exact report_not_empty s _ _ _

/-- Eight answers that have not left. -/
def attestBusy8 (s : State) : State :=
  s.modFab (fun f => { f with handoff := (List.range 8).map (fun n => ({ vc := 2, ptype := 1, opcode := opAttest, dstNode := 7, srcNode := 1, length := 0, seq := n } : Packet)) })

theorem witness_Attest_remote : (∀ op ∈ [0, 1], (after (if op = 0 then .attestReport 0 0 5 else .attestCertChain 0 0 5) (attestant (atRec op 7 4096 64))).fab.handoff.map
      (fun k => (k.vc, k.dstNode)) = [(1, 7)] ∧ cpls (after (if op = 0 then .attestReport 0 0 5 else .attestCertChain 0 0 5) (attestant (atRec op 6 4096 64))) =
        [(5, scUnreachable, 0, 0, 0)] ∧ cpls (after (if op = 0 then .attestReport 0 0 5 else .attestCertChain 0 0 5) (attestant (atRec op 7 4096 65))) = [(5, scBadCommand, 0, 0, 0)]) ∧
    (attestBusy8 (attestant (atRec 0 0 4096 64))).attestRoom = false ∧ (attestant (atRec 0 0 4096 65)).attestCheck 0 (atRec 0 0 4096 65).cmd = some scBadCommand := by decide +kernel

/-- A request of node 7. -/
def atPacket (ps : List Byte) : Packet := { vc := 1, ptype := 0, opcode := opAttest, dstNode := 1, srcNode := 7, length := 96, seq := 3, data := ps }

theorem witness_Attest_serve : atFieldsOk (fitBytes 96 (atPs 0 1 4096)) = true ∧ member0.attestRoom = true ∧ member0.flt.stopped = false ∧
    atFieldsOk (fitBytes 96 (atPs 2 1 4096)) = false ∧
    (after (.remoteAttestRequest (atPacket (atPs 2 1 4096))) member0).fab.handoff.map (fun y => (y.ptype, y.dstNode, y.seq, y.args)) = [(2, 7, 3, [scRemoteError])] := by
  decide +kernel

theorem witness_Attest_answer : let k : Packet := { vc := 2, ptype := 1, opcode := opAttest, dstNode := 1, srcNode := 7, length := 0, seq := 9, args := [scDone, 0, 3, 0, 4] }
    k.resetGen = asking.resetGen k.dstPart ∧ (kvGet? 9 asking.fab.out).map (fun o => (o.kind, o.rid)) = some (opAttest, some 0) ∧ asking.pstate 0 ≠ stResetting ∧
    cpls (after (.remoteAttestResponse k) asking) = [(5, scDone, 3, 0, 4)] ∧
    cpls (after (.remoteAttestResponse { k with args := [scInternal] }) asking) = [(5, scRemoteError, 0, 0, 0)] := by decide +kernel

theorem witness_Management : let s : State := ({} : State).setFld rNodeStatus fNodeStatus_BOOT_STAGE 9; let young := s.setFld rNodeStatus fNodeStatus_BOOT_STAGE 3
    s.board.power = true ∧ s.recovering = false ∧ (s.setFld rNodeStatus fNodeStatus_RECOVERY 1).recovering = true ∧ s.attestRoom = true ∧
    (∀ k ∈ List.range 24, s.slotReady k = true) ∧ (∀ k ∈ [1, 7], young.slotReady k = false) ∧ young.slotReady 0 = true ∧
    (after (.spdmGetMeasurements 25 []) s).smb = [.invalidRequest] ∧ (after (.spdmGetMeasurements 0 []) s).smb = [.invalidRequest] ∧
    (after (.spdmChallenge 4 []) s).smb = [.invalidRequest] ∧ (after (.spdmUnsupportedRequest 3) s).smb = [.unsupportedRequest 3] := by decide +kernel

theorem witness_Management_busy : (attestBusy8 member0).attestRoom = false ∧ (after (.spdmChallenge 3 []) (attestBusy8 member0)).smb = [.busy] ∧
    atOp (fitBytes 96 (atPs 0 1 0)) = 0 ∧ atFieldsOk (fitBytes 96 (atPs 0 1 0)) = true ∧ atTarget (fitBytes 96 (atPs 0 1 0)) = member0.nodeId ∧
    (after (.spdmVendorDefinedRequest (atPs 1 1 0)) member0).smb = [.invalidRequest] ∧ (after (.spdmVendorDefinedRequest (atPs 0 7 0)) member0).smb = [.invalidRequest] := by
  decide +kernel

/-! ### The register space and the image load -/

theorem witness_RegisterWrites : let s := served { sqCount := 2 }
    s.sqCount 0 ≠ 0 ∧ s.sqCount 1 = 0 ∧ s.board.power = true ∧ s.recovering = false ∧ s.flt.stopped = false ∧
    (after (.bar0BadAccess 1 0x3FFFFFF true) s).fld rNodeAccessErr fNodeAccessErr_LAST_PF = 1 ∧
    fMemCfg_LOST_MS.put 5 0 &&& rsvMask rMemCfg = 0 ∧ (after (.registerWrite 0 rMemCfg (fMemCfg_LOST_MS.put 5 0) .node) s).fld rMemCfg fMemCfg_LOST_MS = 10 ∧
    (after (.registerWrite 0 rMemCfg (fMemCfg_LOST_MS.put 60001 0) .node) s).fld rMemCfg fMemCfg_LOST_MS = 60000 ∧ BitVec.allOnes 64 &&& rsvMask rFtlGcCfg ≠ 0 ∧
    (after (.registerWrite 0 rFtlGcCfg (BitVec.allOnes 64) .node) s).fld rNodeAccessErr fNodeAccessErr_RSV_WRITE = 1 := by decide +kernel

theorem witness_RegisterWrites_half : let s := served { sqCount := 2 }
    s.sqCount 0 ≠ 0 ∧ s.board.power = true ∧ s.flt.stopped = false ∧ (after (.registerWrite 0 0x80004 7 .winHalf) s).win 0 0x80000 = 0x700000000 ∧
    fWinAccessErr.get ((after (.registerWrite 0 0x40004 7 .winHalf) s).win 0 0x40000) = 1 ∧
    (after (.windowBadAccess 1 12 false) s).out = [.read true 1 12 0] ∧ (after (.windowBadAccess 0 12 false) s).out = [.read true 0 12 (BitVec.allOnes 64)] ∧
    (after (.bar0BadAccess 0 12 false) s).out = [.read false 0 12 (BitVec.allOnes 64)] := by decide +kernel

theorem witness_RegisterWrites_window : let s := served { sqCount := 2 }
    fWinAccessErr.get ((after (.windowBadAccess 0 12 true) s).win 0 0x40000) = 1 ∧ (0xF0 : Word) &&& winStatusRsv = 0 ∧
    fWinAccessErr.get ((after (.registerWrite 0 0x40000 0xF0 .win) (after (.windowBadAccess 0 12 true) s)).win 0 0x40000) = 0 := by decide +kernel

/-- BRIDLE_LOAD of so many bytes at an address, started. -/
def loadRec (a n : Nat) : Rec := recL 0x04 (leBytes 8 a ++ leBytes 4 n)

/-- The same of another partition. -/
def loadOther : State := { recs := [(0, { loadRec 0 264 with part := 5 })], queues := [(320, q0)] }

theorem witness_BridleLoad_refused : let s := node (loadRec 0 264)
    canRun s 0x04 (loadRec 0 264) = true ∧ (loadRec 0 264).long.map (fun l => l.running) = some true ∧ s.imageAddrOk 0 0 264 = true ∧
    cpls (after (.bridleLoad 0 0 5 []) (node (loadRec 4 264))) = [(5, scBadCommand, 0, 0, 0)] ∧ (node (loadRec (2 ^ 63) 264)).imageAddrOk 0 (2 ^ 63) 264 = false ∧
    cpls (after (.bridleLoad 0 0 5 []) (node (loadRec (2 ^ 63) 264))) = [(5, scBadHandle, 0, 0, 0)] ∧ (loadOther.readyRec 5 0 5 0x04).isSome = true := by decide +kernel

/-- A load under way of this image. -/
def checking (bs : List Byte) : State := { under 0x04 [] with load := some { rid := 0, image := bs, entry := 0, applying := false } }

/-- A partial image of the END record alone: partition 3 is taken away. -/
def partialImage : List Byte := List.replicate 16 0 ++ leBytes 1 1 ++ List.replicate 3 0 ++ leBytes 4 1 ++ leBytes 8 8 ++ List.replicate 224 0 ++ leBytes 2 0x7F01 ++ leBytes 2 1 ++ leBytes 4 0

theorem witness_BridleLoad_body : let s := checking partialImage
    isUnder s 0x04 { rec0 0x04 [] with phase := .running } = true ∧ s.readyRec 0 0 5 0x04 = none ∧ imgKind partialImage ≠ 0 ∧
    (match s.checkImage partialImage with | .ok _ => true | .error _ => false) = true ∧ (match walk [] with | .ok _ => false | .error _ => true) = true ∧
    (match s.checkImage [] with | .ok _ => false | .error _ => true) = true ∧ (match walk partialImage with | .ok _ => true | .error _ => false) = true ∧
    (match ({ s with flash := { ns := [(nsKey 3 1, { size := 8 })] } } : State).checkImage partialImage with | .ok _ => 0 | .error e => e.reason) = 0x1B := by decide +kernel

theorem shaBlock_length (hs : List W32) (b : List Byte) (h : hs.length = 8) : (shaBlock hs b).length = 8 := by
  simp [shaBlock, h]

theorem shaBlocks_length : ∀ (n : Nat) (hs : List W32) (bs : List Byte), hs.length = 8 → (shaBlocks n hs bs).length = 8
  | 0, _, _, h => h
  | n + 1, hs, _, h => shaBlocks_length n _ _ (shaBlock_length hs _ h)

/-- A digest has 32 bytes. -/
theorem sha256_length (bs : List Byte) : (sha256 bs).length = 32 := by
  have h8 := shaBlocks_length (((bs ++ [(0x80 : Byte)] ++ List.replicate ((119 - bs.length % 64) % 64) 0 ++ beBytes 8 (8 * bs.length)).length) / 64) shaInit
    (bs ++ [(0x80 : Byte)] ++ List.replicate ((119 - bs.length % 64) % 64) 0 ++ beBytes 8 (8 * bs.length)) rfl
  have h4 : ∀ (l : List W32), (l.flatMap (fun w => beBytes 4 w.toNat)).length = 4 * l.length := by
    intro l
    induction l with
    | nil => rfl
    | cons x l ih => rw [List.flatMap_cons, List.length_append, ih, List.length_cons]; rw [beBytes, List.length_reverse, length_leBytes]; omega
  rw [sha256]; exact (h4 _).trans (by rw [h8])

/-- The two ends of a full image of the END record alone, around its digest. -/
def headPart : List Byte :=
  [0x56, 0x58, 0x42, 0x49] ++ leBytes 2 2 ++ leBytes 2 0 ++ leBytes 2 9 ++ leBytes 1 0 ++ leBytes 1 3 ++ leBytes 4 264 ++ leBytes 4 0 ++ leBytes 4 1 ++ leBytes 8 0 ++
    leBytes 8 1 ++ leBytes 8 0
def tailPart : List Byte := List.replicate 176 0 ++ leBytes 2 0x7F01 ++ leBytes 2 1 ++ leBytes 4 0

/-- That image. -/
def fullImage : List Byte := headPart ++ (sha256 (headPart ++ List.replicate 32 0 ++ tailPart) ++ tailPart)

theorem fieldAt_head (a b : List Byte) (o n : Nat) (h : o + n ≤ a.length) : fieldAt (a ++ b) o n = fieldAt a o n := by
  rw [fieldAt, fieldAt, List.drop_append_of_le_length (by omega), List.take_append_of_le_length (by rw [List.length_drop]; omega)]

theorem headPart_length : headPart.length = 48 := by decide +kernel

theorem fullImage_field (o n : Nat) (h : o + n ≤ 48) : fieldAt fullImage o n = fieldAt headPart o n := fieldAt_head _ _ o n (by rw [headPart_length]; exact h)

theorem fullImage_digest : sha256 (imgDigested fullImage) = (fullImage.drop 48).take 32 := by
  have hd : fullImage.drop 48 = sha256 (headPart ++ List.replicate 32 0 ++ tailPart) ++ tailPart := List.drop_left' headPart_length
  have ht : fullImage.drop 80 = tailPart := by
    rw [show 80 = 48 + 32 by rfl, ← List.drop_drop, hd, List.drop_left' (sha256_length _)]
  have h256 : fullImage.drop 256 = tailPart.drop 176 := by rw [show 256 = 80 + 176 by rfl, ← List.drop_drop, ht]
  have hs : imgSigned fullImage = false := by rw [imgSigned, fullImage_field 17 1 (by decide)]; decide +kernel
  rw [hd, List.take_left' (sha256_length _), imgDigested, hs, ht, h256]
  refine congrArg sha256 ?_
  rw [fullImage, List.take_left' headPart_length]
  decide +kernel

theorem witness_BridleLoad_head : let s := node (loadRec 0 264); let v := (s.readInput 0 (0, false) 0 264 fullImage).2
    (s.readInput 0 (0, false) 0 264 fullImage).1 = fullImage ∧ v.headCheck fullImage 264 = none ∧ imgKind fullImage = 0 ∧ s.load = none := by
  have hl : fullImage.length = 264 := by
    rw [fullImage, List.length_append, List.length_append, headPart_length, sha256_length]; decide +kernel
  have hk : imgKind fullImage = 0 := by rw [imgKind, fullImage_field 16 1 (by decide)]; decide +kernel
  have hs : imgSigned fullImage = false := by rw [imgSigned, fullImage_field 17 1 (by decide)]; decide +kernel
  have ht : fullImage.drop 80 = tailPart := by
    rw [show 80 = 48 + 32 by rfl, ← List.drop_drop, fullImage, List.drop_left' headPart_length, List.drop_left' (sha256_length _)]
  have hz : zeroAt fullImage 96 160 = true := by rw [zeroAt, show 96 = 80 + 16 by rfl, ← List.drop_drop, ht]; decide +kernel
  have h4 : fullImage.take 4 = [0x56, 0x58, 0x42, 0x49] := by
    rw [fullImage, List.take_append_of_le_length (by decide +kernel)]; decide +kernel
  have f : ∀ o n v, o + n ≤ 48 → fieldAt headPart o n = v → fieldAt fullImage o n = v := fun o n v h e => (fullImage_field o n h).trans e
  refine ⟨?_, ?_, hk, rfl⟩
  · rw [show (node (loadRec 0 264)).readInput 0 (0, false) 0 264 fullImage = (fullImage.take 264 ++ List.replicate (264 - fullImage.length) 0, (node (loadRec 0 264)).chargeHostRead 0 (0, false) 264) from rfl]
    rw [hl, List.take_of_length_le (by omega)]; simp
  · show ((node (loadRec 0 264)).chargeHostRead 0 (0, false) 264).headCheck fullImage 264 = none
    simp only [State.headCheck, h4, hs, hz, hk, imgLength, imgSerial, imgBase, imgFirst, fullImage_digest, f 4 2 2 (by decide) (by decide +kernel),
      f 8 2 9 (by decide) (by decide +kernel), f 10 1 0 (by decide) (by decide +kernel), f 11 1 3 (by decide) (by decide +kernel),
      f 12 4 264 (by decide) (by decide +kernel), f 17 1 0 (by decide) (by decide +kernel), f 18 2 0 (by decide) (by decide +kernel),
      f 32 8 1 (by decide) (by decide +kernel), f 40 8 0 (by decide) (by decide +kernel)]
    decide +kernel

theorem witness_Attest_result : PlainResult (attestant (atRec 0 0 4096 64)) (atRec 0 0 4096 64) ∧ PlainResult asking { rec0 0x05 [] with phase := .running } ∧
    (attestant (atRec 0 0 4096 64)).named (atRec 0 0 4096 64) = attestant (atRec 0 0 4096 64) :=
  ⟨fun h => absurd h (by decide), fun h => absurd h (by decide), by decide +kernel⟩

theorem witness_BridleLoad_named : (node (loadRec 0 264)).named (loadRec 0 264) = node (loadRec 0 264) ∧
    (node (loadRec (2 ^ 63) 264)).named (loadRec (2 ^ 63) 264) = node (loadRec (2 ^ 63) 264) ∧ (loadRec 0 264).flow = (0, false) := by decide +kernel

/-! ### Time, streams and keys -/

theorem witness_TimeOnlyByPower : (∀ f, Instr.logMirror ≠ .powerOn f) ∧ Instr.logMirror ≠ .powerDown ∧ ∃ t, exec .logMirror { time := 7 } = .next t ∧ t.time = 7 :=
  ⟨(fun _ h => by cases h), by decide, _, rfl, by decide⟩

/-- A node that fetches for a configured partition: streams 0 to 3, of which stream 2 goes to queue 1. -/
def routed : State :=
  { fetcher with parts := [(0, { cfg := some { sqCount := 2, ctxG0 := 4, ctxG1 := 4, streamCount := 4, routes := [{ kind := 0, cls := 0, first := 2, count := 1, target := 1 }] } })] }.setPstate 0 stReady

/-- The bytes of a NOP of this stream. -/
def nopBytes (stream : Nat) : List Byte := leBytes 1 0 ++ leBytes 1 0 ++ leBytes 2 5 ++ leBytes 2 stream ++ List.replicate 122 0

theorem witness_StreamChecked : routed.mayFetch 0 0 = true ∧ routed.ctxAvail 0 (routed.entryPool 0) ≠ 0 ∧ routed.configured 0 = true ∧ routed.pipelineOk 0 0 = true ∧ (paramFields 0).isSome = true ∧ issuerOk 0 0 = true ∧
    (∀ n ∈ [0, 2, 3, 4], (HostCmd.ofBytes (nopBytes n)).opcode = 0 ∧ (HostCmd.ofBytes (nopBytes n)).reservedOk = true ∧ (HostCmd.ofBytes (nopBytes n)).stream = n) ∧
    cpls (after (.commandFetch 0 0 (nopBytes 4)) routed) = [(5, scBadCommand, 0, 0, 0)] ∧ cpls (after (.commandFetch 0 0 (nopBytes 2)) routed) = [(5, scBadCommand, 0, 0, 0)] ∧
    (after (.commandFetch 0 0 (nopBytes 4)) routed).ctr (cPrtBadStream 0) = 1 ∧ (after (.commandFetch 0 0 (nopBytes 3)) routed).ctr (cPrtBadStream 0) = 0 ∧
    cpls (after (.commandFetch 0 0 (nopBytes 3)) routed) = [] := by decide +kernel

/-- A unit whose open list has fp32 keys. -/
def listedFp : State := { sels := [(0, { lists := [(3, { owner := none, k := 2, higher := false, fp := true, dedup := false })] })] }

theorem witness_NanKeys : (kvGet? 3 (listedFp.sel 0).lists).map (fun l => l.isNan 0x7FC00000) = some true ∧ listedFp.ctr (cCluSelNan 0 0) = 0 ∧ listedFp.ctr (cCluSelEntries 0 0) = 0 ∧
    ((kvGet? 3 ((after (.selectInsert 0 3 0x7FC00000 6 1 0) listedFp).sel 0).lists).map (fun l => (l.entries, l.nan))) = some ([], 1) ∧
    (after (.selectInsert 0 3 0x7FC00000 6 1 0) listedFp).ctr (cCluSelNan 0 0) = 1 := by decide +kernel

theorem witness_SelectionInsert_duplicates : let l := { full2 with dedup := true, tied := 4 }; let e := fun (k : Nat) => ({ key := k, id := 1, seg := 0, node := 0, ord := 0 } : SelEntry)
    (l.entries.find? (fun y => y.id == (e 5).id)).map (fun x => x.key) = some 5 ∧ l.better 5 5 = false ∧ l.better 4 5 = true ∧
    ((l.insert (e 5)).entries.map (fun x => x.key), (l.insert (e 5)).dups, (l.insert (e 5)).tied) = ([3, 5], 1, 4) ∧
    ((l.insert (e 4)).entries.map (fun x => x.key), (l.insert (e 4)).dups, (l.insert (e 4)).tied) = ([3, 4], 1, 0) := by decide +kernel

theorem witness_SelectionInsert_order : (∀ x ∈ full2.entries, full2.isNan x.key = false) ∧ full2.entries.Pairwise (fun x y => full2.better y.key x.key = false) ∧ 1 ≤ full2.k ∧
    (full2.placeIn { key := 3, id := 9, seg := 0, node := 0, ord := 0 } full2.entries).map (fun x => x.id) = [0, 9, 1] := by decide +kernel

end Sys2Proof.Tests
end

section
/-! SUPPORT. What counts, reports, interrupts and completions leave of the counters: each changes the counter it names, and otherwise only
counters of the fault block and above it. -/

namespace Sys2Proof.Machine

/-! ### Operations that leave every counter -/

@[simp] theorem State.ctr_markSat (s : State) (o x : Nat) : (s.markSat o).ctr x = s.ctr x := by
  unfold State.markSat
  split
  · rfl
  · simp

@[simp] theorem State.ctr_sendMsix (s : State) (p v x : Nat) : (s.sendMsix p v).ctr x = s.ctr x := by
  unfold State.sendMsix State.clearCoal
  dsimp only
  split
  · simp
  · split <;> simp

@[simp] theorem State.ctr_latch (s : State) (a b x : Nat) : (s.latch a b).ctr x = s.ctr x := by simp [State.latch]

@[simp] theorem State.ctr_logAppend (s : State) (k : Nat) (b : List Byte) (x : Nat) : (s.logAppend k b).ctr x = s.ctr x := by
  unfold State.logAppend
  dsimp only
  repeat' split
  all_goals simp

@[simp] theorem State.ctr_eventIrq (s : State) (a b x : Nat) : (s.eventIrq a b).ctr x = s.ctr x := by
  unfold State.eventIrq
  split
  · exact s.ctr_sendMsix _ _ x
  · rfl

@[simp] theorem State.ctr_addLost (s : State) (a b x : Nat) : (s.addLost a b).ctr x = s.ctr x := by
  unfold State.addLost
  split
  · rfl
  · simp

@[simp] theorem State.ctr_tallyHour (s : State) (a b c x : Nat) : (s.tallyHour a b c).ctr x = s.ctr x := by simp [State.tallyHour]

@[simp] theorem State.ctr_coalesce (s : State) (p q x : Nat) : (s.coalesce p q).ctr x = s.ctr x := by
  unfold State.coalesce
  dsimp only
  split
  · exact s.ctr_sendMsix _ _ x
  · rfl

@[simp] theorem State.ctr_postCompletion (s : State) (p q cid stream status flags count r0 r1 : Nat) (n : Bool) (x : Nat) :
    (s.postCompletion p q cid stream status flags count r0 r1 n).ctr x = s.ctr x := by
  cases n <;> simp [State.postCompletion]

@[simp] theorem State.ctr_putDigest (s : State) (off : Nat → Nat) (bs : List Byte) (x : Nat) : (s.putDigest off bs).ctr x = s.ctr x := by
  simp [State.putDigest]

@[simp] theorem State.ctr_measure (s : State) (slot kind outcome part serial : Nat) (d : List Byte) (x : Nat) :
    (s.measure slot kind outcome part serial d).ctr x = s.ctr x := by
  unfold State.measure State.logMeasure
  dsimp only
  split <;> simp

@[simp] theorem State.ctr_measureModel (s v : State) (p : Nat) (c : HostCmd) (outcome x : Nat) :
    (s.measureModel v p c outcome).ctr x = s.ctr x := by
  unfold State.measureModel
  repeat' split
  · rfl
  · rfl
  · exact s.ctr_measure _ _ _ _ _ _ x

/-- A choice between two states that each leave a counter leaves it. -/
theorem State.ctr_ite {s t u : State} {x : Nat} {c : Prop} [Decidable c] (h : t.ctr x = s.ctr x) (g : u.ctr x = s.ctr x) :
    (if c then t else u).ctr x = s.ctr x := by
  split
  · exact h
  · exact g

/-- A fold of steps that each leave a counter leaves it. -/
theorem State.ctr_foldl {α : Type} (f : State → α → State) (x : Nat) (h : ∀ s a, (f s a).ctr x = s.ctr x) (l : List α) (s : State) :
    (l.foldl f s).ctr x = s.ctr x := by
  induction l generalizing s with
  | nil => rfl
  | cons a l ih => exact (ih (f s a)).trans (h s a)

@[simp] theorem State.ctr_markHeads (s : State) (port x : Nat) : (s.markHeads port).ctr x = s.ctr x := by
  unfold State.markHeads
  exact State.ctr_foldl _ x (fun t _ => State.ctr_foldl _ x (fun u _ => by simp) _ t) _ s

/-! ### Counts -/

theorem State.ctr_rawBump_ne (s : State) {o x : Nat} (n : Nat) (h : x ≠ o) : (s.rawBump o n).1.ctr x = s.ctr x := by
  simp [State.rawBump, State.ctr_setCtr, h]

section
variable {x : Nat} (h : x < 0x2800000)
include h

theorem State.ctr_drogue (s : State) (a b : Nat) : (s.drogue a b).1.ctr x = s.ctr x := by
  have hx : x ≠ cSnpMissed := by unfold cSnpMissed; omega
  have g := s.ctr_rawBump_ne 1 hx
  unfold State.drogue
  dsimp only
  repeat' split
  · rfl
  · exact s.ctr_latch a b x
  · simp
  · rw [State.ctr_markSat, g]
  · exact g

theorem State.ctr_evPlace (s : State) (a b c d e f g : Nat) : (s.evPlace a b c d e f g).ctr x = s.ctr x := by
  have h0 : (if a = 0 then s.tallyHour b c e else s).ctr x = s.ctr x := by split <;> simp
  unfold State.evPlace
  generalize (if a = 0 then s.tallyHour b c e else s) = s0 at h0
  dsimp only
  split
  · simpa using h0
  · split <;> simp [State.ctr_drogue h, h0]

theorem State.ctr_evCount (s : State) (a : Nat) : (s.evCount a).1.ctr x = s.ctr x := by
  unfold State.evCount
  repeat' split
  · exact s.ctr_rawBump_ne 1 (by unfold cFltCorrected; omega)
  · exact s.ctr_rawBump_ne 1 (by unfold cFltContained; omega)
  · rfl

theorem State.ctr_event (s : State) (a b c d e f g : Nat) : (s.event a b c d e f g).ctr x = s.ctr x := by
  have hc : x ≠ cFltCorrected := by unfold cFltCorrected; omega
  unfold State.event
  dsimp only
  repeat' split
  all_goals simp only [State.ctr_evPlace h, State.ctr_rawBump_ne _ _ hc, State.ctr_markSat, State.ctr_evCount h]

/-- A count leaves every other counter below the fault block. -/
theorem State.ctr_bump_ne (s : State) {o : Nat} (n : Nat) (ho : x ≠ o) : (s.bump o n).ctr x = s.ctr x := by
  have g := s.ctr_rawBump_ne n ho
  unfold State.bump
  dsimp only
  repeat' split
  all_goals simp only [State.ctr_event h, State.ctr_markSat, g]

end

/-- A counter below its limit counts what is added. -/
theorem State.ctr_bump_self (s : State) (o n : Nat) (h : s.ctr o + n < 2 ^ 48 - 1) : (s.bump o n).ctr o = s.ctr o + n := by
  rw [State.bump_eq s o n h, State.ctr_setCtr, if_pos rfl]

/-! ### The meter -/

theorem State.ctr_meterUnit (s : State) (p a l : Nat) {x : Nat} (h : x < 0x2400000) : (s.meterUnit p a l).1.ctr x = s.ctr x := by
  have hx : x < 0x2800000 := by omega
  have green : x ≠ cShpPGreenBytes p a := by unfold cShpPGreenBytes; omega
  have yellow : x ≠ cShpPYellowBytes p a := by unfold cShpPYellowBytes; omega
  have red : x ≠ cShpPRedBytes p a := by unfold cShpPRedBytes; omega
  unfold State.meterUnit
  dsimp only
  repeat' split
  · exact s.ctr_bump_ne hx l green
  · exact State.ctr_bump_ne hx _ l red
  · exact State.ctr_bump_ne hx _ l yellow
  · exact State.ctr_bump_ne hx _ l green

end Sys2Proof.Machine
end

section
/-! SUPPORT. The stream of a fetched command (R94): what the checks of the slot answer, what COMMAND_FETCH then does, and what of it reaches the
partition's counter of refused streams. -/

namespace Sys2Proof.Machine

/-! ### The checks of the slot -/

/-- In a configured partition a queue takes the streams of the partition's range that are routed to it (R94). -/
theorem State.streamOk_iff {s : State} {p q n : Nat} {x : PartCfg} {route : Option StreamRoute} (hc : s.configured p = true) (hx : x = s.pcfg p)
    (hr : route = x.routes.find? (fun r => decide (r.first ≤ n ∧ n < r.first + r.count))) :
    s.streamOk p q n = true ↔
      (x.streamFirst ≤ n ∧ n < x.streamFirst + x.streamCount) ∧ ((∃ r, route = some r ∧ r.kind = 0 ∧ r.target = q) ∨ (route = none ∧ q = 0)) := by
  subst hx
  unfold State.streamOk
  rw [hc]
  dsimp only
  rw [← hr]
  cases route <;> simp

/-- A command passes the checks of Table 4.2 that come before its stream's, in a configured partition. -/
structure PassesBeforeStream (s : State) (p : Nat) (c : HostCmd) : Prop where
  configured : s.configured p = true
  pipeline : s.pipelineOk p c.opcode = true
  defined : (paramFields c.opcode).isSome = true
  issuer : issuerOk p c.opcode = true
  reserved : c.reservedOk = true

/-- A command that passes the checks before its stream's is judged by its stream, and then by its CID, CFLAGS and addresses. -/
theorem PassesBeforeStream.fetchCheck_eq {s : State} {p : Nat} {c : HostCmd} (h : PassesBeforeStream s p c) (q : Nat) :
    s.fetchCheck p q c = if s.streamOk p q c.stream = false then some (scBadCommand, true)
      else if !s.cidFree p q c.cid || !c.flagsOk || (c.opcode == 6 && decide (4 < c.param 0 1)) then some (scBadCommand, false) else none := by
  obtain ⟨hc, hp, hd, hi, hr⟩ := h
  have hn : (paramFields c.opcode).isNone = false := by simpa using hd
  simp [State.fetchCheck, hc, hp, hn, hi, hr]

/-- A command that its partition may issue is no refused `BRIDLE_LOAD`. -/
theorem PassesBeforeStream.not_refusedLoad {s : State} {p : Nat} {c : HostCmd} (h : PassesBeforeStream s p c) :
    ¬(c.opcode = 4 ∧ issuerOk p 4 = false) := by
  rintro ⟨ho, hi⟩
  have := h.issuer
  rw [ho, hi] at this
  contradiction

/-! ### COMMAND_FETCH -/

/-- The state in which COMMAND_FETCH has taken the next command of a queue: its number of fetch, the head of the ring and the reserved
completion slot (R115). -/
def State.takeCommand (s : State) (p q : Nat) : State :=
  (s.putFetchNo (s.fetchNo + 1)).modQueue p q (fun x => { x with sqHead := (x.sqHead + 1) % x.sqSize, reserved := x.reserved + 1, ctxWait := false })

@[simp] theorem State.ctr_takeCommand (s : State) (p q x : Nat) : (s.takeCommand p q).ctr x = s.ctr x := by simp [State.takeCommand]

theorem takeCommand_extends (s : State) (p q : Nat) : Extends s (s.takeCommand p q) := .of_eq (by simp [State.takeCommand])

section
variable {s : State} {p q : Nat} {bytes : List Byte} {c : HostCmd} (hb : c = HostCmd.ofBytes bytes) (hm : s.mayFetch p q = true)
  (hx : s.ctxAvail p (s.entryPool p) ≠ 0)
include hb hm hx

/-- A command that fails a check of the slot, and is no refused `BRIDLE_LOAD`, completes at once with the check's status (R124). -/
theorem exec_commandFetch_refused {st : Nat} {stream : Bool} (hk : s.fetchCheck p q c = some (st, stream))
    (hl : ¬(c.opcode = 4 ∧ issuerOk p 4 = false)) :
    exec (.commandFetch p q bytes) s = .next ((if stream then (s.takeCommand p q).bump (cPrtBadStream p) 1 else s.takeCommand p q).postCompletion
      p q c.cid c.stream st 0 0 0 0 c.noIrq) := by
  subst hb
  change execCommandFetch p q bytes s = _
  simp [execCommandFetch, hm, hx, hk, hl, State.takeCommand]

/-- A command that passes the checks of the slot is staged, or completes with what its chapter finds (R124, R380). -/
theorem exec_commandFetch_passed (hk : s.fetchCheck p q c = none) :
    exec (.commandFetch p q bytes) s = .next ((s.takeCommand p q).stageCmd p q s.fetchNo c) ∨
    ∃ st, exec (.commandFetch p q bytes) s = .next ((s.takeCommand p q).refuseFetched p q c st) := by
  subst hb
  have e : exec (.commandFetch p q bytes) s = execCommandFetch p q bytes s := rfl
  rw [e]
  simp only [execCommandFetch, hm, hx, hk, Bool.not_true, Bool.false_eq_true, if_false]
  split
  · split
    · exact .inl rfl
    · exact .inr ⟨_, rfl⟩
  · exact .inl rfl

end

/-! ### The counter of refused streams -/

theorem cPrtBadStream_lt {p : Nat} (hp : p < 64) : cPrtBadStream p < 0x1800000 := by unfold cPrtBadStream; omega

theorem State.badStream_stageCmd (s : State) {p : Nat} (hp : p < 64) (q order : Nat) (c : HostCmd) :
    (s.stageCmd p q order c).ctr (cPrtBadStream p) = s.ctr (cPrtBadStream p) := by
  have hlow := cPrtBadStream_lt hp
  have drops : cPrtBadStream p ≠ cShpPDrops p 1 := by unfold cShpPDrops; omega
  have meter := s.ctr_meterUnit p 1 (128 + s.overhead p 1) (show cPrtBadStream p < 0x2400000 by omega)
  unfold State.stageCmd
  dsimp only
  refine State.ctr_ite ?_ ?_
  · rw [State.ctr_postCompletion, State.ctr_bump_ne (by omega) _ _ drops, meter]
  · simp [meter]

theorem State.badStream_noteQuota (s : State) {p : Nat} (hp : p < 64) (st : Nat) (past : Bool) :
    (s.noteQuota p st past).ctr (cPrtBadStream p) = s.ctr (cPrtBadStream p) := by
  have hlow := cPrtBadStream_lt hp
  unfold State.noteQuota State.quotaRefused
  split
  · exact s.ctr_bump_ne (by omega) 1 (by unfold cMemPQuotaRefusals; omega)
  · rfl

theorem State.badStream_notePublish (s : State) {p : Nat} (hp : p < 64) (st : Nat) :
    (s.notePublish p st).ctr (cPrtBadStream p) = s.ctr (cPrtBadStream p) := by
  have hlow := cPrtBadStream_lt hp
  unfold State.notePublish
  split
  · exact s.ctr_bump_ne (by omega) 1 (by unfold cPrtBadStream cPrtTombFull; omega)
  · rfl

theorem State.badStream_refuseFetched (s : State) {p : Nat} (hp : p < 64) (q : Nat) (c : HostCmd) (st : Nat) :
    (s.refuseFetched p q c st).ctr (cPrtBadStream p) = s.ctr (cPrtBadStream p) := by
  unfold State.refuseFetched
  dsimp only
  rw [State.ctr_postCompletion]
  repeat' split
  all_goals simp only [State.ctr_measureModel, State.badStream_notePublish _ hp, State.badStream_noteQuota _ hp]

/-! ### R94 -/

section
variable {s : State} {p q : Nat} {bytes : List Byte} {c : HostCmd} (hb : c = HostCmd.ofBytes bytes) (hm : s.mayFetch p q = true)
  (hx : s.ctxAvail p (s.entryPool p) ≠ 0) (hc : PassesBeforeStream s p c)
include hb hm hx hc

/-- A command whose stream its queue does not take completes with BAD_COMMAND and is counted. -/
theorem commandFetch_badStream (hs : s.streamOk p q c.stream = false) (hn : s.ctr (cPrtBadStream p) + 1 < 2 ^ 48 - 1) :
    ∃ t, exec (.commandFetch p q bytes) s = .next t ∧ Completes s t p q c.cid scBadCommand 0 0 0 ∧
      t.ctr (cPrtBadStream p) = s.ctr (cPrtBadStream p) + 1 := by
  have hk : s.fetchCheck p q c = some (scBadCommand, true) := by rw [hc.fetchCheck_eq, if_pos hs]
  refine ⟨_, exec_commandFetch_refused hb hm hx hk hc.not_refusedLoad, ?_, ?_⟩
  · exact Completes.after ((takeCommand_extends s p q).trans (bump_extends _ _ _)) (postCompletion_completes _ _ _ _ _ _ _ _ _ _ _)
  · rw [State.ctr_postCompletion, if_pos rfl, State.ctr_bump_self _ _ _ (by rwa [State.ctr_takeCommand]), State.ctr_takeCommand]

/-- A command whose stream its queue takes is not counted, whatever the later checks find. -/
theorem commandFetch_goodStream (hp : p < 64) (hs : s.streamOk p q c.stream = true) :
    ∃ t, exec (.commandFetch p q bytes) s = .next t ∧ t.ctr (cPrtBadStream p) = s.ctr (cPrtBadStream p) := by
  have hk := hc.fetchCheck_eq q
  rw [if_neg (by simp [hs])] at hk
  split at hk
  · exact ⟨_, exec_commandFetch_refused hb hm hx hk hc.not_refusedLoad, by simp⟩
  · obtain h | ⟨st, h⟩ := exec_commandFetch_passed hb hm hx hk
    · exact ⟨_, h, by rw [State.badStream_stageCmd _ hp, State.ctr_takeCommand]⟩
    · exact ⟨_, h, by rw [State.badStream_refuseFetched _ hp, State.ctr_takeCommand]⟩

end

/-- Settles O13: `State.streamOk_iff` says which streams a queue takes; each of the four ways for a stream to be refused contradicts it. -/
theorem streamChecked : Obligations.StreamChecked := by
  unfold Obligations.StreamChecked
  intro s p q bytes c x route hp hb hm hctx hconf hpipe hdef hiss hres hx hr
  have hc : PassesBeforeStream s p c := ⟨hconf, hpipe, hdef, hiss, hres⟩
  have hok := State.streamOk_iff (q := q) hconf hx hr
  refine ⟨fun hbad hn => commandFetch_badStream hb hm hctx hc ?_ hn,
    fun hlo hhi hroute => commandFetch_goodStream hb hm hctx hc hp (hok.mpr ⟨⟨hlo, hhi⟩, hroute⟩)⟩
  rw [← Bool.not_eq_true, hok]
  rintro ⟨⟨hlo, hhi⟩, hroute⟩
  obtain h | h | ⟨r, h, hne⟩ | ⟨h, hq⟩ := hbad
  · omega
  · omega
  · obtain ⟨r', h', hk, ht⟩ | ⟨h', -⟩ := hroute
    · obtain rfl : r' = r := Option.some.inj (h'.symm.trans h)
      omega
    · rw [h] at h'; contradiction
  · obtain ⟨r', h', -, -⟩ | ⟨-, h'⟩ := hroute
    · rw [h] at h'; contradiction
    · exact hq h'

end Sys2Proof.Machine
end

section
/-! SUPPORT. The order of floating-point values: `Num.lt` compares the values that two numbers stand for, so away from NaN it is a strict order
whose complement is transitive (R249). -/

namespace Sys2Proof.Machine

/-- The magnitude `m · 2^e` with its sign. -/
def signedMag (s : Bool) (m : Nat) (e : Int) : ℚ := (if s then -1 else 1) * m * 2 ^ e

/-- The value a number stands for, the infinities at the two ends; a NaN has none and takes that of −∞. -/
def Num.value : Num → WithBot (WithTop ℚ)
  | .nan _ => ⊥
  | .inf true => ⊥
  | .inf false => ((⊤ : WithTop ℚ) : WithBot (WithTop ℚ))
  | .fin s m e => ((signedMag s m e : WithTop ℚ) : WithBot (WithTop ℚ))

/-- A significand brought to a lower exponent keeps the value. -/
theorem sigAt_mul_zpow (s : Bool) (m : Nat) {e e0 : Int} (h : e0 ≤ e) : (sigAt s m e e0 : ℚ) * 2 ^ e0 = signedMag s m e := by
  have shift : (2 : ℚ) ^ (e - e0).toNat * 2 ^ e0 = 2 ^ e := by
    rw [← zpow_natCast, ← zpow_add₀ two_ne_zero]
    congr 1
    omega
  unfold signedMag
  rw [← shift]
  cases s <;> simp [sigAt] <;> ring

/-- Significands at one exponent compare as the values do. -/
theorem sigAt_lt_sigAt_iff (s t : Bool) (m n : Nat) {e f e0 : Int} (he : e0 ≤ e) (hf : e0 ≤ f) :
    sigAt s m e e0 < sigAt t n f e0 ↔ signedMag s m e < signedMag t n f := by
  have pos : (0 : ℚ) < 2 ^ e0 := zpow_pos two_pos e0
  rw [← sigAt_mul_zpow s m he, ← sigAt_mul_zpow t n hf, mul_lt_mul_iff_left₀ pos, Int.cast_lt]

theorem Num.lt_iff_value_lt {a b : Num} (ha : a.isNan = false) (hb : b.isNan = false) : Num.lt a b = true ↔ a.value < b.value := by
  match a, b with
  | .fin s m e, .fin t n f => simp [Num.lt, Num.value, sigAt_lt_sigAt_iff s t m n (min_le_left e f) (min_le_right e f)]
  | .fin .., .inf true => simp [Num.lt, Num.value]
  | .fin .., .inf false => simpa [Num.lt, Num.value] using WithBot.coe_lt_coe.mpr (WithTop.coe_lt_top _)
  | .inf s, .fin .. => cases s <;> simp [Num.lt, Num.value]
  | .inf s, .inf t => cases s <;> cases t <;> simp [Num.lt, Num.value]

theorem Num.lt_eq_false_iff {a b : Num} (ha : a.isNan = false) (hb : b.isNan = false) : Num.lt a b = false ↔ b.value ≤ a.value := by
  rw [← Bool.not_eq_true, Num.lt_iff_value_lt ha hb, not_lt]

end Sys2Proof.Machine
end

section
/-! SUPPORT. Selection lists (R249 to R251): the order of their keys, the place of an entry, and what an insertion does in each case of the
procedure. -/

namespace Sys2Proof.Machine

namespace SelList

/-! ### What an insertion changes leaves the order of keys and the sums -/

section
variable (l : SelList) (es : List SelEntry) (of ti le na du : Nat)

@[simp] theorem better_update :
    better { l with entries := es, offered := of, tied := ti, left := le, nan := na, dups := du } = l.better := rfl

@[simp] theorem same_update :
    same { l with entries := es, offered := of, tied := ti, left := le, nan := na, dups := du } = l.same := rfl

@[simp] theorem isNan_update :
    isNan { l with entries := es, offered := of, tied := ti, left := le, nan := na, dups := du } = l.isNan := rfl

@[simp] theorem addKey_update :
    addKey { l with entries := es, offered := of, tied := ti, left := le, nan := na, dups := du } = l.addKey := rfl

theorem selSum_update : selSum { l with offered := of, tied := ti, left := le, nan := na, dups := du } = l.selSum := rfl

@[simp] theorem placeIn_update (e : SelEntry) (xs : List SelEntry) :
    placeIn { l with entries := es, offered := of, tied := ti, left := le, nan := na, dups := du } e xs = l.placeIn e xs := by
  induction xs with
  | nil => rfl
  | cons x xs ih => simp [placeIn, ih]

end

/-! ### The order of keys (R249) -/

/-- Integer keys have no invalid value (R250). -/
theorem isNan_of_integer {l : SelList} (h : l.fp = false) (a : Nat) : l.isNan a = false := by simp [isNan, h]

theorem isNan_of_fp {l : SelList} (h : l.fp = true) (a : Nat) : l.isNan a = (dec32 a).isNan := by simp [isNan, h]

/-- What a key counts in comparisons: the integer itself, or the value of the fp32 number. -/
def rank (l : SelList) (a : Nat) : WithBot (WithTop ℚ) := if l.fp then (dec32 a).value else (((a : ℚ) : WithTop ℚ) : WithBot (WithTop ℚ))

section
variable {l : SelList} {a b c : Nat} (ha : l.isNan a = false) (hb : l.isNan b = false)
include ha hb

/-- The better key has the higher rank, or the lower one, by the list's direction. -/
theorem better_iff_rank_lt : l.better a b = true ↔ if l.higher then l.rank b < l.rank a else l.rank a < l.rank b := by
  cases hf : l.fp with
  | false => cases hh : l.higher <;> simp [better, rank, hf, hh]
  | true =>
    rw [isNan_of_fp hf] at ha hb
    cases hh : l.higher <;> simp [better, rank, hf, hh, Num.lt_iff_value_lt, ha, hb]

/-- No key is better than one that is better than it. -/
theorem not_better_of_better (hab : l.better a b = true) : l.better b a = false := by
  rw [better_iff_rank_lt ha hb] at hab
  rw [← Bool.not_eq_true, better_iff_rank_lt hb ha]
  split at hab <;> simp [*, hab.le]

/-- A key better than another is better than every key that the other comes before or equals. -/
theorem better_of_better_of_not_better (hc : l.isNan c = false) (hab : l.better a b = true) (hcb : l.better c b = false) :
    l.better a c = true := by
  rw [better_iff_rank_lt ha hb] at hab
  rw [← Bool.not_eq_true, better_iff_rank_lt hc hb] at hcb
  rw [better_iff_rank_lt ha hc]
  split at hab <;> simp only [*, if_true, Bool.false_eq_true, if_false, not_lt] at hcb ⊢
  · exact hcb.trans_lt hab
  · exact hab.trans_le hcb

end

/-- A list is best first where no entry is better than one before it (R251). -/
def BestFirst (l : SelList) (xs : List SelEntry) : Prop := xs.Pairwise (fun x y => l.better y.key x.key = false)

/-- No entry has a NaN key. -/
def NanFree (l : SelList) (xs : List SelEntry) : Prop := ∀ x ∈ xs, l.isNan x.key = false

/-! ### The place of an entry (R251) -/

theorem placeIn_perm (l : SelList) (e : SelEntry) (xs : List SelEntry) : (l.placeIn e xs).Perm (e :: xs) := by
  induction xs with
  | nil => rfl
  | cons x xs ih =>
    unfold placeIn
    split
    · rfl
    · exact (ih.cons x).trans (.swap e x xs)

@[simp] theorem length_placeIn (l : SelList) (e : SelEntry) (xs : List SelEntry) : (l.placeIn e xs).length = xs.length + 1 :=
  (l.placeIn_perm e xs).length_eq

/-- An entry that is placed makes a list that has a last entry. -/
theorem exists_getLast?_placeIn (l : SelList) (e : SelEntry) (xs : List SelEntry) : ∃ y, (l.placeIn e xs).getLast? = some y :=
  ⟨_, List.getLast?_eq_some_getLast (List.ne_nil_of_length_pos (by simp))⟩

theorem NanFree.placeIn {l : SelList} {e : SelEntry} {xs : List SelEntry} (he : l.isNan e.key = false) (h : l.NanFree xs) :
    l.NanFree (l.placeIn e xs) := by
  intro x hx
  obtain rfl | hx := List.mem_cons.mp ((l.placeIn_perm e xs).mem_iff.mp hx)
  · exact he
  · exact h x hx

/-- The place of an entry is directly after the last entry that it is not better than. -/
theorem BestFirst.placeIn_split {l : SelList} {e : SelEntry} {xs : List SelEntry} (he : l.isNan e.key = false) (hn : l.NanFree xs)
    (h : l.BestFirst xs) :
    ∃ a b, xs = a ++ b ∧ l.placeIn e xs = a ++ e :: b ∧ (∀ x ∈ a, l.better e.key x.key = false) ∧ (∀ x ∈ b, l.better e.key x.key = true) := by
  induction xs with
  | nil => exact ⟨[], [], by simp [SelList.placeIn]⟩
  | cons x xs ih =>
    obtain ⟨hx, hxs⟩ := List.forall_mem_cons.mp hn
    obtain ⟨first, rest⟩ := List.pairwise_cons.mp h
    cases hb : l.better e.key x.key with
    | true =>
      refine ⟨[], x :: xs, rfl, by simp [SelList.placeIn, hb], by simp, List.forall_mem_cons.mpr ⟨hb, fun y hy => ?_⟩⟩
      exact better_of_better_of_not_better he hx (hxs y hy) hb (first y hy)
    | false =>
      obtain ⟨a, b, rfl, place, ha, hb'⟩ := ih hxs rest
      exact ⟨x :: a, b, rfl, by simp [SelList.placeIn, hb, place], List.forall_mem_cons.mpr ⟨hb, ha⟩, hb'⟩

theorem BestFirst.placeIn {l : SelList} {e : SelEntry} {xs : List SelEntry} (he : l.isNan e.key = false) (hn : l.NanFree xs)
    (h : l.BestFirst xs) : l.BestFirst (l.placeIn e xs) := by
  obtain ⟨a, b, rfl, place, ha, hb⟩ := h.placeIn_split he hn
  obtain ⟨sorted_a, sorted_b, across⟩ := List.pairwise_append.mp h
  have after : ∀ y ∈ b, l.better y.key e.key = false := fun y hy =>
    not_better_of_better he (hn y (List.mem_append_right a hy)) (hb y hy)
  rw [place]
  refine List.pairwise_append.mpr ⟨sorted_a, List.pairwise_cons.mpr ⟨after, sorted_b⟩, fun x hx => ?_⟩
  exact List.forall_mem_cons.mpr ⟨ha x hx, across x hx⟩

/-! ### The cases of the insertion procedure (R251) -/

/-- The entry of the list that an offered one duplicates (R254). -/
def held (l : SelList) (e : SelEntry) : Option SelEntry := if l.dedup then l.entries.find? (fun y => y.id == e.id) else none

theorem held_eq_some {l : SelList} {e x : SelEntry} (hd : l.dedup = true) (hf : l.entries.find? (fun y => y.id == e.id) = some x) :
    l.held e = some x := by simp [held, hd, hf]

theorem held_eq_none_iff {l : SelList} {e : SelEntry} : l.held e = none ↔ l.dedup = false ∨ ∀ y ∈ l.entries, y.id ≠ e.id := by
  cases hd : l.dedup <;> simp [held, hd]

theorem mem_and_id_of_held {l : SelList} {e x : SelEntry} (h : l.held e = some x) : x ∈ l.entries ∧ x.id = e.id := by
  unfold held at h
  split at h
  · exact ⟨List.mem_of_find?_eq_some h, by simpa using List.find?_some h⟩
  · cases h

theorem insert_nan {l : SelList} {e : SelEntry} (hn : l.isNan e.key = true) :
    l.insert e = { l with offered := l.offered + 1, nan := l.nan + 1 } := by
  simp [SelList.insert, hn]

section
variable {l : SelList} {e x z : SelEntry} (hn : l.isNan e.key = false)
include hn

/-- A duplicate that is not better than the copy in the list is counted. -/
theorem insert_duplicate_notBetter (hx : l.held e = some x) (hb : l.better e.key x.key = false) :
    l.insert e = { l with offered := l.offered + 1, dups := l.dups + 1 } := by
  unfold held at hx
  simp [SelList.insert, hn, hx, hb]

/-- A better duplicate takes the place of the copy in the list; the ties end where it changes the last key of a full list. -/
theorem insert_duplicate_better (hx : l.held e = some x) (hb : l.better e.key x.key = true) (hz : l.entries.getLast? = some z) :
    ∃ xs y, xs = l.placeIn { e with ord := l.offered } (l.entries.filter (fun y => y.id != e.id)) ∧ xs.getLast? = some y ∧
      l.insert e = { l with offered := l.offered + 1, dups := l.dups + 1, entries := xs,
                            tied := if xs.length = l.k ∧ l.same z.key y.key = false then 0 else l.tied } := by
  obtain ⟨y, hy⟩ := l.exists_getLast?_placeIn { e with ord := l.offered } (l.entries.filter (fun y => y.id != e.id))
  obtain ⟨-, hid⟩ := mem_and_id_of_held hx
  refine ⟨_, y, rfl, hy, ?_⟩
  unfold held at hx
  by_cases ht : (l.entries.filter (fun y => y.id != e.id)).length + 1 = l.k ∧ l.same z.key y.key = false <;>
    simp [SelList.insert, place, lastKey, hn, hx, hb, hid, hz, hy, ht]

/-- An entry enters a list with room. -/
theorem insert_room (hd : l.held e = none) (hk : l.entries.length < l.k) :
    l.insert e = { l with offered := l.offered + 1, entries := l.placeIn { e with ord := l.offered } l.entries } := by
  unfold held at hd
  simp [SelList.insert, place, hn, hd, hk]

/-- An entry that is not better than the last of a full list is left out. -/
theorem insert_full_notBetter (hd : l.held e = none) (hk : l.entries.length = l.k) (hz : l.entries.getLast? = some z)
    (hb : l.better e.key z.key = false) :
    l.insert e = { l with offered := l.offered + 1, left := l.addKey l.left e.key,
                          tied := if l.same e.key z.key then l.tied + 1 else l.tied } := by
  unfold held at hd
  cases ht : l.same e.key z.key <;> simp [SelList.insert, hn, hd, hk, hz, hb, ht]

/-- An entry that is better than the last of a full list displaces it. -/
theorem insert_full_better (hd : l.held e = none) (hk : l.entries.length = l.k) (hz : l.entries.getLast? = some z)
    (hb : l.better e.key z.key = true) :
    ∃ xs y, xs = l.placeIn { e with ord := l.offered } l.entries.dropLast ∧ xs.getLast? = some y ∧
      l.insert e = { l with offered := l.offered + 1, entries := xs, left := l.addKey l.left z.key,
                            tied := if l.same z.key y.key then l.tied + 1 else 0 } := by
  obtain ⟨y, hy⟩ := l.exists_getLast?_placeIn { e with ord := l.offered } l.entries.dropLast
  refine ⟨_, y, rfl, hy, ?_⟩
  unfold held at hd
  cases ht : l.same z.key y.key <;> simp [SelList.insert, place, lastKey, hn, hd, hk, hz, hb, hy, ht]

end

/-- What an insertion makes of the entries: they stay, or the new entry is placed among those kept, which are fewer than the list may hold. -/
theorem insert_entries {l : SelList} (e : SelEntry) (hk : 1 ≤ l.k) (hl : l.entries.length ≤ l.k) :
    (l.insert e).entries = l.entries ∨
    l.isNan e.key = false ∧ ∃ kept, kept.Sublist l.entries ∧ kept.length < l.k ∧ (l.insert e).entries = l.placeIn { e with ord := l.offered } kept := by
  cases hn : l.isNan e.key with
  | true => exact .inl (by rw [insert_nan hn])
  | false =>
    cases hd : l.held e with
    | none =>
      obtain room | full := hl.lt_or_eq
      · exact .inr ⟨rfl, l.entries, .refl _, room, by rw [insert_room hn hd room]⟩
      · have hz := List.getLast?_eq_some_getLast (List.ne_nil_of_length_pos (l := l.entries) (by omega))
        cases hb : l.better e.key (l.entries.getLast _).key with
        | false => exact .inl (by rw [insert_full_notBetter hn hd full hz hb])
        | true =>
          obtain ⟨xs, y, hxs, -, eq⟩ := insert_full_better hn hd full hz hb
          exact .inr ⟨rfl, _, l.entries.dropLast_sublist, by rw [List.length_dropLast]; omega, by rw [eq, hxs]⟩
    | some x =>
      cases hb : l.better e.key x.key with
      | false => exact .inl (by rw [insert_duplicate_notBetter hn hd hb])
      | true =>
        obtain ⟨hx, hid⟩ := mem_and_id_of_held hd
        have hz := List.getLast?_eq_some_getLast (List.ne_nil_of_mem hx)
        have removed : (l.entries.filter (fun y => y.id != e.id)).length < l.entries.length :=
          List.length_filter_lt_length_iff_exists.mpr ⟨x, hx, by simp [hid]⟩
        obtain ⟨xs, y, hxs, -, eq⟩ := insert_duplicate_better hn hd hb hz
        exact .inr ⟨rfl, l.entries.filter (fun y => y.id != e.id), List.filter_sublist, by omega, by rw [eq, hxs]⟩

/-- An insertion keeps a list within its size, without NaN keys and best first. -/
theorem insert_keeps {l : SelList} (e : SelEntry) (hk : 1 ≤ l.k) (hl : l.entries.length ≤ l.k) (hn : l.NanFree l.entries)
    (hs : l.BestFirst l.entries) :
    (l.insert e).entries.length ≤ l.k ∧ l.NanFree (l.insert e).entries ∧ l.BestFirst (l.insert e).entries := by
  obtain eq | ⟨he, kept, sub, short, eq⟩ := insert_entries e hk hl
  · rw [eq]
    exact ⟨hl, hn, hs⟩
  · have hn' : l.NanFree kept := fun x hx => hn x (sub.subset hx)
    rw [eq, length_placeIn]
    exact ⟨short, hn'.placeIn he, BestFirst.placeIn he hn' (hs.sublist sub)⟩

end SelList

/-! ### Entries offered to a unit -/

@[simp] theorem State.sel_modSel_self (s : State) (u : Nat) (f : SelUnit → SelUnit) : (s.modSel u f).sel u = f (s.sel u) := by
  simp [State.sel, State.modSel, kvGetD]

@[simp] theorem State.ctr_modSel (s : State) (u : Nat) (f : SelUnit → SelUnit) (x : Nat) : (s.modSel u f).ctr x = s.ctr x := by
  simp [State.modSel]

@[simp] theorem State.sel_bump (s : State) (o n u : Nat) : (s.bump o n).sel u = s.sel u := by simp [State.sel]

@[simp] theorem State.sel_selCount (s : State) (u n : Nat) (l m : SelList) (v : Nat) : (s.selCount u n l m).sel v = s.sel v := by
  unfold State.selCount
  split <;> split <;> simp

/-- One entry offered to an open list is inserted, and the unit counts what that changes. -/
theorem State.selOffer_singleton {s : State} {u lid : Nat} {l : SelList} (hl : kvGet? lid (s.sel u).lists = some l) (e : SelEntry) :
    s.selOffer u lid [e] = (s.modSel u (fun x => { x with lists := kvPut lid (l.insert e) x.lists })).selCount u 1 l (l.insert e) := by
  simp [State.selOffer, hl, SelList.insertAll]

/-- An insertion that met a NaN key and no duplicate adds one to the unit's NaN counter. -/
theorem State.ctr_selCount_nan (s : State) {u : Nat} {l m : SelList} (hm : m.nan = l.nan + 1) (hd : m.dups = l.dups)
    (hent : s.ctr (cCluSelEntries (u / 2) (u % 2)) + 1 < 2 ^ 48 - 1) (hnan : s.ctr (cCluSelNan (u / 2) (u % 2)) + 1 < 2 ^ 48 - 1) :
    (s.selCount u 1 l m).ctr (cCluSelNan (u / 2) (u % 2)) = s.ctr (cCluSelNan (u / 2) (u % 2)) + 1 := by
  have other : cCluSelNan (u / 2) (u % 2) ≠ cCluSelEntries (u / 2) (u % 2) := by
    unfold cCluSelNan cCluSelEntries
    omega
  have offered : (s.bump (cCluSelEntries (u / 2) (u % 2)) 1).ctr (cCluSelNan (u / 2) (u % 2)) = s.ctr (cCluSelNan (u / 2) (u % 2)) := by
    rw [State.bump_eq s _ 1 hent, State.ctr_setCtr, if_neg other]
  have counts : s.selCount u 1 l m = (s.bump (cCluSelEntries (u / 2) (u % 2)) 1).bump (cCluSelNan (u / 2) (u % 2)) 1 := by
    simp [State.selCount, hm, hd]
  rw [counts, State.ctr_bump_self _ _ _ (by rwa [offered]), offered]

/-- An entry with a NaN key that is offered to an open list is inserted there and counted in the unit's NaN counter. -/
theorem State.selOffer_nan {s : State} {u lid : Nat} {l : SelList} {e : SelEntry} (hl : kvGet? lid (s.sel u).lists = some l)
    (hn : l.isNan e.key = true) (hent : s.ctr (cCluSelEntries (u / 2) (u % 2)) + 1 < 2 ^ 48 - 1)
    (hnan : s.ctr (cCluSelNan (u / 2) (u % 2)) + 1 < 2 ^ 48 - 1) :
    kvGet? lid ((s.selOffer u lid [e]).sel u).lists = some (l.insert e) ∧
    (s.selOffer u lid [e]).ctr (cCluSelNan (u / 2) (u % 2)) = s.ctr (cCluSelNan (u / 2) (u % 2)) + 1 := by
  have eq := SelList.insert_nan hn
  rw [State.selOffer_singleton hl e]
  refine ⟨by simp, ?_⟩
  rw [State.ctr_selCount_nan _ (by rw [eq]) (by rw [eq]) (by simpa) (by simpa), State.ctr_modSel]

/-! ### The statements -/

/-- Settles O26: SELECT_INSERT offers one entry, whose NaN key the unit counts; its insertion changes two counts of the list only. -/
theorem nanKeys : Obligations.NanKeys := by
  unfold Obligations.NanKeys
  refine ⟨fun s u lid key id seg node l hl hn hnan hent => ?_, fun l key h => SelList.isNan_of_integer h key, fun l key h => SelList.isNan_of_fp h key⟩
  obtain ⟨inserted, counted⟩ := State.selOffer_nan (e := { key := key, id := id, seg := seg, node := node, ord := 0 }) hl hn hent hnan
  rw [SelList.insert_nan hn] at inserted
  exact ⟨_, _, rfl, inserted, rfl, rfl, rfl, SelList.selSum_update .., counted⟩

/-- Settles O25: `SelList.insert` case by case, the split of a list at the place of an entry, and `SelList.insert_keeps`. -/
theorem selectionInsert : Obligations.SelectionInsert := by
  unfold Obligations.SelectionInsert
  refine ⟨fun l e hn => SelList.insert_nan hn,
    fun l e x hn hd hf hb => SelList.insert_duplicate_notBetter hn (SelList.held_eq_some hd hf) hb, ?_,
    fun l e hn hd hk => SelList.insert_room hn (SelList.held_eq_none_iff.mpr hd) hk,
    fun l e z hn hd hk hz hb => SelList.insert_full_notBetter hn (SelList.held_eq_none_iff.mpr hd) hk hz hb, ?_,
    fun l e xs he hn hs => SelList.BestFirst.placeIn_split he hn hs,
    fun l m e hm hk hl hn hs => hm ▸ SelList.insert_keeps e hk hl hn hs⟩
  · intro l m e x z y hn hd hf hb hz hm hy
    obtain ⟨xs, y', hxs, hy', eq⟩ := SelList.insert_duplicate_better hn (SelList.held_eq_some hd hf) hb hz
    subst hm
    rw [eq] at hy ⊢
    obtain rfl : y' = y := Option.some.inj (hy'.symm.trans hy)
    exact ⟨hxs, rfl, rfl, rfl, rfl⟩
  · intro l m e z y hn hd hk hz hb hm hy
    obtain ⟨xs, y', hxs, hy', eq⟩ := SelList.insert_full_better hn (SelList.held_eq_none_iff.mpr hd) hk hz hb
    subst hm
    rw [eq] at hy ⊢
    obtain rfl : y' = y := Option.some.inj (hy'.symm.trans hy)
    exact ⟨hxs, rfl, rfl, rfl, rfl⟩

end Sys2Proof.Machine
end

section
/-! SUPPORT. User slots (R447): what a write of register fields, a measurement and GO of `SEC_EXT_CTL` do to the registers and the log of
measured objects, and what they leave. -/

namespace Sys2Proof.Machine

/-! ### Fields of a word -/

theorem Fld.get_lt (f : Fld) (w : Word) : f.get w < 2 ^ f.width := Nat.mod_lt _ (Nat.two_pow_pos _)

/-- A put leaves every bit below its field. -/
theorem Fld.toNat_put_mod (g : Fld) (v : Nat) (w : Word) (hg : g.lo ≤ 64) : (g.put v w).toNat % 2 ^ g.lo = w.toNat % 2 ^ g.lo := by
  have held : g.get w * 2 ^ g.lo ≤ w.toNat := by
    rw [Fld.get, Nat.shiftRight_eq_div_pow]
    exact (Nat.mul_le_mul_right _ (Nat.mod_le _ _)).trans (Nat.div_mul_le_self _ _)
  rw [Fld.put, BitVec.toNat_ofNat, Nat.mod_mod_of_dvd _ (Nat.pow_dvd_pow 2 hg), Nat.add_mul_mod_self_right]
  conv_rhs => rw [← Nat.sub_add_cancel held, Nat.add_mul_mod_self_right]

/-- A field below the one that is put reads as before. -/
theorem Fld.get_put_above {f g : Fld} (h : f.lo + f.width ≤ g.lo) (hg : g.lo ≤ 64) (v : Nat) (w : Word) : f.get (g.put v w) = f.get w := by
  have low (x : Word) : f.get x = x.toNat % 2 ^ g.lo / 2 ^ f.lo % 2 ^ f.width := by
    obtain ⟨d, hd⟩ := Nat.exists_eq_add_of_le h
    rw [Fld.get, Nat.shiftRight_eq_div_pow, hd, Nat.add_assoc, Nat.pow_add, Nat.mod_mul_right_div_self,
      Nat.mod_mod_of_dvd _ (Nat.pow_dvd_pow 2 (Nat.le_add_right _ _))]
  rw [low, low, Fld.toNat_put_mod g v w hg]

/-! ### Writes of fields -/

@[simp] theorem State.accessErr_keeps (s : State) (b : Fld) (pf off : Nat) :
    (s.accessErr b pf off).sec = s.sec ∧ (s.accessErr b pf off).mem = s.mem ∧ (s.accessErr b pf off).out = s.out := by
  simp [State.accessErr]

theorem State.reg_accessErr_ne (s : State) (b : Fld) (pf off : Nat) {x : Nat} (h : x ≠ rNodeAccessErr) : (s.accessErr b pf off).reg x = s.reg x := by
  rw [State.accessErr, State.reg_setReg, if_neg h]

@[simp] theorem State.takeFields_keeps (s : State) (pf off : Nat) (v : Word) (r : RegSpec) :
    (s.takeFields pf off v r).sec = s.sec ∧ (s.takeFields pf off v r).mem = s.mem ∧ (s.takeFields pf off v r).out = s.out := by
  unfold State.takeFields
  dsimp only
  split <;> simp

@[simp] theorem State.writeFields_keeps (s : State) (pf off : Nat) (v : Word) :
    (s.writeFields pf off v).sec = s.sec ∧ (s.writeFields pf off v).mem = s.mem ∧ (s.writeFields pf off v).out = s.out := by
  unfold State.writeFields
  dsimp only
  repeat' split
  all_goals simp

/-- Outside `NODE_ACCESS_ERR` a write of fields does no more than take them. -/
theorem State.reg_writeFields (s : State) (pf : Nat) {off x : Nat} (v : Word) {r : RegSpec} (hr : regSpecAt off = some r) (hx : x ≠ rNodeAccessErr) :
    (s.writeFields pf off v).reg x = (s.takeFields pf off v r).reg x := by
  unfold State.writeFields
  rw [hr]
  dsimp only
  repeat' split
  all_goals simp only [State.reg_accessErr_ne _ _ _ _ hx]

theorem State.reg_takeFields_ne (s : State) (pf : Nat) {off x : Nat} (v : Word) (r : RegSpec) (hp : isPerPf off = false) (hx : x ≠ off) :
    (s.takeFields pf off v r).reg x = s.reg x := by
  unfold State.takeFields
  simp only [hp, Bool.false_eq_true, if_false, State.reg_setReg, if_neg hx]

/-! ### Digests in registers -/

/-- Blocks of one length stand one after another. -/
theorem getD_flatMap_block {α β : Type} (f : α → List β) (n : Nat) (d : β) (hf : ∀ a, (f a).length = n) {i : Nat} (hi : i < n) :
    ∀ (l : List α) (x : Nat) (a : α), l[x]? = some a → (l.flatMap f).getD (n * x + i) d = (f a).getD i d
  | b :: l, 0, a, h => by
    obtain rfl : b = a := by simpa using h
    rw [List.flatMap_cons, List.getD_append _ _ _ _ (by rw [hf]; omega)]
    simp
  | b :: l, x + 1, a, h => by
    rw [List.flatMap_cons, List.getD_append_right _ _ _ _ (by rw [hf, Nat.mul_add]; omega), hf,
      show n * (x + 1) + i - n = n * x + i by rw [Nat.mul_add]; omega]
    exact getD_flatMap_block f n d hf hi l x a (by simpa using h)

theorem getD_leBytes : ∀ (n v i : Nat), i < n → (leBytes n v).getD i 0 = BitVec.ofNat 8 (v / 2 ^ (8 * i))
  | n + 1, v, 0, _ => by simp [leBytes]
  | n + 1, v, i + 1, h => by
    rw [leBytes, List.getD_cons_succ, getD_leBytes n _ i (by omega), Nat.div_div_eq_div_mul, Nat.mul_add, Nat.pow_add, Nat.mul_comm (2 ^ _)]

theorem State.length_digestAt (s : State) (off : Nat → Nat) : (s.digestAt off).length = 32 := rfl

/-- Byte `8x + i` of a digest is byte `i` of its word `x` (R447). -/
theorem State.getD_digestAt (s : State) (off : Nat → Nat) {x i : Nat} (hx : x < 4) (hi : i < 8) :
    (s.digestAt off).getD (8 * x + i) 0 = BitVec.ofNat 8 ((s.reg (off x)).toNat / 2 ^ (8 * i)) := by
  have word : [0, 1, 2, 3][x]? = some x := by interval_cases x <;> rfl
  rw [State.digestAt, getD_flatMap_block _ 8 0 (fun _ => rfl) hi _ x x word, getD_leBytes 8 _ i hi]

theorem State.digestAt_congr {s t : State} {off : Nat → Nat} (h : ∀ w, w < 4 → t.reg (off w) = s.reg (off w)) : t.digestAt off = s.digestAt off := by
  simp [State.digestAt, h]

@[simp] theorem State.putDigest_keeps (s : State) (off : Nat → Nat) (bs : List Byte) :
    (s.putDigest off bs).sec = s.sec ∧ (s.putDigest off bs).mem = s.mem ∧ (s.putDigest off bs).out = s.out := by
  simp [State.putDigest]

theorem State.reg_putDigest_ne (s : State) {off : Nat → Nat} (bs : List Byte) {x : Nat} (h : ∀ w, x ≠ off w) : (s.putDigest off bs).reg x = s.reg x := by
  simp [State.putDigest, State.reg_setReg, h]

theorem State.reg_putDigest (s : State) {off : Nat → Nat} (hoff : off.Injective) (bs : List Byte) {i : Nat} (hi : i < 4) :
    (s.putDigest off bs).reg (off i) = BitVec.ofNat 64 (fieldAt bs (8 * i) 8) := by
  interval_cases i <;> simp [State.putDigest, State.reg_setReg, hoff.eq_iff]

theorem rSecSlot_injective (k : Nat) : (rSecSlot k).Injective := by
  intro i j h
  unfold rSecSlot at h
  omega

/-! ### Measurements -/

@[simp] theorem State.out_logAppend (s : State) (k : Nat) (b : List Byte) : (s.logAppend k b).out = s.out := by
  unfold State.logAppend
  dsimp only
  repeat' split
  all_goals simp

/-- A logbook record touches no register below the logbook block. -/
theorem State.reg_logAppend_below (s : State) (k : Nat) (b : List Byte) {x : Nat} (h : x < 0x3c00000) : (s.logAppend k b).reg x = s.reg x := by
  have status : x ≠ rLogStatus := by unfold rLogStatus; omega
  have dropped : x ≠ rLogDropped := by unfold rLogDropped; omega
  have next : x ≠ rLogNextSeq := by unfold rLogNextSeq; omega
  unfold State.logAppend
  dsimp only
  repeat' split
  all_goals simp only [State.reg_setFld, State.reg_setReg, if_neg status, if_neg dropped, if_neg next, State.putLog_reads]

/-- A measurement counts one more measured object, and leaves the key slots, the memory and what was sent. -/
theorem State.measure_keeps (s : State) (k kind outcome part serial : Nat) (d : List Byte) :
    (s.measure k kind outcome part serial d).sec.total = s.sec.total + 1 ∧ (s.measure k kind outcome part serial d).sec.keys = s.sec.keys ∧
    (s.measure k kind outcome part serial d).mem = s.mem ∧ (s.measure k kind outcome part serial d).out = s.out := by
  unfold State.measure State.logMeasure
  dsimp only
  split <;> simp

/-- Below the logbook block a measurement only puts the extended digest into its slot. -/
theorem State.reg_measure (s : State) (k kind outcome part serial : Nat) (d : List Byte) {x : Nat} (h : x < 0x3c00000) :
    (s.measure k kind outcome part serial d).reg x = (s.putDigest (rSecSlot k) (extendSlot (s.slotBytes k) d)).reg x := by
  unfold State.measure State.logMeasure
  dsimp only
  split <;> simp [State.reg_logAppend_below _ _ _ h]

/-! ### GO of `SEC_EXT_CTL` -/

/-- The fields of `SEC_EXT_CTL` (Table 18.11). -/
def secExtCtlSpec : RegSpec :=
  ⟨rSecExtCtl, [], [⟨fSecExtCtl_ERR, .w1c, 0, none⟩, ⟨fSecExtCtl_GO, .w1s, 0, none⟩, ⟨fSecExtCtl_SLOT, .rw, 0, none⟩]⟩

theorem regSpecAt_secExtCtl : regSpecAt rSecExtCtl = some secExtCtlSpec := rfl

/-- SLOT takes the value written. -/
theorem State.slot_writeExtFields (s : State) (pf : Nat) (w : Word) :
    (s.writeFields pf rSecExtCtl w).fld rSecExtCtl fSecExtCtl_SLOT = fSecExtCtl_SLOT.get w := by
  have taken : ∃ x, (s.takeFields pf rSecExtCtl w secExtCtlSpec).reg rSecExtCtl = fSecExtCtl_SLOT.put (fSecExtCtl_SLOT.get w) x :=
    ⟨_, State.reg_setReg_self s rSecExtCtl _⟩
  obtain ⟨x, hx⟩ := taken
  rw [State.fld, State.reg_writeFields s pf w regSpecAt_secExtCtl (by decide), hx, Fld.get_put _ _ _ (by decide), Nat.mod_eq_of_lt (Fld.get_lt _ w)]

/-- The state in which a write of `SEC_EXT_CTL` is taken and GO reads 0 again. -/
def State.extTaken (s : State) (pf : Nat) (w : Word) : State := (s.writeFields pf rSecExtCtl w).setFld rSecExtCtl fSecExtCtl_GO 0

@[simp] theorem State.extTaken_keeps (s : State) (pf : Nat) (w : Word) :
    (s.extTaken pf w).sec = s.sec ∧ (s.extTaken pf w).mem = s.mem ∧ (s.extTaken pf w).out = s.out := by
  simp [State.extTaken]

theorem State.reg_extTaken_ne (s : State) (pf : Nat) (w : Word) {x : Nat} (hx : x ≠ rSecExtCtl) (he : x ≠ rNodeAccessErr) :
    (s.extTaken pf w).reg x = s.reg x := by
  rw [State.extTaken, State.reg_setFld, if_neg hx, State.reg_writeFields s pf w regSpecAt_secExtCtl he, State.reg_takeFields_ne s pf w _ rfl hx]

theorem State.go_extTaken (s : State) (pf : Nat) (w : Word) : (s.extTaken pf w).fld rSecExtCtl fSecExtCtl_GO = 0 :=
  State.fld_setFld _ _ _ _ (by decide)

theorem State.digestAt_extTaken (s : State) (pf : Nat) (w : Word) : (s.extTaken pf w).digestAt rSecExtData = s.digestAt rSecExtData :=
  State.digestAt_congr fun i hi => s.reg_extTaken_ne pf w (by unfold rSecExtData rSecExtCtl; omega) (by unfold rSecExtData rNodeAccessErr; omega)

theorem rSecSlot_ne_secExtCtl (k i : Nat) : rSecSlot k i ≠ rSecExtCtl := by unfold rSecSlot rSecExtCtl; omega

theorem State.slotBytes_extTaken (s : State) (pf : Nat) (w : Word) (k : Nat) : (s.extTaken pf w).slotBytes k = s.slotBytes k :=
  State.digestAt_congr (off := rSecSlot k) fun i _ => s.reg_extTaken_ne pf w (rSecSlot_ne_secExtCtl k i) (by unfold rSecSlot rNodeAccessErr; omega)

section
variable {s : State} {pf k : Nat} {w : Word} (hs : s.flt.stopped = false) (hg : fSecExtCtl_GO.get w = 1) (hk : k = fSecExtCtl_SLOT.get w)
include hs hg hk

/-- A node that runs takes the write, and GO then acts on the SLOT written (R447). -/
theorem exec_secExtend_go : exec (.secExtend pf w) s = .next
    (if 8 ≤ k ∧ k ≤ 15 then (s.extTaken pf w).measure k 8 0 (32 * pf) 0 (s.digestAt rSecExtData)
     else (s.extTaken pf w).setFld rSecExtCtl fSecExtCtl_ERR 1) := by
  have run : exec (.secExtend pf w) s = .next ((s.writeFields pf rSecExtCtl w).extGo pf) := by
    change execSecExtend pf w s = _
    simp [execSecExtend, State.writeExtCtl, hs, hg]
  rw [run, State.extGo, s.slot_writeExtFields pf w, ← hk, ← s.digestAt_extTaken pf w]
  rfl

/-- A user slot is extended with the digest written; the object is counted, and no key slot changes (R447, R448). -/
theorem exec_secExtend_user (lo : 8 ≤ k) (hi : k ≤ 15) : ∃ t, exec (.secExtend pf w) s = .next t ∧
    (∀ i, i < 4 → t.reg (rSecSlot k i) = BitVec.ofNat 64 (fieldAt (extendSlot (s.slotBytes k) (s.digestAt rSecExtData)) (8 * i) 8)) ∧
    t.fld rSecExtCtl fSecExtCtl_GO = 0 ∧ t.sec.total = s.sec.total + 1 ∧ t.sec.keys = s.sec.keys ∧ t.mem = s.mem ∧ t.out = s.out := by
  have run := exec_secExtend_go (pf := pf) hs hg hk
  rw [if_pos ⟨lo, hi⟩] at run
  obtain ⟨total, keys, mem, out⟩ := (s.extTaken pf w).measure_keeps k 8 0 (32 * pf) 0 (s.digestAt rSecExtData)
  refine ⟨_, run, fun i word => ?_, ?_, by simpa using total, by simpa using keys, by simpa using mem, by simpa using out⟩
  · rw [State.reg_measure _ _ _ _ _ _ _ (by unfold rSecSlot; omega), State.reg_putDigest _ (rSecSlot_injective k) _ word, s.slotBytes_extTaken pf w]
  · rw [State.fld, State.reg_measure _ _ _ _ _ _ _ (by decide), State.reg_putDigest_ne _ _ fun i => (rSecSlot_ne_secExtCtl k i).symm]
    exact s.go_extTaken pf w

/-- A SLOT outside 8 to 15 touches `SEC_EXT_CTL` only, and `NODE_ACCESS_ERR` where the write reports a reserved bit (R17). -/
theorem exec_secExtend_other (hout : k < 8 ∨ 15 < k) : ∃ t, exec (.secExtend pf w) s = .next t ∧ t.fld rSecExtCtl fSecExtCtl_ERR = 1 ∧
    t.fld rSecExtCtl fSecExtCtl_GO = 0 ∧ t.sec = s.sec ∧ SameRegsBut s t [rSecExtCtl, rNodeAccessErr] ∧ t.mem = s.mem ∧ t.out = s.out := by
  have run := exec_secExtend_go (pf := pf) hs hg hk
  rw [if_neg (by omega)] at run
  refine ⟨_, run, State.fld_setFld _ _ _ _ (by decide), ?_, by simp, fun x hx => ?_, by simp, by simp⟩
  · rw [State.fld, State.reg_setFld_self, Fld.get_put_above (by decide) (by decide)]
    exact s.go_extTaken pf w
  · obtain ⟨hctl, herr⟩ : x ≠ rSecExtCtl ∧ x ≠ rNodeAccessErr := by simpa using hx
    rw [State.reg_setFld, if_neg hctl, s.reg_extTaken_ne pf w hctl herr]

end

/-- Settles O54: GO extends a SLOT of 8 to 15 with the digest in `SEC_EXT_DATAw`, and only sets ERR for another. -/
theorem userSlotExtended : Obligations.UserSlotExtended := by
  unfold Obligations.UserSlotExtended
  intro s pf k w hs hg hk _
  refine ⟨fun lo hi => ?_, exec_secExtend_other hs hg hk⟩
  obtain ⟨t, run, slot, rest⟩ := exec_secExtend_user (pf := pf) hs hg hk lo hi
  exact ⟨t, s.digestAt rSecExtData, run, s.length_digestAt _, fun x i hx hi => s.getD_digestAt _ hx hi, slot, rest⟩

end Sys2Proof.Machine
end

section
-- One declaration after another: many at once need more threads than the memory of one process has room for.
set_option Elab.async false
/-! SUPPORT. What every command keeps: the local time, the canonical form of node memory, and what the host was sent (`Keeps`). One lemma for each
function of the state, put together along its definition by the rules at the head; the lemma of a command's function states that it answers. -/

namespace Sys2Proof.Machine

/-- What only a fence, a collective, an enrolment and the package change: fenced units, the stop, the collectives, the keys and the board. -/
def State.still (s : State) : KV FUnit × Bool × KV Coll × List (Nat × List Byte) × Board :=
  (s.flt.units, s.flt.stopped, s.fab.colls, s.sec.keys, s.board)

/-- `t` follows `s` in what no command but power changes at will: the local time stands, node memory keeps its canonical form, and nothing sent to
the host is taken back. With `b`, what is `still` stands as well. -/
structure Keeps (deep : Bool) (s t : State) : Prop where
  time : t.time = s.time
  form : s.mem.wf = true → t.mem.wf = true
  sent : Extends s t
  still : deep = true → t.still = s.still

namespace Keeps
variable {deep : Bool}

theorem same (s : State) : Keeps deep s s := ⟨rfl, id, .refl s, fun _ => rfl⟩

theorem refl (s : State) : Keeps false s s := same s

theorem trans {s t u : State} (h : Keeps deep s t) (g : Keeps deep t u) : Keeps deep s u :=
  ⟨g.time.trans h.time, g.form ∘ h.form, h.sent.trans g.sent, fun e => (g.still e).trans (h.still e)⟩

/-! ### Rules for the ways a definition is put together -/

section
variable {s t : State}

/-- Other parts of the state may change at will. -/
theorem of_eq {u : State} (h : Keeps deep s t) (time : u.time = t.time) (mem : u.mem = t.mem) (out : u.out = t.out)
    (still : deep = true → u.still = t.still := by intro _; rfl) : Keeps deep s u :=
  ⟨time.trans h.time, fun w => mem ▸ h.form w, h.sent.trans (.of_eq out), fun e => (still e).trans (h.still e)⟩

/-- Memory may change where its form is kept. -/
theorem mem_wf {u : State} (h : Keeps deep s t) (time : u.time = t.time) (mem : t.mem.wf = true → u.mem.wf = true) (out : u.out = t.out)
    (still : deep = true → u.still = t.still := by intro _; rfl) : Keeps deep s u :=
  ⟨time.trans h.time, mem ∘ h.form, h.sent.trans (.of_eq out), fun e => (still e).trans (h.still e)⟩

theorem foldl {α : Type} {f : State → α → State} {l : List α} (h : Keeps deep s t) (step : ∀ u a, Keeps deep s u → Keeps deep s (f u a)) :
    Keeps deep s (l.foldl f t) := by
  induction l generalizing t with
  | nil => exact h
  | cons a l ih => exact ih (step t a h)

end

theorem ite {s t u : State} {c : Prop} [Decidable c] (h : Keeps deep s t) (g : Keeps deep s u) : Keeps deep s (if c then t else u) := by
  split
  · exact h
  · exact g

section
variable {s t u : State} {α β : Type}

theorem fst {a : α} (h : Keeps deep s t) : Keeps deep s (t, a).1 := h

theorem snd {a : α} (h : Keeps deep s t) : Keeps deep s (a, t).2 := h

theorem ite_fst {x y : State × α} {c : Prop} [Decidable c] (h : Keeps deep s x.1) (g : Keeps deep s y.1) : Keeps deep s (if c then x else y).1 := by
  split
  · exact h
  · exact g

theorem ite_snd {x y : α × State} {c : Prop} [Decidable c] (h : Keeps deep s x.2) (g : Keeps deep s y.2) : Keeps deep s (if c then x else y).2 := by
  split
  · exact h
  · exact g

theorem of_fst {x : State × α} {a : α} (h : Keeps deep s x.1) (e : x = (u, a)) : Keeps deep s u := by
  subst e
  exact h

theorem of_snd {x : α × State} {a : α} (h : Keeps deep s x.2) (e : x = (a, u)) : Keeps deep s u := by
  subst e
  exact h

theorem foldl_fst {f : State × α → β → State × α} {l : List β} {x : State × α} (h : Keeps deep s x.1) (step : ∀ x b, Keeps deep s x.1 → Keeps deep s (f x b).1) :
    Keeps deep s (l.foldl f x).1 := by
  induction l generalizing x with
  | nil => exact h
  | cons b l ih => exact ih (step x b h)

end
end Keeps

/-- A command answers a next state, which keeps what `s` has. -/
def Runs (deep : Bool) (s : State) (o : Host.Outcome State Fault Refusal) : Prop := ∃ t, o = .next t ∧ Keeps deep s t

namespace Runs
variable {deep : Bool}

theorem next {s t : State} (h : Keeps deep s t) : Runs deep s (.next t) := ⟨t, rfl, h⟩

theorem ite {s : State} {o o' : Host.Outcome State Fault Refusal} {c : Prop} [Decidable c] (h : Runs deep s o) (g : Runs deep s o') :
    Runs deep s (if c then o else o') := by
  split
  · exact h
  · exact g

end Runs

/-- Where an operation gives a result, the state in it keeps what `s` has. -/
def OnSome {α : Type} (deep : Bool) (s : State) (o : Option α) (f : α → State) : Prop := ∀ a, o = some a → Keeps deep s (f a)

namespace OnSome
variable {deep : Bool}
variable {s : State} {α β : Type} {f : α → State}

theorem none : OnSome deep s Option.none f := fun _ e => nomatch e

theorem some {a : α} (h : Keeps deep s (f a)) : OnSome deep s (Option.some a) f := by
  rintro _ ⟨⟩
  exact h

theorem ite {o o' : Option α} {c : Prop} [Decidable c] (h : OnSome deep s o f) (g : OnSome deep s o' f) : OnSome deep s (if c then o else o') f := by
  split
  · exact h
  · exact g

theorem map {o : Option β} {e : β → State} {g : β → α} (h : OnSome deep s o e) (step : ∀ b, Keeps deep s (e b) → Keeps deep s (f (g b))) :
    OnSome deep s (o.map g) f := by
  intro a ha
  obtain ⟨b, hb, rfl⟩ := Option.map_eq_some_iff.mp ha
  exact step b (h b hb)

theorem getD {o : Option State} {t : State} (h : OnSome deep s o id) (g : Keeps deep s t) : Keeps deep s (o.getD t) := by
  cases o with
  | none => exact g
  | some u => exact h u rfl

end OnSome

namespace Keeps
variable {deep : Bool}

section
variable {s t : State}

/-! ### Sys2Proof/Machine/Access.lean -/

theorem putFree {v : Nat} (h : Keeps deep s t) : Keeps deep s (t.putFree v) := h.of_eq rfl rfl rfl

theorem putRegs {v : KV Word} (h : Keeps deep s t) : Keeps deep s (t.putRegs v) := h.of_eq rfl rfl rfl

theorem putCtrs {v : KV Nat} (h : Keeps deep s t) : Keeps deep s (t.putCtrs v) := h.of_eq rfl rfl rfl

theorem putOwned {v : List Nat} (h : Keeps deep s t) : Keeps deep s (t.putOwned v) := h.of_eq rfl rfl rfl

theorem putWinReg {v : KV Word} (h : Keeps deep s t) : Keeps deep s (t.putWinReg v) := h.of_eq rfl rfl rfl

theorem putQueues {v : KV Queue} (h : Keeps deep s t) : Keeps deep s (t.putQueues v) := h.of_eq rfl rfl rfl

theorem putRecs {v : KV Rec} (h : Keeps deep s t) : Keeps deep s (t.putRecs v) := h.of_eq rfl rfl rfl

theorem putNextRec {v : Nat} (h : Keeps deep s t) : Keeps deep s (t.putNextRec v) := h.of_eq rfl rfl rfl

theorem putFetchNo {v : Nat} (h : Keeps deep s t) : Keeps deep s (t.putFetchNo v) := h.of_eq rfl rfl rfl

theorem putCtxs {v : KV Ctx} (h : Keeps deep s t) : Keeps deep s (t.putCtxs v) := h.of_eq rfl rfl rfl

theorem putParts {v : KV Part} (h : Keeps deep s t) : Keeps deep s (t.putParts v) := h.of_eq rfl rfl rfl

theorem putShares {v : KV ArrShare} (h : Keeps deep s t) : Keeps deep s (t.putShares v) := h.of_eq rfl rfl rfl

theorem putVfEn {v : List Bool} (h : Keeps deep s t) : Keeps deep s (t.putVfEn v) := h.of_eq rfl rfl rfl

theorem putNumVfs {v : List Nat} (h : Keeps deep s t) : Keeps deep s (t.putNumVfs v) := h.of_eq rfl rfl rfl

theorem putOut {v : List HostOut} (h : Keeps deep s t) (more : t.out <+: v) : Keeps deep s (t.putOut v) := ⟨h.time, h.form, List.IsPrefix.trans h.sent more, h.still⟩

theorem putFab {v : Fab} (h : Keeps deep s t) (colls : deep = true → v.colls = t.fab.colls := by intro _; rfl) : Keeps deep s (t.putFab v) :=
  h.of_eq rfl rfl rfl fun e => congrArg (fun x => (t.flt.units, t.flt.stopped, x, t.sec.keys, t.board)) (colls e)

theorem putFlt {v : Faults} (h : Keeps deep s t) (units : deep = true → v.units = t.flt.units := by intro _; rfl)
    (stop : deep = true → v.stopped = t.flt.stopped := by intro _; rfl) : Keeps deep s (t.putFlt v) :=
  h.of_eq rfl rfl rfl fun e => congrArg₂ (fun x y => (x, y, t.fab.colls, t.sec.keys, t.board)) (units e) (stop e)

theorem putLog {v : List LogRec} (h : Keeps deep s t) : Keeps deep s (t.putLog v) := h.of_eq rfl rfl rfl

theorem putSels {v : KV SelUnit} (h : Keeps deep s t) : Keeps deep s (t.putSels v) := h.of_eq rfl rfl rfl

theorem putResults {v : List SelResult} (h : Keeps deep s t) : Keeps deep s (t.putResults v) := h.of_eq rfl rfl rfl

theorem putBank {v : KV BankCh} (h : Keeps deep s t) : Keeps deep s (t.putBank v) := h.of_eq rfl rfl rfl

theorem putTokens {v : List BankToken} (h : Keeps deep s t) : Keeps deep s (t.putTokens v) := h.of_eq rfl rfl rfl

theorem putCorpora {v : KV Corpus} (h : Keeps deep s t) : Keeps deep s (t.putCorpora v) := h.of_eq rfl rfl rfl

theorem putBuilds {v : KV Build} (h : Keeps deep s t) : Keeps deep s (t.putBuilds v) := h.of_eq rfl rfl rfl

theorem putQueries {v : KV Query} (h : Keeps deep s t) : Keeps deep s (t.putQueries v) := h.of_eq rfl rfl rfl

theorem putArrays {v : KV ArrUnit} (h : Keeps deep s t) : Keeps deep s (t.putArrays v) := h.of_eq rfl rfl rfl

theorem putAtokens {v : List ArrToken} (h : Keeps deep s t) : Keeps deep s (t.putAtokens v) := h.of_eq rfl rfl rfl

theorem putModels {v : KV Binding} (h : Keeps deep s t) : Keeps deep s (t.putModels v) := h.of_eq rfl rfl rfl

theorem putOldModels {v : List (Nat × Binding)} (h : Keeps deep s t) : Keeps deep s (t.putOldModels v) := h.of_eq rfl rfl rfl

theorem putArrWork {v : List (Nat × Nat)} (h : Keeps deep s t) : Keeps deep s (t.putArrWork v) := h.of_eq rfl rfl rfl

theorem putTrims {v : KV TrimUnit} (h : Keeps deep s t) : Keeps deep s (t.putTrims v) := h.of_eq rfl rfl rfl

theorem putFlash {v : Flash} (h : Keeps deep s t) : Keeps deep s (t.putFlash v) := h.of_eq rfl rfl rfl

theorem putEmb {v : Emb} (h : Keeps deep s t) : Keeps deep s (t.putEmb v) := h.of_eq rfl rfl rfl

theorem putLoad {v : Option Load} (h : Keeps deep s t) : Keeps deep s (t.putLoad v) := h.of_eq rfl rfl rfl

theorem putSec {v : Sec} (h : Keeps deep s t) (keys : deep = true → v.keys = t.sec.keys := by intro _; rfl) : Keeps deep s (t.putSec v) :=
  h.of_eq rfl rfl rfl fun e => congrArg (fun x => (t.flt.units, t.flt.stopped, t.fab.colls, x, t.board)) (keys e)

theorem putCal {v : KV ℤ} (h : Keeps deep s t) : Keeps deep s (t.putCal v) := h.of_eq rfl rfl rfl

theorem putMargins {v : KV (Nat × Nat × Nat)} (h : Keeps deep s t) : Keeps deep s (t.putMargins v) := h.of_eq rfl rfl rfl

theorem putSmb {v : List SmbMsg} (h : Keeps deep s t) : Keeps deep s (t.putSmb v) := h.of_eq rfl rfl rfl

theorem putBoard {v : Board} (h : Keeps false s t) : Keeps false s (t.putBoard v) := h.of_eq rfl rfl rfl fun e => nomatch e

theorem setReg {off : Nat} {w : Word} (h : Keeps deep s t) : Keeps deep s (t.setReg off w) := h.putRegs

theorem setFld {off : Nat} {f : Fld} {v : Nat} (h : Keeps deep s t) : Keeps deep s (t.setFld off f v) := h.setReg

theorem setRegPf {pf off : Nat} {w : Word} (h : Keeps deep s t) : Keeps deep s (t.setRegPf pf off w) := h.putRegs

theorem setFldPf {pf off : Nat} {f : Fld} {v : Nat} (h : Keeps deep s t) : Keeps deep s (t.setFldPf pf off f v) := h.setRegPf

theorem setCtr {off v : Nat} (h : Keeps deep s t) : Keeps deep s (t.setCtr off v) := h.putCtrs

theorem modPart {p : Nat} {f : Part → Part} (h : Keeps deep s t) : Keeps deep s (t.modPart p f) := h.putParts

theorem setPstate {p st : Nat} (h : Keeps deep s t) : Keeps deep s (t.setPstate p st) := h.setFld

theorem modQueue {p q : Nat} {f : Queue → Queue} (h : Keeps deep s t) : Keeps deep s (t.modQueue p q f) := h.putQueues

theorem modRec {rid : Nat} {f : Rec → Rec} (h : Keeps deep s t) : Keeps deep s (t.modRec rid f) := h.putRecs

theorem modMem_wf {f : MemSys → MemSys} (h : Keeps deep s t) (form : ∀ m : MemSys, m.wf = true → (f m).wf = true) : Keeps deep s (t.modMem f) :=
  ⟨h.time, form _ ∘ h.form, h.sent, h.still⟩

/-- Where neither the bytes nor the undefined ranges change, the form is kept. -/
theorem modMem {f : MemSys → MemSys} (h : Keeps deep s t) (bytes : ∀ m, (f m).bytes = m.bytes := by intro; rfl)
    (undef : ∀ m, (f m).undef = m.undef := by intro; rfl) : Keeps deep s (t.modMem f) := by
  refine h.modMem_wf fun m w => ?_
  simpa [MemSys.wf, MemSys.undefAt, bytes, undef] using w

theorem modFab {f : Fab → Fab} (h : Keeps deep s t) (colls : deep = true → (f t.fab).colls = t.fab.colls := by intro _; rfl) :
    Keeps deep s (t.modFab f) := h.putFab colls

theorem modFlt {f : Faults → Faults} (h : Keeps deep s t) (units : deep = true → (f t.flt).units = t.flt.units := by intro _; rfl)
    (stop : deep = true → (f t.flt).stopped = t.flt.stopped := by intro _; rfl) : Keeps deep s (t.modFlt f) := h.putFlt units stop

theorem modShare {a : Nat} {f : ArrShare → ArrShare} (h : Keeps deep s t) : Keeps deep s (t.modShare a f) := h.putShares

theorem fresh (h : Keeps deep s t) : Keeps deep s (t.fresh).2 := h.putFree

theorem modUnit {k n : Nat} {f : FUnit → FUnit} (h : Keeps false s t) : Keeps false s (t.modUnit k n f) := (h.modFlt (fun e => nomatch e) (fun e => nomatch e))

theorem modLink {l : Nat} {f : Link → Link} (h : Keeps deep s t) : Keeps deep s (t.modLink l f) := h.modFab

theorem modTrim {loop unit : Nat} {f : TrimUnit → TrimUnit} (h : Keeps deep s t) : Keeps deep s (t.modTrim loop unit f) := h.putTrims

/-! ### Sys2Proof/Machine/Ops.lean -/

theorem accessErr {bit : Fld} {pf off : Nat} (h : Keeps deep s t) : Keeps deep s (t.accessErr bit pf off) := h.setReg

theorem takeFields {pf off : Nat} {v : Word} {r : RegSpec} (h : Keeps deep s t) : Keeps deep s (t.takeFields pf off v r) := ite h.setRegPf h.setReg

theorem writeFields {pf off : Nat} {v : Word} (h : Keeps deep s t) : Keeps deep s (t.writeFields pf off v) := by
  unfold State.writeFields
  dsimp only
  split
  · exact ite h h.accessErr
  · exact ite (accessErr (ite h.takeFields h.takeFields.accessErr)) (ite h.takeFields h.takeFields.accessErr)

theorem setWin {p off : Nat} {w : Word} (h : Keeps deep s t) : Keeps deep s (t.setWin p off w) := h.putWinReg

theorem setWinBit {p : Nat} {f : Fld} (h : Keeps deep s t) : Keeps deep s (t.setWinBit p f) := h.setWin

theorem badRead {window : Bool} {fn off : Nat} {write : Bool} {w : Word} (h : Keeps deep s t) : Keeps deep s (t.badRead window fn off write w) :=
  ite h (h.putOut (List.prefix_append _ _))

theorem windowBad {p off : Nat} {write : Bool} (h : Keeps deep s t) : Keeps deep s (t.windowBad p off write) := h.setWinBit.badRead

theorem emit {o : HostOut} (h : Keeps deep s t) : Keeps deep s (t.emit o) := h.putOut (List.prefix_append _ _)

theorem clearCoal {p v : Nat} (h : Keeps deep s t) : Keeps deep s (t.clearCoal p v) := h.modFlt

theorem sendMsix {p v : Nat} (h : Keeps deep s t) : Keeps deep s (t.sendMsix p v) := ite h.clearCoal (ite h.clearCoal.setWin h.clearCoal.emit)

theorem latch {src snapId : Nat} (h : Keeps deep s t) : Keeps deep s (t.latch src snapId) := h.modFlt.setFld.setReg.setReg

theorem rawBump {off n : Nat} (h : Keeps deep s t) : Keeps deep s (t.rawBump off n).1 := h.setCtr

theorem markSat {off : Nat} (h : Keeps deep s t) : Keeps deep s (t.markSat off) := by
  unfold State.markSat
  split
  · exact h
  · exact h.setReg

theorem drogue {src snapId : Nat} (h : Keeps deep s t) : Keeps deep s (t.drogue src snapId).1 := by
  unfold State.drogue
  exact ite_fst h (ite_fst h.latch (ite_fst h.setFld (ite h.rawBump.markSat h.rawBump)))

theorem logAppend {kind : Nat} {payload : List Byte} (h : Keeps deep s t) : Keeps deep s (t.logAppend kind payload) := by
  refine ite (setReg (ite (ite h.setFld h) (setFld (ite h.setFld h)))) ?_
  exact setFld (setFld (ite (setFld (setReg (putLog (ite h.setFld h)))) (setReg (putLog (ite h.setFld h)))))

theorem logFlash {ev unit detail : Nat} (h : Keeps deep s t) : Keeps deep s (t.logFlash ev unit detail) := h.logAppend

theorem eventIrq {pf cls : Nat} (h : Keeps deep s t) : Keeps deep s (t.eventIrq pf cls) := ite h.sendMsix h

theorem addLost {pf n : Nat} (h : Keeps deep s t) : Keeps deep s (t.addLost pf n) := ite h h.setFldPf

theorem tallyHour {source kind unit : Nat} (h : Keeps deep s t) : Keeps deep s (t.tallyHour source kind unit) := by
  refine h.modFlt (fun _ => ?_) (fun _ => ?_) <;> (dsimp only; split <;> split <;> rfl)

theorem evPlace {cls source kind action unit part detail : Nat} (h : Keeps deep s t) : Keeps deep s (t.evPlace cls source kind action unit part detail) := by
  refine ite (modFlt (ite h.tallyHour h)) ?_
  refine eventIrq (eventIrq ?_)
  exact ite (addLost (addLost (modFlt (drogue (ite h.tallyHour h))))) (logAppend (addLost (addLost (modFlt (drogue (ite h.tallyHour h))))))

theorem evCount {cls : Nat} (h : Keeps deep s t) : Keeps deep s (t.evCount cls).1 := by
  unfold State.evCount
  exact ite_fst h.rawBump (ite_fst h.rawBump h)

theorem event {cls source kind action unit part detail : Nat} (h : Keeps deep s t) : Keeps deep s (t.event cls source kind action unit part detail) := by
  exact ite (ite h.evCount.evPlace.markSat.rawBump.evPlace h.evCount.evPlace.markSat) h.evCount.evPlace

theorem bump {off n : Nat} (h : Keeps deep s t) : Keeps deep s (t.bump off n) := ite (ite h.rawBump.markSat.event h.rawBump.markSat) h.rawBump

theorem bumpCopy {k off n : Nat} (h : Keeps deep s t) : Keeps deep s (t.bumpCopy k off n) := by
  exact ite h (ite (ite h.rawBump.markSat.event h.rawBump.markSat) h.rawBump)

theorem setLimit {w : Nat} (h : Keeps false s t) : Keeps false s (t.setLimit w) := h.putBoard.setFld

theorem powerDomain {d : Nat} {on : Bool} (h : Keeps deep s t) : Keeps deep s (t.powerDomain d on) := h.setFld.setFld

theorem writeMem {a : Nat} {bs : List Byte} (h : Keeps deep s t) : Keeps deep s (t.writeMem a bs) :=
  h.modMem_wf fun _ w => wf_dirty _ _ _ (wf_mend _ _ _ (wf_define _ _ _ w))

theorem hide {a len : Nat} (h : Keeps deep s t) : Keeps deep s (t.hide a len) := (h.modMem_wf fun _ w => wf_forget _ _ _ _ w).putFree

theorem allocAt {p t' bytes : Nat} {kind : AllocKind} {start : Option Nat} (h : Keeps deep s t) : OnSome deep s (t.allocAt p t' bytes kind start) Prod.snd := by
  unfold State.allocAt
  dsimp only
  split
  · exact .none
  · split
    · exact .none
    · exact .some (ite h.modMem.putFlash h.modMem)

theorem alloc {p k bytes : Nat} {kind : AllocKind} (h : Keeps deep s t) : OnSome deep s (t.alloc p k bytes kind) Prod.snd := h.allocAt

theorem allocNear {p k bytes : Nat} {kind : AllocKind} {place : Option Nat} (h : Keeps deep s t) :
    OnSome deep s (t.allocNear p k bytes kind place) Prod.snd := by
  unfold State.allocNear
  split
  · exact h.alloc
  · dsimp only
    split
    · exact .none
    · exact h.allocAt

theorem release {a : Nat} (h : Keeps deep s t) : Keeps deep s (t.release a) := by
  unfold State.release
  split
  · exact h
  · exact modMem_wf (ite h.putFlash h) fun _ w => wf_mend _ _ _ (wf_clear _ _ _ w)

theorem quotaRefused {p : Nat} (h : Keeps deep s t) : Keeps deep s (t.quotaRefused p) := h.bump

theorem unquoted {p : Nat} (h : Keeps deep s t) : Keeps deep s (t.unquoted p) := h.modPart.modMem

theorem addMeter {p i n : Nat} (h : Keeps deep s t) : Keeps deep s (t.addMeter p i n) := ite h (by split; exacts [h, h.modMem])

theorem chargeBw {p t' n : Nat} (h : Keeps deep s t) : Keeps deep s (t.chargeBw p t' n) := by
  exact ite h (ite (ite h.addMeter h) (ite (modPart (ite h.addMeter h)) (bump (modPart (ite h.addMeter h)))))

theorem meterUnit {p a len : Nat} (h : Keeps deep s t) : Keeps deep s (t.meterUnit p a len).1 := by
  unfold State.meterUnit
  split
  · exact h.bump
  · exact ite_fst h.modFab.bump (ite_fst h.modFab.bump h.modFab.bump)

theorem debitShaper {p apply stream l : Nat} (h : Keeps deep s t) : Keeps deep s (t.debitShaper p apply stream l) := by
  unfold State.debitShaper
  split
  · exact h
  · exact h.modFab

theorem noteShape {p apply stream entered : Nat} (h : Keeps deep s t) : Keeps deep s (t.noteShape p apply stream entered) := h.bump

theorem chargeHostRead {p : Nat} {flow : Nat × Bool} {n : Nat} (h : Keeps deep s t) : Keeps deep s (t.chargeHostRead p flow n) := by
  have metered : Keeps deep s (match t.meterOf p 1 with
      | none => t
      | some m => t.modFab (fun f =>
          let x := t.meterState p 1 m
          let need : Int := ((n * 1000000000 : Nat) : Int)
          { f with meters := kvPut (64 + p) { x with tc := x.tc - need, tp := x.tp - need } f.meters })) := by
    split
    · exact h
    · exact h.modFab
  unfold State.chargeHostRead
  dsimp only
  refine modFab (debitShaper ?_)
  split
  · exact metered.noteShape
  · exact metered

theorem handPacket {k : Packet} (h : Keeps deep s t) : Keeps deep s (t.handPacket k) := ite h.modFab h.modFab

theorem sendOrder {dst op part gen : Nat} {args : List Nat} {len : Nat} (h : Keeps deep s t) : Keeps deep s (t.sendOrder dst op part gen args len) := by
  exact h.modFab.handPacket

theorem orderSeen {src seq : Nat} (h : Keeps deep s t) : Keeps deep s (t.orderSeen src seq) := h.modFab

theorem sendRequest {k : Packet} {rid : Option Nat} {timed : Bool} {space : Nat} (h : Keeps deep s t) : Keeps deep s (t.sendRequest k rid timed space) := by
  exact h.modFab.handPacket

theorem answer {o : FabOrigin} {vc ptype op part ep : Nat} {args : List Nat} {data : List Byte} (h : Keeps deep s t) :
    Keeps deep s (t.answer o vc ptype op part ep args data) := by
  exact h.handPacket

theorem discardLate {k : Packet} (h : Keeps deep s t) : Keeps deep s (t.discardLate k) := h.bump

theorem taken {k : Packet} (h : Keeps deep s t) : Keeps deep s (t.taken k) := h.modFab

theorem takenOf {src vc seq : Nat} (h : Keeps deep s t) : Keeps deep s (t.takenOf src vc seq) := by
  unfold State.takenOf
  split
  · exact h.taken
  · exact h

theorem endRequest {seq : Nat} (h : Keeps deep s t) : Keeps deep s (t.endRequest seq) := h.modFab

theorem modCorpus {p : Nat} {f : Corpus → Corpus} (h : Keeps deep s t) : Keeps deep s (t.modCorpus p f) := h.putCorpora

theorem sweepSets {p : Nat} (h : Keeps deep s t) : Keeps deep s (t.sweepSets p) := by
  unfold State.sweepSets
  exact modCorpus (foldl h fun _ _ g => g.release)

/-! ### Sys2Proof/Machine/FlashOps.lean -/

theorem modFlash {f : Flash → Flash} (h : Keeps deep s t) : Keeps deep s (t.modFlash f) := h.putFlash

theorem closeSuper {sb : Nat} (h : Keeps deep s t) : Keeps deep s (t.closeSuper sb) := by
  unfold State.closeSuper
  split
  · exact h
  · exact ite h.modFlash h.modFlash.bump

theorem leaveOpen {host : Bool} (h : Keeps deep s t) : Keeps deep s (t.leaveOpen host) := by
  unfold State.leaveOpen
  split
  · exact h
  · exact by split; exacts [h, ite h.closeSuper h]

theorem program {host : Bool} {key : Nat} (h : Keeps deep s t) : Keeps deep s (t.program host key) := by
  unfold State.program
  dsimp only
  split
  · exact h.leaveOpen
  · exact h.leaveOpen.putFlash.bump

theorem relocate {keys : List Nat} (h : Keeps deep s t) : Keeps deep s (t.relocate keys) := foldl h fun _ _ g => g.program

theorem retireBlock {lun b : Nat} (h : Keeps deep s t) : Keeps deep s (t.retireBlock lun b) := by
  unfold State.retireBlock
  dsimp only
  refine ite h ?_
  split
  · exact h.modFlash.bump.logFlash
  · split
    · exact modFlash (ite h.modFlash.bump.logFlash h.modFlash.bump.logFlash.modFlash.relocate)
    · exact h.modFlash.bump.logFlash.modFlash.relocate.modFlash

theorem eraseSuper {sb : Nat} (h : Keeps deep s t) : Keeps deep s (t.eraseSuper sb) := foldl h.modFlash fun _ _ g => ite g.modFlash.retireBlock g.modFlash

theorem evacuate {sb : Nat} (h : Keeps deep s t) : Keeps deep s (t.evacuate sb) := ite h.relocate.eraseSuper h.relocate

theorem collect {n : Nat} (h : Keeps deep s t) : Keeps deep s (State.collect n t) := by
  induction n generalizing t with
  | zero => exact h
  | succ n ih =>
    unfold State.collect
    split
    · exact h
    · split
      · exact h
      · exact ih (evacuate (ite h h.bump))

theorem writeUnit {base size key : Nat} (h : Keeps deep s t) {u : State} (e : t.writeUnit base size key = .ok u) : Keeps deep s u := by
  have room : Keeps deep s (State.collect t.flash.supers.length t) := h.collect
  unfold State.writeUnit at e
  dsimp only at e
  repeat' split at e
  all_goals cases e
  · exact room.fresh.bump.program
  · exact h.program

theorem writeUnits {base size key n : Nat} (h : Keeps deep s t) : Keeps deep s (t.writeUnits base size key n).2.2 := by
  induction n generalizing t key with
  | zero => exact h
  | succ n ih =>
    unfold State.writeUnits
    split
    · exact h
    · exact ih (h.writeUnit ‹_›)

theorem sealWrite (h : Keeps deep s t) : Keeps deep s t.sealWrite := h.fresh.bump

theorem journal (h : Keeps deep s t) : Keeps deep s t.journal := h.fresh.bump

theorem unmapUnits {key n : Nat} (h : Keeps deep s t) : Keeps deep s (t.unmapUnits key n) := by
  unfold State.unmapUnits
  exact modMem_wf (ite h.modFlash.journal h) fun _ w => wf_undamage _ _ _ (wf_clear _ _ _ w)

theorem readUnit {p key : Nat} (h : Keeps deep s t) : Keeps deep s (t.readUnit p key) := by
  unfold State.readUnit
  split
  · exact h
  · exact ite h.modFlash.bump.event (ite h.modFlash.bump h.modFlash)

theorem readUnits {p key n : Nat} (h : Keeps deep s t) : Keeps deep s (t.readUnits p key n).2 := foldl h fun _ _ g => g.readUnit

theorem flashStore {p base size a : Nat} {data : List Byte} (h : Keeps deep s t) : Keeps deep s (t.flashStore p base size a data).1 := by
  unfold State.flashStore
  dsimp only
  exact h.writeUnits.writeMem.sealWrite.bump.chargeBw

theorem newKey {unit : Nat} (h : Keeps deep s t) : Keeps deep s (t.newKey unit) := h.modFlash

theorem dropKey {unit : Nat} (h : Keeps deep s t) : Keeps deep s (t.dropKey unit) := h.modFlash

theorem flashLoad {p a len : Nat} (h : Keeps deep s t) : Keeps deep s (t.flashLoad p a len).2.2.2 := by
  exact ite h.readUnits.bump.chargeBw h.readUnits.bump.chargeBw.putFree

theorem mediaFull {p unit detail : Nat} (h : Keeps deep s t) : Keeps deep s (t.mediaFull p unit detail) := h.event.logFlash

/-! ### Sys2Proof/Machine/Measure.lean -/

theorem putDigest {off : Nat → Nat} {bs : List Byte} (h : Keeps deep s t) : Keeps deep s (t.putDigest off bs) := foldl h fun _ _ g => g.setReg

theorem logMeasure {slot kind outcome serial : Nat} {d : List Byte} (h : Keeps deep s t) : Keeps deep s (t.logMeasure slot kind outcome serial d) := h.logAppend

theorem measure {slot kind outcome part serial : Nat} {d : List Byte} (h : Keeps deep s t) : Keeps deep s (t.measure slot kind outcome part serial d) := by
  exact ite h.putDigest.putSec h.putDigest.putSec.logMeasure

theorem settleEntry {index outcome : Nat} (h : Keeps deep s t) : Keeps deep s (t.settleEntry index outcome) := h.putSec

theorem sign {die : Nat} {bs : List Byte} (h : Keeps deep s t) : Keeps deep s (t.sign die bs).2 := h.putFree

theorem moveBase {l : Nat} {old new : ℤ} (h : Keeps deep s t) : Keeps deep s (t.moveBase l old new) := ite h.modTrim.setFld h.modTrim

theorem setCal {i : Nat} {u : ℤ} {source : Nat} (h : Keeps deep s t) : Keeps deep s (t.setCal i u source) := ite h (logAppend (putCal (ite h.moveBase h)))

/-! ### Sys2Proof/Machine/Image.lean -/

theorem putArea {p k a len : Nat} (h : Keeps deep s t) : Keeps deep s (t.putArea p k a len) := h.modMem

theorem liftAreas {bs : List Byte} (h : Keeps deep s t) : Keeps deep s (t.liftAreas bs) := h.modMem

theorem placeArea {held : List (Nat × Nat)} {p quota k at_ len : Nat} (h : Keeps deep s t) : OnSome deep s (t.placeArea held p quota k at_ len) Prod.snd := by
  unfold State.placeArea
  refine .ite .none fun a e => ?_
  obtain ⟨b, -, rfl⟩ := Option.map_eq_some_iff.mp e
  exact h.putArea

theorem placeAll {held : List (Nat × Nat)} {p quota : Nat} {xs : List (Nat × Nat × Nat × BRec)} {acc acc' : List (Nat × Nat × Nat)} {u : State}
    (h : Keeps deep s t) (e : State.placeAll held p quota xs t acc = .ok (u, acc')) : Keeps deep s u := by
  induction xs generalizing t acc with
  | nil =>
    cases e
    exact h
  | cons x xs ih =>
    unfold State.placeAll at e
    split at e
    · cases e
    · exact ih (h.placeArea _ ‹_›) e

theorem placePhase {held : List (Nat × Nat)} {rs : List BRec} {phase : Nat} {xs : List (Nat × BRec × PartCfg)} {acc acc' : List
    (Nat × Nat × Nat)} {u : State}
    (h : Keeps deep s t) (e : State.placePhase held rs phase xs t acc = .ok (u, acc')) : Keeps deep s u := by
  induction xs generalizing t acc with
  | nil =>
    cases e
    exact h
  | cons x xs ih =>
    unfold State.placePhase at e
    split at e
    · cases e
    · exact ih (h.placeAll ‹_›) e

theorem logImage {outcome reason : Nat} {bs : List Byte} (h : Keeps deep s t) : Keeps deep s (t.logImage outcome reason bs) := h.logAppend

/-! ### Sys2Proof/Machine/SelOps.lean -/

theorem modSel {u : Nat} {f : SelUnit → SelUnit} (h : Keeps deep s t) : Keeps deep s (t.modSel u f) := h.putSels

theorem selPut {u lid : Nat} {l : SelList} (h : Keeps deep s t) : Keeps deep s (t.selPut u lid l) := h.modSel

theorem selOpen {u lid : Nat} {l : SelList} (h : Keeps deep s t) : Keeps deep s (t.selOpen u lid l).1 := by
  unfold State.selOpen
  split
  · exact fst h.selPut
  · exact fst h.modSel

theorem selCount {u n : Nat} {a b : SelList} (h : Keeps deep s t) : Keeps deep s (t.selCount u n a b) := by
  exact ite (ite h.bump h.bump.bump) (bump (ite h.bump h.bump.bump))

theorem selOffer {u lid : Nat} {es : List SelEntry} (h : Keeps deep s t) : Keeps deep s (t.selOffer u lid es) := by
  unfold State.selOffer
  split
  · exact h
  · exact h.modSel.selCount

theorem selServeOne {u : Nat} (h : Keeps deep s t) : Keeps deep s (t.selServeOne u) := by
  unfold State.selServeOne
  split
  · exact h
  · exact by split; exacts [h, h.modSel.selPut.bump]

theorem selServeUnit {u : Nat} (h : Keeps deep s t) : Keeps deep s (t.selServeUnit u) := foldl h fun _ _ g => g.selServeOne

theorem selServe {cl : Nat} (h : Keeps deep s t) : Keeps deep s (t.selServe cl) := h.selServeUnit.selServeUnit

theorem selDrop {u lid : Nat} (h : Keeps deep s t) : Keeps deep s (t.selDrop u lid) := selServe (ite h.modSel.bump h.modSel)

theorem selClose {u lid : Nat} (h : Keeps deep s t) : Keeps deep s (t.selClose u lid).1 := by
  unfold State.selClose
  split
  · exact h
  · exact selDrop (ite (bump (ite h.bump h)) (ite h.bump h))

theorem selMerge {u lid : Nat} {data : List Byte} (h : Keeps deep s t) : Keeps deep s (t.selMerge u lid data) := by
  unfold State.selMerge
  split
  · exact h
  · exact h.modSel.selCount

theorem selUnask {rid : Nat} (h : Keeps deep s t) : Keeps deep s (t.selUnask rid) := foldl h fun _ _ g => ite g g.modSel.bump

theorem selForget {rid : Nat} (h : Keeps deep s t) : Keeps deep s (t.selForget rid) := foldl h.selUnask fun _ _ g => g.selDrop

/-! ### Sys2Proof/Machine/HostIf.lean -/

theorem coalesce {p q : Nat} (h : Keeps deep s t) : Keeps deep s (t.coalesce p q) := ite h.sendMsix h

theorem postCompletion {p q cid stream status flags count r0 r1 : Nat} {noIrq : Bool} (h : Keeps deep s t) :
    Keeps deep s (t.postCompletion p q cid stream status flags count r0 r1 noIrq) := by
  exact ite h.emit.modQueue h.emit.modQueue.modFlt.coalesce

theorem access {p a n : Nat} (h : Keeps deep s t) : Keeps deep s (t.access p a n) := by
  unfold State.access
  split
  · exact h
  · exact ite (ite h.chargeBw h) (foldl (ite h.chargeBw h) fun _ _ g => ite g.bump g)

theorem putResult {p addr : Nat} {bs : List Byte} (h : Keeps deep s t) : Keeps deep s (t.putResult p addr bs) := ite h (ite h.access.writeMem h.emit)

theorem readInput {p : Nat} {flow : Nat × Bool} {addr len : Nat} {host : List Byte} (h : Keeps deep s t) :
    Keeps deep s (t.readInput p flow addr len host).2 := by
  unfold State.readInput
  exact ite_snd (ite_snd h.flashLoad h.access) h.chargeHostRead

theorem freeContexts {rid : Nat} (h : Keeps deep s t) : Keeps deep s (t.freeContexts rid) := h.putCtxs

theorem giveRows {addr : Nat} {tensor : Option Nat} (h : Keeps deep s t) : Keeps deep s (t.giveRows addr tensor) := by
  unfold State.giveRows
  split
  · exact h.modMem
  · exact h.release

theorem retireVersions (h : Keeps deep s t) : Keeps deep s t.retireVersions := foldl h fun _ _ g => by split; exacts [ite g g.putEmb.giveRows, g]

theorem pinLookup {p rid : Nat} {c : HostCmd} (h : Keeps deep s t) : Keeps deep s (t.pinLookup p rid c) := by
  unfold State.pinLookup
  split
  · exact h
  · exact ite h h.putEmb

theorem dropLoad (h : Keeps deep s t) : Keeps deep s t.dropLoad := foldl h.putLoad.setFld fun _ _ g => ite g.setPstate g

theorem loseLoad {rid : Nat} (h : Keeps deep s t) : Keeps deep s (t.loseLoad rid) := by
  unfold State.loseLoad
  split
  · exact ite h.settleEntry.logImage.dropLoad h
  · exact h

theorem endBuild {rid : Nat} (h : Keeps deep s t) : Keeps deep s (t.endBuild rid) := by
  unfold State.endBuild
  split
  · exact foldl (ite h h.bump) fun _ _ g => g.release
  · exact h

theorem endUpdate {rid : Nat} (h : Keeps deep s t) : Keeps deep s (t.endUpdate rid) := ite h h.putCorpora

theorem endMigration {rid : Nat} (h : Keeps deep s t) : Keeps deep s (t.endMigration rid) := by
  unfold State.endMigration
  split
  · exact h.release.modMem
  · exact h

theorem endTable {rid : Nat} (h : Keeps deep s t) : Keeps deep s (t.endTable rid) := by
  exact ite (putEmb (ite h.putEmb.retireVersions h)) (ite h.putEmb.retireVersions h)

theorem endNamespace {rid : Nat} (h : Keeps deep s t) : Keeps deep s (t.endNamespace rid) := ite h.modFlash h

theorem endArrays {rid : Nat} (h : Keeps deep s t) : Keeps deep s (t.endArrays rid) := foldl h.putArrWork.putArrays.putShares.putParts fun _ _ g => g.hide

theorem endWork {rid : Nat} (h : Keeps deep s t) : Keeps deep s (t.endWork rid) := by
  unfold State.endWork
  dsimp only
  split
  · exact h.selForget.loseLoad.endBuild.endMigration.endTable.endNamespace.endUpdate.putQueries.putBuilds.endArrays.sweepSets
  · exact h.selForget.loseLoad.endBuild.endMigration.endTable.endNamespace.endUpdate.putQueries.putBuilds.endArrays

theorem freeTensor {i : Nat} (h : Keeps deep s t) : Keeps deep s (t.freeTensor i) := by
  unfold State.freeTensor
  split
  · exact h
  · exact modMem (release (ite (modFlash (ite h.unmapUnits h)) (ite h.unmapUnits h)))

theorem reap (h : Keeps deep s t) : Keeps deep s t.reap := by
  refine foldl (modMem (foldl h fun _ _ g => g.freeTensor)) fun _ _ g => release (ite ?_ g)
  split
  · exact g.unmapUnits
  · exact g

theorem noteEnd {rid : Nat} {r : Rec} {vented : Bool} (h : Keeps deep s t) : Keeps deep s (t.noteEnd rid r vented) := ite h h.modPart

theorem lateEnds {p : Nat} {f : EndNote → Bool} (h : Keeps deep s t) : Keeps deep s (t.lateEnds p f) := ite h h.modPart.bump

theorem lateEnd {p q cid op : Nat} (h : Keeps deep s t) : Keeps deep s (t.lateEnd p q cid op) := h.lateEnds

theorem flashResult {p a : Nat} {bs : List Byte} (h : Keeps deep s t) : Keeps deep s (t.flashResult p a bs).1 := by
  unfold State.flashResult
  split
  · exact h
  · split
    · exact of_fst h.flashStore ‹_›
    · exact (of_fst h.flashStore ‹_›).modFlash.mediaFull

theorem sendP {p rid : Nat} {use : PUse} {w : PWindow} {a len : Nat} {write : Bool} {data : List Byte} (h : Keeps deep s t) :
    Keeps deep s (t.sendP p rid use w a len write data) := by
  unfold State.sendP
  exact h.sendRequest.modMem

theorem openResults {r : Rec} {status : Nat} {res : List Byte} (h : Keeps deep s t) : Keeps deep s (t.openResults r status res).2 := by
  unfold State.openResults
  exact ite_snd h.putFree h

theorem completeOne {rid : Nat} {r : Rec} {status flags count r0 r1 : Nat} {res : List Byte} (h : Keeps deep s t) :
    Keeps deep s (t.completeOne rid r status flags count r0 r1 res) := by
  unfold State.completeOne
  dsimp only
  split
  · refine answer ?_
    refine ite ?_ ?_
    · exact bump (ite h.noteEnd.freeContexts.putRecs.endWork h.noteEnd.freeContexts.putRecs.endWork.reap)
    · exact ite h.noteEnd.freeContexts.putRecs.endWork h.noteEnd.freeContexts.putRecs.endWork.reap
  · refine postCompletion ?_
    split
    · refine putResult ?_
      refine ite ?_ ?_
      · exact bump (ite h.noteEnd.freeContexts.putRecs.endWork h.noteEnd.freeContexts.putRecs.endWork.reap)
      · exact ite h.noteEnd.freeContexts.putRecs.endWork h.noteEnd.freeContexts.putRecs.endWork.reap
    · refine emit (putResult ?_)
      refine ite ?_ ?_
      · exact bump (ite h.noteEnd.freeContexts.putRecs.endWork h.noteEnd.freeContexts.putRecs.endWork.reap)
      · exact ite h.noteEnd.freeContexts.putRecs.endWork h.noteEnd.freeContexts.putRecs.endWork.reap

theorem endHeld {rid : Nat} {r : Rec} {f : Finish} {status : Nat} (h : Keeps deep s t) : Keeps deep s (t.endHeld rid r f status) := by
  refine completeOne (bump ?_)
  split
  · exact h.freeTensor
  · exact h

theorem sendHeld {rid : Nat} {r : Rec} {f : Finish} (h : Keeps deep s t) : Keeps deep s (t.sendHeld rid r f) := by
  refine ite ?_ ?_
  · refine ite h ?_
    split
    · exact completeOne (of_fst h.flashResult ‹_›)
    · exact completeOne (of_fst h.flashResult ‹_›)
  · split
    · exact h.endHeld
    · exact h
    · exact h.modRec.sendP

theorem holdResult {rid : Nat} {r : Rec} {f : Finish} (h : Keeps deep s t) : Keeps deep s (t.holdResult rid r f) := h.endWork.modRec.sendHeld

theorem complete {p rid status flags count r0 r1 : Nat} {res : List Byte} (h : Keeps deep s t) :
    Keeps deep s (t.complete p rid status flags count r0 r1 res) := by
  unfold State.complete
  split
  · exact h.bump
  · refine ite h.completeOne (ite h.openResults.completeOne (ite h.openResults.holdResult (ite h.openResults.holdResult ?_)))
    refine ite ?_ ?_
    · split
      · exact completeOne (of_fst h.openResults.flashResult ‹_›)
      · exact completeOne (of_fst h.openResults.flashResult ‹_›)
    · exact h.openResults.completeOne

theorem fail {p rid status : Nat} (h : Keeps deep s t) : Keeps deep s (t.fail p rid status) := h.complete

theorem failP {p rid status : Nat} (h : Keeps deep s t) : Keeps deep s (t.failP p rid status) := by
  unfold State.failP
  split
  · exact h.endHeld
  · exact h.bump.fail

theorem endLate {rid : Nat} {r : Rec} {f : Finish} (h : Keeps deep s t) : Keeps deep s (t.endLate rid r f) := ite h.complete h.completeOne

theorem accessP {p rid a len : Nat} {write : Bool} {data : List Byte} (h : Keeps deep s t) : Keeps deep s (t.accessP p rid a len write data) := by
  unfold State.accessP
  split
  · exact h.failP
  · exact h
  · exact h.sendP.modRec

theorem noteQuota {p status : Nat} {past : Bool} (h : Keeps deep s t) : Keeps deep s (t.noteQuota p status past) := ite h.quotaRefused h

theorem refuse {p rid status : Nat} {past : Bool} (h : Keeps deep s t) : Keeps deep s (t.refuse p rid status past) := h.noteQuota.fail

theorem done {p rid count r0 r1 : Nat} (h : Keeps deep s t) : Keeps deep s (t.done p rid count r0 r1) := h.complete

theorem uncorrectableAt {p a : Nat} (h : Keeps deep s t) : Keeps deep s (t.uncorrectableAt p a) := ite h.event h.event

theorem takeCtx {p g rid gen : Nat} {st : CtxState} (h : Keeps deep s t) : OnSome deep s (t.takeCtx p g rid gen st) Prod.snd := by
  unfold State.takeCtx
  refine .ite .none ?_
  split
  · exact .none
  · exact .some h.putCtxs

theorem named {r : Rec} (h : Keeps deep s t) : Keeps deep s (t.named r) := ite h.modMem h

theorem fetchInput {rid : Nat} (h : Keeps deep s t) : Keeps deep s (t.fetchInput rid) := by
  unfold State.fetchInput
  split
  · exact h
  · exact by split; exacts [h.modRec, by split; exacts [h.failP, h, h.sendP]]

theorem makeReady {rid : Nat} (h : Keeps deep s t) : Keeps deep s (t.makeReady rid) := by
  unfold State.makeReady
  dsimp only
  split
  · exact h
  · split
    · exact h.flashLoad.fail
    · exact ite h.modRec h.modRec.fetchInput

theorem serveP (h : Keeps deep s t) : Keeps deep s t.serveP := by
  refine foldl h fun _ _ g => ?_
  split
  · exact g
  · refine ite g.fetchInput ?_
    split
    · exact ite g g.sendHeld
    · exact g

theorem writeStatus {rid : Nat} (h : Keeps deep s t) : Keeps deep s (t.writeStatus rid) := by
  unfold State.writeStatus
  split
  · exact by split; exacts [h.emit.modRec, h]
  · exact h

theorem noteFold {p : Nat} (h : Keeps deep s t) : Keeps deep s (t.noteFold p) := ite h h.putCorpora

theorem pinQuery {p rid : Nat} {c : HostCmd} {sub : Bool} {extra : List Byte} (h : Keeps deep s t) : Keeps deep s (t.pinQuery p rid c sub extra) := by
  exact ite h.noteFold.putQueries.bump h.noteFold.putQueries
/-- What a new record adds: its claims, its number, and what its command pins. -/
theorem admitted {u v w x : State} {n rid p : Nat} {recs : KV Rec} {cmd : HostCmd} {fab blocked lng : Bool} {extra : List Byte} (claims : Nat)
    (h : Keeps deep s u) (hv : v = ((u.modMem fun m => { m with claimNo := claims }).putRecs recs).putNextRec n)
    (hw : w = if blocked then v.bump (cMemPClaimWaits p) 1 else v)
    (hx : x = if cmd.opcode = 0x10 then w.pinQuery p rid cmd fab extra else if cmd.opcode = 0x31 then w.pinLookup p rid cmd else w) :
    Keeps deep s (if lng then x.writeStatus rid else x) := by
  have gv : Keeps deep s v := hv ▸ h.modMem.putRecs.putNextRec
  have gw : Keeps deep s w := hw ▸ ite gv.bump gv
  have gx : Keeps deep s x := hx ▸ ite gw.pinQuery (ite gw.pinLookup gw)
  exact ite gx.writeStatus gx

theorem admitRec {p q : Nat} {fab : Option FabOrigin} {cmd : HostCmd} {order g : Nat} {extra : List Byte} {aim : List Nat} {fetched : Option Nat}
    {demoted : Bool} (h : Keeps deep s t) : OnSome deep s (t.admitRec p q fab cmd order g extra aim fetched demoted) Prod.snd := by
  unfold State.admitRec
  dsimp only
  split
  · exact .none
  · rename_i id u e
    have taken : Keeps deep s u := h.takeCtx _ e
    exact .some (snd (ite (admitted _ taken rfl rfl rfl) (makeReady (admitted _ taken rfl rfl rfl))))

theorem execSqTailDoorbell {p q tail : Nat} (h : Keeps deep s t) : Runs deep s (Machine.execSqTailDoorbell p q tail t) := by
  exact .ite (.next h) (.ite (.next h) (.ite (.next h.modQueue) (.next h.modQueue)))

theorem execCqHeadDoorbell {p q head : Nat} (h : Keeps deep s t) : Runs deep s (Machine.execCqHeadDoorbell p q head t) := by
  exact .ite (.next h) (.ite (.next h.modQueue) (.next h.modQueue))

theorem execQueueEnable {p q : Nat} (h : Keeps deep s t) : Runs deep s (Machine.execQueueEnable p q t) := by
  exact .ite (.next h) (.ite (.next h) (.ite (.next h.modQueue) (.next h.modQueue)))

theorem execQueueDisable {p q : Nat} (h : Keeps deep s t) : Runs deep s (Machine.execQueueDisable p q t) := .ite (.next h) (.next h.modQueue)

theorem markHeads {port : Nat} (h : Keeps deep s t) : Keeps deep s (t.markHeads port) := foldl h fun _ _ g => foldl g fun _ _ g => g.putQueues

theorem serveUnit {dom p apply cls stream len entered : Nat} {start : Frac} (h : Keeps deep s t) :
    Keeps deep s (t.serveUnit dom p apply cls stream len entered start) := by
  exact h.noteShape.modFab.debitShaper

theorem admitStaged {k : Nat} {g' : Staged} (h : Keeps deep s t) : Keeps deep s (t.admitStaged k g') := by
  unfold State.admitStaged
  dsimp only
  split
  · exact putQueues ((h.admitRec) _ ‹_›)
  · exact ite h.putQueues h.putQueues.bump

theorem execHostIngressAdmit {port : Nat} (h : Keeps deep s t) : Runs deep s (Machine.execHostIngressAdmit port t) := by
  unfold Machine.execHostIngressAdmit
  dsimp only
  split
  · exact .next h.markHeads
  · exact .next h.markHeads.serveUnit.admitStaged.markHeads

theorem execAdmissionResume {p : Nat} (h : Keeps deep s t) : Runs deep s (Machine.execAdmissionResume p t) := by
  refine .ite (.next h) ?_
  split
  · exact .next h.admitStaged
  · split
    · exact .next h
    · split
      · exact .next (modPart (putFetchNo ((h.admitRec) _ ‹_›)))
      · exact .next h

theorem refuseFabric {p ep : Nat} {o : FabOrigin} {op : Nat} (h : Keeps deep s t) : Keeps deep s (t.refuseFabric p ep o op) := h.answer

theorem execFabricReqBufferTimeout {p : Nat} (h : Keeps deep s t) : Runs deep s (Machine.execFabricReqBufferTimeout p t) := by
  exact .next (foldl h.modPart fun _ _ g => g.refuseFabric.bump)

theorem execOrderedRelease {p q : Nat} (h : Keeps deep s t) : Runs deep s (Machine.execOrderedRelease p q t) := by
  unfold Machine.execOrderedRelease
  dsimp only
  split
  · exact .next h
  · exact .ite (.next h) (.next (ite h.makeReady h.modRec))

theorem execClaimGrant {p q cid : Nat} (h : Keeps deep s t) : Runs deep s (Machine.execClaimGrant p q cid t) := by
  unfold Machine.execClaimGrant
  split
  · exact .ite (.next h.makeReady) (.next h)
  · exact .next h

theorem execMsixCoalesceTimeout {p q : Nat} (h : Keeps deep s t) : Runs deep s (Machine.execMsixCoalesceTimeout p q t) := by
  unfold Machine.execMsixCoalesceTimeout
  split
  · exact .next h
  · exact .ite (.next h.sendMsix) (.next h)

theorem execNop {p q cid : Nat} (h : Keeps deep s t) : Runs deep s (Machine.execNop p q cid t) := by
  unfold Machine.execNop
  split
  · exact .next h.done
  · exact .next h

theorem execFence {p q cid : Nat} (h : Keeps deep s t) : Runs deep s (Machine.execFence p q cid t) := by
  unfold Machine.execFence
  split
  · exact .next h.modRec
  · exact .next h

theorem execFenceComplete {p q cid : Nat} (h : Keeps deep s t) : Runs deep s (Machine.execFenceComplete p q cid t) := by
  unfold Machine.execFenceComplete
  split
  · exact .ite (.next h) (.next h.done)
  · exact .next h

theorem execLongOpStart {p q cid : Nat} (h : Keeps deep s t) : Runs deep s (Machine.execLongOpStart p q cid t) := by
  unfold Machine.execLongOpStart
  split
  · exact by split; exacts [.ite (.next h.modRec.writeStatus) (.next h), .next h]
  · exact .next h

theorem destroyKey {rid key : Nat} (h : Keeps deep s t) : Keeps deep s (t.destroyKey rid key) := ite h h.dropKey

theorem migrateCopy {m : Migration} {n : Nat} (h : Keeps deep s t) : Keeps deep s (t.migrateCopy m n) := by
  unfold State.migrateCopy
  split
  · exact h
  · exact ite h h.access.access.bump

theorem workOn {rid : Nat} {r : Rec} {l : LongOp} {w : Nat} (h : Keeps deep s t) : Keeps deep s (t.workOn rid r l w).1 := by
  unfold State.workOn
  dsimp only
  split
  · exact ite_fst (fst h) (fst h.putBuilds)
  · exact fst h.migrateCopy.modMem
  · exact fst h.destroyKey.unmapUnits.modFlash
  · exact fst h

theorem execLongOpStatusTick {p q cid : Nat} (h : Keeps deep s t) : Runs deep s (Machine.execLongOpStatusTick p q cid t) := by
  unfold Machine.execLongOpStatusTick
  split
  · exact by split; exacts [.ite (.next h) (.ite (.next h.writeStatus) (.next h.fresh.workOn.modRec.writeStatus)), .next h]
  · exact .next h

/-! ### Sys2Proof/Machine/Select.lean -/

theorem execSelectListOpen {u rid lid k : Nat} {higher fp dedup : Bool} (h : Keeps deep s t) :
    Runs deep s (Machine.execSelectListOpen u rid lid k higher fp dedup t) := by
  unfold Machine.execSelectListOpen
  dsimp only
  refine .ite ?_ ?_
  · split
    · exact .next h.bump.fail
    · exact .next h.bump
  · exact .next h.selOpen

theorem execSelectInsert {u lid key id seg node : Nat} (h : Keeps deep s t) : Runs deep s (Machine.execSelectInsert u lid key id seg node t) := .next h.selOffer

theorem execSelectListClose {u lid : Nat} (h : Keeps deep s t) : Runs deep s (Machine.execSelectListClose u lid t) := by
  unfold Machine.execSelectListClose
  split
  · exact .next (putResults (of_fst h.selClose ‹_›))
  · exact .next (of_fst h.selClose ‹_›)

theorem execSelectMerge {u lid : Nat} {data : List Byte} (h : Keeps deep s t) : Runs deep s (Machine.execSelectMerge u lid data t) := .next h.selMerge

/-! ### Sys2Proof/Machine/Bank.lean -/

theorem modChan {c : Nat} {f : BankCh → BankCh} (h : Keeps deep s t) : Keeps deep s (t.modChan c f) := h.putBank

theorem writeChan {a : Nat} {bs : List Byte} (h : Keeps deep s t) : Keeps deep s (t.writeChan a bs) := ite h h.writeMem

theorem serveHeld {hs : List HeldAcc} (h : Keeps deep s t) : Keeps deep s (t.serveHeld hs) := foldl h fun _ _ g => ite g.writeChan g

theorem bankToken {job : BankJob} {c status records : Nat} (h : Keeps deep s t) : Keeps deep s (t.bankToken job c status records) := by
  refine ite h.putTokens.bump (ite h.putTokens ?_)
  split
  · exact ite h.putTokens.bump.fail h.putTokens.bump
  · exact h.putTokens.bump

theorem bankBegin {c : Nat} {job : BankJob} (h : Keeps deep s t) : OnSome deep s (t.bankBegin c job) id := by
  unfold State.bankBegin
  refine .ite ?_ (.ite (.some h.modChan) (.ite (.some h.modChan) (.some h.modChan)))
  dsimp only
  split
  · exact .none
  · exact .some h.modChan

theorem endRingWait {c : Nat} (h : Keeps deep s t) : Keeps deep s (t.endRingWait c) := by
  unfold State.endRingWait
  split
  · exact ite h.modChan.bump h.modChan
  · exact h

theorem popJob {c : Nat} (h : Keeps deep s t) : Keeps deep s (t.popJob c) := h.modChan

theorem bankStart {c fuel : Nat} (h : Keeps deep s t) : Keeps deep s (t.bankStart c fuel) := by
  induction fuel generalizing t with
  | zero => exact h
  | succ fuel ih =>
    unfold State.bankStart
    refine ite h ?_
    dsimp only
    split
    · exact h
    · refine ite h (ite h (ite h.modChan ?_))
      split
      · exact ih h.endRingWait.popJob.modChan.bankToken
      · have begun := h.endRingWait.popJob.bankBegin _ ‹_›
        exact ite begun begun.bump

theorem bankQueue {c : Nat} {job : BankJob} (h : Keeps deep s t) : Keeps deep s (t.bankQueue c job) := bankStart (ite h.modChan.modChan.bump h.modChan)

theorem bankIssue {op p c rid : Nat} {desc : List Byte} (h : Keeps deep s t) : Keeps deep s (t.bankIssue op p c rid desc) := by
  unfold State.bankIssue
  dsimp only
  split
  · exact h.bankToken
  · exact h.bankQueue

theorem execScanHam {p c rid : Nat} {desc : List Byte} (h : Keeps deep s t) : Runs deep s (Machine.execScanHam p c rid desc t) := .next h.bankIssue

theorem execGatherHam {p c rid : Nat} {desc : List Byte} (h : Keeps deep s t) : Runs deep s (Machine.execGatherHam p c rid desc t) := .next h.bankIssue

theorem execScanBits {p c rid : Nat} {desc : List Byte} (h : Keeps deep s t) : Runs deep s (Machine.execScanBits p c rid desc t) := .next h.bankIssue

theorem execCopy {p c rid : Nat} {desc : List Byte} (h : Keeps deep s t) : Runs deep s (Machine.execCopy p c rid desc t) := .next h.bankIssue

theorem execFill {p c rid : Nat} {desc : List Byte} (h : Keeps deep s t) : Runs deep s (Machine.execFill p c rid desc t) := .next h.bankIssue

theorem pendWrite {c a : Nat} {bs : List Byte} (h : Keeps deep s t) : Keeps deep s (t.pendWrite c a bs) := modChan (ite h h.hide)

theorem noteRows {c : Nat} {j : BankJob} (h : Keeps deep s t) : Keeps deep s (t.noteRows c j) := ite h h.modChan

theorem runCompare {c : Nat} {j : BankJob} (h : Keeps deep s t) : Keeps deep s (t.runCompare c j) := ite h (foldl h.modChan fun _ _ g => g.event)

theorem execBankCmdDone {c : Nat} (h : Keeps deep s t) : Runs deep s (Machine.execBankCmdDone c t) := by
  unfold Machine.execBankCmdDone
  split
  · exact .next h.bankStart
  · refine .next (bankStart (bankToken (modChan ?_)))
    refine ite ?_ ?_
    · split
      · exact foldl (foldl h.runCompare.noteRows fun _ _ g => g.pendWrite) fun _ _ g => g.pendWrite
      · exact foldl h.runCompare.noteRows fun _ _ g => g.pendWrite
    · refine modChan ?_
      split
      · exact foldl (foldl h.runCompare.noteRows fun _ _ g => g.pendWrite) fun _ _ g => g.pendWrite
      · exact foldl h.runCompare.noteRows fun _ _ g => g.pendWrite

theorem fenceChan {c : Nat} (h : Keeps deep s t) : Keeps deep s (t.fenceChan c) := by
  unfold State.fenceChan
  refine modChan ?_
  split
  · exact foldl (foldl h fun _ _ g => g.writeChan) fun _ _ g => g.writeChan
  · exact foldl h fun _ _ g => g.writeChan

theorem takeRecords {c : Nat} {j : BankJob} (h : Keeps deep s t) : Keeps deep s (t.takeRecords c j) := by
  unfold State.takeRecords
  split
  · exact h.access.writeChan
  · exact h

theorem tokenIssue {p c rid : Nat} {desc : List Byte} (h : Keeps deep s t) : Keeps deep s (t.tokenIssue p c rid desc) := by
  exact ite h.bankToken (ite h.bankQueue h.bankToken)

theorem execBkeFenceToken {p : Nat} {tok : TokenAt} (h : Keeps deep s t) : Runs deep s (Machine.execBkeFenceToken p tok t) := by
  unfold Machine.execBkeFenceToken
  dsimp only
  split
  · exact .ite (.next (bankStart (bankToken (takeRecords (fenceChan (popJob (ite h h.tokenIssue))))))) (.next (bankStart (ite h h.tokenIssue)))
  · exact .next (ite h h.tokenIssue)

theorem chanToMemory {c st : Nat} (h : Keeps deep s t) : Keeps deep s (t.chanToMemory c st) := by
  unfold State.chanToMemory
  exact h.serveHeld.modChan

theorem chanBack {c : Nat} (h : Keeps deep s t) : Keeps deep s (t.chanBack c) := h.chanToMemory.bump

theorem execChannelLingerExpiry {c : Nat} (h : Keeps deep s t) : Runs deep s (Machine.execChannelLingerExpiry c t) := .ite (.next h.chanBack) (.next h)

theorem yieldChan {c : Nat} (h : Keeps deep s t) : Keeps deep s (t.yieldChan c) := h.serveHeld.modChan.bump.bump.bankStart

theorem holdAcc {c : Nat} {h' : HeldAcc} (h : Keeps deep s t) : Keeps deep s (t.holdAcc c h') := by
  exact ite h (ite h.serveHeld (ite h.bump.modChan h.bump.modChan.yieldChan))

theorem execOrdinaryAccessHeld {c addr : Nat} {write : Bool} {data : List Byte} (h : Keeps deep s t) :
    Runs deep s (Machine.execOrdinaryAccessHeld c addr write data t) := by
  exact .next (ite h.holdAcc h.holdAcc.bankStart)

theorem ordWrite {p a : Nat} {bs : List Byte} (h : Keeps deep s t) : Keeps deep s (t.ordWrite p a bs) := by
  exact ite h.writeMem.access (foldl h.chargeBw fun _ _ g => g.holdAcc)

theorem ordRead {p a n : Nat} (h : Keeps deep s t) : Keeps deep s (t.ordRead p a n) := ite h.access (foldl h.chargeBw fun _ _ g => ite g.holdAcc g)

theorem execForcedYield {c : Nat} (h : Keeps deep s t) : Runs deep s (Machine.execForcedYield c t) := by
  unfold Machine.execForcedYield
  dsimp only
  split
  · exact .next h
  · exact .ite (.next h.yieldChan) (.next h)

theorem refreshNow {n : Nat} (h : Keeps deep s t) : Keeps deep s (t.refreshNow n) := h.setFld

theorem newBin {n : Nat} (h : Keeps false s t) : Keeps false s (t.newBin n) := h.putBoard.refreshNow

theorem execRefreshDue {c bank postponed : Nat} (h : Keeps false s t) : Runs false s (Machine.execRefreshDue c bank postponed t) :=
  .ite (.next h.newBin.setFld.bump) (.next h.newBin.setFld)

theorem execTargetedRefresh {c bank : Nat} {acts : RowActs} (h : Keeps deep s t) : Runs deep s (Machine.execTargetedRefresh c bank acts t) := by
  exact .ite (.next h) (.ite (.next h.modChan.bump.bump) (.next h.modChan.bump))

theorem setStackTemp {n : Nat} {raw : ℤ} (h : Keeps false s t) : Keeps false s (t.setStackTemp n raw) := h.putBoard.setFld

theorem execEngineThrottleWindow {stack start : Nat} {temp : ℤ} (h : Keeps false s t) :
    Runs false s (Machine.execEngineThrottleWindow stack start temp t) := by
  have counted : ∀ {v : State} {c : Prop} [Decidable c] {k n : Nat}, Keeps false s v → Keeps false s (if c then v.bump k n else v) := fun g => ite g.bump g
  refine .ite (.next h) (.ite (.next ?_) (.next (foldl ?_ fun _ _ g => g.bankStart)))
  · exact setFld (setFld (setFld (counted (foldl h.setStackTemp fun _ _ g => ite g g.modChan))))
  · exact setFld (setFld (setFld (counted (foldl h.setStackTemp fun _ _ g => ite g g.modChan))))

theorem execBkeFence {p q cid : Nat} (h : Keeps deep s t) : Runs deep s (Machine.execBkeFence p q cid t) := by
  unfold Machine.execBkeFence
  split
  · exact .next h
  · exact by split; exacts [.next h.fail, .next (modRec (foldl h fun _ _ g => g.bankQueue))]

theorem execBkeFenceComplete {p q cid : Nat} (h : Keeps deep s t) : Runs deep s (Machine.execBkeFenceComplete p q cid t) := by
  unfold Machine.execBkeFenceComplete
  split
  · exact .next h
  · exact .ite (.next h) (.next h.done)

theorem bankReset {p : Nat} (h : Keeps deep s t) : Keeps deep s (t.bankReset p) := by
  exact foldl h fun _ _ g => ite (bankStart (modChan (foldl g.serveHeld.endRingWait fun _ _ g => g.bankToken))) g

theorem bankFence {c : Nat} (h : Keeps deep s t) : Keeps deep s (t.bankFence c) := by
  exact bankStart (ite (modChan (chanToMemory (ite h.bump h))) (bump (modChan (chanToMemory (ite h.bump h)))))

/-! ### Sys2Proof/Machine/Arrays.lean -/

theorem modArr {a : Nat} {f : ArrUnit → ArrUnit} (h : Keeps deep s t) : Keeps deep s (t.modArr a f) := h.putArrays

theorem arrQuanta {a : Nat} (h : Keeps deep s t) : Keeps deep s (t.arrQuanta a) := by
  unfold State.arrQuanta
  exact h.modShare

theorem loadPerms {a p : Nat} (h : Keeps deep s t) : Keeps deep s (t.loadPerms a p) := h.setReg

theorem arrSwitch {a n : Nat} {cheap : Bool} (h : Keeps deep s t) : Keeps deep s (t.arrSwitch a n cheap) := by
  refine bump (powerDomain ?_)
  refine ite ?_ ?_
  · refine loadPerms (modArr (modShare ?_))
    split
    · exact ite h h.bump
    · exact h
  · refine modArr (modShare ?_)
    split
    · exact ite h h.bump
    · exact h

theorem askYield {a : Nat} (h : Keeps deep s t) : Keeps deep s (t.askYield a) := by
  unfold State.askYield
  dsimp only
  split
  · exact ite h.modShare h
  · exact h

theorem newWork {s0 : State} (h : Keeps deep s t) : Keeps deep s (State.newWork s0 t) := foldl h fun _ _ g => ite g.arrQuanta.askYield g

theorem addArrWork {p rid : Nat} (h : Keeps deep s t) : Keeps deep s (t.addArrWork p rid) := ite h h.putArrWork

theorem queueArrWork {p rid : Nat} (h : Keeps deep s t) : Keeps deep s (t.queueArrWork p rid) := h.addArrWork.newWork

theorem dropArrWork {rid : Nat} (h : Keeps deep s t) : Keeps deep s (t.dropArrWork rid) := h.putArrWork

theorem releaseWindows {p a : Nat} (h : Keeps deep s t) : Keeps deep s (t.releaseWindows p a) := ite h h.putModels

theorem arrRelease {a : Nat} (h : Keeps deep s t) : Keeps deep s (t.arrRelease a) := by
  unfold State.arrRelease
  dsimp only
  split
  · exact h.modArr.modShare.releaseWindows
  · exact h.modArr.modShare

theorem arrDecide {a : Nat} (h : Keeps deep s t) : Keeps deep s (t.arrDecide a) := by
  unfold State.arrDecide
  dsimp only
  split
  · exact h.modShare.arrSwitch.releaseWindows
  · exact h.modShare.modShare

theorem arrBoundary {p : Nat} (h : Keeps deep s t) : Keeps deep s (t.arrBoundary p) := foldl h fun _ _ g => ite g.arrDecide g

theorem execArrayTaken {a p : Nat} (h : Keeps deep s t) : Runs deep s (Machine.execArrayTaken a p t) := .ite (.next h.modShare.arrSwitch.arrQuanta) (.next h)

theorem decideFirst {a : Nat} (h : Keeps deep s t) : Keeps deep s (t.decideFirst a) := by
  unfold State.decideFirst
  split
  · exact ite h.arrDecide h
  · exact h

theorem execArrayRoundStart {a : Nat} (h : Keeps deep s t) : Runs deep s (Machine.execArrayRoundStart a t) := by
  exact .ite (.next h.decideFirst.modShare.arrQuanta.askYield) (.next h)

theorem spillLive {a p : Nat} (h : Keeps deep s t) : Keeps deep s (t.spillLive a p) := by
  unfold State.spillLive
  split
  · exact h.modShare
  · exact h

theorem yieldArray {a : Nat} (h : Keeps deep s t) : Keeps deep s (t.yieldArray a) := by
  unfold State.yieldArray
  split
  · exact ite h.spillLive.bump.bump.arrSwitch.releaseWindows h
  · exact h

theorem coreRan {p n : Nat} (h : Keeps deep s t) : Keeps deep s (t.coreRan p n) := by
  unfold State.coreRan
  exact h.fresh.modPart

theorem execYieldLimitExpiry {a : Nat} (h : Keeps deep s t) : Runs deep s (Machine.execYieldLimitExpiry a t) := by
  unfold Machine.execYieldLimitExpiry
  split
  · exact .ite (.next h.modShare.bump) (.next h)
  · exact .next h

theorem arrToken {k : ArrToken} {rid : Nat} (h : Keeps deep s t) : Keeps deep s (t.arrToken k rid) := by
  exact ite h.putAtokens (ite (fail (ite h.putAtokens h.putAtokens.bump)) (ite h.putAtokens h.putAtokens.bump))

theorem arrStart {a : Nat} {j : ArrJob} (h : Keeps deep s t) : Keeps deep s (t.arrStart a j) := by
  exact bump (addMeter (bump (ite (foldl h.modArr fun _ _ g => g.access) (bump (foldl h.modArr fun _ _ g => g.access)))))

theorem arrHead {a : Nat} {j : ArrJob} (h : Keeps deep s t) : Keeps deep s (t.arrHead a j) := by
  unfold State.arrHead
  split
  · exact h.arrToken
  · exact ite h.arrToken h.arrStart

theorem arrPump {a f : Nat} (h : Keeps deep s t) : Keeps deep s (State.arrPump a f t) := by
  induction f generalizing t with
  | zero => exact h
  | succ f ih =>
    unfold State.arrPump
    refine ite h ?_
    split
    · exact h
    · split
      · exact h
      · exact ih h.modArr.arrHead.dropArrWork

theorem arrGo {a : Nat} (h : Keeps deep s t) : Keeps deep s (t.arrGo a) := h.arrPump

theorem arrIssue {mode a p rid : Nat} {desc : List Byte} (h : Keeps deep s t) : Keeps deep s (t.arrIssue mode a p rid desc) := by
  unfold State.arrIssue
  exact ite h h.modArr.addArrWork.newWork.arrGo

theorem execArrayInstrMac {a p rid : Nat} {desc : List Byte} (h : Keeps deep s t) : Runs deep s (Machine.execArrayInstrMac a p rid desc t) := .next h.arrIssue

theorem execArrayInstrMultiWord {a p rid : Nat} {desc : List Byte} (h : Keeps deep s t) : Runs deep s (Machine.execArrayInstrMultiWord a p rid desc t) := by
  exact .next h.arrIssue

theorem execArrayInstrDistance {a p rid : Nat} {desc : List Byte} (h : Keeps deep s t) : Runs deep s (Machine.execArrayInstrDistance a p rid desc t) := by
  exact .next h.arrIssue

theorem addClips {a : Nat} {req clip : List Nat} (h : Keeps deep s t) : Keeps deep s (t.addClips a req clip) := by
  exact foldl h fun _ _ g => ite (ite g g.bump) (bump (ite g g.bump))

theorem arrOutputs {a : Nat} {r : ArrRun} (h : Keeps deep s t) : Keeps deep s (t.arrOutputs a r) := ite h (modArr (foldl h fun _ _ g => g.hide))

theorem endPhase {a p : Nat} (h : Keeps deep s t) : Keeps deep s (t.endPhase a p) := modArr (foldl h fun _ _ g => g.writeMem)

theorem countTime {a : Nat} {r : ArrRun} (h : Keeps deep s t) : Keeps deep s (t.countTime a r) := ite h (ite h.fresh.bump.bump h.bump)

theorem execArrayInstrDone {a : Nat} (h : Keeps deep s t) : Runs deep s (Machine.execArrayInstrDone a t) := by
  unfold Machine.execArrayInstrDone
  split
  · exact .next h
  · refine .next (arrGo (dropArrWork (arrToken ?_)))
    refine ite ?_ ?_
    · refine addClips ?_
      refine ite ?_ ?_
      · split
        · exact loadPerms (countTime (bump (ite h.arrOutputs.modArr.endPhase h.arrOutputs.modArr)))
        · exact countTime (bump (ite h.arrOutputs.modArr.endPhase h.arrOutputs.modArr))
      · refine bump ?_
        split
        · exact loadPerms (countTime (bump (ite h.arrOutputs.modArr.endPhase h.arrOutputs.modArr)))
        · exact countTime (bump (ite h.arrOutputs.modArr.endPhase h.arrOutputs.modArr))
    · refine ite ?_ ?_
      · split
        · exact loadPerms (countTime (bump (ite h.arrOutputs.modArr.endPhase h.arrOutputs.modArr)))
        · exact countTime (bump (ite h.arrOutputs.modArr.endPhase h.arrOutputs.modArr))
      · refine bump ?_
        split
        · exact loadPerms (countTime (bump (ite h.arrOutputs.modArr.endPhase h.arrOutputs.modArr)))
        · exact countTime (bump (ite h.arrOutputs.modArr.endPhase h.arrOutputs.modArr))

theorem execMxaClipClear {n : Nat} (h : Keeps deep s t) : Runs deep s (Machine.execMxaClipClear n t) := .next (foldl h fun _ _ g => g.setCtr.setCtr)

theorem warmIn {p die : Nat} (h : Keeps deep s t) : Keeps deep s (t.warmIn p die) := h.putModels

theorem switchDone {a : Nat} (h : Keeps deep s t) : Keeps deep s (t.switchDone a) := by
  unfold State.switchDone
  split
  · exact ite h (arrGo (warmIn (ite h.modShare.modArr.loadPerms.setFld h.modShare.modArr.loadPerms.setFld.bump)))
  · exact h

theorem freeBinding {b : Binding} (h : Keeps deep s t) : Keeps deep s (t.freeBinding b) := foldl h fun _ _ g => g.release

theorem unholdModel {ti : Nat} (h : Keeps deep s t) : Keeps deep s (t.unholdModel ti) := ite h h.modMem

theorem freeOldModels (h : Keeps deep s t) : Keeps deep s t.freeOldModels := foldl h.putOldModels fun _ _ g => g.freeBinding.unholdModel

theorem setBinding {p slot : Nat} {b : Option Binding} (h : Keeps deep s t) : Keeps deep s (t.setBinding p slot b) := h.putOldModels.putModels.freeOldModels

theorem placeWindow {p : Nat} {c : HostCmd} {ti : Nat} {t' : Tensor} (h : Keeps deep s t) : OnSome deep s (t.placeWindow p c ti t') Prod.snd := by
  have areas : ∀ (dies : List Nat) (bytes : Nat) (acc : Option (List Nat × State)), OnSome deep s acc Prod.snd →
      OnSome deep s (dies.foldl (fun (acc : Option (List Nat × State)) _ => match acc with
        | none => none
        | some (as, t) => (t.alloc p 0 bytes .model).map (fun x => (as ++ [x.1], x.2))) acc) Prod.snd := by
    intro dies bytes
    induction dies with
    | nil => exact fun _ g => g
    | cons d dies ih =>
      intro acc g
      refine ih _ ?_
      cases acc with
      | none => exact .none
      | some acc => exact .map (alloc (g _ rfl)) fun _ g => g
  unfold State.placeWindow
  exact .ite (.ite (.some (snd h)) .none) (.ite (.some (snd h)) (.map (areas _ _ _ (.some (snd h))) fun _ g => g))

theorem measureModel {v : State} {p : Nat} {c : HostCmd} {outcome : Nat} (h : Keeps deep s t) : Keeps deep s (t.measureModel v p c outcome) := by
  refine ite h ?_
  split
  · exact h
  · exact h.measure

theorem execModelBind {p q cid : Nat} (h : Keeps deep s t) : Runs deep s (Machine.execModelBind p q cid t) := by
  unfold Machine.execModelBind
  split
  · exact .next h
  · refine .ite (.next h) ?_
    split
    · exact .next h.measureModel.refuse
    · split
      · exact .next h.fail
      · split
        · exact .next h.fail
        · exact .next (done (modMem (setBinding ((h.measureModel.placeWindow) _ ‹_›))))

theorem execModelUnbind {p q cid : Nat} (h : Keeps deep s t) : Runs deep s (Machine.execModelUnbind p q cid t) := by
  unfold Machine.execModelUnbind
  split
  · exact .next h
  · exact .ite (.next h) (by split; exacts [.next h.fail, by split; exacts [.next h.done, .next h.setBinding.done]])

theorem runModel {x : Tensor} {rows : Nat} {input : List Byte} (h : Keeps deep s t) : Keeps deep s (t.runModel x rows input).2 := by
  unfold State.runModel
  exact ite_snd h h.putFree

theorem chargeWeights {p : Nat} {t' : Tensor} (h : Keeps deep s t) : Keeps deep s (t.chargeWeights p t') := ite h.chargeBw h

theorem countRun {a p : Nat} {t' : Tensor} {o : ModelOut} (h : Keeps deep s t) : Keeps deep s (t.countRun a p t' o) := by
  refine ite ?_ ?_
  · exact bump (bump (addMeter (bump (ite h.chargeWeights.addClips h.chargeWeights))))
  · exact bump (bump (bump (addMeter (bump (ite h.chargeWeights.addClips h.chargeWeights)))))

theorem setWindow {p ti die : Nat} {w : Nat × Nat} (h : Keeps deep s t) : Keeps deep s (t.setWindow p ti die w) := h.putModels.putOldModels

theorem modelGate {a p rid ti : Nat} (h : Keeps deep s t) : Keeps deep s (t.modelGate a p rid ti).2 := by
  unfold State.modelGate
  refine ite_snd h ?_
  dsimp only
  split
  · exact ite_snd (snd h) (snd h.modArr)
  · exact snd h.setWindow.modArr

theorem mayRun {p place rid ti : Nat} (h : Keeps deep s t) : Keeps deep s (t.mayRun p place rid ti).2 := by
  unfold State.mayRun
  refine ite_snd (snd h) ?_
  split
  · exact snd h.queueArrWork
  · exact ite_snd h.modelGate (snd h.modelGate.queueArrWork)

theorem execLayerFetchDone {a p : Nat} (h : Keeps deep s t) : Runs deep s (Machine.execLayerFetchDone a p t) := by
  unfold Machine.execLayerFetchDone
  split
  · exact .next h
  · exact by split; exacts [.next h, .ite (.next h) (.next (modArr (ite h.setWindow h.setWindow.bump)))]

theorem execArrayRun {p q cid : Nat} {input : List Byte} (h : Keeps deep s t) : Runs deep s (Machine.execArrayRun p q cid input t) := by
  unfold Machine.execArrayRun
  split
  · exact .next h
  · dsimp only
    split
    · exact .next h.fail
    · split
      · exact .next h.fail
      · refine .ite (.next h.fail) (.ite (.next h.queueArrWork) (.ite (.next h.mayRun) ?_))
        split
        · exact .next h.mayRun.readInput.bump.dropArrWork.fail
        · exact .next h.mayRun.readInput.runModel.countRun.dropArrWork.complete.freeOldModels

/-! ### Sys2Proof/Machine/Corpus.lean -/

theorem modSeg {p i : Nat} {f : Segment → Segment} (h : Keeps deep s t) : Keeps deep s (t.modSeg p i f) := h.modCorpus

theorem setTomb {p : Nat} {g' : Segment} {id : Nat} (h : Keeps deep s t) : Keeps deep s (t.setTomb p g' id) := h.access.writeMem

theorem addYoung {p seg lid e : Nat} (h : Keeps deep s t) : Keeps deep s (t.addYoung p seg lid e) := by
  unfold State.addYoung
  exact modCorpus (by split; exacts [h.access.writeMem, h])

theorem freeYoung {p : Nat} {f : Nat × Nat × Nat → Bool} (h : Keeps deep s t) : Keeps deep s (t.freeYoung p f) := by
  unfold State.freeYoung
  exact modCorpus (by split; exacts [foldl h fun _ _ g => g.hide, h])

theorem writeDesc {p i : Nat} (h : Keeps deep s t) : Keeps deep s (t.writeDesc p i) := h.modCorpus

theorem putSegment {p i : Nat} {g' : Segment} (h : Keeps deep s t) : Keeps deep s (t.putSegment p i g') := h.modCorpus.writeDesc

theorem publishSet {p : Nat} {th : List Nat} {fromLoop : Bool} {samples : Nat} (h : Keeps deep s t) :
    OnSome deep s (t.publishSet p th fromLoop samples) (fun x => x.2.2) := by
  unfold State.publishSet
  split
  · exact .none
  · dsimp only
    split
    · exact .none
    · split
      · exact .none
      · rename_i a u alloc
        have placed : Keeps deep s u := h.modCorpus.sweepSets.alloc _ alloc
        refine .some ?_
        dsimp only
        exact placed.access.writeMem.modCorpus

theorem countNans {p : Nat} {ys : List Nat} (h : Keeps deep s t) : Keeps deep s (t.countNans p ys) := ite h h.bump

theorem execThresholdPublish {p q cid : Nat} {data : List Byte} (h : Keeps deep s t) : Runs deep s (Machine.execThresholdPublish p q cid data t) := by
  unfold Machine.execThresholdPublish
  split
  · exact .next h
  · refine .ite (.next h) ?_
    split
    · exact .next h.fail
    · split
      · exact .next h.fail
      · refine .ite (.next (fail (ite_snd h.readInput h))) ?_
        split
        · exact .next (refuse (ite_snd h.readInput h))
        · exact .next (done ((publishSet (ite_snd h.readInput h)) _ ‹_›))

theorem project {p : Nat} {on : Option Nat} {x : Tensor} {rows : Nat} {input : List Byte} (h : Keeps deep s t) :
    Keeps deep s (t.project p on x rows input).2 := by
  unfold State.project
  dsimp only
  split
  · exact h.runModel.countRun
  · exact h.runModel

theorem writePart {p a : Nat} {bs : List Byte} (h : Keeps deep s t) : Keeps deep s (t.writePart p a bs) := h.access.writeMem

theorem writeSketch {p : Nat} {g' : Segment} {lid : Nat} {sk : List Byte} (h : Keeps deep s t) : Keeps deep s (t.writeSketch p g' lid sk) := by
  unfold State.writeSketch
  split
  · exact h.writePart
  · exact h

theorem writeItem {p : Nat} {g' : Segment} {lid : Nat} {vec : List Byte} {attr id : Nat} (h : Keeps deep s t) :
    Keeps deep s (t.writeItem p g' lid vec attr id) := by
  exact ite h.writePart.writePart.writePart h.writePart.writePart.writePart.writePart

theorem writeRow {p : Nat} {g' : Segment} {lid : Nat} {sk vec : List Byte} {attr id : Nat} (h : Keeps deep s t) :
    Keeps deep s (t.writeRow p g' lid sk vec attr id) := by
  exact h.writeSketch.writeItem

theorem allocChan {p c bytes : Nat} {kind : AllocKind} (h : Keeps deep s t) : OnSome deep s (t.allocChan p c bytes kind) Prod.snd := by
  unfold State.allocChan
  split
  · exact h.allocAt
  · exact .none

theorem allocOpt {p k bytes : Nat} {kind : AllocKind} (h : Keeps deep s t) : OnSome deep s (t.allocOpt p k bytes kind) (fun x => x.2.2) := by
  unfold State.allocOpt
  exact .ite (.some h) (.map h.alloc fun _ g => g)

theorem allocBlocks {p w blockRows n : Nat} {kind : AllocKind} (h : Keeps deep s t) : OnSome deep s (t.allocBlocks p w blockRows n kind) (fun x => x.2.2) := by
  have areas : ∀ (count m : Nat) (chans : List (Nat × Nat)) (acc : Option (List Nat × KV Nat × State)), OnSome deep s acc (fun x => x.2.2) →
      OnSome deep s (chans.foldl (fun (acc : Option (List Nat × KV Nat × State)) ci => match acc with
        | none => none
        | some (areas, bases, t) =>
          let mine := (count + m - 1 - ci.2) / m
          if mine = 0 then some (areas, bases, t)
          else (t.allocChan p ci.1 (mine * blockRows * 2048) kind).map (fun x => (areas ++ [x.1], kvPut ci.2 x.1 bases, x.2))) acc)
              (fun x => x.2.2) := by
    intro count m chans
    induction chans with
    | nil => exact fun _ g => g
    | cons d chans ih =>
      intro acc g
      refine ih _ ?_
      cases acc with
      | none => exact .none
      | some acc => exact .ite (.some (g _ rfl)) (.map (allocChan (g _ rfl)) fun _ g => g)
  have start : OnSome deep s (some (([] : List Nat), ([] : KV Nat), t)) (fun x => x.2.2) := .some h
  unfold State.allocBlocks
  exact .ite .none (.map (areas _ _ _ _ start) fun _ g => g)

theorem allocSegment {p : Nat} {g' : Segment} {cap ta tv tm : Nat} {kind : AllocKind} (h : Keeps deep s t) :
    OnSome deep s (t.allocSegment p g' cap ta tv tm kind) Prod.snd := by
  unfold State.allocSegment
  split
  · exact .none
  · have blocks := h.allocBlocks _ ‹_›
    split
    · exact .none
    · have adj := blocks.allocOpt _ ‹_›
      split
      · exact .none
      · have vec := adj.allocOpt _ ‹_›
        split
        · exact .none
        · have attr := vec.allocOpt _ ‹_›
          split
          · exact .none
          · have ids := attr.allocOpt _ ‹_›
            split
            · exact .none
            · have tomb := ids.allocOpt _ ‹_›
              split
              · exact .none
              · have norm := tomb.allocOpt _ ‹_›
                split
                · exact .none
                · exact .some (norm.allocOpt _ ‹_›)

theorem dropSegment {p i : Nat} (h : Keeps deep s t) : Keeps deep s (t.dropSegment p i) := by
  unfold State.dropSegment
  split
  · exact h
  · exact sweepSets (modCorpus (freeYoung (modMem (foldl h fun _ _ g => g.release))))

theorem corpusReset {p : Nat} (h : Keeps deep s t) : Keeps deep s (t.corpusReset p) := sweepSets (modCorpus (putBuilds (foldl h fun _ _ g => g.endBuild)))

theorem corpusScrub {p : Nat} (h : Keeps deep s t) : Keeps deep s (t.corpusScrub p) := sweepSets (modCorpus (freeYoung (foldl h fun _ _ g => g.dropSegment)))

theorem startLoop {p : Nat} (h : Keeps deep s t) : Keeps deep s (t.startLoop p) := ite h (by split; exacts [h, h.modCorpus])

theorem feedLoop {p : Nat} {ys : List Nat} (h : Keeps deep s t) : Keeps deep s (t.feedLoop p ys) := by
  unfold State.feedLoop
  exact h.modCorpus

/-! ### Sys2Proof/Machine/Search.lean -/

theorem modQuery {rid : Nat} {f : Query → Query} (h : Keeps deep s t) : Keeps deep s (t.modQuery rid f) := h.putQueries

theorem finishQuery {rid : Nat} {q : Query} {r : SelResult} {status ok missing : Nat} {widened : Bool} (h : Keeps deep s t) :
    Keeps deep s (t.finishQuery rid q r status ok missing widened) := by
  exact complete (ite h.bump.bump h.bump)

theorem takeInputs {rid : Nat} {q : Query} (h : Keeps deep s t) : Keeps deep s (t.takeInputs rid q) := by
  unfold State.takeInputs
  split
  · exact h
  · exact modQuery (foldl h fun _ _ g => g.selMerge)

theorem endFailed {rid : Nat} {q : Query} (h : Keeps deep s t) : Keeps deep s (t.endFailed rid q) := h.complete

theorem settleShards {rid : Nat} (h : Keeps deep s t) : Keeps deep s (t.settleShards rid) := by
  unfold State.settleShards
  split
  · exact h
  · refine ite h.takeInputs.endFailed (ite h.takeInputs (ite h.takeInputs.endFailed ?_))
    split
    · exact h.takeInputs
    · split
      · exact finishQuery (of_fst h.takeInputs.selClose ‹_›)
      · exact of_fst h.takeInputs.selClose ‹_›

theorem markShards {rid : Nat} {f : Shard → Bool} {state status : Nat} (h : Keeps deep s t) : Keeps deep s (t.markShards rid f state status) := h.modQuery

theorem failShards {rid : Nat} {q : Query} {f : Shard → Bool} {status : Nat} (h : Keeps deep s t) : Keeps deep s (t.failShards rid q f status) := by
  exact ite h h.markShards.bump.settleShards

theorem failQuery {rid status : Nat} (h : Keeps deep s t) : Keeps deep s (t.failQuery rid status) := by
  unfold State.failQuery
  split
  · exact ite h.modQuery.failShards h.complete
  · exact h

theorem startBeams {rid width : Nat} (h : Keeps deep s t) : Keeps deep s (t.startBeams rid width).1 := by
  unfold State.startBeams
  split
  · exact h
  · exact ite h.modQuery h.modQuery.bump

theorem nextTag {p : Nat} (h : Keeps deep s t) : Keeps deep s (t.nextTag p).2 := by
  unfold State.nextTag
  dsimp only
  exact h.modPart

theorem queueOwn {p c : Nat} {desc : List Byte} {o : OwnJob} (h : Keeps deep s t) : Keeps deep s (t.queueOwn p c desc o) := h.bankQueue

theorem queueGather {p w : Nat} {d : GatherDesc} (h : Keeps deep s t) : Keeps deep s (t.queueGather p w d) := h.nextTag.queueOwn.queueOwn

theorem issueGather {p : Nat} {xs : List GatherItem} (h : Keeps deep s t) : Keeps deep s (t.issueGather p xs) := foldl h fun _ _ g => g.queueGather

theorem chargeEligible {q : Query} {g' : Segment} {lid : Nat} (h : Keeps deep s t) : Keeps deep s (t.chargeEligible q g' lid) := by
  unfold State.chargeEligible
  dsimp only
  split
  · exact access (ite h.access.access h.access)
  · exact ite h.access.access h.access

theorem offerPool {rid i lid dist : Nat} (h : Keeps deep s t) : Keeps deep s (t.offerPool rid i lid dist) := by
  unfold State.offerPool
  split
  · exact by split; exacts [h, ite (ite h.chargeEligible.selOffer h.chargeEligible) h]
  · exact h

theorem addShard {rid : Nat} {h' : Shard} (h : Keeps deep s t) : Keeps deep s (t.addShard rid h') := h.modQuery

theorem sendShard {rid : Nat} {q : Query} {e : Nat × Nat × Nat × Nat} (h : Keeps deep s t) : Keeps deep s (t.sendShard rid q e) := by
  exact ite (ite h.addShard h.addShard) (ite h.addShard h.sendRequest.addShard)

theorem scatterQuery {rid : Nat} {q : Query} (h : Keeps deep s t) : Keeps deep s (t.scatterQuery rid q) := by
  unfold State.scatterQuery
  dsimp only
  split
  · exact h
  · split
    · refine foldl ?_ fun _ _ g => g.sendShard
      split
      · exact h.selOpen.access
      · exact h.selOpen
    · refine settleShards ?_
      refine ite ?_ ?_
      · refine ite ?_ ?_
        · refine foldl ?_ fun _ _ g => g.sendShard
          split
          · exact h.selOpen.access
          · exact h.selOpen
        · refine bump ?_
          refine foldl ?_ fun _ _ g => g.sendShard
          split
          · exact h.selOpen.access
          · exact h.selOpen
      · refine modQuery ?_
        refine ite ?_ ?_
        · refine foldl ?_ fun _ _ g => g.sendShard
          split
          · exact h.selOpen.access
          · exact h.selOpen
        · refine bump ?_
          refine foldl ?_ fun _ _ g => g.sendShard
          split
          · exact h.selOpen.access
          · exact h.selOpen

theorem offerDelta {rid : Nat} (h : Keeps deep s t) : Keeps deep s (t.offerDelta rid) := by
  unfold State.offerDelta
  split
  · exact h
  · exact modQuery (foldl h fun _ _ g => foldl g fun _ _ g => foldl g fun _ _ g => g.offerPool)

theorem offerScan {rid : Nat} {q : Query} (h : Keeps deep s t) : Keeps deep s (t.offerScan rid q) := ite h.offerDelta h

theorem queueScan {p step ring tag : Nat} {g' : Segment} {qs : List Query} {c : Nat} (h : Keeps deep s t) :
    Keeps deep s (t.queueScan p step ring tag g' qs c) := by
  exact ite h (queueOwn (foldl h fun _ _ g => g.queueOwn))

theorem startScan {p step : Nat} {qs : List Query} (h : Keeps deep s t) : Keeps deep s (t.startScan p step qs) := by
  exact ite h (foldl h.modPart fun _ _ g => foldl g.nextTag fun _ _ g => g.queueScan)

theorem yieldCluster {n : Nat} (h : Keeps deep s t) : Keeps deep s (t.yieldCluster n) := by
  unfold State.yieldCluster
  split
  · exact h.modPart.bump
  · exact h

theorem execPrivilegedYield {a : Nat} (h : Keeps deep s t) : Runs deep s (Machine.execPrivilegedYield a t) := .next (ite h.yieldArray (ite h.yieldCluster h))

theorem phaseRan {p : Nat} (h : Keeps deep s t) : Keeps deep s (t.phaseRan p) := h.coreRan

theorem openPool {rid : Nat} {q : Query} (h : Keeps deep s t) : Keeps deep s (t.openPool rid q) := h.selOpen

theorem leave {rid k : Nat} (h : Keeps deep s t) : Keeps deep s (t.leave rid k) := h.modQuery

theorem failAll {xs : List (Nat × Query)} {status : Nat} (h : Keeps deep s t) : Keeps deep s (t.failAll xs status) := by
  exact foldl h fun _ _ g => g.dropArrWork.failQuery

theorem stageMayRun {p place ti : Nat} {xs : List (Nat × Query)} (h : Keeps deep s t) : Keeps deep s (t.stageMayRun p place ti xs).2 := h.mayRun

theorem refuseStage {p : Nat} {xs : List (Nat × Query)} {status : Nat} (h : Keeps deep s t) : Keeps deep s (t.refuseStage p xs status) := by
  refine failAll ?_
  split
  · exact h.bump
  · exact h

theorem takeVector {rid : Nat} {h' : ModelHead} {row : List Byte} (h : Keeps deep s t) : Keeps deep s (t.takeVector rid h' row) := by
  unfold State.takeVector
  split
  · exact h
  · exact ite h.failQuery h.modQuery

theorem encodeStep {p step : Nat} (h : Keeps deep s t) : Keeps deep s (t.encodeStep p step) := by
  unfold State.encodeStep
  dsimp only
  refine ite h (ite h.failAll ?_)
  split
  · exact h.failAll
  · refine ite h.stageMayRun ?_
    split
    · exact h.stageMayRun.refuseStage
    · refine foldl ?_ fun _ _ g => g.dropArrWork.takeVector
      split
      · exact h.stageMayRun.runModel.countRun
      · exact h.stageMayRun.runModel

theorem takeSketches {rid : Nat} {q : Query} {y : List Nat} (h : Keeps deep s t) : Keeps deep s (t.takeSketches rid q y) := h.countNans.modQuery.leave.openPool

theorem sketchStep {p step : Nat} (h : Keeps deep s t) : Keeps deep s (t.sketchStep p step) := by
  unfold State.sketchStep
  dsimp only
  refine ite h ?_
  split
  · refine ite h.stageMayRun ?_
    split
    · exact h.stageMayRun.refuseStage
    · exact foldl h.stageMayRun.project fun _ _ g => g.dropArrWork.takeSketches
  · exact h.failAll

theorem scanStep {p step : Nat} (h : Keeps deep s t) : Keeps deep s (t.scanStep p step) := ite h (startScan (foldl h fun _ _ g => g.modQuery.leave))

theorem traverseStep {p step : Nat} (h : Keeps deep s t) : Keeps deep s (t.traverseStep p step) := by
  unfold State.traverseStep
  exact issueGather (foldl_fst h fun _ _ g => g.leave.startBeams)

theorem mergeLocal {rid : Nat} {q : Query} {r : SelResult} (h : Keeps deep s t) : Keeps deep s (t.mergeLocal rid q r) := h.modQuery.markShards.settleShards

theorem endSelection {rid : Nat} {q : Query} {r : SelResult} (h : Keeps deep s t) : Keeps deep s (t.endSelection rid q r) := by
  exact ite h.bump.modQuery.openPool (ite h.mergeLocal h.finishQuery)

theorem selectFinal {rid : Nat} {q : Query} (h : Keeps deep s t) : Keeps deep s (t.selectFinal rid q) := by
  unfold State.selectFinal
  dsimp only
  split
  · exact h
  · split
    · exact ite h h.selOpen
    · split
      · exact endSelection (of_fst (selClose (modSel (selOffer (ite h h.selOpen)))) ‹_›)
      · exact of_fst (selClose (modSel (selOffer (ite h h.selOpen)))) ‹_›

theorem offerCtx {rid : Nat} (h : Keeps deep s t) : Keeps deep s (t.offerCtx rid) := by
  unfold State.offerCtx
  split
  · exact h
  · exact h.putCtxs

theorem advance {rid : Nat} (h : Keeps deep s t) : Keeps deep s (t.advance rid) := by
  unfold State.advance
  split
  · exact h
  · refine ite h (ite h.failQuery ?_)
    split
    · exact h.offerScan.settleShards
    · refine ite (ite h.offerScan h.offerScan.offerCtx) ?_
      refine ite ?_ ?_
      · refine ite h.offerScan ?_
        refine ite ?_ ?_
        · split
          · exact h.offerScan.leave.scatterQuery
          · exact h.offerScan.leave
        · exact h.offerScan.leave
      · refine ite (ite h.offerScan.leave.openPool h.offerScan) (ite (ite h.offerScan.openPool h.offerScan) ?_)
        exact selectFinal (ite h.offerScan.openPool h.offerScan)

theorem servePhase {x : CorePhase} (h : Keeps deep s t) : Keeps deep s (t.servePhase x) := by
  refine ite ?_ ?_
  · exact phaseRan (ite h.advance (ite h.encodeStep (ite h.sketchStep (ite h.scanStep h.traverseStep))))
  · exact ite h.advance (ite h.encodeStep (ite h.sketchStep (ite h.scanStep h.traverseStep)))

theorem serveRound {f : Nat} {xs : List CorePhase} (h : Keeps deep s t) : Keeps deep s (State.serveRound f xs t) := by
  induction f generalizing t xs with
  | zero => exact h
  | succ f ih =>
    unfold State.serveRound
    split
    · exact h
    · exact ih h.servePhase

theorem serveAll (h : Keeps deep s t) : Keeps deep s t.serveAll := ite h h.serveRound.modFlt

theorem resume (h : Keeps deep s t) : Keeps deep s t.resume := foldl (foldl h fun _ _ g => ite g g.selServeUnit) fun _ _ g => g.serveAll

theorem beginQuery {rid step : Nat} (h : Keeps deep s t) : Keeps deep s (t.beginQuery rid step) := by
  unfold State.beginQuery
  split
  · exact h
  · exact ite h.failQuery h.modQuery

theorem execQuery {p q cid : Nat} {input : List Byte} (h : Keeps deep s t) : Runs deep s (Machine.execQuery p q cid input t) := by
  unfold Machine.execQuery
  dsimp only
  split
  · exact .next h
  · split
    · exact .next h
    · refine .ite (.next h) ?_
      split
      · exact .next h.failQuery
      · refine .ite (.next h.failQuery) ?_
        split
        · exact .next h.failQuery
        · exact .ite (.next h.failQuery) (.next h.readInput.modQuery.modRec)

theorem execDeltaScanDone {p : Nat} (h : Keeps deep s t) : Runs deep s (Machine.execDeltaScanDone p t) := by
  unfold Machine.execDeltaScanDone
  split
  · exact .next h
  · exact .ite (.next h) (.next h.modPart.resume)

theorem modBeam {rid seg : Nat} {f : Beam → Beam} (h : Keeps deep s t) : Keeps deep s (t.modBeam rid seg f) := h.modQuery

theorem beamMoved {rid : Nat} (h : Keeps deep s t) : Keeps deep s (t.beamMoved rid) := by
  unfold State.beamMoved
  split
  · exact ite h.resume h
  · exact h

theorem execTraverseAdjacencyArrival {rid seg cand : Nat} (h : Keeps deep s t) : Runs deep s (Machine.execTraverseAdjacencyArrival rid seg cand t) := by
  unfold Machine.execTraverseAdjacencyArrival
  split
  · exact .next h
  · split
    · refine .ite (.next h) ?_
      refine .ite ?_ ?_
      · exact .next (beamMoved (modBeam (modQuery (ite h.phaseRan.access h.phaseRan.access.bump))))
      · exact .next (issueGather (modBeam (bump (modQuery (ite h.phaseRan.access h.phaseRan.access.bump)))))
    · exact .next h

theorem execTraverseDistancesArrival {rid seg cand : Nat} (h : Keeps deep s t) : Runs deep s (Machine.execTraverseDistancesArrival rid seg cand t) := by
  unfold Machine.execTraverseDistancesArrival
  split
  · exact .next h
  · exact by split; exacts [.ite (.next h) (.next (beamMoved (modBeam (foldl h.phaseRan fun _ _ g => g.modBeam.offerPool)))), .next h]

theorem decideRerank {p : Nat} (h : Keeps deep s t) : Keeps deep s (t.decideRerank p) := ite h (ite h.modPart h.modPart.bump)

theorem streamStep {p a : Nat} (h : Keeps deep s t) : Keeps deep s (t.streamStep p a) := by
  exact ite (foldl h fun _ _ g => g.modQuery) (bump (bump (addMeter (bump (foldl h fun _ _ g => g.modQuery)))))

theorem rerankReads {p : Nat} {e : SelEntry} (h : Keeps deep s t) : Keeps deep s (t.rerankReads p e) := by
  unfold State.rerankReads
  dsimp only
  split
  · exact h
  · split
    · exact ite h.access.access.access.readUnits h.access.access.access
    · refine ite (bump (ite h.access.access.access.readUnits h.access.access.access)) ?_
      exact uncorrectableAt (bump (ite h.access.access.access.readUnits h.access.access.access))

theorem lateResult {rid : Nat} (h : Keeps deep s t) : Keeps deep s (t.lateResult rid) := by
  unfold State.lateResult
  split
  · exact h
  · exact h.lateEnds

theorem rerank {rid : Nat} {q : Query} {arr : Bool} (h : Keeps deep s t) : Keeps deep s (t.rerank rid q arr) := by
  unfold State.rerank
  refine resume (modQuery ?_)
  refine ite (selClose (foldl h.dropArrWork fun _ _ g => g.rerankReads)) ?_
  exact phaseRan (selClose (foldl h.dropArrWork fun _ _ g => g.rerankReads))

theorem execExactRerank {rid : Nat} (h : Keeps deep s t) : Runs deep s (Machine.execExactRerank rid t) := by
  unfold Machine.execExactRerank
  split
  · exact .next h.lateResult
  · refine .ite (.next h) (.ite (.next h.offerCtx) (.ite (.next h.failQuery.resume) (.ite (.next h.rerank) (.ite (.next h) ?_))))
    refine .ite (.next h.decideRerank.rerank) ?_
    split
    · exact .next h.decideRerank.queueArrWork
    · refine .ite (.next h.decideRerank.rerank) (.ite (.next h.decideRerank.refuseStage.resume) ?_)
      exact .next (rerank (ite h.decideRerank h.decideRerank.streamStep))

theorem shardFailed {rid seq status : Nat} (h : Keeps deep s t) : Keeps deep s (t.shardFailed rid seq status) := by
  unfold State.shardFailed
  split
  · exact h
  · exact h.failShards

theorem execShardFailure {seq status : Nat} (h : Keeps deep s t) : Runs deep s (Machine.execShardFailure seq status t) := by
  unfold Machine.execShardFailure
  split
  · exact .next h
  · exact .ite (.next h.endRequest.shardFailed.resume) (.next h)

theorem execShardResponseArrival {pkt : Packet} (h : Keeps deep s t) : Runs deep s (Machine.execShardResponseArrival pkt t) := by
  unfold Machine.execShardResponseArrival
  dsimp only
  refine .ite (.next h.taken.discardLate) ?_
  split
  · exact .next h.taken.bump
  · refine .ite (.next h.taken) ?_
    split
    · exact .next h.taken.endRequest.bump
    · refine .ite (.next h.taken.endRequest.bump) (.ite (.next h.taken.endRequest.shardFailed.resume) ?_)
      exact .next h.taken.endRequest.modQuery.markShards.settleShards.resume

theorem admitFabric {k : Packet} {cmd : HostCmd} (h : Keeps deep s t) : Keeps deep s (t.admitFabric k cmd) := by
  unfold State.admitFabric
  refine ite h.refuseFabric (ite (ite h.refuseFabric.bump h.modPart) ?_)
  split
  · exact (h.admitRec _ ‹_›).putFetchNo
  · exact ite h.refuseFabric.bump h.modPart

theorem execShardSubrequestArrival {pkt : Packet} (h : Keeps deep s t) : Runs deep s (Machine.execShardSubrequestArrival pkt t) := by
  unfold Machine.execShardSubrequestArrival
  dsimp only
  split
  · exact .ite (.next h.taken.admitFabric.modRec.failQuery) (.next h.taken.admitFabric.modRec)
  · exact .next h.taken.admitFabric

/-! ### Sys2Proof/Machine/CollOps.lean -/

theorem sendColl {dst kind id op count lost mask : Nat} {data : List Byte} (h : Keeps deep s t) :
    Keeps deep s (t.sendColl dst kind id op count lost mask data) := by
  exact h.modFab.handPacket

theorem sendKids {kind id op count lost mask : Nat} {data : List Byte} (h : Keeps deep s t) : Keeps deep s (t.sendKids kind id op count lost mask data) := by
  exact foldl h fun _ _ g => g.sendColl

theorem modColl {id : Nat} {f : Coll → Coll} (h : Keeps false s t) : Keeps false s (t.modColl id f) := (h.modFab (fun e => nomatch e))

theorem dropColl {id : Nat} (h : Keeps false s t) : Keeps false s (t.dropColl id) := (h.modFab (fun e => nomatch e))

theorem completeColl {c : Coll} {status count r0 r1 : Nat} {res : List Byte} (h : Keeps deep s t) : Keeps deep s (t.completeColl c status count r0 r1 res) := by
  unfold State.completeColl
  split
  · exact h
  · exact by split; exacts [h, h.complete]

theorem endColl {id count lost : Nat} (h : Keeps false s t) : Keeps false s (t.endColl id count lost) := by
  unfold State.endColl
  split
  · exact h
  · exact h.dropColl.sendKids.completeColl

theorem failColl {id status from_ : Nat} (h : Keeps false s t) : Keeps false s (t.failColl id status from_) := by
  unfold State.failColl
  split
  · exact h
  · exact completeColl (foldl h.dropColl.bump fun _ _ g => g.sendColl)

theorem stepColl {id : Nat} (h : Keeps false s t) : Keeps false s (t.stepColl id) := by
  unfold State.stepColl
  split
  · exact h
  · exact ite h (ite h.endColl h.modColl.sendColl)

theorem doneColl {id : Nat} (h : Keeps false s t) : Keeps false s (t.doneColl id) := h.modColl.stepColl

theorem openColl {id op mask : Nat} {rid : Option Nat} {issuer : Bool} (h : Keeps false s t) : Keeps false s (t.openColl id op mask rid issuer) := by
  unfold State.openColl
  exact (h.modFab (fun e => nomatch e))

/-! ### Sys2Proof/Machine/Updates.lean -/

theorem joinUpdates {p : Nat} {u : Upd} (h : Keeps deep s t) : Keeps deep s (t.joinUpdates p u) := h.modCorpus.modRec

theorem sealDelta {p : Nat} (h : Keeps deep s t) : Keeps deep s (t.sealDelta p) := by
  unfold State.sealDelta
  split
  · exact h
  · exact h.modSeg.modCorpus.bump

theorem startDelta {p elem dims : Nat} (h : Keeps deep s t) : OnSome deep s (t.startDelta p elem dims) id := by
  unfold State.startDelta
  dsimp only
  split
  · exact .map h.allocSegment fun _ g => g.putSegment.modCorpus
  · exact .none

theorem deltaFor {p elem dims n : Nat} (h : Keeps deep s t) : OnSome deep s (t.deltaFor p elem dims n) Prod.snd := by
  unfold State.deltaFor
  refine .ite .none ?_
  split
  · exact .some h
  · refine .ite .none fun a e => ?_
    obtain ⟨u, hu, hc⟩ := Option.bind_eq_some_iff.mp e
    obtain ⟨i, -, rfl⟩ := Option.map_eq_some_iff.mp hc
    exact h.sealDelta.startDelta _ hu

theorem execInsert {p q cid : Nat} {vecs ids attrs : List Byte} (h : Keeps deep s t) : Runs deep s (Machine.execInsert p q cid vecs ids attrs t) := by
  have read : ∀ {v : State} {c : Prop} [Decidable c] {b : List Byte} {f : Nat × Bool} {a n : Nat} {bs : List Byte}, Keeps deep s v →
      Keeps deep s (if c then (b, v) else v.readInput p f a n bs).2 := fun g => ite_snd (snd g) g.readInput
  unfold Machine.execInsert
  split
  · exact .next h
  · refine .ite (.next h) (.ite (.next h) ?_)
    dsimp only
    split
    · exact .next h.fail
    · split
      · exact .next (read h.readInput.readInput).refuse
      · have fits := (read h.readInput.readInput).deltaFor _ ‹_›
        exact .ite (.next (read h.readInput.readInput).refuse) (.ite (.next (read h.readInput.readInput).bump.fail)
          (.next fits.modCorpus.modCorpus.modSeg.startLoop.joinUpdates))

theorem execDelete {p q cid : Nat} {ids : List Byte} (h : Keeps deep s t) : Runs deep s (Machine.execDelete p q cid ids t) := by
  unfold Machine.execDelete
  dsimp only
  split
  · exact .next h
  · exact .ite (.next h) (by split; exacts [.next h.fail, .ite (.next h.readInput.bump.fail) (.next h.readInput.joinUpdates)])

theorem modUpd {p rid : Nat} {f : Upd → Upd} (h : Keeps deep s t) : Keeps deep s (t.modUpd p rid f) := h.modCorpus

theorem prepareInsert {p : Nat} {u : Upd} {t' : Tensor} {place : Nat} (h : Keeps deep s t) : Keeps deep s (t.prepareInsert p u t' place) := by
  unfold State.prepareInsert
  dsimp only
  split
  · exact h.modUpd
  · exact modUpd (foldl h.project fun _ _ g => by split; exacts [g, g.writeRow.countNans])

theorem prepareOther {p : Nat} {u : Upd} (h : Keeps deep s t) : Keeps deep s (t.prepareOther p u) := by
  unfold State.prepareOther
  exact h.modUpd.modCorpus

theorem execUpdatePrepare {p q cid : Nat} (h : Keeps deep s t) : Runs deep s (Machine.execUpdatePrepare p q cid t) := by
  unfold Machine.execUpdatePrepare
  split
  · exact .next h
  · split
    · exact .next h
    · refine .ite (.next h) (.ite (.next h.prepareOther.phaseRan) ?_)
      split
      · exact .next h.modUpd
      · exact .next (ite h.mayRun.prepareInsert.dropArrWork.phaseRan h.mayRun)

theorem deadRow {p seg lid : Nat} (h : Keeps deep s t) : Keeps deep s (t.deadRow p seg lid) := by
  unfold State.deadRow
  split
  · exact h.setTomb
  · exact h

theorem markDead {p id : Nat} (h : Keeps deep s t) : Keeps deep s (t.markDead p id) := foldl h fun _ _ g => g.modSeg.putBuilds

theorem commitItem {p c : Nat} {replace : Bool} {x : UpdItem} {ys : List Nat} {a : CommitAcc} (h : Keeps deep s t) :
    Keeps deep s (t.commitItem p c replace x ys a).1 := by
  unfold State.commitItem
  split
  · exact h
  · refine ite_fst h.deadRow ?_
    refine feedLoop (modCorpus ?_)
    split
    · exact h.addYoung
    · exact h.markDead

theorem countItems {p op : Nat} {sts : List Nat} {replaced : Nat} (h : Keeps deep s t) : Keeps deep s (t.countItems p op sts replaced) := by
  exact ite (ite (ite h h.bump) (bump (ite h h.bump))) (bump (ite (ite h h.bump) (bump (ite h h.bump))))

theorem commitRows {p seg rows c : Nat} (h : Keeps deep s t) : Keeps deep s (t.commitRows p seg rows c) := by
  unfold State.commitRows
  dsimp only
  refine ite h ?_
  split
  · refine ite ?_ ?_
    · refine sealDelta ?_
      split
      · exact h.modSeg.writeDesc.writePart
      · exact h.modSeg.writeDesc
    · split
      · exact h.modSeg.writeDesc.writePart
      · exact h.modSeg.writeDesc
  · split
    · exact h.modSeg.writeDesc.writePart
    · exact h.modSeg.writeDesc

theorem commitInsert {p c : Nat} {u : Upd} (h : Keeps deep s t) : Keeps deep s (t.commitInsert p c u) := by
  unfold State.commitInsert
  exact (foldl_fst h fun _ _ g => g.commitItem).commitRows.countItems.complete

theorem commitDelete {p c : Nat} {u : Upd} (h : Keeps deep s t) : Keeps deep s (t.commitDelete p c u) := by
  unfold State.commitDelete
  refine complete (countItems (foldl_fst (x := (_, _)) (fst h.fresh) fun x _ g => ?_))
  split
  · exact fst g.addYoung.modCorpus
  · exact fst g

theorem notePublish {p status : Nat} (h : Keeps deep s t) : Keeps deep s (t.notePublish p status) := ite h.bump h

theorem retireAt {p i e : Nat} (h : Keeps deep s t) : Keeps deep s (t.retireAt p i e) := h.modSeg.writeDesc.modCorpus

theorem publishOne {p e : Nat} {rets : List Nat} {i : Nat} (h : Keeps deep s t) : Keeps deep s (t.publishOne p e rets i).1 := by
  unfold State.publishOne
  split
  · exact fst h
  · refine foldl_fst (fst h.modSeg.writeDesc) fun x l g => ?_
    refine ite_fst g (ite_fst (fst g.setTomb) (fst (modCorpus ?_)))
    split
    · exact ite g.addYoung g
    · exact g

theorem commitPublish {p e : Nat} {u : Upd} (h : Keeps deep s t) : Keeps deep s (t.commitPublish p e u) := by
  have published : Keeps deep s (u.ids1.foldl (fun (acc : State × Nat) i =>
      ((acc.1.publishOne p e u.ids2 i).1, acc.2 + (acc.1.publishOne p e u.ids2 i).2)) (t, 0)).1 :=
    foldl_fst h fun _ _ g => g.publishOne
  have retired := foldl (l := u.ids2) (f := fun (t : State) i => t.retireAt p i e) published fun _ _ g => g.retireAt
  unfold State.commitPublish
  split
  · exact h.notePublish.complete
  · exact complete (ite retired retired.bump)

theorem commitRetire {p e : Nat} {u : Upd} (h : Keeps deep s t) : Keeps deep s (t.commitRetire p e u) := by
  unfold State.commitRetire
  split
  · exact h.complete
  · exact complete (foldl h fun _ _ g => g.retireAt)

theorem commitDead {p c : Nat} {u : Upd} (h : Keeps deep s t) : Keeps deep s (t.commitDead p c u) := commitRows (foldl h fun _ _ g => g.deadRow)

theorem commitOne {p c : Nat} {u : Upd} (h : Keeps deep s t) : Keeps deep s (t.commitOne p c u) := by
  refine ite h.modCorpus.commitDead (ite h.modCorpus.commitInsert (ite h.modCorpus.commitDelete ?_))
  exact ite h.modCorpus.commitPublish h.modCorpus.commitRetire

theorem commitUpdates {p : Nat} (h : Keeps deep s t) : Keeps deep s (t.commitUpdates p) := by
  refine ite ?_ ?_
  · split
    · exact ite h.bump h
    · exact h
  · refine noteFold ?_
    refine foldl ?_ fun _ _ g => g.commitOne
    refine modCorpus ?_
    split
    · exact ite h.bump h
    · exact h

theorem execSegmentPublish {p q cid : Nat} (h : Keeps deep s t) : Runs deep s (Machine.execSegmentPublish p q cid t) := by
  unfold Machine.execSegmentPublish
  dsimp only
  split
  · exact .next h
  · exact .ite (.next h) (by split; exacts [.next h.notePublish.fail, .next h.joinUpdates])

theorem execSegmentRetire {p q cid : Nat} (h : Keeps deep s t) : Runs deep s (Machine.execSegmentRetire p q cid t) := by
  unfold Machine.execSegmentRetire
  dsimp only
  split
  · exact .next h
  · refine .ite (.next h) ?_
    split
    · exact .next h.fail
    · exact .ite (.next (done (foldl h fun _ _ g => g.dropSegment))) (.next (joinUpdates (foldl h fun _ _ g => g.dropSegment)))

theorem execTombstoneFold {p : Nat} (h : Keeps deep s t) : Runs deep s (Machine.execTombstoneFold p t) := by
  exact .next (freeYoung (foldl h.noteFold fun _ _ g => g.deadRow))

theorem execSegmentFree {p seg : Nat} (h : Keeps deep s t) : Runs deep s (Machine.execSegmentFree p seg t) := by
  unfold Machine.execSegmentFree
  dsimp only
  split
  · exact .next h.noteFold
  · exact .ite (.next h.noteFold.dropSegment.bump) (.next h.noteFold)

theorem execSegmentBuild {p q cid : Nat} (h : Keeps deep s t) : Runs deep s (Machine.execSegmentBuild p q cid t) := by
  unfold Machine.execSegmentBuild
  split
  · exact .next h
  · exact .ite (.next h) (by split; exacts [.next h.fail, by split; exacts [.next h.fail, .next (modRec (putBuilds (ite h.sealDelta h)))]])

theorem copyItems {p : Nat} {g' : Segment} (h : Keeps deep s t) : Keeps deep s (t.copyItems p g') := by
  refine foldl h fun _ _ g => ?_
  split
  · exact g
  · exact g.access.access.access.access.writeItem

theorem execBuildStart {p q cid : Nat} (h : Keeps deep s t) : Runs deep s (Machine.execBuildStart p q cid t) := by
  unfold Machine.execBuildStart
  split
  · exact .next h
  · split
    · exact .next h
    · refine .ite (.next h) (.ite (.next h.fail) (.ite (.next h.fail) ?_))
      dsimp only
      split
      · split
        · exact .next h.refuse
        · rename_i v e
          have placed : Keeps deep s v := h.allocSegment _ e
          exact .ite (.next h.refuse) (.next placed.putBuilds.copyItems.queueArrWork)
      · exact .next h.fail

theorem writeBuilt {p : Nat} {g' : Segment} {ys : List (List Nat)} {sks : List (List Byte)} {links : KV (List Nat)} (h : Keeps deep s t) :
    Keeps deep s (t.writeBuilt p g' ys sks links) := by
  exact foldl h fun _ _ g => g.writeSketch.countNans.writePart

theorem execSegmentBuildDone {p q cid : Nat} {flights : List Nat} (h : Keeps deep s t) : Runs deep s (Machine.execSegmentBuildDone p q cid flights t) := by
  unfold Machine.execSegmentBuildDone
  split
  · exact .next h.lateEnd
  · split
    · exact .next h
    · split
      · refine .ite (.next h.fail) (.ite (.next h) (.ite (.next h.queueArrWork) ?_))
        dsimp only
        split
        · exact .next h.fail
        · exact .ite (.next h.mayRun) (.next h.mayRun.project.writeBuilt.phaseRan.putBuilds.putSegment.bump.complete)
      · exact .next h

theorem execSegmentImport {p q cid : Nat} (h : Keeps deep s t) : Runs deep s (Machine.execSegmentImport p q cid t) := by
  unfold Machine.execSegmentImport
  split
  · exact .next h
  · exact by split; exacts [.next h.fail, by split; exacts [.next h.access.putBuilds.modRec, .next h.fail]]

theorem resketch {p : Nat} {x : Segment} {y : Tensor} {on : Option Nat} (h : Keeps deep s t) : Keeps deep s (t.resketch p x y on).1 := by
  unfold State.resketch
  dsimp only
  split
  · exact fst h
  · refine fst (foldl h.access.project fun _ _ g => ?_)
    split
    · exact g.writePart.countNans
    · exact g

theorem chargeImport {p : Nat} {g' : Segment} (h : Keeps deep s t) : Keeps deep s (t.chargeImport p g') := h.access.access

theorem execSegmentImportDone {p q cid : Nat} (h : Keeps deep s t) : Runs deep s (Machine.execSegmentImportDone p q cid t) := by
  unfold Machine.execSegmentImportDone
  split
  · exact .next h.lateEnd
  · split
    · exact .next h
    · refine .ite (.next h) ?_
      dsimp only
      split
      · exact .next h.chargeImport.complete
      · split
        · exact .next h.complete
        · have may : ∀ {c : Prop} [Decidable c] {place rid ti : Nat}, Keeps deep s (if c then t.mayRun p place rid ti else (true, t)).2 :=
            ite_snd h.mayRun (snd h)
          refine .ite (.next may) (.ite (.next may.chargeImport.quotaRefused.complete) (.next (complete (modMem (putSegment (putBuilds ?_))))))
          exact ite_fst may.chargeImport.resketch (fst may.chargeImport)

/-! ### Sys2Proof/Machine/Tensors.lean -/

theorem execTensorAlloc {p q cid : Nat} (h : Keeps deep s t) : Runs deep s (Machine.execTensorAlloc p q cid t) := by
  have filled : ∀ {v : State} {c : Prop} [Decidable c] {a len : Nat}, Keeps deep s v →
      Keeps deep s (if c then v.modMem (fun m => m.clear a len) else v.hide a len) :=
    fun g => ite (g.modMem_wf fun _ w => wf_clear _ _ _ w) g.hide
  unfold Machine.execTensorAlloc
  split
  · exact .next h
  · refine .ite (.next h) ?_
    split
    · exact .next h.refuse
    · dsimp only
      split
      · have placed := h.allocNear _ ‹_›
        exact .ite (.next (holdResult (filled placed.modMem))) (.next (done (filled placed.modMem)))
      · exact .next h.fail

theorem execTensorFree {p q cid : Nat} (h : Keeps deep s t) : Runs deep s (Machine.execTensorFree p q cid t) := by
  unfold Machine.execTensorFree
  split
  · exact .next h
  · exact by split; exacts [.next h.fail, by split; exacts [.next h.fail, .next h.modMem.done]]

theorem execTensorWrite {p q cid : Nat} {data : List Byte} (h : Keeps deep s t) : Runs deep s (Machine.execTensorWrite p q cid data t) := by
  unfold Machine.execTensorWrite
  dsimp only
  split
  · exact .next h
  · split
    · exact .next h.fail
    · split
      · exact .next h.fail
      · refine .ite (.next h.fail) (.ite (.next (ite h h.readInput.accessP)) (.ite (.next h) ?_))
        refine .ite ?_ ?_
        · split
          · exact .next (done (of_fst h.readInput.flashStore ‹_›))
          · exact .next (complete (mediaFull (modFlash (of_fst h.readInput.flashStore ‹_›))))
        · exact .next h.readInput.ordWrite.done

theorem execTensorRead {p q cid : Nat} (h : Keeps deep s t) : Runs deep s (Machine.execTensorRead p q cid t) := by
  unfold Machine.execTensorRead
  dsimp only
  split
  · exact .next h
  · split
    · exact .next h.fail
    · split
      · exact .next h.fail
      · split
        · exact .next h.accessP
        · exact .ite (.next h.flashLoad.complete) (.next h.flashLoad.complete)
        · split
          · exact .next h.uncorrectableAt.fail
          · exact .next (complete (foldl h fun _ _ g => g.ordRead))
        · exact .next h.fail

theorem execTierPAccessArrival {src seq wid off len : Nat} {write : Bool} {data : List Byte} (h : Keeps deep s t) :
    Runs deep s (Machine.execTierPAccessArrival src seq wid off len write data t) := by
  unfold Machine.execTierPAccessArrival
  dsimp only
  split
  · exact .next h.takenOf.answer
  · exact .ite (.next h.takenOf.answer) (.ite (.next h.takenOf.access.writeMem.answer) (.next h.takenOf.access.answer))

theorem execTierPResponseArrival {src seq status : Nat} {data : List Byte} (h : Keeps deep s t) :
    Runs deep s (Machine.execTierPResponseArrival src seq status data t) := by
  unfold Machine.execTierPResponseArrival
  dsimp only
  split
  · exact .next h.takenOf
  · refine .ite (.next h.takenOf) ?_
    split
    · refine .next ?_
      split
      · exact ite h.takenOf.modMem.endRequest.writeMem h.takenOf.modMem.endRequest
      · exact h.takenOf.modMem.endRequest
    · refine .ite ?_ ?_
      · refine .next (failP ?_)
        split
        · exact ite h.takenOf.modMem.endRequest.writeMem h.takenOf.modMem.endRequest
        · exact h.takenOf.modMem.endRequest
      · split
        · refine .ite ?_ ?_
          · refine .next (complete ?_)
            split
            · exact ite h.takenOf.modMem.endRequest.writeMem h.takenOf.modMem.endRequest
            · exact h.takenOf.modMem.endRequest
          · refine .ite ?_ ?_
            · refine .next (done ?_)
              split
              · exact ite h.takenOf.modMem.endRequest.writeMem h.takenOf.modMem.endRequest
              · exact h.takenOf.modMem.endRequest
            · refine .next ?_
              split
              · exact ite h.takenOf.modMem.endRequest.writeMem h.takenOf.modMem.endRequest
              · exact h.takenOf.modMem.endRequest
        · refine .next (fetchInput (modRec ?_))
          split
          · exact ite h.takenOf.modMem.endRequest.writeMem h.takenOf.modMem.endRequest
          · exact h.takenOf.modMem.endRequest
        · split
          · refine .next (endLate ?_)
            split
            · exact ite h.takenOf.modMem.endRequest.writeMem h.takenOf.modMem.endRequest
            · exact h.takenOf.modMem.endRequest
          · refine .next ?_
            split
            · exact ite h.takenOf.modMem.endRequest.writeMem h.takenOf.modMem.endRequest
            · exact h.takenOf.modMem.endRequest
        · refine .next (modMem ?_)
          split
          · exact ite h.takenOf.modMem.endRequest.writeMem h.takenOf.modMem.endRequest
          · exact h.takenOf.modMem.endRequest

theorem execTensorMigrate {p q cid : Nat} (h : Keeps deep s t) : Runs deep s (Machine.execTensorMigrate p q cid t) := by
  unfold Machine.execTensorMigrate
  split
  · exact .next h
  · refine .ite (.next h) ?_
    split
    · exact .next h.refuse
    · split
      · exact .next h.fail
      · split
        · exact .next h.fail
        · exact .next (modRec (modMem ((h.allocNear) _ ‹_›)))

theorem copyP {p rid : Nat} {m : Migration} {x : Tensor} (h : Keeps deep s t) : OnSome deep s (t.copyP p rid m x) id := by
  have send : ∀ (n a : Nat) (write : Bool), Keeps deep s (match t.windowFor a with
      | .error st => t.failP p rid st
      | .ok none => t
      | .ok (some w) => (t.sendP p rid .copy w a x.bytes write (if write then t.readMem x.addr x.bytes else [])).modMem
          (fun y => { y with migs := kvUpd rid (fun (z : Migration) => { z with tierP := n }) y.migs })) := by
    intro n a write
    split
    · exact h.failP
    · exact h
    · exact h.sendP.modMem
  unfold State.copyP
  exact .ite (.some (ite h (send 1 _ _))) (.ite (.some (ite h (send 3 _ _))) .none)

theorem switchTensor {rid : Nat} {m : Migration} {x : Tensor} (h : Keeps deep s t) : Keeps deep s (t.switchTensor rid m x) := by
  have copied : ∀ {v : State} (b : Prop) [Decidable b], Keeps deep s v → Keeps deep s ((((if b then (v.flashLoad x.part x.addr x.bytes).2.2.2 else v).modMem
      (fun y => y.copyRange x.addr m.dest x.bytes (if b then (v.flashLoad x.part x.addr x.bytes).2.2.2 else v).free)).putFree
      ((if b then (v.flashLoad x.part x.addr x.bytes).2.2.2 else v).free + 1))) :=
    fun _ _ g => (modMem_wf (ite g.flashLoad g) fun _ w => wf_copyRange _ _ _ _ _ w).putFree
  have sealed : ∀ {v : State} {c : Prop} [Decidable c] {a b d e : Nat}, Keeps deep s v → Keeps deep s (if c then (v.writeUnits a b d e).2.2.sealWrite else v) :=
    fun g => ite g.writeUnits.sealWrite g
  unfold State.switchTensor
  refine done (bump (foldl (modMem ?_) fun _ _ g => g.modSeg.writeDesc))
  exact ite (sealed (copied _ h.migrateCopy)).modFlash (sealed (copied _ h.migrateCopy))

theorem execMigrateSwitch {p q cid : Nat} (h : Keeps deep s t) : Runs deep s (Machine.execMigrateSwitch p q cid t) := by
  unfold Machine.execMigrateSwitch
  split
  · exact .next h.lateEnd
  · split
    · exact .next h
    · split
      · exact .next h
      · refine .ite (.next h) (.ite (.next h.flashLoad.fail) (.ite (.next h.uncorrectableAt.fail) (.ite (.next h.modFlash.mediaFull.fail)
          (.ite (.next (ite h h.modMem.modRec)) ?_))))
        split
        · rename_i e
          exact .next (copyP (ite h h.modMem.modRec) _ e)
        · exact .next (switchTensor (ite h h.modMem.modRec))

theorem modWindow {comp i : Nat} {f : PWindow → PWindow} (h : Keeps deep s t) : Keeps deep s (t.modWindow comp i f) := h.modMem

theorem takeOrder {src seq : Nat} {f : State → State} (h : Keeps deep s t) (step : ∀ u, Keeps deep s u → Keeps deep s (f u)) : Keeps deep s (t.takeOrder src seq f) := by
  unfold State.takeOrder
  exact ite (step _ h.modFab.orderSeen) h.modFab

theorem execWindowOpenArrival {src seq wid len : Nat} (h : Keeps deep s t) : Runs deep s (Machine.execWindowOpenArrival src seq wid len t) := by
  refine .next ?_
  exact takeOrder h fun  _ g => by split; exacts [ite g.modWindow.sendOrder g.sendOrder, g.sendOrder]

theorem execWindowAcceptArrival {src seq wid : Nat} (h : Keeps deep s t) : Runs deep s (Machine.execWindowAcceptArrival src seq wid t) := by
  refine .next ?_
  exact takeOrder h fun  _ g => by split; exacts [ite g.modWindow.hide.serveP g, g]

theorem execWindowRefuseArrival {src seq wid : Nat} (h : Keeps deep s t) : Runs deep s (Machine.execWindowRefuseArrival src seq wid t) := by
  refine .next ?_
  exact takeOrder h fun  _ g => by split; exacts [ite g.modWindow.serveP g, g]

theorem loseWindow {comp i : Nat} {w : PWindow} (h : Keeps deep s t) : Keeps deep s (t.loseWindow comp i w) := by
  unfold State.loseWindow
  dsimp only
  exact serveP (foldl h.modWindow fun _ _ g => by split; exacts [g.modMem.endRequest.failP, g.modMem.endRequest])

theorem execWindowCloseArrival {src seq wid : Nat} (h : Keeps deep s t) : Runs deep s (Machine.execWindowCloseArrival src seq wid t) := by
  refine .next ?_
  exact takeOrder h fun  _ g => by split; exacts [g.loseWindow, g.modWindow, g]

theorem noteUnreach (h : Keeps deep s t) : Keeps deep s t.noteUnreach := h.modMem

theorem execWindowLostTimeout {comp index : Nat} (h : Keeps deep s t) : Runs deep s (Machine.execWindowLostTimeout comp index t) := by
  unfold Machine.execWindowLostTimeout
  dsimp only
  split
  · exact .next h.noteUnreach
  · exact by split; exacts [.next h.noteUnreach, .ite (.next h.noteUnreach.loseWindow) (.next h.noteUnreach)]

theorem integrate (h : Keeps deep s t) : Keeps deep s t.integrate := by
  unfold State.integrate
  exact h.modMem

theorem execMeterIntegrate (h : Keeps deep s t) : Runs deep s (Machine.execMeterIntegrate t) := .ite (.next h) (.next h.integrate)

theorem execMemCselLatch {pf comp window : Nat} (h : Keeps deep s t) : Runs deep s (Machine.execMemCselLatch pf comp window t) := by
  exact .next h.setFldPf.setFldPf.integrate.modMem

theorem dropWindow {w : PWindow} (h : Keeps deep s t) : Keeps deep s (t.dropWindow w) := sendOrder (ite h.release h)

theorem startWindow {w : PWindow} (h : Keeps deep s t) : OnSome deep s (t.startWindow w) Prod.snd := by
  unfold State.startWindow
  exact .ite (.map h.alloc fun _ g => g.hide) (.some h)

theorem buildWindows {old ws xs : List PWindow} {i : Nat} {u : State} (h : Keeps deep s t) (e : t.buildWindows old i ws = .ok (xs, u)) : Keeps deep s u := by
  induction ws generalizing t i xs with
  | nil =>
    cases e
    exact h
  | cons w ws ih =>
    unfold State.buildWindows at e
    have rest : ∀ {v : State} {o : PWindow}, Keeps deep s v →
        (v.buildWindows old (i + 1) ws).map (fun x => (o :: x.1, x.2)) = .ok (xs, u) → Keeps deep s u := by
      intro v o g e
      cases hb : v.buildWindows old (i + 1) ws with
      | error _ => simp [hb, Except.map] at e
      | ok x =>
        rw [hb] at e
        cases e
        exact ih g hb
    split at e
    · exact rest h e
    · split at e
      · cases e
      · exact rest (h.startWindow _ ‹_›) e

theorem failComp {p rid status : Nat} {entry : Option Nat} (h : Keeps deep s t) : Keeps deep s (t.failComp p rid status entry) := h.complete

theorem execCompositionSet {p q cid : Nat} {data : List Byte} (h : Keeps deep s t) : Runs deep s (Machine.execCompositionSet p q cid data t) := by
  unfold Machine.execCompositionSet
  split
  · exact .next h
  · refine .ite (.next h) ?_
    dsimp only
    split
    · exact .next h.failComp
    · refine .ite (.next h.readInput.failComp) (.ite (.next h.readInput.failComp) ?_)
      split
      · exact .next h.readInput.failComp
      · refine .ite (.next h.readInput.failComp) (.ite (.next h.readInput.failComp)
          (.ite (.next h.readInput.failComp) (.ite (.next h.readInput.failComp) ?_)))
        split
        · exact .next h.readInput.noteQuota.failComp
        · rename_i e
          have built := buildWindows (modMem (foldl h.readInput.integrate fun _ _ g => g.release)) e
          exact .next (complete (modMem (foldl (foldl built fun _ _ g => g.sendOrder) fun _ _ g => g.sendOrder)))

theorem execCompositionRemove {p q cid : Nat} (h : Keeps deep s t) : Runs deep s (Machine.execCompositionRemove p q cid t) := by
  unfold Machine.execCompositionRemove
  split
  · exact .next h
  · refine .ite (.next h) ?_
    split
    · exact .next h.failComp
    · split
      · exact .next h.failComp
      · exact .ite (.next h.failComp) (.next (complete (modMem (foldl h.integrate fun _ _ g => g.dropWindow))))

theorem windowsScrub {p : Nat} (h : Keeps deep s t) : Keeps deep s (t.windowsScrub p) := by
  unfold State.windowsScrub
  exact modMem (foldl (integrate (foldl h fun _ _ g => g.freeTensor)) fun _ _ g => g.dropWindow)

/-! ### Sys2Proof/Machine/FabNet.lean -/

theorem putOrder {lanes : List Nat} {src seq op : Nat} {args : List Nat} {len : Nat} (h : Keeps deep s t) :
    Keeps deep s (t.putOrder lanes src seq op args len) := by
  exact foldl h fun _ _ g => g.modLink

theorem sendOn {lanes : List Nat} {op : Nat} {args : List Nat} {len : Nat} (h : Keeps deep s t) : Keeps deep s (t.sendOn lanes op args len) := h.modFab.putOrder

theorem sendAll {op : Nat} {args : List Nat} {len : Nat} (h : Keeps deep s t) : Keeps deep s (t.sendAll op args len) := h.sendOn

theorem sendHello {lane : Nat} (h : Keeps deep s t) : Keeps deep s (t.sendHello lane) := by
  unfold State.sendHello
  split
  · exact h
  · exact h.sendOn.modLink

theorem sendElect (h : Keeps deep s t) : Keeps deep s t.sendElect := h.sendAll

theorem reroute (h : Keeps deep s t) : Keeps deep s t.reroute := h.modFab

theorem refreshRoutes (h : Keeps deep s t) : Keeps deep s t.refreshRoutes := h.modFab

theorem failColls {status : Nat} (h : Keeps false s t) : Keeps false s (t.failColls status) := foldl h fun _ _ g => g.failColl

theorem takeTopo {anchor : Nat} {m : KV Member} (h : Keeps false s t) : Keeps false s (t.takeTopo anchor m) := by
  exact noteUnreach (bump (reroute (setFld (setFld (setFld (modFab (ite h.failColls h)))))))

theorem sendParts {dst : Except (List Nat) Nat} {op : Nat} {head xs : List Nat} (h : Keeps deep s t) : Keeps deep s (t.sendParts dst op head xs) := by
  refine foldl h fun _ _ g => ?_
  split
  · exact g.sendOrder
  · exact g.sendOn

theorem sendTopo (h : Keeps deep s t) : Keeps deep s t.sendTopo := foldl h fun _ _ g => g.sendParts

theorem takeId {id : Nat} (h : Keeps deep s t) : Keeps deep s (t.takeId id) := ite h.setFld.setFld h.setFld

theorem anchorSettle (h : Keeps false s t) : Keeps false s t.anchorSettle := by
  refine ite ?_ ?_
  · exact modFab (foldl (ite h h.bump) fun _ _ g => ite g (ite (ite g g.takeId) (ite g g.sendAll)))
  · exact sendTopo (takeTopo (modFab (foldl (ite h h.bump) fun _ _ g => ite g (ite (ite g g.takeId) (ite g g.sendAll)))))

theorem reportLinks (h : Keeps false s t) : Keeps false s t.reportLinks := ite h.anchorSettle h.sendParts

theorem rejoin (h : Keeps false s t) : Keeps false s t.rejoin := ite h.setFld.setFld.reroute h.setFld.setFld.reroute.reportLinks

theorem setCand {c cnt : Nat} {lane : Option Nat} (h : Keeps false s t) : Keeps false s (t.setCand c cnt lane) := by
  exact ite h.failColls.modFab.sendElect h.failColls.modFab.sendElect.reportLinks

theorem noteCand {c lane : Nat} (h : Keeps false s t) : Keeps false s (t.noteCand c lane) := ite h.setCand h

theorem execElectArrival {lane ident count : Nat} (h : Keeps false s t) : Runs false s (Machine.execElectArrival lane ident count t) := by
  unfold Machine.execElectArrival
  split
  · exact .next h
  · exact .ite (.next h) (.ite (.next h.setCand) (.ite (.next (h.modFab (fun e => nomatch e)).sendElect) (.next h)))

theorem execAnchorElectTick (h : Keeps false s t) : Runs false s (Machine.execAnchorElectTick t) := .ite (.next (h.modFab (fun e => nomatch e)).sendElect.anchorSettle) (.next h)

theorem execElectStale (h : Keeps false s t) : Runs false s (Machine.execElectStale t) := .ite (.next h.setCand) (.next h)

theorem execAssignArrival {src seq ident id : Nat} (h : Keeps false s t) : Runs false s (Machine.execAssignArrival src seq ident id t) := by
  exact .next (takeOrder h fun  _ g => ite g (ite g.putOrder (ite g g.takeId.refreshRoutes.reportLinks)))

theorem execTopologyReportArrival {node ident : Nat} {links : List (Nat × Nat × Nat)} (h : Keeps false s t) :
    Runs false s (Machine.execTopologyReportArrival node ident links t) := by
  refine .ite (.ite (.next h) (.next (h.modFab (fun e => nomatch e)).anchorSettle)) ?_
  split
  · exact .next h.sendParts
  · exact .next h

theorem execTopoArrival {src seq anchor : Nat} {topo : List (Nat × Nat × List (Nat × Nat × Nat))} (h : Keeps false s t) :
    Runs false s (Machine.execTopoArrival src seq anchor topo t) := by
  exact .next (takeOrder h fun  _ g => g.takeTopo.sendTopo)

theorem execFabRtEntryWrite {value : Word} {pf : Nat} (h : Keeps deep s t) : Runs deep s (Machine.execFabRtEntryWrite value pf t) := by
  exact .next (noteUnreach (modFab (ite h h.accessErr)))

/-! ### Sys2Proof/Machine/Serve.lean -/

theorem reportFence {src kind unit part detail : Nat} (h : Keeps false s t) : Keeps false s (t.reportFence src kind unit part detail) := by
  unfold State.reportFence
  exact h.modUnit.bump.event

theorem cutShort {rid status : Nat} (h : Keeps deep s t) : Keeps deep s (t.cutShort rid status) := by
  unfold State.cutShort
  dsimp only
  split
  · exact h
  · exact by split; exacts [by split; exacts [h.complete, h.complete], h.complete]

theorem fatalStop {src kind unit : Nat} (h : Keeps false s t) : Keeps false s (t.fatalStop src kind unit) := by
  exact ite h (modFlt (setFld (event (foldl h fun _ _ g => g.cutShort))) (fun e => nomatch e) fun e => nomatch e)

theorem vent {rid : Nat} {q : Query} (h : Keeps deep s t) : Keeps deep s (t.vent rid q) := by
  unfold State.vent
  dsimp only
  split
  · exact complete (ite h.bump h.bump.bump)
  · exact complete (ite h.bump h.bump.bump)

theorem lateVents {p : Nat} (h : Keeps deep s t) : Keeps deep s (t.lateVents p) := h.lateEnds

theorem ventDue {p : Nat} (h : Keeps deep s t) : Keeps deep s (t.ventDue p) := foldl h.lateVents fun _ _ g => ite g.vent g

theorem startStep {p step : Nat} (h : Keeps deep s t) : Keeps deep s (t.startStep p step) := by
  exact foldl (ite h.modPart.setReg h.modPart.setReg.bump) fun _ _ g => g.beginQuery

theorem restartGates {p : Nat} (h : Keeps deep s t) : Keeps deep s (t.restartGates p) := foldl h fun _ _ g => ite (ite g.modFab.bump g.modFab) g

theorem execPeriodBoundary {p : Nat} (h : Keeps deep s t) : Runs deep s (Machine.execPeriodBoundary p t) := by
  refine .ite (.next h) ?_
  refine .next (resume (freeOldModels (arrBoundary (resume ?_))))
  exact ite (startStep (ite h.restartGates.ventDue.commitUpdates h.restartGates)) (ite h.restartGates.ventDue.commitUpdates h.restartGates)

theorem execArraySwitchDone {a : Nat} (h : Keeps deep s t) : Runs deep s (Machine.execArraySwitchDone a t) := .next h.switchDone.resume

theorem msgDiscard {g' : Nat} (h : Keeps deep s t) : Keeps deep s (t.msgDiscard g') := h.bump

theorem execHandoffOfferArrival {ctx gen : Nat} (h : Keeps deep s t) : Runs deep s (Machine.execHandoffOfferArrival ctx gen t) := by
  unfold Machine.execHandoffOfferArrival
  dsimp only
  split
  · exact .next h.msgDiscard
  · exact .ite (.next h.msgDiscard) (by split; exacts [.next ((h.takeCtx) _ ‹_›), .next h.bump])

theorem execHandoffAcceptArrival {ctx newCtx gen : Nat} (h : Keeps deep s t) : Runs deep s (Machine.execHandoffAcceptArrival ctx newCtx gen t) := by
  unfold Machine.execHandoffAcceptArrival
  split
  · exact .ite (.next h.putCtxs.modRec) (.next h.msgDiscard)
  · exact .next h.msgDiscard

theorem execHandoffRefuseArrival {ctx gen : Nat} (h : Keeps deep s t) : Runs deep s (Machine.execHandoffRefuseArrival ctx gen t) := by
  unfold Machine.execHandoffRefuseArrival
  split
  · exact .ite (.next h.putCtxs) (.next h.msgDiscard)
  · exact .next h.msgDiscard

theorem execHandoffCommitArrival {ctx gen : Nat} (h : Keeps deep s t) : Runs deep s (Machine.execHandoffCommitArrival ctx gen t) := by
  unfold Machine.execHandoffCommitArrival
  split
  · exact .ite (.next h.putCtxs.bump.resume) (.next h.msgDiscard)
  · exact .next h.msgDiscard

theorem execHandoffRetryTimer {ctx : Nat} (h : Keeps deep s t) : Runs deep s (Machine.execHandoffRetryTimer ctx t) := by
  unfold Machine.execHandoffRetryTimer
  split
  · exact by split; exacts [.ite (.next h.putCtxs) (.next h), .next h]
  · exact .next h

theorem signalLost {ps : List Nat} (h : Keeps deep s t) : Keeps deep s (t.signalLost ps) := foldl h fun _ _ g => g.setWinBit.sendMsix

theorem endLost {rid : Nat} {r : Rec} (h : Keeps deep s t) : Keeps deep s (t.endLost rid r) := h.complete

theorem loseCtx {ctx : Nat} (h : Keeps deep s t) : Keeps deep s (t.loseCtx ctx) := by
  unfold State.loseCtx
  split
  · exact h
  · exact h.endLost.signalLost

theorem execContextContest {ctx : Nat} (h : Keeps deep s t) : Runs deep s (Machine.execContextContest ctx t) := by
  unfold Machine.execContextContest
  dsimp only
  split
  · exact .next h.loseCtx
  · refine .ite (.next h) ?_
    split
    · exact .ite (.next h.putCtxs.modRec.bump.vent) (.next h.putCtxs.modRec.bump.resume)
    · exact .next h.putCtxs.modRec.bump

theorem losePool {g' src : Nat} (h : Keeps false s t) : Keeps false s (t.losePool g' src) := by
  refine ite ?_ ?_
  · refine fatalStop (modFlt (signalLost ?_))
    exact foldl (reportFence (bump (setFld (putCtxs (putCtxs (foldl h fun _ _ g => g.lateEnds)))))) fun _ _ g => ite g g.endLost
  · refine resume (modFlt (signalLost ?_))
    exact foldl (reportFence (bump (setFld (putCtxs (putCtxs (foldl h fun _ _ g => g.lateEnds)))))) fun _ _ g => ite g g.endLost

theorem poolsBack (h : Keeps deep s t) : Keeps deep s t.poolsBack := foldl h fun _ _ g => ite g.setFld.resume g

theorem execPoolLoss {g' : Nat} {ecc : Bool} (h : Keeps false s t) : Runs false s (Machine.execPoolLoss g' ecc t) := .ite (.next h) (.next h.losePool)

/-! ### Sys2Proof/Machine/FabLink.lean -/

theorem freeSpace {lane vc level n : Nat} (h : Keeps deep s t) : Keeps deep s (t.freeSpace lane vc level n) := ite h h.modLink

theorem meterFlits {part : Option Nat} {n : Nat} (h : Keeps deep s t) : Keeps deep s (t.meterFlits part n) := by
  unfold State.meterFlits
  split
  · exact h.addMeter
  · exact h

theorem putFlit {lane kind vc level : Nat} {last : Bool} {marker : Option Nat} {pkt : Option (Packet × Nat × Option Nat)} (h : Keeps deep s t) :
    Keeps deep s (t.putFlit lane kind vc level last marker pkt) := by
  unfold State.putFlit
  split
  · exact h
  · exact h.putFree.modLink.modFab.bump.meterFlits

theorem snapSettle (h : Keeps false s t) : Keeps false s t.snapSettle := ite h h.setFld.setFld.modColl.doneColl

theorem snapBegin {id : Nat} (h : Keeps false s t) : Keeps false s (t.snapBegin id) := snapSettle (foldl h.drogue.modFab.setReg fun _ _ g => g.modLink)

theorem markerIn {lane vc id : Nat} (h : Keeps false s t) : Keeps false s (t.markerIn lane vc id) := by
  unfold State.markerIn
  exact ite (h.modFab (fun e => nomatch e)).snapSettle (ite (snapSettle (modFab (snapBegin (ite h h.openColl)))) (ite (h.modFab (fun e => nomatch e)) (failColl (ite (h.modFab (fun e => nomatch e)) (h.modFab (fun e => nomatch e)).openColl))))

theorem snapCount {lane vc : Nat} {last : Bool} (h : Keeps deep s t) : Keeps deep s (t.snapCount lane vc last) := ite h h.modFab

theorem dropFab (h : Keeps deep s t) : Keeps deep s t.dropFab := h.bump

theorem chargeQuench {k : Packet} {len : Nat} (h : Keeps deep s t) : Keeps deep s (t.chargeQuench k len) := by
  unfold State.chargeQuench
  exact h.modFab

theorem toLink {e : EgPacket} (h : Keeps deep s t) : Keeps deep s (t.toLink e) := by
  unfold State.toLink
  dsimp only
  split
  · exact h.modFab.dropFab
  · exact h.modFab.modLink

theorem tryHeld {e : EgPacket} (h : Keeps deep s t) : Keeps deep s (t.tryHeld e) := by
  unfold State.tryHeld
  split
  · exact ite h h.bump.toLink
  · exact ite h (ite h.modFab h.toLink)

theorem holdBack {es : List EgPacket} (h : Keeps deep s t) : Keeps deep s (t.holdBack es) := h.modFab

theorem promote (h : Keeps deep s t) : Keeps deep s t.promote := foldl h fun _ _ g => ite g.tryHeld g

theorem markGated {lane : Nat} (h : Keeps deep s t) : Keeps deep s (t.markGated lane) := by
  unfold State.markGated
  split
  · exact h
  · exact h.bump.modLink

theorem sendData {lane : Nat} {e : EgPacket} (h : Keeps deep s t) : Keeps deep s (t.sendData lane e) := by
  unfold State.sendData
  split
  · exact h
  · refine ite ?_ ?_
    · refine modFab ?_
      refine ite ?_ ?_
      · refine bump ?_
        split
        · exact h.modLink.putFlit.bump.freeSpace
        · exact h.modLink.putFlit
      · split
        · exact h.modLink.putFlit.bump.freeSpace
        · exact h.modLink.putFlit
    · split
      · exact h.modLink.putFlit.bump.freeSpace
      · exact h.modLink.putFlit

theorem beginPacket {lane : Nat} {e : EgPacket} {transit : Bool} (h : Keeps deep s t) : Keeps deep s (t.beginPacket lane e transit) := by
  refine sendData (modLink ?_)
  refine ite ?_ ?_
  · split
    · exact h.bump
    · exact h
  · refine chargeQuench (serveUnit ?_)
    split
    · exact h.bump
    · exact h

theorem markLinkHeads {lane : Nat} (h : Keeps deep s t) : Keeps deep s (t.markLinkHeads lane) := by
  unfold State.markLinkHeads
  split
  · exact h
  · exact h.modLink

theorem sendSlot {lane : Nat} {x : Link} (h : Keeps deep s t) : Keeps deep s (t.sendSlot lane x) := by
  unfold State.sendSlot
  split
  · exact h.sendData
  · exact by split; exacts [ite h.modLink.beginPacket h.modLink.beginPacket, h.beginPacket, h.beginPacket, ite h h.putFlit]

theorem execLinkEgressSlot {lane : Nat} (h : Keeps deep s t) : Runs deep s (Machine.execLinkEgressSlot lane t) := by
  unfold Machine.execLinkEgressSlot
  dsimp only
  split
  · exact .next h.promote.markLinkHeads.markGated
  · refine .ite (.next h.promote.markLinkHeads.markGated) (.ite (.next h.promote.markLinkHeads.markGated.putFlit) ?_)
    refine .ite (.next h.promote.markLinkHeads.markGated.putFlit) ?_
    refine .ite ?_ ?_
    · exact .next (ite h.promote.markLinkHeads.markGated h.promote.markLinkHeads.markGated.putFlit)
    · split
      · exact .next h.promote.markLinkHeads.markGated.modLink.putFlit
      · split
        · refine .ite ?_ ?_
          · refine .next (modFab ?_)
            split
            · exact h.promote.markLinkHeads.markGated.modLink.putFlit.bump.bump.freeSpace
            · exact h.promote.markLinkHeads.markGated.modLink.putFlit.bump
          · exact .ite (.next h.promote.markLinkHeads.markGated.sendSlot) (.next h.promote.markLinkHeads.markGated)
        · exact .ite (.next h.promote.markLinkHeads.markGated.sendSlot) (.next h.promote.markLinkHeads.markGated)

theorem dropMany {n : Nat} (h : Keeps deep s t) : Keeps deep s (t.dropMany n) := ite h h.bump

theorem enqueue {e : EgPacket} (h : Keeps deep s t) : Keeps deep s (t.enqueue e) := by
  refine ite ?_ ?_
  · split
    · exact h.modLink
    · split
      · exact h.dropFab.freeSpace
      · exact h.dropFab
  · split
    · exact h.modLink
    · split
      · exact h.dropFab.freeSpace
      · exact h.dropFab

theorem linkDown {lane : Nat} (h : Keeps false s t) : Keeps false s (t.linkDown lane) := by
  have freed : ∀ {v : State} {o : Option Nat} {vc l n : Nat}, Keeps false s v →
      Keeps false s (match o with | some i => v.freeSpace i vc l n | none => v) := by
    intro v o vc l n g
    cases o with
    | none => exact g
    | some i => exact g.freeSpace
  unfold State.linkDown
  split
  · exact h
  · refine ite h (ite (noteUnreach (reportLinks ?_)) ?_)
    · exact snapSettle (modFab (holdBack (foldl (foldl h.modLink.modFab.dropMany fun _ _ g => freed g) fun _ _ g => g.enqueue)))
    · exact snapSettle (modFab (holdBack (foldl (foldl h.modLink.modFab.dropMany fun _ _ g => freed g) fun _ _ g => g.enqueue)))

theorem replay {lane : Nat} (h : Keeps false s t) : Keeps false s (t.replay lane) := by
  unfold State.replay
  split
  · exact h
  · refine ite h ?_
    refine ite ?_ ?_
    · exact linkDown (foldl h.modLink.modFab.bump.bump.modLink fun _ _ g => g.meterFlits)
    · exact foldl h.modLink.modFab.bump.bump.modLink fun _ _ g => g.meterFlits

theorem takeLane {lane : Nat} {own : Bool} (h : Keeps false s t) : Keeps false s (t.takeLane lane own) := by
  unfold State.takeLane
  split
  · exact h
  · exact ite h (ite h.modLink.linkDown (ite h.modLink.replay.reportLinks h.modLink))

theorem laneOut {lane : Nat} (h : Keeps false s t) : Keeps false s (t.laneOut lane) := h.takeLane

theorem peerWidth {lane : Nat} (h : Keeps false s t) : Keeps false s (t.peerWidth lane) := by
  unfold State.peerWidth
  dsimp only
  split
  · exact h
  · exact ite h.modLink (by split; exacts [h.fresh, h.fresh.takeLane])

theorem fenceLane {src lane : Nat} (h : Keeps false s t) : Keeps false s (t.fenceLane src lane) := ite h h.modUnit.laneOut.reportFence

theorem execLaneFault {lane : Nat} (h : Keeps false s t) : Runs false s (Machine.execLaneFault lane t) := .ite (.next h.fenceLane) (.next h)

theorem trainLane {lane : Nat} (h : Keeps deep s t) : Keeps deep s (t.trainLane lane) := ite h.fresh.modFab h.fresh.setReg

theorem execLaneRejoin {lane : Nat} (h : Keeps false s t) : Runs false s (Machine.execLaneRejoin lane t) := by
  refine .ite (.next h) ?_
  split
  · exact .next (trainLane (ite h.modUnit.bump.event h))
  · refine .ite (.next (trainLane (ite h.modUnit.bump.event h))) ?_
    refine .ite (.next (reportLinks (modLink (trainLane (ite h.modUnit.bump.event h))))) ?_
    exact .next (modLink (trainLane (ite h.modUnit.bump.event h)))

theorem execLinkTrainingDone {lane : Nat} (h : Keeps deep s t) : Runs deep s (Machine.execLinkTrainingDone lane t) := by
  exact .ite (.next h) (.ite (.next h) (.next (sendHello (modFab (foldl h fun _ _ g => g.trainLane)))))

theorem execHelloTimer {lane : Nat} (h : Keeps deep s t) : Runs deep s (Machine.execHelloTimer lane t) := by
  unfold Machine.execHelloTimer
  split
  · exact .ite (.next h.sendHello) (.next h)
  · exact .next h

theorem execHelloArrival {lane ident port k width nodeId anchor : Nat} (h : Keeps false s t) :
    Runs false s (Machine.execHelloArrival lane ident port k width nodeId anchor t) := by
  unfold Machine.execHelloArrival
  split
  · exact .next h
  · refine .ite (.next h) (.ite (.next h.bump.linkDown) ?_)
    exact .ite (.next (reportLinks (refreshRoutes (ite h.modLink.noteCand h.modLink)))) (.next (ite h.modLink.noteCand h.modLink))

theorem execHelloTimeout {lane : Nat} (h : Keeps false s t) : Runs false s (Machine.execHelloTimeout lane t) := by
  unfold Machine.execHelloTimeout
  split
  · exact by split; exacts [.ite (.next h.linkDown) (.next h), .next h]
  · exact .next h

theorem execReplayTimeout {lane : Nat} (h : Keeps false s t) : Runs false s (Machine.execReplayTimeout lane t) := by
  unfold Machine.execReplayTimeout
  split
  · exact by split; exacts [.ite (.next h.replay) (.next h), .next h]
  · exact .next h

theorem takeHeader {lane h' : Nat} (h : Keeps false s t) : Keeps false s (t.takeHeader lane h') := ite h.modLink.replay h.modLink

theorem wholePacket {lane vc level : Nat} {bs : List Byte} {n : Nat} (h : Keeps deep s t) : Keeps deep s (t.wholePacket lane vc level bs n) := by
  exact ite h.dropFab.freeSpace (ite h.freeSpace (modFab (ite h.meterFlits h)))

theorem execFlitReceive {lane : Nat} {flit : List Byte} (h : Keeps false s t) : Runs false s (Machine.execFlitReceive lane flit t) := by
  unfold Machine.execFlitReceive
  dsimp only
  split
  · exact .next h
  · refine .ite (.next h) (.ite (.next h.modLink) ?_)
    refine .ite ?_ ?_
    · exact .next (ite (peerWidth (takeHeader (ite h.bump h.bump.modLink))) (takeHeader (ite h.bump h.bump.modLink)))
    · refine .ite ?_ ?_
      · exact .next (dropFab (ite (peerWidth (takeHeader (ite h.bump h.bump.modLink))) (takeHeader (ite h.bump h.bump.modLink))))
      · refine .ite ?_ ?_
        · refine .ite ?_ ?_
          · exact .next (markerIn (ite (peerWidth (takeHeader (ite h.bump h.bump.modLink))) (takeHeader (ite h.bump h.bump.modLink))))
          · exact .next (ite (peerWidth (takeHeader (ite h.bump h.bump.modLink))) (takeHeader (ite h.bump h.bump.modLink)))
        · split
          · refine .next (freeSpace (dropFab ?_))
            split
            · refine freeSpace (snapCount ?_)
              exact ite (peerWidth (takeHeader (ite h.bump h.bump.modLink))) (takeHeader (ite h.bump h.bump.modLink))
            · exact snapCount (ite (peerWidth (takeHeader (ite h.bump h.bump.modLink))) (takeHeader (ite h.bump h.bump.modLink)))
          · refine .ite ?_ ?_
            · refine .next (wholePacket (modLink ?_))
              split
              · refine freeSpace (snapCount ?_)
                exact ite (peerWidth (takeHeader (ite h.bump h.bump.modLink))) (takeHeader (ite h.bump h.bump.modLink))
              · exact snapCount (ite (peerWidth (takeHeader (ite h.bump h.bump.modLink))) (takeHeader (ite h.bump h.bump.modLink)))
            · refine .next (modLink ?_)
              split
              · refine freeSpace (snapCount ?_)
                exact ite (peerWidth (takeHeader (ite h.bump h.bump.modLink))) (takeHeader (ite h.bump h.bump.modLink))
              · exact snapCount (ite (peerWidth (takeHeader (ite h.bump h.bump.modLink))) (takeHeader (ite h.bump h.bump.modLink)))

theorem execReassemblyTimeout {lane vc level : Nat} (h : Keeps deep s t) : Runs deep s (Machine.execReassemblyTimeout lane vc level t) := by
  unfold Machine.execReassemblyTimeout
  split
  · exact .next h
  · exact .ite (.next h.modLink.freeSpace.dropFab) (.next h)

theorem execMarkerArrival {lane vc snapId : Nat} (h : Keeps false s t) : Runs false s (Machine.execMarkerArrival lane vc snapId t) := by
  unfold Machine.execMarkerArrival
  split
  · exact .ite (.next h.markerIn) (.next h)
  · exact .next h

theorem fromRx {k : Packet} (h : Keeps deep s t) : Keeps deep s (t.fromRx k).1 := by
  unfold State.fromRx
  split
  · exact fst h
  · exact fst h.modFab

theorem execTransitForward {lane : Nat} {pkt : Packet} (h : Keeps deep s t) : Runs deep s (Machine.execTransitForward lane pkt t) := by
  refine .ite (.next h) ?_
  refine .ite ?_ ?_
  · refine .next ?_
    split
    · exact h.fromRx.dropFab.freeSpace
    · exact h.fromRx.dropFab
  · exact .next h.fromRx.enqueue

theorem meterPacket {k : Packet} (h : Keeps deep s t) : Keeps deep s (t.meterPacket k) := ite h.meterUnit.bump h.meterUnit.modFab

theorem execEgressPacketHandoff (h : Keeps deep s t) : Runs deep s (Machine.execEgressPacketHandoff t) := by
  unfold Machine.execEgressPacketHandoff
  split
  · exact .next h
  · exact .ite (.next h.modFab.enqueue) (.next (foldl h.modFab fun _ _ g => g.meterPacket))

theorem execGateEntryAdvance {port : Nat} (h : Keeps deep s t) : Runs deep s (Machine.execGateEntryAdvance port t) := by
  unfold Machine.execGateEntryAdvance
  split
  · exact .next h
  · exact .ite (.next h.modFab) (.next h)

theorem putQuench {q : Quench} (h : Keeps deep s t) : Keeps deep s (t.putQuench q) := ite h.modFab h.modFab.bump

theorem execQuenchArrival {src seq part vcMask dur rate : Nat} (h : Keeps deep s t) :
    Runs deep s (Machine.execQuenchArrival src seq part vcMask dur rate t) := by
  exact .next (takeOrder h fun  _ g => holdBack (modFab (foldl g.bump fun _ _ g => g.putQuench)))

theorem execReleaseArrival {src seq : Nat} (h : Keeps deep s t) : Runs deep s (Machine.execReleaseArrival src seq t) := .next (takeOrder h fun  _ g => g.modFab)

theorem execQuenchExpiry {sender part vc : Nat} (h : Keeps deep s t) : Runs deep s (Machine.execQuenchExpiry sender part vc t) := .next h.modFab

theorem takeIn {k : Packet} (h : Keeps deep s t) : Keeps deep s (t.takeIn k) := by
  unfold State.takeIn
  dsimp only
  exact ite h.modFab (by split; exacts [ite h.modFab h.modFab, h])

theorem quenchSource {k : Packet} (h : Keeps deep s t) : Keeps deep s (t.quenchSource k) := ite h (ite h h.modPart.sendOrder.bump)

theorem execFabricPacketArrival {pkt : Packet} (h : Keeps deep s t) : Runs deep s (Machine.execFabricPacketArrival pkt t) := by
  refine .ite (.next h) (.ite (.next h) ?_)
  refine .ite ?_ ?_
  · refine .next (discardLate ?_)
    split
    · exact h.fromRx.freeSpace
    · exact h.fromRx
  · refine .ite ?_ ?_
    · refine .next (takeIn ?_)
      split
      · exact h.fromRx.freeSpace
      · exact h.fromRx
    · refine .next (quenchSource (takeIn ?_))
      split
      · exact h.fromRx.freeSpace
      · exact h.fromRx

theorem execReleaseSend {p : Nat} (h : Keeps deep s t) : Runs deep s (Machine.execReleaseSend p t) := by
  exact .ite (.next h) (.next (foldl h.modPart fun _ _ g => g.sendOrder))

/-! ### Sys2Proof/Machine/Flash.lean -/

theorem execNsRead {p q cid : Nat} (h : Keeps deep s t) : Runs deep s (Machine.execNsRead p q cid t) := by
  unfold Machine.execNsRead
  split
  · exact .next h
  · extract_lets c id n first a
    split
    · exact .next h.fail
    · refine .ite (.next h) ?_
      split
      rename_i e
      have loaded := of_snd h.flashLoad (congrArg (fun x => x.2.2) e)
      split
      · exact .next loaded.complete
      · exact .next loaded.complete

theorem execNsWrite {p q cid : Nat} {data : List Byte} (h : Keeps deep s t) : Runs deep s (Machine.execNsWrite p q cid data t) := by
  unfold Machine.execNsWrite
  split
  · exact .next h
  · refine .ite (.next h) ?_
    split
    · exact .next h.fail
    · split
      · exact .next h.fail
      · split
        rename_i e
        have read := of_snd h.readInput e
        refine .ite (.next h) ?_
        split
        · exact .next (of_fst read.flashStore ‹_›).done
        · exact .next (of_fst read.flashStore ‹_›).modFlash.mediaFull.complete

theorem execNsTrim {p q cid : Nat} (h : Keeps deep s t) : Runs deep s (Machine.execNsTrim p q cid t) := by
  unfold Machine.execNsTrim
  split
  · exact .next h
  · exact .ite (.next h) (by split; exacts [.next h.fail, .next h.unmapUnits.done])

theorem execNsFormatCreate {p q cid : Nat} (h : Keeps deep s t) : Runs deep s (Machine.execNsFormatCreate p q cid t) := by
  unfold Machine.execNsFormatCreate
  split
  · exact .next h
  · exact .ite (.next h) (.ite (.next h) (by split; exacts [.next h.refuse, .next h.modFlash.newKey.done]))

theorem beginFormat {p q cid op : Nat} (h : Keeps deep s t) : Keeps deep s (t.beginFormat p q cid op) := by
  unfold State.beginFormat
  split
  · exact h
  · exact by split; exacts [h.fail, h.modFlash.modRec.destroyKey]

theorem execNsFormatDelete {p q cid : Nat} (h : Keeps deep s t) : Runs deep s (Machine.execNsFormatDelete p q cid t) := .next h.beginFormat

theorem execNsFormatErase {p q cid : Nat} (h : Keeps deep s t) : Runs deep s (Machine.execNsFormatErase p q cid t) := .next h.beginFormat

theorem execNsFormatDone {p q cid : Nat} (h : Keeps deep s t) : Runs deep s (Machine.execNsFormatDone p q cid t) := by
  unfold Machine.execNsFormatDone
  dsimp only
  split
  · exact .next h.lateEnd
  · exact by split; exacts [.next h, .ite (.next h) (.next (done (ite h.dropKey.unmapUnits.modFlash h.dropKey.unmapUnits.modFlash.newKey)))]

theorem flashScrub {p : Nat} (h : Keeps deep s t) : Keeps deep s (t.flashScrub p) := by
  exact foldl (modFlash (foldl h fun _ _ g => g.dropKey.unmapUnits)) fun _ _ g => g.freeTensor

theorem fenceLun {lun : Nat} (h : Keeps false s t) : Keeps false s (t.fenceLun lun) := ite h h.modUnit.bump.event.modUnit.modFlash.logFlash.logFlash

theorem execFlashProgramFail {lun block : Nat} {erase : Bool} (h : Keeps false s t) : Runs false s (Machine.execFlashProgramFail lun block erase t) := by
  refine .ite (.next h) ?_
  refine .next ?_
  refine ite (fenceLun (ite h.modFlash.retireBlock.modFlash h.modFlash.retireBlock)) (ite h.modFlash.retireBlock.modFlash ?_)
  exact h.modFlash.retireBlock

theorem execLunFence {lun : Nat} (h : Keeps false s t) : Runs false s (Machine.execLunFence lun t) := .next h.fenceLun

theorem execLunRebuildDone {lun : Nat} (h : Keeps deep s t) : Runs deep s (Machine.execLunRebuildDone lun t) := by
  refine .ite (.next h) ?_
  refine .ite ?_ ?_
  · exact .next (serveP (foldl (foldl (foldl h fun _ _ g => g.modMem) fun _ _ g => ite g.closeSuper g) fun _ _ g => g.evacuate))
  · refine .next (serveP (logFlash (modFlash ?_)))
    exact foldl (foldl (foldl h fun _ _ g => g.modMem) fun _ _ g => ite g.closeSuper g) fun _ _ g => g.evacuate

theorem execGcStart (h : Keeps deep s t) : Runs deep s (Machine.execGcStart t) := .ite (.next h.collect.serveP) (.next h)

theorem levelWear {limit n : Nat} (h : Keeps deep s t) : Keeps deep s (State.levelWear limit n t) := by
  induction n generalizing t with
  | zero => exact h
  | succ n ih =>
    unfold State.levelWear
    refine ite h ?_
    dsimp only
    split
    · refine ite (ih (bump (evacuate ?_))) h
      split
      · exact h.closeSuper
      · exact h
    · exact h

theorem execWearLevelStart (h : Keeps deep s t) : Runs deep s (Machine.execWearLevelStart t) := .ite (.next h.levelWear) (.next h)

theorem execMediaScrubRead {lun block page : Nat} {found : ScrubFound} (h : Keeps deep s t) :
    Runs deep s (Machine.execMediaScrubRead lun block page found t) := by
  refine .ite (.next h) (.ite (.next (retireBlock (ite h.fresh.modFlash.bump h.fresh.modFlash))) ?_)
  exact .ite (.next (bump (relocate (ite h.fresh.modFlash.bump h.fresh.modFlash)))) (.next (ite h.fresh.modFlash.bump h.fresh.modFlash))

theorem reserve {kind : AllocKind} {a len : Nat} (h : Keeps deep s t) : Keeps deep s (t.reserve kind a len) := by
  refine h.modMem_wf fun m w => ?_
  split
  · exact w
  · exact w

theorem reserveMap (h : Keeps deep s t) : Keeps deep s t.reserveMap := ite (foldl h.modMem fun _ _ g => g.reserve) h

theorem reserveAreas (h : Keeps deep s t) : Keeps deep s t.reserveAreas := h.reserve.reserve

theorem execFtlSpareWrite {value : Word} (h : Keeps deep s t) : Runs deep s (Machine.execFtlSpareWrite value t) := by
  exact .next (ite (ite h.setReg h.setReg.modFlash.reserveMap) (logFlash (ite h.setReg h.setReg.modFlash.reserveMap)))

theorem discoverMedia (h : Keeps deep s t) : Keeps deep s t.discoverMedia := by
  unfold State.discoverMedia
  dsimp only
  split
  · exact h.modFlash
  · exact ite h.modFlash h.modFlash.reserveMap

/-! ### Sys2Proof/Machine/EmbOps.lean -/

theorem modEmb {f : Emb → Emb} (h : Keeps deep s t) : Keeps deep s (t.modEmb f) := h.putEmb

theorem modTable {tid : Nat} {f : Table → Table} (h : Keeps deep s t) : Keeps deep s (t.modTable tid f) := h.modEmb

theorem bumpTable {tid off n : Nat} (h : Keeps deep s t) : Keeps deep s (t.bumpTable tid off n) := h.bumpCopy

theorem dirRoom (h : Keeps deep s t) : Keeps deep s t.dirRoom := ite h (by split; exacts [h.modEmb.bump, h])

theorem dirPut {d : DirEnt} (h : Keeps deep s t) : Keeps deep s (t.dirPut d) := ite h.modEmb.dirRoom.modEmb h.modEmb

theorem dirDel {f : DirEnt → Bool} (h : Keeps deep s t) : Keeps deep s (t.dirDel f) := h.modEmb

theorem dirTouch {tid x : Nat} (h : Keeps deep s t) : Keeps deep s (t.dirTouch tid x) := ite h h.modEmb

theorem noteServed {tid n : Nat} (h : Keeps deep s t) : Keeps deep s (t.noteServed tid n) := ite h h.modTable

theorem noteFetch {tid x : Nat} (h : Keeps deep s t) : Keeps deep s (t.noteFetch tid x) := h.modEmb

theorem accumulate {tid : Nat} {x : Table} {step row : Nat} {v : List Nat} {sender : Option Nat} (h : Keeps deep s t) :
    Keeps deep s (t.accumulate tid x step row v sender).1 := by
  unfold State.accumulate
  exact ite_fst (fst h.bumpTable) (ite_fst (fst h.bumpTable) (fst h.modTable))

theorem sendTable {t' : Table} {vc op node : Nat} {args : List Nat} {data : List Byte} (h : Keeps deep s t) :
    Keeps deep s (t.sendTable t' vc op node args data) := by
  exact h.modFab.handPacket

theorem endStep {tid step : Nat} (h : Keeps deep s t) : Keeps deep s (t.endStep tid step) := by
  unfold State.endStep
  split
  · exact h
  · exact foldl h fun _ _ g => ite g g.sendTable.modTable

theorem endSteps {tid : Nat} (h : Keeps deep s t) : Keeps deep s (t.endSteps tid) := by
  unfold State.endSteps
  split
  · exact h
  · exact ite h (foldl h fun _ _ g => g.endStep)

theorem sendCopy {tid x : Nat} {d : Drift} (h : Keeps deep s t) : Keeps deep s (t.sendCopy tid x d) := by
  unfold State.sendCopy
  split
  · exact h
  · exact h.modTable.access.access.sendTable

theorem applyOne {tid x : Nat} {g' : List Nat} (h : Keeps deep s t) : Keeps deep s (t.applyOne tid x g') := by
  unfold State.applyOne
  split
  · exact h
  · refine foldl (foldl ?_ fun _ _ g => g.sendCopy) fun _ _ g => g.sendTable
    split
    · exact h.putFree.access.writeMem.access.access.writeMem.access
    · exact h.putFree.access.writeMem.access

theorem closeStep {tid step : Nat} (h : Keeps deep s t) : Keeps deep s (t.closeStep tid step) := by
  unfold State.closeStep
  split
  · exact h
  · exact modTable (noteServed (bumpTable (foldl h fun _ _ g => g.applyOne)))

theorem closeUpTo {tid step : Nat} (h : Keeps deep s t) : Keeps deep s (t.closeUpTo tid step) := by
  unfold State.closeUpTo
  split
  · exact h
  · exact foldl h fun _ _ g => g.closeStep

theorem finishCloses {tid : Nat} (h : Keeps deep s t) : Keeps deep s (t.finishCloses tid) := by
  unfold State.finishCloses
  split
  · exact h
  · exact foldl h.modTable fun _ _ g => ite g.complete g.complete

theorem recallRows {tid : Nat} (h : Keeps deep s t) : Keeps deep s (t.recallRows tid) := by
  unfold State.recallRows
  split
  · exact h
  · exact foldl h.dirDel.modTable fun _ _ g => g.sendOrder

theorem dropTable {tid : Nat} (h : Keeps deep s t) : Keeps deep s (t.dropTable tid) := by
  unfold State.dropTable
  split
  · exact h
  · refine modEmb (putCtrs (dirDel ?_))
    split
    · refine giveRows ?_
      split
      · exact giveRows (foldl h fun _ _ g => g.release)
      · exact foldl h fun _ _ g => g.release
    · split
      · exact giveRows (foldl h fun _ _ g => g.release)
      · exact foldl h fun _ _ g => g.release

theorem tableReset {p : Nat} (h : Keeps deep s t) : Keeps deep s (t.tableReset p) := h.modEmb

theorem tableScrub {p : Nat} (h : Keeps deep s t) : Keeps deep s (t.tableScrub p) := foldl h fun _ _ g => g.dropTable

/-! ### Sys2Proof/Machine/Tables.lean -/

theorem allocAreas {p tier : Nat} {ns : List Nat} (h : Keeps deep s t) : OnSome deep s (t.allocAreas p tier ns) Prod.snd := by
  induction ns generalizing t with
  | nil => exact .some h
  | cons n ns ih =>
    unfold State.allocAreas
    refine .ite (.map (ih h) fun _ g => g) ?_
    split
    · exact .none
    · exact .map (ih ((h.alloc _ ‹_›).modMem_wf fun _ w => wf_clear _ _ _ w)) fun _ g => g

theorem execTableCreate {p q cid : Nat} (h : Keeps deep s t) : Runs deep s (Machine.execTableCreate p q cid t) := by
  unfold Machine.execTableCreate
  dsimp only
  split
  · exact .next h
  · refine .ite (.next h) ?_
    split
    · exact .next h.refuse
    · split
      · exact .next h.fail
      · split
        · exact .next h.access.fail
        · refine .next (done (modEmb ?_))
          split
          · exact modMem ((h.access.allocAreas) _ ‹_›)
          · exact (h.access.allocAreas) _ ‹_›

theorem beginClosers {tid : Nat} (h : Keeps deep s t) : Keeps deep s (t.beginClosers tid) := by
  unfold State.beginClosers
  split
  · exact h
  · exact ite h.modTable.endSteps h

theorem settleTable {tid : Nat} (h : Keeps deep s t) : Keeps deep s (t.settleTable tid) := by
  unfold State.settleTable
  dsimp only
  split
  · exact h.beginClosers
  · split
    · refine ite h.beginClosers ?_
      split
      · refine ite ?_ ?_
        · exact done (dropTable (ite h.beginClosers h.beginClosers.modTable.recallRows))
        · exact ite h.beginClosers h.beginClosers.modTable.recallRows
      · exact ite h.beginClosers h.beginClosers.modTable.recallRows
    · split
      · exact ite h.beginClosers.modTable.done h.beginClosers
      · exact h.beginClosers

theorem finishLookup {rid : Nat} (h : Keeps deep s t) : Keeps deep s (t.finishLookup rid) := by
  unfold State.finishLookup
  split
  · exact h
  · exact ite h (by split; exacts [h, h.putFree.bumpTable.complete.settleTable])

theorem sendLookup {rid tid : Nat} {t' : Table} {node : Nat} {rows : List Nat} (h : Keeps deep s t) : Keeps deep s (t.sendLookup rid tid t' node rows) := by
  unfold State.sendLookup
  exact h.sendRequest.modEmb

theorem execTableLookup {p q cid : Nat} {indices offsets : List Byte} (h : Keeps deep s t) :
    Runs deep s (Machine.execTableLookup p q cid indices offsets t) := by
  have read : ∀ {v : State} {c : Prop} [Decidable c] {f : Nat × Bool} {a n : Nat} {bs : List Byte}, Keeps deep s v →
      Keeps deep s (if c then ([], v) else v.readInput p f a n bs).2 := fun g => ite_snd g g.readInput
  have pinned : ∀ {v : State} {o : Prop} [Decidable o] {rid : Nat} {c : HostCmd}, Keeps deep s v →
      Keeps deep s (if o then v else v.pinLookup p rid c) := fun g => ite g g.pinLookup
  unfold Machine.execTableLookup
  dsimp only
  split
  · exact .next h
  · split
    · exact .next h.fail
    · refine .ite (.next h.offerCtx) (.ite (.next (fail (read h.readInput))) ?_)
      split
      · refine .ite (.next (fail (pinned (read h.readInput)))) (.ite (.next (fail (pinned (read h.readInput)))) ?_)
        refine .ite (.next (settleTable (fail (bumpTable (pinned (read h.readInput)))))) ?_
        split
        · exact .next (settleTable (fail (uncorrectableAt (bumpTable (pinned (read h.readInput))))))
        · refine .next (finishLookup (foldl (modRec (modEmb (foldl (phaseRan (noteServed ?_)) ?_))) fun _ _ g => g.sendLookup))
          · exact foldl (foldl (bumpTable (bumpTable (pinned (read h.readInput)))) fun _ _ g => g.access) fun _ _ g => g.noteFetch
          · exact fun _ _ g => g.dirTouch
      · exact .next (fail (pinned (read h.readInput)))

theorem forward {tid : Nat} {t' : Table} {k : Packet} {node : Nat} {args : List Nat} (h : Keeps deep s t) : Keeps deep s (t.forward tid t' k node args) := by
  exact ite h.answer h.handPacket.bumpTable

theorem serveLookup {k : Packet} (h : Keeps deep s t) : Keeps deep s (t.serveLookup k) := by
  have held : ∀ {v : State} {c : Prop} [Decidable c] {i : Nat} {f : Table → Table}, Keeps deep s v →
      Keeps deep s (if c then v else v.modTable i f) := fun g => ite g g.modTable
  unfold State.serveLookup
  refine ite h.answer ?_
  split
  · exact h
  · refine ite (foldl (held h) fun _ _ g => g.forward) (ite (answer (foldl (held h) fun _ _ g => g.forward)) (answer (foldl ?_ ?_)))
    · exact phaseRan (noteServed (foldl (foldl (held h) fun _ _ g => g.forward) fun _ _ g => g.access))
    · exact fun _ _ g => g.noteFetch

theorem execRemoteLookupRequest {pkt : Packet} (h : Keeps deep s t) : Runs deep s (Machine.execRemoteLookupRequest pkt t) := .next h.taken.serveLookup

theorem learn {tid : Nat} {t' : Table} {x owner : Nat} {reps : Option (List Nat)} (h : Keeps deep s t) : Keeps deep s (t.learn tid t' x owner reps) := by
  unfold State.learn
  split
  · exact ite h.dirDel h.dirPut
  · exact foldl (dirDel (ite h.dirDel h.dirPut)) fun _ _ g => g.dirPut

theorem execRemoteLookupResponse {pkt : Packet} (h : Keeps deep s t) : Runs deep s (Machine.execRemoteLookupResponse pkt t) := by
  refine .ite (.next h.taken.discardLate) ?_
  split
  · exact .next h.taken
  · refine .ite (.next h.taken) ?_
    split
    · exact .next h.taken.endRequest
    · split
      · exact .next h.taken.endRequest
      · refine .ite (.next h.taken.endRequest.fail.settleTable) ?_
        exact .next (finishLookup (foldl (modEmb (ite h.taken.endRequest h.taken)) fun _ _ g => g.learn))

theorem finishUpdate {rid : Nat} (h : Keeps deep s t) : Keeps deep s (t.finishUpdate rid) := by
  unfold State.finishUpdate
  split
  · exact h
  · exact ite h h.complete.settleTable

theorem contribDone {rid x : Nat} {ok : Bool} (h : Keeps deep s t) : Keeps deep s (t.contribDone rid x ok) := h.modEmb

theorem contribute {rid tid step x : Nat} {g' : List Nat} (h : Keeps deep s t) : Keeps deep s (t.contribute rid tid step x g') := by
  unfold State.contribute
  dsimp only
  split
  · exact h
  · exact by split; exacts [contribDone (ite h.accumulate.bumpTable h.accumulate), h.sendRequest.modTable.modEmb]

theorem execTableUpdate {p q cid : Nat} {indices grads : List Byte} (h : Keeps deep s t) : Runs deep s (Machine.execTableUpdate p q cid indices grads t) := by
  unfold Machine.execTableUpdate
  dsimp only
  split
  · exact .next h
  · split
    · exact .next h.fail
    · split
      · exact .next h.fail
      · refine .ite (.next h.fail) (.ite (.next h.offerCtx) ?_)
        refine .ite ?_ ?_
        · exact .next h.readInput.readInput.bumpTable.putFree.phaseRan.bumpTable.modEmb.finishUpdate
        · refine .ite ?_ ?_
          · exact .next h.readInput.readInput.bumpTable.putFree.phaseRan.fail.settleTable
          · refine .next (finishUpdate ?_)
            exact foldl h.readInput.readInput.bumpTable.putFree.phaseRan.modEmb.modRec fun _ _ g => g.contribute.dirTouch

theorem takeContrib {k : Packet} (h : Keeps deep s t) : Keeps deep s (t.takeContrib k) := by
  unfold State.takeContrib
  dsimp only
  refine ite h.answer ?_
  split
  · exact h
  · refine ite h.modTable ?_
    split
    · exact endSteps (answer (ite h.accumulate.bumpTable h.accumulate))
    · exact ite h.bumpTable.answer h.modTable.forward.endSteps

theorem execContributionArrival {pkt : Packet} (h : Keeps deep s t) : Runs deep s (Machine.execContributionArrival pkt t) := .next h.taken.takeContrib

theorem execContributionResultArrival {pkt : Packet} (h : Keeps deep s t) : Runs deep s (Machine.execContributionResultArrival pkt t) := by
  unfold Machine.execContributionResultArrival
  dsimp only
  refine .ite (.next h.taken.discardLate) ?_
  split
  · exact .next h.taken
  · refine .ite (.next h.taken) ?_
    split
    · exact .next h.taken.endRequest
    · refine .ite (.next h.taken.endRequest.fail.settleTable) ?_
      refine .next (finishUpdate (contribDone ?_))
      split
      · exact h.taken.endRequest.modEmb.learn
      · exact h.taken.endRequest.modEmb

theorem execTableStepClose {p q cid : Nat} (h : Keeps deep s t) : Runs deep s (Machine.execTableStepClose p q cid t) := by
  unfold Machine.execTableStepClose
  split
  · exact by split; exacts [.next h.fail, .next h.modTable.modRec.settleTable]
  · exact by split; exacts [.next h.settleTable, .next h]

theorem execStepEndArrival {pkt : Packet} (h : Keeps deep s t) : Runs deep s (Machine.execStepEndArrival pkt t) := by
  unfold Machine.execStepEndArrival
  dsimp only
  split
  · exact .next h.taken
  · exact .ite (.next h.taken) (.next h.taken.modTable.endSteps)

theorem execEmbStepClose {table step : Nat} (h : Keeps deep s t) : Runs deep s (Machine.execEmbStepClose table step t) := by
  unfold Machine.execEmbStepClose
  dsimp only
  split
  · exact .next h.settleTable
  · exact .ite (.next h.settleTable.closeUpTo.finishCloses.endSteps.settleTable) (.next h.settleTable)

theorem execEmbStepTimeout {table step : Nat} (h : Keeps deep s t) : Runs deep s (Machine.execEmbStepTimeout table step t) := by
  unfold Machine.execEmbStepTimeout
  split
  · exact .next h
  · exact by split; exacts [.next h, .ite (.next h) (.ite (.next h) (.next h.bump.modTable.closeUpTo.finishCloses.settleTable))]

theorem execTableSwitch {p q cid : Nat} (h : Keeps deep s t) : Runs deep s (Machine.execTableSwitch p q cid t) := by
  unfold Machine.execTableSwitch
  split
  · dsimp only
    split
    · split
      · exact .next h.fail
      · refine .ite (.next h) (.next (settleTable (recallRows (retireVersions (modRec ?_)))))
        split
        · exact h.modTable.modMem.modMem_wf fun _ w => wf_clear _ _ _ w
        · exact h.modTable.modMem
    · exact .next h.fail
  · split
    · exact .next h.settleTable
    · exact .next h

theorem execTableDestroy {p q cid : Nat} (h : Keeps deep s t) : Runs deep s (Machine.execTableDestroy p q cid t) := by
  unfold Machine.execTableDestroy
  dsimp only
  split
  · exact by split; exacts [.next h.fail, by split; exacts [.next h.fail, .ite (.next h) (.next h.modTable.modRec.settleTable)]]
  · exact by split; exacts [.next h.settleTable, .next h]

theorem execEmbLoadReport {table : Nat} (h : Keeps deep s t) : Runs deep s (Machine.execEmbLoadReport table t) := by
  unfold Machine.execEmbLoadReport
  split
  · exact .next h
  · exact .next (foldl h.modTable fun _ _ g => g.sendOrder)

theorem execLoadOrderArrival {pkt : Packet} (h : Keeps deep s t) : Runs deep s (Machine.execLoadOrderArrival pkt t) := by
  exact .next (takeOrder h fun  _ g => g.modTable)

theorem offerDrift {tid x node : Nat} {replica : Bool} (h : Keeps deep s t) : Keeps deep s (t.offerDrift tid x node replica) := by
  unfold State.offerDrift
  split
  · exact h
  · exact ite h (ite h.bump h.modTable.sendOrder)

theorem execDriftOfferArrival {pkt : Packet} (h : Keeps deep s t) : Runs deep s (Machine.execDriftOfferArrival pkt t) := by
  unfold Machine.execDriftOfferArrival
  dsimp only
  exact .next (takeOrder h fun  _ g => by split; exacts [g.bump, by split; exacts [g.bump, ite g.bump (sendOrder (modTable (ite g g.dirRoom)))]])

theorem execDriftAcceptArrival {pkt : Packet} (h : Keeps deep s t) : Runs deep s (Machine.execDriftAcceptArrival pkt t) := by
  unfold Machine.execDriftAcceptArrival
  dsimp only
  exact .next (takeOrder h fun  _ g => by split; exacts [g, ite g.modTable.bump.sendOrder (ite g.sendCopy.modTable.dirPut g.sendCopy.modTable)])

theorem addCarried {tid x : Nat} {steps : List Nat} {bs : List Byte} (h : Keeps deep s t) : Keeps deep s (t.addCarried tid x steps bs) := by
  induction steps generalizing t bs with
  | nil => exact h
  | cons step steps ih =>
    unfold State.addCarried
    split
    · exact h
    · exact ih h.accumulate

theorem settleHeld {tid : Nat} (h : Keeps deep s t) : Keeps deep s (t.settleHeld tid) := by
  unfold State.settleHeld
  dsimp only
  split
  · exact h
  · split
    · exact foldl h.modTable fun _ _ g => ite g g.modTable.modEmb.addCarried
    · exact foldl (modTable (foldl h.modTable fun _ _ g => ite g g.modTable.modEmb.addCarried)) fun _ _ g => ite g.takeContrib g.serveLookup

theorem execDriftCopyArrival {pkt : Packet} (h : Keeps deep s t) : Runs deep s (Machine.execDriftCopyArrival pkt t) := by
  unfold Machine.execDriftCopyArrival
  dsimp only
  split
  · exact .next h.taken
  · split
    · exact .next h.taken
    · refine .ite (.next h.taken) ?_
      refine .next (settleHeld (modTable ?_))
      split
      · exact h.taken.access.writeMem.access.writeMem
      · exact h.taken.access.writeMem

theorem execDriftSwitch {table row : Nat} (h : Keeps deep s t) : Runs deep s (Machine.execDriftSwitch table row t) := by
  unfold Machine.execDriftSwitch
  split
  · exact .next h
  · exact by split; exacts [.next h, .ite (.next h.modTable.bump) (.next h.dirPut.modTable.sendTable.bump)]

theorem execDriftSwitchArrival {pkt : Packet} (h : Keeps deep s t) : Runs deep s (Machine.execDriftSwitchArrival pkt t) := .next h.taken.modTable.settleHeld

theorem execDriftAbandonTimeout {table row : Nat} (h : Keeps deep s t) : Runs deep s (Machine.execDriftAbandonTimeout table row t) := .next h.modTable

theorem execRecallArrival {pkt : Packet} (h : Keeps deep s t) : Runs deep s (Machine.execRecallArrival pkt t) := by
  exact .next (takeOrder h fun  _ g => g.modTable.dirDel.settleHeld.sendOrder)

theorem execRecallAckArrival {pkt : Packet} (h : Keeps deep s t) : Runs deep s (Machine.execRecallAckArrival pkt t) := by
  exact .next (takeOrder h fun  _ g => g.modTable.settleTable)

theorem execReplicaUpdateArrival {pkt : Packet} (h : Keeps deep s t) : Runs deep s (Machine.execReplicaUpdateArrival pkt t) := by
  unfold Machine.execReplicaUpdateArrival
  dsimp only
  split
  · exact .next h.taken
  · exact by split; exacts [.next h.taken, .ite (.next h.taken) (.next h.taken.access.writeMem.modTable)]

/-! ### Sys2Proof/Machine/Partition.lean -/

theorem execPrtQuiesceSet {p : Nat} (h : Keeps deep s t) : Runs deep s (Machine.execPrtQuiesceSet p t) := .ite (.next h.setFld.setPstate) (.next h.setFld)

theorem execPrtQuiesceClear {p : Nat} (h : Keeps deep s t) : Runs deep s (Machine.execPrtQuiesceClear p t) := .ite (.next h.setFld.setPstate) (.next h.setFld)

theorem execPrtQuiescedEntry {p : Nat} (h : Keeps deep s t) : Runs deep s (Machine.execPrtQuiescedEntry p t) := by
  exact .ite (.next h.setPstate.setWinBit.sendMsix) (.next h)

theorem endStaged {k status : Nat} (h : Keeps deep s t) : Keeps deep s (t.endStaged k status) := by
  unfold State.endStaged
  split
  · exact h
  · exact postCompletion (ite h.putQueues.emit h.putQueues)

theorem arrAbandon {p : Nat} (h : Keeps deep s t) : Keeps deep s (t.arrAbandon p) := by
  exact foldl h.putArrWork.putAtokens.putArrays.putShares.modPart fun _ _ g => ite g.arrRelease g

theorem resetBegin {p : Nat} {scrub silent load : Bool} {coll exempt : Option Nat} (h : Keeps deep s t) :
    Keeps deep s (t.resetBegin p scrub silent load coll exempt) := by
  unfold State.resetBegin
  refine tableReset (corpusReset (bankReset (arrAbandon (foldl ?_ fun _ _ g => g.sendMsix))))
  refine modMem (modFab (modPart (foldl (putCtxs (foldl (foldl (foldl ?_ fun _ _ g => g.sendOrder) fun _ _ g => ?_) fun _ _ g => g.endStaged))
    fun _ _ g => g.refuseFabric)))
  · exact h.setPstate.setFld.setFld.setFld.modPart
  · exact ite g.complete g

theorem flowsReset {p : Nat} (h : Keeps deep s t) : Keeps deep s (t.flowsReset p) := by
  unfold State.flowsReset
  exact h.modFab

theorem resetReinit {p : Nat} (h : Keeps deep s t) : Keeps deep s (t.resetReinit p) := h.putQueues.modPart.flowsReset.setWin

theorem resetEnd {p : Nat} {r : ResetProg} (h : Keeps false s t) : Keeps false s (t.resetEnd p r) := by
  unfold State.resetEnd
  dsimp only
  split
  · exact ite h.modPart.setFld.setFld.setPstate.bump.setWinBit h.modPart.setFld.setFld.setPstate.bump.setWinBit.sendMsix
  · refine ite ?_ ?_
    · exact ite h.modPart.setFld.setFld.setPstate.bump.setWinBit h.modPart.setFld.setFld.setPstate.bump.setWinBit.sendMsix
    · exact doneColl (ite h.modPart.setFld.setFld.setPstate.bump.setWinBit h.modPart.setFld.setFld.setPstate.bump.setWinBit.sendMsix)

theorem resetGoOn {p : Nat} (h : Keeps false s t) : Keeps false s (t.resetGoOn p) := by
  unfold State.resetGoOn
  split
  · exact h
  · exact ite h (ite h.resetReinit.modPart h.resetReinit.resetEnd)

theorem askReset {p : Nat} {scrub silent : Bool} {coll : Option Nat} (h : Keeps deep s t) : Keeps deep s (t.askReset p scrub silent coll) := by
  refine ite h ?_
  split
  · exact h.setFld.modPart
  · exact ite h.setFld.modPart h.resetBegin

theorem releaseHeld (h : Keeps false s t) : Keeps false s t.releaseHeld := foldl h fun _ _ g => by split; exacts [ite g g.modPart.askReset.resetGoOn, g]

theorem requestReset {p : Nat} {scrub silent : Bool} {coll : Option Nat} (h : Keeps false s t) : Keeps false s (t.requestReset p scrub silent coll) := by
  exact h.askReset.resetGoOn.releaseHeld

theorem execPrtResetRequest {p value : Nat} (h : Keeps false s t) : Runs false s (Machine.execPrtResetRequest p value t) := by
  exact .next (resume (requestReset (ite h h.setFld)))

theorem execDrainAckArrival {src part gen seq : Nat} (h : Keeps false s t) : Runs false s (Machine.execDrainAckArrival src part gen seq t) := by
  refine .next ?_
  exact takeOrder h fun  _ g => by split; exacts [ite g.modPart.resetGoOn g, g]

theorem execDrainTimeout {p : Nat} (h : Keeps false s t) : Runs false s (Machine.execDrainTimeout p t) := by
  unfold Machine.execDrainTimeout
  split
  · exact .next h.modPart.bump.resetGoOn
  · exact .next h

theorem scrubData {p : Nat} (h : Keeps deep s t) : Keeps deep s (t.scrubData p) := by
  unfold State.scrubData
  refine foldl (foldl ?_ fun _ _ g => g.freeTensor) fun _ _ g => ?_
  · exact h.corpusScrub.tableScrub.windowsScrub.flashScrub.putBank.putModels.putOldModels.modMem
  · exact ite (g.modMem_wf fun _ w => wf_clear _ _ _ w) g.release

theorem execScrubDone {p : Nat} (h : Keeps false s t) : Runs false s (Machine.execScrubDone p t) := by
  unfold Machine.execScrubDone
  dsimp only
  split
  · exact .ite (.ite (.next h.scrubData.modPart) (.next h.scrubData.resetEnd.resume)) (.next h)
  · exact .next h

theorem execDrainOrderArrival {src part gen seq : Nat} (h : Keeps deep s t) : Runs deep s (Machine.execDrainOrderArrival src part gen seq t) := by
  refine .next ?_
  exact takeOrder h fun  _ g => resume (sendOrder (modEmb (putParts (foldl g fun _ _ g => ite g (by split; exacts [ite g.fail g.vent, g.fail])))))

theorem clearMsix {p : Nat} (h : Keeps deep s t) : Keeps deep s (t.clearMsix p) := h.putWinReg

theorem execVfFunctionLevelReset {port vf : Nat} (h : Keeps false s t) : Runs false s (Machine.execVfFunctionLevelReset port vf t) := by
  unfold Machine.execVfFunctionLevelReset
  split
  · exact .next h.clearMsix.requestReset.resume
  · exact .next h

theorem pfReset {port : Nat} {clearOnly : Bool} (h : Keeps false s t) : Keeps false s (t.pfReset port clearOnly) := by
  exact ite h (resume (foldl (ite h.putVfEn.requestReset h.putVfEn.clearMsix.requestReset) fun _ _ g => g.clearMsix.requestReset))

theorem execPfFunctionLevelReset {port : Nat} {clearOnly : Bool} (h : Keeps false s t) : Runs false s (Machine.execPfFunctionLevelReset port clearOnly t) := by
  exact .next h.pfReset

theorem execVfEnable {port numVfs : Nat} (h : Keeps false s t) : Runs false s (Machine.execVfEnable port numVfs t) := by
  exact .ite (.next h) (.next (resume (foldl h.putVfEn.putNumVfs fun _ _ g => g.requestReset)))

theorem execBar0BadAccess {pf offset : Nat} {write : Bool} (h : Keeps deep s t) : Runs deep s (Machine.execBar0BadAccess pf offset write t) := by
  exact .next h.accessErr.badRead

theorem execWindowBadAccess {p offset : Nat} {write : Bool} (h : Keeps deep s t) : Runs deep s (Machine.execWindowBadAccess p offset write t) := by
  exact .ite (.next h.badRead) (.next h.windowBad)

/-! ### Sys2Proof/Machine/FabColl.lean -/

theorem beginColl {p q cid op : Nat} {go : Nat → Rec → Nat → State → State} (h : Keeps false s t)
    (step : ∀ rid r id u, Keeps false s u → Keeps false s (go rid r id u)) : Keeps false s (t.beginColl p q cid op go) := by
  unfold State.beginColl
  split
  · exact h
  · dsimp only
    refine ite h ?_
    split
    · exact h.fail
    · refine ite h ?_
      split
      · exact ite h (ite h.modRec.modColl.failColl (step _ _ _ _ h.modRec.modColl))
      · exact step _ _ _ _ h.modRec.openColl

theorem execCollectiveBarrier {p q cid : Nat} (h : Keeps false s t) : Runs false s (Machine.execCollectiveBarrier p q cid t) := by
  exact .next (beginColl h fun _ _ _ _ g => g.doneColl)

theorem spreadData {id : Nat} {data : List Byte} (h : Keeps false s t) : Keeps false s (t.spreadData id data) := by
  unfold State.spreadData
  dsimp only
  split
  · exact ite h.sendKids.modColl.doneColl h.sendKids.modColl
  · exact h.sendKids.modColl

theorem execCollectiveBroadcastSend {p q cid : Nat} {data : List Byte} (h : Keeps false s t) :
    Runs false s (Machine.execCollectiveBroadcastSend p q cid data t) := by
  exact .next (beginColl h fun _ _ _ _ g => stepColl (modColl (ite g.readInput.spreadData g.readInput.sendColl)))

theorem execCollectiveBroadcastReceive {p q cid : Nat} (h : Keeps false s t) : Runs false s (Machine.execCollectiveBroadcastReceive p q cid t) := by
  unfold Machine.execCollectiveBroadcastReceive
  dsimp only
  exact .next (beginColl h fun _ _ _ _ g => by split; exacts [ite g.modColl.doneColl g.modColl, g.modColl])

theorem startResets {id mask : Nat} (h : Keeps false s t) : Keeps false s (t.startResets id mask) := by
  exact ite (doneColl (foldl h fun _ _ g => g.askReset)) (resume (foldl (foldl h fun _ _ g => g.askReset) fun _ _ g => g.resetGoOn))

theorem execCollectiveReset {p q cid : Nat} (h : Keeps false s t) : Runs false s (Machine.execCollectiveReset p q cid t) := by
  exact .next (beginColl h fun _ _ _ _ g => ite g.sendKids.startResets g.sendColl)

theorem execCollectiveSnapshot {p q cid : Nat} (h : Keeps false s t) : Runs false s (Machine.execCollectiveSnapshot p q cid t) := by
  exact .next (beginColl h fun _ _ _ _ g => ite g.snapBegin g.failColl)

theorem takeMessage {src kind id : Nat} (h : Keeps deep s t) : Keeps deep s (t.takeMessage src kind id) := by
  unfold State.takeMessage
  split
  · exact h.taken
  · exact h

theorem execCollectiveMessageArrival {src kind collId op count lost mask : Nat} {data : List Byte} (h : Keeps false s t) :
    Runs false s (Machine.execCollectiveMessageArrival src kind collId op count lost mask data t) := by
  unfold Machine.execCollectiveMessageArrival
  dsimp only
  refine .ite (.next h) ?_
  refine .ite ?_ ?_
  · split
    · exact .next h.takeMessage.failColl
    · exact .next (foldl h.takeMessage fun _ _ g => g.sendColl)
  · split
    · exact .next (ite h.takeMessage h.takeMessage.openColl)
    · refine .ite (.next (failColl (ite h.takeMessage h.takeMessage.openColl))) ?_
      refine .ite (.next (stepColl (modColl (ite h.takeMessage h.takeMessage.openColl)))) ?_
      refine .ite (.next (endColl (ite h.takeMessage h.takeMessage.openColl))) ?_
      refine .ite ?_ ?_
      · refine .ite ?_ ?_
        · exact .next (startResets (sendKids (ite h.takeMessage h.takeMessage.openColl)))
        · exact .next (sendColl (ite h.takeMessage h.takeMessage.openColl))
      · refine .ite ?_ ?_
        · exact .next (startResets (sendKids (ite h.takeMessage h.takeMessage.openColl)))
        · refine .ite ?_ ?_
          · refine .ite (.next (spreadData (ite h.takeMessage h.takeMessage.openColl))) ?_
            exact .next (sendColl (ite h.takeMessage h.takeMessage.openColl))
          · exact .ite (.next (spreadData (ite h.takeMessage h.takeMessage.openColl))) (.next (ite h.takeMessage h.takeMessage.openColl))

theorem execCollectiveTimeout {collId : Nat} (h : Keeps false s t) : Runs false s (Machine.execCollectiveTimeout collId t) := by
  unfold Machine.execCollectiveTimeout
  split
  · exact .next h
  · exact .ite (.next h.failColl) (.next h)

theorem failRequest {seq status : Nat} (h : Keeps deep s t) : Keeps deep s (t.failRequest seq status) := by
  unfold State.failRequest
  split
  · exact h
  · split
    · exact h.endRequest
    · refine ite h.endRequest.shardFailed.resume (ite (ite h.endRequest.fail.settleTable h.endRequest) ?_)
      refine ite (ite h.endRequest.fail.settleTable h.endRequest) (ite (ite h.endRequest.modMem.failP h.endRequest.modMem) ?_)
      exact ite h.endRequest.fail h.endRequest

theorem execFabricRefuseArrival {pkt : Packet} (h : Keeps deep s t) : Runs deep s (Machine.execFabricRefuseArrival pkt t) := by
  exact .ite (.next h.taken) (.ite (.next h.taken.discardLate) (.next h.taken.failRequest))

theorem execE2eTimeout {seq : Nat} (h : Keeps deep s t) : Runs deep s (Machine.execE2eTimeout seq t) := by
  unfold Machine.execE2eTimeout
  split
  · exact .next h
  · exact .ite (.next h.bump.failRequest) (.next h)

theorem execFabLaneEqWrite {lane : Nat} {value : Word} {pf : Nat} (h : Keeps deep s t) : Runs deep s (Machine.execFabLaneEqWrite lane value pf t) := by
  exact .ite (.next h) (.ite (.next h.modFab.writeFields) (.next h.writeFields.modFab))

theorem execRouteWeightTick (h : Keeps deep s t) : Runs deep s (execRouteWeightTick t) := by
  refine .next (modFab (ite h (foldl h fun _ _ g => foldl g fun _ _ g => ?_)))
  split
  · exact g
  · exact g.modLink

/-! ### Sys2Proof/Machine/Faults.lean -/

theorem requeue {rid : Nat} (h : Keeps deep s t) : Keeps deep s (t.requeue rid) := by
  unfold State.requeue
  split
  · exact h
  · exact ite h (by split; exacts [h.vent, ite h.cutShort h.modRec.modFlt.bump])

theorem heldOn {n : Nat} (h : Keeps deep s t) : Keeps deep s (t.heldOn n).2 := h.putFree

theorem abortClusterless (h : Keeps deep s t) : Keeps deep s t.abortClusterless := foldl h fun _ _ g => g.cutShort

theorem restartList {u lid : Nat} {l : SelList} (h : Keeps deep s t) : Keeps deep s (t.restartList u lid l) := by
  unfold State.restartList
  split
  · exact h.selOpen
  · exact ite h.modQuery.selOpen (ite h.modQuery.selOpen h.selOpen)

theorem moveLists {u : Nat} {home : Nat → Nat} (h : Keeps deep s t) : Keeps deep s (t.moveLists u home) := by
  exact foldl (ite h.modSel h.modSel.bump) fun _ _ g => g.restartList

theorem fenceSel {u : Nat} (h : Keeps deep s t) : Keeps deep s (t.fenceSel u) := by
  unfold State.fenceSel
  exact resume (foldl h.moveLists.selServe fun _ _ g => g.requeue)

theorem fenceCluster {n : Nat} (h : Keeps deep s t) : Keeps deep s (t.fenceCluster n) := by
  unfold State.fenceCluster
  dsimp only
  exact resume (abortClusterless (foldl h.heldOn.moveLists.moveLists fun _ _ g => g.requeue))

theorem moveArrWork {a : Nat} {u : ArrUnit} {p : Nat} (h : Keeps deep s t) : Keeps deep s (t.moveArrWork a u p) := by
  unfold State.moveArrWork
  dsimp only
  split
  · have moved := fun (b : Nat) (f : ArrUnit → ArrUnit) (rids : List Nat) =>
      newWork (s0 := t) (foldl (l := rids) (f := fun t rid => t.addArrWork p rid) (h.modArr (a := b) (f := f)) fun _ _ g => g.addArrWork)
    exact arrGo (foldl (ite (moved _ _ _) (moved _ _ _).bump) fun _ _ g => g.requeue)
  · exact h.putAtokens

theorem fenceBuilds {a : Nat} {o : Option Nat} (h : Keeps deep s t) : Keeps deep s (t.fenceBuilds a o) := foldl h fun _ _ g => ite g.fail (ite g.bump.requeue g)

theorem fenceArray {a : Nat} (h : Keeps deep s t) : Keeps deep s (t.fenceArray a) := by
  unfold State.fenceArray
  exact resume (fenceBuilds (foldl (foldl h.modArr.arrRelease.modShare.powerDomain.setFld fun _ _ g => g.moveArrWork) fun _ _ g => g.cutShort))

theorem fenceEngine {c : Nat} (h : Keeps deep s t) : Keeps deep s (t.fenceEngine c) := ite h (foldl h.bankFence fun _ _ g => g.requeue)

theorem damageObjects {a len : Nat} (h : Keeps deep s t) : Keeps deep s (t.damageObjects a len) := by
  have damaged : ∀ (hit : List (Nat × Alloc)) (m : MemSys), m.wf = true →
      (hit.foldl (fun (d : MemSys) x => d.damage (max a x.1) (min (a + len) (x.1 + x.2.len) - max a x.1)) m).wf = true := by
    intro hit
    induction hit with
    | nil => exact fun _ w => w
    | cons x hit ih => exact fun m w => ih _ (wf_damage m _ _ w)
  exact h.modMem_wf (damaged _)

theorem fenceChannel {c : Nat} (h : Keeps deep s t) : Keeps deep s (t.fenceChannel c) := by
  exact bankStart (foldl (modChan (ite h.damageObjects.modChan h.damageObjects.modChan.bankFence)) fun _ _ g => g.requeue)

theorem enterHoldover {src : Nat} (h : Keeps false s t) : Keeps false s (t.enterHoldover src) := ite h h.setFld.setFld.setFld.modUnit.reportFence.logAppend

theorem isolate {kind unit : Nat} (h : Keeps deep s t) : Keeps deep s (t.isolate kind unit) := by
  unfold State.isolate
  dsimp only
  refine ite (foldl h.heldOn fun _ _ g => g.requeue) (ite h.fenceSel (ite (foldl h.heldOn fun _ _ g => g.requeue) ?_))
  exact ite h.fenceCluster (ite h.fenceArray (ite h.fenceEngine h.fenceChannel))

theorem fenceOne {src kind unit : Nat} (h : Keeps false s t) : Keeps false s (t.fenceOne src kind unit) := h.modUnit.isolate.reportFence

theorem fenceUnit {src kind unit : Nat} (h : Keeps false s t) : Keeps false s (t.fenceUnit src kind unit) := by
  exact ite h (ite (ite h.fenceOne.fenceOne h.fenceOne) (ite h.fenceLane (ite h.fenceLun (ite h.enterHoldover h))))

theorem execStallDetectorTimeout {kind unit : Nat} (h : Keeps false s t) : Runs false s (Machine.execStallDetectorTimeout kind unit t) := by
  exact .ite (.next h.losePool) (.ite (.next h.fenceUnit) (.next h))

theorem execParityError {kind unit : Nat} (h : Keeps false s t) : Runs false s (Machine.execParityError kind unit t) := by
  exact .ite (.next h.losePool) (.ite (.next h.fenceUnit) (.next h))

theorem eccContained {kind unit rid addr : Nat} (h : Keeps deep s t) : Keeps deep s (t.eccContained kind unit rid addr) := by
  unfold State.eccContained
  split
  · exact h.event
  · exact ite h.event.cutShort h.event.modRec

theorem eccMemory {kind unit rid addr : Nat} (h : Keeps false s t) : Keeps false s (t.eccMemory kind unit rid addr) := by
  exact ite (ite h.modMem.event.modFlt.fenceUnit h.modMem.event.modFlt) h.modMem.event

theorem eccEngine {unit rid addr : Nat} (h : Keeps deep s t) : Keeps deep s (t.eccEngine unit rid addr) := ite h.modMem h.modMem.event

theorem eccFlash {what addr : Nat} (h : Keeps deep s t) : Keeps deep s (t.eccFlash what addr) := by
  unfold State.eccFlash
  dsimp only
  split
  · exact h
  · have read := fun f => h.bump (off := cFtlRetryReads) (n := 1) |>.modFlash (f := f)
    have found : ∀ f (c d : Prop) [Decidable c] [Decidable d] lun b g a n m x y z w v u, Keeps deep s (
        if c then ((t.bump cFtlRetryReads 1).modFlash f).relocate a
        else if d then (((((t.bump cFtlRetryReads 1).modFlash f).modFlash g).bump n m).relocate lun).event x y z w v u b
        else (((t.bump cFtlRetryReads 1).modFlash f).modFlash g).modMem (fun m => m.damage (addr / 16384 * 16384) 16384)) :=
      fun _ _ _ _ _ _ _ _ _ _ _ _ _ _ _ _ _ => ite (read _).relocate (ite (read _).modFlash.bump.relocate.event (read _).modFlash.modMem)
    exact ite (retireBlock (found ..)) (found ..)

theorem execEccError {kind unit what rid addr : Nat} (h : Keeps false s t) : Runs false s (Machine.execEccError kind unit what rid addr t) := by
  refine .ite (.next h) (.ite (.next h.eccFlash) (.ite (.next h.event) (.ite (.next h.losePool) ?_)))
  refine .ite (.next (ite h.fatalStop h.eccContained)) (.ite (.ite (.next h.eccMemory) (.next h.fenceUnit)) ?_)
  exact .ite (.next (ite h.eccEngine h.eccContained)) (.next h.fenceUnit)

theorem execTierAChannelFence {c : Nat} (h : Keeps false s t) : Runs false s (Machine.execTierAChannelFence c t) := .next h.fenceUnit

theorem execTierBChannelLost {c : Nat} (h : Keeps false s t) : Runs false s (Machine.execTierBChannelLost c t) := by
  exact .ite (.next h) (.next h.modUnit.modMem.reportFence)

theorem execDieLinkLost {link : Nat} (h : Keeps false s t) : Runs false s (Machine.execDieLinkLost link t) := .next h.fatalStop

theorem putUnitCtl {op kind unit : Nat} {busy : Bool} (h : Keeps deep s t) : Keeps deep s (t.putUnitCtl op kind unit busy) := h.setReg

theorem selectOnly {op kind unit : Nat} (h : Keeps deep s t) : Keeps deep s (t.selectOnly op kind unit) := ite h h.putUnitCtl

theorem opResult {kind unit : Nat} {failed : Bool} (h : Keeps false s t) : Keeps false s (t.opResult kind unit failed) := h.modUnit

theorem declare {src kind unit : Nat} (h : Keeps false s t) : Keeps false s (t.declare src kind unit) := ite h.losePool h.fenceUnit

theorem execUnitDeclare {kind unit : Nat} (h : Keeps false s t) : Runs false s (Machine.execUnitDeclare kind unit t) := by
  exact .ite (.next h.selectOnly) (.ite (.next h.putUnitCtl.declare.opResult) (.next h.putUnitCtl.opResult))

theorem execUnitInject {kind unit : Nat} (h : Keeps false s t) : Runs false s (Machine.execUnitInject kind unit t) := by
  exact .ite (.next h.selectOnly) (.ite (.next h.putUnitCtl.declare.opResult) (.next h.putUnitCtl.opResult))

theorem execUnitRestore {kind unit : Nat} (h : Keeps false s t) : Runs false s (Machine.execUnitRestore kind unit t) := by
  exact .ite (.next h.selectOnly) (.ite (.next h.putUnitCtl.modUnit) (.next h.putUnitCtl.opResult))

theorem restoreEngines {c : Nat} (h : Keeps deep s t) : Keeps deep s (t.restoreEngines c) := ite h (bankStart (ite h.modChan h.modChan.modChan.bump))

theorem restored {kind unit : Nat} (h : Keeps deep s t) : Keeps deep s (t.restored kind unit) := by
  refine ite h.selServe (ite h.resume (ite h.modShare.setFld.resume (ite h.restoreEngines ?_)))
  exact ite (ite h.hide.modFlt.modChan h.hide.modFlt.restoreEngines) h

theorem execUnitRestoreDone {kind unit : Nat} {pass : Bool} (h : Keeps false s t) : Runs false s (Machine.execUnitRestoreDone kind unit pass t) := by
  exact .ite (.next h) (.ite (.next h.setFld.modUnit.bump.event.restored) (.next h.setFld.modUnit.event))

theorem execFltEvtPop {pf : Nat} (h : Keeps deep s t) : Runs deep s (Machine.execFltEvtPop pf t) := .ite (.next h) (.ite (.next h.modFlt) (.next h.modFlt))

theorem execCtrClearOne {block offset : Nat} (h : Keeps deep s t) : Runs deep s (Machine.execCtrClearOne block offset t) := by
  exact .ite (.next h) (.ite (.next h) (.next h.setCtr.setFld))

theorem execCtrClearAll {block : Nat} (h : Keeps deep s t) : Runs deep s (Machine.execCtrClearAll block t) := .ite (.next h) (.next h.putCtrs.setReg)

theorem execSnpTrigger (h : Keeps deep s t) : Runs deep s (Machine.execSnpTrigger t) := .ite (.next h) (.next h.drogue)

theorem execSnpArm (h : Keeps deep s t) : Runs deep s (Machine.execSnpArm t) := .ite (.next h) (.next h.modFlt.setFld.setReg.setReg)

theorem execSnpViewWrite {pf : Nat} {view : Bool} (h : Keeps deep s t) : Runs deep s (Machine.execSnpViewWrite pf view t) := .ite (.next h) (.next h.setFldPf)

/-! ### Sys2Proof/Machine/Load.lean -/

theorem setProgress {rid n : Nat} (h : Keeps deep s t) : Keeps deep s (t.setProgress rid n) := h.modRec

theorem noteReject {bs : List Byte} {e : ImgErr} (h : Keeps deep s t) : Keeps deep s (t.noteReject bs e) := h.setReg.setFld.logImage

theorem rejectLoad {p rid : Nat} {bs : List Byte} {e : ImgErr} (h : Keeps false s t) : Keeps false s (t.rejectLoad p rid bs e) := by
  unfold State.rejectLoad
  exact resume (releaseHeld (complete (by split; exacts [ite h.setReg.setFld.settleEntry.logImage.dropLoad h.noteReject, h.noteReject])))

theorem setOwnedFld {off : Nat} {f : Fld} {v : Nat} (h : Keeps deep s t) : Keeps deep s (t.setOwnedFld off f v) := h.setFld.putOwned

theorem disown {keys : Nat → Bool} (h : Keeps deep s t) : Keeps deep s (t.disown keys) := h.putOwned

theorem clearPartRegs {p : Nat} {keep : Option Nat} (h : Keeps deep s t) : Keeps deep s (t.clearPartRegs p keep) := by
  refine ite (putQueues (setFld (setFld (foldl h fun _ _ g => g.setReg)))) ?_
  exact putWinReg (putQueues (setFld (setFld (foldl h fun _ _ g => g.setReg))))

theorem placeLoad {bs : List Byte} {areas : List (Nat × Nat × Nat)} (h : Keeps deep s t) : Keeps deep s (t.placeLoad bs areas) := by
  have cleared : ∀ {v : State} {a len : Nat}, Keeps deep s v → Keeps deep s (v.modMem fun m => m.clear a len) := fun g => g.modMem_wf fun _ w =>
      wf_clear _ _ _ w
  unfold State.placeLoad
  refine foldl (putCorpora (foldl (foldl h.liftAreas fun _ _ g => ?_) fun _ _ g => ?_)) fun _ _ g => ?_
  · exact ite g (cleared g)
  · exact putArea (ite g (cleared g))
  · exact ite g.modChan (ite g.modCorpus g)

theorem ringTensor {p : Nat} (h : Keeps deep s t) : Keeps deep s (t.ringTensor p) := by
  unfold State.ringTensor
  dsimp only
  split
  · exact by split; exacts [h.modMem, h]
  · exact modMem (by split; exacts [h.modMem, h])

theorem assignChannels {bs : List Byte} {old : Nat → Nat} {ps : List (Nat × PartCfg)} (h : Keeps deep s t) : Keeps deep s (t.assignChannels bs old ps) := by
  refine foldl h fun _ _ g => ?_
  refine ite g ?_
  refine ite ?_ ?_
  · refine ite ?_ ?_
    · split
      · exact g.disown.setOwnedFld.setOwnedFld.setOwnedFld
      · exact g.disown.setOwnedFld.setOwnedFld.setFld
    · refine chanBack ?_
      split
      · exact g.disown.setOwnedFld.setOwnedFld.setOwnedFld
      · exact g.disown.setOwnedFld.setOwnedFld.setFld
  · refine modChan ?_
    refine ite ?_ ?_
    · split
      · exact g.disown.setOwnedFld.setOwnedFld.setOwnedFld
      · exact g.disown.setOwnedFld.setOwnedFld.setFld
    · refine chanBack ?_
      split
      · exact g.disown.setOwnedFld.setOwnedFld.setOwnedFld
      · exact g.disown.setOwnedFld.setOwnedFld.setFld

theorem assignArrays {bs : List Byte} (h : Keeps deep s t) : Keeps deep s (t.assignArrays bs) := by
  refine foldl h fun _ _ g => ?_
  refine ite ?_ ?_
  · split
    · exact ite g g.arrRelease.modArr
    · exact g
  · refine powerDomain (modShare ?_)
    split
    · exact ite g g.arrRelease.modArr
    · exact g

theorem assignTrims {bs : List Byte} {rs : List BRec} (h : Keeps deep s t) : Keeps deep s (t.assignTrims bs rs) := by
  exact foldl h fun _ _ g => foldl g fun _ _ g => ite g (ite g g.modTrim)

theorem assignCal {rs : List BRec} (h : Keeps deep s t) : Keeps deep s (t.assignCal rs) := foldl h fun _ _ g => ite g.setCal.putOwned.setFld g.setCal.putOwned

theorem assignGates {rs : List BRec} (h : Keeps deep s t) : Keeps deep s (t.assignGates rs) := by
  unfold State.assignGates
  exact h.modFab

theorem assignNode {bs : List Byte} {rs : List BRec} (h : Keeps false s t) : Keeps false s (t.assignNode bs rs) := by
  unfold State.assignNode
  dsimp only
  refine ite h.assignTrims ?_
  split
  · refine assignGates (assignCal (assignTrims ?_))
    split
    · exact h.putOwned.setOwnedFld.setLimit
    · exact h.putOwned
  · refine ite ?_ ?_
    · refine setOwnedFld (setOwnedFld (setOwnedFld (assignGates (assignCal (assignTrims ?_)))))
      split
      · exact h.putOwned.setOwnedFld.setLimit
      · exact h.putOwned
    · refine rejoin (setOwnedFld (setOwnedFld (setOwnedFld (assignGates (assignCal (assignTrims ?_))))))
      split
      · exact h.putOwned.setOwnedFld.setLimit
      · exact h.putOwned

theorem applyImage {rid : Nat} {bs : List Byte} {rs : List BRec} {skipped : Nat} {areas : List (Nat × Nat × Nat)} (h : Keeps false s t) :
    Keeps false s (t.applyImage rid bs rs skipped areas) := by
  have serial : ∀ {v : State} {c : Prop} [Decidable c] {a : Nat} {w : Word}, Keeps false s v → Keeps false s (if c then v.setReg a w else v) :=
    fun g => ite g.setReg g
  have settled : ∀ {v : State} {o : Option Load}, Keeps false s v → Keeps false s (match o with | some l => v.settleEntry l.entry 0 | none => v) := by
    intro v o g
    cases o with
    | none => exact g
    | some l => exact g.settleEntry
  unfold State.applyImage
  refine logImage (settled (serial (setFld (setFld (setFld (setFld (foldl ?_ ?_)))))))
  · refine assignArrays (foldl (placeLoad (assignChannels (assignNode (putQueues (foldl ?_ ?_))))) fun _ _ g => g.ringTensor)
    · refine foldl (foldl ?_ fun _ _ g => g.clearPartRegs) fun _ _ g => g.modPart
      exact foldl (foldl h fun _ _ g => g.scrubData) fun _ _ g => g.flowsReset
    · exact fun _ _ g => g.flowsReset
  · exact fun _ _ g => ite g.setPstate g

theorem finishLoad {p rid : Nat} {bs : List Byte} (h : Keeps deep s t) : Keeps deep s (t.finishLoad p rid bs) := h.dropLoad.done

theorem beginFull {p rid : Nat} (h : Keeps deep s t) : Keeps deep s (t.beginFull p rid) := foldl h fun _ _ g => by split; exacts [g.modPart, g.resetBegin]

theorem freeResets {only : Nat → Bool} (h : Keeps false s t) : Keeps false s (t.freeResets only) := by
  refine foldl h fun _ _ g => ?_
  split
  · exact ite g.modPart.resetGoOn g
  · exact g

theorem applyFull {p rid : Nat} {bs : List Byte} {rs : List BRec} {skipped : Nat} {areas : List (Nat × Nat × Nat)} (h : Keeps false s t) :
    Keeps false s (t.applyFull p rid bs rs skipped areas) := by
  unfold State.applyFull
  exact h.applyImage.freeResets.finishLoad.freeResets

theorem measureLoad {p rid : Nat} {bs : List Byte} (h : Keeps false s t) : Keeps false s (t.measureLoad p rid bs) := by
  refine ite h.measure.putLoad.setFld.modRec.setProgress (ite h.measure.putLoad.setFld.modRec.setProgress.rejectLoad ?_)
  refine ite h.measure.putLoad.setFld.modRec.setProgress.rejectLoad ?_
  split
  · exact h.measure.putLoad.setFld.modRec.setProgress.rejectLoad
  · exact foldl h.measure.putLoad.setFld.modRec.setProgress fun _ _ g => ite g g.setPstate.modPart

theorem execBridleLoad {p q cid : Nat} {image : List Byte} (h : Keeps false s t) : Runs false s (Machine.execBridleLoad p q cid image t) := by
  unfold Machine.execBridleLoad
  dsimp only
  split
  · refine .ite (.next h) (.ite (.next h.rejectLoad) ?_)
    split
    · exact .next h.fail
    · refine .ite (.next h.rejectLoad) ?_
      split
      · exact .next h.readInput.rejectLoad
      · exact .next h.readInput.measureLoad
  · split
    · refine .ite (.next h) ?_
      refine .ite ?_ ?_
      · split
        · exact .ite (.next h.applyFull.resume) (.next h)
        · exact .next h
      · split
        · exact .next h.setProgress.rejectLoad
        · refine .ite (.next h.setProgress.applyImage.finishLoad.releaseHeld.resume) ?_
          exact .ite (.next h.setProgress.putLoad.beginFull.applyFull.resume) (.next h.setProgress.putLoad.beginFull)
    · exact .next h.lateEnd

/-! ### Sys2Proof/Machine/Logbook.lean -/

theorem execLogMirror (h : Keeps deep s t) : Runs deep s (Machine.execLogMirror t) := .next h.setFld

theorem addReg {off n : Nat} (h : Keeps deep s t) : Keeps deep s (t.addReg off n) := h.setReg

theorem addBins {reg : Nat → Nat} {secs : List Nat} (h : Keeps deep s t) : Keeps deep s (t.addBins reg secs) := foldl h fun _ _ g => g.addReg

theorem execLogHourly {temps volts : List Nat} (h : Keeps deep s t) : Runs deep s (Machine.execLogHourly temps volts t) := by
  exact .next (modFlt (foldl h.logAppend.addBins.addBins fun _ _ g => g.logAppend))

theorem execLogRead {p q cid : Nat} (h : Keeps deep s t) : Runs deep s (Machine.execLogRead p q cid t) := by
  unfold Machine.execLogRead
  dsimp only
  split
  · exact .next h.lateEnd
  · exact .ite (.next h) (by split; exacts [.next h.fail, .next h.complete])

/-! ### Sys2Proof/Machine/Secure.lean -/

theorem extGo {pf : Nat} (h : Keeps deep s t) : Keeps deep s (t.extGo pf) := ite h.setFld.measure h.setFld.setFld

theorem enrollGo (h : Keeps false s t) : Keeps false s t.enrollGo := ite h.setFld.setFld (h.setFld.measure.setFld.putSec fun e => nomatch e)

theorem writeExtCtl {pf : Nat} {value : Word} (h : Keeps deep s t) : Keeps deep s (t.writeExtCtl pf value) := ite h.writeFields.extGo h.writeFields

theorem writeEnrollCtl {pf : Nat} {value : Word} (h : Keeps false s t) : Keeps false s (t.writeEnrollCtl pf value) := ite h.writeFields.enrollGo h.writeFields

theorem writePolicy {pf : Nat} {value : Word} (h : Keeps deep s t) : Keeps deep s (t.writePolicy pf value) := by
  unfold State.writePolicy
  exact writeFields (ite h.measure h)

theorem execSecExtend {pf : Nat} {value : Word} (h : Keeps deep s t) : Runs deep s (Machine.execSecExtend pf value t) := .ite (.next h) (.next h.writeExtCtl)

theorem execSecEnroll {pf : Nat} {value : Word} (h : Keeps false s t) : Runs false s (Machine.execSecEnroll pf value t) := .ite (.next h) (.next h.writeEnrollCtl)

theorem execSecRevoke {pf : Nat} {value : Word} (h : Keeps false s t) : Runs false s (Machine.execSecRevoke pf value t) := .ite (.next h) (.next h.writeEnrollCtl)

theorem execRequireSigSet {pf : Nat} {value : Word} (h : Keeps deep s t) : Runs deep s (Machine.execRequireSigSet pf value t) := by
  exact .ite (.next h) (.next h.writePolicy)

theorem report {nonce : List Byte} {first max : Nat} (h : Keeps deep s t) : Keeps deep s (t.report nonce first max).2.2 := by
  unfold State.report
  dsimp only
  exact h.sign

theorem attested {ps : List Byte} (h : Keeps deep s t) : Keeps deep s (t.attested ps).2.2 := by
  unfold State.attested
  split
  · exact h
  · exact h.report

theorem attest {p rid : Nat} {r : Rec} (h : Keeps deep s t) : Keeps deep s (t.attest p rid r) := by
  unfold State.attest
  split
  · exact h.fail
  · exact ite (ite h (ite h.fail h.attested.complete)) (ite h.fail h.sendRequest.modRec)

theorem execAttestReport {p q cid : Nat} (h : Keeps deep s t) : Runs deep s (Machine.execAttestReport p q cid t) := by
  unfold Machine.execAttestReport
  split
  · exact .ite (.next h) (.next h.attest)
  · exact .next h

theorem execAttestCertChain {p q cid : Nat} (h : Keeps deep s t) : Runs deep s (Machine.execAttestCertChain p q cid t) := by
  unfold Machine.execAttestCertChain
  split
  · exact .ite (.next h.attest) (.next h)
  · exact .next h

theorem execRemoteAttestRequest {pkt : Packet} (h : Keeps deep s t) : Runs deep s (Machine.execRemoteAttestRequest pkt t) := by
  exact .ite (.next h) (.ite (.next h.taken.answer) (.next h.taken.attested.answer))

theorem execRemoteAttestResponse {pkt : Packet} (h : Keeps deep s t) : Runs deep s (Machine.execRemoteAttestResponse pkt t) := by
  unfold Machine.execRemoteAttestResponse
  dsimp only
  refine .ite (.next h.taken) (.ite (.next h.taken.discardLate) ?_)
  split
  · exact .next h.taken
  · refine .ite (.next h.taken) ?_
    split
    · exact .next h.taken.endRequest
    · exact .ite (.next h.taken.endRequest.fail) (.ite (.next h.taken.endRequest.fail) (.next h.taken.endRequest.complete))

theorem smbAnswer {m : SmbMsg} (h : Keeps deep s t) : Keeps deep s (t.smbAnswer m) := ite h.putSmb h

theorem spdm {m : SmbMsg} (h : Keeps deep s t) : Keeps deep s (t.spdm m) := ite h h.smbAnswer

theorem spdmSign {nonce : List Byte} (h : Keeps deep s t) : Keeps deep s (t.spdmSign nonce).2 := h.sign

theorem execSpdmGetVersion (h : Keeps deep s t) : Runs deep s (Machine.execSpdmGetVersion t) := .next h.smbAnswer

theorem execSpdmGetCapabilities (h : Keeps deep s t) : Runs deep s (Machine.execSpdmGetCapabilities t) := .next h.spdm

theorem execSpdmNegotiateAlgorithms (h : Keeps deep s t) : Runs deep s (Machine.execSpdmNegotiateAlgorithms t) := .next h.spdm

theorem execSpdmGetDigests (h : Keeps deep s t) : Runs deep s (Machine.execSpdmGetDigests t) := .next h.spdm

theorem execSpdmGetCertificate {slot offset length : Nat} (h : Keeps deep s t) : Runs deep s (Machine.execSpdmGetCertificate slot offset length t) := by
  exact .ite (.next h.spdm) (.next h.spdm)

theorem execSpdmChallenge {slot : Nat} {nonce : List Byte} (h : Keeps deep s t) : Runs deep s (Machine.execSpdmChallenge slot nonce t) := by
  unfold Machine.execSpdmChallenge
  dsimp only
  exact .ite (.next h.spdm) (.ite (.next h.spdm) (.next h.spdmSign.spdm))

theorem execSpdmGetMeasurements {index : Nat} {nonce : List Byte} (h : Keeps deep s t) : Runs deep s (Machine.execSpdmGetMeasurements index nonce t) := by
  unfold Machine.execSpdmGetMeasurements
  dsimp only
  exact .ite (.next h.spdm) (.ite (.next h) (.ite (.next h.spdm) (.next h.spdmSign.spdm)))

theorem execSpdmVendorDefinedRequest {data : List Byte} (h : Keeps deep s t) : Runs deep s (Machine.execSpdmVendorDefinedRequest data t) := by
  exact .ite (.next h.spdm) (.ite (.next h.spdm) (.next h.attested.spdm))

theorem execSpdmUnsupportedRequest {code : Nat} (h : Keeps deep s t) : Runs deep s (Machine.execSpdmUnsupportedRequest code t) := .next h.spdm

theorem execMctpControlMessage {data : List Byte} (h : Keeps deep s t) : Runs deep s (Machine.execMctpControlMessage data t) := .next h.smbAnswer

theorem execMctpUnsupportedMessage {mtype : Nat} (h : Keeps deep s t) : Runs deep s (Machine.execMctpUnsupportedMessage mtype t) := .next h.smbAnswer

/-! ### Sys2Proof/Machine/Trim.lean -/

theorem trimDrogue {loop unit : Nat} (h : Keeps deep s t) : Keeps deep s (t.trimDrogue loop unit) := ite h.drogue h

theorem trimAct {loop unit kind : Nat} {out : ℤ} (h : Keeps deep s t) : Keeps deep s (t.trimAct loop unit kind out) := by
  exact ite h.modTrim.bumpCopy.trimDrogue h.modTrim.bumpCopy

theorem trimAtLimit {loop unit : Nat} (h : Keeps deep s t) : Keeps deep s (t.trimAtLimit loop unit) := ite h h.modTrim.trimDrogue

theorem trimTo {loop unit : Nat} {raw : ℤ} (h : Keeps deep s t) : Keeps deep s (t.trimTo loop unit raw) := by
  exact ite h.trimAct.trimAtLimit (ite h.trimAct.trimAtLimit (ite h h.trimAct))

theorem trimInput {loop unit : Nat} {v : ℤ} (h : Keeps deep s t) : Keeps deep s (t.trimInput loop unit v) := h.modTrim

theorem voltLoop {excess : ℤ} {rates : List Nat} (h : Keeps deep s t) : Keeps deep s (t.voltLoop excess rates) := by
  refine foldl (foldl (ite ?_ ?_) fun _ _ g => ite g g.trimTo) fun _ _ g => g.setFld
  · exact foldl h fun _ _ g => g.trimTo
  · exact foldl h fun _ _ g => ite g.trimTo (ite g.trimTo g)

theorem backstop {pkg10 : Nat} (h : Keeps false s t) : Keeps false s (t.backstop pkg10) := ite (ite h.setFld h) (ite h.putBoard.setFld.setFld h)

theorem floorMiss (h : Keeps false s t) : Keeps false s t.floorMiss := ite h.setFld h.setFld.putBoard.setFld

theorem noteSlack {d raw : Nat} (h : Keeps false s t) : Keeps false s (t.noteSlack d raw) := h.putBoard.setFld.setFld

theorem execVoltageTrimTick {rates powers : List Nat} {pkg1 pkg10 : Nat} {slacks : List Nat} (h : Keeps false s t) :
    Runs false s (Machine.execVoltageTrimTick rates powers pkg1 pkg10 slacks t) := by
  refine .next ?_
  refine ite ?_ ?_
  · refine floorMiss (backstop (voltLoop (setFld (setFld ?_))))
    exact foldl h fun _ _ g => ite g.setFld.setFld.trimInput.noteSlack g.setFld.setFld.trimInput
  · exact backstop (voltLoop (setFld (setFld (foldl h fun _ _ g => ite g.setFld.setFld.trimInput.noteSlack g.setFld.setFld.trimInput))))

theorem eqMove {lane k : Nat} {up : Bool} (h : Keeps deep s t) : OnSome deep s (t.eqMove lane k up) id := by
  unfold State.eqMove
  exact .ite (.ite .none (.some (ite h.modTrim.setFld h.modTrim))) (.ite .none (.ite .none (.some h.setFld)))

theorem eqAct {lane kind : Nat} {old : ℤ} (h : Keeps deep s t) : Keeps deep s (t.eqAct lane kind old) := by
  unfold State.eqAct
  exact h.trimAct.modTrim

theorem eqTrial {lane r n : Nat} (h : Keeps deep s t) : OnSome deep s (t.eqTrial lane r n) Prod.snd := by
  induction n generalizing r with
  | zero => exact .none
  | succ n ih =>
    unfold State.eqTrial
    split
    · exact .some (h.eqMove _ ‹_›)
    · exact ih

theorem execEqualisationTrimTick {lane height width : Nat} (h : Keeps deep s t) : Runs deep s (Machine.execEqualisationTrimTick lane height width t) := by
  have limited : ∀ {v : State} {c : Prop} [Decidable c], Keeps deep s v → Keeps deep s (if c then v.trimAtLimit 1 lane else v) := fun g => ite g.trimAtLimit g
  unfold Machine.execEqualisationTrimTick
  refine .ite (.next h) (.ite (.next (trimInput (ite h.setReg h.setReg))) ?_)
  refine .ite (.next (modTrim (eqAct (OnSome.getD (eqMove ?_) ?_)))) (.ite ?_ (.ite ?_ (.next (modTrim ?_))))
  iterate 2 exact limited (trimInput (ite h.setReg h.setReg))
  · split
    · rename_i e
      exact .next (modTrim (eqAct (eqTrial (limited (trimInput (ite h.setReg h.setReg))) _ e)))
    · exact .next (modTrim (limited (trimInput (ite h.setReg h.setReg))))
  · split
    · rename_i e
      exact .next (modTrim (eqAct (eqMove (limited (trimInput (ite h.setReg h.setReg))) _ e)))
    · exact .next (modTrim (limited (trimInput (ite h.setReg h.setReg))))
  · exact limited (trimInput (ite h.setReg h.setReg))

theorem execRefreshTrimTick {stack activations : Nat} {temp : ℤ} (h : Keeps false s t) : Runs false s (Machine.execRefreshTrimTick stack activations temp t) := by
  exact .ite (.next h) (.next (refreshNow (ite h.setStackTemp.trimInput h.setStackTemp.trimInput.trimTo)))

theorem execSketchThresholdEval {p : Nat} (h : Keeps deep s t) : Runs deep s (Machine.execSketchThresholdEval p t) := by
  refine .ite (.next h) ?_
  refine .ite ?_ ?_
  · split
    · exact .next (ite h.modTrim.modCorpus.noteQuota h.modTrim.modCorpus.bump)
    · exact .next (drogue (trimAct (modCorpus ((h.modTrim.modCorpus.publishSet) _ ‹_›))))
  · exact .next h.modTrim.modCorpus

theorem placeTable {p tid : Nat} {t' : Table} (h : Keeps deep s t) : Keeps deep s (t.placeTable p tid t') := by
  refine ite h.modTrim ?_
  split
  · exact h.modTrim.trimAtLimit
  · exact foldl h.modTrim fun _ _ g => ite g.offerDrift.trimAct g.offerDrift

theorem execPlacementTrimTick (h : Keeps deep s t) : Runs deep s (Machine.execPlacementTrimTick t) := by
  exact .next (foldl h fun _ _ g => ite g (ite g (modTrim (foldl g.modTrim fun _ _ g => g.placeTable))))

theorem execMemMarginTraining {tier c rd wr : Nat} (h : Keeps deep s t) : Runs deep s (Machine.execMemMarginTraining tier c rd wr t) := by
  exact .ite (.next h) (.next h.putMargins)

theorem writeTrim {pf off : Nat} {value : Word} {gain : Nat → Nat} {target lo hi : ℤ → ℤ} (h : Keeps deep s t) :
    Keeps deep s (t.writeTrim pf off value gain target lo hi) := by
  unfold State.writeTrim
  dsimp only
  split
  · exact ite h h.accessErr
  · exact ite (accessErr (ite h h.accessErr)) (ite (modTrim (ite h h.accessErr)) (modTrim (ite h h.accessErr)))

theorem execTrmUnitLimitsWrite {pf : Nat} {value : Word} (h : Keeps deep s t) : Runs deep s (Machine.execTrmUnitLimitsWrite pf value t) := .next h.writeTrim

theorem writeTrimCfg {pf : Nat} {value : Word} (h : Keeps deep s t) : Keeps deep s (t.writeTrimCfg pf value) := h.writeTrim

theorem writeTrimCtl {pf : Nat} {value : Word} (h : Keeps deep s t) : Keeps deep s (t.writeTrimCtl pf value) := by
  unfold State.writeTrimCtl
  dsimp only
  split
  · exact ite h h.accessErr
  · exact modTrim (ite h h.accessErr)

theorem execTrmCalOffsetWrite {pf : Nat} {value : Word} (h : Keeps deep s t) : Runs deep s (Machine.execTrmCalOffsetWrite pf value t) := by
  exact .ite (.next (ite h h.accessErr)) (.ite (.next (accessErr (ite h h.accessErr))) (.next (setCal (measure (ite h h.accessErr)))))

/-! ### Sys2Proof/Machine/Boot.lean -/
/-- A warm reset keeps the time, and leaves of the bytes those of Tier F and beyond. -/
theorem wipe (h : Keeps false s t) : Keeps false s (t.wipe true) := ⟨h.time, wf_kept _ ∘ h.form, h.sent, fun e => nomatch e⟩

theorem setStatus {f : Fld} {v : Nat} (h : Keeps deep s t) : Keeps deep s (t.setStatus f v) := h.setFld

theorem logPowerOn {cause : Nat} (h : Keeps deep s t) : Keeps deep s (t.logPowerOn cause) := h.logAppend

theorem countBoot (h : Keeps deep s t) : Keeps deep s t.countBoot := h.addReg.setFld

theorem bootStage1 {found : BootFound} {warm : Bool} (h : Keeps false s t) : Keeps false s (t.bootStage1 found warm) := by
  refine ite ?_ ?_
  · exact ite h.setStatus.measure.setFld.setFld h.setStatus.measure.enterHoldover
  · exact ite h.setStatus.measure.modUnit.reportFence h.setStatus.measure

theorem bootMeasure {found : BootFound} (h : Keeps deep s t) : Keeps deep s (t.bootMeasure found) := by
  exact foldl (foldl h fun _ _ g => g.measure) fun _ _ g => ite g.putSec g.putSec.event

theorem bootPower (h : Keeps false s t) : Keeps false s t.bootPower := setLimit (foldl h fun _ _ g => g.powerDomain)

theorem bootFlash {found : BootFound} (h : Keeps false s t) : Keeps false s (t.bootFlash found) := by
  refine ite ?_ ?_
  · exact foldl (foldl h.reserveAreas.modFlash.discoverMedia fun _ _ g => g.modUnit) fun _ _ g => g.fenceLun
  · exact foldl h.reserveAreas.modFlash.discoverMedia fun _ _ g => g.modUnit

theorem bootTest {found : BootFound} (h : Keeps false s t) : Keeps false s (t.bootTest found) := foldl h fun _ _ g => g.fenceUnit

theorem bootReady (h : Keeps deep s t) : Keeps deep s t.bootReady := ite h.fresh.setStatus.setStatus.setStatus.logPowerOn h.fresh.setStatus.setStatus.setStatus

theorem bootStages {stopAt : Nat} {stages : List (Nat × (State → State))} (h : Keeps false s t) (step : ∀ x ∈ stages, ∀ u, Keeps false s u → Keeps false s (x.2 u)) :
    Keeps false s (State.bootStages stopAt stages t) := by
  induction stages generalizing t with
  | nil => exact h
  | cons x stages ih =>
    unfold State.bootStages
    exact ite h.setStatus.fatalStop (ih (step x List.mem_cons_self _ h.setStatus) fun y hy => step y (List.mem_cons_of_mem _ hy))

theorem boot {found : BootFound} {warm : Bool} (h : Keeps false s t) : Keeps false s (t.boot found warm) := by
  have stages : Keeps false s (State.bootStages found.stopAt [(3, fun t => t.bootStage1 found warm), (4, fun t => t.bootMeasure found),
      (5, State.bootPower),
      (6, id), (7, fun t => t.bootFlash found), (8, fun t => t.bootTest found)] t) := by
    refine h.bootStages fun x hx u g => ?_
    simp only [List.mem_cons, List.not_mem_nil, or_false] at hx
    rcases hx with rfl | rfl | rfl | rfl | rfl | rfl
    · exact g.bootStage1
    · exact g.bootMeasure
    · exact g.bootPower
    · exact g
    · exact g.bootFlash
    · exact g.bootTest
  unfold State.boot
  exact ite (h.setStatus.setStatus.modFlt (fun e => nomatch e) fun e => nomatch e) (ite stages stages.bootReady)

theorem warmResets (h : Keeps deep s t) : Keeps deep s t.warmResets := foldl h fun _ _ g => ite g g.resetBegin

theorem warmReset {cause : Nat} {found : BootFound} (h : Keeps false s t) : Keeps false s (t.warmReset cause found) :=
  (ite h h.warmResets).wipe.countBoot.putBoard.setStatus.logPowerOn.boot

theorem execMsdWatchdogExpiry {found : BootFound} (h : Keeps false s t) : Runs false s (Machine.execMsdWatchdogExpiry found t) := by
  unfold Machine.execMsdWatchdogExpiry
  dsimp only
  exact .ite (.next h) (.next h.warmReset)

theorem execNodeResetWrite {pf : Nat} {value : Word} {found : BootFound} (h : Keeps false s t) : Runs false s (Machine.execNodeResetWrite pf value found t) := by
  exact .ite (.next h) (.ite (.next h.warmReset) (.ite (.next h) (.next h.accessErr)))

theorem execNodeRstNAssert {ns : Nat} {found : BootFound} (h : Keeps false s t) : Runs false s (Machine.execNodeRstNAssert ns found t) := by
  exact .ite (.next h) (.next h.warmReset)

theorem setHostUp {port : Nat} {up : Bool} (h : Keeps false s t) : Keeps false s (t.setHostUp port up) := h.putBoard

theorem portReset {port : Nat} (h : Keeps false s t) : Keeps false s (t.portReset port) := h.pfReset.putNumVfs

theorem execHostPortReset {port kind : Nat} (h : Keeps false s t) : Runs false s (Machine.execHostPortReset port kind t) := by
  exact .ite (.next h) (.next (portReset (ite h h.setHostUp)))

theorem execPerstDeassert {port : Nat} (h : Keeps false s t) : Runs false s (Machine.execPerstDeassert port t) := .ite (.next h) (.next h.setHostUp)

theorem execRailFault {rail : Nat} (h : Keeps false s t) : Runs false s (Machine.execRailFault rail t) := .ite (.next h) (.next h.setFld.fatalStop)

theorem execThermalShutdown {sensor : Nat} (h : Keeps false s t) : Runs false s (Machine.execThermalShutdown sensor t) := by
  exact .ite (.next h) (.next h.putBoard.fatalStop)

theorem execXtalLoss (h : Keeps false s t) : Runs false s (Machine.execXtalLoss t) := .ite (.next h) (.next h.enterHoldover)

theorem execXtalLock (h : Keeps false s t) : Runs false s (Machine.execXtalLock t) := by
  refine .ite (.next h) ?_
  refine .ite ?_ ?_
  · exact .next (bootReady (ite h.setFld.setFld.modUnit.logAppend h.setFld.setFld))
  · exact .next (ite h.setFld.setFld.modUnit.logAppend h.setFld.setFld)

theorem execRefclkPcieLoss (h : Keeps false s t) : Runs false s (Machine.execRefclkPcieLoss t) := by
  exact .ite (.next h) (.next (foldl h fun _ _ g => g.setHostUp.portReset))

theorem execRefclkFabLoss {n : Nat} (h : Keeps false s t) : Runs false s (Machine.execRefclkFabLoss n t) := by
  exact .ite (.next h) (.next (foldl h fun _ _ g => g.fenceLane))

theorem execRefclkMemLoss (h : Keeps false s t) : Runs false s (Machine.execRefclkMemLoss t) := by
  exact .ite (.next h) (.ite (.next h.fatalStop) (.next h.setStatus.fatalStop))

theorem execAvsPoll {answered : Nat} (h : Keeps false s t) : Runs false s (Machine.execAvsPoll answered t) := .ite (.next h) (.next h.fresh.putBoard.setFld)

theorem writePowerLimit {pf : Nat} {value : Word} (h : Keeps false s t) : Keeps false s (t.writePowerLimit pf value) := by
  exact ite h.writeFields (setLimit (ite h.writeFields.setFld h.writeFields))

theorem execNodePowerLimitWrite {value : Word} {pf : Nat} (h : Keeps false s t) : Runs false s (Machine.execNodePowerLimitWrite value pf t) := by
  exact .ite (.next h) (.next h.writePowerLimit)

theorem execJtagExtest (h : Keeps false s t) : Runs false s (Machine.execJtagExtest t) := by
  exact .ite (.next h) (.next (foldl (foldl h.putBoard fun _ _ g => g.setHostUp.portReset) fun _ _ g => g.linkDown))

/-! ### Sys2Proof/Machine/Fetch.lean -/

theorem refuseFetched {p q : Nat} {c : HostCmd} {status : Nat} (h : Keeps deep s t) : Keeps deep s (t.refuseFetched p q c status) := by
  exact postCompletion (ite (measureModel (ite h.noteQuota.notePublish h.noteQuota)) (ite h.noteQuota.notePublish h.noteQuota))

theorem stageCmd {p q order : Nat} {c : HostCmd} (h : Keeps deep s t) : Keeps deep s (t.stageCmd p q order c) := by
  exact ite h.meterUnit.bump.postCompletion h.meterUnit.modQueue.markHeads

theorem execCommandFetch {p q : Nat} {bytes : List Byte} (h : Keeps deep s t) : Runs deep s (Machine.execCommandFetch p q bytes t) := by
  unfold Machine.execCommandFetch
  dsimp only
  refine .ite (.next h) (.ite (.ite (.next h) (.next h.modQueue.bump)) ?_)
  split
  · refine .next (postCompletion ?_)
    refine ite (bump (ite h.putFetchNo.modQueue.noteReject h.putFetchNo.modQueue)) (ite h.putFetchNo.modQueue.noteReject ?_)
    exact h.putFetchNo.modQueue
  · split
    · exact .ite (.next h.putFetchNo.modQueue.stageCmd) (.next h.putFetchNo.modQueue.refuseFetched)
    · exact .next h.putFetchNo.modQueue.stageCmd

theorem markCancelled {o : Nat} (h : Keeps deep s t) : Keeps deep s (t.markCancelled o) := h.putRecs.putQueues

theorem cancelTarget {p tid : Nat} {t' : Rec} (h : Keeps false s t) : Keeps false s (t.cancelTarget p tid t') := by
  exact ite h.markCancelled.complete.releaseHeld.resume h.markCancelled.complete

theorem cancelStaged {k : Nat} {g' : Staged} (h : Keeps deep s t) : Keeps deep s (t.cancelStaged k g') := h.markCancelled.putQueues.emit.postCompletion

theorem execCancel {p q cid : Nat} (h : Keeps false s t) : Runs false s (Machine.execCancel p q cid t) := by
  unfold Machine.execCancel
  split
  · exact .next h
  · split
    · exact .next h.fail
    · split
      · exact .ite (.next h.cancelTarget.done) (.next h.done)
      · exact .next h.cancelStaged.done
      · exact .next h.done
    · exact .next h.done
    · exact .next h.fail

/-! ### Sys2Proof/Machine/RegWrite.lean -/

theorem landed {o : Host.Outcome State Fault Refusal} (_ : Keeps deep s t) (ran : Runs deep s o) : Keeps deep s (landed o t) := by
  obtain ⟨u, rfl, g⟩ := ran
  exact g

theorem rsvCheck {pf off : Nat} {v : Word} (h : Keeps deep s t) : Keeps deep s (t.rsvCheck pf off v) := ite h h.accessErr

theorem writePrtCtl {p : Nat} {v : Word} (h : Keeps false s t) : Keeps false s (t.writePrtCtl p v) := by
  refine ite h.setFld.setFld (ite (landed h h.execPrtResetRequest) (ite h.setFld ?_))
  exact ite (landed h.setFld h.setFld.execPrtQuiesceSet) (landed h.setFld h.setFld.execPrtQuiesceClear)

theorem dropPorts (h : Keeps false s t) : Keeps false s t.dropPorts := foldl h fun _ _ g => g.linkDown

theorem writePortCfg {pf n : Nat} {v : Word} (h : Keeps false s t) : Keeps false s (t.writePortCfg pf n v) := h.writeFields.dropPorts

theorem writeUnitCtl {pf : Nat} {v : Word} (h : Keeps false s t) : Keeps false s (t.writeUnitCtl pf v) := by
  refine ite h.rsvCheck.writeFields (ite (landed h.rsvCheck h.rsvCheck.execUnitDeclare) ?_)
  exact ite (landed h.rsvCheck h.rsvCheck.execUnitRestore) (ite (landed h.rsvCheck h.rsvCheck.execUnitInject) h.rsvCheck.writeFields)

theorem writeCtrClear {pf : Nat} {v : Word} (h : Keeps deep s t) : Keeps deep s (t.writeCtrClear pf v) := by
  exact ite (landed h.rsvCheck h.rsvCheck.execCtrClearAll) (landed h.rsvCheck h.rsvCheck.execCtrClearOne)

theorem writeSnpCtl {pf : Nat} {v : Word} (h : Keeps deep s t) : Keeps deep s (t.writeSnpCtl pf v) := by
  refine ite ?_ ?_
  · exact landed (ite (landed (landed h.rsvCheck h.rsvCheck.execSnpViewWrite) (execSnpArm (landed h.rsvCheck h.rsvCheck.execSnpViewWrite)))
      (landed h.rsvCheck h.rsvCheck.execSnpViewWrite)) (execSnpTrigger
          (ite (landed (landed h.rsvCheck h.rsvCheck.execSnpViewWrite) (execSnpArm (landed h.rsvCheck h.rsvCheck.execSnpViewWrite)))
              (landed h.rsvCheck h.rsvCheck.execSnpViewWrite)))
  · refine ite ?_ ?_
    · exact landed (landed h.rsvCheck h.rsvCheck.execSnpViewWrite) (execSnpArm (landed h.rsvCheck h.rsvCheck.execSnpViewWrite))
    · exact landed h.rsvCheck h.rsvCheck.execSnpViewWrite

theorem writeCsel {pf : Nat} {v : Word} (h : Keeps deep s t) : Keeps deep s (t.writeCsel pf v) := by
  exact ite (landed h.rsvCheck h.rsvCheck.execMemCselLatch) h.rsvCheck.writeFields

theorem writeClipCfg {pf n : Nat} {v : Word} (h : Keeps deep s t) : Keeps deep s (t.writeClipCfg pf n v) := by
  exact ite (landed h.writeFields h.writeFields.execMxaClipClear) h.writeFields

theorem writeNode {pf off : Nat} {v : Word} (h : Keeps false s t) : Keeps false s (t.writeNode pf off v) := by
  refine ite h.accessErr (ite (ite h h.accessErr) (ite (ite h h.accessErr) (ite h.writePowerLimit ?_)))
  refine ite h.writePolicy (ite h.rsvCheck.writePrtCtl (ite h.noteFold.writeFields (ite h.writeClipCfg ?_)))
  refine ite h.writeCsel (ite (landed h h.rsvCheck.execFtlSpareWrite) (ite h.writeFields.dropPorts ?_))
  refine ite (ite h.writeFields h.writeFields.reroute) (ite (landed h h.execFabRtEntryWrite) (ite h.writePortCfg ?_))
  refine ite (landed h h.execFabLaneEqWrite) (ite h.writeUnitCtl ?_)
  refine ite (ite (landed h.rsvCheck h.rsvCheck.execFltEvtPop) h.rsvCheck) (ite h.writeCtrClear (ite h.writeSnpCtl ?_))
  refine ite h.writeTrimCfg (ite (landed h h.execTrmUnitLimitsWrite) (ite h.writeTrimCtl ?_))
  exact ite (landed h h.execTrmCalOffsetWrite) (ite h.writeExtCtl (ite h.writeEnrollCtl h.writeFields))

theorem winErrIf {p : Nat} {bad : Bool} (h : Keeps deep s t) : Keeps deep s (t.winErrIf p bad) := ite h.setWinBit h

theorem writeQBase {p q : Nat} {cq : Bool} {v : Word} (h : Keeps deep s t) : Keeps deep s (t.writeQBase p q cq v) := by
  exact ite h.winErrIf (ite h.winErrIf.modQueue h.winErrIf.modQueue)

theorem writeQCfg {p q : Nat} {v : Word} (h : Keeps deep s t) : Keeps deep s (t.writeQCfg p q v) := by
  refine ite h.winErrIf.modQueue (ite (landed h.winErrIf.modQueue h.winErrIf.modQueue.execQueueEnable) ?_)
  exact landed h.winErrIf.modQueue h.winErrIf.modQueue.execQueueDisable

theorem writeQPage {p q r : Nat} {v : Word} (h : Keeps deep s t) : Keeps deep s (t.writeQPage p q r v) := by
  refine ite h (ite (landed h h.winErrIf.execSqTailDoorbell) (ite (landed h h.winErrIf.execCqHeadDoorbell) ?_))
  exact ite h.writeQBase (ite h.writeQBase (ite h.writeQCfg (ite h.modQueue.winErrIf h.winErrIf)))

theorem writeMsix {p off : Nat} {v : Word} (h : Keeps deep s t) : Keeps deep s (t.writeMsix p off v) := ite h.setWin (ite h.setWin.setWin.sendMsix h.setWin)

theorem writeWindow {p off : Nat} {v : Word} (h : Keeps false s t) : Keeps false s (t.writeWindow p off v) := by
  refine ite h (ite h.setWinBit (ite h.writeQPage (ite h (ite h.setWin.winErrIf (ite h.winErrIf.writePrtCtl ?_)))))
  exact ite h.writeMsix (ite h h.winErrIf)

theorem writeWindowHalf {p off : Nat} {v : Word} (h : Keeps deep s t) : Keeps deep s (t.writeWindowHalf p off v) := by
  exact ite h (ite (ite h h.writeMsix) (ite h h.windowBad))

theorem execRegisterWrite {pf offset : Nat} {value : Word} {target : RegTarget} (h : Keeps false s t) :
    Runs false s (Machine.execRegisterWrite pf offset value target t) := by
  refine .ite (.next h) ?_
  split
  · exact .next h.writeWindowHalf
  · exact .next h.writeWindow
  · exact .next (ite h h.writeNode)
/-! ### Every command -/

theorem exec {c : Instr} (h : Keeps false s t) (on : ∀ found, c ≠ .powerOn found) (down : c ≠ .powerDown) : Runs false s (Machine.exec c t) := by
  cases c with
  | nop => exact h.execNop
  | fence => exact h.execFence
  | fenceComplete => exact h.execFenceComplete
  | cancel => exact h.execCancel
  | attestReport => exact h.execAttestReport
  | attestCertChain => exact h.execAttestCertChain
  | bridleLoad => exact h.execBridleLoad
  | logRead => exact h.execLogRead
  | collectiveBarrier => exact h.execCollectiveBarrier
  | collectiveBroadcastSend => exact h.execCollectiveBroadcastSend
  | collectiveBroadcastReceive => exact h.execCollectiveBroadcastReceive
  | collectiveReset => exact h.execCollectiveReset
  | collectiveSnapshot => exact h.execCollectiveSnapshot
  | query => exact h.execQuery
  | bkeFence => exact h.execBkeFence
  | bkeFenceComplete => exact h.execBkeFenceComplete
  | thresholdPublish => exact h.execThresholdPublish
  | insert => exact h.execInsert
  | delete => exact h.execDelete
  | updatePrepare => exact h.execUpdatePrepare
  | segmentBuild => exact h.execSegmentBuild
  | buildStart => exact h.execBuildStart
  | segmentBuildDone => exact h.execSegmentBuildDone
  | segmentImport => exact h.execSegmentImport
  | segmentImportDone => exact h.execSegmentImportDone
  | segmentPublish => exact h.execSegmentPublish
  | segmentRetire => exact h.execSegmentRetire
  | tableCreate => exact h.execTableCreate
  | tableLookup => exact h.execTableLookup
  | tableUpdate => exact h.execTableUpdate
  | tableStepClose => exact h.execTableStepClose
  | tableSwitch => exact h.execTableSwitch
  | tableDestroy => exact h.execTableDestroy
  | tensorAlloc => exact h.execTensorAlloc
  | tensorFree => exact h.execTensorFree
  | tensorWrite => exact h.execTensorWrite
  | tensorRead => exact h.execTensorRead
  | tensorMigrate => exact h.execTensorMigrate
  | migrateSwitch => exact h.execMigrateSwitch
  | claimGrant => exact h.execClaimGrant
  | compositionSet => exact h.execCompositionSet
  | compositionRemove => exact h.execCompositionRemove
  | modelBind => exact h.execModelBind
  | modelUnbind => exact h.execModelUnbind
  | arrayRun => exact h.execArrayRun
  | nsRead => exact h.execNsRead
  | nsWrite => exact h.execNsWrite
  | nsTrim => exact h.execNsTrim
  | nsFormatCreate => exact h.execNsFormatCreate
  | nsFormatDelete => exact h.execNsFormatDelete
  | nsFormatErase => exact h.execNsFormatErase
  | nsFormatDone => exact h.execNsFormatDone
  | longOpStart => exact h.execLongOpStart
  | longOpStatusTick => exact h.execLongOpStatusTick
  | sqTailDoorbell => exact h.execSqTailDoorbell
  | cqHeadDoorbell => exact h.execCqHeadDoorbell
  | queueEnable => exact h.execQueueEnable
  | queueDisable => exact h.execQueueDisable
  | commandFetch => exact h.execCommandFetch
  | hostIngressAdmit => exact h.execHostIngressAdmit
  | orderedRelease => exact h.execOrderedRelease
  | admissionResume => exact h.execAdmissionResume
  | fabricReqBufferTimeout => exact h.execFabricReqBufferTimeout
  | msixCoalesceTimeout => exact h.execMsixCoalesceTimeout
  | prtResetRequest => exact h.execPrtResetRequest
  | prtQuiesceSet => exact h.execPrtQuiesceSet
  | prtQuiesceClear => exact h.execPrtQuiesceClear
  | prtQuiescedEntry => exact h.execPrtQuiescedEntry
  | vfFunctionLevelReset => exact h.execVfFunctionLevelReset
  | pfFunctionLevelReset => exact h.execPfFunctionLevelReset
  | vfEnable => exact h.execVfEnable
  | drainOrderArrival => exact h.execDrainOrderArrival
  | drainAckArrival => exact h.execDrainAckArrival
  | drainTimeout => exact h.execDrainTimeout
  | scrubDone => exact h.execScrubDone
  | handoffOfferArrival => exact h.execHandoffOfferArrival
  | handoffAcceptArrival => exact h.execHandoffAcceptArrival
  | handoffRefuseArrival => exact h.execHandoffRefuseArrival
  | handoffCommitArrival => exact h.execHandoffCommitArrival
  | handoffRetryTimer => exact h.execHandoffRetryTimer
  | contextContest => exact h.execContextContest
  | poolLoss => exact h.execPoolLoss
  | periodBoundary => exact h.execPeriodBoundary
  | arrayTaken => exact h.execArrayTaken
  | arrayRoundStart => exact h.execArrayRoundStart
  | arraySwitchDone => exact h.execArraySwitchDone
  | privilegedYield => exact h.execPrivilegedYield
  | yieldLimitExpiry => exact h.execYieldLimitExpiry
  | scanHam => exact h.execScanHam
  | gatherHam => exact h.execGatherHam
  | scanBits => exact h.execScanBits
  | copy => exact h.execCopy
  | fill => exact h.execFill
  | bkeFenceToken => exact h.execBkeFenceToken
  | bankCmdDone => exact h.execBankCmdDone
  | channelLingerExpiry => exact h.execChannelLingerExpiry
  | ordinaryAccessHeld => exact h.execOrdinaryAccessHeld
  | forcedYield => exact h.execForcedYield
  | refreshDue _ bank _ => exact h.execRefreshDue (bank := bank)
  | targetedRefresh => exact h.execTargetedRefresh
  | engineThrottleWindow => exact h.execEngineThrottleWindow
  | deltaScanDone => exact h.execDeltaScanDone
  | traverseAdjacencyArrival => exact h.execTraverseAdjacencyArrival
  | traverseDistancesArrival => exact h.execTraverseDistancesArrival
  | exactRerank => exact h.execExactRerank
  | shardSubrequestArrival => exact h.execShardSubrequestArrival
  | shardResponseArrival => exact h.execShardResponseArrival
  | shardFailure => exact h.execShardFailure
  | arrayInstrMac => exact h.execArrayInstrMac
  | arrayInstrMultiWord => exact h.execArrayInstrMultiWord
  | arrayInstrDistance => exact h.execArrayInstrDistance
  | arrayInstrDone => exact h.execArrayInstrDone
  | layerFetchDone => exact h.execLayerFetchDone
  | selectListOpen => exact h.execSelectListOpen
  | selectInsert => exact h.execSelectInsert
  | selectListClose => exact h.execSelectListClose
  | selectMerge => exact h.execSelectMerge
  | tombstoneFold => exact h.execTombstoneFold
  | segmentFree => exact h.execSegmentFree
  | remoteLookupRequest => exact h.execRemoteLookupRequest
  | remoteLookupResponse => exact h.execRemoteLookupResponse
  | contributionArrival => exact h.execContributionArrival
  | stepEndArrival => exact h.execStepEndArrival
  | embStepClose => exact h.execEmbStepClose
  | embStepTimeout => exact h.execEmbStepTimeout
  | embLoadReport => exact h.execEmbLoadReport
  | loadOrderArrival => exact h.execLoadOrderArrival
  | driftOfferArrival => exact h.execDriftOfferArrival
  | driftAcceptArrival => exact h.execDriftAcceptArrival
  | driftCopyArrival => exact h.execDriftCopyArrival
  | driftSwitch => exact h.execDriftSwitch
  | driftSwitchArrival => exact h.execDriftSwitchArrival
  | driftAbandonTimeout => exact h.execDriftAbandonTimeout
  | recallArrival => exact h.execRecallArrival
  | recallAckArrival => exact h.execRecallAckArrival
  | replicaUpdateArrival => exact h.execReplicaUpdateArrival
  | windowOpenArrival => exact h.execWindowOpenArrival
  | windowAcceptArrival => exact h.execWindowAcceptArrival
  | windowRefuseArrival => exact h.execWindowRefuseArrival
  | windowCloseArrival => exact h.execWindowCloseArrival
  | windowLostTimeout => exact h.execWindowLostTimeout
  | tierPAccessArrival => exact h.execTierPAccessArrival
  | tierPResponseArrival => exact h.execTierPResponseArrival
  | meterIntegrate => exact h.execMeterIntegrate
  | memCselLatch => exact h.execMemCselLatch
  | flashProgramFail => exact h.execFlashProgramFail
  | lunFence => exact h.execLunFence
  | lunRebuildDone => exact h.execLunRebuildDone
  | gcStart => exact h.execGcStart
  | wearLevelStart => exact h.execWearLevelStart
  | mediaScrubRead => exact h.execMediaScrubRead
  | ftlSpareWrite => exact h.execFtlSpareWrite
  | flitReceive => exact h.execFlitReceive
  | replayTimeout => exact h.execReplayTimeout
  | linkEgressSlot => exact h.execLinkEgressSlot
  | transitForward lane _ => exact h.execTransitForward (lane := lane)
  | egressPacketHandoff => exact h.execEgressPacketHandoff
  | gateEntryAdvance => exact h.execGateEntryAdvance
  | laneFault => exact h.execLaneFault
  | laneRejoin => exact h.execLaneRejoin
  | helloTimer => exact h.execHelloTimer
  | helloArrival _ _ _ k _ _ _ => exact h.execHelloArrival (k := k)
  | helloTimeout => exact h.execHelloTimeout
  | electArrival => exact h.execElectArrival
  | anchorElectTick => exact h.execAnchorElectTick
  | electStale => exact h.execElectStale
  | assignArrival => exact h.execAssignArrival
  | topologyReportArrival => exact h.execTopologyReportArrival
  | topoArrival => exact h.execTopoArrival
  | quenchArrival => exact h.execQuenchArrival
  | releaseArrival => exact h.execReleaseArrival
  | quenchExpiry => exact h.execQuenchExpiry
  | fabricPacketArrival => exact h.execFabricPacketArrival
  | releaseSend => exact h.execReleaseSend
  | fabricRefuseArrival => exact h.execFabricRefuseArrival
  | e2eTimeout => exact h.execE2eTimeout
  | reassemblyTimeout => exact h.execReassemblyTimeout
  | markerArrival => exact h.execMarkerArrival
  | collectiveMessageArrival => exact h.execCollectiveMessageArrival
  | collectiveTimeout => exact h.execCollectiveTimeout
  | routeWeightTick => exact h.execRouteWeightTick
  | fabRtEntryWrite => exact h.execFabRtEntryWrite
  | fabLaneEqWrite => exact h.execFabLaneEqWrite
  | remoteAttestRequest => exact h.execRemoteAttestRequest
  | remoteAttestResponse => exact h.execRemoteAttestResponse
  | stallDetectorTimeout => exact h.execStallDetectorTimeout
  | parityError => exact h.execParityError
  | eccError => exact h.execEccError
  | tierAChannelFence => exact h.execTierAChannelFence
  | tierBChannelLost => exact h.execTierBChannelLost
  | dieLinkLost link => exact h.execDieLinkLost (link := link)
  | unitDeclare => exact h.execUnitDeclare
  | unitRestore => exact h.execUnitRestore
  | unitRestoreDone => exact h.execUnitRestoreDone
  | unitInject => exact h.execUnitInject
  | fltEvtPop => exact h.execFltEvtPop
  | ctrClearOne => exact h.execCtrClearOne
  | ctrClearAll => exact h.execCtrClearAll
  | snpTrigger => exact h.execSnpTrigger
  | snpArm => exact h.execSnpArm
  | snpViewWrite => exact h.execSnpViewWrite
  | mxaClipClear => exact h.execMxaClipClear
  | voltageTrimTick => exact h.execVoltageTrimTick
  | equalisationTrimTick => exact h.execEqualisationTrimTick
  | refreshTrimTick => exact h.execRefreshTrimTick
  | sketchThresholdEval => exact h.execSketchThresholdEval
  | placementTrimTick => exact h.execPlacementTrimTick
  | memMarginTraining => exact h.execMemMarginTraining
  | trmUnitLimitsWrite => exact h.execTrmUnitLimitsWrite
  | trmCalOffsetWrite => exact h.execTrmCalOffsetWrite
  | logMirror => exact h.execLogMirror
  | logHourly => exact h.execLogHourly
  | powerOn found => exact absurd rfl (on found)
  | msdWatchdogExpiry => exact h.execMsdWatchdogExpiry
  | nodeResetWrite => exact h.execNodeResetWrite
  | nodeRstNAssert => exact h.execNodeRstNAssert
  | hostPortReset => exact h.execHostPortReset
  | powerDown => exact absurd rfl down
  | railFault => exact h.execRailFault
  | thermalShutdown sensor => exact h.execThermalShutdown (sensor := sensor)
  | xtalLoss => exact h.execXtalLoss
  | xtalLock => exact h.execXtalLock
  | refclkPcieLoss => exact h.execRefclkPcieLoss
  | refclkFabLoss => exact h.execRefclkFabLoss
  | refclkMemLoss => exact h.execRefclkMemLoss
  | avsPoll => exact h.execAvsPoll
  | nodePowerLimitWrite => exact h.execNodePowerLimitWrite
  | requireSigSet => exact h.execRequireSigSet
  | secExtend => exact h.execSecExtend
  | secEnroll => exact h.execSecEnroll
  | secRevoke => exact h.execSecRevoke
  | spdmGetVersion => exact h.execSpdmGetVersion
  | spdmGetCapabilities => exact h.execSpdmGetCapabilities
  | spdmNegotiateAlgorithms => exact h.execSpdmNegotiateAlgorithms
  | spdmGetDigests => exact h.execSpdmGetDigests
  | spdmGetCertificate => exact h.execSpdmGetCertificate
  | spdmChallenge => exact h.execSpdmChallenge
  | spdmGetMeasurements => exact h.execSpdmGetMeasurements
  | spdmVendorDefinedRequest => exact h.execSpdmVendorDefinedRequest
  | spdmUnsupportedRequest => exact h.execSpdmUnsupportedRequest
  | mctpControlMessage => exact h.execMctpControlMessage
  | bar0BadAccess => exact h.execBar0BadAccess
  | windowBadAccess => exact h.execWindowBadAccess
  | registerWrite => exact h.execRegisterWrite
  | linkTrainingDone => exact h.execLinkTrainingDone
  | perstDeassert => exact h.execPerstDeassert
  | contributionResultArrival => exact h.execContributionResultArrival
  | mctpUnsupportedMessage => exact h.execMctpUnsupportedMessage
  | jtagExtest => exact h.execJtagExtest

end
end Keeps

end Sys2Proof.Machine
end

section
/-! SUPPORT. The obligations about every step, from what every command keeps. -/

namespace Sys2Proof.Machine

/-! ### Power, and the passing of time -/

theorem execPowerOn_answers (found : BootFound) (s : State) : ∃ t, execPowerOn found s = .next t ∧ (s.mem.wf = true → t.mem.wf = true) := by
  have booted : ∀ {u : State}, Keeps false (s.wipe false) u → Keeps false (s.wipe false) (u.boot found false) := fun g => g.boot
  unfold execPowerOn
  split
  · exact ⟨s, rfl, id⟩
  · exact ⟨_, rfl, fun w => (booted (Keeps.refl (s.wipe false)).countBoot.setFld.setStatus.setFld).form (wf_kept s.mem w)⟩

theorem execPowerDown_answers (s : State) : ∃ t, execPowerDown s = .next t ∧ (s.mem.wf = true → t.mem.wf = true) :=
  ⟨_, rfl, fun w => ((Keeps.refl (s.wipe false)).putBoard.putFlt (fun e => nomatch e) fun e => nomatch e).form (wf_kept s.mem w)⟩

/-- Every command answers a next state, and leaves node memory in its canonical form. -/
theorem exec_answers (c : Instr) (s : State) : ∃ t, exec c s = .next t ∧ (s.mem.wf = true → t.mem.wf = true) := by
  by_cases on : ∃ found, c = .powerOn found
  · obtain ⟨found, rfl⟩ := on
    exact execPowerOn_answers found s
  · by_cases down : c = .powerDown
    · subst down
      exact execPowerDown_answers s
    · obtain ⟨t, run, kept⟩ := (Keeps.refl s).exec (fun found e => on ⟨found, e⟩) down
      exact ⟨t, run, kept.form⟩

/-- The passing of a nanosecond leaves node memory in its canonical form. -/
theorem tick_keeps_form (s : State) (w : s.mem.wf = true) : s.tick.mem.wf = true := by
  have asked : Keeps false s ([0, 1, 2, 3].foldl State.askYield s) := (Keeps.refl s).foldl fun _ _ g => g.askYield
  unfold State.tick
  split
  · exact w
  · refine (Keeps.poolsBack (Keeps.foldl (Keeps.ite (Keeps.refl _).putBoard (Keeps.refl _)) fun _ _ g => g.bump)).form ?_
    exact asked.form w

/-! ### What every step keeps -/

/-- Settles O3: each command's function answers a next state by its own `Keeps` lemma, power by itself. -/
theorem everyCommandAnswers : Obligations.EveryCommandAnswers := by
  intro c s
  obtain ⟨t, run, -⟩ := exec_answers c s
  exact ⟨t, run⟩

/-- Settles O4: a step is a command on the state with the rest of the queue, or the passing of a nanosecond; memory keeps its form over both. -/
theorem memoryFormKeptByEveryStep : Obligations.MemoryFormKeptByEveryStep := by
  intro s t w run
  unfold step at run
  split at run
  · cases run
    exact tick_keeps_form s w
  next c rest _ =>
    obtain ⟨u, answer, kept⟩ := exec_answers c { s with pending := rest }
    cases answer.symm.trans run
    exact kept w

/-- Settles O7: the local time is part of what `Keeps` says of every command but the two of power. -/
theorem timeOnlyByPower : Obligations.TimeOnlyByPower := by
  intro c s t on down run
  obtain ⟨u, answer, kept⟩ := (Keeps.refl s).exec on down
  cases answer.symm.trans run
  exact kept.time

/-- Settles O1: it is the definition of `step`. -/
theorem stepRunsFrontCommand : Obligations.StepRunsFrontCommand := fun _ _ _ => rfl

/-- Settles O5: a node at reset lists no byte and no range. -/
theorem memoryFormAtReset : Obligations.MemoryFormAtReset := ⟨wf_reset, fun _ => rfl⟩

/-! ### An idle step is not without effect on contexts -/

/-- A query at its encode stage, which its partition places in pool 1. -/
def encodingQuery : Query :=
  { part := 0, epoch := 0, stamp := 0, deadline := 0, started := true, phase := 2, todo := [1], step := 0, elem := 0, dims := 1, vec := [], raw := []
    k := 1, beam := 1, pre := 1, r := 1, rmult := 1, filter := none, allow := none, effort := false, widen := false, sub := false, sketches := []
    beams := [], delta := true, visited := [], gathered := 0, retried := false, first := none, shards := [], scatter := false, widened := false }

/-- The admission record of that query; its context is copy 0, of pool 0. -/
def encodingRec : Rec :=
  { part := 0, q := 0, fab := none, ctx := 0, gen := 0, stamp := 0, order := 0, phase := .running, long := none, waits := [], claims := []
    restarts := 0, eccAt := none
    cmd := { opcode := 0x20, cflags := 0, cid := 0, stream := 0, resv6 := 0, deadline := 0, statusAddr := 0, resultAddr := 0, params := [] } }

/-- A node one nanosecond before pool 0 has been rebuilt, on which a query waits at the boundary of a stage of pool 1 with its context in pool 0. -/
def poolReturns : State :=
  { State.reset with
    time := 20000
    regs := [(rPrtPoolStatus 0, 0x100000000)]
    parts := [(0, { State.reset.part 0 with cfg := some { stages := [{ kind := 1, place := 0, pool := 1, nextA := 0, nextB := 0, param := 0 }] } })]
    ctxs := [(0, { st := .owned, part := 0, gen := 0, rid := 0, since := 0, retry := none })]
    recs := [(0, encodingRec)]
    queries := [(0, encodingQuery)] }

/-- Refutes O2: as the rebuilding of a pool ends, the idle step resumes the serving loop, which offers the query's context to the pool of its next
stage (R100); contexts are then not as they were. -/
theorem not_idleStepIsOneNanosecond : ¬ Obligations.IdleStepIsOneNanosecond := by
  intro h
  obtain ⟨t, run, -, -, -, -, -, ctxs, -⟩ := h poolReturns rfl rfl
  cases run
  have offered : poolReturns.tick.ctxs ≠ poolReturns.ctxs := by decide
  exact offered ctxs

/-! ### Reset -/

/-- Settles O8: at reset no register has been written and no counter counted, so each reads its table's reset value. -/
theorem resetRegisters : Obligations.ResetRegisters :=
  ⟨rfl, rfl, rfl, rfl, rfl, rfl, rfl, rfl, rfl, rfl, rfl, rfl, fun _ => rfl, rfl⟩

end Sys2Proof.Machine
end

section
set_option Elab.async false
/-! SUPPORT. The queue page (spec/04): a command of a queue page changes its own queue at most. -/

namespace Sys2Proof.Machine

theorem State.queue_modQueue (s : State) (p q : Nat) (f : Queue → Queue) : (s.modQueue p q f).queue p q = f (s.queue p q) := by
  simp [State.queue, kvGetD]

/-- A queue is enabled as its configuration's ENABLE was put. -/
theorem enabled_put {x : Queue} {v : Nat} {w : Word} (h : x.cfg = fCfgEnable.put v w) : x.enabled = (v % 2 == 1) := by
  rw [Queue.enabled, h, Fld.get_put _ _ _ (by decide)]
  rfl

/-- The commands of a queue page. -/
def QueueCommand (c : Instr) (p q : Nat) : Prop :=
  (∃ n, c = .sqTailDoorbell p q n) ∨ (∃ n, c = .cqHeadDoorbell p q n) ∨ c = .queueEnable p q ∨ c = .queueDisable p q

/-- A command of a queue page leaves the state as it is or changes that queue. -/
theorem exec_queueCommand {c : Instr} {p q : Nat} {s t : State} (h : QueueCommand c p q) (run : exec c s = .next t) :
    t = s ∨ ∃ f, t = s.modQueue p q f := by
  obtain ⟨n, rfl⟩ | ⟨n, rfl⟩ | rfl | rfl := h
  · simp only [exec, execSqTailDoorbell] at run
    split_ifs at run <;> cases run
    exacts [.inl rfl, .inl rfl, .inr ⟨_, rfl⟩, .inr ⟨_, rfl⟩]
  · simp only [exec, execCqHeadDoorbell] at run
    split_ifs at run <;> cases run
    exacts [.inl rfl, .inr ⟨_, rfl⟩, .inr ⟨_, rfl⟩]
  · simp only [exec, execQueueEnable] at run
    split_ifs at run <;> cases run
    exacts [.inl rfl, .inl rfl, .inr ⟨_, rfl⟩, .inr ⟨_, rfl⟩]
  · simp only [exec, execQueueDisable] at run
    split_ifs at run <;> cases run
    exacts [.inl rfl, .inr ⟨_, rfl⟩]

/-- Settles O11: `modQueue` touches one entry of the queues. -/
theorem queuePageFrame : Obligations.QueuePageFrame := by
  intro c p q s t h run
  obtain rfl | ⟨f, rfl⟩ := exec_queueCommand h run
  · exact ⟨rfl, rfl, rfl, rfl, rfl, rfl, rfl, rfl, rfl, rfl, fun _ _ => rfl⟩
  · exact ⟨rfl, rfl, rfl, rfl, rfl, rfl, rfl, rfl, rfl, rfl, fun k hk => kvGet?_put_ne hk _ _⟩

section
variable {s : State} {p q : Nat}

/-- What a doorbell write of the tail does to the queue. -/
theorem execSqTailDoorbell_queue {tail : Nat} (hq : q < s.sqCount p) (ready : s.isReady = true) (steady : s.pstate p ≠ stResetting) :
    execSqTailDoorbell p q tail s =
      .next (s.modQueue p q fun x => if (s.queue p q).sqSize ≤ tail then { x with dbErr := true } else { x with tail := tail }) := by
  unfold execSqTailDoorbell
  rw [if_neg (by simp [ready]; omega), if_neg (fun h => steady h.1)]
  split <;> rfl

theorem execCqHeadDoorbell_queue {head : Nat} (hq : q < s.sqCount p) (ready : s.isReady = true) :
    execCqHeadDoorbell p q head s = .next (s.modQueue p q fun x =>
      if (s.queue p q).cqSize ≤ head ∨ (s.queue p q).used < (s.queue p q).freed head then { x with dbErr := true }
      else { x with head := head, used := x.used - (s.queue p q).freed head }) := by
  unfold execCqHeadDoorbell
  rw [if_neg (by simp [ready]; omega)]
  dsimp only
  split <;> rfl

end

/-- Settles O10: one case of each command's checks after another. -/
theorem queuePage : Obligations.QueuePage := by
  refine ⟨?tail, ?discarded, ?tailErr, ?head, ?headErr, ?enable, ?enableErr, ?disable⟩
  case tail =>
    intro s p q tail hq ready steady fits
    exact ⟨_, execSqTailDoorbell_queue hq ready steady, by simp only [State.queue_modQueue, if_neg (Nat.not_le.mpr fits)]⟩
  case discarded =>
    intro s p q tail resetting early
    have silent : (((s.part p).rst.map (fun r => r.scrubbing)) = some true) = false := by
      cases h : (s.part p).rst with
      | none => simp
      | some r => simp [early r h]
    simp only [exec, execSqTailDoorbell]
    split
    · rfl
    · exact if_pos ⟨resetting, silent⟩
  case tailErr =>
    intro s p q tail hq ready steady past
    exact ⟨_, execSqTailDoorbell_queue hq ready steady, by simp only [State.queue_modQueue, if_pos past]⟩
  case head =>
    intro s p q head hq ready fits written
    exact ⟨_, execCqHeadDoorbell_queue hq ready, by simp only [State.queue_modQueue, if_neg
        (not_or.mpr ⟨Nat.not_le.mpr fits, Nat.not_lt.mpr written⟩)]⟩
  case headErr =>
    intro s p q head hq ready past
    exact ⟨_, execCqHeadDoorbell_queue hq ready, by simp only [State.queue_modQueue, if_pos past]⟩
  case enable =>
    intro s p q hq ready off ok
    have run : exec (.queueEnable p q) s = .next (s.modQueue p q fun x =>
        { sqBase := x.sqBase, cqBase := x.cqBase, cfg := fCfgEnable.put 1 x.cfg, cfgErr := x.cfgErr, dbErr := x.dbErr }) := by
      simp only [exec, execQueueEnable, if_neg (Nat.not_le.mpr hq), off, if_pos (And.intro ready ok)]
      rfl
    refine ⟨_, run, ?_⟩
    rw [State.queue_modQueue]
    exact ⟨enabled_put (v := 1) rfl, rfl, rfl, rfl, rfl, rfl⟩
  case enableErr =>
    intro s p q hq off bad
    refine ⟨_, ?_, State.queue_modQueue s p q fun x => { x with cfgErr := true }⟩
    have fails : ¬(s.isReady = true ∧ s.enableOk p (s.queue p q) = true) := by
      rintro ⟨a, b⟩
      simp [a, b] at bad
    simp only [exec, execQueueEnable, if_neg (Nat.not_le.mpr hq), off, if_neg fails]
    rfl
  case disable =>
    intro s p q hq
    refine ⟨_, if_neg (Nat.not_le.mpr hq), ?_⟩
    rw [State.queue_modQueue]
    exact ⟨enabled_put (v := 0) rfl, rfl, rfl⟩

end Sys2Proof.Machine
end

section
set_option Elab.async false
/-! SUPPORT. Quiesce of a partition (spec/03): its state and QUIESCE are fields of two registers; and QUENCH limits (spec/14). -/

namespace Sys2Proof.Machine

theorem State.pstate_setPstate (s : State) (p st : Nat) : (s.setPstate p st).pstate p = st % 8 := State.fld_setFld _ _ _ _ (by decide)

theorem rPrtStatus_ne_rPrtCtl (p : Nat) : rPrtStatus p ≠ rPrtCtl p := by unfold rPrtStatus rPrtCtl; omega

theorem State.fld_setFld_ne (s : State) {o x : Nat} (h : x ≠ o) (f g : Fld) (v : Nat) : (s.setFld o f v).fld x g = s.fld x g :=
  State.fld_setReg_ne s h g _

theorem State.pstate_setCtl (s : State) (p v : Nat) (f : Fld) : (s.setFld (rPrtCtl p) f v).pstate p = s.pstate p :=
  State.fld_setFld_ne s (rPrtStatus_ne_rPrtCtl p) _ _ _

theorem State.quiesce_setPstate (s : State) (p st v : Nat) :
    ((s.setFld (rPrtCtl p) fPrtCtl_QUIESCE v).setPstate p st).fld (rPrtCtl p) fPrtCtl_QUIESCE = v % 2 :=
  (State.fld_setFld_ne _ (rPrtStatus_ne_rPrtCtl p).symm _ _ _).trans (State.fld_setFld _ _ _ _ (by decide))

/-- QUIESCE and STATE lie in two registers, and no other register is touched. -/
theorem sameRegsBut_setCtl_setPstate (s : State) (p v st : Nat) (f : Fld) :
    SameRegsBut s ((s.setFld (rPrtCtl p) f v).setPstate p st) [rPrtCtl p, rPrtStatus p] := by
  intro o ho
  obtain ⟨ctl, status⟩ : o ≠ rPrtCtl p ∧ o ≠ rPrtStatus p := by simpa using ho
  rw [State.setPstate, State.reg_setFld, if_neg status, State.reg_setFld, if_neg ctl]

theorem State.win_setWin_ne (s : State) (p : Nat) {o x : Nat} (h : x ≠ o) (w : Word) : (s.setWin p o w).win p x = s.win p x := by
  have key : p * 0x100000 + x ≠ p * 0x100000 + o := by omega
  unfold State.setWin State.win
  simp only [State.putWinReg_reads]
  split
  · rw [kvGet?_del, if_neg key]
  · rw [kvGet?_put, if_neg key]

/-- A message on an unmasked vector of an enabled function is sent. -/
theorem sendMsix_sent {s : State} {p v : Nat} (on : s.funcEnabled p = true) (open_ : s.vecMasked p v = false) :
    Sent s (s.sendMsix p v) (.msix p v) := by
  have cleared : (s.clearCoal p v).funcEnabled p = true ∧ (s.clearCoal p v).vecMasked p v = false := ⟨on, open_⟩
  unfold State.sendMsix
  simp only [cleared]
  exact Sent.after (clearCoal_extends s p v) (sent_emit _ _)

theorem restState_lt (s : State) (p : Nat) : s.restState p < 8 := by
  unfold State.restState
  split_ifs <;> decide

/-- Setting QUIESCE on a partition that serves. -/
theorem quiesceSet_serving {s : State} {p : Nat} (h : s.pstate p = stReady ∨ (s.pstate p = stUnconfigured ∧ s.sqCount p ≠ 0)) :
    ∃ t, exec (.prtQuiesceSet p) s = .next t ∧ t.pstate p = stQuiescing ∧ t.fld (rPrtCtl p) fPrtCtl_QUIESCE = 1 ∧
      SameRegsBut s t [rPrtCtl p, rPrtStatus p] ∧ t.out = s.out ∧ t.mem = s.mem := by
  have serves : (s.setFld (rPrtCtl p) fPrtCtl_QUIESCE 1).pstate p = stReady ∨
      ((s.setFld (rPrtCtl p) fPrtCtl_QUIESCE 1).pstate p = stUnconfigured ∧ (s.setFld (rPrtCtl p) fPrtCtl_QUIESCE 1).sqCount p ≠ 0) := by
    simpa [State.pstate_setCtl, State.sqCount] using h
  exact ⟨_, if_pos serves, State.pstate_setPstate _ _ _, State.quiesce_setPstate _ _ _ _, sameRegsBut_setCtl_setPstate _ _ _ _ _, rfl, rfl⟩

theorem State.win_sendMsix (s : State) (p v : Nat) {x : Nat} (h : x ≠ 0x80800) : (s.sendMsix p v).win p x = s.win p x := by
  unfold State.sendMsix
  dsimp only
  split
  · rfl
  · split
    · exact State.win_setWin_ne _ _ h _
    · rfl

/-- The state and the event that the end of a quiesce leaves. -/
theorem quiescedEntry_marks (s : State) (p : Nat) :
    (((s.setPstate p stQuiesced).setWinBit p fWinEvQuiesced).sendMsix p 0).pstate p = stQuiesced ∧
    fWinEvQuiesced.get ((((s.setPstate p stQuiesced).setWinBit p fWinEvQuiesced).sendMsix p 0).win p 0x40000) = 1 := by
  constructor
  · rw [State.pstate, State.fld, State.reg_sendMsix]
    exact State.pstate_setPstate s p stQuiesced
  · rw [State.win_sendMsix _ _ _ (by decide), State.setWinBit, State.win_setWin, Fld.get_put _ _ _ (by decide)]
    rfl

theorem State.vecMasked_setWinBit (s : State) (p v : Nat) (f : Fld) : (s.setWinBit p f).vecMasked p v = s.vecMasked p v := by
  have unmoved : (s.setWinBit p f).win p (0x80008 + 16 * v) = s.win p (0x80008 + 16 * v) := by
    rw [State.setWinBit]
    exact State.win_setWin_ne s p (by omega) _
  rw [State.vecMasked, unmoved, State.vecMasked]

/-- The end of a quiesce is signalled with vector 0. -/
theorem quiescedEntry_sent {s : State} {p : Nat} (on : s.funcEnabled p = true) (open_ : s.vecMasked p 0 = false) :
    Sent s (((s.setPstate p stQuiesced).setWinBit p fWinEvQuiesced).sendMsix p 0) (.msix p 0) := by
  have masked : ((s.setPstate p stQuiesced).setWinBit p fWinEvQuiesced).vecMasked p 0 = false := by
    rw [State.vecMasked_setWinBit]
    exact open_
  have enabled : ((s.setPstate p stQuiesced).setWinBit p fWinEvQuiesced).funcEnabled p = true := on
  exact Sent.after (Keeps.refl s).setPstate.setWinBit.sent (sendMsix_sent enabled masked)

/-- Settles O15: each command sets STATE and QUIESCE where its condition on STATE holds. -/
theorem quiesce : Obligations.Quiesce := by
  refine ⟨fun s p h => quiesceSet_serving (.inl h), fun s p h serves => quiesceSet_serving (.inr ⟨h, serves⟩), ?clear, ?quiesced⟩
  case clear =>
    intro s p h
    have quiesced : (s.setFld (rPrtCtl p) fPrtCtl_QUIESCE 0).pstate p = stQuiescing ∨
        (s.setFld (rPrtCtl p) fPrtCtl_QUIESCE 0).pstate p = stQuiesced := by
      simpa [State.pstate_setCtl] using h
    have rests : ((s.setFld (rPrtCtl p) fPrtCtl_QUIESCE 0).setPstate p (s.restState p)).pstate p = s.restState p := by
      rw [State.pstate_setPstate, Nat.mod_eq_of_lt (restState_lt s p)]
    refine ⟨_, if_pos quiesced, rests, fun on enabled => ?_, State.quiesce_setPstate _ _ _ _, sameRegsBut_setCtl_setPstate _ _ _ _ _, rfl⟩
    refine rests.trans ?_
    simp [State.restState, on, enabled]
  case quiesced =>
    intro s p h quiet
    exact ⟨_, if_pos ⟨h, quiet⟩, (quiescedEntry_marks s p).1, (quiescedEntry_marks s p).2, quiescedEntry_sent⟩

end Sys2Proof.Machine
end

section
set_option Elab.async false
/-! SUPPORT. QUENCH limits (spec/14): one entry for each sender, partition and VC, replaced by a later one. -/

namespace Sys2Proof.Machine

/-- A limit as a QUENCH from `src` sets it on VC `v`. -/
structure LimitOf (src part rate expiry v : Nat) (q : Quench) : Prop where
  sender : q.sender = src
  part : q.part = part
  vc : q.vc = v
  rate : q.rate = rate
  expiry : q.expiry = expiry

/-- The limits of a QUENCH entered one after another on a list of VCs. -/
def State.putLimits (s : State) (src part rate us : Nat) (vs : List Nat) : State :=
  vs.foldl (fun (t : State) v => t.putQuench
    { sender := src, part := part, vc := v, expiry := t.now + us * 1000, rate := rate, bucket := { tokens := 4352000000000, last := t.now } }) s

/-- With room in the table a limit replaces the one with its key. -/
theorem State.putQuench_room {s : State} {q : Quench} (room : s.fab.quench.length < 1024) :
    s.putQuench q = s.modFab fun f =>
      { f with quench := s.fab.quench.filter (fun x => !(x.sender == q.sender && x.part == q.part && x.vc == q.vc)) ++ [q] } :=
  if_pos (lt_of_le_of_lt (List.length_filter_le _ _) room)

/-- What the limits of a QUENCH change: the table only, in which each VC of the list then has its limit, and nothing else is new. -/
theorem putLimits_spec (src part rate us : Nat) (vs : List Nat) : ∀ s : State, s.fab.quench.length + vs.length ≤ 1024 →
    ∃ qs, s.putLimits src part rate us vs = s.modFab (fun f => { f with quench := qs }) ∧
      (∀ v, (v ∈ vs ∨ ∃ q ∈ s.fab.quench, LimitOf src part rate (s.now + us * 1000) v q) → ∃ q ∈ qs, LimitOf src part rate (s.now + us * 1000) v q) ∧
      (∀ q ∈ qs, q ∈ s.fab.quench ∨ (q.sender = src ∧ q.part = part ∧ q.vc ∈ vs)) := by
  induction vs with
  | nil =>
    intro s _
    refine ⟨s.fab.quench, rfl, fun v h => ?_, fun q h => .inl h⟩
    obtain h | h := h
    · cases h
    · exact h
  | cons v vs ih =>
    intro s room
    have putOne := State.putQuench_room (s := s)
      (q := { sender := src, part := part, vc := v, expiry := s.now + us * 1000, rate := rate, bucket := { tokens := 4352000000000, last := s.now } })
      (by simp at room; omega)
    generalize hq : Quench.mk src part v (s.now + us * 1000) rate _ = new at putOne
    have isNew : LimitOf src part rate (s.now + us * 1000) v new := by subst hq; exact ⟨rfl, rfl, rfl, rfl, rfl⟩
    obtain ⟨qs, run, has, only⟩ := ih (s.putQuench new) (by
      have kept := List.length_filter_le (fun x : Quench => !(x.sender == new.sender && x.part == new.part && x.vc == new.vc)) s.fab.quench
      have more : vs.length + 1 = (v :: vs).length := rfl
      rw [putOne]
      refine (Nat.add_le_add_right (List.length_append.le.trans (Nat.add_le_add_right kept 1)) vs.length).trans ?_
      omega)
    have now : (s.putQuench new).now = s.now := by rw [putOne]; rfl
    have held : (s.putQuench new).fab.quench =
        s.fab.quench.filter (fun x => !(x.sender == new.sender && x.part == new.part && x.vc == new.vc)) ++ [new] := by rw [putOne]; rfl
    rw [now, held] at has
    rw [held] at only
    refine ⟨qs, ?_, fun x h => has x ?_, fun q h => ?_⟩
    · have first : s.putLimits src part rate us (v :: vs) = (s.putQuench new).putLimits src part rate us vs := by subst hq; rfl
      rw [first, run, putOne]
      rfl
    · obtain h | ⟨q, hm, hl⟩ := h
      · obtain rfl | h := List.mem_cons.mp h
        · exact .inr ⟨new, by simp, isNew⟩
        · exact .inl h
      · by_cases same : q.sender = new.sender ∧ q.part = new.part ∧ q.vc = new.vc
        · refine .inr ⟨new, by simp, ?_⟩
          rw [← hl.vc, same.2.2, isNew.vc]
          exact isNew
        · refine .inr ⟨q, List.mem_append_left _ (List.mem_filter.mpr ⟨hm, ?_⟩), hl⟩
          rw [Bool.not_eq_true', ← Bool.not_eq_true]
          simpa [and_assoc] using same
    · obtain h | ⟨a, b, c⟩ := only q h
      · obtain h | h := List.mem_append.mp h
        · exact .inl (List.mem_of_mem_filter h)
        · obtain rfl := List.mem_singleton.mp h
          exact .inr ⟨isNew.sender, isNew.part, isNew.vc ▸ List.mem_cons_self⟩
      · exact .inr ⟨a, b, List.mem_cons_of_mem _ c⟩

/-- The VCs that a QUENCH limits: those of its mask, but never VC0. -/
def quenchVcs (mask : Nat) : List Nat := (List.range 7).filter (fun v => v != 0 && bitOf mask v)

theorem mem_quenchVcs {mask v : Nat} : v ∈ quenchVcs mask ↔ 1 ≤ v ∧ v ≤ 6 ∧ bitOf mask v = true := by
  rw [quenchVcs, List.mem_filter, List.mem_range, Bool.and_eq_true, bne_iff_ne]
  constructor
  · rintro ⟨below, positive, asked⟩
    exact ⟨by omega, by omega, asked⟩
  · rintro ⟨one, six, asked⟩
    exact ⟨by omega, by omega, asked⟩

theorem length_quenchVcs_le (mask : Nat) : (quenchVcs mask).length ≤ 7 := (List.length_filter_le _ _).trans (by simp)

/-- An order that precedes one acted on only leaves the list of arrived packets. -/
theorem takeOrder_stale {s : State} {src seq : Nat} (f : State → State) (stale : s.orderFresh src seq = false) :
    s.takeOrder src seq f = s.modFab (fun x => { x with arrived := x.arrived.filter (fun y => !(y.vc == 0 && y.srcNode == src && y.seq == seq)) })
        := by
  have stays : (s.modFab (fun x => { x with arrived := x.arrived.filter (fun y => !(y.vc == 0 && y.srcNode == src && y.seq == seq))
      })).orderFresh src seq =
      false := stale
  unfold State.takeOrder
  dsimp only
  rw [if_neg (by rw [stays]; decide)]

/-- The state on which a fresh order acts: its packet is taken and its SEQ noted. -/
def State.orderTaken (s : State) (src seq : Nat) : State :=
  (s.modFab (fun x => { x with arrived := x.arrived.filter (fun y => !(y.vc == 0 && y.srcNode == src && y.seq == seq)) })).orderSeen src seq

theorem takeOrder_fresh {s : State} {src seq : Nat} (f : State → State) (fresh : s.orderFresh src seq = true) :
    s.takeOrder src seq f = f (s.orderTaken src seq) := by
  have stays : (s.modFab (fun x => { x with arrived := x.arrived.filter (fun y => !(y.vc == 0 && y.srcNode == src && y.seq == seq))
      })).orderFresh src seq =
      true := fresh
  unfold State.takeOrder
  dsimp only
  rw [if_pos stays]
  rfl

/-- What a QUENCH that has been counted and entered does to the packets that it limits: those not begun are held back. -/
def State.holdQuenched (s : State) : State :=
  let back := s.fab.links.flatMap (fun l => l.2.localq.filter (fun e => s.quenched e.pkt))
  let free := kvMapVals (fun _ (x : Link) => { x with localq := x.localq.filter (fun e => !s.quenched e.pkt) }) s.fab.links
  (s.modFab (fun f => { f with links := free })).holdBack (back.map (fun e => { e with quenched := some s.now }))

theorem execQuenchArrival_fresh {s : State} {src seq : Nat} (part mask dur rate : Nat) (fresh : s.orderFresh src seq = true) :
    exec (.quenchArrival src seq part mask dur rate) s = .next
      ((((s.orderTaken src seq).bump cFabQuenchRcvd 1).putLimits src part rate (max 1 (min 10000 dur)) (quenchVcs mask)).holdQuenched) :=
  congrArg Host.Outcome.next (takeOrder_fresh _ fresh)

/-- Holding packets back touches the fabric's links and held packets only. -/
theorem holdQuenched_reads (s : State) : s.holdQuenched.mem = s.mem ∧ s.holdQuenched.out = s.out ∧ (∀ o, s.holdQuenched.ctr o = s.ctr o) ∧
    s.holdQuenched.fab.quench = s.fab.quench ∧ (∀ k, s.holdQuenched.quenched k = s.quenched k) ∧ s.holdQuenched.fab.links =
      kvMapVals (fun _ (x : Link) => { x with localq := x.localq.filter (fun e => !s.quenched e.pkt) }) s.fab.links :=
  ⟨rfl, rfl, fun _ => rfl, rfl, fun _ => rfl, rfl⟩

theorem holdQuenched_links (s : State) : ∀ x ∈ s.holdQuenched.fab.links, ∀ e ∈ x.2.localq, s.holdQuenched.quenched e.pkt = false := by
  obtain ⟨-, -, -, -, quenched, links⟩ := holdQuenched_reads s
  intro x hx e he
  rw [links] at hx
  obtain ⟨y, -, rfl⟩ := List.mem_map.mp hx
  simpa [quenched] using (List.mem_filter.mp he).2

/-- Settles O44: the table after a QUENCH by induction on the VCs that it names; the other commands filter it. -/
theorem quenchLimits : Obligations.QuenchLimits := by
  refine ⟨?quench, ?release, fun s n part vc => ⟨_, rfl, rfl, rfl, rfl, rfl, rfl⟩, ?stale⟩
  case quench =>
    intro s src seq part mask dur rate fresh room count
    have counted : (s.orderTaken src seq).bump cFabQuenchRcvd 1 = (s.orderTaken src seq).setCtr cFabQuenchRcvd (s.ctr cFabQuenchRcvd + 1) :=
      State.bump_eq _ _ _ count
    have run := execQuenchArrival_fresh part mask dur rate fresh
    rw [counted] at run
    obtain ⟨qs, put, has, only⟩ := putLimits_spec src part rate (max 1 (min 10000 dur)) (quenchVcs mask)
      ((s.orderTaken src seq).setCtr cFabQuenchRcvd (s.ctr cFabQuenchRcvd + 1))
      ((Nat.add_le_add_left (length_quenchVcs_le mask) _).trans room)
    rw [put] at run
    obtain ⟨mem, out, ctr, quench, -, -⟩ := holdQuenched_reads
      (((s.orderTaken src seq).setCtr cFabQuenchRcvd (s.ctr cFabQuenchRcvd + 1)).modFab fun f => { f with quench := qs })
    refine ⟨_, run, ?_, mem, out, fun v one six asked => ?_, fun q h => ?_, holdQuenched_links _⟩
    · rw [ctr, State.modFab_eq]
      simp [State.ctr_setCtr]
    · obtain ⟨q, hq, limit⟩ := has v (.inl (mem_quenchVcs.mpr ⟨one, six, asked⟩))
      exact ⟨q, quench.symm ▸ hq, limit.sender, limit.part, limit.vc, limit.rate, limit.expiry⟩
    · obtain h | ⟨a, b, c⟩ := only q (by rw [quench] at h; exact h)
      · exact .inl h
      · obtain ⟨one, -, asked⟩ := mem_quenchVcs.mp c
        exact .inr ⟨a, b, one, asked⟩
  case release =>
    intro s src seq fresh
    exact ⟨_, congrArg Host.Outcome.next (takeOrder_fresh _ fresh), rfl, rfl, rfl, rfl, rfl⟩
  case stale =>
    intro s c src seq part mask dur rate h stale
    obtain rfl | rfl : c = _ ∨ c = _ := by simpa using h
    · exact congrArg Host.Outcome.next (takeOrder_stale _ stale)
    · exact congrArg Host.Outcome.next (takeOrder_stale _ stale)

end Sys2Proof.Machine
end

section
set_option Elab.async false
/-! SUPPORT. Accounting: what counts, meters, shapers, interrupts and the noting of core time leave as it was (`Aside`). A command does these beside
its effect, and its effect is read off past them. -/

namespace Sys2Proof.Machine

/-- The state without what accounting writes: registers and counters, windows, traffic to the host, the partitions' flow state, the meters and
finish times of the fabric, the meters of compositions, the record of events, the logbook and the position of the free value. -/
def State.core (s : State) : State :=
  { s with
    free := 0, regs := [], ctrs := [], winReg := [], parts := [], out := [], log := []
    mem := { s.mem with comps := [] }
    fab := { s.fab with doms := [], buckets := [], meters := [] }
    flt := { units := s.flt.units, badReads := s.flt.badReads, poolLost := s.flt.poolLost, stopped := s.flt.stopped, ahead := s.flt.ahead } }

/-- A register that no count, event or message writes: it lies below the fault block, or is a partition's status register. -/
def Uncounted (x : Nat) : Prop := x < 0x2800000 ∨ ∃ p, x = rPrtStatus p

/-- There are 27 counter blocks. -/
theorem blockIndex_lt (o : Nat) : ∀ b, blockIndex o = some b → b < 27 := by
  unfold blockIndex
  repeat' refine iteInduction (motive := fun x : Option Nat => ∀ b, x = some b → b < 27) (fun _ => ?_) (fun _ => ?_)
  all_goals
    intro b h
    cases h
  all_goals omega

/-- `t` follows `s` by accounting only. -/
structure Aside (s t : State) : Prop where
  core : t.core = s.core
  cfg : ∀ p, (t.part p).cfg = (s.part p).cfg
  rst : ∀ p, (t.part p).rst = (s.part p).rst
  reg : ∀ x, Uncounted x → t.reg x = s.reg x
  sent : Extends s t

namespace Aside

theorem refl (s : State) : Aside s s := ⟨rfl, fun _ => rfl, fun _ => rfl, fun _ _ => rfl, .refl s⟩

section
variable {s t u : State}

theorem trans (h : Aside s t) (g : Aside t u) : Aside s u :=
  ⟨g.core.trans h.core, fun p => (g.cfg p).trans (h.cfg p), fun p => (g.rst p).trans (h.rst p), fun x hx => (g.reg x hx).trans (h.reg x hx),
    h.sent.trans g.sent⟩

theorem ite {c : Prop} [Decidable c] (h : Aside s t) (g : Aside s u) : Aside s (if c then t else u) := by
  split
  · exact h
  · exact g

theorem foldl {α : Type} {f : State → α → State} {l : List α} (h : Aside s t) (step : ∀ u a, Aside s u → Aside s (f u a)) :
    Aside s (l.foldl f t) := by
  induction l generalizing t with
  | nil => exact h
  | cons a l ih => exact ih (step t a h)

/-! ### What stays -/

section
variable (h : Aside s t)
include h

/-- Whatever is read of the core reads as before. -/
theorem view {α : Type} (π : State → α) : π t.core = π s.core := congrArg π h.core

theorem time : t.time = s.time := h.view State.time
theorem now : t.now = s.now := h.view State.now
theorem recs : t.recs = s.recs := h.view State.recs
theorem nextRec : t.nextRec = s.nextRec := h.view State.nextRec
theorem fetchNo : t.fetchNo = s.fetchNo := h.view State.fetchNo
theorem queues : t.queues = s.queues := h.view State.queues
theorem ctxs : t.ctxs = s.ctxs := h.view State.ctxs
theorem sels : t.sels = s.sels := h.view State.sels
theorem bank : t.bank = s.bank := h.view State.bank
theorem tokens : t.tokens = s.tokens := h.view State.tokens
theorem corpora : t.corpora = s.corpora := h.view State.corpora
theorem builds : t.builds = s.builds := h.view State.builds
theorem queries : t.queries = s.queries := h.view State.queries
theorem arrays : t.arrays = s.arrays := h.view State.arrays
theorem atokens : t.atokens = s.atokens := h.view State.atokens
theorem models : t.models = s.models := h.view State.models
theorem emb : t.emb = s.emb := h.view State.emb
theorem flash : t.flash = s.flash := h.view State.flash
theorem load : t.load = s.load := h.view State.load
theorem sec : t.sec = s.sec := h.view State.sec
theorem board : t.board = s.board := h.view State.board
theorem stopped : t.flt.stopped = s.flt.stopped := h.view (fun u => u.flt.stopped)
theorem units : t.flt.units = s.flt.units := h.view (fun u => u.flt.units)
theorem memory : { t.mem with comps := [] } = { s.mem with comps := [] } := h.view State.mem
theorem read (a : Nat) : t.mem.read a = s.mem.read a := h.view (fun u => u.mem.read a)
theorem tensors : t.mem.tensors = s.mem.tensors := h.view (fun u => u.mem.tensors)
theorem allocs : t.mem.allocs = s.mem.allocs := h.view (fun u => u.mem.allocs)
theorem pstate (p : Nat) : t.pstate p = s.pstate p := congrArg (fun w : Word => fPrtStatus_STATE.get w) (h.reg _ (.inr ⟨p, rfl⟩))
theorem pcfg (p : Nat) : t.pcfg p = s.pcfg p := congrArg (fun c : Option PartCfg => c.getD (fixedCfg p)) (h.cfg p)
theorem configured (p : Nat) : t.configured p = s.configured p := congrArg Option.isSome (h.cfg p)

end

/-! ### Registers -/

theorem putRegs {v : KV Word} (h : Aside s t) (keeps : ∀ x, Uncounted x → (t.putRegs v).reg x = t.reg x) : Aside s (t.putRegs v) :=
  ⟨h.core, h.cfg, h.rst, fun x hx => (keeps x hx).trans (h.reg x hx), h.sent⟩

theorem setReg {o : Nat} {w : Word} (h : Aside s t) (counts : ¬Uncounted o) : Aside s (t.setReg o w) :=
  h.putRegs fun x hx => (State.reg_setReg t o x w).trans (if_neg fun (e : x = o) => counts (e ▸ hx))

theorem setFld {o v : Nat} {f : Fld} (h : Aside s t) (counts : ¬Uncounted o) : Aside s (t.setFld o f v) := h.setReg counts

theorem setFldPf {pf o v : Nat} {f : Fld} (h : Aside s t) (counts : ¬Uncounted (pfKey pf o)) : Aside s (t.setFldPf pf o f v) := by
  refine h.putRegs fun x hx => ?_
  have other : x ≠ pfKey pf o := fun e => counts (e ▸ hx)
  unfold State.reg
  simp only [State.putRegs_reads]
  split
  · rw [kvGet?_del, if_neg other]
  · rw [kvGet?_put, if_neg other]

/-! ### Counts, events and messages -/

theorem setCtr {o v : Nat} (h : Aside s t) : Aside s (t.setCtr o v) := ⟨h.core, h.cfg, h.rst, h.reg, h.sent⟩
theorem rawBump {o n : Nat} (h : Aside s t) : Aside s (t.rawBump o n).1 := h.setCtr
theorem setWin {p o : Nat} {w : Word} (h : Aside s t) : Aside s (t.setWin p o w) := ⟨h.core, h.cfg, h.rst, h.reg, h.sent⟩
theorem emit {o : HostOut} (h : Aside s t) : Aside s (t.emit o) := ⟨h.core, h.cfg, h.rst, h.reg, h.sent.trans (emit_extends t o)⟩
theorem putFree {v : Nat} (h : Aside s t) : Aside s (t.putFree v) := ⟨h.core, h.cfg, h.rst, h.reg, h.sent⟩
theorem fresh (h : Aside s t) : Aside s t.fresh.2 := h.putFree

theorem markSat {o : Nat} (h : Aside s t) : Aside s (t.markSat o) := by
  unfold State.markSat
  split
  · exact h
  next b e =>
    have small := blockIndex_lt _ _ e
    refine h.setReg fun u => ?_
    obtain u | ⟨p, u⟩ := u
    · unfold rFltSat at u
      omega
    · unfold rFltSat rPrtStatus at u
      omega

theorem clearCoal {p v : Nat} (h : Aside s t) : Aside s (t.clearCoal p v) := ⟨h.core, h.cfg, h.rst, h.reg, h.sent.trans (clearCoal_extends t p v)⟩

theorem sendMsix {p v : Nat} (h : Aside s t) : Aside s (t.sendMsix p v) := ite h.clearCoal (ite h.clearCoal.setWin h.clearCoal.emit)

theorem latch {a b : Nat} (h : Aside s t) : Aside s (t.latch a b) := by
  have ctl : ¬Uncounted rSnpCtl := by unfold Uncounted rSnpCtl rPrtStatus; omega
  have status : ¬Uncounted rSnpStatus := by unfold Uncounted rSnpStatus rPrtStatus; omega
  have info : ¬Uncounted rSnpInfo := by unfold Uncounted rSnpInfo rPrtStatus; omega
  have kept : Aside s (t.modFlt fun x => { x with snap := some { copy0 := t.viewAll 0, copy1 := t.viewAll 1 } }) :=
      ⟨h.core, h.cfg, h.rst, h.reg, h.sent⟩
  exact ((kept.setFld ctl).setReg status).setReg info

theorem drogue {a b : Nat} (h : Aside s t) : Aside s (t.drogue a b).1 := by
  have info : ¬Uncounted rSnpInfo := by unfold Uncounted rSnpInfo rPrtStatus; omega
  unfold State.drogue
  split_ifs
  · exact h
  · exact h.latch
  · exact h.setFld info
  · exact ite h.rawBump.markSat h.rawBump

theorem eventIrq {pf cls : Nat} (h : Aside s t) : Aside s (t.eventIrq pf cls) := ite h.sendMsix h

theorem addLost {pf n : Nat} (low : pf < 2) (h : Aside s t) : Aside s (t.addLost pf n) := by
  have counts : ¬Uncounted (pfKey pf rFltEvtStatus) := by unfold Uncounted pfKey rFltEvtStatus rPrtStatus; omega
  exact ite h (h.setFldPf counts)

theorem modFlt {f : Faults → Faults} (h : Aside s t) (units : (f t.flt).units = t.flt.units) (reads : (f t.flt).badReads = t.flt.badReads)
    (lost : (f t.flt).poolLost = t.flt.poolLost) (stopped : (f t.flt).stopped = t.flt.stopped) (ahead : (f t.flt).ahead = t.flt.ahead) :
    Aside s (t.modFlt f) :=
  ⟨Eq.trans (by simp only [State.core, State.modFlt_eq, State.putFlt_reads, units, reads, lost, stopped, ahead]) h.core, h.cfg, h.rst, h.reg, h.sent⟩

/-- A corrected event is placed in the rings; the logbook does not take it. -/
theorem evPlace {b c d e f g : Nat} (h : Aside s t) : Aside s (t.evPlace 0 b c d e f g) := by
  have tallied : Aside s (t.tallyHour b c e) := by
    unfold State.tallyHour
    refine h.modFlt ?_ ?_ ?_ ?_ ?_ <;> (dsimp only; split <;> split <;> rfl)
  unfold State.evPlace
  rw [if_pos rfl]
  dsimp only
  split
  · exact tallied.modFlt rfl rfl rfl rfl rfl
  · exact (((tallied.drogue.modFlt rfl rfl rfl rfl rfl).addLost (by decide)).addLost (by decide)).eventIrq.eventIrq

/-- A corrected event counts and is reported, and does no more. -/
theorem event {b c d e f g : Nat} (h : Aside s t) : Aside s (t.event 0 b c d e f g) := by
  have counted : Aside s (t.evCount 0).1 := h.rawBump
  unfold State.event
  exact ite (ite counted.evPlace.markSat.rawBump.evPlace counted.evPlace.markSat) counted.evPlace

theorem bump {o n : Nat} (h : Aside s t) : Aside s (t.bump o n) := by
  unfold State.bump
  exact ite (ite h.rawBump.markSat.event h.rawBump.markSat) h.rawBump

/-! ### Flows, meters and core time -/

theorem modPart {p : Nat} {f : Part → Part} (h : Aside s t) (cfg : ∀ x, (f x).cfg = x.cfg) (rst : ∀ x, (f x).rst = x.rst) :
    Aside s (t.modPart p f) := by
  refine ⟨h.core, fun q => (?_ : _ = (t.part q).cfg).trans (h.cfg q), fun q => (?_ : _ = (t.part q).rst).trans (h.rst q), h.reg, h.sent⟩ <;>
    by_cases e : q = p <;> simp [State.part, kvGetD, kvGet?_put, e, cfg, rst]

theorem chargeBw {p k n : Nat} (h : Aside s t) : Aside s (t.chargeBw p k n) := by
  have metered : Aside s (if k = 3 then t.addMeter p 7 n else t) := by
    refine ite ?_ h
    unfold State.addMeter
    refine ite h ?_
    split
    · exact h
    · exact ⟨h.core, h.cfg, h.rst, h.reg, h.sent⟩
  unfold State.chargeBw
  dsimp only
  split
  · exact h
  · generalize (if k = 3 then t.addMeter p 7 n else t) = v at metered
    refine ite metered (ite ?_ (bump ?_))
    · exact metered.modPart (fun _ => rfl) fun _ => rfl
    · exact metered.modPart (fun _ => rfl) fun _ => rfl

theorem access {p a n : Nat} (h : Aside s t) : Aside s (t.access p a n) := by
  unfold State.access
  split
  · exact h
  · exact ite (ite h.chargeBw h) (foldl (ite h.chargeBw h) fun _ _ g => ite g.bump g)

theorem coreRan {p n : Nat} (h : Aside s t) : Aside s (t.coreRan p n) := by
  unfold State.coreRan
  exact h.fresh.modPart (fun _ => rfl) fun _ => rfl

theorem phaseRan {p : Nat} (h : Aside s t) : Aside s (t.phaseRan p) := h.coreRan

theorem noteQuota {p status : Nat} {past : Bool} (h : Aside s t) : Aside s (t.noteQuota p status past) := ite h.bump h

theorem modFab {f : Fab → Fab} (h : Aside s t)
    (flows : { f t.fab with doms := [], buckets := [], meters := [] } = { t.fab with doms := [], buckets := [], meters := [] }) : Aside s
        (t.modFab f) :=
  ⟨Eq.trans (by simp only [State.core, State.modFab_eq, State.putFab_reads, flows]) h.core, h.cfg, h.rst, h.reg, h.sent⟩

theorem chargeHostRead {p : Nat} {flow : Nat × Bool} {n : Nat} (h : Aside s t) : Aside s (t.chargeHostRead p flow n) := by
  have debited : ∀ {v : State} {l : Nat}, Aside s v → Aside s (v.debitShaper p 1 flow.1 l) := by
    intro v l g
    unfold State.debitShaper
    split
    · exact g
    · exact g.modFab rfl
  unfold State.chargeHostRead
  refine modFab (debited ?_) rfl
  split <;> split
  · exact h.bump
  · exact bump (h.modFab rfl)
  · exact h
  · exact h.modFab rfl

theorem journal (h : Aside s t) : Aside s t.journal := h.fresh.bump

end
end Aside

end Sys2Proof.Machine
end

section
set_option Elab.async false
/-! SUPPORT. Commands that the queue serves itself (spec/04): NOP, FENCE, CANCEL, and the events of long operations. -/

namespace Sys2Proof.Machine

theorem finalCount_zero (r : Rec) (status : Nat) : r.finalCount status 0 = 0 := ite_self 0

theorem finalCount_done (r : Rec) (n : Nat) : r.finalCount scDone n = n := if_neg fun h => h.2.1 rfl

/-- A request that may execute completes without results, from a state that accounting and its effect have led to. -/
theorem MayRun.done {s u : State} {p q cid op rid count r0 r1 : Nat} {r : Rec} (h : MayRun s p q cid op rid r) (e : Extends s u)
    (hr : kvGet? rid u.recs = some r) (hp : u.pstate p ≠ stResetting) : Completes s (u.done p rid count r0 r1) p q cid scDone count r0 r1 := by
  have completes := h.completes e hr hp p scDone 0 count r0 r1 [] (.inr ⟨rfl, .inr ⟨by decide, by decide⟩⟩)
  rwa [finalCount_done] at completes

theorem UnderWay.done {s u : State} {p q cid op rid count r0 r1 : Nat} {r : Rec} (h : UnderWay s p q cid op rid r) (e : Extends s u)
    (hr : kvGet? rid u.recs = some r) (hp : u.pstate p ≠ stResetting) : Completes s (u.done p rid count r0 r1) p q cid scDone count r0 r1 := by
  have completes := h.completes e hr hp p scDone 0 count r0 r1 [] (.inr ⟨rfl, .inr ⟨by decide, by decide⟩⟩)
  rwa [finalCount_done] at completes

/-- The same of a command that fails a check. -/
theorem MayRun.failed {s u : State} {p q cid op rid status : Nat} {r : Rec} (h : MayRun s p q cid op rid r) (e : Extends s u)
    (hr : kvGet? rid u.recs = some r) (hp : u.pstate p ≠ stResetting) (hs : op ≠ 0x31 ∨ (status ≠ scRemoteError ∧ status ≠ scUnreachable)) :
    Completes s (u.fail p rid status) p q cid status 0 0 0 := by
  have completes := h.completes e hr hp p status 0 0 0 0 [] (.inr ⟨rfl, hs⟩)
  rwa [finalCount_zero] at completes

/-! ### CANCEL -/

theorem kvGet?_mapVals {α : Type} (f : Nat → α → α) (k : Nat) (m : KV α) : kvGet? k (kvMapVals f m) = (kvGet? k m).map (f k) := by
  induction m with
  | nil => rfl
  | cons x m ih =>
    by_cases e : k = x.1
    · subst e
      simp [kvMapVals, kvGet?]
    · simpa [kvMapVals, kvGet?, e] using ih

/-- Marking the other CANCELs of an operation leaves every other record as it is. -/
theorem kvGet?_markCancelled {s : State} {o i : Nat} {x : Rec} (h : kvGet? i s.recs = some x) (op : x.cmd.opcode ≠ 2) :
    kvGet? i (s.markCancelled o).recs = some x := by
  simp [State.markCancelled, kvGet?_mapVals, h, op]

theorem cancelTarget_completes {s : State} {p o i : Nat} {x : Rec} {l : LongOp}
    (found : s.recs.find? (fun y => y.2.part == p && y.2.fab.isNone && y.2.order == o) = some (i, x)) (hx : kvGet? i s.recs = some x)
    (long : x.long = some l) (op2 : x.cmd.opcode ≠ 2) (op4 : x.cmd.opcode ≠ 4) (hp : s.pstate p ≠ stResetting) :
    Completes s (s.cancelTarget p i x) p x.q x.cmd.cid scPartial (x.finalCount scPartial l.count) 0 0 := by
  have names := List.find?_some found
  simp only [Bool.and_eq_true, beq_iff_eq, Option.isNone_iff_eq_none] at names
  obtain ⟨⟨rfl, host⟩, -⟩ := names
  unfold State.cancelTarget
  rw [if_neg op4, long]
  exact complete_completes (s.markCancelled x.order) x.part i x scPartial 0 l.count 0 0 [] (kvGet?_markCancelled hx op2) host hp
    (.inr ⟨rfl, .inr ⟨by decide, by decide⟩⟩)

theorem cancelStaged_completes (s : State) (k : Nat) (g : Staged) :
    Completes s (s.cancelStaged k g) (k / 64) (k % 64) g.cmd.cid scPartial 0 0 0 := by
  unfold State.cancelStaged
  exact Completes.after (Keeps.refl s).markCancelled.putQueues.emit.sent (postCompletion_completes _ _ _ _ _ _ _ _ _ _ _)

/-! ### Long operations -/

/-- What a long operation does of its work leaves the records. -/
theorem recs_workOn (s : State) (rid : Nat) (r : Rec) (l : LongOp) (w : Nat) : (s.workOn rid r l w).1.recs = s.recs := by
  have copied : ∀ (m : Migration) n, (s.migrateCopy m n).recs = s.recs := by
    intro m n
    unfold State.migrateCopy
    split
    · rfl
    · split
      · rfl
      · exact (Aside.refl s).access.access.bump.recs
  have unmapped : ∀ (u : State) k n, (u.unmapUnits k n).recs = u.recs := by
    intro u k n
    unfold State.unmapUnits
    dsimp only
    split
    · exact (Aside.refl _).journal.recs
    · rfl
  have destroyed : ∀ key, (s.destroyKey rid key).recs = s.recs := by
    intro key
    unfold State.destroyKey
    split <;> rfl
  unfold State.workOn
  dsimp only
  split
  · split <;> rfl
  · exact copied _ _
  · exact (unmapped _ _ _).trans (destroyed _)
  · rfl

/-- The progress that a long operation reports lies within its million parts. -/
theorem workOn_progress_le (s : State) (rid : Nat) (r : Rec) (l : LongOp) (w : Nat) (h : l.progress ≤ 1000000) :
    (s.workOn rid r l w).2 ≤ 1000000 := by
  have share : ∀ a b, shareDone a b ≤ 1000000 := fun a b => by
    unfold shareDone
    split
    · decide
    · exact Nat.min_le_left _ _
  have part := Nat.mod_lt w (show 0 < 1000001 - l.progress by omega)
  unfold State.workOn
  dsimp only
  split
  · split
    · dsimp only
      omega
    · exact share _ _
  · exact share _ _
  · exact share _ _
  · dsimp only
    omega

theorem recOf_part {s : State} {p q cid rid : Nat} {r : Rec} (h : s.recOf p q cid = some (rid, r)) : r.part = p := by
  have names := List.find?_some h
  simp only [Bool.and_eq_true, beq_iff_eq] at names
  exact names.1.1.1

/-- The status word written is of the record's state. -/
theorem writeStatus_sends {s : State} {rid : Nat} {r : Rec} {l : LongOp} (h : kvGet? rid s.recs = some r) (long : r.long = some l) :
    Sent s (s.writeStatus rid) (.status r.part r.cmd.statusAddr (statusWord (if l.running then 1 else 0) 0 l.progress l.count)) ∧
      ∃ r', kvGet? rid (s.writeStatus rid).recs = some r' ∧ r'.long = some { l with lastWrite := s.now } := by
  unfold State.writeStatus
  rw [h]
  dsimp only
  rw [long]
  refine ⟨Sent.mono (sent_emit s _) (.of_eq rfl), { r with long := some { l with lastWrite := s.now } }, ?_, rfl⟩
  simp [kvGet?_upd, h]

/-- Settles O9: each command by the branch that its record takes. -/
theorem hostBasics : Obligations.HostBasics := by
  refine ⟨?nop, ?fence, ?fenceDone, ?fenceWaits, ?target, ?staged, ?gone, ?others, ?start, ?status⟩
  case nop =>
    intro s p q cid rid r h
    refine ⟨s.done p rid 0 0 0, ?_, h.done (.refl s) h.2.1 h.2.2⟩
    simp only [exec, execNop, h.1]
  case fence =>
    intro s p q cid rid r h
    refine ⟨s.modRec rid fun r => { r with phase := .running }, ?_, ?_, rfl⟩
    · simp only [exec, execFence, h.1]
    · simp [Begun, kvGet?_upd, h.2.1]
  case fenceDone =>
    intro s p q cid rid r h none_
    refine ⟨s.done p rid 0 0 0, ?_, h.done (.refl s) h.2.1 h.2.2⟩
    simp [exec, execFenceComplete, h.1, none_]
  case fenceWaits =>
    intro s p q cid rid r h waits
    simp [exec, execFenceComplete, h.1, waits]
  case target =>
    intro s p q cid rid r o i x l h named found hx long op2 op4 can
    refine ⟨s.cancelTarget p i x, ?_, cancelTarget_completes found hx long op2 op4 h.2.2⟩
    simp [exec, execCancel, h.1, named, found, can]
  case staged =>
    intro s p q cid rid r o k g h named none_ staged
    refine ⟨s.cancelStaged k g, ?_, cancelStaged_completes s k g⟩
    simp [exec, execCancel, h.1, named, none_, staged]
  case gone =>
    intro s p q cid rid r o h named none_ unstaged
    refine ⟨s.done p rid 0 1 0, ?_, h.done (.refl s) h.2.1 h.2.2⟩
    simp [exec, execCancel, h.1, named, none_, unstaged]
  case others =>
    intro s p q cid rid r h
    have fails : ∀ status, Completes s (s.fail p rid status) p q cid status 0 0 0 := fun _ => h.failed (.refl s) h.2.1 h.2.2 (.inl (by decide))
    refine ⟨fun o named => ⟨s.done p rid 0 0 0, ?_, h.done (.refl s) h.2.1 h.2.2⟩, fun named => ⟨s.fail p rid scBadHandle, ?_, fails _⟩,
      fun o named => ⟨s.fail p rid scBadCommand, ?_, fails _⟩⟩
    · simp [exec, execCancel, h.1, named]
    · simp [exec, execCancel, h.1, named]
    · simp [exec, execCancel, h.1, named]
  case start =>
    intro s p q cid rid r l found hr long idle turn
    have hu : kvGet? rid (s.modRec rid fun r => { r with long := some { l with running := true } }).recs =
        some { r with long := some { l with running := true } } := by simp [kvGet?_upd, hr]
    obtain ⟨sent, written⟩ := writeStatus_sends hu rfl
    have own : r.part = p := recOf_part found
    refine ⟨_, ?_, ?_, written⟩
    · simp only [exec, execLongOpStart, found, long, idle, turn]
      rfl
    · rw [← own]
      exact Sent.after (.of_eq rfl) sent
  case status =>
    intro s p q cid rid r l found hr long running bound
    have own : r.part = p := recOf_part found
    by_cases transfer : r.cmd.opcode = 0x04 ∨ r.cmd.opcode = 0x05
    · obtain ⟨sent, -⟩ := writeStatus_sends hr long
      rw [own, running] at sent
      refine ⟨s.writeStatus rid, l.progress, ?_, le_rfl, bound, sent⟩
      simp [exec, execLongOpStatusTick, found, long, running, transfer]
    · have at_most := workOn_progress_le s.fresh.2 rid r l s.fresh.1.toNat bound
      have kept := recs_workOn s.fresh.2 rid r l s.fresh.1.toNat
      have before := ((Keeps.refl s).fresh.workOn (rid := rid) (r := r) (l := l) (w := s.fresh.1.toNat)).sent
      have run : exec (.longOpStatusTick p q cid) s = .next ((((s.fresh.2.workOn rid r l s.fresh.1.toNat).1.modRec rid fun y =>
          { y with long := some { l with progress := max l.progress (s.fresh.2.workOn rid r l s.fresh.1.toNat).2 } })).writeStatus rid) := by
        simp only [exec, execLongOpStatusTick, found, long]
        rw [if_neg (by simp [running]), if_neg transfer]
      generalize s.fresh.2.workOn rid r l s.fresh.1.toNat = x at at_most kept before run
      have hu : kvGet? rid (x.1.modRec rid fun r => { r with long := some { l with progress := max l.progress x.2 } }).recs =
          some { r with long := some { l with progress := max l.progress x.2 } } := by
        have there : kvGet? rid x.1.recs = some r := kept ▸ hr
        simp [kvGet?_upd, there]
      obtain ⟨sent, -⟩ := writeStatus_sends hu rfl
      rw [own, if_pos running] at sent
      exact ⟨_, max l.progress x.2, run, le_max_left _ _, max_le bound at_most, Sent.after (before.trans (.of_eq rfl)) sent⟩

end Sys2Proof.Machine
end

section
set_option Elab.async false
/-! SUPPORT. Commands that were held go on (spec/04): by ORDERED, for claims, for what they read, and completions gathered for one message. -/

namespace Sys2Proof.Machine

/-- A record of a host command. -/
structure HostRec (r : Rec) (p : Nat) : Prop where
  part : r.part = p
  fab : r.fab = none

theorem recOf_hostRec {s : State} {p q cid rid : Nat} {r : Rec} (h : s.recOf p q cid = some (rid, r)) : HostRec r p := by
  have names := List.find?_some h
  simp only [Bool.and_eq_true, beq_iff_eq, Option.isNone_iff_eq_none] at names
  exact ⟨names.1.1.1, names.2⟩

section
variable {s : State} {p rid : Nat} {r : Rec} (hr : kvGet? rid s.recs = some r) (host : HostRec r p)
include hr

theorem kvGet?_modRec (f : Rec → Rec) : kvGet? rid (s.modRec rid f).recs = some (f r) := by
  simp [kvGet?_upd, hr]

include host

/-- A host command none of whose inputs lies in Tier F: it waits for those in Tier P. -/
theorem makeReady_noFlash (flash : ∀ x ∈ s.inputsOf p r.cmd, tierOf x.1 ≠ some 3) :
    s.makeReady rid = if ((s.inputsOf p r.cmd).filter (fun x => tierOf x.1 == some 2)).isEmpty then s.modRec rid (fun r => { r with phase := .ready })
      else (s.modRec rid (fun y => { y with phase := .inputs, need := (s.inputsOf p r.cmd).filter (fun x => tierOf x.1 == some 2)
          })).fetchInput rid := by
  obtain ⟨rfl, fab⟩ := host
  have sound : (s.inputsOf r.part r.cmd).find? (fun (x : Nat × Nat) => tierOf x.1 == some 3 &&
      (let u := unitSpan x.1 x.2; (List.range u.2).any (fun i => s.unitBad (u.1 + i)))) = none := by
    refine List.find?_eq_none.mpr fun x hx => ?_
    simp [flash x hx]
  unfold State.makeReady
  rw [hr]
  simp only [fab, Option.isSome_none, Bool.false_eq_true, if_false]
  simp only at sound
  rw [sound]

/-- One that reads nothing from Tier P or Tier F may execute. -/
theorem makeReady_near (near : ∀ x ∈ s.inputsOf p r.cmd, tierOf x.1 ≠ some 2 ∧ tierOf x.1 ≠ some 3) :
    s.makeReady rid = s.modRec rid (fun r => { r with phase := .ready }) := by
  have none_ : (s.inputsOf p r.cmd).filter (fun x => tierOf x.1 == some 2) = [] := by
    refine List.filter_eq_nil_iff.mpr fun x hx => ?_
    simp [(near x hx).1]
  rw [makeReady_noFlash hr host fun x hx => (near x hx).2, none_]
  rfl

/-- One that reads Tier P waits for it; nothing is asked of a lender that is not there yet. -/
theorem makeReady_far {a len : Nat} {far : List (Nat × Nat)} (flash : ∀ x ∈ s.inputsOf p r.cmd, tierOf x.1 ≠ some 3)
    (reads : (s.inputsOf p r.cmd).filter (fun x => tierOf x.1 == some 2) = (a, len) :: far) (pending : s.windowFor a = .ok none) :
    kvGet? rid (s.makeReady rid).recs = some { r with phase := .inputs, need := (a, len) :: far } := by
  have waits : ∀ u : State, kvGet? rid u.recs = some { r with phase := .inputs, need := (a, len) :: far } → u.windowFor a = .ok none →
      u.fetchInput rid = u := by
    intro u hu hw
    unfold State.fetchInput
    rw [hu]
    dsimp only
    rw [hw]
  have there := kvGet?_modRec hr fun r => { r with phase := .inputs, need := (a, len) :: far }
  rw [makeReady_noFlash hr host flash, reads]
  simp only [List.isEmpty_cons, Bool.false_eq_true, if_false]
  rw [waits _ there pending, there]

end

/-- Settles O14: `makeReady` by what the command reads, and the message by `sendMsix`. -/
theorem heldCommandsGoOn : Obligations.HeldCommandsGoOn := by
  refine ⟨?ordered, ?claims, ?inputs, ?message⟩
  case ordered =>
    intro s p q rid r found hr oldest free near
    have names := List.find?_some found
    simp only [Bool.and_eq_true, beq_iff_eq, Option.isNone_iff_eq_none] at names
    obtain ⟨⟨⟨part, queue⟩, fab⟩, -⟩ := names
    have host : HostRec r p := ⟨part, fab⟩
    have first : s.recs.any (fun x => x.2.part == p && x.2.q == q && x.2.fab.isNone && decide (x.2.order < r.order)) = false := by
      refine List.any_eq_false.mpr fun x hx => ?_
      simp only [Bool.and_eq_true, beq_iff_eq, Option.isNone_iff_eq_none, decide_eq_true_eq, not_and, not_lt]
      exact fun a => oldest x hx a.1.1 a.1.2 a.2
    have run : exec (.orderedRelease p q) s = .next (s.modRec rid fun r => { r with phase := .ready }) := by
      simp only [exec, execOrderedRelease, found, first, free, if_true, makeReady_near hr host near]
      rfl
    refine ⟨_, run, kvGet?_modRec hr _, fun unstaged alone => ?_⟩
    simp [State.waitOrdered, alone, kvUpd, kvGet?, kvPut, unstaged]
  case claims =>
    intro s p q cid rid r found hr waits free near
    have host := recOf_hostRec found
    refine ⟨_, ?_, kvGet?_modRec hr fun r => { r with phase := .ready }⟩
    simp only [exec, execClaimGrant, found, if_pos (And.intro waits free), makeReady_near hr host near]
  case inputs =>
    intro s p q cid rid r a len far found hr waits free flash reads pending
    have host := recOf_hostRec found
    refine ⟨_, ?_, makeReady_far hr host flash reads pending⟩
    simp only [exec, execClaimGrant, found, if_pos (And.intro waits free)]
  case message =>
    intro s p q a rest oldest due on open_
    refine ⟨_, ?_, sendMsix_sent on open_, by simp⟩
    simp only [exec, execMsixCoalesceTimeout, oldest, if_pos due]

end Sys2Proof.Machine
end

section
set_option Elab.async false
/-! SUPPORT. Fetching and admission (spec/04): what a fetched command completes with, and the record that an admitted one gets. -/

namespace Sys2Proof.Machine

/-! ### Fetching -/

theorem State.fetchNo_sendMsix (s : State) (p v : Nat) : (s.sendMsix p v).fetchNo = s.fetchNo := by simp

theorem State.fetchNo_coalesce (s : State) (p q : Nat) : (s.coalesce p q).fetchNo = s.fetchNo := by
  unfold State.coalesce
  dsimp only
  split
  · exact s.fetchNo_sendMsix _ _
  · rfl

theorem State.fetchNo_postCompletion (s : State) (p q cid stream status flags count r0 r1 : Nat) (quiet : Bool) :
    (s.postCompletion p q cid stream status flags count r0 r1 quiet).fetchNo = s.fetchNo := by
  unfold State.postCompletion
  dsimp only
  split
  · simp
  · simp [State.fetchNo_coalesce]

theorem State.fetchNo_measureModel (s v : State) (p : Nat) (c : HostCmd) (outcome : Nat) : (s.measureModel v p c outcome).fetchNo = s.fetchNo := by
  unfold State.measureModel
  split
  · rfl
  · split
    · rfl
    · unfold State.measure State.logMeasure
      dsimp only
      split <;> simp [State.putDigest]

/-- A fetched command that its chapter refuses completes at once. -/
theorem refuseFetched_completes (s : State) (p q : Nat) (c : HostCmd) (st : Nat) :
    ∃ r0 r1, Completes s (s.refuseFetched p q c st) p q c.cid st 0 r0 r1 := by
  have noted : Keeps false s (s.noteQuota p st (s.chapterOver p c)) := (Keeps.refl s).noteQuota
  have published : ∀ {o : Prop} [Decidable o], Keeps false s (if o then (s.noteQuota p st (s.chapterOver p c)).notePublish p st
      else s.noteQuota p st (s.chapterOver p c)) := Keeps.ite noted.notePublish noted
  exact ⟨_, _, Completes.after (Keeps.ite published.measureModel published).sent (postCompletion_completes _ _ _ _ _ _ _ _ _ _ _)⟩

theorem State.fetchNo_refuseFetched (s : State) (p q : Nat) (c : HostCmd) (st : Nat) : (s.refuseFetched p q c st).fetchNo = s.fetchNo := by
  unfold State.refuseFetched
  rw [State.fetchNo_postCompletion]
  have noted : (s.noteQuota p st (s.chapterOver p c)).fetchNo = s.fetchNo := ((Aside.refl s).noteQuota).fetchNo
  have published : (if c.opcode = 0x24 then (s.noteQuota p st (s.chapterOver p c)).notePublish p st else s.noteQuota p st
      (s.chapterOver p c)).fetchNo =
      s.fetchNo := by
    split
    · exact (Aside.ite (Aside.refl s).noteQuota.bump (Aside.refl s).noteQuota).fetchNo
    · exact noted
  split
  · rw [State.fetchNo_measureModel, published]
  · exact published

/-! ### What admission notes beside the record -/

/-- What a request's inputs are read off: tensors, pipeline and tables. -/
structure SameInputs (s t : State) : Prop where
  tensors : t.mem.tensors = s.mem.tensors
  cfg : ∀ p, t.pcfg p = s.pcfg p
  tables : t.emb.tables = s.emb.tables

theorem SameInputs.inputsOf {s t : State} (h : SameInputs s t) (p : Nat) (c : HostCmd) : t.inputsOf p c = s.inputsOf p c := by
  unfold State.inputsOf State.tensorOf
  rw [h.tensors, h.cfg, h.tables]

theorem SameInputs.trans {s t u : State} (h : SameInputs s t) (g : SameInputs t u) : SameInputs s u :=
  ⟨g.tensors.trans h.tensors, fun p => (g.cfg p).trans (h.cfg p), g.tables.trans h.tables⟩

/-- What an admission leaves while it notes what it pinned. -/
structure Noted (s t : State) : Prop extends SameInputs s t where
  recs : t.recs = s.recs
  nextRec : t.nextRec = s.nextRec

namespace Noted

theorem refl (s : State) : Noted s s := ⟨⟨rfl, fun _ => rfl, rfl⟩, rfl, rfl⟩

theorem trans {s t u : State} (h : Noted s t) (g : Noted t u) : Noted s u :=
  ⟨h.toSameInputs.trans g.toSameInputs, g.recs.trans h.recs, g.nextRec.trans h.nextRec⟩

theorem ite {s t u : State} {c : Prop} [Decidable c] (h : Noted s t) (g : Noted s u) : Noted s (if c then t else u) := by
  split
  · exact h
  · exact g

theorem of_aside {s t : State} (h : Aside s t) : Noted s t := ⟨⟨h.tensors, h.pcfg, h.view fun u => u.emb.tables⟩, h.recs, h.nextRec⟩

theorem bump {s t : State} {o n : Nat} (h : Noted s t) : Noted s (t.bump o n) := h.trans (of_aside (Aside.refl t).bump)

theorem noteFold {s t : State} {p : Nat} (h : Noted s t) : Noted s (t.noteFold p) := ite h ⟨⟨h.tensors, h.cfg, h.tables⟩, h.recs, h.nextRec⟩

theorem pinQuery {s t : State} {p rid : Nat} {c : HostCmd} {sub : Bool} {extra : List Byte} (h : Noted s t) :
    Noted s (t.pinQuery p rid c sub extra) := by
  have put : ∀ {u : State} {v : KV Query}, Noted s u → Noted s (u.putQueries v) := fun g => ⟨⟨g.tensors, g.cfg, g.tables⟩, g.recs, g.nextRec⟩
  exact ite (put h.noteFold).bump (put h.noteFold)

theorem pinLookup {s t : State} {p rid : Nat} {c : HostCmd} (h : Noted s t) : Noted s (t.pinLookup p rid c) := by
  unfold State.pinLookup
  split
  · exact h
  · exact ite h ⟨⟨h.tensors, h.cfg, h.tables⟩, h.recs, h.nextRec⟩

end Noted

/-! ### The record of an admitted command -/

/-- A record that admission has given to a command. -/
structure RecordOf (r : Rec) (p q : Nat) (cmd : HostCmd) (fab : Option FabOrigin) (stamp order ctx : Nat) : Prop where
  part : r.part = p
  q : r.q = q
  cmd : r.cmd = cmd
  fab : r.fab = fab
  stamp : r.stamp = stamp
  order : r.order = order
  ctx : r.ctx = ctx

/-- A state in which record `rid` is as admission gave it, and none later is taken. -/
structure Admitted (s : State) (rid p q : Nat) (cmd : HostCmd) (fab : Option FabOrigin) (stamp order ctx : Nat) : Prop where
  next : s.nextRec = rid + 1
  record : ∃ r, kvGet? rid s.recs = some r ∧ RecordOf r p q cmd fab stamp order ctx

namespace Admitted
variable {s : State} {rid p q stamp order ctx : Nat} {cmd : HostCmd} {fab : Option FabOrigin}

theorem of_noted {t : State} (h : Admitted s rid p q cmd fab stamp order ctx) (g : Noted s t) : Admitted t rid p q cmd fab stamp order ctx :=
  ⟨g.nextRec.trans h.next, by rw [g.recs]; exact h.record⟩

theorem ite {t : State} {c : Prop} [Decidable c] (h : Admitted s rid p q cmd fab stamp order ctx) (g : Admitted t rid p q cmd fab stamp order ctx) :
    Admitted (if c then s else t) rid p q cmd fab stamp order ctx := by
  split
  · exact h
  · exact g

theorem modRec {f : Rec → Rec} (h : Admitted s rid p q cmd fab stamp order ctx)
    (keeps : ∀ r, RecordOf r p q cmd fab stamp order ctx → RecordOf (f r) p q cmd fab stamp order ctx) :
    Admitted (s.modRec rid f) rid p q cmd fab stamp order ctx := by
  obtain ⟨r, hr, isOf⟩ := h.record
  exact ⟨h.next, f r, kvGet?_modRec hr f, keeps r isOf⟩

theorem writeStatus (h : Admitted s rid p q cmd fab stamp order ctx) : Admitted (s.writeStatus rid) rid p q cmd fab stamp order ctx := by
  unfold State.writeStatus
  split
  · split
    · exact Admitted.modRec (s := s.emit _) ⟨h.next, h.record⟩ fun r g => ⟨g.part, g.q, g.cmd, g.fab, g.stamp, g.order, g.ctx⟩
    · exact h
  · exact h

/-- A request that reads neither Tier P nor Tier F, or comes from the fabric, may execute at once. -/
theorem makeReady (h : Admitted s rid p q cmd fab stamp order ctx)
    (near : fab = none → ∀ x ∈ s.inputsOf p cmd, tierOf x.1 ≠ some 2 ∧ tierOf x.1 ≠ some 3) :
    Admitted (s.makeReady rid) rid p q cmd fab stamp order ctx := by
  obtain ⟨r, hr, isOf⟩ := h.record
  have ready : s.makeReady rid = s.modRec rid fun r => { r with phase := .ready } := by
    cases fab with
    | none => exact makeReady_near hr ⟨isOf.part, isOf.fab⟩ (by rw [isOf.cmd]; exact near rfl)
    | some o =>
      unfold State.makeReady
      rw [hr]
      simp only [isOf.fab, Option.isSome_some, if_true, List.find?_nil, List.filter_nil, List.isEmpty_nil]
  rw [ready]
  exact h.modRec fun r g => ⟨g.part, g.q, g.cmd, g.fab, g.stamp, g.order, g.ctx⟩

end Admitted

/-- What admission notes beside the record, and the status word of a long operation, leave the record's inputs. -/
theorem SameInputs.writeStatus {s t : State} {rid : Nat} (h : SameInputs s t) : SameInputs s (t.writeStatus rid) := by
  unfold State.writeStatus
  split
  · split
    · exact ⟨h.tensors, h.cfg, h.tables⟩
    · exact h
  · exact h

theorem takeCtx_some {s u : State} {p g rid gen id : Nat} {st : CtxState} (h : s.takeCtx p g rid gen st = some (id, u)) :
    ∃ c, u = s.putCtxs (kvPut id c s.ctxs) := by
  unfold State.takeCtx at h
  split at h
  · cases h
  · split at h
    · cases h
    · cases h
      exact ⟨_, rfl⟩

theorem SameInputs.ite {s t u : State} {c : Prop} [Decidable c] (h : SameInputs s t) (g : SameInputs s u) : SameInputs s (if c then t else u) := by
  split
  · exact h
  · exact g

/-- What an admission does once its record is entered: a wait for claims is counted, what the request pins is noted, the status of a long operation is
written, and the request may execute unless it is held. -/
def State.afterEntry (s : State) (p rid : Nat) (cmd : HostCmd) (sub : Bool) (extra : List Byte) (blocked long held : Bool) : State :=
  let s := if blocked then s.bump (cMemPClaimWaits p) 1 else s
  let s := if cmd.opcode = 0x10 then s.pinQuery p rid cmd sub extra else if cmd.opcode = 0x31 then s.pinLookup p rid cmd else s
  let s := if long then s.writeStatus rid else s
  if held || blocked then s else s.makeReady rid

theorem Admitted.afterEntry {s t : State} {rid p q stamp order ctx : Nat} {cmd : HostCmd} {fab : Option FabOrigin} (sub : Bool) (extra : List Byte)
    (blocked long held : Bool) (h : Admitted t rid p q cmd fab stamp order ctx) (inputs : SameInputs s t)
    (near : fab = none → ∀ x ∈ s.inputsOf p cmd, tierOf x.1 ≠ some 2 ∧ tierOf x.1 ≠ some 3) :
    Admitted (t.afterEntry p rid cmd sub extra blocked long held) rid p q cmd fab stamp order ctx := by
  unfold State.afterEntry
  dsimp only
  have counted : Noted t (if blocked then t.bump (cMemPClaimWaits p) 1 else t) := .ite (Noted.refl _).bump (.refl _)
  generalize (if blocked then t.bump (cMemPClaimWaits p) 1 else t) = b at counted
  have pinned : Noted t (if cmd.opcode = 0x10 then b.pinQuery p rid cmd sub extra else if cmd.opcode = 0x31 then b.pinLookup p rid cmd else b) :=
    .ite counted.pinQuery (.ite counted.pinLookup counted)
  generalize (if cmd.opcode = 0x10 then b.pinQuery p rid cmd sub extra else if cmd.opcode = 0x31 then b.pinLookup p rid cmd else b) = u at pinned
  have written : Admitted (if long then u.writeStatus rid else u) rid p q cmd fab stamp order ctx :=
    .ite (h.of_noted pinned).writeStatus (h.of_noted pinned)
  have same : SameInputs s (if long then u.writeStatus rid else u) :=
    .ite (SameInputs.writeStatus (inputs.trans pinned.toSameInputs)) (inputs.trans pinned.toSameInputs)
  refine .ite written (written.makeReady fun none_ => ?_)
  rw [same.inputsOf]
  exact near none_

/-- An admission that finds a context takes the next record number, with the present stamp. -/
theorem admitRec_admitted {s u : State} {p q order g id : Nat} {fab : Option FabOrigin} {cmd : HostCmd} {extra : List Byte} {aim : List Nat}
    {fetched : Option Nat} {demoted : Bool} (taken : s.takeCtx p g s.nextRec 0 .owned = some (id, u))
    (near : fab = none → ∀ x ∈ s.inputsOf p cmd, tierOf x.1 ≠ some 2 ∧ tierOf x.1 ≠ some 3) :
    ∃ t, s.admitRec p q fab cmd order g extra aim fetched demoted = some (s.nextRec, t) ∧ Admitted t s.nextRec p q cmd fab s.now order id := by
  obtain ⟨c, rfl⟩ := takeCtx_some taken
  simp only [State.admitRec, taken]
  exact ⟨_, rfl, Admitted.afterEntry fab.isSome extra _ _ _ ⟨rfl, _, kvGet?_put_self _ _ _, ⟨rfl, rfl, rfl, rfl, rfl, rfl, rfl⟩⟩
      ⟨rfl, fun _ => rfl, rfl⟩ near⟩

/-! ### What choosing a command and refusing a request leave -/

/-- Marking the heads of the flows changes staging slots only. -/
structure MarkFrame (s t : State) : Prop where
  recs : t.recs = s.recs
  nextRec : t.nextRec = s.nextRec
  ctxs : t.ctxs = s.ctxs

theorem markHeads_frame (s : State) (port : Nat) : MarkFrame s (s.markHeads port) := by
  have outer : ∀ (f : State → Nat → State), (∀ u x, MarkFrame s u → MarkFrame s (f u x)) → ∀ (l : List Nat) u, MarkFrame s u → MarkFrame s
      (l.foldl f u) := by
    intro f step l
    induction l with
    | nil => exact fun u h => h
    | cons x l ih => exact fun u h => ih _ (step u x h)
  unfold State.markHeads
  refine outer _ (fun u p h => outer _ (fun v c g => ?_) _ u h) _ s ⟨rfl, rfl, rfl⟩
  exact ⟨g.recs, g.nextRec, g.ctxs⟩

theorem Aside.serveUnit {s t : State} {dom p apply cls stream len entered : Nat} {start : Frac} (h : Aside s t) :
    Aside s (t.serveUnit dom p apply cls stream len entered start) := by
  unfold State.serveUnit State.debitShaper
  dsimp only
  split
  · exact h.bump.modFab rfl
  · exact (h.bump.modFab rfl).modFab rfl

/-- Refusing requests takes none from those that wait. -/
theorem refusals_waiting (p n : Nat) (ws : List WaitReq) (s : State) :
    ((ws.foldl (fun s w => (s.refuseFabric p w.ep w.origin w.cmd.opcode).bump (cPrtRefusedFabric p) 1) s).part n).waiting = (s.part n).waiting := by
  induction ws generalizing s with
  | nil => rfl
  | cons w ws ih =>
    refine (ih _).trans ?_
    simp [State.refuseFabric, State.answer]

/-! ### Packets handed over -/

theorem handPacket_handed (s u : State) {k : Packet} (fab : u.fab = s.fab) (node : u.nodeId = s.nodeId) : Handed s (u.handPacket k) k := by
  unfold Handed State.handPacket
  rw [node]
  split
  · exact ⟨by simp [fab], by simp⟩
  · simp [fab]

/-- What is handed over stays handed over while things are counted. -/
theorem Handed.aside {s t u : State} {k : Packet} (h : Handed s t k) (g : Aside t u) : Handed s u k := by
  have handoff : u.fab.handoff = t.fab.handoff := g.view fun v => v.fab.handoff
  have arrived : u.fab.arrived = t.fab.arrived := g.view fun v => v.fab.arrived
  unfold Handed at h ⊢
  rw [handoff, arrived]
  exact h

/-- A refusal answers the request's origin on VC2 with REMOTE_ERROR. -/
theorem refusal_handed {s u : State} (fab : u.fab = s.fab) (node : u.nodeId = s.nodeId) (p n : Nat) (w : WaitReq) :
    ∃ k, Handed s ((u.refuseFabric p w.ep w.origin w.cmd.opcode).bump (cPrtRefusedFabric n) 1) k ∧
      k.vc = 2 ∧ k.ptype = 2 ∧ k.dstNode = w.origin.node ∧ k.dstPart = w.origin.part ∧ k.seq = w.origin.seq ∧ k.args = [scRemoteError] :=
  ⟨_, (handPacket_handed s u fab node).aside (Aside.refl _).bump, rfl, rfl, rfl, rfl, rfl, rfl⟩

/-! ### The commands -/

/-- Settles O12: the branches of fetching, admission by `admitRec_admitted`, and the refusals one after another. -/
theorem fetchAndAdmit : Obligations.FetchAndAdmit := by
  refine ⟨?passes, ?noContext, ?refused, ?ingress, ?staged, ?resume, ?timeout, ?timeoutOne⟩
  case passes =>
    rintro s u p q bytes may ctx ok rfl
    refine ⟨fun chapter => ?_, fun st chapter quota => ?_⟩
    · simp only [exec, execCommandFetch, may, ctx, ok, Bool.not_true, Bool.false_eq_true, if_false]
      rw [chapter]
    · obtain ⟨r0, r1, completes⟩ := refuseFetched_completes (s.takeCommand p q) p q (HostCmd.ofBytes bytes) st
      refine ⟨(s.takeCommand p q).refuseFetched p q (HostCmd.ofBytes bytes) st, r0, r1, ?_, completes.after (takeCommand_extends s p q),
        State.fetchNo_refuseFetched _ _ _ _ _⟩
      simp only [exec, execCommandFetch, may, ctx, ok, Bool.not_true, Bool.false_eq_true, if_false]
      rw [chapter]
      exact if_neg fun h => quota h.1
  case noContext =>
    intro s p q bytes may full
    by_cases waits : (s.queue p q).ctxWait = true
    · refine ⟨s, ?_, ?_, rfl, rfl⟩
      · simp [exec, execCommandFetch, may, full, waits]
      · rw [← waits]
    · have counted := (Aside.refl (s.modQueue p q fun x => { x with ctxWait := true })).bump (o := cPrtCtxWaits p) (n := 1)
      refine ⟨(s.modQueue p q fun x => { x with ctxWait := true }).bump (cPrtCtxWaits p) 1, ?_, ?_, ?_, counted.recs⟩
      · simp only [exec, execCommandFetch, may, full, Bool.not_true, Bool.false_eq_true, if_false, if_true, if_neg waits]
      · simp only [State.queue, counted.queues]
        exact State.queue_modQueue _ _ _ _
      · exact counted.fetchNo
  case refused =>
    intro s p q bytes st b may ctx bad
    by_cases load : (HostCmd.ofBytes bytes).opcode = 4 ∧ issuerOk p 4 = false
    · have reported : Keeps false s ((s.takeCommand p q).noteReject [] { reason := 0x02 }) :=
        (Keeps.of_eq (Keeps.refl s) rfl rfl rfl : Keeps false s (s.takeCommand p q)).noteReject
      have streamed : ∀ u : State, Keeps false s u → Keeps false s (if b then u.bump (cPrtBadStream p) 1 else u) := fun u g => .ite g.bump g
      have run : exec (.commandFetch p q bytes) s = .next
          ((if b then ((s.takeCommand p q).noteReject [] { reason := 0x02 }).bump (cPrtBadStream p) 1
            else (s.takeCommand p q).noteReject [] { reason := 0x02 }).postCompletion p q (HostCmd.ofBytes bytes).cid
                (HostCmd.ofBytes bytes).stream st 0 0 0
              (ImgErr.word { reason := 0x02 }).toNat (HostCmd.ofBytes bytes).noIrq) := by
        simp only [exec, execCommandFetch, may, ctx, bad, if_pos load, Bool.not_true, Bool.false_eq_true, if_false]
        rfl
      refine ⟨_, _, run, Completes.after (streamed _ reported).sent (postCompletion_completes _ _ _ _ _ _ _ _ _ _ _), ?_, fun h => ?_⟩
      · rw [State.fetchNo_postCompletion]
        refine ((Aside.ite (Aside.refl _).bump (Aside.refl _)).fetchNo).trans ?_
        simp [State.noteReject, State.logImage, State.takeCommand]
      · obtain h | h := h
        · exact absurd load.1 h
        · rw [load.2] at h
          cases h
    · refine ⟨_, 0, exec_commandFetch_refused rfl may ctx bad load, ?_, ?_, fun _ => rfl⟩
      · exact Completes.after ((takeCommand_extends s p q).trans (Keeps.ite (Keeps.refl _).bump (Keeps.refl _)).sent)
          (postCompletion_completes _ _ _ _ _ _ _ _ _ _ _)
      · rw [State.fetchNo_postCompletion]
        exact (Aside.ite (Aside.refl _).bump (Aside.refl _)).fetchNo
  case ingress =>
    intro s port p c k g chosen
    have marked := markHeads_frame s port
    have served := Aside.refl (s.markHeads port) |>.serveUnit (dom := port) (p := p) (apply := 1) (cls := c) (stream := g.cmd.stream) (len := g.len)
      (entered := g.entered) (start := (kvGetD {} port (s.markHeads port).fab.doms).startOf p c g.start)
    refine ⟨_, ?_, served.recs.trans marked.recs, (served.nextRec).trans marked.nextRec, served.ctxs.trans marked.ctxs⟩
    simp only [exec, execHostIngressAdmit, chosen]
  case staged =>
    intro s k g id u taken near
    obtain ⟨t, admits, admitted⟩ := admitRec_admitted (fab := none) (q := k % 64) (order := g.order) (extra := []) (aim := g.target)
        (fetched := some g.entered)
      (demoted := g.cls != s.streamClass (k / 64) g.cmd.stream) taken fun _ => near
    have done : s.admitStaged k g = t.putQueues (kvUpd k (fun x => { x with staged := none }) t.queues) := by
      simp only [State.admitStaged, admits]
    obtain ⟨r, hr, isOf⟩ := admitted.record
    rw [done]
    exact ⟨admitted.next, r, hr, isOf.part, isOf.q, isOf.cmd, isOf.stamp, isOf.order, isOf.ctx, isOf.fab⟩
  case resume =>
    intro s p w rest ctx fetching unqueued waits taken
    obtain ⟨⟨id, u⟩, taken⟩ := Option.isSome_iff_exists.mp taken
    obtain ⟨t, admits, admitted⟩ := admitRec_admitted (fab := some w.origin) (q := w.ep) (cmd := w.cmd) (order := s.fetchNo) (extra := w.extra)
        (aim := [])
      (fetched := none) (demoted := false) taken fun none_ => nomatch none_
    refine ⟨(t.putFetchNo (t.fetchNo + 1)).modPart p fun x => { x with waiting := rest }, ?_, admitted.next, ?_⟩
    · simp [exec, execAdmissionResume, ctx, fetching, unqueued, waits, admits]
    · simp [State.part, kvGetD]
  case timeout =>
    intro s p late
    refine ⟨_, rfl, ?_⟩
    rw [refusals_waiting]
    have all : (s.part p).waiting.filter (fun w => !decide (w.arrived + 50000 ≤ s.now)) = [] :=
      List.filter_eq_nil_iff.mpr fun w hw => by simp [late w hw]
    simpa [State.part, kvGetD] using all
  case timeoutOne =>
    intro s p w alone late
    have none_ : (s.part p).waiting.filter (fun w => !decide (w.arrived + 50000 ≤ s.now)) = [] := by simp [alone, late]
    have one : (s.part p).waiting.filter (fun w => decide (w.arrived + 50000 ≤ s.now)) = [w] := by simp [alone, late]
    refine ⟨_, rfl, ?_, ?_⟩
    · rw [refusals_waiting]
      simpa [State.part, kvGetD] using none_
    · rw [one]
      rw [List.foldl_cons, List.foldl_nil]
      refine refusal_handed ?_ ?_ p p w <;> rfl

end Sys2Proof.Machine
end

section
set_option Elab.async false
/-! SUPPORT. Fields above the one that is put, and the enrolment of keys (spec/18, R451). -/

namespace Sys2Proof.Machine

/-- A put leaves every bit above its field. -/
theorem Fld.toNat_put_div (g : Fld) (v : Nat) (w : Word) (hg : g.lo + g.width ≤ 64) :
    (g.put v w).toNat / 2 ^ (g.lo + g.width) = w.toNat / 2 ^ (g.lo + g.width) := by
  have parts : w.toNat = w.toNat % 2 ^ g.lo + 2 ^ g.lo * g.get w + 2 ^ (g.lo + g.width) * (w.toNat / 2 ^ (g.lo + g.width)) := by
    rw [Fld.get, Nat.shiftRight_eq_div_pow, ← Nat.mod_mul, ← Nat.pow_add, Nat.mod_add_div]
  have value := Nat.mod_lt v (Nat.two_pow_pos g.width)
  have low := Nat.mod_lt w.toNat (Nat.two_pow_pos g.lo)
  have small : w.toNat % 2 ^ g.lo + 2 ^ g.lo * (v % 2 ^ g.width) < 2 ^ (g.lo + g.width) := by
    have top : 2 ^ g.lo * (v % 2 ^ g.width + 1) ≤ 2 ^ g.lo * 2 ^ g.width := Nat.mul_le_mul_left _ value
    rw [Nat.pow_add]
    rw [Nat.mul_add] at top
    omega
  have put : w.toNat - g.get w * 2 ^ g.lo + v % 2 ^ g.width * 2 ^ g.lo =
      w.toNat % 2 ^ g.lo + 2 ^ g.lo * (v % 2 ^ g.width) + 2 ^ (g.lo + g.width) * (w.toNat / 2 ^ (g.lo + g.width)) := by
    rw [Nat.mul_comm (g.get w), Nat.mul_comm (v % 2 ^ g.width)]
    omega
  have div : (w.toNat - g.get w * 2 ^ g.lo + v % 2 ^ g.width * 2 ^ g.lo) / 2 ^ (g.lo + g.width) = w.toNat / 2 ^ (g.lo + g.width) := by
    rw [put, Nat.add_mul_div_left _ _ (Nat.two_pow_pos _), Nat.div_eq_of_lt small, Nat.zero_add]
  have bound : w.toNat - g.get w * 2 ^ g.lo + v % 2 ^ g.width * 2 ^ g.lo < 2 ^ 64 := by
    have whole := w.isLt
    have above : w.toNat / 2 ^ (g.lo + g.width) < 2 ^ (64 - (g.lo + g.width)) := by
      rw [Nat.div_lt_iff_lt_mul (Nat.two_pow_pos _), ← Nat.pow_add]
      rwa [Nat.sub_add_cancel hg]
    have step : 2 ^ (g.lo + g.width) * (w.toNat / 2 ^ (g.lo + g.width) + 1) ≤ 2 ^ (g.lo + g.width) * 2 ^ (64 - (g.lo + g.width)) :=
      Nat.mul_le_mul_left _ above
    rw [← Nat.pow_add, Nat.add_sub_cancel' hg, Nat.mul_add] at step
    omega
  rw [Fld.put, BitVec.toNat_ofNat, Nat.mod_eq_of_lt bound, div]

/-- A field above the one that is put reads as before. -/
theorem Fld.get_put_below {f g : Fld} (h : g.lo + g.width ≤ f.lo) (hg : g.lo + g.width ≤ 64) (v : Nat) (w : Word) : f.get (g.put v w) = f.get w := by
  have high (x : Word) : f.get x = x.toNat / 2 ^ (g.lo + g.width) / 2 ^ (f.lo - (g.lo + g.width)) % 2 ^ f.width := by
    rw [Fld.get, Nat.shiftRight_eq_div_pow, Nat.div_div_eq_div_mul, ← Nat.pow_add, Nat.add_sub_cancel' h]
  rw [high, high, Fld.toNat_put_div g v w hg]

end Sys2Proof.Machine
end

section
set_option Elab.async false
/-! SUPPORT. REQUIRE_SIG and the image-signing keys (spec/18): a measurement first, then the register or the key slot. -/

namespace Sys2Proof.Machine

/-! ### SEC_ENROLL_CTL -/

/-- The fields of `SEC_ENROLL_CTL` (R451). -/
def secEnrollCtlSpec : RegSpec :=
  ⟨rSecEnrollCtl, [], [⟨fSecEnrollCtl_ERR, .w1c, 0, none⟩, ⟨fSecEnrollCtl_GO, .w1s, 0, none⟩, ⟨fSecEnrollCtl_OP, .rw, 0, none⟩,
    ⟨fSecEnrollCtl_SLOT, .rw, 0, none⟩]⟩

theorem regSpecAt_secEnrollCtl : regSpecAt rSecEnrollCtl = some secEnrollCtlSpec := rfl

/-- SLOT and OP take the values written. -/
theorem State.writeEnrollFields (s : State) (pf : Nat) (w : Word) :
    (s.writeFields pf rSecEnrollCtl w).fld rSecEnrollCtl fSecEnrollCtl_SLOT = fSecEnrollCtl_SLOT.get w ∧
    (s.writeFields pf rSecEnrollCtl w).fld rSecEnrollCtl fSecEnrollCtl_OP = fSecEnrollCtl_OP.get w := by
  have taken : ∃ x, (s.takeFields pf rSecEnrollCtl w secEnrollCtlSpec).reg rSecEnrollCtl =
      fSecEnrollCtl_SLOT.put (fSecEnrollCtl_SLOT.get w) (fSecEnrollCtl_OP.put (fSecEnrollCtl_OP.get w) x) :=
    ⟨_, State.reg_setReg_self s rSecEnrollCtl _⟩
  obtain ⟨x, hx⟩ := taken
  constructor <;> rw [State.fld, State.reg_writeFields s pf w regSpecAt_secEnrollCtl (by decide), hx]
  · rw [Fld.get_put _ _ _ (by decide), Nat.mod_eq_of_lt (Fld.get_lt _ w)]
  · rw [Fld.get_put_below (by decide) (by decide), Fld.get_put _ _ _ (by decide), Nat.mod_eq_of_lt (Fld.get_lt _ w)]

theorem State.digestAt_writeEnroll (s : State) (pf : Nat) (w : Word) :
    (s.writeFields pf rSecEnrollCtl w).digestAt rSecEnrollData = s.digestAt rSecEnrollData := by
  refine State.digestAt_congr fun i hi => ?_
  have ctl : rSecEnrollData i ≠ rSecEnrollCtl := by unfold rSecEnrollData rSecEnrollCtl; omega
  have err : rSecEnrollData i ≠ rNodeAccessErr := by unfold rSecEnrollData rNodeAccessErr; omega
  rw [State.reg_writeFields s pf w regSpecAt_secEnrollCtl err, State.reg_takeFields_ne s pf w _ rfl ctl]

/-- The KEY_ID that GO with operation `op` on slot `k` measures and stores. -/
def State.enrollId (s : State) (op k : Nat) : List Byte := if op = 2 then (s.keySlot k).2 else s.digestAt rSecEnrollData

/-- Whether GO with operation `op` may act on slot `k`: a key is enrolled in an EMPTY slot unless it has been revoked, and an ENROLLED one is revoked. -/
def State.enrollOk (s : State) (op k : Nat) : Bool :=
  decide (op = 1 ∧ (s.keySlot k).1 = 0) && !s.sec.keys.any (fun x => x.1 == 2 && x.2 == s.enrollId op k) || decide (op = 2 ∧ (s.keySlot k).1 = 1)

section
variable {s : State} {op k : Nat} (hop : s.fld rSecEnrollCtl fSecEnrollCtl_OP = op) (hk : s.fld rSecEnrollCtl fSecEnrollCtl_SLOT = k)
include hop hk

theorem enrollGo_refused (bad : s.enrollOk op k = false) :
    s.enrollGo = (s.setFld rSecEnrollCtl fSecEnrollCtl_GO 0).setFld rSecEnrollCtl fSecEnrollCtl_ERR 1 := by
  subst hop hk
  have refused : (!s.enrollOk (s.fld rSecEnrollCtl fSecEnrollCtl_OP) (s.fld rSecEnrollCtl fSecEnrollCtl_SLOT)) = true := by rw [bad]; rfl
  exact if_pos refused

theorem enrollGo_taken (ok : s.enrollOk op k = true) : ∃ t :
    State, s.enrollGo = t.putSec { t.sec with keys := t.sec.keys.set k (op, s.enrollId op k) } ∧
    t.sec.keys = s.sec.keys ∧ t.sec.total = s.sec.total + 1 ∧ t.fld rSecEnrollCtl fSecEnrollCtl_ERR = 0 ∧ t.mem = s.mem ∧ t.out = s.out := by
  subst hop hk
  have taken : ¬(!s.enrollOk (s.fld rSecEnrollCtl fSecEnrollCtl_OP) (s.fld rSecEnrollCtl fSecEnrollCtl_SLOT)) = true := by rw [ok]; decide
  obtain ⟨total, keys, mem, out⟩ := (s.setFld rSecEnrollCtl fSecEnrollCtl_GO 0).measure_keeps 6 6 0 0xFF 0
    (sha256 (leBytes 1 (s.fld rSecEnrollCtl fSecEnrollCtl_OP) ++ leBytes 1 (s.fld rSecEnrollCtl fSecEnrollCtl_SLOT) ++
      s.enrollId (s.fld rSecEnrollCtl fSecEnrollCtl_OP) (s.fld rSecEnrollCtl fSecEnrollCtl_SLOT)))
  exact ⟨_, if_neg taken, keys, total, State.fld_setFld _ _ _ _ (by decide), mem, out⟩

end

section
variable (s : State) (pf : Nat) (w : Word)

theorem State.enrollId_writeFields (op k : Nat) : (s.writeFields pf rSecEnrollCtl w).enrollId op k = s.enrollId op k := by
  unfold State.enrollId State.keySlot
  rw [State.digestAt_writeEnroll]
  simp

theorem State.enrollOk_writeFields (op k : Nat) : (s.writeFields pf rSecEnrollCtl w).enrollOk op k = s.enrollOk op k := by
  unfold State.enrollOk State.keySlot
  rw [State.enrollId_writeFields]
  simp

end

section
variable {s : State} {w : Word} {op k : Nat} (pf : Nat) (hop : op < 4) (go : fSecEnrollCtl_GO.get w = 1) (hk : k = fSecEnrollCtl_SLOT.get w)
include hop go hk

/-- A write of `SEC_ENROLL_CTL` with GO acts with the operation put in and the slot named. -/
theorem writeEnrollCtl_go : s.writeEnrollCtl pf (fSecEnrollCtl_OP.put op w) = (s.writeFields pf rSecEnrollCtl (fSecEnrollCtl_OP.put op w)).enrollGo ∧
    (s.writeFields pf rSecEnrollCtl (fSecEnrollCtl_OP.put op w)).fld rSecEnrollCtl fSecEnrollCtl_OP = op ∧
    (s.writeFields pf rSecEnrollCtl (fSecEnrollCtl_OP.put op w)).fld rSecEnrollCtl fSecEnrollCtl_SLOT = k := by
  obtain ⟨slot, oper⟩ := s.writeEnrollFields pf (fSecEnrollCtl_OP.put op w)
  have goes : fSecEnrollCtl_GO.get (fSecEnrollCtl_OP.put op w) = 1 := by rw [Fld.get_put_below (by decide) (by decide), go]
  refine ⟨if_pos goes, ?_, ?_⟩
  · rw [oper, Fld.get_put _ _ _ (by decide)]
    exact Nat.mod_eq_of_lt hop
  · rw [slot, Fld.get_put_above (by decide) (by decide), hk]

/-- One that may not act on the slot sets ERR. -/
theorem writeEnrollCtl_refused (bad : s.enrollOk op k = false) : ∃ t, s.writeEnrollCtl pf (fSecEnrollCtl_OP.put op w) = t ∧ t.sec = s.sec ∧
    t.fld rSecEnrollCtl fSecEnrollCtl_ERR = 1 ∧ t.mem = s.mem ∧ t.out = s.out := by
  obtain ⟨run, oper, slot⟩ := writeEnrollCtl_go (s := s) pf hop go hk
  rw [run, enrollGo_refused oper slot (by rw [State.enrollOk_writeFields, bad])]
  exact ⟨_, rfl, by simp, State.fld_setFld _ _ _ _ (by decide), by simp, by simp⟩

/-- One that may act on it is measured and puts the slot. -/
theorem writeEnrollCtl_taken (ok : s.enrollOk op k = true) : ∃ t, s.writeEnrollCtl pf (fSecEnrollCtl_OP.put op w) = t ∧
    t.sec.keys = s.sec.keys.set k (op, s.enrollId op k) ∧ t.sec.total = s.sec.total + 1 ∧ t.fld rSecEnrollCtl fSecEnrollCtl_ERR = 0 ∧ t.mem = s.mem ∧
    t.out = s.out := by
  obtain ⟨run, oper, slot⟩ := writeEnrollCtl_go (s := s) pf hop go hk
  obtain ⟨t, taken, keys, total, err, mem, out⟩ := enrollGo_taken oper slot (by rw [State.enrollOk_writeFields, ok])
  rw [run, taken]
  refine ⟨_, rfl, ?_, ?_, err, ?_, ?_⟩
  · simp [keys, State.enrollId_writeFields]
  · simp [total]
  · simp [mem]
  · simp [out]

end

/-! ### REQUIRE_SIG -/

/-- REQUIRE_SIG is set by a write of 1 and cleared by none (R70). -/
theorem requireSig_writeFields (s : State) (pf : Nat) (w : Word) :
    (s.writeFields pf rNodeBridlePolicy w).fld rNodeBridlePolicy fNodeBridlePolicy_REQUIRE_SIG =
      max (s.fld rNodeBridlePolicy fNodeBridlePolicy_REQUIRE_SIG) (fNodeBridlePolicy_REQUIRE_SIG.get w) := by
  have spec : regSpecAt rNodeBridlePolicy = some ⟨rNodeBridlePolicy, [], [⟨fNodeBridlePolicy_REQUIRE_SIG, .w1s, 0, none⟩]⟩ := rfl
  have taken : (s.takeFields pf rNodeBridlePolicy w ⟨rNodeBridlePolicy, [], [⟨fNodeBridlePolicy_REQUIRE_SIG, .w1s, 0, none⟩]⟩).reg rNodeBridlePolicy =
      fNodeBridlePolicy_REQUIRE_SIG.put (s.fld rNodeBridlePolicy fNodeBridlePolicy_REQUIRE_SIG ||| fNodeBridlePolicy_REQUIRE_SIG.get w)
        (s.reg rNodeBridlePolicy) := State.reg_setReg_self s rNodeBridlePolicy _
  have old : s.fld rNodeBridlePolicy fNodeBridlePolicy_REQUIRE_SIG < 2 := Fld.get_lt _ _
  have new : fNodeBridlePolicy_REQUIRE_SIG.get w < 2 := Fld.get_lt _ _
  rw [State.fld, State.reg_writeFields s pf w spec (by decide), taken, Fld.get_put _ _ _ (by decide)]
  generalize s.fld rNodeBridlePolicy fNodeBridlePolicy_REQUIRE_SIG = a at old
  generalize fNodeBridlePolicy_REQUIRE_SIG.get w = b at new
  interval_cases a <;> interval_cases b <;> rfl

theorem execRequireSigSet_spec {s : State} (pf : Nat) (w : Word) (hs : s.flt.stopped = false) : ∃ t, exec (.requireSigSet pf w) s = .next t ∧
    t.fld rNodeBridlePolicy fNodeBridlePolicy_REQUIRE_SIG = max (s.fld rNodeBridlePolicy fNodeBridlePolicy_REQUIRE_SIG)
      (fNodeBridlePolicy_REQUIRE_SIG.get w) ∧ t.sec.keys = s.sec.keys ∧ t.mem = s.mem ∧ t.out = s.out ∧
    t.sec.total = s.sec.total + (fNodeBridlePolicy_REQUIRE_SIG.get w - s.fld rNodeBridlePolicy fNodeBridlePolicy_REQUIRE_SIG) := by
  have run : exec (.requireSigSet pf w) s = .next (s.writePolicy pf w) := by simp [exec, execRequireSigSet, hs]
  have old : s.fld rNodeBridlePolicy fNodeBridlePolicy_REQUIRE_SIG < 2 := Fld.get_lt _ _
  have new : fNodeBridlePolicy_REQUIRE_SIG.get w < 2 := Fld.get_lt _ _
  refine ⟨_, run, ?_⟩
  unfold State.writePolicy
  dsimp only
  split
  next sets =>
    obtain ⟨total, keys, mem, out⟩ := s.measure_keeps 6 6 0 0xFF 0 (sha256 Config.requireSig)
    have unmoved : (s.measure 6 6 0 0xFF 0 (sha256 Config.requireSig)).reg rNodeBridlePolicy = s.reg rNodeBridlePolicy := by
      rw [State.reg_measure _ _ _ _ _ _ _ (by decide), State.reg_putDigest_ne _ _ fun i => by unfold rNodeBridlePolicy rSecSlot; omega]
    refine ⟨?_, by simp [keys], by simp [mem], by simp [out], ?_⟩
    · rw [requireSig_writeFields, State.fld, unmoved]
      rfl
    · simp [total, sets.1, sets.2]
  next kept =>
    refine ⟨requireSig_writeFields _ _ _, by simp, by simp, by simp, ?_⟩
    simp
    omega

/-- Settles O53: `enrollGo` by whether the operation may act on the slot; REQUIRE_SIG as a bit that a write sets. -/
theorem security : Obligations.Security := by
  refine ⟨fun s pf w hs => execRequireSigSet_spec pf w hs, ?keys, ?stopped⟩
  case keys =>
    rintro s pf k w id hs go hk rfl
    have enroll : exec (.secEnroll pf w) s = .next (s.writeEnrollCtl pf (fSecEnrollCtl_OP.put 1 w)) := by simp [exec, execSecEnroll, hs]
    have revoke : exec (.secRevoke pf w) s = .next (s.writeEnrollCtl pf (fSecEnrollCtl_OP.put 2 w)) := by simp [exec, execSecRevoke, hs]
    refine ⟨fun empty fresh => ?_, fun used => ?_, fun enrolled => ?_, fun other => ?_⟩
    · have ok : s.enrollOk 1 k = true := by
        simp only [State.enrollOk, State.enrollId, empty]
        simpa using fresh
      obtain ⟨t, e, keys, rest⟩ := writeEnrollCtl_taken pf (by decide) go hk ok
      exact ⟨t, e ▸ enroll, keys, rest⟩
    · obtain ⟨t, e, rest⟩ := writeEnrollCtl_refused pf (op := 1) (s := s) (by decide) go hk (by simp [State.enrollOk, used])
      exact ⟨t, e ▸ enroll, rest⟩
    · obtain ⟨t, e, keys, rest⟩ := writeEnrollCtl_taken pf (op := 2) (s := s) (by decide) go hk (by simp [State.enrollOk, enrolled])
      exact ⟨t, e ▸ revoke, keys, rest⟩
    · obtain ⟨t, e, rest⟩ := writeEnrollCtl_refused pf (op := 2) (s := s) (by decide) go hk (by simp [State.enrollOk, other])
      exact ⟨t, e ▸ revoke, rest⟩
  case stopped =>
    intro s c pf w h stopped
    simp only [List.mem_cons, List.not_mem_nil, or_false] at h
    obtain rfl | rfl | rfl | rfl := h
    · simp [exec, execRequireSigSet, stopped]
    · simp [exec, execSecExtend, stopped]
    · simp [exec, execSecEnroll, stopped]
    · simp [exec, execSecRevoke, stopped]

end Sys2Proof.Machine
end

section
set_option Elab.async false
/-! SUPPORT. Event rings, clears of counters and the drogue (spec/16). -/

namespace Sys2Proof.Machine

/-- A clear of one counter block: its counters and its saturation register. -/
theorem execCtrClearAll_spec {s : State} {b : Nat} (hs : s.flt.stopped = false) (hb : b < 27) :
    ∃ t, exec (.ctrClearAll b) s = .next t ∧ (∀ o, blockIndex (o % 2 ^ 32) = some b → t.ctr o = 0) ∧
      (∀ o, blockIndex (o % 2 ^ 32) ≠ some b → t.ctr o = s.ctr o) ∧ t.reg (rFltSat b)
          = 0 ∧ SameRegsBut s t [rFltSat b] ∧ t.mem = s.mem ∧ t.out = s.out := by
  have ctr : ∀ o, ((s.putCtrs (s.ctrs.filter (fun c => blockIndex (c.1 % 2 ^ 32) != some b))).setReg (rFltSat b) 0).ctr o =
      if blockIndex (o % 2 ^ 32) = some b then 0 else s.ctr o := by
    intro o
    simp only [State.setReg_reads, State.ctr, State.putCtrs_reads, kvGetD, kvGet?_filter_key (fun k => blockIndex (k % 2 ^ 32) != some b)]
    split <;> simp_all
  refine ⟨_, if_neg (by simp [hs, hb]), fun o ho => ?_, fun o ho => ?_, State.reg_setReg_self _ _ _, fun x hx => ?_, rfl, rfl⟩
  · rw [ctr, if_pos ho]
  · rw [ctr, if_neg ho]
  · rw [State.reg_setReg, if_neg (by simpa using hx)]
    rfl

/-- A clear of one counter. -/
theorem execCtrClearOne_spec {s : State} {b o : Nat} (hs : s.flt.stopped = false) (hb : b < 27) (block : blockIndex (blockBase b + o) = some b)
    (counter : isCounter (blockBase b + o) = true) :
    ∃ t, exec (.ctrClearOne b o) s = .next t ∧ t.ctr (s.ctrKey (blockBase b + o)) = 0 ∧ (∀ x, x ≠ s.ctrKey (blockBase b + o) → t.ctr x = s.ctr x) ∧
      t.fld (rFltSat b) fFltSat_SATURATED = min 0xFFFF (t.satNow b) ∧ SameRegsBut s t [rFltSat b] ∧ t.mem = s.mem ∧ t.out = s.out := by
  have ctr : ∀ x v, ((s.setCtr (s.ctrKey (blockBase b + o)) 0).setFld (rFltSat b) fFltSat_SATURATED v).ctr x =
      if x = s.ctrKey (blockBase b + o) then 0 else s.ctr x := fun x v => by
    rw [← State.ctr_setCtr]
    simp
  have run : exec (.ctrClearOne b o) s = .next ((s.setCtr (s.ctrKey (blockBase b + o)) 0).setFld (rFltSat b) fFltSat_SATURATED
      (min 0xFFFF ((s.setCtr (s.ctrKey (blockBase b + o)) 0).satNow b))) := by
    simp only [exec, execCtrClearOne]
    rw [if_neg (by simp [hs, hb]), if_neg (by simp [block, counter])]
  refine ⟨_, run, ?_, fun x hx => ?_, ?_, fun x hx => ?_, by simp [State.setCtr], by simp [State.setCtr]⟩
  · rw [ctr, if_pos rfl]
  · rw [ctr, if_neg hx]
  · have sat : ∀ v, ((s.setCtr (s.ctrKey (blockBase b + o)) 0).setFld (rFltSat b) fFltSat_SATURATED v).satNow b =
        (s.setCtr (s.ctrKey (blockBase b + o)) 0).satNow b := fun v => by simp [State.satNow]
    have whole : 2 ^ fFltSat_SATURATED.width = 0x10000 := rfl
    rw [State.fld_setFld _ _ _ _ (by decide), sat, whole]
    exact Nat.mod_eq_of_lt (by omega)
  · rw [State.reg_setFld, if_neg (by simpa using hx)]
    rfl

/-- A trigger of the armed drogue. -/
theorem execSnpTrigger_armed {s : State} (hs : s.flt.stopped = false) (src : bitOf (s.reg rSnpSrc).toNat 0 = true)
    (armed : s.fld rSnpCtl fSnpCtl_ARMED = 1) :
    ∃ t c, exec .snpTrigger s = .next t ∧ t.flt.snap = some c ∧ c.copy0 = s.viewAll 0 ∧ c.copy1 = s.viewAll 1 ∧ t.fld rSnpCtl fSnpCtl_ARMED = 0 ∧
      t.fld rSnpInfo fSnpInfo_HELD = 1 ∧ t.fld rSnpInfo fSnpInfo_SOURCE = 0 ∧ t.reg rSnpStatus = s.time ∧ t.mem = s.mem ∧ t.out = s.out := by
  have run : exec .snpTrigger s = .next (s.latch 0 0) := by
    simp only [exec, execSnpTrigger, State.drogue, hs, src, if_pos armed]
    rfl
  have info : (s.latch 0 0).reg rSnpInfo = packFields [(fSnpInfo_SNAP_ID, 0), (fSnpInfo_HELD, 1), (fSnpInfo_SOURCE, 0)] := State.reg_setReg_self _ _ _
  refine ⟨_, { copy0 := s.viewAll 0, copy1 := s.viewAll 1 }, run, rfl, rfl, rfl, ?_, ?_, ?_, ?_, rfl, rfl⟩
  · unfold State.latch
    dsimp only
    rw [State.fld_setReg_ne _ (by decide), State.fld_setReg_ne _ (by decide), State.fld_setFld _ _ _ _ (by decide)]
    rfl
  · rw [State.fld, info]
    rfl
  · rw [State.fld, info]
    rfl
  · unfold State.latch
    dsimp only
    rw [State.reg_setReg, if_neg (by decide), State.reg_setReg_self]

/-- Arming the drogue. -/
theorem execSnpArm_spec {s : State} (hs : s.flt.stopped = false) :
    ∃ t, exec .snpArm s = .next t ∧ t.flt.snap = none ∧ t.fld rSnpCtl fSnpCtl_ARMED = 1 ∧
    t.reg rSnpStatus = 0 ∧ t.reg rSnpInfo = 0 ∧ SameRegsBut s t [rSnpCtl, rSnpStatus, rSnpInfo] ∧ t.mem = s.mem ∧ t.out = s.out := by
  refine ⟨_, if_neg (by simp [hs]), rfl, ?_, ?_, State.reg_setReg_self _ _ _, fun x hx => ?_, rfl, rfl⟩
  · rw [State.fld_setReg_ne _ (by decide), State.fld_setReg_ne _ (by decide), State.fld_setFld _ _ _ _ (by decide)]
    rfl
  · rw [State.reg_setReg, if_neg (by decide), State.reg_setReg_self]
  · obtain ⟨ctl, status, info⟩ : x ≠ rSnpCtl ∧ x ≠ rSnpStatus ∧ x ≠ rSnpInfo := by simpa using hx
    rw [State.reg_setReg, if_neg info, State.reg_setReg, if_neg status, State.reg_setFld, if_neg ctl]
    rfl

theorem State.fldPf_setFldPf (s : State) (pf off v : Nat) (f : Fld) (hl : f.lo + f.width ≤ 64) :
    (s.setFldPf pf off f v).fldPf pf off f = v % 2 ^ f.width := by
  have written : (s.setFldPf pf off f v).regPf pf off = f.put v (s.regPf pf off) := by
    unfold State.setFldPf State.setRegPf State.regPf
    simp only [State.putRegs_reads]
    split
    next e => rw [kvGet?_del_self, Option.getD_none, e]
    next => rw [kvGet?_put_self, Option.getD_some]
  rw [State.fldPf, written, Fld.get_put _ _ _ hl]

/-- Settles O48: each command by its own function; on a stopped node each leaves the state. -/
theorem eventsCounters : Obligations.EventsCounters := by
  refine ⟨?pop, fun s b o hs hb => execCtrClearOne_spec hs hb, ?notOne, fun s b hs hb => execCtrClearAll_spec hs hb,
    fun s hs src armed => execSnpTrigger_armed hs src armed, ?unasked, fun s hs => execSnpArm_spec hs, ?view, ?stopped⟩
  case pop =>
    intro s pf hs
    refine ⟨fun h => ?_, fun h => ?_⟩
    · exact ⟨_, (if_neg (by simp [hs])).trans (if_pos h), rfl, rfl, rfl, fun _ => rfl⟩
    · exact ⟨_, (if_neg (by simp [hs])).trans (if_neg h), rfl, rfl, rfl, fun _ => rfl⟩
  case notOne =>
    intro s b o hs h
    simp only [exec, execCtrClearOne]
    obtain h | h := h
    · exact if_pos (.inr h)
    · split
      · rfl
      · exact if_pos (.inr h)
  case unasked =>
    intro s hs src
    simp [exec, execSnpTrigger, State.drogue, hs, src]
  case view =>
    intro s pf v hs
    refine ⟨_, if_neg (by simp [hs]), ?_, rfl, rfl, rfl⟩
    rw [State.fldPf_setFldPf _ _ _ _ _ (by decide)]
    cases v <;> rfl
  case stopped =>
    intro s c pf b o v h stopped
    simp only [List.mem_cons, List.not_mem_nil, or_false] at h
    obtain rfl | rfl | rfl | rfl | rfl | rfl := h
    · simp [exec, execFltEvtPop, stopped]
    · simp [exec, execCtrClearOne, stopped]
    · simp [exec, execCtrClearAll, stopped]
    · simp [exec, execSnpTrigger, stopped]
    · simp [exec, execSnpArm, stopped]
    · simp [exec, execSnpViewWrite, stopped]

end Sys2Proof.Machine
end

section
set_option Elab.async false
/-! SUPPORT. Selection lists (spec/09): opening, closing and merging. -/

namespace Sys2Proof.Machine

/-- What the units' lists leave: memory, the admission records and the lists that have closed. -/
structure BesideLists (s t : State) : Prop where
  mem : t.mem = s.mem
  recs : t.recs = s.recs
  results : t.results = s.results

namespace BesideLists
variable {s t u : State}

theorem refl (s : State) : BesideLists s s := ⟨rfl, rfl, rfl⟩

theorem ite {c : Prop} [Decidable c] (h : BesideLists s t) (g : BesideLists s u) : BesideLists s (if c then t else u) := by
  split
  · exact h
  · exact g

theorem foldl {α : Type} {f : State → α → State} {l : List α} (h : BesideLists s t) (step : ∀ u a, BesideLists s u → BesideLists s (f u a)) :
    BesideLists s (l.foldl f t) := by
  induction l generalizing t with
  | nil => exact h
  | cons a l ih => exact ih (step t a h)

theorem bump {o n : Nat} (h : BesideLists s t) : BesideLists s (t.bump o n) :=
  ⟨(by simp : (t.bump o n).mem = t.mem).trans h.mem, (by simp : (t.bump o n).recs = t.recs).trans h.recs,
    (by simp : (t.bump o n).results = t.results).trans h.results⟩

theorem modSel {v : Nat} {f : SelUnit → SelUnit} (h : BesideLists s t) : BesideLists s (t.modSel v f) := ⟨h.mem, h.recs, h.results⟩

theorem selCount {v n : Nat} {a b : SelList} (h : BesideLists s t) : BesideLists s (t.selCount v n a b) := by
  unfold State.selCount
  exact ite (ite h.bump h.bump.bump) (ite h.bump h.bump.bump).bump

theorem selServeUnit {v : Nat} (h : BesideLists s t) : BesideLists s (t.selServeUnit v) := by
  refine foldl h fun t _ h => ?_
  unfold State.selServeOne
  split
  · exact h
  · split
    · exact h
    · exact h.modSel.modSel.bump

theorem selDrop {v lid : Nat} (h : BesideLists s t) : BesideLists s (t.selDrop v lid) := by
  have counted : ∀ {c : Prop} [Decidable c] {o n : Nat} {f : SelUnit → SelUnit}, BesideLists s
      (if c then (t.modSel v f).bump o n else t.modSel v f) :=
    ite h.modSel.bump h.modSel
  exact selServeUnit (selServeUnit counted)

end BesideLists

/-- With no list waiting in its cluster a unit's list that ends only leaves it. -/
theorem selDrop_unawaited {s : State} {u lid : Nat} (even : (s.sel (2 * (u / 2))).waits = []) (odd : (s.sel (2 * (u / 2) + 1)).waits = []) :
    ((s.selDrop u lid).sel u).lists = kvDel lid (s.sel u).lists := by
  have idle : ∀ (t : State) v, (t.sel v).waits = [] → t.selServeUnit v = t := by
    intro t v none_
    unfold State.selServeUnit
    rw [none_]
    rfl
  have others : ∀ (t : State) f v, v ≠ u → (t.modSel u f).sel v = t.sel v := fun t f v h => by simp [State.sel, State.modSel, kvGetD, kvGet?_put_ne h]
  have waits : ∀ (t : State) v, (∀ w, t.sel w = (s.modSel u fun y => { y with lists := kvDel lid (s.sel u).lists }).sel w) → (s.sel v).waits = [] →
      (t.sel v).waits = [] := by
    intro t v same none_
    rw [same]
    by_cases e : v = u
    · subst e
      rw [State.sel_modSel_self]
      exact none_
    · rw [others _ _ _ e]
      exact none_
  have served : ∀ t : State, (∀ w, t.sel w = (s.modSel u fun y => { y with lists := kvDel lid (s.sel u).lists }).sel w) →
      ((t.selServe (u / 2)).sel u).lists = kvDel lid (s.sel u).lists := by
    intro t same
    have none_ : t.selServe (u / 2) = t := by
      unfold State.selServe
      rw [idle t _ (waits t _ same even), idle t _ (waits t _ same odd)]
    rw [none_, same, State.sel_modSel_self]
  refine served _ fun w => ?_
  split
  · exact State.sel_bump _ _ _ _
  · rfl

/-- A list with room somewhere in its cluster opens; one without waits. The area of a list of a command is in no buffer. -/
theorem execSelectListOpen_size {s : State} {u rid lid k : Nat} {h f d : Bool} (one : 1 ≤ k) (most : k ≤ 1024) :
    exec (.selectListOpen u rid lid k h f d) s = .next
      (match s.selUnitFor u k with
      | some v => s.selPut v lid { owner := some rid, k := k, higher := h, fp := f, dedup := d }
      | none => s.modSel u fun x => { x with waits := x.waits ++
          [{ lid := lid, list := { owner := some rid, k := k, higher := h, fp := f, dedup := d }, since := s.now }] }) := by
  have place : s.selPlace u { owner := some rid, k := k, higher := h, fp := f, dedup := d } = s.selUnitFor u k :=
    if_pos (by simp [State.areaFits, SelList.area, Nat.not_lt.mpr most])
  refine (if_neg (by omega)).trans ?_
  unfold State.selOpen
  rw [place]
  cases s.selUnitFor u k <;> rfl

/-- A list that closes is counted, leaves its unit and reports. -/
theorem execSelectListClose_open {s : State} {u lid : Nat} {l : SelList} (open_ : kvGet? lid (s.sel u).lists = some l) :
    ∃ v : State, exec (.selectListClose u lid) s = .next (v.putResults (v.results ++ [l.close lid])) ∧ BesideLists s v ∧
      ((s.sel (2 * (u / 2))).waits = [] → (s.sel (2 * (u / 2) + 1)).waits = [] → (v.sel u).lists = kvDel lid (s.sel u).lists) := by
  have counted : ∀ (t : State) (c : Prop) [Decidable c] o, (∀ w, t.sel w = s.sel w) → BesideLists s t →
      (∀ w, (if c then t.bump o 1 else t).sel w = s.sel w) ∧ BesideLists s (if c then t.bump o 1 else t) := by
    intro t c _ o same beside
    refine ⟨fun w => ?_, beside.bump.ite beside⟩
    split
    · rw [State.sel_bump, same]
    · exact same w
  obtain ⟨tied, besideTied⟩ := counted s (0 < (l.close lid).tied) (cCluSelTieCuts (u / 2) (u % 2)) (fun _ => rfl) (.refl s)
  obtain ⟨fewer, beside⟩ := counted _ ((l.close lid).fewer = true) (cCluSelFewer (u / 2) (u % 2)) tied besideTied
  refine ⟨_, ?_, beside.selDrop (v := u) (lid := lid), fun even odd => ?_⟩
  · simp only [exec, execSelectListClose, State.selClose, open_]
  · rw [selDrop_unawaited (by rw [fewer]; exact even) (by rw [fewer]; exact odd), fewer]

/-- Settles O24: opening by the unit found, entries and merges by `selCount`, closing by `selDrop`. -/
theorem selection : Obligations.Selection := by
  refine ⟨?opens, ?waits, ?size, ?entry, ?noList, ?closes, ?merges⟩
  case opens =>
    intro s u v rid lid k h f d one most found
    have run := execSelectListOpen_size (s := s) (u := u) (rid := rid) (lid := lid) (h := h) (f := f) (d := d) one most
    rw [found] at run
    refine ⟨_, run, ?_, rfl, rfl, rfl⟩
    simp only [State.selPut, State.sel_modSel_self, kvGet?_put_self]
  case waits =>
    intro s u rid lid k h f d one most full
    have run := execSelectListOpen_size (s := s) (u := u) (rid := rid) (lid := lid) (h := h) (f := f) (d := d) one most
    rw [full] at run
    refine ⟨_, run, ?_, ?_⟩ <;> rw [State.sel_modSel_self]
  case size =>
    intro s u rid lid k h f d r size hr fab _ steady
    have counted := (Aside.refl s).bump (o := cCluSelRefused (u / 2) (u % 2)) (n := 1)
    have there : kvGet? rid (s.bump (cCluSelRefused (u / 2) (u % 2)) 1).recs = some r := by rw [counted.recs, hr]
    refine ⟨_, (if_pos (by omega)).trans (by rw [there]), ?_⟩
    have completes := complete_completes _ r.part rid r scBadCommand 0 0 0 0 [] there fab (by rw [counted.pstate]; exact steady)
      (.inr ⟨rfl, .inr ⟨by decide, by decide⟩⟩)
    rw [finalCount_zero] at completes
    exact completes.after counted.sent
  case entry =>
    intro s u lid key id seg node l open_
    have beside := (BesideLists.refl s).modSel (v := u)
        (f := fun x => { x with lists := kvPut lid (l.insert { key, id, seg, node, ord := 0 }) x.lists })
      |>.selCount (v := u) (n := 1) (a := l) (b := l.insert { key, id, seg, node, ord := 0 })
    refine ⟨_, congrArg Host.Outcome.next (State.selOffer_singleton open_ _), ?_, beside.mem, beside.recs⟩
    rw [State.sel_selCount, State.sel_modSel_self]
    exact kvGet?_put_self _ _ _
  case noList =>
    intro s u lid key id seg node none_
    simp [exec, execSelectInsert, State.selOffer, none_]
  case closes =>
    intro s u lid l open_
    obtain ⟨v, run, beside, sels⟩ := execSelectListClose_open open_
    exact ⟨_, run, congrArg (· ++ [l.close lid]) beside.results, beside.mem, beside.recs, sels⟩
  case merges =>
    intro s u lid bs l open_
    have run : s.selMerge u lid bs = (s.modSel u fun x => { x with lists := kvPut lid (l.merge bs) x.lists }).selCount u
        (min (fieldAt bs 0 4) ((bs.length - 64) / 16)) l (l.merge bs) := by
      unfold State.selMerge
      rw [open_]
    have beside := (BesideLists.refl s).modSel (v := u) (f := fun x => { x with lists := kvPut lid (l.merge bs) x.lists })
      |>.selCount (v := u) (n := min (fieldAt bs 0 4) ((bs.length - 64) / 16)) (a := l) (b := l.merge bs)
    refine ⟨_, congrArg Host.Outcome.next run, ?_, beside.mem, beside.recs⟩
    rw [State.sel_selCount, State.sel_modSel_self]
    exact kvGet?_put_self _ _ _

end Sys2Proof.Machine
end

section
set_option Elab.async false
/-! SUPPORT. Management on SMBus (spec/18, spec/19): what is answered, and that an answer changes free values only. -/

namespace Sys2Proof.Machine

/-- A management message has been answered with `m`, and nothing else but free values has changed. -/
structure SmbAnswered (s t : State) (m : SmbMsg) : Prop where
  smb : t.smb = s.smb ++ [m]
  regs : t.regs = s.regs
  out : t.out = s.out
  mem : t.mem = s.mem
  recs : t.recs = s.recs
  sec : t.sec = s.sec

/-- A management message has got no answer, and nothing else but free values has changed. -/
def SmbSilent (s t : State) : Prop := t.smb = s.smb ∧ t.regs = s.regs ∧ t.out = s.out ∧ t.mem = s.mem

theorem smbAnswer_on {s : State} (m : SmbMsg) (hp : s.board.power = true) : SmbAnswered s (s.smbAnswer m) m := by
  rw [State.smbAnswer, if_pos hp]
  exact ⟨rfl, rfl, rfl, rfl, rfl, rfl⟩

theorem smbAnswer_off {s : State} (m : SmbMsg) (hp : s.board.power = false) : s.smbAnswer m = s := by
  rw [State.smbAnswer, hp]; rfl

theorem spdm_eq_smbAnswer {s : State} (m : SmbMsg) (hr : s.recovering = false) : s.spdm m = s.smbAnswer m := by
  rw [State.spdm, hr]; rfl

theorem spdm_answered {s : State} (m : SmbMsg) (hp : s.board.power = true) (hr : s.recovering = false) : SmbAnswered s (s.spdm m) m :=
  spdm_eq_smbAnswer m hr ▸ smbAnswer_on m hp

/-- An SPDM request other than GET_VERSION gets no answer in recovery or without power. -/
theorem spdm_silent {s : State} (m : SmbMsg) (h : s.recovering = true ∨ s.board.power = false) : s.spdm m = s := by
  rcases hr : s.recovering with _ | _
  · rw [spdm_eq_smbAnswer m hr, smbAnswer_off m (h.resolve_left (by simp [hr]))]
  · rw [State.spdm, hr]; rfl

/-- An answer that has drawn a free value, as a signature does, is an answer. -/
theorem SmbAnswered.ofFree {s t : State} {v : Nat} {m : SmbMsg} (h : SmbAnswered (s.putFree v) t m) : SmbAnswered s t m :=
  ⟨h.smb, h.regs, h.out, h.mem, h.recs, h.sec⟩

theorem spdm_signed {s : State} (nonce : List Byte) (m : SmbMsg) (hp : s.board.power = true) (hr : s.recovering = false) :
    SmbAnswered s ((s.spdmSign nonce).2.spdm m) m :=
  .ofFree (spdm_answered (s := s.putFree (s.free + 1)) m hp hr)

theorem SmbSilent.rfl {s : State} : SmbSilent s s := ⟨.refl _, .refl _, .refl _, .refl _⟩

theorem SmbSilent.spdm {s : State} (m : SmbMsg) (h : s.recovering = true ∨ s.board.power = false) : SmbSilent s (s.spdm m) := by
  rw [spdm_silent m h]
  exact .rfl

theorem spdmSign_silent {s : State} (nonce : List Byte) (m : SmbMsg) (h : s.recovering = true ∨ s.board.power = false) :
    SmbSilent s ((s.spdmSign nonce).2.spdm m) := by
  rw [spdm_silent (s := (s.spdmSign nonce).2) m h]
  exact ⟨.refl _, .refl _, .refl _, .refl _⟩

theorem attested_free (s : State) (ps : List Byte) : ∃ v, (s.attested ps).2.2 = s.putFree v := by
  rw [State.attested]
  split
  · exact ⟨s.free, rfl⟩
  · exact ⟨s.free + 1, rfl⟩

/-! ### The requests, one by one -/

theorem spdmGetCertificate_answered {s : State} {slot off n : Nat} {chain bs : List Byte} (hp : s.board.power = true) (hr : s.recovering = false)
    (hc : chain = Config.spdmChain (spdmDie slot)) (hb : bs = (chain.drop off).take n) (hs : slot < 4) (ho : off < chain.length) :
    ∃ t, exec (.spdmGetCertificate slot off n) s = .next t ∧ SmbAnswered s t (.certificate slot off (chain.length - off - bs.length) bs) := by
  subst hb hc
  exact ⟨_, if_neg (by omega), spdm_answered _ hp hr⟩

theorem spdmGetCertificate_invalid {s : State} {slot off n : Nat} (hp : s.board.power = true) (hr : s.recovering = false)
    (h : 4 ≤ slot ∨ (Config.spdmChain (spdmDie slot)).length ≤ off) :
    ∃ t, exec (.spdmGetCertificate slot off n) s = .next t ∧ SmbAnswered s t .invalidRequest :=
  ⟨_, if_pos h, spdm_answered _ hp hr⟩

theorem spdmChallenge_signed {s : State} {slot : Nat} {nonce : List Byte} (hp : s.board.power = true) (hr : s.recovering = false) (hs : slot < 4)
    (ha : s.attestRoom = true) :
    ∃ t, exec (.spdmChallenge slot nonce) s = .next t ∧ SmbAnswered s t (.challengeAuth slot nonce (s.spdmSign nonce).1) :=
  ⟨_, (if_neg (by omega)).trans (if_neg (by simp [ha])), spdm_signed nonce _ hp hr⟩

theorem spdmChallenge_busy {s : State} {slot : Nat} {nonce : List Byte} (hp : s.board.power = true) (hr : s.recovering = false) (hs : slot < 4)
    (ha : s.attestRoom = false) : ∃ t, exec (.spdmChallenge slot nonce) s = .next t ∧ SmbAnswered s t .busy :=
  ⟨_, (if_neg (by omega)).trans (if_pos (by simp [ha])), spdm_answered _ hp hr⟩

theorem spdmChallenge_invalid {s : State} {slot : Nat} {nonce : List Byte} (hp : s.board.power = true) (hr : s.recovering = false) (hs : 4 ≤ slot) :
    ∃ t, exec (.spdmChallenge slot nonce) s = .next t ∧ SmbAnswered s t .invalidRequest :=
  ⟨_, if_pos hs, spdm_answered _ hp hr⟩

/-- The measurement slots that an index names (R458): all of them, one, or none. -/
def measuredSlots (i : Nat) : List Nat := if i = 0xFF then List.range 24 else if 1 ≤ i ∧ i ≤ 24 then [i - 1] else []

theorem spdmGetMeasurements_signed {s : State} {i : Nat} {nonce : List Byte} (hp : s.board.power = true) (hr : s.recovering = false)
    (hk : measuredSlots i ≠ []) (hy : ∀ k ∈ measuredSlots i, s.slotReady k = true) (ha : s.attestRoom = true) :
    ∃ t, exec (.spdmGetMeasurements i nonce) s = .next t ∧
      SmbAnswered s t (.measurements ((measuredSlots i).map (fun k => (k + 1, s.slotBytes k))) nonce (s.spdmSign nonce).1) :=
  ⟨_, (if_neg (by simpa [measuredSlots] using hk)).trans ((if_neg (by simpa [measuredSlots] using hy)).trans (if_neg (by simp [ha]))),
    spdm_signed nonce _ hp hr⟩

theorem spdmGetMeasurements_invalid {s : State} {i : Nat} {nonce : List Byte} (hp : s.board.power = true) (hr : s.recovering = false)
    (hk : measuredSlots i = []) : ∃ t, exec (.spdmGetMeasurements i nonce) s = .next t ∧ SmbAnswered s t .invalidRequest :=
  ⟨_, if_pos (by simpa [measuredSlots] using hk), spdm_answered _ hp hr⟩

/-- A slot that the boot has not measured yet holds the whole request back. -/
theorem spdmGetMeasurements_waits {s : State} {i k : Nat} {nonce : List Byte} (hk : k ∈ measuredSlots i) (hy : s.slotReady k = false) :
    exec (.spdmGetMeasurements i nonce) s = .next s :=
  (if_neg (by simpa [measuredSlots] using List.ne_nil_of_mem hk)).trans
    (if_pos (by simpa [measuredSlots] using ⟨k, hk, hy⟩))

theorem spdmVendor_answered {s v : State} {data bs : List Byte} {n : Nat} (hp : s.board.power = true) (hr : s.recovering = false)
    (ho : atOp (fitBytes 96 data) = 0) (hf : atFieldsOk (fitBytes 96 data) = true)
    (ht : atTarget (fitBytes 96 data) = 0 ∨ atTarget (fitBytes 96 data) = s.nodeId) (ha : s.attestRoom = true)
    (hb : s.attested (fitBytes 96 data) = (bs, n, v)) :
    ∃ t, exec (.spdmVendorDefinedRequest data) s = .next t ∧ SmbAnswered s t (.vendor (chunked 1024 (bs.length / 1024 + 1) bs)) := by
  obtain ⟨w, hw⟩ := attested_free s (fitBytes 96 data)
  have hn : ¬(atOp (fitBytes 96 data) ≠ 0 ∨ atFieldsOk (fitBytes 96 data) = false ∨
      (atTarget (fitBytes 96 data) ≠ 0 ∧ atTarget (fitBytes 96 data) ≠ s.nodeId)) := by
    rintro (h | h | h)
    · exact h ho
    · simp [hf] at h
    · exact ht.elim h.1 h.2
  have he : exec (.spdmVendorDefinedRequest data) s = .next (v.spdm (.vendor (chunked 1024 (bs.length / 1024 + 1) bs))) := by
    simp only [exec, execSpdmVendorDefinedRequest, if_neg hn, ha, hb, Bool.not_true, Bool.false_eq_true, if_false]
  have hv : v = s.putFree w := (congrArg (fun x => x.2.2) hb).symm.trans hw
  subst hv
  exact ⟨_, he, .ofFree (spdm_answered (s := s.putFree w) _ hp hr)⟩

theorem spdmVendor_invalid {s : State} {data : List Byte} (hp : s.board.power = true) (hr : s.recovering = false)
    (h : atOp (fitBytes 96 data) ≠ 0 ∨ atFieldsOk (fitBytes 96 data) = false ∨
      (atTarget (fitBytes 96 data) ≠ 0 ∧ atTarget (fitBytes 96 data) ≠ s.nodeId)) :
    ∃ t, exec (.spdmVendorDefinedRequest data) s = .next t ∧ SmbAnswered s t .invalidRequest :=
  ⟨_, if_pos h, spdm_answered _ hp hr⟩

/-! ### Recovery and no power -/

theorem spdmGetCertificate_silent {s : State} {slot off n : Nat} (h : s.recovering = true ∨ s.board.power = false) :
    ∃ t, exec (.spdmGetCertificate slot off n) s = .next t ∧ SmbSilent s t := by
  refine ⟨s, ?_, .rfl⟩
  simp [exec, execSpdmGetCertificate, spdm_silent _ h]

theorem spdmChallenge_silent {s : State} {slot : Nat} {nonce : List Byte} (h : s.recovering = true ∨ s.board.power = false) :
    ∃ t, exec (.spdmChallenge slot nonce) s = .next t ∧ SmbSilent s t := by
  simp only [exec, execSpdmChallenge]
  split
  · exact ⟨_, rfl, .spdm _ h⟩
  · split
    · exact ⟨_, rfl, .spdm _ h⟩
    · exact ⟨_, rfl, spdmSign_silent nonce _ h⟩

theorem spdmGetMeasurements_silent {s : State} {i : Nat} {nonce : List Byte} (h : s.recovering = true ∨ s.board.power = false) :
    ∃ t, exec (.spdmGetMeasurements i nonce) s = .next t ∧ SmbSilent s t := by
  simp only [exec, execSpdmGetMeasurements]
  generalize (if i = 0xFF then List.range 24 else if 1 ≤ i ∧ i ≤ 24 then [i - 1] else []) = ks
  split
  · exact ⟨_, rfl, .spdm _ h⟩
  · split
    · exact ⟨_, rfl, .rfl⟩
    · split
      · exact ⟨_, rfl, .spdm _ h⟩
      · exact ⟨_, rfl, spdmSign_silent nonce _ h⟩

theorem spdmVendor_silent {s : State} {data : List Byte} (h : s.recovering = true ∨ s.board.power = false) :
    ∃ t, exec (.spdmVendorDefinedRequest data) s = .next t ∧ SmbSilent s t := by
  obtain ⟨w, hw⟩ := attested_free s (fitBytes 96 data)
  simp only [exec, execSpdmVendorDefinedRequest]
  split
  · exact ⟨_, rfl, .spdm _ h⟩
  · split
    · exact ⟨_, rfl, .spdm _ h⟩
    · rw [hw, spdm_silent (s := s.putFree w) _ h]
      exact ⟨_, rfl, rfl, rfl, rfl, rfl⟩

/-- Settles O56: each request is answered with its own message, and only free values change beside it. -/
theorem management : Obligations.Management := by
  unfold Obligations.Management
  refine ⟨?_, ?_, ?_, ?_, ?_, ?_, ?_⟩
  · intro s c m code mtype data hp hr hm
    have answered : ∀ t, SmbAnswered s t m → exec c s = .next t →
        ∃ t, exec c s = .next t ∧ t.smb = s.smb ++ [m] ∧ t.regs = s.regs ∧ t.out = s.out ∧ t.mem = s.mem ∧ t.recs = s.recs ∧ t.sec = s.sec :=
      fun t h e => ⟨t, e, h.smb, h.regs, h.out, h.mem, h.recs, h.sec⟩
    simp only [List.mem_cons, List.not_mem_nil, or_false, Prod.mk.injEq] at hm
    obtain ⟨rfl, rfl⟩ | ⟨rfl, rfl⟩ | ⟨rfl, rfl⟩ | ⟨rfl, rfl⟩ | ⟨rfl, rfl⟩ | ⟨rfl, rfl⟩ | ⟨rfl, rfl⟩ := hm
    · exact answered _ (smbAnswer_on _ hp) rfl
    · exact answered _ (spdm_answered _ hp hr) rfl
    · exact answered _ (spdm_answered _ hp hr) rfl
    · exact answered _ (spdm_answered _ hp hr) rfl
    · exact answered _ (spdm_answered _ hp hr) rfl
    · exact answered _ (smbAnswer_on _ hp) rfl
    · exact answered _ (smbAnswer_on _ hp) rfl
  · intro s slot off n chain bs hp hr hc hb
    refine ⟨fun hs ho => ?_, fun h => ?_⟩
    · obtain ⟨t, e, h⟩ := spdmGetCertificate_answered (n := n) hp hr hc hb hs ho
      exact ⟨t, e, h.smb, h.regs, h.out⟩
    · obtain ⟨t, e, h⟩ := spdmGetCertificate_invalid (n := n) hp hr (hc ▸ h)
      exact ⟨t, e, h.smb⟩
  · intro s slot nonce hp hr
    refine ⟨fun hs ha => ?_, fun hs ha => ?_, fun hs => ?_⟩
    · obtain ⟨t, e, h⟩ := spdmChallenge_signed (nonce := nonce) hp hr hs ha
      exact ⟨t, e, h.smb, h.regs, h.out, h.sec⟩
    · obtain ⟨t, e, h⟩ := spdmChallenge_busy (nonce := nonce) hp hr hs ha
      exact ⟨t, e, h.smb⟩
    · obtain ⟨t, e, h⟩ := spdmChallenge_invalid (nonce := nonce) hp hr hs
      exact ⟨t, e, h.smb⟩
  · intro s i nonce ks hp hr hk
    change ks = measuredSlots i at hk
    subst hk
    refine ⟨fun hne hy ha => ?_, fun hne => ?_, fun k hk hy => spdmGetMeasurements_waits hk hy⟩
    · obtain ⟨t, e, h⟩ := spdmGetMeasurements_signed (nonce := nonce) hp hr hne hy ha
      exact ⟨t, e, h.smb, h.regs, h.out⟩
    · obtain ⟨t, e, h⟩ := spdmGetMeasurements_invalid (nonce := nonce) hp hr hne
      exact ⟨t, e, h.smb⟩
  · intro s v data ps bs n hp hr hps
    subst hps
    refine ⟨fun ho hf ht ha hb => ?_, fun h => ?_⟩
    · obtain ⟨t, e, h⟩ := spdmVendor_answered hp hr ho hf ht ha hb
      exact ⟨t, e, h.smb, h.regs, h.out⟩
    · obtain ⟨t, e, h⟩ := spdmVendor_invalid hp hr h
      exact ⟨t, e, h.smb⟩
  · intro s c slot off n i code nonce data h hc
    simp only [List.mem_cons, List.not_mem_nil, or_false] at hc
    obtain rfl | rfl | rfl | rfl | rfl | rfl | rfl | rfl := hc
    · exact ⟨_, rfl, SmbSilent.spdm _ h⟩
    · exact ⟨_, rfl, SmbSilent.spdm _ h⟩
    · exact ⟨_, rfl, SmbSilent.spdm _ h⟩
    · exact spdmGetCertificate_silent h
    · exact spdmChallenge_silent h
    · exact spdmGetMeasurements_silent h
    · exact spdmVendor_silent h
    · exact ⟨_, rfl, SmbSilent.spdm _ h⟩
  · intro s c mtype data hc
    simp only [List.mem_cons, List.not_mem_nil, or_false] at hc
    obtain rfl | rfl | rfl := hc <;>
      exact ⟨fun hp => ⟨_, _, rfl, (smbAnswer_on _ hp).smb⟩, fun hp => congrArg _ (smbAnswer_off _ hp)⟩

end Sys2Proof.Machine
end

section
set_option Elab.async false
/-! SUPPORT. Effects that leave the host's side of the node as it was (`Calm`): requests, queues, contexts, time, the partitions' configuration and the
registers below the fault block. What writes memory, the flash, the fabric, the engines or the logbook is one,
    and a completion after it is the request's own. -/

namespace Sys2Proof.Machine

/-- The state with nothing left but what a completion and an admission depend on. -/
def State.hostSide (s : State) : State :=
  { s.core with
    mem := {}, fab := {}, flt := {}, flash := {}, emb := {}, sec := {}, shares := [], sels := [], results := [], bank := [], tokens := [],
        corpora := [],
    builds := [], queries := [], arrays := [], atokens := [], models := [], oldModels := [], arrWork := [], trims := [], load := none, cal := [],
    margins := [], smb := [] }

/-- `t` follows `s` by effects that leave the host's side as it was. -/
structure Calm (s t : State) : Prop where
  host : t.hostSide = s.hostSide
  cfg : ∀ p, (t.part p).cfg = (s.part p).cfg
  rst : ∀ p, (t.part p).rst = (s.part p).rst
  reg : ∀ x, x < 0x2800000 → t.reg x = s.reg x
  sent : Extends s t

theorem Aside.calm {s t : State} (h : Aside s t) : Calm s t :=
  ⟨h.view State.hostSide, h.cfg, h.rst, fun x hx => h.reg x (.inl hx), h.sent⟩

namespace Calm

theorem refl (s : State) : Calm s s := (Aside.refl s).calm

section
variable {s t u : State}

theorem trans (h : Calm s t) (g : Calm t u) : Calm s u :=
  ⟨g.host.trans h.host, fun p => (g.cfg p).trans (h.cfg p), fun p => (g.rst p).trans (h.rst p), fun x hx => (g.reg x hx).trans (h.reg x hx),
    h.sent.trans g.sent⟩

theorem aside (h : Calm s t) (g : Aside t u) : Calm s u := h.trans g.calm

theorem ite {c : Prop} [Decidable c] (h : Calm s t) (g : Calm s u) : Calm s (if c then t else u) := by
  split
  · exact h
  · exact g

theorem foldl {α : Type} {f : State → α → State} {l : List α} (h : Calm s t) (step : ∀ u a, Calm s u → Calm s (f u a)) :
    Calm s (l.foldl f t) := by
  induction l generalizing t with
  | nil => exact h
  | cons a l ih => exact ih (step t a h)

/-! ### What stays -/

section
variable (h : Calm s t)
include h

theorem view {α : Type} (π : State → α) : π t.hostSide = π s.hostSide := congrArg π h.host

theorem time : t.time = s.time := h.view State.time
theorem now : t.now = s.now := h.view State.now
theorem recs : t.recs = s.recs := h.view State.recs
theorem nextRec : t.nextRec = s.nextRec := h.view State.nextRec
theorem fetchNo : t.fetchNo = s.fetchNo := h.view State.fetchNo
theorem queues : t.queues = s.queues := h.view State.queues
theorem ctxs : t.ctxs = s.ctxs := h.view State.ctxs
theorem board : t.board = s.board := h.view State.board
theorem pcfg (p : Nat) : t.pcfg p = s.pcfg p := congrArg (fun c : Option PartCfg => c.getD (fixedCfg p)) (h.cfg p)
theorem configured (p : Nat) : t.configured p = s.configured p := congrArg Option.isSome (h.cfg p)
theorem fld {x : Nat} (f : Fld) (low : x < 0x2800000) : t.fld x f = s.fld x f := congrArg f.get (h.reg x low)

theorem pstate {p : Nat} (hp : p < 64) : t.pstate p = s.pstate p := h.fld _ (by unfold rPrtStatus; omega)

theorem recGet {rid : Nat} {r : Rec} (hr : kvGet? rid s.recs = some r) : kvGet? rid t.recs = some r := h.recs ▸ hr

end

/-! ### What is one -/

/-- Whatever leaves the host's side, the partitions, the registers and the traffic to the host alone. -/
theorem of (h : Calm s t) (host : u.hostSide = t.hostSide) (parts : u.parts = t.parts) (regs : u.regs = t.regs) (out : u.out = t.out) : Calm s u :=
  h.trans ⟨host, fun p => by rw [State.part, parts]; rfl, fun p => by rw [State.part, parts]; rfl, fun x _ => by rw [State.reg, regs]; rfl,
    by rw [Extends, out]⟩

theorem modMem {f : MemSys → MemSys} (h : Calm s t) : Calm s (t.modMem f) := h.of rfl rfl rfl rfl
theorem modFab {f : Fab → Fab} (h : Calm s t) : Calm s (t.modFab f) := h.of rfl rfl rfl rfl
theorem modFlt {f : Faults → Faults} (h : Calm s t) : Calm s (t.modFlt f) := h.of rfl rfl rfl rfl
theorem putFlash {v : Flash} (h : Calm s t) : Calm s (t.putFlash v) := h.of rfl rfl rfl rfl
theorem modFlash {f : Flash → Flash} (h : Calm s t) : Calm s (t.modFlash f) := h.of rfl rfl rfl rfl
theorem modEmb {f : Emb → Emb} (h : Calm s t) : Calm s (t.modEmb f) := h.of rfl rfl rfl rfl
theorem putLog {v : List LogRec} (h : Calm s t) : Calm s (t.putLog v) := h.of rfl rfl rfl rfl
theorem putSec {v : Sec} (h : Calm s t) : Calm s (t.putSec v) := h.of rfl rfl rfl rfl
theorem putLoad {v : Option Load} (h : Calm s t) : Calm s (t.putLoad v) := h.of rfl rfl rfl rfl
theorem putBuilds {v : KV Build} (h : Calm s t) : Calm s (t.putBuilds v) := h.of rfl rfl rfl rfl
theorem putQueries {v : KV Query} (h : Calm s t) : Calm s (t.putQueries v) := h.of rfl rfl rfl rfl
theorem putArrWork {v : List (Nat × Nat)} (h : Calm s t) : Calm s (t.putArrWork v) := h.of rfl rfl rfl rfl
theorem putModels {v : KV Binding} (h : Calm s t) : Calm s (t.putModels v) := h.of rfl rfl rfl rfl
theorem putOldModels {v : List (Nat × Binding)} (h : Calm s t) : Calm s (t.putOldModels v) := h.of rfl rfl rfl rfl
theorem putAtokens {v : List ArrToken} (h : Calm s t) : Calm s (t.putAtokens v) := h.of rfl rfl rfl rfl
theorem modCorpus {p : Nat} {f : Corpus → Corpus} (h : Calm s t) : Calm s (t.modCorpus p f) := h.of rfl rfl rfl rfl
theorem modArr {a : Nat} {f : ArrUnit → ArrUnit} (h : Calm s t) : Calm s (t.modArr a f) := h.of rfl rfl rfl rfl
theorem modShare {a : Nat} {f : ArrShare → ArrShare} (h : Calm s t) : Calm s (t.modShare a f) := h.of rfl rfl rfl rfl
theorem modChan {c : Nat} {f : BankCh → BankCh} (h : Calm s t) : Calm s (t.modChan c f) := h.of rfl rfl rfl rfl
theorem modUnit {k n : Nat} {f : FUnit → FUnit} (h : Calm s t) : Calm s (t.modUnit k n f) := h.modFlt
theorem putFree {v : Nat} (h : Calm s t) : Calm s (t.putFree v) := h.of rfl rfl rfl rfl
theorem fresh (h : Calm s t) : Calm s t.fresh.2 := h.putFree
theorem bump {o n : Nat} (h : Calm s t) : Calm s (t.bump o n) := h.aside (Aside.refl t).bump
theorem rawBump {o n : Nat} (h : Calm s t) : Calm s (t.rawBump o n).1 := h.aside (Aside.refl t).rawBump
theorem markSat {o : Nat} (h : Calm s t) : Calm s (t.markSat o) := h.aside (Aside.refl t).markSat
theorem chargeBw {p k n : Nat} (h : Calm s t) : Calm s (t.chargeBw p k n) := h.aside (Aside.refl t).chargeBw
theorem access {p a n : Nat} (h : Calm s t) : Calm s (t.access p a n) := h.aside (Aside.refl t).access
theorem chargeHostRead {p : Nat} {flow : Nat × Bool} {n : Nat} (h : Calm s t) : Calm s (t.chargeHostRead p flow n) :=
  h.aside (Aside.refl t).chargeHostRead
theorem phaseRan {p : Nat} (h : Calm s t) : Calm s (t.phaseRan p) := h.aside (Aside.refl t).phaseRan

theorem setReg {o : Nat} {w : Word} (h : Calm s t) (high : 0x2800000 ≤ o) : Calm s (t.setReg o w) :=
  h.trans ⟨rfl, fun _ => rfl, fun _ => rfl, fun _ hx => State.reg_setReg_low t w hx high, .refl t⟩

theorem setFld {o v : Nat} {f : Fld} (h : Calm s t) (high : 0x2800000 ≤ o) : Calm s (t.setFld o f v) := h.setReg high

/-! ### Events and the logbook -/

theorem logAppend {kind : Nat} {bs : List Byte} (h : Calm s t) : Calm s (t.logAppend kind bs) := by
  have status : 0x2800000 ≤ rLogStatus := by decide
  have dropped : 0x2800000 ≤ rLogDropped := by decide
  have next : 0x2800000 ≤ rLogNextSeq := by decide
  have reserved : ∀ {u : State} {c : Prop} [Decidable c], Calm s u → Calm s (if c then u.setFld rLogStatus fLogStatus_RESERVE 1 else u) :=
    fun g => ite (g.setFld status) g
  unfold State.logAppend
  exact ite ((ite (reserved h) ((reserved h).setFld status)).setReg dropped)
    (((reserved ((reserved h).putLog.setReg next)).setFld status).setFld status)

theorem evPlace {cls b c d e f g : Nat} (h : Calm s t) : Calm s (t.evPlace cls b c d e f g) := by
  have tallied : Calm s (if cls = 0 then t.tallyHour b c e else t) := ite h.modFlt h
  have logged : ∀ {u : State} {bs : List Byte}, Calm s u → Calm s (if cls = 0 then u else u.logAppend lkEvent bs) := fun g => ite g g.logAppend
  have ringed : ∀ {u : State} {pf n : Nat}, pf < 2 → Calm s u → Calm s (u.addLost pf n) := fun low g => g.aside ((Aside.refl _).addLost low)
  have signalled : ∀ {u : State} {pf : Nat}, Calm s u → Calm s (u.eventIrq pf cls) := fun g => g.aside (Aside.refl _).eventIrq
  unfold State.evPlace
  dsimp only
  refine ite tallied.modFlt (signalled (signalled (logged (ringed (by decide) (ringed (by decide) (Calm.modFlt ?_))))))
  exact tallied.aside (Aside.refl _).drogue

theorem event {cls b c d e f g : Nat} (h : Calm s t) : Calm s (t.event cls b c d e f g) := by
  have counted : Calm s (t.evCount cls).1 := by
    unfold State.evCount
    split_ifs
    · exact h.rawBump
    · exact h.rawBump
    · exact h
  unfold State.event
  exact ite (ite counted.evPlace.markSat.rawBump.evPlace counted.evPlace.markSat) counted.evPlace

/-! ### Memory, the flash and the fabric -/

theorem hide {a n : Nat} (h : Calm s t) : Calm s (t.hide a n) := h.modMem.putFree

theorem release {a : Nat} (h : Calm s t) : Calm s (t.release a) := by
  unfold State.release
  split
  · exact h
  · exact (ite h.putFlash h).modMem

theorem readUnit {p k : Nat} (h : Calm s t) : Calm s (t.readUnit p k) := by
  unfold State.readUnit
  split
  · exact h
  · exact ite h.modFlash.bump.event (ite h.modFlash.bump h.modFlash)

theorem flashLoad {p a n : Nat} (h : Calm s t) : Calm s (t.flashLoad p a n).2.2.2 := by
  have read : Calm s (t.readUnits p (unitSpan a n).1 (unitSpan a n).2).2 := h.foldl fun _ _ g => g.readUnit
  exact ite read.bump.chargeBw read.bump.chargeBw.putFree

theorem readInput {p : Nat} {flow : Nat × Bool} {a n : Nat} {host : List Byte} (h : Calm s t) : Calm s (t.readInput p flow a n host).2 := by
  unfold State.readInput
  dsimp only
  split_ifs
  · exact h.flashLoad
  · exact h.access
  · exact h.chargeHostRead

theorem handPacket {k : Packet} (h : Calm s t) : Calm s (t.handPacket k) := ite h.modFab h.modFab

theorem sendOrder {dst op part gen : Nat} {args : List Nat} {len : Nat} (h : Calm s t) : Calm s (t.sendOrder dst op part gen args len) :=
  h.modFab.handPacket

theorem allocAt {p k n a : Nat} {kind : AllocKind} {start : Option Nat} (h : Calm s t) (e : t.allocAt p k n kind start = some (a, u)) : Calm s u := by
  unfold State.allocAt at e
  dsimp only at e
  split at e
  · cases e
  · split at e
    · cases e
    · obtain ⟨-, rfl⟩ := Prod.mk.inj (Option.some.inj e)
      exact ite h.modMem.putFlash h.modMem

theorem alloc {p k n a : Nat} {kind : AllocKind} (h : Calm s t) (e : t.alloc p k n kind = some (a, u)) : Calm s u := h.allocAt e

end

end Calm

/-! ### Completions after it -/

section
variable {s u : State} {p q cid op rid count r0 r1 : Nat} {r : Rec}

theorem MayRun.doneAfter (h : MayRun s p q cid op rid r) (c : Calm s u) (hp : p < 64) :
    Completes s (u.done p rid count r0 r1) p q cid scDone count r0 r1 :=
  h.done c.sent (c.recGet h.2.1) (c.pstate hp ▸ h.2.2)

theorem UnderWay.doneAfter (h : UnderWay s p q cid op rid r) (c : Calm s u) (hp : p < 64) :
    Completes s (u.done p rid count r0 r1) p q cid scDone count r0 r1 :=
  h.done c.sent (c.recGet h.2.1) (c.pstate hp ▸ h.2.2)

theorem MayRun.failedAfter {status : Nat} (h : MayRun s p q cid op rid r) (c : Calm s u) (hp : p < 64)
    (hs : op ≠ 0x31 ∨ (status ≠ scRemoteError ∧ status ≠ scUnreachable)) : Completes s (u.fail p rid status) p q cid status 0 0 0 :=
  h.failed c.sent (c.recGet h.2.1) (c.pstate hp ▸ h.2.2) hs

end

end Sys2Proof.Machine
end

section
set_option Elab.async false
/-! SUPPORT. Compositions (spec/12, R324 to R327): definition, removal and the meters. -/

namespace Sys2Proof.Machine

/-- A check of a composition command before its definition is read fails: the command completes with the status and no entry at fault. -/
theorem MayRun.failComp {s : State} {p q cid rid st : Nat} {r : Rec} (may : MayRun s p q cid 0x45 rid r) :
    Completes s (s.failComp p rid st none) p q cid st 0 0 0xFFFFFFFFFFFFFFFF := by
  have completes := may.completes (.refl s) may.2.1 may.2.2 p st 0 0 0 0xFFFFFFFFFFFFFFFF [] (.inr ⟨rfl, .inl (by decide)⟩)
  rwa [finalCount_zero] at completes

theorem compositionSet_held {s : State} {p q cid rid : Nat} {data : List Byte} {r : Rec} (may : MayRun s p q cid 0x45 rid r)
    (held : s.allocHeld = true) : exec (.compositionSet p q cid data) s = .next s := by
  simp only [exec, execCompositionSet, may.1, held, or_true, if_true]

theorem compositionRemove_held {s : State} {p q cid rid : Nat} {r : Rec} (may : MayRun s p q cid 0x45 rid r) (held : s.allocHeld = true) :
    exec (.compositionRemove p q cid) s = .next s := by
  simp only [exec, execCompositionRemove, may.1, held, or_true, if_true]

theorem compositionSet_refused {s : State} {p q cid rid st : Nat} {data : List Byte} {r : Rec} (may : MayRun s p q cid 0x45 rid r)
    (op : r.cmd.param 2 1 ≠ 1) (free : s.allocHeld = false) (bad : (s.named r).compositionCheck p r.cmd = some st) :
    exec (.compositionSet p q cid data) s = .next (s.failComp p rid st none) := by
  simp only [exec, execCompositionSet, may.1, op, free, bad, or_self, Bool.false_eq_true, if_false]

theorem compositionRemove_refused {s : State} {p q cid rid st : Nat} {r : Rec} (may : MayRun s p q cid 0x45 rid r)
    (op : r.cmd.param 2 1 = 1) (free : s.allocHeld = false) (bad : (s.named r).compositionCheck p r.cmd = some st) :
    exec (.compositionRemove p q cid) s = .next (s.failComp p rid st none) := by
  simp only [exec, execCompositionRemove, may.1, op, free, bad, ne_eq, not_true, or_self, Bool.false_eq_true, if_false]

/-! ### Windows -/

theorem comps_hide (s : State) (a n : Nat) : (s.hide a n).mem.comps = s.mem.comps := by
  change (s.mem.forget a n s.free).comps = s.mem.comps
  unfold MemSys.forget
  split <;> rfl

theorem comps_startWindow {s t : State} {w x : PWindow} (e : s.startWindow w = some (x, t)) : t.mem.comps = s.mem.comps := by
  unfold State.startWindow at e
  split at e
  · obtain ⟨⟨a, u⟩, ea, eu⟩ := Option.map_eq_some_iff.1 e
    have kept : u.mem.comps = s.mem.comps := by
      unfold State.alloc State.allocAt at ea
      dsimp only at ea
      split at ea
      · cases ea
      · split at ea
        · cases ea
        · obtain ⟨-, rfl⟩ := Prod.mk.inj (Option.some.inj ea)
          split <;> rfl
    obtain ⟨-, rfl⟩ := Prod.mk.inj eu
    exact (comps_hide u a w.len).trans kept
  · obtain ⟨-, rfl⟩ := Prod.mk.inj (Option.some.inj e)
    rfl

theorem Calm.startWindow {s t u : State} {w x : PWindow} (h : Calm s t) (e : t.startWindow w = some (x, u)) : Calm s u := by
  unfold State.startWindow at e
  split at e
  · obtain ⟨⟨a, v⟩, ea, eu⟩ := Option.map_eq_some_iff.1 e
    obtain ⟨-, rfl⟩ := Prod.mk.inj eu
    exact (h.alloc ea).hide
  · obtain ⟨-, rfl⟩ := Prod.mk.inj (Option.some.inj e)
    exact h

/-- Building the windows of a definition keeps whatever starting one window keeps. -/
theorem buildWindows_induct {P : State → Prop} (step : ∀ {t u : State} {w x : PWindow}, P t → t.startWindow w = some (x, u) → P u)
    (old : List PWindow) {ws : List PWindow} : ∀ {i : Nat} {t u : State} {x : List PWindow}, P t → t.buildWindows old i ws = .ok (x, u) → P u := by
  induction ws with
  | nil =>
    intro i t u x h e
    cases e
    exact h
  | cons w ws ih =>
    intro i t u x h e
    unfold State.buildWindows at e
    split at e
    · cases ey : t.buildWindows old (i + 1) ws with
      | error _ => simp [ey, Except.map] at e
      | ok y =>
        rw [ey] at e
        cases e
        exact ih h ey
    · split at e
      · cases e
      · next y v ev =>
        cases ez : v.buildWindows old (i + 1) ws with
        | error _ => simp [ez, Except.map] at e
        | ok z =>
          rw [ez] at e
          cases e
          exact ih (step h ev) ez

theorem mem_sendOrders (order : PWindow → State → State) (keeps : ∀ w t, (order w t).mem = t.mem) (ws : List PWindow) (s : State) :
    (ws.foldl (fun (t : State) w => order w t) s).mem = s.mem := by
  induction ws generalizing s with
  | nil => rfl
  | cons w ws ih => exact (ih _).trans (keeps w s)

theorem State.mem_handPacket (s : State) (k : Packet) : (s.handPacket k).mem = s.mem := by
  unfold State.handPacket
  split <;> rfl

theorem State.mem_sendOrder (s : State) (dst op part gen : Nat) (args : List Nat) (len : Nat) : (s.sendOrder dst op part gen args len).mem = s.mem :=
  State.mem_handPacket _ _

theorem State.regs_handPacket (s : State) (k : Packet) : (s.handPacket k).regs = s.regs := by
  unfold State.handPacket
  split <;> rfl

/-- What a dropped window leaves: requests, registers and the tensors that the flash holds read-only. -/
structure DropsWindow (s t : State) : Prop where
  recs : t.recs = s.recs
  regs : t.regs = s.regs
  ro : t.flash.roTens = s.flash.roTens

theorem State.release_dropsWindow (s : State) (a : Nat) : DropsWindow s (s.release a) := by
  unfold State.release
  split
  · exact ⟨rfl, rfl, rfl⟩
  · split <;> exact ⟨rfl, rfl, rfl⟩

theorem State.handPacket_dropsWindow (s : State) (k : Packet) : DropsWindow s (s.handPacket k) := by
  unfold State.handPacket
  split <;> exact ⟨rfl, rfl, rfl⟩

theorem DropsWindow.dropWindow {s t : State} {w : PWindow} (h : DropsWindow s t) : DropsWindow s (t.dropWindow w) := by
  have released : DropsWindow s (if w.lend then t.release w.base else t) := by
    split
    · exact ⟨(t.release_dropsWindow _).recs.trans h.recs, (t.release_dropsWindow _).regs.trans h.regs, (t.release_dropsWindow _).ro.trans h.ro⟩
    · exact h
  exact ⟨(State.handPacket_dropsWindow _ _).recs.trans released.recs, (State.handPacket_dropsWindow _ _).regs.trans released.regs,
    (State.handPacket_dropsWindow _ _).ro.trans released.ro⟩

theorem DropsWindow.dropWindows {s t : State} (h : DropsWindow s t) (ws : List PWindow) : DropsWindow s (ws.foldl State.dropWindow t) := by
  induction ws generalizing t with
  | nil => exact h
  | cons w ws ih => exact ih h.dropWindow

theorem State.integrate_dropsWindow (s : State) : DropsWindow s s.integrate := by
  unfold State.integrate
  exact ⟨rfl, rfl, rfl⟩

theorem State.fldPf_integrate (s : State) (pf o : Nat) (f : Fld) : s.integrate.fldPf pf o f = s.fldPf pf o f := rfl

theorem State.now_integrate (s : State) : s.integrate.now = s.now := rfl

theorem State.comps_named (s : State) (r : Rec) : (s.named r).mem.comps = s.mem.comps := by
  unfold State.named
  dsimp only
  split <;> rfl

/-- A request sees the tensors of Tier P as they are: what it holds differs from what the node shows in `dying` only. -/
theorem State.tierPTensors_named (s : State) (r : Rec) (m : Nat) : (s.named r).tierPTensors m = s.tierPTensors m := by
  unfold State.named
  dsimp only
  split
  · unfold State.tierPTensors
    simp only [State.modMem_eq, State.putMem_reads, kvMapVals, List.filter_map, List.map_map]
    have seen : ∀ (x : Nat × Tensor) (c : Bool), (if c then { x.2 with dying := false } else x.2).part = x.2.part ∧
        (if c then { x.2 with dying := false } else x.2).addr = x.2.addr := fun x c => by cases c <;> exact ⟨rfl, rfl⟩
    refine congrArg₂ _ rfl (List.filter_congr fun x _ => ?_)
    simp only [Function.comp, (seen x _).1, (seen x _).2]
  · rfl

/-! ### The two commands -/

section
variable {s s1 s2 s3 : State} {p q cid rid id : Nat} {data d : List Byte} {r : Rec} {k : CompDef} {old cur : Sys2Proof.Machine.Composition}
  {ws : List PWindow}

/-- The definition in force before its windows are built. -/
def CompDef.comp (k : CompDef) (cur : Sys2Proof.Machine.Composition) (ws : List PWindow) : Sys2Proof.Machine.Composition :=
  .mk k.parts k.quotas k.shares ws cur.created cur.meters

/-- What ends the definition of a composition: the windows that are gone are closed at their peers, new ones are opened there, and the composition
holds the windows built. -/
def State.installWindows (s : State) (id : Nat) (old ws : List PWindow) (kept : PWindow → Bool) : State :=
  let closed := (old.filter (fun w => !kept w)).foldl (fun (t : State) w => t.sendOrder w.peer 0x23 w.part (t.resetGen w.part) [w.wid] 4) s
  let opened := (ws.filter (fun w => !w.lend && !old.any w.same)).foldl
    (fun (t : State) w => t.sendOrder w.peer 0x20 w.part (t.resetGen w.part) [w.wid, w.len] 12) closed
  opened.modMem (fun m => { m with comps := kvUpd id (fun (x : Sys2Proof.Machine.Composition) => { x with windows := ws }) m.comps })

theorem Calm.installWindows {s t : State} {id : Nat} {old ws : List PWindow} {kept : PWindow → Bool} (h : Calm s t) :
    Calm s (t.installWindows id old ws kept) := by
  unfold State.installWindows
  exact .modMem (.foldl (.foldl h fun _ _ g => g.sendOrder) fun _ _ g => g.sendOrder)

theorem Calm.dropWindow {s t : State} {w : PWindow} (h : Calm s t) : Calm s (t.dropWindow w) := .sendOrder (.ite h.release h)

theorem Calm.integrate {s t : State} (h : Calm s t) : Calm s t.integrate := by
  unfold State.integrate
  exact h.modMem

theorem comps_installWindows (s : State) (id : Nat) (old ws : List PWindow) (kept : PWindow → Bool) {c : Sys2Proof.Machine.Composition}
    (h : kvGet? id s.mem.comps = some c) : kvGet? id (s.installWindows id old ws kept).mem.comps = some { c with windows := ws } := by
  have mem : ∀ (l : List PWindow) (t : State) (op n : Nat) (args : PWindow → List Nat),
      (l.foldl (fun (t : State) w => t.sendOrder w.peer op w.part (t.resetGen w.part) (args w) n) t).mem = t.mem := fun l t op n args =>
    mem_sendOrders (fun w t => t.sendOrder w.peer op w.part (t.resetGen w.part) (args w) n) (fun _ _ => State.mem_sendOrder _ _ _ _ _ _ _) l t
  unfold State.installWindows
  dsimp only
  simp only [State.modMem_eq, State.putMem_reads, kvGet?_upd, if_true]
  rw [mem _ _ 0x20 12 fun w => [w.wid, w.len], mem _ _ 0x23 4 fun w => [w.wid], h]
  rfl

end

/-! ### The meters -/

theorem State.regPf_setRegPf (s : State) (pf o : Nat) (w : Word) : (s.setRegPf pf o w).regPf pf o = w := by
  unfold State.setRegPf State.regPf
  simp only [State.putRegs_reads]
  split
  next e => rw [kvGet?_del_self, Option.getD_none, e]
  next => rw [kvGet?_put_self, Option.getD_some]

theorem metered_setFldPf (s : State) (pf o v dt : Nat) (f : Fld) (c : Composition) (high : 0x140008 ≤ o) :
    (s.setFldPf pf o f v).metered c dt = s.metered c dt := by
  have states : ∀ x, x < 64 → (s.setFldPf pf o f v).pstate x = s.pstate x := fun x hx => by
    unfold State.pstate State.fld State.reg
    rw [State.setFldPf, State.setRegPf]
    have other : rPrtStatus x ≠ pfKey pf o := by unfold rPrtStatus pfKey; omega
    simp only [State.putRegs_reads]
    split
    · rw [kvGet?_del_ne other]
    · rw [kvGet?_put_ne other]
  unfold State.metered
  dsimp only
  have acts : ∀ (l : List Nat), (∀ x ∈ l, x < 64) → l.filter (fun x => (s.setFldPf pf o f v).pstate x != stUnconfigured) =
      l.filter (fun x => s.pstate x != stUnconfigured) := fun l hl => List.filter_congr fun x hx => by rw [states x (hl x hx)]
  rw [acts _ fun x hx => List.mem_range.1 (List.mem_of_mem_filter hx)]
  rfl

theorem meterIntegrate_early {s : State} (h : s.now < s.mem.lastMeter + 1000) : exec .meterIntegrate s = .next s := if_pos h

theorem comps_integrate (s : State) (id : Nat) (c : Composition) (h : kvGet? id s.mem.comps = some c) :
    kvGet? id s.integrate.mem.comps = some (s.metered c (s.now - s.mem.lastMeter)) := by
  unfold State.integrate
  simp only [State.modMem_eq, State.putMem_reads, kvGet?_mapVals, h, Option.map_some]


/-- What `COMPOSITION_SET` needs of its definition `d`, read into `s1`, for the composition to be put in force in `s2`. -/
structure SetsComposition (s1 s2 : State) (id : Nat) (d : List Byte) (k : CompDef) (old cur : Sys2Proof.Machine.Composition) : Prop where
  head : compHeadOk id d = true
  parse : k = parseComp d
  members : ∀ m, m < 64 → bitOf k.parts m = true → s1.configured m = true ∧ ∀ o ∈ s1.mem.comps, o.1 ≠ id → bitOf o.2.parts m = false
  entries : s1.compBadEntry id d = none
  was : old = (kvGet? id s1.mem.comps).getD (Sys2Proof.Machine.Composition.mk 0 [] [] [] s1.now (List.replicate 10 0))
  strands : s1.strands old k.parts k.windows = false
  room : (kvGet? id s1.mem.comps).isSome = true ∨ s1.mem.comps.length < 256
  windows : s1.mem.comps.foldl (fun n o => if o.1 = id then n else n + o.2.windows.length) k.windows.length ≤ 512
  is : cur = (kvGet? id s1.integrate.mem.comps).getD old
  next : s2 = (((old.windows.filter (fun w => !k.windows.any w.same)).filter (fun w => w.lend)).foldl (fun (t : State) w => t.release w.base)
    s1.integrate).modMem (fun m => { m with comps := kvPut id (k.comp cur (old.windows.filter (fun w => k.windows.any w.same))) m.comps })
  quotas : s2.quotasOk = true

theorem exec_compositionSet {s s1 s2 s3 : State} {p q cid rid id : Nat} {data d : List Byte} {r : Rec} {k : CompDef}
    {old cur : Sys2Proof.Machine.Composition} {ws : List PWindow} (may : MayRun s p q cid 0x45 rid r) (free : s.allocHeld = false)
    (hid : id = r.cmd.param 0 2) (op : r.cmd.param 2 1 = 0) (small : id ≤ 4095)
    (addr : (s.named r).addrOk p (r.cmd.param 8 8) (r.cmd.param 16 4) = true)
    (read : s.readInput p r.flow (r.cmd.param 8 8) (r.cmd.param 16 4) data = (d, s1)) (sets : SetsComposition s1 s2 id d k old cur)
    (built : s2.buildWindows old.windows (k.quotas.length + k.shares.length) k.windows = .ok (ws, s3)) :
    exec (.compositionSet p q cid data) s =
      .next ((s3.installWindows id old.windows ws (fun w => k.windows.any w.same)).done p rid 0
          ((ws.filter (fun w => w.state == 1)).length % 65536) 0) := by
  obtain ⟨head, parse, members, entries, was, strands, room, windows, is, next, quotas⟩ := sets
  have check : (s.named r).compositionCheck p r.cmd = none := by
    unfold State.compositionCheck
    dsimp only
    rw [if_neg (by omega), if_pos op, addr, if_pos rfl]
  have outsiders : ((List.range 64).filter (bitOf k.parts)).any
      (fun m => !s1.configured m || s1.mem.comps.any (fun o => o.1 != id && bitOf o.2.parts m)) = false := by
    rw [List.any_eq_false]
    intro m hm
    obtain ⟨hr, hb⟩ := List.mem_filter.1 hm
    obtain ⟨conf, others⟩ := members m (List.mem_range.1 hr) hb
    have none : s1.mem.comps.any (fun o => o.1 != id && bitOf o.2.parts m) = false := by
      rw [List.any_eq_false]
      intro o ho
      by_cases e : o.1 = id
      · simp [e]
      · simp [others o ho e]
    simp [conf, none]
  have held : ¬(r.cmd.param 2 1 = 1 ∨ s.allocHeld = true) := by simp [op, free]
  have full : ¬((kvGet? id s1.mem.comps).isNone = true ∧ 256 ≤ s1.mem.comps.length) := by
    rintro ⟨none, long⟩
    rcases room with some | short
    · simp [Option.isNone_iff_eq_none.1 none] at some
    · omega
  subst hid parse
  simp only [exec, execCompositionSet, may.1, if_neg held, check, read, head, outsiders, entries, ← was, strands, if_neg full,
    if_neg (show ¬(512 < _) from not_lt.2 windows), ← is, Bool.not_true, Bool.false_eq_true, if_false]
  simp only [CompDef.comp] at next
  rw [← next]
  simp only [quotas, built, Bool.not_true, Bool.false_eq_true, if_false]
  rfl

/-- `COMPOSITION_REMOVE` ends its composition, and its result is the last record of the meters. -/
theorem compositionRemove_done {s v : State} {p q cid rid id : Nat} {r : Rec} {x : Sys2Proof.Machine.Composition} (may : MayRun s p q cid 0x45 rid r)
    (free : s.allocHeld = false) (hid : id = r.cmd.param 0 2) (op : r.cmd.param 2 1 = 1) (small : id ≤ 4095) (addr : r.cmd.resultAddr ≠ 0)
    (align : r.cmd.resultAddr % 8 = 0) (found : kvGet? id s.mem.comps = some x) (room : (s.named r).resultOk p r.cmd.resultAddr 80 = true)
    (plain : PlainResult s r) (tierP : ∀ m, m < 64 → bitOf x.parts m = true → s.tierPTensors m = [])
    (hv : v = (x.windows.foldl State.dropWindow s.integrate).modMem (fun m => { m with comps := kvDel id m.comps })) (quotas : v.quotasOk = true) :
    ∃ (u : State) (bs : List Byte), exec (.compositionRemove p q cid) s = .next (u.complete p rid scDone 0 0 0 0 bs) ∧
      Completes s (u.complete p rid scDone 0 0 0 0 bs) p q cid scDone 0 0 0 ∧ kvGet? id u.mem.comps = none ∧
      bs = ((s.metered x (s.now - s.mem.lastMeter)).record s.now).flatMap (fun v => leBytes 8 v) := by
  have check : (s.named r).compositionCheck p r.cmd = none := by
    have found' : kvGet? id (s.named r).mem.comps = some x := by
      rw [State.comps_named, found]
    have idle : (List.range 64).any (fun m => bitOf x.parts m && !((s.named r).tierPTensors m).isEmpty) = false := by
      rw [List.any_eq_false]
      intro m hm
      by_cases b : bitOf x.parts m = true
      · simp [State.tierPTensors_named, tierP m (List.mem_range.1 hm) b]
      · simp [b]
    unfold State.compositionCheck
    subst hid
    simp only [found', room, idle]
    rw [if_neg (by omega), if_neg (by omega)]
    rfl
  have drops : DropsWindow s (x.windows.foldl State.dropWindow s.integrate) := .dropWindows s.integrate_dropsWindow _
  have recs : v.recs = s.recs := by rw [hv]; exact drops.recs
  have regs : v.regs = s.regs := by rw [hv]; exact drops.regs
  have ro : v.flash.roTens = s.flash.roTens := by rw [hv]; exact drops.ro
  have sent : Extends s v := by
    rw [hv]
    exact (Calm.foldl ((Calm.refl s).integrate) fun _ _ g => g.dropWindow).modMem.sent
  have state : v.pstate p = s.pstate p := by rw [State.pstate, State.fld, State.reg, regs]; rfl
  have completes := may.completes sent (recs ▸ may.2.1) (state ▸ may.2.2) p scDone 0 0 0 0
    (((s.metered x (s.now - s.mem.lastMeter)).record s.now).flatMap (fun v => leBytes 8 v)) (.inl fun high => by rw [ro]; exact plain high)
  rw [finalCount_zero] at completes
  refine ⟨v, _, ?_, completes, by rw [hv]; exact kvGet?_del_self _ _, rfl⟩
  subst hid
  simp only [exec, execCompositionRemove, may.1, op, free, check, found, comps_integrate s _ _ found, Option.getD_some, ← hv, quotas]
  rfl

theorem memCselLatch_latches {s : State} {pf comp window : Nat} {c : Sys2Proof.Machine.Composition} (small : comp < 4096)
    (found : kvGet? comp s.mem.comps = some c) :
    ∃ t, exec (.memCselLatch pf comp window) s = .next t ∧ kvGet? pf t.mem.latch = some ((s.metered c (s.now - s.mem.lastMeter)).record s.now) ∧
      t.fldPf pf rMemCsel fMemCsel_COMP_ID = comp ∧ t.mem.comps = s.integrate.mem.comps ∧ SameMem s t ∧ t.out = s.out := by
  obtain ⟨u, hu⟩ : ∃ u, u = (s.setFldPf pf rMemCsel fMemCsel_COMP_ID comp).setFldPf pf rMemCsel fMemCsel_WINDOW window := ⟨_, rfl⟩
  have sel : u.fldPf pf rMemCsel fMemCsel_COMP_ID = comp := by
    rw [hu, State.fldPf, State.setFldPf, State.regPf_setRegPf, Fld.get_put_above (by decide) (by decide)]
    have width : (2 : Nat) ^ fMemCsel_COMP_ID.width = 4096 := by decide
    have put := State.fldPf_setFldPf s pf rMemCsel comp fMemCsel_COMP_ID (by decide)
    rwa [width, Nat.mod_eq_of_lt small] at put
  have same : ∀ dt c, u.metered c dt = s.metered c dt := fun dt c => by
    rw [hu, metered_setFldPf _ _ _ _ _ _ _ (by decide), metered_setFldPf _ _ _ _ _ _ _ (by decide)]
  have mem : u.mem = s.mem := by simp only [hu, State.setFldPf_reads]
  have now : u.now = s.now := by simp only [hu, State.now, State.setFldPf_reads]
  have out : u.out = s.out := by simp only [hu, State.setFldPf_reads]
  have comps : u.integrate.mem.comps = s.integrate.mem.comps := by
    unfold State.integrate
    simp only [State.modMem_eq, State.putMem_reads, same, mem, now]
  have latched : kvGet? (u.integrate.fldPf pf rMemCsel fMemCsel_COMP_ID) u.integrate.mem.comps = some (s.metered c (s.now - s.mem.lastMeter)) := by
    rw [comps, State.fldPf_integrate, sel]
    exact comps_integrate s comp c found
  refine ⟨u.integrate.modMem (fun m => { m with latch := kvPut pf ((s.metered c (s.now - s.mem.lastMeter)).record s.now) m.latch }), ?_,
    kvGet?_put_self _ _ _, (State.fldPf_integrate u _ _ _).trans sel, comps, fun a => (show u.mem.read a = s.mem.read a by rw [mem]), out⟩
  simp only [exec, execMemCselLatch, ← hu, latched, State.now_integrate, now]

/-- Settles O37: the definition of a composition, its removal and the meters. -/
theorem compositions : Obligations.Compositions := by
  unfold Obligations.Compositions
  refine ⟨?_, ?_, ?_, ?_, ?_, ?_⟩
  · intro s s1 s2 s3 p q cid rid id data d r k old cur ws hp may free hid op small addr read head parse members entries was strands room windows is next
      quotas built
    have sets : SetsComposition s1 s2 id d k old cur := ⟨head, parse, members, entries, was, strands, room, windows, is, next, quotas⟩
    have read' : Calm s s1 := by
      have h := (Calm.refl s).readInput (p := p) (flow := r.flow) (a := r.cmd.param 8 8) (n := r.cmd.param 16 4) (host := data)
      rwa [read] at h
    have calm2 : Calm s s2 := by
      rw [next]
      exact .modMem (.foldl read'.integrate fun _ _ g => g.release)
    have comps2 : kvGet? id s2.mem.comps = some (k.comp cur (old.windows.filter (fun w => k.windows.any w.same))) := by
      rw [next]
      exact kvGet?_put_self _ _ _
    have calm3 : Calm s s3 := buildWindows_induct (P := Calm s) (fun h e => h.startWindow e) _ calm2 built
    have comps3 : s3.mem.comps = s2.mem.comps :=
      buildWindows_induct (P := fun t => t.mem.comps = s2.mem.comps) (fun h e => (comps_startWindow e).trans h) _ rfl built
    exact ⟨_, _, rfl, exec_compositionSet may free hid op small addr read sets built, may.doneAfter calm3.installWindows hp,
      comps_installWindows _ _ _ _ _ (comps3 ▸ comps2)⟩
  · intro s p q cid rid st data r may
    exact ⟨fun op free bad => ⟨_, compositionSet_refused may op free bad, may.failComp⟩,
      fun op free bad => ⟨_, compositionRemove_refused may op free bad, may.failComp⟩,
      fun held => ⟨compositionSet_held may held, compositionRemove_held may held⟩⟩
  · intro s v p q cid rid id r x may free hid op small addr align found room plain tierP hv quotas
    exact compositionRemove_done may free hid op small addr align found room plain tierP hv quotas
  · intro s h
    exact meterIntegrate_early h
  · intro s h
    exact ⟨s.integrate, if_neg (by omega), rfl, fun _ => rfl, rfl, rfl, comps_integrate s⟩
  · intro s pf comp window c small found
    exact memCselLatch_latches small found

end Sys2Proof.Machine
end

section
set_option Elab.async false
/-! SUPPORT. `ATTEST`, here and between nodes (spec/18, R452 to R458). -/

namespace Sys2Proof.Machine

theorem handPacket_handed_of {s u : State} (k : Packet) (queue : u.fab.handoff = s.fab.handoff) (node : u.nodeId = s.nodeId) :
    Handed s (u.handPacket k) k := by
  unfold Handed State.handPacket
  rw [node]
  split
  · exact ⟨queue, List.mem_append_right _ (List.mem_singleton_self k)⟩
  · exact congrArg (· ++ [k]) queue

/-- What a response or a refusal gives to the sender of a request. -/
theorem answer_handed {s u : State} (o : FabOrigin) (vc ptype op part ep : Nat) (args : List Nat) (data : List Byte)
    (queue : u.fab.handoff = s.fab.handoff) (node : u.nodeId = s.nodeId) :
    ∃ y, Handed s (u.answer o vc ptype op part ep args data) y ∧ y.vc = vc ∧ y.ptype = ptype ∧ y.opcode = op ∧ y.dstNode = o.node ∧ y.seq = o.seq ∧
      y.args = args ∧ y.data = data :=
  ⟨_, handPacket_handed_of _ queue node, rfl, rfl, rfl, rfl, rfl, rfl, rfl⟩

theorem attested_state {s v : State} {ps bs : List Byte} {n : Nat} (h : s.attested ps = (bs, n, v)) : ∃ f, v = s.putFree f := by
  obtain ⟨f, hf⟩ := attested_free s ps
  exact ⟨f, (congrArg (fun x => x.2.2) h).symm.trans hf⟩

/-! ### The host's command -/

section
variable {s v : State} {c : Instr} {p q cid rid op n : Nat} {r : Rec} {bs : List Byte}

/-- Each of the two commands attests for the operation it stands for. -/
theorem exec_attest (hc : (op, c) ∈ [(0, Instr.attestReport p q cid), (1, .attestCertChain p q cid)]) (may : MayRun s p q cid 0x03 rid r)
    (ho : atOp r.cmd.params = op) : exec c s = .next (s.attest p rid r) := by
  simp only [List.mem_cons, List.not_mem_nil, or_false, Prod.mk.injEq] at hc
  obtain ⟨rfl, rfl⟩ | ⟨rfl, rfl⟩ := hc
  · simp only [exec, execAttestReport, may.1, ho]
    rfl
  · simp only [exec, execAttestCertChain, may.1, ho]
    rfl

theorem attest_refused {st : Nat} (bad : (s.named r).attestCheck p r.cmd = some st) : s.attest p rid r = s.fail p rid st := by
  simp only [State.attest, bad]

theorem attest_here_full (good : (s.named r).attestCheck p r.cmd = none) (here : atTarget r.cmd.params = 0 ∨ atTarget r.cmd.params = s.nodeId)
    (room : s.attestRoom = false) : s.attest p rid r = s := by
  simp only [State.attest, good, if_pos here, room]
  rfl

theorem attest_here (good : (s.named r).attestCheck p r.cmd = none) (here : atTarget r.cmd.params = 0 ∨ atTarget r.cmd.params = s.nodeId)
    (room : s.attestRoom = true) (said : s.attested r.cmd.params = (bs, n, v)) :
    s.attest p rid r = if atRoom r.cmd.params < bs.length then s.fail p rid scBadCommand else v.complete p rid scDone 0 n bs.length s.sec.total bs := by
  simp only [State.attest, good, if_pos here, room, said]
  rfl

theorem attest_unreachable (good : (s.named r).attestCheck p r.cmd = none) (there : ¬(atTarget r.cmd.params = 0 ∨ atTarget r.cmd.params = s.nodeId))
    (out : s.reachable (atTarget r.cmd.params) = false) : s.attest p rid r = s.fail p rid scUnreachable := by
  simp only [State.attest, good, if_neg there, out]
  rfl

/-- The request that goes to another node (R456). -/
def attestRequest (s : State) (p : Nat) (r : Rec) : Packet :=
  { vc := 1, ptype := 0, opcode := opAttest, dstNode := atTarget r.cmd.params, dstPart := 0, dstEp := 0, srcNode := s.nodeId, srcPart := p,
      srcEp := r.q,
    stream := r.cmd.stream, length := 96, resetGen := s.resetGen p, data := fitBytes 96 r.cmd.params }

theorem attest_there (good : (s.named r).attestCheck p r.cmd = none) (there : ¬(atTarget r.cmd.params = 0 ∨ atTarget r.cmd.params = s.nodeId))
    (out : s.reachable (atTarget r.cmd.params) = true) :
    s.attest p rid r = (s.sendRequest (attestRequest s p r) (some rid) true).modRec rid (fun x => { x with phase := .running }) := by
  simp only [State.attest, good, if_neg there, out]
  rfl

theorem State.recs_sendRequest (s : State) (k : Packet) (rid : Option Nat) (timed : Bool) (space : Nat) :
    (s.sendRequest k rid timed space).recs = s.recs := by
  unfold State.sendRequest State.handPacket
  dsimp only
  split <;> rfl

theorem sendRequest_handed (s : State) (k : Packet) (rid : Option Nat) (timed : Bool) (space : Nat) :
    Handed s (s.sendRequest k rid timed space) { k with seq := s.fab.seqNo, srcNode := s.nodeId, dist := s.distTo k.dstNode } :=
  handPacket_handed_of _ rfl rfl

theorem Handed.modRec {t : State} {k : Packet} {i : Nat} {f : Rec → Rec} (h : Handed s t k) : Handed s (t.modRec i f) k := h

theorem attestCheck_unaligned (h : r.cmd.resultAddr % 8 ≠ 0) : s.attestCheck p r.cmd = some scBadCommand := if_pos (.inr (.inr h))

theorem attestCheck_passed (fields : atFieldsOk r.cmd.params = true) (addr : r.cmd.resultAddr ≠ 0) (align : r.cmd.resultAddr % 8 = 0)
    (room : s.resultOk p r.cmd.resultAddr (atRoom r.cmd.params) = true) : s.attestCheck p r.cmd = none := by
  simp [State.attestCheck, fields, addr, align, room]

end

/-! ### Between nodes -/

section
variable {s v : State} {k : Packet} {bs : List Byte} {n : Nat}

theorem remoteAttest_answered (ho : k.opcode = opAttest) (ht : k.ptype = 0) (fields : atFieldsOk (fitBytes 96 k.data) = true)
    (room : s.attestRoom = true)
    (runs : s.flt.stopped = false) (said : (s.taken k).attested (fitBytes 96 k.data) = (bs, n, v)) :
    ∃ t y, exec (.remoteAttestRequest k) s = .next t ∧ Handed s t y ∧ y.vc = 2 ∧ y.ptype = 1 ∧ y.dstNode = k.srcNode ∧ y.seq = k.seq ∧
      y.args = [scDone, 0, n, bs.length, s.sec.total] ∧ y.data = bs ∧ t.mem = s.mem := by
  obtain ⟨f, rfl⟩ := attested_state said
  have open' : ¬((!atFieldsOk (fitBytes 96 k.data)) = true ∨ (s.taken k).attestRoom = false ∨ (s.taken k).flt.stopped = true) := by
    rintro (h | h | h)
    · simp [fields] at h
    · exact Bool.noConfusion (room.symm.trans h)
    · exact Bool.noConfusion (runs.symm.trans h)
  obtain ⟨y, handed, vc, ptype, -, dst, seq, args, data⟩ := answer_handed (s := s) (u := (s.taken k).putFree f)
    { node := k.srcNode, part := k.srcPart, endpoint := k.srcEp, seq := k.seq, resetGen := k.resetGen } 2 1 opAttest 0 0
    [scDone, 0, n, bs.length, s.sec.total] bs rfl rfl
  refine ⟨_, y, ?_, handed, vc, ptype, dst, seq, args, data, State.mem_handPacket _ _⟩
  simp only [exec, execRemoteAttestRequest, ho, ht, if_neg open', said]
  rfl

theorem remoteAttest_refused (ho : k.opcode = opAttest) (ht : k.ptype = 0)
    (h : atFieldsOk (fitBytes 96 k.data) = false ∨ s.attestRoom = false ∨ s.flt.stopped = true) :
    ∃ t y, exec (.remoteAttestRequest k) s = .next t ∧ Handed s t y ∧ y.ptype = 2 ∧ y.dstNode = k.srcNode ∧ y.seq = k.seq ∧
      y.args = [scRemoteError] ∧ t.mem = s.mem := by
  have shut : (!atFieldsOk (fitBytes 96 k.data)) = true ∨ (s.taken k).attestRoom = false ∨ (s.taken k).flt.stopped = true :=
    h.imp (by simp) id
  obtain ⟨y, handed, -, ptype, -, dst, seq, args, -⟩ := answer_handed (s := s) (u := s.taken k)
    { node := k.srcNode, part := k.srcPart, endpoint := k.srcEp, seq := k.seq, resetGen := k.resetGen } 2 2 opAttest 0 0 [scRemoteError] [] rfl rfl
  refine ⟨_, y, ?_, handed, ptype, dst, seq, args, State.mem_handPacket _ _⟩
  simp only [exec, execRemoteAttestRequest, ho, ht, if_pos shut]
  rfl

end

section
variable {s : State} {k : Packet} {o : OutReq} {rid : Nat} {r : Rec}

/-- The state in which a response has been taken in and has ended its request. -/
def State.ended (s : State) (k : Packet) : State := (s.taken k).endRequest k.seq

theorem exec_remoteAttestResponse (ht : k.ptype = 1) (hg : k.resetGen = s.resetGen k.dstPart) (ho : kvGet? k.seq s.fab.out = some o)
    (kind : o.kind = opAttest) (hr : o.rid = some rid) (found : kvGet? rid s.recs = some r) :
    exec (.remoteAttestResponse k) s = .next (
      if k.args.getD 0 scRemoteError ≠ scDone then (s.ended k).fail r.part rid scRemoteError
      else if atRoom r.cmd.params < k.data.length then (s.ended k).fail r.part rid scBadCommand
      else (s.ended k).complete r.part rid scDone 0 (k.args.getD 2 0) k.data.length (k.args.getD 4 0) k.data) := by
  have fresh : (s.taken k).isLate k = false := bne_eq_false_iff_eq.2 hg
  have out : kvGet? k.seq (s.taken k).fab.out = some o := ho
  have asked : o.rid.bind (fun rid => (kvGet? rid ((s.taken k).endRequest k.seq).recs).map (fun r => (rid, r))) = some (rid, r) := by
    rw [hr]
    exact congrArg (Option.map _) found
  simp only [exec, execRemoteAttestResponse, ht, fresh, out, kind, asked, ne_eq, not_true, if_false, Bool.false_eq_true]
  split
  · rfl
  · split <;> rfl

/-- A completion of the command that a response answers, past the response itself. -/
theorem ended_completes (found : kvGet? rid s.recs = some r) (host : r.fab = none) (live : s.pstate r.part ≠ stResetting) (plain : PlainResult s r)
    (status count r0 r1 : Nat) (res : List Byte) :
    Completes s ((s.ended k).complete r.part rid status 0 count r0 r1 res) r.part r.q r.cmd.cid status (r.finalCount status count) r0 r1 :=
  .after (Keeps.refl s).sent (complete_completes (s.ended k) r.part rid r status 0 count r0 r1 res found host live (.inl plain))

end

/-- Settles O55: `ATTEST` here, at another node, and for another node. -/
theorem attest : Obligations.Attest := by
  unfold Obligations.Attest
  refine ⟨?_, ?_, ?_, ?_⟩
  · intro s v c p q cid rid op n t r ps bs hc may hps ho fields addr align room plain ht
    subst hps ht
    have run := exec_attest hc may ho
    have good : (s.named r).attestCheck p r.cmd = none := attestCheck_passed fields addr align room
    refine ⟨fun here free said => ⟨fun fits => ?_, fun long => ?_⟩, fun here full => ?_, fun some' other out => ?_, fun some' other out => ?_⟩
    · obtain ⟨f, rfl⟩ := attested_state said
      have completes := may.completes (u := s.putFree f) (.refl s) may.2.1 may.2.2 p scDone 0 n bs.length s.sec.total bs (.inl plain)
      rw [finalCount_done] at completes
      refine ⟨?_, completes⟩
      rw [run, attest_here good here free said, if_neg (not_lt.2 fits)]
    · refine ⟨_, ?_, may.failed (.refl s) may.2.1 may.2.2 (.inl (by decide))⟩
      rw [run, attest_here good here free said, if_pos long]
    · rw [run, attest_here_full good here full]
    · refine ⟨_, _, run.trans (congrArg _ (attest_there good (not_or.2 ⟨some', other⟩) out)), ?_, (sendRequest_handed _ _ _ _ _).modRec, rfl, rfl,
        rfl, rfl, rfl⟩
      rw [Begun]
      exact kvGet?_modRec ((congrArg (kvGet? rid) (State.recs_sendRequest _ _ _ _ _)).trans may.2.1) _
    · refine ⟨_, ?_, may.failed (.refl s) may.2.1 may.2.2 (.inl (by decide))⟩
      rw [run, attest_unreachable good (not_or.2 ⟨some', other⟩) out]
  · intro s c p q cid rid op r hc may ho
    refine ⟨attestCheck_unaligned, fun st bad => ⟨_, ?_, may.failed (.refl s) may.2.1 may.2.2 (.inl (by decide))⟩⟩
    rw [exec_attest hc may ho, attest_refused bad]
  · intro s v k bs n ho ht
    exact ⟨fun fields room runs said => remoteAttest_answered ho ht fields room runs said, fun h => remoteAttest_refused ho ht h⟩
  · intro s k o rid r ht hg ho kind hr found host live plain
    have run := exec_remoteAttestResponse ht hg ho kind hr found
    refine ⟨fun ok fits => ?_, fun bad => ?_⟩
    · rw [if_neg (not_not.2 ok), if_neg (not_lt.2 fits)] at run
      have completes := ended_completes (k := k) found host live plain scDone (k.args.getD 2 0) k.data.length (k.args.getD 4 0) k.data
      rw [finalCount_done] at completes
      exact ⟨_, run, completes⟩
    · rw [if_pos bad] at run
      have completes := ended_completes (k := k) found host live plain scRemoteError 0 0 0 []
      rw [finalCount_zero] at completes
      exact ⟨_, run, completes⟩

end Sys2Proof.Machine
end

section
set_option Elab.async false
/-! SUPPORT. `BRIDLE_LOAD` (spec/02, R71 to R79): refusal, measurement and the application of a partial image. -/

namespace Sys2Proof.Machine

section
variable {s : State} {p q cid rid : Nat} {image : List Byte} {r : Rec} {l : LongOp}

theorem bridleLoad_foreign (may : MayRun s p q cid 0x04 rid r) (long : r.long = some l) (runs : l.running = true) (h0 : p ≠ 0) (h32 : p ≠ 32) :
    exec (.bridleLoad p q cid image) s = .next (s.rejectLoad p rid [] { reason := 0x02 }) := by
  simp only [exec, execBridleLoad, may.1, long, Option.map_some, runs, ne_eq, not_true, if_false, if_pos (And.intro h0 h32)]

theorem bridleLoad_refused {st : Nat} (may : MayRun s p q cid 0x04 rid r) (long : r.long = some l) (runs : l.running = true) (own : p = 0 ∨ p = 32)
    (bad : (s.named r).loadCheck p r.cmd = some st) : exec (.bridleLoad p q cid image) s = .next (s.fail p rid st) := by
  have mine : ¬(p ≠ 0 ∧ p ≠ 32) := by omega
  simp only [exec, execBridleLoad, may.1, long, Option.map_some, runs, ne_eq, not_true, if_false, if_neg mine, bad]

theorem loadCheck_passed (addr : r.cmd.resultAddr = 0) (align : r.cmd.param 0 8 % 8 = 0)
    (ok : s.imageAddrOk p (r.cmd.param 0 8) (r.cmd.param 8 4) = true) : s.loadCheck p r.cmd = none := by
  simp [State.loadCheck, addr, align, ok]

theorem bridleLoad_busy (may : MayRun s p q cid 0x04 rid r) (long : r.long = some l) (runs : l.running = true) (own : p = 0 ∨ p = 32)
    (good : (s.named r).loadCheck p r.cmd = none) (busy : s.load.isSome = true) :
    exec (.bridleLoad p q cid image) s = .next (s.rejectLoad p rid [] { reason := 0x01 }) := by
  have mine : ¬(p ≠ 0 ∧ p ≠ 32) := by omega
  simp only [exec, execBridleLoad, may.1, long, Option.map_some, runs, ne_eq, not_true, if_false, if_neg mine, good, busy, if_true]

theorem bridleLoad_measured {bs : List Byte} {v : State} (may : MayRun s p q cid 0x04 rid r) (long : r.long = some l) (runs : l.running = true)
    (own : p = 0 ∨ p = 32) (good : (s.named r).loadCheck p r.cmd = none) (idle : s.load = none)
    (read : s.readInput p r.flow (r.cmd.param 0 8) (min (r.cmd.param 8 4) 16777224) image = (bs, v))
        (head : v.headCheck bs (r.cmd.param 8 4) = none) :
    exec (.bridleLoad p q cid image) s = .next (v.measureLoad p rid bs) := by
  have mine : ¬(p ≠ 0 ∧ p ≠ 32) := by omega
  simp only [exec, execBridleLoad, may.1, long, Option.map_some, runs, ne_eq, not_true, if_false, if_neg mine, good, idle, Option.isSome_none,
    Bool.false_eq_true, read, head]

end

/-- An image may be read from host memory, Tier A and Tier B, which reading leaves as they are but for its accounting. -/
theorem imageInput_aside {s u : State} {p a m n : Nat} {flow : Nat × Bool} {host : List Byte} (ok : u.imageAddrOk p a m = true) :
    Aside s (s.readInput p flow a n host).2 := by
  unfold State.imageAddrOk at ok
  unfold State.readInput
  dsimp only
  split
  next high =>
    rw [if_neg fun (e : tierOf (a % 2 ^ 52) = some 3) => by rw [high, e] at ok; exact absurd ok (by simp)]
    exact (Aside.refl s).access
  next => exact (Aside.refl s).chargeHostRead

/-- The measurement of an image: its slot is extended and an entry is listed where there is room; the logbook takes none. -/
theorem measure_image (s : State) (p n : Nat) (d : List Byte) : ∃ m, s.measure 16 9 2 p n d =
    (s.putDigest (rSecSlot 16) (extendSlot (s.slotBytes 16) d)).putSec { s.sec with total := s.sec.total + 1, mlog := m } := by
  refine ⟨_, if_pos (.inr rfl)⟩

/-- A full image that has been measured is under way, at the share of its bytes that the header takes. -/
theorem measureLoad_full {s : State} {p rid : Nat} {bs : List Byte} {r : Rec} {l : LongOp} (full : imgKind bs = 0)
    (found : kvGet? rid s.recs = some r)
    (long : r.long = some l) : ∃ x, kvGet? rid (s.measureLoad p rid bs).recs =
        some { r with phase := .running, long := some { l with progress := walkProgress bs (bs.length - imgFirst bs) } } ∧
      (s.measureLoad p rid bs).load = some x ∧ x.rid = rid ∧ x.image = bs ∧ x.applying = false ∧
      (s.measureLoad p rid bs).fld rNodeBridleStatus fNodeBridleStatus_LOADING = 1 ∧ (s.measureLoad p rid bs).sec.total = s.sec.total + 1 := by
  obtain ⟨u, hu⟩ : ∃ u, u = s.measure 16 9 2 p (imgSerial bs) (sha256 bs) := ⟨_, rfl⟩
  obtain ⟨m, hm⟩ := measure_image s p (imgSerial bs) (sha256 bs)
  have recs : u.recs = s.recs := by rw [hu, hm]; rfl
  have total : u.sec.total = s.sec.total + 1 := by rw [hu, hm]; rfl
  have run : s.measureLoad p rid bs = (((u.putLoad (some { rid := rid, image := bs, entry := s.sec.total, applying :=
      false })).setFld rNodeBridleStatus
      fNodeBridleStatus_LOADING 1).modRec rid (fun r => { r with phase := .running })).setProgress rid (walkProgress bs (bs.length - imgFirst bs))
          := by
    rw [hu]
    exact if_pos full
  have begun := kvGet?_modRec (s := (u.putLoad (some { rid := rid, image := bs, entry := s.sec.total, applying := false })).setFld rNodeBridleStatus
    fNodeBridleStatus_LOADING 1) (recs ▸ found) (fun r => { r with phase := .running })
  have going := kvGet?_modRec begun
    (fun y => { y with long := y.long.map (fun l => { l with progress := walkProgress bs (bs.length - imgFirst bs) }) })
  rw [long] at going
  have loading : ((((u.putLoad (some { rid := rid, image := bs, entry := s.sec.total, applying := false })).setFld rNodeBridleStatus
      fNodeBridleStatus_LOADING 1).modRec rid (fun r => { r with phase := .running })).setProgress rid
          (walkProgress bs (bs.length - imgFirst bs))).fld
      rNodeBridleStatus fNodeBridleStatus_LOADING = 1 :=
    State.fld_setFld (u.putLoad (some { rid := rid, image := bs, entry := s.sec.total, applying := false }))
        rNodeBridleStatus fNodeBridleStatus_LOADING 1
      (by decide)
  rw [run]
  exact ⟨{ rid := rid, image := bs, entry := s.sec.total, applying := false }, going, rfl, rfl, rfl, rfl, loading, total⟩

/-! ### The application of a partial image -/

/-- The settling of a partition that a load has held leaves no partition resetting that was not. -/
theorem settled_ne_resetting (s : State) (p : Nat) : s.settled p % 8 ≠ stResetting := by
  have rest : s.restState p = stUnconfigured ∨ s.restState p = stReady ∨ s.restState p = stHeld := by
    unfold State.restState
    split_ifs
    · exact .inl rfl
    · exact .inr (.inl rfl)
    · exact .inr (.inr rfl)
  unfold State.settled
  dsimp only
  split
  · decide
  · obtain e | e | e := rest <;> rw [e] <;> decide

theorem rPrtStatus_inj {p x : Nat} (h : p ≠ x) : rPrtStatus p ≠ rPrtStatus x := by unfold rPrtStatus; omega

theorem pstate_setPstate_ne (s : State) {p x : Nat} (st : Nat) (h : p ≠ x) : (s.setPstate x st).pstate p = s.pstate p :=
  State.fld_setFld_ne s (rPrtStatus_inj h) _ _ _

/-- Dropping a load leaves requests and the traffic to the host, and no partition resetting that was not. -/
structure DropsLoad (s t : State) : Prop where
  recs : t.recs = s.recs
  sent : Extends s t
  live : ∀ p, s.pstate p ≠ stResetting → t.pstate p ≠ stResetting

theorem DropsLoad.settle {s t : State} (h : DropsLoad s t) (x : Nat) :
    DropsLoad s (if t.pstate x = stLoading then t.setPstate x (t.settled x) else t) := by
  split
  · refine ⟨h.recs, h.sent, fun p hp => ?_⟩
    by_cases e : p = x
    · rw [e, State.pstate_setPstate]
      exact settled_ne_resetting t x
    · rw [pstate_setPstate_ne t _ e]
      exact h.live p hp
  · exact h

theorem dropLoad_dropsLoad (s : State) : DropsLoad s s.dropLoad := by
  have other : ∀ p, rPrtStatus p ≠ rNodeBridleStatus := fun p => by unfold rPrtStatus rNodeBridleStatus; omega
  have start : DropsLoad s ((s.putLoad none).setFld rNodeBridleStatus fNodeBridleStatus_LOADING 0) :=
    ⟨rfl, .refl s, fun p hp => (State.fld_setFld_ne (s.putLoad none) (other p) _ _ _).trans_ne hp⟩
  have all : ∀ (l : KV Part) (t : State), DropsLoad s t →
      DropsLoad s (l.foldl (fun (t : State) x => if t.pstate x.1 = stLoading then t.setPstate x.1 (t.settled x.1) else t) t) := by
    intro l
    induction l with
    | nil => exact fun t h => h
    | cons x l ih => exact fun t h => ih _ (h.settle x.1)
  exact all _ _ start

theorem finishLoad_completes {u : State} {p rid : Nat} {bs : List Byte} {x : Rec} (found : kvGet? rid u.recs = some x) (host : x.fab = none)
    (part : x.part = p)
    (live : u.pstate p ≠ stResetting) :
    Completes u (u.finishLoad p rid bs) p x.q x.cmd.cid scDone 1 (imgSerial bs) ((u.dropLoad).reg rNodeBridleStatus).toNat := by
  subst part
  have drops := dropLoad_dropsLoad u
  have completes := complete_completes u.dropLoad x.part rid x scDone 0 1 (imgSerial bs) ((u.dropLoad).reg rNodeBridleStatus).toNat []
      (drops.recs ▸ found) host
    (drops.live _ live) (.inr ⟨rfl, .inr ⟨by decide, by decide⟩⟩)
  rw [finalCount_done] at completes
  exact .after drops.sent completes

section
variable {s : State} {p q cid rid skipped : Nat} {image : List Byte} {r : Rec} {l : Load} {rs : List BRec} {areas : List (Nat × Nat × Nat)}

theorem bridleLoad_bad_walked {e : ImgErr} {y : List BRec × Nat} (way : s.runningRec p q cid 0x04 = some (rid, r))
    (ready : s.readyRec p q cid 0x04 = none)
    (load : s.load = some l) (own : l.rid = rid) (walks : l.applying = false) (bad : s.checkImage l.image = .error e) (stop : walk l.image = .ok y) :
    exec (.bridleLoad p q cid image) s = .next ((s.setProgress rid 900000).rejectLoad p rid l.image e) := by
  simp only [exec, execBridleLoad, ready, way, load, own, walks, bad, stop, ne_eq, not_true, if_false, Bool.false_eq_true]

theorem bridleLoad_bad_cut {e : ImgErr} {y : ImgErr} (way : s.runningRec p q cid 0x04 = some (rid, r)) (ready : s.readyRec p q cid 0x04 = none)
    (load : s.load = some l) (own : l.rid = rid) (walks : l.applying = false) (bad : s.checkImage l.image = .error e)
        (stop : walk l.image = .error y) :
    exec (.bridleLoad p q cid image) s = .next ((s.setProgress rid (walkProgress l.image y.left)).rejectLoad p rid l.image e) := by
  simp only [exec, execBridleLoad, ready, way, load, own, walks, bad, stop, ne_eq, not_true, if_false, Bool.false_eq_true]

theorem bridleLoad_partial (way : s.runningRec p q cid 0x04 = some (rid, r)) (ready : s.readyRec p q cid 0x04 = none) (load : s.load = some l)
    (own : l.rid = rid) (walks : l.applying = false) (good : s.checkImage l.image = .ok (rs, skipped, areas)) (part : imgKind l.image ≠ 0) :
    exec (.bridleLoad p q cid image) s =
      .next ((((((s.setProgress rid 950000).applyImage rid l.image rs skipped areas).finishLoad p rid l.image)).releaseHeld).resume) := by
  simp only [exec, execBridleLoad, ready, way, load, own, walks, good, ne_eq, not_true, if_false, Bool.false_eq_true, part, not_false_eq_true,
      if_true]

end

/-- Settles O58: refusal, measurement and the application of a partial image. -/
theorem bridleLoad : Obligations.BridleLoad := by
  unfold Obligations.BridleLoad
  refine ⟨?_, ?_, ?_⟩
  · intro s p q cid rid a n image r l may long runs ha hn own
    subst ha hn
    refine ⟨fun bad => ⟨_, bridleLoad_refused may long runs own (if_pos bad), may.failed (.refl s) may.2.1 may.2.2 (.inl (by decide))⟩,
      fun addr align bad => ⟨_, bridleLoad_refused may long runs own ?_, may.failed (.refl s) may.2.1 may.2.2 (.inl (by decide))⟩,
      fun addr align ok idle bs v read head full => ?_, fun addr align ok busy => bridleLoad_busy may long runs own
          (loadCheck_passed addr align ok) busy⟩
    · simp [State.loadCheck, addr, align, bad]
    · have aside : Aside s v := by
        have h := imageInput_aside (s := s) (p := p) (flow := r.flow) (host := image) (n := min (r.cmd.param 8 4) 16777224) ok
        rwa [read] at h
      obtain ⟨x, hx⟩ := measureLoad_full (p := p) full (aside.recs ▸ may.2.1) long
      rw [aside.sec] at hx
      exact ⟨_, x, bridleLoad_measured may long runs own (loadCheck_passed addr align ok) idle read head, hx⟩
  · intro s p q cid rid image r l may long runs h0 h32
    exact bridleLoad_foreign may long runs h0 h32
  · intro s p q cid rid skipped image r l rs areas way ready load own walks
    refine ⟨fun e y bad stop => ?_, fun e y bad stop => ?_, fun good part u v hu hv => ?_⟩
    · exact bridleLoad_bad_cut way.1 ready load own walks bad stop
    · exact bridleLoad_bad_walked way.1 ready load own walks bad stop
    · subst hu hv
      exact ⟨bridleLoad_partial way.1 ready load own walks good part, fun x found host part live => finishLoad_completes found host part live⟩

end Sys2Proof.Machine
end

section
set_option Elab.async false
/-! SUPPORT. What a count or an event leaves of the fault block and above: registers that no report writes (`Unreported`), and counters. -/

namespace Sys2Proof.Machine

/-- A register that no corrected event writes: none of the event rings, of the saturation registers of the fault and drogue blocks, and of the
drogue. -/
structure Unbumped (x : Nat) : Prop where
  ring : ∀ pf, x ≠ pfKey pf rFltEvtStatus
  sat : ∀ b, b = 21 ∨ b = 22 → x ≠ rFltSat b
  drogue : x < 0x2a00000 ∨ 0x2a00018 < x

/-- A register that no count and no event writes: it is no saturation register and none of the logbook's either. -/
structure Unreported (x : Nat) : Prop extends Unbumped x where
  sats : ∀ b, b < 27 → x ≠ rFltSat b
  log : x < 0x3c00000 ∨ 0x3c00180 < x

theorem unreported_low {x : Nat} (h : x < 0x2800028) : Unreported x :=
  ⟨⟨fun pf => by unfold pfKey rFltEvtStatus; omega, fun b _ => by unfold rFltSat; omega, by omega⟩, fun b _ => by unfold rFltSat; omega, by omega⟩

theorem State.reg_setReg_of_ne (s : State) {x o : Nat} (w : Word) (ne : x ≠ o) : (s.setReg o w).reg x = s.reg x := by rw [State.reg_setReg, if_neg ne]

theorem State.reg_logAppend_unreported {x : Nat} (h : Unreported x) (s : State) (kind : Nat) (bs : List Byte) :
    (s.logAppend kind bs).reg x = s.reg x := by
  have status : ∀ (t : State) (f : Fld) (v : Nat), (t.setFld rLogStatus f v).reg x = t.reg x := fun t f v =>
    State.reg_setReg_of_ne t _ (by have := h.log; unfold rLogStatus; omega)
  have dropped : x ≠ rLogDropped := by have := h.log; unfold rLogDropped; omega
  have next : x ≠ rLogNextSeq := by have := h.log; unfold rLogNextSeq; omega
  have room : ∀ (t : State) (c : Prop) [Decidable c], (if c then t.setFld rLogStatus fLogStatus_RESERVE 1 else t).reg x = t.reg x := fun t c _ => by
    split
    · exact status _ _ _
    · rfl
  unfold State.logAppend
  dsimp only
  split
  · rw [State.reg_setReg_of_ne _ _ dropped]
    split
    · exact room _ _
    · rw [status]
      exact room _ _
  · rw [status, status, room, State.reg_setReg_of_ne _ _ next]
    exact room _ _

theorem State.reg_markSat_ne (s : State) {x o : Nat} (ne : ∀ b, blockIndex o = some b → x ≠ rFltSat b) : (s.markSat o).reg x = s.reg x := by
  unfold State.markSat
  split
  · rfl
  next b e => exact State.reg_setReg_of_ne s _ (ne b e)

section
variable {x : Nat} (h : Unbumped x)
include h

/-- The counters of the fault block and of the drogue's are in blocks 21 and 22. -/
theorem State.reg_markSat_unbumped (s : State) (o : Nat) (block : blockIndex o = some 21 ∨ blockIndex o = some 22) :
    (s.markSat o).reg x = s.reg x := by
  refine s.reg_markSat_ne fun b e => h.sat b ?_
  rw [e] at block
  simpa using block

theorem State.reg_latch_unbumped (s : State) (a b : Nat) : (s.latch a b).reg x = s.reg x := by
  have low : ∀ o, 0x2a00000 ≤ o → o ≤ 0x2a00018 → x ≠ o := fun o _ _ => by have := h.drogue; omega
  unfold State.latch State.setFld
  rw [State.reg_setReg_of_ne _ _ (low _ (by decide) (by decide)), State.reg_setReg_of_ne _ _ (low _ (by decide) (by decide)),
    State.reg_setReg_of_ne _ _ (low _ (by decide) (by decide))]
  rfl

theorem State.reg_drogue_unbumped (s : State) (a b : Nat) : (s.drogue a b).1.reg x = s.reg x := by
  unfold State.drogue
  split_ifs
  · rfl
  · exact State.reg_latch_unbumped h s a b
  · exact State.reg_setReg_of_ne s _ (by have := h.drogue; unfold rSnpInfo; omega)
  · dsimp only
    split
    · rw [State.reg_markSat_unbumped h _ _ (.inr (by decide)), State.reg_rawBump]
    · rw [State.reg_rawBump]

theorem State.reg_addLost_unbumped (s : State) (pf n : Nat) : (s.addLost pf n).reg x = s.reg x := by
  unfold State.addLost
  split
  · rfl
  · unfold State.setFldPf State.setRegPf State.reg
    simp only [State.putRegs_reads]
    split
    · rw [kvGet?_del_ne (h.ring pf)]
    · rw [kvGet?_put_ne (h.ring pf)]

theorem State.reg_evPlace_unbumped (s : State) {a : Nat} (lg : a ≠ 0 → Unreported x) (b c d e f g : Nat) :
    (s.evPlace a b c d e f g).reg x = s.reg x := by
  have tallied : (if a = 0 then s.tallyHour b c e else s).reg x = s.reg x := by split <;> rfl
  have irq : ∀ (t : State) (pf : Nat), (t.eventIrq pf a).reg x = t.reg x := fun t pf => by
    unfold State.eventIrq
    split
    · exact t.reg_sendMsix _ _ x
    · rfl
  have logged : ∀ (t : State) (bs : List Byte), (if a = 0 then t else t.logAppend lkEvent bs).reg x = t.reg x := fun t bs => by
    split
    · rfl
    next ne => exact State.reg_logAppend_unreported (lg ne) t _ _
  unfold State.evPlace
  generalize (if a = 0 then s.tallyHour b c e else s) = s0 at tallied
  dsimp only
  split
  · exact tallied
  · rw [irq, irq, logged, State.reg_addLost_unbumped h, State.reg_addLost_unbumped h]
    exact (State.reg_drogue_unbumped h s0 _ _).trans tallied

theorem State.reg_event_unbumped (s : State) {a : Nat} (lg : a ≠ 0 → Unreported x) (b c d e f g : Nat) : (s.event a b c d e f g).reg x = s.reg x := by
  have counted : (s.evCount a).1.reg x = s.reg x := by
    unfold State.evCount
    split_ifs
    · exact State.reg_rawBump _ _ _ _
    · exact State.reg_rawBump _ _ _ _
    · rfl
  have block : ∀ c : Prop, [Decidable c] → blockIndex (if c then cFltCorrected else cFltContained) = some 21 := fun c _ => by
    split <;> decide
  unfold State.event
  dsimp only
  generalize hc : (if a = 0 then cFltCorrected else cFltContained) = off
  have sat := fun t : State => State.reg_markSat_unbumped h t off (.inl (hc ▸ block _))
  split_ifs
  all_goals simp only [State.reg_evPlace_unbumped h _ lg, State.reg_evPlace_unbumped h _ (a := 0) (fun ne => absurd rfl ne), State.reg_rawBump,
      sat, counted]

theorem State.reg_bump_unbumped (s : State) {o : Nat} (n : Nat) (ne : ∀ b, blockIndex o = some b → x ≠ rFltSat b) : (s.bump o n).reg x = s.reg x := by
  unfold State.bump
  dsimp only
  split
  · split
    · rw [State.reg_event_unbumped h _ (fun ne => absurd rfl ne), State.reg_markSat_ne _ ne, State.reg_rawBump]
    · rw [State.reg_markSat_ne _ ne, State.reg_rawBump]
  · rw [State.reg_rawBump]

theorem State.fld_bump_unbumped (s : State) {o : Nat} (n : Nat) (ne : ∀ b, blockIndex o = some b → x ≠ rFltSat b) (y : Fld) :
    (s.bump o n).fld x y = s.fld x y :=
  congrArg y.get (State.reg_bump_unbumped h s n ne)

end

section
variable {x : Nat} (h : Unreported x)
include h

theorem State.fld_event_unreported (s : State) (a b c d e f g : Nat) (y : Fld) : (s.event a b c d e f g).fld x y = s.fld x y :=
  congrArg y.get (State.reg_event_unbumped h.toUnbumped s (fun _ => h) b c d e f g)

theorem State.fld_bump_unreported (s : State) (o n : Nat) (y : Fld) : (s.bump o n).fld x y = s.fld x y :=
  State.fld_bump_unbumped h.toUnbumped s n (fun b e => h.sats b (blockIndex_lt _ _ e)) y

end

/-! ### Counters past a contained or fenced event -/

/-- An event that is no corrected one counts for nothing but itself and the misses of the drogue. -/
theorem State.ctr_evPlace_ne (s : State) {a x : Nat} (b c d e f g : Nat) (miss : x ≠ cSnpMissed) : (s.evPlace a b c d e f g).ctr x = s.ctr x := by
  have tallied : (if a = 0 then s.tallyHour b c e else s).ctr x = s.ctr x := by split <;> simp
  have missed : ∀ (t : State) (i j : Nat), (t.drogue i j).1.ctr x = t.ctr x := fun t i j => by
    unfold State.drogue
    dsimp only
    split_ifs
    · rfl
    · exact t.ctr_latch _ _ _
    · simp
    · rw [State.ctr_markSat, State.ctr_rawBump_ne _ _ miss]
    · exact State.ctr_rawBump_ne _ _ miss
  unfold State.evPlace
  generalize (if a = 0 then s.tallyHour b c e else s) = s0 at tallied
  dsimp only
  split
  · simpa using tallied
  · split <;> simp [missed, tallied]

theorem State.ctr_event_fence (s : State) {x : Nat} (b c d e f g : Nat) (miss : x ≠ cSnpMissed) : (s.event 2 b c d e f g).ctr x = s.ctr x := by
  have uncounted : s.evCount 2 = (s, false) := by rw [State.evCount, if_neg (by decide), if_neg (by decide)]
  unfold State.event
  rw [uncounted]
  simp only [Bool.false_eq_true, if_false]
  exact State.ctr_evPlace_ne s b c d e f g miss

end Sys2Proof.Machine
end

section
set_option Elab.async false
/-! SUPPORT. The units and FLT_UNIT_CTL (spec/16): what an operation on one unit does to it, and that fencing work leaves the units to their fences. -/

namespace Sys2Proof.Machine

/-! ### One unit -/

theorem State.funit_modUnit_self (s : State) (k n : Nat) (f : FUnit → FUnit) : (s.modUnit k n f).funit k n = f (s.funit k n) := by
  rw [State.funit, State.modUnit, kvGetD, State.modFlt_eq]
  simp only [State.putFlt_reads, kvGet?_put_self, Option.getD_some]

theorem State.funit_modUnit_ne (s : State) {k n k' n' : Nat} (f : FUnit → FUnit) (h : unitKey k' n' ≠ unitKey k n) :
    (s.modUnit k n f).funit k' n' = s.funit k' n' := by
  rw [State.funit, State.modUnit, kvGetD, State.modFlt_eq]
  simp only [State.putFlt_reads, kvGet?_put_ne h]
  rfl

/-- What leaves the units alone leaves each unit as it is. -/
theorem Keeps.funit {s t : State} (h : Keeps true s t) (k n : Nat) : t.funit k n = s.funit k n :=
  congrArg (fun x : KV FUnit × Bool × KV Coll × List (Nat × List Byte) × Board => kvGetD ({} : FUnit) (unitKey k n) x.1) (h.still rfl)

/-! ### A fence -/

theorem fenceOne_funit (s : State) (src k n : Nat) :
    (s.fenceOne src k n).funit k n = { s.funit k n with fenced := true, fences := (s.funit k n).fences + 1 } := by
  have kept : Keeps true (s.modUnit k n (fun u => { u with fenced := true })) ((s.modUnit k n (fun u => { u with fenced := true })).isolate k n) :=
    (Keeps.same _).isolate
  have reported : ∀ (t : State) (p : Nat), (t.reportFence src k n p 0).funit k n = { t.funit k n with fences := (t.funit k n).fences + 1 } :=
      fun t p =>
    (((Keeps.same (t.modUnit k n fun u => { u with fences := u.fences + 1 })).bump.event).funit k n).trans (t.funit_modUnit_self k n _)
  unfold State.fenceOne
  dsimp only
  rw [reported, kept.funit, State.funit_modUnit_self]

theorem fenceOne_funit_ne (s : State) {src k n k' n' : Nat} (h : unitKey k' n' ≠ unitKey k n) : (s.fenceOne src k n).funit k' n' = s.funit k' n' := by
  have kept : Keeps true (s.modUnit k n (fun u => { u with fenced := true })) ((s.modUnit k n (fun u => { u with fenced := true })).isolate k n) :=
    (Keeps.same _).isolate
  have reported : ∀ (t : State) (p : Nat), (t.reportFence src k n p 0).funit k' n' = t.funit k' n' := fun t p =>
    (((Keeps.same (t.modUnit k n fun u => { u with fences := u.fences + 1 })).bump.event).funit k' n').trans (t.funit_modUnit_ne _ h)
  unfold State.fenceOne
  dsimp only
  rw [reported, kept.funit, State.funit_modUnit_ne _ _ h]

theorem unitOk_lt {k n : Nat} (hk : k ≤ 7) (h : unitOk k n = true) : n < 4096 := by
  unfold unitOk unitCount at h
  have small : [128, 16, 8, 8, 8, 4, 4096, 256, 16, 256, 1024, 2, 1, 1].getD k 0 ≤ 4096 := by
    have all : ∀ i, i < 8 → [128, 16, 8, 8, 8, 4, 4096, 256, 16, 256, 1024, 2, 1, 1].getD i 0 ≤ 4096 := by decide
    exact all k (by omega)
  exact (of_decide_eq_true h).trans_le small

/-- A unit of kinds 0 to 7 that is fenced: fenced, and the fence counted once; the fence of a cluster with its last core counts for the cluster. -/
theorem fenceUnit_funit (s : State) {src k n : Nat} (hk : k ≤ 7) (ok : unitOk k n = true) (free : s.isFenced k n = false) :
    (s.fenceUnit src k n).funit k n = { s.funit k n with fenced := true, fences := (s.funit k n).fences + 1 } := by
  have small := unitOk_lt hk ok
  have other : k = 0 → unitKey k n ≠ unitKey 4 (n / 16) := fun e => by
    unfold unitKey
    omega
  unfold State.fenceUnit
  rw [if_neg (by simp [ok, free]), if_pos hk]
  dsimp only
  split
  next h => rw [fenceOne_funit_ne _ (other h.1), fenceOne_funit]
  next => rw [fenceOne_funit]

/-! ### FLT_UNIT_CTL -/

section
variable (s : State) (k n : Nat)

theorem State.funit_setReg (o : Nat) (w : Word) : (s.setReg o w).funit k n = s.funit k n := (Keeps.same s).setReg.funit k n

theorem State.funit_bump (o i : Nat) : (s.bump o i).funit k n = s.funit k n := (Keeps.same s).bump.funit k n

theorem State.funit_event (a b c d e f g : Nat) : (s.event a b c d e f g).funit k n = s.funit k n := (Keeps.same s).event.funit k n

theorem State.fld_modUnit (f : FUnit → FUnit) (x : Nat) (y : Fld) : (s.modUnit k n f).fld x y = s.fld x y := by
  simp only [State.fld, State.reg, State.modUnit, State.modFlt_eq, State.putFlt_reads]

end

theorem putUnitCtl_funit (s : State) (op k n : Nat) (busy : Bool) (k' n' : Nat) : (s.putUnitCtl op k n busy).funit k' n' = s.funit k' n' :=
  (Keeps.same s).setReg.funit k' n'

theorem selectOnly_stopped {s : State} {op k n : Nat} (h : s.flt.stopped = true) : s.selectOnly op k n = s := if_pos h

section
variable (s : State) {op k n : Nat} (busy : Bool)

/-- What a field of FLT_UNIT_CTL reads after the register was put. -/
theorem putUnitCtl_fld (f : Fld) : (s.putUnitCtl op k n busy).fld rFltUnitCtl f = f.get (fFltUnitCtl_UNIT.put n (fFltUnitCtl_KIND.put k
    (fFltUnitCtl_GO.put busy.toNat (fFltUnitCtl_OP.put op 0)))) := by
  rw [State.fld, State.putUnitCtl, State.reg_setReg_self]
  simp only [packFields, List.foldl_cons, List.foldl_nil]

theorem putUnitCtl_op (h : op < 8) : (s.putUnitCtl op k n busy).fld rFltUnitCtl fFltUnitCtl_OP = op := by
  rw [putUnitCtl_fld, Fld.get_put_below (by decide) (by decide), Fld.get_put_below (by decide) (by decide), Fld.get_put_below (by decide) (by decide),
    Fld.get_put _ _ _ (by decide), show 2 ^ fFltUnitCtl_OP.width = 8 by decide, Nat.mod_eq_of_lt h]

theorem putUnitCtl_kind (h : k < 16) : (s.putUnitCtl op k n busy).fld rFltUnitCtl fFltUnitCtl_KIND = k := by
  rw [putUnitCtl_fld, Fld.get_put_below (by decide) (by decide), Fld.get_put _ _ _ (by decide), show 2 ^ fFltUnitCtl_KIND.width = 16 by decide,
    Nat.mod_eq_of_lt h]

theorem putUnitCtl_unit (h : n < 4096) : (s.putUnitCtl op k n busy).fld rFltUnitCtl fFltUnitCtl_UNIT = n := by
  rw [putUnitCtl_fld, Fld.get_put _ _ _ (by decide), show 2 ^ fFltUnitCtl_UNIT.width = 4096 by decide, Nat.mod_eq_of_lt h]

theorem putUnitCtl_go : (s.putUnitCtl op k n busy).fld rFltUnitCtl fFltUnitCtl_GO = busy.toNat := by
  rw [putUnitCtl_fld, Fld.get_put_below (by decide) (by decide), Fld.get_put_below (by decide) (by decide), Fld.get_put _ _ _ (by decide),
    show 2 ^ fFltUnitCtl_GO.width = 2 by decide, Nat.mod_eq_of_lt (Bool.toNat_lt busy)]

end

section
variable {s : State} {op k n : Nat}

theorem unitCtlFree_stopped (h : s.flt.stopped = true) : s.unitCtlFree = false := by simp [State.unitCtlFree, h]

theorem unitCtlFree_busy (h : s.fld rFltUnitCtl fFltUnitCtl_GO ≠ 0) : s.unitCtlFree = false := by simp [State.unitCtlFree, h]

theorem selectOnly_running (h : s.flt.stopped = false) : s.selectOnly op k n = s.putUnitCtl op (k % 16) (n % 4096) true := by
  rw [State.selectOnly, h]
  rfl

/-- The instruction that each operation of FLT_UNIT_CTL stands for writes its fields, where the unit is not free. -/
theorem exec_unitCtl_busy {c : Instr} (hc : (op, c) ∈ [(1, Instr.unitDeclare k n), (3, .unitInject k n), (2, .unitRestore k n)])
    (busy : s.unitCtlFree = false) : exec c s = .next (s.selectOnly op k n) := by
  simp only [List.mem_cons, List.not_mem_nil, or_false, Prod.mk.injEq] at hc
  obtain ⟨rfl, rfl⟩ | ⟨rfl, rfl⟩ | ⟨rfl, rfl⟩ := hc
  · simp [exec, execUnitDeclare, busy]
  · simp [exec, execUnitInject, busy]
  · simp [exec, execUnitRestore, busy]

theorem putUnitCtl_injectEn (busy : Bool) : (s.putUnitCtl op k n busy).fld rFltCfg fFltCfg_INJECT_EN = s.fld rFltCfg fFltCfg_INJECT_EN :=
  State.fld_setReg_ne s (by decide) _ _

/-- What a declaration or an injection that is taken does (R412). -/
theorem exec_unitFence {c : Instr} {src : Nat} (hc : (src, c) ∈ [(5, Instr.unitDeclare k n), (6, .unitInject k n)]) (free : s.unitCtlFree = true)
    (hk : k ≤ 7) (ok : unitOk k n = true) (may : src = 5 ∨ s.fld rFltCfg fFltCfg_INJECT_EN = 1) :
    ∃ op, exec c s = .next (((s.putUnitCtl op (k % 16) (n % 4096) false).fenceUnit src k n).opResult k n false) := by
  have able : fenceable k = true := by simp [fenceable, hk]
  have pool : k ≠ 11 := by omega
  simp only [List.mem_cons, List.not_mem_nil, or_false, Prod.mk.injEq] at hc
  obtain ⟨rfl, rfl⟩ | ⟨rfl, rfl⟩ := hc
  · exact ⟨1, by simp [exec, execUnitDeclare, free, able, ok, State.declare, pool]⟩
  · have en : s.fld rFltCfg fFltCfg_INJECT_EN = 1 := may.resolve_left (by decide)
    exact ⟨3, by simp [exec, execUnitInject, free, able, ok, State.declare, pool, putUnitCtl_injectEn, en]⟩

/-- What one that is not taken does: the operation is reported as failed. -/
theorem exec_unitFence_refused {c : Instr} {src : Nat} (hc : (src, c) ∈ [(5, Instr.unitDeclare k n), (6, .unitInject k n)])
    (free : s.unitCtlFree = true)
    (hk : k < 16) (hn : n < 4096) (bad : (k = 8 ∨ 13 ≤ k ∨ unitOk k n = false) ∨ (src = 6 ∧ s.fld rFltCfg fFltCfg_INJECT_EN = 0)) :
    ∃ op, exec c s = .next ((s.putUnitCtl op k n false).opResult k n true) := by
  have unable : (k = 8 ∨ 13 ≤ k ∨ unitOk k n = false) → (fenceable k && unitOk k n) = false := by
    rintro (rfl | big | no)
    · rfl
    · have f : fenceable k = false := by simp [fenceable]; omega
      simp [f]
    · simp [no]
  simp only [List.mem_cons, List.not_mem_nil, or_false, Prod.mk.injEq] at hc
  obtain ⟨rfl, rfl⟩ | ⟨rfl, rfl⟩ := hc
  · exact ⟨1, by simp [exec, execUnitDeclare, free, unable (bad.resolve_right fun h => absurd h.1 (by decide)), Nat.mod_eq_of_lt hk,
      Nat.mod_eq_of_lt hn]⟩
  · refine ⟨3, ?_⟩
    obtain bad | ⟨-, off⟩ := bad
    · simp [exec, execUnitInject, free, unable bad, Nat.mod_eq_of_lt hk, Nat.mod_eq_of_lt hn]
    · simp [exec, execUnitInject, free, putUnitCtl_injectEn, off, Nat.mod_eq_of_lt hk, Nat.mod_eq_of_lt hn]

/-- RESTORE as a whole, for a selection that fits its fields. -/
theorem exec_unitRestore (free : s.unitCtlFree = true) (hk : k < 16) (hn : n < 4096) {ok : Bool}
    (hok : ok = (decide (k ≤ 7) && unitOk k n && s.isFenced k n && !(s.funit k n).locked)) :
    exec (.unitRestore k n) s = .next (if ok then (s.putUnitCtl 2 k n ok).modUnit k n (fun u => { u with restoring := true, opFailed := false })
      else (s.putUnitCtl 2 k n ok).opResult k n true) := by
  simp only [exec, execUnitRestore, free, ← hok, Nat.mod_eq_of_lt hk, Nat.mod_eq_of_lt hn, Bool.not_true, Bool.false_eq_true, if_false]
  cases ok <;> rfl

/-- A report of an outcome leaves all of a unit but the report. -/
theorem opResult_funit (failed : Bool) :
    (s.opResult k n failed).funit k n = { s.funit k n with opFailed := failed } := State.funit_modUnit_self s k n _

end

/-! ### The end of a self test -/

section
variable {s : State} {k n : Nat}

/-- A self test that has passed, before the unit's own work goes on. -/
def State.passed (s : State) (k n : Nat) : State :=
  ((((s.setFld rFltUnitCtl fFltUnitCtl_GO 0).modUnit k n (fun u => { u with fenced := false, restoring := false, opFailed := false })).bump
    cFltRestores 1).event 2 5 k 2 n 0xFF 0)

/-- A self test that has failed. -/
def State.flunked (s : State) (k n : Nat) (again : Bool) : State :=
  ((s.setFld rFltUnitCtl fFltUnitCtl_GO 0).modUnit k n
    (fun u => { u with restoring := false, opFailed := true, failAt := some s.now, locked := u.locked || again })).event 2 5 k 3 n 0xFF 0

theorem exec_restoreDone_pass (h : (s.funit k n).restoring = true) : exec (.unitRestoreDone k n true) s = .next ((s.passed k n).restored k n) := by
  simp only [exec, execUnitRestoreDone, h]
  rfl

theorem exec_restoreDone_idle {pass : Bool} (h : (s.funit k n).restoring = false) : exec (.unitRestoreDone k n pass) s = .next s := by
  simp only [exec, execUnitRestoreDone, h]
  rfl

end

section
variable (s : State) (k n : Nat)

theorem passed_funit : (s.passed k n).funit k n = { s.funit k n with fenced := false, restoring := false, opFailed := false } := by
  rw [State.passed, State.funit_event, State.funit_bump, State.funit_modUnit_self, State.setFld, State.funit_setReg]

theorem passed_go : (s.passed k n).fld rFltUnitCtl fFltUnitCtl_GO = 0 := by
  have low : Unreported rFltUnitCtl := unreported_low (by decide)
  rw [State.passed, State.fld_event_unreported low, State.fld_bump_unreported low, State.fld_modUnit, State.fld_setFld _ _ _ _ (by decide),
      Nat.zero_mod]

theorem passed_counts (h : s.ctr cFltRestores + 1 < 2 ^ 48 - 1) : (s.passed k n).ctr cFltRestores = s.ctr cFltRestores + 1 := by
  have same : ∀ f, ((s.setFld rFltUnitCtl fFltUnitCtl_GO 0).modUnit k n f).ctr cFltRestores = s.ctr cFltRestores := fun f => by
    simp only [State.ctr, State.modUnit, State.modFlt_eq, State.putFlt_reads, State.setFld_reads]
  rw [State.passed, State.ctr_event_fence _ _ _ _ _ _ _ (by decide), State.ctr_bump_self _ _ _ (by rw [same]; exact h), same]

theorem passed_mem : (s.passed k n).mem = s.mem := by
  simp only [State.passed, State.event_reads, State.bump_reads, State.modUnit, State.modFlt_eq, State.putFlt_reads, State.setFld_reads]

theorem flunked_funit (again : Bool) : (s.flunked k n again).funit k n =
    { s.funit k n with restoring := false, opFailed := true, failAt := some s.now, locked := (s.funit k n).locked || again } := by
  rw [State.flunked, State.funit_event, State.funit_modUnit_self, State.setFld, State.funit_setReg]

theorem flunked_go (again : Bool) : (s.flunked k n again).fld rFltUnitCtl fFltUnitCtl_GO = 0 := by
  rw [State.flunked, State.fld_event_unreported (unreported_low (by decide)), State.fld_modUnit, State.fld_setFld _ _ _ _ (by decide), Nat.zero_mod]

end

theorem opResult_mem (s : State) (op k n k' n' : Nat) (busy failed : Bool) : ((s.putUnitCtl op k n busy).opResult k' n' failed).mem = s.mem := by
  simp only [State.opResult, State.modUnit, State.modFlt_eq, State.putFlt_reads, State.putUnitCtl, State.setReg_reads]

theorem opResult_out (s : State) (op k n k' n' : Nat) (busy failed : Bool) : ((s.putUnitCtl op k n busy).opResult k' n' failed).out = s.out := by
  simp only [State.opResult, State.modUnit, State.modFlt_eq, State.putFlt_reads, State.putUnitCtl, State.setReg_reads]

theorem opResult_recs (s : State) (op k n k' n' : Nat) (busy failed : Bool) : ((s.putUnitCtl op k n busy).opResult k' n' failed).recs = s.recs := by
  simp only [State.opResult, State.modUnit, State.modFlt_eq, State.putFlt_reads, State.putUnitCtl, State.setReg_reads]

/-- Whether a self test that fails now is the second within 24 hours. -/
def State.again (s : State) (k n : Nat) : Bool :=
  match (s.funit k n).failAt with
  | some x => decide (s.now < x + 86400000000000)
  | none => false

theorem exec_restoreDone_fail {s : State} {k n : Nat} (h : (s.funit k n).restoring = true) :
    exec (.unitRestoreDone k n false) s = .next (s.flunked k n (s.again k n)) := by
  have now : (s.setFld rFltUnitCtl fFltUnitCtl_GO 0).now = s.now := by simp only [State.now, State.setFld_reads]
  have same : (s.setFld rFltUnitCtl fFltUnitCtl_GO 0).funit k n = s.funit k n := State.funit_setReg _ _ _ _ _
  unfold State.flunked State.again
  rw [← now, ← same]
  simp only [exec, execUnitRestoreDone, h, Bool.not_true, Bool.false_eq_true, if_false] <;> rfl

/-- Settles O47: FLT_UNIT_CTL declares, injects and restores, reports what it does not take, and writes only its fields while a self test runs. -/
theorem units : Obligations.Units := by
  unfold Obligations.Units
  refine ⟨?_, ?_, ?_, ?_, ?_⟩
  · intro s c src k n hc free
    refine ⟨fun hk ok out may => ?_, fun hk hn bad => ?_⟩
    · obtain ⟨op, run⟩ := exec_unitFence hc free hk ok may
      have fenced := fenceUnit_funit (s.putUnitCtl op (k % 16) (n % 4096) false) (src := src) hk ok
        ((congrArg FUnit.fenced (putUnitCtl_funit s _ _ _ _ k n)).trans out)
      have after := (opResult_funit (s := (s.putUnitCtl op (k % 16) (n % 4096) false).fenceUnit src k n) (k := k) (n := n) false).trans
        (congrArg (fun u : FUnit => { u with opFailed := false }) fenced)
      refine ⟨_, run, congrArg FUnit.fenced after, congrArg FUnit.opFailed after, (congrArg FUnit.fences after).trans ?_⟩
      exact congrArg (fun u : FUnit => u.fences + 1) (putUnitCtl_funit s _ _ _ _ k n)
    · obtain ⟨op, run⟩ := exec_unitFence_refused hc free hk hn bad
      have after := (opResult_funit (s := s.putUnitCtl op k n false) (k := k) (n := n) true).trans
        (congrArg (fun u : FUnit => { u with opFailed := true }) (putUnitCtl_funit s _ _ _ _ k n))
      exact ⟨_, run, congrArg FUnit.opFailed after, (congrArg FUnit.fenced after :), opResult_mem _ _ _ _ _ _ _ _, opResult_recs _ _ _ _ _ _ _ _⟩
  · intro s k n free hk hn
    refine ⟨fun low ok out lock => ?_, fun bad => ?_⟩
    · have run := exec_unitRestore (ok := true) free hk hn (by simp [low, ok, out, lock])
      have after := (State.funit_modUnit_self (s.putUnitCtl 2 k n true) k n (fun u => { u with restoring := true, opFailed := false })).trans
        (congrArg (fun u : FUnit => { u with restoring := true, opFailed := false }) (putUnitCtl_funit s _ _ _ _ k n))
      exact ⟨_, run, congrArg FUnit.restoring after, (congrArg FUnit.fenced after).trans out,
        (State.fld_modUnit (s.putUnitCtl 2 k n true) k n (fun u => { u with restoring := true, opFailed := false }) _ _).trans (putUnitCtl_go s true),
        opResult_mem s 2 k n k n true true, opResult_out s 2 k n k n true true⟩
    · have unable : (decide (k ≤ 7) && unitOk k n && s.isFenced k n && !(s.funit k n).locked) = false := by
        obtain high | out | lock := bad
        · simp [not_le.2 high]
        · simp [out]
        · simp [lock]
      have run := exec_unitRestore (ok := false) free hk hn unable.symm
      have after := (opResult_funit (s := s.putUnitCtl 2 k n false) (k := k) (n := n) true).trans
        (congrArg (fun u : FUnit => { u with opFailed := true }) (putUnitCtl_funit s _ _ _ _ k n))
      exact ⟨_, run, congrArg FUnit.opFailed after, (congrArg FUnit.fenced after :), (congrArg FUnit.restoring after :)⟩
  · intro s op c k n hc
    refine ⟨fun stopped => ?_, fun runs busy hk hn => ?_⟩
    · rw [exec_unitCtl_busy hc (unitCtlFree_stopped stopped), selectOnly_stopped stopped]
    · have run := exec_unitCtl_busy hc (unitCtlFree_busy busy)
      have small : op < 8 := by
        simp only [List.mem_cons, List.not_mem_nil, or_false, Prod.mk.injEq] at hc
        omega
      rw [selectOnly_running runs, Nat.mod_eq_of_lt hk, Nat.mod_eq_of_lt hn] at run
      exact ⟨_, run, putUnitCtl_op s true small, putUnitCtl_kind s true hk, putUnitCtl_unit s true hn, putUnitCtl_go s true,
        by simp only [State.putUnitCtl, State.setReg_reads], by simp only [State.putUnitCtl, State.setReg_reads],
        by simp only [State.putUnitCtl, State.setReg_reads],
        fun o ho => State.reg_setReg_of_ne s _ (by simpa using ho)⟩
  · intro s k n tests
    refine ⟨fun room => ⟨_, exec_restoreDone_pass tests, congrArg FUnit.fenced (passed_funit s k n), congrArg FUnit.restoring (passed_funit s k n),
      passed_go s k n, passed_counts s k n room, fun a => congrArg (fun m : MemSys => m.read a) (passed_mem s k n)⟩, ?_⟩
    have again : s.again k n = (match (s.funit k n).failAt with
        | some x => decide (s.now < x + 86400000000000)
        | none => false) := by
      unfold State.again
      cases (s.funit k n).failAt <;> rfl
    exact ⟨_, exec_restoreDone_fail tests, (congrArg FUnit.fenced (flunked_funit s k n _) :), congrArg FUnit.opFailed (flunked_funit s k n _),
      congrArg FUnit.restoring (flunked_funit s k n _), congrArg FUnit.failAt (flunked_funit s k n _), flunked_go s k n _,
      (congrArg FUnit.locked (flunked_funit s k n _)).trans (congrArg ((s.funit k n).locked || ·) again)⟩
  · intro s k n pass idle
    exact exec_restoreDone_idle idle

end Sys2Proof.Machine
end

section
set_option Elab.async false
/-! SUPPORT. The end of a lookup that fails at another node is held where its results go to a window that is not open yet (R320): a counterexample to
what the statements of collectives and of refused requests say of every request. -/

namespace Sys2Proof.Machine

/-- The slot of a lookup of one row, whose results go to a borrow window. -/
def farLookupCmd : HostCmd :=
  { Tests.cmd0 0x31 (leBytes 4 0 ++ leBytes 4 1) with resultAddr := 2 ^ 63 + 2 ^ 48 }

/-- A lookup of one row under way, whose results go to a borrow window that its lender has not opened yet. -/
def farLookup : Rec :=
  { Tests.rec0 0x31 (leBytes 4 0 ++ leBytes 4 1) with cmd := farLookupCmd }

/-- The memory of a node whose lender has not opened its borrow window yet. -/
def pendingMem : MemSys :=
  { comps := [(2, Tests.comp0 [Tests.window0 false (2 ^ 48) 1])] }

/-- A node that serves this lookup. -/
def farLooker : State :=
  { Tests.node farLookup with mem := pendingMem, emb := { tables := [(0, Tests.table0)] } }

/-- A collective of this node whose command is the lookup's record. -/
def farColl : Coll :=
  { op := 0, rid := some 0, issuer := false, members := 2, started := 0, reports := [], count := 0, lost := 0, data := none, done := true, mask := 0 }

/-- The node with the lookup, in a collective. -/
def collLooker : State :=
  { farLooker with fab := { colls := [(1, farColl)] } }

/-- A request to another node whose answer the lookup waits for. -/
def farRequest : OutReq :=
  { rid := some 0, node := 7, part := 0, sent := 0, timed := true, kind := opAttest, args := [], gen := 0 }

/-- The node with the lookup and that request. -/
def sentLooker : State :=
  { farLooker with fab := { out := [(5, farRequest)] } }

/-- The refusal of that request. -/
def farRefusal : Packet :=
  { vc := 3, ptype := 2, opcode := opAttest, dstNode := 1, srcNode := 7, seq := 5 }

/-- Where nothing has been sent, nothing has been completed. -/
theorem not_completes_of_out {s t : State} {p q cid st n r0 r1 : Nat} (h : t.out = []) : ¬Completes s t p q cid st n r0 r1 := by
  rintro ⟨slot, c, ⟨more, out, mem⟩, -⟩
  rw [h, List.nil_eq, List.append_eq_nil_iff] at out
  simp [out.2] at mem

/-- The failure of its collective ends the lookup with nothing sent. -/
theorem collLooker_out : (Tests.after (.collectiveMessageArrival 7 ckFail 1 0 scRemoteError 0 0 []) collLooker).out = [] := by decide +kernel

/-- The refusal of its request ends the lookup with nothing sent. -/
theorem sentLooker_out : (Tests.after (.fabricRefuseArrival farRefusal) sentLooker).out = [] := by decide +kernel

/-- What a command leaves is the next state that it answers with. -/
theorem after_of_next {c : Instr} {s t : State} (h : exec c s = .next t) : Tests.after c s = t := by
  simp [Tests.after, landed, h]

/-- Refutes O45: the failure of a collective completes its request, but the results of a lookup, whose rows read as undefined then, go to a borrow window
that its lender has not opened yet, and the completion is held back for it
    (R320). The statement takes the request of a collective to be of any opcode. -/
theorem not_collectives : ¬Obligations.Collectives := by
  rintro ⟨-, -, h⟩
  obtain ⟨-, h, -⟩ := h collLooker 7 1 0 0 0 0 0 [] farColl farLookup (by decide +kernel)
  obtain ⟨-, fail, -⟩ := h (by decide +kernel) (by decide +kernel) (by decide +kernel) (by decide +kernel) (by decide +kernel)
  obtain ⟨t, ht, -, c⟩ := fail scRemoteError (by decide)
  exact not_completes_of_out (after_of_next ht ▸ collLooker_out) c

/-- Refutes O43: a refusal ends the request that it answers, but the results of a lookup, whose rows read as undefined then, go to a borrow window that
its lender has not opened yet, and the completion is held back for it
    (R320). The statement takes the request that sent the packet to be of any opcode. -/
theorem not_traffic : ¬Obligations.Traffic := by
  rintro ⟨-, -, -, -, -, -, -, -, -, h, -⟩
  obtain ⟨t, ht, c⟩ := h sentLooker farRefusal farRequest 0 farLookup (by decide +kernel) (by decide +kernel) (by decide +kernel) (by decide +kernel)
    (by decide +kernel) (by decide +kernel) (by decide +kernel) (by decide +kernel)
  exact not_completes_of_out (after_of_next ht ▸ sentLooker_out) c

end Sys2Proof.Machine
end

section
set_option Elab.async false
/-! SUPPORT. Queries as they are admitted (spec/07): a host command's input is read past accounting, events and the counts of the flash's blocks. -/

namespace Sys2Proof.Machine

/-- The state without what accounting and events write, and without the reads that the flash's blocks count. -/
def State.apart (s : State) : State :=
  { s.core with flt := {}, flash := { s.flash with blocks := [] } }

theorem Aside.apart {s t : State} (h : Aside s t) : t.apart = s.apart := h.view fun u => { u with flt := {}, flash := { u.flash with blocks := [] } }

theorem State.apart_event (s : State) (a b c d e f g : Nat) : (s.event a b c d e f g).apart = s.apart := by
  simp [State.apart, State.core]

theorem State.apart_bump (s : State) (o n : Nat) : (s.bump o n).apart = s.apart := (Aside.refl s).bump.apart

theorem State.apart_readUnit (s : State) (p k : Nat) : (s.readUnit p k).apart = s.apart := by
  unfold State.readUnit
  split
  · rfl
  · dsimp only
    split_ifs
    · rw [State.apart_event, State.apart_bump]
      rfl
    · rw [State.apart_bump]
      rfl
    · rfl

theorem State.apart_readUnits (s : State) (p k n : Nat) : (s.readUnits p k n).2.apart = s.apart :=
  List.foldlRecOn (motive := fun t : State => t.apart = s.apart) _ _ rfl fun t ih k _ => (t.apart_readUnit p k).trans ih

theorem State.apart_ite {s t u : State} {c : Prop} [Decidable c] (h : t.apart = s.apart) (g : u.apart = s.apart) :
    (if c then t else u).apart = s.apart := by
  split_ifs
  · exact h
  · exact g

theorem State.apart_putFree (s : State) (n : Nat) : (s.putFree n).apart = s.apart := rfl

theorem State.apart_flashLoad (s : State) (p a n : Nat) : (s.flashLoad p a n).2.2.2.apart = s.apart := by
  have read := s.apart_readUnits p (unitSpan a n).1 (unitSpan a n).2
  have charged : (((s.readUnits p (unitSpan a n).1 (unitSpan a n).2).2.bump cFtlHostReadBytes n).chargeBw p 3 n).apart = s.apart :=
    (Aside.refl _).bump.chargeBw.apart.trans read
  exact State.apart_ite charged ((State.apart_putFree _ _).trans charged)

theorem State.apart_readInput (s : State) (p : Nat) (flow : Nat × Bool) (a n : Nat) (host : List Byte) :
    (s.readInput p flow a n host).2.apart = s.apart := by
  unfold State.readInput
  dsimp only
  split_ifs
  · exact s.apart_flashLoad p _ n
  · exact (Aside.refl s).access.apart
  · exact (Aside.refl s).chargeHostRead.apart

theorem State.queries_of_apart {s t : State} (h : t.apart = s.apart) : t.queries = s.queries := by
  have queries := congrArg (fun u : State => u.queries) h
  exact queries

theorem State.queries_readInput (s : State) (p : Nat) (flow : Nat × Bool) (a n : Nat) (host : List Byte) :
    (s.readInput p flow a n host).2.queries = s.queries := State.queries_of_apart (s.apart_readInput p flow a n host)

section
variable {s : State} {p q cid rid status : Nat} {r : Rec} {qy : Query}

/-- A query that has not been admitted yet and fails a check ends with the check's status. -/
theorem MayRun.failQuery (may : MayRun s p q cid 0x10 rid r) (hq : kvGet? rid s.queries = some qy) (new : qy.phase = 0) (alone : qy.shards = []) :
    Completes s (s.failQuery rid status) p q cid status 0 0 0 := by
  have completes := may.completes (Extends.refl s) may.2.1 may.2.2 qy.part status 0 0 0 0 [] (.inr ⟨rfl, .inl (by decide)⟩)
  rw [finalCount_zero] at completes
  unfold State.failQuery
  rw [hq]
  simpa [alone, new] using completes

end

/-- Settles O21: `execQuery` check by check. -/
theorem queryAdmission : Obligations.QueryAdmission := by
  refine ⟨?admitted, ?failed, ?flags, ?judged⟩
  case admitted =>
    intro s p q cid rid input r qy vec bs may hq new hbs hvec ok sound held
    have fields : (s.named r).queryInCheck p r.cmd = none := by
      unfold State.queryCheck at ok
      unfold State.queryInCheck
      by_cases h : (s.named r).queryFieldsOk p r.cmd false = true
      · by_cases g : (s.named r).addrOk p (r.cmd.param 16 8) r.cmd.queryBytes = true
        · simp [h, g]
        · simp [h, g] at ok
      · simp [h] at ok
    have queries := s.queries_readInput p r.flow (r.cmd.param 16 8) r.cmd.queryBytes input
    have recs := (Calm.refl s).readInput (p := p) (flow := r.flow) (a := r.cmd.param 16 8) (n := r.cmd.queryBytes) (host := input) |>.recs
    have run : exec (.query p q cid input) s = .next (((s.readInput p r.flow (r.cmd.param 16 8) r.cmd.queryBytes input).2.modQuery rid (fun x =>
        { x with
          phase := 1, vec := vec, raw := bs
          allow := (if bitOf (r.cmd.param 10 2) 1 then s.claimedTensor r (r.cmd.param 48 8) else none).map (fun a => a.1) })).modRec rid
              (fun r => { r with phase := .running })) := by
      subst hvec hbs
      simp only [exec, execQuery, may.1, hq, new, fields, ok, sound, held, ne_eq, not_true_eq_false, if_false, Bool.not_true, Bool.false_eq_true]
    refine ⟨_, run, ?_, ?_⟩
    · unfold Begun
      refine kvGet?_modRec ?_ fun r => { r with phase := .running }
      exact (congrArg (kvGet? rid) recs).trans may.2.1
    · have there : ∀ (u : State) (f : Query → Query) (g : Rec → Rec) (x : Nat), u.queries = s.queries →
          kvGet? x ((u.modQuery rid f).modRec rid g).queries = if x = rid then some (f qy) else kvGet? x s.queries := by
        intro u f g x h
        rw [← h] at hq ⊢
        exact (kvGet?_upd rid x f u.queries).trans (by rw [hq]; rfl)
      refine ⟨_, (there _ _ _ rid queries).trans (if_pos rfl), rfl, rfl, rfl, rfl, rfl, rfl, fun plain => ?_, fun listed => ?_, fun x other => ?_⟩
      · simp [plain]
      · simp [listed]
      · exact (there _ _ _ x queries).trans (if_neg other)
  case failed =>
    intro s p q cid rid st input r qy vec may hq new part alone hvec checks
    refine ⟨s.failQuery rid st, ?_, may.failQuery hq new alone⟩
    subst hvec
    rcases checks with bad | ⟨fields, sound, bad⟩
    · simp only [exec, execQuery, may.1, hq, new, bad, ne_eq, not_true_eq_false, if_false]
    · simp only [exec, execQuery, may.1, hq, new, fields, sound, bad, ne_eq, not_true_eq_false, if_false, Bool.not_true, Bool.false_eq_true]
  case flags =>
    intro s p q cid rid input r qy may hq new part alone flags
    refine ⟨s.failQuery rid scBadCommand, ?_, may.failQuery hq new alone⟩
    have bad : (s.named r).queryInCheck p r.cmd = some scBadCommand := by
      have fields : (s.named r).queryFieldsOk p r.cmd false = false := by simp [State.queryFieldsOk, Nat.not_lt.mpr flags]
      simp [State.queryInCheck, fields]
    simp only [exec, execQuery, may.1, hq, new, bad, ne_eq, not_true_eq_false, if_false]
  case judged =>
    intro s p q cid rid input r qy vec bs may hq new part alone hbs hvec fields
    subst hbs hvec
    refine ⟨fun bad => ⟨s.failQuery rid scBadCommand, ?_, may.failQuery hq new alone⟩,
      fun sound ok gone => ⟨s.failQuery rid scEpochRetired, ?_, may.failQuery hq new alone⟩⟩
    · simp only [exec, execQuery, may.1, hq, new, fields, bad, ne_eq, not_true_eq_false, if_false, Bool.not_false, if_true]
    · simp only [exec, execQuery, may.1, hq, new, fields, sound, ok, gone, ne_eq, not_true_eq_false, if_false, Bool.not_true, Bool.not_false, if_true,
        Bool.false_eq_true]

end Sys2Proof.Machine
end

section
set_option Elab.async false
/-! SUPPORT. Fences (spec/16): what the detectors of faults do. -/

namespace Sys2Proof.Machine

/-! ### Corrected errors -/

section
variable (s : State)

/-- What an event leaves of the faults until it is placed: the ring of function 0, and the uncorrectable reads of each channel and the losses of
pools that have been noted. -/
def State.watched : List EvRec × KV (List Nat) × List Nat :=
  (s.flt.ring0, s.flt.badReads, s.flt.poolLost)

theorem State.watched_latch (a b : Nat) : (s.latch a b).watched = s.watched := by
  simp [State.watched, State.latch]

theorem State.watched_markSat (o : Nat) : (s.markSat o).watched = s.watched := by
  unfold State.markSat
  split <;> simp [State.watched]

theorem State.watched_rawBump (o n : Nat) : (s.rawBump o n).1.watched = s.watched := by
  simp [State.watched, State.rawBump]

theorem State.watched_drogue (a b : Nat) : (s.drogue a b).1.watched = s.watched := by
  unfold State.drogue
  dsimp only
  split_ifs
  · rfl
  · exact s.watched_latch a b
  · simp [State.watched]
  · exact (State.watched_markSat _ _).trans (s.watched_rawBump _ _)
  · exact s.watched_rawBump _ _

theorem State.watched_sendMsix (p v : Nat) : (s.sendMsix p v).watched = s.watched := by
  unfold State.sendMsix
  dsimp only
  split_ifs <;> simp [State.watched, State.clearCoal]

theorem State.watched_eventIrq (a b : Nat) : (s.eventIrq a b).watched = s.watched := by
  unfold State.eventIrq
  split_ifs
  · exact s.watched_sendMsix _ _
  · rfl

theorem State.watched_addLost (a b : Nat) : (s.addLost a b).watched = s.watched := by
  unfold State.addLost
  split_ifs
  · rfl
  · simp [State.watched]

theorem State.watched_logAppend (k : Nat) (bs : List Byte) : (s.logAppend k bs).watched = s.watched := by
  unfold State.logAppend
  dsimp only
  split_ifs <;> simp [State.watched]

theorem State.tallyHour_watched (a b c : Nat) :
    (s.tallyHour a b c).watched = s.watched ∧ (s.tallyHour a b c).flt.recent = s.flt.recent := by
  unfold State.tallyHour State.watched
  simp only [State.modFlt_eq, State.putFlt_reads]
  constructor <;> (split <;> split <;> rfl)

/-- The part of it that no event changes. -/
theorem State.noted_evPlace (a b c d e f g : Nat) : (s.evPlace a b c d e f g).watched.2 = s.watched.2 := by
  have tallied : (if a = 0 then s.tallyHour b c e else s).watched.2 = s.watched.2 := by
    split
    · exact congrArg Prod.snd (s.tallyHour_watched b c e).1
    · rfl
  have logged : ∀ (t : State) (bs : List Byte), (if a = 0 then t else t.logAppend lkEvent bs).watched.2 = t.watched.2 := fun t bs => by
    split
    · rfl
    · exact congrArg Prod.snd (t.watched_logAppend _ bs)
  have placed : ∀ (t : State) (f : Faults → Faults), (f t.flt).badReads = t.flt.badReads → (f t.flt).poolLost = t.flt.poolLost →
      (t.modFlt f).watched.2 = t.watched.2 := fun t f reads lost => by simp [State.watched, reads, lost]
  unfold State.evPlace
  generalize (if a = 0 then s.tallyHour b c e else s) = t at tallied
  dsimp only
  split
  · exact (placed t _ rfl rfl).trans tallied
  · rw [State.watched_eventIrq, State.watched_eventIrq, logged, State.watched_addLost, State.watched_addLost, placed _ _ rfl rfl,
      State.watched_drogue, tallied]

theorem State.noted_event (a b c d e f g : Nat) : (s.event a b c d e f g).watched.2 = s.watched.2 := by
  have counted : (s.evCount a).1.watched = s.watched := by
    unfold State.evCount
    split_ifs
    · exact s.watched_rawBump _ _
    · exact s.watched_rawBump _ _
    · rfl
  unfold State.event
  dsimp only
  split_ifs <;> simp only [State.noted_evPlace, State.watched_markSat, State.watched_rawBump, counted]

theorem State.badReads_event (a b c d e f g : Nat) : (s.event a b c d e f g).flt.badReads = s.flt.badReads :=
  congrArg Prod.fst (s.noted_event a b c d e f g)

theorem State.poolLost_event (a b c d e f g : Nat) : (s.event a b c d e f g).flt.poolLost = s.flt.poolLost :=
  congrArg Prod.snd (s.noted_event a b c d e f g)

variable {s}

theorem evCount_corrected (below : s.ctr cFltCorrected + 1 < 2 ^ 48 - 1) :
    s.evCount 0 = (s.setCtr cFltCorrected (s.ctr cFltCorrected + 1), false) := by
  have value : min (2 ^ 48 - 1) (s.ctr cFltCorrected + 1) = s.ctr cFltCorrected + 1 := by omega
  have free : decide (s.ctr cFltCorrected + 1 = 2 ^ 48 - 1) = false := by
    simp
    omega
  unfold State.evCount State.rawBump
  dsimp only
  rw [if_pos rfl, value, free, Bool.and_false]

/-- A corrected event that merges with none yet: one more record in a ring that has room, and one more corrected event counted. -/
theorem event_corrected {source kind action unit part detail : Nat} (new : s.flt.recent.any (fun e => e.merges 0 source kind unit s.now) = false)
    (room : s.flt.ring0.length < 1024) (below : s.ctr cFltCorrected + 1 < 2 ^ 48 - 1) :
    (s.event 0 source kind action unit part detail).ctr cFltCorrected = s.ctr cFltCorrected + 1 ∧
    ∃ e : EvRec, (s.event 0 source kind action unit part detail).flt.ring0 = s.flt.ring0 ++ [e] ∧ e.cls = 0 ∧ e.source = source ∧ e.kind = kind ∧
      e.unit = unit ∧ e.action = action ∧ e.detail = detail ∧ e.time = s.now ∧ e.count = 1 := by
  have counted := evCount_corrected below
  have placed : s.event 0 source kind action unit part detail =
      (s.setCtr cFltCorrected (s.ctr cFltCorrected + 1)).evPlace 0 source kind action unit part detail := by
    unfold State.event
    rw [counted]
    simp only [Bool.false_eq_true, if_false]
  rw [placed]
  refine ⟨?_, ?_⟩
  · rw [State.ctr_evPlace_ne _ _ _ _ _ _ _ (by decide)]
    simp [State.ctr_setCtr]
  · generalize ht : s.setCtr cFltCorrected (s.ctr cFltCorrected + 1) = t
    have flt : t.flt = s.flt := by subst ht; simp
    have now : t.now = s.now := by subst ht; simp
    obtain ⟨watched, recent⟩ := t.tallyHour_watched source kind unit
    unfold State.evPlace
    rw [if_pos rfl]
    dsimp only
    rw [recent, flt, show (t.tallyHour source kind unit).now = s.now by simp [now], if_neg (by simp [new])]
    have pushed : ∀ e, pushRing ((t.tallyHour source kind unit).drogue (2 + 0) 0).1.flt.ring0 e = (s.flt.ring0 ++ [e], 0) := fun e => by
      have ring := congrArg Prod.fst (((t.tallyHour source kind unit).watched_drogue (2 + 0) 0).trans watched)
      dsimp only [State.watched] at ring
      unfold pushRing
      rw [ring, flt, if_pos room]
    have irq : ∀ (v : State) (i j : Nat), (v.eventIrq i j).flt.ring0 = v.flt.ring0 := fun v i j => congrArg Prod.fst (v.watched_eventIrq i j)
    have lost : ∀ (v : State) (i j : Nat), (v.addLost i j).flt.ring0 = v.flt.ring0 := fun v i j => congrArg Prod.fst (v.watched_addLost i j)
    simp only [pushed, irq, lost, if_pos, State.modFlt_eq, State.putFlt_reads]
    exact ⟨_, rfl, rfl, rfl, rfl, rfl, rfl, rfl, by simp [now], rfl⟩

end

/-! ### Bytes that an uncorrectable error damages -/

/-- The damaged unit of 64 bytes holds the byte that was read. -/
theorem isDamaged_damage (m : MemSys) (a : Nat) : (m.damage (a / eccBytes * eccBytes) eccBytes).isDamaged a 1 = true := by
  have there : ∃ r ∈ (m.damage (a / eccBytes * eccBytes) eccBytes).damaged, r.1 < a + 1 ∧ a < r.1 + r.2 := by
    refine ⟨(a / eccBytes * eccBytes, max eccBytes (kvGetD 0 (a / eccBytes * eccBytes) m.damaged)),
      kvGet?_mem ((kvGet?_put _ _ _ _).trans (if_pos rfl)), ?_, ?_⟩ <;> (unfold eccBytes; dsimp only; omega)
  obtain ⟨r, hr, h⟩ := there
  unfold MemSys.isDamaged
  rw [Bool.or_eq_true]
  exact .inl (List.any_eq_true.mpr ⟨r, hr, by simpa using h⟩)

theorem read_damage (m : MemSys) (a n x : Nat) : (m.damage a n).read x = m.read x := rfl

/-! ### Requests that an error ends -/

section
variable {s u : State} {rid : Nat} {r : Rec}

/-- A request that is neither a query nor a long operation is cut short without results. -/
theorem cutShort_completes {st : Nat} (found : kvGet? rid s.recs = some r) (noQuery : kvGet? rid s.queries = none) (host : r.fab = none)
    (short : r.long = none) (live : s.pstate r.part ≠ stResetting) (near : st ≠ scRemoteError ∧ st ≠ scUnreachable) :
    Completes s (s.cutShort rid st) r.part r.q r.cmd.cid st 0 0 0 := by
  have completes := complete_completes s r.part rid r st 0 0 0 0 [] found host live (.inr ⟨rfl, .inr near⟩)
  rw [finalCount_zero] at completes
  unfold State.cutShort
  simpa [found, noQuery, short, finalCount_zero] using completes

end

theorem reportFence_funit (s : State) (src k n part detail : Nat) :
    (s.reportFence src k n part detail).funit k n = { s.funit k n with fences := (s.funit k n).fences + 1 } := by
  unfold State.reportFence
  dsimp only
  rw [State.funit_event, State.funit_bump, State.funit_modUnit_self]

theorem State.fld_modFlt (s : State) (f : Faults → Faults) (x : Nat) (y : Fld) : (s.modFlt f).fld x y = s.fld x y := by
  simp only [State.fld, State.reg, State.modFlt_eq, State.putFlt_reads]

theorem fatalStop_stopped {s : State} {src kind unit : Nat} (h : s.flt.stopped = true) : s.fatalStop src kind unit = s := if_pos h

/-- A node that stops sets FATAL, and cuts its one open request short. -/
theorem fatalStop_running {s : State} {src kind unit : Nat} (h : s.flt.stopped = false) :
    (s.fatalStop src kind unit).flt.stopped = true ∧ (s.fatalStop src kind unit).fld rFltStatus fFltStatus_FATAL = 1 ∧
    ∀ i r, s.recs = [(i, r)] → Extends (s.cutShort i scInternal) (s.fatalStop src kind unit) := by
  unfold State.fatalStop
  rw [if_neg (by simp [h])]
  dsimp only
  refine ⟨?_, ?_, ?_⟩
  · simp
  · rw [State.fld_modFlt, State.fld_setFld _ _ _ _ (by decide)]
    decide
  · intro i r hr
    rw [hr]
    exact (event_extends (s.cutShort i scInternal) 3 src kind 5 unit 0xFF 0).trans (.of_eq (by simp))

/-- Settles O46: `fenceUnit`, `eccError` and `fatalStop` by the kind of unit. -/
theorem fences : Obligations.Fences := by
  refine ⟨?detected, ?pools, ?corrected, ?engine, ?phases, ?memory, ?channel, ?fenced, ?lost, ?gone, ?fatal⟩
  case detected =>
    intro s c src kind unit hc hk ok
    have run : exec c s = .next (s.fenceUnit src kind unit) := by
      simp only [List.mem_cons, List.not_mem_nil, or_false, Prod.mk.injEq] at hc
      have pool : ¬(kind = 11 ∧ unit < 2) := by omega
      rcases hc with ⟨rfl, rfl⟩ | ⟨rfl, rfl⟩
      · simp only [exec, execStallDetectorTimeout, if_neg pool, if_pos hk]
      · simp only [exec, execParityError, if_neg pool, if_pos hk]
    refine ⟨fun free => ?_, fun fenced => ?_⟩
    · have unit' := fenceUnit_funit s (src := src) hk ok free
      exact ⟨run, congrArg FUnit.fenced unit', congrArg FUnit.fences unit'⟩
    · rw [run, State.fenceUnit, if_pos (.inr fenced)]
  case pools =>
    intro s c src kind unit hc
    simp only [List.mem_cons, List.not_mem_nil, or_false, Prod.mk.injEq] at hc
    refine ⟨fun hk hu => ?_, fun hk other => ?_⟩
    · rcases hc with ⟨rfl, rfl⟩ | ⟨rfl, rfl⟩
      · simp only [exec, execStallDetectorTimeout, if_pos (And.intro hk hu)]
      · simp only [exec, execParityError, if_pos (And.intro hk hu)]
    · have pool : ¬(kind = 11 ∧ unit < 2) := fun h => other h.1
      rcases hc with ⟨rfl, rfl⟩ | ⟨rfl, rfl⟩
      · simp only [exec, execStallDetectorTimeout, if_neg pool, if_neg (Nat.not_le.mpr hk)]
      · simp only [exec, execParityError, if_neg pool, if_neg (Nat.not_le.mpr hk)]
  case corrected =>
    intro s kind unit rid addr ok flash new room below
    obtain ⟨counted, e, ring, cls, source, kind', unit', action, detail, time, count⟩ :=
      event_corrected (action := 0) (part := 0xFF) (detail := addr) new room below
    refine ⟨s.event 0 2 kind 0 unit 0xFF addr, e, ?_, ring, cls, source, kind', unit', action, detail, time, count, counted, by simp, by simp⟩
    simp only [exec, execEccError, ok, if_neg flash, Bool.not_true, Bool.false_eq_true, if_false, if_true]
  case engine =>
    intro s unit rid addr ok
    refine ⟨s.eccEngine unit rid addr, ?_, ?_⟩
    · simp [exec, execEccError, ok]
    · have damaged := isDamaged_damage s.mem addr
      unfold State.eccEngine
      dsimp only
      split_ifs
      · exact ⟨damaged, fun a => rfl, rfl, rfl⟩
      · refine ⟨?_, fun a => ?_, ?_, ?_⟩
        · simpa using damaged
        · simp [read_damage]
        · simp
        · exact congrArg FUnit.fenced (State.funit_event _ 6 unit _ _ _ _ _ _ _)
  case phases =>
    intro s kind unit rid addr r ok hk found
    have run : exec (.eccError kind unit 1 rid addr) s = .next (s.eccContained kind unit rid addr) := by
      simp [exec, execEccError, ok, show kind ≠ 10 by omega, show kind ≠ 11 by omega, show kind ≠ 13 by omega, show kind ≠ 7 by omega,
        show kind ≠ 8 by omega, show kind ≠ 6 by omega]
    refine ⟨fun first => ⟨_, run, ?_⟩, fun second noQuery host short hp live => ⟨_, run, ?_⟩⟩
    · unfold State.eccContained
      rw [found]
      dsimp only
      rw [if_neg first]
      have noted := (Calm.refl s).event (cls := 1) (b := 3) (c := kind) (d := 0) (e := unit) (f := r.part) (g := addr)
      refine ⟨kvGet?_modRec (noted.recGet found) _, by simp, ?_⟩
      exact congrArg FUnit.fenced (State.funit_event s kind unit _ _ _ _ _ _ _)
    · unfold State.eccContained
      rw [found]
      dsimp only
      rw [if_pos second]
      have noted := (Calm.refl s).event (cls := 1) (b := 3) (c := kind) (d := 4) (e := unit) (f := r.part) (g := addr)
      refine .after noted.sent (cutShort_completes (noted.recGet found) (by simpa using noQuery) host short ?_ (by decide))
      rwa [noted.pstate hp]
  case memory =>
    intro s kind unit rid addr ok hk
    refine ⟨s.eccMemory kind unit rid addr, ?_, ?_⟩
    · have kinds : kind = 7 ∨ kind = 8 := by omega
      simp [exec, execEccError, ok, show kind ≠ 10 by omega, show kind ≠ 11 by omega, show kind ≠ 13 by omega, kinds]
    · have damaged := isDamaged_damage s.mem addr
      have few : kind = 7 → ∀ (part : Nat), (((kvGetD [] unit ((s.modMem (fun m => m.damage (addr / eccBytes * eccBytes) eccBytes)).event 1 3 kind 0
          unit part addr).flt.badReads).filter (fun t => decide (s.now < t + 1000000))) ++ [s.now]).length ≤ 8 := by
        intro is part
        have short := hk.resolve_left (by omega)
        rw [State.badReads_event, List.length_append]
        have filtered := List.length_filter_le (fun t => decide (s.now < t + 1000000)) (kvGetD [] unit s.flt.badReads)
        exact Nat.succ_le_of_lt (filtered.trans_lt short.2)
      have counts : ∀ part, s.now = ((s.modMem (fun m => m.damage (addr / eccBytes * eccBytes) eccBytes)).event 1 3 kind 0 unit part addr).now :=
          by simp
      unfold State.eccMemory
      dsimp only
      split_ifs with seven over'
      · rw [← counts] at over'
        exact absurd over' (Nat.not_lt.mpr (few seven _))
      · refine ⟨by simpa using damaged, fun a => ?_, by simp⟩
        simp [read_damage]
      · refine ⟨by simpa using damaged, fun a => ?_, by simp⟩
        simp [read_damage]
  case channel =>
    intro s c hc free
    have ok : unitOk 7 c = true := by simpa [unitOk, unitCount] using hc
    exact ⟨rfl, congrArg FUnit.fenced (fenceUnit_funit s (src := 7) (by decide) ok free)⟩
  case fenced =>
    intro s c h
    simp only [exec, execTierAChannelFence, State.fenceUnit, if_pos (Or.inr h)]
  case lost =>
    intro s c hc free
    have run : exec (.tierBChannelLost c) s = .next (((s.modUnit 8 c (fun u => { u with fenced := true })).modMem
        (fun m => { m with lostB := m.lostB ++ [c] })).reportFence 7 8 c 0xFF 0) := by
      simp only [exec, execTierBChannelLost, if_neg (show ¬(16 ≤ c ∨ s.isFenced 8 c = true) by simp [free, hc])]
    have unit' := reportFence_funit ((s.modUnit 8 c (fun u => { u with fenced := true })).modMem (fun m => { m with lostB := m.lostB ++ [c] }))
        7 8 c 0xFF 0
    have marked : ((s.modUnit 8 c (fun u => { u with fenced := true })).modMem (fun m => { m with lostB := m.lostB ++ [c] })).funit 8 c =
        { s.funit 8 c with fenced := true } := s.funit_modUnit_self 8 c (fun u => { u with fenced := true })
    rw [marked] at unit'
    refine ⟨_, run, congrArg FUnit.fenced unit', ?_, fun a => ?_, ?_, congrArg FUnit.fences unit'⟩
    · simp [State.reportFence, State.modUnit]
    · simp [State.reportFence, State.modUnit]
      rfl
    · simp [State.reportFence, State.modUnit]
  case gone =>
    intro s c h
    simp only [exec, execTierBChannelLost, if_pos h]
  case fatal =>
    intro s c l rid addr hc
    have run : exec c s = .next (s.fatalStop 7 13 0) ∨ exec c s = .next (s.fatalStop 3 13 0) := by
      simp only [List.mem_cons, List.not_mem_nil, or_false] at hc
      rcases hc with rfl | rfl
      · exact .inl rfl
      · exact .inr rfl
    refine ⟨fun stopped => ?_, fun running => ?_⟩
    · rcases run with h | h <;> rw [h, fatalStop_stopped stopped]
    · have effect : ∃ src, exec c s = .next (s.fatalStop src 13 0) := by
        rcases run with h | h
        · exact ⟨_, h⟩
        · exact ⟨_, h⟩
      obtain ⟨src, effect⟩ := effect
      obtain ⟨stopped, fatal, sent⟩ := fatalStop_running (src := src) (kind := 13) (unit := 0) running
      refine ⟨_, effect, stopped, fatal, fun i r hr noQuery host short hp live => ?_⟩
      have found : kvGet? i s.recs = some r := by simp [hr, kvGet?]
      exact (cutShort_completes found noQuery host short live (by decide)).mono (sent i r hr)

end Sys2Proof.Machine
end

section
set_option Elab.async false
/-! SUPPORT. Trim settings, calibration and the logbook (spec/17). -/

namespace Sys2Proof.Machine

/-! ### What is refused is reported -/

theorem accessErr_locked (s : State) (pf off : Nat) :
    (s.accessErr fNodeAccessErr_LOCKED_WRITE pf off).fld rNodeAccessErr fNodeAccessErr_LOCKED_WRITE = 1 := by
  unfold State.accessErr State.fld
  rw [State.reg_setReg, if_pos rfl, Fld.get_put_above (by decide) (by decide), Fld.get_put_above (by decide) (by decide), Fld.get_put _ _ _
      (by decide)]
  decide

section
variable (s : State) (c : Prop) [Decidable c] (bit : Fld) (pf off : Nat)

/-- A report of an access leaves the registers of the trim and calibration blocks. -/
theorem fldPf_noted (o : Nat) (f : Fld) (high : 0x40 < o) : (if c then s else s.accessErr bit pf off).fldPf pf o f = s.fldPf pf o f := by
  split
  · rfl
  · have other : pfKey pf o ≠ rNodeAccessErr := by unfold pfKey rNodeAccessErr; omega
    unfold State.fldPf State.regPf State.accessErr State.setReg
    split
    · simp only [State.putRegs_reads, kvGet?_del_ne other]
    · simp only [State.putRegs_reads, kvGet?_put_ne other]

theorem noted_reads {α : Type} (π : State → α) (same : ∀ (t : State) (w : Word), π (t.setReg rNodeAccessErr w) = π t) :
    π (if c then s else s.accessErr bit pf off) = π s := by
  split
  · rfl
  · exact same s _

end

/-! ### The trim units -/

theorem State.trim_modTrim_self (s : State) (l n : Nat) (f : TrimUnit → TrimUnit) : (s.modTrim l n f).trim l n = f (s.trim l n) := by
  simp [State.modTrim, State.trim, kvGetD]

/-! ### The logbook -/

theorem State.reg_logAppend_of_ne (s : State) {x : Nat} (kind : Nat) (bs : List Byte) (status : x ≠ rLogStatus) (next : x ≠ rLogNextSeq)
    (dropped : x ≠ rLogDropped) : (s.logAppend kind bs).reg x = s.reg x := by
  have marked : ∀ (t : State) (f : Fld) (v : Nat), (t.setFld rLogStatus f v).reg x = t.reg x := fun t f v => State.reg_setReg_of_ne t _ status
  have reserved : ∀ (t : State) (c : Prop) [Decidable c], (if c then t.setFld rLogStatus fLogStatus_RESERVE 1 else t).reg x = t.reg x :=
      fun t c _ => by
    split
    · exact marked _ _ _
    · rfl
  unfold State.logAppend
  dsimp only
  split
  · rw [State.reg_setReg_of_ne _ _ dropped]
    split
    · exact reserved _ _
    · rw [marked]
      exact reserved _ _
  · rw [marked, marked, reserved, State.reg_setReg_of_ne _ _ next]
    exact reserved _ _

/-- A short record joins a logbook below its reserve. -/
theorem State.log_logAppend (s : State) (kind : Nat) (bs : List Byte) (room : s.logUsed < 60 * 1048576) (short : recLen bs ≤ 4 * 1048576) :
    (s.logAppend kind bs).log = s.log ++ [LogRec.mk (s.reg rLogNextSeq).toNat s.now (s.reg rLogBoots).toNat kind bs] := by
  have below : decide (60 * 1048576 ≤ s.logUsed) = false := decide_eq_false (by omega)
  have fits : decide (s.logUsed + recLen bs ≤ 64 * 1048576) = true := decide_eq_true (by omega)
  unfold State.logAppend
  dsimp only
  rw [below, fits]
  simp only [Bool.not_true, Bool.false_and, Bool.or_false, Bool.false_eq_true, if_false]
  split_ifs <;> simp

/-! ### The lifetime totals -/

theorem toNat_reg_addReg (s : State) (o n : Nat) : ((s.addReg o n).reg o).toNat = min (2 ^ 64 - 1) ((s.reg o).toNat + n) := by
  unfold State.addReg
  rw [State.reg_setReg, if_pos rfl, BitVec.toNat_ofNat, Nat.mod_eq_of_lt (by omega)]

theorem reg_addReg_of_ne (s : State) {o x : Nat} (n : Nat) (ne : x ≠ o) : (s.addReg o n).reg x = s.reg x := State.reg_setReg_of_ne s _ ne

section
variable {reg : Nat → Nat} (inj : ∀ i j, reg i = reg j → i = j)

theorem reg_addBins_other {x : Nat} (s : State) (secs : List Nat) (other : ∀ i, i < secs.length → x ≠ reg i) :
    (s.addBins reg secs).reg x = s.reg x :=
  List.foldlRecOn (motive := fun t : State => t.reg x = s.reg x) _ _ rfl fun t ih y hy =>
    (reg_addReg_of_ne t _ (other y.2 (by simpa using List.snd_lt_of_mem_zipIdx hy))).trans ih

include inj in
theorem reg_addBins_from (secs : List Nat) : ∀ (s : State) (k : Nat),
    (∀ i, i < k → ((secs.zipIdx k).foldl (fun (t : State) x => t.addReg (reg x.2) x.1) s).reg (reg i) = s.reg (reg i)) ∧
    ∀ i, i < secs.length → (((secs.zipIdx k).foldl (fun (t : State) x => t.addReg (reg x.2) x.1) s).reg (reg (k + i))).toNat =
      min (2 ^ 64 - 1) ((s.reg (reg (k + i))).toNat + secs.getD i 0) := by
  induction secs with
  | nil => exact fun s k => ⟨fun _ _ => rfl, fun _ h => absurd h (Nat.not_lt_zero _)⟩
  | cons n secs ih =>
    intro s k
    obtain ⟨before, after⟩ := ih (s.addReg (reg k) n) (k + 1)
    have apart : ∀ i, i ≠ k → (s.addReg (reg k) n).reg (reg i) = s.reg (reg i) := fun i ne => reg_addReg_of_ne s n fun e => ne (inj i k e)
    rw [List.zipIdx_cons, List.foldl_cons]
    refine ⟨fun i hi => (before i (by omega)).trans (apart i (by omega)), fun i hi => ?_⟩
    cases i with
    | zero =>
      have first := congrArg BitVec.toNat (before k (by omega))
      rw [toNat_reg_addReg] at first
      exact first
    | succ i =>
      have later := after i (by simpa using hi)
      rw [show k + 1 + i = k + (i + 1) by omega, apart _ (by omega)] at later
      simpa using later

include inj in
/-- Each total takes the seconds of its bin, up to its limit. -/
theorem reg_addBins (s : State) (secs : List Nat) {i : Nat} (hi : i < secs.length) :
    ((s.addBins reg secs).reg (reg i)).toNat = min (2 ^ 64 - 1) ((s.reg (reg i)).toNat + secs.getD i 0) := by
  have from0 := (reg_addBins_from inj secs s 0).2 i hi
  rwa [Nat.zero_add] at from0

end

theorem addBins_view {α : Type} (π : State → α) (same : ∀ (t : State) (o : Nat) (w : Word), π (t.setReg o w) = π t) (s : State) (reg : Nat → Nat)
    (secs : List Nat) : π (s.addBins reg secs) = π s :=
  List.foldlRecOn (motive := fun t : State => π t = π s) _ _ rfl fun t ih _ _ => (same t _ _).trans ih

/-- The corrected faults of the hour, each with a record of its own. -/
theorem logHour_view {α : Type} (π : State → α) (same : ∀ (t : State) (bs : List Byte), π (t.logAppend lkCorrected bs) = π t) (s : State)
    (hour : List (Nat × Nat × Nat × Nat)) : π (hour.foldl (fun (t : State) k => t.logAppend lkCorrected (correctedPayload k)) s) = π s :=
  List.foldlRecOn (motive := fun t : State => π t = π s) _ _ rfl fun t ih _ _ => (same t _).trans ih

theorem State.reg_modFlt (s : State) (f : Faults → Faults) (x : Nat) : (s.modFlt f).reg x = s.reg x := by
  simp only [State.reg, State.modFlt_eq, State.putFlt_reads]

theorem State.hour_logAppend (s : State) (kind : Nat) (bs : List Byte) : (s.logAppend kind bs).flt.hour = s.flt.hour := by
  unfold State.logAppend
  dsimp only
  split_ifs <;> simp

/-! ### Calibration -/

/-- What a calibration offset changes of the calibration: its own item. -/
theorem calU_setCal (s : State) (i : Nat) (u : Int) (source : Nat) :
    (s.setCal i u source).calU i = u ∧ (∀ j, j ≠ i → (s.setCal i u source).calU j = s.calU j) ∧ (s.setCal i u source).sec = s.sec ∧
    (s.setCal i u source).mem = s.mem := by
  have moved : ∀ (l : Nat) (a b : Int), (s.moveBase l a b).cal = s.cal ∧ (s.moveBase l a b).sec = s.sec ∧ (s.moveBase l a b).mem = s.mem := by
    intro l a b
    unfold State.moveBase State.modTrim
    dsimp only
    split <;> simp
  have based : ∀ (c : Prop) [Decidable c] (l : Nat) (a b : Int), (if c then s.moveBase l a b else s).cal = s.cal ∧
      (if c then s.moveBase l a b else s).sec = s.sec ∧ (if c then s.moveBase l a b else s).mem = s.mem := by
    intro c _ l a b
    split
    · exact moved l a b
    · exact ⟨rfl, rfl, rfl⟩
  unfold State.setCal
  by_cases same : u = s.calU i
  · rw [if_pos same]
    exact ⟨same.symm, fun _ _ => rfl, rfl, rfl⟩
  · rw [if_neg same]
    dsimp only
    obtain ⟨cal, sec, mem⟩ := based (16 ≤ i ∧ i ≤ 287) (i - 16) (s.calU i) u
    generalize (if 16 ≤ i ∧ i ≤ 287 then s.moveBase (i - 16) (s.calU i) u else s) = t at cal sec mem
    have item : ∀ j, kvGetD 0 j (if u = 0 then kvDel i t.cal else kvPut i u t.cal) = if j = i then u else s.calU j := by
      intro j
      unfold State.calU kvGetD
      rw [cal]
      by_cases zero : u = 0
      · rw [if_pos zero, kvGet?_del]
        split <;> simp [zero]
      · rw [if_neg zero, kvGet?_put]
        split <;> simp
    have read : ∀ (m : KV Int) (bs : List Byte) (j : Nat), ((t.putCal m).logAppend lkCalibration bs).calU j = kvGetD 0 j m := fun m bs j =>
      Eq.trans (b := (t.putCal m).calU j) (by simp) rfl
    refine ⟨?_, fun j ne => ?_, by simpa using sec, by simpa using mem⟩
    · rw [read, item, if_pos rfl]
    · rw [read, item, if_neg ne]

theorem measure_total (s : State) (slot kind outcome part serial : Nat) (d : List Byte) :
    (s.measure slot kind outcome part serial d).sec.total = s.sec.total + 1 ∧ (s.measure slot kind outcome part serial d).mem = s.mem ∧
    (s.measure slot kind outcome part serial d).cal = s.cal := by
  have cal : (s.putDigest (rSecSlot slot) (extendSlot (s.slotBytes slot) d)).cal = s.cal := by simp [State.putDigest]
  unfold State.measure State.logMeasure
  dsimp only
  split_ifs <;> simp [cal]

/-- The sequence number from which reading goes on: of the first record not read, or past the last. -/
def readOn (all : List LogRec) (k past : Nat) : Nat :=
  match all[k]? with
  | some x => x.seq
  | none => past

/-- Settles O50. -/
theorem trimSettingsAndLog : Obligations.TrimSettingsAndLog := by
  refine ⟨?limits, ?offset, ?mirror, ?hourly, ?read, ?refused⟩
  case limits =>
    intro s pf l n w lo hi sel hlo hhi
    subst hlo hhi
    obtain ⟨v, hv⟩ : ∃ v, v = (if w &&& rsvMask rTrmUnitLimits = 0 then s else s.accessErr fNodeAccessErr_RSV_WRITE pf rTrmUnitLimits) := ⟨_, rfl⟩
    have trims : v.trims = s.trims := hv ▸ noted_reads s _ _ pf _ (fun t => t.trims) fun _ _ => rfl
    have mem : v.mem = s.mem := hv ▸ noted_reads s _ _ pf _ (fun t => t.mem) fun _ _ => rfl
    have out : v.out = s.out := hv ▸ noted_reads s _ _ pf _ (fun t => t.out) fun _ _ => rfl
    have unit' : v.trim l n = s.trim l n := congrArg (kvGetD (trimDefault l n) (l * 512 + n)) trims
    have sel' : v.trimSel pf = some (l, n) := by
      rw [← sel, hv]
      unfold State.trimSel
      rw [fldPf_noted _ _ _ _ _ _ _ (by decide), fldPf_noted _ _ _ _ _ _ _ (by decide)]
    have run : exec (.trmUnitLimitsWrite pf w) s = .next (if (s.trim l n).owned then v.accessErr fNodeAccessErr_LOCKED_WRITE pf rTrmUnitLimits
        else if trimOk l (s.trim l n).target (signedOf 32 (fTrmUnitLimits_LIMIT_LO.get w)) (signedOf 32 (fTrmUnitLimits_LIMIT_HI.get w)) then
          v.modTrim l n (fun u => { u with lo := signedOf 32 (fTrmUnitLimits_LIMIT_LO.get w), hi := signedOf 32 (fTrmUnitLimits_LIMIT_HI.get w) })
        else v.modTrim l n (fun u => { u with cfgErr := true })) := by
      simp only [exec, execTrmUnitLimitsWrite, State.writeTrim, ← hv, sel', unit']
    refine ⟨fun free ok => ⟨_, run, ?_⟩, fun free bad => ⟨_, run, ?_⟩, fun owned => ⟨_, run, ?_⟩⟩
    · rw [if_neg (by simp [free]), if_pos ok, State.trim_modTrim_self, unit']
      exact ⟨rfl, mem, out⟩
    · rw [if_neg (by simp [free]), if_neg (by simp [bad]), State.trim_modTrim_self, unit']
      exact ⟨rfl, mem, out⟩
    · rw [if_pos owned]
      exact ⟨by simpa [State.accessErr] using trims, accessErr_locked v pf _, by simpa [State.accessErr] using mem,
          by simpa [State.accessErr] using out⟩
  case offset =>
    intro s pf i w hi
    obtain ⟨v, hv⟩ : ∃ v, v = (if w &&& rsvMask rTrmCalOffset = 0 then s else s.accessErr fNodeAccessErr_RSV_WRITE pf rTrmCalOffset) := ⟨_, rfl⟩
    have item : v.fldPf pf rTrmCalSel fTrmCalSel_ITEM = i := by
      rw [hi, hv]
      exact fldPf_noted s _ _ _ _ _ _ (by decide)
    have view : ∀ {α : Type} (π : State → α), (∀ (t : State) (x : Word), π (t.setReg rNodeAccessErr x) = π t) → π v = π s :=
      fun π same => hv ▸ noted_reads s _ _ pf _ π same
    have owned : v.owned = s.owned := view (fun t => t.owned) fun _ _ => rfl
    have run : exec (.trmCalOffsetWrite pf w) s = (if calItem i = false then .next v
        else if s.owned.contains (calKey i) then .next (v.accessErr fNodeAccessErr_LOCKED_WRITE pf rTrmCalOffset)
        else .next ((v.measure 18 11 0 (32 * pf) i (calDigest i (signedOf 32 (fTrmCalOffset_U.get w)))).setCal i
            (signedOf 32 (fTrmCalOffset_U.get w)) 0)) := by
      simp only [exec, execTrmCalOffsetWrite, ← hv, item, owned]
    refine ⟨fun known free => ?_, fun known held => ?_, fun unknown => ?_⟩
    · refine ⟨_, run.trans (by rw [if_neg (by simp [known]), if_neg (by rw [free]; decide)]), ?_⟩
      obtain ⟨total, mem, cal⟩ := measure_total v 18 11 0 (32 * pf) i (calDigest i (signedOf 32 (fTrmCalOffset_U.get w)))
      obtain ⟨self, others, sec, mem'⟩ := calU_setCal (v.measure 18 11 0 (32 * pf) i (calDigest i (signedOf 32 (fTrmCalOffset_U.get w)))) i
        (signedOf 32 (fTrmCalOffset_U.get w)) 0
      refine ⟨self, fun j ne => (others j ne).trans (congrArg (kvGetD 0 j) (cal.trans (view (fun t => t.cal) fun _ _ => rfl))), ?_, ?_⟩
      · rw [sec, total, view (fun t => t.sec) fun _ _ => rfl]
      · rw [mem', mem]
        exact view (fun t => t.mem) fun _ _ => rfl
    · refine ⟨_, run.trans (by rw [if_neg (by simp [known]), if_pos held]), ?_, ?_, accessErr_locked v pf _⟩
      · simpa [State.accessErr] using view (fun t => t.cal) fun _ _ => rfl
      · simpa [State.accessErr] using view (fun t => t.sec) fun _ _ => rfl
    · exact ⟨v, run.trans (by rw [if_pos unknown]), view (fun t => t.cal) fun _ _ => rfl, view (fun t => t.sec) fun _ _ => rfl⟩
  case mirror =>
    intro s
    refine ⟨_, rfl, ?_, ?_, by simp, by simp, by simp⟩
    · rw [State.fld_setFld _ _ _ _ (by decide)]
      decide
    · intro o ho
      exact State.reg_setReg_of_ne s _ (by simpa using ho)
  case hourly =>
    intro s temps volts
    obtain ⟨ts, hts⟩ : ∃ ts, ts = (List.range 7).map (fun i => temps.getD i 0) := ⟨_, rfl⟩
    obtain ⟨vs, hvs⟩ : ∃ vs, vs = (List.range 6).map (fun i => volts.getD i 0) := ⟨_, rfl⟩
    obtain ⟨u, hu⟩ : ∃ u, u = s.logAppend lkBins ((ts ++ vs).flatMap (leBytes 4)) := ⟨_, rfl⟩
    obtain ⟨v, hv⟩ : ∃ v, v = (u.addBins rLogTbin ts).addBins rLogVbin vs := ⟨_, rfl⟩
    have run : exec (.logHourly temps volts) s =
        .next ((v.flt.hour.foldl (fun (t : State) k => t.logAppend lkCorrected (correctedPayload k)) v).modFlt (fun f => { f with hour := [] })) := by
      subst hts hvs hu hv
      rfl
    have bin : ∀ x, x ≠ rLogStatus → x ≠ rLogNextSeq → x ≠ rLogDropped →
        ((v.flt.hour.foldl (fun (t : State) k => t.logAppend lkCorrected (correctedPayload k)) v).modFlt
            (fun f => { f with hour := [] })).reg x = v.reg x := by
      intro x h1 h2 h3
      rw [State.reg_modFlt]
      exact logHour_view (fun t => t.reg x) (fun t bs => t.reg_logAppend_of_ne _ bs h1 h2 h3) v _
    have view : ∀ {α : Type} (π : State → α), (∀ (t : State) (o : Nat) (w : Word), π (t.setReg o w) = π t) →
        (∀ (t : State) (k : Nat) (bs : List Byte), π (t.logAppend k bs) = π t) →
        π (v.flt.hour.foldl (fun (t : State) k => t.logAppend lkCorrected (correctedPayload k)) v) = π s := by
      intro α π same logged
      rw [logHour_view π (fun t bs => logged t _ bs), hv, addBins_view π same, addBins_view π same, hu, logged]
    refine ⟨_, run, by simp, ?_, ?_, fun i hi => ?_, fun i hi => ?_, fun quiet room => ?_⟩
    · simpa using view (fun t => t.mem) (fun _ _ _ => rfl) fun t k bs => by simp
    · simpa using view (fun t => t.out) (fun _ _ _ => rfl) fun t k bs => by simp
    · have apart : ∀ j, j < vs.length → rLogTbin i ≠ rLogVbin j := fun j _ => by unfold rLogTbin rLogVbin; omega
      have total := reg_addBins (reg := rLogTbin) (fun a b e => by unfold rLogTbin at e; omega) u ts (i := i) (by simpa [hts] using hi)
      rw [bin _ (by unfold rLogTbin rLogStatus; omega) (by unfold rLogTbin rLogNextSeq; omega) (by unfold rLogTbin rLogDropped; omega), hv,
        reg_addBins_other _ _ apart, total, hu, State.reg_logAppend_of_ne _ _ _ (by unfold rLogTbin rLogStatus; omega)
        (by unfold rLogTbin rLogNextSeq; omega) (by unfold rLogTbin rLogDropped; omega)]
      simp [hts, hi]
    · have apart : ∀ j, j < ts.length → rLogVbin i ≠ rLogTbin j := fun j hj => by
        rw [hts, List.length_map, List.length_range] at hj
        unfold rLogTbin rLogVbin
        omega
      have total := reg_addBins (reg := rLogVbin) (fun a b e => by unfold rLogVbin at e; omega) (u.addBins rLogTbin ts) vs (i := i)
        (by simpa [hvs] using hi)
      rw [bin _ (by unfold rLogVbin rLogStatus; omega) (by unfold rLogVbin rLogNextSeq; omega) (by unfold rLogVbin rLogDropped; omega), hv, total,
        reg_addBins_other _ _ apart, hu, State.reg_logAppend_of_ne _ _ _ (by unfold rLogVbin rLogStatus; omega)
        (by unfold rLogVbin rLogNextSeq; omega) (by unfold rLogVbin rLogDropped; omega)]
      simp [hvs, hi]
    · have hour : v.flt.hour = [] := by
        rw [hv, addBins_view (fun t => t.flt.hour) fun _ _ _ => rfl, addBins_view (fun t => t.flt.hour) fun _ _ _ => rfl, hu,
            State.hour_logAppend, quiet]
      have short : recLen ((ts ++ vs).flatMap (leBytes 4)) ≤ 4 * 1048576 := by
        have bytes : ((ts ++ vs).flatMap (leBytes 4)).length = 52 := by simp [hts, hvs, Function.comp_def, Tests.length_leBytes]
        rw [recLen, bytes]
        decide
      rw [hour]
      have log : v.log = u.log := by
        rw [hv, addBins_view (fun t => t.log) fun _ _ _ => rfl, addBins_view (fun t => t.log) fun _ _ _ => rfl]
      have final : (([].foldl (fun (t : State) k => t.logAppend lkCorrected (correctedPayload k)) v).modFlt
          (fun f => { f with hour := [] })).log = v.log := by
        simp
      rw [← hts, ← hvs]
      exact final.trans (log.trans (hu ▸ State.log_logAppend s lkBins _ room short))
  case read =>
    intro s p q cid rid n r l all rs may long running hn a0 a8 lo hi n8 ok plain hall hrs
    subst hn hall hrs
    have pass : (s.named r).logReadCheck p r.cmd = none := by
      unfold State.logReadCheck
      dsimp only
      rw [if_neg (by omega), if_neg (by simp [ok])]
    generalize hall : s.log.filter (fun x => decide (r.cmd.param 0 8 ≤ x.seq) && (r.cmd.param 12 2 == 0 || x.kind == r.cmd.param 12 2)) = all
    refine ⟨readOn all (takeRecs (r.cmd.param 8 4) all).length (max (r.cmd.param 0 8) (s.reg rLogNextSeq).toNat), ?_, ?_, ?_, ?_⟩
    · simp only [exec, execLogRead, may.1, long, Option.map_some, running, ne_eq, not_true_eq_false, if_false, pass, hall]
      rfl
    · have done := may.completes (Extends.refl s) may.2.1 may.2.2 p scDone 0 (takeRecs (r.cmd.param 8 4) all).length
        (readOn all (takeRecs (r.cmd.param 8 4) all).length (max (r.cmd.param 0 8) (s.reg rLogNextSeq).toNat))
        ((takeRecs (r.cmd.param 8 4) all).flatMap LogRec.bytes).length ((takeRecs (r.cmd.param 8 4) all).flatMap LogRec.bytes) (.inl plain)
      rwa [finalCount_done] at done
    · intro whole
      unfold readOn
      rw [List.getElem?_eq_none (by omega)]
    · intro x hx
      unfold readOn
      rw [hx]
  case refused =>
    intro s p q cid rid st r l may long running bad
    refine ⟨s.fail p rid st, ?_, may.failed (.refl s) may.2.1 may.2.2 (.inl (by decide))⟩
    simp [exec, execLogRead, may.1, long, running, bad]

end Sys2Proof.Machine
end

section
set_option Elab.async false
/-! SUPPORT. Power-on and the node warm resets (spec/18): the stages of boot leave requests, time, keys and the fields of the status registers that
they do not report. -/

namespace Sys2Proof.Machine

/-- What no stage of boot changes. -/
def State.idle (s : State) : KV Rec × KV Ctx × KV Queue × Word × Bool × List (Nat × List Byte) × Bool :=
  (s.recs, s.ctxs, s.queues, s.time, s.flt.stopped, s.sec.keys, s.board.power)

/-- What the stages of boot report before its end: the copy that runs, the cause of the reset, and holdover. -/
def State.marks (s : State) : Nat × Nat × Nat :=
  (s.fld rNodeStatus fNodeStatus_FW_COPY, s.fld rNodeStatus fNodeStatus_LAST_RESET, s.fld rNodeTimeStatus fNodeTimeStatus_HOLDOVER)

/-- `t` follows `b` by stages of boot; with `m`, these are its marks. -/
structure Booting (m : Option (Nat × Nat × Nat)) (b t : State) : Prop where
  idle : t.idle = b.idle
  log : b.log <+: t.log
  marks : ∀ x, m = some x → t.marks = x

theorem log_logAppend_prefix (s : State) (kind : Nat) (bs : List Byte) : s.log <+: (s.logAppend kind bs).log := by
  unfold State.logAppend
  dsimp only
  split_ifs <;> simp

section
variable (s : State)

theorem State.log_markSat (o : Nat) : (s.markSat o).log = s.log := by
  unfold State.markSat
  split <;> simp

theorem State.log_rawBump (o n : Nat) : (s.rawBump o n).1.log = s.log := by simp [State.rawBump]

theorem State.log_drogue (a b : Nat) : (s.drogue a b).1.log = s.log := by
  unfold State.drogue
  dsimp only
  split_ifs
  · rfl
  · simp [State.latch]
  · simp
  · rw [State.log_markSat, State.log_rawBump]
  · rw [State.log_rawBump]

theorem State.log_addLost (a b : Nat) : (s.addLost a b).log = s.log := by
  unfold State.addLost
  split_ifs <;> simp

theorem State.log_eventIrq (a b : Nat) : (s.eventIrq a b).log = s.log := by
  unfold State.eventIrq State.sendMsix
  dsimp only
  split_ifs <;> simp [State.clearCoal]

theorem log_evPlace_prefix (a b c d e f g : Nat) : s.log <+: (s.evPlace a b c d e f g).log := by
  have tallied : (if a = 0 then s.tallyHour b c e else s).log = s.log := by split <;> simp [State.tallyHour]
  have logged : ∀ (t : State) (bs : List Byte), t.log <+: (if a = 0 then t else t.logAppend lkEvent bs).log := fun t bs => by
    split
    · exact List.prefix_refl _
    · exact log_logAppend_prefix t _ _
  unfold State.evPlace
  generalize (if a = 0 then s.tallyHour b c e else s) = t at tallied
  dsimp only
  rw [← tallied]
  split
  · simp
  · rw [State.log_eventIrq, State.log_eventIrq]
    refine List.IsPrefix.trans ?_ (logged _ _)
    simp [State.log_addLost, State.log_drogue]

theorem log_event_prefix (a b c d e f g : Nat) : s.log <+: (s.event a b c d e f g).log := by
  have counted : (s.evCount a).1.log = s.log := by
    unfold State.evCount
    split_ifs <;> simp [State.log_rawBump]
  have placed := log_evPlace_prefix (s.evCount a).1 a b c d e f g
  have full : ∀ (t : State) (o : Nat), t.log <+: ((t.rawBump cFltCorrected 1).1.evPlace 0 11 13 0 0 0xFF o).log := fun t o => by
    have more := log_evPlace_prefix (t.rawBump cFltCorrected 1).1 0 11 13 0 0 0xFF o
    rwa [State.log_rawBump] at more
  rw [counted] at placed
  unfold State.event
  generalize (if a = 0 then cFltCorrected else cFltContained) = o
  dsimp only
  split
  · split
    · refine placed.trans (List.IsPrefix.trans ?_ (full _ _))
      rw [State.log_markSat]
    · rwa [State.log_markSat]
  · exact placed

end

theorem log_bump_prefix (s : State) (o n : Nat) : s.log <+: (s.bump o n).log := by
  have marked : ((s.rawBump o n).1.markSat o).log = s.log := by rw [State.log_markSat, State.log_rawBump]
  unfold State.bump
  dsimp only
  split
  · split
    · rw [← marked]
      exact log_event_prefix _ _ _ _ _ _ _ _
    · rw [marked]
  · rw [State.log_rawBump]

namespace Booting
variable {m : Option (Nat × Nat × Nat)} {b t u : State}

theorem refl (t : State) : Booting (some t.marks) t t := ⟨rfl, List.prefix_refl _, fun _ h => Option.some.inj h⟩

theorem forget (h : Booting m b t) : Booting none b t := ⟨h.idle, h.log, fun _ e => nomatch e⟩

theorem ite {c : Prop} [Decidable c] (h : Booting m b t) (g : Booting m b u) : Booting m b (if c then t else u) := by
  split
  · exact h
  · exact g

theorem foldl {α : Type} {f : State → α → State} {l : List α} (h : Booting m b t) (step : ∀ u a, Booting m b u → Booting m b (f u a)) :
    Booting m b (l.foldl f t) := List.foldlRecOn l f h fun u g a _ => step u a g

/-- A step that changes nothing of this. -/
theorem of (h : Booting m b t) (idle : u.idle = t.idle) (log : t.log <+: u.log) (marks : u.marks = t.marks) : Booting m b u :=
  ⟨idle.trans h.idle, h.log.trans log, fun x e => marks.trans (h.marks x e)⟩

theorem setReg {o : Nat} {w : Word} (h : Booting m b t) (status : o ≠ rNodeStatus) (time : o ≠ rNodeTimeStatus) : Booting m b (t.setReg o w) := by
  refine h.of (by simp [State.idle]) (by simp) ?_
  unfold State.marks State.fld
  rw [State.reg_setReg_of_ne _ _ status.symm, State.reg_setReg_of_ne _ _ time.symm]

theorem setFld {o v : Nat} {f : Fld} (h : Booting m b t) (status : o ≠ rNodeStatus) (time : o ≠ rNodeTimeStatus) : Booting m b (t.setFld o f v) :=
  h.setReg status time

theorem modFlt {f : Faults → Faults} (h : Booting m b t) (stopped : (f t.flt).stopped = t.flt.stopped) : Booting m b (t.modFlt f) := by
  refine h.of ?_ (by simp) ?_
  · simp [State.idle, stopped]
  · simp only [State.marks, State.fld_modFlt]

theorem modUnit {k n : Nat} {f : FUnit → FUnit} (h : Booting m b t) : Booting m b (t.modUnit k n f) := h.modFlt rfl

theorem putMem {v : MemSys} (h : Booting m b t) : Booting m b (t.putMem v) := h.of rfl (List.prefix_refl _) rfl
theorem modMem {f : MemSys → MemSys} (h : Booting m b t) : Booting m b (t.modMem f) := h.of rfl (List.prefix_refl _) rfl
theorem modFlash {f : Flash → Flash} (h : Booting m b t) : Booting m b (t.modFlash f) := h.of rfl (List.prefix_refl _) rfl
theorem putFree {v : Nat} (h : Booting m b t) : Booting m b (t.putFree v) := h.of rfl (List.prefix_refl _) rfl

theorem putSec {v : Sec} (h : Booting m b t) (keys : v.keys = t.sec.keys) : Booting m b (t.putSec v) :=
  h.of (by simp [State.idle, keys]) (List.prefix_refl _) rfl

theorem putBoard {v : Board} (h : Booting m b t) (power : v.power = t.board.power) : Booting m b (t.putBoard v) :=
  h.of (by simp [State.idle, power]) (List.prefix_refl _) rfl

theorem logAppend {kind : Nat} {bs : List Byte} (h : Booting m b t) : Booting m b (t.logAppend kind bs) := by
  have still := ((Keeps.same t).logAppend (kind := kind) (payload := bs)).still rfl
  unfold State.still at still
  simp only [Prod.mk.injEq] at still
  refine h.of (by simp [State.idle, still]) (log_logAppend_prefix t kind bs) ?_
  unfold State.marks State.fld
  rw [State.reg_logAppend_of_ne _ _ _ (by decide) (by decide) (by decide), State.reg_logAppend_of_ne _ _ _ (by decide) (by decide) (by decide)]

theorem event {a c d e f g i : Nat} (h : Booting m b t) : Booting m b (t.event a c d e f g i) := by
  have still := ((Keeps.same t).event (cls := a) (source := c) (kind := d) (action := e) (unit := f) (part := g) (detail := i)).still rfl
  unfold State.still at still
  simp only [Prod.mk.injEq] at still
  refine h.of ?_ (log_event_prefix t _ _ _ _ _ _ _) ?_
  · simp [State.idle, still]
  · unfold State.marks
    rw [State.fld_event_unreported (unreported_low (by decide)), State.fld_event_unreported (unreported_low (by decide)),
      State.fld_event_unreported (unreported_low (by decide))]

theorem bump {o n : Nat} (h : Booting m b t) : Booting m b (t.bump o n) := by
  have still := ((Keeps.same t).bump (off := o) (n := n)).still rfl
  unfold State.still at still
  simp only [Prod.mk.injEq] at still
  refine h.of ?_ (log_bump_prefix t _ _) ?_
  · simp [State.idle, still]
  · unfold State.marks
    rw [State.fld_bump_unreported (unreported_low (by decide)), State.fld_bump_unreported (unreported_low (by decide)),
      State.fld_bump_unreported (unreported_low (by decide))]

theorem reportFence {src k n part detail : Nat} (h : Booting m b t) : Booting m b (t.reportFence src k n part detail) := by
  unfold State.reportFence
  exact event (bump (modUnit h))

theorem fenceLun {lun : Nat} (h : Booting m b t) : Booting m b (t.fenceLun lun) :=
  ite h (modUnit (event (bump (modUnit h)))).modFlash.logAppend.logAppend

theorem measure {slot kind outcome part serial : Nat} {d : List Byte} (low : slot < 64) (h : Booting m b t) :
    Booting m b (t.measure slot kind outcome part serial d) := by
  have put : Booting m b (t.putDigest (rSecSlot slot) (extendSlot (t.slotBytes slot) d)) :=
    h.foldl fun u w g => g.setReg (by unfold rSecSlot rNodeStatus; omega) (by unfold rSecSlot rNodeTimeStatus; omega)
  unfold State.measure State.logMeasure
  dsimp only
  split_ifs
  · exact put.putSec rfl
  · exact put.putSec rfl
  · exact logAppend (putSec put (by rfl))
  · exact logAppend (putSec put (by rfl))

/-- A stage marks its number, which is none of the marks kept. -/
theorem stage {n : Nat} (h : Booting m b t) : Booting m b (t.setStatus fNodeStatus_BOOT_STAGE n) := by
  refine h.of (by simp [State.idle, State.setStatus]) (by simp [State.setStatus]) ?_
  unfold State.marks State.setStatus
  rw [State.fld_setFld_ne _ (x := rNodeTimeStatus) (by decide)]
  unfold State.fld
  rw [State.reg_setFld_self, Fld.get_put_above (by decide) (by decide), Fld.get_put_above (by decide) (by decide)]

/-- Without marks to keep, any register may be written. -/
theorem write {o v : Nat} {f : Fld} (h : Booting none b t) : Booting none b (t.setFld o f v) :=
  ⟨(by simp [State.idle] : (t.setFld o f v).idle = t.idle).trans h.idle, h.log.trans (by simp), fun _ e => nomatch e⟩

section
variable {a c d v : Nat} (h : Booting (some (a, c, d)) b t)
include h

theorem copy (hv : v < 2) : Booting (some (v, c, d)) b (t.setStatus fNodeStatus_FW_COPY v) := by
  have written := h.forget.write (o := rNodeStatus) (f := fNodeStatus_FW_COPY) (v := v)
  refine ⟨written.idle, written.log, fun x e => ?_⟩
  have marks := h.marks _ rfl
  unfold State.marks at marks ⊢
  unfold State.setStatus
  simp only [Prod.mk.injEq] at marks
  obtain ⟨-, cause, hold⟩ := marks
  rw [State.fld_setFld_ne _ (x := rNodeTimeStatus) (by decide), hold, State.fld_setFld _ _ _ _ (by decide)]
  unfold State.fld at cause ⊢
  rw [State.reg_setFld_self, Fld.get_put_below (by decide) (by decide), cause, show 2 ^ fNodeStatus_FW_COPY.width = 2 by decide, Nat.mod_eq_of_lt hv]
  exact Option.some.inj e

theorem cause (hv : v < 256) : Booting (some (a, v, d)) b (t.setStatus fNodeStatus_LAST_RESET v) := by
  have written := h.forget.write (o := rNodeStatus) (f := fNodeStatus_LAST_RESET) (v := v)
  refine ⟨written.idle, written.log, fun x e => ?_⟩
  have marks := h.marks _ rfl
  unfold State.marks at marks ⊢
  unfold State.setStatus
  simp only [Prod.mk.injEq] at marks
  obtain ⟨copy, -, hold⟩ := marks
  rw [State.fld_setFld_ne _ (x := rNodeTimeStatus) (by decide), hold, State.fld_setFld _ rNodeStatus fNodeStatus_LAST_RESET _ (by decide)]
  unfold State.fld at copy ⊢
  rw [State.reg_setFld_self, Fld.get_put_above (by decide) (by decide), copy, show 2 ^ fNodeStatus_LAST_RESET.width = 256 by decide,
      Nat.mod_eq_of_lt hv]
  exact Option.some.inj e

theorem hold (hv : v < 2) : Booting (some (a, c, v)) b (t.setFld rNodeTimeStatus fNodeTimeStatus_HOLDOVER v) := by
  have written := h.forget.write (o := rNodeTimeStatus) (f := fNodeTimeStatus_HOLDOVER) (v := v)
  refine ⟨written.idle, written.log, fun x e => ?_⟩
  have marks := h.marks _ rfl
  unfold State.marks at marks ⊢
  simp only [Prod.mk.injEq] at marks
  obtain ⟨copy, cause, -⟩ := marks
  rw [State.fld_setFld_ne _ (by decide), State.fld_setFld_ne _ (by decide), copy, cause, State.fld_setFld _ _ _ _ (by decide),
    show 2 ^ fNodeTimeStatus_HOLDOVER.width = 2 by decide, Nat.mod_eq_of_lt hv]
  exact Option.some.inj e

theorem locked : Booting (some (a, c, d)) b (t.setFld rNodeTimeStatus fNodeTimeStatus_LOCKED v) := by
  have written := h.forget.write (o := rNodeTimeStatus) (f := fNodeTimeStatus_LOCKED) (v := v)
  refine ⟨written.idle, written.log, fun x e => ?_⟩
  have marks := h.marks _ rfl
  unfold State.marks at marks ⊢
  simp only [Prod.mk.injEq] at marks
  obtain ⟨copy, cause, hold⟩ := marks
  rw [State.fld_setFld_ne _ (by decide), State.fld_setFld_ne _ (by decide), copy, cause]
  unfold State.fld at hold ⊢
  rw [State.reg_setFld_self, Fld.get_put_below (by decide) (by decide), hold]
  exact Option.some.inj e

end

theorem enterHoldover {src : Nat} (h : Booting none b t) : Booting none b (t.enterHoldover src) :=
  ite h (reportFence (modUnit h.write.write.write)).logAppend

end Booting

/-! ### The stages -/

section
variable {m : Option (Nat × Nat × Nat)} {b t : State} {found : BootFound}

/-- Step 3 on a power-on whose crystal has locked. -/
theorem Booting.stage1_cold (h : Booting m b t) (locked : found.locked = true) :
    Booting (some (if found.copyA then 0 else 1, t.marks.2.1, 0)) b (t.bootStage1 found false) := by
  have marked : Booting (some (t.marks.1, t.marks.2.1, t.marks.2.2)) b t := ⟨h.idle, h.log, fun _ e => Option.some.inj e⟩
  have low : (if found.copyA then 0 else 1) < 2 := by split <;> decide
  unfold State.bootStage1
  generalize (if found.copyA then 0 else 1) = k at low
  have copied := (marked.copy low).measure (slot := 0) (kind := 0) (outcome := 0) (part := 0xFF) (serial := 0)
    (d := sha256 (Config.bootObject 0 k)) (by decide)
  dsimp only
  rw [if_pos Bool.not_false, if_pos locked]
  exact hold (Booting.locked copied) (Nat.zero_lt_two)

/-- Step 3 of a warm reset out of holdover. -/
theorem Booting.stage1_warm {a c : Nat} (h : Booting (some (a, c, 0)) b t) :
    Booting (some (if found.copyA then 0 else 1, c, 0)) b (t.bootStage1 found true) := by
  have low : (if found.copyA then 0 else 1) < 2 := by split <;> decide
  unfold State.bootStage1
  generalize (if found.copyA then 0 else 1) = k at low
  have copied := (h.copy low).measure (slot := 0) (kind := 0) (outcome := 0) (part := 0xFF) (serial := 0)
    (d := sha256 (Config.bootObject 0 k)) (by decide)
  have hold := congrArg (fun x => x.2.2) (copied.marks _ rfl)
  dsimp only [State.marks] at hold
  dsimp only
  rw [hold, if_neg (by decide), if_neg (by decide)]
  exact copied

theorem Booting.stage1 {warm : Bool} (h : Booting none b t) : Booting none b (t.bootStage1 found warm) := by
  have copied := (h.write (o := rNodeStatus) (f := fNodeStatus_FW_COPY) (v := if found.copyA then 0 else 1)).measure (slot := 0) (kind := 0)
    (outcome := 0) (part := 0xFF) (serial := 0) (d := sha256 (Config.bootObject 0 (if found.copyA then 0 else 1))) (by decide)
  exact ite (ite copied.write.write copied.enterHoldover) (ite (reportFence (modUnit copied)) copied)

theorem Booting.bootMeasure (h : Booting m b t) : Booting m b (t.bootMeasure found) := by
  unfold State.bootMeasure
  dsimp only
  refine Booting.foldl (List.foldlRecOn (motive := fun u : State => Booting m b u) _ _ h fun u g k hk => g.measure (by fin_cases hk <;> decide)) ?_
  exact fun u d g => ite (putSec g rfl) (event (putSec g rfl))

theorem Booting.bootPower (h : Booting m b t) : Booting m b t.bootPower := by
  have domain : ∀ (u : State) (d : Nat), Booting m b u → Booting m b (u.powerDomain d true) := fun u d g =>
    setFld (setFld g (by unfold rNodeDomainStatus rNodeStatus; omega) (by unfold rNodeDomainStatus rNodeTimeStatus; omega))
      (by unfold rNodeDomainStatus rNodeStatus; omega) (by unfold rNodeDomainStatus rNodeTimeStatus; omega)
  have powered := h.foldl (l := [0, 1, 2, 3, 4, 5, 6, 7, 12, 13]) domain
  exact setFld (putBoard powered rfl) (by decide) (by decide)

theorem Booting.bootFlash (h : Booting m b t) : Booting m b (t.bootFlash found) := by
  have mapped : ∀ u : State, Booting m b u → Booting m b u.reserveMap := fun u g => ite ((modMem g).foldl fun _ _ k => k.modMem) g
  have discovered : ∀ u : State, Booting m b u → Booting m b u.discoverMedia := by
    intro u g
    unfold State.discoverMedia
    dsimp only
    split
    · exact modFlash g
    · exact ite (modFlash g) (mapped _ (modFlash g))
  have areas : Booting m b t.reserveAreas := by
    unfold State.reserveAreas State.reserve
    exact modMem (modMem h)
  have found' := discovered (t.reserveAreas.modFlash (fun f => { f with geo := foundGeo found.flash found.flashOk })) (modFlash areas)
  have rebuilt := found'.foldl (l := (t.reserveAreas.modFlash
      (fun f => { f with geo := foundGeo found.flash found.flashOk })).discoverMedia.flash.rebuild)
    (f := fun (u : State) l => u.modUnit 10 l (fun x => { x with fenced := true })) fun _ _ k => k.modUnit
  exact ite (rebuilt.foldl fun _ _ k => k.fenceLun) rebuilt

theorem bootTest_sound (sound : found.failed = []) : t.bootTest found = t := by
  simp [State.bootTest, sound]

/-- Stages none of which is the one at which boot stops. -/
theorem bootStages_pass {P : State → Prop} {stopAt : Nat} (mark : ∀ u n, P u → P (u.setStatus fNodeStatus_BOOT_STAGE n)) :
    ∀ (fs : List (Nat × (State → State))) (s : State), (∀ x ∈ fs, x.1 ≠ stopAt) → (∀ x ∈ fs, ∀ u, P u → P (x.2 u)) → P s →
      P (s.bootStages stopAt fs)
  | [], _, _, _, h => h
  | (n, f) :: fs, s, past, step, h => by
    unfold State.bootStages
    dsimp only
    rw [if_neg (past (n, f) List.mem_cons_self)]
    exact bootStages_pass mark fs _ (fun x hx => past x (List.mem_cons_of_mem _ hx)) (fun x hx => step x (List.mem_cons_of_mem _ hx))
      (step (n, f) List.mem_cons_self _ (mark s n h))

/-- The stage at which boot stops. -/
theorem bootStages_stop {P : State → Prop} {stopAt : Nat} (mark : ∀ u n, P u → P (u.setStatus fNodeStatus_BOOT_STAGE n)) :
    ∀ (fs : List (Nat × (State → State))) (s : State), fs.Pairwise (fun x y => x.1 < y.1) → (∃ x ∈ fs, x.1 = stopAt) →
      (∀ x ∈ fs, x.1 < stopAt → ∀ u, P u → P (x.2 u)) → P s →
      ∃ u, P u ∧ s.bootStages stopAt fs = (u.setStatus fNodeStatus_BOOT_STAGE stopAt).fatalStop 12 13 0
  | [], _, _, ⟨_, hx, _⟩, _, _ => absurd hx List.not_mem_nil
  | (n, f) :: fs, s, rising, there, step, h => by
    unfold State.bootStages
    dsimp only
    by_cases here : n = stopAt
    · exact ⟨s, h, by rw [if_pos here, here]⟩
    · rw [if_neg here]
      obtain ⟨x, hx, at'⟩ := there
      have later : x ∈ fs := (List.mem_cons.mp hx).resolve_left fun e => here (by rw [← at', e])
      obtain ⟨first, rest⟩ := List.pairwise_cons.mp rising
      exact bootStages_stop mark fs _ rest ⟨x, later, at'⟩ (fun y hy => step y (List.mem_cons_of_mem _ hy))
        (step (n, f) List.mem_cons_self (at' ▸ first x later) _ (mark s n h))

end

/-! ### The end of boot -/

section
variable {b t : State} {found : BootFound} {cp cause : Nat}

/-- A boot that reached its end: the node is READY, with the marks of its stages. -/
structure Booted (b t : State) (cp cause : Nat) : Prop where
  idle : t.idle = b.idle
  log : b.log <+: t.log
  ready : t.fld rNodeStatus fNodeStatus_READY = 1
  stage : t.fld rNodeStatus fNodeStatus_BOOT_STAGE = 9
  copy : t.fld rNodeStatus fNodeStatus_FW_COPY = cp
  cause : t.fld rNodeStatus fNodeStatus_LAST_RESET = cause

theorem Booting.ready (h : Booting (some (cp, cause, 0)) b t) : Booted b t.bootReady cp cause := by
  have marks := h.marks _ rfl
  simp only [State.marks, Prod.mk.injEq, State.fld] at marks
  obtain ⟨copy, cause', -⟩ := marks
  obtain ⟨ms, hms⟩ : ∃ ms, ms = min (2 ^ 32 - 1) ((t.fresh.2.now - t.fresh.2.board.start) / 1000000 + t.fresh.1.toNat % 10501) := ⟨_, rfl⟩
  obtain ⟨v, hv⟩ : ∃ v, v = ((t.fresh.2.setStatus fNodeStatus_BOOT_STAGE 9).setStatus fNodeStatus_READY_MS ms).setStatus fNodeStatus_READY 1 :=
      ⟨_, rfl⟩
  have made : Booting none b v := hv ▸ Booting.write (Booting.write (Booting.write h.forget.putFree))
  have word : v.reg rNodeStatus = fNodeStatus_READY.put 1 (fNodeStatus_READY_MS.put ms (fNodeStatus_BOOT_STAGE.put 9 (t.reg rNodeStatus))) := by
    subst hv
    unfold State.setStatus
    rw [State.reg_setFld_self, State.reg_setFld_self, State.reg_setFld_self]
    rfl
  have done : t.bootReady = if v.fld rNodeStatus fNodeStatus_LAST_RESET = 0 then v.logPowerOn 0 else v := by
    subst hv hms
    rfl
  have final : Booting none b t.bootReady := done ▸ made.logAppend.ite made
  have reg : t.bootReady.reg rNodeStatus = v.reg rNodeStatus := by
    rw [done]
    split
    · exact State.reg_logAppend_of_ne _ _ _ (by decide) (by decide) (by decide)
    · rfl
  refine ⟨final.idle, final.log, ?_, ?_, ?_, ?_⟩
  all_goals
    unfold State.fld
    rw [reg, word]
  · rw [Fld.get_put _ _ _ (by decide)]
    decide
  · rw [Fld.get_put_below (by decide) (by decide), Fld.get_put_above (by decide) (by decide), Fld.get_put _ _ _ (by decide)]
    decide
  · rw [Fld.get_put_below (by decide) (by decide), Fld.get_put_above (by decide) (by decide), Fld.get_put_above (by decide) (by decide), copy]
  · rw [Fld.get_put_below (by decide) (by decide), Fld.get_put_above (by decide) (by decide), Fld.get_put_above (by decide) (by decide), cause']

/-- A boot that finds nothing amiss, from its step 3 on. -/
theorem boot_done {warm : Bool} (running : b.flt.stopped = false) (copies : found.copyA = true ∨ found.copyB = true) (sound : found.failed = [])
    (past : found.stopAt < 3 ∨ 8 < found.stopAt)
    (first : Booting (some (cp, cause, 0)) b ((t.setStatus fNodeStatus_BOOT_STAGE 3).bootStage1 found warm)) : Booted b (t.boot found warm)
        cp cause := by
  have rest := bootStages_pass (P := Booting (some (cp, cause, 0)) b) (stopAt := found.stopAt) (fun u n h => h.stage)
    [(4, fun t => t.bootMeasure found), (5, State.bootPower), (6, id), (7, fun t => t.bootFlash found), (8, fun t => t.bootTest found)] _
    (by simp; omega) (by
      simp only [List.mem_cons, List.not_mem_nil, or_false, forall_eq_or_imp, forall_eq]
      refine ⟨fun u h => h.bootMeasure, fun u h => h.bootPower, fun u h => h, fun u h => h.bootFlash, fun u h => ?_⟩
      exact (bootTest_sound sound).symm ▸ h) first
  have hold := congrArg (fun x => x.2.2) (rest.marks _ rfl)
  have live := congrArg (fun x : KV Rec × KV Ctx × KV Queue × Word × Bool × List (Nat × List Byte) × Bool => x.2.2.2.2.1) rest.idle
  dsimp only [State.marks, State.idle] at hold live
  unfold State.boot
  rw [if_neg (by rcases copies with h | h <;> simp [h]), State.bootStages]
  dsimp only
  rw [if_neg (show ¬3 = found.stopAt by omega), if_neg (by rw [live, running, hold]; simp)]
  exact rest.ready

/-- A boot that stops at a stage. -/
theorem boot_stopped {warm : Bool} (running : b.flt.stopped = false) (quiet : b.recs = []) (copies : found.copyA = true ∨ found.copyB = true)
    (lo : 3 ≤ found.stopAt) (hi : found.stopAt ≤ 8) (first : Booting none b t) :
    (t.boot found warm).fld rNodeStatus fNodeStatus_BOOT_STAGE = found.stopAt ∧ (t.boot found warm).fld rFltStatus fFltStatus_FATAL = 1 ∧
    (t.boot found warm).flt.stopped = true := by
  obtain ⟨u, hu, stop⟩ := bootStages_stop (P := Booting none b) (stopAt := found.stopAt) (fun u n h => h.stage)
    [(3, fun t => t.bootStage1 found warm), (4, fun t => t.bootMeasure found), (5, State.bootPower), (6, id), (7, fun t => t.bootFlash found),
      (8, fun t => t.bootTest found)] t (by simp) (by simp; omega) (by
      simp only [List.mem_cons, List.not_mem_nil, or_false, forall_eq_or_imp, forall_eq]
      exact ⟨fun _ u h => h.stage1, fun _ u h => h.bootMeasure, fun _ u h => h.bootPower, fun _ u h => h, fun _ u h => h.bootFlash, fun h =>
          absurd h (by omega)⟩)
    first
  have idle := hu.stage (n := found.stopAt).idle
  simp only [State.idle, Prod.mk.injEq] at idle
  obtain ⟨recs, -, -, -, live, -, -⟩ := idle
  generalize hv : u.setStatus fNodeStatus_BOOT_STAGE found.stopAt = v at stop recs live
  obtain ⟨stopped, fatal, -⟩ := fatalStop_running (src := 12) (kind := 13) (unit := 0) (live.trans running)
  have status : (v.fatalStop 12 13 0).fld rNodeStatus fNodeStatus_BOOT_STAGE = found.stopAt := by
    have unsent : (v.fatalStop 12 13 0) = ((v.event 3 12 13 5 0 0xFF 0).setFld rFltStatus fFltStatus_FATAL 1).modFlt
        (fun t => { t with stopped := true }) := by
      unfold State.fatalStop
      rw [if_neg (by simp [live, running]), recs, quiet]
      rfl
    rw [unsent, State.fld_modFlt, State.fld_setFld_ne _ (by decide), State.fld_event_unreported (unreported_low (by decide)), ← hv, State.setStatus,
      State.fld_setFld _ _ _ _ (by decide), show 2 ^ fNodeStatus_BOOT_STAGE.width = 256 by decide]
    omega
  have final : t.boot found warm = v.fatalStop 12 13 0 := by
    unfold State.boot
    rw [if_neg (by rcases copies with h | h <;> simp [h]), stop]
    dsimp only
    rw [if_pos (.inl stopped)]
  rw [final]
  exact ⟨status, fatal, stopped⟩

/-- A boot without a copy of the first stage ends in recovery. -/
theorem boot_recovery {warm : Bool} (none_ : found.copyA = false ∧ found.copyB = false) :
    (t.boot found warm).fld rNodeStatus fNodeStatus_RECOVERY = 1 ∧ (t.boot found warm).fld rNodeStatus fNodeStatus_BOOT_STAGE = 0xF0 ∧
    (t.boot found warm).flt.stopped = true ∧ (t.boot found warm).time = t.time ∧ (t.boot found warm).sec.keys = t.sec.keys := by
  unfold State.boot
  rw [if_pos (by simp [none_])]
  refine ⟨?_, ?_, by simp, by simp [State.setStatus], by simp [State.setStatus]⟩
  · rw [State.fld_modFlt]
    unfold State.setStatus State.fld
    rw [State.reg_setFld_self, Fld.get_put_above (by decide) (by decide), State.reg_setFld_self, Fld.get_put _ _ _ (by decide)]
    decide
  · rw [State.fld_modFlt, State.setStatus, State.fld_setFld _ _ _ _ (by decide)]
    decide

end

section
variable {s : State} {found : BootFound}

theorem accessErr_reserved (s : State) (pf off : Nat) :
    (s.accessErr fNodeAccessErr_RSV_WRITE pf off).fld rNodeAccessErr fNodeAccessErr_RSV_WRITE = 1 := by
  unfold State.accessErr State.fld
  rw [State.reg_setReg, if_pos rfl, Fld.get_put_above (by decide) (by decide), Fld.get_put_above (by decide) (by decide), Fld.get_put _ _ _
      (by decide)]
  decide

/-- The node with power, before step 3 of its boot. -/
def State.powered (s : State) : State :=
  (((s.wipe false).countBoot.setFld rNodeRailStatus fNodeRailStatus_IN_RANGE 0xFF).setStatus fNodeStatus_BOOT_STAGE 1).setFld rNodeTimeStatus
    fNodeTimeStatus_HOLDOVER 1

theorem exec_powerOn (test : s.board.testMode = false) : exec (.powerOn found) s = .next (s.powered.boot found false) := by
  simp only [exec, execPowerOn, test, Bool.false_eq_true, if_false]
  rfl

theorem Booting.powered (s : State) : Booting none (s.wipe false) s.powered :=
  (setFld (setFld (setReg (refl (s.wipe false)).forget (by decide) (by decide)) (by decide) (by decide)) (by decide) (by decide)).stage.write

end

/-- The node in a warm reset with this cause, before step 3 of its boot. -/
def State.afresh (u : State) (c : Nat) : State :=
  (((u.wipe true).countBoot.putBoard { (u.wipe true).countBoot.board with start :=
      (u.wipe true).countBoot.now }).setStatus fNodeStatus_LAST_RESET c).logPowerOn 1

theorem warmReset_eq (s : State) {u : State} {found : BootFound} (c : Nat) (hu : u = if s.flt.stopped then s else s.warmResets) :
    s.warmReset c found = (u.afresh c).boot found true := by
  rw [hu]
  rfl

theorem Booting.afresh (u : State) {c : Nat} (hc : c < 256) (out : (u.wipe true).fld rNodeTimeStatus fNodeTimeStatus_HOLDOVER = 0) :
    Booting (some ((u.wipe true).fld rNodeStatus fNodeStatus_FW_COPY, c, 0)) (u.wipe true) (u.afresh c) := by
  have counted : Booting (some (u.wipe true).marks) (u.wipe true) ((u.wipe true).countBoot.putBoard { (u.wipe true).countBoot.board with
      start := (u.wipe true).countBoot.now }) := putBoard (setFld (setReg (refl _) (by decide) (by decide)) (by decide) (by decide)) rfl
  have marks : (u.wipe true).marks = ((u.wipe true).fld rNodeStatus fNodeStatus_FW_COPY, (u.wipe true).fld rNodeStatus fNodeStatus_LAST_RESET, 0)
      := by
    rw [State.marks, out]
  rw [marks] at counted
  exact (counted.cause hc).logAppend

/-- Settles O51: the stages of boot, one after the other. -/
theorem boot : Obligations.Boot := by
  refine ⟨?test, ?on, ?recovery, ?stop, ?resets, ?warm, ?off⟩
  case test =>
    intro s f h
    simp only [exec, execPowerOn, h, if_true]
  case on =>
    intro s f test copies locked sound past
    have first : Booting none (s.wipe false) (s.powered.setStatus fNodeStatus_BOOT_STAGE 3) := (Booting.powered s).stage
    have done := boot_done (found := f) rfl copies sound past (first.stage1_cold locked)
    have idle := done.idle
    simp only [State.idle, Prod.mk.injEq] at idle
    obtain ⟨recs, ctxs, queues, time, stopped, keys, power⟩ := idle
    exact ⟨_, exec_powerOn test, done.ready, done.stage, done.copy, time, recs, ctxs, queues, stopped, keys, done.log, power⟩
  case recovery =>
    intro s f test a b
    obtain ⟨recovery, stage, stopped, time, keys⟩ := boot_recovery (t := s.powered) (warm := false) ⟨a, b⟩
    have idle := (Booting.powered s).idle
    simp only [State.idle, Prod.mk.injEq] at idle
    exact ⟨_, exec_powerOn test, recovery, stage, stopped, time.trans idle.2.2.2.1, keys.trans idle.2.2.2.2.2.1⟩
  case stop =>
    intro s f test copies lo hi
    exact ⟨_, exec_powerOn test, boot_stopped rfl rfl copies lo hi (Booting.powered s)⟩
  case resets =>
    intro s f pf ns w power
    have on : ¬s.board.power = false := by simp [power]
    refine ⟨fun lo hi => ?_, fun out => ?_, fun live key go => ?_, fun live running other => ?_, fun recovering => ?_, fun long => ?_,
        fun short => ?_⟩
    · simp only [exec, execMsdWatchdogExpiry, if_neg (show ¬(s.board.power = false ∨ s.fld rNodeStatus fNodeStatus_BOOT_STAGE < 3 ∨
        9 < s.fld rNodeStatus fNodeStatus_BOOT_STAGE) by simp [power, lo, hi])]
    · simp only [exec, execMsdWatchdogExpiry, if_pos (show s.board.power = false ∨ s.fld rNodeStatus fNodeStatus_BOOT_STAGE < 3 ∨
        9 < s.fld rNodeStatus fNodeStatus_BOOT_STAGE from .inr out)]
    · simp only [exec, execNodeResetWrite, if_neg (show ¬(s.board.power = false ∨ s.recovering = true) by simp [power, live]), if_pos
        (And.intro key go)]
    · refine ⟨s.accessErr fNodeAccessErr_RSV_WRITE pf rNodeReset, ?_, accessErr_reserved s pf _, fun o ho => ?_, by simp [State.accessErr],
        by simp [State.accessErr]⟩
      · have wrong : ¬(fNodeReset_KEY.get w = 0xB007 ∧ fNodeReset_WARM.get w = 1) := by
          rintro ⟨key, go⟩
          exact other.elim (fun h => h key) fun h => by omega
        simp only [exec, execNodeResetWrite, if_neg (show ¬(s.board.power = false ∨ s.recovering = true) by simp [power, live]), if_neg wrong,
            running,
          Bool.false_eq_true, if_false]
      · exact State.reg_setReg_of_ne s _ (by simpa using ho)
    · simp only [exec, execNodeResetWrite, if_pos (show s.board.power = false ∨ s.recovering = true from .inr recovering)]
    · simp only [exec, execNodeRstNAssert, if_neg (show ¬(s.board.power = false ∨ ns < 5000) by simp [power, long])]
    · simp only [exec, execNodeRstNAssert, if_pos (show s.board.power = false ∨ ns < 5000 from .inr short)]
  case warm =>
    intro s u f c hc hu copies sound past hold
    have done := boot_done (found := f) rfl copies sound past ((Booting.afresh u hc hold).stage.stage1_warm)
    rw [← warmReset_eq s c hu] at done
    have idle := done.idle
    simp only [State.idle, Prod.mk.injEq] at idle
    obtain ⟨recs, ctxs, queues, time, stopped, keys, -⟩ := idle
    exact ⟨done.ready, done.cause, done.stage, recs, ctxs, queues, time, keys, stopped⟩
  case off =>
    intro s c f pf ns w hc off
    simp only [List.mem_cons, List.not_mem_nil, or_false] at hc
    rcases hc with rfl | rfl | rfl
    · simp only [exec, execMsdWatchdogExpiry, off, true_or, if_true]
    · simp only [exec, execNodeResetWrite, off, true_or, if_true]
    · simp only [exec, execNodeRstNAssert, off, true_or, if_true]

end Sys2Proof.Machine
end

section
set_option Elab.async false
/-! SUPPORT. Fault units, the stop of the node, its keys and its board through the work of the fabric (`Equipped`): a lost lane, the end of collectives
and a new map of the network change none of them. -/

namespace Sys2Proof.Machine

/-- The fault units, whether the node has stopped, the keys of images and the board. -/
def State.equipment (s : State) : KV FUnit × Bool × List (Nat × List Byte) × Board :=
  (s.flt.units, s.flt.stopped, s.sec.keys, s.board)

/-- `t` follows `s` with these as they were. -/
structure Equipped (s t : State) : Prop where
  equipment : t.equipment = s.equipment

theorem Keeps.equipped {s t : State} (h : Keeps true s t) : Equipped s t := by
  have still := h.still rfl
  simp only [State.still, Prod.mk.injEq] at still
  obtain ⟨units, stopped, -, keys, board⟩ := still
  exact ⟨by rw [State.equipment, units, stopped, keys, board, State.equipment]⟩

namespace Equipped
variable {s t u : State}

theorem refl (s : State) : Equipped s s := ⟨rfl⟩

theorem then_ (h : Equipped s t) (g : Equipped t u) : Equipped s u := ⟨g.equipment.trans h.equipment⟩

/-- Whatever leaves the whole of it and more. -/
theorem keeps (h : Equipped s t) (g : Keeps true t u) : Equipped s u := h.then_ g.equipped

theorem ite {c : Prop} [Decidable c] (h : Equipped s t) (g : Equipped s u) : Equipped s (if c then t else u) := by
  split
  · exact h
  · exact g

theorem foldl {α : Type} {f : State → α → State} {l : List α} (h : Equipped s t) (step : ∀ u a, Equipped s u → Equipped s (f u a)) :
    Equipped s (l.foldl f t) := List.foldlRecOn l f h fun u g a _ => step u a g

theorem modFab {f : Fab → Fab} (h : Equipped s t) : Equipped s (t.modFab f) := ⟨h.equipment⟩
theorem modColl {id : Nat} {f : Coll → Coll} (h : Equipped s t) : Equipped s (t.modColl id f) := h.modFab
theorem dropColl {id : Nat} (h : Equipped s t) : Equipped s (t.dropColl id) := h.modFab
theorem setFld {o v : Nat} {f : Fld} (h : Equipped s t) : Equipped s (t.setFld o f v) := h.keeps (Keeps.same t).setFld
theorem bump {o n : Nat} (h : Equipped s t) : Equipped s (t.bump o n) := h.keeps (Keeps.same t).bump

theorem endColl {id count lost : Nat} (h : Equipped s t) : Equipped s (t.endColl id count lost) := by
  unfold State.endColl
  split
  · exact h
  · exact h.dropColl.keeps (Keeps.completeColl (Keeps.sendKids (Keeps.same _)))

theorem failColl {id status src : Nat} (h : Equipped s t) : Equipped s (t.failColl id status src) := by
  unfold State.failColl
  split
  · exact h
  · exact h.dropColl.keeps (Keeps.completeColl (Keeps.foldl (Keeps.bump (Keeps.same _)) fun _ _ g => g.sendColl))

theorem stepColl {id : Nat} (h : Equipped s t) : Equipped s (t.stepColl id) := by
  unfold State.stepColl
  split
  · exact h
  · exact ite h (ite h.endColl (h.modColl.keeps (Keeps.sendColl (Keeps.same _))))

theorem doneColl {id : Nat} (h : Equipped s t) : Equipped s (t.doneColl id) := h.modColl.stepColl

theorem failColls {status : Nat} (h : Equipped s t) : Equipped s (t.failColls status) := h.foldl fun _ _ g => g.failColl

theorem snapSettle (h : Equipped s t) : Equipped s t.snapSettle := ite h (doneColl (modColl (setFld (setFld h))))

theorem takeTopo {anchor : Nat} {m : KV Member} (h : Equipped s t) : Equipped s (t.takeTopo anchor m) := by
  have settled : Equipped s (if (t.fab.topo.any (fun x => (kvGet? x.1 m).isNone) || (anchor != t.fab.anchorId && t.fab.anchorId != 0)) &&
      !t.fab.colls.isEmpty then t.failColls scUnreachable else t) := ite h.failColls h
  exact keeps (bump (keeps (setFld (setFld (setFld (modFab settled)))) (Keeps.reroute (Keeps.same _)))) (Keeps.noteUnreach (Keeps.same _))

theorem anchorSettle (h : Equipped s t) : Equipped s t.anchorSettle := by
  have told : ∀ {n : Nat} {ids : List (Nat × Nat)} {f : State → Nat × Nat → State},
      (∀ v x, Keeps true v (f v x)) → Equipped s (ids.foldl f (if n = 0 then t else t.bump cFabIdConflicts n)) :=
    fun step => (ite h h.bump).foldl fun v x g => g.keeps (step v x)
  have step : ∀ (rs : KV Member) (v : State) (x : Nat × Nat), Keeps true v (
      if x.2 = 0 then v
      else if x.1 = v.ident then (if v.nodeId = x.2 then v else v.takeId x.2)
      else if ((kvGet? x.1 rs).map (fun r => r.ident)) = some x.2 ∧ (kvGet? x.2 v.fab.topo).map (fun m => m.ident) = some x.1 then v
      else v.sendAll 3 [x.1, x.2] 18) := fun rs v x =>
    Keeps.ite (Keeps.same v) (Keeps.ite (Keeps.ite (Keeps.same v) (Keeps.takeId (Keeps.same v)))
        (Keeps.ite (Keeps.same v) (Keeps.sendAll (Keeps.same v))))
  unfold State.anchorSettle
  exact ite (modFab (told (step _))) (keeps (takeTopo (modFab (told (step _)))) (Keeps.sendTopo (Keeps.same _)))

theorem reportLinks (h : Equipped s t) : Equipped s t.reportLinks := ite h.anchorSettle (h.keeps (Keeps.sendParts (Keeps.same t)))

theorem linkDown {lane : Nat} (h : Equipped s t) : Equipped s (t.linkDown lane) := by
  have freed : ∀ {v : State} {o : Option Nat} {vc l n : Nat}, Keeps true v (match o with | some i => v.freeSpace i vc l n | none => v) := by
    intro v o vc l n
    cases o with
    | none => exact Keeps.same v
    | some i => exact Keeps.freeSpace (Keeps.same v)
  unfold State.linkDown
  split
  · exact h
  · refine ite h (ite (keeps (reportLinks ?_) (Keeps.noteUnreach (Keeps.same _))) ?_)
    · exact snapSettle (modFab (keeps (foldl (foldl (keeps (modFab (modFab h)) (Keeps.dropMany (Keeps.same _))) fun _ _ g => g.keeps freed)
        fun _ _ g => g.keeps (Keeps.enqueue (Keeps.same _))) (Keeps.holdBack (Keeps.same _))))
    · exact snapSettle (modFab (keeps (foldl (foldl (keeps (modFab (modFab h)) (Keeps.dropMany (Keeps.same _))) fun _ _ g => g.keeps freed)
        fun _ _ g => g.keeps (Keeps.enqueue (Keeps.same _))) (Keeps.holdBack (Keeps.same _))))

theorem replay {lane : Nat} (h : Equipped s t) : Equipped s (t.replay lane) := by
  unfold State.replay
  split
  · exact h
  · refine ite h (ite ?_ ?_)
    · exact linkDown (foldl (modFab (bump (bump (modFab (modFab h))))) fun _ _ g => g.keeps (Keeps.meterFlits (Keeps.same _)))
    · exact foldl (modFab (bump (bump (modFab (modFab h))))) fun _ _ g => g.keeps (Keeps.meterFlits (Keeps.same _))

theorem takeLane {lane : Nat} {own : Bool} (h : Equipped s t) : Equipped s (t.takeLane lane own) := by
  unfold State.takeLane
  split
  · exact h
  · exact ite h (ite h.modFab.linkDown (ite h.modFab.replay.reportLinks h.modFab))

end Equipped

theorem Equipped.funit {s t : State} (h : Equipped s t) (k n : Nat) : t.funit k n = s.funit k n :=
  congrArg (fun x : KV FUnit × Bool × List (Nat × List Byte) × Board => (kvGet? (unitKey k n) x.1).getD {}) h.equipment

theorem laneOut_funit (s : State) (lane k n : Nat) : (s.laneOut lane).funit k n = s.funit k n := (Equipped.refl s).takeLane.funit k n

/-- A lane that is fenced: its own unit, once, and no other. -/
theorem fenceLane_funit {s : State} {src lane : Nat} (free : s.isFenced 9 lane = false) :
    (s.fenceLane src lane).funit 9 lane = { s.funit 9 lane with fenced := true, fences := (s.funit 9 lane).fences + 1 } := by
  unfold State.fenceLane
  rw [if_neg (by simp [free]), reportFence_funit, laneOut_funit, State.funit_modUnit_self]

theorem fenceLane_funit_ne {s : State} {src lane k n : Nat} (ne : unitKey k n ≠ unitKey 9 lane) :
    (s.fenceLane src lane).funit k n = s.funit k n := by
  unfold State.fenceLane
  split
  · rfl
  · unfold State.reportFence
    rw [State.funit_event, State.funit_bump, State.funit_modUnit_ne _ _ ne]
    exact (laneOut_funit _ _ k n).trans (State.funit_modUnit_ne _ _ ne)

end Sys2Proof.Machine
end

section
set_option Elab.async false
/-! SUPPORT. Handoffs of contexts between pools (spec/03, Table 3.4), and the loss of a pool. -/

namespace Sys2Proof.Machine

theorem signalLost_extends (s : State) (ps : List Nat) : Extends s (s.signalLost ps) :=
  Extends.fold _ (fun t p => (Extends.of_eq (by simp [State.setWinBit])).trans (sendMsix_extends _ p 0)) ps s

/-- A request that its lost pool ends. -/
theorem endLost_completes {s : State} {rid : Nat} {r : Rec} (found : kvGet? rid s.recs = some r) (host : r.fab = none) (short : r.long = none)
    (live : s.pstate r.part ≠ stResetting) : Completes s (s.endLost rid r) r.part r.q r.cmd.cid scPoolLost 0 0 0 := by
  have completes := complete_completes s r.part rid r scPoolLost 0 ((r.long.map (fun l => l.count)).getD 0) 0 0 [] found host live
    (.inr ⟨rfl, .inr (by decide)⟩)
  rw [short] at completes
  simp only [Option.map_none, Option.getD_none] at completes
  rw [finalCount_zero] at completes
  unfold State.endLost
  rwa [short]

theorem lateEnds_reads (s : State) (p : Nat) (f : EndNote → Bool) :
    (s.lateEnds p f).recs = s.recs ∧ (s.lateEnds p f).ctxs = s.ctxs ∧ (s.lateEnds p f).flt.poolLost = s.flt.poolLost ∧ Extends s (s.lateEnds p f)
        := by
  unfold State.lateEnds
  dsimp only
  split
  · exact ⟨rfl, rfl, rfl, .refl s⟩
  · refine ⟨by simp, by simp, ?_, (Extends.of_eq (by simp [State.modPart])).trans (bump_extends _ _ _)⟩
    exact ((Aside.refl _).bump.view fun u => u.flt.poolLost).trans (by simp [State.modPart, State.core])

theorem State.poolLost_bump (s : State) (o n : Nat) : (s.bump o n).flt.poolLost = s.flt.poolLost := (Aside.refl s).bump.view fun u => u.flt.poolLost

theorem modUnit_extends (s : State) (k n : Nat) (f : FUnit → FUnit) : Extends s (s.modUnit k n f) := .of_eq (by simp [State.modUnit])

/-- A pool that is lost: its contexts are gone, and it is reported as rebuilding. -/
theorem poolFenced (v : State) {g : Nat} (hg : g < 2) (src : Nat) : ∃ z : State,
    z = (((((v.putCtxs (v.ctxs.filter (fun c => ctxPool c.1 != g))).putCtxs
      (kvMapVals (fun _ (c : Ctx) => if c.st = CtxState.offered then
          { c with
            st := CtxState.owned
            retry := some ((v.putCtxs (v.ctxs.filter (fun c => ctxPool c.1 != g))).now + 10000) }
        else c) (v.putCtxs (v.ctxs.filter (fun c => ctxPool c.1 != g))).ctxs)).setFld
      (rPrtPoolStatus g) fPrtPoolStatus_REBUILDING 1).bump (cPrtPoolLosses g) 1).reportFence src 11 g 0xFF 0) ∧
    (∀ c ∈ z.ctxs, ctxPool c.1 ≠ g) ∧ z.recs = v.recs ∧ z.flt.poolLost = v.flt.poolLost ∧ Extends v z ∧
    z.fld (rPrtPoolStatus g) fPrtPoolStatus_REBUILDING = 1 := by
  have low : Unreported (rPrtPoolStatus g) := unreported_low (by unfold rPrtPoolStatus; omega)
  refine ⟨_, rfl, ?_, ?_, ?_, ?_, ?_⟩
  · intro c hc
    simp only [State.reportFence, State.event_reads, State.bump_reads, State.modUnit, State.modFlt_eq, State.putFlt_reads, State.setFld_reads,
      State.putCtxs_reads, kvMapVals, List.mem_map, List.mem_filter] at hc
    obtain ⟨y, ⟨-, hy⟩, rfl⟩ := hc
    simpa using hy
  · simp [State.reportFence, State.modUnit]
  · unfold State.reportFence
    rw [State.poolLost_event, State.poolLost_bump]
    simp only [State.modUnit, State.modFlt_eq, State.putFlt_reads]
    rw [State.poolLost_bump]
    simp
  · unfold State.reportFence
    refine Extends.trans ?_ (event_extends _ _ _ _ _ _ _ _)
    refine Extends.trans ?_ (bump_extends _ _ _)
    refine Extends.trans ?_ (modUnit_extends _ _ _ _)
    refine Extends.trans ?_ (bump_extends _ _ _)
    exact .of_eq (by simp)
  · unfold State.reportFence
    rw [State.fld_event_unreported low, State.fld_bump_unreported low, State.fld_modUnit, State.fld_bump_unreported low, State.fld_setFld _ _ _ _
        (by decide)]
    decide

/-- Settles O17: each message of a handoff, the contest of copies, and the loss of a pool. -/
theorem handoffs : Obligations.Handoffs := by
  refine ⟨?offer, ?absent, ?accept, ?refuse, ?commit, ?retry, ?contest, ?lost, ?pool⟩
  case offer =>
    intro s x gen id c t hc st hgen alone took
    have run : exec (.handoffOfferArrival x gen) s = .next t := by
      simp only [exec, execHandoffOfferArrival, hc, alone, took]
      rw [if_neg (by simp [st, hgen])]
    refine ⟨run, ?_⟩
    unfold State.takeCtx at took
    split at took
    · cases took
    · split at took
      · cases took
      · simp only [Option.some.injEq, Prod.mk.injEq] at took
        obtain ⟨rfl, rfl⟩ := took
        exact (kvGet?_put _ _ _ _).trans (if_pos rfl)
  case absent =>
    intro s x gen hx
    refine ⟨s.msgDiscard (1 - ctxPool x), ?_, by simp [State.msgDiscard], by simp [State.msgDiscard]⟩
    simp only [exec, execHandoffOfferArrival, hx]
  case accept =>
    intro s x y gen c n r hx hy st hgen pending ngen nrid hr
    have run : exec (.handoffAcceptArrival x y gen) s = .next ((s.putCtxs (kvDel x s.ctxs)).modRec c.rid (fun r => { r with ctx := y })) := by
      simp only [exec, execHandoffAcceptArrival, hx, hy]
      rw [if_pos (by simp [st, hgen, pending, ngen, nrid])]
    refine ⟨_, run, ?_, kvGet?_modRec (s := s.putCtxs (kvDel x s.ctxs)) hr _, by simp⟩
    simp
  case refuse =>
    intro s x gen c hx st hgen
    have run : exec (.handoffRefuseArrival x gen) s = .next (s.putCtxs (kvPut x { c with st := .owned, retry := some (s.now + 10000) } s.ctxs)) := by
      simp only [exec, execHandoffRefuseArrival, hx]
      rw [if_pos (And.intro st hgen)]
    exact ⟨_, run, (kvGet?_put _ _ _ _).trans (if_pos rfl), rfl⟩
  case commit =>
    intro s x gen c r hx st hgen hr own
    refine ⟨(s.putCtxs (kvPut x { c with st := .owned } s.ctxs)).bump (cPrtPoolHandoffs (ctxPool x)) 1, ?_, by simp, by simp⟩
    simp only [exec, execHandoffCommitArrival, hx]
    rw [if_pos (by simp [st, hgen, hr, own])]
  case retry =>
    intro s x a c hx retry st due up
    have run : exec (.handoffRetryTimer x) s = .next (s.putCtxs (kvPut x { c with st := .offered, since := s.now, retry := none } s.ctxs)) := by
      simp only [exec, execHandoffRetryTimer, hx, retry]
      rw [if_pos (And.intro st ⟨due, up⟩)]
    exact ⟨_, run, (kvGet?_put _ _ _ _).trans (if_pos rfl), rfl⟩
  case contest =>
    intro s x c r hx st old only hr noQuery
    have contested : c.contested s.now = true := by simp [Ctx.contested, st, old]
    have one : kvGet? x [(x, c)] = some c := by simp [kvGet?]
    refine ⟨(((s.putCtxs [(x, { c with st := .owned, retry := none })]).modRec c.rid (fun r => { r with ctx := x })).bump
        (cPrtPoolContested (ctxPool x)) 1),
      ?_, by simp, ?_⟩
    · simp only [exec, execContextContest, only, one, contested]
      simp [kvPut, noQuery]
    · simp only [State.bump_reads]
      exact kvGet?_modRec (s := s.putCtxs _) hr _
  case lost =>
    intro s x rid r none_ only own host short live
    have hr : kvGet? rid s.recs = some r := by simp [only, kvGet?]
    refine ⟨(s.endLost rid r).signalLost [r.part], ?_, (endLost_completes hr host short live).mono (signalLost_extends _ _)⟩
    simp [exec, execContextContest, State.loseCtx, none_, only, kvGet?, own]
  case pool =>
    intro s g b hg away fresh
    obtain ⟨v, hv⟩ : ∃ v : State, v = s.parts.foldl (fun (t : State) x => t.lateEnds x.1 (fun y => ctxPool y.ctx == g)) s := ⟨_, rfl⟩
    obtain ⟨recs, lost, sent⟩ : v.recs = s.recs ∧ v.flt.poolLost = s.flt.poolLost ∧ Extends s v := by
      rw [hv]
      refine List.foldlRecOn (motive := fun t : State => t.recs = s.recs ∧ t.flt.poolLost = s.flt.poolLost ∧ Extends s t) _ _ ⟨rfl, rfl, .refl s⟩ ?_
      rintro t ⟨recs, lost, sent⟩ x -
      obtain ⟨recs', -, lost', sent'⟩ := lateEnds_reads t x.1 (fun y => ctxPool y.ctx == g)
      exact ⟨recs'.trans recs, lost'.trans lost, sent.trans sent'⟩
    have none_ : v.recs.filter (fun r => ctxPool r.2.ctx == g) = [] := by
      rw [recs, List.filter_eq_nil_iff]
      exact fun r hr => by simpa using away r hr
    obtain ⟨z, hz, zctxs, zrecs, zlost, zsent, zfld⟩ := poolFenced v hg (if b then 3 else 0)
    refine ⟨z.modFlt (fun t => { t with poolLost := if g = 0 then [z.now + 1, z.flt.poolLost.getD 1 0] else [z.flt.poolLost.getD 0 0, z.now + 1] }),
      ?_, ?_, ?_, ?_, ?_⟩
    · simp only [exec, execPoolLoss, if_neg (Nat.not_le.mpr hg), State.losePool, ← hv, none_, ← hz]
      simp [State.signalLost, zlost, lost, fresh]
    · simpa using zctxs
    · rw [State.fld_modFlt, zfld]
    · simpa using zrecs.trans recs
    · exact sent.trans (zsent.trans (.of_eq (by simp)))

end Sys2Proof.Machine
end

section
set_option Elab.async false
/-! SUPPORT. Links (spec/14): the counter of retries of a port that no node has is the counter of the drogue's misses, which a count of lost packets that
saturates moves as well: a counterexample to what the statement of links says of every lane. -/

namespace Sys2Proof.Machine

/-- The first lane of a port far beyond the 32 that a node has, whose counter of retries lies where the drogue counts its misses. -/
def farLane : Nat := 8 * ((cSnpMissed - cFabPRetries 0) / 0x40)

/-- The last flit of a packet, sent and not acknowledged. -/
def lastFlit : SentFlit :=
  { seq := 0, kind := 1, vc := 1, level := 0, last := true, marker := none, cr := (0, 0, 0), replays := 0, sentAt := 0 }

/-- A link that has sent it. -/
def farLink : Link :=
  { freshLink 8 255 with unacked := [lastFlit] }

/-- A node with that link, whose count of lost packets is one below its limit, with an event at saturation and a drogue that waits for such events. -/
def farLinked : State :=
  { fab := { links := [(farLane, farLink)] }, ctrs := [(cFabDrops, 2 ^ 48 - 2)], regs := [(rFltCfg, 1), (rSnpSrc, 4)] }

theorem farLinked_misses : (Tests.after (.helloArrival farLane 0 0 0 4 0 0) farLinked).ctr (cFabPRetries (lanePort farLane)) = 2 := by decide +kernel

/-- Refutes O41: a HELLO of another width counts one retry, but the packet lost with the link saturates the count of lost packets, and the event of it
is missed by the drogue, whose counter has the place of this link's count of retries. The statement takes a link at any lane. -/
theorem not_links : ¬Obligations.Links := by
  rintro ⟨-, -, -, -, -, -, -, -, h, -⟩
  obtain ⟨-, other⟩ := h farLinked farLane 0 0 0 4 0 0 farLink (by decide +kernel) (by decide +kernel) (by decide +kernel)
  obtain ⟨t, ht, count, -⟩ := other (by decide +kernel) (by decide +kernel)
  rw [← after_of_next ht, farLinked_misses] at count
  exact absurd count (by decide +kernel)

end Sys2Proof.Machine
end

section
set_option Elab.async false
/-! SUPPORT. Partition resets (Table 3.6): a request starts or merges, the drain's answers, and what a scrub removes. -/

namespace Sys2Proof.Machine

/-! ### A request -/

theorem State.rst_modPart (s : State) (p : Nat) (f : Part → Part) : ((s.modPart p f).part p).rst = (f (s.part p)).rst :=
  congrArg (fun o : Option Part => (o.getD {}).rst) (kvGet?_put_self p (f (s.part p)) s.parts)

theorem State.models_modPart (s : State) (p : Nat) (f : Part → Part) : (s.modPart p f).models = s.models := rfl

/-- A reset that waits for other nodes' drains goes no further. -/
theorem resetGoOn_waits {s : State} {p n : Nat} {r : ResetProg} {ns : List Nat} (under : (s.part p).rst = some r) (waits : r.waiting = n :: ns) :
    s.resetGoOn p = s := by
  unfold State.resetGoOn
  simp [under, waits]

theorem askReset_begins {s : State} {p : Nat} (scrub silent : Bool) (coll : Option Nat) (there : s.sqCount p ≠ 0) (idle : (s.part p).rst = none)
    (free : s.pstate p ≠ stLoading) : s.askReset p scrub silent coll = s.resetBegin p scrub silent false coll none := by
  unfold State.askReset
  simp only [if_neg there, idle, if_neg free]

theorem askReset_merges {s : State} {p : Nat} {r : ResetProg} (scrub : Bool) (there : s.sqCount p ≠ 0) (under : (s.part p).rst = some r) :
    s.askReset p scrub false none = (s.setFld (rPrtCtl p) fPrtCtl_QUIESCE 0).modPart p
        (fun x => { x with rst := some { r with scrub := r.scrub || scrub } }) := by
  unfold State.askReset
  simp [if_neg there, under]

theorem execPrtResetRequest_eq {s : State} {p : Nat} (v : Nat) (there : s.sqCount p ≠ 0) :
    exec (.prtResetRequest p v) s = .next (((s.setFld (rPrtCtl p) fPrtCtl_SCRUB (bitOf v 2).toNat).requestReset p (bitOf v 2) false none).resume)
        := by
  show execPrtResetRequest p v s = _
  unfold execPrtResetRequest
  dsimp only
  rw [if_neg there]

/-- After the MSI-X table of a function is cleared its words read their reset values. -/
theorem win_clearMsix (s : State) (p : Nat) {o : Nat} (lo : 0x80000 ≤ o) (hi : o < 0x100000) : (s.clearMsix p).win p o = winDefault o := by
  have gone : kvGet? (p * 0x100000 + o) (s.clearMsix p).winReg = none :=
    (kvGet?_filter_key (fun w => !decide (p * 0x100000 + 0x80000 ≤ w ∧ w < (p + 1) * 0x100000)) _ s.winReg).trans
      (if_neg (by simp only [Bool.not_eq_true', decide_eq_false_iff_not]; omega))
  unfold State.win
  rw [gone]
  rfl

theorem execPfFunctionLevelReset_eq (s : State) {port : Nat} (b : Bool) (h : port < 2) :
    exec (.pfFunctionLevelReset port b) s = .next ((s.vfParts port).foldl (fun (t : State) v => (t.clearMsix v).requestReset v false true none)
      (if b then (s.putVfEn (s.vfEn.set port false)).requestReset (32 * port) false false none
       else ((s.putVfEn (s.vfEn.set port false)).clearMsix (32 * port)).requestReset (32 * port) false true none)).resume := by
  show execPfFunctionLevelReset port b s = _
  unfold execPfFunctionLevelReset State.pfReset
  rw [if_neg (by omega)]

/-- Where no virtual function's partition is held back, enabling them only sets VF Enable and NumVFs. -/
theorem execVfEnable_eq {s : State} {port : Nat} (n : Nat) (h : port < 2) (off : s.vfEn.getD port false = false)
    (free : ∀ p ∈ s.vfParts port, s.pstate p ≠ stHeld) : exec (.vfEnable port n) s =
      .next ((s.putVfEn (s.vfEn.set port true)).putNumVfs (s.numVfs.set port (min 62 n))).resume := by
  show execVfEnable port n s = _
  have on : ¬(2 ≤ port ∨ s.vfEn.getD port false = true) := by
    rintro (high | on)
    · omega
    · rw [off] at on
      cases on
  unfold execVfEnable
  rw [if_neg on]
  have held : ∀ u : State, (∀ p ∈ u.vfParts port, u.pstate p ≠ stHeld) →
      (u.vfParts port).filter (fun p => u.pstate p == stHeld && u.funcEnabled p) = [] := by
    intro u free
    exact List.filter_eq_nil_iff.mpr fun p hp => by simp [free p hp]
  dsimp only
  rw [held ((s.putVfEn (s.vfEn.set port true)).putNumVfs (s.numVfs.set port (min 62 n))) free]
  rfl

/-! ### The drain -/

theorem execDrainAckArrival_waits {s : State} {src part gen seq n : Nat} {r : ResetProg} {ns : List Nat} (fresh : s.orderFresh src seq = true)
    (under : (s.part part).rst = some r) (now : gen = s.resetGen part) (left : r.waiting.filter (fun n => n != src) = n :: ns) :
    exec (.drainAckArrival src part gen seq) s =
      .next ((s.orderTaken src seq).modPart part (fun x => { x with rst := some { r with waiting := n :: ns } })) := by
  have same : ((s.orderTaken src seq).part part).rst = some r := under
  have gen' : gen = (s.orderTaken src seq).resetGen part := now
  refine congrArg Host.Outcome.next ((takeOrder_fresh _ fresh).trans ?_)
  simp only [same, if_pos gen', left]
  exact resetGoOn_waits (State.rst_modPart _ _ _) rfl

theorem execDrainTimeout_eq {s : State} {p : Nat} {r : ResetProg} (under : (s.part p).rst = some r) : exec (.drainTimeout p) s =
    .next (((s.modPart p (fun x => { x with rst := some { r with waiting := [] } })).bump (cPrtDrainTimeouts p) r.waiting.length).resetGoOn p) := by
  show execDrainTimeout p s = _
  unfold execDrainTimeout
  simp only [under]

/-! ### The scrub -/

theorem models_release (s : State) (a : Nat) : (s.release a).models = s.models := by
  unfold State.release
  repeat' split
  all_goals rfl

theorem models_unmapUnits (s : State) (k n : Nat) : (s.unmapUnits k n).models = s.models := by
  unfold State.unmapUnits
  dsimp only
  split
  · exact (Aside.refl _).journal.models
  · rfl

theorem models_freeTensor (s : State) (i : Nat) : (s.freeTensor i).models = s.models := by
  unfold State.freeTensor
  dsimp only
  repeat' split
  all_goals first
    | rfl
    | exact (models_release _ _).trans (models_unmapUnits _ _ _)
    | exact models_release _ _

theorem models_foldl {α : Type} {f : State → α → State} (step : ∀ t a, (f t a).models = t.models) (l : List α) (s : State) :
    (l.foldl f s).models = s.models := by
  induction l generalizing s with
  | nil => rfl
  | cons a l ih => exact (ih _).trans (step s a)

theorem scrubData_models (s : State) (p : Nat) :
    (s.scrubData p).models = ((((s.corpusScrub p).tableScrub p).windowsScrub p).flashScrub p).models.filter (fun m => m.1 / 256 != p) := by
  unfold State.scrubData
  extract_lets t0 t1 t2 t3 t4 keep mine
  have swept : ∀ (t : State) (a : Nat × Alloc), (if keep a.2.kind then t.modMem (fun m => m.clear a.1 a.2.len)
      else t.release a.1).models = t.models := by
    intro t a
    split
    · rfl
    · exact models_release t a.1
  have freed : t4.models = t3.models := by
    dsimp only [t4]
    exact models_foldl models_freeTensor _ t3
  rw [models_foldl swept mine t4, freed]
  change t3.models = t0.models.filter _
  clear_value t0
  rfl

/-- A scrub leaves no model of its partition. -/
theorem models_scrubData (s : State) (p : Nat) : ∀ m ∈ (s.scrubData p).models, m.1 / 256 ≠ p := by
  intro m hm
  rw [scrubData_models] at hm
  simpa using (List.mem_filter.mp hm).2

/-- Settles O16: the equations of the commands above; a count of the drain's nodes stays below the limit of its counter. -/
theorem partitionReset : Obligations.PartitionReset := by
  unfold Obligations.PartitionReset
  refine ⟨?_, ?_, ?_, ?_, ?_, ?_, ?_, ?_, ?_, ?_⟩
  · intro s p v there idle free
    refine ⟨_, rfl, (execPrtResetRequest_eq v there).trans ?_⟩
    have free' : (s.setFld (rPrtCtl p) fPrtCtl_SCRUB (bitOf v 2).toNat).pstate p ≠ stLoading := by rwa [State.pstate_setCtl]
    unfold State.requestReset
    rw [askReset_begins (s := s.setFld (rPrtCtl p) fPrtCtl_SCRUB (bitOf v 2).toNat) _ _ _ there idle free']
  · intro s p v n r ns there under waits
    have merged := askReset_merges (s := s.setFld (rPrtCtl p) fPrtCtl_SCRUB (bitOf v 2).toNat) (bitOf v 2) there under
    refine ⟨((s.setFld (rPrtCtl p) fPrtCtl_SCRUB (bitOf v 2).toNat).setFld (rPrtCtl p) fPrtCtl_QUIESCE 0).modPart p
      (fun x => { x with rst := some { r with scrub := r.scrub || bitOf v 2 } }), (execPrtResetRequest_eq v there).trans ?_, State.rst_modPart _ p _,
      State.fld_setFld _ (rPrtCtl p) fPrtCtl_QUIESCE 0 (by decide)⟩
    unfold State.requestReset
    rw [merged, resetGoOn_waits (r := { r with scrub := r.scrub || bitOf v 2 }) (State.rst_modPart _ p _) waits]
  · intro s port vf p found
    refine ⟨s.clearMsix p, ?_, fun o lo hi => win_clearMsix s p lo hi, rfl, rfl⟩
    show execVfFunctionLevelReset port vf s = _
    unfold execVfFunctionLevelReset
    simp only [found]
  · intro s port b h
    exact ⟨_, execPfFunctionLevelReset_eq s b h, rfl⟩
  · intro s port n h off free
    exact ⟨_, execVfEnable_eq n h off free, rfl, rfl, rfl, rfl⟩
  · intro s src part gen seq fresh
    exact ⟨_, congrArg Host.Outcome.next (takeOrder_fresh _ fresh)⟩
  · intro s src part gen seq n r ns fresh under now left
    exact ⟨_, execDrainAckArrival_waits fresh under now left, State.rst_modPart _ _ _, rfl, rfl⟩
  · intro s p r under below
    refine ⟨_, execDrainTimeout_eq under, ?_, State.ctr_bump_self _ _ _ below⟩
    exact ((Aside.refl _).bump.rst p).trans (State.rst_modPart s p _)
  · intro s p r under scrubbing load
    refine ⟨?_, models_scrubData s p⟩
    show execScrubDone p s = _
    unfold execScrubDone
    simp [under, scrubbing, load]
  · intro s p r under scrubbing load
    refine ⟨(s.scrubData p).modPart p (fun x => { x with rst := some { r with scrub := false, scrubbing := false } }), ?_,
        State.rst_modPart _ _ _, ?_⟩
    · show execScrubDone p s = _
      unfold execScrubDone
      simp [under, scrubbing, load]
    · rw [State.models_modPart]
      exact models_scrubData s p

end Sys2Proof.Machine
end

section
set_option Elab.async false
/-! SUPPORT. The serving loop (spec/05): period boundaries, and the sharing of an array between partitions. -/

namespace Sys2Proof.Machine

/-! ### Period boundaries -/

theorem execPeriodBoundary_eq {s : State} {p : Nat} (cfg : s.configured p = true) (per : 0 < (s.pcfg p).periodUs)
    (now : s.now % ((s.pcfg p).periodUs * 1000) = 0) : exec (.periodBoundary p) s =
      (let u := if s.pstate p = stReady ∨ s.pstate p = stQuiescing then ((s.restartGates p).ventDue p).commitUpdates p else s.restartGates p
       let v := if s.pstate p = stReady then u.startStep p (u.now / ((s.pcfg p).periodUs * 1000)) else u
       .next ((((v.resume).arrBoundary p).freeOldModels).resume)) := by
  show execPeriodBoundary p s = _
  unfold execPeriodBoundary
  dsimp only
  rw [if_neg]
  rintro (e | e | e)
  · rw [cfg] at e
    cases e
  · omega
  · exact e now

/-- The serve status of a partition is not written by a corrected event, and its count of steps lies in another block than the one whose
saturation register shares its place in a page. -/
theorem unbumped_serveStatus (p : Nat) : Unbumped (rPrtServeStatus p) :=
  ⟨fun pf => by unfold pfKey rFltEvtStatus rPrtServeStatus; omega, fun b hb => by unfold rFltSat rPrtServeStatus; omega,
    by unfold rPrtServeStatus; omega⟩

theorem serveStatus_sat (p : Nat) : ∀ b, blockIndex (cPrtSteps p) = some b → rPrtServeStatus p ≠ rFltSat b := by
  intro b e same
  have small := blockIndex_lt _ _ e
  have place : cPrtSteps p = 0x2800110 := by unfold rPrtServeStatus rFltSat at same; unfold cPrtSteps; omega
  have block : blockIndex 0x2800110 = some 21 := by decide
  rw [place, block] at e
  cases e
  unfold rPrtServeStatus rFltSat at same
  omega

/-- STEP is the first field written into the serve status. -/
theorem serveStatus_step (k q c : Nat) : fPrtServeStatus_STEP.get (packFields [(fPrtServeStatus_STEP, k % 2 ^ 32), (fPrtServeStatus_STEP_QUERIES, q),
    (fPrtServeStatus_STEP_CARRIED, c)]) = k % 2 ^ 32 := by
  show fPrtServeStatus_STEP.get (fPrtServeStatus_STEP_CARRIED.put c
      (fPrtServeStatus_STEP_QUERIES.put q (fPrtServeStatus_STEP.put (k % 2 ^ 32) 0))) = _
  rw [Fld.get_put_below (by decide) (by decide), Fld.get_put_below (by decide) (by decide), Fld.get_put _ _ _ (by decide),
    show 2 ^ fPrtServeStatus_STEP.width = 2 ^ 32 by decide, Nat.mod_mod]

/-- A step that no query begins with notes its number, and counts at most itself. -/
theorem startStep_idle {s : State} {p : Nat} (k : Nat) (idle : ∀ q ∈ s.queries, q.2.part = p → q.2.phase ≠ 1) :
    ((s.startStep p k).part p).stepNo = k ∧ (s.startStep p k).fld (rPrtServeStatus p) fPrtServeStatus_STEP = k % 2 ^ 32 := by
  have none : (s.queries.filter (fun q => q.2.part == p)).filter (fun q => q.2.phase == 1 && decide (q.2.stamp < s.now)) = [] := by
    refine List.filter_eq_nil_iff.mpr fun q hq => ?_
    have mine := List.mem_filter.mp hq
    have other := idle q mine.1 (by simpa using mine.2)
    simp [other]
  have noted (u : State) (w : Word) : ((((u.modPart p (fun x => { x with stepNo := k })).setReg (rPrtServeStatus p) w)).part p).stepNo = k :=
    by simp [State.part, kvGetD]
  unfold State.startStep
  dsimp only
  rw [none]
  dsimp only [List.foldl_nil]
  split
  · refine ⟨noted s _, ?_⟩
    rw [State.fld, State.reg_setReg, if_pos rfl]
    exact serveStatus_step _ _ _
  · refine ⟨?_, ?_⟩
    · simp only [State.bump_reads]
      exact noted s _
    · rw [State.fld_bump_unbumped (unbumped_serveStatus p) _ _ (serveStatus_sat p), State.fld, State.reg_setReg, if_pos rfl]
      exact serveStatus_step _ _ _

/-! ### Arrays -/

theorem State.share_modShare (s : State) (a : Nat) (f : ArrShare → ArrShare) : (s.modShare a f).share a = f (s.share a) :=
  congrArg (fun o : Option ArrShare => o.getD {}) (kvGet?_put_self a (f (s.share a)) s.shares)

theorem State.share_of_shares {s t : State} (h : t.shares = s.shares) (a : Nat) : t.share a = s.share a := by
  unfold State.share
  rw [h]

theorem Aside.share {s t : State} (h : Aside s t) (a : Nat) : t.share a = s.share a := State.share_of_shares (h.view State.shares) a

/-- A switch begins: what is counted of one still under way. -/
def State.cutSwitch (s : State) (a : Nat) : State :=
  match (s.share a).switching with
  | some (t, _) => if s.now = t then s else s.bump (cMxaSwitchNs a) (s.now - t)
  | none => s

theorem cutSwitch_aside (s : State) (a : Nat) : Aside s (s.cutSwitch a) := by
  unfold State.cutSwitch
  split
  · exact Aside.ite (Aside.refl s) (Aside.refl s).bump
  · exact Aside.refl s

/-- The share of an array that has been switched to a partition. -/
def ArrShare.switched (x : ArrShare) (n now : Nat) (cheap : Bool) : ArrShare :=
  { x with
    used := (match x.owner with | some o => kvPut o (x.usedBy o now) x.used | none => x.used)
    owner := some n, since := now, switching := some (now, cheap), yieldReq := none, noYield := false, powered := true }

theorem State.shares_modArr (s : State) (a : Nat) (f : ArrUnit → ArrUnit) : (s.modArr a f).shares = s.shares := rfl
theorem State.shares_loadPerms (s : State) (a p : Nat) : (s.loadPerms a p).shares = s.shares := by simp [State.loadPerms]
theorem State.shares_powerDomain (s : State) (d : Nat) (on : Bool) : (s.powerDomain d on).shares = s.shares := by simp [State.powerDomain]

/-- A switch hands the array over: its share, its unit without a model, the permissions of the new owner, its power. -/
def State.handArray (s : State) (a n : Nat) (cheap : Bool) : State :=
  let s := s.modShare a (fun x => x.switched n s.now cheap)
  let s := s.modArr a (fun u => { u with held := u.held ++ u.model.toList, model := none, free := none })
  let s := if (s.arrUnit a).run.isNone then s.loadPerms a n else s
  (s.powerDomain (8 + a) true).bump (cMxaSwitches a) 1

theorem arrSwitch_eq (s : State) (a n : Nat) (cheap : Bool) : s.arrSwitch a n cheap = (s.cutSwitch a).handArray a n cheap := by
  unfold State.arrSwitch State.handArray State.cutSwitch
  rfl

theorem share_arrSwitch (s : State) (a n : Nat) (cheap : Bool) : (s.arrSwitch a n cheap).share a = (s.share a).switched n s.now cheap := by
  have cut := cutSwitch_aside s a
  rw [← cut.share, ← cut.now, arrSwitch_eq]
  generalize s.cutSwitch a = u
  rw [← State.share_modShare u a (fun x => x.switched n u.now cheap)]
  refine State.share_of_shares ?_ a
  unfold State.handArray
  dsimp only
  simp only [State.bump_reads, State.shares_powerDomain]
  split
  · rw [State.shares_loadPerms, State.shares_modArr]
  · rw [State.shares_modArr]

theorem State.arrUnit_modArr (s : State) (a : Nat) (f : ArrUnit → ArrUnit) : (s.modArr a f).arrUnit a = f (s.arrUnit a) :=
  congrArg (fun o : Option ArrUnit => o.getD {}) (kvGet?_put_self a (f (s.arrUnit a)) s.arrays)

theorem State.arrUnit_of_arrays {s t : State} (h : t.arrays = s.arrays) (a : Nat) : t.arrUnit a = s.arrUnit a := by
  unfold State.arrUnit
  rw [h]

/-- Asking for a yield notes the request and no more. -/
theorem askYield_share (s : State) (a : Nat) : ∃ y, (s.askYield a).share a = { s.share a with yieldReq := y } := by
  have same : ∃ y, s.share a = { s.share a with yieldReq := y } := ⟨_, rfl⟩
  unfold State.askYield
  dsimp only
  split
  · split
    · exact ⟨_, State.share_modShare s a _⟩
    · exact same
  · exact same

/-- An array whose owner has no instruction queued begins none. -/
theorem arrGo_idle {s : State} {a o : Nat} (owner : (s.share a).owner = some o) (none : (s.arrUnit a).queueOf o = []) : s.arrGo a = s := by
  unfold State.arrGo
  unfold State.arrPump
  split
  · rfl
  · simp only [owner, none]

/-- The end of a switch: the new owner has the array with the model it held there, and its permissions. -/
def State.takeOver (s : State) (a o dur : Nat) : State :=
  let s := s.modShare a (fun x => { x with switching := none, spill := x.spill.filter (fun w => w.1 != o) })
  let s := s.modArr a (fun u => { u with
    model := (u.held.find? (fun m => m.part == o)).map (fun m => { m with since := s.now }), held := u.held.filter (fun m => m.part != o) })
  let s := s.loadPerms a o
  let s := s.setFld (rMxaShareStatus a) fMxaShareStatus_LAST_SWITCH_NS (min 0xFFFFFFFF dur)
  let s := if dur = 0 then s else s.bump (cMxaSwitchNs a) dur
  s.warmIn o (a / 2)

theorem switchDone_eq {s : State} {a o x : Nat} {b : Bool} (owner : (s.share a).owner = some o) (since : (s.share a).switching = some (x, b)) :
    s.switchDone a = if (s.arrUnit a).run.isSome ∨ s.now < x + s.warmNs o (a / 2) then s else (s.takeOver a o (s.now - x)).arrGo a := by
  unfold State.switchDone
  rw [owner, since]
  rfl

theorem takeOver_shares (s : State) (a o dur : Nat) : (s.takeOver a o dur).shares =
    (s.modShare a (fun x => { x with switching := none, spill := x.spill.filter (fun w => w.1 != o) })).shares := by
  unfold State.takeOver State.warmIn
  dsimp only
  split <;> simp [State.loadPerms, State.modArr]

theorem takeOver_share (s : State) (a o dur : Nat) : (s.takeOver a o dur).share a =
    { s.share a with switching := none, spill := (s.share a).spill.filter (fun w => w.1 != o) } :=
  (State.share_of_shares (takeOver_shares s a o dur) a).trans (State.share_modShare s a _)

theorem takeOver_arrays (s : State) (a o dur : Nat) : (s.takeOver a o dur).arrays = (s.modArr a (fun u => { u with
    model := (u.held.find? (fun m => m.part == o)).map (fun m => { m with since := s.now }), held := u.held.filter (fun m => m.part != o)
        })).arrays := by
  unfold State.takeOver State.warmIn
  dsimp only
  split <;> simp [State.loadPerms, State.modArr, State.arrUnit]

theorem takeOver_arrUnit (s : State) (a o dur : Nat) : (s.takeOver a o dur).arrUnit a = { s.arrUnit a with
    model := ((s.arrUnit a).held.find? (fun m => m.part == o)).map (fun m => { m with since := s.now }),
    held := (s.arrUnit a).held.filter (fun m => m.part != o) } :=
  (State.arrUnit_of_arrays (takeOver_arrays s a o dur) a).trans (State.arrUnit_modArr s a fun u => { u with
    model := (u.held.find? (fun m => m.part == o)).map (fun m => { m with since := s.now }), held := u.held.filter (fun m => m.part != o) })

/-! ### Yields -/

theorem spillLive_share {s : State} {a o rid : Nat} (live : s.liveRequest a o = some rid) : (o, rid) ∈ ((s.spillLive a o).share a).spill := by
  unfold State.spillLive
  rw [live]
  dsimp only
  rw [State.share_modShare]
  simp

theorem spillLive_reads (s : State) (a o : Nat) : (s.spillLive a o).recs = s.recs ∧ (s.spillLive a o).mem = s.mem := by
  unfold State.spillLive
  split <;> exact ⟨rfl, rfl⟩

/-- Settles O18: an idle step notes its number, the boundary's cases are those of the partition's state, and each event of a shared array is read off
the share that it leaves. -/
theorem servingLoop : Obligations.ServingLoop := by
  unfold Obligations.ServingLoop
  refine ⟨?_, ?_, ?_, ?_, ?_, ?_, ?_, ?_, ?_, ?_, ?_⟩
  · intro s p cfg per now ready
    refine ⟨_, rfl, (execPeriodBoundary_eq cfg per now).trans ?_⟩
    dsimp only
    simp only [ready, true_or, if_true]
  · intro s p k idle
    exact startStep_idle k idle
  · intro s p cfg per now notReady notQuiescing
    refine (execPeriodBoundary_eq cfg per now).trans ?_
    dsimp only
    rw [if_neg (not_or.mpr ⟨notReady, notQuiescing⟩), if_neg notReady]
  · intro s p cfg
    exact if_pos (.inl cfg)
  · intro s a p free ok first
    refine ⟨_, if_pos ⟨by rw [free]; rfl, ok, first⟩, ?_⟩
    unfold State.arrQuanta
    rw [State.share_modShare, share_arrSwitch, State.share_modShare]
    exact ⟨rfl, rfl, rfl⟩
  · intro s a o owner late inside
    refine ⟨_, if_pos ⟨by rw [owner]; rfl, late⟩, ?_⟩
    have undecided : s.decideFirst a = s := by
      unfold State.decideFirst
      simp [owner, inside]
    rw [undecided]
    obtain ⟨y, share⟩ := askYield_share ((s.modShare a (fun x => { x with round := s.now, used := [], since := s.now })).arrQuanta a) a
    rw [share]
    unfold State.arrQuanta
    rw [State.share_modShare, State.share_modShare]
    exact ⟨rfl, rfl, owner⟩
  · intro s a o x b owner since done warm none
    have ended : ¬((s.arrUnit a).run.isSome = true ∨ s.now < x + s.warmNs o (a / 2)) := by
      rw [done]
      simpa using warm
    have share := takeOver_share s a o (s.now - x)
    have unit := takeOver_arrUnit s a o (s.now - x)
    refine ⟨s.takeOver a o (s.now - x), ?_, ?_, ?_, ?_, ?_⟩
    · refine congrArg (fun t : State => Host.Outcome.next t.resume) ((switchDone_eq owner since).trans ((if_neg ended).trans ?_))
      exact arrGo_idle ((congrArg ArrShare.owner share).trans owner) ((congrArg (fun u : ArrUnit => u.queueOf o) unit).trans none)
    · rw [share]
    · rw [share]
      exact owner
    · rw [share]
      intro w hw
      simpa using (List.mem_filter.mp hw).2
    · rw [unit]
  · intro s a o x b owner since busy
    exact congrArg (fun t : State => Host.Outcome.next t.resume) ((switchDone_eq owner since).trans (if_pos busy))
  · intro s a o n low owner next priv may idle
    refine ⟨((s.spillLive a o).bump (cPrtYields o) 1).bump (cMxaPreempts a) 1, ?_, ?_, ?_, ?_⟩
    · refine congrArg Host.Outcome.next ((if_pos low).trans ?_)
      unfold State.yieldArray
      rw [owner, next]
      exact if_pos ⟨priv, may, idle⟩
    · intro rid live
      simp only [State.bump_reads]
      exact spillLive_share live
    · simp only [State.bump_reads]
      exact (spillLive_reads s a o).1
    · simp only [State.bump_reads]
      exact (spillLive_reads s a o).2
  · intro s n p rid low yields _ below
    refine ⟨(s.modPart p (fun x => { x with spill := x.spill ++ [(n, rid)] })).bump (cPrtYields p) 1, ?_, ?_, State.ctr_bump_self _ _ _ below, ?_, ?_⟩
    · refine congrArg Host.Outcome.next ((if_neg (by omega)).trans ((if_pos (by omega)).trans ?_))
      rw [Nat.add_sub_cancel]
      unfold State.yieldCluster
      rw [yields]
    · simp [State.part, kvGetD]
    · simp
    · simp
  · intro s a x asked late
    refine ⟨(s.modShare a (fun x => { x with yieldReq := none, noYield := true })).bump (cMxaYieldMisses a) 1, ?_, ?_⟩
    · show execYieldLimitExpiry a s = _
      unfold execYieldLimitExpiry
      simp only [asked, if_pos late]
    · simp only [State.bump_reads]
      rw [State.share_modShare]
      exact ⟨rfl, rfl, rfl⟩

end Sys2Proof.Machine
end

section
set_option Elab.async false
/-! SUPPORT. Bank engine commands (spec/06): a command is refused, queued or started; it ends with its token; a fence token writes what waits. -/

namespace Sys2Proof.Machine

theorem State.chan_modChan (s : State) (c : Nat) (f : BankCh → BankCh) : (s.modChan c f).chan c = f (s.chan c) :=
  congrArg (fun o : Option BankCh => o.getD {}) (kvGet?_put_self c (f (s.chan c)) s.bank)

theorem State.chan_of_bank {s t : State} (h : t.bank = s.bank) (c : Nat) : t.chan c = s.chan c := by
  unfold State.chan
  rw [h]

theorem bankToken_done_reads (s : State) (j : BankJob) (c n : Nat) :
    (s.bankToken j c scDone n).tokens = s.tokens ++ [{ part := j.part, channel := c, tag := dTag j.desc, status := scDone, records := n }] ∧
      (s.bankToken j c scDone n).bank = s.bank ∧ (s.bankToken j c scDone n).mem = s.mem := by
  unfold State.bankToken
  dsimp only
  rw [if_pos rfl]
  simp

/-- A refused descriptor of a request that is no longer there only returns its token. -/
theorem bankToken_refused_reads {s : State} {j : BankJob} {rid : Nat} (c st : Nat) (of : j.rid = some rid) (gone : kvGet? rid s.recs = none) :
    (s.bankToken j c st 0).tokens = s.tokens ++ [{ part := j.part, channel := c, tag := dTag j.desc, status := st, records := 0 }] ∧
      (s.bankToken j c st 0).bank = s.bank ∧ (s.bankToken j c st 0).mem = s.mem := by
  unfold State.bankToken
  dsimp only
  split
  · simp
  · split
    · exact ⟨rfl, rfl, rfl⟩
    · rw [of]
      simp [gone]

/-! ### Issue -/

theorem exec_bank {s : State} {i : Instr} {op p c rid : Nat} {d : List Byte}
    (h : (op, i) ∈ [(1, Instr.scanHam p c rid d), (2, Instr.gatherHam p c rid d),
    (3, Instr.scanBits p c rid d), (4, Instr.copy p c rid d), (5, Instr.fill p c rid d)]) : exec i s = .next (s.bankIssue op p c rid d) := by
  simp only [List.mem_cons, Prod.mk.injEq, List.not_mem_nil, or_false] at h
  obtain ⟨rfl, rfl⟩ | ⟨rfl, rfl⟩ | ⟨rfl, rfl⟩ | ⟨rfl, rfl⟩ | ⟨rfl, rfl⟩ := h <;> rfl

theorem bank_op {i : Instr} {op p c rid : Nat} {d : List Byte} (h : (op, i) ∈ [(1, Instr.scanHam p c rid d), (2, Instr.gatherHam p c rid d),
    (3, Instr.scanBits p c rid d), (4, Instr.copy p c rid d), (5, Instr.fill p c rid d)]) : op = 1 ∨ op = 2 ∨ op = 3 ∨ op = 4 ∨ op = 5 := by
  simp only [List.mem_cons, Prod.mk.injEq, List.not_mem_nil, or_false] at h
  omega

/-- The job that a descriptor of a request makes. -/
def State.jobOf (s : State) (p rid : Nat) (d : List Byte) : BankJob := { part := p, rid := some rid, desc := d, fence := false, since := s.now }

theorem bankIssue_refused {s : State} {op p c rid st : Nat} {d : List Byte}
    (bad : (dBop d ≠ op ∧ st = scBadCommand) ∨ (dBop d = op ∧ s.bankCheck p c (s.jobOf p rid d) = some st)) :
    s.bankIssue op p c rid d = s.bankToken (s.jobOf p rid d) c st 0 := by
  have refused : (if dBop d ≠ op then some scBadCommand else s.bankCheck p c (s.jobOf p rid d)) = some st := by
    obtain ⟨other, rfl⟩ | ⟨same, failed⟩ := bad
    · exact if_pos other
    · rw [if_neg (not_not.mpr same), failed]
  unfold State.bankIssue
  change (match (if dBop d ≠ op then some scBadCommand else s.bankCheck p c (s.jobOf p rid d)) with
    | some st => s.bankToken (s.jobOf p rid d) c st 0
    | none => s.bankQueue c (s.jobOf p rid d)) = _
  rw [refused]

theorem bankIssue_passed {s : State} {op p c rid : Nat} {d : List Byte} (is : dBop d = op) (ok : s.bankCheck p c (s.jobOf p rid d) = none) :
    s.bankIssue op p c rid d = s.bankQueue c (s.jobOf p rid d) := by
  unfold State.bankIssue
  change (match (if dBop d ≠ op then some scBadCommand else s.bankCheck p c (s.jobOf p rid d)) with
    | some st => s.bankToken (s.jobOf p rid d) c st 0
    | none => s.bankQueue c (s.jobOf p rid d)) = _
  rw [if_neg (not_not.mpr is), ok]

/-! ### The queue of a channel -/

/-- A job takes its place in a channel's queue, or waits for one at its issuer. -/
def State.placeJob (s : State) (c : Nat) (j : BankJob) : State :=
  s.modChan c (fun x => if x.jobs.length < 256 then { x with jobs := x.jobs ++ [j], idle := s.now } else { x with surplus := x.surplus ++ [j] })

theorem placeJob_room {s : State} {c : Nat} (j : BankJob) (room : (s.chan c).jobs.length < 256) :
    (s.placeJob c j).chan c = { s.chan c with jobs := (s.chan c).jobs ++ [j], idle := s.now } :=
  (s.chan_modChan c _).trans (if_pos room)

theorem placeJob_full {s : State} {c : Nat} (j : BankJob) (full : 256 ≤ (s.chan c).jobs.length) :
    (s.placeJob c j).chan c = { s.chan c with surplus := (s.chan c).surplus ++ [j] } :=
  (s.chan_modChan c _).trans (if_neg (by omega))

/-- A channel in PROCESSOR mode takes a job without a switch. -/
theorem bankQueue_processor {s : State} {c : Nat} (j : BankJob) (mode : (s.chan c).state = 2) :
    s.bankQueue c j = (s.placeJob c j).bankStart c 257 := by
  have kept : ((s.placeJob c j).chan c).state = 2 := by
    unfold State.placeJob
    rw [State.chan_modChan]
    split <;> exact mode
  unfold State.bankQueue
  change (if ((s.placeJob c j).chan c).state = 0 then _ else s.placeJob c j).bankStart c 257 = _
  rw [if_neg (by rw [kept]; decide)]

theorem bankStart_busy {s : State} {c : Nat} {r : BankRun} (n : Nat) (run : (s.chan c).run = some r) : s.bankStart c n = s := by
  unfold State.bankStart
  split
  · rfl
  · exact if_pos (.inl (by rw [run]; rfl))

theorem bankStart_empty {s : State} {c : Nat} (n : Nat) (none : (s.chan c).jobs = []) : s.bankStart c n = s := by
  unfold State.bankStart
  split
  · rfl
  · dsimp only
    split
    · rfl
    · rw [none]

/-- A token waits at the head of its queue. -/
theorem bankStart_token {s : State} {c : Nat} {j : BankJob} {js : List BankJob} (n : Nat) (head : (s.chan c).jobs = j :: js)
    (token : dBop j.desc = 0x0F) :
    s.bankStart c n = s := by
  unfold State.bankStart
  split
  · rfl
  · dsimp only
    split
    · rfl
    · rw [head]
      exact if_pos token

/-- A passed command whose channel runs another. -/
theorem bank_waits {s : State} {i : Instr} {op p c rid : Nat} {d : List Byte} {r : BankRun} (h : (op, i) ∈ [(1, Instr.scanHam p c rid d),
    (2, Instr.gatherHam p c rid d), (3, Instr.scanBits p c rid d), (4, Instr.copy p c rid d), (5, Instr.fill p c rid d)]) (is : dBop d = op)
    (ok : s.bankCheck p c (s.jobOf p rid d) = none) (run : (s.chan c).run = some r) (mode : (s.chan c).state = 2) :
    exec i s = .next (s.placeJob c (s.jobOf p rid d)) := by
  have kept : ((s.placeJob c (s.jobOf p rid d)).chan c).run = some r := by
    unfold State.placeJob
    rw [State.chan_modChan]
    split <;> exact run
  rw [exec_bank h, bankIssue_passed is ok, bankQueue_processor _ mode, bankStart_busy _ kept]

/-! ### The start of a command -/

/-- A job that starts as it is queued. -/
theorem bankQueue_starts {s t : State} {c : Nat} {j : BankJob} (mode : (s.chan c).state = 2) (idle : (s.chan c).run = none)
    (empty : (s.chan c).jobs = [])
    (command : dBop j.desc ≠ 0x0F) (cool : s.fld (rBkeStackStatus (stackOf c)) fBkeStackStatus_THROTTLED = 0) (prompt : (s.chan c).ringWait = none)
    (room : (s.chan c).flushNeed j.desc ≤ s.ringFree c (dRing j.desc)) (begins : ((s.placeJob c j).popJob c).bankBegin c j = some t) :
    s.bankQueue c j = t := by
  have placed := placeJob_room (s := s) (c := c) j (by rw [empty]; decide)
  have need : ((s.placeJob c j).chan c).flushNeed j.desc = (s.chan c).flushNeed j.desc := by rw [placed]; rfl
  have free : (s.placeJob c j).ringFree c (dRing j.desc) = s.ringFree c (dRing j.desc) := by
    unfold State.ringFree
    rw [placed]
    rfl
  have done : (s.placeJob c j).endRingWait c = s.placeJob c j := by
    unfold State.endRingWait
    rw [placed]
    simp only [prompt]
  have may : ¬(((s.placeJob c j).chan c).run.isSome = true ∨ (((s.placeJob c j).chan c).state ≠ 2 ∧ ((s.placeJob c j).chan c).state ≠ 5 ∧
      ((s.placeJob c j).chan c).state ≠ 6)) := by
    rw [placed]
    simp [idle, mode]
  have head : ((s.placeJob c j).chan c).jobs = [j] := by rw [placed, empty]; rfl
  have processor : ((s.placeJob c j).chan c).state = 2 := by rw [placed]; exact mode
  have ready : (s.placeJob c j).fld (rBkeStackStatus (stackOf c)) fBkeStackStatus_THROTTLED = 0 := cool
  rw [bankQueue_processor j mode]
  unfold State.bankStart
  dsimp only
  rw [if_neg may, head]
  dsimp only
  rw [if_neg command, if_neg (by rw [ready]; simp), if_neg (by rw [need, free]; omega), done, begins]
  exact if_pos processor

theorem popped_chan {s : State} {c : Nat} (j : BankJob) (empty : (s.chan c).jobs = []) (none : (s.chan c).surplus = []) :
    ((s.placeJob c j).popJob c).chan c = { s.chan c with jobs := [], idle := s.now, surplus := [] } := by
  unfold State.popJob
  rw [State.chan_modChan, placeJob_room j (by rw [empty]; decide), empty, none]
  rfl

/-- A comparing command that keeps no tag opens its own on a channel without tags. -/
theorem bankBegin_compare {s : State} {c : Nat} {j : BankJob} (compare : dBop j.desc = 1 ∨ dBop j.desc = 2) (own : dKeep j.desc = false)
    (none : (s.chan c).tags = []) : s.bankBegin c j = some (s.modChan c (fun x => { x with
      tags := x.tags.filter (fun y => y.tag != dTag j.desc)
          ++ [BTag.mk (dTag j.desc) (dWidth j.desc) (queryBlock (dWidth j.desc) (s.jobBlock j) (dQCount j.desc)) [] []]
      run := some { job := j, writes := [], sums := [] } })) := by
  unfold State.bankBegin
  dsimp only
  rw [if_pos compare, own, none]
  rfl

/-- The bits of a row combined with the row of the second bitmap, as SCAN_BITS combines them. -/
def State.bitsOf (s : State) (c : Nat) (d : List Byte) (n : Nat) : List Byte :=
  List.zipWith (fun (x y : Byte) => x &&& (if dInvert d then ~~~y else y)) (s.readMem (rowAddr c n) 2048)
    (s.readMem (rowAddr c (n - dRowFirst d + dSrc d)) 2048)

/-- The run of SCAN_BITS: a count for each bank, and the rows it writes where it has a destination. -/
def State.bitsRun (s : State) (c : Nat) (j : BankJob) : BankRun where
  job := j
  sums := (dBanks j.desc).map (fun b => (b, (bankRows (dRowFirst j.desc) (dRowCount j.desc) b).foldl
      (fun n x => n + popBytes (s.bitsOf c j.desc x)) 0))
  writes := if dDst j.desc = noDst then [] else ((dBanks j.desc).map (fun b => (b, bankRows (dRowFirst j.desc) (dRowCount j.desc) b))).flatMap
    (fun x => x.2.map (fun r => (rowAddr c (r - dRowFirst j.desc + dDst j.desc), s.bitsOf c j.desc r)))

/-- The run of COPY. -/
def State.copyRun (s : State) (c : Nat) (j : BankJob) : BankRun where
  job := j
  sums := []
  writes := (dBanks j.desc).flatMap (fun b => (bankRows (dSrc j.desc) (dRowCount j.desc) b).map
    (fun n => (rowAddr c (n - dSrc j.desc + dDst j.desc), s.readMem (rowAddr c n) 2048)))

/-- The run of FILL. -/
def fillRun (c : Nat) (j : BankJob) : BankRun where
  job := j
  sums := []
  writes := (dBanks j.desc).flatMap (fun b => (bankRows (dDst j.desc) (dRowCount j.desc) b).map
    (fun n => (rowAddr c n, (List.replicate 256 ((j.desc.drop 56).take 8)).flatten)))

theorem bankBegin_bits {s : State} {c : Nat} {j : BankJob} (is : dBop j.desc = 3) :
    s.bankBegin c j = some (s.modChan c (fun x => { x with run := some (s.bitsRun c j) })) := by
  unfold State.bankBegin
  dsimp only
  rw [if_neg (by omega), if_pos is, List.map_map]
  rfl

theorem bankBegin_copy {s : State} {c : Nat} {j : BankJob} (is : dBop j.desc = 4) :
    s.bankBegin c j = some (s.modChan c (fun x => { x with run := some (s.copyRun c j) })) := by
  unfold State.bankBegin
  dsimp only
  rw [if_neg (by omega), if_neg (by omega), if_pos is]
  rfl

theorem bankBegin_fill {s : State} {c : Nat} {j : BankJob} (is : dBop j.desc = 5) :
    s.bankBegin c j = some (s.modChan c (fun x => { x with run := some (fillRun c j) })) := by
  unfold State.bankBegin
  dsimp only
  rw [if_neg (by omega), if_neg (by omega), if_neg (by omega)]
  rfl

/-! ### The end of a command -/

/-- What a step between the comparison and the token leaves: the run, the queue, the tags, the tokens. -/
structure Settles (s t : State) (c : Nat) : Prop where
  jobs : (t.chan c).jobs = (s.chan c).jobs
  tags : (t.chan c).tags = (s.chan c).tags
  tokens : t.tokens = s.tokens

namespace Settles
variable {s t : State} {c : Nat}

theorem refl (s : State) (c : Nat) : Settles s s c := ⟨rfl, rfl, rfl⟩

theorem modChan {f : BankCh → BankCh} (h : Settles s t c) (jobs : (f (t.chan c)).jobs = (t.chan c).jobs)
    (tags : (f (t.chan c)).tags = (t.chan c).tags) :
    Settles s (t.modChan c f) c :=
  ⟨by rw [State.chan_modChan, jobs, h.jobs], by rw [State.chan_modChan, tags, h.tags], h.tokens⟩

theorem noteRows {j : BankJob} (h : Settles s t c) : Settles s (t.noteRows c j) c := by
  unfold State.noteRows
  split
  · exact h
  · exact h.modChan rfl rfl

theorem pendWrite {a : Nat} {bs : List Byte} (h : Settles s t c) : Settles s (t.pendWrite c a bs) c := by
  unfold State.pendWrite
  split
  · exact h.modChan rfl rfl
  · exact modChan (t := t.hide a bs.length) ⟨h.jobs, h.tags, h.tokens⟩ rfl rfl

theorem foldl {α : Type} {f : State → α → State} {l : List α} (h : Settles s t c) (step : ∀ u a, Settles s u c → Settles s (f u a) c) :
    Settles s (l.foldl f t) c := by
  induction l generalizing t with
  | nil => exact h
  | cons a l ih => exact ih (step t a h)

end Settles

theorem event_settles (s : State) (c a b d e f g k : Nat) : Settles s (s.event a b d e f g k) c := by
  have bank : (s.event a b d e f g k).bank = s.bank := by simp
  exact ⟨by rw [State.chan_of_bank bank], by rw [State.chan_of_bank bank], by simp⟩

/-- The comparison of a command changes the lists of its tag only. -/
theorem runCompare_chan (s : State) (c : Nat) (j : BankJob) :
    ((s.runCompare c j).chan c).jobs = (s.chan c).jobs ∧ (s.runCompare c j).tokens = s.tokens ∧
    ((s.runCompare c j).chan c).pend = (s.chan c).pend ∧
    (dBop j.desc = 1 ∨ dBop j.desc = 2 → ((s.runCompare c j).chan c).tags = (s.chan c).tags.map
        (fun y => if y.tag = dTag j.desc then s.tagRun c j y else y)) := by
  have bank : ∀ (l : List (Nat × Nat)) (t : State),
      (l.foldl (fun (t : State) (x : Nat × Nat) => t.event 1 3 6 0 (16 * c + x.1) j.part x.2) t).bank = t.bank ∧
      (l.foldl (fun (t : State) (x : Nat × Nat) => t.event 1 3 6 0 (16 * c + x.1) j.part x.2) t).tokens = t.tokens := by
    intro l
    induction l with
    | nil => exact fun t => ⟨rfl, rfl⟩
    | cons x l ih =>
      intro t
      have rest := ih (t.event 1 3 6 0 (16 * c + x.1) j.part x.2)
      simpa using rest
  unfold State.runCompare
  split
  next other => exact ⟨rfl, rfl, rfl, fun is => by omega⟩
  next =>
    dsimp only
    obtain ⟨same, tokens⟩ := bank (s.engineDrops c j)
        (s.modChan c (fun x => { x with tags := x.tags.map (fun t => if t.tag = dTag j.desc then s.tagRun c j t else t) }))
    rw [State.chan_of_bank same, tokens, State.chan_modChan]
    exact ⟨rfl, rfl, rfl, fun _ => rfl⟩

/-- The comparison made and its rows counted: what a finished command writes is formed from this state. -/
def State.compared (s : State) (c : Nat) (r : BankRun) : State := (s.runCompare c r.job).noteRows c r.job

/-- The records of a finished command, waiting for a token, in the next places of their ring. -/
def State.ringRecords (s : State) (c : Nat) (r : BankRun) (ch : BankCh) : State :=
  match ch.ring with
  | some base => ((ringPlaces base (dRing r.job.desc) ((ch.records r).map Prod.fst)
      ((List.range (ch.records r).length).map (fun k => (kvGetD 0 (dRing r.job.desc) ch.written + k) % 2 ^ 32))).zip (ch.records r)).foldl
      (fun (t : State) (x : Nat × Nat × List Byte) => t.pendWrite c (base + 4096 + dRing r.job.desc * 327680 + x.1 % 2048 * 160) x.2.2) s
  | none => s

/-- The rows and records of a finished command, waiting for a token. -/
def State.recorded (s : State) (c : Nat) (r : BankRun) (ch : BankCh) : State :=
  let s := (r.writes.foldl (fun t w => t.pendWrite c w.1 w.2) s).ringRecords c r ch
  if (ch.records r).isEmpty then s
  else s.modChan c (fun x => { x with
    written := kvPut (dRing r.job.desc) ((kvGetD 0 (dRing r.job.desc) ch.written + (ch.records r).length) % 2 ^ 32) x.written })

/-- A finished command leaves its channel; a flushed tag closes. -/
def State.bankClosed (s : State) (c : Nat) (d : List Byte) : State :=
  s.modChan c (fun x => { x with run := none, idle := s.now, tags := if dFlush d then x.tags.filter (fun t => t.tag != dTag d) else x.tags })

theorem execBankCmdDone_eq {s : State} {c : Nat} {r : BankRun} (run : (s.chan c).run = some r) : exec (.bankCmdDone c) s =
    .next (((((s.compared c r).recorded c r ((s.compared c r).chan c)).bankClosed c r.job.desc).bankToken r.job c scDone
      (((s.compared c r).chan c).records r).length).bankStart c 257) := by
  show execBankCmdDone c s = _
  unfold execBankCmdDone
  rw [run]
  rfl

theorem ringRecords_settles {s t : State} {c : Nat} (r : BankRun) (ch : BankCh) (h : Settles s t c) : Settles s (t.ringRecords c r ch) c := by
  unfold State.ringRecords
  split
  · exact h.foldl fun u a h => h.pendWrite
  · exact h

theorem recorded_settles (s : State) (c : Nat) (r : BankRun) (ch : BankCh) : Settles s (s.recorded c r ch) c := by
  have rows : Settles s (r.writes.foldl (fun t w => t.pendWrite c w.1 w.2) s) c := (Settles.refl s c).foldl fun u a h => h.pendWrite
  unfold State.recorded
  dsimp only
  split
  · exact ringRecords_settles r ch rows
  · exact (ringRecords_settles r ch rows).modChan rfl rfl

/-- Rows that wait for a token are added in order. -/
theorem pend_pendWrites (c : Nat) (l : List (Nat × List Byte)) (s : State) :
    ((l.foldl (fun t w => t.pendWrite c w.1 w.2) s).chan c).pend = (s.chan c).pend ++ l := by
  induction l generalizing s with
  | nil => simp
  | cons w l ih =>
    have one : ((s.pendWrite c w.1 w.2).chan c).pend = (s.chan c).pend ++ [w] := by
      unfold State.pendWrite
      rw [State.chan_modChan]
      split <;> rfl
    rw [List.foldl_cons, ih, one, List.append_assoc]
    rfl

theorem ringRecords_none {s : State} {c : Nat} {r : BankRun} {ch : BankCh} (none : ch.records r = []) : s.ringRecords c r ch = s := by
  unfold State.ringRecords
  rw [none]
  split
  · rw [List.zip_nil_right]
    rfl
  · rfl

/-- A command without records has only its rows written. -/
theorem recorded_pend {s : State} {c : Nat} {r : BankRun} {ch : BankCh} (none : ch.records r = []) :
    ((s.recorded c r ch).chan c).pend = (s.chan c).pend ++ r.writes := by
  unfold State.recorded
  rw [ringRecords_none none, none]
  exact pend_pendWrites c r.writes s

theorem records_plain {ch : BankCh} {r : BankRun} (is : dBop r.job.desc = 4 ∨ dBop r.job.desc = 5) : ch.records r = [] := by
  unfold BankCh.records
  dsimp only
  rw [if_neg (by omega), if_neg (by omega)]

theorem noteRows_chan (s : State) (c : Nat) (j : BankJob) :
    ((s.noteRows c j).chan c).pend = (s.chan c).pend ∧ ∀ r, ((s.noteRows c j).chan c).records r =
    (s.chan c).records r := by
  unfold State.noteRows
  split
  · exact ⟨rfl, fun _ => rfl⟩
  · dsimp only
    rw [State.chan_modChan]
    exact ⟨rfl, fun _ => rfl⟩

/-! ### Fence tokens -/

theorem writeChan_reads (s : State) (a : Nat) (bs : List Byte) : (s.writeChan a bs).bank = s.bank ∧ (s.writeChan a bs).tokens = s.tokens := by
  unfold State.writeChan
  split <;> exact ⟨rfl, rfl⟩

theorem writeChans_reads {α : Type} (l : List α) (a : α → Nat) (bs : α → List Byte) (s : State) :
    (l.foldl (fun (t : State) x => t.writeChan (a x) (bs x)) s).bank = s.bank ∧
        (l.foldl (fun (t : State) x => t.writeChan (a x) (bs x)) s).tokens = s.tokens := by
  induction l generalizing s with
  | nil => exact ⟨rfl, rfl⟩
  | cons x l ih =>
    obtain ⟨bank, tokens⟩ := ih (s.writeChan (a x) (bs x))
    obtain ⟨one, returned⟩ := writeChan_reads s (a x) (bs x)
    exact ⟨bank.trans one, tokens.trans returned⟩

/-- A fence token writes what waits, and leaves the queue and the tokens. -/
theorem fenceChan_reads (s : State) (c : Nat) : ((s.fenceChan c).chan c).jobs = (s.chan c).jobs ∧ ((s.fenceChan c).chan c).pend = [] ∧
    (s.fenceChan c).tokens = s.tokens := by
  obtain ⟨rows, rowTokens⟩ := writeChans_reads (s.chan c).pend (fun w => w.1) (fun w => w.2) s
  unfold State.fenceChan
  dsimp only
  rw [State.chan_modChan]
  split
  next base _ =>
    obtain ⟨ring, ringTokens⟩ := writeChans_reads (s.chan c).written (fun x => base + x.1 * 16) (fun x => leBytes 4 x.2)
      ((s.chan c).pend.foldl (fun t w => t.writeChan w.1 w.2) s)
    rw [State.chan_of_bank (ring.trans rows)]
    exact ⟨rfl, rfl, ringTokens.trans rowTokens⟩
  next =>
    rw [State.chan_of_bank rows]
    exact ⟨rfl, rfl, rowTokens⟩

/-- A channel without a ring has one write waiting written. -/
theorem fenceChan_mem {s : State} {c a : Nat} {bs : List Byte} (waits : (s.chan c).pend = [(a, bs)]) (ring : (s.chan c).ring = none)
    (sound : s.isFenced 7 (a / 2 ^ 31) = false) : (s.fenceChan c).mem = (s.writeMem a bs).mem := by
  unfold State.fenceChan
  dsimp only
  rw [ring, waits]
  simp only [List.foldl_cons, List.foldl_nil, State.writeChan, sound]
  rfl

/-- A channel's turn to pass the token at the head of its queue. -/
def State.passToken (s : State) (p c : Nat) : Host.Outcome State Fault Refusal :=
  match (s.chan c).run, (s.chan c).jobs with
  | none, j :: _ =>
    if dBop j.desc = 0x0F ∧ j.part = p then
      .next (((((s.popJob c).fenceChan c).takeRecords c j).bankToken { j with rid := none } c scDone 0).bankStart c 257)
    else .next (s.bankStart c 257)
  | _, _ => .next s

theorem execBkeFenceToken_queued (s : State) (p c : Nat) : exec (.bkeFenceToken p { chan := c }) s = s.passToken p c := rfl

theorem execBkeFenceToken_issued (s : State) (p c rid : Nat) {d : List Byte} (some : d ≠ []) :
    exec (.bkeFenceToken p { chan := c, rid := rid, desc := d }) s = (s.tokenIssue p c rid d).passToken p c := by
  show execBkeFenceToken p { chan := c, rid := rid, desc := d } s = _
  unfold execBkeFenceToken
  dsimp only
  rw [if_neg some]
  rfl

theorem tokenIssue_bad {s : State} {p c rid : Nat} {d : List Byte} (bad : dBop d ≠ 0x0F ∨ dFieldsOk p c d = false) :
    s.tokenIssue p c rid d = s.bankToken (s.jobOf p rid d) c scBadCommand 0 := if_pos bad

theorem tokenIssue_elsewhere {s : State} {p c rid : Nat} {d : List Byte} (token : dBop d = 0x0F) (ok : dFieldsOk p c d = true)
    (proc : bitOf (s.pcfg p).procChannels c = false) : s.tokenIssue p c rid d = s.bankToken (s.jobOf p rid d) c scBadHandle 0 :=
  (if_neg (by simp [token, ok])).trans (if_neg (by simp [proc]))

theorem tokenIssue_queued {s : State} {p c rid : Nat} {d : List Byte} (token : dBop d = 0x0F) (ok : dFieldsOk p c d = true)
    (proc : bitOf (s.pcfg p).procChannels c = true) (mode : (s.chan c).state = 2) (empty : (s.chan c).jobs = []) :
    s.tokenIssue p c rid d = s.placeJob c (s.jobOf p rid d) := by
  have head : ((s.placeJob c (s.jobOf p rid d)).chan c).jobs = [s.jobOf p rid d] := by
    rw [placeJob_room _ (by rw [empty]; decide), empty]
    rfl
  refine (if_neg (by simp [token, ok])).trans ((if_pos proc).trans ((bankQueue_processor _ mode).trans ?_))
  exact bankStart_token _ head token

theorem passToken_empty {s : State} (p : Nat) {c : Nat} (idle : (s.chan c).run = none) (empty : (s.chan c).jobs = []) :
    s.passToken p c = .next s := by
  unfold State.passToken
  rw [idle, empty]

/-- A token at the head of an idle channel's queue is passed: its write done, its token returned. -/
theorem passToken_head {s : State} {p c : Nat} {j : BankJob} (idle : (s.chan c).run = none) (head : (s.chan c).jobs = [j])
    (none : (s.chan c).surplus = [])
    (token : dBop j.desc = 0x0F) (mine : j.part = p) (own : j.own = .none) : ∃ t, s.passToken p c = .next t ∧
      t.tokens = s.tokens ++ [{ part := p, channel := c, tag := dTag j.desc, status := scDone, records := 0 }] ∧ (t.chan c).pend = [] ∧
      (t.chan c).jobs = [] ∧ t.mem = ((s.popJob c).fenceChan c).mem := by
  have popped : (s.popJob c).chan c = { s.chan c with jobs := [], surplus := [] } := by
    unfold State.popJob
    rw [State.chan_modChan, head, none]
    rfl
  obtain ⟨jobs, pend, tokens⟩ := fenceChan_reads (s.popJob c) c
  obtain ⟨returned, bank, mem⟩ := bankToken_done_reads ((s.popJob c).fenceChan c) { j with rid := .none } c 0
  have chan := State.chan_of_bank bank c
  have empty : ((((s.popJob c).fenceChan c).bankToken { j with rid := .none } c scDone 0).chan c).jobs = [] := by rw [chan, jobs, popped]
  refine ⟨((s.popJob c).fenceChan c).bankToken { j with rid := .none } c scDone 0, ?_, ?_, by rw [chan, pend], empty, mem⟩
  · have took : ((s.popJob c).fenceChan c).takeRecords c j = (s.popJob c).fenceChan c := by
      unfold State.takeRecords
      rw [own]
    unfold State.passToken
    rw [idle, head]
    dsimp only
    rw [if_pos ⟨token, mine⟩, took, bankStart_empty _ empty]
  · rw [returned, tokens, ← mine]
    rfl

/-- Settles O19: a command is refused, queued or started by its channel's state; its end and a fence token leave what they name. -/
theorem bankCommands : Obligations.BankCommands := by
  unfold Obligations.BankCommands
  refine ⟨?_, ?_, ?_, ?_, ?_, ?_⟩
  · intro s i op p c rid st d h gone bad
    obtain ⟨tokens, bank, mem⟩ := bankToken_refused_reads (s := s) (j := s.jobOf p rid d) c st rfl gone
    exact ⟨_, (exec_bank h).trans (congrArg Host.Outcome.next (bankIssue_refused bad)), tokens, bank, mem⟩
  · rintro s i op p c rid d r j h rfl is ok run mode
    exact ⟨fun room => ⟨_, bank_waits h is ok run mode, placeJob_room _ room, rfl, rfl⟩,
      fun full => ⟨_, bank_waits h is ok run mode, placeJob_full _ full, rfl, rfl⟩⟩
  · rintro s i op p c rid d j h rfl is ok idle mode empty none prompt tags keep cool room
    have which := bank_op h
    have command : dBop (s.jobOf p rid d).desc ≠ 0x0F := by rw [show (s.jobOf p rid d).desc = d from rfl]; omega
    have popped := popped_chan (s.jobOf p rid d) empty none
    have run : ∀ t, ((s.placeJob c (s.jobOf p rid d)).popJob c).bankBegin c (s.jobOf p rid d) = some t → exec i s = .next t := fun t begins => by
      rw [exec_bank h, bankIssue_passed is ok, bankQueue_starts mode idle empty command cool prompt room begins]
    by_cases compare : op ≤ 2
    · have begins := bankBegin_compare (s := (s.placeJob c (s.jobOf p rid d)).popJob c) (c := c) (j := s.jobOf p rid d)
        (by rw [show (s.jobOf p rid d).desc = d from rfl]; omega) keep (by rw [popped]; exact tags)
      refine ⟨_, _, run _ begins, by rw [State.chan_modChan], rfl, by rw [State.chan_modChan, popped], rfl, rfl, fun _ => ⟨rfl, ?_⟩, by omega,
          by omega, by omega⟩
      rw [State.chan_modChan, popped]
      dsimp only
      rw [tags]
      rfl
    · obtain e | e | e : op = 3 ∨ op = 4 ∨ op = 5 := by omega
      · have begins := bankBegin_bits (s := (s.placeJob c (s.jobOf p rid d)).popJob c) (c := c) (j := s.jobOf p rid d) (is.trans e)
        exact ⟨_, _, run _ begins, by rw [State.chan_modChan], rfl, by rw [State.chan_modChan, popped], rfl, rfl, by omega,
          fun _ => ⟨rfl, fun none => if_pos none⟩, by omega, by omega⟩
      · have begins := bankBegin_copy (s := (s.placeJob c (s.jobOf p rid d)).popJob c) (c := c) (j := s.jobOf p rid d) (is.trans e)
        exact ⟨_, _, run _ begins, by rw [State.chan_modChan], rfl, by rw [State.chan_modChan, popped], rfl, rfl, by omega, by omega, fun _ =>
            rfl, by omega⟩
      · have begins := bankBegin_fill (s := (s.placeJob c (s.jobOf p rid d)).popJob c) (c := c) (j := s.jobOf p rid d) (is.trans e)
        exact ⟨_, _, run _ begins, by rw [State.chan_modChan], rfl, by rw [State.chan_modChan, popped], rfl, rfl, by omega, by omega, by omega,
            fun _ => rfl⟩
  · intro s c r run empty
    obtain ⟨jobs, tokens, pend, tags⟩ := runCompare_chan s c r.job
    obtain ⟨noted, records⟩ := noteRows_chan (s.runCompare c r.job) c r.job
    have rows : Settles (s.runCompare c r.job) (s.compared c r) c := (Settles.refl _ c).noteRows
    have after := recorded_settles (s.compared c r) c r ((s.compared c r).chan c)
    have closed := State.chan_modChan ((s.compared c r).recorded c r ((s.compared c r).chan c)) c (fun x => { x with
      run := none, idle := ((s.compared c r).recorded c r ((s.compared c r).chan c)).now,
      tags := if dFlush r.job.desc then x.tags.filter (fun t => t.tag != dTag r.job.desc) else x.tags })
    obtain ⟨returned, bank, _⟩ := bankToken_done_reads (((s.compared c r).recorded c r ((s.compared c r).chan c)).bankClosed c r.job.desc) r.job c
      (((s.compared c r).chan c).records r).length
    have chan := (State.chan_of_bank bank c).trans closed
    have none : (((s.compared c r).recorded c r ((s.compared c r).chan c)).chan c).jobs = [] := by rw [after.jobs, rows.jobs, jobs, empty]
    refine ⟨_, (execBankCmdDone_eq run).trans (congrArg Host.Outcome.next (bankStart_empty _ (by rw [chan]; exact none))), by rw [chan], ?_, ?_, ?_⟩
    · rw [returned, ← records r, ← tokens, ← rows.tokens, ← after.tokens]
      rfl
    · intro compare unflushed
      rw [chan, ← tags compare, ← rows.tags, ← after.tags]
      simp [unflushed]
    · intro plain
      rw [chan, ← pend, ← noted]
      exact recorded_pend (records_plain plain)
  · intro s p c a bs j idle head none token mine own pend ring sound
    obtain ⟨t, pass, tokens, written, empty, mem⟩ := passToken_head idle head none token mine own
    refine ⟨t, pass, tokens, written, empty, mem.trans ?_⟩
    exact fenceChan_mem (s := s.popJob c) (by unfold State.popJob; rw [State.chan_modChan]; exact pend)
      (by unfold State.popJob; rw [State.chan_modChan]; exact ring) sound
  · intro s p c rid d some idle empty none mode gone
    refine ⟨?_, ?_, ?_⟩
    · intro token ok proc
      have placed := placeJob_room (s := s) (c := c) (s.jobOf p rid d) (by rw [empty]; decide)
      have head : ((s.placeJob c (s.jobOf p rid d)).chan c).jobs = [s.jobOf p rid d] := by rw [placed, empty]; rfl
      obtain ⟨t, pass, tokens, written, done, _⟩ := passToken_head (p := p) (by rw [placed]; exact idle) head (by rw [placed]; exact none)
          token rfl rfl
      exact ⟨t, by rw [execBkeFenceToken_issued s p c rid some, tokenIssue_queued token ok proc mode empty, pass], done, written, tokens⟩
    · intro bad
      obtain ⟨tokens, bank, _⟩ := bankToken_refused_reads (s := s) (j := s.jobOf p rid d) c scBadCommand rfl gone
      have chan := State.chan_of_bank bank c
      refine ⟨_, ?_, bank, tokens⟩
      rw [execBkeFenceToken_issued s p c rid some, tokenIssue_bad bad, passToken_empty p (chan ▸ idle) (chan ▸ empty)]
    · intro token ok proc
      obtain ⟨tokens, bank, _⟩ := bankToken_refused_reads (s := s) (j := s.jobOf p rid d) c scBadHandle rfl gone
      have chan := State.chan_of_bank bank c
      refine ⟨_, ?_, bank, tokens⟩
      rw [execBkeFenceToken_issued s p c rid some, tokenIssue_elsewhere token ok proc, passToken_empty p (chan ▸ idle) (chan ▸ empty)]

end Sys2Proof.Machine
end

section
set_option Elab.async false
/-! SUPPORT. Channels (spec/06): linger, held accesses, yields, refresh, throttling, and BKE_FENCE. -/

namespace Sys2Proof.Machine

/-! ### Held accesses -/

theorem serveHeld_bank (s : State) (l : List HeldAcc) : (s.serveHeld l).bank = s.bank := by
  unfold State.serveHeld
  induction l generalizing s with
  | nil => rfl
  | cons h l ih =>
    refine (ih _).trans ?_
    dsimp only
    split
    · exact (writeChan_reads s _ _).1
    · rfl

theorem serveHeld_write {s : State} {a n : Nat} {bs : List Byte} (sound : s.isFenced 7 (a / 2 ^ 31) = false) :
    s.serveHeld [{ addr := a, write := true, data := bs, since := n }] = s.writeMem a bs := by
  show s.writeChan a bs = _
  unfold State.writeChan
  rw [if_neg (by rw [sound]; decide)]

theorem chanToMemory_chan (s : State) (c st : Nat) : (s.chanToMemory c st).chan c = { s.chan c with state := st, holds := [], excess := [] } := by
  unfold State.chanToMemory
  dsimp only
  rw [State.chan_modChan, State.chan_of_bank (serveHeld_bank s _)]

theorem execChannelLingerExpiry_back {s : State} {c : Nat} (mode : (s.chan c).state = 2) (idle : (s.chan c).run = none) (empty : (s.chan c).jobs = [])
    (late : (s.chan c).idle + s.lingerNs ≤ s.now) : exec (.channelLingerExpiry c) s = .next ((s.chanToMemory c 0).bump (cBkeChSwitches c) 1) :=
  if_pos ⟨mode, idle, empty, late⟩

theorem lingered_chan (s : State) (c : Nat) : ((s.chanToMemory c 0).bump (cBkeChSwitches c) 1).chan c =
    { s.chan c with state := 0, holds := [], excess := [] } :=
  (State.chan_of_bank (by simp) c).trans (chanToMemory_chan s c 0)

/-- An ordinary access that a processor channel has room to hold. -/
theorem execOrdinaryAccessHeld_held {s : State} {c : Nat} (a : Nat) (w : Bool) (bs : List Byte) (mode : (s.chan c).state = 2)
    (room : (s.chan c).holds.length < 64) :
    exec (.ordinaryAccessHeld c a w bs) s = .next ((s.bump (cBkeChHolds c) 1).modChan c (fun x => { x with
      holds := x.holds ++ [{ addr := a, write := w, data := bs, since := s.now }] })) := by
  show execOrdinaryAccessHeld c a w bs s = _
  unfold execOrdinaryAccessHeld State.holdAcc
  dsimp only
  rw [if_pos (.inl mode), if_neg (by rw [mode]; decide), if_neg (by rw [mode]; decide), if_pos room]

theorem bankStart_memory {s : State} {c : Nat} (n : Nat) (mode : (s.chan c).state = 0) : s.bankStart c n = s := by
  unfold State.bankStart
  split
  · rfl
  · exact if_pos (.inr (by rw [mode]; decide))

theorem execOrdinaryAccessHeld_served {s : State} {c a : Nat} (bs : List Byte) (mode : (s.chan c).state = 0)
    (sound : s.isFenced 7 (a / 2 ^ 31) = false) :
    exec (.ordinaryAccessHeld c a true bs) s = .next (s.writeMem a bs) := by
  show execOrdinaryAccessHeld c a true bs s = _
  unfold execOrdinaryAccessHeld State.holdAcc
  dsimp only
  rw [if_neg (by rw [mode]; decide), if_neg (by rw [mode]; decide), if_pos (by rw [mode]; decide), serveHeld_write sound, bankStart_memory
      (s := s.writeMem a bs) _ mode]

/-- A channel that a command runs on, or whose queue is empty, starts nothing. -/
theorem bankStart_none {s : State} {c : Nat} (n : Nat) (h : (s.chan c).run.isSome ∨ (s.chan c).jobs = []) : s.bankStart c n = s := by
  obtain run | empty := h
  · obtain ⟨r, run⟩ := Option.isSome_iff_exists.mp run
    exact bankStart_busy n run
  · exact bankStart_empty n empty

/-- What was held has been served, and what waited for room is held. -/
def State.yielded (s : State) (c : Nat) : State :=
  (((s.serveHeld (s.chan c).holds).modChan c (fun x => { x with holds := x.excess.take 64, excess := x.excess.drop 64 })).bump (cBkeChYields c)
      1).bump
    (cBkeChSwitches c) 2

theorem yielded_chan (s : State) (c : Nat) :
    (s.yielded c).chan c = { s.chan c with holds := (s.chan c).excess.take 64, excess := (s.chan c).excess.drop 64 } := by
  have counted : (s.yielded c).bank =
      ((s.serveHeld (s.chan c).holds).modChan c (fun x => { x with holds := x.excess.take 64, excess := x.excess.drop 64 })).bank := by
    unfold State.yielded
    simp only [State.bump_reads]
  rw [State.chan_of_bank counted, State.chan_modChan, State.chan_of_bank (serveHeld_bank s _)]

theorem execForcedYield_eq {s : State} {c : Nat} {h : HeldAcc} {hs : List HeldAcc} (mode : (s.chan c).state = 2) (held : (s.chan c).holds = h :: hs)
    (none : (s.chan c).run.isSome ∨ (s.chan c).jobs = []) (due : h.since + s.holdLimitNs c ≤ s.now ∨ 64 ≤ (s.chan c).holds.length) :
    exec (.forcedYield c) s = .next (s.yielded c) := by
  have rest : (s.yielded c).bankStart c 257 = s.yielded c := bankStart_none _ (by rw [yielded_chan]; exact none)
  show execForcedYield c s = _
  unfold execForcedYield
  dsimp only
  split
  next e =>
    rw [held] at e
    cases e
  next h' hs' e =>
    rw [held] at e
    cases e
    exact (if_pos ⟨mode, due⟩).trans (congrArg Host.Outcome.next rest)

/-! ### Refresh -/

/-- A stack takes the refresh interval of its temperature bin, and its longest postponement is kept. -/
def State.refreshed (s : State) (n postponed : Nat) : State :=
  (s.newBin n).setFld (rBkeStackStatus n) fBkeStackStatus_MAX_POSTPONE
      (max ((s.newBin n).fld (rBkeStackStatus n) fBkeStackStatus_MAX_POSTPONE) (min 4 postponed))

theorem execRefreshDue_eq (s : State) (c b n : Nat) : exec (.refreshDue c b n) s =
    .next (if (s.chan c).run.isSome then (s.refreshed (stackOf c) n).bump (cBkeStackRefreshIns (stackOf c)) 1 else s.refreshed (stackOf c) n) := by
  have same : (s.refreshed (stackOf c) n).chan c = s.chan c :=
    State.chan_of_bank (by simp [State.refreshed, State.newBin, State.refreshNow]) c
  show execRefreshDue c b n s = _
  unfold execRefreshDue
  dsimp only
  by_cases run : (s.chan c).run.isSome
  · rw [if_pos run]
    exact if_pos (by rw [← same] at run; exact run)
  · rw [if_neg run]
    exact if_neg (by rw [← same] at run; exact run)

theorem State.fld_setFld_above (s : State) (o : Nat) {f g : Fld} (h : f.lo + f.width ≤ g.lo) (hg : g.lo ≤ 64) (v : Nat) :
    (s.setFld o g v).fld o f = s.fld o f := by
  rw [State.fld, State.reg_setFld, if_pos rfl]
  exact Fld.get_put_above h hg v _

theorem State.fld_setFld_below (s : State) (o : Nat) {f g : Fld} (h : g.lo + g.width ≤ f.lo) (hg : g.lo + g.width ≤ 64) (v : Nat) :
    (s.setFld o g v).fld o f = s.fld o f := by
  rw [State.fld, State.reg_setFld, if_pos rfl]
  exact Fld.get_put_below h hg v _

/-- A new bin's interval is that of the stack's temperature over its trim. -/
theorem newBin_eq (s : State) (n : Nat) :
    s.newBin n = (s.putBoard { s.board with stackBase := kvPut n (refreshBase (s.stackTemp n)) s.board.stackBase }).setFld
    (rBkeStackStatus n) fBkeStackStatus_REFRESH_NS (refreshBase (s.stackTemp n) * 1000 / max 1 (s.trim 2 n).output.toNat) := by
  have base : kvGetD 3900 n (kvPut n (refreshBase (s.stackTemp n)) s.board.stackBase) = refreshBase (s.stackTemp n) := by
    rw [kvGetD, kvGet?_put_self]
    rfl
  unfold State.newBin State.refreshNow
  show State.setFld _ _ _ (kvGetD 3900 n (kvPut n (refreshBase (s.stackTemp n)) s.board.stackBase) * 1000 / max 1 (s.trim 2 n).output.toNat) = _
  rw [base]

theorem newBin_refresh (s : State) (n : Nat) : (s.newBin n).fld (rBkeStackStatus n) fBkeStackStatus_REFRESH_NS =
      refreshBase (s.stackTemp n) * 1000 / max 1 (s.trim 2 n).output.toNat % 65536 ∧
    (s.newBin n).fld (rBkeStackStatus n) fBkeStackStatus_MAX_POSTPONE = s.fld (rBkeStackStatus n) fBkeStackStatus_MAX_POSTPONE := by
  rw [newBin_eq, State.fld_setFld _ _ _ _ (by decide), State.fld_setFld_below _ _ (by decide) (by decide),
    show 2 ^ fBkeStackStatus_REFRESH_NS.width = 65536 by decide]
  exact ⟨rfl, rfl⟩

theorem refreshed_fields (s : State) (n postponed : Nat) :
    (s.refreshed n postponed).fld (rBkeStackStatus n) fBkeStackStatus_MAX_POSTPONE =
      max (s.fld (rBkeStackStatus n) fBkeStackStatus_MAX_POSTPONE) (min 4 postponed) ∧
    (s.refreshed n postponed).fld (rBkeStackStatus n) fBkeStackStatus_REFRESH_NS =
      refreshBase (s.stackTemp n) * 1000 / max 1 (s.trim 2 n).output.toNat % 65536 := by
  obtain ⟨refresh, longest⟩ := newBin_refresh s n
  have small : s.fld (rBkeStackStatus n) fBkeStackStatus_MAX_POSTPONE < 8 := Fld.get_lt _ _
  unfold State.refreshed
  rw [State.fld_setFld _ _ _ _ (by decide), State.fld_setFld_above _ _ (by decide) (by decide), refresh, longest,
    show 2 ^ fBkeStackStatus_MAX_POSTPONE.width = 8 by decide, Nat.mod_eq_of_lt (by omega)]
  exact ⟨rfl, rfl⟩

/-! ### Targeted refresh -/

theorem execTargetedRefresh_idle {s : State} {c b row n : Nat}
    (below : s.actsOf c row + n < s.fld (rBkeStackCfg (stackOf c)) fBkeStackCfg_ACT_LIMIT) :
    exec (.targetedRefresh c b { row := row, others := n }) s = .next s := if_pos (.inr below)

/-- A row past its limit is refreshed: its count starts anew. -/
def State.rowRefreshed (s : State) (c row : Nat) : State :=
  (s.modChan c (fun x => { x with acts := (x.acts.1, kvDel row x.acts.2) })).bump (cBkeStackTargeted (stackOf c)) 1

theorem rowRefreshed_chan (s : State) (c row : Nat) : (s.rowRefreshed c row).chan c =
    { s.chan c with acts := ((s.chan c).acts.1, kvDel row (s.chan c).acts.2) } :=
  by
  rw [← State.chan_modChan s c (fun x => { x with acts := (x.acts.1, kvDel row x.acts.2) })]
  exact State.chan_of_bank (by simp only [State.rowRefreshed, State.bump_reads]) c

theorem execTargetedRefresh_eq {s : State} {c b row n : Nat} (idle : (s.chan c).run = none) (bank : row % 16 = b)
    (past : s.fld (rBkeStackCfg (stackOf c)) fBkeStackCfg_ACT_LIMIT ≤ s.actsOf c row + n) :
    exec (.targetedRefresh c b { row := row, others := n }) s = .next (s.rowRefreshed c row) := by
  have may : ¬(row % 16 ≠ b ∨ s.actsOf c row + n < s.fld (rBkeStackCfg (stackOf c)) fBkeStackCfg_ACT_LIMIT) := by omega
  have none : ((s.rowRefreshed c row).chan c).run = none := by rw [rowRefreshed_chan]; exact idle
  refine (if_neg may).trans (if_neg ?_)
  show ¬((s.rowRefreshed c row).chan c).run.isSome = true
  rw [none]
  decide

theorem actsOf_rowRefreshed (s : State) (c row : Nat) : (s.rowRefreshed c row).actsOf c row = 0 := by
  unfold State.actsOf
  rw [rowRefreshed_chan]
  split
  · rw [kvGetD, kvGet?_del_self]
    rfl
  · rfl

/-! ### Throttling -/

/-- The row steps of a stack's channels start a new window. -/
def State.stepsCleared (s : State) (n : Nat) : State :=
  (List.range 32).foldl (fun (x : State) i => if (x.chan (n * 32 + i)).steps = 0 then x else x.modChan (n * 32 + i)
      (fun c => { c with steps := 0 })) s

/-- The time throttled that a window adds. -/
def State.throttleCounted (s : State) (n : Nat) : State :=
  if s.fld (rBkeStackStatus n) fBkeStackStatus_THROTTLED = 1 then s.bump (cBkeStackThrottleNs n) 10000 else s

/-- A window that has ended: THROTTLED, the engines' power and the budget in force. -/
def State.windowClosed (s : State) (n : Nat) (hot : Bool) : State :=
  (((((s.stepsCleared n).throttleCounted n).setFld (rBkeStackStatus n) fBkeStackStatus_THROTTLED hot.toNat)).setFld (rBkeStackStatus n)
    fBkeStackStatus_ENG_POWER_DW (min 0xFFFF (33 * s.stackSteps n / 10000))).setFld (rBkeStackStatus n) fBkeStackStatus_BUDGET_EFF_W
        (s.engineBudget n / 2)

/-- Whether a stack's engine power, weighed by its temperature, exceeds its budget (R193). -/
def State.exceeds (s : State) (n : Nat) : Bool :=
  decide (s.engineBudget n * 100000000 < 2 * 33 * s.stackSteps n * (1000 + 5 * (s.stackTemp n - 850).toNat))

theorem execEngineThrottleWindow_eq {s : State} {n start : Nat} (temp : Int) (late : start + 10000 ≤ s.now) :
    exec (.engineThrottleWindow n start temp) s =
      (if (s.setStackTemp n temp).exceeds n then .next ((s.setStackTemp n temp).windowClosed n ((s.setStackTemp n temp).exceeds n))
       else .next ((List.range 32).foldl (fun t i => t.bankStart (n * 32 + i) 257)
         ((s.setStackTemp n temp).windowClosed n ((s.setStackTemp n temp).exceeds n)))) :=
  if_neg (by omega)

theorem stepsCleared_reads (s : State) (n : Nat) :
    (s.stepsCleared n).regs = s.regs ∧ (s.stepsCleared n).mem = s.mem ∧ (s.stepsCleared n).tokens = s.tokens ∧
    ∀ c, ((s.stepsCleared n).chan c).jobs = (s.chan c).jobs := by
  unfold State.stepsCleared
  induction List.range 32 generalizing s with
  | nil => exact ⟨rfl, rfl, rfl, fun _ => rfl⟩
  | cons i l ih =>
    rw [List.foldl_cons]
    obtain ⟨regs, mem, tokens, jobs⟩ := ih (if (s.chan (n * 32 + i)).steps = 0 then s else s.modChan (n * 32 + i) (fun c => { c with steps := 0 }))
    rw [regs, mem, tokens]
    refine ⟨by split <;> rfl, by split <;> rfl, by split <;> rfl, fun c => (jobs c).trans ?_⟩
    split
    · rfl
    · by_cases same : c = n * 32 + i
      · rw [same, State.chan_modChan]
      · exact congrArg (fun o : Option BankCh => (o.getD {}).jobs) (kvGet?_put_ne same _ _)

theorem throttleCounted_aside (s : State) (n : Nat) : Aside s (s.throttleCounted n) := Aside.ite (Aside.refl s).bump (Aside.refl s)

theorem throttleCounted_reads (s : State) (n : Nat) : (s.throttleCounted n).mem = s.mem ∧ (s.throttleCounted n).tokens = s.tokens ∧
    (s.throttleCounted n).bank = s.bank := by
  unfold State.throttleCounted
  split <;> simp

theorem windowClosed_tables (s : State) (n : Nat) (hot : Bool) : (s.windowClosed n hot).mem = ((s.stepsCleared n).throttleCounted n).mem ∧
    (s.windowClosed n hot).tokens = ((s.stepsCleared n).throttleCounted n).tokens ∧ (s.windowClosed n hot).bank =
        ((s.stepsCleared n).throttleCounted n).bank := by
  simp [State.windowClosed]

theorem windowClosed_reads (s : State) {n : Nat} (hot : Bool) (small : n < 8) :
    (s.windowClosed n hot).fld (rBkeStackStatus n) fBkeStackStatus_THROTTLED = hot.toNat ∧
    (s.windowClosed n hot).fld (rBkeStackStatus n) fBkeStackStatus_TEMP_C = s.fld (rBkeStackStatus n) fBkeStackStatus_TEMP_C ∧
    (s.windowClosed n hot).mem = s.mem ∧ (s.windowClosed n hot).tokens = s.tokens ∧ ∀ c, ((s.windowClosed n hot).chan c).jobs = (s.chan c).jobs := by
  obtain ⟨regs, mem, tokens, jobs⟩ := stepsCleared_reads s n
  have counted := throttleCounted_aside (s.stepsCleared n) n
  have low : Uncounted (rBkeStackStatus n) := .inl (by unfold rBkeStackStatus; omega)
  have temp : ((s.stepsCleared n).throttleCounted n).fld (rBkeStackStatus n) fBkeStackStatus_TEMP_C = s.fld (rBkeStackStatus n)
      fBkeStackStatus_TEMP_C := by
    unfold State.fld
    rw [counted.reg _ low, State.reg, regs]
    rfl
  refine ⟨?_, ?_, ?_, ?_, ?_⟩
  · unfold State.windowClosed
    rw [State.fld_setFld_below _ _ (by decide) (by decide), State.fld_setFld_below _ _ (by decide) (by decide), State.fld_setFld _ _ _ _ (by decide)]
    cases hot <;> decide
  · unfold State.windowClosed
    rw [State.fld_setFld_above _ _ (by decide) (by decide), State.fld_setFld_above _ _ (by decide) (by decide),
      State.fld_setFld_above _ _ (by decide) (by decide), temp]
  · exact (windowClosed_tables s n hot).1.trans ((throttleCounted_reads _ n).1.trans mem)
  · exact (windowClosed_tables s n hot).2.1.trans ((throttleCounted_reads _ n).2.1.trans tokens)
  · intro c
    rw [State.chan_of_bank ((windowClosed_tables s n hot).2.2.trans (throttleCounted_reads _ n).2.2)]
    exact jobs c

theorem setStackTemp_reads (s : State) (n : Nat) (temp : Int) :
    (s.setStackTemp n temp).fld (rBkeStackStatus n) fBkeStackStatus_TEMP_C = min 255 (s.calibrated (288 + n) temp / 10).toNat ∧
    (s.setStackTemp n temp).mem = s.mem ∧ (s.setStackTemp n temp).tokens = s.tokens ∧ (s.setStackTemp n temp).bank = s.bank := by
  refine ⟨?_, by simp [State.setStackTemp], by simp [State.setStackTemp], by simp [State.setStackTemp]⟩
  unfold State.setStackTemp
  rw [State.fld_setFld _ _ _ _ (by decide), show 2 ^ fBkeStackStatus_TEMP_C.width = 256 by decide, Nat.mod_eq_of_lt (by omega)]

/-- Empty channels of a stack start nothing. -/
theorem bankStarts_empty {s : State} {n : Nat} (l : List Nat) (none : ∀ i ∈ l, (s.chan (n * 32 + i)).jobs = []) :
    l.foldl (fun t i => t.bankStart (n * 32 + i) 257) s = s := by
  induction l with
  | nil => rfl
  | cons i l ih =>
    rw [List.foldl_cons, bankStart_empty _ (none i List.mem_cons_self)]
    exact ih fun i hi => none i (List.mem_cons_of_mem _ hi)

/-! ### BKE_FENCE -/

/-- A fence token on each channel that the command names. -/
def State.fenced (s : State) (p rid : Nat) (cmd : HostCmd) : State :=
  (maskChannels (s.fenceMask p cmd)).foldl (fun t c =>
    t.bankQueue c { part := p, rid := some rid, desc := tokenDesc p c, fence := true, since := t.now }) s

theorem execBkeFence_passed {s : State} {p q cid rid : Nat} {r : Rec} (may : MayRun s p q cid 0x11 rid r) (ok : s.bkeFenceCheck p r.cmd = none) :
    exec (.bkeFence p q cid) s = .next ((s.fenced p rid r.cmd).modRec rid (fun r => { r with phase := .running })) := by
  show execBkeFence p q cid s = _
  unfold execBkeFence
  rw [may.1]
  dsimp only
  rw [ok]
  rfl

theorem execBkeFence_failed {s : State} {p q cid rid : Nat} {r : Rec} (may : MayRun s p q cid 0x11 rid r)
    (bad : s.bkeFenceCheck p r.cmd = some scBadHandle) :
    exec (.bkeFence p q cid) s = .next (s.fail p rid scBadHandle) := by
  show execBkeFence p q cid s = _
  unfold execBkeFence
  rw [may.1]
  dsimp only
  rw [bad]

theorem bkeFenceCheck_elsewhere {s : State} {p c : Nat} {cmd : HostCmd} (h : c < 256) (named : bitOf (s.fenceMask p cmd) c = true)
    (other : bitOf (s.pcfg p).procChannels c = false) : s.bkeFenceCheck p cmd = some scBadHandle :=
  if_pos (List.any_eq_true.mpr ⟨c, List.mem_range.mpr h, by rw [named, other]; rfl⟩)

/-- A fence token waits behind what its channel runs. -/
theorem fenced_one {s : State} {p rid c : Nat} {cmd : HostCmd} (one : maskChannels (s.fenceMask p cmd) = [c]) (mode : (s.chan c).state = 2)
    (run : (s.chan c).run.isSome) : s.fenced p rid cmd =
      s.placeJob c { part := p, rid := some rid, desc := tokenDesc p c, fence := true, since := s.now } := by
  obtain ⟨r, run⟩ := Option.isSome_iff_exists.mp run
  unfold State.fenced
  rw [one]
  refine (bankQueue_processor _ mode).trans (bankStart_busy (r := r) _ ?_)
  unfold State.placeJob
  rw [State.chan_modChan]
  split <;> exact run

/-- The handle of the ring's tensor that a completed BKE_FENCE reports. -/
def State.fenceHandle (s : State) (p : Nat) : Nat :=
  match s.mem.tensors.find? (fun t => t.2.part == p && t.2.holder == .ring && !t.2.dying) with
  | some t => mkHandle t.2.gen p t.1
  | none => 0

/-- Settles O20: each event of a channel is read off the channel that it leaves; fields of a stack's status do not overlap. -/
theorem channels : Obligations.Channels := by
  unfold Obligations.Channels
  refine ⟨?_, ?_, ?_, ?_, ?_, ?_, ?_, ?_, ?_, ?_, ?_, ?_, ?_, ?_⟩
  · intro s c mode idle empty late excess holds
    refine ⟨_, execChannelLingerExpiry_back mode idle empty late, ?_, ?_⟩
    · rw [lingered_chan]
      generalize s.chan c = ch at excess holds
      obtain ⟨⟩ := ch
      cases excess
      cases holds
      rfl
    · simp [State.chanToMemory, excess, holds, State.serveHeld, State.modChan]
  · intro s c a bs n mode idle empty late excess holds sound
    refine ⟨_, execChannelLingerExpiry_back mode idle empty late, by rw [lingered_chan], by rw [lingered_chan], ?_⟩
    simp only [State.bump_reads]
    unfold State.chanToMemory
    dsimp only
    rw [holds, excess, List.append_nil, serveHeld_write sound]
    rfl
  · rintro s c busy
    refine if_neg ?_
    rintro ⟨_, idle, _, late⟩
    obtain run | early := busy
    · exact run idle
    · omega
  · intro s c a w bs mode room
    refine ⟨_, execOrdinaryAccessHeld_held a w bs mode room, ?_, by simp [State.modChan]⟩
    rw [State.chan_modChan, State.chan_of_bank (s := s) (by simp)]
  · intro s c a bs mode sound
    exact ⟨_, execOrdinaryAccessHeld_served bs mode sound, rfl, rfl, rfl⟩
  · intro s c h hs mode held none due
    refine ⟨_, execForcedYield_eq mode held none due, by rw [yielded_chan], by rw [yielded_chan], by rw [yielded_chan]; exact mode, ?_⟩
    simp [State.yielded, State.modChan]
  · intro s c b n small below
    obtain ⟨longest, refresh⟩ := refreshed_fields s (stackOf c) n
    have ctr : (s.refreshed (stackOf c) n).ctr (cBkeStackRefreshIns (stackOf c)) = s.ctr (cBkeStackRefreshIns (stackOf c)) := by
      simp [State.refreshed, State.newBin, State.refreshNow, State.ctr]
    have low : Unreported (rBkeStackStatus (stackOf c)) := unreported_low (by unfold rBkeStackStatus stackOf; omega)
    refine ⟨_, execRefreshDue_eq s c b n, ?_, ?_, ?_⟩
    · split
      · rw [State.fld_bump_unreported low, longest]
      · exact longest
    · split
      · rw [State.fld_bump_unreported low, refresh]
      · exact refresh
    · intro run
      rw [if_pos run, State.ctr_bump_self _ _ _ (by rw [ctr]; exact below), ctr]
  · intro s c b row n below idle bank past
    refine ⟨_, execTargetedRefresh_eq idle bank past, State.ctr_bump_self _ _ _ below, actsOf_rowRefreshed s c row, ?_⟩
    unfold State.rowRefreshed
    rw [State.bump_eq (s.modChan c _) _ _ below]
    rfl
  · intro s c b row n below
    exact execTargetedRefresh_idle below
  · rintro s u n start temp small late rfl
    obtain ⟨temperature, mem, tokens, bank⟩ := setStackTemp_reads s n temp
    obtain ⟨throttled, stays, mem', tokens', jobs⟩ := windowClosed_reads (s.setStackTemp n temp) ((s.setStackTemp n temp).exceeds n) small
    refine ⟨fun hot => ?_, fun cool empty => ?_⟩
    · have is : (s.setStackTemp n temp).exceeds n = true := decide_eq_true hot
      refine ⟨_, (execEngineThrottleWindow_eq temp late).trans (if_pos is), ?_, stays.trans temperature, mem'.trans mem, tokens'.trans tokens⟩
      rw [throttled, is]
      rfl
    · have is : (s.setStackTemp n temp).exceeds n = false := decide_eq_false (Nat.not_lt.mpr cool)
      have nothing : ∀ i ∈ List.range 32, (((s.setStackTemp n temp).windowClosed n ((s.setStackTemp n temp).exceeds n)).chan
          (n * 32 + i)).jobs = [] :=
        fun i hi => by rw [jobs, State.chan_of_bank bank, empty i (List.mem_range.mp hi)]
      refine ⟨_, (execEngineThrottleWindow_eq temp late).trans ((if_neg (by rw [is]; decide)).trans
        (congrArg Host.Outcome.next (bankStarts_empty _ nothing))), ?_, mem'.trans mem, tokens'.trans tokens⟩
      rw [throttled, is]
      rfl
  · intro s n start temp early
    exact if_pos early
  · intro s p q cid rid r may ok
    refine ⟨⟨_, execBkeFence_passed may ok, rfl⟩, fun c one mode run room => ⟨_, execBkeFence_passed may ok, ?_, ?_, ?_, ?_⟩⟩
    · exact kvGet?_modRec (by rw [fenced_one one mode run]; exact may.2.1) _
    · rw [fenced_one one mode run]
      rfl
    · rw [fenced_one one mode run]
      rfl
    · rw [fenced_one one mode run]
      exact congrArg BankCh.jobs (placeJob_room _ room)
  · intro s p q cid rid r c may small named other
    exact ⟨_, execBkeFence_failed may (bkeFenceCheck_elsewhere small named other), may.failed (.refl s) may.2.1 may.2.2 (.inl (by decide))⟩
  · intro s p q cid rid r way gone
    have none : s.bank.any (fun x => (x.2.jobs ++ x.2.surplus).any (fun j => j.fence && j.rid == some rid)) = false := by
      refine List.any_eq_false.mpr fun x hx => ?_
      simp only [Bool.not_eq_true, List.any_eq_false, Bool.and_eq_true, beq_iff_eq, not_and]
      exact fun j hj => gone x hx j hj
    refine ⟨_, s.fenceHandle p, ?_, way.done (.refl s) way.2.1 way.2.2⟩
    show execBkeFenceComplete p q cid s = _
    unfold execBkeFenceComplete
    rw [way.1]
    dsimp only
    rw [none]
    rfl

end Sys2Proof.Machine
end

section
set_option Elab.async false
/-! SUPPORT. A query whose adjacency lies in Tier F (spec/07, spec/12): reading it is metered for the partition's composition, whose meters are part of
the memory system's state. -/

namespace Sys2Proof.Machine

/-- A beam with two expansions under way. -/
def farBeam : Beam := { Tests.beam0 none with out := [(2, none), (3, none)] }

/-- Its query; the one neighbour of its candidate has been visited. -/
def farQuery : Query := { Tests.query0 with phase := 2, visited := [0], beams := [farBeam] }

/-- Its segment, whose adjacency records lie in Tier F. -/
def farSegment : Segment := { Tests.segment0 with adj := 2 ^ 51 }

/-- The query's partition is in a composition, with its meters at zero. -/
def farTraversal : State :=
  { Tests.stepping farQuery with
    corpora := [(0, { segs := [(1, farSegment)] })]
    mem := { comps := [(1, { parts := 1, quotas := [], shares := [], windows := [], created := 0, meters := [0, 0, 0, 0, 0, 0, 0, 0] })] } }

/-- The arrival of the record meters its four bytes. -/
theorem farTraversal_metered :
    ((Tests.after (.traverseAdjacencyArrival 0 1 2) farTraversal).mem.comps.map fun c => c.2.meters) = [[0, 0, 0, 0, 0, 0, 0, 4]] := by
  decide +kernel

/-- A query with a beam that still expands goes nowhere as its beam moves. -/
theorem beamMoved_waits {s : State} {rid : Nat} {q : Query} (there : kvGet? rid s.queries = some q) (more : q.beams.all Beam.done = false) :
    s.beamMoved rid = s := by
  unfold State.beamMoved
  simp [there, more]

/-- Refutes O22: the statement has memory as it was when an adjacency record arrives, its meters included. A record read from Tier F is metered for the
composition of its partition, so the memory system's state is another. -/
theorem not_querySteps : ¬Obligations.QuerySteps := by
  rintro ⟨-, -, -, arrival, -⟩
  obtain ⟨u, y, query, -, -, mem, -, ends, -⟩ := arrival farTraversal 0 1 2 farQuery farBeam farSegment [] [0] 1 (by decide +kernel)
      (by decide +kernel)
    (by decide +kernel) (by decide +kernel) (by decide +kernel)
  obtain ⟨run, beams⟩ := ends rfl
  have more : y.beams.all Beam.done = false := by
    rw [beams]
    decide +kernel
  rw [beamMoved_waits query more] at run
  have metered := farTraversal_metered
  rw [after_of_next run, mem] at metered
  exact absurd metered (by decide +kernel)

end Sys2Proof.Machine
end

section
set_option Elab.async false
/-! SUPPORT. An array instruction of a partition in a composition (spec/08, spec/12): its steps are metered, and the meters are part of the memory
system's state. -/

namespace Sys2Proof.Machine

/-- The memory of a partition in a composition, with its meters at zero. -/
def meteredMem (m : MemSys) : MemSys :=
  { m with comps := [(1, { parts := 1, quotas := [], shares := [], windows := [], created := 0, meters := [0, 0, 0, 0, 0, 0, 0, 0] })] }

/-- A node whose partition owns an idle array and is in a composition. -/
def meteredArray : State := { Tests.arrNode with mem := meteredMem Tests.arrNode.mem }

/-- The instruction's start meters its steps. -/
theorem meteredArray_metered : ((Tests.after (.arrayInstrMac 0 0 0 (Tests.arrDesc 0 0 1 0)) meteredArray).mem.comps.map fun c => c.2.meters) ≠
    meteredArray.mem.comps.map fun c => c.2.meters := by
  decide +kernel

/-- Refutes O27: the statement has memory as it was when an instruction starts, its meters included. The steps of an instruction are metered for the
composition of its partition, so the memory system's state is another. -/
theorem not_arrayInstructions : ¬Obligations.ArrayInstructions := by
  rintro ⟨start, -⟩
  obtain ⟨t, x, run, -, -, -, -, -, -, -, -, -, -, mem⟩ := start meteredArray _ 0 0 0 0 (Tests.arrDesc 0 0 1 0) List.mem_cons_self (by decide +kernel)
    (by decide +kernel) (by decide +kernel) (by decide +kernel) (by decide +kernel) (by decide +kernel) (by decide +kernel) (by decide +kernel)
    (by decide +kernel) (by decide +kernel)
  have metered := meteredArray_metered
  rw [after_of_next run, mem] at metered
  exact metered rfl

end Sys2Proof.Machine
end

section
set_option Elab.async false
/-! SUPPORT. Updates (spec/10): joining the sequence, preparation, threshold sets and the fold of tombstones. -/

namespace Sys2Proof.Machine

theorem State.corpus_modCorpus (s : State) (p : Nat) (f : Corpus → Corpus) : (s.modCorpus p f).corpus p = f (s.corpus p) :=
  congrArg (fun o : Option Corpus => o.getD {}) (kvGet?_put_self p (f (s.corpus p)) s.corpora)

theorem State.corpus_of_corpora {s t : State} (h : t.corpora = s.corpora) (p : Nat) : t.corpus p = s.corpus p := by
  unfold State.corpus
  rw [h]

/-! ### The update sequence -/

theorem joinUpdates_corpus (s : State) (p : Nat) (u : Upd) : (s.joinUpdates p u).corpus p = { s.corpus p with
    updates := (s.corpus p).updates ++ [u], youngRes := (s.corpus p).youngRes + u.tomb, locRes := (s.corpus p).locRes + u.loc } :=
  (State.corpus_of_corpora rfl p).trans (s.corpus_modCorpus p fun c => { c with
    updates := c.updates ++ [u], youngRes := c.youngRes + u.tomb, locRes := c.locRes + u.loc })

theorem joinUpdates_begun {s : State} (p : Nat) {u : Upd} {r : Rec} (there : kvGet? u.rid s.recs = some r) : Begun (s.joinUpdates p u) u.rid r :=
  kvGet?_modRec there _

/-- An update whose turn has not come stays as it is. -/
theorem update_waits {s : State} {p q cid rid op : Nat} {i : Instr} {a b d : List Byte} {r : Rec}
    (which : (op, i) ∈ [(0x20, Instr.insert p q cid a b d),
    (0x21, .delete p q cid a), (0x24, .segmentPublish p q cid), (0x25, .segmentRetire p q cid)]) (may : MayRun s p q cid op rid r)
    (behind : s.updateTurn p rid = false) : exec i s = .next s := by
  have turn : (!s.updateTurn p rid) = true := by rw [behind]; rfl
  simp only [List.mem_cons, Prod.mk.injEq, List.not_mem_nil, or_false] at which
  obtain ⟨rfl, rfl⟩ | ⟨rfl, rfl⟩ | ⟨rfl, rfl⟩ | ⟨rfl, rfl⟩ := which
  · show execInsert p q cid a b d s = _
    unfold execInsert
    rw [may.1]
    exact if_pos turn
  · show execDelete p q cid a s = _
    unfold execDelete
    rw [may.1]
    exact if_pos turn
  · show execSegmentPublish p q cid s = _
    unfold execSegmentPublish
    rw [may.1]
    exact if_pos turn
  · show execSegmentRetire p q cid s = _
    unfold execSegmentRetire
    rw [may.1]
    exact if_pos turn

/-! ### INSERT and DELETE -/

theorem execInsert_failed {s : State} {p q cid rid st : Nat} {r : Rec} (vecs ids attrs : List Byte) (may : MayRun s p q cid 0x20 rid r)
    (turn : s.updateTurn p rid = true) (free : s.allocHeld = false) (bad : (s.named r).insertCheck p r.cmd = some st) :
    exec (.insert p q cid vecs ids attrs) s = .next (s.fail p rid st) := by
  show execInsert p q cid vecs ids attrs s = _
  unfold execInsert
  rw [may.1]
  dsimp only
  rw [turn, free, bad]
  rfl

theorem execDelete_failed {s : State} {p q cid rid st : Nat} {r : Rec} (ids : List Byte) (may : MayRun s p q cid 0x21 rid r)
    (turn : s.updateTurn p rid = true) (bad : (s.named r).deleteCheck p r.cmd = some st) : exec (.delete p q cid ids) s = .next (s.fail p rid st)
        := by
  show execDelete p q cid ids s = _
  unfold execDelete
  rw [may.1]
  dsimp only
  rw [turn, bad]
  rfl

/-- The update that DELETE makes. -/
def deletion (rid period n : Nat) (ids : List Byte) : Upd :=
  { rid := rid, op := 0x21, period := period, prepared := false, seg := 0, replace := false,
    items := (words8 ids n).map (fun i => ({ id := i, row := none, status := scDone, seg := 0 } : UpdItem)), vecs := [], attrs := [], projs := [],
        ids1 := [],
    ids2 := [], tomb := n, loc := 0 }

theorem execDelete_passed {s s1 : State} {p q cid rid n : Nat} {ids ib : List Byte} {r : Rec} (may : MayRun s p q cid 0x21 rid r)
    (hn : n = r.cmd.param 0 4)
    (turn : s.updateTurn p rid = true) (ok : (s.named r).deleteCheck p r.cmd = none)
        (read : s.readInput p r.flow (r.cmd.param 8 8) (8 * n) ids = (ib, s1)) :
    exec (.delete p q cid ids) s = .next (if s1.youngFree p < n then (s1.bump (cPrtTombFull p) 1).fail p rid scQuota
      else s1.joinUpdates p (deletion rid (s1.periodOf p r.stamp) n ib)) := by
  subst hn
  show execDelete p q cid ids s = _
  unfold execDelete
  rw [may.1]
  dsimp only
  rw [turn, ok, read]
  simp only [Bool.not_true, Bool.false_eq_true, if_false]
  split <;> rfl

theorem readInput_calm {s t : State} {p a n : Nat} {flow : Nat × Bool} {host bs : List Byte} (read : s.readInput p flow a n host = (bs, t)) :
    Calm s t := by
  have calm := (Calm.refl s).readInput (p := p) (flow := flow) (a := a) (n := n) (host := host)
  rwa [read] at calm

/-- The update that INSERT makes. -/
def insertion (rid period seg first n : Nat) (replace : Bool) (vecs ids attrs : List Byte) : Upd :=
  { rid := rid, op := 0x20, period := period, prepared := false, seg := seg, replace := replace, items := assignRows seg first (words8 ids n),
      vecs := vecs,
    attrs := attrs, projs := [], ids1 := [], ids2 := [], tomb := if replace then n else 0, loc := n }

/-- The reservation of locator entries, made to see that they fit and taken back. -/
def State.locTried (t : State) (p n : Nat) : State :=
  (t.modCorpus p (fun c => { c with locRes := c.locRes + n })).modCorpus p (fun c => { c with locRes := c.locRes - n })

/-- The rows that an INSERT takes in the delta. -/
def State.rowsTaken (t : State) (p i n rows : Nat) : State :=
  ((t.locTried p n).modSeg p i (fun g => { g with next := g.next + rows })).startLoop p

theorem reserved_seg (t : State) (p i n : Nat) : (t.locTried p n).seg? p i = t.seg? p i := by
  unfold State.seg? State.locTried
  rw [State.corpus_modCorpus, State.corpus_modCorpus]

theorem execInsert_passed {s s1 s2 s3 t : State} {p q cid rid i : Nat} {vecs ids attrs vb ib ab : List Byte} {r : Rec}
    (may : MayRun s p q cid 0x20 rid r)
    (turn : s.updateTurn p rid = true) (free : s.allocHeld = false) (ok : (s.named r).insertCheck p r.cmd = none)
    (read1 : s.readInput p r.flow (r.cmd.param 8 8) (r.cmd.param 4 4 * r.cmd.param 2 2 * vecElemBytes (r.cmd.param 0 1)) vecs = (vb, s1))
    (read2 : s1.readInput p r.flow (r.cmd.param 16 8) (8 * r.cmd.param 4 4) ids = (ib, s2))
    (read3 : (if r.cmd.param 24 8 = 0 then (List.replicate (8 * r.cmd.param 4 4) (0 : Byte), s2)
      else s2.readInput p r.flow (r.cmd.param 24 8) (8 * r.cmd.param 4 4) attrs) = (ab, s3))
    (room : bitOf (r.cmd.param 1 1) 0 = false ∨ r.cmd.param 4 4 ≤ s.youngFree p)
    (delta : s3.deltaFor p (r.cmd.param 0 1) (r.cmd.param 2 2) ((words8 ib (r.cmd.param 4 4)).filter (fun i => i != noVector)).length = some (i, t))
    (quota : (t.modCorpus p (fun c => { c with locRes := c.locRes + r.cmd.param 4 4 })).useOf p 1 ≤
      (t.modCorpus p (fun c => { c with locRes := c.locRes + r.cmd.param 4 4 })).quotaOf p 1) :
    exec (.insert p q cid vecs ids attrs) s = .next ((t.rowsTaken p i (r.cmd.param 4 4)
      ((words8 ib (r.cmd.param 4 4)).filter (fun i => i != noVector)).length).joinUpdates p (insertion rid (s.periodOf p r.stamp) i
      (((t.seg? p i).map (fun g => g.next)).getD 0) (r.cmd.param 4 4) (bitOf (r.cmd.param 1 1) 0) vb ib ab)) := by
  have plain : ¬(bitOf (r.cmd.param 1 1) 0 = true ∧ s.youngFree p < r.cmd.param 4 4) := by
    rintro ⟨replace, full⟩
    obtain off | fits := room
    · rw [replace] at off
      cases off
    · exact absurd full (Nat.not_lt.mpr fits)
  rw [← reserved_seg t p i (r.cmd.param 4 4)]
  show execInsert p q cid vecs ids attrs s = _
  unfold execInsert
  rw [may.1]
  dsimp only
  rw [turn, free, ok, read1]
  simp only [Bool.not_true, Bool.false_eq_true, if_false]
  rw [read2]
  dsimp only
  rw [read3]
  dsimp only
  rw [delta]
  dsimp only
  rw [if_neg (Nat.not_lt.mpr quota), if_neg plain]
  rfl

/-! ### Preparation -/

theorem execUpdatePrepare_early {s : State} {p q cid rid : Nat} {r : Rec} {up : Upd} (there : s.recOf p q cid = some (rid, r))
    (one : (s.corpus p).updates = [up]) (early : s.periodOf p s.now ≤ up.period) : exec (.updatePrepare p q cid) s = .next s := by
  show execUpdatePrepare p q cid s = _
  unfold execUpdatePrepare
  rw [there, one]
  dsimp only
  rw [List.find?_singleton]
  split
  · rfl
  next u found =>
    obtain rfl : up = u := by
      split at found
      · exact Option.some.inj found
      · cases found
    exact if_pos early

theorem found_unprepared {up : Upd} {rid : Nat} (is : up.rid = rid) (new : up.prepared = false) :
    [up].find? (fun u => u.rid == rid && !u.prepared) = some up := by
  rw [List.find?_singleton, is, new]
  simp

theorem execUpdatePrepare_other {s : State} {p q cid rid : Nat} {r : Rec} {up : Upd} (there : s.recOf p q cid = some (rid, r))
    (one : (s.corpus p).updates = [up]) (is : up.rid = rid) (new : up.prepared = false) (later : up.period < s.periodOf p s.now) (op : up.op ≠ 0x20) :
    exec (.updatePrepare p q cid) s = .next ((s.prepareOther p up).phaseRan p) := by
  show execUpdatePrepare p q cid s = _
  unfold execUpdatePrepare
  rw [there, one]
  dsimp only
  rw [found_unprepared is new]
  exact (if_neg (by omega)).trans (if_pos op)

theorem prepareOther_corpus (s : State) (p : Nat) {up : Upd} (one : (s.corpus p).updates = [up]) {n : Nat}
    (hn : n = if up.op = 0x24 then min (s.youngFree p) (s.supersedeCount p up.ids1 up.ids2) else 0) :
        (s.prepareOther p up).corpus p = { s.corpus p with
      updates := [{ up with prepared := true, tomb := up.tomb + n }], youngRes := (s.corpus p).youngRes + n } := by
  unfold State.prepareOther State.modUpd
  rw [State.corpus_modCorpus, State.corpus_modCorpus, one, ← hn]
  simp

theorem phaseRan_reads (s : State) (p : Nat) : (s.phaseRan p).corpora = s.corpora ∧ (s.phaseRan p).mem = s.mem ∧ (s.phaseRan p).recs = s.recs :=
  ⟨rfl, rfl, rfl⟩

theorem execUpdatePrepare_insert {s v : State} {p q cid rid ti place : Nat} {r : Rec} {up : Upd} {m : Tensor} {go : Bool}
    (there : s.recOf p q cid = some (rid, r)) (one : (s.corpus p).updates = [up]) (is : up.rid = rid) (new : up.prepared = false)
    (later : up.period < s.periodOf p s.now) (op : up.op = 0x20) (hplace : place = ((s.sketchStage p).map (fun g => g.place)).getD 1)
    (proj : s.projModel p = some (ti, m)) (run : s.mayRun p place rid ti = (go, v)) :
    exec (.updatePrepare p q cid) s = .next (if go then ((v.prepareInsert p up m place).dropArrWork rid).phaseRan p else v) := by
  subst hplace
  show execUpdatePrepare p q cid s = _
  unfold execUpdatePrepare
  rw [there, one]
  dsimp only
  rw [found_unprepared is new]
  dsimp only
  rw [if_neg (by omega), if_neg (not_not.mpr op), proj]
  dsimp only
  rw [run]

/-! ### Threshold sets -/

theorem sweepSets_calm {s t : State} {p : Nat} (h : Calm s t) : Calm s (t.sweepSets p) := by
  unfold State.sweepSets
  exact (h.foldl fun _ _ g => g.release).modCorpus

/-- A set that is published takes an area and is written. -/
theorem publishSet_calm {s t u : State} {p i v n : Nat} {th : List Nat} {b : Bool} (h : Calm s t) (e : t.publishSet p th b n = some (i, v, u)) :
    Calm s u := by
  unfold State.publishSet at e
  split at e
  · cases e
  · dsimp only at e
    split at e
    · cases e
    · split at e
      · cases e
      next a w placed =>
        have taken := (sweepSets_calm (p := p) (h.modCorpus (p := p) (f := fun c => { c with curSet := none }))).alloc placed
        cases e
        exact taken.access.modMem.modCorpus

theorem execThresholdPublish_failed {s : State} {p q cid rid st : Nat} {r : Rec} (data : List Byte) (may : MayRun s p q cid 0x12 rid r)
    (free : s.allocHeld = false) (bad : (s.named r).thresholdCheck p r.cmd = some st) : exec (.thresholdPublish p q cid data) s = .next
        (s.fail p rid st) := by
  show execThresholdPublish p q cid data s = _
  unfold execThresholdPublish
  rw [may.1]
  dsimp only
  rw [free, bad]
  rfl

theorem execThresholdPublish_held {s : State} {p q cid rid : Nat} {r : Rec} (data : List Byte) (may : MayRun s p q cid 0x12 rid r)
    (held : s.allocHeld = true) : exec (.thresholdPublish p q cid data) s = .next s := by
  show execThresholdPublish p q cid data s = _
  unfold execThresholdPublish
  rw [may.1]
  exact if_pos held

/-- The thresholds that THRESHOLD_PUBLISH takes from memory. -/
theorem execThresholdPublish_given {s s1 v : State} {p q cid rid n i ver : Nat} {data given : List Byte} {r : Rec} {g : Stage}
    (may : MayRun s p q cid 0x12 rid r) (free : s.allocHeld = false) (ok : (s.named r).thresholdCheck p r.cmd = none)
        (stage : s.sketchStage p = some g)
    (src : r.cmd.param 0 1 = 1) (hn : n = widthBits (g.param % 4)) (read : s.readInput p r.flow (r.cmd.param 8 8) (4 * n) data = (given, s1))
    (numbers : ((List.range n).map (fun i => fieldAt given (4 * i) 4)).any (fun t => (dec32 t).isNan) = false)
    (made : s1.publishSet p ((List.range n).map (fun i => fieldAt given (4 * i) 4)) false 0 = some (i, ver, v)) :
    exec (.thresholdPublish p q cid data) s = .next (v.done p rid 0 (ver * 2 ^ 32 + i) 0) := by
  subst hn
  show execThresholdPublish p q cid data s = _
  unfold execThresholdPublish
  rw [may.1]
  dsimp only
  rw [free, ok, stage, src]
  simp only [Bool.false_eq_true, if_false, if_true, read, numbers, and_false, made]

/-- The candidates of the loop as THRESHOLD_PUBLISH takes them. -/
theorem execThresholdPublish_loop {s v : State} {p q cid rid i ver : Nat} {r : Rec} {g : Stage} (data : List Byte)
    (may : MayRun s p q cid 0x12 rid r) (free : s.allocHeld = false) (ok : (s.named r).thresholdCheck p r.cmd = none)
        (stage : s.sketchStage p = some g)
    (src : r.cmd.param 0 1 = 0) (made : s.publishSet p (s.corpus p).loop.cand false (s.corpus p).loop.samples = some (i, ver, v)) :
    exec (.thresholdPublish p q cid data) s = .next (v.done p rid 0 (ver * 2 ^ 32 + i) 0) := by
  show execThresholdPublish p q cid data s = _
  unfold execThresholdPublish
  rw [may.1]
  dsimp only
  rw [free, ok, stage, src]
  simp only [Bool.false_eq_true, if_false, Nat.zero_ne_one, false_and, made]

/-! ### The fold -/

theorem noteFold_corpus (s : State) (p : Nat) : (s.noteFold p).corpus p = { s.corpus p with fold := s.foldNow p } := by
  unfold State.noteFold
  dsimp only
  split
  next same => 
    rw [same]
    rfl
  next =>
    exact congrArg (fun o : Option Corpus => o.getD {}) (kvGet?_put_self p { s.corpus p with fold := s.foldNow p } s.corpora)

theorem deadRow_corpora (s : State) (p seg lid : Nat) : (s.deadRow p seg lid).corpora = s.corpora := by
  unfold State.deadRow State.setTomb
  split
  · exact (Aside.refl s).access.corpora
  · rfl

theorem hides_corpora {α : Type} (l : List α) (a : α → Nat) (n : Nat) (s : State) :
    (l.foldl (fun (t : State) x => t.hide (a x) n) s).corpora = s.corpora := by
  induction l generalizing s with
  | nil => rfl
  | cons x l ih => exact (ih _).trans rfl

theorem freeYoung_corpus (s : State) (p : Nat) (f : Nat × Nat × Nat → Bool) : ((s.freeYoung p f).corpus p).fold = (s.corpus p).fold ∧
    ((s.freeYoung p f).corpus p).young = (s.corpus p).young.filter (fun t => !f t) := by
  unfold State.freeYoung
  dsimp only
  rw [State.corpus_modCorpus]
  split
  next a _ =>
    rw [State.corpus_of_corpora (hides_corpora _ (fun x : Nat × Nat × Nat × Nat => a + 16 * x.1) 16 s)]
    exact ⟨rfl, rfl⟩
  · exact ⟨rfl, rfl⟩

/-- A fold marks the rows of the young tombstones that are due, and takes these from the table. -/
theorem tombstoneFold_corpus (s : State) (p : Nat) :
    let u := (((s.noteFold p).corpus p).young.filter (fun t => decide (t.2.2 ≤ ((s.noteFold p).corpus p).fold))).foldl
      (fun (t : State) y => t.deadRow p y.1 y.2.1) (s.noteFold p)
    ((u.freeYoung p (fun t => decide (t.2.2 ≤ ((s.noteFold p).corpus p).fold))).corpus p).fold = s.foldNow p ∧
      ((u.freeYoung p (fun t => decide (t.2.2 ≤ ((s.noteFold p).corpus p).fold))).corpus p).young =
        (s.corpus p).young.filter (fun y => !decide (y.2.2 ≤ s.foldNow p)) := by
  intro u
  have same : u.corpora = (s.noteFold p).corpora := by
    have rows : ∀ (l : List (Nat × Nat × Nat)) (v : State), (l.foldl (fun (t : State) y => t.deadRow p y.1 y.2.1) v).corpora = v.corpora := by
      intro l
      induction l with
      | nil => exact fun v => rfl
      | cons y l ih => exact fun v => (ih _).trans (deadRow_corpora v p y.1 y.2.1)
    exact rows _ _
  obtain ⟨fold, young⟩ := freeYoung_corpus u p (fun t => decide (t.2.2 ≤ ((s.noteFold p).corpus p).fold))
  rw [fold, young, State.corpus_of_corpora same, noteFold_corpus]
  exact ⟨rfl, rfl⟩

/-- Settles O29: an update joins behind its turn, its preparation and a fold are read off the corpus that they leave. -/
theorem updates : Obligations.Updates := by
  unfold Obligations.Updates
  refine ⟨?_, ?_, ?_, ?_, ?_, ?_, ?_, ?_, ?_, ?_, ?_, ?_, ?_, ?_⟩
  · intro u p up r there
    refine ⟨joinUpdates_begun p there, ?_, ?_, ?_⟩ <;> rw [joinUpdates_corpus]
  · intro s p q cid rid op i a b d r which may behind
    exact update_waits which may behind
  · intro s p q cid rid vecs ids attrs vb ib ab r s1 s2 s3 t elem dims n i rows may helem hdims hn turn free ok read1 read2 read3 hrows room delta quota
    subst helem hdims hn hrows
    exact ⟨_, _, execInsert_passed may turn free ok read1 read2 read3 room delta quota, rfl, rfl, rfl, rfl, rfl, rfl, rfl, rfl, rfl, rfl⟩
  · intro s p q cid rid st vecs ids attrs r may turn free bad
    exact ⟨_, execInsert_failed vecs ids attrs may turn free bad, may.failed (.refl s) may.2.1 may.2.2 (.inl (by decide))⟩
  · intro s p q cid rid ids ib r s1 n may hn turn ok read room
    refine ⟨deletion rid (s1.periodOf p r.stamp) n ib, (execDelete_passed may hn turn ok read).trans
        (congrArg Host.Outcome.next (if_neg (by omega))), rfl, rfl, rfl,
      rfl, rfl, rfl⟩
  · intro s p q cid rid ids ib r s1 n hp may hn turn ok read full
    have calm := readInput_calm read
    exact ⟨_, (execDelete_passed may hn turn ok read).trans (congrArg Host.Outcome.next (if_pos full)), may.failedAfter calm.bump hp
        (.inl (by decide))⟩
  · intro s p q cid rid st ids r may turn bad
    exact ⟨_, execDelete_failed ids may turn bad, may.failed (.refl s) may.2.1 may.2.2 (.inl (by decide))⟩
  · intro s p q cid rid r up n there one is new later op hn
    refine ⟨_, execUpdatePrepare_other there one is new later op, ?_, ?_, rfl, rfl⟩
    · rw [State.corpus_of_corpora (phaseRan_reads _ p).1, prepareOther_corpus s p one hn]
    · rw [State.corpus_of_corpora (phaseRan_reads _ p).1, prepareOther_corpus s p one hn]
  · intro s v p q cid rid r up ti m place go there one is new later op hplace proj run
    exact execUpdatePrepare_insert there one is new later op hplace proj run
  · intro s p q cid rid r up there one early
    exact execUpdatePrepare_early there one early
  · rintro s p q cid rid data given r g s1 v th src n i ver hp may free ok stage rfl hn (⟨src, read, rfl, numbers⟩ | ⟨src, rfl, rfl⟩) made
    · rw [if_pos src] at made
      have calm := readInput_calm read
      exact ⟨_, execThresholdPublish_given may free ok stage src hn read numbers made, may.doneAfter (publishSet_calm calm made) hp⟩
    · rw [if_neg (by omega)] at made
      exact ⟨_, execThresholdPublish_loop data may free ok stage src made, may.doneAfter (publishSet_calm (.refl _) made) hp⟩
  · intro s p q cid rid st data r may free bad
    exact ⟨_, execThresholdPublish_failed data may free bad, may.failed (.refl s) may.2.1 may.2.2 (.inl (by decide))⟩
  · intro s p q cid rid data r may held
    exact execThresholdPublish_held data may held
  · intro s p
    exact ⟨_, rfl, tombstoneFold_corpus s p⟩

end Sys2Proof.Machine
end

section
set_option Elab.async false
/-! SUPPORT. An import whose descriptor lies in Tier F (spec/10, spec/12): reading it is metered for the partition's composition. -/

namespace Sys2Proof.Machine

/-- The request of an import. -/
def farImportRec : Rec := Tests.rec0 0x23 Tests.importPs

/-- The tensor of its descriptor, in Tier F. -/
def farDescriptor : Tensor := { Tests.modelTensor (2 ^ 51) with bytes := 192 }

/-- The partition of the request is in a composition, with its meters at zero. -/
def farImport : State :=
  { Tests.library farImportRec Tests.corpus0 with mem := meteredMem { Tests.libMem with tensors := [(1, farDescriptor)] } }

theorem farImport_metered :
    ((Tests.after (.segmentImport 0 0 5) farImport).mem.comps.map fun c => c.2.meters) ≠ farImport.mem.comps.map fun c => c.2.meters := by
  decide +kernel

/-- Refutes O30: the statement has memory as it was when an import goes under way, its meters included. A descriptor read from Tier F is metered for the
composition of its partition, so the memory system's state is another. -/
theorem not_segments : ¬Obligations.Segments := by
  rintro ⟨-, -, -, -, -, -, -, start, -⟩
  obtain ⟨t, b, run, -, -, -, -, -, mem⟩ := start farImport 0 0 5 0 farImportRec 1 2 farDescriptor
    ⟨by decide +kernel, by decide +kernel, by decide +kernel⟩ (by decide +kernel) (by decide +kernel) (by decide +kernel)
  have metered := farImport_metered
  rw [after_of_next run, mem] at metered
  exact metered rfl

end Sys2Proof.Machine
end

section
set_option Elab.async false
/-! SUPPORT. Commands of embedding tables (spec/11): creation, closing a step, switching and destroying. -/

namespace Sys2Proof.Machine

/-! ### Tables -/

theorem State.table_modTable {s : State} {tid : Nat} {t : Table} (f : Table → Table) (there : s.table? tid = some t) :
    (s.modTable tid f).table? tid = some (f t) := by
  have there' : kvGet? tid s.emb.tables = some t := there
  show kvGet? tid (kvUpd tid f s.emb.tables) = _
  simp [kvGet?_upd, there']

theorem tableOf_some {s : State} {p tid : Nat} {t : Table} (h : s.tableOf p tid = some t) : s.table? tid = some t ∧ t.part = p := by
  obtain ⟨there, mine⟩ := Option.filter_eq_some_iff.mp h
  exact ⟨there, by simpa using mine⟩

/-- What giving up rows and areas leaves. -/
theorem release_reads (s : State) (a : Nat) : (s.release a).emb = s.emb ∧ (s.release a).recs = s.recs ∧ (s.release a).regs = s.regs ∧
    (s.release a).out = s.out := by
  unfold State.release
  repeat' split
  all_goals exact ⟨rfl, rfl, rfl, rfl⟩

theorem giveRows_reads (s : State) (a : Nat) (i : Option Nat) :
    (s.giveRows a i).emb = s.emb ∧ (s.giveRows a i).recs = s.recs ∧ (s.giveRows a i).regs = s.regs ∧
    (s.giveRows a i).out = s.out := by
  unfold State.giveRows
  split
  · exact ⟨rfl, rfl, rfl, rfl⟩
  · exact release_reads s a

/-- Retiring versions that nothing holds takes at most the old version of a table. -/
theorem retireVersions_reads {s : State} {tid : Nat} {x : Table} (there : s.table? tid = some x) :
    (∃ o, s.retireVersions.table? tid = some { x with old := o }) ∧ s.retireVersions.recs = s.recs := by
  unfold State.retireVersions
  generalize s.emb.tables = l
  have start : ∃ o, s.table? tid = some { x with old := o } := ⟨x.old, there⟩
  clear there
  induction l generalizing s with
  | nil => exact ⟨start, rfl⟩
  | cons y l ih =>
    rw [List.foldl_cons]
    split
    next v a i _ =>
      split
      · exact ih start
      · obtain ⟨emb, recs, _⟩ := giveRows_reads (s.putEmb { s.emb with tables := kvUpd y.1 (fun z => { z with old := none }) s.emb.tables }) a i
        refine And.imp_right (fun e => e.trans recs) (ih ?_)
        obtain ⟨o, there⟩ := start
        have there' : kvGet? tid s.emb.tables = some { x with old := o } := there
        unfold State.table?
        rw [emb]
        show ∃ o, kvGet? tid (kvUpd y.1 (fun z => { z with old := none }) s.emb.tables) = _
        rw [kvGet?_upd]
        split
        next same => exact ⟨none, by rw [← same, there']; rfl⟩
        · exact ⟨o, there'⟩
    · exact ih start

/-! ### What a table waits for -/

theorem beginClosers_none {s : State} {tid : Nat} {t : Table} (there : s.table? tid = some t) (none : t.closers = []) : s.beginClosers tid = s := by
  unfold State.beginClosers
  simp [there, none]

/-- A switch with no recall left completes. -/
theorem settleTable_switched {s : State} {tid rid : Nat} {t : Table} (there : s.table? tid = some t) (none : t.closers = []) (live : t.dying = .none)
    (switch : t.switch = some rid) (back : t.recalls = []) :
    s.settleTable tid = (s.modTable tid (fun t => { t with switch := .none })).done t.part rid 0 t.version 0 := by
  unfold State.settleTable
  rw [beginClosers_none there none]
  simp only [there, live, switch, back]
  rfl

/-- A table that is destroyed goes once its rows are back. -/
theorem settleTable_destroyed {s : State} {tid rid : Nat} {t : Table} (there : s.table? tid = some t) (none : t.closers = [])
    (dying : t.dying = some rid)
    (switch : t.switch = some rid) (back : t.recalls = []) (idle : s.workBefore t.part tid rid = false) :
    s.settleTable tid = (s.dropTable tid).done t.part rid 0 0 0 := by
  unfold State.settleTable
  rw [beginClosers_none there none]
  simp [there, dying, switch, back, idle]

theorem releases_reads (l : List Nat) (s : State) : (l.foldl State.release s).emb = s.emb ∧ (l.foldl State.release s).recs = s.recs ∧
    (l.foldl State.release s).regs = s.regs ∧ (l.foldl State.release s).out = s.out := by
  induction l generalizing s with
  | nil => exact ⟨rfl, rfl, rfl, rfl⟩
  | cons a l ih =>
    obtain ⟨emb, recs, regs, out⟩ := ih (s.release a)
    obtain ⟨emb', recs', regs', out'⟩ := release_reads s a
    exact ⟨emb.trans emb', recs.trans recs', regs.trans regs', out.trans out'⟩

theorem dropTable_reads (s : State) (tid : Nat) : (s.dropTable tid).recs = s.recs ∧ (s.dropTable tid).regs = s.regs ∧
    (s.dropTable tid).out = s.out := by
  unfold State.dropTable
  split
  · exact ⟨rfl, rfl, rfl⟩
  next t _ =>
    obtain ⟨-, recs, regs, out⟩ := releases_reads t.areas s
    dsimp only
    split <;> split <;> simp [State.dirDel, State.modEmb, giveRows_reads, recs, regs, out]

/-! ### TABLE_CREATE -/

/-- The table that TABLE_CREATE makes of its parameters, its areas and the rows given with it. -/
def newTable (p : Nat) (c : HostCmd) (opt : Nat) (map : List TMapEnt) (shard : Option Nat) (check : Nat) (given : Option (Nat × Tensor))
    (sizes areas : List Nat) :
    Table :=
  let at_ := fun (i : Nat) => if sizes.getD i 0 = 0 then none else areas[i]?
  { part := p, rowType := c.param 2 1, tier := c.param 3 1, dim := c.param 4 2, hash := c.param 6 1 == 1, opt := opt, rows := c.param 8 8, map := map,
    driftRows := c.param 28 4, lr := c.param 40 4, eps := c.param 44 4, accumRows := c.param 48 4, check := check, shard := shard,
    addr := (given.map (fun x => x.2.addr)).getD ((at_ 0).getD 0), tensor := given.map (fun x => x.1), state := at_ 1, drift := at_ 2,
    areas := ([0, 1, 2, 3].filterMap at_), version := 1, old := none, steps := [], got := [], ends := [], sent := [], endedTo := [], ended := 0,
        issued := 0,
    lastClosed := 0, closers := [], drifts := [], slots := [], held := [], recalls := [], switch := none, dying := none, served := [], loads := [] }

/-- The tensor of the rows given with a table is the table's from now on. -/
def State.takeGiven (s : State) (given : Option (Nat × Tensor)) : State :=
  match given with
  | some (i, _) => s.modMem (fun m => { m with tensors := kvUpd i (fun (t : Tensor) => { t with holder := .table }) m.tensors })
  | none => s

theorem takeGiven_calm {s t : State} {given : Option (Nat × Tensor)} (h : Calm s t) : Calm s (t.takeGiven given) := by
  unfold State.takeGiven
  split
  · exact h.modMem
  · exact h

theorem allocAreas_calm {s t u : State} {p tier : Nat} {sizes areas : List Nat} (h : Calm s t) (e : t.allocAreas p tier sizes = some (areas, u)) :
    Calm s u := by
  induction sizes generalizing t areas with
  | nil =>
    cases e
    exact h
  | cons n ns ih =>
    unfold State.allocAreas at e
    split at e
    · obtain ⟨⟨bs, v⟩, rest, same⟩ := Option.map_eq_some_iff.mp e
      cases same
      exact ih h rest
    · split at e
      · cases e
      next a w placed =>
        obtain ⟨⟨bs, v⟩, rest, same⟩ := Option.map_eq_some_iff.mp e
        cases same
        exact ih (h.alloc placed).modMem rest

/-- The check value of the parameters of a table. -/
def State.createCheck (s : State) (p : Nat) (c : HostCmd) (bs : List Byte) : Nat :=
  descCheck (c.param 0 2) (c.param 2 1) (c.param 4 2) (c.param 6 1) (s.tableOpt p c) (c.param 8 8) (c.param 24 2) (c.param 40 4) (c.param 44 4) bs

/-- The node with the new table. -/
def State.tableAdded (v0 v : State) (p : Nat) (r : Rec) (map : List TMapEnt) (shard : Option Nat) (locs : Nat) (areas : List Nat) (bs : List Byte)
    : State :=
  let t := newTable p r.cmd (v0.tableOpt p r.cmd) map shard (v0.createCheck p r.cmd bs) (v0.claimedTensor r (r.cmd.param 32 8))
    (v0.tableSizes p r.cmd shard.isSome locs) areas
  (v.takeGiven (v0.claimedTensor r (r.cmd.param 32 8))).modEmb (fun e => { e with tables := kvPut (r.cmd.param 0 2) t e.tables })

theorem execTableCreate_made {s v0 v : State} {p q cid rid mi locs : Nat} {r : Rec} {mt : Tensor} {bs : List Byte} {map : List TMapEnt} {areas : List Nat}
    {shard : Option Nat} (may : MayRun s p q cid 0x30 rid r) (free : s.allocHeld = false) (ok : (s.named r).tableCreateCheck p r.cmd = none)
    (claimed : s.claimedTensor r (r.cmd.param 16 8) = some (mi, mt)) (hbs : bs = s.mapBytes r.cmd mt) (hv0 : v0 = s.access p mt.addr bs.length)
    (sharded : v0.shardOf p r.cmd bs = (map, shard, locs))
    (placed : v0.allocAreas p (r.cmd.param 3 1) (v0.tableSizes p r.cmd shard.isSome locs) = some (areas, v)) :
    exec (.tableCreate p q cid) s = .next ((v0.tableAdded v p r map shard locs areas bs).done p rid 0 locs (v0.createCheck p r.cmd bs)) := by
  subst hbs hv0
  show execTableCreate p q cid s = _
  unfold execTableCreate
  rw [may.1]
  dsimp only
  rw [free, ok, claimed]
  simp only [Bool.false_eq_true, if_false]
  rw [sharded]
  dsimp only
  rw [placed]
  rfl

theorem execTableCreate_failed {s : State} {p q cid rid st : Nat} {r : Rec} (may : MayRun s p q cid 0x30 rid r) (free : s.allocHeld = false)
    (bad : (s.named r).tableCreateCheck p r.cmd = some st) : exec (.tableCreate p q cid) s = .next
        (s.refuse p rid st ((s.named r).tableOver p r.cmd)) := by
  show execTableCreate p q cid s = _
  unfold execTableCreate
  rw [may.1]
  dsimp only
  rw [free, bad]
  rfl

theorem execTableCreate_held {s : State} {p q cid rid : Nat} {r : Rec} (may : MayRun s p q cid 0x30 rid r) (held : s.allocHeld = true) :
    exec (.tableCreate p q cid) s = .next s := by
  show execTableCreate p q cid s = _
  unfold execTableCreate
  rw [may.1]
  exact if_pos held

/-! ### TABLE_STEP_CLOSE -/

theorem execTableStepClose_failed {s : State} {p q cid rid st : Nat} {r : Rec} (may : MayRun s p q cid 0x33 rid r)
    (bad : s.stepCloseCheck p r.cmd = some st) :
    exec (.tableStepClose p q cid) s = .next (s.fail p rid st) := by
  show execTableStepClose p q cid s = _
  unfold execTableStepClose
  rw [may.1]
  dsimp only
  rw [bad]

/-- A step is to be closed: its closer is noted and its request goes under way. -/
def State.closing (s : State) (rid : Nat) (r : Rec) : State :=
  (s.modTable (r.cmd.param 0 2) (fun t => { t with
    closers := t.closers ++ [{ rid := rid, step := r.cmd.param 8 8, since := r.fetched, begun := false, applied := 0, missing := [], late := false }]
    issued := max t.issued (r.cmd.param 8 8) })).modRec rid (fun r => { r with phase := .running })

theorem execTableStepClose_passed {s : State} {p q cid rid : Nat} {r : Rec} (may : MayRun s p q cid 0x33 rid r)
    (ok : s.stepCloseCheck p r.cmd = none) :
    exec (.tableStepClose p q cid) s = .next ((s.closing rid r).settleTable (r.cmd.param 0 2)) := by
  show execTableStepClose p q cid s = _
  unfold execTableStepClose
  rw [may.1]
  dsimp only
  rw [ok]
  rfl

theorem stepCloseCheck_later {s : State} {p : Nat} {c : HostCmd} {t : Table} (there : s.tableOf p (c.param 0 2) = some t)
    (later : t.lastClosed < c.param 8 8) :
    s.stepCloseCheck p c = none := by
  unfold State.stepCloseCheck
  rw [there]
  exact if_neg (by omega)

/-! ### TABLE_SWITCH -/

theorem emb_named (s : State) (r : Rec) : (s.named r).emb = s.emb := by
  unfold State.named
  dsimp only
  split <;> rfl

theorem switchCheck_bad {s : State} {p q cid rid st : Nat} {r : Rec} (may : MayRun s p q cid 0x34 rid r)
    (bad : (s.named r).switchCheck p r.cmd = some st) :
    ∃ t, exec (.tableSwitch p q cid) s = .next t ∧ Completes s t p q cid st 0 0 0 := by
  show ∃ t, execTableSwitch p q cid s = .next t ∧ _
  unfold execTableSwitch
  rw [may.1]
  dsimp only
  split
  · rw [bad]
    exact ⟨_, rfl, may.failed (.refl s) may.2.1 may.2.2 (.inl (by decide))⟩
  next none =>
    have handle : st = scBadHandle := by
      obtain ⟨part, -⟩ := readyRec_spec may.1
      have same : (s.named r).tableOf p (r.cmd.param 0 2) = s.tableOf p (r.cmd.param 0 2) := by
        unfold State.tableOf State.table?
        rw [emb_named]
      unfold State.switchCheck at bad
      split at bad
      next t i n there tensor =>
        exact (none t i n (same ▸ there) (by unfold State.claimedTensor; rw [part]; exact tensor)).elim
      next => exact (Option.some.inj bad).symm
    exact ⟨_, rfl, handle ▸ may.failed (.refl s) may.2.1 may.2.2 (.inl (by decide))⟩

/-- The optimizer state of a table starts anew. -/
def State.stateCleared (s : State) (t : Table) : State :=
  match t.state with
  | some a => s.modMem (fun m => m.clear a (4 * t.localRows))
  | none => s

theorem stateCleared_reads (s : State) (t : Table) : (s.stateCleared t).emb = s.emb ∧ (s.stateCleared t).recs = s.recs := by
  unfold State.stateCleared
  split <;> exact ⟨rfl, rfl⟩

/-- A tensor is held by a table. -/
def State.tableHolds (s : State) (i : Nat) : State :=
  s.modMem (fun m => { m with tensors := kvUpd i (fun (x : Tensor) => { x with holder := .table }) m.tensors })

/-- The new rows are the shard's, at the next version, and the request is under way. -/
def State.switching (s : State) (rid i : Nat) (r : Rec) (t : Table) (n : Tensor) : State :=
  let s := s.modTable (r.cmd.param 0 2) (fun x => { x with
    addr := n.addr, tensor := some i, areas := t.areas.filter (fun a => a != t.addr), version := (x.version + 1) % 2 ^ 32
    old := some (x.version, x.addr, x.tensor), switch := some rid })
  (((s.tableHolds i).stateCleared t).modRec rid (fun r => { r with phase := .running })).retireVersions

theorem execTableSwitch_passed {s : State} {p q cid rid i : Nat} {r : Rec} {t : Table} {n : Tensor} (may : MayRun s p q cid 0x34 rid r)
    (there : s.tableOf p (r.cmd.param 0 2) = some t) (claimed : s.claimedTensor r (r.cmd.param 8 8) = some (i, n))
    (ok : (s.named r).switchCheck p r.cmd = none) : exec (.tableSwitch p q cid) s =
      .next (if t.old.isSome ∨ t.switch.isSome then s else ((s.switching rid i r t n).recallRows (r.cmd.param 0 2)).settleTable (r.cmd.param 0 2))
          := by
  show execTableSwitch p q cid s = _
  unfold execTableSwitch
  rw [may.1]
  dsimp only
  rw [there, claimed]
  dsimp only
  rw [ok]
  dsimp only
  split <;> rfl

theorem switching_reads {s : State} {rid i : Nat} {r : Rec} {t : Table} (n : Tensor) (there : s.table? (r.cmd.param 0 2) = some t)
    (rec : kvGet? rid s.recs = some r) : Begun (s.switching rid i r t n) rid r ∧ ∃ x, (s.switching rid i r t n).table? (r.cmd.param 0 2)
        = some x ∧ x.addr = n.addr ∧
      x.tensor = some i ∧ x.version = (t.version + 1) % 2 ^ 32 ∧ x.switch = some rid ∧ x.rows = t.rows := by
  have next := State.table_modTable (fun x => { x with
    addr := n.addr, tensor := some i, areas := t.areas.filter (fun a => a != t.addr), version := (x.version + 1) % 2 ^ 32
    old := some (x.version, x.addr, x.tensor), switch := some rid }) there
  have cleared (u : State) := stateCleared_reads u t
  unfold State.switching
  dsimp only
  generalize hu : s.modTable (r.cmd.param 0 2) _ = u at next
  have recs : u.recs = s.recs := hu ▸ rfl
  have kept : (((u.tableHolds i).stateCleared t).modRec rid (fun r => { r with phase := .running })).table? (r.cmd.param 0 2) = u.table?
      (r.cmd.param 0 2) :=
    congrArg (fun e : Emb => kvGet? (r.cmd.param 0 2) e.tables) (cleared _).1
  obtain ⟨⟨o, there'⟩, same⟩ := retireVersions_reads (kept.trans next)
  refine ⟨?_, _, there', rfl, rfl, rfl, rfl, rfl⟩
  unfold Begun
  rw [same]
  exact kvGet?_modRec (by rw [(cleared _).2]; exact recs ▸ rec) _

/-! ### TABLE_DESTROY -/

theorem execTableDestroy_eq {s : State} {p q cid rid : Nat} {r : Rec} {t : Table} (may : MayRun s p q cid 0x35 rid r)
    (there : s.tableOf p (r.cmd.param 0 2) = some t) (live : t.dying = none) : exec (.tableDestroy p q cid) s = .next (if t.switch.isSome then s
      else ((s.modTable (r.cmd.param 0 2) (fun t => { t with dying := some rid })).modRec rid (fun r => { r with phase := .running })).settleTable
          (r.cmd.param 0 2)) := by
  have ok : s.destroyCheck p r.cmd = none := by
    unfold State.destroyCheck
    rw [there]
    exact if_neg (by rw [live]; decide)
  show execTableDestroy p q cid s = _
  unfold execTableDestroy
  rw [may.1]
  dsimp only
  rw [there]
  dsimp only
  rw [ok]
  dsimp only
  split <;> rfl

theorem execTableDestroy_failed {s : State} {p q cid rid st : Nat} {r : Rec} (may : MayRun s p q cid 0x35 rid r)
    (bad : s.destroyCheck p r.cmd = some st) :
    exec (.tableDestroy p q cid) s = .next (s.fail p rid st) := by
  show execTableDestroy p q cid s = _
  unfold execTableDestroy
  rw [may.1]
  dsimp only
  split
  next none =>
    unfold State.destroyCheck at bad
    rw [none] at bad
    cases bad
    rfl
  next t there =>
    rw [bad]

/-- A host's request that is done completes, whatever its command. -/
theorem done_completes {s u : State} {p rid count r0 r1 : Nat} {r : Rec} (e : Extends s u) (rec : kvGet? rid u.recs = some r) (host : r.fab = none)
    (steady : u.pstate r.part ≠ stResetting) : Completes s (u.done p rid count r0 r1) r.part r.q r.cmd.cid scDone count r0 r1 := by
  have done := complete_completes u p rid r scDone 0 count r0 r1 [] rec host steady (.inr ⟨rfl, .inr ⟨by decide, by decide⟩⟩)
  rw [finalCount_done] at done
  exact .after e done

/-- Settles O31: each command is read off the table that it leaves, and a table with nothing left to wait for completes its command. -/
theorem tableCommands : Obligations.TableCommands := by
  unfold Obligations.TableCommands
  refine ⟨?_, ?_, ?_, ?_, ?_, ?_, ?_, ?_, ?_, ?_⟩
  · intro s v0 v p q cid rid mi locs r mt bs map areas shard hp may free ok claimed hbs hv0 sharded placed
    have calm : Calm s (v0.tableAdded v p r map shard locs areas bs) := by
      have start : Calm s v0 := hv0 ▸ (Calm.refl s).access
      unfold State.tableAdded
      exact (takeGiven_calm (allocAreas_calm start placed)).modEmb
    exact ⟨_, _, _, execTableCreate_made may free ok claimed hbs hv0 sharded placed, may.doneAfter calm hp, rfl, kvGet?_put_self _ _ _, rfl, rfl,
        rfl, rfl, rfl, rfl, rfl⟩
  · intro s p q cid rid st r hp may free bad
    exact ⟨_, execTableCreate_failed may free bad, may.failedAfter ((Calm.refl s).aside (Aside.refl s).noteQuota) hp (.inl (by decide))⟩
  · intro s p q cid rid r may held
    exact execTableCreate_held may held
  · rintro s p q cid rid tid step r t may rfl rfl there later
    have next := State.table_modTable (fun x => { x with
      closers := x.closers ++ [{ rid := rid, step := r.cmd.param 8 8, since := r.fetched, begun := false, applied := 0, missing := [], late :=
          false }]
      issued := max x.issued (r.cmd.param 8 8) }) (tableOf_some there).1
    exact ⟨_, _, execTableStepClose_passed may (stepCloseCheck_later there later), kvGet?_modRec (s := s.modTable _ _) may.2.1 _, next, rfl, rfl, rfl⟩
  · intro s p q cid rid st r
    refine ⟨fun may bad => ?_, fun may bad => switchCheck_bad may bad, fun may bad => ?_⟩
    · exact ⟨_, execTableStepClose_failed may bad, may.failed (.refl s) may.2.1 may.2.2 (.inl (by decide))⟩
    · exact ⟨_, execTableDestroy_failed may bad, may.failed (.refl s) may.2.1 may.2.2 (.inl (by decide))⟩
  · rintro s p q cid rid tid i r t n may rfl there claimed ok
    refine ⟨fun first idle => ?_, fun busy => ?_⟩
    · obtain ⟨begun, x, is, rest⟩ := switching_reads n (tableOf_some there).1 may.2.1
      refine ⟨_, x, (execTableSwitch_passed may there claimed ok).trans (congrArg Host.Outcome.next (if_neg ?_)), begun, is, rest⟩
      rw [first, idle]
      decide
    · exact (execTableSwitch_passed may there claimed ok).trans (congrArg Host.Outcome.next (if_pos busy))
  · rintro s p q cid rid tid r t may rfl there live
    refine ⟨fun idle => ?_, fun busy => ?_⟩
    · refine ⟨_, _, (execTableDestroy_eq may there live).trans (congrArg Host.Outcome.next (if_neg ?_)), kvGet?_modRec (s := s.modTable _ _)
        may.2.1 _,
        State.table_modTable (fun t => { t with dying := some rid }) (tableOf_some there).1, rfl, rfl, rfl⟩
      rw [idle]
      decide
    · exact (execTableDestroy_eq may there live).trans (congrArg Host.Outcome.next (if_pos busy))
  · intro s p q cid rid r
    refine ⟨fun way none => ?_, fun way none => ?_, fun way none => ?_⟩
    · show execTableStepClose p q cid s = _
      unfold execTableStepClose
      rw [none, way.1]
    · show execTableSwitch p q cid s = _
      unfold execTableSwitch
      rw [none, way.1]
    · show execTableDestroy p q cid s = _
      unfold execTableDestroy
      rw [none, way.1]
  · intro s tid rid t r there none live switch back rec host steady
    rw [settleTable_switched there none live switch back]
    exact done_completes (.of_eq rfl) rec host steady
  · intro s tid rid t r there none dying switch back idle rec host steady
    obtain ⟨recs, regs, out⟩ := dropTable_reads s tid
    rw [settleTable_destroyed there none dying switch back idle]
    exact done_completes (.of_eq out) (recs.symm ▸ rec) host (by rw [State.pstate, State.fld, State.reg, regs]; exact steady)

end Sys2Proof.Machine
end

section
set_option Elab.async false
/-! SUPPORT. Requests between the nodes of a table (spec/11): lookups and contributions, their answers, and the close of steps. -/

namespace Sys2Proof.Machine

theorem handed_of_handoff {s u : State} {k : Packet} (handoff : u.fab.handoff = s.fab.handoff) (node : u.nodeId = s.nodeId) :
    Handed s (u.handPacket k) k := by
  unfold Handed State.handPacket
  rw [node]
  split
  · exact ⟨by simp [handoff], by simp⟩
  · simp [handoff]

/-- The answer to a packet. -/
def State.answerTo (s : State) (k : Packet) (vc ptype op part : Nat) (args : List Nat) (data : List Byte) : Packet :=
  { vc := vc, ptype := ptype, opcode := op, dstNode := k.srcNode, dstPart := k.srcPart, dstEp := k.srcEp, srcNode := s.nodeId, srcPart := part,
      srcEp := k.dstEp,
    length := data.length, resetGen := k.resetGen, seq := k.seq, dist := s.distTo k.srcNode, args := args, data := data }

theorem answer_eq (s : State) (k : Packet) (vc ptype op part : Nat) (args : List Nat) (data : List Byte) :
    s.answer (reqOrigin k) vc ptype op part k.dstEp args data = s.handPacket (s.answerTo k vc ptype op part args data) := rfl

theorem emb_handPacket (s : State) (k : Packet) : (s.handPacket k).emb = s.emb := by
  unfold State.handPacket
  split <;> rfl

/-! ### Lookups at the owner -/

theorem serveLookup_refused {s : State} {k : Packet} (refused : s.refusesTable k = true) :
    s.serveLookup k = s.handPacket (s.answerTo k 3 2 opLookup k.dstPart [scRemoteError] []) := if_pos refused

theorem refusesTable_taken (s : State) (k : Packet) : (s.taken k).refusesTable k = s.refusesTable k := rfl

/-- What noting the rows served leaves of the node. -/
structure Served (s t : State) : Prop where
  handoff : t.fab.handoff = s.fab.handoff
  node : t.nodeId = s.nodeId

theorem Served.of_aside {s t u : State} (h : Served s t) (g : Aside t u) : Served s u :=
  ⟨(g.view fun v => v.fab.handoff).trans h.handoff, (congrArg fFabStatus_NODE_ID.get (g.reg rFabStatus (.inl (by decide)))).trans h.node⟩

theorem Served.modEmb {s t : State} {f : Emb → Emb} (h : Served s t) : Served s (t.modEmb f) := ⟨h.handoff, h.node⟩

theorem Served.foldl {α : Type} {s t : State} {f : State → α → State} {l : List α} (h : Served s t) (step : ∀ u a, Served s u → Served s (f u a)) :
    Served s (l.foldl f t) := by
  induction l generalizing t with
  | nil => exact h
  | cons a l ih => exact ih (step t a h)

theorem foldl_stays {α β : Type} {f : β → α → β} {b : β} {l : List α} (h : ∀ a ∈ l, f b a = b) : l.foldl f b = b := by
  induction l with
  | nil => rfl
  | cons a l ih =>
    rw [List.foldl_cons, h a List.mem_cons_self]
    exact ih fun c hc => h c (List.mem_cons_of_mem _ hc)

/-- The rows of a lookup that are all here are answered with their bytes. -/
theorem serveLookup_here {s : State} {k : Packet} {t : Table} (accepted : s.refusesTable k = false) (there : s.table? (k.args.getD 0 0) = some t)
    (some : k.args.drop 3 ≠ []) (here : ∀ x ∈ k.args.drop 3, t.drifting x = false ∧ s.ownerNext (k.args.getD 0 0) t x true = none ∧
      s.mem.isDamaged (t.rowPlace t.addr x).1 t.stride = false) :
    ∃ (u : State) (info : List Nat), Served s u ∧ s.serveLookup k = u.handPacket (u.answerTo k 3 1 opLookup t.part (scDone :: info)
      ((k.args.drop 3).flatMap (fun x => s.rowAt t t.version x))) := by
  have waits : (k.args.drop 3).filter t.drifting = [] := List.filter_eq_nil_iff.mpr fun x hx => by rw [(here x hx).1]; decide
  have all : (k.args.drop 3).filter (fun x => !t.drifting x) = k.args.drop 3 := List.filter_eq_self.mpr fun x hx => by rw [(here x hx).1]; rfl
  have next : (k.args.drop 3).map (fun x => (x, s.ownerNext (k.args.getD 0 0) t x true)) = (k.args.drop 3).map (fun x => (x, (none : Option Nat))) :=
    List.map_congr_left fun x hx => by rw [(here x hx).2.1]
  have local' : (((k.args.drop 3).map (fun x => (x, (none : Option Nat)))).filter (fun x => x.2.isNone)).map (fun x => x.1) = k.args.drop 3 := by
    rw [List.filter_eq_self.mpr (fun x hx => by obtain ⟨y, _, rfl⟩ := List.mem_map.mp hx; rfl), List.map_map]
    exact List.map_id' _
  have sound : (k.args.drop 3).any (fun x => s.mem.isDamaged (t.rowPlace t.addr x).1 t.stride) = false :=
    List.any_eq_false.mpr fun x hx => by rw [(here x hx).2.2]; decide
  have some' : (k.args.drop 3).isEmpty = false := by simpa using some
  unfold State.serveLookup
  dsimp only
  rw [if_neg (by rw [accepted]; decide), there]
  dsimp only
  rw [waits, all, next, local']
  rw [foldl_stays (b := ([] : KV (List Nat))) (fun a ha => by obtain ⟨y, _, rfl⟩ := List.mem_map.mp ha; rfl)]
  simp only [List.isEmpty_nil, if_true, List.foldl_nil]
  rw [if_neg (by rw [some']; decide), if_neg (by rw [sound]; decide)]
  refine ⟨_, _, ?_, answer_eq _ _ _ _ _ _ _ _⟩
  have reads : Served s ((k.args.drop 3).foldl (fun (s : State) x => s.access t.part (t.rowPlace t.addr x).1 t.stride) s) :=
    Served.foldl ⟨rfl, rfl⟩ fun u x h => h.of_aside (Aside.refl u).access
  have noted : ∀ (u : State) (n : Nat), Served s u → Served s (u.noteServed (k.args.getD 0 0) n) := fun u n h => by
    unfold State.noteServed
    split
    · exact h
    · exact h.modEmb
  exact ((noted _ _ reads).of_aside (Aside.refl _).phaseRan).foldl fun u x h => h.modEmb

/-! ### Answers to lookups -/

theorem lookups_dirPut (s : State) (d : DirEnt) : (s.dirPut d).emb.lookups = s.emb.lookups ∧ (s.dirPut d).emb.updates = s.emb.updates := by
  unfold State.dirPut
  dsimp only
  split
  · unfold State.dirRoom
    split
    · exact ⟨rfl, rfl⟩
    · split <;> simp [State.modEmb]
  · exact ⟨rfl, rfl⟩

theorem lookups_dirPuts {α : Type} (f : α → DirEnt) (l : List α) (s : State) :
    (l.foldl (fun (s : State) n => s.dirPut (f n)) s).emb.lookups = s.emb.lookups ∧
    (l.foldl (fun (s : State) n => s.dirPut (f n)) s).emb.updates = s.emb.updates := by
  induction l generalizing s with
  | nil => exact ⟨rfl, rfl⟩
  | cons n l ih =>
    obtain ⟨lookups, updates⟩ := ih (s.dirPut (f n))
    obtain ⟨lookups', updates'⟩ := lookups_dirPut s (f n)
    exact ⟨lookups.trans lookups', updates.trans updates'⟩

/-- What is learned of a row's owner and its replicas goes into the directory only. -/
theorem lookups_learn (s : State) (tid : Nat) (t : Table) (x owner : Nat) (reps : Option (List Nat)) :
    (s.learn tid t x owner reps).emb.lookups = s.emb.lookups ∧ (s.learn tid t x owner reps).emb.updates = s.emb.updates := by
  have home : ∀ (c : Prop) [Decidable c] (f : DirEnt → Bool) (d : DirEnt), (if c then s.dirDel f else s.dirPut d).emb.lookups = s.emb.lookups ∧
      (if c then s.dirDel f else s.dirPut d).emb.updates = s.emb.updates := by
    intro c _ f d
    split
    · exact ⟨rfl, rfl⟩
    · exact lookups_dirPut s d
  unfold State.learn
  dsimp only
  split
  · exact home _ _ _
  next ns =>
    obtain ⟨lookups, updates⟩ := lookups_dirPuts (fun n => ({ row := x, table := tid, kind := 0, node := n, rep := true } : DirEnt)) _ _
    exact ⟨lookups.trans (home _ _ _).1, updates.trans (home _ _ _).2⟩

theorem lookups_learns (tid : Nat) (t : Table) (l : List (Nat × Nat × Option (List Nat))) (s : State) :
    (l.foldl (fun (s : State) x => s.learn tid t x.1 x.2.1 x.2.2) s).emb.lookups = s.emb.lookups := by
  induction l generalizing s with
  | nil => rfl
  | cons x l ih => exact (ih _).trans (lookups_learn s tid t x.1 x.2.1 x.2.2).1

/-- The rows of an answer, widened. -/
def answered (t : Table) (k : Packet) : List (Nat × List Nat) :=
  (answerRows k.args.length (k.args.drop 1)).zipIdx.map (fun x => (x.1.1, widenRow t.rowType t.dim ((k.data.drop (x.2 * t.stride)).take t.stride)))

/-- A lookup with the rows of an answer taken in, and what it still waits for. -/
def Lookup.answered (l : Lookup) (t : Table) (k : Packet) : Lookup :=
  let info := answerRows k.args.length (k.args.drop 1)
  let left := (kvGetD [] k.seq l.want).filter (fun x => !info.any (fun y => y.1 == x))
  { l with
    vals := (info.zipIdx.map (fun x => (x.1.1, widenRow t.rowType t.dim ((k.data.drop (x.2 * t.stride)).take t.stride)))).foldl
      (fun (m : KV (List Nat)) x => kvPut x.1 x.2 m) l.vals
    want := if left.isEmpty then kvDel k.seq l.want else kvPut k.seq left l.want }

/-- The node that has taken in an answer. -/
def State.answerTaken (s : State) (rid : Nat) (l : Lookup) (t : Table) (k : Packet) : State :=
  let info := answerRows k.args.length (k.args.drop 1)
  let left := (kvGetD [] k.seq l.want).filter (fun x => !info.any (fun y => y.1 == x))
  let s := if left.isEmpty then (s.taken k).endRequest k.seq else s.taken k
  info.foldl (fun (s : State) x => s.learn l.table t x.1 x.2.1 x.2.2) (s.modEmb (fun m => { m with lookups := kvPut rid (l.answered t k) m.lookups }))

theorem answerTaken_lookup (s : State) (rid : Nat) (l : Lookup) (t : Table) (k : Packet) :
    kvGet? rid (s.answerTaken rid l t k).emb.lookups = some (l.answered t k) := by
  unfold State.answerTaken
  dsimp only
  rw [lookups_learns]
  exact kvGet?_put_self _ _ _

theorem execRemoteLookupResponse_known {s : State} {k : Packet} {o : OutReq} {rid : Nat} {l : Lookup} {t : Table} (now : s.isLate k = false)
    (out : kvGet? k.seq s.fab.out = some o) (kind : o.kind = opLookup) (of : o.rid = some rid) (there : kvGet? rid s.emb.lookups = some l)
    (table : s.table? l.table = some t) : exec (.remoteLookupResponse k) s =
      .next (if k.ptype = 2 ∨ k.args.headD scRemoteError ≠ scDone then
          (((s.taken k).endRequest k.seq).fail t.part rid (refuseStatus k)).settleTable l.table
        else (s.answerTaken rid l t k).finishLookup rid) := by
  have now' : ¬(s.taken k).isLate k = true := by
    rw [show (s.taken k).isLate k = s.isLate k from rfl, now]
    decide
  have out' : kvGet? k.seq (s.taken k).fab.out = some o := out
  have of' : o.rid.bind (fun rid => (kvGet? rid (s.taken k).emb.lookups).map (fun l => (rid, l))) = some (rid, l) := by
    rw [of]
    exact congrArg (fun x : Option Lookup => x.map fun l => (rid, l)) there
  have table' : (s.taken k).table? l.table = some t := table
  show execRemoteLookupResponse k s = _
  unfold execRemoteLookupResponse
  dsimp only
  rw [if_neg now', out']
  dsimp only
  rw [if_neg (not_not.mpr kind), of']
  dsimp only
  rw [table']
  dsimp only
  split <;> rfl

theorem execRemoteLookupResponse_unknown {s : State} {k : Packet} (now : s.isLate k = false) (none : kvGet? k.seq s.fab.out = none) :
    exec (.remoteLookupResponse k) s = .next (s.taken k) ∧ exec (.contributionResultArrival k) s = .next (s.taken k) := by
  have now' : ¬(s.taken k).isLate k = true := by
    rw [show (s.taken k).isLate k = s.isLate k from rfl, now]
    decide
  have none' : kvGet? k.seq (s.taken k).fab.out = .none := none
  refine ⟨?_, ?_⟩
  · show execRemoteLookupResponse k s = _
    unfold execRemoteLookupResponse
    dsimp only
    rw [if_neg now', none']
  · show execContributionResultArrival k s = _
    unfold execContributionResultArrival
    dsimp only
    rw [if_neg now', none']

/-! ### Contributions -/

/-- The node that has accumulated the first row of a step. -/
def State.firstRow (s : State) (tid : Nat) (t : Table) (step x sender : Nat) (g : List Nat) : State :=
  (s.modTable tid (fun y => { y with steps := [{ step := step, acc := [(x, g)] }], got := addCount t.got step sender 1 })).bumpTable tid cEmbTContribs 1

theorem takeContrib_first {s : State} {k : Packet} {t : Table} (accepted : s.refusesTable k = false) (there : s.table? (k.args.getD 0 0) = some t)
    (still : t.drifting (k.args.getD 3 0) = false) (here : s.ownerNext (k.args.getD 0 0) t (k.args.getD 3 0) false = none)
    (later : t.lastClosed < k.args.getD 2 0) (none : t.steps = []) (room : 0 < t.accumRows) : ∃ sender, s.takeContrib k =
      ((s.firstRow (k.args.getD 0 0) t (k.args.getD 2 0) (k.args.getD 3 0) sender (fp32List t.dim k.data)).answer (reqOrigin k)
          4 1 opContrib t.part k.dstEp
        [0, (s.firstRow (k.args.getD 0 0) t (k.args.getD 2 0) (k.args.getD 3 0) sender (fp32List t.dim k.data)).nodeId] []).endSteps
            (k.args.getD 0 0) := by
  refine ⟨if k.args.getD 4 0 = 0 then k.srcNode else k.args.getD 4 0 - 1, ?_⟩
  unfold State.takeContrib
  dsimp only
  rw [if_neg (by rw [accepted]; decide), there]
  dsimp only
  rw [if_neg (by rw [still]; decide), here]
  dsimp only
  have taken : s.accumulate (k.args.getD 0 0) t (k.args.getD 2 0) (k.args.getD 3 0) (fp32List t.dim k.data)
      (some (if k.args.getD 4 0 = 0 then k.srcNode else k.args.getD 4 0 - 1)) = (s.modTable (k.args.getD 0 0) (fun y => { y with
        steps := [{ step := k.args.getD 2 0, acc := [(k.args.getD 3 0, fp32List t.dim k.data)] }],
        got := addCount t.got (k.args.getD 2 0) (if k.args.getD 4 0 = 0 then k.srcNode else k.args.getD 4 0 - 1) 1 }), 0) := by
    unfold State.accumulate
    rw [none]
    have open' : ¬(k.args.getD 2 0 ≤ t.lastClosed ∨ (([] : List TStep).find? (fun z => z.step == k.args.getD 2 0)).isNone = true ∧ 4 ≤
        ([] : List TStep).length) := by
      simpa using later
    have space : ¬((kvGet? (k.args.getD 3 0) ([] : KV (List Nat))).isNone = true ∧ t.accumRows ≤ ([] : KV (List Nat)).length) := by
      rintro ⟨-, full⟩
      exact absurd full (Nat.not_le.mpr room)
    exact (if_neg open').trans (if_neg space)
  rw [taken]
  rfl

theorem Aside.bumpTable {s t : State} {tid off n : Nat} (h : Aside s t) : Aside s (t.bumpTable tid off n) := by
  unfold State.bumpTable State.bumpCopy
  exact .ite h (.ite (.ite h.rawBump.markSat.event h.rawBump.markSat) h.rawBump)

theorem firstRow_reads {s : State} {tid : Nat} {t : Table} (there : s.table? tid = some t) (step x sender : Nat) (g : List Nat) :
    (s.firstRow tid t step x sender g).table? tid = some { t with
        steps := [{ step := step, acc := [(x, g)] }], got := addCount t.got step sender 1 } ∧
      Served s (s.firstRow tid t step x sender g) := by
  have counted : Aside (s.modTable tid (fun y => { y with steps := [{ step := step, acc := [(x, g)] }], got := addCount t.got step sender 1 }))
      (s.firstRow tid t step x sender g) := (Aside.refl _).bumpTable
  refine ⟨?_, Served.of_aside (s := s) (t := s.modTable tid (fun y => { y with
    steps := [{ step := step, acc := [(x, g)] }], got := addCount t.got step sender 1 })) ⟨rfl, rfl⟩ counted⟩
  unfold State.table?
  rw [counted.emb]
  exact State.table_modTable _ there


/-- The answer to a contribution is noted in its update. -/
def State.contribNoted (s : State) (rid x : Nat) (y : TUpdate) (k : Packet) : State :=
  let s := ((s.taken k).endRequest k.seq).modEmb (fun m =>
      { m with updates := kvUpd rid (fun u => { u with waits := kvDel k.seq u.waits }) m.updates })
  let s := match s.table? y.table with
    | some t => s.learn y.table t x (k.args.getD 1 0) none
    | none => s
  s.contribDone rid x (k.args.headD 1 == 0)

theorem execContributionResultArrival_known {s : State} {k : Packet} {o : OutReq} {rid x : Nat} {y : TUpdate} (now : s.isLate k = false)
    (out : kvGet? k.seq s.fab.out = some o) (kind : o.kind = opContrib) (of : o.rid = some rid) (there : kvGet? rid s.emb.updates = some y)
    (plain : k.ptype ≠ 2) (waits : kvGet? k.seq y.waits = some [x]) :
    exec (.contributionResultArrival k) s = .next ((s.contribNoted rid x y k).finishUpdate rid) := by
  have now' : ¬(s.taken k).isLate k = true := by
    rw [show (s.taken k).isLate k = s.isLate k from rfl, now]
    decide
  have out' : kvGet? k.seq (s.taken k).fab.out = some o := out
  have of' : o.rid.bind (fun rid => (kvGet? rid ((s.taken k).endRequest k.seq).emb.updates).map (fun u => (rid, u))) = some (rid, y) := by
    rw [of]
    exact congrArg (fun x : Option TUpdate => x.map fun u => (rid, u)) there
  have first : (kvGetD [] k.seq y.waits).headD 0 = x := by
    rw [kvGetD, waits]
    rfl
  show execContributionResultArrival k s = _
  unfold execContributionResultArrival
  dsimp only
  rw [if_neg now', out']
  dsimp only
  rw [if_neg (not_not.mpr kind), of']
  dsimp only
  rw [if_neg plain, first]
  rfl

theorem contribNoted_update {s : State} {rid x : Nat} {y : TUpdate} (k : Packet) (there : kvGet? rid s.emb.updates = some y) :
    ∃ z, kvGet? rid (s.contribNoted rid x y k).emb.updates = some z ∧ z.waits = kvDel k.seq y.waits ∧
      z.okIdx = (if k.args.headD 1 = 0 then y.okIdx + kvGetD 0 x y.counts else y.okIdx) ∧
      z.refused = (if k.args.headD 1 = 0 then y.refused else y.refused + 1) := by
  have learned : ∀ u : State, ((match u.table? y.table with | some t => u.learn y.table t x (k.args.getD 1 0) none | none => u)
      : State).emb.updates = u.emb.updates := by
    intro u
    cases u.table? y.table with
    | none => rfl
    | some t => exact (lookups_learn u y.table t x _ none).2
  have noted : (s.contribNoted rid x y k).emb.updates = kvUpd rid
      (fun u => if k.args.headD 1 == 0 then { u with okIdx := u.okIdx + kvGetD 0 x u.counts }
      else { u with refused := u.refused + 1 }) (kvUpd rid (fun u => { u with waits := kvDel k.seq u.waits }) s.emb.updates) :=
    congrArg (kvUpd rid _) (learned (((s.taken k).endRequest k.seq).modEmb fun m =>
        { m with updates := kvUpd rid (fun u => { u with waits := kvDel k.seq u.waits }) m.updates }))
  rw [noted]
  refine ⟨_, by rw [kvGet?_upd, if_pos rfl, kvGet?_upd, if_pos rfl, there]; rfl, ?_⟩
  dsimp only
  by_cases zero : k.args.headD 1 = 0
  · simp only [zero, beq_self_eq_true, if_true, and_self]
  · simp only [zero, beq_eq_false_iff_ne.mpr zero, if_false, Bool.false_eq_true, and_self]

/-! ### Ends and closes of steps -/

theorem execStepEndArrival_noted {s : State} {k : Packet} {t : Table} (there : s.tableOf k.dstPart (k.args.getD 0 0) = some t)
    (later : t.lastClosed < k.args.getD 1 0) (other : (s.otherNodes t).contains k.srcNode = true) :
    exec (.stepEndArrival k) s = .next (((s.taken k).modTable (k.args.getD 0 0) (fun t => { t with
      ends := kvPut (k.args.getD 1 0) (kvPut k.srcNode (k.args.getD 2 0) (kvGetD [] (k.args.getD 1 0) t.ends)) t.ends })).endSteps
          (k.args.getD 0 0)) := by
  have there' : (s.taken k).tableOf k.dstPart (k.args.getD 0 0) = some t := there
  have take : ¬(k.args.getD 1 0 ≤ t.lastClosed ∨ ((s.taken k).otherNodes t).contains k.srcNode = false) := by
    rw [show (s.taken k).otherNodes t = s.otherNodes t from rfl, other]
    simpa using later
  show execStepEndArrival k s = _
  unfold execStepEndArrival
  dsimp only
  rw [there']
  exact if_neg take

theorem execStepEndArrival_unknown {s : State} {k : Packet} (none : s.tableOf k.dstPart (k.args.getD 0 0) = none) :
    exec (.stepEndArrival k) s = .next (s.taken k) := by
  have none' : (s.taken k).tableOf k.dstPart (k.args.getD 0 0) = .none := none
  show execStepEndArrival k s = _
  unfold execStepEndArrival
  dsimp only
  rw [none']

/-! ### A table that is held stays held -/

/-- The table is held by the node. -/
def State.holds (s : State) (tid : Nat) : Prop := (s.table? tid).isSome = true

theorem holds_modTable {s : State} {tid i : Nat} (f : Table → Table) (h : s.holds tid) : (s.modTable i f).holds tid := by
  unfold State.holds State.table? at *
  show (kvGet? tid (kvUpd i f s.emb.tables)).isSome = true
  rw [kvGet?_upd]
  split
  next same => rwa [Option.isSome_map, ← same]
  · exact h

theorem holds_of_emb {s t : State} {tid : Nat} (same : t.emb = s.emb) (h : s.holds tid) : t.holds tid := by
  unfold State.holds State.table? at *
  rwa [same]

theorem holds_sendTable {s : State} {tid : Nat} (t : Table) (vc op node : Nat) (args : List Nat) (data : List Byte) (h : s.holds tid) :
    (s.sendTable t vc op node args data).holds tid := by
  refine holds_of_emb ?_ h
  unfold State.sendTable
  exact emb_handPacket _ _

theorem holds_foldl {α : Type} {s : State} {tid : Nat} {f : State → α → State} {l : List α} (h : s.holds tid)
    (step : ∀ u a, u.holds tid → (f u a).holds tid) : (l.foldl f s).holds tid := by
  induction l generalizing s with
  | nil => exact h
  | cons a l ih => exact ih (step s a h)

theorem holds_access {s : State} {tid : Nat} (p a n : Nat) (h : s.holds tid) : (s.access p a n).holds tid :=
  holds_of_emb (Aside.refl s).access.emb h

theorem holds_sendCopy {s : State} {tid : Nat} (i x : Nat) (d : Drift) (h : s.holds tid) : (s.sendCopy i x d).holds tid := by
  unfold State.sendCopy
  split
  · exact h
  · exact holds_sendTable _ _ _ _ _ _ (holds_access _ _ _ (holds_access _ _ _ (holds_modTable _ h)))

theorem holds_applyOne {s : State} {tid : Nat} (i x : Nat) (g : List Nat) (h : s.holds tid) : (s.applyOne i x g).holds tid := by
  unfold State.applyOne
  split
  · exact h
  next t _ =>
    refine holds_foldl (holds_foldl ?_ fun u d h => holds_sendCopy _ _ _ h) fun u d h => holds_sendTable _ _ _ _ _ _ h
    have row : ∀ (u : State) (a b : Nat) (bs : List Byte), u.holds tid → (((u.access t.part a b).writeMem a bs).access t.part a b).holds tid :=
      fun u a b bs h => holds_access _ _ _ (holds_of_emb rfl (holds_access _ _ _ h))
    split
    · exact row _ _ _ _ (row _ _ _ _ (holds_of_emb rfl h))
    · exact row _ _ _ _ (holds_of_emb rfl h)

theorem holds_noteServed {s : State} {tid : Nat} (i n : Nat) (h : s.holds tid) : (s.noteServed i n).holds tid := by
  unfold State.noteServed
  split
  · exact h
  · exact holds_modTable _ h

/-- Closing a step closes it in its table. -/
theorem closeStep_last {s : State} {tid step : Nat} (there : s.holds tid) :
    ∃ x, (s.closeStep tid step).table? tid = some x ∧ x.lastClosed = step := by
  obtain ⟨t, table⟩ := Option.isSome_iff_exists.mp there
  unfold State.closeStep
  rw [table]
  dsimp only
  have held : State.holds ((((((t.steps.find? (fun z => z.step == step)).map (fun z => z.acc)).getD []).foldl
      (fun (s : State) r => s.applyOne tid r.1 r.2) s).bumpTable tid
      cEmbTApplied (((t.steps.find? (fun z => z.step == step)).map (fun z => z.acc)).getD []).length).noteServed tid
      (((t.steps.find? (fun z => z.step == step)).map (fun z => z.acc)).getD []).length) tid :=
    holds_noteServed _ _ (holds_of_emb (Aside.refl _).bumpTable.emb (holds_foldl there fun u r h => holds_applyOne _ _ _ h))
  obtain ⟨x, held⟩ := Option.isSome_iff_exists.mp held
  exact ⟨_, State.table_modTable _ held, rfl⟩

theorem closeUpTo_last {s : State} {tid : Nat} {t : Table} (step : Nat) (there : s.table? tid = some t) :
    ∃ x, (s.closeUpTo tid step).table? tid = some x ∧ x.lastClosed = step := by
  unfold State.closeUpTo
  rw [there]
  dsimp only
  rw [List.foldl_append]
  refine closeStep_last ?_
  generalize (((t.steps.filter (fun z => decide (z.step < step))).foldl (fun (m : KV Unit) z => kvPut z.step () m) []).map (fun z => z.1)) = due
  have start : s.holds tid := by unfold State.holds; rw [there]; rfl
  clear there
  induction due generalizing s with
  | nil => exact start
  | cons n due ih =>
    obtain ⟨x, closed, _⟩ := closeStep_last (step := n) start
    exact ih (by unfold State.holds; rw [closed]; rfl)

/-- The step that may close, with the steps before it where the node is alone. -/
theorem execEmbStepClose_ready {s u : State} {tid step : Nat} {t : Table} {c : TCloser} (settled : u = s.settleTable tid)
    (there : u.table? tid = some t)
    (later : t.lastClosed < step) (mem : c ∈ t.closers) (begun : c.begun = true) (reaches : step ≤ c.step) (ready : u.stepReady t step = true)
    (next : step = t.lastClosed + 1 ∨ u.otherNodes t = []) :
    exec (.embStepClose tid step) s = .next ((((u.closeUpTo tid step).finishCloses tid).endSteps tid).settleTable tid) := by
  have some' : t.closers.any (fun c => c.begun && decide (step ≤ c.step)) = true := List.any_eq_true.mpr ⟨c, mem, by simp [begun, reaches]⟩
  show execEmbStepClose tid step s = _
  unfold execEmbStepClose
  dsimp only
  rw [← settled, there]
  exact if_pos ⟨later, some', ready, next.imp_right fun h => by rw [h]; rfl⟩

theorem execEmbStepTimeout_unclosed {s : State} {tid step : Nat} {t : Table} (there : s.table? tid = some t) (none : ∀ c ∈ t.closers, c.step ≠ step) :
    exec (.embStepTimeout tid step) s = .next s := by
  have none' : t.closers.find? (fun c => c.step == step) = .none := List.find?_eq_none.mpr fun c mem => by simpa using none c mem
  show execEmbStepTimeout tid step s = _
  unfold execEmbStepTimeout
  rw [there]
  dsimp only
  rw [none']

/-- The steps to close, the nodes of which they lack something, and the number of steps that lack anything. -/
def stepsDue (t : Table) (step : Nat) : List Nat := (t.ends.map (fun x => x.1)).filter (fun k => decide (t.lastClosed < k ∧ k ≤ step))
def State.missingOf (s : State) (t : Table) (step : Nat) : List Nat :=
  (s.otherNodes t).filter (fun n => decide (((stepsDue t step).filter (fun k => t.inboundFrom k n)).length < step - t.lastClosed))
def State.unmetOf (s : State) (t : Table) (step : Nat) : Nat :=
  if (s.otherNodes t).isEmpty then (if step ≤ t.ended then 0 else step - t.lastClosed)
  else step - t.lastClosed - ((stepsDue t step).filter (fun k => s.stepReady t k)).length

/-- The closer that ends without what is missing. -/
def TCloser.lapse (step : Nat) (missing : List Nat) (d : TCloser) : TCloser :=
    if d.step ≤ step then { d with late := true, missing := missing } else d

/-- The node that has counted the steps that lapse and marked their closers. -/
def State.lapsed (s : State) (tid : Nat) (t : Table) (step : Nat) : State :=
  (s.bump cEmbStepTimeouts (s.unmetOf t step)).modTable tid
      (fun t' => { t' with closers := t'.closers.map (TCloser.lapse step (s.missingOf t step)) })

theorem execEmbStepTimeout_due {s : State} {tid step : Nat} {t : Table} {c : TCloser} (there : s.table? tid = some t) (closers : t.closers = [c])
    (of : c.step = step)
    (due : c.since + s.fld rEmbCfg fEmbCfg_STEP_TIMEOUT_MS * 1000000 ≤ s.now) (later : t.lastClosed < step) : exec (.embStepTimeout tid step) s =
      .next (if s.unmetOf t step = 0 then s else ((((s.lapsed tid t step).closeUpTo tid step).finishCloses tid).settleTable tid)) := by
  have found : t.closers.find? (fun c => c.step == step) = some c := by simp [closers, of]
  show execEmbStepTimeout tid step s = _
  unfold execEmbStepTimeout
  rw [there]
  dsimp only
  rw [found]
  dsimp only
  rw [if_neg (by omega)]
  exact (apply_ite Host.Outcome.next _ _ _).symm

theorem lapsed_table {s : State} {tid step : Nat} {t : Table} {c : TCloser} (there : s.table? tid = some t) (closers : t.closers = [c])
    (of : c.step = step) :
    ∃ x, (s.lapsed tid t step).table? tid = some x ∧ x.closers = [{ c with late := true, missing := s.missingOf t step }] := by
  have there' : (s.bump cEmbStepTimeouts (s.unmetOf t step)).table? tid = some t := by
    unfold State.table?
    rw [(Aside.refl s).bump.emb]
    exact there
  refine ⟨_, State.table_modTable _ there', ?_⟩
  simp [closers, TCloser.lapse, of]

/-- Settles O33: every arrival takes the packet from the list and changes the table, the lookup or the update that it belongs to; a step that closes, ready or
lapsed, closes every step up to it. -/
theorem tableTraffic : Obligations.TableTraffic := by
  unfold Obligations.TableTraffic
  refine ⟨?_, ?_, ?_, ?_, ?_, ?_, ?_, ?_, ?_, ?_, ?_, ?_⟩
  · intro s k refused
    refine ⟨_, (s.taken k).answerTo k 3 2 opLookup k.dstPart [scRemoteError] [], congrArg Host.Outcome.next
        (serveLookup_refused (s := s.taken k) refused),
      handed_of_handoff rfl rfl, rfl, rfl, rfl, rfl, rfl, emb_handPacket _ _⟩
  · intro s k t accepted there some here
    obtain ⟨u, info, served, run⟩ := serveLookup_here (s := s.taken k) accepted there some here
    exact ⟨_, _, congrArg Host.Outcome.next run, handed_of_handoff served.handoff served.node, rfl, rfl, rfl, rfl, rfl, rfl⟩
  · intro s k o rid l t now out kind of there table plain done
    refine ⟨s.answerTaken rid l t k, l.answered t k, ?_, answerTaken_lookup s rid l t k, rfl, rfl⟩
    rw [execRemoteLookupResponse_known now out kind of there table, if_neg (by rw [done]; simp [plain])]
  · intro s k o rid l t r now out kind of there table refused found host live plain
    rw [execRemoteLookupResponse_known now out kind of there table, if_pos (.inl refused)]
    have failed := complete_completes ((s.taken k).endRequest k.seq) t.part rid r (refuseStatus k) 0 0 0 0 [] found host live (.inl plain)
    rw [finalCount_zero] at failed
    exact ⟨_, rfl, Completes.mono failed (Keeps.refl _).settleTable.sent⟩
  · exact fun s k now none => execRemoteLookupResponse_unknown now none
  · intro s k t accepted there still here later none room
    obtain ⟨sender, run⟩ := takeContrib_first (s := s.taken k) accepted there still here later none room
    obtain ⟨table, served⟩ := firstRow_reads (s := s.taken k) there (k.args.getD 2 0) (k.args.getD 3 0) sender (fp32List t.dim k.data)
    generalize (s.taken k).firstRow (k.args.getD 0 0) t (k.args.getD 2 0) (k.args.getD 3 0) sender (fp32List t.dim k.data) = u at run table served
    have table' : (u.answer (reqOrigin k) 4 1 opContrib t.part k.dstEp [0, u.nodeId] []).table? (k.args.getD 0 0) = some _ :=
      (congrArg (fun e : Emb => kvGet? (k.args.getD 0 0) e.tables)
          (emb_handPacket u (u.answerTo k 4 1 opContrib t.part [0, u.nodeId] []))).trans table
    refine ⟨_, _, u.answerTo k 4 1 opContrib t.part [0, u.nodeId] [], congrArg Host.Outcome.next run, table', rfl,
        handed_of_handoff served.handoff served.node,
      rfl, rfl, rfl, ?_⟩
    show [0, u.nodeId] = _
    rw [served.node]
    rfl
  · intro s k o rid x y now out kind of there plain waits
    obtain ⟨z, noted, gone, ok, refused⟩ := contribNoted_update (x := x) k there
    exact ⟨_, z, execContributionResultArrival_known now out kind of there plain waits, noted, gone, ok, refused⟩
  · intro s k t there later other
    have held : s.table? (k.args.getD 0 0) = some t := (tableOf_some there).1
    refine ⟨_, _, execStepEndArrival_noted there later other, State.table_modTable (s := s.taken k) _ held, ?_, rfl⟩
    simp [kvGetD, kvGet?_put_self]
  · exact fun s k none => execStepEndArrival_unknown none
  · exact fun s u tid step t c settled there later mem begun reaches ready next =>
      ⟨execEmbStepClose_ready settled there later mem begun reaches ready next, closeUpTo_last step there⟩
  · rintro s tid step total unmet t c keys missing there closers of due later rfl rfl rfl rfl
    have run := execEmbStepTimeout_due there closers of due later
    refine ⟨fun unmet => ?_, fun met => by rw [run]; exact congrArg Host.Outcome.next (if_pos met)⟩
    obtain ⟨x, table, late⟩ := lapsed_table there closers of
    exact ⟨_, x, run.trans (congrArg Host.Outcome.next (if_neg unmet)), table, late⟩
  · exact fun s tid step t there none => execEmbStepTimeout_unclosed there none

end Sys2Proof.Machine
end

section
set_option Elab.async false
/-! SUPPORT. Row drift between the nodes of a table (spec/11): load reports, offers, copies, the switch and the recall. -/

namespace Sys2Proof.Machine

/-! ### Packets sent -/

/-- The order that a node sends. -/
def State.orderTo (s : State) (dst op part gen : Nat) (args : List Nat) (len : Nat) : Packet :=
  { vc := 0, ptype := 3, opcode := op, dstNode := dst, srcNode := s.nodeId, srcPart := part, length := len, resetGen := gen, seq := s.fab.orderNo,
    dist := s.distTo dst, args := args }

theorem handed_sendOrder {s u : State} (h : Served s u) (dst op part gen : Nat) (args : List Nat) (len : Nat) :
    Handed s (u.sendOrder dst op part gen args len) (u.orderTo dst op part gen args len) := handed_of_handoff h.handoff h.node

theorem emb_sendOrder (s : State) (dst op part gen : Nat) (args : List Nat) (len : Nat) :
    (s.sendOrder dst op part gen args len).emb = s.emb := emb_handPacket _ _

theorem table_sendOrder (s : State) (dst op part gen : Nat) (args : List Nat) (len i : Nat) :
    (s.sendOrder dst op part gen args len).table? i = s.table? i := congrArg (fun e : Emb => kvGet? i e.tables)
        (emb_sendOrder s dst op part gen args len)

/-- The request that a node sends to another node of a table. -/
def State.tableTo (s : State) (t : Table) (vc op node : Nat) (args : List Nat) (data : List Byte) : Packet :=
  { vc := vc, ptype := 0, opcode := op, dstNode := node, dstPart := (t.entryOf node).part, dstEp := (t.entryOf node).ep, srcNode := s.nodeId, srcPart := t.part,
    stream := (t.entryOf node).stream, length := data.length, resetGen := s.resetGen t.part, seq := s.fab.seqNo, dist := s.distTo node, args :=
        args, data := data }

theorem handed_sendTable {s u : State} (h : Served s u) (t : Table) (vc op node : Nat) (args : List Nat) (data : List Byte) :
    Handed s (u.sendTable t vc op node args data) (u.tableTo t vc op node args data) := handed_of_handoff h.handoff h.node

theorem ctr_sendTable (s : State) (t : Table) (vc op node : Nat) (args : List Nat) (data : List Byte) (o : Nat) :
    (s.sendTable t vc op node args data).ctr o = s.ctr o := by
  unfold State.sendTable State.handPacket
  dsimp only
  split <;> rfl

theorem emb_sendTable (s : State) (t : Table) (vc op node : Nat) (args : List Nat) (data : List Byte) :
    (s.sendTable t vc op node args data).emb = s.emb :=
  emb_handPacket _ _

theorem served_orderTaken (s : State) (src seq : Nat) : Served s (s.orderTaken src seq) := ⟨rfl, rfl⟩

theorem Served.trans {s t u : State} (h : Served s t) (g : Served t u) : Served s u := ⟨g.handoff.trans h.handoff, g.node.trans h.node⟩

theorem Handed.of_aside {s t u : State} {k : Packet} (h : Handed s t k) (g : Aside t u) : Handed s u k := by
  have handoff : u.fab.handoff = t.fab.handoff := g.view fun v => v.fab.handoff
  have arrived : u.fab.arrived = t.fab.arrived := g.view fun v => v.fab.arrived
  unfold Handed at h ⊢
  rwa [handoff, arrived]

/-! ### The directory -/

theorem dirRoom_reads (s : State) : Served s s.dirRoom ∧ s.dirRoom.emb.tables = s.emb.tables ∧ s.dirRoom.ctr cEmbDrifts = s.ctr cEmbDrifts := by
  unfold State.dirRoom
  split
  · exact ⟨⟨rfl, rfl⟩, rfl, rfl⟩
  · split
    next i _ =>
      exact ⟨Served.of_aside (Served.modEmb ⟨rfl, rfl⟩) (Aside.refl _).bump, by rw [(Aside.refl _).bump.emb]; rfl, State.ctr_bump_ne (by decide)
          _ _ (by decide)⟩
    · exact ⟨⟨rfl, rfl⟩, rfl, rfl⟩

theorem dirCan_without {s : State} {d : DirEnt} (plain : d.kind ≠ 0) (can : s.dirCan = true) :
    (s.modEmb (fun e => { e with dir := e.dir.filter (fun x => x != d) })).dirCan = true := by
  unfold State.dirCan at can ⊢
  rw [Bool.or_eq_true, decide_eq_true_iff] at can ⊢
  rcases can with room | free
  · left
    have fewer : (s.emb.dir.filter (fun x => x != d)).length ≤ s.emb.dir.length := List.length_filter_le _ _
    unfold Emb.dirUsed at room ⊢
    exact lt_of_le_of_lt (Nat.add_le_add_right fewer _) room
  · right
    obtain ⟨x, mem, kind⟩ := List.any_eq_true.mp free
    refine List.any_eq_true.mpr ⟨x, List.mem_filter.mpr ⟨mem, ?_⟩, kind⟩
    rw [bne_iff_ne]
    rintro rfl
    exact plain (beq_iff_eq.mp kind)

/-- An entry that has room is in the directory afterwards. -/
theorem dirPut_reads (s : State) (d : DirEnt) : Served s (s.dirPut d) ∧ (s.dirPut d).emb.tables = s.emb.tables ∧
    (s.dirPut d).ctr cEmbDrifts = s.ctr cEmbDrifts := by
  unfold State.dirPut
  dsimp only
  split
  · obtain ⟨served, tables, counters⟩ := dirRoom_reads (s.modEmb (fun e => { e with dir := e.dir.filter (fun x => x != d) }))
    exact ⟨⟨served.handoff, served.node⟩, tables, counters⟩
  · exact ⟨⟨rfl, rfl⟩, rfl, rfl⟩

theorem mem_dirPut {s : State} {d : DirEnt} (plain : d.kind ≠ 0) (can : s.dirCan = true) : d ∈ (s.dirPut d).emb.dir := by
  unfold State.dirPut
  dsimp only
  rw [if_pos (dirCan_without plain can)]
  exact List.mem_append_right _ (List.mem_singleton_self d)

/-! ### Load reports -/

theorem execEmbLoadReport_eq {s : State} {tid : Nat} {t : Table} (there : s.table? tid = some t) : exec (.embLoadReport tid) s =
    .next (((s.otherNodes t).filter s.reachable).foldl (fun (u : State) n => u.sendOrder n 0x34 t.part (u.resetGen t.part)
      [tid, ((recentRows s.now t.served).foldl (fun a x => a + x.2) 0) * 125 / 2] 16)
      (s.modTable tid (fun t => { t with served := recentRows s.now t.served }))) := by
  show execEmbLoadReport tid s = _
  unfold execEmbLoadReport Table.loadAt
  rw [there]
  rfl

/-! ### Offers -/

/-- The slot that an offered row takes. -/
def offeredSlot (s : State) (k : Packet) : DSlot :=
  { row := k.args.getD 1 0, home := k.srcNode, copied := 0, switched := false, replica := k.args.getD 2 0 == 1, since := s.now }

/-- The node that has reserved what an offered row needs. -/
def State.offerTaken (s : State) (k : Packet) (i : Nat) : State :=
  let s := s.orderTaken k.srcNode k.seq
  (if k.args.getD 2 0 == 1 then s else s.dirRoom).modTable (k.args.getD 0 0) (fun t => { t with slots := kvPut i (offeredSlot s k) t.slots })

theorem execDriftOfferArrival_accepted {s : State} {k : Packet} {t : Table} {i : Nat} (fresh : s.orderFresh k.srcNode k.seq = true)
    (there : s.table? (k.args.getD 0 0) = some t) (slot : kvFreeKey t.slots t.driftRows 0 = some i) (shard : t.shard.isSome = true)
        (live : t.dying = none)
    (home : (t.map[(t.place (k.args.getD 1 0)).1]?).map (fun e => e.node) = some k.srcNode) (away : t.slotOf (k.args.getD 1 0) = none)
    (room : k.args.getD 2 0 = 1 ∨ s.dirCan = true) : exec (.driftOfferArrival k) s =
      .next ((s.offerTaken k i).sendOrder k.srcNode 0x31 t.part ((s.offerTaken k i).resetGen t.part) [k.args.getD 0 0, k.args.getD 1 0] 16) := by
  have there' : (s.orderTaken k.srcNode k.seq).table? (k.args.getD 0 0) = some t := there
  refine congrArg Host.Outcome.next ((takeOrder_fresh _ fresh).trans ?_)
  dsimp only
  rw [there']
  dsimp only
  rw [slot]
  dsimp only
  refine if_neg ?_
  rintro (gone | dying | elsewhere | here | ⟨moves, full⟩)
  · rw [Option.isNone_iff_eq_none] at gone
    rw [gone] at shard
    exact absurd shard (by decide)
  · rw [live] at dying
    exact absurd dying (by decide)
  · exact elsewhere home
  · rw [away] at here
    exact absurd here (by decide)
  · rcases room with one | can
    · rw [one] at moves
      exact absurd moves (by decide)
    · exact absurd (full.symm.trans can) (by decide)

theorem offerTaken_reads {s : State} {k : Packet} {t : Table} {i : Nat} (there : s.table? (k.args.getD 0 0) = some t) :
    Served s (s.offerTaken k i) ∧ (s.offerTaken k i).table? (k.args.getD 0 0) = some { t with slots := kvPut i (offeredSlot s k) t.slots } := by
  have base : ∀ u : State, Served s u → u.table? (k.args.getD 0 0) = some t → Served s (u.modTable (k.args.getD 0 0) (fun t => { t with
      slots := kvPut i (offeredSlot s k) t.slots })) ∧ (u.modTable (k.args.getD 0 0) (fun t => { t with
      slots := kvPut i (offeredSlot s k) t.slots })).table? (k.args.getD 0 0) = some { t with slots := kvPut i (offeredSlot s k) t.slots } :=
    fun u served held => ⟨served.modEmb, State.table_modTable _ held⟩
  obtain ⟨served, tables, -⟩ := dirRoom_reads (s.orderTaken k.srcNode k.seq)
  unfold State.offerTaken
  dsimp only
  split
  · exact base _ (served_orderTaken s _ _) there
  · exact base _ ⟨served.handoff, served.node⟩ ((congrArg (kvGet? _) tables).trans there)

theorem execDriftOfferArrival_full {s : State} {k : Packet} {t : Table} (fresh : s.orderFresh k.srcNode k.seq = true)
    (there : s.table? (k.args.getD 0 0) = some t) (full : kvFreeKey t.slots t.driftRows 0 = none) :
    exec (.driftOfferArrival k) s = .next ((s.orderTaken k.srcNode k.seq).bump cEmbDriftRefused 1) := by
  have there' : (s.orderTaken k.srcNode k.seq).table? (k.args.getD 0 0) = some t := there
  refine congrArg Host.Outcome.next ((takeOrder_fresh _ fresh).trans ?_)
  dsimp only
  rw [there']
  dsimp only
  rw [full]

/-! ### Copies -/

theorem sendCopy_reads {s : State} {tid x : Nat} {d : Drift} {t : Table} (there : s.table? tid = some t) : ∃ (u : State) (data : List Byte),
    s.sendCopy tid x d = u.sendTable t 5 opDriftCopy d.node [tid, x, d.copies + 1, d.replica.toNat] data ∧ Served s u ∧ u.now = s.now ∧
      u.table? tid = some { t with drifts := t.drifts.map (fun y => if y.row == x && y.node == d.node then { y with
          copies := y.copies + 1 } else y) } := by
  unfold State.sendCopy
  rw [there]
  dsimp only
  refine ⟨_, _, rfl, ?_, ?_, ?_⟩
  · exact ((Served.modEmb (s := s) ⟨rfl, rfl⟩).of_aside (Aside.refl _).access).of_aside (Aside.refl _).access
  · exact ((Aside.refl _).access.access.view fun v => v.now).trans rfl
  · exact (congrArg (fun e : Emb => kvGet? tid e.tables) (Aside.refl _).access.access.emb).trans (State.table_modTable _ there)

/-- An accepted drift: its copy is sent and its wait begins anew. -/
theorem execDriftAcceptArrival_moves {s : State} {k : Packet} {t : Table} {d : Drift} (fresh : s.orderFresh k.srcNode k.seq = true)
    (there : s.table? (k.args.getD 0 0) = some t) (drifts : t.drifts = [d]) (row : d.row = k.args.getD 1 0) (node : d.node = k.srcNode)
        (first : d.copies = 0)
    (moves : d.replica = false) : exec (.driftAcceptArrival k) s =
      .next (((s.orderTaken k.srcNode k.seq).sendCopy (k.args.getD 0 0) (k.args.getD 1 0) d).modTable (k.args.getD 0 0) (fun t => { t with
        drifts := t.drifts.map (fun y => if y.row == k.args.getD 1 0 && y.node == d.node
          then { y with since := ((s.orderTaken k.srcNode k.seq).sendCopy (k.args.getD 0 0) (k.args.getD 1 0) d).now } else y) })) := by
  have found : ((s.orderTaken k.srcNode k.seq).table? (k.args.getD 0 0)).bind
      (fun t => t.drifts.find? (fun d => d.row == k.args.getD 1 0 && d.node == k.srcNode &&
      d.copies == 0)) = some d := by
    rw [show (s.orderTaken k.srcNode k.seq).table? (k.args.getD 0 0) = some t from there]
    simp [drifts, row, node, first]
  refine congrArg Host.Outcome.next ((takeOrder_fresh _ fresh).trans ?_)
  dsimp only
  rw [found]
  dsimp only
  rw [moves]
  rfl

theorem now_sendTable (s : State) (t : Table) (vc op node : Nat) (args : List Nat) (data : List Byte) :
    (s.sendTable t vc op node args data).now = s.now := by
  unfold State.sendTable State.handPacket
  dsimp only
  split <;> rfl

theorem driftAccepted_reads {s : State} {k : Packet} {t : Table} {d : Drift} (there : s.table? (k.args.getD 0 0) = some t) (drifts : t.drifts = [d])
    (row : d.row = k.args.getD 1 0) (node : d.node = k.srcNode) (first : d.copies = 0) (moves : d.replica = false)
    (fresh : s.orderFresh k.srcNode k.seq = true) : ∃ v u data x, exec (.driftAcceptArrival k) s = .next v ∧ v.table? (k.args.getD 0 0) = some x ∧
      x.drifts = [{ d with copies := 1, since := s.now }] ∧ Handed s v
          (State.tableTo u t 5 opDriftCopy d.node [k.args.getD 0 0, k.args.getD 1 0, 1, 0] data) := by
  obtain ⟨u, data, copy, served, now, table⟩ := sendCopy_reads (x := k.args.getD 1 0) (d := d) (s := s.orderTaken k.srcNode k.seq) there
  have table' := (congrArg (fun e : Emb => kvGet? (k.args.getD 0 0) e.tables) (emb_sendTable u t 5 opDriftCopy d.node
    [k.args.getD 0 0, k.args.getD 1 0, d.copies + 1, d.replica.toNat] data)).trans table
  have run := execDriftAcceptArrival_moves fresh there drifts row node first moves
  rw [copy] at run
  refine ⟨_, u, data, _, run, State.table_modTable _ table', ?_, ?_⟩
  · have now' : u.now = s.now := now
    simp only [drifts, List.map_cons, List.map_nil, row, node, beq_self_eq_true, Bool.and_self, if_true, first, now_sendTable, now']
  · have sent := handed_sendTable ((served_orderTaken s k.srcNode k.seq).trans served) t 5 opDriftCopy d.node
      [k.args.getD 0 0, k.args.getD 1 0, d.copies + 1, d.replica.toNat] data
    rw [first, moves] at sent ⊢
    exact sent

/-- The row that a copy brings. -/
def State.copyTaken (s : State) (k : Packet) (t : Table) (i : Nat) (z : DSlot) : State :=
  let a := (t.rowPlace t.addr (k.args.getD 1 0)).1
  (((s.taken k).access t.part a t.stride).writeMem a (k.data.take t.stride)).modTable (k.args.getD 0 0)
    (fun t => { t with slots := kvPut i { z with copied := k.args.getD 2 0 } t.slots })

theorem rowPlace_of_slot {t : Table} {x i : Nat} {z : DSlot} (slot : t.slotOf x = some (i, z)) (plain : t.opt ≠ 2) (base : Nat) :
    (t.rowPlace base x).2 = none := by
  unfold Table.rowPlace
  rw [slot]
  exact if_neg plain

theorem execDriftCopyArrival_newer {s : State} {k : Packet} {t : Table} {i : Nat} {z : DSlot} (there : s.table? (k.args.getD 0 0) = some t)
    (slot : t.slotOf (k.args.getD 1 0) = some (i, z)) (waits : z.switched = false) (newer : z.copied < k.args.getD 2 0) (home : z.home = k.srcNode)
    (plain : t.opt ≠ 2) : exec (.driftCopyArrival k) s = .next ((s.copyTaken k t i z).settleHeld (k.args.getD 0 0)) := by
  have there' : (s.taken k).table? (k.args.getD 0 0) = some t := there
  show execDriftCopyArrival k s = _
  unfold execDriftCopyArrival
  dsimp only
  rw [there']
  dsimp only
  rw [slot]
  dsimp only
  rw [if_neg (by rintro (sw | old | away); exacts [absurd (waits.symm.trans sw) (by decide), absurd newer (Nat.not_lt.mpr old), away home]),
    rowPlace_of_slot slot plain]
  rfl

/-- Bytes written where an access was metered are the bytes written. -/
theorem read_access_writeMem (s : State) (p a n b : Nat) (bs : List Byte) (x : Nat) :
    ((s.access p b n).writeMem a bs).mem.read x = (s.writeMem a bs).mem.read x := by
  rw [read_writeMem, read_writeMem, (Aside.refl s).access.read]

theorem table_access_writeMem (s : State) (p a n b i : Nat) (bs : List Byte) : ((s.access p b n).writeMem a bs).table? i = s.table? i :=
  congrArg (fun e : Emb => kvGet? i e.tables) (Aside.refl s).access.emb

/-! ### The switch -/

/-- The node whose entry forwards the row that it gives away. -/
def State.forwards (s : State) (tid row : Nat) (d : Drift) : State :=
  (s.dirPut { row := row, table := tid, kind := 1, node := d.node, rep := false }).modTable tid (fun t => { t with
    drifts := t.drifts.filter (fun y => y.row != row), steps := t.steps.map (fun z => { z with acc := kvDel row z.acc }) })

theorem execDriftSwitch_eq {s : State} {tid row : Nat} {t : Table} {d : Drift} (there : s.table? tid = some t) (drifts : t.drifts = [d])
    (of : d.row = row)
    (moves : d.replica = false) (copied : 0 < d.copies) (can : s.dirCan = true) : ∃ args data, exec (.driftSwitch tid row) s =
      .next (((s.forwards tid row d).sendTable t 4 opDriftSwitch d.node args data).bump cEmbDrifts 1) := by
  have found : t.drifts.find? (fun d => d.row == row && !d.replica && decide (0 < d.copies)) = some d := by simp [drifts, of, moves, copied]
  refine ⟨[tid, row, d.copies] ++ (t.steps.filterMap (fun z => (kvGet? row z.acc).map (fun g => (z.step, g)))).map (fun x => x.1),
    (t.steps.filterMap (fun z => (kvGet? row z.acc).map (fun g => (z.step, g)))).flatMap (fun x => fp32Bytes x.2), ?_⟩
  show execDriftSwitch tid row s = _
  unfold execDriftSwitch
  rw [there]
  dsimp only
  rw [found]
  dsimp only
  exact if_neg (by rw [can]; decide)

theorem forwards_reads {s : State} {tid : Nat} {t : Table} (row : Nat) (d : Drift) (there : s.table? tid = some t) : Served s (s.forwards tid row d) ∧
    (s.forwards tid row d).table? tid = some { t with drifts := t.drifts.filter (fun y => y.row != row), steps := t.steps.map (fun z => { z with
      acc := kvDel row z.acc }) } ∧ (s.forwards tid row d).ctr cEmbDrifts = s.ctr cEmbDrifts := by
  obtain ⟨served, tables, counters⟩ := dirPut_reads s { row := row, table := tid, kind := 1, node := d.node, rep := false }
  exact ⟨⟨served.handoff, served.node⟩, State.table_modTable _ ((congrArg (kvGet? tid) tables).trans there), counters⟩

/-! ### Packets held for rows on their way -/

/-- A switch that is held for a copy, and its copy is there. -/
def Table.switchReady (t : Table) (k : Packet) : Bool :=
  k.opcode == opDriftSwitch && (match t.slotOf (k.args.getD 1 0) with
    | some (_, z) => !z.replica && !z.switched && decide (k.args.getD 2 0 ≤ z.copied)
    | none => true)

/-- A request that is held for rows, none of which is on its way. -/
def Table.requestReady (t : Table) (k : Packet) : Bool :=
  k.opcode != opDriftSwitch && !((if k.opcode = opContrib then [k.args.getD 3 0] else k.args.drop 3).any t.drifting)

/-- The requests held that have their rows are served. -/
def State.settleRequests (s : State) (tid : Nat) : State :=
  match s.table? tid with
  | none => s
  | some t => (t.held.filter t.requestReady).foldl (fun (s : State) k => if k.opcode = opContrib then s.takeContrib k else s.serveLookup k)
      (s.modTable tid (fun t' => { t' with held := t'.held.filter (fun k => !t.requestReady k) }))

/-- A slot, after the switch of a row. -/
def DSlot.switch (x : Nat) (z : DSlot) : DSlot := if z.row = x then { z with switched := true } else z

/-- A row that is owned here from now on. -/
def State.takeSwitch (s : State) (tid : Nat) (k : Packet) : State :=
  let s := s.modTable tid (fun t => { t with slots := kvMapVals (fun _ => DSlot.switch (k.args.getD 1 0)) t.slots })
  let s := s.modEmb (fun e => { e with dir := e.dir ++ [({ row := k.args.getD 1 0, table := tid, kind := 2, node := s.nodeId, rep := false } : DirEnt)] })
  s.addCarried tid (k.args.getD 1 0) (k.args.drop 3) k.data

theorem settleHeld_eq {s : State} {tid : Nat} {t : Table} (there : s.table? tid = some t) : s.settleHeld tid =
    ((t.held.filter t.switchReady).foldl (fun (s : State) k => if (t.slotOf (k.args.getD 1 0)).isNone then s else s.takeSwitch tid k)
      (s.modTable tid (fun t' => { t' with held := t'.held.filter (fun k => !t.switchReady k) }))).settleRequests tid := by
  unfold State.settleHeld
  rw [there]
  rfl

/-- Where no request held has its rows, all stay held. -/
theorem settleRequests_waits {s : State} {tid : Nat} {t : Table} (there : s.table? tid = some t) (waits : ∀ k ∈ t.held, t.requestReady k = false) :
    s.settleRequests tid = s.modTable tid (fun t' => { t' with held := t'.held.filter (fun k => !t.requestReady k) }) ∧
      (s.settleRequests tid).table? tid = some t := by
  have stay : t.held.filter (fun k => !t.requestReady k) = t.held := List.filter_eq_self.mpr fun k mem => by rw [waits k mem]; rfl
  have same : s.settleRequests tid = s.modTable tid (fun t' => { t' with held := t'.held.filter (fun k => !t.requestReady k) }) := by
    unfold State.settleRequests
    rw [there]
    dsimp only
    rw [List.filter_eq_nil_iff.mpr fun k mem => by rw [waits k mem]; decide]
    rfl
  refine ⟨same, ?_⟩
  rw [same, State.table_modTable _ there, stay]

/-- Where nothing held may go on, the table stays as it is. -/
theorem settleHeld_waits {s : State} {tid : Nat} {t : Table} (there : s.table? tid = some t)
    (waits : ∀ k ∈ t.held, t.switchReady k = false ∧ t.requestReady k = false) : Served s (s.settleHeld tid) ∧
        (s.settleHeld tid).table? tid = some t := by
  have stay : t.held.filter (fun k => !t.switchReady k) = t.held := List.filter_eq_self.mpr fun k mem => by rw [(waits k mem).1]; rfl
  have first : (s.modTable tid (fun t' => { t' with held := t'.held.filter (fun k => !t.switchReady k) })).table? tid = some t := by
    rw [State.table_modTable _ there, stay]
  obtain ⟨same, table⟩ := settleRequests_waits first fun k mem => (waits k mem).2
  rw [settleHeld_eq there, List.filter_eq_nil_iff.mpr fun k mem => by rw [(waits k mem).1]; decide]
  refine ⟨?_, table⟩
  rw [List.foldl_nil, same]
  exact ⟨rfl, rfl⟩

/-- The switch of a row whose copy is there, alone among what is held. -/
theorem settleHeld_switches {s : State} {tid i : Nat} {t : Table} {z : DSlot} {k : Packet} (there : s.table? tid = some t) (held : t.held = [k])
    (switch : k.opcode = opDriftSwitch) (slots : t.slots = [(i, z)]) (row : z.row = k.args.getD 1 0) (moves : z.replica = false)
        (waits : z.switched = false)
    (copied : k.args.getD 2 0 ≤ z.copied) (none : k.args.drop 3 = []) :
    (s.settleHeld tid).table? tid = some { t with held := [], slots := [(i, { z with switched := true })] } ∧
      (s.settleHeld tid).emb.dir = s.emb.dir ++ [{ row := k.args.getD 1 0, table := tid, kind := 2, node := s.nodeId, rep := false }] := by
  have slot : t.slotOf (k.args.getD 1 0) = some (i, z) := by simp [Table.slotOf, slots, row]
  have ready : t.switchReady k = true := by
    unfold Table.switchReady
    rw [slot]
    simp only [switch, moves, waits, copied, beq_self_eq_true, Bool.not_false, decide_true, Bool.and_self]
  have all : t.held.filter t.switchReady = [k] := by rw [held, List.filter_cons_of_pos ready, List.filter_nil]
  have table : ((s.modTable tid (fun t' => { t' with held := t'.held.filter (fun k => !t.switchReady k) })).takeSwitch tid k).table? tid =
      some { t with held := [], slots := [(i, { z with switched := true })] } := by
    unfold State.takeSwitch
    rw [none]
    refine (State.table_modTable (fun t' => { t' with slots := kvMapVals (fun _ => DSlot.switch (k.args.getD 1 0)) t'.slots })
      (State.table_modTable _ there)).trans ?_
    simp [held, ready, slots, kvMapVals, row, DSlot.switch]
  rw [settleHeld_eq there, all, List.foldl_cons, List.foldl_nil, if_neg (by rw [slot]; exact Bool.false_ne_true)]
  obtain ⟨same, stays⟩ := settleRequests_waits table fun k mem => absurd mem (List.not_mem_nil)
  refine ⟨stays, ?_⟩
  rw [same]
  unfold State.takeSwitch
  rw [none]
  rfl

/-- The switch of a row on its way is held first. -/
def State.switchHeld (s : State) (k : Packet) : State :=
  (s.taken k).modTable (k.args.getD 0 0) (fun t => if t.drifting (k.args.getD 1 0)
      then { t with held := t.held ++ [{ k with opcode := opDriftSwitch }] } else t)

theorem execDriftSwitchArrival_eq (s : State) (k : Packet) :
    exec (.driftSwitchArrival k) s = .next ((s.switchHeld k).settleHeld (k.args.getD 0 0)) := rfl

theorem switchHeld_table {s : State} {k : Packet} {t : Table} {i : Nat} {z : DSlot} (there : s.table? (k.args.getD 0 0) = some t)
    (slots : t.slots = [(i, z)])
    (row : z.row = k.args.getD 1 0) (moves : z.replica = false) (waits : z.switched = false) (empty : t.held = []) :
    (s.switchHeld k).table? (k.args.getD 0 0) = some { t with held := [{ k with opcode := opDriftSwitch }] } := by
  have drifting : t.drifting (k.args.getD 1 0) = true := by simp [Table.drifting, Table.slotOf, slots, row, moves, waits]
  refine (State.table_modTable (s := s.taken k) _ there).trans ?_
  rw [if_pos drifting, empty]
  rfl

/-! ### The recall -/

/-- A table without the slot and the sums of a recalled row. -/
def Table.dropRow (x : Nat) (t : Table) : Table :=
  { t with
    slots := t.slots.filter (fun z => z.2.row != x)
    steps := if (t.slotOf x).isSome then t.steps.map (fun z => { z with acc := kvDel x z.acc }) else t.steps }

/-- The node that has dropped a recalled row. -/
def State.rowDropped (s : State) (k : Packet) : State :=
  ((s.orderTaken k.srcNode k.seq).modTable (k.args.getD 0 0) (Table.dropRow (k.args.getD 1 0))).dirDel
    (fun d => d.kind == 2 && d.table == k.args.getD 0 0 && d.row == k.args.getD 1 0)

theorem rowDropped_table {s : State} {k : Packet} {t : Table} (there : s.table? (k.args.getD 0 0) = some t) : ∃ x,
    (s.rowDropped k).table? (k.args.getD 0 0) = some x ∧ x.held = t.held ∧ x.slots = t.slots.filter (fun z => z.2.row != k.args.getD 1 0) :=
  ⟨_, State.table_modTable (s := s.orderTaken k.srcNode k.seq) _ there, rfl, rfl⟩

theorem served_rowDropped (s : State) (k : Packet) : Served s (s.rowDropped k) := by
  unfold State.rowDropped State.dirDel State.modTable
  exact (served_orderTaken s k.srcNode k.seq).modEmb.modEmb

theorem execRecallArrival_eq {s : State} {k : Packet} (fresh : s.orderFresh k.srcNode k.seq = true) : ∃ p, exec (.recallArrival k) s =
    .next (((s.rowDropped k).settleHeld (k.args.getD 0 0)).sendOrder k.srcNode 0x33 p (((s.rowDropped k).settleHeld (k.args.getD 0 0)).resetGen p)
      [k.args.getD 0 0, k.args.getD 1 0] 16) :=
  ⟨_, congrArg Host.Outcome.next (takeOrder_fresh _ fresh)⟩

/-! ### Replicas -/

/-- The replica that has taken the new value of its row. -/
def State.replicaTaken (s : State) (k : Packet) (t : Table) (i : Nat) (z : DSlot) : State :=
  let a := (t.rowPlace t.addr z.row).1
  (((s.taken k).access t.part a t.stride).writeMem a (k.data.take t.stride)).modTable (k.args.getD 0 0)
    (fun t => { t with slots := kvPut i { z with copied := max 1 z.copied } t.slots })

theorem execReplicaUpdateArrival_eq {s : State} {k : Packet} {t : Table} {i : Nat} {z : DSlot} (there : s.table? (k.args.getD 0 0) = some t)
    (slot : t.slotOf (k.args.getD 1 0) = some (i, z)) (replica : z.replica = true) (home : z.home = k.srcNode) :
    exec (.replicaUpdateArrival k) s = .next (s.replicaTaken k t i z) := by
  have there' : (s.taken k).table? (k.args.getD 0 0) = some t := there
  show execReplicaUpdateArrival k s = _
  unfold execReplicaUpdateArrival
  dsimp only
  rw [there']
  dsimp only
  rw [slot]
  dsimp only
  rw [if_neg (by rintro (moves | away); exacts [absurd (replica.symm.trans moves) (by decide), away home])]
  rfl

/-- Settles O34: every event of a drift changes the entry, the slot or the directory that it names, and sends the packet that its other side waits for. -/
theorem rowDrift : Obligations.RowDrift := by
  unfold Obligations.RowDrift
  refine ⟨?_, ?_, ?_, ?_, ?_, ?_, ?_, ?_, ?_, ?_, ?_, ?_, ?_, ?_, ?_⟩
  · intro s tid t there alone
    have run := execEmbLoadReport_eq there
    rw [alone] at run
    exact ⟨_, _, run, State.table_modTable _ there, rfl, rfl⟩
  · intro s tid n t there alone reachable
    have run := execEmbLoadReport_eq there
    rw [alone, List.filter_cons_of_pos reachable] at run
    exact ⟨_, _, run, handed_sendOrder (Served.modEmb ⟨rfl, rfl⟩) n 0x34 t.part _ _ 16, rfl, rfl, rfl, rfl⟩
  · rintro s c k (rfl | rfl | rfl | rfl | rfl) stale <;> exact congrArg Host.Outcome.next (takeOrder_stale _ stale)
  · intro s k t fresh there
    exact ⟨_, _, congrArg Host.Outcome.next (takeOrder_fresh _ fresh), State.table_modTable (s := s.orderTaken k.srcNode k.seq) _ there, rfl,
      kvGet?_put_self _ _ _, rfl, rfl⟩
  · intro s k t i fresh there slot shard live home away room
    obtain ⟨served, table⟩ := offerTaken_reads (i := i) there
    exact ⟨_, _, _, execDriftOfferArrival_accepted fresh there slot shard live home away room, (table_sendOrder _ _ _ _ _ _ _ _).trans table,
        kvGet?_put_self _ _ _,
      handed_sendOrder served _ _ _ _ _ _, rfl, rfl, rfl⟩
  · intro s k t fresh there full below
    refine ⟨_, execDriftOfferArrival_full fresh there full, State.ctr_bump_self _ _ _ below, (Aside.refl _).bump.emb, ?_⟩
    exact (Aside.refl (s.orderTaken k.srcNode k.seq)).bump.view fun v => v.fab.handoff
  · intro s k t d fresh there drifts row node first moves
    obtain ⟨v, u, data, x, run, table, sent, copy⟩ := driftAccepted_reads there drifts row node first moves fresh
    exact ⟨v, x, _, run, table, sent, copy, rfl, rfl, node, rfl⟩
  · intro s k t i z there slot waits newer home plain
    refine ⟨_, _, execDriftCopyArrival_newer there slot waits newer home plain, State.table_modTable _
        ((table_access_writeMem _ _ _ _ _ _ _).trans there),
      kvGet?_put_self _ _ _, fun a => read_access_writeMem _ _ _ _ _ _ _⟩
  · intro s tid row t d there drifts of moves copied can below
    obtain ⟨args, data, run⟩ := execDriftSwitch_eq there drifts of moves copied can
    obtain ⟨served, table, counters⟩ := forwards_reads row d there
    have emb := ((Aside.refl ((s.forwards tid row d).sendTable t 4 opDriftSwitch d.node args data)).bump (o := cEmbDrifts) (n := 1)).emb.trans
      (emb_sendTable (s.forwards tid row d) t 4 opDriftSwitch d.node args data)
    refine ⟨_, _, _, run, (congrArg (fun e : Emb => kvGet? tid e.tables) emb).trans table, ?_, ?_,
      (handed_sendTable served t 4 opDriftSwitch d.node args data).of_aside (Aside.refl _).bump, rfl, rfl, rfl, ?_⟩
    · simp [drifts, of]
    · rw [emb]
      exact mem_dirPut Nat.one_ne_zero can
    · have same := (ctr_sendTable (s.forwards tid row d) t 4 opDriftSwitch d.node args data cEmbDrifts).trans counters
      rw [State.ctr_bump_self _ _ _ (by rw [same]; exact below), same]
  · intro s k t i z there slots row moves waits empty early
    have held := switchHeld_table there slots row moves waits empty
    have slot : t.slotOf (k.args.getD 1 0) = some (i, z) := by simp [Table.slotOf, slots, row]
    obtain ⟨-, table⟩ := settleHeld_waits held (by
      rintro k' mem
      obtain rfl := List.mem_singleton.mp mem
      refine ⟨?_, rfl⟩
      unfold Table.switchReady
      dsimp only
      rw [show Table.slotOf { t with held := [{ k with opcode := opDriftSwitch }] } (k.args.getD 1 0) = some (i, z) from slot]
      simp only [beq_self_eq_true, decide_eq_false (Nat.not_le.mpr early), Bool.and_false])
    exact ⟨_, _, execDriftSwitchArrival_eq s k, table, rfl, rfl⟩
  · intro s k t i z there slots row moves waits empty copied none
    obtain ⟨table, dir⟩ := settleHeld_switches (switchHeld_table there slots row moves waits empty) rfl rfl slots row moves waits copied none
    exact ⟨_, _, execDriftSwitchArrival_eq s k, table, rfl, rfl, dir⟩
  · intro s tid row t there
    exact ⟨_, _, rfl, State.table_modTable _ there, rfl, rfl, rfl, rfl⟩
  · intro s k t fresh there empty
    obtain ⟨p, run⟩ := execRecallArrival_eq (k := k) fresh
    obtain ⟨x, dropped, held, slots⟩ := rowDropped_table there
    obtain ⟨served, table⟩ := settleHeld_waits dropped (by
      rw [held, empty]
      exact fun _ mem => absurd mem List.not_mem_nil)
    exact ⟨_, x, _, run, (table_sendOrder _ _ _ _ _ _ _ _).trans table, slots, handed_sendOrder ((served_rowDropped s k).trans served)
        _ _ _ _ _ _, rfl, rfl, rfl⟩
  · intro s k t fresh there
    exact ⟨_, _, congrArg Host.Outcome.next (takeOrder_fresh _ fresh), State.table_modTable (s := s.orderTaken k.srcNode k.seq) _ there, rfl, rfl,
        rfl⟩
  · intro s k t i z there slot replica home
    exact ⟨_, _, execReplicaUpdateArrival_eq there slot replica home, State.table_modTable _ ((table_access_writeMem _ _ _ _ _ _ _).trans there),
      kvGet?_put_self _ _ _, fun a => read_access_writeMem _ _ _ _ _ _ _⟩

end Sys2Proof.Machine
end

section
set_option Elab.async false
/-! SUPPORT. The migration of a tensor that has been freed since its command took its claim (spec/12). -/

namespace Sys2Proof.Machine

/-- A migration that its partition asked for before it freed the tensor. -/
def moverRec : Rec := { Tests.rec0 0x44 Tests.migratePs with claims := [{ tensor := 1, write := true, seq := 0 }] }

/-- The tensor, freed, which the claim still keeps. -/
def freedTensor : Tensor := { Tests.modelTensor 65536 with bytes := 64, dying := true }

/-- A node with that command and that tensor. -/
def mover : State :=
  { Tests.memory moverRec 65536 with
    mem := { tensors := [(1, freedTensor)], allocs := [(65536, { len := 65536, part := some 0, kind := .tensor })] } }

/-- The node as that command sees it. -/
def moverSees : State :=
  { Tests.memory moverRec 65536 with
    mem := { tensors := [(1, { freedTensor with dying := false })], allocs := [(65536, { len := 65536, part := some 0, kind := .tensor })] } }

theorem mover_named : mover.named moverRec = moverSees := by
  unfold State.named
  exact if_pos (by decide +kernel)

/-- The tensor as the command that claims it sees it. -/
theorem mover_claimed : mover.claimedTensor moverRec 1 = some (1, { freedTensor with dying := false }) := by decide +kernel

/-- A place for the copy. -/
theorem mover_alloc : ∃ b, mover.allocNear 0 1 64 .migration none = some (b, mover.modMem (fun m => { m with
      allocs := kvPut b { len := roundUp 64 (allocUnit 1), part := some 0, kind := .migration } m.allocs })) ∧
    (moverSees.allocNear 0 1 64 .migration none).isSome = true := by
  obtain ⟨b, -, place⟩ := State.alloc_some mover 0 1 64 0x10000000000 .migration (by decide +kernel) (fun h => absurd h (by decide))
      (by decide +kernel) (.inl rfl)
  obtain ⟨c, -, place'⟩ := State.alloc_some moverSees 0 1 64 0x10000000000 .migration (by decide +kernel) (fun h => absurd h (by decide))
      (by decide +kernel) (.inl rfl)
  exact ⟨b, place, Option.isSome_iff_exists.mpr ⟨_, place'⟩⟩

/-- The fields of the command. -/
theorem mover_fields :
    moverRec.cmd.param 8 1 = 1 ∧ placeOf (moverRec.cmd.param 9 1) (moverRec.cmd.param 10 2) = none ∧ moverRec.cmd.param 0 8 = 1 := by decide +kernel

/-- The command passes its checks. -/
theorem mover_passes : (mover.named moverRec).tensorMigrateCheck 0 moverRec.cmd = none := by
  obtain ⟨b, -, named⟩ := mover_alloc
  obtain ⟨tier, near, handle⟩ := mover_fields
  have tensor : moverSees.tensorOf 0 1 = some (1, { freedTensor with dying := false }) := by decide +kernel
  rw [mover_named]
  unfold State.tensorMigrateCheck
  rw [tier, near, handle, tensor]
  dsimp only
  rw [if_neg (by decide), if_neg (by decide),
    if_neg (by rw [Option.isNone_iff_eq_none, ← Option.not_isSome_iff_eq_none]; exact not_not.mpr named)]

/-- A migration that passes its checks and finds its place begins. -/
theorem execTensorMigrate_begins {s t : State} {p q cid rid i a : Nat} {r : Rec} {x : Tensor} (ready : s.readyRec p q cid 0x44 = some (rid, r))
    (free : s.allocHeld = false) (passes : (s.named r).tensorMigrateCheck p r.cmd = none) (there : s.claimedTensor r (r.cmd.param 0 8) = some (i, x))
    (place : s.allocNear p (r.cmd.param 8 1) x.bytes .migration (placeOf (r.cmd.param 9 1) (r.cmd.param 10 2)) = some (a, t)) :
    ∃ u, exec (.tensorMigrate p q cid) s = .next u ∧ u.mem.tensors = kvUpd i (fun y => { y with migrating := true }) t.mem.tensors := by
  change ∃ u, execTensorMigrate p q cid s = .next u ∧ _
  unfold execTensorMigrate
  rw [ready]
  dsimp only
  rw [if_neg (by rw [free]; decide), passes, there]
  dsimp only
  rw [place]
  exact ⟨_, rfl, rfl⟩

/-- The migration begins, and the tensor stays freed. -/
theorem mover_runs : ∃ t, exec (.tensorMigrate 0 0 5) mover = .next t ∧ kvGet? 1 t.mem.tensors = some { freedTensor with migrating := true } := by
  obtain ⟨b, place, named⟩ := mover_alloc
  obtain ⟨tier, near, handle⟩ := mover_fields
  obtain ⟨u, run, tensors⟩ := execTensorMigrate_begins (x := { freedTensor with dying := false }) (s := mover) (q := 0) (cid := 5) (rid := 0)
      (by decide +kernel) rfl mover_passes
    (by rw [handle]; exact mover_claimed) (by rw [tier, near]; exact place)
  exact ⟨u, run, by rw [tensors]; exact kvGet?_upd 1 1 (fun y : Tensor => { y with migrating := true }) [(1, freedTensor)]⟩

/-- Refutes O35: a freed tensor that a migration claims stays freed when the migration begins; the statement has it as the command sees it, not freed. -/
theorem not_tensors : ¬ Obligations.Tensors := by
  unfold Obligations.Tensors
  rintro ⟨-, -, -, -, -, -, -, -, -, -, -, -, migrate, -⟩
  obtain ⟨b, place, -⟩ := mover_alloc
  obtain ⟨t, run, tensor⟩ := mover_runs
  obtain ⟨u, run', -, -, tensor', -⟩ := migrate mover 0 0 5 0 1 b 1 moverRec { freedTensor with dying := false } _
    (Tests.may_of_canRun mover 0x44 moverRec (by decide +kernel)) (by decide) (by decide +kernel) (by decide) (by decide +kernel)
        mover_claimed rfl (by decide +kernel)
    (by decide +kernel) place
  rw [run] at run'
  cases run'
  rw [tensor] at tensor'
  exact absurd tensor' (by decide)

end Sys2Proof.Machine
end

section
set_option Elab.async false
/-! SUPPORT. An answer of pooled memory that brings a migration its bytes, where these overwrite a chunk copied before (spec/12). -/

namespace Sys2Proof.Machine

/-- The migration of tensor 1, out of a borrow window, whose first chunks have been copied. -/
def farMigration : Migration := { tensor := 1, dest := 65536, copied := 2097152, dirty := [], passes := 0, asked := true, tierP := 1 }

/-- The access that reads the tensor for it. -/
def farCopy : PAccess := { rid := some 0, node := 7, wid := 3, off := 0, len := 64, write := false, data := [], use := .copy }

/-- The memory of its node. -/
def farMem : MemSys :=
  { comps := [(2, Tests.comp0 [Tests.window0 false (2 ^ 48) 2])], tensors := [(1, { Tests.modelTensor (2 ^ 48) with
      bytes := 64 })], migs := [(0, farMigration)],
    pacc := [(5, farCopy)] }

/-- The record of the migration. -/
def farMover : Rec := { Tests.rec0 0x44 Tests.migratePs with phase := .running }

/-- A node with that migration and that access under way. -/
def farNode : State := { Tests.node farMover with mem := farMem }

/-- The answer marks the chunk that it brings as written since it was copied. -/
theorem farNode_dirty : kvGet? 0 (Tests.after (.tierPResponseArrival 7 5 scDone [1]) farNode).mem.migs =
    some { farMigration with tierP := 2, dirty := [0] } := by decide +kernel

/-- Refutes O36: the bytes that an answer brings to a migration are written at the window's addresses, which marks the chunks copied before as written since;
the statement has nothing of the migration change but the count of its steps through Tier P. -/
theorem not_tierP : ¬ Obligations.TierP := by
  unfold Obligations.TierP
  rintro ⟨-, -, answers, -⟩
  obtain ⟨-, -, -, -, copies, -⟩ := answers farNode 7 5 0 [1] farCopy farMover (by decide) rfl rfl (by decide) rfl (by decide +kernel)
  obtain ⟨t, run, migs, -⟩ := copies farMigration rfl (by decide)
  rw [← after_of_next run, farNode_dirty] at migs
  exact absurd migs (by decide)

end Sys2Proof.Machine
end

section
set_option Elab.async false
/-! SUPPORT. A write that finds the media exhausted (spec/13), of a namespace whose deletion the same command number began. -/

namespace Sys2Proof.Machine

/-- The end of a write that finds the media exhausted after k bytes. -/
def State.writeStopped (w : State) (p rid id first k : Nat) : State :=
  ((w.modFlash (fun f => { f with ns := kvUpd (nsKey p id) (fun y => { y with ro := true }) f.ns })).mediaFull p id id).complete p rid scMediaFull 0 0
    (first + k / 16384) 0 []

/-- A write that the media takes only in part. -/
theorem execNsWrite_full {s v w : State} {p q cid rid k : Nat} {data bs : List Byte} {r : Rec} {x : NSpace}
    (ready : s.readyRec p q cid 0x61 = some (rid, r))
    (free : s.nsWaits rid p (r.cmd.param 0 2) (r.cmd.param 8 8) (r.cmd.param 4 4) true = false) (passes : (s.named r).nsWriteCheck p rid r.cmd = none)
    (there : s.nsOf p (r.cmd.param 0 2) rid = some x) (input : s.readInput p r.flow (r.cmd.param 16 8) (r.cmd.param 4 4 * 16384) data = (bs, v))
    (fits : v.flashFits (nsBase (nsKey p (r.cmd.param 0 2))) x.size (nsBase (nsKey p (r.cmd.param 0 2)) + r.cmd.param 8 8 * 16384)
        (r.cmd.param 4 4 * 16384) = true)
    (stores : v.flashStore p (nsBase (nsKey p (r.cmd.param 0 2))) x.size (nsBase (nsKey p (r.cmd.param 0 2)) + r.cmd.param 8 8 * 16384) bs =
        (w, some k)) :
    exec (.nsWrite p q cid data) s = .next (w.writeStopped p rid (r.cmd.param 0 2) (r.cmd.param 8 8) k) := by
  show execNsWrite p q cid data s = _
  unfold execNsWrite
  rw [ready]
  refine (if_neg (by rw [free]; decide)).trans ?_
  rw [passes, there, input]
  refine (if_neg (by rw [fits]; decide)).trans ?_
  rw [stores]
  rfl

/-! ### The end of a request that began the deletion of a namespace -/

/-- A node that does nothing for a request but the deletion of a namespace. -/
structure OnlyDeletes (s : State) (rid : Nat) : Prop where
  sels : s.sels = []
  load : s.load = none
  builds : s.builds = []
  migs : s.mem.migs = []
  old : s.mem.old = []
  lookups : s.emb.lookups = []
  updates : s.emb.updates = []
  corpora : s.corpora = []
  arrays : s.arrays = []
  ending : s.flash.ns.any (fun n => n.2.ending == some rid) = true

/-- A namespace whose deletion is given up. -/
def NSpace.kept (rid : Nat) (n : NSpace) : NSpace := if n.ending = some rid then { n with ending := none, cleared := 0 } else n

theorem endWork_namespaces {s : State} {rid : Nat} (only : OnlyDeletes s rid) :
    (s.endWork rid).flash.ns = kvMapVals (fun _ => NSpace.kept rid) s.flash.ns ∧ (s.endWork rid).mem.old = [] := by
  obtain ⟨sels, load, builds, migs, old, lookups, updates, corpora, arrays, ending⟩ := only
  have forget : s.selForget rid = s := by
    unfold State.selForget State.selUnask
    simp only [sels, List.foldl_nil, List.flatMap_nil]
  have lose : s.loseLoad rid = s := by
    unfold State.loseLoad
    rw [load]
  have build : s.endBuild rid = s := by
    unfold State.endBuild
    rw [builds]
    rfl
  have migration : s.endMigration rid = s := by
    unfold State.endMigration
    rw [migs]
    rfl
  have table : s.endTable rid = s := by
    unfold State.endTable
    have none : ¬(kvGet? rid s.emb.lookups).isSome = true := by rw [lookups]; exact Bool.false_ne_true
    have none' : ¬(kvGet? rid s.emb.updates).isSome = true := by rw [updates]; exact Bool.false_ne_true
    rw [if_neg none, if_neg none']
  have space : s.endNamespace rid = s.modFlash (fun f => { f with ns := kvMapVals (fun _ => NSpace.kept rid) f.ns }) := if_pos ending
  have update : (s.modFlash (fun f => { f with ns := kvMapVals (fun _ => NSpace.kept rid) f.ns })).endUpdate rid =
      s.modFlash (fun f => { f with ns := kvMapVals (fun _ => NSpace.kept rid) f.ns }) := by
    unfold State.endUpdate
    exact if_pos (by show s.corpora.any _ = false; rw [corpora]; rfl)
  unfold State.endWork
  dsimp only
  rw [forget, lose, build, migration, table, space, update,
    show (s.modFlash (fun f => { f with ns := kvMapVals (fun _ => NSpace.kept rid) f.ns })).builds = [] from builds]
  unfold State.endArrays
  simp only [State.putBuilds, State.putQueries, State.putArrWork, State.modFlash, State.putFlash, arrays]
  exact ⟨rfl, old⟩

theorem flash_coalesce (s : State) (p q : Nat) : (s.coalesce p q).flash = s.flash := by
  unfold State.coalesce
  dsimp only
  split
  · exact (Aside.refl _).sendMsix.flash
  · rfl

theorem flash_postCompletion (s : State) (p q cid stream status flags c r0 r1 : Nat) (quiet : Bool) :
    (s.postCompletion p q cid stream status flags c r0 r1 quiet).flash = s.flash := by
  unfold State.postCompletion
  dsimp only
  split
  · rfl
  · exact flash_coalesce _ _ _

theorem completeOne_namespaces {s : State} {rid : Nat} {r : Rec} {status c r0 r1 : Nat} (only : OnlyDeletes s rid) (host : r.fab = none)
    (claims : r.claims = [])
    (long : r.long = none) (plain : status ≠ scFence) : (s.completeOne rid r status 0 c r0 r1 []).flash.ns = kvMapVals (fun _ => NSpace.kept rid)
        s.flash.ns := by
  unfold State.completeOne
  dsimp only
  rw [host, long]
  dsimp only
  rw [flash_postCompletion]
  have noted : ((s.noteEnd rid r (status == scVented)).freeContexts rid).flash = s.flash ∧
      OnlyDeletes (((s.noteEnd rid r (status == scVented)).freeContexts rid).putRecs
          (kvDel rid ((s.noteEnd rid r (status == scVented)).freeContexts rid).recs)) rid := by
    unfold State.noteEnd
    dsimp only
    split
    · exact ⟨rfl, only.sels, only.load, only.builds, only.migs, only.old, only.lookups, only.updates, only.corpora, only.arrays, only.ending⟩
    · exact ⟨rfl, only.sels, only.load, only.builds, only.migs, only.old, only.lookups, only.updates, only.corpora, only.arrays, only.ending⟩
  obtain ⟨same, left⟩ := noted
  obtain ⟨ns, old⟩ := endWork_namespaces left
  rw [if_neg plain, if_pos ⟨by rw [claims]; rfl, by rw [old]; rfl⟩, show State.putResult _ _ _ [] = _ from if_pos (.inl rfl), ns]
  exact congrArg (fun f : Flash => kvMapVals (fun _ => NSpace.kept rid) f.ns) same

theorem complete_namespaces {s : State} {p rid : Nat} {r : Rec} {status c r0 r1 : Nat} (found : kvGet? rid s.recs = some r)
    (live : s.pstate r.part ≠ stResetting)
    (op : r.cmd.opcode ≠ 0x31) (only : OnlyDeletes s rid) (host : r.fab = none) (claims : r.claims = [])
    (long : r.long = none) (plain : status ≠ scFence) : (s.complete p rid status 0 c r0 r1 []).flash.ns = kvMapVals (fun _ => NSpace.kept rid)
        s.flash.ns := by
  unfold State.complete
  rw [found]
  dsimp only
  rw [if_neg (fun h => live h.1), openResults_eq s r status [] (.inl op)]
  dsimp only
  simp only [List.isEmpty_nil, true_or, if_true]
  simpa using completeOne_namespaces only host claims long plain

/-- What an entry of the logbook leaves of a node. -/
structure SameWork (s t : State) : Prop where
  recs : t.recs = s.recs
  sels : t.sels = s.sels
  load : t.load = s.load
  builds : t.builds = s.builds
  mem : t.mem = s.mem
  emb : t.emb = s.emb
  corpora : t.corpora = s.corpora
  arrays : t.arrays = s.arrays
  flash : t.flash = s.flash

theorem SameWork.trans {s t u : State} (h : SameWork s t) (g : SameWork t u) : SameWork s u :=
  ⟨g.recs.trans h.recs, g.sels.trans h.sels, g.load.trans h.load, g.builds.trans h.builds, g.mem.trans h.mem, g.emb.trans h.emb,
      g.corpora.trans h.corpora,
    g.arrays.trans h.arrays, g.flash.trans h.flash⟩

theorem sameWork_logAppend (s : State) (kind : Nat) (bs : List Byte) : SameWork s (s.logAppend kind bs) := by
  constructor <;> simp [State.logAppend] <;> (repeat' split) <;> simp

theorem sameWork_event (s : State) (a b c d e f g : Nat) : SameWork s (s.event a b c d e f g) := by
  constructor <;> simp
theorem writeMem_none (s : State) (a : Nat) (migs : s.mem.migs = []) : (s.writeMem a []).mem.migs = [] ∧ (s.writeMem a []).mem.old = s.mem.old := by
  have mended : ∀ m : MemSys, (m.mend a 0).migs = m.migs ∧ (m.mend a 0).old = m.old := fun m => by
    unfold MemSys.mend
    split <;> exact ⟨rfl, rfl⟩
  refine ⟨?_, (mended (s.mem.define a [])).2⟩
  show List.map _ ((s.mem.define a []).mend a 0).migs = []
  rw [(mended _).1, show (s.mem.define a []).migs = [] from migs]
  rfl

/-- A node that begins nothing for the write keeps to it over a write of no bytes, and over what its end logs. -/
theorem onlyDeletes_written {s v w x : State} {a rid : Nat} {f : Flash → Flash} (read : Aside s v) (wrote : Aside (v.writeMem a []) w)
    (logged : SameWork (w.modFlash f) x) (clean : s.sels = [] ∧ s.load = none ∧ s.builds = [] ∧ s.mem.migs = [] ∧ s.mem.old = [] ∧ s.emb.lookups = [] ∧
      s.emb.updates = [] ∧ s.corpora = [] ∧ s.arrays = []) (ending : x.flash.ns.any (fun n => n.2.ending == some rid) = true)
          : OnlyDeletes x rid := by
  obtain ⟨sels, load, builds, migs, old, lookups, updates, corpora, arrays⟩ := clean
  obtain ⟨migs', old'⟩ := writeMem_none v a ((read.view fun u => u.mem.migs).trans migs)
  exact {
    sels := logged.sels.trans (wrote.sels.trans (read.sels.trans sels))
    load := logged.load.trans (wrote.load.trans (read.load.trans load))
    builds := logged.builds.trans (wrote.builds.trans (read.builds.trans builds))
    migs := (congrArg MemSys.migs logged.mem).trans ((wrote.view fun u => u.mem.migs).trans migs')
    old := (congrArg MemSys.old logged.mem).trans ((wrote.view fun u => u.mem.old).trans (old'.trans ((read.view fun u => u.mem.old).trans old)))
    lookups := (congrArg Emb.lookups logged.emb).trans ((wrote.view fun u => u.emb.lookups).trans ((read.view fun u => u.emb.lookups).trans lookups))
    updates := (congrArg Emb.updates logged.emb).trans ((wrote.view fun u => u.emb.updates).trans ((read.view fun u => u.emb.updates).trans updates))
    corpora := logged.corpora.trans (wrote.corpora.trans (read.corpora.trans corpora))
    arrays := logged.arrays.trans (wrote.arrays.trans (read.arrays.trans arrays))
    ending := ending }

theorem recs_written {s v w x : State} {a : Nat} {f : Flash → Flash} (read : Aside s v) (wrote : Aside (v.writeMem a []) w)
    (logged : SameWork (w.modFlash f) x) : x.recs = s.recs := logged.recs.trans (wrote.recs.trans read.recs)

/-- A node whose media is worn out, with namespace 3 whose deletion command 0 began, and a write to it. -/
def endingWorn : State := { Tests.worn with flash := { Tests.worn.flash with ns := [(3, { size := 8, ending := some 0 })] } }

/-- That node with the write's bytes read from the host. -/
@[irreducible] def wornRead : State := endingWorn.chargeHostRead 0 (Tests.nsRec 0x61).flow 16384

/-- And with nothing of them written. -/
@[irreducible] def wornStored : State := ((wornRead.writeMem (nsBase 3 + 2 * 16384) []).sealWrite.bump cFtlHostWriteBytes 0).chargeBw 0 3 0

theorem wornRead_input : ∃ bs, bs.length = 16384 ∧ endingWorn.readInput 0 (Tests.nsRec 0x61).flow 4096 16384 [] = (bs, wornRead) := by
  unfold State.readInput wornRead
  rw [if_neg (by decide)]
  exact ⟨_, by simp only [List.take_nil, List.nil_append, List.length_replicate, List.length_nil], rfl⟩

theorem wornRead_stops : wornRead.writeUnits (nsBase 3) 8 (nsBase 3 / 16384 + 2) 1 = (0, some .full, wornRead) := by
  have full : wornRead.writeUnit (nsBase 3) 8 (nsBase 3 / 16384 + 2) = .error .full := by
    unfold State.writeUnit
    exact if_pos (by decide +kernel)
  unfold State.writeUnits
  rw [full]

/-- Where the media takes nothing, nothing is written. -/
theorem flashStore_stops {s v : State} {p base size a k n : Nat} {data : List Byte} {why : WriteStop} (span : unitSpan a data.length = (k, n))
    (stops : s.writeUnits base size k n = (0, some why, v)) (start : (k + 0) * 16384 = a) :
    s.flashStore p base size a data = (((v.writeMem a []).sealWrite.bump cFtlHostWriteBytes 0).chargeBw p 3 0, some 0) := by
  unfold State.flashStore
  rw [span]
  dsimp only
  rw [stops]
  simp only [start, Option.isSome_some, if_true, Nat.sub_self, List.take_zero]

theorem wornRead_stores {bs : List Byte} (length : bs.length = 16384) :
    wornRead.flashStore 0 (nsBase 3) 8 (nsBase 3 + 2 * 16384) bs = (wornStored, some 0) := by
  have span : unitSpan (nsBase 3 + 2 * 16384) bs.length = (nsBase 3 / 16384 + 2, 1) := by
    rw [length]
    decide +kernel
  unfold wornStored
  exact flashStore_stops span wornRead_stops (by decide +kernel)

/-- The write before it ends. -/
@[irreducible] def wornFull : State := (wornStored.modFlash
    (fun f => { f with ns := kvUpd (nsKey 0 3) (fun y => { y with ro := true }) f.ns })).mediaFull 0 3 3

/-- The write's end, which makes the namespace read-only and ends the deletion of its number. -/
@[irreducible] def wornEnd : State := wornFull.complete 0 0 scMediaFull 0 0 (2 + 0 / 16384) 0 []

theorem wornEnd_eq : wornStored.writeStopped 0 0 3 2 0 = wornEnd := by
  unfold wornEnd wornFull
  rfl

theorem wornStored_aside : Aside (wornRead.writeMem (nsBase 3 + 2 * 16384) []) wornStored := by
  unfold wornStored
  exact (Aside.refl _).fresh.bump.bump.chargeBw

theorem wornFull_same :
    SameWork (wornStored.modFlash (fun f => { f with ns := kvUpd (nsKey 0 3) (fun y => { y with ro := true }) f.ns })) wornFull := by
  have event := sameWork_event (wornStored.modFlash (fun f => { f with ns := kvUpd (nsKey 0 3) (fun y => { y with ro := true }) f.ns }))
      1 8 13 0 0 0 3
  unfold wornFull
  exact event.trans (sameWork_logAppend _ _ _)

theorem wornRead_aside : Aside endingWorn wornRead := by
  unfold wornRead
  exact (Aside.refl _).chargeHostRead

theorem wornStored_ns : wornStored.flash.ns = [(3, { size := 8, ending := some 0 })] := by
  rw [wornStored_aside.flash]
  show wornRead.flash.ns = _
  rw [wornRead_aside.flash]
  rfl

theorem wornFull_ns : wornFull.flash.ns = [(3, { size := 8, ending := some 0, ro := true })] := by
  have same : wornFull.flash.ns = kvUpd (nsKey 0 3) (fun y => { y with ro := true }) wornStored.flash.ns := congrArg Flash.ns wornFull_same.flash
  rw [same, wornStored_ns]
  rfl

theorem wornFull_only : OnlyDeletes wornFull 0 :=
  onlyDeletes_written wornRead_aside wornStored_aside wornFull_same ⟨rfl, rfl, rfl, rfl, rfl, rfl, rfl, rfl, rfl⟩ (by rw [wornFull_ns]; rfl)

theorem wornFull_recs : kvGet? 0 wornFull.recs = some (Tests.nsRec 0x61) := by
  rw [recs_written wornRead_aside wornStored_aside wornFull_same]
  rfl

theorem wornFull_live : wornFull.pstate 0 ≠ stResetting := by
  have calm : Calm endingWorn wornFull := by
    unfold wornFull State.mediaFull State.logFlash
    exact ((((Calm.refl endingWorn).aside wornRead_aside).modMem.aside wornStored_aside).modFlash.event).logAppend
  rw [calm.pstate (by decide)]
  decide +kernel

theorem wornEnd_ns : wornEnd.flash.ns = [(3, { size := 8, ro := true })] := by
  have ends : wornEnd.flash.ns = kvMapVals (fun _ => NSpace.kept 0) wornFull.flash.ns := by
    unfold wornEnd
    exact complete_namespaces wornFull_recs wornFull_live (by decide) wornFull_only rfl rfl rfl (show scMediaFull ≠ scFence by decide)
  rw [ends, wornFull_ns]
  rfl

/-- Refutes O38: the end of a write ends what its number began, also the deletion of the namespace that the write found its media exhausted for; the statement
has that namespace change in nothing but its read-only mark. -/
theorem not_namespaces : ¬ Obligations.Namespaces := by
  unfold Obligations.Namespaces
  rintro ⟨-, write, -⟩
  obtain ⟨bs, length, input⟩ := wornRead_input
  have id : (Tests.nsRec 0x61).cmd.param 0 2 = 3 := by decide +kernel
  have first : (Tests.nsRec 0x61).cmd.param 8 8 = 2 := by decide +kernel
  have run := execNsWrite_full (q := 0) (cid := 5) (r := Tests.nsRec 0x61) (x := { size := 8, ending := some 0 }) (rid := 0) (by decide +kernel)
      (by decide +kernel)
    (by decide +kernel) (by decide +kernel) input (by decide +kernel) (wornRead_stores length)
  rw [id, first, wornEnd_eq] at run
  obtain ⟨-, -, -, full⟩ := write endingWorn wornRead wornStored 0 0 5 0 3 1 2 (nsBase 3) [] bs (Tests.nsRec 0x61) { size := 8, ending := some 0 }
      (by decide)
    (Tests.may_of_canRun endingWorn 0x61 (Tests.nsRec 0x61) (by decide +kernel)) (by decide +kernel) (by decide +kernel) (by decide +kernel)
        (by decide) (by decide)
    (by decide) (by decide +kernel) (by decide +kernel) (by decide) (by decide +kernel) rfl
  obtain ⟨t, run', -, ns⟩ := full 0 rfl input (by decide +kernel) (wornRead_stores length)
  obtain rfl := Host.Outcome.next.inj (run.symm.trans run')
  rw [show nsKey 0 3 = 3 from rfl, wornEnd_ns, wornStored_ns] at ns
  exact absurd ns (by decide)

end Sys2Proof.Machine
end

section
set_option Elab.async false
/-! SUPPORT. The fabric's network (spec/14): the election of its anchor, the assignment of node IDs, its map and its routes. -/

namespace Sys2Proof.Machine

/-! ### Orders sent -/

/-- A node without what sending an order changes. -/
def State.quiet (s : State) : State := { s with fab := { s.fab with links := [], orderNo := 0, handoff := [], arrived := [] } }

/-- What sending orders leaves of a node. -/
structure Sends (s t : State) : Prop where
  quiet : t.quiet = s.quiet

namespace Sends

variable {s t u : State}

theorem refl (s : State) : Sends s s := ⟨rfl⟩

theorem trans (h : Sends s t) (g : Sends t u) : Sends s u := ⟨g.quiet.trans h.quiet⟩

theorem view {α : Type} (h : Sends s t) (π : State → α) : π t.quiet = π s.quiet := congrArg π h.quiet

theorem regs (h : Sends s t) : t.regs = s.regs := h.view State.regs

theorem reg (h : Sends s t) (o : Nat) : t.reg o = s.reg o := h.view fun v => v.reg o

theorem ctr (h : Sends s t) (o : Nat) : t.ctr o = s.ctr o := h.view fun v => v.ctr o

theorem mem (h : Sends s t) : t.mem = s.mem := h.view State.mem

theorem out (h : Sends s t) : t.out = s.out := h.view State.out

theorem foldl {α : Type} {f : State → α → State} {l : List α} (h : Sends s t) (step : ∀ u a, Sends u (f u a)) : Sends s (l.foldl f t) := by
  induction l generalizing t with
  | nil => exact h
  | cons a l ih => exact ih (h.trans (step t a))

theorem handPacket (k : Packet) : Sends s (s.handPacket k) := by
  unfold State.handPacket
  split <;> exact ⟨rfl⟩

theorem sendOrder (dst op part gen : Nat) (args : List Nat) (len : Nat) : Sends s (s.sendOrder dst op part gen args len) :=
  Sends.trans (t := s.modFab (fun f => { f with orderNo := (s.fab.orderNo + 1) % 2 ^ 32 })) ⟨rfl⟩ (handPacket _)

theorem putOrder (lanes : List Nat) (src seq op : Nat) (args : List Nat) (len : Nat) : Sends s (s.putOrder lanes src seq op args len) :=
  (refl s).foldl fun _ _ => ⟨rfl⟩

theorem sendOn (lanes : List Nat) (op : Nat) (args : List Nat) (len : Nat) : Sends s (s.sendOn lanes op args len) :=
  Sends.trans (t := s.modFab (fun f => { f with orderNo := (s.fab.orderNo + 1) % 2 ^ 32 })) ⟨rfl⟩ (putOrder _ _ _ _ _ _)

theorem sendAll (op : Nat) (args : List Nat) (len : Nat) : Sends s (s.sendAll op args len) := sendOn _ _ _ _

theorem sendElect : Sends s s.sendElect := sendAll _ _ _

theorem sendParts (dst : Except (List Nat) Nat) (op : Nat) (head xs : List Nat) : Sends s (s.sendParts dst op head xs) := by
  refine (refl s).foldl fun u c => ?_
  cases dst with
  | ok d => exact sendOrder _ _ _ _ _ _
  | error lanes => exact sendOn _ _ _ _

theorem sendTopo : Sends s s.sendTopo := (refl s).foldl fun _ _ => sendParts _ _ _ _

end Sends

/-! ### The election -/

theorem execElectArrival_lower {s : State} {l ident count : Nat} {x : Link} (there : s.link? l = some x) (up : x.isUp = true)
    (lower : ident < s.candIdent) :
    exec (.electArrival l ident count) s = .next (s.setCand ident count (some l)) := by
  show execElectArrival l ident count s = _
  unfold execElectArrival
  rw [there]
  dsimp only
  rw [if_neg (by rw [up]; decide), if_pos lower]

theorem execElectArrival_fresher {s : State} {l ident count : Nat} {x : Link} (there : s.link? l = some x) (up : x.isUp = true)
    (same : ident = s.candIdent)
    (held : s.fab.cand ≠ 0) (newer : s.fab.candCnt < count) : exec (.electArrival l ident count) s =
      .next ((s.modFab (fun f => { f with candSeen := s.now, candCnt := count, candLane := some l })).sendElect) := by
  show execElectArrival l ident count s = _
  unfold execElectArrival
  rw [there]
  dsimp only
  rw [if_neg (by rw [up]; decide), if_neg (by omega), if_pos ⟨same, held, newer⟩]

theorem execElectArrival_higher {s : State} {l ident count : Nat} {x : Link} (there : s.link? l = some x)
    (no : x.isUp = false ∨ s.candIdent < ident) :
    exec (.electArrival l ident count) s = .next s := by
  show execElectArrival l ident count s = _
  unfold execElectArrival
  rw [there]
  dsimp only
  rcases no with down | higher
  · exact if_pos (by rw [down]; rfl)
  · cases up : x.isUp with
    | false => rfl
    | true =>
      refine (if_neg (by decide)).trans ?_
      rw [if_neg (by omega), if_neg (by omega)]

/-- The node that has taken a candidate. -/
def State.candTaken (s : State) (c cnt : Nat) (lane : Option Nat) : State :=
  s.modFab (fun f => { f with
    cand := if c = s.ident then 0 else c
    candSeen := s.now
    candCnt := cnt
    candLane := if c = s.ident then none else lane
    reports := if c = s.ident then f.topo.foldl (fun (m : KV Member) x => kvPut x.2.ident { ident := x.1, links := x.2.links } m) [] else f.reports })

/-- A node that is not the anchor only sends when it reports its links. -/
theorem reportLinks_sends {s : State} (not : s.isAnchor = false) : Sends s s.reportLinks := by
  unfold State.reportLinks
  rw [if_neg (by rw [not]; decide)]
  exact Sends.sendParts _ _ _ _

theorem isAnchor_of_cand {s : State} (held : s.fab.cand ≠ 0) : s.isAnchor = false := by
  unfold State.isAnchor
  rw [beq_eq_false_iff_ne.mpr held, Bool.and_false]

theorem setCand_sends {s : State} {c cnt : Nat} {lane : Option Nat} (none : s.fab.colls = []) (id : c ≠ 0) :
    Sends (s.candTaken c cnt lane) (s.setCand c cnt lane) := by
  have fails : s.failColls scUnreachable = s := by
    unfold State.failColls
    rw [none]
    rfl
  have sent : Sends (s.candTaken c cnt lane) (s.candTaken c cnt lane).sendElect := Sends.sendElect
  have split' : s.setCand c cnt lane = if c = (s.candTaken c cnt lane).sendElect.ident then (s.candTaken c cnt lane).sendElect
      else (s.candTaken c cnt lane).sendElect.reportLinks := by
    unfold State.setCand
    rw [fails]
    rfl
  rw [split']
  split
  · exact sent
  next other =>
    have ident : (s.candTaken c cnt lane).sendElect.ident = s.ident := sent.view fun v => v.ident
    have cand : (s.candTaken c cnt lane).sendElect.fab.cand = (s.candTaken c cnt lane).fab.cand := sent.view fun v => v.fab.cand
    have taken : (s.candTaken c cnt lane).fab.cand = c := if_neg (by rwa [ident] at other)
    exact sent.trans (reportLinks_sends (isAnchor_of_cand (by rw [cand, taken]; exact id)))

/-- The least identity of a fold over links. -/
theorem nextCand_fold_le (l : List (Nat × Link)) (b : Nat × Option Nat) :
    (l.foldl (fun (b : Nat × Option Nat) x => if x.2.peerIdent < b.1 then (x.2.peerIdent, some x.1) else b) b).1 ≤ b.1 ∧
      ∀ x ∈ l, (l.foldl (fun (b : Nat × Option Nat) x => if x.2.peerIdent < b.1 then (x.2.peerIdent, some x.1) else b) b).1 ≤ x.2.peerIdent := by
  induction l generalizing b with
  | nil => exact ⟨le_rfl, fun _ mem => absurd mem List.not_mem_nil⟩
  | cons a l ih =>
    obtain ⟨start, least⟩ := ih (if a.2.peerIdent < b.1 then (a.2.peerIdent, some a.1) else b)
    have first : (if a.2.peerIdent < b.1 then (a.2.peerIdent, some a.1) else b).1 ≤ b.1 ∧
        (if a.2.peerIdent < b.1 then (a.2.peerIdent, some a.1) else b).1 ≤ a.2.peerIdent := by
      split
      next lower => exact ⟨lower.le, le_rfl⟩
      next not => exact ⟨le_rfl, Nat.not_lt.mp not⟩
    refine ⟨start.trans first.1, fun x mem => ?_⟩
    rcases List.mem_cons.mp mem with rfl | mem
    · exact start.trans first.2
    · exact least x mem

/-! ### Assignments -/

theorem execAssignArrival_new {s : State} {src seq ident id : Nat} (fresh : s.orderFresh src seq = true)
    (new : src = 0 ∨ kvGet? src s.fab.orderRx ≠ some seq) : exec (.assignArrival src seq ident id) s =
      .next (if ident ≠ s.ident then (s.orderTaken src seq).putOrder s.upLinks src seq 3 [ident, id] 18
        else if id = 0 ∨ id = 0xFFFF ∨ id = s.nodeId then s.orderTaken src seq
        else ((s.orderTaken src seq).takeId id).refreshRoutes.reportLinks) := by
  have unseen : ¬decide (src ≠ 0 ∧ kvGet? src s.fab.orderRx = some seq) = true := by
    rw [decide_eq_true_iff]
    rintro ⟨other, same⟩
    exact new.elim other fun ne => ne same
  exact congrArg Host.Outcome.next ((takeOrder_fresh _ fresh).trans (if_neg unseen))

theorem execAssignArrival_seen {s : State} {src seq ident id : Nat} (other : src ≠ 0) (seen : kvGet? src s.fab.orderRx = some seq) :
    ∃ t, exec (.assignArrival src seq ident id) s = .next t ∧ t.regs = s.regs ∧ t.fab.links = s.fab.links ∧ t.fab.handoff = s.fab.handoff ∧ t.mem = s.mem := by
  by_cases fresh : s.orderFresh src seq = true
  · exact ⟨s.orderTaken src seq, congrArg Host.Outcome.next ((takeOrder_fresh _ fresh).trans (if_pos (decide_eq_true ⟨other, seen⟩))), rfl, rfl,
      rfl, rfl⟩
  · exact ⟨_, congrArg Host.Outcome.next (takeOrder_stale _ (Bool.eq_false_iff.mpr fresh)), rfl, rfl, rfl, rfl⟩

/-- What a node that takes an ID changes: its status register. -/
theorem takeId_reads (s : State) (id : Nat) : (s.takeId id).fab = s.fab ∧ ∀ o, o ≠ rFabStatus → (s.takeId id).reg o = s.reg o := by
  unfold State.takeId
  split
  · exact ⟨by simp, fun o ne => by rw [State.reg_setFld, if_neg ne, State.reg_setFld, if_neg ne]⟩
  · exact ⟨by simp, fun o ne => by rw [State.reg_setFld, if_neg ne]⟩

theorem isAnchor_takeId (s : State) (id : Nat) : (s.takeId id).isAnchor = s.isAnchor := by
  obtain ⟨fab, reg⟩ := takeId_reads s id
  unfold State.isAnchor State.fabOn State.fld
  rw [fab, reg rNodeStatus (by decide), reg rFabCfg (by decide)]

theorem nodeId_setFld (s : State) {id : Nat} (small : id < 65536) : (s.setFld rFabStatus fFabStatus_NODE_ID id).nodeId = id := by
  rw [State.nodeId, State.fld_setFld _ _ _ _ (by decide), Nat.mod_eq_of_lt (by rw [show 2 ^ fFabStatus_NODE_ID.width = 65536 by decide]; exact small)]

/-- The node that has taken an ID and told of it. -/
theorem idTaken_sends {s : State} {id : Nat} (not : s.isAnchor = false) :
    Sends (s.takeId id).refreshRoutes (s.takeId id).refreshRoutes.reportLinks := by
  refine reportLinks_sends ?_
  show (s.takeId id).isAnchor = false
  rw [isAnchor_takeId, not]

/-! ### Reports of links -/

theorem execTopologyReportArrival_onward {s : State} {node ident : Nat} {links : List (Nat × Nat × Nat)} (not : s.isAnchor = false) :
    exec (.topologyReportArrival node ident links) s = .next (match s.anchorWay with
      | some w => s.sendParts w 4 [0, ident, node] (linkNums links)
      | none => s) := by
  refine (if_neg (by rw [not]; decide)).trans ?_
  cases s.anchorWay <;> rfl

/-! ### The map -/

/-- The map of a topology report. -/
def topoMap (topo : List (Nat × Nat × List (Nat × Nat × Nat))) : KV Member :=
  topo.foldl (fun (m : KV Member) x => if x.1 = 0 ∨ x.1 = 0xFFFF then m else kvPut x.1 { ident := x.2.1, links := x.2.2 } m) []

theorem execTopoArrival_fresh {s : State} {src seq anchor : Nat} {topo : List (Nat × Nat × List (Nat × Nat × Nat))}
    (fresh : s.orderFresh src seq = true) :
    exec (.topoArrival src seq anchor topo) s = .next (((s.orderTaken src seq).takeTopo anchor (topoMap topo)).sendTopo) :=
  congrArg Host.Outcome.next (takeOrder_fresh _ fresh)

/-- What routes laid anew and counted leave of a node. -/
theorem routesCounted (u : State) (below : u.ctr cFabRouteChanges + 1 < 2 ^ 48 - 1) :
    (u.reroute.bump cFabRouteChanges 1).noteUnreach.fab.anchorId = u.fab.anchorId ∧
    (u.reroute.bump cFabRouteChanges 1).noteUnreach.fab.topo = u.fab.topo ∧
    (u.reroute.bump cFabRouteChanges 1).noteUnreach.fld rFabStatus fFabStatus_ANCHOR_ID = u.fld rFabStatus fFabStatus_ANCHOR_ID ∧
    (u.reroute.bump cFabRouteChanges 1).noteUnreach.ctr cFabRouteChanges = u.ctr cFabRouteChanges + 1 :=
  have counted : Aside u.reroute (u.reroute.bump cFabRouteChanges 1) := (Aside.refl _).bump
  ⟨counted.view fun v => v.fab.anchorId, counted.view fun v => v.fab.topo, congrArg fFabStatus_ANCHOR_ID.get
      (counted.reg rFabStatus (.inl (by decide))),
    State.ctr_bump_self _ _ _ below⟩

/-- The node with a map and its anchor noted. -/
def State.mapTaken (s : State) (anchor : Nat) (m : KV Member) : State :=
  (((s.modFab (fun f => { f with
    topo := m
    anchorId := anchor
    parent := parentOf m (distances m anchor) s.nodeId
    kids := (m.map (fun x => x.1)).filter (fun n => n != s.nodeId && s.nodeId != 0 && parentOf m (distances m anchor) n == s.nodeId)
        })).setFld rFabStatus
      fFabStatus_MEMBERS m.length).setFld rFabStatus fFabStatus_DIAMETER (diameter m)).setFld rFabStatus fFabStatus_ANCHOR_ID anchor

theorem mapTaken_ctr (s : State) (anchor : Nat) (m : KV Member) (o : Nat) : (s.mapTaken anchor m).ctr o = s.ctr o := by
  unfold State.mapTaken
  simp [State.ctr, State.modFab]

theorem takeTopo_eq {s : State} (anchor : Nat) (m : KV Member) (none : s.fab.colls = []) :
    s.takeTopo anchor m = ((s.mapTaken anchor m).reroute.bump cFabRouteChanges 1).noteUnreach := by
  have keep : ((s.fab.topo.any (fun x => (kvGet? x.1 m).isNone) || (anchor != s.fab.anchorId && s.fab.anchorId != 0)) && !s.fab.colls.isEmpty)
      = false := by
    rw [none]
    exact Bool.and_false _
  unfold State.takeTopo
  dsimp only
  rw [if_neg (by rw [keep]; decide)]
  rfl

/-- A map taken in: its anchor, in the state and in the status register, and the one change of routes counted. -/
theorem takeTopo_reads {s : State} {anchor : Nat} (m : KV Member) (small : anchor < 65536) (none : s.fab.colls = [])
    (below : s.ctr cFabRouteChanges + 1 < 2 ^ 48 - 1) : (s.takeTopo anchor m).fab.anchorId = anchor ∧
      (s.takeTopo anchor m).fab.topo = m ∧ (s.takeTopo anchor m).fld rFabStatus fFabStatus_ANCHOR_ID = anchor ∧
      (s.takeTopo anchor m).ctr cFabRouteChanges = s.ctr cFabRouteChanges + 1 := by
  obtain ⟨anchorId, topo, status, count⟩ := routesCounted (s.mapTaken anchor m) (by rw [mapTaken_ctr]; exact below)
  rw [takeTopo_eq anchor m none]
  refine ⟨anchorId.trans ?_, topo.trans ?_, status.trans ?_, count.trans ?_⟩
  · simp [State.mapTaken, State.modFab]
  · simp [State.mapTaken, State.modFab]
  · unfold State.mapTaken
    rw [State.fld_setFld _ _ _ _ (by decide), Nat.mod_eq_of_lt (by rw [show 2 ^ fFabStatus_ANCHOR_ID.width = 65536 by decide]; exact small)]
  · rw [mapTaken_ctr]

/-! ### Written routes -/

/-- The route entry that a word writes. -/
def routeOf (w : Word) : Route :=
  { dist := min 8 (fFabRtEntry_DIST.get w), links := (List.range (min 4 (fFabRtEntry_COUNT.get w))).map (fun i => (w.toNat / 2 ^ (8 * i)) % 256), override := true,
    egress := fFabRtEntry_EGRESS.get w }

theorem execFabRtEntryWrite_route (s : State) (w : Word) (pf : Nat) : ∃ t, exec (.fabRtEntryWrite w pf) s = .next t ∧
    kvGet? (s.fld rFabRtSel fFabRtSel_DEST) t.fab.routes = some (routeOf w) := by
  have noted : (if w &&& rsvMask rFabRtEntry = 0 then s else s.accessErr fNodeAccessErr_RSV_WRITE pf rFabRtEntry).fld rFabRtSel fFabRtSel_DEST =
      s.fld rFabRtSel fFabRtSel_DEST := by
    split
    · rfl
    · rw [State.fld, State.reg_accessErr_ne s _ _ _ (by decide)]
      rfl
  refine ⟨_, rfl, ?_⟩
  rw [← noted]
  exact kvGet?_put_self _ _ _

/-- Settles O42: an election keeps the lower identity or the fresher count, an ID and a map are taken from the order that brings them, and anything that is
not for this node is passed on. -/
theorem netMembership : Obligations.NetMembership := by
  unfold Obligations.NetMembership
  refine ⟨?_, ?_, ?_, ?_, ?_, ?_, ?_, ?_, ?_, ?_, ?_, ?_⟩
  · exact fun s l ident count x there up lower => execElectArrival_lower there up lower
  · rintro s t ident count l none id rfl
    have sent := setCand_sends (s := s) (cnt := count) (lane := l) none id
    exact ⟨sent.view fun v => v.fab.cand, sent.view fun v => v.fab.candCnt, sent.view fun v => v.fab.candSeen, sent.view fun v => v.fab.candLane,
        sent.regs, sent.mem,
      sent.out⟩
  · intro s l ident count x there up same held newer
    have sent : Sends (s.modFab (fun f => { f with candSeen := s.now, candCnt := count, candLane := some l })) _ := Sends.sendElect
    exact ⟨_, execElectArrival_fresher there up same held newer, sent.view fun v => v.fab.candCnt, sent.view fun v => v.fab.candSeen,
        sent.view fun v => v.fab.candLane,
      sent.view fun v => v.fab.cand⟩
  · exact fun s l ident count x there no => execElectArrival_higher there no
  · intro s
    refine ⟨fun not => if_neg (by rw [not]; decide), fun is => ?_⟩
    have sent : Sends (s.modFab (fun f => { f with candCnt := f.candCnt + 1 })) _ := Sends.sendElect
    have none : s.fab.cand = 0 := beq_iff_eq.mp (Bool.and_eq_true_iff.mp is).2
    exact ⟨_, if_pos is, sent.view fun v => v.fab.candCnt, (sent.view fun v => v.fab.cand).trans none, sent.regs⟩
  · intro s
    obtain ⟨start, least⟩ := nextCand_fold_le (s.fab.links.filter (fun x => x.2.isUp && x.2.peerIdent != s.fab.cand)) (s.ident, none)
    refine ⟨fun held due => if_pos ⟨held, due⟩, start, fun x mem up other => ?_, fun no => if_neg ?_⟩
    · exact least x (List.mem_filter.mpr ⟨mem, by rw [up, bne_iff_ne.mpr other]; rfl⟩)
    · rintro ⟨held, due⟩
      rcases no with zero | early
      · exact held zero
      · exact absurd due (Nat.not_le.mpr early)
  · intro s src seq ident id fresh new
    have run := execAssignArrival_new (ident := ident) (id := id) fresh new
    refine ⟨fun here some small free not => ?_, fun here some small preset other new' not => ?_, fun elsewhere => ?_⟩
    · rw [if_neg (not_not.mpr here)] at run
      by_cases same : id = s.nodeId
      · rw [if_pos (.inr (.inr same))] at run
        exact ⟨_, run, same.symm⟩
      · rw [if_neg (by omega)] at run
        refine ⟨_, run, ?_⟩
        have sent := idTaken_sends (s := s.orderTaken src seq) (id := id) not
        have taken : ((s.orderTaken src seq).takeId id).nodeId = id := by
          unfold State.takeId
          rw [if_neg (fun h => absurd (free.symm.trans h.1) (by decide))]
          exact nodeId_setFld _ (by omega)
        exact (sent.view fun v => v.nodeId).trans taken
    · rw [if_neg (not_not.mpr here), if_neg (by omega)] at run
      have sent := idTaken_sends (s := s.orderTaken src seq) (id := id) not
      have taken : (s.orderTaken src seq).takeId id =
          ((s.orderTaken src seq).setFld rFabStatus fFabStatus_DUP_PRESET 1).setFld rFabStatus fFabStatus_NODE_ID 0 :=
        if_pos ⟨preset, other⟩
      refine ⟨_, run, (sent.view fun v => v.nodeId).trans ?_, (sent.view fun v => v.fld rFabStatus fFabStatus_DUP_PRESET).trans ?_⟩
      · show ((s.orderTaken src seq).takeId id).nodeId = 0
        rw [taken]
        exact nodeId_setFld _ (by decide)
      · show ((s.orderTaken src seq).takeId id).fld rFabStatus fFabStatus_DUP_PRESET = 1
        rw [taken, State.fld_setFld_above _ _ (by decide) (by decide), State.fld_setFld _ _ _ _ (by decide)]
        decide
    · rw [if_pos elsewhere] at run
      exact ⟨_, run, rfl, rfl⟩
  · exact fun s src seq ident id other seen => execAssignArrival_seen other seen
  · intro s node ident links
    refine ⟨fun is other => ⟨_, (if_pos is).trans (if_neg other), rfl⟩, fun not reach => ?_, fun l not far lane up => ?_, fun not far down => ?_⟩
    all_goals rw [execTopologyReportArrival_onward not]; unfold State.anchorWay
    · rw [if_pos reach]
    · rw [if_neg (by rw [far]; decide), lane]
      dsimp only
      rw [if_pos (List.elem_iff.mpr up)]
    · rw [if_neg (by rw [far]; decide)]
      split
      next w h =>
        exfalso
        split at h
        next l lane =>
          rw [if_neg (by rw [List.contains_iff_mem]; exact down l lane)] at h
          cases h
        · cases h
      · rfl
  · intro s src seq anchor topo fresh small none below
    obtain ⟨id, map, status, count⟩ := takeTopo_reads (s := s.orderTaken src seq) (topoMap topo) small none below
    have sent : Sends ((s.orderTaken src seq).takeTopo anchor (topoMap topo)) _ := Sends.sendTopo
    refine ⟨_, execTopoArrival_fresh fresh, (sent.view fun v => v.fab.anchorId).trans id,
        (congrArg fFabStatus_ANCHOR_ID.get (sent.reg rFabStatus)).trans status,
      (sent.view fun v => v.fab.topo).trans map, (sent.ctr _).trans count⟩
  · rintro s c src seq ident id anchor topo mem stale
    simp only [List.mem_cons, List.not_mem_nil, or_false] at mem
    rcases mem with rfl | rfl <;> exact congrArg Host.Outcome.next (takeOrder_stale _ stale)
  · intro s w pf
    obtain ⟨t, run, route⟩ := execFabRtEntryWrite_route s w pf
    exact ⟨t, _, run, route, rfl, rfl, rfl, rfl⟩

end Sys2Proof.Machine
end

section
set_option Elab.async false
/-! SUPPORT. Links (spec/14): flits received, replayed and sent, the markers of a snapshot, and packets put together. -/

namespace Sys2Proof.Machine

/-! ### Links -/

theorem link_modLink {s : State} {l : Nat} {x : Link} (f : Link → Link) (there : s.link? l = some x) : (s.modLink l f).link? l = some (f x) := by
  have there' : kvGet? l s.fab.links = some x := there
  show kvGet? l (kvUpd l f s.fab.links) = _
  rw [kvGet?_upd, if_pos rfl, there']
  rfl

theorem Aside.addMeter {s t : State} {p i n : Nat} (h : Aside s t) : Aside s (t.addMeter p i n) := by
  unfold State.addMeter
  split
  · exact h
  · split
    · exact h
    · exact ⟨h.core, h.cfg, h.rst, h.reg, h.sent⟩

theorem Aside.meterFlits {s t : State} {part : Option Nat} {n : Nat} (h : Aside s t) : Aside s (t.meterFlits part n) := by
  unfold State.meterFlits
  split
  · exact h.addMeter
  · exact h

theorem Aside.links {s t : State} (h : Aside s t) (l : Nat) : t.link? l = s.link? l := h.view fun v => v.link? l

/-- Credits given back change the credits of a link only. -/
theorem giveCredit_keeps (n : Nat) (x : Link) (vc level : Nat) :
    ∃ c p u, x.giveCredit vc level n = { x with credits := c, shared := p, sharedUse := u } := by
  induction n generalizing x with
  | zero => exact ⟨x.credits, x.shared, x.sharedUse, rfl⟩
  | succ n ih =>
    unfold Link.giveCredit
    dsimp only
    split
    · obtain ⟨c, p, u, h⟩ := ih { x with credits := kvPut (vc * 8 + level) (kvGetD 2 (vc * 8 + level) x.credits + 1) x.credits }
      exact ⟨c, p, u, h⟩
    · split
      · exact ih x
      · obtain ⟨c, p, u, h⟩ := ih { x with shared := min x.pool (x.shared + 1), sharedUse := kvPut vc (kvGetD 0 vc x.sharedUse - 1) x.sharedUse }
        exact ⟨c, p, u, h⟩

/-! ### Flits received -/

/-- A flit that this link takes: it is whole, and it is the next one or carries none. -/
def takesFlit (x : Link) (flit : List Byte) : Prop :=
  flit.length = 256 ∧ crc32 (flit.take 252) = fieldAt flit 252 4 ∧ (fieldAt flit 0 8 % 4 = 0 ∨ fieldAt flit 0 8 / 2 ^ 12 % 2 ^ 12 = x.rxSeq)

theorem execFlitReceive_bad {s : State} {l : Nat} {flit : List Byte} {x : Link} (there : s.link? l = some x) (trained : 2 ≤ x.state)
    (live : x.state ≠ 5)
    (bad : flit.length ≠ 256 ∨ crc32 (flit.take 252) ≠ fieldAt flit 252 4 ∨
        (fieldAt flit 0 8 % 4 ≠ 0 ∧ fieldAt flit 0 8 / 2 ^ 12 % 2 ^ 12 ≠ x.rxSeq)) :
    exec (.flitReceive l flit) s = .next (s.modLink l (fun y => { y with nakDue := true })) := by
  show execFlitReceive l flit s = _
  unfold execFlitReceive
  rw [there]
  dsimp only
  refine (if_neg (by omega)).trans (if_pos ?_)
  show (!(flit.length == 256 && crc32 (flit.take 252) == fieldAt flit 252 4)) = true ∨
    (fieldAt flit 0 8 / 1 % 4 ≠ 0 ∧ fieldAt flit 0 8 / 2 ^ 12 % 2 ^ 12 ≠ x.rxSeq)
  rw [Nat.div_one]
  rcases bad with short | wrong | skips
  · exact .inl (by rw [beq_eq_false_iff_ne.mpr short]; rfl)
  · exact .inl (by rw [beq_eq_false_iff_ne.mpr wrong, Bool.and_false]; rfl)
  · exact .inr skips

/-- A link that has taken a header: the flits that it acknowledges are gone, and those that follow carry the next number. -/
def Link.tookHeader (x : Link) (h : Nat) : Link :=
  ({ (if h % 4 = 0 then x else { x with rxSeq := (x.rxSeq + 1) % 4096, ackDue := true }) with
    unacked := x.unacked.filter (fun g => decide (0 < (g.seq + 4096 - h / 2 ^ 24 % 2 ^ 12) % 4096 ∧ (g.seq + 4096 - h / 2 ^ 24 % 2 ^ 12)
        % 4096 < 2049)) } : Link).giveCredit
    (h / 2 ^ 36 % 2 ^ 3) (h / 2 ^ 39 % 2 ^ 3) (h / 2 ^ 42 % 2 ^ 6)

/-- The node that has taken a flit's header. -/
def State.flitTaken (s : State) (l h : Nat) : State :=
  (if h % 4 = 0 then s.bump (cFabPRxFlits (lanePort l)) 1
    else (s.bump (cFabPRxFlits (lanePort l)) 1).modLink l (fun y => { y with rxSeq := (y.rxSeq + 1) % 4096, ackDue := true })).takeHeader l h

/-- What it does with the rest of the flit. -/
def State.flitRest (s : State) (l h : Nat) (flit : List Byte) : Host.Outcome State Fault Refusal :=
  let vc := h / 2 ^ 3 % 2 ^ 3
  let level := h / 2 ^ 6 % 2 ^ 3
  let pay := (flit.drop 8).take 244
  if h % 4 = 0 then .next s
  else if vc = 7 then .next s.dropFab
  else if h % 4 = 3 then (if h / 2 ^ 9 % 2 ^ 1 = 1 then .next (s.markerIn l vc (fieldAt pay 0 4)) else .next s)
  else
    let last := h / 2 ^ 2 % 2 ^ 1 = 1
    let s := s.snapCount l vc last
    let key := vc * 8 + level
    let old := (s.link? l).bind (fun y => kvGet? key y.reasm)
    let r : Option Reasm := if h % 4 = 1 then some { pkt := pay, flits := 1, since := s.now } else old.map
        (fun o => { o with pkt := o.pkt ++ pay, flits := o.flits + 1 })
    let s := match h % 4, old with
      | 1, some o => s.freeSpace l vc level o.flits
      | _, _ => s
    match r with
    | none => .next (s.dropFab.freeSpace l vc level 1)
    | some r =>
      if last then .next ((s.modLink l (fun y => { y with reasm := kvDel key y.reasm })).wholePacket l vc level r.pkt r.flits)
      else .next (s.modLink l (fun y => { y with reasm := kvPut key r y.reasm }))

theorem execFlitReceive_good {s : State} {l : Nat} {flit : List Byte} {x : Link} (there : s.link? l = some x) (trained : 2 ≤ x.state)
    (live : x.state ≠ 5)
    (good : takesFlit x flit) (width : fieldAt flit 0 8 / 2 ^ 11 % 2 = 0) :
    exec (.flitReceive l flit) s = (s.flitTaken l (fieldAt flit 0 8)).flitRest l (fieldAt flit 0 8) flit := by
  obtain ⟨whole, crc, next⟩ := good
  have good' : (flit.length == 256 && crc32 (flit.take 252) == fieldAt flit 252 4) = true :=
      by rw [whole, crc, beq_self_eq_true, beq_self_eq_true, Bool.and_self]
  show execFlitReceive l flit s = _
  unfold execFlitReceive
  rw [there]
  generalize fieldAt flit 0 8 = h at *
  have kind : h / 2 ^ 0 % 2 ^ (1 + 1 - 0) = h % 4 := by
    rw [Nat.pow_zero, Nat.div_one]
    rfl
  refine (if_neg (by omega)).trans ?_
  simp only [kind]
  refine (if_neg ?_).trans ?_
  · rw [good']
    rintro (no | ⟨carries, skips⟩)
    · exact absurd no (by decide)
    · exact next.elim carries fun same => skips same
  · rw [if_neg (c := h / 2 ^ 11 % 2 ^ (11 + 1 - 11) = 1) (by rw [show 2 ^ (11 + 1 - 11) = 2 from rfl, width]; decide)]
    rfl

/-- The packet that a single flit brings to a link that puts none together in its place. -/
def State.flitWhole (s : State) (l vc level : Nat) (pay : List Byte) : State :=
  ((s.snapCount l vc true).modLink l (fun y => { y with reasm := kvDel (vc * 8 + level) y.reasm })).wholePacket l vc level pay 1

theorem flitRest_none {s : State} {l h : Nat} {flit : List Byte} (none : h % 4 = 0) : s.flitRest l h flit = .next s := if_pos none

theorem flitRest_local {s : State} {l h : Nat} {flit : List Byte} (carries : h % 4 ≠ 0) (seven : h / 8 % 8 = 7) :
    s.flitRest l h flit = .next s.dropFab :=
  (if_neg carries).trans (if_pos seven)

theorem links_snapCount (s : State) (l vc : Nat) (last : Bool) (n : Nat) : (s.snapCount l vc last).link? n = s.link? n := by
  unfold State.snapCount
  split <;> rfl

theorem flitRest_single {s : State} {l h : Nat} {flit : List Byte} {x : Link} (there : s.link? l = some x) (head : h % 4 = 1)
    (last : h / 4 % 2 = 1) (vc : h / 8 % 8 ≠ 7)
    (fresh : kvGet? (h / 8 % 8 * 8 + h / 64 % 8) x.reasm = none) :
    s.flitRest l h flit = .next (s.flitWhole l (h / 8 % 8) (h / 64 % 8) ((flit.drop 8).take 244)) := by
  unfold State.flitRest
  refine (if_neg (by omega)).trans ((if_neg vc).trans ((if_neg (by omega)).trans ?_))
  have last' : decide (h / 2 ^ 2 % 2 ^ 1 = 1) = true := decide_eq_true last
  dsimp only
  rw [last', links_snapCount, there]
  show (match (if h % 4 = 1 then _ else _ : Option Reasm) with | .none => _ | some r => _) = _
  rw [if_pos head, head]
  have fresh' : (some x).bind (fun y => kvGet? (h / 2 ^ 3 % 2 ^ 3 * 8 + h / 2 ^ 6 % 2 ^ 3) y.reasm) = none := fresh
  rw [fresh']
  exact if_pos last

theorem giveCredit_reads (x : Link) (vc level n : Nat) : (x.giveCredit vc level n).rxSeq = x.rxSeq ∧ (x.giveCredit vc level n).nakDue = x.nakDue ∧
    (x.giveCredit vc level n).ackDue = x.ackDue ∧ (x.giveCredit vc level n).unacked = x.unacked ∧ (x.giveCredit vc level n).reasm = x.reasm := by
  obtain ⟨c, p, u, h⟩ := giveCredit_keeps n x vc level
  rw [h]
  exact ⟨rfl, rfl, rfl, rfl, rfl⟩

/-- Whatever a node does to its links alone leaves the rest as it was. -/
structure LinksOnly (s t : State) : Prop where
  mem : t.mem = s.mem
  rx : t.fab.rx = s.fab.rx
  snapCh : t.fab.snapCh = s.fab.snapCh
  drops : t.ctr cFabDrops = s.ctr cFabDrops

theorem LinksOnly.modLink {s t : State} (h : LinksOnly s t) (l : Nat) (f : Link → Link) :
    LinksOnly s (t.modLink l f) := ⟨h.mem, h.rx, h.snapCh, h.drops⟩

theorem flitTaken_linksOnly (s : State) (l h : Nat) (nak : h / 2 ^ 10 % 2 = 0) : LinksOnly s (s.flitTaken l h) := by
  have bumped : LinksOnly s (s.bump (cFabPRxFlits (lanePort l)) 1) := by
    have aside := (Aside.refl s).bump (o := cFabPRxFlits (lanePort l)) (n := 1)
    refine ⟨by simp only [State.bump_reads], aside.view fun v => v.fab.rx, aside.view fun v => v.fab.snapCh, State.ctr_bump_ne (by decide) s 1 ?_⟩
    unfold cFabDrops cFabPRxFlits
    omega
  unfold State.flitTaken State.takeHeader
  simp only [show h / 2 ^ 10 % 2 ^ (10 + 1 - 10) = 0 from nak]
  rw [if_neg (by decide)]
  refine LinksOnly.modLink ?_ _ _
  split
  · exact bumped
  · exact bumped.modLink _ _

theorem link_flitTaken {s : State} {l : Nat} (h : Nat) {x : Link} (there : s.link? l = some x) (nak : h / 2 ^ 10 % 2 = 0) :
    (s.flitTaken l h).link? l = some (x.tookHeader h) := by
  have bumped : (s.bump (cFabPRxFlits (lanePort l)) 1).link? l = some x := (((Aside.refl s).bump).links l).trans there
  unfold State.flitTaken State.takeHeader Link.tookHeader
  simp only [show h / 2 ^ 10 % 2 ^ (10 + 1 - 10) = 0 from nak]
  rw [if_neg (by decide)]
  by_cases none : h % 4 = 0
  · rw [if_pos none, if_pos none]
    exact link_modLink _ bumped
  · rw [if_neg none, if_neg none]
    exact link_modLink _ (link_modLink _ bumped)

theorem tookHeader_none {x : Link} {h : Nat} (none : h % 4 = 0) : (x.tookHeader h).rxSeq = x.rxSeq ∧ (x.tookHeader h).nakDue = x.nakDue ∧
    (x.tookHeader h).unacked = x.unacked.filter (fun g => decide
        (0 < (g.seq + 4096 - h / 2 ^ 24 % 2 ^ 12) % 4096 ∧ (g.seq + 4096 - h / 2 ^ 24 % 2 ^ 12) % 4096 < 2049)) := by
  unfold Link.tookHeader
  rw [if_pos none]
  obtain ⟨rx, nakDue, -, unacked, -⟩ := giveCredit_reads
    { x with unacked := x.unacked.filter (fun g => decide (0 < (g.seq + 4096 - h / 2 ^ 24 % 2 ^ 12) % 4096 ∧ (g.seq + 4096 - h / 2 ^ 24 % 2 ^ 12) % 4096 < 2049)) }
    (h / 2 ^ 36 % 2 ^ 3) (h / 2 ^ 39 % 2 ^ 3) (h / 2 ^ 42 % 2 ^ 6)
  exact ⟨rx, nakDue, unacked⟩

theorem tookHeader_carries {x : Link} {h : Nat} (carries : h % 4 ≠ 0) :
    (x.tookHeader h).rxSeq = (x.rxSeq + 1) % 4096 ∧ (x.tookHeader h).ackDue = true ∧
    (x.tookHeader h).reasm = x.reasm := by
  unfold Link.tookHeader
  rw [if_neg carries]
  obtain ⟨rx, -, ackDue, -, reasm⟩ := giveCredit_reads
    { x with
      rxSeq := (x.rxSeq + 1) % 4096
      ackDue := true
      unacked := x.unacked.filter (fun g => decide (0 < (g.seq + 4096 - h / 2 ^ 24 % 2 ^ 12) % 4096 ∧ (g.seq + 4096 - h / 2 ^ 24 % 2 ^ 12)
          % 4096 < 2049)) }
    (h / 2 ^ 36 % 2 ^ 3) (h / 2 ^ 39 % 2 ^ 3) (h / 2 ^ 42 % 2 ^ 6)
  exact ⟨rx, ackDue, reasm⟩

theorem flitWhole_reads {s : State} {l vc level : Nat} {pay : List Byte} {y : Link} (there : s.link? l = some y) (vcs : 1 ≤ vc) :
    ∃ z, (s.flitWhole l vc level pay).link? l = some z ∧ z.rxSeq = y.rxSeq ∧ z.ackDue = y.ackDue ∧
      (s.flitWhole l vc level pay).fab.rx = s.fab.rx ++ [(l, parsePacket vc pay)] ∧ SameMem s (s.flitWhole l vc level pay) := by
  have snap : (s.snapCount l vc true).mem = s.mem ∧ (s.snapCount l vc true).fab.rx = s.fab.rx := by
    unfold State.snapCount
    split
    · exact ⟨rfl, rfl⟩
    · exact ⟨rfl, rfl⟩
  obtain ⟨mem, rx⟩ := snap
  have linked := (links_snapCount s l vc true l).trans there
  unfold State.flitWhole
  generalize s.snapCount l vc true = a at *
  have linked' := link_modLink (fun y => { y with reasm := kvDel (vc * 8 + level) y.reasm }) linked
  have mem' : (a.modLink l (fun y => { y with reasm := kvDel (vc * 8 + level) y.reasm })).mem = s.mem := mem
  have rx' : (a.modLink l (fun y => { y with reasm := kvDel (vc * 8 + level) y.reasm })).fab.rx = s.fab.rx := rx
  generalize a.modLink l (fun y => { y with reasm := kvDel (vc * 8 + level) y.reasm }) = b at *
  unfold State.wholePacket
  rw [if_neg (fun both => absurd both.1 (by omega)), if_neg (fun both => absurd both.1 (by omega))]
  have metered : Aside b (if vc ≠ 0 ∧ (parsePacket vc pay).dstNode = b.nodeId then b.meterFlits (some (parsePacket vc pay).dstPart) 1 else b) := by
    split
    · exact (Aside.refl b).meterFlits
    · exact Aside.refl b
  generalize (if vc ≠ 0 ∧ (parsePacket vc pay).dstNode = b.nodeId then b.meterFlits (some (parsePacket vc pay).dstPart) 1 else b) = c at metered ⊢
  have memC : SameMem b c := fun a => metered.view fun v => v.mem.read a
  have rxC : c.fab.rx = b.fab.rx := metered.view fun v => v.fab.rx
  exact ⟨_, (metered.links l).trans linked', rfl, rfl, congrArg (· ++ [(l, parsePacket vc pay)]) (rxC.trans rx'), fun a => (memC a).trans
      (congrArg (·.read a) mem')⟩

/-! ### Flits replayed -/

/-- A flit sent again. -/
def SentFlit.again (g : SentFlit) (now : Nat) : SentFlit := { g with replays := g.replays + 1, sentAt := now }

theorem again_kept {now : Nat} (n : Nat) (l : List SentFlit) :
    (l.zipIdx n).map (fun f => { f.1 with replays := f.1.replays + 1, sentAt := now, widthChg := f.1.widthChg || (false && f.2 == 0) }) = l.map
        (·.again now) := by
  induction l generalizing n with
  | nil => rfl
  | cons g l ih =>
    rw [List.zipIdx_cons, List.map_cons, ih]
    refine congrArg (· :: _) ?_
    show ({ g with replays := g.replays + 1, sentAt := now, widthChg := g.widthChg || (false && n == 0) } : SentFlit) = g.again now
    rw [Bool.false_and, Bool.or_false]
    rfl

theorem execReplayTimeout_early {s : State} {l : Nat} {x : Link} {f : SentFlit} {fs : List SentFlit} (there : s.link? l = some x)
    (held : x.unacked = f :: fs)
    (early : s.now < f.sentAt + 2000) : exec (.replayTimeout l) s = .next s := by
  show execReplayTimeout l s = _
  unfold execReplayTimeout
  rw [there]
  dsimp only
  rw [held]
  exact if_neg (by omega)

/-- The node that sends its unacknowledged flits again. -/
def State.replayed (s : State) (l : Nat) (x : Link) : State :=
  let kept := x.unacked.map (·.again s.now)
  let s := s.modLink l (fun y => { y with
    unacked := kept
    widthChg := false })
  let s := s.modFab (fun f => { f with tx := f.tx ++ kept.map (fun f => f.tx l x) })
  let s := ((s.bump (cFabPTxFlits (lanePort l)) kept.length).bump (cFabPRetries (lanePort l)) kept.length).modLink l
    (fun y => { y with busyNs := y.busyNs + (kept.filter (fun f => f.vc != 0)).length * y.flitTime })
  kept.foldl (fun (t : State) f => t.meterFlits f.part 1) s

theorem execReplayTimeout_due {s : State} {l : Nat} {x : Link} {f : SentFlit} {fs : List SentFlit} (there : s.link? l = some x)
    (held : x.unacked = f :: fs)
    (due : f.sentAt + 2000 ≤ s.now) (few : ∀ g ∈ x.unacked, g.replays < 7) (narrow : x.widthChg = false) :
    exec (.replayTimeout l) s = .next (s.replayed l x) := by
  show execReplayTimeout l s = _
  unfold execReplayTimeout
  rw [there]
  dsimp only
  rw [held]
  refine (if_pos due).trans (congrArg Host.Outcome.next ?_)
  unfold State.replay
  rw [there]
  dsimp only
  rw [if_neg (by rw [held]; exact Bool.false_ne_true), narrow, again_kept 0]
  refine (if_neg ?_).trans rfl
  rw [Bool.not_eq_true, List.any_eq_false]
  intro g there
  obtain ⟨e, sent, rfl⟩ := List.mem_map.mp there
  have := few e sent
  show ¬ decide (8 ≤ e.replays + 1) = true
  rw [decide_eq_true_eq]
  omega

theorem replayed_reads {s : State} {l : Nat} {x : Link} (there : s.link? l = some x) :
    ∃ y, (s.replayed l x).link? l = some y ∧ y.unacked = x.unacked.map (·.again s.now) ∧
      (s.replayed l x).fab.tx = s.fab.tx ++ (x.unacked.map (·.again s.now)).map (fun f => f.tx l x) ∧ SameMem s (s.replayed l x) := by
  unfold State.replayed
  generalize x.unacked.map (·.again s.now) = kept
  dsimp only
  have linked : ((s.modLink l (fun y => { y with
      unacked := kept
      widthChg := false })).modFab (fun f => { f with tx := f.tx ++ kept.map (fun f => f.tx l x) })).link? l = some { x with
        unacked := kept
        widthChg := false } := link_modLink _ there
  have sent : ((s.modLink l (fun y => { y with
      unacked := kept
      widthChg := false })).modFab (fun f => { f with tx := f.tx ++ kept.map (fun f => f.tx l x) })).fab.tx = s.fab.tx ++ kept.map
          (fun f => f.tx l x) := rfl
  have same : SameMem s ((s.modLink l (fun y => { y with
      unacked := kept
      widthChg := false })).modFab (fun f => { f with tx := f.tx ++ kept.map (fun f => f.tx l x) })) := fun _ => rfl
  generalize (s.modLink l (fun y => { y with
    unacked := kept
    widthChg := false })).modFab (fun f => { f with tx := f.tx ++ kept.map (fun f => f.tx l x) }) = a at *
  have counted : Aside a ((a.bump (cFabPTxFlits (lanePort l)) kept.length).bump (cFabPRetries (lanePort l)) kept.length) := (Aside.refl a).bump.bump
  generalize (a.bump (cFabPTxFlits (lanePort l)) kept.length).bump (cFabPRetries (lanePort l)) kept.length = b at *
  have metered : Aside (b.modLink l (fun y => { y with busyNs := y.busyNs + (kept.filter (fun f => f.vc != 0)).length * y.flitTime }))
      (kept.foldl (fun (t : State) f => t.meterFlits f.part 1)
          (b.modLink l (fun y => { y with busyNs := y.busyNs + (kept.filter (fun f => f.vc != 0)).length * y.flitTime }))) :=
    (Aside.refl _).foldl fun _ _ h => h.meterFlits
  refine ⟨_, (metered.links l).trans (link_modLink _ ((counted.links l).trans linked)), rfl, ?_, fun a => ?_⟩
  · exact (metered.view fun v => v.fab.tx).trans (((counted.view fun v => v.fab.tx : _ = _)).trans sent)
  · exact (metered.view fun v => v.mem.read a).trans (((counted.view fun v => v.mem.read a : _ = _)).trans (same a))

/-! ### Flits sent -/

/-- The flit that a link sends: what it carries of a packet is cut off with the free value of its time. -/
def Link.flit (x : Link) (l kind vc level : Nat) (last : Bool) (marker : Option Nat) (pkt : Option (Packet × Nat × Option Nat)) (pad : Nat)
    : TxFlit :=
  { lane := l, kind := kind, vc := vc, level := level, last := last, lseq := if kind = 0 then 0 else x.txSeq, ack := (x.rxSeq + 4095) % 4096, nak := x.nakDue,
    widthChg := x.widthChg, marker := marker
    cr := match x.returns with
      | r :: _ => (r.1, r.2.1, min 63 r.2.2)
      | [] => (0, 0, 0)
    carried := match pkt with
      | some k => pieceOf k.1 pad k.2.1
      | none => []
    pad := pad }

/-- `t` follows `s` by a flit `f` of the kind given that link `l`, which was `x`, has sent. -/
structure FlitSent (s t : State) (l : Nat) (x : Link) (kind : Nat) (f : TxFlit) (y : Link) : Prop where
  tx : t.fab.tx = s.fab.tx ++ [f]
  sentOut : t.fab.sentOut = s.fab.sentOut
  link : t.link? l = some y
  quiet : y.nakDue = false ∧ y.ackDue = false ∧ y.widthChg = false
  queues : y.markers = x.markers ∧ y.vc0q = x.vc0q
  null : kind = 0 → y.unacked = x.unacked ∧ y.txSeq = x.txSeq
  next : kind ≠ 0 → y.txSeq = (x.txSeq + 1) % 4096

theorem FlitSent.aside {s t u : State} {l : Nat} {x : Link} {kind : Nat} {f : TxFlit} {y : Link} (h : FlitSent s t l x kind f y) (a : Aside t u) :
    FlitSent s u l x kind f y :=
  { h with
    tx := (a.view fun v => v.fab.tx : _ = _).trans h.tx
    sentOut := (a.view fun v => v.fab.sentOut : _ = _).trans h.sentOut
    link := (a.links l).trans h.link }

theorem putFlit_sent {s : State} {l : Nat} {x : Link} (there : s.link? l = some x) (kind vc level : Nat) (last : Bool) (marker : Option Nat)
    (pkt : Option (Packet × Nat × Option Nat)) : ∃ y, FlitSent s (s.putFlit l kind vc level last marker pkt) l x kind
        (x.flit l kind vc level last marker pkt s.free) y := by
  unfold State.putFlit
  rw [there]
  dsimp only
  refine ⟨?_, FlitSent.aside ?base ((Aside.refl _).bump.meterFlits)⟩
  case base =>
    refine ⟨rfl, rfl, ?link, ⟨?_, ?_, ?_⟩, ⟨?_, ?_⟩, fun null => ?null, fun carries => ?next⟩
    case link =>
      show ((s.putFree (s.free + 1)).modLink l _).link? l = some _
      exact link_modLink _ there
    case null =>
      refine ⟨?_, if_pos null⟩
      dsimp only
      rw [if_pos null, List.append_nil]
    case next => exact if_neg carries
    all_goals rfl

/-! ### Slots of the egress -/

/-- The node as a slot finds it. -/
def State.slotted (s : State) (l : Nat) : State := ((s.promote).markLinkHeads l).markGated l

section
variable {s : State} {l : Nat} {x : Link} (there : (s.slotted l).link? l = some x) (trained : 2 ≤ x.state) (live : x.state ≠ 5)
include there trained live

theorem execLinkEgressSlot_width (owed : x.widthChg = true) (room : x.unacked.length < 2048) :
    exec (.linkEgressSlot l) s = .next ((s.slotted l).putFlit l 3 0 0 false none) := by
  show execLinkEgressSlot l s = _
  unfold execLinkEgressSlot
  rw [show ((s.promote).markLinkHeads l).markGated l = s.slotted l from rfl]
  dsimp only
  rw [there]
  dsimp only
  refine (if_neg (by omega)).trans (if_pos ?_)
  rw [owed, decide_eq_true room]
  rfl

theorem execLinkEgressSlot_answer (narrow : x.widthChg = false) (owed : x.nakDue = true ∨ x.ackDue = true) :
    exec (.linkEgressSlot l) s = .next ((s.slotted l).putFlit l 0 0 0 false none) := by
  show execLinkEgressSlot l s = _
  unfold execLinkEgressSlot
  rw [show ((s.promote).markLinkHeads l).markGated l = s.slotted l from rfl]
  dsimp only
  rw [there]
  dsimp only
  refine (if_neg (by omega)).trans ((if_neg ?_).trans (if_pos ?_))
  · rw [narrow]
    exact Bool.false_ne_true
  · rw [Bool.or_eq_true]
    exact owed

variable (narrow : x.widthChg = false) (nak : x.nakDue = false) (ack : x.ackDue = false) (room : x.unacked.length < 2048)
include narrow nak ack room

theorem execLinkEgressSlot_marker {m : Nat × Nat} {ms : List (Nat × Nat)} (first : x.markers = m :: ms) :
    exec (.linkEgressSlot l) s = .next (((s.slotted l).modLink l (fun y => { y with markers := ms })).putFlit l 3 m.1 0 false (some m.2)) := by
  show execLinkEgressSlot l s = _
  unfold execLinkEgressSlot
  rw [show ((s.promote).markLinkHeads l).markGated l = s.slotted l from rfl]
  dsimp only
  rw [there]
  dsimp only
  refine (if_neg (by omega)).trans ((if_neg ?_).trans ((if_neg ?_).trans ((if_neg (by omega)).trans ?_)))
  · rw [narrow]
    exact Bool.false_ne_true
  · rw [nak, ack]
    exact Bool.false_ne_true
  · rw [first]

/-- The node that has sent a packet of VC0. -/
def State.sentVc0 (s : State) (l : Nat) (e : EgPacket) (es : List EgPacket) : State :=
  let s := s.modLink l (fun y => { (y.takeCredit 0 e.level) with
    vc0q := es
    vc0Run := y.vc0Run })
  let s := (s.putFlit l 1 0 e.level true none (some ({ e.pkt with hops := e.level }, 0, if e.lane.isSome then none else payerOf e.pkt))).bump
      (cFabPVc0Flits (lanePort l)) 1
  let s := match e.lane with
    | some l => (s.bump cFabTransitFlits 1).freeSpace l 0 (e.level - 1) 1
    | none => s
  s.modFab (fun f => { f with sentOut := f.sentOut ++ [(l, { e.pkt with hops := e.level })] })

theorem execLinkEgressSlot_vc0 {e : EgPacket} {es : List EgPacket} (none : x.markers = []) (first : x.vc0q = e :: es)
    (credit : s.hasCredit x 0 e.level = true) (quiet : x.isUp = false ∨ (s.slotted l).dataReady l x = false) :
    exec (.linkEgressSlot l) s = .next ((s.slotted l).sentVc0 l e es) := by
  show execLinkEgressSlot l s = _
  unfold execLinkEgressSlot
  rw [show ((s.promote).markLinkHeads l).markGated l = s.slotted l from rfl]
  dsimp only
  rw [there]
  dsimp only
  have idle : (x.isUp && (s.slotted l).dataReady l x) = false := by
    rcases quiet with h | h
    · rw [h, Bool.false_and]
    · rw [h, Bool.and_false]
  refine (if_neg (by omega)).trans ((if_neg ?_).trans ((if_neg ?_).trans ((if_neg (by omega)).trans ?_)))
  · rw [narrow]
    exact Bool.false_ne_true
  · rw [nak, ack]
    exact Bool.false_ne_true
  · rw [none, first]
    dsimp only
    rw [idle]
    refine (if_pos ?_).trans rfl
    have credit' : (s.slotted l).hasCredit x 0 e.level = true := credit
    rw [credit']
    rfl

theorem execLinkEgressSlot_data {e : EgPacket} (none : x.markers = []) (empty : x.vc0q = []) (up : x.isUp = true)
    (first : x.active.find? (fun e => (s.slotted l).hasCredit x e.pkt.vc e.level) = some e) :
    exec (.linkEgressSlot l) s = .next ((s.slotted l).sendData l e) := by
  show execLinkEgressSlot l s = _
  unfold execLinkEgressSlot
  rw [show ((s.promote).markLinkHeads l).markGated l = s.slotted l from rfl]
  dsimp only
  rw [there]
  dsimp only
  refine (if_neg (by omega)).trans ((if_neg ?_).trans ((if_neg ?_).trans ((if_neg (by omega)).trans ?_)))
  · rw [narrow]
    exact Bool.false_ne_true
  · rw [nak, ack]
    exact Bool.false_ne_true
  · rw [none, empty]
    refine (if_pos up).trans (congrArg Host.Outcome.next ?_)
    unfold State.sendSlot
    rw [first]

end

theorem freeSpace_link {s : State} {l : Nat} {x : Link} (there : s.link? l = some x) (n vc level k : Nat) :
    ∃ r, (s.freeSpace n vc level k).link? l = some { x with returns := r } ∧ (s.freeSpace n vc level k).fab.tx = s.fab.tx ∧
      (s.freeSpace n vc level k).fab.sentOut = s.fab.sentOut := by
  unfold State.freeSpace
  split
  · exact ⟨x.returns, there, rfl, rfl⟩
  · by_cases same : l = n
    · subst same
      exact ⟨_, link_modLink _ there, rfl, rfl⟩
    · refine ⟨x.returns, ?_, rfl, rfl⟩
      exact (kvGet?_upd n l _ s.fab.links).trans ((if_neg same).trans there)

theorem FlitSent.freeSpace {s t : State} {l : Nat} {x : Link} {kind : Nat} {f : TxFlit} {y : Link} (h : FlitSent s t l x kind f y)
    (n vc level k : Nat) :
    ∃ z, FlitSent s (t.freeSpace n vc level k) l x kind f z := by
  obtain ⟨r, link, tx, sentOut⟩ := freeSpace_link h.link n vc level k
  exact ⟨_, tx.trans h.tx, sentOut.trans h.sentOut, link, h.quiet, h.queues, h.null, h.next⟩

/-- A packet in transit gives back the room that it held. -/
theorem FlitSent.leave {s t : State} {l : Nat} {x : Link} {kind : Nat} {f : TxFlit} {y : Link} (h : FlitSent s t l x kind f y) (lane : Option Nat)
    (vc level k : Nat) :
    ∃ z, FlitSent s (match lane with
      | some n => (t.bump cFabTransitFlits 1).freeSpace n vc level k
      | none => t) l x kind f z := by
  cases lane with
  | none => exact ⟨y, h⟩
  | some n => exact (h.aside (Aside.refl _).bump).freeSpace n vc level k

theorem sentVc0_reads {s : State} {l : Nat} {x : Link} (there : s.link? l = some x) (e : EgPacket) (es : List EgPacket) :
    ∃ f y, (s.sentVc0 l e es).fab.tx = s.fab.tx ++ [f] ∧ f.kind = 1 ∧ f.vc = 0 ∧ f.last = true ∧ f.carried = pieceOf { e.pkt with
        hops := e.level } f.pad 0 ∧
      (s.sentVc0 l e es).link? l = some y ∧ y.vc0q = es ∧
          (s.sentVc0 l e es).fab.sentOut = s.fab.sentOut ++ [(l, { e.pkt with hops := e.level })] := by
  obtain ⟨y, sent⟩ := putFlit_sent (link_modLink (fun y => { (y.takeCredit 0 e.level) with
    vc0q := es
    vc0Run := y.vc0Run }) there) 1 0 e.level true none (some ({ e.pkt with hops := e.level }, 0, if e.lane.isSome then none else payerOf e.pkt))
  obtain ⟨z, sent'⟩ := (sent.aside (Aside.refl _).bump).leave e.lane 0 (e.level - 1) 1
  refine ⟨_, z, sent'.tx, rfl, rfl, rfl, rfl, sent'.link, sent'.queues.2, ?_⟩
  exact congrArg (· ++ [(l, ({ e.pkt with hops := e.level } : Packet))]) sent'.sentOut

theorem tx_overrun (s : State) (c : Prop) [Decidable c] (o : Nat) : (if c then s.bump o 1 else s).fab.tx = s.fab.tx := by
  split
  · exact (Aside.refl s).bump.view fun v => v.fab.tx
  · rfl

theorem sendData_reads {s : State} {l : Nat} {x : Link} (there : s.link? l = some x) (e : EgPacket) :
    ∃ f, (s.sendData l e).fab.tx = s.fab.tx ++ [f] ∧ f.kind = (if e.sent = 0 then 1 else 2) ∧ f.vc = e.pkt.vc ∧ f.level = e.level ∧
      f.last = decide (e.sent + 1 = flitsOf e.pkt) ∧ f.carried = pieceOf { e.pkt with hops := e.level } f.pad e.sent := by
  obtain ⟨y, sent⟩ := putFlit_sent (link_modLink (fun x => { (x.takeCredit e.pkt.vc e.level) with
    active := if decide (e.sent + 1 = flitsOf e.pkt) then x.active.erase e else x.active.map
        (fun a => if a = e then { a with sent := a.sent + 1 } else a)
    busyNs := x.busyNs + x.flitTime
    vc0Run := (false :: x.vc0Run).take 64 }) there) (if e.sent = 0 then 1 else 2) e.pkt.vc e.level (decide (e.sent + 1 = flitsOf e.pkt)) none
    (some ({ e.pkt with hops := e.level }, e.sent, if e.lane.isSome then none else payerOf e.pkt))
  obtain ⟨z, sent'⟩ := sent.leave e.lane e.pkt.vc (e.level - 1) 1
  refine ⟨_, Eq.trans ?_ sent'.tx, rfl, rfl, rfl, rfl, rfl⟩
  unfold State.sendData
  rw [there]
  dsimp only
  split
  · exact tx_overrun _ _ _
  · rfl

/-! ### Packets put together -/

theorem execReassemblyTimeout_eq {s : State} {l vc level : Nat} {x : Link} {r : Reasm} (there : s.link? l = some x)
    (held : kvGet? (vc * 8 + level) x.reasm = some r) :
    exec (.reassemblyTimeout l vc level) s = if r.since + 100000 ≤ s.now then
      .next (((s.modLink l (fun y => { y with reasm := kvDel (vc * 8 + level) y.reasm })).freeSpace l vc level r.flits).dropFab) else .next s := by
  show execReassemblyTimeout l vc level s = _
  unfold execReassemblyTimeout
  have held' : (s.link? l).bind (fun x => kvGet? (vc * 8 + level) x.reasm) = some r := by
    rw [there]
    exact held
  rw [held']

theorem freeSpace_linksOnly (s : State) (n vc level k : Nat) : LinksOnly s (s.freeSpace n vc level k) := by
  unfold State.freeSpace
  split
  · exact ⟨rfl, rfl, rfl, rfl⟩
  · exact ⟨rfl, rfl, rfl, rfl⟩

theorem execReassemblyTimeout_due {s : State} {l vc level : Nat} {x : Link} {r : Reasm} (there : s.link? l = some x)
    (held : kvGet? (vc * 8 + level) x.reasm = some r)
    (due : r.since + 100000 ≤ s.now) (below : s.ctr cFabDrops + 1 < 2 ^ 48 - 1) : ∃ t y, exec (.reassemblyTimeout l vc level)
        s = .next t ∧ t.link? l = some y ∧
      kvGet? (vc * 8 + level) y.reasm = none ∧ t.ctr cFabDrops = s.ctr cFabDrops + 1 ∧ t.mem = s.mem := by
  rw [execReassemblyTimeout_eq there held, if_pos due]
  have linked := link_modLink (fun y => { y with reasm := kvDel (vc * 8 + level) y.reasm }) there
  have same : LinksOnly s (s.modLink l (fun y => { y with reasm := kvDel (vc * 8 + level) y.reasm })) := ⟨rfl, rfl, rfl, rfl⟩
  generalize s.modLink l (fun y => { y with reasm := kvDel (vc * 8 + level) y.reasm }) = a at *
  obtain ⟨y, linked', -, -⟩ := freeSpace_link linked l vc level r.flits
  have kept := freeSpace_linksOnly a l vc level r.flits
  generalize a.freeSpace l vc level r.flits = b at *
  have drops : b.ctr cFabDrops = s.ctr cFabDrops := kept.drops.trans same.drops
  refine ⟨_, _, rfl, ((Aside.refl b).bump.links l).trans linked', kvGet?_del_self _ _, ?_, ?_⟩
  · show (b.bump cFabDrops 1).ctr cFabDrops = _
    rw [State.ctr_bump_self b cFabDrops 1 (by rw [drops]; exact below), drops]
  · show (b.bump cFabDrops 1).mem = s.mem
    simp only [State.bump_reads]
    exact kept.mem.trans same.mem

/-! ### Markers -/

/-- Some channel of the snapshot is open. -/
def State.recording (s : State) : Prop := ∃ o ∈ s.fab.snapCh, o.2.closed = false

theorem snapSettle_recording {s : State} (open_ : s.recording) : s.snapSettle = s := by
  unfold State.snapSettle
  obtain ⟨o, there, opened⟩ := open_
  refine if_pos (.inr (List.any_eq_true.mpr ⟨o, there, ?_⟩))
  rw [opened]
  rfl

theorem mem_kvPut_ne {α : Type} {k : Nat} (v : α) {m : KV α} {o : Nat × α} (there : o ∈ m) (other : o.1 ≠ k) : o ∈ kvPut k v m := by
  induction m with
  | nil => exact absurd there (List.not_mem_nil)
  | cons e m ih =>
    obtain ⟨j, w⟩ := e
    unfold kvPut
    rcases List.mem_cons.mp there with rfl | there
    · split
      · exact List.mem_cons_of_mem _ List.mem_cons_self
      · rw [if_neg fun same => other same.symm]
        exact List.mem_cons_self
    · split
      · exact List.mem_cons_of_mem _ (List.mem_cons_of_mem _ there)
      · split
        · exact List.mem_cons_of_mem _ there
        · exact List.mem_cons_of_mem _ (ih there)

theorem mem_kvUpd_ne {α : Type} {k : Nat} (f : α → α) {m : KV α} {o : Nat × α} (there : o ∈ m) (other : o.1 ≠ k) : o ∈ kvUpd k f m := by
  unfold kvUpd
  split
  · exact mem_kvPut_ne _ there other
  · exact there

/-- The node that has closed a channel of the snapshot. -/
def State.closed (s : State) (ch : Nat) : State := s.modFab
    (fun f => { f with snapCh := kvUpd ch (fun (c : SnapCh) => { c with closed := true }) f.snapCh })

theorem closed_settle {s : State} {ch : Nat} {o : Nat × SnapCh} (there : o ∈ s.fab.snapCh) (other : o.1 ≠ ch) (opened : o.2.closed = false) :
    (s.closed ch).snapSettle = s.closed ch :=
  snapSettle_recording ⟨o, mem_kvUpd_ne _ there other, opened⟩

theorem execMarkerArrival_up {s : State} {l : Nat} {x : Link} (there : s.link? l = some x) (up : x.isUp = true) (vc id : Nat) :
    exec (.markerArrival l vc id) s = .next (s.markerIn l vc id) := by
  show execMarkerArrival l vc id s = _
  unfold execMarkerArrival
  rw [there]
  exact if_pos up

theorem execMarkerArrival_down {s : State} {l : Nat} {x : Link} (there : s.link? l = some x) (down : x.isUp = false) (vc id : Nat) :
    exec (.markerArrival l vc id) s = .next s := by
  show execMarkerArrival l vc id s = _
  unfold execMarkerArrival
  rw [there]
  exact if_neg (by rw [down]; exact Bool.false_ne_true)

theorem markerIn_closes {s : State} {l vc id : Nat} {o : Nat × SnapCh} (on : s.fld rFabSnapStatus fFabSnapStatus_STATE = 1) (same : s.fab.snapId = id)
    (there : o ∈ s.fab.snapCh) (other : o.1 ≠ l * 8 + vc) (opened : o.2.closed = false) : s.markerIn l vc id = s.closed (l * 8 + vc) := by
  unfold State.markerIn
  refine (if_pos ⟨by omega, same⟩).trans ?_
  exact closed_settle there other opened

/-- The channels that a snapshot opens on the links given. -/
def snapChannels (ls : List Nat) (m : KV SnapCh) : KV SnapCh :=
  ls.foldl (fun (m : KV SnapCh) l => (List.range 7).foldl
      (fun (m : KV SnapCh) v => kvPut (l * 8 + v) { closed := false, lost := false, packets := 0, flits := 0 } m) m) m

theorem kvGet?_fold_kept {α β : Type} {f : KV α → β → KV α} {k : Nat} {c : α} (l : List β)
    (keep : ∀ m b, kvGet? k m = some c → kvGet? k (f m b) = some c) {m : KV α}
    (held : kvGet? k m = some c) : kvGet? k (l.foldl f m) = some c := by
  induction l generalizing m with
  | nil => exact held
  | cons b l ih => exact ih (keep m b held)

theorem kvGet?_fold_set {α β : Type} {f : KV α → β → KV α} {k : Nat} {c : α} {l : List β} {b : β} (there : b ∈ l)
    (keep : ∀ m b, kvGet? k m = some c → kvGet? k (f m b) = some c) (set : ∀ m, kvGet? k (f m b) = some c) (m : KV α) : kvGet? k (l.foldl f m)
        = some c := by
  induction l generalizing m with
  | nil => exact absurd there List.not_mem_nil
  | cons a l ih =>
    rcases List.mem_cons.mp there with rfl | there
    · exact kvGet?_fold_kept l keep (set m)
    · exact ih there _

theorem kvGet?_put_kept {α : Type} {k j : Nat} {c : α} {m : KV α} (held : kvGet? k m = some c) : kvGet? k (kvPut j c m) = some c := by
  rw [kvGet?_put]
  split
  · rfl
  · exact held

theorem snapChannels_opens {ls : List Nat} {l v : Nat} (there : l ∈ ls) (small : v < 7) :
    kvGet? (l * 8 + v) (snapChannels ls []) = some { closed := false, lost := false, packets := 0, flits := 0 } := by
  refine kvGet?_fold_set there (fun m b held => ?_) (fun m => ?_) []
  · exact kvGet?_fold_kept _ (fun m v held => kvGet?_put_kept held) held
  · exact kvGet?_fold_set (List.mem_range.mpr small) (fun m v held => kvGet?_put_kept held) (fun m => kvGet?_put_self (l * 8 + v) _ m) m

/-- A node that begins a snapshot, before it settles. -/
def State.snapStarted (s : State) (id : Nat) : State :=
  let s := (s.drogue 1 id).1
  let ls := s.upLinks
  let s := s.modFab (fun f => { f with
    snapId := id
    snapCh := snapChannels ls [] })
  let s := s.setReg rFabSnapStatus (packFields [(fFabSnapStatus_SNAP_ID, id), (fFabSnapStatus_STATE, 1)])
  ls.foldl (fun (t : State) l => t.modLink l (fun x => { x with markers := x.markers ++ (List.range 7).map (fun v => (v, id)) })) s

theorem snapBegin_eq (s : State) (id : Nat) : s.snapBegin id = (s.snapStarted id).snapSettle := rfl

theorem foldl_modLink_reads (ls : List Nat) (f : Nat → Link → Link) (s : State) :
    (ls.foldl (fun (t : State) l => t.modLink l (f l)) s).fab.snapId = s.fab.snapId ∧
        (ls.foldl (fun (t : State) l => t.modLink l (f l)) s).fab.snapCh = s.fab.snapCh := by
  induction ls generalizing s with
  | nil => exact ⟨rfl, rfl⟩
  | cons l ls ih => exact ih _

theorem snapStarted_reads (s : State) (id : Nat) :
    (s.snapStarted id).fab.snapId = id ∧ (s.snapStarted id).fab.snapCh = snapChannels s.upLinks [] := by
  have links : (s.drogue 1 id).1.upLinks = s.upLinks := (Aside.refl s).drogue.view State.upLinks
  unfold State.snapStarted
  dsimp only
  rw [links]
  exact foldl_modLink_reads _ _ _

theorem mem_upLinks {s : State} {l : Nat} {x : Link} (there : s.link? l = some x) (up : x.isUp = true) : l ∈ s.upLinks :=
  List.mem_map.mpr ⟨(l, x), List.mem_filter.mpr ⟨kvGet?_mem there, up⟩, rfl⟩

theorem markerIn_begins {s : State} {l vc id : Nat} {x : Link} (there : s.link? l = some x) (up : x.isUp = true)
    (off : s.fld rFabSnapStatus fFabSnapStatus_STATE = 0)
    (free : s.snapFree = true) : (s.markerIn l vc id).fab.snapId = id := by
  unfold State.markerIn
  dsimp only
  rw [if_neg (fun on => on.1 off), if_pos free]
  have linked : (if (s.coll? id).isSome then s else s.openColl id 4 0 none false).link? l = some x := by
    split
    · exact there
    · exact there
  generalize (if (s.coll? id).isSome then s else s.openColl id 4 0 none false) = a at *
  obtain ⟨named, channels⟩ := snapStarted_reads a id
  have opens : ∀ v < 7, ((l * 8 + v, { closed := false, lost := false, packets := 0, flits := 0 }) : Nat × SnapCh) ∈
      (a.snapStarted id).fab.snapCh := fun v small => by
    rw [channels]
    exact kvGet?_mem (snapChannels_opens (mem_upLinks linked up) small)
  rw [snapBegin_eq, snapSettle_recording ⟨_, opens 0 (by decide), rfl⟩]
  show ((a.snapStarted id).closed (l * 8 + vc)).snapSettle.fab.snapId = id
  by_cases first : vc = 0
  · rw [closed_settle (opens 1 (by decide)) (by show l * 8 + 1 ≠ l * 8 + vc; omega) rfl]
    exact named
  · rw [closed_settle (opens 0 (by decide)) (by show l * 8 + 0 ≠ l * 8 + vc; omega) rfl]
    exact named

/-- A message of a collective leaves the snapshot and the counters. -/
structure SnapKept (s t : State) : Prop where
  id : t.fab.snapId = s.fab.snapId
  channels : t.fab.snapCh = s.fab.snapCh
  bad : t.fab.snapBad = s.fab.snapBad
  ctr : ∀ o, t.ctr o = s.ctr o

theorem SnapKept.sendColl {s t : State} (h : SnapKept s t) (dst kind id op count lost mask : Nat) (data : List Byte) :
    SnapKept s (t.sendColl dst kind id op count lost mask data) := by
  unfold State.sendColl
  have sent := Sends.handPacket (s := t.modFab (fun f => { f with seqNo := (t.fab.seqNo + 1) % 2 ^ 32 }))
    { vc := 6, ptype := 4, opcode := kind, dstNode := dst, srcNode := (t.modFab (fun f => { f with
        seqNo := (t.fab.seqNo + 1) % 2 ^ 32 })).nodeId, seq := t.fab.seqNo, length := 32 + data.length,
      dist := (t.modFab (fun f => { f with seqNo := (t.fab.seqNo + 1) % 2 ^ 32 })).distTo dst, args := [id, op, count, lost, mask], data := data }
  exact ⟨(sent.view fun v => v.fab.snapId : _ = _).trans h.id, (sent.view fun v => v.fab.snapCh : _ = _).trans h.channels,
    (sent.view fun v => v.fab.snapBad : _ = _).trans h.bad, fun o => (sent.ctr o).trans (h.ctr o)⟩

theorem SnapKept.foldl {α : Type} {f : State → α → State} {s t : State} {l : List α} (h : SnapKept s t)
    (step : ∀ u a, SnapKept s u → SnapKept s (f u a)) :
    SnapKept s (l.foldl f t) := by
  induction l generalizing t with
  | nil => exact h
  | cons a l ih => exact ih (step t a h)

/-- The collective that a marker of another snapshot opens only to fail it. -/
def strayColl (s : State) : Coll :=
  { op := 4, rid := none, issuer := false, members := s.fab.topo.length, started := s.now, reports := [], count := 0, lost := 0, data := none, done := false, mask := 0 }

theorem failColl_opened {s : State} {id : Nat} (below : s.ctr cFabCollFails + 1 < 2 ^ 48 - 1) :
    ((s.openColl id 4 0 none false).failColl id scRemoteError 0).ctr cFabCollFails = s.ctr cFabCollFails + 1 ∧
      ((s.openColl id 4 0 none false).failColl id scRemoteError 0).fab.snapId = s.fab.snapId ∧
      ((s.openColl id 4 0 none false).failColl id scRemoteError 0).fab.snapCh = s.fab.snapCh ∧
      ((s.openColl id 4 0 none false).failColl id scRemoteError 0).fab.snapBad = s.fab.snapBad := by
  have there : (s.openColl id 4 0 none false).coll? id = some (strayColl s) := kvGet?_put_self _ _ _
  have sent : SnapKept (((s.openColl id 4 0 none false).dropColl id).bump cFabCollFails 1)
      ((s.openColl id 4 0 none false).failColl id scRemoteError 0) := by
    unfold State.failColl
    rw [there]
    exact SnapKept.foldl ⟨rfl, rfl, rfl, fun _ => rfl⟩ fun u n h => h.sendColl n ckFail id 4 scRemoteError 0 0 []
  have aside : Aside ((s.openColl id 4 0 none false).dropColl id) (((s.openColl id 4 0 none false).dropColl id).bump cFabCollFails 1) :=
      (Aside.refl _).bump
  refine ⟨(sent.ctr _).trans (State.ctr_bump_self _ _ 1 below), sent.id.trans (aside.view fun v => v.fab.snapId), sent.channels.trans
      (aside.view fun v => v.fab.snapCh),
    sent.bad.trans (aside.view fun v => v.fab.snapBad)⟩

theorem markerIn_stray {s : State} {l vc id : Nat} (on : s.fld rFabSnapStatus fFabSnapStatus_STATE = 1) (other : s.fab.snapId ≠ id) :
    s.markerIn l vc id = if !(kvGetD [] id s.fab.snapBad).isEmpty && !(kvGetD [] id s.fab.snapBad).contains (l * 8 + vc) then
        s.modFab (fun f => { f with snapBad := kvPut id ((l * 8 + vc) :: kvGetD [] id s.fab.snapBad) f.snapBad })
      else (if ((s.modFab (fun f => { f with snapBad := kvPut id [l * 8 + vc] f.snapBad })).coll? id).isSome then s.modFab
          (fun f => { f with snapBad := kvPut id [l * 8 + vc] f.snapBad })
        else (s.modFab (fun f => { f with snapBad := kvPut id [l * 8 + vc] f.snapBad })).openColl id 4 0 none false).failColl id scRemoteError 0 := by
  have busy : s.snapFree = false := by
    unfold State.snapFree
    rw [on]
    rfl
  unfold State.markerIn
  dsimp only
  rw [if_neg (fun same => other same.2), busy]
  exact if_neg Bool.false_ne_true

theorem markerIn_stray_first {s : State} {l vc id : Nat} (on : s.fld rFabSnapStatus fFabSnapStatus_STATE = 1) (other : s.fab.snapId ≠ id)
    (first : kvGetD [] id s.fab.snapBad = [])
    (none : s.coll? id = none) (below : s.ctr cFabCollFails + 1 < 2 ^ 48 - 1) :
    (s.markerIn l vc id).ctr cFabCollFails = s.ctr cFabCollFails + 1 ∧ (s.markerIn l vc id).fab.snapId = s.fab.snapId ∧
      (s.markerIn l vc id).fab.snapCh = s.fab.snapCh ∧ kvGetD [] id (s.markerIn l vc id).fab.snapBad = [l * 8 + vc] := by
  have none' : (s.modFab (fun f => { f with snapBad := kvPut id [l * 8 + vc] f.snapBad })).coll? id = Option.none := none
  rw [markerIn_stray on other, first, if_neg (by exact Bool.false_ne_true), none', if_neg (by exact Bool.false_ne_true)]
  obtain ⟨ctr, named, channels, bad⟩ := failColl_opened (s := s.modFab (fun f => { f with snapBad := kvPut id [l * 8 + vc] f.snapBad }))
      (id := id) below
  refine ⟨ctr, named, channels, ?_⟩
  rw [bad]
  show (kvGet? id (kvPut id [l * 8 + vc] s.fab.snapBad)).getD [] = _
  rw [kvGet?_put_self]
  rfl

theorem markerIn_stray_again {s : State} {l vc id b : Nat} {bs : List Nat} (on : s.fld rFabSnapStatus fFabSnapStatus_STATE = 1)
    (other : s.fab.snapId ≠ id)
    (more : kvGetD [] id s.fab.snapBad = b :: bs) (new : l * 8 + vc ∉ b :: bs) :
    s.markerIn l vc id = s.modFab (fun f => { f with snapBad := kvPut id ((l * 8 + vc) :: b :: bs) f.snapBad }) := by
  rw [markerIn_stray on other, more]
  refine if_pos ?_
  rw [List.contains_eq_mem, decide_eq_false new]
  rfl

/-! ### The obligation -/

/-- Settles O40: a flit, a slot, a timer and a marker each change their own link and the snapshot; counts leave the links as they are. -/
theorem lanes : Obligations.Lanes := by
  unfold Obligations.Lanes
  refine ⟨?bad, ?good, ?replay, ?slot, ?reassembly, ?closes, ?begins, ?stray, ?down⟩
  case bad =>
    intro s l flit x there trained live bad
    exact ⟨_, execFlitReceive_bad there trained live bad, link_modLink _ there, rfl, rfl, rfl⟩
  case good =>
    intro s l h flit x there trained live whole crc header nak width
    subst header
    have linked := link_flitTaken (fieldAt flit 0 8) there nak
    have kept := flitTaken_linksOnly s l (fieldAt flit 0 8) nak
    refine ⟨fun none => ?_, fun head last one six next fresh => ?_, fun carries seven next below => ?_⟩
    · rw [execFlitReceive_good there trained live ⟨whole, crc, .inl none⟩ width, flitRest_none none]
      obtain ⟨rx, nakDue, unacked⟩ := tookHeader_none (x := x) none
      exact ⟨_, _, rfl, linked, rx, nakDue, unacked, kept.rx, kept.mem⟩
    · obtain ⟨rx, ackDue, reasm⟩ := tookHeader_carries (x := x) (h := fieldAt flit 0 8) (by omega)
      rw [execFlitReceive_good there trained live ⟨whole, crc, .inr next⟩ width, flitRest_single linked head last (by omega)
          (by rw [reasm]; exact fresh)]
      obtain ⟨y, link, seq, ack, arrived, same⟩ := flitWhole_reads (level := fieldAt flit 0 8 / 64 % 8) (pay := (flit.drop 8).take 244) linked one
      exact ⟨_, y, rfl, link, seq.trans rx, ack.trans ackDue, arrived.trans (by rw [kept.rx]), fun a => (same a).trans (congrArg (·.read a) kept.mem)⟩
    · rw [execFlitReceive_good there trained live ⟨whole, crc, .inr next⟩ width, flitRest_local carries seven]
      have dropped : Aside (s.flitTaken l (fieldAt flit 0 8)) (s.flitTaken l (fieldAt flit 0 8)).dropFab := (Aside.refl _).bump
      refine ⟨_, rfl, ?_, (dropped.view fun v => v.fab.rx : _ = _).trans kept.rx, (dropped.view fun v => v.fab.snapCh : _ = _).trans kept.snapCh, ?_⟩
      · rw [State.dropFab, State.ctr_bump_self _ cFabDrops 1 (by rw [kept.drops]; exact below), kept.drops]
      · rw [State.dropFab]
        simp only [State.bump_reads]
        exact kept.mem
  case replay =>
    intro s l x f fs there held
    refine ⟨execReplayTimeout_early there held, fun due few narrow => ?_⟩
    rw [execReplayTimeout_due there held due few narrow]
    obtain ⟨y, link, unacked, tx, same⟩ := replayed_reads there
    refine ⟨_, y, _, rfl, link, unacked, tx, ?_, ?_, same⟩
    · rw [List.map_map, List.map_map]
      rfl
    · rw [List.map_map, List.map_map]
      rfl
  case slot =>
    intro s u l x slotted there trained live
    subst slotted
    refine ⟨fun owed room => ?_, fun narrow owed => ?_, fun narrow nak ack room =>
        ⟨fun m ms first => ?_, fun none e es first credit quiet => ?_, fun none empty up e first => ?_⟩⟩
    · obtain ⟨y, sent⟩ := putFlit_sent there 3 0 0 false none none
      exact ⟨_, _, y, execLinkEgressSlot_width there trained live owed room, sent.tx, rfl, owed, rfl, sent.link, sent.quiet.2.2, sent.next
          (by decide)⟩
    · obtain ⟨y, sent⟩ := putFlit_sent there 0 0 0 false none none
      exact ⟨_, _, y, execLinkEgressSlot_answer there trained live narrow owed, sent.tx, rfl, rfl, rfl, rfl, sent.link, sent.quiet.1,
          sent.quiet.2.1, (sent.null rfl).1, (sent.null rfl).2⟩
    · obtain ⟨y, sent⟩ := putFlit_sent (link_modLink (fun y => { y with markers := ms }) there) 3 m.1 0 false (some m.2) none
      exact ⟨_, _, y, execLinkEgressSlot_marker there trained live narrow nak ack room first, sent.tx, rfl, rfl, rfl, rfl, sent.link,
          sent.queues.1, sent.next (by decide)⟩
    · obtain ⟨f, y, reads⟩ := sentVc0_reads there e es
      exact ⟨_, f, y, execLinkEgressSlot_vc0 there trained live narrow nak ack room none first credit quiet, reads⟩
    · obtain ⟨f, reads⟩ := sendData_reads there e
      exact ⟨_, f, execLinkEgressSlot_data there trained live narrow nak ack room none empty up first, reads⟩
  case reassembly =>
    intro s l vc level x r there held
    refine ⟨fun early => ?_, execReassemblyTimeout_due there held⟩
    rw [execReassemblyTimeout_eq there held, if_neg (by omega)]
  case closes =>
    intro s l vc id x c o there up on same held other ne opened
    refine ⟨_, (execMarkerArrival_up there up vc id).trans (congrArg _ (markerIn_closes on same other ne opened)), ?_, rfl, rfl⟩
    show kvGet? (l * 8 + vc) (kvUpd (l * 8 + vc) _ s.fab.snapCh) = _
    rw [kvGet?_upd, if_pos rfl, held]
    rfl
  case begins =>
    intro s l vc id x there up off free
    exact ⟨_, execMarkerArrival_up there up vc id, markerIn_begins there up off free⟩
  case stray =>
    intro s l vc id x there up on other
    refine ⟨fun first none below => ⟨_, execMarkerArrival_up there up vc id, markerIn_stray_first on other first none below⟩, fun b bs more new => ?_⟩
    rw [execMarkerArrival_up there up vc id, markerIn_stray_again on other more new]
  case down =>
    intro s l vc id x there down
    exact execMarkerArrival_down there down vc id

end Sys2Proof.Machine
end
section
set_option Elab.async false
/-! SUPPORT. The trim loops (spec/17): what an action of a loop leaves of a node, and the output that it leaves. -/

namespace Sys2Proof.Machine

/-! ### What the loops leave -/

/-- A node without what its trim loops and what they note beside themselves write. -/
def State.untrimmed (s : State) : State :=
  { s.core with
    trims := []
    board := { s.board with
      slackSeen := []
      stackDc := []
      floorMs := none } }

/-- `t` follows `s` by trim loops: the registers of which `R` speaks and whatever lies beside the loops are as they were. -/
structure Trimmed (R : Nat → Prop) (s t : State) : Prop where
  untrimmed : t.untrimmed = s.untrimmed
  mem : t.mem = s.mem
  reg : ∀ x, R x → t.reg x = s.reg x

namespace Trimmed

variable {R : Nat → Prop} {s t u : State}

theorem refl (s : State) : Trimmed R s s := ⟨rfl, rfl, fun _ _ => rfl⟩

theorem trans (h : Trimmed R s t) (g : Trimmed R t u) : Trimmed R s u :=
  ⟨g.untrimmed.trans h.untrimmed, g.mem.trans h.mem, fun x r => (g.reg x r).trans (h.reg x r)⟩

theorem mono {Q : Nat → Prop} (h : Trimmed R s t) (less : ∀ x, Q x → R x) : Trimmed Q s t := ⟨h.untrimmed, h.mem, fun x q => h.reg x (less x q)⟩

theorem view {α : Type} (h : Trimmed R s t) (π : State → α) : π t.untrimmed = π s.untrimmed := congrArg π h.untrimmed

theorem corpora (h : Trimmed R s t) : t.corpora = s.corpora := h.view State.corpora

theorem backstops (h : Trimmed R s t) : t.board.backstops = s.board.backstops := h.view fun v => v.board.backstops

theorem recs (h : Trimmed R s t) : t.recs = s.recs := h.view State.recs

theorem foldl {α : Type} {f : State → α → State} {l : List α} (h : Trimmed R s t) (step : ∀ u, ∀ a ∈ l, Trimmed R u (f u a)) :
    Trimmed R s (l.foldl f t) := by
  induction l generalizing t with
  | nil => exact h
  | cons a l ih => exact ih (h.trans (step t a List.mem_cons_self)) fun u b there => step u b (List.mem_cons_of_mem _ there)

theorem ite {c : Prop} [Decidable c] (h : Trimmed R s t) (g : Trimmed R s u) : Trimmed R s (if c then t else u) := by
  split
  · exact h
  · exact g

theorem of_aside (h : Aside s t) (mem : t.mem = s.mem) (reg : ∀ x, R x → t.reg x = s.reg x) : Trimmed R s t :=
  ⟨congrArg (fun c : State => { c with
    trims := []
    board := { c.board with
      slackSeen := []
      stackDc := []
      floorMs := none } }) h.core, mem, reg⟩

theorem modTrim (l n : Nat) (f : TrimUnit → TrimUnit) : Trimmed R s (s.modTrim l n f) := ⟨rfl, rfl, fun _ _ => rfl⟩

theorem setReg {o : Nat} (w : Word) (other : ¬ R o) : Trimmed R s (s.setReg o w) :=
  ⟨rfl, rfl, fun x r => by rw [State.reg_setReg, if_neg fun (same : x = o) => other (same ▸ r)]⟩

theorem setFld {o : Nat} (f : Fld) (v : Nat) (other : ¬ R o) : Trimmed R s (s.setFld o f v) := setReg _ other

end Trimmed

theorem State.bumpCopy_aside (s : State) (k o n : Nat) : Aside s (s.bumpCopy k o n) := (Aside.refl s).bumpTable

theorem State.mem_bumpCopy (s : State) (k o n : Nat) : (s.bumpCopy k o n).mem = s.mem := by
  unfold State.bumpCopy
  split
  · rfl
  · dsimp only
    split
    · split
      · simp
      · simp
    · simp

theorem State.reg_bumpCopy_unreported {x : Nat} (h : Unreported x) (s : State) (k o n : Nat) : (s.bumpCopy k o n).reg x = s.reg x := by
  have sat : ∀ b, blockIndex o = some b → x ≠ rFltSat b := fun b e => h.sats b (blockIndex_lt _ _ e)
  unfold State.bumpCopy
  split
  · rfl
  · dsimp only
    split
    · split
      · rw [State.reg_event_unbumped h.toUnbumped _ (fun _ => h), State.reg_markSat_ne _ sat, State.reg_rawBump]
      · rw [State.reg_markSat_ne _ sat, State.reg_rawBump]
    · rw [State.reg_rawBump]

namespace Trimmed

variable {s t : State}

theorem bumpCopy (s : State) (k o n : Nat) : Trimmed Unreported s (s.bumpCopy k o n) :=
  of_aside (s.bumpCopy_aside k o n) (s.mem_bumpCopy k o n) fun _ h => State.reg_bumpCopy_unreported h s k o n

theorem drogue (s : State) (a b : Nat) : Trimmed Unreported s (s.drogue a b).1 :=
  of_aside (Aside.refl s).drogue (by simp only [State.drogue_reads]) fun _ h => State.reg_drogue_unbumped h.toUnbumped s a b

theorem trimDrogue (s : State) (l n : Nat) : Trimmed Unreported s (s.trimDrogue l n) := ite (drogue s 6 0) (refl s)

theorem trimAct (s : State) (l n k : Nat) (out : Int) : Trimmed Unreported s (s.trimAct l n k out) :=
  ((modTrim l n _).trans (bumpCopy _ _ _ _)).trans (ite (trimDrogue _ l n) (refl _))

theorem trimAtLimit (s : State) (l n : Nat) : Trimmed Unreported s (s.trimAtLimit l n) := ite (refl s) ((modTrim l n _).trans (trimDrogue _ l n))

theorem trimTo (s : State) (l n : Nat) (raw : Int) : Trimmed Unreported s (s.trimTo l n raw) :=
  ite ((trimAct s l n 3 _).trans (trimAtLimit _ l n)) (ite ((trimAct s l n 4 _).trans (trimAtLimit _ l n)) (ite (refl s) (trimAct s l n _ raw)))

end Trimmed

/-! ### Units of the loops -/

theorem trim_modTrim (s : State) (l n : Nat) (f : TrimUnit → TrimUnit) : (s.modTrim l n f).trim l n = f (s.trim l n) := by
  show (kvGet? (l * 512 + n) (kvPut (l * 512 + n) _ s.trims)).getD _ = _
  rw [kvGet?_put_self]
  rfl

theorem trim_modTrim_ne (s : State) {l n m k : Nat} (f : TrimUnit → TrimUnit) (ne : m * 512 + k ≠ l * 512 + n) :
    (s.modTrim l n f).trim m k = s.trim m k := by
  show (kvGet? (m * 512 + k) (kvPut (l * 512 + n) _ s.trims)).getD _ = _
  rw [kvGet?_put_ne ne]
  rfl

/-- A unit without what an action writes of it. -/
def TrimUnit.rest (u : TrimUnit) : TrimUnit := { u with
  output := 0
  delta := 0
  kind := 0
  last := 0
  atLimit := false }

theorem trim_bumpCopy (s : State) (k o n l m : Nat) : (s.bumpCopy k o n).trim l m = s.trim l m := (s.bumpCopy_aside k o n).view fun v => v.trim l m

theorem trim_trimDrogue (s : State) (l n m k : Nat) : (s.trimDrogue l n).trim m k = s.trim m k := by
  unfold State.trimDrogue
  split
  · exact (Aside.refl s).drogue.view fun v => v.trim m k
  · rfl

theorem trim_trimAct (s : State) (l n k : Nat) (out : Int) :
    (s.trimAct l n k out).trim l n = { s.trim l n with
      output := out
      delta := out - (s.trim l n).output
      kind := k
      last := s.now } := by
  unfold State.trimAct
  dsimp only
  split
  · rw [trim_trimDrogue, trim_bumpCopy, trim_modTrim]
  · rw [trim_bumpCopy, trim_modTrim]

theorem trim_trimAct_ne (s : State) {l n m k : Nat} (kind : Nat) (out : Int) (ne : m * 512 + k ≠ l * 512 + n) :
    (s.trimAct l n kind out).trim m k = s.trim m k := by
  unfold State.trimAct
  dsimp only
  split
  · rw [trim_trimDrogue, trim_bumpCopy, trim_modTrim_ne _ _ ne]
  · rw [trim_bumpCopy, trim_modTrim_ne _ _ ne]

theorem trim_trimAtLimit (s : State) (l n : Nat) : (s.trimAtLimit l n).trim l n = { s.trim l n with atLimit := true } := by
  unfold State.trimAtLimit
  split
  next at_ =>
    rw [← at_]
  · rw [trim_trimDrogue, trim_modTrim]

theorem trim_trimAtLimit_ne (s : State) {l n m k : Nat} (ne : m * 512 + k ≠ l * 512 + n) : (s.trimAtLimit l n).trim m k = s.trim m k := by
  unfold State.trimAtLimit
  split
  · rfl
  · rw [trim_trimDrogue, trim_modTrim_ne _ _ ne]

/-- A value within the limits of its unit, the lower one first. -/
def TrimUnit.clamp (u : TrimUnit) (raw : Int) : Int := if raw < u.lo then u.lo else if u.hi < raw then u.hi else raw

theorem clamp_within {u : TrimUnit} (limits : u.lo ≤ u.hi) (raw : Int) : u.lo ≤ u.clamp raw ∧ u.clamp raw ≤ u.hi := by
  unfold TrimUnit.clamp
  split_ifs
  all_goals omega

theorem trim_trimTo (s : State) (l n : Nat) (raw : Int) :
    ((s.trimTo l n raw).trim l n).rest = (s.trim l n).rest ∧ ((s.trimTo l n raw).trim l n).output = (s.trim l n).clamp raw := by
  unfold State.trimTo TrimUnit.clamp
  dsimp only
  split_ifs with below above same
  · rw [trim_trimAtLimit, trim_trimAct]
    exact ⟨rfl, rfl⟩
  · rw [trim_trimAtLimit, trim_trimAct]
    exact ⟨rfl, rfl⟩
  · exact ⟨rfl, same.symm⟩
  all_goals
    rw [trim_trimAct]
    exact ⟨rfl, rfl⟩

theorem trim_trimTo_ne (s : State) {l n m k : Nat} (raw : Int) (ne : m * 512 + k ≠ l * 512 + n) : (s.trimTo l n raw).trim m k = s.trim m k := by
  unfold State.trimTo
  dsimp only
  split_ifs
  · rw [trim_trimAtLimit_ne _ ne, trim_trimAct_ne _ _ _ ne]
  · rw [trim_trimAtLimit_ne _ ne, trim_trimAct_ne _ _ _ ne]
  · rfl
  all_goals rw [trim_trimAct_ne _ _ _ ne]

/-! ### Voltage loop -/

/-- The units that a loop's steps have moved belong to `l`; no step moves more than an action does. -/
structure Moved (l : List Nat) (s t : State) : Prop where
  kept : Trimmed Unreported s t
  rest : ∀ d, (t.trim 0 d).rest = (s.trim 0 d).rest
  others : ∀ d, d ∉ l → t.trim 0 d = s.trim 0 d

namespace Moved

variable {l m : List Nat} {s t u : State}

theorem refl (s : State) : Moved l s s := ⟨.refl s, fun _ => rfl, fun _ _ => rfl⟩

theorem trans (h : Moved l s t) (g : Moved l t u) : Moved l s u :=
  ⟨h.kept.trans g.kept, fun d => (g.rest d).trans (h.rest d), fun d out => (g.others d out).trans (h.others d out)⟩

theorem mono (h : Moved m s t) (more : m ⊆ l) : Moved l s t := ⟨h.kept, h.rest, fun d out => h.others d fun there => out (more there)⟩

theorem trimTo {d : Nat} (there : d ∈ l) (raw : Int) : Moved l s (s.trimTo 0 d raw) := by
  have other : ∀ e, e ≠ d → (s.trimTo 0 d raw).trim 0 e = s.trim 0 e := fun e ne => trim_trimTo_ne s raw (by omega)
  refine ⟨.trimTo s 0 d raw, fun e => ?_, fun e out => other e fun same => out (same ▸ there)⟩
  by_cases same : e = d
  · subst same
    exact (trim_trimTo s 0 e raw).1
  · rw [other e same]

theorem ite {c : Prop} [Decidable c] (h : Moved l s t) (g : Moved l s u) : Moved l s (if c then t else u) := by
  split
  · exact h
  · exact g

theorem foldl {f : State → Nat → State} (step : ∀ u, ∀ d ∈ l, Moved l u (f u d)) (s : State) : Moved l s (l.foldl f s) := by
  have part : ∀ (m : List Nat) (s : State), m ⊆ l → Moved l s (m.foldl f s) := fun m => by
    induction m with
    | nil => exact fun s _ => refl s
    | cons d m ih => exact fun s sub => (step s d (sub List.mem_cons_self)).trans (ih _ fun _ there => sub (List.mem_cons_of_mem _ there))
  exact part l s fun _ there => there

end Moved

/-- The units of the voltage loop that act. -/
def State.liveUnits (s : State) : List Nat := (List.range 14).filter (fun d => s.domPowered d && !(s.trim 0 d).freeze)

/-- The node after the loop has lowered what exceeds the power limit, or raised what a floor asks for. -/
def State.voltMoved (s : State) (excess : Int) (rates : List Nat) : State :=
  let above := s.liveUnits.filter (fun d => decide ((s.trim 0 d).lo < (s.trim 0 d).output))
  if 0 < excess then
    let free := above.filter (fun d => (s.trim 0 d).floor.isNone)
    (if free.isEmpty then above else free).foldl (fun (t : State) d =>
      let u := t.trim 0 d
      t.trimTo 0 d (u.output - voltStep u.gain excess 100)) s
  else s.liveUnits.foldl (fun (t : State) d =>
    let u := t.trim 0 d
    let lack := match u.floor with
      | some f => f - 10 * ((rates.getD d 0 : Nat) : Int)
      | none => 0
    if 0 < lack then t.trimTo 0 d (u.output + voltStep u.gain lack 10)
    else if excess < -2500 then t.trimTo 0 d (u.output + voltStep u.gain (-excess - 2500) 100)
    else t) s

/-- A unit whose limits were moved past its output follows them. -/
def State.withinLimits (s : State) (d : Nat) : State :=
  if (s.trim 0 d).lo ≤ (s.trim 0 d).output ∧ (s.trim 0 d).output ≤ (s.trim 0 d).hi then s else s.trimTo 0 d (s.trim 0 d).output

theorem voltLoop_eq (s : State) (excess : Int) (rates : List Nat) :
    s.voltLoop excess rates = s.liveUnits.foldl (fun (t : State) d => t.setFld (rNodeDomainStatus d) fNodeDomainStatus_VOLT_MV
        (t.trim 0 d).output.toNat)
      (s.liveUnits.foldl State.withinLimits (s.voltMoved excess rates)) := rfl

theorem voltMoved_moved (s : State) (excess : Int) (rates : List Nat) : Moved s.liveUnits s (s.voltMoved excess rates) := by
  unfold State.voltMoved
  dsimp only
  split
  · refine Moved.mono (m := _) (Moved.foldl (fun u d there => Moved.trimTo there _) s) ?_
    split
    · exact List.filter_sublist.subset
    · exact (List.filter_sublist.trans List.filter_sublist).subset
  · exact Moved.foldl (fun u d there => .ite (.trimTo there _) (.ite (.trimTo there _) (.refl u))) s

theorem withinLimits_moved {l : List Nat} {s : State} {d : Nat} (there : d ∈ l) : Moved l s (s.withinLimits d) := .ite (.refl s) (.trimTo there _)

/-- The output of a unit is within its limits. -/
def State.outputWithin (s : State) (d : Nat) : Prop := (s.trim 0 d).lo ≤ (s.trim 0 d).output ∧ (s.trim 0 d).output ≤ (s.trim 0 d).hi

theorem rest_limits {u v : TrimUnit} (same : u.rest = v.rest) : u.lo = v.lo ∧ u.hi = v.hi ∧ u.input = v.input :=
  ⟨show u.rest.lo = v.rest.lo from congrArg TrimUnit.lo same, show u.rest.hi = v.rest.hi from congrArg TrimUnit.hi same,
    show u.rest.input = v.rest.input from congrArg TrimUnit.input same⟩

theorem outputWithin_withinLimits {s : State} {d : Nat} (limits : (s.trim 0 d).lo ≤ (s.trim 0 d).hi) : (s.withinLimits d).outputWithin d := by
  unfold State.withinLimits
  split
  next already => exact already
  · obtain ⟨rest, output⟩ := trim_trimTo s 0 d (s.trim 0 d).output
    obtain ⟨lo, hi, -⟩ := rest_limits rest
    unfold State.outputWithin
    rw [lo, hi, output]
    exact clamp_within limits _

theorem outputWithin_other {s : State} {d : Nat} (e : Nat) (limits : (s.trim 0 d).lo ≤ (s.trim 0 d).hi) (already : s.outputWithin d) :
    (s.withinLimits e).outputWithin d := by
  by_cases same : d = e
  · subst same
    exact outputWithin_withinLimits limits
  · unfold State.outputWithin
    rw [(withinLimits_moved (l := [e]) List.mem_cons_self).others d (by simpa using same)]
    exact already

theorem outputWithin_fold {l : List Nat} {s : State} {d : Nat} (limits : (s.trim 0 d).lo ≤ (s.trim 0 d).hi) (acts : d ∈ l ∨ s.outputWithin d) :
    (l.foldl State.withinLimits s).outputWithin d := by
  induction l generalizing s with
  | nil => exact acts.elim (fun there => absurd there List.not_mem_nil) id
  | cons e l ih =>
    obtain ⟨lo, hi, -⟩ := rest_limits ((withinLimits_moved (l := [e]) (s := s) List.mem_cons_self).rest d)
    refine ih (by rw [lo, hi]; exact limits) ?_
    rcases acts with there | already
    · rcases List.mem_cons.mp there with rfl | there
      · exact .inr (outputWithin_withinLimits limits)
      · exact .inl there
    · exact .inr (outputWithin_other e limits already)

theorem trim_foldVolt (l : List Nat) (s : State) (n m : Nat) :
    (l.foldl (fun (t : State) d => t.setFld (rNodeDomainStatus d) fNodeDomainStatus_VOLT_MV (t.trim 0 d).output.toNat) s).trim n m = s.trim n m := by
  induction l generalizing s with
  | nil => rfl
  | cons d l ih => exact ih _

/-- The power and rail status registers, which no domain's status is among. -/
def PowerReg (x : Nat) : Prop := x = rNodePowerStatus ∨ x = rNodeRailStatus

theorem unreported_powerReg {x : Nat} (power : PowerReg x) : Unreported x := by
  refine unreported_low ?_
  rcases power with rfl | rfl
  · decide
  · decide

theorem not_powerReg_domain {d : Nat} (small : d < 14) : ¬ PowerReg (rNodeDomainStatus d) := by
  unfold PowerReg rNodeDomainStatus rNodePowerStatus rNodeRailStatus
  omega

theorem liveUnits_small {s : State} {d : Nat} (there : d ∈ s.liveUnits) : d < 14 := List.mem_range.mp (List.mem_filter.mp there).1

theorem mem_liveUnits {s : State} {d : Nat} (small : d < 14) (powered : s.domPowered d = true) (thawed : (s.trim 0 d).freeze = false) :
    d ∈ s.liveUnits := by
  refine List.mem_filter.mpr ⟨List.mem_range.mpr small, ?_⟩
  rw [powered, thawed]
  rfl

/-- The voltage loop keeps the limits of every unit, and a unit that does not act keeps its output. -/
theorem voltLoop_reads (s : State) (excess : Int) (rates : List Nat) :
    Trimmed PowerReg s (s.voltLoop excess rates) ∧ (∀ d, ((s.voltLoop excess rates).trim 0 d).rest = (s.trim 0 d).rest) ∧
      (∀ d, d ∉ s.liveUnits → (s.voltLoop excess rates).trim 0 d = s.trim 0 d) ∧
      ∀ d, (s.trim 0 d).lo ≤ (s.trim 0 d).hi → d ∈ s.liveUnits → (s.voltLoop excess rates).outputWithin d := by
  have first := voltMoved_moved s excess rates
  have second : Moved s.liveUnits (s.voltMoved excess rates) (s.liveUnits.foldl State.withinLimits (s.voltMoved excess rates)) :=
    Moved.foldl (fun _ _ there => withinLimits_moved there) _
  have both := first.trans second
  rw [voltLoop_eq]
  refine ⟨(both.kept.mono fun _ => unreported_powerReg).trans ?_, fun d => ?_, fun d out => ?_, fun d limits there => ?_⟩
  · exact (Trimmed.refl _).foldl fun u d there => .setFld _ _ (not_powerReg_domain (liveUnits_small there))
  · rw [trim_foldVolt]
    exact both.rest d
  · rw [trim_foldVolt]
    exact both.others d out
  · unfold State.outputWithin
    rw [trim_foldVolt]
    obtain ⟨lo, hi, -⟩ := rest_limits (first.rest d)
    exact outputWithin_fold (by rw [lo, hi]; exact limits) (.inl there)

theorem voltLoop_idle {s : State} (idle : s.liveUnits = []) (excess : Int) (rates : List Nat) : s.voltLoop excess rates = s := by
  rw [voltLoop_eq]
  unfold State.voltMoved
  rw [idle]
  dsimp only [List.filter_nil, List.isEmpty_nil, List.foldl_nil]
  split
  · rfl
  · rfl

/-! ### Voltage ticks -/

/-- The node that has noted a domain's rate, power and slack. -/
def State.domNoted (t : State) (d rate power slack : Nat) : State :=
  let t := (t.setFld (rNodeDomainStatus d) fNodeDomainStatus_RATE_PERMIL rate).setFld (rNodeDomainStatus d) fNodeDomainStatus_POWER_DW power
  let t := t.trimInput 0 d ((rate : Nat) : Int)
  if t.domPowered d then t.noteSlack d slack else t

theorem noteSlack_trimmed (s : State) (d slack : Nat) : Trimmed PowerReg s (s.noteSlack d slack) := by
  have other : ¬ PowerReg (rTelDomSlack d) := by
    unfold PowerReg rTelDomSlack rNodePowerStatus rNodeRailStatus
    omega
  unfold State.noteSlack
  dsimp only
  refine Trimmed.trans ?_ ((Trimmed.setFld _ _ other).trans (Trimmed.setFld _ _ other))
  exact ⟨rfl, rfl, fun _ _ => rfl⟩

theorem trim_setFld (s : State) (o : Nat) (f : Fld) (v n m : Nat) : (s.setFld o f v).trim n m = s.trim n m := rfl

theorem board_setFld (s : State) (o : Nat) (f : Fld) (v : Nat) : (s.setFld o f v).board = s.board := rfl

theorem mem_setFld (s : State) (o : Nat) (f : Fld) (v : Nat) : (s.setFld o f v).mem = s.mem := rfl

theorem recs_setFld (s : State) (o : Nat) (f : Fld) (v : Nat) : (s.setFld o f v).recs = s.recs := rfl

theorem trim_noteSlack (s : State) (d slack n m : Nat) : (s.noteSlack d slack).trim n m = s.trim n m := by
  unfold State.noteSlack
  dsimp only
  rw [trim_setFld, trim_setFld]
  rfl

theorem trim_modTrim_input (s : State) (d e : Nat) (v : Int) :
    (s.trimInput 0 d v).trim 0 e = if e = d then { s.trim 0 e with input := v } else s.trim 0 e := by
  split
  next same =>
    subst same
    exact trim_modTrim s 0 e _
  next ne => exact trim_modTrim_ne s _ (by omega)

theorem domNoted_trimmed {d : Nat} (small : d < 14) (s : State) (rate power slack : Nat) : Trimmed PowerReg s (s.domNoted d rate power slack) := by
  have other := not_powerReg_domain small
  have noted : Trimmed PowerReg s (((s.setFld (rNodeDomainStatus d) fNodeDomainStatus_RATE_PERMIL rate).setFld (rNodeDomainStatus d)
      fNodeDomainStatus_POWER_DW power).trimInput 0 d
      ((rate : Nat) : Int)) := ((Trimmed.setFld _ _ other).trans (Trimmed.setFld _ _ other)).trans (Trimmed.modTrim 0 d _)
  exact .ite (noted.trans (noteSlack_trimmed _ d slack)) noted

theorem trim_domNoted (s : State) (d rate power slack e : Nat) : (s.domNoted d rate power slack).trim 0 e =
    if e = d then { s.trim 0 e with input := ((rate : Nat) : Int) } else s.trim 0 e := by
  unfold State.domNoted
  dsimp only
  split
  · rw [trim_noteSlack, trim_modTrim_input, trim_setFld, trim_setFld]
  · rw [trim_modTrim_input, trim_setFld, trim_setFld]

theorem domPowered_trimInput (s : State) (n : Nat) (v : Int) (e : Nat) : (s.trimInput 0 n v).domPowered e = s.domPowered e := rfl

theorem domPowered_putBoard (s : State) (b : Board) (e : Nat) : (s.putBoard b).domPowered e = s.domPowered e := rfl

theorem domPowered_setFld {s : State} {o e : Nat} {f : Fld} {v : Nat} (apart : rNodeDomainStatus e ≠ o ∨ f.lo + f.width ≤ 48) :
    (s.setFld o f v).domPowered e = s.domPowered e := by
  refine congrArg (· == 1) ?_
  by_cases same : rNodeDomainStatus e = o
  · subst same
    have low := apart.resolve_left (fun ne => ne rfl)
    exact State.fld_setFld_below _ _ low (by have := low; omega) _
  · exact State.fld_setFld_ne _ same _ _ _

theorem domPowered_domNoted {d e : Nat} (small : d < 14) (small' : e < 14) (s : State) (rate power slack : Nat) :
    (s.domNoted d rate power slack).domPowered e = s.domPowered e := by
  have apart : rNodeDomainStatus e ≠ rTelDomSlack d := by
    unfold rNodeDomainStatus rTelDomSlack
    omega
  unfold State.domNoted State.noteSlack
  dsimp only
  split
  · rw [domPowered_setFld (.inl apart), domPowered_setFld (.inl apart), domPowered_putBoard, domPowered_trimInput, domPowered_setFld
      (.inr (by decide)),
      domPowered_setFld (.inr (by decide))]
  · rw [domPowered_trimInput, domPowered_setFld (.inr (by decide)), domPowered_setFld (.inr (by decide))]

/-- The node that has noted what a voltage tick measures of the domains given. -/
def State.domsNoted (s : State) (l rates powers slacks : List Nat) : State :=
  l.foldl (fun t d => t.domNoted d (rates.getD d 0) (powers.getD d 0) (slacks.getD d 0)) s

theorem domsNoted_reads {l : List Nat} (small : ∀ d ∈ l, d < 14) (s : State) (rates powers slacks : List Nat) :
    Trimmed PowerReg s (s.domsNoted l rates powers slacks) ∧ (∀ e, e < 14 → (s.domsNoted l rates powers slacks).domPowered e = s.domPowered e) ∧
      ∀ e, (s.domsNoted l rates powers slacks).trim 0 e = if e ∈ l then { s.trim 0 e with
          input := ((rates.getD e 0 : Nat) : Int) } else s.trim 0 e := by
  induction l generalizing s with
  | nil => exact ⟨.refl s, fun _ _ => rfl, fun _ => rfl⟩
  | cons d l ih =>
    have first := small d List.mem_cons_self
    obtain ⟨kept, powered, units⟩ := ih (fun e there => small e (List.mem_cons_of_mem _ there))
        (s.domNoted d (rates.getD d 0) (powers.getD d 0) (slacks.getD d 0))
    refine ⟨(domNoted_trimmed first s _ _ _).trans kept, fun e small' => (powered e small').trans (domPowered_domNoted first small' s _ _ _),
        fun e => ?_⟩
    refine (units e).trans ?_
    rw [trim_domNoted]
    by_cases same : e = d
    · subst same
      rw [if_pos rfl, if_pos List.mem_cons_self]
      split <;> rfl
    · rw [if_neg same]
      by_cases there : e ∈ l
      · rw [if_pos there, if_pos (List.mem_cons_of_mem _ there)]
      · rw [if_neg there, if_neg (fun either => (List.mem_cons.mp either).elim same there)]

/-- The power that the tick reports. -/
def State.powerNoted (s : State) (w1 w10 : Nat) : State :=
    (s.setFld rNodePowerStatus fNodePowerStatus_PKG_W_1MS w1).setFld rNodePowerStatus fNodePowerStatus_PKG_W_10MS w10

theorem trim_powerNoted (s : State) (w1 w10 n m : Nat) :
    (s.powerNoted w1 w10).trim n m = s.trim n m := by rw [State.powerNoted, trim_setFld, trim_setFld]

theorem mem_powerNoted (s : State) (w1 w10 : Nat) : (s.powerNoted w1 w10).mem = s.mem := by rw [State.powerNoted, mem_setFld, mem_setFld]

theorem recs_powerNoted (s : State) (w1 w10 : Nat) : (s.powerNoted w1 w10).recs = s.recs := by rw [State.powerNoted, recs_setFld, recs_setFld]

theorem now_setFld (s : State) (o : Nat) (f : Fld) (v : Nat) : (s.setFld o f v).now = s.now := rfl

theorem board_powerNoted (s : State) (w1 w10 : Nat) : (s.powerNoted w1 w10).board = s.board := by rw [State.powerNoted, board_setFld, board_setFld]

theorem domPowered_powerNoted (s : State) (w1 w10 : Nat) {d : Nat} (small : d < 14) : (s.powerNoted w1 w10).domPowered d = s.domPowered d := by
  have apart : rNodeDomainStatus d ≠ rNodePowerStatus := by
    unfold rNodeDomainStatus rNodePowerStatus
    omega
  rw [State.powerNoted, domPowered_setFld (.inl apart), domPowered_setFld (.inl apart)]

theorem powerNoted_reads (s : State) {w1 w10 : Nat} (small1 : w1 < 2048) (small10 : w10 < 2048) :
    (s.powerNoted w1 w10).fld rNodePowerStatus fNodePowerStatus_PKG_W_1MS = w1 ∧
        (s.powerNoted w1 w10).fld rNodePowerStatus fNodePowerStatus_PKG_W_10MS = w10 ∧
      (s.powerNoted w1 w10).fld rNodePowerStatus fNodePowerStatus_BACKSTOP = s.fld rNodePowerStatus fNodePowerStatus_BACKSTOP ∧
      (s.powerNoted w1 w10).fld rNodePowerStatus fNodePowerStatus_LIMIT_EFF_W = s.fld rNodePowerStatus fNodePowerStatus_LIMIT_EFF_W := by
  unfold State.powerNoted
  refine ⟨?_, ?_, ?_, ?_⟩
  · rw [State.fld_setFld_above _ _ (by decide) (by decide), State.fld_setFld _ _ _ _ (by decide)]
    exact Nat.mod_eq_of_lt small1
  · rw [State.fld_setFld _ _ _ _ (by decide)]
    exact Nat.mod_eq_of_lt small10
  · rw [State.fld_setFld_below _ _ (by decide) (by decide), State.fld_setFld_below _ _ (by decide) (by decide)]
  · rw [State.fld_setFld_above _ _ (by decide) (by decide), State.fld_setFld_above _ _ (by decide) (by decide)]

/-- `t` follows `s` by what a tick notes of the package: the loops, memory and the records are as they were, and so are the fields of the power that it reports. -/
structure PackageNoted (s t : State) : Prop where
  trims : t.trims = s.trims
  mem : t.mem = s.mem
  recs : t.recs = s.recs
  w1 : t.fld rNodePowerStatus fNodePowerStatus_PKG_W_1MS = s.fld rNodePowerStatus fNodePowerStatus_PKG_W_1MS
  w10 : t.fld rNodePowerStatus fNodePowerStatus_PKG_W_10MS = s.fld rNodePowerStatus fNodePowerStatus_PKG_W_10MS

theorem PackageNoted.trans {s t u : State} (h : PackageNoted s t) (g : PackageNoted t u) : PackageNoted s u :=
  ⟨g.trims.trans h.trims, g.mem.trans h.mem, g.recs.trans h.recs, g.w1.trans h.w1, g.w10.trans h.w10⟩

theorem PackageNoted.putBoard (s : State) (b : Board) : PackageNoted s (s.putBoard b) := ⟨rfl, rfl, rfl, rfl, rfl⟩

theorem PackageNoted.setFld (s : State) {f : Fld} (v : Nat) (above : 33 ≤ f.lo) (within : f.lo ≤ 64) :
    PackageNoted s (s.setFld rNodePowerStatus f v) :=
  ⟨rfl, rfl, rfl, State.fld_setFld_above _ _ (Nat.le_trans (by decide) above) within _, State.fld_setFld_above _ _
      (Nat.le_trans (by decide) above) within _⟩

/-- The node that has entered the backstop. -/
def State.backstopped (s : State) : State :=
  ((s.putBoard ({ s.board with backstops := s.board.backstops + 1 })).setFld rNodePowerStatus fNodePowerStatus_BACKSTOP 1).setFld rNodePowerStatus fNodePowerStatus_CLAMPED 1

theorem backstopped_noted (s : State) : PackageNoted s s.backstopped := by
  have first := PackageNoted.putBoard s ({ s.board with backstops := s.board.backstops + 1 })
  unfold State.backstopped
  generalize s.putBoard ({ s.board with backstops := s.board.backstops + 1 }) = t at *
  exact (first.trans (.setFld t 1 (by decide) (by decide))).trans (.setFld _ 1 (by decide) (by decide))

theorem backstop_cases (s : State) (w : Nat) :
    s.backstop w = s ∨ s.backstop w = s.setFld rNodePowerStatus fNodePowerStatus_BACKSTOP 0 ∨ s.backstop w = s.backstopped := by
  unfold State.backstop
  dsimp only
  generalize (if s.fld rNodeRailStatus fNodeRailStatus_AVS_LOST = 1 then 97 else 100) = f
  split
  · split
    · exact .inr (.inl rfl)
    · exact .inl rfl
  · split
    · exact .inr (.inr rfl)
    · exact .inl rfl

theorem backstop_noted (s : State) (w : Nat) : PackageNoted s (s.backstop w) := by
  rcases backstop_cases s w with same | left_ | raised
  · rw [same]
    exact ⟨rfl, rfl, rfl, rfl, rfl⟩
  · rw [left_]
    exact .setFld s 0 (by decide) (by decide)
  · rw [raised]
    exact backstopped_noted s

theorem floorMiss_noted (s : State) : PackageNoted s s.floorMiss := by
  have first := PackageNoted.setFld s (f := fNodePowerStatus_FLOOR_MISS) 1 (by decide) (by decide)
  unfold State.floorMiss
  dsimp only
  split_ifs
  · exact first
  · exact (first.trans (PackageNoted.putBoard _ _)).trans (PackageNoted.setFld _ (f := fNodePowerStatus_FLOOR_MISS_COUNT) _ (by decide) (by decide))

/-- The node that has run the voltage loop. -/
def State.voltRun (s : State) (rates powers slacks : List Nat) (w1 w10 : Nat) : State :=
  let s := (s.domsNoted (List.range 14) rates powers slacks).powerNoted w1 w10
  s.voltLoop (s.overPower w1 w10) rates

theorem execVoltageTrimTick_eq (s : State) (rates powers slacks : List Nat) (w1 w10 : Nat) :
    exec (.voltageTrimTick rates powers w1 w10 slacks) s = .next ((s.voltRun rates powers slacks w1 w10).backstop w10) ∨
      exec (.voltageTrimTick rates powers w1 w10 slacks) s = .next ((s.voltRun rates powers slacks w1 w10).backstop w10).floorMiss := by
  have tick : exec (.voltageTrimTick rates powers w1 w10 slacks) s = execVoltageTrimTick rates powers w1 w10 slacks s := rfl
  rw [tick]
  unfold execVoltageTrimTick
  dsimp only
  split
  · exact .inr rfl
  · exact .inl rfl

theorem backstop_raises {s : State} {w : Nat} (off : s.fld rNodePowerStatus fNodePowerStatus_BACKSTOP = 0)
    (low : ∀ d, d < 14 → s.domPowered d = true → (s.trim 0 d).freeze = true) (high : s.limit10 < w) : s.backstop w = s.backstopped := by
  unfold State.backstop
  dsimp only
  rw [if_neg (by rw [off]; decide)]
  refine if_pos ⟨List.all_eq_true.mpr fun d there => ?_, ?_⟩
  · have frozen := low d (List.mem_range.mp there)
    cases powered : s.domPowered d with
    | false => rfl
    | true =>
      rw [frozen powered]
      rfl
  · split <;> omega

theorem fld_putBoard (s : State) (b : Board) (o : Nat) (f : Fld) : (s.putBoard b).fld o f = s.fld o f := rfl

theorem backstopped_reads (s : State) : s.backstopped.fld rNodePowerStatus fNodePowerStatus_BACKSTOP = 1 ∧
    s.backstopped.fld rNodePowerStatus fNodePowerStatus_CLAMPED = 1 ∧ s.backstopped.board.backstops = s.board.backstops + 1 := by
  unfold State.backstopped
  have board : (s.putBoard ({ s.board with backstops := s.board.backstops + 1 })).board.backstops = s.board.backstops + 1 := rfl
  generalize s.putBoard ({ s.board with backstops := s.board.backstops + 1 }) = t at *
  refine ⟨?_, ?_, ?_⟩
  · rw [State.fld_setFld_above _ _ (by decide) (by decide), State.fld_setFld _ _ _ _ (by decide)]
    decide
  · rw [State.fld_setFld _ _ _ _ (by decide)]
    decide
  · rw [board_setFld, board_setFld, board]

theorem board_putBoard (s : State) (b : Board) : (s.putBoard b).board = b := rfl

theorem floorMiss_backstop (s : State) :
    s.floorMiss.fld rNodePowerStatus fNodePowerStatus_BACKSTOP = s.fld rNodePowerStatus fNodePowerStatus_BACKSTOP ∧
    s.floorMiss.fld rNodePowerStatus fNodePowerStatus_CLAMPED = s.fld rNodePowerStatus fNodePowerStatus_CLAMPED ∧ s.floorMiss.board.backstops = s.board.backstops := by
  unfold State.floorMiss
  dsimp only
  split
  · rw [State.fld_setFld_above _ _ (by decide) (by decide), State.fld_setFld_above _ _ (by decide) (by decide), board_setFld]
    exact ⟨rfl, rfl, rfl⟩
  · rw [State.fld_setFld_above _ _ (by decide) (by decide), State.fld_setFld_above _ _ (by decide) (by decide), board_setFld, fld_putBoard,
      fld_putBoard,
      State.fld_setFld_above _ _ (by decide) (by decide), State.fld_setFld_above _ _ (by decide) (by decide)]
    refine ⟨rfl, rfl, ?_⟩
    rw [board_setFld, board_putBoard]

theorem voltRun_reads (s : State) (rates powers slacks : List Nat) {w1 w10 : Nat} (small1 : w1 < 2048) (small10 : w10 < 2048) :
    (s.voltRun rates powers slacks w1 w10).fld rNodePowerStatus fNodePowerStatus_PKG_W_1MS = w1 ∧
      (s.voltRun rates powers slacks w1 w10).fld rNodePowerStatus fNodePowerStatus_PKG_W_10MS = w10 ∧
          (s.voltRun rates powers slacks w1 w10).mem = s.mem ∧
      (s.voltRun rates powers slacks w1 w10).recs = s.recs ∧ ∀ d, d < 14 → ((s.voltRun rates powers slacks w1 w10).trim 0 d).rest =
          ({ s.trim 0 d with input := ((rates.getD d 0 : Nat) : Int) } : TrimUnit).rest ∧
        (((s.trim 0 d).freeze = true ∨ s.domPowered d = false) → ((s.voltRun rates powers slacks w1 w10).trim 0 d).output = (s.trim 0 d).output) ∧
        ((s.trim 0 d).lo ≤ (s.trim 0 d).hi → (s.trim 0 d).freeze = false → s.domPowered d = true →
            (s.voltRun rates powers slacks w1 w10).outputWithin d) := by
  unfold State.voltRun
  dsimp only
  obtain ⟨kept, powered, units⟩ := domsNoted_reads (fun d there => List.mem_range.mp there) s rates powers slacks (l := List.range 14)
  generalize s.domsNoted (List.range 14) rates powers slacks = a at *
  obtain ⟨p1, p10, -, -⟩ := powerNoted_reads a small1 small10
  have powered' : ∀ d, d < 14 → (a.powerNoted w1 w10).domPowered d = s.domPowered d := fun d small => (domPowered_powerNoted a w1 w10 small).trans
      (powered d small)
  have units' : ∀ d, d < 14 → (a.powerNoted w1 w10).trim 0 d = { s.trim 0 d with input := ((rates.getD d 0 : Nat) : Int) } := fun d small => by
    rw [trim_powerNoted, units d, if_pos (List.mem_range.mpr small)]
  have mem : (a.powerNoted w1 w10).mem = s.mem := (mem_powerNoted a w1 w10).trans kept.mem
  have recs : (a.powerNoted w1 w10).recs = s.recs := (recs_powerNoted a w1 w10).trans kept.recs
  generalize a.powerNoted w1 w10 = b at *
  generalize b.overPower w1 w10 = excess
  obtain ⟨ran, rest, still, acts⟩ := voltLoop_reads b excess rates
  have power : ∀ f, (b.voltLoop excess rates).fld rNodePowerStatus f = b.fld rNodePowerStatus f := fun f => congrArg f.get (ran.reg _ (.inl rfl))
  refine ⟨(power _).trans p1, (power _).trans p10, ran.mem.trans mem, ran.recs.trans recs, fun d small =>
      ⟨?_, fun idle => ?_, fun limits thawed on => ?_⟩⟩
  · rw [rest, units' d small]
  · rw [still d, units' d small]
    intro there
    obtain ⟨-, acting⟩ := List.mem_filter.mp there
    rw [powered' d small, units' d small] at acting
    rcases idle with frozen | off
    · simp [frozen] at acting
    · simp [off] at acting
  · refine acts d (by rw [units' d small]; exact limits)
      (mem_liveUnits small (by rw [powered' d small]; exact on) (by rw [units' d small]; exact thawed))

theorem limit10_of_kept {s t : State} (h : Trimmed PowerReg s t) : t.limit10 = s.limit10 := by
  have past : t.board.limPast = s.board.limPast := h.view fun v => v.board.limPast
  have now : t.now = s.now := h.view fun v => v.now
  have fld : t.fld rNodePowerStatus fNodePowerStatus_LIMIT_EFF_W = s.fld rNodePowerStatus fNodePowerStatus_LIMIT_EFF_W :=
    congrArg (Fld.get _) (h.reg _ (.inl rfl))
  unfold State.limit10
  rw [past, now, fld]

theorem limit10_powerNoted (s : State) {w1 w10 : Nat} (small1 : w1 < 2048) (small10 : w10 < 2048) : (s.powerNoted w1 w10).limit10 = s.limit10 := by
  obtain ⟨-, -, -, limit⟩ := powerNoted_reads s small1 small10
  have now : (s.powerNoted w1 w10).now = s.now := by rw [State.powerNoted, now_setFld, now_setFld]
  unfold State.limit10
  rw [board_powerNoted, now, limit]

theorem backstops_voltRun {s : State} (rates powers slacks : List Nat) {w1 w10 : Nat} (small1 : w1 < 2048) (small10 : w10 < 2048)
    (off : s.fld rNodePowerStatus fNodePowerStatus_BACKSTOP = 0) (frozen : ∀ d, d < 14 → s.domPowered d = true → (s.trim 0 d).freeze = true)
        (high : s.limit10 < w10) :
    ∃ t, (s.voltRun rates powers slacks w1 w10).backstop w10 = t ∧ t.fld rNodePowerStatus fNodePowerStatus_BACKSTOP = 1 ∧
      t.fld rNodePowerStatus fNodePowerStatus_CLAMPED = 1 ∧ t.board.backstops = s.board.backstops + 1 := by
  unfold State.voltRun
  dsimp only
  obtain ⟨kept, powered, units⟩ := domsNoted_reads (fun d there => List.mem_range.mp there) s rates powers slacks (l := List.range 14)
  generalize s.domsNoted (List.range 14) rates powers slacks = a at *
  obtain ⟨-, -, back, limit⟩ := powerNoted_reads a small1 small10
  have low : ∀ d, d < 14 → (a.powerNoted w1 w10).domPowered d = true → ((a.powerNoted w1 w10).trim 0 d).freeze = true := fun d small on => by
    rw [domPowered_powerNoted _ _ _ small, powered d small] at on
    rw [trim_powerNoted, units d, if_pos (List.mem_range.mpr small)]
    exact frozen d small on
  have off' : (a.powerNoted w1 w10).fld rNodePowerStatus fNodePowerStatus_BACKSTOP = 0 :=
    back.trans ((congrArg (Fld.get _) (kept.reg rNodePowerStatus (.inl rfl))).trans off)
  have limit' : (a.powerNoted w1 w10).limit10 = s.limit10 := (limit10_powerNoted a small1 small10).trans (limit10_of_kept kept)
  have count : (a.powerNoted w1 w10).board.backstops = s.board.backstops :=
      (congrArg Board.backstops (board_powerNoted a w1 w10)).trans kept.backstops
  generalize a.powerNoted w1 w10 = b at *
  have idle : b.liveUnits = [] := by
    refine List.filter_eq_nil_iff.mpr fun d there => ?_
    have small := List.mem_range.mp there
    cases on : b.domPowered d with
    | false => exact Bool.false_ne_true
    | true =>
      rw [low d small on]
      exact Bool.false_ne_true
  rw [voltLoop_idle idle, backstop_raises off' low (by rw [limit']; exact high)]
  obtain ⟨on, clamped, counted⟩ := backstopped_reads b
  exact ⟨_, rfl, on, clamped, counted.trans (congrArg (· + 1) count)⟩

/-! ### Eyes of the lanes -/

theorem eye_packed (f g : Fld) (a b : Nat) (apart : g.lo + g.width ≤ f.lo) (fits : f.lo + f.width ≤ 64) :
    f.get (packFields [(f, a), (g, b)]) = a % 2 ^ f.width ∧ g.get (packFields [(f, a), (g, b)]) = b % 2 ^ g.width := by
  show f.get (g.put b (f.put a 0)) = _ ∧ g.get (g.put b (f.put a 0)) = _
  rw [Fld.get_put_below apart (by omega), Fld.get_put f a 0 fits, Fld.get_put g b _ (by omega)]
  exact ⟨rfl, rfl⟩

/-- What the equalisation of a lane keeps of its report: the register of the eye, the input of its unit, and memory. -/
structure EyeKept (o lane : Nat) (s t : State) : Prop where
  reg : t.reg o = s.reg o
  input : (t.trim 1 lane).input = (s.trim 1 lane).input
  mem : t.mem = s.mem

/-- A register of a lane's eye: no count and no setting of a lane is written there. -/
structure EyeReg (o : Nat) : Prop where
  unreported : Unreported o
  setting : ∀ n, n < 256 → o ≠ rFabLaneEq n

namespace EyeKept

variable {o lane : Nat} {s t u : State}

theorem refl (s : State) : EyeKept o lane s s := ⟨rfl, rfl, rfl⟩

theorem trans (h : EyeKept o lane s t) (g : EyeKept o lane t u) : EyeKept o lane s u := ⟨g.reg.trans h.reg, g.input.trans h.input, g.mem.trans h.mem⟩

theorem modTrim {f : TrimUnit → TrimUnit} (input : ∀ u, (f u).input = u.input) : EyeKept o lane s (s.modTrim 1 lane f) :=
  ⟨rfl, by rw [trim_modTrim, input], rfl⟩

theorem setFld (eye : EyeReg o) {n : Nat} (small : n < 256) (f : Fld) (v : Nat) : EyeKept o lane s (s.setFld (rFabLaneEq n) f v) :=
  ⟨State.reg_setReg_of_ne s _ (eye.setting n small), rfl, rfl⟩

theorem trimAtLimit (eye : EyeReg o) : EyeKept o lane s (s.trimAtLimit 1 lane) := by
  have kept := Trimmed.trimAtLimit s 1 lane
  exact ⟨kept.reg o eye.unreported, by rw [trim_trimAtLimit], kept.mem⟩

theorem trimAct (eye : EyeReg o) (k : Nat) (out : Int) : EyeKept o lane s (s.trimAct 1 lane k out) := by
  have kept := Trimmed.trimAct s 1 lane k out
  exact ⟨kept.reg o eye.unreported, by rw [trim_trimAct], kept.mem⟩

theorem eqAct (eye : EyeReg o) (k : Nat) (old : Int) : EyeKept o lane s (s.eqAct lane k old) := by
  unfold State.eqAct
  exact (trimAct eye k _).trans (modTrim fun _ => rfl)

theorem eqMove (eye : EyeReg o) {k : Nat} {up : Bool} (moved : s.eqMove lane k up = some t) : EyeKept o lane s t := by
  unfold State.eqMove at moved
  dsimp only at moved
  generalize (if up = true then (1 : Int) else -1) = d at moved
  split at moved
  · split at moved
    · exact absurd moved (by simp)
    · cases moved
      split
      next small =>
        refine trans ?_ (setFld eye small _ _)
        exact modTrim fun _ => rfl
      · exact modTrim fun _ => rfl
  · split at moved
    · exact absurd moved (by simp)
    next small =>
      split at moved
      · exact absurd moved (by simp)
      · cases moved
        exact setFld eye (by omega) _ _

theorem eqMove_getD (eye : EyeReg o) (k : Nat) (up : Bool) : EyeKept o lane s ((s.eqMove lane k up).getD s) := by
  cases moved : s.eqMove lane k up with
  | none => exact refl s
  | some t => exact eqMove eye moved

theorem eqTrial (eye : EyeReg o) {n r k : Nat} (tried : s.eqTrial lane r n = some (k, t)) : EyeKept o lane s t := by
  induction n generalizing r with
  | zero => exact absurd tried (by simp [State.eqTrial])
  | succ n ih =>
    unfold State.eqTrial at tried
    split at tried
    next moved =>
      cases tried
      exact eqMove eye moved
    · exact ih tried

end EyeKept

theorem exists_next_ite {P : State → Prop} {c : Prop} [Decidable c] {x y : Host.Outcome State Fault Refusal} (yes : ∃ t, x = .next t ∧ P t)
    (no : ∃ t, y = .next t ∧ P t) : ∃ t, (if c then x else y) = .next t ∧ P t := by
  split
  · exact yes
  · exact no

/-- The node that has noted a lane's eye. -/
def State.eyeNoted (s : State) (lane h w : Nat) : State :=
  (if lane < 256 then s.setReg (rFabLaneEye lane) (packFields [(fFabLaneEye_HEIGHT, h), (fFabLaneEye_WIDTH, w)])
    else s.setReg (rTelHostEye (lane - 256)) (packFields [(fTelHostEye_HEIGHT, h), (fTelHostEye_WIDTH, w)])).trimInput 1 lane (h : Int)

theorem laneUp_setReg (s : State) (o : Nat) (w : Word) (n : Nat) : (s.setReg o w).laneUp n = s.laneUp n := rfl

theorem laneUp_trimInput (s : State) (l m : Nat) (v : Int) (n : Nat) : (s.trimInput l m v).laneUp n = s.laneUp n := rfl

theorem trim_setReg (s : State) (o : Nat) (w : Word) (n m : Nat) : (s.setReg o w).trim n m = s.trim n m := rfl

theorem laneUp_eyeNoted (s : State) (lane h w n : Nat) : (s.eyeNoted lane h w).laneUp n = s.laneUp n := by
  unfold State.eyeNoted
  split
  · rw [laneUp_trimInput, laneUp_setReg]
  · rw [laneUp_trimInput, laneUp_setReg]

theorem trim_eyeNoted (s : State) (lane h w : Nat) : (s.eyeNoted lane h w).trim 1 lane = { s.trim 1 lane with input := (h : Int) } := by
  unfold State.eyeNoted State.trimInput
  split
  · rw [trim_modTrim, trim_setReg]
  · rw [trim_modTrim, trim_setReg]

theorem execEqualisationTrimTick_kept {s : State} {lane o : Nat} (h w : Nat) (small : lane < 272) (eye : EyeReg o) :
    ∃ t, exec (.equalisationTrimTick lane h w) s = .next t ∧ EyeKept o lane (s.eyeNoted lane h w) t := by
  have tick : exec (.equalisationTrimTick lane h w) s = execEqualisationTrimTick lane h w s := rfl
  rw [tick]
  unfold execEqualisationTrimTick
  rw [if_neg (by omega)]
  have noted : s.eyeNoted lane h w = (if lane < 256 then s.setReg (rFabLaneEye lane) (packFields [(fFabLaneEye_HEIGHT, h), (fFabLaneEye_WIDTH, w)])
    else s.setReg (rTelHostEye (lane - 256)) (packFields [(fTelHostEye_HEIGHT, h), (fTelHostEye_WIDTH, w)])).trimInput 1 lane (h : Int) := rfl
  dsimp only
  rw [← noted]
  generalize s.eyeNoted lane h w = a
  split
  · exact ⟨_, rfl, .refl a⟩
  · have limited : EyeKept o lane a (if (h : Int) < (a.trim 1 lane).lo then a.trimAtLimit 1 lane else a) := by
      split
      · exact .trimAtLimit eye
      · exact .refl a
    generalize (if (h : Int) < (a.trim 1 lane).lo then a.trimAtLimit 1 lane else a) = b at *
    refine exists_next_ite ?_ (exists_next_ite ?_ (exists_next_ite ?_ ?_))
    · exact ⟨_, rfl, ((limited.trans (.eqMove_getD eye _ _)).trans (.eqAct eye 8 _)).trans (.modTrim fun _ => rfl)⟩
    · split
      next tried => exact ⟨_, rfl, ((limited.trans (.eqTrial eye tried)).trans (.eqAct eye _ _)).trans (.modTrim fun _ => rfl)⟩
      · exact ⟨_, rfl, limited.trans (.modTrim fun _ => rfl)⟩
    · split
      next moved => exact ⟨_, rfl, ((limited.trans (.eqMove eye moved)).trans (.eqAct eye 2 _)).trans (.modTrim fun _ => rfl)⟩
      · exact ⟨_, rfl, limited.trans (.modTrim fun _ => rfl)⟩
    · exact ⟨_, rfl, limited.trans (.modTrim fun _ => rfl)⟩

theorem execEqualisationTrimTick_held {s : State} {lane : Nat} (h w : Nat) (small : lane < 272)
    (held : s.laneUp lane = false ∨ (s.trim 1 lane).freeze = true) :
    exec (.equalisationTrimTick lane h w) s = .next (s.eyeNoted lane h w) := by
  have tick : exec (.equalisationTrimTick lane h w) s = execEqualisationTrimTick lane h w s := rfl
  rw [tick]
  unfold execEqualisationTrimTick
  rw [if_neg (by omega)]
  refine if_pos ?_
  show State.laneUp (s.eyeNoted lane h w) lane = false ∨ (State.trim (s.eyeNoted lane h w) 1 lane).freeze = true ∨ _
  rw [laneUp_eyeNoted, trim_eyeNoted]
  exact held.imp id .inl

theorem eyeReg_fab (n : Nat) (small : n < 256) : EyeReg (rFabLaneEye n) := by
  refine ⟨unreported_low (by unfold rFabLaneEye; omega), fun m _ => ?_⟩
  unfold rFabLaneEye rFabLaneEq
  omega

theorem eyeReg_host (n : Nat) (small : n < 16) : EyeReg (rTelHostEye n) := by
  refine ⟨⟨⟨fun pf => ?_, fun b _ => ?_, ?_⟩, fun b _ => ?_, ?_⟩, fun m _ => ?_⟩
  · unfold pfKey rFltEvtStatus rTelHostEye
    omega
  · unfold rFltSat rTelHostEye
    omega
  · unfold rTelHostEye
    omega
  · unfold rFltSat rTelHostEye
    omega
  · unfold rTelHostEye
    omega
  · unfold rFabLaneEq rTelHostEye
    omega

theorem reg_trimInput (s : State) (l n : Nat) (v : Int) (o : Nat) : (s.trimInput l n v).reg o = s.reg o := rfl

theorem eyeNoted_fab (s : State) {lane h w : Nat} (small : lane < 256) (high : h < 65536) (wide : w < 65536) :
    (s.eyeNoted lane h w).fld (rFabLaneEye lane) fFabLaneEye_HEIGHT = h ∧ (s.eyeNoted lane h w).fld (rFabLaneEye lane) fFabLaneEye_WIDTH = w := by
  obtain ⟨height, width⟩ := eye_packed fFabLaneEye_HEIGHT fFabLaneEye_WIDTH h w (by decide) (by decide)
  unfold State.eyeNoted State.fld
  rw [if_pos small, reg_trimInput, State.reg_setReg, if_pos rfl, height, width]
  exact ⟨Nat.mod_eq_of_lt high, Nat.mod_eq_of_lt wide⟩

theorem eyeNoted_host (s : State) {lane h w : Nat} (host : 256 ≤ lane) (high : h < 65536) (wide : w < 65536) :
    (s.eyeNoted lane h w).fld (rTelHostEye (lane - 256)) fTelHostEye_HEIGHT = h ∧ (s.eyeNoted lane h w).fld (rTelHostEye (lane - 256))
        fTelHostEye_WIDTH = w := by
  obtain ⟨height, width⟩ := eye_packed fTelHostEye_HEIGHT fTelHostEye_WIDTH h w (by decide) (by decide)
  unfold State.eyeNoted State.fld
  rw [if_neg (by omega), reg_trimInput, State.reg_setReg, if_pos rfl, height, width]
  exact ⟨Nat.mod_eq_of_lt high, Nat.mod_eq_of_lt wide⟩

theorem mem_setReg (s : State) (o : Nat) (w : Word) : (s.setReg o w).mem = s.mem := rfl

theorem mem_trimInput (s : State) (l n : Nat) (v : Int) : (s.trimInput l n v).mem = s.mem := rfl

theorem mem_eyeNoted (s : State) (lane h w : Nat) : (s.eyeNoted lane h w).mem = s.mem := by
  unfold State.eyeNoted
  split
  · rw [mem_trimInput, mem_setReg]
  · rw [mem_trimInput, mem_setReg]

theorem ctrs_setReg (s : State) (o : Nat) (w : Word) : (s.setReg o w).ctrs = s.ctrs ∧ (s.setReg o w).out = s.out := ⟨rfl, rfl⟩

theorem ctrs_trimInput (s : State) (l n : Nat) (v : Int) : (s.trimInput l n v).ctrs = s.ctrs ∧ (s.trimInput l n v).out = s.out := ⟨rfl, rfl⟩

theorem eyeNoted_sent (s : State) (lane h w : Nat) : (s.eyeNoted lane h w).ctrs = s.ctrs ∧ (s.eyeNoted lane h w).out = s.out := by
  unfold State.eyeNoted
  split
  · rw [(ctrs_trimInput _ _ _ _).1, (ctrs_trimInput _ _ _ _).2]
    exact ctrs_setReg _ _ _
  · rw [(ctrs_trimInput _ _ _ _).1, (ctrs_trimInput _ _ _ _).2]
    exact ctrs_setReg _ _ _

/-! ### Refresh -/

/-- The node that has noted a stack's temperature and activity. -/
def State.stackNoted (s : State) (n act : Nat) (raw : Int) : State :=
  (s.setStackTemp n raw).trimInput 2 n ((min 1000 ((2 * 1000 * act + 4876190) / (2 * 4876190)) : Nat) : Int)

/-- The stack's unit has acted on what it noted. -/
def State.stackMoved (s : State) (n a : Nat) : State :=
  if (s.trim 2 n).freeze then s else s.trimTo 2 n ((s.trim 2 n).target + (((s.trim 2 n).gain * (a - 500) / 256 : Nat) : Int))

theorem execRefreshTrimTick_eq {s : State} {n : Nat} (act : Nat) (raw : Int) (small : n < 8) : exec (.refreshTrimTick n act raw) s =
    .next (((s.stackNoted n act raw).stackMoved n (min 1000 ((2 * 1000 * act + 4876190) / (2 * 4876190)))).refreshNow n) := by
  have tick : exec (.refreshTrimTick n act raw) s = execRefreshTrimTick n act raw s := rfl
  rw [tick]
  unfold execRefreshTrimTick
  exact if_neg (by omega)

theorem trim_putBoard (s : State) (b : Board) (n m : Nat) : (s.putBoard b).trim n m = s.trim n m := rfl

theorem stackNoted_reads (s : State) {n : Nat} (act : Nat) (raw : Int) : (s.stackNoted n act raw).trim 2 n =
      { s.trim 2 n with input := ((min 1000 ((2 * 1000 * act + 4876190) / (2 * 4876190)) : Nat) : Int) } ∧
    (s.stackNoted n act raw).board.stackBase = s.board.stackBase ∧ (s.stackNoted n act raw).mem = s.mem ∧
    (s.stackNoted n act raw).fld (rBkeStackStatus n) fBkeStackStatus_TEMP_C = min 255 (s.calibrated (288 + n) raw / 10).toNat := by
  unfold State.stackNoted
  generalize ((min 1000 ((2 * 1000 * act + 4876190) / (2 * 4876190)) : Nat) : Int) = a
  have temp : ((s.setStackTemp n raw).trimInput 2 n a).fld (rBkeStackStatus n) fBkeStackStatus_TEMP_C = (s.setStackTemp n raw).fld
      (rBkeStackStatus n) fBkeStackStatus_TEMP_C :=
    congrArg (Fld.get fBkeStackStatus_TEMP_C) (reg_trimInput (s.setStackTemp n raw) 2 n a (rBkeStackStatus n))
  rw [temp]
  unfold State.trimInput
  rw [trim_modTrim]
  unfold State.setStackTemp
  dsimp only
  refine ⟨?_, rfl, rfl, ?_⟩
  · rw [trim_setFld, trim_putBoard]
  · rw [State.fld_setFld _ _ _ _ (by decide)]
    refine Nat.mod_eq_of_lt ?_
    show min 255 _ < 256
    omega

theorem stackMoved_reads (s : State) (n a : Nat) : Trimmed Unreported s (s.stackMoved n a) ∧ ((s.stackMoved n a).trim 2 n).rest = (s.trim 2 n).rest ∧
    ((s.trim 2 n).freeze = true → ((s.stackMoved n a).trim 2 n).output = (s.trim 2 n).output) ∧
    ((s.trim 2 n).freeze = false → ((s.stackMoved n a).trim 2 n).output = (s.trim 2 n).clamp
        ((s.trim 2 n).target + (((s.trim 2 n).gain * (a - 500) / 256 : Nat) : Int))) := by
  unfold State.stackMoved
  cases (s.trim 2 n).freeze with
  | true => exact ⟨.refl s, rfl, fun _ => rfl, fun no => absurd no (by decide)⟩
  | false =>
    obtain ⟨rest, output⟩ := trim_trimTo s 2 n ((s.trim 2 n).target + (((s.trim 2 n).gain * (a - 500) / 256 : Nat) : Int))
    exact ⟨.trimTo s 2 n _, rest, fun no => absurd no (by decide), fun _ => output⟩

theorem clamp_eq {u : TrimUnit} (limits : u.lo ≤ u.hi) (raw : Int) : u.clamp raw = max u.lo (min u.hi raw) := by
  unfold TrimUnit.clamp
  split_ifs
  all_goals omega

theorem refreshNow_reads (s : State) (n : Nat) : (s.refreshNow n).trim 2 n = s.trim 2 n ∧ (s.refreshNow n).mem = s.mem ∧
    (s.refreshNow n).fld (rBkeStackStatus n) fBkeStackStatus_TEMP_C = s.fld (rBkeStackStatus n) fBkeStackStatus_TEMP_C ∧
    (s.refreshNow n).fld (rBkeStackStatus n) fBkeStackStatus_REFRESH_NS = kvGetD 3900 n s.board.stackBase * 1000 / max 1
        (s.trim 2 n).output.toNat % 65536 := by
  unfold State.refreshNow
  refine ⟨trim_setFld _ _ _ _ _ _, mem_setFld _ _ _ _, ?_, ?_⟩
  · rw [State.fld_setFld_above _ _ (by decide) (by decide)]
  · rw [State.fld_setFld _ _ _ _ (by decide)]
    rfl

/-! ### Sketches -/

/-- What a sketch evaluation has noted stays: the count of evaluations, the epoch and the records. -/
structure Evaluated (p : Nat) (s t : State) : Prop where
  evals : (t.corpus p).loop.evals = (s.corpus p).loop.evals
  epoch : (t.corpus p).epoch = (s.corpus p).epoch
  recs : t.recs = s.recs

namespace Evaluated

variable {p : Nat} {s t u : State}

theorem refl (s : State) : Evaluated p s s := ⟨rfl, rfl, rfl⟩

theorem trans (h : Evaluated p s t) (g : Evaluated p t u) : Evaluated p s u := ⟨g.evals.trans h.evals, g.epoch.trans h.epoch, g.recs.trans h.recs⟩

theorem of_corpora (corpora : t.corpora = s.corpora) (recs : t.recs = s.recs) : Evaluated p s t := by
  have same : t.corpus p = s.corpus p := congrArg (kvGetD ({} : Corpus) p) corpora
  exact ⟨by rw [same], by rw [same], recs⟩

theorem of_aside (h : Aside s t) : Evaluated p s t := of_corpora (h.view State.corpora) h.recs

theorem modCorpus {f : Corpus → Corpus} (evals : ∀ c, (f c).loop.evals = c.loop.evals) (epoch : ∀ c, (f c).epoch = c.epoch) :
    Evaluated p s (s.modCorpus p f) := by
  have same : (s.modCorpus p f).corpus p = f (s.corpus p) := by
    show (kvGet? p (kvPut p (f (s.corpus p)) s.corpora)).getD {} = _
    rw [kvGet?_put_self]
    rfl
  exact ⟨by rw [same, evals], by rw [same, epoch], rfl⟩

theorem modCorpus_after {f : Corpus → Corpus} (h : Evaluated p s t) (evals : ∀ c, (f c).loop.evals = c.loop.evals)
    (epoch : ∀ c, (f c).epoch = c.epoch) :
    Evaluated p s (t.modCorpus p f) := h.trans (modCorpus evals epoch)

theorem release (a : Nat) : Evaluated p s (s.release a) := by
  unfold State.release
  split
  · exact refl s
  · split
    · exact of_corpora rfl rfl
    · exact of_corpora rfl rfl

theorem foldl {α : Type} {f : State → α → State} {l : List α} (step : ∀ u a, Evaluated p u (f u a)) (s : State) : Evaluated p s (l.foldl f s) := by
  induction l generalizing s with
  | nil => exact refl s
  | cons a l ih => exact (step s a).trans (ih _)

theorem sweepSets (p : Nat) (s : State) : Evaluated p s (s.sweepSets p) := by
  unfold State.sweepSets
  dsimp only
  generalize (s.corpus p).sets.filter (fun x => (s.corpus p).curSet != some x.1 && !s.setBound p x.1) = gone
  refine trans (foldl (l := gone) (fun u (x : Nat × TSet) => release x.2.addr) s) ?_
  exact modCorpus (fun _ => rfl) fun _ => rfl

theorem alloc {q k n a : Nat} {kind : AllocKind} (placed : s.alloc q k n kind = some (a, t)) : Evaluated p s t := by
  unfold State.alloc State.allocAt at placed
  dsimp only at placed
  split at placed
  · exact absurd placed (by simp)
  · split at placed
    · exact absurd placed (by simp)
    · cases placed
      split
      · exact of_corpora rfl rfl
      · exact of_corpora rfl rfl

theorem writeMem (a : Nat) (bs : List Byte) : Evaluated p s (s.writeMem a bs) := of_corpora rfl rfl

theorem publishSet {th : List Nat} {b : Bool} {i v n : Nat} (made : s.publishSet p th b n = some (i, v, t)) : Evaluated p s t := by
  unfold State.publishSet at made
  split at made
  · cases made
  · dsimp only at made
    split at made
    · cases made
    · split at made
      · cases made
      next a w placed =>
        have swept : Evaluated p s ((s.modCorpus p (fun c => { c with curSet := none })).sweepSets p) := by
          refine trans ?_ (sweepSets p _)
          exact modCorpus (fun _ => rfl) fun _ => rfl
        have taken := swept.trans (alloc placed)
        cases made
        exact modCorpus_after ((taken.trans (of_aside (Aside.refl w).access)).trans (writeMem _ _)) (fun _ => rfl) fun _ => rfl

theorem trimAct (l n k : Nat) (out : Int) : Evaluated p s (s.trimAct l n k out) :=
  of_corpora (Trimmed.trimAct s l n k out).corpora (Trimmed.trimAct s l n k out).recs

end Evaluated

/-- The shares of the set in force. -/
def State.sketchShares (s : State) (p : Nat) : List (Nat × Nat) :=
  match (s.corpus p).curSet.bind (fun i => kvGet? i (s.corpus p).sets) with
  | some t => bitShares (s.thresholds t) (s.corpus p).loop.hist
  | none => []

/-- The node that has noted a sketch evaluation. -/
def State.sketchNoted (s : State) (p : Nat) : State :=
  (s.modTrim 3 p (fun u => { u with output := ((worstShare (s.sketchShares p) : Nat) : Int), input := (((s.corpus p).loop.since : Nat) : Int) })).modCorpus p
    (fun c => { c with loop := { c.loop with samples := (s.corpus p).loop.hist.length, evals := (s.corpus p).loop.seen / 4096 } })

theorem sketchNoted_reads (s : State) (p : Nat) : ((s.sketchNoted p).corpus p).loop.evals = (s.corpus p).loop.seen / 4096 ∧
    ((s.sketchNoted p).corpus p).epoch = (s.corpus p).epoch ∧ (s.sketchNoted p).recs = s.recs := by
  have same : (s.sketchNoted p).corpus p = { s.corpus p with loop := { (s.corpus p).loop with
      samples := (s.corpus p).loop.hist.length
      evals := (s.corpus p).loop.seen / 4096 } } := by
    unfold State.sketchNoted State.modCorpus State.corpus kvGetD
    dsimp only
    exact congrArg (Option.getD · ({} : Corpus)) (kvGet?_put_self _ _ _)
  exact ⟨by rw [same], by rw [same], rfl⟩

theorem execSketchThresholdEval_skips {s : State} {p : Nat} (skip : s.allocHeld = true ∨ (s.corpus p).loop.seen / 4096 ≤ (s.corpus p).loop.evals) :
    exec (.sketchThresholdEval p) s = .next s := by
  show execSketchThresholdEval p s = _
  unfold execSketchThresholdEval
  exact if_pos (.inr (skip.imp id .inr))

/-- The outcome of an evaluation that publishes the candidate. -/
def State.sketchPublish (s : State) (p : Nat) (l : SketchLoop) : Host.Outcome State Fault Refusal :=
  match s.publishSet p l.cand true l.hist.length with
  | none => .next (if s.setFree p then s.noteQuota p scQuota (s.overQuota p (fun t => (t.publishSet p l.cand true 0).isSome)) else s.bump
      (cBkePPublishHeld p) 1)
  | some (_, _, t) =>
    let t := t.modCorpus p (fun c => { c with loop := { c.loop with lastPub := some s.now, since := 0 } })
    .next (((t.trimAct 3 p 5 (t.trim 3 p).output).drogue 7 0).1)

theorem sketchPublish_kept (s : State) (p : Nat) (l : SketchLoop) : ∃ t, s.sketchPublish p l = .next t ∧ Evaluated p s t := by
  unfold State.sketchPublish
  split
  · refine ⟨_, rfl, .of_aside ?_⟩
    split
    · exact (Aside.refl s).noteQuota
    · exact (Aside.refl s).bump
  next made =>
    have kept := Evaluated.publishSet made
    refine ⟨_, rfl, ((kept.trans ?_).trans (.trimAct _ _ _ _)).trans (.of_aside (Aside.refl _).drogue)⟩
    exact .modCorpus (fun _ => rfl) fun _ => rfl

theorem execSketchThresholdEval_due {s : State} {p : Nat} (free : s.allocHeld = false) (on : s.configured p = true)
    (cand : (s.corpus p).loop.cand ≠ [])
    (due : (s.corpus p).loop.evals < (s.corpus p).loop.seen / 4096) : ∃ t, exec (.sketchThresholdEval p) s = .next t ∧ Evaluated p
        (s.sketchNoted p) t := by
  show ∃ t, execSketchThresholdEval p s = _ ∧ _
  unfold execSketchThresholdEval
  dsimp only
  have acts : ¬ ((s.corpus p).loop.cand.isEmpty = true ∨ s.allocHeld = true ∨ s.configured p = false ∨ (s.corpus p).loop.seen / 4096 ≤
      (s.corpus p).loop.evals) := by
    rintro (empty | held | off | early)
    · exact cand (List.isEmpty_iff.mp empty)
    · exact Bool.false_ne_true (free.symm.trans held)
    · exact Bool.false_ne_true (off.symm.trans on)
    · exact absurd due (Nat.not_lt.mpr early)
  rw [if_neg acts]
  have noted : Evaluated p (s.sketchNoted p) (s.sketchNoted p) := .refl _
  refine exists_next_ite (x := (s.sketchNoted p).sketchPublish p (s.corpus p).loop) ?_ ⟨_, rfl, noted⟩
  exact sketchPublish_kept _ _ _

/-! ### Placement -/

/-- What a placement tick does for a partition. -/
def State.placed (t : State) (p : Nat) : State :=
  if !t.configured p then t
  else
    let ts := t.emb.tables.filter (fun x => x.2.part == p && x.2.shard.isSome)
    if ts.isEmpty ∧ (kvGet? (4 * 512 + p) t.trims).isNone = true then t
    else
      let flying := fun (z : State) => (z.emb.tables.filter (fun x => x.2.part == p)).foldl (fun n x => n + x.2.drifts.length) 0
      let t := t.modTrim 4 p (fun u => { u with input := 0, output := ((flying t : Nat) : Int) })
      let t := ts.foldl (fun (z : State) x => z.placeTable p x.1 x.2) t
      t.modTrim 4 p (fun u => { u with output := ((flying t : Nat) : Int) })

theorem execPlacementTrimTick_eq (s : State) : exec .placementTrimTick s = .next ((List.range 64).foldl State.placed s) := rfl

theorem placed_off {s : State} {p : Nat} (off : s.configured p = false) : s.placed p = s := by
  unfold State.placed
  rw [off]
  rfl

theorem foldl_placed_off {l : List Nat} {s : State} (off : ∀ p ∈ l, s.configured p = false) : l.foldl State.placed s = s := by
  induction l with
  | nil => rfl
  | cons p l ih =>
    rw [List.foldl_cons, placed_off (off p List.mem_cons_self)]
    exact ih fun q there => off q (List.mem_cons_of_mem _ there)

theorem foldl_placed_one {l : List Nat} {s : State} {p : Nat} (once : l.Nodup) (there : p ∈ l) (others : ∀ q ∈ l, q ≠ p → s.configured q = false)
    (kept : ∀ q, (s.placed p).configured q = s.configured q) : l.foldl State.placed s = s.placed p := by
  induction l with
  | nil => exact absurd there List.not_mem_nil
  | cons q l ih =>
    obtain ⟨fresh, once⟩ := List.nodup_cons.mp once
    rw [List.foldl_cons]
    by_cases same : q = p
    · subst same
      refine foldl_placed_off fun r hr => (kept r).trans (others r (List.mem_cons_of_mem _ hr) fun e => fresh (e ▸ hr))
    · rw [placed_off (others q List.mem_cons_self same)]
      exact ih once ((List.mem_cons.mp there).resolve_left fun e => same e.symm) fun r hr => others r (List.mem_cons_of_mem _ hr)

/-- The load ratio of a table, as its partition's placement sees it. -/
def State.ratioOf (s : State) (x : Table) : Nat :=
  loadRatio (((x.map.map (fun e => e.node)).eraseDups).map (fun n => (n, if n = s.nodeId then x.loadAt s.now else kvGetD 0 n x.loads)))
      (x.loadAt s.now)

theorem placeTable_rests {s : State} {p tid : Nat} {x : Table}
    (rests : ((s.ratioOf x : Nat) : Int) ≤ (s.trim 4 p).target ∨ (s.trim 4 p).freeze = true) :
    s.placeTable p tid x = s.modTrim 4 p (fun u => { u with input := max u.input ((s.ratioOf x : Nat) : Int) }) := if_pos rests

theorem placed_rests {s : State} {p tid : Nat} {x : Table} (on : s.configured p = true) (only : s.emb.tables = [(tid, x)]) (mine : x.part = p)
    (held : x.shard.isSome = true) (rests : ((s.ratioOf x : Nat) : Int) ≤ (s.trim 4 p).target ∨ (s.trim 4 p).freeze = true) : ∃ a b c,
    s.placed p = ((s.modTrim 4 p a).modTrim 4 p b).modTrim 4 p c ∧ ((s.placed p).trim 4 p).input = ((s.ratioOf x : Nat) : Int) ∧
      ((s.placed p).trim 4 p).output = (x.drifts.length : Int) := by
  have tables : s.emb.tables.filter (fun x => x.2.part == p && x.2.shard.isSome) = [(tid, x)] := by
    rw [only, List.filter_cons_of_pos (by simp [mine, held]), List.filter_nil]
  have flying : (s.emb.tables.filter (fun x => x.2.part == p)).foldl (fun n x => n + x.2.drifts.length) 0 = x.drifts.length := by
    rw [only, List.filter_cons_of_pos (by simp [mine]), List.filter_nil]
    exact Nat.zero_add _
  refine ⟨fun u => { u with
    input := 0
    output := ((x.drifts.length : Nat) : Int) }, fun u => { u with input := max u.input ((s.ratioOf x : Nat) : Int) }, fun u =>
        { u with output := ((x.drifts.length : Nat) : Int) }, ?_⟩
  have reset := trim_modTrim s 4 p fun u => { u with
    input := 0
    output := ((x.drifts.length : Nat) : Int) }
  have step := placeTable_rests (s := s.modTrim 4 p fun u => { u with
    input := 0
    output := ((x.drifts.length : Nat) : Int) }) (p := p) (tid := tid) (x := x) (by rw [reset]; exact rests)
  have all : s.placed p = ((s.modTrim 4 p fun u => { u with
      input := 0
      output := ((x.drifts.length : Nat) : Int) }).modTrim 4 p fun u => { u with input := max u.input ((s.ratioOf x : Nat) : Int) }).modTrim 4 p
        fun u => { u with output := ((x.drifts.length : Nat) : Int) } := by
    unfold State.placed
    rw [on, tables]
    dsimp only
    rw [flying]
    refine (if_neg (by decide)).trans ((if_neg (by simp)).trans ?_)
    rw [List.foldl_cons, List.foldl_nil, step]
    exact congrArg (fun n : Nat => State.modTrim _ 4 p fun u => { u with output := (n : Int) }) flying
  refine ⟨all, ?_, ?_⟩
  · rw [all, trim_modTrim, trim_modTrim, reset]
    show max (0 : Int) _ = _
    omega
  · rw [all, trim_modTrim]

/-- Settles O49: every loop moves its own units within their limits, beside counts and the drogue. -/
theorem trim : Obligations.Trim := by
  unfold Obligations.Trim
  refine ⟨?volt, ?backstop, ?eye, ?refresh, ?held, ?sketch, ?none, ?one, ?train⟩
  case volt =>
    intro s rates powers slacks w1 w10 small1 small10
    obtain ⟨p1, p10, mem, recs, units⟩ := voltRun_reads s rates powers slacks small1 small10
    have ends : ∃ t, exec (.voltageTrimTick rates powers w1 w10 slacks) s = .next t ∧ PackageNoted (s.voltRun rates powers slacks w1 w10) t := by
      have noted := backstop_noted (s.voltRun rates powers slacks w1 w10) w10
      rcases execVoltageTrimTick_eq s rates powers slacks w1 w10 with whole | missed
      · exact ⟨_, whole, noted⟩
      · exact ⟨_, missed, noted.trans (floorMiss_noted _)⟩
    obtain ⟨t, run, noted⟩ := ends
    have same : ∀ d, t.trim 0 d = (s.voltRun rates powers slacks w1 w10).trim 0 d := fun d => congrArg (kvGetD _ _) noted.trims
    refine ⟨t, run, noted.w1.trans p1, noted.w10.trans p10, noted.mem.trans mem, noted.recs.trans recs, fun d small => ?_⟩
    obtain ⟨rest, idle, acts⟩ := units d small
    obtain ⟨lo, hi, input⟩ := rest_limits rest
    rw [same]
    have within : (s.trim 0 d).lo ≤ (s.trim 0 d).hi → (s.trim 0 d).freeze = false → s.domPowered d = true →
        (s.trim 0 d).lo ≤ ((s.voltRun rates powers slacks w1 w10).trim 0 d).output ∧ ((s.voltRun rates powers slacks w1 w10).trim 0 d).output ≤
            (s.trim 0 d).hi :=
      fun limits thawed on => by
        obtain ⟨above, below⟩ := acts limits thawed on
        exact ⟨lo ▸ above, hi ▸ below⟩
    refine ⟨input, lo, hi, fun above below => ?_, fun on thawed limits => within limits thawed on, fun frozen => idle (.inl frozen)⟩
    cases frozen : (s.trim 0 d).freeze with
    | true =>
      rw [idle (.inl frozen)]
      exact ⟨above, below⟩
    | false =>
      cases on : s.domPowered d with
      | true => exact within (above.trans below) frozen on
      | false =>
        rw [idle (.inr on)]
        exact ⟨above, below⟩
  case backstop =>
    intro s rates powers slacks w1 w10 small1 small10 off frozen high
    obtain ⟨t, entered, on, clamped, counted⟩ := backstops_voltRun rates powers slacks small1 small10 off frozen high
    rcases execVoltageTrimTick_eq s rates powers slacks w1 w10 with whole | missed
    · exact ⟨t, by rw [whole, entered], on, clamped, counted⟩
    · obtain ⟨on', clamped', counted'⟩ := floorMiss_backstop t
      exact ⟨_, by rw [missed, entered], on'.trans on, clamped'.trans clamped, counted'.trans counted⟩
  case eye =>
    intro s lane h w high wide
    refine ⟨fun fab => ?_, fun host small => ?_, fun small held => ?_, fun none => ?_⟩
    · obtain ⟨t, run, kept⟩ := execEqualisationTrimTick_kept (s := s) (lane := lane) h w (by omega) (eyeReg_fab lane fab)
      obtain ⟨height, width⟩ := eyeNoted_fab s fab high wide
      exact ⟨t, run, (congrArg (Fld.get _) kept.reg).trans height, (congrArg (Fld.get _) kept.reg).trans width,
        kept.input.trans (by rw [trim_eyeNoted]), kept.mem.trans (mem_eyeNoted s lane h w)⟩
    · obtain ⟨t, run, kept⟩ := execEqualisationTrimTick_kept (s := s) (lane := lane) h w small (eyeReg_host (lane - 256) (by omega))
      obtain ⟨height, width⟩ := eyeNoted_host s host high wide
      exact ⟨t, run, (congrArg (Fld.get _) kept.reg).trans height, (congrArg (Fld.get _) kept.reg).trans width,
        kept.input.trans (by rw [trim_eyeNoted]), kept.mem.trans (mem_eyeNoted s lane h w)⟩
    · obtain ⟨ctrs, out⟩ := eyeNoted_sent s lane h w
      exact ⟨_, execEqualisationTrimTick_held h w small held, trim_eyeNoted s lane h w, ctrs, out⟩
    · have tick : exec (.equalisationTrimTick lane h w) s = execEqualisationTrimTick lane h w s := rfl
      rw [tick]
      unfold execEqualisationTrimTick
      exact if_pos none
  case refresh =>
    intro s n act a raw temp small hot activity
    subst hot
    obtain ⟨unit, base, mem, noted⟩ := stackNoted_reads s (n := n) act raw
    rw [← activity] at unit
    obtain ⟨kept, rest, frozen, acts⟩ := stackMoved_reads (s.stackNoted n act raw) n a
    have run := execRefreshTrimTick_eq (s := s) act raw small
    rw [← activity] at run
    generalize s.stackNoted n act raw = b at *
    have low : Unreported (rBkeStackStatus n) := unreported_low (by unfold rBkeStackStatus; omega)
    have stack : (b.stackMoved n a).board.stackBase = b.board.stackBase := kept.view fun v => v.board.stackBase
    generalize b.stackMoved n a = c at *
    obtain ⟨unit', mem', temp', interval⟩ := refreshNow_reads c n
    rw [unit] at frozen acts rest
    refine ⟨_, run, ?_, ?_, ?_, mem'.trans (kept.mem.trans mem), fun off => ?_, fun on limits => ?_⟩
    · rw [unit']
      exact (rest_limits rest).2.2
    · rw [interval, unit', stack, base]
    · exact temp'.trans ((congrArg (Fld.get _) (kept.reg _ low)).trans noted)
    · rw [unit']
      exact frozen off
    · rw [unit', acts on]
      exact clamp_eq limits _
  case held =>
    intro s p held
    exact execSketchThresholdEval_skips (.inl held)
  case sketch =>
    intro s p free on cand
    refine ⟨fun due => ?_, fun early => execSketchThresholdEval_skips (.inr early)⟩
    obtain ⟨t, run, kept⟩ := execSketchThresholdEval_due free on cand due
    obtain ⟨evals, epoch, recs⟩ := sketchNoted_reads s p
    exact ⟨t, run, kept.evals.trans evals, kept.epoch.trans epoch, kept.recs.trans recs⟩
  case none =>
    intro s off
    rw [execPlacementTrimTick_eq, foldl_placed_off fun p there => off p (List.mem_range.mp there)]
  case one =>
    intro s p tid r x small on others only mine held ratio rests
    subst ratio
    obtain ⟨a, b, c, all, input, output⟩ := placed_rests on only mine held rests
    have run := foldl_placed_one (s := s) List.nodup_range (List.mem_range.mpr small) (fun q there ne => others q (List.mem_range.mp there) ne)
        (fun q => by rw [all]; rfl)
    refine ⟨_, (execPlacementTrimTick_eq s).trans (congrArg _ run), input, output, ?_, ?_⟩
    · rw [all]
      rfl
    · rw [all]
      rfl
  case train =>
    intro s tier c rd wr ready
    have may : ¬ (1 < tier ∨ (tier = 0 ∧ 256 ≤ c) ∨ (tier = 1 ∧ 16 ≤ c) ∨ (tier = 0 ∧ (kvGet? c s.bank).any (fun b => b.state != 0) = true)) := by
      rcases ready with ⟨zero, small, idle⟩ | ⟨one, small⟩
      · rintro (high | ⟨-, high⟩ | ⟨high, -⟩ | ⟨-, busy⟩)
        · omega
        · omega
        · omega
        · cases there : kvGet? c s.bank with
          | none =>
            rw [there] at busy
            exact Bool.false_ne_true busy
          | some b =>
            rw [there] at busy
            simp [idle b there] at busy
      · omega
    refine ⟨s.putMargins (kvPut (tier * 256 + c) (min 0xFFFF rd, min 0xFFFF wr, s.now) s.margins), if_neg may, kvGet?_put_self _ _ _, rfl, rfl, rfl⟩

end Sys2Proof.Machine
end
section
set_option Elab.async false
/-! SUPPORT. Models (spec/08): binding to slots, runs on an owned array, and the fetch of layers into a window. -/

namespace Sys2Proof.Machine

/-! ### Bindings -/

/-- `t` follows `s` by freeing what models held: registers, records, messages and bindings are as they were. -/
structure BindingsKept (s t : State) : Prop where
  regs : t.regs = s.regs
  recs : t.recs = s.recs
  out : t.out = s.out
  models : t.models = s.models

namespace BindingsKept

variable {s t u : State}

theorem refl (s : State) : BindingsKept s s := ⟨rfl, rfl, rfl, rfl⟩

theorem trans (h : BindingsKept s t) (g : BindingsKept t u) :
    BindingsKept s u := ⟨g.regs.trans h.regs, g.recs.trans h.recs, g.out.trans h.out, g.models.trans h.models⟩

theorem foldl {α : Type} {f : State → α → State} {l : List α} (step : ∀ u a, BindingsKept u (f u a)) (s : State) : BindingsKept s (l.foldl f s) := by
  induction l generalizing s with
  | nil => exact refl s
  | cons a l ih => exact (step s a).trans (ih _)

theorem release (s : State) (a : Nat) : BindingsKept s (s.release a) := by
  unfold State.release
  split
  · exact refl s
  · split
    · exact ⟨rfl, rfl, rfl, rfl⟩
    · exact ⟨rfl, rfl, rfl, rfl⟩

theorem unholdModel (s : State) (ti : Nat) : BindingsKept s (s.unholdModel ti) := by
  unfold State.unholdModel
  split
  · exact refl s
  · exact ⟨rfl, rfl, rfl, rfl⟩

theorem freeOldModels (s : State) : BindingsKept s s.freeOldModels := by
  unfold State.freeOldModels
  refine trans (t := s.putOldModels (s.oldModels.filter (fun b => s.modelNeeded b.1 b.2.tensor))) ⟨rfl, rfl, rfl, rfl⟩ ?_
  exact foldl (fun u (b : Nat × Binding) => (foldl release u).trans (unholdModel _ b.2.tensor)) _

end BindingsKept

theorem freeOldModels_calm {s t : State} (h : Calm s t) : Calm s t.freeOldModels := by
  unfold State.freeOldModels
  refine h.putOldModels.foldl fun u b g => ?_
  have freed : Calm s (u.freeBinding b.2) := g.foldl fun _ _ k => k.release
  exact .ite freed freed.modMem

theorem setBinding_calm {s t : State} (p slot : Nat) (b : Option Binding) (h : Calm s t) : Calm s (t.setBinding p slot b) :=
  freeOldModels_calm h.putOldModels.putModels

theorem setBinding_models (s : State) (p slot : Nat) (b : Option Binding) : (s.setBinding p slot b).models = (match b with
    | some x => kvPut (p * 256 + slot) x s.models
    | none => kvDel (p * 256 + slot) s.models) := (BindingsKept.freeOldModels _).models

theorem setBinding_bound (s : State) (p slot : Nat) (b : Binding) : (s.setBinding p slot (some b)).binding p slot = some b := by
  unfold State.binding
  rw [setBinding_models]
  exact kvGet?_put_self _ _ _

theorem setBinding_empty (s : State) (p slot : Nat) : (s.setBinding p slot none).binding p slot = none := by
  unfold State.binding
  rw [setBinding_models]
  exact kvGet?_del_self _ _

theorem setBinding_host (s : State) (p slot : Nat) (b : Option Binding) :
    (s.setBinding p slot b).regs = s.regs ∧ (s.setBinding p slot b).recs = s.recs ∧
    (s.setBinding p slot b).out = s.out := by
  have kept := BindingsKept.freeOldModels ((s.putOldModels (s.oldModels ++ (s.binding p slot).toList.map (fun x => (p, x)))).putModels (match b with
    | some x => kvPut (p * 256 + slot) x s.models
    | none => kvDel (p * 256 + slot) s.models))
  exact ⟨kept.regs, kept.recs, kept.out⟩

theorem measure_calm {s t : State} (slot kind outcome p serial : Nat) (d : List Byte) (h : Calm s t) :
    Calm s (t.measure slot kind outcome p serial d) := by
  have high : ∀ w, 0x2800000 ≤ rSecSlot slot w := fun w => by
    unfold rSecSlot
    omega
  have noted : Calm s (t.putDigest (rSecSlot slot) (extendSlot (t.slotBytes slot) d)) := h.foldl fun u w g => g.setReg (high w)
  unfold State.measure
  dsimp only
  split
  · exact noted.putSec
  · exact noted.putSec.logAppend

theorem measureModel_calm {s t : State} (v : State) (p : Nat) (c : HostCmd) (outcome : Nat) (h : Calm s t) :
    Calm s (t.measureModel v p c outcome) := by
  unfold State.measureModel
  split
  · exact h
  · split
    · exact h
    · exact measure_calm _ _ _ _ _ _ h

/-- The areas of a window in Tier A, taken die by die. -/
def windowAreas (p bytes : Nat) (acc : Option (List Nat × State)) : Option (List Nat × State) :=
  match acc with
  | none => none
  | some (as, t) => (t.alloc p 0 bytes .model).map (fun x => (as ++ [x.1], x.2))

theorem foldl_windowAreas {p bytes : Nat} {dies as : List Nat} {s v : State} {acc : Option (List Nat × State)}
    (placed : dies.foldl (fun acc _ => windowAreas p bytes acc) acc = some (as, v)) :
    ∃ bs t, acc = some (bs, t) ∧ as.length = bs.length + dies.length ∧ (Calm s t → Calm s v) := by
  induction dies generalizing acc with
  | nil => exact ⟨as, v, placed, rfl, id⟩
  | cons d dies ih =>
    obtain ⟨bs, t, first, length, calm⟩ := ih placed
    cases acc with
    | none => exact absurd first (by simp [windowAreas])
    | some acc =>
      obtain ⟨cs, u⟩ := acc
      obtain ⟨⟨a, w⟩, taken, same⟩ := Option.map_eq_some_iff.mp
          (show (u.alloc p 0 bytes .model).map (fun x => (cs ++ [x.1], x.2)) = some (bs, t) from first)
      cases same
      refine ⟨cs, u, rfl, ?_, fun h => calm (h.alloc taken)⟩
      rw [length, List.length_append, List.length_cons, List.length_cons, List.length_nil]
      omega

/-- What a window that is placed holds. -/
structure Placed (s v : State) (p : Nat) (c : HostCmd) (ti : Nat) (m : Tensor) (b : Binding) : Prop where
  tensor : b.tensor = ti
  place : b.place = c.param 2 1
  layers : b.layers = min c.windowLayers (s.headOf m).layers
  keep : b.keep = bitOf (c.param 1 1) 1
  bytes : b.bytes = windowBytes (s.weights m (s.headOf m)) c.windowLayers
  retired : b.retired = false
  buffers : c.param 2 1 = 0 → b.areas = [] ∧ v = s ∧ ∀ d ∈ s.arrDies p, s.bufferUsed p d + b.bytes ≤ s.bufferShare p d
  inPlace : c.param 2 1 ≠ 0 → tierOf m.addr = some 0 → b.areas = [] ∧ v = s
  areas : c.param 2 1 ≠ 0 → tierOf m.addr ≠ some 0 → b.areas.length = (s.arrDies p).length
  calm : Calm s v

theorem placeWindow_placed {s v : State} {p ti : Nat} {c : HostCmd} {m : Tensor} {b : Binding} (placed : s.placeWindow p c ti m = some (b, v)) :
    Placed s v p c ti m b := by
  unfold State.placeWindow at placed
  dsimp only at placed
  split at placed
  next zero =>
    split at placed
    next room =>
      cases placed
      exact ⟨rfl, rfl, rfl, rfl, rfl, rfl, fun _ => ⟨rfl, rfl, fun d there => of_decide_eq_true (List.all_eq_true.mp room d there)⟩, fun no =>
          absurd zero no,
        fun no => absurd zero no, .refl s⟩
    · cases placed
  next one =>
    split at placed
    next near =>
      cases placed
      exact ⟨rfl, rfl, rfl, rfl, rfl, rfl, fun no => absurd no one, fun _ _ => ⟨rfl, rfl⟩, fun _ no => absurd near no, .refl s⟩
    next far =>
      obtain ⟨⟨as, t⟩, taken, same⟩ := Option.map_eq_some_iff.mp placed
      cases same
      obtain ⟨bs, u, first, length, calm⟩ := foldl_windowAreas (s := s) (p := p) (bytes := windowBytes (s.weights m (s.headOf m)) c.windowLayers)
          taken
      cases first
      exact ⟨rfl, rfl, rfl, rfl, rfl, rfl, fun no => absurd no one, fun _ no => absurd no far, fun _ _ => length.trans (Nat.zero_add _), calm
          (.refl s)⟩

/-! ### MODEL_BIND and MODEL_UNBIND -/

section
variable {s : State} {p q cid rid : Nat} {r : Rec} (may : MayRun s p q cid 0x50 rid r)
include may

theorem execModelBind_done {v : State} {ti : Nat} {m : Tensor} {b : Binding} (op : bitOf (r.cmd.param 1 1) 0 = false) (free : s.allocHeld = false)
    (good : (s.named r).bindCheck p r.cmd = none) (near : (s.named r).nearTensor p (r.cmd.param 8 8) = some (ti, m))
    (placed : (s.measureModel (s.named r) p r.cmd 0).placeWindow p r.cmd ti m = some (b, v)) : exec (.modelBind p q cid) s = .next
      (((v.setBinding p (r.cmd.param 0 1) (some b)).modMem
          (fun x => { x with tensors := kvUpd ti (fun y => { y with holder := .model }) x.tensors })).done p rid 0 b.bytes
        ((s.weights m (s.headOf m)).foldl (· + ·) 0)) := by
  show execModelBind p q cid s = _
  unfold execModelBind
  rw [may.1]
  dsimp only
  rw [if_neg (by rw [op, free]; exact fun no => no.elim Bool.false_ne_true Bool.false_ne_true), good, near]
  dsimp only
  rw [placed]

theorem execModelBind_refused {st : Nat} (op : bitOf (r.cmd.param 1 1) 0 = false) (free : s.allocHeld = false)
    (bad : (s.named r).bindCheck p r.cmd = some st) :
    exec (.modelBind p q cid) s = .next ((s.measureModel (s.named r) p r.cmd 1).refuse p rid st ((s.named r).bindOver p r.cmd)) := by
  show execModelBind p q cid s = _
  unfold execModelBind
  rw [may.1]
  dsimp only
  rw [if_neg (by rw [op, free]; exact fun no => no.elim Bool.false_ne_true Bool.false_ne_true), bad]

theorem execModelBind_held (held : s.allocHeld = true) : exec (.modelBind p q cid) s = .next s := by
  show execModelBind p q cid s = _
  unfold execModelBind
  rw [may.1]
  exact if_pos (.inr held)

theorem MayRun.failBind (st : Nat) : Completes s (s.fail p rid st) p q cid st 0 0 0 :=
  may.failed (.refl s) may.2.1 may.2.2 (.inl (by decide))

theorem execModelUnbind_refused {st : Nat} (op : bitOf (r.cmd.param 1 1) 0 = true) (bad : s.bindCheck p r.cmd = some st) :
    exec (.modelUnbind p q cid) s = .next (s.fail p rid st) := by
  show execModelUnbind p q cid s = _
  unfold execModelUnbind
  rw [may.1]
  dsimp only
  rw [op, bad]
  exact if_neg Bool.false_ne_true

theorem execModelUnbind_empty (op : bitOf (r.cmd.param 1 1) 0 = true) (good : s.bindCheck p r.cmd = none)
    (none : s.binding p (r.cmd.param 0 1) = none) :
    exec (.modelUnbind p q cid) s = .next (s.done p rid 0 0 0) := by
  show execModelUnbind p q cid s = _
  unfold execModelUnbind
  rw [may.1]
  dsimp only
  rw [op, good, none]
  exact if_neg Bool.false_ne_true

theorem execModelUnbind_bound {b : Binding} (op : bitOf (r.cmd.param 1 1) 0 = true) (good : s.bindCheck p r.cmd = none)
    (bound : s.binding p (r.cmd.param 0 1) = some b) :
    exec (.modelUnbind p q cid) s = .next ((s.setBinding p (r.cmd.param 0 1) none).done p rid 0 b.bytes (s.modelWeight b.tensor)) := by
  show execModelUnbind p q cid s = _
  unfold execModelUnbind
  rw [may.1]
  dsimp only
  rw [op, good, bound]
  exact if_neg Bool.false_ne_true

theorem MayRun.doneUnbound (slot r0 r1 : Nat) : Completes s ((s.setBinding p slot none).done p rid 0 r0 r1) p q cid scDone 0 r0 r1 := by
  obtain ⟨regs, recs, out⟩ := setBinding_host s p slot none
  have pstate : (s.setBinding p slot none).pstate p = s.pstate p := by
    unfold State.pstate State.fld State.reg
    rw [regs]
  exact may.done (.of_eq out) (by rw [recs]; exact may.2.1) (by rw [pstate]; exact may.2.2)

end

/-! ### ARRAY_RUN -/

theorem mayRun_calm {s v : State} {p rid ti : Nat} (live : s.arraysGone p = false) (run : s.mayRun p 0 rid ti = (true, v)) : Calm s v := by
  unfold State.mayRun at run
  rw [if_neg (by rw [live]; exact fun no => no.elim (fun e => e rfl) Bool.false_ne_true)] at run
  split at run
  · cases run
  next a there =>
    dsimp only at run
    split at run
    next whole =>
      unfold State.modelGate at run
      split at run
      · cases run
        exact .refl s
      · split at run
        · dsimp only at run
          split at run
          · cases run
          · obtain ⟨-, same⟩ := Prod.mk.inj run
            subst same
            exact (Calm.refl s).modArr
        · cases run
    · cases run

theorem runModel_calm {s v : State} {m : Tensor} {rows : Nat} {data : List Byte} {o : ModelOut} (ran : s.runModel m rows data = (o, v)) :
    Calm s v ∧ v.flash = s.flash := by
  unfold State.runModel at ran
  dsimp only at ran
  split at ran
  · cases ran
    exact ⟨.refl s, rfl⟩
  · cases ran
    exact ⟨(Calm.refl s).putFree, rfl⟩

theorem countRun_aside (s : State) (a p : Nat) (t : Tensor) (o : ModelOut) : Aside s (s.countRun a p t o) := by
  have charged : Aside s (s.chargeWeights p t) := by
    unfold State.chargeWeights
    exact .ite (Aside.refl s).chargeBw (.refl s)
  have clipped : ∀ u, Aside u (u.addClips a o.req o.clip) := fun u => by
    refine (Aside.refl u).foldl fun x g h => ?_
    have first : Aside u (if o.req.getD g 0 = 0 then x else x.bump (cMxaReq a g) (o.req.getD g 0)) := .ite h h.bump
    exact .ite first first.bump
  unfold State.countRun
  dsimp only
  have both : Aside s (if (s.chargeWeights p t).clipCounts a p then (s.chargeWeights p t).addClips a o.req o.clip else s.chargeWeights p t) :=
    .ite (charged.trans (clipped _)) charged
  have all := both.bump (o := cMxaSteps a) (n := o.steps) |>.addMeter (p := p) (i := 6) (n := o.steps) |>.bump (o := cMxaRows a) (n := o.rows)
      |>.bump (o := cMxaInstrs a) (n := o.instrs)
  exact .ite all all.bump

section
variable {s : State} {p q cid rid : Nat} {r : Rec} (may : MayRun s p q cid 0x51 rid r) (input : List Byte)
include may

theorem MayRun.failRun (st : Nat) : Completes s (s.fail p rid st) p q cid st 0 0 0 :=
  may.failed (.refl s) may.2.1 may.2.2 (.inl (by decide))

theorem execArrayRun_refused {st : Nat} (bad : (s.named r).arrayRunCheck p r.cmd (s.runTensor r) = some st) :
    exec (.arrayRun p q cid input) s = .next (s.fail p rid st) := by
  show execArrayRun p q cid input s = _
  unfold execArrayRun
  rw [may.1]
  dsimp only
  rw [bad]

variable {ti : Nat} {m : Tensor} (of : s.runTensor r = some (ti, m)) (good : (s.named r).arrayRunCheck p r.cmd (some (ti, m)) = none)
include of good

theorem execArrayRun_gone (gone : s.arraysGone p = true) : exec (.arrayRun p q cid input) s = .next (s.fail p rid scFence) := by
  show execArrayRun p q cid input s = _
  unfold execArrayRun
  rw [may.1]
  dsimp only
  rw [of, good]
  exact if_pos gone

theorem execArrayRun_queued (live : s.arraysGone p = false) (later : s.isTurn p rid = false) :
    exec (.arrayRun p q cid input) s = .next (s.queueArrWork p rid) := by
  show execArrayRun p q cid input s = _
  unfold execArrayRun
  rw [may.1]
  dsimp only
  rw [of, good]
  dsimp only
  rw [live, later]
  exact (if_neg Bool.false_ne_true).trans (if_pos rfl)

theorem execArrayRun_waits {v : State} (live : s.arraysGone p = false) (turn : s.isTurn p rid = true) (waits : s.mayRun p 0 rid ti = (false, v)) :
    exec (.arrayRun p q cid input) s = .next v := by
  show execArrayRun p q cid input s = _
  unfold execArrayRun
  rw [may.1]
  dsimp only
  rw [of, good]
  dsimp only
  rw [live, turn, waits]
  exact (if_neg Bool.false_ne_true).trans ((if_neg Bool.false_ne_true).trans (if_pos rfl))

/-- What an owned array answers to a model that it may run. -/
def State.arrayRan (s : State) (p rid a rows : Nat) (m : Tensor) (h : ModelHead) (data : List Byte) : State :=
  match s.modelRefused a p m h with
  | some st => ((s.bump (cMxaRefused a) 1).dropArrWork rid).fail p rid st
  | none =>
    let (o, t) := s.runModel m rows data
    let t := (t.countRun a p m o).dropArrWork rid
    (t.complete p rid scDone 0 rows (o.clip.foldl (· + ·) 0) o.steps o.bytes).freeOldModels

theorem execArrayRun_runs {v w : State} {a : Nat} {data : List Byte} (live : s.arraysGone p = false) (turn : s.isTurn p rid = true)
    (run : s.mayRun p 0 rid ti = (true, v))
    (owned : v.ownedArray p = some a) (read : v.readInput p r.flow (r.cmd.param 8 8) ((s.headOf m).inputBytes (r.cmd.param 4 4)) input = (data, w)) :
    exec (.arrayRun p q cid input) s = .next (w.arrayRan p rid a (r.cmd.param 4 4) m (s.headOf m) data) := by
  show execArrayRun p q cid input s = _
  unfold execArrayRun
  rw [may.1]
  dsimp only
  rw [of, good]
  dsimp only
  rw [live, turn, run]
  refine (if_neg Bool.false_ne_true).trans ((if_neg Bool.false_ne_true).trans ((if_neg Bool.false_ne_true).trans ?_))
  dsimp only
  rw [owned, Option.getD_some, read]
  dsimp only
  unfold State.arrayRan
  cases w.modelRefused a p m (s.headOf m) with
  | none =>
    obtain ⟨o, t⟩ := w.runModel m (r.cmd.param 4 4) data
    dsimp only
  | some st => dsimp only

end

theorem arrayRan_refused {s : State} {p rid a rows st : Nat} {m : Tensor} {h : ModelHead} (data : List Byte)
    (refused : s.modelRefused a p m h = some st) :
    s.arrayRan p rid a rows m h data = ((s.bump (cMxaRefused a) 1).dropArrWork rid).fail p rid st := by
  unfold State.arrayRan
  rw [refused]

theorem arrayRan_done {s t : State} {p rid a rows : Nat} {m : Tensor} {h : ModelHead} {data : List Byte} {o : ModelOut}
    (taken : s.modelRefused a p m h = none)
    (ran : s.runModel m rows data = (o, t)) : s.arrayRan p rid a rows m h data =
      (((t.countRun a p m o).dropArrWork rid).complete p rid scDone 0 rows (o.clip.foldl (· + ·) 0) o.steps o.bytes).freeOldModels := by
  unfold State.arrayRan
  rw [taken, ran]

/-- A run whose results lie in no slow tier completes its command. -/
theorem arrayRan_completes {s w t : State} {p q cid rid a rows : Nat} {r : Rec} {m : Tensor} {h : ModelHead} {data : List Byte} {o : ModelOut}
    (may : MayRun s p q cid 0x51 rid r) (small : p < 64) (calm : Calm s w) (taken : w.modelRefused a p m h = none)
        (ran : w.runModel m rows data = (o, t))
    (plain : PlainResult t r) : Completes s (w.arrayRan p rid a rows m h data) p q cid scDone rows (o.clip.foldl (· + ·) 0) o.steps := by
  have counted := countRun_aside t a p m o
  have calm' : Calm s ((t.countRun a p m o).dropArrWork rid) := ((calm.trans (runModel_calm ran).1).aside counted).putArrWork
  have flash : ((t.countRun a p m o).dropArrWork rid).flash = t.flash := counted.view State.flash
  rw [arrayRan_done taken ran]
  have done := may.completes calm'.sent (calm'.recGet may.2.1) (by rw [calm'.pstate small]; exact may.2.2) p scDone 0 rows
      (o.clip.foldl (· + ·) 0) o.steps o.bytes
    (.inl fun far => by rw [flash]; exact plain far)
  rw [finalCount_done] at done
  exact done.mono (.of_eq (BindingsKept.freeOldModels _).out)

/-! ### Layers fetched -/

/-- The node whose array has the next layers of its model. -/
def State.layersFetched (s : State) (a p : Nat) (m : ModelRun) (w : Nat × Nat) : State :=
  let s := s.setWindow p m.tensor (a / 2) w
  let s := if s.now = m.since then s else s.bump (cMxaWindowStallNs a) (s.now - m.since)
  s.modArr a (fun u => { u with model := some { m with upto := w.1 + w.2, since := s.now } })

theorem execLayerFetchDone_next {s : State} {a p : Nat} {m : ModelRun} {b : Binding} (runs : (s.arrUnit a).model = some m)
    (bound : s.runBinding m.part m.tensor = some b)
    (owned : (s.share a).owner = some p) (mine : m.part = p) (more : m.upto < s.layersOf m.tensor) :
    exec (.layerFetchDone a p) s = .next (s.layersFetched a p m (b.slide (s.windowOf b (a / 2)) m.upto)) := by
  show execLayerFetchDone a p s = _
  unfold execLayerFetchDone
  rw [runs]
  dsimp only
  rw [bound]
  dsimp only
  refine (if_neg ?_).trans rfl
  rintro (other | other | whole)
  · exact other owned
  · exact other mine
  · exact absurd more (Nat.not_lt.mpr whole)

theorem execLayerFetchDone_idle {s : State} {a p : Nat}
    (idle : (s.arrUnit a).model = none ∨ (∃ m, (s.arrUnit a).model = some m ∧ (m.part ≠ p ∨ s.layersOf m.tensor ≤ m.upto)) ∨
    (s.share a).owner ≠ some p) : exec (.layerFetchDone a p) s = .next s := by
  show execLayerFetchDone a p s = _
  unfold execLayerFetchDone
  split
  · rfl
  next m runs =>
    split
    · rfl
    · refine if_pos ?_
      rcases idle with none | ⟨m', runs', off⟩ | other
      · exact absurd (runs.symm.trans none) (by simp)
      · cases runs.symm.trans runs'
        exact .inr off
      · exact .inl other

theorem layersFetched_reads (s : State) (a p : Nat) (m : ModelRun) (w : Nat × Nat) : ((s.layersFetched a p m w).arrUnit a).model = some { m with
      upto := w.1 + w.2
      since := s.now } ∧ (s.layersFetched a p m w).models = (s.setWindow p m.tensor (a / 2) w).models ∧ (s.layersFetched a p m w).mem = s.mem ∧
    (s.layersFetched a p m w).parts = s.parts := by
  have slid : (s.setWindow p m.tensor (a / 2) w).mem = s.mem ∧ (s.setWindow p m.tensor (a / 2) w).parts = s.parts ∧
      (s.setWindow p m.tensor (a / 2) w).now = s.now :=
    ⟨rfl, rfl, rfl⟩
  unfold State.layersFetched
  dsimp only
  generalize s.setWindow p m.tensor (a / 2) w = t at *
  obtain ⟨mem, parts, now⟩ := slid
  have counted : ∀ u, u = (if t.now = m.since then t else t.bump (cMxaWindowStallNs a) (t.now - m.since)) →
      u.models = t.models ∧ u.mem = t.mem ∧ u.parts = t.parts ∧ u.now = t.now := by
    rintro u rfl
    split
    · exact ⟨rfl, rfl, rfl, rfl⟩
    · simp only [State.bump_reads, and_self, State.now]
  obtain ⟨models', mem', parts', now'⟩ := counted _ rfl
  generalize (if t.now = m.since then t else t.bump (cMxaWindowStallNs a) (t.now - m.since)) = u at *
  refine ⟨?_, models', mem'.trans mem, parts'.trans parts⟩
  unfold State.arrUnit State.modArr kvGetD
  rw [now', now]
  exact congrArg (fun x : Option ArrUnit => (x.getD {}).model) (kvGet?_put_self _ _ _)

/-- Settles O28: binding, running and fetching layers change models, memory and the array, and complete their own command. -/
theorem models : Obligations.Models := by
  unfold Obligations.Models
  refine ⟨?bind, ?place, ?bindBad, ?bindHeld, ?unbind, ?unbindBad, ?run, ?runBad, ?runWaits, ?fetch, ?fetchIdle⟩
  case bind =>
    intro s v p q cid rid r ti sum m b small may op free good near placed total
    subst total
    have calm : Calm s v := (measureModel_calm (s.named r) p r.cmd 0 (.refl s)).trans (placeWindow_placed placed).calm
    refine ⟨_, execModelBind_done may op free good near placed, may.doneAfter (setBinding_calm p _ _ calm).modMem small, ?_⟩
    exact setBinding_bound v p _ b
  case place =>
    intro s v p ti n c m b placed layers
    subst layers
    obtain ⟨tensor, place, layers, keep, bytes, retired, buffers, inPlace, areas, -⟩ := placeWindow_placed placed
    exact ⟨tensor, place, layers, keep, bytes, retired, buffers, inPlace, areas⟩
  case bindBad =>
    intro s p q cid rid st r small may op free bad
    refine ⟨_, execModelBind_refused may op free bad, ?_⟩
    have noted : Calm s ((s.measureModel (s.named r) p r.cmd 1).noteQuota p st ((s.named r).bindOver p r.cmd)) :=
      (measureModel_calm (s.named r) p r.cmd 1 (.refl s)).aside (Aside.refl _).noteQuota
    exact may.failedAfter noted small (.inl (by decide))
  case bindHeld =>
    intro s p q cid rid r may op held
    exact execModelBind_held may held
  case unbind =>
    intro s p q cid rid r may op good
    refine ⟨fun none => ⟨execModelUnbind_empty may op good none, may.done (.refl s) may.2.1 may.2.2⟩, fun b bound => ?_⟩
    refine ⟨_, _, execModelUnbind_bound may op good bound, may.doneUnbound _ _ _, setBinding_empty s p _, fun m there => ?_⟩
    unfold State.modelWeight
    rw [there]
    rfl
  case unbindBad =>
    intro s p q cid rid st r may op bad
    exact ⟨_, execModelUnbind_refused may op bad, may.failBind st⟩
  case run =>
    intro s v w x p q cid rid input r ti m data o a rows small may of good live turn run owned number read
    subst number
    have calm : Calm s w := (mayRun_calm live run).trans
        (by rw [← show (v.readInput p r.flow (r.cmd.param 8 8) ((s.headOf m).inputBytes (r.cmd.param 4 4)) input).2 = w by rw [read]]; exact
            (Calm.refl v).readInput)
    have ran := execArrayRun_runs may input of good live turn run owned read
    refine ⟨fun taken out plain => ⟨_, ran, arrayRan_completes may small calm taken out plain⟩, fun st refused => ⟨_, ran, ?_⟩⟩
    rw [arrayRan_refused data refused]
    exact may.failedAfter (calm.bump.putArrWork) small (.inl (by decide))
  case runBad =>
    intro s p q cid rid input r st may bad
    exact ⟨_, execArrayRun_refused may input bad, may.failRun st⟩
  case runWaits =>
    intro s v p q cid rid input r ti m may of good
    exact ⟨fun gone => ⟨_, execArrayRun_gone may input of good gone, may.failRun scFence⟩, fun live later =>
        execArrayRun_queued may input of good live later,
      fun live turn waits => execArrayRun_waits may input of good live turn waits⟩
  case fetch =>
    intro s a p m b w runs bound owned mine more window
    subst window
    exact ⟨_, execLayerFetchDone_next runs bound owned mine more, layersFetched_reads s a p m _⟩
  case fetchIdle =>
    intro s a p idle
    exact execLayerFetchDone_idle idle

end Sys2Proof.Machine
end
section
set_option Elab.async false
/-! SUPPORT. Queries across nodes (spec/07): sub-requests that arrive, responses, and shards that fail. -/

namespace Sys2Proof.Machine

/-! ### Sub-requests -/

theorem admitFabric_accepts {s t : State} {k : Packet} {cmd : HostCmd} {id : Nat} (takes : s.acceptsFabric k.dstPart k.dstEp k.stream = true)
    (none : (s.part k.dstPart).waiting = [])
    (admitted : s.admitRec k.dstPart k.dstEp (some (reqOrigin k)) cmd s.fetchNo (s.entryPool k.dstPart) k.data = some (id, t)) :
    s.admitFabric k cmd = t.putFetchNo (t.fetchNo + 1) := by
  unfold State.admitFabric
  dsimp only
  rw [takes, none, admitted]
  exact (if_neg Bool.false_ne_true).trans (if_neg Bool.false_ne_true)

theorem admitFabric_refuses {s : State} {k : Packet} (cmd : HostCmd) (refuses : s.acceptsFabric k.dstPart k.dstEp k.stream = false) :
    s.admitFabric k cmd = s.refuseFabric k.dstPart k.dstEp (reqOrigin k) k.opcode := by
  unfold State.admitFabric
  dsimp only
  rw [refuses]
  exact if_pos rfl

theorem execShardSubrequestArrival_admits {s s1 t : State} {k : Packet} {id : Nat} {r : Rec} {q : Query} (taken : s1 = s.taken k)
    (takes : s1.acceptsFabric k.dstPart k.dstEp k.stream = true) (none : (s1.part k.dstPart).waiting = [])
    (admitted : s1.admitRec k.dstPart k.dstEp (some (reqOrigin k)) (queryCmd k s1.now) s1.fetchNo (s1.entryPool k.dstPart) k.data = some (id, t))
    (record : kvGet? s1.nextRec t.recs = some r) (query : kvGet? s1.nextRec t.queries = some q)
        (ok : t.queryOk q.part r.cmd true (vecCodes q.elem q.dims q.raw) = true) :
    exec (.shardSubrequestArrival k) s = .next ((t.putFetchNo (t.fetchNo + 1)).modRec s1.nextRec (fun r => { r with phase := .running })) := by
  subst taken
  show execShardSubrequestArrival k s = _
  unfold execShardSubrequestArrival
  dsimp only
  rw [admitFabric_accepts takes none admitted]
  have record' : kvGet? (s.taken k).nextRec (t.putFetchNo (t.fetchNo + 1)).recs = some r := record
  have query' : kvGet? (s.taken k).nextRec (t.putFetchNo (t.fetchNo + 1)).queries = some q := query
  rw [record', query']
  have ok' : ((t.putFetchNo (t.fetchNo + 1)).modRec (s.taken k).nextRec (fun r => { r with phase := .running })).queryOk q.part r.cmd true
      (vecCodes q.elem q.dims q.raw) = true := ok
  dsimp only
  rw [ok']
  exact if_neg Bool.false_ne_true

theorem execShardSubrequestArrival_refuses {s : State} {k : Packet} (refuses : s.acceptsFabric k.dstPart k.dstEp k.stream = false)
    (new : kvGet? s.nextRec s.recs = none) :
    exec (.shardSubrequestArrival k) s = .next ((s.taken k).refuseFabric k.dstPart k.dstEp (reqOrigin k) k.opcode) := by
  have refuses' : (s.taken k).acceptsFabric k.dstPart k.dstEp k.stream = false := refuses
  show execShardSubrequestArrival k s = _
  unfold execShardSubrequestArrival
  dsimp only
  rw [admitFabric_refuses _ refuses']
  have record : kvGet? (s.taken k).nextRec ((s.taken k).refuseFabric k.dstPart k.dstEp (reqOrigin k) k.opcode).recs = none := by
    unfold State.refuseFabric State.answer State.handPacket
    split
    · exact new
    · exact new
  rw [record]

/-! ### Responses -/

section
variable {s : State} {k : Packet} (timely : s.isLate k = false)
include timely

theorem execShardResponseArrival_orphan (none : kvGet? k.seq s.fab.out = none) :
    exec (.shardResponseArrival k) s = .next ((s.taken k).bump (cPrtOrphanResponses k.dstPart) 1) := by
  have timely' : (s.taken k).isLate k = false := timely
  have none' : kvGet? k.seq (s.taken k).fab.out = Option.none := none
  show execShardResponseArrival k s = _
  unfold execShardResponseArrival
  dsimp only
  rw [timely', none']
  exact if_neg Bool.false_ne_true

variable {o : OutReq} {rid : Nat} {q : Query} {h : Shard} (asked : kvGet? k.seq s.fab.out = some o) (kind : o.kind = 0x10) (owner : o.rid = some rid)
  (there : kvGet? rid s.queries = some q) (shard : h ∈ q.shards) (mine : h.seq = some k.seq) (open_ : h.state = 0)
include asked kind owner there shard mine open_

/-- The list of a shard that returned, with what it gathered here. -/
def State.shardReturned (s : State) (k : Packet) (rid : Nat) : State :=
  let s := (s.taken k).endRequest k.seq
  let own := if k.srcNode = s.nodeId then fieldAt k.data 36 4 else 0
  (s.modQuery rid (fun x => { x with
    inputs := x.inputs ++ [k.data], widened := x.widened || bitOf (fieldAt k.data 44 2) 2, gathered := x.gathered + own })).markShards rid
        (fun h => h.seq == some k.seq) 1 0

theorem execShardResponseArrival_owned : exec (.shardResponseArrival k) s = .next (if k.args.headD scRemoteError ≠ scDone then
      (((s.taken k).endRequest k.seq).shardFailed rid k.seq scRemoteError).resume else ((s.shardReturned k rid).settleShards rid).resume) := by
  have timely' : (s.taken k).isLate k = false := timely
  have asked' : kvGet? k.seq (s.taken k).fab.out = some o := asked
  have there' : kvGet? rid ((s.taken k).endRequest k.seq).queries = some q := there
  have waits : q.shards.any (fun h => h.seq == some k.seq && h.state == 0) = true := by
    refine List.any_eq_true.mpr ⟨h, shard, ?_⟩
    rw [mine, open_, beq_self_eq_true, beq_self_eq_true]
    rfl
  show execShardResponseArrival k s = _
  unfold execShardResponseArrival
  dsimp only
  rw [timely', asked']
  refine (if_neg Bool.false_ne_true).trans ((if_neg (not_not.mpr kind)).trans ?_)
  rw [owner, Option.bind_some, there', Option.map_some]
  dsimp only
  rw [waits]
  refine (if_neg Bool.false_ne_true).trans ?_
  exact (apply_ite Host.Outcome.next _ _ _).symm

end

theorem kvGet?_modQuery {s : State} {rid : Nat} {q : Query} (f : Query → Query) (there : kvGet? rid s.queries = some q) :
    kvGet? rid (s.modQuery rid f).queries = some (f q) := by
  show kvGet? rid (kvUpd rid f s.queries) = _
  rw [kvGet?_upd, if_pos rfl, there]
  rfl

theorem endRequest_out (s : State) (seq : Nat) : kvGet? seq (s.endRequest seq).fab.out = none := kvGet?_del_self _ _

/-- A shard's own mark. -/
def Shard.marked (h : Shard) (seq state status : Nat) : Shard :=
    if h.seq = some seq ∧ h.state = 0 then { h with state := state, status := status } else h

theorem marked_shards (l : List Shard) (seq state status : Nat) :
    l.map (fun h => if (h.seq == some seq) = true ∧ h.state = 0 then { h with state := state, status := status } else h) = l.map
        (fun h => h.marked seq state status) := by
  refine List.map_congr_left fun h _ => ?_
  unfold Shard.marked
  simp only [beq_iff_eq]

/-! ### Failures -/

/-- The node that has counted a request's failed shards, before it settles the query. -/
def State.shardsFailed (s : State) (seq status rid part n : Nat) : State :=
  ((s.endRequest seq).markShards rid (fun h => h.seq == some seq) 2 status).bump (cPrtShardFails part) n

theorem execShardFailure_fails {s : State} {seq status rid n : Nat} {o : OutReq} {q : Query} (asked : kvGet? seq s.fab.out = some o)
    (kind : o.kind = 0x10) (owner : o.rid = some rid)
    (there : kvGet? rid s.queries = some q) (number : n = (q.shards.filter (fun h => h.seq == some seq && h.state == 0)).length) (some_ : 0 < n) :
    exec (.shardFailure seq status) s = .next ((s.shardsFailed seq status rid q.part n).settleShards rid).resume := by
  subst number
  show execShardFailure seq status s = _
  unfold execShardFailure
  rw [asked]
  refine (if_pos kind).trans (congrArg (fun t : State => Host.Outcome.next t.resume) ?_)
  have there' : kvGet? rid (s.endRequest seq).queries = some q := there
  rw [owner, Option.getD_some]
  unfold State.shardFailed
  rw [there']
  exact if_neg (Nat.ne_of_gt some_)

theorem shardsFailed_reads {s : State} {seq status rid n : Nat} {q : Query} (there : kvGet? rid s.queries = some q)
    (number : n = (q.shards.filter (fun h => h.seq == some seq && h.state == 0)).length) (some_ : 0 < n)
        (below : s.ctr (cPrtShardFails q.part) + n < 2 ^ 48 - 1) :
    ∃ y, kvGet? rid (s.shardsFailed seq status rid q.part n).queries = some y ∧ y.shards = q.shards.map (fun h => h.marked seq 2 status) ∧
      y.failure = some (q.failure.getD status) ∧ (s.shardsFailed seq status rid q.part n).ctr (cPrtShardFails q.part) = s.ctr
          (cPrtShardFails q.part) + n ∧
      kvGet? seq (s.shardsFailed seq status rid q.part n).fab.out = none := by
  have any : q.shards.any (fun h => h.seq == some seq && h.state == 0) = true := by
    obtain ⟨h, held⟩ := List.exists_mem_of_length_pos (number ▸ some_)
    obtain ⟨mem, waits⟩ := List.mem_filter.mp held
    exact List.any_eq_true.mpr ⟨h, mem, waits⟩
  have marked : kvGet? rid ((s.endRequest seq).markShards rid (fun h => h.seq == some seq) 2 status).queries = some _ :=
    kvGet?_modQuery (s := s.endRequest seq) _ there
  have ctr : ((s.endRequest seq).markShards rid (fun h => h.seq == some seq) 2 status).ctr (cPrtShardFails q.part) = s.ctr (cPrtShardFails q.part)
      := rfl
  have out : kvGet? seq ((s.endRequest seq).markShards rid (fun h => h.seq == some seq) 2 status).fab.out = none := endRequest_out s seq
  unfold State.shardsFailed
  generalize (s.endRequest seq).markShards rid (fun h => h.seq == some seq) 2 status = t at *
  have counted : Aside t (t.bump (cPrtShardFails q.part) n) := (Aside.refl t).bump
  have queries : (t.bump (cPrtShardFails q.part) n).queries = t.queries := counted.view State.queries
  have fab : (t.bump (cPrtShardFails q.part) n).fab.out = t.fab.out := counted.view fun v => v.fab.out
  refine ⟨_, (congrArg (kvGet? rid) queries).trans marked, marked_shards _ _ _ _, ?_, ?_, (congrArg (kvGet? seq) fab).trans out⟩
  · show (if 2 = 2 ∧ q.failure.isNone = true ∧ q.shards.any (fun h => (h.seq == some seq) && h.state == 0) = true then some status else q.failure) = _
    rw [any]
    cases q.failure with
    | none => rfl
    | some f => rfl
  · rw [State.ctr_bump_self _ _ _ (by rw [ctr]; exact below), ctr]

theorem shardReturned_reads {s : State} {k : Packet} {rid : Nat} {q : Query} (there : kvGet? rid s.queries = some q) :
    ∃ y, kvGet? rid (s.shardReturned k rid).queries = some y ∧ y.inputs = q.inputs ++ [k.data] ∧ y.widened =
        (q.widened || bitOf (fieldAt k.data 44 2) 2) ∧
      y.gathered = q.gathered + (if k.srcNode = s.nodeId then fieldAt k.data 36 4 else 0) ∧ y.shards = q.shards.map (fun h => h.marked k.seq 1 0) ∧
      kvGet? k.seq (s.shardReturned k rid).fab.out = none := by
  unfold State.shardReturned
  refine ⟨_, kvGet?_modQuery (s := (((s.taken k).endRequest k.seq).modQuery rid _)) _
      (kvGet?_modQuery (s := (s.taken k).endRequest k.seq) _ there), rfl, rfl, rfl,
    marked_shards _ _ _ _, endRequest_out _ _⟩

/-- Settles O23: a sub-request is admitted or refused whole; a response or a failure marks its shards and settles the query. -/
theorem shards : Obligations.Shards := by
  unfold Obligations.Shards
  refine ⟨?admits, ?refuses, ?returns, ?bad, ?orphan, ?fails, ?none⟩
  case admits =>
    intro s s1 k id t r q taken takes none admitted record query ok
    refine ⟨_, execShardSubrequestArrival_admits taken takes none admitted record query ok, ?_, rfl, rfl⟩
    show kvGet? s1.nextRec (kvUpd s1.nextRec (fun r => { r with phase := .running }) t.recs) = _
    rw [kvGet?_upd, if_pos rfl, record]
    rfl
  case refuses =>
    intro s k refuses new
    refine ⟨_, execShardSubrequestArrival_refuses refuses new, handed_of_handoff rfl rfl, ?_⟩
    unfold State.refuseFabric State.answer State.handPacket
    split
    · rfl
    · rfl
  case returns =>
    intro s k o rid q h timely asked kind owner there shard mine open_ done
    obtain ⟨y, query, reads⟩ := shardReturned_reads (k := k) there
    refine ⟨s.shardReturned k rid, y, ?_, query, reads⟩
    rw [execShardResponseArrival_owned timely asked kind owner there shard mine open_, if_neg (not_not.mpr done)]
  case bad =>
    intro s k o rid q h timely asked kind owner there shard mine open_ failed
    refine ⟨(s.taken k).endRequest k.seq, ?_, rfl, endRequest_out _ _⟩
    rw [execShardResponseArrival_owned timely asked kind owner there shard mine open_, if_pos failed]
  case orphan =>
    intro s k timely none below
    have below' : (s.taken k).ctr (cPrtOrphanResponses k.dstPart) + 1 < 2 ^ 48 - 1 := below
    refine ⟨_, execShardResponseArrival_orphan timely none, State.ctr_bump_self _ _ _ below', ?_⟩
    rw [State.bump_eq _ _ _ below']
    exact ⟨rfl, rfl, rfl⟩
  case fails =>
    intro s seq status rid n o q asked kind owner there number some_ below
    obtain ⟨y, query, reads⟩ := shardsFailed_reads (status := status) there number some_ below
    exact ⟨s.shardsFailed seq status rid q.part n, y, execShardFailure_fails asked kind owner there number some_, query, reads⟩
  case none =>
    intro s seq status none
    show execShardFailure seq status s = _
    unfold execShardFailure
    rw [none]

end Sys2Proof.Machine
end

section
set_option Elab.async false
/-! SUPPORT. What a completion leaves of the node's own registers (`Standing`): of those below 0x600, an end of a request and the report of a
fence write none but NODE_BRIDLE_STATUS. One lemma for each function that they are made of. -/

namespace Sys2Proof.Machine

/-- The node's own registers but NODE_BRIDLE_STATUS read in `t` as in `s`. -/
def Standing (s t : State) : Prop := ∀ x, x < 0x600 → x ≠ rNodeBridleStatus → t.reg x = s.reg x

namespace Standing

section
variable {s t u : State}

theorem refl (s : State) : Standing s s := fun _ _ _ => rfl

theorem ite {c : Prop} [Decidable c] (h : Standing s t) (g : Standing s u) : Standing s (if c then t else u) := by
  split
  · exact h
  · exact g

theorem foldl {α : Type} {f : State → α → State} {l : List α} (h : Standing s t) (step : ∀ u a, Standing s u → Standing s (f u a)) :
    Standing s (l.foldl f t) := by
  induction l generalizing t with
  | nil => exact h
  | cons a l ih => exact ih (step t a h)

theorem of_fst {α : Type} {x : State × α} {a : α} (h : Standing s x.1) (e : x = (u, a)) : Standing s u := by
  subst e
  exact h

theorem ite_fst {α : Type} {x y : State × α} {c : Prop} [Decidable c] (h : Standing s x.1) (g : Standing s y.1) :
    Standing s (if c then x else y).1 := by
  split
  · exact h
  · exact g

theorem ite_snd {α : Type} {x y : α × State} {c : Prop} [Decidable c] (h : Standing s x.2) (g : Standing s y.2) :
    Standing s (if c then x else y).2 := by
  split
  · exact h
  · exact g

theorem setReg {o : Nat} {w : Word} (h : Standing s t) (apart : 0x600 ≤ o ∨ o = rNodeBridleStatus := by decide) : Standing s (t.setReg o w) :=
  fun x low ne => (State.reg_setReg_of_ne t w (by omega)).trans (h x low ne)

theorem setFld {o : Nat} {f : Fld} {v : Nat} (h : Standing s t) (apart : 0x600 ≤ o ∨ o = rNodeBridleStatus := by decide) :
    Standing s (t.setFld o f v) := h.setReg apart

theorem putArrWork {v : List (Nat × Nat)} (h : Standing s t) : Standing s (t.putArrWork v) := h

theorem putArrays {v : KV ArrUnit} (h : Standing s t) : Standing s (t.putArrays v) := h

theorem putBuilds {v : KV Build} (h : Standing s t) : Standing s (t.putBuilds v) := h

theorem putCorpora {v : KV Corpus} (h : Standing s t) : Standing s (t.putCorpora v) := h

theorem putCtrs {v : KV Nat} (h : Standing s t) : Standing s (t.putCtrs v) := h

theorem putCtxs {v : KV Ctx} (h : Standing s t) : Standing s (t.putCtxs v) := h

theorem putEmb {v : Emb} (h : Standing s t) : Standing s (t.putEmb v) := h

theorem putFlash {v : Flash} (h : Standing s t) : Standing s (t.putFlash v) := h

theorem putFree {v : Nat} (h : Standing s t) : Standing s (t.putFree v) := h

theorem putLoad {v : Option Load} (h : Standing s t) : Standing s (t.putLoad v) := h

theorem putLog {v : List LogRec} (h : Standing s t) : Standing s (t.putLog v) := h

theorem putOut {v : List HostOut} (h : Standing s t) : Standing s (t.putOut v) := h

theorem putParts {v : KV Part} (h : Standing s t) : Standing s (t.putParts v) := h

theorem putQueries {v : KV Query} (h : Standing s t) : Standing s (t.putQueries v) := h

theorem putQueues {v : KV Queue} (h : Standing s t) : Standing s (t.putQueues v) := h

theorem putRecs {v : KV Rec} (h : Standing s t) : Standing s (t.putRecs v) := h

theorem putSec {v : Sec} (h : Standing s t) : Standing s (t.putSec v) := h

theorem putSels {v : KV SelUnit} (h : Standing s t) : Standing s (t.putSels v) := h

theorem putShares {v : KV ArrShare} (h : Standing s t) : Standing s (t.putShares v) := h

theorem putWinReg {v : KV Word} (h : Standing s t) : Standing s (t.putWinReg v) := h

theorem modMem {f : MemSys → MemSys} (h : Standing s t) : Standing s (t.modMem f) := h

theorem modFab {f : Fab → Fab} (h : Standing s t) : Standing s (t.modFab f) := h

theorem modFlt {f : Faults → Faults} (h : Standing s t) : Standing s (t.modFlt f) := h

theorem emit {o : HostOut} (h : Standing s t) : Standing s (t.emit o) := h

end

section
variable {s t : State}

theorem latch {src snapId : Nat} (h : Standing s t) : Standing s (t.latch src snapId) := h.modFlt.setFld.setReg.setReg

theorem markSat {off : Nat} (h : Standing s t) : Standing s (t.markSat off) := by
  unfold State.markSat
  split
  · exact h
  · exact h.setReg (.inl (by unfold rFltSat; omega))

theorem addLost {pf n : Nat} (h : Standing s t) : Standing s (t.addLost pf n) := by
  refine ite h fun x low ne => ?_
  exact (State.reg_setFldPf_low t pf _ _ (by omega) (by decide)).trans (h x low ne)

theorem setPstate {p st : Nat} (h : Standing s t) : Standing s (t.setPstate p st) := h.setFld (.inl (by unfold rPrtStatus; omega))

theorem tallyHour {source kind unit : Nat} (h : Standing s t) : Standing s (t.tallyHour source kind unit) := h

theorem dropLoad (h : Standing s t) : Standing s t.dropLoad := foldl h.putLoad.setFld fun _ _ g => ite g.setPstate g

theorem setCtr {off v : Nat} (h : Standing s t) : Standing s (t.setCtr off v) := h.putCtrs

theorem modPart {p : Nat} {f : Part → Part} (h : Standing s t) : Standing s (t.modPart p f) := h.putParts

theorem modQueue {p q : Nat} {f : Queue → Queue} (h : Standing s t) : Standing s (t.modQueue p q f) := h.putQueues

theorem modRec {rid : Nat} {f : Rec → Rec} (h : Standing s t) : Standing s (t.modRec rid f) := h.putRecs

theorem fresh (h : Standing s t) : Standing s (t.fresh).2 := h.putFree

theorem setWin {p off : Nat} {w : Word} (h : Standing s t) : Standing s (t.setWin p off w) := h.putWinReg

theorem clearCoal {p v : Nat} (h : Standing s t) : Standing s (t.clearCoal p v) := h.modFlt

theorem sendMsix {p v : Nat} (h : Standing s t) : Standing s (t.sendMsix p v) := ite h.clearCoal (ite h.clearCoal.setWin h.clearCoal.emit)

theorem rawBump {off n : Nat} (h : Standing s t) : Standing s (t.rawBump off n).1 := h.setCtr

theorem drogue {src snapId : Nat} (h : Standing s t) : Standing s (t.drogue src snapId).1 := by
  unfold State.drogue
  exact ite_fst h (ite_fst h.latch (ite_fst h.setFld (ite h.rawBump.markSat h.rawBump)))

theorem logAppend {kind : Nat} {payload : List Byte} (h : Standing s t) : Standing s (t.logAppend kind payload) := by
  refine ite (setReg (ite (ite h.setFld h) (setFld (ite h.setFld h)))) ?_
  exact setFld (setFld (ite (setFld (setReg (putLog (ite h.setFld h)))) (setReg (putLog (ite h.setFld h)))))

theorem logFlash {ev unit detail : Nat} (h : Standing s t) : Standing s (t.logFlash ev unit detail) := h.logAppend

theorem eventIrq {pf cls : Nat} (h : Standing s t) : Standing s (t.eventIrq pf cls) := ite h.sendMsix h

theorem evPlace {cls source kind action unit part detail : Nat} (h : Standing s t) :
    Standing s (t.evPlace cls source kind action unit part detail) := by
  refine ite (modFlt (ite h.tallyHour h)) ?_
  refine eventIrq (eventIrq ?_)
  exact ite (addLost (addLost (modFlt (drogue (ite h.tallyHour h))))) (logAppend (addLost (addLost (modFlt (drogue (ite h.tallyHour h))))))

theorem evCount {cls : Nat} (h : Standing s t) : Standing s (t.evCount cls).1 := by
  unfold State.evCount
  exact ite_fst h.rawBump (ite_fst h.rawBump h)

theorem event {cls source kind action unit part detail : Nat} (h : Standing s t) : Standing s (t.event cls source kind action unit part detail) := by
  exact ite (ite h.evCount.evPlace.markSat.rawBump.evPlace h.evCount.evPlace.markSat) h.evCount.evPlace

theorem bump {off n : Nat} (h : Standing s t) : Standing s (t.bump off n) := ite (ite h.rawBump.markSat.event h.rawBump.markSat) h.rawBump

theorem writeMem {a : Nat} {bs : List Byte} (h : Standing s t) : Standing s (t.writeMem a bs) :=
  h.modMem

theorem hide {a len : Nat} (h : Standing s t) : Standing s (t.hide a len) := (h.modMem).putFree

theorem release {a : Nat} (h : Standing s t) : Standing s (t.release a) := by
  unfold State.release
  split
  · exact h
  · exact modMem (ite h.putFlash h)

theorem addMeter {p i n : Nat} (h : Standing s t) : Standing s (t.addMeter p i n) := ite h (by split; exacts [h, h.modMem])

theorem chargeBw {p t' n : Nat} (h : Standing s t) : Standing s (t.chargeBw p t' n) := by
  exact ite h (ite (ite h.addMeter h) (ite (modPart (ite h.addMeter h)) (bump (modPart (ite h.addMeter h)))))

theorem handPacket {k : Packet} (h : Standing s t) : Standing s (t.handPacket k) := ite h.modFab h.modFab

theorem sendRequest {k : Packet} {rid : Option Nat} {timed : Bool} {space : Nat} (h : Standing s t) :
    Standing s (t.sendRequest k rid timed space) := by
  exact h.modFab.handPacket

theorem answer {o : FabOrigin} {vc ptype op part ep : Nat} {args : List Nat} {data : List Byte} (h : Standing s t) :
    Standing s (t.answer o vc ptype op part ep args data) := by
  exact h.handPacket

theorem modCorpus {p : Nat} {f : Corpus → Corpus} (h : Standing s t) : Standing s (t.modCorpus p f) := h.putCorpora

theorem sweepSets {p : Nat} (h : Standing s t) : Standing s (t.sweepSets p) := by
  unfold State.sweepSets
  exact modCorpus (foldl h fun _ _ g => g.release)

theorem modFlash {f : Flash → Flash} (h : Standing s t) : Standing s (t.modFlash f) := h.putFlash

theorem closeSuper {sb : Nat} (h : Standing s t) : Standing s (t.closeSuper sb) := by
  unfold State.closeSuper
  split
  · exact h
  · exact ite h.modFlash h.modFlash.bump

theorem leaveOpen {host : Bool} (h : Standing s t) : Standing s (t.leaveOpen host) := by
  unfold State.leaveOpen
  split
  · exact h
  · exact by split; exacts [h, ite h.closeSuper h]

theorem program {host : Bool} {key : Nat} (h : Standing s t) : Standing s (t.program host key) := by
  unfold State.program
  dsimp only
  split
  · exact h.leaveOpen
  · exact h.leaveOpen.putFlash.bump

theorem relocate {keys : List Nat} (h : Standing s t) : Standing s (t.relocate keys) := foldl h fun _ _ g => g.program

theorem retireBlock {lun b : Nat} (h : Standing s t) : Standing s (t.retireBlock lun b) := by
  unfold State.retireBlock
  dsimp only
  refine ite h ?_
  split
  · exact h.modFlash.bump.logFlash
  · split
    · exact modFlash (ite h.modFlash.bump.logFlash h.modFlash.bump.logFlash.modFlash.relocate)
    · exact h.modFlash.bump.logFlash.modFlash.relocate.modFlash

theorem eraseSuper {sb : Nat} (h : Standing s t) : Standing s (t.eraseSuper sb) := foldl h.modFlash fun _ _ g => ite g.modFlash.retireBlock g.modFlash

theorem evacuate {sb : Nat} (h : Standing s t) : Standing s (t.evacuate sb) := ite h.relocate.eraseSuper h.relocate

theorem collect {n : Nat} (h : Standing s t) : Standing s (State.collect n t) := by
  induction n generalizing t with
  | zero => exact h
  | succ n ih =>
    unfold State.collect
    split
    · exact h
    · split
      · exact h
      · exact ih (evacuate (ite h h.bump))

theorem writeUnit {base size key : Nat} (h : Standing s t) {u : State} (e : t.writeUnit base size key = .ok u) : Standing s u := by
  have room : Standing s (State.collect t.flash.supers.length t) := h.collect
  unfold State.writeUnit at e
  dsimp only at e
  repeat' split at e
  all_goals cases e
  · exact room.fresh.bump.program
  · exact h.program

theorem writeUnits {base size key n : Nat} (h : Standing s t) : Standing s (t.writeUnits base size key n).2.2 := by
  induction n generalizing t key with
  | zero => exact h
  | succ n ih =>
    unfold State.writeUnits
    split
    · exact h
    · exact ih (h.writeUnit ‹_›)

theorem sealWrite (h : Standing s t) : Standing s t.sealWrite := h.fresh.bump

theorem journal (h : Standing s t) : Standing s t.journal := h.fresh.bump

theorem unmapUnits {key n : Nat} (h : Standing s t) : Standing s (t.unmapUnits key n) := by
  unfold State.unmapUnits
  exact modMem (ite h.modFlash.journal h)

theorem flashStore {p base size a : Nat} {data : List Byte} (h : Standing s t) : Standing s (t.flashStore p base size a data).1 := by
  unfold State.flashStore
  dsimp only
  exact h.writeUnits.writeMem.sealWrite.bump.chargeBw

theorem mediaFull {p unit detail : Nat} (h : Standing s t) : Standing s (t.mediaFull p unit detail) := h.event.logFlash

theorem settleEntry {index outcome : Nat} (h : Standing s t) : Standing s (t.settleEntry index outcome) := h.putSec

theorem logImage {outcome reason : Nat} {bs : List Byte} (h : Standing s t) : Standing s (t.logImage outcome reason bs) := h.logAppend

theorem modSel {u : Nat} {f : SelUnit → SelUnit} (h : Standing s t) : Standing s (t.modSel u f) := h.putSels

theorem selPut {u lid : Nat} {l : SelList} (h : Standing s t) : Standing s (t.selPut u lid l) := h.modSel

theorem selServeOne {u : Nat} (h : Standing s t) : Standing s (t.selServeOne u) := by
  unfold State.selServeOne
  split
  · exact h
  · exact by split; exacts [h, h.modSel.selPut.bump]

theorem selServeUnit {u : Nat} (h : Standing s t) : Standing s (t.selServeUnit u) := foldl h fun _ _ g => g.selServeOne

theorem selServe {cl : Nat} (h : Standing s t) : Standing s (t.selServe cl) := h.selServeUnit.selServeUnit

theorem selDrop {u lid : Nat} (h : Standing s t) : Standing s (t.selDrop u lid) := selServe (ite h.modSel.bump h.modSel)

theorem selUnask {rid : Nat} (h : Standing s t) : Standing s (t.selUnask rid) := foldl h fun _ _ g => ite g g.modSel.bump

theorem selForget {rid : Nat} (h : Standing s t) : Standing s (t.selForget rid) := foldl h.selUnask fun _ _ g => g.selDrop

theorem coalesce {p q : Nat} (h : Standing s t) : Standing s (t.coalesce p q) := ite h.sendMsix h

theorem postCompletion {p q cid stream status flags count r0 r1 : Nat} {noIrq : Bool} (h : Standing s t) :
    Standing s (t.postCompletion p q cid stream status flags count r0 r1 noIrq) := by
  exact ite h.emit.modQueue h.emit.modQueue.modFlt.coalesce

theorem access {p a n : Nat} (h : Standing s t) : Standing s (t.access p a n) := by
  unfold State.access
  split
  · exact h
  · exact ite (ite h.chargeBw h) (foldl (ite h.chargeBw h) fun _ _ g => ite g.bump g)

theorem putResult {p addr : Nat} {bs : List Byte} (h : Standing s t) : Standing s (t.putResult p addr bs) := ite h (ite h.access.writeMem h.emit)

theorem freeContexts {rid : Nat} (h : Standing s t) : Standing s (t.freeContexts rid) := h.putCtxs

theorem giveRows {addr : Nat} {tensor : Option Nat} (h : Standing s t) : Standing s (t.giveRows addr tensor) := by
  unfold State.giveRows
  split
  · exact h.modMem
  · exact h.release

theorem retireVersions (h : Standing s t) : Standing s t.retireVersions := foldl h fun _ _ g => by split; exacts [ite g g.putEmb.giveRows, g]

theorem loseLoad {rid : Nat} (h : Standing s t) : Standing s (t.loseLoad rid) := by
  unfold State.loseLoad
  split
  · exact ite h.settleEntry.logImage.dropLoad h
  · exact h

theorem endBuild {rid : Nat} (h : Standing s t) : Standing s (t.endBuild rid) := by
  unfold State.endBuild
  split
  · exact foldl (ite h h.bump) fun _ _ g => g.release
  · exact h

theorem endUpdate {rid : Nat} (h : Standing s t) : Standing s (t.endUpdate rid) := ite h h.putCorpora

theorem endMigration {rid : Nat} (h : Standing s t) : Standing s (t.endMigration rid) := by
  unfold State.endMigration
  split
  · exact h.release.modMem
  · exact h

theorem endTable {rid : Nat} (h : Standing s t) : Standing s (t.endTable rid) := by
  exact ite (putEmb (ite h.putEmb.retireVersions h)) (ite h.putEmb.retireVersions h)

theorem endNamespace {rid : Nat} (h : Standing s t) : Standing s (t.endNamespace rid) := ite h.modFlash h

theorem endArrays {rid : Nat} (h : Standing s t) : Standing s (t.endArrays rid) := foldl h.putArrWork.putArrays.putShares.putParts fun _ _ g => g.hide

theorem endWork {rid : Nat} (h : Standing s t) : Standing s (t.endWork rid) := by
  unfold State.endWork
  dsimp only
  split
  · exact h.selForget.loseLoad.endBuild.endMigration.endTable.endNamespace.endUpdate.putQueries.putBuilds.endArrays.sweepSets
  · exact h.selForget.loseLoad.endBuild.endMigration.endTable.endNamespace.endUpdate.putQueries.putBuilds.endArrays

theorem freeTensor {i : Nat} (h : Standing s t) : Standing s (t.freeTensor i) := by
  unfold State.freeTensor
  split
  · exact h
  · exact modMem (release (ite (modFlash (ite h.unmapUnits h)) (ite h.unmapUnits h)))

theorem reap (h : Standing s t) : Standing s t.reap := by
  refine foldl (modMem (foldl h fun _ _ g => g.freeTensor)) fun _ _ g => release (ite ?_ g)
  split
  · exact g.unmapUnits
  · exact g

theorem noteEnd {rid : Nat} {r : Rec} {vented : Bool} (h : Standing s t) : Standing s (t.noteEnd rid r vented) := ite h h.modPart

theorem flashResult {p a : Nat} {bs : List Byte} (h : Standing s t) : Standing s (t.flashResult p a bs).1 := by
  unfold State.flashResult
  split
  · exact h
  · split
    · exact of_fst h.flashStore ‹_›
    · exact (of_fst h.flashStore ‹_›).modFlash.mediaFull

theorem sendP {p rid : Nat} {use : PUse} {w : PWindow} {a len : Nat} {write : Bool} {data : List Byte} (h : Standing s t) :
    Standing s (t.sendP p rid use w a len write data) := by
  unfold State.sendP
  exact h.sendRequest.modMem

theorem openResults {r : Rec} {status : Nat} {res : List Byte} (h : Standing s t) : Standing s (t.openResults r status res).2 := by
  unfold State.openResults
  exact ite_snd h.putFree h

theorem completeOne {rid : Nat} {r : Rec} {status flags count r0 r1 : Nat} {res : List Byte} (h : Standing s t) :
    Standing s (t.completeOne rid r status flags count r0 r1 res) := by
  unfold State.completeOne
  dsimp only
  split
  · refine answer ?_
    refine ite ?_ ?_
    · exact bump (ite h.noteEnd.freeContexts.putRecs.endWork h.noteEnd.freeContexts.putRecs.endWork.reap)
    · exact ite h.noteEnd.freeContexts.putRecs.endWork h.noteEnd.freeContexts.putRecs.endWork.reap
  · refine postCompletion ?_
    split
    · refine putResult ?_
      refine ite ?_ ?_
      · exact bump (ite h.noteEnd.freeContexts.putRecs.endWork h.noteEnd.freeContexts.putRecs.endWork.reap)
      · exact ite h.noteEnd.freeContexts.putRecs.endWork h.noteEnd.freeContexts.putRecs.endWork.reap
    · refine emit (putResult ?_)
      refine ite ?_ ?_
      · exact bump (ite h.noteEnd.freeContexts.putRecs.endWork h.noteEnd.freeContexts.putRecs.endWork.reap)
      · exact ite h.noteEnd.freeContexts.putRecs.endWork h.noteEnd.freeContexts.putRecs.endWork.reap

theorem endHeld {rid : Nat} {r : Rec} {f : Finish} {status : Nat} (h : Standing s t) : Standing s (t.endHeld rid r f status) := by
  refine completeOne (bump ?_)
  split
  · exact h.freeTensor
  · exact h

theorem sendHeld {rid : Nat} {r : Rec} {f : Finish} (h : Standing s t) : Standing s (t.sendHeld rid r f) := by
  refine ite ?_ ?_
  · refine ite h ?_
    split
    · exact completeOne (of_fst h.flashResult ‹_›)
    · exact completeOne (of_fst h.flashResult ‹_›)
  · split
    · exact h.endHeld
    · exact h
    · exact h.modRec.sendP

theorem holdResult {rid : Nat} {r : Rec} {f : Finish} (h : Standing s t) : Standing s (t.holdResult rid r f) := h.endWork.modRec.sendHeld

theorem complete {p rid status flags count r0 r1 : Nat} {res : List Byte} (h : Standing s t) :
    Standing s (t.complete p rid status flags count r0 r1 res) := by
  unfold State.complete
  split
  · exact h.bump
  · refine ite h.completeOne (ite h.openResults.completeOne (ite h.openResults.holdResult (ite h.openResults.holdResult ?_)))
    refine ite ?_ ?_
    · split
      · exact completeOne (of_fst h.openResults.flashResult ‹_›)
      · exact completeOne (of_fst h.openResults.flashResult ‹_›)
    · exact h.openResults.completeOne

theorem cutShort {rid status : Nat} (h : Standing s t) : Standing s (t.cutShort rid status) := by
  unfold State.cutShort
  dsimp only
  split
  · exact h
  · exact by split; exacts [by split; exacts [h.complete, h.complete], h.complete]

theorem reportFence {src kind unit part detail : Nat} (h : Standing s t) : Standing s (t.reportFence src kind unit part detail) :=
  event (bump (modFlt h))

/-- A stop of the node cuts its requests short and is reported. -/
theorem fatalStop {src kind unit : Nat} (h : Standing s t) : Standing s (t.fatalStop src kind unit) := by
  refine ite h (modFlt (setFld (event ?_)))
  exact foldl h fun _ _ g => g.cutShort

theorem fld (h : Standing s t) {x : Nat} (f : Fld) (low : x < 0x600 := by decide) (ne : x ≠ rNodeBridleStatus := by decide) :
    t.fld x f = s.fld x f := congrArg f.get (h x low ne)

end
end Standing
end Sys2Proof.Machine
end

section
set_option Elab.async false
namespace Sys2Proof.Machine

section
variable {s : State}

theorem fatalStop_stops {src kind unit : Nat} (run : s.flt.stopped = false) :
    (s.fatalStop src kind unit).flt.stopped = true ∧ (s.fatalStop src kind unit).fld rFltStatus fFltStatus_FATAL = 1 :=
  ⟨(fatalStop_running run).1, (fatalStop_running run).2.1⟩

theorem State.board_putBoard (s : State) (v : Board) : (s.putBoard v).board = v := rfl

theorem State.board_modFlt (s : State) (f : Faults → Faults) : (s.modFlt f).board = s.board := rfl

theorem Keeps.board {s t : State} (h : Keeps true s t) : t.board = s.board :=
  congrArg (fun x : KV FUnit × Bool × KV Coll × List (Nat × List Byte) × Board => x.2.2.2.2) (h.still rfl)

theorem Keeps.stopped {s t : State} (h : Keeps true s t) : t.flt.stopped = s.flt.stopped :=
  congrArg (fun x : KV FUnit × Bool × KV Coll × List (Nat × List Byte) × Board => x.2.1) (h.still rfl)

theorem fatalStop_board (s : State) (src kind unit : Nat) : (s.fatalStop src kind unit).board = s.board := by
  unfold State.fatalStop
  split
  · rfl
  · dsimp only
    rw [State.board_modFlt]
    exact (Keeps.setFld (Keeps.event (Keeps.foldl (Keeps.same s) fun _ _ g => g.cutShort))).board

/-- A rail that was in range and no longer is. -/
theorem railFault_stops {rail : Nat} (power : s.board.power = true) (run : s.flt.stopped = false) (low : rail < 8)
    (good : bitOf (s.fld rNodeRailStatus fNodeRailStatus_IN_RANGE) rail = true) :
    ∃ t, exec (.railFault rail) s = .next t ∧ t.flt.stopped = true ∧ t.fld rFltStatus fFltStatus_FATAL = 1 ∧
      t.fld rNodeRailStatus fNodeRailStatus_IN_RANGE = s.fld rNodeRailStatus fNodeRailStatus_IN_RANGE - 2 ^ rail := by
  have range : s.fld rNodeRailStatus fNodeRailStatus_IN_RANGE < 2 ^ 8 := Fld.get_lt _ _
  have stops := fatalStop_stops (src := 10) (kind := 13) (unit := 0)
    (s := s.setFld rNodeRailStatus fNodeRailStatus_IN_RANGE (s.fld rNodeRailStatus fNodeRailStatus_IN_RANGE - 2 ^ rail)) (by simpa using run)
  refine ⟨_, (if_neg (by simp [power, low])).trans (by rw [if_pos good]), stops.1, stops.2, ?_⟩
  rw [(Standing.refl _).fatalStop.fld, State.fld_setFld _ _ _ _ (by decide)]
  exact Nat.mod_eq_of_lt (lt_of_le_of_lt (Nat.sub_le _ _) range)

theorem thermalShutdown_stops {n : Nat} (power : s.board.power = true) (run : s.flt.stopped = false) :
    ∃ t, exec (.thermalShutdown n) s = .next t ∧ t.board.thermtrip = true ∧ t.flt.stopped = true ∧ t.fld rFltStatus fFltStatus_FATAL = 1 := by
  have stops := fatalStop_stops (src := 9) (kind := 13) (unit := 0) (s := s.putBoard { s.board with thermtrip := true }) (by simpa using run)
  refine ⟨_, if_neg (by simp [power]), ?_, stops.1, stops.2⟩
  rw [fatalStop_board, State.board_putBoard]

/-- A node that is not READY stops at stage 6. -/
theorem refclkMemLoss_stops (power : s.board.power = true) (run : s.flt.stopped = false) :
    ∃ t, exec .refclkMemLoss s = .next t ∧ t.flt.stopped = true ∧
    t.fld rFltStatus fFltStatus_FATAL = 1 ∧ (s.isReady = false → t.fld rNodeStatus fNodeStatus_BOOT_STAGE = 6) := by
  cases ready : s.isReady with
  | true =>
    have stops := fatalStop_stops (src := 12) (kind := 13) (unit := 0) run
    exact ⟨_, (if_neg (by simp [power])).trans (if_pos ready), stops.1, stops.2, nofun⟩
  | false =>
    have stops := fatalStop_stops (src := 12) (kind := 13) (unit := 0) (s := s.setStatus fNodeStatus_BOOT_STAGE 6)
        (by simpa [State.setStatus] using run)
    refine ⟨_, (if_neg (by simp [power])).trans (if_neg (by simp [ready])), stops.1, stops.2, fun _ => ?_⟩
    rw [(Standing.refl _).fatalStop.fld]
    exact State.fld_setFld _ _ _ _ (by decide)

/-- The board as a holdover leaves it: its time status, and the crystal's unit. -/
theorem enterHoldover_status {src : Nat} (sound : s.isFenced 12 0 = false) :
    (s.enterHoldover src).fld rNodeTimeStatus fNodeTimeStatus_HOLDOVER = 1 ∧ (s.enterHoldover src).fld rNodeTimeStatus fNodeTimeStatus_LOCKED = 0 ∧
    (s.enterHoldover src).fld rNodeTimeStatus fNodeTimeStatus_HOLDOVER_SEEN = 1 ∧ (s.enterHoldover src).isFenced 12 0 = true ∧
    (s.enterHoldover src).recs = s.recs ∧ (s.enterHoldover src).mem = s.mem := by
  have entered : s.enterHoldover src = ((State.modUnit (((s.setFld rNodeTimeStatus fNodeTimeStatus_HOLDOVER 1).setFld rNodeTimeStatus
      fNodeTimeStatus_HOLDOVER_SEEN 1).setFld rNodeTimeStatus fNodeTimeStatus_LOCKED 0) 12 0 fun u =>
          { u with fenced := true }).reportFence src 12 0 0xFF
      0).logAppend lkTime (leBytes 8 0) := if_neg (by simp [sound])
  have kept : ∀ f, (s.enterHoldover src).fld rNodeTimeStatus f = (((s.setFld rNodeTimeStatus fNodeTimeStatus_HOLDOVER 1).setFld rNodeTimeStatus
      fNodeTimeStatus_HOLDOVER_SEEN 1).setFld rNodeTimeStatus fNodeTimeStatus_LOCKED 0).fld rNodeTimeStatus f :=
    fun f => entered ▸ (Standing.refl _).modFlt.reportFence.logAppend.fld f
  refine ⟨?_, ?_, ?_, ?_, ?_, ?_⟩
  · rw [kept, State.fld_setFld_below _ _ (by decide) (by decide), State.fld_setFld_above _ _ (by decide) (by decide), State.fld_setFld _ _ _ _
      (by decide)]
    rfl
  · rw [kept, State.fld_setFld _ _ _ _ (by decide)]
    rfl
  · rw [kept, State.fld_setFld_below _ _ (by decide) (by decide), State.fld_setFld _ _ _ _ (by decide)]
    rfl
  · rw [entered]
    unfold State.isFenced
    rw [(Keeps.same _).logAppend.funit, reportFence_funit, State.funit_modUnit_self]
  · simp [entered, State.reportFence, State.modUnit]
  · simp [entered, State.reportFence, State.modUnit]

/-- The time status as the crystal's lock leaves it. -/
def State.relocked (s : State) : State := (s.setFld rNodeTimeStatus fNodeTimeStatus_LOCKED 1).setFld rNodeTimeStatus fNodeTimeStatus_HOLDOVER 0

/-- The crystal's unit back in service where a holdover had fenced it. -/
def State.crystalBack (s : State) : State :=
  if s.isFenced 12 0 then (s.relocked.modUnit 12 0 (fun u => { u with fenced := false })).logAppend lkTime (leBytes 8 1) else s.relocked

theorem exec_xtalLock (power : s.board.power = true)
    (lost : s.fld rNodeTimeStatus fNodeTimeStatus_LOCKED = 0 ∨ s.fld rNodeTimeStatus fNodeTimeStatus_HOLDOVER = 1) :
    exec .xtalLock s = if s.crystalBack.fld rNodeStatus fNodeStatus_BOOT_STAGE = 8 ∧ s.crystalBack.flt.stopped = false then .next s.crystalBack.bootReady
      else .next s.crystalBack := by
  have run : exec .xtalLock s = execXtalLock s := rfl
  rw [run, execXtalLock, if_neg (by simp only [power, Bool.true_eq_false, false_or]; omega)]
  rfl

theorem crystalBack_fld (f : Fld) : s.crystalBack.fld rNodeTimeStatus f = s.relocked.fld rNodeTimeStatus f := by
  unfold State.crystalBack
  split
  · exact (Standing.refl _).modFlt.logAppend.fld f
  · rfl

theorem crystalBack_locked : s.crystalBack.fld rNodeTimeStatus fNodeTimeStatus_LOCKED = 1 := by
  rw [crystalBack_fld, State.relocked, State.fld_setFld_above _ _ (by decide) (by decide), State.fld_setFld _ _ _ _ (by decide)]
  rfl

theorem crystalBack_holdover : s.crystalBack.fld rNodeTimeStatus fNodeTimeStatus_HOLDOVER = 0 := by
  rw [crystalBack_fld, State.relocked, State.fld_setFld _ _ _ _ (by decide)]
  rfl

theorem crystalBack_status (f : Fld) : s.crystalBack.fld rNodeStatus f = s.fld rNodeStatus f := by
  have relocked : s.relocked.fld rNodeStatus f = s.fld rNodeStatus f :=
    (State.fld_setFld_ne _ (by decide) _ _ _).trans (State.fld_setFld_ne _ (by decide) _ _ _)
  unfold State.crystalBack
  split
  · exact ((Standing.refl _).modFlt.logAppend.fld f).trans relocked
  · exact relocked

theorem crystalBack_sound : s.crystalBack.isFenced 12 0 = false := by
  unfold State.crystalBack
  cases was : s.isFenced 12 0 with
  | true =>
    rw [if_pos rfl, State.isFenced, (Keeps.same _).logAppend.funit, State.funit_modUnit_self]
  | false =>
    exact (congrArg FUnit.fenced ((Keeps.same s).setFld.setFld.funit 12 0)).trans was

theorem crystalBack_time : s.crystalBack.time = s.time := (Keeps.ite (Keeps.refl s).setFld.setFld.modUnit.logAppend (Keeps.refl s).setFld.setFld).time

theorem crystalBack_stopped : s.crystalBack.flt.stopped = s.flt.stopped := by
  have relocked : s.relocked.flt.stopped = s.flt.stopped := by simp [State.relocked]
  unfold State.crystalBack
  split
  · exact (Keeps.same _).logAppend.stopped.trans relocked
  · exact relocked

/-- A boot that is over leaves the time status, and sets READY. -/
theorem bootReady_status : s.bootReady.reg rNodeTimeStatus = s.reg rNodeTimeStatus ∧ s.bootReady.fld rNodeStatus fNodeStatus_READY = 1 := by
  unfold State.bootReady State.setStatus
  dsimp only
  constructor
  · have set : ∀ (t : State) f v, (t.setFld rNodeStatus f v).reg rNodeTimeStatus = t.reg rNodeTimeStatus :=
      fun t f v => State.reg_setReg_of_ne t _ (by decide)
    split
    · rw [State.logPowerOn, (Standing.refl _).logAppend rNodeTimeStatus (by decide) (by decide), set, set, set]
      rfl
    · rw [set, set, set]
      rfl
  · split
    · rw [State.logPowerOn, (Standing.refl _).logAppend.fld, State.fld_setFld _ _ _ _ (by decide)]
      rfl
    · rw [State.fld_setFld _ _ _ _ (by decide)]
      rfl

/-- The crystal back in lock, and the boot that waited for it at stage 8. -/
theorem xtalLock_locks (power : s.board.power = true)
    (lost : s.fld rNodeTimeStatus fNodeTimeStatus_LOCKED = 0 ∨ s.fld rNodeTimeStatus fNodeTimeStatus_HOLDOVER = 1) :
    ∃ t, exec .xtalLock s = .next t ∧ t.fld rNodeTimeStatus fNodeTimeStatus_LOCKED = 1 ∧ t.fld rNodeTimeStatus fNodeTimeStatus_HOLDOVER = 0 ∧
      t.isFenced 12 0 = false ∧ t.time = s.time ∧
      (s.fld rNodeStatus fNodeStatus_BOOT_STAGE = 8 → s.flt.stopped = false → t.fld rNodeStatus fNodeStatus_READY = 1) := by
  by_cases waits : s.fld rNodeStatus fNodeStatus_BOOT_STAGE = 8 ∧ s.flt.stopped = false
  · refine ⟨s.crystalBack.bootReady, ?_, ?_, ?_, ?_, ?_, fun _ _ => bootReady_status.2⟩
    · rw [exec_xtalLock power lost, if_pos (by rwa [crystalBack_status, crystalBack_stopped])]
    · exact (congrArg fNodeTimeStatus_LOCKED.get bootReady_status.1).trans crystalBack_locked
    · exact (congrArg fNodeTimeStatus_HOLDOVER.get bootReady_status.1).trans crystalBack_holdover
    · rw [State.isFenced, (Keeps.same _).bootReady.funit]
      exact crystalBack_sound
    · exact (Keeps.refl _).bootReady.time.trans crystalBack_time
  · refine ⟨s.crystalBack, ?_, crystalBack_locked, crystalBack_holdover, crystalBack_sound, crystalBack_time, fun stage run => absurd ⟨stage, run⟩
      waits⟩
    rw [exec_xtalLock power lost, if_neg (by rwa [crystalBack_status, crystalBack_stopped])]

theorem fenceLane_fences (src lane : Nat) : (s.fenceLane src lane).isFenced 9 lane = true := by
  cases free : s.isFenced 9 lane with
  | true => rwa [State.fenceLane, if_pos free]
  | false =>
    unfold State.isFenced
    rw [fenceLane_funit free]

theorem fenceLane_fenced {src lane l : Nat} (h : s.isFenced 9 l = true) : (s.fenceLane src lane).isFenced 9 l = true := by
  by_cases e : l = lane
  · rw [e]
    exact fenceLane_fences src lane
  · unfold State.isFenced at h ⊢
    rwa [fenceLane_funit_ne (by unfold unitKey; omega)]

theorem foldl_fenceLane {src : Nat} (f : Nat → Nat) (ls : List Nat) {l : Nat} (h : s.isFenced 9 l = true ∨ ∃ i ∈ ls, f i = l) :
    (ls.foldl (fun (t : State) i => t.fenceLane src (f i)) s).isFenced 9 l = true := by
  induction ls generalizing s with
  | nil => simpa using h
  | cons i ls ih =>
    refine ih ?_
    rcases h with fenced | ⟨j, hj, e⟩
    · exact .inl (fenceLane_fenced fenced)
    · rcases List.mem_cons.mp hj with rfl | later
      · exact .inl (e ▸ fenceLane_fences src (f j))
      · exact .inr ⟨j, later, e⟩

theorem refclkFabLoss_fences {n : Nat} (power : s.board.power = true) (low : n < 4) :
    ∃ t, exec (.refclkFabLoss n) s = .next t ∧ ∀ l, 64 * n ≤ l → l < 64 * n + 64 → t.isFenced 9 l = true := by
  refine ⟨_, if_neg (by simp [power, low]), fun l from_ below => ?_⟩
  exact foldl_fenceLane (fun i => 64 * n + i) _ (.inr ⟨l - 64 * n, List.mem_range.mpr (by omega), by omega⟩)

/-- AVS_LOST after a poll, and what the supplies are set to. -/
theorem avsPoll_status {a : Nat} {miss : List Nat} (power : s.board.power = true)
    (missed : miss = (List.range 4).map (fun r => if bitOf a r then 0 else s.board.avsMiss.getD r 0 + 1)) :
    ∃ t, exec (.avsPoll a) s = .next t ∧ t.board.avsMiss = miss ∧ t.fld rNodeRailStatus fNodeRailStatus_AVS_LOST =
      (if miss.all (· == 0) then 0 else if miss.any (fun n => decide (3 ≤ n)) then 1 else s.fld rNodeRailStatus fNodeRailStatus_AVS_LOST) ∧
      (t.fld rNodeRailStatus fNodeRailStatus_AVS_LOST = 0 → ∀ v ∈ t.board.avsSet, 1740 ≤ v ∧ v ≤ 1860) ∧ t.mem = s.mem ∧ t.out = s.out := by
  subst missed
  have was : s.fld rNodeRailStatus fNodeRailStatus_AVS_LOST < 2 := Fld.get_lt _ _
  refine ⟨_, if_neg (by simp [power]), ?_, ?_, ?_, ?_, ?_⟩
  · simp
  · rw [State.fld_setFld _ _ _ _ (by decide)]
    refine Nat.mod_eq_of_lt ?_
    split
    · decide
    · split
      · decide
      · exact was
  · rw [State.fld_setFld _ _ _ _ (by decide)]
    intro none v hv
    simp only [State.setFld_reads, State.putBoard_reads] at hv
    rw [if_neg (fun one => by rw [one] at none; exact absurd none (by decide))] at hv
    simp only [List.mem_cons, List.not_mem_nil, or_false] at hv
    omega
  · simp
  · simp

theorem powerLimit_taken {w : Word} {pf : Nat} (free : s.owned.contains (ownKey rNodePowerLimit fNodePowerLimit_LIMIT_W) = false) :
    (s.writeFields pf rNodePowerLimit w).fld rNodePowerLimit fNodePowerLimit_LIMIT_W = max 900 (min 1500 (fNodePowerLimit_LIMIT_W.get w)) := by
  have spec : regSpecAt rNodePowerLimit = some ⟨rNodePowerLimit, [], [⟨fNodePowerLimit_LIMIT_W, .rwl, 1500, some (900, 1500)⟩]⟩ := rfl
  have whole : isPerPf rNodePowerLimit = false := by decide
  rw [State.fld, State.reg_writeFields s pf w spec (by decide), State.takeFields]
  simp only [whole, Bool.false_eq_true, if_false, List.foldl_cons, List.foldl_nil, free, and_false, State.reg_setReg_self]
  rw [Fld.get_put _ _ _ (by decide)]
  exact Nat.mod_eq_of_lt (lt_of_le_of_lt (by simp only [FldSpec.written]; omega) (by decide : 1500 < 2 ^ fNodePowerLimit_LIMIT_W.width))

/-- A limit in force: the bits of the power status beside it stay. -/
theorem setLimit_status (w : Nat) (h : w ≤ 1500) : (s.setLimit w).fld rNodePowerStatus fNodePowerStatus_LIMIT_EFF_W = w ∧
    (s.setLimit w).fld rNodePowerStatus fNodePowerStatus_LIMIT_CLAMPED = s.fld rNodePowerStatus fNodePowerStatus_LIMIT_CLAMPED ∧
        (s.setLimit w).mem = s.mem := by
  unfold State.setLimit
  dsimp only
  refine ⟨?_, ?_, ?_⟩
  · rw [State.fld_setFld _ _ _ _ (by decide)]
    exact Nat.mod_eq_of_lt (lt_of_le_of_lt h (by decide))
  · rw [State.fld_setFld_below _ _ (by decide) (by decide)]
    rfl
  · simp

/-- A limit written where the image does not own it. -/
theorem nodePowerLimitWrite_limits {w : Word} {pf : Nat} (run : s.flt.stopped = false)
    (free : s.owned.contains (ownKey rNodePowerLimit fNodePowerLimit_LIMIT_W) = false) :
    ∃ t, exec (.nodePowerLimitWrite w pf) s = .next t ∧
      t.fld rNodePowerStatus fNodePowerStatus_LIMIT_EFF_W = max 900 (min 1500 (fNodePowerLimit_LIMIT_W.get w)) ∧
      (fNodePowerLimit_LIMIT_W.get w < 900 ∨ 1500 < fNodePowerLimit_LIMIT_W.get w → t.fld rNodePowerStatus fNodePowerStatus_LIMIT_CLAMPED = 1)
          ∧ t.mem = s.mem := by
  have exe : exec (.nodePowerLimitWrite w pf) s = .next (s.writePowerLimit pf w) := if_neg (by simp [run])
  have taken := powerLimit_taken (w := w) (pf := pf) free
  by_cases far : fNodePowerLimit_LIMIT_W.get w < 900 ∨ 1500 < fNodePowerLimit_LIMIT_W.get w
  · have marked : s.writePowerLimit pf w = ((s.writeFields pf rNodePowerLimit w).setFld rNodePowerStatus fNodePowerStatus_LIMIT_CLAMPED 1).setLimit
        (max 900 (min 1500 (fNodePowerLimit_LIMIT_W.get w))) := by
      unfold State.writePowerLimit
      simp only [free, Bool.false_eq_true, if_false, if_pos far]
      rw [State.fld_setFld_ne _ (by decide), taken]
    obtain ⟨eff, clamped, mem⟩ := setLimit_status (s := (s.writeFields pf rNodePowerLimit w).setFld rNodePowerStatus fNodePowerStatus_LIMIT_CLAMPED 1)
      (max 900 (min 1500 (fNodePowerLimit_LIMIT_W.get w))) (by omega)
    rw [marked] at exe
    refine ⟨_, exe, eff, fun _ => clamped.trans ?_, mem.trans (by simp)⟩
    rw [State.fld_setFld _ _ _ _ (by decide)]
    rfl
  · have plain : s.writePowerLimit pf w = (s.writeFields pf rNodePowerLimit w).setLimit (max 900 (min 1500 (fNodePowerLimit_LIMIT_W.get w))) := by
      unfold State.writePowerLimit
      simp only [free, Bool.false_eq_true, if_false, if_neg far]
      rw [taken]
    obtain ⟨eff, -, mem⟩ := setLimit_status (s := s.writeFields pf rNodePowerLimit w) (max 900 (min 1500 (fNodePowerLimit_LIMIT_W.get w))) (by omega)
    rw [plain] at exe
    exact ⟨_, exe, eff, fun out => absurd out far, mem.trans (by simp)⟩

end

/-- Settles O52: `fatalStop` for the supplies, the heat and the memory clock, and each other event of the package by its own function. -/
theorem package : Obligations.Package := by
  refine ⟨?port, ?perst, ?down, ?rail, ?heat, ?crystal, ?lock, ?host, ?fabric, ?memory, ?bus, ?limit, ?stopped, ?extest, ?off⟩
  case port =>
    intro s port kind power low
    have run : exec (.hostPortReset port kind) s = .next ((if kind = 1 then s else s.setHostUp port false).portReset port) :=
      if_neg (by simp [power, low])
    refine ⟨if kind = 1 then s else s.setHostUp port false, _, rfl, run, ?_, ?_, ?_⟩
    all_goals
      split
      · rfl
      · rfl
  case perst => exact fun s port power plain => ⟨_, if_neg (by simp [power, plain]), rfl, rfl, rfl, rfl⟩
  case down => exact fun s => ⟨_, rfl, rfl, rfl, rfl, rfl, rfl, rfl⟩
  case rail => exact fun s rail power run low good => railFault_stops power run low good
  case heat => exact fun s n power run => thermalShutdown_stops power run
  case crystal =>
    refine fun s power => ⟨fun sound => ?_, fun fenced => ?_⟩
    · obtain ⟨holdover, locked, seen, fenced, recs, mem⟩ := enterHoldover_status (src := 12) sound
      exact ⟨_, if_neg (by simp [power]), holdover, locked, seen, fenced, (Keeps.refl s).enterHoldover.time, recs, mem⟩
    · exact (if_neg (by simp [power])).trans (congrArg _ (if_pos fenced))
  case lock => exact fun s power lost => xtalLock_locks power lost
  case host => exact fun s power => if_neg (by simp [power])
  case fabric => exact fun s n power low => refclkFabLoss_fences power low
  case memory => exact fun s power run => refclkMemLoss_stops power run
  case bus => exact fun s a miss power missed => avsPoll_status power missed
  case limit => exact fun s w pf run free => nodePowerLimitWrite_limits run free
  case stopped => exact fun s w pf run => if_pos run
  case extest =>
    intro s u power cut
    have run : exec .jtagExtest s = execJtagExtest s := rfl
    rw [run, execJtagExtest, if_neg (by simp [power])]
    simp only [List.foldl_cons, List.foldl_nil, ← cut]
  case off =>
    intro s c port kind rail n a hc off
    simp only [List.mem_cons, List.not_mem_nil, or_false] at hc
    rcases hc with rfl | rfl | rfl | rfl | rfl | rfl | rfl | rfl | rfl | rfl | rfl
    all_goals exact if_pos (by simp [off])

end Sys2Proof.Machine
end

section
set_option Elab.async false
/-! SUPPORT. The flash while LUNs fail, rebuild and are scrubbed: what a program and a retirement leave (`Wrote`), and how a unit's superblocks are drained
of a LUN that is being rebuilt (`Draining`). -/

namespace Sys2Proof.Machine

theorem kvDel_mem {α : Type} {k : Nat} {m : KV α} {x : Nat × α} (h : x ∈ kvDel k m) : x ∈ m ∧ x.1 ≠ k := by
  induction m with
  | nil => exact absurd h List.not_mem_nil
  | cons a m ih =>
    unfold kvDel at h
    split at h
    · exact ⟨List.mem_cons_of_mem _ (ih h).1, (ih h).2⟩
    · rename_i other
      rcases List.mem_cons.mp h with rfl | later
      · exact ⟨List.mem_cons_self, fun e => other e.symm⟩
      · exact ⟨List.mem_cons_of_mem _ (ih later).1, (ih later).2⟩

theorem kvUpd_mem {α : Type} {k : Nat} {f : α → α} {m : KV α} {x : Nat × α} (h : x ∈ kvUpd k f m) : x ∈ m ∨ ∃ v, (k, v) ∈ m ∧ x = (k, f v) := by
  unfold kvUpd at h
  split at h
  next v found =>
    rcases kvPut_mem h with new | old
    · exact .inr ⟨v, kvGet?_mem found, new⟩
    · exact .inl old
  next => exact .inl h

theorem kvGet?_none_mem {α : Type} {k : Nat} {m : KV α} (h : kvGet? k m = none) {x : Nat × α} (hx : x ∈ m) : x.1 ≠ k := by
  induction m with
  | nil => exact absurd hx List.not_mem_nil
  | cons a m ih =>
    unfold kvGet? at h
    split at h
    · exact nomatch h
    · rename_i other
      rcases List.mem_cons.mp hx with rfl | later
      · exact fun e => other e.symm
      · exact ih h later

theorem State.flash_modFlash (s : State) (f : Flash → Flash) : (s.modFlash f).flash = f s.flash := rfl

theorem State.flash_putFlash (s : State) (f : Flash) : (s.putFlash f).flash = f := rfl

theorem State.flash_bump (s : State) (o n : Nat) : (s.bump o n).flash = s.flash := by simp only [State.bump_reads]

theorem State.flash_logFlash (s : State) (a b c : Nat) : (s.logFlash a b c).flash = s.flash := by simp only [State.logFlash, State.logAppend_reads]

/-! ### What a program leaves -/

/-- What `t` keeps of `s` where pages were programmed and superblocks opened and closed: requests, memory, blocks, LUNs and the count of retired blocks. -/
structure Wrote (s t : State) : Prop where
  recs : t.recs = s.recs
  mem : t.mem = s.mem
  blocks : t.flash.blocks = s.flash.blocks
  erased : t.flash.erased = s.flash.erased
  rebuild : t.flash.rebuild = s.flash.rebuild
  out : t.flash.out = s.flash.out
  retired : t.ctr cFtlBlocksRetired = s.ctr cFtlBlocksRetired

namespace Wrote
variable {s t : State}

theorem refl (s : State) : Wrote s s := ⟨rfl, rfl, rfl, rfl, rfl, rfl, rfl⟩

theorem trans {u : State} (h : Wrote s t) (g : Wrote t u) : Wrote s u :=
  ⟨g.recs.trans h.recs, g.mem.trans h.mem, g.blocks.trans h.blocks, g.erased.trans h.erased, g.rebuild.trans h.rebuild, g.out.trans h.out,
    g.retired.trans h.retired⟩

theorem ite {u : State} {c : Prop} [Decidable c] (h : Wrote s t) (g : Wrote s u) : Wrote s (if c then t else u) := by
  split
  · exact h
  · exact g

theorem foldl {α : Type} {f : State → α → State} {l : List α} (h : Wrote s t) (step : ∀ u a, Wrote s u → Wrote s (f u a)) :
    Wrote s (l.foldl f t) := by
  induction l generalizing t with
  | nil => exact h
  | cons a l ih => exact ih (step t a h)

theorem putFlash {v : Flash} (h : Wrote s t) (blocks : v.blocks = t.flash.blocks) (erased : v.erased = t.flash.erased)
    (rebuild : v.rebuild = t.flash.rebuild) (out : v.out = t.flash.out) : Wrote s (t.putFlash v) :=
  ⟨h.recs, h.mem, blocks.trans h.blocks, erased.trans h.erased, rebuild.trans h.rebuild, out.trans h.out, h.retired⟩

/-- Other parts of the flash may change at will. -/
theorem modFlash {f : Flash → Flash} (h : Wrote s t) (blocks : (f t.flash).blocks = t.flash.blocks := by rfl)
    (erased : (f t.flash).erased = t.flash.erased := by rfl) (rebuild : (f t.flash).rebuild = t.flash.rebuild := by rfl)
    (out : (f t.flash).out = t.flash.out := by rfl) : Wrote s (t.modFlash f) :=
  h.putFlash blocks erased rebuild out

theorem bump {o n : Nat} (h : Wrote s t) (other : cFtlBlocksRetired ≠ o := by decide) : Wrote s (t.bump o n) := by
  refine h.trans ⟨?_, ?_, ?_, ?_, ?_, ?_, State.ctr_bump_ne (by decide) t n other⟩
  all_goals simp only [State.bump_reads]

theorem logFlash {a b c : Nat} (h : Wrote s t) : Wrote s (t.logFlash a b c) := by
  refine h.trans ⟨?_, ?_, ?_, ?_, ?_, ?_, State.ctr_logAppend t _ _ _⟩
  all_goals simp only [State.logFlash, State.logAppend_reads]

theorem closeSuper {sb : Nat} (h : Wrote s t) : Wrote s (t.closeSuper sb) := by
  unfold State.closeSuper
  split
  · exact h
  · exact ite h.modFlash h.modFlash.bump

theorem leaveOpen {host : Bool} (h : Wrote s t) : Wrote s (t.leaveOpen host) := by
  unfold State.leaveOpen
  split
  · exact h
  · split
    · exact h
    · exact ite h.closeSuper h

end Wrote

/-- Opening a superblock changes the open ones alone. -/
theorem openFor_keeps {f g : Flash} {host : Bool} {sb : Nat} (h : f.openFor host = some (sb, g)) :
    g.blocks = f.blocks ∧ g.erased = f.erased ∧ g.rebuild = f.rebuild ∧ g.out = f.out ∧ g.map = f.map := by
  unfold Flash.openFor at h
  dsimp only at h
  split at h
  · cases h
    exact ⟨rfl, rfl, rfl, rfl, rfl⟩
  · split at h
    · exact nomatch h
    · cases h
      split <;> exact ⟨rfl, rfl, rfl, rfl, rfl⟩

namespace Wrote
variable {s t : State}

theorem program {host : Bool} {key : Nat} (h : Wrote s t) : Wrote s (t.program host key) := by
  unfold State.program
  dsimp only
  split
  · exact h.leaveOpen
  next opened =>
    obtain ⟨blocks, erased, rebuild, out, -⟩ := openFor_keeps opened
    exact bump (putFlash h.leaveOpen blocks erased rebuild out)

theorem relocate {keys : List Nat} (h : Wrote s t) : Wrote s (t.relocate keys) := foldl h fun _ _ g => g.program

end Wrote

/-- A good block is marked retired and counted; the rest moves units. -/
theorem retireBlock_wrote {s : State} {lun b : Nat} (good : s.flash.good lun b = true) :
    Wrote ((s.modFlash fun f => { f with blocks := kvPut (blockKey lun b) { f.blk lun b with retired := true } f.blocks }).bump cFtlBlocksRetired 1)
      (s.retireBlock lun b) := by
  unfold State.retireBlock
  rw [if_neg (by simp [good])]
  dsimp only
  split
  · exact (Wrote.refl _).logFlash
  · split
    · exact Wrote.modFlash (Wrote.ite (Wrote.refl _).logFlash (Wrote.relocate (Wrote.modFlash (Wrote.refl _).logFlash)))
    · exact Wrote.modFlash (Wrote.relocate (Wrote.modFlash (Wrote.refl _).logFlash))

theorem retireBlock_retired {s : State} {lun b : Nat} (good : s.flash.good lun b = true) :
    ((s.retireBlock lun b).flash.blk lun b).retired = true := by
  have marked := (retireBlock_wrote good).blocks
  rw [State.flash_bump] at marked
  unfold Flash.blk
  rw [marked, State.flash_modFlash]
  simp [kvGetD]

theorem closeSuper_none {s : State} {sb : Nat} (h : kvGet? sb s.flash.supers = none) : s.closeSuper sb = s := by
  unfold State.closeSuper
  rw [h]

theorem closeSuper_flash {s : State} {sb : Nat} {x : Super} (h : kvGet? sb s.flash.supers = some x) :
    ∃ fill, (s.closeSuper sb).flash = { s.flash with
      supers := kvPut sb { x with isOpen := false, fill := fill, closedAt := s.now } s.flash.supers
      hostOpen := if s.flash.hostOpen = some sb then none else s.flash.hostOpen
      relOpen := if s.flash.relOpen = some sb then none else s.flash.relOpen } := by
  unfold State.closeSuper
  rw [h]
  refine ⟨x.fill + (if x.fill % (x.chans.length - 1) = 0 then 0 else x.chans.length - 1 - x.fill % (x.chans.length - 1)), ?_⟩
  dsimp only
  generalize (if x.fill % (x.chans.length - 1) = 0 then 0 else x.chans.length - 1 - x.fill % (x.chans.length - 1)) = pad
  split
  · rfl
  · rw [State.flash_bump]
    rfl

/-! ### Draining a unit of a LUN -/

/-- A superblock of the LUN's unit that has it for a member. -/
def Holds (lun : Nat) (x : Nat × Super) : Prop := x.1 / 65536 = lun % 32 ∧ lun / 32 ∈ x.2.chans

/-- The LUN is being rebuilt, and each superblock that still has it for a member is of `ks`, empty, and not the one open for relocation. -/
structure Draining (lun : Nat) (ks : List Nat) (f : Flash) : Prop where
  rebuilt : lun ∈ f.rebuild
  listed : ∀ x ∈ f.supers, Holds lun x → x.1 ∈ ks
  closed : ∀ x ∈ f.supers, Holds lun x → f.relOpen ≠ some x.1
  empty : ∀ x ∈ f.supers, Holds lun x → ∀ y ∈ f.map, y.2.1 ≠ x.1

/-- Whole rows stay of a superblock that closes. -/
theorem closing_chans (now : Nat) (x : Super) : (if x.isOpen then
    { x with isOpen := false, fill := x.fill / (x.chans.length - 1) * (x.chans.length - 1), closedAt := now } else x).chans = x.chans := by
  split
  · rfl
  · rfl

namespace Draining
variable {lun : Nat} {ks : List Nat} {f g : Flash}

/-- Superblocks may close and go, and units may be moved off. -/
theorem of_sub (h : Draining lun ks f) (supers : ∀ x ∈ g.supers, Holds lun x → ∃ y ∈ f.supers, y.1 = x.1 ∧ Holds lun y)
    (map : ∀ y ∈ g.map, y ∈ f.map := by exact fun _ h => h) (relOpen : g.relOpen = f.relOpen ∨ g.relOpen = none := by exact .inl rfl)
    (rebuild : g.rebuild = f.rebuild := by rfl) : Draining lun ks g where
  rebuilt := rebuild ▸ h.rebuilt
  listed x hx holds := by
    obtain ⟨y, hy, same, was⟩ := supers x hx holds
    exact same ▸ h.listed y hy was
  closed x hx holds := by
    obtain ⟨y, hy, same, was⟩ := supers x hx holds
    rcases relOpen with e | e
    · rw [e, ← same]
      exact h.closed y hy was
    · rw [e]
      exact nofun
  empty x hx holds z hz := by
    obtain ⟨y, hy, same, was⟩ := supers x hx holds
    exact same ▸ h.empty y hy was z (map z hz)

/-- An entry put in the place of one with the same members, or of none that holds the LUN. -/
theorem supers_put {sb : Nat} {x : Super} (chans : lun / 32 ∈ x.chans → ∃ w, (sb, w) ∈ f.supers ∧ lun / 32 ∈ w.chans) :
    ∀ y ∈ kvPut sb x f.supers, Holds lun y → ∃ z ∈ f.supers, z.1 = y.1 ∧ Holds lun z := by
  intro y hy holds
  rcases kvPut_mem hy with rfl | old
  · obtain ⟨w, hw, member⟩ := chans holds.2
    exact ⟨_, hw, rfl, holds.1, member⟩
  · exact ⟨y, old, rfl, holds⟩

theorem closeSuper {s : State} {sb : Nat} (h : Draining lun ks s.flash) : Draining lun ks (s.closeSuper sb).flash := by
  cases found : kvGet? sb s.flash.supers with
  | none => rwa [closeSuper_none found]
  | some x =>
    obtain ⟨fill, closed⟩ := closeSuper_flash found
    rw [closed]
    refine h.of_sub (supers_put fun member => ⟨x, kvGet?_mem found, member⟩) (relOpen := ?_)
    dsimp only
    split
    · exact .inr rfl
    · exact .inl rfl

theorem leaveOpen {s : State} {host : Bool} (h : Draining lun ks s.flash) : Draining lun ks (s.leaveOpen host).flash := by
  unfold State.leaveOpen
  split
  · exact h
  · split
    · exact h
    · split
      · exact h.closeSuper
      · exact h

/-- What is picked from a list by comparing is of the list. -/
theorem foldl_pick_mem {better : Nat → Nat → Bool} {l : List Nat} {best : Option Nat} {k : Nat}
    (h : l.foldl (fun (best : Option Nat) k => match best with
      | none => some k
      | some b => if better k b then some k else some b) best = some k) : k ∈ l ∨ best = some k := by
  induction l generalizing best with
  | nil => exact .inr h
  | cons a l ih =>
    rcases ih h with later | now
    · exact .inl (List.mem_cons_of_mem _ later)
    · cases best with
      | none =>
        cases now
        exact .inl List.mem_cons_self
      | some b =>
        dsimp only at now
        split at now
        · cases now
          exact .inl List.mem_cons_self
        · exact .inr now

/-- The superblock picked is in no use. -/
theorem pickFree_unused {host : Bool} {sb : Nat} (h : f.pickFree host = some sb) : kvGet? sb f.supers = none := by
  unfold Flash.pickFree at h
  dsimp only at h
  have picked := (foldl_pick_mem (better := fun k b => (host && f.erases k < f.erases b) || (!host && f.erases b < f.erases k)) h).resolve_right nofun
  obtain ⟨u, -, hu⟩ := List.mem_flatMap.mp picked
  have free := (List.mem_filter.mp hu).2
  simpa using (Bool.and_eq_true_iff.mp free).2

/-- A superblock opened in the LUN's unit is without it. -/
theorem channels_without (h : lun ∈ f.rebuild) : lun / 32 ∉ f.channels (lun % 32) := by
  unfold Flash.channels Flash.lost
  have same : lun / 32 * 32 + lun % 32 = lun := by omega
  simp [same, h]

/-- The superblock open for relocation holds no part of the LUN, and relocation to it keeps the others empty. -/
theorem openFor {sb : Nat} (h : Draining lun ks f) (opened : f.openFor false = some (sb, g)) :
    Draining lun ks g ∧ ∀ x ∈ g.supers, Holds lun x → x.1 ≠ sb := by
  unfold Flash.openFor at opened
  simp only [Bool.false_eq_true, if_false] at opened
  split at opened
  next cur found =>
    cases opened
    have current : f.relOpen = some sb := (Option.filter_eq_some_iff.mp found).1
    exact ⟨h, fun x hx holds e => h.closed x hx holds (e ▸ current)⟩
  next =>
    split at opened
    · exact nomatch opened
    next pick picked =>
      cases opened
      have unused : ∀ x ∈ f.supers, x.1 ≠ sb := fun x hx => kvGet?_none_mem (pickFree_unused picked) hx
      have others : ∀ x ∈ kvPut sb { isOpen := true, chans := f.channels (sb / 65536), fill := 0, closedAt := 0 } f.supers, Holds lun x →
          x ∈ f.supers := by
        intro x hx holds
        rcases kvPut_mem hx with rfl | old
        · exact absurd (holds.1 ▸ holds.2) (channels_without h.rebuilt)
        · exact old
      refine ⟨⟨h.rebuilt, fun x hx holds => h.listed x (others x hx holds) holds, fun x hx holds => ?_,
        fun x hx holds => h.empty x (others x hx holds) holds⟩, fun x hx holds => unused x (others x hx holds)⟩
      exact fun e => unused x (others x hx holds) (Option.some.inj e).symm

/-- An entry with the members of one that holds no part of the LUN. -/
theorem put_apart {sb : Nat} {x : Nat × Super} {y : Super} (apart : ∀ x ∈ f.supers, Holds lun x → x.1 ≠ sb) (hx : x ∈ kvPut sb y f.supers)
    (same : y.chans = ((kvGet? sb f.supers).getD { isOpen := true, chans := [], fill := 0, closedAt := 0 }).chans) (holds : Holds lun x)
        : x ∈ f.supers := by
  rcases kvPut_mem hx with rfl | old
  · cases found : kvGet? sb f.supers with
    | none =>
      rw [found] at same
      exact absurd holds.2 (by simp [same])
    | some w =>
      rw [found] at same
      exact absurd rfl (apart (sb, w) (kvGet?_mem found) ⟨holds.1, same ▸ holds.2⟩)
  · exact old

theorem program {s : State} {key : Nat} (h : Draining lun ks s.flash) : Draining lun ks (s.program false key).flash := by
  unfold State.program
  dsimp only
  split
  · exact h.leaveOpen
  next sb f opened =>
    obtain ⟨drained, apart⟩ := h.leaveOpen.openFor opened
    rw [State.flash_bump, State.flash_putFlash]
    have held := fun {x y} hx same holds => put_apart (x := x) (y := y) apart hx same holds
    refine ⟨drained.rebuilt, fun x hx holds => ?_, fun x hx holds => ?_, fun x hx holds y hy => ?_⟩
    · exact drained.listed x (held hx rfl holds) holds
    · exact drained.closed x (held hx rfl holds) holds
    · have old := held hx rfl holds
      rcases kvPut_mem hy with rfl | was
      · exact (apart x old holds).symm
      · exact drained.empty x old holds y was

theorem relocate {s : State} {keys : List Nat} (h : Draining lun ks s.flash) : Draining lun ks (s.relocate keys).flash := by
  unfold State.relocate
  induction keys generalizing s with
  | nil => exact h
  | cons k keys ih => exact ih h.program

/-- Blocks, stand-ins and counts may change at will. -/
theorem aside (h : Draining lun ks f) (supers : g.supers = f.supers := by rfl) (map : g.map = f.map := by rfl)
    (relOpen : g.relOpen = f.relOpen := by rfl)
    (rebuild : g.rebuild = f.rebuild := by rfl) : Draining lun ks g :=
  h.of_sub (fun x hx holds => ⟨x, supers ▸ hx, rfl, holds⟩) (fun _ hy => map ▸ hy) (.inl relOpen) rebuild

theorem modFlash {s : State} {F : Flash → Flash} (h : Draining lun ks s.flash) (supers : (F s.flash).supers = s.flash.supers := by rfl)
    (map : (F s.flash).map = s.flash.map := by rfl) (relOpen : (F s.flash).relOpen = s.flash.relOpen := by rfl)
    (rebuild : (F s.flash).rebuild = s.flash.rebuild := by rfl) : Draining lun ks (s.modFlash F).flash := h.aside supers map relOpen rebuild

/-- A superblock closed with the members it has. -/
theorem updated {s : State} {F : Flash → Flash} {sb : Nat} {c : Super → Super} (h : Draining lun ks s.flash) (chans : ∀ x, (c x).chans = x.chans)
    (supers : (F s.flash).supers = kvUpd sb c s.flash.supers) (map : (F s.flash).map = s.flash.map)
    (relOpen : (F s.flash).relOpen = if s.flash.relOpen = some sb then none else s.flash.relOpen)
    (rebuild : (F s.flash).rebuild = s.flash.rebuild) : Draining lun ks (s.modFlash F).flash := by
  refine h.of_sub (fun x hx holds => ?_) (fun y hy => map ▸ hy) ?_ rebuild
  · rw [State.flash_modFlash, supers] at hx
    rcases kvUpd_mem hx with old | ⟨v, hv, rfl⟩
    · exact ⟨x, old, rfl, holds⟩
    · exact ⟨_, hv, rfl, holds.1, chans v ▸ holds.2⟩
  · rw [State.flash_modFlash, relOpen]
    split
    · exact .inr rfl
    · exact .inl rfl

theorem deleted {s : State} {sb : Nat} (h : Draining lun ks s.flash) :
    Draining lun ks (s.modFlash fun f => { f with supers := kvDel sb f.supers }).flash :=
  h.of_sub fun x hx holds => ⟨x, (kvDel_mem hx).1, rfl, holds⟩

theorem retireBlock {s : State} {l b : Nat} (h : Draining lun ks s.flash) : Draining lun ks (s.retireBlock l b).flash := by
  unfold State.retireBlock
  split
  · exact h
  · dsimp only
    have marked : Draining lun ks (((s.modFlash fun f => { f with blocks := kvPut (blockKey l b) { f.blk l b with retired := true } f.blocks }).bump
        cFtlBlocksRetired 1).logFlash 0 l b).flash := by
      rw [State.flash_logFlash, State.flash_bump]
      exact h.modFlash
    split
    · exact marked
    · split
      · refine modFlash ?_
        split
        · exact marked
        · exact relocate (marked.updated (closing_chans _) rfl rfl rfl rfl)
      · exact deleted (relocate (marked.updated (closing_chans _) rfl rfl rfl rfl))

/-- A block of an erased superblock: its counts start anew, and one worn past its rating is retired. -/
theorem erasedBlock {s : State} {x : Nat × Nat} {v : FBlock} {c : Prop} [Decidable c] (h : Draining lun ks s.flash) :
    Draining lun ks (if c then (s.modFlash fun f => { f with blocks := kvPut (blockKey x.1 x.2) v f.blocks }).retireBlock x.1 x.2
      else s.modFlash fun f => { f with blocks := kvPut (blockKey x.1 x.2) v f.blocks }).flash := by
  have counted : Draining lun ks (s.modFlash fun f => { f with blocks := kvPut (blockKey x.1 x.2) v f.blocks }).flash := h.modFlash
  split
  · exact counted.retireBlock
  · exact counted

/-- What is erased holds no part of the LUN any more. -/
theorem eraseSuper {s : State} {sb : Nat} (h : Draining lun (sb :: ks) s.flash) : Draining lun ks (s.eraseSuper sb).flash := by
  unfold State.eraseSuper
  dsimp only
  generalize (((kvGet? sb s.flash.supers).map (fun x => x.chans)).getD []).map (fun m => (m * 32 + sb / 65536, s.flash.member sb m)) = blocks
  have gone : Draining lun ks (s.modFlash fun f => { f with
      supers := kvDel sb f.supers, erased := kvPut sb (f.erases sb + 1) f.erased, badPages := f.badPages.filter (fun b => b.1 != sb) }).flash := by
    rw [State.flash_modFlash]
    have left : Draining lun (sb :: ks) { s.flash with supers := kvDel sb s.flash.supers } := h.deleted (s := s)
    refine aside (f := { s.flash with supers := kvDel sb s.flash.supers }) ⟨left.rebuilt, fun x hx holds => ?_, left.closed, left.empty⟩
    exact (List.mem_cons.mp (left.listed x hx holds)).resolve_left (kvDel_mem hx).2
  generalize (s.modFlash fun f => { f with
      supers := kvDel sb f.supers, erased := kvPut sb (f.erases sb + 1) f.erased, badPages := f.badPages.filter (fun b => b.1 != sb) }) = t at gone ⊢
  induction blocks generalizing t with
  | nil => exact gone
  | cons x blocks ih => exact ih _ gone.erasedBlock

theorem weaken {sb : Nat} (h : Draining lun ks f) : Draining lun (sb :: ks) f :=
  ⟨h.rebuilt, fun x hx holds => List.mem_cons_of_mem _ (h.listed x hx holds), h.closed, h.empty⟩

/-- Evacuation of the next superblock: one that holds the LUN is empty, so it is erased. -/
theorem evacuate {s : State} {sb : Nat} (h : Draining lun (sb :: ks) s.flash) : Draining lun ks (s.evacuate sb).flash := by
  by_cases holder : ∃ x ∈ s.flash.supers, Holds lun x ∧ x.1 = sb
  · obtain ⟨x, hx, holds, rfl⟩ := holder
    have empty : s.flash.unitsIn x.1 = [] := by
      unfold Flash.unitsIn
      rw [List.map_eq_nil_iff, List.filter_eq_nil_iff]
      exact fun y hy e => h.empty x hx holds y hy (by simpa using e)
    have erased : s.evacuate x.1 = s.eraseSuper x.1 := by
      unfold State.evacuate
      simp only [empty, State.relocate, List.foldl_nil, List.isEmpty_nil, if_true]
    rw [erased]
    exact h.eraseSuper
  · have rest : Draining lun ks s.flash := ⟨h.rebuilt, fun x hx holds =>
      (List.mem_cons.mp (h.listed x hx holds)).resolve_left fun e => holder ⟨x, hx, holds, e⟩, h.closed, h.empty⟩
    unfold State.evacuate
    dsimp only
    split
    · exact rest.relocate.weaken.eraseSuper
    · exact rest.relocate

theorem evacuateAll {s : State} (h : Draining lun ks s.flash) : Draining lun [] (ks.foldl State.evacuate s).flash := by
  induction ks generalizing s with
  | nil => exact h
  | cons k ks ih => exact ih h.evacuate

/-- Nothing is stuck once all superblocks are drained. -/
theorem unheld (h : Draining lun [] f) : ∀ x ∈ f.supers, ¬Holds lun x := fun x hx holds => nomatch h.listed x hx holds

end Draining

/-! ### The end of a rebuild -/

/-- What `t` keeps of `s` where blocks were retired and superblocks erased. -/
structure Media (s t : State) : Prop where
  recs : t.recs = s.recs
  mem : t.mem = s.mem
  rebuild : t.flash.rebuild = s.flash.rebuild
  out : t.flash.out = s.flash.out

namespace Media
variable {s t : State}

theorem refl (s : State) : Media s s := ⟨rfl, rfl, rfl, rfl⟩

theorem trans {u : State} (h : Media s t) (g : Media t u) : Media s u :=
  ⟨g.recs.trans h.recs, g.mem.trans h.mem, g.rebuild.trans h.rebuild, g.out.trans h.out⟩

theorem wrote {u : State} (h : Media s t) (g : Wrote t u) : Media s u := h.trans ⟨g.recs, g.mem, g.rebuild, g.out⟩

theorem foldl {α : Type} {f : State → α → State} {l : List α} (h : Media s t) (step : ∀ u a, Media s u → Media s (f u a)) :
    Media s (l.foldl f t) := by
  induction l generalizing t with
  | nil => exact h
  | cons a l ih => exact ih (step t a h)

theorem modFlash {f : Flash → Flash} (h : Media s t) (rebuild : (f t.flash).rebuild = t.flash.rebuild := by rfl)
    (out : (f t.flash).out = t.flash.out := by rfl) : Media s (t.modFlash f) :=
  h.trans ⟨rfl, rfl, rebuild, out⟩

theorem bump {o n : Nat} (h : Media s t) : Media s (t.bump o n) := by
  refine h.trans ⟨?_, ?_, ?_, ?_⟩
  all_goals simp only [State.bump_reads]

theorem retireBlock {lun b : Nat} (h : Media s t) : Media s (t.retireBlock lun b) := by
  cases good : t.flash.good lun b with
  | true => exact wrote (bump (modFlash h)) (retireBlock_wrote good)
  | false =>
    have same : t.retireBlock lun b = t := if_pos (by simp [good])
    rwa [same]

theorem eraseSuper {sb : Nat} (h : Media s t) : Media s (t.eraseSuper sb) := by
  refine foldl h.modFlash fun u x g => ?_
  dsimp only
  split
  · exact g.modFlash.retireBlock
  · exact g.modFlash

theorem evacuate {sb : Nat} (h : Media s t) : Media s (t.evacuate sb) := by
  unfold State.evacuate
  dsimp only
  split
  · exact (h.wrote (Wrote.refl t).relocate).eraseSuper
  · exact h.wrote (Wrote.refl t).relocate

end Media

/-- The superblocks in use of the LUN's unit that have it for a member. -/
def State.holders (s : State) (lun : Nat) : List Nat :=
  (s.flash.supers.filter (fun x => x.1 / 65536 == lun % 32 && x.2.chans.contains (lun / 32))).map (fun x => x.1)

/-- The units of the LUN's unit that can no longer be restored, damaged. -/
def State.writtenOff (s : State) (lun : Nat) : State :=
  ((s.flash.map.filter (fun x => x.2.1 / 65536 == lun % 32 && s.flash.unitLoss x.1 == 2)).map (fun x => x.1)).foldl
    (fun (t : State) k => t.modMem (fun m => m.damage (k * 16384) 16384)) s

/-- The open superblocks among some, closed. -/
def State.closeAmong (s : State) (sbs : List Nat) : State :=
  (s.flash.hostOpen.toList ++ s.flash.relOpen.toList).foldl (fun (t : State) b => if sbs.contains b then t.closeSuper b else t) s

/-- The state once the units of the LUN's superblocks have been moved off. -/
def State.drained (s : State) (lun : Nat) : State := (s.holders lun).foldl State.evacuate ((s.writtenOff lun).closeAmong (s.holders lun))

/-- Whether a superblock still holds units behind the LUN. -/
def State.stuck (s : State) (lun : Nat) : Bool :=
  s.flash.supers.any (fun x => x.1 / 65536 == lun % 32 && x.2.chans.contains (lun / 32) && !(s.flash.unitsIn x.1).isEmpty)

section
variable {s : State} {lun : Nat}

theorem exec_lunRebuildDone (h : s.flash.rebuild.contains lun = true) : exec (.lunRebuildDone lun) s =
    if (s.drained lun).stuck lun then .next (s.drained lun).serveP else .next ((((s.drained lun).modFlash fun f =>
      { f with rebuild := f.rebuild.filter (· != lun), out := f.out ++ [lun] }).logFlash 3 lun 0).serveP) := by
  have run : exec (.lunRebuildDone lun) s = execLunRebuildDone lun s := rfl
  rw [run, execLunRebuildDone, if_neg (by simp only [h]; decide)]
  rfl

theorem writtenOff_flash : (s.writtenOff lun).flash = s.flash ∧ (s.writtenOff lun).recs = s.recs := by
  unfold State.writtenOff
  generalize (s.flash.map.filter (fun x => x.2.1 / 65536 == lun % 32 && s.flash.unitLoss x.1 == 2)).map (fun x => x.1) = l
  suffices all : ∀ t : State, (l.foldl (fun (t : State) k => t.modMem (fun m => m.damage (k * 16384) 16384)) t).flash = t.flash ∧
      (l.foldl (fun (t : State) k => t.modMem (fun m => m.damage (k * 16384) 16384)) t).recs = t.recs from all s
  induction l with
  | nil => exact fun t => ⟨rfl, rfl⟩
  | cons k l ih => exact fun t => ih _

theorem drained_media : Media (s.writtenOff lun) (s.drained lun) := by
  refine Media.foldl ?_ fun u a g => g.evacuate
  refine Media.foldl (Media.refl _) fun u a g => ?_
  split
  · exact g.wrote (Wrote.refl u).closeSuper
  · exact g

/-- A superblock in use that is among those to close is not left open for relocation. -/
theorem closes {sbs l : List Nat} {t : State} {r : Nat} (among : r ∈ sbs) (used : kvGet? r t.flash.supers ≠ none)
    (h : r ∈ l ∨ t.flash.relOpen ≠ some r) :
    (l.foldl (fun (t : State) b => if sbs.contains b then t.closeSuper b else t) t).flash.relOpen ≠ some r := by
  induction l generalizing t with
  | nil => exact h.resolve_left List.not_mem_nil
  | cons b l ih =>
    refine (fun next => ih next.1 next.2) (?_ : kvGet? r (if sbs.contains b then t.closeSuper b else t).flash.supers ≠ none ∧
      (r ∈ l ∨ (if sbs.contains b then t.closeSuper b else t).flash.relOpen ≠ some r))
    by_cases closing : sbs.contains b = true
    · rw [if_pos closing]
      cases found : kvGet? b t.flash.supers with
      | none =>
        rw [closeSuper_none found]
        refine ⟨used, h.imp_left fun hr => (List.mem_cons.mp hr).resolve_left ?_⟩
        rintro rfl
        exact used found
      | some x =>
        obtain ⟨fill, closed⟩ := closeSuper_flash found
        rw [closed]
        refine ⟨?_, ?_⟩
        · rw [kvGet?_put]
          split
          · exact nofun
          · exact used
        · dsimp only
          split
          · exact .inr nofun
          · rename_i other
            refine h.elim (fun hr => ?_) .inr
            rcases List.mem_cons.mp hr with rfl | later
            · exact .inr other
            · exact .inl later
    · rw [if_neg closing]
      refine ⟨used, h.imp_left fun hr => (List.mem_cons.mp hr).resolve_left ?_⟩
      rintro rfl
      exact closing (by simpa using among)

/-- Closing superblocks keeps their members and what is mapped. -/
theorem closeAmong_keeps {sbs l : List Nat} {t : State} :
    let u := l.foldl (fun (t : State) b => if sbs.contains b then t.closeSuper b else t) t
    (∀ x ∈ u.flash.supers, ∃ y ∈ t.flash.supers, y.1 = x.1 ∧ y.2.chans = x.2.chans)
        ∧ u.flash.map = t.flash.map ∧ u.flash.rebuild = t.flash.rebuild := by
  induction l generalizing t with
  | nil => exact ⟨fun x hx => ⟨x, hx, rfl, rfl⟩, rfl, rfl⟩
  | cons b l ih =>
    obtain ⟨supers, map, rebuild⟩ := ih (t := if sbs.contains b then t.closeSuper b else t)
    have one : (∀ x ∈ (if sbs.contains b then t.closeSuper b else t).flash.supers, ∃ y ∈ t.flash.supers, y.1 = x.1 ∧ y.2.chans = x.2.chans) ∧
        (if sbs.contains b then t.closeSuper b else t).flash.map = t.flash.map ∧
        (if sbs.contains b then t.closeSuper b else t).flash.rebuild = t.flash.rebuild := by
      split
      · cases found : kvGet? b t.flash.supers with
        | none =>
          rw [closeSuper_none found]
          exact ⟨fun x hx => ⟨x, hx, rfl, rfl⟩, rfl, rfl⟩
        | some w =>
          obtain ⟨fill, closed⟩ := closeSuper_flash found
          rw [closed]
          refine ⟨fun x hx => ?_, rfl, rfl⟩
          rcases kvPut_mem hx with rfl | old
          · exact ⟨_, kvGet?_mem found, rfl, rfl⟩
          · exact ⟨x, old, rfl, rfl⟩
      · exact ⟨fun x hx => ⟨x, hx, rfl, rfl⟩, rfl, rfl⟩
    refine ⟨fun x hx => ?_, map.trans one.2.1, rebuild.trans one.2.2⟩
    obtain ⟨y, hy, key, chans⟩ := supers x hx
    obtain ⟨z, hz, key', chans'⟩ := one.1 y hy
    exact ⟨z, hz, key'.trans key, chans'.trans chans⟩

theorem mem_holders {x : Nat × Super} (hx : x ∈ s.flash.supers) (holds : Holds lun x) : x.1 ∈ s.holders lun :=
  List.mem_map.mpr ⟨x, List.mem_filter.mpr ⟨hx, by simpa [Holds] using holds⟩, rfl⟩

/-- The drain begins with the holders closed, and is over with none left, where nothing is mapped to the unit. -/
theorem drained_unheld (h : s.flash.rebuild.contains lun = true) (off : ∀ x ∈ s.flash.map, x.2.1 / 65536 ≠ lun % 32) :
    Draining lun [] (s.drained lun).flash := by
  refine Draining.evacuateAll ?_
  have flash := (writtenOff_flash (s := s) (lun := lun)).1
  obtain ⟨supers, map, rebuild⟩ := closeAmong_keeps (sbs := s.holders lun) (t := s.writtenOff lun)
    (l := (s.writtenOff lun).flash.hostOpen.toList ++ (s.writtenOff lun).flash.relOpen.toList)
  rw [flash] at supers map rebuild
  have held : ∀ x ∈ ((s.writtenOff lun).closeAmong (s.holders lun)).flash.supers, Holds lun x →
      x.1 ∈ s.holders lun ∧ kvGet? x.1 s.flash.supers ≠ none := by
    intro x hx holds
    unfold State.closeAmong at hx
    rw [flash] at hx
    obtain ⟨y, hy, key, chans⟩ := supers x hx
    exact ⟨key ▸ mem_holders hy ⟨key ▸ holds.1, chans ▸ holds.2⟩, fun none => kvGet?_none_mem none hy key⟩
  refine ⟨?_, fun x hx holds => (held x hx holds).1, fun x hx holds => ?_, fun x hx holds y hy => ?_⟩
  · unfold State.closeAmong
    rw [flash, rebuild]
    simpa using h
  · obtain ⟨among, used⟩ := held x hx holds
    refine closes among (flash ▸ used) ?_
    by_cases current : (s.writtenOff lun).flash.relOpen = some x.1
    · exact .inl (by simp [current])
    · exact .inr current
  · unfold State.closeAmong at hy
    rw [flash, map] at hy
    exact fun e => off y hy (e ▸ holds.1)

theorem stuck_iff : s.stuck lun = true ↔ ∃ x ∈ s.flash.supers, Holds lun x ∧ s.flash.unitsIn x.1 ≠ [] := by
  unfold State.stuck Holds
  simp [and_assoc]

end

end Sys2Proof.Machine
end

section
set_option Elab.async false
/-! SUPPORT. The media events of the flash, one by one. -/

namespace Sys2Proof.Machine

section
variable {s : State} {lun : Nat}

/-- A LUN in service, fenced: its unit, the report, the rebuild and the log. -/
def State.lunFenced (s : State) (lun : Nat) : State :=
  (((s.modUnit 10 lun fun u => { u with fenced := true }).bump cFltFences 1).event 2 8 10 1 lun 0xFF 0).modUnit 10 lun fun u =>
    { u with fences := u.fences + 1 }

theorem fenceLun_eq (sound : s.isFenced 10 lun = false) (there : lun % 32 < s.flash.geom.luns) : s.fenceLun lun =
    (((s.lunFenced lun).modFlash fun f => { f with rebuild := f.rebuild ++ [lun] }).logFlash 1 lun 0).logFlash 2 lun 0 :=
  if_neg (by simp [sound, there])

theorem lunFenced_keeps (s : State) (lun : Nat) :
    (s.lunFenced lun).flash = s.flash ∧ (s.lunFenced lun).mem = s.mem ∧ (s.lunFenced lun).recs = s.recs ∧
    (s.lunFenced lun).ctr cFtlBlocksRetired = s.ctr cFtlBlocksRetired := by
  unfold State.lunFenced
  refine ⟨?_, ?_, ?_, ?_⟩
  · simp [State.modUnit]
  · simp [State.modUnit]
  · simp [State.modUnit]
  · exact (State.ctr_event (by decide) _ _ _ _ _ _ _ _).trans (State.ctr_bump_ne (by decide) _ _ (by decide))

theorem lunFenced_unit (s : State) (lun : Nat) :
    (s.lunFenced lun).funit 10 lun = { s.funit 10 lun with fenced := true, fences := (s.funit 10 lun).fences + 1 } := by
  rw [State.lunFenced, State.funit_modUnit_self, State.funit_event, State.funit_bump, State.funit_modUnit_self]

/-- What a fence of a LUN leaves. -/
theorem fenceLun_keeps (s : State) (lun : Nat) : (s.fenceLun lun).flash.blocks = s.flash.blocks ∧ (s.fenceLun lun).mem = s.mem ∧
    (s.fenceLun lun).recs = s.recs ∧ (s.fenceLun lun).ctr cFtlBlocksRetired = s.ctr cFtlBlocksRetired := by
  by_cases stays : s.isFenced 10 lun = true ∨ s.flash.geom.luns ≤ lun % 32
  · rw [show s.fenceLun lun = s from if_pos stays]
    exact ⟨rfl, rfl, rfl, rfl⟩
  · obtain ⟨flash, mem, recs, ctr⟩ := lunFenced_keeps s lun
    rw [fenceLun_eq (by simpa using fun h => stays (.inl h)) (by omega)]
    refine ⟨?_, ?_, ?_, ?_⟩
    · rw [State.flash_logFlash, State.flash_logFlash, State.flash_modFlash, flash]
    · simp [State.logFlash, State.modFlash, mem]
    · simp [State.logFlash, State.modFlash, recs]
    · exact (State.ctr_logAppend _ _ _ _).trans ((State.ctr_logAppend _ _ _ _).trans ctr)

/-- A LUN fenced anew begins its rebuild. -/
theorem fenceLun_fences (sound : s.isFenced 10 lun = false) (there : lun % 32 < s.flash.geom.luns) : (s.fenceLun lun).isFenced 10 lun = true ∧
    (s.fenceLun lun).flash.rebuild = s.flash.rebuild ++ [lun] ∧ ((s.fenceLun lun).funit 10 lun).fences = (s.funit 10 lun).fences + 1 := by
  have fenced : (s.fenceLun lun).funit 10 lun = { s.funit 10 lun with fenced := true, fences := (s.funit 10 lun).fences + 1 } := by
    rw [fenceLun_eq sound there, (Keeps.same _).logFlash.funit, (Keeps.same _).logFlash.funit]
    exact lunFenced_unit s lun
  refine ⟨?_, ?_, ?_⟩
  · rw [State.isFenced, fenced]
  · rw [fenceLun_eq sound there, State.flash_logFlash, State.flash_logFlash, State.flash_modFlash, (lunFenced_keeps s lun).1]
  · rw [fenced]

/-- The failures of the LUN's blocks in the last second, this one among them. -/
def State.recentFails (s : State) (lun : Nat) : List Nat :=
  ((kvGetD [] lun s.flash.fails).filter (fun t => decide (s.now ≤ t + 1000000000))) ++ [s.now]

def State.failNoted (s : State) (lun : Nat) : State := s.modFlash fun f => { f with fails := kvPut lun (s.recentFails lun) f.fails }

/-- The reads of a block that failed its erase start anew. -/
def State.eraseFailed (s : State) (lun b : Nat) (erase : Bool) : State :=
  if erase then s.modFlash fun f => { f with blocks := kvPut (blockKey lun b) { f.blk lun b with reads := 0, retries := 0 } f.blocks } else s

theorem eraseFailed_retired {b : Nat} {e : Bool} (h : (s.flash.blk lun b).retired = true) :
    ((s.eraseFailed lun b e).flash.blk lun b).retired = true := by
  cases e with
  | false => exact h
  | true => simpa [State.eraseFailed, State.flash_modFlash, Flash.blk, kvGetD] using h

theorem eraseFailed_keeps (b : Nat) (e : Bool) : (s.eraseFailed lun b e).mem = s.mem ∧ (s.eraseFailed lun b e).recs = s.recs ∧
    (s.eraseFailed lun b e).ctr cFtlBlocksRetired = s.ctr cFtlBlocksRetired := by
  cases e with
  | false => exact ⟨rfl, rfl, rfl⟩
  | true => exact ⟨rfl, rfl, rfl⟩

/-- A block that fails is retired and counted, whatever else its LUN comes to. -/
theorem flashProgramFail_retires {b : Nat} {e : Bool} (good : s.flash.good lun b = true) (room : s.ctr cFtlBlocksRetired + 1 < 2 ^ 48 - 1) :
    ∃ t, exec (.flashProgramFail lun b e) s = .next t ∧ (t.flash.blk lun b).retired = true ∧ t.ctr cFtlBlocksRetired = s.ctr cFtlBlocksRetired + 1 ∧
      SameMem s t ∧ t.recs = s.recs := by
  obtain ⟨recs, mem, -, -, -, -, ctr⟩ := retireBlock_wrote (s := s.failNoted lun) (b := b) good
  have retired := retireBlock_retired (s := s.failNoted lun) (b := b) good
  have counted : ((s.failNoted lun).retireBlock lun b).ctr cFtlBlocksRetired = s.ctr cFtlBlocksRetired + 1 :=
    ctr.trans (State.ctr_bump_self _ _ _ room)
  have still : ((s.failNoted lun).retireBlock lun b).mem = s.mem ∧ ((s.failNoted lun).retireBlock lun b).recs = s.recs :=
    ⟨mem.trans (by simp [State.modFlash, State.failNoted]), recs.trans (by simp [State.modFlash, State.failNoted])⟩
  obtain ⟨mem₁, recs₁, ctr₁⟩ := eraseFailed_keeps (s := (s.failNoted lun).retireBlock lun b) (lun := lun) b e
  obtain ⟨blocks₂, mem₂, recs₂, ctr₂⟩ := fenceLun_keeps (((s.failNoted lun).retireBlock lun b).eraseFailed lun b e) lun
  have run : exec (.flashProgramFail lun b e) s = .next (if 16 < (s.recentFails lun).length then
      (((s.failNoted lun).retireBlock lun b).eraseFailed lun b e).fenceLun lun else ((s.failNoted lun).retireBlock lun b).eraseFailed lun b e) :=
    if_neg (by simp [good])
  rw [run]
  have gone := eraseFailed_retired (e := e) retired
  split
  · refine ⟨_, rfl, ?_, ctr₂.trans (ctr₁.trans counted), fun a => ?_, recs₂.trans (recs₁.trans still.2)⟩
    · unfold Flash.blk at gone ⊢
      rw [blocks₂]
      exact gone
    · rw [mem₂, mem₁, still.1]
  · refine ⟨_, rfl, gone, ctr₁.trans counted, fun a => ?_, recs₁.trans still.2⟩
    rw [mem₁, still.1]

theorem lunRebuildDone_cases (h : s.flash.rebuild.contains lun = true) :
    ∃ u, exec (.lunRebuildDone lun) s = .next (State.serveP u) ∧ u.recs = s.recs ∧
    (u.flash.rebuild = s.flash.rebuild.filter (· != lun) ∧ u.flash.out = s.flash.out ++ [lun] ∨
      (s.drained lun).stuck lun = true ∧ u.flash.rebuild = s.flash.rebuild ∧ u.flash.out = s.flash.out ∧ ∃ x ∈ u.flash.map,
          x.2.1 / 65536 = lun % 32) := by
  obtain ⟨recs, -, rebuild, out⟩ := drained_media (s := s) (lun := lun)
  obtain ⟨flash, records⟩ := writtenOff_flash (s := s) (lun := lun)
  rw [flash] at rebuild out
  rw [exec_lunRebuildDone h]
  by_cases stuck : (s.drained lun).stuck lun = true
  · rw [if_pos stuck]
    refine ⟨_, rfl, recs.trans records, .inr ⟨stuck, rebuild, out, ?_⟩⟩
    obtain ⟨x, -, holds, units⟩ := stuck_iff.mp stuck
    obtain ⟨k, hk⟩ := List.exists_mem_of_ne_nil _ units
    obtain ⟨y, hy, -⟩ := List.mem_map.mp hk
    obtain ⟨there, at_⟩ := List.mem_filter.mp hy
    refine ⟨y, there, ?_⟩
    rw [beq_iff_eq.mp at_]
    exact holds.1
  · rw [if_neg stuck]
    refine ⟨_, rfl, ?_, .inl ⟨?_, ?_⟩⟩
    · rw [State.logFlash, (State.logAppend_reads _ _ _).2.2.2.2.2.1]
      exact recs.trans records
    · rw [State.flash_logFlash, State.flash_modFlash, rebuild]
    · rw [State.flash_logFlash, State.flash_modFlash, out]

theorem lunRebuildDone_frees (h : s.flash.rebuild.contains lun = true) (off : ∀ x ∈ s.flash.map, x.2.1 / 65536 ≠ lun % 32) :
    ∃ u, exec (.lunRebuildDone lun) s = .next (State.serveP u) ∧ u.flash.rebuild = s.flash.rebuild.filter (· != lun)
        ∧ u.flash.out = s.flash.out ++ [lun] ∧
      u.recs = s.recs := by
  obtain ⟨u, run, recs, done | ⟨stuck, -⟩⟩ := lunRebuildDone_cases h
  · exact ⟨u, run, done.1, done.2, recs⟩
  · obtain ⟨x, hx, holds, -⟩ := stuck_iff.mp stuck
    exact absurd holds ((drained_unheld h off).unheld x hx)

/-- An empty victim of the collection is erased at once. -/
theorem collect_empty {n sb : Nat} (short : s.freeBelow s.gcHigh = true) (victim : s.gcVictim = some sb) (empty : s.flash.unitsIn sb = []) :
    State.collect (n + 1) s = State.collect n (s.eraseSuper sb) := by
  rw [State.collect, if_neg (by simp [short]), victim]
  simp [empty, State.evacuate, State.relocate]

theorem retireBlock_erased (s : State) (l b : Nat) : (s.retireBlock l b).flash.erased = s.flash.erased := by
  cases good : s.flash.good l b with
  | true =>
    have erased := (retireBlock_wrote good).erased
    rwa [State.flash_bump] at erased
  | false => rw [show s.retireBlock l b = s from if_pos (by simp [good])]

/-- Of the erase counts of superblocks, the erased one's alone goes up. -/
theorem eraseSuper_erases (s : State) (sb : Nat) : (s.eraseSuper sb).flash.erases sb = s.flash.erases sb + 1 := by
  have counted : (s.eraseSuper sb).flash.erased = kvPut sb (s.flash.erases sb + 1) s.flash.erased := by
    unfold State.eraseSuper
    dsimp only
    generalize (((kvGet? sb s.flash.supers).map (fun x => x.chans)).getD []).map (fun m => (m * 32 + sb / 65536, s.flash.member sb m)) = blocks
    refine List.foldlRecOn blocks _ (motive := fun (t : State) => t.flash.erased = kvPut sb (s.flash.erases sb + 1) s.flash.erased) rfl fun
        (t : State) h x _ => ?_
    split
    · rw [retireBlock_erased, State.flash_modFlash]
      exact h
    · exact h
  rw [Flash.erases, counted]
  simp [kvGetD]

/-! ### Reads for scrub -/

/-- The block's counts after a read, with retries or without. -/
def FBlock.scrubbed (b : FBlock) (retry : Bool) (ber : Nat) : FBlock :=
  { b with reads := b.reads + 1, retries := if retry then min 0xFFFF (b.retries + 1) else b.retries, ber := ber }

def State.scrubCounted (s : State) (lun b : Nat) (retry : Bool) : State :=
  let t := s.fresh.2.modFlash fun f =>
    { f with blocks := kvPut (blockKey lun b) ((s.flash.blk lun b).scrubbed retry (s.fresh.1.toNat % 65536)) f.blocks }
  if retry then t.bump cFtlRetryReads 1 else t

theorem exec_mediaScrubRead {b page k : Nat} {found : ScrubFound} (here : k ∈ s.flash.unitsOfBlock lun b)
    (place : (s.flash.placeOf k).map (fun x => x.2.2) = some page) (retry : Bool) (same : retry = (found == .retried || found == .deepRetry)) :
    exec (.mediaScrubRead lun b page found) s =
      if (s.flash.blk lun b).reads + 1 < 2 * ((s.flash.blk lun b).scrubbed retry 0).retries then .next
          ((s.scrubCounted lun b retry).retireBlock lun b)
      else if found = .deepRetry ∨ found = .weak ∨ (s.scrubCounted lun b retry).fld rFtlCfg fFtlCfg_DISTURB_K * 1000 <
          (s.flash.blk lun b).reads + 1 then
        .next (((s.scrubCounted lun b retry).relocate (s.flash.unitsOfBlock lun b)).bump cFtlScrubRelocated 1)
      else .next (s.scrubCounted lun b retry) := by
  have run : exec (.mediaScrubRead lun b page found) s = execMediaScrubRead lun b page found s := rfl
  subst same
  obtain ⟨x, hx, page⟩ := Option.map_eq_some_iff.mp place
  rw [run, execMediaScrubRead, if_neg]
  · rfl
  · simp only [Bool.not_eq_true', Bool.not_eq_false]
    exact List.any_eq_true.mpr ⟨k, here, by simp [hx, page]⟩

theorem scrubCounted_keeps (b : Nat) (retry : Bool) :
    (s.scrubCounted lun b retry).flash.blk lun b = (s.flash.blk lun b).scrubbed retry (s.fresh.1.toNat % 65536) ∧
    (s.scrubCounted lun b retry).flash.map = s.flash.map ∧ (s.scrubCounted lun b retry).mem = s.mem ∧
    (s.scrubCounted lun b retry).reg rFtlCfg = s.reg rFtlCfg ∧ (retry = false → (s.scrubCounted lun b retry).regs = s.regs) ∧
    (s.flash.good lun b = true → (s.scrubCounted lun b retry).flash.good lun b = true) := by
  have block : ∀ v, (s.fresh.2.modFlash fun f => { f with blocks := kvPut (blockKey lun b) v f.blocks }).flash.blk lun b = v := by
    intro v
    simp [State.flash_modFlash, Flash.blk, kvGetD]
  have still : ∀ v : FBlock, v.retired = (s.flash.blk lun b).retired → s.flash.good lun b = true →
      (s.fresh.2.modFlash fun f => { f with blocks := kvPut (blockKey lun b) v f.blocks }).flash.good lun b = true := by
    intro v same good
    unfold Flash.good at good ⊢
    rw [block, same]
    exact good
  cases retry with
  | false => exact ⟨block _, rfl, rfl, rfl, fun _ => rfl, still _ rfl⟩
  | true =>
    unfold State.scrubCounted
    dsimp only
    rw [if_pos rfl, State.flash_bump]
    refine ⟨block _, rfl, ?_, ?_, nofun, still _ rfl⟩
    · simp [State.modFlash, State.fresh]
    · exact (Aside.refl _).bump.reg _ (.inl (by decide))

/-- A block with too many reads that needed retries is retired; else its counts tell whether it is relocated. -/
theorem scrub_sound {b page k : Nat} (here : k ∈ s.flash.unitsOfBlock lun b) (place : (s.flash.placeOf k).map (fun x => x.2.2) = some page)
    (fresh : (s.flash.blk lun b).reads + 1 ≤ s.fld rFtlCfg fFtlCfg_DISTURB_K * 1000)
        (few : 2 * (s.flash.blk lun b).retries ≤ (s.flash.blk lun b).reads + 1) :
    ∃ t, exec (.mediaScrubRead lun b page .sound) s = .next t ∧ (t.flash.blk lun b).reads = (s.flash.blk lun b).reads + 1 ∧
      (t.flash.blk lun b).retries = (s.flash.blk lun b).retries ∧ t.flash.map = s.flash.map ∧ t.mem = s.mem ∧ t.regs = s.regs := by
  obtain ⟨block, map, mem, cfg, regs, -⟩ := scrubCounted_keeps (s := s) (lun := lun) b false
  refine ⟨s.scrubCounted lun b false, ?_, by rw [block]; rfl, by rw [block]; rfl, map, mem, regs rfl⟩
  rw [exec_mediaScrubRead here place false rfl, if_neg (by simp only [FBlock.scrubbed, Bool.false_eq_true, if_false]; omega), if_neg]
  rw [State.fld, cfg]
  simpa [State.fld] using fresh

theorem scrub_retried {b page k : Nat} (here : k ∈ s.flash.unitsOfBlock lun b) (place : (s.flash.placeOf k).map (fun x => x.2.2) = some page)
    (few : 2 * min 0xFFFF ((s.flash.blk lun b).retries + 1) ≤ (s.flash.blk lun b).reads + 1)
    (fresh : (s.flash.blk lun b).reads + 1 ≤ s.fld rFtlCfg fFtlCfg_DISTURB_K * 1000) :
    ∃ t, exec (.mediaScrubRead lun b page .retried) s = .next t ∧ (t.flash.blk lun b).retries = min 0xFFFF ((s.flash.blk lun b).retries + 1) ∧
      t.flash.map = s.flash.map ∧ t.mem = s.mem := by
  obtain ⟨block, map, mem, cfg, -⟩ := scrubCounted_keeps (s := s) (lun := lun) b true
  refine ⟨s.scrubCounted lun b true, ?_, by rw [block]; rfl, map, mem⟩
  rw [exec_mediaScrubRead here place true rfl, if_neg (by simp only [FBlock.scrubbed, if_true]; omega), if_neg]
  rw [State.fld, cfg]
  simpa [State.fld] using fresh

theorem scrub_weak {b page k : Nat} (here : k ∈ s.flash.unitsOfBlock lun b) (place : (s.flash.placeOf k).map (fun x => x.2.2) = some page)
    (few : 2 * (s.flash.blk lun b).retries ≤ (s.flash.blk lun b).reads + 1) :
    ∃ u : State, exec (.mediaScrubRead lun b page .weak) s = .next ((u.relocate (s.flash.unitsOfBlock lun b)).bump cFtlScrubRelocated 1) ∧
      (u.flash.blk lun b).retries = (s.flash.blk lun b).retries ∧ u.flash.map = s.flash.map := by
  obtain ⟨block, map, -⟩ := scrubCounted_keeps (s := s) (lun := lun) b false
  refine ⟨s.scrubCounted lun b false, ?_, by rw [block]; rfl, map⟩
  rw [exec_mediaScrubRead here place false rfl, if_neg (by simp only [FBlock.scrubbed, Bool.false_eq_true, if_false]; omega), if_pos
      (.inr (.inl rfl))]

theorem scrub_deep {b page k : Nat} (here : k ∈ s.flash.unitsOfBlock lun b) (place : (s.flash.placeOf k).map (fun x => x.2.2) = some page)
    (few : 2 * min 0xFFFF ((s.flash.blk lun b).retries + 1) ≤ (s.flash.blk lun b).reads + 1) :
    ∃ u : State, exec (.mediaScrubRead lun b page .deepRetry) s = .next ((u.relocate (s.flash.unitsOfBlock lun b)).bump cFtlScrubRelocated 1) ∧
      (u.flash.blk lun b).retries = min 0xFFFF ((s.flash.blk lun b).retries + 1) ∧ u.flash.map = s.flash.map := by
  obtain ⟨block, map, -⟩ := scrubCounted_keeps (s := s) (lun := lun) b true
  refine ⟨s.scrubCounted lun b true, ?_, by rw [block]; rfl, map⟩
  rw [exec_mediaScrubRead here place true rfl, if_neg (by simp only [FBlock.scrubbed, if_true]; omega), if_pos (.inl rfl)]

theorem scrub_retires {b page k : Nat} {found : ScrubFound} (here : k ∈ s.flash.unitsOfBlock lun b)
    (place : (s.flash.placeOf k).map (fun x => x.2.2) = some page)
    (many : (s.flash.blk lun b).reads + 1 < 2 * min 0xFFFF ((s.flash.blk lun b).retries + 1)) (good : s.flash.good lun b = true)
    (retry : found = .retried ∨ found = .deepRetry) :
    ∃ t, exec (.mediaScrubRead lun b page found) s = .next t ∧ (t.flash.blk lun b).retired = true := by
  obtain ⟨-, -, -, -, -, still⟩ := scrubCounted_keeps (s := s) (lun := lun) b true
  refine ⟨(s.scrubCounted lun b true).retireBlock lun b, ?_, retireBlock_retired (still good)⟩
  rw [exec_mediaScrubRead here place true (by rcases retry with rfl | rfl <;> rfl), if_pos (by simpa only [FBlock.scrubbed, if_true] using many)]

theorem scrub_absent {b page : Nat} {found : ScrubFound} (empty : s.flash.unitsOfBlock lun b = []) :
    exec (.mediaScrubRead lun b page found) s = .next s :=
  if_pos (by simp [empty])

/-! ### SPARE_PERMIL -/

/-- A place kept free is an allocation: no byte, no register and nothing of the flash changes. -/
theorem reserve_keeps (s : State) (a n : Nat) : (s.reserve .flashMap a n).flash = s.flash ∧ (s.reserve .flashMap a n).regs = s.regs ∧
    ∀ x, (s.reserve .flashMap a n).mem.read x = s.mem.read x := by
  refine ⟨rfl, rfl, fun x => ?_⟩
  unfold State.reserve State.modMem State.putMem
  dsimp only
  split
  · rfl
  · rfl

theorem foldl_reserve_keeps (bases : List Nat) (n : Nat) (s : State) :
    (bases.foldl (fun (u : State) a => u.reserve .flashMap a n) s).flash = s.flash ∧
    (bases.foldl (fun (u : State) a => u.reserve .flashMap a n) s).regs = s.regs ∧
    ∀ x, (bases.foldl (fun (u : State) a => u.reserve .flashMap a n) s).mem.read x = s.mem.read x := by
  induction bases generalizing s with
  | nil => exact ⟨rfl, rfl, fun _ => rfl⟩
  | cons a bases ih =>
    obtain ⟨flash, regs, mem⟩ := ih (s.reserve .flashMap a n)
    obtain ⟨flash', regs', mem'⟩ := reserve_keeps s a n
    exact ⟨flash.trans flash', regs.trans regs', fun x => (mem x).trans (mem' x)⟩

theorem reserveMap_keeps (s : State) : s.reserveMap.flash = s.flash ∧ s.reserveMap.regs = s.regs ∧ ∀ x, s.reserveMap.mem.read x = s.mem.read x := by
  unfold State.reserveMap
  dsimp only
  generalize s.flash.mapGib * 2 ^ 29 = half
  generalize [0x20000000000 - half, 0x30000000000 - 2 ^ 26 - half] = bases
  split
  · exact foldl_reserve_keeps bases half _
  · exact ⟨rfl, rfl, fun _ => rfl⟩

/-- The word that a write of FTL_CFG leaves, at a spare of `sigma`. -/
def spareWord (w : Word) (sigma : Nat) : Word :=
  packFields [(fFtlCfg_REBUILD_PCT, max 5 (min 100 (fFtlCfg_REBUILD_PCT.get w))), (fFtlCfg_SCRUB_DAYS, max 1 (min 255 (fFtlCfg_SCRUB_DAYS.get w))),
    (fFtlCfg_DISTURB_K, fFtlCfg_DISTURB_K.get w), (fFtlCfg_WEAR_SPREAD, max 20 (min 2000 (fFtlCfg_WEAR_SPREAD.get w))), (fFtlCfg_SPARE_PERMIL, sigma)]

theorem spareWord_spare (w : Word) {sigma : Nat} (h : sigma < 2 ^ 10) : fFtlCfg_SPARE_PERMIL.get (spareWord w sigma) = sigma := by
  unfold spareWord packFields
  simp only [List.foldl_cons, List.foldl_nil]
  rw [Fld.get_put _ _ _ (by decide)]
  exact Nat.mod_eq_of_lt h

theorem spareWord_wear (w : Word) (sigma : Nat) : fFtlCfg_WEAR_SPREAD.get (spareWord w sigma) = max 20 (min 2000 (fFtlCfg_WEAR_SPREAD.get w)) := by
  unfold spareWord packFields
  simp only [List.foldl_cons, List.foldl_nil]
  rw [Fld.get_put_below (by decide) (by decide), Fld.get_put _ _ _ (by decide)]
  exact Nat.mod_eq_of_lt (lt_of_le_of_lt (by omega) (by decide : 2000 < 2 ^ fFtlCfg_WEAR_SPREAD.width))

theorem spareSet_spare (w : Word) {sigma : Nat} (h : sigma < 2 ^ 10) :
    (s.setReg rFtlCfg (spareWord w sigma)).fld rFtlCfg fFtlCfg_SPARE_PERMIL = sigma := by
  rw [State.fld, State.reg_setReg_self, spareWord_spare w h]

theorem spareSet_wear (w : Word) (sigma : Nat) :
    (s.setReg rFtlCfg (spareWord w sigma)).fld rFtlCfg fFtlCfg_WEAR_SPREAD = max 20 (min 2000 (fFtlCfg_WEAR_SPREAD.get w)) := by
  rw [State.fld, State.reg_setReg_self, spareWord_wear]

theorem spareSet_keeps (w : Word) (sigma : Nat) :
    (s.setReg rFtlCfg (spareWord w sigma)).flash = s.flash ∧ (s.setReg rFtlCfg (spareWord w sigma)).mem = s.mem := by simp

theorem exec_ftlSpareWrite (w : Word) : exec (.ftlSpareWrite w) s = execFtlSpareWrite w s := rfl

theorem execFtlSpareWrite_held (w : Word) (held : (!s.flash.ns.isEmpty || s.mem.allocs.any (fun a => tierOf a.1 == some 3)) = true) :
    execFtlSpareWrite w s = .next (s.setReg rFtlCfg (spareWord w (s.fld rFtlCfg fFtlCfg_SPARE_PERMIL))) := by
  rw [execFtlSpareWrite]
  simp only [held, if_true, true_or, spareWord]

/-- While something is stored on the flash, the spare stays. -/
theorem ftlSpareWrite_held {w : Word} (stored : s.flash.ns ≠ []) : ∃ t, exec (.ftlSpareWrite w) s = .next t ∧
    t.fld rFtlCfg fFtlCfg_SPARE_PERMIL = s.fld rFtlCfg fFtlCfg_SPARE_PERMIL ∧
    t.fld rFtlCfg fFtlCfg_WEAR_SPREAD = max 20 (min 2000 (fFtlCfg_WEAR_SPREAD.get w)) ∧ t.flash = s.flash ∧ t.mem = s.mem :=
  ⟨_, (exec_ftlSpareWrite w).trans (execFtlSpareWrite_held w (by simp [stored])), spareSet_spare w (Fld.get_lt _ _), spareSet_wear w _,
    (spareSet_keeps w _).1, (spareSet_keeps w _).2⟩

theorem State.regs_modFlash (s : State) (f : Flash → Flash) : (s.modFlash f).regs = s.regs := rfl

theorem State.mem_modFlash (s : State) (f : Flash → Flash) : (s.modFlash f).mem = s.mem := rfl

theorem reg_of_regs {t : State} (h : t.regs = s.regs) {x : Nat} : t.reg x = s.reg x := by
  unfold State.reg
  rw [h]

/-- What a new spare leaves: the register, and on sound media the capacity that goes with it. -/
def State.respared (s : State) (w : Word) (sigma : Nat) : State :=
  if s.flash.media ≠ 2 then s.setReg rFtlCfg (spareWord w sigma)
  else ((s.setReg rFtlCfg (spareWord w sigma)).modFlash fun f => f.format sigma).reserveMap

theorem respared_keeps (w : Word) {sigma : Nat} (h : sigma < 2 ^ 10) : (s.respared w sigma).fld rFtlCfg fFtlCfg_SPARE_PERMIL = sigma ∧
    (s.flash.media = 2 → (s.respared w sigma).flash = s.flash.format sigma) ∧ SameMem s (s.respared w sigma) := by
  unfold State.respared
  split
  next other =>
    refine ⟨?_, fun sound => absurd sound other, fun a => ?_⟩
    · exact spareSet_spare w h
    · rw [(spareSet_keeps w sigma).2]
  next =>
    obtain ⟨flash, regs, mem⟩ := reserveMap_keeps ((s.setReg rFtlCfg (spareWord w sigma)).modFlash fun f => f.format sigma)
    refine ⟨?_, fun _ => ?_, fun a => ?_⟩
    · rw [State.fld, reg_of_regs (regs.trans (State.regs_modFlash _ _))]
      exact spareSet_spare w h
    · rw [flash, State.flash_modFlash, (spareSet_keeps w sigma).1]
    · rw [mem, State.mem_modFlash, (spareSet_keeps w sigma).2]

/-- With nothing stored on the flash, the spare takes effect. -/
theorem ftlSpareWrite_free {w : Word} (none : s.flash.ns = []) (free : ∀ x ∈ s.mem.allocs, tierOf x.1 ≠ some 3) :
    ∃ t, exec (.ftlSpareWrite w) s = .next t ∧
    t.fld rFtlCfg fFtlCfg_SPARE_PERMIL = max 50 (min 300 (fFtlCfg_SPARE_PERMIL.get w)) ∧
    (s.flash.media = 2 → t.flash = s.flash.format (max 50 (min 300 (fFtlCfg_SPARE_PERMIL.get w)))) ∧ SameMem s t := by
  have held : (!s.flash.ns.isEmpty || s.mem.allocs.any (fun a => tierOf a.1 == some 3)) = false := by simpa [none] using free
  obtain ⟨spare, flash, mem⟩ := respared_keeps (s := s) w (sigma := max 50 (min 300 (fFtlCfg_SPARE_PERMIL.get w))) (by omega)
  have run : exec (.ftlSpareWrite w) s = .next (if max 50 (min 300 (fFtlCfg_SPARE_PERMIL.get w)) = s.fld rFtlCfg fFtlCfg_SPARE_PERMIL then
      s.respared w (max 50 (min 300 (fFtlCfg_SPARE_PERMIL.get w))) else
      (s.respared w (max 50 (min 300 (fFtlCfg_SPARE_PERMIL.get w)))).logFlash 5 0 (max 50 (min 300 (fFtlCfg_SPARE_PERMIL.get w)))) := by
    have e : exec (.ftlSpareWrite w) s = execFtlSpareWrite w s := rfl
    rw [e, execFtlSpareWrite]
    simp only [held, Bool.false_eq_true, if_false, false_or, State.respared, spareWord, State.setReg_reads]
  rw [run]
  split
  · exact ⟨_, rfl, spare, flash, mem⟩
  · refine ⟨_, rfl, ?_, fun sound => ?_, fun a => ?_⟩
    · rw [State.fld, State.logFlash, State.reg_logAppend _ _ _ (by decide)]
      exact spare
    · rw [State.flash_logFlash]
      exact flash sound
    · rw [State.logFlash, (State.logAppend_reads _ _ _).2.2.2.2.2.2.2.2.2.2.2.2.2.1]
      exact mem a

end

/-- Settles O39: blocks and LUNs by `retireBlock` and `fenceLun`, the rebuild by its drain, scrub by the block's counts. -/
theorem flashMedia : Obligations.FlashMedia := by
  refine ⟨?fails, ?dead, ?fence, ?fenced, ?rebuild, ?frees, ?whole, ?gc, ?victim, ?wear, ?scrub, ?absent, ?held, ?spare⟩
  case fails => exact fun s lun b e good room => flashProgramFail_retires good room
  case dead => exact fun s lun b e bad => if_pos (by simp [bad])
  case fence =>
    intro s lun sound there
    obtain ⟨fenced, rebuild, fences⟩ := fenceLun_fences sound there
    obtain ⟨-, mem, recs, -⟩ := fenceLun_keeps s lun
    exact ⟨_, rfl, fenced, rebuild, fences, fun a => by rw [mem], recs⟩
  case fenced => exact fun s lun fenced => congrArg _ (if_pos (.inl fenced))
  case rebuild =>
    intro s lun h
    obtain ⟨u, run, recs, done⟩ := lunRebuildDone_cases h
    exact ⟨u, run, recs, done.imp_right fun x => x.2⟩
  case frees => exact fun s lun h off => lunRebuildDone_frees h off
  case whole => exact fun s lun h => if_pos (by simp only [h]; decide)
  case gc => exact fun s => ⟨fun high => if_neg (by simp [high]), fun low => if_pos low⟩
  case victim => exact fun s n sb short victim empty => ⟨collect_empty short victim empty, eraseSuper_erases s sb⟩
  case wear =>
    rintro s lo hi n bounds rfl
    have run : exec .wearLevelStart s = execWearLevelStart s := rfl
    rw [run, execWearLevelStart, bounds]
    exact ⟨fun near => if_neg (by omega), fun far => if_pos far⟩
  case scrub =>
    exact fun s lun b page k here place => ⟨fun fresh few => scrub_sound here place fresh few, fun few fresh => scrub_retried here place few fresh,
      fun few => scrub_weak here place few, fun few => scrub_deep here place few, fun many good f retry => scrub_retires here place many good retry⟩
  case absent => exact fun s lun b page found empty => scrub_absent empty
  case held => exact fun s w stored => ftlSpareWrite_held stored
  case spare => exact fun s w none free => ftlSpareWrite_free none free

end Sys2Proof.Machine
end
